-- ==== Sys2Proof/Word.lean ====
section
/-! DEFINITION. The word types of the spec and the one sparse store that every addressed
memory of the model uses. -/
namespace Sys2Proof

/-- A byte of any memory of the part. -/
abbrev Byte := BitVec 8

/-- A 32-bit register or record word (R6, R433). -/
abbrev Word := BitVec 32

/-- A tide stamp: 32 bits of seconds over 64 bits of binary fraction (R133). -/
abbrev Stamp := BitVec 96

/-- The tide counter with its 32 further fraction bits below the unit of a stamp (R134). -/
abbrev Tide := BitVec 128

/-- A bay number, 0 to 7 (glossary of 00_scope.md). -/
abbrev BayNo := Fin 8

/-- `k` ones in the low bits, as a word. -/
def bitW (b : Bool) : Nat := if b then 1 else 0

/-- Saturating addition of `n` under the largest value `hi`. -/
def satAdd (hi a n : Nat) : Nat := min hi (a + n)

/-- A word that holds an integer in two's complement. -/
def Word.ofSigned (v : Int) : Word := BitVec.ofInt 32 v

/-- The field [hi:lo] of a natural number read as bits. -/
def bits (v hi lo : Nat) : Nat := (v >>> lo) % 2 ^ (hi + 1 - lo)

/-- Ceiling division. -/
def ceilDiv (a b : Nat) : Nat := (a + b - 1) / b

/-- A sparse store: key and value pairs, keys strictly rising, no value equal to the default. -/
abbrev Sparse (α : Type) := List (Nat × α)

end Sys2Proof
end

