-- ==== Sys2Proof/Settings.lean ====
section
/-! DEFINITION. What a setting field is: the columns of the setting tables (00_scope.md, Conventions;
R40, R41, R44, R65). -/
namespace Sys2Proof

/-- The apply points of R65. -/
inductive ApplyPoint where
  | immediate | hop | epoch | vblank | acqRestart | imageRestart
  deriving DecidableEq, Repr

/-- The side of a field: sealed, open, or a shoal field (R40, R46, R621). -/
inductive Side where
  | sealed | opened | shoal
  deriving DecidableEq, Repr

/-- What a field's Range column asks beyond its bounds. -/
inductive FieldKind where
  | plain | array | queue | queueOrNone | bay | channel | unit | endpoint | portOrNone
  | refPrio | traceInterval | calInterval | lanes124 | lanes1248 | np | drives
  deriving DecidableEq, Repr

/-- One row of a setting table; `count` instances stand `stride` ids apart. -/
structure Field where
  block : Nat
  id : Nat
  stride : Nat := 0
  count : Nat := 1
  width : Nat
  lo : Int
  hi : Int
  dflt : Int
  signed : Bool := false
  apply : ApplyPoint
  side : Side
  pkg : Bool
  dflts : List Int := []
  len : Nat := 1
  step : Nat := 1
  kind : FieldKind := .plain
  deriving DecidableEq, Repr

/-- A setting key: block code, bay mask and field id (R41). -/
structure Key where
  block : Nat
  mask : Nat
  id : Nat
  deriving DecidableEq, Repr

end Sys2Proof
end

