-- ==== Sys2Proof/Machine/St/Base.lean ====
section
/-! DEFINITION. State shared by every block: the record, and what leaves the package. -/
namespace Sys2Proof.Machine

/-- The record types of R440. -/
inductive RecType where
  | iq | spectrum | trace | density | trigger | result | gap | flush | cal | seallog | monitor | epoch
  | status | timeRejoin
  deriving DecidableEq, Repr

/-- A record: the header of R433 and R438 to R440, its payload words and its trailer (R444; empty for an
open record). `domain` is 0 sealed, 1 open. -/
structure Rec where
  typ : RecType
  flags : BitVec 8
  source : BitVec 8
  bay : BayNo
  package : BitVec 2
  domain : BitVec 3
  length : BitVec 16
  gen : BitVec 16
  seq : Word
  stamp : Stamp
  w6lo : BitVec 16
  w6hi : BitVec 16
  crc : Word
  payload : List Word
  trailer : List Word
  /-- Its stream's injector has selected it (R750); the model's own mark, no part of the record's bytes. -/
  picked : Bool := false
  deriving DecidableEq, Repr

/-- The reasons of a GAP record (R442). -/
inductive GapReason where
  | acqRestart | clockWrite | clockFault | cal | xsLoss | replayStall | watch | dropped
  deriving DecidableEq, Repr

/-- A gap that has opened and not closed: its reason and its start. -/
structure OpenGap where
  reason : GapReason
  start : Stamp
  deriving DecidableEq, Repr

/-- The indicators of a signal data packet's trailer (R568). -/
structure VrtMarks where
  calibrated : Bool
  valid : Bool
  locked : Bool
  overRange : Bool
  sampleLoss : Bool
  /-- User-defined indicator 0, set for an INJECTED record (R751). -/
  injected : Bool
  deriving DecidableEq, Repr

/-- The fields of a context packet (R569): level in 1/128 dBm, frequencies in 2^-20 Hz. -/
structure VrtContext where
  changed : Bool
  refLevel : Int
  bandwidth : Nat
  frequency : Int
  rate : Nat
  marks : VrtMarks
  format : BitVec 16
  deriving DecidableEq, Repr

/-- What a VRT packet carries: a fragment of a record, samples, or context (R567 to R569). -/
inductive VrtBody where
  | fragment (seq : Word) (count index : Nat) (bytes : List Byte)
  | samples (bytes : List Byte) (marks : VrtMarks)
  | context (c : VrtContext)
  deriving DecidableEq, Repr

/-- A VRT packet (R566, R571). -/
structure Vrt where
  sid : Word
  oui : BitVec 24
  class_ : BitVec 16
  /-- TSI and TSF (R566). -/
  tsi : BitVec 2
  tsf : BitVec 2
  /-- The entry of ETH.DEST that it goes to, its DSCP and its VLAN, 0 untagged (R562, R564, R585). -/
  dest : List Word
  dscp : BitVec 6
  vlan : BitVec 12
  count : BitVec 4
  seconds : Word
  picos : BitVec 64
  plain : Bool
  body : VrtBody
  deriving DecidableEq, Repr

/-- What leaves the package towards host memory, a host interrupt, a pin or a link. -/
inductive Output where
  /-- A write of 32-bit words into host memory through endpoint `ep`. -/
  | hostWrite (ep : Nat) (addr : BitVec 64) (ws : List Word)
  /-- Bytes written into host memory by a DMA channel or a flash read. -/
  | hostBytes (ep : Nat) (addr : BitVec 64) (bs : List Byte)
  /-- An MSI-X message. -/
  | msix (ep vector : Nat)
  /-- A VRT packet of an Ethernet stream, sent from a port. -/
  | vrt (stream port : Nat) (p : Vrt)
  /-- An edge or pulse at a named output pin of a bay, with its stamp. -/
  | pin (name : String) (bay : BayNo) (level : Bool) (at_ : Stamp)
  /-- A frame or packet sent on a link. -/
  | packet (name : String) (port : Nat) (ws : List Word)
  deriving DecidableEq, Repr

/-- An exact number, `num / den`. -/
structure Exact where
  num : Int
  den : Nat
  deriving DecidableEq, Repr

/-- A complex sample: 16-bit I and Q. An output sample of a port, or what a port takes in: a converter's code of an RF input stands
in I, a real stream's sample too (R212, R578). -/
structure Sample where
  i : BitVec 16
  q : BitVec 16
  deriving DecidableEq, Repr

/-- Two consecutive samples of a port, the second stamped `t` (R293). -/
structure LevelObs where
  t : Stamp
  prev : Sample
  cur : Sample
  deriving DecidableEq, Repr

end Sys2Proof.Machine
end

