-- ==== Sys2Proof/Machine/St/Afe.lean ====
section
/-! DEFINITION. Front end and converter state (05_rf_input_and_sampling.md). -/
namespace Sys2Proof.Machine

/-- An attenuation that the host, a profile or a restart has set and that the input takes when what holds it back ends: step, trim and
the cause that is reported (R175, R183, R199). -/
structure AttenSet where
  step : Nat
  trim : Nat
  cause : Nat
  deriving DecidableEq, Repr

/-- One RF input (R171 to R183, R207, R208). Deviations are in 0.001 dB, the power detector in 1/128 dBm. -/
structure AfeIn where
  step : Nat
  trim : Nat
  overload : Bool
  /-- Overload intervals, newest first: the opening stamp, and the closing one once it has closed (R176). -/
  intervals : List (Stamp × Option Stamp)
  ovlCount : Word
  ovlTold : Bool
  autoUp : BitVec 16
  autoDown : BitVec 16
  /-- The front end has settled since the last attenuation change, and the stamp of that change (R174). -/
  settled : Bool
  changedAt : Stamp
  waiting : Option AttenSet
  /-- The counter at the start of the step-down hold, and at the latest trip (R176, R180). -/
  quietFrom : Stamp
  lastTrip : Stamp
  /-- The comb is selected (R192). -/
  combSel : Bool
  combFail : Bool
  combRms : BitVec 16
  combWorst : BitVec 16
  det : Int
  deriving DecidableEq, Repr

/-- The two inputs of a bay and its comb detector. -/
structure AfeBay where
  inputs : Vector AfeIn 2
  combDet : Int
  deriving DecidableEq, Repr

def AfeIn.reset : AfeIn :=
  { step := 30, trim := 0, overload := false, intervals := [], ovlCount := 0, ovlTold := false, autoUp := 0, autoDown := 0
    settled := true, changedAt := 0, waiting := none, quietFrom := 0, lastTrip := 0, combSel := false, combFail := false, combRms := 0, combWorst := 0, det := -5120 }

def AfeBay.reset : AfeBay := { inputs := Vector.replicate 2 .reset, combDet := 0 }

/-- A slice of a converter (R184). -/
abbrev Slice := Fin 17

/-- The coefficients of a slice (R185): offset, gain, timing skew and bandwidth against the interleave reference, in units of the
model's own (log entry 80). -/
structure SliceCoef where
  offset : Int
  gain : Int
  skew : Int
  bandwidth : Int
  deriving DecidableEq, Repr

def SliceCoef.zero : SliceCoef := { offset := 0, gain := 0, skew := 0, bandwidth := 0 }

/-- One interleaved converter (R184 to R191, R198 to R200, R209, R210). -/
structure Adc where
  slots : Vector Slice 16
  spare : Option Slice
  /-- Slices by the age of their last completed calibration, oldest first. -/
  order : List Slice
  /-- The slice whose swap comparison is under way. -/
  incoming : Option Slice
  aborts : Nat
  faulty : BitVec 17
  swaps : BitVec 16
  aborted : BitVec 16
  clips : Word
  lowSig : Word
  swapWait : Bool
  watch : Option Slice
  coefs : Vector SliceCoef 17
  /-- The counter at which the spare's calibration began; none while it is interrupted (R185, R190). -/
  calFrom : Option Stamp
  /-- The slices calibrated in the rotation in progress, and whether one of them kept skew and bandwidth (R211). -/
  rotSet : BitVec 17
  rotHeld : Bool
  deriving DecidableEq, Repr

def Adc.reset : Adc :=
  { slots := Vector.ofFn fun i => ⟨i.val, by omega⟩, spare := some 16, order := List.finRange 17, incoming := none, aborts := 0
    faulty := 0, swaps := 0, aborted := 0, clips := 0, lowSig := 0, swapWait := false, watch := none, coefs := Vector.replicate 17 .zero, calFrom := none, rotSet := 0
    rotHeld := false }

end Sys2Proof.Machine
end

