-- ==== Sys2Proof/Machine/St/Cal.lean ====
section
/-! DEFINITION. Foreground self-calibration (18_self_calibration.md). Temperatures are in 0.0001 °C and responses in
10^-6 dB (log entry 15). -/
namespace Sys2Proof.Machine

/-- The result of one pass (R659, R660): the mean of T_fe over it, its drift table, one value per calibration tone, and the coefficients
that it gives the slices, by slice number. -/
structure CalPass where
  temp : Int
  table : List Int
  coefs : List SliceCoef
  deriving DecidableEq, Repr

/-- What COMB_CHECK measures (R195): the level of each calibration tone, by the factory response for the step and trim in force, in
10^-6 dBm. The total power it takes from the comb detector's housekeeping channel. -/
structure CombObs where
  tones : List Int
  deriving DecidableEq, Repr

/-- The initial calibration of a converter in phase 9 (R184, R189, R674): the slices that fail their test, the coefficients of the slices
by number, and whether its passes agreed (R92). -/
structure AdcInit where
  bay : BayNo
  input : Fin 2
  bad : BitVec 17
  coefs : List SliceCoef
  agreed : Bool
  deriving DecidableEq, Repr

/-- A start-up run of one input (R674). -/
structure FeRun where
  bay : BayNo
  input : Fin 2
  passes : List CalPass
  comb : CombObs
  deriving DecidableEq, Repr

/-- The agreement of a pair of passes (R661): the pair, Σ d², max |d|, and K. -/
structure CalPair where
  first : Nat
  second : Nat
  squares : Nat
  worst : Nat
  tones : Nat
  deriving DecidableEq, Repr

/-- The outcome codes of the CAL record (R675). -/
inductive CalOutcome where
  | accepted | kept | abandoned | factory
  deriving DecidableEq, Repr

/-- A due input (R665): its cause, since when, and whether its deferral has been reported. -/
structure CalDue where
  cause : Nat
  since : Stamp
  told : Bool
  deriving DecidableEq, Repr

/-- A run in progress (R671 to R673). -/
structure CalRun where
  cause : Nat
  forced : Bool
  wait : Nat
  /-- The counter at its start, and the stamp at which its gap opened. -/
  start : Stamp
  tL : Stamp
  passes : List CalPass
  /-- The outcome and the pair it rests on, once the agreement test has decided. -/
  outcome : Option CalOutcome
  pair : Option CalPair
  combDone : Bool
  combPass : Bool
  /-- A command that took effect during the run (R667). -/
  again : Bool
  deriving DecidableEq, Repr

/-- The sequencer of one input (R665 to R678). -/
structure CalIn where
  due : Option CalDue
  run : Option CalRun
  backoff : Option Stamp
  failures : Nat
  tcal : Int
  tfe : Int
  foreground : Bool
  lastFailed : Bool
  cause : Nat
  drift : List Int
  lastEnd : Option Stamp
  runNo : Word
  accepted : BitVec 16
  failed : BitVec 16
  agreeWord : Word
  driftWord : Word
  lastStamp : Stamp
  deriving DecidableEq, Repr

def CalIn.reset : CalIn :=
  { due := none, run := none, backoff := none, failures := 0, tcal := 0, tfe := 0, foreground := false, lastFailed := false
    cause := 0, drift := [], lastEnd := none, runNo := 0, accepted := 0, failed := 0, agreeWord := 0, driftWord := 0, lastStamp := 0 }

end Sys2Proof.Machine
end

