-- ==== Sys2Proof/Machine/St/Clk.lean ====
section
/-! DEFINITION. Reference selector and PLL state (03_clocks_and_references.md). -/
namespace Sys2Proof.Machine

/-- CLK_REF_STATUS.STATE (R129). -/
inductive SelState where
  | free | locked | deglitch | holdover | buildOut | pullIn
  deriving DecidableEq, Repr

/-- A reference candidate: code 1 REF_A to 4 REF_L stands at index 0 to 3 (R101). -/
abbrev Cand := Fin 4

/-- The package's reference selection, decided by the headland (R105, R110 to R114). `prio` and
`revertive` are the values an episode runs by (R114). -/
structure Selector where
  state : SelState
  active : Option Cand
  target : Option Cand
  /-- The reference whose loss started the episode, its last good edge, and whether it resumed. -/
  lost : Option Cand
  t0 : Stamp
  resumed : Bool
  episode : Bool
  prio : Nat
  revertive : Bool
  /-- When the build-out or the pull-in under way began (R110). -/
  since : Stamp
  /-- The switch episodes, newest first: the start, and the end once it has ended (R111). -/
  episodes : List (Stamp × Option Stamp)
  deriving DecidableEq, Repr

def Selector.reset : Selector :=
  { state := .free, active := none, target := none, lost := none, t0 := 0, resumed := false, episode := false
    prio := 0x0321, revertive := true, since := 0, episodes := [] }

/-- What a bay's monitor sees of a candidate that shows activity: its nominal frequency is 100 MHz, not 10 MHz, and its offset from
that nominal in units of 10^-12 (R89, R90). -/
structure CandSeen where
  fast : Bool
  off : Int
  deriving DecidableEq, Repr

/-- The clock block of one bay (R128 to R130). Offsets are in units of 10^-12; the phase offset in 0.25 ps. -/
structure ClkBay where
  present : Vector Bool 4
  qualified : Vector Bool 4
  /-- The start of a candidate's qualification window and the length in force when it started, in units of 0.1 s (R107, R127). -/
  window : Vector (Option (Stamp × Nat)) 4
  /-- The offset of a candidate from its nominal frequency as last measured. -/
  candFreq : Vector (Option Int) 4
  /-- When this bay last reported the loss of a candidate that has not qualified here since (R105). -/
  lostCand : Vector (Option Stamp) 4
  frozen : Bool
  /-- The output offset of the reference DPLL from nominal; while it pulls in, that at the start of the pull-in. -/
  freqOffset : Int
  /-- Corners of the DPLL's output offset over time, newest first; before the oldest and after the newest it is constant (R110). -/
  knots : List (Stamp × Int)
  phaseOffset : Int
  spllLock : Bool
  cpllLock : Bool
  spllLol : Bool
  gated : Bool
  restarting : Bool
  /-- The reason of the restart in progress (R67). -/
  restartReason : GapReason
  unlocks : Nat
  switches : Nat
  /-- An unlock episode runs; EV_SPLL_STUCK has been raised in it (R123). -/
  unlockEpisode : Bool
  stuckTold : Bool
  /-- The CPLL's reference: none is the internal oscillator (R89, R90). -/
  cpllRef : Option Cand
  /-- Pulses still to be issued on SYSREF_OUT in pulsed mode (R119). -/
  sysrefLeft : Nat
  /-- SYSREF_OUT's edges: a first one, and how many have followed (R116, R119). -/
  sysrefFrom : Option (Stamp × Nat)
  deriving DecidableEq, Repr

def ClkBay.reset : ClkBay :=
  { present := Vector.replicate 4 false, qualified := Vector.replicate 4 false, window := Vector.replicate 4 none
    candFreq := Vector.replicate 4 none, lostCand := Vector.replicate 4 none, frozen := false, freqOffset := 0, knots := [], phaseOffset := 0, spllLock := false
    cpllLock := false, spllLol := false, gated := false, restarting := false, restartReason := .acqRestart, unlocks := 0, switches := 0
    unlockEpisode := false, stuckTold := false, cpllRef := none, sysrefLeft := 0, sysrefFrom := none }

end Sys2Proof.Machine
end

