-- ==== Sys2Proof/Machine/St/Ddc.lean ====
section
/-! DEFINITION. Down-converter and transform state (06_downconversion_and_decimation.md,
07_transform_engine.md). -/
namespace Sys2Proof.Machine

/-- A port of the DDC: 0 RF0, 1 RF1, 2 XS0, 3 XS1 (R212). -/
abbrev Port := Fin 4

/-- A stopped stream: its t_L, its cause (0 loss of alignment, 1 unit not good) and whether a replay stalled (R230,
R233). -/
structure StreamStop where
  tL : Stamp
  cause : Nat
  replay : Bool
  deriving DecidableEq, Repr

/-- A stretch of a port's outputs. Outputs and input samples are numbered on through every gap. The stretch belongs to the resume
whose first output has the number `born`, centred on input sample `input`; from output `first` on, output n stands at the pin plane at
`start` + (n - `first`) × `step` seconds, under this preset and decimation, `ratio` input samples apart (R137 to R139, R223, R225). -/
structure Stretch where
  born : Nat
  input : Nat
  first : Nat
  start : Exact
  step : Exact
  ratio : Nat
  preset : Nat
  k : Nat
  /-- The resume closed a gap of the port's I/Q stream (R442). -/
  afterGap : Bool
  deriving DecidableEq, Repr

/-- The NCO from input sample `since` on: its tuning word, its phase accumulator there, and the phase offset (R217, R219, R220). -/
structure Tuning where
  since : Nat
  word : BitVec 48
  phase : BitVec 48
  offset : BitVec 16
  deriving DecidableEq, Repr

/-- An output before which the I/Q record in progress ends, for a gap or for an EPOCH change, and the settings that govern up to there
(R230, R468). -/
structure IqBreak where
  at_ : Nat
  gap : Bool
  samples : Nat
  queue : Nat
  wide : Bool
  deriving DecidableEq, Repr

/-- One port (R212 to R237). -/
structure DdcPort where
  active : Bool
  /-- The port delivers nothing: a restart, gated clocks, a CAL gap, or a power entry. -/
  paused : Bool
  /-- XS ports: the receiver is enabled and aligned, or the replay feeds the port (R231). -/
  aligned : Bool
  /-- The stretches of its outputs, newest first; none before the first resume. -/
  line : List Stretch
  /-- While the port is stopped, the number of the first output that it did not deliver. -/
  ended : Option Nat
  /-- The NCO's tunings, newest first. -/
  tunings : List Tuning
  /-- Invalid runs, newest first: the number of the first invalid output, and that after the last (R226, R227). -/
  runs : List (Nat × Nat)
  runCount : Word
  stopped : Option StreamStop
  losses : BitVec 16
  singles : BitVec 16
  unitsLost : Word
  /-- The gap of the port's I/Q stream (R442). -/
  gap : Option OpenGap
  /-- The I/Q stream has left up to this output, and the breaks still ahead of it, in order. -/
  sent : Nat
  breaks : List IqBreak
  deriving DecidableEq, Repr

def DdcPort.reset : DdcPort :=
  { active := false, paused := true, aligned := false, line := [], ended := none, tunings := [], runs := [], runCount := 0
    stopped := none, losses := 0, singles := 0, unitsLost := 0, gap := none, sent := 0, breaks := [] }

/-- The settings that govern a frame (R254, R257): those in force from `since` on. -/
structure FrameConf where
  since : Stamp
  window : Nat
  param : Nat
  preset : Nat
  ftw : BitVec 48
  step : Nat
  trim : Nat
  port : Port
  deriving DecidableEq, Repr

/-- From sample `at_` of a grid run on its samples are the outputs of a port, from number `number` on; at the anchor that may be
before the first output of the resume (R229, R241). -/
structure Leg where
  at_ : Nat
  port : Port
  number : Int
  deriving DecidableEq, Repr

/-- A grid run (R241). Its samples count from the anchor: where they come from, newest first; the index of the next frame; the first
sample delivered; the first one that a gap took away; and whether the first frame is still to come. `n`, `m` and `k` are those of its
frames. -/
structure GridRun where
  legs : List Leg
  frame : Nat
  resume : Nat
  cut : Option Nat
  first : Bool
  n : Nat
  m : Nat
  k : Nat
  deriving DecidableEq, Repr

/-- The corrected spectrum of a frame (R256, R259). `powers` holds P_i for i = −N/2 upwards in units of 2^-96;
`complex` holds the CPLX16 bins and `expo` their exponent. -/
structure Spectrum where
  powers : List Nat
  complex : List Word
  expo : BitVec 8
  deriving DecidableEq, Repr

/-- A spectrum as the engine hands it on. -/
structure Spec where
  data : Spectrum
  centre : Stamp
  start : Stamp
  stop : Stamp
  conf : FrameConf
  n : Nat
  m : Nat
  k : Nat
  settling : Bool
  truncated : Bool
  gapBefore : Bool
  overload : Bool
  holdover : Bool
  index : Nat
  serial : Nat
  deriving DecidableEq, Repr

/-- Reduction of one point of a trace (R264). Sums of P/ENBW are in units of 2^-96. -/
structure PointAcc where
  high : Int
  low : Int
  last : Int
  power : Nat
  perEnbw : Nat
  logs : Int
  bins : Nat
  deriving DecidableEq, Repr

/-- A trace interval whose record has not been formed (R261 to R271): the settings it runs under and what it holds. -/
structure TraceIval where
  start : Stamp
  stop : Option Stamp
  detector : Nat
  points : Nat
  binFirst : Int
  binCount : Nat
  useMarked : Nat
  interval : Nat
  included : Nat
  excluded : Nat
  acc : List PointAcc
  last : Option Spec
  mixed : Bool
  settling : Bool
  truncated : Bool
  overload : Bool
  gap : Bool
  deriving DecidableEq, Repr

/-- One trace. -/
structure Trace where
  ivals : List TraceIval
  count : Word
  empty : Bool
  emptyTold : Bool
  /-- The points of the newest record, for scan-out; none of an EMPTY one (R372, R378). -/
  shown : Option (List Int)
  deriving DecidableEq, Repr

def Trace.reset : Trace := { ivals := [], count := 0, empty := false, emptyTold := false, shown := none }

/-- One spectrum tap (R275 to R279). -/
structure Tap where
  writing : Bool
  written : BitVec 16
  dropped : BitVec 16
  told : Bool
  deriving DecidableEq, Repr

def Tap.reset : Tap := { writing := false, written := 0, dropped := 0, told := false }

/-- A selection of spectra by a trigger (R320): serial numbers from `first` to `last`. -/
structure SpecPick where
  first : Nat
  last : Nat
  deriving DecidableEq, Repr

/-- One analysis channel of the transform engine. -/
structure XfmChan where
  /-- Grid runs, oldest first: the head is the one whose frames are being computed. -/
  grids : List GridRun
  gap : Option OpenGap
  /-- Invalid runs of the channel alone, from a change of its source: the outputs of the new port (R226). -/
  runs : List (Port × Nat × Nat)
  /-- The channel takes another source since it last had a sample: the port that it came from (R229, R238). -/
  switched : Option Port
  specCount : Word
  settlingCount : BitVec 16
  truncatedCount : BitVec 16
  /-- Settings that governed frames, newest first. -/
  confs : List FrameConf
  index : Nat
  indexEpoch : Stamp
  serial : Nat
  /-- The most recent spectra, newest first, each with the SEQ of its SPECTRUM record once emitted (R320); the head is
  also what a trigger unit evaluates. -/
  history : List (Spec × Option Word)
  picks : List SpecPick
  /-- The window code and parameter in force. -/
  window : Nat
  param : Nat
  deriving DecidableEq, Repr

def XfmChan.reset : XfmChan :=
  { grids := [], gap := none, runs := [], switched := none, specCount := 0, settlingCount := 0, truncatedCount := 0, confs := []
    index := 0, indexEpoch := 0, serial := 0, history := [], picks := [], window := 2, param := 1638 }

/-- The transform engine of a bay. -/
structure Xfm where
  chans : Vector XfmChan 2
  traces : Vector Trace 16
  taps : Vector Tap 8
  deriving DecidableEq, Repr

def Xfm.reset : Xfm :=
  { chans := Vector.replicate 2 .reset, traces := Vector.replicate 16 .reset, taps := Vector.replicate 8 .reset }

end Sys2Proof.Machine
end

