-- ==== Sys2Proof/Machine/St/Id.lean ====
section
/-! DEFINITION. The identity slot: global status, the service port's alerts and counts (23_address_map.md). -/
namespace Sys2Proof.Machine

/-- GS_SCRATCH, SVC_ALERT_STATUS, SVC_ALERT_MASK and SVC_COUNT, and whether EV_ACCESS_DISCARDED has been raised in this
epoch (R759, R766, R768, R770). -/
structure IdPkg where
  scratch : Word
  alert : BitVec 8
  alertMask : BitVec 8
  done : BitVec 16
  discarded : BitVec 8
  refused : BitVec 8
  accessTold : Bool
  deriving DecidableEq, Repr

def IdPkg.reset : IdPkg := { scratch := 0, alert := 0, alertMask := 0, done := 0, discarded := 0, refused := 0, accessTold := false }

/-- The instructions of a bay's test access port (R627, R795). -/
inductive JtagOp where
  | bypass | sample | preload | extest | idcode | clamp | highz | extestPulse | extestTrain | debug
  deriving DecidableEq, Repr

/-- The instruction disconnects the functional logic from its pins (R796). -/
def JtagOp.takesPins : JtagOp → Bool
  | .extest | .extestPulse | .extestTrain | .clamp | .highz => true
  | _ => false

/-- The test access port of a bay: its current instruction, and whether the pins are disconnected (R795, R796). -/
structure Jtag where
  ir : JtagOp
  pinsOff : Bool
  deriving DecidableEq, Repr

def Jtag.reset : Jtag := { ir := .idcode, pinsOff := false }

/-- A transaction on the service port (R769): its package address with the bytes written, or the words read. -/
inductive SvcOp where
  | write (addr : Word) (bytes : List Byte)
  | read (addr : Word) (words : Nat)
  deriving DecidableEq, Repr

end Sys2Proof.Machine
end

