-- ==== Sys2Proof/Machine/St/Mco.lean ====
section
/-! DEFINITION. Measurement core state (11_measurement_cores.md). -/
namespace Sys2Proof.Machine

/-- MC_STATUS.STATE (R431); `ebbed` is a core whose domain has ebbed in RUN (R729). -/
inductive CoreMode where
  | off | run | halted | fault
  deriving DecidableEq, Repr

/-- A core number. -/
abbrev CoreNo := Fin 8

/-- An address register with its base, length, step and mode (R396, R399). -/
structure AddrReg where
  p : BitVec 17
  base : BitVec 17
  len : BitVec 18
  step : BitVec 16
  mode : BitVec 2
  deriving DecidableEq, Repr

def AddrReg.reset : AddrReg := { p := 0, base := 0, len := 0, step := 0, mode := 0 }

/-- A copy that an EMIT or a POST has started (R422, R423): a RESULT record and its queue, or a posted buffer; `void`
says that a restart discards it. -/
inductive CoreCopy where
  | result (sub : BitVec 16) (flags : BitVec 8) (stamp : Stamp) (gap : Bool) (start : Nat) (body : List Word) (void : Bool)
  | post (start : Nat) (body : List Word)
  deriving DecidableEq, Repr

/-- One core (R396, R406, R416, R417, R430, R431). `winIsNew` of a window is not kept: the registers of a new window hold
whatever they last held. -/
structure Core where
  mode : CoreMode
  ebbed : Bool
  globals : Vector Word 16
  windows : Vector (Vector Word 12) 8
  shadowW : Vector Word 12
  addr : Vector AddrReg 8
  shadowP : Vector AddrReg 4
  acc : Vector (BitVec 40) 2
  mxv : Word
  mxi : Word
  mnv : Word
  mni : Word
  sidx : Word
  pc : BitVec 14
  ovf : Bool
  ie : Bool
  shadow : Bool
  cwp : Fin 8
  resident : Nat
  ipend : BitVec 10
  imask : BitVec 10
  ira : BitVec 14
  istat : Bool
  ssp : Word
  slim : Word
  sbase : Word
  timer : Word
  /-- Stamp at which the timer line is raised next; none while TIMER is 0. -/
  timerDue : Option Stamp
  wdtFrom : Stamp
  mboxIn : Word
  mboxOut : Word
  rflags : BitVec 8
  estmp : Vector Word 3
  nowLatch : Stamp
  trigUnit : Fin 8
  trigCount : BitVec 16
  trigStamp : Stamp
  waiting : Bool
  /-- When WAIT began (R729), and whether a slot or block has asked for the flood of an ebbed core. -/
  waitFrom : Stamp
  floodReq : Bool
  copying : Option CoreCopy
  imem : Sparse Word
  mem : Sparse Byte
  faultCause : BitVec 4
  faultPc : BitVec 14
  /-- The end of the epoch of the last fault: some none while that epoch runs (R417). -/
  faultUntil : Option (Option Stamp)
  gapNext : Bool
  cycles : Word
  /-- Cycles at which results can be used without a stall, by register code (R407). -/
  ready : List (Nat × Nat)
  clock : Nat
  spills : BitVec 16
  fills : BitVec 16
  emits : Word
  discards : Word
  faults : BitVec 16
  restarts : BitVec 16
  iqWritten : BitVec 16
  iqDropped : BitVec 16
  iqTold : Bool
  /-- The next feed block follows a gap. -/
  iqGap : Bool
  /-- The first sample of the next feed block, as far as no gap intervenes. -/
  iqFrom : Option Nat
  deriving DecidableEq, Repr

def Core.reset : Core :=
  { mode := .off, ebbed := false, globals := Vector.replicate 16 0, windows := Vector.replicate 8 (Vector.replicate 12 0)
    shadowW := Vector.replicate 12 0, addr := Vector.replicate 8 .reset, shadowP := Vector.replicate 4 .reset
    acc := Vector.replicate 2 0, mxv := 0, mxi := 0, mnv := 0, mni := 0, sidx := 0, pc := 0, ovf := false, ie := false
    shadow := false, cwp := 0, resident := 1, ipend := 0, imask := 0, ira := 0, istat := false, ssp := 0x1E800
    slim := 0x20000, sbase := 0x1E800, timer := 0, timerDue := none, wdtFrom := 0, mboxIn := 0, mboxOut := 0, rflags := 0
    estmp := Vector.replicate 3 0, nowLatch := 0, trigUnit := 0, trigCount := 0, trigStamp := 0, waiting := false, waitFrom := 0, floodReq := false
    copying := none, imem := [], mem := [], faultCause := 0, faultPc := 0, faultUntil := none, gapNext := false, cycles := 0
    ready := [], clock := 0, spills := 0, fills := 0, emits := 0, discards := 0, faults := 0, restarts := 0, iqWritten := 0
    iqDropped := 0, iqTold := false, iqGap := false, iqFrom := none }

/-- The cores of a bay and MC_WIN. -/
structure McoBay where
  cores : Vector Core 8
  win : BitVec 3
  deriving DecidableEq, Repr

def McoBay.reset : McoBay := { cores := Vector.replicate 8 .reset, win := 0 }

end Sys2Proof.Machine
end

