-- ==== Sys2Proof/Machine/St/Ports.lean ====
section
/-! DEFINITION. PCI Express endpoints, Ethernet ports and streams, the PTP client and the JESD204 receivers
(15_host_streaming_and_ingress_ports.md). -/
namespace Sys2Proof.Machine

/-- One endpoint (R557 to R560, R587): 4 is the control endpoint. -/
structure PciEp where
  linkUp : Bool
  gen : BitVec 3
  width : BitVec 5
  reversed : Bool
  degraded : Bool
  bme : Bool
  d3 : Bool
  correctable : BitVec 16
  uncorrectable : BitVec 16
  downs : BitVec 16
  resets : BitVec 16
  deriving DecidableEq, Repr

def PciEp.reset : PciEp :=
  { linkUp := false, gen := 0, width := 0, reversed := false, degraded := false, bme := false, d3 := false, correctable := 0
    uncorrectable := 0, downs := 0, resets := 0 }

/-- One Ethernet port (R561 to R563, R587). -/
structure EthPort where
  linkUp : Bool
  fecLock : Bool
  localFault : Bool
  remoteFault : Bool
  txFrames : Word
  rxFrames : Word
  rxDrop : Word
  uncorrectable : BitVec 16
  deriving DecidableEq, Repr

def EthPort.reset : EthPort :=
  { linkUp := false, fecLock := false, localFault := false, remoteFault := false, txFrames := 0, rxFrames := 0, rxDrop := 0
    uncorrectable := 0 }

/-- What a received frame is (R562, R563, R573): `ptp` is a PTP message of a domain over a transport, with the time transmitter that the
default BMCA chooses once the message has been taken in, if any; `ptpManagement` is a PTP management message. -/
inductive EthFrame where
  | arpRequest | neighbourSolicitation | echoRequest
  | ptp (domain transport : Nat) (chosen : Option (BitVec 80))
  | ptpManagement
  | pause
  | other
  deriving DecidableEq, Repr

/-- The stamps of one offset measurement (R573, R574). The time transmitter's: it sent the sync message at `origin`, corrections added,
received the delay request at `reqAt` and, peer to peer, the peer answered it at `respAt`. The port's, as its lane pins take them:
the sync message at `sync`, the delay request sent at `req` and, peer to peer, the answer received at `resp`. -/
structure PtpExchange where
  origin : Stamp
  sync : Stamp
  req : Stamp
  reqAt : Stamp
  respAt : Stamp
  resp : Stamp
  deriving DecidableEq, Repr

/-- One Ethernet stream of the package (R565 to R572, R587). -/
structure EthStream where
  onStandby : Bool
  /-- A failover is under way: the stream sends nothing until it ends (R572). -/
  failing : Bool
  packets : Word
  /-- The format word last sent in context packets, by source key; a source not listed is due one (R569). -/
  ctx : Sparse Word
  /-- Packet counts by stream ID (R566). -/
  counts : Sparse Nat
  /-- Epochs since periodic context packets were last due (R569). -/
  ctxEpochs : Nat
  deriving DecidableEq, Repr

def EthStream.reset : EthStream := { onStandby := false, failing := false, packets := 0, ctx := [], counts := [], ctxEpochs := 0 }

/-- A destination that a port resolves (R564): whether it is resolved, whether EV_ETH_UNRESOLVED has been raised, and when
the next refresh or retry is due. -/
structure Neighbour where
  port : Nat
  dest : Nat
  resolved : Bool
  told : Bool
  due : Stamp
  deriving DecidableEq, Repr

/-- The Ethernet state of the package: the streams, the destinations, and the PTP client (R573, R587). -/
structure EthPkg where
  streams : Vector EthStream 64
  neighbours : List Neighbour
  ptpState : BitVec 2
  ptpSource : BitVec 80
  deriving DecidableEq, Repr

def EthPkg.reset : EthPkg :=
  { streams := Vector.replicate 64 .reset, neighbours := [], ptpState := 0, ptpSource := 0 }

/-- One JESD204 receiver (R579 to R588). `grid` is a boundary of the grid; `nextGrid` is the phase it takes at the next
loss of alignment; `awaiting` says that the next SYSREF edge sets it; arrivals are in T / 1024. -/
structure Jes where
  grid : Option Stamp
  nextGrid : Option Stamp
  awaiting : Bool
  jsync : Bool
  ilasBad : Bool
  late : Bool
  locked : BitVec 8
  earliest : BitVec 16
  latest : BitVec 16
  shifts : Word
  ilas : Vector Word 4
  aligns : BitVec 16
  refused : BitVec 16
  deriving DecidableEq, Repr

def Jes.reset : Jes :=
  { grid := none, nextGrid := none, awaiting := false, jsync := false, ilasBad := false, late := false, locked := 0, earliest := 0
    latest := 0, shifts := 0, ilas := Vector.replicate 4 0, aligns := 0, refused := 0 }

/-- What a receiver finds as it aligns (R580, R581): the lanes locked, the arrival of each lane in units of 2^-64 s from its
boundary, and the sixteen ILAS configuration octets of each logical lane. -/
structure JesAlign where
  locked : BitVec 8
  arrivals : List Nat
  ilas : List (List Byte)
  deriving DecidableEq, Repr

end Sys2Proof.Machine
end

