-- ==== Sys2Proof/Machine/St/Pwr.lean ====
section
/-! DEFINITION. Power states and domains (21_power_states.md). -/
namespace Sys2Proof.Machine

/-- Operating states (R716, PWR_STATE). -/
inductive PowerState where
  | off | standby | watch | run
  deriving DecidableEq, Repr

/-- What the power manager is doing (R721, R722, R726). -/
inductive PwrPhase where
  | steady
  | requested (target : PowerState) (tE : Stamp)
  | draining (target : PowerState) (tE : Stamp)
  | ebbing (target : PowerState) (tE : Stamp)
  /-- `early` while the supervisors, PLLs and links of a wake from STANDBY are still to come (R726). -/
  | flooding (early : Bool)
  deriving DecidableEq, Repr

/-- The domains of a bay but for the lagoon (R717). -/
inductive Domain where
  | supervisor | frontEnd (i : Fin 2) | datapath | core (c : Fin 8) | hkc | ports | quad (q : Fin 6) | scanOut
  | sealKeeper
  deriving DecidableEq, Repr

/-- The powered domains of a bay (PWR_DOMAINS) and its watch meter and core counters (R724, R729, R734). -/
structure PwrBay where
  supervisor : Bool
  frontEnd : Vector Bool 2
  datapath : Bool
  hkc : Bool
  ports : Bool
  scanOut : Bool
  sealKeeper : Bool
  cores : Vector Bool 8
  quads : Vector Bool 6
  watchLevel : Int
  /-- PWR_WATCH_PEAK: none since the last read (R734). -/
  watchPeak : Option Int
  watchAbove : Nat
  /-- ADC.WATCH_INPUT and ADC.WATCH_ZONE as read at the entry to WATCH (R205). -/
  watchInput : Fin 2
  watchZone : Nat
  coreEbbs : BitVec 16
  coreFloods : BitVec 16
  /-- Fences that an access has met since they closed: EV_ASLEEP_ACCESS is raised once per fence (R466). -/
  asleepTold : List Domain
  deriving DecidableEq, Repr

def PwrBay.reset : PwrBay :=
  { supervisor := false, frontEnd := Vector.replicate 2 false, datapath := false, hkc := false, ports := false
    scanOut := false, sealKeeper := false, cores := Vector.replicate 8 false, quads := Vector.replicate 6 false
    watchLevel := 0, watchPeak := none, watchAbove := 0, watchInput := 0, watchZone := 0, coreEbbs := 0, coreFloods := 0, asleepTold := [] }

/-- The package's power manager (R720 to R732, R734). -/
structure PwrPkg where
  state : PowerState
  phase : PwrPhase
  /-- A wake arrived while domains were ebbing; the flood follows (R732). -/
  wakeAfter : Bool
  /-- PWR.WATCH_BAYS as read at the entry to WATCH (R715). -/
  watching : BitVec 8
  entries : BitVec 8
  refusals : BitVec 8
  wakes : BitVec 8
  surplus : BitVec 8
  wakeCause : BitVec 3
  wakeBay : BitVec 3
  wakeStamp : Stamp
  wakeRtc : Word
  deriving DecidableEq, Repr

def PwrPkg.reset : PwrPkg :=
  { state := .off, phase := .steady, wakeAfter := false, watching := 0, entries := 0, refusals := 0, wakes := 0, surplus := 0
    wakeCause := 0, wakeBay := 0, wakeStamp := 0, wakeRtc := 0 }

end Sys2Proof.Machine
end

