-- ==== Sys2Proof/Machine/St/Rec.lean ====
section
/-! DEFINITION. Recorder state: drives, the volume, the log, its index, frozen regions and replay (13_recorder.md). -/
namespace Sys2Proof.Machine

/-- REC_Dd_STATUS.STATE (R518). -/
inductive DriveState where
  | absent | link | init | ready | member | failed | rebuilding | foreign
  deriving DecidableEq, Repr

/-- What a drive's label says (R485, R486): blank, another package, bay or geometry, or this bay's with a generation. -/
inductive DriveLabel where
  | blank
  | foreign
  | own (generation : Nat)
  deriving DecidableEq, Repr

/-- A drive's label (R485): `states` are the members' and `logPos` the log position of the last completed index block. -/
structure Label where
  serial : BitVec 64
  bay : Nat
  member : Nat
  members : Nat
  stripeLog2 : Nat
  indexMib : Nat
  base : Nat
  size : Nat
  generation : Nat
  states : List DriveState
  logPos : Nat
  deriving DecidableEq, Repr

/-- A drive and its root port (R477, R516, R518). -/
structure Drive where
  state : DriveState
  gen : Nat
  width : Nat
  downgraded : Bool
  unusable : Bool
  label : DriveLabel
  text : Option Label
  temp : BitVec 16
  mediaErrors : BitVec 16
  timeouts : BitVec 16
  latMax : Nat
  capacity : Nat
  used : BitVec 8
  /-- When an untrained port tries next, and when the log page is read next. -/
  trainAt : Stamp
  smartAt : Stamp
  deriving DecidableEq, Repr

def Drive.reset : Drive :=
  { state := .absent, gen := 0, width := 0, downgraded := false, unusable := false, label := .blank, text := none, temp := 0
    mediaErrors := 0, timeouts := 0, latMax := 0, capacity := 0, used := 0, trainAt := 0, smartAt := 0 }

/-- What Identify and the label of a drive tell (R476, R477): the namespaces that exist; of namespace REC.Dd_NSID the capacity, the data
and metadata bytes of its current LBA format; MDTS in bytes, 0 without a limit; and a label that is valid. -/
structure DriveInfo where
  capacity : Nat
  namespaces : List Nat
  lbaBytes : Nat
  metaBytes : Nat
  mdts : Nat
  label : Option Label
  deriving DecidableEq, Repr

/-- REC_STATUS.STATE (R489, R517). -/
inductive RecState where
  | off | waiting | idle | recording | full | failed
  deriving DecidableEq, Repr

/-- The volume part of a bay (R480 to R482, R485). -/
structure Volume where
  members : Nat
  unit : Nat
  indexMib : Nat
  base : Nat
  size : Nat
  generation : Nat
  deriving DecidableEq, Repr

/-- A record in the log: its serial number and its extent offset. -/
structure LogRec where
  serial : Nat
  off : Nat
  record : Rec
  deriving DecidableEq, Repr

/-- A span of the log (R499): extent offsets of its first byte and after its last, and the range of stamps found. `no` is the place of
its entry in the index, counted from the bay's creation. -/
structure Span where
  no : Nat
  epoch : BitVec 64
  epochStart : Stamp
  cont : Bool
  degraded : Bool
  padded : Bool
  first : Bool
  last : Bool
  recovered : Bool
  session : BitVec 16
  lo : Nat
  hi : Nat
  range : Option (Stamp × Stamp)
  deriving DecidableEq, Repr

/-- A row that has been issued and the members whose unit is unfinished (R487). -/
structure RowWrite where
  row : Nat
  left : List (Fin 8)
  issued : Stamp
  deriving DecidableEq, Repr

/-- A frozen region (R495, R516): extent offsets; `stopEpoch` is e2 of an open region, and `ringMin` the setting it keeps (R514). -/
structure Region where
  start : Nat
  stop : Nat
  stamp : Stamp
  unitNo : Fin 8
  truncated : Bool
  isOpen : Bool
  stopEpoch : Int
  ringMin : Nat
  deriving DecidableEq, Repr

/-- A start that has been accepted (R490). -/
structure StartReq where
  tag : Word
  due : Stamp
  fresh : Bool
  erase : Bool
  deriving DecidableEq, Repr

/-- A replay (R509, R510): `next` is the serial number from which it goes on. -/
structure Replay where
  target : Nat
  lo : Stamp
  hi : Stamp
  source : BitVec 8
  typ : BitVec 8
  next : Nat
  delivered : Nat
  /-- Serial number at which the log ended when the replay began. -/
  limit : Nat
  /-- Replay to a port: where the last sample delivered ends, whether the reads have fallen behind, and the start of the recorded epoch
  that the port has reached (R513). -/
  upto : Stamp
  stalled : Bool
  epoch : Option Stamp
  deriving DecidableEq, Repr

/-- The recorder of a bay. `kept` lists the rows of the log, oldest first. -/
structure Recorder where
  state : RecState
  drives : Vector Drive 8
  volume : Option Volume
  failedMember : Option (Fin 8)
  /-- Acceptance is interrupted by a failover, or by a stop that is completing. -/
  failover : Bool
  stopping : Bool
  origin : Stamp
  /-- REC.DRIVE_WAIT has passed (R479). -/
  waited : Bool
  pos : Nat
  serial : Nat
  log : List LogRec
  kept : List Nat
  rows : List RowWrite
  spans : List Span
  span : Option Span
  /-- Spans that the written index blocks hold (R492). -/
  indexed : Nat
  spanNo : Nat
  session : BitVec 16
  sessionOpen : Bool
  startReq : Option StartReq
  stopReq : Option Stamp
  syncFrom : Stamp
  accepted : Bool
  bytes : BitVec 64
  epochBytes : Nat
  rate : Word
  discards : Word
  refused : BitVec 16
  regions : Vector (Option Region) 64
  rebuild : Option Nat
  replay : Option Replay
  replayCount : Word
  replaySkipped : BitVec 16
  replayRebuilt : BitVec 16
  deriving DecidableEq, Repr

def Recorder.reset : Recorder :=
  { state := .off, drives := Vector.replicate 8 .reset, volume := none, failedMember := none, failover := false
    stopping := false, origin := 0, waited := false, pos := 0, serial := 0, log := [], kept := [], rows := [], spans := [], span := none
    indexed := 0, spanNo := 0, session := 0, sessionOpen := false, startReq := none, stopReq := none, syncFrom := 0
    accepted := false, bytes := 0, epochBytes := 0, rate := 0, discards := 0, refused := 0
    regions := Vector.replicate 64 none, rebuild := none, replay := none, replayCount := 0, replaySkipped := 0
    replayRebuilt := 0 }

end Sys2Proof.Machine
end

