-- ==== Sys2Proof/Machine/St/Tbs.lean ====
section
/-! DEFINITION. Timebase state: the tide counters, the epoch grid, the servo and the TBS registers
(04_timebase_and_epochs.md). -/
namespace Sys2Proof.Machine

/-- Servo states (R149). -/
inductive Servo where
  | free | acquiring | locked | holdover
  deriving DecidableEq, Repr

/-- Where the seconds came from (R168, SOURCE). -/
inductive TimeSource where
  | rtc | ptp | leader
  deriving DecidableEq, Repr

/-- The timebase of one bay (R134, R167, R168). -/
structure TbsBay where
  /-- The tide counter with 32 further fraction bits (R134). -/
  tide : Tide
  /-- The addend applied at each FCLK edge (R134). -/
  addend : Tide
  set : Bool
  source : TimeSource
  islanded : Bool
  tdcCoarse : Bool
  /-- TBS_NOW latched by a read of TBS_NOW0. -/
  nowLatch : Stamp
  /-- TBS_EDGE_LOST, one byte per pin: SYNC_IN, PPS_IN, TRIG_IN0, TRIG_IN1. -/
  edgeLost : Vector (BitVec 8) 4
  /-- The stamp of the last edge stamped on SYNC_IN, PPS_IN, TRIG_IN0, TRIG_IN1, SYSREF_IN (R141). -/
  lastEdge : Vector (Option Stamp) 5
  snapStamp : Stamp
  snapId : Word
  /-- Number of the current epoch and the stamp of its boundary. -/
  epoch : BitVec 64
  epochStart : Stamp
  /-- What is left of a rejoin's offset that is being removed, island minus mainland, in units of 2^-96 s (R614). -/
  removing : Option Int
  /-- How long the current period of 32 lagoon clock cycles has lasted, while no grid runs (R154). -/
  quiet : Nat
  deriving DecidableEq, Repr

def TbsBay.reset : TbsBay :=
  { tide := 0, addend := 0, set := false, source := .rtc, islanded := false, tdcCoarse := false, nowLatch := 0
    edgeLost := Vector.replicate 4 0, lastEdge := Vector.replicate 5 none, snapStamp := 0, snapId := 0
    epoch := 0, epochStart := 0, removing := none, quiet := 0 }

/-- The epoch grid (R154 to R159). Nominal boundaries lie whole multiples of L after `origin`, which is tide stamp zero until an
edge, a change of L or an island moves it; `next` is B, the next one, the multiple `steps`. `edge` is the boundary an edge has set
and which has not yet fallen, `edgeCoarse` that its stamp is a coarse one; `past` is a boundary that fell at its nominal place and
whose late half-window is still open. -/
structure Grid where
  running : Bool
  locked : Bool
  origin : Stamp
  steps : Nat
  /-- L in force in units of 10 ns. -/
  tens : Nat
  next : Stamp
  edge : Option Stamp
  edgeCoarse : Bool
  past : Option Stamp
  /-- The boundary in `edge` is B + W, with no edge (R157). -/
  missed : Bool
  /-- L and W in force, as stamp durations. -/
  len : Nat
  window : Nat
  number : BitVec 64
  start : Stamp
  reanchored : Bool
  ignoredEpoch : Nat
  ignored : BitVec 16
  deriving DecidableEq, Repr

def Grid.reset : Grid :=
  { running := false, locked := false, origin := 0, steps := 0, tens := 0, next := 0, edge := none, edgeCoarse := false, past := none, missed := false, len := 0, window := 0
    number := 0, start := 0, reanchored := false, ignoredEpoch := 0, ignored := 0 }

/-- The servo of the headland (R148 to R153). Offsets are in units of 2^-64 s; steering in 10^-12. -/
structure Discipline where
  state : Servo
  offset : Int
  rateAdj : Int
  within : Nat
  rejects : Nat
  /-- PPS edges rejected (R150). -/
  rejected : Word
  /-- When the source was last heard (R149). -/
  heard : Stamp
  /-- When the RTC last took the tide stamp since the servo locked (R640). -/
  followed : Option Stamp
  /-- Each steering chosen and from when, newest first (R149). -/
  rates : List (Stamp × Int)
  /-- A decided step: the earliest stamp of its boundary and the size, in units of 2^-64 s. -/
  step : Option (Stamp × Int)
  /-- The first arm after entering RUN has happened (R152). -/
  armed : Bool
  deriving DecidableEq, Repr

def Discipline.reset : Discipline :=
  { state := .free, offset := 0, rateAdj := 0, within := 0, rejects := 0, rejected := 0, heard := 0, followed := none, rates := [], step := none, armed := false }

/-- What the headland of the next package towards the leader states of the shoal's time (R97, R99, R145): the leader's counter, its
steering, its grid and settings, a step that it has decided, and whether it restarts its image. -/
structure LeaderTime where
  stamp : Stamp
  rate : Int
  grid : Grid
  /-- TBS.EPOCH_LEN, TBS.SYNC_WINDOW and TBS.SYNC_PACKAGE of the leader. -/
  tens : Nat
  window : Nat
  syncPackage : Nat
  step : Option (Stamp × Int)
  restarting : Bool
  deriving DecidableEq, Repr

/-- The timebase of the package: grid, servo, T_b and waiting snapshots (R164). -/
structure TbsPkg where
  grid : Grid
  servo : Discipline
  /-- T_b in ns (R161, TBS_TB). -/
  tb : Nat
  /-- T_b of the package alone (R65). -/
  tbOwn : Nat
  /-- Largest d_in of the members known so far, and the bay counts not yet learned (R162). -/
  memberBays : List Nat
  snaps : List (Stamp × Word)
  /-- Held in reset by a global reset (R165). -/
  globalReset : Bool
  /-- A global reset has been issued and its message has not arrived yet. -/
  resetIssued : Bool
  /-- The largest in-package diameter that the other members state of their current routes (R163). -/
  otherDin : Nat
  /-- A link has been lost since T_b was last computed (R163). -/
  lossDue : Bool
  /-- A follower's view of the leader, and whether it has taken the leader's grid since its phase 8 (R97, R145). -/
  leader : Option LeaderTime
  adopted : Bool
  /-- The leader restarts its image, or has not been rejoined since (R99). -/
  away : Option Stamp
  deriving DecidableEq, Repr

def TbsPkg.reset : TbsPkg :=
  { grid := .reset, servo := .reset, tb := 0, tbOwn := 0, memberBays := [], snaps := [], globalReset := false, resetIssued := false
    otherDin := 0, lossDue := false, leader := none, adopted := false, away := none }

end Sys2Proof.Machine
end

