-- ==== Sys2Proof/Machine/St/Trg.lean ====
section
/-! DEFINITION. Trigger and acquisition units (08_triggers_and_acquisition.md). -/
namespace Sys2Proof.Machine

/-- The states of TRG_STATUS (R334). -/
inductive UnitState where
  | off | idle | armed | qualifying | post | prefill | waitSlot | holdoff
  deriving DecidableEq, Repr

/-- A condition that is true: its start, what it read there, whether it carries SETTLING, and whether it is still being
qualified (R300). -/
structure Condition where
  start : Stamp
  value : Int
  bin : Int
  settling : Bool
  qualifying : Bool
  /-- The generation of the mask copy that it was compared with, and whether that copy was dirty (R325). -/
  gen : BitVec 16
  dirty : Bool
  deriving DecidableEq, Repr

/-- A fire of a group or of one unit: the instant, where it was detected, and what the firing unit's record says. -/
structure Fire where
  group : Nat
  instant : Stamp
  package : BitVec 2
  bay : BayNo
  unit : Fin 8
  forced : Bool
  /-- An injector acted on its broadcast (R620). -/
  injected : Bool := false
  deriving DecidableEq, Repr

/-- What a trigger record holds besides the segment (R329). -/
structure TrigInfo where
  instant : Stamp
  cause : Nat
  fire : Fire
  number : BitVec 16
  cycle : BitVec 16
  dead : Nat
  missed : Nat
  length : Nat
  value : Int
  bin : Int
  word : Word
  settling : Bool
  coarse : Bool
  gen : BitVec 16
  maskDirty : Bool
  source : Nat
  qual : Nat
  /-- Spectra selected before and after spectrum 0, and the SEQ of the first one. -/
  specPre : Nat
  specPost : Nat
  specSeq : Word
  deriving DecidableEq, Repr

/-- A slot that a trigger has frozen (R317 to R319): samples captured before and after, the number of the first one on its port, and,
once the records have left, the SEQ of the first and their number. Where the instant lay in a gap of the port, the samples after it are
those up to the stamp `last`. -/
structure Segment where
  info : TrigInfo
  pre : Nat
  post : Nat
  first : Nat
  last : Option Stamp
  truncated : Bool
  gapBefore : Bool
  overload : Bool
  settling : Bool
  done : Bool
  seq : Word
  records : Nat
  deriving DecidableEq, Repr

/-- A working copy of a mask: its entries, the generation it was loaded under, and whether it is dirty (R323, R325). -/
structure MaskCopy where
  entries : List Word
  gen : BitVec 16
  dirty : Bool
  deriving DecidableEq, Repr

/-- One unit (R291 to R330). -/
structure TrgUnit where
  state : UnitState
  inCycle : Bool
  /-- The t_A at which the cycle begins or began to count events. -/
  armedAt : Stamp
  cycle : BitVec 16
  number : BitVec 16
  /-- The condition's yes-or-no state; none before the first evaluated sample or spectrum. -/
  isTrue : Option Bool
  cond : Option Condition
  /-- Evaluation was interrupted by marked input (R299). -/
  marked : Bool
  /-- The serial number of the next spectrum to evaluate. -/
  evaluated : Nat
  /-- The request sent to the arbiter is the unit's own (R312). -/
  requested : Option TrigInfo
  /-- Number of the first output that the live slot holds; none while no slot is live. -/
  liveFrom : Option Nat
  liveGap : Bool
  segments : List Segment
  lastInstant : Stamp
  holdoffTo : Stamp
  missed : Nat
  missedCount : Word
  count : Word
  deadLast : Word
  deadUnits : Nat
  qualAbort : BitVec 4
  missedTold : Bool
  abortTold : Bool
  copy : MaskCopy
  spare : Option MaskCopy
  spareReady : Bool
  /-- The copy in use up to the hop boundary of the latest switch, and that boundary (R323). -/
  prior : Option (MaskCopy × Stamp)
  /-- Core events that wait for their stamp: stamp and event word (R297). -/
  events : List (Stamp × Word)
  deriving DecidableEq, Repr

def MaskCopy.reset : MaskCopy := { entries := [], gen := 0, dirty := false }

def TrgUnit.reset : TrgUnit :=
  { state := .off, inCycle := false, armedAt := 0, cycle := 0, number := 0, isTrue := none, cond := none, marked := false
    evaluated := 0, requested := none, liveFrom := none, liveGap := false, segments := [], lastInstant := 0, holdoffTo := 0
    missed := 0, missedCount := 0, count := 0, deadLast := 0, deadUnits := 0, qualAbort := 0, missedTold := false
    abortTold := false, copy := .reset, spare := none, spareReady := false, prior := none, events := [] }

/-- A mask of the store (R321, R335). -/
structure MaskGen where
  gen : BitVec 16
  dirty : Bool
  deriving DecidableEq, Repr

/-- The units and the mask store of a bay; an unlisted store entry is 0x8000_8000, no limit. -/
structure TrgBay where
  units : Vector TrgUnit 8
  masks : Vector MaskGen 8
  store : Sparse Word
  ignored : Word
  deriving DecidableEq, Repr

def TrgBay.reset : TrgBay :=
  { units := Vector.replicate 8 .reset, masks := Vector.replicate 8 { gen := 0, dirty := false }, store := [], ignored := 0 }

/-- ARM and DISARM accepted and not yet in effect: the stamp, the masks, whether it arms (R303, R304, R307), and the tag of the
command, if a command gave the order (R732). -/
structure ArmOrder where
  tag : Option Word
  arm : Bool
  /-- The order is that of IMG.AUTO_ARM, for units with AUTO_ARM (R305). -/
  auto : Bool
  instant : Stamp
  bays : BitVec 8
  units : BitVec 8
  deriving DecidableEq, Repr

/-- A TRIG_OUT pin (R326, R327): edges scheduled by a trigger, and the end of the pulse under way. -/
structure TrigOut where
  edges : List (Stamp × Bool)
  level : Bool
  pulseEnd : Stamp
  deriving DecidableEq, Repr

/-- Arming, groups and trigger outputs of a package. -/
structure TrgPkg where
  orders : List ArmOrder
  requests : List Fire
  /-- Accepted fires and the members each has not yet reached. -/
  fires : List (Fire × List (BayNo × Fin 8))
  /-- For each arbiter's bay, the instant of the last fire it accepted for each group, 1 to 15 at index 1 to 15. -/
  lastFire : Vector (Vector (Option Stamp) 16) 8
  merged : Vector (Vector Word 16) 8
  outs : Vector TrigOut 2
  deriving DecidableEq, Repr

def TrgPkg.reset : TrgPkg :=
  { orders := [], requests := [], fires := [], lastFire := Vector.replicate 8 (Vector.replicate 16 none), merged := Vector.replicate 8 (Vector.replicate 16 0)
    outs := Vector.replicate 2 { edges := [], level := false, pulseEnd := 0 } }

end Sys2Proof.Machine
end

