-- ==== Sys2Proof/Syntax.lean ====
section
/-! DEFINITION. The commands: one constructor per row of the opcode table, in the table's order. Operands name the bay and the
instance that the row concerns, what the host or a pin supplies, and what the analogue parts and the outside world
produce (log entry 4). -/
namespace Sys2Proof
open Sys2Proof.Machine

/-- A command of the package (00_scope.md; the rows of the table of operations and events). -/
inductive Instr where
  /-- PWR_GOOD_RISE (R88): PWR_GOOD rising (or the later of it and RST_N) sets the start-up origin and begins phase 1.
  -/
  | pwrGoodRise
  /-- RST_N_FALL (R88): RST_N going low stops every bay and holds the package at the start-up origin. -/
  | rstNFall
  /-- RST_N_RISE (R88): RST_N rising restarts start-up from phase 1 while the lagoon keeps running. -/
  | rstNRise
  /-- POWER_FAIL (R731): PWR_GOOD falls or a brown-out detector trips, and the package enters OFF at once without
  draining. -/
  | powerFail
  /-- LAGOON_FLOOD_DONE (R88): Phase 1 ends when the lagoon has flooded the bay domains. -/
  | lagoonFloodDone
  /-- BOOT_ROM_DONE (R89): Phase 2 ends when the boot ROM has run and the CPLL has locked to the first valid boot
  reference. -/
  | bootRomDone (seen : Vector (Vector (Option CandSeen) 4) 8) (locked : BitVec 8)
  /-- D2D_TRAIN_DONE (R91): Phase 3 ends when the die-to-die links have trained; links that fail to train stay down and
  external-link bring-up starts. -/
  | d2dTrainDone (failed : Vector (BitVec 3) 8)
  /-- DISCOVER_DONE (R88): Phase 4 ends when the headland's DISCOVER flood has completed the topology table. -/
  | discoverDone
  /-- DISCOVER_TIMEOUT (R91): A bay that has not answered DISCOVER 1 ms after phase 3 is treated as lost. -/
  | discoverTimeout (b : BayNo)
  /-- SHOAL_SECTION_READ_DONE (R96): The early read of header, section table and SHOAL completes and the package takes
  its provisional shoal role. -/
  | shoalSectionReadDone
  /-- IMAGE_READ_DONE (R52): The read of a slot finishes with checks 1 to 7 run during it; a failing slot is reported
  and the next slot is tried. -/
  | imageReadDone (flashError : Bool) (quad : Bool)
  /-- CHECKER_DONE (R57): Phase 6 ends when checks 10 to 19 have been evaluated for the base setup and every profile,
  accepting or refusing the image. -/
  | checkerDone (pins : BitVec 4)
  /-- IMAGE_BROADCAST_DONE (R88): Phase 7 ends when the image has been broadcast to all bays and cores and DACs have
  been loaded. -/
  | imageBroadcastDone
  /-- SPLL_LOCK_PHASE8 (R90): Phase 8 ends with the SPLL locked, the CPLL on the image reference, the tide counter set
  and the epoch grid anchored. -/
  | spllLockPhase8 (seen : Vector (Option CandSeen) 4)
  /-- ADC_INIT_CAL_DONE (R184): Phase 9 ends when every slice has been calibrated in the foreground. -/
  | adcInitCalDone (res : List AdcInit)
  /-- FE_CAL_DONE (R674): Phase 10 ends after the front-end runs and COMB_CHECK, and the package or leader enters RUN
  (followers READY). -/
  | feCalDone (runs : List FeRun)
  /-- SEAL_ROW_VERIFIED (R630): A newly programmed seal-counter row is verified and a SEALED_CHANGE entry is made. -/
  | sealRowVerified (ok : Bool)
  /-- SET_LIVE (R84): Command that schedules a new value for a live-declared field, checked for declaration and range.
  -/
  | setLive (tag : Word) (key : Word) (value : Word) (defer : Bool)
  /-- SELECT_PROFILE (R74): Command that schedules a profile change at an EPOCH point. -/
  | selectProfile (tag : Word) (p : BitVec 4)
  /-- ARM (R303): Command that schedules the arming of selected trigger units at a tide stamp. -/
  | arm (tag : Word) (bays : BitVec 8) (units : BitVec 8) (pkgs : BitVec 4) (t : Stamp)
  /-- DISARM (R307): Command that schedules the disarming of selected trigger units at a tide stamp. -/
  | disarm (tag : Word) (bays : BitVec 8) (units : BitVec 8) (pkgs : BitVec 4) (t : Stamp)
  /-- REC_START (R490): Command that schedules the start of a recording session in selected bays. -/
  | recStart (tag : Word) (mask : BitVec 8) (fresh : Bool) (erase : Bool) (t : Stamp)
  /-- REC_STOP (R491): Command that schedules the stop of recording in selected bays. -/
  | recStop (tag : Word) (mask : BitVec 8) (t : Stamp)
  /-- REPLAY (R509): Command that starts or stops a replay of a bay's recording to a queue or an XS port. -/
  | replay (tag : Word) (b : BayNo) (target : BitVec 2) (stop : Bool) (lo : Stamp) (hi : Stamp) (source : BitVec 8) (typ : BitVec 8)
  /-- SNAPSHOT_AT (R164): Command that schedules a consistent snapshot at a given tide stamp. -/
  | snapshotAt (tag : Word) (t : Stamp) (id : Word)
  /-- ACQ_RESTART (R80): Command that requests an acquisition restart of the bays in its mask. -/
  | acqRestart (tag : Word) (mask : BitVec 8)
  /-- IMAGE_RESTART (R99): Command that stops all output, flushes queues and reruns phases 5 to 10. -/
  | imageRestart (tag : Word) (bFirst : Bool)
  /-- NVM_READ (R81): Flash command that queues a read of setup flash into host memory. -/
  | nvmRead (tag : Word) (off : Word) (len : Word) (host : BitVec 64)
  /-- NVM_ERASE (R82): Flash command that queues an erase of setup flash outside the seal-log region. -/
  | nvmErase (tag : Word) (off : Word) (len : Word)
  /-- NVM_PROGRAM (R82): Flash command that queues programming of setup flash outside the seal-log region. -/
  | nvmProgram (tag : Word) (off : Word) (len : Word) (host : BitVec 64)
  /-- SEAL_LOG_READ (R648): Flash command that copies seal-log entries into host memory. -/
  | sealLogRead (tag : Word) (first : Word) (count : Word) (host : BitVec 64)
  /-- UNKNOWN_OPCODE (R83): A command with an unknown opcode completes with UNKNOWN_OPCODE. -/
  | unknownOpcode (op : BitVec 8) (tag : Word)
  /-- FLASH_COMMAND_DONE (R81): A queued flash command finishes its flash operation and its completion is written. -/
  | flashCommandDone (ok : Bool) (data : List Byte)
  /-- IMG_CMD_TAIL_WRITE (R81): Host write of the command-ring producer index lets the headland take commands in ring
  order when an event slot is free. -/
  | imgCmdTailWrite (v : BitVec 12)
  /-- IMG_CMD_CFG_WRITE (R78): Host write of the command-ring configuration enables or disables the ring. -/
  | imgCmdCfgWrite (w : Word)
  /-- IMG_EVT_CFG_WRITE (R86): Host write of the event-ring configuration; a first enable writes the buffered events. -/
  | imgEvtCfgWrite (w : Word)
  /-- IMG_EVT_HEAD_WRITE (R85): Host write of the event-ring consumer index frees slots, releasing waiting commands and
  an EV_EVENT_LOST record. -/
  | imgEvtHeadWrite (v : BitVec 12)
  /-- IMG_EVT_LOST_READ (R75): Read of IMG_EVT_LOST returns and clears the lost-event count. -/
  | imgEvtLostRead
  /-- PROFILE_PIN_CHANGE (R73): A PROFILE pin value stable for 32 lagoon periods is accepted as a profile change or
  ignored. -/
  | profilePinChange (v : BitVec 4)
  /-- LIVE_APPLY_IMMEDIATE (R65): An IMMEDIATE live value reaches a selected bay and takes effect within 2 µs. -/
  | liveApplyImmediate (b : BayNo)
  /-- HOP_BOUNDARY (R222): A hop boundary of a channel applies waiting HOP values such as retunes, presets, windows and
  mask switches. -/
  | hopBoundary (b : BayNo) (x : Fin 2) (t : Stamp)
  /-- ACQ_RESTART_BEGIN (R67): An acquisition restart stops the bay's channels, opens GAP records and applies waiting
  values. -/
  | acqRestartBegin (b : BayNo)
  /-- ACQ_RESTART_END (R67): An acquisition restart ends, the grid restarts on the epoch grid and the GAP records close.
  -/
  | acqRestartEnd (b : BayNo) (t : Stamp)
  /-- REF_LOSS_DETECT (R108): A bay detects loss of a reference candidate; for the active one it freezes its reference
  DPLL. -/
  | refLossDetect (b : BayNo) (c : Fin 4) (t0 : Stamp) (silent : Bool)
  /-- REF_DEGLITCH_END (R110): At t0 + 10 µs the headland chooses the next qualified candidate and begins build-out, or
  enters holdover. -/
  | refDeglitchEnd (resumed : Bool)
  /-- BUILD_OUT_END (R110): Phase build-out ends after 50 µs and frequency pull-in begins. -/
  | buildOutEnd (phase : Int)
  /-- PULL_IN_DONE (R110): Pull-in reaches the chosen candidate's frequency and the switch episode ends. -/
  | pullInDone (freq : Int)
  /-- REF_QUALIFIED (R107): A candidate completes its qualification window. -/
  | refQualified (b : BayNo) (c : Fin 4) (off : Int)
  /-- REF_DISQUALIFIED (R107): A qualified candidate outside tolerance for 1 s loses qualification. -/
  | refDisqualified (b : BayNo) (c : Fin 4) (off : Int)
  /-- SPLL_LOSS_OF_LOCK (R123): An SPLL is declared unlocked: outputs gated, frames truncated, GAP records with
  CLOCK_FAULT opened. -/
  | spllLossOfLock (b : BayNo) (tL : Stamp)
  /-- SPLL_RELOCK (R123): The SPLL relocks, outputs are ungated, the grid restarts and the GAP records close. -/
  | spllRelock (b : BayNo) (t : Stamp)
  /-- SPLL_STUCK_TIMEOUT (R123): An SPLL not relocked 3 ms after detection raises EV_SPLL_STUCK once. -/
  | spllStuckTimeout (b : BayNo)
  /-- CPLL_LOSS_OF_LOCK (R125): A CPLL loses lock and its bay halts and is lost. -/
  | cpllLossOfLock (b : BayNo)
  /-- CLK_SYSREF_FIRE (R119): Write of FIRE to CLK_SYSREF_CTRL issues one pulsed-mode SYSREF_OUT burst. -/
  | clkSysrefFire (b : BayNo)
  /-- CLK_FAULT_CNT_READ (R128): Read of CLK_FAULT_CNT returns and clears the unlock and switch counts. -/
  | clkFaultCntRead (b : BayNo)
  /-- SPLL_LOL_CLEAR (R130): Writing 1 to CLK_PLL_STATUS.SPLL_LOL clears the sticky loss-of-lock bit. -/
  | spllLolClear (b : BayNo)
  /-- SYNC_IN_EDGE (R157): A stamped SYNC_IN edge moves, re-anchors or is ignored by the epoch grid. -/
  | syncInEdge (b : BayNo) (t : Stamp) (falling : Bool) (longPulse : Bool) (relayed : Bool)
  /-- PPS_EDGE (R150): A stamped PPS_IN edge gives the servo an offset measurement or is rejected. -/
  | ppsEdge (b : BayNo) (t : Stamp) (falling : Bool) (longPulse : Bool)
  /-- TRIG_IN_EDGE (R298): A stamped TRIG_IN edge of the set polarity is an event for units with that source. -/
  | trigInEdge (b : BayNo) (n : Fin 2) (t : Stamp) (falling : Bool) (longPulse : Bool)
  /-- SYSREF_IN_EDGE (R579): A stamped SYSREF_IN edge sets or checks the boundary grid of JESD204 streams. -/
  | sysrefInEdge (b : BayNo) (t : Stamp) (falling : Bool) (longPulse : Bool)
  /-- TBS_NOW_READ (R167): Read of TBS_NOW0 latches all three words of the tide counter. -/
  | tbsNowRead (b : BayNo)
  /-- SERVO_HOLDOVER_TIMEOUT (R149): The discipline source has been silent for 2.5 s after LOCKED and the servo enters
  HOLDOVER. -/
  | servoHoldoverTimeout
  /-- LINK_DELAY_MEASURE (R144): A link remeasures its one-way delay by round trip every 100 µs. -/
  | linkDelayMeasure (b : BayNo) (p : Fin 5) (d : Nat) (lead : Option LeaderTime)
  /-- EPOCH_BOUNDARY (R160): An epoch boundary takes effect: EPOCH records, EPOCH apply points, density swaps, trace and
  monitor output, spans. -/
  | epochBoundary (h : BayNo)
  /-- SYNC_WINDOW_END (R157): In LOCKED with no edge by B + W the boundary falls there marked SYNC_MISSED. -/
  | syncWindowEnd
  /-- SNAPSHOT_TAKE (R164): At the snapshot stamp each bay latches the stamp, SEQ values and queue levels. -/
  | snapshotTake (remote : Option (Stamp × Word))
  /-- TBS_GLOBAL_RESET (R165): Write of 0xA5 to TBS_GLOBAL_RESET starts a global reset of the package or shoal. -/
  | tbsGlobalReset (v : Word)
  /-- GLOBAL_RESET_ARRIVE (R165): A global reset message arrives and the package reset net is asserted for 40 µs. -/
  | globalResetArrive (remote : Bool)
  /-- GLOBAL_RESET_RELEASE (R165): The 40 µs reset hold ends and start-up from phase 1 follows. -/
  | globalResetRelease
  /-- OVERLOAD_TRIP (R176): The overload detector trips and an overload interval opens. -/
  | overloadTrip (b : BayNo) (i : Fin 2) (t : Stamp) (level : Int) (clips : Nat)
  /-- OVERLOAD_CLOSE (R176): The signal has stayed 1 dB below threshold for the hold time and the overload interval
  closes. -/
  | overloadClose (b : BayNo) (i : Fin 2) (t : Stamp)
  /-- AUTO_STEP_DOWN (R180): After the quiet hold time the attenuator steps down by AUTO_STEP dB. -/
  | autoStepDown (b : BayNo) (i : Fin 2) (peak : Int)
  /-- ATTEN_SETTLED (R174): The front end has settled after an attenuation change. -/
  | attenSettled (b : BayNo) (i : Fin 2) (level : Int)
  /-- SLICE_CAL_DONE (R186): The spare slice's 4 ms background calibration ends and a swap begins. -/
  | sliceCalDone (b : BayNo) (i : Fin 2) (est : SliceCoef) (power : Int)
  /-- SWAP_COMPARE (R187): A 64-slot-period comparison window ends and the swap completes, aborts or is postponed. -/
  | swapCompare (b : BayNo) (i : Fin 2) (sum : Int) (squares : Nat)
  /-- XS_STREAM_STOP (R230): An XS stream unit is not good or alignment is lost; frames truncated and XS_LOSS gaps
  opened. -/
  | xsStreamStop (b : BayNo) (x : Fin 2) (t : Stamp) (loss : Bool)
  /-- XS_STREAM_RESUME (R232): The first good unit after a stop resumes the stream and closes its gaps. -/
  | xsStreamResume (b : BayNo) (x : Fin 2) (t : Stamp) (units : Nat)
  /-- JES_ALIGNED (R580): A JESD204 receiver completes alignment, checking ILAS and the latency window. -/
  | jesAligned (b : BayNo) (x : Fin 2) (a : JesAlign)
  /-- SPECTRUM_READY (R246): A frame's corrected spectrum is ready for detectors, density, triggers, taps and SPECTRUM
  records. -/
  | spectrumReady (b : BayNo) (x : Fin 2) (ins : List (List Sample))
  /-- TAP_SLOT_WRITTEN (R277): A tap finishes writing a slot, increments WRITE_IDX and raises the core's TAP line. -/
  | tapSlotWritten (b : BayNo) (c : CoreNo)
  /-- TRACE_INTERVAL_END (R269): A trace interval ends and its TRACE record is formed and handed to its queue. -/
  | traceIntervalEnd (b : BayNo) (t : Fin 16)
  /-- TRIGGER_EVENT (R291): A unit detects its source's event (after qualification) and triggers or sends a group fire
  request. -/
  | triggerEvent (b : BayNo) (u : Fin 8) (o : LevelObs)
  /-- QUAL_LONGER_EXPIRE (R300): A condition true for D_MIN under Longer qualification produces the event. -/
  | qualLongerExpire (b : BayNo) (u : Fin 8)
  /-- CORE_EVENT_DUE (R297): A core event held until its stamp reaches the unit as an event. -/
  | coreEventDue (b : BayNo) (u : Fin 8)
  /-- GROUP_FIRE_REQUEST (R313): The arbiter receives a fire request and accepts and broadcasts it or merges it. -/
  | groupFireRequest (remote : Option Fire)
  /-- GROUP_FIRE_BROADCAST (R312): A member receives an accepted fire and triggers, counts a miss or ignores it. -/
  | groupFireBroadcast (b : BayNo) (u : Fin 8) (remote : Option Fire)
  /-- ARM_TAKE_EFFECT (R304): At t_A the selected units become armed and a new arm cycle starts. -/
  | armTakeEffect (remote : Option ArmOrder)
  /-- DISARM_TAKE_EFFECT (R307): At t_A the unit stops accepting events. -/
  | disarmTakeEffect (remote : Option ArmOrder)
  /-- SEGMENT_POST_DONE (R318): A segment's post-trigger part completes and the frozen slot starts leaving as IQ
  records. -/
  | segmentPostDone (b : BayNo) (u : Fin 8) (xs : List Sample)
  /-- SLOT_FREED (R318): A frozen slot frees when its last IQ record has been handed to the queue and the TRIGGER record
  follows. -/
  | slotFreed (b : BayNo) (u : Fin 8)
  /-- UNIT_REARM (R308): A dead unit re-arms at the latest of segment, holdoff and free-slot instants. -/
  | unitRearm (b : BayNo) (u : Fin 8)
  /-- TRG_FORCE (R311): Write of a unit mask to TRG_FORCE triggers each armed unit with cause FORCED. -/
  | trgForce (b : BayNo) (mask : BitVec 8)
  /-- MASK_BUMP (R323): A write of a different generation to TRG_MASK_GEN starts the copy into units' spare copies. -/
  | maskBump (b : BayNo) (m : Fin 8) (gen : BitVec 16)
  /-- MASK_COPY_DONE (R323): A unit's bump-driven mask copy completes and waits for the next hop boundary. -/
  | maskCopyDone (b : BayNo) (u : Fin 8)
  /-- MASK_STORE_WRITE (R324): A host write to the mask store sets the DIRTY bit of each mask it falls in. -/
  | maskStoreWrite (b : BayNo) (e : BitVec 17) (v : Word)
  /-- TRIG_OUT_EDGE (R326): The TRIG_OUT pulse edge is driven at its scheduled instant or late after arrival. -/
  | trigOutEdge (n : Fin 2)
  /-- TRIG_OUT_PULSE_END (R327): The TRIG_OUT pulse width expires and the pin returns low. -/
  | trigOutPulseEnd (n : Fin 2)
  /-- DEN_BANK_CLOSE (R345): The old density bank closes at B + D_close and its readout pass starts. -/
  | denBankClose (b : BayNo) (x : Fin 2)
  /-- DEN_PASS_DONE (R351): The readout pass completes; the frame is offered to scan-out and emitted as DENSITY records.
  -/
  | denPassDone (b : BayNo) (x : Fin 2)
  /-- DEN_CLEAR (R356): Write to DEN_CLEAR discards a channel's carry at its next swap. -/
  | denClear (b : BayNo) (mask : BitVec 2)
  /-- SCN_LATCH_POINT (R369): At line V_ACTIVE + 4 committed shadows latch, layer content latches and buffers are
  adopted. -/
  | scnLatchPoint (b : BayNo)
  /-- SCN_CRC_COMPARE (R389): At a rectangle's last pixel its CRC is completed and compared; readout mismatches are
  logged. -/
  | scnCrcCompare (b : BayNo) (r : Fin 16) (upset : Word)
  /-- SCN_COMMIT_WRITE (R370): Write to SCN_COMMIT sets or withdraws the pending commit of shadow registers. -/
  | scnCommitWrite (b : BayNo) (v : Bool)
  /-- RO_REFERENCE_DONE (R384): The sealed side finishes the reference rendering and expected CRC of a posted buffer. -/
  | roReferenceDone (b : BayNo)
  /-- RO_STALE_TIMEOUT (R385): No buffer posted for RO_STALE ms and the stale buffer is adopted. -/
  | roStaleTimeout (b : BayNo)
  /-- DP_HPD_RISE (R368): DP_HPD rises; EDID is read and link training starts. -/
  | dpHpdRise (b : BayNo) (edid : List Byte)
  /-- DP_HPD_IRQ (R368): An HPD IRQ triggers retraining when it reports lost link status. -/
  | dpHpdIrq (b : BayNo) (lostStatus : Bool)
  /-- DP_HPD_FALL (R368): DP_HPD falls and EV_DP_HPD_LOST is raised. -/
  | dpHpdFall (b : BayNo)
  /-- DP_LINK_TRAIN_DONE (R368): DisplayPort link training completes or fails. -/
  | dpLinkTrainDone (b : BayNo) (ok : Bool)
  /-- DP_TRAIN_RETRY_TIMER (R368): 1 s after a failed training the link is trained again. -/
  | dpTrainRetryTimer (b : BayNo)
  /-- INTERRUPT_ENTRY (R413): A pending unmasked line is taken at an instruction boundary and the handler starts. -/
  | interruptEntry (b : BayNo) (c : CoreNo)
  /-- CORE_TIMER_EXPIRE (R412): TCOUNT reaches zero, raises line TIMER and reloads. -/
  | coreTimerExpire (b : BayNo) (c : CoreNo)
  /-- WATCHDOG_EXPIRE (R416): The core watchdog expires and the core faults. -/
  | watchdogExpire (b : BayNo) (c : CoreNo)
  /-- CORE_RESTART (R417): A faulted core restarts with reset registers and reloaded rockpool memory. -/
  | coreRestart (b : BayNo) (c : CoreNo)
  /-- EMIT_COPY_DONE (R422): An EMIT payload copy completes and the RESULT record enters its queue. -/
  | emitCopyDone (b : BayNo) (c : CoreNo)
  /-- POST_COPY_DONE (R423): A POST readout-buffer copy completes and is handed to the sealed side. -/
  | postCopyDone (b : BayNo) (c : CoreNo)
  /-- IQ_FEED_BLOCK (R418): A core's I/Q feed completes a block, writes it or drops it, and raises line IQF. -/
  | iqFeedBlock (b : BayNo) (c : CoreNo) (xs : List Sample)
  /-- NOP (R403): Instruction that does nothing. -/
  | nop (b : BayNo) (c : CoreNo)
  /-- ADD (R404): ALU instruction: rd := ra + rb modulo 2^32. -/
  | add (b : BayNo) (c : CoreNo)
  /-- SUB (R404): ALU instruction: rd := ra − rb modulo 2^32. -/
  | sub (b : BayNo) (c : CoreNo)
  /-- AND (R404): ALU instruction: bitwise AND. -/
  | and (b : BayNo) (c : CoreNo)
  /-- OR (R404): ALU instruction: bitwise OR. -/
  | or (b : BayNo) (c : CoreNo)
  /-- XOR (R404): ALU instruction: bitwise XOR. -/
  | xor (b : BayNo) (c : CoreNo)
  /-- SHL (R404): ALU instruction: shift left by rb[4:0]. -/
  | shl (b : BayNo) (c : CoreNo)
  /-- SHR (R404): ALU instruction: logical shift right by rb[4:0]. -/
  | shr (b : BayNo) (c : CoreNo)
  /-- SAR (R404): ALU instruction: arithmetic shift right by rb[4:0]. -/
  | sar (b : BayNo) (c : CoreNo)
  /-- ADDS (R404): ALU instruction: saturating signed add, setting OVF. -/
  | adds (b : BayNo) (c : CoreNo)
  /-- SUBS (R404): ALU instruction: saturating signed subtract, setting OVF. -/
  | subs (b : BayNo) (c : CoreNo)
  /-- MIN (R404): ALU instruction: signed minimum. -/
  | min (b : BayNo) (c : CoreNo)
  /-- MAX (R404): ALU instruction: signed maximum. -/
  | max (b : BayNo) (c : CoreNo)
  /-- MINU (R404): ALU instruction: unsigned minimum. -/
  | minu (b : BayNo) (c : CoreNo)
  /-- MAXU (R404): ALU instruction: unsigned maximum. -/
  | maxu (b : BayNo) (c : CoreNo)
  /-- ABS (R404): ALU instruction: absolute value with saturation. -/
  | abs (b : BayNo) (c : CoreNo)
  /-- SLT (R404): ALU instruction: signed set-less-than. -/
  | slt (b : BayNo) (c : CoreNo)
  /-- SLTU (R404): ALU instruction: unsigned set-less-than. -/
  | sltu (b : BayNo) (c : CoreNo)
  /-- SHLI (R404): ALU instruction: shift left by the shift-amount field. -/
  | shli (b : BayNo) (c : CoreNo)
  /-- SHRI (R404): ALU instruction: logical shift right by the shift-amount field. -/
  | shri (b : BayNo) (c : CoreNo)
  /-- SARI (R404): ALU instruction: arithmetic shift right by the shift-amount field. -/
  | sari (b : BayNo) (c : CoreNo)
  /-- CLZ (R404): ALU instruction: count leading zeros. -/
  | clz (b : BayNo) (c : CoreNo)
  /-- MUL16 (R404): ALU instruction: exact signed 16 × 16 multiply. -/
  | mul16 (b : BayNo) (c : CoreNo)
  /-- ADDI (R403): Instruction: rd := ra + sext(imm16). -/
  | addi (b : BayNo) (c : CoreNo)
  /-- ANDI (R403): Instruction: rd := ra AND imm16. -/
  | andi (b : BayNo) (c : CoreNo)
  /-- ORI (R403): Instruction: rd := ra OR imm16. -/
  | ori (b : BayNo) (c : CoreNo)
  /-- XORI (R403): Instruction: rd := ra XOR imm16. -/
  | xori (b : BayNo) (c : CoreNo)
  /-- LUI (R403): Instruction: rd := imm16 << 16. -/
  | lui (b : BayNo) (c : CoreNo)
  /-- BEQ (R403): Branch when ra equals rb. -/
  | beq (b : BayNo) (c : CoreNo)
  /-- BNE (R403): Branch when ra differs from rb. -/
  | bne (b : BayNo) (c : CoreNo)
  /-- BLT (R403): Branch when ra < rb signed. -/
  | blt (b : BayNo) (c : CoreNo)
  /-- BGE (R403): Branch when ra ≥ rb signed. -/
  | bge (b : BayNo) (c : CoreNo)
  /-- BLTU (R403): Branch when ra < rb unsigned. -/
  | bltu (b : BayNo) (c : CoreNo)
  /-- BGEU (R403): Branch when ra ≥ rb unsigned. -/
  | bgeu (b : BayNo) (c : CoreNo)
  /-- JMP (R403): Jump to an absolute instruction index. -/
  | jmp (b : BayNo) (c : CoreNo)
  /-- JAL (R403): Jump and link without a window change. -/
  | jal (b : BayNo) (c : CoreNo)
  /-- JR (R403): Jump to the index held in ra. -/
  | jr (b : BayNo) (c : CoreNo)
  /-- CALL (R410): Window call, spilling a window or trapping SPILL_OVERFLOW when needed. -/
  | call (b : BayNo) (c : CoreNo)
  /-- RET (R410): Window return, filling a window from the spill stack when needed. -/
  | ret (b : BayNo) (c : CoreNo)
  /-- REP (R408): Repeats the next instruction n times without interruption. -/
  | rep (b : BayNo) (c : CoreNo)
  /-- LD (R402): Load through an address register, with optional post-modify. -/
  | ld (b : BayNo) (c : CoreNo)
  /-- ST (R402): Store through an address register, with optional post-modify. -/
  | st (b : BayNo) (c : CoreNo)
  /-- LDR (R403): Load from ra + off13. -/
  | ldr (b : BayNo) (c : CoreNo)
  /-- STR (R403): Store to ra + off13. -/
  | str (b : BayNo) (c : CoreNo)
  /-- MAC (R403): Multiply register halves and accumulate into A0 or A1. -/
  | mac (b : BayNo) (c : CoreNo)
  /-- MACP (R403): Multiply memory elements at Pa and Pb, accumulate and post-modify. -/
  | macp (b : BayNo) (c : CoreNo)
  /-- STA (R405): Move an accumulator to a register, shifted, rounded and saturated. -/
  | sta (b : BayNo) (c : CoreNo)
  /-- LDA (R405): Load an accumulator from a shifted register. -/
  | lda (b : BayNo) (c : CoreNo)
  /-- ADDA (R405): Add a shifted register to an accumulator, saturating. -/
  | adda (b : BayNo) (c : CoreNo)
  /-- SHA (R405): Shift an accumulator left or right, saturating. -/
  | sha (b : BayNo) (c : CoreNo)
  /-- SRST (R409): Reset the search registers and set SIDX. -/
  | srst (b : BayNo) (c : CoreNo)
  /-- SMAX (R409): Search an element for a new maximum and advance. -/
  | smax (b : BayNo) (c : CoreNo)
  /-- SMIN (R409): Search an element for a new minimum and advance. -/
  | smin (b : BayNo) (c : CoreNo)
  /-- SMM (R409): Search an element for both maximum and minimum and advance. -/
  | smm (b : BayNo) (c : CoreNo)
  /-- MFS (R406): Read a special register into a general register. -/
  | mfs (b : BayNo) (c : CoreNo)
  /-- MTS (R406): Write a general register into a special register. -/
  | mts (b : BayNo) (c : CoreNo)
  /-- EVT (R421): Raise a core event line towards the trigger units with a word and stamp. -/
  | evt (b : BayNo) (c : CoreNo)
  /-- EMIT (R422): Start the copy of a RESULT record payload from rockpool memory. -/
  | emit (b : BayNo) (c : CoreNo)
  /-- POST (R423): Start the copy of the readout buffer to the sealed side. -/
  | post (b : BayNo) (c : CoreNo)
  /-- WAIT (R415): Suspend issue until an unmasked line is pending. -/
  | wait (b : BayNo) (c : CoreNo)
  /-- HALT (R403): Instruction that halts the core. -/
  | halt (b : BayNo) (c : CoreNo)
  /-- EI (R413): Enable interrupts, or set ISTAT[0] inside a handler. -/
  | ei (b : BayNo) (c : CoreNo)
  /-- DI (R413): Disable interrupts, or clear ISTAT[0] inside a handler. -/
  | di (b : BayNo) (c : CoreNo)
  /-- RETI (R413): Return from a handler, restoring the window bank and IE. -/
  | reti (b : BayNo) (c : CoreNo)
  /-- ILLEGAL_INSTRUCTION (R402): A reserved opcode or encoding faults the core. -/
  | illegalInstruction (b : BayNo) (c : CoreNo)
  /-- MC_CTRL_HALT (R427): Write of HALT to MC_CTRL stops a core at the next instruction boundary. -/
  | mcCtrlHalt (b : BayNo) (c : CoreNo)
  /-- MC_CTRL_RESUME (R427): Write of RESUME to MC_CTRL continues a halted core. -/
  | mcCtrlResume (b : BayNo) (c : CoreNo)
  /-- MC_CTRL_RESET (R427): Write of RESET to MC_CTRL restarts a core without counting a fault. -/
  | mcCtrlReset (b : BayNo) (c : CoreNo)
  /-- MC_MBOX_IN_WRITE (R412): Host write to MC_MBOX_IN sets the core's MBOX line. -/
  | mcMboxInWrite (b : BayNo) (c : CoreNo) (v : Word)
  /-- MC_MBOX_OUT_READ (R430): Read of MC_MBOX_OUT returns and clears the last mailbox value. -/
  | mcMboxOutRead (b : BayNo) (c : CoreNo)
  /-- CORE_IMEM_WRITE (R427): Host write to a core's instruction memory takes effect only while the core is halted. -/
  | coreImemWrite (b : BayNo) (a : BitVec 14) (v : Word)
  /-- CORE_EBB (R729): An idle open core in WAIT for CORE_IDLE_US ebbs. -/
  | coreEbb (b : BayNo) (c : CoreNo)
  /-- CORE_FLOOD_DONE (R729): An ebbed core finishes its flood and leaves WAIT. -/
  | coreFloodDone (b : BayNo) (c : CoreNo)
  /-- RECORD_ENQUEUE (R449): A complete record is handed to a queue and stored, spilled to the reserve or dropped. -/
  | recordEnqueue (b : BayNo) (p : Fin 4) (xs : List Sample)
  /-- DMA_RECORD_START (R451): A queue-mode channel commits the next record once its destination can take it whole. -/
  | dmaRecordStart (b : BayNo) (n : Fin 32)
  /-- DMA_BURST (R463): A DMA burst starts when the rate limiter spacing allows and arbitration grants. -/
  | dmaBurst (b : BayNo) (n : Fin 32) (data : List Byte)
  /-- DMA_RECORD_DELIVERED (R464): A record counts as delivered and completion events are counted and routed. -/
  | dmaRecordDelivered (b : BayNo) (n : Fin 32)
  /-- DMA_GO (R461): Write of GO to DMA_Cn_CTRL starts a memory-to-memory transfer. -/
  | dmaGo (b : BayNo) (n : Fin 32)
  /-- DMA_ABORT (R465): Write of ABORT ends a mode-4 transfer at the next burst boundary. -/
  | dmaAbort (b : BayNo) (n : Fin 32)
  /-- DMA_CLEAR (R465): Write of CLEAR returns an errored channel to IDLE. -/
  | dmaClear (b : BayNo) (n : Fin 32)
  /-- DMA_TRANSFER_DONE (R464): A mode-4 transfer completes and raises its completion event. -/
  | dmaTransferDone (b : BayNo) (n : Fin 32)
  /-- DMA_RING_CFG_WRITE (R460): Write of DMA_Cn_RING_CFG enables or disables a host ring. -/
  | dmaRingCfgWrite (b : BayNo) (n : Fin 32) (w : Word)
  /-- ASLEEP_COMPLETION (R466): A packet meets a fenced domain and the sender keeps it for wake or drops it. -/
  | asleepCompletion (b : BayNo) (n : Fin 32) (data : List Byte)
  /-- HOST_READ_TIMEOUT (R558): A DMA host read not completed in 50 ms ends the transfer with HOST_ERROR. -/
  | hostReadTimeout (b : BayNo) (n : Fin 32)
  /-- QUE_FLUSH (R455): Write of a queue mask to QUE_FLUSH flushes those queues at one FCLK cycle. -/
  | queFlush (b : BayNo) (mask : BitVec 16)
  /-- QUE_RESERVE_PEAK_READ (R470): Read of QUE_RESERVE_PEAK returns and clears the reserve peak. -/
  | queReservePeakRead (b : BayNo)
  /-- SEALED_RECORD_MAC (R636): A sealed record arriving at the headland gets its MAC trailer and enters its queue. -/
  | sealedRecordMac
  /-- DRIVE_LINK_TRAINED (R477): A drive's root port completes training and the controller is enabled. -/
  | driveLinkTrained (b : BayNo) (d : Fin 8) (gen : Nat) (width : Nat)
  /-- DRIVE_TRAIN_RETRY (R477): A root port not trained 100 ms after the origin retries every 1 s. -/
  | driveTrainRetry (b : BayNo) (d : Fin 8)
  /-- DRIVE_READY (R477): A drive finishes Identify, queue creation and label read and raises EV_DRIVE_READY. -/
  | driveReady (b : BayNo) (d : Fin 8) (info : DriveInfo)
  /-- DRIVE_WAIT_EXPIRE (R479): After DRIVE_WAIT the bay proceeds degraded or enters FAILED. -/
  | driveWaitExpire (b : BayNo)
  /-- NVME_COMPLETION (R504): A drive command completes, finishing rows or failing the member. -/
  | nvmeCompletion (b : BayNo) (d : Fin 8) (ok : Bool)
  /-- DRIVE_COMMAND_TIMEOUT (R504): A drive command outstanding for DRIVE_TIMEOUT fails the member. -/
  | driveCommandTimeout (b : BayNo) (d : Fin 8)
  /-- DRIVE_LINK_DOWN (R504): A drive's root port reports link down and the member is failed. -/
  | driveLinkDown (b : BayNo) (d : Fin 8)
  /-- FAILOVER_RESUME (R505): Acceptance resumes in degraded state within 20 µs of the failure. -/
  | failoverResume (b : BayNo)
  /-- REC_SYNC_TIMER (R488): Every SYNC_MS a partial row and index block are written. -/
  | recSyncTimer (b : BayNo)
  /-- SMART_POLL (R479): The SMART log page of each ready drive is read once per second. -/
  | smartPoll (b : BayNo) (d : Fin 8) (temp : BitVec 16) (media : BitVec 16) (used : BitVec 8)
  /-- REC_START_EFFECT (R490): At t_S (after any erase) the bay enters RECORDING. -/
  | recStartEffect (b : BayNo)
  /-- REC_STOP_EFFECT (R491): At t_P the bay stops accepting and begins closing its session. -/
  | recStopEffect (b : BayNo)
  /-- REC_STOP_DONE (R491): Row, index, Flush and labels complete and the bay enters IDLE. -/
  | recStopDone (b : BayNo)
  /-- REC_FREEZE_RELEASE_ONE (R498): Write to REC_FREEZE_RELEASE releases one frozen region. -/
  | recFreezeReleaseOne (b : BayNo) (i : Fin 64)
  /-- REC_FREEZE_RELEASE_ALL (R498): Write with bit 31 to REC_FREEZE_RELEASE releases all frozen regions. -/
  | recFreezeReleaseAll (b : BayNo)
  /-- REPLAY_DELIVER (R512): The replay reads ahead and delivers records as the target queue frees storage. -/
  | replayDeliver (b : BayNo) (fault : Fin 4)
  /-- REPLAY_STALL (R513): Replay reads fall behind and the XS stream stops at the first missing sample. -/
  | replayStall (b : BayNo) (t : Stamp)
  /-- REPLAY_RESUME (R513): 100 µs of samples are buffered again and the replayed stream resumes. -/
  | replayResume (b : BayNo) (t : Stamp)
  /-- REBUILD_ROW_DONE (R508): A row is rebuilt onto a replacement; the last completes the rebuild. -/
  | rebuildRowDone (b : BayNo)
  /-- REC_LAT_MAX_READ (R516): Read of REC_Dd_LAT_MAX returns and clears the write latency peak. -/
  | recLatMaxRead (b : BayNo) (d : Fin 8)
  /-- LANE_LOCK_LOST (R553): A lane serving a running port loses CDR lock. -/
  | laneLockLost (b : BayNo) (k : Fin 24) (signal : Bool)
  /-- LANE_UP (R535): A BLIND Lanil lane locks and finds framing. -/
  | laneUp (b : BayNo) (k : Fin 24)
  /-- LANE_BRINGUP_TIMEOUT (R535): A BLIND lane not up 1 ms after both ends transmit is set aside. -/
  | laneBringupTimeout (b : BayNo) (k : Fin 24)
  /-- CAPABILITY_FRAME_RX (R595): A STEP capability frame is received and acknowledged. -/
  | capabilityFrameRx (b : BayNo) (k : Fin 24) (frame : Vector Word 4)
  /-- STEP_RUNG_CHECK_DONE (R536): A 1 ms PRBS check at a ladder rung ends and lanes pass, retry or are set aside. -/
  | stepRungCheckDone (n : Fin 2) (errs : List (Option Nat))
  /-- LNL_LANES_FAIL_TIMEOUT (R538): A link whose lanes are not up by the maximum time raises EV_LNL_LANES_FAIL. -/
  | lnlLanesFailTimeout (n : Fin 2)
  /-- LNL_BRINGUP_RESTART (R538): A failed external-link bring-up starts again 100 ms later. -/
  | lnlBringupRestart (n : Fin 2)
  /-- EYE_MEASURE (R531): The eye monitor measures lane margins every 1 ms. -/
  | eyeMeasure (b : BayNo) (k : Fin 24) (v : BitVec 8) (h : BitVec 6)
  /-- LANE_ERR_READ (R542): Read of LNE_Lk_ERR_LO latches ERR and BITS of the lane. -/
  | laneErrRead (b : BayNo) (k : Fin 24) (errs : Nat) (losses : Nat)
  /-- LANE_CLEAR (R542): Write of CLEAR to LNE_Lk_CTRL zeroes the lane counters. -/
  | laneClear (b : BayNo) (k : Fin 24)
  /-- LANE_TX_SLEEP (R545): Write of TX_SLEEP puts a TEST-quad transmitter to sleep. -/
  | laneTxSleep (b : BayNo) (k : Fin 24)
  /-- LANE_TX_WAKE (R546): Write of TX_WAKE wakes a TEST-quad transmitter. -/
  | laneTxWake (b : BayNo) (k : Fin 24)
  /-- LANE_RX_SLEEP (R545): Write of RX_SLEEP puts a TEST-quad receiver to sleep. -/
  | laneRxSleep (b : BayNo) (k : Fin 24)
  /-- LANE_RX_WAKE (R546): Write of RX_WAKE wakes a TEST-quad receiver. -/
  | laneRxWake (b : BayNo) (k : Fin 24)
  /-- LANE_RESYNC (R540): Write of RESYNC forces the checker to seed itself again. -/
  | laneResync (b : BayNo) (k : Fin 24) (rx : List Bool)
  /-- LANE_SLEEP_DONE (R544): A direction's sleep entry completes. -/
  | laneSleepDone (b : BayNo) (k : Fin 24) (tx : Bool)
  /-- LANE_TX_WAKE_DONE (R546): A woken transmitter sends at full rate and settled swing. -/
  | laneTxWakeDone (b : BayNo) (k : Fin 24)
  /-- LANE_RX_WAKE_DONE (R546): A woken receiver has CDR lock and valid data. -/
  | laneRxWakeDone (b : BayNo) (k : Fin 24) (rx : List Bool)
  /-- LANE_SIGNAL_DETECT (R546): A sleeping autowake receiver sees signal for 1 µs and wakes itself. -/
  | laneSignalDetect (b : BayNo) (k : Fin 24)
  /-- LANE_TEST_WRITE (R543): Write of LNE_Lk_TEST selects patterns and takes or returns lane directions. -/
  | laneTestWrite (b : BayNo) (k : Fin 24) (v : BitVec 10) (rx : List Bool)
  /-- ERR_INJECT (R540): ERR_INJECT inverts one bit of the generator's next output. -/
  | errInject (b : BayNo) (k : Fin 24)
  /-- PCIE_LINK_UP (R95): An endpoint completes link training. -/
  | pcieLinkUp (b : BayNo) (j : Fin 5) (gen : Nat) (width : Nat) (reversed : Bool)
  /-- PCIE_LINK_DOWN (R559): An endpoint's link goes down and its rings are disabled. -/
  | pcieLinkDown (b : BayNo) (j : Fin 5)
  /-- PCIE_RESET (R559): A hot reset or FLR reaches an endpoint and its rings are disabled. -/
  | pcieReset (b : BayNo) (j : Fin 5)
  /-- PCIE_BME_CHANGE (R559): Bus Master Enable or D3hot changes pause or resume the function's work. -/
  | pcieBmeChange (b : BayNo) (j : Fin 5) (bme : Bool) (d3 : Bool)
  /-- ETH_LINK_UP (R589): An Ethernet port's link comes up. -/
  | ethLinkUp (b : BayNo) (i : Fin 8)
  /-- ETH_LINK_DOWN (R583): An Ethernet port's link goes down and its streams wait. -/
  | ethLinkDown (b : BayNo) (i : Fin 8)
  /-- ETH_PORT_FAULT (R572): A port fault lasting 1 µs fails its streams over to the standby port. -/
  | ethPortFault (b : BayNo) (i : Fin 8) (kind : Fin 3)
  /-- ETH_FAILOVER_DONE (R572): Sending resumes on the standby port. -/
  | ethFailoverDone (n : Fin 64)
  /-- ETH_FRAME_RX (R563): A received frame is answered, passed to PTP or dropped. -/
  | ethFrameRx (b : BayNo) (i : Fin 8) (f : EthFrame)
  /-- PTP_OFFSET_MEASURE (R573): The PTP client completes an offset measurement and passes it to the servo. -/
  | ptpOffsetMeasure (x : PtpExchange)
  /-- ETH_RESOLVE_TIMER (R564): Address resolution is refreshed every 60 s or retried every 1 s. -/
  | ethResolveTimer (p : Fin 64) (d : Fin 16) (ok : Bool)
  /-- FLIT_RECEIVE (R597): A Lanil flit is received, acknowledged or replay is requested. -/
  | flitReceive (b : BayNo) (p : Fin 5) (f : Vector Word 16)
  /-- LNL_FLIT_TIMEOUT (R597): No valid flit for 1 µs declares the link down. -/
  | lnlFlitTimeout (b : BayNo) (p : Fin 5)
  /-- FABRIC_PACKET_RX (R598): A Lanil packet is received whole and delivered, forwarded or discarded. -/
  | fabricPacketRx (b : BayNo) (p : Fin 5) (h : Vector Word 4) (payload : List Word)
  /-- LNL_LINK_DOWN (R606): A link is declared down and a topology update is broadcast. -/
  | lnlLinkDown (b : BayNo) (p : Fin 5) (modules : BitVec 4)
  /-- TOPOLOGY_UPDATE (R606): A bay recomputes routes, resends held packets and recomputes T_b. -/
  | topologyUpdate (b : BayNo) (cuts : BitVec 4) (din : Fin 4) (full : BitVec 3)
  /-- FABRIC_PORT_RETRAIN (R591): A down fabric port retrains every 1 ms. -/
  | fabricPortRetrain (b : BayNo) (p : Fin 3) (modules : BitVec 4)
  /-- LNL_LINK_UP (R591): A fabric port or external link rejoins the fabric. -/
  | lnlLinkUp (b : BayNo) (p : Fin 5)
  /-- LNL_LANE_FAIL (R594): A lane of a running external link fails and the link narrows. -/
  | lnlLaneFail (n : Fin 2) (j : Fin 8)
  /-- LNL_WIDTH_RESUME (R594): Traffic resumes after an external link width change. -/
  | lnlWidthResume (n : Fin 2)
  /-- SHOAL_EXCHANGE_RX (R605): Link-up exchange values are received and matched or the link is held. -/
  | shoalExchangeRx (n : Fin 2) (size : Nat) (package : Nat) (counts : List (Nat × Nat)) (hash : List Byte)
  /-- SHOAL_MISMATCH_RETRY (R605): A held external link retries its exchange every 1 s. -/
  | shoalMismatchRetry (n : Fin 2)
  /-- ISLAND_DECLARED (R610): An unreachable set with high alive lines is declared an island with a time holder. -/
  | islandDeclared (b : BayNo) (packages : BitVec 4)
  /-- REJOIN_MEASURE (R614): A returning link's island measures its offset against the mainland. -/
  | rejoinMeasure (b : BayNo) (off : Int)
  /-- ISLAND_REJOIN (R614): At the next mainland boundary the island rejoins and TIME_REJOIN is emitted. -/
  | islandRejoin
  /-- REJOIN_OFFSET_REMOVED (R614): The island's offset has been slewed out and HOLDOVER clears. -/
  | rejoinOffsetRemoved
  /-- PROVISION_SIGN_KEY (R649): Service command that provisions a signing-key slot. -/
  | provisionSignKey
  /-- PROVISION_MAC_KEY (R649): Service command that provisions a MAC key slot. -/
  | provisionMacKey
  /-- REVOKE (R633): Signed service command that revokes a signing-key slot. -/
  | revoke
  /-- TAMPER_CLEAR (R649): Service command that clears a tamper latch. -/
  | tamperClear
  /-- LOG_VERIFY (R650): Service command that starts recomputing the seal-log chain. -/
  | logVerify
  /-- LOG_VERIFY_DONE (R650): The chain verification completes and SEAL_VERIFY is set. -/
  | logVerifyDone
  /-- LOG_ARCHIVE (R651): Signed service command that erases the log region and starts a new one. -/
  | logArchive (ok : Bool)
  /-- TAMPER_SAMPLE (R638): Every 125 ms the island samples the tamper loops and may set a latch. -/
  | tamperSample (openA : Bool) (openB : Bool)
  /-- SEAL_LOG_FLUSH (R645): A buffered seal-log entry is written to flash or retried every 10 ms. -/
  | sealLogFlush (ok : Bool)
  /-- RTC_FOLLOW_WRITE (R640): The headland writes disciplined time into the RTC on LOCKED and every 60 s. -/
  | rtcFollowWrite
  /-- VBAT_BROWNOUT (R641): A VBAT brown-out restarts the island with its state lost. -/
  | vbatBrownout
  /-- CAL_TEMP_INTERVAL (R665): Each 100 ms T_fe is formed and a temperature cause may make a run due. -/
  | calTempInterval (b : BayNo) (i : Fin 2)
  /-- CAL_INTERVAL_DUE (R665): MAX_INTERVAL after the last run a run becomes due. -/
  | calIntervalDue (b : BayNo) (i : Fin 2)
  /-- CAL_BACKOFF_END (R666): A back-off ends and the input becomes due. -/
  | calBackoffEnd (b : BayNo) (i : Fin 2)
  /-- CAL_RUN_START (R671): A due, undeferred run starts and opens its CAL gap. -/
  | calRunStart (b : BayNo) (i : Fin 2)
  /-- CAL_FORCED (R669): MAX_DEFER after a run became due it starts as a forced run. -/
  | calForced (b : BayNo) (i : Fin 2)
  /-- CAL_PASS_DONE (R662): A calibration pass completes and the agreement test is applied. -/
  | calPassDone (b : BayNo) (i : Fin 2) (p : CalPass)
  /-- COMB_CHECK_DONE (R195): COMB_CHECK completes, passing or failing, and the comb switch returns. -/
  | combCheckDone (b : BayNo) (i : Fin 2) (o : CombObs)
  /-- CAL_RUN_END (R675): The run's gap closes at t_R and its CAL record is emitted. -/
  | calRunEnd (b : BayNo) (i : Fin 2)
  /-- HKC_SCAN_CONVERSION (R685): A scan-slot conversion completes and is accumulated. -/
  | hkcScanConversion (b : BayNo) (x : Fin 2) (code : BitVec 16)
  /-- HKC_SEALED_CONVERSION (R683): A sealed-slot conversion of a privileged channel completes and is corrected and
  averaged. -/
  | hkcSealedConversion (b : BayNo) (x : Fin 2) (code : BitVec 16)
  /-- HKC_URGENT_REQUEST (R690): An urgent request aborts the conversion in progress or waits. -/
  | hkcUrgentRequest (b : BayNo) (x : Fin 2) (chan : Fin 25)
  /-- HKC_URGENT_DONE (R690): The urgent conversion completes and its code is delivered. -/
  | hkcUrgentDone (b : BayNo) (x : Fin 2) (code : BitVec 16)
  /-- AUX_CLR_ASSERT (R702): AUXDAC_CLR_N low is recognised and outputs go to their clear codes. -/
  | auxClrAssert
  /-- AUX_CLR_RELEASE (R702): AUXDAC_CLR_N high for 100 ns releases the pin's clear condition. -/
  | auxClrRelease
  /-- AUX_CODE_WRITE (R705): A write to AUX_CODEn sets the working code at the DAC. -/
  | auxCodeWrite (b : BayNo) (n : Fin 4) (v : Word) (dma : Bool)
  /-- AUX_COMPLIANCE_FAULT (R706): A current output in compliance fault for 10 µs sets its status. -/
  | auxComplianceFault (b : BayNo) (i : Fin 2)
  /-- AUX_COMPLIANCE_CLEAR (R706): The compliance condition has been absent for 10 µs and the bit clears. -/
  | auxComplianceClear (b : BayNo) (i : Fin 2)
  /-- PWR_REQ_WATCH (R720): Write of REQ = 1 to PWR_CTRL requests WATCH. -/
  | pwrReqWatch (svc : Bool)
  /-- PWR_REQ_STANDBY (R720): Write of REQ = 2 to PWR_CTRL requests STANDBY. -/
  | pwrReqStandby (svc : Bool)
  /-- PWR_REQ_WAKE (R725): Service-port write of REQ = 3 to PWR_CTRL wakes the package. -/
  | pwrReqWake (remote : Option (Fin 5 × BayNo))
  /-- PWR_ENTRY_START (R721): At t_E channels stop with WATCH gaps and producers cease. -/
  | pwrEntryStart (leader : Option Bool)
  /-- PWR_QUEUES_DRAINED (R722): All queues are empty and the bays ebb their domains in order. -/
  | pwrQueuesDrained
  /-- PWR_DRAIN_TIMEOUT (R722): Queues not empty after DRAIN_MS abandon the entry. -/
  | pwrDrainTimeout
  /-- DOMAIN_EBB_DONE (R728): A domain's ebb completes; the last one reaches the new package state. -/
  | domainEbbDone (b : BayNo) (d : Domain)
  /-- WATCH_BLOCK_DONE (R724): A watch-meter block completes its level and may meet the wake condition. -/
  | watchBlockDone (b : BayNo) (sum : Nat)
  /-- WAKE_IN_RISE (R725): WAKE_IN high for two lagoon samples is a wake event. -/
  | wakeInRise
  /-- WAKE_COMPARATOR (R725): An enabled wake comparator holds for 10 µs and wakes the package. -/
  | wakeComparator (b : BayNo) (i : Fin 2)
  /-- RTC_WAKE (R725): The RTC reaches PWR_WAKE_RTC and wakes the package. -/
  | rtcWake
  /-- FLOOD_SUPERVISOR_DONE (R726): From STANDBY the supervisors, PLLs and links are up and domain flooding begins. -/
  | floodSupervisorDone
  /-- FLOOD_DONE (R726): Channels resume, WATCH gaps close and first valid samples arrive. -/
  | floodDone
  /-- WATCH_PEAK_READ (R734): Read of PWR_WATCH_PEAK returns and clears the peak block level. -/
  | watchPeakRead (b : BayNo)
  /-- MON_SAMPLE (R737): A monitor unit takes a sample, bins it and checks its limits. -/
  | monSample (b : BayNo) (m : Fin 16) (v : Int) (injected : Bool)
  /-- MON_SNAP (R740): Write to MON_SNAP ends the selected units' intervals with DEMAND records. -/
  | monSnap (b : BayNo) (mask : BitVec 16)
  /-- FAULT_LONGEST_READ (R756): Read of MON_FAULT_LONGEST returns and clears the longest interruption. -/
  | faultLongestRead
  /-- INJ_KILL (R749): Write of 0xD1 to INJ_KILL stops every injector until IMAGE_RESTART. -/
  | injKill (v : Word)
  /-- SVC_TRANSACTION (R769): An I2C service-port transaction reads or writes package words or is refused. -/
  | svcTransaction (op : SvcOp)
  /-- SVC_ALERT_CLEAR (R768): Writing 1 to SVC_ALERT_STATUS bits clears alert causes. -/
  | svcAlertClear (v : Word)
  /-- REGISTER_WRITE (R759): A write to a register without behaviour of its own stores it or is discarded. -/
  | registerWrite (a : Word) (v : Word) (en : BitVec 4)
  /-- TBS_EDGE_LOST_READ (R167): A read of the RC register TBS_EDGE_LOST returns the per-pin lost-edge counts and clears
  them. -/
  | tbsEdgeLostRead (b : BayNo)
  /-- HOST_ERROR_COMPLETION (R558): A completion with UR, CA or poisoned data arrives from the host and ends the DMA
  transfer with cause HOST_ERROR. -/
  | hostErrorCompletion (b : BayNo) (n : Fin 32)
  /-- LNL_INJ_DELAY_EXPIRE (R618): The hold time LNL.INJn_DELAY of a delayed packet runs out and the packet is sent. -/
  | lnlInjDelayExpire (b : BayNo) (n : Fin 5)
  /-- ETH_INJ_DELAY_EXPIRE (R751): The hold time INJ.Ss_DELAY of a delayed record runs out and its packets are sent,
  after which it counts as delivered. -/
  | ethInjDelayExpire (n : Fin 64)
  /-- VERTICAL_BLANKING_START (R389): The first blanking line of a frame is reached, and the frame's CRC results become
  readable in SCN_CRCr and SCN_CRC_STATUS. -/
  | verticalBlankingStart (b : BayNo)
  /-- JTAG_UPDATE_IR (R796): A JTAG instruction becomes current; an EXTEST-class instruction disconnects the bay's pins,
  and entry to a debug chain makes a CORE_DEBUG seal-log entry. -/
  | jtagUpdateIr (b : BayNo) (op : JtagOp)
  /-- JTAG_TEST_LOGIC_RESET (R796): The test access port returns to Test-Logic-Reset and the bay's functional logic is
  reconnected to its pins. -/
  | jtagTestLogicReset (b : BayNo)
  /-- SYSREF_OUT_EDGE (R579): A rising edge of the bay's own SYSREF_OUT sets or checks the boundary grid of a JESD204
  stream that takes SYSREF from it. -/
  | sysrefOutEdge (b : BayNo)
  /-- CONTROLLER_FATAL_STATUS (R504): A drive controller reports fatal status and the recorder declares the member
  failed. -/
  | controllerFatalStatus (b : BayNo) (d : Fin 8)
  /-- SPLL_PHASE8_TIMEOUT (R92): The phase-8 maximum passes with a bay's SPLL unlocked; its channels enter RUN emitting
  GAP records while the SPLL keeps retrying. -/
  | spllPhase8Timeout (b : BayNo)
  deriving DecidableEq, Repr

end Sys2Proof
end

