-- ==== Sys2Proof/Decode.lean ====
section
/-! DEFINITION. The opcode table gives no row any bits: commands are writes, messages, pin edges and completions, and no
word of that table spells one. What the spec does encode is decoded here: the 64-byte entry of the command ring (R79, R80). The
words of the measurement cores' instructions are decoded by Machine/CoreIsa.lean. -/
namespace Sys2Proof

/-- The command that a word spells by the table's bits: none, since no row has bits. -/
def decodeTableWord (_nbits _w : Nat) : Option Instr := none

/-- An entry of the command ring: sixteen words (R79). -/
abbrev RingEntry := Vector (BitVec 32) 16

/-- Bits of a word of an entry. -/
def RingEntry.field (e : RingEntry) (w : Fin 16) (lo n : Nat) : BitVec n := e[w].extractLsb' lo n

/-- The stamp that starts at word `w`, in record order (R80, R133). -/
def RingEntry.stamp (e : RingEntry) (w : Fin 14) : BitVec 96 :=
  e[(⟨w.val + 2, by omega⟩ : Fin 16)] ++ e[(⟨w.val + 1, by omega⟩ : Fin 16)] ++ e[(⟨w.val, by omega⟩ : Fin 16)]

/-- The command that an entry of the ring spells: opcode in word 0 [7:0], tag in word 1, arguments from word 2 on; an opcode that the
table does not list is UNKNOWN_OPCODE, and reserved bits are not looked at (R79, R80, R303, R490, R491, R509). -/
def commandOf (e : RingEntry) : Instr :=
  let tag := e[1]
  let host := e[5] ++ e[4]
  match (e.field 0 0 8).toNat with
  | 0x01 => .setLive tag e[2] e[3] (e[4].getLsbD 0)
  | 0x02 => .selectProfile tag (e.field 2 0 4)
  | 0x03 => .arm tag (e.field 2 0 8) (e.field 2 8 8) (e.field 2 16 4) (e.stamp 3)
  | 0x04 => .disarm tag (e.field 2 0 8) (e.field 2 8 8) (e.field 2 16 4) (e.stamp 3)
  | 0x05 => .recStart tag (e.field 2 0 8) (e[2].getLsbD 8) (e[2].getLsbD 9) (e.stamp 3)
  | 0x06 => .recStop tag (e.field 2 0 8) (e.stamp 3)
  | 0x07 => .replay tag (e.field 2 0 3).toFin (e.field 2 3 2) (e[2].getLsbD 5) (e.stamp 3) (e.stamp 6) (e.field 9 0 8) (e.field 9 8 8)
  | 0x08 => .snapshotAt tag (e.stamp 2) e[5]
  | 0x09 => .acqRestart tag (e.field 2 0 8)
  | 0x0A => .imageRestart tag (e[2].getLsbD 0)
  | 0x0B => .nvmRead tag e[2] e[3] host
  | 0x0C => .nvmErase tag e[2] e[3]
  | 0x0D => .nvmProgram tag e[2] e[3] host
  | 0x0E => .sealLogRead tag e[2] e[3] host
  | _ => .unknownOpcode (e.field 0 0 8) tag

end Sys2Proof
end

