-- ==== Sys2Proof/Machine/CoreIsa.lean ====
section
/-! DEFINITION. The instruction set of the measurement cores and its decoder (R397, R402 to R409). -/
namespace Sys2Proof.Machine

/-- A general register code: 0 to 15 name G0 to G15, 16 to 27 name W0 to W11 (R397). -/
abbrev CReg := Fin 28

/-- The ALU functions (R404), by their code fn. -/
inductive AluFn where
  | add | sub | and | or | xor | shl | shr | sar | adds | subs | min | max | minu | maxu | abs | slt | sltu
  | shli | shri | sari | clz | mul16
  deriving DecidableEq, Repr

/-- The immediate operations, opcodes 0x02 to 0x06. -/
inductive ImmFn where
  | addi | andi | ori | xori | lui
  deriving DecidableEq, Repr

/-- The branches, opcodes 0x08 to 0x0D. -/
inductive BranchFn where
  | beq | bne | blt | bge | bltu | bgeu
  deriving DecidableEq, Repr

/-- Access widths of formats M and L. -/
inductive CoreWidth where
  | byte | half | word
  deriving DecidableEq, Repr

/-- Searches (R409). -/
inductive SearchFn where
  | smax | smin | smm
  deriving DecidableEq, Repr

/-- A decoded core instruction. -/
inductive CoreInstr where
  | nop
  | alu (fn : AluFn) (rd ra rb : CReg) (sh : Nat)
  | imm (fn : ImmFn) (rd ra : CReg) (v : BitVec 16)
  | branch (fn : BranchFn) (ra rb : CReg) (off : BitVec 16)
  | jmp (t : BitVec 14)
  | jal (rd : CReg) (t : BitVec 14)
  | jr (ra : CReg)
  | call (t : BitVec 14)
  | ret
  | rep (n : Nat)
  | repReg (r : CReg)
  | ld (rd : CReg) (p : Fin 8) (w : CoreWidth) (sx pm : Bool) (off : BitVec 12)
  | st (rd : CReg) (p : Fin 8) (w : CoreWidth) (pm : Bool) (off : BitVec 12)
  | ldr (rd ra : CReg) (w : CoreWidth) (sx : Bool) (off : BitVec 13)
  | str (rd ra : CReg) (w : CoreWidth) (off : BitVec 13)
  | mac (acc : Fin 2) (neg clr : Bool) (type : Fin 3) (ra rb : CReg) (ha hb : Bool)
  | macp (acc : Fin 2) (neg clr : Bool) (type : Fin 3) (pa pb : Fin 8)
  | sta (acc : Fin 2) (r : CReg) (sh : Nat) (wide : Bool) (rnd : Fin 3)
  | lda (acc : Fin 2) (r : CReg) (sh : Nat)
  | adda (acc : Fin 2) (r : CReg) (sh : Nat)
  | sha (acc : Fin 2) (sh : Int)
  | srst (ra : CReg)
  | search (fn : SearchFn) (p : Fin 8) (wide skip : Bool)
  | mfs (rd : CReg) (n : Fin 256)
  | mts (n : Fin 256) (ra : CReg)
  | evt (line : Fin 4) (ra : CReg)
  | emit (ra rb : CReg)
  | post (ra : CReg)
  | wait | halt | ei | di | reti
  deriving DecidableEq, Repr

/-- Bits [hi:lo] of an instruction word. -/
def fieldOf (w : Word) (hi lo : Nat) : Nat := bits w.toNat hi lo

/-- A register field, none for a reserved code (R397). -/
def regOf (n : Nat) : Option CReg := if h : n < 28 then some ⟨n, h⟩ else none

/-- A pointer field. -/
def ptrOf (n : Nat) : Fin 8 := ⟨n % 8, Nat.mod_lt _ (by decide)⟩

/-- A bit of the word. -/
def bitOf (w : Word) (i : Nat) : Bool := w.getLsbD i

/-- A condition that must hold for the word to be legal. -/
def need (c : Bool) : Option Unit := if c then some () else none

/-- The ALU function of a code; 22 to 31 are reserved (R404). -/
def aluOf : Nat → Option AluFn
  | 0 => some .add | 1 => some .sub | 2 => some .and | 3 => some .or | 4 => some .xor | 5 => some .shl | 6 => some .shr
  | 7 => some .sar | 8 => some .adds | 9 => some .subs | 10 => some .min | 11 => some .max | 12 => some .minu
  | 13 => some .maxu | 14 => some .abs | 15 => some .slt | 16 => some .sltu | 17 => some .shli | 18 => some .shri
  | 19 => some .sari | 20 => some .clz | 21 => some .mul16 | _ => none

/-- The function takes its shift amount from the field. -/
def AluFn.immShift : AluFn → Bool
  | .shli | .shri | .sari => true
  | _ => false

/-- The function reads rb. -/
def AluFn.usesB : AluFn → Bool
  | .shli | .shri | .sari | .abs | .clz => false
  | _ => true

/-- A width field; 3 is reserved (R402). -/
def widthOf : Nat → Option CoreWidth
  | 0 => some .byte | 1 => some .half | 2 => some .word | _ => none

/-- An accumulator field. -/
def accOf (c : Bool) : Fin 2 := if c then 1 else 0

/-- Format R (R402, R404). -/
def decodeAlu (w : Word) : Option CoreInstr := do
  let fn ← aluOf (fieldOf w 4 0)
  let rd ← regOf (fieldOf w 25 21)
  let ra ← regOf (fieldOf w 20 16)
  need (!bitOf w 10)
  let sh := fieldOf w 9 5
  need (fn.immShift || decide (sh = 0))
  if fn.usesB then
    let rb ← regOf (fieldOf w 15 11)
    some (.alu fn rd ra rb sh)
  else some (.alu fn rd ra ra sh)

/-- Format I. -/
def decodeImm (fn : ImmFn) (w : Word) : Option CoreInstr := do
  let rd ← regOf (fieldOf w 25 21)
  let ra ← regOf (fieldOf w 20 16)
  need (decide (fn ≠ .lui) || decide (fieldOf w 20 16 = 0))
  some (.imm fn rd ra (w.extractLsb' 0 16))

/-- Format B. -/
def decodeBranch (fn : BranchFn) (w : Word) : Option CoreInstr := do
  let ra ← regOf (fieldOf w 25 21)
  let rb ← regOf (fieldOf w 20 16)
  some (.branch fn ra rb (w.extractLsb' 0 16))

/-- Formats M and L. -/
def decodeMem (op : Nat) (w : Word) : Option CoreInstr := do
  let rd ← regOf (fieldOf w 25 21)
  if op ≤ 0x15 then
    let wd ← widthOf (fieldOf w 17 16)
    need (decide (fieldOf w 14 13 = 0))
    need (!bitOf w 12 || decide (fieldOf w 11 0 = 0))
    let p := ptrOf (fieldOf w 20 18)
    if op = 0x14 then some (.ld rd p wd (bitOf w 15) (bitOf w 12) (w.extractLsb' 0 12))
    else some (.st rd p wd (bitOf w 12) (w.extractLsb' 0 12))
  else
    let ra ← regOf (fieldOf w 20 16)
    let wd ← widthOf (fieldOf w 15 14)
    if op = 0x16 then some (.ldr rd ra wd (bitOf w 13) (w.extractLsb' 0 13))
    else some (.str rd ra wd (w.extractLsb' 0 13))

/-- The multiply type; 3 is reserved (R403). -/
def typeOf (n : Nat) : Option (Fin 3) := if h : n < 3 then some ⟨n, h⟩ else none

/-- MAC and MACP. -/
def decodeMac (ptr : Bool) (w : Word) : Option CoreInstr := do
  let t ← typeOf (fieldOf w 22 21)
  if ptr then some (.macp (accOf (bitOf w 25)) (bitOf w 24) (bitOf w 23) t (ptrOf (fieldOf w 20 18)) (ptrOf (fieldOf w 17 15)))
  else
    let ra ← regOf (fieldOf w 20 16)
    let rb ← regOf (fieldOf w 15 11)
    some (.mac (accOf (bitOf w 25)) (bitOf w 24) (bitOf w 23) t ra rb (bitOf w 10) (bitOf w 9))

/-- The ACC sub-ops (R405). -/
def decodeAcc (w : Word) : Option CoreInstr := do
  need (!bitOf w 21 && decide (fieldOf w 6 0 = 0))
  let a := accOf (bitOf w 22)
  let sh := fieldOf w 15 10
  match fieldOf w 25 23 with
  | 0 =>
    let r ← regOf (fieldOf w 20 16)
    let rnd ← typeOf (fieldOf w 8 7)
    need (decide (sh ≤ 39))
    some (.sta a r sh (bitOf w 9) rnd)
  | 1 =>
    let r ← regOf (fieldOf w 20 16)
    need (decide (sh ≤ 8))
    some (.lda a r sh)
  | 2 =>
    let r ← regOf (fieldOf w 20 16)
    need (decide (sh ≤ 8))
    some (.adda a r sh)
  | 3 =>
    let v := (BitVec.ofNat 6 sh).toInt
    need (decide (-31 ≤ v))
    some (.sha a v)
  | _ => none

/-- The SRCH sub-ops (R409). -/
def decodeSearch (w : Word) : Option CoreInstr := do
  need (decide (fieldOf w 22 21 = 0) && decide (fieldOf w 15 0 = 0))
  let p := ptrOf (fieldOf w 20 18)
  match fieldOf w 25 23 with
  | 0 =>
    let ra ← regOf (fieldOf w 20 16)
    some (.srst ra)
  | 1 => some (.search .smax p (bitOf w 17) (bitOf w 16))
  | 2 => some (.search .smin p (bitOf w 17) (bitOf w 16))
  | 3 => some (.search .smm p (bitOf w 17) (bitOf w 16))
  | _ => none

/-- A special register number. -/
def sprOf (w : Word) : Fin 256 := ⟨fieldOf w 15 8 % 256, Nat.mod_lt _ (by decide)⟩

/-- Opcodes 0x1C to 0x1E (R403). -/
def decodeSys (op : Nat) (w : Word) : Option CoreInstr :=
  let sub := fieldOf w 25 23
  if op = 0x1C then do
    let r ← regOf (fieldOf w 20 16)
    match sub with
    | 0 => some (.mfs r (sprOf w))
    | 1 => some (.mts (sprOf w) r)
    | _ => none
  else if op = 0x1D then do
    let r ← regOf (fieldOf w 20 16)
    match sub with
    | 0 => some (.evt ⟨fieldOf w 22 21 % 4, Nat.mod_lt _ (by decide)⟩ r)
    | 1 =>
      let rb ← regOf (fieldOf w 15 11)
      some (.emit r rb)
    | 2 => some (.post r)
    | _ => none
  else if fieldOf w 22 0 ≠ 0 then none
  else
    match sub with
    | 0 => some .wait | 1 => some .halt | 2 => some .ei | 3 => some .di | 4 => some .reti | _ => none

/-- REP (R403, R408). -/
def decodeRep (w : Word) : Option CoreInstr :=
  if bitOf w 25 then
    if fieldOf w 24 21 ≠ 0 ∨ fieldOf w 15 0 ≠ 0 then none else (regOf (fieldOf w 20 16)).map .repReg
  else if fieldOf w 24 12 ≠ 0 then none else some (.rep (fieldOf w 11 0 + 1))

/-- Format J: bits [20:14] are zero, and rd is unless the instruction is JAL. -/
def decodeJump (op : Nat) (w : Word) : Option CoreInstr :=
  if fieldOf w 20 14 ≠ 0 then none
  else
    let t := w.extractLsb' 0 14
    if op = 0x0F then (regOf (fieldOf w 25 21)).map fun rd => .jal rd t
    else if fieldOf w 25 21 ≠ 0 then none
    else if op = 0x0E then some (.jmp t) else some (.call t)

/-- JR: rd, rb, the shift amount and fn are zero. -/
def decodeJr (w : Word) : Option CoreInstr :=
  if fieldOf w 25 21 ≠ 0 ∨ fieldOf w 15 0 ≠ 0 then none else (regOf (fieldOf w 20 16)).map .jr

/-- The decoder: none for an illegal instruction (R402, R403). -/
def decodeCore (w : Word) : Option CoreInstr :=
  match fieldOf w 31 26 with
  | 0x00 => if w = 0 then some .nop else none
  | 0x01 => decodeAlu w
  | 0x02 => decodeImm .addi w
  | 0x03 => decodeImm .andi w
  | 0x04 => decodeImm .ori w
  | 0x05 => decodeImm .xori w
  | 0x06 => decodeImm .lui w
  | 0x08 => decodeBranch .beq w
  | 0x09 => decodeBranch .bne w
  | 0x0A => decodeBranch .blt w
  | 0x0B => decodeBranch .bge w
  | 0x0C => decodeBranch .bltu w
  | 0x0D => decodeBranch .bgeu w
  | 0x0E => decodeJump 0x0E w
  | 0x0F => decodeJump 0x0F w
  | 0x10 => decodeJr w
  | 0x11 => decodeJump 0x11 w
  | 0x12 => if fieldOf w 25 0 = 0 then some .ret else none
  | 0x13 => decodeRep w
  | 0x14 => decodeMem 0x14 w
  | 0x15 => decodeMem 0x15 w
  | 0x16 => decodeMem 0x16 w
  | 0x17 => decodeMem 0x17 w
  | 0x18 => decodeMac false w
  | 0x19 => decodeMac true w
  | 0x1A => decodeAcc w
  | 0x1B => decodeSearch w
  | 0x1C => decodeSys 0x1C w
  | 0x1D => decodeSys 0x1D w
  | 0x1E => decodeSys 0x1E w
  | _ => none

/-- The body of a REP may be this instruction (R408). -/
def CoreInstr.repBody : CoreInstr → Bool
  | .nop | .imm .. | .st .. | .str .. | .mac .. | .macp .. | .sta .. | .lda .. | .adda .. | .sha .. | .srst .. | .search .. => true
  | .alu fn rd ra rb _ => !(decide (fn = .mul16) && (decide (rd = ra) || decide (rd = rb)))
  | .ld .. => true
  | .ldr rd ra .. => decide (rd ≠ ra)
  | _ => false

end Sys2Proof.Machine
end

