-- ==== Sys2Proof/Machine/Crypto.lean ====
section
/-! DEFINITION. The check codes and signatures the spec names by their public standards: CRC-32C
(R37, R388, R435), SHA-256 (R39), HMAC-SHA-256 (R444, R643) and ECDSA P-256 (R40, R632, R649). The
constants of the standards are PRESUMED (log entry 6): the spec names them and does not print them. -/
namespace Sys2Proof.Machine

/-- The little-endian bytes of a word (R6). -/
def wordBytes (w : Word) : List Byte :=
  [w.extractLsb' 0 8, w.extractLsb' 8 8, w.extractLsb' 16 8, w.extractLsb' 24 8]

/-- The little-endian bytes of a run of words (R6). -/
def wordsBytes (ws : List Word) : List Byte := ws.flatMap wordBytes

/-- The little-endian value of a run of bytes (R6). -/
def leNat : List Byte → Nat
  | [] => 0
  | b :: r => b.toNat + 256 * leNat r

/-- The big-endian value of a run of bytes. -/
def beNat (bs : List Byte) : Nat := bs.foldl (fun a b => 256 * a + b.toNat) 0

/-- The `n` little-endian bytes of a number. -/
def natBytes : Nat → Nat → List Byte
  | 0, _ => []
  | n + 1, v => BitVec.ofNat 8 v :: natBytes n (v / 256)

/-- Bytes in groups of four as little-endian words; a short last group is filled with zero bytes. -/
def bytesWords : Nat → List Byte → List Word
  | 0, _ => []
  | n + 1, bs => BitVec.ofNat 32 (leNat (bs.take 4)) :: bytesWords n (bs.drop 4)

/-- One bit of the reflected CRC-32C division. -/
def crcBit (c : Word) : Word :=
  if c.getLsbD 0 then (c >>> 1) ^^^ 0x82F63B78#32 else c >>> 1

/-- One byte of the CRC-32C. -/
def crcByte (c : Word) (b : Byte) : Word :=
  let x := c ^^^ b.zeroExtend 32
  crcBit (crcBit (crcBit (crcBit (crcBit (crcBit (crcBit (crcBit x)))))))

/-- CRC-32C of a run of bytes (R388). -/
def crc32c (bs : List Byte) : Word := (bs.foldl crcByte 0xFFFFFFFF#32) ^^^ 0xFFFFFFFF#32

/-- One byte of a CRC-16 with polynomial 0x1021, most significant bit first (R598). -/
def crc16Byte (c : BitVec 16) (b : Byte) : BitVec 16 :=
  (List.range 8).foldl (fun c _ => if c.getMsbD 0 then (c <<< 1) ^^^ 0x1021 else c <<< 1) (c ^^^ (b.setWidth 16 <<< 8))

/-- The CRC-16 of a packet header: initial value 0xFFFF (R598). -/
def crc16 (bs : List Byte) : BitVec 16 := bs.foldl crc16Byte 0xFFFF

/-- The `n` words of a number, the most significant first. -/
def bigWords : Nat → Nat → List Word
  | 0, _ => []
  | n + 1, v => bigWords n (v / 2 ^ 32) ++ [BitVec.ofNat 32 v]

/-- The 64 constants of SHA-256, eight to a number: the first 32 bits of the fractions of the cube roots of the first 64 primes. -/
def shaConstants : List Word :=
  [0x428a2f9871374491b5c0fbcfe9b5dba53956c25b59f111f1923f82a4ab1c5ed5,
   0xd807aa9812835b01243185be550c7dc372be5d7480deb1fe9bdc06a7c19bf174,
   0xe49b69c1efbe47860fc19dc6240ca1cc2de92c6f4a7484aa5cb0a9dc76f988da,
   0x983e5152a831c66db00327c8bf597fc7c6e00bf3d5a7914706ca635114292967,
   0x27b70a852e1b21384d2c6dfc53380d13650a7354766a0abb81c2c92e92722c85,
   0xa2bfe8a1a81a664bc24b8b70c76c51a3d192e819d6990624f40e3585106aa070,
   0x19a4c1161e376c082748774c34b0bcb5391c0cb34ed8aa4a5b9cca4f682e6ff3,
   0x748f82ee78a5636f84c878148cc7020890befffaa4506cebbef9a3f7c67178f2].flatMap (bigWords 8)

/-- The starting digest of SHA-256: the same of the square roots of the first eight primes. -/
def shaStart : List Word := bigWords 8 0x6a09e667bb67ae853c6ef372a54ff53a510e527f9b05688c1f83d9ab5be0cd19

/-- Three rotations of a word, added without carry. -/
def turned (x : Word) (i j k : Nat) : Word := x.rotateRight i ^^^ x.rotateRight j ^^^ x.rotateRight k

/-- Two rotations and a shift of a word, added without carry. -/
def slid (x : Word) (i j k : Nat) : Word := x.rotateRight i ^^^ x.rotateRight j ^^^ x >>> k

/-- A digest after one step under a constant and a word of the message. -/
def shaStep (h : List Word) (kw : Word × Word) : List Word :=
  match h with
  | [x, x1, x2, x3, y, y1, y2, y3] =>
    let pick := (y &&& (y1 ^^^ y2)) ^^^ y2
    let most := (x &&& (x1 ||| x2)) ||| (x1 &&& x2)
    let sum := y3 + turned y 6 11 25 + pick + kw.1 + kw.2
    [sum + turned x 2 13 22 + most, x, x1, x2, x3 + sum, y, y1, y2]
  | _ => h

/-- Words of the message still to come: the sixteen latest give the next. -/
def shaExtend : Nat → List Word → List Word
  | 0, _ => []
  | n + 1, w =>
    let at_ := fun i => w.getD i 0
    at_ 0 :: shaExtend n (w.drop 1 ++ [at_ 0 + slid (at_ 1) 7 18 3 + at_ 9 + slid (at_ 14) 17 19 10])

/-- Big-endian words of a block. -/
def beWords (n : Nat) (bs : List Byte) : List Word := (bytesWords n bs).map fun w => BitVec.ofNat 32 (beNat (wordBytes w))

/-- The digest after one 64-byte block. -/
def shaBlock (h : List Word) (block : List Byte) : List Word :=
  List.zipWith (· + ·) h ((shaConstants.zip (shaExtend 64 (beWords 16 block))).foldl shaStep h)

/-- The digest after the blocks of a padded message. -/
def shaBlocks : Nat → List Word → List Byte → List Word
  | 0, h, _ => h
  | n + 1, h, bs => shaBlocks n (shaBlock h (bs.take 64)) (bs.drop 64)

/-- SHA-256 of a run of bytes, as 32 bytes: the run is filled up to whole blocks by a 1 bit, zeros and its length in bits. -/
def sha256 (bs : List Byte) : List Byte :=
  let blocks := (bs.length + 72) / 64
  let room := 64 * blocks - bs.length
  let tail := (natBytes room (128 * 256 ^ (room - 1) + 8 * bs.length)).reverse
  (shaBlocks blocks shaStart (bs ++ tail)).flatMap fun w => (wordBytes w).reverse

/-- HMAC-SHA-256 of a message under a key, which fills one block under each of two masks. -/
def hmacSha256 (key msg : List Byte) : List Byte :=
  let short := if 64 < key.length then sha256 key else key
  let masked := fun (m : Byte) => (List.range 64).map fun i => short.getD i 0 ^^^ m
  sha256 (masked 0x5C ++ sha256 (masked 0x36 ++ msg))

/-- The prime of P-256. -/
def p256P : Nat := 0xffffffff00000001000000000000000000000000ffffffffffffffffffffffff
/-- The order of P-256. -/
def p256N : Nat := 0xffffffff00000000ffffffffffffffffbce6faada7179e84f3b9cac2fc632551
/-- The coefficient b of P-256. -/
def p256B : Nat := 0x5ac635d8aa3a93e7b3ebbd55769886bc651d06b0cc53b0f63bce3c3e27d2604b
/-- The base point of P-256. -/
def p256G : Nat × Nat :=
  (0x6b17d1f2e12c4247f8bce6e563a440f277037d812deb33a0f4a13945d898c296,
   0x4fe342e2fe1a7f9b8ee7eb4a7c0f9e162bce33576b315ececbb6406837bf51f5)

/-- b to the power e modulo m, over the low `fuel` bits of e. -/
def powMod (m : Nat) : Nat → Nat → Nat → Nat → Nat
  | 0, _, _, acc => acc
  | n + 1, b, e, acc => powMod m n (b * b % m) (e / 2) (if e % 2 = 1 then acc * b % m else acc)

/-- The inverse modulo a prime m. -/
def invMod (m a : Nat) : Nat := powMod m 256 (a % m) (m - 2) (1 % m)

/-- Addition on the curve; none is the point at infinity. -/
def p256Add (p q : Option (Nat × Nat)) : Option (Nat × Nat) :=
  match p, q with
  | none, q => q
  | p, none => p
  | some (x1, y1), some (x2, y2) =>
    let P := p256P
    if x1 = x2 ∧ (y1 + y2) % P = 0 then none
    else
      let l := if x1 = x2 ∧ y1 = y2 then (3 * x1 * x1 + 3 * (P - 1)) * invMod P (2 * y1) % P
               else (y2 + P - y1) * invMod P (x2 + P - x1) % P
      let x3 := (l * l + 2 * P - x1 - x2) % P
      some (x3, (l * (x1 + P - x3) + P - y1) % P)

/-- Scalar multiplication over the low `fuel` bits. -/
def p256Mul : Nat → Nat → Option (Nat × Nat) → Option (Nat × Nat) → Option (Nat × Nat)
  | 0, _, _, acc => acc
  | n + 1, k, p, acc => p256Mul n (k / 2) (p256Add p p) (if k % 2 = 1 then p256Add acc p else acc)

/-- Verification of an ECDSA P-256 signature (r, s) over a 32-byte digest under a public key (R632). -/
def ecdsaVerify (x y r s : Nat) (digest : List Byte) : Bool :=
  let N := p256N
  if r = 0 ∨ r ≥ N ∨ s = 0 ∨ s ≥ N ∨ x ≥ p256P ∨ y ≥ p256P ∨
      (y * y) % p256P ≠ (x * x * x + 3 * (p256P - 1) * x + p256B) % p256P then false
  else
    let e := beNat digest % N
    let w := invMod N s
    match p256Add (p256Mul 256 (e * w % N) (some p256G) none) (p256Mul 256 (r * w % N) (some (x, y)) none) with
    | none => false
    | some (vx, _) => decide (vx % N = r)

end Sys2Proof.Machine
end

