-- ==== Sys2Proof/Machine/Fields.lean ====
section
/-! DEFINITION. The setting fields of every block, one definition per row of the setting tables of the
spec: block code, id (with its stride over the instances), width, range, default, apply point, side and
scope. Fields of instances (a port, a trace, a unit ...) are one definition with an instance count. -/
namespace Sys2Proof.Machine.Fld

/-- HKC.A_SLOTi and HKC.B_SLOTi: i for i up to 23, else 0 (R693). -/
def slotDefaults : List Int :=
  [0, 1, 2, 3, 4, 5, 6, 7, 8, 9, 10, 11, 12, 13, 14, 15, 16, 17, 18, 19, 20, 21, 22, 23, 0, 0, 0, 0, 0, 0, 0, 0]

/-! ### IMG settings (R87) -/
/-- IMG.START_PROFILE (R87). -/
def imgStartProfile : Field :=
  { block := 0x1A, id := 0x0001, stride := 0, count := 1, width := 4, lo := 0, hi := 15, dflt := 0,
    signed := false, apply := .imageRestart, side := .opened, pkg := true }
/-- IMG.PROFILE_PIN_START (R87). -/
def imgProfilePinStart : Field :=
  { block := 0x1A, id := 0x0002, stride := 0, count := 1, width := 1, lo := 0, hi := 1, dflt := 0,
    signed := false, apply := .imageRestart, side := .opened, pkg := true }
/-- IMG.PROFILE_PIN_SWITCH (R87). -/
def imgProfilePinSwitch : Field :=
  { block := 0x1A, id := 0x0003, stride := 0, count := 1, width := 1, lo := 0, hi := 1, dflt := 0,
    signed := false, apply := .imageRestart, side := .opened, pkg := true }
/-- IMG.PIN_PROFILES (R87). -/
def imgPinProfiles : Field :=
  { block := 0x1A, id := 0x0004, stride := 0, count := 1, width := 16, lo := 0, hi := 65535, dflt := 65535,
    signed := false, apply := .imageRestart, side := .opened, pkg := true }
/-- IMG.AUTO_ARM (R87). -/
def imgAutoArm : Field :=
  { block := 0x1A, id := 0x0005, stride := 0, count := 1, width := 1, lo := 0, hi := 1, dflt := 0,
    signed := false, apply := .imageRestart, side := .opened, pkg := true }
/-- IMG.WARN_FATAL (R87). -/
def imgWarnFatal : Field :=
  { block := 0x1A, id := 0x0006, stride := 0, count := 1, width := 1, lo := 0, hi := 1, dflt := 0,
    signed := false, apply := .imageRestart, side := .opened, pkg := true }
/-- IMG.LIVE_SEALED (R87): its largest length is not stated; the model takes 16 384 elements (DESIGN CHOICE, log entry 63). -/
def imgLiveSealed : Field :=
  { block := 0x1A, id := 0x8001, stride := 0, count := 1, width := 32, lo := 0, hi := 4294967295, dflt := 0,
    signed := false, apply := .imageRestart, side := .sealed, pkg := true, len := 16384, kind := .array }
/-- Every IMG field. -/
def imgFields : List Field :=
  [imgStartProfile, imgProfilePinStart, imgProfilePinSwitch, imgPinProfiles, imgAutoArm, imgWarnFatal,
   imgLiveSealed]
/-! ### CLK settings (R127) -/
/-- CLK.REF_PRIO (R127). -/
def clkRefPrio : Field :=
  { block := 0x01, id := 0x0001, stride := 0, count := 1, width := 16, lo := 0, hi := 65535, dflt := 801,
    signed := false, apply := .immediate, side := .opened, pkg := true, kind := .refPrio }
/-- CLK.REFA_FREQ (R127). -/
def clkRefaFreq : Field :=
  { block := 0x01, id := 0x0002, stride := 0, count := 1, width := 1, lo := 0, hi := 1, dflt := 0,
    signed := false, apply := .imageRestart, side := .opened, pkg := true }
/-- CLK.REFB_FREQ (R127). -/
def clkRefbFreq : Field :=
  { block := 0x01, id := 0x0003, stride := 0, count := 1, width := 1, lo := 0, hi := 1, dflt := 0,
    signed := false, apply := .imageRestart, side := .opened, pkg := true }
/-- CLK.QUAL_WINDOW (R127). -/
def clkQualWindow : Field :=
  { block := 0x01, id := 0x0004, stride := 0, count := 1, width := 16, lo := 1, hi := 600, dflt := 20,
    signed := false, apply := .immediate, side := .opened, pkg := true }
/-- CLK.QUAL_PPM (R127). -/
def clkQualPpm : Field :=
  { block := 0x01, id := 0x0005, stride := 0, count := 1, width := 8, lo := 1, hi := 200, dflt := 20,
    signed := false, apply := .immediate, side := .opened, pkg := true }
/-- CLK.REVERTIVE (R127). -/
def clkRevertive : Field :=
  { block := 0x01, id := 0x0006, stride := 0, count := 1, width := 1, lo := 0, hi := 1, dflt := 1,
    signed := false, apply := .immediate, side := .opened, pkg := true }
/-- CLK.DPLL_BW (R127). -/
def clkDpllBw : Field :=
  { block := 0x01, id := 0x0007, stride := 0, count := 1, width := 2, lo := 0, hi := 3, dflt := 2,
    signed := false, apply := .immediate, side := .opened, pkg := true }
/-- CLK.PULL_RATE (R127). -/
def clkPullRate : Field :=
  { block := 0x01, id := 0x0008, stride := 0, count := 1, width := 4, lo := 1, hi := 10, dflt := 10,
    signed := false, apply := .immediate, side := .opened, pkg := true }
/-- CLK.F_ADC (R127). -/
def clkFAdc : Field :=
  { block := 0x01, id := 0x0010, stride := 0, count := 1, width := 2, lo := 0, hi := 2, dflt := 0,
    signed := false, apply := .imageRestart, side := .opened, pkg := true }
/-- CLK.ADC0_DELAY (R127). -/
def clkAdc0Delay : Field :=
  { block := 0x01, id := 0x0020, stride := 0, count := 1, width := 11, lo := 0, hi := 2047, dflt := 0,
    signed := false, apply := .acqRestart, side := .opened, pkg := false }
/-- CLK.ADC1_DELAY (R127). -/
def clkAdc1Delay : Field :=
  { block := 0x01, id := 0x0021, stride := 0, count := 1, width := 11, lo := 0, hi := 2047, dflt := 0,
    signed := false, apply := .acqRestart, side := .opened, pkg := false }
/-- CLK.ADC_EN (R127). -/
def clkAdcEn : Field :=
  { block := 0x01, id := 0x0022, stride := 0, count := 1, width := 2, lo := 0, hi := 3, dflt := 3,
    signed := false, apply := .acqRestart, side := .opened, pkg := false }
/-- CLK.SYSREF_DIV (R127). -/
def clkSysrefDiv : Field :=
  { block := 0x01, id := 0x0030, stride := 0, count := 1, width := 14, lo := 1, hi := 16383, dflt := 64,
    signed := false, apply := .acqRestart, side := .opened, pkg := false }
/-- CLK.SYSREF_MODE (R127). -/
def clkSysrefMode : Field :=
  { block := 0x01, id := 0x0031, stride := 0, count := 1, width := 2, lo := 0, hi := 2, dflt := 0,
    signed := false, apply := .immediate, side := .opened, pkg := false }
/-- CLK.SYSREF_PULSES (R127). -/
def clkSysrefPulses : Field :=
  { block := 0x01, id := 0x0032, stride := 0, count := 1, width := 4, lo := 1, hi := 15, dflt := 4,
    signed := false, apply := .immediate, side := .opened, pkg := false }
/-- CLK.SYSREF_DELAY (R127). -/
def clkSysrefDelay : Field :=
  { block := 0x01, id := 0x0033, stride := 0, count := 1, width := 16, lo := 0, hi := 65535, dflt := 0,
    signed := false, apply := .acqRestart, side := .opened, pkg := false }
/-- CLK.REFOUT_DIV (R127). -/
def clkRefoutDiv : Field :=
  { block := 0x01, id := 0x0040, stride := 0, count := 1, width := 16, lo := 8, hi := 65535, dflt := 2048,
    signed := false, apply := .acqRestart, side := .opened, pkg := false }
/-- CLK.REFOUT_EN (R127). -/
def clkRefoutEn : Field :=
  { block := 0x01, id := 0x0041, stride := 0, count := 1, width := 1, lo := 0, hi := 1, dflt := 0,
    signed := false, apply := .immediate, side := .opened, pkg := false }
/-- CLK.REFOUT_DELAY (R127). -/
def clkRefoutDelay : Field :=
  { block := 0x01, id := 0x0042, stride := 0, count := 1, width := 16, lo := 0, hi := 65535, dflt := 0,
    signed := false, apply := .acqRestart, side := .opened, pkg := false }
/-- CLK.LANE_REF (R127). -/
def clkLaneRef : Field :=
  { block := 0x01, id := 0x0050, stride := 0, count := 1, width := 1, lo := 0, hi := 1, dflt := 0,
    signed := false, apply := .imageRestart, side := .opened, pkg := false }
/-- Every CLK field. -/
def clkFields : List Field :=
  [clkRefPrio, clkRefaFreq, clkRefbFreq, clkQualWindow, clkQualPpm, clkRevertive,
   clkDpllBw, clkPullRate, clkFAdc, clkAdc0Delay, clkAdc1Delay, clkAdcEn,
   clkSysrefDiv, clkSysrefMode, clkSysrefPulses, clkSysrefDelay, clkRefoutDiv, clkRefoutEn,
   clkRefoutDelay, clkLaneRef]
/-! ### TBS settings (R166) -/
/-- TBS.EPOCH_LEN (R166). -/
def tbsEpochLen : Field :=
  { block := 0x02, id := 0x0001, stride := 0, count := 1, width := 30, lo := 100, hi := 1000000000, dflt := 100000,
    signed := false, apply := .epoch, side := .opened, pkg := true }
/-- TBS.SYNC_WINDOW (R166). -/
def tbsSyncWindow : Field :=
  { block := 0x02, id := 0x0002, stride := 0, count := 1, width := 8, lo := 0, hi := 128, dflt := 32,
    signed := false, apply := .epoch, side := .opened, pkg := true }
/-- TBS.SYNC_EDGE (R166). -/
def tbsSyncEdge : Field :=
  { block := 0x02, id := 0x0003, stride := 0, count := 1, width := 1, lo := 0, hi := 1, dflt := 0,
    signed := false, apply := .immediate, side := .opened, pkg := true }
/-- TBS.SYNC_PACKAGE (R166). -/
def tbsSyncPackage : Field :=
  { block := 0x02, id := 0x0004, stride := 0, count := 1, width := 2, lo := 0, hi := 3, dflt := 0,
    signed := false, apply := .imageRestart, side := .opened, pkg := true }
/-- TBS.DISCIPLINE (R166). -/
def tbsDiscipline : Field :=
  { block := 0x02, id := 0x0010, stride := 0, count := 1, width := 2, lo := 0, hi := 3, dflt := 0,
    signed := false, apply := .imageRestart, side := .opened, pkg := true }
/-- TBS.PPS_EDGE (R166). -/
def tbsPpsEdge : Field :=
  { block := 0x02, id := 0x0011, stride := 0, count := 1, width := 1, lo := 0, hi := 1, dflt := 0,
    signed := false, apply := .immediate, side := .opened, pkg := true }
/-- TBS.PPS_DELAY (R166). -/
def tbsPpsDelay : Field :=
  { block := 0x02, id := 0x0012, stride := 0, count := 1, width := 32, lo := (-2147483647), hi := 2147483647, dflt := 0,
    signed := true, apply := .immediate, side := .opened, pkg := true }
/-- TBS.SLEW_MAX (R166). -/
def tbsSlewMax : Field :=
  { block := 0x02, id := 0x0013, stride := 0, count := 1, width := 8, lo := 1, hi := 200, dflt := 100,
    signed := false, apply := .immediate, side := .opened, pkg := true }
/-- TBS.STEP_THRESHOLD (R166). -/
def tbsStepThreshold : Field :=
  { block := 0x02, id := 0x0014, stride := 0, count := 1, width := 16, lo := 1, hi := 65535, dflt := 1000,
    signed := false, apply := .immediate, side := .opened, pkg := true }
/-- TBS.STEP_ALLOW (R166). -/
def tbsStepAllow : Field :=
  { block := 0x02, id := 0x0015, stride := 0, count := 1, width := 2, lo := 0, hi := 2, dflt := 1,
    signed := false, apply := .immediate, side := .opened, pkg := true }
/-- TBS.SERVO_BW (R166). -/
def tbsServoBw : Field :=
  { block := 0x02, id := 0x0016, stride := 0, count := 1, width := 2, lo := 0, hi := 2, dflt := 1,
    signed := false, apply := .immediate, side := .opened, pkg := true }
/-- TBS.UP_ASYM (R166). -/
def tbsUpAsym : Field :=
  { block := 0x02, id := 0x0020, stride := 0, count := 1, width := 16, lo := (-32767), hi := 32767, dflt := 0,
    signed := true, apply := .epoch, side := .opened, pkg := true }
/-- TBS.DOWN_ASYM (R166). -/
def tbsDownAsym : Field :=
  { block := 0x02, id := 0x0021, stride := 0, count := 1, width := 16, lo := (-32767), hi := 32767, dflt := 0,
    signed := true, apply := .epoch, side := .opened, pkg := true }
/-- TBS.XS_LATENCY (R166). -/
def tbsXsLatency : Field :=
  { block := 0x02, id := 0x0030, stride := 1, count := 2, width := 32, lo := 0, hi := 2147483647, dflt := 0,
    signed := false, apply := .acqRestart, side := .opened, pkg := false }
/-- TBS.RESET_SHOAL (R166). -/
def tbsResetShoal : Field :=
  { block := 0x02, id := 0x0040, stride := 0, count := 1, width := 1, lo := 0, hi := 1, dflt := 0,
    signed := false, apply := .imageRestart, side := .opened, pkg := true }
/-- Every TBS field. -/
def tbsFields : List Field :=
  [tbsEpochLen, tbsSyncWindow, tbsSyncEdge, tbsSyncPackage, tbsDiscipline, tbsPpsEdge,
   tbsPpsDelay, tbsSlewMax, tbsStepThreshold, tbsStepAllow, tbsServoBw, tbsUpAsym,
   tbsDownAsym, tbsXsLatency, tbsResetShoal]
/-! ### AFE settings (R204) -/
/-- AFE.ATTEN (R204). -/
def afeAtten : Field :=
  { block := 0x03, id := 0x0001, stride := 1, count := 2, width := 5, lo := 0, hi := 30, dflt := 30,
    signed := false, apply := .immediate, side := .sealed, pkg := false }
/-- AFE.TRIM (R204). -/
def afeTrim : Field :=
  { block := 0x03, id := 0x0003, stride := 1, count := 2, width := 7, lo := 0, hi := 64, dflt := 0,
    signed := false, apply := .immediate, side := .sealed, pkg := false }
/-- AFE.OVL_THRESH (R204). -/
def afeOvlThresh : Field :=
  { block := 0x03, id := 0x0010, stride := 0, count := 1, width := 4, lo := 0, hi := 15, dflt := 2,
    signed := false, apply := .immediate, side := .sealed, pkg := false }
/-- AFE.OVL_HOLD (R204). -/
def afeOvlHold : Field :=
  { block := 0x03, id := 0x0011, stride := 0, count := 1, width := 16, lo := 1, hi := 65535, dflt := 10,
    signed := false, apply := .immediate, side := .sealed, pkg := false }
/-- AFE.AUTO_MODE (R204). -/
def afeAutoMode : Field :=
  { block := 0x03, id := 0x0020, stride := 0, count := 1, width := 2, lo := 0, hi := 2, dflt := 0,
    signed := false, apply := .imageRestart, side := .sealed, pkg := false }
/-- AFE.AUTO_STEP (R204). -/
def afeAutoStep : Field :=
  { block := 0x03, id := 0x0021, stride := 0, count := 1, width := 3, lo := 1, hi := 6, dflt := 3,
    signed := false, apply := .imageRestart, side := .sealed, pkg := false }
/-- AFE.AUTO_MAX (R204). -/
def afeAutoMax : Field :=
  { block := 0x03, id := 0x0022, stride := 0, count := 1, width := 5, lo := 0, hi := 30, dflt := 30,
    signed := false, apply := .imageRestart, side := .sealed, pkg := false }
/-- AFE.AUTO_DOWN_HOLD (R204). -/
def afeAutoDownHold : Field :=
  { block := 0x03, id := 0x0023, stride := 0, count := 1, width := 16, lo := 1, hi := 60000, dflt := 1000,
    signed := false, apply := .imageRestart, side := .sealed, pkg := false }
/-- AFE.COMB_TOL (R204). -/
def afeCombTol : Field :=
  { block := 0x03, id := 0x0030, stride := 0, count := 1, width := 8, lo := 1, hi := 100, dflt := 10,
    signed := false, apply := .imageRestart, side := .sealed, pkg := false }
/-- Every AFE field. -/
def afeFields : List Field :=
  [afeAtten, afeTrim, afeOvlThresh, afeOvlHold, afeAutoMode, afeAutoStep,
   afeAutoMax, afeAutoDownHold, afeCombTol]
/-! ### ADC settings (R205) -/
/-- ADC.BGCAL_EN (R205). -/
def adcBgcalEn : Field :=
  { block := 0x04, id := 0x0001, stride := 0, count := 1, width := 1, lo := 0, hi := 1, dflt := 1,
    signed := false, apply := .immediate, side := .sealed, pkg := false }
/-- ADC.SWAP_TOL_OFS (R205). -/
def adcSwapTolOfs : Field :=
  { block := 0x04, id := 0x0002, stride := 0, count := 1, width := 8, lo := 1, hi := 255, dflt := 16,
    signed := false, apply := .imageRestart, side := .sealed, pkg := false }
/-- ADC.SWAP_TOL_RMS (R205). -/
def adcSwapTolRms : Field :=
  { block := 0x04, id := 0x0003, stride := 0, count := 1, width := 8, lo := 1, hi := 255, dflt := 96,
    signed := false, apply := .imageRestart, side := .sealed, pkg := false }
/-- ADC.WATCH_INPUT (R205). -/
def adcWatchInput : Field :=
  { block := 0x04, id := 0x0010, stride := 0, count := 1, width := 1, lo := 0, hi := 1, dflt := 0,
    signed := false, apply := .immediate, side := .sealed, pkg := false }
/-- ADC.WATCH_ZONE (R205). -/
def adcWatchZone : Field :=
  { block := 0x04, id := 0x0011, stride := 0, count := 1, width := 4, lo := 0, hi := 15, dflt := 0,
    signed := false, apply := .immediate, side := .sealed, pkg := false }
/-- Every ADC field. -/
def adcFields : List Field :=
  [adcBgcalEn, adcSwapTolOfs, adcSwapTolRms, adcWatchInput, adcWatchZone]
/-! ### DDC settings (R234) -/
/-- DDC.CH_SRC (R234). -/
def ddcChSrc : Field :=
  { block := 0x05, id := 0x0001, stride := 1, count := 2, width := 2, lo := 0, hi := 2, dflt := 0,
    signed := false, apply := .hop, side := .sealed, pkg := false }
/-- DDC.DECIM_LOG2 (R234). -/
def ddcDecimLog2 : Field :=
  { block := 0x05, id := 0x0101, stride := 256, count := 4, width := 5, lo := 0, hi := 16, dflt := 0,
    signed := false, apply := .acqRestart, side := .sealed, pkg := false }
/-- DDC.PRESET (R234). -/
def ddcPreset : Field :=
  { block := 0x05, id := 0x0102, stride := 256, count := 4, width := 2, lo := 0, hi := 3, dflt := 2,
    signed := false, apply := .hop, side := .sealed, pkg := false }
/-- DDC.FTW_LO (R234). -/
def ddcFtwLo : Field :=
  { block := 0x05, id := 0x0103, stride := 256, count := 4, width := 32, lo := 0, hi := 4294967295, dflt := 0,
    signed := false, apply := .hop, side := .sealed, pkg := false }
/-- DDC.FTW_HI (R234). -/
def ddcFtwHi : Field :=
  { block := 0x05, id := 0x0104, stride := 256, count := 4, width := 16, lo := 0, hi := 65535, dflt := 12800,
    signed := false, apply := .hop, side := .sealed, pkg := false, dflts := [0x3200, 0x3200, 0, 0] }
/-- DDC.NCO_MODE (R234). -/
def ddcNcoMode : Field :=
  { block := 0x05, id := 0x0105, stride := 256, count := 4, width := 1, lo := 0, hi := 1, dflt := 0,
    signed := false, apply := .imageRestart, side := .sealed, pkg := false }
/-- DDC.NCO_PHASE (R234). -/
def ddcNcoPhase : Field :=
  { block := 0x05, id := 0x0106, stride := 256, count := 4, width := 16, lo := 0, hi := 65535, dflt := 0,
    signed := false, apply := .hop, side := .sealed, pkg := false }
/-- Every DDC field. -/
def ddcFields : List Field :=
  [ddcChSrc, ddcDecimLog2, ddcPreset, ddcFtwLo, ddcFtwHi, ddcNcoMode,
   ddcNcoPhase]
/-! ### XFM settings (R284–R286) -/
/-- XFM.CH_EN (R284–R286). -/
def xfmChEn : Field :=
  { block := 0x06, id := 0x0001, stride := 16, count := 2, width := 1, lo := 0, hi := 1, dflt := 1,
    signed := false, apply := .acqRestart, side := .sealed, pkg := false }
/-- XFM.CH_N_LOG2 (R284–R286). -/
def xfmChNLog2 : Field :=
  { block := 0x06, id := 0x0002, stride := 16, count := 2, width := 5, lo := 6, hi := 20, dflt := 10,
    signed := false, apply := .acqRestart, side := .sealed, pkg := false }
/-- XFM.CH_OVERLAP_LOG2 (R284–R286). -/
def xfmChOverlapLog2 : Field :=
  { block := 0x06, id := 0x0003, stride := 16, count := 2, width := 3, lo := 0, hi := 5, dflt := 2,
    signed := false, apply := .acqRestart, side := .sealed, pkg := false }
/-- XFM.CH_WINDOW (R284–R286). -/
def xfmChWindow : Field :=
  { block := 0x06, id := 0x0004, stride := 16, count := 2, width := 3, lo := 0, hi := 6, dflt := 2,
    signed := false, apply := .hop, side := .sealed, pkg := false }
/-- XFM.CH_WIN_PARAM (R284–R286). -/
def xfmChWinParam : Field :=
  { block := 0x06, id := 0x0005, stride := 16, count := 2, width := 16, lo := 0, hi := 65535, dflt := 1638,
    signed := false, apply := .hop, side := .sealed, pkg := false }
/-- XFM.CH_BIN_FIRST (R284–R286). -/
def xfmChBinFirst : Field :=
  { block := 0x06, id := 0x0006, stride := 16, count := 2, width := 21, lo := (-524288), hi := 524287, dflt := (-400),
    signed := true, apply := .epoch, side := .sealed, pkg := false }
/-- XFM.CH_BIN_COUNT (R284–R286). -/
def xfmChBinCount : Field :=
  { block := 0x06, id := 0x0007, stride := 16, count := 2, width := 21, lo := 0, hi := 1048576, dflt := 0,
    signed := false, apply := .epoch, side := .sealed, pkg := false }
/-- XFM.CH_SPEC_MODE (R284–R286). -/
def xfmChSpecMode : Field :=
  { block := 0x06, id := 0x0008, stride := 16, count := 2, width := 2, lo := 0, hi := 2, dflt := 0,
    signed := false, apply := .epoch, side := .sealed, pkg := false }
/-- XFM.CH_SPEC_DECIM (R284–R286). -/
def xfmChSpecDecim : Field :=
  { block := 0x06, id := 0x0009, stride := 16, count := 2, width := 25, lo := 1, hi := 16777216, dflt := 1,
    signed := false, apply := .epoch, side := .sealed, pkg := false }
/-- XFM.CH_SPEC_QUEUE (R284–R286). -/
def xfmChSpecQueue : Field :=
  { block := 0x06, id := 0x000A, stride := 16, count := 2, width := 7, lo := 0, hi := 127, dflt := 0,
    signed := false, apply := .imageRestart, side := .sealed, pkg := false, kind := .queue }
/-- XFM.T_EN (R284–R286). -/
def xfmTEn : Field :=
  { block := 0x06, id := 0x0100, stride := 16, count := 16, width := 1, lo := 0, hi := 1, dflt := 0,
    signed := false, apply := .epoch, side := .sealed, pkg := false }
/-- XFM.T_DETECTOR (R284–R286). -/
def xfmTDetector : Field :=
  { block := 0x06, id := 0x0101, stride := 16, count := 16, width := 3, lo := 0, hi := 5, dflt := 0,
    signed := false, apply := .epoch, side := .sealed, pkg := false }
/-- XFM.T_POINTS (R284–R286). -/
def xfmTPoints : Field :=
  { block := 0x06, id := 0x0102, stride := 16, count := 16, width := 17, lo := 1, hi := 65536, dflt := 1024,
    signed := false, apply := .epoch, side := .sealed, pkg := false }
/-- XFM.T_BIN_FIRST (R284–R286). -/
def xfmTBinFirst : Field :=
  { block := 0x06, id := 0x0103, stride := 16, count := 16, width := 21, lo := (-524288), hi := 524287, dflt := (-400),
    signed := true, apply := .epoch, side := .sealed, pkg := false }
/-- XFM.T_BIN_COUNT (R284–R286). -/
def xfmTBinCount : Field :=
  { block := 0x06, id := 0x0104, stride := 16, count := 16, width := 21, lo := 0, hi := 1048576, dflt := 0,
    signed := false, apply := .epoch, side := .sealed, pkg := false }
/-- XFM.T_INTERVAL (R284–R286). -/
def xfmTInterval : Field :=
  { block := 0x06, id := 0x0105, stride := 16, count := 16, width := 30, lo := 0, hi := 1000000000, dflt := 0,
    signed := false, apply := .epoch, side := .sealed, pkg := false, kind := .traceInterval }
/-- XFM.T_USE_MARKED (R284–R286). -/
def xfmTUseMarked : Field :=
  { block := 0x06, id := 0x0106, stride := 16, count := 16, width := 2, lo := 0, hi := 3, dflt := 0,
    signed := false, apply := .epoch, side := .sealed, pkg := false }
/-- XFM.T_SEAL (R284–R286). -/
def xfmTSeal : Field :=
  { block := 0x06, id := 0x0107, stride := 16, count := 16, width := 1, lo := 0, hi := 1, dflt := 0,
    signed := false, apply := .imageRestart, side := .sealed, pkg := false }
/-- XFM.T_QUEUE (R284–R286). -/
def xfmTQueue : Field :=
  { block := 0x06, id := 0x0108, stride := 16, count := 16, width := 7, lo := 0, hi := 127, dflt := 0,
    signed := false, apply := .imageRestart, side := .sealed, pkg := false, kind := .queue }
/-- XFM.TAP_EN (R284–R286). -/
def xfmTapEn : Field :=
  { block := 0x06, id := 0x0200, stride := 16, count := 8, width := 1, lo := 0, hi := 1, dflt := 0,
    signed := false, apply := .epoch, side := .sealed, pkg := false }
/-- XFM.TAP_INPUT (R284–R286). -/
def xfmTapInput : Field :=
  { block := 0x06, id := 0x0201, stride := 16, count := 8, width := 1, lo := 0, hi := 1, dflt := 0,
    signed := false, apply := .epoch, side := .sealed, pkg := false }
/-- XFM.TAP_DECIM (R284–R286). -/
def xfmTapDecim : Field :=
  { block := 0x06, id := 0x0202, stride := 16, count := 8, width := 25, lo := 1, hi := 16777216, dflt := 1,
    signed := false, apply := .epoch, side := .sealed, pkg := false }
/-- XFM.TAP_BIN_FIRST (R284–R286). -/
def xfmTapBinFirst : Field :=
  { block := 0x06, id := 0x0203, stride := 16, count := 8, width := 21, lo := (-524288), hi := 524287, dflt := (-400),
    signed := true, apply := .epoch, side := .sealed, pkg := false }
/-- XFM.TAP_BIN_COUNT (R284–R286). -/
def xfmTapBinCount : Field :=
  { block := 0x06, id := 0x0204, stride := 16, count := 8, width := 16, lo := 0, hi := 32768, dflt := 0,
    signed := false, apply := .imageRestart, side := .sealed, pkg := false }
/-- XFM.TAP_FORMAT (R284–R286). -/
def xfmTapFormat : Field :=
  { block := 0x06, id := 0x0205, stride := 16, count := 8, width := 1, lo := 0, hi := 1, dflt := 0,
    signed := false, apply := .imageRestart, side := .sealed, pkg := false }
/-- XFM.TAP_BASE (R284–R286). -/
def xfmTapBase : Field :=
  { block := 0x06, id := 0x0206, stride := 16, count := 8, width := 17, lo := 0, hi := 131040, dflt := 0,
    signed := false, apply := .imageRestart, side := .sealed, pkg := false, step := 32 }
/-- XFM.TAP_SLOTS (R284–R286). -/
def xfmTapSlots : Field :=
  { block := 0x06, id := 0x0207, stride := 16, count := 8, width := 11, lo := 1, hi := 1024, dflt := 2,
    signed := false, apply := .imageRestart, side := .sealed, pkg := false }
/-- XFM.CUSTOM_LEN_LOG2 (R284–R286). -/
def xfmCustomLenLog2 : Field :=
  { block := 0x06, id := 0x0300, stride := 0, count := 1, width := 5, lo := 6, hi := 16, dflt := 10,
    signed := false, apply := .imageRestart, side := .sealed, pkg := false }
/-- XFM.CUSTOM_WIN (R284–R286). -/
def xfmCustomWin : Field :=
  { block := 0x06, id := 0x8001, stride := 0, count := 1, width := 16, lo := 0, hi := 65535, dflt := 0,
    signed := false, apply := .imageRestart, side := .sealed, pkg := false, len := 65536, kind := .array }
/-- Every XFM field. -/
def xfmFields : List Field :=
  [xfmChEn, xfmChNLog2, xfmChOverlapLog2, xfmChWindow, xfmChWinParam, xfmChBinFirst,
   xfmChBinCount, xfmChSpecMode, xfmChSpecDecim, xfmChSpecQueue, xfmTEn, xfmTDetector,
   xfmTPoints, xfmTBinFirst, xfmTBinCount, xfmTInterval, xfmTUseMarked, xfmTSeal,
   xfmTQueue, xfmTapEn, xfmTapInput, xfmTapDecim, xfmTapBinFirst, xfmTapBinCount,
   xfmTapFormat, xfmTapBase, xfmTapSlots, xfmCustomLenLog2, xfmCustomWin]
/-! ### TRG settings (R331, R332) -/
/-- TRG.U_EN (R331, R332). -/
def trgUEn : Field :=
  { block := 0x07, id := 0x0100, stride := 32, count := 8, width := 1, lo := 0, hi := 1, dflt := 0,
    signed := false, apply := .epoch, side := .opened, pkg := false }
/-- TRG.U_SOURCE (R331, R332). -/
def trgUSource : Field :=
  { block := 0x07, id := 0x0101, stride := 32, count := 8, width := 3, lo := 0, hi := 6, dflt := 0,
    signed := false, apply := .epoch, side := .opened, pkg := false }
/-- TRG.U_PORT (R331, R332). -/
def trgUPort : Field :=
  { block := 0x07, id := 0x0102, stride := 32, count := 8, width := 2, lo := 0, hi := 3, dflt := 0,
    signed := false, apply := .epoch, side := .opened, pkg := false }
/-- TRG.U_CHANNEL (R331, R332). -/
def trgUChannel : Field :=
  { block := 0x07, id := 0x0103, stride := 32, count := 8, width := 1, lo := 0, hi := 1, dflt := 0,
    signed := false, apply := .epoch, side := .opened, pkg := false }
/-- TRG.U_LEVEL (R331, R332). -/
def trgULevel : Field :=
  { block := 0x07, id := 0x0104, stride := 32, count := 8, width := 16, lo := (-32767), hi := 0, dflt := (-3840),
    signed := true, apply := .immediate, side := .opened, pkg := false }
/-- TRG.U_HYST (R331, R332). -/
def trgUHyst : Field :=
  { block := 0x07, id := 0x0105, stride := 32, count := 8, width := 13, lo := 0, hi := 7680, dflt := 384,
    signed := false, apply := .immediate, side := .opened, pkg := false }
/-- TRG.U_SLOPE (R331, R332). -/
def trgUSlope : Field :=
  { block := 0x07, id := 0x0106, stride := 32, count := 8, width := 1, lo := 0, hi := 1, dflt := 0,
    signed := false, apply := .epoch, side := .opened, pkg := false }
/-- TRG.U_BIN_FIRST (R331, R332). -/
def trgUBinFirst : Field :=
  { block := 0x07, id := 0x0107, stride := 32, count := 8, width := 21, lo := (-524288), hi := 524287, dflt := (-400),
    signed := true, apply := .epoch, side := .opened, pkg := false }
/-- TRG.U_BIN_COUNT (R331, R332). -/
def trgUBinCount : Field :=
  { block := 0x07, id := 0x0108, stride := 32, count := 8, width := 21, lo := 1, hi := 1048576, dflt := 801,
    signed := false, apply := .epoch, side := .opened, pkg := false }
/-- TRG.U_MASK (R331, R332). -/
def trgUMask : Field :=
  { block := 0x07, id := 0x0109, stride := 32, count := 8, width := 3, lo := 0, hi := 7, dflt := 0,
    signed := false, apply := .epoch, side := .opened, pkg := false }
/-- TRG.U_MASK_MODE (R331, R332). -/
def trgUMaskMode : Field :=
  { block := 0x07, id := 0x010A, stride := 32, count := 8, width := 2, lo := 0, hi := 2, dflt := 2,
    signed := false, apply := .epoch, side := .opened, pkg := false }
/-- TRG.U_CORE (R331, R332). -/
def trgUCore : Field :=
  { block := 0x07, id := 0x010B, stride := 32, count := 8, width := 3, lo := 0, hi := 7, dflt := 0,
    signed := false, apply := .epoch, side := .opened, pkg := false }
/-- TRG.U_CORE_EVENT (R331, R332). -/
def trgUCoreEvent : Field :=
  { block := 0x07, id := 0x010C, stride := 32, count := 8, width := 2, lo := 0, hi := 3, dflt := 0,
    signed := false, apply := .epoch, side := .opened, pkg := false }
/-- TRG.U_QUAL (R331, R332). -/
def trgUQual : Field :=
  { block := 0x07, id := 0x010D, stride := 32, count := 8, width := 2, lo := 0, hi := 3, dflt := 0,
    signed := false, apply := .epoch, side := .opened, pkg := false }
/-- TRG.U_D_MIN (R331, R332). -/
def trgUDMin : Field :=
  { block := 0x07, id := 0x010E, stride := 32, count := 8, width := 32, lo := 1, hi := 4000000000, dflt := 1000,
    signed := false, apply := .epoch, side := .opened, pkg := false }
/-- TRG.U_D_MAX (R331, R332). -/
def trgUDMax : Field :=
  { block := 0x07, id := 0x010F, stride := 32, count := 8, width := 32, lo := 1, hi := 4000000000, dflt := 1000,
    signed := false, apply := .epoch, side := .opened, pkg := false }
/-- TRG.U_GROUP (R331, R332). -/
def trgUGroup : Field :=
  { block := 0x07, id := 0x0110, stride := 32, count := 8, width := 4, lo := 0, hi := 15, dflt := 0,
    signed := false, apply := .epoch, side := .opened, pkg := false }
/-- TRG.U_PRE (R331, R332). -/
def trgUPre : Field :=
  { block := 0x07, id := 0x0111, stride := 32, count := 8, width := 24, lo := 0, hi := 16777215, dflt := 1024,
    signed := false, apply := .imageRestart, side := .opened, pkg := false }
/-- TRG.U_POST (R331, R332). -/
def trgUPost : Field :=
  { block := 0x07, id := 0x0112, stride := 32, count := 8, width := 24, lo := 1, hi := 16777215, dflt := 3072,
    signed := false, apply := .imageRestart, side := .opened, pkg := false }
/-- TRG.U_FORMAT (R331, R332). -/
def trgUFormat : Field :=
  { block := 0x07, id := 0x0113, stride := 32, count := 8, width := 1, lo := 0, hi := 1, dflt := 1,
    signed := false, apply := .imageRestart, side := .opened, pkg := false }
/-- TRG.U_SLOTS (R331, R332). -/
def trgUSlots : Field :=
  { block := 0x07, id := 0x0114, stride := 32, count := 8, width := 7, lo := 1, hi := 64, dflt := 2,
    signed := false, apply := .imageRestart, side := .opened, pkg := false }
/-- TRG.U_REC_SAMPLES (R331, R332). -/
def trgURecSamples : Field :=
  { block := 0x07, id := 0x0115, stride := 32, count := 8, width := 16, lo := 256, hi := 65280, dflt := 4096,
    signed := false, apply := .imageRestart, side := .opened, pkg := false, step := 256 }
/-- TRG.U_QUEUE (R331, R332). -/
def trgUQueue : Field :=
  { block := 0x07, id := 0x0116, stride := 32, count := 8, width := 7, lo := 0, hi := 127, dflt := 0,
    signed := false, apply := .imageRestart, side := .opened, pkg := false, kind := .queue }
/-- TRG.U_HOLDOFF (R331, R332). -/
def trgUHoldoff : Field :=
  { block := 0x07, id := 0x0117, stride := 32, count := 8, width := 32, lo := 0, hi := 4000000000, dflt := 0,
    signed := false, apply := .immediate, side := .opened, pkg := false }
/-- TRG.U_COUNT (R331, R332). -/
def trgUCount : Field :=
  { block := 0x07, id := 0x0118, stride := 32, count := 8, width := 16, lo := 0, hi := 65535, dflt := 1,
    signed := false, apply := .epoch, side := .opened, pkg := false }
/-- TRG.U_AUTO_REARM (R331, R332). -/
def trgUAutoRearm : Field :=
  { block := 0x07, id := 0x0119, stride := 32, count := 8, width := 1, lo := 0, hi := 1, dflt := 0,
    signed := false, apply := .epoch, side := .opened, pkg := false }
/-- TRG.U_MARK_ONLY (R331, R332). -/
def trgUMarkOnly : Field :=
  { block := 0x07, id := 0x011A, stride := 32, count := 8, width := 1, lo := 0, hi := 1, dflt := 0,
    signed := false, apply := .imageRestart, side := .opened, pkg := false }
/-- TRG.U_SPEC_PRE (R331, R332). -/
def trgUSpecPre : Field :=
  { block := 0x07, id := 0x011B, stride := 32, count := 8, width := 6, lo := 0, hi := 32, dflt := 0,
    signed := false, apply := .epoch, side := .opened, pkg := false }
/-- TRG.U_SPEC_POST (R331, R332). -/
def trgUSpecPost : Field :=
  { block := 0x07, id := 0x011C, stride := 32, count := 8, width := 16, lo := 0, hi := 65535, dflt := 0,
    signed := false, apply := .epoch, side := .opened, pkg := false }
/-- TRG.U_AUTO_ARM (R331, R332). -/
def trgUAutoArm : Field :=
  { block := 0x07, id := 0x011D, stride := 32, count := 8, width := 1, lo := 0, hi := 1, dflt := 0,
    signed := false, apply := .imageRestart, side := .opened, pkg := false }
/-- TRG.TRIGIN_EDGE (R331, R332). -/
def trgTriginEdge : Field :=
  { block := 0x07, id := 0x0001, stride := 1, count := 2, width := 1, lo := 0, hi := 1, dflt := 0,
    signed := false, apply := .immediate, side := .opened, pkg := true }
/-- TRG.OUT_MODE (R331, R332). -/
def trgOutMode : Field :=
  { block := 0x07, id := 0x0010, stride := 8, count := 2, width := 2, lo := 0, hi := 2, dflt := 0,
    signed := false, apply := .immediate, side := .opened, pkg := true }
/-- TRG.OUT_GROUP (R331, R332). -/
def trgOutGroup : Field :=
  { block := 0x07, id := 0x0011, stride := 8, count := 2, width := 4, lo := 0, hi := 15, dflt := 0,
    signed := false, apply := .immediate, side := .opened, pkg := true }
/-- TRG.OUT_UNIT (R331, R332). -/
def trgOutUnit : Field :=
  { block := 0x07, id := 0x0012, stride := 8, count := 2, width := 6, lo := 0, hi := 63, dflt := 0,
    signed := false, apply := .immediate, side := .opened, pkg := true, kind := .unit }
/-- TRG.OUT_DELAY (R331, R332). -/
def trgOutDelay : Field :=
  { block := 0x07, id := 0x0013, stride := 8, count := 2, width := 24, lo := 0, hi := 10000000, dflt := 1000,
    signed := false, apply := .immediate, side := .opened, pkg := true }
/-- TRG.OUT_WIDTH (R331, R332). -/
def trgOutWidth : Field :=
  { block := 0x07, id := 0x0014, stride := 8, count := 2, width := 16, lo := 10, hi := 65535, dflt := 100,
    signed := false, apply := .immediate, side := .opened, pkg := true }
/-- TRG.GRP_WINDOW (R331, R332). -/
def trgGrpWindow : Field :=
  { block := 0x07, id := 0x0021, stride := 1, count := 15, width := 32, lo := 0, hi := 4000000000, dflt := 1000,
    signed := false, apply := .immediate, side := .opened, pkg := true }
/-- TRG.MASK_BASE (R331, R332). -/
def trgMaskBase : Field :=
  { block := 0x07, id := 0x0040, stride := 1, count := 8, width := 17, lo := 0, hi := 131071, dflt := 0,
    signed := false, apply := .imageRestart, side := .opened, pkg := false }
/-- TRG.MASK_POINTS (R331, R332). -/
def trgMaskPoints : Field :=
  { block := 0x07, id := 0x0048, stride := 1, count := 8, width := 17, lo := 0, hi := 65536, dflt := 0,
    signed := false, apply := .imageRestart, side := .opened, pkg := false }
/-- Every TRG field. -/
def trgFields : List Field :=
  [trgUEn, trgUSource, trgUPort, trgUChannel, trgULevel, trgUHyst,
   trgUSlope, trgUBinFirst, trgUBinCount, trgUMask, trgUMaskMode, trgUCore,
   trgUCoreEvent, trgUQual, trgUDMin, trgUDMax, trgUGroup, trgUPre,
   trgUPost, trgUFormat, trgUSlots, trgURecSamples, trgUQueue, trgUHoldoff,
   trgUCount, trgUAutoRearm, trgUMarkOnly, trgUSpecPre, trgUSpecPost, trgUAutoArm,
   trgTriginEdge, trgOutMode, trgOutGroup, trgOutUnit, trgOutDelay, trgOutWidth,
   trgGrpWindow, trgMaskBase, trgMaskPoints]
/-! ### DEN settings (R358) -/
/-- DEN.CH_EN (R358). -/
def denChEn : Field :=
  { block := 0x08, id := 0x0001, stride := 16, count := 2, width := 1, lo := 0, hi := 1, dflt := 0,
    signed := false, apply := .epoch, side := .opened, pkg := false }
/-- DEN.CH_FLOOR (R358). -/
def denChFloor : Field :=
  { block := 0x08, id := 0x0002, stride := 16, count := 2, width := 16, lo := (-32767), hi := 32767, dflt := (-16384),
    signed := true, apply := .epoch, side := .opened, pkg := false }
/-- DEN.CH_ROW_STEP (R358). -/
def denChRowStep : Field :=
  { block := 0x08, id := 0x0003, stride := 16, count := 2, width := 9, lo := 8, hi := 256, dflt := 32,
    signed := false, apply := .epoch, side := .opened, pkg := false }
/-- DEN.CH_CLAMP (R358). -/
def denChClamp : Field :=
  { block := 0x08, id := 0x0004, stride := 16, count := 2, width := 1, lo := 0, hi := 1, dflt := 0,
    signed := false, apply := .epoch, side := .opened, pkg := false }
/-- DEN.CH_COL_MODE (R358). -/
def denChColMode : Field :=
  { block := 0x08, id := 0x0005, stride := 16, count := 2, width := 1, lo := 0, hi := 1, dflt := 0,
    signed := false, apply := .epoch, side := .opened, pkg := false }
/-- DEN.CH_DECAY (R358). -/
def denChDecay : Field :=
  { block := 0x08, id := 0x0006, stride := 16, count := 2, width := 6, lo := 0, hi := 32, dflt := 32,
    signed := false, apply := .epoch, side := .opened, pkg := false }
/-- DEN.CH_USE_MARKED (R358). -/
def denChUseMarked : Field :=
  { block := 0x08, id := 0x0007, stride := 16, count := 2, width := 2, lo := 0, hi := 3, dflt := 0,
    signed := false, apply := .epoch, side := .opened, pkg := false }
/-- DEN.CH_EMIT (R358). -/
def denChEmit : Field :=
  { block := 0x08, id := 0x0008, stride := 16, count := 2, width := 1, lo := 0, hi := 1, dflt := 1,
    signed := false, apply := .epoch, side := .opened, pkg := false }
/-- DEN.CH_QUEUE (R358). -/
def denChQueue : Field :=
  { block := 0x08, id := 0x0009, stride := 16, count := 2, width := 7, lo := 0, hi := 127, dflt := 0,
    signed := false, apply := .imageRestart, side := .opened, pkg := false, kind := .queue }
/-- Every DEN field. -/
def denFields : List Field :=
  [denChEn, denChFloor, denChRowStep, denChClamp, denChColMode, denChDecay,
   denChUseMarked, denChEmit, denChQueue]
/-! ### SCN settings (R392) -/
/-- SCN.EN (R392). -/
def scnEn : Field :=
  { block := 0x09, id := 0x0001, stride := 0, count := 1, width := 1, lo := 0, hi := 1, dflt := 0,
    signed := false, apply := .imageRestart, side := .opened, pkg := false }
/-- SCN.LINK_RATE (R392). -/
def scnLinkRate : Field :=
  { block := 0x09, id := 0x0002, stride := 0, count := 1, width := 3, lo := 0, hi := 5, dflt := 1,
    signed := false, apply := .imageRestart, side := .opened, pkg := false }
/-- SCN.LANES (R392). -/
def scnLanes : Field :=
  { block := 0x09, id := 0x0003, stride := 0, count := 1, width := 3, lo := 1, hi := 4, dflt := 4,
    signed := false, apply := .imageRestart, side := .opened, pkg := false, kind := .lanes124 }
/-- SCN.SSC (R392). -/
def scnSsc : Field :=
  { block := 0x09, id := 0x0004, stride := 0, count := 1, width := 1, lo := 0, hi := 1, dflt := 0,
    signed := false, apply := .imageRestart, side := .opened, pkg := false }
/-- SCN.PIXEL_KHZ (R392). -/
def scnPixelKhz : Field :=
  { block := 0x09, id := 0x0010, stride := 0, count := 1, width := 22, lo := 25000, hi := 2100000, dflt := 148500,
    signed := false, apply := .vblank, side := .opened, pkg := false }
/-- SCN.H_ACTIVE (R392). -/
def scnHActive : Field :=
  { block := 0x09, id := 0x0011, stride := 0, count := 1, width := 13, lo := 64, hi := 7680, dflt := 1920,
    signed := false, apply := .vblank, side := .opened, pkg := false }
/-- SCN.H_FRONT (R392). -/
def scnHFront : Field :=
  { block := 0x09, id := 0x0012, stride := 0, count := 1, width := 12, lo := 4, hi := 4092, dflt := 88,
    signed := false, apply := .vblank, side := .opened, pkg := false }
/-- SCN.H_SYNC (R392). -/
def scnHSync : Field :=
  { block := 0x09, id := 0x0013, stride := 0, count := 1, width := 12, lo := 4, hi := 4092, dflt := 44,
    signed := false, apply := .vblank, side := .opened, pkg := false }
/-- SCN.H_BACK (R392). -/
def scnHBack : Field :=
  { block := 0x09, id := 0x0014, stride := 0, count := 1, width := 12, lo := 4, hi := 4092, dflt := 148,
    signed := false, apply := .vblank, side := .opened, pkg := false }
/-- SCN.V_ACTIVE (R392). -/
def scnVActive : Field :=
  { block := 0x09, id := 0x0015, stride := 0, count := 1, width := 13, lo := 64, hi := 4320, dflt := 1080,
    signed := false, apply := .vblank, side := .opened, pkg := false }
/-- SCN.V_FRONT (R392). -/
def scnVFront : Field :=
  { block := 0x09, id := 0x0016, stride := 0, count := 1, width := 12, lo := 1, hi := 4095, dflt := 4,
    signed := false, apply := .vblank, side := .opened, pkg := false }
/-- SCN.V_SYNC (R392). -/
def scnVSync : Field :=
  { block := 0x09, id := 0x0017, stride := 0, count := 1, width := 12, lo := 1, hi := 4095, dflt := 5,
    signed := false, apply := .vblank, side := .opened, pkg := false }
/-- SCN.V_BACK (R392). -/
def scnVBack : Field :=
  { block := 0x09, id := 0x0018, stride := 0, count := 1, width := 12, lo := 1, hi := 4095, dflt := 36,
    signed := false, apply := .vblank, side := .opened, pkg := false }
/-- SCN.SYNC_POL (R392). -/
def scnSyncPol : Field :=
  { block := 0x09, id := 0x0019, stride := 0, count := 1, width := 2, lo := 0, hi := 3, dflt := 3,
    signed := false, apply := .vblank, side := .opened, pkg := false }
/-- SCN.BG_COLOUR (R392). -/
def scnBgColour : Field :=
  { block := 0x09, id := 0x0020, stride := 0, count := 1, width := 30, lo := 0, hi := 1073741823, dflt := 0,
    signed := false, apply := .vblank, side := .opened, pkg := false }
/-- SCN.PLOT_X (R392). -/
def scnPlotX : Field :=
  { block := 0x09, id := 0x0021, stride := 0, count := 1, width := 13, lo := 0, hi := 8191, dflt := 64,
    signed := false, apply := .vblank, side := .opened, pkg := false }
/-- SCN.PLOT_Y (R392). -/
def scnPlotY : Field :=
  { block := 0x09, id := 0x0022, stride := 0, count := 1, width := 13, lo := 0, hi := 8191, dflt := 64,
    signed := false, apply := .vblank, side := .opened, pkg := false }
/-- SCN.PLOT_W (R392). -/
def scnPlotW : Field :=
  { block := 0x09, id := 0x0023, stride := 0, count := 1, width := 13, lo := 1, hi := 7680, dflt := 1024,
    signed := false, apply := .vblank, side := .opened, pkg := false }
/-- SCN.PLOT_H (R392). -/
def scnPlotH : Field :=
  { block := 0x09, id := 0x0024, stride := 0, count := 1, width := 13, lo := 1, hi := 4320, dflt := 512,
    signed := false, apply := .vblank, side := .opened, pkg := false }
/-- SCN.DEN_EN (R392). -/
def scnDenEn : Field :=
  { block := 0x09, id := 0x0030, stride := 0, count := 1, width := 1, lo := 0, hi := 1, dflt := 0,
    signed := false, apply := .vblank, side := .opened, pkg := false }
/-- SCN.DEN_CH (R392). -/
def scnDenCh : Field :=
  { block := 0x09, id := 0x0031, stride := 0, count := 1, width := 4, lo := 0, hi := 15, dflt := 0,
    signed := false, apply := .vblank, side := .opened, pkg := false, kind := .channel }
/-- SCN.DEN_COL_FIRST (R392). -/
def scnDenColFirst : Field :=
  { block := 0x09, id := 0x0032, stride := 0, count := 1, width := 10, lo := 0, hi := 1023, dflt := 0,
    signed := false, apply := .vblank, side := .opened, pkg := false }
/-- SCN.DEN_COL_COUNT (R392). -/
def scnDenColCount : Field :=
  { block := 0x09, id := 0x0033, stride := 0, count := 1, width := 11, lo := 1, hi := 1024, dflt := 1024,
    signed := false, apply := .vblank, side := .opened, pkg := false }
/-- SCN.DEN_ROW_FIRST (R392). -/
def scnDenRowFirst : Field :=
  { block := 0x09, id := 0x0034, stride := 0, count := 1, width := 9, lo := 0, hi := 511, dflt := 0,
    signed := false, apply := .vblank, side := .opened, pkg := false }
/-- SCN.DEN_ROW_COUNT (R392). -/
def scnDenRowCount : Field :=
  { block := 0x09, id := 0x0035, stride := 0, count := 1, width := 10, lo := 1, hi := 512, dflt := 512,
    signed := false, apply := .vblank, side := .opened, pkg := false }
/-- SCN.DEN_FULL (R392). -/
def scnDenFull : Field :=
  { block := 0x09, id := 0x0036, stride := 0, count := 1, width := 32, lo := 0, hi := 4294967295, dflt := 0,
    signed := false, apply := .vblank, side := .opened, pkg := false }
/-- SCN.PALETTE (R392). -/
def scnPalette : Field :=
  { block := 0x09, id := 0x0037, stride := 0, count := 1, width := 2, lo := 0, hi := 3, dflt := 0,
    signed := false, apply := .vblank, side := .opened, pkg := false }
/-- SCN.S_EN (R392). -/
def scnSEn : Field :=
  { block := 0x09, id := 0x0040, stride := 8, count := 8, width := 1, lo := 0, hi := 1, dflt := 0,
    signed := false, apply := .vblank, side := .opened, pkg := false }
/-- SCN.S_BAY (R392). -/
def scnSBay : Field :=
  { block := 0x09, id := 0x0041, stride := 8, count := 8, width := 3, lo := 0, hi := 7, dflt := 0,
    signed := false, apply := .vblank, side := .opened, pkg := false, kind := .bay }
/-- SCN.S_TRACE (R392). -/
def scnSTrace : Field :=
  { block := 0x09, id := 0x0042, stride := 8, count := 8, width := 4, lo := 0, hi := 15, dflt := 0,
    signed := false, apply := .vblank, side := .opened, pkg := false }
/-- SCN.S_COLOUR (R392). -/
def scnSColour : Field :=
  { block := 0x09, id := 0x0043, stride := 8, count := 8, width := 30, lo := 0, hi := 1073741823, dflt := 1073740800,
    signed := false, apply := .vblank, side := .opened, pkg := false }
/-- SCN.S_TOP (R392). -/
def scnSTop : Field :=
  { block := 0x09, id := 0x0044, stride := 8, count := 8, width := 16, lo := (-32767), hi := 32767, dflt := 0,
    signed := true, apply := .vblank, side := .opened, pkg := false }
/-- SCN.S_BOTTOM (R392). -/
def scnSBottom : Field :=
  { block := 0x09, id := 0x0045, stride := 8, count := 8, width := 16, lo := (-32767), hi := 32767, dflt := (-16384),
    signed := true, apply := .vblank, side := .opened, pkg := false }
/-- SCN.GRAT_EN (R392). -/
def scnGratEn : Field :=
  { block := 0x09, id := 0x00A8, stride := 0, count := 1, width := 1, lo := 0, hi := 1, dflt := 0,
    signed := false, apply := .vblank, side := .opened, pkg := false }
/-- SCN.GRAT_FIRST (R392). -/
def scnGratFirst : Field :=
  { block := 0x09, id := 0x00A9, stride := 0, count := 1, width := 12, lo := 0, hi := 4095, dflt := 0,
    signed := false, apply := .vblank, side := .opened, pkg := false }
/-- SCN.GRAT_COUNT (R392). -/
def scnGratCount : Field :=
  { block := 0x09, id := 0x00AA, stride := 0, count := 1, width := 13, lo := 0, hi := 4096, dflt := 0,
    signed := false, apply := .vblank, side := .opened, pkg := false }
/-- SCN.TEXT_EN (R392). -/
def scnTextEn : Field :=
  { block := 0x09, id := 0x00B0, stride := 0, count := 1, width := 1, lo := 0, hi := 1, dflt := 0,
    signed := false, apply := .vblank, side := .opened, pkg := false }
/-- SCN.TEXT_X (R392). -/
def scnTextX : Field :=
  { block := 0x09, id := 0x00B1, stride := 0, count := 1, width := 13, lo := 0, hi := 8191, dflt := 0,
    signed := false, apply := .vblank, side := .opened, pkg := false }
/-- SCN.TEXT_Y (R392). -/
def scnTextY : Field :=
  { block := 0x09, id := 0x00B2, stride := 0, count := 1, width := 13, lo := 0, hi := 8191, dflt := 0,
    signed := false, apply := .vblank, side := .opened, pkg := false }
/-- SCN.TEXT_COLS (R392). -/
def scnTextCols : Field :=
  { block := 0x09, id := 0x00B3, stride := 0, count := 1, width := 9, lo := 1, hi := 256, dflt := 80,
    signed := false, apply := .vblank, side := .opened, pkg := false }
/-- SCN.TEXT_ROWS (R392). -/
def scnTextRows : Field :=
  { block := 0x09, id := 0x00B4, stride := 0, count := 1, width := 8, lo := 1, hi := 128, dflt := 25,
    signed := false, apply := .vblank, side := .opened, pkg := false }
/-- SCN.TEXT_FONT (R392). -/
def scnTextFont : Field :=
  { block := 0x09, id := 0x00B5, stride := 0, count := 1, width := 2, lo := 0, hi := 3, dflt := 0,
    signed := false, apply := .vblank, side := .opened, pkg := false }
/-- SCN.TEXT_PAGE (R392). -/
def scnTextPage : Field :=
  { block := 0x09, id := 0x00B6, stride := 0, count := 1, width := 1, lo := 0, hi := 1, dflt := 0,
    signed := false, apply := .vblank, side := .opened, pkg := false }
/-- SCN.COLOUR (R392). -/
def scnColour : Field :=
  { block := 0x09, id := 0x00B8, stride := 1, count := 8, width := 30, lo := 0, hi := 1073741823, dflt := 1073741823,
    signed := false, apply := .vblank, side := .opened, pkg := false }
/-- SCN.CRC_MODE (R392). -/
def scnCrcMode : Field :=
  { block := 0x09, id := 0x00C0, stride := 8, count := 15, width := 2, lo := 0, hi := 2, dflt := 0,
    signed := false, apply := .vblank, side := .opened, pkg := false }
/-- SCN.CRC_X (R392). -/
def scnCrcX : Field :=
  { block := 0x09, id := 0x00C1, stride := 8, count := 15, width := 13, lo := 0, hi := 8191, dflt := 0,
    signed := false, apply := .vblank, side := .opened, pkg := false }
/-- SCN.CRC_Y (R392). -/
def scnCrcY : Field :=
  { block := 0x09, id := 0x00C2, stride := 8, count := 15, width := 13, lo := 0, hi := 8191, dflt := 0,
    signed := false, apply := .vblank, side := .opened, pkg := false }
/-- SCN.CRC_W (R392). -/
def scnCrcW : Field :=
  { block := 0x09, id := 0x00C3, stride := 8, count := 15, width := 13, lo := 1, hi := 7680, dflt := 1,
    signed := false, apply := .vblank, side := .opened, pkg := false }
/-- SCN.CRC_H (R392). -/
def scnCrcH : Field :=
  { block := 0x09, id := 0x00C4, stride := 8, count := 15, width := 13, lo := 1, hi := 4320, dflt := 1,
    signed := false, apply := .vblank, side := .opened, pkg := false }
/-- SCN.RO_EN (R392). -/
def scnRoEn : Field :=
  { block := 0x09, id := 0x0200, stride := 0, count := 1, width := 1, lo := 0, hi := 1, dflt := 0,
    signed := false, apply := .imageRestart, side := .sealed, pkg := false }
/-- SCN.RO_X (R392). -/
def scnRoX : Field :=
  { block := 0x09, id := 0x0201, stride := 0, count := 1, width := 13, lo := 0, hi := 8191, dflt := 0,
    signed := false, apply := .imageRestart, side := .sealed, pkg := false }
/-- SCN.RO_Y (R392). -/
def scnRoY : Field :=
  { block := 0x09, id := 0x0202, stride := 0, count := 1, width := 13, lo := 0, hi := 8191, dflt := 0,
    signed := false, apply := .imageRestart, side := .sealed, pkg := false }
/-- SCN.RO_COLS (R392). -/
def scnRoCols : Field :=
  { block := 0x09, id := 0x0203, stride := 0, count := 1, width := 7, lo := 1, hi := 64, dflt := 16,
    signed := false, apply := .imageRestart, side := .sealed, pkg := false }
/-- SCN.RO_ROWS (R392). -/
def scnRoRows : Field :=
  { block := 0x09, id := 0x0204, stride := 0, count := 1, width := 4, lo := 1, hi := 8, dflt := 1,
    signed := false, apply := .imageRestart, side := .sealed, pkg := false }
/-- SCN.RO_FG (R392). -/
def scnRoFg : Field :=
  { block := 0x09, id := 0x0205, stride := 0, count := 1, width := 30, lo := 0, hi := 1073741823, dflt := 1073741823,
    signed := false, apply := .imageRestart, side := .sealed, pkg := false }
/-- SCN.RO_BG (R392). -/
def scnRoBg : Field :=
  { block := 0x09, id := 0x0206, stride := 0, count := 1, width := 30, lo := 0, hi := 1073741823, dflt := 0,
    signed := false, apply := .imageRestart, side := .sealed, pkg := false }
/-- SCN.RO_CORE (R392). -/
def scnRoCore : Field :=
  { block := 0x09, id := 0x0207, stride := 0, count := 1, width := 1, lo := 0, hi := 1, dflt := 0,
    signed := false, apply := .imageRestart, side := .sealed, pkg := false }
/-- SCN.RO_STALE (R392). -/
def scnRoStale : Field :=
  { block := 0x09, id := 0x0208, stride := 0, count := 1, width := 16, lo := 0, hi := 60000, dflt := 2000,
    signed := false, apply := .imageRestart, side := .sealed, pkg := false }
/-- SCN.RO_FONT (R392). -/
def scnRoFont : Field :=
  { block := 0x09, id := 0x8001, stride := 0, count := 1, width := 32, lo := 0, hi := 4294967295, dflt := 0,
    signed := false, apply := .imageRestart, side := .sealed, pkg := false, len := 16386, kind := .array }
/-- Every SCN field. -/
def scnFields : List Field :=
  [scnEn, scnLinkRate, scnLanes, scnSsc, scnPixelKhz, scnHActive,
   scnHFront, scnHSync, scnHBack, scnVActive, scnVFront, scnVSync,
   scnVBack, scnSyncPol, scnBgColour, scnPlotX, scnPlotY, scnPlotW,
   scnPlotH, scnDenEn, scnDenCh, scnDenColFirst, scnDenColCount, scnDenRowFirst,
   scnDenRowCount, scnDenFull, scnPalette, scnSEn, scnSBay, scnSTrace,
   scnSColour, scnSTop, scnSBottom, scnGratEn, scnGratFirst, scnGratCount,
   scnTextEn, scnTextX, scnTextY, scnTextCols, scnTextRows, scnTextFont,
   scnTextPage, scnColour, scnCrcMode, scnCrcX, scnCrcY, scnCrcW,
   scnCrcH, scnRoEn, scnRoX, scnRoY, scnRoCols, scnRoRows,
   scnRoFg, scnRoBg, scnRoCore, scnRoStale, scnRoFont]
/-! ### MCO settings (R429) -/
/-- MCO.SEAL_CORES (R429). -/
def mcoSealCores : Field :=
  { block := 0x0A, id := 0x0001, stride := 0, count := 1, width := 2, lo := 0, hi := 3, dflt := 0,
    signed := false, apply := .imageRestart, side := .sealed, pkg := false }
/-- MCO.C_EN (R429). -/
def mcoCEn : Field :=
  { block := 0x0A, id := 0x0100, stride := 16, count := 8, width := 1, lo := 0, hi := 1, dflt := 0,
    signed := false, apply := .imageRestart, side := .opened, pkg := false }
/-- MCO.C_ENTRY (R429). -/
def mcoCEntry : Field :=
  { block := 0x0A, id := 0x0101, stride := 16, count := 8, width := 14, lo := 0, hi := 16383, dflt := 0,
    signed := false, apply := .imageRestart, side := .opened, pkg := false }
/-- MCO.C_QUEUE (R429). -/
def mcoCQueue : Field :=
  { block := 0x0A, id := 0x0102, stride := 16, count := 8, width := 7, lo := 0, hi := 127, dflt := 0,
    signed := false, apply := .imageRestart, side := .opened, pkg := false, kind := .queue }
/-- MCO.C_RESTART (R429). -/
def mcoCRestart : Field :=
  { block := 0x0A, id := 0x0103, stride := 16, count := 8, width := 1, lo := 0, hi := 1, dflt := 1,
    signed := false, apply := .imageRestart, side := .opened, pkg := false }
/-- MCO.C_WATCHDOG (R429). -/
def mcoCWatchdog : Field :=
  { block := 0x0A, id := 0x0104, stride := 16, count := 8, width := 16, lo := 0, hi := 65535, dflt := 0,
    signed := false, apply := .imageRestart, side := .opened, pkg := false }
/-- MCO.C_TRIG_UNITS (R429). -/
def mcoCTrigUnits : Field :=
  { block := 0x0A, id := 0x0105, stride := 16, count := 8, width := 8, lo := 0, hi := 255, dflt := 0,
    signed := false, apply := .epoch, side := .opened, pkg := false }
/-- MCO.C_IQ_EN (R429). -/
def mcoCIqEn : Field :=
  { block := 0x0A, id := 0x0106, stride := 16, count := 8, width := 1, lo := 0, hi := 1, dflt := 0,
    signed := false, apply := .epoch, side := .opened, pkg := false }
/-- MCO.C_IQ_PORT (R429). -/
def mcoCIqPort : Field :=
  { block := 0x0A, id := 0x0107, stride := 16, count := 8, width := 2, lo := 0, hi := 3, dflt := 0,
    signed := false, apply := .imageRestart, side := .opened, pkg := false }
/-- MCO.C_IQ_BLOCK (R429). -/
def mcoCIqBlock : Field :=
  { block := 0x0A, id := 0x0108, stride := 16, count := 8, width := 14, lo := 256, hi := 8192, dflt := 1024,
    signed := false, apply := .imageRestart, side := .opened, pkg := false, step := 256 }
/-- MCO.C_IQ_BASE (R429). -/
def mcoCIqBase : Field :=
  { block := 0x0A, id := 0x0109, stride := 16, count := 8, width := 17, lo := 0, hi := 131040, dflt := 0,
    signed := false, apply := .imageRestart, side := .opened, pkg := false, step := 32 }
/-- MCO.C_IQ_BLOCKS (R429). -/
def mcoCIqBlocks : Field :=
  { block := 0x0A, id := 0x010A, stride := 16, count := 8, width := 11, lo := 1, hi := 1024, dflt := 4,
    signed := false, apply := .imageRestart, side := .opened, pkg := false }
/-- MCO.SEALED_CODE (R429). -/
def mcoSealedCode : Field :=
  { block := 0x0A, id := 0x8001, stride := 1, count := 2, width := 32, lo := 0, hi := 4294967295, dflt := 0,
    signed := false, apply := .imageRestart, side := .sealed, pkg := false, len := 16384, kind := .array }
/-- MCO.SEALED_DATA (R429). -/
def mcoSealedData : Field :=
  { block := 0x0A, id := 0x8003, stride := 1, count := 2, width := 32, lo := 0, hi := 4294967295, dflt := 0,
    signed := false, apply := .imageRestart, side := .sealed, pkg := false, len := 32768, kind := .array }
/-- Every MCO field. -/
def mcoFields : List Field :=
  [mcoSealCores, mcoCEn, mcoCEntry, mcoCQueue, mcoCRestart, mcoCWatchdog,
   mcoCTrigUnits, mcoCIqEn, mcoCIqPort, mcoCIqBlock, mcoCIqBase, mcoCIqBlocks,
   mcoSealedCode, mcoSealedData]
/-! ### QUE settings (R468) -/
/-- QUE.RESERVE_SIZE (R468). -/
def queReserveSize : Field :=
  { block := 0x0B, id := 0x0001, stride := 0, count := 1, width := 27, lo := 0, hi := 67108864, dflt := 4194304,
    signed := false, apply := .imageRestart, side := .opened, pkg := false, step := 4096 }
/-- QUE.EPOCH_QUEUES (R468). -/
def queEpochQueues : Field :=
  { block := 0x0B, id := 0x0002, stride := 0, count := 1, width := 16, lo := 0, hi := 65535, dflt := 0,
    signed := false, apply := .epoch, side := .opened, pkg := false }
/-- QUE.EVENT_QUEUE (R468). -/
def queEventQueue : Field :=
  { block := 0x0B, id := 0x0003, stride := 0, count := 1, width := 8, lo := 0, hi := 255, dflt := 255,
    signed := false, apply := .epoch, side := .opened, pkg := true, kind := .queueOrNone }
/-- QUE.SEG_SIZE (R468). -/
def queSegSize : Field :=
  { block := 0x0B, id := 0x0010, stride := 1, count := 8, width := 27, lo := 0, hi := 67108864, dflt := 0,
    signed := false, apply := .imageRestart, side := .opened, pkg := false, step := 4096 }
/-- QUE.GAP_QUEUE (R468). -/
def queGapQueue : Field :=
  { block := 0x0B, id := 0x0020, stride := 1, count := 2, width := 8, lo := 0, hi := 255, dflt := 255,
    signed := false, apply := .epoch, side := .opened, pkg := false, kind := .queueOrNone }
/-- QUE.Q_SIZE (R468). -/
def queQSize : Field :=
  { block := 0x0B, id := 0x0100, stride := 16, count := 16, width := 27, lo := 4096, hi := 67108864, dflt := 65536,
    signed := false, apply := .imageRestart, side := .opened, pkg := false, step := 4096 }
/-- QUE.Q_RESERVE (R468). -/
def queQReserve : Field :=
  { block := 0x0B, id := 0x0101, stride := 16, count := 16, width := 1, lo := 0, hi := 1, dflt := 1,
    signed := false, apply := .imageRestart, side := .opened, pkg := false }
/-- QUE.Q_HIGH_MARK (R468). -/
def queQHighMark : Field :=
  { block := 0x0B, id := 0x0102, stride := 16, count := 16, width := 7, lo := 1, hi := 100, dflt := 75,
    signed := false, apply := .immediate, side := .opened, pkg := false }
/-- QUE.P_IQ_EN (R468). -/
def quePIqEn : Field :=
  { block := 0x0B, id := 0x0200, stride := 16, count := 4, width := 1, lo := 0, hi := 1, dflt := 0,
    signed := false, apply := .acqRestart, side := .opened, pkg := false }
/-- QUE.P_IQ_QUEUE (R468). -/
def quePIqQueue : Field :=
  { block := 0x0B, id := 0x0201, stride := 16, count := 4, width := 7, lo := 0, hi := 127, dflt := 0,
    signed := false, apply := .epoch, side := .opened, pkg := false, kind := .queue }
/-- QUE.P_IQ_FORMAT (R468). -/
def quePIqFormat : Field :=
  { block := 0x0B, id := 0x0202, stride := 16, count := 4, width := 1, lo := 0, hi := 1, dflt := 0,
    signed := false, apply := .epoch, side := .opened, pkg := false }
/-- QUE.P_IQ_SAMPLES (R468). -/
def quePIqSamples : Field :=
  { block := 0x0B, id := 0x0203, stride := 16, count := 4, width := 17, lo := 256, hi := 65280, dflt := 16384,
    signed := false, apply := .epoch, side := .opened, pkg := false, step := 256 }
/-- Every QUE field. -/
def queFields : List Field :=
  [queReserveSize, queEpochQueues, queEventQueue, queSegSize, queGapQueue, queQSize,
   queQReserve, queQHighMark, quePIqEn, quePIqQueue, quePIqFormat, quePIqSamples]
/-! ### DMA settings (R469) -/
/-- DMA.MODE (R469). -/
def dmaMode : Field :=
  { block := 0x0C, id := 0x0100, stride := 32, count := 32, width := 3, lo := 0, hi := 4, dflt := 0,
    signed := false, apply := .imageRestart, side := .opened, pkg := false }
/-- DMA.QUEUE (R469). -/
def dmaQueue : Field :=
  { block := 0x0C, id := 0x0101, stride := 32, count := 32, width := 4, lo := 0, hi := 15, dflt := 0,
    signed := false, apply := .imageRestart, side := .opened, pkg := false }
/-- DMA.ENDPOINT (R469). -/
def dmaEndpoint : Field :=
  { block := 0x0C, id := 0x0102, stride := 32, count := 32, width := 4, lo := 0, hi := 15, dflt := 0,
    signed := false, apply := .imageRestart, side := .opened, pkg := false, kind := .endpoint }
/-- DMA.STREAM (R469). -/
def dmaStream : Field :=
  { block := 0x0C, id := 0x0103, stride := 32, count := 32, width := 6, lo := 0, hi := 63, dflt := 0,
    signed := false, apply := .imageRestart, side := .opened, pkg := false }
/-- DMA.SRC_WIDTH (R469). -/
def dmaSrcWidth : Field :=
  { block := 0x0C, id := 0x0104, stride := 32, count := 32, width := 3, lo := 0, hi := 5, dflt := 5,
    signed := false, apply := .imageRestart, side := .opened, pkg := false }
/-- DMA.DST_WIDTH (R469). -/
def dmaDstWidth : Field :=
  { block := 0x0C, id := 0x0105, stride := 32, count := 32, width := 3, lo := 0, hi := 5, dflt := 5,
    signed := false, apply := .imageRestart, side := .opened, pkg := false }
/-- DMA.FIXED (R469). -/
def dmaFixed : Field :=
  { block := 0x0C, id := 0x0106, stride := 32, count := 32, width := 2, lo := 0, hi := 3, dflt := 0,
    signed := false, apply := .imageRestart, side := .opened, pkg := false }
/-- DMA.SHARE (R469). -/
def dmaShare : Field :=
  { block := 0x0C, id := 0x0107, stride := 32, count := 32, width := 9, lo := 1, hi := 256, dflt := 256,
    signed := false, apply := .immediate, side := .opened, pkg := false }
/-- DMA.BURST (R469). -/
def dmaBurst : Field :=
  { block := 0x0C, id := 0x0108, stride := 32, count := 32, width := 4, lo := 1, hi := 8, dflt := 8,
    signed := false, apply := .immediate, side := .opened, pkg := false }
/-- DMA.COUNT (R469). -/
def dmaCount : Field :=
  { block := 0x0C, id := 0x0109, stride := 32, count := 32, width := 16, lo := 1, hi := 65535, dflt := 1,
    signed := false, apply := .epoch, side := .opened, pkg := false }
/-- DMA.DONE_ROUTE (R469). -/
def dmaDoneRoute : Field :=
  { block := 0x0C, id := 0x010A, stride := 32, count := 32, width := 2, lo := 0, hi := 2, dflt := 0,
    signed := false, apply := .imageRestart, side := .opened, pkg := false }
/-- DMA.VECTOR (R469). -/
def dmaVector : Field :=
  { block := 0x0C, id := 0x010B, stride := 32, count := 32, width := 8, lo := 0, hi := 255, dflt := 0,
    signed := false, apply := .imageRestart, side := .opened, pkg := false }
/-- DMA.CORE (R469). -/
def dmaCore : Field :=
  { block := 0x0C, id := 0x010C, stride := 32, count := 32, width := 3, lo := 0, hi := 7, dflt := 0,
    signed := false, apply := .imageRestart, side := .opened, pkg := false }
/-- DMA.LINE (R469). -/
def dmaLine : Field :=
  { block := 0x0C, id := 0x010D, stride := 32, count := 32, width := 2, lo := 0, hi := 3, dflt := 0,
    signed := false, apply := .imageRestart, side := .opened, pkg := false }
/-- DMA.WAKE (R469). -/
def dmaWake : Field :=
  { block := 0x0C, id := 0x010E, stride := 32, count := 32, width := 1, lo := 0, hi := 1, dflt := 0,
    signed := false, apply := .immediate, side := .opened, pkg := false }
/-- DMA.FLUSH_ON_ERROR (R469). -/
def dmaFlushOnError : Field :=
  { block := 0x0C, id := 0x010F, stride := 32, count := 32, width := 1, lo := 0, hi := 1, dflt := 0,
    signed := false, apply := .immediate, side := .opened, pkg := false }
/-- DMA.START (R469). -/
def dmaStart : Field :=
  { block := 0x0C, id := 0x0110, stride := 32, count := 32, width := 1, lo := 0, hi := 1, dflt := 0,
    signed := false, apply := .imageRestart, side := .opened, pkg := false }
/-- DMA.SRC_SPACE (R469). -/
def dmaSrcSpace : Field :=
  { block := 0x0C, id := 0x0111, stride := 32, count := 32, width := 2, lo := 0, hi := 3, dflt := 1,
    signed := false, apply := .imageRestart, side := .opened, pkg := false }
/-- DMA.DST_SPACE (R469). -/
def dmaDstSpace : Field :=
  { block := 0x0C, id := 0x0112, stride := 32, count := 32, width := 2, lo := 0, hi := 3, dflt := 1,
    signed := false, apply := .imageRestart, side := .opened, pkg := false }
/-- DMA.SRC_ADDR (R469). -/
def dmaSrcAddr : Field :=
  { block := 0x0C, id := 0x0113, stride := 32, count := 32, width := 32, lo := 0, hi := 4294967295, dflt := 0,
    signed := false, apply := .imageRestart, side := .opened, pkg := false }
/-- DMA.DST_ADDR (R469). -/
def dmaDstAddr : Field :=
  { block := 0x0C, id := 0x0114, stride := 32, count := 32, width := 32, lo := 0, hi := 4294967295, dflt := 0,
    signed := false, apply := .imageRestart, side := .opened, pkg := false }
/-- DMA.BYTES (R469). -/
def dmaBytes : Field :=
  { block := 0x0C, id := 0x0115, stride := 32, count := 32, width := 27, lo := 0, hi := 67108864, dflt := 0,
    signed := false, apply := .imageRestart, side := .opened, pkg := false }
/-- Every DMA field. -/
def dmaFields : List Field :=
  [dmaMode, dmaQueue, dmaEndpoint, dmaStream, dmaSrcWidth, dmaDstWidth,
   dmaFixed, dmaShare, dmaBurst, dmaCount, dmaDoneRoute, dmaVector,
   dmaCore, dmaLine, dmaWake, dmaFlushOnError, dmaStart, dmaSrcSpace,
   dmaDstSpace, dmaSrcAddr, dmaDstAddr, dmaBytes]
/-! ### REC settings (R515) -/
/-- REC.EN (R515). -/
def recEn : Field :=
  { block := 0x0D, id := 0x0001, stride := 0, count := 1, width := 1, lo := 0, hi := 1, dflt := 0,
    signed := false, apply := .imageRestart, side := .opened, pkg := false }
/-- REC.MODE (R515). -/
def recMode : Field :=
  { block := 0x0D, id := 0x0002, stride := 0, count := 1, width := 1, lo := 0, hi := 1, dflt := 0,
    signed := false, apply := .imageRestart, side := .opened, pkg := false }
/-- REC.DRIVES (R515). -/
def recDrives : Field :=
  { block := 0x0D, id := 0x0003, stride := 0, count := 1, width := 4, lo := 0, hi := 8, dflt := 0,
    signed := false, apply := .imageRestart, side := .opened, pkg := false, kind := .drives }
/-- REC.STRIPE_LOG2 (R515). -/
def recStripeLog2 : Field :=
  { block := 0x0D, id := 0x0004, stride := 0, count := 1, width := 5, lo := 14, hi := 20, dflt := 17,
    signed := false, apply := .imageRestart, side := .opened, pkg := false }
/-- REC.EXTENT_GIB (R515). -/
def recExtentGib : Field :=
  { block := 0x0D, id := 0x0005, stride := 0, count := 1, width := 19, lo := 0, hi := 262144, dflt := 0,
    signed := false, apply := .imageRestart, side := .opened, pkg := false }
/-- REC.INDEX_MIB (R515). -/
def recIndexMib : Field :=
  { block := 0x0D, id := 0x0006, stride := 0, count := 1, width := 17, lo := 16, hi := 65536, dflt := 1024,
    signed := false, apply := .imageRestart, side := .opened, pkg := false }
/-- REC.SYNC_MS (R515). -/
def recSyncMs : Field :=
  { block := 0x0D, id := 0x0007, stride := 0, count := 1, width := 14, lo := 10, hi := 10000, dflt := 100,
    signed := false, apply := .immediate, side := .opened, pkg := false }
/-- REC.AUTO_START (R515). -/
def recAutoStart : Field :=
  { block := 0x0D, id := 0x0008, stride := 0, count := 1, width := 1, lo := 0, hi := 1, dflt := 0,
    signed := false, apply := .imageRestart, side := .opened, pkg := false }
/-- REC.OVERWRITE (R515). -/
def recOverwrite : Field :=
  { block := 0x0D, id := 0x0009, stride := 0, count := 1, width := 1, lo := 0, hi := 1, dflt := 0,
    signed := false, apply := .imageRestart, side := .opened, pkg := false }
/-- REC.DRIVE_WAIT (R515). -/
def recDriveWait : Field :=
  { block := 0x0D, id := 0x000A, stride := 0, count := 1, width := 8, lo := 1, hi := 255, dflt := 30,
    signed := false, apply := .imageRestart, side := .opened, pkg := false }
/-- REC.DRIVE_TIMEOUT (R515). -/
def recDriveTimeout : Field :=
  { block := 0x0D, id := 0x0010, stride := 0, count := 1, width := 20, lo := 100, hi := 1000000, dflt := 10000,
    signed := false, apply := .immediate, side := .opened, pkg := false }
/-- REC.LAG_ROWS (R515). -/
def recLagRows : Field :=
  { block := 0x0D, id := 0x0011, stride := 0, count := 1, width := 4, lo := 1, hi := 14, dflt := 2,
    signed := false, apply := .imageRestart, side := .opened, pkg := false }
/-- REC.AUTO_REBUILD (R515). -/
def recAutoRebuild : Field :=
  { block := 0x0D, id := 0x0012, stride := 0, count := 1, width := 1, lo := 0, hi := 1, dflt := 1,
    signed := false, apply := .immediate, side := .opened, pkg := false }
/-- REC.FREEZE_UNITS (R515). -/
def recFreezeUnits : Field :=
  { block := 0x0D, id := 0x0020, stride := 0, count := 1, width := 8, lo := 0, hi := 255, dflt := 0,
    signed := false, apply := .epoch, side := .opened, pkg := false }
/-- REC.FREEZE_PRE_MS (R515). -/
def recFreezePreMs : Field :=
  { block := 0x0D, id := 0x0021, stride := 0, count := 1, width := 22, lo := 0, hi := 3600000, dflt := 1000,
    signed := false, apply := .epoch, side := .opened, pkg := false }
/-- REC.FREEZE_POST_MS (R515). -/
def recFreezePostMs : Field :=
  { block := 0x0D, id := 0x0022, stride := 0, count := 1, width := 22, lo := 0, hi := 3600000, dflt := 1000,
    signed := false, apply := .epoch, side := .opened, pkg := false }
/-- REC.FREEZE_MARGIN (R515). -/
def recFreezeMargin : Field :=
  { block := 0x0D, id := 0x0023, stride := 0, count := 1, width := 8, lo := 0, hi := 255, dflt := 1,
    signed := false, apply := .epoch, side := .opened, pkg := false }
/-- REC.RING_MIN (R515). -/
def recRingMin : Field :=
  { block := 0x0D, id := 0x0024, stride := 0, count := 1, width := 7, lo := 5, hi := 90, dflt := 25,
    signed := false, apply := .epoch, side := .opened, pkg := false }
/-- REC.REPLAY_QUEUE (R515). -/
def recReplayQueue : Field :=
  { block := 0x0D, id := 0x0030, stride := 0, count := 1, width := 7, lo := 0, hi := 127, dflt := 0,
    signed := false, apply := .imageRestart, side := .opened, pkg := false, kind := .queue }
/-- REC.XS_REPLAY (R515). -/
def recXsReplay : Field :=
  { block := 0x0D, id := 0x0031, stride := 1, count := 2, width := 1, lo := 0, hi := 1, dflt := 0,
    signed := false, apply := .imageRestart, side := .opened, pkg := false }
/-- REC.XS_REPLAY_DECIM (R515). -/
def recXsReplayDecim : Field :=
  { block := 0x0D, id := 0x0033, stride := 1, count := 2, width := 5, lo := 0, hi := 16, dflt := 0,
    signed := false, apply := .imageRestart, side := .opened, pkg := false }
/-- REC.D_QUAD (R515). -/
def recDQuad : Field :=
  { block := 0x0D, id := 0x0100, stride := 16, count := 8, width := 3, lo := 0, hi := 5, dflt := 0,
    signed := false, apply := .imageRestart, side := .opened, pkg := false }
/-- REC.D_LANE (R515). -/
def recDLane : Field :=
  { block := 0x0D, id := 0x0101, stride := 16, count := 8, width := 2, lo := 0, hi := 3, dflt := 0,
    signed := false, apply := .imageRestart, side := .opened, pkg := false }
/-- REC.D_WIDTH (R515). -/
def recDWidth : Field :=
  { block := 0x0D, id := 0x0102, stride := 16, count := 8, width := 2, lo := 0, hi := 2, dflt := 2,
    signed := false, apply := .imageRestart, side := .opened, pkg := false }
/-- REC.D_GEN (R515). -/
def recDGen : Field :=
  { block := 0x0D, id := 0x0103, stride := 16, count := 8, width := 3, lo := 3, hi := 6, dflt := 5,
    signed := false, apply := .imageRestart, side := .opened, pkg := false }
/-- REC.D_RATE (R515). -/
def recDRate : Field :=
  { block := 0x0D, id := 0x0104, stride := 16, count := 8, width := 16, lo := 1, hi := 65535, dflt := 3000,
    signed := false, apply := .imageRestart, side := .opened, pkg := false }
/-- REC.D_NSID (R515). -/
def recDNsid : Field :=
  { block := 0x0D, id := 0x0105, stride := 16, count := 8, width := 32, lo := 1, hi := 4294967294, dflt := 1,
    signed := false, apply := .imageRestart, side := .opened, pkg := false }
/-- Every REC field. -/
def recFields : List Field :=
  [recEn, recMode, recDrives, recStripeLog2, recExtentGib, recIndexMib,
   recSyncMs, recAutoStart, recOverwrite, recDriveWait, recDriveTimeout, recLagRows,
   recAutoRebuild, recFreezeUnits, recFreezePreMs, recFreezePostMs, recFreezeMargin, recRingMin,
   recReplayQueue, recXsReplay, recXsReplayDecim, recDQuad, recDLane, recDWidth,
   recDGen, recDRate, recDNsid]
/-! ### LNE settings (R549) -/
/-- LNE.TEST_ALLOW (R549). -/
def lneTestAllow : Field :=
  { block := 0x0E, id := 0x0001, stride := 0, count := 1, width := 1, lo := 0, hi := 1, dflt := 0,
    signed := false, apply := .immediate, side := .opened, pkg := false }
/-- LNE.QD_USE (R549). -/
def lneQdUse : Field :=
  { block := 0x0E, id := 0x0100, stride := 16, count := 6, width := 3, lo := 0, hi := 7, dflt := 0,
    signed := false, apply := .imageRestart, side := .opened, pkg := false }
/-- LNE.QD_LNL (R549). -/
def lneQdLnl : Field :=
  { block := 0x0E, id := 0x0101, stride := 16, count := 6, width := 2, lo := 0, hi := 2, dflt := 0,
    signed := false, apply := .imageRestart, side := .shoal, pkg := false }
/-- LNE.QD_LNL_RATE (R549). -/
def lneQdLnlRate : Field :=
  { block := 0x0E, id := 0x0102, stride := 16, count := 6, width := 3, lo := 0, hi := 4, dflt := 4,
    signed := false, apply := .imageRestart, side := .shoal, pkg := false }
/-- LNE.QD_TEST_RATE (R549). -/
def lneQdTestRate : Field :=
  { block := 0x0E, id := 0x0103, stride := 16, count := 6, width := 27, lo := 1250000, hi := 64000000, dflt := 10000000,
    signed := false, apply := .immediate, side := .opened, pkg := false }
/-- LNE.TX_POL (R549). -/
def lneTxPol : Field :=
  { block := 0x0E, id := 0x0200, stride := 16, count := 24, width := 1, lo := 0, hi := 1, dflt := 0,
    signed := false, apply := .imageRestart, side := .opened, pkg := false }
/-- LNE.RX_POL (R549). -/
def lneRxPol : Field :=
  { block := 0x0E, id := 0x0201, stride := 16, count := 24, width := 1, lo := 0, hi := 1, dflt := 0,
    signed := false, apply := .imageRestart, side := .opened, pkg := false }
/-- LNE.TX_AMP (R549). -/
def lneTxAmp : Field :=
  { block := 0x0E, id := 0x0202, stride := 16, count := 24, width := 7, lo := 40, hi := 120, dflt := 80,
    signed := false, apply := .immediate, side := .opened, pkg := false }
/-- LNE.TX_PRE2 (R549). -/
def lneTxPre2 : Field :=
  { block := 0x0E, id := 0x0203, stride := 16, count := 24, width := 5, lo := (-8), hi := 8, dflt := 0,
    signed := true, apply := .immediate, side := .opened, pkg := false }
/-- LNE.TX_PRE1 (R549). -/
def lneTxPre1 : Field :=
  { block := 0x0E, id := 0x0204, stride := 16, count := 24, width := 6, lo := (-24), hi := 24, dflt := (-4),
    signed := true, apply := .immediate, side := .opened, pkg := false }
/-- LNE.TX_POST1 (R549). -/
def lneTxPost1 : Field :=
  { block := 0x0E, id := 0x0205, stride := 16, count := 24, width := 7, lo := (-32), hi := 32, dflt := (-8),
    signed := true, apply := .immediate, side := .opened, pkg := false }
/-- LNE.RX_EQ_MODE (R549). -/
def lneRxEqMode : Field :=
  { block := 0x0E, id := 0x0206, stride := 16, count := 24, width := 2, lo := 0, hi := 2, dflt := 0,
    signed := false, apply := .immediate, side := .opened, pkg := false }
/-- LNE.RX_CTLE (R549). -/
def lneRxCtle : Field :=
  { block := 0x0E, id := 0x0207, stride := 16, count := 24, width := 4, lo := 0, hi := 15, dflt := 8,
    signed := false, apply := .immediate, side := .opened, pkg := false }
/-- LNE.RX_AUTOWAKE (R549). -/
def lneRxAutowake : Field :=
  { block := 0x0E, id := 0x0208, stride := 16, count := 24, width := 1, lo := 0, hi := 1, dflt := 0,
    signed := false, apply := .immediate, side := .opened, pkg := false }
/-- Every LNE field. -/
def lneFields : List Field :=
  [lneTestAllow, lneQdUse, lneQdLnl, lneQdLnlRate, lneQdTestRate, lneTxPol,
   lneRxPol, lneTxAmp, lneTxPre2, lneTxPre1, lneTxPost1, lneRxEqMode,
   lneRxCtle, lneRxAutowake]
/-! ### PCI settings (R584) -/
/-- PCI.CTRL_GEOM (R584). -/
def pciCtrlGeom : Field :=
  { block := 0x0F, id := 0x0001, stride := 0, count := 1, width := 3, lo := 0, hi := 4, dflt := 0,
    signed := false, apply := .imageRestart, side := .opened, pkg := true }
/-- PCI.CTRL_GEN (R584). -/
def pciCtrlGen : Field :=
  { block := 0x0F, id := 0x0002, stride := 0, count := 1, width := 3, lo := 1, hi := 6, dflt := 4,
    signed := false, apply := .imageRestart, side := .opened, pkg := true }
/-- PCI.S_EN (R584). -/
def pciSEn : Field :=
  { block := 0x0F, id := 0x0100, stride := 16, count := 4, width := 1, lo := 0, hi := 1, dflt := 0,
    signed := false, apply := .imageRestart, side := .opened, pkg := false }
/-- PCI.S_QUAD (R584). -/
def pciSQuad : Field :=
  { block := 0x0F, id := 0x0101, stride := 16, count := 4, width := 3, lo := 2, hi := 5, dflt := 2,
    signed := false, apply := .imageRestart, side := .opened, pkg := false }
/-- PCI.S_WIDTH (R584). -/
def pciSWidth : Field :=
  { block := 0x0F, id := 0x0102, stride := 16, count := 4, width := 2, lo := 0, hi := 2, dflt := 0,
    signed := false, apply := .imageRestart, side := .opened, pkg := false }
/-- PCI.S_GEN (R584). -/
def pciSGen : Field :=
  { block := 0x0F, id := 0x0103, stride := 16, count := 4, width := 3, lo := 1, hi := 6, dflt := 5,
    signed := false, apply := .imageRestart, side := .opened, pkg := false }
/-- PCI.S_INDEX (R584). -/
def pciSIndex : Field :=
  { block := 0x0F, id := 0x0104, stride := 16, count := 4, width := 4, lo := 1, hi := 15, dflt := 1,
    signed := false, apply := .imageRestart, side := .opened, pkg := false }
/-- Every PCI field. -/
def pciFields : List Field :=
  [pciCtrlGeom, pciCtrlGen, pciSEn, pciSQuad, pciSWidth, pciSGen,
   pciSIndex]
/-! ### ETH settings (R585) -/
/-- ETH.P_EN (R585). -/
def ethPEn : Field :=
  { block := 0x10, id := 0x0100, stride := 16, count := 8, width := 1, lo := 0, hi := 1, dflt := 0,
    signed := false, apply := .imageRestart, side := .opened, pkg := false }
/-- ETH.P_QUAD (R585). -/
def ethPQuad : Field :=
  { block := 0x10, id := 0x0101, stride := 16, count := 8, width := 3, lo := 0, hi := 5, dflt := 0,
    signed := false, apply := .imageRestart, side := .opened, pkg := false }
/-- ETH.P_LANE (R585). -/
def ethPLane : Field :=
  { block := 0x10, id := 0x0102, stride := 16, count := 8, width := 2, lo := 0, hi := 3, dflt := 0,
    signed := false, apply := .imageRestart, side := .opened, pkg := false }
/-- ETH.P_RATE (R585). -/
def ethPRate : Field :=
  { block := 0x10, id := 0x0103, stride := 16, count := 8, width := 3, lo := 0, hi := 4, dflt := 2,
    signed := false, apply := .imageRestart, side := .opened, pkg := false }
/-- ETH.P_FEC (R585). -/
def ethPFec : Field :=
  { block := 0x10, id := 0x0104, stride := 16, count := 8, width := 2, lo := 0, hi := 2, dflt := 2,
    signed := false, apply := .imageRestart, side := .opened, pkg := false }
/-- ETH.P_MAC_HI (R585). -/
def ethPMacHi : Field :=
  { block := 0x10, id := 0x0105, stride := 16, count := 8, width := 16, lo := 0, hi := 65535, dflt := 0,
    signed := false, apply := .imageRestart, side := .opened, pkg := false }
/-- ETH.P_MAC_LO (R585). -/
def ethPMacLo : Field :=
  { block := 0x10, id := 0x0106, stride := 16, count := 8, width := 32, lo := 0, hi := 4294967295, dflt := 0,
    signed := false, apply := .imageRestart, side := .opened, pkg := false }
/-- ETH.P_FRAME_MAX (R585). -/
def ethPFrameMax : Field :=
  { block := 0x10, id := 0x0107, stride := 16, count := 8, width := 14, lo := 1518, hi := 9216, dflt := 9216,
    signed := false, apply := .imageRestart, side := .opened, pkg := false }
/-- ETH.P_VLAN (R585). -/
def ethPVlan : Field :=
  { block := 0x10, id := 0x0108, stride := 16, count := 8, width := 12, lo := 0, hi := 4094, dflt := 0,
    signed := false, apply := .imageRestart, side := .opened, pkg := false }
/-- ETH.P_NET (R585). -/
def ethPNet : Field :=
  { block := 0x10, id := 0x8100, stride := 1, count := 8, width := 32, lo := 0, hi := 4294967295, dflt := 0,
    signed := false, apply := .imageRestart, side := .opened, pkg := false, len := 10, kind := .array }
/-- ETH.S_PORT (R585). -/
def ethSPort : Field :=
  { block := 0x10, id := 0x0400, stride := 16, count := 64, width := 6, lo := 0, hi := 63, dflt := 0,
    signed := false, apply := .imageRestart, side := .opened, pkg := true }
/-- ETH.S_STANDBY (R585). -/
def ethSStandby : Field :=
  { block := 0x10, id := 0x0401, stride := 16, count := 64, width := 8, lo := 0, hi := 255, dflt := 255,
    signed := false, apply := .imageRestart, side := .opened, pkg := true, kind := .portOrNone }
/-- ETH.S_DEST (R585). -/
def ethSDest : Field :=
  { block := 0x10, id := 0x0402, stride := 16, count := 64, width := 4, lo := 0, hi := 15, dflt := 0,
    signed := false, apply := .epoch, side := .opened, pkg := true }
/-- ETH.S_MAP (R585). -/
def ethSMap : Field :=
  { block := 0x10, id := 0x0403, stride := 16, count := 64, width := 1, lo := 0, hi := 1, dflt := 0,
    signed := false, apply := .imageRestart, side := .opened, pkg := true }
/-- ETH.S_VRT (R585). -/
def ethSVrt : Field :=
  { block := 0x10, id := 0x0404, stride := 16, count := 64, width := 1, lo := 0, hi := 1, dflt := 0,
    signed := false, apply := .imageRestart, side := .opened, pkg := true }
/-- ETH.S_SID_HI (R585). -/
def ethSSidHi : Field :=
  { block := 0x10, id := 0x0405, stride := 16, count := 64, width := 16, lo := 0, hi := 65535, dflt := 0,
    signed := false, apply := .imageRestart, side := .opened, pkg := true }
/-- ETH.S_CTX_EPOCHS (R585). -/
def ethSCtxEpochs : Field :=
  { block := 0x10, id := 0x0406, stride := 16, count := 64, width := 16, lo := 0, hi := 65535, dflt := 1000,
    signed := false, apply := .epoch, side := .opened, pkg := true }
/-- ETH.S_DSCP (R585). -/
def ethSDscp : Field :=
  { block := 0x10, id := 0x0407, stride := 16, count := 64, width := 6, lo := 0, hi := 63, dflt := 0,
    signed := false, apply := .epoch, side := .opened, pkg := true }
/-- ETH.DEST (R585). -/
def ethDest : Field :=
  { block := 0x10, id := 0x8001, stride := 0, count := 1, width := 32, lo := 0, hi := 4294967295, dflt := 0,
    signed := false, apply := .imageRestart, side := .opened, pkg := true, len := 128, kind := .array }
/-- ETH.CLASS_OUI (R585). -/
def ethClassOui : Field :=
  { block := 0x10, id := 0x0001, stride := 0, count := 1, width := 24, lo := 0, hi := 16777215, dflt := 0,
    signed := false, apply := .imageRestart, side := .opened, pkg := true }
/-- ETH.PTP_PORT (R585). -/
def ethPtpPort : Field :=
  { block := 0x10, id := 0x0010, stride := 0, count := 1, width := 8, lo := 0, hi := 255, dflt := 255,
    signed := false, apply := .imageRestart, side := .opened, pkg := true, kind := .portOrNone }
/-- ETH.PTP_DOMAIN (R585). -/
def ethPtpDomain : Field :=
  { block := 0x10, id := 0x0011, stride := 0, count := 1, width := 7, lo := 0, hi := 127, dflt := 0,
    signed := false, apply := .imageRestart, side := .opened, pkg := true }
/-- ETH.PTP_TRANSPORT (R585). -/
def ethPtpTransport : Field :=
  { block := 0x10, id := 0x0012, stride := 0, count := 1, width := 2, lo := 0, hi := 2, dflt := 1,
    signed := false, apply := .imageRestart, side := .opened, pkg := true }
/-- ETH.PTP_DELAY (R585). -/
def ethPtpDelay : Field :=
  { block := 0x10, id := 0x0013, stride := 0, count := 1, width := 1, lo := 0, hi := 1, dflt := 0,
    signed := false, apply := .imageRestart, side := .opened, pkg := true }
/-- ETH.PTP_ASYM (R585). -/
def ethPtpAsym : Field :=
  { block := 0x10, id := 0x0014, stride := 0, count := 1, width := 32, lo := (-2147483647), hi := 2147483647, dflt := 0,
    signed := true, apply := .immediate, side := .opened, pkg := true }
/-- Every ETH field. -/
def ethFields : List Field :=
  [ethPEn, ethPQuad, ethPLane, ethPRate, ethPFec, ethPMacHi,
   ethPMacLo, ethPFrameMax, ethPVlan, ethPNet, ethSPort, ethSStandby,
   ethSDest, ethSMap, ethSVrt, ethSSidHi, ethSCtxEpochs, ethSDscp,
   ethDest, ethClassOui, ethPtpPort, ethPtpDomain, ethPtpTransport, ethPtpDelay,
   ethPtpAsym]
/-! ### JES settings (R586) -/
/-- JES.S_EN (R586). -/
def jesSEn : Field :=
  { block := 0x11, id := 0x0100, stride := 32, count := 2, width := 1, lo := 0, hi := 1, dflt := 0,
    signed := false, apply := .acqRestart, side := .sealed, pkg := false }
/-- JES.S_STD (R586). -/
def jesSStd : Field :=
  { block := 0x11, id := 0x0101, stride := 32, count := 2, width := 1, lo := 0, hi := 1, dflt := 1,
    signed := false, apply := .acqRestart, side := .sealed, pkg := false }
/-- JES.S_FIRST_LANE (R586). -/
def jesSFirstLane : Field :=
  { block := 0x11, id := 0x0102, stride := 32, count := 2, width := 3, lo := 0, hi := 7, dflt := 0,
    signed := false, apply := .acqRestart, side := .sealed, pkg := false }
/-- JES.S_LANES (R586). -/
def jesSLanes : Field :=
  { block := 0x11, id := 0x0103, stride := 32, count := 2, width := 4, lo := 1, hi := 8, dflt := 4,
    signed := false, apply := .acqRestart, side := .sealed, pkg := false, kind := .lanes1248 }
/-- JES.S_RATE_KHZ (R586). -/
def jesSRateKhz : Field :=
  { block := 0x11, id := 0x0104, stride := 32, count := 2, width := 25, lo := 1000, hi := 20480000, dflt := 1000000,
    signed := false, apply := .acqRestart, side := .sealed, pkg := false }
/-- JES.S_COMPLEX (R586). -/
def jesSComplex : Field :=
  { block := 0x11, id := 0x0105, stride := 32, count := 2, width := 1, lo := 0, hi := 1, dflt := 1,
    signed := false, apply := .acqRestart, side := .sealed, pkg := false }
/-- JES.S_NP (R586). -/
def jesSNp : Field :=
  { block := 0x11, id := 0x0106, stride := 32, count := 2, width := 5, lo := 12, hi := 16, dflt := 16,
    signed := false, apply := .acqRestart, side := .sealed, pkg := false, kind := .np }
/-- JES.S_N (R586). -/
def jesSN : Field :=
  { block := 0x11, id := 0x0107, stride := 32, count := 2, width := 5, lo := 8, hi := 16, dflt := 16,
    signed := false, apply := .acqRestart, side := .sealed, pkg := false }
/-- JES.S_S (R586). -/
def jesSS : Field :=
  { block := 0x11, id := 0x0108, stride := 32, count := 2, width := 5, lo := 1, hi := 16, dflt := 1,
    signed := false, apply := .acqRestart, side := .sealed, pkg := false }
/-- JES.S_K (R586). -/
def jesSK : Field :=
  { block := 0x11, id := 0x0109, stride := 32, count := 2, width := 6, lo := 1, hi := 32, dflt := 32,
    signed := false, apply := .acqRestart, side := .sealed, pkg := false }
/-- JES.S_E (R586). -/
def jesSE : Field :=
  { block := 0x11, id := 0x010A, stride := 32, count := 2, width := 5, lo := 1, hi := 16, dflt := 1,
    signed := false, apply := .acqRestart, side := .sealed, pkg := false }
/-- JES.S_SCR (R586). -/
def jesSScr : Field :=
  { block := 0x11, id := 0x010B, stride := 32, count := 2, width := 1, lo := 0, hi := 1, dflt := 1,
    signed := false, apply := .acqRestart, side := .sealed, pkg := false }
/-- JES.S_RBD (R586). -/
def jesSRbd : Field :=
  { block := 0x11, id := 0x010C, stride := 32, count := 2, width := 6, lo := 0, hi := 63, dflt := 16,
    signed := false, apply := .acqRestart, side := .sealed, pkg := false }
/-- JES.S_LINK_PERIODS (R586). -/
def jesSLinkPeriods : Field :=
  { block := 0x11, id := 0x010D, stride := 32, count := 2, width := 4, lo := 0, hi := 15, dflt := 2,
    signed := false, apply := .acqRestart, side := .sealed, pkg := false }
/-- JES.S_SYSREF_SRC (R586). -/
def jesSSysrefSrc : Field :=
  { block := 0x11, id := 0x010E, stride := 32, count := 2, width := 1, lo := 0, hi := 1, dflt := 0,
    signed := false, apply := .acqRestart, side := .sealed, pkg := false }
/-- JES.S_SYSREF_MODE (R586). -/
def jesSSysrefMode : Field :=
  { block := 0x11, id := 0x010F, stride := 32, count := 2, width := 1, lo := 0, hi := 1, dflt := 0,
    signed := false, apply := .acqRestart, side := .sealed, pkg := false }
/-- JES.S_SYSREF_SKEW (R586). -/
def jesSSysrefSkew : Field :=
  { block := 0x11, id := 0x0110, stride := 32, count := 2, width := 32, lo := (-2147483647), hi := 2147483647, dflt := 0,
    signed := true, apply := .acqRestart, side := .sealed, pkg := false }
/-- JES.SYSREF_EDGE (R586). -/
def jesSysrefEdge : Field :=
  { block := 0x11, id := 0x0001, stride := 0, count := 1, width := 1, lo := 0, hi := 1, dflt := 0,
    signed := false, apply := .acqRestart, side := .sealed, pkg := false }
/-- Every JES field. -/
def jesFields : List Field :=
  [jesSEn, jesSStd, jesSFirstLane, jesSLanes, jesSRateKhz, jesSComplex,
   jesSNp, jesSN, jesSS, jesSK, jesSE, jesSScr,
   jesSRbd, jesSLinkPeriods, jesSSysrefSrc, jesSSysrefMode, jesSSysrefSkew, jesSysrefEdge]
/-! ### LNL settings (R621) -/
/-- LNL.SHOAL_SIZE (R621). -/
def lnlShoalSize : Field :=
  { block := 0x12, id := 0x0001, stride := 0, count := 1, width := 3, lo := 1, hi := 4, dflt := 1,
    signed := false, apply := .imageRestart, side := .shoal, pkg := true }
/-- LNL.PACKAGE (R621). -/
def lnlPackage : Field :=
  { block := 0x12, id := 0x0002, stride := 0, count := 1, width := 2, lo := 0, hi := 3, dflt := 0,
    signed := false, apply := .imageRestart, side := .shoal, pkg := true }
/-- LNL.LINK_BAY (R621). -/
def lnlLinkBay : Field :=
  { block := 0x12, id := 0x0003, stride := 0, count := 1, width := 3, lo := 0, hi := 7, dflt := 0,
    signed := false, apply := .imageRestart, side := .shoal, pkg := true, kind := .bay }
/-- LNL.LINK_QUAD (R621). -/
def lnlLinkQuad : Field :=
  { block := 0x12, id := 0x0004, stride := 1, count := 2, width := 3, lo := 0, hi := 5, dflt := 2,
    signed := false, apply := .imageRestart, side := .shoal, pkg := true, dflts := [2, 3] }
/-- LNL.LINK_WIDTH (R621). -/
def lnlLinkWidth : Field :=
  { block := 0x12, id := 0x0006, stride := 1, count := 2, width := 2, lo := 0, hi := 2, dflt := 0,
    signed := false, apply := .imageRestart, side := .shoal, pkg := true }
/-- LNL.REJOIN_QUEUE (R621). -/
def lnlRejoinQueue : Field :=
  { block := 0x12, id := 0x0010, stride := 0, count := 1, width := 8, lo := 0, hi := 255, dflt := 255,
    signed := false, apply := .imageRestart, side := .opened, pkg := true, kind := .queueOrNone }
/-- LNL.INJ_ACTION (R621). -/
def lnlInjAction : Field :=
  { block := 0x12, id := 0x0100, stride := 16, count := 5, width := 3, lo := 0, hi := 4, dflt := 0,
    signed := false, apply := .immediate, side := .opened, pkg := false }
/-- LNL.INJ_CLASS (R621). -/
def lnlInjClass : Field :=
  { block := 0x12, id := 0x0101, stride := 16, count := 5, width := 2, lo := 1, hi := 3, dflt := 1,
    signed := false, apply := .immediate, side := .opened, pkg := false }
/-- LNL.INJ_MODE (R621). -/
def lnlInjMode : Field :=
  { block := 0x12, id := 0x0102, stride := 16, count := 5, width := 1, lo := 0, hi := 1, dflt := 0,
    signed := false, apply := .immediate, side := .opened, pkg := false }
/-- LNL.INJ_RATE (R621). -/
def lnlInjRate : Field :=
  { block := 0x12, id := 0x0103, stride := 16, count := 5, width := 20, lo := 1, hi := 1000000, dflt := 1000,
    signed := false, apply := .immediate, side := .opened, pkg := false }
/-- LNL.INJ_SEED (R621). -/
def lnlInjSeed : Field :=
  { block := 0x12, id := 0x0104, stride := 16, count := 5, width := 31, lo := 1, hi := 2147483647, dflt := 1,
    signed := false, apply := .immediate, side := .opened, pkg := false }
/-- LNL.INJ_PATTERN (R621). -/
def lnlInjPattern : Field :=
  { block := 0x12, id := 0x0105, stride := 16, count := 5, width := 32, lo := 0, hi := 4294967295, dflt := 1,
    signed := false, apply := .immediate, side := .opened, pkg := false }
/-- LNL.INJ_WINDOW (R621). -/
def lnlInjWindow : Field :=
  { block := 0x12, id := 0x0106, stride := 16, count := 5, width := 5, lo := 2, hi := 16, dflt := 4,
    signed := false, apply := .immediate, side := .opened, pkg := false }
/-- LNL.INJ_DELAY (R621). -/
def lnlInjDelay : Field :=
  { block := 0x12, id := 0x0107, stride := 16, count := 5, width := 17, lo := 1, hi := 100000, dflt := 1000,
    signed := false, apply := .immediate, side := .opened, pkg := false }
/-- Every LNL field. -/
def lnlFields : List Field :=
  [lnlShoalSize, lnlPackage, lnlLinkBay, lnlLinkQuad, lnlLinkWidth, lnlRejoinQueue,
   lnlInjAction, lnlInjClass, lnlInjMode, lnlInjRate, lnlInjSeed, lnlInjPattern,
   lnlInjWindow, lnlInjDelay]
/-! ### SEAL settings (R654) -/
/-- SEAL.METROLOGY (R654). -/
def sealMetrology : Field :=
  { block := 0x13, id := 0x0001, stride := 0, count := 1, width := 1, lo := 0, hi := 1, dflt := 0,
    signed := false, apply := .imageRestart, side := .sealed, pkg := true }
/-- SEAL.MAC_KEY (R654). -/
def sealMacKey : Field :=
  { block := 0x13, id := 0x0002, stride := 0, count := 1, width := 2, lo := 0, hi := 3, dflt := 0,
    signed := false, apply := .imageRestart, side := .sealed, pkg := true }
/-- SEAL.TAMP_MODE (R654). -/
def sealTampMode : Field :=
  { block := 0x13, id := 0x0010, stride := 1, count := 2, width := 2, lo := 0, hi := 2, dflt := 0,
    signed := false, apply := .imageRestart, side := .sealed, pkg := true }
/-- SEAL.LOG_QUEUE (R654). -/
def sealLogQueue : Field :=
  { block := 0x13, id := 0x0020, stride := 0, count := 1, width := 8, lo := 0, hi := 255, dflt := 255,
    signed := false, apply := .imageRestart, side := .sealed, pkg := true, kind := .queueOrNone }
/-- SEAL.RTC_FOLLOW (R654). -/
def sealRtcFollow : Field :=
  { block := 0x13, id := 0x0030, stride := 0, count := 1, width := 1, lo := 0, hi := 1, dflt := 1,
    signed := false, apply := .imageRestart, side := .sealed, pkg := true }
/-- Every SEAL field. -/
def sealFields : List Field :=
  [sealMetrology, sealMacKey, sealTampMode, sealLogQueue, sealRtcFollow]
/-! ### CAL settings (R676) -/
/-- CAL.DELTA_T (R676). -/
def calDeltaT : Field :=
  { block := 0x14, id := 0x0001, stride := 0, count := 1, width := 9, lo := 10, hi := 500, dflt := 75,
    signed := false, apply := .immediate, side := .sealed, pkg := false }
/-- CAL.MAX_INTERVAL (R676). -/
def calMaxInterval : Field :=
  { block := 0x14, id := 0x0002, stride := 0, count := 1, width := 17, lo := 0, hi := 86400, dflt := 3600,
    signed := false, apply := .immediate, side := .sealed, pkg := false, kind := .calInterval }
/-- CAL.MAX_DEFER (R676). -/
def calMaxDefer : Field :=
  { block := 0x14, id := 0x0003, stride := 0, count := 1, width := 20, lo := 0, hi := 600000, dflt := 10000,
    signed := false, apply := .immediate, side := .sealed, pkg := false }
/-- CAL.AGREE_RMS (R676). -/
def calAgreeRms : Field :=
  { block := 0x14, id := 0x0004, stride := 0, count := 1, width := 8, lo := 1, hi := 100, dflt := 40,
    signed := false, apply := .imageRestart, side := .sealed, pkg := false }
/-- CAL.AGREE_PEAK (R676). -/
def calAgreePeak : Field :=
  { block := 0x14, id := 0x0005, stride := 0, count := 1, width := 10, lo := 1, hi := 1000, dflt := 200,
    signed := false, apply := .imageRestart, side := .sealed, pkg := false }
/-- CAL.RETRY (R676). -/
def calRetry : Field :=
  { block := 0x14, id := 0x0006, stride := 0, count := 1, width := 12, lo := 1, hi := 3600, dflt := 10,
    signed := false, apply := .immediate, side := .sealed, pkg := false }
/-- CAL.RETRY_MAX_LOG2 (R676). -/
def calRetryMaxLog2 : Field :=
  { block := 0x14, id := 0x0007, stride := 0, count := 1, width := 3, lo := 0, hi := 7, dflt := 4,
    signed := false, apply := .immediate, side := .sealed, pkg := false }
/-- CAL.RUN_REQ (R676). -/
def calRunReq : Field :=
  { block := 0x14, id := 0x0008, stride := 0, count := 1, width := 16, lo := 0, hi := 65535, dflt := 0,
    signed := false, apply := .immediate, side := .sealed, pkg := false }
/-- CAL.AUTO (R676). -/
def calAuto : Field :=
  { block := 0x14, id := 0x0009, stride := 0, count := 1, width := 2, lo := 0, hi := 3, dflt := 3,
    signed := false, apply := .immediate, side := .sealed, pkg := false }
/-- CAL.QUEUE (R676). -/
def calQueue : Field :=
  { block := 0x14, id := 0x0010, stride := 0, count := 1, width := 8, lo := 0, hi := 255, dflt := 255,
    signed := false, apply := .imageRestart, side := .sealed, pkg := false, kind := .queueOrNone }
/-- Every CAL field. -/
def calFields : List Field :=
  [calDeltaT, calMaxInterval, calMaxDefer, calAgreeRms, calAgreePeak, calRetry,
   calRetryMaxLog2, calRunReq, calAuto, calQueue]
/-! ### HKC settings (R693) -/
/-- HKC.SLOTS (R693). -/
def hkcSlots : Field :=
  { block := 0x15, id := 0x0001, stride := 1, count := 2, width := 6, lo := 1, hi := 32, dflt := 24,
    signed := false, apply := .epoch, side := .opened, pkg := false }
/-- HKC.DISAGREE_TOL (R693). -/
def hkcDisagreeTol : Field :=
  { block := 0x15, id := 0x0010, stride := 0, count := 1, width := 10, lo := 1, hi := 1000, dflt := 50,
    signed := false, apply := .immediate, side := .opened, pkg := false }
/-- HKC.A_SLOT (R693). -/
def hkcASlot : Field :=
  { block := 0x15, id := 0x0100, stride := 1, count := 32, width := 5, lo := 0, hi := 24, dflt := 0,
    signed := false, apply := .epoch, side := .opened, pkg := false, dflts := slotDefaults }
/-- HKC.B_SLOT (R693). -/
def hkcBSlot : Field :=
  { block := 0x15, id := 0x0140, stride := 1, count := 32, width := 5, lo := 0, hi := 24, dflt := 0,
    signed := false, apply := .epoch, side := .opened, pkg := false, dflts := slotDefaults }
/-- HKC.CH_AVG_LOG2 (R693). -/
def hkcChAvgLog2 : Field :=
  { block := 0x15, id := 0x0200, stride := 1, count := 25, width := 4, lo := 1, hi := 8, dflt := 4,
    signed := false, apply := .epoch, side := .opened, pkg := false }
/-- HKC.CH_SHIFT (R693). -/
def hkcChShift : Field :=
  { block := 0x15, id := 0x0220, stride := 1, count := 25, width := 4, lo := 0, hi := 8, dflt := 4,
    signed := false, apply := .epoch, side := .opened, pkg := false }
/-- HKC.REF_FACTORY (R693). -/
def hkcRefFactory : Field :=
  { block := 0x15, id := 0x0300, stride := 0, count := 1, width := 16, lo := 0, hi := 65535, dflt := 31457,
    signed := false, apply := .imageRestart, side := .sealed, pkg := false }
/-- HKC.CORR (R693). -/
def hkcCorr : Field :=
  { block := 0x15, id := 0x8001, stride := 0, count := 1, width := 32, lo := 0, hi := 4294967295, dflt := 0,
    signed := false, apply := .imageRestart, side := .sealed, pkg := false, len := 16, kind := .array }
/-- Every HKC field. -/
def hkcFields : List Field :=
  [hkcSlots, hkcDisagreeTol, hkcASlot, hkcBSlot, hkcChAvgLog2, hkcChShift,
   hkcRefFactory, hkcCorr]
/-! ### AUX settings (R710) -/
/-- AUX.CH_EN (R710). -/
def auxChEn : Field :=
  { block := 0x16, id := 0x0100, stride := 16, count := 4, width := 1, lo := 0, hi := 1, dflt := 1,
    signed := false, apply := .imageRestart, side := .opened, pkg := false }
/-- AUX.CH_CODE (R710). -/
def auxChCode : Field :=
  { block := 0x16, id := 0x0101, stride := 16, count := 4, width := 16, lo := 0, hi := 65535, dflt := 0,
    signed := false, apply := .immediate, side := .opened, pkg := false }
/-- AUX.CH_CLEAR (R710). -/
def auxChClear : Field :=
  { block := 0x16, id := 0x0102, stride := 16, count := 4, width := 16, lo := 0, hi := 65535, dflt := 0,
    signed := false, apply := .imageRestart, side := .opened, pkg := false }
/-- AUX.CH_CLEAR_ON (R710). -/
def auxChClearOn : Field :=
  { block := 0x16, id := 0x0103, stride := 16, count := 4, width := 3, lo := 0, hi := 7, dflt := 7,
    signed := false, apply := .imageRestart, side := .opened, pkg := false }
/-- Every AUX field. -/
def auxFields : List Field :=
  [auxChEn, auxChCode, auxChClear, auxChClearOn]
/-! ### PWR settings (R733) -/
/-- PWR.START_STATE (R733). -/
def pwrStartState : Field :=
  { block := 0x17, id := 0x0001, stride := 0, count := 1, width := 2, lo := 0, hi := 2, dflt := 0,
    signed := false, apply := .imageRestart, side := .opened, pkg := true }
/-- PWR.WATCH_BAYS (R733). -/
def pwrWatchBays : Field :=
  { block := 0x17, id := 0x0002, stride := 0, count := 1, width := 8, lo := 0, hi := 255, dflt := 1,
    signed := false, apply := .immediate, side := .opened, pkg := true }
/-- PWR.DRAIN_MS (R733). -/
def pwrDrainMs : Field :=
  { block := 0x17, id := 0x0003, stride := 0, count := 1, width := 14, lo := 1, hi := 10000, dflt := 100,
    signed := false, apply := .immediate, side := .opened, pkg := true }
/-- PWR.WAKE_EN (R733). -/
def pwrWakeEn : Field :=
  { block := 0x17, id := 0x0004, stride := 0, count := 1, width := 4, lo := 0, hi := 15, dflt := 15,
    signed := false, apply := .immediate, side := .opened, pkg := true }
/-- PWR.DET_WAKE (R733). -/
def pwrDetWake : Field :=
  { block := 0x17, id := 0x0005, stride := 0, count := 1, width := 2, lo := 0, hi := 3, dflt := 0,
    signed := false, apply := .immediate, side := .opened, pkg := false }
/-- PWR.WATCH_BLOCK_LOG2 (R733). -/
def pwrWatchBlockLog2 : Field :=
  { block := 0x17, id := 0x0010, stride := 0, count := 1, width := 5, lo := 6, hi := 16, dflt := 10,
    signed := false, apply := .immediate, side := .opened, pkg := false }
/-- PWR.WATCH_LEVEL (R733). -/
def pwrWatchLevel : Field :=
  { block := 0x17, id := 0x0011, stride := 0, count := 1, width := 16, lo := (-32767), hi := 32767, dflt := (-5120),
    signed := true, apply := .immediate, side := .opened, pkg := false }
/-- PWR.WATCH_COUNT (R733). -/
def pwrWatchCount : Field :=
  { block := 0x17, id := 0x0012, stride := 0, count := 1, width := 8, lo := 1, hi := 255, dflt := 2,
    signed := false, apply := .immediate, side := .opened, pkg := false }
/-- PWR.CORE_EBB (R733). -/
def pwrCoreEbb : Field :=
  { block := 0x17, id := 0x0020, stride := 0, count := 1, width := 8, lo := 0, hi := 255, dflt := 0,
    signed := false, apply := .immediate, side := .opened, pkg := false }
/-- PWR.CORE_IDLE_US (R733). -/
def pwrCoreIdleUs : Field :=
  { block := 0x17, id := 0x0021, stride := 0, count := 1, width := 16, lo := 1, hi := 65535, dflt := 100,
    signed := false, apply := .immediate, side := .opened, pkg := false }
/-- Every PWR field. -/
def pwrFields : List Field :=
  [pwrStartState, pwrWatchBays, pwrDrainMs, pwrWakeEn, pwrDetWake, pwrWatchBlockLog2,
   pwrWatchLevel, pwrWatchCount, pwrCoreEbb, pwrCoreIdleUs]
/-! ### MON settings (R754) -/
/-- MON.EN (R754). -/
def monEn : Field :=
  { block := 0x18, id := 0x0100, stride := 16, count := 16, width := 1, lo := 0, hi := 1, dflt := 0,
    signed := false, apply := .epoch, side := .opened, pkg := false }
/-- MON.QUANTITY (R754). -/
def monQuantity : Field :=
  { block := 0x18, id := 0x0101, stride := 16, count := 16, width := 3, lo := 0, hi := 6, dflt := 1,
    signed := false, apply := .epoch, side := .opened, pkg := false }
/-- MON.OBJECT (R754). -/
def monObject : Field :=
  { block := 0x18, id := 0x0102, stride := 16, count := 16, width := 8, lo := 0, hi := 255, dflt := 0,
    signed := false, apply := .epoch, side := .opened, pkg := false }
/-- MON.PAIR (R754). -/
def monPair : Field :=
  { block := 0x18, id := 0x0103, stride := 16, count := 16, width := 3, lo := 0, hi := 3, dflt := 0,
    signed := false, apply := .epoch, side := .opened, pkg := false }
/-- MON.BIN_MODE (R754). -/
def monBinMode : Field :=
  { block := 0x18, id := 0x0104, stride := 16, count := 16, width := 1, lo := 0, hi := 1, dflt := 0,
    signed := false, apply := .epoch, side := .opened, pkg := false }
/-- MON.LO (R754). -/
def monLo : Field :=
  { block := 0x18, id := 0x0105, stride := 16, count := 16, width := 32, lo := (-2147483648), hi := 2147483647, dflt := 0,
    signed := true, apply := .epoch, side := .opened, pkg := false }
/-- MON.WIDTH (R754). -/
def monWidth : Field :=
  { block := 0x18, id := 0x0106, stride := 16, count := 16, width := 31, lo := 1, hi := 2147483647, dflt := 1,
    signed := false, apply := .epoch, side := .opened, pkg := false }
/-- MON.EMIT (R754). -/
def monEmit : Field :=
  { block := 0x18, id := 0x0107, stride := 16, count := 16, width := 2, lo := 0, hi := 3, dflt := 1,
    signed := false, apply := .epoch, side := .opened, pkg := false }
/-- MON.CUMULATIVE (R754). -/
def monCumulative : Field :=
  { block := 0x18, id := 0x0108, stride := 16, count := 16, width := 1, lo := 0, hi := 1, dflt := 0,
    signed := false, apply := .epoch, side := .opened, pkg := false }
/-- MON.QUEUE (R754). -/
def monQueue : Field :=
  { block := 0x18, id := 0x0109, stride := 16, count := 16, width := 7, lo := 0, hi := 127, dflt := 0,
    signed := false, apply := .epoch, side := .opened, pkg := false, kind := .queue }
/-- MON.HIGH (R754). -/
def monHigh : Field :=
  { block := 0x18, id := 0x010A, stride := 16, count := 16, width := 32, lo := (-2147483648), hi := 2147483647, dflt := 2147483647,
    signed := true, apply := .immediate, side := .opened, pkg := false }
/-- MON.LOW (R754). -/
def monLow : Field :=
  { block := 0x18, id := 0x010B, stride := 16, count := 16, width := 32, lo := (-2147483648), hi := 2147483647, dflt := (-2147483648),
    signed := true, apply := .immediate, side := .opened, pkg := false }
/-- MON.LIMIT_EN (R754). -/
def monLimitEn : Field :=
  { block := 0x18, id := 0x010C, stride := 16, count := 16, width := 2, lo := 0, hi := 3, dflt := 0,
    signed := false, apply := .immediate, side := .opened, pkg := false }
/-- Every MON field. -/
def monFields : List Field :=
  [monEn, monQuantity, monObject, monPair, monBinMode, monLo,
   monWidth, monEmit, monCumulative, monQueue, monHigh, monLow,
   monLimitEn]
/-! ### INJ settings (R755) -/
/-- INJ.ENABLE (R755). -/
def injEnable : Field :=
  { block := 0x19, id := 0x0001, stride := 0, count := 1, width := 1, lo := 0, hi := 1, dflt := 0,
    signed := false, apply := .imageRestart, side := .opened, pkg := true }
/-- INJ.ACTION (R755). -/
def injAction : Field :=
  { block := 0x19, id := 0x0100, stride := 16, count := 64, width := 3, lo := 0, hi := 4, dflt := 0,
    signed := false, apply := .immediate, side := .opened, pkg := true }
/-- INJ.MODE (R755). -/
def injMode : Field :=
  { block := 0x19, id := 0x0101, stride := 16, count := 64, width := 1, lo := 0, hi := 1, dflt := 0,
    signed := false, apply := .immediate, side := .opened, pkg := true }
/-- INJ.RATE (R755). -/
def injRate : Field :=
  { block := 0x19, id := 0x0102, stride := 16, count := 64, width := 20, lo := 1, hi := 1000000, dflt := 1000,
    signed := false, apply := .immediate, side := .opened, pkg := true }
/-- INJ.SEED (R755). -/
def injSeed : Field :=
  { block := 0x19, id := 0x0103, stride := 16, count := 64, width := 31, lo := 1, hi := 2147483647, dflt := 1,
    signed := false, apply := .immediate, side := .opened, pkg := true }
/-- INJ.PATTERN (R755). -/
def injPattern : Field :=
  { block := 0x19, id := 0x0104, stride := 16, count := 64, width := 32, lo := 0, hi := 4294967295, dflt := 1,
    signed := false, apply := .immediate, side := .opened, pkg := true }
/-- INJ.WINDOW (R755). -/
def injWindow : Field :=
  { block := 0x19, id := 0x0105, stride := 16, count := 64, width := 5, lo := 2, hi := 16, dflt := 4,
    signed := false, apply := .immediate, side := .opened, pkg := true }
/-- INJ.DELAY (R755). -/
def injDelay : Field :=
  { block := 0x19, id := 0x0106, stride := 16, count := 64, width := 17, lo := 1, hi := 100000, dflt := 1000,
    signed := false, apply := .immediate, side := .opened, pkg := true }
/-- Every INJ field. -/
def injFields : List Field :=
  [injEnable, injAction, injMode, injRate, injSeed, injPattern,
   injWindow, injDelay]
/-- Every setting field of the part. -/
def all : List Field :=
  imgFields ++ clkFields ++ tbsFields ++ afeFields ++ adcFields ++ ddcFields ++
  xfmFields ++ trgFields ++ denFields ++ scnFields ++ mcoFields ++ queFields ++
  dmaFields ++ recFields ++ lneFields ++ pciFields ++ ethFields ++ jesFields ++
  lnlFields ++ sealFields ++ calFields ++ hkcFields ++ auxFields ++ pwrFields ++
  monFields ++ injFields

end Sys2Proof.Machine.Fld
end

