-- ==== Sys2Proof/Config.lean ====
section
/-! DEFINITION. What one part fixes and the spec does not print (R634, R766), and the free values: constants
without a body, so that nothing can be proved about the number they hold. -/
namespace Sys2Proof.Config

/-- The free value number `n` (log entry 2): used where the spec leaves a value open. The step that takes
one reads and advances the plain counter `State.fresh`. -/
opaque freeValue : Nat → BitVec 128

/-- K_dev, the device key (R634): unique to each part, readable by nothing. -/
opaque deviceKey : BitVec 256

/-- The package serial number (R766). -/
opaque serial : BitVec 64

/-- The die identifier of a bay (R766). -/
opaque dieId : BayNo → BitVec 64

/-- The stepping, boot ROM and register map versions (R766). -/
opaque stepping : Word

/-- Factory data of the part that settings never print: a pin-to-TDC delay per bay and pin, in units of
2^-64 s (R137). -/
opaque pinDelay : BayNo → Nat → Nat

/-- What the servo's loop, of a bandwidth code, makes of an offset in units of 2^-64 s at a steering in 10^-12: a steering in 10^-12
(R149, log entry 8). -/
opaque servoLoop : Nat → Int → Int → Int

/-- Factory data of the part (R144): the asymmetry correction of a die-to-die port, per bay and port, in units of 0.25 ps. -/
opaque portAsym : BayNo → Nat → Int

/-- Factory data of the part (R117): the deskew of a converter's clock, in units of 1/327.68 GHz, per bay and converter. -/
opaque adcDeskew : BayNo → Nat → Int

/-- The manufacturer identity that a test access port shows (R795). -/
opaque manufacturer : BitVec 11

/-- Factory data of the part (R137, R170): the delay of the front end, per bay, input and step attenuation, in units of 2^-64 s. -/
opaque frontDelay : BayNo → Nat → Nat → Int

/-- The pipeline delay of a converter in its own periods, for each code of CLK.F_ADC (R137). -/
opaque pipeline : Nat → Nat

/-- Factory data of the part (R574): the delay of an Ethernet port's PCS and FEC path in units of 2^-64 s, by rate code, FEC code
and direction (1 receive). -/
opaque pcsDelay : Nat → Nat → Nat → Int

/-- Factory data of the part (R176): the delay of the overload detector of an input, in units of 2^-64 s. -/
opaque detectorDelay : BayNo → Nat → Nat

/-- The impulse response of a port's decimation filter, which the spec bounds and does not print (R223, R224): bay, port, preset,
decimation and tap, in units of 2^-32. -/
opaque tap : BayNo → Nat → Nat → Nat → Nat → Int

/-- Factory data of the part (R256, R660): the response of an input's path by bay, input, step and trim, as points of a frequency in
Hz and a response in 10^-6 dB, frequencies rising. -/
opaque pathTable : BayNo → Nat → Nat → Nat → List (Nat × Int)

/-- Factory data of the part (R92, R205): the coefficients of a slice, by bay, input, slice and which of the four. -/
opaque sliceFactory : BayNo → Nat → Nat → Nat → Int

/-- Factory data of the part (R194, R195): the expected level of a comb tone at the injection point in 10^-6 dBm, by bay, input and
calibration tone. -/
opaque combTone : BayNo → Nat → Nat → Int

/-- Factory data of the part (R194): the total power in 0.001 dBm that a code of the comb detector's channel stands for, by bay. -/
opaque combCurve : BayNo → Nat → Int

/-- Factory data of the part (R195): the total power of the comb of an input in 0.001 dBm, by bay and input. -/
opaque combFactory : BayNo → Nat → Int

/-- Factory data of the part (R197): the pin level in 1/128 dBm that a code of an input's power detector stands for, by bay and input. -/
opaque detCurve : BayNo → Nat → Nat → Int

/-- Factory data of the part (R199): the zone table of a slice in 1/128 dB, by bay, input, slice and Nyquist zone. -/
opaque zoneTable : BayNo → Nat → Nat → Nat → Int

/-- A word that a register or an event shows and the spec does not state, by a number of the model's own (log entry 12). -/
opaque unstated : Nat → Nat → BitVec 32

end Sys2Proof.Config
end

