-- ==== Sys2Proof/Machine/St/AuxDac.lean ====
section
/-! DEFINITION. Auxiliary DACs (20_auxiliary_dacs.md). -/
namespace Sys2Proof.Machine

/-- One output of a bay (R698 to R706): `code` is AUX_CODEn, `clear` the clear-code register of the DAC itself, `on` whether
the image loaded enables the channel. -/
structure AuxDac where
  code : BitVec 16
  clear : BitVec 16
  on : Bool
  deriving DecidableEq, Repr

def AuxDac.reset : AuxDac := { code := 0, clear := 0, on := true }

/-- The four outputs of a bay. `loaded` says that an image has reached the end of phase 7 (R700); `held` are the codes in force
since the bay was lost (R703); `told` that a clear condition has been reported or held from power-up (R704). -/
structure AuxBay where
  dacs : Vector AuxDac 4
  loaded : Bool
  held : Option (Vector (BitVec 16) 4)
  told : Bool
  compliance : Vector Bool 2
  complianceTold : Vector Bool 2
  complianceCount : Vector (BitVec 16) 2
  deriving DecidableEq, Repr

def AuxBay.reset : AuxBay :=
  { dacs := Vector.replicate 4 .reset, loaded := false, held := none, told := true, compliance := Vector.replicate 2 false
    complianceTold := Vector.replicate 2 false, complianceCount := Vector.replicate 2 0 }

end Sys2Proof.Machine
end

