-- ==== Sys2Proof/Machine/St/Den.lean ====
section
/-! DEFINITION. Density accumulator state (09_density_accumulator.md). -/
namespace Sys2Proof.Machine

/-- What a density frame records beside its counts (R352). `start` is that of the first epoch it spans. -/
structure FrameInfo where
  start : Stamp
  epochs : Nat
  counted : Nat
  excluded : Nat
  above : Nat
  below : Nat
  last : Option Spec
  mixed : Bool
  settling : Bool
  truncated : Bool
  overload : Bool
  gap : Bool
  restarted : Bool
  early : Bool
  /-- The mapping under which its spectra are counted. -/
  floor : Int
  rowStep : Nat
  clamp : Bool
  meanMode : Bool
  useMarked : Nat
  cols : Nat
  deriving DecidableEq, Repr

def FrameInfo.reset : FrameInfo :=
  { start := 0, epochs := 1, counted := 0, excluded := 0, above := 0, below := 0, last := none, mixed := false
    settling := false, truncated := false, overload := false, gap := false, restarted := true, early := false
    floor := -16384, rowStep := 32, clamp := false, meanMode := false, useMarked := 0, cols := 0 }

/-- The old bank between its swap and the end of its readout pass (R345, R346): `shift` is s, and `discard` says that
nothing is carried whatever s is (R347, R354, R356). -/
structure DenOld where
  info : FrameInfo
  cells : Sparse Word
  boundary : Stamp
  /-- The instant at which the bank closes (R345). -/
  close : Stamp
  shift : Nat
  discard : Bool
  passing : Bool
  deriving DecidableEq, Repr

/-- A completed frame: its counts and what goes with them. -/
structure DenFrame where
  info : FrameInfo
  cells : Sparse Word
  shift : Nat
  deriving DecidableEq, Repr

/-- The density grid of one channel. Cell (r, c) has key 1024 r + c. -/
structure DenChan where
  enabled : Bool
  bankB : Bool
  cells : Sparse Word
  info : FrameInfo
  old : Option DenOld
  /-- The last completed frame, offered to scan-out. -/
  frame : Option DenFrame
  frames : Word
  drops : Word
  merged : Word
  saturated : Nat
  specs : Word
  /-- DEN_CLEAR has asked for the carry of the next swap to be discarded (R356). -/
  clearAsked : Bool
  dropTold : Bool
  mergeTold : Bool
  satTold : Bool
  deriving DecidableEq, Repr

def DenChan.reset : DenChan :=
  { enabled := false, bankB := false, cells := [], info := .reset, old := none, frame := none, frames := 0, drops := 0
    merged := 0, saturated := 0, specs := 0, clearAsked := false, dropTold := false, mergeTold := false, satTold := false }

/-- The accumulator of a bay. -/
structure DenBay where
  chans : Vector DenChan 2
  deriving DecidableEq, Repr

def DenBay.reset : DenBay := { chans := Vector.replicate 2 .reset }

end Sys2Proof.Machine
end

