-- ==== Sys2Proof/Machine/St/Fault.lean ====
section
/-! DEFINITION. The headland's record of tolerated faults (R744 to R747, R756). -/
namespace Sys2Proof.Machine

/-- A fault: its code (MON_FAULT_LAST), its bay, and which member, link or core it concerns. -/
structure FaultId where
  code : Nat
  bay : BayNo
  part : Nat
  deriving DecidableEq, Repr

/-- A fault whose interruption has not ended. -/
structure OpenFault where
  id : FaultId
  since : Stamp
  concurrent : Bool
  deriving DecidableEq, Repr

/-- The MON_FAULT registers, the faults under way, and the redundancy faults have used up (R747). -/
structure FaultLog where
  handled : BitVec 16
  concurrent : BitVec 16
  longest : Nat
  last : Word
  opened : List OpenFault
  used : List FaultId
  deriving DecidableEq, Repr

def FaultLog.reset : FaultLog := { handled := 0, concurrent := 0, longest := 0, last := 0, opened := [], used := [] }

end Sys2Proof.Machine
end

