-- ==== Sys2Proof/Machine/St/Hkc.lean ====
section
/-! DEFINITION. Housekeeping converters (19_housekeeping_converters.md). -/
namespace Sys2Proof.Machine

/-- An average in progress: the sum, and how many conversions it holds. -/
structure HkAcc where
  sum : Nat
  count : Nat
  deriving DecidableEq, Repr

/-- A result register (R685, R688, R694). -/
structure HkResult where
  value : BitVec 24
  corrected : Bool
  update : BitVec 4
  deriving DecidableEq, Repr

/-- One converter: HK-A or HK-B (R682 to R691). `urgent` is the channel of the urgent conversion that runs; a request of the
calibration sequencer or of the overload logic may wait. -/
structure HkConv where
  slot : Nat
  /-- The grid slot of the conversion in progress, modulo 16, and whether a sealed slot has passed without its conversion (R683,
  R690). -/
  grid : BitVec 4
  due : Bool
  accs : Vector HkAcc 25
  results : Vector HkResult 25
  turn : Fin 4
  sealedAccs : Vector HkAcc 4
  sealedResults : Vector HkResult 4
  /-- The REF result of the latest rotation, until the other converter has one too (R689). -/
  ref : Option Nat
  urgent : Option Nat
  waitCal : Option Nat
  waitOvl : Option Nat
  /-- Urgent conversions since the last sealed conversion (R691). -/
  since : Nat
  urgentCode : BitVec 16
  urgentChan : Nat
  urgentCount : BitVec 8
  refused : BitVec 8
  refuseTold : Bool
  deriving DecidableEq, Repr

def HkAcc.reset : HkAcc := { sum := 0, count := 0 }
def HkResult.reset : HkResult := { value := 0, corrected := false, update := 0 }

def HkConv.reset : HkConv :=
  { slot := 0, grid := 0, due := false, accs := Vector.replicate 25 .reset, results := Vector.replicate 25 .reset, turn := 0
    sealedAccs := Vector.replicate 4 .reset, sealedResults := Vector.replicate 4 .reset, ref := none, urgent := none
    waitCal := none, waitOvl := none, since := 0, urgentCode := 0, urgentChan := 0, urgentCount := 0, refused := 0
    refuseTold := false }

/-- The converters of a bay and the REF comparison (R689, R694); `fe` gathers the sealed conversions of channels 0 and 1
in the current 100 ms interval and `feAt` says when the last one ended (R665, R688). -/
structure HkcBay where
  conv : Vector HkConv 2
  disagree : Bool
  sealedB : Bool
  fails : Nat
  passes : Nat
  refDiff : Int
  failCount : BitVec 16
  setCount : BitVec 16
  fe : Vector HkAcc 2
  feAt : Vector Stamp 2
  deriving DecidableEq, Repr

def HkcBay.reset : HkcBay :=
  { conv := Vector.replicate 2 .reset, disagree := false, sealedB := false, fails := 0, passes := 0, refDiff := 0, failCount := 0
    setCount := 0, fe := Vector.replicate 2 .reset, feAt := Vector.replicate 2 0 }

end Sys2Proof.Machine
end

