-- ==== Sys2Proof/Machine/St/Img.lean ====
section
/-! DEFINITION. Setup image, rings and start-up state (02_setup_image_and_startup.md). -/
namespace Sys2Proof.Machine

/-- One setting entry of an image: a scalar value, or an array run from index `first` (R41, R44). -/
structure SetEntry where
  key : Key
  array : Bool
  first : Nat
  vals : List Nat
  deriving DecidableEq, Repr

/-- A live declaration (R48). -/
structure LiveDecl where
  key : Key
  min : Int
  max : Int
  log : Bool
  signed : Bool
  deriving DecidableEq, Repr

/-- An item of CORE_CODE or TABLES (R50). -/
structure Item where
  code : Nat
  bays : Nat
  index : Nat
  body : List Byte
  deriving DecidableEq, Repr

/-- A profile body: its entries and its bytes (R47, R629). -/
structure Profile where
  entries : List SetEntry
  body : List Byte
  deriving DecidableEq, Repr

/-- A parsed image (R36 to R51). -/
structure Image where
  slot : Bool
  id : Word
  hash : List Byte
  sealedHash : List Byte
  /-- SHA-256 of the SHOAL payload (R605). -/
  shoalHash : List Byte
  signed : Bool
  keySlot : Nat
  sealed : List SetEntry
  opened : List SetEntry
  shoal : List SetEntry
  profiles : List (Option Profile)
  live : List LiveDecl
  items : List Item
  ignored : Nat
  deriving DecidableEq, Repr

/-- IMG_STATUS.STATE (R76). -/
inductive ImgState where
  | start | safe | ready | run
  deriving DecidableEq, Repr

/-- A host ring (R75, R77, R78). `base` and `sizeLog2` are in force while `enable` is set. -/
structure Ring where
  base : BitVec 64
  sizeLog2 : BitVec 4
  vector : BitVec 8
  irq : Bool
  enable : Bool
  tail : BitVec 12
  head : BitVec 12
  deriving DecidableEq, Repr

def Ring.reset : Ring :=
  { base := 0, sizeLog2 := 0, vector := 0, irq := false, enable := false, tail := 0, head := 0 }

/-- The operations of the flash queue (R81). -/
inductive FlashOp where
  | read | erase | program | sealRead
  deriving DecidableEq, Repr

/-- A flash command that waits or runs; it holds its event-ring slot (R81, R85). -/
structure FlashCmd where
  op : FlashOp
  tag : Word
  off : Nat
  len : Nat
  host : BitVec 64
  /-- The status found when the command was taken; 0 runs (R81). -/
  status : Nat
  /-- The stamp at which it was accepted (R83). -/
  taken : Stamp
  deriving DecidableEq, Repr

/-- Something accepted that waits for its apply point (R65, R66, R69, R70). -/
inductive Waiting where
  /-- A value under its key for the bays in `left`; `due` is the stamp an EPOCH boundary must reach; `watched` holds a
  retention-buffer slot (R628); `told` says its effect has been reported. -/
  | value (key : Key) (left : Nat) (v : Int) (apply : ApplyPoint) (due : Stamp) (watched told : Bool)
  /-- A profile change scheduled at `due`; `pins` says what asked for it (R629). -/
  | profile (p : Nat) (due : Stamp) (pins : Bool)
  deriving DecidableEq, Repr

/-- Start-up progress (R52, R53, R88). `tried` pairs each failed slot (true is B) with its check. -/
structure Boot where
  active : Bool
  phase : Nat
  order : List Bool
  tried : List (Bool × Nat)
  candidate : Option Image
  restart : Bool
  started : Bool
  deriving DecidableEq, Repr

def Boot.reset : Boot :=
  { active := false, phase := 0, order := [], tried := [], candidate := none, restart := false, started := false }

/-- The IMG block of the headland. -/
structure Img where
  state : ImgState
  boot : Boot
  image : Option Image
  quadRead : Bool
  profile : Nat
  pins : BitVec 4
  /-- A pin value seen, and for how many lagoon clocks; the last absent value reported (R73). -/
  absentTold : Option (BitVec 4)
  pinsTaken : BitVec 4
  /-- Bays whose acquisition restart has been asked for and has not begun (R66, R67). -/
  restartReq : Nat
  ignored : Nat
  refusal : List Word
  cmd : Ring
  evt : Ring
  /-- IMG_EVT_LOST, and the count the next EV_EVENT_LOST record will carry (R85). -/
  lost : Nat
  lostTold : Nat
  /-- Events go to the buffer: from power-up to the first enable, and in WATCH and STANDBY (R86, R719). -/
  buffering : Bool
  /-- The last 256 events, oldest first, and how many were dropped (R86). -/
  buffer : List Rec
  bufferDropped : Nat
  flashQueue : List FlashCmd
  waiting : List Waiting
  /-- Events raised since start-up, wrapping (GS_EVENTS, R767). -/
  events : Word
  deriving DecidableEq, Repr

def Img.reset : Img :=
  { state := .start, boot := .reset, image := none, quadRead := false, profile := 0, pins := 0, absentTold := none, pinsTaken := 0, restartReq := 0
    ignored := 0, refusal := List.replicate 8 0, cmd := .reset, evt := .reset, lost := 0, lostTold := 0
    buffering := true, buffer := [], bufferDropped := 0, flashQueue := [], waiting := [], events := 0 }

/-- The setup flash on the xSPI port (R33, R34): `density` in bytes; an unlisted byte is erased. -/
structure Flash where
  density : Nat
  eraseSize : Nat
  octal : Bool
  bytes : Sparse Byte
  deriving DecidableEq, Repr

end Sys2Proof.Machine
end

