-- ==== Sys2Proof/Machine/St/Lne.lean ====
section
/-! DEFINITION. Serial lanes (14_serial_lanes.md). -/
namespace Sys2Proof.Machine

/-- One direction of a lane (R544 to R546): awake, a wake or a sleep entry in progress, and a request that waits for it
(true is a wake). -/
structure LaneDir where
  awake : Bool
  waking : Bool
  entering : Bool
  queued : Option Bool
  deriving DecidableEq, Repr

def LaneDir.reset : LaneDir := { awake := false, waking := false, entering := false, queued := none }

/-- One lane (R525 to R551). `test` holds LNE_Lk_TEST [9:0]; `eqWord` is what a standard's training or a STEP bring-up
left in LNE_Lk_TX_EQ; `mark` and `rem` say from when, and with what part of a bit, BITS counts. -/
structure Lane where
  tx : LaneDir
  rx : LaneDir
  signal : Bool
  cdr : Bool
  chk : Bool
  setAside : Bool
  inPort : Bool
  test : BitVec 10
  /-- The directions the pattern logic has taken from a port (R543). -/
  txTaken : Bool
  rxTaken : Bool
  /-- When the receiver last locked: mode 1 adapts for 1 ms from then (R530). -/
  lockAt : Stamp
  err : Nat
  bits : Nat
  errLatch : Nat
  bitsLatch : Nat
  mark : Stamp
  rem : Nat
  eyeV : BitVec 8
  eyeH : BitVec 6
  eyeValid : Bool
  adapt : BitVec 20
  eqWord : Option Word
  cdrLosses : BitVec 16
  chkLosses : BitVec 16
  lockTold : Bool
  asideTold : Bool
  deriving DecidableEq, Repr

def Lane.reset : Lane :=
  { tx := .reset, rx := .reset, signal := false, cdr := false, chk := false, setAside := false, inPort := false, test := 0
    txTaken := false, rxTaken := false, lockAt := 0, err := 0, bits := 0, errLatch := 0, bitsLatch := 0, mark := 0, rem := 0, eyeV := 0
    eyeH := 0, eyeValid := false, adapt := 0, eqWord := none, cdrLosses := 0, chkLosses := 0, lockTold := false
    asideTold := false }

/-- The lanes of a bay. -/
structure LneBay where
  lanes : Vector Lane 24
  deriving DecidableEq, Repr

def LneBay.reset : LneBay := { lanes := Vector.replicate 24 .reset }

end Sys2Proof.Machine
end

