-- ==== Sys2Proof/Machine/St/Lnl.lean ====
section
/-! DEFINITION. Lanil links, routes, islands and injectors (16_lanil_fabric.md; the injectors of R750 share the type). -/
namespace Sys2Proof.Machine

/-- The flit level of a fabric port or external link (R590 to R597, R622, R624). `unacked` counts the flits in the replay
buffer. -/
structure LinkPort where
  up : Bool
  modules : BitVec 4
  congested : Bool
  congTold : Bool
  replays : BitVec 16
  downs : BitVec 16
  /-- Replays that have failed in a row. -/
  streak : Nat
  expect : BitVec 12
  sendSeq : BitVec 12
  unacked : Nat
  /-- When a port that is down next retrains (R591). -/
  retrainAt : Stamp
  /-- The one-way delay last measured by round trip, in units of 0.25 ps (R144). -/
  delay : Nat
  deriving DecidableEq, Repr

def LinkPort.reset : LinkPort :=
  { up := false, modules := 0, congested := false, congTold := false, replays := 0, downs := 0, streak := 0, expect := 0
    sendSeq := 0, unacked := 0, retrainAt := 0, delay := 0 }

/-- A packet that an injector holds: a record for a queue or a stream, or a fire for a unit. -/
inductive HeldPacket where
  | data (dst : Nat) (r : Rec)
  | fire (b : BayNo) (u : Fin 8) (f : Fire)
  deriving DecidableEq, Repr

/-- A held packet: how many further packets pass it (R618 action 3), or when it is sent (action 4). -/
structure Held where
  packet : HeldPacket
  left : Nat
  due : Option Stamp
  deriving DecidableEq, Repr

/-- An injector (R618 to R620, R750 to R752): packets or records seen since the last change of its settings, actions,
whether its event has been raised since that change, and what it holds. -/
structure Injector where
  index : Nat
  count : Word
  told : Bool
  held : List Held
  deriving DecidableEq, Repr

def Injector.reset : Injector := { index := 0, count := 0, told := false, held := [] }

/-- An island as its bays know it (R609, R610): its bays, its time holder, when it was declared, and how many records had
been dropped across a split before that. -/
structure Isle where
  bays : BitVec 8
  holder : BayNo
  holderPackage : BitVec 2
  /-- The packages of the connected set in a shoal split; 0 for an island within the package. -/
  packages : BitVec 4
  since : Stamp
  /-- The boundary from which the island's grid runs on at the nominal L, and the number of the epoch it began (R612). -/
  gridFrom : Stamp
  gridAt : BitVec 64
  deriving DecidableEq, Repr

/-- The Lanil block of a bay (R621 to R624). `routes` holds, for each bay, the dimensions crossed in order. -/
structure LnlBay where
  ports : Vector LinkPort 3
  injectors : Vector Injector 5
  routes : Vector (Option (List Nat)) 8
  /-- A topology update has been broadcast that this bay has not acted on (R606). -/
  updateDue : Bool
  reroutes : Word
  splitDrop : Word
  /-- Drops across the split since the island was declared (R615 word 7). -/
  islandDrop : Nat
  island : Option Isle
  /-- Spans of tide stamps, newest first, whose records carry ISLANDED, and HOLDOVER for an island, a leader's restart or an offset
  still to be removed (R99, R438, R612, R614). -/
  isles : List (Stamp × Option Stamp)
  holds : List (Stamp × Option Stamp)
  deriving DecidableEq, Repr

def LnlBay.reset : LnlBay :=
  { ports := Vector.replicate 3 .reset, injectors := Vector.replicate 5 .reset, routes := Vector.replicate 8 none
    updateDue := false, reroutes := 0, splitDrop := 0, islandDrop := 0, island := none
    isles := [], holds := [] }

/-- How far an external link's bring-up has come (R535, R536). -/
inductive LinkStage where
  | off | blind | negotiate | ladder | framed | failed
  deriving DecidableEq, Repr

/-- An external link (R592 to R605). Masks are over the link's own lanes. -/
structure ExtLink where
  port : LinkPort
  stage : LinkStage
  start : Stamp
  heard : BitVec 8
  acked : BitVec 8
  /-- The partner's target rate code in its capability frames. -/
  partner : Nat
  /-- The rate in force, the agreed target and the last rung passed, in kbit/s. -/
  rate : Nat
  target : Nat
  lastRung : Nat
  passed : BitVec 8
  retried : BitVec 8
  /-- Lanes set aside at the current rung, which a failed rung gives back (R536 step 4). -/
  asideHere : BitVec 8
  firstFailed : Bool
  lanesUp : BitVec 8
  failTold : Bool
  matched : Bool
  held : Bool
  mismatchTold : Bool
  retryAt : Stamp
  peer : BitVec 2
  /-- Traffic pauses for a change of width (R594). -/
  paused : Bool
  deriving DecidableEq, Repr

def ExtLink.reset : ExtLink :=
  { port := .reset, stage := .off, start := 0, heard := 0, acked := 0, partner := 0, rate := 0, target := 0, lastRung := 0
    passed := 0, retried := 0, asideHere := 0, firstFailed := false, lanesUp := 0, failTold := false, matched := false
    held := false, mismatchTold := false, retryAt := 0, peer := 0, paused := false }

/-- A rejoin that waits for its boundary (R614). -/
structure Rejoin where
  island : Isle
  offset : Int
  boundary : Stamp
  deriving DecidableEq, Repr

/-- The package's side of the fabric: external links, a rejoin under way, and end-to-end tags already accepted, by
source and class (R598, R606). -/
structure LnlPkg where
  ext : Vector ExtLink 2
  rejoin : Option Rejoin
  tags : Sparse Word
  split : Bool
  leaderSeen : Bool
  /-- The links of the ring of packages known to be down: link k joins packages k and k + 1 (R163, R604, R608). -/
  cuts : List Nat
  deriving DecidableEq, Repr

def LnlPkg.reset : LnlPkg :=
  { ext := Vector.replicate 2 .reset, rejoin := none, tags := [], split := false, leaderSeen := false, cuts := [] }

/-- The Ethernet injectors and INJ_KILL (R749, R750, R756). -/
structure InjPkg where
  streams : Vector Injector 64
  killed : Bool
  deriving DecidableEq, Repr

def InjPkg.reset : InjPkg := { streams := Vector.replicate 64 .reset, killed := false }

end Sys2Proof.Machine
end

