-- ==== Sys2Proof/Machine/St/Mon.lean ====
section
/-! DEFINITION. Monitor units (22_monitors_faults_and_injection.md). -/
namespace Sys2Proof.Machine

/-- The settings that the running interval of a unit was begun under (R737 to R740, R743). -/
structure MonConf where
  quantity : Nat
  object : Nat
  pair : Nat
  log2 : Bool
  lo : Int
  width : Nat
  emit : Nat
  cumulative : Bool
  queue : Nat
  deriving DecidableEq, Repr

/-- One monitor unit (R737 to R743, R756). `base` is the last ERR of its lane; `sampledAt` is its last
sampling moment; `changed` says that a field of the unit has
just taken a new value. -/
structure MonUnit where
  on : Bool
  conf : MonConf
  start : Stamp
  samples : Word
  low : Int
  high : Int
  sum : Int
  below : Word
  above : Word
  bins : Sparse Word
  last : Int
  limitHigh : Bool
  limitLow : Bool
  told : Bool
  injected : Bool
  changed : Bool
  base : Nat
  sampledAt : Stamp
  deriving DecidableEq, Repr

def MonConf.reset : MonConf :=
  { quantity := 1, object := 0, pair := 0, log2 := false, lo := 0, width := 1, emit := 1, cumulative := false, queue := 0 }

/-- MIN and MAX without samples (R742). -/
def MonUnit.reset : MonUnit :=
  { on := false, conf := .reset, start := 0, samples := 0, low := 2147483647, high := -2147483648, sum := 0, below := 0, above := 0
    bins := [], last := 0, limitHigh := false, limitLow := false, told := false, injected := false, changed := false, base := 0
    sampledAt := 0 }

end Sys2Proof.Machine
end

