-- ==== Sys2Proof/Machine/St/Que.lean ====
section
/-! DEFINITION. Record queues, capture memory and DMA channels (12_records_queues_and_dma.md). -/
namespace Sys2Proof.Machine

/-- A record in a queue, and whether it lies in the ride-through reserve (R449). -/
structure QEntry where
  record : Rec
  inReserve : Bool
  deriving DecidableEq, Repr

/-- Drops not yet reported by a DROPPED GAP record (R453). -/
structure Drops where
  first : Stamp
  last : Stamp
  count : Nat
  deriving DecidableEq, Repr

/-- A record queue (R448, R470). `pageUsed` is how many bytes at the start of the queue's first reserve
page have already been delivered. -/
structure Queue where
  entries : List QEntry
  drops : Option Drops
  dropped : Word
  flushed : Word
  snapLevel : Word
  pageUsed : Nat
  dropRaised : Bool
  highRaised : Bool
  deriving DecidableEq, Repr

def Queue.reset : Queue :=
  { entries := [], drops := none, dropped := 0, flushed := 0, snapLevel := 0, pageUsed := 0, dropRaised := false
    highRaised := false }

/-- The queue engine and the capture memory of a bay. `seqs` is the SEQ the next record of a source and
type will carry, at key 16 × SOURCE + TYPE (R436, R457). -/
structure Que where
  queues : Vector Queue 16
  seqs : Sparse Word
  snapSeq : Sparse Word
  /-- SEQ of the next STATUS record of this bay for the event ring. -/
  ringSeq : Word
  reservePeak : Nat
  fenceDrop : Word
  capPage : Bool
  usedRaised : Bool
  exhaustedRaised : Bool
  fenceTold : Bool
  capMem : Sparse Byte
  deriving DecidableEq, Repr

def Que.reset : Que :=
  { queues := Vector.replicate 16 .reset, seqs := [], snapSeq := [], ringSeq := 0, reservePeak := 0, fenceDrop := 0, capPage := false
    usedRaised := false, exhaustedRaised := false, fenceTold := false, capMem := [] }

/-- DMA_Cn_STATUS.STATE (R472). -/
inductive DmaState where
  | idle | run | wait | error
  deriving DecidableEq, Repr

/-- DMA_Cn_STATUS.CAUSE (R472). -/
inductive DmaCause where
  | none | align | count | space | asleep | tooBig | hostError
  deriving DecidableEq, Repr

/-- A DMA channel (R458 to R465, R471). -/
structure DmaChan where
  state : DmaState
  cause : DmaCause
  waking : Bool
  src : BitVec 64
  dst : BitVec 64
  count : Word
  ringLog2 : BitVec 5
  ringEnable : Bool
  /-- The ring base and size read as ENABLE was set (R460). -/
  ringBase : BitVec 64
  ringSize : Nat
  tail : Word
  head : Word
  wb : BitVec 64
  doneCount : Word
  records : Word
  asleepDrops : BitVec 16
  wakes : BitVec 16
  discards : Word
  /-- The 512-bit holding register as a byte FIFO, oldest byte first (R462). -/
  holding : List Byte
  /-- The committed record and how many of its bytes have left (R451). -/
  cur : Option Rec
  sent : Nat
  /-- Records delivered since the last completion (R464). -/
  since : Nat
  /-- What the stream's injector does to the committed record, and the packet it acts on (R751). -/
  act : Nat
  victim : Nat
  /-- A mode-4 transfer: its addresses and length as it started, and the bytes written. -/
  fromAddr : BitVec 64
  toAddr : BitVec 64
  length : Nat
  written : Nat
  /-- When the next burst may start; none before the first (R463). -/
  nextBurst : Option Stamp
  deriving DecidableEq, Repr

def DmaChan.reset : DmaChan :=
  { state := .idle, cause := .none, waking := false, src := 0, dst := 0, count := 0, ringLog2 := 0, ringEnable := false, ringBase := 0, ringSize := 12
    tail := 0, head := 0, wb := 0, doneCount := 0, records := 0, asleepDrops := 0, wakes := 0, discards := 0
    holding := [], cur := none, sent := 0, since := 0, act := 0, victim := 0, fromAddr := 0, toAddr := 0, length := 0, written := 0
    nextBurst := none }

/-- The DMA engine of a bay; `last` is the channel its port served last, and `busyTo` when the burst under way has moved (R463). -/
structure Dma where
  chans : Vector DmaChan 32
  last : Nat
  busyTo : Option Stamp
  deriving DecidableEq, Repr

def Dma.reset : Dma := { chans := Vector.replicate 32 .reset, last := 31, busyTo := none }

end Sys2Proof.Machine
end

