-- ==== Sys2Proof/Machine/St/Scn.lean ====
section
/-! DEFINITION. Scan-out state (10_display_scanout.md). -/
namespace Sys2Proof.Machine

/-- A readout buffer: its cells in row order (R383). -/
abbrev ReadoutCells := List (BitVec 16)

/-- The verified readout of a bay, on the sealed side (R384, R385, R390). -/
structure Readout where
  /-- A posted buffer whose reference rendering has not ended, with the stamp of the post. -/
  posted : Option (ReadoutCells × Stamp)
  /-- A buffer and its expected CRC that await the next latch point. -/
  ready : Option (ReadoutCells × Word)
  /-- The stale buffer is to be adopted at the next latch point. -/
  staleDue : Bool
  /-- What the renderer draws: none is the stale buffer before the first post. -/
  shown : Option ReadoutCells
  expected : Word
  adopted : Bool
  stale : Bool
  lastPost : Stamp
  mismatches : Word
  /-- Mismatching frames of the run that is open, 0 when none is; and its value before the current frame. -/
  run : Nat
  runBefore : Nat
  deriving DecidableEq, Repr

def Readout.reset : Readout :=
  { posted := none, ready := none, staleDue := false, shown := none, expected := 0, adopted := false, stale := false
    lastPost := 0, mismatches := 0, run := 0, runBefore := 0 }

/-- CRC results of one frame: the CRCs, and masks of the rectangles completed, compared and mismatched (R389). -/
structure CrcFrame where
  crcs : Vector Word 16
  done : BitVec 16
  compared : BitVec 16
  mismatched : BitVec 16
  deriving DecidableEq, Repr

def CrcFrame.reset : CrcFrame := { crcs := Vector.replicate 16 0, done := 0, compared := 0, mismatched := 0 }

/-- The scan-out of a bay. The active registers of the VBLANK settings are the settings in force; `shadow` lists the
shadow registers that differ from what was last latched, by instance id. `mem` holds text RAM, palettes, the graticule
store and the glyphs by their offset in the SCN slot, and `history` what it held before each write of this frame. -/
structure Scn where
  on : Bool
  hpd : Bool
  linkUp : Bool
  restarting : Bool
  trained : BitVec 16
  failed : BitVec 16
  training : Bool
  /-- When the last training failed, while a retry is due (R368). -/
  retryFrom : Option Stamp
  commit : Bool
  shadow : List (Nat × Int)
  expShadow : Vector Word 15
  exp : Vector Word 15
  /-- Frames started before the one whose line 0 starts at `frameStart`. -/
  frame : Word
  frameStart : Stamp
  frameStamp : Stamp
  blanked : Bool
  now : CrcFrame
  crc : CrcFrame
  crcBefore : CrcFrame
  crcTold : BitVec 15
  den : Option DenFrame
  traces : Vector (Option (List Int)) 8
  staleTold : Bool
  mem : Sparse Byte
  history : List (Stamp × Sparse Byte)
  fontDim : Vector Word 4
  edid : List Byte
  ro : Readout
  deriving DecidableEq, Repr

def Scn.reset : Scn :=
  { on := false, hpd := false, linkUp := false, restarting := false, trained := 0, failed := 0, training := false, retryFrom := none
    commit := false, shadow := [], expShadow := Vector.replicate 15 0, exp := Vector.replicate 15 0, frame := 0
    frameStart := 0, frameStamp := 0, blanked := false, now := .reset, crc := .reset, crcBefore := .reset, crcTold := 0
    den := none, traces := Vector.replicate 8 none, staleTold := false, mem := [], history := []
    fontDim := Vector.replicate 4 0, edid := [], ro := .reset }

end Sys2Proof.Machine
end

