-- ==== Sys2Proof/Machine/St/Seal.lean ====
section
/-! DEFINITION. Seal keeper state (17_metrology_seal.md). -/
namespace Sys2Proof.Machine

/-- A signing-key slot (R632). -/
structure SignSlot where
  key : Option (Nat × Nat)
  revoked : Bool
  deriving DecidableEq, Repr

/-- A seal log entry (R642). `rtc` is the stamp source bit. -/
structure LogEntry where
  number : Word
  kind : Nat
  rtc : Bool
  bay : BayNo
  detail : Nat
  stamp : Stamp
  data : List Word
  mac : List Byte
  deriving DecidableEq, Repr

/-- Fuses and keys, which survive everything. A row is the hash it holds, or none for a row consumed
without a hash (R630). -/
structure SealFuses where
  metrology : Bool
  rows : List (Option (List Byte))
  sign : Vector SignSlot 4
  mac : Vector (Option (List Byte)) 4
  deriving DecidableEq, Repr

/-- The VBAT island (R637). -/
structure Island where
  rtcSec : Word
  rtcSub : BitVec 15
  counter : Word
  headMac : List Byte
  tampMode : Vector (BitVec 2) 2
  /-- The last two samples of each loop were in the tamper state. -/
  tampLast : Vector Bool 2
  tampPrev : Vector Bool 2
  tampLatch : Vector Bool 2
  buffer : List LogEntry
  lost : BitVec 16
  vbatLost : Bool
  rtcValid : Bool
  deriving DecidableEq, Repr

/-- The mailbox of the service port (R649, R655). -/
structure Mailbox where
  busy : Bool
  result : Nat
  args : Vector Word 32
  sigR : Vector Word 8
  sigS : Vector Word 8
  deriving DecidableEq, Repr

/-- The seal keeper. `reserved` counts retention slots reserved by waiting watched changes (R628). -/
structure Seal where
  fuses : SealFuses
  island : Island
  reserved : Nat
  /-- A row programmed and not yet verified: the hash and the slot of its image. -/
  rowPending : Option (List Byte)
  logFirst : Word
  logCount : Nat
  logPrior : List Byte
  logArchives : Word
  fullTold : Bool
  broken : Bool
  verifyDone : Bool
  verifyResult : Nat
  verifyFirst : Nat
  verifying : Bool
  box : Mailbox
  logSel : Word
  /-- Sealed records that wait for their trailer, oldest first, with their queue (R13, R636). -/
  macQueue : List (Nat × Rec)
  deriving DecidableEq, Repr

def SealFuses.reset : SealFuses :=
  { metrology := false, rows := [], sign := Vector.replicate 4 { key := none, revoked := false }
    mac := Vector.replicate 4 none }

def Island.reset : Island :=
  { rtcSec := 0, rtcSub := 0, counter := 0, headMac := List.replicate 16 0, tampMode := Vector.replicate 2 0
    tampLast := Vector.replicate 2 false, tampPrev := Vector.replicate 2 false, tampLatch := Vector.replicate 2 false
    buffer := [], lost := 0, vbatLost := false, rtcValid := false }

def Mailbox.reset : Mailbox :=
  { busy := false, result := 0, args := Vector.replicate 32 0, sigR := Vector.replicate 8 0, sigS := Vector.replicate 8 0 }

def Seal.reset : Seal :=
  { fuses := .reset, island := .reset, reserved := 0, rowPending := none, logFirst := 0, logCount := 0
    logPrior := List.replicate 16 0, logArchives := 0, fullTold := false, broken := false, verifyDone := false
    verifyResult := 0, verifyFirst := 0, verifying := false, box := .reset, logSel := 0, macQueue := [] }

end Sys2Proof.Machine
end

