-- ==== Sys2Proof/Machine/State.lean ====
section
/-! DEFINITION. The whole state of a package, and the state after reset. -/
namespace Sys2Proof.Machine

/-- The three parts of the family (R1). -/
inductive Part where
  | blq2 | blq4 | blq8
  deriving DecidableEq, Repr

/-- One bay. -/
structure Bay where
  /-- The bay has been declared lost (R30, R91, R125). -/
  lost : Bool
  clk : ClkBay
  tbs : TbsBay
  que : Que
  dma : Dma
  pwr : PwrBay
  trg : TrgBay
  afe : AfeBay
  adc : Vector Adc 2
  ddc : Vector DdcPort 4
  xfm : Xfm
  den : DenBay
  mco : McoBay
  scn : Scn
  recorder : Recorder
  lne : LneBay
  pci : Vector PciEp 5
  eth : Vector EthPort 8
  jes : Vector Jes 2
  lnl : LnlBay
  cal : Vector CalIn 2
  hkc : HkcBay
  aux : AuxBay
  mon : Vector MonUnit 16
  jtag : Jtag
  deriving DecidableEq, Repr

def Bay.reset : Bay :=
  { lost := false, clk := .reset, tbs := .reset, que := .reset, dma := .reset, pwr := .reset, trg := .reset
    afe := .reset, adc := Vector.replicate 2 .reset, ddc := Vector.replicate 4 .reset, xfm := .reset, den := .reset, mco := .reset, scn := .reset, recorder := .reset
    lne := .reset, pci := Vector.replicate 5 .reset, eth := Vector.replicate 8 .reset, jes := Vector.replicate 2 .reset
    lnl := .reset, cal := Vector.replicate 2 .reset, hkc := .reset, aux := .reset, mon := Vector.replicate 16 .reset
    jtag := .reset }

/-- Why a step stops with a fault: no command of this model does. -/
inductive Fault where
  /-- Raised by nothing: every command that the spec gives an effect has a next state. Safe. -/
  | never
  deriving DecidableEq, Repr

/-- Why a step refuses a command. -/
inductive Refusal where
  /-- Raised by an arm of exec whose command has no meaning yet. Safe. -/
  | notModelled (mnemonic : String)
  deriving DecidableEq, Repr

/-- The state of a package (00_scope.md to 24_electrical_and_package.md). -/
structure State where
  part : Part
  bays : Vector Bay 8
  /-- Settings in force, by `fieldKey`; an unlisted field has its default. -/
  vals : Sparse (Option Int)
  img : Img
  flash : Flash
  tbs : TbsPkg
  sel : Selector
  keeper : Seal
  pwr : PwrPkg
  faults : FaultLog
  trg : TrgPkg
  ident : IdPkg
  eth : EthPkg
  lnl : LnlPkg
  inj : InjPkg
  /-- AUXDAC_CLR_N has been recognised low (R702). -/
  clrPin : Bool
  /-- RST_N is low (R88, R792). -/
  rstLow : Bool
  /-- The next free value (log entry 2); the model's own field. -/
  fresh : Nat
  /-- What left the package, newest first; the model's own field. -/
  outbox : List Output
  /-- Commands that wait, first in, first out. -/
  pending : List Instr
  deriving DecidableEq, Repr

/-- The package at reset: no supply has risen yet, every register at its reset value (log entry 3). -/
def State.reset : State :=
  { part := .blq8, bays := Vector.replicate 8 .reset, vals := [], img := .reset
    flash := { density := 0x20000000, eraseSize := 4096, octal := true, bytes := [] }
    tbs := .reset, sel := .reset, keeper := .reset, pwr := .reset, faults := .reset, trg := .reset, ident := .reset
    eth := .reset, lnl := .reset, inj := .reset, clrPin := false, rstLow := false, fresh := 0, outbox := [], pending := [] }

end Sys2Proof.Machine
end

