-- ==== Sys2Proof/Machine/Store.lean ====
section
/-! DEFINITION. Reads and writes of the sparse store that holds every addressed memory. -/
namespace Sys2Proof

/-- The value at key `k`: the listed one, or the default. -/
def Sparse.get {α : Type} (d : α) (m : Sparse α) (k : Nat) : α :=
  match m with
  | [] => d
  | (k', v) :: r => if k = k' then v else Sparse.get d r k

/-- Drop key `k`. -/
def Sparse.erase {α : Type} (m : Sparse α) (k : Nat) : Sparse α :=
  match m with
  | [] => []
  | (k', v) :: r => if k = k' then Sparse.erase r k else (k', v) :: Sparse.erase r k

/-- Put `v` at key `k` in its sorted place. -/
def Sparse.insert {α : Type} (m : Sparse α) (k : Nat) (v : α) : Sparse α :=
  match m with
  | [] => [(k, v)]
  | (k', v') :: r =>
    if k < k' then (k, v) :: (k', v') :: r
    else if k = k' then (k, v) :: r
    else (k', v') :: Sparse.insert r k v

/-- Write `v` at `k`; writing the default removes the entry, so equal contents are equal lists. -/
def Sparse.set {α : Type} [DecidableEq α] (d : α) (m : Sparse α) (k : Nat) (v : α) : Sparse α :=
  if v = d then Sparse.erase m k else Sparse.insert m k v

/-- Every key of `m` lies above `k`. -/
def Sparse.above {α : Type} (k : Nat) (m : Sparse α) : Bool :=
  match m with
  | [] => true
  | (k', _) :: _ => decide (k < k')

/-- The canonical form: keys strictly rising and no entry equal to the default. -/
def Sparse.wf {α : Type} [DecidableEq α] (d : α) (m : Sparse α) : Bool :=
  match m with
  | [] => true
  | (k, v) :: r => decide (v ≠ d) && Sparse.above k r && Sparse.wf d r

/-- Write a run of values from key `k` upwards. -/
def Sparse.setRun {α : Type} [DecidableEq α] (d : α) (m : Sparse α) (k : Nat) (vs : List α) : Sparse α :=
  match vs with
  | [] => m
  | v :: r => Sparse.setRun d (Sparse.set d m k v) (k + 1) r

/-- Read `n` values from key `k` upwards. -/
def Sparse.getRun {α : Type} (d : α) (m : Sparse α) (k n : Nat) : List α :=
  match n with
  | 0 => []
  | n + 1 => Sparse.get d m k :: Sparse.getRun d m (k + 1) n

end Sys2Proof
end

