-- ==== Sys2Proof/Machine/Ops.lean ====
section
/-! DEFINITION. The operations every family of commands shares: bays, settings, time, records, events,
record queues and the seal log. -/
namespace Sys2Proof.Machine

/-! ### The package and its bays -/

/-- log2 of the number of bays (R1). -/
def Part.log2 : Part → Nat
  | .blq2 => 1
  | .blq4 => 2
  | .blq8 => 3

/-- The number of bays (R1). -/
def Part.bays (p : Part) : Nat := 2 ^ p.log2

/-- The bay is one the part has. -/
def State.present (s : State) (b : BayNo) : Bool := decide (b.val < s.part.bays)

/-- A bay's state. -/
def State.bay (s : State) (b : BayNo) : Bay := s.bays[b]

/-- Replace a bay's state. -/
def State.setBay (s : State) (b : BayNo) (x : Bay) : State := { s with bays := s.bays.set b x }

/-- Change a bay's state. -/
def State.modBay (s : State) (b : BayNo) (f : Bay → Bay) : State := s.setBay b (f (s.bay b))

/-- The bays are powered and not held in reset by RST_N or a global reset (R88, R165, R715). -/
def State.running (s : State) : Bool := decide (s.pwr.state ≠ .off) && !s.rstLow && !s.tbs.globalReset

/-- The bay is present, works, and has not been lost (R30). -/
def State.alive (s : State) (b : BayNo) : Bool := s.running && s.present b && !(s.bay b).lost

/-- Every bay number. -/
def allBays : List BayNo := [0, 1, 2, 3, 4, 5, 6, 7]

/-- The bays that are present and not lost, in number order. -/
def State.liveBays (s : State) : List BayNo := allBays.filter s.alive

/-- The functional logic of the bay is connected to its boundary-scan pins (R796). -/
def State.pinned (s : State) (b : BayNo) : Bool := !(s.bay b).jtag.pinsOff

/-- Bit `b` of a bay mask. -/
def inMask (mask : Nat) (b : Nat) : Bool := mask.testBit b

/-- The bays of a mask that are present and not lost. -/
def State.maskBays (s : State) (mask : Nat) : List BayNo := s.liveBays.filter fun b => inMask mask b

/-- Change the reference selector. -/
def State.modSel (s : State) (f : Selector → Selector) : State := { s with sel := f s.sel }

/-- Change the package's timebase. -/
def State.modTbsPkg (s : State) (f : TbsPkg → TbsPkg) : State := { s with tbs := f s.tbs }

/-- Change the IMG block. -/
def State.modImg (s : State) (f : Img → Img) : State := { s with img := f s.img }

/-- Change the power manager. -/
def State.modPwr (s : State) (f : PwrPkg → PwrPkg) : State := { s with pwr := f s.pwr }

/-- Change the seal keeper. -/
def State.modSeal (s : State) (f : Seal → Seal) : State := { s with keeper := f s.keeper }

/-- Change the package's side of the fabric. -/
def State.modLnlPkg (s : State) (f : LnlPkg → LnlPkg) : State := { s with lnl := f s.lnl }

/-- Change the Ethernet streams and the PTP state. -/
def State.modEthPkg (s : State) (f : EthPkg → EthPkg) : State := { s with eth := f s.eth }

/-- Change the identity slot. -/
def State.modIdent (s : State) (f : IdPkg → IdPkg) : State := { s with ident := f s.ident }

/-- Change the record of tolerated faults. -/
def State.modFaults (s : State) (f : FaultLog → FaultLog) : State := { s with faults := f s.faults }

/-- Change arming, groups and trigger outputs. -/
def State.modTrg (s : State) (f : TrgPkg → TrgPkg) : State := { s with trg := f s.trg }

/-- Change the stream injectors. -/
def State.modInjPkg (s : State) (f : InjPkg → InjPkg) : State := { s with inj := f s.inj }

/-- Change the setup flash. -/
def State.modFlash (s : State) (f : Flash → Flash) : State := { s with flash := f s.flash }

/-- Change the settings in force. -/
def State.modVals (s : State) (f : Sparse (Option Int) → Sparse (Option Int)) : State := { s with vals := f s.vals }

/-- Apply a change to each bay of a list in turn. -/
def State.eachBay (s : State) (bs : List BayNo) (f : State → BayNo → State) : State := bs.foldl f s

/-- The mask with the bits of a list of bays. -/
def maskOf (bs : List BayNo) : Nat := bs.foldl (fun m b => m ||| 2 ^ b.val) 0

/-- A free value of width `w` (log entry 2), and the state with the counter advanced. -/
def State.takeFree (s : State) (w : Nat) : BitVec w × State :=
  ((Config.freeValue s.fresh).setWidth w, { s with fresh := s.fresh + 1 })

/-- Log what leaves the package. -/
def State.emit (s : State) (o : Output) : State := { s with outbox := o :: s.outbox }

/-! ### Settings in force -/

/-- The key of element `idx` of instance `i` of a field in bay `b`; a package-wide field has one value (R43). -/
def fieldKey (f : Field) (b i idx : Nat) : Nat :=
  ((f.block * 8 + (if f.pkg then 0 else b)) * 65536 + f.id + f.stride * i) * 131072 + idx

/-- The default of instance `i`. -/
def fieldDefault (f : Field) (i : Nat) : Int := f.dflts.getD i f.dflt

/-- Settings by `fieldKey`; an unlisted field has its default. -/
abbrev Vals := Sparse (Option Int)

/-- The value of a field in a set of settings: bay, instance, element. -/
def Vals.of (m : Vals) (f : Field) (b : Nat) (i : Nat := 0) (idx : Nat := 0) : Int :=
  (Sparse.get none m (fieldKey f b i idx)).getD (fieldDefault f i)

/-- The value as a natural number. -/
def Vals.nat (m : Vals) (f : Field) (b : Nat) (i : Nat := 0) (idx : Nat := 0) : Nat := (m.of f b i idx).toNat

/-- The value in force of a field: bay, instance, element. -/
def State.fld (s : State) (f : Field) (b : BayNo) (i : Nat := 0) (idx : Nat := 0) : Int := Vals.of s.vals f b.val i idx

/-- The value in force as a natural number. -/
def State.fldN (s : State) (f : Field) (b : BayNo) (i : Nat := 0) (idx : Nat := 0) : Nat := (s.fld f b i idx).toNat

/-- The value in force of a one-bit field. -/
def State.fldB (s : State) (f : Field) (b : BayNo) (i : Nat := 0) : Bool := decide (s.fld f b i ≠ 0)

/-- A package-wide field. -/
def State.pkgN (s : State) (f : Field) (i : Nat := 0) : Nat := s.fldN f 0 i

/-! ### Time -/

/-- A stamp's unit is 2^-64 s. -/
def unitsPerSec : Nat := 2 ^ 64

/-- A duration of `n / d` seconds to the nearest unit, ties upwards (R138). -/
def durOf (n d : Nat) : Nat := (2 * n * unitsPerSec + d) / (2 * d)

/-- A duration in ns, µs and ms. -/
def ofNs (n : Nat) : Nat := durOf n 1000000000
/-- A duration in µs. -/
def ofUs (n : Nat) : Nat := durOf n 1000000
/-- A duration in ms. -/
def ofMs (n : Nat) : Nat := durOf n 1000

/-- A fraction in lowest terms. -/
def Exact.of (num : Int) (den : Nat) : Exact :=
  let g := max 1 (Nat.gcd num.natAbs den)
  { num := num / (g : Int), den := den / g }

/-- Sum. -/
def Exact.add (a b : Exact) : Exact := Exact.of (a.num * b.den + b.num * a.den) (a.den * b.den)
/-- Difference. -/
def Exact.sub (a b : Exact) : Exact := Exact.of (a.num * b.den - b.num * a.den) (a.den * b.den)
/-- A multiple. -/
def Exact.times (a : Exact) (n : Int) : Exact := Exact.of (a.num * n) a.den
/-- A whole number of units of 2^-64 s. -/
def Exact.ofUnits (d : Int) : Exact := Exact.of d unitsPerSec
/-- The nearest whole number of units, a tie to the later one (R138). -/
def Exact.units (a : Exact) : Int := (2 * a.num * unitsPerSec + a.den) / ((2 * a.den : Nat) : Int)
/-- The stamp of an exact time (R138). -/
def Exact.stamp (a : Exact) : Stamp := BitVec.ofInt 96 a.units
/-- The smallest whole number that is not below a / b, for a positive b. -/
def Exact.ceilOver (a b : Exact) : Int := -((-(a.num * b.den)) / ((a.den * b.num.toNat : Nat) : Int))

/-- A duration in whole ns, rounded down. -/
def toNs (d : Nat) : Nat := d * 1000000000 / unitsPerSec

/-- The nominal addend of one FCLK edge, 781.25 ps, with 32 further fraction bits (R134). -/
def nominalAddend : Tide := BitVec.ofNat 128 (2 ^ 96 * 78125 / 100000000000000)

/-- The limit of steering, TBS.SLEW_MAX, in units of 10^-12 (R135, R166). -/
def State.slewMax (s : State) : Int := 100000 * s.pkgN Fld.tbsSlewMax

/-- Advance a stamp. -/
def later (t : Stamp) (d : Nat) : Stamp := t + BitVec.ofNat 96 d

/-- Move a stamp by a signed number of units. -/
def moved (t : Stamp) (d : Int) : Stamp := t + BitVec.ofInt 96 d

/-- The signed difference of two stamps modulo 2^96 (R134). -/
def stampDiff (a b : Stamp) : Int := (a - b).toInt

/-- Stamps compare by their signed difference (R134). -/
def stampLe (a b : Stamp) : Bool := decide (stampDiff b a ≥ 0)

/-- Strictly earlier. -/
def stampLt (a b : Stamp) : Bool := decide (stampDiff b a > 0)

/-- The stamp of a tide counter: its upper 96 bits. -/
def Tide.stamp (t : Tide) : Stamp := t.extractLsb' 32 96

/-- The tide counter of a bay. -/
def State.nowAt (s : State) (b : BayNo) : Stamp := Tide.stamp (s.bay b).tbs.tide

/-- The package master, the headland's counter (R144). -/
def State.now (s : State) : Stamp := s.nowAt 0

/-- The trigger outputs are driven low, as in SAFE, OFF and STANDBY, and until a setting enables them (R326, R791). -/
def State.outsLow (s : State) : State :=
  (List.finRange 2).foldl (fun s n =>
    if s.trg.outs[n].level then
      ({ s with trg := { s.trg with outs := s.trg.outs.set n { s.trg.outs[n] with level := false } } } : State).emit
        (.pin ("TRIG_OUT" ++ toString n.val) 0 false (s.now))
    else s) s

/-- A span of tide stamps that contains `t`: from its start up to its end, if it has ended. -/
def inSpans (l : List (Stamp × Option Stamp)) (t : Stamp) : Bool :=
  l.any fun e => stampLe e.1 t && (match e.2 with
    | some z => stampLt t z
    | none => true)

/-- The span under way ends at `t`. -/
def closeSpan (t : Stamp) : List (Stamp × Option Stamp) → List (Stamp × Option Stamp)
  | (a, none) :: r => (a, some t) :: r
  | l => l

/-- A span begins at `t` unless one is under way. -/
def beginSpan (t : Stamp) : List (Stamp × Option Stamp) → List (Stamp × Option Stamp)
  | (a, none) :: r => (a, none) :: r
  | l => (t, none) :: l

/-- The record queues with their once-an-epoch marks cleared (R452, R454). -/
def Que.unmarked (y : Que) : Que :=
  { y with queues := y.queues.map fun q => { q with dropRaised := false, highRaised := false }
           usedRaised := false, exhaustedRaised := false }

/-- The inputs with their once-an-epoch marks cleared (R177). -/
def AfeBay.unmarked (y : AfeBay) : AfeBay := { y with inputs := y.inputs.map fun a => { a with ovlTold := false } }

/-- The transform engine with its once-an-epoch marks cleared (R277). -/
def Xfm.unmarked (y : Xfm) : Xfm := { y with taps := y.taps.map fun t => { t with told := false } }

/-- The cores with their once-an-epoch marks cleared (R418). -/
def McoBay.unmarked (y : McoBay) : McoBay := { y with cores := y.cores.map fun k => { k with iqTold := false } }

/-- The scan-out with its once-an-epoch marks cleared (R385). -/
def Scn.unmarked (y : Scn) : Scn := { y with crcTold := 0 }

/-- The auxiliary DACs with their once-an-epoch marks cleared (R706). -/
def AuxBay.unmarked (y : AuxBay) : AuxBay := { y with complianceTold := Vector.replicate 2 false }

/-- The lanes with their once-an-epoch marks cleared (R542). -/
def LneBay.unmarked (y : LneBay) : LneBay := { y with lanes := y.lanes.map fun l => { l with lockTold := false } }

/-- The links with their once-an-epoch marks cleared (R599). -/
def LnlBay.unmarked (y : LnlBay) : LnlBay := { y with ports := y.ports.map fun p => { p with congTold := false } }

/-- The converters with their once-an-epoch marks cleared (R691). -/
def HkcBay.unmarked (y : HkcBay) : HkcBay := { y with conv := y.conv.map fun c => { c with refuseTold := false } }

/-- Once-an-epoch marks of a bay start again (R177, R277, R351, R385, R418, R452, R454, R542, R599, R691, R706). -/
def Bay.freshEpoch (y : Bay) : Bay :=
  { y with
    que := y.que.unmarked, afe := y.afe.unmarked, xfm := y.xfm.unmarked, mco := y.mco.unmarked, scn := y.scn.unmarked
    aux := y.aux.unmarked, lne := y.lne.unmarked, lnl := y.lnl.unmarked, hkc := y.hkc.unmarked }

/-- A bay's counter moves on by `d` units of 2^-96 s; what is left of a rejoin's offset goes at `slew` in 10^-12 (R134, R614). -/
def Bay.advance (y : Bay) (d : Nat) (slew : Int) : Bay :=
  match y.tbs.removing with
  | none => { y with tbs := { y.tbs with tide := y.tbs.tide + BitVec.ofNat 128 d } }
  | some r =>
    let m : Int := min r.natAbs (d * slew.toNat / 1000000000000)
    let c := if 0 ≤ r then m else -m
    { y with tbs := { y.tbs with tide := y.tbs.tide + BitVec.ofNat 128 d - BitVec.ofInt 128 c, removing := some (r - c) } }

/-- A time `d` without a grid passes for a bay: its marks start again with each period of 32 lagoon clock cycles (R154). -/
def Bay.quieten (y : Bay) (d : Nat) : Bay :=
  let z := if y.tbs.quiet + d < 2 ^ 54 then y else y.freshEpoch
  { z with tbs := { z.tbs with quiet := (z.tbs.quiet + d) % 2 ^ 54 } }

/-- While no grid runs, what is told once an epoch is told once in each period of 32 lagoon clock cycles, 1/1024 s, instead (R154). -/
def State.quietTime (s : State) (d : Nat) : State :=
  if s.tbs.grid.running then s
  else
    { s with bays := s.bays.map fun y => y.quieten d
             ident := { s.ident with accessTold := s.ident.accessTold && decide ((s.bay 0).tbs.quiet + d < 2 ^ 54) } }

/-- Move every bay's counter on by `d` units (log entry 5). -/
def State.passTime (s : State) (d : Nat) : State :=
  ({ s with bays := s.bays.map fun x => x.advance (d * 2 ^ 32) s.slewMax } : State).quietTime d

/-- A command that stands for something due at `t` finds the counter at `t` or later (log entry 5). -/
def State.reach (s : State) (t : Stamp) : State :=
  if stampLt s.now t then s.passTime (t - s.now).toNat else s

/-- T_b in units (R161). -/
def State.tb (s : State) : Nat := ofNs s.tbs.tb

/-- A moment T_b + 1 µs ahead, with the T_b that TBS_TB shows: the shoal's in a shoal (R161, R721). -/
def State.epochLead (s : State) : Stamp := later s.now (s.tb + ofUs 1)

/-- The lead of an EPOCH apply point: T_b + 1 µs after acceptance, with the package's own T_b: no live field is shoal-wide, since
every field of SHOAL applies at IMAGE_RESTART (R65, R621). -/
def State.applyLead (s : State) : Stamp := later s.now (ofNs s.tbs.tbOwn + ofUs 1)

/-- The nominal boundary `k` multiples of L after the grid's origin, rounded once (R138, R154). -/
def Grid.nth (g : Grid) (k : Nat) : Stamp := later g.origin (durOf (k * g.tens) 100000000)

/-- The nominal stamp of the first boundary at or after `t` on the running grid (R83 words 3 to 5). -/
def State.boundaryFrom (s : State) (t : Stamp) : Stamp :=
  let g := s.tbs.grid
  if stampLe t g.next then g.next
  else
    let k := (t - g.next).toNat * 100000000 / max 1 (g.tens * unitsPerSec)
    if stampLe t (g.nth (g.steps + k)) then g.nth (g.steps + k) else g.nth (g.steps + k + 1)

/-- The words of a stamp in record order (R133). -/
def stampWords (t : Stamp) : List Word := [t.extractLsb' 0 32, t.extractLsb' 32 32, t.extractLsb' 64 32]

/-- The stamp of three words in record order. -/
def stampOf (a b c : Word) : Stamp := c ++ b ++ a

/-- The two words of a 64-bit quantity, low word first (R801). -/
def words64 (v : BitVec 64) : List Word := [v.extractLsb' 0 32, v.extractLsb' 32 32]

/-- A number as a word. -/
def wd (n : Nat) : Word := BitVec.ofNat 32 n

/-! ### Records -/

/-- TYPE codes (R440). -/
def RecType.code : RecType → Nat
  | .iq => 1 | .spectrum => 2 | .trace => 3 | .density => 4 | .trigger => 5 | .result => 6 | .gap => 7
  | .flush => 8 | .cal => 9 | .seallog => 10 | .monitor => 11 | .epoch => 12 | .status => 13 | .timeRejoin => 14

/-- GAP reason codes (R442). -/
def GapReason.code : GapReason → Nat
  | .acqRestart => 1 | .clockWrite => 2 | .clockFault => 3 | .cal => 4 | .xsLoss => 5 | .replayStall => 6
  | .watch => 7 | .dropped => 8

/-- The bytes a record occupies (R434). -/
def Rec.bytes (r : Rec) : Nat := 32 * r.length.toNat + (if r.domain = 0 then 32 else 0)

/-- The header words 0 to 6 (R433). -/
def Rec.header (r : Rec) : List Word :=
  [r.domain ++ r.package ++ (BitVec.ofNat 3 r.bay.val) ++ r.source ++ r.flags ++ BitVec.ofNat 8 r.typ.code,
   r.gen ++ r.length, r.seq] ++ stampWords r.stamp ++ [r.w6hi ++ r.w6lo]

/-- CRC of a record: CRC-32C over words 0 to 6 and the payload (R435). -/
def Rec.checkCode (r : Rec) : Word := crc32c (wordsBytes (r.header ++ r.payload))

/-- Every word of a record as it leaves, trailer included (R434). -/
def Rec.words (r : Rec) : List Word := r.header ++ [r.crc] ++ r.payload ++ r.trailer

/-- The FLAGS bits of R438. -/
def flagSettling : BitVec 8 := 0x01
/-- TRUNCATED. -/
def flagTruncated : BitVec 8 := 0x02
/-- GAP_BEFORE. -/
def flagGapBefore : BitVec 8 := 0x04
/-- ISLANDED. -/
def flagIslanded : BitVec 8 := 0x08
/-- HOLDOVER. -/
def flagHoldover : BitVec 8 := 0x10
/-- OVERLOAD. -/
def flagOverload : BitVec 8 := 0x20
/-- SEALED. -/
def flagSealed : BitVec 8 := 0x40
/-- INJECTED. -/
def flagInjected : BitVec 8 := 0x80

/-- A flag when a condition holds. -/
def flagIf (c : Bool) (f : BitVec 8) : BitVec 8 := if c then f else 0

/-- The flags every record of a bay stamped `t` carries for its clocks and its half: a switch episode lasts from its start until its
pull-in completes (R99, R111, R438, R612, R614). -/
def State.timeFlags (s : State) (b : BayNo) (t : Stamp) : BitVec 8 :=
  let l := (s.bay b).lnl
  flagIf (inSpans l.isles t) flagIslanded ||| flagIf (inSpans s.sel.episodes t || inSpans l.holds t) flagHoldover

/-- What a producer states of a record; the rest of the header is formed by `State.mkRec`. -/
structure RecBody where
  typ : RecType
  source : Nat
  flags : BitVec 8 := 0
  domain : BitVec 3 := 1
  gen : BitVec 16 := 0
  stamp : Stamp
  w6lo : BitVec 16 := 0
  w6hi : BitVec 16 := 0
  payload : List Word
  deriving DecidableEq, Repr

/-- The package number within the shoal, 0 outside one (R433, R621). -/
def State.packageNo (s : State) : BitVec 2 := BitVec.ofNat 2 (s.pkgN Fld.lnlPackage)

/-- A payload padded with zero words to whole 32-byte units (R433). -/
def padPayload (ws : List Word) : List Word := ws ++ List.replicate ((8 - ws.length % 8) % 8) 0

/-- Form a record with a given SEQ: LENGTH, flags and CRC (R433 to R438). -/
def State.mkRec (s : State) (b : BayNo) (r : RecBody) (seq : Word) : Rec :=
  let p := padPayload r.payload
  let r0 : Rec :=
    { typ := r.typ, flags := r.flags ||| s.timeFlags b r.stamp ||| flagIf (r.domain = 0) flagSealed
      source := BitVec.ofNat 8 r.source, bay := b, package := s.packageNo, domain := r.domain
      length := BitVec.ofNat 16 (1 + p.length / 8), gen := r.gen, seq := seq, stamp := r.stamp, w6lo := r.w6lo
      w6hi := r.w6hi, crc := 0, payload := p, trailer := [] }
  { r0 with crc := r0.checkCode }

/-- The key of a source and type among the SEQ counters (R457). -/
def seqKey (source : Nat) (t : RecType) : Nat := 16 * source + t.code

/-- Take the next SEQ of a source and type of a bay (R436). -/
def State.nextSeq (s : State) (b : BayNo) (source : Nat) (t : RecType) : Word × State :=
  let q := (s.bay b).que
  let n := Sparse.get 0 q.seqs (seqKey source t)
  (n, s.modBay b fun x => { x with que := { x.que with seqs := Sparse.set 0 x.que.seqs (seqKey source t) (n + 1) } })

/-- The index word of a sealed record's trailer and its MAC (R444, R635): none without a key. -/
def State.trailer (s : State) (r : Rec) : List Word :=
  let k := s.pkgN Fld.sealMacKey
  match s.keeper.fuses.mac[k]? with
  | some (some key) =>
    bytesWords 4 ((hmacSha256 key (wordsBytes (r.header ++ [r.crc] ++ r.payload))).take 16) ++ [wd k, 0, 0, 0]
  | _ => List.replicate 4 0 ++ [wd k, 0, 0, 0]

/-! ### Events: what raises one is above the queues, so the queue engine's own events come after -/

/-- Event ring entries of the ring's size. -/
def Ring.size (r : Ring) : Nat := 2 ^ r.sizeLog2.toNat

/-- Entries in use. -/
def Ring.used (r : Ring) : Nat := (r.tail.toNat + r.size - r.head.toNat) % r.size

/-- Free entries: a ring is full when tail + 1 equals head (R78). -/
def Ring.space (r : Ring) : Nat := if r.enable then r.size - 1 - r.used else 0

/-- Advance an index modulo the ring size. -/
def Ring.bump (r : Ring) (i : BitVec 12) : BitVec 12 := BitVec.ofNat 12 ((i.toNat + 1) % r.size)

/-- Write one 64-byte record at the event ring's tail and signal it (R77, R85). -/
def State.ringWrite (s : State) (r : Rec) : State :=
  let e := s.img.evt
  let s1 := s.emit (.hostWrite 0 (e.base + BitVec.ofNat 64 (64 * e.tail.toNat)) r.words)
  let s2 := (s1.modImg fun y => { y with evt := { e with tail := e.bump e.tail } })
  if e.irq then s2.emit (.msix 0 e.vector.toNat) else s2

/-- The event-ring slots held for flash commands that have not completed (R85). -/
def State.heldSlots (s : State) : Nat := s.img.flashQueue.length

/-- The stamp an event carries: zero while the counter has not been set (R445). -/
def State.eventStamp (s : State) (b : BayNo) : Stamp := if (s.bay b).tbs.set then s.nowAt b else 0

/-- A STATUS record's body (R445). -/
def State.statusBody (s : State) (b : BayNo) (code : Nat) (payload : List Word) : RecBody :=
  { typ := .status, source := 0xF1, stamp := s.eventStamp b, w6hi := BitVec.ofNat 16 code
    payload := (payload ++ List.replicate 8 0).take 8 }

/-- The record EV_EVENT_LOST with a count (R85, R86). -/
def State.lostRec (s : State) (n : Nat) : Rec :=
  s.mkRec 0 (s.statusBody 0 0x01FF [wd (min n 0xFFFFFFFF)]) 0

/-- Hand a STATUS record to the event ring, or to the buffer before the first enable (R85, R86). A completion
of a flash command uses the slot held for it, and neither it nor the notice of lost events takes a slot held for another. -/
def State.ringEvent (s : State) (r : Rec) (completion : Bool) : State :=
  if s.img.buffering then
    let b := s.img.buffer ++ [r]
    if b.length > 256 then
      (s.modImg fun y => { y with buffer := b.drop 1, bufferDropped := s.img.bufferDropped + 1 })
    else (s.modImg fun y => { y with buffer := b })
  else
    let held := s.heldSlots
    let need := if s.img.lostTold > 0 then 2 else 1
    if s.img.evt.space ≥ held + need then
      let s1 := if s.img.lostTold > 0 then
          let t := s.ringWrite (s.lostRec s.img.lostTold)
          (t.modImg fun y => { y with lostTold := 0 })
        else s
      s1.ringWrite r
    else if completion ∧ s.img.evt.space ≥ 1 then s.ringWrite r
    else (s.modImg fun y => { y with lost := satAdd 0xFFFFFFFF s.img.lost 1, lostTold := s.img.lostTold + 1 })

/-! ### The fabric: who reaches whom, and what the injectors do -/

/-- A packet from bay `a` reaches bay `b` on the routes bay `a` uses now (R601, R602, R606). -/
def State.reaches (s : State) (a b : BayNo) : Bool := decide (a = b) || (s.bay a).lnl.routes[b].isSome

/-- Two bays lie on the same side: both on the mainland, or both in one island (R610). -/
def State.sameSide (s : State) (a b : BayNo) : Bool :=
  (s.bay a).lnl.island.map (·.bays) == (s.bay b).lnl.island.map (·.bays)

/-- The bay that holds the time of a bay's side: the headland, or an island's time holder (R610). -/
def State.sideHolder (s : State) (b : BayNo) : BayNo :=
  match (s.bay b).lnl.island with
  | none => 0
  | some i => i.holder

/-- Change the Lanil block of a bay. -/
def State.modLnl (s : State) (b : BayNo) (f : LnlBay → LnlBay) : State := s.modBay b fun x => { x with lnl := f x.lnl }

/-- Injectors act: permitted by INJ.ENABLE and the intact fuse, and not stopped (R749). -/
def State.injecting (s : State) : Bool := decide (s.pkgN Fld.injEnable = 1) && !s.keeper.fuses.metrology && !s.inj.killed

/-- Whether item `i` is selected (R618): by pattern as stated; by rate the LFSR's polynomial and its draw are not stated,
so the answer is free unless the rate is certain (log entry 14). -/
def State.drawn (s : State) (mode rate pattern i : Nat) : Bool × State :=
  if mode = 1 then (pattern.testBit (i % 32), s)
  else if rate ≥ 1000000 then (true, s)
  else
    let (v, s1) := s.takeFree 1
    (decide (v = 1), s1)

/-- Change an injector of a bay. -/
def State.modLink (s : State) (b : BayNo) (n : Fin 5) (f : Injector → Injector) : State :=
  s.modLnl b fun l => { l with injectors := l.injectors.set n (f l.injectors[n]) }

/-- Change a stream's injector. -/
def State.modInj (s : State) (n : Fin 64) (f : Injector → Injector) : State :=
  (s.modInjPkg fun y => { y with streams := s.inj.streams.set n (f s.inj.streams[n]) })

/-- The decision of link injector `n` of bay `b` for a packet of class bit `cls` (0 DATA, 1 EVENT): the action, 0 for
none, and whether EV_LNL_INJECT is due (R617, R618, R620). -/
def State.linkDraw (s : State) (b : BayNo) (n : Fin 5) (cls : Nat) : Nat × Bool × State :=
  let a := s.fldN Fld.lnlInjAction b n.val
  if !s.injecting || decide (a = 0) || !(s.fldN Fld.lnlInjClass b n.val).testBit cls then (0, false, s)
  else
    let i := (s.bay b).lnl.injectors[n].index
    let told := (s.bay b).lnl.injectors[n].told
    let (hit, s1) := s.drawn (s.fldN Fld.lnlInjMode b n.val) (s.fldN Fld.lnlInjRate b n.val) (s.fldN Fld.lnlInjPattern b n.val) i
    if hit then (a, !told, s1.modLink b n fun x => { x with index := i + 1, count := x.count + 1, told := true })
    else (0, false, s1.modLink b n fun x => { x with index := i + 1 })

/-- The fabric port by which a packet from bay `a` to bay `b` leaves. -/
def State.portTo (s : State) (a b : BayNo) : Option (Fin 3) :=
  match (s.bay a).lnl.routes[b] with
  | some (d :: _) => if h : d < 3 then some ⟨d, h⟩ else none
  | _ => none

/-- The link injector that a packet from `a` to `b` meets (R617). -/
def State.injectorTo (s : State) (a b : BayNo) : Option (Fin 5) := (s.portTo a b).map fun p => ⟨p.val, by omega⟩

/-- The bay and bay-local number of a package-wide queue number; 255 names none (R17, R450). -/
def queueOf (n : Nat) : Option (BayNo × Fin 16) :=
  if h : n < 128 then some (⟨n / 16, by omega⟩, ⟨n % 16, by omega⟩) else none

/-- The Ethernet stream that drains a queue (R458, R565). -/
def State.streamOf (s : State) (qb : BayNo) (qi : Fin 16) : Option (Fin 64) :=
  ((List.range 32).find? fun n => decide (s.fldN Fld.dmaMode qb n = 2 ∧ s.fldN Fld.dmaQueue qb n = qi.val)).map fun n =>
    ⟨s.fldN Fld.dmaStream qb n % 64, Nat.mod_lt _ (by decide)⟩

/-- The decision of a stream's injector for a record (R750). -/
def State.streamDraw (s : State) (n : Fin 64) : Bool × State :=
  if !s.injecting || decide (s.pkgN Fld.injAction n.val = 0) then (false, s)
  else
    let i := s.inj.streams[n].index
    let (hit, s1) := s.drawn (s.pkgN Fld.injMode n.val) (s.pkgN Fld.injRate n.val) (s.pkgN Fld.injPattern n.val) i
    (hit, s1.modInj n fun x => { x with index := i + 1 })

/-- Invert one bit of a payload, chosen by the LFSR and so free (R618 action 2). -/
def State.corrupt (s : State) (r : Rec) : Rec × State :=
  let (v, s1) := s.takeFree 16
  let k := v.toNat % (max 1 (32 * r.payload.length))
  ({ r with payload := r.payload.set (k / 32) (r.payload.getD (k / 32) 0 ^^^ BitVec.ofNat 32 (2 ^ (k % 32))) }, s1)

/-- A packet of a class passes an injector: what a reorder holds of that class comes one packet nearer, and what has
waited long enough leaves (R618 action 3). -/
def State.passHeld (s : State) (b : BayNo) (n : Fin 5) (cls : Nat) : List HeldPacket × State :=
  let of := fun (h : Held) => h.due.isNone && (match h.packet with
    | .data .. => decide (cls = 0)
    | .fire .. => decide (cls = 1))
  let near := (s.bay b).lnl.injectors[n].held.map fun h => if of h then { h with left := h.left - 1 } else h
  let out := near.filter fun h => of h && decide (h.left = 0)
  (out.map (·.packet), s.modLink b n fun x => { x with held := near.filter fun h => !(of h && decide (h.left = 0)) })

/-- Hold a packet for a reorder (action 3) or a delay (action 4). -/
def State.holdPacket (s : State) (b : BayNo) (n : Fin 5) (act : Nat) (p : HeldPacket) : State :=
  let h : Held :=
    { packet := p, left := s.fldN Fld.lnlInjWindow b n.val - 1
      due := if act = 4 then some (later (s.nowAt b) (ofNs (s.fldN Fld.lnlInjDelay b n.val))) else none }
  s.modLink b n fun x => { x with held := x.held ++ [h] }

/-! ### Record queues -/

/-- Bytes a queue holds in its own storage. -/
def Queue.storageBytes (q : Queue) : Nat :=
  (q.entries.filter fun e => !e.inReserve).foldl (fun n e => n + e.record.bytes) 0

/-- Bytes a queue holds in the reserve. -/
def Queue.reserveBytes (q : Queue) : Nat :=
  (q.entries.filter fun e => e.inReserve).foldl (fun n e => n + e.record.bytes) 0

/-- Bytes held, reserve included (QUE_LEVEL). -/
def Queue.level (q : Queue) : Nat := q.storageBytes + q.reserveBytes

/-- 4 KiB pages of the reserve that the queue holds (R449). -/
def Queue.pages (q : Queue) : Nat := if q.reserveBytes = 0 then 0 else ceilDiv (q.pageUsed + q.reserveBytes) 4096

/-- Reserve bytes in use in a bay. -/
def Que.reserveBytes (q : Que) : Nat := q.queues.toList.foldl (fun n x => n + x.reserveBytes) 0

/-- Reserve pages in use in a bay. -/
def Que.pagesUsed (q : Que) : Nat := q.queues.toList.foldl (fun n x => n + x.pages) 0

/-- The reserve can take `n` more bytes of queue `i` (R449). -/
def State.reserveFits (s : State) (b : BayNo) (i : Fin 16) (n : Nat) : Bool :=
  let q := (s.bay b).que
  let x := q.queues[i]
  let now := x.pages
  let want := ceilDiv ((if x.reserveBytes = 0 then 0 else x.pageUsed) + x.reserveBytes + n) 4096
  decide (q.pagesUsed - now + want ≤ s.fldN Fld.queReserveSize b / 4096)

/-- Change one queue of a bay. -/
def State.modQueue (s : State) (b : BayNo) (i : Fin 16) (f : Queue → Queue) : State :=
  s.modBay b fun x => { x with que := { x.que with queues := x.que.queues.set i (f x.que.queues[i]) } }

/-- Where a record of `n` bytes goes in queue `i`: none is dropped, some true is the reserve (R449). `spare` is
the 64 bytes kept for a DROPPED GAP record (R453). -/
def State.placeFor (s : State) (b : BayNo) (i : Fin 16) (n spare : Nat) : Option Bool :=
  let q := (s.bay b).que.queues[i]
  if q.storageBytes + n + spare ≤ s.fldN Fld.queQSize b i.val then some false
  else if s.fldB Fld.queQReserve b i.val && s.reserveFits b i n then some true
  else none

/-- Append a placed record. -/
def State.putEntry (s : State) (b : BayNo) (i : Fin 16) (r : Rec) (res : Bool) : State :=
  let t := s.modQueue b i fun q => { q with entries := q.entries ++ [{ record := r, inReserve := res }] }
  t.modBay b fun x => { x with que := { x.que with reservePeak := max x.que.reservePeak x.que.reserveBytes } }

/-- Place the record that reports earlier drops, in the bytes every queue keeps spare (R453). -/
def State.putDropped (s : State) (b : BayNo) (i : Fin 16) : State :=
  match (s.bay b).que.queues[i].drops with
  | none => s
  | some d =>
    let (n, s1) := s.nextSeq b 0xE1 .gap
    let r := s1.mkRec b
      { typ := .gap, source := 0xE1, stamp := d.first, w6hi := 0x8008
        payload := stampWords d.last ++ [0, 0, 0, wd d.count, wd i.val] } n
    let s2 := s1.modQueue b i fun q => { q with drops := none }
    s2.putEntry b i r ((s2.placeFor b i r.bytes 0).getD false)

/-- The queue's own events that storing a record calls for, each with its code: once per epoch (R449, R452, R454). `before` is the
queue's level ahead of the record, and `res` says that the record went to the reserve. -/
def State.queueMarks (s : State) (b : BayNo) (i : Fin 16) (before : Nat) (res : Bool) : List Nat × State :=
  let y := (s.bay b).que
  let q := y.queues[i]
  let mark := s.fldN Fld.queQHighMark b i.val * s.fldN Fld.queQSize b i.val
  let high := decide (q.level * 100 > mark ∧ before * 100 ≤ mark) && !q.highRaised
  let used := res && !y.usedRaised
  let full := decide (s.fldN Fld.queReserveSize b / 4096 ≤ y.pagesUsed) && decide (y.pagesUsed > 0) && !y.exhaustedRaised
  let s1 := if high then s.modQueue b i fun q => { q with highRaised := true } else s
  let s2 := s1.modBay b fun x =>
    { x with que := { x.que with usedRaised := x.que.usedRaised || used, exhaustedRaised := x.que.exhaustedRaised || full } }
  ((if high then [0x0B02] else []) ++ (if used then [0x0B03] else []) ++ (if full then [0x0B04] else []), s2)

/-- Enter a formed record into a queue: stored, or dropped whole (R449, R452 to R454). Answers whether it was
stored, the codes of the events to raise, and the state. -/
def State.storeRec (s : State) (b : BayNo) (i : Fin 16) (r : Rec) : Bool × List Nat × State :=
  let gapBytes := if (s.bay b).que.queues[i].drops.isSome then 64 else 0
  match s.placeFor b i (r.bytes + gapBytes) 64 with
  | some _ =>
    let s1 := s.putDropped b i
    let res := (s1.placeFor b i r.bytes 64).getD true
    let s2 := s1.putEntry b i r res
    let (ev, s3) := s2.queueMarks b i (s.bay b).que.queues[i].level (res || decide ((s.bay b).que.reserveBytes < (s1.bay b).que.reserveBytes))
    (true, ev, s3)
  | none =>
    let raised := (s.bay b).que.queues[i].dropRaised
    let s1 := s.modQueue b i fun q =>
      { q with
        dropped := q.dropped + 1, dropRaised := true
        drops := match q.drops with
          | none => some { first := r.stamp, last := r.stamp, count := 1 }
          | some d => some { d with last := r.stamp, count := d.count + 1 } }
    (false, if raised then [] else [0x0B01], s1)

/-- Raise an event on the event ring only, with the ring's own SEQ (R85, R436, GS_EVENTS of R767). The ring goes with the
headland, and an islanded bay does not reach it (R14, R612). -/
def State.ringOnly (s : State) (b : BayNo) (code : Nat) (payload : List Word) (completion : Bool := false) : State :=
  let n := (s.bay b).que.ringSeq
  let s1 := s.modBay b fun x => { x with que := { x.que with ringSeq := n + 1 } }
  let s2 := (s1.modImg fun y => { y with events := s1.img.events + 1 })
  if !s.alive 0 || !s.sameSide b 0 then s1 else s2.ringEvent (s2.mkRec b (s2.statusBody b code payload) n) completion

/-- The package is stopped for a power entry: producers hand no records to queues (R721 step 3). -/
def State.quiet (s : State) : Bool :=
  match s.pwr.phase with
  | .draining _ _ => true
  | .ebbing _ _ => true
  | .flooding _ => true
  | _ => decide (s.pwr.state ≠ .run)

/-- Records a producer may hand over now: a follower in READY emits only STATUS, CAL and EPOCH records (R98); in a
power entry only GAP records and completions of commands pass (R721); nothing does before READY or in SAFE. -/
def State.mayEmit (s : State) (body : RecBody) : Bool :=
  (match s.img.state with
   | .run => true
   | .ready => decide (body.typ = .status ∨ body.typ = .cal ∨ body.typ = .epoch)
   | _ => false) &&
  (!s.quiet || decide (body.typ = .gap) || (decide (body.typ = .status) && decide (body.w6hi = 0x0101)))

/-- The queue's domain takes packets: the bay is not lost and its datapath is powered (R466, R717). -/
def State.queueAwake (s : State) (b : BayNo) : Bool := s.alive b && (s.bay b).pwr.datapath

/-- A record that meets a fenced queue is dropped and counted in the sending bay; the event is raised once per
fence (R466). Answers the events to raise. -/
def State.fenceDrop (s : State) (b : BayNo) : List Nat × State :=
  let told := (s.bay b).que.fenceTold
  (if told then [] else [0x0B06],
   s.modBay b fun x => { x with que := { x.que with fenceDrop := x.que.fenceDrop + 1, fenceTold := true } })

/-- Enter a formed record at a queue from bay `b`: whether it was stored, the events called for (bay, code,
queue), and the state (R448, R449, R466). A record bound across a split is dropped at its producer and counted (R612). -/
def State.arrive (s : State) (b : BayNo) (queue : Nat) (r : Rec) : Bool × List (BayNo × Nat × Nat) × State :=
  match queueOf queue with
  | none => (false, [], s)
  | some (qb, qi) =>
    if !s.alive qb then (false, [], s)
    else if !s.reaches b qb then
      (false, [], s.modLnl b fun l => { l with splitDrop := l.splitDrop + 1, islandDrop := l.islandDrop + 1 })
    else if !s.queueAwake qb then
      let (ev, s1) := s.fenceDrop b
      (false, ev.map fun c => (b, c, 0), s1)
    else
      let (ok, ev, s1) := s.storeRec qb qi r
      (ok, ev.map fun c => (qb, c, qi.val), s1)

/-- Records that leave an injector arrive at their queues. -/
def State.arriveHeld (s : State) (b : BayNo) (ps : List HeldPacket) : List (BayNo × Nat × Nat) × State :=
  ps.foldl (fun acc p => match p with
    | .data queue r =>
      let (_, ev, s1) := acc.2.arrive b queue r
      (acc.1 ++ ev, s1)
    | .fire .. => acc) ([], s)

/-- Carry an open record to its queue through the link injector of its route, whose decision was drawn before its CRC
was formed (R619): `n` is that injector, `act` the action. -/
def State.carry (s : State) (b : BayNo) (queue : Nat) (n : Fin 5) (act : Nat) (r : Rec) :
    Bool × List (BayNo × Nat × Nat) × State :=
  let (rel, s1) := s.passHeld b n 0
  let (ok, ev, s2) := match act with
    | 0 => s1.arrive b queue r
    | 1 => (true, [], s1)
    | 2 =>
      let (r', t) := s1.corrupt r
      t.arrive b queue r'
    | _ => (true, [], s1.holdPacket b n act (.data queue r))
  let (ev', s3) := s2.arriveHeld b rel
  (ok, ev ++ ev', s3)

/-- The decision of the injector of the stream that a queue feeds, if it feeds one (R750). -/
def State.streamPick (s : State) (qb : BayNo) (qi : Fin 16) : Bool × State :=
  match s.streamOf qb qi with
  | some m => s.streamDraw m
  | none => (false, s)

/-- Hand a body with its SEQ to a queue: the injectors' decisions are drawn and the CRC formed; a sealed record goes to the MAC
engine first and is discarded without a reachable one (R13, R14, R435, R619, R635, R750). -/
def State.handSeq (s : State) (b qb : BayNo) (qi : Fin 16) (body : RecBody) (n : Word) : Bool × List (BayNo × Nat × Nat) × State :=
  let queue := 16 * qb.val + qi.val
  if body.domain = 0 then
    if s.alive 0 && s.reaches b 0 then
      (true, [], (s.modSeal fun y => { y with macQueue := s.keeper.macQueue ++ [(queue, s.mkRec b body n)] }))
    else (false, [], s)
  else
    let (pick, s2) := s.streamPick qb qi
    match if qb = b then none else s2.injectorTo b qb with
    | none =>
      let r := s2.mkRec b { body with flags := body.flags ||| flagIf pick flagInjected } n
      s2.arrive b queue { r with picked := pick }
    | some i =>
      let (act, tell, s3) := s2.linkDraw b i 0
      let r := s3.mkRec b { body with flags := body.flags ||| flagIf (pick || decide (act ≠ 0)) flagInjected } n
      let (ok, ev, s4) := s3.carry b queue i act { r with picked := pick }
      (ok, (if tell then [(b, 0x1220, 0)] else []) ++ ev, s4)

/-- Hand a body to a package-wide queue number, with the next SEQ of its source and type (R436). -/
def State.handRaw (s : State) (b : BayNo) (queue : Nat) (body : RecBody) : Bool × List (BayNo × Nat × Nat) × State :=
  match queueOf queue with
  | none => (false, [], s)
  | some (qb, qi) =>
    if !s.mayEmit body then (false, [], s)
    else
      let (n, s1) := s.nextSeq b body.source body.typ
      s1.handSeq b qb qi body n

/-- A change of attenuation or a retune makes context packets due for the I/Q sources of its port (R569). -/
def State.contextDue (s : State) (b : BayNo) (code : Nat) (payload : List Word) : State :=
  let port := if code = 0x0401 then some (bits ((payload.getD 0 0).toNat) 7 4) else if code = 0x0501 then some (payload.getD 0 0).toNat else none
  match port with
  | none => s
  | some p => (s.modEthPkg fun y => { y with streams := s.eth.streams.map fun x =>
      { x with ctx := x.ctx.filter fun e => !(decide (bits e.1 13 11 = b.val) && decide (bits e.2.toNat 7 6 = p)) } })

/-- The payload of a queue event: its queue, for those that concern one (R801). -/
def queueEventWords (code q : Nat) : List Word := if code = 0x0B01 ∨ code = 0x0B02 then [wd q] else []

/-- Raise an event in a bay: a STATUS record on the event ring, and a copy in QUE.EVENT_QUEUE with a SEQ of its
own (R85, R445, R801). Events that storing the copy calls for reach the ring only. -/
def State.event (s : State) (b : BayNo) (code : Nat) (payload : List Word) (completion : Bool := false) : State :=
  let s1 := (s.contextDue b code payload).ringOnly b code payload completion
  let (_, ev, s2) := s1.handRaw b (s1.pkgN Fld.queEventQueue) (s1.statusBody b code payload)
  ev.foldl (fun s e => s.ringOnly e.1 e.2.1 (queueEventWords e.2.1 e.2.2)) s2

/-- Raise the events that storing a record called for. -/
def State.queueEvents (s : State) (ev : List (BayNo × Nat × Nat)) : State :=
  ev.foldl (fun s e => s.event e.1 e.2.1 (queueEventWords e.2.1 e.2.2)) s

/-- Hand a body over and raise the events this calls for. Answers whether the record was stored. -/
def State.handOver (s : State) (b : BayNo) (queue : Nat) (body : RecBody) : Bool × State :=
  let (ok, ev, s1) := s.handRaw b queue body
  (ok, s1.queueEvents ev)

/-- Hand a body over and forget whether it was stored. -/
def State.enqueue (s : State) (b : BayNo) (queue : Nat) (body : RecBody) : State := (s.handOver b queue body).2

/-- One record into several queues of its bay, under one SEQ (R160, R436). -/
def State.enqueueEach (s : State) (b : BayNo) (qs : List (Fin 16)) (body : RecBody) : State :=
  if qs.isEmpty || !s.mayEmit body then s
  else
    let (n, s1) := s.nextSeq b body.source body.typ
    qs.foldl (fun s q =>
      let (_, ev, s2) := s.handSeq b b q body n
      s2.queueEvents ev) s1

/-! ### Discarded writes, accesses to sleeping domains, and alerts -/

/-- Change the domains of a bay. -/
def State.modDom (s : State) (b : BayNo) (f : PwrBay → PwrBay) : State := s.modBay b fun y => { y with pwr := f y.pwr }

/-- A domain is powered. -/
def PwrBay.powered (p : PwrBay) : Domain → Bool
  | .datapath => p.datapath
  | .core c => p.cores[c]
  | .ports => p.ports
  | .scanOut => p.scanOut
  | .quad q => p.quads[q]
  | .sealKeeper => p.sealKeeper
  | .hkc => p.hkc
  | .frontEnd i => p.frontEnd[i]
  | .supervisor => p.supervisor

/-- A host access meets a fence: EV_ASLEEP_ACCESS once per fence (R30, R466). -/
def State.asleepAccess (s : State) (b : BayNo) (d : Domain) : State :=
  if (s.bay b).pwr.asleepTold.contains d then s
  else (s.modDom b fun p => { p with asleepTold := d :: p.asleepTold }).event 0 0x0B07 []

/-- A host access to a register of domain `d` that has no effect: it meets the fence when the bay works and the domain sleeps (R30,
R466). -/
def State.fencedAccess (s : State) (b : BayNo) (d : Domain) : State :=
  if s.alive b && !(s.bay b).pwr.powered d then s.asleepAccess b d else s

/-- A package address: offset `off` of bay `b` (R758). -/
def bayAddr (b : BayNo) (off : Nat) : Nat := b.val * 0x04000000 + off

/-- A write is discarded: the first of each epoch raises EV_ACCESS_DISCARDED (R759, R765). `path` is 0 for the control
endpoint, 1 for the service port, 2 for DMA space 3. -/
def State.discarded (s : State) (addr path : Nat) : State :=
  if s.ident.accessTold then s
  else (s.modIdent fun y => { y with accessTold := true }).event 0 0x1A02 [wd addr, wd path]

/-- Set a bit of SVC_ALERT_STATUS (R768). -/
def State.alert (s : State) (i : Nat) : State :=
  (s.modIdent fun y => { y with alert := s.ident.alert ||| BitVec.ofNat 8 (2 ^ i) })

/-! ### Gaps -/

/-- The body of an opening GAP record (R442). -/
def gapOpenBody (source : Nat) (g : OpenGap) : RecBody :=
  { typ := .gap, source := source, stamp := g.start, w6hi := BitVec.ofNat 16 g.reason.code, payload := List.replicate 8 0 }

/-- The body of a closing GAP record: t_L, the length, and the units lost (R442). -/
def gapCloseBody (source : Nat) (g : OpenGap) (tR : Stamp) (units : Nat) : RecBody :=
  { typ := .gap, source := source, stamp := tR, w6hi := BitVec.ofNat 16 (0x8000 + g.reason.code)
    payload := stampWords g.start ++ stampWords (tR - g.start) ++ [wd units, 0] }

/-! ### The seal log -/

/-- Words of an entry before its chain MAC (R642). -/
def LogEntry.front (e : LogEntry) : List Word :=
  [e.number, wd (e.kind + (if e.rtc then 256 else 0) + 512 * e.bay.val + 65536 * (e.detail % 65536))] ++
  stampWords e.stamp ++ (e.data ++ List.replicate 7 0).take 7

/-- The bytes of K_dev. -/
def deviceKeyBytes : List Byte := natBytes 32 Config.deviceKey.toNat

/-- The chain MAC of an entry over its predecessor's (R643). -/
def chainMac (prior : List Byte) (e : LogEntry) : List Byte :=
  (hmacSha256 deviceKeyBytes (prior ++ wordsBytes e.front)).take 16

/-- The RTC as a stamp: seconds in [95:64], sub-second count in [63:49] (R642). -/
def Island.stamp (i : Island) : Stamp := i.rtcSec ++ i.rtcSub ++ (0 : BitVec 49)

/-- Free slots of the retention buffer, reservations counted (R628, R645). -/
def Seal.freeSlots (k : Seal) : Nat := 16 - k.island.buffer.length - k.reserved

/-- Make an entry in a free slot (R642, R643, R645). -/
def Seal.push (k : Seal) (kind : Nat) (rtc : Bool) (b : BayNo) (detail : Nat) (stamp : Stamp) (data : List Word) : Seal :=
  let e0 : LogEntry :=
    { number := k.island.counter, kind := kind, rtc := rtc, bay := b, detail := detail, stamp := stamp
      data := (data ++ List.replicate 7 0).take 7, mac := [] }
  let m := chainMac k.island.headMac e0
  { k with island :=
    { k.island with buffer := k.island.buffer ++ [{ e0 with mac := m }], counter := k.island.counter + 1, headMac := m } }

/-- An entry that finds no slot is lost and counted; the counter advances for it too (R643, R645). -/
def Seal.lose (k : Seal) : Seal :=
  { k with island := { k.island with lost := k.island.lost + 1, counter := k.island.counter + 1 } }

/-- Make a seal log entry, with a LOST entry first when entries were lost and two slots are free (R645). The headland
makes none while it is lost (R653). Before the tide counter is set an entry is stamped from the RTC. `fromReserve` uses a slot reserved by a watched change (R628). -/
def State.sealLog (s : State) (kind : Nat) (b : BayNo) (detail : Nat) (data : List Word) (rtc : Bool := false)
    (fromReserve : Bool := false) : State :=
  if (s.bay 0).lost then s
  else
    let rtc := rtc || !(s.bay 0).tbs.set
    let k0 := if fromReserve then { s.keeper with reserved := s.keeper.reserved - 1 } else s.keeper
    let stamp := if rtc then k0.island.stamp else s.now
    let free := k0.freeSlots
    if free = 0 then
      let s1 := (s.modSeal fun _ => k0.lose)
      s1.event 0 0x1322 [wd (k0.island.lost.toNat + 1)]
    else
      let k1 := if k0.island.lost ≠ 0 then
          let k := k0.push 14 rtc 0 0 stamp [wd k0.island.lost.toNat]
          { k with island := { k.island with lost := 0 } }
        else k0
      if k1.freeSlots = 0 then (s.modSeal fun _ => k1.lose).event 0 0x1322 [wd (k1.island.lost.toNat + 1)]
      else (s.modSeal fun _ => k1.push kind rtc b detail stamp data)

/-! ### Streams and their ports -/

/-- The standby port of a stream, if any (R572). -/
def State.standby (s : State) (n : Fin 64) : Option Nat :=
  let p := s.pkgN Fld.ethSStandby n.val
  if p < 64 then some p else none

/-- The port a stream sends from (R565, R572). -/
def State.streamPort (s : State) (n : Fin 64) : Nat :=
  if s.eth.streams[n].onStandby then (s.standby n).getD (s.pkgN Fld.ethSPort n.val) else s.pkgN Fld.ethSPort n.val

/-- The other port of a stream. -/
def State.otherPort (s : State) (n : Fin 64) : Option Nat :=
  if s.eth.streams[n].onStandby then some (s.pkgN Fld.ethSPort n.val) else s.standby n

/-! ### Tolerated faults -/

/-- A later fault `f` strikes the redundancy that the earlier fault `e` has used, as R747's table has it: another member of the
set, the last lane of the link, a further die-to-die link, the port that the streams have moved to, the last candidate, the same
core. -/
def State.strikes (s : State) (f e : FaultId) : Bool :=
  decide (e.code = f.code) && (match f.code with
    | 1 => decide (e.part = f.part) && (s.lnl.ext.toList.getD f.part .reset).lanesUp == 0
    | 2 => decide (e.bay = f.bay)
    | 3 => true
    | 4 => (s.bay 0).clk.present.toList.all fun p => !p
    | 5 => (List.finRange 64).any fun n =>
        decide (s.streamPort n = 8 * f.bay.val + f.part) && decide (s.otherPort n = some (8 * e.bay.val + e.part))
    | _ => decide (e.bay = f.bay ∧ e.part = f.part))

/-- A fault is detected: it is concurrent when another is not yet handled, or when it strikes redundancy that an
earlier one used (R747). -/
def State.faultOpen (s : State) (f : FaultId) (since : Stamp) : State :=
  let l := s.faults
  let earlier := (l.opened.map (·.id)) ++ l.used.filter (s.strikes f)
  match earlier with
  | [] => (s.modFaults fun _ => { l with opened := l.opened ++ [OpenFault.mk f since false] })
  | e :: _ =>
    let s1 := (s.modFaults fun _ => { l with opened := l.opened ++ [OpenFault.mk f since true], concurrent := l.concurrent + 1 })
    s1.event 0 0x1803 [wd e.code, wd e.bay.val, wd f.code, wd f.bay.val]

/-- MON_FAULT_LAST: code, bay and interruption in ns, saturating (R756). -/
def faultLastWord (f : FaultId) (ns : Nat) : Word := wd (f.code + 16 * f.bay.val + 128 * min ns (2 ^ 25 - 1))

/-- The interruption of a fault ends: a tolerated fault is counted as handled, with its length, and its redundancy
is used until repaired (R746, R747). A loss of reference counts with length zero. -/
def State.faultEnd (s : State) (f : FaultId) : State :=
  let l := s.faults
  match l.opened.find? fun x => x.id == f with
  | none => s
  | some o =>
    let rest := l.opened.filter fun x => x.id != f
    if o.concurrent then (s.modFaults fun _ => { l with opened := rest, used := f :: l.used })
    else
      let ns := if f.code = 4 then 0 else toNs (s.now - o.since).toNat
      let w := faultLastWord f ns
      let s1 := (s.modFaults fun _ => { l with opened := rest, used := f :: l.used, handled := l.handled + 1, longest := max l.longest ns, last := w })
      s1.event 0 0x1802 [w]

/-- Faults that something else has brought to an end: they are under way no longer, and count as nothing. -/
def State.faultDrop (s : State) (p : FaultId → Bool) : State :=
  s.modFaults fun y => { y with opened := y.opened.filter fun o => !p o.id }

/-- A repair restores the redundancy that a fault used (R747). -/
def State.faultRepair (s : State) (f : FaultId) : State :=
  (s.modFaults fun y => { y with used := s.faults.used.filter fun x => x != f })

end Sys2Proof.Machine
end

