-- ==== Sys2Proof/Machine/Clk.lean ====
section
/-! DEFINITION. Reference selection and clock synthesis: what the reference and PLL commands do (R101 to R132). -/
namespace Sys2Proof.Machine

/-- The outcome type of every meaning. -/
abbrev Out := Host.Outcome State Fault Refusal

/-- Change the clock block of a bay. -/
def State.modClk (s : State) (b : BayNo) (f : ClkBay → ClkBay) : State := s.modBay b fun x => { x with clk := f x.clk }

/-- The candidates of a priority list, highest first; a 0 ends it (R106). -/
def prioList (v : Nat) : List Cand :=
  ([v % 16, v / 16 % 16, v / 256 % 16, v / 4096 % 16].takeWhile (· ≠ 0)).filterMap fun n =>
    if h : 1 ≤ n ∧ n ≤ 4 then some ⟨n - 1, by omega⟩ else none

/-- The code of a candidate, 0 for none (R101, R129). -/
def candCode : Option Cand → Nat
  | none => 0
  | some c => c.val + 1

/-- REF_L exists only in a shoal follower (R103). -/
def State.candExists (s : State) (c : Cand) : Bool :=
  decide (c ≠ 3) || (decide (s.pkgN Fld.lnlShoalSize > 1) && decide (s.packageNo ≠ 0))

/-- The bay that both external links lie in (R593). -/
def State.linkBay (s : State) : BayNo := ⟨s.pkgN Fld.lnlLinkBay % 8, Nat.mod_lt _ (by decide)⟩

/-- The way round the ring towards package 0 that begins with link `n` is whole: link 0 crosses the ring links p to S - 1, link 1
those from p - 1 down to 0, where ring link k joins packages k and k + 1 (R604). -/
def State.wayWhole (s : State) (n : Fin 2) : Bool :=
  let p := s.packageNo.toNat
  s.lnl.ext[n].port.up && !(s.lnl.cuts.any fun k => if n = 0 then decide (p ≤ k) else decide (k < p))

/-- The upstream link of a follower: the first link of the shorter way to package 0, link 1 where both are equally long, and with a
ring link down the way that is left (R604). -/
def State.upstream (s : State) : Option (Fin 2) :=
  let z := s.pkgN Fld.lnlShoalSize
  let p := s.packageNo.toNat
  if z ≤ 1 ∨ p = 0 then none
  else if s.wayWhole 1 && (decide (2 * p ≤ z) || !s.wayWhole 0) then some 1
  else if s.wayWhole 0 then some 0
  else none

/-- A candidate can show activity in bay `b`: REF_L reaches the link bay over the upstream link, and another bay over the
die-to-die links towards the link bay (R103). -/
def State.candReaches (s : State) (b : BayNo) (c : Cand) : Bool :=
  decide (c ≠ 3) || (s.candExists c && s.upstream.isSome && s.reaches b s.linkBay)

/-- The nominal frequency of a candidate is 100 MHz, not 10 MHz (R101). -/
def State.candFast (s : State) (c : Cand) : Bool :=
  match c with
  | 0 => decide (s.pkgN Fld.clkRefaFreq = 1)
  | 1 => decide (s.pkgN Fld.clkRefbFreq = 1)
  | _ => true

/-- Nominal periods of a candidate, as a duration. -/
def State.candPeriods (s : State) (c : Cand) (n : Nat) : Nat := ofNs (if s.candFast c then 10 * n else 100 * n)

/-- The bandwidth of the reference DPLL in units of 0.1 Hz (R127). How the loop follows its candidate between measurements is not
stated (log entry 69). -/
def State.dpllBandwidth (s : State) : Nat := 10 ^ s.pkgN Fld.clkDpllBw

/-- The offset lies within ±CLK.QUAL_PPM of the DPLL's output, in units of 10^-12 (R107). -/
def State.candWithin (s : State) (off : Int) : Bool := decide (off.natAbs ≤ 100000 * s.pkgN Fld.clkQualPpm)

/-- A bay's reports reach the headland (R105). -/
def State.reports (s : State) (b : BayNo) : Bool := s.alive b && s.alive 0 && s.reaches b 0 && s.sameSide b 0

/-- A candidate is qualified in the headland's view: its own monitor has qualified it, and no bay that reports has lost it since
(R105, R107; log entry 67). -/
def State.candQualified (s : State) (c : Cand) : Bool :=
  (s.bay 0).clk.qualified[c] && s.liveBays.all fun b => !s.reports b || (s.bay b).clk.lostCand[c].isNone

/-- The highest-priority candidate that is qualified, the resumed one counting as qualified (R110 step 3). -/
def State.chooseCand (s : State) (prio : Nat) (resumed : Option Cand) : Option Cand :=
  (prioList prio).find? fun c => s.candQualified c || decide (resumed = some c)

/-! ### The reference DPLL's frequency -/

/-- The change of frequency that pull-in makes in a duration at CLK.PULL_RATE of 0.01 ppm/s (R110 step 5). -/
def State.pulled (s : State) (d : Nat) : Nat := 10000 * s.pkgN Fld.clkPullRate * d / unitsPerSec

/-- The output offset of a bay's reference DPLL at `t`: during pull-in it slews linearly towards the candidate's (R110, R128). -/
def State.dpllFreq (s : State) (b : BayNo) (t : Stamp) : Int :=
  let k := (s.bay b).clk
  match (if s.sel.state = .pullIn then s.sel.target.bind fun c => k.candFreq[c] else none) with
  | none => k.freqOffset
  | some f =>
    let d := f - k.freqOffset
    let m := min d.natAbs (s.pulled (t - s.sel.since).toNat)
    if 0 ≤ d then k.freqOffset + m else k.freqOffset - m

/-- Twice the area under a frequency given by its corners, newest first, from `w` on. -/
def freqArea (w : Stamp) : List (Stamp × Int) → Int
  | [] => 0
  | [(t, f)] => if stampLt w t then 2 * f * stampDiff t w else 0
  | (t1, f1) :: (t0, f0) :: r =>
    if stampLe t1 w then 0
    else if stampLe w t0 then (f0 + f1) * stampDiff t1 t0 + freqArea w ((t0, f0) :: r)
    else
      let fw := f0 + (f1 - f0) * stampDiff w t0 / max 1 (stampDiff t1 t0)
      (fw + f1) * stampDiff t1 w

/-- The held frequency: the mean output offset over the 1 s that ends at `t`, to the nearest 10^-12 (R110 step 1). -/
def State.meanFreq (s : State) (b : BayNo) (t : Stamp) : Int :=
  (freqArea (t - BitVec.ofNat 96 unitsPerSec) ((t, s.dpllFreq b t) :: (s.bay b).clk.knots) + (unitsPerSec : Int)) / (2 * unitsPerSec : Nat)

/-- A bay freezes its reference DPLL: at the held frequency, or at its current one when it was building out or pulling in (R110
step 1, R114). -/
def State.freezeDpll (s : State) (b : BayNo) : State :=
  if (s.bay b).clk.frozen then s
  else
    let t := s.nowAt b
    let f := if s.sel.state = .pullIn ∨ s.sel.state = .buildOut then s.dpllFreq b t else s.meanFreq b t
    s.modClk b fun k => { k with frozen := true, freqOffset := f, knots := [(t, f)] }

/-- What a CLK_CAND_OFFSET register shows: the offset of a candidate from the DPLL's output now (R128); 0 of one that shows
activity and has not been measured (DESIGN CHOICE, log entry 68). -/
def State.candOffset (s : State) (b : BayNo) (c : Cand) : Int :=
  match (s.bay b).clk.candFreq[c] with
  | none => 0
  | some f => f - s.dpllFreq b (s.nowAt b)

/-! ### Switch episodes -/

/-- Start of a switch episode by the values in force now (R111, R114). -/
def State.openEpisode (s : State) (sel : Selector) : State :=
  if s.sel.episode then
    (s.modSel fun _ => { sel with episode := true, prio := s.sel.prio, revertive := s.sel.revertive, episodes := s.sel.episodes })
  else
    (s.modSel fun _ =>
      { sel with
        episode := true, prio := s.pkgN Fld.clkRefPrio, revertive := decide (s.pkgN Fld.clkRevertive = 1)
        episodes := (s.now, none) :: s.sel.episodes })


/-- Count a reference switch in every live bay, saturating (R128). -/
def State.countSwitch (s : State) : State :=
  s.eachBay s.liveBays fun s b => s.modClk b fun c => { c with switches := satAdd 0xFFFF c.switches 1 }

/-- Build-out towards a candidate begins: EV_REF_SWITCH names the old and new candidates and the stamp (R110 step 4,
R132). -/
def State.beginBuildOut (s : State) (old : Option Cand) (c : Cand) (tell : Bool) : State :=
  let s1 := (s.modSel fun y => { y with state := .buildOut, target := some c, since := s.now })
  if tell then (s1.countSwitch).event 0 0x0203 ([wd (candCode old), wd (candCode (some c))] ++ stampWords s1.now) else s1

/-- The candidate that a revertive switch-back would take: qualified and of higher priority than the active one
(R112). -/
def State.betterCand (s : State) : Option Cand :=
  if s.pkgN Fld.clkRevertive = 1 then
    match s.sel.active with
    | none => none
    | some a => ((prioList (s.pkgN Fld.clkRefPrio)).takeWhile (· ≠ a)).find? s.candQualified
  else none

/-- Start a switch-back when one is due (R112, R114). -/
def State.maybeSwitchBack (s : State) : State :=
  match s.betterCand with
  | none => s
  | some c => ((s.openEpisode { s.sel with lost := none, resumed := false }).beginBuildOut s.sel.active c true)

/-- The qualification window that ends with the candidate's qualification in bay `b`: the one that runs; of a candidate whose return
no command has told, one that began at its loss at the earliest, or else a window's length ago (R107). -/
def State.windowBegin (s : State) (b : BayNo) (c : Cand) : Stamp × Nat :=
  let k := (s.bay b).clk
  let n := s.pkgN Fld.clkQualWindow
  (k.window[c]).getD ((k.lostCand[c]).getD (s.nowAt b - BitVec.ofNat 96 (ofMs (100 * n))), n)

/-- CLK_QUAL_ELAPSED (R128): the ms since a candidate's window began, at most the window; 0 while none runs. -/
def State.qualElapsed (s : State) (b : BayNo) (c : Cand) : Nat :=
  match (s.bay b).clk.window[c] with
  | none => 0
  | some (t, w) => min (100 * w) ((s.nowAt b - t).toNat * 1000 / unitsPerSec)

/-- A bay notes the loss of a candidate; `silent` leaves it without activity (R105, R107, R108). -/
def State.noteLoss (s : State) (b : BayNo) (c : Cand) (silent : Bool) : State :=
  s.modClk b fun k =>
    { k with
      present := k.present.set c (!silent), qualified := k.qualified.set c false, lostCand := k.lostCand.set c (some (s.nowAt b))
      candFreq := if silent then k.candFreq.set c none else k.candFreq
      window := k.window.set c (if silent then none else some (s.nowAt b, s.pkgN Fld.clkQualWindow)) }

/-- REF_LOSS_DETECT (R105, R108, R110, R114): bay `b` detects the loss of candidate `c`, whose last good edge was at
`t0`; `silent` says that no edge arrives any more, which shows three nominal periods after it. The bay freezes at once, and its
report reaches the headland over the fabric. -/
def execRefLossDetect (b : BayNo) (c : Cand) (t0 : Stamp) (silent : Bool) (sIn : State) : Out :=
  if !sIn.alive b || !((sIn.bay b).clk.present[c]) then .next sIn
  else
    let s := if silent then sIn.reach (later t0 (sIn.candPeriods c 3)) else sIn
    let chosen := decide (s.sel.target = some c) && decide (s.sel.state = .buildOut ∨ s.sel.state = .pullIn)
    let active := decide (s.sel.active = some c) && decide (s.sel.state = .locked)
    let again := decide (s.sel.lost = some c) && decide (s.sel.state = .deglitch)
    let s1 := (if chosen || active || again then s.freezeDpll b else s).noteLoss b c silent
    if (chosen || active) && s1.reports b then
      let s2 := s1.openEpisode { s1.sel with state := .deglitch, target := none, lost := some c, t0 := t0, resumed := false }
      .next (s2.faultOpen { code := 4, bay := 0, part := c.val } s2.now)
    else .next s1

/-- What the bays note of the lost reference when the deglitch interval ends (R110 step 3). -/
def State.noteDeglitch (s : State) (resumed : Bool) (lost choice : Option Cand) : State :=
  match lost with
  | some c => s.eachBay s.liveBays fun s b => (s.freezeDpll b).modClk b fun k =>
      { k with present := if resumed then k.present.set c true else k.present
               window := if resumed && (k.window[c]).isNone then k.window.set c (some (s.nowAt b, s.pkgN Fld.clkQualWindow)) else k.window
               qualified := if resumed ∧ choice = some c then k.qualified.set c true else k.qualified
               lostCand := if resumed ∧ choice = some c then k.lostCand.set c none else k.lostCand }
  | none => s

/-- The fault of a lost reference is handled when its deglitch interval has ended (R746). -/
def State.endRefFault (s : State) (lost : Option Cand) : State :=
  match lost with
  | some c => s.faultEnd { code := 4, bay := 0, part := c.val }
  | none => s

/-- Holdover: no candidate can be used (R110 step 3, R132). -/
def State.beginHoldover (s : State) : State :=
  ((s.modSel fun y => { y with state := .holdover, active := none, target := none }) : State).event 0 0x0206 []

/-- The deglitch interval has ended with `lost` and the candidate chosen next (R110 step 3, R114, R132, R746). -/
def State.endDeglitch (s : State) (resumed : Bool) (lost choice : Option Cand) : State :=
  let s1 := s.noteDeglitch resumed lost choice
  let s2 := (s1.modSel fun y => { y with resumed := resumed })
  let s3 := if resumed then s2.event 0 0x0202 []
            else s2.event 0 0x0201 [wd (candCode lost), wd (candCode choice)]
  s3.endRefFault lost

/-- REF_DEGLITCH_END (R110 step 3, R114, R132, R746): the deglitch interval ends at t0 + 10 µs; `resumed` says that the
lost reference shows activity again. -/
def execRefDeglitchEnd (resumed : Bool) (s0 : State) : Out :=
  if s0.sel.state ≠ .deglitch then .next s0
  else
    let s := s0.reach (later s0.sel.t0 (ofUs 10))
    let lost := s.sel.lost
    let choice := s.chooseCand s.sel.prio (if resumed then lost else none)
    let s4 := s.endDeglitch resumed lost choice
    match choice with
    | none => .next s4.beginHoldover
    | some c => .next (s4.beginBuildOut lost c (decide (some c ≠ lost)))

/-- BUILD_OUT_END (R110 step 4): 50 µs after it began the build-out completes with phase offset `phase`, in units of
0.25 ps, and pull-in begins from the frequency of that moment. -/
def execBuildOutEnd (phase : Int) (s : State) : Out :=
  if s.sel.state ≠ .buildOut then .next s
  else
    let t := later s.sel.since (ofUs 50)
    let s1 := s.reach t
    let s2 := s1.eachBay s1.liveBays fun s b => s.modClk b fun k =>
      { k with phaseOffset := phase, frozen := false, knots := (t, k.freqOffset) :: k.knots }
    .next (s2.modSel fun y => { y with state := .pullIn, since := t })

/-- The pull-in time of a frequency offset of `d` in 10^-12 at CLK.PULL_RATE of 0.01 ppm/s (R110 step 5). -/
def State.pullInTime (s : State) (d : Int) : Nat := durOf d.natAbs (10000 * s.pkgN Fld.clkPullRate)

/-- PULL_IN_DONE (R110 step 5, R112, R114): the frequency has reached the chosen candidate's, at `freq` in 10^-12 from
nominal; the episode ends, and a better candidate that qualified meanwhile is switched to. The form of the pull-in duration in
EV_REF_SWITCH_DONE is not stated: it takes the three words of a 96-bit time (DEDUCED, log entry 68). -/
def execPullInDone (freq : Int) (s : State) : Out :=
  if s.sel.state ≠ .pullIn then .next s
  else
    let d := s.pullInTime (freq - (s.bay 0).clk.freqOffset)
    let t := later s.sel.since d
    let s1 := s.reach t
    let s2 := s1.eachBay s1.liveBays fun s b => s.modClk b fun k =>
      { k with freqOffset := freq, knots := (t, freq) :: k.knots
               candFreq := match s.sel.target with
                 | some c => k.candFreq.set c (some freq)
                 | none => k.candFreq }
    let s3 := (s2.modSel fun y =>
      { y with state := .locked, active := s2.sel.target, target := none, lost := none, episode := false, episodes := closeSpan t y.episodes })
    let s4 := s3.event 0 0x0204 ([wd (candCode s3.sel.active), Word.ofSigned (s3.bay 0).clk.phaseOffset] ++
      stampWords (BitVec.ofNat 96 d))
    .next s4.maybeSwitchBack

/-- A candidate has become qualified in the headland's view: a package in holdover switches to it, a locked one switches back to a
better one, and one that has had no reference yet takes it (R110, R112, R132, log entry 33). -/
def State.takeQualified (s : State) (c : Cand) : State :=
  let s2 := s.event 0 0x0205 []
  if s2.sel.state = .holdover ∧ c ∈ prioList s2.sel.prio then s2.beginBuildOut s2.sel.lost c true
  else if s2.sel.state = .free ∧ c ∈ prioList (s2.pkgN Fld.clkRefPrio) then
    (s2.openEpisode { s2.sel with lost := none, resumed := false }).beginBuildOut none c true
  else if s2.sel.state = .locked then s2.maybeSwitchBack
  else s2

/-- REF_QUALIFIED (R105, R107, R110, R112): candidate `c` completes its window in bay `b` with offset `off` from the DPLL's output,
in 10^-12. An offset outside the tolerance qualifies nothing. -/
def execRefQualified (b : BayNo) (c : Cand) (off : Int) (s0 : State) : Out :=
  if !s0.alive b || !s0.candReaches b c || !s0.candWithin off || (s0.bay b).clk.qualified[c] then .next s0
  else
    let w := s0.windowBegin b c
    let s := s0.reach (later w.1 (ofMs (100 * w.2)))
    let f := off + s.dpllFreq b (s.nowAt b)
    let s1 := s.modClk b fun k =>
      { k with present := k.present.set c true, qualified := k.qualified.set c true, window := k.window.set c (some w)
               candFreq := k.candFreq.set c (some f), lostCand := k.lostCand.set c none }
    if s1.reports b && s1.candQualified c && !s.candQualified c then
      .next ((s1.faultRepair { code := 4, bay := 0, part := c.val }).takeQualified c)
    else .next s1

/-- REF_DISQUALIFIED (R107): candidate `c` shows offset `off`, outside the tolerance, in bay `b`: a qualified one, after 1 s without
a break, is qualified no longer, and the window of another starts again. -/
def execRefDisqualified (b : BayNo) (c : Cand) (off : Int) (s : State) : Out :=
  if !s.alive b || !s.candReaches b c || s.candWithin off then .next s
  else
    let f := off + s.dpllFreq b (s.nowAt b)
    .next (s.modClk b fun k =>
      { k with
        present := k.present.set c true, qualified := k.qualified.set c false, candFreq := k.candFreq.set c (some f)
        window := k.window.set c (if k.qualified[c] then none else some (s.nowAt b, s.pkgN Fld.clkQualWindow)) })

/-! ### Clock outputs -/

/-- The ADC rate f_ADC in samples per second (R115). -/
def State.fAdc (s : State) : Nat :=
  match s.pkgN Fld.clkFAdc with
  | 0 => 20480000000
  | 1 => 19660800000
  | _ => 16384000000

/-- The outputs of the SPLL and the CPLL (R116, R120). -/
inductive ClockOut where
  | adc (i : Fin 2) | sysref | refOut | tdc | comb | fclk | fabric | laneRef | pixel
  deriving DecidableEq, Repr

/-- A clock that runs: its frequency in Hz as a fraction, and its delay in steps of 1/327.68 GHz (R116, R117). -/
structure ClockSignal where
  num : Nat
  den : Nat
  delay : Int
  deriving DecidableEq, Repr

/-- The delay of a converter's clock: the setting plus the factory deskew (R117). -/
def State.adcDelay (s : State) (b : BayNo) (i : Fin 2) : Int :=
  s.fld (if i = 0 then Fld.clkAdc0Delay else Fld.clkAdc1Delay) b + Config.adcDeskew b i.val

/-- The signal of an output of bay `b`: none is a gated or disabled one, driven low (R116 to R120, R123). -/
def State.clockOut (s : State) (b : BayNo) (o : ClockOut) : Option ClockSignal :=
  let k := (s.bay b).clk
  let on := fun (c : Bool) (num den : Nat) (delay : Int) => if c then some (ClockSignal.mk num den delay) else none
  let spll := k.spllLock && !k.gated
  match o with
  | .adc i => on (spll && (s.fldN Fld.clkAdcEn b).testBit i.val) s.fAdc 1 (s.adcDelay b i)
  | .sysref => on (spll && decide (s.fldN Fld.clkSysrefMode b ≠ 0)) s.fAdc (64 * s.fldN Fld.clkSysrefDiv b) (s.fld Fld.clkSysrefDelay b)
  | .refOut => on (spll && s.fldB Fld.clkRefoutEn b) s.fAdc (s.fldN Fld.clkRefoutDiv b) (s.fld Fld.clkRefoutDelay b)
  | .tdc => on spll s.fAdc 16 0
  | .comb => on (spll && (s.bay b).afe.inputs.toList.any (·.combSel)) s.fAdc 2048 0
  | .fclk => on k.cpllLock 1280000000 1 0
  | .fabric => on k.cpllLock 2560000000 1 0
  | .laneRef => on k.cpllLock (if s.fldN Fld.clkLaneRef b = 0 then 156250000 else 100000000) 1 0
  | .pixel => on (k.cpllLock && s.fldB Fld.scnEn b) (1000 * s.fldN Fld.scnPixelKhz b) 1 0

/-- A delay in steps of 1/327.68 GHz as a duration (R117). -/
def stepDelay (d : Int) : Int := if 0 ≤ d then durOf d.natAbs 327680000000 else -(durOf d.natAbs 327680000000)

/-- The next edge of SYSREF_OUT before its output delay: a whole number of periods after the first of a run; where the first one of
a run falls is not stated (DESIGN CHOICE, log entry 70). -/
def State.sysrefNext (s : State) (b : BayNo) : Stamp :=
  match (s.bay b).clk.sysrefFrom with
  | none => s.nowAt b
  | some (t, n) => later t (durOf ((n + 1) * 64 * s.fldN Fld.clkSysrefDiv b) s.fAdc)

/-- An edge of SYSREF_OUT has left: the run goes on from the first one. -/
def ClkBay.sysrefStep (k : ClkBay) (t : Stamp) : ClkBay :=
  { k with sysrefFrom := match k.sysrefFrom with
      | none => some (t, 0)
      | some (a, n) => some (a, n + 1) }

/-- CLK_SYSREF_FIRE (R119, R128): a write of 1 to CLK_SYSREF_CTRL.FIRE issues one burst in pulsed mode. -/
def execClkSysrefFire (b : BayNo) (s : State) : Out :=
  if !s.alive b || (s.bay b).clk.gated || s.fldN Fld.clkSysrefMode b ≠ 2 then .next s
  else .next (s.modClk b fun k => { k with sysrefLeft := s.fldN Fld.clkSysrefPulses b, sysrefFrom := none })

/-- CLK_FAULT_CNT_READ (R128): the register is read and clears. -/
def execClkFaultCntRead (b : BayNo) (s : State) : Out :=
  if !s.alive b then .next s else .next (s.modClk b fun k => { k with unlocks := 0, switches := 0 })

/-- SPLL_LOL_CLEAR (R130): a 1 is written to CLK_PLL_STATUS.SPLL_LOL. -/
def execSpllLolClear (b : BayNo) (s : State) : Out :=
  if !s.alive b then .next s else .next (s.modClk b fun k => { k with spllLol := false })

/-- SPLL_STUCK_TIMEOUT (R123): the SPLL has not relocked 3 ms after detection; the event is raised once an episode. -/
def execSpllStuckTimeout (b : BayNo) (s : State) : Out :=
  let k := (s.bay b).clk
  if !s.alive b || !k.unlockEpisode || k.stuckTold then .next s
  else .next ((s.modClk b fun k => { k with stuckTold := true }).event b 0x0212 [])

end Sys2Proof.Machine
end

