-- ==== Sys2Proof/Machine/Tbs.lean ====
section
/-! DEFINITION. The timebase: edges, the servo, snapshots and reads (R133 to R169). The boundary itself is in
Epoch.lean and the global reset in Startup.lean. -/
namespace Sys2Proof.Machine

/-- Change the timebase of a bay. -/
def State.modTbs (s : State) (b : BayNo) (f : TbsBay → TbsBay) : State := s.modBay b fun x => { x with tbs := f x.tbs }

/-- Change the epoch grid. -/
def State.modGrid (s : State) (f : Grid → Grid) : State := { s with tbs := { s.tbs with grid := f s.tbs.grid } }

/-- Change the servo. -/
def State.modServo (s : State) (f : Discipline → Discipline) : State := { s with tbs := { s.tbs with servo := f s.tbs.servo } }

/-- A global reset is issued (R165): across a shoal it travels over the external links. -/
def State.issueReset (s : State) : State :=
  let s1 := (s.modTbsPkg fun y => { y with resetIssued := true })
  if s.pkgN Fld.lnlShoalSize > 1 then s1.emit (.packet "GLOBAL_RESET" 0 []) else s1

/-- One FCLK edge passes: the tide counter of every bay that runs moves on by its addend (R134, log entry 5). -/
def State.tick (s : State) : State :=
  if s.running then
    ({ s with bays := s.bays.map fun x => x.advance x.tbs.addend.toNat s.slewMax } : State).quietTime (durOf 1 1280000000)
  else s

/-! ### Edges at the TDCs -/

/-- A stamp to the nearest of `f` steps a second, ties later; the steps are counted from the whole second (DESIGN CHOICE, log entry
72). -/
def toStep (f : Nat) (t : Stamp) : Stamp :=
  let sec := t.toNat / unitsPerSec
  let k := ((t.toNat % unitsPerSec) * f * 2 + unitsPerSec) / (2 * unitsPerSec)
  BitVec.ofNat 96 (sec * unitsPerSec + durOf k f)

/-- A stamp to the nearest FCLK period (R142): 781.25 ps is 1/1.28 GHz. -/
def coarse (t : Stamp) : Stamp := toStep 1280000000 t

/-- The stamp at the pin of an edge that reached the TDC at counter time `t`: the TDC resolves 0.25 ps, or an FCLK period while its
reference is gated, and the delay from the pin is taken off (R137, R140, R142). -/
def State.pinStamp (s : State) (b : BayNo) (p : Nat) (t : Stamp) : Stamp :=
  (if (s.bay b).tbs.tdcCoarse then coarse t else toStep 4000000000000 t) - BitVec.ofNat 96 (Config.pinDelay b p)

/-- What a TDC makes of an edge on pin `p` (0 SYNC_IN, 1 PPS_IN, 2 and 3 TRIG_IN, 4 SYSREF_IN) of a bay that reaches it at counter
time `t`: the stamp at the pin, or none when the pulse before it was shorter than 2 ns or another edge of the pin was stamped less
than 50 ns before; such an edge is counted, but for SYSREF_IN (R137, R140 to R142, R167). -/
def State.tdcEdge (s : State) (b : BayNo) (p : Fin 5) (t : Stamp) (longPulse : Bool) : Option Stamp × State :=
  let x := (s.bay b).tbs
  if !s.alive b || !s.pinned b || !x.set then (none, s)
  else
    let near := match x.lastEdge[p] with
      | none => false
      | some l => decide (stampDiff t l < (ofNs 50 : Nat))
    if !longPulse || near then
      (none, if h : p.val < 4 then s.modTbs b fun y =>
        { y with edgeLost := y.edgeLost.set p.val (if y.edgeLost[p.val] = 0xFF then 0xFF else y.edgeLost[p.val] + 1) }
        else s)
    else (some (s.pinStamp b p.val t), s.modTbs b fun y => { y with lastEdge := y.lastEdge.set p (some t) })

/-- An edge that moves nothing is counted (R157, R167). -/
def Grid.ignore (g : Grid) : Grid :=
  { g with ignoredEpoch := satAdd 0xFFFF g.ignoredEpoch 1
           ignored := if g.ignored = 0xFFFF then 0xFFFF else g.ignored + 1 }

/-- The grid goes on from `t`: the next nominal boundary is t + L (R157, R159). -/
def Grid.restart (g : Grid) (t : Stamp) : Grid :=
  { g with origin := t, steps := 1, next := later t (durOf g.tens 100000000) }

/-- The grid's response to a usable edge at `t`, with a coarse stamp or not (R142, R157, R158). -/
def Grid.onEdge (g : Grid) (t : Stamp) (rough : Bool) : Grid :=
  let lateOk := match g.past with
    | some b => !g.locked && stampLe b t && stampLe t (later b g.window)
    | none => false
  let early := stampLe (moved g.next (-(g.window : Int))) t
  let inWindow := early && (if g.locked then stampLe t (later g.next g.window) else stampLt t g.next)
  let longEnough := decide (stampDiff t g.start ≥ (ofUs 1 : Nat))
  if lateOk then { g.restart t with reanchored := true, locked := true, past := none }
  else if inWindow && longEnough && g.edge.isNone then { g with edge := some t, edgeCoarse := rough, locked := true, past := none }
  else g.ignore

/-- This package follows a leader in a shoal, and has taken the leader's time and grid: then the leader's epoch and SYNC settings
govern (R97, R145). -/
def State.followed (s : State) : Option LeaderTime :=
  if s.pkgN Fld.lnlShoalSize > 1 && decide (s.packageNo ≠ 0) && s.tbs.adopted then s.tbs.leader else none

/-- The package whose SYNC_IN governs (R145, R157). -/
def State.syncPackage (s : State) : Nat := (s.followed.map (·.syncPackage)).getD (s.pkgN Fld.tbsSyncPackage)

/-- SYNC_IN_EDGE (R137, R140 to R143, R154, R157, R158): an edge of SYNC_IN that reaches the TDC of bay `b` at counter time `t`;
`falling` is its polarity and `longPulse` says the pulse before it lasted 2 ns. The headland's stamp governs; `relayed` is a
decision relayed from the package of the shoal whose SYNC_IN governs, at pin stamp `t`. While no grid runs an edge is neither used
nor counted in IGNORED (DESIGN CHOICE, log entry 73). -/
def execSyncInEdge (b : BayNo) (t : Stamp) (falling longPulse relayed : Bool) (s : State) : Out :=
  if !relayed && decide (falling ≠ decide (s.pkgN Fld.tbsSyncEdge = 1)) then .next s
  else
    let (u, s1) := if relayed then (some t, s) else s.tdcEdge b 0 t longPulse
    let governs := if s.pkgN Fld.lnlShoalSize > 1 then (decide (s.syncPackage = s.packageNo.toNat) != relayed) else !relayed
    match u with
    | none => .next s1
    | some u =>
      let g := s1.tbs.grid
      if b ≠ 0 ∨ !governs ∨ !g.running ∨ g.window = 0 then .next s1
      else
        let s2 := s1.modGrid fun g => g.onEdge u (!relayed && (s.bay b).tbs.tdcCoarse)
        let s3 := if !relayed && decide (s.pkgN Fld.lnlShoalSize > 1) then s2.emit (.packet "SYNC_DECISION" 0 (stampWords u)) else s2
        .next (if s3.tbs.grid.locked && !g.locked then s3.event 0 0x0310 [] else s3)

/-- SYNC_WINDOW_END (R157): the window of a boundary ends without an edge. In LOCKED the boundary falls at B + W, marked
SYNC_MISSED, and the grid returns to SEARCH; in SEARCH the late half-window closes. -/
def execSyncWindowEnd (s0 : State) : Out :=
  let g := s0.tbs.grid
  if !g.running ∨ g.window = 0 then .next s0
  else if g.locked then
    if g.edge.isSome then .next s0
    else
      let t := later g.next g.window
      let s := s0.reach t
      .next ((s.modGrid fun g => { g with edge := some t, missed := true, locked := false }).event 0 0x0311 [])
  else .next (s0.modGrid fun g => { g with past := none })

/-! ### Steps of time -/

/-- A span of stamps as a step of `d` leaves it: one under way also covers what is stamped after a step back. -/
def shiftSpan (d : Int) (e : Stamp × Option Stamp) : Stamp × Option Stamp :=
  if e.2.isNone then (moved e.1 (min d 0), none) else e

/-- What a bay holds in its counter's time for what is still to come moves with a step (R153, R242); stamps already issued stay. -/
def Bay.shift (y : Bay) (d : Int) : Bay :=
  let mv := fun (t : Stamp) => moved t d
  { y with
    tbs := { y.tbs with tide := y.tbs.tide + BitVec.ofInt 128 (d * 2 ^ 32), lastEdge := y.tbs.lastEdge.map (·.map mv) }
    clk := { y.clk with
      window := y.clk.window.map (·.map fun w => (mv w.1, w.2)), lostCand := y.clk.lostCand.map (·.map mv)
      knots := y.clk.knots.map fun k => (mv k.1, k.2), sysrefFrom := y.clk.sysrefFrom.map fun k => (mv k.1, k.2) }
    ddc := y.ddc.map fun p => { p with line := p.line.map fun z => { z with start := z.start.add (Exact.ofUnits d) } }
    xfm := { y.xfm with chans := y.xfm.chans.map fun c =>
      { c with confs := c.confs.map fun f => { f with since := mv f.since } } }
    afe := { y.afe with inputs := y.afe.inputs.map fun a =>
      { a with intervals := a.intervals.map fun r => (mv r.1, r.2.map mv), changedAt := mv a.changedAt } }
    trg := { y.trg with units := y.trg.units.map fun u =>
      { u with holdoffTo := mv u.holdoffTo, lastInstant := mv u.lastInstant
               segments := u.segments.map fun g => { g with last := g.last.map mv } } }
    mon := y.mon.map fun u => { u with sampledAt := mv u.sampledAt }
    hkc := { y.hkc with feAt := y.hkc.feAt.map mv }
    cal := y.cal.map fun c => { c with backoff := c.backoff.map mv, lastEnd := c.lastEnd.map mv }
    mco := { y.mco with cores := y.mco.cores.map fun k =>
      { k with timerDue := k.timerDue.map mv, wdtFrom := mv k.wdtFrom, waitFrom := mv k.waitFrom } }
    scn := { y.scn with frameStart := mv y.scn.frameStart, retryFrom := y.scn.retryFrom.map mv }
    lne := { y.lne with lanes := y.lne.lanes.map fun l => { l with mark := mv l.mark, lockAt := mv l.lockAt } }
    jes := y.jes.map fun j => { j with grid := j.grid.map mv, nextGrid := j.nextGrid.map mv }
    lnl := { y.lnl with ports := y.lnl.ports.map (fun p => { p with retrainAt := mv p.retrainAt }), isles := y.lnl.isles.map (shiftSpan d), holds := y.lnl.holds.map (shiftSpan d) }
    dma := { y.dma with chans := y.dma.chans.map fun c => { c with nextBurst := c.nextBurst.map mv }, busyTo := y.dma.busyTo.map mv } }

/-- What the package holds in the headland's time moves with a step of the headland (R153). -/
def State.shiftPackage (s : State) (d : Int) : State :=
  let mv := fun (t : Stamp) => moved t d
  { s with
    sel := { s.sel with t0 := mv s.sel.t0, since := mv s.sel.since, episodes := s.sel.episodes.map (shiftSpan d) }
    tbs := { s.tbs with servo := { s.tbs.servo with heard := mv s.tbs.servo.heard, followed := s.tbs.servo.followed.map mv, rates := s.tbs.servo.rates.map fun r => (mv r.1, r.2) }
                        away := s.tbs.away.map mv }
    eth := { s.eth with neighbours := s.eth.neighbours.map fun n => { n with due := mv n.due } }
    lnl := { s.lnl with ext := s.lnl.ext.map fun x => { x with start := mv x.start, retryAt := mv x.retryAt } }
    faults := { s.faults with opened := s.faults.opened.map fun f => { f with since := mv f.since } } }

/-! ### The servo -/

/-- The source's seconds mark: an offset from the nearest whole second, in units of 2^-64 s. -/
def offsetFromSecond (t : Stamp) : Int :=
  let f := t.toNat % unitsPerSec
  if 2 * f ≥ unitsPerSec then (f : Int) - unitsPerSec else f

/-- Units of 0.25 ps as units of 2^-64 s. -/
def quarterPs (n : Int) : Int := n * unitsPerSec / 4000000000000

/-- The addend with a steering of `r` in 10^-12 (R134, R149). -/
def steeredAddend (r : Int) : Tide :=
  BitVec.ofInt 128 ((nominalAddend.toNat : Int) + (nominalAddend.toNat : Int) * r / 1000000000000)

/-- Apply a steering, within TBS.SLEW_MAX, in every bay that follows the headland (R135, R149). -/
def State.steer (s : State) (r : Int) : State :=
  let v := max (-s.slewMax) (min s.slewMax r)
  let s1 := s.modServo fun d => { d with rateAdj := v, rates := (s.now, v) :: d.rates }
  s1.eachBay s1.liveBays fun s b => if (s.bay b).tbs.islanded then s else s.modTbs b fun x => { x with addend := steeredAddend v }

/-- The steering the servo chooses, which the spec bounds by TBS.SLEW_MAX and does not state: what its loop, of bandwidth
TBS.SERVO_BW, makes of a measured offset at the steering in force (R149, log entry 8). -/
def State.freeSteer (s : State) (off : Int) : State :=
  s.steer (Config.servoLoop (s.pkgN Fld.tbsServoBw) off s.tbs.servo.rateAdj)

/-- The area of a steering, given by when each began, from `w` up to `t`. -/
def rateArea (w : Stamp) : Stamp → List (Stamp × Int) → Int
  | _, [] => 0
  | t, (a, r) :: l =>
    if stampLe a w then (if stampLt w t then r * stampDiff t w else 0)
    else r * max 0 (stampDiff t a) + rateArea w (if stampLt a t then a else t) l

/-- The mean of the steering over the 10 s that end now (R149). -/
def State.meanRate (s : State) : Int :=
  let n : Nat := 10 * unitsPerSec
  (2 * rateArea (s.now - BitVec.ofNat 96 n) s.now s.tbs.servo.rates + n) / (2 * n : Nat)

/-- A unit of the package is in an arm cycle. -/
def State.anyArmCycle (s : State) : Bool := s.liveBays.any fun b => (s.bay b).trg.units.toList.any (·.inCycle)

/-- TBS.STEP_ALLOW permits a step now (R152). -/
def State.stepAllowed (s : State) : Bool :=
  match s.pkgN Fld.tbsStepAllow with
  | 1 => !s.tbs.servo.armed
  | 2 => !s.anyArmCycle
  | _ => false

/-- A measured offset, counter minus source, enters the servo: its state, its steering and a step (R149, R152). -/
def State.servoOffset (s : State) (off : Int) : State :=
  let d := s.tbs.servo
  let close := decide (off.natAbs ≤ ofUs 1)
  let n := if close then d.within + 1 else 0
  let st : Servo := if close ∧ (d.state = .locked ∨ n ≥ 5) then .locked else .acquiring
  let s1 := s.modServo fun d =>
    { d with offset := off, within := n, rejects := 0, state := st, followed := if st = .locked ∧ d.state = .locked then d.followed else none }
  let s2 := if st = .locked ∧ d.state ≠ .locked then s1.event 0 0x0303 []
            else if st = .acquiring ∧ (d.state = .locked ∨ d.state = .holdover) then s1.event 0 0x0304 [] else s1
  if off.natAbs > ofUs (s.pkgN Fld.tbsStepThreshold) ∧ s.stepAllowed then
    s2.modServo fun d => { d with step := some (s2.epochLead, -off) }
  else s2.freeSteer off

/-- PPS_EDGE (R137, R140, R141, R148 to R152): an edge of PPS_IN that reaches the TDC of bay `b` at counter time `t`; `falling` is
its polarity. -/
def execPpsEdge (b : BayNo) (t : Stamp) (falling longPulse : Bool) (s : State) : Out :=
  if falling ≠ decide (s.pkgN Fld.tbsPpsEdge = 1) then .next s
  else
    let (u, s1) := s.tdcEdge b 1 t longPulse
    match u with
    | none => .next s1
    | some u =>
      let mode := s1.pkgN Fld.tbsDiscipline
      if b ≠ 0 ∨ s1.packageNo ≠ 0 ∨ !(mode = 1 ∨ mode = 3) then .next s1
      else
        let off := offsetFromSecond (moved u (-(quarterPs (s1.fld Fld.tbsPpsDelay 0))))
        let d := s1.tbs.servo
        let s2 := s1.modServo fun d => { d with heard := s1.now }
        if d.state = .locked ∧ off.natAbs > ofMs 1 then
          let s3 := s2.modServo fun d => { d with rejected := d.rejected + 1, rejects := d.rejects + 1 }
          if d.rejects + 1 ≥ 3 then
            .next ((s3.modServo fun d => { d with state := .acquiring, rejects := 0, within := 0 }).event 0 0x0304 [])
          else .next s3
        else .next (s2.servoOffset off)

/-- SERVO_HOLDOVER_TIMEOUT (R149): the source has been silent for 2.5 s after LOCKED; the addend keeps its mean over the last
10 s. -/
def execServoHoldoverTimeout (s0 : State) : Out :=
  if s0.tbs.servo.state ≠ .locked then .next s0
  else
    let s := s0.reach (later s0.tbs.servo.heard (ofMs 2500))
    let s1 := (s.modServo fun d => { d with state := .holdover, within := 0 }).steer s.meanRate
    .next (s1.event 0 0x0304 [])

/-- TBS_NOW_READ (R167): reading TBS_NOW0 latches all three words. -/
def execTbsNowRead (b : BayNo) (s : State) : Out :=
  if !s.alive b then .next s else .next (s.modTbs b fun x => { x with nowLatch := Tide.stamp x.tide })

/-- TBS_EDGE_LOST_READ (R167): the register is read and clears. -/
def execTbsEdgeLostRead (b : BayNo) (s : State) : Out :=
  if !s.alive b then .next s else .next (s.modTbs b fun x => { x with edgeLost := Vector.replicate 4 0 })

/-- The queues and SEQ counters of a bay as a snapshot latches them (R457). -/
def Que.snapshot (q : Que) : Que :=
  { q with snapSeq := q.seqs, queues := q.queues.map fun x => { x with snapLevel := wd x.level } }

/-- The snapshot that is taken next: the first that waits, or in a shoal one that another package has scheduled (R164). -/
def State.snapDue (s : State) (remote : Option (Stamp × Word)) : Option ((Stamp × Word) × List (Stamp × Word)) :=
  match remote with
  | some e => if s.pkgN Fld.lnlShoalSize > 1 && s.alive 0 then some (e, s.tbs.snaps) else none
  | none => match s.tbs.snaps with
    | [] => none
    | e :: rest => some (e, rest)

/-- SNAPSHOT_TAKE (R164, R457): at the stamp of the snapshot every bay copies the stamp and the id and latches its SEQ counters and
queue levels; `remote` is a snapshot of another package of the shoal. -/
def execSnapshotTake (remote : Option (Stamp × Word)) (s0 : State) : Out :=
  match s0.snapDue remote with
  | none => .next s0
  | some ((t, id), rest) =>
    let s := (s0.reach t).modTbsPkg fun y => { y with snaps := rest }
    .next (s.eachBay s.liveBays fun s b =>
      ((s.modTbs b fun x => { x with snapStamp := t, snapId := id }).modBay b fun x => { x with que := x.que.snapshot }).event
        b 0x0320 ([id] ++ stampWords t))

end Sys2Proof.Machine
end

