-- ==== Sys2Proof/Machine/Data.lean ====
section
/-! DEFINITION. Shared operations of the data path: port rates, invalid runs, gaps, grid runs and what a gap does to
trigger units, traces and density frames (R212 to R232, R241 to R243, R299, R301, R319, R442). -/
namespace Sys2Proof.Machine

/-! ### The outputs of a port -/

/-- The exact time of output `n` of a stretch (R225). -/
def Stretch.timeAt (z : Stretch) (n : Int) : Exact := z.start.add (z.step.times (n - z.first))
/-- Its stamp. -/
def Stretch.stampAt (z : Stretch) (n : Int) : Stamp := (z.timeAt n).stamp
/-- The number of the first output stamped at or after `t`, were the stretch endless. -/
def Stretch.numberAt (z : Stretch) (t : Stamp) : Int :=
  let u := z.start.units + stampDiff t z.start.stamp
  z.first + ((Exact.of (2 * u - 1) (2 * unitsPerSec)).sub z.start).ceilOver z.step

/-- The first output of a line stamped at or after `t`; the line goes on as its newest stretch. -/
def numberFrom : List Stretch → Stamp → Nat
  | [], _ => 0
  | [z], t => max z.first (z.numberAt t).toNat
  | z :: rest, t => if stampLe z.start.stamp t then max z.first (z.numberAt t).toNat else min z.first (numberFrom rest t)

/-- The first output of a port stamped at or after `t`. -/
def DdcPort.numberFrom (y : DdcPort) (t : Stamp) : Nat := Machine.numberFrom y.line t
/-- The stretch of output `n`. -/
def DdcPort.stretchOf (y : DdcPort) (n : Nat) : Option Stretch := y.line.find? fun z => decide (z.first ≤ n)
/-- The stamp of output `n`; below the first output `r` of its resume the stretch there goes on backwards (R241). -/
def DdcPort.stampFrom (y : DdcPort) (r : Nat) (n : Int) : Stamp :=
  match y.stretchOf (max r n.toNat) with
  | some z => z.stampAt n
  | none => 0
/-- The stamp of output `n`. -/
def DdcPort.stampOf (y : DdcPort) (n : Nat) : Stamp := y.stampFrom 0 n
/-- The first output of the resume that output `n` belongs to. -/
def DdcPort.bornOf (y : DdcPort) (n : Nat) : Nat := ((y.stretchOf n).map (·.born)).getD 0
/-- The stamp at which the outputs `n` to `n + len - 1` of a port end. -/
def DdcPort.stopOf (y : DdcPort) (n len : Nat) : Stamp :=
  match y.stretchOf (n + len - 1) with
  | some z => z.stampAt ((n + len : Nat) : Int)
  | none => 0

/-- The number of the input sample at which output `n` is centred. -/
def Stretch.inputOf (z : Stretch) (n : Nat) : Nat := z.input + z.ratio * (n - z.born)
/-- The exact time of input sample `j` of a stretch. -/
def Stretch.inputTime (z : Stretch) (j : Nat) : Exact :=
  (z.timeAt z.born).add (Exact.of (((j : Int) - z.input) * z.step.num) (z.step.den * max 1 z.ratio))
/-- The first input sample stamped at or after `t`. -/
def Stretch.inputAt (z : Stretch) (t : Stamp) : Nat :=
  let w : Stretch := { z with born := z.input, first := z.input, start := z.timeAt z.born, step := Exact.of z.step.num (z.step.den * max 1 z.ratio) }
  max z.input (w.numberAt t).toNat

/-! ### Rates -/

/-- A port is an RF port. -/
def Port.isRf (p : Port) : Bool := decide (p.val < 2)

/-- The index of an XS port among the XS ports. -/
def Port.xs (p : Port) : Nat := p.val - 2

/-- An XS port takes replay in place of JESD204 (R513). -/
def State.replayed (s : State) (b : BayNo) (p : Port) : Bool := !p.isRf && s.fldB Fld.recXsReplay b p.xs

/-- r_p (R212, R513, R577). -/
def State.portLoad (s : State) (b : BayNo) (p : Port) : Nat :=
  if p.isRf then s.fAdc
  else if s.replayed b p then s.fAdc / 2 ^ s.fldN Fld.recXsReplayDecim b p.xs
  else 1000 * s.fldN Fld.jesSRateKhz b p.xs * (if s.fldB Fld.jesSComplex b p.xs then 2 else 1)

/-- Decimation k of a port (R213). -/
def State.decim (s : State) (b : BayNo) (p : Port) : Nat := s.fldN Fld.ddcDecimLog2 b p.val

/-- A port takes complex input samples: a complex stream, or a replay (R212, R513). -/
def State.complexIn (s : State) (b : BayNo) (p : Port) : Bool := s.replayed b p || (!p.isRf && s.fldB Fld.jesSComplex b p.xs)

/-- Input samples for each output. -/
def State.ratio (s : State) (b : BayNo) (p : Port) : Nat := 2 ^ (if s.complexIn b p then s.decim b p else s.decim b p + 1)

/-- The rate of a port's input samples and of its NCO (R212, R513). -/
def State.fIn (s : State) (b : BayNo) (p : Port) : Nat := s.portLoad b p / (if s.complexIn b p then 2 else 1)

/-- 1 / f_out (R213). -/
def State.outStep (s : State) (b : BayNo) (p : Port) : Exact := Exact.of (2 ^ (s.decim b p + 1) : Nat) (max 1 (s.portLoad b p))

/-- The length of `n` output samples of a port (R213). -/
def State.samples (s : State) (b : BayNo) (p : Port) (n : Nat) : Nat :=
  durOf (n * 2 ^ (s.decim b p + 1)) (max 1 (s.portLoad b p))

/-- M, N′, S and L of a JESD204 stream and the two factors of e (R577). -/
structure JesShape where
  m : Nat
  np : Nat
  smp : Nat
  l : Nat
  standardC : Bool
  fxs : Nat
  deriving DecidableEq, Repr

/-- The shape a set of settings gives stream `x`. -/
def Vals.jesShape (m : Vals) (b x : Nat) : JesShape :=
  { m := m.nat Fld.jesSComplex b x + 1, np := m.nat Fld.jesSNp b x, smp := m.nat Fld.jesSS b x, l := max 1 (m.nat Fld.jesSLanes b x)
    standardC := decide (m.nat Fld.jesSStd b x = 1), fxs := m.nat Fld.jesSRateKhz b x * 1000 }

/-- The lane rate M × N′ × f_XS × e / L as a fraction in bit/s (R577). -/
def JesShape.rate (j : JesShape) : Nat × Nat :=
  if j.standardC then (j.m * j.np * j.fxs * 66, 64 * j.l) else (j.m * j.np * j.fxs * 10, 8 * j.l)

/-- The boundary period T in seconds as a fraction (R577). -/
def Vals.jesPeriod (m : Vals) (b x : Nat) : Nat × Nat :=
  let j := m.jesShape b x
  if j.standardC then (m.nat Fld.jesSE b x * 2048 * j.l, j.m * j.np * j.fxs) else (m.nat Fld.jesSK b x * j.smp, j.fxs)

/-- The deterministic link latency T_link of an external stream (R580). -/
def State.linkTime (s : State) (b : BayNo) (x : Nat) : Exact :=
  let t := Vals.jesPeriod s.vals b.val x
  Exact.of ((t.1 * (64 * s.fldN Fld.jesSLinkPeriods b x + s.fldN Fld.jesSRbd b x) : Nat) : Int) (64 * max 1 t.2)

/-- The time from the pin plane to the moment at which an input sample is taken: the front end's delay at the running step, the
converter's clock delay and its pipeline for an RF port; the converter's latency and the link's for an external stream; none for a
replay, whose stamps are the recording's (R137, R513, R580). -/
def State.portDelay (s : State) (b : BayNo) (p : Port) : Exact :=
  if h : p.val < 2 then
    let i : Fin 2 := ⟨p.val, h⟩
    ((Exact.ofUnits (Config.frontDelay b i.val (s.bay b).afe.inputs[i].step)).add (Exact.of (s.adcDelay b i) 327680000000)).add
      (Exact.of (Config.pipeline (s.pkgN Fld.clkFAdc) : Nat) s.fAdc)
  else if s.replayed b p then { num := 0, den := 1 }
  else (Exact.of (s.fld Fld.tbsXsLatency b p.xs) 4000000000000).add (s.linkTime b p.xs)

/-- The pin-plane stamp of an input sample of a port taken at counter time `t` (R137). -/
def State.planeStamp (s : State) (b : BayNo) (p : Port) (t : Stamp) : Stamp := ((Exact.ofUnits t.toNat).sub (s.portDelay b p)).stamp

/-- What hardware subtracts besides, as the time an output takes to leave the engine: the group delay of its stretch and the skew of
16 converter periods for each port (R137, R216, R225). -/
def State.leaves (s : State) (b : BayNo) (p : Port) (n : Nat) : Stamp :=
  match (s.bay b).ddc[p].stretchOf n with
  | none => s.nowAt b
  | some z =>
    ((((z.timeAt n).add (s.portDelay b p)).add (z.step.times (12 * 2 ^ z.preset))).add (Exact.of (16 * p.val : Nat) s.fAdc)).stamp

/-- S_p of a preset (R223). -/
def settleOf (preset : Nat) : Nat := 24 * 2 ^ preset

/-- G_p of a preset (R223). -/
def delayOf (preset : Nat) : Nat := 12 * 2 ^ preset

/-- The port that feeds analysis channel `x` (R234). -/
def State.chanPort (s : State) (b : BayNo) (x : Fin 2) : Port :=
  match s.fldN Fld.ddcChSrc b x.val with
  | 0 => ⟨x.val, by omega⟩
  | 1 => 2
  | _ => 3

/-- The channel transforms (R244). -/
def State.transforms (s : State) (b : BayNo) (x : Fin 2) : Bool := s.fldB Fld.xfmChEn b x.val

/-- The transforming channels that a port feeds. -/
def State.chansOf (s : State) (b : BayNo) (p : Port) : List (Fin 2) :=
  (List.finRange 2).filter fun x => s.transforms b x && decide (s.chanPort b x = p)

/-- A port emits an I/Q stream (R468). -/
def State.streams (s : State) (b : BayNo) (p : Port) : Bool := s.fldB Fld.quePIqEn b p.val

/-- The 48-bit tuning word of a port (R217). -/
def State.ftw (s : State) (b : BayNo) (p : Port) : BitVec 48 :=
  BitVec.ofNat 48 (s.fldN Fld.ddcFtwHi b p.val * 2 ^ 32 + s.fldN Fld.ddcFtwLo b p.val)

/-! ### Changing the blocks of the data path -/

/-- Change one port. -/
def State.modPort (s : State) (b : BayNo) (p : Port) (f : DdcPort → DdcPort) : State :=
  s.modBay b fun y => { y with ddc := y.ddc.set p (f y.ddc[p]) }

/-- Change one analysis channel. -/
def State.modChan (s : State) (b : BayNo) (x : Fin 2) (f : XfmChan → XfmChan) : State :=
  s.modBay b fun y => { y with xfm := { y.xfm with chans := y.xfm.chans.set x (f y.xfm.chans[x]) } }

/-- Change one trace. -/
def State.modTrace (s : State) (b : BayNo) (t : Fin 16) (f : Trace → Trace) : State :=
  s.modBay b fun y => { y with xfm := { y.xfm with traces := y.xfm.traces.set t (f y.xfm.traces[t]) } }

/-- Change one density grid. -/
def State.modDen (s : State) (b : BayNo) (x : Fin 2) (f : DenChan → DenChan) : State :=
  s.modBay b fun y => { y with den := { y.den with chans := y.den.chans.set x (f y.den.chans[x]) } }

/-- Change one trigger unit. -/
def State.modUnit (s : State) (b : BayNo) (u : Fin 8) (f : TrgUnit → TrgUnit) : State :=
  s.modBay b fun y => { y with trg := { y.trg with units := y.trg.units.set u (f y.trg.units[u]) } }

/-- A trigger unit. -/
def State.unit (s : State) (b : BayNo) (u : Fin 8) : TrgUnit := (s.bay b).trg.units[u]

/-- Change one RF input. -/
def State.modAfe (s : State) (b : BayNo) (i : Fin 2) (f : AfeIn → AfeIn) : State :=
  s.modBay b fun y => { y with afe := { y.afe with inputs := y.afe.inputs.set i (f y.afe.inputs[i]) } }

/-- Change one converter. -/
def State.modAdc (s : State) (b : BayNo) (i : Fin 2) (f : Adc → Adc) : State :=
  s.modBay b fun y => { y with adc := y.adc.set i (f y.adc[i]) }

/-! ### Invalid runs -/

/-- The port delivers samples now. -/
def DdcPort.delivers (p : DdcPort) : Bool := p.active && !p.paused && p.stopped.isNone

/-- The output samples of an invalid run: S_p + F (R227). -/
def State.runLength (s : State) (b : BayNo) (p : Port) : Nat :=
  settleOf (s.fldN Fld.ddcPreset b p.val) +
    (if p.isRf then ceilDiv (4 * s.portLoad b p) (100000000 * 2 ^ (s.decim b p + 1)) else 0)

/-- Enter a run; one that starts before the newest one has ended merges with it, and the two count once (R227, R236). -/
def DdcPort.addRun (p : DdcPort) (lo hi : Nat) : DdcPort :=
  match p.runs with
  | (a, e) :: rest =>
    if lo ≤ e then { p with runs := (min a lo, max e hi) :: rest } else { p with runs := (lo, hi) :: p.runs, runCount := p.runCount + 1 }
  | [] => { p with runs := [(lo, hi)], runCount := p.runCount + 1 }

/-- The first output that a change at `tc` makes invalid: the first one stamped at or after t_c - G_p / f_out, with the preset in
force (R226). -/
def State.runFrom (s : State) (b : BayNo) (p : Port) (tc : Stamp) : Nat :=
  let y := (s.bay b).ddc[p]
  let g := (s.outStep b p).times (delayOf (s.fldN Fld.ddcPreset b p.val))
  let n := y.numberFrom (moved tc (-(g.num * unitsPerSec / g.den)))
  max n (y.bornOf (y.numberFrom tc))

/-- The run of a change at `tc` on a port that delivers. A change in a gap starts no run of its own: the resume's covers it (R226,
R229). -/
def State.changeRun (s : State) (b : BayNo) (p : Port) (tc : Stamp) : State :=
  if (s.bay b).ddc[p].delivers then
    let lo := s.runFrom b p tc
    s.modPort b p fun y => y.addRun lo (lo + s.runLength b p)
  else s

/-- One of the outputs from `lo` up to `hi` is invalid. -/
def DdcPort.invalidIn (p : DdcPort) (lo hi : Nat) : Bool := p.runs.any fun r => decide (r.1 < hi ∧ lo < r.2)

/-- From `t` on the outputs of a port that delivers follow the preset in force and the delay `d` in place of `d0` (R139, R225). -/
def State.newStretch (s : State) (b : BayNo) (p : Port) (t : Stamp) (d0 d : Exact) : State :=
  let y := (s.bay b).ddc[p]
  if !y.delivers then s
  else
    let n := y.numberFrom t
    match y.stretchOf n with
    | none => s
    | some z =>
      let w : Stretch := { z with first := n, start := ((z.timeAt n).add d0).sub d, preset := s.fldN Fld.ddcPreset b p.val }
      s.modPort b p fun y => { y with line := w :: y.line.filter fun x => decide (x.first < n) }

/-! ### The NCO -/

/-- The phase accumulator at input sample `j` in continuous mode (R219, R220). -/
def Tuning.phaseAt (u : Tuning) (j : Nat) : BitVec 48 := u.phase + BitVec.ofNat 48 (j - u.since) * u.word

/-- From input sample `j` on the NCO runs with the word and phase offset in force; the accumulator goes on from its phase (R220). -/
def State.tuneFrom (s : State) (b : BayNo) (p : Port) (j : Nat) : State :=
  s.modPort b p fun y =>
    let ph := (y.tunings.head?.map (·.phaseAt j)).getD 0
    { y with tunings := { since := j, word := s.ftw b p, phase := ph, offset := BitVec.ofNat 16 (s.fldN Fld.ddcNcoPhase b p.val) } :: y.tunings }

/-- The first input sample of a port taken at or after the pin-plane instant `t`, and its stamp, the t_c of a change there (R226). -/
def State.inputFrom (s : State) (b : BayNo) (p : Port) (t : Stamp) : Nat × Stamp :=
  match (s.bay b).ddc[p].line with
  | [] => (0, t)
  | z :: _ => (z.inputAt t, if (s.bay b).ddc[p].delivers then (z.inputTime (z.inputAt t)).stamp else t)

/-- A span [lo, hi) meets an overload interval of the input (R177). -/
def AfeIn.overloadIn (a : AfeIn) (lo hi : Stamp) : Bool :=
  a.intervals.any fun r => stampLt r.1 hi && (match r.2 with
    | none => true
    | some e => stampLt lo e)

/-- Overload of a span on a port: XS ports have no detector. -/
def State.overloadOn (s : State) (b : BayNo) (p : Port) (lo hi : Stamp) : Bool :=
  if h : p.val < 2 then ((s.bay b).afe.inputs[p.val]'h).overloadIn lo hi else false

/-! ### Settings that govern frames -/

/-- The settings in force for frames of a channel from `t` on (R254, R257). -/
def State.confNow (s : State) (b : BayNo) (x : Fin 2) (t : Stamp) : FrameConf :=
  let p := s.chanPort b x
  let c := (s.bay b).xfm.chans[x]
  let a := if h : p.val < 2 then
      (((s.bay b).afe.inputs[p.val]'h).step, ((s.bay b).afe.inputs[p.val]'h).trim) else (0, 0)
  { since := t, window := c.window, param := c.param, preset := s.fldN Fld.ddcPreset b p.val, ftw := s.ftw b p
    step := a.1, trim := a.2, port := p }

/-- Note the settings that frames of a channel take from `t` on. -/
def State.noteConf (s : State) (b : BayNo) (t : Stamp) : State :=
  (List.finRange 2).foldl (fun s x => s.modChan b x fun c => { c with confs := s.confNow b x t :: c.confs }) s

/-- The settings in force at a stamp. -/
def confAt (cs : List FrameConf) (dflt : FrameConf) (t : Stamp) : FrameConf :=
  (cs.find? fun c => stampLe c.since t).getD dflt

/-! ### What a gap does to the users of a stream -/

/-- A trigger unit is dead: a trigger's segment or holdoff has not ended (R334). -/
def TrgUnit.dead (u : TrgUnit) : Bool :=
  match u.state with
  | .post | .prefill | .waitSlot | .holdoff => true
  | _ => false

/-- A LEVEL unit or a capturing unit uses port `p`; a spectrum unit uses channel `x`. -/
def State.unitOnPort (s : State) (b : BayNo) (u : Fin 8) (p : Port) : Bool :=
  s.fldB Fld.trgUEn b u.val && decide (s.fldN Fld.trgUPort b u.val = p.val)

/-- The unit evaluates channel `x`. -/
def State.unitOnChan (s : State) (b : BayNo) (u : Fin 8) (x : Fin 2) : Bool :=
  s.fldB Fld.trgUEn b u.val && decide (s.fldN Fld.trgUSource b u.val = 2 ∨ s.fldN Fld.trgUSource b u.val = 3) &&
    decide (s.fldN Fld.trgUChannel b u.val = x.val)

/-- A gap opens on what the unit evaluates: a condition that is true ends without qualifying, and one under
qualification counts as abandoned (R301). -/
def State.abandon (s : State) (b : BayNo) (u : Fin 8) : State :=
  let y := s.unit b u
  match y.cond with
  | none => s.modUnit b u fun y => { y with isTrue := none }
  | some c =>
    let s1 := s.modUnit b u fun y =>
      { y with
        cond := none, isTrue := none
        state := if y.state = .qualifying then .armed else y.state
        qualAbort := if c.qualifying then y.qualAbort + 1 else y.qualAbort
        abortTold := y.abortTold || c.qualifying }
    if c.qualifying && !y.abortTold then s1.event b 0x0706 [wd u.val] else s1

/-- A gap opens before output `e` of the capture port: a segment whose post-trigger part is incomplete ends there (R68, R319). What the
live slot holds stays in it. -/
def State.cutCapture (s : State) (b : BayNo) (u : Fin 8) (e : Nat) : State :=
  s.modUnit b u fun y =>
    let live := y.state == .post
    { y with segments := y.segments.map fun g =>
        if live && !g.done && g.last.isNone && decide (g.records = 0) && decide (e < g.first + g.pre + g.post) then
          { g with post := e - (g.first + g.pre), truncated := true, gapBefore := true }
        else g }

/-- The capture port resumes with output `n`. A slot that was live holds what comes after the gap. -/
def State.resumeCapture (s : State) (b : BayNo) (u : Fin 8) (n : Nat) : State :=
  s.modUnit b u fun y => { y with liveFrom := if y.liveFrom.isSome || !(y.state == .post || y.state == .waitSlot) then some n else none
                                  liveGap := true, isTrue := none }

/-- Mark a gap in the traces and density frames of channel `x`. -/
def State.markGap (s : State) (b : BayNo) (x : Fin 2) (t : Stamp) : State :=
  let s1 := (List.finRange 16).foldl (fun s i =>
    if i.val / 8 = x.val then
      s.modTrace b i fun y => { y with ivals := y.ivals.map fun v =>
        match v.stop with
        | none => { v with gap := true }
        | some e => { v with gap := v.gap || stampLt t e } }
    else s) s
  s1.modDen b x fun d =>
    { d with info := { d.info with gap := true }
             old := d.old.map fun o => { o with info := { o.info with gap := o.info.gap || stampLt t o.boundary } } }

/-! ### Gaps -/

/-- The leg that sample `q` of a grid run comes from. -/
def GridRun.legAt (g : GridRun) (q : Nat) : Leg := (g.legs.find? fun l => decide (l.at_ ≤ q)).getD { at_ := 0, port := 0, number := 0 }

/-- The output that sample `q` of a leg is. -/
def Leg.output (l : Leg) (q : Nat) : Int := l.number + ((q : Int) - l.at_)

/-- The first sample of a grid run, by its newest leg, stamped at or after `t`. -/
def State.gridIndex (s : State) (b : BayNo) (g : GridRun) (t : Stamp) : Nat :=
  match g.legs.head? with
  | none => 0
  | some l => ((((s.bay b).ddc[l.port].numberFrom t : Nat) : Int) - l.number + l.at_).toNat

/-- The stamp of sample `q` of a grid run (R138, R240). -/
def State.gridStamp (s : State) (b : BayNo) (g : GridRun) (q : Nat) : Stamp :=
  let l := g.legAt q
  (s.bay b).ddc[l.port].stampFrom (l.output (max q g.resume)).toNat (l.output q)

/-- End the last grid run of a channel before its first sample stamped at or after `t` (R243). -/
def State.cutGrids (s : State) (b : BayNo) (gs : List GridRun) (t : Stamp) : List GridRun :=
  match gs.reverse with
  | [] => []
  | g :: rest => (({ g with cut := some (g.cut.getD (s.gridIndex b g t)) } : GridRun) :: rest).reverse

/-- A gap opens on an analysis channel (R242, R243, R442); one that is open already stays as it is. -/
def State.openChanGap (s : State) (b : BayNo) (x : Fin 2) (reason : GapReason) (t : Stamp) : State :=
  if (s.bay b).xfm.chans[x].gap.isSome then s
  else
    let g : OpenGap := { reason := reason, start := t }
    let s1 := (s.modChan b x fun c => { c with gap := some g, grids := s.cutGrids b c.grids t }).markGap b x t
    let s2 := (List.finRange 8).foldl (fun s u => if s.unitOnChan b u x then s.abandon b u else s) s1
    s2.enqueue b (s2.fldN Fld.queGapQueue b x.val) (gapOpenBody x.val g)

/-- The start of the epoch of bay `b` that contains `t`. -/
def State.epochStartAt (s : State) (b : BayNo) (t : Stamp) : Stamp :=
  let e := (s.bay b).tbs.epochStart
  let l := max 1 s.tbs.grid.len
  if stampLe e t then e else moved e (-((ceilDiv (e - t).toNat l * l : Nat) : Int))

/-- The start of the epoch that contains a stamp of a port's: a replay's epochs are the recording's, by the index entries of its bay
(R499, R513). -/
def State.epochStartOn (s : State) (b : BayNo) (p : Port) (t : Stamp) : Stamp :=
  if s.replayed b p then
    let y := (s.bay b).recorder
    ((y.spans ++ y.span.toList).foldl (fun (m : Option Stamp) e =>
      if stampLt t e.epochStart then m else match m with
        | none => some e.epochStart
        | some a => some (if stampLt a e.epochStart then e.epochStart else a)) none).getD t
  else s.epochStartAt b t

/-- A grid run starts at a resume with output `n` of the channel's port (R241): the anchor is the first output stamped at or after the
start of the epoch that contains the first sample's stamp, and the first frame starts at the latest grid instant at or before it. `cause`
is the reason code of the gap that closed, 0 for the entry to RUN. A source that the channel has changed to is reported with its first
sample (R238). -/
def State.startGrid (s : State) (b : BayNo) (x : Fin 2) (n0 : Nat) (cause : Nat) : State :=
  let p := s.chanPort b x
  match (s.bay b).ddc[p].stretchOf n0 with
  | none => s
  | some z =>
    let t := z.stampAt n0
    let a := min (n0 : Int) (z.numberAt (s.epochStartOn b p t))
    let n := s.fldN Fld.xfmChNLog2 b x.val
    let m := s.fldN Fld.xfmChOverlapLog2 b x.val
    let h := 2 ^ (n - m)
    let r := ((n0 : Int) - a).toNat
    let g : GridRun :=
      { legs := [{ at_ := 0, port := p, number := a }], frame := r / h, resume := r, cut := none, first := true, n := n, m := m
        k := s.decim b p }
    let old := (s.bay b).xfm.chans[x].switched
    let s1 := s.modChan b x fun c =>
      { c with grids := c.grids ++ [g], confs := s.confNow b x (z.stampAt a) :: c.confs, switched := none }
    let s2 := match old with
      | some p0 => s1.event b 0x0502 ([wd x.val, wd p0.val, wd p.val] ++ stampWords t)
      | none => s1
    s2.event b 0x0601 ([wd x.val] ++ stampWords (z.stampAt a) ++ stampWords (z.stampAt (a + ((r / h * h : Nat) : Int))) ++ [wd cause])

/-- The grid of a channel whose gap is about to close starts afresh with output `n` of its port (R67 step 5, R241). -/
def State.chanGrid (s : State) (b : BayNo) (x : Fin 2) (n : Nat) : State :=
  match (s.bay b).xfm.chans[x].gap with
  | none => s
  | some g => if s.transforms b x then s.startGrid b x n g.reason.code else s

/-- The gap of an analysis channel closes with the resume stamp `t` (R67 step 6, R442). -/
def State.closeChanGap (s : State) (b : BayNo) (x : Fin 2) (t : Stamp) (units : Nat) : State :=
  match (s.bay b).xfm.chans[x].gap with
  | none => s
  | some g =>
    let s1 := s.modChan b x fun c => { c with gap := none }
    let s2 := (List.finRange 8).foldl (fun s u =>
      if s.unitOnChan b u x then s.modUnit b u fun y => { y with isTrue := none } else s) s1
    s2.enqueue b (s2.fldN Fld.queGapQueue b x.val) (gapCloseBody x.val g t units)

/-- The I/Q record in progress of a port ends before output `n`, under the settings in force up to there (R230, R468). -/
def State.breakIq (s : State) (b : BayNo) (p : Port) (n : Nat) (gap : Bool) : State :=
  let k : IqBreak :=
    { at_ := n, gap := gap, samples := s.fldN Fld.quePIqSamples b p.val, queue := s.fldN Fld.quePIqQueue b p.val
      wide := s.fldB Fld.quePIqFormat b p.val }
  s.modPort b p fun y => { y with breaks := y.breaks ++ [k] }

/-- The I/Q stream of a port meets a gap at `t` (R442). -/
def State.openStreamGap (s : State) (b : BayNo) (p : Port) (reason : GapReason) (t : Stamp) : State :=
  if !s.streams b p || (s.bay b).ddc[p].gap.isSome then s
  else
    let g : OpenGap := { reason := reason, start := t }
    let s1 := s.modPort b p fun y => { y with gap := some g }
    s1.enqueue b (s1.fldN Fld.quePIqQueue b p.val) (gapOpenBody (0x10 + p.val) g)

/-- The gap of a port's I/Q stream closes. -/
def State.closeStreamGap (s : State) (b : BayNo) (p : Port) (t : Stamp) (units : Nat) : State :=
  match (s.bay b).ddc[p].gap with
  | none => s
  | some g =>
    let s1 := s.modPort b p fun y => { y with gap := none }
    s1.enqueue b (s1.fldN Fld.quePIqQueue b p.val) (gapCloseBody (0x10 + p.val) g t units)

/-- The outputs of a port end before the first one stamped at or after `t`, and so does its I/Q record in progress (R230). -/
def State.endLine (s : State) (b : BayNo) (p : Port) (t : Stamp) : State :=
  let y := (s.bay b).ddc[p]
  if y.ended.isSome then s
  else (s.breakIq b p (y.numberFrom t) true).modPort b p fun y => { y with ended := some (y.numberFrom t) }

/-- A port stops at `t`: its stream, the channels it feeds and the units that evaluate or capture it meet a gap (R67,
R123, R230, R671). -/
def State.stopPort (s : State) (b : BayNo) (p : Port) (reason : GapReason) (t : Stamp) : State :=
  let s1 := ((s.endLine b p t).modPort b p fun y => { y with paused := true }).openStreamGap b p reason t
  let s2 := (s1.chansOf b p).foldl (fun s x => s.openChanGap b x reason t) s1
  (List.finRange 8).foldl (fun s u =>
    if s.unitOnPort b u p then
      let s3 := if s.fldN Fld.trgUSource b u.val = 1 then s.abandon b u else s
      s3.cutCapture b u ((s3.bay b).ddc[p].ended.getD 0)
    else s) s2

/-- A new line of outputs of a port, from zero state: its first input sample is taken at counter time `t`, and stands at the pin plane
by the delays of R137 earlier. In continuous mode the NCO's phase at the resume is a free value (log entry 78). -/
def State.beginLine (s : State) (b : BayNo) (p : Port) (t : Stamp) : State :=
  let y := (s.bay b).ddc[p]
  let e := y.ended.getD (y.numberFrom t)
  let j := match y.line.head? with
    | none => 0
    | some z => z.inputOf (max e z.born)
  let (ph, s0) := s.takeFree 48
  let z : Stretch :=
    { born := e, input := j, first := e, start := (Exact.ofUnits t.toNat).sub (s.portDelay b p), step := s.outStep b p, ratio := s.ratio b p
      preset := s.fldN Fld.ddcPreset b p.val, k := s.decim b p, afterGap := y.gap.isSome }
  let u : Tuning := { since := j, word := s.ftw b p, phase := ph, offset := BitVec.ofNat 16 (s.fldN Fld.ddcNcoPhase b p.val) }
  s0.modPort b p fun y =>
    { y with line := z :: y.line.filter (fun x => decide (x.first < e)), ended := none, tunings := u :: y.tunings
             sent := if y.gap.isSome then y.sent else e, breaks := if y.gap.isSome then y.breaks else [] }

/-- The stamp of the first output of a port's newest resume. -/
def State.resumeStamp (s : State) (b : BayNo) (p : Port) (dflt : Stamp) : Stamp :=
  match (s.bay b).ddc[p].line.head? with
  | none => dflt
  | some z => z.stampAt z.born

/-- A port resumes from zero state with the input sample taken at counter time `t` (R226, R232, R241). -/
def State.startPort (s : State) (b : BayNo) (p : Port) (t : Stamp) (units : Nat) : State :=
  let s0 := (s.modPort b p fun y => { y with paused := false, stopped := none }).beginLine b p t
  let n := ((s0.bay b).ddc[p].line.head?.map (·.born)).getD 0
  let tR := s0.resumeStamp b p t
  let s1 := if (s0.bay b).ddc[p].active then s0.modPort b p fun y => y.addRun n (n + s0.runLength b p) else s0
  let s2 := ((s1.chansOf b p).foldl (fun s x => s.chanGrid b x n) s1).closeStreamGap b p tR units
  let s3 := (s2.chansOf b p).foldl (fun s x => s.closeChanGap b x tR units) s2
  (List.finRange 8).foldl (fun s u => if s.unitOnPort b u p then s.resumeCapture b u n else s) s3

/-! ### Which ports are active -/

/-- A unit needs port `p`: it captures segments from it, or evaluates it (R215). -/
def State.unitNeeds (s : State) (b : BayNo) (p : Port) (u : Fin 8) : Bool :=
  s.unitOnPort b u p && (!s.fldB Fld.trgUMarkOnly b u.val || decide (s.fldN Fld.trgUSource b u.val = 1))

/-- The port is used (R215); an RF port whose ADC is disabled never is (R118). -/
def State.portUsed (s : State) (b : BayNo) (p : Port) : Bool :=
  (!p.isRf || inMask (s.fldN Fld.clkAdcEn b) p.val) &&
  (!(s.chansOf b p).isEmpty || s.streams b p || (List.finRange 8).any (s.unitNeeds b p))

/-- The reason with which the gap of a stopped XS stream opens (R231, R233). -/
def stopReason (replay : Bool) : GapReason := if replay then .replayStall else .xsLoss

/-- The samples of a port do not flow, and why: the bay is in a restart or before its start, its clocks are gated, the port's input
is being calibrated, or the package is on its way to a power state (R67, R123, R671, R721). -/
def State.heldBy (s : State) (b : BayNo) (p : Port) : Option GapReason :=
  let k := (s.bay b).clk
  if s.quiet then some .watch
  else if k.gated && p.isRf then some .clockFault
  else if k.restarting then some k.restartReason
  else if h : p.val < 2 then (if (s.bay b).cal[p.val].run.isSome then some .cal else none)
  else none

/-- Bring a port's activity up to date at `t`. A port that becomes active starts from zero state: at once, or after what holds its
samples back, which it meets as a gap; an XS port without a stream is a stopped stream from its activation (R192, R215, R231). -/
def State.refreshPort (s : State) (b : BayNo) (p : Port) (t : Stamp) : State :=
  let y := (s.bay b).ddc[p]
  let used := s.portUsed b p
  if used = y.active then s
  else if !used then (s.endLine b p t).modPort b p fun y => { y with active := false }
  else
    let s1 := s.modPort b p fun y => { y with active := true }
    let flows := decide (s.img.state = .run) || decide (s.img.state = .ready)
    match s.heldBy b p with
    | some r => if (s.bay b).clk.restarting || !flows then s1.modPort b p fun y => { y with paused := true } else s1.stopPort b p r t
    | none =>
      if !flows then s1.modPort b p fun y => { y with paused := true }
      else if p.isRf || (y.aligned && y.stopped.isNone) then s1.startPort b p t 0
      else
        let z := y.stopped.getD { tL := t, cause := 0, replay := s.replayed b p }
        (s1.modPort b p fun y => { y with stopped := some z }).stopPort b p (stopReason z.replay) t

/-- Bring every port of a bay up to date. -/
def State.refreshPorts (s : State) (b : BayNo) (t : Stamp) : State :=
  (List.finRange 4).foldl (fun s p => s.refreshPort b p t) s

/-- L_DDC of a bay in 10^6 samples per second (R58, R236). -/
def State.ddcLoad (s : State) (b : BayNo) : Nat :=
  ((List.finRange 4).foldl (fun n p => if (s.bay b).ddc[p].active then n + s.portLoad b p else n) 0) / 1000000

/-- L_XFM of a bay in 10^6 points per second (R245, R288). -/
def State.xfmLoad (s : State) (b : BayNo) : Nat :=
  ((List.finRange 2).foldl (fun n x =>
    if s.transforms b x then
      let p := s.chanPort b x
      n + s.portLoad b p * 2 ^ s.fldN Fld.xfmChOverlapLog2 b x.val / 2 ^ (s.decim b p + 1)
    else n) 0) / 1000000

end Sys2Proof.Machine
end

