-- ==== Sys2Proof/Machine/Power.lean ====
section
/-! DEFINITION. Exact arithmetic on levels: the log power of R259, square roots and levels as magnitudes, all by
comparison of whole numbers. -/
namespace Sys2Proof.Machine

/-- The largest number below 2^n that meets a property which holds up to some number and fails above it. -/
def greatest (p : Nat → Bool) (n : Nat) (acc : Nat := 0) : Nat :=
  match n with
  | 0 => acc
  | n + 1 => if p (acc + 2 ^ n) then greatest p n (acc + 2 ^ n) else greatest p n acc

/-- 10^(e / 2560) ≤ num / den. -/
def atLeast (num den : Nat) (e : Int) : Bool :=
  if e ≥ 0 then decide (10 ^ e.toNat * den ^ 2560 ≤ num ^ 2560) else decide (den ^ 2560 ≤ num ^ 2560 * 10 ^ (-e).toNat)

/-- A power is at least a level of `l` / 128 dB. -/
def levelGe (num den : Nat) (l : Int) : Bool := atLeast num den (2 * l)

/-- L = round(1280 log10 P), clamped to −32767 … 32767; zero power is clamped too (R259). -/
def logPower (num den : Nat) : Int :=
  if num = 0 then -32767
  else (greatest (fun k => atLeast num den (2 * ((k : Int) - 32767) - 1)) 16 : Nat) - 32767 |> min 32767

/-- The whole part of a square root. -/
def rootOf (n : Nat) : Nat := greatest (fun k => decide (k * k ≤ n)) (n.log2 + 1)

/-- The magnitude of a level of `l` / 128 dB, in units of 2^-64. -/
def magnitudeOf (l : Int) : Nat := greatest (fun k => atLeast (2 ^ 128) (k * k) (-(2 * l))) 80

/-- A quotient to the nearest whole number, ties away from zero. -/
def divRound (a : Int) (b : Nat) : Int :=
  if a ≥ 0 then ((2 * a.toNat + b) / (2 * b) : Nat) else -(((2 * (-a).toNat + b) / (2 * b) : Nat) : Int)

end Sys2Proof.Machine
end

