-- ==== Sys2Proof/Machine/Window.lean ====
section
/-! DEFINITION. The transform windows and the ENBW and coherent gain of the one in force (R250 to R254). Values of w(n)
are in units of 2^-64. -/
namespace Sys2Proof.Machine

/-- One, in units of 2^-64. -/
def one64 : Nat := 2 ^ 64

/-- Σ x^k / (k!)^r for x in units of 2^-64, `r` 1 or 2. -/
def series (r x : Nat) : Nat → Nat → Nat → Nat
  | 0, _, _ => 0
  | fuel + 1, k, term => term + series r x fuel (k + 1) (term * x / one64 / (k + 1) ^ r)

/-- exp(−x). -/
def expNeg (x : Nat) : Nat := one64 * one64 / series 1 x 900 0 one64

/-- I0(2 √x). -/
def bessel0 (x : Nat) : Nat := series 2 x 200 0 one64

/-- The Gaussian window at n (R250, code 4). -/
def gaussian (param len n : Nat) : Nat :=
  let d := ((2 * n : Int) - len).natAbs
  expNeg (one64 * d * d * 4096 * 4096 / (2 * max 1 (param * param) * len * len))

/-- The Kaiser window at n (R250, code 5): β² (1 − u²) / 4 enters the series. -/
def kaiser (param len n : Nat) : Nat :=
  let d := ((2 * n : Int) - len).natAbs
  one64 * bessel0 (one64 * param * param * (len * len - d * d) / (4 * 65536 * len * len)) /
    bessel0 (one64 * param * param / (4 * 65536))

/-- The custom window at n: the table at position n × 2^c / N, interpolated linearly (R253). -/
def customAt (table : Nat → Nat) (c len n : Nat) : Nat :=
  let pos := n * 2 ^ c
  let i := pos / len
  let f := pos % len
  (table i * (len - f) + table ((i + 1) % 2 ^ c) * f) * one64 / (65536 * len)

/-- Coefficients of the cosine windows, in units of 10^-9 (R250). -/
def cosineWindow : Nat → List Nat
  | 0 => [1000000000]
  | 1 => [500000000, 500000000]
  | 2 => [358750000, 488290000, 141280000, 11680000]
  | _ => [215578950, 416631580, 277263158, 83578947, 6947368]

/-- ENBW in 2^-16 bins and coherent gain in 2^-16 of values of w(n). -/
def measureWindow (ws : List Nat) : Nat × Nat :=
  let s := ws.foldl (· + ·) 0
  let q := ws.foldl (fun a w => a + w * w) 0
  ((divRound ((65536 * ws.length * q : Nat) : Int) (max 1 (s * s))).toNat,
   (divRound ((65536 * s : Nat) : Int) (max 1 (ws.length * one64))).toNat)

/-- ENBW and coherent gain of a cosine window, the same for every N of R239 because the cosines are orthogonal over a
frame. -/
def measureCosine (code : Nat) : Nat × Nat :=
  let a := cosineWindow code
  let a0 := a.headD 1
  let q := a.tail.foldl (fun n c => n + c * c) 0
  ((divRound ((65536 * (2 * a0 * a0 + q) : Nat) : Int) (2 * a0 * a0)).toNat,
   (divRound ((65536 * a0 : Nat) : Int) 1000000000).toNat)

/-- ENBW and coherent gain of a window for transform length 2^n (R251, R252). -/
def State.windowGains (s : State) (b : BayNo) (code param n : Nat) : Nat × Nat :=
  let len := 2 ^ n
  match code with
  | 4 => measureWindow ((List.range len).map (gaussian param len))
  | 5 => measureWindow ((List.range len).map (kaiser param len))
  | 6 =>
    let c := s.fldN Fld.xfmCustomLenLog2 b
    measureWindow ((List.range len).map (customAt (fun i => s.fldN Fld.xfmCustomWin b 0 i) c len))
  | k => measureCosine k

/-- ENBW in 2^-16 bins. -/
def State.enbw (s : State) (b : BayNo) (c : FrameConf) (n : Nat) : Nat := (s.windowGains b c.window c.param n).1

end Sys2Proof.Machine
end

