-- ==== Sys2Proof/Machine/CoreOps.lean ====
section
/-! DEFINITION. Shared operations on measurement cores: registers, rockpool memory, interrupt lines, faults and restarts
(R396 to R399, R412, R416, R417). -/
namespace Sys2Proof.Machine

/-- A core. -/
def State.core (s : State) (b : BayNo) (c : CoreNo) : Core := (s.bay b).mco.cores[c]

/-- Change a core. -/
def State.modCore (s : State) (b : BayNo) (c : CoreNo) (f : Core → Core) : State :=
  s.modBay b fun y => { y with mco := { y.mco with cores := y.mco.cores.set c (f y.mco.cores[c]) } }

/-- The core is designated sealed (R424). -/
def State.sealedCore (s : State) (b : BayNo) (c : CoreNo) : Bool :=
  decide (c.val < 2) && inMask (s.fldN Fld.mcoSealCores b) c.val

/-! ### Registers -/

/-- The window registers in use: the shadow bank in a handler (R396). -/
def Core.bank (k : Core) : Vector Word 12 := if k.shadow then k.shadowW else k.windows[k.cwp]

/-- A general register; G0 reads as zero (R396, R397). -/
def Core.reg (k : Core) (r : CReg) : Word :=
  if h : r.val < 16 then (if r.val = 0 then 0 else k.globals[r.val])
  else k.bank[r.val - 16]'(by have := r.isLt; omega)

/-- Write a general register; a write of G0 is discarded. -/
def Core.setReg (k : Core) (r : CReg) (v : Word) : Core :=
  if h : r.val < 16 then (if r.val = 0 then k else { k with globals := k.globals.set r.val v })
  else
    have hi : r.val - 16 < 12 := by have := r.isLt; omega
    if k.shadow then { k with shadowW := k.shadowW.set (r.val - 16) v hi }
    else { k with windows := k.windows.set k.cwp (k.windows[k.cwp].set (r.val - 16) v hi) }

/-- An address register: P0 to P3 have shadow copies (R396, R406). -/
def Core.ptr (k : Core) (p : Fin 8) : AddrReg :=
  if h : p.val < 4 ∧ k.shadow = true then k.shadowP[p.val]'h.1 else k.addr[p]

/-- Write an address register. -/
def Core.setPtr (k : Core) (p : Fin 8) (a : AddrReg) : Core :=
  if h : p.val < 4 ∧ k.shadow = true then { k with shadowP := k.shadowP.set p.val a h.1 } else { k with addr := k.addr.set p a }

/-! ### Rockpool memory -/

/-- A rockpool address modulo 2^17 (R398). -/
def rockAddr (a : Int) : Nat := (a % 131072).toNat

/-- Little-endian value of `n` bytes at `a`. -/
def Core.peek (k : Core) (a n : Nat) : Nat :=
  (List.range n).foldl (fun v i => v + (Sparse.get 0#8 k.mem ((a + i) % 131072)).toNat * 256 ^ i) 0

/-- Write `n` bytes of a value at `a`. -/
def Core.poke (k : Core) (a n : Nat) (v : Nat) : Core :=
  { k with mem := (List.range n).foldl (fun m i => Sparse.set 0#8 m ((a + i) % 131072) (BitVec.ofNat 8 (v / 256 ^ i))) k.mem }

/-- A word at `a`. -/
def Core.peekWord (k : Core) (a : Nat) : Word := wd (k.peek a 4)

/-- Write words from `a` upwards. -/
def Core.pokeWords (k : Core) (a : Nat) (ws : List Word) : Core :=
  (ws.zipIdx).foldl (fun k e => k.poke (a + 4 * e.2) 4 e.1.toNat) k

/-- Bytes of an access width. -/
def CoreWidth.bytes : CoreWidth → Nat
  | .byte => 1 | .half => 2 | .word => 4

/-- A loaded value, sign-extended on request (R402). -/
def extendLoad (w : CoreWidth) (sx : Bool) (v : Nat) : Word :=
  match w, sx with
  | .byte, true => (BitVec.ofNat 8 v).signExtend 32
  | .half, true => (BitVec.ofNat 16 v).signExtend 32
  | _, _ => wd v

/-! ### Post-modify (R399) -/

/-- Reverse the low `n` bits of a number. -/
def revBits (n v : Nat) : Nat := (List.range n).foldl (fun a i => a + (if v.testBit i then 2 ^ (n - 1 - i) else 0)) 0

/-- An address register after a post-modify; none where the mode or the length breaks its rule. -/
def AddrReg.next (a : AddrReg) : Option AddrReg :=
  let s := a.step.toInt
  let l := a.len.toNat
  let d : Int := (a.p.toNat : Int) - a.base.toNat
  match a.mode.toNat with
  | 0 => some { a with p := BitVec.ofInt 17 (a.p.toNat + s) }
  | 1 => if 1 ≤ l ∧ l ≤ 131072 then some { a with p := BitVec.ofInt 17 (a.base.toNat + (d + s) % l) } else none
  | 2 =>
    let n := l.log2
    if 1 ≤ l ∧ 2 ^ n = l ∧ l ≤ 131072 then
      let sum := revBits n (revBits n (d % l).toNat + revBits n (s % l).toNat)
      some { a with p := BitVec.ofNat 17 (a.base.toNat + sum) }
    else none
  | _ => none

/-! ### Lines, faults and restarts -/

/-- A pending and unmasked line exists. -/
def Core.called (k : Core) : Bool := decide (k.ipend &&& k.imask ≠ 0)

/-- The interrupt that is taken at the next boundary: the lowest line pending and unmasked while IE is 1 (R413). -/
def Core.takeable (k : Core) : Option Nat :=
  if k.ie then (List.range 10).find? fun i => k.ipend.getLsbD i && k.imask.getLsbD i else none

/-- An event sets a line; a core suspended in WAIT leaves it when the line is unmasked, unless its domain has ebbed
(R412, R415, R729). Lines 3, 4 and 6 to 9 are never set in a sealed core. -/
def State.raiseLine (s : State) (b : BayNo) (c : CoreNo) (line : Nat) : State :=
  if s.sealedCore b c && decide (line = 3 ∨ line = 4 ∨ line ≥ 6) then s
  else s.modCore b c fun k =>
    let k1 := { k with ipend := k.ipend ||| BitVec.ofNat 10 (2 ^ line) }
    if k1.called && !k1.ebbed then { k1 with waiting := false } else k1

/-- A core fault: the core halts at once and the fault is recorded and reported (R416); one that restarts is a tolerated
fault (R744). -/
def State.coreFault (s : State) (b : BayNo) (c : CoreNo) (cause : Nat) (pc : BitVec 14) : State :=
  let s1 := s.modCore b c fun k =>
    { k with mode := .fault, waiting := false, faultCause := BitVec.ofNat 4 cause, faultPc := pc, faults := k.faults + 1
             faultUntil := some none }
  let s2 := s1.event b 0x0A01 ([wd c.val, wd cause, wd pc.toNat] ++ words64 (s1.bay b).tbs.epoch)
  if s2.fldB Fld.mcoCRestart b c.val then s2.faultOpen { code := 6, bay := b, part := c.val } s2.now else s2

/-- The bytes of a word array setting. -/
def State.arrayWords (s : State) (f : Field) (b : BayNo) (i n : Nat) : List Word :=
  (List.range n).map fun j => Word.ofSigned (s.fld f b i j)

/-- An item of the running image for a core: CORE_CODE 0x0010 instructions, 0x0011 data (R50, R426). -/
def State.coreItem (s : State) (code : Nat) (b : BayNo) (c : CoreNo) : List Byte :=
  match s.img.image with
  | none => []
  | some im =>
    match im.items.find? fun x => decide (x.code = code ∧ x.index = c.val) && x.bays.testBit b.val with
    | none => []
    | some x => x.body

/-- Bytes as a sparse memory. -/
def sparseBytes (bs : List Byte) : Sparse Byte := (bs.zipIdx).filterMap fun e => if e.1 = 0 then none else some (e.2, e.1)

/-- Words as a sparse memory. -/
def sparseWords (ws : List Word) : Sparse Word := (ws.zipIdx).filterMap fun e => if e.1 = 0 then none else some (e.2, e.1)

/-- Initial rockpool memory of a core (R426). -/
def State.coreData (s : State) (b : BayNo) (c : CoreNo) : Sparse Byte :=
  if s.sealedCore b c then sparseBytes (wordsBytes (s.arrayWords Fld.mcoSealedData b c.val 32768))
  else sparseBytes (s.coreItem 0x0011 b c)

/-- Initial instruction memory of a core (R426). -/
def State.coreCode (s : State) (b : BayNo) (c : CoreNo) : Sparse Word :=
  if s.sealedCore b c then sparseWords (s.arrayWords Fld.mcoSealedCode b c.val 16384)
  else
    let bs := s.coreItem 0x0010 b c
    sparseWords (bytesWords (bs.length / 4) bs)

/-! ### Rings of the taps and feeds in rockpool memory -/

/-- ⌊F_p × N / 2⌋ for a preset (R223, R255). -/
def halfSpan (preset n : Nat) : Nat :=
  match preset with
  | 0 => 7 * 2 ^ n / 20
  | 1 => 3 * 2 ^ n / 8
  | 2 => 25 * 2 ^ n / 64
  | _ => 4 * 2 ^ n / 10

/-- A bin run: first bin and count, where a count of 0 selects the span bins (R262, R273, R275). -/
def binRun (first : Int) (count preset n : Nat) : Int × Nat :=
  if count = 0 then (-(halfSpan preset n : Int), 2 * halfSpan preset n + 1) else (first, count)

/-- The channel that tap `c` selects. -/
def State.tapChan (s : State) (b : BayNo) (c : CoreNo) : Fin 2 := ⟨s.fldN Fld.xfmTapInput b c.val % 2, Nat.mod_lt _ (by decide)⟩

/-- The bin run of tap `c` for a transform of 2^n bins under a preset. -/
def State.tapRun (s : State) (b : BayNo) (c : CoreNo) (preset n : Nat) : Int × Nat :=
  binRun (s.fld Fld.xfmTapBinFirst b c.val) (s.fldN Fld.xfmTapBinCount b c.val) preset n

/-- The slot size of tap `c` (R276). -/
def State.tapSlotSize (s : State) (b : BayNo) (c : CoreNo) : Nat :=
  let x := s.tapChan b c
  let r := s.tapRun b c (s.fldN Fld.ddcPreset b (s.chanPort b x).val) (s.fldN Fld.xfmChNLog2 b x.val)
  64 + 32 * ceilDiv (r.2 * (if s.fldB Fld.xfmTapFormat b c.val then 4 else 2)) 32

/-- The block size of the I/Q feed of core `c` (R418). -/
def State.feedBlockSize (s : State) (b : BayNo) (c : CoreNo) : Nat := 32 + 4 * s.fldN Fld.mcoCIqBlock b c.val

/-- Write the control blocks of the tap and the feed of a core, both indices zero (R276, R417, R418). -/
def State.initRings (s : State) (b : BayNo) (c : CoreNo) : State :=
  let s1 := if s.fldB Fld.xfmTapEn b c.val then
      s.modCore b c fun k => k.pokeWords (s.fldN Fld.xfmTapBase b c.val)
        [0, 0, wd (s.tapSlotSize b c), wd (s.fldN Fld.xfmTapSlots b c.val)]
    else s
  if s1.fldB Fld.mcoCIqEn b c.val then
    s1.modCore b c fun k => k.pokeWords (s1.fldN Fld.mcoCIqBase b c.val)
      [0, 0, wd (s1.feedBlockSize b c), wd (s1.fldN Fld.mcoCIqBlocks b c.val)]
  else s1

/-- A core with its registers at their reset values and its memory reloaded, running from its entry (R417). -/
def State.restartCore (s : State) (b : BayNo) (c : CoreNo) : State :=
  let s1 := s.modCore b c fun k =>
    { Core.reset with
      mode := .run, imem := k.imem, mem := s.coreData b c, pc := BitVec.ofNat 14 (s.fldN Fld.mcoCEntry b c.val)
      wdtFrom := s.nowAt b
      copying := match k.copying with
        | some (.result a f t g p w _) => some (.result a f t g p w true)
        | x => x
      faultCause := k.faultCause, faultPc := k.faultPc, faultUntil := k.faultUntil, gapNext := true, cycles := k.cycles
      spills := k.spills, fills := k.fills, emits := k.emits, discards := k.discards, faults := k.faults
      restarts := k.restarts + 1, iqWritten := k.iqWritten, iqDropped := k.iqDropped, iqTold := k.iqTold, iqGap := k.iqGap, iqFrom := k.iqFrom }
  (s1.initRings b c).event b 0x0A02 [wd c.val]

/-- Flags of a slot or block written for a core enter its RFLAGS (R420). -/
def Core.noteFlags (k : Core) (f : BitVec 8) : Core := { k with rflags := k.rflags ||| (f &&& 0x23) }

/-- A core's memory takes tap slots and feed blocks: its bay lives and its domain is powered. -/
def State.coreAwake (s : State) (b : BayNo) (c : CoreNo) : Bool := s.alive b && (s.bay b).pwr.cores[c]

end Sys2Proof.Machine
end

