-- ==== Sys2Proof/Machine/Dsp.lean ====
section
/-! DEFINITION. The arithmetic of the down-converter and the transform: the NCO, the mixer, the decimation filter, the windowed
transform and its corrections (R217 to R220, R223, R224, R256 to R259, R278, R660). A command brings what a port takes in, and what
leaves the port or the transform is computed here (log entry 79). -/
namespace Sys2Proof.Machine

/-! ### Sines and cosines -/

/-- 2π in units of 2^-64. -/
def twoPi64 : Nat := 115904311329233965478

/-- The series of e^(jx), real and imaginary part, for x in units of 2^-64; `k` terms have been taken and `term` is x^k / k!. -/
def turnSeries (x : Int) : Nat → Nat → Int → Int × Int
  | 0, _, _ => (0, 0)
  | fuel + 1, k, term =>
    let r := turnSeries x fuel (k + 1) (term * x / (one64 : Int) / ((k + 1 : Nat) : Int))
    match k % 4 with
    | 0 => (r.1 + term, r.2)
    | 1 => (r.1, r.2 + term)
    | 2 => (r.1 - term, r.2)
    | _ => (r.1, r.2 - term)

/-- Cosine and sine of `num / den` turns, in units of 2^-64. -/
def cis (num : Int) (den : Nat) : Int × Int := turnSeries (num % (den : Int) * twoPi64 / (den : Int)) 60 0 one64

/-! ### The NCO and the mixer -/

/-- The 20 bits of phase that the mixer takes at input sample `j` (R219, R220): of the accumulator in continuous mode; in coherent mode
of frac(f_NCO × t + NCO_PHASE / 65 536), with t the pin-plane stamp of the sample. -/
def State.mixPhase (s : State) (b : BayNo) (p : Port) (j : Nat) : BitVec 20 :=
  let y := (s.bay b).ddc[p]
  match y.tunings.find? fun u => decide (u.since ≤ j) with
  | none => 0
  | some u =>
    if s.fldB Fld.ddcNcoMode b p.val then
      let t := match y.line.find? fun z => decide (z.input ≤ j) with
        | none => 0
        | some z => (z.inputTime j).stamp
      BitVec.ofInt 20 ((u.word.toInt * (s.fIn b p : Int) * t.toNat + u.offset.toNat * 2 ^ 96) / 2 ^ 92)
    else (u.phaseAt j).extractLsb' 28 20

/-- The 18-bit cosine and sine of a mixer phase, the nearest ones on a scale of 2^17 - 1 (log entry 79). -/
def mixValues (a : BitVec 20) : Int × Int :=
  let w := cis a.toNat (2 ^ 20)
  (divRound (w.1 * 131071) one64, divRound (w.2 * 131071) one64)

/-- A component as it enters the DDC: of an external stream the N bits left-aligned in 16, the others cleared (R578). -/
def alignBits (n : Nat) (v : BitVec 16) : BitVec 16 := v &&& ~~~(BitVec.ofNat 16 (2 ^ (16 - n) - 1))

/-- An input sample as a port takes it in: a real stream has no second component (R215, R578). -/
def State.taken (s : State) (b : BayNo) (p : Port) (x : Sample) : Sample :=
  let cut := fun v => if p.isRf || s.replayed b p then v else alignBits (s.fldN Fld.jesSN b p.xs) v
  { i := cut x.i, q := if s.complexIn b p then cut x.q else 0 }

/-- An input sample multiplied by e^(-j 2π φ), in units of 1 / 131 071 of a code (R218). -/
def State.mixed (s : State) (b : BayNo) (p : Port) (j : Nat) (x : Sample) : Int × Int :=
  let w := mixValues (s.mixPhase b p j)
  (x.i.toInt * w.1 + x.q.toInt * w.2, x.q.toInt * w.1 - x.i.toInt * w.2)

/-! ### The decimation filter -/

/-- The full-scale amplitude of what a port takes in: 2048 of a converter's codes, 2^15 of samples left-aligned in 16 bits (R172,
R578). -/
def Port.fullScale (p : Port) : Nat := if p.isRf then 2048 else 32768

/-- Input samples that the filter of a stretch takes in: S_p outputs' worth, centred on the output (R223, R225, R227). -/
def Stretch.span (z : Stretch) : Nat := settleOf z.preset * z.ratio

/-- The first input sample past those of a stretch's resume: none while the port delivers. -/
def DdcPort.inputEnd (y : DdcPort) (z : Stretch) : Option Nat :=
  match y.line.reverse.find? fun w => decide (z.born < w.born) with
  | some w => some w.input
  | none => y.ended.map z.inputOf

/-- The input samples that outputs `n` to `n + count - 1` of a port take in, the first one's number and how many; an empty line takes
none. -/
def DdcPort.needs (y : DdcPort) (n count : Nat) : Nat × Nat :=
  match y.stretchOf n, y.stretchOf (n + count - 1) with
  | some z, some w =>
    let lo := max z.input (z.inputOf n - z.span / 2)
    let hi := w.inputOf (n + count - 1) + w.span / 2
    let e := match y.inputEnd w with
      | none => hi
      | some e => min hi e
    (lo, e - lo)
  | _, _ => (0, 0)

/-- Output `n` of a port in units of 2^-48 of full scale: the filter of its stretch over the mixed samples of its resume, zero before
the first and after the last of them; a real component has twice the amplitude that it has in the input (R172, R215, R218, R224, R230).
`xs` are the input samples from number `base` on. -/
def State.output (s : State) (b : BayNo) (p : Port) (base : Nat) (xs : List Sample) (n : Nat) : Int × Int :=
  let y := (s.bay b).ddc[p]
  match y.stretchOf n with
  | none => (0, 0)
  | some z =>
    let sum := (List.range z.span).foldl (fun (acc : Int × Int) l =>
      let j := z.inputOf n + z.span / 2 - l
      if decide (z.input + l ≤ z.inputOf n + z.span / 2) && decide (base ≤ j) && (match y.inputEnd z with
          | none => true
          | some e => decide (j < e)) then
        let m := s.mixed b p j (s.taken b p (xs.getD (j - base) { i := 0, q := 0 }))
        let h := Config.tap b p.val z.preset z.k l
        (acc.1 + h * m.1, acc.2 + h * m.2)
      else acc) (0, 0)
    let g : Int := if s.complexIn b p then 1 else 2
    let d : Nat := 131071 * p.fullScale
    (sum.1 * g * 65536 / (d : Int), sum.2 * g * 65536 / (d : Int))

/-- A component as it leaves in I/Q records: 16 bits, saturated (R441). -/
def to16 (v : Int) : BitVec 16 := BitVec.ofInt 16 (max (-32768) (min 32767 (divRound v (2 ^ 33))))

/-- Outputs `n` to `n + count - 1` of a port as 16-bit samples, from the input samples that they take in. -/
def State.outputs (s : State) (b : BayNo) (p : Port) (n count : Nat) (xs : List Sample) : List Sample :=
  let base := ((s.bay b).ddc[p].needs n count).1
  (List.range count).map fun k =>
    let v := s.output b p base xs (n + k)
    { i := to16 v.1, q := to16 v.2 }

/-! ### Windows -/

/-- w(n) of a window of length `len`, in units of 2^-64 (R250, R253). -/
def State.windowAt (s : State) (b : BayNo) (code param len n : Nat) : Int :=
  match code with
  | 4 => gaussian param len n
  | 5 => kaiser param len n
  | 6 => customAt (fun i => s.fldN Fld.xfmCustomWin b 0 i) (s.fldN Fld.xfmCustomLenLog2 b) len n
  | c => (cosineWindow c).zipIdx.foldl (fun a e =>
      let t : Int := (e.1 : Int) * (cis ((e.2 * n : Nat) : Int) len).1 / 1000000000
      if e.2 % 2 = 0 then a + t else a - t) 0

/-! ### Corrections -/

/-- 10^(r / 20) for r in 10^-6 dB, in units of 2^-64. -/
def amplitudeOf (r : Int) : Nat :=
  let x := r.natAbs * 42475197918399869019 / 20000000
  if r ≥ 0 then series 1 x 900 0 one64 else expNeg x

/-- A table's value at `num / den`: linear between its points, constant below the first and above the last (R256, R660). -/
def interpolate (ts : List (Nat × Int)) (num den : Nat) : Int :=
  match ts with
  | [] => 0
  | (_, v) :: _ =>
    match ts.reverse.find? fun e => decide (e.1 * den ≤ num), ts.find? fun e => decide (num < e.1 * den) with
    | some l, some r => divRound ((l.2 * ((r.1 * den - num : Nat) : Int)) + r.2 * ((num - l.1 * den : Nat) : Int)) ((r.1 - l.1) * den)
    | some l, none => l.2
    | none, _ => v

/-- The first calibration tone: the lowest multiple of f_ADC / 2048 from 10 MHz on (R659). -/
def State.firstTone (s : State) : Nat := ceilDiv (10000000 * 2048) s.fAdc

/-- The response of an RF input's path at `num / den` Hz for a step and trim, in 10^-6 dB: the factory table plus the drift table of
the calibration in force (R256, R660). -/
def State.pathResponse (s : State) (b : BayNo) (i : Fin 2) (step trim num den : Nat) : Int :=
  let drift := (s.bay b).cal[i].drift.zipIdx.map fun e => ((s.firstTone + e.2) * s.fAdc, e.1)
  interpolate (Config.pathTable b i.val step trim) num den + interpolate drift (2048 * num) den

/-- The passband response of a preset and decimation at bin `i` of N bins, as an amplitude in units of 2^-32 (R256). -/
def State.passResponse (s : State) (b : BayNo) (p : Port) (preset k n : Nat) (i : Int) : Nat :=
  let r := 2 ^ (if s.complexIn b p then k else k + 1)
  let len := settleOf preset * r
  let sum := (List.range len).foldl (fun (acc : Int × Int) l =>
    let w := cis (-(i * (l : Nat))) (n * r)
    let h := Config.tap b p.val preset k l
    (acc.1 + h * w.1, acc.2 + h * w.2)) (0, 0)
  rootOf (sum.1 * sum.1 + sum.2 * sum.2).toNat / one64

/-- The pin frequency of bin `i` of a frame as a fraction in Hz (R217, R255). -/
def State.binHz (s : State) (b : BayNo) (c : FrameConf) (k n : Nat) (i : Int) : Int × Nat :=
  let f := s.fIn b c.port
  (c.ftw.toInt * f * (2 ^ (k + 1) * n : Nat) + i * (s.portLoad b c.port : Int) * 2 ^ 48, 2 ^ 48 * 2 ^ (k + 1) * n)

/-- The corrected complex bin i, in units of 2^-48 where 1 is 0 dBFS: the windowed transform X_i of the frame's samples `ys`, divided by
the window's coherent gain and N, by the passband response, and for an RF port by the response of the input path (R256, R258). `ws` is
the window, in units of 2^-64. -/
def State.correctedBin (s : State) (b : BayNo) (c : FrameConf) (k : Nat) (ws : List Int) (ys : List (Int × Int)) (i : Int) : Int × Int :=
  let n := ys.length
  let sum := ((ws.zip ys).zipIdx).foldl (fun (acc : Int × Int) e =>
    let w := cis (-(i * (e.2 : Nat))) n
    let y := e.1.2
    (acc.1 + e.1.1 * (y.1 * w.1 - y.2 * w.2), acc.2 + e.1.1 * (y.2 * w.1 + y.1 * w.2))) (0, 0)
  let gain : Nat := (max 1 (ws.foldl (· + ·) 0)).toNat
  let pass := max 1 (s.passResponse b c.port c.preset k n i)
  let path : Nat := if h : c.port.val < 2 then
      let f := s.binHz b c k n i
      amplitudeOf (-(s.pathResponse b ⟨c.port.val, h⟩ c.step c.trim f.1.natAbs f.2))
    else one64
  let d : Int := ((gain * pass * 2 ^ 96 : Nat) : Int)
  (sum.1 * path / d, sum.2 * path / d)

/-- The exponent that gives the largest component bit 14 as its highest (R278): `big` is in units of 2^-48. Of a spectrum that is zero
throughout the spec names none (log entry 12). -/
def exponentOf (big : Nat) : Int := if big = 0 then (Config.unstated 9 0).toInt else (big.log2 : Int) - 62

/-- A component in units of 2^E, from units of 2^-48. -/
def scaled (e v : Int) : BitVec 16 := BitVec.ofInt 16 (if e + 48 ≥ 0 then v / 2 ^ (e + 48).toNat else v * 2 ^ (-(e + 48)).toNat)

/-- The corrected spectrum of a frame with settings `c`, from its N samples (R255, R256, R259, R278). -/
def State.transform (s : State) (b : BayNo) (c : FrameConf) (k : Nat) (ys : List (Int × Int)) : Spectrum :=
  let n := ys.length
  let ws := (List.range n).map (s.windowAt b c.window c.param n)
  let bins := (List.range n).map fun (i : Nat) => s.correctedBin b c k ws ys ((i : Int) - n / 2)
  let e := exponentOf (bins.foldl (fun m v => max m (max v.1.natAbs v.2.natAbs)) 0)
  { powers := bins.map fun v => (v.1 * v.1 + v.2 * v.2).toNat
    complex := bins.map fun v => scaled e v.2 ++ scaled e v.1
    expo := BitVec.ofInt 8 e }

end Sys2Proof.Machine
end

