-- ==== Sys2Proof/Machine/Iq.lean ====
section
/-! DEFINITION. IQ records: the format word, the packing of samples and the marks of invalid ones (R228, R441). -/
namespace Sys2Proof.Machine

/-- A component rounded half up to its 12 most significant bits, saturated (R441). -/
def to12 (v : BitVec 16) : BitVec 12 :=
  let r := (v.toInt + 8) / 16
  BitVec.ofInt 12 (max (-2048) (min 2047 r))

/-- The bytes of a sample. -/
def Sample.bytes (wide : Bool) (x : Sample) : List Byte :=
  if wide then [x.i.extractLsb' 0 8, x.i.extractLsb' 8 8, x.q.extractLsb' 0 8, x.q.extractLsb' 8 8]
  else
    let v : BitVec 24 := to12 x.q ++ to12 x.i
    [v.extractLsb' 0 8, v.extractLsb' 8 8, v.extractLsb' 16 8]

/-- The indices of the first invalid sample and of the first valid one after the last invalid one, 0xFFFF where none
follows; none when every sample is valid (R228). -/
def invalidMarks (bad : List Bool) : Option (Nat × Nat) :=
  match bad.findIdx? id with
  | none => none
  | some f =>
    let after := bad.length - (bad.reverse.findIdx? id).getD 0
    some (f, if after < bad.length then after else 0xFFFF)

/-- An IQ record of consecutive outputs of a port, the first one number `n` (R177, R228, R433, R441). -/
def State.iqBody (s : State) (b : BayNo) (p : Port) (source : Nat) (wide : Bool) (n : Nat) (xs : List Sample)
    (flags : BitVec 8) : RecBody :=
  let w := if wide then 4 else 3
  let len := ceilDiv (xs.length * w) 32
  let pad := 32 * len / w - xs.length
  let y := (s.bay b).ddc[p]
  let marks := invalidMarks ((List.range xs.length).map fun j => y.invalidIn (n + j) (n + j + 1))
  let bs := xs.flatMap (Sample.bytes wide)
  let (k, preset) := match y.stretchOf n with
    | some z => (z.k, z.preset)
    | none => (s.decim b p, s.fldN Fld.ddcPreset b p.val)
  { typ := .iq, source := source, stamp := y.stampOf n
    flags := flags ||| flagIf marks.isSome flagSettling ||| flagIf (s.overloadOn b p (y.stampOf n) (y.stopOf n xs.length)) flagOverload
    gen := BitVec.ofNat 16 (bitW wide + 2 * k + 64 * p.val + 256 * preset + 1024 * s.pkgN Fld.clkFAdc + 4096 * pad)
    w6lo := BitVec.ofNat 16 ((marks.map (·.2)).getD 0), w6hi := BitVec.ofNat 16 ((marks.map (·.1)).getD 0)
    payload := bytesWords (8 * len) (bs ++ List.replicate (32 * len - bs.length) 0) }

/-- Bytes of a sample of an IQ record, by its FORMAT (R441). -/
def Rec.sampleBytes (r : Rec) : Nat := if r.gen.getLsbD 0 then 4 else 3

/-- K of an IQ record (R441). -/
def Rec.sampleCount (r : Rec) : Nat := 32 * (r.length.toNat - 1) / r.sampleBytes - bits r.gen.toNat 15 12

end Sys2Proof.Machine
end

