-- ==== Sys2Proof/Machine/Afe.lean ====
section
/-! DEFINITION. Attenuation, overload, automatic stepping and the converters' background rotation (R170 to R211). -/
namespace Sys2Proof.Machine

/-- The RF port of an input. -/
def rfPort (i : Fin 2) : Port := ⟨i.val, by omega⟩

/-- The word 0 and 1 of EV_AFE_ATTEN (R175). -/
def attenWords (i : Fin 2) (cause : Nat) (auto : Bool) (oldS oldT newS newT : Nat) : List Word :=
  [wd (bitW auto + 2 * cause + 16 * i.val), wd (oldS + 32 * oldT + 65536 * newS + 2097152 * newT)]

/-- The running attenuation takes new values with the sample taken at counter time `t` (R174, R175): the front end starts to settle, the
port's stamps go on with the delay of the new step, an invalid run starts there, the hold of a step down starts again and the change is
reported with the stamp of the first sample at the new value. -/
def State.setAtten (s : State) (b : BayNo) (i : Fin 2) (step trim cause : Nat) (auto : Bool) (t : Stamp) : State :=
  let p := rfPort i
  let a := (s.bay b).afe.inputs[i]
  let d0 := s.portDelay b p
  let (j, t0) := s.inputFrom b p (s.planeStamp b p t)
  let s1 := s.modAfe b i fun a => { a with step := step, trim := trim, settled := false, changedAt := t, quietFrom := t }
  let s2 := s1.newStretch b p t0 d0 (s1.portDelay b p)
  let y := (s2.bay b).ddc[p]
  let tc := match y.delivers, y.line with
    | true, z :: _ => (z.inputTime j).stamp
    | _, _ => s2.planeStamp b p t
  let s3 := (s2.changeRun b p tc).noteConf b tc
  s3.event b 0x0401 (attenWords i cause auto a.step a.trim step trim ++ stampWords tc)

/-- An image's values first take effect: reported once whether or not they differ (R175, cause 5). -/
def State.loadAtten (s : State) (b : BayNo) (i : Fin 2) : State :=
  s.setAtten b i (s.fldN Fld.afeAtten b i.val) (s.fldN Fld.afeTrim b i.val) 5 false (s.eventStamp b)

/-- The front end of an input is powered (R717, R734). -/
def State.frontOn (s : State) (b : BayNo) (i : Fin 2) : Bool := s.alive b && (s.bay b).pwr.frontEnd[i]

/-- The front end works: the package has started and is not in SAFE (R55, R98). -/
def State.frontWorks (s : State) (b : BayNo) (i : Fin 2) : Bool :=
  s.frontOn b i && (decide (s.img.state = .run) || decide (s.img.state = .ready))

/-- A calibration run of the input is under way: its gap is open (R671). -/
def State.calOpen (s : State) (b : BayNo) (i : Fin 2) : Bool := (s.bay b).cal[i].run.isSome

/-- Automatic stepping is suspended and the running attenuation is held: in foreground calibration, or while the clocks are gated
(R183, R671). -/
def State.autoHeld (s : State) (b : BayNo) (i : Fin 2) : Bool := s.calOpen b i || (s.bay b).clk.gated

/-- A value that the host, a profile or a restart gives takes effect, or waits while the attenuation is held or the front end is off
(R175, R181, R183, R199). -/
def State.giveAtten (s : State) (b : BayNo) (i : Fin 2) (x : AttenSet) : State :=
  let a := (s.bay b).afe.inputs[i]
  if !s.frontOn b i || s.autoHeld b i then s.modAfe b i fun a => { a with waiting := some x }
  else if a.step = x.step ∧ a.trim = x.trim then s
  else s.setAtten b i x.step x.trim x.cause false (s.nowAt b)

/-- A value that waited takes effect once nothing holds it back (R183, R199). -/
def State.freeAtten (s : State) (b : BayNo) (i : Fin 2) : State :=
  match (s.bay b).afe.inputs[i].waiting with
  | none => s
  | some x => if !s.frontOn b i || s.autoHeld b i then s else (s.modAfe b i fun a => { a with waiting := none }).giveAtten b i x

/-- The threshold of the overload detector against raw full scale, in 1/128 dB (R176). -/
def State.ovlLevel (s : State) (b : BayNo) : Int := -(32 * s.fldN Fld.afeOvlThresh b : Nat)

/-- An automatic step up on a trip after settling (R179). -/
def State.autoStepUp (s : State) (b : BayNo) (i : Fin 2) : State :=
  let a := (s.bay b).afe.inputs[i]
  let top := s.fldN Fld.afeAutoMax b
  if s.fldN Fld.afeAutoMode b = 0 ∨ s.autoHeld b i ∨ !a.settled ∨ top ≤ a.step then s
  else
    let s1 := s.modAfe b i fun a => { a with autoUp := a.autoUp + 1 }
    s1.setAtten b i (min (a.step + s.fldN Fld.afeAutoStep b) top) a.trim 2 true (s.nowAt b)

/-- The detector of an input trips, as found at counter time `t`: an interval opens at the instant that its delay puts at the pin plane,
unless one is open, and the attenuator may step (R176, R178, R179). -/
def State.trip (s : State) (b : BayNo) (i : Fin 2) (t : Stamp) : State :=
  let a := (s.bay b).afe.inputs[i]
  let o := moved t (-(Config.detectorDelay b i.val : Int))
  let s0 := s.modAfe b i fun a => { a with lastTrip := t, quietFrom := t }
  let s1 :=
    if a.overload then s0
    else
      let s1 := s0.modAfe b i fun a =>
        { a with overload := true, intervals := (o, none) :: a.intervals, ovlCount := a.ovlCount + 1, ovlTold := true }
      if a.ovlTold then s1 else s1.event b 0x0402 [wd i.val]
  s1.autoStepUp b i

/-- OVERLOAD_TRIP (R176, R178, R179, R183): at counter time `t` the detector of input `i` sees a peak of `level` against raw full scale,
in 1/128 dB, and `clips` samples at an extreme code. It trips above its threshold, or for a clipped sample. -/
def execOverloadTrip (b : BayNo) (i : Fin 2) (t : Stamp) (level : Int) (clips : Nat) (s0 : State) : Out :=
  if !s0.frontWorks b i || (s0.bay b).clk.gated || stampLt t s0.now || (decide (level ≤ s0.ovlLevel b) && decide (clips = 0)) then .next s0
  else .next (((s0.reach t).modAdc b i fun c => { c with clips := c.clips + wd clips }).trip b i t)

/-- The overload interval of an input closes at a pin-plane instant (R176). -/
def AfeIn.closeOverload (a : AfeIn) (t : Stamp) : AfeIn :=
  { a with overload := false
           intervals := match a.intervals with
             | (o, none) :: r => (o, some t) :: r
             | l => l }

/-- OVERLOAD_CLOSE (R176): the signal of input `i` was last found less than 1 dB below the threshold at counter time `t`. The interval
closes AFE.OVL_HOLD × 10 ns later, unless the detector has tripped since. -/
def execOverloadClose (b : BayNo) (i : Fin 2) (t : Stamp) (s0 : State) : Out :=
  let a := (s0.bay b).afe.inputs[i]
  if !s0.frontWorks b i || !a.overload || stampLt t a.lastTrip then .next s0
  else
    let z := later t (ofNs (10 * s0.fldN Fld.afeOvlHold b))
    .next ((s0.reach z).modAfe b i fun a => a.closeOverload (moved z (-(Config.detectorDelay b i.val : Int))))

/-- AUTO_STEP_DOWN (R180): AFE.AUTO_DOWN_HOLD ms have passed since the last step, trip or restart, and `peak` is the largest sample
magnitude over them against raw full scale, in 1/128 dB. -/
def execAutoStepDown (b : BayNo) (i : Fin 2) (peak : Int) (s0 : State) : Out :=
  let a := (s0.bay b).afe.inputs[i]
  let low := s0.fldN Fld.afeAtten b i.val
  let by_ := s0.fldN Fld.afeAutoStep b
  if !s0.frontWorks b i || s0.fldN Fld.afeAutoMode b ≠ 2 || s0.autoHeld b i || a.overload || a.step ≤ low ||
      decide (peak > s0.ovlLevel b - (128 * (by_ + 3) : Nat)) then .next s0
  else
    let s := s0.reach (later a.quietFrom (ofMs (s0.fldN Fld.afeAutoDownHold b)))
    let s1 := s.modAfe b i fun a => { a with autoDown := a.autoDown + 1 }
    .next (s1.setAtten b i (max (a.step - by_) low) a.trim 3 true (s.nowAt b))

/-- ATTEN_SETTLED (R174, R179): the front end of input `i` has settled, 50 ns after the change; `level` is the peak that the detector
then sees, in 1/128 dB against raw full scale. Above the threshold it trips again. -/
def execAttenSettled (b : BayNo) (i : Fin 2) (level : Int) (s0 : State) : Out :=
  let a := (s0.bay b).afe.inputs[i]
  if !s0.frontWorks b i || a.settled then .next s0
  else
    let s := s0.reach (later a.changedAt (ofNs 50))
    let s1 := s.modAfe b i fun a => { a with settled := true }
    .next (if (s.bay b).clk.gated || decide (level ≤ s.ovlLevel b) then s1 else s1.trip b i (s1.nowAt b))

/-- The sealed source: 0 HK-A, 1 HK-B (R688, R689). -/
def State.sealedSource (s : State) (b : BayNo) : Fin 2 := if (s.bay b).hkc.sealedB then 1 else 0

/-! ### The background rotation -/

/-- The rotation of a converter is paused (R190), or does not run (R55). -/
def State.rotationPaused (s : State) (b : BayNo) (i : Fin 2) : Bool :=
  !s.fldB Fld.adcBgcalEn b || s.calOpen b i || (s.bay b).clk.gated || (s.bay b).clk.restarting ||
    !inMask (s.fldN Fld.clkAdcEn b) i.val || s.quiet || !s.frontWorks b i

/-- Interrupt the rotation: the calibration under way starts again when the pause ends, and so does a comparison window (R190). -/
def State.pauseRotation (s : State) (b : BayNo) (i : Fin 2) : State :=
  s.modAdc b i fun c => { c with calFrom := none, swapWait := false }

/-- The rotation goes on where nothing pauses it: the spare's calibration starts from its beginning (R186, R190). -/
def State.runRotation (s : State) (b : BayNo) (i : Fin 2) : State :=
  if s.rotationPaused b i then s.pauseRotation b i
  else s.modAdc b i fun c => { c with calFrom := if c.spare.isSome && c.incoming.isNone then some (c.calFrom.getD (s.nowAt b)) else none }

/-- Both rotations of a bay follow what pauses them. -/
def State.runRotations (s : State) (b : BayNo) : State := (s.runRotation b 0).runRotation b 1

/-- A slice serves a slot. -/
def Adc.serves (c : Adc) (x : Slice) : Bool := c.slots.toList.contains x

/-- The active slice whose last completed calibration is the oldest (R186). -/
def Adc.oldest (c : Adc) : Option Slice := c.order.find? c.serves

/-- The active slice whose calibration is the most recent (R198). -/
def Adc.newest (c : Adc) : Option Slice := c.order.reverse.find? c.serves

/-- The mean input power below which a slice keeps its skew and bandwidth: −50 dBFS in 1/128 dB (R185). -/
def lowPower : Int := -6400

/-- SLICE_CAL_DONE (R185, R186, R211): the spare slice of ADC `i` ends its 4 ms calibration with the estimates `est`; `power` is the mean
input power within the span over it, in 1/128 dBFS. The slice is ready to be compared with the one that it will replace. -/
def execSliceCalDone (b : BayNo) (i : Fin 2) (est : SliceCoef) (power : Int) (s0 : State) : Out :=
  let c := (s0.bay b).adc[i]
  match c.spare, c.calFrom with
  | some x, some t =>
    if s0.rotationPaused b i || c.incoming.isSome then .next s0
    else
      let s := s0.reach (later t (ofMs 4))
      let low := decide (power < lowPower)
      let old := c.coefs[x]
      let held := c.rotHeld || low
      let done := c.rotSet ||| BitVec.ofNat 17 (2 ^ x.val)
      let full := decide (done = BitVec.allOnes 17)
      let s1 := s.modAdc b i fun c =>
        { c with order := (c.order.filter fun y => y != x) ++ [x], incoming := some x, calFrom := none
                 coefs := c.coefs.set x (if low then { est with skew := old.skew, bandwidth := old.bandwidth } else est)
                 lowSig := if low then c.lowSig + 1 else c.lowSig
                 rotSet := if full then 0 else done, rotHeld := if full then false else held }
      .next (if full && held then s1.event b 0x0412 [wd i.val] else s1)
  | _, _ => .next s0

/-- A slot period: 16 ADC periods. -/
def State.slotPeriod (s : State) : Nat := durOf 16 s.fAdc

/-- SWAP_COMPARE (R187 to R190): a comparison window of ADC `i` ends; `sum` is Σ d_i and `squares` Σ d_i², in LSB. -/
def execSwapCompare (b : BayNo) (i : Fin 2) (sum : Int) (squares : Nat) (s : State) : Out :=
  let c := (s.bay b).adc[i]
  match c.incoming, c.oldest with
  | some x, some y =>
    if s.rotationPaused b i then .next s
    else
      let t := s.nowAt b
      let lo := moved t (-((64 * s.slotPeriod : Nat) : Int))
      let a := (s.bay b).afe.inputs[i]
      if a.overloadIn (s.planeStamp b (rfPort i) lo) (s.planeStamp b (rfPort i) t) || (!a.settled) || stampLt lo (later a.changedAt (ofNs 50)) then
        .next (s.modAdc b i fun c => { c with swapWait := true })
      else if sum.natAbs ≤ 4 * s.fldN Fld.adcSwapTolOfs b ∧
          4 * squares ≤ s.fldN Fld.adcSwapTolRms b * s.fldN Fld.adcSwapTolRms b then
        .next (s.modAdc b i fun c =>
          { c with slots := c.slots.map fun z => if z = y then x else z
                   spare := some y, incoming := none, calFrom := some t, aborts := 0, swaps := c.swaps + 1, swapWait := false })
      else
        let s1 := s.modAdc b i fun c =>
          { c with incoming := none, calFrom := some t, aborts := c.aborts + 1, aborted := c.aborted + 1, swapWait := false }
        let s2 := s1.event b 0x0410 [wd i.val, wd x.val, wd y.val, Word.ofSigned sum, wd squares]
        if c.aborts + 1 ≥ 3 then
          .next ((s2.modAdc b i fun c => { c with faulty := c.faulty ||| BitVec.ofNat 17 (2 ^ x.val), spare := none, calFrom := none, aborts := 0 }).event
            b 0x0411 [wd i.val, wd x.val])
        else .next s2
  | _, _ => .next s

/-- Coefficients by slice number, zero where none are given. -/
def coefVector (l : List SliceCoef) : Vector SliceCoef 17 := Vector.ofFn fun x => l.getD x.val .zero

/-- The factory coefficients of a converter (R92). -/
def factoryCoefs (b : BayNo) (i : Fin 2) : Vector SliceCoef 17 :=
  Vector.ofFn fun x =>
    { offset := Config.sliceFactory b i.val x.val 0, gain := Config.sliceFactory b i.val x.val 1
      skew := Config.sliceFactory b i.val x.val 2, bandwidth := Config.sliceFactory b i.val x.val 3 }

/-- Start-up phase 9 and IMAGE_RESTART calibrate and test every slice again: slots 0 to 15 are served by S0 to S15 and
S16 is the spare (R184, R189). `bad` holds the slices that fail the test; their place is taken by the spare. -/
def Adc.init (c : Adc) (bad : BitVec 17) (coefs : Vector SliceCoef 17) : Adc :=
  let good := (List.finRange 17).filter fun x => !bad.getLsbD x.val
  { c with
    slots := Vector.ofFn fun i => good.getD i.val ⟨i.val, by omega⟩
    spare := good[16]?, order := List.finRange 17, incoming := none, aborts := 0, faulty := bad, swapWait := false
    watch := none, coefs := coefs, calFrom := none, rotSet := 0, rotHeld := false }

/-! ### Registers -/

/-- AFE_STATUSi (R208). -/
def State.afeStatus (s : State) (b : BayNo) (i : Fin 2) : Word :=
  let a := (s.bay b).afe.inputs[i]
  wd (a.step + 32 * a.trim + 4096 * bitW a.overload + 8192 * bitW (decide (a.step > s.fldN Fld.afeAtten b i.val)) +
    16384 * bitW a.combSel + 32768 * bitW a.combFail)

/-- The AFE registers (R207). -/
def State.afeReg (s : State) (b : BayNo) (off : Nat) : Word :=
  let i : Fin 2 := ⟨off / 4 % 2, by omega⟩
  let a := (s.bay b).afe.inputs[i]
  match off / 8 with
  | 0 => s.afeStatus b i
  | 1 => a.ovlCount
  | 2 => a.autoDown ++ a.autoUp
  | 4 => a.combWorst ++ a.combRms
  | 5 => if i = 0 then Word.ofSigned (s.bay b).afe.combDet else 0
  | 6 => Word.ofSigned a.det
  | _ => 0

/-- The number of a slice, 31 for none (R210). -/
def sliceNo (x : Option Slice) : Nat :=
  match x with
  | none => 31
  | some y => y.val

/-- ADC_STATUSi (R210). -/
def State.adcStatus (s : State) (b : BayNo) (i : Fin 2) : Word :=
  let c := (s.bay b).adc[i]
  let on := !s.rotationPaused b i && c.spare.isSome
  wd (sliceNo c.spare + 32 * (if on && c.incoming.isNone then sliceNo c.spare else 31) + 1024 * bitW on +
    2048 * bitW c.spare.isNone + 4096 * bitW c.swapWait + 8192 * bitW c.watch.isSome + 16384 * sliceNo c.watch)

/-- The ADC registers (R209). -/
def State.adcReg (s : State) (b : BayNo) (off : Nat) : Word :=
  let i : Fin 2 := ⟨off / 4 % 2, by omega⟩
  let c := (s.bay b).adc[i]
  match off / 8 with
  | 0 => s.adcStatus b i
  | 1 => c.faulty.setWidth 32
  | 2 => c.aborted ++ c.swaps
  | 3 => c.clips
  | 4 => c.lowSig
  | _ => 0

end Sys2Proof.Machine
end

