-- ==== Sys2Proof/Machine/Que.lean ====
section
/-! DEFINITION. Record queues: flushes, the MAC engine and reads (R448 to R457, R636). -/
namespace Sys2Proof.Machine

/-- A flush of one queue at a flush instant: its records are discarded, a pending DROPPED GAP record enters, then one
FLUSH record with the cause (R443, R455). -/
def State.flushQueue (s : State) (b : BayNo) (i : Fin 16) (cause : Nat) : State :=
  let q := (s.bay b).que.queues[i]
  let n := q.entries.length
  let bytes := q.level
  let s1 := (s.modQueue b i fun q => { q with entries := [], pageUsed := 0, flushed := q.flushed + wd n }).putDropped b i
  let pay := [wd i.val, wd n] ++ words64 (BitVec.ofNat 64 bytes)
  let (seq, s2) := s1.nextSeq b 0xE1 .flush
  let r := s2.mkRec b { typ := .flush, source := 0xE1, stamp := s2.nowAt b, w6hi := BitVec.ofNat 16 cause, payload := pay } seq
  (if s.img.state = .ready then s1 else s2.putEntry b i r ((s2.placeFor b i r.bytes 0).getD false)).event b 0x0B05 pay

/-- QUE_FLUSH (R455, R456): a write of a mask of queues. -/
def execQueFlush (b : BayNo) (mask : BitVec 16) (s : State) : Out :=
  if !s.queueAwake b then .next (s.fencedAccess b .datapath)
  else .next ((List.finRange 16).foldl (fun s i => if mask.getLsbD i.val then s.flushQueue b i 0 else s) s)

/-- QUE_RESERVE_PEAK_READ (R470): the register is read and clears. -/
def execQueReservePeakRead (b : BayNo) (s : State) : Out :=
  if !s.queueAwake b then .next (s.fencedAccess b .datapath)
  else .next (s.modBay b fun x => { x with que := { x.que with reservePeak := 0 } })

/-- SEALED_RECORD_MAC (R13, R444, R635, R636): the MAC engine appends the trailer to the oldest sealed record that waits
and the record goes from the headland to its queue. -/
def execSealedRecordMac (s : State) : Out :=
  if !s.alive 0 then .next s
  else
    match s.keeper.macQueue with
    | [] => .next s
    | (queue, r) :: rest =>
      let s1 := (s.modSeal fun y => { y with macQueue := rest })
      let (_, ev, s2) := s1.arrive 0 queue { r with trailer := s1.trailer r }
      .next (s2.queueEvents ev)

end Sys2Proof.Machine
end

