-- ==== Sys2Proof/Machine/RecOps.lean ====
section
/-! DEFINITION. Shared operations of the recorder: geometry, the log and its index, rows, frozen regions (R480 to R501). -/
namespace Sys2Proof.Machine

/-- The recorder of a bay. -/
def State.recd (s : State) (b : BayNo) : Recorder := (s.bay b).recorder

/-- Change the recorder of a bay. -/
def State.modRec (s : State) (b : BayNo) (f : Recorder → Recorder) : State := s.modBay b fun y => { y with recorder := f y.recorder }

/-! ### Geometry (R481 to R483) -/

/-- Bytes of data in a row. -/
def Volume.rowBytes (v : Volume) : Nat := (v.members - 1) * v.unit

/-- Rows of the extent. -/
def Volume.rowCount (v : Volume) : Nat := v.size / max 1 v.rowBytes

/-- M0, where the data area of a member starts (R481). -/
def Volume.dataStart (v : Volume) : Nat := 1048576 + v.indexMib * 1048576

/-- The parity member of a row (R483). -/
def Volume.parityMember (v : Volume) (row : Nat) : Nat := (v.members - 1) - row % v.members

/-- Where byte `x` of the extent lies: member and member byte (R483). -/
def Volume.place (v : Volume) (x : Nat) : Nat × Nat :=
  let u := x / v.unit
  let row := u / (v.members - 1)
  let j := u % (v.members - 1)
  ((v.parityMember row + 1 + j) % v.members, v.dataStart + row * v.unit + x % v.unit)

/-- C_m for a smallest member of `cap` bytes (R481). -/
def memberData (cap m0 unit : Nat) : Nat := (cap - m0) / max 1 unit * unit

/-- X_b (R482): `gib` 0 takes all. -/
def extentSize (n unit cm gib : Nat) : Nat :=
  let a := (n - 1) * cm
  let g := if gib = 0 then a else gib * 2 ^ 30
  let w := max 1 ((n - 1) * unit)
  min a g / w * w

/-- Where byte `x` of an index block copy lies (R500): member and slot of copy `j` of block `k`. -/
def Volume.indexPlace (v : Volume) (k j : Nat) : Nat × Nat :=
  let slots := v.indexMib * 256
  let c := 3 * (k % max 1 (v.members * slots / 3)) + j
  (c % v.members, c / v.members)

/-- Index entries that the index can hold (R501). -/
def Volume.indexSpans (v : Volume) : Nat := 63 * (v.members * v.indexMib * 256 / 3)

/-- A volume address: base and extent offset (R483). -/
def Volume.addr (v : Volume) (x : Nat) : BitVec 64 := BitVec.ofNat 64 (v.base + x)

/-! ### Index entries (R499) -/

/-- The sixteen words of an index entry. -/
def Span.words (v : Volume) (e : Span) : List Word :=
  let flags := bitW e.cont + 2 * bitW e.degraded + 4 * bitW e.padded + 8 * bitW e.first + 16 * bitW e.last + 32 * bitW e.recovered
  words64 e.epoch ++ stampWords e.epochStart ++ [wd (flags + 65536 * e.session.toNat)] ++ words64 (v.addr e.lo) ++
    words64 (v.addr e.hi) ++ (match e.range with
      | none => List.replicate 6 0
      | some r => stampWords r.1 ++ stampWords r.2)

/-- A record starts in a span: its stamp enters the range. -/
def Span.take (e : Span) (t : Stamp) : Span :=
  { e with range := match e.range with
      | none => some (t, t)
      | some (a, z) => some (if stampLt t a then t else a, if stampLt z t then t else z) }

/-! ### Regions -/

/-- The closed regions. -/
def Recorder.closed (y : Recorder) : List Region := (y.regions.toList.filterMap id).filter fun r => !r.isOpen

/-- The regions in the table. -/
def Recorder.regionCount (y : Recorder) : Nat := (y.regions.toList.filterMap id).length

/-- Where the writer must go on from a position: at the end of a closed region that holds it. -/
def Recorder.skipRegion (y : Recorder) (p : Nat) : Nat → Nat
  | 0 => p
  | fuel + 1 =>
    match y.closed.find? fun r => decide (r.start ≤ p ∧ p < r.stop) with
    | none => p
    | some r => y.skipRegion r.stop fuel

/-- The start of the next frozen region at or after a position, or the extent end (R488). -/
def Recorder.limit (y : Recorder) (v : Volume) (p : Nat) : Nat :=
  y.closed.foldl (fun m r => if p ≤ r.start then min m r.start else m) v.size

/-! ### Rows and spans -/

/-- Members that take a unit of a row: those of the set but for a failed one (R506, R508). -/
def Recorder.writers (y : Recorder) (v : Volume) : List (Fin 8) :=
  (List.finRange 8).filter fun d => decide (d.val < v.members) && decide (y.drives[d].state = .member ∨ y.drives[d].state = .rebuilding)

/-- The writer starts a row: what the row held is overwritten, with its records, spans and place in the log (R494, R499). -/
def Recorder.beginRow (y : Recorder) (v : Volume) (row : Nat) : Recorder :=
  let lo := row * v.rowBytes
  let hi := lo + v.rowBytes
  if y.kept.contains row then
    { y with
      kept := y.kept.filter (fun r => decide (r ≠ row)) ++ [row]
      log := y.log.filter fun e => !(decide (e.off < hi) && decide (lo < e.off + e.record.bytes))
      indexed := y.indexed - (y.spans.filter fun e => decide (e.lo < hi ∧ lo < e.hi)).length
      spans := y.spans.filter fun e => !(decide (e.lo < hi ∧ lo < e.hi)) }
  else { y with kept := y.kept ++ [row] }

/-- Issue a filled row to the members (R484, R487). -/
def Recorder.issueRow (y : Recorder) (v : Volume) (row : Nat) (t : Stamp) : Recorder :=
  { y with rows := y.rows ++ [{ row := row, left := y.writers v, issued := t }] }

/-- Move the write position on over bytes written, beginning and issuing the rows passed. -/
def Recorder.advance (y : Recorder) (v : Volume) (n : Nat) (t : Stamp) : Recorder :=
  let w := max 1 v.rowBytes
  let first := ceilDiv y.pos w
  let last := ceilDiv (y.pos + n) w
  let y1 := (List.range (last - first)).foldl (fun y j => y.beginRow v (first + j)) y
  let done := (y.pos + n) / w - y.pos / w
  let y2 := (List.range done).foldl (fun y j => y.issueRow v (y1.pos / w + j) t) y1
  { y2 with pos := y1.pos + n }

/-- Fill the rest of the row with zero bytes (R488). -/
def Recorder.padRow (y : Recorder) (v : Volume) (t : Stamp) : Recorder :=
  let w := max 1 v.rowBytes
  if y.pos % w = 0 then y
  else
    let y1 := y.advance v (w - y.pos % w) t
    { y1 with span := y1.span.map fun e => { e with padded := true } }

/-- The index block that holds the entry of a span (R500). -/
def Span.block (e : Span) : Nat := e.no / 63

/-- The index blocks that hold entries, oldest first. -/
def Recorder.indexBlocks (y : Recorder) : List Nat := (y.spans.map Span.block).eraseDups

/-- Words of index block `k` (R500): its entries at their places, then the trailer with its CRC. -/
def Recorder.blockWords (y : Recorder) (v : Volume) (k : Nat) : List Word :=
  let entry := fun (j : Nat) => match y.spans.find? fun e => decide (e.no = 63 * k + j) with
    | some e => e.words v
    | none => List.replicate 16 0
  let body := (List.range 63).flatMap entry ++ [0x58444E49] ++ words64 (BitVec.ofNat 64 k) ++
    [wd (y.spans.filter fun e => decide (e.block = k)).length] ++ List.replicate 11 0
  body ++ [crc32c (wordsBytes body)]

/-- A span meets a frozen region. -/
def Recorder.spanFrozen (y : Recorder) (e : Span) : Bool :=
  (y.regions.toList.filterMap id).any fun r => decide (e.lo < r.stop ∧ r.start < e.hi)

/-- The index overwrites its oldest block while it holds more than it can, and passes over a block that holds an entry of a frozen
region's span; what loses its entries leaves the retained log (R501). -/
def Recorder.trimIndex (y : Recorder) (v : Volume) : Recorder :=
  if y.indexBlocks.length ≤ v.indexSpans / 63 then y
  else
    match y.indexBlocks.find? fun k => !y.spans.any fun e => decide (e.block = k) && y.spanFrozen e with
    | none => y
    | some k =>
      let gone := y.spans.filter fun e => decide (e.block = k)
      { y with
        spans := y.spans.filter fun e => decide (e.block ≠ k), indexed := y.indexed - gone.length
        log := y.log.filter fun l => !gone.any fun e => decide (e.lo ≤ l.off ∧ l.off < e.hi)
        kept := y.kept.filter fun r => !gone.any fun e => decide (e.lo ≤ r * v.rowBytes ∧ (r + 1) * v.rowBytes ≤ e.hi) }

/-- Close the span in progress at the write position (R499). -/
def Recorder.closeSpan (y : Recorder) (v : Volume) (last : Bool) : Recorder :=
  match y.span with
  | none => y
  | some e =>
    let y1 := { y with span := none, spans := y.spans ++ [{ e with no := y.spanNo, hi := y.pos, last := last }], spanNo := y.spanNo + 1 }
    let y2 := y1.trimIndex v
    { y2 with indexed := max y2.indexed (y2.spans.filter fun e => decide (63 * (e.block + 1) ≤ y2.spanNo)).length }

/-- Open a span at the write position. -/
def State.openSpan (s : State) (b : BayNo) (cont first : Bool) : State :=
  let y := (s.bay b).tbs
  s.modRec b fun r =>
    let e : Span :=
      { no := 0, epoch := y.epoch, epochStart := y.epochStart, cont := cont, degraded := r.failedMember.isSome, padded := false
        first := first, last := false, recovered := false, session := r.session, lo := r.pos, hi := r.pos, range := none }
    { r with span := some e }

/-- Jump to a position: the span closes and the next one carries CONT (R488, R499). -/
def State.recJump (s : State) (b : BayNo) (v : Volume) (dst : Nat) : State :=
  (s.modRec b fun y => { (y.padRow v (s.nowAt b)).closeSpan v false with pos := dst }).openSpan b true false

/-! ### Frozen regions -/

/-- The payload of EV_FREEZE (R519): the region, both ends and the trigger stamp; the end of an open region is not stated
(log entry 12). -/
def freezeWords (v : Volume) (i : Nat) (r : Region) : List Word :=
  [wd i] ++ words64 (v.addr r.start) ++
    (if r.isOpen then [Config.unstated 1 0, Config.unstated 1 1] else words64 (v.addr r.stop)) ++ stampWords r.stamp

/-- Fix the end of region `i` at the write position, rounded outwards to a row (R495, R497). -/
def State.endRegion (s : State) (b : BayNo) (v : Volume) (i : Fin 64) : State :=
  match (s.recd b).regions[i] with
  | none => s
  | some r =>
    let w := max 1 v.rowBytes
    let r1 := { r with isOpen := false, stop := ceilDiv (s.recd b).pos w * w }
    (s.modRec b fun y => { y with regions := y.regions.set i (some r1) }).event b 0x0D30 (freezeWords v i.val r1)

/-- End the open regions that `p` selects. -/
def State.endRegions (s : State) (b : BayNo) (v : Volume) (p : Region → Bool) : State :=
  (List.finRange 64).foldl (fun s i =>
    match (s.recd b).regions[i] with
    | none => s
    | some r => if r.isOpen && p r then s.endRegion b v i else s) s

/-- Bytes in frozen regions, an open one counted up to the write position. -/
def Recorder.frozenBytes (y : Recorder) (v : Volume) : Nat :=
  (y.regions.toList.filterMap id).foldl (fun n r =>
    n + (if r.isOpen then (if r.start ≤ y.pos then y.pos - r.start else v.size - r.start + y.pos) else r.stop - r.start)) 0

/-- The unfrozen share would be below RING_MIN percent with `more` bytes frozen beyond those frozen now (R497). -/
def State.ringShort (s : State) (b : BayNo) (v : Volume) (more : Nat) : Bool :=
  decide ((v.size - ((s.recd b).frozenBytes v + more)) * 100 < s.fldN Fld.recRingMin b * v.size)

/-- The unfrozen space has fallen to a region's RING_MIN percent (R497, R514). -/
def Recorder.ringLow (y : Recorder) (v : Volume) (r : Region) : Bool := decide ((v.size - y.frozenBytes v) * 100 ≤ r.ringMin * v.size)

/-- What was written to rows that never reached the drives is lost (R492, R507). -/
def Recorder.dropRows (y : Recorder) (v : Volume) (lost : List Nat) : Recorder :=
  { y with log := y.log.filter fun e => !lost.any fun r => decide (e.off < (r + 1) * v.rowBytes ∧ r * v.rowBytes < e.off + e.record.bytes) }

/-- The row in progress, where it is partly filled. -/
def Recorder.partRow (y : Recorder) (v : Volume) : List Nat :=
  if y.pos % max 1 v.rowBytes = 0 then [] else [y.pos / max 1 v.rowBytes]

/-! ### Acceptance -/

/-- Bytes of the write buffer in use (R487). -/
def Recorder.buffered (y : Recorder) (v : Volume) : Nat := (y.rows.length + 1) * v.members * v.unit

/-- The recorder reads a record from a mode-3 channel now: to accept it, or to discard it in IDLE, FULL and FAILED; one that is OFF or
WAITING holds the channel (R451, R489, log entry 81). -/
def State.recTakes (s : State) (b : BayNo) (n : Nat) : Bool :=
  let y := s.recd b
  match y.state, y.volume with
  | .recording, some v => y.stopping || (!y.failover && decide (y.buffered v + n * v.members / max 1 (v.members - 1) ≤ 33554432))
  | .off, _ => false
  | .waiting, _ => false
  | _, _ => true

/-- Enter FULL at the extent end in linear mode (R493). -/
def State.recFull (s : State) (b : BayNo) (v : Volume) : State :=
  (s.modRec b fun y =>
    { (y.padRow v (s.nowAt b)).closeSpan v true with state := .full, sessionOpen := false }).event b 0x0D22 []

/-- The position at which a record of `n` bytes fits: none is the extent end of a linear recording. It passes over frozen
regions and wraps at the extent end of a ring (R488, R494, R498). -/
def State.fitPos (s : State) (b : BayNo) (v : Volume) (n p : Nat) : Nat → Option Nat
  | 0 => none
  | fuel + 1 =>
    let q := (s.recd b).skipRegion p 64
    let l := (s.recd b).limit v q
    if q < v.size ∧ q + n ≤ l then some q
    else if l < v.size then s.fitPos b v n l fuel
    else if s.fldN Fld.recMode b = 0 then none
    else s.fitPos b v n 0 fuel

/-- Move to where a record of `n` bytes is written. -/
def State.recPlace (s : State) (b : BayNo) (v : Volume) (n : Nat) : Option State :=
  match s.fitPos b v n (s.recd b).pos 132 with
  | none => none
  | some p => some (if p = (s.recd b).pos then s else s.recJump b v p)

/-- The recorder takes a record: it is accepted into the log, or discarded and counted (R486 to R489). -/
def State.recTake (s : State) (b : BayNo) (r : Rec) : State :=
  let y := s.recd b
  match y.state, y.volume with
  | .recording, some v =>
    if y.stopping then s.modRec b fun y => { y with discards := y.discards + 1 }
    else
      match s.recPlace b v r.bytes with
      | none => (s.recFull b v).modRec b fun y => { y with discards := y.discards + 1 }
      | some s1 =>
        let s2 := s1.modRec b fun y =>
          let off := y.pos
          let y1 := y.advance v r.bytes (s.nowAt b)
          { y1 with
            log := y1.log ++ [{ serial := y1.serial, off := off, record := r }], serial := y1.serial + 1, accepted := true
            bytes := y1.bytes + BitVec.ofNat 64 r.bytes, epochBytes := y1.epochBytes + r.bytes
            span := y1.span.map fun e => e.take r.stamp }
        s2.endRegions b v ((s2.recd b).ringLow v)
  | _, _ => s.modRec b fun y => { y with discards := y.discards + 1 }

/-- The recorder at an epoch boundary of its bay: the span closes, open regions whose e2 has passed end, and the rate is
taken (R495, R499, R516). -/
def State.recBoundary (s : State) (b : BayNo) : State :=
  let l := max 1 s.tbs.grid.len
  let s1 := s.modRec b fun y => { y with rate := wd (y.epochBytes * unitsPerSec / l / 1000000), epochBytes := 0 }
  let y := s1.recd b
  match y.state, y.volume with
  | .recording, some v =>
    if y.stopping then s1
    else
      let s2 := s1.modRec b fun y => y.closeSpan v false
      let s3 := s2.endRegions b v fun r => decide (r.stopEpoch < ((s.bay b).tbs.epoch.toNat : Int))
      s3.openSpan b false false
  | _, _ => s1

end Sys2Proof.Machine
end

