-- ==== Sys2Proof/Machine/Freeze.lean ====
section
/-! DEFINITION. Freezing regions of a ring recording around triggers (R495 to R497). -/
namespace Sys2Proof.Machine

/-- The number of the epoch that contains a stamp, on the nominal grid about the current epoch of bay `b`. -/
def State.epochOf (s : State) (b : BayNo) (t : Stamp) : Int :=
  let y := (s.bay b).tbs
  let l : Int := max 1 s.tbs.grid.len
  (y.epoch.toNat : Int) + (stampDiff t y.epochStart).fdiv l

/-- The spans of the log, the one in progress last. -/
def Recorder.allSpans (y : Recorder) : List Span := y.spans ++ y.span.toList

/-- Where a region that begins with epoch `e1` starts: its offset, and whether the epoch's span has been overwritten (R495,
R496). -/
def Recorder.regionStart (y : Recorder) (v : Volume) (e1 : Int) : Nat × Bool :=
  let w := max 1 v.rowBytes
  let oldest := match y.kept with
    | [] => y.pos / w * w
    | r :: _ => r * w
  match y.allSpans.find? fun e => decide (e1 ≤ (e.epoch.toNat : Int)) with
  | none => (oldest, true)
  | some e => if (e.epoch.toNat : Int) = e1 then (e.lo / w * w, e.cont) else (oldest, true)

/-- A trigger of unit `u` at `t` freezes a region of the bay's log (R495 to R497). -/
def State.freezeRegion (s : State) (b : BayNo) (u : Fin 8) (t : Stamp) : State :=
  let y := s.recd b
  match y.state, y.volume with
  | .recording, some v =>
    if s.fldN Fld.recMode b ≠ 1 ∨ !inMask (s.fldN Fld.recFreezeUnits b) u.val then s
    else
      let margin : Int := s.fldN Fld.recFreezeMargin b
      let e1 := s.epochOf b (moved t (-(ofMs (s.fldN Fld.recFreezePreMs b) : Int))) - margin
      let e2 := s.epochOf b (later t (ofMs (s.fldN Fld.recFreezePostMs b))) + margin
      let here := s.epochOf b t
      let grows := fun (r : Region) => r.isOpen && decide (here ≤ r.stopEpoch)
      if (y.regions.toList.filterMap id).any grows then
        let grow := fun (r : Region) => if grows r then { r with stopEpoch := max r.stopEpoch e2 } else r
        s.modRec b fun y => { y with regions := y.regions.map (Option.map grow) }
      else
        let (lo, cut) := y.regionStart v e1
        let meets := fun (r : Region) => !r.isOpen && decide (lo < r.stop ∧ r.start ≤ y.pos)
        let old := y.closed.filter meets
        let start := old.foldl (fun m r => min m r.start) lo
        let size := if lo ≤ y.pos then y.pos - lo else v.size - lo + y.pos
        let full := decide (y.regionCount ≥ 64) && old.isEmpty
        if full || s.ringShort b v size then
          (s.modRec b fun y => { y with refused := y.refused + 1 }).event b 0x0D31 []
        else
          let kept := y.regions.map fun r => match r with
            | some x => if meets x then none else some x
            | none => none
          match (List.finRange 64).find? fun i => kept[i].isNone with
          | none => s
          | some i =>
            let r : Region := { start := start, stop := start, stamp := t, unitNo := u
                                truncated := cut || old.any (·.truncated), isOpen := true, stopEpoch := e2
                                ringMin := s.fldN Fld.recRingMin b }
            (s.modRec b fun y => { y with regions := kept.set i (some r) }).event b 0x0D30 (freezeWords v i.val r)
  | _, _ => s

end Sys2Proof.Machine
end

