-- ==== Sys2Proof/Machine/Lanes.lean ====
section
/-! DEFINITION. Which port claims which lanes, and at what rate a lane runs (R520 to R525, R577). -/
namespace Sys2Proof.Machine

/-- The ports that take lanes of a bay. -/
inductive PortId where
  | control
  | stream (j : Nat)
  | drive (d : Nat)
  | eth (i : Nat)
  | lanil (n : Nat)
  | jesd (x : Nat)
  | display
  deriving DecidableEq, Repr

/-- A claim: the port, its first lane, how many lanes, and the use its quads must have (R520). -/
structure Claim where
  port : PortId
  first : Nat
  count : Nat
  use : Nat
  deriving DecidableEq, Repr

/-- First lane and lane count of the control endpoint's geometry (R554). -/
def ctrlLanes : Nat → Nat × Nat
  | 0 => (8, 16)
  | 1 => (8, 8)
  | 2 => (16, 8)
  | 3 => (8, 4)
  | _ => (20, 4)

/-- Lanes of an Ethernet rate (R561). -/
def ethLanes (rate : Nat) : Nat := if rate = 3 then 2 else if rate = 4 then 4 else 1

/-- The claims of a bay under a set of settings (R521, R522, R554, R555, R561, R575, R593, R475, R366). -/
def Vals.claims (m : Vals) (b : Nat) : List Claim :=
  let on := fun (c : Bool) (x : Claim) => if c then [x] else []
  let (f, n) := ctrlLanes (m.nat Fld.pciCtrlGeom 0)
  on (decide (b = 0)) { port := .control, first := f, count := n, use := 1 } ++
  ((List.range 4).flatMap fun j => on (decide (m.nat Fld.pciSEn b j = 1))
    { port := .stream j, first := 4 * m.nat Fld.pciSQuad b j, count := 4 * 2 ^ m.nat Fld.pciSWidth b j, use := 1 }) ++
  ((List.range 8).flatMap fun d => on (decide (m.nat Fld.recEn b = 1) && decide (d < m.nat Fld.recDrives b))
    { port := .drive d, first := 4 * m.nat Fld.recDQuad b d + m.nat Fld.recDLane b d, count := 2 ^ m.nat Fld.recDWidth b d, use := 2 }) ++
  ((List.range 8).flatMap fun i => on (decide (m.nat Fld.ethPEn b i = 1))
    { port := .eth i, first := 4 * m.nat Fld.ethPQuad b i + m.nat Fld.ethPLane b i, count := ethLanes (m.nat Fld.ethPRate b i), use := 3 }) ++
  ((List.range 2).flatMap fun l => on (decide (b = m.nat Fld.lnlLinkBay 0) && decide (m.nat Fld.lnlLinkWidth 0 l ≠ 0))
    { port := .lanil l, first := 4 * m.nat Fld.lnlLinkQuad 0 l, count := 4 * m.nat Fld.lnlLinkWidth 0 l, use := 4 }) ++
  ((List.range 2).flatMap fun x => on (decide (m.nat Fld.jesSEn b x = 1))
    { port := .jesd x, first := m.nat Fld.jesSFirstLane b x, count := m.nat Fld.jesSLanes b x, use := 5 }) ++
  on (decide (m.nat Fld.scnEn b = 1)) { port := .display, first := 20, count := m.nat Fld.scnLanes b, use := 6 }

/-- The claim that holds lane `k`. -/
def Claim.holds (c : Claim) (k : Nat) : Bool := decide (c.first ≤ k ∧ k < c.first + c.count)

/-- Lane numbers of a claim. -/
def Claim.lanes (c : Claim) : List (Fin 24) :=
  (List.range c.count).filterMap fun i => if h : c.first + i < 24 then some ⟨c.first + i, h⟩ else none

/-- The claims in force. Before an image is accepted, and in SAFE, only the control endpoint and the external links run,
in SAFE the control endpoint alone (R524). -/
def State.claims (s : State) (b : BayNo) : List Claim :=
  let all := Vals.claims s.vals b.val
  if s.img.image.isSome then all
  else if s.img.state = .safe then all.filter fun c => decide (c.port = .control)
  else all.filter fun c => decide (c.use = 4) || decide (c.port = .control)

/-- The claim of a lane. -/
def State.claimOf (s : State) (b : BayNo) (k : Fin 24) : Option Claim := (s.claims b).find? fun c => c.holds k.val

/-- The claim of a port. -/
def State.portClaim (s : State) (b : BayNo) (p : PortId) : Option Claim := (s.claims b).find? fun c => decide (c.port = p)

/-- The use of a quad in force (R520, R524): before acceptance the use of what runs there. -/
def State.quadUse (s : State) (b : BayNo) (q : Nat) : Nat :=
  if s.img.image.isSome then s.fldN Fld.lneQdUse b q
  else match (s.claims b).find? fun c => c.holds (4 * q) with
    | some c => c.use
    | none => 0

/-- The lane belongs to a TEST quad. -/
def State.testQuad (s : State) (b : BayNo) (k : Fin 24) : Bool := decide (s.quadUse b (k.val / 4) = 7)

/-- The lane is one that a port claims or a TEST quad owns; another is powered off (R520, R522). -/
def State.laneUsed (s : State) (b : BayNo) (k : Fin 24) : Bool := s.testQuad b k || (s.claimOf b k).isSome

/-- The lane is powered. -/
def State.lanePowered (s : State) (b : BayNo) (k : Fin 24) : Bool :=
  s.alive b && (s.bay b).pwr.quads[k.val / 4]'(by omega) && s.laneUsed b k

/-- Target rates of R534 in kbit/s. -/
def lnlRate : Nat → Nat
  | 0 => 10000000
  | 1 => 16000000
  | 2 => 32000000
  | 3 => 53125000
  | _ => 64000000

/-- PCIe rates by generation in kbit/s; an untrained link runs at Gen1 (R525). -/
def pcieRate : Nat → Nat
  | 2 => 5000000
  | 3 => 8000000
  | 4 => 16000000
  | 5 => 32000000
  | 6 => 64000000
  | _ => 2500000

/-- Ethernet lane rates in kbit/s (R561). -/
def ethRate : Nat → Nat
  | 0 => 10312500
  | 1 => 25781250
  | _ => 53125000

/-- DisplayPort rates of SCN.LINK_RATE in kbit/s (R525). -/
def dpRate : Nat → Nat
  | 0 => 2700000
  | 1 => 5400000
  | 2 => 8100000
  | 3 => 10000000
  | 4 => 13500000
  | _ => 20000000

/-- The rate in force of a lane in kbit/s, 0 when powered off (R525, R550). -/
def State.laneRate (s : State) (b : BayNo) (k : Fin 24) : Nat :=
  if !s.lanePowered b k then 0
  else match s.claimOf b k with
    | none => s.fldN Fld.lneQdTestRate b (k.val / 4)
    | some c => match c.port with
      | .control => pcieRate (s.bay b).pci[4].gen.toNat
      | .stream j => pcieRate ((s.bay b).pci.toList.getD j .reset).gen.toNat
      | .drive d => pcieRate (((s.bay b).recorder.drives.toList.getD d .reset).gen)
      | .eth i => ethRate (s.fldN Fld.ethPRate b i)
      | .lanil n => (s.lnl.ext.toList.getD n .reset).rate
      | .jesd x => (Vals.jesShape s.vals b.val x).rate.1 / (1000 * max 1 (Vals.jesShape s.vals b.val x).rate.2)
      | .display => dpRate (s.fldN Fld.scnLinkRate b)

/-- The lane runs PAM4: above 32 Gbit/s (R525). -/
def State.lanePam4 (s : State) (b : BayNo) (k : Fin 24) : Bool := decide (s.laneRate b k > 32000000)

end Sys2Proof.Machine
end

