-- ==== Sys2Proof/Machine/LneOps.lean ====
section
/-! DEFINITION. What a lane does: its counters, its equaliser values, its two directions and the state it shows
(R528 to R531, R539 to R551). -/
namespace Sys2Proof.Machine

/-- A lane's state. -/
def State.lane (s : State) (b : BayNo) (k : Fin 24) : Lane := (s.bay b).lne.lanes[k]

/-- Change a lane. -/
def State.modLane (s : State) (b : BayNo) (k : Fin 24) (f : Lane → Lane) : State :=
  s.modBay b fun x => { x with lne := { x.lne with lanes := x.lne.lanes.set k (f x.lne.lanes[k]) } }

/-- Degree and feedback taps of the test patterns (R539). -/
def patternPoly : Nat → Nat × List Nat
  | 0 => (7, [7, 6])
  | 1 => (9, [9, 5])
  | 2 => (11, [11, 9])
  | 3 => (15, [15, 14])
  | 4 => (23, [23, 18])
  | 6 => (13, [13, 12, 2, 1])
  | _ => (31, [31, 28])

/-- The next bit of a pattern after the bits `hist`, newest first (R539): the sum of the bits its taps name. -/
def patternBit (code : Nat) (hist : List Bool) : Bool :=
  (patternPoly code).2.foldl (fun x n => x ^^ hist.getD (n - 1) false) false

/-- `n` bits of a pattern that follow the bits `hist`. -/
def patternRun (code : Nat) : Nat → List Bool → List Bool
  | 0, _ => []
  | n + 1, hist => patternBit code hist :: patternRun code n ((patternBit code hist :: hist).take 31)

/-- What a polarity field makes of the bits on the lane (R526, R527, R539): every NRZ bit is inverted; a PAM4 symbol of level l
becomes 3 - l, which with Gray coding inverts the first bit of its pair. -/
def polarised (pol pam4 : Bool) (l : List Bool) : List Bool :=
  l.mapIdx fun i x => if pol && (!pam4 || decide (i % 2 = 0)) then !x else x

/-- A checker seeds itself from the received bits and locks once 2 × L consecutive bits agree with its prediction (R540). -/
def checkerLocks (code : Nat) : List Bool → List Bool → Nat → Bool
  | [], _, _ => false
  | r :: rest, hist, n =>
    let deg := (patternPoly code).1
    let n1 := if decide (deg ≤ hist.length) && (patternBit code hist == r) then n + 1 else 0
    decide (2 * deg ≤ n1) || checkerLocks code rest ((r :: hist).take 31) n1

/-- A pattern code runs on the lane's modulation; reserved codes run on none (R539). -/
def patternFits (code : Nat) (pam4 : Bool) : Bool := if pam4 then decide (code = 6 ∨ code = 7) else decide (code < 6)

/-- The generator and checker pattern codes and the two enables of LNE_Lk_TEST. -/
def Lane.genCode (l : Lane) : Nat := Sys2Proof.bits l.test.toNat 3 0
/-- The checker's pattern. -/
def Lane.chkCode (l : Lane) : Nat := Sys2Proof.bits l.test.toNat 7 4
/-- TX_PRBS. -/
def Lane.txPrbs (l : Lane) : Bool := l.test.getLsbD 8
/-- RX_PRBS. -/
def Lane.rxPrbs (l : Lane) : Bool := l.test.getLsbD 9

/-- The generator runs (R539, R543). -/
def State.genRuns (s : State) (b : BayNo) (k : Fin 24) : Bool :=
  let l := s.lane b k
  l.txPrbs && (s.testQuad b k || l.txTaken) && l.tx.awake && patternFits l.genCode (s.lanePam4 b k)

/-- The checker runs (R539, R543, R547). -/
def State.chkRuns (s : State) (b : BayNo) (k : Fin 24) : Bool :=
  let l := s.lane b k
  l.rxPrbs && (s.testQuad b k || l.rxTaken) && l.rx.awake && patternFits l.chkCode (s.lanePam4 b k)

/-- A selected pattern does not match the modulation (R539, R551). -/
def State.testBad (s : State) (b : BayNo) (k : Fin 24) : Bool :=
  let l := s.lane b k
  let p := s.lanePam4 b k
  (l.txPrbs && !patternFits l.genCode p) || (l.rxPrbs && !patternFits l.chkCode p)

/-- The largest value of ERR and BITS (R542). -/
def laneMax : Nat := 2 ^ 48 - 1

/-- The lane's bit counter counts now (R541, R542, R547): the bits compared while the checker is locked, or the bits a port
receives. -/
def State.counts (s : State) (b : BayNo) (k : Fin 24) : Bool :=
  let l := s.lane b k
  let shown := match s.claimOf b k with
    | some c => decide (c.port = .display)
    | none => false
  l.rx.awake && l.cdr && decide (l.err < laneMax) && decide (l.bits < laneMax) &&
    (if s.chkRuns b k then l.chk else l.inPort && !shown)

/-- Bring BITS up to now: a lane at r kbit/s receives 1000 r bits each second (R541). -/
def State.accrue (s : State) (b : BayNo) (k : Fin 24) : State :=
  let l := s.lane b k
  let t := s.nowAt b
  if s.counts b k then
    let got := l.rem + s.laneRate b k * 1000 * (t - l.mark).toNat
    s.modLane b k fun l => { l with mark := t, rem := got % unitsPerSec, bits := min laneMax (l.bits + got / unitsPerSec) }
  else s.modLane b k fun l => { l with mark := t }

/-- The lane serves PCIe. -/
def State.pcieLane (s : State) (b : BayNo) (k : Fin 24) : Bool :=
  match s.claimOf b k with
  | some c => decide (c.use = 1 ∨ c.use = 2)
  | none => false

/-- The receiver adapts: the values it finds from the starting code are not stated, so they are free; mode 2 fixes the CTLE and turns
the DFE off (R530). -/
def State.adaptLane (s : State) (b : BayNo) (k : Fin 24) : State :=
  let (v, s1) := (s.takeFree 20)
  let w := if decide (s.fldN Fld.lneRxEqMode b k.val = 2) && !s.pcieLane b k then BitVec.ofNat 20 (s.fldN Fld.lneRxCtle b k.val + 16 * bits v.toNat 11 4) else v
  s1.modLane b k fun l => { l with adapt := w }

/-- A receiver locks: mode 1 counts its 1 ms from now (R530). -/
def State.lockLane (s : State) (b : BayNo) (k : Fin 24) : State :=
  (s.modLane b k fun l => { l with lockAt := s.nowAt b }).adaptLane b k

/-- A receiver that still adapts does so now: mode 1 holds its values 1 ms after lock (R530). -/
def State.readapt (s : State) (b : BayNo) (k : Fin 24) : State :=
  if decide (s.fldN Fld.lneRxEqMode b k.val = 1) && !s.pcieLane b k && decide (s.nowAt b - (s.lane b k).lockAt > BitVec.ofNat 96 (ofMs 1)) then s
  else s.adaptLane b k

/-- The bits a lane's checker sees of the bits at its pin (R527). -/
def State.seenBits (s : State) (b : BayNo) (k : Fin 24) (rx : List Bool) : List Bool :=
  polarised (s.fldB Fld.lneRxPol b k.val) (s.lanePam4 b k) rx

/-- The checker of a lane locks on the bits `rx` at its pin (R540). -/
def State.locksOn (s : State) (b : BayNo) (k : Fin 24) (rx : List Bool) : Bool :=
  checkerLocks (s.lane b k).chkCode (s.seenBits b k rx) [] 0

/-- The transmit taps left by a standard's training or a STEP bring-up (R529, R533): not stated, so free. -/
def State.freeTaps (s : State) (b : BayNo) (k : Fin 24) : State :=
  let (v, s1) := s.takeFree 32
  s1.modLane b k fun l => { l with eqWord := some v }

/-- LNE_Lk_TX_EQ (R528, R529, R550). -/
def State.txEq (s : State) (b : BayNo) (k : Fin 24) : Word :=
  match (s.lane b k).eqWord with
  | some w => w
  | none =>
    let c := fun f => s.fld f b k.val
    let main := 64 - (c Fld.lneTxPre2).natAbs - (c Fld.lneTxPre1).natAbs - (c Fld.lneTxPost1).natAbs
    BitVec.ofNat 7 (s.fldN Fld.lneTxAmp b k.val) ++ BitVec.ofNat 7 main ++ BitVec.ofInt 7 (c Fld.lneTxPost1) ++
      BitVec.ofInt 6 (c Fld.lneTxPre1) ++ BitVec.ofInt 5 (c Fld.lneTxPre2)

/-- A lane serves a running port from now on, or no longer does: both directions are awake as the port uses them, and the
receiver is locked (R525, R529, R551). -/
def State.serve (s : State) (b : BayNo) (k : Fin 24) (p : PortId) (up : Bool) : State :=
  let s1 := s.accrue b k
  if !up then s1.modLane b k fun l => { l with inPort := false }
  else
    let tx : Bool := match p with
      | .jesd _ => false
      | _ => true
    let rx := decide (p ≠ .display)
    let s2 := s1.modLane b k fun l =>
      { l with
        inPort := !l.txTaken && !l.rxTaken, tx := { LaneDir.reset with awake := tx }, rx := { LaneDir.reset with awake := rx }
        signal := rx, cdr := rx, mark := s1.nowAt b }
    let s3 := if rx then s2.lockLane b k else s2
    match p with
    | .control | .stream _ | .drive _ | .display => s3.freeTaps b k
    | _ => s3

/-- Every lane of a port serves it, or no longer does. -/
def State.servePort (s : State) (b : BayNo) (p : PortId) (up : Bool) : State :=
  match s.portClaim b p with
  | none => s
  | some c => c.lanes.foldl (fun s k => s.serve b k p up) s

/-- A quad is powered: its used lanes wake (R520, R524); a JESD204 lane only receives and a DisplayPort lane only sends. -/
def State.quadOn (s : State) (b : BayNo) (q : Fin 6) : State :=
  let s1 := s.modBay b fun x => { x with pwr := { x.pwr with quads := x.pwr.quads.set q true } }
  (List.range 4).foldl (fun s i => if h : 4 * q.val + i < 24 then
    let k : Fin 24 := ⟨4 * q.val + i, h⟩
    if s.laneUsed b k then
      let use := s.quadUse b q.val
      s.modLane b k fun l =>
        { l with tx := { LaneDir.reset with waking := decide (use ≠ 5) }, rx := { LaneDir.reset with waking := decide (use ≠ 6) } }
    else s
    else s) s1

/-- A quad loses power: its lanes hold nothing but their counters and equaliser values (R520, R544). -/
def State.quadOff (s : State) (b : BayNo) (q : Fin 6) : State :=
  let s1 := (List.range 4).foldl (fun s i => if h : 4 * q.val + i < 24 then
    let k : Fin 24 := ⟨4 * q.val + i, h⟩
    (s.accrue b k).modLane b k fun l =>
      { l with tx := .reset, rx := .reset, signal := false, cdr := false, chk := false, inPort := false, eyeValid := false }
    else s) s
  s1.modBay b fun x => { x with pwr := { x.pwr with quads := x.pwr.quads.set q false } }

/-! ### Registers -/

/-- LNE_Lk_STATUS (R551). -/
def State.laneStatus (s : State) (b : BayNo) (k : Fin 24) : Word :=
  let l := s.lane b k
  wd (bitW l.tx.awake + 2 * bitW l.rx.awake + 4 * bitW l.tx.waking + 8 * bitW l.rx.waking + 16 * bitW l.signal +
    32 * bitW l.cdr + 64 * bitW l.chk + 128 * bitW (s.lanePam4 b k) + 256 * s.quadUse b (k.val / 4) + 2048 * bitW l.inPort +
    4096 * bitW l.setAside + 8192 * bitW (s.testQuad b k || l.txTaken || l.rxTaken) + 16384 * bitW (s.testBad b k))

/-- The mask of the lanes that meet a test. -/
def State.laneMask (s : State) (b : BayNo) (p : Lane → Bool) : Word :=
  wd ((List.finRange 24).foldl (fun m k => m + (if p (s.lane b k) then 2 ^ k.val else 0)) 0)

/-- Registers of one lane (R550). -/
def State.laneReg (s : State) (b : BayNo) (k : Fin 24) (off : Nat) : Word :=
  let l := s.lane b k
  match off with
  | 0x04 => s.laneStatus b k
  | 0x08 => l.test.setWidth 32
  | 0x0C => wd (l.err % 2 ^ 32)
  | 0x10 => wd (l.errLatch / 2 ^ 32)
  | 0x14 => wd (l.bitsLatch % 2 ^ 32)
  | 0x18 => wd (l.bitsLatch / 2 ^ 32)
  | 0x1C => wd (l.eyeV.toNat + 256 * l.eyeH.toNat + 65536 * bitW l.eyeValid)
  | 0x20 => l.adapt.setWidth 32
  | 0x24 => s.txEq b k
  | 0x28 => l.chkLosses ++ l.cdrLosses
  | 0x2C => wd (s.laneRate b k)
  | _ => 0

/-- The LNE registers (R550). -/
def State.lneReg (s : State) (b : BayNo) (off : Nat) : Word :=
  if off = 0 then s.laneMask b (·.cdr)
  else if off = 4 then s.laneMask b (·.tx.awake)
  else if off = 8 then s.laneMask b (·.rx.awake)
  else if h : 0x10 ≤ off ∧ off < 0x28 ∧ off % 4 = 0 then
    let q : Fin 6 := ⟨(off - 0x10) / 4, by omega⟩
    let claimed := (List.range 4).foldl (fun m i => m + (if (s.claims b).any fun c => c.holds (4 * q.val + i) then 2 ^ i else 0)) 0
    wd (s.quadUse b q.val + 8 * bitW (s.bay b).pwr.quads[q] + 16 * claimed)
  else if h : 0x100 ≤ off ∧ off < 0x700 then s.laneReg b ⟨(off - 0x100) / 0x40, by omega⟩ ((off - 0x100) % 0x40)
  else 0

end Sys2Proof.Machine
end

