-- ==== Sys2Proof/Machine/MonOps.lean ====
section
/-! DEFINITION. What a monitor unit does with a sample (R737 to R741, R743): the operations that the commands of several
families share. -/
namespace Sys2Proof.Machine

/-- Change one monitor unit. -/
def State.modMon (s : State) (b : BayNo) (m : Fin 16) (f : MonUnit → MonUnit) : State :=
  s.modBay b fun y => { y with mon := y.mon.set m (f y.mon[m]) }

/-- A monitor unit. -/
def State.mon (s : State) (b : BayNo) (m : Fin 16) : MonUnit := (s.bay b).mon[m]

/-- The settings of a unit in force. -/
def State.monConf (s : State) (b : BayNo) (m : Fin 16) : MonConf :=
  { quantity := s.fldN Fld.monQuantity b m.val, object := s.fldN Fld.monObject b m.val, pair := s.fldN Fld.monPair b m.val
    log2 := s.fldB Fld.monBinMode b m.val, lo := s.fld Fld.monLo b m.val, width := max 1 (s.fldN Fld.monWidth b m.val)
    emit := s.fldN Fld.monEmit b m.val, cumulative := s.fldB Fld.monCumulative b m.val, queue := s.fldN Fld.monQueue b m.val }

/-- A signed 32-bit value that saturates (R737). -/
def sat32 (v : Int) : Int := max (-2147483648) (min 2147483647 v)

/-- The object of a LANE_ERRORS unit. -/
def MonConf.lane (c : MonConf) : Fin 24 := ⟨c.object % 24, Nat.mod_lt _ (by decide)⟩

/-- The ERR count of the lane that a unit watches. -/
def State.monErr (s : State) (b : BayNo) (c : MonConf) : Nat := (s.lane b c.lane).err

/-- A unit starts or restarts at zero with the interval that begins at `t` (R740, R743). -/
def State.monStart (s : State) (b : BayNo) (m : Fin 16) (t : Stamp) : State :=
  let c := s.monConf b m
  s.modMon b m fun u =>
    { MonUnit.reset with on := s.fldB Fld.monEn b m.val, conf := c, start := t, base := s.monErr b c, sampledAt := t, told := u.told
                         limitHigh := u.limitHigh, limitLow := u.limitLow, last := u.last }

/-- The ADC's output is in a gap of its input: clocks gated or restarting, a calibration run, a package that does not sample, or no
power (R743). -/
def State.adcGap (s : State) (b : BayNo) (i : Fin 2) : Bool :=
  (s.bay b).clk.gated || (s.bay b).clk.restarting || (s.bay b).cal[i].run.isSome || !(s.bay b).pwr.frontEnd[i] ||
    !(s.fldN Fld.clkAdcEn b).testBit i.val || decide (s.img.state ≠ .run ∧ s.img.state ≠ .ready)

/-- The unit's source does not exist now (R743). -/
def State.monPaused (s : State) (b : BayNo) (m : Fin 16) : Bool :=
  let c := (s.mon b m).conf
  let gone := match c.quantity with
    | 2 => !s.lanePowered b c.lane
    | 3 => s.adcGap b ⟨c.object % 2, Nat.mod_lt _ (by decide)⟩
    | 4 => !(s.bay b).pwr.hkc
    | 6 => decide (((s.bay b).recorder.drives[c.object % 8]'(Nat.mod_lt _ (by decide))).state = .absent)
    | _ => false
  gone || (decide (s.pwr.state ≠ .run) && decide (c.quantity ≠ 4))

/-- The latest result of an HKC channel (R685, R737). -/
def State.hkcResult (s : State) (b : BayNo) (obj : Nat) : Int :=
  let k := (s.bay b).hkc.conv[obj / 32 % 2]'(Nat.mod_lt _ (by decide))
  if h : obj % 32 < 25 then k.results[obj % 32].value.toNat else 0

/-- One sample (R737): a latency and an ADC peak are what was measured, `v`; the other quantities are read here. -/
def State.monValue (s : State) (b : BayNo) (m : Fin 16) (v : Int) : Int :=
  let c := (s.mon b m).conf
  sat32 (match c.quantity with
    | 1 => ((s.bay b).que.queues[c.object % 16]'(Nat.mod_lt _ (by decide))).level
    | 2 => if (s.mon b m).base ≤ s.monErr b c then s.monErr b c - (s.mon b m).base else s.monErr b c
    | 4 => s.hkcResult b c.object
    | 5 => ((s.bay b).trg.units[c.object % 8]'(Nat.mod_lt _ (by decide))).deadLast.toNat
    | 6 => ((s.bay b).recorder.drives[c.object % 8]'(Nat.mod_lt _ (by decide))).temp.toNat
    | _ => v)

/-- The bin of a sample, and whether it counts BELOW and ABOVE (R739). -/
def MonConf.bin (c : MonConf) (v : Int) : Nat × Bool × Bool :=
  let d := v - c.lo
  if c.log2 then
    let b := if d < 1 then 0
      else
        let e := d.toNat.log2
        if e ≥ 31 then 63 else 1 + 2 * e + (if e ≥ 1 ∧ d.toNat.testBit (e - 1) then 1 else 0)
    (b, decide (b = 0), decide (b = 63))
  else
    let b := Int.fdiv d c.width
    ((max 0 (min 63 b)).toNat, decide (b < 0), decide (b > 63))

/-- A counter that saturates. -/
def bump32 (w : Word) : Word := if w = 0xFFFFFFFF then w else w + 1

/-- A sample enters the accumulators (R739). -/
def MonUnit.take (u : MonUnit) (v : Int) (injected : Bool) : MonUnit :=
  let (k, lo, hi) := u.conf.bin v
  { u with
    samples := bump32 u.samples, low := min u.low v, high := max u.high v
    sum := max (-(2 ^ 63)) (min (2 ^ 63 - 1) (u.sum + v))
    below := if lo then bump32 u.below else u.below, above := if hi then bump32 u.above else u.above
    bins := Sparse.set 0 u.bins k (bump32 (Sparse.get 0 u.bins k)), last := v, injected := u.injected || injected }

/-- A unit takes the sample `v` at the moment `t` and checks it against its limits (R739 to R741). -/
def State.monTake (s : State) (b : BayNo) (m : Fin 16) (v : Int) (injected : Bool) (t : Stamp) : State :=
  let x := s.monValue b m v
  let en := s.fldN Fld.monLimitEn b m.val
  let high := en.testBit 0 && decide (x > s.fld Fld.monHigh b m.val)
  let low := en.testBit 1 && decide (x < s.fld Fld.monLow b m.val)
  let u := s.mon b m
  let s1 := s.modMon b m fun u =>
    { (u.take x injected) with
      base := s.monErr b u.conf, sampledAt := t, limitHigh := u.limitHigh || high, limitLow := u.limitLow || low
      told := u.told || high || low }
  if (high || low) && !u.told then s1.event b 0x1801 ([wd m.val, Word.ofSigned x] ++ stampWords t) else s1

/-- The unit takes samples now: it is enabled and its source exists (R737, R743). -/
def State.monReady (s : State) (b : BayNo) (m : Fin 16) : Bool := s.alive b && (s.mon b m).on && !s.monPaused b m

/-- Something that units of a quantity and an object sample has just happened in a bay at `t`: each dead time, each new
result (R737). -/
def State.monFeed (s : State) (b : BayNo) (quantity object : Nat) (t : Stamp) : State :=
  (List.finRange 16).foldl (fun s m =>
    let c := (s.mon b m).conf
    if s.monReady b m && decide (c.quantity = quantity) && decide (c.object = object) then s.monTake b m 0 false t else s) s

/-- How often a quantity is sampled by the tide counter, in units of a stamp; 0 for one that events bring (R737). -/
def MonConf.period (c : MonConf) : Nat :=
  match c.quantity with
  | 1 => ofUs 1
  | 2 => ofMs 1
  | 3 => ofUs 1
  | 6 => ofMs 1000
  | _ => 0

/-- The sampling moment of a unit: the latest whole period of the tide counter, or the first one after its last sample. -/
def State.monMoment (s : State) (b : BayNo) (m : Fin 16) : Stamp :=
  let u := s.mon b m
  let p := max 1 u.conf.period
  let next := (u.sampledAt.toNat / p + 1) * p
  BitVec.ofNat 96 (max next ((s.nowAt b).toNat / p * p))

end Sys2Proof.Machine
end

