-- ==== Sys2Proof/Machine/AuxDac.lean ====
section
/-! DEFINITION. The auxiliary DACs (R698 to R714). -/
namespace Sys2Proof.Machine

/-- Change the auxiliary DACs of a bay. -/
def State.modAux (s : State) (b : BayNo) (f : AuxBay → AuxBay) : State := s.modBay b fun y => { y with aux := f y.aux }

/-- A tamper latch of the seal keeper is set. -/
def State.tampered (s : State) : Bool := s.keeper.island.tampLatch[0] || s.keeper.island.tampLatch[1]

/-- The clear conditions of R700 that hold for channel `n`, but for the loss of the bay: the pin, no image, tamper, SPLL
outputs gated, in the rule's order. -/
def State.auxConds (s : State) (b : BayNo) (n : Fin 4) : List Bool :=
  let on := s.fldN Fld.auxChClearOn b n.val
  [s.clrPin, !(s.bay b).aux.loaded, on.testBit 0 && s.tampered, on.testBit 1 && (s.bay b).clk.gated]

/-- The channel drives its clear code in a bay that is not lost. -/
def State.auxCleared (s : State) (b : BayNo) (n : Fin 4) : Bool := (s.bay b).aux.dacs[n].on && (s.auxConds b n).contains true

/-- The code in force at an output; an off channel and an unpowered one drive none, shown as 0 (R699 to R703, R707). -/
def State.auxOut (s : State) (b : BayNo) (n : Fin 4) : BitVec 16 :=
  let a := (s.bay b).aux
  if s.pwr.state = .off ∨ !a.dacs[n].on then 0
  else match a.held with
    | some v => v[n]
    | none => if s.auxCleared b n then a.dacs[n].clear else a.dacs[n].code

/-- The first clear condition that holds on an enabled channel of the bay, by its place in R700. -/
def State.auxFirst (s : State) (b : BayNo) : Option Nat :=
  (List.range 4).find? fun k => (List.finRange 4).any fun n => (s.bay b).aux.dacs[n].on && (s.auxConds b n).getD k false

/-- A compliance fault ends once the code in force has fallen below 262 (R706). -/
def State.auxComply (s : State) (b : BayNo) : State :=
  let ok0 := decide ((s.auxOut b 2).toNat < 262)
  let ok1 := decide ((s.auxOut b 3).toNat < 262)
  s.modAux b fun a => { a with compliance := #v[a.compliance[0] && !ok0, a.compliance[1] && !ok1] }

/-- The clear conditions of a bay may have changed: the first one that begins and the last one that ends are reported; a lost
bay and an unpowered one report nothing (R704). -/
def State.auxRefresh (s : State) (b : BayNo) : State :=
  if !s.alive b ∨ s.pwr.state = .off then s
  else
    let s1 := s.auxComply b
    match s1.auxFirst b, (s1.bay b).aux.told with
    | some k, false => (s1.modAux b fun a => { a with told := true }).event b 0x1601 [wd b.val, Config.unstated 5 k]
    | none, true => (s1.modAux b fun a => { a with told := false }).event b 0x1602 []
    | _, _ => s1

/-- Every bay's clear conditions may have changed. -/
def State.auxRefreshAll (s : State) : State := s.eachBay s.liveBays State.auxRefresh

/-- The end of start-up phase 7: each DAC takes its clear code and enable, and its working code (R701, R703, R710). -/
def State.auxLoad (s : State) (b : BayNo) : State :=
  let s1 := s.modAux b fun a =>
    { a with loaded := true
             dacs := Vector.ofFn fun n =>
               { code := BitVec.ofNat 16 (s.fldN Fld.auxChCode b n.val), clear := BitVec.ofNat 16 (s.fldN Fld.auxChClear b n.val)
                 on := s.fldB Fld.auxChEn b n.val } }
  s1.auxRefresh b

/-- At IMAGE_RESTART each channel drives the old image's clear code until the new image is loaded (R701). -/
def State.auxUnload (s : State) (b : BayNo) : State := (s.modAux b fun a => { a with loaded := false }).auxRefresh b

/-- When both slots fail every channel drives 0 (R701). -/
def State.auxZero (s : State) (b : BayNo) : State :=
  (s.modAux b fun a => { a with loaded := false, dacs := a.dacs.map fun d => { d with clear := 0 } }).auxComply b

/-- A bay is lost: a channel with bit 2 of CLEAR_ON clears, any other holds its code (R700, R703). -/
def State.auxLost (s : State) (b : BayNo) : State :=
  let out := Vector.ofFn fun n : Fin 4 =>
    if (s.fldN Fld.auxChClearOn b n.val).testBit 2 then (s.bay b).aux.dacs[n].clear else s.auxOut b n
  s.modAux b fun a => { a with held := some out }

/-- Set a working code (R704, R705). -/
def State.setAuxCode (s : State) (b : BayNo) (n : Fin 4) (v : BitVec 16) : State :=
  (s.modAux b fun a => { a with dacs := a.dacs.set n { a.dacs[n] with code := v } }).auxComply b

/-- Registers that the image initialises are at reset and discard writes, from acceptance to the end of phase 7 (R763). -/
def State.initHeld (s : State) : Bool := s.img.boot.active && decide (s.img.boot.phase < 7)

/-- AUX_CLR_ASSERT (R702). -/
def execAuxClrAssert (s : State) : Out :=
  if s.pwr.state = .off || !s.pinned 0 then .next s else .next ({ s with clrPin := true } : State).auxRefreshAll

/-- AUX_CLR_RELEASE (R702). -/
def execAuxClrRelease (s : State) : Out :=
  if s.pwr.state = .off || !s.pinned 0 then .next s else .next ({ s with clrPin := false } : State).auxRefreshAll

/-- AUX_CODE_WRITE (R704, R705, R763): a word written to AUX_CODEn by the host, or by DMA in space 3. -/
def execAuxCodeWrite (b : BayNo) (n : Fin 4) (v : Word) (dma : Bool) (s : State) : Out :=
  if !s.alive b then .next s
  else if s.initHeld then .next (s.discarded (bayAddr b (0x01600010 + 4 * n.val)) (if dma then 2 else 0))
  else .next (s.setAuxCode b n (v.extractLsb' 0 16))

/-- The code in force is high enough for a compliance fault (R706). -/
def State.auxDrives (s : State) (b : BayNo) (i : Fin 2) : Bool :=
  s.alive b && decide (262 ≤ (s.auxOut b ⟨2 + i.val, by omega⟩).toNat)

/-- AUX_COMPLIANCE_FAULT (R706): the pin of current output `i` has been below 0.3 V for 10 µs. -/
def execAuxComplianceFault (b : BayNo) (i : Fin 2) (s : State) : Out :=
  let a := (s.bay b).aux
  if !s.auxDrives b i || a.compliance[i] then .next s
  else
    let s1 := s.modAux b fun a =>
      { a with compliance := a.compliance.set i true, complianceTold := a.complianceTold.set i true
               complianceCount := a.complianceCount.set i (a.complianceCount[i] + 1) }
    .next (if a.complianceTold[i] then s1 else s1.event b 0x1603 [wd (2 + i.val)])

/-- AUX_COMPLIANCE_CLEAR (R706): the pin has been at or above 0.3 V for 10 µs. -/
def execAuxComplianceClear (b : BayNo) (i : Fin 2) (s : State) : Out :=
  if !s.alive b then .next s else .next (s.modAux b fun a => { a with compliance := a.compliance.set i false })

/-- AUX_STATUS (R712). -/
def State.auxStatus (s : State) (b : BayNo) : Word :=
  let a := (s.bay b).aux
  let c := (List.finRange 4).foldl (fun n (k : Fin 4) => n + if s.auxCleared b k then 2 ^ k.val else 0) 0
  wd (c + 16 * bitW s.clrPin + 32 * bitW s.tampered + 64 * bitW a.compliance[0] + 128 * bitW a.compliance[1])

/-- The AUX registers (R711). -/
def State.auxReg (s : State) (b : BayNo) (off : Nat) : Word :=
  let n : Fin 4 := ⟨off / 4 % 4, by omega⟩
  match off / 16 with
  | 0 => match off with
    | 0 => s.auxStatus b
    | 4 => (s.bay b).aux.complianceCount[1] ++ (s.bay b).aux.complianceCount[0]
    | _ => 0
  | 1 => if s.initHeld then 0 else (s.bay b).aux.dacs[n].code.setWidth 32
  | 2 => (s.auxOut b n).setWidth 32
  | _ => 0

end Sys2Proof.Machine
end

