-- ==== Sys2Proof/Machine/Image.lean ====
section
/-! DEFINITION. Reading a setup image from the flash: its layout, checks 1 to 7 but for the cross-field rules of
check 6, and the effective values it gives (R36 to R56). -/
namespace Sys2Proof.Machine

/-! ### Fields by key -/

/-- The instance of a field that an id names. -/
def instanceOf (f : Field) (id : Nat) : Option Nat :=
  if f.stride = 0 then (if id = f.id then some 0 else none)
  else if f.id ≤ id ∧ (id - f.id) % f.stride = 0 ∧ (id - f.id) / f.stride < f.count then some ((id - f.id) / f.stride)
  else none

/-- The field and instance of a block and id, if the spec has one. -/
def findField (block id : Nat) : Option (Field × Nat) :=
  (Fld.all.filter fun f => f.block == block).findSome? fun f => (instanceOf f id).map fun i => (f, i)

/-- The key of a 32-bit key word (R41). -/
def keyOfWord (w : Nat) : Key := { block := bits w 31 24, mask := bits w 23 16, id := bits w 15 0 }

/-- The word of a key (R41). -/
def keyWord (k : Key) : Word := wd (k.block * 2 ^ 24 + k.mask * 2 ^ 16 + k.id)

/-- The integer a value word holds for a field: two's complement when the field is signed (R41). -/
def valueOf (f : Field) (raw : Nat) : Int := if f.signed then (BitVec.ofNat 32 raw).toInt else raw

/-- A priority list names each candidate at most once and ends at its first 0 (R104, R106). -/
def prioOk (v : Nat) : Bool :=
  let ns := [v % 16, v / 16 % 16, v / 256 % 16, v / 4096 % 16]
  let live := ns.takeWhile (· ≠ 0)
  decide (∀ n ∈ ns, n ≤ 4) && decide (∀ n ∈ ns.drop live.length, n = 0) && decide live.Nodup

/-- The Range column of a field, with what it asks beyond its bounds, on a part of `nb` bays (R7, R41). -/
def inRange (nb : Nat) (f : Field) (v : Int) : Bool :=
  decide (f.lo ≤ v) && decide (v ≤ f.hi) && decide (v % f.step = 0) &&
  (match f.kind with
   | .queue => decide (v < 16 * nb)
   | .queueOrNone => decide (v = 255 ∨ v < 16 * nb) && decide (v = 255 ∨ v ≤ 127)
   | .bay => decide (v < nb)
   | .channel => decide (v < 2 * nb)
   | .unit => decide (v < 8 * nb)
   | .portOrNone => decide (v = 255 ∨ v ≤ 63)
   | .refPrio => prioOk v.toNat
   | .traceInterval => decide (v = 0 ∨ v ≥ 100)
   | .calInterval => decide (v = 0 ∨ v ≥ 60)
   | .lanes124 => decide (v = 1 ∨ v = 2 ∨ v = 4)
   | .lanes1248 => decide (v = 1 ∨ v = 2 ∨ v = 4 ∨ v = 8)
   | .np => decide (v = 12 ∨ v = 16)
   | .drives => decide (v = 0 ∨ v ≥ 3)
   | .plain | .array | .endpoint => true)

/-- The value word keeps the form of R41: bits above the width are zero, or copies of the sign. -/
def formOk (f : Field) (raw : Nat) : Bool :=
  if f.signed then
    let v := (BitVec.ofNat 32 raw).toInt
    decide (-(2 ^ (f.width - 1) : Int) ≤ v) && decide (v < 2 ^ (f.width - 1))
  else decide (raw < 2 ^ f.width)

/-! ### Layout -/

/-- A little-endian word of an image at a byte offset. -/
def leAt (bs : List Byte) (off : Nat) : Nat := leNat ((bs.drop off).take 4)

/-- The first offset of a slot, true for B (R34). -/
def slotBase (f : Flash) (slot : Bool) : Nat := if slot then f.density / 2 else 0

/-- The first offset of the seal log region (R34). -/
def logBase (f : Flash) : Nat := f.density - 0x100000

/-- The largest image a slot holds (R34, R35). -/
def slotSize (f : Flash) (slot : Bool) : Nat :=
  min 0x8000000 (if slot then f.density / 2 - 0x100000 else f.density / 2)

/-- Bytes of the flash; an erased byte reads 0xFF (log entry 7). -/
def Flash.read (f : Flash) (off n : Nat) : List Byte := Sparse.getRun 0xFF#8 f.bytes off n

/-- An entry of the section table (R37). -/
structure Section where
  typ : Nat
  rsvd : Nat
  off : Nat
  len : Nat
  crc : Nat
  deriving DecidableEq, Repr

/-- Check 1: the header (R36). `size` is the slot's. -/
def headerOk (bs : List Byte) (size : Nat) : Bool :=
  let sections := leNat ((bs.drop 6).take 2)
  let len := leAt bs 8
  let tbl := leAt bs 12
  decide (leAt bs 0 = 0x49514C42) && decide (bs.getD 5 0 = 1#8) && decide (2 ≤ sections ∧ sections ≤ 8) &&
  decide (len % 64 = 0 ∧ 256 ≤ len ∧ len ≤ 0x8000000 ∧ len ≤ size) && decide (tbl % 64 = 0 ∧ 0x40 ≤ tbl) &&
  ((bs.drop 0x14).take 12).all (· == 0#8)

/-- The section table (R37). -/
def sectionsOf (bs : List Byte) : List Section :=
  (List.range (leNat ((bs.drop 6).take 2))).map fun i =>
    let o := leAt bs 12 + 16 * i
    { typ := (bs.getD o 0).toNat, rsvd := leNat ((bs.drop (o + 1)).take 3), off := leAt bs (o + 4), len := leAt bs (o + 8)
      crc := leAt bs (o + 12) }

/-- The section of a type. -/
def sectionOf (ss : List Section) (t : Nat) : Option Section := ss.find? fun x => x.typ == t

/-- The payload of a section, empty when it is absent. -/
def payloadOf (bs : List Byte) (ss : List Section) (t : Nat) : List Byte :=
  match sectionOf ss t with
  | none => []
  | some x => (bs.drop x.off).take x.len

/-- Two runs of bytes share none. -/
def apart (a la b lb : Nat) : Bool := decide (a + la ≤ b ∨ b + lb ≤ a)

/-- Every pair of a list is apart. -/
def allApart : List (Nat × Nat) → Bool
  | [] => true
  | x :: r => r.all (fun y => apart x.1 x.2 y.1 y.2) && allApart r

/-- Byte `i` lies in one of the runs. -/
def covered (runs : List (Nat × Nat)) (i : Nat) : Bool := runs.any fun r => decide (r.1 ≤ i ∧ i < r.1 + r.2)

/-- The bytes that no run covers are zero. R38 says so of bytes between sections; the model asks it also of bytes before the first
section and after the last, up to LENGTH (DESIGN CHOICE, log entry 63). -/
def restZero (runs : List (Nat × Nat)) : Nat → List Byte → Bool
  | _, [] => true
  | i, b :: r => (covered runs i || b == 0#8) && restZero runs (i + 1) r

/-- Check 2: the section table and the placement of the signature (R37 to R40, R51). -/
def sectionsOk (bs : List Byte) : Bool :=
  let len := leAt bs 8
  let tbl := leAt bs 12
  let ss := sectionsOf bs
  let runs := (0, 64) :: (tbl, 16 * ss.length) :: ss.map fun x => (x.off, x.len)
  decide (tbl + 16 * ss.length ≤ len) &&
  ss.all (fun x => decide (x.rsvd = 0 ∧ x.off % 64 = 0 ∧ x.len % 8 = 0 ∧ x.len ≠ 0 ∧ x.off + x.len ≤ len ∧
    1 ≤ x.typ ∧ x.typ ≤ 8)) &&
  decide (ss.map (·.typ)).Nodup && (sectionOf ss 1).isSome && (sectionOf ss 2).isSome && allApart runs &&
  restZero runs 0 (bs.take len) &&
  (match sectionOf ss 8 with
   | none => true
   | some x => decide (x.len = 128 ∧ x.off + 128 = len) && ss.all (fun y => decide (y.off ≤ x.off)) &&
      ((bs.drop (x.off + 1)).take 7).all (· == 0#8) && ((bs.drop (x.off + 0x48)).take 0x38).all (· == 0#8))

/-- Check 3: the CRC of every section (R37). -/
def crcsOk (bs : List Byte) : Bool :=
  (sectionsOf bs).all fun x => decide ((crc32c ((bs.drop x.off).take x.len)).toNat = x.crc)

/-- The SHA-256 that IMAGE_HASH must equal (R39). -/
def imageHash (bs : List Byte) : List Byte :=
  let stop := match sectionOf (sectionsOf bs) 8 with
    | some x => x.off
    | none => leAt bs 8
  sha256 (bs.take 0x20 ++ (bs.take stop).drop 0x40)

/-- IMAGE_HASH of the header. -/
def headerHash (bs : List Byte) : List Byte := (bs.drop 0x20).take 32

/-- Check 5: the signature (R51, R631, R632). -/
def signatureOk (f : SealFuses) (bs : List Byte) : Bool :=
  match sectionOf (sectionsOf bs) 8 with
  | none => !f.metrology
  | some x =>
    let p := bs.drop x.off
    match f.sign[(p.getD 0 0).toNat]? with
    | some { key := some k, revoked := false } =>
      ecdsaVerify k.1 k.2 (leNat ((p.drop 8).take 32)) (leNat ((p.drop 0x28).take 32)) (headerHash bs)
    | _ => false

/-! ### Entries -/

/-- Words of a payload. -/
def payloadWords (bs : List Byte) : List Nat := (bytesWords (bs.length / 4) bs).map (·.toNat)

/-- Elements of an array run packed into words (R44). -/
def elements (w n : Nat) (ws : List Nat) : List Nat :=
  (List.range n).map fun i => (ws.getD (i * w / 32) 0 >>> (i * w % 32)) % 2 ^ w

/-- Setting entries in flash order; none when a key is unknown, a run is broken or the payload ends inside an
entry (R41 to R44). Bits of a run's last value word beyond its last element are not looked at (DESIGN CHOICE, log entry 63). -/
def parseEntries : Nat → List Nat → Option (List SetEntry)
  | 0, ws => if ws = [] then some [] else none
  | n + 1, ws =>
    match ws with
    | [] => some []
    | [_] => none
    | kw :: v :: r =>
      if kw = 0 ∧ v = 0 then parseEntries n r
      else
        let k := keyOfWord kw
        match findField k.block k.id with
        | none => none
        | some (f, _) =>
          if k.id < 0x8000 then (parseEntries n r).map ({ key := k, array := false, first := 0, vals := [v] } :: ·)
          else
            match r with
            | [] => none
            | first :: r2 =>
              let ew := ceilDiv (v * f.width) 32
              let used := ew + (3 + ew) % 2
              if v = 0 ∨ v > 0x100000 ∨ first + v > f.len ∨ r2.length < used ∨ ((r2.drop ew).take (used - ew)).any (· ≠ 0)
              then none
              else (parseEntries n (r2.drop used)).map
                ({ key := k, array := true, first := first, vals := elements f.width v r2 } :: ·)

/-- The entries of a section's payload or of a profile body, which holds whole entries alone (R41, R47). -/
def entriesOf (bs : List Byte) : Option (List SetEntry) :=
  if bs.length % 4 ≠ 0 then none else parseEntries (bs.length / 8 + 1) (payloadWords bs)

/-- Bay-mask bits of bays the part has (R43). -/
def maskHere (nb : Nat) (f : Field) (mask : Nat) : Nat := if f.pkg then mask % 2 else mask % 2 ^ nb

/-- The side of a field in bay `b`, with SEAL_CORES of each bay: the MCO.Cc_ fields of a core designated sealed are
sealed-side (R424, R429). -/
def sideIn (des : Nat → Nat) (f : Field) (k : Key) (b : Nat) : Side :=
  if f.block = 0x0A ∧ 0x100 ≤ k.id ∧ k.id < 0x120 ∧ (des b).testBit ((k.id - 0x100) / 16) then .sealed else f.side

/-- The bays of the part that an entry selects. -/
def entryBays (nb : Nat) (f : Field) (mask : Nat) : List Nat :=
  if f.pkg then (if mask % 2 = 1 then [0] else []) else (List.range nb).filter fun b => mask.testBit b

/-- Every bay of a key gives its field a side that passes; a key that selects none has the side of its table. -/
def sidesOk (nb : Nat) (des : Nat → Nat) (side : Side → Bool) (f : Field) (k : Key) : Bool :=
  let bs := entryBays nb f k.mask
  if bs.isEmpty then side f.side else bs.all fun b => side (sideIn des f k b)

/-- The elements of an array run that are reserved hold zero: those of HKC.CORR from 8 on (R7, R693). -/
def reservedOk (f : Field) (e : SetEntry) : Bool :=
  !(decide (f.block = Fld.hkcCorr.block ∧ f.id = Fld.hkcCorr.id)) || (e.vals.drop (8 - e.first)).all (· == 0)

/-- An entry keeps its form and range, its section's side, and the mask rules (R40, R43, R46, R424). -/
def entryOk (nb : Nat) (des : Nat → Nat) (side : Side → Bool) (e : SetEntry) : Bool :=
  match findField e.key.block e.key.id with
  | none => false
  | some (f, _) =>
    decide (e.key.mask ≠ 0) && (!f.pkg || decide (e.key.mask % 2 = 1)) && sidesOk nb des side f e.key &&
    (if e.array then reservedOk f e else e.vals.all fun v => formOk f v && inRange nb f (valueOf f v))

/-- The entry selects no bay of the part and is skipped (R43). -/
def skipped (nb : Nat) (k : Key) : Bool :=
  match findField k.block k.id with
  | none => false
  | some (f, _) => decide (maskHere nb f k.mask = 0)

/-- A live declaration of 16 bytes (R48). -/
def parseDecl (ws : List Nat) : LiveDecl :=
  let signed := (ws.getD 3 0).testBit 1
  let rd := fun v : Nat => if signed then (BitVec.ofNat 32 v).toInt else (v : Int)
  { key := keyOfWord (ws.getD 0 0), min := rd (ws.getD 1 0), max := rd (ws.getD 2 0), log := (ws.getD 3 0).testBit 0
    signed := signed }

/-- Groups of four words; for the LIVE section the remainder must be eight zero bytes (R48). -/
def parseDecls : Nat → List Nat → Option (List (List Nat))
  | 0, _ => none
  | n + 1, ws =>
    match ws with
    | [] => some []
    | [a, b] => if a = 0 ∧ b = 0 then some [] else none
    | a :: b :: c :: d :: r => (parseDecls n r).map ([a, b, c, d] :: ·)
    | _ => none

/-- A declaration is well formed for its side (R48, R49, R654). -/
def declOk (nb : Nat) (des : Nat → Nat) (side : Side) (ws : List Nat) : Bool :=
  let d := parseDecl ws
  match findField d.key.block d.key.id with
  | none => false
  | some (f, _) =>
    decide (d.key.mask ≠ 0) && (!f.pkg || decide (d.key.mask % 2 = 1)) &&
    sidesOk nb des (fun x => decide (x = side)) f d.key &&
    decide (d.key.id < 0x8000) && decide (f.apply ≠ .imageRestart) && decide (d.min ≤ d.max) &&
    decide (ws.getD 3 0 < 4) && (!f.signed || d.signed) && formOk f (ws.getD 1 0) && formOk f (ws.getD 2 0) &&
    decide (f.lo ≤ d.min ∧ d.max ≤ f.hi) && inRange nb f d.min && inRange nb f d.max

/-- Two declarations cover one field in one bay (R48). -/
def declsClash (nb : Nat) (a b : LiveDecl) : Bool :=
  match findField a.key.block a.key.id with
  | none => false
  | some (f, _) =>
    decide (a.key.block = b.key.block ∧ a.key.id = b.key.id) &&
    decide (maskHere nb f a.key.mask &&& maskHere nb f b.key.mask ≠ 0)

/-- No two declarations clash. -/
def declsApart (nb : Nat) : List LiveDecl → Bool
  | [] => true
  | d :: r => r.all (fun e => !declsClash nb d e) && declsApart nb r

/-- An item directory: none when a rule of R50 is broken. -/
def parseItems (nb : Nat) (codes : List Nat) (bs : List Byte) : Option (List Item) :=
  if bs = [] then some [] else
  let n := leAt bs 0
  if bs.length < 8 + 16 * n ∨ leAt bs 4 ≠ 0 then none
  else
    let one := fun i =>
      let o := 8 + 16 * i
      let code := leNat ((bs.drop o).take 2)
      let bays := (bs.getD (o + 2) 0).toNat
      let off := leAt bs (o + 4)
      let len := leAt bs (o + 8)
      if bays = 0 ∨ !codes.contains code ∨ leAt bs (o + 12) ≠ 0 ∨ off % 8 ≠ 0 ∨ off < 8 + 16 * n ∨ off + len > bs.length
      then none
      else some { code := code, bays := bays % 2 ^ nb, index := (bs.getD (o + 3) 0).toNat, body := (bs.drop off).take len }
    (List.range n).mapM one

/-- The profile directory and bodies (R47, R50). -/
def parseProfiles (bs : List Byte) : Option (List (Option Profile)) :=
  if bs = [] then some (some { entries := [], body := [] } :: List.replicate 15 none)
  else if bs.length < 128 then none
  else
    (List.range 16).mapM fun i =>
      let off := leAt bs (8 * i)
      let len := leAt bs (8 * i + 4)
      if len = 0 then some none
      else if off % 8 ≠ 0 ∨ off < 128 ∨ off + len > bs.length then none
      else
        let body := (bs.drop off).take len
        (entriesOf body).map fun es => some { entries := es, body := body }

/-- The element index under which an array's effective length is kept. -/
def lenIdx : Nat := 131071

/-- Write the elements of a run, and lengthen the array (R44). -/
def putRun (m : Vals) (f : Field) (b i : Nat) : Nat → List Nat → Vals
  | _, [] => m
  | k, v :: r => putRun (Sparse.set none m (fieldKey f b i k) (some (v : Int))) f b i (k + 1) r

/-- Apply one entry (R43 to R45). -/
def applyEntry (nb : Nat) (m : Vals) (e : SetEntry) : Vals :=
  match findField e.key.block e.key.id with
  | none => m
  | some (f, i) =>
    (entryBays nb f e.key.mask).foldl (fun m b =>
      if e.array then
        let old := (Sparse.get none m (fieldKey f b i lenIdx)).getD 0
        Sparse.set none (putRun m f b i e.first e.vals) (fieldKey f b i lenIdx)
          (some (max old ((e.first + e.vals.length : Nat) : Int)))
      else Sparse.set none m (fieldKey f b i 0) (some (valueOf f (e.vals.getD 0 0)))) m

/-- Apply entries in flash order (R45). -/
def applyEntries (nb : Nat) (m : Vals) (es : List SetEntry) : Vals := es.foldl (applyEntry nb) m

/-- The effective length of an array field in bay `b` (R44). -/
def Vals.arrayLen (m : Vals) (f : Field) (b : Nat) (i : Nat := 0) : Nat :=
  ((Sparse.get none m (fieldKey f b i lenIdx)).getD 0).toNat

/-- The elements of an array field, zero where no run wrote (R44). -/
def Vals.array (m : Vals) (f : Field) (b : Nat) (i : Nat := 0) : List Nat :=
  (List.range (m.arrayLen f b i)).map fun k => ((Sparse.get none m (fieldKey f b i k)).getD 0).toNat

/-- The values of an image without a profile, and with one (R45, R47). -/
def Image.base (im : Image) (nb : Nat) : Vals :=
  applyEntries nb (applyEntries nb (applyEntries nb [] im.sealed) im.opened) im.shoal

/-- The profile numbered `p`, if present. -/
def Image.profileAt (im : Image) (p : Nat) : Option Profile := (im.profiles.getD p none)

/-- Effective values with profile `p` active (R45). -/
def Image.effective (im : Image) (nb p : Nat) : Vals :=
  match im.profileAt p with
  | none => im.base nb
  | some x => applyEntries nb (im.base nb) x.entries

/-- A profile entry keeps R46: an open field, or a sealed field declared live within its range; never one that applies
at IMAGE_RESTART. -/
def profileEntryOk (nb : Nat) (des : Nat → Nat) (live : List LiveDecl) (e : SetEntry) : Bool :=
  entryOk nb des (fun x => decide (x ≠ .shoal)) e &&
  (match findField e.key.block e.key.id with
   | none => false
   | some (f, _) =>
     decide (f.apply ≠ .imageRestart) &&
     ((entryBays nb f e.key.mask).all fun b =>
       decide (sideIn des f e.key b = .opened) || live.any fun d => decide (d.key.block = e.key.block ∧ d.key.id = e.key.id) && d.key.mask.testBit b &&
         e.vals.all fun v => decide (d.min ≤ valueOf f v ∧ valueOf f v ≤ d.max)))

/-- Groups of four elements of IMG.LIVE_SEALED; all-zero groups are none (R49). -/
def sealedDecls (m : Vals) : Option (List (List Nat)) :=
  let ws := m.array Fld.imgLiveSealed 0
  if ws.length % 4 ≠ 0 then none
  else (parseDecls (ws.length / 4 + 1) ws).map fun gs => gs.filter fun g => g.any (· ≠ 0)

/-- Parse the sections of an image; none is a failure of check 6 (R40 to R50). -/
def parseImage (nb : Nat) (slot : Bool) (bs : List Byte) : Option Image :=
  let ss := sectionsOf bs
  let pay := payloadOf bs ss
  match entriesOf (pay 1), entriesOf (pay 2), entriesOf (pay 7), parseProfiles (pay 3),
      parseDecls ((pay 6).length / 16 + 2) (payloadWords (pay 6)), parseItems nb [0x10, 0x11] (pay 4),
      parseItems nb [1, 2, 3, 4] (pay 5) with
  | some sl, some op, some sh, some pr, some lv, some cc, some tb =>
    let base := applyEntries nb [] sl
    let des := fun b => base.nat Fld.mcoSealCores b
    match sealedDecls base with
    | none => none
    | some ls =>
      let here := fun g : List Nat => !skipped nb (parseDecl g).key
      let decls := (lv.filter here).map parseDecl ++ (ls.filter here).map parseDecl
      let profs := pr.filterMap id
      if sl.all (entryOk nb des (· == .sealed)) && op.all (entryOk nb des (· == .opened)) &&
          sh.all (entryOk nb des (· == .shoal)) && lv.all (declOk nb des .opened) && ls.all (declOk nb des .sealed) &&
          declsApart nb decls && profs.all (fun p => p.entries.all (profileEntryOk nb des decls)) then
        let all := sl ++ op ++ sh ++ profs.flatMap (·.entries)
        let skips := (all.filter fun e => skipped nb e.key).length + (lv.filter fun g => !here g).length +
          (ls.filter fun g => !here g).length + ((cc ++ tb).filter fun x => x.bays == 0).length
        some
          { slot := slot, id := wd (leAt bs 16), hash := headerHash bs, sealedHash := sha256 (pay 1), shoalHash := sha256 (pay 7)
            signed := (sectionOf ss 8).isSome
            keySlot := if (sectionOf ss 8).isSome then ((pay 8).getD 0 0).toNat else 0
            sealed := sl, opened := op, shoal := sh, profiles := pr, live := decls
            items := (cc ++ tb).filter (fun x => x.bays != 0), ignored := min 255 skips }
      else none
  | _, _, _, _, _, _, _ => none

/-- The SHOAL payload of a slot, as far as its header and section table can be read (R96). -/
def State.shoalPayload (s : State) (slot : Bool) : Option (List Byte) :=
  let head := s.flash.read (slotBase s.flash slot) 64
  if !headerOk head (slotSize s.flash slot) then none
  else
    let bs := s.flash.read (slotBase s.flash slot) (leAt head 8)
    if !sectionsOk bs then none else some (payloadOf bs (sectionsOf bs) 7)

/-- The hash of the package's SHOAL payload: that of its image, or before one is read that of the slot its provisional role came from
(R96, R605). -/
def State.shoalHash (s : State) : List Byte :=
  match s.img.image, s.img.boot.candidate with
  | some im, _ => im.shoalHash
  | none, some im => im.shoalHash
  | none, none => sha256 ((s.shoalPayload (s.img.boot.order.headD false)).getD [])

/-- The last accepted SEALED hash: that of the highest valid row (R630). -/
def SealFuses.lastHash (f : SealFuses) : Option (List Byte) := f.rows.foldl (fun a r => match r with | some h => some h | none => a) none

/-- Check 7: all rows are programmed and the hash differs from the last accepted one (R52, R630). -/
def sealCountOk (f : SealFuses) (h : List Byte) : Bool := decide (f.rows.length < 64) || decide (f.lastHash = some h)

/-- Checks 1 to 6 on a slot, in order, but for the cross-field rules of check 6: the number of the first that fails, or the image
(R52, R56). -/
def readSlot (s : State) (slot : Bool) (flashError : Bool) : Except Nat Image :=
  let size := slotSize s.flash slot
  let head := s.flash.read (slotBase s.flash slot) 64
  if flashError then .error 3
  else if !headerOk head size then .error 1
  else
    let bs := s.flash.read (slotBase s.flash slot) (leAt head 8)
    if !sectionsOk bs then .error 2
    else if !crcsOk bs then .error 3
    else if imageHash bs ≠ headerHash bs then .error 4
    else if !signatureOk s.keeper.fuses bs then .error 5
    else
      match parseImage s.part.bays slot bs with
      | none => .error 6
      | some im => .ok im

end Sys2Proof.Machine
end

