-- ==== Sys2Proof/Machine/Seal.lean ====
section
/-! DEFINITION. The seal keeper: the log in flash, service commands, tamper loops and the VBAT island (R626 to R658). -/
namespace Sys2Proof.Machine

/-- Change the VBAT island. -/
def State.modIsland (s : State) (f : Island → Island) : State :=
  (s.modSeal fun y => { y with island := f s.keeper.island })

/-- The words of an entry (R642). -/
def LogEntry.words (e : LogEntry) : List Word := e.front ++ bytesWords 4 e.mac

/-- The most entries a region holds (R642). -/
def logCapacity : Nat := 16383

/-- Write bytes into the flash; programming is taken to leave exactly the bytes written (R645). -/
def Flash.put (f : Flash) (off : Nat) (bs : List Byte) : Flash := { f with bytes := Sparse.setRun 0xFF#8 f.bytes off bs }

/-- Erase `n` bytes. -/
def Flash.wipe (f : Flash) (off n : Nat) : Flash :=
  { f with bytes := f.bytes.filter fun c => decide (c.1 < off ∨ off + n ≤ c.1) }

/-- The region header (R642). -/
def Seal.regionHeader (k : Seal) : List Byte :=
  let ws := [0x474F4C53] ++ words64 Config.serial ++ [k.logFirst] ++ bytesWords 4 k.logPrior ++ [k.logArchives] ++
    List.replicate 6 (0 : Word)
  wordsBytes (ws ++ [crc32c (wordsBytes ws)])

/-- The last entry number in flash plus 1. -/
def Seal.flashNext (k : Seal) : Word := k.logFirst + wd k.logCount

/-- The log is full (R647). -/
def Seal.full (k : Seal) : Bool := decide (k.logCount ≥ logCapacity)

/-- The bytes of entry slot `i` of the region. -/
def State.logBytes (s : State) (i : Nat) : List Byte := s.flash.read (logBase s.flash + 64 * (1 + i)) 64

/-- The SEALLOG record of an entry that reached flash (R648). -/
def State.sealRecord (s : State) (e : LogEntry) : State :=
  let q := s.pkgN Fld.sealLogQueue
  if q = 255 then s
  else s.enqueue 0 q
    { typ := .seallog, source := 0xE0, domain := 0, stamp := e.stamp, w6hi := BitVec.ofNat 16 e.kind, payload := e.words }

/-- A freed slot takes the LOST entry that waits (R645). -/
def Seal.takeLost (k : Seal) (stamp : Stamp) (rtc : Bool) : Seal :=
  if k.island.lost ≠ 0 ∧ k.freeSlots > 0 then
    let k1 := k.push 14 rtc 0 0 stamp [wd k.island.lost.toNat]
    { k1 with island := { k1.island with lost := 0 } }
  else k

/-- Write the oldest buffered entry to flash, the region header first when the region is new. -/
def State.flushOne (s : State) : State :=
  match s.keeper.island.buffer with
  | [] => s
  | e :: rest =>
    let k := s.keeper
    let f1 := if k.logCount = 0 then s.flash.put (logBase s.flash) k.regionHeader else s.flash
    let f2 := f1.put (logBase s.flash + 64 * (1 + k.logCount)) (wordsBytes e.words)
    let k1 := { k with logCount := k.logCount + 1, island := { k.island with buffer := rest } }
    let rtc := !(s.bay 0).tbs.set
    let k2 := k1.takeLost (if rtc then k1.island.stamp else s.now) rtc
    let s1 := ((s.modFlash fun _ => f2).modSeal fun _ => k2).sealRecord e
    if k2.full && !k2.fullTold then (((s1.modSeal fun y => { y with fullTold := true }) : State).alert 2).event 0 0x1320 []
    else s1

/-- The headland may write the log now: powered, and in SAFE, READY, RUN, or past the image header at start-up
(R645). -/
def State.logWritable (s : State) : Bool :=
  s.alive 0 && (s.bay 0).pwr.sealKeeper && !s.keeper.full &&
  (decide (s.img.state ≠ .start) || s.img.boot.started)

/-- SEAL_LOG_FLUSH (R645, R647, R648): the headland writes the oldest buffered entry to flash; `ok` false is a write
error, which leaves it buffered. -/
def execSealLogFlush (ok : Bool) (s : State) : Out :=
  if !s.logWritable || !ok then .next s else .next s.flushOne

/-! ### Time entries -/

/-- A TIME_SET entry: cause, time before and after (R644); RTC_INVALID while the RTC has not been set (R641). -/
def State.timeSetEntry (s : State) (cause : Nat) (before after : Stamp) : State :=
  s.sealLog 4 0 (cause + (if s.keeper.island.rtcValid then 0 else 0x8000)) (stampWords before ++ stampWords after ++ [0])

/-- RTC_FOLLOW_WRITE (R640): while the servo is LOCKED with seconds from PTP or the leader and SEAL.RTC_FOLLOW is 1, the
tide stamp is written into the RTC, at once when the servo locks and then every 60 s; a move of more than 1 s makes a TIME_SET
entry. -/
def execRtcFollowWrite (s0 : State) : Out :=
  let src := (s0.bay 0).tbs.source
  if !s0.alive 0 || s0.tbs.servo.state ≠ .locked || src = .rtc || s0.pkgN Fld.sealRtcFollow ≠ 1 then .next s0
  else
    let s := match s0.tbs.servo.followed with
      | none => s0
      | some t => s0.reach (later t (ofMs 60000))
    let before := s.keeper.island.stamp
    let after := s.now
    let s1 := (s.modIsland fun i =>
      { i with rtcSec := after.extractLsb' 64 32, rtcSub := after.extractLsb' 49 15, rtcValid := true }).modServo fun d =>
        { d with followed := some after }
    .next (if (stampDiff after before).natAbs > unitsPerSec then s1.timeSetEntry 3 before after else s1)

/-- VBAT_BROWNOUT (R637, R641): the island, which runs from VBAT alone when the part is OFF, restarts. -/
def execVbatBrownout (s : State) : Out :=
  if s.pwr.state ≠ .off then .next s
  else .next (s.modIsland fun _ => { Island.reset with vbatLost := true })

/-! ### Tamper loops -/

/-- A sample is in the tamper state: mode 1 expects a closed loop, mode 2 an open one (R638). -/
def tamperState (mode : BitVec 2) (isOpen : Bool) : Bool := if mode = 1 then isOpen else if mode = 2 then !isOpen else false

/-- One loop's sample: two consecutive samples in the tamper state set its latch, make a TAMPER entry stamped with the
RTC, and raise EV_TAMPER in READY and RUN (R638, R639). -/
def State.tamperLoop (s : State) (l : Fin 2) (isOpen : Bool) : State :=
  let i := s.keeper.island
  let bad := tamperState i.tampMode[l] isOpen
  let sets := bad && i.tampLast[l] && !i.tampLatch[l]
  let s1 := s.modIsland fun i =>
    { i with tampPrev := i.tampPrev.set l i.tampLast[l], tampLast := i.tampLast.set l bad
             tampLatch := i.tampLatch.set l (i.tampLatch[l] || sets) }
  if sets then
    let s2 := (s1.sealLog 5 0 l.val [wd i.tampMode[l].toNat] true).alert 0
    (if s2.img.state = .ready ∨ s2.img.state = .run then s2.event 0 0x1310 [wd l.val] else s2).auxRefreshAll
  else s1

/-- The RTC advances by one sample period of the loops: 125 ms are 4096 periods of its 32.768 kHz (R637, R638, log entry 16). -/
def Island.tick (i : Island) : Island :=
  let v := (i.rtcSec ++ i.rtcSub) + 4096
  { i with rtcSec := v.extractLsb' 15 32, rtcSub := v.extractLsb' 0 15 }

/-- TAMPER_SAMPLE (R638, R639): every 125 ms the island samples both loops. -/
def execTamperSample (openA openB : Bool) (s : State) : Out :=
  .next (((s.modIsland Island.tick).tamperLoop 0 openA).tamperLoop 1 openB)

/-! ### Seal rows -/

/-- The image's SEALED hash differs from the hash in the highest programmed row, and a row is left (R630). -/
def Seal.needsRow (k : Seal) (h : List Byte) : Bool :=
  decide (k.fuses.rows.length < 64) && decide (k.fuses.rows.getLast? ≠ some (some h))

/-- SEAL_ROW_VERIFIED (R630, R644, R658): from phase 8 on the programmed row is verified, or fails and counts without a hash. -/
def execSealRowVerified (ok : Bool) (s : State) : Out :=
  match s.keeper.rowPending with
  | none => .next s
  | some h =>
    if s.img.boot.active && decide (s.img.boot.phase < 7) then .next s else
    let old := (s.keeper.fuses.lastHash).getD (List.replicate 32 0)
    let rows := s.keeper.fuses.rows ++ [if ok then some h else none]
    let s1 := s.modSeal fun k => { k with rowPending := none, fuses := { k.fuses with rows := rows } }
    let n := wd rows.length
    let slot := match s.img.image with
      | some im => bitW im.slot
      | none => 0
    let s2 := if ok then s1.sealLog 1 0 slot (bytesWords 3 old ++ bytesWords 3 h ++ [n]) else s1
    let s3 := s2.event 0 0x1301 ([n] ++ bytesWords 4 h)
    .next (if rows.length = 64 then s3.event 0 0x1302 [] else s3)

/-! ### Service commands -/

/-- The bytes a signed command covers: opcode, arguments, serial number and SEAL_LOG_NEXT (R649). -/
def Seal.signedBytes (k : Seal) (op : Nat) : List Byte :=
  natBytes 4 op ++ wordsBytes k.box.args.toList ++ natBytes 8 Config.serial.toNat ++ wordBytes k.island.counter

/-- The signature of a service command verifies under an unrevoked slot named in ARG0 [9:8] (R649). -/
def Seal.cmdSigned (k : Seal) (op : Nat) : Bool :=
  match k.fuses.sign[bits k.box.args[0].toNat 9 8]? with
  | some { key := some xy, revoked := false } =>
    ecdsaVerify xy.1 xy.2 (leNat (wordsBytes k.box.sigR.toList)) (leNat (wordsBytes k.box.sigS.toList))
      (sha256 (k.signedBytes op))
  | _ => false

/-- A service command ends: its result, and EV_SVC_CMD_DONE (R652). -/
def State.svcDone (s : State) (op code : Nat) : State :=
  (s.modSeal fun k => { k with box := { k.box with busy := false, result := code } }).event 0 0x1331 [wd op, wd code]

/-- The seal keeper can take a service command: powered, the headland not lost, and none running. -/
def State.svcReady (s : State) : Bool := s.alive 0 && (s.bay 0).pwr.sealKeeper && !s.keeper.box.busy

/-- The slot of ARG0 [1:0]. -/
def Seal.argSlot (k : Seal) : Fin 4 := ⟨k.box.args[0].toNat % 4, Nat.mod_lt _ (by decide)⟩

/-- The 32 bytes of ARG n to n + 7. -/
def Seal.argBytes (k : Seal) (n : Nat) : List Byte := wordsBytes ((k.box.args.toList.drop n).take 8)

/-- PROVISION_SIGN_KEY (R631, R649, R652). -/
def execProvisionSignKey (s : State) : Out :=
  if !s.svcReady then .next s
  else
    let k := s.keeper
    let i := k.argSlot
    if k.fuses.sign[i].key.isSome then .next (s.svcDone 1 3)
    else if k.fuses.metrology && !k.cmdSigned 1 then .next (s.svcDone 1 1)
    else if k.freeSlots = 0 then .next (s.svcDone 1 4)
    else
      let key := (leNat (k.argBytes 8), leNat (k.argBytes 16))
      let s1 := s.modSeal fun k =>
        { k with fuses := { k.fuses with sign := k.fuses.sign.set i { k.fuses.sign[i] with key := some key } } }
      .next ((((s1.sealLog 12 0 i.val [0]).alert 7).event 0 0x1330 [wd i.val, 0]).svcDone 1 0)

/-- PROVISION_MAC_KEY (R631, R634, R649, R652). -/
def execProvisionMacKey (s : State) : Out :=
  if !s.svcReady then .next s
  else
    let k := s.keeper
    let i := k.argSlot
    if k.fuses.metrology then .next (s.svcDone 2 2)
    else if k.fuses.mac[i].isSome then .next (s.svcDone 2 3)
    else if k.freeSlots = 0 then .next (s.svcDone 2 4)
    else
      let s1 := s.modSeal fun k => { k with fuses := { k.fuses with mac := k.fuses.mac.set i (some (k.argBytes 8)) } }
      .next ((((s1.sealLog 12 0 i.val [2]).alert 7).event 0 0x1330 [wd i.val, 2]).svcDone 2 0)

/-- Signing slots that are provisioned and not revoked. -/
def SealFuses.unrevoked (f : SealFuses) : Nat := (f.sign.toList.filter fun x => x.key.isSome && !x.revoked).length

/-- REVOKE (R632, R633, R649, R652). -/
def execRevoke (s : State) : Out :=
  if !s.svcReady then .next s
  else
    let k := s.keeper
    let i := k.argSlot
    let x := k.fuses.sign[i]
    if x.key.isNone || x.revoked then .next (s.svcDone 3 3)
    else if k.fuses.metrology && decide (k.fuses.unrevoked ≤ 1) then .next (s.svcDone 3 2)
    else if !k.cmdSigned 3 then .next (s.svcDone 3 1)
    else if k.freeSlots = 0 then .next (s.svcDone 3 4)
    else
      let s1 := s.modSeal fun k => { k with fuses := { k.fuses with sign := k.fuses.sign.set i { x with revoked := true } } }
      .next ((((s1.sealLog 12 0 i.val [1]).alert 7).event 0 0x1330 [wd i.val, 1]).svcDone 3 0)

/-- TAMPER_CLEAR (R638, R649): the latch clears unless a loop's last two samples are in the tamper state. -/
def execTamperClear (s : State) : Out :=
  if !s.svcReady then .next s
  else
    let k := s.keeper
    let l : Fin 2 := ⟨k.box.args[0].toNat % 2, Nat.mod_lt _ (by decide)⟩
    if k.island.tampLast[l] && k.island.tampPrev[l] then .next (s.svcDone 4 2)
    else if k.freeSlots = 0 then .next (s.svcDone 4 4)
    else
      let s1 := s.modIsland fun i => { i with tampLatch := i.tampLatch.set l false }
      .next ((((s1.sealLog 6 0 l.val []).event 0 0x1311 [wd l.val]).svcDone 4 0).auxRefreshAll)

/-- LOG_VERIFY (R650): the recomputation starts; the mailbox is busy until it ends. -/
def execLogVerify (s : State) : Out :=
  if !s.svcReady then .next s
  else .next (s.modSeal fun k => { k with verifying := true, verifyDone := false, box := { k.box with busy := true } })

/-- Walk the chain over entries in flash: the number and cause of the first inconsistent one, or the tail's MAC. -/
def chainWalk (rd : Nat → List Byte) (first : Word) : Nat → Nat → List Byte → Except (Nat × Word) (List Byte)
  | 0, _, prior => .ok prior
  | n + 1, i, prior =>
    let bs := rd i
    let want := first + wd i
    let mac := (bs.drop 48).take 16
    if leNat (bs.take 4) ≠ want.toNat then .error (2, want)
    else if mac ≠ (hmacSha256 deviceKeyBytes (prior ++ bs.take 48)).take 16 then .error (1, want)
    else chainWalk rd first n (i + 1) mac

/-- The buffered entries' predecessor must be the tail, or the tail the island's head (R646). -/
def State.tailAgrees (s : State) (tail : List Byte) : Bool :=
  match s.keeper.island.buffer with
  | [] => decide (tail = s.keeper.island.headMac)
  | e :: _ => decide (chainMac tail { e with mac := [] } = e.mac)

/-- The comparison of the flash tail with the island: 0 consistent, 2 counter, 3 head MAC (R646, R655). Lost entries
have advanced the counter without an entry. -/
def State.tailCheck (s : State) (tail : List Byte) : Nat :=
  let k := s.keeper
  if k.flashNext + wd (k.island.buffer.length + k.island.lost.toNat) ≠ k.island.counter then 2
  else if !s.tailAgrees tail then 3 else 0

/-- LOG_VERIFY_DONE (R650, R655): the result is set from the chain of every entry in flash and the comparisons of
R646. -/
def execLogVerifyDone (s : State) : Out :=
  if !s.keeper.verifying || !s.alive 0 then .next s
  else
    let k := s.keeper
    let (res, first) := match chainWalk s.logBytes k.logFirst k.logCount 0 k.logPrior with
      | .error (c, n) => (c, n.toNat)
      | .ok tail => let r := s.tailCheck tail; (r, if r = 0 then 0 else k.flashNext.toNat)
    let s1 := s.modSeal fun k =>
      { k with verifying := false, verifyDone := true, verifyResult := res, verifyFirst := min first (2 ^ 29 - 1) }
    .next (s1.svcDone 5 0)

/-- LOG_ARCHIVE (R649, R651, R652, R653): the region is erased and a new one begins with the ARCHIVE entry; `ok` false is
a flash error. -/
def execLogArchive (ok : Bool) (s : State) : Out :=
  if !s.svcReady then .next s
  else
    let k := s.keeper
    let last := k.flashNext - 1
    if k.island.buffer ≠ [] ∨ k.logCount = 0 ∨ k.box.args[1] ≠ last then .next (s.svcDone 6 2)
    else if !k.cmdSigned 6 then .next (s.svcDone 6 1)
    else if k.freeSlots = 0 then .next (s.svcDone 6 4)
    else if !ok then .next (s.svcDone 6 5)
    else
      let prior := (s.logBytes (k.logCount - 1)).drop 48
      let f := s.flash.wipe (logBase s.flash) 0x100000
      let s1 := { s with flash := f, keeper :=
        { k with logFirst := k.island.counter, logCount := 0, logPrior := prior, logArchives := k.logArchives + 1
                 fullTold := false } }
      .next ((s1.sealLog 15 0 0 [k.logFirst, last]).svcDone 6 0)

/-! ### Start-up of the log -/

/-- Entries of the region in flash: consecutive numbers from the header's first (R642). -/
def countEntries (rd : Nat → List Byte) (first : Word) : Nat → Nat → Nat
  | 0, i => i
  | n + 1, i => if leNat ((rd i).take 4) = (first + wd i).toNat ∧ (rd i).any (· ≠ 0xFF#8) then countEntries rd first n (i + 1) else i

/-- At start-up, after the image header has been read, the headland reads the region header, completes a VBAT loss
(R641), and compares the flash tail with the island (R646). -/
def State.sealStart (s : State) : State :=
  let h := s.flash.read (logBase s.flash) 64
  let found := decide (leAt h 0 = 0x474F4C53)
  let first : Word := if found then wd (leAt h 12) else 0
  let n := if found then countEntries s.logBytes first logCapacity 0 else 0
  let prior := if found then (h.drop 16).take 16 else List.replicate 16 0
  let tail := if n = 0 then prior else (s.logBytes (n - 1)).drop 48
  let s1 := s.modSeal fun k =>
    { k with logFirst := first, logCount := n, logPrior := prior, logArchives := if found then wd (leAt h 32) else 0
             broken := false, fullTold := decide (n ≥ logCapacity) }
  if s1.keeper.island.vbatLost then
    let e := s.logBytes (n - 1)
    let s2 := s1.modIsland fun i => { i with counter := first + wd n, headMac := tail }
    let s3 := s2.sealLog 13 0 0 [first + wd n - 1] true
    let s4 := s3.modIsland fun i =>
      { i with rtcSec := if n = 0 then i.rtcSec else wd (leAt e 16)
               rtcSub := if n = 0 then i.rtcSub else BitVec.ofNat 15 (leAt e 12 / 2 ^ 17), vbatLost := false }
    s4.event 0 0x1312 []
  else
    match s1.tailCheck tail with
    | 0 => s1
    | c =>
      let s2 := s1.modSeal fun k => { k with broken := true }
      ((s2.sealLog 16 0 (if c = 2 then 1 else 2) [s1.keeper.flashNext]).alert 2).event 0 0x1321 [s1.keeper.flashNext]

end Sys2Proof.Machine
end

