-- ==== Sys2Proof/Machine/Ring.lean ====
section
/-! DEFINITION. The host command and event rings, and the commands that use the flash (R75 to R86). -/
namespace Sys2Proof.Machine

/-- Take the command at the ring's head: the ring is enabled and not empty, and the event ring has a free slot for the
completion; the headland reads no command while the control endpoint is down or may not master the bus (R78, R81, R85, R559). -/
def State.takeCommand (s : State) : Option State :=
  let c := s.img.cmd
  let e := (s.bay 0).pci[4]
  if s.alive 0 && e.linkUp && e.bme && !e.d3 && c.enable && decide (c.used > 0) && !s.img.buffering && decide (s.img.evt.space > s.heldSlots) then
    some (s.modImg fun i => { i with cmd := { c with head := c.bump c.head } })
  else none

/-- Status codes of R83. -/
def stOk : Nat := 0
/-- UNKNOWN_OPCODE. -/
def stUnknown : Nat := 1
/-- BAD_ARGUMENT. -/
def stBadArgument : Nat := 2
/-- NOT_LIVE. -/
def stNotLive : Nat := 3
/-- OUT_OF_RANGE. -/
def stOutOfRange : Nat := 4
/-- STATE. -/
def stState : Nat := 5
/-- PINS_OWN. -/
def stPinsOwn : Nat := 6
/-- BUSY. -/
def stBusy : Nat := 7
/-- FLASH_PROTECTED. -/
def stProtected : Nat := 8
/-- FLASH_ERROR. -/
def stFlashError : Nat := 9

/-- Complete a command: EV_CMD_DONE (R83). -/
def State.complete (s : State) (op : Nat) (tag : Word) (status : Nat) (detail : Word) (stamp : Stamp) : State :=
  s.event 0 0x0101 ([tag, wd (op + 256 * status), detail] ++ stampWords stamp) true

/-- Take a command and run it, or leave the ring as it is. -/
def State.ringCommand (s : State) (f : State → State) : Out :=
  match s.takeCommand with
  | none => .next s
  | some t => .next (f t)

/-- Complete with STATE unless the package is in READY or RUN, or in RUN alone (R80). -/
def State.inStates (s : State) (ready : Bool) : Bool :=
  decide (s.img.state = .run) || (ready && decide (s.img.state = .ready))

/-- SNAPSHOT_AT (R80, R164): refused when the stamp is less than T_b + 1 µs ahead; two may wait. -/
def execSnapshotAt (tag : Word) (t : Stamp) (id : Word) (s : State) : Out :=
  s.ringCommand fun s =>
    if !s.inStates true then s.complete 8 tag stState 0 s.now
    else if stampLt t s.epochLead then s.complete 8 tag stBadArgument 0 s.now
    else if s.tbs.snaps.length ≥ 2 then s.complete 8 tag stBusy 0 s.now
    else
      let ins := (s.tbs.snaps.filter fun x => stampLe x.1 t) ++ [(t, id)] ++ s.tbs.snaps.filter fun x => !stampLe x.1 t
      let s1 := (s.modTbsPkg fun y => { y with snaps := ins }).complete 8 tag stOk 0 s.now
      if s1.pkgN Fld.lnlShoalSize > 1 then s1.emit (.packet "SNAPSHOT" 0 (stampWords t ++ [id])) else s1

/-- ACQ_RESTART (R67, R80): an acquisition restart of the bays of a mask is asked for. -/
def execAcqRestart (tag : Word) (mask : BitVec 8) (s : State) : Out :=
  s.ringCommand fun s =>
    if !s.inStates true then s.complete 9 tag stState 0 s.now
    else
      let m := maskOf (s.maskBays mask.toNat)
      if m = 0 then s.complete 9 tag stBadArgument 0 s.now
      else (s.modImg fun i => { i with restartReq := i.restartReq ||| m }).complete 9 tag stOk 0 s.now

/-- UNKNOWN_OPCODE (R80, R83): an opcode that the table does not list. -/
def execUnknownOpcode (op : BitVec 8) (tag : Word) (s : State) : Out :=
  if 1 ≤ op.toNat ∧ op.toNat ≤ 0x0E then .next s
  else s.ringCommand fun s => s.complete op.toNat tag stUnknown 0 s.now

/-! ### Flash commands -/

/-- A run of the flash touches the seal log region, the last 1 MiB (R34, R82). -/
def Flash.touchesLog (f : Flash) (off len : Nat) : Bool :=
  decide (off + len > logBase f) && decide (off < f.density) && decide (len > 0)

/-- The status a flash command has when it is taken (R80 to R82, R648). -/
def State.flashStatus (s : State) (op : FlashOp) (off len : Nat) : Nat :=
  if s.img.state = .start then stState
  else
    match op with
    | .sealRead =>
      if s.keeper.logFirst.toNat ≤ off ∧ off + len ≤ s.keeper.logFirst.toNat + s.keeper.logCount then stOk else stBadArgument
    | .read => if off + len ≤ s.flash.density then stOk else stBadArgument
    | .erase =>
      if s.flash.touchesLog off len then stProtected
      else if off + len > s.flash.density ∨ off % s.flash.eraseSize ≠ 0 ∨ len % s.flash.eraseSize ≠ 0 then stBadArgument else stOk
    | .program =>
      if s.flash.touchesLog off len then stProtected else if off + len > s.flash.density then stBadArgument else stOk

/-- Put a flash command into the flash queue; it keeps the event slot of its completion (R81, R85). -/
def State.queueFlash (s : State) (op : FlashOp) (tag : Word) (off len : Word) (host : BitVec 64) : State :=
  s.modImg fun i => { i with flashQueue := i.flashQueue ++
    [{ op := op, tag := tag, off := off.toNat, len := len.toNat, host := host
       status := s.flashStatus op off.toNat len.toNat, taken := s.now }] }

/-- NVM_READ (R80, R81). -/
def execNvmRead (tag off len : Word) (host : BitVec 64) (s : State) : Out :=
  s.ringCommand fun s => s.queueFlash .read tag off len host

/-- NVM_ERASE (R80 to R82). -/
def execNvmErase (tag off len : Word) (s : State) : Out :=
  s.ringCommand fun s => s.queueFlash .erase tag off len 0

/-- NVM_PROGRAM (R80 to R82). -/
def execNvmProgram (tag off len : Word) (host : BitVec 64) (s : State) : Out :=
  s.ringCommand fun s => s.queueFlash .program tag off len host

/-- SEAL_LOG_READ (R80, R81, R648): first entry number and count. -/
def execSealLogRead (tag first count : Word) (host : BitVec 64) (s : State) : Out :=
  s.ringCommand fun s => s.queueFlash .sealRead tag first count host

/-- The opcode of a flash operation (R80). -/
def FlashOp.opcode : FlashOp → Nat
  | .read => 0x0B
  | .erase => 0x0C
  | .program => 0x0D
  | .sealRead => 0x0E

/-- Program bytes: an erased byte takes its value; what a byte that was not erased becomes is not stated, a free value
(log entry 7). -/
def State.programBytes (s : State) (off : Nat) : List Byte → State
  | [] => s
  | x :: r =>
    let old := Sparse.get 0xFF#8 s.flash.bytes off
    let v := if old = 0xFF#8 ∨ old = x then (x, s) else s.takeFree 8
    (v.2.modFlash fun f => f.put off [v.1]).programBytes (off + 1) r

/-- The effect of a flash operation that ends well. -/
def State.flashEffect (s : State) (c : FlashCmd) (data : List Byte) : State :=
  match c.op with
  | .read => s.emit (.hostBytes 0 c.host (s.flash.read c.off c.len))
  | .erase => (s.modFlash fun _ => s.flash.wipe c.off c.len)
  | .program => s.programBytes c.off ((data ++ List.replicate c.len 0#8).take c.len)
  | .sealRead =>
    let i := c.off - s.keeper.logFirst.toNat
    s.emit (.hostBytes 0 c.host ((List.range c.len).flatMap fun j => s.logBytes (i + j)))

/-- The flash offset that an error of a command is reported at: its first byte; for SEAL_LOG_READ that of its first entry (R83,
R642). -/
def State.errorOffset (s : State) (c : FlashCmd) : Nat :=
  match c.op with
  | .sealRead => logBase s.flash + 64 * (1 + (c.off - s.keeper.logFirst.toNat))
  | _ => c.off

/-- FLASH_COMMAND_DONE (R81 to R83): the oldest flash command ends; `ok` false is a flash error, and `data` holds the
host bytes that NVM_PROGRAM wrote. Its completion carries the stamp at which it was accepted. -/
def execFlashCommandDone (ok : Bool) (data : List Byte) (s : State) : Out :=
  match s.img.flashQueue with
  | [] => .next s
  | c :: rest =>
    if !s.alive 0 then .next s
    else
      let s1 := s.modImg fun i => { i with flashQueue := rest }
      if c.status ≠ 0 then .next (s1.complete c.op.opcode c.tag c.status 0 c.taken)
      else if !ok then .next (s1.complete c.op.opcode c.tag stFlashError (wd (s1.errorOffset c)) c.taken)
      else .next ((s1.flashEffect c data).complete c.op.opcode c.tag stOk 0 c.taken)

/-! ### Ring registers -/

/-- IMG_CMD_TAIL_WRITE (R75, R81). -/
def execImgCmdTailWrite (v : BitVec 12) (s : State) : Out :=
  if !s.alive 0 then .next s else .next (s.modImg fun i => { i with cmd := { i.cmd with tail := v } })

/-- A write of a ring's configuration: SIZE_LOG2 is taken while the ring is disabled, ENABLE only with a size of 4 to 12,
and clearing ENABLE resets both indices (R77, R78). -/
def Ring.configure (r : Ring) (w : Word) (events : Bool) : Ring :=
  let size := w.extractLsb' 0 4
  let on := w.getLsbD 31
  let r1 := if events then { r with vector := w.extractLsb' 8 8, irq := w.getLsbD 30 } else r
  if r.enable then (if on then r1 else { r1 with enable := false, tail := 0, head := 0 })
  else { r1 with sizeLog2 := size, enable := on && decide (4 ≤ size.toNat ∧ size.toNat ≤ 12) }

/-- IMG_CMD_CFG_WRITE (R77, R78). -/
def execImgCmdCfgWrite (w : Word) (s : State) : Out :=
  if !s.alive 0 then .next s else .next (s.modImg fun i => { i with cmd := i.cmd.configure w false })

/-- Write out the events buffered before the ring was enabled, the loss notice first (R86). What becomes of buffered events that a
ring smaller than the buffer has no space for is not stated: they are counted in IMG_EVT_LOST, as R85 counts an event that finds
the ring full (DEDUCED, log entry 64). -/
def State.drainBuffer (s : State) : State :=
  let held := s.img.buffer
  let n := s.img.bufferDropped
  let s1 := s.modImg fun i => { i with buffering := false, buffer := [], bufferDropped := 0 }
  let s2 := if n > 0 then s1.ringEvent (s1.lostRec n) false else s1
  held.foldl (fun s r => s.ringEvent r false) s2

/-- IMG_EVT_CFG_WRITE (R77, R78, R86, R719). -/
def execImgEvtCfgWrite (w : Word) (s : State) : Out :=
  if !s.alive 0 then .next s
  else
    let s1 := s.modImg fun i => { i with evt := i.evt.configure w true }
    .next (if s1.img.evt.enable && !s.img.evt.enable && s.img.buffering then s1.drainBuffer else s1)

/-- IMG_EVT_HEAD_WRITE (R75, R85). -/
def execImgEvtHeadWrite (v : BitVec 12) (s : State) : Out :=
  if !s.alive 0 then .next s else .next (s.modImg fun i => { i with evt := { i.evt with head := v } })

/-- IMG_EVT_LOST_READ (R75): the register is read and clears. -/
def execImgEvtLostRead (s : State) : Out :=
  if !s.alive 0 then .next s else .next (s.modImg fun i => { i with lost := 0 })

end Sys2Proof.Machine
end

