-- ==== Sys2Proof/Machine/Den.lean ====
section
/-! DEFINITION. The density accumulator: counting, swaps, readout passes and frames (R337 to R361). -/
namespace Sys2Proof.Machine

/-- C = min(N, 1024) (R337). -/
def colsOf (n : Nat) : Nat := min (2 ^ n) 1024

/-- The log power of bin index `k` counted from −N/2. -/
def Spectrum.log (d : Spectrum) (k : Nat) : Int := logPower (d.powers.getD k 0) (2 ^ 96)

/-- V_c of a column (R338, R339). -/
def columnValue (d : Spectrum) (n : Nat) (mean : Bool) (c : Nat) : Int :=
  let per := 2 ^ n / colsOf n
  let ks := (List.range per).map (per * c + ·)
  if mean then logPower (ks.foldl (fun a k => a + d.powers.getD k 0) 0) (per * 2 ^ 96)
  else ks.foldl (fun m k => max m (d.log k)) (-32767)

/-- Count one value: the cell it adds to, and whether it lies above or below the window (R340 to R342). -/
def FrameInfo.place (f : FrameInfo) (v : Int) (c : Nat) : Option Nat × Bool × Bool :=
  let r := (v - f.floor) / (f.rowStep : Int)
  if r < 0 then (if f.clamp then some c else none, false, true)
  else if r > 511 then (if f.clamp then some (1024 * 511 + c) else none, true, false)
  else (some (1024 * r.toNat + c), false, false)

/-- Add to a cell, staying at the largest count (R353). -/
def addCell (cells : Sparse Word) (k n : Nat) : Sparse Word :=
  Sparse.set 0 cells k (wd (min 0xFFFFFFFF ((Sparse.get 0 cells k).toNat + n)))

/-- A frame's settings differ between two spectra (R352 MIXED). -/
def confDiffers (a b : FrameConf) : Bool :=
  decide (a.window ≠ b.window ∨ a.param ≠ b.param ∨ a.preset ≠ b.preset ∨ a.ftw ≠ b.ftw ∨ a.step ≠ b.step ∨ a.trim ≠ b.trim)

/-- Count a spectrum in a bank, or note that it is excluded (R342, R344). -/
def FrameInfo.count (f : FrameInfo) (cells : Sparse Word) (sp : Spec) : FrameInfo × Sparse Word :=
  if (sp.settling && !f.useMarked.testBit 0) || (sp.truncated && !f.useMarked.testBit 1) then
    ({ f with excluded := satAdd 0xFFFFFFFF f.excluded 1 }, cells)
  else
    let f1 := { f with
      counted := satAdd 0xFFFFFFFF f.counted 1, last := some sp
      mixed := f.mixed || (match f.last with
        | none => false
        | some l => confDiffers l.conf sp.conf)
      settling := f.settling || sp.settling, truncated := f.truncated || sp.truncated
      overload := f.overload || sp.overload }
    (List.range (colsOf sp.n)).foldl (fun (acc : FrameInfo × Sparse Word) c =>
      let (cell, hi, lo) := f.place (columnValue sp.data sp.n f.meanMode c) c
      ({ acc.1 with above := satAdd 0xFFFFFFFF acc.1.above (bitW hi), below := satAdd 0xFFFFFFFF acc.1.below (bitW lo) },
       match cell with
       | none => acc.2
       | some k => addCell acc.2 k 1)) (f1, cells)

/-- A spectrum reaches the accumulator: it belongs to the bank of the epoch of its centre time (R345). -/
def DenChan.take (d : DenChan) (sp : Spec) : DenChan :=
  if !d.enabled && d.old.isNone then d
  else
    match d.old with
    | some o =>
      if stampLt sp.centre o.boundary && !o.passing then
        let (f, cs) := o.info.count o.cells sp
        { d with old := some { o with info := f, cells := cs }, specs := if f.excluded = o.info.excluded then d.specs + 1 else d.specs }
      else if d.enabled then
        let (f, cs) := d.info.count d.cells sp
        { d with info := f, cells := cs, specs := if f.excluded = d.info.excluded then d.specs + 1 else d.specs }
      else d
    | none =>
      let (f, cs) := d.info.count d.cells sp
      { d with info := f, cells := cs, specs := if f.excluded = d.info.excluded then d.specs + 1 else d.specs }

/-- The information of a new frame under the settings in force. -/
def State.newFrame (s : State) (b : BayNo) (x : Fin 2) (start : Stamp) (restarted : Bool) : FrameInfo :=
  { FrameInfo.reset with
    start := start, restarted := restarted, gap := (s.bay b).xfm.chans[x].gap.isSome
    floor := s.fld Fld.denChFloor b x.val, rowStep := s.fldN Fld.denChRowStep b x.val, clamp := s.fldB Fld.denChClamp b x.val
    meanMode := s.fldB Fld.denChColMode b x.val, useMarked := s.fldN Fld.denChUseMarked b x.val
    cols := colsOf (s.fldN Fld.xfmChNLog2 b x.val) }

/-- The mapping of a frame's counts differs from the one in force (R354). -/
def State.mappingChanged (s : State) (b : BayNo) (x : Fin 2) (f : FrameInfo) : Bool :=
  decide (f.floor ≠ s.fld Fld.denChFloor b x.val ∨ f.rowStep ≠ s.fldN Fld.denChRowStep b x.val ∨
    f.clamp ≠ s.fldB Fld.denChClamp b x.val ∨ f.meanMode ≠ s.fldB Fld.denChColMode b x.val)

/-- D_close (R345). -/
def State.denClose (s : State) (b : BayNo) (x : Fin 2) : Nat :=
  let n := 2 ^ s.fldN Fld.xfmChNLog2 b x.val
  s.tb + ofUs 3 + s.samples b (s.chanPort b x) n / 2 + durOf n 40960000000

/-- What a density channel does at an epoch boundary, once the settings of the new epoch are in force (R345, R347, R350,
R354, R356). -/
def State.denBoundary (s : State) (b : BayNo) (x : Fin 2) (t : Stamp) : State :=
  let d := (s.bay b).den.chans[x]
  let on := s.fldB Fld.denChEn b x.val
  let s0 := s.modDen b x fun d => { d with dropTold := false, mergeTold := false, satTold := false }
  if !d.enabled then
    if on then s0.modDen b x fun d => { d with enabled := true, cells := [], info := s.newFrame b x t true, clearAsked := false }
    else s0
  else if d.old.isSome then
    (s0.modDen b x fun d =>
      { d with merged := d.merged + 1, mergeTold := true, info := { d.info with epochs := satAdd 255 d.info.epochs 1 } }).event
      b 0x0802 ([wd x.val] ++ stampWords t)
  else
    let map := s.mappingChanged b x d.info
    let discard := map || d.clearAsked || !on
    let s1 := s0.modDen b x fun d =>
      { d with
        enabled := on, bankB := !d.bankB, cells := [], clearAsked := false
        info := s.newFrame b x t (map || d.clearAsked)
        old := some { info := d.info, cells := d.cells, boundary := t, close := later t (s.denClose b x), shift := s.fldN Fld.denChDecay b x.val
                      discard := discard, passing := false } }
    if d.clearAsked then s1.event b 0x0804 ([wd x.val] ++ stampWords t) else s1

/-- The length of a readout pass of C columns: 8 × C FCLK cycles (R346). -/
def passTimeOf (cols : Nat) : Nat := durOf (8 * cols) 1280000000

/-- DEN_BANK_CLOSE (R345, R346): the old bank of channel `x` closes at its boundary + D_close and its readout pass begins. -/
def execDenBankClose (b : BayNo) (x : Fin 2) (s0 : State) : Out :=
  match (s0.bay b).den.chans[x].old with
  | none => .next s0
  | some o =>
    if !s0.alive b || o.passing then .next s0
    else
      let s := s0.reach o.close
      .next (s.modDen b x fun d => { d with old := d.old.map fun o => { o with passing := true } })

/-- Cells at 0xFFFF_FFFF. -/
def fullCells (cs : Sparse Word) : Nat := (cs.filter fun e => decide (e.2 = 0xFFFFFFFF)).length

/-- The descriptor of a DENSITY record (R352). -/
def State.denDescriptor (s : State) (x : Fin 2) (f : FrameInfo) (shift : Nat) (full : Nat) : List Word :=
  let l := f.last
  let cf := l.map (·.conf)
  let w0 := (l.map (·.n)).getD 0 + 32 * (l.map (·.m)).getD 0 + 256 * (cf.map (·.window)).getD 0 + 2048 * (cf.map (·.preset)).getD 0 +
    8192 * (l.map (·.k)).getD 0 + 262144 * s.pkgN Fld.clkFAdc + 1048576 * (cf.map (·.port.val)).getD 0 + 4194304 * x.val +
    8388608 * bitW f.meanMode + 16777216 * bitW f.clamp + 33554432 * shift
  [wd w0, wd ((Word.ofSigned f.floor).toNat % 65536 + 65536 * f.rowStep), wd (f.cols + 16777216 * f.epochs), wd f.counted,
   wd f.excluded, wd f.above, wd f.below,
   wd (full % 1048576 + 1048576 * bitW f.mixed + 2097152 * bitW f.restarted + 4194304 * bitW f.early)]

/-- Part `k` of a frame as a record body (R351, R352). -/
def State.denBody (s : State) (x : Fin 2) (f : DenFrame) (k : Nat) : RecBody :=
  let i := f.info
  { typ := .density, source := 0x60 + x.val, stamp := i.start, w6hi := BitVec.ofNat 16 k
    flags := flagIf i.settling flagSettling ||| flagIf i.truncated flagTruncated ||| flagIf i.gap flagGapBefore |||
      flagIf i.overload flagOverload
    payload := s.denDescriptor x i f.shift (fullCells f.cells) ++
      (List.range 256).flatMap fun r => (List.range i.cols).map fun c => Sparse.get 0 f.cells (1024 * (256 * k + r) + c) }

/-- A spectrum without content that stands for settings alone. -/
def standIn (cf : FrameConf) (n m k : Nat) : Spec :=
  { data := Spectrum.mk [] [] 0, centre := 0, start := 0, stop := 0, conf := cf, n := n, m := m, k := k, settling := false
    truncated := false, gapBefore := false, overload := false, holdover := false, index := 0, serial := 0 }

/-- A frame with no counted spectrum reports the settings in force for those of the last counted one, which the spec
leaves open (log entry 10). -/
def State.frameSettings (s : State) (b : BayNo) (x : Fin 2) (f : FrameInfo) : FrameInfo × State :=
  match f.last with
  | some _ => (f, s)
  | none =>
    let (v, s1) := s.takeFree 8
    let p := s.chanPort b x
    let cf : FrameConf :=
      { s.confNow b x f.start with window := (v.extractLsb' 0 3).toNat, preset := (v.extractLsb' 3 2).toNat }
    let l := standIn cf (s.fldN Fld.xfmChNLog2 b x.val) (s.fldN Fld.xfmChOverlapLog2 b x.val) (s.decim b p)
    ({ f with last := some l }, s1)

/-- The carry of a readout pass (R346 step 2, R348). -/
def carryCells (old acc : Sparse Word) (shift : Nat) : Sparse Word :=
  if shift ≥ 32 then acc else old.foldl (fun m e => addCell m e.1 (e.2.toNat >>> shift)) acc

/-- Emit a completed frame as two DENSITY records (R351). -/
def State.emitFrame (s : State) (b : BayNo) (x : Fin 2) (f : DenFrame) : State :=
  if !s.fldB Fld.denChEmit b x.val then s
  else
    let (i, s0) := s.frameSettings b x f.info
    let f := { f with info := i }
    let q := s0.fldN Fld.denChQueue b x.val
    let (ok0, s1) := s0.handOver b q (s0.denBody x f 0)
    let (ok1, s2) := s1.handOver b q (s1.denBody x f 1)
    if ok0 && ok1 then s2
    else
      let told := (s2.bay b).den.chans[x].dropTold
      let s3 := s2.modDen b x fun d => { d with drops := d.drops + 1, dropTold := true }
      if told then s3 else s3.event b 0x0803 [wd x.val]

/-- Complete the readout pass of the old bank (R346, R351, R353). -/
def State.finishPass (s : State) (b : BayNo) (x : Fin 2) : State :=
  match (s.bay b).den.chans[x].old with
  | none => s
  | some o =>
    let full := fullCells o.cells
    let f : DenFrame := { info := o.info, cells := o.cells, shift := o.shift }
    let told := (s.bay b).den.chans[x].satTold
    let s1 := s.modDen b x fun d =>
      { d with
        old := none, frame := some f, frames := d.frames + 1, saturated := full, satTold := d.satTold || decide (full > 0)
        cells := if o.discard then d.cells else carryCells o.cells d.cells o.shift }
    let s2 := if full > 0 ∧ !told then s1.event b 0x0801 [wd x.val, wd full] else s1
    s2.emitFrame b x f

/-- DEN_PASS_DONE (R346, R351, R353): the readout pass of channel `x` completes. -/
def execDenPassDone (b : BayNo) (x : Fin 2) (s0 : State) : Out :=
  match (s0.bay b).den.chans[x].old with
  | none => .next s0
  | some o =>
    if !s0.alive b || !o.passing then .next s0
    else
      let s := s0.reach (later o.close (passTimeOf o.info.cols))
      .next (s.finishPass b x)

/-- DEN_CLEAR (R356): a write of a mask of channels. -/
def execDenClear (b : BayNo) (mask : BitVec 2) (s : State) : Out :=
  if !s.queueAwake b then .next (s.fencedAccess b .datapath)
  else .next ((List.finRange 2).foldl (fun s x =>
    if mask.getLsbD x.val then s.modDen b x fun d => { d with clearAsked := true } else s) s)

/-- The stop of an acquisition restart that changes C closes the accumulating bank early (R355 steps 1 and 2). -/
def State.denEarly (s : State) (b : BayNo) (x : Fin 2) (t : Stamp) : State :=
  let s0 := if (s.bay b).den.chans[x].old.isSome then s.finishPass b x else s
  if !(s0.bay b).den.chans[x].enabled then s0
  else s0.modDen b x fun d =>
    { d with
      bankB := !d.bankB, cells := []
      info := { s0.newFrame b x d.info.start true with gap := true }
      old := some { info := { d.info with early := true }, cells := d.cells, boundary := t, close := later t (s0.denClose b x)
                    shift := s0.fldN Fld.denChDecay b x.val, discard := true, passing := false } }

/-- L_min in ns, rounded up (R349, R359). -/
def State.denLmin (s : State) (b : BayNo) (x : Fin 2) : Nat :=
  ceilDiv ((s.denClose b x + passTimeOf (colsOf (s.fldN Fld.xfmChNLog2 b x.val))) * 1000000000) unitsPerSec

/-- The DEN registers (R359, R360). -/
def State.denReg (s : State) (b : BayNo) (off : Nat) : Word :=
  let x : Fin 2 := ⟨off / 4 % 2, by omega⟩
  let d := (s.bay b).den.chans[x]
  match off / 8 with
  | 2 => wd (bitW d.enabled + 2 * bitW d.bankB + 4 * bitW (d.old.any fun o => !o.passing) + 8 * bitW (d.old.any (·.passing)) +
      16 * bitW (decide (d.saturated > 0)) + 32 * (if d.enabled then d.info.cols else 0))
  | 4 => d.frames
  | 5 => d.drops
  | 6 => d.merged
  | 7 => wd (d.saturated % 1048576)
  | 8 => d.specs
  | 9 => wd (s.denLmin b x)
  | _ => 0

end Sys2Proof.Machine
end

