-- ==== Sys2Proof/Machine/Xfm.lean ====
section
/-! DEFINITION. The transform engine: frames, spectra, SPECTRUM records, traces and taps (R239 to R290). -/
namespace Sys2Proof.Machine

/-! ### Frames -/

/-- Samples in a hop. -/
def GridRun.hop (g : GridRun) : Nat := 2 ^ (g.n - g.m)

/-- The first sample of the next frame of a run (R240, R241). -/
def GridRun.frameAt (g : GridRun) : Nat := g.frame * g.hop

/-- The run has no further frame: none starts inside a gap (R243). -/
def GridRun.spent (g : GridRun) : Bool :=
  match g.cut with
  | none => false
  | some q => decide (q ≤ g.frameAt)

/-- The delivered samples of the next frame, as stretches of outputs of ports, oldest first: port, first output, how many (R229, R241,
R243). -/
def GridRun.pieces (g : GridRun) : List (Port × Nat × Nat) :=
  let legs := g.legs.reverse
  let lo := max g.frameAt g.resume
  let hi := min (g.frameAt + 2 ^ g.n) (g.cut.getD (g.frameAt + 2 ^ g.n))
  legs.zipIdx.filterMap fun e =>
    let a := max e.1.at_ lo
    let z := match legs[e.2 + 1]? with
      | some l => min l.at_ hi
      | none => hi
    if a < z then some (e.1.port, (e.1.output a).toNat, z - a) else none

/-- The N samples of the next frame, from the input samples `ins` that each piece takes in: zeros before the resume and from a gap on
(R241, R243). -/
def State.frameSamples (s : State) (b : BayNo) (g : GridRun) (ins : List (List Sample)) : List (Int × Int) :=
  let mid := (g.pieces.zip ins).flatMap fun e =>
    let (p, n, count) := e.1
    (List.range count).map fun k => s.output b p ((s.bay b).ddc[p].needs n count).1 e.2 (n + k)
  let ys := List.replicate (g.resume - g.frameAt) (0, 0) ++ mid
  ys ++ List.replicate (2 ^ g.n - ys.length) (0, 0)

/-- The lists of input samples fit the pieces of the next frame. -/
def State.framesFit (s : State) (b : BayNo) (g : GridRun) (ins : List (List Sample)) : Bool :=
  decide (ins.length = g.pieces.length) && (g.pieces.zip ins).all fun e => decide (e.2.length = ((s.bay b).ddc[e.1.1].needs e.1.2.1 e.1.2.2).2)

/-- The start of the epoch whose spectra channel `x` counts at a centre time: the current one's once the time lies in it, and for a
replay the recording's (R272, R513). -/
def State.indexStart (s : State) (b : BayNo) (x : Fin 2) (m : Stamp) : Stamp :=
  if s.replayed b (s.chanPort b x) then s.epochStartOn b (s.chanPort b x) m
  else if stampLe (s.bay b).tbs.epochStart m then (s.bay b).tbs.epochStart else (s.bay b).xfm.chans[x].indexEpoch

/-- The spectrum of the next frame of a run (R241, R243, R254, R257, R228, R177). -/
def State.frameSpec (s : State) (b : BayNo) (x : Fin 2) (g : GridRun) (ins : List (List Sample)) : Spec :=
  let c := (s.bay b).xfm.chans[x]
  let q := g.frameAt
  let a := s.gridStamp b g q
  let m := s.gridStamp b g (q + 2 ^ g.n / 2)
  let e := s.gridStamp b g (q + 2 ^ g.n)
  let dflt := s.confNow b x a
  let cm := confAt c.confs dflt m
  let ca := confAt c.confs dflt a
  let cf := { cm with window := ca.window, param := ca.param, port := (g.legAt (q + 2 ^ g.n / 2)).port }
  let trunc := g.first || (match g.cut with
    | none => false
    | some z => decide (z < q + 2 ^ g.n))
  let fresh := decide (s.indexStart b x m ≠ c.indexEpoch)
  { data := s.transform b cf g.k (s.frameSamples b g ins), centre := m, start := a, stop := e, conf := cf, n := g.n, m := g.m, k := g.k
    settling := g.pieces.any fun w => (s.bay b).ddc[w.1].invalidIn w.2.1 (w.2.1 + w.2.2) ||
      c.runs.any fun r => decide (r.1 = w.1 ∧ r.2.1 < w.2.1 + w.2.2 ∧ w.2.1 < r.2.2)
    truncated := trunc, gapBefore := g.first
    overload := g.pieces.any fun w => s.overloadOn b w.1 ((s.bay b).ddc[w.1].stampOf w.2.1) ((s.bay b).ddc[w.1].stopOf w.2.1 w.2.2)
    holdover := inSpans s.sel.episodes m
    index := if fresh then 0 else c.index, serial := c.serial }

/-! ### SPECTRUM records -/

/-- A 16-bit value. -/
def half (v : Int) : BitVec 16 := BitVec.ofInt 16 v

/-- Sixteen-bit values packed two to a word, the first in the low half. -/
def packHalves : List (BitVec 16) → List Word
  | [] => []
  | [a] => [(0 : BitVec 16) ++ a]
  | a :: b :: r => (b ++ a) :: packHalves r

/-- The log power of bin `i` of a spectrum, 0x8000 outside the transform (R259, R263). -/
def Spec.bin (sp : Spec) (i : Int) : Int :=
  let k := i + 2 ^ sp.n / 2
  if 0 ≤ k ∧ k < 2 ^ sp.n then sp.data.log k.toNat else -32768

/-- The bins of a run. -/
def Spec.bins (sp : Spec) (first : Int) (count : Nat) : List (BitVec 16) :=
  (List.range count).map fun (j : Nat) => half (sp.bin (first + j))

/-- The SPECTRUM descriptor (R280); `w7` is the part count, or the exponent and format of a tap slot. -/
def State.specDescriptor (s : State) (b : BayNo) (x : Fin 2) (sp : Spec) (first : Int) (count w7 : Nat) : List Word :=
  let c := sp.conf
  [wd (sp.n + 32 * sp.m + 256 * c.window + 2048 * c.preset + 8192 * sp.k + 262144 * s.pkgN Fld.clkFAdc +
     1048576 * c.port.val + 4194304 * x.val),
   Word.ofSigned first, wd count, c.ftw.extractLsb' 0 32,
   wd ((c.ftw.extractLsb' 32 16).toNat + 65536 * c.step + 2097152 * c.trim), wd sp.index, wd (s.enbw b c sp.n), wd w7]

/-- The flags of a spectrum. -/
def Spec.flags (sp : Spec) : BitVec 8 :=
  flagIf sp.settling flagSettling ||| flagIf sp.truncated flagTruncated ||| flagIf sp.gapBefore flagGapBefore |||
    flagIf sp.overload flagOverload ||| flagIf sp.holdover flagHoldover

/-- Emit a spectrum as SPECTRUM records, in parts of 65 536 bins (R272, R273, R280). Answers the SEQ of the first. -/
def State.emitSpec (s : State) (b : BayNo) (x : Fin 2) (sp : Spec) : Word × State :=
  let r := binRun (s.fld Fld.xfmChBinFirst b x.val) (s.fldN Fld.xfmChBinCount b x.val) sp.conf.preset sp.n
  let parts := ceilDiv r.2 65536
  let seq := Sparse.get 0 (s.bay b).que.seqs (seqKey x.val .spectrum)
  (seq, (List.range parts).foldl (fun s (k : Nat) =>
    let first := r.1 + 65536 * k
    let n := min 65536 (r.2 - 65536 * k)
    s.enqueue b (s.fldN Fld.xfmChSpecQueue b x.val)
      { typ := .spectrum, source := x.val, flags := sp.flags, stamp := sp.centre
        w6lo := if sp.settling then 0xFFFF else 0, w6hi := BitVec.ofNat 16 k
        payload := s.specDescriptor b x sp first n parts ++ packHalves (sp.bins first n) }) s)

/-- A spectrum is selected by a trigger (R320). -/
def XfmChan.picksIt (c : XfmChan) (n : Nat) : Bool := c.picks.any fun p => decide (p.first ≤ n ∧ n ≤ p.last)

/-- Emit the spectra in the history that triggers have selected and that have not left yet, oldest first (R272, R320). -/
def State.emitPicked (s : State) (b : BayNo) (x : Fin 2) : State :=
  if s.fldN Fld.xfmChSpecMode b x.val ≠ 2 then s
  else
    let c := (s.bay b).xfm.chans[x]
    let (hist, s1) := c.history.reverse.foldl (fun (acc : List (Spec × Option Word) × State) e =>
      if e.2.isNone && c.picksIt e.1.serial then
        let (q, t) := acc.2.emitSpec b x e.1
        ((e.1, some q) :: acc.1, t)
      else (e :: acc.1, acc.2)) ([], s)
    s1.modChan b x fun c => { c with history := hist }

/-! ### Traces -/

/-- The settings of a new trace interval (R261, R271). -/
def State.newIval (s : State) (b : BayNo) (t : Fin 16) (start : Stamp) : TraceIval :=
  let n := s.fldN Fld.xfmTPoints b t.val
  { start := start, stop := none, detector := s.fldN Fld.xfmTDetector b t.val, points := n
    binFirst := s.fld Fld.xfmTBinFirst b t.val, binCount := s.fldN Fld.xfmTBinCount b t.val
    useMarked := s.fldN Fld.xfmTUseMarked b t.val, interval := s.fldN Fld.xfmTInterval b t.val, included := 0
    excluded := 0
    acc := List.replicate n { high := -32768, low := 32767, last := -32768, power := 0, perEnbw := 0, logs := 0, bins := 0 }
    last := none, mixed := false, settling := false, truncated := false, overload := false
    gap := (s.bay b).xfm.chans[t.val / 8]'(by omega) |>.gap.isSome }

/-- End the last interval at its full length as often as `at_` lies beyond it (R261). -/
def rollIvals (fresh : Stamp → TraceIval) (at_ : Stamp) : Nat → List TraceIval → List TraceIval
  | 0, vs => vs
  | fuel + 1, vs =>
    match vs.reverse with
    | [] => vs
    | v :: rest =>
      let e := later v.start (durOf v.interval 100000000)
      if v.interval = 0 ∨ v.stop.isSome ∨ stampLt at_ e then vs
      else rollIvals fresh at_ fuel ((fresh e :: { v with stop := some e } :: rest).reverse)

/-- A trace's intervals brought up to a stamp. -/
def State.rollTrace (s : State) (b : BayNo) (t : Fin 16) (at_ : Stamp) : State :=
  let y := (s.bay b).xfm.traces[t]
  let fuel := match y.ivals.reverse with
    | v :: _ => if v.interval = 0 then 0 else (at_ - v.start).toNat / max 1 (durOf v.interval 100000000) + 1
    | [] => 0
  s.modTrace b t fun y => { y with ivals := rollIvals (s.newIval b t) at_ fuel y.ivals }

/-- What a trace does at an epoch boundary: the interval in progress ends there, and the next starts under the settings
then in force; the traces of a channel that does not transform have none (R244, R261, R271). -/
def State.traceBoundary (s : State) (b : BayNo) (t : Fin 16) (at_ : Stamp) : State :=
  s.modTrace b t fun y =>
    let vs := y.ivals.map fun v => if v.stop.isNone then { v with stop := some at_ } else v
    { y with emptyTold := false
             ivals := if s.fldB Fld.xfmTEn b t.val && s.transforms b ⟨t.val / 8, by omega⟩ then vs ++ [s.newIval b t at_] else vs }

/-- Add the bins of a point to its reduction (R262 to R264). -/
def PointAcc.add (a : PointAcc) (sp : Spec) (enbw lo hi : Nat) (first : Int) : PointAcc :=
  let a1 := (List.range (hi - lo + 1)).foldl (fun a j =>
    let i := first + (lo + j : Nat)
    let k := i + 2 ^ sp.n / 2
    if 0 ≤ k ∧ k < 2 ^ sp.n then
      let p := sp.data.powers.getD k.toNat 0
      let l := sp.data.log k.toNat
      { a with high := max a.high l, low := min a.low l, power := a.power + p, perEnbw := a.perEnbw + p * 65536 / max 1 enbw
               logs := a.logs + l, bins := a.bins + 1 }
    else a) a
  { a1 with last := sp.bin (first + ((lo + hi) / 2 : Nat)) }

/-- Include a spectrum in an interval, or count it as excluded (R264, R266, R267, R271). -/
def TraceIval.take (v : TraceIval) (sp : Spec) (enbw : Nat) : TraceIval :=
  if (sp.settling && !v.useMarked.testBit 0) || (sp.truncated && !v.useMarked.testBit 1) then
    { v with excluded := v.excluded + 1 }
  else
    let r := binRun v.binFirst v.binCount sp.conf.preset sp.n
    { v with
      included := v.included + 1
      acc := v.acc.zipIdx.map fun e =>
        let lo := e.2 * r.2 / v.points
        let hi := if v.points ≤ r.2 then (e.2 + 1) * r.2 / v.points - 1 else lo
        e.1.add sp enbw lo hi r.1
      last := some sp
      mixed := v.mixed || (match v.last with
        | none => false
        | some l => confDiffers l.conf sp.conf)
      settling := v.settling || sp.settling, truncated := v.truncated || sp.truncated, overload := v.overload || sp.overload }

/-- A centre time lies in an interval. -/
def TraceIval.holds (v : TraceIval) (t : Stamp) : Bool :=
  stampLe v.start t && (match v.stop with
    | none => true
    | some e => stampLt t e)

/-- A spectrum reaches a trace: it belongs to the interval of its centre time (R261). -/
def State.traceTake (s : State) (b : BayNo) (t : Fin 16) (sp : Spec) (enbw : Nat) : State :=
  let s1 := s.rollTrace b t sp.centre
  s1.modTrace b t fun y => { y with ivals := y.ivals.map fun v => if v.holds sp.centre then v.take sp enbw else v }

/-- The value of a point (R264): 0x8000 where no bin contributed. -/
def PointAcc.value (a : PointAcc) (detector included : Nat) : Int :=
  if a.bins = 0 then -32768
  else
    match detector with
    | 0 => a.high
    | 1 => a.low
    | 2 => a.last
    | 3 => logPower a.power (a.bins * 2 ^ 96)
    | 4 => logPower a.perEnbw (max 1 included * 2 ^ 96)
    | _ => divRound a.logs a.bins

/-- The settings an EMPTY record reports for its last included spectrum, which the spec leaves open: free values (log
entry 10). -/
def State.emptySettings (s : State) (b : BayNo) (x : Fin 2) : (FrameConf × Word) × State :=
  let (v, s1) := s.takeFree 128
  (({ s.confNow b x 0 with
      window := (v.extractLsb' 0 3).toNat, preset := (v.extractLsb' 3 2).toNat, ftw := v.extractLsb' 5 48
      step := (v.extractLsb' 53 5).toNat, trim := (v.extractLsb' 58 7).toNat }, v.extractLsb' 65 32), s1)

/-- Form the TRACE record of an interval and hand it over (R266 to R271, R281, R282). -/
def State.emitTrace (s : State) (b : BayNo) (t : Fin 16) (v : TraceIval) (stop : Stamp) : State :=
  let x : Fin 2 := ⟨t.val / 8, by omega⟩
  let empty := decide (v.included = 0)
  let ((cf, e), s0) := match v.last with
    | some l => ((l.conf, wd (s.enbw b l.conf l.n)), s)
    | none => s.emptySettings b x
  let n := (v.last.map (·.n)).getD (s.fldN Fld.xfmChNLog2 b x.val)
  let m := (v.last.map (·.m)).getD (s.fldN Fld.xfmChOverlapLog2 b x.val)
  let k := (v.last.map (·.k)).getD (s.decim b (s.chanPort b x))
  let r := binRun v.binFirst v.binCount (if empty then s.fldN Fld.ddcPreset b (s.chanPort b x).val else cf.preset) n
  let len := (stop - v.start).toNat / 2 ^ 32
  let desc : List Word :=
    [wd (t.val + 16 * v.detector + 128 * cf.window + 1024 * n + 32768 * m + 262144 * cf.preset + 1048576 * k +
       33554432 * bitW v.mixed), Word.ofSigned r.1, wd r.2, wd v.points, wd v.included, wd v.excluded] ++
    words64 (BitVec.ofNat 64 len) ++
    [cf.ftw.extractLsb' 0 32, wd ((cf.ftw.extractLsb' 32 16).toNat + 65536 * cf.step + 2097152 * cf.trim), e, 0, 0, 0, 0, 0]
  let body : RecBody :=
    { typ := .trace, source := 0x20 + t.val, domain := if s.fldB Fld.xfmTSeal b t.val then 0 else 1, stamp := v.start
      flags := flagIf v.settling flagSettling ||| flagIf v.truncated flagTruncated ||| flagIf v.gap flagGapBefore |||
        flagIf v.overload flagOverload
      w6hi := if empty then 1 else 0
      payload := desc ++ packHalves (v.acc.map fun a => half (a.value v.detector v.included)) }
  let told := (s0.bay b).xfm.traces[t].emptyTold
  let s1 := s0.modTrace b t fun y =>
    { y with
      count := y.count + 1, empty := empty, emptyTold := y.emptyTold || empty
      shown := some (if empty then [] else v.acc.map fun a => a.value v.detector v.included) }
  let s2 := s1.enqueue b (s1.fldN Fld.xfmTQueue b t.val) body
  if empty && !told then s2.event b 0x0603 [wd t.val] else s2

/-- A frame of channel `x` whose centre time lies before `e` has not been computed yet (R247, R261). -/
def State.framesPending (s : State) (b : BayNo) (x : Fin 2) (e : Stamp) : Bool :=
  match ((s.bay b).xfm.chans[x].grids.dropWhile GridRun.spent).head? with
  | none => false
  | some g => stampLt (s.gridStamp b g (g.frameAt + 2 ^ g.n / 2)) e

/-- TRACE_INTERVAL_END (R261, R268, R269): the oldest interval of trace `t` ends, once the spectra that belong to it have been computed,
and its record is formed. -/
def execTraceIntervalEnd (b : BayNo) (t : Fin 16) (s0 : State) : Out :=
  match (s0.bay b).xfm.traces[t].ivals with
  | [] => .next s0
  | v :: rest =>
    if !s0.alive b then .next s0
    else if !s0.transforms b ⟨t.val / 8, by omega⟩ then .next (s0.modTrace b t fun y => { y with ivals := rest })
    else
      match v.stop with
      | some e =>
        if s0.framesPending b ⟨t.val / 8, by omega⟩ e then .next s0
        else .next ((s0.modTrace b t fun y => { y with ivals := rest }).emitTrace b t v e)
      | none =>
        let e := later v.start (durOf v.interval 100000000)
        if v.interval = 0 || s0.framesPending b ⟨t.val / 8, by omega⟩ e then .next s0
        else
          let s := s0.reach e
          .next ((s.modTrace b t fun y => { y with ivals := rest ++ [s.newIval b t e] }).emitTrace b t v e)

/-! ### Taps -/

/-- The slot of a tap: header, descriptor and bins (R276, R278, R279). -/
def State.tapSlot (s : State) (b : BayNo) (c : CoreNo) (x : Fin 2) (sp : Spec) : List Word × BitVec 8 :=
  let r := s.tapRun b c sp.conf.preset sp.n
  let cplx := s.fldB Fld.xfmTapFormat b c.val
  let i0 := (r.1 + 2 ^ sp.n / 2).toNat
  let bins := if cplx then (sp.data.complex.drop i0).take r.2 else packHalves (sp.bins r.1 r.2)
  let n := Sparse.get 0 (s.bay b).que.seqs (seqKey x.val .spectrum)
  let h := s.mkRec b
    { typ := .spectrum, source := x.val, flags := sp.flags, domain := if s.sealedCore b c then 0 else 1, stamp := sp.centre
      w6lo := if sp.settling then 0xFFFF else 0
      payload := s.specDescriptor b x sp r.1 r.2 (if cplx then sp.data.expo.toNat + 256 else 0) ++ bins } n
  (h.header ++ [if s.sealedCore b c then 0 else h.crc] ++ h.payload, h.flags)

/-- Change one tap. -/
def State.modTap (s : State) (b : BayNo) (c : CoreNo) (f : Tap → Tap) : State :=
  s.modBay b fun y => { y with xfm := { y.xfm with taps := y.xfm.taps.set c (f y.xfm.taps[c]) } }

/-- A drop of a tap (R277). -/
def State.tapDrop (s : State) (b : BayNo) (c : CoreNo) : State :=
  let told := (s.bay b).xfm.taps[c].told
  let s1 := (s.modTap b c fun t => { t with dropped := t.dropped + 1, told := true }).modCore b c fun k =>
    { k with floodReq := k.floodReq || k.ebbed }
  if told then s1 else s1.event b 0x0604 [wd c.val, wd (s1.bay b).xfm.taps[c].dropped.toNat]

/-- A spectrum reaches tap `c` of its channel (R275, R277, R279, R420). -/
def State.tapTake (s : State) (b : BayNo) (c : CoreNo) (x : Fin 2) (sp : Spec) : State :=
  if !s.fldB Fld.xfmTapEn b c.val || decide (s.tapChan b c ≠ x) || decide (sp.index % max 1 (s.fldN Fld.xfmTapDecim b c.val) ≠ 0) then s
  else
    let k := s.core b c
    let base := s.fldN Fld.xfmTapBase b c.val
    let slots := s.fldN Fld.xfmTapSlots b c.val
    let wr := k.peekWord base
    let rd := k.peekWord (base + 4)
    if (s.bay b).xfm.taps[c].writing || !s.coreAwake b c || decide (slots ≤ (wr - rd).toNat) then s.tapDrop b c
    else
      let (ws, fl) := s.tapSlot b c x sp
      let s1 := s.modCore b c fun k => (k.pokeWords (base + 32 + wr.toNat % slots * s.tapSlotSize b c) ws).noteFlags fl
      s1.modTap b c fun t => { t with writing := true }

/-- TAP_SLOT_WRITTEN (R277): tap `c` ends writing its slot; WRITE_IDX advances and line TAP is raised. -/
def execTapSlotWritten (b : BayNo) (c : CoreNo) (s : State) : Out :=
  if !s.alive b || !(s.bay b).xfm.taps[c].writing then .next s
  else
    let base := s.fldN Fld.xfmTapBase b c.val
    let s1 := s.modCore b c fun k => k.pokeWords base [k.peekWord base + 1]
    let s2 := s1.modTap b c fun t => { t with writing := false, written := t.written + 1 }
    .next (s2.raiseLine b c 0)

/-! ### SPECTRUM_READY -/

/-- Hand a spectrum to the traces of its channel, the density grid, the taps and the SPECTRUM path. -/
def State.distribute (s : State) (b : BayNo) (x : Fin 2) (sp : Spec) : State :=
  let e := s.enbw b sp.conf sp.n
  let s1 := (List.finRange 16).foldl (fun s t => if t.val / 8 = x.val then s.traceTake b t sp e else s) s
  let s2 := s1.modDen b x fun d => d.take sp
  let s3 := (List.finRange 8).foldl (fun s c => s.tapTake b c x sp) s2
  match s3.fldN Fld.xfmChSpecMode b x.val with
  | 1 => if sp.index % max 1 (s3.fldN Fld.xfmChSpecDecim b x.val) = 0 then (s3.emitSpec b x sp).2 else s3
  | 2 => s3.emitPicked b x
  | _ => s3

/-- The package as the last output of the next frame of a run leaves the port: the frame's spectrum is ready then (R247). -/
def State.atFrame (s : State) (b : BayNo) (g : GridRun) : State :=
  match g.pieces.getLast? with
  | some w => s.reach (s.leaves b w.1 (w.2.1 + w.2.2 - 1))
  | none => s

/-- SPECTRUM_READY (R239 to R246, R256 to R259, R272): the spectrum of the next frame of channel `x` is ready; `ins` are the input
samples that its pieces take in. -/
def execSpectrumReady (b : BayNo) (x : Fin 2) (ins : List (List Sample)) (s0 : State) : Out :=
  match ((s0.bay b).xfm.chans[x].grids.dropWhile GridRun.spent) with
  | [] => .next s0
  | g :: rest =>
    if !s0.alive b || !(s0.bay b).pwr.datapath || !s0.framesFit b g ins then .next s0
    else
      let s := s0.atFrame b g
      let sp := s.frameSpec b x g ins
      let s1 := s.modChan b x fun c =>
        { c with
          grids := { g with frame := g.frame + 1, first := false } :: rest
          specCount := c.specCount + 1
          settlingCount := if sp.settling then c.settlingCount + 1 else c.settlingCount
          truncatedCount := if sp.truncated then c.truncatedCount + 1 else c.truncatedCount
          index := sp.index + 1
          indexEpoch := s.indexStart b x sp.centre
          serial := c.serial + 1
          history := ((sp, none) :: c.history).take 33
          picks := c.picks.filter fun p => decide (c.serial ≤ p.last + 33) }
      .next (s1.distribute b x sp)

/-! ### Spectrum selection by a trigger -/

/-- The serial number of spectrum 0 of a trigger: the latest one whose centre time is at or before the instant (R320). -/
def State.specZero (s : State) (b : BayNo) (x : Fin 2) (t : Stamp) : Option Int :=
  let c := (s.bay b).xfm.chans[x]
  match c.grids.reverse with
  | [] => none
  | g :: _ =>
    let f := (((s.gridIndex b g (later t 1) : Nat) : Int) - 1 - (2 ^ g.n / 2 : Nat)) / (g.hop : Int)
    some ((c.serial : Int) + f - g.frame)

/-- Select spectra around a trigger instant in mode 2; answers how many stand before and after spectrum 0 and the SEQ of
the first selected SPECTRUM record (R320, R329). -/
def State.pickSpectra (s : State) (b : BayNo) (x : Fin 2) (t : Stamp) (pre post : Nat) : (Nat × Nat × Word) × State :=
  if s.fldN Fld.xfmChSpecMode b x.val ≠ 2 then ((0, 0, 0), s)
  else
    match s.specZero b x t with
    | none => ((0, 0, 0), s)
    | some z =>
      let first := (max 0 (z - pre)).toNat
      let last := (max 0 (z + post)).toNat
      let c := (s.bay b).xfm.chans[x]
      let seq0 := Sparse.get 0 (s.bay b).que.seqs (seqKey x.val .spectrum)
      let ahead := ((List.range (first - c.serial)).filter fun i => c.picksIt (c.serial + i)).length
      let gone := c.history.find? fun e => decide (e.1.serial = first)
      let s1 := (s.modChan b x fun c => { c with picks := c.picks ++ [{ first := first, last := last }] }).emitPicked b x
      let seq := match gone with
        | some (_, some q) => q
        | _ => match (s1.bay b).xfm.chans[x].history.find? fun e => decide (e.1.serial = first) with
          | some (_, some q) => q
          | _ => seq0 + wd ahead
      ((pre, post, seq), s1)

/-! ### Registers (R288, R289) -/

/-- XFM_CH_STATUSx. -/
def State.xfmStatus (s : State) (b : BayNo) (x : Fin 2) : Word :=
  let c := (s.bay b).xfm.chans[x]
  wd (bitW (s.transforms b x) + 2 * bitW (c.grids.any fun g => g.cut.isNone) + 4 * bitW c.gap.isSome +
    8 * s.fldN Fld.xfmChNLog2 b x.val + 256 * s.fldN Fld.xfmChOverlapLog2 b x.val + 2048 * c.window)

/-- The XFM registers. -/
def State.xfmReg (s : State) (b : BayNo) (off : Nat) : Word :=
  let x : Fin 2 := ⟨off / 4 % 2, by omega⟩
  let c := (s.bay b).xfm.chans[x]
  let gains := s.windowGains b c.window c.param (s.fldN Fld.xfmChNLog2 b x.val)
  if off = 0 then wd (s.xfmLoad b % 131072)
  else if off = 0x10 ∨ off = 0x14 then s.xfmStatus b x
  else if off = 0x20 ∨ off = 0x24 then c.specCount
  else if off = 0x28 ∨ off = 0x2C then c.truncatedCount ++ c.settlingCount
  else if off = 0x30 ∨ off = 0x34 then wd gains.1
  else if off = 0x38 ∨ off = 0x3C then wd gains.2
  else if 0x40 ≤ off ∧ off < 0x80 then ((s.bay b).xfm.traces[off / 4 % 16]'(Nat.mod_lt _ (by decide))).count
  else if off = 0x80 then
    wd (((s.bay b).xfm.traces.toList.zipIdx).foldl (fun n e => n + 2 ^ e.2 * bitW e.1.empty) 0)
  else if 0xA0 ≤ off ∧ off < 0xC0 then
    let t := (s.bay b).xfm.taps[off / 4 % 8]'(Nat.mod_lt _ (by decide))
    t.dropped ++ t.written
  else 0

end Sys2Proof.Machine
end

