-- ==== Sys2Proof/Machine/Trg.lean ====
section
/-! DEFINITION. Triggers and acquisition: sources, qualification, arming, groups, segments, masks and trigger outputs (R291 to
R336). -/
namespace Sys2Proof.Machine

/-! ### Settings of a unit -/

/-- The unit runs (R291). -/
def State.unitOn (s : State) (b : BayNo) (u : Fin 8) : Bool := s.alive b && s.fldB Fld.trgUEn b u.val

/-- The unit's group, 0 for none. -/
def State.unitGroup (s : State) (b : BayNo) (u : Fin 8) : Nat := s.fldN Fld.trgUGroup b u.val

/-- The capture port of a unit. -/
def State.unitPort (s : State) (b : BayNo) (u : Fin 8) : Port := ⟨s.fldN Fld.trgUPort b u.val % 4, Nat.mod_lt _ (by decide)⟩

/-- The channel of a unit. -/
def State.unitChan (s : State) (b : BayNo) (u : Fin 8) : Fin 2 := ⟨s.fldN Fld.trgUChannel b u.val % 2, Nat.mod_lt _ (by decide)⟩

/-- This package holds the arbiter and the arming headland: it is in no shoal, or leads it (R304, R312). -/
def State.leads (s : State) : Bool := decide (s.pkgN Fld.lnlShoalSize ≤ 1) || decide (s.packageNo = 0)

/-- Every enabled unit of the live bays. -/
def State.allUnits (s : State) : List (BayNo × Fin 8) :=
  s.liveBays.flatMap fun b => ((List.finRange 8).filter fun u => s.fldB Fld.trgUEn b u.val).map fun u => (b, u)

/-! ### Trigger outputs -/

/-- A trigger reaches the headland for output pin `n`: in mode 1 the edge stands at the instant + delay, or 20 ns after
arrival when that is too late; in mode 2 it is issued at once (R326, R327). -/
def State.outFire (s : State) (n : Fin 2) (t : Stamp) : State :=
  let now := s.now
  let want := later t (ofNs (s.pkgN Fld.trgOutDelay n.val))
  match s.pkgN Fld.trgOutMode n.val with
  | 1 =>
    let late := stampLt (moved want (-(ofNs 20 : Int))) now
    let e := if late then later now (ofNs 20) else want
    let s1 := s.modTrg fun g => { g with outs := g.outs.set n { g.outs[n] with edges := g.outs[n].edges ++ [(coarse e, late)] } }
    if late then s1.event 0 0x0707 [wd n.val] else s1
  | 2 => s.modTrg fun g => { g with outs := g.outs.set n { g.outs[n] with edges := g.outs[n].edges ++ [(now, false)] } }
  | _ => s

/-- The trigger pins lie at the headland: bay `b` reaches it, and no split parts them (R21, R326). -/
def State.reachesHead (s : State) (b : BayNo) : Bool := s.alive 0 && s.reaches b 0 && s.sameSide b 0

/-- Report a trigger of a group, or of one unit, that comes from bay `src` to the outputs that follow it (R326). -/
def State.outFires (s : State) (src : BayNo) (group : Option Nat) (unitNo : Option Nat) (t : Stamp) : State :=
  if !s.reachesHead src then s
  else (List.finRange 2).foldl (fun s n =>
    let g := s.pkgN Fld.trgOutGroup n.val
    let hit := if g = 0 then decide (unitNo = some (s.pkgN Fld.trgOutUnit n.val)) else decide (group = some g)
    if hit then s.outFire n t else s) s

/-- TRIG_OUT_EDGE (R326, R327): the first scheduled edge of pin `n` is driven; it starts a pulse or extends the one under
way. -/
def execTrigOutEdge (n : Fin 2) (s0 : State) : Out :=
  match s0.trg.outs[n].edges with
  | [] => .next s0
  | (t, _) :: rest =>
    if !s0.alive 0 then .next s0
    else
      let s := s0.reach t
      let e := later t (ofNs (s.pkgN Fld.trgOutWidth n.val))
      let s1 := s.modTrg fun g =>
        { g with outs := g.outs.set n { edges := rest, level := true, pulseEnd := e } }
      .next (if s.trg.outs[n].level then s1 else s1.emit (.pin ("TRIG_OUT" ++ toString n.val) 0 true t))

/-- TRIG_OUT_PULSE_END (R327): the pulse of pin `n` ends. -/
def execTrigOutPulseEnd (n : Fin 2) (s0 : State) : Out :=
  let o := s0.trg.outs[n]
  if !o.level then .next s0
  else
    let s := s0.reach o.pulseEnd
    .next ((s.modTrg fun g => { g with outs := g.outs.set n { o with level := false } }).emit
      (.pin ("TRIG_OUT" ++ toString n.val) 0 false o.pulseEnd))

/-! ### The trigger -/

/-- Dead time in 2^-32 s. -/
def deadWords (u : Nat) : BitVec 64 := BitVec.ofNat 64 (u / 2 ^ 32)

/-- The TRIGGER record of a unit (R329, R330). -/
def State.trigBody (s : State) (b : BayNo) (u : Fin 8) (i : TrigInfo) (g : Option Segment) : RecBody :=
  let mark := g.isNone
  let f := i.fire
  let p := s.unitPort b u
  let ovl := g.any (·.overload) || s.overloadOn b p i.instant (later i.instant 1)
  { typ := .trigger, source := 0x40 + u.val, stamp := i.instant, gen := i.gen
    w6hi := BitVec.ofNat 16 (i.cause + 32768 * bitW i.coarse)
    flags := flagIf (i.settling || (g.any (·.settling))) flagSettling ||| flagIf (g.any (·.truncated)) flagTruncated |||
      flagIf (g.any (·.gapBefore)) flagGapBefore ||| flagIf ovl flagOverload ||| flagIf f.injected flagInjected
    payload :=
      [wd (i.source + 8 * f.group + 128 * f.unit.val + 1024 * f.bay.val + 8192 * f.package.toNat + 32768 * i.qual +
         131072 * bitW mark + 262144 * bitW i.maskDirty),
       i.cycle ++ i.number] ++ words64 (deadWords i.dead) ++
      [wd (min i.missed 0xFFFFFFFF), wd (min i.length 0xFFFFFFFF), wd ((g.map (·.pre)).getD 0), wd ((g.map (·.post)).getD 0),
       (g.map (·.seq)).getD 0,
       (match g with
        | none => 0
        | some x => wd (x.records % 65536 + 65536 * p.val + 262144 * bitW (s.fldB Fld.trgUFormat b u.val))),
       wd ((Word.ofSigned i.value).toNat % 65536), Word.ofSigned i.bin, wd (i.specPre + 65536 * i.specPost), i.word,
       i.specSeq, 0] }

/-- The arm cycle ends by its count: the unit starts a new one itself, or leaves the cycle (R304, R306). -/
def State.endByCount (s : State) (b : BayNo) (u : Fin 8) : State :=
  let n := s.fldN Fld.trgUCount b u.val
  if n = 0 ∨ (s.unit b u).number.toNat < n ∨ !(s.unit b u).inCycle then s
  else if s.fldB Fld.trgUAutoRearm b u.val then s
  else
    (s.modUnit b u fun y => { y with inCycle := false, state := if y.dead then y.state else .idle }).event b 0x0703 [wd u.val]

/-- A new cycle of a unit from `t` (R304, R306, R307). -/
def TrgUnit.arm (u : TrgUnit) (t : Stamp) : TrgUnit :=
  { u with
    inCycle := true, armedAt := t, cycle := u.cycle + 1, number := 0, missed := 0, deadUnits := 0, requested := none
    cond := u.cond.map fun c => { c with qualifying := false }
    state := if u.dead then u.state else .armed }

/-- The self-started cycle of a unit whose count is reached (R306). -/
def State.renewCycle (s : State) (b : BayNo) (u : Fin 8) (t : Stamp) : State :=
  let n := s.fldN Fld.trgUCount b u.val
  if n ≠ 0 ∧ n ≤ (s.unit b u).number.toNat ∧ s.fldB Fld.trgUAutoRearm b u.val then s.modUnit b u fun y => y.arm t else s

/-- The interrupt lines of the cores that follow the unit, and what they read of the trigger (R412, R406). -/
def State.trigLines (s : State) (b : BayNo) (u : Fin 8) (t : Stamp) : State :=
  (List.finRange 8).foldl (fun s c =>
    if inMask (s.fldN Fld.mcoCTrigUnits b c.val) u.val && !s.sealedCore b c then
      (s.modCore b c fun k => { k with trigUnit := u, trigCount := k.trigCount + 1, trigStamp := t }).raiseLine b c 3
    else s) s

/-- The segment that a trigger freezes: n_t is the last output of the port stamped at or before the instant. Where the instant lies in a
gap of the port, the segment holds what exists of the extent that the outputs before the gap would have had (R317, R319). -/
def State.newSegment (s : State) (b : BayNo) (u : Fin 8) (i : TrigInfo) : Segment :=
  let y := s.unit b u
  let d := (s.bay b).ddc[s.unitPort b u]
  let pre := s.fldN Fld.trgUPre b u.val
  let post := s.fldN Fld.trgUPost b u.val
  let after := d.numberFrom (later i.instant 1)
  let bare : Segment :=
    { info := i, pre := 0, post := 0, first := 0, last := none, truncated := true, gapBefore := true, overload := false, settling := false
      done := false, seq := 0, records := 0 }
  if !d.delivers || (decide (after = d.bornOf after) && stampLt i.instant (d.stampOf after)) then
    let e := d.ended.getD after
    let z := d.stretchOf (e - 1)
    let v := match z with
      | some z => (z.numberAt (later i.instant 1)).toNat
      | none => e
    let n := match y.liveFrom with
      | none => 0
      | some a => e - max a (v - pre)
    { bare with pre := n, first := e - n, last := some (match z with
      | some z => z.stampAt (((v + post : Nat) : Int) - 1)
      | none => i.instant) }
  else
    let held := match y.liveFrom with
      | none => 0
      | some a => after - a
    let n := min pre held
    { bare with
      pre := n, post := post, first := after - n, truncated := decide (held < pre)
      gapBefore := decide (held < pre) && (y.liveGap || y.liveFrom.isNone) }

/-- The unit triggers (R308 to R310, R312, R317, R320, R326, R412, R495). -/
def State.trigger (s : State) (b : BayNo) (u : Fin 8) (i : TrigInfo) : State :=
  let y := s.unit b u
  let x := s.unitChan b u
  let ((pre, post, seq), s0) := s.pickSpectra b x i.instant (s.fldN Fld.trgUSpecPre b u.val) (s.fldN Fld.trgUSpecPost b u.val)
  let mark := s.fldB Fld.trgUMarkOnly b u.val
  let first := decide (y.number = 0)
  let i1 := { i with
    number := y.number + 1, cycle := y.cycle, dead := if mark || first then 0 else y.deadUnits
    missed := if mark || first then 0 else y.missed, specPre := pre, specPost := post, specSeq := seq }
  let s1 := s0.modUnit b u fun y =>
    { y with number := y.number + 1, count := y.count + 1, lastInstant := i.instant, missed := 0, requested := none
             cond := y.cond.map fun c => { c with qualifying := false } }
  let s2 :=
    if mark then (s1.modUnit b u fun y => { y with state := .armed }).enqueue b (s1.fldN Fld.trgUQueue b u.val) (s1.trigBody b u i1 none)
    else s1.modUnit b u fun y =>
      { y with state := .post, segments := y.segments ++ [s1.newSegment b u i1], liveFrom := none, liveGap := false
               holdoffTo := later i.instant (ofNs (s1.fldN Fld.trgUHoldoff b u.val)) }
  let s3 := ((s2.trigLines b u i.instant).freezeRegion b u i.instant).outFires b none (some (8 * b.val + u.val)) i.instant
  let s4 := s3.endByCount b u
  if mark then s4.renewCycle b u i.instant else s4

/-- A missed trigger (R309). -/
def State.missTrigger (s : State) (b : BayNo) (u : Fin 8) : State :=
  let told := (s.unit b u).missedTold
  let s1 := s.modUnit b u fun y => { y with missed := y.missed + 1, missedCount := y.missedCount + 1, missedTold := true }
  if told then s1 else s1.event b 0x0704 [wd u.val]

/-- What the unit's own event says before it triggers. -/
def State.ownInfo (s : State) (b : BayNo) (u : Fin 8) (t : Stamp) (cause : Nat) : TrigInfo :=
  { instant := t, cause := cause
    fire := { group := s.unitGroup b u, instant := t, package := s.packageNo, bay := b, unit := u, forced := decide (cause = 3) }
    number := 0, cycle := 0, dead := 0, missed := 0, length := 0, value := 0, bin := 0, word := 0, settling := false
    coarse := (s.bay b).tbs.tdcCoarse && decide (s.fldN Fld.trgUSource b u.val ≥ 5)
    gen := if s.fldN Fld.trgUSource b u.val = 3 then (s.unit b u).copy.gen else 0
    maskDirty := decide (s.fldN Fld.trgUSource b u.val = 3) && (s.unit b u).copy.dirty
    source := s.fldN Fld.trgUSource b u.val
    qual := s.fldN Fld.trgUQual b u.val, specPre := 0, specPost := 0, specSeq := 0 }

/-- A fire request leaves for the arbiter: in the headland of this package, of the shoal leader, or
in the time holder of an island; without a route there it goes nowhere (R21, R312, R612). -/
def State.sendRequest (s : State) (f : Fire) : State :=
  if !s.reaches f.bay (s.sideHolder f.bay) then s
  else if s.leads || (s.bay f.bay).lnl.island.isSome then s.modTrg fun g => { g with requests := g.requests ++ [f] }
  else s.emit (.packet "FIRE_REQUEST" 0
    ([wd (f.group + 16 * f.unit.val + 128 * f.bay.val + 1024 * f.package.toNat + 4096 * bitW f.forced)] ++ stampWords f.instant))

/-- The unit's event (R304, R308, R309, R312): it counts from t_A on; a dead unit misses it; a member of a group asks the
arbiter. -/
def State.unitEvent (s : State) (b : BayNo) (u : Fin 8) (i : TrigInfo) : State :=
  let y := s.unit b u
  if !y.inCycle || stampLt i.instant y.armedAt then s
  else if y.dead then s.missTrigger b u
  else if s.unitGroup b u = 0 then s.trigger b u i
  else (s.modUnit b u fun y => { y with requested := some i, state := .armed }).sendRequest i.fire

/-! ### Conditions -/

/-- What a unit evaluates at one sample or spectrum: whether the condition's start and end tests hold, the instants that go
with them, the value and bin, and whether the input is marked. -/
structure Look where
  begins : Bool
  ends : Bool
  startAt : Stamp
  endAt : Stamp
  plain : Stamp
  value : Int
  bin : Int
  gen : BitVec 16
  dirty : Bool
  deriving DecidableEq, Repr

/-- The event of a condition that has qualified. -/
def State.condEvent (s : State) (b : BayNo) (u : Fin 8) (c : Condition) (length : Nat) : State :=
  s.unitEvent b u { s.ownInfo b u c.start 0 with
    length := length, value := c.value, bin := c.bin, settling := c.settling, gen := c.gen, maskDirty := c.dirty }

/-- The condition becomes true (R300). -/
def State.condStart (s : State) (b : BayNo) (u : Fin 8) (c : Condition) : State :=
  let q := s.fldN Fld.trgUQual b u.val
  let s1 := s.modUnit b u fun y =>
    { y with
      isTrue := some true, marked := false, cond := some { c with qualifying := decide (q ≠ 0) }
      state := if q ≠ 0 ∧ y.state = .armed then .qualifying else y.state }
  if q = 0 then s1.condEvent b u c 0 else s1

/-- A duration in whole ns between two stamps. -/
def nsBetween (a t : Stamp) : Nat := if stampLe a t then toNs (t - a).toNat else 0

/-- The condition becomes false at `t` (R300). -/
def State.condEnd (s : State) (b : BayNo) (u : Fin 8) (t : Stamp) : State :=
  match (s.unit b u).cond with
  | none => s.modUnit b u fun y => { y with isTrue := some false, marked := false }
  | some c =>
    let s1 := s.modUnit b u fun y =>
      { y with isTrue := some false, marked := false, cond := none, state := if y.state = .qualifying then .armed else y.state }
    let d := stampDiff t c.start
    let lo : Int := ofNs (s.fldN Fld.trgUDMin b u.val)
    let hi : Int := ofNs (s.fldN Fld.trgUDMax b u.val)
    let ok := match s.fldN Fld.trgUQual b u.val with
      | 2 => decide (d ≤ hi)
      | 3 => decide (lo ≤ d ∧ d ≤ hi)
      | _ => false
    if c.qualifying && ok then s1.condEvent b u c (nsBetween c.start t) else s1

/-- Evaluate one sample or spectrum (R292, R299). The first one after a resume sets the state without an event. -/
def State.evaluate (s : State) (b : BayNo) (u : Fin 8) (l : Look) : State :=
  let y := s.unit b u
  match y.isTrue with
  | none => s.modUnit b u fun y => { y with isTrue := some l.begins, marked := false, cond := none }
  | some false =>
    if l.begins then
      s.condStart b u { start := if y.marked then l.plain else l.startAt, value := l.value, bin := l.bin, settling := y.marked
                        qualifying := false, gen := l.gen, dirty := l.dirty }
    else s.modUnit b u fun y => { y with marked := false }
  | some true =>
    if l.ends then s.condEnd b u (if y.marked then l.plain else l.endAt)
    else s.modUnit b u fun y => { y with marked := false }

/-- |x|² of a sample, where 32768² is full scale. -/
def Sample.square (x : Sample) : Nat := (x.i.toInt * x.i.toInt + x.q.toInt * x.q.toInt).toNat

/-- |x| in units of 2^-64 of full scale. -/
def Sample.magnitude (x : Sample) : Nat := rootOf (x.square * 2 ^ 98)

/-- The crossing of a level between two samples, interpolated linearly on magnitude and rounded to the nearest 2^-64 s
(R293). -/
def State.crossing (s : State) (b : BayNo) (p : Port) (o : LevelObs) (level : Int) : Stamp :=
  let a : Int := o.prev.magnitude
  let d : Int := (o.cur.magnitude : Int) - a
  let c : Int := magnitudeOf level
  let y := (s.bay b).ddc[p]
  let step := s.outStep b p
  if d = 0 then o.t
  else moved (y.stampOf (y.numberFrom o.t - 1)) (Exact.of ((c - a) * d.sign * step.num) (d.natAbs * step.den)).units

/-- The level condition at a sample (R292). -/
def State.levelLook (s : State) (b : BayNo) (u : Fin 8) (o : LevelObs) : Look :=
  let p := s.unitPort b u
  let t := s.fld Fld.trgULevel b u.val
  let h := s.fld Fld.trgUHyst b u.val
  let ge := fun l => levelGe o.cur.square (2 ^ 30) l
  let rising := decide (s.fldN Fld.trgUSlope b u.val = 0)
  let off := if rising then t - h else t + h
  { begins := if rising then ge t else !ge t, ends := if rising then !ge off else ge off
    startAt := s.crossing b p o t, endAt := s.crossing b p o off, plain := o.t
    value := logPower o.cur.square (2 ^ 30), bin := 0, gen := 0, dirty := false }

/-- The power of a bin run, bins outside the transform contributing nothing (R294). -/
def Spec.bandPower (sp : Spec) (first : Int) (count : Nat) : Nat :=
  (List.range count).foldl (fun n (j : Nat) =>
    let k := first + j + 2 ^ sp.n / 2
    if 0 ≤ k ∧ k < 2 ^ sp.n then n + sp.data.powers.getD k.toNat 0 else n) 0

/-- The band-power condition at a spectrum (R294). -/
def State.bandLook (s : State) (b : BayNo) (u : Fin 8) (sp : Spec) : Look :=
  let pw := sp.bandPower (s.fld Fld.trgUBinFirst b u.val) (s.fldN Fld.trgUBinCount b u.val)
  let l := logPower pw (2 ^ 96)
  let t := s.fld Fld.trgULevel b u.val
  let h := s.fld Fld.trgUHyst b u.val
  let rising := decide (s.fldN Fld.trgUSlope b u.val = 0)
  { begins := if rising then decide (t ≤ l) else decide (l < t)
    ends := if rising then decide (l < t - h) else decide (t + h ≤ l)
    startAt := sp.centre, endAt := sp.centre, plain := sp.centre, value := l, bin := 0, gen := 0, dirty := false }

/-- The excess of a bin over its mask, none where it does not violate (R295). -/
def maskExcess (entry : Word) (mode : Nat) (l : Int) : Option Int :=
  let up := (entry.extractLsb' 0 16).toInt
  let lo := (entry.extractLsb' 16 16).toInt
  if l = -32768 then none
  else if mode ≠ 1 ∧ up ≠ -32768 ∧ up < l then some (l - up)
  else if mode ≠ 0 ∧ lo ≠ -32768 ∧ l < lo then some (lo - l)
  else none

/-- The largest excess and its bin (R295, R329). -/
def Spec.worst (sp : Spec) (entries : List Word) (first : Int) (count mode : Nat) : Option (Int × Int) :=
  (List.range count).foldl (fun m (j : Nat) =>
    let e := entries.getD (j * entries.length / max 1 count) 0x80008000
    match maskExcess e mode (sp.bin (first + j)), m with
    | none, m => m
    | some x, none => some (x, first + j)
    | some x, some y => if y.1 < x then some (x, first + j) else some y) none

/-- The working copy that a spectrum meets: one whose frame started before the latest switch meets the copy before it (R323). -/
def TrgUnit.copyFor (y : TrgUnit) (sp : Spec) : MaskCopy :=
  match y.prior with
  | some (c, t) => if stampLt sp.start t then c else y.copy
  | none => y.copy

/-- The mask condition at a spectrum (R295). -/
def State.maskLook (s : State) (b : BayNo) (u : Fin 8) (sp : Spec) : Look :=
  let c := (s.unit b u).copyFor sp
  let w := sp.worst c.entries (s.fld Fld.trgUBinFirst b u.val) (s.fldN Fld.trgUBinCount b u.val)
    (s.fldN Fld.trgUMaskMode b u.val)
  { begins := w.isSome, ends := w.isNone, startAt := sp.centre, endAt := sp.centre, plain := sp.centre
    value := (w.map (·.1)).getD 0, bin := (w.map (·.2)).getD 0, gen := c.gen, dirty := c.dirty }

/-- Evaluate the next spectrum of the unit's channel: none is skipped, and marked ones are not evaluated (R296, R299). -/
def State.evalSpectrum (s : State) (b : BayNo) (u : Fin 8) (mask : Bool) : State :=
  match (s.bay b).xfm.chans[s.unitChan b u].history.reverse.find? fun e => decide ((s.unit b u).evaluated ≤ e.1.serial) with
  | none => s
  | some (sp, _) =>
    let s1 := s.modUnit b u fun y => { y with evaluated := sp.serial + 1 }
    if sp.settling || sp.truncated then s1.modUnit b u fun y => { y with marked := true }
    else s1.evaluate b u (if mask then s1.maskLook b u sp else s1.bandLook b u sp)

/-- TRIGGER_EVENT (R291 to R295, R299 to R301): unit `u` evaluates its source and takes the event that results. A LEVEL unit
evaluates the outputs `o`, the second one a valid output of its port stamped there; a BAND_POWER or MASK unit evaluates the next spectrum of its channel. -/
def execTriggerEvent (b : BayNo) (u : Fin 8) (o : LevelObs) (s : State) : Out :=
  if !s.unitOn b u then .next s
  else
    match s.fldN Fld.trgUSource b u.val with
    | 1 =>
      let p := s.unitPort b u
      let d := (s.bay b).ddc[p]
      let n := d.numberFrom o.t
      if !d.delivers || decide (n ≤ d.bornOf n) || decide (d.stampOf n ≠ o.t) then .next s
      else if d.invalidIn n (n + 1) then .next (s.modUnit b u fun y => { y with marked := true })
      else .next (s.evaluate b u (s.levelLook b u o))
    | 2 => .next (s.evalSpectrum b u false)
    | 3 => .next (s.evalSpectrum b u true)
    | _ => .next s

/-- QUAL_LONGER_EXPIRE (R300): a condition has stayed true for D_MIN under qualification Longer. -/
def execQualLongerExpire (b : BayNo) (u : Fin 8) (s0 : State) : Out :=
  match (s0.unit b u).cond with
  | none => .next s0
  | some c =>
    if !s0.unitOn b u || !c.qualifying || s0.fldN Fld.trgUQual b u.val ≠ 1 then .next s0
    else
      let n := s0.fldN Fld.trgUDMin b u.val
      let s := s0.reach (later c.start (ofNs n))
      let s1 := s.modUnit b u fun y =>
        { y with cond := some { c with qualifying := false }, state := if y.state = .qualifying then .armed else y.state }
      .next (s1.condEvent b u c n)

/-! ### Core events and edges -/

/-- A core event takes effect in a unit: one stamped before the unit became armed is ignored and counted (R297). -/
def State.coreEvent (s : State) (b : BayNo) (u : Fin 8) (t : Stamp) (w : Word) : State :=
  let y := s.unit b u
  if !y.inCycle || stampLt t y.armedAt then s.modBay b fun x => { x with trg := { x.trg with ignored := x.trg.ignored + 1 } }
  else s.unitEvent b u { s.ownInfo b u t 0 with word := w }

/-- A core raises event line `e` with a word and a stamp (R297, R421). -/
def State.coreLine (s : State) (b : BayNo) (c : CoreNo) (e : Nat) (t : Stamp) (w : Word) : State :=
  (List.finRange 8).foldl (fun s u =>
    if s.unitOn b u && decide (s.fldN Fld.trgUSource b u.val = 4 ∧ s.fldN Fld.trgUCore b u.val = c.val ∧
        s.fldN Fld.trgUCoreEvent b u.val = e) then
      if stampLe t (s.nowAt b) then s.coreEvent b u t w
      else s.modUnit b u fun y => { y with events := y.events ++ [(t, w)] }
    else s) s

/-- CORE_EVENT_DUE (R297): the tide counter reaches the stamp of the oldest core event that unit `u` holds. -/
def execCoreEventDue (b : BayNo) (u : Fin 8) (s0 : State) : Out :=
  match (s0.unit b u).events with
  | [] => .next s0
  | (t, w) :: rest =>
    if !s0.unitOn b u then .next s0
    else
      let s := s0.reach t
      .next ((s.modUnit b u fun y => { y with events := rest }).coreEvent b u t w)

/-- TRIG_IN_EDGE (R140 to R142, R298): an edge of TRIG_INn at pin stamp `t` in bay `b`; `falling` is its polarity and
`longPulse` says that the pulse before it lasted 2 ns. -/
def execTrigInEdge (b : BayNo) (n : Fin 2) (t : Stamp) (falling longPulse : Bool) (s : State) : Out :=
  if falling ≠ decide (s.pkgN Fld.trgTriginEdge n.val = 1) then .next s
  else
    let (u, s1) := s.tdcEdge b ⟨2 + n.val, by omega⟩ t longPulse
    match u with
    | none => .next s1
    | some v =>
      .next ((List.finRange 8).foldl (fun s u =>
        if s.unitOn b u && decide (s.fldN Fld.trgUSource b u.val = 5 + n.val) then s.unitEvent b u (s.ownInfo b u v 0) else s) s1)

/-- TRG_FORCE (R311): a write of a unit mask. -/
def execTrgForce (b : BayNo) (mask : BitVec 8) (s : State) : Out :=
  if !s.queueAwake b then .next (s.fencedAccess b .datapath)
  else
    .next ((List.finRange 8).foldl (fun s u =>
      let y := s.unit b u
      if mask.getLsbD u.val && s.unitOn b u && y.inCycle && !y.dead then
        let i := s.ownInfo b u (s.nowAt b) 3
        if s.unitGroup b u = 0 then s.trigger b u i
        else (s.modUnit b u fun y => { y with requested := some i }).sendRequest i.fire
      else s) s)

/-! ### Groups -/

/-- A fire at `t` merges into the last one accepted when it lies within the group's window of `w` ns (R313). -/
def mergesWith (last : Option Stamp) (t : Stamp) (w : Nat) : Bool :=
  match last with
  | none => false
  | some l => decide (0 < w) && stampLe l t && decide (stampDiff t l ≤ (ofNs w : Nat))

/-- GROUP_FIRE_REQUEST (R312, R313): the arbiter takes the first request that arrived in this package, or `remote` from
another package of the shoal, and accepts or merges it. In an island its time holder arbitrates among its own members
(R612). -/
def execGroupFireRequest (remote : Option Fire) (s : State) : Out :=
  if remote.isSome && !s.leads then .next s
  else
    let taken : Option (Fire × State) := match remote with
      | some f => some (f, s)
      | none => match s.trg.requests with
        | [] => none
        | f :: rest => some (f, s.modTrg fun g => { g with requests := rest })
    match taken with
    | none => .next s
    | some (f, s1) =>
      if h : 1 ≤ f.group ∧ f.group < 16 then
        let home := decide (f.package = s1.packageNo)
        let side : BayNo := if home then f.bay else 0
        let a := s1.sideHolder side
        let w := s1.pkgN Fld.trgGrpWindow (f.group - 1)
        if mergesWith (s1.trg.lastFire[a][f.group]'h.2) f.instant w then
          .next (s1.modTrg fun g => { g with merged := g.merged.set a (g.merged[a].set f.group (g.merged[a][f.group]'h.2 + 1) h.2) })
        else
          let members := s1.allUnits.filter fun m => decide (s1.unitGroup m.1 m.2 = f.group) && s1.sameSide side m.1
          let s2 := s1.modTrg fun g =>
            { g with lastFire := g.lastFire.set a (g.lastFire[a].set f.group (some f.instant) h.2), fires := g.fires ++ [(f, members)] }
          let s3 := s2.outFires a (some f.group) none f.instant
          .next (if decide (s3.pkgN Fld.lnlShoalSize > 1) && decide (a = 0) then
            s3.emit (.packet "FIRE" 0 ([wd (f.group + 16 * f.unit.val + 128 * f.bay.val + 1024 * f.package.toNat)] ++ stampWords f.instant))
            else s3)
      else .next s1

/-- A member receives an accepted fire (R312, R328). -/
def State.memberFire (s : State) (b : BayNo) (u : Fin 8) (f : Fire) : State :=
  let y := s.unit b u
  if !y.inCycle || stampLt f.instant y.armedAt then s
  else if y.dead then s.missTrigger b u
  else
    let own := decide (f.package = s.packageNo ∧ f.bay = b ∧ f.unit = u)
    let base := match y.requested with
      | some r => if own && decide (r.instant = f.instant) then r else s.ownInfo b u f.instant 2
      | none => s.ownInfo b u f.instant 2
    let i := { base with instant := f.instant, fire := f, cause := if own then (if f.forced then 3 else 1) else 2 }
    (s.modUnit b u fun y => { y with state := .armed }).trigger b u i

/-- Fires that leave an injector reach their members. -/
def State.fireHeld (s : State) (ps : List HeldPacket) : State :=
  ps.foldl (fun s p => match p with
    | .fire b u f => s.memberFire b u f
    | .data .. => s) s

/-- The broadcast of a fire travels from the arbiter's bay `a` to a member, through the link injector of its route: a
dropped or corrupted one triggers nothing, a held one keeps its instant (R314, R617, R620). -/
def State.deliverFire (s : State) (a b : BayNo) (u : Fin 8) (f : Fire) : State :=
  if a = b then s.memberFire b u f
  else
    match s.injectorTo a b with
    | none => if s.reaches a b then s.memberFire b u f else s
    | some n =>
      let (act, tell, s1) := s.linkDraw a n 1
      let s2 := if tell then s1.event a 0x1220 [] else s1
      let (rel, s3) := s2.passHeld a n 1
      let g := { f with injected := true }
      let s4 := match act with
        | 0 => s3.memberFire b u f
        | 1 => s3
        | 2 => s3
        | _ => s3.holdPacket a n act (.fire b u g)
      s4.fireHeld rel

/-- GROUP_FIRE_BROADCAST (R312, R314): member `u` of bay `b` receives the first accepted fire that has not reached it, or in
a follower the fire `remote` that the leader broadcast. -/
def execGroupFireBroadcast (b : BayNo) (u : Fin 8) (remote : Option Fire) (s : State) : Out :=
  if !s.unitOn b u then .next s
  else
    match remote with
    | some f =>
      if s.leads ∨ s.unitGroup b u ≠ f.group ∨ f.group = 0 then .next s
      else .next ((s.memberFire b u f).outFires 0 (some f.group) none f.instant)
    | none =>
      match s.trg.fires.find? fun e => e.2.contains (b, u) with
      | none => .next s
      | some (f, ms) =>
        let drop := fun e : Fire × List (BayNo × Fin 8) => if e = (f, ms) then (f, ms.erase (b, u)) else e
        let s1 := s.modTrg fun g => { g with fires := (g.fires.map drop).filter fun e => !e.2.isEmpty }
        .next (s1.deliverFire (s1.sideHolder b) b u f)

/-! ### Arming -/

/-- The enabled units of the present bays that masks select. -/
def State.selected (s : State) (bays units : BitVec 8) : List (BayNo × Fin 8) :=
  s.allUnits.filter fun m => bays.getLsbD m.1.val && units.getLsbD m.2.val

/-- ARM and DISARM (R80, R303, R304). -/
def State.armCommand (s : State) (op : Nat) (tag : Word) (bays units : BitVec 8) (pkgs : BitVec 4) (t : Stamp) : State :=
  let now := s.now
  let lead := s.epochLead
  let shoal := decide (s.pkgN Fld.lnlShoalSize > 1)
  let mine := !shoal || pkgs.getLsbD s.packageNo.toNat
  let others := shoal && decide (pkgs.toNat ≠ 0) && decide (pkgs.toNat ≠ 2 ^ s.packageNo.toNat)
  if s.img.state ≠ .run ∨ !s.leads then s.complete op tag stState 0 now
  else if (t ≠ 0 ∧ stampLt t lead) ∨ ((!mine ∨ (s.selected bays units).isEmpty) ∧ !others) then s.complete op tag stBadArgument 0 now
  else
    let ta := if t = 0 then lead else t
    let s1 := if mine then s.modTrg fun g =>
        { g with orders := g.orders ++ [{ tag := some tag, arm := decide (op = 3), auto := false, instant := ta, bays := bays, units := units }] }
      else s
    let s2 := if others then s1.emit (.packet "ARM" 0
        ([wd (op + 256 * bays.toNat + 65536 * units.toNat + 16777216 * pkgs.toNat)] ++ stampWords ta)) else s1
    s2.complete op tag stOk 0 now

/-- ARM (R303): masks of bays, units and packages, and t_A or zero for the earliest. -/
def execArm (tag : Word) (bays units : BitVec 8) (pkgs : BitVec 4) (t : Stamp) (s : State) : Out :=
  s.ringCommand fun s => s.armCommand 3 tag bays units pkgs t

/-- DISARM (R303, R307). -/
def execDisarm (tag : Word) (bays units : BitVec 8) (pkgs : BitVec 4) (t : Stamp) (s : State) : Out :=
  s.ringCommand fun s => s.armCommand 4 tag bays units pkgs t

/-- The order that takes effect: the first of its kind in this package, or `remote` from the shoal leader. -/
def State.takeOrder (s : State) (arm : Bool) (remote : Option ArmOrder) : Option (ArmOrder × State) :=
  match remote with
  | some o => if o.arm = arm ∧ !s.leads then some (o, s) else none
  | none => match s.trg.orders.find? fun o => o.arm == arm with
    | none => none
    | some o => some (o, s.modTrg fun g => { g with orders := g.orders.erase o })

/-- The units that an order reaches: those it selects, in bays that the headland reaches; an order of IMG.AUTO_ARM selects the units
with AUTO_ARM (R21, R304, R305, R612). -/
def State.orderUnits (s : State) (o : ArmOrder) : List (BayNo × Fin 8) :=
  (s.selected o.bays o.units).filter fun m => s.reachesHead m.1 && (!o.auto || s.fldB Fld.trgUAutoArm m.1 m.2.val)

/-- The masks of the bays and units of a list. -/
def unitMasks (ms : List (BayNo × Fin 8)) : List Word := [wd (maskOf (ms.map (·.1))), wd (ms.foldl (fun n m => n ||| 2 ^ m.2.val) 0)]

/-- The units of an order become armed at its stamp (R304). The load of an armed MASK unit's working copy stays as it is: arming
touches the cycle only. -/
def State.armUnits (s : State) (o : ArmOrder) : State :=
  let ms := s.orderUnits o
  let s1 := ms.foldl (fun s m => s.modUnit m.1 m.2 fun y => y.arm o.instant) s
  let s2 := s1.modServo fun d => { d with armed := true }
  s2.event 0 0x0701 (stampWords o.instant ++ unitMasks ms)

/-- DISARM_TAKE_EFFECT (R304, R307): from t_A the selected units accept no event; a segment under way completes. -/
def execDisarmTakeEffect (remote : Option ArmOrder) (s0 : State) : Out :=
  match s0.takeOrder false remote with
  | none => .next s0
  | some (o, s1) =>
    if !s0.alive 0 then .next s0
    else
      let s := s1.reach o.instant
      let s2 := (s.orderUnits o).foldl (fun s m => s.modUnit m.1 m.2 fun y =>
        { y with inCycle := false, requested := none, state := if y.dead then y.state else .idle
                 cond := y.cond.map fun c => { c with qualifying := false } }) s
      .next (s2.event 0 0x0702 (stampWords o.instant ++ unitMasks (s.orderUnits o)))

/-- At the entry to RUN with IMG.AUTO_ARM the leader orders every unit with AUTO_ARM, in every package, to arm at `t`: the leader's
first arm (R98, R305). -/
def State.autoArm (s : State) (t : Stamp) : State :=
  if s.pkgN Fld.imgAutoArm ≠ 1 then s
  else
    let s1 := s.modTrg fun g => { g with orders := g.orders ++ [{ tag := none, arm := true, auto := true, instant := t, bays := 0xFF, units := 0xFF }] }
    if s.pkgN Fld.lnlShoalSize > 1 then s1.emit (.packet "AUTO_ARM" 0 (stampWords t)) else s1

/-! ### Segments -/

/-- Slots that are frozen. -/
def TrgUnit.frozen (u : TrgUnit) : Nat := u.segments.length

/-- A free slot exists (R308, R317). -/
def State.slotFree (s : State) (b : BayNo) (u : Fin 8) : Bool := decide ((s.unit b u).frozen < s.fldN Fld.trgUSlots b u.val)

/-- Split samples into records of a given length. -/
def chunks {α : Type} (n : Nat) : Nat → List α → List (List α)
  | 0, _ => []
  | fuel + 1, xs => if xs.isEmpty then [] else xs.take n :: chunks n fuel (xs.drop n)

/-- The IQ records of a segment (R318). Answers how many there are. -/
def State.emitSegment (s : State) (b : BayNo) (u : Fin 8) (g : Segment) (xs : List Sample) : Nat × State :=
  let p := s.unitPort b u
  let n := max 1 (s.fldN Fld.trgURecSamples b u.val)
  let cs := chunks n (xs.length + 1) xs
  (cs.length, (cs.zipIdx).foldl (fun s e =>
    s.enqueue b (s.fldN Fld.trgUQueue b u.val)
      (s.iqBody b p (0x48 + u.val) (s.fldB Fld.trgUFormat b u.val) (g.first + e.2 * n) e.1 0)) s)

/-- The segment as its post-trigger part is complete: of one whose instant lay in a gap, the samples after it are known now (R319). -/
def State.closeSegment (s : State) (b : BayNo) (p : Port) (g : Segment) : Segment :=
  match g.last with
  | none => g
  | some t =>
    let y := (s.bay b).ddc[p]
    let e := y.numberFrom (later t 1)
    { g with post := (match y.ended with
      | some z => min z e
      | none => e) - (g.first + g.pre) }

/-- SEGMENT_POST_DONE (R317 to R319): the post-trigger part of unit `u`'s segment is complete, and the captured samples leave as IQ
records; `xs` are the input samples that they take in. -/
def execSegmentPostDone (b : BayNo) (u : Fin 8) (xs : List Sample) (s0 : State) : Out :=
  match (s0.unit b u).segments.find? fun g => !g.done with
  | none => .next s0
  | some g0 =>
    let p := s0.unitPort b u
    let s := match g0.last with
      | some t => s0.reach t
      | none => if g0.pre + g0.post = 0 then s0 else s0.reach (s0.leaves b p (g0.first + g0.pre + g0.post - 1))
    let g := s.closeSegment b p g0
    let y := (s.bay b).ddc[p]
    let count := g.pre + g.post
    if !s0.alive b || (s0.unit b u).state ≠ .post || xs.length ≠ (if count = 0 then 0 else (y.needs g.first count).2) then .next s0
    else
      let seq : Word := Sparse.get 0 (s.bay b).que.seqs (seqKey (0x48 + u.val) .iq)
      let (n, s1) := s.emitSegment b u g (s.outputs b p g.first count xs)
      let g1 := { g with
        done := true, seq := seq, records := n
        overload := decide (count > 0) && s.overloadOn b p (y.stampOf g.first) (y.stopOf g.first count)
        settling := y.invalidIn g.first (g.first + count) }
      let whole := g.last.isNone && decide (g.post = s1.fldN Fld.trgUPost b u.val)
      let room := decide ((s.unit b u).frozen < s.fldN Fld.trgUSlots b u.val)
      .next (s1.modUnit b u fun y =>
        { y with
          segments := y.segments.map fun z => if z = g0 then g1 else z
          state := if room then .prefill else .waitSlot
          liveFrom := if room && whole then some (g.first + count)
            else if room && (s1.bay b).ddc[p].delivers then some ((s1.bay b).ddc[p].numberFrom (s1.nowAt b)) else y.liveFrom })

/-- SLOT_FREED (R308, R318): the last IQ record of unit `u`'s oldest frozen slot has been handed over; its TRIGGER record
follows and the slot is free. -/
def execSlotFreed (b : BayNo) (u : Fin 8) (s : State) : Out :=
  match (s.unit b u).segments with
  | [] => .next s
  | g :: rest =>
    if !s.alive b || !g.done then .next s
    else
      let s1 := s.modUnit b u fun y =>
        { y with segments := rest
                 state := if y.state = .waitSlot then .prefill else y.state
                 liveFrom := if y.state = .waitSlot ∧ y.liveFrom.isNone then some ((s.bay b).ddc[s.unitPort b u].numberFrom (s.nowAt b)) else y.liveFrom }
      .next (s1.enqueue b (s1.fldN Fld.trgUQueue b u.val) (s1.trigBody b u g.info (some g)))

/-- The stamp of sample n_t + PRE + POST of the last trigger of a unit (R308). -/
def State.rearmStamp (s : State) (b : BayNo) (u : Fin 8) : Stamp :=
  let y := (s.bay b).ddc[s.unitPort b u]
  let nt := y.numberFrom (later (s.unit b u).lastInstant 1) - 1
  y.stampFrom nt ((nt + s.fldN Fld.trgUPre b u.val + s.fldN Fld.trgUPost b u.val : Nat) : Int)

/-- UNIT_REARM (R306, R308, R309): dead unit `u` re-arms at the latest of segment, holdoff and free-slot instants. -/
def execUnitRearm (b : BayNo) (u : Fin 8) (s0 : State) : Out :=
  let y := s0.unit b u
  if !s0.alive b || y.state ≠ .prefill || !s0.slotFree b u then .next s0
  else
    let full := s0.rearmStamp b u
    let t0 := if stampLe full y.holdoffTo then y.holdoffTo else full
    let t := match y.liveFrom with
      | none => t0
      | some n =>
        let a := (s0.bay b).ddc[s0.unitPort b u].stampOf n
        if stampLe a t0 then t0 else a
    let s := s0.reach t
    let d := (t - y.lastInstant).toNat
    let s1 := s.modUnit b u fun y =>
      { y with deadUnits := d, deadLast := wd (min (toNs d) 0xFFFFFFFF), state := if y.inCycle then .armed else .idle }
    .next ((s1.monFeed b 5 u.val t).renewCycle b u t)

/-! ### Masks -/

/-- The entries of mask `m` in a bay's store (R321). -/
def State.maskEntries (s : State) (b : BayNo) (m : Nat) : List Word :=
  Sparse.getRun 0x80008000 (s.bay b).trg.store (s.fldN Fld.trgMaskBase b m) (s.fldN Fld.trgMaskPoints b m)

/-- Units of a bay with source MASK that use mask `m`. -/
def State.maskUsers (s : State) (b : BayNo) (m : Nat) : List (Fin 8) :=
  (List.finRange 8).filter fun u => s.unitOn b u && decide (s.fldN Fld.trgUSource b u.val = 3 ∧ s.fldN Fld.trgUMask b u.val = m)

/-- Load a unit's working copy afresh, as at start and when its mask number changes. -/
def State.loadCopy (s : State) (b : BayNo) (u : Fin 8) : State :=
  let m := s.fldN Fld.trgUMask b u.val
  let g := (s.bay b).trg.masks[m % 8]'(Nat.mod_lt _ (by decide))
  s.modUnit b u fun y => { y with copy := { entries := s.maskEntries b m, gen := g.gen, dirty := g.dirty }, spare := none, spareReady := false, prior := none }

/-- MASK_BUMP (R323, R335): a write of TRG_MASK_GENm; a generation that differs starts the copy into the users' spare
copies. -/
def execMaskBump (b : BayNo) (m : Fin 8) (gen : BitVec 16) (s : State) : Out :=
  if !s.queueAwake b || (s.bay b).trg.masks[m].gen = gen then .next s
  else
    let s1 := s.modBay b fun x => { x with trg := { x.trg with masks := x.trg.masks.set m { gen := gen, dirty := false } } }
    let e := s1.maskEntries b m.val
    .next ((s1.maskUsers b m.val).foldl (fun s u => s.modUnit b u fun y =>
      { y with spare := some { entries := e, gen := gen, dirty := false }, spareReady := false }) s1)

/-- MASK_COPY_DONE (R323): unit `u`'s bump-driven copy is complete and waits for the next hop boundary of its channel. -/
def execMaskCopyDone (b : BayNo) (u : Fin 8) (s : State) : Out :=
  if !s.alive b || (s.unit b u).spare.isNone then .next s else .next (s.modUnit b u fun y => { y with spareReady := true })

/-- The switch of a unit to its completed copy at a hop boundary of its channel stamped `t` (R323). -/
def State.maskSwitch (s : State) (b : BayNo) (u : Fin 8) (t : Stamp) : State :=
  match (s.unit b u).spare with
  | none => s
  | some c =>
    if !(s.unit b u).spareReady then s
    else
      (s.modUnit b u fun y => { y with copy := c, spare := none, spareReady := false, prior := some (y.copy, t) }).event b 0x0705
        ([wd u.val, wd (s.fldN Fld.trgUMask b u.val), wd c.gen.toNat] ++ stampWords t)

/-- An entry lies in the extent of mask `m`. -/
def State.inMaskExtent (s : State) (b : BayNo) (m e : Nat) : Bool :=
  decide (s.fldN Fld.trgMaskBase b m ≤ e ∧ e < s.fldN Fld.trgMaskBase b m + s.fldN Fld.trgMaskPoints b m)

/-- Write one entry of the mask store: each mask it falls in becomes dirty, and so does a copy that is being loaded from
the store (R324, R325, R328). -/
def State.writeMask (s : State) (b : BayNo) (e : Nat) (v : Word) : State :=
  let s1 := s.modBay b fun x => { x with trg := { x.trg with store := Sparse.set 0x80008000 x.trg.store e v } }
  (List.finRange 8).foldl (fun s (m : Fin 8) =>
    if s.inMaskExtent b m.val e then
      let s2 := s.modBay b fun x => { x with trg := { x.trg with masks := x.trg.masks.set m { x.trg.masks[m] with dirty := true } } }
      (s2.maskUsers b m.val).foldl (fun s u => s.modUnit b u fun y =>
        if y.spareReady then y
        else { y with spare := y.spare.map fun c =>
          let off := e - s2.fldN Fld.trgMaskBase b m.val
          { c with entries := c.entries.set off v, dirty := true } }) s2
    else s) s1

/-- MASK_STORE_WRITE (R321, R324): a host write of entry `e`. -/
def execMaskStoreWrite (b : BayNo) (e : BitVec 17) (v : Word) (s : State) : Out :=
  if !s.queueAwake b then .next (s.fencedAccess b .datapath) else .next (s.writeMask b e.toNat v)

/-- The epoch reload of dirty masks (R324, R325). -/
def State.reloadMasks (s : State) (b : BayNo) : State :=
  (List.finRange 8).foldl (fun s (m : Fin 8) =>
    if (s.bay b).trg.masks[m].dirty then
      (s.maskUsers b m.val).foldl (fun s u => s.modUnit b u fun y =>
        { y with copy := { entries := s.maskEntries b m.val, gen := (s.bay b).trg.masks[m].gen, dirty := true } }) s
    else s) s

/-- The fields whose change at an EPOCH point drops a unit's condition (R328). -/
def evalFields : List Field :=
  [Fld.trgUSource, Fld.trgUPort, Fld.trgUChannel, Fld.trgUBinFirst, Fld.trgUBinCount, Fld.trgUMask, Fld.trgUGroup, Fld.trgUEn]

/-- A unit takes new settings at a boundary stamped `t`: it starts or stops, or its condition is dropped without an event
(R291, R317, R328). -/
def State.unitChanged (s : State) (b : BayNo) (u : Fin 8) (t : Stamp) : State :=
  if s.fldB Fld.trgUEn b u.val then
    let s1 := s.modUnit b u fun y =>
      { y with isTrue := none, cond := none, requested := none, evaluated := (s.bay b).xfm.chans[s.unitChan b u].serial
               state := if y.state = .off then .idle else if y.state = .qualifying then .armed else y.state
               liveFrom := if y.state = .post then y.liveFrom else some ((s.bay b).ddc[s.unitPort b u].numberFrom t) }
    s1.loadCopy b u
  else s.modUnit b u fun y =>
    { y with state := .off, inCycle := false, isTrue := none, cond := none, requested := none, liveFrom := none, segments := []
             spare := none, spareReady := false, prior := none, events := [] }

/-- Once-an-epoch marks of the units start again. -/
def State.trgBoundary (s : State) (b : BayNo) : State :=
  (List.finRange 8).foldl (fun s u => s.modUnit b u fun y => { y with missedTold := false, abortTold := false }) (s.reloadMasks b)

/-! ### Registers (R333 to R335) -/

/-- The state code of a unit (R334). -/
def State.unitCode (s : State) (b : BayNo) (u : Fin 8) : Nat :=
  let y := s.unit b u
  match y.state with
  | .off => 0 | .idle => 1 | .armed => 2 | .qualifying => 3 | .post => 4
  | .prefill =>
    if stampLt (s.nowAt b) (s.rearmStamp b u) then 5 else 7
  | .waitSlot => 6
  | .holdoff => 7

/-- The TRG registers but for the mask store. -/
def State.trgReg (s : State) (b : BayNo) (off : Nat) : Word :=
  let u : Fin 8 := ⟨off / 4 % 8, Nat.mod_lt _ (by decide)⟩
  let v : Fin 8 := ⟨(off / 4 + 4) % 8, Nat.mod_lt _ (by decide)⟩
  let g := (s.bay b).trg
  if off = 0 then wd ((List.finRange 8).foldl (fun n u => n + 16 ^ u.val * s.unitCode b u) 0)
  else if off = 8 then wd ((List.finRange 8).foldl (fun n u => n + 2 ^ u.val * bitW (s.unit b u).inCycle) 0)
  else if 0x10 ≤ off ∧ off < 0x30 then (s.unit b v).count
  else if 0x30 ≤ off ∧ off < 0x50 then (s.unit b v).missedCount
  else if 0x50 ≤ off ∧ off < 0x70 then (s.unit b v).deadLast
  else if off = 0x70 then wd ((List.finRange 8).foldl (fun n u => n + 16 ^ u.val * (s.unit b u).qualAbort.toNat) 0)
  else if off = 0x74 then g.ignored
  else if 0x80 ≤ off ∧ off < 0xA0 then wd (g.masks[u].gen.toNat + 65536 * bitW g.masks[u].dirty)
  else if 0xA0 ≤ off ∧ off < 0xC0 then wd ((s.unit b u).copy.gen.toNat + 65536 * bitW (s.unit b u).copy.dirty)
  else if h : 0xC4 ≤ off ∧ off < 0x100 then
    s.trg.merged[b][(off - 0xC0) / 4]'(by omega)
  else if 0x80000 ≤ off ∧ off < 0x100000 then Sparse.get 0x80008000 g.store (off % 0x80000 / 4)
  else 0

end Sys2Proof.Machine
end

