-- ==== Sys2Proof/Machine/Cal.lean ====
section
/-! DEFINITION. The calibration sequencer (R659 to R679). -/
namespace Sys2Proof.Machine

/-- The sequencer of an input. -/
def State.calIn (s : State) (b : BayNo) (i : Fin 2) : CalIn := (s.bay b).cal[i]

/-- Change the sequencer of an input. -/
def State.modCal (s : State) (b : BayNo) (i : Fin 2) (f : CalIn → CalIn) : State :=
  s.modBay b fun x => { x with cal := x.cal.set i (f x.cal[i]) }

/-- The other input of a bay. -/
def otherInput (i : Fin 2) : Fin 2 := if i = 0 then 1 else 0

/-! ### The agreement test -/

/-- The differences of two passes (R661). -/
def calPair (first second : Nat) (a c : CalPass) : CalPair :=
  let ds := (a.table.zip c.table).map fun p => (p.1 - p.2).natAbs
  { first := first, second := second, squares := ds.foldl (fun n d => n + d * d) 0, worst := ds.foldl max 0, tones := ds.length }

/-- The passes of a pair agree (R661): √(Σ d² / K) ≤ CAL.AGREE_RMS and max |d| ≤ CAL.AGREE_PEAK, both in 0.0001 dB. -/
def State.calAgrees (s : State) (b : BayNo) (p : CalPair) : Bool :=
  let r := 100 * s.fldN Fld.calAgreeRms b
  decide (p.squares ≤ p.tones * r * r) && decide (p.worst ≤ 100 * s.fldN Fld.calAgreePeak b) && decide (p.tones > 0)

/-- The pair with the smaller rms difference; the first one on a tie. -/
def smallerPair (p q : CalPair) : CalPair := if q.squares * max 1 p.tones < p.squares * max 1 q.tones then q else p

/-- The outcome of two or three passes (R662): none asks for another pass. -/
def State.calDecide (s : State) (b : BayNo) (ps : List CalPass) : Option (CalOutcome × CalPair) :=
  match ps with
  | [p1, p2] => if s.calAgrees b (calPair 1 2 p1 p2) then some (.accepted, calPair 1 2 p1 p2) else none
  | [p1, p2, p3] =>
    let a := calPair 1 3 p1 p3
    let c := calPair 2 3 p2 p3
    match s.calAgrees b a, s.calAgrees b c with
    | true, true => some (.accepted, smallerPair a c)
    | true, false => some (.accepted, a)
    | false, true => some (.accepted, c)
    | false, false => some (.kept, smallerPair (smallerPair (calPair 1 2 p1 p2) a) c)
  | _ => none

/-- The mean of two tables, tone by tone. -/
def meanTable (a c : List Int) : List Int := (a.zip c).map fun p => divRound (p.1 + p.2) 2

/-- The number of calibration tones: those from 10 MHz to the SWELL span (R659). -/
def State.calTones (s : State) : Nat := if s.pkgN Fld.clkFAdc = 0 then 800 else 799

/-- The mean of two sets of coefficients. -/
def SliceCoef.mean (a c : SliceCoef) : SliceCoef :=
  { offset := divRound (a.offset + c.offset) 2, gain := divRound (a.gain + c.gain) 2, skew := divRound (a.skew + c.skew) 2
    bandwidth := divRound (a.bandwidth + c.bandwidth) 2 }

/-- The coefficients that a pair gives the slices (R659, R662). -/
def pairCoefs (ps : List CalPass) (p : CalPair) : List SliceCoef :=
  match ps[p.first - 1]?, ps[p.second - 1]? with
  | some a, some c => (a.coefs.zip c.coefs).map fun q => q.1.mean q.2
  | _, _ => []

/-- The calibration that a pair gives (R662). -/
def pairTable (ps : List CalPass) (p : CalPair) : List Int :=
  match ps[p.first - 1]?, ps[p.second - 1]? with
  | some a, some c => meanTable a.table c.table
  | _, _ => []

/-! ### Due, deferred, suspended -/

/-- A unit that concerns an input is in an arm cycle (R669). -/
def State.calConcerned (s : State) (b : BayNo) (i : Fin 2) : Bool :=
  (List.finRange 8).any fun u => s.fldB Fld.trgUEn b u.val && (s.unit b u).inCycle &&
    (s.unitOnPort b u (rfPort i) || decide (s.chanPort b (s.unitChan b u) = rfPort i))

/-- A due run is deferred (R669). -/
def State.calDeferred (s : State) (b : BayNo) (i : Fin 2) : Bool :=
  decide (s.fldN Fld.calMaxDefer b ≠ 0) && s.calConcerned b i

/-- No run of an input may start (R670). -/
def State.calSuspended (s : State) (b : BayNo) (i : Fin 2) : Bool :=
  (s.bay b).clk.gated || (s.bay b).clk.restarting || s.quiet || !inMask (s.fldN Fld.clkAdcEn b) i.val || !s.frontOn b i ||
    !(decide (s.img.state = .run) || decide (s.img.state = .ready))

/-- An acquisition restart of the bay has been requested and has not begun. -/
def State.restartAsked (s : State) (b : BayNo) : Bool := s.img.restartReq.testBit b.val

/-- Report the first deferral of a due input (R669). -/
def State.noteDefer (s : State) (b : BayNo) (i : Fin 2) : State :=
  match (s.calIn b i).due with
  | none => s
  | some d =>
    if !d.told && s.calDeferred b i then
      (s.modCal b i fun c => { c with due := some { d with told := true } }).event b 0x1403 [wd i.val]
    else s

/-- An input becomes due (R665). -/
def State.calDueNow (s : State) (b : BayNo) (i : Fin 2) (cause : Nat) : State :=
  (s.modCal b i fun c => { c with due := some { cause := cause, since := s.nowAt b, told := false }, backoff := none }).noteDefer b i

/-- A new value of CAL.RUN_REQ takes effect: both inputs become due (R665 to R667). -/
def State.calRequest (s : State) (b : BayNo) : State :=
  (List.finRange 2).foldl (fun s i =>
    let c := s.calIn b i
    match c.run with
    | some r => s.modCal b i fun c => { c with run := some { r with again := true } }
    | none => if c.due.isSome then s else s.calDueNow b i 3) s

/-- The sequencer runs: the bay is there, and the package has left start-up. -/
def State.calOn (s : State) (b : BayNo) : Bool := s.alive b && (decide (s.img.state = .run) || decide (s.img.state = .ready))

/-- A cause may make the input due: it is not due, not in a run, and not in back-off (R665, R666). -/
def CalIn.idle (c : CalIn) : Bool := c.due.isNone && c.run.isNone && c.backoff.isNone

/-- CAL_INTERVAL_DUE (R665): CAL.MAX_INTERVAL seconds have passed since the end of the input's last run. -/
def execCalIntervalDue (b : BayNo) (i : Fin 2) (s0 : State) : Out :=
  let c := s0.calIn b i
  let n := s0.fldN Fld.calMaxInterval b
  match c.lastEnd with
  | none => .next s0
  | some e =>
    if !s0.calOn b || !c.idle || decide (n = 0) || !(s0.fldN Fld.calAuto b).testBit 1 then .next s0
    else .next ((s0.reach (later e (ofMs (1000 * n)))).calDueNow b i 2)

/-- CAL_BACKOFF_END (R665, R666): the back-off ends and the input becomes due. -/
def execCalBackoffEnd (b : BayNo) (i : Fin 2) (s0 : State) : Out :=
  match (s0.calIn b i).backoff with
  | none => .next s0
  | some t => if !s0.calOn b then .next s0 else .next ((s0.reach t).calDueNow b i 4)

/-! ### Runs -/

/-- The input's turn (R668): no run of the bay is in progress, and the other input was not due earlier; a tie goes to input
0. A deferred input does not hold back the other. -/
def State.calTurn (s : State) (b : BayNo) (i : Fin 2) : Bool :=
  let o := otherInput i
  match (s.calIn b i).due with
  | none => false
  | some d => (s.calIn b i).run.isNone && (s.calIn b o).run.isNone &&
    (match (s.calIn b o).due with
     | none => true
     | some e => s.calDeferred b o || (if i = 0 then stampLe d.since e.since else stampLt d.since e.since))

/-- A run starts and its gap opens (R192, R671, R672). -/
def State.calStart (s : State) (b : BayNo) (i : Fin 2) (d : CalDue) (forced : Bool) : State :=
  let t := s.nowAt b
  let r : CalRun :=
    { cause := d.cause, forced := forced, wait := toNs (t - d.since).toNat / 1000000, start := t, tL := s.planeStamp b (rfPort i) t, passes := [], outcome := none
      pair := none, combDone := false, combPass := false, again := false }
  let s1 := (s.modCal b i fun c => { c with due := none, run := some r, cause := d.cause }).modAfe b i fun a => { a with combSel := true }
  let s2 := s1.pauseRotation b i
  if (s2.bay b).ddc[rfPort i].active then s2.stopPort b (rfPort i) .cal r.tL else s2

/-- CAL_RUN_START (R668 to R671): a due run that is not deferred starts in its turn. -/
def execCalRunStart (b : BayNo) (i : Fin 2) (s0 : State) : Out :=
  let s := s0.noteDefer b i
  match (s.calIn b i).due with
  | none => .next s0
  | some d =>
    if !s.calOn b || s.calSuspended b i || s.calDeferred b i || !s.calTurn b i || s.restartAsked b then .next s
    else .next (s.calStart b i d false)

/-- CAL_FORCED (R669): CAL.MAX_DEFER ms after it became due a run that is still deferred starts as a forced run. -/
def execCalForced (b : BayNo) (i : Fin 2) (s0 : State) : Out :=
  match (s0.calIn b i).due with
  | none => .next s0
  | some d =>
    let s := (s0.reach (later d.since (ofMs (s0.fldN Fld.calMaxDefer b)))).noteDefer b i
    if !s.calOn b || s.calSuspended b i || !s.calDeferred b i || (s.calIn b (otherInput i)).run.isSome || s.restartAsked b then .next s0
    else .next ((s.event b 0x1404 [wd i.val]).calStart b i d true)

/-- AFE_COMB_RESULT of an input (R207). -/
def State.combResult (s : State) (b : BayNo) (i : Fin 2) : Word := (s.bay b).afe.inputs[i].combWorst ++ (s.bay b).afe.inputs[i].combRms

/-- AFE_COMB_DET (R207). -/
def State.combDet (s : State) (b : BayNo) : Word := Word.ofSigned (s.bay b).afe.combDet

/-- A CAL_FAIL entry (R644): word 5 is `why`. -/
def State.calFail (s : State) (b : BayNo) (i : Fin 2) (why : Nat) : State :=
  s.sealLog 7 b i.val [wd why, s.combResult b i, s.combDet b]

/-- A run whose passes did not agree: EV_CAL_DISAGREE and its entry (R662). -/
def State.calDisagree (s : State) (b : BayNo) (i : Fin 2) : State := (s.event b 0x1402 [wd i.val]).calFail b i 0

/-- When pass `n` of a run ends, in µs after its start (R672). -/
def passEnd (n : Nat) : Nat := if n = 1 then 650 else if n = 2 then 1250 else 1950

/-- CAL_PASS_DONE (R659 to R662, R672): a pass of input `i` ends with mean temperature and drift table; after the second or the
third the agreement test decides. -/
def execCalPassDone (b : BayNo) (i : Fin 2) (p : CalPass) (s0 : State) : Out :=
  match (s0.calIn b i).run with
  | none => .next s0
  | some r =>
    if r.outcome.isSome || decide (r.passes.length ≥ 3) || decide (p.table.length ≠ s0.calTones) then .next s0
    else
      let ps := r.passes ++ [p]
      let s := s0.reach (later r.start (ofUs (passEnd ps.length)))
      match s.calDecide b ps with
      | none => .next (s.modCal b i fun c => { c with run := some { r with passes := ps } })
      | some (o, pair) =>
        let s1 := s.modCal b i fun c => { c with run := some { r with passes := ps, outcome := some o, pair := some pair } }
        .next (if o = .kept then s1.calDisagree b i else s1)

/-- What COMB_CHECK found, in 0.001 dB: the detector's total power against its factory value, the rms and the worst deviation of the
tones, and whether it passes (R195, R207). -/
structure CombResult where
  det : Int
  rms : Nat
  worst : Nat
  good : Bool
  deriving DecidableEq, Repr

/-- The deviations of the tones from their expected levels, in 10^-6 dB, through the path with a drift table in force (R195, R660). -/
def combDevs (b : BayNo) (i : Fin 2) (drift tones : List Int) : List Int :=
  tones.mapIdx fun k m => m - drift.getD k 0 - Config.combTone b i.val k

/-- COMB_CHECK of an input with a drift table in force (R195): the detector's reading is the comb channel's result of the sealed
source (R688). -/
def State.combCheck (s : State) (b : BayNo) (i : Fin 2) (drift : List Int) (o : CombObs) : CombResult :=
  let code := (s.bay b).hkc.conv[s.sealedSource b].sealedResults[(2 : Fin 4)].value.toNat
  let det := Config.combCurve b code - Config.combFactory b i.val
  let ds := combDevs b i drift o.tones
  let squares := ds.foldl (fun n d => n + d.natAbs * d.natAbs) 0
  let worst := ds.foldl (fun n d => max n d.natAbs) 0
  let tol := 10000 * s.fldN Fld.afeCombTol b
  { det := det, rms := rootOf (squares / max 1 ds.length) / 1000, worst := worst / 1000
    good := decide (det.natAbs ≤ 200) && decide (squares ≤ ds.length * tol * tol) && decide (worst ≤ 3 * tol) &&
      ds.all fun d => decide (-10000000 ≤ d) }

/-- COMB_CHECK ends (R195, R196): its results, COMB_FAIL, and on failure the event and the entry. -/
def State.combDone (s : State) (b : BayNo) (i : Fin 2) (o : CombResult) : State :=
  let s1 := (s.modAfe b i fun a =>
    { a with combFail := !o.good, combRms := BitVec.ofNat 16 (min o.rms 0xFFFF), combWorst := BitVec.ofNat 16 (min o.worst 0xFFFF)
             combSel := false }).modBay b fun x => { x with afe := { x.afe with combDet := o.det } }
  if o.good then s1 else (s1.event b 0x0403 [wd i.val, s1.combResult b i, s1.combDet b]).calFail b i 1

/-- The drift table in force after a run with this outcome (R660, R662, R674). -/
def CalIn.driftAfter (c : CalIn) (o : CalOutcome) (ps : List CalPass) (p : Option CalPair) : List Int :=
  match o with
  | .accepted => (p.map (pairTable ps)).getD []
  | .factory => []
  | _ => c.drift

/-- COMB_CHECK_DONE (R192, R195, R196, R664, R672): the comb switch returns to the pin. -/
def execCombCheckDone (b : BayNo) (i : Fin 2) (o : CombObs) (s0 : State) : Out :=
  match (s0.calIn b i).run with
  | none => .next s0
  | some r =>
    match r.outcome with
    | none => .next s0
    | some oc =>
      if r.combDone || decide (o.tones.length ≠ s0.calTones) then .next s0
      else
        let s := s0.reach (later r.start (ofUs (if r.passes.length = 3 then 2350 else 1550)))
        let x := s.combCheck b i ((s.calIn b i).driftAfter oc r.passes r.pair) o
        .next ((s.combDone b i x).modCal b i fun c => { c with run := some { r with combDone := true, combPass := x.good } })

/-- The outcome code of the CAL record (R675). -/
def CalOutcome.code : CalOutcome → Nat
  | .accepted => 0 | .kept => 1 | .abandoned => 2 | .factory => 3

/-- Word 3 of the CAL record: rms and worst difference in 0.0001 dB (R675). -/
def agreeWordOf (p : Option CalPair) : Word :=
  match p with
  | none => 0
  | some q => wd (min 0xFFFF (rootOf (q.squares / max 1 q.tones) / 100) + 65536 * min 0xFFFF (q.worst / 100))

/-- Word 11 of the CAL record: the largest and the mean drift of the table in force, in 0.0001 dB (R675). -/
def driftWordOf (d : List Int) : Word :=
  let big := d.foldl (fun n x => max n x.natAbs) 0
  let mean := if d.isEmpty then 0 else divRound (d.foldl (· + ·) 0) (100 * d.length)
  BitVec.ofInt 16 mean ++ BitVec.ofNat 16 (min 0xFFFF (big / 100))

/-- The mean of T_fe over the passes of a run (R665). -/
def passesTemp (ps : List CalPass) (old : Int) : Int :=
  if ps.isEmpty then old else divRound (ps.foldl (fun n p => n + p.temp) 0) ps.length

/-- The payload of a CAL record (R675). `number` is the run number and `tL` the opening of its gap. -/
def State.calPayload (s : State) (b : BayNo) (i : Fin 2) (r : CalRun) (o : CalOutcome) (number : Word) (tL : Stamp) (delta : Int) :
    List Word :=
  let c := s.calIn b i
  let a := (s.bay b).afe.inputs[i]
  let pairBits := match r.pair with
    | some p => if o = .accepted then 2 ^ (p.first - 1) + 2 ^ (p.second - 1) else 0
    | none => 0
  let tones := ((r.passes.head?).map (·.table.length)).getD 0
  [wd (r.cause + 8 * o.code + 32 * bitW (decide (r.passes.length = 3)) + 64 * bitW r.combPass + 128 * bitW r.forced +
     256 * min 255 c.failures + 65536 * a.step + 2097152 * a.trim), number,
   BitVec.ofInt 16 (divRound delta 100) ++ BitVec.ofInt 16 (divRound c.tcal 100), agreeWordOf r.pair,
   wd (pairBits + 65536 * tones)] ++ stampWords tL ++
  [wd (min r.wait 0xFFFFFFFF), s.combResult b i, s.combDet b, driftWordOf c.drift] ++ List.replicate 12 0

/-- Emit the CAL record and EV_CAL_DONE of a run that ended (R675, R677, R679). -/
def State.calReport (s : State) (b : BayNo) (i : Fin 2) (r : CalRun) (o : CalOutcome) (number : Word) (tL tR : Stamp) (delta : Int) : State :=
  let ws := s.calPayload b i r o number tL delta
  let s1 := s.modCal b i fun c =>
    { c with agreeWord := ws.getD 3 0, driftWord := ws.getD 11 0, lastStamp := tR, lastEnd := some (s.nowAt b) }
  let q := s1.fldN Fld.calQueue b
  let body : RecBody := { typ := .cal, source := 0xC0 + i.val, domain := 0, stamp := tR, w6hi := BitVec.ofNat 16 o.code, payload := ws }
  let s2 := if q < 128 then s1.enqueue b q body else s1
  s2.event b 0x1401 [wd b.val, wd i.val, ws.getD 0 0, ws.getD 3 0, ws.getD 11 0]

/-- The back-off after `f` failures in a row (R666). -/
def State.backoffTime (s : State) (b : BayNo) (f : Nat) : Nat :=
  ofMs (1000 * s.fldN Fld.calRetry b * 2 ^ min (f - 1) (s.fldN Fld.calRetryMaxLog2 b))

/-- Accepted coefficients replace those of the active slices (R659, R660). -/
def State.takeCoefs (s : State) (b : BayNo) (i : Fin 2) (l : List SliceCoef) : State :=
  s.modAdc b i fun c => { c with coefs := Vector.ofFn fun x => if c.serves x then l.getD x.val c.coefs[x] else c.coefs[x] }

/-- What a completed run leaves: the calibration in force, f, the back-off and T_cal (R660, R662, R665, R666). -/
def State.calSettle (s : State) (b : BayNo) (i : Fin 2) (r : CalRun) (o : CalOutcome) : State :=
  (if o = .accepted then s.takeCoefs b i ((r.pair.map (pairCoefs r.passes)).getD []) else s).modCal b i fun c =>
    let f := if o = .accepted then 0 else c.failures + 1
    let t : Int := passesTemp r.passes c.tcal
    { c with
      run := none, tcal := t, failures := f, lastFailed := decide (o ≠ .accepted)
      foreground := if o = .accepted then true else if o = .factory then false else c.foreground
      drift := c.driftAfter o r.passes r.pair
      accepted := if o = .accepted then c.accepted + 1 else c.accepted
      failed := if o = .accepted then c.failed else c.failed + 1
      backoff := if o = .accepted then none else some (later (s.nowAt b) (s.backoffTime b f)) }

/-- A run is abandoned: the old calibration is kept and the gaps stay open (R673); `again` says whether the input is due at
once. -/
def State.calAbandon (s : State) (b : BayNo) (i : Fin 2) (again : Bool) : State :=
  match (s.calIn b i).run with
  | none => s
  | some r =>
    let n := (s.calIn b i).runNo
    let s1 := (s.modCal b i fun c => { c with run := none, runNo := c.runNo + 1 }).modAfe b i fun a => { a with combSel := false }
    let s2 := (s1.event b 0x1405 [wd i.val]).calReport b i { r with pair := none } .abandoned n r.tL (s1.nowAt b) 0
    if again then s2.calDueNow b i r.cause else s2

/-- Every run of a bay is abandoned. -/
def State.calAbandonBay (s : State) (b : BayNo) (again : Bool) : State := (List.finRange 2).foldl (fun s i => s.calAbandon b i again) s

/-- A start-up run of an input in phase 10 (R92, R674): no gap, and the factory calibration on failure. -/
def State.calStartup (s : State) (b : BayNo) (i : Fin 2) (x : Option FeRun) : State :=
  let ps := (x.map (·.passes)).getD []
  let dec := match s.calDecide b ps with
    | some d => some d
    | none => s.calDecide b (ps.take 2)
  let good := match dec with
    | some (.accepted, _) => true
    | _ => false
  let o : CalOutcome := if good then .accepted else .factory
  let s1 := if good then s else s.calDisagree b i
  let comb := match x with
    | some y => s.combCheck b i ((s.calIn b i).driftAfter o ps (dec.map (·.2))) y.comb
    | none => { det := 0, rms := 0, worst := 0, good := false }
  let r : CalRun :=
    { cause := 0, forced := false, wait := 0, start := 0, tL := 0, passes := ps, outcome := some o, pair := dec.map (·.2), combDone := true
      combPass := comb.good, again := false }
  let s2 := (s1.combDone b i comb).calSettle b i r o
  let s3 := if good then s2 else s2.calFail b i 2
  let s4 := s3.modCal b i fun c => { c with runNo := 0, due := none, cause := 0, tfe := c.tcal }
  s4.calReport b i r o (Config.unstated 4 0) 0 (s4.nowAt b) 0

/-! ### Registers -/

/-- STATE of CAL_STATUS (R678). -/
def State.calState (s : State) (b : BayNo) (i : Fin 2) : Nat :=
  let c := s.calIn b i
  if c.run.isSome then 3
  else if c.due.isSome then (if s.calSuspended b i then 5 else if s.calDeferred b i then 2 else 1)
  else if c.backoff.isSome then 4 else 0

/-- Whole seconds until the interval or the back-off makes the input due (R677). -/
def State.calWait (s : State) (b : BayNo) (i : Fin 2) : Word :=
  let c := s.calIn b i
  let until_ := fun (t : Stamp) => if stampLe t (s.nowAt b) then 0 else (t - s.nowAt b).toNat / unitsPerSec
  match c.backoff with
  | some t => wd (min 0xFFFFFFFF (until_ t))
  | none =>
    let n := s.fldN Fld.calMaxInterval b
    match c.lastEnd with
    | some e => if n = 0 ∨ !(s.fldN Fld.calAuto b).testBit 1 then 0xFFFFFFFF else wd (until_ (later e (ofMs (1000 * n))))
    | none => 0xFFFFFFFF

/-- The CAL registers (R677). -/
def State.calReg (s : State) (b : BayNo) (off : Nat) : Word :=
  let i : Fin 2 := ⟨off / 4 % 2, by omega⟩
  let c := s.calIn b i
  let stamp := fun (j : Fin 2) (k : Nat) => (stampWords (s.calIn b j).lastStamp).getD k 0
  match off / 8 with
  | 0 => wd (s.calState b i + 8 * bitW c.foreground + 16 * bitW c.lastFailed + 32 * c.cause + 256 * min 255 c.failures)
  | 2 => BitVec.ofInt 16 (divRound (c.tfe - c.tcal) 100) ++ BitVec.ofInt 16 (divRound c.tcal 100)
  | 3 => c.failed ++ c.accepted
  | 4 => c.agreeWord
  | 5 => c.driftWord
  | 10 => s.calWait b i
  | _ =>
    if 0x30 ≤ off ∧ off < 0x3C then stamp 0 ((off - 0x30) / 4)
    else if 0x40 ≤ off ∧ off < 0x4C then stamp 1 ((off - 0x40) / 4) else 0

end Sys2Proof.Machine
end

