-- ==== Sys2Proof/Machine/Hkc.lean ====
section
/-! DEFINITION. The housekeeping converters (R680 to R697), and the 100 ms interval of T_fe that they feed (R665). -/
namespace Sys2Proof.Machine

/-- Change the housekeeping block of a bay. -/
def State.modHkc (s : State) (b : BayNo) (f : HkcBay → HkcBay) : State := s.modBay b fun x => { x with hkc := f x.hkc }

/-- Change one converter: 0 HK-A, 1 HK-B. -/
def State.modConv (s : State) (b : BayNo) (x : Fin 2) (f : HkConv → HkConv) : State :=
  s.modHkc b fun h => { h with conv := h.conv.set x (f h.conv[x]) }

/-- The converters of a bay run (R682). -/
def State.hkcOn (s : State) (b : BayNo) : Bool := s.alive b && (s.bay b).pwr.hkc

/-- The channel of a privileged number 0 to 3 (R681, R683). -/
def privChan (p : Fin 4) : Nat := [0, 1, 18, 24].getD p.val 0

/-- The privileged number of a channel. -/
def privOf (c : Nat) : Option (Fin 4) := (List.finRange 4).find? fun p => decide (privChan p = c)

/-- c′ = round((c − O / 16) × G / 32768), clamped to 16 bits (R687). -/
def corrected (c : Nat) (corr : Word) : Nat :=
  let o := (corr.extractLsb' 0 16).toInt
  let g := (corr.extractLsb' 16 16).toNat
  (max 0 (min 65535 (divRound ((16 * (c : Int) - o) * g) 524288))).toNat

/-- HKC.CORR of a converter and privileged channel (R693). -/
def State.hkcCorr (s : State) (b : BayNo) (x : Fin 2) (p : Fin 4) : Word := Word.ofSigned (s.fld Fld.hkcCorr b 0 (4 * x.val + p.val))

/-- A code as it is used: corrected when the channel is privileged (R687). -/
def State.useCode (s : State) (b : BayNo) (x : Fin 2) (chan code : Nat) : Nat :=
  match privOf chan with
  | some p => corrected code (s.hkcCorr b x p)
  | none => code

/-- A reading of an input power detector shows in AFE_DET by the factory curve, within the range −40 dBm to +20 dBm (R197). -/
def State.noteDetector (s : State) (b : BayNo) (chan code : Nat) : State :=
  if chan = 16 ∨ chan = 17 then
    s.modAfe b (if chan = 16 then 0 else 1) fun a => { a with det := max (-5120) (min 2560 (Config.detCurve b (chan - 16) code)) }
  else s

/-- A setting of the converters: the default until the first image reaches the end of phase 7 (R682). -/
def State.hkcN (s : State) (f : Field) (b : BayNo) (k : Nat := 0) : Nat :=
  if s.initHeld && !s.img.boot.restart then Vals.nat [] f b.val k else s.fldN f b k

/-- The channel of the next scan slot of a converter. -/
def State.scanChan (s : State) (b : BayNo) (x : Fin 2) : Nat :=
  let i := (s.bay b).hkc.conv[x].slot
  if x = 0 then s.hkcN Fld.hkcASlot b i else s.hkcN Fld.hkcBSlot b i

/-- The scan length of a converter; HKC.A_SLOTS and HKC.B_SLOTS are one field of two instances. -/
def State.scanLen (s : State) (b : BayNo) (x : Fin 2) : Nat := max 1 (s.hkcN Fld.hkcSlots b x.val)

/-- The conversion in progress is a sealed one: the grid is in a sealed slot, or one has passed without its conversion (R683, R690). -/
def HkConv.atSealed (k : HkConv) : Bool := decide (k.grid = 15) || k.due

/-- `n` grid slots go by without a scan or sealed conversion completing (R690). -/
def HkConv.skip (k : HkConv) (n : Nat) : HkConv :=
  { k with grid := k.grid + BitVec.ofNat 4 n, due := k.due || decide (15 < k.grid.toNat + n) }

/-- A result register takes a new value (R685, R688). -/
def HkResult.take (r : HkResult) (v : Nat) (c : Bool) : HkResult := { value := BitVec.ofNat 24 v, corrected := c, update := r.update + 1 }

/-- HKC_SCAN_CONVERSION (R683 to R687): the conversion of the next scan slot completes with `code`; an urgent conversion and a sealed
slot hold the scan back. -/
def execHkcScanConversion (b : BayNo) (x : Fin 2) (code : BitVec 16) (s : State) : Out :=
  let k := (s.bay b).hkc.conv[x]
  let chan := s.scanChan b x
  if !s.hkcOn b || k.urgent.isSome || k.atSealed then .next s
  else if h : chan < 25 then
    let c := s.useCode b x chan code.toNat
    let sum := k.accs[chan].sum + c
    let n := k.accs[chan].count + 1
    let full := decide (n ≥ 2 ^ s.hkcN Fld.hkcChAvgLog2 b chan)
    let next := if k.slot + 1 ≥ s.scanLen b x then 0 else k.slot + 1
    let s1 := s.modConv b x fun k =>
      { k with
        slot := next, grid := k.grid + 1, accs := k.accs.set chan (if full then .reset else { sum := sum, count := n })
        results := if full then k.results.set chan (k.results[chan].take (sum / 2 ^ s.hkcN Fld.hkcChShift b chan) (privOf chan).isSome)
                   else k.results }
    let s2 := if full then s1.monFeed b 4 (chan + 32 * x.val) (s.nowAt b) else s1
    .next (s2.noteDetector b chan code.toNat)
  else .next s

/-- The REF results of one rotation are compared (R689). -/
def State.compareRef (s : State) (b : BayNo) (ra rb : Nat) : State :=
  let h := (s.bay b).hkc
  let d : Int := (ra : Int) - rb
  let bad := decide (d.natAbs * 2500000 > 786432 * s.hkcN Fld.hkcDisagreeTol b)
  let fails := if bad then h.fails + 1 else 0
  let passes := if bad then 0 else h.passes + 1
  let set := bad && decide (fails ≥ 2) && !h.disagree
  let clear := h.disagree && decide (passes ≥ 8)
  let f := s.hkcN Fld.hkcRefFactory b
  let nearB := decide (((rb : Int) - f).natAbs < ((ra : Int) - f).natAbs)
  let dis := (h.disagree || set) && !clear
  let s1 := s.modHkc b fun h =>
    { h with
      disagree := dis, sealedB := dis && nearB, fails := fails, passes := passes, refDiff := d
      failCount := if bad then h.failCount + 1 else h.failCount, setCount := if set then h.setCount + 1 else h.setCount }
  let s2 := if set then s1.event b 0x1501 [wd b.val, wd ra, wd rb, wd (bitW nearB)] else s1
  if clear then s2.event b 0x1502 [] else s2

/-- Compare once both converters have the REF result of the rotation (R689). -/
def State.maybeCompare (s : State) (b : BayNo) : State :=
  match (s.bay b).hkc.conv[0].ref, (s.bay b).hkc.conv[1].ref with
  | some ra, some rb => ((s.modConv b 0 fun k => { k with ref := none }).modConv b 1 fun k => { k with ref := none }).compareRef b ra rb
  | _, _ => s

/-- A waiting urgent request begins, the calibration sequencer's first; HK-B takes at most two between two sealed
conversions (R691, R692). It takes the grid slot of the conversion that it aborts and the next one; one that follows another takes
one more (R690). -/
def HkConv.beginWaiting (k : HkConv) (limited follows : Bool) : HkConv :=
  let used := if follows then 1 else 2
  if k.urgent.isSome || (limited && decide (k.since ≥ 2)) then k
  else match k.waitCal with
    | some c => ({ k with urgent := some c, waitCal := none } : HkConv).skip used
    | none => match k.waitOvl with
      | some c => ({ k with urgent := some c, waitOvl := none } : HkConv).skip used
      | none => k

/-- HKC_SEALED_CONVERSION (R683, R687 to R690): the sealed conversion of the rotation's next privileged channel completes, in its
sealed slot or displaced from it. -/
def execHkcSealedConversion (b : BayNo) (x : Fin 2) (code : BitVec 16) (s : State) : Out :=
  let k := (s.bay b).hkc.conv[x]
  if !s.hkcOn b || k.urgent.isSome || !k.atSealed then .next s
  else
    let p := k.turn
    let c := corrected code.toNat (s.hkcCorr b x p)
    let sum := k.sealedAccs[p].sum + c
    let n := k.sealedAccs[p].count + 1
    let full := decide (n ≥ 64)
    let s1 := s.modConv b x fun k =>
      { k with
        turn := p + 1, since := 0, grid := k.grid + 1, due := false
        sealedAccs := k.sealedAccs.set p (if full then .reset else { sum := sum, count := n })
        sealedResults := if full then k.sealedResults.set p (k.sealedResults[p].take (sum / 64) true) else k.sealedResults
        ref := if full && decide (p = 3) then some (sum / 64) else k.ref }
    let s2 := if h : p.val < 2 ∧ x = s.sealedSource b then
        s1.modHkc b fun h' => { h' with fe := h'.fe.set p.val { sum := h'.fe[p.val].sum + c, count := h'.fe[p.val].count + 1 } }
      else s1
    .next ((s2.maybeCompare b).modConv b x fun k => k.beginWaiting (decide (x = 1)) false)

/-- An urgent request may name the channel (R690): the calibration sequencer asks HK-A for 0, 1 and 18, the overload logic HK-B
for 16 and 17. -/
def urgentAllowed (x : Fin 2) (chan : Nat) : Bool := if x = 0 then [0, 1, 18].contains chan else [16, 17].contains chan

/-- HKC_URGENT_REQUEST (R690, R691): it starts at once, waits, merges with one that waits, or is refused and counted. -/
def execHkcUrgentRequest (b : BayNo) (x : Fin 2) (chan : Fin 25) (s : State) : Out :=
  let k := (s.bay b).hkc.conv[x]
  if !s.hkcOn b || !urgentAllowed x chan.val then .next s
  else
    let waiting := if x = 0 then k.waitCal else k.waitOvl
    match waiting with
    | some c =>
      if c = chan.val then .next s
      else
        let s1 := s.modConv b x fun k => { k with refused := k.refused + 1, refuseTold := true }
        .next (if k.refuseTold then s1 else s1.event b 0x1503 [wd x.val])
    | none =>
      .next (s.modConv b x fun k =>
        (if x = 0 then { k with waitCal := some chan.val } else { k with waitOvl := some chan.val }).beginWaiting (decide (x = 1)) false)

/-- HKC_URGENT_DONE (R687, R690, R691): the urgent conversion completes and its code is delivered; a waiting one follows. -/
def execHkcUrgentDone (b : BayNo) (x : Fin 2) (code : BitVec 16) (s : State) : Out :=
  match (s.bay b).hkc.conv[x].urgent with
  | none => .next s
  | some chan =>
    if !s.hkcOn b then .next s
    else
      let c := s.useCode b x chan code.toNat
      let s1 := s.modConv b x fun k =>
        ({ k with
           urgent := none, urgentCode := BitVec.ofNat 16 c, urgentChan := chan, urgentCount := k.urgentCount + 1
           since := k.since + 1 } : HkConv).beginWaiting (decide (x = 1)) true
      .next (s1.noteDetector b chan code.toNat)

/-- A scan change at its EPOCH point: every accumulator of the converter restarts, and the scan starts with slot 0 (R686,
R692). -/
def State.scanChanged (s : State) (b : BayNo) (x : Fin 2) : State :=
  s.modConv b x fun k => { k with slot := 0, accs := Vector.replicate 25 .reset }

/-- The converters start at the end of phase 2 and at FLOOD after STANDBY (R682, R692). -/
def State.hkcStart (s : State) (b : BayNo) : State :=
  (s.modBay b fun x => { x with pwr := { x.pwr with hkc := true } }).modHkc b fun h =>
    { h with conv := h.conv.map fun k => { HkConv.reset with urgentCount := k.urgentCount, refused := k.refused }
             disagree := false, sealedB := false, fails := 0, passes := 0, fe := Vector.replicate 2 .reset
             feAt := Vector.replicate 2 (s.nowAt b) }

/-- T_fe in 0.0001 °C from the mean of an interval's sealed conversions: T = 25 °C + (V − 0.600 V) / 2 mV/K (R680, R688). -/
def feTemp (a : HkAcc) : Int := divRound ((a.sum : Int) * 12500000) (65536 * max 1 a.count) - 2750000

/-- The first whole 100 ms of the tide counter after a stamp. -/
def nextTenth (t : Stamp) : Stamp := BitVec.ofNat 96 (ceilDiv ((t.toNat * 10 / unitsPerSec + 1) * unitsPerSec) 10)

/-- CAL_TEMP_INTERVAL (R665, R670, R688): a 100 ms interval of the tide counter ends for input `i`; without a sealed conversion in
it T_fe stays as it is. -/
def execCalTempInterval (b : BayNo) (i : Fin 2) (s0 : State) : Out :=
  let a := (s0.bay b).hkc.fe[i]
  if !s0.calOn b || s0.quiet || decide (a.count = 0) then .next s0
  else
    let t := feTemp a
    let e := nextTenth (s0.bay b).hkc.feAt[i]
    let s := s0.reach e
    let s0 := s.modHkc b fun h => { h with fe := h.fe.set i .reset, feAt := h.feAt.set i e }
    let s1 := s0.modCal b i fun c => { c with tfe := t }
    let c := s1.calIn b i
    let far := decide ((t - c.tcal).natAbs > 100 * s.fldN Fld.calDeltaT b)
    .next (if c.idle && (s.fldN Fld.calAuto b).testBit 0 && far then s1.calDueNow b i 1 else s1)

/-! ### Registers -/

/-- HKC_STATUS (R695). -/
def State.hkcStatus (s : State) (b : BayNo) : Word :=
  let h := (s.bay b).hkc
  let urgent := fun (k : HkConv) => k.urgent.isSome || k.waitCal.isSome || k.waitOvl.isSome
  wd (bitW (s.hkcOn b) + 2 * bitW (s.hkcOn b) + 4 * bitW h.disagree + 8 * bitW h.sealedB + 16 * bitW (urgent h.conv[0]) +
    32 * bitW (urgent h.conv[1]))

/-- A result register's word (R694). -/
def HkResult.word (r : HkResult) : Word := wd (r.value.toNat + 16777216 * bitW r.corrected + 268435456 * r.update.toNat)

/-- The HKC registers (R694). -/
def State.hkcReg (s : State) (b : BayNo) (off : Nat) : Word :=
  let h := (s.bay b).hkc
  let result := fun (x : Fin 2) (n : Nat) => if hn : n < 25 then h.conv[x].results[n].word else 0
  let priv := fun (x : Fin 2) (n : Nat) =>
    if hn : n < 4 then wd (h.conv[x].sealedResults[n].value.toNat % 65536 + 268435456 * h.conv[x].sealedResults[n].update.toNat) else 0
  match off with
  | 0x000 => s.hkcStatus b
  | 0x004 => Word.ofSigned h.refDiff
  | 0x008 => h.conv[1].refused ++ h.conv[0].refused ++ h.conv[1].urgentCount ++ h.conv[0].urgentCount
  | 0x00C => h.setCount ++ h.failCount
  | 0x010 => wd (h.conv[0].urgentCode.toNat + 65536 * h.conv[0].urgentChan)
  | 0x014 => wd (h.conv[1].urgentCode.toNat + 65536 * h.conv[1].urgentChan)
  | _ =>
    if 0x100 ≤ off ∧ off < 0x164 then result 0 ((off - 0x100) / 4)
    else if 0x200 ≤ off ∧ off < 0x264 then result 1 ((off - 0x200) / 4)
    else if 0x300 ≤ off ∧ off < 0x310 then priv 0 ((off - 0x300) / 4)
    else if 0x310 ≤ off ∧ off < 0x320 then priv 1 ((off - 0x310) / 4)
    else 0

end Sys2Proof.Machine
end

