-- ==== Sys2Proof/Machine/CoreExec.lean ====
section
/-! DEFINITION. What one instruction of a measurement core does to its core: results, accumulators, searches, windows and
cycles (R399 to R411). -/
namespace Sys2Proof.Machine

/-! ### Values -/

/-- A number saturated to n signed bits, and whether it was. -/
def satSigned (n : Nat) (v : Int) : Int × Bool :=
  let hi : Int := 2 ^ (n - 1)
  if v ≥ hi then (hi - 1, true) else if v < -hi then (-hi, true) else (v, false)

/-- A signed result saturated to 32 bits, with whether it saturated. -/
def satWord (v : Int) : Word × Bool := (BitVec.ofInt 32 (satSigned 32 v).1, (satSigned 32 v).2)

/-- A condition as a word. -/
def condWord (c : Bool) : Word := if c then 1 else 0

/-- Leading zero bits of a word, 0 to 32 (R404). -/
def leadingZeros (a : Word) : Nat := if a = 0 then 32 else 31 - a.toNat.log2

/-- A 16-bit half of a register. -/
def halfOf (a : Word) (high : Bool) : BitVec 16 := if high then a.extractLsb' 16 16 else a.extractLsb' 0 16

/-- The ALU functions (R404): the result, and whether it saturated (R401). -/
def AluFn.value (fn : AluFn) (a b : Word) (sh : Nat) : Word × Bool :=
  match fn with
  | .add => (a + b, false)
  | .sub => (a - b, false)
  | .and => (a &&& b, false)
  | .or => (a ||| b, false)
  | .xor => (a ^^^ b, false)
  | .shl => (a <<< (b.toNat % 32), false)
  | .shr => (a >>> (b.toNat % 32), false)
  | .sar => (a.sshiftRight (b.toNat % 32), false)
  | .adds => satWord (a.toInt + b.toInt)
  | .subs => satWord (a.toInt - b.toInt)
  | .min => (if a.toInt ≤ b.toInt then a else b, false)
  | .max => (if a.toInt ≥ b.toInt then a else b, false)
  | .minu => (if a.toNat ≤ b.toNat then a else b, false)
  | .maxu => (if a.toNat ≥ b.toNat then a else b, false)
  | .abs => satWord a.toInt.natAbs
  | .slt => (condWord (decide (a.toInt < b.toInt)), false)
  | .sltu => (condWord (decide (a.toNat < b.toNat)), false)
  | .shli => (a <<< sh, false)
  | .shri => (a >>> sh, false)
  | .sari => (a.sshiftRight sh, false)
  | .clz => (wd (leadingZeros a), false)
  | .mul16 => (BitVec.ofInt 32 ((halfOf a false).toInt * (halfOf b false).toInt), false)

/-- The immediate operations (R403). -/
def ImmFn.value (fn : ImmFn) (a : Word) (v : BitVec 16) : Word :=
  match fn with
  | .addi => a + v.signExtend 32
  | .andi => a &&& v.zeroExtend 32
  | .ori => a ||| v.zeroExtend 32
  | .xori => a ^^^ v.zeroExtend 32
  | .lui => v ++ (0 : BitVec 16)

/-- The branch conditions (R403). -/
def BranchFn.taken (fn : BranchFn) (a b : Word) : Bool :=
  match fn with
  | .beq => decide (a = b)
  | .bne => decide (a ≠ b)
  | .blt => decide (a.toInt < b.toInt)
  | .bge => decide (a.toInt ≥ b.toInt)
  | .bltu => decide (a.toNat < b.toNat)
  | .bgeu => decide (a.toNat ≥ b.toNat)

/-! ### Core helpers -/

/-- Set STAT.OVF when a saturation happened; it is sticky (R401). -/
def Core.overflow (k : Core) (sat : Bool) : Core := { k with ovf := k.ovf || sat }

/-- Write an accumulator, saturated to 40 bits (R400). -/
def Core.setAcc (k : Core) (a : Fin 2) (v : Int) : Core :=
  let r := satSigned 40 v
  ({ k with acc := k.acc.set a (BitVec.ofInt 40 r.1) } : Core).overflow r.2

/-- The operand of a multiply type: signed or unsigned (R403). -/
def mulOperand (v : BitVec 16) (signed : Bool) : Int := if signed then v.toInt else (v.toNat : Int)

/-- The product of a MAC or MACP (R403). -/
def mulOf (type : Fin 3) (a b : BitVec 16) : Int :=
  mulOperand a (decide (type.val ≠ 1)) * mulOperand b (decide (type.val = 0))

/-- Accumulate a product (R403): `clr` takes the product in place of the sum. -/
def Core.accumulate (k : Core) (a : Fin 2) (neg clr : Bool) (p : Int) : Core :=
  k.setAcc a ((if clr then 0 else k.acc[a].toInt) + (if neg then -p else p))

/-- A value shifted right by `sh` with its discarded bits rounded: 0 towards −∞, 1 half up, 2 half to even (R400). -/
def roundShift (v : Int) (sh : Nat) (mode : Fin 3) : Int :=
  let q := v / 2 ^ sh
  let r := v % 2 ^ sh
  let half : Int := 2 ^ sh / 2
  if sh = 0 ∨ mode.val = 0 then q
  else if r > half ∨ (r = half ∧ (mode.val = 1 ∨ q % 2 = 1)) then q + 1 else q

/-- STA (R400, R405). -/
def Core.sta (k : Core) (a : Fin 2) (r : CReg) (sh : Nat) (wide : Bool) (rnd : Fin 3) : Core :=
  let v := satSigned (if wide then 32 else 16) (roundShift k.acc[a].toInt sh rnd)
  (k.setReg r (BitVec.ofInt 32 v.1)).overflow v.2

/-- SHA (R405). -/
def Core.sha (k : Core) (a : Fin 2) (sh : Int) : Core :=
  if sh < 0 then { k with acc := k.acc.set a (k.acc[a].sshiftRight (-sh).toNat) }
  else k.setAcc a (k.acc[a].toInt * 2 ^ sh.toNat)

/-- The outcome of an instruction on its core: the core after it, or the code of its fault (R416). -/
inductive CoreRes where
  | done (k : Core)
  | fault (cause : Nat)
  deriving DecidableEq, Repr

/-- An access of `n` bytes at `a` must be aligned (R398). -/
def aligned (a n : Nat) : Bool := decide (a % n = 0)

/-- Address of a format M access: at Pp with post-modify, at Pp + off12 without (R402). -/
def Core.mAddress (k : Core) (p : Fin 8) (pm : Bool) (off : BitVec 12) : Nat :=
  if pm then (k.ptr p).p.toNat else rockAddr ((k.ptr p).p.toNat + off.toInt)

/-- The address register after the access of a format M instruction: none breaks R399. -/
def Core.mAfter (k : Core) (p : Fin 8) (pm : Bool) : Option AddrReg := if pm then (k.ptr p).next else some (k.ptr p)

/-- Address of a format L access (R403). -/
def Core.lAddress (k : Core) (ra : CReg) (off : BitVec 13) : Nat := rockAddr ((k.reg ra).toInt + off.toInt)

/-- An access that needs alignment and a legal post-modify; an illegal post-modify is found first. -/
def coreAccess (a n : Nat) (after : Option AddrReg) (f : AddrReg → Core) : CoreRes :=
  match after with
  | none => .fault 1
  | some p => if aligned a n then .done (f p) else .fault 2

/-- A load. -/
def Core.load (k : Core) (rd : CReg) (a : Nat) (w : CoreWidth) (sx : Bool) : Core :=
  k.setReg rd (extendLoad w sx (k.peek a w.bytes))

/-- A store of the low bits of a register. -/
def Core.store (k : Core) (rd : CReg) (a : Nat) (w : CoreWidth) : Core := k.poke a w.bytes (k.reg rd).toNat

/-- One search step (R409). -/
def Core.searchStep (k : Core) (fn : SearchFn) (v : Word) (skip : Bool) : Core :=
  let k1 := if !skip && decide (fn ≠ .smin) && decide (k.mxv.toInt < v.toInt) then { k with mxv := v, mxi := k.sidx } else k
  let k2 := if !skip && decide (fn ≠ .smax) && decide (v.toInt < k1.mnv.toInt) then { k1 with mnv := v, mni := k1.sidx } else k1
  { k2 with sidx := k2.sidx + 1 }

/-- The element of a search, sign-extended (R409). -/
def Core.element (k : Core) (a : Nat) (wide : Bool) : Word :=
  if wide then k.peekWord a else extendLoad .half true (k.peek a 2)

/-- The value that SKIP passes over (R409). -/
def skipValue (wide : Bool) : Word := if wide then 0x80000000 else 0xFFFF8000

/-- MACP (R403): with one pointer, one element and one post-modify. -/
def Core.macp (k : Core) (a : Fin 2) (neg clr : Bool) (type : Fin 3) (pa pb : Fin 8) : CoreRes :=
  let x := k.ptr pa
  let y := k.ptr pb
  match x.next, y.next with
  | some x', some y' =>
    if aligned x.p.toNat 2 && aligned y.p.toNat 2 then
      let p := mulOf type (BitVec.ofNat 16 (k.peek x.p.toNat 2)) (BitVec.ofNat 16 (k.peek y.p.toNat 2))
      let k1 := (k.accumulate a neg clr p).setPtr pa x'
      .done (if pa = pb then k1 else k1.setPtr pb y')
    else .fault 2
  | _, _ => .fault 1

/-- What an instruction that may be the body of a REP does, beyond the program counter (R402 to R409). -/
def Core.work (k : Core) (i : CoreInstr) : CoreRes :=
  match i with
  | .alu fn rd ra rb sh =>
    let r := fn.value (k.reg ra) (k.reg rb) sh
    .done ((k.setReg rd r.1).overflow r.2)
  | .imm fn rd ra v => .done (k.setReg rd (fn.value (k.reg ra) v))
  | .ld rd p w sx pm off =>
    let a := k.mAddress p pm off
    coreAccess a w.bytes (k.mAfter p pm) fun q => (k.load rd a w sx).setPtr p q
  | .st rd p w pm off =>
    let a := k.mAddress p pm off
    coreAccess a w.bytes (k.mAfter p pm) fun q => (k.store rd a w).setPtr p q
  | .ldr rd ra w sx off =>
    let a := k.lAddress ra off
    if aligned a w.bytes then .done (k.load rd a w sx) else .fault 2
  | .str rd ra w off =>
    let a := k.lAddress ra off
    if aligned a w.bytes then .done (k.store rd a w) else .fault 2
  | .mac a neg clr type ra rb ha hb => .done (k.accumulate a neg clr (mulOf type (halfOf (k.reg ra) ha) (halfOf (k.reg rb) hb)))
  | .macp a neg clr type pa pb => k.macp a neg clr type pa pb
  | .sta a r sh wide rnd => .done (k.sta a r sh wide rnd)
  | .lda a r sh => .done (k.setAcc a ((k.reg r).toInt * 2 ^ sh))
  | .adda a r sh => .done (k.setAcc a (k.acc[a].toInt + (k.reg r).toInt * 2 ^ sh))
  | .sha a sh => .done (k.sha a sh)
  | .srst ra => .done { k with sidx := k.reg ra, mxv := 0x80000000, mnv := 0x7FFFFFFF, mxi := 0xFFFFFFFF, mni := 0xFFFFFFFF }
  | .search fn p wide skip =>
    let a := (k.ptr p).p.toNat
    coreAccess a (if wide then 4 else 2) (k.ptr p).next fun q =>
      let v := k.element a wide
      (k.searchStep fn v (skip && decide (v = skipValue wide))).setPtr p q
  | _ => .done k

/-! ### Cycles (R407) -/

/-- Codes of what an instruction may wait for: 0 to 27 general registers, 32 and 33 an accumulator for STA and MFS, 34 and
35 an accumulator written by MTS, 40 the search registers for MFS, 64 + n special register n after MTS. -/
def accCodes (a : Fin 2) : List Nat := [32 + a.val, 34 + a.val]

/-- The special registers of an address register. -/
def ptrCodes (p : Fin 8) (pm : Bool) : List Nat :=
  (if pm then [0x40, 0x48, 0x50, 0x58] else [0x40]).map fun n => 64 + n + p.val

/-- The special registers whose value is an accumulator or a search register. -/
def specialCodes (n : Nat) : List Nat :=
  [64 + n] ++ (if 0x0D ≤ n ∧ n ≤ 0x10 then accCodes ⟨(n - 0x0D) / 2 % 2, Nat.mod_lt _ (by decide)⟩ else []) ++
    (if 0x08 ≤ n ∧ n ≤ 0x0C then [40] else [])

/-- What an instruction uses. -/
def CoreInstr.uses (i : CoreInstr) : List Nat :=
  match i with
  | .alu fn _ ra rb _ => if fn.usesB then [ra.val, rb.val] else [ra.val]
  | .imm fn _ ra _ => if fn = .lui then [] else [ra.val]
  | .branch _ ra rb _ => [ra.val, rb.val]
  | .jr ra => [ra.val]
  | .call _ => [64 + 5, 64 + 6]
  | .ret => [27, 64 + 5, 64 + 7]
  | .repReg r => [r.val]
  | .ld _ p _ _ pm _ => ptrCodes p pm
  | .st rd p _ pm _ => rd.val :: ptrCodes p pm
  | .ldr _ ra _ _ _ => [ra.val]
  | .str rd ra _ _ => [rd.val, ra.val]
  | .mac a _ _ _ ra rb _ _ => [ra.val, rb.val, 34 + a.val]
  | .macp a _ _ _ pa pb => [34 + a.val] ++ ptrCodes pa true ++ ptrCodes pb true
  | .sta a _ _ _ _ => accCodes a
  | .lda _ r _ => [r.val]
  | .adda a r _ => [r.val, 34 + a.val]
  | .sha a _ => [34 + a.val]
  | .srst ra => [ra.val]
  | .search _ p _ _ => [64 + 8, 64 + 9, 64 + 10, 64 + 11, 64 + 12] ++ ptrCodes p true
  | .mfs _ n => specialCodes n.val
  | .mts _ ra => [ra.val]
  | .evt _ ra => [ra.val, 64 + 0x18, 64 + 0x19, 64 + 0x1A]
  | .emit ra rb => [ra.val, rb.val, 64 + 0x17, 64 + 0x18, 64 + 0x19, 64 + 0x1A]
  | .post ra => [ra.val]
  | .reti => [64 + 3, 64 + 4]
  | _ => []

/-- What an instruction's results can be used after: codes with their latency. -/
def CoreInstr.gives (i : CoreInstr) : List (Nat × Nat) :=
  match i with
  | .alu fn rd _ _ _ => [(rd.val, if fn = .mul16 then 2 else 1)]
  | .imm _ rd _ _ => [(rd.val, 1)]
  | .jal rd _ => [(rd.val, 1)]
  | .ld rd .. => [(rd.val, 2)]
  | .ldr rd .. => [(rd.val, 2)]
  | .mac a .. => [(32 + a.val, 3)]
  | .macp a .. => [(32 + a.val, 3)]
  | .lda a .. => [(32 + a.val, 3)]
  | .adda a .. => [(32 + a.val, 3)]
  | .sha a _ => [(32 + a.val, 3)]
  | .sta _ r .. => [(r.val, 2)]
  | .srst _ => [(40, 2)]
  | .search .. => [(40, 2)]
  | .mfs rd _ => [(rd.val, 1)]
  | .mts n _ =>
    (64 + n.val, 2) :: (if 0x0D ≤ n.val ∧ n.val ≤ 0x10 then [(34 + (n.val - 0x0D) / 2, 2)] else [])
  | _ => []

/-- Stall cycles before an instruction that uses `us` issues. -/
def Core.stall (k : Core) (us : List Nat) : Nat :=
  k.ready.foldl (fun n e => if us.contains e.1 then max n (e.2 - k.clock) else n) 0

/-- Spend the stall and the cycles of an instruction, and note when its results can be used. -/
def Core.spend (k : Core) (us : List Nat) (gives : List (Nat × Nat)) (cost : Nat) : Core :=
  let st := k.stall us
  let t := k.clock + st
  let keep := k.ready.filter fun e => decide (t + cost < e.2) && !(gives.map (·.1)).contains e.1
  { k with clock := t + cost, cycles := k.cycles + wd (st + cost), ready := keep ++ gives.map fun e => (e.1, t + e.2) }

/-! ### Control flow -/

/-- Enter a handler: at an interrupt boundary or by SPILL_OVERFLOW (R413). Six cycles (R407). -/
def Core.enter (k : Core) (ira target : BitVec 14) : Core :=
  ({ k with ira := ira, istat := k.ie, ie := false, shadow := true, pc := target, waiting := false } : Core).spend [] [] 6

/-- The twelve registers of the window that CALL spills, or that RET fills (R410). -/
def Core.spillWindow (k : Core) (w : Fin 8) (a : Nat) : Core := k.pokeWords a k.windows[w].toList

/-- Fill the current window from the spill stack. -/
def Core.fillWindow (k : Core) (w : Fin 8) (a : Nat) : Core :=
  { k with windows := k.windows.set w (Vector.ofFn fun (j : Fin 12) => k.peekWord (a + 4 * j.val)) }

/-- CALL outside a handler (R410). The result is the core with its program counter set, and the cycles. -/
def Core.callTo (k : Core) (t : BitVec 14) : CoreRes :=
  if k.shadow then .fault 4
  else if k.resident = 8 ∧ k.ssp.toNat + 48 > k.slim.toNat then .done (k.enter k.pc 4)
  else if k.resident = 8 ∧ !aligned k.ssp.toNat 4 then .fault 2
  else
    let spills := decide (k.resident = 8)
    let k1 := if spills then
        { k.spillWindow (k.cwp + 1) k.ssp.toNat with ssp := k.ssp + 48, resident := 7, spills := k.spills + 1 }
      else k
    let k2 := { k1 with cwp := k1.cwp + 1, resident := k1.resident + 1 }
    let k3 := k2.setReg 27 ((k.pc + 1).zeroExtend 32)
    .done (({ k3 with pc := t } : Core).spend [64 + 5, 64 + 6] [] (if spills then 17 else 3))

/-- RET outside a handler (R410). -/
def Core.ret (k : Core) : CoreRes :=
  if k.shadow then .fault 4
  else if k.resident = 1 ∧ k.ssp = k.sbase then .fault 3
  else if k.resident = 1 ∧ !aligned k.ssp.toNat 4 then .fault 2
  else
    let k1 := { k with pc := (k.reg 27).setWidth 14, cwp := k.cwp - 1 }
    if k.resident = 1 then
      let k2 := { k1 with ssp := k1.ssp - 48, fills := k1.fills + 1 }
      .done ((k2.fillWindow k2.cwp k2.ssp.toNat).spend [27, 64 + 5, 64 + 7] [] 17)
    else .done (({ k1 with resident := k1.resident - 1 } : Core).spend [27, 64 + 5, 64 + 7] [] 3)

/-- RETI (R413). -/
def Core.reti (k : Core) : CoreRes :=
  if k.shadow then .done (({ k with shadow := false, ie := k.istat, pc := k.ira } : Core).spend [64 + 3, 64 + 4] [] 5)
  else .fault 1

/-- EI and DI: ISTAT [0] inside a handler, STAT.IE outside (R413). -/
def Core.setIe (k : Core) (v : Bool) : Core := if k.shadow then { k with istat := v } else { k with ie := v }

/-- The word at an index of instruction memory: NOP where nothing was loaded (R426). -/
def Core.fetchAt (k : Core) (a : BitVec 14) : Word := Sparse.get 0 k.imem a.toNat

/-- The body of a REP, `n` times (R408): a fault of the body is its fault. -/
def Core.repeat (i : CoreInstr) : Nat → Core → CoreRes
  | 0, k => .done k
  | n + 1, k =>
    match k.work i with
    | .fault c => .fault c
    | .done k1 => Core.repeat i n k1

end Sys2Proof.Machine
end

