-- ==== Sys2Proof/Machine/Mco.lean ====
section
/-! DEFINITION. Commands of the measurement cores: instruction issue, interrupts, restarts, feeds and MC_CTRL (R396 to
R432). -/
namespace Sys2Proof.Machine

/-! ### Issue -/

/-- The next instruction word of a core. -/
def Core.word (k : Core) : Word := k.fetchAt k.pc

/-- The core issues an instruction now: it runs, is not suspended in WAIT, and no interrupt is taken first (R413, R415,
R428). -/
def State.canIssue (s : State) (b : BayNo) (c : CoreNo) : Bool :=
  let k := s.core b c
  s.coreAwake b c && decide (k.mode = .run) && !k.waiting && k.takeable.isNone

/-- Put a core's result: its next state, or its fault at index `pc` (R416). -/
def State.putCore (s : State) (b : BayNo) (c : CoreNo) (pc : BitVec 14) (r : CoreRes) : State :=
  match r with
  | .done k => s.modCore b c fun _ => k
  | .fault cause => s.coreFault b c cause pc

/-- A duration of `n` FCLK cycles (R115). -/
def ofFclk (n : Nat) : Nat := durOf (n * 78125) 100000000000000

/-- The stamp of EVT and EMIT: ESTMP, or the tide counter when ESTMP is zero (R421, R422). -/
def State.coreStamp (s : State) (b : BayNo) (k : Core) : Stamp :=
  let t := stampOf k.estmp[0] k.estmp[1] k.estmp[2]
  if t = 0 then s.nowAt b else t

/-- TCOUNT: the cycles until the timer line is raised (R406). -/
def State.coreCount (s : State) (b : BayNo) (k : Core) : Word :=
  match k.timerDue with
  | none => 0
  | some t => if stampLe t (s.nowAt b) then 0 else wd (ceilDiv ((t - s.nowAt b).toNat * 100000000000000) (78125 * unitsPerSec))

/-- STAT (R406). -/
def Core.stat (k : Core) : Word :=
  wd (bitW k.ovf + 2 * bitW k.ie + 4 * bitW k.shadow + 8 * k.cwp.val + 64 * k.resident)

/-- CORE_ID (R406). -/
def State.coreId (s : State) (b : BayNo) (c : CoreNo) : Word :=
  wd (c.val + 8 * b.val + 64 * s.packageNo.toNat + 256 * bitW (s.sealedCore b c))

/-- A special register read by MFS (R406): none is an unlisted number. A write-only register reads as zero. -/
def State.specialReg (s : State) (b : BayNo) (c : CoreNo) (k : Core) (n : Nat) : Option Word :=
  let y := (s.bay b).tbs
  if 0x40 ≤ n ∧ n < 0x60 then
    let a := k.ptr (ptrOf n)
    some (match (n - 0x40) / 8 with
      | 0 => a.p.zeroExtend 32
      | 1 => a.base.zeroExtend 32
      | 2 => a.len.zeroExtend 32
      | _ => wd (a.step.toNat + 65536 * a.mode.toNat))
  else
    match n with
    | 0x00 => some k.stat
    | 0x01 => some (k.ipend.zeroExtend 32)
    | 0x02 => some (k.imask.zeroExtend 32)
    | 0x03 => some (k.ira.zeroExtend 32)
    | 0x04 => some (condWord k.istat)
    | 0x05 => some k.ssp
    | 0x06 => some k.slim
    | 0x07 => some k.sbase
    | 0x08 => some k.mxv
    | 0x09 => some k.mxi
    | 0x0A => some k.mnv
    | 0x0B => some k.mni
    | 0x0C => some k.sidx
    | 0x0D => some (k.acc[0].extractLsb' 0 32)
    | 0x0E => some ((k.acc[0].extractLsb' 32 8).signExtend 32)
    | 0x0F => some (k.acc[1].extractLsb' 0 32)
    | 0x10 => some ((k.acc[1].extractLsb' 32 8).signExtend 32)
    | 0x11 => some k.timer
    | 0x12 => some (s.coreCount b k)
    | 0x13 => some 0
    | 0x14 => some (s.coreId b c)
    | 0x15 => some k.mboxIn
    | 0x16 => some 0
    | 0x17 => some (k.rflags.zeroExtend 32)
    | 0x18 => some k.estmp[0]
    | 0x19 => some k.estmp[1]
    | 0x1A => some k.estmp[2]
    | 0x1B => some ((s.nowAt b).extractLsb' 0 32)
    | 0x1C => some (k.nowLatch.extractLsb' 32 32)
    | 0x1D => some (k.nowLatch.extractLsb' 64 32)
    | 0x1E => some (y.epoch.extractLsb' 0 32)
    | 0x1F => some (y.epoch.extractLsb' 32 32)
    | 0x20 => some (y.epochStart.extractLsb' 0 32)
    | 0x21 => some (y.epochStart.extractLsb' 32 32)
    | 0x22 => some (y.epochStart.extractLsb' 64 32)
    | 0x23 => some (wd (k.trigUnit.val + 65536 * k.trigCount.toNat))
    | 0x24 => some (k.trigStamp.extractLsb' 0 32)
    | 0x25 => some (k.trigStamp.extractLsb' 32 32)
    | 0x26 => some (k.trigStamp.extractLsb' 64 32)
    | _ => none

/-- What MFS leaves beside its destination: a read of NOW0 latches the counter (R406). -/
def State.specialRead (s : State) (b : BayNo) (k : Core) (n : Nat) : Core :=
  if n = 0x1B then { k with nowLatch := s.nowAt b } else k

/-- MTS to a special register (R406): none is an unlisted number or a register marked RO. -/
def State.specialWrite (s : State) (b : BayNo) (k : Core) (n : Nat) (v : Word) : Option Core :=
  if 0x40 ≤ n ∧ n < 0x60 then
    let p := ptrOf n
    let a := k.ptr p
    some (k.setPtr p (match (n - 0x40) / 8 with
      | 0 => { a with p := v.setWidth 17 }
      | 1 => { a with base := v.setWidth 17 }
      | 2 => { a with len := v.setWidth 18 }
      | _ => { a with step := v.setWidth 16, mode := v.extractLsb' 16 2 }))
  else
    match n with
    | 0x00 => some (if v.getLsbD 0 then k else { k with ovf := false })
    | 0x01 => some { k with ipend := k.ipend &&& ~~~(v.setWidth 10) }
    | 0x02 => some { k with imask := v.setWidth 10 }
    | 0x03 => some { k with ira := v.setWidth 14 }
    | 0x04 => some { k with istat := v.getLsbD 0 }
    | 0x05 => some { k with ssp := v }
    | 0x06 => some { k with slim := v }
    | 0x07 => some { k with sbase := v }
    | 0x08 => some { k with mxv := v }
    | 0x09 => some { k with mxi := v }
    | 0x0A => some { k with mnv := v }
    | 0x0B => some { k with mni := v }
    | 0x0C => some { k with sidx := v }
    | 0x0D => some { k with acc := k.acc.set 0 (k.acc[0].extractLsb' 32 8 ++ v) }
    | 0x0E => some { k with acc := k.acc.set 0 (v.extractLsb' 0 8 ++ k.acc[0].extractLsb' 0 32) }
    | 0x0F => some { k with acc := k.acc.set 1 (k.acc[1].extractLsb' 32 8 ++ v) }
    | 0x10 => some { k with acc := k.acc.set 1 (v.extractLsb' 0 8 ++ k.acc[1].extractLsb' 0 32) }
    | 0x11 => some { k with timer := v, timerDue := if v = 0 then none else some (later (s.nowAt b) (ofFclk v.toNat)) }
    | 0x13 => some { k with wdtFrom := s.nowAt b }
    | 0x16 => some { k with mboxOut := v }
    | 0x17 => some { k with rflags := v.setWidth 8 &&& 0x23 }
    | 0x18 => some { k with estmp := k.estmp.set 0 v }
    | 0x19 => some { k with estmp := k.estmp.set 1 v }
    | 0x1A => some { k with estmp := k.estmp.set 2 v }
    | _ => none

/-- The flags of a RESULT record (R422). -/
def Core.resultFlags (k : Core) : BitVec 8 := k.rflags &&& 0x23

/-- Words of rockpool memory from `a`. -/
def Core.peekWords (k : Core) (a n : Nat) : List Word := (List.range n).map fun j => k.peekWord (a + 4 * j)

/-- EMIT on a core that runs no copy (R416, R417, R422). -/
def State.coreEmit (s : State) (b : BayNo) (c : CoreNo) (ra rb : CReg) : CoreRes :=
  let k := s.core b c
  let a := (k.reg ra).toNat
  let n := (k.reg rb).toNat % 65536
  if n = 0 ∨ n > 1024 ∨ a + 32 * n > 0x20000 then .fault 7
  else if !aligned a 4 then .fault 2
  else
    let t := s.coreStamp b k
    let dead := match k.faultUntil with
      | none => false
      | some none => stampLt t s.tbs.grid.next
      | some (some e) => stampLt t e
    let k1 := { k with
      copying := some (.result ((k.reg rb).extractLsb' 16 16) k.resultFlags t (!dead && k.gapNext) a (k.peekWords a (8 * n)) dead)
      rflags := 0, emits := k.emits + 1, gapNext := k.gapNext && dead, pc := k.pc + 1 }
    .done (k1.spend (CoreInstr.emit ra rb).uses [] 1)

/-- The core that posts the readout (R383, R423). -/
def State.readoutCore (s : State) (b : BayNo) (c : CoreNo) : Bool :=
  s.sealedCore b c && decide (s.fldN Fld.scnRoCore b = c.val)

/-- POST on a core that runs no copy (R423). -/
def State.corePost (s : State) (b : BayNo) (c : CoreNo) (ra : CReg) : CoreRes :=
  let k := s.core b c
  let a := (k.reg ra).toNat
  if !s.readoutCore b c then .fault 1
  else if !aligned a 4 then .fault 2
  else
    let n := s.fldN Fld.scnRoCols b * s.fldN Fld.scnRoRows b
    .done (({ k with copying := some (.post a (k.peekWords a (ceilDiv n 2))), pc := k.pc + 1 } : Core).spend [ra.val] [] 1)

/-- REP (R408): its body is the next instruction; a fault of the body is taken at the body. -/
def State.coreRep (s : State) (b : BayNo) (c : CoreNo) (i : CoreInstr) (n : Nat) : State :=
  let k := s.core b c
  match decodeCore (k.fetchAt (k.pc + 1)) with
  | none => s.coreFault b c 1 k.pc
  | some body =>
    if !body.repBody then s.coreFault b c 1 k.pc
    else if n > 4096 then s.coreFault b c 5 k.pc
    else if n = 0 then s.modCore b c fun _ => ({ k with pc := k.pc + 2 } : Core).spend i.uses [] 1
    else
      let k0 := k.spend i.uses [] 1
      let k1 := k0.spend body.uses body.gives n
      match Core.repeat body n k1 with
      | .fault cause => s.coreFault b c cause (k.pc + 1)
      | .done k2 => s.modCore b c fun _ => { k2 with pc := k.pc + 2 }

/-- EVT (R297, R421). -/
def State.coreEvt (s : State) (b : BayNo) (c : CoreNo) (line : Fin 4) (ra : CReg) : State :=
  let k := s.core b c
  let s1 := s.modCore b c fun _ => ({ k with pc := k.pc + 1 } : Core).spend (CoreInstr.evt line ra).uses [] 1
  s1.coreLine b c line.val (s.coreStamp b k) (k.reg ra)

/-- MTS, with EV_CORE_MBOX for a write of MBOX_OUT (R406, R432). -/
def State.coreMts (s : State) (b : BayNo) (c : CoreNo) (n : Fin 256) (ra : CReg) : State :=
  let k := s.core b c
  let v := k.reg ra
  match s.specialWrite b k n.val v with
  | none => s.coreFault b c 1 k.pc
  | some k1 =>
    let i := CoreInstr.mts n ra
    let s1 := s.modCore b c fun _ => ({ k1 with pc := k.pc + 1 } : Core).spend i.uses i.gives 1
    if n.val = 0x16 then s1.event b 0x0A04 [wd c.val, v] else s1

/-- MFS (R406). -/
def State.coreMfs (s : State) (b : BayNo) (c : CoreNo) (rd : CReg) (n : Fin 256) : State :=
  let k := s.core b c
  match s.specialReg b c k n.val with
  | none => s.coreFault b c 1 k.pc
  | some v =>
    let i := CoreInstr.mfs rd n
    s.modCore b c fun _ => ({ (s.specialRead b k n.val).setReg rd v with pc := k.pc + 1 } : Core).spend i.uses i.gives 1

/-- HALT (R403, R432). -/
def State.coreHalt (s : State) (b : BayNo) (c : CoreNo) : State :=
  (s.modCore b c fun k => ({ k with mode := .halted, pc := k.pc + 1 } : Core).spend [] [] 1).event b 0x0A03 [wd c.val]

/-- WAIT (R415). -/
def State.coreWait (s : State) (b : BayNo) (c : CoreNo) : State :=
  s.modCore b c fun k =>
    ({ k with pc := k.pc + 1, waiting := !k.called, waitFrom := s.nowAt b } : Core).spend [] [] 1

/-- What an instruction does in its state (R402 to R424). -/
def State.coreRun (s : State) (b : BayNo) (c : CoreNo) (i : CoreInstr) : State :=
  let k := s.core b c
  match i with
  | .branch fn ra rb off =>
    let taken := fn.taken (k.reg ra) (k.reg rb)
    s.modCore b c fun _ =>
      ({ k with pc := if taken then k.pc + 1 + off.setWidth 14 else k.pc + 1 } : Core).spend i.uses [] (if taken then 3 else 1)
  | .jmp t => s.modCore b c fun _ => ({ k with pc := t } : Core).spend [] [] 3
  | .jal rd t => s.modCore b c fun _ => ({ k.setReg rd ((k.pc + 1).zeroExtend 32) with pc := t } : Core).spend [] i.gives 3
  | .jr ra => s.modCore b c fun _ => ({ k with pc := (k.reg ra).setWidth 14 } : Core).spend i.uses [] 3
  | .call t => s.putCore b c k.pc (k.callTo t)
  | .ret => s.putCore b c k.pc k.ret
  | .rep n => s.coreRep b c i n
  | .repReg r => s.coreRep b c i ((k.reg r).toNat % 8192)
  | .mfs rd n => s.coreMfs b c rd n
  | .mts n ra => s.coreMts b c n ra
  | .evt line ra => s.coreEvt b c line ra
  | .emit ra rb => if k.copying.isSome then s else s.putCore b c k.pc (s.coreEmit b c ra rb)
  | .post ra => if k.copying.isSome then s else s.putCore b c k.pc (s.corePost b c ra)
  | .wait => s.coreWait b c
  | .halt => s.coreHalt b c
  | .ei => s.modCore b c fun _ => ({ k.setIe true with pc := k.pc + 1 } : Core).spend [] [] 1
  | .di => s.modCore b c fun _ => ({ k.setIe false with pc := k.pc + 1 } : Core).spend [] [] 1
  | .reti => s.putCore b c k.pc k.reti
  | _ =>
    match k.work i with
    | .fault cause => s.coreFault b c cause k.pc
    | .done k1 => s.modCore b c fun _ => ({ k1 with pc := k.pc + 1 } : Core).spend i.uses i.gives 1

/-- The command of a mnemonic: the core issues its next instruction when that instruction has the mnemonic. -/
def State.issue (s : State) (b : BayNo) (c : CoreNo) (want : CoreInstr → Bool) : State :=
  if !s.canIssue b c then s
  else
    match decodeCore (s.core b c).word with
    | none => s
    | some i => if want i then s.coreRun b c i else s

/-- The instruction is the ALU function. -/
def CoreInstr.isAlu (f : AluFn) : CoreInstr → Bool
  | .alu fn .. => decide (fn = f)
  | _ => false

/-- The instruction is the immediate operation. -/
def CoreInstr.isImm (f : ImmFn) : CoreInstr → Bool
  | .imm fn .. => decide (fn = f)
  | _ => false

/-- The instruction is the branch. -/
def CoreInstr.isBranch (f : BranchFn) : CoreInstr → Bool
  | .branch fn .. => decide (fn = f)
  | _ => false

/-- The instruction is the search. -/
def CoreInstr.isSearch (f : SearchFn) : CoreInstr → Bool
  | .search fn .. => decide (fn = f)
  | _ => false

/-! ### One meaning per mnemonic -/

/-- NOP (R403): the core does nothing for a cycle. -/
def execNop (b : BayNo) (c : CoreNo) (s : State) : Out := .next (s.issue b c fun i => decide (i = .nop))

/-- ADD (R404): rd := ra + rb. -/
def execAdd (b : BayNo) (c : CoreNo) (s : State) : Out := .next (s.issue b c (CoreInstr.isAlu .add))

/-- SUB (R404): rd := ra − rb. -/
def execSub (b : BayNo) (c : CoreNo) (s : State) : Out := .next (s.issue b c (CoreInstr.isAlu .sub))

/-- AND (R404): rd := ra AND rb. -/
def execAnd (b : BayNo) (c : CoreNo) (s : State) : Out := .next (s.issue b c (CoreInstr.isAlu .and))

/-- OR (R404): rd := ra OR rb. -/
def execOr (b : BayNo) (c : CoreNo) (s : State) : Out := .next (s.issue b c (CoreInstr.isAlu .or))

/-- XOR (R404): rd := ra XOR rb. -/
def execXor (b : BayNo) (c : CoreNo) (s : State) : Out := .next (s.issue b c (CoreInstr.isAlu .xor))

/-- SHL (R404): a left shift by rb [4:0]. -/
def execShl (b : BayNo) (c : CoreNo) (s : State) : Out := .next (s.issue b c (CoreInstr.isAlu .shl))

/-- SHR (R404): a logical right shift by rb [4:0]. -/
def execShr (b : BayNo) (c : CoreNo) (s : State) : Out := .next (s.issue b c (CoreInstr.isAlu .shr))

/-- SAR (R404): an arithmetic right shift by rb [4:0]. -/
def execSar (b : BayNo) (c : CoreNo) (s : State) : Out := .next (s.issue b c (CoreInstr.isAlu .sar))

/-- ADDS (R404): a sum saturated to signed 32 bits. -/
def execAdds (b : BayNo) (c : CoreNo) (s : State) : Out := .next (s.issue b c (CoreInstr.isAlu .adds))

/-- SUBS (R404): a difference saturated to signed 32 bits. -/
def execSubs (b : BayNo) (c : CoreNo) (s : State) : Out := .next (s.issue b c (CoreInstr.isAlu .subs))

/-- MIN (R404): the signed minimum. -/
def execMin (b : BayNo) (c : CoreNo) (s : State) : Out := .next (s.issue b c (CoreInstr.isAlu .min))

/-- MAX (R404): the signed maximum. -/
def execMax (b : BayNo) (c : CoreNo) (s : State) : Out := .next (s.issue b c (CoreInstr.isAlu .max))

/-- MINU (R404): the unsigned minimum. -/
def execMinu (b : BayNo) (c : CoreNo) (s : State) : Out := .next (s.issue b c (CoreInstr.isAlu .minu))

/-- MAXU (R404): the unsigned maximum. -/
def execMaxu (b : BayNo) (c : CoreNo) (s : State) : Out := .next (s.issue b c (CoreInstr.isAlu .maxu))

/-- ABS (R404): the absolute value, saturated. -/
def execAbs (b : BayNo) (c : CoreNo) (s : State) : Out := .next (s.issue b c (CoreInstr.isAlu .abs))

/-- SLT (R404): 1 when ra < rb signed. -/
def execSlt (b : BayNo) (c : CoreNo) (s : State) : Out := .next (s.issue b c (CoreInstr.isAlu .slt))

/-- SLTU (R404): 1 when ra < rb unsigned. -/
def execSltu (b : BayNo) (c : CoreNo) (s : State) : Out := .next (s.issue b c (CoreInstr.isAlu .sltu))

/-- SHLI (R404): a left shift by the field. -/
def execShli (b : BayNo) (c : CoreNo) (s : State) : Out := .next (s.issue b c (CoreInstr.isAlu .shli))

/-- SHRI (R404): a logical right shift by the field. -/
def execShri (b : BayNo) (c : CoreNo) (s : State) : Out := .next (s.issue b c (CoreInstr.isAlu .shri))

/-- SARI (R404): an arithmetic right shift by the field. -/
def execSari (b : BayNo) (c : CoreNo) (s : State) : Out := .next (s.issue b c (CoreInstr.isAlu .sari))

/-- CLZ (R404): the count of leading zeros. -/
def execClz (b : BayNo) (c : CoreNo) (s : State) : Out := .next (s.issue b c (CoreInstr.isAlu .clz))

/-- MUL16 (R404): the exact product of the low halves. -/
def execMul16 (b : BayNo) (c : CoreNo) (s : State) : Out := .next (s.issue b c (CoreInstr.isAlu .mul16))

/-- ADDI (R403): rd := ra + sext(imm16). -/
def execAddi (b : BayNo) (c : CoreNo) (s : State) : Out := .next (s.issue b c (CoreInstr.isImm .addi))

/-- ANDI (R403): rd := ra AND imm16. -/
def execAndi (b : BayNo) (c : CoreNo) (s : State) : Out := .next (s.issue b c (CoreInstr.isImm .andi))

/-- ORI (R403): rd := ra OR imm16. -/
def execOri (b : BayNo) (c : CoreNo) (s : State) : Out := .next (s.issue b c (CoreInstr.isImm .ori))

/-- XORI (R403): rd := ra XOR imm16. -/
def execXori (b : BayNo) (c : CoreNo) (s : State) : Out := .next (s.issue b c (CoreInstr.isImm .xori))

/-- LUI (R403): rd := imm16 << 16. -/
def execLui (b : BayNo) (c : CoreNo) (s : State) : Out := .next (s.issue b c (CoreInstr.isImm .lui))

/-- BEQ (R403): a branch when ra = rb. -/
def execBeq (b : BayNo) (c : CoreNo) (s : State) : Out := .next (s.issue b c (CoreInstr.isBranch .beq))

/-- BNE (R403): a branch when ra ≠ rb. -/
def execBne (b : BayNo) (c : CoreNo) (s : State) : Out := .next (s.issue b c (CoreInstr.isBranch .bne))

/-- BLT (R403): a branch when ra < rb signed. -/
def execBlt (b : BayNo) (c : CoreNo) (s : State) : Out := .next (s.issue b c (CoreInstr.isBranch .blt))

/-- BGE (R403): a branch when ra ≥ rb signed. -/
def execBge (b : BayNo) (c : CoreNo) (s : State) : Out := .next (s.issue b c (CoreInstr.isBranch .bge))

/-- BLTU (R403): a branch when ra < rb unsigned. -/
def execBltu (b : BayNo) (c : CoreNo) (s : State) : Out := .next (s.issue b c (CoreInstr.isBranch .bltu))

/-- BGEU (R403): a branch when ra ≥ rb unsigned. -/
def execBgeu (b : BayNo) (c : CoreNo) (s : State) : Out := .next (s.issue b c (CoreInstr.isBranch .bgeu))

/-- JMP (R403): PC := target. -/
def execJmp (b : BayNo) (c : CoreNo) (s : State) : Out := .next (s.issue b c (fun i => match i with | .jmp _ => true | _ => false))

/-- JAL (R403): rd := PC + 1 and PC := target. -/
def execJal (b : BayNo) (c : CoreNo) (s : State) : Out := .next (s.issue b c (fun i => match i with | .jal .. => true | _ => false))

/-- JR (R403): PC := ra [13:0]. -/
def execJr (b : BayNo) (c : CoreNo) (s : State) : Out := .next (s.issue b c (fun i => match i with | .jr _ => true | _ => false))

/-- CALL (R410, R411): a window call, a spill or SPILL_OVERFLOW. -/
def execCall (b : BayNo) (c : CoreNo) (s : State) : Out := .next (s.issue b c (fun i => match i with | .call _ => true | _ => false))

/-- RET (R410, R411): a window return. -/
def execRet (b : BayNo) (c : CoreNo) (s : State) : Out := .next (s.issue b c (fun i => match i with | .ret => true | _ => false))

/-- REP (R408): the next instruction n times. -/
def execRep (b : BayNo) (c : CoreNo) (s : State) : Out := .next (s.issue b c (fun i => match i with | .rep _ | .repReg _ => true | _ => false))

/-- LD (R402): a load through an address register. -/
def execLd (b : BayNo) (c : CoreNo) (s : State) : Out := .next (s.issue b c (fun i => match i with | .ld .. => true | _ => false))

/-- ST (R402): a store through an address register. -/
def execSt (b : BayNo) (c : CoreNo) (s : State) : Out := .next (s.issue b c (fun i => match i with | .st .. => true | _ => false))

/-- LDR (R403): a load from ra + off13. -/
def execLdr (b : BayNo) (c : CoreNo) (s : State) : Out := .next (s.issue b c (fun i => match i with | .ldr .. => true | _ => false))

/-- STR (R403): a store to ra + off13. -/
def execStr (b : BayNo) (c : CoreNo) (s : State) : Out := .next (s.issue b c (fun i => match i with | .str .. => true | _ => false))

/-- MAC (R400, R403): multiply and accumulate. -/
def execMac (b : BayNo) (c : CoreNo) (s : State) : Out := .next (s.issue b c (fun i => match i with | .mac .. => true | _ => false))

/-- MACP (R399, R403): multiply memory elements and accumulate. -/
def execMacp (b : BayNo) (c : CoreNo) (s : State) : Out := .next (s.issue b c (fun i => match i with | .macp .. => true | _ => false))

/-- STA (R400, R405): an accumulator rounded, shifted and saturated. -/
def execSta (b : BayNo) (c : CoreNo) (s : State) : Out := .next (s.issue b c (fun i => match i with | .sta .. => true | _ => false))

/-- LDA (R405): load an accumulator. -/
def execLda (b : BayNo) (c : CoreNo) (s : State) : Out := .next (s.issue b c (fun i => match i with | .lda .. => true | _ => false))

/-- ADDA (R405): add to an accumulator. -/
def execAdda (b : BayNo) (c : CoreNo) (s : State) : Out := .next (s.issue b c (fun i => match i with | .adda .. => true | _ => false))

/-- SHA (R405): shift an accumulator. -/
def execSha (b : BayNo) (c : CoreNo) (s : State) : Out := .next (s.issue b c (fun i => match i with | .sha .. => true | _ => false))

/-- SRST (R409): reset the search registers. -/
def execSrst (b : BayNo) (c : CoreNo) (s : State) : Out := .next (s.issue b c (fun i => match i with | .srst _ => true | _ => false))

/-- SMAX (R409): a search for a new maximum. -/
def execSmax (b : BayNo) (c : CoreNo) (s : State) : Out := .next (s.issue b c (CoreInstr.isSearch .smax))

/-- SMIN (R409): a search for a new minimum. -/
def execSmin (b : BayNo) (c : CoreNo) (s : State) : Out := .next (s.issue b c (CoreInstr.isSearch .smin))

/-- SMM (R409): a search for both. -/
def execSmm (b : BayNo) (c : CoreNo) (s : State) : Out := .next (s.issue b c (CoreInstr.isSearch .smm))

/-- MFS (R406): read a special register. -/
def execMfs (b : BayNo) (c : CoreNo) (s : State) : Out := .next (s.issue b c (fun i => match i with | .mfs .. => true | _ => false))

/-- MTS (R406): write a special register. -/
def execMts (b : BayNo) (c : CoreNo) (s : State) : Out := .next (s.issue b c (fun i => match i with | .mts .. => true | _ => false))

/-- EVT (R421): raise a core event line. -/
def execEvt (b : BayNo) (c : CoreNo) (s : State) : Out := .next (s.issue b c (fun i => match i with | .evt .. => true | _ => false))

/-- EMIT (R422): start a RESULT record's copy. -/
def execEmit (b : BayNo) (c : CoreNo) (s : State) : Out := .next (s.issue b c (fun i => match i with | .emit .. => true | _ => false))

/-- POST (R423): start the readout buffer's copy. -/
def execPost (b : BayNo) (c : CoreNo) (s : State) : Out := .next (s.issue b c (fun i => match i with | .post _ => true | _ => false))

/-- WAIT (R415): suspend issue. -/
def execWait (b : BayNo) (c : CoreNo) (s : State) : Out := .next (s.issue b c (fun i => match i with | .wait => true | _ => false))

/-- HALT (R403): halt the core. -/
def execHalt (b : BayNo) (c : CoreNo) (s : State) : Out := .next (s.issue b c (fun i => match i with | .halt => true | _ => false))

/-- EI (R413): enable interrupts. -/
def execEi (b : BayNo) (c : CoreNo) (s : State) : Out := .next (s.issue b c (fun i => match i with | .ei => true | _ => false))

/-- DI (R413): disable interrupts. -/
def execDi (b : BayNo) (c : CoreNo) (s : State) : Out := .next (s.issue b c (fun i => match i with | .di => true | _ => false))

/-- RETI (R413): return from a handler. -/
def execReti (b : BayNo) (c : CoreNo) (s : State) : Out := .next (s.issue b c (fun i => match i with | .reti => true | _ => false))

/-- ILLEGAL_INSTRUCTION (R397, R402, R416): the word at PC does not decode and the core faults. -/
def execIllegalInstruction (b : BayNo) (c : CoreNo) (s : State) : Out :=
  if !s.canIssue b c then .next s
  else
    match decodeCore (s.core b c).word with
    | some _ => .next s
    | none => .next (s.coreFault b c 1 (s.core b c).pc)

/-! ### Interrupts, timer, watchdog -/

/-- INTERRUPT_ENTRY (R413 to R415): the lowest pending and unmasked line is taken at an instruction boundary. -/
def execInterruptEntry (b : BayNo) (c : CoreNo) (s : State) : Out :=
  let k := s.core b c
  match k.takeable with
  | none => .next s
  | some l =>
    if !s.coreAwake b c || decide (k.mode ≠ .run) then .next s
    else .next (s.modCore b c fun k =>
      ({ k with ipend := k.ipend &&& ~~~(BitVec.ofNat 10 (2 ^ l)) } : Core).enter k.pc (BitVec.ofNat 14 (8 + 4 * l)))

/-- CORE_TIMER_EXPIRE (R406, R412): TCOUNT reaches zero; line TIMER is raised and the count reloads. -/
def execCoreTimerExpire (b : BayNo) (c : CoreNo) (s0 : State) : Out :=
  let k := s0.core b c
  match k.timerDue with
  | none => .next s0
  | some t =>
    if !s0.alive b || decide (k.mode = .off ∨ k.mode = .fault) then .next s0
    else
      let s := s0.reach t
      .next ((s.modCore b c fun k => { k with timerDue := some (later t (ofFclk k.timer.toNat)) }).raiseLine b c 5)

/-- WATCHDOG_EXPIRE (R416): the watchdog time has passed without a write to WDT. -/
def execWatchdogExpire (b : BayNo) (c : CoreNo) (s0 : State) : Out :=
  let w := s0.fldN Fld.mcoCWatchdog b c.val
  let k := s0.core b c
  if w = 0 ∨ !s0.alive b ∨ k.mode ≠ .run ∨ k.ebbed then .next s0
  else .next ((s0.reach (later k.wdtFrom (ofUs w))).coreFault b c 6 k.pc)

/-- CORE_RESTART (R417, R746): a faulted core restarts, and its fault is handled. -/
def execCoreRestart (b : BayNo) (c : CoreNo) (s : State) : Out :=
  let k := s.core b c
  if !s.coreAwake b c || decide (k.mode ≠ .fault) || !s.fldB Fld.mcoCRestart b c.val then .next s
  else
    let f : FaultId := { code := 6, bay := b, part := c.val }
    .next (((s.restartCore b c).faultEnd f).faultRepair f)

/-- One word of a buffer at the end of its copy: a free value where the program has changed it meanwhile (R422, log entry 11). -/
def copiedWord (k : Core) (start : Nat) (acc : List Word × State) (e : Word × Nat) : List Word × State :=
  if k.peekWord (start + 4 * e.2) = e.1 then (acc.1 ++ [e.1], acc.2)
  else
    let (v, t) := acc.2.takeFree 32
    (acc.1 ++ [v], t)

/-- The words of a buffer at the end of its copy (R422). -/
def State.copiedWords (s : State) (k : Core) (start : Nat) (ws : List Word) : List Word × State :=
  ws.zipIdx.foldl (copiedWord k start) ([], s)

/-- EMIT_COPY_DONE (R417, R422): the copy completes and the RESULT record enters its queue. -/
def execEmitCopyDone (b : BayNo) (c : CoreNo) (s : State) : Out :=
  let k := s.core b c
  match k.copying with
  | some (.result sub flags t gap start ws dead) =>
    if !s.alive b then .next s
    else if dead then .next (s.modCore b c fun k => { k with copying := none, discards := k.discards + 1 })
    else
      let (pay, s1) := s.copiedWords k start ws
      let s2 := s1.modCore b c fun k => { k with copying := none }
      .next (s2.enqueue b (s2.fldN Fld.mcoCQueue b c.val)
        { typ := .result, source := 0x80 + c.val, flags := flags ||| flagIf gap flagGapBefore
          domain := if s2.sealedCore b c then 0 else 1, stamp := t, w6hi := sub, payload := pay })
  | _ => .next s

/-! ### The I/Q feed -/

/-- The port of a core's feed. -/
def State.feedPort (s : State) (b : BayNo) (c : CoreNo) : Port := ⟨s.fldN Fld.mcoCIqPort b c.val % 4, Nat.mod_lt _ (by decide)⟩

/-- A block is dropped whole (R418); a fenced core is asked to flood (R729). -/
def State.feedDrop (s : State) (b : BayNo) (c : CoreNo) : State :=
  let told := (s.core b c).iqTold
  let s1 := s.modCore b c fun k => { k with iqDropped := k.iqDropped + 1, iqTold := true, floodReq := k.floodReq || k.ebbed }
  if told then s1 else s1.event b 0x0A05 [wd c.val]

/-- The next block of a core's feed: the number of its first output, and how many outputs it holds; a gap cuts it short. The first block
of a feed begins with the first output after the feed is on (R418). -/
def State.feedBlock (s : State) (b : BayNo) (c : CoreNo) : Nat × Nat :=
  let y := (s.bay b).ddc[s.feedPort b c]
  let n := (s.core b c).iqFrom.getD ((y.line.head?.map (·.born)).getD 0)
  let stop := match y.line.reverse.find? fun z => decide (n < z.born) with
    | some z => some z.born
    | none => y.ended
  (n, match stop with
    | some e => min (s.fldN Fld.mcoCIqBlock b c.val) (e - n)
    | none => s.fldN Fld.mcoCIqBlock b c.val)

/-- IQ_FEED_BLOCK (R418, R420): the feed completes its next block; `xs` are the input samples that its outputs take in. -/
def execIqFeedBlock (b : BayNo) (c : CoreNo) (xs : List Sample) (s0 : State) : Out :=
  let p := s0.feedPort b c
  let k := s0.fldN Fld.mcoCIqBlock b c.val
  let y := (s0.bay b).ddc[p]
  let (n, len) := s0.feedBlock b c
  if !s0.alive b || !s0.fldB Fld.mcoCIqEn b c.val || decide ((s0.core b c).mode = .off) || !y.active || decide (len = 0) ||
      (y.stretchOf n).isNone || decide (xs.length ≠ (y.needs n len).2) then .next s0
  else
    let s := s0.reach (s0.leaves b p (n + len - 1))
    let cut := decide (len < k)
    let gap := (s.core b c).iqGap || decide (y.bornOf n = n ∧ (s.core b c).iqFrom.isSome)
    let base := s.fldN Fld.mcoCIqBase b c.val
    let slots := s.fldN Fld.mcoCIqBlocks b c.val
    let wr := (s.core b c).peekWord base
    let rd := (s.core b c).peekWord (base + 4)
    let s1 := s.modCore b c fun k => { k with iqFrom := some (n + len), iqGap := cut }
    if !s1.coreAwake b c || decide (slots ≤ (wr - rd).toNat) then .next (s1.feedDrop b c)
    else
      let all := s1.outputs b p n len xs ++ List.replicate (k - len) { i := 0, q := 0 }
      let body := s1.iqBody b p (0x10 + p.val) true n all (flagIf cut flagTruncated ||| flagIf gap flagGapBefore)
      let seq := Sparse.get 0 (s1.bay b).que.seqs (seqKey (0x10 + p.val) .iq)
      let h := s1.mkRec b { body with domain := if s1.sealedCore b c then 0 else 1 } seq
      let ws := h.header ++ [0] ++ all.map fun (x : Sample) => x.q ++ x.i
      let s2 := s1.modCore b c fun k =>
        let k1 := (k.pokeWords (base + 32 + wr.toNat % slots * s.feedBlockSize b c) ws).noteFlags h.flags
        { k1.pokeWords base [wr + 1] with iqWritten := k.iqWritten + 1 }
      .next (s2.raiseLine b c 1)

/-! ### Commands of the host -/

/-- A debug action on a sealed core (R425): it enters the seal log and raises EV_CORE_DEBUG. -/
def State.coreDebug (s : State) (b : BayNo) (c : CoreNo) (action : Nat) : State :=
  (s.sealLog 10 b c.val [wd action]).event b 0x0A06 [wd c.val]

/-- MC_CTRL reaches a core: an open core always, a sealed one while the metrology-mode fuse is intact (R425, R427). -/
def State.ctrlOpen (s : State) (b : BayNo) (c : CoreNo) : Bool :=
  s.queueAwake b && (!s.sealedCore b c || !s.keeper.fuses.metrology)

/-- The debug trace of an action on a sealed core. -/
def State.ctrlTrace (s : State) (b : BayNo) (c : CoreNo) (action : Nat) : State :=
  if s.sealedCore b c then s.coreDebug b c action else s

/-- MC_CTRL_HALT (R425, R427, R432): a running core halts at the instruction boundary. -/
def execMcCtrlHalt (b : BayNo) (c : CoreNo) (s : State) : Out :=
  if !s.ctrlOpen b c || decide ((s.core b c).mode ≠ .run) then .next s
  else .next (((s.modCore b c fun k => { k with mode := .halted }).event b 0x0A03 [wd c.val]).ctrlTrace b c 0)

/-- MC_CTRL_RESUME (R425, R427): a halted core continues. -/
def execMcCtrlResume (b : BayNo) (c : CoreNo) (s : State) : Out :=
  if !s.ctrlOpen b c || decide ((s.core b c).mode ≠ .halted) then .next s
  else .next ((s.modCore b c fun k => { k with mode := .run }).ctrlTrace b c 1)

/-- MC_CTRL_RESET (R417, R425, R427): a core restarts without counting a fault. -/
def execMcCtrlReset (b : BayNo) (c : CoreNo) (s : State) : Out :=
  if !s.ctrlOpen b c || decide ((s.core b c).mode = .off) then .next s
  else .next ((s.restartCore b c).ctrlTrace b c 2)

/-- MC_MBOX_IN_WRITE (R412, R430): the value is held and line MBOX is raised; the register is sealed in a sealed core. -/
def execMcMboxInWrite (b : BayNo) (c : CoreNo) (v : Word) (s : State) : Out :=
  if !s.queueAwake b then .next (s.fencedAccess b .datapath)
  else if s.sealedCore b c then .next (s.discarded (bayAddr b (0x00A00018 + 0x100 * c.val)) 0)
  else .next ((s.modCore b c fun k => { k with mboxIn := v }).raiseLine b c 4)

/-- MC_MBOX_OUT_READ (R430): the register is read and clears. -/
def execMcMboxOutRead (b : BayNo) (c : CoreNo) (s : State) : Out :=
  if !s.queueAwake b then .next (s.fencedAccess b .datapath)
  else if s.sealedCore b c then .next s
  else .next (s.modCore b c fun k => { k with mboxOut := 0 })

/-- CORE_IMEM_WRITE (R425, R427): a host write through the instruction aperture takes effect while the core is halted. -/
def execCoreImemWrite (b : BayNo) (a : BitVec 14) (v : Word) (s : State) : Out :=
  let c : CoreNo := ⟨(s.bay b).mco.win.toNat, (s.bay b).mco.win.isLt⟩
  let k := s.core b c
  if !s.queueAwake b then .next (s.fencedAccess b .datapath)
  else if s.sealedCore b c && s.keeper.fuses.metrology then .next (s.discarded (bayAddr b (0x00A20000 + 4 * a.toNat)) 0)
  else if k.mode = .halted ∨ k.mode = .fault then
    .next ((s.modCore b c fun k => { k with imem := Sparse.set 0#32 k.imem a.toNat v }).ctrlTrace b c 3)
  else .next (s.discarded (bayAddr b (0x00A20000 + 4 * a.toNat)) 0)

/-! ### Ebb of idle cores -/

/-- CORE_EBB (R729): an idle open core ebbs. -/
def execCoreEbb (b : BayNo) (c : CoreNo) (s0 : State) : Out :=
  let k := s0.core b c
  if !s0.coreAwake b c || decide (k.mode ≠ .run) || !k.waiting || k.ebbed || s0.sealedCore b c ||
      !inMask (s0.fldN Fld.pwrCoreEbb b) c.val || decide (s0.pwr.state ≠ .run) then .next s0
  else
    let s := s0.reach (later k.waitFrom (ofUs (s0.fldN Fld.pwrCoreIdleUs b)))
    .next ((s.modCore b c fun k => { k with ebbed := true, floodReq := false }).modBay b fun y =>
      { y with pwr := { y.pwr with cores := y.pwr.cores.set c false, coreEbbs := y.pwr.coreEbbs + 1
                                   asleepTold := y.pwr.asleepTold.filter (· ≠ .core c) } })

/-- CORE_FLOOD_DONE (R415, R729): an ebbed core that has been called ends its flood; it leaves WAIT when a line is pending
and unmasked. -/
def execCoreFloodDone (b : BayNo) (c : CoreNo) (s : State) : Out :=
  let k := s.core b c
  if !s.alive b || !k.ebbed || !(k.called || k.floodReq) then .next s
  else .next ((s.modCore b c fun k =>
      { k with ebbed := false, floodReq := false, waiting := k.waiting && !k.called, waitFrom := s.nowAt b }).modBay b fun y =>
      { y with pwr := { y.pwr with cores := y.pwr.cores.set c true, coreFloods := y.pwr.coreFloods + 1 } })

/-! ### Registers -/

/-- MC_STATUS (R431). -/
def State.coreStatus (s : State) (b : BayNo) (c : CoreNo) : Word :=
  let k := s.core b c
  let st := match k.mode with
    | .off => 0 | .run => 1 | .halted => 2 | .fault => 3
  wd (st + 4 * bitW (s.sealedCore b c) + 8 * bitW k.shadow + 16 * bitW k.ie + 32 * k.cwp.val + 256 * k.resident +
    4096 * bitW k.ovf + 8192 * bitW k.waiting)

/-- A register of one core (R430). -/
def State.coreReg (s : State) (b : BayNo) (c : CoreNo) (off : Nat) : Word :=
  let k := s.core b c
  match off with
  | 0x04 => s.coreStatus b c
  | 0x08 => k.pc.zeroExtend 32
  | 0x0C => wd (k.faultCause.toNat + 16 * k.faultPc.toNat)
  | 0x10 => k.cycles
  | 0x14 => k.fills ++ k.spills
  | 0x18 => k.mboxIn
  | 0x1C => k.mboxOut
  | 0x20 => k.emits
  | 0x24 => k.discards
  | 0x28 => k.restarts ++ k.faults
  | 0x2C => k.iqDropped ++ k.iqWritten
  | _ => 0

/-- The MCO registers and apertures; those of a sealed core read as any other's (R8, R424, R430). -/
def State.mcoReg (s : State) (b : BayNo) (off : Nat) : Word :=
  let win : CoreNo := ⟨(s.bay b).mco.win.toNat, (s.bay b).mco.win.isLt⟩
  if off < 0x800 then
    let c : CoreNo := ⟨off / 256 % 8, Nat.mod_lt _ (by decide)⟩
    s.coreReg b c (off % 256)
  else if off = 0x800 then (s.bay b).mco.win.zeroExtend 32
  else if 0x20000 ≤ off ∧ off < 0x30000 then Sparse.get 0 (s.core b win).imem (off % 0x10000 / 4)
  else if 0x40000 ≤ off ∧ off < 0x60000 then (s.core b win).peekWord (off % 0x20000)
  else 0

end Sys2Proof.Machine
end

