-- ==== Sys2Proof/Machine/Mon.lean ====
section
/-! DEFINITION. Health monitors and the fault registers (R737 to R757). -/
namespace Sys2Proof.Machine

/-- MON_SAMPLE (R737 to R741): a unit takes a sample. A latency and an ADC peak are what was measured, `v`; an ADC peak, a queue's
level, a lane's errors and a drive's temperature are sampled at the whole periods of the tide counter, and what the events of a
bay bring is sampled by those events. `injected` says that a latency came from an injected record. -/
def execMonSample (b : BayNo) (m : Fin 16) (v : Int) (injected : Bool) (s0 : State) : Out :=
  let c := (s0.mon b m).conf
  if !s0.monReady b m || decide (c.quantity = 4 ∨ c.quantity = 5) then .next s0
  else if c.quantity = 0 then .next (s0.monTake b m (max 0 v) injected (s0.nowAt b))
  else
    let t := s0.monMoment b m
    .next ((s0.reach t).monTake b m (max 0 (min 2048 v)) false t)

/-- The payload of a MONITOR record (R742). -/
def MonUnit.payload (u : MonUnit) : List Word :=
  [wd (u.conf.quantity + 8 * bitW u.conf.log2 + 16 * bitW u.conf.cumulative + 32 * u.conf.pair + 256 * u.conf.object), u.samples,
   Word.ofSigned u.low, Word.ofSigned u.high] ++ words64 (BitVec.ofInt 64 u.sum) ++ [u.below, u.above] ++
  (List.range 64).map fun k => Sparse.get 0 u.bins k

/-- An interval ends at `t` with its record, sub-type 0 EPOCH or 1 DEMAND, and the next begins (R740, R742). -/
def State.monEmit (s : State) (b : BayNo) (m : Fin 16) (sub : Nat) (t : Stamp) : State :=
  let u := s.mon b m
  let s1 := s.enqueue b u.conf.queue
    { typ := .monitor, source := 0xA0 + m.val, stamp := u.start, w6hi := BitVec.ofNat 16 sub, payload := u.payload
      flags := flagIf u.injected flagInjected }
  if u.conf.cumulative then s1.modMon b m fun u => { u with start := t } else s1.monStart b m t

/-- What a monitor unit does at an epoch boundary stamped `t`, once the settings of the new epoch are in force (R740, R741,
R743). -/
def State.monBoundary (s : State) (b : BayNo) (m : Fin 16) (t : Stamp) : State :=
  let u := s.mon b m
  let s1 :=
    if !u.on then s
    else if u.conf.emit % 2 = 1 ∨ (u.changed ∧ u.conf.emit ≠ 0) then s.monEmit b m 0 t else s
  let s2 := if u.changed ∨ decide (u.on ≠ s.fldB Fld.monEn b m.val) then s1.monStart b m t else s1
  s2.modMon b m fun u => { u with limitHigh := false, limitLow := false, told := false }

/-- MON_SNAP (R740): the selected units that emit on demand end their intervals. -/
def execMonSnap (b : BayNo) (mask : BitVec 16) (s : State) : Out :=
  if !s.alive b then .next s
  else .next ((List.finRange 16).foldl (fun s m =>
    if mask.getLsbD m.val && (s.mon b m).on && decide ((s.mon b m).conf.emit ≥ 2) then s.monEmit b m 1 (s.nowAt b) else s) s)

/-- FAULT_LONGEST_READ (R756): MON_FAULT_LONGEST is read and clears. -/
def execFaultLongestRead (s : State) : Out :=
  if !s.alive 0 then .next s else .next (s.modFaults fun y => { y with longest := 0 })

/-- A register of one unit (R756). -/
def State.monUnitReg (s : State) (b : BayNo) (m : Fin 16) (off : Nat) : Word :=
  let u := s.mon b m
  match off with
  | 0x00 => wd (bitW u.on + 2 * bitW (u.on && s.monPaused b m) + 4 * bitW u.limitHigh + 8 * bitW u.limitLow)
  | 0x04 => u.samples
  | 0x08 => Word.ofSigned u.low
  | 0x0C => Word.ofSigned u.high
  | 0x10 => (BitVec.ofInt 64 u.sum).extractLsb' 0 32
  | 0x14 => (BitVec.ofInt 64 u.sum).extractLsb' 32 32
  | 0x18 => Word.ofSigned u.last
  | _ => 0

/-- The MON registers (R756); the MON_FAULT registers exist in the headland only. -/
def State.monReg (s : State) (b : BayNo) (off : Nat) : Word :=
  if off < 0x400 then s.monUnitReg b ⟨off / 64 % 16, Nat.mod_lt _ (by decide)⟩ (off % 64)
  else if 0x1000 ≤ off ∧ off < 0x2000 then
    if off % 256 / 4 < 64 then Sparse.get 0 (s.mon b ⟨off / 256 % 16, Nat.mod_lt _ (by decide)⟩).bins (off % 256 / 4) else 0
  else if b ≠ 0 then 0
  else match off with
    | 0x800 => s.faults.concurrent ++ s.faults.handled
    | 0x804 => wd (min s.faults.longest 0xFFFFFFFF)
    | 0x808 => s.faults.last
    | _ => 0

end Sys2Proof.Machine
end

