-- ==== Sys2Proof/Machine/Shadow.lean ====
section
/-! DEFINITION. The shadow registers of scan-out settings, and how live and profile values reach them (R369, R370). -/
namespace Sys2Proof.Machine

/-- Change the scan-out of a bay. -/
def State.modScn (s : State) (b : BayNo) (f : Scn → Scn) : State := s.modBay b fun y => { y with scn := f y.scn }

/-- The field of an SCN id that has a shadow register, with its instance. -/
def shadowField (id : Nat) : Option (Field × Nat) :=
  match findField 0x09 id with
  | some (f, i) => if f.apply = .vblank then some (f, i) else none
  | none => none

/-- A raw value in the width of its field. -/
def fieldValue (f : Field) (v : Word) : Int :=
  if f.signed then (BitVec.ofNat f.width v.toNat).toInt else ((v.toNat % 2 ^ f.width : Nat) : Int)

/-- Write a shadow register; equal to the active value it needs no entry (R370). -/
def State.shadowWrite (s : State) (b : BayNo) (id : Nat) (f : Field) (i : Nat) (v : Int) : State :=
  s.modScn b fun y =>
    let rest := y.shadow.filter fun e => decide (e.1 ≠ id)
    { y with shadow := if v = s.fld f b i then rest else rest ++ [(id, v)] }

/-- A live or profile value of a VBLANK field reaches its bays: the shadow register takes it and COMMIT is set (R370). -/
def State.vblankArrive (s : State) (ws : List Waiting) : State :=
  ws.foldl (fun s w => match w with
    | .value k left v .vblank _ _ _ =>
      match shadowField k.id with
      | none => s
      | some (f, i) => (s.maskBays left).foldl (fun s b =>
          (s.shadowWrite b k.id f i v).modScn b fun y => { y with commit := true }) s
    | _ => s) s

end Sys2Proof.Machine
end

