-- ==== Sys2Proof/Machine/Apply.lean ====
section
/-! DEFINITION. How a setting takes effect: writing the value in force, the seal log entry and the event of a live
value, and a profile change (R65 to R71, R628, R629). -/
namespace Sys2Proof.Machine

/-- Write the value in force of a field. -/
def State.setFld (s : State) (f : Field) (b : BayNo) (i : Nat) (v : Int) : State :=
  (s.modVals fun _ => Sparse.set none s.vals (fieldKey f b.val i 0) (some v))

/-- Why a field takes a new value: a live value, a profile change, or an acquisition restart (R175). -/
inductive Cause where
  | live | profile | restart
  deriving DecidableEq, Repr

/-- The code of a cause in EV_AFE_ATTEN (R175). -/
def Cause.code : Cause → Nat
  | .live => 0
  | .profile => 1
  | .restart => 4

/-- Two fields are the same row of a setting table. -/
def sameField (f g : Field) : Bool := decide (f.block = g.block ∧ f.id = g.id)

/-- A field is one of a list. -/
def fieldIn (f : Field) (l : List Field) : Bool := l.any (sameField f)

/-- The fields of a link injector whose change counts as one of its settings (R618, R620). -/
def linkInjFields : List Field :=
  [Fld.lnlInjAction, Fld.lnlInjClass, Fld.lnlInjMode, Fld.lnlInjRate, Fld.lnlInjSeed, Fld.lnlInjPattern, Fld.lnlInjWindow,
   Fld.lnlInjDelay]

/-- The fields of a stream injector (R750, R752). -/
def streamInjFields : List Field :=
  [Fld.injAction, Fld.injMode, Fld.injRate, Fld.injSeed, Fld.injPattern, Fld.injWindow, Fld.injDelay]

/-- The lanes of a quad. -/
def quadLanes (q : Nat) : List (Fin 24) := (List.finRange 24).filter fun k => decide (k.val / 4 = q)

/-- A host or profile value of the attenuation replaces the running one at its apply point, or waits while the attenuation is held or the
front end is off (R175, R181, R183, R199). -/
def State.attenApplied (s : State) (b : BayNo) (i : Fin 2) (c : Cause) (trim : Bool) (v : Nat) : State :=
  let a := (s.bay b).afe.inputs[i]
  let base := a.waiting.getD { step := a.step, trim := a.trim, cause := c.code }
  s.giveAtten b i (if trim then { base with trim := v, cause := c.code } else { base with step := v, cause := c.code })

/-- What a block does before a field of it takes a new value. -/
def State.beforeApplied (s : State) (f : Field) (b : BayNo) (i : Nat) : State :=
  if sameField f Fld.lneQdTestRate then (quadLanes i).foldl (fun s k => s.accrue b k) s
  else if fieldIn f [Fld.quePIqQueue, Fld.quePIqFormat, Fld.quePIqSamples] then
    let p : Port := ⟨i % 4, Nat.mod_lt _ (by decide)⟩
    s.breakIq b p ((s.bay b).ddc[p].numberFrom (s.bay b).tbs.epochStart) false
  else s

/-- A field of an analogue block, a lane or a housekeeping block took a new value. -/
def State.analogApplied (s : State) (f : Field) (b : BayNo) (i : Nat) (c : Cause) (v : Int) : State :=
  let x : Fin 2 := ⟨i % 2, Nat.mod_lt _ (by decide)⟩
  if sameField f Fld.afeAtten then s.attenApplied b x c false v.toNat
  else if sameField f Fld.afeTrim then s.attenApplied b x c true v.toNat
  else if sameField f Fld.adcBgcalEn then s.runRotations b
  else if sameField f Fld.lneQdTestRate then (quadLanes i).foldl (fun s k => s.modLane b k fun l => { l with chk := false }) s
  else if sameField f Fld.lneRxEqMode then s.readapt b ⟨i % 24, Nat.mod_lt _ (by decide)⟩
  else if sameField f Fld.lneRxCtle then
    if s.fldN Fld.lneRxEqMode b i = 2 then s.adaptLane b ⟨i % 24, Nat.mod_lt _ (by decide)⟩ else s
  else if sameField f Fld.calRunReq then s.calRequest b
  else if sameField f Fld.hkcSlots then s.scanChanged b x
  else if sameField f Fld.hkcASlot then s.scanChanged b 0
  else if sameField f Fld.hkcBSlot then s.scanChanged b 1
  else if sameField f Fld.tbsSlewMax then (if s.tbs.servo.rateAdj.natAbs > s.slewMax.toNat then s.steer s.tbs.servo.rateAdj else s)
  else if sameField f Fld.auxChCode then s.setAuxCode b ⟨i % 4, Nat.mod_lt _ (by decide)⟩ (BitVec.ofInt 16 v)
  else s

/-- A feed that is disabled drops the block in progress; one that is enabled begins with the first output from the boundary on
(R418). -/
def State.feedChanged (s : State) (b : BayNo) (c : CoreNo) : State :=
  s.modCore b c fun k =>
    { k with iqFrom := if s.fldB Fld.mcoCIqEn b c.val then some ((s.bay b).ddc[s.feedPort b c].numberFrom (s.bay b).tbs.epochStart) else none }

/-- What a block does when a field of it takes a new value, beyond holding the value: the blocks' own rules for a change. -/
def State.onApplied (s : State) (f : Field) (b : BayNo) (i : Nat) (c : Cause) (old v : Int) : State :=
  if fieldIn f linkInjFields then s.modLink b ⟨i % 5, Nat.mod_lt _ (by decide)⟩ fun x => { x with index := 0, told := false }
  else if fieldIn f streamInjFields then s.modInj ⟨i % 64, Nat.mod_lt _ (by decide)⟩ fun x => { x with index := 0, told := false }
  else if decide (old = v) && !fieldIn f [Fld.calRunReq, Fld.auxChCode, Fld.afeAtten, Fld.afeTrim] then s
  else if f.block = 0x18 then
    (if f.apply = ApplyPoint.epoch then s.modMon b ⟨i % 16, Nat.mod_lt _ (by decide)⟩ fun u => { u with changed := true } else s)
  else if fieldIn f evalFields then
    let t := (s.bay b).tbs.epochStart
    (s.unitChanged b ⟨i % 8, Nat.mod_lt _ (by decide)⟩ t).refreshPorts b t
  else if sameField f Fld.mcoCIqEn then s.feedChanged b ⟨i % 8, Nat.mod_lt _ (by decide)⟩
  else s.analogApplied f b i c v

/-- Give a field its value in one bay. -/
def State.putFld (s : State) (f : Field) (b : BayNo) (i : Nat) (c : Cause) (v : Int) : State :=
  ((s.beforeApplied f b i).setFld f b i v).onApplied f b i c (s.fld f b i) v

/-- The raw 32-bit value word of an integer (R41). -/
def rawOf (v : Int) : Word := Word.ofSigned v

/-- Report a live value's effect once: its LIVE_CHANGE entry when it is watched, and EV_LIVE_APPLIED (R69, R628). -/
def State.tellApplied (s : State) (f : Field) (k : Key) (old v : Int) (watched : Bool) : State :=
  let s1 := if watched then
      s.sealLog 3 0 0 [keyWord k, rawOf old, rawOf v, wd (bitW ((List.range 8).any fun b => k.mask.testBit b &&
        decide (sideIn (fun b => Vals.nat s.vals Fld.mcoSealCores b) f k b = .sealed)))] false true
    else s
  s1.event 0 0x0122 ([keyWord k, rawOf v] ++ stampWords s1.now)

/-- Apply one waiting value in bay `b`: what remains of it, and the state. -/
def State.applyWaiting (s : State) (b : BayNo) (c : Cause) (w : Waiting) : Option Waiting × State :=
  match w with
  | .profile p due pins => (some (.profile p due pins), s)
  | .value k left v ap due watched told =>
    if !left.testBit b.val then (some w, s)
    else
      match findField k.block k.id with
      | none => (none, s)
      | some (f, i) =>
        let old := s.fld f b i
        let s1 := s.putFld f b i c v
        let s2 := if told then s1 else s1.tellApplied f k old v watched
        let left' := left - 2 ^ b.val
        (if left' = 0 then none else some (.value k left' v ap due watched true), s2)

/-- A later value of the same field takes effect with this one in bay `b` and replaces it (R69). -/
def Waiting.overtaken (w : Waiting) (b : BayNo) (p : Waiting → Bool) (after : List Waiting) : Bool :=
  match w with
  | .value k left _ _ _ _ _ => left.testBit b.val && after.any fun x => p x && (match x with
      | .value k' left' _ _ _ _ _ => decide (k'.block = k.block ∧ k'.id = k.id) && left'.testBit b.val
      | .profile .. => false)
  | .profile .. => false

/-- What is left of a waiting value that bay `b` will not take: it leaves without entry or event, and a slot it held is free when
no bay is left (R69, R628). -/
def State.passOver (s : State) (b : BayNo) (w : Waiting) : Option Waiting × State :=
  match w with
  | .value k left v ap due watched told =>
    let left' := left - 2 ^ b.val
    if left' = 0 then (none, s.modSeal fun y => { y with reserved := y.reserved - bitW (watched && !told) })
    else (some (.value k left' v ap due watched told), s)
  | .profile p due pins => (some (.profile p due pins), s)

/-- Take effect in bay `b` for every waiting entry that `p` selects, in the order accepted; of several values of one field the last
(R69, R71). -/
def State.takeEffect (s : State) (b : BayNo) (p : Waiting → Bool) (c : Cause := .live) : State :=
  let step := fun (acc : List Waiting × State) (e : Waiting × Bool) =>
    if p e.1 then
      let (r, s1) := if e.2 then acc.2.passOver b e.1 else acc.2.applyWaiting b c e.1
      (acc.1 ++ r.toList, s1)
    else (acc.1 ++ [e.1], acc.2)
  let marked := s.img.waiting.mapIdx fun n w => (w, w.overtaken b p (s.img.waiting.drop (n + 1)))
  let (ws, s1) := marked.foldl step ([], s)
  (s1.modImg fun y => { y with waiting := ws })

/-- The apply point of a waiting value. -/
def Waiting.appliesAt (w : Waiting) (a : ApplyPoint) : Bool :=
  match w with
  | .value _ _ _ ap _ _ _ => decide (ap = a)
  | .profile .. => false

/-- The port whose FTW half `f` a waiting value is, and the bays it waits for. -/
def Waiting.ftwHalf (w : Waiting) (f : Field) : Option (Nat × Nat) :=
  match w with
  | .value k left _ _ _ _ _ =>
    if k.block = f.block then ((List.range 4).find? fun p => decide (k.id = f.id + f.stride * p)).map fun p => (p, left) else none
  | .profile .. => none

/-- A held FTW_LO that an FTW_HI accepted after it for the same port takes with it in bay `b` (R221). -/
def pairedLo (ws : List Waiting) (w : Waiting) (b : Nat) : Bool :=
  match w.ftwHalf Fld.ddcFtwLo with
  | none => false
  | some (p, left) => left.testBit b && ((ws.dropWhile fun x => decide (x ≠ w)).any fun x => match x.ftwHalf Fld.ddcFtwHi with
      | some (q, hi) => decide (q = p) && hi.testBit b
      | none => false)

/-- The bays in which a held FTW_LO has its FTW_HI, as a mask. -/
def pairedBays (ws : List Waiting) (w : Waiting) : Nat := (List.range 8).foldl (fun m b => if pairedLo ws w b then m ||| 2 ^ b else m) 0

/-- A waiting value of one of the blocks. -/
def Waiting.inBlocks (w : Waiting) (bs : List Nat) : Bool :=
  match w with
  | .value k _ _ _ _ _ _ => bs.contains k.block
  | .profile .. => false

/-- Reservations that a list of waiting entries holds (R628). -/
def reservations (ws : List Waiting) : Nat :=
  (ws.filter fun w => match w with
    | .value _ _ _ _ _ watched told => watched && !told
    | .profile .. => true).length

/-- Discard waiting entries, releasing their reservations without entry or event (R69, R99, R653). -/
def State.discardWaiting (s : State) (drop : List Waiting) (keep : List Waiting) : State :=
  { s with img := { s.img with waiting := keep }
           keeper := { s.keeper with reserved := s.keeper.reserved - reservations drop } }

/-- Parts of a value key: block, bay, id, element. -/
def keyParts (k : Nat) : Nat × Nat × Nat × Nat :=
  (k / 131072 / 65536 / 8, k / 131072 / 65536 % 8, k / 131072 % 65536, k % 131072)

/-- Make the change of one key that a profile change brings: at once for IMMEDIATE and EPOCH fields, and waiting for
its apply point otherwise (R70). Answers the waiting value, if any, and the state. -/
def State.profileKey (s : State) (target : Vals) (k : Nat) : Option Waiting × State :=
  let (block, bay, id, idx) := keyParts k
  match findField block id with
  | none => (none, s)
  | some (f, i) =>
    let v := target.of f bay i idx
    let b : BayNo := ⟨bay % 8, Nat.mod_lt _ (by decide)⟩
    if idx ≠ 0 ∨ v = s.fld f b i then (none, s)
    else if f.apply = .immediate ∨ f.apply = .epoch then (none, s.putFld f b i .profile v)
    else (some (.value { block := block, mask := 2 ^ bay, id := id } (2 ^ bay) v f.apply s.now false true), s)

/-- Bays for which a list of new waiting values asks an acquisition restart (R70). -/
def restartMask (ws : List Waiting) : Nat :=
  ws.foldl (fun m w => match w with
    | .value _ left _ .acqRestart _ _ _ => m ||| left
    | _ => m) 0

/-- A profile sets both halves of a frequency word together (R221): beside a waiting FTW_LO, the FTW_HI of its port and bay. -/
def profileHalves (target : Vals) (w : Waiting) : List Waiting :=
  match w, w.ftwHalf Fld.ddcFtwLo with
  | .value k left _ ap due _ _, some (p, _) =>
    [w, .value { k with id := Fld.ddcFtwHi.id + Fld.ddcFtwHi.stride * p } left (target.of Fld.ddcFtwHi (Nat.log2 left) p) ap due false true]
  | _, _ => [w]

/-- A profile change takes effect at a boundary: every field is rebuilt, the change is logged and reported (R70, R629). Its values
stand before those accepted after the change, which apply on top of it (R71). -/
def State.changeProfile (s : State) (p : Nat) (pins : Bool) (boundary : Stamp) : State :=
  match s.img.image with
  | none => s
  | some im =>
    let target := im.effective s.part.bays p
    let keys := (s.vals.map (·.1) ++ target.map (·.1)).eraseDups
    let (ws0, s1) := keys.foldl (fun (acc : List Waiting × State) k =>
      let (w, t) := acc.2.profileKey target k
      (acc.1 ++ w.toList, t)) ([], s)
    let ws := ws0.flatMap (profileHalves target)
    let all := ws ++ s1.img.waiting
    let body := match im.profileAt p with
      | some x => x.body
      | none => []
    let s2 := (s1.modImg fun y => { y with waiting := all, profile := p, restartReq := s1.img.restartReq ||| restartMask ws })
    let s3 := (s2.vblankArrive all).sealLog 2 0 p (bytesWords 6 ((sha256 body).take 24) ++ [wd (bitW pins)]) false true
    s3.event 0 0x0120 ([wd p] ++ stampWords boundary)

/-- Entries before and from the last profile change due by `t`. -/
def splitAtProfile (t : Stamp) : List Waiting → Option (List Waiting × (Nat × Bool) × List Waiting)
  | [] => none
  | w :: r =>
    match splitAtProfile t r with
    | some (a, p, c) => some (w :: a, p, c)
    | none =>
      match w with
      | .profile p due pins => if stampLe due t then some ([], (p, pins), r) else none
      | .value .. => none

/-- The EPOCH apply point at a boundary: a due profile change, then due values, in every live bay of the mainland (R65, R70, R71,
R612). -/
def State.epochApply (s : State) (t : Stamp) : State :=
  let s1 := match splitAtProfile t s.img.waiting with
    | none => s
    | some (before, (p, pins), after) => (s.discardWaiting before after).changeProfile p pins t
  s1.eachBay (s1.liveBays.filter fun b => !(s1.bay b).tbs.islanded) fun s b => s.takeEffect b fun w =>
    match w with
    | .value _ _ _ .epoch due _ _ => stampLe due t
    | _ => false

end Sys2Proof.Machine
end

