-- ==== Sys2Proof/Machine/Hop.lean ====
section
/-! DEFINITION. The HOP apply point, what waits for it at a resume, and the end of a calibration run (R65, R222, R226, R229, R232, R254,
R671). -/
namespace Sys2Proof.Machine

/-! ### The HOP apply point -/

/-- The channel and the port that a hop boundary of channel `x` concerns (R65, R222). -/
def State.hopScope (s : State) (b : BayNo) (x : Fin 2) : List (Fin 2) × List Port := ([x], [s.chanPort b x])

/-- The channels that do not transform and the ports that feed no transforming channel: they have no hop, and take their values as these
reach the bay (R222). -/
def State.idleScope (s : State) (b : BayNo) : List (Fin 2) × List Port :=
  ((List.finRange 2).filter fun y => !s.transforms b y, (List.finRange 4).filter fun p => (s.chansOf b p).isEmpty)

/-- The rate f_out of a port as a fraction: the load over a power of two (R213). -/
def State.sameRate (s : State) (b : BayNo) (p q : Port) : Bool :=
  decide (s.portLoad b p * 2 ^ s.decim b q = s.portLoad b q * 2 ^ s.decim b p)

/-- The port that code `v` of DDC.CHx_SRC names (R234). -/
def portFrom (x : Fin 2) (v : Int) : Port := if v = 0 then ⟨x.val, by omega⟩ else if v = 1 then 2 else 3

/-- A waiting value is instance `i` of one of the fields. -/
def Waiting.isOf (w : Waiting) (fs : List Field) (i : Nat) : Bool :=
  match w with
  | .value k _ _ _ _ _ _ => fs.any fun f => decide (k.block = f.block ∧ k.id = f.id + f.stride * i)
  | .profile .. => false

/-- The fields of a port and of a channel that apply at a hop boundary (R234, R284). -/
def hopPortFields : List Field := [Fld.ddcPreset, Fld.ddcFtwLo, Fld.ddcFtwHi, Fld.ddcNcoPhase]
/-- Those of a channel. -/
def hopChanFields : List Field := [Fld.xfmChWindow, Fld.xfmChWinParam]

/-- A waiting value takes effect at a hop boundary with this scope: an FTW_LO only together with a later FTW_HI (R221), and a source of another rate only by an acquisition restart (R229). `any` says that the bay stands in
a restart. -/
def State.hopTakes (s : State) (b : BayNo) (scope : List (Fin 2) × List Port) (any : Bool) (w : Waiting) : Bool :=
  match w with
  | .profile .. => false
  | .value _ left v ap _ _ _ =>
    decide (ap = .hop) && left.testBit b.val &&
    (scope.2.any (fun p => w.isOf hopPortFields p.val && (!w.isOf [Fld.ddcFtwLo] p.val || pairedLo s.img.waiting w b.val)) ||
      scope.1.any fun x => w.isOf hopChanFields x.val ||
        (w.isOf [Fld.ddcChSrc] x.val && (any || !s.transforms b x || s.sameRate b (s.chanPort b x) (portFrom x v))))

/-- A port took new values at `t`: the NCO and the filter go on with them from the first input sample there, a change of preset or a
continuous retune starts an invalid run, and every retune is reported with its t_c (R220, R222, R226, R229). -/
def State.portRetuned (s : State) (b : BayNo) (p : Port) (old : State) (told : Bool) (t : Stamp) : State :=
  let mode := s.fldN Fld.ddcNcoMode b p.val
  let (j, tc) := s.inputFrom b p t
  let preset := decide (old.fldN Fld.ddcPreset b p.val ≠ s.fldN Fld.ddcPreset b p.val)
  let tuned := told || decide (old.fldN Fld.ddcNcoPhase b p.val ≠ s.fldN Fld.ddcNcoPhase b p.val)
  let s0 := if tuned && (s.bay b).ddc[p].delivers then s.tuneFrom b p j else s
  let s1 := if preset then s0.newStretch b p tc (s0.portDelay b p) (s0.portDelay b p) else s0
  let s2 := if preset || (told && decide (mode = 0)) then s1.changeRun b p tc else s1
  if told then s2.event b 0x0501 ([wd p.val] ++ words64 ((s2.ftw b p).setWidth 64) ++ [wd mode] ++ stampWords tc) else s2

/-- A channel takes another source at `t`. A transforming channel whose samples flow takes the new port's outputs from the hop boundary
on, with an invalid run; a new port whose stream is stopped opens a gap there; in a gap or a restart the switch shows with the first
sample after it (R226, R229, R238). -/
def State.chanSwitched (s : State) (b : BayNo) (x : Fin 2) (p0 p1 : Port) (t : Stamp) : State :=
  let c := (s.bay b).xfm.chans[x]
  let y := (s.bay b).ddc[p1]
  let n := y.numberFrom t
  let flows := y.delivers && !(s.bay b).clk.restarting
  let tell := fun (s : State) => s.event b 0x0502 ([wd x.val, wd p0.val, wd p1.val] ++ stampWords (if y.line.isEmpty then t else y.stampOf n))
  if !s.transforms b x then tell s
  else if c.gap.isSome || !flows then
    let s1 := s.modChan b x fun c => { c with switched := some (c.switched.getD p0) }
    if c.gap.isSome || (s.bay b).clk.restarting then s1
    else s1.openChanGap b x (if y.stopped.isSome then stopReason (s1.replayed b p1) else (s1.heldBy b p1).getD .acqRestart) t
  else
    let leg := fun (g : GridRun) => if g.cut.isSome then g else { g with legs := { at_ := s.gridIndex b g t, port := p1, number := n } :: g.legs }
    tell (s.modChan b x fun c => { c with grids := c.grids.map leg, runs := (p1, n, n + s.runLength b p1) :: c.runs })

/-- A channel took new values at `t`: its window (R254), and its source (R229, R238). -/
def State.chanChanged (s : State) (b : BayNo) (x : Fin 2) (old : State) (t : Stamp) : State :=
  let w := s.fldN Fld.xfmChWindow b x.val
  let q := s.fldN Fld.xfmChWinParam b x.val
  let c := (s.bay b).xfm.chans[x]
  let s1 := if c.window = w ∧ c.param = q then s
    else (s.modChan b x fun c => { c with window := w, param := q }).event b 0x0602 ([wd x.val, wd c.window, wd w, wd c.param, wd q] ++ stampWords t)
  if old.chanPort b x = s1.chanPort b x then s1 else s1.chanSwitched b x (old.chanPort b x) (s1.chanPort b x) t

/-- Waiting values of a hop's scope take effect at `t`, once per port (R65, R222, R254). -/
def State.hopApply (s : State) (b : BayNo) (scope : List (Fin 2) × List Port) (any : Bool) (t : Stamp) : State :=
  let told := fun (p : Port) => s.img.waiting.any fun w => s.hopTakes b scope any w && w.isOf [Fld.ddcFtwLo, Fld.ddcFtwHi] p.val
  let s1 := s.takeEffect b (s.hopTakes b scope any)
  let s2 := s1.refreshPorts b t
  let s3 := scope.2.foldl (fun u p => u.portRetuned b p s (told p) t) s2
  let s4 := scope.1.foldl (fun u x => u.chanChanged b x s t) s3
  s4.noteConf b t

/-! ### Resumes -/

/-- What waits for the hops of a port and of the channels that it feeds takes effect as the port resumes with the input sample taken at
counter time `t` (R229). -/
def State.resumeValues (s : State) (b : BayNo) (p : Port) (t : Stamp) : State :=
  s.hopApply b (s.chansOf b p, [p]) false (s.planeStamp b p t)

/-- A channel that stands in a gap while its port delivers takes the port's outputs from `t` on (R229, R232). -/
def State.freeChans (s : State) (b : BayNo) (t : Stamp) : State :=
  (List.finRange 2).foldl (fun s x =>
    let y := (s.bay b).ddc[s.chanPort b x]
    if (s.bay b).xfm.chans[x].gap.isSome && s.transforms b x && y.delivers && !(s.bay b).clk.restarting then
      let n := y.numberFrom t
      (s.chanGrid b x n).closeChanGap b x (y.stampOf n) 0
    else s) s

/-- A port resumes with the input sample taken at counter time `t`, under every value that waited for it (R229, R241). -/
def State.resumeFlow (s : State) (b : BayNo) (p : Port) (t : Stamp) (units : Nat) : State :=
  let s0 := if h : p.val < 2 then s.freeAtten b ⟨p.val, h⟩ else s
  let s1 := (s0.resumeValues b p t).startPort b p t units
  s1.freeChans b (s1.resumeStamp b p t)

/-- A stopped port of a bay resumes with the input sample taken at counter time `t`, unless something else holds its samples back; an
XS port whose receiver has no alignment is a stopped stream from there on (R67, R231). -/
def State.resumePort (s : State) (b : BayNo) (p : Port) (t : Stamp) : State :=
  let y := (s.bay b).ddc[p]
  if !y.active || !y.paused || y.stopped.isSome || (s.heldBy b p).isSome then s
  else if p.isRf || y.aligned then s.resumeFlow b p t 0
  else
    let tL := s.planeStamp b p t
    (s.modPort b p fun y => { y with stopped := some { tL := tL, cause := 0, replay := s.replayed b p } }).stopPort b p
      (stopReason (s.replayed b p)) tL

/-- The channels and streams of a bay resume with input samples taken at counter time `t` and with fresh grids (R67 steps 5 and 6,
R241); `cause` is the reason code that a channel without an open gap reports, and `any` says that a restart of the bay ends. -/
def State.resumeBay (s : State) (b : BayNo) (t : Stamp) (cause : Nat) (any : Bool) : State :=
  let s1 := (List.finRange 2).foldl (fun s x => s.hopApply b ([x], []) any (s.planeStamp b (s.chanPort b x) t)) (s.refreshPorts b t)
  let s2 := (List.finRange 4).foldl (fun s p => s.resumePort b p t) s1
  (List.finRange 2).foldl (fun s x =>
    let c := (s.bay b).xfm.chans[x]
    let y := (s.bay b).ddc[s.chanPort b x]
    let tR := s.resumeStamp b (s.chanPort b x) t
    if c.gap.isSome then (if s.transforms b x then s else s.closeChanGap b x tR 0)
    else if !s.transforms b x || (match c.grids.getLast? with
        | none => false
        | some g => g.cut.isNone) then s
    else if y.delivers then s.startGrid b x (y.numberFrom tR) cause
    else if y.stopped.isSome then s.openChanGap b x (stopReason (s.replayed b (s.chanPort b x))) (s.planeStamp b (s.chanPort b x) t)
    else s) s2

/-! ### Values that reach a bay -/

/-- LIVE_APPLY_IMMEDIATE (R65, R222): the oldest waiting value that bay `b` takes as it arrives reaches it: an IMMEDIATE one, or a HOP
value of what has no hops. -/
def execLiveApplyImmediate (b : BayNo) (s : State) : Out :=
  if !s.alive b || !s.reaches 0 b then .next s
  else
    let mine := fun w : Waiting => w.appliesAt .immediate && (match w with
      | .value _ left _ _ _ _ _ => left.testBit b.val
      | .profile .. => false)
    let scope := s.idleScope b
    match s.img.waiting.find? fun w => mine w || s.hopTakes b scope false w with
    | none => .next s
    | some w0 => .next (if mine w0 then s.takeEffect b fun w => decide (w = w0) else s.hopApply b scope false (s.nowAt b))

/-! ### The end of a calibration run -/

/-- CAL_RUN_END (R663, R666, R667, R671 to R673, R675): the gap closes at t_R, the calibration takes effect, and the record is
emitted. With an acquisition restart requested the gap stays open until the restart's stop. -/
def execCalRunEnd (b : BayNo) (i : Fin 2) (s0 : State) : Out :=
  match (s0.calIn b i).run with
  | none => .next s0
  | some r =>
    match r.outcome with
    | none => .next s0
    | some o =>
      if !r.combDone then .next s0
      else
        let tR := later r.start (ofUs (if r.passes.length = 3 then 2400 else 1600))
        let s := s0.reach tR
        let old := (s.calIn b i).tcal
        let s1 := s.calSettle b i r o
        let n := (s1.calIn b i).runNo
        let s2 := s1.modCal b i fun c => { c with runNo := c.runNo + 1 }
        let p := rfPort i
        let s3 := if (s2.bay b).ddc[p].active && !s2.restartAsked b then s2.resumeFlow b p tR 0 else s2.freeAtten b i
        let s4 := (s3.runRotation b i).calReport b i r o n r.tL (s3.planeStamp b p tR) ((s3.calIn b i).tcal - old)
        .next (if r.again then s4.calDueNow b i 3 else s4)

end Sys2Proof.Machine
end

