-- ==== Sys2Proof/Machine/Ddc.lean ====
section
/-! DEFINITION. External streams that stop and resume, and the DDC registers (R230 to R238). -/
namespace Sys2Proof.Machine

/-- The port of an external stream. -/
def xsPort (x : Fin 2) : Port := ⟨x.val + 2, by omega⟩

/-- Outputs stamped in the last G_p / f_out before t_L are invalid (R230 step 2). -/
def State.lossRun (s : State) (b : BayNo) (p : Port) (tL : Stamp) : State :=
  let y := (s.bay b).ddc[p]
  let e := y.ended.getD (y.numberFrom tL)
  let lo := max (s.runFrom b p tL) (y.bornOf e)
  if y.delivers && decide (lo < e) then s.modPort b p fun y => y.addRun lo e else s

/-- A JESD204B receiver that has lost alignment asserts JSYNC again, no lane counts as locked, and the grid moves to the phase of the
last edge off it (R579, R581, R588). -/
def State.askSync (s : State) (b : BayNo) (p : Port) : State :=
  let x : Fin 2 := ⟨p.xs % 2, Nat.mod_lt _ (by decide)⟩
  s.modBay b fun y => { y with jes := y.jes.set x { y.jes[x] with
    jsync := decide (s.fldN Fld.jesSStd b x.val = 0), locked := 0
    grid := if y.jes[x].nextGrid.isSome then y.jes[x].nextGrid else y.jes[x].grid, nextGrid := none } }

/-- A stream on an XS port stops at `tL` (R230, R233). -/
def State.stopStream (s : State) (b : BayNo) (p : Port) (tL : Stamp) (cause : Nat) (replay : Bool) : State :=
  let s1 := (if (s.bay b).ddc[p].active then s.lossRun b p tL else s).modPort b p fun y =>
    { y with
      stopped := some { tL := tL, cause := cause, replay := replay }
      aligned := y.aligned && decide (cause ≠ 0)
      losses := if cause = 0 then y.losses + 1 else y.losses
      singles := if cause = 0 then y.singles else y.singles + 1 }
  let s1 := if cause = 0 ∧ !replay then s1.askSync b p else s1
  let s2 := if (s.bay b).ddc[p].active then s1.stopPort b p (stopReason replay) tL else s1
  s2.event b 0x0510 ([wd p.val] ++ stampWords tL ++ [wd cause])

/-- A stopped stream resumes with the input sample taken at counter time `t`; a port that something else holds back starts with that
(R232). -/
def State.resumeStream (s : State) (b : BayNo) (p : Port) (t : Stamp) (units : Nat) : State :=
  match (s.bay b).ddc[p].stopped with
  | none => s
  | some z =>
    let s1 := s.modPort b p fun y => { y with stopped := none, aligned := true, unitsLost := y.unitsLost + wd units }
    let tR := s1.planeStamp b p t
    let s2 := if (s.bay b).ddc[p].active && (s1.heldBy b p).isNone then s1.resumeFlow b p t (if z.replay then 0 else units) else s1
    s2.event b 0x0511 ([wd p.val] ++ stampWords z.tL ++ stampWords tR ++ [wd units])

/-- XS_STREAM_STOP (R230, R580): a unit of stream `x` whose first sample the receiver releases at counter time `t` is not good
(`loss` false), or alignment is lost there. -/
def execXsStreamStop (b : BayNo) (x : Fin 2) (t : Stamp) (loss : Bool) (s : State) : Out :=
  let p := xsPort x
  let y := (s.bay b).ddc[p]
  if !s.alive b || !y.aligned || y.stopped.isSome || s.replayed b p then .next s
  else .next (s.stopStream b p (s.planeStamp b p t) (if loss then 0 else 1) false)

/-- XS_STREAM_RESUME (R232, R580): the first sample of the first good unit of stream `x` is released at counter time `t`, after `units`
were lost; after a loss of alignment the receiver has aligned again. -/
def execXsStreamResume (b : BayNo) (x : Fin 2) (t : Stamp) (units : Nat) (s : State) : Out :=
  let p := xsPort x
  let y := (s.bay b).ddc[p]
  match y.stopped with
  | none => .next s
  | some z =>
    if !s.alive b || !y.aligned || z.replay || stampLt (s.planeStamp b p t) z.tL then .next s else .next (s.resumeStream b p t units)

/-- A held FTW_LO waits for the port: no HI value was accepted after it (R221). -/
def State.loHeld (s : State) (b : BayNo) (p : Port) : Bool :=
  s.img.waiting.any fun w => (match w.ftwHalf Fld.ddcFtwLo with
    | some (q, left) => decide (q = p.val) && left.testBit b.val
    | none => false) && !pairedLo s.img.waiting w b.val

/-- DDC_PORT_STATUSp (R237). -/
def State.portStatus (s : State) (b : BayNo) (p : Port) : Word :=
  let y := (s.bay b).ddc[p]
  let run := match y.runs with
    | (_, e) :: _ => y.active && decide (y.numberFrom (s.nowAt b) < e)
    | [] => false
  wd (bitW y.active + 2 * bitW run + 4 * bitW y.stopped.isSome + 8 * s.fldN Fld.ddcPreset b p.val + 32 * s.decim b p +
    1024 * s.fldN Fld.ddcNcoMode b p.val + 2048 * bitW (s.loHeld b p))

/-- The DDC registers (R236). -/
def State.ddcReg (s : State) (b : BayNo) (off : Nat) : Word :=
  let p : Port := ⟨off / 4 % 4, by omega⟩
  let x := (s.bay b).ddc[p]
  if off = 0 then wd (s.ddcLoad b % 65536)
  else if off = 4 then wd (s.fldN Fld.ddcChSrc b 0 + 4 * s.fldN Fld.ddcChSrc b 1)
  else if 0x10 ≤ off ∧ off < 0x20 then s.portStatus b p
  else if 0x20 ≤ off ∧ off < 0x30 then x.runCount
  else if off = 0x30 ∨ off = 0x34 then
    let y := (s.bay b).ddc[xsPort ⟨off / 4 % 2, by omega⟩]
    y.singles ++ y.losses
  else if off = 0x38 ∨ off = 0x3C then ((s.bay b).ddc[xsPort ⟨off / 4 % 2, by omega⟩]).unitsLost
  else 0

end Sys2Proof.Machine
end

