-- ==== Sys2Proof/Machine/Scn.lean ====
section
/-! DEFINITION. Display scan-out: raster, composition, CRC rectangles and the verified readout (R362 to R395). -/
namespace Sys2Proof.Machine

/-- The scan-out of a bay. -/
def State.scn (s : State) (b : BayNo) : Scn := (s.bay b).scn

/-- Change the verified readout of a bay. -/
def State.modRo (s : State) (b : BayNo) (f : Readout → Readout) : State := s.modScn b fun y => { y with ro := f y.ro }

/-- The scan-out's domain is powered in a bay that is not lost (R362). -/
def State.scnAwake (s : State) (b : BayNo) : Bool := s.alive b && (s.bay b).pwr.scanOut

/-! ### Raster (R364) -/

/-- H_TOTAL. -/
def State.hTotal (s : State) (b : BayNo) : Nat :=
  s.fldN Fld.scnHActive b + s.fldN Fld.scnHFront b + s.fldN Fld.scnHSync b + s.fldN Fld.scnHBack b

/-- V_BL. -/
def State.vBlank (s : State) (b : BayNo) : Nat := s.fldN Fld.scnVFront b + s.fldN Fld.scnVSync b + s.fldN Fld.scnVBack b

/-- V_TOTAL. -/
def State.vTotal (s : State) (b : BayNo) : Nat := s.fldN Fld.scnVActive b + s.vBlank b

/-- The duration of `n` pixels. -/
def State.pixelTime (s : State) (b : BayNo) (n : Nat) : Nat := durOf n (1000 * s.fldN Fld.scnPixelKhz b)

/-- The start of pixel (x, y) of the current frame. -/
def State.pixelStart (s : State) (b : BayNo) (x y : Nat) : Stamp := later (s.scn b).frameStart (s.pixelTime b (y * s.hTotal b + x))

/-- The latch point of the current frame (R369). -/
def State.latchPoint (s : State) (b : BayNo) : Stamp := s.pixelStart b 0 (s.fldN Fld.scnVActive b + 4)

/-- The timing fields whose change restarts the raster (R371). -/
def State.rasterTiming (s : State) (b : BayNo) : List Nat :=
  [Fld.scnPixelKhz, Fld.scnHActive, Fld.scnHFront, Fld.scnHSync, Fld.scnHBack, Fld.scnVActive, Fld.scnVFront, Fld.scnVSync,
   Fld.scnVBack].map fun f => s.fldN f b

/-- Four pixels per cycle (R365). -/
def State.fourPixels (s : State) (b : BayNo) : Bool := decide (s.fldN Fld.scnPixelKhz b > 700000)

/-! ### Memories -/

/-- The memories as they stand when a pixel that starts at `t` is drawn (R372). -/
def Scn.memAt (y : Scn) (t : Stamp) : Sparse Byte :=
  match y.history.find? fun h => stampLt t h.1 with
  | some h => h.2
  | none => y.mem

/-- Little-endian value of `n` bytes of a memory. -/
def leOf (m : Sparse Byte) (a n : Nat) : Nat := (List.range n).foldl (fun v i => v + (Sparse.get 0#8 m (a + i)).toNat * 256 ^ i) 0

/-- Write the bytes of a word that `en` selects, noting what the memories held before (R372, R761). -/
def State.scnMemWrite (s : State) (b : BayNo) (off : Nat) (v : Word) (en : BitVec 4) : State :=
  s.modScn b fun y =>
    { y with
      history := y.history ++ [(s.nowAt b, y.mem)]
      mem := (List.range 4).foldl (fun m i =>
        if en.getLsbD i then Sparse.set 0#8 m (off + i) (v.extractLsb' (8 * i) 8) else m) y.mem }

/-! ### Composition (R374 to R383) -/

/-- The colour of a layer at a pixel, none where it draws nothing. -/
abbrev Pixel := Option (BitVec 30)

/-- The piecewise-linear logarithm, in units of 2^-16 (R376). -/
def lg (x : Nat) : Nat := 65536 * x.log2 + (x - 2 ^ x.log2) * 65536 / 2 ^ x.log2

/-- The palette index of a count (R376). -/
def paletteIndex (c full : Nat) : Nat := if c = 0 then 0 else 1 + min 1022 (1022 * lg (1 + c) / lg (1 + full))

/-- The run of columns or rows that a plot pixel covers: first and count (R375). -/
def plotRun (x first shown size : Nat) : Nat × Nat :=
  let lo := x * shown / size
  (first + lo, if size ≤ shown then (x + 1) * shown / size - lo else 1)

/-- The largest count of a frame in a block of cells; a column the frame lacks counts 0 (R375). -/
def maxCell (f : DenFrame) (c0 nc r0 nr : Nat) : Nat :=
  (f.cells.filter fun e => decide (c0 ≤ e.1 % 1024 ∧ e.1 % 1024 < c0 + nc ∧ r0 ≤ e.1 / 1024 ∧ e.1 / 1024 < r0 + nr ∧
    e.1 % 1024 < f.info.cols)).foldl (fun m e => max m e.2.toNat) 0

/-- The density layer at plot column `x` and height `h` (R375 to R377). -/
def State.densityPixel (s : State) (b : BayNo) (m : Sparse Byte) (x h : Nat) : Pixel :=
  match (s.scn b).den with
  | none => none
  | some f =>
    let c0 := s.fldN Fld.scnDenColFirst b
    let r0 := s.fldN Fld.scnDenRowFirst b
    let nc := s.fldN Fld.scnDenColCount b
    let nr := s.fldN Fld.scnDenRowCount b
    let cs := plotRun x c0 nc (s.fldN Fld.scnPlotW b)
    let rs := plotRun h r0 nr (s.fldN Fld.scnPlotH b)
    let full := if s.fldN Fld.scnDenFull b = 0 then maxCell f c0 nc r0 nr else s.fldN Fld.scnDenFull b
    let i := paletteIndex (maxCell f cs.1 cs.2 rs.1 rs.2) full
    let e := leOf m (0x60000 + 0x1000 * s.fldN Fld.scnPalette b + 4 * i) 4
    if e.testBit 31 then none else some (BitVec.ofNat 30 e)

/-- The height of a point value in the plot, none for 0x8000 (R378). -/
def pointHeight (v bottom top : Int) (h : Nat) : Option Int :=
  if v = -32768 then none else some (max 0 (min (h - 1) ((v - bottom) * h / (top - bottom))))

/-- The heights that a trace slot draws in plot column `x`, with the last point to its left (R378). -/
def traceSpan (pts : List Int) (bottom top : Int) (w h x : Nat) : Option (Int × Int) :=
  let p := pts.length
  let j0 := x * p / w
  let j1 := max j0 ((x + 1) * p / w - 1)
  let hs := ((pts.drop j0).take (j1 - j0 + 1)).filterMap fun v => pointHeight v bottom top h
  match hs with
  | [] => none
  | a :: r =>
    let lo := r.foldl min a
    let hi := r.foldl max a
    let left : Option Int := if x = 0 then none else
      let k0 := (x - 1) * p / w
      let k1 := max k0 (x * p / w - 1)
      match pts[k1]? with
      | none => none
      | some v => pointHeight v bottom top h
    match left with
    | none => some (lo, hi)
    | some l => some (min lo l, max hi l)

/-- A trace slot at a plot pixel. -/
def State.tracePixel (s : State) (b : BayNo) (i : Fin 8) (x h : Nat) : Pixel :=
  if !s.fldB Fld.scnSEn b i.val then none
  else
    match (s.scn b).traces[i] with
    | none => none
    | some pts =>
      match traceSpan pts (s.fld Fld.scnSBottom b i.val) (s.fld Fld.scnSTop b i.val) (s.fldN Fld.scnPlotW b) (s.fldN Fld.scnPlotH b) x with
      | none => none
      | some r => if r.1 ≤ (h : Int) ∧ (h : Int) ≤ r.2 then some (BitVec.ofNat 30 (s.fldN Fld.scnSColour b i.val)) else none

/-- A segment of the graticule store covers a pixel (R379). -/
def segmentCovers (e x y : Nat) : Bool :=
  let sx := bits e 15 0
  let sy := bits e 31 16
  let n := bits e 47 32
  if e.testBit 48 then decide (x = sx ∧ sy ≤ y ∧ y < sy + n) else decide (y = sy ∧ sx ≤ x ∧ x < sx + n)

/-- The graticule at a pixel: the last segment drawn that covers it (R379). -/
def State.graticulePixel (s : State) (b : BayNo) (m : Sparse Byte) (x y : Nat) : Pixel :=
  if !s.fldB Fld.scnGratEn b then none
  else (List.range (s.fldN Fld.scnGratCount b)).foldl (fun p j =>
    let e := leOf m (0x70000 + 8 * (s.fldN Fld.scnGratFirst b + j)) 8
    if segmentCovers e x y then some (BitVec.ofNat 30 (s.fldN Fld.scnColour b (bits e 51 49))) else p) none

/-- The text layer at a pixel (R380, R381). -/
def State.textPixel (s : State) (b : BayNo) (m : Sparse Byte) (x y : Nat) : Pixel :=
  let f := s.fldN Fld.scnTextFont b
  let dim := ((s.scn b).fontDim[f % 4]'(Nat.mod_lt _ (by decide))).toNat
  let fw := bits dim 5 0
  let fh := bits dim 14 8
  let tx := s.fldN Fld.scnTextX b
  let ty := s.fldN Fld.scnTextY b
  if !s.fldB Fld.scnTextEn b || decide (fw = 0 ∨ fh = 0 ∨ x < tx ∨ y < ty) then none
  else
    let c := (x - tx) / fw
    let r := (y - ty) / fh
    if c ≥ s.fldN Fld.scnTextCols b ∨ r ≥ s.fldN Fld.scnTextRows b then none
    else
      let cell := leOf m (0x40000 + 0x2000 * s.fldN Fld.scnTextPage b + 2 * (r * s.fldN Fld.scnTextCols b + c)) 2
      let row := leOf m (0x80000 + 0x10000 * f + 0x100 * bits cell 7 0 + 4 * ((y - ty) % fh)) 4
      if row.testBit (31 - (x - tx) % fw) then some (BitVec.ofNat 30 (s.fldN Fld.scnColour b (bits cell 10 8)))
      else if cell.testBit 14 then none
      else some (BitVec.ofNat 30 (s.fldN Fld.scnColour b (bits cell 13 11)))

/-- Width and height of a glyph of the readout font (R380, R382). -/
def State.roDims (s : State) (b : BayNo) : Nat × Nat := (s.fldN Fld.scnRoFont b 0 0, s.fldN Fld.scnRoFont b 0 1)

/-- The readout rectangle: left, top, width, height (R382). -/
def State.roRect (s : State) (b : BayNo) : Nat × Nat × Nat × Nat :=
  (s.fldN Fld.scnRoX b, s.fldN Fld.scnRoY b, s.fldN Fld.scnRoCols b * (s.roDims b).1, s.fldN Fld.scnRoRows b * (s.roDims b).2)

/-- The stale buffer: glyph 0x2D with INVERSE in every cell (R385). -/
def State.staleCells (s : State) (b : BayNo) : ReadoutCells := List.replicate (s.fldN Fld.scnRoCols b * s.fldN Fld.scnRoRows b) 0x012D

/-- A pixel of the readout rectangle for a buffer, (x, y) from its corner (R383). -/
def State.roPixel (s : State) (b : BayNo) (cells : ReadoutCells) (x y : Nat) : BitVec 30 :=
  let (fw, fh) := s.roDims b
  let cell := (cells.getD (y / fh * s.fldN Fld.scnRoCols b + x / fw) 0).toNat
  let row := s.fldN Fld.scnRoFont b 0 (2 + fh * bits cell 7 0 + y % fh)
  let ink := row.testBit (31 - x % fw) != cell.testBit 8
  BitVec.ofNat 30 (if ink then s.fldN Fld.scnRoFg b else s.fldN Fld.scnRoBg b)

/-- A point lies in a rectangle. -/
def inRect (r : Nat × Nat × Nat × Nat) (x y : Nat) : Bool :=
  decide (r.1 ≤ x ∧ x < r.1 + r.2.2.1 ∧ r.2.1 ≤ y ∧ y < r.2.1 + r.2.2.2)

/-- The first layer of a list that draws. -/
def topmost (ps : List Pixel) (bg : BitVec 30) : BitVec 30 := (ps.findSome? id).getD bg

/-- The composed pixel (R374): the layers from the top down. -/
def State.pixel (s : State) (b : BayNo) (x y : Nat) : BitVec 30 :=
  let m := (s.scn b).memAt (s.pixelStart b x y)
  let plot := (s.fldN Fld.scnPlotX b, s.fldN Fld.scnPlotY b, s.fldN Fld.scnPlotW b, s.fldN Fld.scnPlotH b)
  let ro : Pixel := if s.fldB Fld.scnRoEn b && inRect (s.roRect b) x y then
      some (s.roPixel b ((s.scn b).ro.shown.getD (s.staleCells b)) (x - (s.roRect b).1) (y - (s.roRect b).2.1))
    else none
  let px := x - plot.1
  let ph := plot.2.1 + plot.2.2.2 - 1 - y
  let inPlot := inRect plot x y
  let traces : List Pixel := if inPlot then [7, 6, 5, 4, 3, 2, 1, 0].map fun (i : Fin 8) => s.tracePixel b i px ph else []
  let den : Pixel := if inPlot && s.fldB Fld.scnDenEn b then s.densityPixel b m px ph else none
  topmost ([ro, s.textPixel b m x y, s.graticulePixel b m x y] ++ traces ++ [den]) (BitVec.ofNat 30 (s.fldN Fld.scnBgColour b))

/-! ### CRC rectangles (R387 to R390) -/

/-- The bytes of a pixel for its CRC (R388). -/
def pixelBytes (p : BitVec 30) : List Byte :=
  let w : Word := p.zeroExtend 32
  [w.extractLsb' 0 8, w.extractLsb' 8 8, w.extractLsb' 16 8, w.extractLsb' 24 8]

/-- CRC of a rectangle of pixels in raster order (R388). -/
def crcOfPixels (w h : Nat) (p : Nat → Nat → BitVec 30) : Word :=
  crc32c ((List.range h).flatMap fun y => (List.range w).flatMap fun x => pixelBytes (p x y))

/-- Rectangle `r` (R387). -/
def State.crcRect (s : State) (b : BayNo) (r : Fin 16) : Nat × Nat × Nat × Nat :=
  if r.val = 15 then s.roRect b
  else (s.fldN Fld.scnCrcX b r.val, s.fldN Fld.scnCrcY b r.val, s.fldN Fld.scnCrcW b r.val, s.fldN Fld.scnCrcH b r.val)

/-- The mode of rectangle `r`: rectangle 15 compares while the readout is enabled (R389, R390). -/
def State.crcMode (s : State) (b : BayNo) (r : Fin 16) : Nat :=
  if r.val = 15 then (if s.fldB Fld.scnRoEn b then 2 else 0) else s.fldN Fld.scnCrcMode b r.val

/-- The CRC of rectangle `r` as composed. -/
def State.rectCrc (s : State) (b : BayNo) (r : Fin 16) : Word :=
  let q := s.crcRect b r
  crcOfPixels q.2.2.1 q.2.2.2 fun x y => s.pixel b (q.1 + x) (q.2.1 + y)

/-- The expected CRC of the readout rectangle for a buffer, by the reference rendering (R384). -/
def State.roExpected (s : State) (b : BayNo) (cells : ReadoutCells) : Word :=
  crcOfPixels (s.roRect b).2.2.1 (s.roRect b).2.2.2 fun x y => s.roPixel b cells x y

/-- The expected CRC in force of rectangle `r`. -/
def State.expectedCrc (s : State) (b : BayNo) (r : Fin 16) : Word :=
  if h : r.val < 15 then (s.scn b).exp[r.val] else (s.scn b).ro.expected

/-- A readout comparison: the event, the count and the seal log (R390, R768). -/
def State.roCompare (s : State) (b : BayNo) (crc : Word) : State :=
  let y := (s.scn b).ro
  let f := (s.scn b).frame + 1
  if crc = y.expected then
    if y.run = 0 then s
    else (s.modRo b fun y => { y with run := 0 }).sealLog 9 b 1 [f, crc, y.expected, wd y.run]
  else
    let s1 := s.modRo b fun y => { y with run := y.run + 1, mismatches := y.mismatches + 1 }
    let s2 := s1.event b 0x0901 ([f] ++ stampWords (s.scn b).frameStamp ++ [crc, y.expected])
    if y.run = 0 then (s2.sealLog 9 b 0 [f, crc, y.expected, 0]).alert 1 else s2

/-- SCN_CRC_COMPARE (R388 to R390): rectangle `r` completes. `upset` is what a fault of the composition path has changed in
the CRC, 0 without one. -/
def execScnCrcCompare (b : BayNo) (r : Fin 16) (upset : Word) (s0 : State) : Out :=
  let mode := s0.crcMode b r
  let y := s0.scn b
  if !s0.scnAwake b || !y.on || decide (mode = 0) || y.now.done.getLsbD r.val || y.blanked then .next s0
  else
    let q := s0.crcRect b r
    let s := s0.reach (s0.pixelStart b (q.1 + q.2.2.1) (q.2.1 + q.2.2.2 - 1))
    let crc := s.rectCrc b r ^^^ upset
    let bit : BitVec 16 := BitVec.ofNat 16 (2 ^ r.val)
    let compares := decide (mode = 2)
    let bad := compares && decide (crc ≠ s.expectedCrc b r)
    let s1 := s.modScn b fun y =>
      { y with now :=
        { y.now with
          crcs := y.now.crcs.set r crc, done := y.now.done ||| bit
          compared := if compares then y.now.compared ||| bit else y.now.compared
          mismatched := if bad then y.now.mismatched ||| bit else y.now.mismatched } }
    if r.val = 15 then .next (s1.roCompare b crc)
    else if bad && !y.crcTold.getLsbD r.val then
      .next ((s1.modScn b fun y => { y with crcTold := y.crcTold ||| BitVec.ofNat 15 (2 ^ r.val) }).event b 0x0902 [])
    else .next s1

/-- VERTICAL_BLANKING_START (R389): the results of the frame become readable. -/
def State.blankStart (s : State) (b : BayNo) : State :=
  if (s.scn b).blanked then s
  else s.modScn b fun y => { y with blanked := true, crcBefore := y.crc, crc := y.now, now := .reset }

/-- VERTICAL_BLANKING_START (R389): the first blanking line of the frame. -/
def execVerticalBlankingStart (b : BayNo) (s0 : State) : Out :=
  if !s0.scnAwake b || !(s0.scn b).on then .next s0
  else .next ((s0.reach (s0.pixelStart b 0 (s0.fldN Fld.scnVActive b))).blankStart b)

/-! ### Latch (R369 to R373) -/

/-- Latch every shadow register (R369, R370, R389): waiting live and profile values take effect with them. -/
def State.latchShadows (s : State) (b : BayNo) : State :=
  let s1 := s.takeEffect b fun w => w.appliesAt .vblank
  let s2 := (s1.scn b).shadow.foldl (fun s e =>
    match shadowField e.1 with
    | none => s
    | some (f, i) => s.putFld f b i .live e.2) s1
  s2.modScn b fun y => { y with shadow := [], commit := false, exp := y.expShadow }

/-- The bay can hear from another bay: neither is lost, and the fabric has a path between them that no split cuts (R22, R373). -/
def State.hears (s : State) (b src : BayNo) : Bool := s.alive b && s.alive src && s.reaches src b && s.sameSide src b

/-- A bay named by a setting. -/
def bayOf (n : Nat) : BayNo := ⟨n % 8, Nat.mod_lt _ (by decide)⟩

/-- The bays that a scan-out's content comes from. -/
def State.scnSources (s : State) (b : BayNo) : List BayNo :=
  (if s.fldB Fld.scnDenEn b then [bayOf (s.fldN Fld.scnDenCh b / 2)] else []) ++
    ((List.range 8).filter fun i => s.fldB Fld.scnSEn b i).map fun i => bayOf (s.fldN Fld.scnSBay b i)

/-- Latch the content of the layers (R372, R373): a source that cannot be heard leaves its last content. -/
def State.latchContent (s : State) (b : BayNo) : State :=
  let ch := s.fldN Fld.scnDenCh b
  let src := bayOf (ch / 2)
  let den := if s.hears b src then ((s.bay src).den.chans[ch % 2]'(Nat.mod_lt _ (by decide))).frame else (s.scn b).den
  let traces := Vector.ofFn fun (i : Fin 8) =>
    let tb := bayOf (s.fldN Fld.scnSBay b i.val)
    if s.hears b tb then ((s.bay tb).xfm.traces[s.fldN Fld.scnSTrace b i.val % 16]'(Nat.mod_lt _ (by decide))).shown
    else (s.scn b).traces[i]
  let mute := (s.scnSources b).any fun x => !s.hears b x
  let told := (s.scn b).staleTold
  let s1 := s.modScn b fun y => { y with den := den, traces := traces, staleTold := mute }
  if mute && !told then s1.event b 0x0905 [] else s1

/-- Adopt a readout buffer at a latch point (R384, R385). -/
def State.latchReadout (s : State) (b : BayNo) : State :=
  match (s.scn b).ro.ready with
  | some (cells, crc) =>
    s.modRo b fun y => { y with ready := none, staleDue := false, shown := some cells, expected := crc, adopted := true, stale := false }
  | none =>
    if (s.scn b).ro.staleDue then
      let c := s.staleCells b
      (s.modRo b fun y => { y with staleDue := false, shown := some c, expected := s.roExpected b c, adopted := true, stale := true }).event
        b 0x0903 []
    else s

/-- SCN_LATCH_POINT (R369 to R373, R384, R385): line V_ACTIVE + 4 starts. -/
def execScnLatchPoint (b : BayNo) (s0 : State) : Out :=
  if !s0.scnAwake b || !(s0.scn b).on then .next s0
  else
    let t := s0.latchPoint b
    let s := (s0.reach t).blankStart b
    let old := s.rasterTiming b
    let next := s.pixelStart b 0 (s.vTotal b)
    let s1 := if (s.scn b).commit then s.latchShadows b else s
    let restart := decide (s1.rasterTiming b ≠ old)
    let s2 := s1.modScn b fun y =>
      { y with
        frame := y.frame + 1, frameStamp := t, blanked := false, history := [], restarting := restart
        frameStart := if restart then later t (s1.pixelTime b (s1.vBlank b * s1.hTotal b)) else next
        crc := if restart then y.crcBefore else y.crc
        ro := if restart then { y.ro with run := y.ro.runBefore } else { y.ro with runBefore := y.ro.run } }
    let s3 := (s2.latchContent b).latchReadout b
    .next (if restart then s3.event b 0x0904 [] else s3)

/-- SCN_COMMIT_WRITE (R369, R370): COMMIT is set or withdrawn. -/
def execScnCommitWrite (b : BayNo) (v : Bool) (s : State) : Out :=
  if !s.scnAwake b then .next (s.fencedAccess b .scanOut) else .next (s.modScn b fun y => { y with commit := v })

/-- The shadow value of a field. -/
def State.shadowOf (s : State) (b : BayNo) (id : Nat) (f : Field) (i : Nat) : Int :=
  match (s.scn b).shadow.find? fun e => decide (e.1 = id) with
  | some e => e.2
  | none => s.fld f b i

/-- A host write of a shadow register supersedes a live value that waits for it (R370). -/
def State.supersede (s : State) (b : BayNo) (id : Nat) : State :=
  let hit := fun (w : Waiting) => match w with
    | .value k left _ _ _ _ _ => decide (k.block = 0x09 ∧ k.id = id) && left.testBit b.val
    | .profile .. => false
  let gone := s.img.waiting.filter fun w => hit w && (match w with
    | .value _ left _ _ _ _ _ => decide (left = 2 ^ b.val)
    | .profile .. => false)
  let keep := s.img.waiting.filterMap fun w =>
    if !hit w then some w
    else match w with
      | .value k left v ap due wt told => if left = 2 ^ b.val then none else some (.value k (left - 2 ^ b.val) v ap due wt told)
      | .profile .. => some w
  s.discardWaiting gone keep

/-! ### Verified readout -/

/-- POST_COPY_DONE (R383, R384, R423): the posted buffer reaches the sealed side. -/
def execPostCopyDone (b : BayNo) (c : CoreNo) (s : State) : Out :=
  match (s.core b c).copying with
  | some (.post start ws) =>
    if !s.alive b then .next s
    else
      let (pay, s1) := s.copiedWords (s.core b c) start ws
      let n := s1.fldN Fld.scnRoCols b * s1.fldN Fld.scnRoRows b
      let cells := (pay.flatMap fun w => [w.extractLsb' 0 16, w.extractLsb' 16 16]).take n
      let s2 := s1.modCore b c fun k => { k with copying := none }
      .next (s2.modRo b fun y =>
        { y with posted := some (cells, s2.nowAt b), ready := none, staleDue := false, lastPost := s2.nowAt b })
  | _ => .next s

/-- RO_REFERENCE_DONE (R384): the expected CRC of the posted buffer is known. -/
def execRoReferenceDone (b : BayNo) (s : State) : Out :=
  match (s.scn b).ro.posted with
  | none => .next s
  | some (cells, _) =>
    if !s.alive b then .next s
    else .next (s.modRo b fun y => { y with posted := none, ready := some (cells, s.roExpected b cells) })

/-- RO_STALE_TIMEOUT (R385): no buffer has been posted for RO_STALE ms. -/
def execRoStaleTimeout (b : BayNo) (s0 : State) : Out :=
  let n := s0.fldN Fld.scnRoStale b
  let y := s0.scn b
  if !s0.scnAwake b || !y.on || !s0.fldB Fld.scnRoEn b || decide (n = 0) || y.ro.stale || y.ro.staleDue then .next s0
  else .next ((s0.reach (later y.ro.lastPost (ofMs n))).modRo b fun y => { y with staleDue := true })

/-! ### DisplayPort (R366 to R368) -/

/-- What the main link of a scan-out carries beside its pixels: the link, and the stream's timing with its polarities (R364 to R366,
R371). -/
structure MainStream where
  rate : Nat
  lanes : Nat
  downSpread : Bool
  pixelKhz : Nat
  /-- Active, front, sync and back of a line and of a frame. -/
  line : Nat × Nat × Nat × Nat
  frame : Nat × Nat × Nat × Nat
  hPositive : Bool
  vPositive : Bool
  deriving DecidableEq, Repr

/-- The stream that a trained main link carries (R366, R371). -/
def State.mainStream (s : State) (b : BayNo) : Option MainStream :=
  if !(s.scn b).linkUp then none
  else
    let pol := s.fldN Fld.scnSyncPol b
    some
      { rate := s.fldN Fld.scnLinkRate b, lanes := s.fldN Fld.scnLanes b, downSpread := s.fldB Fld.scnSsc b
        pixelKhz := s.fldN Fld.scnPixelKhz b
        line := (s.fldN Fld.scnHActive b, s.fldN Fld.scnHFront b, s.fldN Fld.scnHSync b, s.fldN Fld.scnHBack b)
        frame := (s.fldN Fld.scnVActive b, s.fldN Fld.scnVFront b, s.fldN Fld.scnVSync b, s.fldN Fld.scnVBack b)
        hPositive := pol.testBit 0, vPositive := pol.testBit 1 }

/-- DP_HPD_RISE (R368): the EDID is read and training starts. -/
def execDpHpdRise (b : BayNo) (edid : List Byte) (s : State) : Out :=
  if !s.scnAwake b || (s.scn b).hpd then .next s
  else .next (s.modScn b fun y =>
    { y with hpd := true, edid := (edid ++ List.replicate 256 0).take 256, training := true, retryFrom := none })

/-- DP_HPD_IRQ (R368): lost link status, or an earlier failure, leads to training. -/
def execDpHpdIrq (b : BayNo) (lostStatus : Bool) (s : State) : Out :=
  let y := s.scn b
  if !s.scnAwake b || !y.hpd then .next s
  else if lostStatus || y.retryFrom.isSome then
    .next (s.modScn b fun y => { y with linkUp := y.linkUp && !lostStatus, training := true, retryFrom := none })
  else .next s

/-- DP_HPD_FALL (R368, R391): the link goes down and the raster continues. -/
def execDpHpdFall (b : BayNo) (s : State) : Out :=
  if !s.scnAwake b || !(s.scn b).hpd then .next s
  else .next ((s.modScn b fun y => { y with hpd := false, linkUp := false, training := false, retryFrom := none }).event b 0x0912 [])

/-- DP_LINK_TRAIN_DONE (R368): training completes or fails. -/
def execDpLinkTrainDone (b : BayNo) (ok : Bool) (s : State) : Out :=
  if !s.scnAwake b || !(s.scn b).training then .next s
  else if ok then
    .next ((s.modScn b fun y => { y with training := false, linkUp := true, trained := y.trained + 1 }).event b 0x0910 [])
  else
    .next ((s.modScn b fun y =>
      { y with training := false, linkUp := false, failed := y.failed + 1, retryFrom := some (s.nowAt b) }).event b 0x0911 [])

/-- DP_TRAIN_RETRY_TIMER (R368): 1 s after a failed training. -/
def execDpTrainRetryTimer (b : BayNo) (s0 : State) : Out :=
  match (s0.scn b).retryFrom with
  | none => .next s0
  | some t =>
    if !s0.scnAwake b || !(s0.scn b).hpd then .next s0
    else .next ((s0.reach (later t (ofMs 1000))).modScn b fun y => { y with training := true, retryFrom := none })

/-! ### Start and registers -/

/-- Bytes placed in a memory from `a` upwards. -/
def placeBytes (m : Sparse Byte) (a : Nat) (bs : List Byte) : Sparse Byte := Sparse.setRun 0#8 m a bs

/-- Rows of a font body, at the places of the glyph memory (R380, R393). -/
def placeFont (m : Sparse Byte) (f : Nat) (body : List Byte) : Sparse Byte :=
  let h := leNat ((body.drop 4).take 4)
  (List.range 256).foldl (fun m g =>
    placeBytes m (0x80000 + 0x10000 * f + 0x100 * g) ((body.drop (8 + 4 * h * g)).take (4 * h))) m

/-- Load palettes, fonts and the graticule store from the image (R377, R379, R380). -/
def State.loadTables (s : State) (b : BayNo) : State :=
  match s.img.image with
  | none => s
  | some im =>
    (im.items.filter fun x => x.bays.testBit b.val).foldl (fun s x =>
      match x.code with
      | 0x0002 => s.modScn b fun y => { y with mem := placeBytes y.mem (0x60000 + 0x1000 * x.index) x.body }
      | 0x0003 => s.modScn b fun y =>
        { y with
          mem := placeFont y.mem x.index x.body
          fontDim := y.fontDim.set (x.index % 4) (wd (leNat (x.body.take 4) % 64 + 256 * (leNat ((x.body.drop 4).take 4) % 128)))
            (Nat.mod_lt _ (by decide)) }
      | 0x0004 => s.modScn b fun y => { y with mem := placeBytes y.mem (0x70000 + 8192 * x.index) x.body }
      | _ => s) s

/-- The raster starts at the end of start-up phase 8 (R363); the renderer draws the stale buffer until the first post. -/
def State.startRaster (s : State) (b : BayNo) (t : Stamp) : State :=
  if !s.fldB Fld.scnEn b then s
  else s.modScn b fun y =>
    { y with on := true, frameStart := t, ro := { y.ro with expected := s.roExpected b (s.staleCells b), lastPost := t } }

/-- The current line (R393). -/
def State.scnLine (s : State) (b : BayNo) : Nat :=
  let y := s.scn b
  let line := 1000 * s.fldN Fld.scnPixelKhz b
  let px := fun (d : Nat) => d * line / unitsPerSec
  if !y.on then 0
  else if stampLe y.frameStart (s.nowAt b) then px (s.nowAt b - y.frameStart).toNat / max 1 (s.hTotal b)
  else s.vTotal b - 1 - px (y.frameStart - s.nowAt b).toNat / max 1 (s.hTotal b)

/-- SCN_STATUS (R394). -/
def State.scnStatus (s : State) (b : BayNo) : Word :=
  let y := s.scn b
  wd (bitW y.on + 2 * bitW y.hpd + 4 * bitW y.linkUp + 8 * bitW (y.restarting && stampLt (s.nowAt b) y.frameStart) +
    16 * bitW (s.fourPixels b) + 32 * bitW (s.fldB Fld.scnRoEn b))

/-- The raw value of a setting in its width. -/
def rawWidth (f : Field) (v : Int) : Word := wd ((v % 2 ^ f.width).toNat)

/-- The bits of a word of a scan-out memory that are not reserved (R7, R377, R379, R381). -/
def scnMemBits (off : Nat) : Word :=
  if 0x40000 ≤ off ∧ off < 0x44000 then 0x7FFF7FFF
  else if 0x60000 ≤ off ∧ off < 0x64000 then 0xBFFFFFFF
  else if 0x70000 ≤ off ∧ off < 0x78000 then (if off / 4 % 2 = 1 then 0x000FFFFF else 0xFFFFFFFF)
  else if 0x80000 ≤ off ∧ off < 0xC0000 then 0xFFFFFFFF
  else 0

/-- The SCN registers and memories as the open side reads them (R8, R393). -/
def State.scnReg (s : State) (b : BayNo) (off : Nat) : Word :=
  let y := s.scn b
  if off < 0x40 then
    match off with
    | 0x00 => s.scnStatus b
    | 0x04 => wd (bitW y.commit)
    | 0x08 => if y.on then y.frame + condWord (stampLe y.frameStart (s.nowAt b)) else y.frame
    | 0x0C => wd (s.scnLine b)
    | 0x10 => y.frameStamp.extractLsb' 0 32
    | 0x14 => y.frameStamp.extractLsb' 32 32
    | 0x18 => y.frameStamp.extractLsb' 64 32
    | 0x20 => if y.linkUp then wd (s.fldN Fld.scnLinkRate b + 8 * s.fldN Fld.scnLanes b) else 0
    | 0x24 => y.failed ++ y.trained
    | _ => 0
  else if off < 0x80 then y.crc.crcs[(off / 4) % 16]'(Nat.mod_lt _ (by decide))
  else if off = 0x80 then y.crc.mismatched ++ y.crc.compared
  else if off = 0x84 then wd (bitW y.ro.adopted + 2 * bitW y.ro.stale)
  else if off = 0x88 then y.ro.mismatches
  else if 0x90 ≤ off ∧ off < 0xA0 then y.fontDim[(off / 4) % 4]'(Nat.mod_lt _ (by decide))
  else if 0x400 ≤ off ∧ off < 0x500 then wd (leNat ((y.edid.drop (off - 0x400)).take 4))
  else if 0x10800 ≤ off ∧ off < 0x1083C then y.expShadow.toList.getD ((off - 0x10800) / 4) 0
  else if 0x20800 ≤ off ∧ off < 0x2083C then y.exp.toList.getD ((off - 0x20800) / 4) 0
  else if off = 0x2083C then y.ro.expected
  else if 0x10000 ≤ off ∧ off < 0x10800 then
    match shadowField ((off - 0x10000) / 4) with
    | none => 0
    | some (f, i) => rawWidth f (s.shadowOf b ((off - 0x10000) / 4) f i)
  else if 0x20000 ≤ off ∧ off < 0x20800 then
    match shadowField ((off - 0x20000) / 4) with
    | none => 0
    | some (f, i) => rawWidth f (s.fld f b i)
  else wd (leOf y.mem off 4) &&& scnMemBits off

/-- A shadow register takes a value that its field admits in a part of this size; another write is discarded (R5, R759; DESIGN CHOICE,
log entry 75). -/
def State.shadowTakes (s : State) (f : Field) (v : Word) : Bool := inRange s.part.bays f (fieldValue f v)

/-- A host write of the SCN slot that stores (R370, R393, R761): none discards. -/
def State.scnWrite (s : State) (b : BayNo) (off : Nat) (v : Word) (en : BitVec 4) : Option State :=
  if (0x40000 ≤ off ∧ off < 0x44000) ∨ (0x60000 ≤ off ∧ off < 0x64000) ∨ (0x70000 ≤ off ∧ off < 0x78000) ∨
      (0x80000 ≤ off ∧ off < 0xC0000) then some (s.scnMemWrite b off v en)
  else if en ≠ 0xF then none
  else if 0x90 ≤ off ∧ off < 0xA0 then
    if decide (4 ≤ bits v.toNat 5 0 ∧ bits v.toNat 5 0 ≤ 32) && decide (4 ≤ bits v.toNat 14 8 ∧ bits v.toNat 14 8 ≤ 64) then
      some (s.modScn b fun y => { y with fontDim := y.fontDim.set ((off / 4) % 4) (v &&& 0x7F3F) (Nat.mod_lt _ (by decide)) })
    else none
  else if 0x10800 ≤ off ∧ off < 0x1083C then
    some (s.modScn b fun y => { y with expShadow := y.expShadow.set ((off / 4) % 15) v (Nat.mod_lt _ (by decide)) })
  else if 0x10000 ≤ off ∧ off < 0x10800 then
    let id := (off - 0x10000) / 4
    match shadowField id with
    | none => none
    | some (f, i) => if s.shadowTakes f v then some ((s.supersede b id).shadowWrite b id f i (fieldValue f v)) else none
  else none

end Sys2Proof.Machine
end

