-- ==== Sys2Proof/Machine/Sums.lean ====
section
/-! DEFINITION. The quantities that the image checker adds up, as exact rational numbers (R57 to R61, R570, R601). -/
namespace Sys2Proof.Machine

/-! ### One evaluation: settings with the ends of their live declarations -/

/-- What one evaluation looks at: a set of values, the live declarations, and T_b in ns (R57). -/
structure Setup where
  nb : Nat
  vals : Vals
  live : List LiveDecl
  tb : Nat
  deriving DecidableEq, Repr

/-- The live declaration that covers a field in bay `b` (R48). -/
def Setup.decl (x : Setup) (f : Field) (b : Nat) (i : Nat := 0) : Option LiveDecl :=
  x.live.find? fun d => decide (d.key.block = f.block ∧ d.key.id = f.id + f.stride * i) && d.key.mask.testBit (if f.pkg then 0 else b)

/-- The effective value of a field. -/
def Setup.val (x : Setup) (f : Field) (b : Nat) (i : Nat := 0) : Int := x.vals.of f b i

/-- The effective value as a natural number. -/
def Setup.nat (x : Setup) (f : Field) (b : Nat) (i : Nat := 0) : Nat := x.vals.nat f b i

/-- The smallest value a field takes in the evaluation: the lower end of its declared range (R57). -/
def Setup.lo (x : Setup) (f : Field) (b : Nat) (i : Nat := 0) : Int :=
  match x.decl f b i with
  | none => x.val f b i
  | some d => d.min

/-- The largest value a field takes in the evaluation (R57). -/
def Setup.hi (x : Setup) (f : Field) (b : Nat) (i : Nat := 0) : Int :=
  match x.decl f b i with
  | none => x.val f b i
  | some d => d.max

/-- The smallest value as a natural number. -/
def Setup.loN (x : Setup) (f : Field) (b : Nat) (i : Nat := 0) : Nat := (x.lo f b i).toNat

/-- The largest value as a natural number. -/
def Setup.hiN (x : Setup) (f : Field) (b : Nat) (i : Nat := 0) : Nat := (x.hi f b i).toNat

/-- The values a field may take: every one of a short declared range, the ends of a long one, and the effective value
(R57, R803). -/
def Setup.reach (x : Setup) (f : Field) (b : Nat) (i : Nat := 0) : List Nat :=
  match x.decl f b i with
  | none => [x.nat f b i]
  | some d => x.nat f b i ::
      (if d.max - d.min < 64 then (List.range (d.max - d.min + 1).toNat).map (fun k : Nat => (d.min + (k : Int)).toNat) else [d.min.toNat, d.max.toNat])

/-- A field can hold a value other than 0. -/
def Setup.can (x : Setup) (f : Field) (b : Nat) (i : Nat := 0) : Bool := (x.reach f b i).any (· ≠ 0)

/-- The larger of two numbers. -/
def ratMax (a b : Rat) : Rat := if a ≤ b then b else a

/-- The largest of a list, 0 when it is empty. -/
def ratTop (xs : List Rat) : Rat := xs.foldl ratMax 0

/-- The sum of a list. -/
def ratSum (xs : List Rat) : Rat := xs.foldl (· + ·) 0

/-! ### Ports and channels -/

/-- f_ADC of a code in samples per second (R115). -/
def adcRate : Nat → Nat
  | 0 => 20480000000
  | 1 => 19660800000
  | _ => 16384000000

/-- r_p at the largest values of its fields (R212, R513). -/
def Setup.load (x : Setup) (b p : Nat) : Nat :=
  let fa := adcRate (x.nat Fld.clkFAdc 0)
  if p < 2 then fa
  else if x.nat Fld.recXsReplay b (p - 2) = 1 then fa / 2 ^ x.nat Fld.recXsReplayDecim b (p - 2)
  else 1000 * x.hiN Fld.jesSRateKhz b (p - 2) * (if x.can Fld.jesSComplex b (p - 2) then 2 else 1)

/-- r_p at the smallest values of its fields. -/
def Setup.loadMin (x : Setup) (b p : Nat) : Nat :=
  if p < 2 ∨ x.nat Fld.recXsReplay b (p - 2) = 1 then x.load b p
  else 1000 * x.loN Fld.jesSRateKhz b (p - 2) * (if x.lo Fld.jesSComplex b (p - 2) = 0 then 1 else 2)

/-- f_out of a port at the end of its fields that makes it largest (R213). -/
def Setup.fOut (x : Setup) (b p : Nat) : Rat := (x.load b p : Rat) / (2 ^ (x.loN Fld.ddcDecimLog2 b p + 1) : Nat)

/-- f_out of a port at the end that makes it smallest. -/
def Setup.fOutMin (x : Setup) (b p : Nat) : Rat := (x.loadMin b p : Rat) / (2 ^ (x.hiN Fld.ddcDecimLog2 b p + 1) : Nat)

/-- The port that a value of DDC.CHx_SRC names (R234). -/
def srcPort (x v : Nat) : Nat := if v = 0 then x else v + 1

/-- The ADC-enable masks the evaluation considers (R118). -/
def Setup.adcMasks (x : Setup) (b : Nat) : List Nat := x.reach Fld.clkAdcEn b

/-- A port can deliver samples under an ADC-enable mask: its ADC runs, or a converter stream or replay feeds it
(R58 check 12). -/
def Setup.delivers (x : Setup) (b p adc : Nat) : Bool :=
  if p < 2 then adc.testBit p else x.can Fld.jesSEn b (p - 2) || decide (x.nat Fld.recXsReplay b (p - 2) = 1)

/-- The sets of active ports, as masks, that the declared ranges allow (R215, R57). -/
def Setup.activeSets (x : Setup) (b : Nat) : List Nat :=
  let join := fun (sets : List Nat) (choices : List Nat) => (sets.flatMap fun s => choices.map fun c => s ||| c).eraseDups
  let chan := fun c => (x.reach Fld.xfmChEn b c).flatMap fun e =>
    if e = 0 then [0] else (x.reach Fld.ddcChSrc b c).map fun v => 2 ^ srcPort c v
  let unit := fun u => (x.reach Fld.trgUEn b u).flatMap fun e =>
    (x.reach Fld.trgUSource b u).flatMap fun src => (x.reach Fld.trgUPort b u).map fun p =>
      if e ≠ 0 ∧ (x.nat Fld.trgUMarkOnly b u = 0 ∨ src = 1) then 2 ^ p else 0
  let iq := fun p => (x.reach Fld.quePIqEn b p).map fun e => if e = 0 then 0 else 2 ^ p
  let s1 := (List.range 2).foldl (fun s c => join s (chan c)) [0]
  let s2 := (List.range 8).foldl (fun s u => join s (unit u)) s1
  let s3 := (List.range 4).foldl (fun s p => join s (iq p)) s2
  ((x.adcMasks b).flatMap fun adc => s3.map fun s => s &&& (adc % 4 + 12)).eraseDups

/-- The ports of a mask. -/
def maskPorts (m : Nat) : List Nat := (List.range 4).filter fun p => m.testBit p

/-- The load of a set of active ports in samples per second. -/
def Setup.setLoad (x : Setup) (b m : Nat) : Nat := (maskPorts m).foldl (fun n p => n + x.load b p) 0

/-- The set of active ports with the largest load (R58 check 10). -/
def Setup.worstSet (x : Setup) (b : Nat) : Nat :=
  (x.activeSets b).foldl (fun w m => if x.setLoad b w < x.setLoad b m then m else w) 0

/-- The transform load of a channel under an ADC-enable mask, at its worst (R58 check 12). -/
def Setup.chanLoad (x : Setup) (b c adc : Nat) : Rat :=
  if !x.can Fld.xfmChEn b c then 0
  else ratTop ((x.reach Fld.ddcChSrc b c).map fun v =>
    let p := srcPort c v
    if x.delivers b p adc then x.fOut b p * (2 ^ x.hiN Fld.xfmChOverlapLog2 b c : Nat) else 0)

/-- The ADC-enable mask under which the two channels load the engine most. -/
def Setup.worstAdc (x : Setup) (b : Nat) : Nat :=
  let sum := fun adc => x.chanLoad b 0 adc + x.chanLoad b 1 adc
  (x.adcMasks b).foldl (fun w m => if sum w < sum m then m else w) 0

/-! ### Epochs -/

/-- Nanoseconds of the nominal epoch at the lower end (R154). -/
def Setup.epochNs (x : Setup) : Nat := 10 * x.loN Fld.tbsEpochLen 0

/-- E_min in seconds: the shortest epoch that SYNC_IN allows (R59). -/
def Setup.eMin (x : Setup) : Rat :=
  let l : Rat := (x.epochNs : Rat) / 1000000000
  let w := x.hiN Fld.tbsSyncWindow 0
  if w = 0 then l else ratMax (l * (256 - w : Int) / 256) (1 / 1000000)

/-! ### Record streams -/

/-- A record stream as the checks count it: the bay that produces it, the field that routes it, the queues it enters under
each value that field can take, and its bytes per second. An I/Q stream also keeps its K and B (R59, R570). -/
structure Flow where
  bay : Nat
  field : Field
  inst : Nat
  alts : List (List Nat)
  bps : Rat
  isSealed : Bool
  fout : Rat
  shapes : List (Nat × Nat)

/-- Routing alternatives of a field that names one queue; 255 names none (R450). -/
def Setup.alts (x : Setup) (f : Field) (b i : Nat) : List (List Nat) :=
  (x.reach f b i).map fun q => if q < 128 then [q] else []

/-- A flow that is no I/Q stream. -/
def Setup.plainFlow (x : Setup) (f : Field) (b i : Nat) (bps : Rat) (sld : Bool := false) : Flow :=
  { bay := b, field := f, inst := i, alts := x.alts f b i, bps := bps, isSealed := sld, fout := 0, shapes := [] }

/-- Bytes of the SPECTRUM records of one spectrum of `n` bins (R273, R280). -/
def specBytes (n : Nat) : Nat :=
  32 * (2 + 4096) * (n / 65536) + (if n % 65536 = 0 then 0 else 32 * (2 + ceilDiv (n % 65536) 16))

/-- Bytes per second of an I/Q stream of payload K × B (R59). -/
def iqRate (fout : Rat) (k w : Nat) : Rat := fout * ((w : Rat) + 32 / (k : Nat))

/-- The I/Q streams of a bay (R59, R468). -/
def Setup.iqFlows (x : Setup) (b : Nat) : List Flow :=
  (List.range 4).filterMap fun p =>
    if x.can Fld.quePIqEn b p && (x.adcMasks b).any (x.delivers b p) then
      let shapes := (x.reach Fld.quePIqSamples b p).flatMap fun k => (x.reach Fld.quePIqFormat b p).map fun f => (k, 3 + f)
      some { bay := b, field := Fld.quePIqQueue, inst := p, alts := x.alts Fld.quePIqQueue b p
             bps := ratTop (shapes.map fun s => iqRate (x.fOut b p) s.1 s.2), isSealed := false, fout := x.fOut b p, shapes := shapes }
    else none

/-- The SPECTRUM streams of a bay's channels in mode 1 (R59, R272). -/
def Setup.specFlows (x : Setup) (b : Nat) : List Flow :=
  (List.range 2).filterMap fun c =>
    if x.can Fld.xfmChEn b c && (x.reach Fld.xfmChSpecMode b c).contains 1 then
      let one := fun (v n : Nat) =>
        let p := srcPort c v
        if (x.adcMasks b).any (x.delivers b p) then
          let r := x.fOut b p * (2 ^ x.hiN Fld.xfmChOverlapLog2 b c : Nat) / (2 ^ n : Nat)
          let bins := (x.reach Fld.xfmChBinCount b c).flatMap fun k => (x.reach Fld.ddcPreset b p).map fun q => (binRun 0 k q n).2
          (r / (x.loN Fld.xfmChSpecDecim b c : Nat) + 1 / x.eMin) * (bins.foldl (fun m k => max m (specBytes k)) 0 : Nat)
        else 0
      some (x.plainFlow Fld.xfmChSpecQueue b c
        (ratTop ((x.reach Fld.ddcChSrc b c).flatMap fun v => (x.reach Fld.xfmChNLog2 b c).map (one v))))
    else none

/-- The TRACE streams of a bay (R59, R281). -/
def Setup.traceFlows (x : Setup) (b : Nat) : List Flow :=
  (List.range 16).filterMap fun t =>
    if x.can Fld.xfmTEn b t then
      let rate := ratTop ((x.reach Fld.xfmTInterval b t).map fun i =>
        (if i = 0 then 0 else (100000000 : Rat) / (i : Nat)) + 1 / x.eMin)
      some (x.plainFlow Fld.xfmTQueue b t (rate * (32 * (3 + ceilDiv (x.hiN Fld.xfmTPoints b t) 16) : Nat))
        (decide (x.nat Fld.xfmTSeal b t = 1)))
    else none

/-- The DENSITY streams of a bay (R59, R351). -/
def Setup.denFlows (x : Setup) (b : Nat) : List Flow :=
  (List.range 2).filterMap fun c =>
    if x.can Fld.denChEn b c && x.can Fld.denChEmit b c then
      some (x.plainFlow Fld.denChQueue b c ((2 * (2 + 32 * colsOf (x.hiN Fld.xfmChNLog2 b c)) * 32 : Nat) / x.eMin))
    else none

/-- The EPOCH records of a bay, one in each selected queue (R59, R445). -/
def Setup.epochFlow (x : Setup) (b : Nat) : Flow :=
  { bay := b, field := Fld.queEpochQueues, inst := 0
    alts := (x.reach Fld.queEpochQueues b).map fun m => ((List.range 16).filter fun q => m.testBit q).map fun q => 16 * b + q
    bps := 64 / x.eMin, isSealed := false, fout := 0, shapes := [] }

/-- The MONITOR records of units that emit at epoch boundaries (R59, R740). -/
def Setup.monFlows (x : Setup) (b : Nat) : List Flow :=
  (List.range 16).filterMap fun m =>
    if x.can Fld.monEn b m && (x.reach Fld.monEmit b m).any fun e => e % 2 = 1 then
      some (x.plainFlow Fld.monQueue b m (320 / x.eMin))
    else none

/-- Every record stream of a setup whose rate a setting fixes (R59). -/
def Setup.flows (x : Setup) : List Flow :=
  (List.range x.nb).flatMap fun b =>
    x.iqFlows b ++ x.specFlows b ++ x.traceFlows b ++ x.denFlows b ++ [x.epochFlow b] ++ x.monFlows b

/-! ### Where queues drain -/

/-- A channel that drains a queue: its bay and number (R458). -/
def Setup.drain (x : Setup) (q : Nat) : Option (Nat × Nat) :=
  let b := q / 16
  if x.nb ≤ b then none
  else ((List.range 32).find? fun n => decide (1 ≤ x.nat Fld.dmaMode b n ∧ x.nat Fld.dmaMode b n ≤ 3 ∧ x.nat Fld.dmaQueue b n = q % 16)).map
    fun n => (b, n)

/-- Where records of a queue go. -/
inductive Sink where
  | none
  | endpoint (e : Nat)
  | stream (s : Nat)
  | recorder (b : Nat)
  deriving DecidableEq, Repr

/-- The destination of a queue's channel. -/
def Setup.sink (x : Setup) (q : Nat) : Sink :=
  match x.drain q with
  | .none => .none
  | some (b, n) =>
    match x.nat Fld.dmaMode b n with
    | 1 => .endpoint (x.nat Fld.dmaEndpoint b n)
    | 2 => .stream (x.nat Fld.dmaStream b n)
    | _ => .recorder (x.nat Fld.dmaStream b n / 8)

/-- The Ethernet ports of a stream: its own and its standby (R572). -/
def Setup.streamPorts (x : Setup) (s : Nat) : List Nat :=
  let y := x.nat Fld.ethSStandby 0 s
  x.nat Fld.ethSPort 0 s :: (if y < 64 ∧ y ≠ x.nat Fld.ethSPort 0 s then [y] else [])

/-- The bay of an endpoint: the headland for the control endpoint (R555). -/
def Setup.endpointBay (x : Setup) (e : Nat) : Option (Nat × Nat) :=
  if e = 0 then some (0, 4)
  else ((List.range x.nb).flatMap fun b => (List.range 4).filterMap fun j =>
    if x.nat Fld.pciSEn b j = 1 ∧ x.nat Fld.pciSIndex b j = e then some (b, j) else none).head?

/-- What a flow adds to a sum, given what it adds in each queue: the alternative that adds most (R57). -/
def Flow.adds (f : Flow) (w : Nat → Rat) : Rat := ratTop (f.alts.map fun qs => ratSum (qs.map w))

/-- What a flow adds to D_REC of a bay (R58 check 14). -/
def Setup.recAdds (x : Setup) (b : Nat) (f : Flow) : Rat := f.adds fun q => if x.sink q = .recorder b then f.bps else 0

/-- D_REC of a bay in bytes per second. -/
def Setup.dRec (x : Setup) (b : Nat) : Rat := ratSum (x.flows.map (x.recAdds b))

/-! ### Link figures and packets -/

/-- Per-lane figure of a PCIe generation in MB/s (R60). -/
def laneFigure : Nat → Nat
  | 1 => 230
  | 2 => 460
  | 3 => 906
  | 4 => 1811
  | 5 => 3623
  | _ => 6958

/-- Figure of an Ethernet rate in units of 10^4 bytes per second (R60). -/
def ethFigure : Nat → Nat
  | 0 => 121250
  | 1 => 303125
  | 2 => 606250
  | 3 => 1212500
  | _ => 2425000

/-- r_drive of a member in MB/s (R60). -/
def Setup.driveRate (x : Setup) (b d : Nat) : Nat :=
  min (x.nat Fld.recDRate b d) (laneFigure (x.nat Fld.recDGen b d) * 2 ^ x.nat Fld.recDWidth b d)

/-- The members of a bay (R503). -/
def Setup.members (x : Setup) (b : Nat) : List Nat := List.range (min 8 (x.nat Fld.recDrives b))

/-- An address in ::ffff:0:0/96 is an IPv4 address (R564). -/
def isV4 (a0 a1 a2 : Word) : Bool := decide (a0 = 0) && decide (a1 = 0) && decide (a2 = 0xFFFF)

/-- The address of port `i` of a bay is an IPv4 address (R564). -/
def Vals.portV4 (m : Vals) (b i : Nat) : Bool :=
  let word := fun (w : Nat) => Word.ofSigned (m.of Fld.ethPNet b i w)
  isV4 (word 0) (word 1) (word 2)

/-- The per-packet overhead O of a stream's fragments on a port; a signal data packet has a 4-byte trailer in place of the
8-byte fragment header (R564, R570). -/
def Vals.overhead (m : Vals) (b i : Nat) (signal : Bool) : Nat :=
  18 + 4 * bitW (decide (m.nat Fld.ethPVlan b i ≠ 0)) + (if m.portV4 b i then 20 else 40) + 8 + 28 + (if signal then 4 else 8)

/-- P, the largest fragment payload on a port (R570). -/
def Vals.fragment (m : Vals) (b i : Nat) : Nat := 32 * ((m.nat Fld.ethPFrameMax b i - m.overhead b i false) / 32)

/-- K_p, the samples of a full signal data packet of `w`-byte samples (R570). -/
def Vals.perPacket (m : Vals) (b i w : Nat) : Nat := 8 * ((m.nat Fld.ethPFrameMax b i - m.overhead b i true) / (8 * w))

/-- Bytes per second a flow puts on an Ethernet port when it travels in stream `s` (R570). -/
def Setup.ethBytes (x : Setup) (f : Flow) (s port : Nat) : Rat :=
  let b := port / 8
  let i := port % 8
  let m := x.vals
  if x.nat Fld.ethSMap 0 s = 1 ∧ f.shapes ≠ [] then
    ratTop (f.shapes.map fun k =>
      f.fout / (k.1 : Nat) * (k.1 * k.2 + ceilDiv k.1 (max 1 (m.perPacket b i k.2)) * (m.overhead b i true + 20) : Nat))
  else f.bps * ((m.fragment b i + m.overhead b i false + 20 : Nat) : Rat) / (max 1 (m.fragment b i) : Nat)

/-- The all-links-up route from bay `a` to bay `b`: each hop as its bay and dimension (R601). -/
def fabricRoute (a b : Nat) : List (Nat × Nat) :=
  ((List.range 3).foldl (fun (acc : List (Nat × Nat) × Nat) d =>
    if (a ^^^ b).testBit d then (acc.1 ++ [(acc.2, d)], acc.2 ^^^ 2 ^ d) else acc) ([], a)).1

/-- The bays to which the channel of a queue carries its records (R572, R601). -/
def Setup.targets (x : Setup) (q : Nat) : List Nat :=
  match x.sink q with
  | .none => []
  | .endpoint e => ((x.endpointBay e).map (·.1)).toList
  | .stream s => (x.streamPorts s).map (· / 8)
  | .recorder b => [b]

/-- What a flow adds on the link that leaves bay `a` in dimension `d` (R58 check 19, R601). A sealed record goes by way of
the headland's MAC engine (R13). -/
def Setup.linkAdds (x : Setup) (a d : Nat) (f : Flow) : Rat :=
  f.adds fun q =>
    let qb := q / 16
    let way := (if f.isSealed then fabricRoute f.bay 0 ++ fabricRoute 0 qb else fabricRoute f.bay qb) ++
      (x.targets q).flatMap (fabricRoute qb)
    f.bps * ((way.filter fun h => decide (h = (a, d))).length : Nat)

end Sys2Proof.Machine
end

