-- ==== Sys2Proof/Machine/Rec.lean ====
section
/-! DEFINITION. Commands of the recorder: drives, volume, recording, failures, rebuild and replay (R474 to R519). -/
namespace Sys2Proof.Machine

/-- Change one drive. -/
def State.modDrive (s : State) (b : BayNo) (d : Fin 8) (f : Drive → Drive) : State :=
  s.modRec b fun y => { y with drives := y.drives.set d (f y.drives[d]) }

/-- A drive. -/
def State.drive (s : State) (b : BayNo) (d : Fin 8) : Drive := (s.recd b).drives[d]

/-- The drive is one of the n members' places (R503). -/
def State.memberPlace (s : State) (b : BayNo) (d : Fin 8) : Bool := s.fldB Fld.recEn b && decide (d.val < s.fldN Fld.recDrives b)

/-- U of a bay. -/
def State.stripeUnit (s : State) (b : BayNo) : Nat := 2 ^ s.fldN Fld.recStripeLog2 b

/-! ### Drives (R475 to R479) -/

/-- The recorder begins at the end of start-up phase 8: drives join from here (R477, R489). -/
def State.recBegin (s : State) (b : BayNo) (t : Stamp) : State :=
  s.modRec b fun y =>
    { y with
      state := if s.fldB Fld.recEn b then .waiting else .off
      origin := t, waited := false
      drives := y.drives.map fun d => { d with state := .absent, gen := 0, width := 0, trainAt := later t (ofMs 100), smartAt := t }
      failover := false, stopping := false, startReq := none, stopReq := none }

/-- DRIVE_LINK_TRAINED (R475, R477): a root port trains and the controller is enabled. -/
def execDriveLinkTrained (b : BayNo) (d : Fin 8) (gen width : Nat) (s : State) : Out :=
  if !s.alive b || !s.memberPlace b d || decide ((s.drive b d).state ≠ .absent) then .next s
  else .next (s.modDrive b d fun x => { x with
    state := .init, gen := min gen (s.fldN Fld.recDGen b d.val), width := min width (2 ^ s.fldN Fld.recDWidth b d.val) })

/-- DRIVE_TRAIN_RETRY (R477): training that has not completed is tried again every second. -/
def execDriveTrainRetry (b : BayNo) (d : Fin 8) (s0 : State) : Out :=
  if !s0.alive b || !s0.memberPlace b d || decide ((s0.drive b d).state ≠ .absent) then .next s0
  else
    let s := s0.reach (s0.drive b d).trainAt
    .next (s.modDrive b d fun x => { x with trainAt := later x.trainAt (ofMs 1000) })

/-- The running setup as the checker sees it (R57). -/
def State.setup (s : State) : Setup :=
  { nb := s.part.bays, vals := s.vals, live := (s.img.image.map (·.live)).getD [], tb := s.tbs.tb }

/-- The trained link of a member does not carry its share D_REC / (n − 1) (R478). -/
def State.linkShort (s : State) (b : BayNo) (gen width : Nat) : Bool :=
  decide (((laneFigure gen * width * 1000000 * (s.fldN Fld.recDrives b - 1) : Nat) : Rat) < s.setup.dRec b.val)

/-- The members that are ready: READY drives of the member places that are usable and not downgraded (R476, R478). -/
def State.readyDrives (s : State) (b : BayNo) : List (Fin 8) :=
  (List.finRange 8).filter fun d =>
    s.memberPlace b d && decide ((s.drive b d).state = .ready) && !(s.drive b d).unusable && !(s.drive b d).downgraded

/-- The highest generation among labels of this bay. -/
def State.topGeneration (s : State) (b : BayNo) : Option Nat :=
  (s.readyDrives b).foldl (fun m d => match (s.drive b d).label with
    | .own g => some (max g (m.getD 0))
    | _ => m) none

/-- Members that carry the highest label, or every blank drive when none does (R486). -/
def State.candidates (s : State) (b : BayNo) : List (Fin 8) :=
  match s.topGeneration b with
  | some g => (s.readyDrives b).filter fun d => decide ((s.drive b d).label = .own g)
  | none => (s.readyDrives b).filter fun d => decide ((s.drive b d).label = .blank)

/-- The sum of the extents of lower bays, each rounded up to 2^30 (R482). -/
def State.extentBase (s : State) (b : BayNo) : Nat :=
  (allBays.filter fun x => decide (x.val < b.val)).foldl (fun n x =>
    match (s.recd x).volume with
    | some v => n + ceilDiv v.size (2 ^ 30) * 2 ^ 30
    | none => n) 0

/-- The volume part that a bay's drives make (R481, R482), and whether it was cut at 2^48. -/
def State.newVolume (s : State) (b : BayNo) (ds : List (Fin 8)) : Volume × Bool :=
  let n := s.fldN Fld.recDrives b
  let u := s.stripeUnit b
  let mib := s.fldN Fld.recIndexMib b
  let cap := ds.foldl (fun m d => match m with
    | none => some (s.drive b d).capacity
    | some c => some (min c (s.drive b d).capacity)) none
  let size := extentSize n u (memberData (cap.getD 0) (1048576 + mib * 1048576) u) (s.fldN Fld.recExtentGib b)
  let w := max 1 ((n - 1) * u)
  match ds.findSome? fun d => if (s.drive b d).label = .blank then none else (s.drive b d).text with
  | some l => ({ members := n, unit := u, indexMib := mib, base := l.base, size := l.size, generation := l.generation }, false)
  | none =>
    let base := s.extentBase b
    let cut := decide (base + size > 2 ^ 48)
    let size' := if cut then (2 ^ 48 - base) / w * w else size
    ({ members := n, unit := u, indexMib := mib, base := base, size := size', generation := 0 }, cut)

/-- The label of member `d` of a volume part (R485); the generation has 32 bits. -/
def State.labelOf (s : State) (b : BayNo) (v : Volume) (d : Nat) : Label :=
  let y := s.recd b
  { serial := Config.serial, bay := b.val, member := d, members := v.members, stripeLog2 := s.fldN Fld.recStripeLog2 b
    indexMib := v.indexMib, base := v.base, size := v.size, generation := v.generation
    states := (y.drives.toList.take v.members).map (·.state)
    logPos := (((y.spans.take y.indexed).getLast?).map (·.hi)).getD 0 }

/-- Rewrite the labels of all present members, adding 1 to the generation (R485). -/
def State.relabel (s : State) (b : BayNo) : State :=
  match (s.recd b).volume with
  | none => s
  | some v =>
    let w := { v with generation := (v.generation + 1) % 2 ^ 32 }
    s.modRec b fun y =>
      { y with
        volume := some w
        drives := y.drives.mapIdx fun i d =>
          if d.state = .member ∨ d.state = .rebuilding then { d with label := .own w.generation, text := some (s.labelOf b w i) } else d }

/-- What a label says to a bay (R486): none, of another package, bay or geometry, or of this bay's volume part. -/
def State.classify (s : State) (b : BayNo) (l : Option Label) : DriveLabel :=
  match l with
  | none => .blank
  | some l =>
    if l.bay = b.val ∧ l.members = s.fldN Fld.recDrives b ∧ l.stripeLog2 = s.fldN Fld.recStripeLog2 b ∧
        l.indexMib = s.fldN Fld.recIndexMib b ∧ l.serial = Config.serial then .own l.generation else .foreign

/-- A drive that Identify describes is usable (R476). -/
def State.usable (s : State) (b : BayNo) (d : Fin 8) (i : DriveInfo) : Bool :=
  i.namespaces.contains (s.fldN Fld.recDNsid b d.val) && decide (i.lbaBytes = 4096 ∧ i.metaBytes = 0 ∧ (i.mdts = 0 ∨ i.mdts ≥ 16384))

/-- The geometry of a volume that the image still describes (R486). -/
def State.sameGeometry (s : State) (b : BayNo) (v : Volume) : Bool :=
  decide (v.members = s.fldN Fld.recDrives b ∧ v.unit = s.stripeUnit b ∧ v.indexMib = s.fldN Fld.recIndexMib b)

/-- Recover an unclosed session at assembly (R492): the log ends after the last record that reached the drives. -/
def State.recover (s : State) (b : BayNo) (v : Volume) : State :=
  if !(s.recd b).sessionOpen then s
  else
    let s1 := s.modRec b fun y =>
      let stop := match y.log.reverse with
        | [] => y.pos
        | e :: _ => e.off + e.record.bytes
      let lo := ((y.spans.getLast?).map (·.hi)).getD 0
      let e : Span := match y.span with
        | some e => e
        | none => { no := 0, epoch := 0, epochStart := 0, cont := false, degraded := false, padded := false, first := false, last := false
                    recovered := false, session := y.session, lo := lo, hi := stop, range := none }
      let e1 := (y.log.filter fun l => decide (lo ≤ l.off)).foldl (fun (e : Span) l => e.take l.record.stamp)
        { e with lo := lo, range := none, recovered := true }
      let y1 := { y with pos := stop, span := some e1, sessionOpen := false }
      { (y1.closeSpan v true).padRow v (s.nowAt b) with rows := [] }
    s1.event b 0x0D23 []

/-- Enter IDLE, or RECORDING with AUTO_START (R489, R490). -/
def State.beginSession (s : State) (b : BayNo) (fresh : Bool) : State :=
  let ring := decide (s.fldN Fld.recMode b = 1)
  let t := s.nowAt b
  let s1 := s.modRec b fun y =>
    let y1 := if fresh then
        { y with pos := 0, log := [], kept := [], spans := [], indexed := 0
                 regions := if ring then Vector.replicate 64 none else y.regions }
      else y
    { y1 with state := .recording, session := y1.session + 1, sessionOpen := true, startReq := none, syncFrom := t, accepted := false }
  (s1.openSpan b false true).event b 0x0D20 ([((s1.recd b).session).zeroExtend 32] ++ stampWords t)

/-- A drive can replace the failed member: blank, or foreign under OVERWRITE, at its root port (R508). -/
def State.replaces (s : State) (b : BayNo) (d : Fin 8) : Bool :=
  decide ((s.recd b).failedMember = some d) && s.fldB Fld.recAutoRebuild b && decide ((s.drive b d).state = .ready) &&
    decide ((s.drive b d).label = .blank) && !(s.drive b d).unusable

/-- A replacement is taken and its rebuild begins (R508). -/
def State.beginRebuild (s : State) (b : BayNo) (d : Fin 8) : State :=
  (s.modRec b fun y => { y with rebuild := some 0, drives := y.drives.set d { y.drives[d] with state := .rebuilding } }).relabel b

/-- Assemble the volume part from the drives that are ready (R479, R482, R486, R492); a rebuild under way goes on with its drive (R514). -/
def State.assemble (s : State) (b : BayNo) : State :=
  let n := s.fldN Fld.recDrives b
  let all := s.candidates b
  let again := match (s.recd b).rebuild, (s.recd b).failedMember with
    | some _, some d => if all.contains d && (s.topGeneration b).isSome then some d else none
    | _, _ => none
  let ds := all.filter fun d => decide (some d ≠ again)
  if ds.length + 1 < n then
    (s.modRec b fun y => { y with state := .failed, volume := none }).event b 0x0D12 []
  else
    let old := (s.recd b).volume.filter (s.sameGeometry b)
    let (made, cut) := s.newVolume b ds
    let keep := (s.topGeneration b).isSome && old.isSome
    let v := if keep then old.getD made else made
    let missing := (List.finRange 8).find? fun d => decide (d.val < n) && !ds.contains d
    let s1 := s.modRec b fun y =>
      { y with
        volume := some v, state := .idle, failedMember := missing
        drives := Vector.ofFn fun (d : Fin 8) => if ds.contains d then { y.drives[d] with state := .member }
          else if again = some d then { y.drives[d] with state := .rebuilding } else y.drives[d]
        log := if keep then y.log else [], kept := if keep then y.kept else [], spans := if keep then y.spans else []
        pos := if keep then y.pos else 0, regions := if keep then y.regions else Vector.replicate 64 none
        rebuild := if keep && again.isSome then y.rebuild else none, sessionOpen := keep && y.sessionOpen
        spanNo := if keep then y.spanNo else 0 }
    let s1' := match missing with
      | some d => if s1.replaces b d then s1.beginRebuild b d else s1.relabel b
      | none => s1.relabel b
    let s2 := s1'.recover b v
    let s3 := s2.event b 0x0D10 (words64 (BitVec.ofNat 64 v.base) ++ words64 (BitVec.ofNat 64 v.size))
    let s4 := if cut && !keep then s3.event b 0x0D14 [] else s3
    if s4.fldB Fld.recAutoStart b then s4.beginSession b false else s4

/-- A bay's volume part can be assembled: its members are ready or the wait is over, and the extents below it are known (R479, R482,
log entry 81). -/
def State.assembles (s : State) (b : BayNo) : Bool :=
  s.alive b && decide ((s.recd b).state = .waiting) && ((s.recd b).waited || decide ((s.readyDrives b).length = s.fldN Fld.recDrives b)) &&
    !s.liveBays.any fun x => decide (x.val < b.val) && decide ((s.recd x).state = .waiting)

/-- Assemble every volume part that can be, lower bays first. -/
def State.assembleAll (s : State) : State := s.eachBay s.liveBays fun s b => if s.assembles b then s.assemble b else s

/-- The label status word of EV_DRIVE_READY, whose codes the spec does not state (log entry 12). -/
def labelStatus (usable : Bool) (l : DriveLabel) : Word :=
  if !usable then Config.unstated 2 0
  else match l with
    | .blank => Config.unstated 2 1
    | .foreign => Config.unstated 2 2
    | .own _ => Config.unstated 2 3

/-- DRIVE_READY (R476 to R479, R486, R508): a drive has been identified and its label read. -/
def State.driveReady (s : State) (b : BayNo) (d : Fin 8) (info : DriveInfo) : State :=
  let overw := s.fldB Fld.recOverwrite b
  let found := s.classify b info.label
  let ok := s.usable b d info
  let foreign := decide (found = .foreign) && !overw
  let label := if found = .foreign ∧ overw then DriveLabel.blank else found
  let x := s.drive b d
  let s1 := s.modDrive b d fun x =>
    { x with
      state := if foreign && ok then .foreign else .ready
      label := label, text := info.label, unusable := !ok, capacity := info.capacity
      downgraded := s.linkShort b x.gen x.width }
  let s2 := s1.event b 0x0D01 [wd d.val, wd b.val, wd d.val, wd x.gen, wd x.width, labelStatus ok found]
  let s3 := if foreign && ok then s2.event b 0x0D03 [wd d.val] else s2
  match (s3.recd b).state with
  | .waiting => s3.assembleAll
  | .off => s3
  | _ => if s3.replaces b d then s3.beginRebuild b d else s3

/-- DRIVE_READY (R477). -/
def execDriveReady (b : BayNo) (d : Fin 8) (info : DriveInfo) (s : State) : Out :=
  if !s.alive b || !s.memberPlace b d || decide ((s.drive b d).state ≠ .init) then .next s
  else .next (s.driveReady b d info)

/-- DRIVE_WAIT_EXPIRE (R479): DRIVE_WAIT seconds after the origin the bay proceeds with what is ready. -/
def execDriveWaitExpire (b : BayNo) (s0 : State) : Out :=
  if !s0.alive b || decide ((s0.recd b).state ≠ .waiting) then .next s0
  else .next (((s0.reach (later (s0.recd b).origin (ofMs (1000 * s0.fldN Fld.recDriveWait b)))).modRec b fun y =>
    { y with waited := true }).assembleAll)

/-- SMART_POLL (R479): the log page of a ready drive, once per second. -/
def execSmartPoll (b : BayNo) (d : Fin 8) (temp media : BitVec 16) (used : BitVec 8) (s0 : State) : Out :=
  let x := s0.drive b d
  if !s0.alive b || !s0.memberPlace b d || decide (x.state ≠ .ready ∧ x.state ≠ .member ∧ x.state ≠ .rebuilding) then .next s0
  else
    let s := s0.reach x.smartAt
    .next (s.modDrive b d fun x =>
      { x with temp := temp, mediaErrors := media, used := used, smartAt := later x.smartAt (ofMs 1000) })

/-- REC_LAT_MAX_READ (R516): the register is read and clears. -/
def execRecLatMaxRead (b : BayNo) (d : Fin 8) (s : State) : Out :=
  if !(s.bay b).pwr.ports then .next (s.fencedAccess b .ports)
  else if !s.queueAwake b then .next s
  else .next (s.modDrive b d fun x => { x with latMax := 0 })

/-! ### Failure of a member (R504 to R507) -/

/-- A replay ends (R510); a port that it fed is a stopped stream from there on (R513). -/
def State.endReplay (s : State) (b : BayNo) (cause : Nat) : State :=
  match (s.recd b).replay with
  | none => s
  | some r =>
    let p : Port := ⟨(1 + r.target) % 4, Nat.mod_lt _ (by decide)⟩
    let s1 := if r.target = 0 || (s.bay b).ddc[p].stopped.isSome then s else s.stopStream b p r.upto 0 true
    (s1.modRec b fun y => { y with replay := none }).event b 0x0D40 [wd cause, wd r.delivered]

/-- The fault of a drive (R744). -/
def driveFault (b : BayNo) (d : Fin 8) : FaultId := { code := 2, bay := b, part := d.val }

/-- Drop the units of a member from the rows under way; rows with nothing left are complete (R505). -/
def Recorder.dropUnits (y : Recorder) (d : Fin 8) : Recorder :=
  { y with rows := (y.rows.map fun r => { r with left := r.left.filter fun x => decide (x ≠ d) }).filter fun r => !r.left.isEmpty }

/-- A member is declared failed (R504 to R508, R744 to R747); causes 0 link, 1 fatal status, 2 timeout, 3 lag. -/
def State.failMember (s : State) (b : BayNo) (d : Fin 8) (cause : Nat) : State :=
  let x := (s.drive b d).state
  if x ≠ .member ∧ x ≠ .rebuilding then s.modDrive b d fun y => { y with state := if cause = 0 then .absent else .failed }
  else
    let s1 := ((s.modDrive b d fun y => { y with state := .failed }).modRec b fun y => y.dropUnits d).event b 0x0D02 [wd d.val, wd cause]
    match (s.recd b).failedMember with
    | none =>
      (s1.modRec b fun y => { y with failedMember := some d, failover := true }).faultOpen (driveFault b d) s1.now
    | some e =>
      if e = d then (s1.modRec b fun y => { y with rebuild := none }).relabel b
      else
        let s2 := s1.faultOpen (driveFault b d) s1.now
        let s3 := (s2.modRec b fun (y : Recorder) =>
          let y1 := match y.volume with
            | some v => y.dropRows v ((y.rows.map fun (r : RowWrite) => r.row) ++ y.partRow v)
            | none => y
          { y1 with state := .failed, rows := [], span := none, failover := false, stopping := false, startReq := none }).event b 0x0D12 []
        (s3.faultEnd (driveFault b d)).endReplay b 4

/-- DRIVE_LINK_DOWN (R504): a root port reports its link down. -/
def execDriveLinkDown (b : BayNo) (d : Fin 8) (s : State) : Out :=
  if !s.alive b || !s.memberPlace b d || decide ((s.drive b d).state = .absent) then .next s
  else .next (s.failMember b d 0)

/-- CONTROLLER_FATAL_STATUS (R504): a controller reports fatal status. -/
def execControllerFatalStatus (b : BayNo) (d : Fin 8) (s : State) : Out :=
  if !s.alive b || !s.memberPlace b d || decide ((s.drive b d).state = .absent) then .next s
  else .next (s.failMember b d 1)

/-- DRIVE_COMMAND_TIMEOUT (R504): a command has been outstanding for DRIVE_TIMEOUT. -/
def execDriveCommandTimeout (b : BayNo) (d : Fin 8) (s0 : State) : Out :=
  match (s0.recd b).rows.find? fun r => r.left.contains d with
  | none => .next s0
  | some r =>
    if !s0.alive b then .next s0
    else
      let s := s0.reach (later r.issued (ofUs (s0.fldN Fld.recDriveTimeout b)))
      .next ((s.modDrive b d fun x => { x with timeouts := x.timeouts + 1 }).failMember b d 2)

/-- The member holds LAG_ROWS rows unfinished that every other member has completed (R504). -/
def State.lags (s : State) (b : BayNo) (d : Fin 8) : Bool :=
  decide (((s.recd b).rows.filter fun r => decide (r.left = [d])).length ≥ s.fldN Fld.recLagRows b)

/-- NVME_COMPLETION (R504, R505): member `d` completes its oldest unit, or reports a status that cannot be retried. -/
def execNvmeCompletion (b : BayNo) (d : Fin 8) (ok : Bool) (s : State) : Out :=
  match (s.recd b).rows.findIdx? fun r => r.left.contains d with
  | none => .next s
  | some i =>
    if !s.alive b then .next s
    else if !ok then .next (s.failMember b d 1)
    else
      let issued := ((s.recd b).rows.map (·.issued)).getD i 0
      let us := toNs (s.nowAt b - issued).toNat / 1000
      let s1 := s.modDrive b d fun x => { x with latMax := max x.latMax us }
      let s2 := s1.modRec b fun y =>
        { y with rows := (y.rows.zipIdx.map fun e =>
            if e.2 = i then { e.1 with left := e.1.left.filter fun x => decide (x ≠ d) } else e.1).filter fun r => !r.left.isEmpty }
      match (List.finRange 8).find? fun x => s2.lags b x with
      | none => .next s2
      | some x => .next (s2.failMember b x 3)

/-- FAILOVER_RESUME (R505): acceptance resumes in degraded state and the labels are rewritten. -/
def execFailoverResume (b : BayNo) (s : State) : Out :=
  match (s.recd b).failedMember with
  | none => .next s
  | some d =>
    if !s.alive b || !(s.recd b).failover then .next s
    else
      let s1 := s.modRec b fun y => { y with failover := false, span := y.span.map fun e => { e with degraded := true } }
      .next (((s1.event b 0x0D11 []).relabel b).faultEnd (driveFault b d))

/-- REBUILD_ROW_DONE (R508): the next row is rebuilt onto the replacement, while the bay does not record. -/
def execRebuildRowDone (b : BayNo) (s : State) : Out :=
  let y := s.recd b
  match y.rebuild, y.volume, y.failedMember with
  | some r, some v, some d =>
    if !s.alive b || decide (y.state = .recording ∨ y.state = .failed) then .next s
    else if r + 1 < v.rowCount then .next (s.modRec b fun y => { y with rebuild := some (r + 1) })
    else
      let s1 := (s.modRec b fun y => { y with rebuild := none, failedMember := none }).modDrive b d fun x => { x with state := .member }
      .next (((s1.relabel b).event b 0x0D13 []).faultRepair (driveFault b d))
  | _, _, _ => .next s

/-! ### Starting and stopping (R488, R490, R491) -/

/-- A start finds the bay IDLE, or FULL when it gives NEW, which is the way out of FULL (R490, R493, log entry 60). -/
def State.startable (s : State) (b : BayNo) (fresh : Bool) : Bool :=
  decide ((s.recd b).state = .idle) || (fresh && decide ((s.recd b).state = .full))

/-- REC_START (R80, R490, R493): bay mask, NEW, ERASE and t_S. -/
def execRecStart (tag : Word) (mask : BitVec 8) (fresh erase : Bool) (t : Stamp) (s : State) : Out :=
  s.ringCommand fun s =>
    let start := if t = 0 then s.epochLead else t
    let bays := allBays.filter fun b => inMask mask.toNat b.val
    if s.img.state ≠ .run then s.complete 5 tag stState 0 s.now
    else if stampLt start s.epochLead || (erase && !fresh) then s.complete 5 tag stBadArgument 0 s.now
    else if bays.any fun b => !s.alive b || !s.startable b fresh || (s.recd b).startReq.isSome then
      s.complete 5 tag stBusy 0 s.now
    else
      (s.eachBay bays fun s b => s.modRec b fun y => { y with startReq := some { tag := tag, due := start, fresh := fresh, erase := erase } }).complete
        5 tag stOk 0 start

/-- REC_START_EFFECT (R490): t_S has come and any erase is complete. -/
def execRecStartEffect (b : BayNo) (s0 : State) : Out :=
  match (s0.recd b).startReq with
  | none => .next s0
  | some r =>
    if !s0.alive b || !(s0.bay b).pwr.ports || !s0.startable b r.fresh then .next s0
    else .next ((s0.reach r.due).beginSession b r.fresh)

/-- REC_STOP (R80, R491): bay mask and t_P. -/
def execRecStop (tag : Word) (mask : BitVec 8) (t : Stamp) (s : State) : Out :=
  s.ringCommand fun s =>
    if s.img.state ≠ .run then s.complete 6 tag stState 0 s.now
    else
      let stop := if t = 0 then s.epochLead else t
      (s.eachBay (s.maskBays mask.toNat) fun s b => s.modRec b fun y => { y with stopReq := some stop }).complete 6 tag stOk 0 stop

/-- A recording bay stops accepting and completes its row, its index and its open regions (R491, R497). -/
def State.stopRecording (s : State) (b : BayNo) : State :=
  match (s.recd b).state, (s.recd b).volume with
  | .recording, some v =>
    let s1 := s.modRec b fun y => { (y.padRow v (s.nowAt b)).closeSpan v true with stopping := true }
    (s1.endRegions b v fun _ => true).modRec b fun y => { y with indexed := y.spans.length }
  | _, _ => s

/-- REC_STOP_EFFECT (R491): t_P has come; a bay that does not record ignores it. -/
def execRecStopEffect (b : BayNo) (s0 : State) : Out :=
  match (s0.recd b).stopReq with
  | none => .next s0
  | some t =>
    if !s0.alive b then .next s0
    else .next (((s0.reach t).modRec b fun y => { y with stopReq := none }).stopRecording b)

/-- REC_STOP_DONE (R491): rows, index, Flush and labels are complete. -/
def execRecStopDone (b : BayNo) (s : State) : Out :=
  let y := s.recd b
  if !s.alive b || !y.stopping || !y.rows.isEmpty then .next s
  else .next (((s.modRec b fun y => { y with stopping := false, state := .idle, sessionOpen := false }).relabel b).event b 0x0D21 [])

/-- REC_SYNC_TIMER (R488, R500, R514): a partly filled row and index block are written. -/
def execRecSyncTimer (b : BayNo) (s0 : State) : Out :=
  let y := s0.recd b
  match y.state, y.volume with
  | .recording, some v =>
    if !s0.alive b || y.stopping then .next s0
    else
      let s := s0.reach (later y.syncFrom (ofMs (s0.fldN Fld.recSyncMs b)))
      let s1 := s.modRec b fun y => { y with syncFrom := s.nowAt b }
      if !y.accepted then .next s1
      else .next (s1.modRec b fun y => { y.padRow v (s.nowAt b) with accepted := false, indexed := y.spans.length })
  | _, _ => .next s0

/-- REC_FREEZE_RELEASE_ONE (R498): one region is released. -/
def execRecFreezeReleaseOne (b : BayNo) (i : Fin 64) (s : State) : Out :=
  if !(s.bay b).pwr.ports then .next (s.fencedAccess b .ports) else .next (s.modRec b fun y => { y with regions := y.regions.set i none })

/-- REC_FREEZE_RELEASE_ALL (R498): every region is released. -/
def execRecFreezeReleaseAll (b : BayNo) (s : State) : Out :=
  if !(s.bay b).pwr.ports then .next (s.fencedAccess b .ports)
  else .next (s.modRec b fun y => { y with regions := Vector.replicate 64 none })

/-! ### Replay (R509 to R513) -/

/-- SOURCE names one I/Q source (R513). -/
def iqSource (n : Nat) : Bool := decide (0x10 ≤ n ∧ n ≤ 0x13 ∨ 0x48 ≤ n ∧ n ≤ 0x4F)

/-- The serial number of the first record of the first span whose latest stamp is at or after `t` (R510). -/
def Recorder.replayStart (y : Recorder) (t : Stamp) : Nat :=
  let spans := y.spans ++ y.span.toList
  match spans.find? fun e => match e.range with
      | none => false
      | some r => stampLe t r.2 with
  | none => y.serial
  | some e => ((y.log.find? fun l => decide (e.lo ≤ l.off ∧ (l.off < e.hi ∨ e.hi ≤ e.lo))).map (·.serial)).getD y.serial

/-- REPLAY (R80, R509, R510, R513): start or stop a replay of a bay. -/
def execReplay (tag : Word) (b : BayNo) (target : BitVec 2) (stop : Bool) (lo hi : Stamp) (source typ : BitVec 8) (s : State) : Out :=
  s.ringCommand fun s =>
    let y := s.recd b
    if s.img.state ≠ .run then s.complete 7 tag stState 0 s.now
    else if !s.alive b || decide (y.state = .off ∨ y.state = .waiting ∨ y.state = .failed) then s.complete 7 tag stState 0 s.now
    else if stop then (s.endReplay b 2).complete 7 tag stOk 0 s.now
    else if y.replay.isSome then s.complete 7 tag stBusy 0 s.now
    else if target = 3 ∨ (target ≠ 0 ∧ (!iqSource source.toNat ∨ !s.fldB Fld.recXsReplay b (target.toNat - 1))) then
      s.complete 7 tag stBadArgument 0 s.now
    else
      let r : Replay := { target := target.toNat, lo := lo, hi := hi, source := source, typ := typ, next := y.replayStart lo
                          delivered := 0, limit := y.serial, upto := lo, stalled := false, epoch := none }
      (s.modRec b fun y => { y with replay := some r }).complete 7 tag stOk 0 s.now

/-- A record passes the filters of a replay (R509, R510). -/
def Replay.passes (r : Replay) (x : Rec) : Bool :=
  (decide (r.source = 0xFF) || decide (x.source = r.source)) &&
    (decide (r.typ = 0) || decide (x.typ.code = r.typ.toNat) || (decide (r.target ≠ 0) && decide (x.typ = .gap))) && stampLe r.lo x.stamp &&
    (decide (r.hi = BitVec.allOnes 96) || stampLe x.stamp r.hi) &&
    (decide (r.target = 0) || decide (x.typ = .iq) || (decide (x.typ = .gap)))

/-- The span that holds an extent offset starts after the end stamp of a replay (R510). -/
def Recorder.pastEnd (y : Recorder) (r : Replay) (off : Nat) : Bool :=
  decide (r.hi ≠ BitVec.allOnes 96) &&
    (y.spans ++ y.span.toList).any fun e => decide (e.lo ≤ off ∧ (off < e.hi ∨ e.hi ≤ e.lo)) && (match e.range with
      | none => false
      | some q => stampLt r.hi q.1)

/-- The next record of a replay: the log entry to deliver, or the cause of its end, or nothing yet. -/
inductive ReplayNext where
  | entry (e : LogRec)
  | ends (cause : Nat)
  | waits
  deriving DecidableEq, Repr

/-- What a replay finds next (R510). -/
def Recorder.replayNext (y : Recorder) (r : Replay) : ReplayNext :=
  match (y.log.filter fun e => decide (r.next ≤ e.serial)).find? fun e => y.pastEnd r e.off || r.passes e.record with
  | some e => if y.pastEnd r e.off then .ends 0 else .entry e
  | none => if y.state = .recording ∧ r.hi = BitVec.allOnes 96 then .waits else .ends 1

/-- Move a replay on past a record. -/
def State.replayPast (s : State) (b : BayNo) (e : LogRec) (delivered : Bool) : State :=
  s.modRec b fun y =>
    { y with
      replayCount := if delivered then y.replayCount + 1 else y.replayCount
      replay := y.replay.map fun r =>
        { r with next := e.serial + 1, delivered := if delivered then r.delivered + 1 else r.delivered } }

/-- An IQ record has the rate and decimation of the port's replay (R441, R513). -/
def State.replayFormat (s : State) (b : BayNo) (x : Nat) (r : Rec) : Bool :=
  decide (bits r.gen.toNat 11 10 = s.pkgN Fld.clkFAdc ∧ bits r.gen.toNat 5 1 = s.fldN Fld.recXsReplayDecim b x)

/-- The end of the first `n` samples of a record that is delivered to a port (R513). -/
def State.replaySpan (s : State) (b : BayNo) (p : Port) (r : Rec) (n : Nat) : Stamp := later r.stamp (durOf n (max 1 (s.fIn b p)))

/-- Outputs of the port in the span of samples that were recorded as invalid are invalid again (R228, R513). -/
def State.replayMarks (s : State) (b : BayNo) (p : Port) (r : Rec) : State :=
  if r.flags &&& flagSettling = 0 then s
  else
    let hi := if r.w6lo = 0xFFFF then r.sampleCount else r.w6lo.toNat
    s.modPort b p fun y =>
      let lo := y.numberFrom (s.replaySpan b p r r.w6hi.toNat)
      let e := y.numberFrom (s.replaySpan b p r hi)
      if lo < e then y.addRun lo e else y

/-- The recorded epoch that a replayed record lies in, by the index entry of its span (R499, R513). -/
def Recorder.epochAt (y : Recorder) (off : Nat) : Option Stamp :=
  ((y.spans ++ y.span.toList).find? fun e => decide (e.lo ≤ off ∧ (off < e.hi ∨ e.hi ≤ e.lo))).map (·.epochStart)

/-- The replay reaches a recorded boundary: the channels of its port begin an epoch there, under the settings in force by then (R513). -/
def State.recordedBoundary (s : State) (b : BayNo) (p : Port) (e : LogRec) : State :=
  match (s.recd b).epochAt e.off, (s.recd b).replay with
  | some z, some r =>
    if r.epoch = some z then s
    else
      let s1 := s.modRec b fun y => { y with replay := some { r with epoch := some z } }
      (s1.chansOf b p).foldl (fun s x => (List.finRange 16).foldl (fun s t =>
        if t.val / 8 = x.val then s.traceBoundary b t z else s) (s.denBoundary b x z)) s1
  | _, _ => s

/-- Deliver one replayed record to the XS port: a recorded gap becomes a stop or a resume, and IQ records pass; none does while the reads
are behind (R513). -/
def State.replayToPort (s0 : State) (b : BayNo) (x : Nat) (e : LogRec) : State :=
  let p : Port := ⟨(2 + x) % 4, Nat.mod_lt _ (by decide)⟩
  let s := s0.recordedBoundary b p e
  let r := e.record
  if r.typ = .gap then
    let s1 := s.replayPast b e false
    if r.w6hi.toNat < 0x8000 then
      if (s.bay b).ddc[p].stopped.isSome then s1 else s1.stopStream b p r.stamp 0 true
    else s1.resumeStream b p r.stamp 0
  else if !s.replayFormat b x r then s.endReplay b 3
  else
    let s1 := if (s.bay b).ddc[p].stopped.isSome then s.resumeStream b p r.stamp 0 else s
    let z := s.replaySpan b p r r.sampleCount
    ((s1.replayMarks b p r).replayPast b e true).modRec b fun y => { y with replay := y.replay.map fun q => { q with upto := z } }

/-- The writer has overtaken a replay: it goes on at the oldest retained byte (R511). -/
def State.replaySkip (s : State) (b : BayNo) (r : Replay) : State :=
  match (s.recd b).log with
  | [] => s
  | e :: _ =>
    if r.next < e.serial then
      (s.modRec b fun y => { y with replay := some { r with next := e.serial } }).event b 0x0D41 []
    else s

/-- A read of a record may be submitted: each member that holds a unit of it has less than two rows' worth of writes outstanding (R503). -/
def Recorder.mayRead (y : Recorder) (e : LogRec) : Bool :=
  match y.volume with
  | none => true
  | some v =>
    let u := max 1 v.unit
    (List.range (ceilDiv (e.off + e.record.bytes) u - e.off / u)).all fun j =>
      let d := (v.place ((e.off / u + j) * u)).1
      decide ((y.rows.filter fun r => r.left.any fun x => decide (x.val = d)).length < 2)

/-- REPLAY_DELIVER (R503, R510 to R513): the next record is read and delivered. `fault` is 0 for a clean read, 1 for bytes that come back
changed, 2 for a unit rebuilt from its row, 3 for a unit that can be neither read nor rebuilt. A record whose own CRC does not agree is
skipped. -/
def execReplayDeliver (b : BayNo) (fault : Fin 4) (s0 : State) : Out :=
  match (s0.recd b).replay with
  | none => .next s0
  | some r0 =>
    if !s0.alive b || s0.quiet then .next s0
    else
      let s := s0.replaySkip b r0
      let r := ((s.recd b).replay).getD r0
      match (s.recd b).replayNext r with
      | .waits => .next s
      | .ends c => .next (s.endReplay b c)
      | .entry e =>
        if !(s.recd b).mayRead e then .next s
        else
        let s1 := if fault = 2 then s.modRec b fun y => { y with replayRebuilt := y.replayRebuilt + 1 } else s
        if fault = 1 ∨ fault = 3 ∨ e.record.crc ≠ e.record.checkCode then
          .next ((s1.modRec b fun y => { y with replaySkipped := y.replaySkipped + 1 }).replayPast b e false)
        else if r.target ≠ 0 then .next (if r.stalled then s else s1.replayToPort b (r.target - 1) e)
        else
          match queueOf (s1.fldN Fld.recReplayQueue b) with
          | none => .next s1
          | some (qb, qi) =>
            if s1.queueAwake qb && (s1.placeFor qb qi e.record.bytes 64 == some false) then
              let (_, ev, s2) := s1.arrive b (s1.fldN Fld.recReplayQueue b) e.record
              .next ((s2.queueEvents ev).replayPast b e true)
            else .next s1

/-- REPLAY_STALL (R513): the reads fall behind and the stream stops at the first missing sample. -/
def execReplayStall (b : BayNo) (t : Stamp) (s : State) : Out :=
  match (s.recd b).replay with
  | none => .next s
  | some r =>
    let p : Port := ⟨(1 + r.target) % 4, Nat.mod_lt _ (by decide)⟩
    if !s.alive b || decide (r.target = 0) || (s.bay b).ddc[p].stopped.isSome then .next s
    else .next ((s.modRec b fun y => { y with replay := some { r with stalled := true } }).stopStream b p t 0 true)

/-- REPLAY_RESUME (R513): 100 µs of samples are buffered again. -/
def execReplayResume (b : BayNo) (t : Stamp) (s : State) : Out :=
  match (s.recd b).replay with
  | none => .next s
  | some r =>
    let p : Port := ⟨(1 + r.target) % 4, Nat.mod_lt _ (by decide)⟩
    if !s.alive b || decide (r.target = 0) || !r.stalled then .next s
    else .next ((s.modRec b fun y => { y with replay := some { r with stalled := false } }).resumeStream b p t 0)

/-! ### Loss of power and registers -/

/-- A loss of power (R492): of the rows under way the first so many have reached the drives, which the spec leaves open (log
entry 13); records that do not lie whole in complete rows are lost. -/
def State.recPowerLoss (s : State) (b : BayNo) : State :=
  match (s.recd b).volume with
  | none => s.modRec b fun y => { y with state := .off }
  | some v =>
    let (k, s1) := s.takeFree 32
    s1.modRec b fun y =>
      let lost := (y.rows.drop (k.toNat % (y.rows.length + 1))).map (·.row) ++ y.partRow v
      { (if y.sessionOpen then y.dropRows v lost else y) with
        spans := y.spans.take y.indexed, rows := [], state := .off, replay := none, failover := false, stopping := false
        startReq := none, stopReq := none }

/-- REC_STATUS (R517). -/
def State.recStatus (s : State) (b : BayNo) : Word :=
  let y := s.recd b
  let st := match y.state with
    | .off => 0 | .waiting => 1 | .idle => 2 | .recording => 3 | .full => 4 | .failed => 5
  let failed := match y.failedMember with
    | none => 15
    | some d => d.val
  wd (st + 8 * bitW y.failedMember.isSome + 16 * bitW y.rebuild.isSome + 32 * bitW y.replay.isSome +
    64 * bitW (decide (y.state = .recording) && !y.stopping && !y.failover) + 128 * bitW (decide (s.fldN Fld.recMode b = 1)) +
    256 * failed + 4096 * s.fldN Fld.recDrives b)

/-- REC_Dd_STATUS (R518). -/
def Drive.status (d : Drive) : Word :=
  let st := match d.state with
    | .absent => 0 | .link => 1 | .init => 2 | .ready => 3 | .member => 4 | .failed => 5 | .rebuilding => 6 | .foreign => 7
  wd (st + 8 * d.gen + 64 * d.width + 512 * bitW d.downgraded + 1024 * bitW d.unusable)

/-- Words of a region in REC_FROZEN_TABLE (R516). -/
def Region.words (v : Volume) (r : Region) : List Word :=
  words64 (v.addr r.start) ++ (if r.isOpen then [Config.unstated 1 0, Config.unstated 1 1] else words64 (v.addr r.stop)) ++
    stampWords r.stamp ++ [wd (r.unitNo.val + 256 * bitW r.truncated + 512 * bitW r.isOpen + 2 ^ 31)]

/-- The earliest stamp in the retained log. -/
def Recorder.oldestStamp (y : Recorder) : Stamp :=
  match y.log with
  | [] => 0
  | e :: r => r.foldl (fun m x => if stampLt x.record.stamp m then x.record.stamp else m) e.record.stamp

/-- The volume address of the position of a replay. -/
def Recorder.replayPos (y : Recorder) : Nat :=
  match y.replay with
  | none => 0
  | some r => ((y.log.find? fun e => decide (r.next ≤ e.serial)).map (·.off)).getD y.pos

/-- The REC registers (R516). -/
def State.recReg (s : State) (b : BayNo) (off : Nat) : Word :=
  let y := s.recd b
  let v := y.volume.getD { members := 2, unit := 1, indexMib := 0, base := 0, size := 0, generation := 0 }
  let at64 := fun (x : Nat) => if y.volume.isSome then v.addr x else 0
  let pos := at64 y.pos
  let old := at64 (match y.kept with
    | [] => y.pos
    | r :: _ => r * v.rowBytes)
  let rp := at64 y.replayPos
  if off < 0x100 then
    match off with
    | 0x00 => s.recStatus b
    | 0x08 => pos.extractLsb' 0 32
    | 0x0C => pos.extractLsb' 32 32
    | 0x10 => old.extractLsb' 0 32
    | 0x14 => old.extractLsb' 32 32
    | 0x18 => y.oldestStamp.extractLsb' 0 32
    | 0x1C => y.oldestStamp.extractLsb' 32 32
    | 0x20 => y.oldestStamp.extractLsb' 64 32
    | 0x24 => y.session.zeroExtend 32
    | 0x28 => y.bytes.extractLsb' 0 32
    | 0x2C => y.bytes.extractLsb' 32 32
    | 0x30 => y.discards
    | 0x34 => wd (y.regionCount + 65536 * y.refused.toNat)
    | 0x38 => y.rate
    | 0x40 => rp.extractLsb' 0 32
    | 0x44 => rp.extractLsb' 32 32
    | 0x48 => y.replayCount
    | 0x4C => y.replayRebuilt ++ y.replaySkipped
    | _ => 0
  else if off < 0x200 then
    let d := y.drives[(off - 0x100) / 32 % 8]'(Nat.mod_lt _ (by decide))
    match off % 32 with
    | 0x00 => d.status
    | 0x04 => d.temp.zeroExtend 32
    | 0x08 => d.timeouts ++ d.mediaErrors
    | 0x0C => wd d.latMax
    | 0x10 => wd d.capacity
    | 0x14 => wd (d.capacity / 2 ^ 32)
    | 0x18 => d.used.zeroExtend 32
    | _ => 0
  else if 0x800 ≤ off ∧ off < 0x1000 then
    match y.regions[(off - 0x800) / 32 % 64]'(Nat.mod_lt _ (by decide)) with
    | none => 0
    | some r => (r.words v).getD (off / 4 % 8) 0
  else 0

end Sys2Proof.Machine
end

