-- ==== Sys2Proof/Machine/Live.lean ====
section
/-! DEFINITION. The commands that set values and profiles (R65 to R74, R628, R629). -/
namespace Sys2Proof.Machine

/-- The bays a key selects in this package, as a mask. -/
def State.keyMask (s : State) (f : Field) (k : Key) : Nat :=
  if f.pkg then k.mask % 2 else maskOf (s.maskBays k.mask)

/-- The declarations that cover a field in a bay. -/
def State.declsOf (s : State) (k : Key) (b : Nat) : List LiveDecl :=
  match s.img.image with
  | none => []
  | some im => im.live.filter fun d => decide (d.key.block = k.block ∧ d.key.id = k.id) && d.key.mask.testBit b

/-- The bits of a mask as bay numbers. -/
def maskList (m : Nat) : List Nat := (List.range 8).filter fun b => m.testBit b

/-- Two moments from which an EPOCH value waits reach the same boundary of the grid as it stands (R65). -/
def State.sameBoundary (s : State) (t u : Stamp) : Bool := decide (s.boundaryFrom t = s.boundaryFrom u)

/-- Waiting values of the same field and the same apply point that a new value replaces: the bays it selects leave them (R69).
Values of an EPOCH field wait for the same apply point when they wait for the same boundary. -/
def State.dropReplaced (s : State) (k : Key) (m : Nat) (ap : ApplyPoint) (due : Stamp) (w : Waiting) : Option Waiting :=
  match w with
  | .value k' left v ap' due' watched told =>
    if k'.block = k.block ∧ k'.id = k.id ∧ ap' = ap ∧ (ap ≠ .epoch ∨ s.sameBoundary due' due) then
      let left' := left &&& (255 - m % 256)
      if left' = 0 then none else some (.value k' left' v ap' due' watched told)
    else some w
  | .profile .. => some w

/-- Accept a live value: replaced ones go, their reservations with them, and the new one waits (R66, R69, R126, R628).
-/
def State.acceptValue (s : State) (f : Field) (i : Nat) (k : Key) (m : Nat) (v : Int) (watched defer : Bool) : State :=
  let kept := s.img.waiting.filterMap fun w =>
    s.dropReplaced k (if (w.ftwHalf Fld.ddcFtwLo).isSome then m &&& (255 - pairedBays s.img.waiting w) else m) f.apply s.applyLead w
  let gone := reservations s.img.waiting - reservations kept
  let s1 := { s with img := { s.img with waiting := kept ++ [Waiting.value k m v f.apply s.applyLead watched false] }
                     keeper := { s.keeper with reserved := s.keeper.reserved - gone + bitW watched } }
  let same := decide (f.block = 1) && (maskList m).all fun b => decide (Vals.of s.vals f b i = v)
  let s2 := s1.vblankArrive [Waiting.value k m v f.apply s.applyLead watched false]
  if f.apply = .acqRestart ∧ !defer ∧ !same then s2.modImg fun g => { g with restartReq := g.restartReq ||| m } else s2

/-- SET_LIVE (R41, R66, R69, R80, R84, R628): tag, key word, value word and DEFER. A key that selects several bays, of which a
declaration covers only some, completes with NOT_LIVE and changes none (DEDUCED, log entry 66). -/
def execSetLive (tag key value : Word) (defer : Bool) (s : State) : Out :=
  s.ringCommand fun s =>
    let now := s.now
    if !s.inStates true then s.complete 1 tag stState 0 now
    else
      let k := keyOfWord key.toNat
      match findField k.block k.id with
      | none => s.complete 1 tag stNotLive key now
      | some (f, i) =>
        let m := s.keyMask f k
        let bays := maskList m
        if m = 0 ∨ bays.any (fun b => (s.declsOf k b).isEmpty) then s.complete 1 tag stNotLive key now
        else
          let v := valueOf f value.toNat
          let ds := bays.flatMap fun b => s.declsOf k b
          if !formOk f value.toNat ∨ !inRange s.part.bays f v ∨ ds.any (fun d => decide (v < d.min ∨ d.max < v)) then
            s.complete 1 tag stOutOfRange key now
          else
            let watched := bays.any (fun b => decide (sideIn (fun b => Vals.nat s.vals Fld.mcoSealCores b) f k b = .sealed)) || ds.any (·.log)
            if watched ∧ (s.keeper.freeSlots = 0 ∨ s.keeper.full) then s.complete 1 tag stBusy key now
            else
              let t := if f.apply = .epoch then s.boundaryFrom s.applyLead else now
              (s.acceptValue f i k m v watched defer).complete 1 tag stOk 0 t

/-- Accept a profile change: it waits for its EPOCH point and holds a retention slot (R70, R629). -/
def State.acceptProfile (s : State) (p : Nat) (pins : Bool) : State :=
  { s with img := { s.img with waiting := s.img.waiting ++ [.profile p s.applyLead pins] }
           keeper := { s.keeper with reserved := s.keeper.reserved + 1 } }

/-- The running image has profile `p`. -/
def State.hasProfile (s : State) (p : Nat) : Bool :=
  match s.img.image with
  | none => false
  | some im => (im.profileAt p).isSome

/-- SELECT_PROFILE (R70, R71, R73, R74, R80, R629). -/
def execSelectProfile (tag : Word) (p : BitVec 4) (s : State) : Out :=
  s.ringCommand fun s =>
    let now := s.now
    if !s.inStates true then s.complete 2 tag stState 0 now
    else if s.pkgN Fld.imgProfilePinSwitch = 1 then s.complete 2 tag stPinsOwn 0 now
    else if !s.hasProfile p.toNat then (s.complete 2 tag stBadArgument 0 now).event 0 0x0121 [wd p.toNat]
    else if s.keeper.freeSlots = 0 ∨ s.keeper.full then s.complete 2 tag stBusy 0 now
    else (s.acceptProfile p.toNat false).complete 2 tag stOk 0 (s.boundaryFrom s.applyLead)

/-- PROFILE_PIN_CHANGE (R73, R76, R629): PROFILE[3:0] has shown `v` for 32 lagoon clock periods. Without pin switching the pins are
not sampled. -/
def execProfilePinChange (v : BitVec 4) (s : State) : Out :=
  if !s.alive 0 || s.pkgN Fld.imgProfilePinSwitch ≠ 1 then .next s
  else
    let s1 := s.modImg fun i => { i with pins := v }
    if !s1.inStates true || v = s1.img.pinsTaken then .next s1
    else if !s1.hasProfile v.toNat || !(s1.pkgN Fld.imgPinProfiles).testBit v.toNat then
      if s1.img.absentTold = some v then .next s1
      else .next ((s1.modImg fun i => { i with absentTold := some v }).event 0 0x0121 [wd v.toNat])
    else if s1.keeper.freeSlots = 0 ∨ s1.keeper.full then .next s1
    else .next ((s1.acceptProfile v.toNat true).modImg fun i => { i with pinsTaken := v, absentTold := none })

end Sys2Proof.Machine
end

