-- ==== Sys2Proof/Machine/Lne.lean ====
section
/-! DEFINITION. The commands of the serial lanes, and the bring-up of external Lanil links (R531 to R553, R595). -/
namespace Sys2Proof.Machine

/-! ### External links at lane level -/

/-- An external link. -/
def State.ext (s : State) (n : Fin 2) : ExtLink := s.lnl.ext[n]

/-- Change an external link. -/
def State.modExt (s : State) (n : Fin 2) (f : ExtLink → ExtLink) : State :=
  (s.modLnlPkg fun y => { y with ext := s.lnl.ext.set n (f s.lnl.ext[n]) })

/-- Lanes of an external link: 0, 4 or 8 (R621). -/
def State.extWidth (s : State) (n : Fin 2) : Nat := 4 * s.pkgN Fld.lnlLinkWidth n.val

/-- The first quad of an external link. -/
def State.extQuad (s : State) (n : Fin 2) : Nat := s.pkgN Fld.lnlLinkQuad n.val

/-- Lane `j` of an external link in the link bay. -/
def State.extLane (s : State) (n : Fin 2) (j : Nat) : Fin 24 := ⟨(4 * s.extQuad n + j) % 24, Nat.mod_lt _ (by decide)⟩

/-- Positions of a link's lanes. -/
def State.extLanes (s : State) (n : Fin 2) : List Nat := List.range (s.extWidth n)

/-- The link that lane `k` of bay `b` belongs to, and its place in it. -/
def State.extOf (s : State) (b : BayNo) (k : Fin 24) : Option (Fin 2 × Nat) :=
  match s.claimOf b k with
  | some c => match c.port with
    | .lanil n => if h : n < 2 then some (⟨n, h⟩, k.val - c.first) else none
    | _ => none
  | none => none

/-- Bring-up mode of a link: 1 BLIND, 2 STEP (R549). -/
def State.extMode (s : State) (n : Fin 2) : Nat := s.fldN Fld.lneQdLnl s.linkBay (s.extQuad n)

/-- A link's own target rate in kbit/s (R534). -/
def State.extTarget (s : State) (n : Fin 2) : Nat := lnlRate (s.fldN Fld.lneQdLnlRate s.linkBay (s.extQuad n))

/-- Set bit `j` of a lane mask. -/
def setLane (m : BitVec 8) (j : Nat) : BitVec 8 := m ||| BitVec.ofNat 8 (2 ^ j)

/-- The capability frame that lane `j` of a link sends, with its acknowledgement of the partner's (R595). -/
def State.capFrame (s : State) (n : Fin 2) (j : Nat) (ack : Bool) : List Word :=
  let w := s.fldN Fld.lneQdLnlRate s.linkBay (s.extQuad n) + 8 * s.extWidth n + 128 * j + 1024 * s.packageNo.toNat +
    4096 * s.pkgN Fld.lnlShoalSize + 32768 * bitW ack
  let body := [0x4C4E4C53, wd w, Config.serial.setWidth 32]
  body ++ [crc32c (wordsBytes body)]

/-- Lane `j` of a link sends its capability frames, with or without the acknowledgement from now on (R536, R595). -/
def State.sendCap (s : State) (n : Fin 2) (j : Nat) (ack : Bool) : State :=
  s.emit (.packet "CAPABILITY" (s.extLane n j).val (s.capFrame n j ack))

/-- An end of an external link states its shoal size, its package, the bay counts it knows, each as 16 × package + bays, its own first,
and the hash of its SHOAL payload (R605). -/
def State.offerExchange (s : State) (n : Fin 2) : State :=
  s.emit (.packet "SHOAL_EXCHANGE" n.val ([wd (s.pkgN Fld.lnlShoalSize), wd s.packageNo.toNat] ++ bytesWords 8 s.shoalHash ++
    ((16 * s.packageNo.toNat + s.part.bays) :: s.tbs.memberBays).map fun x => wd x))

/-- Change every lane of a link. -/
def State.eachExtLane (s : State) (n : Fin 2) (f : State → Fin 24 → State) : State :=
  (s.extLanes n).foldl (fun s j => f s (s.extLane n j)) s

/-- A link's bring-up begins (R533, R535, R536): the lanes transmit at the target rate or negotiate at 1.25 Gbit/s. -/
def State.beginLink (s : State) (n : Fin 2) : State :=
  if s.extWidth n = 0 then s
  else
    let blind := decide (s.extMode n = 1)
    let b := s.linkBay
    let s1 := s.eachExtLane n fun s k => (s.accrue b k).modLane b k fun l =>
      { l with
        setAside := false, inPort := false, asideTold := false, cdr := false, chk := false, eyeValid := false
        tx := { LaneDir.reset with awake := true }, rx := { LaneDir.reset with awake := true } }
    let s2 := if s.extMode n = 2 then (s.extLanes n).foldl (fun s j => s.sendCap n j false) s1 else s1
    s2.modExt n fun x =>
      { x with
        stage := if s.extMode n = 0 then .off else if blind then .blind else .negotiate
        start := s.nowAt b, heard := 0, acked := 0, rate := if blind then s.extTarget n else 1250000
        target := s.extTarget n, lastRung := 0, passed := 0, retried := 0, asideHere := 0, firstFailed := false, lanesUp := 0
        matched := false, held := false, paused := false, port := { x.port with up := false } }

/-- A lane is set aside (R535, R536): EV_LANE_SET_ASIDE holds the quad, the lane and the rate. -/
def State.setAside (s : State) (n : Fin 2) (j : Nat) : State :=
  let b := s.linkBay
  let k := s.extLane n j
  let told := (s.lane b k).asideTold
  let s1 := s.modLane b k fun l => { l with setAside := true, asideTold := true }
  if told then s1 else s1.event b 0x0E02 [wd (k.val / 4), wd k.val, wd (s.ext n).rate]

/-- The lanes of a link are up: those not set aside carry Lanil framing, EV_LNL_LANES_UP holds the quad, the rate and the mask, and the
ends exchange what they are (R538, R605). -/
def State.frameLink (s : State) (n : Fin 2) : State :=
  let b := s.linkBay
  let up := (s.extLanes n).filter fun j => !(s.lane b (s.extLane n j)).setAside
  let mask := up.foldl setLane 0
  let s1 := up.foldl (fun s j => s.serve b (s.extLane n j) (.lanil n.val) true) s
  let s2 := s1.modExt n fun x => { x with stage := .framed, lanesUp := mask, failTold := false }
  (s2.event b 0x0E03 [wd (s.extQuad n), wd (s.ext n).rate, mask.setWidth 32]).offerExchange n

/-- A BLIND bring-up ends once every lane is up or set aside, and one is up. -/
def State.blindDone (s : State) (n : Fin 2) : State :=
  let b := s.linkBay
  let open_ := (s.extLanes n).any fun j => !(s.ext n).lanesUp.getLsbD j && !(s.lane b (s.extLane n j)).setAside
  if decide ((s.ext n).stage = .blind) && !open_ && decide ((s.ext n).lanesUp ≠ 0) then s.frameLink n else s

/-- A change of width pauses the link's traffic and raises EV_LNL_WIDTH (R594). -/
def State.changeWidth (s : State) (n : Fin 2) : State :=
  (s.modExt n fun x => { x with paused := true }).event s.linkBay 0x1203 [wd n.val]

/-- LANE_UP (R530, R535, R548, R594): a lane of a BLIND link locks and finds Lanil framing; a lane that was set aside joins
the running link. -/
def execLaneUp (b : BayNo) (k : Fin 24) (s : State) : Out :=
  match s.extOf b k with
  | none => .next s
  | some (n, j) =>
    let x := s.ext n
    if !s.lanePowered b k || !s.pinned b || decide (s.extMode n ≠ 1) || x.lanesUp.getLsbD j || (s.lane b k).txTaken || (s.lane b k).rxTaken then .next s
    else
      let lock := fun (s : State) => (s.modLane b k fun l => { l with setAside := false, signal := true, cdr := true }).modExt n
        fun x => { x with lanesUp := setLane x.lanesUp j }
      match x.stage with
      | .blind => .next (((lock s).lockLane b k).blindDone n)
      | .framed => .next ((((lock s).serve b k (.lanil n.val) true).faultRepair { code := 1, bay := b, part := n.val }).changeWidth n)
      | _ => .next s

/-- LANE_BRINGUP_TIMEOUT (R535): a lane of a BLIND link is not up 1.0 ms after both ends transmit. -/
def execLaneBringupTimeout (b : BayNo) (k : Fin 24) (s0 : State) : Out :=
  match s0.extOf b k with
  | none => .next s0
  | some (n, j) =>
    let x := s0.ext n
    if decide (x.stage ≠ .blind) || x.lanesUp.getLsbD j || (s0.lane b k).setAside then .next s0
    else
      let s := s0.reach (later x.start (ofMs 1))
      .next ((s.setAside n j).blindDone n)

/-- A capability frame whose magic and CRC are right (R595). -/
def frameGood (f : Vector Word 4) : Bool :=
  decide (f[0] = 0x4C4E4C53) && decide (crc32c (wordsBytes [f[0], f[1], f[2]]) = f[3])

/-- The rungs of a STEP ladder to a target (R536). -/
def rungsTo (target : Nat) : List Nat := ([10000000, 32000000, 64000000].filter fun r => decide (r < target)) ++ [target]

/-- A ladder moves to a rung: the lanes adapt and the ends adjust each other's taps (R536). -/
def State.toRung (s : State) (n : Fin 2) (rate : Nat) : State :=
  let b := s.linkBay
  let s1 := s.modExt n fun x => { x with stage := .ladder, rate := rate, passed := 0, retried := 0, asideHere := 0 }
  s1.eachExtLane n fun s k => if (s.lane b k).setAside then s else (s.lockLane b k).freeTaps b k

/-- CAPABILITY_FRAME_RX (R536, R595): a frame arrives on lane `k`; negotiation ends once every lane has the partner's frames
and its acknowledgement, at the lower of the two targets (R534). -/
def execCapabilityFrameRx (b : BayNo) (k : Fin 24) (frame : Vector Word 4) (s : State) : Out :=
  match s.extOf b k with
  | none => .next s
  | some (n, j) =>
    if decide ((s.ext n).stage ≠ .negotiate) || !frameGood frame then .next s
    else
      let w := frame[1].toNat
      let s1 := (s.modLane b k fun l => { l with signal := true, cdr := true }).modExt n fun x =>
        { x with
          heard := setLane x.heard j, acked := if bits w 15 15 = 1 then setLane x.acked j else x.acked, partner := bits w 2 0
          peer := BitVec.ofNat 2 (bits w 11 10) }
      let x := s1.ext n
      let s1 := if (s.ext n).heard.getLsbD j then s1 else s1.sendCap n j true
      if (s.extLanes n).all fun j => x.heard.getLsbD j && x.acked.getLsbD j then
        let target := min (s.extTarget n) (lnlRate x.partner)
        let s2 := s1.modExt n fun x => { x with target := target }
        .next (s2.toRung n ((rungsTo target).headD target))
      else .next s1

/-- A lane passes a rung: at most 10^-6 of the bits of 1 ms were wrong (R536); `none` is a checker that never locked. -/
def rungPass (rate : Nat) : Option Nat → Bool
  | none => false
  | some e => decide (e * 1000000 ≤ rate)

/-- One lane's check at a rung (R536 steps 2 and 3). -/
def State.rungLane (s : State) (n : Fin 2) (j : Nat) (e : Option Nat) : State :=
  let x := s.ext n
  if (s.lane s.linkBay (s.extLane n j)).setAside || x.passed.getLsbD j then s
  else if rungPass x.rate e then s.modExt n fun x => { x with passed := setLane x.passed j }
  else if x.retried.getLsbD j then (s.modExt n fun x => { x with asideHere := setLane x.asideHere j }).setAside n j
  else (s.modExt n fun x => { x with retried := setLane x.retried j }).lockLane s.linkBay (s.extLane n j)

/-- The switch to Lanil framing takes 1.0 ms (R537). -/
def State.stepFrame (s : State) (n : Fin 2) : State := (s.passTime (ofMs 1)).frameLink n

/-- A rung on which every lane failed: the ladder ends at the previous rung with the lanes that passed it, or bring-up has
failed (R536 step 4). -/
def State.rungFailed (s : State) (n : Fin 2) : State :=
  let b := s.linkBay
  let x := s.ext n
  if x.lastRung = 0 then s.modExt n fun x => { x with stage := .failed, firstFailed := true, retryAt := later x.start (ofMs 125) }
  else
    let back := (s.extLanes n).filter fun j => x.asideHere.getLsbD j
    let s1 := back.foldl (fun s j => s.modLane b (s.extLane n j) fun l => { l with setAside := false }) s
    (((s1.modExt n fun x => { x with rate := x.lastRung }).event b 0x0E05 []).stepFrame n)

/-- STEP_RUNG_CHECK_DONE (R536 to R538): the 1 ms check at a rung ends with `errs` wrong bits on each lane. -/
def execStepRungCheckDone (n : Fin 2) (errs : List (Option Nat)) (s0 : State) : Out :=
  if (s0.ext n).stage ≠ .ladder then .next s0
  else
    let s := s0.passTime (ofMs 1)
    let s1 := (s.extLanes n).foldl (fun s j => s.rungLane n j (errs.getD j none)) s
    let b := s1.linkBay
    let live := (s1.extLanes n).filter fun j => !(s1.lane b (s1.extLane n j)).setAside
    let x := s1.ext n
    if live.any fun j => !x.passed.getLsbD j then .next s1
    else if live.isEmpty then .next (s1.rungFailed n)
    else
      let s2 := s1.modExt n fun x => { x with lastRung := x.rate }
      match (rungsTo x.target).find? fun r => decide (r > x.rate) with
      | none => .next (s2.stepFrame n)
      | some r => .next (s2.toRung n r)

/-- What kept a link from coming up: 0 no partner signal, 1 negotiation incomplete, 2 first rung failed on every lane (R538). A
BLIND link that hears a signal has no cause among these: the word is free. -/
def State.failCause (s : State) (n : Fin 2) : Word × State :=
  let x := s.ext n
  if x.firstFailed then (2, s)
  else if decide (s.extMode n = 1) && (s.extLanes n).any fun j => (s.lane s.linkBay (s.extLane n j)).signal then s.takeFree 32
  else if x.heard ≠ 0 then (1, s)
  else (0, s)

/-- LNL_LANES_FAIL_TIMEOUT (R97, R538): the link's lanes are not up 2.0 ms (BLIND) or 25 ms (STEP) after bring-up began; the
event is raised once. -/
def execLnlLanesFailTimeout (n : Fin 2) (s0 : State) : Out :=
  let x := s0.ext n
  if s0.extWidth n = 0 ∨ x.stage = .off ∨ x.stage = .framed then .next s0
  else
    let s := s0.reach (later x.start (ofMs (if s0.extMode n = 1 then 2 else 25)))
    let (cause, s1) := s.failCause n
    let s2 := s1.modExt n fun x =>
      { x with stage := .failed, failTold := true, retryAt := later (s.nowAt s.linkBay) (ofMs 100) }
    .next (if x.failTold then s2 else s2.event s2.linkBay 0x0E04 [wd (s2.extQuad n), cause])

/-- LNL_BRINGUP_RESTART (R538): 100 ms after it failed a bring-up starts again. -/
def execLnlBringupRestart (n : Fin 2) (s0 : State) : Out :=
  if (s0.ext n).stage ≠ .failed then .next s0
  else
    let s := s0.reach (s0.ext n).retryAt
    .next (s.beginLink n)

/-! ### Lanes -/

/-- LANE_LOCK_LOST (R550, R553): a receiver loses CDR lock; `signal` says that a signal is still detected. A lane that serves
a running port raises its event once per epoch. -/
def execLaneLockLost (b : BayNo) (k : Fin 24) (signal : Bool) (s : State) : Out :=
  let l := s.lane b k
  if !s.lanePowered b k || !l.cdr then .next s
  else
    let s1 := (s.accrue b k).modLane b k fun l =>
      { l with
        cdr := false, chk := false, signal := signal, eyeValid := false, cdrLosses := l.cdrLosses + 1
        lockTold := l.lockTold || l.inPort }
    .next (if l.inPort && !l.lockTold then s1.event b 0x0E01 [wd k.val] else s1)

/-- EYE_MEASURE (R531): the monitor measures the margins of an awake and locked receiver. -/
def execEyeMeasure (b : BayNo) (k : Fin 24) (v : BitVec 8) (h : BitVec 6) (s : State) : Out :=
  let l := s.lane b k
  if !s.lanePowered b k then .next s
  else if l.rx.awake && l.cdr then
    .next ((s.readapt b k).modLane b k fun l => { l with eyeV := v, eyeH := h, eyeValid := true })
  else .next (s.modLane b k fun l => { l with eyeValid := false })

/-- LANE_ERR_READ (R540 to R542): a read of LNE_Lk_ERR_LO. `errs` errors were detected since the last one, and the checker
lost lock `losses` times; a loss takes 64 errors. -/
def execLaneErrRead (b : BayNo) (k : Fin 24) (errs losses : Nat) (s : State) : Out :=
  if !s.lanePowered b k then .next (s.fencedAccess b (.quad ⟨k.val / 4, by omega⟩))
  else
    let counting := s.counts b k
    let n := if s.chkRuns b k then min losses (errs / 64) else 0
    let s1 := (s.accrue b k).modLane b k fun l =>
      { l with err := if counting then min laneMax (l.err + errs) else l.err, chkLosses := l.chkLosses + BitVec.ofNat 16 n }
    .next (s1.modLane b k fun l => { l with errLatch := l.err, bitsLatch := l.bits })

/-- LANE_CLEAR (R542): CLEAR sets both counters to zero. -/
def execLaneClear (b : BayNo) (k : Fin 24) (s : State) : Out :=
  if !s.lanePowered b k then .next (s.fencedAccess b (.quad ⟨k.val / 4, by omega⟩))
  else .next (s.modLane b k fun l => { l with err := 0, bits := 0, rem := 0, mark := s.nowAt b })

/-- A running checker seeds again; `locks` says whether it locks (R540). -/
def State.reseed (s : State) (b : BayNo) (k : Fin 24) (locks : Bool) : State :=
  if !s.chkRuns b k then s
  else (s.accrue b k).modLane b k fun l => { l with chk := locks && l.cdr }

/-- LANE_RESYNC (R540): the checker seeds again from the bits `rx` at the lane's pin. -/
def execLaneResync (b : BayNo) (k : Fin 24) (rx : List Bool) (s : State) : Out := .next (s.reseed b k (s.locksOn b k rx))

/-- A direction of a lane. -/
def Lane.dir (l : Lane) (tx : Bool) : LaneDir := if tx then l.tx else l.rx

/-- Change a direction of a lane. -/
def State.modDir (s : State) (b : BayNo) (k : Fin 24) (tx : Bool) (f : LaneDir → LaneDir) : State :=
  s.modLane b k fun l => if tx then { l with tx := f l.tx } else { l with rx := f l.rx }

/-- A sleep request reaches a direction: during a wake it waits for the wake's end (R544, R548). -/
def LaneDir.askSleep (d : LaneDir) : LaneDir :=
  if d.waking then { d with queued := some false }
  else if d.awake && !d.entering then { d with entering := true, queued := none }
  else { d with queued := none }

/-- A wake request reaches a direction: during sleep entry it waits for the entry's end (R546, R548). -/
def LaneDir.askWake (d : LaneDir) : LaneDir :=
  if d.entering then { d with queued := some true }
  else if d.awake || d.waking then { d with queued := none }
  else { d with waking := true }

/-- A host request to one direction acts on the lanes of a TEST quad only (R545). -/
def State.hostSleep (s : State) (b : BayNo) (k : Fin 24) (tx : Bool) (f : LaneDir → LaneDir) : State :=
  if s.lanePowered b k && s.testQuad b k then (s.accrue b k).modDir b k tx f else s

/-- LANE_TX_SLEEP (R544, R545, R548). -/
def execLaneTxSleep (b : BayNo) (k : Fin 24) (s : State) : Out := .next (s.hostSleep b k true LaneDir.askSleep)

/-- LANE_TX_WAKE (R545, R546). -/
def execLaneTxWake (b : BayNo) (k : Fin 24) (s : State) : Out := .next (s.hostSleep b k true LaneDir.askWake)

/-- LANE_RX_SLEEP (R544, R545). -/
def execLaneRxSleep (b : BayNo) (k : Fin 24) (s : State) : Out := .next (s.hostSleep b k false LaneDir.askSleep)

/-- LANE_RX_WAKE (R545, R546, R548). -/
def execLaneRxWake (b : BayNo) (k : Fin 24) (s : State) : Out := .next (s.hostSleep b k false LaneDir.askWake)

/-- LANE_SLEEP_DONE (R544, R547, R548): a direction's sleep entry completes; a wake that waited begins. -/
def execLaneSleepDone (b : BayNo) (k : Fin 24) (tx : Bool) (s : State) : Out :=
  let d := (s.lane b k).dir tx
  if !s.alive b || !d.entering then .next s
  else
    let s1 := (s.accrue b k).modDir b k tx fun d =>
      { awake := false, waking := decide (d.queued = some true), entering := false, queued := none }
    .next (if tx then s1 else s1.modLane b k fun l => { l with chk := false, cdr := false, eyeValid := false })

/-- A wake completes: the direction is awake, and a sleep that waited begins (R546, R548). -/
def LaneDir.woken (d : LaneDir) : LaneDir :=
  { awake := true, waking := false, entering := decide (d.queued = some false), queued := none }

/-- The lane belongs to the control endpoint (R543). -/
def State.controlLane (s : State) (b : BayNo) (k : Fin 24) : Bool :=
  match s.claimOf b k with
  | some c => decide (c.port = .control)
  | none => false

/-- The pattern logic takes the directions its bits name from the lane's port, or gives them back (R543): the port treats the
lane as lost, and EV_LANE_TEST is raised. A sleeping direction is taken at its wake (R548). -/
def State.takeLane (s : State) (b : BayNo) (k : Fin 24) : State :=
  let l := s.lane b k
  if s.testQuad b k || (s.claimOf b k).isNone then s
  else
    let tx := l.txPrbs && (l.tx.awake || l.txTaken)
    let rx := l.rxPrbs && (l.rx.awake || l.rxTaken)
    let fresh := (tx && !l.txTaken) || (rx && !l.rxTaken)
    let s1 := (s.accrue b k).modLane b k fun l =>
      { l with txTaken := tx, rxTaken := rx, inPort := l.inPort && !tx && !rx }
    if fresh then s1.event b 0x0E06 [wd k.val] else s1

/-- LANE_TX_WAKE_DONE (R546, R548). -/
def execLaneTxWakeDone (b : BayNo) (k : Fin 24) (s : State) : Out :=
  if !s.lanePowered b k || !(s.lane b k).tx.waking then .next s
  else .next ((s.modDir b k true LaneDir.woken).takeLane b k)

/-- LANE_RX_WAKE_DONE (R546 to R548): a signal has arrived, the CDR is locked and data are valid; the checker seeds again,
which is no loss of lock, from the bits `rx`. -/
def execLaneRxWakeDone (b : BayNo) (k : Fin 24) (rx : List Bool) (s : State) : Out :=
  if !s.lanePowered b k || !(s.lane b k).rx.waking then .next s
  else
    let s1 := (s.modDir b k false LaneDir.woken).modLane b k fun l => { l with signal := true, cdr := true, mark := s.nowAt b, lockAt := s.nowAt b }
    let s2 := s1.takeLane b k
    .next (s2.modLane b k fun l => { l with chk := s2.chkRuns b k && s2.locksOn b k rx })

/-- LANE_SIGNAL_DETECT (R546): a sleeping receiver's detector sees a signal for 1 µs; with RX_AUTOWAKE it wakes itself. -/
def execLaneSignalDetect (b : BayNo) (k : Fin 24) (s : State) : Out :=
  if !s.lanePowered b k || (s.lane b k).rx.awake then .next s
  else
    let s1 := s.modLane b k fun l => { l with signal := true }
    .next (if s.fldB Fld.lneRxAutowake b k.val then s1.modDir b k false LaneDir.askWake else s1)

/-- The JESD204 stream of a lane the test logic took loses alignment (R583); a lane of an external link leaves it (R594). The
commands of the other ports carry out what they lose. -/
def State.lostLane (s : State) (b : BayNo) (k : Fin 24) : State :=
  let taken := (s.lane b k).txTaken || (s.lane b k).rxTaken
  match s.claimOf b k with
  | some c => match c.port with
    | .jesd x =>
      if h : x < 2 then
        let p := xsPort ⟨x, h⟩
        let y := (s.bay b).ddc[p]
        if (s.lane b k).rxTaken && y.aligned && y.stopped.isNone && !s.replayed b p then s.stopStream b p (s.nowAt b) 0 false else s
      else s
    | .lanil n =>
      if h : n < 2 then
        let j := k.val - c.first
        if taken && decide ((s.ext ⟨n, h⟩).stage = .framed) && (s.ext ⟨n, h⟩).lanesUp.getLsbD j then
          (s.modExt ⟨n, h⟩ fun x => { x with lanesUp := x.lanesUp &&& ~~~(BitVec.ofNat 8 (2 ^ j)) }).changeWidth ⟨n, h⟩
        else s
      else s
    | _ => s
  | none => s

/-- A generator that begins, or changes its pattern, sends the pattern of its code, inverted where the lane's polarity field is set
(R539): the output holds the code, the polarity and the modulation. -/
def State.tellPattern (s : State) (b : BayNo) (k : Fin 24) (old : State) : State :=
  if s.genRuns b k && (!old.genRuns b k || decide ((s.lane b k).genCode ≠ (old.lane b k).genCode)) then
    s.emit (.packet "LANE_PATTERN" (24 * b.val + k.val)
      [wd (s.lane b k).genCode, wd (bitW (s.fldB Fld.lneTxPol b k.val)), wd (bitW (s.lanePam4 b k))])
  else s

/-- LNE_Lk_TEST takes a value (R539, R540, R543, R550). Setting a PRBS bit on a port's lane acts only while LNE.TEST_ALLOW is 1, and
lanes of the control endpoint ignore both bits. The checker is left unlocked; the answer says whether the write acted. -/
def State.setTest (s : State) (b : BayNo) (k : Fin 24) (v : BitVec 10) : State × Bool :=
  let w := if s.controlLane b k then v &&& 0x0FF else v
  if (v.getLsbD 8 || v.getLsbD 9) && !s.testQuad b k && !s.controlLane b k && !s.fldB Fld.lneTestAllow b then (s, false)
  else
    let s1 := (s.accrue b k).modLane b k fun l => { l with test := w }
    ((((s1.takeLane b k).lostLane b k).modLane b k fun l => { l with chk := false }).tellPattern b k s, true)

/-- LANE_TEST_WRITE (R539, R540, R543, R550): LNE_Lk_TEST is written with `v`; the checker seeds from the bits `rx` at the lane's
pin. -/
def execLaneTestWrite (b : BayNo) (k : Fin 24) (v : BitVec 10) (rx : List Bool) (s : State) : Out :=
  if !s.lanePowered b k then .next (s.fencedAccess b (.quad ⟨k.val / 4, by omega⟩))
  else
    let x := s.setTest b k v
    .next (if x.2 then x.1.reseed b k (x.1.locksOn b k rx) else x.1)

/-- ERR_INJECT (R540): one bit of the generator's next output is inverted while the generator is on. -/
def execErrInject (b : BayNo) (k : Fin 24) (s : State) : Out :=
  if s.genRuns b k then .next (s.emit (.packet "LANE_BIT_ERROR" (24 * b.val + k.val) [])) else .next s

end Sys2Proof.Machine
end

