-- ==== Sys2Proof/Machine/Lnl.lean ====
section
/-! DEFINITION. The Lanil fabric: links, packets, routes, islands, rejoin and the link injectors (R590 to R625, R161 to
R163). -/
namespace Sys2Proof.Machine

/-! ### Links and routes -/

/-- The bay at the other end of a fabric port (R15). -/
def peerBay (b : BayNo) (d : Nat) : BayNo := ⟨(b.val ^^^ 2 ^ d) % 8, Nat.mod_lt _ (by decide)⟩

/-- Change a fabric port. -/
def State.modPortL (s : State) (b : BayNo) (p : Fin 3) (f : LinkPort → LinkPort) : State :=
  s.modLnl b fun l => { l with ports := l.ports.set p (f l.ports[p]) }

/-- The die-to-die link of dimension `d` at bay `b` carries packets: both ends are up (R591). -/
def State.d2dUp (s : State) (b : BayNo) (d : Nat) : Bool :=
  if h : d < 3 then
    s.alive b && s.alive (peerBay b d) && (s.bay b).lnl.ports[d].up && (s.bay (peerBay b d)).lnl.ports[d].up
  else false

/-- The first path of exactly `n` hops whose dimensions form the smallest sequence. -/
def pathOf (up : BayNo → Nat → Bool) (dims : List Nat) (a b : BayNo) : Nat → Option (List Nat)
  | 0 => if a = b then some [] else none
  | n + 1 => dims.findSome? fun d => if up a d then (pathOf up dims (peerBay a d) b n).map (d :: ·) else none

/-- The route over links that are up: the shortest path, and among equals the smallest sequence of dimensions (R601,
R602). -/
def State.route (s : State) (a b : BayNo) : Option (List Nat) :=
  (List.range 8).findSome? fun n => pathOf s.d2dUp (List.range s.part.log2) a b n

/-- A bay recomputes its routes (R602, R606). -/
def State.reroute (s : State) (b : BayNo) : State :=
  s.modLnl b fun l => { l with routes := Vector.ofFn fun (c : Fin 8) => if s.alive c then s.route b c else none }

/-- The bays connected with a bay, itself included, in number order. -/
def State.component (s : State) (b : BayNo) : List BayNo := s.liveBays.filter fun c => (s.route b c).isSome

/-- The largest number of hops between two bays of a set (R161, R163). -/
def State.diameter (s : State) (bs : List BayNo) : Nat :=
  bs.foldl (fun n a => bs.foldl (fun n c => max n (((s.route a c).map (·.length)).getD 0)) n) 0

/-- The largest number of external hops between two packages (R161, R163). -/
def State.extHops (s : State) : Nat :=
  match s.pkgN Fld.lnlShoalSize with
  | 0 => 0
  | 1 => 0
  | 2 => 1
  | 3 => if s.lnl.cuts.isEmpty then 1 else 2
  | _ => if s.lnl.cuts.isEmpty then 2 else 3

/-- The link of the ring of packages that external link `n` is (R605): link 0 leads to package p + 1. -/
def State.ringLink (s : State) (n : Fin 2) : Nat :=
  let z := max 1 (s.pkgN Fld.lnlShoalSize)
  (s.packageNo.toNat + (if n = 0 then 0 else z - 1)) % z

/-- d_in of the other members: of the largest part learned, or 3 until every member's bay count is known (R162). -/
def State.otherDiameter (s : State) : Nat :=
  let n := s.pkgN Fld.lnlShoalSize
  if n ≤ 1 then 0
  else if s.tbs.memberBays.length + 1 < n then 3
  else s.tbs.memberBays.foldl (fun m x => max m (Nat.log2 (x % 16))) 0

/-- T_b in ns from the current routes of the mainland and what the other members state of theirs (R161 to R163, R611). -/
def State.broadcastBound (s : State) : Nat :=
  let d := max (s.diameter (s.component 0)) (max s.otherDiameter s.tbs.otherDin)
  (d + d) * 9 + s.extHops * 72 + 16

/-- T_b of the package alone, as for a shoal of one (R65, R161). -/
def State.ownBound (s : State) : Nat := 2 * s.diameter (s.component 0) * 9 + 16

/-- T_b is computed from the routes there are. -/
def State.setBound (s : State) : State := s.modTbsPkg fun y => { y with tb := s.broadcastBound, tbOwn := s.ownBound }

/-- The headland recomputes T_b. It raises EV_TB_CHANGED each time a lost link is the reason, and otherwise when the value changes
(R163, R614). -/
def State.retime (s : State) : State :=
  let t := s.broadcastBound
  if !s.alive 0 || (decide (t = s.tbs.tb) && !s.tbs.lossDue) then s
  else (s.modTbsPkg fun y => { y with tb := t, tbOwn := s.ownBound, lossDue := false }).event 0 0x0321 []

/-- The fault of a die-to-die link (MON_FAULT_LAST 3), named by its lower bay. -/
def linkFault (b : BayNo) (d : Nat) : FaultId := { code := 3, bay := if b.val ≤ (peerBay b d).val then b else peerBay b d, part := d }

/-- A topology update is broadcast to every bay (R606). -/
def State.callUpdate (s : State) : State := s.eachBay s.liveBays fun s b => s.modLnl b fun l => { l with updateDue := true }

/-- A rejoin that a new failure cuts off again is abandoned (R616). -/
def State.checkRejoin (s : State) : State :=
  match s.lnl.rejoin with
  | none => s
  | some r =>
    if (if r.island.packages = 0 then (s.route r.island.holder 0).isNone else (List.finRange 2).all fun n => !(s.ext n).port.up)
    then (s.modLnlPkg fun y => { y with rejoin := none }) else s

/-- A fabric port is declared down, with its cause: 0 replay, 1 no flit, 2 module (R591, R597, R606, R625). It retrains its modules
from 1 ms on. -/
def State.fabricDown (s : State) (b : BayNo) (p : Fin 3) (cause : Nat) : State :=
  let q := peerBay b p.val
  let drop := fun (x : LinkPort) =>
    { x with up := false, downs := x.downs + 1, congested := false, streak := 0, unacked := 0
             modules := if cause = 2 then x.modules else 0, retrainAt := later (s.nowAt b) (ofMs 1) }
  let s1 := ((s.modPortL b p drop).modPortL q p drop).event b 0x1201 [wd b.val, wd p.val, wd cause]
  (((s1.faultOpen (linkFault b p.val) s1.now).modTbsPkg fun y => { y with lossDue := true }).callUpdate).checkRejoin

/-- An external link is declared down: it comes up anew, and the shoal's packages reroute (R597, R603, R608). -/
def State.extDown (s : State) (n : Fin 2) (cause : Nat) : State :=
  let b := s.linkBay
  let drop := fun (x : LinkPort) => { x with up := false, downs := x.downs + 1, congested := false, streak := 0, unacked := 0 }
  let s1 := (s.modExt n fun x => { x with port := drop x.port }).event b 0x1201 [wd b.val, wd (3 + n.val), wd cause]
  let s2 := (s1.modLnlPkg fun y => { y with cuts := (s1.ringLink n :: y.cuts).eraseDups }).modTbsPkg fun y => { y with lossDue := true }
  ((s2.beginLink n).callUpdate).checkRejoin

/-- Port or link `p` of a bay: 0 to 2 fabric ports, 3 and 4 the external links of the link bay. -/
def State.linkPort (s : State) (b : BayNo) (p : Fin 5) : Option LinkPort :=
  if h : p.val < 3 then some (s.bay b).lnl.ports[p.val]
  else if b = s.linkBay then some (s.ext ⟨p.val - 3, by omega⟩).port else none

/-- Change port or link `p`. -/
def State.modLinkPort (s : State) (b : BayNo) (p : Fin 5) (f : LinkPort → LinkPort) : State :=
  if h : p.val < 3 then s.modPortL b ⟨p.val, h⟩ f
  else s.modExt ⟨p.val - 3, by omega⟩ fun x => { x with port := f x.port }

/-- Declare port or link `p` down. -/
def State.linkDown (s : State) (b : BayNo) (p : Fin 5) (cause : Nat) : State :=
  if h : p.val < 3 then s.fabricDown b ⟨p.val, h⟩ cause else s.extDown ⟨p.val - 3, by omega⟩ cause

/-- The port or link is up. -/
def State.isUp (s : State) (b : BayNo) (p : Fin 5) : Bool := s.alive b && ((s.linkPort b p).map (·.up)).getD false

/-! ### Flits and packets -/

/-- The CRC of a flit passes: CRC-32C over its first 60 bytes (R596). -/
def flitGood (f : Vector Word 16) : Bool := decide (crc32c (wordsBytes (f.toList.take 15)) = f[15])

/-- FLIT_RECEIVE (R596, R597): a flit in sequence whose CRC passes is acknowledged and acknowledges the partner's flits;
another makes the receiver ask for a replay. One that is not good while a replay is awaited fails it, and eight failed replays in a row
take the link down (log entry 82). -/
def execFlitReceive (b : BayNo) (p : Fin 5) (f : Vector Word 16) (s : State) : Out :=
  match s.linkPort b p with
  | none => .next s
  | some x =>
    if !s.isUp b p then .next s
    else
      let seq := f[0].extractLsb' 0 12
      let ack := f[0].extractLsb' 12 12
      if flitGood f && decide (seq = x.expect) then
        let s1 := s.modLinkPort b p fun x =>
          { x with expect := x.expect + 1, streak := 0, unacked := min x.unacked (x.sendSeq - ack - 1).toNat }
        .next (s1.emit (.packet "FLIT_ACK" (8 * p.val + b.val) [seq.setWidth 32]))
      else
        let s1 := s.modLinkPort b p fun x => { x with replays := x.replays + 1, streak := x.streak + 1 }
        let s2 := s1.emit (.packet "REPLAY_REQUEST" (8 * p.val + b.val) [x.expect.setWidth 32])
        .next (if x.streak ≥ 8 then s2.linkDown b p 0 else s2)

/-- LNL_FLIT_TIMEOUT (R597): no valid flit for 1 µs. -/
def execLnlFlitTimeout (b : BayNo) (p : Fin 5) (s : State) : Out :=
  if s.isUp b p then .next ((s.passTime (ofUs 1)).linkDown b p 1) else .next s

/-- LNL_LINK_DOWN (R591, R606, R608): a fabric port of which a module has gone down, `modules` being those still trained, or an
external link without a lane, is declared down. -/
def execLnlLinkDown (b : BayNo) (p : Fin 5) (modules : BitVec 4) (s : State) : Out :=
  if !s.isUp b p || (decide (p.val < 3) && decide (modules = 0xF)) then .next s
  else if h : p.val < 3 then
    let lose := fun (x : LinkPort) => { x with modules := modules }
    .next (((s.modPortL b ⟨p.val, h⟩ lose).modPortL (peerBay b p.val) ⟨p.val, h⟩ lose).linkDown b p 2)
  else .next (s.linkDown b p 2)

/-- Flits of a packet of `n` payload words: 16 bytes of header and the payload in 56-byte pieces (R596, R598). -/
def packetFlits (n : Nat) : Nat := ceilDiv (16 + 4 * n) 56

/-- The CRC-16 of a packet header is over words 0 to 2 and word 3 [15:0] (R598). -/
def headerGood (h : Vector Word 4) : Bool :=
  decide (crc16 ((wordsBytes [h[0], h[1], h[2]]) ++ (wordsBytes [h[3]]).take 2) = h[3].extractLsb' 16 16)

/-- A packet's class is one of R599 (5 to 7 are reserved). -/
def classGood (h : Vector Word 4) : Bool := decide (bits h[0].toNat 2 0 < 5)

/-- A packet is for this bay: its destination, or a broadcast to this package (R598). -/
def State.packetHere (s : State) (b : BayNo) (h : Vector Word 4) : Bool :=
  let w := h[0].toNat
  if bits w 18 18 = 1 then (bits h[3].toNat 3 0).testBit s.packageNo.toNat
  else decide (bits w 12 11 = s.packageNo.toNat) && decide (bits w 10 8 = b.val)

/-- Where a packet of another bay goes on: a fabric port towards its bay, or towards the link bay and there the external link
on the shorter way round the ring, link 0 when both are equally long (R593, R602, R603). -/
def State.nextPort (s : State) (b : BayNo) (h : Vector Word 4) : Option (Fin 5) :=
  let w := h[0].toNat
  let pkg := bits w 12 11
  let n := max 1 (s.pkgN Fld.lnlShoalSize)
  let own := s.packageNo.toNat
  if pkg = own then s.injectorTo b ⟨bits w 10 8 % 8, Nat.mod_lt _ (by decide)⟩
  else if b ≠ s.linkBay then s.injectorTo b s.linkBay
  else
    let fwd := (pkg + n - own) % n
    let first : Fin 2 := if 2 * fwd ≤ n then 0 else 1
    let other : Fin 2 := if first = 0 then 1 else 0
    if (s.ext first).port.up then some ⟨3 + first.val, by omega⟩
    else if (s.ext other).port.up then some ⟨3 + other.val, by omega⟩ else none

/-- Send a packet out of port or link `p`: its flits enter the replay buffer (R597). -/
def State.sendOut (s : State) (b : BayNo) (p : Fin 5) (h : Vector Word 4) (payload : List Word) : State :=
  let n := packetFlits payload.length
  (s.modLinkPort b p fun x => { x with sendSeq := x.sendSeq + BitVec.ofNat 12 n, unacked := min 512 (x.unacked + n) }).emit
    (.packet "LANIL_SEND" (8 * p.val + b.val) (h.toList ++ payload))

/-- A header with one more hop taken, and its CRC over the new words (R598). -/
def oneHop (h : Vector Word 4) : Vector Word 4 :=
  let w0 := BitVec.ofNat 32 (h[0].toNat + 2 ^ 19)
  let c := crc16 ((wordsBytes [w0, h[1], h[2]]) ++ (wordsBytes [h[3]]).take 2)
  (h.set 0 w0).set 3 (c ++ h[3].extractLsb' 0 16)

/-- The ports and links of a bay that a broadcast received at `p` goes on by: every other one that is up, the external links only for
other packages (R593, R598; DEDUCED, log entry 82). -/
def State.floodPorts (s : State) (b : BayNo) (p : Fin 5) (h : Vector Word 4) : List (Fin 5) :=
  let others := (List.range 4).any fun k => decide (k ≠ s.packageNo.toNat) && (bits h[3].toNat 3 0).testBit k
  (List.finRange 5).filter fun q => decide (q ≠ p) && s.isUp b q && (decide (q.val < 3) || others)

/-- FABRIC_PACKET_RX (R21, R29, R598 to R600, R606): a packet received whole at port or link `p` of bay `b` is discarded and
counted when its class is reserved or its header CRC fails, delivered once when it is for this bay, and forwarded with
one more hop otherwise; a broadcast goes on the first time it comes. What it carries takes effect by the commands that the carried
class has of its own. -/
def execFabricPacketRx (b : BayNo) (p : Fin 5) (h : Vector Word 4) (payload : List Word) (s : State) : Out :=
  if !s.isUp b p then .next s
  else if !headerGood h || !classGood h then .next (s.modLinkPort b p fun x => { x with replays := x.replays + 1 })
  else
    let w := h[0].toNat
    let key := 8 * bits w 17 13 + bits w 2 0
    let old := Sparse.get 0 s.lnl.tags (8 * key + b.val)
    let fresh := decide ((h[1] - old).toInt ≥ 0)
    let here := s.packetHere b h
    let cast := decide (bits w 18 18 = 1)
    let s0 := if fresh && (here || cast) then
        (s.modLnlPkg fun y => { y with tags := Sparse.set 0 s.lnl.tags (8 * key + b.val) (h[1] + 1) })
      else s
    let s1 := if here && fresh then s0.emit (.packet "LANIL_DELIVER" b.val (h.toList ++ payload)) else s0
    if cast then .next (if fresh then (s1.floodPorts b p h).foldl (fun s q => s.sendOut b q (oneHop h) payload) s1 else s1)
    else if here then .next s1
    else
      match s1.nextPort b h with
      | none => .next s1
      | some q => .next (s1.sendOut b q (oneHop h) payload)

/-! ### Topology -/

/-- Mark a port as congested or not, with its event once per epoch (R607). -/
def State.markFull (s : State) (b : BayNo) (p : Fin 3) (full : Bool) : State :=
  let told := (s.bay b).lnl.ports[p].congTold
  let s1 := s.modPortL b p fun x => { x with congested := full, congTold := x.congTold || full }
  if full && !told then s1.event b 0x1204 [wd p.val] else s1

/-- Every bay has acted on the last topology update. -/
def State.settled (s : State) : Bool := s.liveBays.all fun b => !(s.bay b).lnl.updateDue

/-- What the update tells the headland of the shoal: the links of the ring of packages that are down, and the largest in-package
diameter of the other members. A change there is the loss of a link (R163, R604, R608). -/
def State.hearShoal (s : State) (cuts : BitVec 4) (din : Fin 4) : State :=
  let l := (List.range 4).filter fun k => cuts.getLsbD k
  let lost := l.any (fun k => !s.lnl.cuts.contains k) || decide (s.tbs.otherDin < din.val)
  (s.modLnlPkg fun y => { y with cuts := l }).modTbsPkg fun y => { y with otherDin := din.val, lossDue := y.lossDue || lost }

/-- TOPOLOGY_UPDATE (R602, R604, R606 to R608, R163): bay `b` recomputes its routes and sends held packets on them; `cuts`
are the links of the ring of packages that are down, `din` the largest in-package diameter of the other members, and `full` the
bay's ports that the reroute loads beyond their rate. The headland recomputes T_b. With the last bay the interruption of the lost
link ends (R746). In a shoal an update of another package reaches the headland by itself. -/
def execTopologyUpdate (b : BayNo) (cuts : BitVec 4) (din : Fin 4) (full : BitVec 3) (s : State) : Out :=
  let shoal := decide (b = 0) && decide (s.pkgN Fld.lnlShoalSize > 1)
  if !s.alive b || !((s.bay b).lnl.updateDue || shoal) then .next s
  else
    let due := (s.bay b).lnl.updateDue
    let s1 := if due then (s.reroute b).modLnl b fun l => { l with updateDue := false, reroutes := l.reroutes + 1 } else s
    let s2 := (List.finRange 3).foldl (fun s p => s.markFull b p (full.getLsbD p.val && (s.bay b).lnl.ports[p].up)) s1
    let s3 := if b = 0 then (if shoal then s2.hearShoal cuts din else s2).retime else s2
    .next (if s3.settled then
      (s3.faults.opened.filter fun o => decide (o.id.code = 3)).foldl (fun s o => s.faultEnd o.id) s3
    else s3)

/-- FABRIC_PORT_RETRAIN (R591): a port that is down retrains, every 1 ms; `modules` are those now trained. -/
def execFabricPortRetrain (b : BayNo) (p : Fin 3) (modules : BitVec 4) (s0 : State) : Out :=
  if !s0.alive b || (s0.bay b).lnl.ports[p].up || decide (p.val ≥ s0.part.log2) then .next s0
  else
    let s := s0.reach (s0.bay b).lnl.ports[p].retrainAt
    let put := fun (x : LinkPort) => { x with modules := modules, retrainAt := later (s.nowAt b) (ofMs 1) }
    .next ((s.modPortL b p put).modPortL (peerBay b p.val) p put)

/-- LNL_LINK_UP (R591, R605, R606, R616): a fabric port whose four modules are trained, or an external link whose lanes are up and
whose ends agree, joins the fabric; while a reroute is under way it waits. -/
def execLnlLinkUp (b : BayNo) (p : Fin 5) (s : State) : Out :=
  if !s.alive b || !s.settled then .next s
  else if h : p.val < 3 then
    let q := peerBay b p.val
    let x := (s.bay b).lnl.ports[p.val]
    if x.up || decide (x.modules ≠ 0xF) || !s.alive q || decide (p.val ≥ s.part.log2) then .next s
    else
      let on := fun (x : LinkPort) => { x with up := true, streak := 0, expect := 0, sendSeq := 0, unacked := 0 }
      let s1 := ((s.modPortL b ⟨p.val, h⟩ on).modPortL q ⟨p.val, h⟩ fun x => { on x with modules := 0xF }).event b 0x1202 [wd p.val]
      .next ((s1.faultRepair (linkFault b p.val)).callUpdate)
  else
    let n : Fin 2 := ⟨p.val - 3, by omega⟩
    let x := s.ext n
    if decide (b ≠ s.linkBay) || x.port.up || !x.matched || x.held || decide (x.stage ≠ .framed) || decide (x.lanesUp = 0) then .next s
    else
      let s1 := s.modExt n fun x => { x with port := { x.port with up := true, streak := 0, expect := 0, sendSeq := 0, unacked := 0 } }
      let s2 := s1.modLnlPkg fun y =>
        { y with cuts := y.cuts.filter fun k => decide (k ≠ s1.ringLink n), split := y.split && (s1.bay 0).lnl.island.isSome }
      .next ((s2.event b 0x1202 [wd p.val]).callUpdate)

/-- The fault of a lane of an external link (MON_FAULT_LAST 1). -/
def State.laneFault (s : State) (n : Fin 2) : FaultId := { code := 1, bay := s.linkBay, part := n.val }

/-- LNL_LANE_FAIL (R594, R744, R747): lane `j` of a running external link fails and leaves it; without a lane the link is
down. -/
def execLnlLaneFail (n : Fin 2) (j : Fin 8) (s : State) : Out :=
  let x := s.ext n
  if decide (x.stage ≠ .framed) || !x.lanesUp.getLsbD j.val || !s.alive s.linkBay then .next s
  else
    let b := s.linkBay
    let k := s.extLane n j.val
    let s1 := ((s.accrue b k).modLane b k fun l => { l with inPort := false, cdr := false, chk := false, eyeValid := false }).modExt n
      fun x => { x with lanesUp := x.lanesUp &&& ~~~(BitVec.ofNat 8 (2 ^ j.val)) }
    let s2 := (s1.changeWidth n).faultOpen (s.laneFault n) s.now
    .next (if (s2.ext n).lanesUp = 0 then s2.extDown n 2 else s2)

/-- LNL_WIDTH_RESUME (R594, R746): traffic resumes at the new width. -/
def execLnlWidthResume (n : Fin 2) (s : State) : Out :=
  if !(s.ext n).paused then .next s
  else .next ((s.modExt n fun x => { x with paused := false }).faultEnd (s.laneFault n))

/-! ### Shoals -/

/-- The package that the partner on a link must be (R605). -/
def State.partnerOf (s : State) (n : Fin 2) : Nat :=
  let z := max 1 (s.pkgN Fld.lnlShoalSize)
  (s.packageNo.toNat + (if n = 0 then 1 else z - 1)) % z

/-- Learn the bay count of another member (R162, R605); an entry holds 16 × package + bays. -/
def State.learnBays (s : State) (e : Nat × Nat) : State :=
  if e.1 = s.packageNo.toNat then s
  else (s.modTbsPkg fun y => { y with memberBays := (16 * e.1 + e.2) :: s.tbs.memberBays.filter fun x => decide (x / 16 ≠ e.1) })

/-- SHOAL_EXCHANGE_RX (R97, R162, R605): the partner on a link states its shoal size, its package number, the bay counts it knows,
its own among them, and the hash of its SHOAL payload. A match opens the link, and what is new goes on round the ring; a mismatch holds
it. -/
def execShoalExchangeRx (n : Fin 2) (size package : Nat) (counts : List (Nat × Nat)) (hash : List Byte) (s : State) : Out :=
  if decide ((s.ext n).stage ≠ .framed) || (s.ext n).port.up || !s.alive s.linkBay then .next s
  else
    let good := decide (size = s.pkgN Fld.lnlShoalSize) && decide (package = s.partnerOf n) && decide (hash = s.shoalHash)
    if good then
      let s1 := s.modExt n fun x => { x with matched := true, held := false, mismatchTold := false, peer := BitVec.ofNat 2 package }
      let s2 := (counts.foldl State.learnBays s1).retime
      let on : Fin 2 := if n = 0 then 1 else 0
      let s2 := if decide (s2.tbs.memberBays ≠ s.tbs.memberBays) && decide ((s2.ext on).stage = .framed) then s2.offerExchange on else s2
      let seen := !s2.lnl.leaderSeen
      .next (if seen then (s2.modLnlPkg fun y => { y with leaderSeen := true }).event 0 0x0133 [] else s2)
    else
      let told := (s.ext n).mismatchTold
      let s1 := s.modExt n fun x =>
        { x with matched := false, held := true, mismatchTold := true, peer := BitVec.ofNat 2 package
                 retryAt := later (s.nowAt s.linkBay) (ofMs 1000) }
      .next (if told then s1 else s1.event s.linkBay 0x1213 [wd n.val])

/-- SHOAL_MISMATCH_RETRY (R605): a held link offers its exchange again, every second. -/
def execShoalMismatchRetry (n : Fin 2) (s0 : State) : Out :=
  if !(s0.ext n).held then .next s0
  else
    let s := s0.reach (s0.ext n).retryAt
    .next ((s.modExt n fun x => { x with retryAt := later x.retryAt (ofMs 1000) }).offerExchange n)

/-! ### Islands -/

/-- Bays enter an island (R147, R609, R610, R612, R613, R616): their records carry ISLANDED and HOLDOVER, their counters run on, and an
acquisition restart that waits is left to their next one after the rejoin. -/
def State.enterIsland (s : State) (bs : List BayNo) (i : Isle) : State :=
  (s.modImg fun y => { y with restartReq := bs.foldl (fun (m : Nat) b => if m.testBit b.val then m - 2 ^ b.val else m) y.restartReq }).eachBay bs fun s b =>
    (s.modLnl b fun l =>
      { l with island := some i, islandDrop := 0, isles := beginSpan (s.nowAt b) l.isles, holds := beginSpan (s.nowAt b) l.holds }).modTbs b
      fun x => { x with islanded := true, removing := none }

/-- An island in the time of its holder `h`, whose grid goes on from the last boundary (R610, R612). -/
def State.isleOf (s : State) (bays : BitVec 8) (h : BayNo) (package : BitVec 2) (packages : BitVec 4) : Isle :=
  { bays := bays, holder := h, holderPackage := package, packages := packages, since := s.nowAt h
    gridFrom := (s.bay h).tbs.epochStart, gridAt := (s.bay h).tbs.epoch }

/-- An island without bay `b`: when that bay held its time, the next-lowest one takes over (R610, R616). -/
def Isle.without (i : Isle) (b : BayNo) : Isle :=
  let m := i.bays &&& ~~~(BitVec.ofNat 8 (2 ^ b.val))
  { i with bays := m, holder := if i.holder = b then (((List.finRange 8).find? fun c => m.getLsbD c.val).getD b) else i.holder }

/-- A bay that is lost leaves its island (R125, R616). -/
def State.leaveIsland (s : State) (b : BayNo) : State :=
  match (s.bay b).lnl.island with
  | none => s
  | some i =>
    let left := i.without b
    let s1 := s.eachBay (s.liveBays.filter fun c => decide ((s.bay c).lnl.island = some i)) fun s c => s.modLnl c fun l => { l with island := some left }
    s1.modLnlPkg fun y => { y with rejoin := y.rejoin.map fun r => if r.island = i then { r with island := left } else r }

/-- ISLAND_DECLARED (R609 to R613, R163): the connected set of bay `b` no longer reaches the headland although its alive lines are
high, or, with `packages` naming the packages still connected with this one, the package no longer reaches the rest of its
shoal. On the leader's side EV_SHOAL_SPLIT is raised. -/
def execIslandDeclared (b : BayNo) (packages : BitVec 4) (s : State) : Out :=
  if !s.alive b then .next s
  else if packages = 0 then
    let c := s.component b
    let m := BitVec.ofNat 8 (maskOf c)
    if decide (0 ∈ c) || (s.bay b).lnl.island.any (fun i => decide (i.bays = m)) then .next s
    else
      let h : BayNo := c.headD b
      let s1 := s.enterIsland c (s.isleOf m h s.packageNo 0)
      let s2 := (if s1.alive 0 then s1.event 0 0x1210 [m.setWidth 32, wd h.val] else s1)
      .next s2.retime
  else if s.pkgN Fld.lnlShoalSize ≤ 1 ∨ !packages.getLsbD s.packageNo.toNat ∨ s.lnl.split then .next s
  else
    let s1 := (s.modLnlPkg fun y => { y with split := true })
    if packages.getLsbD 0 then .next (if s.packageNo = 0 then s1.event 0 0x1211 [] else s1)
    else
      let c := s1.component 0
      let p := ((List.range 4).find? fun i => packages.getLsbD i).getD 0
      let i := s.isleOf (BitVec.ofNat 8 (maskOf c)) 0 (BitVec.ofNat 2 p) packages
      .next ((s1.enterIsland c i).event 0 0x1210 [i.bays.setWidth 32, 0])

/-- What rejoins with bay `b`: its island, or, when the leader has restarted its image and is back, the whole package (R99, R614). -/
def State.rejoiner (s : State) (b : BayNo) : Option Isle :=
  match (s.bay b).lnl.island with
  | some i => some i
  | none =>
    if s.tbs.away.isSome && decide (b = 0) && s.tbs.leader.any (fun l => !l.restarting) then
      some { s.isleOf (BitVec.ofNat 8 (maskOf s.liveBays)) 0 s.packageNo (BitVec.ofNat 4 (2 ^ s.packageNo.toNat)) with since := s.tbs.away.getD 0 }
    else none

/-- The offset of an island's counter against the mainland's: of an island within the package that of its time holder's counter against
the headland's; of a package what the round trip gave, `off` (R144, R614). -/
def State.isleOffset (s : State) (i : Isle) (off : Int) : Int :=
  if i.packages = 0 then stampDiff (s.nowAt i.holder) s.now else off

/-- REJOIN_MEASURE (R99, R614): a link has joined the island of bay `b` to the mainland again, or a leader that restarted its image
is back, and the time holder measures its offset, island minus mainland. The rejoin waits for the first boundary at least
T_b + 1 µs away. -/
def execRejoinMeasure (b : BayNo) (off : Int) (s : State) : Out :=
  match s.rejoiner b with
  | none => .next s
  | some i =>
    let joined := if i.packages = 0 then s.alive 0 && (s.route i.holder 0).isSome
      else (List.finRange 2).any fun n => (s.ext n).port.up
    if !s.alive b || !joined || s.lnl.rejoin.isSome then .next s
    else .next (s.modLnlPkg fun y => { y with rejoin := some { island := i, offset := s.isleOffset i off, boundary := s.boundaryFrom s.epochLead } })

/-- The TIME_REJOIN record (R615). -/
def State.rejoinBody (_s : State) (r : Rejoin) (step : Bool) (dropped : Nat) : RecBody :=
  { typ := .timeRejoin, source := 0xE2, stamp := r.boundary
    payload := stampWords (BitVec.ofInt 96 r.offset) ++ stampWords r.island.since ++
      [wd (r.island.bays.toNat + 256 * r.island.packages.toNat + 4096 * bitW step), wd (min dropped 0xFFFFFFFF)] }

/-- ISLAND_REJOIN (R614, R615, R152, R163): at the boundary the island's bays slave to the mainland again, their counters step or
begin to slew the offset out, and the record and the event are emitted. -/
def execIslandRejoin (s0 : State) : Out :=
  match s0.lnl.rejoin with
  | none => .next s0
  | some r =>
    let s := s0.reach r.boundary
    let bs := s.liveBays.filter fun b => r.island.bays.getLsbD b.val
    let dropped := bs.foldl (fun n b => n + (s.bay b).lnl.islandDrop) 0
    let step := decide (r.offset.natAbs > ofUs (s.pkgN Fld.tbsStepThreshold)) && s.stepAllowed
    let gone := step || decide (r.offset = 0)
    let s1 := s.eachBay bs fun s b =>
      (s.modLnl b fun l =>
        { l with
          island := none, islandDrop := 0
          isles := closeSpan (if gone then r.boundary else s.nowAt b) l.isles
          holds := if gone then closeSpan r.boundary l.holds else l.holds }).modTbs b
        fun x =>
          { x with
            islanded := false, addend := (s.bay 0).tbs.addend, tide := if step then x.tide - BitVec.ofInt 128 (r.offset * 2 ^ 32) else x.tide
            epoch := (s.bay 0).tbs.epoch, epochStart := (s.bay 0).tbs.epochStart
            removing := if gone then none else some (r.offset * 2 ^ 32) }
    let s2 := (s1.modLnlPkg fun y => { y with rejoin := none, split := s1.lnl.split && decide (r.island.packages = 0) }).modTbsPkg
      fun y => { y with away := none }
    let e := r.island.holder
    let q : Nat := s2.pkgN Fld.lnlRejoinQueue
    let s3 := if q < 128 then s2.enqueue e q (s2.rejoinBody r step dropped) else s2
    .next ((s3.event e 0x1212 (stampWords (BitVec.ofInt 96 r.offset) ++ [r.island.bays.setWidth 32, r.island.packages.setWidth 32])).retime)

/-- REJOIN_OFFSET_REMOVED (R614): the offset has been slewed out at TBS.SLEW_MAX, and records no longer carry HOLDOVER. -/
def execRejoinOffsetRemoved (s0 : State) : Out :=
  let bs := s0.liveBays.filter fun b => (s0.bay b).tbs.removing.isSome
  match bs with
  | [] => .next s0
  | b0 :: _ =>
    let off := ((s0.bay b0).tbs.removing.getD 0).natAbs
    let s := s0.passTime (ceilDiv (off * 1000000000000) (max 1 s0.slewMax.toNat * 2 ^ 32))
    .next (s.eachBay bs fun s b =>
      let d := (s.bay b).tbs.removing.getD 0
      let s1 := s.modTbs b fun x => { x with tide := x.tide - BitVec.ofInt 128 d, removing := none }
      s1.modLnl b fun l => { l with holds := closeSpan (s1.nowAt b) l.holds })

/-! ### Time across the links -/

/-- The delay over the links that a route crosses from bay `a`, as their far ends measured it, with the factory asymmetry (R144). -/
def State.routeDelay (s : State) (a : BayNo) : List Nat → Int
  | [] => 0
  | d :: l =>
    let c := peerBay a d
    (if h : d < 3 then ((s.bay c).lnl.ports[d].delay : Int) + Config.portAsym c d else 0) + s.routeDelay c l

/-- TBS_LINK_DELAY as a number: the delay from the counter that bay `b` slaves to; 0 in a headland that slaves to nothing and in an
island's time holder (R144, R145, R167). -/
def State.timeDelay (s : State) (b : BayNo) : Word :=
  let from_ := fun (a : BayNo) => s.routeDelay a ((s.route a b).getD [])
  Word.ofSigned (match (s.bay b).lnl.island with
    | some i => from_ i.holder
    | none =>
      if b ≠ 0 then from_ 0
      else match s.upstream with
        | none => 0
        | some n => (s.ext n).port.delay + s.fld Fld.tbsUpAsym 0)

/-- A follower hears the shoal's time over its upstream link, `d` after it was sent: it takes the leader's time and grid after its
own phase 8, and then its steering, its steps and its settings; while the leader restarts its image it holds over (R97, R99, R145,
R152). -/
def State.hearLeader (s : State) (l : LeaderTime) (d : Int) : State :=
  let s1 := s.modTbsPkg fun y => { y with leader := some l }
  let bs := s1.liveBays.filter fun b => !(s1.bay b).tbs.islanded
  if !s.alive 0 || !(s.bay 0).tbs.set || (s.bay 0).tbs.islanded then s1
  else if l.restarting then
    if s.tbs.away.isSome then s1
    else (s1.eachBay bs fun s b => s.modLnl b fun x => { x with holds := beginSpan (s.nowAt b) x.holds }).modTbsPkg fun y => { y with away := some s.now }
  else if s.tbs.away.isSome then s1
  else
    let off := stampDiff (moved l.stamp (quarterPs d)) s.now
    let fresh := decide ((s.bay 0).tbs.source ≠ .leader)
    let s2 := if s.tbs.adopted then s1
      else
        let g := l.grid
        ((s1.eachBay bs fun s b => (s.modBay b fun y => if fresh then y.shift off else y).modTbs b fun x =>
          { x with source := .leader, epoch := g.number, epochStart := g.start }).modGrid fun _ => g).modTbsPkg fun y => { y with adopted := true }
    (s2.steer l.rate).modServo fun v => { v with step := l.step }

/-- LINK_DELAY_MEASURE (R97, R144, R145, R167): the one-way delay of port or link `p` of bay `b` is measured by round trip, `d` in
0.25 ps. Over its upstream link a follower's headland hears the leader's time, `lead`; over another link the package sends the
shoal's time on, with TBS.DOWN_ASYM (DEDUCED, log entry 74). -/
def execLinkDelayMeasure (b : BayNo) (p : Fin 5) (d : Nat) (lead : Option LeaderTime) (s : State) : Out :=
  if !s.isUp b p then .next s
  else
    let s1 := s.modLinkPort b p fun x => { x with delay := d }
    if p.val < 3 ∨ s1.pkgN Fld.lnlShoalSize ≤ 1 then .next s1
    else if s1.upstream.any fun n => decide (n.val + 3 = p.val) then
      match lead with
      | none => .next s1
      | some l => .next (s1.hearLeader l (d + s1.fld Fld.tbsUpAsym 0))
    else if s1.packageNo = 0 ∨ s1.tbs.adopted then
      .next (s1.emit (.packet "SHOAL_TIME" (p.val - 3) (stampWords (moved s1.now (quarterPs (s1.fld Fld.tbsDownAsym 0))))))
    else .next s1

/-! ### Injectors -/

/-- What an injector held leaves: records to their queues, fires to their members. -/
def State.release (s : State) (b : BayNo) (ps : List HeldPacket) : State :=
  let (ev, s1) := s.arriveHeld b ps
  (s1.queueEvents ev).fireHeld ps

/-- LNL_INJ_DELAY_EXPIRE (R618 action 4): the first packet that injector `n` holds for a time is sent. -/
def execLnlInjDelayExpire (b : BayNo) (n : Fin 5) (s0 : State) : Out :=
  match (s0.bay b).lnl.injectors[n].held.find? fun h => h.due.isSome with
  | none => .next s0
  | some h =>
    if !s0.alive b then .next s0
    else
      let s := s0.reach (h.due.getD 0)
      .next ((s.modLink b n fun x => { x with held := x.held.erase h }).release b [h.packet])

/-! ### Registers -/

/-- LNL_PORT_STATUS and LNL_EXT_STATUS (R624). -/
def State.linkStatus (s : State) (b : BayNo) (p : Fin 5) : Word :=
  match s.linkPort b p with
  | none => 0
  | some x =>
    let act := bitW (decide (s.fldN Fld.lnlInjAction b p.val ≠ 0))
    if h : p.val < 3 then wd (bitW x.up + 2 * x.modules.toNat + 256 * bitW x.congested + 512 * act)
    else
      let e := s.ext ⟨p.val - 3, by omega⟩
      let lanes := (List.range 8).foldl (fun n j => n + bitW (e.lanesUp.getLsbD j)) 0
      wd (bitW x.up + 2 * lanes + 32 * bitW e.held + 64 * e.peer.toNat + 256 * bitW x.congested + 512 * act)

/-- The packages that this one reaches, as a mask (R622). -/
def State.packagesReached (s : State) : Nat :=
  let own := 2 ^ s.packageNo.toNat
  let up := (List.finRange 2).filter fun n => (s.ext n).port.up
  if up.isEmpty then own
  else if !s.lnl.split then 2 ^ s.pkgN Fld.lnlShoalSize - 1
  else up.foldl (fun m n => m ||| 2 ^ (s.ext n).peer.toNat) own

/-- LNL_STATUS (R623). -/
def State.lnlStatus (s : State) (b : BayNo) : Word :=
  let l := (s.bay b).lnl
  let z := s.pkgN Fld.lnlShoalSize
  let cut := s.liveBays.any fun a => (List.range s.part.log2).any fun d => !s.d2dUp a d
  wd ((if z ≤ 1 then 0 else if s.packageNo = 0 then 1 else 2) + 4 * s.packageNo.toNat + 16 * z + 128 * bitW l.island.isSome +
    256 * bitW (l.island.any fun i => decide (i.holder = b)) + 512 * bitW cut + 1024 * bitW (s.bay b).tbs.removing.isSome)

/-- The LNL registers (R622). -/
def State.lnlReg (s : State) (b : BayNo) (off : Nat) : Word :=
  let l := (s.bay b).lnl
  let reached := (List.finRange 8).foldl (fun m c => m + (if l.routes[c].isSome then 2 ^ c.val else 0)) 0
  let retry := fun (p : Fin 5) => match s.linkPort b p with
    | some x => x.downs ++ x.replays
    | none => 0
  match off with
  | 0x00 => s.lnlStatus b
  | 0x04 => wd (reached + 256 * s.packagesReached)
  | 0x08 => match l.island with
    | none => wd (maskOf (s.component b))
    | some i => wd (i.bays.toNat + 256 * i.holder.val + 2048 * i.holderPackage.toNat)
  | 0x10 => s.linkStatus b 0
  | 0x14 => s.linkStatus b 1
  | 0x18 => s.linkStatus b 2
  | 0x20 => s.linkStatus b 3
  | 0x24 => s.linkStatus b 4
  | 0x30 => retry 0
  | 0x34 => retry 1
  | 0x38 => retry 2
  | 0x40 => retry 3
  | 0x44 => retry 4
  | 0x50 => l.splitDrop
  | 0x54 => l.reroutes
  | _ =>
    if h : 0x60 ≤ off ∧ off < 0x74 then (l.injectors[(off - 0x60) / 4]).count
    else if h : 0x80 ≤ off ∧ off < 0xA0 then
      match l.routes[(off - 0x80) / 4] with
      | none => 0
      | some ds => wd (ds.headD 0 % 4 + 4 + 8 * ds.length)
    else 0

end Sys2Proof.Machine
end

