-- ==== Sys2Proof/Machine/Ports.lean ====
section
/-! DEFINITION. The commands of the PCI Express endpoints, the Ethernet ports, the PTP client and the JESD204 receivers
(R554 to R589). -/
namespace Sys2Proof.Machine

/-! ### PCI Express -/

/-- Change an endpoint of a bay. -/
def State.modPci (s : State) (b : BayNo) (j : Fin 5) (f : PciEp → PciEp) : State :=
  s.modBay b fun x => { x with pci := x.pci.set j (f x.pci[j]) }

/-- The port of an endpoint: 4 is the control endpoint, which lies in the headland (R554). -/
def pciPort (j : Fin 5) : PortId := if j = 4 then .control else .stream j.val

/-- The endpoint is present and its lanes run (R524, R554, R555). -/
def State.pciHere (s : State) (b : BayNo) (j : Fin 5) : Bool :=
  s.alive b && (s.portClaim b (pciPort j)).any fun c => c.lanes.any fun k => (s.bay b).pwr.quads[k.val / 4]'(by omega)

/-- The package-wide index of an endpoint (R555). -/
def State.pciIndex (s : State) (b : BayNo) (j : Fin 5) : Nat := if j = 4 then 0 else s.fldN Fld.pciSIndex b j.val

/-- The highest generation an endpoint is set to; the boot default is Gen4 (R95, R554). -/
def State.pciGen (s : State) (b : BayNo) (j : Fin 5) : Nat := if j = 4 then s.pkgN Fld.pciCtrlGen else s.fldN Fld.pciSGen b j.val

/-- The lanes an endpoint is set to. -/
def State.pciLanes (s : State) (b : BayNo) (j : Fin 5) : Nat := ((s.portClaim b (pciPort j)).map (·.count)).getD 0

/-- The endpoint with a package-wide index. -/
def State.endpoint (s : State) (idx : Nat) : Option (BayNo × Fin 5) :=
  (s.liveBays.flatMap fun b => (List.finRange 5).filterMap fun j =>
    if s.pciHere b j && decide (s.pciIndex b j = idx) && (decide (j ≠ 4) || decide (b = 0)) then some (b, j) else none).head?

/-- The function works: its link is up, and it may master the bus in D0 (R559). -/
def PciEp.works (e : PciEp) : Bool := e.linkUp && e.bme && !e.d3

/-- The function with an index works. -/
def State.endpointWorks (s : State) (idx : Nat) : Bool :=
  match s.endpoint idx with
  | none => false
  | some (b, j) => (s.bay b).pci[j].works

/-- What every endpoint carries in its configuration space (R555 to R557). -/
structure PciIdentity where
  classCode : BitVec 24
  serial : BitVec 64
  index : Nat
  bay : Nat
  bays : Nat
  /-- BAR0 and BAR2 in bytes; 0 is absent. -/
  bar0 : Nat
  bar2 : Nat
  /-- MSI-X vectors, the table's offset and the pending-bit array's, in the MSI-X BAR. -/
  vectors : Nat
  table : Nat
  pending : Nat
  deriving DecidableEq, Repr

/-- The identity of an endpoint (R28, R31, R555, R556). -/
def State.pciIdentity (s : State) (b : BayNo) (j : Fin 5) : PciIdentity :=
  { classCode := 0x118000, serial := Config.serial, index := s.pciIndex b j, bay := b.val, bays := s.part.bays
    bar0 := if j = 4 then s.part.bays * 0x4000000 else 0x10000, bar2 := if j = 4 then 0x10000 else 0, vectors := 256, table := 0
    pending := 0x8000 }

/-- PCIE_LINK_UP (R95, R529, R554, R557, R560, R589): an endpoint completes training at generation `gen` and width `width`.
After acceptance a link below its configured figure raises EV_PCI_DEGRADED. -/
def execPcieLinkUp (b : BayNo) (j : Fin 5) (gen width : Nat) (reversed : Bool) (s : State) : Out :=
  let lanes := s.pciLanes b j
  if !s.pciHere b j || !s.pinned b || decide (gen = 0) || decide (gen > s.pciGen b j) || !([4, 8, 16].contains width) || decide (width > lanes) then .next s
  else
    let low := s.img.image.isSome && (decide (gen < s.pciGen b j) || decide (width < lanes))
    let s1 := s.modPci b j fun e =>
      { e with linkUp := true, gen := BitVec.ofNat 3 gen, width := BitVec.ofNat 5 width, reversed := reversed, degraded := low }
    let s2 := s1.servePort b (pciPort j) true
    let s3 := if j = 4 then s2.event 0 0x0132 [] else s2.event b 0x0F01 [wd j.val]
    .next (if low then s3.event b 0x0F03 [wd j.val] else s3)

/-- Disable a channel's host ring: both offsets return to zero (R460); a record in progress is written again whole. -/
def DmaChan.ringOff (c : DmaChan) : DmaChan := { c with ringEnable := false, tail := 0, head := 0, sent := 0 }

/-- The configuration space returns to its defaults and the rings that the function served are disabled (R559). -/
def State.functionReset (s : State) (b : BayNo) (j : Fin 5) : State :=
  let idx := s.pciIndex b j
  let s1 := s.modPci b j fun e => { e with bme := false, d3 := false }
  let s2 := if j = 4 then s1.modImg fun i =>
      { i with cmd := i.cmd.configure (0 : Word) false, evt := i.evt.configure (0 : Word) true }
    else s1
  s2.eachBay s2.liveBays fun s q => (List.range 32).foldl (fun s n =>
    if h : n < 32 then
      if decide (s.fldN Fld.dmaMode q n = 1) && decide (s.fldN Fld.dmaEndpoint q n = idx) then
        s.modBay q fun x => { x with dma := { x.dma with chans := x.dma.chans.set n x.dma.chans[n].ringOff } }
      else s
    else s) s

/-- An endpoint whose link is up loses it (R559, R589). -/
def State.pcieDown (s : State) (b : BayNo) (j : Fin 5) : State :=
  if !(s.bay b).pci[j].linkUp then s
  else
    let s1 := (s.modPci b j fun e => { e with linkUp := false, downs := e.downs + 1 }).functionReset b j
    ((s1.servePort b (pciPort j) false).event b 0x0F02 [wd j.val]).event b 0x0F04 [wd j.val]

/-- PCIE_LINK_DOWN (R559, R589). -/
def execPcieLinkDown (b : BayNo) (j : Fin 5) (s : State) : Out := if !s.alive b then .next s else .next (s.pcieDown b j)

/-- PCIE_RESET (R559, R587): a hot reset or FLR. -/
def execPcieReset (b : BayNo) (j : Fin 5) (s : State) : Out :=
  if !s.alive b || !(s.bay b).pci[j].linkUp then .next s
  else .next (((s.modPci b j fun e => { e with resets := e.resets + 1 }).functionReset b j).event b 0x0F04 [wd j.val])

/-- The control endpoint answers configuration requests with Configuration Request Retry Status until an image is first accepted or
SAFE is entered (R95). -/
def State.retryConfig (s : State) : Bool := s.img.image.isNone && !s.img.boot.restart && decide (s.img.state ≠ .safe)

/-- PCIE_BME_CHANGE (R95, R559): Bus Master Enable and D3hot as the host sets them, by configuration requests. -/
def execPcieBmeChange (b : BayNo) (j : Fin 5) (bme d3 : Bool) (s : State) : Out :=
  if !s.alive b || !(s.bay b).pci[j].linkUp then .next s
  else if decide (j = 4) && s.retryConfig then .next (s.emit (.packet "CONFIG_RETRY" 4 []))
  else .next (s.modPci b j fun e => { e with bme := bme, d3 := d3 })

/-- The PCI registers (R587). -/
def State.pciReg (s : State) (b : BayNo) (off : Nat) : Word :=
  if h : off < 0x140 then
    let e := (s.bay b).pci[off / 0x40]
    match off % 0x40 with
    | 0 => wd (bitW e.linkUp + 2 * e.gen.toNat + 16 * e.width.toNat + 512 * bitW e.reversed + 1024 * bitW e.degraded + 2048 * bitW e.bme)
    | 4 => e.uncorrectable ++ e.correctable
    | 8 => e.resets ++ e.downs
    | _ => 0
  else 0

/-! ### Ethernet ports and streams -/

/-- Change an Ethernet port. -/
def State.modEth (s : State) (b : BayNo) (i : Fin 8) (f : EthPort → EthPort) : State :=
  s.modBay b fun x => { x with eth := x.eth.set i (f x.eth[i]) }

/-- Change a stream. -/
def State.modStream (s : State) (n : Fin 64) (f : EthStream → EthStream) : State :=
  (s.modEthPkg fun y => { y with streams := s.eth.streams.set n (f s.eth.streams[n]) })

/-- The bay and port of a package-wide port number (R561). -/
def ethPortOf (n : Nat) : BayNo × Fin 8 := (⟨n / 8 % 8, Nat.mod_lt _ (by decide)⟩, ⟨n % 8, Nat.mod_lt _ (by decide)⟩)

/-- The port is present. -/
def State.ethHere (s : State) (b : BayNo) (i : Fin 8) : Bool := s.alive b && s.fldB Fld.ethPEn b i.val && s.img.image.isSome

/-- The port carries traffic: its link is up, with its FEC locked where it has one and no fault (R572). -/
def State.ethWorks (s : State) (p : Nat) : Bool :=
  let (b, i) := ethPortOf p
  let e := (s.bay b).eth[i]
  s.ethHere b i && e.linkUp && (e.fecLock || decide (s.fldN Fld.ethPFec b i.val = 0)) && !e.localFault && !e.remoteFault

/-- Word `w` of the address of destination entry `d` (R564). -/
def State.destWord (s : State) (d w : Nat) : Word := Word.ofSigned (s.fld Fld.ethDest 0 0 (8 * d + w))

/-- Destination `d` is multicast: it maps to its MAC address without resolution (R564). -/
def State.multicast (s : State) (d : Nat) : Bool :=
  if isV4 (s.destWord d 0) (s.destWord d 1) (s.destWord d 2) then decide (bits (s.destWord d 3).toNat 31 28 = 0xE)
  else decide (bits (s.destWord d 0).toNat 31 24 = 0xFF)

/-- The destination of a stream is resolved on its port (R564). -/
def State.resolved (s : State) (n : Fin 64) : Bool :=
  let d := s.pkgN Fld.ethSDest n.val
  s.multicast d || s.eth.neighbours.any fun x => decide (x.port = s.streamPort n) && decide (x.dest = d) && x.resolved

/-- A stream may send (R451, R564, R572). -/
def State.streamReady (s : State) (n : Fin 64) : Bool :=
  s.ethWorks (s.streamPort n) && !s.eth.streams[n].failing && s.resolved n

/-- A stream exists: a DMA channel in mode 2 feeds it (R565). -/
def State.streamUsed (s : State) (n : Fin 64) : Bool :=
  s.liveBays.any fun b => (List.range 32).any fun c =>
    decide (s.fldN Fld.dmaMode b c = 2) && decide (s.fldN Fld.dmaStream b c = n.val)

/-- Streams that send from a port. -/
def State.portStreams (s : State) (p : Nat) : List (Fin 64) :=
  (List.finRange 64).filter fun n => s.streamUsed n && decide (s.streamPort n = p)

/-- A fault of an Ethernet port (R744, MON_FAULT_LAST 5). -/
def ethFault (b : BayNo) (i : Fin 8) : FaultId := { code := 5, bay := b, part := i.val }

/-- The PTP port, if one is named (R573). -/
def State.ptpPort (s : State) : Option Nat :=
  let p := s.pkgN Fld.ethPtpPort
  if p < 64 then some p else none

/-- ETH_LINK_UP (R561, R572, R573, R589): a port's link comes up with its FEC aligned; a PTP client on it
listens, and streams that had waited for it go on. -/
def execEthLinkUp (b : BayNo) (i : Fin 8) (s : State) : Out :=
  if !s.ethHere b i || !s.pinned b || !(s.bay b).pwr.quads[(s.fldN Fld.ethPQuad b i.val) % 6]'(Nat.mod_lt _ (by decide)) then .next s
  else
    let s1 := s.modEth b i fun e =>
      { e with linkUp := true, fecLock := decide (s.fldN Fld.ethPFec b i.val ≠ 0), localFault := false, remoteFault := false }
    let moving := (s1.portStreams (8 * b.val + i.val)).any fun n => s1.eth.streams[n].failing
    let s1b := if moving then s1 else s1.faultEnd (ethFault b i)
    let s2 := (s1b.servePort b (.eth i.val) true).faultRepair (ethFault b i)
    let s3 := if s2.ptpPort = some (8 * b.val + i.val) then (s2.modEthPkg fun y => { y with ptpState := 1 }) else s2
    .next (if (s.bay b).eth[i].linkUp then s3 else s3.event b 0x1001 [wd i.val])

/-- A port's link goes down: its streams wait (R583, R589). -/
def State.ethDown (s : State) (b : BayNo) (i : Fin 8) : State :=
  let s1 := (s.modEth b i fun e => { e with linkUp := false, fecLock := false }).servePort b (.eth i.val) false
  let s2 := if s1.ptpPort = some (8 * b.val + i.val) then (s1.modEthPkg fun y => { y with ptpState := 3 }) else s1
  s2.event b 0x1002 [wd i.val]

/-- Each stream of a port that fails, with another working port, stops sending until its failover ends (R572, R744, R747). -/
def State.ethFails (s : State) (b : BayNo) (i : Fin 8) : State :=
  let mine := s.portStreams (8 * b.val + i.val)
  let move := mine.filter fun n => match s.otherPort n with
    | some q => s.ethWorks q
    | none => false
  let s2 := move.foldl (fun s n => s.modStream n fun x => { x with failing := true }) s
  if mine.any fun n => (s.standby n).isSome then s2.faultOpen (ethFault b i) s2.now else s2

/-- ETH_LINK_DOWN (R572, R583, R589): a port's link goes down. -/
def execEthLinkDown (b : BayNo) (i : Fin 8) (s : State) : Out :=
  if !s.alive b || !(s.bay b).eth[i].linkUp then .next s
  else
    let s1 := s.ethDown b i
    .next (if s.ethWorks (8 * b.val + i.val) then s1.ethFails b i else s1)

/-- ETH_PORT_FAULT (R572, R744, R747): for 1 µs a port has lost block lock or FEC alignment (`kind` 0), which takes its link down, or
reports a local (1) or remote (2) fault. -/
def execEthPortFault (b : BayNo) (i : Fin 8) (kind : Fin 3) (s : State) : Out :=
  if !s.ethHere b i || !s.ethWorks (8 * b.val + i.val) then .next s
  else
    let s1 := if kind = 0 then s.ethDown b i
      else s.modEth b i fun e => { e with localFault := decide (kind = 1), remoteFault := decide (kind = 2) }
    .next (s1.ethFails b i)

/-- The record in progress of a stream is sent again whole (R572). -/
def State.sendAgain (s : State) (n : Fin 64) : State :=
  s.eachBay s.liveBays fun s b =>
    let mine := fun (c : Nat) => decide (s.fldN Fld.dmaMode b c = 2) && decide (s.fldN Fld.dmaStream b c = n.val)
    s.modBay b fun y =>
      { y with dma := { y.dma with chans := y.dma.chans.mapIdx fun c x => if mine c then { x with sent := 0 } else x } }

/-- ETH_FAILOVER_DONE (R572, R746): the streams that left a port send on their other port again, their packet counts
continuing. -/
def execEthFailoverDone (n : Fin 64) (s : State) : Out :=
  if !s.eth.streams[n].failing then .next s
  else
    let from_ := s.streamPort n
    let (b, i) := ethPortOf from_
    let s0 := s.modStream n fun x => { x with failing := false, onStandby := !x.onStandby }
    let s1 := s0.sendAgain n
    let s2 := s1.event (ethPortOf (s1.streamPort n)).1 0x1003 [wd (s1.streamPort n % 8)]
    let rest := (List.finRange 64).any fun m => s2.eth.streams[m].failing && decide (s2.streamPort m = from_)
    .next (if rest then s2 else s2.faultEnd (ethFault b i))

/-- The MAC address of a port as two words, high word first (R585). -/
def State.portMac (s : State) (b : BayNo) (i : Fin 8) : List Word :=
  [wd (s.fldN Fld.ethPMacHi b i.val), wd (s.fldN Fld.ethPMacLo b i.val)]

/-- ETH_FRAME_RX (R562 to R564, R573): a received frame is answered, passed to the PTP client, or dropped and counted. -/
def execEthFrameRx (b : BayNo) (i : Fin 8) (f : EthFrame) (s : State) : Out :=
  if !s.ethHere b i || !(s.bay b).eth[i].linkUp then .next s
  else
    let s1 := s.modEth b i fun e => { e with rxFrames := e.rxFrames + 1 }
    let answer := fun (name : String) => ((s1.modEth b i fun e => { e with txFrames := e.txFrames + 1 }).emit
      (.packet name (8 * b.val + i.val) (s.portMac b i)))
    let drop := s1.modEth b i fun e => { e with rxDrop := e.rxDrop + 1 }
    match f with
    | .arpRequest => .next (answer "ARP_REPLY")
    | .neighbourSolicitation => .next (answer "NEIGHBOUR_ADVERTISEMENT")
    | .echoRequest => .next (answer "ECHO_REPLY")
    | .pause => .next drop
    | .other => .next drop
    | .ptpManagement => if s1.ptpPort ≠ some (8 * b.val + i.val) then .next drop else .next s1
    | .ptp domain transport chosen =>
      if s1.ptpPort ≠ some (8 * b.val + i.val) then .next drop
      else if decide (domain ≠ s1.pkgN Fld.ethPtpDomain) || decide (transport ≠ s1.pkgN Fld.ethPtpTransport) then .next s1
      else match chosen with
        | none => .next (s1.modEthPkg fun y => { y with ptpState := 1 })
        | some c =>
          let s2 := (s1.modEthPkg fun y => { y with ptpState := 2, ptpSource := c })
          .next (if s1.eth.ptpState = 2 ∧ s1.eth.ptpSource = c then s2 else s2.event 0 0x1010 [])

/-- An event message's stamp (R574): to the nearest 48.8 ps, moved by the factory delay of the port's PCS and FEC path, back for a
received message and on for a sent one. -/
def State.ptpStamp (s : State) (raw : Stamp) (rx : Bool) : Stamp :=
  let p := ethPortOf ((s.ptpPort).getD 0)
  let d := Config.pcsDelay (s.fldN Fld.ethPRate p.1 p.2.val) (s.fldN Fld.ethPFec p.1 p.2.val) (bitW rx)
  let f := raw.toNat % unitsPerSec
  let k := (2 * f * 10000000000000 + 488 * unitsPerSec) / (2 * 488 * unitsPerSec)
  moved (BitVec.ofNat 96 (raw.toNat / unitsPerSec * unitsPerSec + durOf (k * 488) 10000000000000)) (if rx then -d else d)

/-- The path delay that a measurement gives, by the delay mechanism of ETH.PTP_DELAY (R573). -/
def State.ptpPath (s : State) (x : PtpExchange) : Int :=
  if s.pkgN Fld.ethPtpDelay = 0 then
    (stampDiff (s.ptpStamp x.sync true) x.origin + stampDiff x.reqAt (s.ptpStamp x.req false)) / 2
  else
    (stampDiff (s.ptpStamp x.resp true) (s.ptpStamp x.req false) - stampDiff x.respAt x.reqAt) / 2

/-- The offset, counter minus source, of a measurement, with the asymmetry of the path (R574, log entry 82). -/
def State.ptpOffset (s : State) (x : PtpExchange) : Int :=
  stampDiff (s.ptpStamp x.sync true) x.origin - s.ptpPath x - quarterPs (s.fld Fld.ethPtpAsym 0)

/-- PTP_OFFSET_MEASURE (R148, R149, R152, R573, R574): the client measures an offset. With TBS.DISCIPLINE 2 it steers the servo; with 3
only its whole seconds count. -/
def execPtpOffsetMeasure (x : PtpExchange) (s : State) : Out :=
  let off := s.ptpOffset x
  let mode := s.pkgN Fld.tbsDiscipline
  if !s.alive 0 || decide (s.eth.ptpState ≠ 2) || decide (s.packageNo ≠ 0) || !(decide (mode = 2) || decide (mode = 3)) then .next s
  else
    let s1 := s.eachBay (s.liveBays.filter fun b => !(s.bay b).tbs.islanded) fun s b => s.modTbs b fun x => { x with source := .ptp }
    if mode = 2 then .next ((s1.modServo fun d => { d with heard := s1.now }).servoOffset off)
    else
      let whole := (2 * off + unitsPerSec) / (2 * unitsPerSec) * unitsPerSec
      if whole ≠ 0 ∧ s1.stepAllowed then .next (s1.modServo fun d => { d with step := some (s1.epochLead, -whole) })
      else .next s1

/-- An address of four words (R564). -/
def address (w : Nat → Word) : BitVec 128 := w 0 ++ w 1 ++ w 2 ++ w 3

/-- A port's own address family is IPv4 (R564). -/
def State.portV4 (s : State) (b : BayNo) (i : Fin 8) : Bool :=
  let w := fun n => Word.ofSigned (s.fld Fld.ethPNet b i.val n)
  isV4 (w 0) (w 1) (w 2)

/-- The address that a port resolves for destination `d`: an on-link one itself, any other's gateway (R564). -/
def State.nextHop (s : State) (b : BayNo) (i : Fin 8) (d : Nat) : BitVec 128 :=
  let w := fun n => Word.ofSigned (s.fld Fld.ethPNet b i.val n)
  let host := (if s.portV4 b i then 32 else 128) - (w 4).toNat
  let dest := address (s.destWord d)
  if dest >>> host = address w >>> host then dest else address fun n => w (5 + n)

/-- ETH_RESOLVE_TIMER (R564): a port resolves destination `d`; `ok` says whether an answer comes. A resolved entry is refreshed
after 60 s and an unresolved one retried after 1 s. -/
def execEthResolveTimer (p : Fin 64) (d : Fin 16) (ok : Bool) (s0 : State) : Out :=
  let (b, i) := ethPortOf p.val
  if !s0.ethHere b i || !(s0.bay b).eth[i].linkUp || s0.multicast d.val ||
      !((s0.portStreams p.val).any fun n => decide (s0.pkgN Fld.ethSDest n.val = d.val)) then .next s0
  else
    let old := s0.eth.neighbours.find? fun x => decide (x.port = p.val ∧ x.dest = d.val)
    let s := match old with
      | some x => s0.reach x.due
      | none => s0
    let told := (old.map (·.told)).getD false
    let n : Neighbour :=
      { port := p.val, dest := d.val, resolved := ok, told := !ok, due := later s.now (if ok then ofMs 60000 else ofMs 1000) }
    let s1 := (s.modEthPkg fun y => { y with neighbours := n :: s.eth.neighbours.filter fun x => !decide (x.port = p.val ∧ x.dest = d.val) })
    let s2 := (s1.modEth b i fun e => { e with txFrames := e.txFrames + 1 }).emit
      (.packet (if s.portV4 b i then "ARP_REQUEST" else "NEIGHBOUR_SOLICITATION") p.val
        (((List.range 4).map fun n => (s.nextHop b i d.val).extractLsb' (96 - 32 * n) 32) ++ s.portMac b i))
    .next (if ok || told then s2 else s2.event b 0x1004 [])

/-- The ETH registers (R587). -/
def State.ethReg (s : State) (b : BayNo) (off : Nat) : Word :=
  if h : off < 0x200 then
    let i : Fin 8 := ⟨off / 0x40, by omega⟩
    let e := (s.bay b).eth[i]
    match off % 0x40 with
    | 0x00 => wd (bitW e.linkUp + 2 * bitW e.fecLock + 4 * bitW e.localFault + 8 * bitW e.remoteFault +
        16 * bitW (decide (s.ptpPort = some (8 * b.val + i.val))))
    | 0x04 => e.txFrames
    | 0x08 => e.rxFrames
    | 0x0C => e.rxDrop
    | 0x10 => e.uncorrectable.setWidth 32
    | _ => 0
  else if b ≠ 0 then 0
  else if h : 0x1000 ≤ off ∧ off < 0x2000 then
    let n : Fin 64 := ⟨(off - 0x1000) / 0x40, by omega⟩
    match (off - 0x1000) % 0x40 with
    | 0 => wd (s.streamPort n + 64 * bitW s.eth.streams[n].onStandby + 128 * bitW (!s.resolved n))
    | 4 => s.eth.streams[n].packets
    | _ => 0
  else match off with
    | 0x2000 => s.eth.ptpState.setWidth 32
    | 0x2004 => s.eth.ptpSource.setWidth 32
    | 0x2008 => (s.eth.ptpSource >>> 32).setWidth 32
    | 0x200C => (s.eth.ptpSource >>> 64).setWidth 32
    | _ => 0

/-! ### JESD204 receivers -/

/-- Change a receiver. -/
def State.modJes (s : State) (b : BayNo) (x : Fin 2) (f : Jes → Jes) : State :=
  s.modBay b fun y => { y with jes := y.jes.set x (f y.jes[x]) }

/-- The receiver is enabled (R575). -/
def State.jesOn (s : State) (b : BayNo) (x : Fin 2) : Bool := s.alive b && s.fldB Fld.jesSEn b x.val

/-- The boundary period in units times the denominator, and the denominator (R577). -/
def State.jesT (s : State) (b : BayNo) (x : Fin 2) : Nat × Nat :=
  let (n, d) := Vals.jesPeriod s.vals b.val x.val
  (max 1 (n * unitsPerSec), max 1 d)

/-- Start a receiver, at RUN and after an acquisition restart: in one-shot mode the next SYSREF edge sets the grid, and
JSYNC is asserted by a JESD204B stream (R579, R581). -/
def State.jesStart (s : State) (b : BayNo) (x : Fin 2) : State :=
  let one := decide (s.fldN Fld.jesSSysrefMode b x.val = 0)
  s.modJes b x fun j =>
    { j with
      awaiting := s.jesOn b x && (one || j.grid.isNone), grid := if s.jesOn b x then (if one then none else j.grid) else none
      jsync := s.jesOn b x && decide (s.fldN Fld.jesSStd b x.val = 0), ilasBad := false, late := false, locked := 0 }

/-- A SYSREF edge whose corrected stamp is `a` sets the grid, or is checked against it in continuous mode (R579). -/
def State.jesEdge (s : State) (b : BayNo) (x : Fin 2) (t : Stamp) : State :=
  let a := moved t (quarterPs (s.fld Fld.jesSSysrefSkew b x.val))
  let j := (s.bay b).jes[x]
  if !s.jesOn b x then s
  else if j.awaiting then s.modJes b x fun j => { j with grid := some a, awaiting := false, nextGrid := none }
  else match j.grid with
    | none => s
    | some g =>
      if s.fldN Fld.jesSSysrefMode b x.val = 0 then s
      else
        let (p, d) := s.jesT b x
        let r := ((stampDiff a g * d) % (p : Int)).toNat
        if 64 * min r (p - r) > p then
          (s.modJes b x fun j => { j with shifts := j.shifts + 1, nextGrid := some a }).event b 0x1104 []
        else s

/-- SYSREF_IN_EDGE (R140, R141, R579, R583): an edge of SYSREF_IN at pin stamp `t`. Coarse stamps are not used. -/
def execSysrefInEdge (b : BayNo) (t : Stamp) (falling longPulse : Bool) (s : State) : Out :=
  if decide (s.fldB Fld.jesSysrefEdge b ≠ falling) then .next s
  else
    let (u, s1) := s.tdcEdge b 4 t longPulse
    match u with
    | none => .next s1
    | some u =>
      if (s1.bay b).tbs.tdcCoarse then .next s1
      else .next ((List.finRange 2).foldl (fun s x =>
        if s.fldN Fld.jesSSysrefSrc b x.val = 0 then s.jesEdge b x u else s) s1)

/-- SYSREF_OUT_EDGE (R119, R579): a rising edge of the bay's own SYSREF_OUT, which runs in continuous mode or while pulses
are left, and is gated while the SPLL is unlocked. -/
def execSysrefOutEdge (b : BayNo) (sIn : State) : Out :=
  let k := (sIn.bay b).clk
  let mode := sIn.fldN Fld.clkSysrefMode b
  if !sIn.alive b || k.gated || !(decide (mode = 1) || (decide (mode = 2) && decide (k.sysrefLeft > 0))) then .next sIn
  else
    let t0 := sIn.sysrefNext b
    let s := sIn.reach t0
    let t := moved t0 (stepDelay (s.fld Fld.clkSysrefDelay b))
    let s1 := (s.modClk b fun k => { k.sysrefStep t0 with sysrefLeft := if mode = 2 then k.sysrefLeft - 1 else k.sysrefLeft }).emit
      (.pin "SYSREF_OUT" b true t)
    .next ((List.finRange 2).foldl (fun s x =>
      if s.fldN Fld.jesSSysrefSrc b x.val = 1 then s.jesEdge b x t else s) s1)

/-- The first lane whose arrival misses the window T_link − T < a ≤ T_link − T / 64 (R580). -/
def State.lateLane (s : State) (b : BayNo) (x : Fin 2) (arrivals : List Nat) : Option Nat :=
  let (p, d) := s.jesT b x
  let link := 64 * s.fldN Fld.jesSLinkPeriods b x.val + s.fldN Fld.jesSRbd b x.val
  arrivals.findIdx? fun (a : Nat) => !(decide ((64 * a * d : Int) > ((link : Int) - 64) * p) && decide ((64 * a * d : Int) ≤ ((link : Int) - 1) * p))

/-- An arrival in T / 1024 (R587). -/
def State.arrivalWord (s : State) (b : BayNo) (x : Fin 2) (a : Nat) : BitVec 16 :=
  let (p, d) := s.jesT b x
  BitVec.ofNat 16 (a * d * 1024 / p)

/-- The ILAS values of a lane that the settings fix, in the order of R581: L, M, F, S, K, N, N′, SCR and the lane identifier, each as
the octets hold it (log entry 82). -/
def ilasFields (o : List Byte) : List Nat :=
  let at_ := fun (n hi lo : Nat) => bits (o.getD n 0).toNat hi lo
  [at_ 3 4 0, at_ 6 7 0, at_ 4 7 0, at_ 9 4 0, at_ 5 4 0, at_ 7 4 0, at_ 8 4 0, at_ 3 7 7, at_ 2 4 0]

/-- The ILAS values that the settings of a receiver ask of a logical lane. -/
def State.ilasWanted (s : State) (b : BayNo) (x : Fin 2) (lane : Nat) : List Nat :=
  let j := Vals.jesShape s.vals b.val x.val
  [j.l - 1, j.m - 1, j.m * j.smp * j.np / (8 * j.l) - 1, j.smp - 1, s.fldN Fld.jesSK b x.val - 1, s.fldN Fld.jesSN b x.val - 1,
   j.np - 1, s.fldN Fld.jesSScr b x.val, lane]

/-- The lane and the first field of an ILAS mismatch (R581). -/
def State.ilasMismatch (s : State) (b : BayNo) (x : Fin 2) (ilas : List (List Byte)) : Option (Nat × Nat) :=
  (List.range (s.fldN Fld.jesSLanes b x.val)).findSome? fun lane =>
    let got := ilasFields (ilas.getD lane [])
    let want := s.ilasWanted b x lane
    ((List.range 9).find? fun n => decide (got.getD n 0 ≠ want.getD n 0)).map fun n => (lane, n)

/-- JES_ALIGNED (R579 to R583): the receiver completes an alignment on its grid as `a` says. An ILAS mismatch or a lane outside
the latency window refuses it; otherwise the stream may start. -/
def execJesAligned (b : BayNo) (x : Fin 2) (a : JesAlign) (s : State) : Out :=
  let p := xsPort x
  let y := (s.bay b).ddc[p]
  let j := (s.bay b).jes[x]
  if !s.jesOn b x || y.aligned || j.grid.isNone || decide (s.img.state ≠ .run) then .next s
  else
    let lo := (a.arrivals.min?).getD 0
    let hi := (a.arrivals.max?).getD 0
    let std0 := decide (s.fldN Fld.jesSStd b x.val = 0)
    let s1 := s.modJes b x fun j =>
      { j with
        grid := if j.nextGrid.isSome then j.nextGrid else j.grid, nextGrid := none
        earliest := s.arrivalWord b x lo, latest := s.arrivalWord b x hi, locked := a.locked, jsync := false
        ilas := if std0 then Vector.ofFn (fun (i : Fin 4) => (bytesWords 4 (a.ilas.getD 0 [])).getD i.val 0) else j.ilas
        ilasBad := false, late := false }
    let refuse := fun (s : State) => s.modJes b x fun j => { j with refused := j.refused + 1 }
    match if std0 then s.ilasMismatch b x a.ilas else none with
    | some (lane, field) => .next (((refuse s1).modJes b x fun j => { j with ilasBad := true, jsync := true }).event b 0x1102
        [wd x.val, wd lane, wd field])
    | none =>
      match s1.lateLane b x a.arrivals with
      | some i => .next (((refuse s1).modJes b x fun j => { j with late := true }).event b 0x1103 [wd (s.fldN Fld.jesSFirstLane b x.val + i)])
      | none =>
        let s2 := (s1.modJes b x fun j => { j with aligns := j.aligns + 1 }).modPort b p fun y => { y with aligned := true }
        .next ((s2.servePort b (.jesd x.val) true).event b 0x1101
          [wd x.val, (s.arrivalWord b x lo).setWidth 32, (s.arrivalWord b x hi).setWidth 32])

/-- The JES registers (R587, R588). -/
def State.jesReg (s : State) (b : BayNo) (off : Nat) : Word :=
  if h : off < 0x200 then
    let x : Fin 2 := ⟨off / 0x100, by omega⟩
    let j := (s.bay b).jes[x]
    match off % 0x100 with
    | 0x00 => wd (bitW (s.jesOn b x) + 2 * bitW j.grid.isSome + 4 * bitW (s.bay b).ddc[xsPort x].aligned + 8 * bitW j.jsync +
        16 * bitW j.ilasBad + 32 * bitW j.late + 64 * j.locked.toNat)
    | 0x04 => j.latest ++ j.earliest
    | 0x08 => j.shifts
    | 0x0C => j.ilas[0]
    | 0x10 => j.ilas[1]
    | 0x14 => j.ilas[2]
    | 0x18 => j.ilas[3]
    | 0x20 => j.refused ++ j.aligns
    | _ => 0
  else 0

end Sys2Proof.Machine
end

