-- ==== Sys2Proof/Machine/Pwr.lean ====
section
/-! DEFINITION. The power manager: requests, entries to WATCH and STANDBY, the watch meter, wakes and floods (R715 to
R736). -/
namespace Sys2Proof.Machine


/-- The code of a power state (R735). -/
def PowerState.code : PowerState → Nat
  | .watch => 1
  | .standby => 2
  | _ => 0

/-! ### Resume: the end of a flood, and an entry that is abandoned (R726, R727, R732) -/

/-- Persistence restarts as at RUN (R347): the channel is enabled afresh with a frame that starts at `t`. -/
def State.denStart (s : State) (b : BayNo) (x : Fin 2) (t : Stamp) : State :=
  s.modDen b x fun d =>
    { d with enabled := s.fldB Fld.denChEn b x.val, cells := [], clearAsked := false, old := none, info := s.newFrame b x t true }

/-- Every channel and stream of the package resumes with the input samples taken at counter time `t` (R727). -/
def State.resumeAll (s : State) (t : Stamp) : State :=
  s.eachBay s.liveBays fun s b =>
    (List.finRange 2).foldl (fun s x => s.denStart b x (s.resumeStamp b (s.chanPort b x) t)) ((s.runRotations b).resumeBay b t 7 false)

/-- An entry is abandoned: the package stays in RUN and its channels resume (R722, R732). -/
def State.abandonEntry (s : State) : State := (s.modPwr fun p => { p with phase := .steady }).resumeAll s.now

/-! ### Requests -/

/-- The bays that would watch. -/
def State.watchBays (s : State) : List BayNo := s.maskBays (s.pkgN Fld.pwrWatchBays)

/-- Why a request is refused: the cause of R720, if any. -/
def State.pwrRefusal (s : State) (watch : Bool) : Option Nat :=
  if s.img.state ≠ .run ∨ s.pwr.state ≠ .run ∨ s.pwr.phase ≠ .steady ∨ !s.leads then some 0
  else if s.anyArmCycle then some 1
  else if s.liveBays.any fun b => decide ((s.recd b).state = .recording) || (s.recd b).replay.isSome then some 2
  else if watch ∧ s.watchBays = [] then some 4 else none

/-- A request is refused or abandoned (R720, R722). -/
def State.refusePwr (s : State) (cause : Nat) : State := (s.modPwr fun p => { p with refusals := p.refusals + 1 }).event 0 0x1702 [wd cause]

/-- A request for WATCH or STANDBY (R720, R721); that of a leader goes to every package of its shoal. -/
def State.requestPwr (s : State) (watch : Bool) : State :=
  match s.pwrRefusal watch with
  | some c => s.refusePwr c
  | none =>
    let e := s.boundaryFrom s.epochLead
    let s1 := s.modPwr fun p => { p with phase := .requested (if watch then .watch else .standby) e }
    if s.pkgN Fld.lnlShoalSize > 1 then s1.emit (.packet "SHOAL_POWER" 0 (wd (if watch then 1 else 2) :: stampWords e)) else s1

/-- The host reaches PWR_CTRL through BAR0, or the service port does: not in OFF (R720, R734, R769). -/
def State.pwrCtrl (s : State) (svc : Bool) : Bool := s.alive 0 && decide (s.pwr.state ≠ .off) && (svc || (s.bay 0).pci[4].linkUp)

/-- PWR_REQ_WATCH (R720): REQ = 1 written by the host or through the service port. -/
def execPwrReqWatch (svc : Bool) (s : State) : Out := if s.pwrCtrl svc then .next (s.requestPwr true) else .next s

/-- PWR_REQ_STANDBY (R720): REQ = 2. -/
def execPwrReqStandby (svc : Bool) (s : State) : Out := if s.pwrCtrl svc then .next (s.requestPwr false) else .next s

/-- After start-up the package goes where PWR.START_STATE sends it (R723). -/
def State.pwrStart (s : State) : State :=
  match s.pkgN Fld.pwrStartState with
  | 1 => s.requestPwr true
  | 2 => s.requestPwr false
  | _ => s

/-! ### Entry -/

/-- Starts and arms accepted before t_E that were to take effect after it complete with STATE (R732). -/
def State.cancelWaiting (s : State) : State :=
  let orders := s.trg.orders.filter (·.arm)
  let starts := (s.liveBays.filterMap fun b => ((s.recd b).startReq).map (·.tag)).eraseDups
  let s1 := orders.foldl (fun s o => match o.tag with
    | some g => s.complete 3 g stState 0 s.now
    | none => s) (s.modTrg fun g => { g with orders := g.orders.filter fun o => !o.arm })
  let s2 := s1.eachBay s1.liveBays fun s b => s.modRec b fun y => { y with startReq := none }
  starts.foldl (fun s g => s.complete 5 g stState 0 s.now) s2

/-- Every channel and stream stops at t_E, and runs of calibration are abandoned (R721). -/
def State.stopForPower (s : State) (t : Stamp) : State :=
  s.eachBay s.liveBays fun s b =>
    let s1 := s.calAbandonBay b false
    (List.finRange 4).foldl (fun s p => if (s.bay b).ddc[p].active then s.stopPort b p .watch t else s) (s1.runRotations b)

/-- The request that is carried out: the package's own, or in a follower the leader's, `leader` saying whether it is for
WATCH (R721). -/
def State.entryDue (s : State) (leader : Option Bool) : Option (PowerState × Stamp) :=
  match leader with
  | none => match s.pwr.phase with
    | .requested t e => some (t, e)
    | _ => none
  | some w =>
    if s.leads ∨ s.img.state ≠ .run ∨ s.pwr.state ≠ .run ∨ s.pwr.phase ≠ .steady then none
    else some (if w then .watch else .standby, s.tbs.grid.next)

/-- PWR_ENTRY_START (R721): t_E has come. -/
def execPwrEntryStart (leader : Option Bool) (s0 : State) : Out :=
  match s0.entryDue leader with
  | none => .next s0
  | some (target, tE) =>
    if !s0.alive 0 then .next s0
    else
      let s := s0.reach tE
      let s1 := (s.cancelWaiting).modPwr fun p => { p with phase := .draining target tE, watching := BitVec.ofNat 8 (maskOf s.watchBays) }
      let s2 := s1.eachBay s1.liveBays fun s b => s.modDom b fun p =>
        { p with watchInput := ⟨s.fldN Fld.adcWatchInput b % 2, Nat.mod_lt _ (by decide)⟩, watchZone := s.fldN Fld.adcWatchZone b }
      .next (s2.stopForPower tE)

/-- Every queue of the package is empty, and no sealed record waits for its trailer (R722). -/
def State.queuesEmpty (s : State) : Bool :=
  s.keeper.macQueue.isEmpty && s.liveBays.all fun b => (s.bay b).que.queues.toList.all (·.entries.isEmpty)

/-- PWR_QUEUES_DRAINED (R722): the bays begin to ebb their domains. -/
def execPwrQueuesDrained (s : State) : Out :=
  match s.pwr.phase with
  | .draining target tE => if s.queuesEmpty then .next (s.modPwr fun p => { p with phase := .ebbing target tE }) else .next s
  | _ => .next s

/-- PWR_DRAIN_TIMEOUT (R722): PWR.DRAIN_MS after t_E a queue still holds records. -/
def execPwrDrainTimeout (s0 : State) : Out :=
  match s0.pwr.phase with
  | .draining _ tE =>
    if s0.queuesEmpty then .next s0
    else
      let s := s0.reach (later tE (ofMs (s0.pkgN Fld.pwrDrainMs)))
      .next ((s.refusePwr 3).abandonEntry)
  | _ => .next s0

/-! ### Ebbs -/

/-- The domain's place in the order of ebbs (R722). -/
def Domain.rank : Domain → Nat
  | .datapath => 0
  | .core _ => 1
  | .ports => 2
  | .scanOut => 3
  | .quad _ => 4
  | .sealKeeper => 5
  | .hkc => 6
  | .frontEnd _ => 7
  | .supervisor => 8

/-- Every domain of a bay but the lagoon (R717). -/
def allDomains : List Domain :=
  [.datapath] ++ (List.finRange 8).map .core ++ [.ports, .scanOut] ++ (List.finRange 6).map .quad ++
    [.sealKeeper, .hkc, .frontEnd 0, .frontEnd 1, .supervisor]


/-- In a shoal, the bay lies on the all-links-up route from the headland to the link bay (R602, R716). -/
def State.onLinkRoute (s : State) (b : BayNo) : Bool :=
  decide (s.pkgN Fld.lnlShoalSize > 1) && (List.range 4).any fun k => decide (b.val = s.linkBay.val % 2 ^ k)

/-- A domain stays powered in WATCH or STANDBY (R716, R717). -/
def State.staysOn (s : State) (target : PowerState) (b : BayNo) : Domain → Bool
  | .quad q => s.onLinkRoute b && decide (s.quadUse b q.val = 4)
  | .hkc => decide (target = .watch)
  | .frontEnd i => decide (target = .watch) && s.pwr.watching.getLsbD b.val && decide ((s.bay b).pwr.watchInput = i)
  | .supervisor => decide (target = .watch) || decide (b = 0) || s.onLinkRoute b
  | _ => false

/-- The domains of a bay that are still to ebb. -/
def State.toEbb (s : State) (target : PowerState) (b : BayNo) : List Domain :=
  allDomains.filter fun d => (s.bay b).pwr.powered d && !s.staysOn target b d

/-- The ports of a bay lose power: endpoint links go down (R559), Ethernet links with them, receivers lose their streams, and
drives are to rejoin (R727). The headland keeps its events in the buffer from here (R719). -/
def State.portsOff (s : State) (b : BayNo) : State :=
  let s0 := s.modImg fun i => { i with buffering := i.buffering || decide (b = 0) }
  let s1 := (List.finRange 5).foldl (fun s j => s.pcieDown b j) s0
  let s2 := (List.finRange 8).foldl (fun s i =>
    (if (s.bay b).eth[i].linkUp then s.ethDown b i else s).modEth b i fun e => { e with localFault := false, remoteFault := false }) s1
  let s3 := (List.finRange 2).foldl (fun s x => s.modPort b (xsPort x) fun y => { y with aligned := false }) s2
  (s3.modRec b fun y => { y with state := .off }).modDom b fun p => { p with ports := false }

/-- The datapath of a bay loses power: what capture memory, queues, segment buffers and density banks hold is lost (R718). -/
def State.datapathOff (s : State) (b : BayNo) : State :=
  let s1 := s.modBay b fun y =>
    { y with que := { y.que with capMem := [] }
             trg := { y.trg with units := y.trg.units.map fun u => { u with segments := [], liveFrom := none } } }
  let s2 := (List.finRange 2).foldl (fun s x => s.modDen b x fun d => { d with enabled := false, cells := [], old := none }) s1
  s2.modDom b fun p => { p with datapath := false }

/-- A domain powers off (R728). -/
def State.domainOff (s0 : State) (b : BayNo) (d : Domain) : State :=
  let s := s0.modDom b fun p => { p with asleepTold := p.asleepTold.filter (· ≠ d) }
  match d with
  | .datapath => s.datapathOff b
  | .core c => s.modDom b fun p => { p with cores := p.cores.set c false }
  | .ports => s.portsOff b
  | .scanOut => (s.modScn b fun y => { y with on := false }).modDom b fun p => { p with scanOut := false }
  | .quad q => s.quadOff b q
  | .sealKeeper => s.modDom b fun p => { p with sealKeeper := false }
  | .hkc => s.modDom b fun p => { p with hkc := false }
  | .frontEnd i => s.modDom b fun p => { p with frontEnd := p.frontEnd.set i false }
  | .supervisor => (s.modClk b fun c => { c with spllLock := false, cpllLock := false }).modDom b fun p => { p with supervisor := false }

/-- The flood of a wake begins: from STANDBY with supervisors, PLLs and links (R726). -/
def State.beginFlood (s : State) : State :=
  s.modPwr fun p => { p with phase := .flooding (decide (p.state = .standby)), wakeAfter := false }

/-- A watching bay takes the slice of its watch input that was calibrated last (R198). -/
def State.beginWatch (s : State) (b : BayNo) : State :=
  (s.modAdc b (s.bay b).pwr.watchInput fun c => { c with watch := c.newest }).modDom b fun p => { p with watchAbove := 0 }

/-- The last ebb has completed: the package is in its new state (R719, R722, R732, R791). -/
def State.reachState (s : State) (target : PowerState) (tE : Stamp) : State :=
  let s1 := (s.modPwr fun p => { p with state := target, phase := .steady, entries := p.entries + 1 }).modImg fun i =>
    { i with buffering := true }
  let s2 := if target = .watch then s1.eachBay (s1.liveBays.filter fun b => s1.pwr.watching.getLsbD b.val) State.beginWatch else s1.outsLow
  let s3 := s2.event 0 0x1701 (wd target.code :: stampWords tE)
  if s3.pwr.wakeAfter then s3.beginFlood else s3

/-- DOMAIN_EBB_DONE (R722, R728): the ebb of a domain completes in the order of R722; the last one reaches the new state. -/
def execDomainEbbDone (b : BayNo) (d : Domain) (s : State) : Out :=
  match s.pwr.phase with
  | .ebbing target tE =>
    let l := s.toEbb target b
    if !s.alive b || !l.contains d || l.any fun e => decide (e.rank < d.rank) then .next s
    else
      let s1 := s.domainOff b d
      .next (if s1.liveBays.all fun c => (s1.toEbb target c).isEmpty then s1.reachState target tE else s1)
  | _ => .next s

/-! ### Wakes -/

/-- A wake event is recognised (R725, R732): cause, bay of a comparator or meter. In a shoal it goes to every package. -/
def State.wake (s : State) (cause : Nat) (b : BayNo) : State :=
  let told := fun (s : State) =>
    ((s.modPwr fun p =>
      { p with wakes := p.wakes + 1, wakeCause := BitVec.ofNat 3 cause, wakeBay := BitVec.ofNat 3 b.val, wakeStamp := s.now }).alert 6).event
      0 0x1703 ([wd cause, wd b.val] ++ stampWords s.now)
  let told := fun (s : State) =>
    if s.pkgN Fld.lnlShoalSize > 1 then (told s).emit (.packet "SHOAL_WAKE" 0 [wd cause, wd b.val]) else told s
  match s.pwr.phase with
  | .steady => if s.pwr.state = .watch ∨ s.pwr.state = .standby then (told s).beginFlood else s
  | .requested _ _ => (told s).modPwr fun p => { p with phase := .steady }
  | .draining _ _ => (told s).abandonEntry
  | .ebbing _ _ =>
    if s.pwr.wakeAfter then s.modPwr fun p => { p with surplus := p.surplus + 1 }
    else (told s).modPwr fun p => { p with wakeAfter := true }
  | .flooding _ => s.modPwr fun p => { p with surplus := p.surplus + 1 }

/-- A wake source is enabled (R725). -/
def State.wakeOn (s : State) (k : Nat) : Bool := (s.pkgN Fld.pwrWakeEn).testBit k && decide (s.pwr.state ≠ .off)

/-- PWR_REQ_WAKE (R725): REQ = 3 written through the service port, or with `remote` the wake of another package of the shoal, with its
cause and bay, which reaches a package over an external link that is up. -/
def execPwrReqWake (remote : Option (Fin 5 × BayNo)) (s : State) : Out :=
  match remote with
  | none => if s.pwrCtrl true then .next (s.wake 4 0) else .next s
  | some (c, b) =>
    if s.alive 0 && decide (s.pwr.state ≠ .off) && (List.finRange 2).any fun n => (s.ext n).port.up then .next (s.wake c.val b) else .next s

/-- WAKE_IN_RISE (R725): WAKE_IN has been high for two lagoon samples. -/
def execWakeInRise (s : State) : Out := if s.wakeOn 0 && s.pinned 0 then .next (s.wake 0 0) else .next s

/-- WAKE_COMPARATOR (R725): the comparator of input `i` has held for 10 µs. -/
def execWakeComparator (b : BayNo) (i : Fin 2) (s : State) : Out :=
  if s.alive b && s.wakeOn 1 && (s.fldN Fld.pwrDetWake b).testBit i.val then .next (s.wake 1 b) else .next s

/-- RTC_WAKE (R725): the RTC reaches PWR_WAKE_RTC. -/
def execRtcWake (s : State) : Out :=
  let i := s.keeper.island
  if decide (s.pwr.wakeRtc = 0) || !s.wakeOn 2 || decide (s.pwr.wakeRtc.toNat < i.rtcSec.toNat) then .next s
  else .next ((if i.rtcSec = s.pwr.wakeRtc then s else s.modIsland fun i => { i with rtcSec := s.pwr.wakeRtc, rtcSub := 0 }).wake 2 0)

/-- The level of a watch block in 1/128 dBm (R171, R199, R724): `sum` is the sum of squares of its 12-bit samples; the factory zone
table of the chosen slice corrects it for the zone read at the entry. -/
def State.watchLevel (s : State) (b : BayNo) (sum : Nat) : Int :=
  let p := (s.bay b).pwr
  let a := (s.bay b).afe.inputs[p.watchInput]
  let n := 2 ^ s.fldN Fld.pwrWatchBlockLog2 b
  let zone := match (s.bay b).adc[p.watchInput].watch with
    | some x => Config.zoneTable b p.watchInput.val x.val p.watchZone
    | none => 0
  logPower (2 * sum) (n * 2048 ^ 2) + zone + 256 + 128 * a.step + 2 * a.trim

/-- WATCH_BLOCK_DONE (R724, R725, R732): a block of a watching bay ends. -/
def execWatchBlockDone (b : BayNo) (sum : Nat) (s : State) : Out :=
  if !s.alive b || decide (s.pwr.state ≠ .watch) || decide (s.pwr.phase ≠ .steady) || !s.pwr.watching.getLsbD b.val ||
      (s.bay b).clk.gated then .next s
  else
    let l := s.watchLevel b sum
    let n := if l ≥ s.fld Fld.pwrWatchLevel b then (s.bay b).pwr.watchAbove + 1 else 0
    let s1 := s.modDom b fun p =>
      { p with watchLevel := l, watchPeak := some (match p.watchPeak with
        | none => l
        | some m => max m l), watchAbove := n }
    .next (if n ≥ s.fldN Fld.pwrWatchCount b ∧ s1.wakeOn 3 then s1.wake 3 b else s1)

/-- WATCH_PEAK_READ (R734): PWR_WATCH_PEAK is read and clears. -/
def execWatchPeakRead (b : BayNo) (s : State) : Out :=
  if !s.alive b then .next s else .next (s.modDom b fun p => { p with watchPeak := none })

/-! ### Floods -/

/-- FLOOD_SUPERVISOR_DONE (R144, R726): from STANDBY the supervisors, PLLs and links of every bay are up, and every tide counter is
slaved to the headland's. -/
def execFloodSupervisorDone (s : State) : Out :=
  match s.pwr.phase with
  | .flooding true =>
    let tide := (s.bay 0).tbs.tide
    let s1 := s.eachBay (s.liveBays.filter fun b => !(s.bay b).pwr.supervisor) fun s b =>
      ((s.modClk b fun c => { c with spllLock := true, cpllLock := true }).modBay b fun y => { y with tbs := { y.tbs with tide := tide } }).modDom b
        fun p => { p with supervisor := true }
    .next (s1.modPwr fun p => { p with phase := .flooding false })
  | _ => .next s

/-- The domains that the setup uses are powered (R717). -/
def State.powerDomains (s : State) (b : BayNo) : State :=
  s.modDom b fun p =>
    { p with datapath := true, ports := true, asleepTold := [], scanOut := s.fldB Fld.scnEn b, sealKeeper := decide (b = 0)
             frontEnd := Vector.ofFn fun i => inMask (s.fldN Fld.clkAdcEn b) i.val
             cores := Vector.ofFn fun c => s.fldB Fld.mcoCEn b c.val }

/-- The quads that the setup uses are powered and begin to train (R524, R717). -/
def State.powerQuads (s : State) (b : BayNo) : State :=
  (List.finRange 6).foldl (fun s q => if s.quadUse b q.val ≠ 0 ∧ !(s.bay b).pwr.quads[q] then s.quadOn b q else s) s

/-- What a flood brings back in a bay (R200, R682, R718, R726, R727). -/
def State.floodBay (s : State) (b : BayNo) (t : Stamp) : State :=
  let s0 := (if (s.bay b).pwr.hkc then s else s.hkcStart b).powerDomains b
  let s1 := s0.modBay b fun y => { y with que := { y.que with fenceTold := false } }
  let s2 := (List.finRange 2).foldl (fun s i => (s.modAdc b i fun c => { c with watch := none }).freeAtten b i) s1
  let s3 := (s2.startRaster b t).recBegin b t
  (List.finRange 2).foldl (fun s x => s.jesStart b x) s3

/-- FLOOD_DONE (R726, R727): the first valid samples arrive; channels resume, quads begin training, and units with AUTO_ARM
are armed. -/
def execFloodDone (s : State) : Out :=
  match s.pwr.phase with
  | .flooding false =>
    let t := s.now
    let s1 := s.eachBay s.liveBays fun s b => s.floodBay b t
    let s2 := (s1.modPwr fun p => { p with state := .run, phase := .steady }).resumeAll t
    let s3 := (s2.event 0 0x1704 []).eachBay s2.liveBays State.powerQuads
    .next (s3.autoArm s3.epochLead)
  | _ => .next s

/-! ### Registers -/

/-- PWR_STATE (R735). -/
def State.pwrStateWord (s : State) : Word :=
  let entering := match s.pwr.phase with
    | .requested .. | .draining .. | .ebbing .. => true
    | _ => false
  let flooding := match s.pwr.phase with
    | .flooding _ => true
    | _ => false
  wd (s.pwr.state.code + 4 * bitW entering + 8 * bitW flooding + 16 * s.pwr.wakeCause.toNat + 128 * s.pwr.wakeBay.toNat)

/-- PWR_DOMAINS (R734). -/
def State.domainsWord (s : State) (b : BayNo) : Word :=
  let p := (s.bay b).pwr
  let mask := fun (l : List Bool) => l.zipIdx.foldl (fun n e => if e.1 then n + 2 ^ e.2 else n) 0
  wd (mask [p.supervisor, p.frontEnd[0], p.frontEnd[1], p.datapath, p.hkc, p.ports, p.scanOut, p.sealKeeper] +
    256 * mask p.cores.toList + 65536 * mask p.quads.toList)

/-- The PWR registers (R734); those of the package exist in the headland. -/
def State.pwrReg (s : State) (b : BayNo) (off : Nat) : Word :=
  let p := s.pwr
  match off with
  | 0x020 => s.domainsWord b
  | 0x024 => wd ((BitVec.ofInt 16 (s.bay b).pwr.watchLevel).toNat)
  | 0x028 => wd ((BitVec.ofInt 16 ((s.bay b).pwr.watchPeak.getD 0)).toNat)
  | 0x02C => (s.bay b).pwr.coreFloods ++ (s.bay b).pwr.coreEbbs
  | _ =>
    if b ≠ 0 then 0
    else match off with
      | 0x000 => s.pwrStateWord
      | 0x008 => p.wakeRtc
      | 0x00C => p.wakeStamp.extractLsb' 0 32
      | 0x010 => p.wakeStamp.extractLsb' 32 32
      | 0x014 => p.wakeStamp.extractLsb' 64 32
      | 0x018 => p.surplus ++ p.wakes ++ p.refusals ++ p.entries
      | _ => 0

end Sys2Proof.Machine
end

