-- ==== Sys2Proof/Machine/DmaOps.lean ====
section
/-! DEFINITION. DMA channels: state, errors, completions and the QUE and DMA registers (R458 to R472). -/
namespace Sys2Proof.Machine

/-- A DMA channel of a bay. -/
def State.chan (s : State) (b : BayNo) (n : Fin 32) : DmaChan := (s.bay b).dma.chans[n]

/-- Change a DMA channel. -/
def State.modDma (s : State) (b : BayNo) (n : Fin 32) (f : DmaChan → DmaChan) : State :=
  s.modBay b fun y => { y with dma := { y.dma with chans := y.dma.chans.set n (f y.dma.chans[n]) } }

/-- DMA.Cn_MODE. -/
def State.dmaMode (s : State) (b : BayNo) (n : Fin 32) : Nat := s.fldN Fld.dmaMode b n.val

/-- The channel's queue (R458). -/
def State.dmaQueueNo (s : State) (b : BayNo) (n : Fin 32) : Fin 16 := ⟨s.fldN Fld.dmaQueue b n.val % 16, Nat.mod_lt _ (by decide)⟩

/-- The channel runs in a queue mode (R458). -/
def State.queueMode (s : State) (b : BayNo) (n : Fin 32) : Bool := decide (1 ≤ s.dmaMode b n ∧ s.dmaMode b n ≤ 3)

/-- The engine of a bay works: its datapath is powered and an image's settings are in force. After an IMAGE_RESTART it delivers
the FLUSH records until the new image is accepted (R99, R456). -/
def State.dmaOn (s : State) (b : BayNo) : Bool := s.queueAwake b && s.img.image.isSome && !(s.img.boot.active && decide (s.img.boot.phase = 6))

/-- The Ethernet or recorder stream of a channel. -/
def State.dmaStreamNo (s : State) (b : BayNo) (n : Fin 32) : Fin 64 := ⟨s.fldN Fld.dmaStream b n.val % 64, Nat.mod_lt _ (by decide)⟩

/-- The bay a channel writes to in a queue mode: of its endpoint, of its stream's port, or of its recorder. -/
def State.dmaTarget (s : State) (b : BayNo) (n : Fin 32) : Option BayNo :=
  match s.dmaMode b n with
  | 1 => (s.endpoint (s.fldN Fld.dmaEndpoint b n.val)).map (·.1)
  | 2 => some (ethPortOf (s.streamPort (s.dmaStreamNo b n))).1
  | 3 => some ⟨(s.dmaStreamNo b n).val / 8, by omega⟩
  | _ => none

/-- Bytes in a host ring. -/
def DmaChan.ringUsed (c : DmaChan) : Nat := (c.tail.toNat + 2 ^ c.ringSize - c.head.toNat % 2 ^ c.ringSize) % 2 ^ c.ringSize

/-- The channel's destination can take a record of `n` bytes whole (R451, R459, R460, R559, R572). -/
def State.destTakes (s : State) (b : BayNo) (n : Fin 32) (bytes : Nat) : Bool :=
  let c := s.chan b n
  match s.dmaTarget b n with
  | none => false
  | some t =>
    s.alive t && s.reaches b t && (s.bay t).pwr.ports &&
    (match s.dmaMode b n with
     | 1 => c.ringEnable && s.endpointWorks (s.fldN Fld.dmaEndpoint b n.val) && decide (c.ringUsed + bytes < 2 ^ c.ringSize)
     | 2 => s.streamReady (s.dmaStreamNo b n)
     | _ => s.recTakes t bytes)

/-- Take the oldest record of a queue; a page of the reserve returns once every record in it has gone (R448, R449). -/
def State.popQueue (s : State) (b : BayNo) (i : Fin 16) : State :=
  s.modQueue b i fun q =>
    match q.entries with
    | [] => q
    | e :: rest =>
      let q1 := { q with entries := rest }
      { q1 with pageUsed := if q1.reserveBytes = 0 then 0 else if e.inReserve then (q.pageUsed + e.record.bytes) % 4096 else q.pageUsed }

/-- DMA_Cn_STATUS.CAUSE (R472). -/
def DmaCause.code : DmaCause → Nat
  | .none => 0 | .align => 1 | .count => 2 | .space => 3 | .asleep => 4 | .tooBig => 5 | .hostError => 6

/-- A channel meets an error: EV_DMA_ERROR with its cause and address, and a flush of its queue where it asks for one (R456,
R465). `stops` says that the channel stops in ERROR. -/
def State.dmaError (s : State) (b : BayNo) (n : Fin 32) (cause : DmaCause) (addr : BitVec 64) (stops : Bool) : State :=
  let s1 := s.modDma b n fun c =>
    { c with state := if stops then .error else c.state, cause := cause, waking := if stops then false else c.waking
             holding := if stops then [] else c.holding }
  let s2 := s1.event b 0x0C01 ([wd n.val, wd cause.code] ++ words64 addr)
  if stops && s2.fldB Fld.dmaFlushOnError b n.val && s2.queueMode b n then s2.flushQueue b (s2.dmaQueueNo b n) 2 else s2

/-- A completion is counted and routed (R464). -/
def State.dmaComplete (s : State) (b : BayNo) (n : Fin 32) : State :=
  let s1 := s.modDma b n fun c => { c with doneCount := c.doneCount + 1 }
  match s.fldN Fld.dmaDoneRoute b n.val with
  | 1 => s1.emit (.msix (s.fldN Fld.dmaEndpoint b n.val) (s.fldN Fld.dmaVector b n.val))
  | 2 => s1.raiseLine b ⟨s.fldN Fld.dmaCore b n.val % 8, Nat.mod_lt _ (by decide)⟩ (6 + s.fldN Fld.dmaLine b n.val)
  | _ => s1

/-- A record of a queue mode counts as delivered (R464). -/
def State.dmaDelivered (s : State) (b : BayNo) (n : Fin 32) : State :=
  let since := (s.chan b n).since + 1
  let full := decide (since ≥ s.fldN Fld.dmaCount b n.val)
  let s1 := s.modDma b n fun c => { c with records := c.records + 1, since := if full then 0 else since }
  if full then s1.dmaComplete b n else s1

/-- Bytes of a source or destination element (R462). -/
def State.elemBytes (s : State) (b : BayNo) (n : Fin 32) (dst : Bool) : Nat :=
  2 ^ s.fldN (if dst then Fld.dmaDstWidth else Fld.dmaSrcWidth) b n.val

/-- A mode-4 transfer starts from the addresses and COUNT in the registers; a busy channel ignores and counts the start (R461,
R462). -/
def State.dmaStart (s : State) (b : BayNo) (n : Fin 32) : State :=
  let c := s.chan b n
  let ws := s.elemBytes b n false
  let wt := s.elemBytes b n true
  if c.state ≠ .idle then s.modDma b n fun c => { c with discards := c.discards + 1 }
  else if c.src.toNat % ws ≠ 0 then s.dmaError b n .align c.src true
  else if c.dst.toNat % wt ≠ 0 then s.dmaError b n .align c.dst true
  else if c.count.toNat % max ws wt ≠ 0 then s.dmaError b n .count c.src true
  else s.modDma b n fun c => { c with state := .run, fromAddr := c.src, toAddr := c.dst, length := c.count.toNat, written := 0, holding := [] }

/-- A write of DMA_Cn_RING_CFG (R460, R471): base and size are taken as ENABLE is set, with a size of 12 to 30; clearing ENABLE
zeroes both offsets. -/
def DmaChan.configure (c : DmaChan) (w : Word) : DmaChan :=
  let size := w.extractLsb' 0 5
  let c1 := { c with ringLog2 := size }
  if !w.getLsbD 31 then { c1.ringOff with sent := c.sent }
  else if c.ringEnable then c1
  else if 12 ≤ size.toNat ∧ size.toNat ≤ 30 then
    { c1 with ringEnable := true, ringBase := (c.dst >>> 12) <<< 12, ringSize := size.toNat }
  else c1

/-- A write of DMA_Cn_RING_CFG of a channel (R460): a record in progress to a ring that closes is written again whole. -/
def State.ringCfg (s : State) (b : BayNo) (n : Fin 32) (w : Word) : State :=
  s.modDma b n fun c =>
    let c1 := c.configure w
    if s.dmaMode b n = 1 ∧ !c1.ringEnable then { c1 with sent := 0 } else c1

/-- DMA_GO (R461): a write of GO to DMA_Cn_CTRL. -/
def execDmaGo (b : BayNo) (n : Fin 32) (s : State) : Out :=
  if !s.dmaOn b then .next (s.fencedAccess b .datapath)
  else if s.dmaMode b n ≠ 4 then .next s else .next (s.dmaStart b n)

/-- A transfer is ended at a burst boundary, without a completion (R465). -/
def State.dmaAbort (s : State) (b : BayNo) (n : Fin 32) : State :=
  if decide (s.dmaMode b n = 4) && decide ((s.chan b n).state = .run ∨ (s.chan b n).state = .wait) then
    s.modDma b n fun c => { c with state := .idle, waking := false, holding := [] }
  else s

/-- DMA_ABORT (R465). -/
def execDmaAbort (b : BayNo) (n : Fin 32) (s : State) : Out := if !s.dmaOn b then .next s else .next (s.dmaAbort b n)

/-- An error is cleared: the channel is idle, and a queue mode resumes by itself (R465). -/
def State.dmaClear (s : State) (b : BayNo) (n : Fin 32) : State :=
  if (s.chan b n).state = .error then s.modDma b n fun c => { c with state := .idle } else s

/-- DMA_CLEAR (R465). -/
def execDmaClear (b : BayNo) (n : Fin 32) (s : State) : Out :=
  if !s.dmaOn b then .next (s.fencedAccess b .datapath) else .next (s.dmaClear b n)

/-- DMA_RING_CFG_WRITE (R460). -/
def execDmaRingCfgWrite (b : BayNo) (n : Fin 32) (w : Word) (s : State) : Out :=
  if !s.dmaOn b then .next (s.fencedAccess b .datapath) else .next (s.ringCfg b n w)

/-! ### Registers -/

/-- The state a channel shows: a host ring that is not enabled, or whose endpoint does not work, keeps its channel in WAIT (R460). -/
def State.dmaShown (s : State) (b : BayNo) (n : Fin 32) : DmaState :=
  let c := s.chan b n
  if decide (c.state = .idle) && s.dmaOn b && decide (s.dmaMode b n = 1) &&
      !(c.ringEnable && s.endpointWorks (s.fldN Fld.dmaEndpoint b n.val)) then .wait else c.state

/-- DMA_Cn_STATUS of a channel that shows a state (R472). -/
def DmaChan.status (c : DmaChan) (shown : DmaState) : Word :=
  let st := match shown with
    | .idle => 0 | .run => 1 | .wait => 2 | .error => 3
  wd (st + 4 * c.cause.code + 64 * bitW c.waking + 128 * bitW (!c.holding.isEmpty) + 256 * c.holding.length)

/-- The DMA registers (R471). -/
def State.dmaReg (s : State) (b : BayNo) (off : Nat) : Word :=
  if h : off < 0x800 then
    let c := s.chan b ⟨off / 0x40, by omega⟩
    match off % 0x40 with
    | 0x04 => c.status (s.dmaShown b ⟨off / 0x40, by omega⟩)
    | 0x08 => c.src.setWidth 32
    | 0x0C => (c.src >>> 32).setWidth 32
    | 0x10 => c.dst.setWidth 32
    | 0x14 => (c.dst >>> 32).setWidth 32
    | 0x18 => c.count
    | 0x1C => wd (c.ringLog2.toNat + 2 ^ 31 * bitW c.ringEnable)
    | 0x20 => c.tail
    | 0x24 => c.head
    | 0x28 => c.wb.setWidth 32
    | 0x2C => (c.wb >>> 32).setWidth 32
    | 0x30 => c.doneCount
    | 0x34 => c.records
    | 0x38 => c.wakes ++ c.asleepDrops
    | 0x3C => c.discards
    | _ => 0
  else 0

/-- Replace the low or the high word of a 64-bit register. -/
def putHalf (v : BitVec 64) (high : Bool) (w : Word) : BitVec 64 :=
  if high then w ++ v.extractLsb' 0 32 else v.extractLsb' 32 32 ++ w

/-- A write of a DMA register that the host may write; none for any other (R471). -/
def State.dmaWrite (s : State) (b : BayNo) (off : Nat) (w : Word) : Option State :=
  if h : off < 0x800 then
    let n : Fin 32 := ⟨off / 0x40, by omega⟩
    match off % 0x40 with
    | 0x00 =>
      let s1 := if w.getLsbD 2 then s.dmaClear b n else s
      let s2 := if w.getLsbD 1 then s1.dmaAbort b n else s1
      some (if w.getLsbD 0 && decide (s.dmaMode b n = 4) then s2.dmaStart b n else s2)
    | 0x08 => some (s.modDma b n fun c => { c with src := putHalf c.src false w })
    | 0x0C => some (s.modDma b n fun c => { c with src := putHalf c.src true w })
    | 0x10 => some (s.modDma b n fun c => { c with dst := putHalf c.dst false w })
    | 0x14 => some (s.modDma b n fun c => { c with dst := putHalf c.dst true w })
    | 0x18 => some (s.modDma b n fun c => { c with count := w })
    | 0x1C => some (s.ringCfg b n w)
    | 0x24 => some (s.modDma b n fun c => { c with head := w })
    | 0x28 => some (s.modDma b n fun c => { c with wb := putHalf c.wb false w })
    | 0x2C => some (s.modDma b n fun c => { c with wb := putHalf c.wb true w })
    | _ => none
  else none

/-- The QUE registers (R470). -/
def State.queReg (s : State) (b : BayNo) (off : Nat) : Word :=
  let y := (s.bay b).que
  let q : Queue := y.queues[off / 4 % 16]'(Nat.mod_lt _ (by decide))
  if off < 0x40 then
    match off with
    | 0x00 => wd (((List.finRange 16).foldl (fun v i => v + 2 ^ i.val * bitW (!y.queues[i].entries.isEmpty)) 0) +
        65536 * bitW (decide (y.reserveBytes > 0)) +
        131072 * bitW (decide (y.pagesUsed > 0 ∧ s.fldN Fld.queReserveSize b / 4096 ≤ y.pagesUsed)))
    | 0x08 => wd y.reserveBytes
    | 0x0C => wd y.reservePeak
    | 0x10 => y.fenceDrop
    | 0x14 => wd (bitW y.capPage)
    | _ => 0
  else if off < 0x80 then wd q.level
  else if off < 0xC0 then wd q.entries.length
  else if off < 0x100 then q.dropped
  else if off < 0x140 then q.flushed
  else if off < 0x180 then q.snapLevel
  else if 0x10000 ≤ off ∧ off < 0x14000 then Sparse.get 0 y.snapSeq ((off - 0x10000) / 4)
  else 0

end Sys2Proof.Machine
end

