-- ==== Sys2Proof/Machine/Regs.lean ====
section
/-! DEFINITION. The registers that belong to no block's own file: IMG, CLK, TBS, SEAL, INJ and the identity slot, as a read finds
them (R75 to R78, R128 to R130, R167, R168, R655, R656, R756, R766 to R768). -/
namespace Sys2Proof.Machine

/-- IMG_STATUS.STATE (R76). -/
def ImgState.code : ImgState → Nat
  | .start => 0 | .safe => 1 | .ready => 2 | .run => 3

/-- IMG_STATUS (R76). -/
def State.imgStatus (s : State) : Word :=
  let i := s.img
  let (slot, signed, key) := match i.image with
    | none => (false, false, 0)
    | some m => (m.slot, m.signed, if m.signed then m.keySlot else 0)
  wd (i.state.code + 4 * bitW slot + 8 * bitW signed + 16 * key + 64 * bitW i.quadRead + 256 * i.profile + 4096 * i.pins.toNat +
    16777216 * min 255 i.ignored)

/-- A ring's configuration as it reads (R77). -/
def Ring.word (r : Ring) (events : Bool) : Word :=
  wd (r.sizeLog2.toNat + (if events then 256 * r.vector.toNat + 2 ^ 30 * bitW r.irq else 0) + 2 ^ 31 * bitW r.enable)

/-- Word `k` of a list of bytes read as little-endian words. -/
def byteWord (bs : List Byte) (k : Nat) : Word := wd (leNat ((bs.drop (4 * k)).take 4))

/-- The IMG registers, in bay 0 only (R75, R760). -/
def State.imgReg (s : State) (b : BayNo) (off : Nat) : Word :=
  let i := s.img
  if b ≠ 0 then 0
  else if 0x20 ≤ off ∧ off < 0x40 then byteWord ((i.image.map (·.hash)).getD []) ((off - 0x20) / 4)
  else if 0x80 ≤ off ∧ off < 0xA0 then i.refusal.getD ((off - 0x80) / 4) 0
  else match off with
    | 0x00 => s.imgStatus
    | 0x04 => (i.image.map (·.id)).getD 0
    | 0x08 => wd i.boot.phase
    | 0x40 => i.cmd.base.setWidth 32
    | 0x44 => (i.cmd.base >>> 32).setWidth 32
    | 0x48 => i.cmd.word false
    | 0x4C => i.cmd.tail.setWidth 32
    | 0x50 => i.cmd.head.setWidth 32
    | 0x60 => i.evt.base.setWidth 32
    | 0x64 => (i.evt.base >>> 32).setWidth 32
    | 0x68 => i.evt.word true
    | 0x6C => i.evt.tail.setWidth 32
    | 0x70 => i.evt.head.setWidth 32
    | 0x74 => wd (min i.lost 0xFFFFFFFF)
    | _ => 0

/-- CLK_REF_STATUS.STATE (R129). -/
def SelState.code : SelState → Nat
  | .free => 0 | .locked => 1 | .deglitch => 2 | .holdover => 3 | .buildOut => 4 | .pullIn => 5

/-- The sum of 2^i over the true entries. -/
def boolMask (l : List Bool) : Nat := l.zipIdx.foldl (fun n e => if e.1 then n + 2 ^ e.2 else n) 0

/-- The CLK registers (R128 to R130); the selector's own fields are the headland's decision. -/
def State.clkReg (s : State) (b : BayNo) (off : Nat) : Word :=
  let k := (s.bay b).clk
  let g := s.sel
  if 0x20 ≤ off ∧ off < 0x30 then
    let c : Cand := ⟨(off - 0x20) / 4 % 4, Nat.mod_lt _ (by decide)⟩
    if k.present[c] then Word.ofSigned (s.candOffset b c) else 0x80000000
  else if 0x30 ≤ off ∧ off < 0x40 then wd (s.qualElapsed b ⟨(off - 0x30) / 4 % 4, Nat.mod_lt _ (by decide)⟩)
  else match off with
    | 0x00 => wd (candCode g.active + 16 * candCode g.target + 256 * g.state.code + 4096 * boolMask k.qualified.toList +
        65536 * boolMask k.present.toList + 1048576 * bitW g.episode)
    | 0x04 => Word.ofSigned k.phaseOffset
    | 0x08 => Word.ofSigned (s.dpllFreq b (s.nowAt b))
    | 0x0C => wd (bitW k.spllLock + 2 * bitW k.cpllLock + 4 * bitW k.spllLol + 8 * bitW k.gated + 16 * bitW k.restarting)
    | 0x10 => wd (min k.unlocks 0xFFFF + 65536 * min k.switches 0xFFFF)
    | _ => 0

/-- TBS_STATUS (R168). -/
def State.tbsStatus (s : State) (b : BayNo) : Word :=
  let t := (s.bay b).tbs
  let sv := match s.tbs.servo.state with
    | .free => 0 | .acquiring => 1 | .locked => 2 | .holdover => 3
  let src := match t.source with
    | .rtc => 0 | .ptp => 1 | .leader => 2
  wd (sv + 4 * bitW t.set + 8 * bitW s.tbs.grid.locked + 16 * bitW t.islanded + 32 * bitW t.tdcCoarse + 64 * src)

/-- The TBS registers (R167); a read of TBS_NOW0 finds the counter itself. -/
def State.tbsReg (s : State) (b : BayNo) (off : Nat) : Word :=
  let t := (s.bay b).tbs
  match off with
  | 0x00 => s.tbsStatus b
  | 0x04 => (s.nowAt b).extractLsb' 0 32
  | 0x08 => t.nowLatch.extractLsb' 32 32
  | 0x0C => t.nowLatch.extractLsb' 64 32
  | 0x10 => t.epoch.setWidth 32
  | 0x14 => (t.epoch >>> 32).setWidth 32
  | 0x18 => (satWord (s.tbs.servo.offset * 4000000000000 / (unitsPerSec : Nat))).1
  | 0x1C => Word.ofSigned s.tbs.servo.rateAdj
  | 0x20 => wd (bitW s.tbs.grid.locked + 65536 * s.tbs.grid.ignored.toNat)
  | 0x24 => wd ((List.range 4).foldl (fun n i => n + 256 ^ i * (t.edgeLost.toList.getD i 0).toNat) 0)
  | 0x28 => s.timeDelay b
  | 0x30 => t.snapStamp.extractLsb' 0 32
  | 0x34 => t.snapStamp.extractLsb' 32 32
  | 0x38 => t.snapStamp.extractLsb' 64 32
  | 0x3C => t.snapId
  | 0x44 => wd s.tbs.tb
  | _ => 0

/-- SEAL_STATUS (R656). -/
def State.sealStatus (s : State) : Word :=
  let k := s.keeper
  wd (bitW k.fuses.metrology + 2 * bitW k.island.tampLatch[0] + 4 * bitW k.island.tampLatch[1] + 8 * bitW k.island.vbatLost +
    16 * bitW k.island.rtcValid + 32 * bitW k.full + 64 * bitW k.broken + 128 * bitW (decide (k.fuses.rows.length ≥ 64)))

/-- The SEAL registers of bay 0; the mailbox reads as zero but for the service port (R655, R760). -/
def State.sealReg (s : State) (b : BayNo) (off : Nat) (svc : Bool) : Word :=
  let k := s.keeper
  if b ≠ 0 ∨ (0x100 ≤ off ∧ off < 0x200 ∧ !svc) then 0
  else if 0x20 ≤ off ∧ off < 0x40 then byteWord ((s.img.image.map (·.sealedHash)).getD []) ((off - 0x20) / 4)
  else if 0x40 ≤ off ∧ off < 0x60 then byteWord ((k.fuses.lastHash).getD []) ((off - 0x40) / 4)
  else if 0x70 ≤ off ∧ off < 0x80 then byteWord k.island.headMac ((off - 0x70) / 4)
  else if 0x140 ≤ off ∧ off < 0x1C0 then k.box.args.toList.getD ((off - 0x140) / 4) 0
  else if 0x1C0 ≤ off ∧ off < 0x1E0 then k.box.sigR.toList.getD ((off - 0x1C0) / 4) 0
  else if 0x1E0 ≤ off ∧ off < 0x200 then k.box.sigS.toList.getD ((off - 0x1E0) / 4) 0
  else if 0x240 ≤ off ∧ off < 0x280 then
    let n := (k.logSel - k.logFirst).toNat
    if n < k.logCount then byteWord (s.logBytes n) ((off - 0x240) / 4) else 0xFFFFFFFF
  else match off with
    | 0x000 => s.sealStatus
    | 0x004 => wd (k.fuses.rows.length + 128 * (64 - k.fuses.rows.length))
    | 0x060 => wd (boolMask (k.fuses.sign.toList.map (·.key.isSome)) + 16 * boolMask (k.fuses.sign.toList.map (·.revoked)) +
        256 * boolMask (k.fuses.mac.toList.map (·.isSome)))
    | 0x064 => k.island.counter
    | 0x068 => k.logFirst
    | 0x06C => wd (k.island.buffer.length + 65536 * k.island.lost.toNat)
    | 0x084 => k.island.rtcSec
    | 0x088 => k.island.rtcSub.setWidth 32
    | 0x090 => wd (bitW k.verifyDone + 2 * k.verifyResult + 8 * k.verifyFirst)
    | 0x104 => wd (bitW k.box.busy + 256 * k.box.result)
    | 0x200 => k.logSel
    | _ => 0

/-- Some injector has an action set (R767 bit 9). -/
def State.injectorSet (s : State) : Bool :=
  (List.range 64).any (fun n => decide (s.pkgN Fld.injAction n ≠ 0)) ||
    s.liveBays.any fun b => (List.range 5).any fun n => decide (s.fldN Fld.lnlInjAction b n ≠ 0)

/-- Injection is permitted (R749). -/
def State.injPermitted (s : State) : Bool := decide (s.pkgN Fld.injEnable = 1) && !s.keeper.fuses.metrology

/-- The INJ registers of bay 0 (R756, R760). -/
def State.injReg (s : State) (b : BayNo) (off : Nat) : Word :=
  if b ≠ 0 then 0
  else if off = 0 then wd (bitW s.injPermitted + 2 * bitW s.inj.killed)
  else if h : 0x100 ≤ off ∧ off < 0x200 then (s.inj.streams[(off - 0x100) / 4]).count
  else 0

/-! ### The identity slot -/

/-- The bays of the part's package code: F55, F75 and L100 (R766). -/
def Part.package (p : Part) : Nat := p.log2 - 1

/-- GS_STATUS (R767). -/
def State.gsStatus (s : State) : Word :=
  let bays := s.liveBays
  let holdover := s.timeFlags 0 s.now &&& flagHoldover ≠ 0
  let degraded := s.faults.used.any (fun f => decide (f.code = 1 ∨ f.code = 2 ∨ f.code = 3)) ||
    s.eth.streams.toList.any (·.onStandby)
  let split := s.lnl.split || bays.any fun b => (s.bay b).lnl.island.isSome
  let mismatch := bays.any fun b => decide ((s.bay b).scn.ro.run > 0)
  let noSpare := bays.any fun b => (s.bay b).adc.toList.any (·.spare.isNone)
  wd (s.img.state.code + 4 * s.pwr.state.code + 16 * bitW s.keeper.fuses.metrology + 32 * bitW s.tampered +
    64 * bitW (decide holdover) + 128 * bitW degraded + 256 * bitW split + 512 * bitW (s.injPermitted && s.injectorSet) +
    1024 * bitW mismatch + 2048 * bitW noSpare)

/-- GS_BAYS (R766). -/
def State.gsBays (s : State) : Word :=
  let of := fun (p : BayNo → Bool) => maskOf (allBays.filter fun b => s.present b && p b)
  wd (of (fun _ => true) + 256 * of (fun b => (s.bay b).lost) + 65536 * of fun b => !(s.bay b).lost && (s.bay b).tbs.islanded)

/-- How many bits of a number are set. -/
def popCount (n : Nat) : Nat := (List.range 32).foldl (fun a i => a + bitW (n.testBit i)) 0

/-- GS_SHOAL (R766). -/
def State.gsShoal (s : State) : Word :=
  let z := s.pkgN Fld.lnlShoalSize
  wd (popCount s.packagesReached + 16 * z + 256 * (if z ≤ 1 then 0 else if s.packageNo = 0 then 1 else 2))

/-- SVC_ALERT_N is driven low: a cause is set that the mask selects (R771). -/
def State.alertDriven (s : State) : Bool := decide (s.ident.alert &&& s.ident.alertMask ≠ 0)

/-- The identity slot (R766); serial, die and stepping words are the part's own. -/
def State.idReg (s : State) (b : BayNo) (off : Nat) : Word :=
  match off with
  | 0x000 => 0x0B1C0A4E
  | 0x004 => wd (s.part.bays + 16 * s.part.package + 64 * ((Config.unstated 6 0).toNat % 2))
  | 0x008 => wd (Config.stepping.toNat % 65536 + 65536)
  | 0x00C => wd (b.val + 8 * bitW (decide (b = 0)) + 16 * s.packageNo.toNat)
  | 0x010 => Config.serial.extractLsb' 0 32
  | 0x014 => Config.serial.extractLsb' 32 32
  | 0x018 => (Config.dieId b).extractLsb' 0 32
  | 0x01C => (Config.dieId b).extractLsb' 32 32
  | _ =>
    if b ≠ 0 then 0
    else match off with
      | 0x100 => s.gsStatus
      | 0x104 => s.gsBays
      | 0x108 => s.gsShoal
      | 0x10C => s.img.events
      | 0x110 => s.ident.scratch
      | 0x200 => s.ident.alert.setWidth 32
      | 0x204 => s.ident.alertMask.setWidth 32
      | 0x208 => wd (s.ident.done.toNat + 65536 * s.ident.discarded.toNat + 16777216 * s.ident.refused.toNat)
      | _ => 0

end Sys2Proof.Machine
end

