-- ==== Sys2Proof/Machine/Vrt.lean ====
section
/-! DEFINITION. Ethernet streams: VRT packets, their context, and the injector of a stream (R565 to R572, R749 to R752). -/
namespace Sys2Proof.Machine

/-! ### Packet sizes -/

/-- The per-packet overhead O of a stream's fragments on port `p`; a signal data packet has a 4-byte trailer in place of the
8-byte fragment header (R564, R570). -/
def State.overhead (s : State) (p : Nat) (signal : Bool) : Nat :=
  Vals.overhead s.vals (ethPortOf p).1.val (ethPortOf p).2.val signal

/-- ETH.Pi_FRAME_MAX of a package-wide port. -/
def State.frameMax (s : State) (p : Nat) : Nat := s.fldN Fld.ethPFrameMax (ethPortOf p).1 (ethPortOf p).2.val

/-- P, the largest fragment payload (R570). -/
def State.fragmentMax (s : State) (p : Nat) : Nat := 32 * ((s.frameMax p - s.overhead p false) / 32)

/-- K_p, the samples of a full signal data packet, for samples of `w` bytes (R570). -/
def State.packetSamples (s : State) (p w : Nat) : Nat := 8 * ((s.frameMax p - s.overhead p true) / (8 * w))

/-! ### The parts of a record -/

/-- The port of an IQ record (R441). -/
def Rec.port (r : Rec) : Port := ⟨bits r.gen.toNat 7 6 % 4, Nat.mod_lt _ (by decide)⟩

/-- The span of the first `n` samples of an IQ record (R213, R441). -/
def State.spanOf (s : State) (r : Rec) (n : Nat) : Nat :=
  durOf (n * 2 ^ (bits r.gen.toNat 5 1 + 1)) (max 1 (s.portLoad r.bay r.port))

/-- The record travels as signal data: an IQ record in the SAMPLES map (R568). -/
def State.asSamples (s : State) (n : Fin 64) (r : Rec) : Bool := decide (s.pkgN Fld.ethSMap n.val = 1 ∧ r.typ = .iq)

/-- The payload bytes that one packet of a record carries of it, and how many packets it takes (R567, R570). -/
def State.packetSpan (s : State) (n : Fin 64) (r : Rec) : Nat × Nat :=
  let p := s.streamPort n
  if s.asSamples n r then
    let k := max 1 (s.packetSamples p r.sampleBytes)
    (k * r.sampleBytes, max 1 (ceilDiv r.sampleCount k))
  else
    let m := max 1 (s.fragmentMax p)
    (m, max 1 (ceilDiv r.bytes m))

/-- How many of a record's bytes must have been read before packet `i` of it is complete. -/
def State.packetEnd (s : State) (n : Fin 64) (r : Rec) (i : Nat) : Nat :=
  let (m, c) := s.packetSpan n r
  if i + 1 ≥ c then r.bytes else if s.asSamples n r then 32 + (i + 1) * m else (i + 1) * m

/-- Two samples in network order: each 16-bit pair as I then Q, each 12-bit pair as one 24-bit item with I in its upper
half (R568). -/
def netSample (wide : Bool) (bs : List Byte) : List Byte :=
  if wide then match bs with
    | [i0, i1, q0, q1] => [i1, i0, q1, q0]
    | _ => bs
  else
    let v := BitVec.ofNat 24 (leNat bs)
    let x : BitVec 24 := v.extractLsb' 0 12 ++ v.extractLsb' 12 12
    [x.extractLsb' 16 8, x.extractLsb' 8 8, x.extractLsb' 0 8]

/-- `k` samples of a byte string in network order. -/
def netSamples (wide : Bool) (k : Nat) (bs : List Byte) : List Byte :=
  match k with
  | 0 => []
  | k + 1 =>
    let w := if wide then 4 else 3
    netSample wide (bs.take w) ++ netSamples wide k (bs.drop w)

/-- The sample before which invalid ones of an IQ record begin, and the one from which they have ended (R228). -/
def Rec.invalidFrom (r : Rec) (lo hi : Nat) : Bool :=
  r.flags.getLsbD 0 && decide (r.w6hi.toNat < hi) && decide (lo < r.w6lo.toNat ∨ r.w6lo = 0xFFFF)

/-- The trailer indicators of packet `i` of `c` packets of an IQ record, with samples `lo` up to `hi` (R568, R751). -/
def State.vrtMarks (s : State) (n : Fin 64) (r : Rec) (i c lo hi : Nat) : VrtMarks :=
  let b := (ethPortOf (s.streamPort n)).1
  { calibrated := decide (s.tbs.servo.state = .locked) && !(s.bay b).tbs.islanded
    valid := !r.invalidFrom lo hi
    locked := !r.flags.getLsbD 4
    overRange := r.flags.getLsbD 5
    sampleLoss := (decide (i = 0) && r.flags.getLsbD 2) || (decide (i + 1 = c) && r.flags.getLsbD 1)
    injected := r.flags.getLsbD 7 }

/-- Packet `i` of a record: its stamp and what it carries (R567, R568). -/
def State.packetBody (s : State) (n : Fin 64) (r : Rec) (i : Nat) : Stamp × VrtBody :=
  let (m, c) := s.packetSpan n r
  if s.asSamples n r then
    let w := r.sampleBytes
    let lo := i * (m / w)
    let hi := min r.sampleCount (lo + m / w)
    let bs := ((wordsBytes r.payload).drop (lo * w)).take ((hi - lo) * w)
    (later r.stamp (s.spanOf r lo), .samples (netSamples (decide (w = 4)) (hi - lo) bs) (s.vrtMarks n r i c lo hi))
  else (r.stamp, .fragment r.seq c i (((wordsBytes r.words).drop (i * m)).take m))

/-! ### Sending -/

/-- The stream ID of a record's producer (R566). -/
def State.sidOf (s : State) (n : Fin 64) (r : Rec) : Word :=
  wd (s.pkgN Fld.ethSSidHi n.val * 65536 + r.package.toNat * 16384 + r.bay.val * 2048 + r.source.toNat)

/-- The integer seconds and the picoseconds of a stamp, rounded half up with a carry (R566). -/
def vrtTime (t : Stamp) : Word × BitVec 64 :=
  let frac := t.toNat % 2 ^ 64
  let ps := (2 * frac * 1000000000000 + 2 ^ 64) / 2 ^ 65
  let sec := t.toNat / 2 ^ 64
  if ps ≥ 1000000000000 then (wd (sec + 1), BitVec.ofNat 64 (ps - 1000000000000)) else (wd sec, BitVec.ofNat 64 ps)

/-- Take the next packet count of a stream ID (R566). -/
def State.nextCount (s : State) (n : Fin 64) (sid : Word) : BitVec 4 × State :=
  let k := Sparse.get 0 s.eth.streams[n].counts sid.toNat
  (BitVec.ofNat 4 k, s.modStream n fun x => { x with counts := Sparse.set 0 x.counts sid.toNat ((k + 1) % 16) })

/-- Send one VRT packet of a record's producer on the stream's port: it counts in the stream and the port (R565, R566,
R571, R587). -/
def State.sendVrt (s : State) (n : Fin 64) (r : Rec) (t : Stamp) (body : VrtBody) : State :=
  let c := s.nextCount n (s.sidOf n r)
  let p := c.2.streamPort n
  let v : Vrt :=
    { sid := s.sidOf n r, oui := BitVec.ofNat 24 (s.pkgN Fld.ethClassOui), class_ := BitVec.ofNat 16 r.typ.code, count := c.1
      tsi := 3, tsf := 2, dest := (List.range 8).map (c.2.destWord (s.pkgN Fld.ethSDest n.val))
      dscp := BitVec.ofNat 6 (s.pkgN Fld.ethSDscp n.val), vlan := BitVec.ofNat 12 (s.fldN Fld.ethPVlan (ethPortOf p).1 (ethPortOf p).2.val)
      seconds := (vrtTime t).1, picos := (vrtTime t).2, plain := decide (s.pkgN Fld.ethSVrt n.val = 1), body := body }
  let s2 := c.2.modStream n fun x => { x with packets := x.packets + 1 }
  (s2.modEth (ethPortOf p).1 (ethPortOf p).2 fun e => { e with txFrames := e.txFrames + 1 }).emit (.vrt n.val p v)

/-- F_p of a preset as a fraction (R223). -/
def passband (preset : Nat) : Nat × Nat :=
  match preset with
  | 0 => (7, 10)
  | 1 => (3, 4)
  | 2 => (25, 32)
  | _ => (4, 5)

/-- f_NCO of a port in units of 2^-20 Hz, towards minus infinity (R217). -/
def State.ncoFreq (s : State) (b : BayNo) (p : Port) : Int :=
  let complex := !p.isRf && !s.replayed b p && s.fldB Fld.jesSComplex b p.xs
  let fin := s.portLoad b p / (if complex then 2 else 1)
  (s.ftw b p).toInt * (Int.ofNat fin) / 2 ^ 28

/-- P_REF of the input of an RF port in 1/128 dBm, and 0 for an XS port (R171, R569). -/
def State.refLevel (s : State) (b : BayNo) (p : Port) : Int :=
  if h : p.val < 2 then
    let a := (s.bay b).afe.inputs[p.val]
    Int.ofNat (256 + 128 * a.step + 2 * a.trim)
  else 0

/-- The context of an I/Q source, with its next signal data packet's indicators (R569). -/
def State.vrtContext (s : State) (r : Rec) (changed : Bool) (m : VrtMarks) : VrtContext :=
  let p := r.port
  let rate := s.portLoad r.bay p * 2 ^ 20 / 2 ^ (bits r.gen.toNat 5 1 + 1)
  let f := passband (bits r.gen.toNat 9 8)
  { changed := changed, refLevel := s.refLevel r.bay p, bandwidth := rate * f.1 / f.2, frequency := s.ncoFreq r.bay p
    rate := rate, marks := m, format := r.gen &&& 0x0FFF }

/-- Send a signal data packet's context before it when it is due: before the first packet of its source, after a change of
the format word or an event of its port, and periodically (R569). Keys and values are those of `EthStream.ctx`. -/
def State.sendContext (s : State) (n : Fin 64) (r : Rec) (t : Stamp) (m : VrtMarks) : State :=
  let key := r.package.toNat * 16384 + r.bay.val * 2048 + r.source.toNat
  let now : Word := wd (65536 + (r.gen &&& 0x0FFF).toNat)
  let old := Sparse.get 0 s.eth.streams[n].ctx key
  if old = now then s
  else
    let changed := decide (old &&& 0xFFFDFFFF ≠ now)
    let s1 := s.modStream n fun x => { x with ctx := Sparse.set 0 x.ctx key now }
    s1.sendVrt n r t (.context (s1.vrtContext r changed m))

/-- Invert bit `k` of a packet's VRT payload (R751 action 2). -/
def VrtBody.flip (v : VrtBody) (k : Nat) : VrtBody :=
  let bitOf := fun (bs : List Byte) (j : Nat) =>
    let i := j / 8 % max 1 bs.length
    bs.set i (bs.getD i 0 ^^^ BitVec.ofNat 8 (2 ^ (j % 8)))
  match v with
  | .fragment q c i bs =>
    if k < 32 then .fragment (q ^^^ wd (2 ^ k)) c i bs
    else if k < 48 then .fragment q c (i ^^^ 2 ^ (k - 32)) bs
    else if k < 64 then .fragment q (c ^^^ 2 ^ (k - 48)) i bs
    else .fragment q c i (bitOf bs (k - 64))
  | .samples bs m => .samples (bitOf bs k) m
  | .context c => .context c

/-- Bits of a packet's VRT payload. -/
def VrtBody.size : VrtBody → Nat
  | .fragment _ _ _ bs => 64 + 8 * bs.length
  | .samples bs _ => 8 * bs.length
  | .context _ => 0

/-- Send packet `i` of a record, with what the injector does to it: a dropped one is not sent and its count is skipped, a
corrupted one has one bit inverted (R751). -/
def State.sendPacket (s : State) (n : Fin 64) (r : Rec) (i act victim : Nat) : State :=
  let (t, body) := s.packetBody n r i
  let s1 := match body with
    | .samples _ m => s.sendContext n r t m
    | _ => s
  if act = 1 ∧ i = victim then (s1.nextCount n (s1.sidOf n r)).2
  else if act = 2 ∧ i = victim then
    let (v, s2) := s1.takeFree 32
    s2.sendVrt n r t (body.flip (v.toNat % max 1 body.size))
  else s1.sendVrt n r t body

/-- Send the packets of a record that its bytes from `old` up to `new` complete. -/
def State.sendPackets (s : State) (n : Fin 64) (r : Rec) (old new act victim : Nat) : State :=
  ((List.range (s.packetSpan n r).2).filter fun i => decide (old < s.packetEnd n r i) && decide (s.packetEnd n r i ≤ new)).foldl
    (fun s i => s.sendPacket n r i act victim) s

/-- Send a whole record (R751: one that an injector held). -/
def State.sendWhole (s : State) (n : Fin 64) (r : Rec) : State := s.sendPackets n r 0 r.bytes 0 0

/-! ### The injector of a stream -/

/-- What a record's injector does to it as its sending starts: the action, and the packet acted on, which the LFSR chooses
(R618, R751, R752). -/
def State.injectorAct (s : State) (n : Fin 64) (r : Rec) : Nat × Nat × State :=
  let a := s.pkgN Fld.injAction n.val
  if !s.injecting || !r.picked || decide (a = 0) then (0, 0, s)
  else
    let (v, s1) := s.takeFree 16
    let told := s1.inj.streams[n].told
    let s2 := s1.modInj n fun x => { x with count := x.count + 1, told := true }
    (a, v.toNat % (s2.packetSpan n r).2, if told then s2 else s2.event (ethPortOf (s2.streamPort n)).1 0x1902 [wd n.val])

/-- What a channel's injector holds leaves, and counts as delivered (R464, R751). -/
def State.sendHeld (s : State) (n : Fin 64) (ps : List HeldPacket) : State :=
  ps.foldl (fun s p => match p with
    | .data dst r => (s.sendWhole n r).dmaDelivered ⟨dst / 32 % 8, Nat.mod_lt _ (by decide)⟩ ⟨dst % 32, Nat.mod_lt _ (by decide)⟩
    | .fire .. => s) s

/-- Hold a record of channel `c` of bay `b`: until WINDOW − 1 further records have been sent, or for DELAY (R751 actions 3, 4). -/
def State.holdRecord (s : State) (n : Fin 64) (act : Nat) (b : BayNo) (c : Fin 32) (r : Rec) : State :=
  let h : Held :=
    { packet := .data (32 * b.val + c.val) r, left := s.pkgN Fld.injWindow n.val - 1
      due := if act = 4 then some (later (s.nowAt (ethPortOf (s.streamPort n)).1) (ofNs (s.pkgN Fld.injDelay n.val))) else none }
  s.modInj n fun x => { x with held := x.held ++ [h] }

/-- A record of the stream has passed its injector: held ones come one record nearer, and those that have waited long enough
are sent after it (R751 action 3). -/
def State.passRecord (s : State) (n : Fin 64) : State :=
  let near := s.inj.streams[n].held.map fun h => if h.due.isNone then { h with left := h.left - 1 } else h
  let out := fun (h : Held) => h.due.isNone && decide (h.left = 0)
  (s.modInj n fun x => { x with held := near.filter fun h => !out h }).sendHeld n ((near.filter out).map (·.packet))

/-- ETH_INJ_DELAY_EXPIRE (R751 action 4): the first record that a stream's injector holds for a time is sent. A stream that
may not send waits (R451, R572). -/
def execEthInjDelayExpire (n : Fin 64) (s0 : State) : Out :=
  match s0.inj.streams[n].held.find? fun h => h.due.isSome with
  | none => .next s0
  | some h =>
    if !s0.streamReady n then .next s0
    else
      let s := s0.reach (h.due.getD 0)
      .next ((s.modInj n fun x => { x with held := x.held.erase h }).sendHeld n [h.packet])

/-- Packets that the injectors of links hold are sent at once. -/
def State.freeLinks (s : State) : State :=
  s.eachBay s.liveBays fun s b => (List.finRange 5).foldl (fun s n =>
    let held := (s.bay b).lnl.injectors[n].held
    (s.modLink b n fun x => { x with held := [] }).release b (held.map (·.packet))) s

/-- Records that the injectors of streams hold are sent at once. -/
def State.freeStreams (s : State) : State :=
  (List.finRange 64).foldl (fun s n =>
    let held := s.inj.streams[n].held
    if held.isEmpty then s else (s.modInj n fun x => { x with held := [] }).sendHeld n (held.map (·.packet))) s

/-- A write of 0xD1 to INJ_KILL: every injector stops until IMAGE_RESTART, and what they hold is sent (R749). -/
def State.killInjectors (s : State) : State :=
  let s1 := (s.freeLinks).freeStreams
  ((s1.modInjPkg fun y => { y with killed := true })).event 0 0x1901 []

/-- INJ_KILL (R749). -/
def execInjKill (v : Word) (s : State) : Out := if !s.alive 0 || v ≠ 0xD1 then .next s else .next s.killInjectors

end Sys2Proof.Machine
end

