-- ==== Sys2Proof/Machine/Map.lean ====
section
/-! DEFINITION. The package register map: what a read of a word finds and does, and what a write of a word does (R28 to R30, R447,
R466, R758 to R763, R769 to R772). -/
namespace Sys2Proof.Machine

/-- Who reads or writes: the host through the control endpoint, the service port, or DMA space 3 (R765). -/
inductive Path where
  | host | service | dma
  deriving DecidableEq, Repr

/-- The code of a path in EV_ACCESS_DISCARDED (R765). -/
def Path.code : Path → Nat
  | .host => 0 | .service => 1 | .dma => 2

/-- The state a command's meaning answers. -/
def afterOf (o : Out) (s : State) : State :=
  match o with
  | .next t => t
  | _ => s

/-- The core that the apertures show (R430). -/
def State.winCore (s : State) (b : BayNo) : CoreNo := ⟨(s.bay b).mco.win.toNat, (s.bay b).mco.win.isLt⟩

/-! ### Power domains of addresses -/

/-- The domain that answers an offset of a bay's window; none is the lagoon, always on (R717, log entry 30). -/
def State.domainAt (s : State) (b : BayNo) (off : Nat) : Option Domain :=
  let o := off % 0x100000
  match off / 0x100000 with
  | 0x03 => if o < 0x28 then some (.frontEnd ⟨o / 4 % 2, Nat.mod_lt _ (by decide)⟩) else none
  | 0x04 => some (.frontEnd ⟨o / 4 % 2, Nat.mod_lt _ (by decide)⟩)
  | 0x09 => some .scanOut
  | 0x0A =>
    if o ≥ 0x20000 then (if (s.core b (s.winCore b)).ebbed then some (.core (s.winCore b)) else some .datapath)
    else if o < 0x800 ∧ o % 0x100 ≠ 0 ∧ o % 0x100 ≠ 0x18 ∧ (s.core b ⟨o / 0x100 % 8, Nat.mod_lt _ (by decide)⟩).ebbed then
      some (.core ⟨o / 0x100 % 8, Nat.mod_lt _ (by decide)⟩)
    else some .datapath
  | 0x0D | 0x0F | 0x10 | 0x11 => some .ports
  | 0x0E => if h : 0x100 ≤ o ∧ o < 0x700 then some (.quad ⟨(o - 0x100) / 0x100, by omega⟩) else some .supervisor
  | 0x13 => some .sealKeeper
  | 0x15 => some .hkc
  | 0x16 | 0x17 => none
  | n => if (0x05 ≤ n ∧ n ≤ 0x0C) ∨ 0x20 ≤ n then some .datapath else some .supervisor

/-- The domain of an offset that is fenced, if it is (R466). -/
def State.fencedAt (s : State) (b : BayNo) (off : Nat) : Option Domain :=
  match s.domainAt b off with
  | none => none
  | some d => if (s.bay b).pwr.powered d then none else some d


/-! ### Capture memory -/

/-- Where the free space of capture memory begins (R446). -/
def State.captureFree (s : State) (b : BayNo) : Nat :=
  (List.range 8).foldl (fun n u => n + s.fldN Fld.queSegSize b u) 0 + (List.range 16).foldl (fun n q => n + s.fldN Fld.queQSize b q) 0 +
    s.fldN Fld.queReserveSize b

/-- A byte of capture memory: what the segment buffers, the queues and the reserve hold there is not stated (log entry 31). -/
def State.captureByte (s : State) (b : BayNo) (a : Nat) : Byte × State :=
  if a < s.captureFree b then s.takeFree 8 else (Sparse.get 0 (s.bay b).que.capMem a, s)

/-- Bytes of capture memory. -/
def State.captureBytes (s : State) (b : BayNo) (a : Nat) : Nat → List Byte × State
  | 0 => ([], s)
  | n + 1 =>
    let x := s.captureByte b (a % 67108864)
    let r := x.2.captureBytes b (a + 1) n
    (x.1 :: r.1, r.2)

/-- Write bytes of capture memory. -/
def State.capturePut (s : State) (b : BayNo) (a : Nat) (bs : List Byte) : State :=
  s.modBay b fun y => { y with que := { y.que with capMem := Sparse.setRun 0 y.que.capMem (a % 67108864) bs } }

/-- The capture address that an offset of the aperture shows (R447). -/
def State.apertureAddr (s : State) (b : BayNo) (off : Nat) : Nat := off % 0x2000000 + (if (s.bay b).que.capPage then 0x2000000 else 0)

/-! ### Reads -/

/-- A register that an image setting initialises, or a memory that the image loads (R763). -/
def initRegister (off : Nat) : Bool :=
  let o := off % 0x100000
  match off / 0x100000 with
  | 0x07 => decide (o ≥ 0x80000)
  | 0x09 => decide (o ≥ 0x10000) || decide (0x90 ≤ o ∧ o < 0xA0)
  | 0x0A => decide (o ≥ 0x20000)
  | 0x0C => decide (8 ≤ o % 0x40 ∧ o % 0x40 < 0x1C ∧ o < 0x800)
  | 0x16 => decide (0x10 ≤ o ∧ o < 0x20)
  | _ => false

/-- The reset value of such a register: the mask store's is no limit, a VBLANK register's the field's default (R321, R370). -/
def initValue (off : Nat) : Word :=
  let o := off % 0x100000
  if off / 0x100000 = 7 then 0x80008000
  else if off / 0x100000 = 9 ∧ ((0x10000 ≤ o ∧ o < 0x10800) ∨ (0x20000 ≤ o ∧ o < 0x20800)) then
    match shadowField (o % 0x10000 / 4) with
    | none => 0
    | some (f, i) => rawWidth f (fieldDefault f i)
  else 0

/-- A memory that the service port does not read (R770). -/
def hiddenFromService (off : Nat) : Bool :=
  let o := off % 0x100000
  decide (off ≥ 0x2000000) || (decide (off / 0x100000 = 0x0A) && decide (o ≥ 0x20000)) ||
    (decide (off / 0x100000 = 0x09) && decide (o ≥ 0x40000))

/-- The word a slot shows (R764). -/
def State.slotWord (s : State) (b : BayNo) (off : Nat) (p : Path) : Word :=
  let o := off % 0x100000
  match off / 0x100000 with
  | 0x00 => s.idReg b o
  | 0x01 => s.clkReg b o
  | 0x02 => s.tbsReg b o
  | 0x03 => s.afeReg b o
  | 0x04 => s.adcReg b o
  | 0x05 => s.ddcReg b o
  | 0x06 => s.xfmReg b o
  | 0x07 => s.trgReg b o
  | 0x08 => s.denReg b o
  | 0x09 => s.scnReg b o
  | 0x0A => s.mcoReg b o
  | 0x0B => s.queReg b o
  | 0x0C => s.dmaReg b o
  | 0x0D => s.recReg b o
  | 0x0E => s.lneReg b o
  | 0x0F => s.pciReg b o
  | 0x10 => s.ethReg b o
  | 0x11 => s.jesReg b o
  | 0x12 => s.lnlReg b o
  | 0x13 => s.sealReg b o (decide (p = .service))
  | 0x14 => s.calReg b o
  | 0x15 => s.hkcReg b o
  | 0x16 => s.auxReg b o
  | 0x17 => s.pwrReg b o
  | 0x18 => s.monReg b o
  | 0x19 => s.injReg b o
  | 0x1A => s.imgReg b o
  | _ => 0

/-- What a read of a word does besides: counters that clear and registers that latch (R761, R772). -/
def State.readEffect (s : State) (b : BayNo) (off : Nat) : State :=
  let o := off % 0x100000
  match off / 0x100000 with
  | 0x01 => if o = 0x10 then afterOf (execClkFaultCntRead b s) s else s
  | 0x02 => if o = 0x04 then afterOf (execTbsNowRead b s) s else if o = 0x24 then afterOf (execTbsEdgeLostRead b s) s else s
  | 0x0A => if o < 0x800 ∧ o % 0x100 = 0x1C then afterOf (execMcMboxOutRead b ⟨o / 0x100 % 8, Nat.mod_lt _ (by decide)⟩ s) s else s
  | 0x0B => if o = 0x0C then afterOf (execQueReservePeakRead b s) s else s
  | 0x0D =>
    if 0x100 ≤ o ∧ o < 0x200 ∧ o % 32 = 0x0C then
      s.modDrive b ⟨(o - 0x100) / 32 % 8, Nat.mod_lt _ (by decide)⟩ fun d => { d with latMax := 0 }
    else s
  | 0x0E =>
    if h : 0x100 ≤ o ∧ o < 0x700 ∧ (o - 0x100) % 0x40 = 0x0C then afterOf (execLaneErrRead b ⟨(o - 0x100) / 0x40, by omega⟩ 0 0 s) s else s
  | 0x17 => if o = 0x28 then afterOf (execWatchPeakRead b s) s else s
  | 0x18 => if b = 0 ∧ o = 0x804 then afterOf (execFaultLongestRead s) s else s
  | 0x1A => if b = 0 ∧ o = 0x74 then afterOf (execImgEvtLostRead s) s else s
  | _ => s

/-- The bay and the offset of a package address; none beyond BAR0 (R28, R758). -/
def State.place (s : State) (a : Nat) : Option (BayNo × Nat) :=
  if h : a / 0x4000000 < 8 then
    let b : BayNo := ⟨a / 0x4000000, h⟩
    if s.present b then some (b, a % 0x4000000) else none
  else none

/-- A read of capture memory through its aperture (R447). -/
def State.readCapture (s : State) (b : BayNo) (off : Nat) : Word × State :=
  let r := s.captureBytes b (s.apertureAddr b off) 4
  (wd (leNat r.1), r.2)

/-- A read of a register; what it does comes after it has found the value, but for the lane counters that it latches (R551,
R761, R772). -/
def State.readReg (s : State) (b : BayNo) (off : Nat) (p : Path) : Word × State :=
  let s1 := s.readEffect b off
  (if off / 0x100000 = 0x0E then s1.slotWord b off p else s.slotWord b off p, s1)

/-- A read of a word whose domain answers (R447, R761, R763, R772). -/
def State.readOpen (s : State) (b : BayNo) (off : Nat) (p : Path) : Word × State :=
  if s.initHeld && initRegister off then (initValue off, s)
  else if off ≥ 0x2000000 then s.readCapture b off
  else s.readReg b off p

/-- A read of a word that meets a fence (R466). -/
def State.readFenced (s : State) (b : BayNo) (d : Domain) (p : Path) : Word × State :=
  (0xFFFFFFFF, if p = .host then s.asleepAccess b d else s)

/-- A read of the word at an offset of a bay's window (R30, R466, R761, R763, R770, R772). -/
def State.readAt (s : State) (b : BayNo) (off : Nat) (p : Path) : Word × State :=
  if (s.bay b).lost || !s.reaches 0 b then (0xFFFFFFFF, s)
  else if p = .service ∧ hiddenFromService off then (0, s)
  else match s.fencedAt b off with
    | some d => s.readFenced b d p
    | none => s.readOpen b off p

/-- A read of the word at a package address that is a multiple of 4; an address beyond BAR0 reads 0 (R28, R758, R759). -/
def State.readWord (s : State) (a : Nat) (p : Path) : Word × State :=
  match s.place a with
  | none => (0, s)
  | some x => s.readAt x.1 x.2 p

/-! ### Writes -/

/-- The bytes of a word that `en` selects. -/
def enabledBytes (v : Word) (en : BitVec 4) : List (Nat × Byte) :=
  (List.range 4).filterMap fun i => if en.getLsbD i then some (i, v.extractLsb' (8 * i) 8) else none

/-- A word with some of its bytes replaced. -/
def mergeWord (old v : Word) (en : BitVec 4) : Word :=
  (enabledBytes v en).foldl (fun w e => (w &&& ~~~(wd (255 * 256 ^ e.1))) ||| wd (e.2.toNat * 256 ^ e.1)) old

/-- A memory write reaches the apertures of a core: instruction memory, and any memory of a sealed core, while the core is halted;
elsewhere it is discarded (R425, R427, R430, R759). -/
def State.coreAperture (s : State) (b : BayNo) (o : Nat) (v : Word) (en : BitVec 4) : Option State :=
  let c := s.winCore b
  let k := s.core b c
  let still := decide (k.mode = .halted ∨ k.mode = .fault)
  if s.sealedCore b c && (s.keeper.fuses.metrology || !still) then none
  else if 0x20000 ≤ o ∧ o < 0x30000 then
    let a := o % 0x10000 / 4
    if !still then none
    else some (afterOf (execCoreImemWrite b (BitVec.ofNat 14 a) (mergeWord (Sparse.get 0#32 k.imem a) v en) s) s)
  else if 0x40000 ≤ o ∧ o < 0x60000 then
    let s1 := s.modCore b c fun k => (enabledBytes v en).foldl (fun k e => k.poke (o % 0x20000 + e.1) 1 e.2.toNat) k
    some (s1.ctrlTrace b c 3)
  else none

/-- A write of MC_CTRL (R425, R427, R430). -/
def State.coreCtrl (s : State) (b : BayNo) (c : CoreNo) (v : Word) : State :=
  let s1 := if v.getLsbD 0 then afterOf (execMcCtrlHalt b c s) s else s
  let s2 := if v.getLsbD 1 then afterOf (execMcCtrlResume b c s1) s1 else s1
  if v.getLsbD 2 then afterOf (execMcCtrlReset b c s2) s2 else s2

/-- A write of LNE_Lk_CTRL; whether the checker locks again is the line's own (R540, R542, R545, log entry 32). -/
def State.laneCtrl (s : State) (b : BayNo) (k : Fin 24) (v : Word) : State :=
  let s1 := if v.getLsbD 0 then afterOf (execLaneClear b k s) s else s
  let s2 := if v.getLsbD 1 then afterOf (execLaneTxSleep b k s1) s1 else s1
  let s3 := if v.getLsbD 2 then afterOf (execLaneTxWake b k s2) s2 else s2
  let s4 := if v.getLsbD 3 then afterOf (execLaneRxSleep b k s3) s3 else s3
  let s5 := if v.getLsbD 4 then afterOf (execLaneRxWake b k s4) s4 else s4
  if v.getLsbD 5 then
    let x := s5.takeFree 1
    x.2.reseed b k (decide (x.1 = 1))
  else s5

/-- A write of LNE_Lk_TEST (R540, R543); whether the checker locks is the line's own (log entry 32). -/
def State.laneTest (s : State) (b : BayNo) (k : Fin 24) (v : Word) : State :=
  let x := s.takeFree 1
  let y := x.2.setTest b k (v.extractLsb' 0 10)
  let s2 := if y.2 then y.1.reseed b k (decide (x.1 = 1)) else y.1
  if v.getLsbD 10 then afterOf (execErrInject b k s2) s2 else s2

/-- A service command starts (R649): LOG_ARCHIVE finds whether the flash takes its region as a free value. -/
def State.sealCommand (s : State) (op : Nat) : State :=
  match op with
  | 1 => afterOf (execProvisionSignKey s) s
  | 2 => afterOf (execProvisionMacKey s) s
  | 3 => afterOf (execRevoke s) s
  | 4 => afterOf (execTamperClear s) s
  | 5 => afterOf (execLogVerify s) s
  | 6 =>
    let (x, s1) := s.takeFree 1
    afterOf (execLogArchive (decide (x = 1)) s1) s1
  | _ => s

/-- Where `n` words from `base` hold offset `o`: the index of the word. -/
def wordIn (o base n : Nat) : Option (Fin n) := if h : base ≤ o ∧ (o - base) / 4 < n then some ⟨(o - base) / 4, h.2⟩ else none

/-- A write of the SEAL slot of bay 0: the mailbox from the service port alone (R649, R655, R770). -/
def State.sealWrite (s : State) (o : Nat) (v : Word) (p : Path) : Option State :=
  let modBox := fun (f : Mailbox → Mailbox) => some (s.modSeal fun k => { k with box := f k.box })
  if o = 0x200 then some (s.modSeal fun k => { k with logSel := v })
  else if p ≠ .service then none
  else if o = 0x100 then some (s.sealCommand (v.toNat % 256))
  else match wordIn o 0x140 32, wordIn o 0x1C0 8, wordIn o 0x1E0 8 with
    | some i, _, _ => modBox fun m => { m with args := m.args.set i v }
    | none, some i, _ => modBox fun m => { m with sigR := m.sigR.set i v }
    | none, none, some i => modBox fun m => { m with sigS := m.sigS.set i v }
    | none, none, none => none

/-- A ring's base takes a word while the ring is disabled; the low 12 bits are reserved (R75, R78). -/
def Ring.setBase (r : Ring) (high : Bool) (v : Word) : Ring :=
  if r.enable then r else { r with base := putHalf r.base high (if high then v else v &&& 0xFFFFF000) }

/-- A write of the IMG slot of bay 0 (R75). -/
def State.imgWrite (s : State) (o : Nat) (v : Word) : Option State :=
  match o with
  | 0x40 => some (s.modImg fun i => { i with cmd := i.cmd.setBase false v })
  | 0x44 => some (s.modImg fun i => { i with cmd := i.cmd.setBase true v })
  | 0x48 => some (afterOf (execImgCmdCfgWrite v s) s)
  | 0x4C => some (afterOf (execImgCmdTailWrite (v.extractLsb' 0 12) s) s)
  | 0x60 => some (s.modImg fun i => { i with evt := i.evt.setBase false v })
  | 0x64 => some (s.modImg fun i => { i with evt := i.evt.setBase true v })
  | 0x68 => some (afterOf (execImgEvtCfgWrite v s) s)
  | 0x70 => some (afterOf (execImgEvtHeadWrite (v.extractLsb' 0 12) s) s)
  | _ => none

/-- A write of PWR_CTRL (R720, R725). -/
def State.pwrCtrlWrite (s : State) (v : Word) (p : Path) : State :=
  match v.toNat % 4 with
  | 1 => s.requestPwr true
  | 2 => s.requestPwr false
  | 3 => if p = .service then s.wake 4 0 else s
  | _ => s

/-- A write of a whole register word outside the SEAL slot: none where it is discarded (R759). -/
def State.blockWrite (s : State) (b : BayNo) (off : Nat) (v : Word) (p : Path) : Option State :=
  let o := off % 0x100000
  match off / 0x100000 with
  | 0x00 =>
    if b ≠ 0 then none
    else if o = 0x110 then some (s.modIdent fun y => { y with scratch := v })
    else if p ≠ .service then none
    else if o = 0x200 then some (s.modIdent fun y => { y with alert := s.ident.alert &&& ~~~(v.extractLsb' 0 8) })
    else if o = 0x204 then some (s.modIdent fun y => { y with alertMask := v.extractLsb' 0 8 })
    else none
  | 0x01 =>
    if o = 0x0C then some (if v.getLsbD 2 then afterOf (execSpllLolClear b s) s else s)
    else if o = 0x14 then some (if v.getLsbD 0 then afterOf (execClkSysrefFire b s) s else s)
    else none
  | 0x02 =>
    if o = 0x40 ∧ b = 0 then
      some (if v = 0xA5 ∧ s.img.state ≠ .safe then s.issueReset else s)
    else none
  | 0x07 =>
    if o = 0x04 then some (afterOf (execTrgForce b (v.extractLsb' 0 8) s) s)
    else match wordIn o 0x80 8 with
      | some m => some (afterOf (execMaskBump b m (v.extractLsb' 0 16) s) s)
      | none => none
  | 0x08 => if o = 0x04 then some (afterOf (execDenClear b (v.extractLsb' 0 2) s) s) else none
  | 0x09 => if o = 0x04 then some (afterOf (execScnCommitWrite b (v.getLsbD 0) s) s) else s.scnWrite b o v 0xF
  | 0x0A =>
    let c : CoreNo := ⟨o / 0x100 % 8, Nat.mod_lt _ (by decide)⟩
    if o = 0x800 then some (s.modBay b fun y => { y with mco := { y.mco with win := v.extractLsb' 0 3 } })
    else if o ≥ 0x800 then none
    else if o % 0x100 = 0 then (if s.ctrlOpen b c then some (s.coreCtrl b c v) else none)
    else if o % 0x100 = 0x18 ∧ !s.sealedCore b c then some (afterOf (execMcMboxInWrite b c v s) s)
    else none
  | 0x0B =>
    if o = 0x04 then some (afterOf (execQueFlush b (v.extractLsb' 0 16) s) s)
    else if o = 0x14 then some (s.modBay b fun y => { y with que := { y.que with capPage := v.getLsbD 0 } })
    else none
  | 0x0C => s.dmaWrite b o v
  | 0x0D =>
    if o ≠ 0x04 then none
    else if v.getLsbD 31 then some (afterOf (execRecFreezeReleaseAll b s) s)
    else some (afterOf (execRecFreezeReleaseOne b ⟨v.toNat % 64, Nat.mod_lt _ (by decide)⟩ s) s)
  | 0x0E =>
    if h : 0x100 ≤ o ∧ o < 0x700 then
      let k : Fin 24 := ⟨(o - 0x100) / 0x40, by omega⟩
      if (o - 0x100) % 0x40 = 0 then some (s.laneCtrl b k v)
      else if (o - 0x100) % 0x40 = 8 then some (s.laneTest b k v)
      else none
    else none
  | 0x16 =>
    match wordIn o 0x10 4 with
    | some n => some (s.setAuxCode b n (v.extractLsb' 0 16))
    | none => none
  | 0x17 =>
    if b ≠ 0 then none
    else if o = 0x04 then some (s.pwrCtrlWrite v p)
    else if o = 0x08 then some (s.modPwr fun x => { x with wakeRtc := v })
    else none
  | 0x18 => if o = 0x400 then some (afterOf (execMonSnap b (v.extractLsb' 0 16) s) s) else none
  | 0x19 => if o = 0x04 ∧ b = 0 then some (if v = 0xD1 then s.killInjectors else s) else none
  | 0x1A => if b = 0 then s.imgWrite o v else none
  | _ => none

/-- A write of a whole register word: none where it is discarded (R655, R759). -/
def State.slotWrite (s : State) (b : BayNo) (off : Nat) (v : Word) (p : Path) : Option State :=
  if off / 0x100000 = 0x13 then (if b = 0 then s.sealWrite (off % 0x100000) v p else none) else s.blockWrite b off v p

/-- The locations that the service port writes (R770). -/
def serviceWrites (off : Nat) : Bool :=
  let o := off % 0x100000
  match off / 0x100000 with
  | 0x00 => decide (o = 0x200 ∨ o = 0x204)
  | 0x13 => decide (o = 0x100 ∨ o = 0x200) || decide (0x140 ≤ o ∧ o < 0x200)
  | 0x17 => decide (o = 0x04)
  | _ => false

/-- A write of the bytes `en` of the word at a package address: none where it is discarded (R425, R447, R759, R761, R770). -/
def State.tryWrite (s : State) (b : BayNo) (off : Nat) (v : Word) (en : BitVec 4) (p : Path) :
    Option State :=
  let o := off % 0x100000
  if p = .service ∧ !(serviceWrites off && decide (b = 0)) then none
  else if s.initHeld && initRegister off then none
  else if off ≥ 0x2000000 then
    some ((enabledBytes v en).foldl (fun s e => s.capturePut b (s.apertureAddr b off + e.1) [e.2]) s)
  else if off / 0x100000 = 0x07 ∧ 0x80000 ≤ o then
    let e := o % 0x80000 / 4
    some (s.writeMask b e (mergeWord (Sparse.get 0x80008000 (s.bay b).trg.store e) v en))
  else if off / 0x100000 = 0x09 ∧ 0x40000 ≤ o then s.scnWrite b o v en
  else if off / 0x100000 = 0x0A ∧ 0x20000 ≤ o then s.coreAperture b o v en
  else if en ≠ 0xF then none
  else s.slotWrite b off v p

/-- A write to a package address: into a lost bay or past a fence it vanishes, and elsewhere it is carried out or discarded with
EV_ACCESS_DISCARDED. Answers whether it was carried out (R30, R466, R759). -/
def State.writeWord (s : State) (a : Nat) (v : Word) (en : BitVec 4) (p : Path) : Bool × State :=
  match s.place a with
  | none => (false, s)
  | some (b, off) =>
    if (s.bay b).lost || !s.reaches 0 b then (false, s)
    else match s.fencedAt b off with
      | some d => (false, if p = .host then s.asleepAccess b d else s)
      | none =>
        match s.tryWrite b off v en p with
        | some t => (true, t)
        | none => (false, s.discarded a p.code)

/-- A register that no open-side access reaches by DMA: an SL register, or a sealed core's (R461). -/
def State.sealedAt (s : State) (b : BayNo) (off : Nat) : Bool :=
  let o := off % 0x100000
  match off / 0x100000 with
  | 0x03 | 0x04 | 0x05 | 0x06 | 0x11 | 0x14 => true
  | 0x13 => decide (o < 0x100) || decide (0x240 ≤ o ∧ o < 0x280)
  | 0x09 => decide (o = 0x84 ∨ o = 0x88 ∨ o = 0x2083C)
  | 0x0A =>
    if o < 0x800 then s.sealedCore b ⟨o / 0x100 % 8, Nat.mod_lt _ (by decide)⟩
    else decide (o ≥ 0x20000) && s.sealedCore b (s.winCore b)
  | 0x15 => decide (o = 0x04) || decide (0x300 ≤ o ∧ o < 0x320)
  | _ => false

end Sys2Proof.Machine
end

