-- ==== Sys2Proof/Machine/Dma.lean ====
section
/-! DEFINITION. The commands of the DMA engine and of I/Q streams' records (R441, R448, R451, R458 to R467, R558). -/
namespace Sys2Proof.Machine

/-! ### I/Q streams -/

/-- The next record of a port's I/Q stream: how many outputs it holds at most, whether a gap ends it, its format and its queue. The
breaks that the stream has passed no longer count (R230, R441, R468). -/
def State.nextIq (s : State) (b : BayNo) (p : Port) : IqBreak :=
  let y := (s.bay b).ddc[p]
  match y.breaks.find? fun k => decide (y.sent < k.at_) with
  | none => { at_ := y.sent + s.fldN Fld.quePIqSamples b p.val, gap := false, samples := s.fldN Fld.quePIqSamples b p.val
              queue := s.fldN Fld.quePIqQueue b p.val, wide := s.fldB Fld.quePIqFormat b p.val }
  | some k => if y.sent + k.samples < k.at_ then { k with at_ := y.sent + k.samples, gap := false } else { k with gap := k.gap && decide (y.sent + k.samples ≠ k.at_) }

/-- RECORD_ENQUEUE (R230, R441, R448, R449, R468): the next record of a port's I/Q stream is complete and is handed to its queue. `xs`
are the input samples that its outputs take in. -/
def execRecordEnqueue (b : BayNo) (p : Port) (xs : List Sample) (s0 : State) : Out :=
  let y := (s0.bay b).ddc[p]
  let k := s0.nextIq b p
  let n := k.at_ - y.sent
  if !s0.alive b || !s0.queueAwake b || !s0.streams b p || !y.active || (y.stretchOf y.sent).isNone || decide (n = 0) ||
      (match y.ended with
        | some e => decide (e < k.at_)
        | none => false) || decide (xs.length ≠ (y.needs y.sent n).2) then .next s0
  else
    let s := s0.reach (s0.leaves b p (k.at_ - 1))
    let after := match y.stretchOf y.sent with
      | some z => z.afterGap && decide (z.born = y.sent)
      | none => false
    let body := s.iqBody b p (0x10 + p.val) k.wide y.sent (s.outputs b p y.sent n xs)
      (flagIf k.gap flagTruncated ||| flagIf after flagGapBefore)
    .next ((s.modPort b p fun y => { y with sent := k.at_, breaks := y.breaks.filter fun k' => decide (k.at_ < k'.at_) }).enqueue b k.queue body)

/-! ### Bursts -/

/-- The spacing after a burst of `n` bytes (R463). -/
def State.spacing (s : State) (b : BayNo) (c : Fin 32) (n : Nat) : Nat :=
  ofFclk (ceilDiv (256 * n) (128 * max 1 (s.fldN Fld.dmaShare b c.val)))

/-- The largest burst of a channel in bytes (R463). -/
def State.burstMax (s : State) (b : BayNo) (c : Fin 32) : Nat := 64 * max 1 (s.fldN Fld.dmaBurst b c.val)

/-- A channel has bytes to move: the rest of a committed record, or of a transfer. -/
def State.wantsBurst (s : State) (b : BayNo) (c : Fin 32) : Bool :=
  let x := s.chan b c
  if s.queueMode b c then (match x.cur with
    | some r => decide (x.sent < r.bytes)
    | none => false)
  else decide (s.dmaMode b c = 4) && (decide (x.state = .run) || decide (x.state = .wait)) && decide (x.written < x.length)

/-- The destination of a committed record takes bytes now (R451, R460, R559, R572). -/
def State.destOpen (s : State) (b : BayNo) (c : Fin 32) : Bool :=
  match s.dmaTarget b c with
  | none => false
  | some t =>
    s.alive t && s.reaches b t && (s.bay t).pwr.ports &&
    (match s.dmaMode b c with
     | 1 => (s.chan b c).ringEnable && s.endpointWorks (s.fldN Fld.dmaEndpoint b c.val)
     | 2 => s.streamReady (s.dmaStreamNo b c)
     | _ => true)

/-- A space-2 address: the core and the byte (R461). -/
def spaceCore (a : Nat) : CoreNo × Nat := (⟨a / 2 ^ 17 % 8, Nat.mod_lt _ (by decide)⟩, a % 2 ^ 17)

/-- The fenced domain that a byte address of a space lies in (R466). -/
def State.fenceOf (s : State) (b : BayNo) (space a : Nat) : Option (BayNo × Domain) :=
  match space with
  | 2 => if (s.core b (spaceCore a).1).ebbed then some (b, .core (spaceCore a).1) else none
  | 3 => match s.place (a % 2 ^ 30) with
    | none => none
    | some (q, off) => if (s.bay q).lost then none else (s.fencedAt q off).map fun d => (q, d)
  | _ => none

/-- The source and destination of a transfer's next burst: where each begins and its last byte (R461, R462). -/
def State.nextSpan (s : State) (b : BayNo) (c : Fin 32) (dst : Bool) : Nat × Nat :=
  let x := s.chan b c
  let fixed := (s.fldN Fld.dmaFixed b c.val).testBit (bitW dst)
  let n := min (s.burstMax b c) (x.length - x.written)
  let base := (if dst then x.toAddr else x.fromAddr).toNat
  if fixed then (base, base + s.elemBytes b c dst - 1) else (base + x.written, base + x.written + n - 1)

/-- The fenced domain that the next burst of a transfer meets, and the address that meets it (R466, R467). -/
def State.burstFence (s : State) (b : BayNo) (c : Fin 32) : Option (BayNo × Domain × Nat) :=
  let look := fun (dst : Bool) =>
    let space := s.fldN (if dst then Fld.dmaDstSpace else Fld.dmaSrcSpace) b c.val
    let (lo, hi) := s.nextSpan b c dst
    match s.fenceOf b space lo, s.fenceOf b space hi with
    | some (q, d), _ => some (q, d, lo)
    | none, some (q, d) => some (q, d, hi)
    | none, none => none
  match look false with
  | some x => some x
  | none => look true

/-- The time that the port takes to move `n` bytes, 128 in a cycle (R463). -/
def portTime (n : Nat) : Nat := ofFclk (ceilDiv n 128)

/-- A channel could be granted a burst at `t`: it has bytes to move, its spacing has passed and its destination is open. -/
def State.eligible (s : State) (b : BayNo) (c : Fin 32) (t : Stamp) : Bool :=
  s.wantsBurst b c && (match (s.chan b c).nextBurst with
    | none => true
    | some u => stampLe u t) &&
  (if s.queueMode b c then s.destOpen b c else (s.burstFence b c).isNone)

/-- Round-robin order: how far channel `c` lies behind the one served last (R463). -/
def State.turn (s : State) (b : BayNo) (c : Fin 32) : Nat := (c.val + 31 - (s.bay b).dma.last) % 32

/-- The port grants channel `c` the next burst at `t`: no eligible channel precedes it in round-robin order (R463). -/
def State.granted (s : State) (b : BayNo) (c : Fin 32) (t : Stamp) : Bool :=
  s.eligible b c t && !((List.finRange 32).any fun m => decide (s.turn b m < s.turn b c) && s.eligible b m t)

/-! ### Reading and writing the spaces of a transfer (R461, R462) -/

/-- Read `n` consecutive bytes of the register map, a word at a time; none where open-side access ends (R461, R761). -/
def State.readMap (s : State) (a : Nat) : Nat → Option (List Byte) × State
  | 0 => (some [], s)
  | n + 1 =>
    let a := a % 2 ^ 30
    let refused := match s.place a with
      | some (q, off) => s.sealedAt q off
      | none => false
    if refused then (none, s)
    else
      let w := s.readWord (a / 4 * 4) .dma
      let r := w.2.readMap (a + 4) n
      (r.1.map fun bs => wordBytes w.1 ++ bs, r.2)

/-- Read one source element of `w` bytes: none is a SPACE error. `host` holds the bytes that host memory supplies. -/
def State.readElem (s : State) (b : BayNo) (space a w : Nat) (host : List Byte) : Option (List Byte) × State :=
  match space with
  | 0 => (some (host ++ List.replicate (w - host.length) 0), s)
  | 1 =>
    let r := s.captureBytes b a w
    (some r.1, r.2)
  | 2 =>
    let (c, k) := spaceCore a
    if s.sealedCore b c then (none, s)
    else (some ((List.range w).map fun i => BitVec.ofNat 8 ((s.core b c).peek (k + i) 1)), s)
  | _ =>
    let r := s.readMap (a / 4 * 4) (ceilDiv (a % 4 + w) 4)
    (r.1.map fun bs => (bs.drop (a % 4)).take w, r.2)

/-- Write consecutive bytes of the register map, a word at a time; none where open-side access ends. -/
def State.writeMap (s : State) (a : Nat) (bs : List Byte) : Nat → Option State
  | 0 => some s
  | n + 1 =>
    if bs.isEmpty then some s
    else
      let a := a % 2 ^ 30
      let refused := match s.place a with
        | some (q, off) => s.sealedAt q off
        | none => false
      if refused then none
      else
        let o := a % 4
        let now := bs.take (4 - o)
        let en := BitVec.ofNat 4 ((2 ^ now.length - 1) * 2 ^ o)
        ((s.writeWord (a / 4 * 4) (wd (leNat now * 256 ^ o)) en .dma).2).writeMap (a + now.length) (bs.drop (4 - o)) n

/-- Write one destination element: none is a SPACE error (R398, R461). -/
def State.writeElem (s : State) (b : BayNo) (c : Fin 32) (space a : Nat) (bs : List Byte) : Option State :=
  match space with
  | 0 => some (s.emit (.hostBytes (s.fldN Fld.dmaEndpoint b c.val) (BitVec.ofNat 64 a) bs))
  | 1 => some (s.capturePut b (a % 2 ^ 26) bs)
  | 2 =>
    let (k, o) := spaceCore a
    if s.sealedCore b k then none
    else some (s.modCore b k fun x => bs.zipIdx.foldl (fun x e => x.poke (o + e.2) 1 e.1.toNat) x)
  | _ => s.writeMap a bs 9

/-- Fill the holding register with `n` source elements (R462). -/
def State.fillHolding (s : State) (b : BayNo) (c : Fin 32) (a w : Nat) (fixed : Bool) (host : List Byte) : Nat → Option Nat × State
  | 0 => (none, s)
  | n + 1 =>
    let r := s.readElem b (s.fldN Fld.dmaSrcSpace b c.val) a w (host.take w)
    match r.1 with
    | none => (some a, r.2)
    | some bs =>
      (r.2.modDma b c fun x => { x with holding := x.holding ++ bs }).fillHolding b c (if fixed then a else a + w) w fixed (host.drop w) n

/-- Write the holding register out as `n` destination elements (R462). -/
def State.drainHolding (s : State) (b : BayNo) (c : Fin 32) (a w : Nat) (fixed : Bool) : Nat → Option Nat × State
  | 0 => (none, s)
  | n + 1 =>
    let bs := (s.chan b c).holding.take w
    match s.writeElem b c (s.fldN Fld.dmaDstSpace b c.val) a bs with
    | none => (some a, s)
    | some s1 =>
      (s1.modDma b c fun x => { x with holding := x.holding.drop w, written := x.written + w }).drainHolding b c
        (if fixed then a else a + w) w fixed n

/-- Move `k` chunks of up to 64 bytes of a transfer through the holding register: the address of a SPACE error, if any. -/
def State.moveChunks (s : State) (b : BayNo) (c : Fin 32) (last : Nat) (host : List Byte) : Nat → Option Nat × State
  | 0 => (none, s)
  | k + 1 =>
    let x := s.chan b c
    if x.written ≥ last then (none, s)
    else
      let n := min 64 (last - x.written)
      let ws := s.elemBytes b c false
      let wt := s.elemBytes b c true
      let fs := (s.fldN Fld.dmaFixed b c.val).testBit 0
      let fd := (s.fldN Fld.dmaFixed b c.val).testBit 1
      let src := x.fromAddr.toNat + (if fs then 0 else x.written)
      let dst := x.toAddr.toNat + (if fd then 0 else x.written)
      let need := n - x.holding.length
      let f := s.fillHolding b c (src + (if fs then 0 else x.holding.length)) ws fs (host.take need) (need / ws)
      match f.1 with
      | some a => (some a, f.2)
      | none =>
        let d := f.2.drainHolding b c dst wt fd (n / wt)
        match d.1 with
        | some a => (some a, d.2)
        | none => d.2.moveChunks b c last (host.drop need) k

/-! ### The commands -/

/-- DMA_RECORD_START (R451, R459, R464): a channel commits the oldest record of its queue if its destination takes it whole,
and waits otherwise; a record that its ring can never hold is discarded. -/
def execDmaRecordStart (b : BayNo) (n : Fin 32) (s : State) : Out :=
  let c := s.chan b n
  if !s.dmaOn b || !s.queueMode b n || decide (c.state = .error) || c.cur.isSome then .next s
  else
    let i := s.dmaQueueNo b n
    match (s.bay b).que.queues[i].entries with
    | [] => .next (s.modDma b n fun c => { c with state := .idle })
    | e :: _ =>
      let r := e.record
      if s.dmaMode b n = 1 ∧ c.ringEnable ∧ r.bytes > 2 ^ c.ringSize - 32 then
        .next (((s.popQueue b i).modDma b n fun c => { c with discards := c.discards + 1 }).dmaError b n .tooBig
          (c.ringBase + c.tail.setWidth 64) false)
      else if s.destTakes b n r.bytes then
        let s1 := s.popQueue b i
        let g := if s1.dmaMode b n = 2 then s1.injectorAct (s1.dmaStreamNo b n) r else (0, 0, s1)
        .next (g.2.2.modDma b n fun c => { c with state := .run, cur := some r, sent := 0, act := g.1, victim := g.2.1 })
      else .next (s.modDma b n fun c => { c with state := .wait })

/-- The bytes of a burst go into a host ring from byte `off` of the record on, wrapping at the ring's end (R459). -/
def State.ringPut (s : State) (b : BayNo) (n : Fin 32) (off : Nat) (bs : List Byte) : State :=
  let c := s.chan b n
  let size := 2 ^ c.ringSize
  let at_ := (c.tail.toNat + off) % size
  let room := size - at_
  let ep := s.fldN Fld.dmaEndpoint b n.val
  let s1 := s.emit (.hostBytes ep (c.ringBase + BitVec.ofNat 64 at_) (bs.take room))
  if bs.length ≤ room then s1 else s1.emit (.hostBytes ep c.ringBase (bs.drop room))

/-- DMA_BURST (R451, R459, R461 to R463, R567, R568): the port grants a channel a burst. `data` holds the bytes that host
memory supplies to a transfer from space 0. -/
def execDmaBurst (b : BayNo) (n : Fin 32) (data : List Byte) (s0 : State) : Out :=
  let from_ := fun (t : Stamp) (u : Option Stamp) => match u with
    | none => t
    | some u => if stampLt t u then u else t
  let t := from_ (from_ s0.now (s0.chan b n).nextBurst) (s0.bay b).dma.busyTo
  if !s0.dmaOn b || !s0.wantsBurst b n then .next s0
  else if s0.queueMode b n && !s0.destOpen b n then .next (s0.modDma b n fun c => { c with state := .wait })
  else if !s0.granted b n t then .next s0
  else
    let s := s0.reach t
    let c := s.chan b n
    let total := match c.cur with
      | some r => if s.queueMode b n then r.bytes - c.sent else c.length - c.written
      | none => c.length - c.written
    let k := min (s.burstMax b n) total
    let s1 := (s.modDma b n fun c => { c with state := .run, waking := false, nextBurst := some (later t (s.spacing b n k)) }).modBay b fun y =>
      { y with dma := { y.dma with last := n.val, busyTo := some (later t (portTime k)) } }
    if s.queueMode b n then
      match c.cur with
      | none => .next s
      | some r =>
        let s2 := match s1.dmaMode b n with
          | 1 => s1.ringPut b n c.sent (((wordsBytes r.words).drop c.sent).take k)
          | 2 => if c.act ≥ 3 then s1 else s1.sendPackets (s1.dmaStreamNo b n) r c.sent (c.sent + k) c.act c.victim
          | _ => s1
        .next (s2.modDma b n fun c => { c with sent := c.sent + k })
    else
      let m := s1.moveChunks b n (c.written + k) data 8
      match m.1 with
      | none => .next m.2
      | some a => .next (m.2.dmaError b n .space (BitVec.ofNat 64 a) true)

/-- DMA_RECORD_DELIVERED (R459, R464, R486, R751): every byte of a committed record has left. The ring's tail moves past it and
is written back, the stream's injector passes or holds it, or the recorder takes it. -/
def execDmaRecordDelivered (b : BayNo) (n : Fin 32) (s : State) : Out :=
  let c := s.chan b n
  match c.cur with
  | none => .next s
  | some r =>
    if !s.dmaOn b || !s.queueMode b n || decide (c.sent < r.bytes) || !s.destOpen b n then .next s
    else
      let s1 := s.modDma b n fun c => { c with cur := none, sent := 0, act := 0, victim := 0, state := .idle }
      match s.dmaMode b n with
      | 1 =>
        let tail := wd ((c.tail.toNat + r.bytes) % 2 ^ c.ringSize)
        let s2 := s1.modDma b n fun c => { c with tail := tail }
        let s3 := if c.wb = 0 then s2 else s2.emit (.hostWrite (s2.fldN Fld.dmaEndpoint b n.val) c.wb [tail])
        .next (s3.dmaDelivered b n)
      | 2 =>
        let m := s1.dmaStreamNo b n
        let s2 := s1.passRecord m
        .next (if c.act ≥ 3 then s2.holdRecord m c.act b n r else s2.dmaDelivered b n)
      | _ =>
        match s.dmaTarget b n with
        | none => .next s
        | some q => if s.recTakes q r.bytes then .next ((s1.recTake q r).dmaDelivered b n) else .next s

/-- DMA_TRANSFER_DONE (R464): the last byte of a transfer has been written. -/
def execDmaTransferDone (b : BayNo) (n : Fin 32) (s : State) : Out :=
  let c := s.chan b n
  if !s.dmaOn b || decide (s.dmaMode b n ≠ 4) || decide (c.state ≠ .run) || decide (c.written < c.length) then .next s
  else .next ((s.modDma b n fun c => { c with state := .idle }).dmaComplete b n)

/-- A domain that floods on request: an open core that has ebbed in RUN (R466, R729). -/
def State.floodable (s : State) (b : BayNo) (d : Domain) : Bool :=
  match d with
  | .core c => (s.core b c).ebbed
  | _ => false

/-- The packet that a fenced destination turned away stays in the holding register (R466). -/
def State.holdPacketOf (s : State) (b : BayNo) (n : Fin 32) (data : List Byte) : State :=
  let c := s.chan b n
  let space := s.fldN Fld.dmaSrcSpace b n.val
  let (lo, hi) := s.nextSpan b n false
  if (s.fenceOf b space lo).isSome || (s.fenceOf b space hi).isSome || !c.holding.isEmpty then s
  else
    let w := s.elemBytes b n false
    (s.fillHolding b n lo w ((s.fldN Fld.dmaFixed b n.val).testBit 0) data (min 64 (c.length - c.written) / w)).2

/-- ASLEEP_COMPLETION (R466): a packet of a channel meets a fenced domain. With DMA.Cn_WAKE set it waits in the holding
register for the flood that the channel requests; otherwise it is dropped with the rest of its record or transfer. `data`
holds what host memory supplies to the packet. -/
def execAsleepCompletion (b : BayNo) (n : Fin 32) (data : List Byte) (s : State) : Out :=
  let c := s.chan b n
  let wake := s.fldB Fld.dmaWake b n.val
  let drop := fun (s : State) => s.modDma b n fun c => { c with asleepDrops := c.asleepDrops + 1 }
  if !s.dmaOn b || !s.wantsBurst b n then .next s
  else if s.queueMode b n then
    match s.dmaTarget b n with
    | none => .next s
    | some q =>
      if !s.alive q || !s.reaches b q || (s.bay q).pwr.ports then .next s
      else if wake then .next (s.dmaError b n .asleep 0 true)
      else .next (((drop s).modDma b n fun c => { c with cur := none, sent := 0, state := .idle }).dmaError b n .asleep 0 false)
  else match s.burstFence b n with
    | none => .next s
    | some (q, d, a) =>
      if !wake || !s.floodable q d then .next ((if wake then s else drop s).dmaError b n .asleep (BitVec.ofNat 64 a) true)
      else if c.waking then .next s
      else
        let s0 := match d with
          | .core k => s.modCore q k fun x => { x with floodReq := true }
          | _ => s
        let s1 := s0.holdPacketOf b n data
        .next ((s1.modDma b n fun c => { c with state := .wait, waking := true, wakes := c.wakes + 1 }).event b 0x0C02 [wd n.val])

/-- A transfer that reads host memory ends with HOST_ERROR, logged as an advisory error of the endpoint (R465, R558). -/
def State.hostError (s : State) (b : BayNo) (n : Fin 32) : State :=
  let s1 := match s.endpoint (s.fldN Fld.dmaEndpoint b n.val) with
    | none => s
    | some (q, j) => s.modPci q j fun e => { e with correctable := e.correctable + 1 }
  s1.dmaError b n .hostError (s.chan b n).fromAddr true

/-- A read of host memory by a transfer is under way. -/
def State.hostReads (s : State) (b : BayNo) (n : Fin 32) : Bool :=
  s.dmaOn b && decide (s.dmaMode b n = 4) && decide (s.fldN Fld.dmaSrcSpace b n.val = 0) && s.wantsBurst b n

/-- HOST_READ_TIMEOUT (R558): a read has not completed within 50 ms. -/
def execHostReadTimeout (b : BayNo) (n : Fin 32) (s : State) : Out :=
  if !s.hostReads b n then .next s else .next ((s.passTime (ofMs 50)).hostError b n)

/-- HOST_ERROR_COMPLETION (R558): a completion with UR, CA or poisoned data arrives. -/
def execHostErrorCompletion (b : BayNo) (n : Fin 32) (s : State) : Out :=
  if !s.hostReads b n then .next s else .next (s.hostError b n)

/-! ### Accesses to the package map -/

/-- REGISTER_WRITE (R759, R761, R763): the host writes the bytes `en` of the word at a package address. -/
def execRegisterWrite (a : Word) (v : Word) (en : BitVec 4) (s : State) : Out :=
  if !s.alive 0 || !(s.bay 0).pci[4].linkUp || s.retryConfig || decide (a.toNat % 4 ≠ 0) then .next s
  else .next (s.writeWord a.toNat v en .host).2

/-- The words of a service write, carried out in turn; how many were discarded (R769, R770). -/
def State.svcWrite (s : State) (a : Nat) (bs : List Byte) : Nat → Nat × State
  | 0 => (0, s)
  | n + 1 =>
    if bs.length < 4 then (0, s)
    else
      let w := s.writeWord a (wd (leNat (bs.take 4))) 0xF .service
      let r := w.2.svcWrite (a + 4) (bs.drop 4) n
      (r.1 + (if w.1 then 0 else 1), r.2)

/-- The words of a service read (R769, R772). -/
def State.svcRead (s : State) (a : Nat) : Nat → List Word × State
  | 0 => ([], s)
  | n + 1 =>
    let w := s.readWord a .service
    let r := w.2.svcRead (a + 4) n
    (w.1 :: r.1, r.2)

/-- SVC_TRANSACTION (R763, R769, R770, R772): a transaction on the service port, which answers from acceptance of an image or SAFE
on. -/
def execSvcTransaction (op : SvcOp) (s : State) : Out :=
  let a := match op with
    | .write a _ => a.toNat
    | .read a _ => a.toNat
  let modId := fun (s : State) (f : IdPkg → IdPkg) => (s.modIdent fun _ => f s.ident)
  if !s.alive 0 || !s.pinned 0 || decide (s.pwr.state = .off) || s.retryConfig then .next s
  else if a % 4 ≠ 0 ∨ a ≥ s.part.bays * 0x4000000 then .next (modId s fun i => { i with refused := i.refused + 1 })
  else match op with
    | .write _ bs =>
      let r := s.svcWrite a bs (bs.length / 4)
      .next (modId r.2 fun i => { i with done := i.done + 1, discarded := i.discarded + BitVec.ofNat 8 r.1 })
    | .read _ n =>
      let r := s.svcRead a n
      .next (modId (r.2.emit (.packet "SVC_READ" 0 r.1)) fun i => { i with done := i.done + 1 })

/-- SVC_ALERT_CLEAR (R768, R770): the service port writes SVC_ALERT_STATUS. -/
def execSvcAlertClear (v : Word) (s : State) : Out :=
  if !s.alive 0 || !s.pinned 0 || decide (s.pwr.state = .off) || s.retryConfig then .next s
  else .next (s.modIdent fun y => { y with alert := s.ident.alert &&& ~~~(v.extractLsb' 0 8) })

/-! ### JTAG -/

/-- The IDCODE of a test access port: major stepping, part number, manufacturer, and a 1 (R795). -/
def State.idcode (s : State) : Word :=
  wd (bits Config.stepping.toNat 7 4 * 2 ^ 28 + (0xB1C0 + s.part.bays) * 2 ^ 12 + Config.manufacturer.toNat * 2 + 1)

/-- JTAG_UPDATE_IR (R627, R795, R796): an instruction becomes current. IDCODE shifts out the identity of the
bay's port; one that takes the pins disconnects the functional logic; entry to a debug chain of the sealed side needs the intact fuse and makes a CORE_DEBUG entry in the seal log. -/
def execJtagUpdateIr (b : BayNo) (op : JtagOp) (s : State) : Out :=
  if !s.present b || (decide (op = .debug) && s.keeper.fuses.metrology) then .next s
  else
    let s1 := s.modBay b fun y => { y with jtag := { ir := op, pinsOff := y.jtag.pinsOff || op.takesPins } }
    .next (if op = .debug then s1.sealLog 10 b 0xFF [4] else if op = .idcode then s1.emit (.packet "IDCODE" b.val [s1.idcode]) else s1)

/-- JTAG_TEST_LOGIC_RESET (R796): the port returns to Test-Logic-Reset and the functional logic is connected again. -/
def execJtagTestLogicReset (b : BayNo) (s : State) : Out :=
  if !s.present b then .next s else .next (s.modBay b fun y => { y with jtag := .reset })

end Sys2Proof.Machine
end

