-- ==== Sys2Proof/Machine/Acq.lean ====
section
/-! DEFINITION. Hop boundaries, acquisition restarts, loss of lock and the loss of a bay (R30, R65 to R69, R119, R122 to R126, R222,
R254, R323, R355). -/
namespace Sys2Proof.Machine

/-! ### The HOP apply point -/

/-- A frame of a channel starts at `t` (R240). -/
def State.frameStartsAt (s : State) (b : BayNo) (x : Fin 2) (t : Stamp) : Bool :=
  match (s.bay b).xfm.chans[x].grids.getLast? with
  | none => false
  | some g =>
    let q := s.gridIndex b g t
    g.cut.isNone && decide (q % g.hop = 0) && decide (s.gridStamp b g q = t)

/-- A source of another rate waits for a channel: it calls an acquisition restart (R229). -/
def State.sourceRestart (s : State) (b : BayNo) (x : Fin 2) : Bool :=
  s.transforms b x && s.img.waiting.any fun w => w.isOf [Fld.ddcChSrc] x.val && (match w with
    | .value _ left v _ _ _ _ => left.testBit b.val && !s.sameRate b (s.chanPort b x) (portFrom x v)
    | .profile .. => false)

/-- HOP_BOUNDARY (R65, R222, R229, R254, R257, R323): a frame of channel `x` starts at `t`. Values that wait for the channel,
for its port, and for whatever runs no frames take effect; mask copies that are complete come into use. -/
def execHopBoundary (b : BayNo) (x : Fin 2) (t : Stamp) (s0 : State) : Out :=
  if !s0.alive b || stampLt t s0.now || (s0.bay b).clk.restarting ||
      (s0.transforms b x && !s0.frameStartsAt b x t) || !(decide (s0.img.state = .run) || decide (s0.img.state = .ready)) then .next s0
  else
    let s := s0.reach t
    let s1 := s.hopApply b (s.hopScope b x) false t
    let s2 := if s1.sourceRestart b x then s1.modImg fun i => { i with restartReq := i.restartReq ||| 2 ^ b.val } else s1
    .next ((List.finRange 8).foldl (fun s u => if s.unitOnChan b u x then s.maskSwitch b u t else s) s2)

/-! ### Acquisition restarts -/

/-- A clock-affecting field of the bay changes with the values that wait (R67, R126). -/
def State.clockWrite (s : State) (b : BayNo) : Bool :=
  s.img.waiting.any fun w => match w with
    | .value k left v ap _ _ _ => decide (k.block = 1 ∧ ap = .acqRestart) && left.testBit b.val && (match findField k.block k.id with
        | some (f, i) => decide (s.fld f b i ≠ v)
        | none => false)
    | .profile .. => false

/-- A receiver setting of the bay changes with the values that wait. -/
def State.jesWrite (s : State) (b : BayNo) : Bool :=
  s.img.waiting.any fun w => match w with
    | .value k left _ ap _ _ _ => decide (k.block = 0x11 ∧ ap = .acqRestart) && left.testBit b.val
    | .profile .. => false

/-- The CAL gaps of the bay close at the stop of a restart, without a new grid (R673). -/
def State.closeCalGaps (s : State) (b : BayNo) (t : Stamp) : State :=
  let s1 := (List.finRange 4).foldl (fun s p =>
    match (s.bay b).ddc[p].gap with
    | some g => if g.reason = .cal then s.closeStreamGap b p t 0 else s
    | none => s) s
  (List.finRange 2).foldl (fun s x =>
    match (s.bay b).xfm.chans[x].gap with
    | some g =>
      if g.reason = .cal then
        (s.modChan b x fun c => { c with gap := none }).enqueue b (s.fldN Fld.queGapQueue b x.val) (gapCloseBody x.val g t 0)
      else s
    | none => s) s1

/-- Every channel and stream of a bay stops at `t` (R67 steps 1 and 2). -/
def State.stopAll (s : State) (b : BayNo) (reason : GapReason) (t : Stamp) : State :=
  (List.finRange 4).foldl (fun s p =>
    if (s.bay b).ddc[p].active then s.stopPort b p reason t else s.modPort b p fun y => { y with paused := true }) s

/-- The density grids whose column count the restart changes close early (R355). -/
def State.denStop (s new : State) (b : BayNo) (t : Stamp) : State :=
  (List.finRange 2).foldl (fun u x =>
    if colsOf (s.fldN Fld.xfmChNLog2 b x.val) = colsOf (new.fldN Fld.xfmChNLog2 b x.val) then u else u.denEarly b x t) s

/-- The bank under way counts in the columns of the transform length in force (R355 step 3). -/
def State.denCols (s : State) (b : BayNo) : State :=
  (List.finRange 2).foldl (fun s x => s.modDen b x fun d =>
    if d.info.cols = colsOf (s.fldN Fld.xfmChNLog2 b x.val) then d
    else { d with cells := [], info := { d.info with cols := colsOf (s.fldN Fld.xfmChNLog2 b x.val) } }) s

/-- The front ends follow CLK.ADC_EN (R118, R717): one that is enabled takes the attenuation that waited for it (R199); one that is
disabled sees no more of its signal. -/
def State.powerFronts (s : State) (b : BayNo) : State :=
  (List.finRange 2).foldl (fun (s : State) (i : Fin 2) =>
    let on := inMask (s.fldN Fld.clkAdcEn b) i.val
    if on = (s.bay b).pwr.frontEnd[i] || decide (s.pwr.state ≠ .run) then s
    else if on then (s.modDom b fun p => { p with frontEnd := p.frontEnd.set i true }).freeAtten b i
    else
      (s.modDom b fun p => { p with frontEnd := p.frontEnd.set i false }).modAfe b i fun a =>
        if a.overload then a.closeOverload (s.planeStamp b (rfPort i) (s.nowAt b)) else a) s

/-- Values that wait for an acquisition restart of a bay take effect, with attenuations that have not reached the bay yet (R67 step 3).
Those that wait for a hop take effect at the resume (R229). -/
def State.restartValues (s : State) (b : BayNo) : State :=
  ((s.takeEffect b (fun w => (w.appliesAt .acqRestart) || (w.appliesAt .immediate && w.inBlocks [3])) .restart).powerFronts b).refreshPorts b (s.nowAt b)

/-- ACQ_RESTART_BEGIN (R66 to R68, R124, R126, R355, R673): a restart that was asked for begins at once, unless a calibration run
of the bay has to end first. -/
def execAcqRestartBegin (b : BayNo) (s : State) : Out :=
  if !s.alive b || !s.restartAsked b || (s.bay b).clk.restarting || (s.calIn b 0).run.isSome || (s.calIn b 1).run.isSome ||
      !(decide (s.img.state = .run) || decide (s.img.state = .ready)) || s.quiet || (s.bay b).tbs.islanded then .next s
  else
    let t := s.nowAt b
    let reason : GapReason := if s.clockWrite b then .clockWrite else .acqRestart
    let jes := s.jesWrite b
    let s1 := (s.modImg fun i => { i with restartReq := i.restartReq - 2 ^ b.val }).modClk b fun k => { k with restarting := true, restartReason := reason }
    let s2 := (if (s1.bay b).clk.gated then s1 else s1.closeCalGaps b t).stopAll b reason t
    let s3 := s2.runRotations b
    let s4 := (((s3.denStop (s3.restartValues b) b t).restartValues b).denCols b).modClk b fun k => { k with spllLock := k.spllLock && decide (reason ≠ .clockWrite) }
    .next ((List.finRange 2).foldl (fun s x =>
      let realign := decide (s.fldN Fld.jesSSysrefMode b x.val = 0) || jes
      if s.replayed b (xsPort x) then s
      else if realign then (s.jesStart b x).modPort b (xsPort x) fun y => { y with aligned := false } else s) s4)

/-- The end of a restart: the rotations go on (R190) and the holds of automatic steps down start again (R180), SYSREF pulses follow in
pulsed mode (R119), and EV_ACQ_RESTART gives the bay and the reason (R100). -/
def State.endRestart (s : State) (b : BayNo) : State :=
  let s1 := (List.finRange 2).foldl (fun s i => s.modAfe b i fun a => { a with quietFrom := s.nowAt b }) (s.runRotations b)
  (s1.modClk b fun k =>
    { k with restarting := false, spllLock := !k.unlockEpisode, sysrefFrom := none, sysrefLeft := if s.fldN Fld.clkSysrefMode b = 2 then s.fldN Fld.clkSysrefPulses b else k.sysrefLeft }).event
    0 0x0123 [wd (2 ^ b.val), wd (s.bay b).clk.restartReason.code]

/-- ACQ_RESTART_END (R67, R119, R241): a restart ends and the bay resumes with the input samples taken at counter time `t`. -/
def execAcqRestartEnd (b : BayNo) (t : Stamp) (s0 : State) : Out :=
  let k := (s0.bay b).clk
  if !s0.alive b || !k.restarting || k.gated || stampLt t s0.now then .next s0
  else
    let s := (s0.reach t).modClk b fun k => { k with restarting := false }
    .next ((s.resumeBay b t k.restartReason.code true).endRestart b)

/-! ### Loss of lock -/

/-- SPLL_LOSS_OF_LOCK (R122 to R124, R142, R673): the SPLL's loss of lock is detected and its outputs are gated; `tL` is the
stamp that the sample after the last valid one would carry. A loss within an episode belongs to it. -/
def execSpllLossOfLock (b : BayNo) (tL : Stamp) (s : State) : Out :=
  let k := (s.bay b).clk
  if !s.alive b || !(k.spllLock || k.unlockEpisode) then .next s
  else if k.unlockEpisode then .next (s.modClk b fun k => { k with spllLock := false, spllLol := true })
  else
    let s1 := (s.modClk b fun k =>
      { k with spllLock := false, spllLol := true, gated := true, unlocks := satAdd 0xFFFF k.unlocks 1, unlockEpisode := true, stuckTold := false }).modTbs
      b fun x => { x with tdcCoarse := true }
    let s2 := (s1.calAbandonBay b true).runRotations b
    let s3 := [(0 : Port), 1].foldl (fun s p => if (s.bay b).ddc[p].active then s.stopPort b p .clockFault tL else s) s2
    .next ((((s3.sealLog 8 b 0 [0]).alert 5).event 0 0x0210 [wd b.val]).auxRefresh b)

/-- SPLL_RELOCK (R123, R124, R142, R241): the SPLL has locked afresh after its outputs were gated; the bay's stopped channels
resume with the input samples taken at counter time `t`, and a restart that waited with them ends. -/
def execSpllRelock (b : BayNo) (t : Stamp) (s0 : State) : Out :=
  let k := (s0.bay b).clk
  if !s0.alive b || !k.unlockEpisode || stampLt t s0.now then .next s0
  else
    let s := ((s0.reach t).modClk b fun k => { k with spllLock := true, gated := false, restarting := false, unlockEpisode := false, stuckTold := false }).modTbs
      b fun x => { x with tdcCoarse := false }
    let s1 := if s.quiet || !(decide (s.img.state = .run) || decide (s.img.state = .ready)) then s else s.resumeBay b t 3 k.restarting
    let s2 := (s1.runRotations b).event b 0x0211 []
    .next ((if k.restarting then s2.endRestart b else s2).auxRefresh b)

/-! ### Loss of a bay -/

/-- A bay is lost for a cause of EV_BAY_LOST: its die-to-die links go down, its accesses complete as R30 says, and the loss is
told once (R14, R30, R125, R703, R768). -/
def State.loseBay (s : State) (b : BayNo) (cause : Nat) : State :=
  let s0 := s.auxLost b
  let s1 := s0.modBay b fun y => { y with lost := true, clk := { y.clk with cpllLock := false, spllLock := false, gated := true } }
  let drop := fun (x : LinkPort) => if x.up then { x with up := false, downs := x.downs + 1, congested := false, streak := 0, unacked := 0 } else x
  let s2 := (List.finRange 3).foldl (fun s p =>
    if p.val < s.part.log2 then (s.modPortL b p drop).modPortL (peerBay b p.val) p drop else s) s1
  ((((s2.alert 4).event 0 0x1A01 [wd b.val, wd cause]).leaveIsland b).modTbsPkg fun y => { y with lossDue := true }).callUpdate.faultDrop fun f =>
    decide (f.bay = b) && decide (f.code = 2 ∨ f.code = 5 ∨ f.code = 6)

/-- CPLL_LOSS_OF_LOCK (R14, R125): the bay halts and is lost; the headland makes the entry, unless it is the headland. -/
def execCpllLossOfLock (b : BayNo) (s : State) : Out :=
  if !s.alive b || !(s.bay b).clk.cpllLock then .next s
  else
    let s1 := s.loseBay b 1
    .next (s1.sealLog 8 b 0 [1])

end Sys2Proof.Machine
end

