-- ==== Sys2Proof/Machine/Epoch.lean ====
section
/-! DEFINITION. The epoch boundary: the grid, the steps of time, the EPOCH records and what every block does there (R152 to R160, R65,
R612). -/
namespace Sys2Proof.Machine

/-! ### Steps of time -/

/-- The step that falls due at a boundary (R152): its size. -/
def State.stepDue (s : State) (t : Stamp) : Option Int :=
  match s.tbs.servo.step with
  | some (at_, d) => if stampLe at_ t then some d else none
  | none => none

/-- Every bay that follows the headland steps by `d`; the change is reported and enters the seal log with its cause (R152,
R153, R644). -/
def State.stepTime (s : State) (bs : List BayNo) (d : Int) : State :=
  let before := s.now
  let s1 := ((s.eachBay bs fun s b => s.modBay b fun y => y.shift d).shiftPackage d).modServo fun v => { v with step := none }
  let cause := if s1.pkgN Fld.tbsDiscipline = 3 then 2 else 1
  (s1.event 0 0x0302 []).timeSetEntry cause before s1.now

/-! ### The EPOCH record -/

/-- What a boundary was: set by an edge, fallen at B + W, after a late edge, with a step (R160). -/
structure BoundaryInfo where
  moved : Bool
  /-- The edge has a coarse stamp (R142). -/
  coarse : Bool
  missed : Bool
  reanchored : Bool
  step : Option Int
  ignored : Nat
  deriving DecidableEq, Repr

/-- A boundary of an island (R612). -/
def BoundaryInfo.plain : BoundaryInfo := { moved := false, coarse := false, missed := false, reanchored := false, step := none, ignored := 0 }

/-- The code of a servo state (R160, R168). -/
def Servo.number : Servo → Nat
  | .free => 0 | .acquiring => 1 | .locked => 2 | .holdover => 3

/-- The EPOCH record of a bay (R160): `len` is the real length of the epoch that ended. -/
def State.epochBody (s : State) (b : BayNo) (i : BoundaryInfo) (len : Stamp) : RecBody :=
  let x := (s.bay b).tbs
  { typ := .epoch, source := 0xF0, stamp := x.epochStart, w6hi := if i.coarse then 0x8000 else 0
    payload := words64 x.epoch ++ stampWords len ++
      [wd (bitW i.moved + 2 * bitW i.missed + 4 * bitW i.reanchored + 8 * bitW i.step.isSome + 16 * s.tbs.servo.state.number +
        64 * bitW s.tbs.grid.locked + 65536 * min i.ignored 0xFFFF)] ++
      words64 (BitVec.ofInt 64 (i.step.getD 0 / 2 ^ 32)) }

/-- A bay emits its EPOCH record into each queue that QUE.EPOCH_QUEUES names (R160, R468). -/
def State.emitEpoch (s : State) (b : BayNo) (i : BoundaryInfo) (len : Stamp) : State :=
  s.enqueueEach b ((List.finRange 16).filter fun q => (s.fldN Fld.queEpochQueues b).testBit q.val) (s.epochBody b i len)

/-! ### What every block does at a boundary -/


/-- A core that restarted after a fault counts on from the boundary (R416), and line EPOCH is set in every core (R412). -/
def State.coreBoundary (s : State) (b : BayNo) (c : CoreNo) (t : Stamp) : State :=
  let s1 := s.modCore b c fun k => { k with faultUntil := match k.faultUntil with
    | some none => some (some t)
    | x => x }
  if (s1.core b c).mode = .off then s1 else s1.raiseLine b c 2

/-- The blocks of a bay at a boundary, once the settings of the new epoch are in force: density banks, traces, triggers,
monitors, the recorder's time index, the cores and the transfers that start at every epoch (R155, R156). -/
def State.bayBoundary (s : State) (b : BayNo) (t : Stamp) : State :=
  let s0 := s.modBay b Bay.freshEpoch
  let s1 := if !(s0.bay b).pwr.datapath then s0
    else
      let live := fun (x : Fin 2) => !s0.replayed b (s0.chanPort b x)
      let a := (List.finRange 2).foldl (fun s x => if live x then s.denBoundary b x t else s) s0
      let c := ((List.finRange 16).foldl (fun s i => if live ⟨i.val / 8, by omega⟩ then s.traceBoundary b i t else s) a).trgBoundary b
      let d := (List.finRange 16).foldl (fun s m => s.monBoundary b m t) c
      let e := (List.finRange 8).foldl (fun s k => s.coreBoundary b k t) d
      (List.finRange 32).foldl (fun s n =>
        if decide (s.dmaMode b n = 4) && s.fldB Fld.dmaStart b n.val && s.dmaOn b then s.dmaStart b n else s) e
  if (s1.bay b).pwr.ports then s1.recBoundary b else s1

/-- Context packets of a stream fall due every ETH.Ss_CTX_EPOCHS epochs (R569). -/
def State.contextEpochs (s : State) : State :=
  (s.modEthPkg fun y => { y with streams := s.eth.streams.mapIdx fun n x =>
    let k := s.pkgN Fld.ethSCtxEpochs n
    if k ≠ 0 ∧ x.ctxEpochs + 1 ≥ k then { x with ctxEpochs := 0, ctx := x.ctx.map fun e => (e.1, e.2 ||| 0x20000) }
    else { x with ctxEpochs := x.ctxEpochs + 1 } })

/-! ### Boundaries -/

/-- The boundary of the mainland that falls next: at an edge that was taken, at B + W after a missed one, at B in SEARCH; in
LOCKED the epoch is held open until one of the first two (R157). -/
def Grid.due (g : Grid) : Option Stamp :=
  if !g.running then none
  else match g.edge with
    | some t => some t
    | none => if g.locked && decide (g.window ≠ 0) then none else some g.next

/-- L in units of 10 ns: the leader's in a follower (R145, R154). -/
def State.gridTens (s : State) : Nat := (s.followed.map (·.tens)).getD (s.pkgN Fld.tbsEpochLen)

/-- L as a duration. -/
def State.gridLen (s : State) : Nat := durOf s.gridTens 100000000

/-- W = L × TBS.SYNC_WINDOW / 256 (R157). -/
def State.gridWindow (s : State) : Nat := durOf (s.gridTens * (s.followed.map (·.window)).getD (s.pkgN Fld.tbsSyncWindow)) 25600000000

/-- The grid that the nominal boundaries follow after one stamped `t`, after a step of `d`: that of the last one while L stays, or
counted from `t` after an edge or a change of L (R157, R159). A boundary at B + W leaves the nominal ones where they are. -/
def Grid.follow (g : Grid) (t : Stamp) (d : Int) (tens : Nat) : Grid :=
  if g.missed || g.edge.isNone then
    if tens = g.tens then
      let g1 : Grid := { g with origin := moved g.origin d, steps := g.steps + 1 }
      { g1 with next := g1.nth g1.steps }
    else ({ g with tens := tens } : Grid).restart (moved g.next d)
  else ({ g with tens := tens } : Grid).restart t

/-- The grid after a boundary stamped `t`, after a step of `d`, under the L and W in force (R157 to R159). -/
def State.gridAfter (s : State) (g : Grid) (t : Stamp) (d : Int) : Grid :=
  let w := s.gridWindow
  { g.follow t d s.gridTens with
    len := s.gridLen, window := w, number := g.number + 1, start := t, edge := none, edgeCoarse := false, missed := false
    past := if g.edge.isNone && decide (w ≠ 0) then some t else none
    locked := g.locked && decide (w ≠ 0), reanchored := false, ignoredEpoch := 0 }

/-- A boundary of the mainland at `t0` (R65, R152 to R160). -/
def State.mainBoundary (s0 : State) (t0 : Stamp) : State :=
  let s := s0.reach t0
  let g := s.tbs.grid
  let bs := s.liveBays.filter fun b => !(s.bay b).tbs.islanded
  let d := s.stepDue t0
  let t := match d with
    | some x => moved t0 x
    | none => t0
  let lens := fun (b : BayNo) => t0 - (s.bay b).tbs.epochStart
  let info : BoundaryInfo :=
    { moved := g.edge.isSome && !g.missed, coarse := g.edge.isSome && !g.missed && g.edgeCoarse, missed := g.missed, reanchored := g.reanchored, step := d, ignored := g.ignoredEpoch }
  let s1 := match d with
    | some x => s.stepTime bs x
    | none => s
  let s2 := s1.eachBay bs fun s b => s.modTbs b fun x => { x with epoch := g.number + 1, epochStart := t }
  let s3 := ((s2.modIdent fun y => { y with accessTold := false })).epochApply t0
  let s4 := (s3.modGrid fun g => s3.gridAfter g t (d.getD 0)).contextEpochs
  s4.eachBay bs fun s b => (s.emitEpoch b info (lens b)).bayBoundary b t

/-- A boundary of the island whose time holder is `h`: the nominal L after the last one (R612). An island that holds the headland
carries the package's grid on. -/
def State.isleBoundary (s0 : State) (h : BayNo) (i : Isle) : State :=
  let bays := i.bays
  let t := later i.gridFrom (durOf (((s0.bay h).tbs.epoch + 1 - i.gridAt).toNat * s0.tbs.grid.tens) 100000000)
  let s := s0.reach t
  let bs := s.liveBays.filter fun b => bays.getLsbD b.val
  let lens := fun (b : BayNo) => t - (s.bay b).tbs.epochStart
  let n := (s.bay h).tbs.epoch + 1
  let s1 := s.eachBay bs fun s b => s.modTbs b fun x => { x with epoch := n, epochStart := t }
  let s2 := if bays.getLsbD 0 then
      ((s1.modIdent fun y => { y with accessTold := false })).modGrid fun g =>
        { g.restart t with start := t, number := n, edge := none, edgeCoarse := false, missed := false, past := none, ignoredEpoch := 0 }
    else s1
  s2.eachBay bs fun s b => (s.emitEpoch b .plain (lens b)).bayBoundary b t

/-- EPOCH_BOUNDARY (R65, R152 to R160, R612): the boundary of the side whose time holder is `h` takes effect: bay 0 for the
mainland, or the holder of an island. -/
def execEpochBoundary (h : BayNo) (s : State) : Out :=
  if !s.alive h || !s.tbs.grid.running then .next s
  else match (s.bay h).lnl.island with
    | some i => if i.holder = h then .next (s.isleBoundary h i) else .next s
    | none =>
      if h ≠ 0 then .next s
      else match s.tbs.grid.due with
        | none => .next s
        | some t => .next (s.mainBoundary t)

end Sys2Proof.Machine
end

