-- ==== Sys2Proof/Machine/Rules.lean ====
section
/-! DEFINITION. The rules of check 6 that hold between fields, each evaluated for the base setup and for every present profile
(R52, R57). -/
namespace Sys2Proof.Machine

/-- A bin run lies within a transform of 2^n bins, at the ends of its fields (R263). -/
def runInside (n : Nat) (lo hi : Int) (count : Nat) : Bool :=
  decide (count = 0) || (decide (-(2 ^ (n - 1) : Nat) ≤ lo) && decide (hi + count ≤ (2 ^ (n - 1) : Nat)))

/-- A bin run of a field pair lies within the transform of channel `c` (R263, R294). -/
def Setup.runOk (x : Setup) (b c : Nat) (first count : Field) (i : Nat) : Bool :=
  runInside (x.nat Fld.xfmChNLog2 b c) (min (x.val first b i) (x.lo first b i)) (max (x.val first b i) (x.hi first b i))
    ((x.reach count b i).foldl max 0)

/-- The most bins of a run on channel `c`, where a count of 0 takes the span bins (R262, R273, R276, R320). -/
def Setup.mostBins (x : Setup) (b c : Nat) (count : Field) (i : Nat) : Nat :=
  ((x.reach count b i).flatMap fun k => (x.reach Fld.ddcChSrc b c).flatMap fun v =>
    (x.reach Fld.ddcPreset b (srcPort c v)).map fun q => (binRun 0 k q (x.hiN Fld.xfmChNLog2 b c)).2).foldl max 0

/-- Automatic attenuation (R182). -/
def Setup.attenOk (x : Setup) (b : Nat) : Bool :=
  !x.can Fld.afeAutoMode b || (List.range 2).all fun i =>
    decide (x.val Fld.afeAtten b i ≤ x.val Fld.afeAutoMax b ∧ x.hi Fld.afeAtten b i ≤ x.val Fld.afeAutoMax b)

/-- The custom window and the window parameters (R253, R803). -/
def Setup.windowOk (x : Setup) (b : Nat) : Bool :=
  (List.range 2).all fun c =>
    let codes := x.reach Fld.xfmChWindow b c
    let within := fun (lo hi : Int) => [x.val Fld.xfmChWinParam b c, x.lo Fld.xfmChWinParam b c, x.hi Fld.xfmChWinParam b c].all
      fun v => decide (lo ≤ v ∧ v ≤ hi)
    (!codes.contains 6 || decide (2 ^ x.nat Fld.xfmCustomLenLog2 b ≤ x.vals.arrayLen Fld.xfmCustomWin b)) &&
    decide (x.vals.arrayLen Fld.xfmCustomWin b ≤ 2 ^ x.nat Fld.xfmCustomLenLog2 b) &&
    (!codes.contains 4 || within 205 2048) && (!codes.contains 5 || within 0 8192)

/-- The bin runs of SPECTRUM records, traces and taps (R263). -/
def Setup.runsOk (x : Setup) (b : Nat) : Bool :=
  (List.range 2).all (fun c => x.runOk b c Fld.xfmChBinFirst Fld.xfmChBinCount c) &&
  (List.range 16).all (fun t => x.runOk b (t / 8) Fld.xfmTBinFirst Fld.xfmTBinCount t) &&
  (List.range 8).all fun t => (x.reach Fld.xfmTapInput b t).all fun c => x.runOk b c Fld.xfmTapBinFirst Fld.xfmTapBinCount t

/-- The bytes of tap `t`'s region, control block included, at its largest (R276). -/
def Setup.tapBytes (x : Setup) (b t : Nat) : Nat :=
  let w := if x.nat Fld.xfmTapFormat b t = 1 then 4 else 2
  let bins := ((x.reach Fld.xfmTapInput b t).map fun c => x.mostBins b c Fld.xfmTapBinCount t).foldl max 0
  32 + x.nat Fld.xfmTapSlots b t * (64 + 32 * ceilDiv (bins * w) 32)

/-- Tap regions fit the rockpool memory (R276). -/
def Setup.tapsOk (x : Setup) (b : Nat) : Bool :=
  (List.range 8).all fun t => !x.can Fld.xfmTapEn b t || decide (x.nat Fld.xfmTapBase b t + x.tapBytes b t ≤ 131072)

/-- Trigger units: bin runs, lengths, selected spectra and masks named (R294, R300, R320, R321). -/
def Setup.unitsOk (x : Setup) (b : Nat) : Bool :=
  (List.range 8).all fun u =>
    !x.can Fld.trgUEn b u ||
    (let srcs := x.reach Fld.trgUSource b u
     let chans := x.reach Fld.trgUChannel b u
     (!(srcs.contains 2 || srcs.contains 3) || chans.all fun c => x.runOk b c Fld.trgUBinFirst Fld.trgUBinCount u) &&
     (!(x.reach Fld.trgUQual b u).contains 3 || decide (x.hi Fld.trgUDMin b u ≤ x.lo Fld.trgUDMax b u)) &&
     (chans.all fun c => !(x.reach Fld.xfmChSpecMode b c).contains 2 ||
       decide (x.hiN Fld.trgUSpecPre b u * x.mostBins b c Fld.xfmChBinCount c ≤ 131072)) &&
     (!srcs.contains 3 || (x.reach Fld.trgUMask b u).all fun m => decide (x.nat Fld.trgMaskPoints b m ≠ 0)))

/-- Masks lie in the store and do not overlap (R321). -/
def Setup.masksOk (x : Setup) (b : Nat) : Bool :=
  let runs := ((List.range 8).map fun m => (x.nat Fld.trgMaskBase b m, x.nat Fld.trgMaskPoints b m)).filter fun r => r.2 ≠ 0
  runs.all (fun r => decide (r.1 + r.2 ≤ 131072)) && allApart runs

/-- L_min of a density channel in seconds, at its largest (R345, R349). -/
def Setup.denMin (x : Setup) (b c : Nat) : Rat :=
  let n := x.hiN Fld.xfmChNLog2 b c
  let slow := ratTop ((x.reach Fld.ddcChSrc b c).map fun v => ((2 ^ n : Nat) : Rat) / (2 * x.fOutMin b (srcPort c v)))
  (x.tb : Rat) / 1000000000 + 3 / 1000000 + slow + ((2 ^ n : Nat) : Rat) / 40960000000 + ((8 * colsOf n : Nat) : Rat) / 1280000000

/-- The nominal epoch leaves time for the density passes (R349). -/
def Setup.denOk (x : Setup) (b : Nat) : Bool :=
  (List.range 2).all fun c => !x.can Fld.denChEn b c || decide (x.denMin b c ≤ (x.epochNs : Rat) / 1000000000)

/-- Payload figure c_lane of a DisplayPort rate in Mbit/s (R367). -/
def dpFigure : Nat → Nat
  | 0 => 2160
  | 1 => 4320
  | 2 => 6480
  | 3 => 9671
  | 4 => 13056
  | _ => 19342

/-- The words of the readout font keep the body of R380. -/
def fontOk (w h words : Nat) : Bool := decide (4 ≤ w ∧ w ≤ 32 ∧ 4 ≤ h ∧ h ≤ 64 ∧ words = 2 + 256 * h)

/-- A rectangle lies within the smallest active area that the live declarations allow (R386, R387). -/
def Setup.inArea (x : Setup) (b : Nat) (right bottom : Int) : Bool :=
  decide (right ≤ x.lo Fld.scnHActive b) && decide (bottom ≤ x.lo Fld.scnVActive b)

/-- The verified readout (R380, R386). -/
def Setup.readoutOk (x : Setup) (b : Nat) : Bool :=
  decide (x.nat Fld.scnRoEn b = 0) ||
  (let w := x.vals.nat Fld.scnRoFont b 0 0
   let h := x.vals.nat Fld.scnRoFont b 0 1
   decide (x.nat Fld.scnEn b = 1) && fontOk w h (x.vals.arrayLen Fld.scnRoFont b) &&
   (x.nat Fld.mcoSealCores b).testBit (x.nat Fld.scnRoCore b) &&
   x.inArea b (x.nat Fld.scnRoX b + x.nat Fld.scnRoCols b * w : Nat) (x.nat Fld.scnRoY b + x.nat Fld.scnRoRows b * h : Nat))

/-- The scan-out: link capacity, format limits, and layers within the active area (R363 to R367, R386, R387, R392). `fonts`
are the fonts loaded in the bay. -/
def Setup.scnOk (x : Setup) (fonts : List Nat) (b : Nat) : Bool :=
  x.readoutOk b &&
  (decide (x.nat Fld.scnEn b = 0) ||
   (let uhbr := decide (3 ≤ x.nat Fld.scnLinkRate b)
    decide (x.hi Fld.scnHActive b ≤ if uhbr then 7680 else 3840) && decide (x.hi Fld.scnVActive b ≤ if uhbr then 4320 else 2160) &&
    decide (x.hi Fld.scnPixelKhz b ≤ if uhbr then 2100000 else 600000) &&
    decide (x.hiN Fld.scnPixelKhz b ≤ 32 * x.nat Fld.scnLanes b * dpFigure (x.nat Fld.scnLinkRate b)) &&
    decide (8 ≤ x.lo Fld.scnVFront b + x.lo Fld.scnVSync b + x.lo Fld.scnVBack b) &&
    x.inArea b (x.hi Fld.scnPlotX b + x.hi Fld.scnPlotW b) (x.hi Fld.scnPlotY b + x.hi Fld.scnPlotH b) &&
    decide (x.hi Fld.scnDenColFirst b + x.hi Fld.scnDenColCount b ≤ 1024) &&
    decide (x.hi Fld.scnDenRowFirst b + x.hi Fld.scnDenRowCount b ≤ 512) &&
    (List.range 8).all (fun i => decide (x.hi Fld.scnSBottom b i < x.lo Fld.scnSTop b i)) &&
    decide (x.hi Fld.scnGratFirst b + x.hi Fld.scnGratCount b ≤ 4096) &&
    x.inArea b (x.hi Fld.scnTextX b + 1) (x.hi Fld.scnTextY b + 1) &&
    decide (x.hiN Fld.scnTextCols b * x.hiN Fld.scnTextRows b ≤ 4096) &&
    (!x.can Fld.scnTextEn b || (x.reach Fld.scnTextFont b).all fonts.contains) &&
    (List.range 15).all fun r =>
      x.inArea b (x.hi Fld.scnCrcX b r + x.hi Fld.scnCrcW b r) (x.hi Fld.scnCrcY b r + x.hi Fld.scnCrcH b r)))

/-- I/Q feeds of the measurement cores (R419). -/
def Setup.feedsOk (x : Setup) (b : Nat) : Bool :=
  (List.range 8).all fun c =>
    !x.can Fld.mcoCIqEn b c ||
    (let p := x.nat Fld.mcoCIqPort b c
     let base := x.nat Fld.mcoCIqBase b c
     let len := 32 + x.nat Fld.mcoCIqBlocks b c * (32 + 4 * x.nat Fld.mcoCIqBlock b c)
     (({ x with live := [] } : Setup).activeSets b).all (fun s => s.testBit p) && decide (x.fOut b p ≤ 640000000) &&
     decide (base + len ≤ 131072) &&
     (!x.can Fld.xfmTapEn b c || apart base len (x.nat Fld.xfmTapBase b c) (x.tapBytes b c)))

/-- The queues that a routing field may name, when its records can arise (R450). -/
def Setup.routed (x : Setup) (b : Nat) : List Nat :=
  let tgt := fun (c : Bool) (f : Field) (i : Nat) => if c then (x.reach f b i).filter (· < 128) else []
  ((List.range 4).flatMap fun p => tgt (x.can Fld.quePIqEn b p) Fld.quePIqQueue p) ++
  ((List.range 2).flatMap fun c => tgt (x.can Fld.xfmChEn b c) Fld.queGapQueue c) ++
  ((List.range 16).filter fun q => (x.reach Fld.queEpochQueues b).any fun m => m.testBit q).map (16 * b + ·) ++
  ((List.range 2).flatMap fun c => tgt (x.can Fld.xfmChEn b c && x.can Fld.xfmChSpecMode b c) Fld.xfmChSpecQueue c) ++
  ((List.range 16).flatMap fun t => tgt (x.can Fld.xfmTEn b t) Fld.xfmTQueue t) ++
  ((List.range 2).flatMap fun c => tgt (x.can Fld.denChEn b c && x.can Fld.denChEmit b c) Fld.denChQueue c) ++
  ((List.range 8).flatMap fun u => tgt (x.can Fld.trgUEn b u) Fld.trgUQueue u) ++
  ((List.range 8).flatMap fun c => tgt (x.can Fld.mcoCEn b c) Fld.mcoCQueue c) ++
  ((List.range 16).flatMap fun m => tgt (x.can Fld.monEn b m && x.can Fld.monEmit b m) Fld.monQueue m) ++
  tgt (x.can Fld.recEn b) Fld.recReplayQueue 0 ++ tgt true Fld.calQueue 0 ++
  tgt (decide (b = 0)) Fld.queEventQueue 0 ++ tgt (decide (b = 0)) Fld.lnlRejoinQueue 0 ++ tgt (decide (b = 0)) Fld.sealLogQueue 0

/-- Every queue that records may enter is drained (R450). -/
def Setup.routesOk (x : Setup) : Bool := (List.range x.nb).all fun b => (x.routed b).all fun q => (x.drain q).isSome

/-- An address lies within its space (R461, R469). -/
def addrOk (space a : Nat) : Bool :=
  decide (a < match space with
    | 0 => 2 ^ 64
    | 1 => 2 ^ 26
    | 2 => 2 ^ 20
    | _ => 2 ^ 30)

/-- The DMA channels of a bay (R458, R461, R464). -/
def Setup.dmaOk (x : Setup) (b : Nat) : Bool :=
  (((List.range 32).filter fun n => decide (1 ≤ x.nat Fld.dmaMode b n ∧ x.nat Fld.dmaMode b n ≤ 3)).map fun n =>
    x.nat Fld.dmaQueue b n).Nodup &&
  (List.range 32).all fun n =>
    let mode := x.nat Fld.dmaMode b n
    let rec_ := x.nat Fld.dmaStream b n / 8
    (x.endpointBay (x.nat Fld.dmaEndpoint b n)).isSome &&
    (decide (mode ≠ 3) || (decide (rec_ < x.nb) && decide (x.nat Fld.recEn rec_ = 1))) &&
    (decide (x.nat Fld.dmaStart b n = 0) || decide (x.nat Fld.dmaSrcSpace b n ≠ 0 ∧ x.nat Fld.dmaDstSpace b n ≠ 0)) &&
    addrOk (x.nat Fld.dmaSrcSpace b n) (x.nat Fld.dmaSrcAddr b n) && addrOk (x.nat Fld.dmaDstSpace b n) (x.nat Fld.dmaDstAddr b n) &&
    (decide (x.nat Fld.dmaDoneRoute b n ≠ 2) || !(x.nat Fld.mcoSealCores b).testBit (x.nat Fld.dmaCore b n))

/-- The Ethernet streams that a DMA channel feeds (R565). -/
def Setup.fedStreams (x : Setup) : List Nat :=
  (List.range x.nb).flatMap fun b => ((List.range 32).filter fun n => decide (x.nat Fld.dmaMode b n = 2)).map fun n =>
    x.nat Fld.dmaStream b n

/-- A package-wide Ethernet port is present. -/
def Setup.portHere (x : Setup) (p : Nat) : Bool := decide (p < 8 * x.nb) && decide (x.nat Fld.ethPEn (p / 8) (p % 8) = 1)

/-- FEC and MAC of the ports of a bay, and the reserved words of their addresses (R7, R561, R564, R585). The default MAC address,
zero, is refused where the port is present. -/
def Setup.ethPortsOk (x : Setup) (b : Nat) : Bool :=
  (List.range 8).all fun i =>
    let fec := x.nat Fld.ethPFec b i
    let hi := x.nat Fld.ethPMacHi b i
    !hi.testBit 8 && decide (x.vals.nat Fld.ethPNet b i 9 = 0 ∧ x.vals.nat Fld.ethPNet b i 4 ≤ 128) &&
    (decide (x.nat Fld.ethPEn b i = 0) ||
     ((match x.nat Fld.ethPRate b i with
       | 0 => decide (fec = 0)
       | 1 => decide (fec ≤ 1)
       | _ => decide (fec = 2)) &&
      decide (hi ≠ 0 ∨ x.nat Fld.ethPMacLo b i ≠ 0)))

/-- Destination entry `d` is an IPv4 address (R564). -/
def Setup.destV4 (x : Setup) (d : Nat) : Bool :=
  let word := fun (w : Nat) => Word.ofSigned (x.vals.of Fld.ethDest 0 0 (8 * d + w))
  isV4 (word 0) (word 1) (word 2)

/-- Ethernet streams: one channel each, ports present, families equal (R564, R565, R585). The default port of a stream that nothing
feeds, 0, need not be present. -/
def Setup.ethOk (x : Setup) : Bool :=
  (x.fedStreams).Nodup &&
  (List.range 64).all (fun s =>
    (decide (x.nat Fld.ethSPort 0 s = 0) || x.portHere (x.nat Fld.ethSPort 0 s)) &&
    (decide (x.nat Fld.ethSStandby 0 s = 255) || x.portHere (x.nat Fld.ethSStandby 0 s))) &&
  x.fedStreams.all (fun s =>
    (x.streamPorts s).all x.portHere &&
    (x.reach Fld.ethSDest 0 s).all fun d => (x.streamPorts s).all fun p => decide (x.destV4 d = x.vals.portV4 (p / 8) (p % 8))) &&
  (decide (x.nat Fld.ethPtpPort 0 = 255) || x.portHere (x.nat Fld.ethPtpPort 0)) &&
  (List.range 16).all fun d =>
    let word := fun (w : Nat) => x.vals.nat Fld.ethDest 0 0 (8 * d + w)
    decide (word 4 < 65536 ∧ word 5 < 65536 ∧ word 6 = 0 ∧ word 7 = 0)

/-- The lanes of a member's root port (R475). -/
def Setup.memberLanes (x : Setup) (b d : Nat) : Nat × Nat :=
  (4 * x.nat Fld.recDQuad b d + x.nat Fld.recDLane b d, 2 ^ x.nat Fld.recDWidth b d)

/-- The recorder of a bay: write buffer and members (R487, R503). -/
def Setup.recOk (x : Setup) (b : Nat) : Bool :=
  let n := x.nat Fld.recDrives b
  (decide (x.nat Fld.recEn b = 0) || decide (n * 2 ^ x.nat Fld.recStripeLog2 b * (x.nat Fld.recLagRows b + 2) ≤ 33554432)) &&
  allApart ((x.members b).map (x.memberLanes b)) &&
  (x.members b).all fun d => decide (x.nat Fld.recDLane b d % 2 ^ x.nat Fld.recDWidth b d = 0)

/-- The main tap of every lane (R528). -/
def Setup.tapsMainOk (x : Setup) (b : Nat) : Bool :=
  (List.range 24).all fun k =>
    let size := fun (f : Field) => max (x.lo f b k).natAbs (x.hi f b k).natAbs
    decide (size Fld.lneTxPre2 + size Fld.lneTxPre1 + size Fld.lneTxPost1 + 24 ≤ 64)

/-- Endpoint indices differ (R555). -/
def Setup.indicesOk (x : Setup) : Bool :=
  ((List.range x.nb).flatMap fun b => ((List.range 4).filter fun j => decide (x.nat Fld.pciSEn b j = 1)).map fun j =>
    x.nat Fld.pciSIndex b j).Nodup

/-- The JESD204 shapes that a stream's fields allow, with K and E (R577). -/
def Setup.jesShapes (x : Setup) (b s : Nat) : List (JesShape × Nat × Nat) :=
  (x.reach Fld.jesSComplex b s).flatMap fun c => (x.reach Fld.jesSNp b s).flatMap fun np => (x.reach Fld.jesSS b s).flatMap fun sm =>
    (x.reach Fld.jesSLanes b s).flatMap fun l => (x.reach Fld.jesSStd b s).flatMap fun st =>
      (x.reach Fld.jesSRateKhz b s).flatMap fun r => (x.reach Fld.jesSK b s).flatMap fun k => (x.reach Fld.jesSE b s).map fun e =>
        ({ m := c + 1, np := np, smp := sm, l := max 1 l, standardC := decide (st = 1), fxs := r * 1000 }, k, e)

/-- A shape keeps the limits of R576 and R577. -/
def JesShape.ok (j : JesShape) (k : Nat) : Bool :=
  let f := j.m * j.smp * j.np / (8 * j.l)
  let (n, d) := j.rate
  decide (j.m * j.smp * j.np % (8 * j.l) = 0) && decide (1250000000 * d ≤ n) &&
  decide (n ≤ (if j.standardC then 32000000000 else 12500000000) * d) &&
  (j.standardC || decide (f * k % 4 = 0 ∧ 17 ≤ f * k ∧ f * k ≤ 1024))

/-- The period of SYSREF_OUT is a whole multiple of T (R119, R579). -/
def JesShape.sysrefOk (j : JesShape) (k e fadc div : Nat) : Bool :=
  let (tn, td) := if j.standardC then (e * 2048 * j.l, j.m * j.np * j.fxs) else (k * j.smp, j.fxs)
  decide (64 * div * td % (fadc * tn) = 0)

/-- The JESD204 streams of a bay (R575, R577, R579). -/
def Setup.jesOk (x : Setup) (b : Nat) : Bool :=
  (List.range 2).all fun s =>
    !x.can Fld.jesSEn b s ||
    (decide (x.nat Fld.recXsReplay b s = 0) && decide (x.hi Fld.jesSN b s ≤ x.lo Fld.jesSNp b s) &&
     (x.jesShapes b s).all fun j =>
       j.1.ok j.2.1 && (!(x.reach Fld.jesSSysrefSrc b s).contains 1 || (x.reach Fld.clkSysrefDiv b).all fun v =>
         j.1.sysrefOk j.2.1 j.2.2 (adcRate (x.nat Fld.clkFAdc 0)) v))

/-- Monitor units observe objects that exist (R737, R738). -/
def Setup.monOk (x : Setup) (b : Nat) : Bool :=
  (List.range 16).all fun m =>
    !x.can Fld.monEn b m ||
    (x.reach Fld.monQuantity b m).all fun q => (x.reach Fld.monObject b m).all fun o =>
      match q with
      | 0 => (x.reach Fld.monPair b m).all fun p => decide (o < if p = 0 then 16 else if p = 2 then 2 else 8)
      | 1 => decide (o < 16)
      | 2 => decide (o < 24)
      | 3 => decide (o < 2)
      | 4 => decide (o < 64 ∧ o % 32 ≤ 24)
      | _ => decide (o < 8)

/-- Only open cores ebb (R735). -/
def Setup.ebbOk (x : Setup) (b : Nat) : Bool :=
  (x.reach Fld.pwrCoreEbb b).all fun v => decide (v &&& x.nat Fld.mcoSealCores b = 0)

/-- Injectors act only while fault injection is permitted (R617, R749). -/
def Setup.injOk (x : Setup) (metrology : Bool) : Bool :=
  let any := (List.range 64).any (fun s => x.can Fld.injAction 0 s) ||
    (List.range x.nb).any fun b => (List.range 5).any fun n => x.can Fld.lnlInjAction b n
  !any || (decide (x.nat Fld.injEnable 0 = 1) && !metrology)

/-- The setup can produce sealed records (R635). -/
def Setup.sealsRecords (x : Setup) : Bool :=
  decide (x.nat Fld.sealLogQueue 0 ≠ 255) ||
  (List.range x.nb).any fun b =>
    decide (x.nat Fld.calQueue b ≠ 255) ||
    (List.range 16).any (fun t => decide (x.nat Fld.xfmTSeal b t = 1) && x.can Fld.xfmTEn b t) ||
    (List.range 2).any fun c => (x.nat Fld.mcoSealCores b).testBit c && decide (x.nat Fld.mcoCEn b c = 1)

/-- The MAC engine has a key and keeps up (R635, R636). -/
def Setup.macOk (x : Setup) (mac : List (Option (List Byte))) : Bool :=
  (!x.sealsRecords || ((mac.getD (x.nat Fld.sealMacKey 0) none).isSome)) &&
  decide (ratSum ((x.flows.filter (·.isSealed)).map fun f => f.bps) ≤ 16000000000)

/-- The rules of one bay. -/
def Setup.bayOk (x : Setup) (fonts : Nat → List Nat) (b : Nat) : Bool :=
  x.attenOk b && x.windowOk b && x.runsOk b && x.tapsOk b && x.unitsOk b && x.masksOk b && x.denOk b && x.scnOk (fonts b) b &&
  x.feedsOk b && x.dmaOk b && x.ethPortsOk b && x.recOk b && x.tapsMainOk b && x.jesOk b && x.monOk b && x.ebbOk b &&
  decide (x.val Fld.calAgreeRms b ≤ x.val Fld.calAgreePeak b)

/-- The cross-field rules of check 6 for one evaluation. -/
def Setup.rulesOk (x : Setup) (im : Image) (f : SealFuses) : Bool :=
  let fonts := fun b => (im.items.filter fun t => decide (t.code = 3) && t.bays.testBit b).map (·.index)
  (List.range x.nb).all (x.bayOk fonts) && x.routesOk && x.ethOk && x.indicesOk && x.injOk f.metrology && x.macOk f.mac.toList &&
  decide (x.nat Fld.lnlPackage 0 < x.nat Fld.lnlShoalSize 0) &&
  (im.signed || decide (x.nat Fld.sealMetrology 0 = 0))

/-! ### Rules of the image as a whole -/

/-- An item's index and body keep the form of the chapter that defines it (R322, R377, R379, R380, R426), and it names no
sealed core (R424). -/
def itemOk (nb : Nat) (m : Vals) (t : Item) : Bool :=
  let n := t.body.length
  let bays := (List.range nb).filter fun b => t.bays.testBit b
  let open_ := bays.all fun b => !(m.nat Fld.mcoSealCores b).testBit t.index
  match t.code with
  | 1 => decide (t.index < 8) && bays.all fun b => decide (n = 4 * m.nat Fld.trgMaskPoints b t.index)
  | 2 => decide (t.index < 4 ∧ n = 4096)
  | 3 => decide (t.index < 4 ∧ n % 4 = 0) && fontOk (leAt t.body 0) (leAt t.body 4) (n / 4)
  | 4 => decide (t.index < 4 ∧ n % 8 = 0 ∧ n ≤ 8192)
  | 16 => decide (t.index < 8 ∧ n % 4 = 0 ∧ n ≤ 65536) && open_
  | _ => decide (t.index < 8 ∧ n % 4 = 0 ∧ n ≤ 131072) && open_

/-- An entry writes no field of a drive that is no member (R503). -/
def driveEntryOk (nb : Nat) (m : Vals) (e : SetEntry) : Bool :=
  decide (e.key.block ≠ 0x0D ∨ e.key.id < 0x100 ∨ 0x180 ≤ e.key.id) ||
  ((List.range nb).filter fun b => e.key.mask.testBit b).all fun b => decide ((e.key.id - 0x100) / 16 < m.nat Fld.recDrives b)

/-- The setups an image is evaluated for: the base first, then the present profiles (R57, R62). -/
def Image.setups (im : Image) (nb tb : Nat) : List (Option Nat × Setup) :=
  (none, { nb := nb, vals := im.base nb, live := im.live, tb := tb }) ::
    ((List.range 16).filter fun p => (im.profileAt p).isSome).map fun p =>
      (some p, { nb := nb, vals := im.effective nb p, live := im.live, tb := tb })

/-- The cross-field rules of check 6 on a whole image. -/
def Image.rulesOk (im : Image) (nb tb : Nat) (f : SealFuses) : Bool :=
  let base := im.base nb
  im.items.all (itemOk nb base) && im.opened.all (driveEntryOk nb base) &&
  (im.profiles.filterMap fun p => p).all (fun (p : Profile) => p.entries.all (driveEntryOk nb base)) &&
  (im.setups nb tb).all fun e => e.2.rulesOk im f

end Sys2Proof.Machine
end

