-- ==== Sys2Proof/Machine/Checker.lean ====
section
/-! DEFINITION. The arithmetic checks 10 to 19 and the warning of the image checker, with the payload of a refusal (R57 to R63,
R802). -/
namespace Sys2Proof.Machine

/-- A check that fails in a bay: `sub` is the channel, port, unit or quad that orders failures of one bay (R62). -/
structure Failure where
  check : Nat
  bay : Nat
  sub : Nat
  first : Word
  second : Word
  need : Word
  avail : Word
  unit : Word
  deriving DecidableEq, Repr

/-- The key of a field with the failing bay's bit alone; a package-wide field has bit 0 (R62, R802). -/
def fieldWord (f : Field) (b : Nat) (i : Nat := 0) : Word :=
  keyWord { block := f.block, mask := if f.pkg then 1 else 2 ^ b, id := f.id + f.stride * i }

/-- A required value: rounded up and saturated (R62). -/
def needWord (r : Rat) : Word := wd (min r.ceil.toNat 0xFFFFFFFF)

/-- An available value: rounded down and saturated (R62). -/
def availWord (r : Rat) : Word := wd (min r.floor.toNat 0xFFFFFFFF)

/-- A key word and what it adds comes before another: it adds more, or as much under a lower key (R802). -/
def heavier (a b : Word × Rat) : Bool := decide (b.2 < a.2) || (decide (b.2 = a.2) && decide (a.1.toNat < b.1.toNat))

/-- The heaviest of a list of contributions. -/
def heaviest : List (Word × Rat) → Option (Word × Rat)
  | [] => none
  | x :: r => match heaviest r with
    | none => some x
    | some y => some (if heavier y x then y else x)

/-- The keys of the two heaviest contributions, zero where there is none. -/
def twoHeaviest (xs : List (Word × Rat)) : Word × Word :=
  let ys := xs.filter fun e => decide (0 < e.2)
  match heaviest ys with
  | none => (0, 0)
  | some a => (a.1, ((heaviest (ys.erase a)).map (·.1)).getD 0)

/-- A failure when a sum exceeds its limit; a sum equal to it passes (R61). `scale` takes both to the unit. -/
def overLimit (check b sub : Nat) (need avail scale : Rat) (unit : Nat) (words : Word × Word) : List Failure :=
  if avail < need then
    [{ check := check, bay := b, sub := sub, first := words.1, second := words.2, need := needWord (need / scale)
       avail := availWord (avail / scale), unit := wd unit }]
  else []

/-! ### Checks 10 to 13 -/

/-- The field that makes an active port load the DDC engine (R802). -/
def Setup.portField (x : Setup) (b p : Nat) : Word :=
  if p < 2 then fieldWord Fld.clkAdcEn b
  else if x.nat Fld.recXsReplay b (p - 2) = 1 then fieldWord Fld.recXsReplayDecim b (p - 2)
  else fieldWord Fld.jesSRateKhz b (p - 2)

/-- Check 10: the DDC load (R58). -/
def Setup.check10 (x : Setup) (b : Nat) : List Failure :=
  let m := x.worstSet b
  let ports := (maskPorts m).reverse
  overLimit 10 b 0 (x.setLoad b m : Nat) 40960000000 1000000 1
    ((ports[0]?.map (x.portField b)).getD 0, (ports[1]?.map (x.portField b)).getD 0)

/-- Check 11: the transform length of each channel (R58). -/
def Setup.check11 (x : Setup) (b : Nat) : List Failure :=
  (List.range 2).flatMap fun c =>
    let short := (x.reach Fld.ddcChSrc b c).find? fun v => decide (x.loN Fld.ddcDecimLog2 b (srcPort c v) ≤ 3)
    let p := srcPort c (short.getD (x.nat Fld.ddcChSrc b c))
    overLimit 11 b c (2 ^ x.hiN Fld.xfmChNLog2 b c : Nat) (if short.isSome then 65536 else 1048576) 1 4
      (fieldWord Fld.xfmChNLog2 b c, fieldWord Fld.ddcDecimLog2 b p)

/-- Check 12: the transform load (R58). -/
def Setup.check12 (x : Setup) (b : Nat) : List Failure :=
  let adc := x.worstAdc b
  let part := fun c => (fieldWord Fld.xfmChOverlapLog2 b c, x.chanLoad b c adc)
  overLimit 12 b 0 (x.chanLoad b 0 adc + x.chanLoad b 1 adc) 81920000000 1000000 1 (twoHeaviest [part 0, part 1])

/-- Bytes of the slots of a unit (R316). -/
def Setup.slotBytes (x : Setup) (b u : Nat) : Nat :=
  x.nat Fld.trgUSlots b u * (x.nat Fld.trgUPre b u + x.nat Fld.trgUPost b u) * (3 + x.nat Fld.trgUFormat b u)

/-- Check 13: capture memory, and the slots of each unit in segment capture (R58, R316, R446). -/
def Setup.check13 (x : Setup) (b : Nat) : List Failure :=
  let size := fun (f : Field) (i : Nat) => (fieldWord f b i, (x.nat f b i : Rat))
  let parts := (List.range 8).map (size Fld.queSegSize) ++ (List.range 16).map (size Fld.queQSize) ++ [size Fld.queReserveSize 0]
  overLimit 13 b 0 (ratSum (parts.map (·.2))) 67108864 1 3 (twoHeaviest parts) ++
  (List.range 8).flatMap fun u =>
    if x.can Fld.trgUEn b u && decide (x.nat Fld.trgUMarkOnly b u = 0) then
      overLimit 13 b (1 + u) (x.slotBytes b u : Nat) (x.nat Fld.queSegSize b u : Nat) 1 3
        (fieldWord Fld.trgUSlots b u, fieldWord Fld.queSegSize b u)
    else []

/-- I/Q production of a bay over ports that feed capture or the recorder, in bytes per second (R63). -/
def Setup.production (x : Setup) (b : Nat) : Rat :=
  ratSum ((List.range 4).map fun p =>
    let iq := if x.can Fld.quePIqEn b p then (x.reach Fld.quePIqFormat b p).map (3 + ·) else []
    let seg := (List.range 8).filterMap fun u =>
      if x.can Fld.trgUEn b u && decide (x.nat Fld.trgUMarkOnly b u = 0) && (x.reach Fld.trgUPort b u).contains p then
        some (3 + x.nat Fld.trgUFormat b u) else none
    if (x.adcMasks b).any (x.delivers b p) then x.fOut b p * ((iq ++ seg).foldl max 0 : Nat) else 0)

/-- The warning of R63: the ride-through reserve is below 20 µs of the production. -/
def Setup.reserveShort (x : Setup) (b : Nat) : List Failure :=
  overLimit 13 b 9 (x.production b / 50000) (x.nat Fld.queReserveSize b : Nat) 1 3 (fieldWord Fld.queReserveSize b, 0)

/-! ### Checks 14 to 17 -/

/-- The key of the field that routes a flow. -/
def Flow.key (f : Flow) : Word := fieldWord f.field f.bay f.inst

/-- The routing fields of the two heaviest flows of a sum (R802). -/
def Setup.routers (x : Setup) (adds : Flow → Rat) : Word × Word := twoHeaviest (x.flows.map fun f => (f.key, adds f))

/-- The stream field of the channel that carries the heaviest flow to a bay's recorder (R802). -/
def Setup.recCarrier (x : Setup) (b : Nat) (router : Word) : Word :=
  match x.flows.find? fun f => decide (f.key = router) with
  | none => 0
  | some f =>
    match (f.alts.flatMap fun qs => qs).find? fun q => decide (x.sink q = .recorder b) with
    | none => 0
    | some q => match x.drain q with
      | none => 0
      | some (qb, n) => fieldWord Fld.dmaStream qb n

/-- Check 14: D_REC (R58). -/
def Setup.check14 (x : Setup) (b : Nat) : List Failure :=
  let w := (x.routers (x.recAdds b)).1
  overLimit 14 b 0 (x.dRec b) 64000000000 1000000 2 (w, x.recCarrier b w)

/-- The member with the smallest r_drive, the lowest on a tie (R802). -/
def Setup.slowest (x : Setup) (b : Nat) : Option Nat :=
  (x.members b).foldl (fun m d => match m with
    | none => some d
    | some e => if x.driveRate b d < x.driveRate b e then some d else some e) none

/-- Check 15: the stripe set carries D_REC with one member lost (R58, R502). -/
def Setup.check15 (x : Setup) (b : Nat) : List Failure :=
  if x.nat Fld.recEn b = 0 then []
  else
    let d := x.slowest b
    overLimit 15 b 0 (x.dRec b) ((((x.members b).length - 1) * (d.map (x.driveRate b)).getD 0 * 1000000 : Nat)) 1000000 2
      (fieldWord Fld.recDrives b, (d.map fun d => fieldWord Fld.recDRate b d).getD 0)

/-- The quads that the members of a bay name, in member order (R503). -/
def Setup.driveQuads (x : Setup) (b : Nat) : List Nat := ((x.members b).map fun d => x.nat Fld.recDQuad b d).eraseDups

/-- Check 16: drives and their quads (R58, R503). -/
def Setup.check16 (x : Setup) (b : Nat) : List Failure :=
  if x.nat Fld.recEn b = 0 then []
  else
    let n := x.nat Fld.recDrives b
    let quads := x.driveQuads b
    let fifth := quads.getD 4 6
    let d := ((x.members b).find? fun d => decide (x.nat Fld.recDQuad b d = fifth)).getD 0
    (if n < 3 then
      [{ check := 16, bay := b, sub := 0, first := fieldWord Fld.recDrives b, second := 0, need := 3, avail := wd n, unit := 4 }]
     else []) ++
    overLimit 16 b 1 (quads.length : Nat) 4 1 4 (fieldWord Fld.recDQuad b d, 0)

/-- The uses a quad may carry (R520). -/
def useAllowed (q use : Nat) : Bool :=
  match use with
  | 1 => decide (2 ≤ q)
  | 5 => decide (q ≤ 1)
  | 6 => decide (q = 5)
  | _ => true

/-- The key of the field that places a port (R802). -/
def PortId.placed (p : PortId) (b : Nat) : Word :=
  match p with
  | .control => fieldWord Fld.pciCtrlGeom 0
  | .stream j => fieldWord Fld.pciSQuad b j
  | .drive d => fieldWord Fld.recDQuad b d
  | .eth i => fieldWord Fld.ethPQuad b i
  | .lanil n => fieldWord Fld.lnlLinkQuad 0 n
  | .jesd s => fieldWord Fld.jesSFirstLane b s
  | .display => 0

/-- A claim lies in a group of quads that R521 and R522 allow. -/
def Claim.allowed (c : Claim) : Bool :=
  decide (c.first + c.count ≤ 24) &&
  (match c.port with
   | .control | .stream _ =>
     if c.count ≤ 4 then decide (8 ≤ c.first) else if c.count ≤ 8 then decide (c.first = 8 ∨ c.first = 16) else decide (c.first = 8)
   | .lanil _ => decide (c.count ≤ 4) || decide (c.first % 8 = 0)
   | .jesd _ => decide (c.first + c.count ≤ 8) && decide (c.first % c.count = 0)
   | .display => true
   | .drive _ | .eth _ => decide (c.first % c.count = 0))

/-- Every quad of a claim has the claim's use. -/
def Setup.claimUse (x : Setup) (b : Nat) (c : Claim) : Bool :=
  (List.range c.count).all fun i => decide (x.nat Fld.lneQdUse b ((c.first + i) / 4) = c.use)

/-- Two claims share a lane. -/
def Claim.meets (c d : Claim) : Bool := !apart c.first c.count d.first d.count

/-- The two quads of an x8 external link agree (R523). -/
def Setup.linkAgrees (x : Setup) (b : Nat) (c : Claim) : Bool :=
  match c.port with
  | .lanil _ =>
    let q := c.first / 4
    decide (c.count ≤ 4) || (decide (x.nat Fld.lneQdLnl b q = x.nat Fld.lneQdLnl b (q + 1)) &&
      decide (x.nat Fld.lneQdLnlRate b q = x.nat Fld.lneQdLnlRate b (q + 1)))
  | _ => true

/-- What fails in quad `q` under one set of claims: the placement field to name, 0 for none (R523, R802). -/
def Setup.quadFails (x : Setup) (b q : Nat) (cs : List Claim) : Option Word :=
  let use := x.nat Fld.lneQdUse b q
  let bad := (cs.filter fun c => decide (c.first / 4 = q)).find? fun c =>
    !c.allowed || !x.claimUse b c || !x.linkAgrees b c
  let shared := (cs.filter fun c => decide (c.first / 4 ≤ q)).find? fun c =>
    cs.any fun d => decide (d.port ≠ c.port) && c.meets d && decide (max c.first d.first / 4 = q)
  if !useAllowed q use || (decide (use = 6) && decide (x.nat Fld.scnEn b = 0)) ||
      (decide (q = 5) && decide (x.nat Fld.scnEn b = 1) && decide (use ≠ 6)) ||
      (decide (use = 4) != decide (x.nat Fld.lneQdLnl b q ≠ 0)) then some 0
  else match bad with
    | some c => some (c.port.placed b)
    | none => shared.map fun c => c.port.placed b

/-- The claims of a bay under every placement of its converter streams that the live declarations allow (R57). -/
def Setup.claimSets (x : Setup) (b : Nat) : List (List Claim) :=
  let set := fun (m : Vals) (f : Field) (s v : Nat) => Sparse.set none m (fieldKey f b s 0) (some (v : Int))
  let one := fun (s : Nat) (ms : List Vals) => ms.flatMap fun m => (x.reach Fld.jesSEn b s).flatMap fun e =>
    (x.reach Fld.jesSFirstLane b s).flatMap fun l => (x.reach Fld.jesSLanes b s).map fun n =>
      set (set (set m Fld.jesSEn s e) Fld.jesSFirstLane s l) Fld.jesSLanes s n
  (one 1 (one 0 [x.vals])).map fun m => Vals.claims m b

/-- Check 17: the quads of a bay (R523). Words 3 to 5 of its refusal are not stated (log entry 12). -/
def Setup.check17 (x : Setup) (b : Nat) : List Failure :=
  (List.range 6).filterMap fun q =>
    ((x.claimSets b).filterMap (x.quadFails b q)).head?.map fun w =>
      { check := 17, bay := b, sub := q, first := fieldWord Fld.lneQdUse b q, second := w, need := Config.unstated 17 3
        avail := Config.unstated 17 4, unit := Config.unstated 17 5 }

/-! ### Checks 18 and 19 -/

/-- What a flow adds to an endpoint. -/
def Setup.endpointAdds (x : Setup) (e : Nat) (f : Flow) : Rat := f.adds fun q => if x.sink q = .endpoint e then f.bps else 0

/-- The channels of mode 1 that use an endpoint, with what each carries. -/
def Setup.endpointLoads (x : Setup) (e : Nat) : List (Word × Rat) :=
  (List.range x.nb).flatMap fun b => (List.range 32).filterMap fun n =>
    if x.nat Fld.dmaMode b n = 1 ∧ x.nat Fld.dmaEndpoint b n = e then
      some (fieldWord Fld.dmaEndpoint b n,
        ratSum (x.flows.map fun f => f.adds fun q => if x.drain q = some (b, n) then f.bps else 0))
    else none

/-- Capacity of an endpoint in MB/s: its lanes at its highest generation (R60). -/
def Setup.endpointFigure (x : Setup) (b j : Nat) : Nat :=
  if j = 4 then (ctrlLanes (x.nat Fld.pciCtrlGeom 0)).2 * laneFigure (x.nat Fld.pciCtrlGen 0)
  else 4 * 2 ^ x.nat Fld.pciSWidth b j * laneFigure (x.nat Fld.pciSGen b j)

/-- Check 18 on one endpoint of a bay: `j` 4 is the control endpoint. -/
def Setup.checkEndpoint (x : Setup) (b j : Nat) : List Failure :=
  let e := if j = 4 then 0 else x.nat Fld.pciSIndex b j
  if j = 4 ∧ b ≠ 0 ∨ j ≠ 4 ∧ x.nat Fld.pciSEn b j = 0 then []
  else
    overLimit 18 b (if j = 4 then 0 else 1 + j) (ratSum (x.flows.map (x.endpointAdds e))) ((x.endpointFigure b j * 1000000 : Nat)) 1000000 2
      ((twoHeaviest (x.endpointLoads e)).1, if j = 4 then fieldWord Fld.pciCtrlGen 0 else fieldWord Fld.pciSGen b j)

/-- What Ethernet stream `s` puts on a port in bytes per second (R570, R572). -/
def Setup.streamLoad (x : Setup) (s port : Nat) : Rat :=
  if (x.streamPorts s).contains port then ratSum (x.flows.map fun f => f.adds fun q =>
    if x.sink q = .stream s then x.ethBytes f s port else 0) else 0

/-- Check 18 on one Ethernet port. -/
def Setup.checkEth (x : Setup) (b i : Nat) : List Failure :=
  if x.nat Fld.ethPEn b i = 0 then []
  else
    let loads := (List.range 64).map fun s => (fieldWord Fld.ethSPort 0 s, x.streamLoad s (8 * b + i))
    overLimit 18 b (5 + i) (ratSum (loads.map (·.2))) ((ethFigure (x.nat Fld.ethPRate b i) * 10000 : Nat)) 1000000 2
      ((twoHeaviest loads).1, fieldWord Fld.ethPRate b i)

/-- Check 18: every endpoint and Ethernet port of a bay (R58). -/
def Setup.check18 (x : Setup) (b : Nat) : List Failure :=
  (List.range 5).flatMap (x.checkEndpoint b) ++ (List.range 8).flatMap (x.checkEth b)

/-- Check 19: the fabric links that leave a bay (R58). -/
def Setup.check19 (x : Setup) (b : Nat) : List Failure :=
  ((List.range 3).filter fun d => decide (2 ^ d < x.nb)).flatMap fun d =>
    overLimit 19 b d (ratSum (x.flows.map (x.linkAdds b d))) 256000000000 1000000 2 (x.routers (x.linkAdds b d))

/-! ### The outcome -/

/-- Every failure of one evaluation (R58). With WARN_FATAL a warning fails check 13 (R63). -/
def Setup.failures (x : Setup) : List Failure :=
  (List.range x.nb).flatMap fun b =>
    x.check10 b ++ x.check11 b ++ x.check12 b ++ x.check13 b ++ (if x.nat Fld.imgWarnFatal 0 = 1 then x.reserveShort b else []) ++
    x.check14 b ++ x.check15 b ++ x.check16 b ++ x.check17 b ++ x.check18 b ++ x.check19 b

/-- The warnings of one evaluation (R63). -/
def Setup.warnings (x : Setup) : List Failure :=
  if x.nat Fld.imgWarnFatal 0 = 1 then [] else (List.range x.nb).flatMap x.reserveShort

/-- A failure is named before another: by check, then bay, then channel or port (R62). -/
def Failure.before (f g : Failure) : Bool :=
  decide (f.check < g.check) || (decide (f.check = g.check) && (decide (f.bay < g.bay) ||
    (decide (f.bay = g.bay) && decide (f.sub < g.sub))))

/-- The failure to name. -/
def firstFailure : List Failure → Option Failure
  | [] => none
  | f :: r => match firstFailure r with
    | none => some f
    | some g => some (if g.before f then g else f)

/-- The words of a refusal or a warning: `p` is the profile evaluated, none the base setup (R62). -/
def refusalWords (slot : Bool) (p : Option Nat) (fs : List Failure) (f : Failure) : List Word :=
  let prof := match p with
    | none => 0x1F * 0x10000
    | some p => p * 0x10000
  let bays := (fs.filter fun g => decide (g.check = f.check)).foldl (fun m g => m ||| 2 ^ g.bay) 0
  [wd (bitW slot + 0x100 * f.check + prof), f.first, f.second, f.need, f.avail, f.unit, wd bays, 0]

/-- The first evaluation with an entry in a list of failures: the check it names and its payload (R62). -/
def Image.firstOf (im : Image) (nb tb : Nat) (find : Setup → List Failure) : Option (Nat × List Word) :=
  (im.setups nb tb).findSome? fun e =>
    let fs := find e.2
    (firstFailure fs).map fun f => (f.check, refusalWords im.slot e.1 fs f)

/-- Checks 10 to 19: none when the image passes (R57, R58). -/
def Image.refusal (im : Image) (nb tb : Nat) : Option (Nat × List Word) := im.firstOf nb tb Setup.failures

/-- The warning of an accepted image (R63). An image raises one, laid out as a refusal: it names the first evaluation and the lowest
bay, and word 6 every short bay of that evaluation (DEDUCED, log entry 65). -/
def Image.warning (im : Image) (nb tb : Nat) : Option (List Word) := (im.firstOf nb tb Setup.warnings).map (·.2)

end Sys2Proof.Machine
end

