-- ==== Sys2Proof/Machine/Startup.lean ====
section
/-! DEFINITION. Power, reset and start-up: the phases from the origin to RUN, SAFE, IMAGE_RESTART and the global reset (R86 to R99,
R136, R154, R165, R731). -/
namespace Sys2Proof.Machine

/-! ### Loss of power and reset -/

/-- A drive after its recorder has stopped: what lies on it stays (R492). -/
def Drive.idle (d : Drive) : Drive :=
  { d with state := .absent, gen := 0, width := 0, downgraded := false, temp := 0, mediaErrors := 0, timeouts := 0, latMax := 0
           used := 0, trainAt := 0, smartAt := 0 }

/-- A recorder after a reset: the volume on its drives stays, and the registers return to reset (R492, R514). -/
def Recorder.idle (y : Recorder) : Recorder :=
  { y with
    state := .off, drives := y.drives.map Drive.idle, origin := 0, bytes := 0, epochBytes := 0, rate := 0, discards := 0, refused := 0
    replayCount := 0, replaySkipped := 0, replayRebuilt := 0 }

/-- A bay after a reset: its drives, and its test access port, stay as they are. -/
def Bay.stripped (y : Bay) : Bay := { Bay.reset with recorder := y.recorder.idle, jtag := y.jtag }

/-- A row that was being programmed counts as consumed without a hash (R630, R653). -/
def Seal.cutRow (k : Seal) : SealFuses :=
  match k.rowPending with
  | none => k.fuses
  | some _ => { k.fuses with rows := k.fuses.rows ++ [none] }

/-- Every bay has stopped and is at its reset state. Drives, flash, fuses, the VBAT island, the pins, and the model's own fields
stay (R88, R165, R637, R731). -/
def State.stripped (s : State) (fuses : SealFuses) : State :=
  let s1 := s.outsLow.eachBay s.liveBays State.recPowerLoss
  { State.reset with
    part := s1.part, flash := s1.flash, bays := s1.bays.map Bay.stripped
    keeper := { Seal.reset with fuses := fuses, island := s1.keeper.island }
    clrPin := s1.clrPin, rstLow := s1.rstLow, fresh := s1.fresh, outbox := s1.outbox, pending := s1.pending }

/-- POWER_FAIL (R653, R707, R715, R731, R784): PWR_GOOD falls or a brown-out detector trips: the package is in OFF at once. -/
def execPowerFail (s : State) : Out :=
  if s.pwr.state = .off then .next s
  else
    let t := s.stripped s.keeper.cutRow
    .next { t with bays := t.bays.map fun y => { y with jtag := .reset } }

/-- A reset that leaves the lagoons running (R88, R165, R717, R718): the power manager's registers, the auxiliary DACs, the
buffered events and SVC_ALERT_MASK (R771) stay. What becomes of a seal row that is being programmed is not stated: it is consumed without a hash, or not
at all (log entry 2). -/
def State.warmReset (s : State) : State :=
  let v := s.takeFree 1
  let t := v.2.stripped (if v.1 = 1 then v.2.keeper.cutRow else v.2.keeper.fuses)
  { t with
    pwr := { s.pwr with state := .run, phase := .steady, wakeAfter := false }
    ident := { t.ident with alertMask := s.ident.alertMask }
    img := { t.img with buffer := s.img.buffer, bufferDropped := s.img.bufferDropped }
    bays := t.bays.zipWith (fun y z => { y with aux := z.aux }) s.bays }

/-- RST_N_FALL (R88, R165, R732, R792): RST_N has been low for 1 µs. At a shoal leader with TBS.RESET_SHOAL it starts a global
reset of the shoal. -/
def execRstNFall (s : State) : Out :=
  if s.rstLow then .next s
  else
    let shoal := s.running && decide (s.pkgN Fld.tbsResetShoal = 1) && s.leads
    let s1 := if shoal then ((s.issueReset).modImg fun i => { i with buffering := true }).ringOnly 0 0x0322 [] else s
    let s2 := if s1.pwr.state = .off then s1 else s1.warmReset
    .next { s2 with rstLow := true }

/-- The origin of start-up: phase 1 begins in every bay (R88). -/
def State.beginStart (s : State) : State :=
  s.modImg fun i => { i with state := .start, boot := { Boot.reset with active := true, order := [false, true] } }

/-- RST_N_RISE (R88, R700, R701): start-up begins, and every DAC drives 0. -/
def execRstNRise (s : State) : Out :=
  if !s.rstLow then .next s
  else if s.pwr.state = .off then .next { s with rstLow := false }
  else .next (({ s with rstLow := false, bays := s.bays.map fun y => { y with aux := .reset } } : State).beginStart)

/-- PWR_GOOD_RISE (R10, R86, R88, R701, R707, R715): the package leaves OFF; start-up begins unless RST_N is low. -/
def execPwrGoodRise (s : State) : Out :=
  if s.pwr.state ≠ .off then .next s
  else
    let s1 : State := (s.modPwr fun _ => { PwrPkg.reset with state := .run })
    .next (if s1.rstLow then s1 else s1.beginStart)

/-! ### Global reset -/

/-- TBS_GLOBAL_RESET (R55, R165, R167): a word is written to TBS_GLOBAL_RESET in the headland. It does not end SAFE. -/
def execTbsGlobalReset (v : Word) (s : State) : Out :=
  if !s.alive 0 || decide (v ≠ 0xA5) || decide (s.img.state = .safe) then .next s else .next s.issueReset

/-- A global reset of the shoal leader reaches this package: a follower in a shoal, over an external link that is up (R14, R165). -/
def State.hearsShoal (s : State) : Bool :=
  decide (s.pkgN Fld.lnlShoalSize > 1) && !s.leads && !(s.bay s.linkBay).lost && s.lnl.ext.toList.any fun x => x.port.up

/-- GLOBAL_RESET_ARRIVE (R14, R55, R86, R99, R165): the message of this package, or in a shoal that of its leader, arrives, and
every bay is held in reset. The event waits in the buffer. SAFE is not left by it. -/
def execGlobalResetArrive (remote : Bool) (s : State) : Out :=
  if decide (s.pwr.state = .off) || s.rstLow || s.tbs.globalReset || decide (s.img.state = .safe) ||
      !(s.tbs.resetIssued || (remote && s.hearsShoal)) then .next s
  else
    let s1 := (s.modImg fun i => { i with buffering := true }).ringOnly 0 0x0322 []
    let s2 := s1.warmReset
    .next { s2 with
      tbs := { s2.tbs with globalReset := true }
      bays := s2.bays.map fun y => { y with aux := { y.aux with loaded := false, held := none, told := true } } }

/-- GLOBAL_RESET_RELEASE (R165): 40 µs later the bays leave reset and start-up begins. -/
def execGlobalResetRelease (s : State) : Out :=
  if !s.tbs.globalReset then .next s
  else .next ((s.modTbsPkg fun y => { y with globalReset := false }) : State).beginStart

/-! ### Phases 1 to 4 -/

/-- Start-up is under way and `n` is the last phase that has completed. -/
def State.inPhase (s : State) (n : Nat) : Bool := s.alive 0 && s.img.boot.active && decide (s.img.boot.phase = n)

/-- A phase ends: IMG_PHASE and EV_START_PHASE (R88). -/
def State.endPhase (s : State) (n : Nat) : State :=
  (s.modImg fun i => { i with boot := { i.boot with phase := n } }).event 0 0x0130 [wd n]

/-- Change the start-up progress. -/
def State.modBoot (s : State) (f : Boot → Boot) : State := s.modImg fun i => { i with boot := f i.boot }

/-- LAGOON_FLOOD_DONE (R88, R717, R718): the bay domains are powered. -/
def execLagoonFloodDone (s : State) : Out :=
  if !s.inPhase 0 then .next s
  else .next ((s.eachBay s.liveBays fun s b => s.modDom b fun p =>
    { p with supervisor := true, datapath := true, ports := true, sealKeeper := decide (b = 0) }).endPhase 1)

/-- A candidate shows 10 MHz or 100 MHz within ±100 ppm (R89, R90). -/
def CandSeen.near (x : CandSeen) : Bool := decide (x.off.natAbs ≤ 100000000)

/-- The boot reference of a CPLL: the first of XO_IN, REFA_IN and REFB_IN that shows 10 MHz or 100 MHz, or none for the internal
oscillator (R89). -/
def bootRef (seen : Vector (Option CandSeen) 4) : Option Cand := ([2, 0, 1] : List Cand).find? fun c => seen[c].any CandSeen.near

/-- BOOT_ROM_DONE (R89, R92, R95, R129, R524, R682): each bay's CPLL locks to its boot reference, and a bay whose CPLL does not lock
is lost; `seen` is what each bay sees of the candidates. The converters start, and the quads of the control endpoint. -/
def execBootRomDone (seen : Vector (Vector (Option CandSeen) 4) 8) (locked : BitVec 8) (s : State) : Out :=
  if !s.inPhase 1 then .next s
  else
    let s1 := s.eachBay s.liveBays fun s b =>
      if locked.getLsbD b.val then (s.modClk b fun c =>
        { c with cpllLock := true, cpllRef := bootRef seen[b], present := seen[b].map (·.isSome) }).hkcStart b
      else s.loseBay b 1
    .next ((s1.eachBay s1.liveBays State.powerQuads).endPhase 2)

/-- The die-to-die link of dimension `d` at bay `b` has trained: neither end reports a failure (R91). -/
def trained (failed : Vector (BitVec 3) 8) (b : BayNo) (d : Nat) : Bool :=
  !failed[b].getLsbD d && !failed[peerBay b d].getLsbD d

/-- D2D_TRAIN_DONE (R88, R91, R97, R161, R533): links that trained come up, and the bring-up of the external links begins. -/
def execD2dTrainDone (failed : Vector (BitVec 3) 8) (s : State) : Out :=
  if !s.inPhase 2 then .next s
  else
    let s1 := s.eachBay s.liveBays fun s b => (List.finRange 3).foldl (fun s p =>
      if p.val < s.part.log2 then
        let ok := trained failed b p.val && s.alive (peerBay b p.val)
        s.modPortL b p fun x => { x with up := ok, modules := if ok then 0xF else 0 }
      else s) s
    let s2 := s1.eachBay s1.liveBays State.reroute
    let s3 := s2.setBound
    .next (((s3.beginLink 0).beginLink 1).endPhase 3)

/-- DISCOVER_DONE (R11, R88): the headland's topology table is complete. -/
def execDiscoverDone (s : State) : Out := if s.inPhase 3 then .next (s.endPhase 4) else .next s

/-- DISCOVER_TIMEOUT (R30, R91): a bay has not answered 1 ms after phase 3. -/
def execDiscoverTimeout (b : BayNo) (s : State) : Out :=
  if !s.inPhase 3 || decide (b = 0) || !s.alive b then .next s else .next (s.loseBay b 0)

/-- The SHOAL settings of the slot that is read first, as far as its header and section table can be read (R96). -/
def State.shoalVals (s : State) (slot : Bool) : Option Vals :=
  (s.shoalPayload slot).bind fun bs => (entriesOf bs).map fun es => applyEntries s.part.bays [] es

/-- SHOAL_SECTION_READ_DONE (R96, R97, R533): the package takes its provisional role, which gives the external links their quads,
modes and rates. -/
def execShoalSectionReadDone (s : State) : Out :=
  if !s.inPhase 4 || s.img.boot.restart then .next s
  else
    match s.shoalVals (s.img.boot.order.headD false) with
    | none => .next s
    | some m =>
      let s1 := (s.modVals fun _ => m)
      let s2 := s1.eachBay s1.liveBays State.powerQuads
      let s3 := s2.setBound
      .next ((s3.beginLink 0).beginLink 1)

/-! ### Phases 5 and 6: the image -/

/-- Checks 1 to 7 on a slot (R52): the number of the first that fails, or the image. -/
def State.checkSlot (s : State) (slot flashError : Bool) : Except Nat Image :=
  match readSlot s slot flashError with
  | .error c => .error c
  | .ok im =>
    if !im.rulesOk s.part.bays s.tbs.tb s.keeper.fuses then .error 6
    else if sealCountOk s.keeper.fuses im.sealedHash then .ok im else .error 7

/-- The check that a slot failed. -/
def Boot.failedCheck (t : Boot) (slot : Bool) : Nat := ((t.tried.find? fun e => e.1 == slot).map (·.2)).getD 0

/-- Both slots have failed: the package enters SAFE: no converter, front end, core or scan-out of any bay runs (R55, R96, R99, R524,
R682, R701, R768). -/
def State.enterSafe (s : State) : State :=
  let t := s.img.boot
  let s1 := (s.modVals fun _ => []).modImg fun i =>
    { i with state := .safe, image := none, boot := { t with active := false, candidate := none } }
  let s2 := (List.finRange 2).foldl (fun s n => s.modExt n fun x => { x with stage := .off, port := { x.port with up := false } }) s1
  let s3 := s2.eachBay s2.liveBays fun s b =>
    let s1 := (List.finRange 6).foldl (fun s q => if s.quadUse b q.val = 0 && (s.bay b).pwr.quads[q] then s.quadOff b q else s) s
    let s4 := s1.modDom b fun p =>
      { p with frontEnd := Vector.replicate 2 false, scanOut := false, cores := Vector.replicate 8 false, hkc := p.hkc && decide (b = 0) }
    ((s4.modBay b fun y => { y with afe := .reset, adc := Vector.replicate 2 .reset }).modClk b fun k => { k with spllLock := false }).auxZero b
  (s3.alert 3).event 0 0x0114 [wd (t.failedCheck false), wd (t.failedCheck true)]

/-- A slot fails a check: the event, that of a refused sum, and the next slot or SAFE (R53, R55, R62). -/
def State.slotFails (s : State) (slot : Bool) (check : Nat) (refusal : Option (List Word)) : State :=
  let s1 := s.modBoot fun t => { t with candidate := none, order := t.order.drop 1, tried := t.tried ++ [(slot, check)] }
  let s2 := s1.event 0 0x0111 [wd (bitW slot), wd check]
  let s3 := match refusal with
    | none => s2
    | some ws => (s2.modImg fun i => { i with refusal := ws }).event 0 0x0112 ws
  if s3.img.boot.order.isEmpty then s3.enterSafe else s3

/-- IMAGE_READ_DONE (R33, R52, R53, R55, R56, R88, R94, R641, R645, R646): the read of the slot in turn ends; `flashError` is an
error of the controller and `quad` that read training on DQS failed. The fallback is also taken when the flash does not declare
8D-8D-8D. The log is compared once the header has been read. -/
def execImageReadDone (flashError quad : Bool) (s : State) : Out :=
  if !(s.inPhase 4 || s.inPhase 5) || s.img.boot.candidate.isSome then .next s
  else
    match s.img.boot.order with
    | [] => .next s
    | slot :: _ =>
      let s0 := if s.img.boot.started then s else (s.sealStart).modBoot fun t => { t with started := true }
      let s1 := s0.modImg fun i => { i with quadRead := quad || !s.flash.octal }
      match s1.checkSlot slot flashError with
      | .error c => .next (s1.slotFails slot c none)
      | .ok im => .next ((s1.modBoot fun t => { t with candidate := some im }).endPhase 5)

/-- What an external link is brought up by (R533, R548). -/
def State.linkPlan (s : State) (n : Fin 2) : List Nat :=
  [s.linkBay.val, s.extWidth n, s.extQuad n, s.extMode n, s.extTarget n]

/-- The lane reference of a bay changes (R120, R548). -/
def State.newLaneRef (s old : State) (b : BayNo) : Bool := decide (s.fldN Fld.clkLaneRef b ≠ old.fldN Fld.clkLaneRef b)

/-- External links whose quad, mode or target rate the accepted image changes are brought up anew, and those whose lane reference it
changes (R533, R548). -/
def State.relink (s old : State) : State :=
  (List.finRange 2).foldl (fun s n =>
    if decide (s.linkPlan n = old.linkPlan n) && !s.newLaneRef old s.linkBay then s
    else ((s.modExt n fun x => { x with stage := .off, port := { x.port with up := false } }).eachBay s.liveBays State.powerQuads).beginLink n) s

/-- The control endpoint retrains when the image changes what it is set to or its lane reference (R95, R548). -/
def State.retrainControl (s old : State) : State :=
  if !s.newLaneRef old 0 && decide (s.pkgN Fld.pciCtrlGeom = old.pkgN Fld.pciCtrlGeom) && decide (s.pkgN Fld.pciCtrlGen = old.pkgN Fld.pciCtrlGen) then s
  else (s.modPci 0 4 fun e => { e with linkUp := false }).servePort 0 .control false

/-- The start profile (R72): the profile asked for, and whether it can be taken. -/
def Image.startProfile (im : Image) (nb : Nat) (pins : BitVec 4) : Nat × Bool :=
  let m := im.base nb
  let p := if m.nat Fld.imgProfilePinStart 0 = 1 then pins.toNat else m.nat Fld.imgStartProfile 0
  (p, (im.profileAt p).isSome && (m.nat Fld.imgPinProfiles 0).testBit p)

/-- A seal row is due when the SEALED section is new, and the tamper modes go into the island (R630, R638). -/
def State.acceptSeal (s : State) (im : Image) : State :=
  s.modSeal fun k =>
    { k with rowPending := if k.needsRow im.sealedHash then some im.sealedHash else none
             island := { k.island with tampMode := Vector.ofFn fun l => BitVec.ofNat 2 (s.pkgN Fld.sealTampMode l.val) } }

/-- The candidate is accepted (R54, R72, R95, R96, R100, R630, R638): its effective settings are in force, a seal row is due when
its SEALED section is new, and the tamper modes go into the island. -/
def State.accept (s : State) (im : Image) (pins : BitVec 4) : State :=
  let c := im.startProfile s.part.bays pins
  let q := if c.2 then c.1 else 0
  let s1 := (s.modVals fun _ => im.effective s.part.bays q).modImg fun i =>
    { i with
      image := some im, profile := q, pins := pins, pinsTaken := pins, absentTold := none, ignored := im.ignored
      boot := { i.boot with candidate := none } }
  let s2 := s1.acceptSeal im
  let s3 := (s2.relink s).retrainControl s
  let s4 := s3.setBound
  let s5 := s4.event 0 0x0110 ([wd (bitW im.slot), im.id] ++ bytesWords 4 im.hash)
  if c.2 then s5 else s5.event 0 0x0121 [wd c.1]

/-- CHECKER_DONE (R53, R54, R57 to R63, R72, R88): checks 10 to 19 accept the candidate, read with `pins` on PROFILE[3:0], or
refuse it. -/
def execCheckerDone (pins : BitVec 4) (s : State) : Out :=
  match s.img.boot.candidate with
  | none => .next s
  | some im =>
    if !s.inPhase 5 then .next s
    else match im.refusal s.part.bays s.tbs.tb with
      | some (c, ws) => .next (s.slotFails im.slot c (some ws))
      | none =>
        let s1 := match im.warning s.part.bays s.tbs.tb with
          | some ws => s.event 0 0x0113 ws
          | none => s
        .next ((s1.accept im pins).endPhase 6)

/-! ### Phase 7 -/

/-- Quads go on or off under their use (R524, R548). -/
def State.settleQuads (s : State) (b : BayNo) : State :=
  ((List.finRange 6).foldl (fun s q => if s.quadUse b q.val = 0 && (s.bay b).pwr.quads[q] then s.quadOff b q else s) s).powerQuads b

/-- The masks of the image's TABLES items (R322). -/
def State.loadMasks (s : State) (b : BayNo) : State :=
  match s.img.image with
  | none => s
  | some im =>
    (im.items.filter fun x => decide (x.code = 1) && x.bays.testBit b.val).foldl (fun s x =>
      let base := s.fldN Fld.trgMaskBase b x.index
      s.modBay b fun y => { y with trg := { y.trg with
        store := Sparse.setRun 0x80008000#32 y.trg.store base (bytesWords (x.body.length / 4) x.body) } }) s

/-- The cores that the image enables are loaded (R426). -/
def State.loadCores (s : State) (b : BayNo) : State :=
  (List.finRange 8).foldl (fun s c =>
    if s.fldB Fld.mcoCEn b c.val then s.modCore b c fun _ => { Core.reset with imem := s.coreCode b c, mem := s.coreData b c } else s) s

/-- The DMA channels of a bay are idle; what the host has set of their rings stays (R458, R460, R471). -/
def State.loadDma (s : State) (b : BayNo) : State :=
  (List.finRange 32).foldl (fun s n => s.modDma b n fun c =>
    { DmaChan.reset with
      src := c.src, dst := c.dst, ringLog2 := c.ringLog2, ringEnable := c.ringEnable, ringBase := c.ringBase
      ringSize := c.ringSize, tail := c.tail, head := c.head, wb := c.wb }) s

/-- At RUN the registers of a mode-4 channel take their initial values (R461). -/
def State.runDma (s : State) (b : BayNo) : State :=
  (List.finRange 32).foldl (fun s n =>
    if s.dmaMode b n ≠ 4 then s
    else s.modDma b n fun c =>
      { c with src := BitVec.ofNat 64 (s.fldN Fld.dmaSrcAddr b n.val), dst := BitVec.ofNat 64 (s.fldN Fld.dmaDstAddr b n.val)
               count := wd (s.fldN Fld.dmaBytes b n.val) }) s

/-- IMAGE_BROADCAST_DONE (R88, R175, R322, R377 to R381, R426, R524, R682, R701, R703, R717): every bay holds the image: domains
and quads are powered under it, tables, cores and DACs are loaded, and the attenuations take effect. -/
def execImageBroadcastDone (s : State) : Out :=
  if !s.inPhase 6 then .next s
  else
    let s1 := s.eachBay s.liveBays fun s b =>
      let t := ((((s.powerDomains b).settleQuads b).loadTables b).loadMasks b).loadCores b
      ((t.loadDma b).scanChanged b 0).scanChanged b 1
    let s2 := s1.eachBay s1.liveBays fun s b => (s.loadAtten b 0).loadAtten b 1
    let s3 := s2.modBoot fun t => { t with phase := 7 }
    .next ((s3.eachBay s3.liveBays State.auxLoad).endPhase 7)

/-! ### Phases 8 to 10 -/

/-- SPLL_PHASE8_TIMEOUT (R92, R142): a bay's SPLL has not locked within the phase-8 maximum; it goes on trying. -/
def execSpllPhase8Timeout (b : BayNo) (s : State) : Out :=
  if !s.inPhase 7 || !s.alive b || (s.bay b).clk.unlockEpisode then .next s
  else .next (((s.modClk b fun k => { k with spllLock := false, spllLol := true, gated := true, unlockEpisode := true }).modTbs b fun x =>
    { x with tdcCoarse := true }).auxRefresh b)

/-- A candidate shows its own nominal frequency within ±100 ppm (R90, R101). -/
def State.showsNominal (s : State) (seen : Vector (Option CandSeen) 4) (c : Cand) : Bool :=
  seen[c].any fun x => x.near && decide (x.fast = s.candFast c)

/-- The reference of phase 8: the first candidate of the priority list that shows its nominal frequency (R90). -/
def State.phase8Ref (s : State) (seen : Vector (Option CandSeen) 4) : Option Cand :=
  (prioList (s.pkgN Fld.clkRefPrio)).find? fun c => s.candReaches 0 c && s.showsNominal seen c

/-- The reference and the PLLs of phase 8 (R90, R109): `seen` is what the bays see of the candidates. The candidate taken becomes
active at once, and the qualification windows run from here. -/
def State.lockPlls (s : State) (seen : Vector (Option CandSeen) 4) : State :=
  let ref := s.phase8Ref seen
  let s1 := s.modSel fun y =>
    { Selector.reset with state := if ref.isSome then .locked else .free, active := ref, prio := s.pkgN Fld.clkRefPrio
                          revertive := decide (s.pkgN Fld.clkRevertive = 1), episodes := closeSpan s.now y.episodes }
  s1.eachBay s1.liveBays fun s b => (s.modTbs b fun x => { x with tdcCoarse := (s.bay b).clk.unlockEpisode }).modClk b fun k =>
    { k with present := Vector.ofFn fun c => s.candReaches b c && seen[c].isSome
             candFreq := Vector.ofFn fun c => if s.candReaches b c then seen[c].map (·.off) else none
             window := Vector.ofFn fun c => if !(s.candReaches b c && s.showsNominal seen c) then none else
               some ((k.window[c]).getD (s1.nowAt b, s1.pkgN Fld.clkQualWindow))
             frozen := false, knots := [], freqOffset := ((ref.bind fun c => seen[c]).map (·.off)).getD 0
             spllLock := !k.unlockEpisode, gated := k.unlockEpisode
             cpllRef := if ref.isSome then ref else k.cpllRef }

/-- The links of a bay whose CPLL relocks train afresh: the die-to-die links within the phase, the external links and the control
endpoint by their own bring-up (R90, R99). -/
def State.retrainBay (s : State) (b : BayNo) : State :=
  let fresh := fun (x : LinkPort) => { x with congested := false, streak := 0, expect := 0, sendSeq := 0, unacked := 0 }
  let s1 := (List.finRange 3).foldl (fun s p =>
    if p.val < s.part.log2 then (s.modPortL b p fresh).modPortL (peerBay b p.val) p fresh else s) s
  let s2 := if b ≠ s1.linkBay then s1
    else (List.finRange 2).foldl (fun s n =>
      (s.modExt n fun x => { x with stage := .off, port := { x.port with up := false } }).beginLink n) s1
  if b = 0 then (s2.modPci 0 4 fun e => { e with linkUp := false }).servePort 0 .control false else s2

/-- Every bay whose CPLL leaves its boot reference for the image's retrains its links (R90). -/
def State.moveCplls (s old : State) : State :=
  (s.liveBays.filter fun b => decide ((s.bay b).clk.cpllRef ≠ (old.bay b).clk.cpllRef)).foldl State.retrainBay s

/-- Every bay's counter takes its time from the RTC (R136, R168). -/
def State.setTime (s : State) : State :=
  let before := s.now
  let t := s.keeper.island.stamp
  let s1 := s.eachBay s.liveBays fun s b => s.modTbs b fun x =>
    { x with tide := t ++ (0 : BitVec 32), addend := nominalAddend, set := true, source := .rtc }
  (s1.event 0 0x0301 []).timeSetEntry 0 before t

/-- The epoch grid is anchored to the counter: the first multiple of L at or after now (R154). -/
def State.anchorGrid (s : State) : State :=
  let tens := max 1 s.gridTens
  let k := ceilDiv (s.now.toNat * 100000000) (tens * unitsPerSec)
  let g : Grid := { Grid.reset with running := true, origin := 0, steps := k, tens := tens, len := s.gridLen, window := s.gridWindow }
  let n := BitVec.ofNat 64 k - 1
  let start := moved (g.nth k) (-(s.gridLen : Int))
  let s1 := (s.modGrid fun _ => { g with next := g.nth k, number := n, start := start }).modTbsPkg fun y => { y with adopted := false }
  s1.eachBay s1.liveBays fun s b => s.modTbs b fun x => { x with epoch := n, epochStart := start, quiet := 0 }

/-- The running counter goes on at IMAGE_RESTART; without a discipline source it runs at the nominal rate, and the first arm after RUN
is still to come (R99, R148, R149, R152). -/
def State.keepTime (s : State) : State :=
  let s1 := s.modServo fun v => { v with armed := false }
  if s1.pkgN Fld.tbsDiscipline ≠ 0 then s1
  else (s1.modServo fun v => { Discipline.reset with rejected := v.rejected, rates := v.rates }).steer 0

/-- The metrology-mode fuse is blown (R631). -/
def State.blowFuse (s : State) : State :=
  if s.pkgN Fld.sealMetrology ≠ 1 ∨ s.keeper.fuses.metrology then s
  else
    ((s.modSeal fun k => { k with fuses := { k.fuses with metrology := true } }).sealLog 11 0 0 []).event 0 0x1303 []

/-- Move every buffered entry to flash (R645). -/
def State.flushLog (s : State) : State := (List.range 16).foldl (fun s _ => if s.logWritable then s.flushOne else s) s

/-- SPLL_LOCK_PHASE8 (R90, R99, R109, R136, R154, R363, R477, R631, R645): phase 8 ends. The counter is set from the RTC unless
it runs already. -/
def execSpllLockPhase8 (seen : Vector (Option CandSeen) 4) (s : State) : Out :=
  if !s.inPhase 7 then .next s
  else
    let s0 := s.flushLog
    let s1 := if (s0.bay 0).tbs.set then s0.keepTime else s0.setTime
    let s2 := (s1.lockPlls seen).moveCplls s1
    let s3 := s2.anchorGrid.blowFuse
    let s4 := s3.eachBay s3.liveBays fun s b => (s.startRaster b (s.nowAt b)).recBegin b (s.nowAt b)
    .next (s4.endPhase 8)

/-- The initial calibration of one converter: its slots and coefficients, and what its faults and its passes call for (R92, R184, R189,
R211). -/
def State.initAdc (s : State) (b : BayNo) (i : Fin 2) (x : AdcInit) : State :=
  let s1 := s.modAdc b i fun c => c.init x.bad (if x.agreed then coefVector x.coefs else factoryCoefs b i)
  let s2 := ((List.finRange 17).filter fun k => x.bad.getLsbD k.val).foldl (fun s k => s.event b 0x0411 [wd i.val, wd k.val]) s1
  if x.agreed then s2 else s2.calDisagree b i

/-- ADC_INIT_CAL_DONE (R88, R92, R184, R189, R674): every slice has been calibrated from the comb, as `res` says for each converter; one
that it does not name runs on the factory calibration with every slice good. -/
def execAdcInitCalDone (res : List AdcInit) (s : State) : Out :=
  if !s.inPhase 8 then .next s
  else .next ((s.eachBay s.liveBays fun s b => (List.finRange 2).foldl (fun s i =>
    if s.frontOn b i then
      s.initAdc b i ((res.find? fun e => decide (e.bay = b ∧ e.input = i)).getD { bay := b, input := i, bad := 0, coefs := [], agreed := false })
    else s) s).endPhase 9)

/-- The streams of a bay begin (R92, R226, R231, R241, R254, R299, R581): ports, grids, windows and trigger units start with the
input samples taken at counter time `t`; a bay whose clocks are gated begins with gaps. -/
def State.beginBay (s : State) (b : BayNo) (t : Stamp) : State :=
  let s1 := s.modBay b fun y =>
    { y with
      que := { y.que with seqs := [] }
      xfm := { y.xfm with chans := Vector.ofFn fun x =>
        { XfmChan.reset with window := s.fldN Fld.xfmChWindow b x.val, param := s.fldN Fld.xfmChWinParam b x.val } } }
  let s2 := (List.finRange 2).foldl (fun s x => s.jesStart b x) s1
  let s3 := (List.finRange 8).foldl (fun s u => if s.fldB Fld.trgUEn b u.val then s.unitChanged b u t else s) s2
  let s4 := s3.resumeBay b t 0 false
  if (s4.bay b).clk.gated then
    [(0 : Port), 1].foldl (fun s p => if (s.bay b).ddc[p].active then s.stopPort b p .clockFault t else s) s4
  else s4

/-- What runs in RUN alone starts (R276, R305, R347, R426, R461, R740, R743): persistence, monitors, transfers and cores. -/
def State.runBay (s : State) (b : BayNo) (t : Stamp) : State :=
  let s1 := (List.finRange 2).foldl (fun s x => s.denStart b x t) s
  let s2 := ((List.finRange 16).foldl (fun s m => s.monStart b m t) s1).runDma b
  (List.finRange 8).foldl (fun s c =>
    if s.fldB Fld.mcoCEn b c.val then
      (s.modCore b c fun k => { k with mode := .run, pc := BitVec.ofNat 14 (s.fldN Fld.mcoCEntry b c.val), wdtFrom := t }).initRings b c
    else s) s2

/-- The package enters RUN at `t` (R93, R305, R723). -/
def State.enterRun (s : State) (t : Stamp) : State :=
  let s1 := (s.modImg fun i => { i with state := .run }).eachBay s.liveBays fun s b => s.runBay b t
  let s2 := s1.event 0 0x0131 []
  if s2.leads then (s2.autoArm s2.epochLead).pwrStart else s2

/-- The start-up run of an input. -/
def feRun (l : List FeRun) (b : BayNo) (i : Fin 2) : Option FeRun := l.find? fun r => decide (r.bay = b ∧ r.input = i)

/-- FE_CAL_DONE (R88, R92, R93, R98, R436, R674): phase 10 ends with a run of each input; the package or the leader enters RUN,
a follower READY. -/
def execFeCalDone (runs : List FeRun) (s : State) : Out :=
  if !s.inPhase 9 then .next s
  else
    let t := s.now
    let s1 := s.modImg fun i => { i with state := .ready, boot := { i.boot with active := false } }
    let s2 := s1.eachBay s1.liveBays fun s b => s.beginBay b t
    let s3 := s2.eachBay s2.liveBays fun s b => ((List.finRange 2).foldl (fun s i =>
      if s.frontOn b i then s.calStartup b i (feRun runs b i) else s) s).runRotations b
    let s4 := s3.endPhase 10
    .next (if s4.leads then s4.enterRun t else s4)

/-- ARM_TAKE_EFFECT (R98, R304, R307): at t_A the selected units become armed and a new cycle starts; at the leader's first arm a
follower in READY enters RUN. -/
def execArmTakeEffect (remote : Option ArmOrder) (s0 : State) : Out :=
  match s0.takeOrder true remote with
  | none => .next s0
  | some (o, s1) =>
    if !s0.alive 0 then .next s0
    else
      let s := s1.reach o.instant
      let s2 := if decide (s.img.state = .ready) && remote.isSome then (s.enterRun o.instant).event 0 0x0134 [] else s
      .next (s2.armUnits o)

/-! ### IMAGE_RESTART -/

/-- A bay stops for a restart of its image (R99, R190, R229, R304, R426, R548, R583, R673, R701, R753). -/
def State.haltBay (s : State) (b : BayNo) : State :=
  let s1 := (((s.stopRecording b).endReplay b 5).calAbandonBay b false).auxUnload b
  let s2 := (List.finRange 6).foldl (fun s q =>
    if decide (s.quadUse b q.val ≠ 4) && !((s.portClaim b .control).any fun c => c.holds (4 * q.val)) && (s.bay b).pwr.quads[q] then s.quadOff b q
    else s) s1
  let s3 := (List.finRange 4).foldl (fun s j => s.pcieDown b ⟨j.val, by omega⟩) s2
  s3.modBay b fun y =>
    { y with
      clk := { y.clk with spllLock := false, unlockEpisode := false, stuckTold := false, restarting := false, sysrefLeft := 0 }
      ddc := Vector.replicate 4 .reset, xfm := .reset, den := .reset, mco := .reset, trg := .reset
      scn := { Scn.reset with hpd := y.scn.hpd, edid := y.scn.edid }
      eth := Vector.replicate 8 .reset, jes := Vector.replicate 2 .reset, mon := Vector.replicate 16 .reset
      afe := { y.afe with inputs := y.afe.inputs.map fun a => { a with waiting := none } }
      adc := y.adc.map fun c => { c with calFrom := none, swapWait := false }
      cal := Vector.replicate 2 .reset, lnl := { y.lnl with injectors := Vector.replicate 5 .reset } }

/-- Everything stops and every queue is flushed (R69, R99, R456, R653, R749). -/
def State.haltAll (s : State) (bFirst : Bool) : State :=
  let s1 := s.outsLow.discardWaiting s.img.waiting []
  let s2 := s1.eachBay s1.liveBays State.haltBay
  let s3 := if s2.img.image.isNone then s2
    else s2.eachBay s2.liveBays fun s b => (List.finRange 16).foldl (fun s i => s.flushQueue b i 1) s
  let s4 := (s3.modGrid fun g => { g with running := false }).faultDrop fun f => decide (f.code ≠ 1 ∧ f.code ≠ 3)
  { s4 with
    trg := .reset, eth := .reset, inj := .reset
    img := { s4.img with
      state := .start, restartReq := 0
      boot := { s4.img.boot with active := true, phase := 4, order := if bFirst then [true, false] else [false, true], tried := []
                                 candidate := none, restart := true } }
    pwr := { s4.pwr with phase := .steady } }

/-- IMAGE_RESTART (R53, R80, R81, R99): phases 5 to 10 run again. -/
def execImageRestart (tag : Word) (bFirst : Bool) (s : State) : Out :=
  s.ringCommand fun s =>
    if decide (s.img.state = .start) then s.complete 10 tag stState 0 s.now
    else
      let s1 := (s.complete 10 tag stOk 0 s.now).haltAll bFirst
      if s.leads && decide (s.pkgN Fld.lnlShoalSize > 1) then s1.emit (.packet "LEADER_RESTART" 0 []) else s1

end Sys2Proof.Machine
end

