-- ==== Sys2Proof/Machine/Dispatch.lean ====
section
/-! DEFINITION. The meaning of each command: one arm per constructor, in the order of the opcode table. -/
namespace Sys2Proof.Machine

def exec (i : Instr) (s : State) : Host.Outcome State Fault Refusal :=
  match i with
  | .pwrGoodRise => Sys2Proof.Machine.execPwrGoodRise s
  | .rstNFall => Sys2Proof.Machine.execRstNFall s
  | .rstNRise => Sys2Proof.Machine.execRstNRise s
  | .powerFail => Sys2Proof.Machine.execPowerFail s
  | .lagoonFloodDone => Sys2Proof.Machine.execLagoonFloodDone s
  | .bootRomDone seen locked => Sys2Proof.Machine.execBootRomDone seen locked s
  | .d2dTrainDone failed => Sys2Proof.Machine.execD2dTrainDone failed s
  | .discoverDone => Sys2Proof.Machine.execDiscoverDone s
  | .discoverTimeout b => Sys2Proof.Machine.execDiscoverTimeout b s
  | .shoalSectionReadDone => Sys2Proof.Machine.execShoalSectionReadDone s
  | .imageReadDone flashError quad => Sys2Proof.Machine.execImageReadDone flashError quad s
  | .checkerDone pins => Sys2Proof.Machine.execCheckerDone pins s
  | .imageBroadcastDone => Sys2Proof.Machine.execImageBroadcastDone s
  | .spllLockPhase8 seen => Sys2Proof.Machine.execSpllLockPhase8 seen s
  | .adcInitCalDone res => Sys2Proof.Machine.execAdcInitCalDone res s
  | .feCalDone runs => Sys2Proof.Machine.execFeCalDone runs s
  | .sealRowVerified ok => Sys2Proof.Machine.execSealRowVerified ok s
  | .setLive tag key value defer => Sys2Proof.Machine.execSetLive tag key value defer s
  | .selectProfile tag p => Sys2Proof.Machine.execSelectProfile tag p s
  | .arm tag bays units pkgs t => Sys2Proof.Machine.execArm tag bays units pkgs t s
  | .disarm tag bays units pkgs t => Sys2Proof.Machine.execDisarm tag bays units pkgs t s
  | .recStart tag mask fresh erase t => Sys2Proof.Machine.execRecStart tag mask fresh erase t s
  | .recStop tag mask t => Sys2Proof.Machine.execRecStop tag mask t s
  | .replay tag b target stop lo hi source typ => Sys2Proof.Machine.execReplay tag b target stop lo hi source typ s
  | .snapshotAt tag t id => Sys2Proof.Machine.execSnapshotAt tag t id s
  | .acqRestart tag mask => Sys2Proof.Machine.execAcqRestart tag mask s
  | .imageRestart tag bFirst => Sys2Proof.Machine.execImageRestart tag bFirst s
  | .nvmRead tag off len host => Sys2Proof.Machine.execNvmRead tag off len host s
  | .nvmErase tag off len => Sys2Proof.Machine.execNvmErase tag off len s
  | .nvmProgram tag off len host => Sys2Proof.Machine.execNvmProgram tag off len host s
  | .sealLogRead tag first count host => Sys2Proof.Machine.execSealLogRead tag first count host s
  | .unknownOpcode op tag => Sys2Proof.Machine.execUnknownOpcode op tag s
  | .flashCommandDone ok data => Sys2Proof.Machine.execFlashCommandDone ok data s
  | .imgCmdTailWrite v => Sys2Proof.Machine.execImgCmdTailWrite v s
  | .imgCmdCfgWrite w => Sys2Proof.Machine.execImgCmdCfgWrite w s
  | .imgEvtCfgWrite w => Sys2Proof.Machine.execImgEvtCfgWrite w s
  | .imgEvtHeadWrite v => Sys2Proof.Machine.execImgEvtHeadWrite v s
  | .imgEvtLostRead => Sys2Proof.Machine.execImgEvtLostRead s
  | .profilePinChange v => Sys2Proof.Machine.execProfilePinChange v s
  | .liveApplyImmediate b => Sys2Proof.Machine.execLiveApplyImmediate b s
  | .hopBoundary b x t => Sys2Proof.Machine.execHopBoundary b x t s
  | .acqRestartBegin b => Sys2Proof.Machine.execAcqRestartBegin b s
  | .acqRestartEnd b t => Sys2Proof.Machine.execAcqRestartEnd b t s
  | .refLossDetect b c t0 silent => Sys2Proof.Machine.execRefLossDetect b c t0 silent s
  | .refDeglitchEnd resumed => Sys2Proof.Machine.execRefDeglitchEnd resumed s
  | .buildOutEnd phase => Sys2Proof.Machine.execBuildOutEnd phase s
  | .pullInDone freq => Sys2Proof.Machine.execPullInDone freq s
  | .refQualified b c off => Sys2Proof.Machine.execRefQualified b c off s
  | .refDisqualified b c off => Sys2Proof.Machine.execRefDisqualified b c off s
  | .spllLossOfLock b tL => Sys2Proof.Machine.execSpllLossOfLock b tL s
  | .spllRelock b t => Sys2Proof.Machine.execSpllRelock b t s
  | .spllStuckTimeout b => Sys2Proof.Machine.execSpllStuckTimeout b s
  | .cpllLossOfLock b => Sys2Proof.Machine.execCpllLossOfLock b s
  | .clkSysrefFire b => Sys2Proof.Machine.execClkSysrefFire b s
  | .clkFaultCntRead b => Sys2Proof.Machine.execClkFaultCntRead b s
  | .spllLolClear b => Sys2Proof.Machine.execSpllLolClear b s
  | .syncInEdge b t falling longPulse relayed => Sys2Proof.Machine.execSyncInEdge b t falling longPulse relayed s
  | .ppsEdge b t falling longPulse => Sys2Proof.Machine.execPpsEdge b t falling longPulse s
  | .trigInEdge b n t falling longPulse => Sys2Proof.Machine.execTrigInEdge b n t falling longPulse s
  | .sysrefInEdge b t falling longPulse => Sys2Proof.Machine.execSysrefInEdge b t falling longPulse s
  | .tbsNowRead b => Sys2Proof.Machine.execTbsNowRead b s
  | .servoHoldoverTimeout => Sys2Proof.Machine.execServoHoldoverTimeout s
  | .linkDelayMeasure b p d lead => Sys2Proof.Machine.execLinkDelayMeasure b p d lead s
  | .epochBoundary h => Sys2Proof.Machine.execEpochBoundary h s
  | .syncWindowEnd => Sys2Proof.Machine.execSyncWindowEnd s
  | .snapshotTake remote => Sys2Proof.Machine.execSnapshotTake remote s
  | .tbsGlobalReset v => Sys2Proof.Machine.execTbsGlobalReset v s
  | .globalResetArrive remote => Sys2Proof.Machine.execGlobalResetArrive remote s
  | .globalResetRelease => Sys2Proof.Machine.execGlobalResetRelease s
  | .overloadTrip b k0 t level clips => Sys2Proof.Machine.execOverloadTrip b k0 t level clips s
  | .overloadClose b k0 t => Sys2Proof.Machine.execOverloadClose b k0 t s
  | .autoStepDown b k0 peak => Sys2Proof.Machine.execAutoStepDown b k0 peak s
  | .attenSettled b k0 level => Sys2Proof.Machine.execAttenSettled b k0 level s
  | .sliceCalDone b k0 est power => Sys2Proof.Machine.execSliceCalDone b k0 est power s
  | .swapCompare b k0 sum squares => Sys2Proof.Machine.execSwapCompare b k0 sum squares s
  | .xsStreamStop b x t loss => Sys2Proof.Machine.execXsStreamStop b x t loss s
  | .xsStreamResume b x t units => Sys2Proof.Machine.execXsStreamResume b x t units s
  | .jesAligned b x a => Sys2Proof.Machine.execJesAligned b x a s
  | .spectrumReady b x ins => Sys2Proof.Machine.execSpectrumReady b x ins s
  | .tapSlotWritten b c => Sys2Proof.Machine.execTapSlotWritten b c s
  | .traceIntervalEnd b t => Sys2Proof.Machine.execTraceIntervalEnd b t s
  | .triggerEvent b u o => Sys2Proof.Machine.execTriggerEvent b u o s
  | .qualLongerExpire b u => Sys2Proof.Machine.execQualLongerExpire b u s
  | .coreEventDue b u => Sys2Proof.Machine.execCoreEventDue b u s
  | .groupFireRequest remote => Sys2Proof.Machine.execGroupFireRequest remote s
  | .groupFireBroadcast b u remote => Sys2Proof.Machine.execGroupFireBroadcast b u remote s
  | .armTakeEffect remote => Sys2Proof.Machine.execArmTakeEffect remote s
  | .disarmTakeEffect remote => Sys2Proof.Machine.execDisarmTakeEffect remote s
  | .segmentPostDone b u xs => Sys2Proof.Machine.execSegmentPostDone b u xs s
  | .slotFreed b u => Sys2Proof.Machine.execSlotFreed b u s
  | .unitRearm b u => Sys2Proof.Machine.execUnitRearm b u s
  | .trgForce b mask => Sys2Proof.Machine.execTrgForce b mask s
  | .maskBump b m gen => Sys2Proof.Machine.execMaskBump b m gen s
  | .maskCopyDone b u => Sys2Proof.Machine.execMaskCopyDone b u s
  | .maskStoreWrite b e v => Sys2Proof.Machine.execMaskStoreWrite b e v s
  | .trigOutEdge n => Sys2Proof.Machine.execTrigOutEdge n s
  | .trigOutPulseEnd n => Sys2Proof.Machine.execTrigOutPulseEnd n s
  | .denBankClose b x => Sys2Proof.Machine.execDenBankClose b x s
  | .denPassDone b x => Sys2Proof.Machine.execDenPassDone b x s
  | .denClear b mask => Sys2Proof.Machine.execDenClear b mask s
  | .scnLatchPoint b => Sys2Proof.Machine.execScnLatchPoint b s
  | .scnCrcCompare b r upset => Sys2Proof.Machine.execScnCrcCompare b r upset s
  | .scnCommitWrite b v => Sys2Proof.Machine.execScnCommitWrite b v s
  | .roReferenceDone b => Sys2Proof.Machine.execRoReferenceDone b s
  | .roStaleTimeout b => Sys2Proof.Machine.execRoStaleTimeout b s
  | .dpHpdRise b edid => Sys2Proof.Machine.execDpHpdRise b edid s
  | .dpHpdIrq b lostStatus => Sys2Proof.Machine.execDpHpdIrq b lostStatus s
  | .dpHpdFall b => Sys2Proof.Machine.execDpHpdFall b s
  | .dpLinkTrainDone b ok => Sys2Proof.Machine.execDpLinkTrainDone b ok s
  | .dpTrainRetryTimer b => Sys2Proof.Machine.execDpTrainRetryTimer b s
  | .interruptEntry b c => Sys2Proof.Machine.execInterruptEntry b c s
  | .coreTimerExpire b c => Sys2Proof.Machine.execCoreTimerExpire b c s
  | .watchdogExpire b c => Sys2Proof.Machine.execWatchdogExpire b c s
  | .coreRestart b c => Sys2Proof.Machine.execCoreRestart b c s
  | .emitCopyDone b c => Sys2Proof.Machine.execEmitCopyDone b c s
  | .postCopyDone b c => Sys2Proof.Machine.execPostCopyDone b c s
  | .iqFeedBlock b c xs => Sys2Proof.Machine.execIqFeedBlock b c xs s
  | .nop b c => Sys2Proof.Machine.execNop b c s
  | .add b c => Sys2Proof.Machine.execAdd b c s
  | .sub b c => Sys2Proof.Machine.execSub b c s
  | .and b c => Sys2Proof.Machine.execAnd b c s
  | .or b c => Sys2Proof.Machine.execOr b c s
  | .xor b c => Sys2Proof.Machine.execXor b c s
  | .shl b c => Sys2Proof.Machine.execShl b c s
  | .shr b c => Sys2Proof.Machine.execShr b c s
  | .sar b c => Sys2Proof.Machine.execSar b c s
  | .adds b c => Sys2Proof.Machine.execAdds b c s
  | .subs b c => Sys2Proof.Machine.execSubs b c s
  | .min b c => Sys2Proof.Machine.execMin b c s
  | .max b c => Sys2Proof.Machine.execMax b c s
  | .minu b c => Sys2Proof.Machine.execMinu b c s
  | .maxu b c => Sys2Proof.Machine.execMaxu b c s
  | .abs b c => Sys2Proof.Machine.execAbs b c s
  | .slt b c => Sys2Proof.Machine.execSlt b c s
  | .sltu b c => Sys2Proof.Machine.execSltu b c s
  | .shli b c => Sys2Proof.Machine.execShli b c s
  | .shri b c => Sys2Proof.Machine.execShri b c s
  | .sari b c => Sys2Proof.Machine.execSari b c s
  | .clz b c => Sys2Proof.Machine.execClz b c s
  | .mul16 b c => Sys2Proof.Machine.execMul16 b c s
  | .addi b c => Sys2Proof.Machine.execAddi b c s
  | .andi b c => Sys2Proof.Machine.execAndi b c s
  | .ori b c => Sys2Proof.Machine.execOri b c s
  | .xori b c => Sys2Proof.Machine.execXori b c s
  | .lui b c => Sys2Proof.Machine.execLui b c s
  | .beq b c => Sys2Proof.Machine.execBeq b c s
  | .bne b c => Sys2Proof.Machine.execBne b c s
  | .blt b c => Sys2Proof.Machine.execBlt b c s
  | .bge b c => Sys2Proof.Machine.execBge b c s
  | .bltu b c => Sys2Proof.Machine.execBltu b c s
  | .bgeu b c => Sys2Proof.Machine.execBgeu b c s
  | .jmp b c => Sys2Proof.Machine.execJmp b c s
  | .jal b c => Sys2Proof.Machine.execJal b c s
  | .jr b c => Sys2Proof.Machine.execJr b c s
  | .call b c => Sys2Proof.Machine.execCall b c s
  | .ret b c => Sys2Proof.Machine.execRet b c s
  | .rep b c => Sys2Proof.Machine.execRep b c s
  | .ld b c => Sys2Proof.Machine.execLd b c s
  | .st b c => Sys2Proof.Machine.execSt b c s
  | .ldr b c => Sys2Proof.Machine.execLdr b c s
  | .str b c => Sys2Proof.Machine.execStr b c s
  | .mac b c => Sys2Proof.Machine.execMac b c s
  | .macp b c => Sys2Proof.Machine.execMacp b c s
  | .sta b c => Sys2Proof.Machine.execSta b c s
  | .lda b c => Sys2Proof.Machine.execLda b c s
  | .adda b c => Sys2Proof.Machine.execAdda b c s
  | .sha b c => Sys2Proof.Machine.execSha b c s
  | .srst b c => Sys2Proof.Machine.execSrst b c s
  | .smax b c => Sys2Proof.Machine.execSmax b c s
  | .smin b c => Sys2Proof.Machine.execSmin b c s
  | .smm b c => Sys2Proof.Machine.execSmm b c s
  | .mfs b c => Sys2Proof.Machine.execMfs b c s
  | .mts b c => Sys2Proof.Machine.execMts b c s
  | .evt b c => Sys2Proof.Machine.execEvt b c s
  | .emit b c => Sys2Proof.Machine.execEmit b c s
  | .post b c => Sys2Proof.Machine.execPost b c s
  | .wait b c => Sys2Proof.Machine.execWait b c s
  | .halt b c => Sys2Proof.Machine.execHalt b c s
  | .ei b c => Sys2Proof.Machine.execEi b c s
  | .di b c => Sys2Proof.Machine.execDi b c s
  | .reti b c => Sys2Proof.Machine.execReti b c s
  | .illegalInstruction b c => Sys2Proof.Machine.execIllegalInstruction b c s
  | .mcCtrlHalt b c => Sys2Proof.Machine.execMcCtrlHalt b c s
  | .mcCtrlResume b c => Sys2Proof.Machine.execMcCtrlResume b c s
  | .mcCtrlReset b c => Sys2Proof.Machine.execMcCtrlReset b c s
  | .mcMboxInWrite b c v => Sys2Proof.Machine.execMcMboxInWrite b c v s
  | .mcMboxOutRead b c => Sys2Proof.Machine.execMcMboxOutRead b c s
  | .coreImemWrite b a v => Sys2Proof.Machine.execCoreImemWrite b a v s
  | .coreEbb b c => Sys2Proof.Machine.execCoreEbb b c s
  | .coreFloodDone b c => Sys2Proof.Machine.execCoreFloodDone b c s
  | .recordEnqueue b p xs => Sys2Proof.Machine.execRecordEnqueue b p xs s
  | .dmaRecordStart b n => Sys2Proof.Machine.execDmaRecordStart b n s
  | .dmaBurst b n data => Sys2Proof.Machine.execDmaBurst b n data s
  | .dmaRecordDelivered b n => Sys2Proof.Machine.execDmaRecordDelivered b n s
  | .dmaGo b n => Sys2Proof.Machine.execDmaGo b n s
  | .dmaAbort b n => Sys2Proof.Machine.execDmaAbort b n s
  | .dmaClear b n => Sys2Proof.Machine.execDmaClear b n s
  | .dmaTransferDone b n => Sys2Proof.Machine.execDmaTransferDone b n s
  | .dmaRingCfgWrite b n w => Sys2Proof.Machine.execDmaRingCfgWrite b n w s
  | .asleepCompletion b n data => Sys2Proof.Machine.execAsleepCompletion b n data s
  | .hostReadTimeout b n => Sys2Proof.Machine.execHostReadTimeout b n s
  | .queFlush b mask => Sys2Proof.Machine.execQueFlush b mask s
  | .queReservePeakRead b => Sys2Proof.Machine.execQueReservePeakRead b s
  | .sealedRecordMac => Sys2Proof.Machine.execSealedRecordMac s
  | .driveLinkTrained b d gen width => Sys2Proof.Machine.execDriveLinkTrained b d gen width s
  | .driveTrainRetry b d => Sys2Proof.Machine.execDriveTrainRetry b d s
  | .driveReady b d info => Sys2Proof.Machine.execDriveReady b d info s
  | .driveWaitExpire b => Sys2Proof.Machine.execDriveWaitExpire b s
  | .nvmeCompletion b d ok => Sys2Proof.Machine.execNvmeCompletion b d ok s
  | .driveCommandTimeout b d => Sys2Proof.Machine.execDriveCommandTimeout b d s
  | .driveLinkDown b d => Sys2Proof.Machine.execDriveLinkDown b d s
  | .failoverResume b => Sys2Proof.Machine.execFailoverResume b s
  | .recSyncTimer b => Sys2Proof.Machine.execRecSyncTimer b s
  | .smartPoll b d temp media used => Sys2Proof.Machine.execSmartPoll b d temp media used s
  | .recStartEffect b => Sys2Proof.Machine.execRecStartEffect b s
  | .recStopEffect b => Sys2Proof.Machine.execRecStopEffect b s
  | .recStopDone b => Sys2Proof.Machine.execRecStopDone b s
  | .recFreezeReleaseOne b k0 => Sys2Proof.Machine.execRecFreezeReleaseOne b k0 s
  | .recFreezeReleaseAll b => Sys2Proof.Machine.execRecFreezeReleaseAll b s
  | .replayDeliver b fault => Sys2Proof.Machine.execReplayDeliver b fault s
  | .replayStall b t => Sys2Proof.Machine.execReplayStall b t s
  | .replayResume b t => Sys2Proof.Machine.execReplayResume b t s
  | .rebuildRowDone b => Sys2Proof.Machine.execRebuildRowDone b s
  | .recLatMaxRead b d => Sys2Proof.Machine.execRecLatMaxRead b d s
  | .laneLockLost b k signal => Sys2Proof.Machine.execLaneLockLost b k signal s
  | .laneUp b k => Sys2Proof.Machine.execLaneUp b k s
  | .laneBringupTimeout b k => Sys2Proof.Machine.execLaneBringupTimeout b k s
  | .capabilityFrameRx b k frame => Sys2Proof.Machine.execCapabilityFrameRx b k frame s
  | .stepRungCheckDone n errs => Sys2Proof.Machine.execStepRungCheckDone n errs s
  | .lnlLanesFailTimeout n => Sys2Proof.Machine.execLnlLanesFailTimeout n s
  | .lnlBringupRestart n => Sys2Proof.Machine.execLnlBringupRestart n s
  | .eyeMeasure b k v h => Sys2Proof.Machine.execEyeMeasure b k v h s
  | .laneErrRead b k errs losses => Sys2Proof.Machine.execLaneErrRead b k errs losses s
  | .laneClear b k => Sys2Proof.Machine.execLaneClear b k s
  | .laneTxSleep b k => Sys2Proof.Machine.execLaneTxSleep b k s
  | .laneTxWake b k => Sys2Proof.Machine.execLaneTxWake b k s
  | .laneRxSleep b k => Sys2Proof.Machine.execLaneRxSleep b k s
  | .laneRxWake b k => Sys2Proof.Machine.execLaneRxWake b k s
  | .laneResync b k rx => Sys2Proof.Machine.execLaneResync b k rx s
  | .laneSleepDone b k tx => Sys2Proof.Machine.execLaneSleepDone b k tx s
  | .laneTxWakeDone b k => Sys2Proof.Machine.execLaneTxWakeDone b k s
  | .laneRxWakeDone b k rx => Sys2Proof.Machine.execLaneRxWakeDone b k rx s
  | .laneSignalDetect b k => Sys2Proof.Machine.execLaneSignalDetect b k s
  | .laneTestWrite b k v rx => Sys2Proof.Machine.execLaneTestWrite b k v rx s
  | .errInject b k => Sys2Proof.Machine.execErrInject b k s
  | .pcieLinkUp b j gen width reversed => Sys2Proof.Machine.execPcieLinkUp b j gen width reversed s
  | .pcieLinkDown b j => Sys2Proof.Machine.execPcieLinkDown b j s
  | .pcieReset b j => Sys2Proof.Machine.execPcieReset b j s
  | .pcieBmeChange b j bme d3 => Sys2Proof.Machine.execPcieBmeChange b j bme d3 s
  | .ethLinkUp b k0 => Sys2Proof.Machine.execEthLinkUp b k0 s
  | .ethLinkDown b k0 => Sys2Proof.Machine.execEthLinkDown b k0 s
  | .ethPortFault b k0 kind => Sys2Proof.Machine.execEthPortFault b k0 kind s
  | .ethFailoverDone n => Sys2Proof.Machine.execEthFailoverDone n s
  | .ethFrameRx b k0 f => Sys2Proof.Machine.execEthFrameRx b k0 f s
  | .ptpOffsetMeasure x => Sys2Proof.Machine.execPtpOffsetMeasure x s
  | .ethResolveTimer p d ok => Sys2Proof.Machine.execEthResolveTimer p d ok s
  | .flitReceive b p f => Sys2Proof.Machine.execFlitReceive b p f s
  | .lnlFlitTimeout b p => Sys2Proof.Machine.execLnlFlitTimeout b p s
  | .fabricPacketRx b p h payload => Sys2Proof.Machine.execFabricPacketRx b p h payload s
  | .lnlLinkDown b p modules => Sys2Proof.Machine.execLnlLinkDown b p modules s
  | .topologyUpdate b cuts din full => Sys2Proof.Machine.execTopologyUpdate b cuts din full s
  | .fabricPortRetrain b p modules => Sys2Proof.Machine.execFabricPortRetrain b p modules s
  | .lnlLinkUp b p => Sys2Proof.Machine.execLnlLinkUp b p s
  | .lnlLaneFail n j => Sys2Proof.Machine.execLnlLaneFail n j s
  | .lnlWidthResume n => Sys2Proof.Machine.execLnlWidthResume n s
  | .shoalExchangeRx n size package counts hash => Sys2Proof.Machine.execShoalExchangeRx n size package counts hash s
  | .shoalMismatchRetry n => Sys2Proof.Machine.execShoalMismatchRetry n s
  | .islandDeclared b packages => Sys2Proof.Machine.execIslandDeclared b packages s
  | .rejoinMeasure b off => Sys2Proof.Machine.execRejoinMeasure b off s
  | .islandRejoin => Sys2Proof.Machine.execIslandRejoin s
  | .rejoinOffsetRemoved => Sys2Proof.Machine.execRejoinOffsetRemoved s
  | .provisionSignKey => Sys2Proof.Machine.execProvisionSignKey s
  | .provisionMacKey => Sys2Proof.Machine.execProvisionMacKey s
  | .revoke => Sys2Proof.Machine.execRevoke s
  | .tamperClear => Sys2Proof.Machine.execTamperClear s
  | .logVerify => Sys2Proof.Machine.execLogVerify s
  | .logVerifyDone => Sys2Proof.Machine.execLogVerifyDone s
  | .logArchive ok => Sys2Proof.Machine.execLogArchive ok s
  | .tamperSample openA openB => Sys2Proof.Machine.execTamperSample openA openB s
  | .sealLogFlush ok => Sys2Proof.Machine.execSealLogFlush ok s
  | .rtcFollowWrite => Sys2Proof.Machine.execRtcFollowWrite s
  | .vbatBrownout => Sys2Proof.Machine.execVbatBrownout s
  | .calTempInterval b k0 => Sys2Proof.Machine.execCalTempInterval b k0 s
  | .calIntervalDue b k0 => Sys2Proof.Machine.execCalIntervalDue b k0 s
  | .calBackoffEnd b k0 => Sys2Proof.Machine.execCalBackoffEnd b k0 s
  | .calRunStart b k0 => Sys2Proof.Machine.execCalRunStart b k0 s
  | .calForced b k0 => Sys2Proof.Machine.execCalForced b k0 s
  | .calPassDone b k0 p => Sys2Proof.Machine.execCalPassDone b k0 p s
  | .combCheckDone b k0 o => Sys2Proof.Machine.execCombCheckDone b k0 o s
  | .calRunEnd b k0 => Sys2Proof.Machine.execCalRunEnd b k0 s
  | .hkcScanConversion b x code => Sys2Proof.Machine.execHkcScanConversion b x code s
  | .hkcSealedConversion b x code => Sys2Proof.Machine.execHkcSealedConversion b x code s
  | .hkcUrgentRequest b x chan => Sys2Proof.Machine.execHkcUrgentRequest b x chan s
  | .hkcUrgentDone b x code => Sys2Proof.Machine.execHkcUrgentDone b x code s
  | .auxClrAssert => Sys2Proof.Machine.execAuxClrAssert s
  | .auxClrRelease => Sys2Proof.Machine.execAuxClrRelease s
  | .auxCodeWrite b n v dma => Sys2Proof.Machine.execAuxCodeWrite b n v dma s
  | .auxComplianceFault b k0 => Sys2Proof.Machine.execAuxComplianceFault b k0 s
  | .auxComplianceClear b k0 => Sys2Proof.Machine.execAuxComplianceClear b k0 s
  | .pwrReqWatch svc => Sys2Proof.Machine.execPwrReqWatch svc s
  | .pwrReqStandby svc => Sys2Proof.Machine.execPwrReqStandby svc s
  | .pwrReqWake remote => Sys2Proof.Machine.execPwrReqWake remote s
  | .pwrEntryStart leader => Sys2Proof.Machine.execPwrEntryStart leader s
  | .pwrQueuesDrained => Sys2Proof.Machine.execPwrQueuesDrained s
  | .pwrDrainTimeout => Sys2Proof.Machine.execPwrDrainTimeout s
  | .domainEbbDone b d => Sys2Proof.Machine.execDomainEbbDone b d s
  | .watchBlockDone b sum => Sys2Proof.Machine.execWatchBlockDone b sum s
  | .wakeInRise => Sys2Proof.Machine.execWakeInRise s
  | .wakeComparator b k0 => Sys2Proof.Machine.execWakeComparator b k0 s
  | .rtcWake => Sys2Proof.Machine.execRtcWake s
  | .floodSupervisorDone => Sys2Proof.Machine.execFloodSupervisorDone s
  | .floodDone => Sys2Proof.Machine.execFloodDone s
  | .watchPeakRead b => Sys2Proof.Machine.execWatchPeakRead b s
  | .monSample b m v injected => Sys2Proof.Machine.execMonSample b m v injected s
  | .monSnap b mask => Sys2Proof.Machine.execMonSnap b mask s
  | .faultLongestRead => Sys2Proof.Machine.execFaultLongestRead s
  | .injKill v => Sys2Proof.Machine.execInjKill v s
  | .svcTransaction op => Sys2Proof.Machine.execSvcTransaction op s
  | .svcAlertClear v => Sys2Proof.Machine.execSvcAlertClear v s
  | .registerWrite a v en => Sys2Proof.Machine.execRegisterWrite a v en s
  | .tbsEdgeLostRead b => Sys2Proof.Machine.execTbsEdgeLostRead b s
  | .hostErrorCompletion b n => Sys2Proof.Machine.execHostErrorCompletion b n s
  | .lnlInjDelayExpire b n => Sys2Proof.Machine.execLnlInjDelayExpire b n s
  | .ethInjDelayExpire n => Sys2Proof.Machine.execEthInjDelayExpire n s
  | .verticalBlankingStart b => Sys2Proof.Machine.execVerticalBlankingStart b s
  | .jtagUpdateIr b op => Sys2Proof.Machine.execJtagUpdateIr b op s
  | .jtagTestLogicReset b => Sys2Proof.Machine.execJtagTestLogicReset b s
  | .sysrefOutEdge b => Sys2Proof.Machine.execSysrefOutEdge b s
  | .controllerFatalStatus b d => Sys2Proof.Machine.execControllerFatalStatus b d s
  | .spllPhase8Timeout b => Sys2Proof.Machine.execSpllPhase8Timeout b s

end Sys2Proof.Machine
end

