-- ==== Sys2Proof/Safety.lean ====
section
/-! DEFINITION. What statements call safe: the parts of the state that last, the invariant that every step keeps, and how the
fuses and the seal rows grow. -/
namespace Sys2Proof.Machine

/-- The parts of the state that few commands touch: the part itself (R1), the queue of commands, the flash (R33), the fuses
and key slots of the seal keeper (R630 to R632) and the row being programmed (R630). -/
structure Lasting where
  part : Part
  pending : List Instr
  flash : Flash
  fuses : SealFuses
  rowPending : Option (List Byte)
  deriving DecidableEq, Repr

/-- The lasting parts of a state. -/
def State.lasting (s : State) : Lasting :=
  { part := s.part, pending := s.pending, flash := s.flash, fuses := s.keeper.fuses, rowPending := s.keeper.rowPending }

/-- What every step keeps: the flash is in canonical form (every memory of the model is one list per contents), at most 64 seal
rows are programmed, and a row is being programmed only where one is left (R630). -/
structure State.Inv (s : State) : Prop where
  flash : Sparse.wf 0xFF#8 s.flash.bytes = true
  rows : s.keeper.fuses.rows.length ≤ 64
  row : s.keeper.rowPending.isSome = true → s.keeper.fuses.rows.length < 64

/-- A slot of a signing key: once provisioned its key stays, and once revoked it stays revoked (R632, R633). -/
def SignSlot.lasts (x y : SignSlot) : Prop := (x.key.isSome = true → y.key = x.key) ∧ (x.revoked = true → y.revoked = true)

/-- The fuses of the seal keeper grow: the metrology fuse stays blown (R631), programmed rows stay (R630), and keys stay
(R632 to R634). -/
structure SealFuses.Grows (f g : SealFuses) : Prop where
  metrology : f.metrology = true → g.metrology = true
  rows : f.rows <+: g.rows
  sign : ∀ i : Fin 4, f.sign[i].lasts g.sign[i]
  mac : ∀ i : Fin 4, f.mac[i].isSome = true → g.mac[i] = f.mac[i]

/-- What each command does to the lasting parts at most: the part and the queue stay, the fuses grow, and the invariant is
kept. -/
structure State.Grows (s t : State) : Prop where
  part : t.part = s.part
  pending : t.pending = s.pending
  fuses : s.keeper.fuses.Grows t.keeper.fuses
  inv : s.Inv → t.Inv

/-- A fabric block without its injectors and split counters (R612, R617). -/
def LnlBay.still (l : LnlBay) : LnlBay := { l with injectors := Vector.replicate 5 .reset, splitDrop := 0, islandDrop := 0 }

/-- A bay without what carrying a record touches: its record queues, and the injectors and split counters of its fabric
block (R448, R612, R617). -/
def Bay.still (x : Bay) : Bay := { x with que := .reset, lnl := x.lnl.still }

/-- The IMG block without the event ring's tail and the counts and buffer of events (R77, R85, R86). -/
def Img.still (i : Img) : Img :=
  { i with evt := { i.evt with tail := 0 }, lost := 0, lostTold := 0, buffer := [], bufferDropped := 0, events := 0 }

/-- The seal keeper without the records that wait for the MAC engine (R635). -/
def Seal.still (k : Seal) : Seal := { k with macQueue := [] }

/-- The Ethernet streams without the context packets due (R569). -/
def EthPkg.still (e : EthPkg) : EthPkg := { e with streams := e.streams.map fun x => { x with ctx := [] } }

/-- The stream injectors' common part (R750). -/
def InjPkg.still (i : InjPkg) : InjPkg := { i with streams := Vector.replicate 64 .reset }

/-- A state without what raising an event or handing over a record touches: the queues and injectors of the bays, the event
ring's tail and its buffer and counts (R77, R85, R86), the records that wait for the MAC engine (R635), the stream injectors
(R750), the context packets due (R569), the free values taken and what has left the package. -/
def State.still (s : State) : State :=
  { s with bays := s.bays.map Bay.still, img := s.img.still, keeper := s.keeper.still, eth := s.eth.still, inj := s.inj.still
           fresh := 0, outbox := [] }

/-- Between `s` and `t` one event was raised, as the last thing done: nothing before it raised an event or left the package. -/
def State.Told (s t : State) (b : BayNo) (code : Nat) (payload : List Word) : Prop :=
  ∃ u : State, t = u.event b code payload ∧ u.img.events = s.img.events ∧ u.outbox = s.outbox

/-- What lies outside a part of bay `b`: the still state with that part erased by `f`. Two states that agree on it differ at
most in that part and in what carrying records touches. -/
def State.besides (s : State) (b : BayNo) (f : Bay → Bay) : State := s.still.modBay b f

/-- The same with the part erased in every bay. -/
def State.besidesAll (s : State) (f : Bay → Bay) : State := { s.still with bays := s.still.bays.map f }

/-- Where a packet arrives that leaves bay `a` and crosses the die-to-die links of the listed dimensions in turn; none where one
of them is no dimension of the part or its link is not up (R600, R601). -/
def State.walk (s : State) : BayNo → List Nat → Option BayNo
  | a, [] => some a
  | a, d :: ds => if d < s.part.log2 ∧ s.d2dUp a d = true then s.walk (peerBay a d) ds else none

/-! ### Measurement cores -/

/-- A core without its program counter and its count of cycles. -/
def Core.timeless (k : Core) : Core := { k with pc := 0, clock := 0, cycles := 0, ready := [] }

/-- A core without its general registers either. -/
def Core.bare (k : Core) : Core :=
  { k.timeless with
    globals := Vector.replicate 16 0, windows := Vector.replicate 8 (Vector.replicate 12 0), shadowW := Vector.replicate 12 0 }

/-- The command of an ALU function (R404). -/
def AluFn.command (f : AluFn) : BayNo → CoreNo → Instr :=
  match f with
  | .add => .add | .sub => .sub | .and => .and | .or => .or | .xor => .xor | .shl => .shl | .shr => .shr | .sar => .sar
  | .adds => .adds | .subs => .subs | .min => .min | .max => .max | .minu => .minu | .maxu => .maxu | .abs => .abs
  | .slt => .slt | .sltu => .sltu | .shli => .shli | .shri => .shri | .sari => .sari | .clz => .clz | .mul16 => .mul16

/-- The command of an immediate operation (R403). -/
def ImmFn.command (f : ImmFn) : BayNo → CoreNo → Instr :=
  match f with
  | .addi => .addi | .andi => .andi | .ori => .ori | .xori => .xori | .lui => .lui

/-- The command of a branch (R403). -/
def BranchFn.command (f : BranchFn) : BayNo → CoreNo → Instr :=
  match f with
  | .beq => .beq | .bne => .bne | .blt => .blt | .bge => .bge | .bltu => .bltu | .bgeu => .bgeu

/-- The command of a search (R409). -/
def SearchFn.command (f : SearchFn) : BayNo → CoreNo → Instr :=
  match f with
  | .smax => .smax | .smin => .smin | .smm => .smm

end Sys2Proof.Machine
end

