-- ==== Sys2Proof/Frames.lean ====
section
/-! DEFINITION. The parts of a state, and the view of a state in which only some of them show: frame statements say that a
command leaves a view as it was. What carrying a record or raising an event touches shows in no view: the record queues, the
injectors, the split counters, the event ring's tail, buffer and counts, the records at the MAC engine, the contexts due, the marks
of what has been told in this epoch, the free values taken and what has left the package. -/
namespace Sys2Proof.Machine

/-- Parts of a state: the first ones are the package's, `lost` and what follows are blocks of every bay. -/
structure Parts where
  /-- the part (R1) -/
  part : Bool := false
  /-- the settings in force -/
  vals : Bool := false
  /-- the IMG block but for the event ring's tail, buffer and counts -/
  img : Bool := false
  /-- the setup flash -/
  flash : Bool := false
  /-- grid, servo, T_b and snapshots -/
  tbs : Bool := false
  /-- the reference selector -/
  sel : Bool := false
  /-- the seal keeper but for fuses, the row under way and the records at the MAC engine -/
  keeper : Bool := false
  /-- fuses, keys, rows and the row under way -/
  fuses : Bool := false
  /-- the power manager -/
  pwr : Bool := false
  /-- the record of tolerated faults -/
  faults : Bool := false
  /-- arming, groups and trigger outputs -/
  trg : Bool := false
  /-- the identity slot -/
  ident : Bool := false
  /-- Ethernet streams (but for the contexts due) and PTP -/
  eth : Bool := false
  /-- the package's side of the fabric -/
  fabric : Bool := false
  /-- INJ_KILL -/
  kill : Bool := false
  /-- AUXDAC_CLR_N and RST_N -/
  pins : Bool := false
  /-- the queue of commands -/
  pending : Bool := false
  lost : Bool := false
  clk : Bool := false
  time : Bool := false
  dma : Bool := false
  domains : Bool := false
  units : Bool := false
  afe : Bool := false
  adc : Bool := false
  ddc : Bool := false
  xfm : Bool := false
  den : Bool := false
  mco : Bool := false
  scn : Bool := false
  recorder : Bool := false
  lne : Bool := false
  pci : Bool := false
  ports : Bool := false
  jes : Bool := false
  links : Bool := false
  cal : Bool := false
  hkc : Bool := false
  aux : Bool := false
  mon : Bool := false
  jtag : Bool := false
  deriving DecidableEq, Repr

/-- Every part but these. -/
def Parts.others (p : Parts) : Parts :=
  { part := !p.part
    vals := !p.vals
    img := !p.img
    flash := !p.flash
    tbs := !p.tbs
    sel := !p.sel
    keeper := !p.keeper
    fuses := !p.fuses
    pwr := !p.pwr
    faults := !p.faults
    trg := !p.trg
    ident := !p.ident
    eth := !p.eth
    fabric := !p.fabric
    kill := !p.kill
    pins := !p.pins
    pending := !p.pending
    lost := !p.lost
    clk := !p.clk
    time := !p.time
    dma := !p.dma
    domains := !p.domains
    units := !p.units
    afe := !p.afe
    adc := !p.adc
    ddc := !p.ddc
    xfm := !p.xfm
    den := !p.den
    mco := !p.mco
    scn := !p.scn
    recorder := !p.recorder
    lne := !p.lne
    pci := !p.pci
    ports := !p.ports
    jes := !p.jes
    links := !p.links
    cal := !p.cal
    hkc := !p.hkc
    aux := !p.aux
    mon := !p.mon
    jtag := !p.jtag }

/-- Parts of either. -/
def Parts.plus (p q : Parts) : Parts :=
  { part := p.part || q.part
    vals := p.vals || q.vals
    img := p.img || q.img
    flash := p.flash || q.flash
    tbs := p.tbs || q.tbs
    sel := p.sel || q.sel
    keeper := p.keeper || q.keeper
    fuses := p.fuses || q.fuses
    pwr := p.pwr || q.pwr
    faults := p.faults || q.faults
    trg := p.trg || q.trg
    ident := p.ident || q.ident
    eth := p.eth || q.eth
    fabric := p.fabric || q.fabric
    kill := p.kill || q.kill
    pins := p.pins || q.pins
    pending := p.pending || q.pending
    lost := p.lost || q.lost
    clk := p.clk || q.clk
    time := p.time || q.time
    dma := p.dma || q.dma
    domains := p.domains || q.domains
    units := p.units || q.units
    afe := p.afe || q.afe
    adc := p.adc || q.adc
    ddc := p.ddc || q.ddc
    xfm := p.xfm || q.xfm
    den := p.den || q.den
    mco := p.mco || q.mco
    scn := p.scn || q.scn
    recorder := p.recorder || q.recorder
    lne := p.lne || q.lne
    pci := p.pci || q.pci
    ports := p.ports || q.ports
    jes := p.jes || q.jes
    links := p.links || q.links
    cal := p.cal || q.cal
    hkc := p.hkc || q.hkc
    aux := p.aux || q.aux
    mon := p.mon || q.mon
    jtag := p.jtag || q.jtag }

/-- No part is in both. -/
def Parts.apart (p q : Parts) : Bool :=
  !(p.part && q.part) &&
  !(p.vals && q.vals) &&
  !(p.img && q.img) &&
  !(p.flash && q.flash) &&
  !(p.tbs && q.tbs) &&
  !(p.sel && q.sel) &&
  !(p.keeper && q.keeper) &&
  !(p.fuses && q.fuses) &&
  !(p.pwr && q.pwr) &&
  !(p.faults && q.faults) &&
  !(p.trg && q.trg) &&
  !(p.ident && q.ident) &&
  !(p.eth && q.eth) &&
  !(p.fabric && q.fabric) &&
  !(p.kill && q.kill) &&
  !(p.pins && q.pins) &&
  !(p.pending && q.pending) &&
  !(p.lost && q.lost) &&
  !(p.clk && q.clk) &&
  !(p.time && q.time) &&
  !(p.dma && q.dma) &&
  !(p.domains && q.domains) &&
  !(p.units && q.units) &&
  !(p.afe && q.afe) &&
  !(p.adc && q.adc) &&
  !(p.ddc && q.ddc) &&
  !(p.xfm && q.xfm) &&
  !(p.den && q.den) &&
  !(p.mco && q.mco) &&
  !(p.scn && q.scn) &&
  !(p.recorder && q.recorder) &&
  !(p.lne && q.lne) &&
  !(p.pci && q.pci) &&
  !(p.ports && q.ports) &&
  !(p.jes && q.jes) &&
  !(p.links && q.links) &&
  !(p.cal && q.cal) &&
  !(p.hkc && q.hkc) &&
  !(p.aux && q.aux) &&
  !(p.mon && q.mon) &&
  !(p.jtag && q.jtag)

/-- A fabric block without what carrying records touches and without once-an-epoch marks. -/
def LnlBay.plain (l : LnlBay) : LnlBay := l.still.unmarked

/-- The blocks of a bay that show. -/
def Bay.view (p : Parts) (x : Bay) : Bay :=
  { que := .reset
    lost := bif p.lost then x.lost else false
    clk := bif p.clk then x.clk else .reset
    tbs := bif p.time then x.tbs else .reset
    dma := bif p.dma then x.dma else .reset
    pwr := bif p.domains then x.pwr else .reset
    trg := bif p.units then x.trg else .reset
    afe := bif p.afe then x.afe.unmarked else .reset
    adc := bif p.adc then x.adc else Vector.replicate 2 .reset
    ddc := bif p.ddc then x.ddc else Vector.replicate 4 .reset
    xfm := bif p.xfm then x.xfm.unmarked else .reset
    den := bif p.den then x.den else .reset
    mco := bif p.mco then x.mco.unmarked else .reset
    scn := bif p.scn then x.scn.unmarked else .reset
    recorder := bif p.recorder then x.recorder else .reset
    lne := bif p.lne then x.lne.unmarked else .reset
    pci := bif p.pci then x.pci else Vector.replicate 5 .reset
    eth := bif p.ports then x.eth else Vector.replicate 8 .reset
    jes := bif p.jes then x.jes else Vector.replicate 2 .reset
    lnl := bif p.links then x.lnl.plain else .reset
    cal := bif p.cal then x.cal else Vector.replicate 2 .reset
    hkc := bif p.hkc then x.hkc.unmarked else .reset
    aux := bif p.aux then x.aux.unmarked else .reset
    mon := bif p.mon then x.mon else Vector.replicate 16 .reset
    jtag := bif p.jtag then x.jtag else .reset }

/-- The seal keeper as it shows. -/
def Seal.view (p : Parts) (k : Seal) : Seal :=
  let a := bif p.keeper then k.still else .reset
  let b := bif p.fuses then k else .reset
  { a with fuses := b.fuses, rowPending := b.rowPending }

/-- The parts of a state that show. -/
def State.view (p : Parts) (s : State) : State :=
  { bays := s.bays.map (Bay.view p)
    part := bif p.part then s.part else .blq8
    vals := bif p.vals then s.vals else []
    img := bif p.img then s.img.still else .reset
    flash := bif p.flash then s.flash else { density := 0, eraseSize := 0, octal := false, bytes := [] }
    tbs := bif p.tbs then s.tbs else .reset
    sel := bif p.sel then s.sel else .reset
    keeper := s.keeper.view p
    pwr := bif p.pwr then s.pwr else .reset
    faults := bif p.faults then s.faults else .reset
    trg := bif p.trg then s.trg else .reset
    ident := bif p.ident then { s.ident with accessTold := false } else .reset
    eth := bif p.eth then s.eth.still else .reset
    lnl := bif p.fabric then s.lnl else .reset
    inj := { InjPkg.reset with killed := bif p.kill then s.inj.killed else false }
    pending := bif p.pending then s.pending else []
    clrPin := bif p.pins then s.clrPin else false
    rstLow := bif p.pins then s.rstLow else false
    fresh := 0
    outbox := [] }

end Sys2Proof.Machine
end

