-- ==== Sys2Proof/Touches.lean ====
section
/-! DEFINITION. The parts of a state that a command touches at most (what carries records and events apart: see Frames.lean). -/
namespace Sys2Proof

/-- The parts a command touches at most. -/
def Instr.touches (i : Instr) : Machine.Parts :=
  match i with
  | .pwrGoodRise => { img := true, pwr := true }
  | .rstNFall =>
    { vals := true, img := true, tbs := true, sel := true, keeper := true, fuses := true, pwr := true, faults := true,
      trg := true, ident := true, eth := true, fabric := true, kill := true, pins := true, lost := true, clk := true,
      time := true, dma := true, domains := true, units := true, afe := true, adc := true, ddc := true, xfm := true,
      den := true, mco := true, scn := true, recorder := true, lne := true, pci := true, ports := true, jes := true,
      links := true, cal := true, hkc := true, aux := true, mon := true }
  | .rstNRise => { img := true, pins := true, aux := true }
  | .powerFail =>
    { vals := true, img := true, tbs := true, sel := true, keeper := true, fuses := true, pwr := true, faults := true,
      trg := true, ident := true, eth := true, fabric := true, kill := true, lost := true, clk := true, time := true,
      dma := true, domains := true, units := true, afe := true, adc := true, ddc := true, xfm := true, den := true,
      mco := true, scn := true, recorder := true, lne := true, pci := true, ports := true, jes := true, links := true,
      cal := true, hkc := true, aux := true, mon := true, jtag := true }
  | .lagoonFloodDone => { img := true, domains := true }
  | .bootRomDone _ _ =>
    { img := true, tbs := true, faults := true, ident := true, fabric := true, lost := true, clk := true, domains := true,
      lne := true, links := true, hkc := true, aux := true }
  | .d2dTrainDone _ => { img := true, tbs := true, fabric := true, lne := true, links := true }
  | .discoverDone => { img := true }
  | .discoverTimeout _ =>
    { tbs := true, faults := true, ident := true, fabric := true, lost := true, clk := true, links := true, aux := true }
  | .shoalSectionReadDone => { vals := true, tbs := true, fabric := true, domains := true, lne := true }
  | .imageReadDone _ _ =>
    { vals := true, img := true, keeper := true, ident := true, fabric := true, clk := true, domains := true, afe := true,
      adc := true, lne := true, aux := true }
  | .checkerDone _ =>
    { vals := true, img := true, tbs := true, keeper := true, fuses := true, ident := true, fabric := true, clk := true,
      domains := true, afe := true, adc := true, lne := true, pci := true, aux := true }
  | .imageBroadcastDone =>
    { img := true, dma := true, domains := true, units := true, afe := true, ddc := true, xfm := true, mco := true,
      scn := true, lne := true, hkc := true, aux := true }
  | .spllLockPhase8 _ =>
    { img := true, flash := true, tbs := true, sel := true, keeper := true, fuses := true, ident := true, fabric := true,
      clk := true, time := true, scn := true, recorder := true, lne := true, pci := true, links := true }
  | .adcInitCalDone _ => { img := true, keeper := true, adc := true }
  | .feCalDone _ =>
    { vals := true, img := true, tbs := true, keeper := true, pwr := true, trg := true, time := true, dma := true,
      units := true, afe := true, adc := true, ddc := true, xfm := true, den := true, mco := true, lne := true, jes := true,
      cal := true, hkc := true, aux := true, mon := true }
  | .sealRowVerified _ => { keeper := true, fuses := true }
  | .setLive _ _ _ _ => { img := true, keeper := true, scn := true }
  | .selectProfile _ _ => { img := true, keeper := true }
  | .arm _ _ _ _ _ => { img := true, trg := true }
  | .disarm _ _ _ _ _ => { img := true, trg := true }
  | .recStart _ _ _ _ _ => { img := true, recorder := true }
  | .recStop _ _ _ => { img := true, recorder := true }
  | .replay _ _ _ _ _ _ _ _ =>
    { img := true, units := true, ddc := true, xfm := true, den := true, recorder := true, jes := true }
  | .snapshotAt _ _ _ => { img := true, tbs := true }
  | .acqRestart _ _ => { img := true }
  | .imageRestart _ _ =>
    { img := true, tbs := true, keeper := true, pwr := true, faults := true, trg := true, eth := true, kill := true,
      clk := true, dma := true, domains := true, units := true, afe := true, adc := true, ddc := true, xfm := true,
      den := true, mco := true, scn := true, recorder := true, lne := true, pci := true, ports := true, jes := true,
      links := true, cal := true, aux := true, mon := true }
  | .nvmRead _ _ _ _ => { img := true }
  | .nvmErase _ _ _ => { img := true }
  | .nvmProgram _ _ _ _ => { img := true }
  | .sealLogRead _ _ _ _ => { img := true }
  | .unknownOpcode _ _ => { img := true }
  | .flashCommandDone _ _ => { img := true, flash := true }
  | .imgCmdTailWrite _ => { img := true }
  | .imgCmdCfgWrite _ => { img := true }
  | .imgEvtCfgWrite _ => { img := true }
  | .imgEvtHeadWrite _ => { img := true }
  | .imgEvtLostRead => { img := true }
  | .profilePinChange _ => { img := true, keeper := true }
  | .liveApplyImmediate _ =>
    { vals := true, img := true, tbs := true, keeper := true, time := true, units := true, afe := true, adc := true,
      ddc := true, xfm := true, den := true, mco := true, lne := true, cal := true, hkc := true, aux := true, mon := true }
  | .hopBoundary _ _ _ =>
    { vals := true, img := true, tbs := true, keeper := true, time := true, units := true, afe := true, adc := true,
      ddc := true, xfm := true, den := true, mco := true, lne := true, cal := true, hkc := true, aux := true, mon := true }
  | .acqRestartBegin _ =>
    { vals := true, img := true, tbs := true, keeper := true, clk := true, time := true, dma := true, domains := true,
      units := true, afe := true, adc := true, ddc := true, xfm := true, den := true, mco := true, scn := true, lne := true,
      jes := true, links := true, cal := true, hkc := true, aux := true, mon := true }
  | .acqRestartEnd _ _ =>
    { vals := true, img := true, tbs := true, keeper := true, clk := true, time := true, units := true, afe := true,
      adc := true, ddc := true, xfm := true, den := true, mco := true, lne := true, cal := true, hkc := true, aux := true,
      mon := true }
  | .refLossDetect _ _ _ _ => { sel := true, faults := true, clk := true, time := true }
  | .refDeglitchEnd _ => { sel := true, faults := true, clk := true, time := true }
  | .buildOutEnd _ => { sel := true, clk := true, time := true }
  | .pullInDone _ => { sel := true, clk := true, time := true }
  | .refQualified _ _ _ => { sel := true, faults := true, clk := true, time := true }
  | .refDisqualified _ _ _ => { clk := true }
  | .spllLossOfLock _ _ =>
    { keeper := true, ident := true, clk := true, time := true, units := true, afe := true, adc := true, ddc := true,
      xfm := true, den := true, cal := true, aux := true }
  | .spllRelock _ _ =>
    { vals := true, img := true, tbs := true, keeper := true, clk := true, time := true, units := true, afe := true,
      adc := true, ddc := true, xfm := true, den := true, mco := true, lne := true, cal := true, hkc := true, aux := true,
      mon := true }
  | .spllStuckTimeout _ => { clk := true }
  | .cpllLossOfLock _ =>
    { tbs := true, keeper := true, faults := true, ident := true, fabric := true, lost := true, clk := true, links := true,
      aux := true }
  | .clkSysrefFire _ => { clk := true }
  | .clkFaultCntRead _ => { clk := true }
  | .spllLolClear _ => { clk := true }
  | .syncInEdge _ _ _ _ _ => { tbs := true, time := true }
  | .ppsEdge _ _ _ _ => { tbs := true, time := true }
  | .trigInEdge _ _ _ _ _ => { trg := true, time := true, units := true, xfm := true, mco := true, recorder := true }
  | .sysrefInEdge _ _ _ _ => { time := true, jes := true }
  | .tbsNowRead _ => { time := true }
  | .servoHoldoverTimeout => { tbs := true, time := true }
  | .linkDelayMeasure _ _ _ _ =>
    { tbs := true, fabric := true, clk := true, time := true, dma := true, units := true, afe := true, ddc := true,
      xfm := true, mco := true, scn := true, lne := true, jes := true, links := true, cal := true, hkc := true, mon := true }
  | .epochBoundary _ =>
    { vals := true, img := true, tbs := true, sel := true, keeper := true, faults := true, ident := true, eth := true,
      fabric := true, clk := true, time := true, dma := true, units := true, afe := true, adc := true, ddc := true,
      xfm := true, den := true, mco := true, scn := true, recorder := true, lne := true, jes := true, links := true,
      cal := true, hkc := true, aux := true, mon := true }
  | .syncWindowEnd => { tbs := true, time := true }
  | .snapshotTake _ => { tbs := true, time := true }
  | .tbsGlobalReset _ => { tbs := true }
  | .globalResetArrive _ =>
    { vals := true, img := true, tbs := true, sel := true, keeper := true, fuses := true, pwr := true, faults := true,
      trg := true, ident := true, eth := true, fabric := true, kill := true, lost := true, clk := true, time := true,
      dma := true, domains := true, units := true, afe := true, adc := true, ddc := true, xfm := true, den := true,
      mco := true, scn := true, recorder := true, lne := true, pci := true, ports := true, jes := true, links := true,
      cal := true, hkc := true, aux := true, mon := true }
  | .globalResetRelease => { img := true, tbs := true }
  | .overloadTrip _ _ _ _ _ => { time := true, afe := true, adc := true, ddc := true, xfm := true }
  | .overloadClose _ _ _ => { time := true, afe := true }
  | .autoStepDown _ _ _ => { time := true, afe := true, ddc := true, xfm := true }
  | .attenSettled _ _ _ => { time := true, afe := true, ddc := true, xfm := true }
  | .sliceCalDone _ _ _ _ => { time := true, adc := true }
  | .swapCompare _ _ _ _ => { adc := true }
  | .xsStreamStop _ _ _ _ => { units := true, ddc := true, xfm := true, den := true, jes := true }
  | .xsStreamResume _ _ _ _ =>
    { vals := true, img := true, tbs := true, keeper := true, time := true, units := true, afe := true, adc := true,
      ddc := true, xfm := true, den := true, mco := true, lne := true, cal := true, hkc := true, aux := true, mon := true }
  | .jesAligned _ _ _ => { ddc := true, lne := true, jes := true }
  | .spectrumReady _ _ _ => { time := true, xfm := true, den := true, mco := true }
  | .tapSlotWritten _ _ => { xfm := true, mco := true }
  | .traceIntervalEnd _ _ => { time := true, xfm := true }
  | .triggerEvent _ _ _ => { trg := true, units := true, xfm := true, mco := true, recorder := true }
  | .qualLongerExpire _ _ => { trg := true, time := true, units := true, xfm := true, mco := true, recorder := true }
  | .coreEventDue _ _ => { trg := true, time := true, units := true, xfm := true, mco := true, recorder := true }
  | .groupFireRequest _ => { trg := true }
  | .groupFireBroadcast _ _ _ => { trg := true, units := true, xfm := true, mco := true, recorder := true }
  | .armTakeEffect _ =>
    { img := true, tbs := true, pwr := true, trg := true, time := true, dma := true, units := true, den := true,
      mco := true, mon := true }
  | .disarmTakeEffect _ => { trg := true, time := true, units := true }
  | .segmentPostDone _ _ _ => { time := true, units := true }
  | .slotFreed _ _ => { units := true }
  | .unitRearm _ _ => { time := true, units := true, mon := true }
  | .trgForce _ _ => { trg := true, domains := true, units := true, xfm := true, mco := true, recorder := true }
  | .maskBump _ _ _ => { units := true }
  | .maskCopyDone _ _ => { units := true }
  | .maskStoreWrite _ _ _ => { domains := true, units := true }
  | .trigOutEdge _ => { trg := true, time := true }
  | .trigOutPulseEnd _ => { trg := true, time := true }
  | .denBankClose _ _ => { time := true, den := true }
  | .denPassDone _ _ =>
    { clk := true, time := true, dma := true, units := true, afe := true, ddc := true, xfm := true, den := true,
      mco := true, scn := true, lne := true, jes := true, links := true, cal := true, hkc := true, mon := true }
  | .denClear _ _ => { domains := true, den := true }
  | .scnLatchPoint _ =>
    { vals := true, img := true, tbs := true, keeper := true, time := true, units := true, afe := true, adc := true,
      ddc := true, xfm := true, den := true, mco := true, scn := true, lne := true, cal := true, hkc := true, aux := true,
      mon := true }
  | .scnCrcCompare _ _ _ => { keeper := true, ident := true, time := true, scn := true }
  | .scnCommitWrite _ _ => { domains := true, scn := true }
  | .roReferenceDone _ => { scn := true }
  | .roStaleTimeout _ => { time := true, scn := true }
  | .dpHpdRise _ _ => { scn := true }
  | .dpHpdIrq _ _ => { scn := true }
  | .dpHpdFall _ => { scn := true }
  | .dpLinkTrainDone _ _ => { scn := true }
  | .dpTrainRetryTimer _ => { time := true, scn := true }
  | .interruptEntry _ _ => { mco := true }
  | .coreTimerExpire _ _ => { time := true, mco := true }
  | .watchdogExpire _ _ => { faults := true, time := true, mco := true }
  | .coreRestart _ _ => { faults := true, mco := true }
  | .emitCopyDone _ _ => { mco := true }
  | .postCopyDone _ _ => { mco := true, scn := true }
  | .iqFeedBlock _ _ _ => { time := true, mco := true }
  | .nop _ _ => { faults := true, trg := true, units := true, xfm := true, mco := true, recorder := true }
  | .add _ _ => { faults := true, trg := true, units := true, xfm := true, mco := true, recorder := true }
  | .sub _ _ => { faults := true, trg := true, units := true, xfm := true, mco := true, recorder := true }
  | .and _ _ => { faults := true, trg := true, units := true, xfm := true, mco := true, recorder := true }
  | .or _ _ => { faults := true, trg := true, units := true, xfm := true, mco := true, recorder := true }
  | .xor _ _ => { faults := true, trg := true, units := true, xfm := true, mco := true, recorder := true }
  | .shl _ _ => { faults := true, trg := true, units := true, xfm := true, mco := true, recorder := true }
  | .shr _ _ => { faults := true, trg := true, units := true, xfm := true, mco := true, recorder := true }
  | .sar _ _ => { faults := true, trg := true, units := true, xfm := true, mco := true, recorder := true }
  | .adds _ _ => { faults := true, trg := true, units := true, xfm := true, mco := true, recorder := true }
  | .subs _ _ => { faults := true, trg := true, units := true, xfm := true, mco := true, recorder := true }
  | .min _ _ => { faults := true, trg := true, units := true, xfm := true, mco := true, recorder := true }
  | .max _ _ => { faults := true, trg := true, units := true, xfm := true, mco := true, recorder := true }
  | .minu _ _ => { faults := true, trg := true, units := true, xfm := true, mco := true, recorder := true }
  | .maxu _ _ => { faults := true, trg := true, units := true, xfm := true, mco := true, recorder := true }
  | .abs _ _ => { faults := true, trg := true, units := true, xfm := true, mco := true, recorder := true }
  | .slt _ _ => { faults := true, trg := true, units := true, xfm := true, mco := true, recorder := true }
  | .sltu _ _ => { faults := true, trg := true, units := true, xfm := true, mco := true, recorder := true }
  | .shli _ _ => { faults := true, trg := true, units := true, xfm := true, mco := true, recorder := true }
  | .shri _ _ => { faults := true, trg := true, units := true, xfm := true, mco := true, recorder := true }
  | .sari _ _ => { faults := true, trg := true, units := true, xfm := true, mco := true, recorder := true }
  | .clz _ _ => { faults := true, trg := true, units := true, xfm := true, mco := true, recorder := true }
  | .mul16 _ _ => { faults := true, trg := true, units := true, xfm := true, mco := true, recorder := true }
  | .addi _ _ => { faults := true, trg := true, units := true, xfm := true, mco := true, recorder := true }
  | .andi _ _ => { faults := true, trg := true, units := true, xfm := true, mco := true, recorder := true }
  | .ori _ _ => { faults := true, trg := true, units := true, xfm := true, mco := true, recorder := true }
  | .xori _ _ => { faults := true, trg := true, units := true, xfm := true, mco := true, recorder := true }
  | .lui _ _ => { faults := true, trg := true, units := true, xfm := true, mco := true, recorder := true }
  | .beq _ _ => { faults := true, trg := true, units := true, xfm := true, mco := true, recorder := true }
  | .bne _ _ => { faults := true, trg := true, units := true, xfm := true, mco := true, recorder := true }
  | .blt _ _ => { faults := true, trg := true, units := true, xfm := true, mco := true, recorder := true }
  | .bge _ _ => { faults := true, trg := true, units := true, xfm := true, mco := true, recorder := true }
  | .bltu _ _ => { faults := true, trg := true, units := true, xfm := true, mco := true, recorder := true }
  | .bgeu _ _ => { faults := true, trg := true, units := true, xfm := true, mco := true, recorder := true }
  | .jmp _ _ => { faults := true, trg := true, units := true, xfm := true, mco := true, recorder := true }
  | .jal _ _ => { faults := true, trg := true, units := true, xfm := true, mco := true, recorder := true }
  | .jr _ _ => { faults := true, trg := true, units := true, xfm := true, mco := true, recorder := true }
  | .call _ _ => { faults := true, trg := true, units := true, xfm := true, mco := true, recorder := true }
  | .ret _ _ => { faults := true, trg := true, units := true, xfm := true, mco := true, recorder := true }
  | .rep _ _ => { faults := true, trg := true, units := true, xfm := true, mco := true, recorder := true }
  | .ld _ _ => { faults := true, trg := true, units := true, xfm := true, mco := true, recorder := true }
  | .st _ _ => { faults := true, trg := true, units := true, xfm := true, mco := true, recorder := true }
  | .ldr _ _ => { faults := true, trg := true, units := true, xfm := true, mco := true, recorder := true }
  | .str _ _ => { faults := true, trg := true, units := true, xfm := true, mco := true, recorder := true }
  | .mac _ _ => { faults := true, trg := true, units := true, xfm := true, mco := true, recorder := true }
  | .macp _ _ => { faults := true, trg := true, units := true, xfm := true, mco := true, recorder := true }
  | .sta _ _ => { faults := true, trg := true, units := true, xfm := true, mco := true, recorder := true }
  | .lda _ _ => { faults := true, trg := true, units := true, xfm := true, mco := true, recorder := true }
  | .adda _ _ => { faults := true, trg := true, units := true, xfm := true, mco := true, recorder := true }
  | .sha _ _ => { faults := true, trg := true, units := true, xfm := true, mco := true, recorder := true }
  | .srst _ _ => { faults := true, trg := true, units := true, xfm := true, mco := true, recorder := true }
  | .smax _ _ => { faults := true, trg := true, units := true, xfm := true, mco := true, recorder := true }
  | .smin _ _ => { faults := true, trg := true, units := true, xfm := true, mco := true, recorder := true }
  | .smm _ _ => { faults := true, trg := true, units := true, xfm := true, mco := true, recorder := true }
  | .mfs _ _ => { faults := true, trg := true, units := true, xfm := true, mco := true, recorder := true }
  | .mts _ _ => { faults := true, trg := true, units := true, xfm := true, mco := true, recorder := true }
  | .evt _ _ => { faults := true, trg := true, units := true, xfm := true, mco := true, recorder := true }
  | .emit _ _ => { faults := true, trg := true, units := true, xfm := true, mco := true, recorder := true }
  | .post _ _ => { faults := true, trg := true, units := true, xfm := true, mco := true, recorder := true }
  | .wait _ _ => { faults := true, trg := true, units := true, xfm := true, mco := true, recorder := true }
  | .halt _ _ => { faults := true, trg := true, units := true, xfm := true, mco := true, recorder := true }
  | .ei _ _ => { faults := true, trg := true, units := true, xfm := true, mco := true, recorder := true }
  | .di _ _ => { faults := true, trg := true, units := true, xfm := true, mco := true, recorder := true }
  | .reti _ _ => { faults := true, trg := true, units := true, xfm := true, mco := true, recorder := true }
  | .illegalInstruction _ _ => { faults := true, mco := true }
  | .mcCtrlHalt _ _ => { keeper := true, mco := true }
  | .mcCtrlResume _ _ => { keeper := true, mco := true }
  | .mcCtrlReset _ _ => { keeper := true, mco := true }
  | .mcMboxInWrite _ _ _ => { domains := true, mco := true }
  | .mcMboxOutRead _ _ => { domains := true, mco := true }
  | .coreImemWrite _ _ _ => { keeper := true, domains := true, mco := true }
  | .coreEbb _ _ => { time := true, domains := true, mco := true }
  | .coreFloodDone _ _ => { domains := true, mco := true }
  | .recordEnqueue _ _ _ => { time := true, ddc := true }
  | .dmaRecordStart _ _ => { dma := true }
  | .dmaBurst _ _ _ =>
    { vals := true, img := true, tbs := true, keeper := true, pwr := true, faults := true, trg := true, ident := true,
      eth := true, fabric := true, kill := true, clk := true, time := true, dma := true, domains := true, units := true,
      afe := true, adc := true, ddc := true, xfm := true, den := true, mco := true, scn := true, recorder := true,
      lne := true, ports := true, jes := true, cal := true, hkc := true, aux := true, mon := true }
  | .dmaRecordDelivered _ _ => { eth := true, dma := true, mco := true, recorder := true, ports := true }
  | .dmaGo _ _ => { dma := true, domains := true }
  | .dmaAbort _ _ => { dma := true }
  | .dmaClear _ _ => { dma := true, domains := true }
  | .dmaTransferDone _ _ => { dma := true, mco := true }
  | .dmaRingCfgWrite _ _ _ => { dma := true, domains := true }
  | .asleepCompletion _ _ _ =>
    { img := true, faults := true, ident := true, clk := true, time := true, dma := true, domains := true, mco := true,
      recorder := true, lne := true }
  | .hostReadTimeout _ _ => { time := true, dma := true, pci := true }
  | .queFlush _ _ => { domains := true }
  | .queReservePeakRead _ => { domains := true }
  | .sealedRecordMac => { keeper := true }
  | .driveLinkTrained _ _ _ _ => { recorder := true }
  | .driveTrainRetry _ _ => { time := true, recorder := true }
  | .driveReady _ _ _ => { recorder := true }
  | .driveWaitExpire _ => { time := true, recorder := true }
  | .nvmeCompletion _ _ _ =>
    { faults := true, units := true, ddc := true, xfm := true, den := true, recorder := true, jes := true }
  | .driveCommandTimeout _ _ =>
    { faults := true, time := true, units := true, ddc := true, xfm := true, den := true, recorder := true, jes := true }
  | .driveLinkDown _ _ =>
    { faults := true, units := true, ddc := true, xfm := true, den := true, recorder := true, jes := true }
  | .failoverResume _ => { faults := true, recorder := true }
  | .recSyncTimer _ => { time := true, recorder := true }
  | .smartPoll _ _ _ _ _ => { time := true, recorder := true }
  | .recStartEffect _ => { time := true, recorder := true }
  | .recStopEffect _ => { time := true, recorder := true }
  | .recStopDone _ => { recorder := true }
  | .recFreezeReleaseOne _ _ => { domains := true, recorder := true }
  | .recFreezeReleaseAll _ => { domains := true, recorder := true }
  | .replayDeliver _ _ =>
    { vals := true, img := true, tbs := true, keeper := true, time := true, units := true, afe := true, adc := true,
      ddc := true, xfm := true, den := true, mco := true, recorder := true, lne := true, jes := true, cal := true,
      hkc := true, aux := true, mon := true }
  | .replayStall _ _ => { units := true, ddc := true, xfm := true, den := true, recorder := true, jes := true }
  | .replayResume _ _ =>
    { vals := true, img := true, tbs := true, keeper := true, time := true, units := true, afe := true, adc := true,
      ddc := true, xfm := true, den := true, mco := true, recorder := true, lne := true, cal := true, hkc := true,
      aux := true, mon := true }
  | .rebuildRowDone _ => { faults := true, recorder := true }
  | .recLatMaxRead _ _ => { domains := true, recorder := true }
  | .laneLockLost _ _ _ => { lne := true }
  | .laneUp _ _ => { faults := true, fabric := true, lne := true }
  | .laneBringupTimeout _ _ => { fabric := true, time := true, lne := true }
  | .capabilityFrameRx _ _ _ => { fabric := true, lne := true }
  | .stepRungCheckDone _ _ => { fabric := true, time := true, lne := true }
  | .lnlLanesFailTimeout _ => { fabric := true, time := true }
  | .lnlBringupRestart _ => { fabric := true, time := true, lne := true }
  | .eyeMeasure _ _ _ _ => { lne := true }
  | .laneErrRead _ _ _ _ => { domains := true, lne := true }
  | .laneClear _ _ => { domains := true, lne := true }
  | .laneTxSleep _ _ => { lne := true }
  | .laneTxWake _ _ => { lne := true }
  | .laneRxSleep _ _ => { lne := true }
  | .laneRxWake _ _ => { lne := true }
  | .laneResync _ _ _ => { lne := true }
  | .laneSleepDone _ _ _ => { lne := true }
  | .laneTxWakeDone _ _ => { lne := true }
  | .laneRxWakeDone _ _ _ => { lne := true }
  | .laneSignalDetect _ _ => { lne := true }
  | .laneTestWrite _ _ _ _ =>
    { fabric := true, domains := true, units := true, ddc := true, xfm := true, den := true, lne := true, jes := true }
  | .errInject _ _ => {}
  | .pcieLinkUp _ _ _ _ _ => { lne := true, pci := true }
  | .pcieLinkDown _ _ => { img := true, dma := true, lne := true, pci := true }
  | .pcieReset _ _ => { img := true, dma := true, pci := true }
  | .pcieBmeChange _ _ _ _ => { pci := true }
  | .ethLinkUp _ _ => { faults := true, eth := true, lne := true, ports := true }
  | .ethLinkDown _ _ => { faults := true, eth := true, lne := true, ports := true }
  | .ethPortFault _ _ _ => { faults := true, eth := true, lne := true, ports := true }
  | .ethFailoverDone _ => { faults := true, eth := true, dma := true }
  | .ethFrameRx _ _ _ => { eth := true, ports := true }
  | .ptpOffsetMeasure _ => { tbs := true, time := true }
  | .ethResolveTimer _ _ _ => { eth := true, time := true, ports := true }
  | .flitReceive _ _ _ => { tbs := true, faults := true, fabric := true, lne := true, links := true }
  | .lnlFlitTimeout _ _ => { tbs := true, faults := true, fabric := true, time := true, lne := true, links := true }
  | .fabricPacketRx _ _ _ _ => { fabric := true, links := true }
  | .lnlLinkDown _ _ _ => { tbs := true, faults := true, fabric := true, lne := true, links := true }
  | .topologyUpdate _ _ _ _ => { tbs := true, faults := true, fabric := true, links := true }
  | .fabricPortRetrain _ _ _ => { time := true, links := true }
  | .lnlLinkUp _ _ => { faults := true, fabric := true, links := true }
  | .lnlLaneFail _ _ => { tbs := true, faults := true, fabric := true, lne := true, links := true }
  | .lnlWidthResume _ => { faults := true, fabric := true }
  | .shoalExchangeRx _ _ _ _ _ => { tbs := true, fabric := true }
  | .shoalMismatchRetry _ => { fabric := true, time := true }
  | .islandDeclared _ _ => { img := true, tbs := true, fabric := true, time := true, links := true }
  | .rejoinMeasure _ _ => { fabric := true }
  | .islandRejoin => { tbs := true, fabric := true, time := true, links := true }
  | .rejoinOffsetRemoved => { time := true, links := true }
  | .provisionSignKey => { keeper := true, fuses := true, ident := true }
  | .provisionMacKey => { keeper := true, fuses := true, ident := true }
  | .revoke => { keeper := true, fuses := true, ident := true }
  | .tamperClear => { keeper := true, aux := true }
  | .logVerify => { keeper := true }
  | .logVerifyDone => { keeper := true }
  | .logArchive _ => { flash := true, keeper := true }
  | .tamperSample _ _ => { keeper := true, ident := true, time := true, aux := true }
  | .sealLogFlush _ => { flash := true, keeper := true, ident := true }
  | .rtcFollowWrite => { tbs := true, keeper := true, time := true }
  | .vbatBrownout => { keeper := true }
  | .calTempInterval _ _ => { time := true, cal := true, hkc := true }
  | .calIntervalDue _ _ => { time := true, cal := true }
  | .calBackoffEnd _ _ => { time := true, cal := true }
  | .calRunStart _ _ => { units := true, afe := true, adc := true, ddc := true, xfm := true, den := true, cal := true }
  | .calForced _ _ =>
    { time := true, units := true, afe := true, adc := true, ddc := true, xfm := true, den := true, cal := true }
  | .calPassDone _ _ _ => { keeper := true, time := true, cal := true }
  | .combCheckDone _ _ _ => { keeper := true, time := true, afe := true, cal := true }
  | .calRunEnd _ _ =>
    { vals := true, img := true, tbs := true, keeper := true, time := true, units := true, afe := true, adc := true,
      ddc := true, xfm := true, den := true, mco := true, lne := true, cal := true, hkc := true, aux := true, mon := true }
  | .hkcScanConversion _ _ _ => { afe := true, hkc := true, mon := true }
  | .hkcSealedConversion _ _ _ => { hkc := true }
  | .hkcUrgentRequest _ _ _ => { hkc := true }
  | .hkcUrgentDone _ _ _ => { afe := true, hkc := true }
  | .auxClrAssert => { pins := true, aux := true }
  | .auxClrRelease => { pins := true, aux := true }
  | .auxCodeWrite _ _ _ _ => { aux := true }
  | .auxComplianceFault _ _ => { aux := true }
  | .auxComplianceClear _ _ => { aux := true }
  | .pwrReqWatch _ => { pwr := true }
  | .pwrReqStandby _ => { pwr := true }
  | .pwrReqWake _ =>
    { vals := true, img := true, tbs := true, keeper := true, pwr := true, ident := true, time := true, units := true,
      afe := true, adc := true, ddc := true, xfm := true, den := true, mco := true, lne := true, cal := true, hkc := true,
      aux := true, mon := true }
  | .pwrEntryStart _ =>
    { pwr := true, trg := true, time := true, domains := true, units := true, afe := true, adc := true, ddc := true,
      xfm := true, den := true, recorder := true, cal := true }
  | .pwrQueuesDrained => { pwr := true }
  | .pwrDrainTimeout =>
    { vals := true, img := true, tbs := true, keeper := true, pwr := true, time := true, units := true, afe := true,
      adc := true, ddc := true, xfm := true, den := true, mco := true, lne := true, cal := true, hkc := true, aux := true,
      mon := true }
  | .domainEbbDone _ _ =>
    { img := true, pwr := true, trg := true, eth := true, clk := true, dma := true, domains := true, units := true,
      adc := true, ddc := true, den := true, scn := true, recorder := true, lne := true, pci := true, ports := true }
  | .watchBlockDone _ _ =>
    { vals := true, img := true, tbs := true, keeper := true, pwr := true, ident := true, time := true, domains := true,
      units := true, afe := true, adc := true, ddc := true, xfm := true, den := true, mco := true, lne := true, cal := true,
      hkc := true, aux := true, mon := true }
  | .wakeInRise =>
    { vals := true, img := true, tbs := true, keeper := true, pwr := true, ident := true, time := true, units := true,
      afe := true, adc := true, ddc := true, xfm := true, den := true, mco := true, lne := true, cal := true, hkc := true,
      aux := true, mon := true }
  | .wakeComparator _ _ =>
    { vals := true, img := true, tbs := true, keeper := true, pwr := true, ident := true, time := true, units := true,
      afe := true, adc := true, ddc := true, xfm := true, den := true, mco := true, lne := true, cal := true, hkc := true,
      aux := true, mon := true }
  | .rtcWake =>
    { vals := true, img := true, tbs := true, keeper := true, pwr := true, ident := true, time := true, units := true,
      afe := true, adc := true, ddc := true, xfm := true, den := true, mco := true, lne := true, cal := true, hkc := true,
      aux := true, mon := true }
  | .floodSupervisorDone => { pwr := true, clk := true, time := true, domains := true }
  | .floodDone =>
    { vals := true, img := true, tbs := true, keeper := true, pwr := true, trg := true, time := true, domains := true,
      units := true, afe := true, adc := true, ddc := true, xfm := true, den := true, mco := true, scn := true,
      recorder := true, lne := true, jes := true, cal := true, hkc := true, aux := true, mon := true }
  | .watchPeakRead _ => { domains := true }
  | .monSample _ _ _ _ => { time := true, mon := true }
  | .monSnap _ _ => { mon := true }
  | .faultLongestRead => { faults := true }
  | .injKill _ =>
    { trg := true, eth := true, kill := true, dma := true, units := true, xfm := true, mco := true, recorder := true,
      ports := true }
  | .svcTransaction _ =>
    { vals := true, img := true, flash := true, tbs := true, keeper := true, fuses := true, pwr := true, faults := true,
      trg := true, ident := true, eth := true, fabric := true, kill := true, clk := true, time := true, dma := true,
      domains := true, units := true, afe := true, adc := true, ddc := true, xfm := true, den := true, mco := true,
      scn := true, recorder := true, lne := true, ports := true, jes := true, cal := true, hkc := true, aux := true,
      mon := true }
  | .svcAlertClear _ => { ident := true }
  | .registerWrite _ _ _ =>
    { vals := true, img := true, tbs := true, keeper := true, pwr := true, trg := true, ident := true, eth := true,
      fabric := true, kill := true, clk := true, time := true, dma := true, domains := true, units := true, afe := true,
      adc := true, ddc := true, xfm := true, den := true, mco := true, scn := true, recorder := true, lne := true,
      ports := true, jes := true, cal := true, hkc := true, aux := true, mon := true }
  | .tbsEdgeLostRead _ => { time := true }
  | .hostErrorCompletion _ _ => { dma := true, pci := true }
  | .lnlInjDelayExpire _ _ => { trg := true, time := true, units := true, xfm := true, mco := true, recorder := true }
  | .ethInjDelayExpire _ => { eth := true, time := true, dma := true, mco := true, ports := true }
  | .verticalBlankingStart _ => { time := true, scn := true }
  | .jtagUpdateIr _ _ => { keeper := true, jtag := true }
  | .jtagTestLogicReset _ => { jtag := true }
  | .sysrefOutEdge _ => { clk := true, time := true, jes := true }
  | .controllerFatalStatus _ _ =>
    { faults := true, units := true, ddc := true, xfm := true, den := true, recorder := true, jes := true }
  | .spllPhase8Timeout _ => { clk := true, time := true, aux := true }

end Sys2Proof
end

