-- ==== Sys2Proof/Certificates/Slice0/Obligations.lean ====
section
/-! DEFINITION. The statements for the provers: one definition per clause, and one obligation per group of clauses. -/
section
set_option linter.unusedVariables false
open Sys2Proof Sys2Proof.Machine

/-- A step with a command at the front of the queue is exec of that command on the state with the rest of the queue. -/
def Claims.StepTakesFront.step_takes_front : Prop :=
  ∀ (s : State) (c : Instr) (rest : List Instr), s.pending = c :: rest → step s = exec c { s with pending := rest }

/-- (the model's choice, log entry 5) with no command waiting, in a package that runs, one FCLK edge passes: the tide counter of
a bay advances by its addend, and while an epoch grid runs nothing else of it changes. -/
def Claims.StepTakesFront.step_idles : Prop :=
  ∀ (s : State) (b : BayNo), s.pending = [] → s.running = true → (s.bay b).tbs.removing = none →
    ∃ t, step s = .next t ∧ (t.bay b).tbs.tide = (s.bay b).tbs.tide + (s.bay b).tbs.addend ∧
      (s.tbs.grid.running = true → t = { s with bays := t.bays } ∧
        t.bay b = { s.bay b with tbs := { (s.bay b).tbs with tide := (s.bay b).tbs.tide + (s.bay b).tbs.addend } })

/-- What is left of the offset of a rejoin is taken off at no more than TBS.SLEW_MAX of the addend. -/
def Claims.StepTakesFront.step_removes : Prop :=
  ∀ (s : State) (b : BayNo) (r : Int), s.pending = [] → s.running = true → (s.bay b).tbs.removing = some r → 0 ≤ r →
    ∃ t, step s = .next t ∧
      (t.bay b).tbs.removing = some (r - min r ((s.bay b).tbs.addend.toNat * s.slewMax.toNat / 1000000000000 : Nat)) ∧
      (t.bay b).tbs.tide = (s.bay b).tbs.tide + (s.bay b).tbs.addend -
        BitVec.ofInt 128 (min r ((s.bay b).tbs.addend.toNat * s.slewMax.toNat / 1000000000000 : Nat))

/-- And in a package that does not run nothing changes. -/
def Claims.StepTakesFront.step_waits : Prop :=
  ∀ (s : State), s.pending = [] → s.running = false → step s = .next s

/-- A step executes the command at the front of the queue on the state with the rest of the queue; an idle step is one FCLK
edge. -/
def Obligations.StepTakesFront : Prop :=
  Claims.StepTakesFront.step_takes_front ∧
  Claims.StepTakesFront.step_idles ∧
  Claims.StepTakesFront.step_removes ∧
  Claims.StepTakesFront.step_waits

/-- Before power comes no command waits and nothing has left the package, the power manager is OFF and SVC_ALERT_MASK is zero. -/
def Claims.ResetState.reset_waits : Prop :=
  State.reset.pending = [] ∧ State.reset.outbox = [] ∧ State.reset.pwr.state = .off ∧ State.reset.ident.alertMask = 0

/-- Every core is OFF with SBASE and SSP at 0x1E800 and SLIM at 0x20000. -/
def Claims.ResetState.reset_cores : Prop :=
  ∀ (b : BayNo) (c : CoreNo), (State.reset.bay b).mco.cores[c].mode = .off ∧ (State.reset.bay b).mco.cores[c].ssp = 0x1E800 ∧
  (State.reset.bay b).mco.cores[c].sbase = 0x1E800 ∧ (State.reset.bay b).mco.cores[c].slim = 0x20000

/-- And the invariant that every step keeps holds. -/
def Claims.ResetState.reset_inv : Prop :=
  State.reset.Inv

/-- The state before power comes: nothing waits, every domain is off, and the registers whose reset value the spec gives have
it. -/
def Obligations.ResetState : Prop :=
  Claims.ResetState.reset_waits ∧
  Claims.ResetState.reset_cores ∧
  Claims.ResetState.reset_inv

/-- Whatever the state, every command of the table answers a next state; a command that the rules turn away leaves a next state
too. (The model's choice, log entry 5: a command that the state rules out changes nothing.). -/
def Claims.EveryCommandRuns.every_command_runs : Prop :=
  ∀ (i : Instr) (s : State), ∃ t, exec i s = .next t

/-- Every command, in every state, answers a next state: none faults and none is refused. -/
def Obligations.EveryCommandRuns : Prop :=
  Claims.EveryCommandRuns.every_command_runs

/-- From every state in which the flash lists no byte twice and none that reads as erased, at most 64 seal rows are programmed
and a row is being programmed only where one is left, every step leads to such a state. -/
def Claims.StepKeepsInv.step_keeps_inv : Prop :=
  ∀ (s t : State), s.Inv → step s = .next t → t.Inv

/-- Every step keeps the flash in canonical form, at most 64 seal rows, and no row under way once all 64 are used. -/
def Obligations.StepKeepsInv : Prop :=
  Claims.StepKeepsInv.step_keeps_inv

/-- Every step leaves the part as it is, a blown metrology fuse blown, the programmed seal rows in place as the first rows,
every provisioned signing or MAC key as it is and every revoked signing key revoked. -/
def Claims.StepLasts.step_fuses_grow : Prop :=
  ∀ (s t : State), step s = .next t → t.part = s.part ∧ s.keeper.fuses.Grows t.keeper.fuses

/-- And no command itself adds a command to the queue or takes one from it. -/
def Claims.StepLasts.exec_keeps_queue : Prop :=
  ∀ (i : Instr) (s t : State), exec i s = .next t → t.pending = s.pending

/-- No step unblows a fuse, erases a seal row, changes a provisioned key or unrevokes one; the part stays. -/
def Obligations.StepLasts : Prop :=
  Claims.StepLasts.step_fuses_grow ∧
  Claims.StepLasts.exec_keeps_queue

/-- Each of the 330 commands changes at most the parts of the state that Instr.touches lists for it and what carrying a record
or an event touches (Frames.lean); every other part reads as before, in every bay. -/
def Claims.CommandFrame.command_frame : Prop :=
  ∀ (i : Instr) (s t : State), exec i s = .next t → t.view i.touches.others = s.view i.touches.others

/-- What each command leaves unchanged: every part of the state but those that Instr.touches lists for it. -/
def Obligations.CommandFrame : Prop :=
  Claims.CommandFrame.command_frame

/-- A REGISTER_WRITE, whatever its address and data, leaves the AFE, ADC, housekeeping and calibration blocks of every bay, the
settings in force, the flash, the fuses and keys and the record of tolerated faults as they were. -/
def Claims.OpenSideWrites.register_write_leaves : Prop :=
  ∀ (a : BitVec 32) (v : BitVec 32) (en : BitVec 4) (s t : State) (b : BayNo), exec (.registerWrite a v en) s = .next t →
    (t.bay b).afe = (s.bay b).afe ∧ (t.bay b).adc = (s.bay b).adc ∧ (t.bay b).hkc = (s.bay b).hkc ∧
    (t.bay b).cal = (s.bay b).cal ∧ t.vals = s.vals ∧ t.flash = s.flash ∧ t.keeper.fuses = s.keeper.fuses ∧ t.faults = s.faults

/-- And so does every DMA_BURST while an epoch grid runs, but for the record of tolerated faults. -/
def Claims.OpenSideWrites.dma_burst_leaves : Prop :=
  ∀ (b : BayNo) (n : Fin 32) (data : List Byte) (s t : State) (b' : BayNo), s.tbs.grid.running = true → exec (.dmaBurst b n data) s = .next t →
    (t.bay b').afe = (s.bay b').afe ∧ (t.bay b').adc = (s.bay b').adc ∧ (t.bay b').hkc = (s.bay b').hkc ∧
    (t.bay b').cal = (s.bay b').cal ∧ t.vals = s.vals ∧ t.flash = s.flash ∧ t.keeper.fuses = s.keeper.fuses

/-- Register writes by the host and DMA bursts cannot change the front end, the converters, calibration, settings, flash or
fuses. -/
def Obligations.OpenSideWrites : Prop :=
  Claims.OpenSideWrites.register_write_leaves ∧
  Claims.OpenSideWrites.dma_burst_leaves

/-- The route from one bay to another crosses only links that are up and ends there, no such path is shorter, and none of the
same length is smaller when the dimensions are read hop by hop. -/
def Claims.ShortestRoutes.route_is_shortest : Prop :=
  ∀ (s : State) (a b : BayNo) (p : List Nat), s.route a b = some p →
    s.walk a p = some b ∧ (∀ q, s.walk a q = some b → p.length ≤ q.length ∧ (q.length = p.length → ¬ q < p))

/-- Where any path over links that are up leads there, there is a route. -/
def Claims.ShortestRoutes.route_exists : Prop :=
  ∀ (s : State) (a b : BayNo) (q : List Nat), s.walk a q = some b → (s.route a b).isSome = true

/-- And while every link of the part is up the route crosses, in increasing order, the dimension of every bit set in a XOR b. -/
def Claims.ShortestRoutes.route_all_up : Prop :=
  ∀ (s : State) (a b : BayNo), (∀ (c : BayNo) (d : Fin 3), c.val < 2 ^ s.part.log2 → d.val < s.part.log2 → s.d2dUp c d.val = true) →
    a.val < 2 ^ s.part.log2 → b.val < 2 ^ s.part.log2 →
    s.route a b = some ((List.range s.part.log2).filter fun d => (a.val ^^^ b.val).testBit d)

/-- A packet takes the shortest path over links that are up, and among equals the one whose dimensions form the smallest
sequence. -/
def Obligations.ShortestRoutes : Prop :=
  Claims.ShortestRoutes.route_is_shortest ∧
  Claims.ShortestRoutes.route_exists ∧
  Claims.ShortestRoutes.route_all_up

/-- While events are buffered, raising one keeps the most recent 256, in their order, and counts every one dropped. -/
def Claims.EventBuffer.buffer_keeps_256 : Prop :=
  ∀ (s : State) (r : Rec), s.img.buffering = true → s.img.buffer.length ≤ 256 →
    (s.ringEvent r false).img.buffer = (s.img.buffer ++ [r]).drop (s.img.buffer.length + 1 - 256) ∧
    (s.ringEvent r false).img.bufferDropped + (s.ringEvent r false).img.buffer.length =
      s.img.bufferDropped + s.img.buffer.length + 1 ∧ (s.ringEvent r false).outbox = s.outbox

/-- And the first enable of the event ring empties the buffer, ends buffering and, where none was dropped, writes the buffered
events in their order. -/
def Claims.EventBuffer.enable_drains : Prop :=
  ∀ (s : State), s.img.bufferDropped = 0 →
    s.drainBuffer = s.img.buffer.foldl (fun u r => u.ringEvent r false) (s.modImg fun i => { i with buffering := false, buffer := [], bufferDropped := 0 }) ∧
    s.drainBuffer.img.buffer = [] ∧ s.drainBuffer.img.buffering = false

/-- Before the event ring is first enabled the headland keeps the most recent 256 events and counts the rest. -/
def Obligations.EventBuffer : Prop :=
  Claims.EventBuffer.buffer_keeps_256 ∧
  Claims.EventBuffer.enable_drains

/-- Programming bytes at an offset leaves every byte outside their range as it was. -/
def Claims.FlashMemory.flash_outside : Prop :=
  ∀ (s : State) (off : Nat) (bs : List Byte) (a : Nat), (a < off ∨ off + bs.length ≤ a) →
    Sparse.get 0xFF#8 (s.programBytes off bs).flash.bytes a = Sparse.get 0xFF#8 s.flash.bytes a

/-- And every erased byte in the range takes its new value. -/
def Claims.FlashMemory.flash_inside : Prop :=
  ∀ (s : State) (off : Nat) (bs : List Byte) (i : Nat), i < bs.length → Sparse.get 0xFF#8 s.flash.bytes (off + i) = 0xFF#8 →
    Sparse.get 0xFF#8 (s.programBytes off bs).flash.bytes (off + i) = bs.getD i 0

/-- And the list of bytes stays in canonical form. -/
def Claims.FlashMemory.flash_canonical : Prop :=
  ∀ (s : State) (off : Nat) (bs : List Byte), Sparse.wf 0xFF#8 s.flash.bytes = true → Sparse.wf 0xFF#8 (s.programBytes off bs).flash.bytes = true

/-- Programming the setup flash writes exactly the bytes of its range. -/
def Obligations.FlashMemory : Prop :=
  Claims.FlashMemory.flash_outside ∧
  Claims.FlashMemory.flash_inside ∧
  Claims.FlashMemory.flash_canonical

/-- The words written out decode to ADD G1, G2, W0; SHLI G5, G6, 7; ADDI G3, G3, -1; MAC A1 negated of G3 high and G4, signed by
unsigned; MACP A0 of P5 and P6 clearing; STA A1 to W4; SHA A0 by -1. -/
def Claims.CoreWords.words_of_arithmetic : Prop :=
  decodeCore 0x04228000 = some (.alu .add 1 2 16 0) ∧ decodeCore 0x04A600F1 = some (.alu .shli 5 6 6 7) ∧
  decodeCore 0x0863FFFF = some (.imm .addi 3 3 0xFFFF) ∧ decodeCore 0x63432400 = some (.mac 1 true false 2 3 4 true false) ∧
  decodeCore 0x64970000 = some (.macp 0 false true 0 5 6) ∧ decodeCore 0x68549F00 = some (.sta 1 20 39 true 2) ∧
  decodeCore 0x6980FC00 = some (.sha 0 (-1))

/-- To BLTU G1, G2, -5; JMP 0x2345; CALL 0x100; RET; REP 1281; REP of a count in G4; RETI. -/
def Claims.CoreWords.words_of_flow : Prop :=
  decodeCore 0x3022FFFB = some (.branch .bltu 1 2 0xFFFB) ∧ decodeCore 0x38002345 = some (.jmp 0x2345) ∧
  decodeCore 0x44000100 = some (.call 0x100) ∧ decodeCore 0x48000000 = some .ret ∧ decodeCore 0x4C000500 = some (.rep 1281) ∧
  decodeCore 0x4E040000 = some (.repReg 4) ∧ decodeCore 0x7A000000 = some .reti

/-- To LD G9 from P2, a sign-extended half with post-modify; STR of the word G9 at G10 - 4; SMAX on P0 with SKIP; SMM on 32-bit
elements at P7 with SKIP; MFS W5, MXV; MTS P0, G5; EVT line 3 with G4; EMIT G1, G2. -/
def Claims.CoreWords.words_of_memory : Prop :=
  decodeCore 0x51299000 = some (.ld 9 2 .half true true 0) ∧ decodeCore 0x5D2A9FFC = some (.str 9 10 .word 0x1FFC) ∧
  decodeCore 0x6C810000 = some (.search .smax 0 false true) ∧ decodeCore 0x6D9F0000 = some (.search .smm 7 true true) ∧
  decodeCore 0x70150800 = some (.mfs 21 8) ∧ decodeCore 0x70854000 = some (.mts 0x40 5) ∧ decodeCore 0x74640000 = some (.evt 3 4) ∧
  decodeCore 0x74811000 = some (.emit 1 2)

/-- And a reserved opcode, a reserved register code, a NOP that is not zero, a STA by 40 and a reserved sub-op of SPR are
illegal. -/
def Claims.CoreWords.words_that_are_illegal : Prop :=
  decodeCore 0x1C000000 = none ∧ decodeCore 0x079C0000 = none ∧ decodeCore 1 = none ∧ decodeCore 0x6814A000 = none ∧
  decodeCore 0x71052700 = none

/-- Words of the measurement cores written out from the spec's formats decode to the instructions they stand for. -/
def Obligations.CoreWords : Prop :=
  Claims.CoreWords.words_of_arithmetic ∧
  Claims.CoreWords.words_of_flow ∧
  Claims.CoreWords.words_of_memory ∧
  Claims.CoreWords.words_that_are_illegal

/-- An entry's word 0 [7:0] is the opcode and word 1 the tag: SET_LIVE with DEFER, SELECT_PROFILE 9, ACQ_RESTART of bays 0 and
2, IMAGE_RESTART from slot B, an opcode that the table does not list, and reserved bits of word 0 are not looked at. -/
def Claims.RingEntries.entries_of_settings : Prop :=
  ∀ tag : Word,
  commandOf #v[0xABCDEF01, tag, 0x01010004, 0x00000007, 1, 0, 0, 0, 0, 0, 0, 0, 0, 0, 0, 0] = .setLive tag 0x01010004 7 true ∧
  commandOf #v[0x02, tag, 0xFFFFFFF9, 0, 0, 0, 0, 0, 0, 0, 0, 0, 0, 0, 0, 0] = .selectProfile tag 9 ∧
  commandOf #v[0x09, tag, 0x05, 0, 0, 0, 0, 0, 0, 0, 0, 0, 0, 0, 0, 0] = .acqRestart tag 5 ∧
  commandOf #v[0x0A, tag, 1, 0, 0, 0, 0, 0, 0, 0, 0, 0, 0, 0, 0, 0] = .imageRestart tag true ∧
  commandOf #v[0x0F, tag, 0, 0, 0, 0, 0, 0, 0, 0, 0, 0, 0, 0, 0, 0] = .unknownOpcode 0x0F tag

/-- ARM and DISARM of bay mask 1, unit mask 2 and package mask 4 at a stamp in record order, and SNAPSHOT_AT with an id. -/
def Claims.RingEntries.entries_of_acquisition : Prop :=
  ∀ tag : Word,
  commandOf #v[0x03, tag, 0x00040201, 0x11111111, 0x22222222, 0x33333333, 0, 0, 0, 0, 0, 0, 0, 0, 0, 0] =
    .arm tag 1 2 4 0x333333332222222211111111 ∧
  commandOf #v[0x04, tag, 0x00040201, 0x11111111, 0x22222222, 0x33333333, 0, 0, 0, 0, 0, 0, 0, 0, 0, 0] =
    .disarm tag 1 2 4 0x333333332222222211111111 ∧
  commandOf #v[0x08, tag, 0x11111111, 0x22222222, 0x33333333, 0x77, 0, 0, 0, 0, 0, 0, 0, 0, 0, 0] =
    .snapshotAt tag 0x333333332222222211111111 0x77

/-- REC_START, REC_STOP and REPLAY. -/
def Claims.RingEntries.entries_of_recording : Prop :=
  ∀ tag : Word,
  commandOf #v[0x05, tag, 0x00000103, 0x11111111, 0x22222222, 0x33333333, 0, 0, 0, 0, 0, 0, 0, 0, 0, 0] =
    .recStart tag 3 true false 0x333333332222222211111111 ∧
  commandOf #v[0x06, tag, 0x03, 0x11111111, 0x22222222, 0x33333333, 0, 0, 0, 0, 0, 0, 0, 0, 0, 0] =
    .recStop tag 3 0x333333332222222211111111 ∧
  commandOf #v[0x07, tag, 0x0000002D, 0x11111111, 0x22222222, 0x33333333, 0x44444444, 0x55555555, 0x66666666, 0x0201, 0, 0, 0, 0, 0, 0] =
    .replay tag 5 1 true 0x333333332222222211111111 0x666666665555555544444444 1 2

/-- And the commands of the flash, with a host address of two words. -/
def Claims.RingEntries.entries_of_the_flash : Prop :=
  ∀ tag : Word,
  commandOf #v[0x0B, tag, 0x1000, 0x20, 0x89ABCDEF, 0x01234567, 0, 0, 0, 0, 0, 0, 0, 0, 0, 0] = .nvmRead tag 0x1000 0x20 0x0123456789ABCDEF ∧
  commandOf #v[0x0C, tag, 0x1000, 0x2000, 0, 0, 0, 0, 0, 0, 0, 0, 0, 0, 0, 0] = .nvmErase tag 0x1000 0x2000 ∧
  commandOf #v[0x0D, tag, 0x1000, 0x20, 0x89ABCDEF, 0x01234567, 0, 0, 0, 0, 0, 0, 0, 0, 0, 0] = .nvmProgram tag 0x1000 0x20 0x0123456789ABCDEF ∧
  commandOf #v[0x0E, tag, 3, 4, 0x89ABCDEF, 0x01234567, 0, 0, 0, 0, 0, 0, 0, 0, 0, 0] = .sealLogRead tag 3 4 0x0123456789ABCDEF

/-- Entries of the command ring written out from the spec's layout spell the commands they stand for. -/
def Obligations.RingEntries : Prop :=
  Claims.RingEntries.entries_of_settings ∧
  Claims.RingEntries.entries_of_acquisition ∧
  Claims.RingEntries.entries_of_recording ∧
  Claims.RingEntries.entries_of_the_flash

/-- PWR_GOOD_RISE in OFF starts the package: the power manager runs, and unless RST_N is low start-up begins with slot A first. -/
def Claims.PowerAndReset.pwrGoodRise_done : Prop :=
  ∀ (s : State), s.pwr.state = .off →
    ∃ t, exec .pwrGoodRise s = .next t ∧ t.pwr.state = .run ∧ t.keeper = s.keeper ∧ t.flash = s.flash ∧
      t.img.boot.active = (!s.rstLow || s.img.boot.active) ∧ (s.rstLow = false → t.img.state = .start ∧ t.img.boot.order = [false, true])

/-- POWER_FAIL puts the package in OFF: every volatile part is at its reset value, while the flash, the island, the fuses and
the drives' bytes stay; a seal row under way is consumed. -/
def Claims.PowerAndReset.powerFail_done : Prop :=
  ∀ (s : State), s.pwr.state ≠ .off →
    ∃ t, exec .powerFail s = .next t ∧ t.pwr = PwrPkg.reset ∧ t.img = Img.reset ∧ t.vals = [] ∧ t.trg = TrgPkg.reset ∧
      t.flash = s.flash ∧ t.keeper.island = s.keeper.island ∧
      t.keeper.fuses = { s.keeper.fuses with rows := s.keeper.fuses.rows ++ (if s.keeper.rowPending.isSome then [none] else []) } ∧
      t.keeper.rowPending = none

/-- RST_N_FALL holds the package in reset: the settings in force and the start-up state are gone, power, flash and island stay. -/
def Claims.PowerAndReset.rstNFall_done : Prop :=
  ∀ (s : State), s.rstLow = false → s.pwr.state ≠ .off →
    ∃ t, exec .rstNFall s = .next t ∧ t.rstLow = true ∧ t.vals = [] ∧ t.img.boot = Boot.reset ∧ t.img.image = none ∧
      t.pwr.state = .run ∧ t.flash = s.flash ∧ t.keeper.island = s.keeper.island

/-- RST_N_RISE in a powered package ends the reset: start-up begins and every auxiliary DAC drives 0. -/
def Claims.PowerAndReset.rstNRise_done : Prop :=
  ∀ (s : State) (b : BayNo), s.rstLow = true → s.pwr.state ≠ .off →
    ∃ t, exec .rstNRise s = .next t ∧ t.rstLow = false ∧ t.img.state = .start ∧ t.img.boot.active = true ∧ t.img.boot.phase = 0 ∧
      (t.bay b).aux = AuxBay.reset ∧ t.keeper = s.keeper

/-- TBS_GLOBAL_RESET with 0xA5 in the headland, outside SAFE, issues the global reset; any other word changes nothing. -/
def Claims.PowerAndReset.tbsGlobalReset_done : Prop :=
  ∀ (s : State) (v : Word), s.alive 0 = true → s.img.state ≠ .safe →
    ∃ t, exec (.tbsGlobalReset v) s = .next t ∧ t = (if v = 0xA5 then s.issueReset else s)

/-- GLOBAL_RESET_ARRIVE of a message issued, outside SAFE, holds every bay in reset; the settings in force are gone, the event
buffer, the flash and the island stay. -/
def Claims.PowerAndReset.globalResetArrive_done : Prop :=
  ∀ (s : State), s.pwr.state ≠ .off → s.rstLow = false → s.tbs.globalReset = false → s.tbs.resetIssued = true → s.img.state ≠ .safe →
    ∃ t, exec (.globalResetArrive false) s = .next t ∧ t.tbs.globalReset = true ∧ t.running = false ∧ t.vals = [] ∧ t.flash = s.flash ∧
      t.keeper.island = s.keeper.island ∧ t.img.image = none

/-- GLOBAL_RESET_RELEASE ends it and start-up begins. -/
def Claims.PowerAndReset.globalResetRelease_done : Prop :=
  ∀ (s : State), s.tbs.globalReset = true →
    ∃ t, exec .globalResetRelease s = .next t ∧ t.tbs.globalReset = false ∧ t.img.state = .start ∧ t.img.boot.active = true ∧
      t.img.boot.phase = 0 ∧ t.bays = s.bays

/-- Power, reset and the global reset. -/
def Obligations.PowerAndReset : Prop :=
  Claims.PowerAndReset.pwrGoodRise_done ∧
  Claims.PowerAndReset.powerFail_done ∧
  Claims.PowerAndReset.rstNFall_done ∧
  Claims.PowerAndReset.rstNRise_done ∧
  Claims.PowerAndReset.tbsGlobalReset_done ∧
  Claims.PowerAndReset.globalResetArrive_done ∧
  Claims.PowerAndReset.globalResetRelease_done

/-- LAGOON_FLOOD_DONE ends phase 1: the domains of every bay that lives are on, the seal keeper's in the headland alone. -/
def Claims.StartUpPhases.lagoonFloodDone_done : Prop :=
  ∀ (s : State) (b : BayNo), s.inPhase 0 = true → s.alive b = true →
    ∃ t, exec .lagoonFloodDone s = .next t ∧ t.img.boot.phase = 1 ∧ (t.bay b).pwr.supervisor = true ∧ (t.bay b).pwr.datapath = true ∧
      (t.bay b).pwr.ports = true ∧ (t.bay b).pwr.sealKeeper = decide (b = 0)

/-- BOOT_ROM_DONE ends phase 2: a CPLL that locked has the first of XO_IN, REFA_IN and REFB_IN seen within 100 ppm, and the
candidates seen are present; a bay whose CPLL did not lock is lost. -/
def Claims.StartUpPhases.bootRomDone_done : Prop :=
  ∀ (s : State) (seen : Vector (Vector (Option CandSeen) 4) 8) (l : BitVec 8) (b : BayNo), s.inPhase 1 = true → s.alive b = true →
    ∃ t, exec (.bootRomDone seen l) s = .next t ∧ t.img.boot.phase = 2 ∧ (t.bay b).lost = !l.getLsbD b.val ∧
      (l.getLsbD b.val = true → (t.bay b).clk.cpllLock = true ∧ (t.bay b).clk.present = seen[b].map (·.isSome) ∧
        (t.bay b).clk.cpllRef = ([2, 0, 1] : List Cand).find? fun c => seen[b][c].any fun x => decide (x.off.natAbs ≤ 100000000))

/-- D2D_TRAIN_DONE ends phase 3: a die-to-die link is up exactly when neither end failed and its other bay lives. -/
def Claims.StartUpPhases.d2dTrainDone_done : Prop :=
  ∀ (s : State) (failed : Vector (BitVec 3) 8) (b : BayNo) (d : Fin 3), s.inPhase 2 = true → s.alive b = true → d.val < s.part.log2 →
    ∃ t, exec (.d2dTrainDone failed) s = .next t ∧ t.img.boot.phase = 3 ∧
      (t.bay b).lnl.ports[d].up = (trained failed b d.val && s.alive (peerBay b d.val))

/-- DISCOVER_DONE ends phase 4. -/
def Claims.StartUpPhases.discoverDone_done : Prop :=
  ∀ (s : State), s.inPhase 3 = true → ∃ t, exec .discoverDone s = .next t ∧ t.img.boot.phase = 4 ∧ t.vals = s.vals

/-- DISCOVER_TIMEOUT of a bay but the headland loses it. -/
def Claims.StartUpPhases.discoverTimeout_done : Prop :=
  ∀ (s : State) (b : BayNo), s.inPhase 3 = true → b ≠ 0 → s.alive b = true →
    ∃ t, exec (.discoverTimeout b) s = .next t ∧ (t.bay b).lost = true ∧ t.img.boot.phase = 3

/-- SHOAL_SECTION_READ_DONE with a readable SHOAL section puts its settings in force, and with none changes nothing. -/
def Claims.StartUpPhases.shoalSectionReadDone_done : Prop :=
  ∀ (s : State), s.inPhase 4 = true → s.img.boot.restart = false →
    ∃ t, exec .shoalSectionReadDone s = .next t ∧ t.vals = (s.shoalVals (s.img.boot.order.headD false)).getD s.vals

/-- IMAGE_READ_DONE of the slot in turn applies checks 1 to 7 to it: one that passes becomes the candidate and phase 5 ends; of
two left, one that fails gives its turn to the other. The read is quad when training failed or the flash declares no
8D-8D-8D. -/
def Claims.StartUpPhases.imageReadDone_done : Prop :=
  ∀ (s : State) (e q slot other : Bool), (s.inPhase 4 = true ∨ s.inPhase 5 = true) → s.img.boot.candidate = none →
    s.img.boot.order = [slot, other] →
    ∃ t, exec (.imageReadDone e q) s = .next t ∧ t.img.quadRead = (q || !s.flash.octal) ∧
      (match (if s.img.boot.started then s else s.sealStart).checkSlot slot e with
        | .ok im => t.img.boot.candidate = some im ∧ t.img.boot.phase = 5
        | .error c => t.img.boot.candidate = none ∧ t.img.boot.phase = s.img.boot.phase ∧ t.img.boot.order = [other] ∧
            t.img.boot.tried = s.img.boot.tried ++ [(slot, c)])

/-- When the last slot fails the package is in SAFE with every setting at its default. -/
def Claims.StartUpPhases.imageReadDone_safe : Prop :=
  ∀ (s : State) (e q slot : Bool) (c : Nat), (s.inPhase 4 = true ∨ s.inPhase 5 = true) → s.img.boot.candidate = none →
    s.img.boot.order = [slot] → (if s.img.boot.started then s else s.sealStart).checkSlot slot e = .error c →
    ∃ t, exec (.imageReadDone e q) s = .next t ∧ t.img.state = .safe ∧ t.vals = [] ∧ t.img.image = none ∧ t.img.boot.active = false

/-- CHECKER_DONE puts a candidate that checks 10 to 19 accept in force, and phase 6 ends; else the slot fails. -/
def Claims.StartUpPhases.checkerDone_done : Prop :=
  ∀ (s : State) (pins : BitVec 4) (im : Image), s.inPhase 5 = true → s.img.boot.candidate = some im →
    ∃ t, exec (.checkerDone pins) s = .next t ∧ t.img.boot.candidate = none ∧
      (match im.refusal s.part.bays s.tbs.tb with
        | none => t.img.image = some im ∧ t.img.boot.phase = 6 ∧
            t.vals = im.effective s.part.bays (if (im.startProfile s.part.bays pins).2 then (im.startProfile s.part.bays pins).1 else 0)
        | some (c, ws) => t.img.refusal = ws ∧ t.img.boot.tried = s.img.boot.tried ++ [(im.slot, c)])

/-- IMAGE_BROADCAST_DONE ends phase 7: the attenuations of the image are in force at every input of a bay that lives, its DMA
channels are idle and its enabled cores are loaded. -/
def Claims.StartUpPhases.imageBroadcastDone_done : Prop :=
  ∀ (s : State) (b : BayNo) (i : Fin 2) (n : Fin 32) (c : CoreNo), s.inPhase 6 = true → s.alive b = true →
    ∃ t, exec .imageBroadcastDone s = .next t ∧ t.img.boot.phase = 7 ∧ t.vals = s.vals ∧
      (t.bay b).afe.inputs[i].step = s.fldN Fld.afeAtten b i.val ∧ (t.bay b).afe.inputs[i].trim = s.fldN Fld.afeTrim b i.val ∧
      (t.bay b).dma.chans[n].state = .idle ∧ (s.fldB Fld.mcoCEn b c.val = true → (t.core b c).mem = s.coreData b c)

/-- SPLL_LOCK_PHASE8 ends phase 8; a counter not yet set takes the RTC's time, at the nominal addend. -/
def Claims.StartUpPhases.spllLockPhase8_time : Prop :=
  ∀ (s : State) (seen : Vector (Option CandSeen) 4) (b : BayNo), s.inPhase 7 = true → (s.bay 0).tbs.set = false → s.alive b = true →
    ∃ t, exec (.spllLockPhase8 seen) s = .next t ∧ t.img.boot.phase = 8 ∧ t.nowAt b = s.keeper.island.stamp ∧
      (t.bay b).tbs.set = true ∧ (t.bay b).tbs.source = .rtc ∧ (t.bay b).tbs.addend = nominalAddend ∧
      t.tbs.grid.running = true

/-- The grid is anchored at the first whole number of epochs from then on, and the selector takes the first reference of the
list that reaches the headland and shows its frequency within 100 ppm. -/
def Claims.StartUpPhases.spllLockPhase8_grid : Prop :=
  ∀ (s : State) (seen : Vector (Option CandSeen) 4), s.inPhase 7 = true → (s.bay 0).tbs.set = false →
    ∃ t, exec (.spllLockPhase8 seen) s = .next t ∧
      t.tbs.grid.next = durOf (ceilDiv (s.keeper.island.stamp.toNat * 100000000) (max 1 s.gridTens * unitsPerSec) * max 1 s.gridTens) 100000000 ∧
      t.tbs.grid.tens = max 1 s.gridTens ∧ t.tbs.grid.len = s.gridLen ∧
      t.sel.active = (prioList (s.pkgN Fld.clkRefPrio)).find? fun c => s.candReaches 0 c &&
        seen[c].any fun x => decide (x.off.natAbs ≤ 100000000) && decide (x.fast = s.candFast c)

/-- SPLL_PHASE8_TIMEOUT of a bay leaves its SPLL unlocked and its clocks gated. -/
def Claims.StartUpPhases.spllPhase8Timeout_done : Prop :=
  ∀ (s : State) (b : BayNo), s.inPhase 7 = true → s.alive b = true → (s.bay b).clk.unlockEpisode = false →
    ∃ t, exec (.spllPhase8Timeout b) s = .next t ∧ (t.bay b).clk.spllLock = false ∧ (t.bay b).clk.spllLol = true ∧
      (t.bay b).clk.gated = true ∧ (t.bay b).tbs.tdcCoarse = true

/-- ADC_INIT_CAL_DONE ends phase 9: in a powered converter the seventeenth good slice, if there is one, is the spare, and the
slices run on the coefficients found where the passes agreed, else on the factory's. -/
def Claims.StartUpPhases.adcInitCalDone_done : Prop :=
  ∀ (s : State) (res : List AdcInit) (x : AdcInit), s.inPhase 8 = true → s.frontOn x.bay x.input = true →
    res.find? (fun e => decide (e.bay = x.bay ∧ e.input = x.input)) = some x →
    ∃ t, exec (.adcInitCalDone res) s = .next t ∧ t.img.boot.phase = 9 ∧ (t.bay x.bay).adc[x.input].faulty = x.bad ∧
      (t.bay x.bay).adc[x.input].spare = ((List.finRange 17).filter fun k => !x.bad.getLsbD k.val)[16]? ∧
      (t.bay x.bay).adc[x.input].incoming = none ∧
      (t.bay x.bay).adc[x.input].coefs = if x.agreed then coefVector x.coefs else factoryCoefs x.bay x.input

/-- FE_CAL_DONE ends start-up: a package on its own or a leader is in RUN, a follower in READY. -/
def Claims.StartUpPhases.feCalDone_done : Prop :=
  ∀ (s : State) (runs : List FeRun), s.inPhase 9 = true →
    ∃ t, exec (.feCalDone runs) s = .next t ∧ t.img.boot.active = false ∧ t.img.boot.phase = 10 ∧
      t.img.state = (if s.leads then .run else .ready)

/-- IMAGE_RESTART outside start-up starts again from phase 5 with the slot it names first; the grid stops. -/
def Claims.StartUpPhases.imageRestart_done : Prop :=
  ∀ (s s1 : State) (tag : Word) (second : Bool), s.takeCommand = some s1 → s1.img.state ≠ .start →
    ∃ t, exec (.imageRestart tag second) s = .next t ∧ t.img.state = .start ∧ t.img.boot.active = true ∧ t.img.boot.phase = 4 ∧
      t.img.boot.order = (if second then [true, false] else [false, true]) ∧ t.tbs.grid.running = false ∧ t.trg = TrgPkg.reset

/-- The phases of start-up. -/
def Obligations.StartUpPhases : Prop :=
  Claims.StartUpPhases.lagoonFloodDone_done ∧
  Claims.StartUpPhases.bootRomDone_done ∧
  Claims.StartUpPhases.d2dTrainDone_done ∧
  Claims.StartUpPhases.discoverDone_done ∧
  Claims.StartUpPhases.discoverTimeout_done ∧
  Claims.StartUpPhases.shoalSectionReadDone_done ∧
  Claims.StartUpPhases.imageReadDone_done ∧
  Claims.StartUpPhases.imageReadDone_safe ∧
  Claims.StartUpPhases.checkerDone_done ∧
  Claims.StartUpPhases.imageBroadcastDone_done ∧
  Claims.StartUpPhases.spllLockPhase8_time ∧
  Claims.StartUpPhases.spllLockPhase8_grid ∧
  Claims.StartUpPhases.spllPhase8Timeout_done ∧
  Claims.StartUpPhases.adcInitCalDone_done ∧
  Claims.StartUpPhases.feCalDone_done ∧
  Claims.StartUpPhases.imageRestart_done

/-- A taken SET_LIVE whose field every selected bay declares, whose value fits and which needs no log slot is accepted: the
value waits last, after values of the same field and apply point lose the bays it selects, and the command completes with
OK. -/
def Claims.LiveValuesAndProfiles.setLive_accepted : Prop :=
  ∀ (s u : State) (tag key value : Word) (f : Field) (i : Nat),
    s.takeCommand = some u → u.inStates true = true →
    findField (keyOfWord key.toNat).block (keyOfWord key.toNat).id = some (f, i) →
    u.keyMask f (keyOfWord key.toNat) ≠ 0 →
    (∀ b ∈ maskList (u.keyMask f (keyOfWord key.toNat)), u.declsOf (keyOfWord key.toNat) b ≠ []) →
    formOk f value.toNat = true → inRange u.part.bays f (valueOf f value.toNat) = true →
    (∀ b ∈ maskList (u.keyMask f (keyOfWord key.toNat)), ∀ d ∈ u.declsOf (keyOfWord key.toNat) b,
      d.min ≤ valueOf f value.toNat ∧ valueOf f value.toNat ≤ d.max ∧ d.log = false) →
    (∀ b ∈ maskList (u.keyMask f (keyOfWord key.toNat)),
      sideIn (fun b => Vals.nat u.vals Fld.mcoSealCores b) f (keyOfWord key.toNat) b = .opened) →
    ∃ t, exec (.setLive tag key value false) s = .next t ∧
      t.img.waiting.getLast? = some (.value (keyOfWord key.toNat) (u.keyMask f (keyOfWord key.toNat)) (valueOf f value.toNat) f.apply u.applyLead false false) ∧
      t.vals = s.vals ∧ ∃ v : State, t = v.complete 1 tag stOk 0 (if f.apply = .epoch then u.boundaryFrom u.applyLead else u.now)

/-- A taken SET_LIVE whose key no declaration covers completes with NOT_LIVE and its key, and changes nothing else. -/
def Claims.LiveValuesAndProfiles.setLive_notLive : Prop :=
  ∀ (s u : State) (tag key value : Word) (defer : Bool),
    s.takeCommand = some u → u.inStates true = true → (∃ im, u.img.image = some im ∧ im.live = []) →
    ∃ t, exec (.setLive tag key value defer) s = .next t ∧ t = u.complete 1 tag stNotLive key u.now

/-- A taken SELECT_PROFILE of a present profile, pins not switching, waits for its EPOCH point with a log slot held, and
completes with OK and the boundary. -/
def Claims.LiveValuesAndProfiles.selectProfile_accepted : Prop :=
  ∀ (s u : State) (tag : Word) (p : BitVec 4),
    s.takeCommand = some u → u.inStates true = true → u.pkgN Fld.imgProfilePinSwitch ≠ 1 → u.hasProfile p.toNat = true →
    u.keeper.freeSlots ≠ 0 → u.keeper.full = false →
    ∃ t, exec (.selectProfile tag p) s = .next t ∧
      t.img.waiting = s.img.waiting ++ [.profile p.toNat u.applyLead false] ∧
      t = (u.acceptProfile p.toNat false).complete 2 tag stOk 0 (u.boundaryFrom u.applyLead)

/-- While pin switching is enabled a taken SELECT_PROFILE completes with PINS_OWN and changes nothing else. -/
def Claims.LiveValuesAndProfiles.selectProfile_pinsOwn : Prop :=
  ∀ (s u : State) (tag : Word) (p : BitVec 4),
    s.takeCommand = some u → u.inStates true = true → u.pkgN Fld.imgProfilePinSwitch = 1 →
    ∃ t, exec (.selectProfile tag p) s = .next t ∧ t = u.complete 2 tag stPinsOwn 0 u.now

/-- A taken SELECT_PROFILE of an absent profile completes with BAD_ARGUMENT and then raises 0x0121 with the profile named; every
waiting value keeps waiting. -/
def Claims.LiveValuesAndProfiles.selectProfile_absent : Prop :=
  ∀ (s u : State) (tag : Word) (p : BitVec 4),
    s.takeCommand = some u → u.inStates true = true → u.pkgN Fld.imgProfilePinSwitch ≠ 1 → u.hasProfile p.toNat = false →
    ∃ t, exec (.selectProfile tag p) s = .next t ∧ t.img.waiting = s.img.waiting ∧ t.vals = s.vals ∧
      t = (u.complete 2 tag stBadArgument 0 u.now).event 0 0x0121 [wd p.toNat]

/-- A stable new pin value that names an enabled present profile is a profile change; the pins taken are that value. -/
def Claims.LiveValuesAndProfiles.profilePinChange_accepted : Prop :=
  ∀ (s : State) (v : BitVec 4),
    s.alive 0 = true → s.inStates true = true → s.pkgN Fld.imgProfilePinSwitch = 1 → v ≠ s.img.pinsTaken →
    s.hasProfile v.toNat = true → (s.pkgN Fld.imgPinProfiles).testBit v.toNat = true →
    s.keeper.freeSlots ≠ 0 → s.keeper.full = false →
    ∃ t, exec (.profilePinChange v) s = .next t ∧ t.img.pins = v ∧ t.img.pinsTaken = v ∧ t.img.absentTold = none ∧
      t.img.waiting = s.img.waiting ++ [.profile v.toNat s.applyLead true]

/-- A stable new pin value that names an absent profile raises 0x0121 once and changes no profile. -/
def Claims.LiveValuesAndProfiles.profilePinChange_absent : Prop :=
  ∀ (s : State) (v : BitVec 4),
    s.alive 0 = true → s.inStates true = true → s.pkgN Fld.imgProfilePinSwitch = 1 → v ≠ s.img.pinsTaken →
    s.hasProfile v.toNat = false → s.img.absentTold ≠ some v →
    ∃ t, exec (.profilePinChange v) s = .next t ∧ t.img.absentTold = some v ∧ t.img.waiting = s.img.waiting ∧
      s.Told t 0 0x0121 [wd v.toNat]

/-- LIVE_APPLY_IMMEDIATE carries the oldest IMMEDIATE value that waits for the bay to it, and no other. -/
def Claims.LiveValuesAndProfiles.liveApplyImmediate_done : Prop :=
  ∀ (s : State) (b : BayNo) (w : Waiting),
    s.alive b = true →
    s.img.waiting.find? (fun w => w.appliesAt .immediate && (match w with
      | .value _ left _ _ _ _ _ => left.testBit b.val
      | .profile .. => false)) = some w →
    ∃ t, exec (.liveApplyImmediate b) s = .next t ∧ t = s.takeEffect b fun x => decide (x = w)

/-- SET_LIVE, SELECT_PROFILE, the PROFILE pins and IMMEDIATE values. -/
def Obligations.LiveValuesAndProfiles : Prop :=
  Claims.LiveValuesAndProfiles.setLive_accepted ∧
  Claims.LiveValuesAndProfiles.setLive_notLive ∧
  Claims.LiveValuesAndProfiles.selectProfile_accepted ∧
  Claims.LiveValuesAndProfiles.selectProfile_pinsOwn ∧
  Claims.LiveValuesAndProfiles.selectProfile_absent ∧
  Claims.LiveValuesAndProfiles.profilePinChange_accepted ∧
  Claims.LiveValuesAndProfiles.profilePinChange_absent ∧
  Claims.LiveValuesAndProfiles.liveApplyImmediate_done

/-- A taken SET_LIVE, in a state that accepts it, of a field for which a bay it selects has no live declaration completes with
NOT_LIVE; every setting, every waiting value and the seal log stay as they were. -/
def Claims.SetLiveRefusals.setLive_uncovered : Prop :=
  ∀ (s u : State) (tag key value : Word) (defer : Bool) (f : Field) (i : Nat),
    s.takeCommand = some u → u.inStates true = true →
    findField (keyOfWord key.toNat).block (keyOfWord key.toNat).id = some (f, i) →
    (∃ b ∈ maskList (u.keyMask f (keyOfWord key.toNat)), u.declsOf (keyOfWord key.toNat) b = []) →
    ∃ t, exec (.setLive tag key value defer) s = .next t ∧ t = u.complete 1 tag stNotLive key u.now ∧
      t.vals = s.vals ∧ t.img.waiting = s.img.waiting ∧ t.keeper.island = s.keeper.island ∧ t.flash = s.flash

/-- One of a value outside the declared range of a bay it selects completes with OUT_OF_RANGE, and all of that stays as it was
too. -/
def Claims.SetLiveRefusals.setLive_outside : Prop :=
  ∀ (s u : State) (tag key value : Word) (defer : Bool) (f : Field) (i : Nat),
    s.takeCommand = some u → u.inStates true = true →
    findField (keyOfWord key.toNat).block (keyOfWord key.toNat).id = some (f, i) →
    u.keyMask f (keyOfWord key.toNat) ≠ 0 →
    (∀ b ∈ maskList (u.keyMask f (keyOfWord key.toNat)), u.declsOf (keyOfWord key.toNat) b ≠ []) →
    (∃ b ∈ maskList (u.keyMask f (keyOfWord key.toNat)), ∃ d ∈ u.declsOf (keyOfWord key.toNat) b,
      valueOf f value.toNat < d.min ∨ d.max < valueOf f value.toNat) →
    ∃ t, exec (.setLive tag key value defer) s = .next t ∧ t = u.complete 1 tag stOutOfRange key u.now ∧
      t.vals = s.vals ∧ t.img.waiting = s.img.waiting ∧ t.keeper.island = s.keeper.island ∧ t.flash = s.flash

/-- SET_LIVE of an undeclared field or of a value outside its range. -/
def Obligations.SetLiveRefusals : Prop :=
  Claims.SetLiveRefusals.setLive_uncovered ∧
  Claims.SetLiveRefusals.setLive_outside

/-- The headland takes the command at the ring's head exactly where bay 0 lives, its control endpoint has its link up, may
master the bus and is not in D3hot, the command ring is enabled and not empty, events go to the event ring and that ring has
more free slots than the flash queue holds; the head index then moves on by one modulo the ring size. -/
def Claims.HostRings.takeCommand_when : Prop :=
  ∀ (s u : State),
    s.takeCommand = some u ↔
      s.alive 0 = true ∧ (s.bay 0).pci[4].linkUp = true ∧ (s.bay 0).pci[4].bme = true ∧ (s.bay 0).pci[4].d3 = false ∧
      s.img.cmd.enable = true ∧ s.img.cmd.used > 0 ∧ s.img.buffering = false ∧
      s.img.evt.space > s.img.flashQueue.length ∧
      u = s.modImg fun i => { i with cmd := { i.cmd with head := i.cmd.bump i.cmd.head } }

/-- IMG_CMD_TAIL_WRITE sets the producer index and nothing else. -/
def Claims.HostRings.imgCmdTailWrite_done : Prop :=
  ∀ (s : State) (v : BitVec 12), s.alive 0 = true →
    ∃ t, exec (.imgCmdTailWrite v) s = .next t ∧ t = s.modImg fun i => { i with cmd := { i.cmd with tail := v } }

/-- IMG_CMD_CFG_WRITE to a disabled ring takes SIZE_LOG2 and enables it where ENABLE is written with a size of 4 to 12; the base
and the indices stay. -/
def Claims.HostRings.imgCmdCfgWrite_enable : Prop :=
  ∀ (s : State) (v : Word), s.alive 0 = true → s.img.cmd.enable = false →
    ∃ t, exec (.imgCmdCfgWrite v) s = .next t ∧ t.img.cmd.sizeLog2 = v.extractLsb' 0 4 ∧
      (t.img.cmd.enable = true ↔ v.getLsbD 31 = true ∧ 4 ≤ (v.extractLsb' 0 4).toNat ∧ (v.extractLsb' 0 4).toNat ≤ 12) ∧
      t.img.cmd.base = s.img.cmd.base ∧ t.img.cmd.head = s.img.cmd.head ∧ t.img.cmd.tail = s.img.cmd.tail ∧
      t.img.cmd.vector = s.img.cmd.vector ∧ t.img.evt = s.img.evt

/-- To an enabled ring the same write changes no size; where it clears ENABLE both indices of the ring are zero. -/
def Claims.HostRings.imgCmdCfgWrite_enabled : Prop :=
  ∀ (s : State) (v : Word), s.alive 0 = true → s.img.cmd.enable = true →
    ∃ t, exec (.imgCmdCfgWrite v) s = .next t ∧ t.img.cmd.sizeLog2 = s.img.cmd.sizeLog2 ∧ t.img.cmd.base = s.img.cmd.base ∧
      t.img.cmd.enable = v.getLsbD 31 ∧
      t.img.cmd.head = (if v.getLsbD 31 = true then s.img.cmd.head else 0) ∧
      t.img.cmd.tail = (if v.getLsbD 31 = true then s.img.cmd.tail else 0) ∧ t.img.evt = s.img.evt

/-- IMG_EVT_CFG_WRITE to a ring past its first enable takes VECTOR and IRQ_ENABLE at any time; where it clears ENABLE both
indices are zero. -/
def Claims.HostRings.imgEvtCfgWrite_done : Prop :=
  ∀ (s : State) (v : Word), s.alive 0 = true → s.img.buffering = false → s.img.evt.enable = true →
    ∃ t, exec (.imgEvtCfgWrite v) s = .next t ∧ t.img.evt.vector = v.extractLsb' 8 8 ∧ t.img.evt.irq = v.getLsbD 30 ∧
      t.img.evt.enable = v.getLsbD 31 ∧ t.img.evt.sizeLog2 = s.img.evt.sizeLog2 ∧
      t.img.evt.head = (if v.getLsbD 31 = true then s.img.evt.head else 0) ∧
      t.img.evt.tail = (if v.getLsbD 31 = true then s.img.evt.tail else 0) ∧ t.img.cmd = s.img.cmd ∧
      t.outbox = s.outbox

/-- The first enable of the event ring ends the buffering of events and empties the buffer. -/
def Claims.HostRings.imgEvtCfgWrite_first : Prop :=
  ∀ (s : State) (v : Word), s.alive 0 = true → s.img.buffering = true → s.img.evt.enable = false →
    v.getLsbD 31 = true → 4 ≤ (v.extractLsb' 0 4).toNat → (v.extractLsb' 0 4).toNat ≤ 12 →
    ∃ t, exec (.imgEvtCfgWrite v) s = .next t ∧ t.img.buffering = false ∧ t.img.buffer = [] ∧ t.img.bufferDropped = 0 ∧
      t.img.evt.enable = true

/-- IMG_EVT_HEAD_WRITE sets the consumer index and nothing else. -/
def Claims.HostRings.imgEvtHeadWrite_done : Prop :=
  ∀ (s : State) (v : BitVec 12), s.alive 0 = true →
    ∃ t, exec (.imgEvtHeadWrite v) s = .next t ∧ t = s.modImg fun i => { i with evt := { i.evt with head := v } }

/-- IMG_EVT_LOST_READ clears the count and nothing else. -/
def Claims.HostRings.imgEvtLostRead_done : Prop :=
  ∀ (s : State), s.alive 0 = true →
    ∃ t, exec .imgEvtLostRead s = .next t ∧ t = s.modImg fun i => { i with lost := 0 }

/-- The host rings: when a command is taken, and the writes of their registers. -/
def Obligations.HostRings : Prop :=
  Claims.HostRings.takeCommand_when ∧
  Claims.HostRings.imgCmdTailWrite_done ∧
  Claims.HostRings.imgCmdCfgWrite_enable ∧
  Claims.HostRings.imgCmdCfgWrite_enabled ∧
  Claims.HostRings.imgEvtCfgWrite_done ∧
  Claims.HostRings.imgEvtCfgWrite_first ∧
  Claims.HostRings.imgEvtHeadWrite_done ∧
  Claims.HostRings.imgEvtLostRead_done

/-- A taken SNAPSHOT_AT at least T_b + 1 us ahead, fewer than two waiting, waits in stamp order and completes with OK; in a
shoal it goes to the other packages. -/
def Claims.RingCommands.snapshotAt_done : Prop :=
  ∀ (s u : State) (tag id : Word) (a : Stamp), s.takeCommand = some u → u.inStates true = true →
    stampLt a u.epochLead = false → u.tbs.snaps.length < 2 →
    ∃ t, exec (.snapshotAt tag a id) s = .next t ∧
      t.tbs.snaps = (u.tbs.snaps.filter fun x => stampLe x.1 a) ++ [(a, id)] ++ u.tbs.snaps.filter (fun x => !stampLe x.1 a) ∧
      ∃ v : State, t = if u.pkgN Fld.lnlShoalSize > 1 then (v.complete 8 tag stOk 0 u.now).emit (.packet "SNAPSHOT" 0 (stampWords a ++ [id]))
        else v.complete 8 tag stOk 0 u.now

/-- A taken ACQ_RESTART that selects a bay asks for a restart of the bays it selects and completes with OK. -/
def Claims.RingCommands.acqRestart_done : Prop :=
  ∀ (s u : State) (tag : Word) (mask : BitVec 8), s.takeCommand = some u → u.inStates true = true →
    maskOf (u.maskBays mask.toNat) ≠ 0 →
    ∃ t, exec (.acqRestart tag mask) s = .next t ∧
      t = (u.modImg fun i => { i with restartReq := i.restartReq ||| maskOf (u.maskBays mask.toNat) }).complete 9 tag stOk 0 u.now

/-- A taken command of an opcode the table does not list completes with UNKNOWN_OPCODE and changes nothing else. -/
def Claims.RingCommands.unknownOpcode_done : Prop :=
  ∀ (s u : State) (op : BitVec 8) (tag : Word), s.takeCommand = some u → (op.toNat = 0 ∨ 0x0E < op.toNat) →
    ∃ t, exec (.unknownOpcode op tag) s = .next t ∧ t = u.complete op.toNat tag stUnknown 0 u.now

/-- A taken NVM_READ joins the end of the flash queue with its status, and completes later. -/
def Claims.RingCommands.nvmRead_queued : Prop :=
  ∀ (s u : State) (tag off len : Word) (host : BitVec 64), s.takeCommand = some u →
    ∃ t, exec (.nvmRead tag off len host) s = .next t ∧
      t = u.modImg fun i => { i with flashQueue := i.flashQueue ++
        [{ op := .read, tag := tag, off := off.toNat, len := len.toNat, host := host, status := u.flashStatus .read off.toNat len.toNat, taken := u.now }] }

/-- NVM_ERASE likewise. -/
def Claims.RingCommands.nvmErase_queued : Prop :=
  ∀ (s u : State) (tag off len : Word), s.takeCommand = some u →
    ∃ t, exec (.nvmErase tag off len) s = .next t ∧
      t = u.modImg fun i => { i with flashQueue := i.flashQueue ++
        [{ op := .erase, tag := tag, off := off.toNat, len := len.toNat, host := 0, status := u.flashStatus .erase off.toNat len.toNat, taken := u.now }] }

/-- NVM_PROGRAM likewise. -/
def Claims.RingCommands.nvmProgram_queued : Prop :=
  ∀ (s u : State) (tag off len : Word) (host : BitVec 64), s.takeCommand = some u →
    ∃ t, exec (.nvmProgram tag off len host) s = .next t ∧
      t = u.modImg fun i => { i with flashQueue := i.flashQueue ++
        [{ op := .program, tag := tag, off := off.toNat, len := len.toNat, host := host, status := u.flashStatus .program off.toNat len.toNat, taken := u.now }] }

/-- SEAL_LOG_READ likewise, with the first entry number and the count. -/
def Claims.RingCommands.sealLogRead_queued : Prop :=
  ∀ (s u : State) (tag first count : Word) (host : BitVec 64), s.takeCommand = some u →
    ∃ t, exec (.sealLogRead tag first count host) s = .next t ∧
      t = u.modImg fun i => { i with flashQueue := i.flashQueue ++
        [{ op := .sealRead, tag := tag, off := first.toNat, len := count.toNat, host := host, status := u.flashStatus .sealRead first.toNat count.toNat, taken := u.now }] }

/-- An erase or a program that touches the seal log region has status FLASH_PROTECTED once the package has left START. -/
def Claims.RingCommands.flashStatus_protected : Prop :=
  ∀ (s : State) (off len : Nat), s.img.state ≠ .start → s.flash.touchesLog off len = true →
    s.flashStatus .program off len = stProtected ∧ s.flashStatus .erase off len = stProtected

/-- FLASH_COMMAND_DONE of an erase accepted with OK leaves every byte of its range erased and every other byte of the flash as
it was, and completes with OK. -/
def Claims.RingCommands.flashCommandDone_erase : Prop :=
  ∀ (s : State) (c : FlashCmd) (rest : List FlashCmd) (data : List Byte), s.img.flashQueue = c :: rest → s.alive 0 = true →
    c.status = 0 → c.op = .erase → Sparse.wf 0xFF#8 s.flash.bytes = true →
    ∃ t, exec (.flashCommandDone true data) s = .next t ∧ t.img.flashQueue = rest ∧
      (∀ a, Sparse.get 0xFF#8 t.flash.bytes a =
        if c.off ≤ a ∧ a < c.off + c.len then 0xFF#8 else Sparse.get 0xFF#8 s.flash.bytes a) ∧
      ∃ v : State, t = v.complete c.op.opcode c.tag stOk 0 c.taken

/-- One accepted with another status changes nothing but the queue and completes with that status. -/
def Claims.RingCommands.flashCommandDone_refused : Prop :=
  ∀ (s : State) (c : FlashCmd) (rest : List FlashCmd) (good : Bool) (data : List Byte), s.img.flashQueue = c :: rest → s.alive 0 = true →
    c.status ≠ 0 →
    ∃ t, exec (.flashCommandDone good data) s = .next t ∧
      t = (s.modImg fun i => { i with flashQueue := rest }).complete c.op.opcode c.tag c.status 0 c.taken

/-- Snapshot, restart, unknown opcodes and the flash commands of the command ring. -/
def Obligations.RingCommands : Prop :=
  Claims.RingCommands.snapshotAt_done ∧
  Claims.RingCommands.acqRestart_done ∧
  Claims.RingCommands.unknownOpcode_done ∧
  Claims.RingCommands.nvmRead_queued ∧
  Claims.RingCommands.nvmErase_queued ∧
  Claims.RingCommands.nvmProgram_queued ∧
  Claims.RingCommands.sealLogRead_queued ∧
  Claims.RingCommands.flashStatus_protected ∧
  Claims.RingCommands.flashCommandDone_erase ∧
  Claims.RingCommands.flashCommandDone_refused

/-- REF_LOSS_DETECT of the active candidate while LOCKED, in a bay whose reports reach the headland, starts the deglitch time at
t0, freezes the bay's clock control, opens an episode and leaves the candidate unqualified, present only if it is not
silent. -/
def Claims.ReferencesAndClocks.refLossDetect_active : Prop :=
  ∀ (s : State) (b : BayNo) (c : Cand) (t0 : Stamp) (silent : Bool),
    s.alive b = true → s.candExists c = true → (s.bay b).clk.present[c] = true → s.reports b = true → s.sel.active = some c →
    s.sel.state = .locked →
    ∃ t, exec (.refLossDetect b c t0 silent) s = .next t ∧
      t.sel.state = .deglitch ∧ t.sel.lost = some c ∧ t.sel.t0 = t0 ∧ t.sel.episode = true ∧
      (t.bay b).clk.frozen = true ∧ (t.bay b).clk.qualified[c] = false ∧ (t.bay b).clk.present[c] = !silent

/-- REF_DEGLITCH_END with another candidate to take begins build-out towards it within the episode. -/
def Claims.ReferencesAndClocks.refDeglitchEnd_switch : Prop :=
  ∀ (s : State) (resumed : Bool) (c l : Cand),
    s.sel.state = .deglitch → s.sel.lost = some l →
    s.chooseCand s.sel.prio (if resumed then some l else none) = some c →
    ∃ t, exec (.refDeglitchEnd resumed) s = .next t ∧
      t.sel.state = .buildOut ∧ t.sel.target = some c ∧ t.sel.episode = s.sel.episode ∧ t.vals = s.vals ∧ t.tbs = s.tbs

/-- REF_DEGLITCH_END with none to take enters holdover with no active candidate. -/
def Claims.ReferencesAndClocks.refDeglitchEnd_holdover : Prop :=
  ∀ (s : State) (l : Cand),
    s.sel.state = .deglitch → s.sel.lost = some l → s.chooseCand s.sel.prio none = none →
    ∃ t, exec (.refDeglitchEnd false) s = .next t ∧
      t.sel.state = .holdover ∧ t.sel.active = none ∧ t.sel.target = none ∧ t.sel.episode = s.sel.episode ∧
      t.vals = s.vals ∧ t.tbs = s.tbs

/-- BUILD_OUT_END takes the measured phase into every live bay, lifts the freeze and begins pull-in, 50 us after the build-out
began. -/
def Claims.ReferencesAndClocks.buildOutEnd_done : Prop :=
  ∀ (s : State) (phase : Int), s.sel.state = .buildOut →
    ∃ t, exec (.buildOutEnd phase) s = .next t ∧ t.sel = { s.sel with state := .pullIn, since := later s.sel.since (ofUs 50) } ∧
      (∀ b : BayNo, s.alive b = true → (t.bay b).clk.phaseOffset = phase ∧ (t.bay b).clk.frozen = false) ∧ t.vals = s.vals

/-- PULL_IN_DONE locks to the target, ends the episode and sets the frequency offset of every live bay, where no switch-back
follows. -/
def Claims.ReferencesAndClocks.pullInDone_locked : Prop :=
  ∀ (s : State) (freq : Int), s.sel.state = .pullIn → s.pkgN Fld.clkRevertive = 0 →
    ∃ t, exec (.pullInDone freq) s = .next t ∧ t.sel.state = .locked ∧ t.sel.active = s.sel.target ∧ t.sel.target = none ∧
      t.sel.episode = false ∧ (∀ b : BayNo, s.alive b = true → (t.bay b).clk.freqOffset = freq) ∧ t.vals = s.vals

/-- REF_QUALIFIED of an offset in tolerance in a bay but the headland, of a candidate that the headland sees no otherwise for
it, comes at the end of the window and records the candidate as present, qualified and not lost, and touches nothing else. -/
def Claims.ReferencesAndClocks.refQualified_bay : Prop :=
  ∀ (s : State) (b : BayNo) (c : Cand) (off : Int), s.alive b = true → s.candReaches b c = true → s.candWithin off = true →
    (s.bay b).clk.qualified[c] = false → (s.bay 0).clk.qualified[c] = false → b ≠ 0 →
    ∃ t, exec (.refQualified b c off) s = .next t ∧ (t.bay b).clk.qualified[c] = true ∧ (t.bay b).clk.present[c] = true ∧
      (t.bay b).clk.lostCand[c] = none ∧ (t.bay b).clk.window[c] = some (s.windowBegin b c) ∧ t.sel = s.sel ∧
      t.besides b (fun x => { x with clk := .reset }) =
        (s.reach (later (s.windowBegin b c).1 (ofMs (100 * (s.windowBegin b c).2)))).besides b fun x => { x with clk := .reset }

/-- REF_QUALIFIED in the headland of a listed candidate that no bay which reports has lost ends holdover by build-out towards
it. -/
def Claims.ReferencesAndClocks.refQualified_holdover : Prop :=
  ∀ (s : State) (c : Cand) (off : Int), s.alive 0 = true → s.candReaches 0 c = true → s.candWithin off = true →
    (s.bay 0).clk.qualified[c] = false → (∀ d : BayNo, d ≠ 0 → (s.bay d).clk.lostCand[c] = none) →
    s.sel.state = .holdover → c ∈ prioList s.sel.prio →
    ∃ t, exec (.refQualified 0 c off) s = .next t ∧ (t.bay 0).clk.qualified[c] = true ∧ t.sel.state = .buildOut ∧
      t.sel.target = some c ∧ t.sel.episode = s.sel.episode ∧ t.vals = s.vals ∧ t.tbs = s.tbs

/-- REF_DISQUALIFIED of an offset out of tolerance clears the candidate's qualification, starts the window of one that was not
qualified again and ends that of one that was, and keeps the frequency found. -/
def Claims.ReferencesAndClocks.refDisqualified_done : Prop :=
  ∀ (s : State) (b : BayNo) (c : Cand) (off : Int), s.alive b = true → s.candReaches b c = true → s.candWithin off = false →
    ∃ t, exec (.refDisqualified b c off) s = .next t ∧ (t.bay b).clk.qualified[c] = false ∧ (t.bay b).clk.present[c] = true ∧
      (t.bay b).clk.window[c] = (if (s.bay b).clk.qualified[c] then none else some (s.nowAt b, s.pkgN Fld.clkQualWindow)) ∧
      (t.bay b).clk.candFreq[c] = some (off + s.dpllFreq b (s.nowAt b)) ∧
      t.besides b (fun x => { x with clk := .reset }) = s.besides b fun x => { x with clk := .reset }

/-- CLK_SYSREF_FIRE in pulse mode with the clocks running starts a burst of the set number of SYSREF pulses and nothing else. -/
def Claims.ReferencesAndClocks.clkSysrefFire_done : Prop :=
  ∀ (s : State) (b : BayNo), s.alive b = true → (s.bay b).clk.gated = false → s.fldN Fld.clkSysrefMode b = 2 →
    ∃ t, exec (.clkSysrefFire b) s = .next t ∧ (t.bay b).clk = { (s.bay b).clk with sysrefLeft := s.fldN Fld.clkSysrefPulses b, sysrefFrom := none } ∧
      t.besides b (fun x => { x with clk := .reset }) = s.besides b fun x => { x with clk := .reset }

/-- CLK_FAULT_CNT_READ clears the counts that register shows; every other CLK register reads as before. -/
def Claims.ReferencesAndClocks.clkFaultCntRead_clears : Prop :=
  ∀ (s : State) (b : BayNo), s.alive b = true →
    ∃ t, exec (.clkFaultCntRead b) s = .next t ∧ t.clkReg b 0x10 = 0 ∧
      (∀ off, off ≠ 0x10 → t.clkReg b off = s.clkReg b off) ∧
      t.besides b (fun x => { x with clk := .reset }) = s.besides b fun x => { x with clk := .reset }

/-- SPLL_LOL_CLEAR clears the latched loss of lock and nothing else. -/
def Claims.ReferencesAndClocks.spllLolClear_done : Prop :=
  ∀ (s : State) (b : BayNo), s.alive b = true →
    ∃ t, exec (.spllLolClear b) s = .next t ∧ (t.bay b).clk = { (s.bay b).clk with spllLol := false } ∧
      t.besides b (fun x => { x with clk := .reset }) = s.besides b fun x => { x with clk := .reset }

/-- SPLL_STUCK_TIMEOUT in an unlock episode reports 0x0212 once and marks it as told. -/
def Claims.ReferencesAndClocks.spllStuckTimeout_told : Prop :=
  ∀ (s : State) (b : BayNo), s.alive b = true → (s.bay b).clk.unlockEpisode = true → (s.bay b).clk.stuckTold = false →
    ∃ t, exec (.spllStuckTimeout b) s = .next t ∧ s.Told t b 0x0212 [] ∧
      (t.bay b).clk = { (s.bay b).clk with stuckTold := true } ∧
      t.besides b (fun x => { x with clk := .reset }) = s.besides b fun x => { x with clk := .reset }

/-- Reference selection, the clocks' read-clear bits, SYSREF and the ADC enables. -/
def Obligations.ReferencesAndClocks : Prop :=
  Claims.ReferencesAndClocks.refLossDetect_active ∧
  Claims.ReferencesAndClocks.refDeglitchEnd_switch ∧
  Claims.ReferencesAndClocks.refDeglitchEnd_holdover ∧
  Claims.ReferencesAndClocks.buildOutEnd_done ∧
  Claims.ReferencesAndClocks.pullInDone_locked ∧
  Claims.ReferencesAndClocks.refQualified_bay ∧
  Claims.ReferencesAndClocks.refQualified_holdover ∧
  Claims.ReferencesAndClocks.refDisqualified_done ∧
  Claims.ReferencesAndClocks.clkSysrefFire_done ∧
  Claims.ReferencesAndClocks.clkFaultCntRead_clears ∧
  Claims.ReferencesAndClocks.spllLolClear_done ∧
  Claims.ReferencesAndClocks.spllStuckTimeout_told

/-- An edge that reaches the TDC of a living, connected bay whose time is set, after a long pulse and 50 ns or more after the
last stamped edge, is stamped with its pin time: to the nearest 0.25 ps, or FCLK period while the TDC reference is gated,
less the pin's delay. -/
def Claims.EdgesOfTheGrid.tdcEdge_stamps : Prop :=
  ∀ (s : State) (b : BayNo) (p : Fin 5) (a : Stamp), s.alive b = true → s.pinned b = true → (s.bay b).tbs.set = true →
    ((s.bay b).tbs.lastEdge[p].all fun l => !decide (stampDiff a l < (ofNs 50 : Nat))) = true →
    (s.tdcEdge b p a true).1 = some (toStep (if (s.bay b).tbs.tdcCoarse = true then 1280000000 else 4000000000000) a -
        BitVec.ofNat 96 (Config.pinDelay b p.val)) ∧
      ((s.tdcEdge b p a true).2.bay b).tbs.lastEdge[p] = some a

/-- One after a shorter pulse is not stamped; it is counted in TBS_EDGE_LOST, saturating at 255, but for SYSREF_IN. -/
def Claims.EdgesOfTheGrid.tdcEdge_short : Prop :=
  ∀ (s : State) (b : BayNo) (p : Fin 4) (a : Stamp), s.alive b = true → s.pinned b = true → (s.bay b).tbs.set = true →
    (s.tdcEdge b p.castSucc a false).1 = none ∧
      ((s.tdcEdge b p.castSucc a false).2.bay b).tbs.edgeLost[p] =
        (if (s.bay b).tbs.edgeLost[p] = 0xFF then 0xFF else (s.bay b).tbs.edgeLost[p] + 1)

/-- SYNC_IN_EDGE of TBS.SYNC_EDGE's polarity in the headland of a package on its own moves the grid as R157 says for the stamp
the TDC gives. -/
def Claims.EdgesOfTheGrid.syncInEdge_done : Prop :=
  ∀ (s s1 : State) (a u : Stamp) (long : Bool), s.tdcEdge 0 0 a long = (some u, s1) → s.pkgN Fld.lnlShoalSize ≤ 1 →
    s.tbs.grid.running = true → s.tbs.grid.window ≠ 0 →
    ∃ t, exec (.syncInEdge 0 a (decide (s.pkgN Fld.tbsSyncEdge = 1)) long false) s = .next t ∧
      t.tbs.grid = s.tbs.grid.onEdge u (s.bay 0).tbs.tdcCoarse ∧ t.vals = s.vals ∧ t.tbs.servo = s.tbs.servo

/-- In SEARCH an edge in the half-window before B, 1 us or more into the epoch, sets the boundary and locks the grid. -/
def Claims.EdgesOfTheGrid.onEdge_search : Prop :=
  ∀ (g : Grid) (a : Stamp) (rough : Bool), g.locked = false → g.past = none → g.edge = none →
    stampLe (moved g.next (-(g.window : Int))) a = true → stampLt a g.next = true → stampDiff a g.start ≥ (ofUs 1 : Nat) →
    g.onEdge a rough = { g with edge := some a, edgeCoarse := rough, locked := true, past := none }

/-- In SEARCH an edge up to W after a boundary that fell at its nominal place re-anchors the grid: the next nominal boundary
lies L after it. -/
def Claims.EdgesOfTheGrid.onEdge_late : Prop :=
  ∀ (g : Grid) (a b : Stamp) (rough : Bool), g.locked = false → g.past = some b → stampLe b a = true → stampLe a (later b g.window) = true →
    g.onEdge a rough = { g with origin := a, steps := 1, next := later a (durOf g.tens 100000000), reanchored := true, locked := true, past := none }

/-- In LOCKED an edge from B - W to B + W sets the boundary. -/
def Claims.EdgesOfTheGrid.onEdge_locked : Prop :=
  ∀ (g : Grid) (a : Stamp) (rough : Bool), g.locked = true → g.edge = none → stampLe (moved g.next (-(g.window : Int))) a = true →
    stampLe a (later g.next g.window) = true → stampDiff a g.start ≥ (ofUs 1 : Nat) →
    g.onEdge a rough = { g with edge := some a, edgeCoarse := rough, past := none }

/-- An edge before the half-window of B is ignored and counted. -/
def Claims.EdgesOfTheGrid.onEdge_ignored : Prop :=
  ∀ (g : Grid) (a : Stamp) (rough : Bool), g.past = none → stampLe (moved g.next (-(g.window : Int))) a = false → g.onEdge a rough = g.ignore

/-- SYNC_WINDOW_END in LOCKED without an edge puts the boundary at B + W, marked missed, returns the grid to SEARCH and raises
0x0311. -/
def Claims.EdgesOfTheGrid.syncWindowEnd_missed : Prop :=
  ∀ (s : State), s.tbs.grid.running = true → s.tbs.grid.window ≠ 0 → s.tbs.grid.locked = true → s.tbs.grid.edge = none →
    ∃ t, exec .syncWindowEnd s = .next t ∧ s.Told t 0 0x0311 [] ∧
      t.tbs.grid = { s.tbs.grid with edge := some (later s.tbs.grid.next s.tbs.grid.window), missed := true, locked := false }

/-- SYNC_IN edges, window ends and the epoch grid. -/
def Obligations.EdgesOfTheGrid : Prop :=
  Claims.EdgesOfTheGrid.tdcEdge_stamps ∧
  Claims.EdgesOfTheGrid.tdcEdge_short ∧
  Claims.EdgesOfTheGrid.syncInEdge_done ∧
  Claims.EdgesOfTheGrid.onEdge_search ∧
  Claims.EdgesOfTheGrid.onEdge_late ∧
  Claims.EdgesOfTheGrid.onEdge_locked ∧
  Claims.EdgesOfTheGrid.onEdge_ignored ∧
  Claims.EdgesOfTheGrid.syncWindowEnd_missed

/-- PPS_EDGE of TBS.PPS_EDGE's polarity in the headland under discipline 1, the servo not LOCKED, gives the servo the offset of
the edge, less the cable delay, from the nearest whole second. -/
def Claims.TimeServo.ppsEdge_offset : Prop :=
  ∀ (s s1 : State) (a u : Stamp) (long : Bool), s.tdcEdge 0 1 a long = (some u, s1) → s.packageNo = 0 →
    s.pkgN Fld.tbsDiscipline = 1 → s.tbs.servo.state ≠ .locked →
    ∃ t, exec (.ppsEdge 0 a (decide (s.pkgN Fld.tbsPpsEdge = 1)) long) s = .next t ∧
      t.tbs.servo.offset = offsetFromSecond (moved u (-(quarterPs (s.fld Fld.tbsPpsDelay 0)))) ∧ t.tbs.servo.rejects = 0

/-- SERVO_HOLDOVER_TIMEOUT while LOCKED enters HOLDOVER and raises 0x0304; the steering is the mean of the 10 s that ended 2.5 s
after the source was last heard, within TBS.SLEW_MAX. -/
def Claims.TimeServo.servoHoldoverTimeout_done : Prop :=
  ∀ (s : State), s.tbs.servo.state = .locked →
    ∃ t, exec .servoHoldoverTimeout s = .next t ∧ s.Told t 0 0x0304 [] ∧ t.tbs.servo.state = .holdover ∧
      t.tbs.servo.rateAdj = max (-s.slewMax) (min s.slewMax (s.reach (later s.tbs.servo.heard (ofMs 2500))).meanRate)

/-- LINK_DELAY_MEASURE of a port that is up keeps the delay found; of a die-to-die port, or in a package on its own, it does
nothing else. -/
def Claims.TimeServo.linkDelayMeasure_done : Prop :=
  ∀ (s : State) (b : BayNo) (p : Fin 5) (d : Nat) (lead : Option LeaderTime), s.isUp b p = true →
    (p.val < 3 ∨ s.pkgN Fld.lnlShoalSize ≤ 1) →
    ∃ t, exec (.linkDelayMeasure b p d lead) s = .next t ∧ t = s.modLinkPort b p fun x => { x with delay := d }

/-- Over the upstream link of a follower after its phase 8 the headland takes the leader's time, less the delay with
TBS.UP_ASYM, its steps, its settings and its grid, in every bay on its side. -/
def Claims.TimeServo.linkDelayMeasure_follows : Prop :=
  ∀ (s : State) (b b' : BayNo) (n : Fin 2) (d : Nat) (l : LeaderTime), s.isUp b ⟨n.val + 3, by omega⟩ = true → s.upstream = some n →
    s.alive 0 = true → (s.bay 0).tbs.set = true → (s.bay 0).tbs.islanded = false → (s.bay 0).tbs.source ≠ .leader →
    s.tbs.adopted = false → s.tbs.away = none → l.restarting = false → s.alive b' = true → (s.bay b').tbs.islanded = false →
    ∃ t, exec (.linkDelayMeasure b ⟨n.val + 3, by omega⟩ d (some l)) s = .next t ∧
      t.now = moved l.stamp (quarterPs (d + s.fld Fld.tbsUpAsym 0)) ∧ t.tbs.leader = some l ∧ t.tbs.adopted = true ∧
      t.tbs.grid = l.grid ∧ t.tbs.servo.step = l.step ∧ (t.bay b').tbs.source = .leader ∧ (t.bay b').tbs.epoch = l.grid.number

/-- Over another link the leader, or a follower that has the leader's time, sends the shoal's time on with TBS.DOWN_ASYM. -/
def Claims.TimeServo.linkDelayMeasure_sends : Prop :=
  ∀ (s : State) (b : BayNo) (n : Fin 2) (d : Nat) (lead : Option LeaderTime), s.isUp b ⟨n.val + 3, by omega⟩ = true →
    s.pkgN Fld.lnlShoalSize > 1 → s.upstream ≠ some n → (s.packageNo = 0 ∨ s.tbs.adopted = true) →
    ∃ t, exec (.linkDelayMeasure b ⟨n.val + 3, by omega⟩ d lead) s = .next t ∧
      t = (s.modLinkPort b ⟨n.val + 3, by omega⟩ fun x => { x with delay := d }).emit
        (.packet "SHOAL_TIME" n.val (stampWords (moved s.now (quarterPs (s.fld Fld.tbsDownAsym 0)))))

/-- With both links up and no ring link down, a follower's upstream link is the first of the shorter way to package 0, and link
1 when both ways are equally long. -/
def Claims.TimeServo.upstream_ring : Prop :=
  ∀ (s : State), s.pkgN Fld.lnlShoalSize > 1 → s.packageNo ≠ 0 → s.lnl.ext[(0 : Fin 2)].port.up = true →
    s.lnl.ext[(1 : Fin 2)].port.up = true → s.lnl.cuts = [] →
    s.upstream = some (if 2 * s.packageNo.toNat ≤ s.pkgN Fld.lnlShoalSize then 1 else 0)

/-- With its link 1 down it follows the chain that is left. -/
def Claims.TimeServo.upstream_chain : Prop :=
  ∀ (s : State), s.pkgN Fld.lnlShoalSize > 1 → s.packageNo ≠ 0 → s.lnl.ext[(0 : Fin 2)].port.up = true →
    s.lnl.ext[(1 : Fin 2)].port.up = false → s.lnl.cuts = [] → s.upstream = some 0

/-- TBS_NOW_READ latches the tide stamp of its bay and changes nothing else. -/
def Claims.TimeServo.tbsNowRead_done : Prop :=
  ∀ (s : State) (b : BayNo), s.alive b = true →
    ∃ t, exec (.tbsNowRead b) s = .next t ∧ t = s.modTbs b fun x => { x with nowLatch := s.nowAt b }

/-- TBS_EDGE_LOST_READ clears the four counts of its bay and changes nothing else. -/
def Claims.TimeServo.tbsEdgeLostRead_done : Prop :=
  ∀ (s : State) (b : BayNo), s.alive b = true →
    ∃ t, exec (.tbsEdgeLostRead b) s = .next t ∧ t = s.modTbs b fun x => { x with edgeLost := Vector.replicate 4 0 }

/-- SNAPSHOT_TAKE carries out the first waiting snapshot: every living bay holds its stamp and id. -/
def Claims.TimeServo.snapshotTake_done : Prop :=
  ∀ (s : State) (a : Stamp) (id : Word) (rest : List (Stamp × Word)) (b : BayNo), s.tbs.snaps = (a, id) :: rest → s.alive b = true →
    ∃ t, exec (.snapshotTake none) s = .next t ∧ t.tbs.snaps = rest ∧ (t.bay b).tbs.snapStamp = a ∧ (t.bay b).tbs.snapId = id

/-- In a shoal a snapshot of another package is taken the same way. -/
def Claims.TimeServo.snapshotTake_remote : Prop :=
  ∀ (s : State) (a : Stamp) (id : Word) (b : BayNo), s.pkgN Fld.lnlShoalSize > 1 → s.alive 0 = true → s.alive b = true →
    ∃ t, exec (.snapshotTake (some (a, id))) s = .next t ∧ t.tbs.snaps = s.tbs.snaps ∧ (t.bay b).tbs.snapStamp = a ∧ (t.bay b).tbs.snapId = id

/-- The servo, the link delay and the leader's time, the reads of TBS and the snapshot. -/
def Obligations.TimeServo : Prop :=
  Claims.TimeServo.ppsEdge_offset ∧
  Claims.TimeServo.servoHoldoverTimeout_done ∧
  Claims.TimeServo.linkDelayMeasure_done ∧
  Claims.TimeServo.linkDelayMeasure_follows ∧
  Claims.TimeServo.linkDelayMeasure_sends ∧
  Claims.TimeServo.upstream_ring ∧
  Claims.TimeServo.upstream_chain ∧
  Claims.TimeServo.tbsNowRead_done ∧
  Claims.TimeServo.tbsEdgeLostRead_done ∧
  Claims.TimeServo.snapshotTake_done ∧
  Claims.TimeServo.snapshotTake_remote

/-- While the servo is LOCKED, an edge of PPS_IN that the TDC stamps more than 1 ms, with the cable delay taken off, from the
nearest whole second is rejected and counted: it steers nothing. With the third such edge in a row the servo is ACQUIRING;
before it, it stays LOCKED. -/
def Claims.PpsRejection.ppsEdge_rejected : Prop :=
  ∀ (s s1 : State) (a u : Stamp) (long : Bool), s.tdcEdge 0 1 a long = (some u, s1) → s.packageNo = 0 →
    (s.pkgN Fld.tbsDiscipline = 1 ∨ s.pkgN Fld.tbsDiscipline = 3) → s.tbs.servo.state = .locked →
    (offsetFromSecond (moved u (-(quarterPs (s.fld Fld.tbsPpsDelay 0))))).natAbs > ofMs 1 →
    ∃ t, exec (.ppsEdge 0 a (decide (s.pkgN Fld.tbsPpsEdge = 1)) long) s = .next t ∧ t.tbs.servo.rejected = s.tbs.servo.rejected + 1 ∧
      t.tbs.servo.offset = s.tbs.servo.offset ∧ t.tbs.servo.rateAdj = s.tbs.servo.rateAdj ∧
      (t.tbs.servo.state, t.tbs.servo.rejects) = (if s.tbs.servo.rejects + 1 ≥ 3 then (.acquiring, 0) else (.locked, s.tbs.servo.rejects + 1))

/-- Any other edge it takes ends the row: the count of consecutive rejections is 0 again. -/
def Claims.PpsRejection.ppsEdge_consecutive : Prop :=
  ∀ (s s1 : State) (a u : Stamp) (long : Bool), s.tdcEdge 0 1 a long = (some u, s1) → s.packageNo = 0 →
    (s.pkgN Fld.tbsDiscipline = 1 ∨ s.pkgN Fld.tbsDiscipline = 3) →
    (s.tbs.servo.state ≠ .locked ∨ (offsetFromSecond (moved u (-(quarterPs (s.fld Fld.tbsPpsDelay 0))))).natAbs ≤ ofMs 1) →
    ∃ t, exec (.ppsEdge 0 a (decide (s.pkgN Fld.tbsPpsEdge = 1)) long) s = .next t ∧ t.tbs.servo.rejects = 0 ∧ t.tbs.servo.rejected = s.tbs.servo.rejected

/-- A PPS edge far from the second is rejected while LOCKED, and the third in a row returns the servo to ACQUIRING. -/
def Obligations.PpsRejection : Prop :=
  Claims.PpsRejection.ppsEdge_rejected ∧
  Claims.PpsRejection.ppsEdge_consecutive

/-- After a hop boundary of a running bay no value waits that the boundary concerns. -/
def Claims.HopsRestartsAndLock.hopBoundary_takes : Prop :=
  ∀ (s : State) (b : BayNo) (x : Fin 2) (t0 : Stamp), s.alive b = true → stampLt t0 s.now = false → (s.bay b).clk.restarting = false →
    (s.transforms b x = true → s.frameStartsAt b x t0 = true) → s.img.state = .run →
    ∃ t, exec (.hopBoundary b x t0) s = .next t ∧
      (∀ w ∈ t.img.waiting, (s.reach t0).hopTakes b ((s.reach t0).hopScope b x) false w = false)

/-- A window that waits for a channel alone takes effect there. -/
def Claims.HopsRestartsAndLock.hopBoundary_window : Prop :=
  ∀ (s : State) (b : BayNo) (x : Fin 2) (t0 : Stamp) (v : Int) (p : Stamp), s.alive b = true → stampLt t0 s.now = false → (s.bay b).clk.restarting = false →
    (s.transforms b x = true → s.frameStartsAt b x t0 = true) → s.img.state = .run →
    s.img.waiting = [.value { block := Fld.xfmChWindow.block, id := Fld.xfmChWindow.id + Fld.xfmChWindow.stride * x.val, mask := 2 ^ b.val } (2 ^ b.val) v .hop p false false] →
    ∃ t, exec (.hopBoundary b x t0) s = .next t ∧ t.fld Fld.xfmChWindow b x.val = v ∧ t.img.waiting = []

/-- A restart that was asked for begins at once in a bay of the mainland without a calibration run: the bay stands in it, with
its reason, and is asked for no more. -/
def Claims.HopsRestartsAndLock.acqRestartBegin_begins : Prop :=
  ∀ (s : State) (b : BayNo), s.alive b = true → s.restartAsked b = true → (s.bay b).clk.restarting = false → (s.calIn b 0).run = none →
    (s.calIn b 1).run = none → s.img.state = .run → s.quiet = false → (s.bay b).tbs.islanded = false →
    ∃ t, exec (.acqRestartBegin b) s = .next t ∧ (t.bay b).clk.restarting = true ∧
      (t.bay b).clk.restartReason = (if s.clockWrite b then .clockWrite else .acqRestart) ∧ t.restartAsked b = false

/-- It waits for a calibration run under way. -/
def Claims.HopsRestartsAndLock.acqRestartBegin_waits : Prop :=
  ∀ (s : State) (b : BayNo) (x : Fin 2), (s.calIn b x).run.isSome = true → ∃ t, exec (.acqRestartBegin b) s = .next t ∧ t = s

/-- At its end the bay stands in no restart, pulsed SYSREF is due again, and EV_ACQ_RESTART tells the bay and the reason. -/
def Claims.HopsRestartsAndLock.acqRestartEnd_done : Prop :=
  ∀ (s : State) (b : BayNo) (t0 : Stamp), s.alive b = true → (s.bay b).clk.restarting = true → (s.bay b).clk.gated = false → stampLt t0 s.now = false →
    ∃ t, exec (.acqRestartEnd b t0) s = .next t ∧ (t.bay b).clk.restarting = false ∧
      (t.bay b).clk.sysrefLeft = (if s.fldN Fld.clkSysrefMode b = 2 then s.fldN Fld.clkSysrefPulses b else (s.bay b).clk.sysrefLeft) ∧
      (∃ u : State, t = u.event 0 0x0123 [wd (2 ^ b.val), wd (s.bay b).clk.restartReason.code])

/-- A loss of the SPLL's lock gates its outputs, counts once for the episode, and the TDC falls back to FCLK periods. -/
def Claims.HopsRestartsAndLock.spllLossOfLock_first : Prop :=
  ∀ (s : State) (b : BayNo) (t0 : Stamp), s.alive b = true → (s.bay b).clk.spllLock = true → (s.bay b).clk.unlockEpisode = false →
    ∃ t, exec (.spllLossOfLock b t0) s = .next t ∧ (t.bay b).clk.spllLock = false ∧ (t.bay b).clk.gated = true ∧ (t.bay b).clk.spllLol = true ∧
      (t.bay b).clk.unlockEpisode = true ∧ (t.bay b).clk.unlocks = satAdd 0xFFFF (s.bay b).clk.unlocks 1 ∧ (t.bay b).tbs.tdcCoarse = true

/-- A loss within an episode belongs to it and is not counted. -/
def Claims.HopsRestartsAndLock.spllLossOfLock_again : Prop :=
  ∀ (s : State) (b : BayNo) (t0 : Stamp), s.alive b = true → (s.bay b).clk.unlockEpisode = true →
    ∃ t, exec (.spllLossOfLock b t0) s = .next t ∧ t = s.modClk b fun k => { k with spllLock := false, spllLol := true }

/-- A fresh lock ends the episode: the outputs and the TDC's resolution return. -/
def Claims.HopsRestartsAndLock.spllRelock_done : Prop :=
  ∀ (s : State) (b : BayNo) (t0 : Stamp), s.alive b = true → (s.bay b).clk.unlockEpisode = true → stampLt t0 s.now = false →
    ∃ t, exec (.spllRelock b t0) s = .next t ∧ (t.bay b).clk.spllLock = true ∧ (t.bay b).clk.gated = false ∧ (t.bay b).clk.unlockEpisode = false ∧
      (t.bay b).tbs.tdcCoarse = false ∧ (t.bay b).clk.unlocks = (s.bay b).clk.unlocks ∧ (t.bay b).clk.restarting = false

/-- A bay whose CPLL loses lock is lost, with its clocks; nothing of the other bays' records or settings goes with it. -/
def Claims.HopsRestartsAndLock.cpllLossOfLock_lost : Prop :=
  ∀ (s : State) (b : BayNo), s.alive b = true → (s.bay b).clk.cpllLock = true →
    ∃ t, exec (.cpllLossOfLock b) s = .next t ∧ (t.bay b).lost = true ∧ (t.bay b).clk.cpllLock = false ∧ (t.bay b).clk.gated = true ∧
      (∀ c : BayNo, c ≠ b → (t.bay c).lost = (s.bay c).lost) ∧ t.vals = s.vals

/-- Hop boundaries, acquisition restarts and losses of lock. -/
def Obligations.HopsRestartsAndLock : Prop :=
  Claims.HopsRestartsAndLock.hopBoundary_takes ∧
  Claims.HopsRestartsAndLock.hopBoundary_window ∧
  Claims.HopsRestartsAndLock.acqRestartBegin_begins ∧
  Claims.HopsRestartsAndLock.acqRestartBegin_waits ∧
  Claims.HopsRestartsAndLock.acqRestartEnd_done ∧
  Claims.HopsRestartsAndLock.spllLossOfLock_first ∧
  Claims.HopsRestartsAndLock.spllLossOfLock_again ∧
  Claims.HopsRestartsAndLock.spllRelock_done ∧
  Claims.HopsRestartsAndLock.cpllLossOfLock_lost

/-- At a boundary of the mainland every living bay that follows the headland counts the same next epoch, which starts at the
boundary. -/
def Claims.EpochBoundaries.epochBoundary_main : Prop :=
  ∀ (s : State) (t0 : Stamp), s.alive 0 = true → s.tbs.grid.running = true → (s.bay 0).lnl.island = none → s.tbs.grid.due = some t0 →
    (s.reach t0).tbs.servo.step = none →
    ∃ t, exec (.epochBoundary 0) s = .next t ∧ t.tbs.grid.number = s.tbs.grid.number + 1 ∧ t.tbs.grid.start = t0 ∧ t.tbs.grid.edge = none ∧
      (∀ b ∈ s.liveBays, (s.bay b).tbs.islanded = false → (t.bay b).tbs.epoch = s.tbs.grid.number + 1 ∧ (t.bay b).tbs.epochStart = t0)

/-- A bay of an island does not follow it. -/
def Claims.EpochBoundaries.epochBoundary_islanded : Prop :=
  ∀ (s : State) (t0 : Stamp) (b : BayNo), s.alive 0 = true → s.tbs.grid.running = true → (s.bay 0).lnl.island = none → s.tbs.grid.due = some t0 →
    (s.bay b).tbs.islanded = true →
    ∃ t, exec (.epochBoundary 0) s = .next t ∧ (t.bay b).tbs.epoch = (s.bay b).tbs.epoch ∧ (t.bay b).tbs.epochStart = (s.bay b).tbs.epochStart

/-- In LOCKED with a window the boundary is held until an edge or the end of the window. -/
def Claims.EpochBoundaries.epochBoundary_held : Prop :=
  ∀ (s : State), (s.bay 0).lnl.island = none → s.tbs.grid.locked = true → s.tbs.grid.window ≠ 0 → s.tbs.grid.edge = none →
    ∃ t, exec (.epochBoundary 0) s = .next t ∧ t = s

/-- After a boundary that no edge set, the next nominal one lies on the same multiples of the length, moved by the step taken;
after one that an edge set it lies a length after it; after a change of the length, a length after the place where the next
one lay. -/
def Claims.EpochBoundaries.gridAfter_next : Prop :=
  ∀ (s : State) (g : Grid) (u : Stamp) (d : Int),
    (s.gridAfter g u d).number = g.number + 1 ∧ (s.gridAfter g u d).start = u ∧ (s.gridAfter g u d).len = s.gridLen ∧ (s.gridAfter g u d).window = s.gridWindow ∧
      (s.gridAfter g u d).next =
        (if g.missed = true ∨ g.edge = none then
          (if s.gridTens = g.tens then later (moved g.origin d) (durOf ((g.steps + 1) * g.tens) 100000000) else later (moved g.next d) s.gridLen)
        else later u s.gridLen)

/-- A boundary of an island falls at the nominal place counted from where its grid began, and its bays alone count it. -/
def Claims.EpochBoundaries.epochBoundary_island : Prop :=
  ∀ (s : State) (h : BayNo) (i : Isle), s.alive h = true → s.tbs.grid.running = true → (s.bay h).lnl.island = some i → i.holder = h →
    ∃ t, exec (.epochBoundary h) s = .next t ∧
      (∀ b ∈ s.liveBays, i.bays.getLsbD b.val = true →
        (t.bay b).tbs.epoch = (s.bay h).tbs.epoch + 1 ∧ (t.bay b).tbs.epochStart =
          later i.gridFrom (durOf (((s.bay h).tbs.epoch + 1 - i.gridAt).toNat * s.tbs.grid.tens) 100000000)) ∧
      (∀ b : BayNo, i.bays.getLsbD b.val = false → (t.bay b).tbs.epoch = (s.bay b).tbs.epoch)

/-- The epoch boundary of the mainland and of an island. -/
def Obligations.EpochBoundaries : Prop :=
  Claims.EpochBoundaries.epochBoundary_main ∧
  Claims.EpochBoundaries.epochBoundary_islanded ∧
  Claims.EpochBoundaries.epochBoundary_held ∧
  Claims.EpochBoundaries.gridAfter_next ∧
  Claims.EpochBoundaries.epochBoundary_island

/-- OVERLOAD_TRIP of a working front end with running clocks, on a peak above the threshold or a clipped sample, with no open
interval, opens one at its instant less the detector's delay, counts it, adds the clipped samples, and without automatic
stepping leaves the attenuation as it is. -/
def Claims.FrontEnd.overloadTrip_opens : Prop :=
  ∀ (s : State) (b : BayNo) (i : Fin 2) (a : Stamp) (v : Int) (n : Nat), s.frontWorks b i = true → (s.bay b).clk.gated = false →
    stampLt a s.now = false → (s.ovlLevel b < v ∨ n ≠ 0) →
    (s.bay b).afe.inputs[i].overload = false → s.fldN Fld.afeAutoMode b = 0 →
    ∃ t, exec (.overloadTrip b i a v n) s = .next t ∧ (t.bay b).afe.inputs[i].overload = true ∧
      (t.bay b).afe.inputs[i].intervals = (moved a (-(Config.detectorDelay b i.val : Int)), none) :: (s.bay b).afe.inputs[i].intervals ∧
      (t.bay b).afe.inputs[i].ovlCount = (s.bay b).afe.inputs[i].ovlCount + 1 ∧ (t.bay b).afe.inputs[i].lastTrip = a ∧
      (t.bay b).afe.inputs[i].step = (s.bay b).afe.inputs[i].step ∧ (t.bay b).afe.inputs[i].trim = (s.bay b).afe.inputs[i].trim ∧
      (t.bay b).adc[i].clips = (s.bay b).adc[i].clips + BitVec.ofNat 32 n ∧ (t.bay b).ddc = (s.bay b).ddc

/-- With automatic stepping, the front end settled and not held, and the attenuation below AFE.AUTO_MAX, it raises the
attenuation by AFE.AUTO_STEP, to AFE.AUTO_MAX at most, counts that, keeps the trim and starts to settle. -/
def Claims.FrontEnd.overloadTrip_step : Prop :=
  ∀ (s : State) (b : BayNo) (i : Fin 2) (a : Stamp) (v : Int) (n : Nat), s.frontWorks b i = true → stampLt a s.now = false →
    (s.ovlLevel b < v ∨ n ≠ 0) →
    s.fldN Fld.afeAutoMode b ≠ 0 → s.autoHeld b i = false → (s.bay b).afe.inputs[i].settled = true →
    (s.bay b).afe.inputs[i].step < s.fldN Fld.afeAutoMax b →
    ∃ t, exec (.overloadTrip b i a v n) s = .next t ∧
      (t.bay b).afe.inputs[i].step = min ((s.bay b).afe.inputs[i].step + s.fldN Fld.afeAutoStep b) (s.fldN Fld.afeAutoMax b) ∧
      (t.bay b).afe.inputs[i].autoUp = (s.bay b).afe.inputs[i].autoUp + 1 ∧
      (t.bay b).afe.inputs[i].trim = (s.bay b).afe.inputs[i].trim ∧ (t.bay b).afe.inputs[i].settled = false

/-- While the front end has not settled a trip never steps. -/
def Claims.FrontEnd.overloadTrip_unsettled : Prop :=
  ∀ (s : State) (b : BayNo) (i : Fin 2) (a : Stamp) (v : Int) (n : Nat), s.frontWorks b i = true → (s.bay b).clk.gated = false →
    stampLt a s.now = false → (s.ovlLevel b < v ∨ n ≠ 0) → (s.bay b).afe.inputs[i].settled = false →
    ∃ t, exec (.overloadTrip b i a v n) s = .next t ∧ (t.bay b).afe.inputs[i].step = (s.bay b).afe.inputs[i].step ∧
      (t.bay b).afe.inputs[i].autoUp = (s.bay b).afe.inputs[i].autoUp ∧ (t.bay b).afe.inputs[i].overload = true

/-- OVERLOAD_CLOSE of an open interval closes it AFE.OVL_HOLD × 10 ns after the signal was last found above the lower level,
less the detector's delay, unless the detector has tripped since. -/
def Claims.FrontEnd.overloadClose_done : Prop :=
  ∀ (s : State) (b : BayNo) (i : Fin 2) (a o : Stamp) (r : List (Stamp × Option Stamp)), s.frontWorks b i = true →
    (s.bay b).afe.inputs[i].overload = true → (s.bay b).afe.inputs[i].intervals = (o, none) :: r →
    stampLt a (s.bay b).afe.inputs[i].lastTrip = false →
    ∃ t, exec (.overloadClose b i a) s = .next t ∧ (t.bay b).afe.inputs[i].overload = false ∧
      (t.bay b).afe.inputs[i].intervals =
        (o, some (moved (later a (ofNs (10 * s.fldN Fld.afeOvlHold b))) (-(Config.detectorDelay b i.val : Int)))) :: r ∧
      (t.bay b).afe.inputs[i].step = (s.bay b).afe.inputs[i].step ∧
      (t.bay b).afe.inputs[i].settled = (s.bay b).afe.inputs[i].settled ∧ (t.bay b).adc = (s.bay b).adc

/-- A trip since then keeps the interval open. -/
def Claims.FrontEnd.overloadClose_tripped : Prop :=
  ∀ (s : State) (b : BayNo) (i : Fin 2) (a : Stamp), stampLt a (s.bay b).afe.inputs[i].lastTrip = true →
    ∃ t, exec (.overloadClose b i a) s = .next t ∧ t = s

/-- AUTO_STEP_DOWN in mode 2, no interval open, stepping not held, the attenuation above the setting in force and the largest
peak at least AFE.AUTO_STEP plus 3 dB below the threshold, lowers the attenuation by AFE.AUTO_STEP, to that setting at
least, counts that and starts to settle. -/
def Claims.FrontEnd.autoStepDown_done : Prop :=
  ∀ (s : State) (b : BayNo) (i : Fin 2) (v : Int), s.frontWorks b i = true → s.fldN Fld.afeAutoMode b = 2 → s.autoHeld b i = false →
    (s.bay b).afe.inputs[i].overload = false → s.fldN Fld.afeAtten b i.val < (s.bay b).afe.inputs[i].step →
    v ≤ s.ovlLevel b - (128 * (s.fldN Fld.afeAutoStep b + 3) : Nat) →
    ∃ t, exec (.autoStepDown b i v) s = .next t ∧
      (t.bay b).afe.inputs[i].step = max ((s.bay b).afe.inputs[i].step - s.fldN Fld.afeAutoStep b) (s.fldN Fld.afeAtten b i.val) ∧
      (t.bay b).afe.inputs[i].autoDown = (s.bay b).afe.inputs[i].autoDown + 1 ∧
      (t.bay b).afe.inputs[i].trim = (s.bay b).afe.inputs[i].trim ∧ (t.bay b).afe.inputs[i].settled = false ∧
      (t.bay b).afe.inputs[i].overload = false

/-- ATTEN_SETTLED of an unsettled front end whose signal lies at the threshold or below settles it, 50 ns after the change, and
does nothing else. -/
def Claims.FrontEnd.attenSettled_done : Prop :=
  ∀ (s : State) (b : BayNo) (i : Fin 2) (v : Int), s.frontWorks b i = true → (s.bay b).afe.inputs[i].settled = false → v ≤ s.ovlLevel b →
    ∃ t, exec (.attenSettled b i v) s = .next t ∧
      t = (s.reach (later (s.bay b).afe.inputs[i].changedAt (ofNs 50))).modAfe b i fun a => { a with settled := true }

/-- One whose signal then exceeds the threshold trips again, so that the attenuation steps up once more. -/
def Claims.FrontEnd.attenSettled_again : Prop :=
  ∀ (s : State) (b : BayNo) (i : Fin 2) (v : Int), s.frontWorks b i = true → (s.bay b).afe.inputs[i].settled = false →
    s.ovlLevel b < v → s.fldN Fld.afeAutoMode b ≠ 0 → s.autoHeld b i = false →
    (s.bay b).afe.inputs[i].step < s.fldN Fld.afeAutoMax b →
    ∃ t, exec (.attenSettled b i v) s = .next t ∧
      (t.bay b).afe.inputs[i].step = min ((s.bay b).afe.inputs[i].step + s.fldN Fld.afeAutoStep b) (s.fldN Fld.afeAutoMax b) ∧
      (t.bay b).afe.inputs[i].settled = false ∧ (t.bay b).afe.inputs[i].overload = true

/-- Every change of the running attenuation starts an invalid run on the RF port that delivers, from the first output the change
at t_c makes invalid, and is told with the cause, the old and new values and t_c. -/
def Claims.FrontEnd.setAtten_run : Prop :=
  ∀ (s : State) (b : BayNo) (i : Fin 2) (step trim cause : Nat) (auto : Bool) (a : Stamp), (s.bay b).ddc[rfPort i].delivers = true →
    (s.bay b).ddc[rfPort i].runs = [] →
    ∃ tc : Stamp, ((s.setAtten b i step trim cause auto a).bay b).ddc[rfPort i].runCount = (s.bay b).ddc[rfPort i].runCount + 1 ∧
      ((s.setAtten b i step trim cause auto a).bay b).ddc[rfPort i].runs =
        [((s.setAtten b i step trim cause auto a).runFrom b (rfPort i) tc,
          (s.setAtten b i step trim cause auto a).runFrom b (rfPort i) tc + s.runLength b (rfPort i))] ∧
      ∃ u : State, s.setAtten b i step trim cause auto a = u.event b 0x0401
        (attenWords i cause auto (s.bay b).afe.inputs[i].step (s.bay b).afe.inputs[i].trim step trim ++ stampWords tc)

/-- Overload, automatic stepping and the settling of the front end. -/
def Obligations.FrontEnd : Prop :=
  Claims.FrontEnd.overloadTrip_opens ∧
  Claims.FrontEnd.overloadTrip_step ∧
  Claims.FrontEnd.overloadTrip_unsettled ∧
  Claims.FrontEnd.overloadClose_done ∧
  Claims.FrontEnd.overloadClose_tripped ∧
  Claims.FrontEnd.autoStepDown_done ∧
  Claims.FrontEnd.attenSettled_done ∧
  Claims.FrontEnd.attenSettled_again ∧
  Claims.FrontEnd.setAtten_run

/-- SLICE_CAL_DONE of a spare slice in calibration, the rotation not paused, makes the slice the last calibrated one with the
new coefficients and brings it to the comparison; one under low input power keeps its skew and bandwidth and is counted. -/
def Claims.SliceRotation.sliceCalDone_done : Prop :=
  ∀ (s : State) (b : BayNo) (i : Fin 2) (est : SliceCoef) (pw : Int) (x : Slice) (from_ : Stamp), (s.bay b).adc[i].spare = some x →
    (s.bay b).adc[i].incoming = none → (s.bay b).adc[i].calFrom = some from_ → s.rotationPaused b i = false →
    ∃ t, exec (.sliceCalDone b i est pw) s = .next t ∧ (t.bay b).adc[i].incoming = some x ∧ (t.bay b).adc[i].spare = some x ∧
      (t.bay b).adc[i].calFrom = none ∧
      (t.bay b).adc[i].order = ((s.bay b).adc[i].order.filter fun y => y != x) ++ [x] ∧
      (t.bay b).adc[i].slots = (s.bay b).adc[i].slots ∧
      (t.bay b).adc[i].coefs = (s.bay b).adc[i].coefs.set x
        (if pw < lowPower then { est with skew := (s.bay b).adc[i].coefs[x].skew, bandwidth := (s.bay b).adc[i].coefs[x].bandwidth } else est) ∧
      (t.bay b).adc[i].lowSig = (if pw < lowPower then (s.bay b).adc[i].lowSig + 1 else (s.bay b).adc[i].lowSig)

/-- SWAP_COMPARE within both tolerances, over a window with no overload and a settled front end, gives the slot of the oldest
slice to the incoming one; the oldest becomes the spare, and its calibration begins. -/
def Claims.SliceRotation.swapCompare_swaps : Prop :=
  ∀ (s : State) (b : BayNo) (i : Fin 2) (sum : Int) (sq : Nat) (x y : Slice), (s.bay b).adc[i].incoming = some x →
    (s.bay b).adc[i].oldest = some y → s.rotationPaused b i = false → (s.bay b).afe.inputs[i].intervals = [] →
    (s.bay b).afe.inputs[i].settled = true →
    stampLt (moved (s.nowAt b) (-((64 * s.slotPeriod : Nat) : Int))) (later (s.bay b).afe.inputs[i].changedAt (ofNs 50)) = false →
    sum.natAbs ≤ 4 * s.fldN Fld.adcSwapTolOfs b → 4 * sq ≤ s.fldN Fld.adcSwapTolRms b * s.fldN Fld.adcSwapTolRms b →
    ∃ t, exec (.swapCompare b i sum sq) s = .next t ∧ t = s.modAdc b i fun c =>
      { c with slots := c.slots.map fun z => if z = y then x else z,
               spare := some y, incoming := none, calFrom := some (s.nowAt b), aborts := 0, swaps := c.swaps + 1, swapWait := false }

/-- A window that meets an overload interval, or ends before the front end has settled, leaves the swap waiting and compares
again. -/
def Claims.SliceRotation.swapCompare_waits : Prop :=
  ∀ (s : State) (b : BayNo) (i : Fin 2) (sum : Int) (sq : Nat) (x y : Slice), (s.bay b).adc[i].incoming = some x →
    (s.bay b).adc[i].oldest = some y → s.rotationPaused b i = false → (s.bay b).afe.inputs[i].settled = false →
    ∃ t, exec (.swapCompare b i sum sq) s = .next t ∧ t = s.modAdc b i fun c => { c with swapWait := true }

/-- Beyond a tolerance the swap is abandoned and counted and the slots stay as they are; the third in a row marks the slice
faulty and leaves the converter without a spare. -/
def Claims.SliceRotation.swapCompare_aborts : Prop :=
  ∀ (s : State) (b : BayNo) (i : Fin 2) (sum : Int) (sq : Nat) (x y : Slice), (s.bay b).adc[i].incoming = some x →
    (s.bay b).adc[i].oldest = some y → s.rotationPaused b i = false → (s.bay b).afe.inputs[i].intervals = [] →
    (s.bay b).afe.inputs[i].settled = true →
    stampLt (moved (s.nowAt b) (-((64 * s.slotPeriod : Nat) : Int))) (later (s.bay b).afe.inputs[i].changedAt (ofNs 50)) = false →
    4 * s.fldN Fld.adcSwapTolOfs b < sum.natAbs →
    ∃ t, exec (.swapCompare b i sum sq) s = .next t ∧ (t.bay b).adc[i].slots = (s.bay b).adc[i].slots ∧
      (t.bay b).adc[i].incoming = none ∧ (t.bay b).adc[i].aborted = (s.bay b).adc[i].aborted + 1 ∧
      (t.bay b).adc[i].swaps = (s.bay b).adc[i].swaps ∧
      (t.bay b).adc[i].spare = (if (s.bay b).adc[i].aborts ≥ 2 then none else (s.bay b).adc[i].spare) ∧
      (t.bay b).adc[i].faulty = (if (s.bay b).adc[i].aborts ≥ 2 then (s.bay b).adc[i].faulty ||| BitVec.ofNat 17 (2 ^ x.val)
        else (s.bay b).adc[i].faulty)

/-- The background rotation of the converter slices. -/
def Obligations.SliceRotation : Prop :=
  Claims.SliceRotation.sliceCalDone_done ∧
  Claims.SliceRotation.swapCompare_swaps ∧
  Claims.SliceRotation.swapCompare_waits ∧
  Claims.SliceRotation.swapCompare_aborts

/-- XS_STREAM_STOP of an aligned stream that feeds no active port stops it at the pin-plane stamp of the unit, counted by its
cause; a loss of alignment leaves the receiver unaligned. -/
def Claims.StreamsAndDensity.xsStreamStop_done : Prop :=
  ∀ (s : State) (b : BayNo) (x : Fin 2) (a : Stamp) (loss : Bool), s.alive b = true → (s.bay b).ddc[xsPort x].aligned = true →
    (s.bay b).ddc[xsPort x].stopped = none → s.replayed b (xsPort x) = false → (s.bay b).ddc[xsPort x].active = false →
    ∃ t, exec (.xsStreamStop b x a loss) s = .next t ∧
      (t.bay b).ddc[xsPort x] = { (s.bay b).ddc[xsPort x] with
        stopped := some { tL := s.planeStamp b (xsPort x) a, cause := if loss then 0 else 1, replay := false },
        aligned := !loss,
        losses := if loss then (s.bay b).ddc[xsPort x].losses + 1 else (s.bay b).ddc[xsPort x].losses,
        singles := if loss then (s.bay b).ddc[xsPort x].singles else (s.bay b).ddc[xsPort x].singles + 1 } ∧
      (t.bay b).jes[x].locked = (if loss then 0 else (s.bay b).jes[x].locked)

/-- One that feeds an active port also pauses it, and its outputs of the last group delay are the invalid run of the loss. -/
def Claims.StreamsAndDensity.xsStreamStop_feeds : Prop :=
  ∀ (s : State) (b : BayNo) (x : Fin 2) (a : Stamp) (loss : Bool), s.alive b = true → (s.bay b).ddc[xsPort x].aligned = true →
    (s.bay b).ddc[xsPort x].stopped = none → s.replayed b (xsPort x) = false → (s.bay b).ddc[xsPort x].active = true →
    ∃ t, exec (.xsStreamStop b x a loss) s = .next t ∧ (t.bay b).ddc[xsPort x].paused = true ∧
      (t.bay b).ddc[xsPort x].runs = ((s.lossRun b (xsPort x) (s.planeStamp b (xsPort x) a)).bay b).ddc[xsPort x].runs ∧
      (t.bay b).ddc[xsPort x].stopped = some { tL := s.planeStamp b (xsPort x) a, cause := if loss then 0 else 1, replay := false }

/-- XS_STREAM_RESUME, not before the stop, of a stopped stream whose receiver has aligned clears the stop and adds the units
lost; a port it feeds delivers again unless something else holds it back. -/
def Claims.StreamsAndDensity.xsStreamResume_done : Prop :=
  ∀ (s : State) (b : BayNo) (x : Fin 2) (a : Stamp) (n : Nat) (z : StreamStop), s.alive b = true →
    (s.bay b).ddc[xsPort x].aligned = true → (s.bay b).ddc[xsPort x].stopped = some z → z.replay = false →
    stampLt (s.planeStamp b (xsPort x) a) z.tL = false →
    ∃ t, exec (.xsStreamResume b x a n) s = .next t ∧ (t.bay b).ddc[xsPort x].stopped = none ∧
      (t.bay b).ddc[xsPort x].aligned = true ∧
      (t.bay b).ddc[xsPort x].unitsLost = (s.bay b).ddc[xsPort x].unitsLost + BitVec.ofNat 32 n ∧
      (t.bay b).ddc[xsPort x].paused =
        (!((s.bay b).ddc[xsPort x].active && (s.heldBy b (xsPort x)).isNone) && (s.bay b).ddc[xsPort x].paused)

/-- A value whose row lies in the window counts in exactly that row's cell of its column. -/
def Claims.StreamsAndDensity.place_inside : Prop :=
  ∀ (f : FrameInfo) (v : Int) (c r : Nat), r < 512 → 0 < f.rowStep → f.floor + r * f.rowStep ≤ v → v < f.floor + (r + 1) * f.rowStep →
    f.place v c = (some (1024 * r + c), false, false)

/-- One below row 0 is tallied below and counts in row 0 only with clamping; one above row 511 is tallied above and counts in
row 511 only with clamping. -/
def Claims.StreamsAndDensity.place_below : Prop :=
  ∀ (f : FrameInfo) (v : Int) (c : Nat), 0 < f.rowStep →
    (v < f.floor → f.place v c = (if f.clamp then some c else none, false, true)) ∧
    (f.floor + 512 * f.rowStep ≤ v → f.place v c = (if f.clamp then some (1024 * 511 + c) else none, true, false))

/-- A spectrum that settles is counted only with bit 0 of USE_MARKED, a truncated one only with bit 1: else it is tallied and no
cell changes. -/
def Claims.StreamsAndDensity.count_excluded : Prop :=
  ∀ (f : FrameInfo) (cs : Sparse Word) (sp : Spec),
    (sp.settling && !f.useMarked.testBit 0 || sp.truncated && !f.useMarked.testBit 1) = true →
    f.count cs sp = ({ f with excluded := min 0xFFFFFFFF (f.excluded + 1) }, cs)

/-- A counted spectrum adds to each column at most one count: no cell falls, none grows by more than 1, and none passes
0xFFFF_FFFF. -/
def Claims.StreamsAndDensity.count_column : Prop :=
  ∀ (f : FrameInfo) (cs : Sparse Word) (sp : Spec) (k : Nat), Sparse.wf 0 cs = true →
    (Sparse.get 0 cs k).toNat ≤ (Sparse.get 0 (f.count cs sp).2 k).toNat ∧
    (Sparse.get 0 (f.count cs sp).2 k).toNat ≤ (Sparse.get 0 cs k).toNat + 1

/-- DEN_BANK_CLOSE of an old bank begins its readout pass no earlier than the moment at which the bank closes, and leaves both
banks' counts as they are. -/
def Claims.StreamsAndDensity.denBankClose_done : Prop :=
  ∀ (s : State) (b : BayNo) (x : Fin 2) (o : DenOld), s.alive b = true → (s.bay b).den.chans[x].old = some o → o.passing = false →
    ∃ t, exec (.denBankClose b x) s = .next t ∧ (t.bay b).den.chans[x].old = some { o with passing := true } ∧
      (t.bay b).den.chans[x].cells = (s.bay b).den.chans[x].cells ∧ t.now = (s.reach o.close).now

/-- DEN_PASS_DONE of a pass under way frees the old bank, makes its counts the frame, counts the frame, and adds each count
shifted right by the decay to the accumulating bank unless the carry is discarded. -/
def Claims.StreamsAndDensity.denPassDone_done : Prop :=
  ∀ (s : State) (b : BayNo) (x : Fin 2) (o : DenOld), s.alive b = true → (s.bay b).den.chans[x].old = some o → o.passing = true →
    ∃ t, exec (.denPassDone b x) s = .next t ∧ (t.bay b).den.chans[x].old = none ∧
      (t.bay b).den.chans[x].frame = some { info := o.info, cells := o.cells, shift := o.shift } ∧
      (t.bay b).den.chans[x].frames = (s.bay b).den.chans[x].frames + 1 ∧
      (t.bay b).den.chans[x].cells = (if o.discard then (s.bay b).den.chans[x].cells
        else carryCells o.cells (s.bay b).den.chans[x].cells o.shift)

/-- The carry of a cell is its count shifted right by the decay, added to the accumulating cell up to 0xFFFF_FFFF; at 32 nothing
is carried. -/
def Claims.StreamsAndDensity.carryCells_get : Prop :=
  ∀ (old acc : Sparse Word) (sh k : Nat), Sparse.wf 0 old = true → Sparse.wf 0 acc = true →
    (Sparse.get 0 (carryCells old acc sh) k).toNat =
      (if sh ≥ 32 then (Sparse.get 0 acc k).toNat
       else min 0xFFFFFFFF ((Sparse.get 0 acc k).toNat + ((Sparse.get 0 old k).toNat >>> sh)))

/-- DEN_CLEAR notes the channels of its mask; the carry of each is discarded at the next swap. -/
def Claims.StreamsAndDensity.denClear_done : Prop :=
  ∀ (s : State) (b : BayNo) (m : BitVec 2), s.queueAwake b = true →
    ∃ t, exec (.denClear b m) s = .next t ∧
      (t.bay b).den.chans[0].clearAsked = ((s.bay b).den.chans[0].clearAsked || m.getLsbD 0) ∧
      (t.bay b).den.chans[1].clearAsked = ((s.bay b).den.chans[1].clearAsked || m.getLsbD 1) ∧
      (t.bay b).den.chans[0].cells = (s.bay b).den.chans[0].cells ∧ (t.bay b).den.chans[1].cells = (s.bay b).den.chans[1].cells

/-- External streams and the density accumulator. -/
def Obligations.StreamsAndDensity : Prop :=
  Claims.StreamsAndDensity.xsStreamStop_done ∧
  Claims.StreamsAndDensity.xsStreamStop_feeds ∧
  Claims.StreamsAndDensity.xsStreamResume_done ∧
  Claims.StreamsAndDensity.place_inside ∧
  Claims.StreamsAndDensity.place_below ∧
  Claims.StreamsAndDensity.count_excluded ∧
  Claims.StreamsAndDensity.count_column ∧
  Claims.StreamsAndDensity.denBankClose_done ∧
  Claims.StreamsAndDensity.denPassDone_done ∧
  Claims.StreamsAndDensity.carryCells_get ∧
  Claims.StreamsAndDensity.denClear_done

/-- SPECTRUM_READY of a channel with a grid run left takes the next frame of that run, as its last output leaves the port: it is
counted by its marks, the run goes on with the frame after it, and the spectrum enters the history with the next number. -/
def Claims.FramesAndTraces.spectrumReady_done : Prop :=
  ∀ (s : State) (b : BayNo) (x : Fin 2) (ins : List (List Sample)) (g : GridRun) (r : List GridRun), s.alive b = true →
    (s.bay b).pwr.datapath = true → (s.bay b).xfm.chans[x].grids.dropWhile GridRun.spent = g :: r → s.framesFit b g ins = true →
    ∃ t, exec (.spectrumReady b x ins) s = .next t ∧
      (t.bay b).xfm.chans[x].grids = { g with frame := g.frame + 1, first := false } :: r ∧
      (t.bay b).xfm.chans[x].specCount = (s.bay b).xfm.chans[x].specCount + 1 ∧
      (t.bay b).xfm.chans[x].serial = (s.bay b).xfm.chans[x].serial + 1 ∧
      (t.bay b).xfm.chans[x].settlingCount = (s.bay b).xfm.chans[x].settlingCount + (if ((s.atFrame b g).frameSpec b x g ins).settling then 1 else 0) ∧
      (t.bay b).xfm.chans[x].truncatedCount = (s.bay b).xfm.chans[x].truncatedCount + (if ((s.atFrame b g).frameSpec b x g ins).truncated then 1 else 0) ∧
      (t.bay b).xfm.chans[x].history.map (·.1) = (((s.atFrame b g).frameSpec b x g ins) :: (s.bay b).xfm.chans[x].history.map (·.1)).take 33

/-- The frame starts at the sample that lies its number times the hop, N / 2^m, after the anchor, lasts N samples, and its
centre lies N / 2 samples after its start. -/
def Claims.FramesAndTraces.frameSpec_stamps : Prop :=
  ∀ (s : State) (b : BayNo) (x : Fin 2) (g : GridRun) (ins : List (List Sample)),
    (s.frameSpec b x g ins).start = s.gridStamp b g (g.frame * 2 ^ (g.n - g.m)) ∧
    (s.frameSpec b x g ins).centre = s.gridStamp b g (g.frame * 2 ^ (g.n - g.m) + 2 ^ g.n / 2) ∧
    (s.frameSpec b x g ins).stop = s.gridStamp b g (g.frame * 2 ^ (g.n - g.m) + 2 ^ g.n)

/-- It is TRUNCATED and follows a gap when it is the first of its run, and TRUNCATED when a gap takes away samples of it. -/
def Claims.FramesAndTraces.frameSpec_marks : Prop :=
  ∀ (s : State) (b : BayNo) (x : Fin 2) (g : GridRun) (ins : List (List Sample)),
    ((s.frameSpec b x g ins).gapBefore = g.first) ∧
    (g.first = true → (s.frameSpec b x g ins).truncated = true) ∧
    (∀ c, g.cut = some c → c < g.frame * 2 ^ (g.n - g.m) + 2 ^ g.n → (s.frameSpec b x g ins).truncated = true) ∧
    (g.first = false → g.cut = none → (s.frameSpec b x g ins).truncated = false)

/-- A bin outside the transform reads 0x8000. -/
def Claims.FramesAndTraces.emitSpec_code : Prop :=
  ∀ (sp : Spec) (i : Int), (i < -(2 ^ sp.n / 2) ∨ 2 ^ sp.n - 2 ^ sp.n / 2 ≤ i) → half (sp.bin i) = 0x8000#16

/-- Adding a spectrum's bins to a point never lowers its POS_PEAK and never raises its NEG_PEAK, and every bin of the point that
lies within the transform is bounded by the two. -/
def Claims.FramesAndTraces.pointAcc_peaks : Prop :=
  ∀ (a : PointAcc) (sp : Spec) (e lo hi : Nat) (f : Int),
    a.high ≤ (a.add sp e lo hi f).high ∧ (a.add sp e lo hi f).low ≤ a.low ∧
    (∀ j : Nat, j ≤ hi - lo → (0 ≤ f + (lo + j : Nat) + 2 ^ sp.n / 2 ∧ f + (lo + j : Nat) + 2 ^ sp.n / 2 < 2 ^ sp.n) →
      sp.bin (f + (lo + j : Nat)) ≤ (a.add sp e lo hi f).high ∧ (a.add sp e lo hi f).low ≤ sp.bin (f + (lo + j : Nat)))

/-- TRACE_INTERVAL_END of a trace whose oldest interval has ended, and whose channel transforms and has computed the frames of
that interval, forms its record: the interval leaves, the record is counted, and the trace is EMPTY exactly when no spectrum
was included. -/
def Claims.FramesAndTraces.traceIntervalEnd_fixed : Prop :=
  ∀ (s : State) (b : BayNo) (n : Fin 16) (v : TraceIval) (r : List TraceIval) (e : Stamp), s.alive b = true →
    (s.bay b).xfm.traces[n].ivals = v :: r → v.stop = some e → s.transforms b ⟨n.val / 8, by omega⟩ = true →
    s.framesPending b ⟨n.val / 8, by omega⟩ e = false →
    ∃ t, exec (.traceIntervalEnd b n) s = .next t ∧ (t.bay b).xfm.traces[n].ivals = r ∧
      (t.bay b).xfm.traces[n].count = (s.bay b).xfm.traces[n].count + 1 ∧
      (t.bay b).xfm.traces[n].empty = decide (v.included = 0) ∧
      (t.bay b).xfm.traces[n].shown = some (if v.included = 0 then [] else v.acc.map fun a => a.value v.detector v.included)

/-- One whose interval of fixed length is still in progress ends it at its full length, and the next starts there under the
settings in force. -/
def Claims.FramesAndTraces.traceIntervalEnd_rolls : Prop :=
  ∀ (s : State) (b : BayNo) (n : Fin 16) (v : TraceIval) (r : List TraceIval), s.alive b = true →
    (s.bay b).xfm.traces[n].ivals = v :: r → v.stop = none → v.interval ≠ 0 →
    s.transforms b ⟨n.val / 8, by omega⟩ = true →
    s.framesPending b ⟨n.val / 8, by omega⟩ (later v.start (durOf v.interval 100000000)) = false →
    ∃ t, exec (.traceIntervalEnd b n) s = .next t ∧
      (t.bay b).xfm.traces[n].ivals.map (·.start) = r.map (·.start) ++ [later v.start (durOf v.interval 100000000)] ∧
      (t.bay b).xfm.traces[n].count = (s.bay b).xfm.traces[n].count + 1

/-- A spectrum that settles or is truncated is excluded unless USE_MARKED takes it: it is tallied and changes nothing else; any
other is included. -/
def Claims.FramesAndTraces.traceIval_excluded : Prop :=
  ∀ (v : TraceIval) (sp : Spec) (e : Nat),
    ((sp.settling && !v.useMarked.testBit 0 || sp.truncated && !v.useMarked.testBit 1) = true →
      v.take sp e = { v with excluded := v.excluded + 1 }) ∧
    ((sp.settling && !v.useMarked.testBit 0 || sp.truncated && !v.useMarked.testBit 1) = false →
      (v.take sp e).included = v.included + 1 ∧ (v.take sp e).excluded = v.excluded ∧ (v.take sp e).last = some sp)

/-- TAP_SLOT_WRITTEN of a tap that writes ends the write: the write index in core memory advances by one, the slot is counted
and line TAP of the core is raised. -/
def Claims.FramesAndTraces.tapSlotWritten_done : Prop :=
  ∀ (s : State) (b : BayNo) (c : CoreNo), s.alive b = true → (s.bay b).xfm.taps[c].writing = true →
    s.fldN Fld.xfmTapBase b c.val % 4 = 0 → s.fldN Fld.xfmTapBase b c.val < 131072 →
    ∃ t, exec (.tapSlotWritten b c) s = .next t ∧ (t.bay b).xfm.taps[c].writing = false ∧
      (t.bay b).xfm.taps[c].written = (s.bay b).xfm.taps[c].written + 1 ∧
      (t.bay b).xfm.taps[c].dropped = (s.bay b).xfm.taps[c].dropped ∧
      (t.core b c).peekWord (s.fldN Fld.xfmTapBase b c.val) = (s.core b c).peekWord (s.fldN Fld.xfmTapBase b c.val) + 1 ∧
      (t.core b c).ipend.getLsbD 0 = true

/-- Frames, spectra, traces and taps. -/
def Obligations.FramesAndTraces : Prop :=
  Claims.FramesAndTraces.spectrumReady_done ∧
  Claims.FramesAndTraces.frameSpec_stamps ∧
  Claims.FramesAndTraces.frameSpec_marks ∧
  Claims.FramesAndTraces.emitSpec_code ∧
  Claims.FramesAndTraces.pointAcc_peaks ∧
  Claims.FramesAndTraces.traceIntervalEnd_fixed ∧
  Claims.FramesAndTraces.traceIntervalEnd_rolls ∧
  Claims.FramesAndTraces.traceIval_excluded ∧
  Claims.FramesAndTraces.tapSlotWritten_done

/-- TRIGGER_EVENT of an armed LEVEL unit without qualification or group, whose condition was false, on a valid output of its
port at or above the level, triggers at the interpolated crossing: it is counted, a slot is frozen and the unit is in its
post-trigger part. -/
def Claims.TriggerEvents.triggerEvent_level : Prop :=
  ∀ (s : State) (b : BayNo) (u : Fin 8) (o : LevelObs) (n : Nat), s.unitOn b u = true → s.fldN Fld.trgUSource b u.val = 1 →
    (s.bay b).ddc[s.unitPort b u].delivers = true → (s.bay b).ddc[s.unitPort b u].numberFrom o.t = n →
    (s.bay b).ddc[s.unitPort b u].bornOf n < n → (s.bay b).ddc[s.unitPort b u].stampOf n = o.t →
    (s.bay b).ddc[s.unitPort b u].invalidIn n (n + 1) = false →
    s.fldN Fld.trgUQual b u.val = 0 → s.fldN Fld.trgUSlope b u.val = 0 → s.unitGroup b u = 0 → s.fldB Fld.trgUMarkOnly b u.val = false →
    (s.unit b u).state = .armed → (s.unit b u).inCycle = true → (s.unit b u).isTrue = some false → (s.unit b u).marked = false →
    levelGe o.cur.square (2 ^ 30) (s.fld Fld.trgULevel b u.val) = true →
    stampLt (s.crossing b (s.unitPort b u) o (s.fld Fld.trgULevel b u.val)) (s.unit b u).armedAt = false →
    ∃ t, exec (.triggerEvent b u o) s = .next t ∧
      (t.unit b u).lastInstant = s.crossing b (s.unitPort b u) o (s.fld Fld.trgULevel b u.val) ∧
      (t.unit b u).count = (s.unit b u).count + 1 ∧ (t.unit b u).number = (s.unit b u).number + 1 ∧
      (t.unit b u).state = .post ∧ (t.unit b u).isTrue = some true ∧
      (t.unit b u).segments.length = (s.unit b u).segments.length + 1

/-- The first output evaluated after a resume only sets the condition: nothing triggers. -/
def Claims.TriggerEvents.triggerEvent_first : Prop :=
  ∀ (s : State) (b : BayNo) (u : Fin 8) (o : LevelObs) (n : Nat), s.unitOn b u = true → s.fldN Fld.trgUSource b u.val = 1 →
    (s.bay b).ddc[s.unitPort b u].delivers = true → (s.bay b).ddc[s.unitPort b u].numberFrom o.t = n →
    (s.bay b).ddc[s.unitPort b u].bornOf n < n → (s.bay b).ddc[s.unitPort b u].stampOf n = o.t →
    (s.bay b).ddc[s.unitPort b u].invalidIn n (n + 1) = false → (s.unit b u).isTrue = none →
    ∃ t, exec (.triggerEvent b u o) s = .next t ∧ t = s.modUnit b u fun y =>
      { y with isTrue := some (s.levelLook b u o).begins, marked := false, cond := none }

/-- An event of a dead unit triggers nothing and is counted as missed. -/
def Claims.TriggerEvents.triggerEvent_dead : Prop :=
  ∀ (s : State) (b : BayNo) (u : Fin 8) (i : TrigInfo), (s.unit b u).inCycle = true → stampLt i.instant (s.unit b u).armedAt = false →
    (s.unit b u).dead = true →
    ((s.unitEvent b u i).unit b u).missed = (s.unit b u).missed + 1 ∧
      ((s.unitEvent b u i).unit b u).missedCount = (s.unit b u).missedCount + 1 ∧
      ((s.unitEvent b u i).unit b u).count = (s.unit b u).count ∧ ((s.unitEvent b u i).unit b u).state = (s.unit b u).state

/-- An event outside a cycle or before t_A changes nothing. -/
def Claims.TriggerEvents.triggerEvent_early : Prop :=
  ∀ (s : State) (b : BayNo) (u : Fin 8) (i : TrigInfo), ((s.unit b u).inCycle = false ∨ stampLt i.instant (s.unit b u).armedAt = true) →
    s.unitEvent b u i = s

/-- An armed member of a group, with a route to the arbiter, asks instead of triggering. -/
def Claims.TriggerEvents.triggerEvent_group : Prop :=
  ∀ (s : State) (b : BayNo) (u : Fin 8) (i : TrigInfo), (s.unit b u).inCycle = true → stampLt i.instant (s.unit b u).armedAt = false →
    (s.unit b u).dead = false → s.unitGroup b u ≠ 0 → s.leads = true → s.reaches i.fire.bay (s.sideHolder i.fire.bay) = true →
    (s.unitEvent b u i).trg.requests = s.trg.requests ++ [i.fire] ∧ ((s.unitEvent b u i).unit b u).count = (s.unit b u).count ∧
      ((s.unitEvent b u i).unit b u).requested = some i

/-- A trigger of a MARK_ONLY unit freezes no slot and leaves the unit armed. -/
def Claims.TriggerEvents.trigger_markOnly : Prop :=
  ∀ (s : State) (b : BayNo) (u : Fin 8) (i : TrigInfo), s.fldB Fld.trgUMarkOnly b u.val = true → s.fldN Fld.trgUCount b u.val = 0 →
    ((s.trigger b u i).unit b u).segments = (s.unit b u).segments ∧ ((s.trigger b u i).unit b u).state = .armed ∧
      ((s.trigger b u i).unit b u).count = (s.unit b u).count + 1 ∧ ((s.trigger b u i).unit b u).lastInstant = i.instant

/-- QUAL_LONGER_EXPIRE of a condition under qualification Longer ends the qualification, the condition still true, and the
event's instant is the condition's start: a unit outside a group triggers there. -/
def Claims.TriggerEvents.qualLongerExpire_done : Prop :=
  ∀ (s : State) (b : BayNo) (u : Fin 8) (c : Condition), s.unitOn b u = true → (s.unit b u).cond = some c → c.qualifying = true →
    s.fldN Fld.trgUQual b u.val = 1 → s.unitGroup b u = 0 → (s.unit b u).state = .qualifying → (s.unit b u).inCycle = true →
    stampLt c.start (s.unit b u).armedAt = false →
    ∃ t, exec (.qualLongerExpire b u) s = .next t ∧ (t.unit b u).lastInstant = c.start ∧
      (t.unit b u).count = (s.unit b u).count + 1 ∧ (t.unit b u).cond = some { c with qualifying := false }

/-- CORE_EVENT_DUE takes the oldest held core event once its stamp is reached; an armed unit outside a group triggers at that
stamp. -/
def Claims.TriggerEvents.coreEventDue_done : Prop :=
  ∀ (s : State) (b : BayNo) (u : Fin 8) (a : Stamp) (v : Word) (r : List (Stamp × Word)), s.unitOn b u = true →
    (s.unit b u).events = (a, v) :: r → (s.unit b u).inCycle = true → stampLt a (s.unit b u).armedAt = false →
    (s.unit b u).state = .armed → s.unitGroup b u = 0 →
    ∃ t, exec (.coreEventDue b u) s = .next t ∧ (t.unit b u).events = r ∧ (t.unit b u).lastInstant = a ∧
      (t.unit b u).count = (s.unit b u).count + 1

/-- One stamped before the unit became armed triggers nothing and is counted in TRG_IGNORED. -/
def Claims.TriggerEvents.coreEventDue_ignored : Prop :=
  ∀ (s : State) (b : BayNo) (u : Fin 8) (a : Stamp) (v : Word) (r : List (Stamp × Word)), s.unitOn b u = true →
    (s.unit b u).events = (a, v) :: r → (s.unit b u).inCycle = true → stampLt a (s.unit b u).armedAt = true →
    ∃ t, exec (.coreEventDue b u) s = .next t ∧ (t.unit b u).events = r ∧ (t.unit b u).count = (s.unit b u).count ∧
      (t.bay b).trg.ignored = (s.bay b).trg.ignored + 1

/-- TRIG_IN_EDGE of the chosen polarity that the TDC stamps is an event of every unit with that source, at the TDC's stamp. -/
def Claims.TriggerEvents.trigInEdge_done : Prop :=
  ∀ (s s1 : State) (b : BayNo) (n : Fin 2) (a v : Stamp) (long : Bool), s.tdcEdge b ⟨2 + n.val, by omega⟩ a long = (some v, s1) →
    s.pkgN Fld.trgTriginEdge n.val = 0 →
    ∃ t, exec (.trigInEdge b n a false long) s = .next t ∧ t = (List.finRange 8).foldl (fun s u =>
      if s.unitOn b u && decide (s.fldN Fld.trgUSource b u.val = 5 + n.val) then s.unitEvent b u (s.ownInfo b u v 0) else s) s1

/-- One of the other polarity changes nothing. -/
def Claims.TriggerEvents.trigInEdge_other : Prop :=
  ∀ (s : State) (b : BayNo) (n : Fin 2) (a : Stamp) (long : Bool), s.pkgN Fld.trgTriginEdge n.val = 0 →
    ∃ t, exec (.trigInEdge b n a true long) s = .next t ∧ t = s

/-- TRG_FORCE of one armed unit outside a group triggers it at the acceptance stamp of its bay, with cause FORCED; a mask of no
unit changes nothing. -/
def Claims.TriggerEvents.trgForce_one : Prop :=
  ∀ (s : State) (b : BayNo) (u : Fin 8), s.queueAwake b = true → s.unitOn b u = true → (s.unit b u).inCycle = true →
    (s.unit b u).dead = false → s.unitGroup b u = 0 →
    ∃ t, exec (.trgForce b (BitVec.ofNat 8 (2 ^ u.val))) s = .next t ∧ t = s.trigger b u (s.ownInfo b u (s.nowAt b) 3) ∧
      (t.unit b u).lastInstant = s.nowAt b ∧ (t.unit b u).count = (s.unit b u).count + 1

/-- What makes a unit trigger, and what a trigger does. -/
def Obligations.TriggerEvents : Prop :=
  Claims.TriggerEvents.triggerEvent_level ∧
  Claims.TriggerEvents.triggerEvent_first ∧
  Claims.TriggerEvents.triggerEvent_dead ∧
  Claims.TriggerEvents.triggerEvent_early ∧
  Claims.TriggerEvents.triggerEvent_group ∧
  Claims.TriggerEvents.trigger_markOnly ∧
  Claims.TriggerEvents.qualLongerExpire_done ∧
  Claims.TriggerEvents.coreEventDue_done ∧
  Claims.TriggerEvents.coreEventDue_ignored ∧
  Claims.TriggerEvents.trigInEdge_done ∧
  Claims.TriggerEvents.trigInEdge_other ∧
  Claims.TriggerEvents.trgForce_one

/-- ARM with a tag, at the earliest t_A, of units the package has, outside a shoal, while STATE is RUN, is taken in and
completes with OK and the t_A given. -/
def Claims.GroupsAndArming.arm_done : Prop :=
  ∀ (s s1 : State) (tag : Word) (bays units : BitVec 8) (pk : BitVec 4), s.takeCommand = some s1 → s1.img.state = .run →
    s1.pkgN Fld.lnlShoalSize ≤ 1 → (s1.selected bays units).isEmpty = false →
    ∃ t, exec (.arm tag bays units pk 0) s = .next t ∧
      t.trg.orders = s1.trg.orders ++ [{ tag := some tag, arm := true, auto := false, instant := s1.epochLead, bays := bays, units := units }] ∧
      t.vals = s1.vals ∧ t.trg.fires = s1.trg.fires

/-- DISARM likewise gives an order that ends the cycle at its t_A. -/
def Claims.GroupsAndArming.disarm_done : Prop :=
  ∀ (s s1 : State) (tag : Word) (bays units : BitVec 8) (pk : BitVec 4), s.takeCommand = some s1 → s1.img.state = .run →
    s1.pkgN Fld.lnlShoalSize ≤ 1 → (s1.selected bays units).isEmpty = false →
    ∃ t, exec (.disarm tag bays units pk 0) s = .next t ∧
      t.trg.orders = s1.trg.orders ++ [{ tag := some tag, arm := false, auto := false, instant := s1.epochLead, bays := bays, units := units }] ∧
      t.vals = s1.vals

/-- A stamp earlier than acceptance + T_b + 1 us, or no enabled unit selected, completes with BAD_ARGUMENT and gives no order. -/
def Claims.GroupsAndArming.arm_badArgument : Prop :=
  ∀ (s s1 : State) (tag : Word) (bays units : BitVec 8) (pk : BitVec 4) (a : Stamp), s.takeCommand = some s1 → s1.img.state = .run →
    s1.pkgN Fld.lnlShoalSize ≤ 1 → (a ≠ 0 ∧ stampLt a s1.epochLead = true ∨ (s1.selected bays units).isEmpty = true) →
    ∃ t, exec (.arm tag bays units pk a) s = .next t ∧ t.trg = s1.trg ∧ t = s1.complete 3 tag stBadArgument 0 s1.now

/-- ARM_TAKE_EFFECT of the first order that arms gives each unit it selects a new cycle from its t_A. -/
def Claims.GroupsAndArming.armTakeEffect_done : Prop :=
  ∀ (s : State) (o : ArmOrder) (r : List ArmOrder) (b : BayNo) (u : Fin 8), s.alive 0 = true → s.trg.orders = o :: r → o.arm = true →
    (b, u) ∈ s.orderUnits o → (s.unit b u).dead = false →
    ∃ t, exec (.armTakeEffect none) s = .next t ∧ t.trg.orders = r ∧ (t.unit b u).inCycle = true ∧ (t.unit b u).armedAt = o.instant ∧
      (t.unit b u).cycle = (s.unit b u).cycle + 1 ∧ (t.unit b u).number = 0 ∧ (t.unit b u).state = .armed

/-- DISARM_TAKE_EFFECT takes the units out of their cycle; one whose segment is under way keeps its state. -/
def Claims.GroupsAndArming.disarmTakeEffect_done : Prop :=
  ∀ (s : State) (o : ArmOrder) (r : List ArmOrder) (b : BayNo) (u : Fin 8), s.alive 0 = true → s.trg.orders = o :: r → o.arm = false →
    (b, u) ∈ s.orderUnits o →
    ∃ t, exec (.disarmTakeEffect none) s = .next t ∧ t.trg.orders = r ∧ (t.unit b u).inCycle = false ∧
      (t.unit b u).state = (if (s.unit b u).dead then (s.unit b u).state else .idle) ∧
      (t.unit b u).segments = (s.unit b u).segments

/-- GROUP_FIRE_REQUEST with a request of the mainland that merges with no accepted fire accepts it: it goes out to the group's
members with its instant. -/
def Claims.GroupsAndArming.groupFireRequest_accepts : Prop :=
  ∀ (s : State) (f : Fire) (r : List Fire) (h : f.group < 16), s.trg.requests = f :: r → 1 ≤ f.group →
    mergesWith s.trg.lastFire[s.sideHolder (if f.package = s.packageNo then f.bay else 0)][f.group] f.instant
      (s.pkgN Fld.trgGrpWindow (f.group - 1)) = false →
    ∃ t, exec (.groupFireRequest none) s = .next t ∧ t.trg.requests = r ∧ t.trg.merged = s.trg.merged ∧
      t.trg.lastFire[s.sideHolder (if f.package = s.packageNo then f.bay else 0)][f.group] = some f.instant ∧
      t.trg.fires.map (·.1) = s.trg.fires.map (·.1) ++ [f]

/-- One whose instant lies within the window after the last accepted fire is dropped and counted. -/
def Claims.GroupsAndArming.groupFireRequest_merges : Prop :=
  ∀ (s : State) (f : Fire) (r : List Fire) (h : f.group < 16), s.trg.requests = f :: r → 1 ≤ f.group →
    mergesWith s.trg.lastFire[s.sideHolder (if f.package = s.packageNo then f.bay else 0)][f.group] f.instant
      (s.pkgN Fld.trgGrpWindow (f.group - 1)) = true →
    ∃ t, exec (.groupFireRequest none) s = .next t ∧ t.trg = { s.trg with
        requests := r, merged := s.trg.merged.set (s.sideHolder (if f.package = s.packageNo then f.bay else 0)).val
          (s.trg.merged[s.sideHolder (if f.package = s.packageNo then f.bay else 0)].set f.group
            (s.trg.merged[s.sideHolder (if f.package = s.packageNo then f.bay else 0)][f.group] + 1)) } ∧
      t.bays = s.bays

/-- A fire merges exactly when its instant lies from the last accepted one to the window after it, and never with a window of 0. -/
def Claims.GroupsAndArming.mergesWith_window : Prop :=
  ∀ (l a : Stamp) (n : Nat), mergesWith (some l) a n = (decide (0 < n) && stampLe l a && decide (stampDiff a l ≤ (ofNs n : Nat))) ∧
    mergesWith none a n = false

/-- GROUP_FIRE_BROADCAST reaching an armed member in the arbiter's own bay triggers it at the fire's instant. -/
def Claims.GroupsAndArming.groupFireBroadcast_member : Prop :=
  ∀ (s : State) (b : BayNo) (u : Fin 8) (f : Fire) (ms : List (BayNo × Fin 8)), s.unitOn b u = true →
    (s.trg.fires.find? fun e => e.2.contains (b, u)) = some (f, ms) → s.sideHolder b = b → (s.unit b u).inCycle = true →
    stampLt f.instant (s.unit b u).armedAt = false → (s.unit b u).dead = false →
    ∃ t, exec (.groupFireBroadcast b u none) s = .next t ∧ (t.unit b u).lastInstant = f.instant ∧
      (t.unit b u).count = (s.unit b u).count + 1

/-- TRIG_OUT_EDGE drives the first scheduled edge: the pulse lasts to TRG.OUTn_WIDTH after it, one under way is extended. -/
def Claims.GroupsAndArming.trigOutEdge_done : Prop :=
  ∀ (s : State) (n : Fin 2) (a : Stamp) (late : Bool) (r : List (Stamp × Bool)), s.alive 0 = true → s.trg.outs[n].edges = (a, late) :: r →
    ∃ t, exec (.trigOutEdge n) s = .next t ∧
      t.trg.outs[n] = { edges := r, level := true, pulseEnd := later a (ofNs (s.pkgN Fld.trgOutWidth n.val)) }

/-- TRIG_OUT_PULSE_END drives the pin low. -/
def Claims.GroupsAndArming.trigOutPulseEnd_done : Prop :=
  ∀ (s : State) (n : Fin 2), s.trg.outs[n].level = true →
    ∃ t, exec (.trigOutPulseEnd n) s = .next t ∧ t.trg.outs[n].level = false ∧ t.trg.outs[n].edges = s.trg.outs[n].edges

/-- Groups, arming and the trigger outputs. -/
def Obligations.GroupsAndArming : Prop :=
  Claims.GroupsAndArming.arm_done ∧
  Claims.GroupsAndArming.disarm_done ∧
  Claims.GroupsAndArming.arm_badArgument ∧
  Claims.GroupsAndArming.armTakeEffect_done ∧
  Claims.GroupsAndArming.disarmTakeEffect_done ∧
  Claims.GroupsAndArming.groupFireRequest_accepts ∧
  Claims.GroupsAndArming.groupFireRequest_merges ∧
  Claims.GroupsAndArming.mergesWith_window ∧
  Claims.GroupsAndArming.groupFireBroadcast_member ∧
  Claims.GroupsAndArming.trigOutEdge_done ∧
  Claims.GroupsAndArming.trigOutPulseEnd_done

/-- SEGMENT_POST_DONE of a unit in its post-trigger part completes the segment, of what the input samples brought give, and
leaves the unit dead: in PREFILL while a slot is free, else in WAIT_SLOT. -/
def Claims.SegmentsAndMasks.segmentPostDone_done : Prop :=
  ∀ (s : State) (b : BayNo) (u : Fin 8) (xs : List Sample) (g : Segment), s.alive b = true → (s.unit b u).state = .post →
    (s.unit b u).segments = [g] → g.done = false → g.last = none →
    xs.length = (if g.pre + g.post = 0 then 0 else ((s.bay b).ddc[s.unitPort b u].needs g.first (g.pre + g.post)).2) →
    ∃ t, exec (.segmentPostDone b u xs) s = .next t ∧ (t.unit b u).dead = true ∧
      (t.unit b u).state = (if 1 < s.fldN Fld.trgUSlots b u.val then .prefill else .waitSlot) ∧
      ((t.unit b u).segments.map (·.done)) = [true] ∧ (t.unit b u).count = (s.unit b u).count

/-- SLOT_FREED after the segment's records frees the oldest slot; a unit that waited for it goes on to PREFILL. -/
def Claims.SegmentsAndMasks.slotFreed_done : Prop :=
  ∀ (s : State) (b : BayNo) (u : Fin 8) (g : Segment) (r : List Segment), s.alive b = true → (s.unit b u).segments = g :: r → g.done = true →
    ∃ t, exec (.slotFreed b u) s = .next t ∧ (t.unit b u).segments = r ∧
      (t.unit b u).state = (if (s.unit b u).state = .waitSlot then .prefill else (s.unit b u).state)

/-- UNIT_REARM of a unit in PREFILL with a free slot arms it again within its cycle, or leaves it IDLE after it. -/
def Claims.SegmentsAndMasks.unitRearm_done : Prop :=
  ∀ (s : State) (b : BayNo) (u : Fin 8), s.alive b = true → (s.unit b u).state = .prefill → s.slotFree b u = true →
    s.fldN Fld.trgUCount b u.val = 0 →
    ∃ t, exec (.unitRearm b u) s = .next t ∧ (t.unit b u).state = (if (s.unit b u).inCycle then .armed else .idle) ∧
      (t.unit b u).lastInstant = (s.unit b u).lastInstant ∧ (t.unit b u).missed = (s.unit b u).missed

/-- Its dead time is at least the holdoff set at the trigger. -/
def Claims.SegmentsAndMasks.unitRearm_holdoff : Prop :=
  ∀ (s : State) (b : BayNo) (u : Fin 8), s.alive b = true → (s.unit b u).state = .prefill → s.slotFree b u = true →
    s.fldN Fld.trgUCount b u.val = 0 → (s.unit b u).liveFrom = none →
    stampLe (s.rearmStamp b u) (s.unit b u).holdoffTo = true →
    ∃ t, exec (.unitRearm b u) s = .next t ∧ (t.unit b u).deadUnits = ((s.unit b u).holdoffTo - (s.unit b u).lastInstant).toNat

/-- MASK_BUMP with another generation stores it, clears DIRTY and starts a copy in every unit that uses the mask; the working
copies stay. -/
def Claims.SegmentsAndMasks.maskBump_done : Prop :=
  ∀ (s : State) (b : BayNo) (m : Fin 8) (g : BitVec 16), s.queueAwake b = true → (s.bay b).trg.masks[m].gen ≠ g →
    ∃ t, exec (.maskBump b m g) s = .next t ∧ (t.bay b).trg.masks[m] = { gen := g, dirty := false } ∧
      (t.bay b).trg.store = (s.bay b).trg.store ∧
      (∀ u : Fin 8, (t.unit b u).copy = (s.unit b u).copy ∧ (u ∈ s.maskUsers b m.val → (t.unit b u).spareReady = false ∧
        (t.unit b u).spare = some { entries := s.maskEntries b m.val, gen := g, dirty := false }))

/-- One with the generation in force changes nothing. -/
def Claims.SegmentsAndMasks.maskBump_same : Prop :=
  ∀ (s : State) (b : BayNo) (m : Fin 8), ∃ t, exec (.maskBump b m (s.bay b).trg.masks[m].gen) s = .next t ∧ t = s

/-- MASK_COPY_DONE makes the unit's spare copy ready for the next hop boundary. -/
def Claims.SegmentsAndMasks.maskCopyDone_done : Prop :=
  ∀ (s : State) (b : BayNo) (u : Fin 8) (c : MaskCopy), s.alive b = true → (s.unit b u).spare = some c →
    ∃ t, exec (.maskCopyDone b u) s = .next t ∧ t = s.modUnit b u fun y => { y with spareReady := true }

/-- MASK_STORE_WRITE writes the entry, makes every mask whose extent holds it dirty and leaves every working copy as it is. -/
def Claims.SegmentsAndMasks.maskStoreWrite_done : Prop :=
  ∀ (s : State) (b : BayNo) (e : BitVec 17) (v : Word), s.queueAwake b = true →
    ∃ t, exec (.maskStoreWrite b e v) s = .next t ∧ Sparse.get 0x80008000 (t.bay b).trg.store e.toNat = v ∧
      (∀ k : Fin 131072, k.val ≠ e.toNat →
        Sparse.get 0x80008000 (t.bay b).trg.store k.val = Sparse.get 0x80008000 (s.bay b).trg.store k.val) ∧
      (∀ m : Fin 8, (t.bay b).trg.masks[m].dirty = ((s.bay b).trg.masks[m].dirty || s.inMaskExtent b m.val e.toNat)) ∧
      (∀ u : Fin 8, (t.unit b u).copy = (s.unit b u).copy)

/-- Segments, re-arm and the mask store. -/
def Obligations.SegmentsAndMasks : Prop :=
  Claims.SegmentsAndMasks.segmentPostDone_done ∧
  Claims.SegmentsAndMasks.slotFreed_done ∧
  Claims.SegmentsAndMasks.unitRearm_done ∧
  Claims.SegmentsAndMasks.unitRearm_holdoff ∧
  Claims.SegmentsAndMasks.maskBump_done ∧
  Claims.SegmentsAndMasks.maskBump_same ∧
  Claims.SegmentsAndMasks.maskCopyDone_done ∧
  Claims.SegmentsAndMasks.maskStoreWrite_done

/-- SCN_LATCH_POINT with COMMIT set makes the expected CRCs written the active ones, returns COMMIT to 0, empties the shadow
values and counts the frame. -/
def Claims.ScanOut.scnLatchPoint_commit : Prop :=
  ∀ (s : State) (b : BayNo), s.scnAwake b = true → (s.scn b).on = true → (s.scn b).commit = true →
    ∃ t, exec (.scnLatchPoint b) s = .next t ∧ (t.scn b).commit = false ∧ (t.scn b).shadow = [] ∧
      (t.scn b).exp = (s.scn b).expShadow ∧ (t.scn b).frame = (s.scn b).frame + 1 ∧ (t.scn b).blanked = false

/-- With COMMIT 0 every setting and every expected CRC keeps its value. -/
def Claims.ScanOut.scnLatchPoint_keeps : Prop :=
  ∀ (s : State) (b : BayNo), s.scnAwake b = true → (s.scn b).on = true → (s.scn b).commit = false →
    ∃ t, exec (.scnLatchPoint b) s = .next t ∧ t.vals = s.vals ∧ (t.scn b).exp = (s.scn b).exp ∧ (t.scn b).shadow = (s.scn b).shadow ∧
      (t.scn b).frame = (s.scn b).frame + 1 ∧ (t.scn b).mem = (s.scn b).mem

/-- A posted buffer whose expected CRC is known is adopted with it. -/
def Claims.ScanOut.scnLatchPoint_readout : Prop :=
  ∀ (s : State) (b : BayNo) (cells : ReadoutCells) (crc : Word), s.scnAwake b = true → (s.scn b).on = true →
    (s.scn b).ro.ready = some (cells, crc) →
    ∃ t, exec (.scnLatchPoint b) s = .next t ∧ (t.scn b).ro.shown = some cells ∧ (t.scn b).ro.expected = crc ∧
      (t.scn b).ro.ready = none ∧ (t.scn b).ro.stale = false

/-- With none and a stale buffer due, the stale buffer is adopted. -/
def Claims.ScanOut.scnLatchPoint_stale : Prop :=
  ∀ (s : State) (b : BayNo), s.scnAwake b = true → (s.scn b).on = true → (s.scn b).commit = false → (s.scn b).ro.ready = none →
    (s.scn b).ro.staleDue = true →
    ∃ t, exec (.scnLatchPoint b) s = .next t ∧
      (t.scn b).ro.shown = some (List.replicate (s.fldN Fld.scnRoCols b * s.fldN Fld.scnRoRows b) 0x012D) ∧ (t.scn b).ro.stale = true

/-- SCN_COMMIT_WRITE sets or withdraws COMMIT and nothing else. -/
def Claims.ScanOut.scnCommitWrite_done : Prop :=
  ∀ (s : State) (b : BayNo) (v : Bool), s.scnAwake b = true →
    ∃ t, exec (.scnCommitWrite b v) s = .next t ∧ t = s.modScn b fun y => { y with commit := v }

/-- SCN_CRC_COMPARE of a rectangle in use whose last pixel has been drawn holds its CRC as composed, altered by what a fault of
the path changed, and marks it compared in mode 2, mismatched where it differs from the expected value. -/
def Claims.ScanOut.scnCrcCompare_done : Prop :=
  ∀ (s : State) (b : BayNo) (r : Fin 15) (u : Word), s.scnAwake b = true → (s.scn b).on = true → s.crcMode b r.castSucc ≠ 0 →
    (s.scn b).now.done.getLsbD r.val = false → (s.scn b).blanked = false →
    ∃ t, exec (.scnCrcCompare b r.castSucc u) s = .next t ∧ (t.scn b).now.done.getLsbD r.val = true ∧
      (t.scn b).now.crcs[r.castSucc] = s.rectCrc b r.castSucc ^^^ u ∧
      (t.scn b).now.compared.getLsbD r.val = ((s.scn b).now.compared.getLsbD r.val || decide (s.crcMode b r.castSucc = 2)) ∧
      (t.scn b).now.mismatched.getLsbD r.val = ((s.scn b).now.mismatched.getLsbD r.val ||
        decide (s.crcMode b r.castSucc = 2) && decide (s.rectCrc b r.castSucc ^^^ u ≠ (s.scn b).exp[r]))

/-- A mismatch of the readout rectangle counts, and the first of a run enters the seal log. -/
def Claims.ScanOut.scnCrcCompare_readout : Prop :=
  ∀ (s : State) (b : BayNo) (u : Word), s.scnAwake b = true → (s.scn b).on = true → s.fldB Fld.scnRoEn b = true →
    (s.scn b).now.done.getLsbD 15 = false → (s.scn b).blanked = false → s.rectCrc b 15 ^^^ u ≠ (s.scn b).ro.expected →
    ∃ t, exec (.scnCrcCompare b 15 u) s = .next t ∧ (t.scn b).ro.run = (s.scn b).ro.run + 1 ∧
      (t.scn b).ro.mismatches = (s.scn b).ro.mismatches + 1

/-- VERTICAL_BLANKING_START makes the frame's results readable, once a frame. -/
def Claims.ScanOut.verticalBlankingStart_done : Prop :=
  ∀ (s : State) (b : BayNo), s.scnAwake b = true → (s.scn b).on = true → (s.scn b).blanked = false →
    ∃ t, exec (.verticalBlankingStart b) s = .next t ∧ (t.scn b).crc = (s.scn b).now ∧ (t.scn b).crcBefore = (s.scn b).crc ∧
      (t.scn b).blanked = true ∧ (t.scn b).frame = (s.scn b).frame

/-- Inside the readout rectangle a pixel is the readout buffer's, whatever every other layer, setting and memory holds. -/
def Claims.ScanOut.pixel_readout : Prop :=
  ∀ (s : State) (b : BayNo) (x y : Nat), s.fldB Fld.scnRoEn b = true → inRect (s.roRect b) x y = true →
    s.pixel b x y = s.roPixel b ((s.scn b).ro.shown.getD (s.staleCells b)) (x - (s.roRect b).1) (y - (s.roRect b).2.1)

/-- Where no layer draws a pixel is the background's colour. -/
def Claims.ScanOut.pixel_background : Prop :=
  ∀ (s : State) (b : BayNo) (x y : Nat), s.fldB Fld.scnRoEn b = false → s.fldB Fld.scnTextEn b = false → s.fldB Fld.scnGratEn b = false →
    s.fldB Fld.scnDenEn b = false → (∀ i : Fin 8, s.fldB Fld.scnSEn b i.val = false) →
    s.pixel b x y = BitVec.ofNat 30 (s.fldN Fld.scnBgColour b)

/-- A palette index is 0 exactly for a count of 0, 1023 at most, and 1023 from the full count on. -/
def Claims.ScanOut.paletteIndex_range : Prop :=
  ∀ (n full : Nat), paletteIndex n full ≤ 1023 ∧ (paletteIndex n full = 0 ↔ n = 0) ∧ (0 < full → full ≤ n → paletteIndex n full = 1023)

/-- POST_COPY_DONE of a copy that nobody changed hands the buffer to the sealed side, in place of one not yet adopted. -/
def Claims.ScanOut.postCopyDone_done : Prop :=
  ∀ (s : State) (b : BayNo) (c : CoreNo) (start : Nat) (ws : List Word), s.alive b = true → (s.core b c).copying = some (.post start ws) →
    ws = (s.core b c).peekWords start ws.length →
    ∃ t, exec (.postCopyDone b c) s = .next t ∧ (t.core b c).copying = none ∧ (t.scn b).ro.ready = none ∧
      (t.scn b).ro.posted = some ((ws.flatMap fun v => [v.extractLsb' 0 16, v.extractLsb' 16 16]).take
        (s.fldN Fld.scnRoCols b * s.fldN Fld.scnRoRows b), s.nowAt b)

/-- RO_REFERENCE_DONE finds the posted buffer's expected CRC by the reference rendering. -/
def Claims.ScanOut.roReferenceDone_done : Prop :=
  ∀ (s : State) (b : BayNo) (cells : ReadoutCells) (a : Stamp), s.alive b = true → (s.scn b).ro.posted = some (cells, a) →
    ∃ t, exec (.roReferenceDone b) s = .next t ∧ (t.scn b).ro.posted = none ∧ (t.scn b).ro.ready = some (cells, s.roExpected b cells) ∧
      (t.scn b).ro.shown = (s.scn b).ro.shown

/-- RO_STALE_TIMEOUT with RO_STALE set makes the stale buffer due; the buffer shown stays until a latch point. -/
def Claims.ScanOut.roStaleTimeout_done : Prop :=
  ∀ (s : State) (b : BayNo), s.scnAwake b = true → (s.scn b).on = true → s.fldB Fld.scnRoEn b = true → s.fldN Fld.scnRoStale b ≠ 0 →
    (s.scn b).ro.stale = false →
    ∃ t, exec (.roStaleTimeout b) s = .next t ∧ (t.scn b).ro.staleDue = true ∧ (t.scn b).ro.shown = (s.scn b).ro.shown

/-- DP_HPD_RISE reads 256 bytes of EDID and starts training. -/
def Claims.ScanOut.dpHpdRise_done : Prop :=
  ∀ (s : State) (b : BayNo) (e : List Byte), s.scnAwake b = true → (s.scn b).hpd = false →
    ∃ t, exec (.dpHpdRise b e) s = .next t ∧ t = s.modScn b fun y =>
      { y with hpd := true, edid := (e ++ List.replicate 256 0).take 256, training := true, retryFrom := none }

/-- DP_HPD_IRQ that reports lost link status takes the link down and trains again. -/
def Claims.ScanOut.dpHpdIrq_done : Prop :=
  ∀ (s : State) (b : BayNo), s.scnAwake b = true → (s.scn b).hpd = true →
    ∃ t, exec (.dpHpdIrq b true) s = .next t ∧ (t.scn b).linkUp = false ∧ (t.scn b).training = true

/-- DP_HPD_FALL takes the link down, raises EV_DP_HPD_LOST and leaves the raster running. -/
def Claims.ScanOut.dpHpdFall_done : Prop :=
  ∀ (s : State) (b : BayNo), s.scnAwake b = true → (s.scn b).hpd = true →
    ∃ t, exec (.dpHpdFall b) s = .next t ∧ s.Told t b 0x0912 [] ∧ (t.scn b).hpd = false ∧ (t.scn b).linkUp = false ∧
      (t.scn b).on = (s.scn b).on ∧ (t.scn b).frame = (s.scn b).frame

/-- DP_LINK_TRAIN_DONE ends training: the link is up and counted, or training has failed, is counted and is due again. -/
def Claims.ScanOut.dpLinkTrainDone_done : Prop :=
  ∀ (s : State) (b : BayNo) (ok : Bool), s.scnAwake b = true → (s.scn b).training = true →
    ∃ t, exec (.dpLinkTrainDone b ok) s = .next t ∧ s.Told t b (if ok then 0x0910 else 0x0911) [] ∧ (t.scn b).training = false ∧
      (t.scn b).linkUp = ok ∧ (t.scn b).trained = (if ok then (s.scn b).trained + 1 else (s.scn b).trained) ∧
      (t.scn b).failed = (if ok then (s.scn b).failed else (s.scn b).failed + 1)

/-- DP_TRAIN_RETRY_TIMER 1 s after a failure starts training again while a sink is there. -/
def Claims.ScanOut.dpTrainRetryTimer_done : Prop :=
  ∀ (s : State) (b : BayNo) (a : Stamp), s.scnAwake b = true → (s.scn b).hpd = true → (s.scn b).retryFrom = some a →
    ∃ t, exec (.dpTrainRetryTimer b) s = .next t ∧ (t.scn b).training = true ∧ (t.scn b).retryFrom = none ∧
      (stampLe s.now (later a (ofMs 1000)) = true → stampLe (later a (ofMs 1000)) t.now = true)

/-- The raster's latch point, composition, CRC rectangles, the verified readout and the DisplayPort link. -/
def Obligations.ScanOut : Prop :=
  Claims.ScanOut.scnLatchPoint_commit ∧
  Claims.ScanOut.scnLatchPoint_keeps ∧
  Claims.ScanOut.scnLatchPoint_readout ∧
  Claims.ScanOut.scnLatchPoint_stale ∧
  Claims.ScanOut.scnCommitWrite_done ∧
  Claims.ScanOut.scnCrcCompare_done ∧
  Claims.ScanOut.scnCrcCompare_readout ∧
  Claims.ScanOut.verticalBlankingStart_done ∧
  Claims.ScanOut.pixel_readout ∧
  Claims.ScanOut.pixel_background ∧
  Claims.ScanOut.paletteIndex_range ∧
  Claims.ScanOut.postCopyDone_done ∧
  Claims.ScanOut.roReferenceDone_done ∧
  Claims.ScanOut.roStaleTimeout_done ∧
  Claims.ScanOut.dpHpdRise_done ∧
  Claims.ScanOut.dpHpdIrq_done ∧
  Claims.ScanOut.dpHpdFall_done ∧
  Claims.ScanOut.dpLinkTrainDone_done ∧
  Claims.ScanOut.dpTrainRetryTimer_done

/-- A written register reads as the value, G0 as zero, and no other register of the bank in use changes. -/
def Claims.CoreArithmetic.setReg_reg : Prop :=
  ∀ (k : Core) (r x : CReg) (v : Word), (k.setReg r v).reg x = (if x = r then (if r.val = 0 then 0 else v) else k.reg x)

/-- Each ALU mnemonic, when the core can issue and the word at its PC is that function, writes the function's value to rd, sets
OVF when it saturates, and goes on with the next instruction; nothing else of the core changes but its cycles. -/
def Claims.CoreArithmetic.alu_done : Prop :=
  ∀ (s : State) (b : BayNo) (c : CoreNo) (fa : AluFn) (rd ra rb : CReg) (sh : Nat), s.canIssue b c = true →
    decodeCore (s.core b c).word = some (.alu fa rd ra rb sh) →
    ∃ t, exec (fa.command b c) s = .next t ∧
      (∀ x, (t.core b c).reg x = (if x = rd then (if rd.val = 0 then 0 else (fa.value ((s.core b c).reg ra) ((s.core b c).reg rb) sh).1)
        else (s.core b c).reg x)) ∧
      (t.core b c).bare = { (s.core b c).bare with
        ovf := (s.core b c).ovf || (fa.value ((s.core b c).reg ra) ((s.core b c).reg rb) sh).2 } ∧
      (t.core b c).pc = (s.core b c).pc + 1

/-- ADDS, SUBS and ABS give the exact result limited to signed 32 bits and report whether it was limited. -/
def Claims.CoreArithmetic.alu_saturating : Prop :=
  ∀ (x y : Word) (sh : Nat),
    (AluFn.value .adds x y sh).1.toInt = max (-2147483648) (min 2147483647 (x.toInt + y.toInt)) ∧
    (AluFn.value .subs x y sh).1.toInt = max (-2147483648) (min 2147483647 (x.toInt - y.toInt)) ∧
    (AluFn.value .abs x y sh).1.toInt = min 2147483647 x.toInt.natAbs ∧
    ((AluFn.value .adds x y sh).2 = true ↔ x.toInt + y.toInt < -2147483648 ∨ 2147483647 < x.toInt + y.toInt) ∧
    ((AluFn.value .abs x y sh).2 = true ↔ x = 0x80000000)

/-- CLZ counts the zero bits above the highest one, 32 for zero. -/
def Claims.CoreArithmetic.alu_clz : Prop :=
  ∀ (x y : Word) (sh : Nat), AluFn.value .clz 0 y sh = (32, false) ∧
    (x ≠ 0 → ((AluFn.value .clz x y sh).1.toNat < 32 ∧ 2 ^ (31 - (AluFn.value .clz x y sh).1.toNat) ≤ x.toNat ∧
      x.toNat < 2 ^ (32 - (AluFn.value .clz x y sh).1.toNat)))

/-- MUL16 is the exact product of the signed low halves; MIN, MAX, MINU and MAXU choose by signed and unsigned order; SLT and
SLTU give 1 or 0. -/
def Claims.CoreArithmetic.alu_mul16 : Prop :=
  ∀ (x y : Word) (sh : Nat),
    (AluFn.value .mul16 x y sh).1.toInt = (x.extractLsb' 0 16).toInt * (y.extractLsb' 0 16).toInt ∧
    (AluFn.value .min x y sh).1.toInt = min x.toInt y.toInt ∧ (AluFn.value .max x y sh).1.toInt = max x.toInt y.toInt ∧
    (AluFn.value .minu x y sh).1.toNat = min x.toNat y.toNat ∧ (AluFn.value .maxu x y sh).1.toNat = max x.toNat y.toNat ∧
    (AluFn.value .slt x y sh).1 = (if x.toInt < y.toInt then 1 else 0) ∧ (AluFn.value .sltu x y sh).1 = (if x.toNat < y.toNat then 1 else 0)

/-- Each immediate mnemonic writes its value to rd and changes nothing else of the core but PC and cycles. -/
def Claims.CoreArithmetic.imm_done : Prop :=
  ∀ (s : State) (b : BayNo) (c : CoreNo) (fi : ImmFn) (rd ra : CReg) (v : BitVec 16), s.canIssue b c = true →
    decodeCore (s.core b c).word = some (.imm fi rd ra v) →
    ∃ t, exec (fi.command b c) s = .next t ∧
      (∀ x, (t.core b c).reg x = (if x = rd then (if rd.val = 0 then 0 else fi.value ((s.core b c).reg ra) v) else (s.core b c).reg x)) ∧
      (t.core b c).bare = (s.core b c).bare ∧ (t.core b c).pc = (s.core b c).pc + 1

/-- NOP changes nothing but PC and cycles. -/
def Claims.CoreArithmetic.nop_done : Prop :=
  ∀ (s : State) (b : BayNo) (c : CoreNo), s.canIssue b c = true → decodeCore (s.core b c).word = some .nop →
    ∃ t, exec (.nop b c) s = .next t ∧ (t.core b c).timeless = (s.core b c).timeless ∧ (t.core b c).pc = (s.core b c).pc + 1

/-- MAC adds or subtracts the exact product of two register halves to the accumulator, or takes it in place of the sum, limited
to 40 bits with OVF set. -/
def Claims.CoreArithmetic.mac_done : Prop :=
  ∀ (s : State) (b : BayNo) (c : CoreNo) (a : Fin 2) (neg clr : Bool) (ty : Fin 3) (ra rb : CReg) (ha hb : Bool), s.canIssue b c = true →
    decodeCore (s.core b c).word = some (.mac a neg clr ty ra rb ha hb) →
    ∃ t, exec (.mac b c) s = .next t ∧
      ((t.core b c).acc[a]).toInt = max (-549755813888) (min 549755813887 ((if clr then 0 else ((s.core b c).acc[a]).toInt) +
        (if neg then -1 else 1) * mulOf ty (halfOf ((s.core b c).reg ra) ha) (halfOf ((s.core b c).reg rb) hb))) ∧
      (∀ x, (t.core b c).reg x = (s.core b c).reg x) ∧ (t.core b c).mem = (s.core b c).mem ∧
      (t.core b c).pc = (s.core b c).pc + 1

/-- MACP does the same with the 16-bit elements at two pointers, each then post-modified; with one pointer the element is both
operands and the pointer moves once. -/
def Claims.CoreArithmetic.macp_done : Prop :=
  ∀ (s : State) (b : BayNo) (c : CoreNo) (a : Fin 2) (neg clr : Bool) (ty : Fin 3) (p : Fin 8) (q : AddrReg), s.canIssue b c = true →
    decodeCore (s.core b c).word = some (.macp a neg clr ty p p) → ((s.core b c).ptr p).next = some q →
    ((s.core b c).ptr p).p.toNat % 2 = 0 →
    ∃ t, exec (.macp b c) s = .next t ∧ (t.core b c).ptr p = q ∧
      ((t.core b c).acc[a]).toInt = max (-549755813888) (min 549755813887 ((if clr then 0 else ((s.core b c).acc[a]).toInt) +
        (if neg then -1 else 1) * mulOf ty (BitVec.ofNat 16 ((s.core b c).peek ((s.core b c).ptr p).p.toNat 2))
          (BitVec.ofNat 16 ((s.core b c).peek ((s.core b c).ptr p).p.toNat 2)))) ∧
      (∀ x, (t.core b c).reg x = (s.core b c).reg x) ∧ (t.core b c).mem = (s.core b c).mem

/-- With two pointers each element is read before either moves. -/
def Claims.CoreArithmetic.macp_two : Prop :=
  ∀ (s : State) (b : BayNo) (c : CoreNo) (a : Fin 2) (ty : Fin 3) (p p' : Fin 8) (q q' : AddrReg), s.canIssue b c = true → p ≠ p' →
    decodeCore (s.core b c).word = some (.macp a false true ty p p') → ((s.core b c).ptr p).next = some q →
    ((s.core b c).ptr p').next = some q' → ((s.core b c).ptr p).p.toNat % 2 = 0 → ((s.core b c).ptr p').p.toNat % 2 = 0 →
    ∃ t, exec (.macp b c) s = .next t ∧ (t.core b c).ptr p = q ∧ (t.core b c).ptr p' = q' ∧
      ((t.core b c).acc[a]).toInt = mulOf ty (BitVec.ofNat 16 ((s.core b c).peek ((s.core b c).ptr p).p.toNat 2))
        (BitVec.ofNat 16 ((s.core b c).peek ((s.core b c).ptr p').p.toNat 2))

/-- LDA takes a shifted register into the accumulator; ADDA adds it, limited to 40 bits. -/
def Claims.CoreArithmetic.lda_done : Prop :=
  ∀ (s : State) (b : BayNo) (c : CoreNo) (a : Fin 2) (r : CReg) (sh : Nat), s.canIssue b c = true →
    decodeCore (s.core b c).word = some (.lda a r sh) →
    ∃ t, exec (.lda b c) s = .next t ∧ ((t.core b c).acc[a]).toInt = ((s.core b c).reg r).toInt * 2 ^ sh ∧
      (∀ x, (t.core b c).reg x = (s.core b c).reg x) ∧ (t.core b c).ovf = (s.core b c).ovf ∧ (t.core b c).pc = (s.core b c).pc + 1

/-- (ADDA.). -/
def Claims.CoreArithmetic.adda_done : Prop :=
  ∀ (s : State) (b : BayNo) (c : CoreNo) (a : Fin 2) (r : CReg) (sh : Nat), s.canIssue b c = true →
    decodeCore (s.core b c).word = some (.adda a r sh) →
    ∃ t, exec (.adda b c) s = .next t ∧ ((t.core b c).acc[a]).toInt =
        max (-549755813888) (min 549755813887 (((s.core b c).acc[a]).toInt + ((s.core b c).reg r).toInt * 2 ^ sh)) ∧
      (∀ x, (t.core b c).reg x = (s.core b c).reg x) ∧ (t.core b c).pc = (s.core b c).pc + 1

/-- STA writes the accumulator, shifted right and rounded, limited to 16 or 32 signed bits, to its register. -/
def Claims.CoreArithmetic.sta_done : Prop :=
  ∀ (s : State) (b : BayNo) (c : CoreNo) (a : Fin 2) (r : CReg) (sh : Nat) (wide : Bool) (m : Fin 3), s.canIssue b c = true →
    decodeCore (s.core b c).word = some (.sta a r sh wide m) →
    ∃ t, exec (.sta b c) s = .next t ∧
      (r.val ≠ 0 → ((t.core b c).reg r).toInt =
        (if wide then max (-2147483648) (min 2147483647 (roundShift ((s.core b c).acc[a]).toInt sh m))
          else max (-32768) (min 32767 (roundShift ((s.core b c).acc[a]).toInt sh m)))) ∧
      (∀ x, x ≠ r → (t.core b c).reg x = (s.core b c).reg x) ∧
      (t.core b c).acc = (s.core b c).acc ∧ (t.core b c).pc = (s.core b c).pc + 1

/-- Truncating, the shifted value is the floor of the quotient; rounding half up and half to even both give a value within half
a step of the exact quotient. -/
def Claims.CoreArithmetic.roundShift_near : Prop :=
  ∀ (v : Int) (sh : Nat) (m : Fin 3), roundShift v sh 0 = v / 2 ^ sh ∧
    (m ≠ 0 → 2 * (roundShift v sh m * 2 ^ sh - v) ≤ 2 ^ sh ∧ -(2 ^ sh : Int) ≤ 2 * (roundShift v sh m * 2 ^ sh - v))

/-- SHA shifts the accumulator: right arithmetically for a negative amount, left with saturation for a positive one. -/
def Claims.CoreArithmetic.sha_done : Prop :=
  ∀ (s : State) (b : BayNo) (c : CoreNo) (a : Fin 2) (sh : Int), s.canIssue b c = true → decodeCore (s.core b c).word = some (.sha a sh) →
    ∃ t, exec (.sha b c) s = .next t ∧ ((t.core b c).acc[a]).toInt =
        (if sh < 0 then ((s.core b c).acc[a]).toInt / 2 ^ (-sh).toNat
         else max (-549755813888) (min 549755813887 (((s.core b c).acc[a]).toInt * 2 ^ sh.toNat))) ∧
      (∀ x, (t.core b c).reg x = (s.core b c).reg x) ∧ (t.core b c).pc = (s.core b c).pc + 1

/-- SRST sets the element index and the search registers to their starting values. -/
def Claims.CoreArithmetic.srst_done : Prop :=
  ∀ (s : State) (b : BayNo) (c : CoreNo) (ra : CReg), s.canIssue b c = true → decodeCore (s.core b c).word = some (.srst ra) →
    ∃ t, exec (.srst b c) s = .next t ∧ (t.core b c).timeless = { (s.core b c).timeless with
        sidx := (s.core b c).reg ra, mxv := 0x80000000, mnv := 0x7FFFFFFF, mxi := 0xFFFFFFFF, mni := 0xFFFFFFFF } ∧
      (t.core b c).pc = (s.core b c).pc + 1

/-- SMAX, SMIN and SMM compare the sign-extended element at the pointer: a strictly larger value replaces the maximum with its
index, a strictly smaller one the minimum; with SKIP the lowest code replaces neither; SIDX and the pointer move on. -/
def Claims.CoreArithmetic.search_done : Prop :=
  ∀ (s : State) (b : BayNo) (c : CoreNo) (fs : SearchFn) (p : Fin 8) (wide skip : Bool) (q : AddrReg), s.canIssue b c = true →
    decodeCore (s.core b c).word = some (.search fs p wide skip) → ((s.core b c).ptr p).next = some q →
    ((s.core b c).ptr p).p.toNat % (if wide then 4 else 2) = 0 →
    ∃ t, exec (fs.command b c) s = .next t ∧ (t.core b c).ptr p = q ∧ (t.core b c).sidx = (s.core b c).sidx + 1 ∧
      (t.core b c).mxv = (if fs ≠ .smin ∧ (s.core b c).mxv.toInt < ((s.core b c).element ((s.core b c).ptr p).p.toNat wide).toInt ∧
          ¬ (skip = true ∧ (s.core b c).element ((s.core b c).ptr p).p.toNat wide = skipValue wide)
        then (s.core b c).element ((s.core b c).ptr p).p.toNat wide else (s.core b c).mxv) ∧
      (t.core b c).mnv = (if fs ≠ .smax ∧ ((s.core b c).element ((s.core b c).ptr p).p.toNat wide).toInt < (s.core b c).mnv.toInt ∧
          ¬ (skip = true ∧ (s.core b c).element ((s.core b c).ptr p).p.toNat wide = skipValue wide)
        then (s.core b c).element ((s.core b c).ptr p).p.toNat wide else (s.core b c).mnv) ∧
      (∀ x, (t.core b c).reg x = (s.core b c).reg x) ∧ (t.core b c).pc = (s.core b c).pc + 1

/-- Arithmetic, accumulators and searches of the measurement cores. -/
def Obligations.CoreArithmetic : Prop :=
  Claims.CoreArithmetic.setReg_reg ∧
  Claims.CoreArithmetic.alu_done ∧
  Claims.CoreArithmetic.alu_saturating ∧
  Claims.CoreArithmetic.alu_clz ∧
  Claims.CoreArithmetic.alu_mul16 ∧
  Claims.CoreArithmetic.imm_done ∧
  Claims.CoreArithmetic.nop_done ∧
  Claims.CoreArithmetic.mac_done ∧
  Claims.CoreArithmetic.macp_done ∧
  Claims.CoreArithmetic.macp_two ∧
  Claims.CoreArithmetic.lda_done ∧
  Claims.CoreArithmetic.adda_done ∧
  Claims.CoreArithmetic.sta_done ∧
  Claims.CoreArithmetic.roundShift_near ∧
  Claims.CoreArithmetic.sha_done ∧
  Claims.CoreArithmetic.srst_done ∧
  Claims.CoreArithmetic.search_done

/-- LD of an aligned address loads from the pointer's address into rd, sign-extended on request; with post-modify the pointer
moves on. -/
def Claims.CoreMemory.ld_done : Prop :=
  ∀ (s : State) (b : BayNo) (c : CoreNo) (rd : CReg) (p : Fin 8) (wd : CoreWidth) (sx pm : Bool) (off : BitVec 12) (q : AddrReg),
    s.canIssue b c = true → decodeCore (s.core b c).word = some (.ld rd p wd sx pm off) → (s.core b c).mAfter p pm = some q →
    (s.core b c).mAddress p pm off % wd.bytes = 0 →
    ∃ t, exec (.ld b c) s = .next t ∧
      (∀ x, (t.core b c).reg x = (if x = rd then (if rd.val = 0 then 0
        else extendLoad wd sx ((s.core b c).peek ((s.core b c).mAddress p pm off) wd.bytes)) else (s.core b c).reg x)) ∧
      (t.core b c).ptr p = q ∧ (t.core b c).mem = (s.core b c).mem ∧ (t.core b c).pc = (s.core b c).pc + 1

/-- A misaligned LD faults with cause 2 at its index and changes no register or memory. -/
def Claims.CoreMemory.ld_misaligned : Prop :=
  ∀ (s : State) (b : BayNo) (c : CoreNo) (rd : CReg) (p : Fin 8) (wd : CoreWidth) (sx pm : Bool) (off : BitVec 12) (q : AddrReg),
    s.canIssue b c = true → decodeCore (s.core b c).word = some (.ld rd p wd sx pm off) → (s.core b c).mAfter p pm = some q →
    (s.core b c).mAddress p pm off % wd.bytes ≠ 0 →
    ∃ t, exec (.ld b c) s = .next t ∧ (t.core b c).mode = .fault ∧ (t.core b c).faultCause = 2 ∧ (t.core b c).faultPc = (s.core b c).pc ∧
      (t.core b c).faults = (s.core b c).faults + 1 ∧ (∀ x, (t.core b c).reg x = (s.core b c).reg x) ∧ (t.core b c).mem = (s.core b c).mem

/-- ST of an aligned address stores the low bytes of rd there and nowhere else. -/
def Claims.CoreMemory.st_done : Prop :=
  ∀ (s : State) (b : BayNo) (c : CoreNo) (rd : CReg) (p : Fin 8) (wd : CoreWidth) (pm : Bool) (off : BitVec 12) (q : AddrReg),
    s.canIssue b c = true → decodeCore (s.core b c).word = some (.st rd p wd pm off) → (s.core b c).mAfter p pm = some q →
    (s.core b c).mAddress p pm off % wd.bytes = 0 → Sparse.wf 0 (s.core b c).mem = true →
    ∃ t, exec (.st b c) s = .next t ∧
      (t.core b c).peek ((s.core b c).mAddress p pm off) wd.bytes = ((s.core b c).reg rd).toNat % 256 ^ wd.bytes ∧
      (∀ a : Fin 131072, (a.val < (s.core b c).mAddress p pm off ∨ (s.core b c).mAddress p pm off + wd.bytes ≤ a.val) →
        (t.core b c).peek a.val 1 = (s.core b c).peek a.val 1) ∧
      (∀ x, (t.core b c).reg x = (s.core b c).reg x) ∧ (t.core b c).ptr p = q ∧ (t.core b c).pc = (s.core b c).pc + 1

/-- LDR and STR do the same at ra + off13. -/
def Claims.CoreMemory.ldr_done : Prop :=
  ∀ (s : State) (b : BayNo) (c : CoreNo) (rd ra : CReg) (wd : CoreWidth) (sx : Bool) (off : BitVec 13), s.canIssue b c = true →
    decodeCore (s.core b c).word = some (.ldr rd ra wd sx off) → (s.core b c).lAddress ra off % wd.bytes = 0 →
    ∃ t, exec (.ldr b c) s = .next t ∧
      (∀ x, (t.core b c).reg x = (if x = rd then (if rd.val = 0 then 0
        else extendLoad wd sx ((s.core b c).peek ((s.core b c).lAddress ra off) wd.bytes)) else (s.core b c).reg x)) ∧
      (t.core b c).bare = (s.core b c).bare ∧ (t.core b c).pc = (s.core b c).pc + 1

/-- (STR.). -/
def Claims.CoreMemory.str_done : Prop :=
  ∀ (s : State) (b : BayNo) (c : CoreNo) (rd ra : CReg) (wd : CoreWidth) (off : BitVec 13), s.canIssue b c = true →
    decodeCore (s.core b c).word = some (.str rd ra wd off) → (s.core b c).lAddress ra off % wd.bytes = 0 →
    Sparse.wf 0 (s.core b c).mem = true →
    ∃ t, exec (.str b c) s = .next t ∧
      (t.core b c).peek ((s.core b c).lAddress ra off) wd.bytes = ((s.core b c).reg rd).toNat % 256 ^ wd.bytes ∧
      (∀ a : Fin 131072, (a.val < (s.core b c).lAddress ra off ∨ (s.core b c).lAddress ra off + wd.bytes ≤ a.val) →
        (t.core b c).peek a.val 1 = (s.core b c).peek a.val 1) ∧
      (∀ x, (t.core b c).reg x = (s.core b c).reg x) ∧ (t.core b c).pc = (s.core b c).pc + 1

/-- Post-modify stays within the buffer in the modulo mode, and an illegal length or mode gives none. -/
def Claims.CoreMemory.addrReg_next : Prop :=
  ∀ (a : AddrReg), (a.mode = 1 → 1 ≤ a.len.toNat → a.len.toNat ≤ 131072 → ∃ q, a.next = some q ∧
      (q.p - a.base).toNat < max 1 a.len.toNat ∧ q.base = a.base ∧ q.len = a.len ∧ q.step = a.step ∧ q.mode = a.mode) ∧
    (a.mode = 3 → a.next = none) ∧ (a.mode = 1 → a.len = 0 → a.next = none)

/-- Loads, stores and address registers of the measurement cores. -/
def Obligations.CoreMemory : Prop :=
  Claims.CoreMemory.ld_done ∧
  Claims.CoreMemory.ld_misaligned ∧
  Claims.CoreMemory.st_done ∧
  Claims.CoreMemory.ldr_done ∧
  Claims.CoreMemory.str_done ∧
  Claims.CoreMemory.addrReg_next

/-- A branch whose condition holds goes to PC + 1 + off16, else to the next instruction; nothing else changes but the cycles. -/
def Claims.CoreFlow.branch_done : Prop :=
  ∀ (s : State) (b : BayNo) (c : CoreNo) (fb : BranchFn) (ra rb : CReg) (off : BitVec 16), s.canIssue b c = true →
    decodeCore (s.core b c).word = some (.branch fb ra rb off) →
    ∃ t, exec (fb.command b c) s = .next t ∧ (t.core b c).timeless = (s.core b c).timeless ∧
      (t.core b c).pc = (if fb.taken ((s.core b c).reg ra) ((s.core b c).reg rb) then (s.core b c).pc + 1 + off.setWidth 14
        else (s.core b c).pc + 1) ∧
      (t.core b c).cycles = (s.core b c).cycles + BitVec.ofNat 32 ((s.core b c).stall [ra.val, rb.val] +
        (if fb.taken ((s.core b c).reg ra) ((s.core b c).reg rb) then 3 else 1))

/-- JMP goes to its target; JAL also writes PC + 1 to rd, with no window change; JR goes to ra. -/
def Claims.CoreFlow.jmp_done : Prop :=
  ∀ (s : State) (b : BayNo) (c : CoreNo) (a : BitVec 14), s.canIssue b c = true → decodeCore (s.core b c).word = some (.jmp a) →
    ∃ t, exec (.jmp b c) s = .next t ∧ (t.core b c).timeless = (s.core b c).timeless ∧ (t.core b c).pc = a

/-- (JAL.). -/
def Claims.CoreFlow.jal_done : Prop :=
  ∀ (s : State) (b : BayNo) (c : CoreNo) (rd : CReg) (a : BitVec 14), s.canIssue b c = true → decodeCore (s.core b c).word = some (.jal rd a) →
    ∃ t, exec (.jal b c) s = .next t ∧ (t.core b c).pc = a ∧ (t.core b c).bare = (s.core b c).bare ∧
      (∀ x, (t.core b c).reg x = (if x = rd then (if rd.val = 0 then 0 else ((s.core b c).pc + 1).zeroExtend 32) else (s.core b c).reg x))

/-- (JR.). -/
def Claims.CoreFlow.jr_done : Prop :=
  ∀ (s : State) (b : BayNo) (c : CoreNo) (ra : CReg), s.canIssue b c = true → decodeCore (s.core b c).word = some (.jr ra) →
    ∃ t, exec (.jr b c) s = .next t ∧ (t.core b c).timeless = (s.core b c).timeless ∧
      (t.core b c).pc = ((s.core b c).reg ra).extractLsb' 0 14

/-- CALL outside a handler with a window free takes the next window, writes PC + 1 to its W11 and goes to the target; no window
but that one changes. -/
def Claims.CoreFlow.call_done : Prop :=
  ∀ (s : State) (b : BayNo) (c : CoreNo) (a : BitVec 14), s.canIssue b c = true → decodeCore (s.core b c).word = some (.call a) →
    (s.core b c).shadow = false → (s.core b c).resident < 8 →
    ∃ t, exec (.call b c) s = .next t ∧ (t.core b c).pc = a ∧ (t.core b c).cwp = (s.core b c).cwp + 1 ∧
      (t.core b c).resident = (s.core b c).resident + 1 ∧ (t.core b c).reg 27 = ((s.core b c).pc + 1).zeroExtend 32 ∧
      (∀ v, v ≠ (s.core b c).cwp + 1 → (t.core b c).windows[v] = (s.core b c).windows[v]) ∧
      (t.core b c).globals = (s.core b c).globals ∧ (t.core b c).mem = (s.core b c).mem

/-- With every window resident and room on the spill stack it first spills the oldest window. -/
def Claims.CoreFlow.call_spills : Prop :=
  ∀ (s : State) (b : BayNo) (c : CoreNo) (a : BitVec 14), s.canIssue b c = true → decodeCore (s.core b c).word = some (.call a) →
    (s.core b c).shadow = false → (s.core b c).resident = 8 → (s.core b c).ssp.toNat + 48 ≤ (s.core b c).slim.toNat →
    (s.core b c).ssp.toNat % 4 = 0 →
    ∃ t, exec (.call b c) s = .next t ∧ (t.core b c).pc = a ∧ (t.core b c).ssp = (s.core b c).ssp + 48 ∧ (t.core b c).resident = 8 ∧
      (t.core b c).spills = (s.core b c).spills + 1 ∧
      (t.core b c).mem = ((s.core b c).pokeWords (s.core b c).ssp.toNat (s.core b c).windows[(s.core b c).cwp + 1].toList).mem

/-- With no room it is not executed: SPILL_OVERFLOW enters the handler at index 4 with IRA at the CALL. -/
def Claims.CoreFlow.call_overflow : Prop :=
  ∀ (s : State) (b : BayNo) (c : CoreNo) (a : BitVec 14), s.canIssue b c = true → decodeCore (s.core b c).word = some (.call a) →
    (s.core b c).shadow = false → (s.core b c).resident = 8 → (s.core b c).slim.toNat < (s.core b c).ssp.toNat + 48 →
    ∃ t, exec (.call b c) s = .next t ∧ (t.core b c).pc = 4 ∧ (t.core b c).ira = (s.core b c).pc ∧ (t.core b c).shadow = true ∧
      (t.core b c).ie = false ∧ (t.core b c).istat = (s.core b c).ie ∧ (t.core b c).windows = (s.core b c).windows

/-- RET with more than one window resident returns to W11 in the window before. -/
def Claims.CoreFlow.ret_done : Prop :=
  ∀ (s : State) (b : BayNo) (c : CoreNo), s.canIssue b c = true → decodeCore (s.core b c).word = some .ret → (s.core b c).shadow = false →
    1 < (s.core b c).resident →
    ∃ t, exec (.ret b c) s = .next t ∧ (t.core b c).pc = ((s.core b c).reg 27).extractLsb' 0 14 ∧ (t.core b c).cwp = (s.core b c).cwp - 1 ∧
      (t.core b c).resident = (s.core b c).resident - 1 ∧ (t.core b c).windows = (s.core b c).windows ∧ (t.core b c).mem = (s.core b c).mem

/-- With one it fills the window before from the spill stack; with an empty stack it faults with cause 3. -/
def Claims.CoreFlow.ret_fills : Prop :=
  ∀ (s : State) (b : BayNo) (c : CoreNo), s.canIssue b c = true → decodeCore (s.core b c).word = some .ret → (s.core b c).shadow = false →
    (s.core b c).resident = 1 → (s.core b c).ssp ≠ (s.core b c).sbase → (s.core b c).ssp.toNat % 4 = 0 →
    ∃ t, exec (.ret b c) s = .next t ∧ (t.core b c).pc = ((s.core b c).reg 27).extractLsb' 0 14 ∧ (t.core b c).ssp = (s.core b c).ssp - 48 ∧
      (t.core b c).fills = (s.core b c).fills + 1 ∧
      (t.core b c).windows[(s.core b c).cwp - 1] =
        Vector.ofFn fun j : Fin 12 => (s.core b c).peekWord (((s.core b c).ssp - 48).toNat + 4 * j.val)

/-- (An empty spill stack.). -/
def Claims.CoreFlow.ret_empty : Prop :=
  ∀ (s : State) (b : BayNo) (c : CoreNo), s.canIssue b c = true → decodeCore (s.core b c).word = some .ret → (s.core b c).shadow = false →
    (s.core b c).resident = 1 → (s.core b c).ssp = (s.core b c).sbase →
    ∃ t, exec (.ret b c) s = .next t ∧ (t.core b c).mode = .fault ∧ (t.core b c).faultCause = 3 ∧ (t.core b c).faultPc = (s.core b c).pc

/-- CALL in a handler is a double fault, and so is RET. -/
def Claims.CoreFlow.callRet_double : Prop :=
  ∀ (s : State) (b : BayNo) (c : CoreNo) (a : BitVec 14), s.canIssue b c = true → decodeCore (s.core b c).word = some (.call a) →
    (s.core b c).shadow = true →
    ∃ t, exec (.call b c) s = .next t ∧ (t.core b c).mode = .fault ∧ (t.core b c).faultCause = 4 ∧ (t.core b c).faultPc = (s.core b c).pc

/-- (RET.). -/
def Claims.CoreFlow.ret_double : Prop :=
  ∀ (s : State) (b : BayNo) (c : CoreNo), s.canIssue b c = true → decodeCore (s.core b c).word = some .ret →
    (s.core b c).shadow = true →
    ∃ t, exec (.ret b c) s = .next t ∧ (t.core b c).mode = .fault ∧ (t.core b c).faultCause = 4 ∧ (t.core b c).faultPc = (s.core b c).pc

/-- REP n executes its body n times: n times ADDI of a register to itself adds n times the immediate, in one command, and the
core goes on after the body. -/
def Claims.CoreFlow.rep_addi : Prop :=
  ∀ (s : State) (b : BayNo) (c : CoreNo) (n : Nat) (r : CReg) (v : BitVec 16), s.canIssue b c = true →
    decodeCore (s.core b c).word = some (.rep n) → n ≤ 4096 →
    decodeCore ((s.core b c).fetchAt ((s.core b c).pc + 1)) = some (.imm .addi r r v) → r.val ≠ 0 →
    ∃ t, exec (.rep b c) s = .next t ∧ (t.core b c).reg r = (s.core b c).reg r + BitVec.ofNat 32 n * v.signExtend 32 ∧
      (∀ x, x ≠ r → (t.core b c).reg x = (s.core b c).reg x) ∧ (t.core b c).bare = (s.core b c).bare ∧
      (t.core b c).pc = (s.core b c).pc + 2

/-- For any body that never faults, REP n leaves what n executions of the body leave, whatever they cost in cycles. -/
def Claims.CoreFlow.rep_done : Prop :=
  ∀ (s : State) (b : BayNo) (c : CoreNo) (n : Nat) (i : CoreInstr) (k : Core), s.canIssue b c = true →
    decodeCore (s.core b c).word = some (.rep n) → n ≤ 4096 → decodeCore ((s.core b c).fetchAt ((s.core b c).pc + 1)) = some i →
    i.repBody = true → Core.repeat i n (s.core b c) = .done k →
    ∃ t, exec (.rep b c) s = .next t ∧ (t.core b c).timeless = k.timeless ∧ (t.core b c).pc = (s.core b c).pc + 2

/-- A register count of 0 skips the body; one above 4096 faults with cause 5. -/
def Claims.CoreFlow.rep_register : Prop :=
  ∀ (s : State) (b : BayNo) (c : CoreNo) (r : CReg) (i : CoreInstr), s.canIssue b c = true →
    decodeCore (s.core b c).word = some (.repReg r) → decodeCore ((s.core b c).fetchAt ((s.core b c).pc + 1)) = some i → i.repBody = true →
    ∃ t, exec (.rep b c) s = .next t ∧
      (((s.core b c).reg r).toNat % 8192 = 0 → (t.core b c).timeless = (s.core b c).timeless ∧ (t.core b c).pc = (s.core b c).pc + 2) ∧
      (4096 < ((s.core b c).reg r).toNat % 8192 → (t.core b c).mode = .fault ∧ (t.core b c).faultCause = 5 ∧
        (t.core b c).faultPc = (s.core b c).pc)

/-- A body that REP does not permit is an illegal instruction at the REP. -/
def Claims.CoreFlow.rep_body : Prop :=
  ∀ (s : State) (b : BayNo) (c : CoreNo) (n : Nat) (i : CoreInstr), s.canIssue b c = true → decodeCore (s.core b c).word = some (.rep n) →
    decodeCore ((s.core b c).fetchAt ((s.core b c).pc + 1)) = some i → i.repBody = false →
    ∃ t, exec (.rep b c) s = .next t ∧ (t.core b c).mode = .fault ∧ (t.core b c).faultCause = 1 ∧ (t.core b c).faultPc = (s.core b c).pc

/-- WAIT suspends issue unless a line is pending and unmasked. -/
def Claims.CoreFlow.wait_done : Prop :=
  ∀ (s : State) (b : BayNo) (c : CoreNo), s.canIssue b c = true → decodeCore (s.core b c).word = some .wait →
    ∃ t, exec (.wait b c) s = .next t ∧ (t.core b c).waiting = decide ((s.core b c).ipend &&& (s.core b c).imask = 0) ∧
      (t.core b c).pc = (s.core b c).pc + 1

/-- HALT halts the core after it and raises EV_CORE_HALT. -/
def Claims.CoreFlow.halt_done : Prop :=
  ∀ (s : State) (b : BayNo) (c : CoreNo), s.canIssue b c = true → decodeCore (s.core b c).word = some .halt →
    ∃ t, exec (.halt b c) s = .next t ∧ s.Told t b 0x0A03 [BitVec.ofNat 32 c.val] ∧ (t.core b c).mode = .halted ∧
      (t.core b c).pc = (s.core b c).pc + 1

/-- EI and DI set and clear IE, or ISTAT in a handler. -/
def Claims.CoreFlow.ei_done : Prop :=
  ∀ (s : State) (b : BayNo) (c : CoreNo), s.canIssue b c = true → decodeCore (s.core b c).word = some .ei →
    ∃ t, exec (.ei b c) s = .next t ∧ (t.core b c).ie = ((s.core b c).ie || !(s.core b c).shadow) ∧
      (t.core b c).istat = ((s.core b c).istat || (s.core b c).shadow) ∧ (t.core b c).pc = (s.core b c).pc + 1

/-- (DI.). -/
def Claims.CoreFlow.di_done : Prop :=
  ∀ (s : State) (b : BayNo) (c : CoreNo), s.canIssue b c = true → decodeCore (s.core b c).word = some .di →
    ∃ t, exec (.di b c) s = .next t ∧ (t.core b c).ie = ((s.core b c).ie && (s.core b c).shadow) ∧
      (t.core b c).istat = ((s.core b c).istat && !(s.core b c).shadow) ∧ (t.core b c).pc = (s.core b c).pc + 1

/-- RETI in a handler restores the window bank, sets IE from ISTAT and goes to IRA. -/
def Claims.CoreFlow.reti_done : Prop :=
  ∀ (s : State) (b : BayNo) (c : CoreNo), s.canIssue b c = true → decodeCore (s.core b c).word = some .reti → (s.core b c).shadow = true →
    ∃ t, exec (.reti b c) s = .next t ∧
      (t.core b c).timeless = { (s.core b c).timeless with shadow := false, ie := (s.core b c).istat } ∧ (t.core b c).pc = (s.core b c).ira

/-- ILLEGAL_INSTRUCTION: a word that does not decode faults with cause 1 at its index. -/
def Claims.CoreFlow.illegal_done : Prop :=
  ∀ (s : State) (b : BayNo) (c : CoreNo), s.canIssue b c = true → decodeCore (s.core b c).word = none →
    ∃ t, exec (.illegalInstruction b c) s = .next t ∧ (t.core b c).mode = .fault ∧ (t.core b c).faultCause = 1 ∧
      (t.core b c).faultPc = (s.core b c).pc ∧ (t.core b c).faults = (s.core b c).faults + 1

/-- INTERRUPT_ENTRY takes the lowest line pending and unmasked: its bit clears, IRA takes the next index, ISTAT takes IE, IE
clears, the shadow bank is in use and the core goes on at 8 + 4 x line. -/
def Claims.CoreFlow.interruptEntry_done : Prop :=
  ∀ (s : State) (b : BayNo) (c : CoreNo) (l : Nat), s.coreAwake b c = true → (s.core b c).mode = .run → (s.core b c).takeable = some l →
    ∃ t, exec (.interruptEntry b c) s = .next t ∧ (t.core b c).pc = BitVec.ofNat 14 (8 + 4 * l) ∧ (t.core b c).ira = (s.core b c).pc ∧
      (t.core b c).istat = true ∧ (t.core b c).ie = false ∧ (t.core b c).shadow = true ∧ (t.core b c).waiting = false ∧
      (t.core b c).ipend = (s.core b c).ipend &&& ~~~(BitVec.ofNat 10 (2 ^ l)) ∧ (t.core b c).windows = (s.core b c).windows

/-- The line taken is pending and unmasked, IE is 1, and no lower line is. -/
def Claims.CoreFlow.takeable_lowest : Prop :=
  ∀ (k : Core) (l : Nat), k.takeable = some l → k.ie = true ∧ l < 10 ∧ (k.ipend &&& k.imask).getLsbD l = true ∧
    (∀ j : Nat, j < l → (k.ipend &&& k.imask).getLsbD j = false)

/-- Branches, calls and the window stack, REP, WAIT, HALT, interrupts and faults of the measurement cores. -/
def Obligations.CoreFlow : Prop :=
  Claims.CoreFlow.branch_done ∧
  Claims.CoreFlow.jmp_done ∧
  Claims.CoreFlow.jal_done ∧
  Claims.CoreFlow.jr_done ∧
  Claims.CoreFlow.call_done ∧
  Claims.CoreFlow.call_spills ∧
  Claims.CoreFlow.call_overflow ∧
  Claims.CoreFlow.ret_done ∧
  Claims.CoreFlow.ret_fills ∧
  Claims.CoreFlow.ret_empty ∧
  Claims.CoreFlow.callRet_double ∧
  Claims.CoreFlow.ret_double ∧
  Claims.CoreFlow.rep_addi ∧
  Claims.CoreFlow.rep_done ∧
  Claims.CoreFlow.rep_register ∧
  Claims.CoreFlow.rep_body ∧
  Claims.CoreFlow.wait_done ∧
  Claims.CoreFlow.halt_done ∧
  Claims.CoreFlow.ei_done ∧
  Claims.CoreFlow.di_done ∧
  Claims.CoreFlow.reti_done ∧
  Claims.CoreFlow.illegal_done ∧
  Claims.CoreFlow.interruptEntry_done ∧
  Claims.CoreFlow.takeable_lowest

/-- MFS of a special register that exists writes its value to rd and goes on; of any other number it is an illegal instruction. -/
def Claims.CoreOutputs.mfs_done : Prop :=
  ∀ (s : State) (b : BayNo) (c : CoreNo) (rd : CReg) (n : Fin 256) (v : Word), s.canIssue b c = true →
    decodeCore (s.core b c).word = some (.mfs rd n) → s.specialReg b c (s.core b c) n.val = some v →
    ∃ t, exec (.mfs b c) s = .next t ∧
      (∀ x, (t.core b c).reg x = (if x = rd then (if rd.val = 0 then 0 else v) else (s.core b c).reg x)) ∧
      (t.core b c).pc = (s.core b c).pc + 1 ∧ (t.core b c).mem = (s.core b c).mem ∧ (t.core b c).acc = (s.core b c).acc

/-- (An unlisted number.). -/
def Claims.CoreOutputs.mfs_unlisted : Prop :=
  ∀ (s : State) (b : BayNo) (c : CoreNo) (rd : CReg) (n : Fin 256), s.canIssue b c = true →
    decodeCore (s.core b c).word = some (.mfs rd n) → (0x27 ≤ n.val ∧ n.val < 0x40 ∨ 0x60 ≤ n.val) →
    ∃ t, exec (.mfs b c) s = .next t ∧ (t.core b c).mode = .fault ∧ (t.core b c).faultCause = 1 ∧ (t.core b c).faultPc = (s.core b c).pc

/-- MTS of a register that may be written gives it the value of ra, and goes on; a register marked RO or unlisted is an illegal
instruction. -/
def Claims.CoreOutputs.mts_done : Prop :=
  ∀ (s : State) (b : BayNo) (c : CoreNo) (n : Fin 256) (ra : CReg) (k : Core), s.canIssue b c = true →
    decodeCore (s.core b c).word = some (.mts n ra) → s.specialWrite b (s.core b c) n.val ((s.core b c).reg ra) = some k →
    ∃ t, exec (.mts b c) s = .next t ∧ (t.core b c).timeless = k.timeless ∧ (t.core b c).pc = (s.core b c).pc + 1

/-- (A register marked RO.). -/
def Claims.CoreOutputs.mts_readOnly : Prop :=
  ∀ (s : State) (b : BayNo) (c : CoreNo) (n : Fin 256) (ra : CReg), s.canIssue b c = true →
    decodeCore (s.core b c).word = some (.mts n ra) → (n.val = 0x12 ∨ n.val = 0x14 ∨ n.val = 0x15 ∨ 0x1B ≤ n.val ∧ n.val ≤ 0x26) →
    ∃ t, exec (.mts b c) s = .next t ∧ (t.core b c).mode = .fault ∧ (t.core b c).faultCause = 1 ∧ (t.core b c).faultPc = (s.core b c).pc

/-- SSP, SLIM, SBASE, the search registers, SIDX and the stamp registers read back what was written; IMASK, IRA, ISTAT and the
address registers read back the bits they hold; the halves of an accumulator read back what was written, the upper one sign-
extended. -/
def Claims.CoreOutputs.special_readBack : Prop :=
  ∀ (s : State) (b : BayNo) (c : CoreNo) (k : Core) (v : Word),
    (∀ n ∈ [0x05, 0x06, 0x07, 0x08, 0x09, 0x0A, 0x0B, 0x0C, 0x0D, 0x0F, 0x18, 0x19, 0x1A],
      (s.specialWrite b k n v).bind (fun k => s.specialReg b c k n) = some v) ∧
    (s.specialWrite b k 0x02 v).bind (fun k => s.specialReg b c k 0x02) = some (v &&& 0x3FF) ∧
    (s.specialWrite b k 0x03 v).bind (fun k => s.specialReg b c k 0x03) = some (v &&& 0x3FFF) ∧
    (s.specialWrite b k 0x0E v).bind (fun k => s.specialReg b c k 0x0E) = some ((v.extractLsb' 0 8).signExtend 32) ∧
    (s.specialWrite b k 0x10 v).bind (fun k => s.specialReg b c k 0x10) = some ((v.extractLsb' 0 8).signExtend 32) ∧
    (∀ p : Fin 8, (s.specialWrite b k (0x40 + p.val) v).bind (fun k => s.specialReg b c k (0x40 + p.val)) = some (v &&& 0x1FFFF) ∧
      (s.specialWrite b k (0x50 + p.val) v).bind (fun k => s.specialReg b c k (0x50 + p.val)) = some (v &&& 0x3FFFF) ∧
      (s.specialWrite b k (0x58 + p.val) v).bind (fun k => s.specialReg b c k (0x58 + p.val)) = some (v &&& 0x3FFFF))

/-- A write of IPEND clears the bits written 1; a write of STAT with bit 0 clear clears OVF and nothing else. -/
def Claims.CoreOutputs.special_ipend : Prop :=
  ∀ (s : State) (b : BayNo) (k : Core) (v : Word), s.specialWrite b k 1 v = some { k with ipend := k.ipend &&& ~~~(v.extractLsb' 0 10) } ∧
    s.specialWrite b k 0 v = some { k with ovf := k.ovf && v.getLsbD 0 }

/-- EVT raises its line with the word in ra: a unit of the bay that follows this core and line holds it while the stamp, ESTMP
or else the tide counter, lies ahead. -/
def Claims.CoreOutputs.evt_done : Prop :=
  ∀ (s : State) (b : BayNo) (c : CoreNo) (e : Fin 4) (ra : CReg) (u : Fin 8), s.canIssue b c = true →
    decodeCore (s.core b c).word = some (.evt e ra) → s.unitOn b u = true → s.fldN Fld.trgUSource b u.val = 4 →
    s.fldN Fld.trgUCore b u.val = c.val → s.fldN Fld.trgUCoreEvent b u.val = e.val →
    stampLe (s.coreStamp b (s.core b c)) (s.nowAt b) = false →
    ∃ t, exec (.evt b c) s = .next t ∧ (t.core b c).pc = (s.core b c).pc + 1 ∧
      (t.unit b u).events = (s.unit b u).events ++ [(s.coreStamp b (s.core b c), (s.core b c).reg ra)]

/-- EMIT of 1 to 1024 units at a word address within memory, no copy running and no fault behind it, starts the copy of the
record, clears RFLAGS and is counted. -/
def Claims.CoreOutputs.emit_done : Prop :=
  ∀ (s : State) (b : BayNo) (c : CoreNo) (ra rb : CReg), s.canIssue b c = true → decodeCore (s.core b c).word = some (.emit ra rb) →
    (s.core b c).copying = none → (s.core b c).faultUntil = none → 1 ≤ ((s.core b c).reg rb).toNat % 65536 →
    ((s.core b c).reg rb).toNat % 65536 ≤ 1024 →
    ((s.core b c).reg ra).toNat + 32 * (((s.core b c).reg rb).toNat % 65536) ≤ 131072 → ((s.core b c).reg ra).toNat % 4 = 0 →
    ∃ t, exec (.emit b c) s = .next t ∧ (t.core b c).rflags = 0 ∧ (t.core b c).emits = (s.core b c).emits + 1 ∧
      (t.core b c).copying = some (.result (((s.core b c).reg rb).extractLsb' 16 16) ((s.core b c).rflags &&& 0x23)
        (s.coreStamp b (s.core b c)) (s.core b c).gapNext ((s.core b c).reg ra).toNat
        ((s.core b c).peekWords ((s.core b c).reg ra).toNat (8 * (((s.core b c).reg rb).toNat % 65536))) false) ∧
      (t.core b c).pc = (s.core b c).pc + 1 ∧ (t.core b c).mem = (s.core b c).mem

/-- A length of 0 or above 1024, or a body that reaches beyond memory, faults with cause 7. -/
def Claims.CoreOutputs.emit_length : Prop :=
  ∀ (s : State) (b : BayNo) (c : CoreNo) (ra rb : CReg), s.canIssue b c = true → decodeCore (s.core b c).word = some (.emit ra rb) →
    (s.core b c).copying = none → (((s.core b c).reg rb).toNat % 65536 = 0 ∨ 1024 < ((s.core b c).reg rb).toNat % 65536 ∨
      131072 < ((s.core b c).reg ra).toNat + 32 * (((s.core b c).reg rb).toNat % 65536)) →
    ∃ t, exec (.emit b c) s = .next t ∧ (t.core b c).mode = .fault ∧ (t.core b c).faultCause = 7 ∧ (t.core b c).faultPc = (s.core b c).pc

/-- EMIT and POST wait while a copy of the core runs. -/
def Claims.CoreOutputs.emit_waits : Prop :=
  ∀ (s : State) (b : BayNo) (c : CoreNo) (i : CoreInstr), decodeCore (s.core b c).word = some i → (s.core b c).copying.isSome = true →
    ((∃ ra rb, i = .emit ra rb) → exec (.emit b c) s = .next s) ∧ ((∃ ra, i = .post ra) → exec (.post b c) s = .next s)

/-- POST by the sealed core that posts the readout starts the copy of its buffer; by any other core it is an illegal
instruction. -/
def Claims.CoreOutputs.post_done : Prop :=
  ∀ (s : State) (b : BayNo) (c : CoreNo) (ra : CReg), s.canIssue b c = true → decodeCore (s.core b c).word = some (.post ra) →
    (s.core b c).copying = none → ((s.core b c).reg ra).toNat % 4 = 0 →
    ∃ t, exec (.post b c) s = .next t ∧
      (if s.readoutCore b c then (t.core b c).copying = some (.post ((s.core b c).reg ra).toNat ((s.core b c).peekWords
          ((s.core b c).reg ra).toNat (ceilDiv (s.fldN Fld.scnRoCols b * s.fldN Fld.scnRoRows b) 2))) ∧
          (t.core b c).pc = (s.core b c).pc + 1
        else (t.core b c).mode = .fault ∧ (t.core b c).faultCause = 1)

/-- EMIT_COPY_DONE ends the copy and hands the RESULT record over; one of the epoch of a fault is discarded and counted. -/
def Claims.CoreOutputs.emitCopyDone_done : Prop :=
  ∀ (s : State) (b : BayNo) (c : CoreNo) (sub : BitVec 16) (fl : BitVec 8) (a : Stamp) (gap dead : Bool) (start : Nat) (ws : List Word),
    s.alive b = true → (s.core b c).copying = some (.result sub fl a gap start ws dead) →
    ∃ t, exec (.emitCopyDone b c) s = .next t ∧ (t.core b c).copying = none ∧
      (t.core b c).discards = (if dead then (s.core b c).discards + 1 else (s.core b c).discards) ∧
      (t.core b c).mem = (s.core b c).mem ∧ (t.core b c).pc = (s.core b c).pc

/-- Special registers and what the measurement cores put out. -/
def Obligations.CoreOutputs : Prop :=
  Claims.CoreOutputs.mfs_done ∧
  Claims.CoreOutputs.mfs_unlisted ∧
  Claims.CoreOutputs.mts_done ∧
  Claims.CoreOutputs.mts_readOnly ∧
  Claims.CoreOutputs.special_readBack ∧
  Claims.CoreOutputs.special_ipend ∧
  Claims.CoreOutputs.evt_done ∧
  Claims.CoreOutputs.emit_done ∧
  Claims.CoreOutputs.emit_length ∧
  Claims.CoreOutputs.emit_waits ∧
  Claims.CoreOutputs.post_done ∧
  Claims.CoreOutputs.emitCopyDone_done

/-- IQ_FEED_BLOCK, brought the input samples that the feed's next block takes in, writes it into a ring with room: the write
index advances, the block is counted and line IQF is raised. -/
def Claims.CoreHostAndFeed.iqFeedBlock_full : Prop :=
  ∀ (s : State) (b : BayNo) (c : CoreNo) (xs : List Sample) (n len : Nat), s.alive b = true → s.fldB Fld.mcoCIqEn b c.val = true →
    (s.core b c).mode ≠ .off → (s.bay b).ddc[s.feedPort b c].active = true → s.feedBlock b c = (n, len) → 0 < len →
    ((s.bay b).ddc[s.feedPort b c].stretchOf n).isSome = true → xs.length = ((s.bay b).ddc[s.feedPort b c].needs n len).2 →
    s.coreAwake b c = true → s.fldN Fld.mcoCIqBase b c.val % 4 = 0 → s.fldN Fld.mcoCIqBase b c.val < 131072 →
    ((s.core b c).peekWord (s.fldN Fld.mcoCIqBase b c.val) -
      (s.core b c).peekWord (s.fldN Fld.mcoCIqBase b c.val + 4)).toNat < s.fldN Fld.mcoCIqBlocks b c.val →
    ∃ t, exec (.iqFeedBlock b c xs) s = .next t ∧ (t.core b c).iqWritten = (s.core b c).iqWritten + 1 ∧
      (t.core b c).iqDropped = (s.core b c).iqDropped ∧ (t.core b c).ipend.getLsbD 1 = true ∧ (t.core b c).iqFrom = some (n + len)

/-- One that finds the ring full is dropped whole and counted. -/
def Claims.CoreHostAndFeed.iqFeedBlock_drop : Prop :=
  ∀ (s : State) (b : BayNo) (c : CoreNo) (xs : List Sample) (n len : Nat), s.alive b = true → s.fldB Fld.mcoCIqEn b c.val = true →
    (s.core b c).mode ≠ .off → (s.bay b).ddc[s.feedPort b c].active = true → s.feedBlock b c = (n, len) → 0 < len →
    ((s.bay b).ddc[s.feedPort b c].stretchOf n).isSome = true → xs.length = ((s.bay b).ddc[s.feedPort b c].needs n len).2 →
    s.fldN Fld.mcoCIqBlocks b c.val ≤ ((s.core b c).peekWord (s.fldN Fld.mcoCIqBase b c.val) -
      (s.core b c).peekWord (s.fldN Fld.mcoCIqBase b c.val + 4)).toNat →
    ∃ t, exec (.iqFeedBlock b c xs) s = .next t ∧ (t.core b c).iqDropped = (s.core b c).iqDropped + 1 ∧
      (t.core b c).iqWritten = (s.core b c).iqWritten ∧ (t.core b c).mem = (s.core b c).mem

/-- CORE_TIMER_EXPIRE raises line TIMER and starts the count again from TIMER. -/
def Claims.CoreHostAndFeed.coreTimerExpire_done : Prop :=
  ∀ (s : State) (b : BayNo) (c : CoreNo) (a : Stamp), s.alive b = true → (s.core b c).timerDue = some a → (s.core b c).mode = .run →
    ∃ t, exec (.coreTimerExpire b c) s = .next t ∧ (t.core b c).ipend.getLsbD 5 = true ∧
      (t.core b c).timerDue = some (later a (ofFclk (s.core b c).timer.toNat)) ∧ (t.core b c).pc = (s.core b c).pc

/-- WATCHDOG_EXPIRE of a running core with a watchdog faults it with cause 6. -/
def Claims.CoreHostAndFeed.watchdogExpire_done : Prop :=
  ∀ (s : State) (b : BayNo) (c : CoreNo), s.alive b = true → s.fldN Fld.mcoCWatchdog b c.val ≠ 0 → (s.core b c).mode = .run →
    (s.core b c).ebbed = false →
    ∃ t, exec (.watchdogExpire b c) s = .next t ∧ (t.core b c).mode = .fault ∧ (t.core b c).faultCause = 6 ∧
      (t.core b c).faultPc = (s.core b c).pc ∧ (t.core b c).mem = (s.core b c).mem

/-- CORE_RESTART of a faulted core that restarts gives it its registers' reset values and runs it from its entry; instruction
memory stays. -/
def Claims.CoreHostAndFeed.coreRestart_done : Prop :=
  ∀ (s : State) (b : BayNo) (c : CoreNo), s.coreAwake b c = true → (s.core b c).mode = .fault → s.fldB Fld.mcoCRestart b c.val = true →
    ∃ t, exec (.coreRestart b c) s = .next t ∧ (t.core b c).mode = .run ∧
      (t.core b c).pc = BitVec.ofNat 14 (s.fldN Fld.mcoCEntry b c.val) ∧ (t.core b c).globals = Core.reset.globals ∧
      (t.core b c).acc = Core.reset.acc ∧ (t.core b c).imem = (s.core b c).imem ∧ (t.core b c).restarts = (s.core b c).restarts + 1 ∧
      (t.core b c).faults = (s.core b c).faults ∧ (t.core b c).gapNext = true

/-- MC_CTRL_HALT stops a running open core, MC_CTRL_RESUME continues a halted one, and MC_CTRL_RESET restarts one without
counting a fault; a sealed core once the fuse is blown ignores all three. -/
def Claims.CoreHostAndFeed.mcCtrlHalt_done : Prop :=
  ∀ (s : State) (b : BayNo) (c : CoreNo), s.ctrlOpen b c = true → (s.core b c).mode = .run →
    ∃ t, exec (.mcCtrlHalt b c) s = .next t ∧ (t.core b c) = { (s.core b c) with mode := .halted }

/-- (RESUME.). -/
def Claims.CoreHostAndFeed.mcCtrlResume_done : Prop :=
  ∀ (s : State) (b : BayNo) (c : CoreNo), s.ctrlOpen b c = true → (s.core b c).mode = .halted →
    ∃ t, exec (.mcCtrlResume b c) s = .next t ∧ (t.core b c) = { (s.core b c) with mode := .run }

/-- (RESET.). -/
def Claims.CoreHostAndFeed.mcCtrlReset_done : Prop :=
  ∀ (s : State) (b : BayNo) (c : CoreNo), s.ctrlOpen b c = true → (s.core b c).mode ≠ .off →
    ∃ t, exec (.mcCtrlReset b c) s = .next t ∧ (t.core b c).mode = .run ∧
      (t.core b c).pc = BitVec.ofNat 14 (s.fldN Fld.mcoCEntry b c.val) ∧ (t.core b c).faults = (s.core b c).faults ∧
      (t.core b c).restarts = (s.core b c).restarts + 1

/-- (A sealed core with the fuse blown.). -/
def Claims.CoreHostAndFeed.mcCtrl_sealed : Prop :=
  ∀ (s : State) (b : BayNo) (c : CoreNo), s.sealedCore b c = true → s.keeper.fuses.metrology = true →
    exec (.mcCtrlHalt b c) s = .next s ∧ exec (.mcCtrlResume b c) s = .next s ∧ exec (.mcCtrlReset b c) s = .next s

/-- MC_MBOX_IN_WRITE to an open core holds the value and raises line MBOX; MC_MBOX_OUT_READ clears MC_MBOX_OUT. -/
def Claims.CoreHostAndFeed.mcMboxInWrite_done : Prop :=
  ∀ (s : State) (b : BayNo) (c : CoreNo) (v : Word), s.queueAwake b = true → s.sealedCore b c = false →
    ∃ t, exec (.mcMboxInWrite b c v) s = .next t ∧ (t.core b c).mboxIn = v ∧ (t.core b c).ipend.getLsbD 4 = true ∧
      (t.core b c).pc = (s.core b c).pc

/-- (The read.). -/
def Claims.CoreHostAndFeed.mcMboxOutRead_done : Prop :=
  ∀ (s : State) (b : BayNo) (c : CoreNo), s.queueAwake b = true → s.sealedCore b c = false →
    ∃ t, exec (.mcMboxOutRead b c) s = .next t ∧ t = s.modCore b c fun k => { k with mboxOut := 0 }

/-- CORE_IMEM_WRITE writes one instruction of the core that MC_WIN selects while that open core is halted, and is discarded
while it runs. -/
def Claims.CoreHostAndFeed.coreImemWrite_done : Prop :=
  ∀ (s : State) (b : BayNo) (a : BitVec 14) (v : Word) (c : CoreNo), s.queueAwake b = true → (s.bay b).mco.win.toNat = c.val →
    s.sealedCore b c = false →
    ∃ t, exec (.coreImemWrite b a v) s = .next t ∧
      ((s.core b c).mode = .halted → (t.core b c).fetchAt a = v ∧ (t.core b c).pc = (s.core b c).pc) ∧
      ((s.core b c).mode = .run → t = s)

/-- CORE_EBB of an open core in WAIT whose ebb the settings allow takes its domain's power; CORE_FLOOD_DONE of one called
returns it, out of WAIT. -/
def Claims.CoreHostAndFeed.coreEbb_done : Prop :=
  ∀ (s : State) (b : BayNo) (c : CoreNo), s.coreAwake b c = true → (s.core b c).mode = .run → (s.core b c).waiting = true →
    (s.core b c).ebbed = false → s.sealedCore b c = false → inMask (s.fldN Fld.pwrCoreEbb b) c.val = true → s.pwr.state = .run →
    ∃ t, exec (.coreEbb b c) s = .next t ∧ (t.core b c).ebbed = true ∧ (t.bay b).pwr.cores[c] = false ∧
      (t.bay b).pwr.coreEbbs = (s.bay b).pwr.coreEbbs + 1 ∧ (t.core b c).mem = (s.core b c).mem

/-- (The flood.). -/
def Claims.CoreHostAndFeed.coreFloodDone_done : Prop :=
  ∀ (s : State) (b : BayNo) (c : CoreNo), s.alive b = true → (s.core b c).ebbed = true → (s.core b c).called = true →
    ∃ t, exec (.coreFloodDone b c) s = .next t ∧ (t.core b c).ebbed = false ∧ (t.core b c).waiting = false ∧
      (t.bay b).pwr.cores[c] = true ∧ (t.bay b).pwr.coreFloods = (s.bay b).pwr.coreFloods + 1

/-- Timers, restarts, the feed and the host's control of the measurement cores. -/
def Obligations.CoreHostAndFeed : Prop :=
  Claims.CoreHostAndFeed.iqFeedBlock_full ∧
  Claims.CoreHostAndFeed.iqFeedBlock_drop ∧
  Claims.CoreHostAndFeed.coreTimerExpire_done ∧
  Claims.CoreHostAndFeed.watchdogExpire_done ∧
  Claims.CoreHostAndFeed.coreRestart_done ∧
  Claims.CoreHostAndFeed.mcCtrlHalt_done ∧
  Claims.CoreHostAndFeed.mcCtrlResume_done ∧
  Claims.CoreHostAndFeed.mcCtrlReset_done ∧
  Claims.CoreHostAndFeed.mcCtrl_sealed ∧
  Claims.CoreHostAndFeed.mcMboxInWrite_done ∧
  Claims.CoreHostAndFeed.mcMboxOutRead_done ∧
  Claims.CoreHostAndFeed.coreImemWrite_done ∧
  Claims.CoreHostAndFeed.coreEbb_done ∧
  Claims.CoreHostAndFeed.coreFloodDone_done

/-- QUE_FLUSH of one queue of a bay whose queues are awake flushes that queue with cause 0 and counts the records it held. -/
def Claims.QueuesAndDma.queFlush_one : Prop :=
  ∀ (s : State) (b : BayNo) (i : Fin 16), s.queueAwake b = true →
    ∃ t, exec (.queFlush b (1#16 <<< i.val)) s = .next t ∧ t = s.flushQueue b i 0 ∧
      (t.bay b).que.queues[i].flushed = (s.bay b).que.queues[i].flushed + wd (s.bay b).que.queues[i].entries.length

/-- QUE_RESERVE_PEAK_READ clears the peak and changes nothing else. -/
def Claims.QueuesAndDma.queReservePeakRead_done : Prop :=
  ∀ (s : State) (b : BayNo), s.queueAwake b = true →
    ∃ t, exec (.queReservePeakRead b) s = .next t ∧ t = s.modBay b fun x => { x with que := { x.que with reservePeak := 0 } }

/-- SEALED_RECORD_MAC takes the oldest sealed record that waits, gives it its trailer and hands it to its queue. -/
def Claims.QueuesAndDma.sealedRecordMac_done : Prop :=
  ∀ (s : State) (queue : Nat) (r : Rec) (rest : List (Nat × Rec)), s.alive 0 = true → s.keeper.macQueue = (queue, r) :: rest →
    ∃ t, exec .sealedRecordMac s = .next t ∧
      t = (((s.modSeal fun y => { y with macQueue := rest }).arrive r.bay queue
          { r with trailer := (s.modSeal fun y => { y with macQueue := rest }).trailer r }).2.2).queueEvents
        ((s.modSeal fun y => { y with macQueue := rest }).arrive r.bay queue
          { r with trailer := (s.modSeal fun y => { y with macQueue := rest }).trailer r }).2.1

/-- GO starts an idle mode-4 channel whose addresses and COUNT are aligned, from its registers. -/
def Claims.QueuesAndDma.dmaGo_starts : Prop :=
  ∀ (s : State) (b : BayNo) (n : Fin 32), s.dmaOn b = true → s.dmaMode b n = 4 → (s.chan b n).state = .idle →
    (s.chan b n).src.toNat % s.elemBytes b n false = 0 → (s.chan b n).dst.toNat % s.elemBytes b n true = 0 →
    (s.chan b n).count.toNat % max (s.elemBytes b n false) (s.elemBytes b n true) = 0 →
    ∃ t, exec (.dmaGo b n) s = .next t ∧ (t.chan b n).state = .run ∧ (t.chan b n).fromAddr = (s.chan b n).src ∧
      (t.chan b n).toAddr = (s.chan b n).dst ∧ (t.chan b n).length = (s.chan b n).count.toNat ∧ (t.chan b n).written = 0 ∧ (t.chan b n).holding = []

/-- A misaligned source ends in ERROR with cause ALIGN. -/
def Claims.QueuesAndDma.dmaGo_align : Prop :=
  ∀ (s : State) (b : BayNo) (n : Fin 32), s.dmaOn b = true → s.dmaMode b n = 4 → (s.chan b n).state = .idle →
    (s.chan b n).src.toNat % s.elemBytes b n false ≠ 0 →
    ∃ t, exec (.dmaGo b n) s = .next t ∧ (t.chan b n).state = .error ∧ (t.chan b n).cause = .align

/-- A busy channel ignores and counts the start. -/
def Claims.QueuesAndDma.dmaGo_busy : Prop :=
  ∀ (s : State) (b : BayNo) (n : Fin 32), s.dmaOn b = true → s.dmaMode b n = 4 → (s.chan b n).state ≠ .idle →
    ∃ t, exec (.dmaGo b n) s = .next t ∧ t = s.modDma b n fun c => { c with discards := c.discards + 1 }

/-- ABORT ends a transfer without a completion. -/
def Claims.QueuesAndDma.dmaAbort_done : Prop :=
  ∀ (s : State) (b : BayNo) (n : Fin 32), s.dmaOn b = true → s.dmaMode b n = 4 → (s.chan b n).state = .run →
    ∃ t, exec (.dmaAbort b n) s = .next t ∧ t = s.modDma b n fun c => { c with state := .idle, waking := false, holding := [] }

/-- CLEAR returns a channel from ERROR to idle. -/
def Claims.QueuesAndDma.dmaClear_done : Prop :=
  ∀ (s : State) (b : BayNo) (n : Fin 32), s.dmaOn b = true → (s.chan b n).state = .error →
    ∃ t, exec (.dmaClear b n) s = .next t ∧ t = s.modDma b n fun c => { c with state := .idle }

/-- Setting ENABLE of a disabled ring with a size of 12 to 30 takes base and size. -/
def Claims.QueuesAndDma.dmaRingCfgWrite_enables : Prop :=
  ∀ (s : State) (b : BayNo) (n : Fin 32) (v : Word), s.dmaOn b = true → v.getLsbD 31 = true → (s.chan b n).ringEnable = false →
    12 ≤ (v.extractLsb' 0 5).toNat → (v.extractLsb' 0 5).toNat ≤ 30 →
    ∃ t, exec (.dmaRingCfgWrite b n v) s = .next t ∧ (t.chan b n).ringEnable = true ∧ (t.chan b n).ringBase = ((s.chan b n).dst >>> 12) <<< 12 ∧
      (t.chan b n).ringSize = (v.extractLsb' 0 5).toNat

/-- Clearing it zeroes both offsets. -/
def Claims.QueuesAndDma.dmaRingCfgWrite_disables : Prop :=
  ∀ (s : State) (b : BayNo) (n : Fin 32) (v : Word), s.dmaOn b = true → v.getLsbD 31 = false →
    ∃ t, exec (.dmaRingCfgWrite b n v) s = .next t ∧ (t.chan b n).ringEnable = false ∧ (t.chan b n).tail = 0 ∧ (t.chan b n).head = 0

/-- A record that the destination takes whole is committed; it leaves its queue. -/
def Claims.QueuesAndDma.dmaRecordStart_commits : Prop :=
  ∀ (s : State) (b : BayNo) (n : Fin 32) (e : QEntry) (rest : List QEntry), s.dmaOn b = true → s.dmaMode b n = 1 → (s.chan b n).state ≠ .error →
    (s.chan b n).cur = none → (s.bay b).que.queues[s.dmaQueueNo b n].entries = e :: rest → s.destTakes b n e.record.bytes = true →
    e.record.bytes ≤ 2 ^ (s.chan b n).ringSize - 32 →
    ∃ t, exec (.dmaRecordStart b n) s = .next t ∧ (t.chan b n).cur = some e.record ∧ (t.chan b n).sent = 0 ∧ (t.chan b n).state = .run ∧
      (t.bay b).que.queues[s.dmaQueueNo b n].entries = rest

/-- One that it does not take waits in its queue. -/
def Claims.QueuesAndDma.dmaRecordStart_waits : Prop :=
  ∀ (s : State) (b : BayNo) (n : Fin 32) (e : QEntry) (rest : List QEntry), s.dmaOn b = true → s.queueMode b n = true → (s.chan b n).state ≠ .error →
    (s.chan b n).cur = none → (s.bay b).que.queues[s.dmaQueueNo b n].entries = e :: rest → s.destTakes b n e.record.bytes = false →
    (s.chan b n).ringEnable = false →
    ∃ t, exec (.dmaRecordStart b n) s = .next t ∧ t = s.modDma b n fun c => { c with state := .wait }

/-- A burst granted to a record moves the lesser of the burst size and what is left, and the spacing of its share follows. -/
def Claims.QueuesAndDma.dmaBurst_record : Prop :=
  ∀ (s : State) (b : BayNo) (n : Fin 32) (r : Rec), s.dmaOn b = true → s.dmaMode b n = 1 → (s.chan b n).cur = some r → (s.chan b n).sent < r.bytes →
    s.destOpen b n = true → (s.chan b n).nextBurst = none → s.granted b n s.now = true →
    ∃ t, exec (.dmaBurst b n []) s = .next t ∧ (t.chan b n).sent = (s.chan b n).sent + min (s.burstMax b n) (r.bytes - (s.chan b n).sent) ∧
      (t.chan b n).state = .run ∧ (t.bay b).dma.last = n.val ∧
      (t.chan b n).nextBurst = some (later s.now (s.spacing b n (min (s.burstMax b n) (r.bytes - (s.chan b n).sent))))

/-- While the destination is closed the channel waits. -/
def Claims.QueuesAndDma.dmaBurst_waits : Prop :=
  ∀ (s : State) (b : BayNo) (n : Fin 32) (data : List Byte), s.dmaOn b = true → s.queueMode b n = true → s.wantsBurst b n = true → s.destOpen b n = false →
    ∃ t, exec (.dmaBurst b n data) s = .next t ∧ t = s.modDma b n fun c => { c with state := .wait }

/-- Once every byte has left, the ring's tail moves past the record and the channel is free for the next. -/
def Claims.QueuesAndDma.dmaRecordDelivered_ring : Prop :=
  ∀ (s : State) (b : BayNo) (n : Fin 32) (r : Rec), s.dmaOn b = true → s.dmaMode b n = 1 → (s.chan b n).cur = some r → (s.chan b n).sent = r.bytes →
    s.destOpen b n = true →
    ∃ t, exec (.dmaRecordDelivered b n) s = .next t ∧ (t.chan b n).cur = none ∧ (t.chan b n).state = .idle ∧
      (t.chan b n).tail = wd (((s.chan b n).tail.toNat + r.bytes) % 2 ^ (s.chan b n).ringSize) ∧ (t.chan b n).records = (s.chan b n).records + 1

/-- A transfer whose last byte is written completes and the channel is idle. -/
def Claims.QueuesAndDma.dmaTransferDone_done : Prop :=
  ∀ (s : State) (b : BayNo) (n : Fin 32), s.dmaOn b = true → s.dmaMode b n = 4 → (s.chan b n).state = .run → (s.chan b n).length ≤ (s.chan b n).written →
    ∃ t, exec (.dmaTransferDone b n) s = .next t ∧ (t.chan b n).state = .idle ∧ (t.chan b n).doneCount = (s.chan b n).doneCount + 1

/-- A queue mode without WAKE whose destination's ports sleep drops its record, counts it and goes on. -/
def Claims.QueuesAndDma.asleepCompletion_dropped : Prop :=
  ∀ (s : State) (b : BayNo) (n : Fin 32) (q : BayNo), s.dmaOn b = true → s.queueMode b n = true → s.wantsBurst b n = true → s.dmaTarget b n = some q →
    s.alive q = true → s.reaches b q = true → (s.bay q).pwr.ports = false → s.fldB Fld.dmaWake b n.val = false →
    ∃ t, exec (.asleepCompletion b n []) s = .next t ∧ (t.chan b n).cur = none ∧ (t.chan b n).state = .idle ∧ (t.chan b n).cause = .asleep ∧
      (t.chan b n).asleepDrops = (s.chan b n).asleepDrops + 1 ∧ (∃ u : State, t = u.event b 0x0C01 ([wd n.val, wd 4] ++ words64 0))

/-- A read of host memory not complete after 50 ms ends the transfer in ERROR with cause HOST_ERROR. -/
def Claims.QueuesAndDma.hostReadTimeout_done : Prop :=
  ∀ (s : State) (b : BayNo) (n : Fin 32), s.hostReads b n = true →
    ∃ t, exec (.hostReadTimeout b n) s = .next t ∧ (t.chan b n).state = .error ∧ (t.chan b n).cause = .hostError ∧ (t.chan b n).holding = []

/-- So does a completion with UR, CA or poisoned data. -/
def Claims.QueuesAndDma.hostErrorCompletion_done : Prop :=
  ∀ (s : State) (b : BayNo) (n : Fin 32), s.hostReads b n = true →
    ∃ t, exec (.hostErrorCompletion b n) s = .next t ∧ (t.chan b n).state = .error ∧ (t.chan b n).cause = .hostError ∧ (t.bay b).tbs = (s.bay b).tbs

/-- RECORD_ENQUEUE, given the input samples that the stream's next record takes in and with every output of it delivered, moves
the stream past the record and hands an IQ record of the stream, stamped with its first output, to its queue. -/
def Claims.QueuesAndDma.recordEnqueue_done : Prop :=
  ∀ (s : State) (b : BayNo) (p : Port) (xs : List Sample), s.queueAwake b = true → s.streams b p = true → (s.bay b).ddc[p].active = true →
    ((s.bay b).ddc[p].stretchOf (s.bay b).ddc[p].sent).isSome = true → (s.bay b).ddc[p].sent < (s.nextIq b p).at_ →
    ((s.bay b).ddc[p].ended.all fun e => decide ((s.nextIq b p).at_ ≤ e)) = true →
    xs.length = ((s.bay b).ddc[p].needs (s.bay b).ddc[p].sent ((s.nextIq b p).at_ - (s.bay b).ddc[p].sent)).2 →
    ∃ t, exec (.recordEnqueue b p xs) s = .next t ∧ (t.bay b).ddc[p].sent = (s.nextIq b p).at_ ∧
      (t.bay b).ddc[p].line = (s.bay b).ddc[p].line ∧
      (∃ (u : State) (body : RecBody), t = u.enqueue b (s.nextIq b p).queue body ∧ body.typ = .iq ∧ body.source = 0x10 + p.val ∧
        body.stamp = (s.bay b).ddc[p].stampOf (s.bay b).ddc[p].sent)

/-- Flushes and the MAC engine's records; DMA channels: control, records, bursts, completions and errors. -/
def Obligations.QueuesAndDma : Prop :=
  Claims.QueuesAndDma.queFlush_one ∧
  Claims.QueuesAndDma.queReservePeakRead_done ∧
  Claims.QueuesAndDma.sealedRecordMac_done ∧
  Claims.QueuesAndDma.dmaGo_starts ∧
  Claims.QueuesAndDma.dmaGo_align ∧
  Claims.QueuesAndDma.dmaGo_busy ∧
  Claims.QueuesAndDma.dmaAbort_done ∧
  Claims.QueuesAndDma.dmaClear_done ∧
  Claims.QueuesAndDma.dmaRingCfgWrite_enables ∧
  Claims.QueuesAndDma.dmaRingCfgWrite_disables ∧
  Claims.QueuesAndDma.dmaRecordStart_commits ∧
  Claims.QueuesAndDma.dmaRecordStart_waits ∧
  Claims.QueuesAndDma.dmaBurst_record ∧
  Claims.QueuesAndDma.dmaBurst_waits ∧
  Claims.QueuesAndDma.dmaRecordDelivered_ring ∧
  Claims.QueuesAndDma.dmaTransferDone_done ∧
  Claims.QueuesAndDma.asleepCompletion_dropped ∧
  Claims.QueuesAndDma.hostReadTimeout_done ∧
  Claims.QueuesAndDma.hostErrorCompletion_done ∧
  Claims.QueuesAndDma.recordEnqueue_done

/-- A host write of the scratch register holds the word, and nothing else changes. -/
def Claims.RegisterMapAndService.registerWrite_scratch : Prop :=
  ∀ (s : State) (v : Word), s.alive 0 = true → (s.bay 0).pci[(4 : Fin 5)].linkUp = true → (s.bay 0).pwr.supervisor = true → s.retryConfig = false → s.initHeld = false →
    ∃ t, exec (.registerWrite 0x110 v 0xF) s = .next t ∧ t.ident.scratch = v ∧ t = s.modIdent fun y => { y with scratch := v }

/-- A partial write of a register that takes whole words is discarded. -/
def Claims.RegisterMapAndService.registerWrite_bytes : Prop :=
  ∀ (s : State) (v : Word), s.alive 0 = true → (s.bay 0).pci[(4 : Fin 5)].linkUp = true → (s.bay 0).pwr.supervisor = true → s.retryConfig = false → s.initHeld = false →
    ∃ t, exec (.registerWrite 0x110 v 3) s = .next t ∧ t = s.discarded 0x110 0

/-- A byte written to capture memory beyond the part in use reads back, and every other address reads as before. -/
def Claims.RegisterMapAndService.capturePut_read : Prop :=
  ∀ (s : State) (b : BayNo) (a x : Nat) (v : Byte), a < 0x4000000 → s.captureFree b ≤ a → s.captureFree b ≤ x → x ≠ a → x < 0x4000000 →
    ((s.capturePut b a [v]).captureByte b a).1 = v ∧ ((s.capturePut b a [v]).captureByte b x).1 = (s.captureByte b x).1

/-- A host write through the capture aperture stores its four bytes at the page the capture window shows. -/
def Claims.RegisterMapAndService.registerWrite_capture : Prop :=
  ∀ (s : State) (v : Word) (o x : Nat), s.alive 0 = true → (s.bay 0).pci[(4 : Fin 5)].linkUp = true → (s.bay 0).pwr.datapath = true → s.retryConfig = false → s.initHeld = false →
    o % 4 = 0 → o < 0x2000000 → (x < s.apertureAddr 0 o ∨ s.apertureAddr 0 o + 4 ≤ x) →
    ∃ t, exec (.registerWrite (BitVec.ofNat 32 (0x2000000 + o)) v 0xF) s = .next t ∧
      (∀ k : Fin 4, Sparse.get 0 (t.bay 0).que.capMem (s.apertureAddr 0 o + k.val) = v.extractLsb' (8 * k.val) 8) ∧
      Sparse.get 0 (t.bay 0).que.capMem x = Sparse.get 0 (s.bay 0).que.capMem x

/-- A service transaction at an address that is not a multiple of four is refused and counted, with no effect. -/
def Claims.RegisterMapAndService.svcTransaction_refused : Prop :=
  ∀ (s : State) (a : Word) (bs : List Byte), s.alive 0 = true → s.pinned 0 = true → s.pwr.state ≠ .off → s.retryConfig = false → a.toNat % 4 ≠ 0 →
    ∃ t, exec (.svcTransaction (.write a bs)) s = .next t ∧ t = s.modIdent fun i => { i with refused := i.refused + 1 }

/-- A service write of SVC_ALERT_MASK takes effect and counts as done. -/
def Claims.RegisterMapAndService.svcTransaction_alertMask : Prop :=
  ∀ (s : State) (v : BitVec 8), s.alive 0 = true → s.pinned 0 = true → s.pwr.state ≠ .off → s.retryConfig = false → s.part.bays ≠ 0 → s.initHeld = false →
    (s.bay 0).pwr.supervisor = true →
    ∃ t, exec (.svcTransaction (.write 0x204 [v, 0, 0, 0])) s = .next t ∧ t.ident.alertMask = v ∧ t.ident.done = s.ident.done + 1 ∧
      t.ident.discarded = s.ident.discarded ∧ t.ident.alert = s.ident.alert

/-- A one written to SVC_ALERT_STATUS clears its bit. -/
def Claims.RegisterMapAndService.svcAlertClear_done : Prop :=
  ∀ (s : State) (v : Word), s.alive 0 = true → s.pinned 0 = true → s.pwr.state ≠ .off → s.retryConfig = false →
    ∃ t, exec (.svcAlertClear v) s = .next t ∧ t = s.modIdent fun y => { y with alert := s.ident.alert &&& ~~~(v.extractLsb' 0 8) }

/-- An instruction that takes the pins becomes current and disconnects the functional logic. -/
def Claims.RegisterMapAndService.jtagUpdateIr_pins : Prop :=
  ∀ (s : State) (b : BayNo) (op : JtagOp), s.present b = true → op ≠ .debug →
    ∃ t, exec (.jtagUpdateIr b op) s = .next t ∧ (t.bay b).jtag.ir = op ∧ (t.bay b).jtag.pinsOff = ((s.bay b).jtag.pinsOff || op.takesPins) ∧
      t.keeper = s.keeper

/-- A package whose metrology fuse is blown ignores the debug chain. -/
def Claims.RegisterMapAndService.jtagUpdateIr_fuse : Prop :=
  ∀ (s : State) (b : BayNo), s.keeper.fuses.metrology = true → ∃ t, exec (.jtagUpdateIr b .debug) s = .next t ∧ t = s

/-- Test-Logic-Reset connects it again. -/
def Claims.RegisterMapAndService.jtagTestLogicReset_done : Prop :=
  ∀ (s : State) (b : BayNo), s.present b = true → ∃ t, exec (.jtagTestLogicReset b) s = .next t ∧ t = s.modBay b fun y => { y with jtag := .reset }

/-- Writes to the register map, the service port and JTAG. -/
def Obligations.RegisterMapAndService : Prop :=
  Claims.RegisterMapAndService.registerWrite_scratch ∧
  Claims.RegisterMapAndService.registerWrite_bytes ∧
  Claims.RegisterMapAndService.capturePut_read ∧
  Claims.RegisterMapAndService.registerWrite_capture ∧
  Claims.RegisterMapAndService.svcTransaction_refused ∧
  Claims.RegisterMapAndService.svcTransaction_alertMask ∧
  Claims.RegisterMapAndService.svcAlertClear_done ∧
  Claims.RegisterMapAndService.jtagUpdateIr_pins ∧
  Claims.RegisterMapAndService.jtagUpdateIr_fuse ∧
  Claims.RegisterMapAndService.jtagTestLogicReset_done

/-- A member place whose root port trains begins its identification at the lower of what it trained at and what REC.Dd_GEN and
REC.Dd_WIDTH say. -/
def Claims.RecorderDrives.driveLinkTrained_done : Prop :=
  ∀ (s : State) (b : BayNo) (d : Fin 8) (g n : Nat), s.alive b = true → s.memberPlace b d = true → (s.drive b d).state = .absent →
    ∃ t, exec (.driveLinkTrained b d g n) s = .next t ∧ (t.drive b d).state = .init ∧
      (t.drive b d).gen = min g (s.fldN Fld.recDGen b d.val) ∧ (t.drive b d).width = min n (2 ^ s.fldN Fld.recDWidth b d.val) ∧ (t.drive b d).label = (s.drive b d).label ∧
      (t.recd b).log = (s.recd b).log

/-- Training that has not completed is tried again a second later. -/
def Claims.RecorderDrives.driveTrainRetry_done : Prop :=
  ∀ (s : State) (b : BayNo) (d : Fin 8), s.alive b = true → s.memberPlace b d = true → (s.drive b d).state = .absent →
    ∃ t, exec (.driveTrainRetry b d) s = .next t ∧ (t.drive b d).state = .absent ∧ (t.drive b d).trainAt = later (s.drive b d).trainAt (ofMs 1000) ∧
      t.now = (s.reach (s.drive b d).trainAt).now

/-- Once the volume part waits for members no longer, a usable blank drive that replaces no failed member becomes READY with its
label and capacity. -/
def Claims.RecorderDrives.driveReady_waits : Prop :=
  ∀ (s : State) (b : BayNo) (d : Fin 8) (i : DriveInfo), s.alive b = true → s.memberPlace b d = true → (s.drive b d).state = .init →
    (s.recd b).state ≠ .waiting → (s.recd b).failedMember ≠ some d → s.usable b d i = true → i.label = none →
    ∃ t, exec (.driveReady b d i) s = .next t ∧ (t.drive b d).state = .ready ∧
      (t.drive b d).label = .blank ∧ (t.drive b d).capacity = i.capacity ∧ (t.drive b d).unusable = false ∧
      (t.drive b d).downgraded = s.linkShort b (s.drive b d).gen (s.drive b d).width ∧
      s.Told t b 0x0D01 [wd d.val, wd b.val, wd d.val, wd (s.drive b d).gen, wd (s.drive b d).width, labelStatus true .blank]

/-- A usable foreign drive is not taken unless OVERWRITE is set: it becomes FOREIGN. -/
def Claims.RecorderDrives.driveReady_foreign : Prop :=
  ∀ (s : State) (b : BayNo) (d : Fin 8) (i : DriveInfo), s.alive b = true → s.memberPlace b d = true → (s.drive b d).state = .init →
    (s.recd b).state ≠ .waiting → s.fldB Fld.recOverwrite b = false → s.usable b d i = true → s.classify b i.label = .foreign →
    ∃ t, exec (.driveReady b d i) s = .next t ∧ (t.drive b d).state = .foreign ∧ ∃ u : State, t = u.event b 0x0D03 [wd d.val]

/-- With fewer than n − 1 drives ready when DRIVE_WAIT has passed, and no lower bay still waiting, the recorder enters FAILED. -/
def Claims.RecorderDrives.driveWaitExpire_failed : Prop :=
  ∀ (s : State) (b : BayNo), s.alive b = true → (s.recd b).state = .waiting → (∀ x ∈ s.liveBays, x.val < b.val → (s.recd x).state ≠ .waiting) →
    ((s.reach (later (s.recd b).origin (ofMs (1000 * s.fldN Fld.recDriveWait b)))).candidates b).length + 1 < s.fldN Fld.recDrives b →
    ∃ t, exec (.driveWaitExpire b) s = .next t ∧ (t.recd b).state = .failed ∧ (t.recd b).volume = none ∧ (t.recd b).drives = (s.recd b).drives

/-- The log page of a ready drive appears in its registers, and is read again a second later. -/
def Claims.RecorderDrives.smartPoll_done : Prop :=
  ∀ (s : State) (b : BayNo) (d : Fin 8) (temp media : BitVec 16) (used : BitVec 8), s.alive b = true → s.memberPlace b d = true →
    (s.drive b d).state = .member →
    ∃ t, exec (.smartPoll b d temp media used) s = .next t ∧ (t.drive b d).temp = temp ∧ (t.drive b d).mediaErrors = media ∧
      (t.drive b d).used = used ∧ (t.drive b d).smartAt = later (s.drive b d).smartAt (ofMs 1000) ∧ (t.drive b d).state = .member

/-- Reading REC_Dd_LAT_MAX clears it and nothing else. -/
def Claims.RecorderDrives.recLatMaxRead_done : Prop :=
  ∀ (s : State) (b : BayNo) (d : Fin 8), s.queueAwake b = true → (s.bay b).pwr.ports = true →
    ∃ t, exec (.recLatMaxRead b d) s = .next t ∧ t = s.modDrive b d fun x => { x with latMax := 0 }

/-- The first member to fail by its link makes the failover begin: it is FAILED, its units leave the rows under way, and no
other member changes state. -/
def Claims.RecorderDrives.driveLinkDown_first : Prop :=
  ∀ (s : State) (b : BayNo) (d : Fin 8), s.alive b = true → s.memberPlace b d = true → (s.drive b d).state = .member →
    (s.recd b).failedMember = none →
    ∃ t, exec (.driveLinkDown b d) s = .next t ∧ (t.drive b d).state = .failed ∧ (t.recd b).failedMember = some d ∧
      (t.recd b).failover = true ∧ (t.recd b).state = (s.recd b).state ∧
      (∀ e : Fin 8, e ≠ d → (t.drive b e).state = (s.drive b e).state)

/-- A second failure enters FAILED, whatever reports it. -/
def Claims.RecorderDrives.controllerFatalStatus_second : Prop :=
  ∀ (s : State) (b : BayNo) (d e : Fin 8), s.alive b = true → s.memberPlace b d = true → (s.drive b d).state = .member →
    (s.recd b).failedMember = some e → e ≠ d →
    ∃ t, exec (.controllerFatalStatus b d) s = .next t ∧ (t.drive b d).state = .failed ∧ (t.recd b).state = .failed ∧
      (t.recd b).rows = [] ∧ (t.recd b).failover = false

/-- A command outstanding for DRIVE_TIMEOUT is counted and fails the member. -/
def Claims.RecorderDrives.driveCommandTimeout_first : Prop :=
  ∀ (s : State) (b : BayNo) (d : Fin 8) (r : RowWrite), s.alive b = true → (s.recd b).rows.find? (fun r => r.left.contains d) = some r →
    (s.drive b d).state = .member → (s.recd b).failedMember = none →
    ∃ t, exec (.driveCommandTimeout b d) s = .next t ∧ (t.drive b d).state = .failed ∧ (t.drive b d).timeouts = (s.drive b d).timeouts + 1 ∧
      (t.recd b).failedMember = some d

/-- A completed unit leaves its row, and a row with nothing left is complete. -/
def Claims.RecorderDrives.nvmeCompletion_last : Prop :=
  ∀ (s : State) (b : BayNo) (d : Fin 8) (row : Nat) (at' : Stamp), s.alive b = true → (s.recd b).rows = [{ row := row, left := [d], issued := at' }] →
    0 < s.fldN Fld.recLagRows b →
    ∃ t, exec (.nvmeCompletion b d true) s = .next t ∧ (t.recd b).rows = [] ∧ (t.drive b d).state = (s.drive b d).state ∧
      (t.drive b d).latMax = max (s.drive b d).latMax (toNs (s.nowAt b - at').toNat / 1000)

/-- Acceptance resumes with the span under way marked degraded, and the labels are rewritten with the next generation. -/
def Claims.RecorderDrives.failoverResume_done : Prop :=
  ∀ (s : State) (b : BayNo) (d : Fin 8) (v : Volume), s.alive b = true → (s.recd b).failedMember = some d → (s.recd b).failover = true →
    (s.recd b).volume = some v →
    ∃ t, exec (.failoverResume b) s = .next t ∧ (t.recd b).failover = false ∧
      (t.recd b).volume = some { v with generation := (v.generation + 1) % 2 ^ 32 } ∧ (t.recd b).span = (s.recd b).span.map (fun e => { e with degraded := true })

/-- A rebuilt row moves the rebuild on. -/
def Claims.RecorderDrives.rebuildRowDone_row : Prop :=
  ∀ (s : State) (b : BayNo) (d : Fin 8) (v : Volume) (r : Nat), s.alive b = true → (s.recd b).rebuild = some r → (s.recd b).volume = some v →
    (s.recd b).failedMember = some d → (s.recd b).state = .idle → r + 1 < v.rowCount →
    ∃ t, exec (.rebuildRowDone b) s = .next t ∧ t = s.modRec b fun y => { y with rebuild := some (r + 1) }

/-- The last row makes the replacement a member again. -/
def Claims.RecorderDrives.rebuildRowDone_last : Prop :=
  ∀ (s : State) (b : BayNo) (d : Fin 8) (v : Volume) (r : Nat), s.alive b = true → (s.recd b).rebuild = some r → (s.recd b).volume = some v →
    (s.recd b).failedMember = some d → (s.recd b).state = .idle → v.rowCount ≤ r + 1 →
    ∃ t, exec (.rebuildRowDone b) s = .next t ∧ (t.recd b).rebuild = none ∧ (t.recd b).failedMember = none ∧ (t.drive b d).state = .member ∧
      (t.recd b).volume = some { v with generation := (v.generation + 1) % 2 ^ 32 }

/-- Drives join, fail, are replaced and rebuilt. -/
def Obligations.RecorderDrives : Prop :=
  Claims.RecorderDrives.driveLinkTrained_done ∧
  Claims.RecorderDrives.driveTrainRetry_done ∧
  Claims.RecorderDrives.driveReady_waits ∧
  Claims.RecorderDrives.driveReady_foreign ∧
  Claims.RecorderDrives.driveWaitExpire_failed ∧
  Claims.RecorderDrives.smartPoll_done ∧
  Claims.RecorderDrives.recLatMaxRead_done ∧
  Claims.RecorderDrives.driveLinkDown_first ∧
  Claims.RecorderDrives.controllerFatalStatus_second ∧
  Claims.RecorderDrives.driveCommandTimeout_first ∧
  Claims.RecorderDrives.nvmeCompletion_last ∧
  Claims.RecorderDrives.failoverResume_done ∧
  Claims.RecorderDrives.rebuildRowDone_row ∧
  Claims.RecorderDrives.rebuildRowDone_last

/-- A taken REC_START whose selected bays are all idle (or full, with NEW) and whose stamp is not early requests the start of
each of them, and completes with OK and the start. -/
def Claims.RecordingAndReplay.recStart_accepted : Prop :=
  ∀ (s u : State) (tag : Word) (mask : BitVec 8) (fresh erase : Bool), s.takeCommand = some u → u.img.state = .run →
    (erase = true → fresh = true) →
    (∀ b ∈ allBays, inMask mask.toNat b.val = true → u.alive b = true ∧ u.startable b fresh = true ∧ (u.recd b).startReq = none) →
    ∃ t, exec (.recStart tag mask fresh erase 0) s = .next t ∧
      (∀ b ∈ allBays, inMask mask.toNat b.val = true →
        (t.recd b).startReq = some { tag := tag, due := u.epochLead, fresh := fresh, erase := erase })

/-- A stamp earlier than acceptance + T_b + 1 µs completes with BAD_ARGUMENT and changes nothing else. -/
def Claims.RecordingAndReplay.recStart_early : Prop :=
  ∀ (s u : State) (tag : Word) (mask : BitVec 8) (fresh erase : Bool) (t0 : Stamp), s.takeCommand = some u → u.img.state = .run →
    t0 ≠ 0 → stampLt t0 u.epochLead = true →
    ∃ t, exec (.recStart tag mask fresh erase t0) s = .next t ∧ t = u.complete 5 tag stBadArgument 0 u.now

/-- A selected bay that is not idle completes the command with BUSY and no bay of the mask starts. -/
def Claims.RecordingAndReplay.recStart_busy : Prop :=
  ∀ (s u : State) (tag : Word) (mask : BitVec 8) (b : BayNo), s.takeCommand = some u → u.img.state = .run →
    inMask mask.toNat b.val = true → (u.recd b).state ≠ .idle →
    ∃ t, exec (.recStart tag mask false false 0) s = .next t ∧ t = u.complete 5 tag stBusy 0 u.now

/-- At the start the session number grows by one, the bay records, and its log continues unless NEW was given. -/
def Claims.RecordingAndReplay.recStartEffect_done : Prop :=
  ∀ (s : State) (b : BayNo) (r : StartReq), s.alive b = true → (s.recd b).startReq = some r → (s.bay b).pwr.ports = true → s.startable b r.fresh = true →
    ∃ t, exec (.recStartEffect b) s = .next t ∧ (t.recd b).state = .recording ∧ (t.recd b).session = (s.recd b).session + 1 ∧
      (t.recd b).sessionOpen = true ∧ (t.recd b).startReq = none ∧ (t.recd b).pos = (if r.fresh then 0 else (s.recd b).pos) ∧
      (t.recd b).log = (if r.fresh then [] else (s.recd b).log) ∧ s.Told t b 0x0D20 ([((s.recd b).session + 1).zeroExtend 32] ++ stampWords ((s.reach r.due).nowAt b))

/-- A taken REC_STOP notes the stop of each selected bay and completes with OK and its stamp. -/
def Claims.RecordingAndReplay.recStop_accepted : Prop :=
  ∀ (s u : State) (tag : Word) (mask : BitVec 8) (b : BayNo) (t0 : Stamp), s.takeCommand = some u → u.img.state = .run →
    b ∈ u.maskBays mask.toNat → t0 ≠ 0 →
    ∃ t, exec (.recStop tag mask t0) s = .next t ∧ (t.recd b).stopReq = some t0 ∧ (t.recd b).state = (u.recd b).state

/-- At the stop a recording bay closes its span and every open region and stops accepting; its state stays RECORDING until the
rows are written. -/
def Claims.RecordingAndReplay.recStopEffect_recording : Prop :=
  ∀ (s : State) (b : BayNo) (t0 : Stamp) (v : Volume), s.alive b = true → (s.recd b).stopReq = some t0 → (s.recd b).state = .recording →
    (s.recd b).volume = some v →
    ∃ t, exec (.recStopEffect b) s = .next t ∧ (t.recd b).stopReq = none ∧ (t.recd b).stopping = true ∧ (t.recd b).span = none ∧
      (t.recd b).state = .recording ∧ (t.recd b).indexed = (t.recd b).spans.length

/-- A bay that does not record ignores the stop. -/
def Claims.RecordingAndReplay.recStopEffect_ignored : Prop :=
  ∀ (s : State) (b : BayNo) (t0 : Stamp), s.alive b = true → (s.recd b).stopReq = some t0 → (s.recd b).state ≠ .recording →
    ∃ t, exec (.recStopEffect b) s = .next t ∧ t = (s.reach t0).modRec b fun y => { y with stopReq := none }

/-- With every row written the bay enters IDLE. -/
def Claims.RecordingAndReplay.recStopDone_done : Prop :=
  ∀ (s : State) (b : BayNo), s.alive b = true → (s.recd b).stopping = true → (s.recd b).rows = [] →
    ∃ t, exec (.recStopDone b) s = .next t ∧ (t.recd b).state = .idle ∧ (t.recd b).stopping = false ∧ (t.recd b).sessionOpen = false ∧
      (t.recd b).log = (s.recd b).log ∧ s.Told t b 0x0D21 []

/-- Every SYNC_MS a partly filled row is completed with zeros, so that the next record starts at a row. -/
def Claims.RecordingAndReplay.recSyncTimer_row : Prop :=
  ∀ (s : State) (b : BayNo) (v : Volume), s.alive b = true → (s.recd b).state = .recording → (s.recd b).volume = some v →
    (s.recd b).stopping = false → (s.recd b).accepted = true → 0 < v.rowBytes →
    ∃ t, exec (.recSyncTimer b) s = .next t ∧ (t.recd b).pos % v.rowBytes = 0 ∧ (t.recd b).accepted = false ∧
      (t.recd b).pos < (s.recd b).pos + v.rowBytes ∧ (s.recd b).pos ≤ (t.recd b).pos

/-- One region of the frozen-region table is released. -/
def Claims.RecordingAndReplay.recFreezeReleaseOne_done : Prop :=
  ∀ (s : State) (b : BayNo) (i : Fin 64), (s.bay b).pwr.ports = true →
    ∃ t, exec (.recFreezeReleaseOne b i) s = .next t ∧ (t.recd b).regions[i] = none ∧
      (∀ j : Fin 64, j ≠ i → (t.recd b).regions[j] = (s.recd b).regions[j])

/-- Every region is released. -/
def Claims.RecordingAndReplay.recFreezeReleaseAll_done : Prop :=
  ∀ (s : State) (b : BayNo), (s.bay b).pwr.ports = true →
    ∃ t, exec (.recFreezeReleaseAll b) s = .next t ∧ (t.recd b).regions = Vector.replicate 64 none ∧ (t.recd b).log = (s.recd b).log

/-- A taken REPLAY towards a queue starts at the first retained record of the first span whose latest stamp is not before its
start. -/
def Claims.RecordingAndReplay.replay_starts : Prop :=
  ∀ (s u : State) (tag : Word) (b : BayNo) (lo hi : Stamp) (source typ : BitVec 8), s.takeCommand = some u → u.img.state = .run →
    u.alive b = true → (u.recd b).state = .idle → (u.recd b).replay = none →
    ∃ t, exec (.replay tag b 0 false lo hi source typ) s = .next t ∧
      (t.recd b).replay = some { target := 0, lo := lo, hi := hi, source := source, typ := typ, next := (u.recd b).replayStart lo, delivered := 0, limit := (u.recd b).serial, upto := lo, stalled := false, epoch := none } ∧
      (t.recd b).state = .idle

/-- A second replay of the bay completes with BUSY and changes nothing else. -/
def Claims.RecordingAndReplay.replay_busy : Prop :=
  ∀ (s u : State) (tag : Word) (b : BayNo) (target : BitVec 2) (lo hi : Stamp) (source typ : BitVec 8) (r : Replay), s.takeCommand = some u →
    u.img.state = .run → u.alive b = true → (u.recd b).state = .idle → (u.recd b).replay = some r →
    ∃ t, exec (.replay tag b target false lo hi source typ) s = .next t ∧ t = u.complete 7 tag stBusy 0 u.now

/-- A record whose bytes come back changed is counted as skipped and passed. -/
def Claims.RecordingAndReplay.replayDeliver_skipped : Prop :=
  ∀ (s : State) (b : BayNo) (r : Replay) (e : LogRec), s.alive b = true → s.quiet = false → (s.recd b).replay = some r → s.replaySkip b r = s →
    (s.recd b).replayNext r = .entry e → (s.recd b).mayRead e = true →
    ∃ t, exec (.replayDeliver b 1) s = .next t ∧ (t.recd b).replaySkipped = (s.recd b).replaySkipped + 1 ∧
      (t.recd b).replay = some { r with next := e.serial + 1 } ∧ (t.recd b).replayCount = (s.recd b).replayCount

/-- A replay to a queue that finds nothing further ends with the cause and the number of records delivered. -/
def Claims.RecordingAndReplay.replayDeliver_ends : Prop :=
  ∀ (s : State) (b : BayNo) (r : Replay) (c : Nat), s.alive b = true → s.quiet = false → (s.recd b).replay = some r → s.replaySkip b r = s → r.target = 0 →
    (s.recd b).replayNext r = .ends c →
    ∃ t, exec (.replayDeliver b 0) s = .next t ∧ (t.recd b).replay = none ∧
      t = (s.modRec b fun y => { y with replay := none }).event b 0x0D40 [wd c, wd r.delivered]

/-- The stream of the port replaced by a replay stops at the first missing sample. -/
def Claims.RecordingAndReplay.replayStall_done : Prop :=
  ∀ (s : State) (b : BayNo) (r : Replay) (t0 : Stamp), s.alive b = true → (s.recd b).replay = some r → r.target = 1 →
    (s.bay b).ddc[(2 : Fin 4)].stopped = none →
    ∃ t, exec (.replayStall b t0) s = .next t ∧ t = (s.modRec b fun y => { y with replay := some { r with stalled := true } }).stopStream b 2 t0 0 true

/-- It resumes when 100 µs of samples are buffered again. -/
def Claims.RecordingAndReplay.replayResume_done : Prop :=
  ∀ (s : State) (b : BayNo) (r : Replay) (t0 : Stamp), s.alive b = true → (s.recd b).replay = some r → r.target = 2 → r.stalled = true →
    ∃ t, exec (.replayResume b t0) s = .next t ∧ t = (s.modRec b fun y => { y with replay := some { r with stalled := false } }).resumeStream b 3 t0 0

/-- Starting, stopping, syncing, releasing regions and replaying. -/
def Obligations.RecordingAndReplay : Prop :=
  Claims.RecordingAndReplay.recStart_accepted ∧
  Claims.RecordingAndReplay.recStart_early ∧
  Claims.RecordingAndReplay.recStart_busy ∧
  Claims.RecordingAndReplay.recStartEffect_done ∧
  Claims.RecordingAndReplay.recStop_accepted ∧
  Claims.RecordingAndReplay.recStopEffect_recording ∧
  Claims.RecordingAndReplay.recStopEffect_ignored ∧
  Claims.RecordingAndReplay.recStopDone_done ∧
  Claims.RecordingAndReplay.recSyncTimer_row ∧
  Claims.RecordingAndReplay.recFreezeReleaseOne_done ∧
  Claims.RecordingAndReplay.recFreezeReleaseAll_done ∧
  Claims.RecordingAndReplay.replay_starts ∧
  Claims.RecordingAndReplay.replay_busy ∧
  Claims.RecordingAndReplay.replayDeliver_skipped ∧
  Claims.RecordingAndReplay.replayDeliver_ends ∧
  Claims.RecordingAndReplay.replayStall_done ∧
  Claims.RecordingAndReplay.replayResume_done

/-- A record for which a linear recording has no place before the extent end makes the bay FULL, with EV_REC_FULL. -/
def Claims.FullRecorder.recTake_full : Prop :=
  ∀ (s : State) (b : BayNo) (r : Rec) (v : Volume), (s.recd b).state = .recording → (s.recd b).volume = some v → (s.recd b).stopping = false →
    s.fldN Fld.recMode b = 0 → s.recPlace b v r.bytes = none →
    ((s.recTake b r).recd b).state = .full

/-- It raises EV_REC_FULL, and the record is discarded and counted. -/
def Claims.FullRecorder.recTake_fullTold : Prop :=
  ∀ (s : State) (b : BayNo) (r : Rec) (v : Volume), (s.recd b).state = .recording → (s.recd b).volume = some v → (s.recd b).stopping = false →
    s.fldN Fld.recMode b = 0 → s.recPlace b v r.bytes = none →
    ∃ u : State, s.recTake b r = (u.event b 0x0D22 []).modRec b fun y => { y with discards := y.discards + 1 }

/-- In FULL a record is discarded whole and counted, and nothing else changes. -/
def Claims.FullRecorder.recTake_fullDiscards : Prop :=
  ∀ (s : State) (b : BayNo) (r : Rec), (s.recd b).state = .full → s.recTake b r = s.modRec b fun y => { y with discards := y.discards + 1 }

/-- A taken REC_START without NEW that selects a FULL bay completes with BUSY and starts nothing. -/
def Claims.FullRecorder.recStart_fullBusy : Prop :=
  ∀ (s u : State) (tag : Word) (mask : BitVec 8) (b : BayNo), s.takeCommand = some u → u.img.state = .run →
    inMask mask.toNat b.val = true → (u.recd b).state = .full →
    ∃ t, exec (.recStart tag mask false false 0) s = .next t ∧ t = u.complete 5 tag stBusy 0 u.now

/-- One with NEW is accepted by it. -/
def Claims.FullRecorder.recStart_fullNew : Prop :=
  ∀ (s u : State) (tag : Word) (b : BayNo) (erase : Bool), s.takeCommand = some u → u.img.state = .run →
    u.alive b = true → (u.recd b).state = .full → (u.recd b).startReq = none →
    ∃ t, exec (.recStart tag (BitVec.ofNat 8 (2 ^ b.val)) true erase 0) s = .next t ∧
      (t.recd b).startReq = some { tag := tag, due := u.epochLead, fresh := true, erase := erase }

/-- At its start the bay records again, from extent offset 0 with an empty log. -/
def Claims.FullRecorder.recStartEffect_full : Prop :=
  ∀ (s : State) (b : BayNo) (r : StartReq), s.alive b = true → (s.recd b).startReq = some r → (s.bay b).pwr.ports = true → r.fresh = true → (s.recd b).state = .full →
    ∃ t, exec (.recStartEffect b) s = .next t ∧ (t.recd b).state = .recording ∧ (t.recd b).pos = 0 ∧ (t.recd b).log = []

/-- A start request without NEW leaves a FULL bay full. -/
def Claims.FullRecorder.recStartEffect_fullKept : Prop :=
  ∀ (s : State) (b : BayNo) (r : StartReq), (s.recd b).startReq = some r → r.fresh = false → (s.recd b).state = .full →
    ∃ t, exec (.recStartEffect b) s = .next t ∧ t = s

/-- A linear recording that reaches the extent end, and the only way out of FULL. -/
def Obligations.FullRecorder : Prop :=
  Claims.FullRecorder.recTake_full ∧
  Claims.FullRecorder.recTake_fullTold ∧
  Claims.FullRecorder.recTake_fullDiscards ∧
  Claims.FullRecorder.recStart_fullBusy ∧
  Claims.FullRecorder.recStart_fullNew ∧
  Claims.FullRecorder.recStartEffect_full ∧
  Claims.FullRecorder.recStartEffect_fullKept

/-- A lane of a BLIND link that locks counts as up, its receiver adapted. -/
def Claims.LinkBringUp.laneUp_blind : Prop :=
  ∀ (s : State) (b : BayNo) (k : Fin 24) (n : Fin 2) (j : Nat), s.extOf b k = some (n, j) → s.lanePowered b k = true → s.pinned b = true →
    s.extMode n = 1 → (s.ext n).lanesUp.getLsbD j = false → (s.lane b k).txTaken = false → (s.lane b k).rxTaken = false → (s.ext n).stage = .blind →
    j < s.extWidth n → j < 8 →
    ∃ t, exec (.laneUp b k) s = .next t ∧ (t.ext n).lanesUp.getLsbD j = true ∧ (t.lane b k).cdr = true ∧ (t.lane b k).setAside = false

/-- A lane not up after 1.0 ms is set aside. -/
def Claims.LinkBringUp.laneBringupTimeout_aside : Prop :=
  ∀ (s : State) (b : BayNo) (k : Fin 24) (n : Fin 2) (j : Nat), s.extOf b k = some (n, j) → (s.ext n).stage = .blind →
    (s.ext n).lanesUp.getLsbD j = false → (s.lane b k).setAside = false → b = s.linkBay → k = s.extLane n j →
    ∃ t, exec (.laneBringupTimeout b k) s = .next t ∧ (t.lane b k).setAside = true ∧ (t.ext n).lanesUp.getLsbD j = false

/-- A frame whose magic and CRC are right is heard, with its acknowledgement; negotiation goes on while a lane lacks either. -/
def Claims.LinkBringUp.capabilityFrameRx_heard : Prop :=
  ∀ (s : State) (b : BayNo) (k : Fin 24) (n : Fin 2) (j : Nat) (f : Vector Word 4), s.extOf b k = some (n, j) → (s.ext n).stage = .negotiate →
    frameGood f = true → j < 8 → (∃ i ∈ s.extLanes n, i < 8 ∧ i ≠ j ∧ (s.ext n).heard.getLsbD i = false) →
    ∃ t, exec (.capabilityFrameRx b k f) s = .next t ∧ (t.ext n).stage = .negotiate ∧ (t.ext n).heard.getLsbD j = true ∧
      (t.ext n).partner = bits f[1].toNat 2 0

/-- Any other frame is ignored. -/
def Claims.LinkBringUp.capabilityFrameRx_bad : Prop :=
  ∀ (s : State) (b : BayNo) (k : Fin 24) (f : Vector Word 4), frameGood f = false → ∃ t, exec (.capabilityFrameRx b k f) s = .next t ∧ t = s

/-- When every lane passes the last rung of the ladder the link carries Lanil framing at that rung's rate. -/
def Claims.LinkBringUp.stepRungCheckDone_last : Prop :=
  ∀ (s : State) (n : Fin 2) (errs : List (Option Nat)), (s.ext n).stage = .ladder → (s.ext n).passed = 0 → (s.ext n).rate = (s.ext n).target → 10000000 ≤ (s.ext n).target →
    s.extWidth n = 4 → errs = List.replicate 4 (some 0) → (∀ j ∈ s.extLanes n, (s.lane s.linkBay (s.extLane n j)).setAside = false) →
    ∃ t, exec (.stepRungCheckDone n errs) s = .next t ∧ (t.ext n).stage = .framed ∧ (t.ext n).lanesUp = 0xF ∧ (t.ext n).rate = (s.ext n).target

/-- A lane that fails a rung for the first time adapts again and the rung is checked again. -/
def Claims.LinkBringUp.stepRungCheckDone_retry : Prop :=
  ∀ (s : State) (n : Fin 2) (errs : List (Option Nat)), (s.ext n).stage = .ladder → (s.ext n).retried = 0 → (s.ext n).passed = 0 →
    s.extWidth n = 4 → errs = [none, some 0, some 0, some 0] → (∀ j ∈ s.extLanes n, (s.lane s.linkBay (s.extLane n j)).setAside = false) →
    ∃ t, exec (.stepRungCheckDone n errs) s = .next t ∧ (t.ext n).stage = .ladder ∧ (t.ext n).rate = (s.ext n).rate ∧
      (t.ext n).passed = 0xE ∧ (t.ext n).retried = 1

/-- Lanes not up in time are reported once with what kept them down; bring-up restarts 100 ms later. -/
def Claims.LinkBringUp.lnlLanesFailTimeout_told : Prop :=
  ∀ (s : State) (n : Fin 2), s.extWidth n ≠ 0 → (s.ext n).stage = .negotiate → (s.ext n).failTold = false → (s.ext n).firstFailed = false →
    s.extMode n ≠ 1 →
    ∃ t, exec (.lnlLanesFailTimeout n) s = .next t ∧ (t.ext n).stage = .failed ∧ (t.ext n).failTold = true ∧
      s.Told t s.linkBay 0x0E04 [wd (s.extQuad n), if (s.ext n).heard ≠ 0 then 1 else 0]

/-- A failed bring-up starts again: a STEP link negotiates at 1.25 Gbit/s with nothing heard. -/
def Claims.LinkBringUp.lnlBringupRestart_again : Prop :=
  ∀ (s : State) (n : Fin 2), (s.ext n).stage = .failed → s.extWidth n ≠ 0 → s.extMode n = 2 →
    ∃ t, exec (.lnlBringupRestart n) s = .next t ∧ (t.ext n).stage = .negotiate ∧ (t.ext n).rate = 1250000 ∧ (t.ext n).heard = 0 ∧
      (t.ext n).acked = 0 ∧ (t.ext n).lanesUp = 0

/-- The bring-up of an external link, BLIND and STEP. -/
def Obligations.LinkBringUp : Prop :=
  Claims.LinkBringUp.laneUp_blind ∧
  Claims.LinkBringUp.laneBringupTimeout_aside ∧
  Claims.LinkBringUp.capabilityFrameRx_heard ∧
  Claims.LinkBringUp.capabilityFrameRx_bad ∧
  Claims.LinkBringUp.stepRungCheckDone_last ∧
  Claims.LinkBringUp.stepRungCheckDone_retry ∧
  Claims.LinkBringUp.lnlLanesFailTimeout_told ∧
  Claims.LinkBringUp.lnlBringupRestart_again

/-- A receiver of a running port that loses lock is reported once an epoch and counted. -/
def Claims.LaneControl.laneLockLost_told : Prop :=
  ∀ (s : State) (b : BayNo) (k : Fin 24) (signal : Bool), s.lanePowered b k = true → (s.lane b k).cdr = true → (s.lane b k).inPort = true →
    (s.lane b k).lockTold = false →
    ∃ t, exec (.laneLockLost b k signal) s = .next t ∧ (t.lane b k).cdr = false ∧ (t.lane b k).signal = signal ∧ (t.lane b k).lockTold = true ∧
      (t.lane b k).cdrLosses = (s.lane b k).cdrLosses + 1 ∧ s.Told t b 0x0E01 [wd k.val]

/-- EYE_MEASURE of an awake and locked receiver holds the margins measured; a receiver that still adapts does so then. -/
def Claims.LaneControl.eyeMeasure_done : Prop :=
  ∀ (s : State) (b : BayNo) (k : Fin 24) (v : BitVec 8) (h : BitVec 6), s.lanePowered b k = true → (s.lane b k).rx.awake = true → (s.lane b k).cdr = true →
    ∃ t, exec (.eyeMeasure b k v h) s = .next t ∧ t = (s.readapt b k).modLane b k fun l => { l with eyeV := v, eyeH := h, eyeValid := true }

/-- A read of LNE_Lk_ERR_LO adds the errors of a lane that counts, and holds both counters for the words that follow. -/
def Claims.LaneControl.laneErrRead_latches : Prop :=
  ∀ (s : State) (b : BayNo) (k : Fin 24) (errs losses : Nat), s.lanePowered b k = true → s.counts b k = true →
    ∃ t, exec (.laneErrRead b k errs losses) s = .next t ∧ (t.lane b k).err = min laneMax ((s.lane b k).err + errs) ∧
      (t.lane b k).errLatch = (t.lane b k).err ∧ (t.lane b k).bitsLatch = (t.lane b k).bits ∧ (t.lane b k).mark = s.nowAt b

/-- CLEAR sets both counters to zero. -/
def Claims.LaneControl.laneClear_done : Prop :=
  ∀ (s : State) (b : BayNo) (k : Fin 24), s.lanePowered b k = true →
    ∃ t, exec (.laneClear b k) s = .next t ∧ t = s.modLane b k fun l => { l with err := 0, bits := 0, rem := 0, mark := s.nowAt b }

/-- A sleep request makes an awake transmitter of a TEST lane enter sleep. -/
def Claims.LaneControl.laneTxSleep_enters : Prop :=
  ∀ (s : State) (b : BayNo) (k : Fin 24), s.lanePowered b k = true → s.testQuad b k = true → (s.lane b k).tx = { LaneDir.reset with awake := true } →
    ∃ t, exec (.laneTxSleep b k) s = .next t ∧ (t.lane b k).tx = { LaneDir.reset with awake := true, entering := true } ∧ (t.lane b k).rx = (s.lane b k).rx

/-- One that arrives during a wake waits for its end. -/
def Claims.LaneControl.laneRxSleep_waits : Prop :=
  ∀ (s : State) (b : BayNo) (k : Fin 24), s.lanePowered b k = true → s.testQuad b k = true → (s.lane b k).rx = { LaneDir.reset with waking := true } →
    ∃ t, exec (.laneRxSleep b k) s = .next t ∧ (t.lane b k).rx = { LaneDir.reset with waking := true, queued := some false }

/-- A wake request during sleep entry waits for its end. -/
def Claims.LaneControl.laneTxWake_waits : Prop :=
  ∀ (s : State) (b : BayNo) (k : Fin 24), s.lanePowered b k = true → s.testQuad b k = true → (s.lane b k).tx = { LaneDir.reset with entering := true } →
    ∃ t, exec (.laneTxWake b k) s = .next t ∧ (t.lane b k).tx = { LaneDir.reset with entering := true, queued := some true }

/-- It begins the wake of a sleeping receiver. -/
def Claims.LaneControl.laneRxWake_begins : Prop :=
  ∀ (s : State) (b : BayNo) (k : Fin 24), s.lanePowered b k = true → s.testQuad b k = true → (s.lane b k).rx = LaneDir.reset →
    ∃ t, exec (.laneRxWake b k) s = .next t ∧ (t.lane b k).rx = { LaneDir.reset with waking := true }

/-- A receiver that has entered sleep holds no lock; a wake that waited begins. -/
def Claims.LaneControl.laneSleepDone_rx : Prop :=
  ∀ (s : State) (b : BayNo) (k : Fin 24), s.alive b = true → (s.lane b k).rx.entering = true →
    ∃ t, exec (.laneSleepDone b k false) s = .next t ∧
      (t.lane b k).rx = { LaneDir.reset with waking := decide ((s.lane b k).rx.queued = some true) } ∧ (t.lane b k).cdr = false ∧ (t.lane b k).chk = false

/-- A transmitter whose wake completes is awake, and a sleep that waited begins. -/
def Claims.LaneControl.laneTxWakeDone_done : Prop :=
  ∀ (s : State) (b : BayNo) (k : Fin 24), s.lanePowered b k = true → (s.lane b k).tx.waking = true →
    ∃ t, exec (.laneTxWakeDone b k) s = .next t ∧
      (t.lane b k).tx = { LaneDir.reset with awake := true, entering := decide ((s.lane b k).tx.queued = some false) }

/-- A receiver whose wake completes has a signal and is locked. -/
def Claims.LaneControl.laneRxWakeDone_done : Prop :=
  ∀ (s : State) (b : BayNo) (k : Fin 24) (rx : List Bool), s.lanePowered b k = true → (s.lane b k).rx.waking = true →
    ∃ t, exec (.laneRxWakeDone b k rx) s = .next t ∧ (t.lane b k).cdr = true ∧ (t.lane b k).signal = true ∧
      (t.lane b k).rx = { LaneDir.reset with awake := true, entering := decide ((s.lane b k).rx.queued = some false) }

/-- A signal at a sleeping receiver with RX_AUTOWAKE begins its wake. -/
def Claims.LaneControl.laneSignalDetect_auto : Prop :=
  ∀ (s : State) (b : BayNo) (k : Fin 24), s.lanePowered b k = true → (s.lane b k).rx = LaneDir.reset → s.fldB Fld.lneRxAutowake b k.val = true →
    ∃ t, exec (.laneSignalDetect b k) s = .next t ∧ (t.lane b k).signal = true ∧ (t.lane b k).rx = { LaneDir.reset with waking := true }

/-- LNE_Lk_TEST of a TEST lane holds what is written; the checker locks where it runs on a locked receiver and the bits it sees
agree with its pattern. -/
def Claims.LaneControl.laneTestWrite_done : Prop :=
  ∀ (s : State) (b : BayNo) (k : Fin 24) (v : BitVec 10) (rx : List Bool), s.lanePowered b k = true → s.testQuad b k = true → s.claimOf b k = none →
    ∃ t, exec (.laneTestWrite b k v rx) s = .next t ∧ (t.lane b k).test = v ∧
      (t.lane b k).chk = (t.locksOn b k rx && (s.lane b k).cdr && t.chkRuns b k)

/-- On a port's lane a PRBS bit may be set only while TEST_ALLOW is 1. -/
def Claims.LaneControl.laneTestWrite_forbidden : Prop :=
  ∀ (s : State) (b : BayNo) (k : Fin 24) (v : BitVec 10) (rx : List Bool), s.lanePowered b k = true → s.testQuad b k = false → s.controlLane b k = false → s.fldB Fld.lneTestAllow b = false →
    v.getLsbD 8 = true → ∃ t, exec (.laneTestWrite b k v rx) s = .next t ∧ t = s

/-- LANE_RESYNC seeds a running checker again from the bits it sees. -/
def Claims.LaneControl.laneResync_done : Prop :=
  ∀ (s : State) (b : BayNo) (k : Fin 24) (rx : List Bool), s.chkRuns b k = true →
    ∃ t, exec (.laneResync b k rx) s = .next t ∧ (t.lane b k).chk = (s.locksOn b k rx && (s.lane b k).cdr) ∧ (t.lane b k).err = (s.lane b k).err

/-- ERR_INJECT inverts one bit of a running generator's output. -/
def Claims.LaneControl.errInject_done : Prop :=
  ∀ (s : State) (b : BayNo) (k : Fin 24), s.genRuns b k = true →
    ∃ t, exec (.errInject b k) s = .next t ∧ t = s.emit (.packet "LANE_BIT_ERROR" (24 * b.val + k.val) [])

/-- The lanes' lock, counters, sleep and pattern logic. -/
def Obligations.LaneControl : Prop :=
  Claims.LaneControl.laneLockLost_told ∧
  Claims.LaneControl.eyeMeasure_done ∧
  Claims.LaneControl.laneErrRead_latches ∧
  Claims.LaneControl.laneClear_done ∧
  Claims.LaneControl.laneTxSleep_enters ∧
  Claims.LaneControl.laneRxSleep_waits ∧
  Claims.LaneControl.laneTxWake_waits ∧
  Claims.LaneControl.laneRxWake_begins ∧
  Claims.LaneControl.laneSleepDone_rx ∧
  Claims.LaneControl.laneTxWakeDone_done ∧
  Claims.LaneControl.laneRxWakeDone_done ∧
  Claims.LaneControl.laneSignalDetect_auto ∧
  Claims.LaneControl.laneTestWrite_done ∧
  Claims.LaneControl.laneTestWrite_forbidden ∧
  Claims.LaneControl.laneResync_done ∧
  Claims.LaneControl.errInject_done

/-- The control endpoint trained at its configured generation and width is up, and raises EV_CTRL_UP last. -/
def Claims.PcieEndpoints.pcieLinkUp_control : Prop :=
  ∀ (s : State), s.pciHere 0 4 = true → s.pinned 0 = true → s.pciGen 0 4 ≠ 0 → s.pciLanes 0 4 ∈ [4, 8, 16] →
    ∃ t, exec (.pcieLinkUp 0 4 (s.pciGen 0 4) (s.pciLanes 0 4) false) s = .next t ∧ (t.bay 0).pci[(4 : Fin 5)].linkUp = true ∧
      (t.bay 0).pci[(4 : Fin 5)].degraded = false ∧ (t.bay 0).pci[(4 : Fin 5)].width = BitVec.ofNat 5 (s.pciLanes 0 4) ∧
      (∃ u : State, t = u.event 0 0x0132 [])

/-- After acceptance a link below its configured figure is DEGRADED. -/
def Claims.PcieEndpoints.pcieLinkUp_degraded : Prop :=
  ∀ (s : State) (gen : Nat), s.pciHere 0 4 = true → s.pinned 0 = true → 0 < gen → gen < s.pciGen 0 4 → s.pciLanes 0 4 ∈ [4, 8, 16] →
    s.img.image.isSome = true →
    ∃ t, exec (.pcieLinkUp 0 4 gen (s.pciLanes 0 4) false) s = .next t ∧ (t.bay 0).pci[(4 : Fin 5)].degraded = true ∧
      (∃ u : State, t = u.event 0 0x0F03 [wd 4])

/-- A link that goes down is counted, resets the function and clears Bus Master Enable; the control endpoint's rings are
disabled. -/
def Claims.PcieEndpoints.pcieLinkDown_done : Prop :=
  ∀ (s : State) (b : BayNo) (j : Fin 5), s.alive b = true → (s.bay b).pci[j].linkUp = true →
    ∃ t, exec (.pcieLinkDown b j) s = .next t ∧ (t.bay b).pci[j].linkUp = false ∧ (t.bay b).pci[j].bme = false ∧ (t.bay b).pci[j].d3 = false ∧
      (t.bay b).pci[j].downs = (s.bay b).pci[j].downs + 1 ∧ (j = 4 → t.img.cmd.enable = false ∧ t.img.evt.enable = false)

/-- A hot reset or FLR is counted and resets the function; the link stays up. -/
def Claims.PcieEndpoints.pcieReset_done : Prop :=
  ∀ (s : State) (b : BayNo) (j : Fin 5), s.alive b = true → (s.bay b).pci[j].linkUp = true →
    ∃ t, exec (.pcieReset b j) s = .next t ∧ (t.bay b).pci[j].linkUp = true ∧ (t.bay b).pci[j].bme = false ∧
      (t.bay b).pci[j].resets = (s.bay b).pci[j].resets + 1 ∧ (∃ u : State, t = u.event b 0x0F04 [wd j.val])

/-- The host's Bus Master Enable and power state are as it sets them, once the endpoint answers configuration requests. -/
def Claims.PcieEndpoints.pcieBmeChange_done : Prop :=
  ∀ (s : State) (b : BayNo) (j : Fin 5) (bme d3 : Bool), s.alive b = true → (s.bay b).pci[j].linkUp = true → s.retryConfig = false →
    ∃ t, exec (.pcieBmeChange b j bme d3) s = .next t ∧ t = s.modPci b j fun e => { e with bme := bme, d3 := d3 }

/-- Until an image is first accepted or SAFE is entered the control endpoint only answers with Retry Status. -/
def Claims.PcieEndpoints.pcieBmeChange_retry : Prop :=
  ∀ (s : State) (b : BayNo) (bme d3 : Bool), s.alive b = true → (s.bay b).pci[(4 : Fin 5)].linkUp = true → s.retryConfig = true →
    ∃ t, exec (.pcieBmeChange b 4 bme d3) s = .next t ∧ t = s.emit (.packet "CONFIG_RETRY" 4 [])

/-- Training, loss and reset of a PCIe endpoint. -/
def Obligations.PcieEndpoints : Prop :=
  Claims.PcieEndpoints.pcieLinkUp_control ∧
  Claims.PcieEndpoints.pcieLinkUp_degraded ∧
  Claims.PcieEndpoints.pcieLinkDown_done ∧
  Claims.PcieEndpoints.pcieReset_done ∧
  Claims.PcieEndpoints.pcieBmeChange_done ∧
  Claims.PcieEndpoints.pcieBmeChange_retry

/-- A link that comes up carries traffic, with its FEC locked where it has one. -/
def Claims.EthernetPorts.ethLinkUp_done : Prop :=
  ∀ (s : State) (b : BayNo) (i : Fin 8), s.ethHere b i = true → s.pinned b = true →
    (s.bay b).pwr.quads[(s.fldN Fld.ethPQuad b i.val) % 6]'(Nat.mod_lt _ (by decide)) = true → (s.bay b).eth[i].linkUp = false →
    ∃ t, exec (.ethLinkUp b i) s = .next t ∧ (t.bay b).eth[i].linkUp = true ∧
      (t.bay b).eth[i].fecLock = decide (s.fldN Fld.ethPFec b i.val ≠ 0) ∧ (t.bay b).eth[i].localFault = false ∧ (t.bay b).eth[i].remoteFault = false ∧
      (∃ u : State, t = u.event b 0x1001 [wd i.val])

/-- A link that goes down loses its FEC alignment and is reported. -/
def Claims.EthernetPorts.ethLinkDown_done : Prop :=
  ∀ (s : State) (b : BayNo) (i : Fin 8), s.alive b = true → (s.bay b).eth[i].linkUp = true →
    ∃ t, exec (.ethLinkDown b i) s = .next t ∧ (t.bay b).eth[i].linkUp = false ∧ (t.bay b).eth[i].fecLock = false ∧
      (∃ u : State, t = u.event b 0x1002 [wd i.val])

/-- When a working port fails, exactly its streams whose other port works begin a failover; the others go on as they are. -/
def Claims.EthernetPorts.ethPortFault_moves : Prop :=
  ∀ (s : State) (b : BayNo) (i : Fin 8) (n : Fin 64) (q : Nat), s.ethHere b i = true → s.ethWorks (8 * b.val + i.val) = true →
    s.streamUsed n = true → s.streamPort n = 8 * b.val + i.val → s.otherPort n = some q → q ≠ 8 * b.val + i.val → s.ethWorks q = true →
    ∃ t, exec (.ethPortFault b i 1) s = .next t ∧ t.eth.streams[n].failing = true ∧ (t.bay b).eth[i].localFault = true ∧
      t.ethWorks (8 * b.val + i.val) = false ∧ (∀ m : Fin 64, s.streamPort m ≠ 8 * b.val + i.val → t.eth.streams[m].failing = s.eth.streams[m].failing)

/-- A failover that ends moves the stream to its other port; its packet count goes on. -/
def Claims.EthernetPorts.ethFailoverDone_done : Prop :=
  ∀ (s : State) (n : Fin 64), s.eth.streams[n].failing = true →
    ∃ t, exec (.ethFailoverDone n) s = .next t ∧ t.eth.streams[n].failing = false ∧ t.eth.streams[n].onStandby = !s.eth.streams[n].onStandby ∧
      t.eth.streams[n].packets = s.eth.streams[n].packets

/-- A frame that no part of the package takes is counted and dropped. -/
def Claims.EthernetPorts.ethFrameRx_dropped : Prop :=
  ∀ (s : State) (b : BayNo) (i : Fin 8), s.ethHere b i = true → (s.bay b).eth[i].linkUp = true →
    ∃ t, exec (.ethFrameRx b i .other) s = .next t ∧ (t.bay b).eth[i].rxFrames = (s.bay b).eth[i].rxFrames + 1 ∧
      (t.bay b).eth[i].rxDrop = (s.bay b).eth[i].rxDrop + 1 ∧ (t.bay b).eth[i].txFrames = (s.bay b).eth[i].txFrames ∧ t.outbox = s.outbox

/-- An echo request is answered. -/
def Claims.EthernetPorts.ethFrameRx_answered : Prop :=
  ∀ (s : State) (b : BayNo) (i : Fin 8), s.ethHere b i = true → (s.bay b).eth[i].linkUp = true →
    ∃ t, exec (.ethFrameRx b i .echoRequest) s = .next t ∧ (t.bay b).eth[i].rxFrames = (s.bay b).eth[i].rxFrames + 1 ∧
      (t.bay b).eth[i].txFrames = (s.bay b).eth[i].txFrames + 1 ∧ t.outbox = .packet "ECHO_REPLY" (8 * b.val + i.val) (s.portMac b i) :: s.outbox

/-- A PTP message of the domain and transport set that chooses another source on the PTP port makes the client follow it. -/
def Claims.EthernetPorts.ethFrameRx_ptp : Prop :=
  ∀ (s : State) (b : BayNo) (i : Fin 8) (c : BitVec 80), s.ethHere b i = true → (s.bay b).eth[i].linkUp = true →
    s.ptpPort = some (8 * b.val + i.val) → s.eth.ptpSource ≠ c →
    ∃ t, exec (.ethFrameRx b i (.ptp (s.pkgN Fld.ethPtpDomain) (s.pkgN Fld.ethPtpTransport) (some c))) s = .next t ∧ t.eth.ptpState = 2 ∧ t.eth.ptpSource = c ∧ s.Told t 0 0x1010 []

/-- With TBS.DISCIPLINE 2 a measured offset steers the servo, and time has PTP for its source. -/
def Claims.EthernetPorts.ptpOffsetMeasure_servo : Prop :=
  ∀ (s : State) (x : PtpExchange), s.alive 0 = true → s.eth.ptpState = 2 → s.packageNo = 0 → s.pkgN Fld.tbsDiscipline = 2 →
    ∃ t, exec (.ptpOffsetMeasure x) s = .next t ∧
      t = (((s.eachBay (s.liveBays.filter fun b => !(s.bay b).tbs.islanded) fun s b => s.modTbs b fun x => { x with source := .ptp }).modServo
        fun d => { d with heard := (s.eachBay (s.liveBays.filter fun b => !(s.bay b).tbs.islanded) fun s b => s.modTbs b fun x => { x with source := .ptp }).now }).servoOffset (s.ptpOffset x))

/-- With 3 an offset of less than half a second changes no time. -/
def Claims.EthernetPorts.ptpOffsetMeasure_whole : Prop :=
  ∀ (s : State) (x : PtpExchange), s.alive 0 = true → s.eth.ptpState = 2 → s.packageNo = 0 → s.pkgN Fld.tbsDiscipline = 3 →
    -(unitsPerSec : Int) < 2 * s.ptpOffset x → 2 * s.ptpOffset x < unitsPerSec →
    ∃ t, exec (.ptpOffsetMeasure x) s = .next t ∧ t.tbs.servo = s.tbs.servo ∧ (t.bay 0).tbs.tide = (s.bay 0).tbs.tide

/-- An answered resolution of a destination that a stream of the port has makes it resolved on the port, to be refreshed after
60 s. -/
def Claims.EthernetPorts.ethResolveTimer_answered : Prop :=
  ∀ (s : State) (p : Fin 64) (d : Fin 16), s.ethHere (ethPortOf p.val).1 (ethPortOf p.val).2 = true →
    (s.bay (ethPortOf p.val).1).eth[(ethPortOf p.val).2].linkUp = true → s.multicast d.val = false →
    ((s.portStreams p.val).any fun n => decide (s.pkgN Fld.ethSDest n.val = d.val)) = true → s.eth.neighbours = [] →
    ∃ t, exec (.ethResolveTimer p d true) s = .next t ∧
      t.eth.neighbours = [{ port := p.val, dest := d.val, resolved := true, told := false, due := later s.now (ofMs 60000) }] ∧
      t.outbox = .packet (if s.portV4 (ethPortOf p.val).1 (ethPortOf p.val).2 then "ARP_REQUEST" else "NEIGHBOUR_SOLICITATION") p.val
        (((List.range 4).map fun n => (s.nextHop (ethPortOf p.val).1 (ethPortOf p.val).2 d.val).extractLsb' (96 - 32 * n) 32) ++
          s.portMac (ethPortOf p.val).1 (ethPortOf p.val).2) :: s.outbox

/-- An unanswered one is retried after 1 s, and its first failure is reported. -/
def Claims.EthernetPorts.ethResolveTimer_failed : Prop :=
  ∀ (s : State) (p : Fin 64) (d : Fin 16), s.ethHere (ethPortOf p.val).1 (ethPortOf p.val).2 = true →
    (s.bay (ethPortOf p.val).1).eth[(ethPortOf p.val).2].linkUp = true → s.multicast d.val = false →
    ((s.portStreams p.val).any fun n => decide (s.pkgN Fld.ethSDest n.val = d.val)) = true → s.eth.neighbours = [] →
    ∃ t, exec (.ethResolveTimer p d false) s = .next t ∧
      t.eth.neighbours = [{ port := p.val, dest := d.val, resolved := false, told := true, due := later s.now (ofMs 1000) }] ∧
      (∃ u : State, t = u.event (ethPortOf p.val).1 0x1004 [])

/-- Ethernet links, failover, frames, resolution and PTP. -/
def Obligations.EthernetPorts : Prop :=
  Claims.EthernetPorts.ethLinkUp_done ∧
  Claims.EthernetPorts.ethLinkDown_done ∧
  Claims.EthernetPorts.ethPortFault_moves ∧
  Claims.EthernetPorts.ethFailoverDone_done ∧
  Claims.EthernetPorts.ethFrameRx_dropped ∧
  Claims.EthernetPorts.ethFrameRx_answered ∧
  Claims.EthernetPorts.ethFrameRx_ptp ∧
  Claims.EthernetPorts.ptpOffsetMeasure_servo ∧
  Claims.EthernetPorts.ptpOffsetMeasure_whole ∧
  Claims.EthernetPorts.ethResolveTimer_answered ∧
  Claims.EthernetPorts.ethResolveTimer_failed

/-- An edge of the polarity that SYSREF_EDGE does not select changes nothing. -/
def Claims.JesdReceivers.sysrefInEdge_polarity : Prop :=
  ∀ (s : State) (b : BayNo) (a : Stamp) (falling long : Bool), s.fldB Fld.jesSysrefEdge b ≠ falling →
    ∃ t, exec (.sysrefInEdge b a falling long) s = .next t ∧ t = s

/-- A selected edge that the TDC stamps sets the grid of a receiver that awaits it, at the stamp with its skew added. -/
def Claims.JesdReceivers.sysrefInEdge_grid : Prop :=
  ∀ (s v : State) (b : BayNo) (a u : Stamp) (long : Bool), s.tdcEdge b 4 a long = (some u, v) → s.alive b = true →
    (v.bay b).tbs.tdcCoarse = false → s.fldN Fld.jesSSysrefSrc b 0 = 0 → s.fldB Fld.jesSEn b 0 = true → (s.bay b).jes[(0 : Fin 2)].awaiting = true →
    ∃ t, exec (.sysrefInEdge b a (s.fldB Fld.jesSysrefEdge b) long) s = .next t ∧
      (t.bay b).jes[(0 : Fin 2)].grid = some (moved u (quarterPs (s.fld Fld.jesSSysrefSkew b 0))) ∧ (t.bay b).jes[(0 : Fin 2)].awaiting = false

/-- The next edge of the bay's own SYSREF_OUT in continuous mode leaves the package, moved by its output delay, and sets the
grid of a receiver that awaits it. -/
def Claims.JesdReceivers.sysrefOutEdge_done : Prop :=
  ∀ (s : State) (b : BayNo), s.alive b = true → (s.bay b).clk.gated = false → s.fldN Fld.clkSysrefMode b = 1 → s.fldN Fld.jesSSysrefSrc b 0 = 1 →
    s.fldB Fld.jesSEn b 0 = true → (s.bay b).jes[(0 : Fin 2)].awaiting = true →
    ∃ t, exec (.sysrefOutEdge b) s = .next t ∧
      (t.bay b).jes[(0 : Fin 2)].grid = some (moved (moved (s.sysrefNext b) (stepDelay (s.fld Fld.clkSysrefDelay b))) (quarterPs (s.fld Fld.jesSSysrefSkew b 0))) ∧
      .pin "SYSREF_OUT" b true (moved (s.sysrefNext b) (stepDelay (s.fld Fld.clkSysrefDelay b))) ∈ t.outbox

/-- While the SPLL's outputs are gated there is none. -/
def Claims.JesdReceivers.sysrefOutEdge_gated : Prop :=
  ∀ (s : State) (b : BayNo), (s.bay b).clk.gated = true → ∃ t, exec (.sysrefOutEdge b) s = .next t ∧ t = s

/-- A JESD204C alignment of a running package with every lane inside the latency window starts the stream's port. -/
def Claims.JesdReceivers.jesAligned_aligned : Prop :=
  ∀ (s : State) (b : BayNo) (x : Fin 2) (a : JesAlign) (g : Stamp), s.jesOn b x = true → (s.bay b).ddc[xsPort x].aligned = false →
    (s.bay b).jes[x].grid = some g → s.img.state = .run → s.fldN Fld.jesSStd b x.val ≠ 0 → s.lateLane b x a.arrivals = none →
    ∃ t, exec (.jesAligned b x a) s = .next t ∧ (t.bay b).ddc[xsPort x].aligned = true ∧ (t.bay b).jes[x].aligns = (s.bay b).jes[x].aligns + 1 ∧
      (t.bay b).jes[x].late = false ∧ (t.bay b).jes[x].refused = (s.bay b).jes[x].refused ∧ (t.bay b).jes[x].locked = a.locked

/-- A lane outside the window refuses it. -/
def Claims.JesdReceivers.jesAligned_late : Prop :=
  ∀ (s : State) (b : BayNo) (x : Fin 2) (a : JesAlign) (g : Stamp) (i : Nat), s.jesOn b x = true → (s.bay b).ddc[xsPort x].aligned = false →
    (s.bay b).jes[x].grid = some g → s.img.state = .run → s.fldN Fld.jesSStd b x.val ≠ 0 → s.lateLane b x a.arrivals = some i →
    ∃ t, exec (.jesAligned b x a) s = .next t ∧ (t.bay b).ddc[xsPort x].aligned = false ∧ (t.bay b).jes[x].late = true ∧
      (t.bay b).jes[x].refused = (s.bay b).jes[x].refused + 1 ∧ s.Told t b 0x1103 [wd (s.fldN Fld.jesSFirstLane b x.val + i)]

/-- SYSREF edges and the alignment of a JESD204 receiver. -/
def Obligations.JesdReceivers : Prop :=
  Claims.JesdReceivers.sysrefInEdge_polarity ∧
  Claims.JesdReceivers.sysrefInEdge_grid ∧
  Claims.JesdReceivers.sysrefOutEdge_done ∧
  Claims.JesdReceivers.sysrefOutEdge_gated ∧
  Claims.JesdReceivers.jesAligned_aligned ∧
  Claims.JesdReceivers.jesAligned_late

/-- A flit in sequence whose CRC passes is acknowledged, and the next number is expected. -/
def Claims.FabricLinksAndRoutes.flitReceive_good : Prop :=
  ∀ (s : State) (b : BayNo) (p : Fin 5) (f : Vector Word 16) (x : LinkPort), s.linkPort b p = some x → s.isUp b p = true → flitGood f = true →
    f[0].extractLsb' 0 12 = x.expect →
    ∃ t, exec (.flitReceive b p f) s = .next t ∧ t = (s.modLinkPort b p fun x => { x with expect := x.expect + 1, streak := 0, unacked := min x.unacked (x.sendSeq - f[0].extractLsb' 12 12 - 1).toNat }).emit
      (.packet "FLIT_ACK" (8 * p.val + b.val) [(f[0].extractLsb' 0 12).setWidth 32])

/-- Any other flit makes the receiver ask for a replay from the number it expects. -/
def Claims.FabricLinksAndRoutes.flitReceive_bad : Prop :=
  ∀ (s : State) (b : BayNo) (p : Fin 5) (f : Vector Word 16) (x : LinkPort), s.linkPort b p = some x → s.isUp b p = true →
    (flitGood f = false ∨ f[0].extractLsb' 0 12 ≠ x.expect) → x.streak < 8 →
    ∃ t, exec (.flitReceive b p f) s = .next t ∧ t = (s.modLinkPort b p fun x => { x with replays := x.replays + 1, streak := x.streak + 1 }).emit
      (.packet "REPLAY_REQUEST" (8 * p.val + b.val) [x.expect.setWidth 32])

/-- Eight failed replays in a row take a fabric port down at both ends. -/
def Claims.FabricLinksAndRoutes.flitReceive_eighth : Prop :=
  ∀ (s : State) (b : BayNo) (p : Fin 3) (f : Vector Word 16), s.isUp b ⟨p.val, by omega⟩ = true → flitGood f = false →
    (s.bay b).lnl.ports[p].streak = 8 →
    ∃ t, exec (.flitReceive b ⟨p.val, by omega⟩ f) s = .next t ∧ (t.bay b).lnl.ports[p].up = false ∧ (t.bay (peerBay b p.val)).lnl.ports[p].up = false ∧
      (t.bay b).lnl.ports[p].downs = (s.bay b).lnl.ports[p].downs + 1

/-- A fabric port without a valid flit for 1 us goes down, and every living bay is due a topology update. -/
def Claims.FabricLinksAndRoutes.lnlFlitTimeout_down : Prop :=
  ∀ (s : State) (b : BayNo) (p : Fin 3), s.isUp b ⟨p.val, by omega⟩ = true →
    ∃ t, exec (.lnlFlitTimeout b ⟨p.val, by omega⟩) s = .next t ∧ (t.bay b).lnl.ports[p].up = false ∧
      (∀ c ∈ s.liveBays, (t.bay c).lnl.updateDue = true)

/-- So does one of which a module has gone down; those still trained are held. -/
def Claims.FabricLinksAndRoutes.lnlLinkDown_module : Prop :=
  ∀ (s : State) (b : BayNo) (p : Fin 3) (m : BitVec 4), s.isUp b ⟨p.val, by omega⟩ = true → m ≠ 0xF →
    ∃ t, exec (.lnlLinkDown b ⟨p.val, by omega⟩ m) s = .next t ∧ (t.bay b).lnl.ports[p].up = false ∧ (t.bay b).lnl.ports[p].modules = m

/-- A packet whose header CRC fails, or whose class is reserved, goes nowhere. -/
def Claims.FabricLinksAndRoutes.fabricPacketRx_discarded : Prop :=
  ∀ (s : State) (b : BayNo) (p : Fin 5) (h : Vector Word 4) (payload : List Word), s.isUp b p = true → (headerGood h = false ∨ classGood h = false) →
    ∃ t, exec (.fabricPacketRx b p h payload) s = .next t ∧ t = s.modLinkPort b p fun x => { x with replays := x.replays + 1 }

/-- A unicast packet for this bay with a tag not seen before is delivered once and goes no further. -/
def Claims.FabricLinksAndRoutes.fabricPacketRx_delivered : Prop :=
  ∀ (s : State) (b : BayNo) (p : Fin 5) (h : Vector Word 4) (payload : List Word), s.isUp b p = true → headerGood h = true → classGood h = true →
    bits h[0].toNat 18 18 = 0 → s.packetHere b h = true → (h[1] - Sparse.get 0 s.lnl.tags (8 * (8 * bits h[0].toNat 17 13 + bits h[0].toNat 2 0) + b.val)).toInt ≥ 0 →
    ∃ t, exec (.fabricPacketRx b p h payload) s = .next t ∧ t.outbox = .packet "LANIL_DELIVER" b.val (h.toList ++ payload) :: s.outbox ∧
      Sparse.get 0 t.lnl.tags (8 * (8 * bits h[0].toNat 17 13 + bits h[0].toNat 2 0) + b.val) = h[1] + 1 ∧ t.bays = s.bays

/-- A unicast packet for another bay goes out of the port of its route with one more hop. -/
def Claims.FabricLinksAndRoutes.fabricPacketRx_forwarded : Prop :=
  ∀ (s : State) (b : BayNo) (p q : Fin 5) (h : Vector Word 4) (payload : List Word), s.isUp b p = true → headerGood h = true → classGood h = true →
    bits h[0].toNat 18 18 = 0 → s.packetHere b h = false → s.nextPort b h = some q →
    ∃ t, exec (.fabricPacketRx b p h payload) s = .next t ∧ t = s.sendOut b q (oneHop h) payload

/-- A bay due an update takes the routes of the links that are up, and counts it. -/
def Claims.FabricLinksAndRoutes.topologyUpdate_done : Prop :=
  ∀ (s : State) (b : BayNo) (cuts : BitVec 4) (din : Fin 4), s.alive b = true → (s.bay b).lnl.updateDue = true →
    ∃ t, exec (.topologyUpdate b cuts din 0) s = .next t ∧ (t.bay b).lnl.updateDue = false ∧ (t.bay b).lnl.reroutes = (s.bay b).lnl.reroutes + 1 ∧
      (∀ c : BayNo, (t.bay b).lnl.routes[c] = if s.alive c then s.route b c else none)

/-- A port that is down retrains: both ends hold the modules now trained. -/
def Claims.FabricLinksAndRoutes.fabricPortRetrain_done : Prop :=
  ∀ (s : State) (b : BayNo) (p : Fin 3) (m : BitVec 4), s.alive b = true → (s.bay b).lnl.ports[p].up = false → p.val < s.part.log2 →
    ∃ t, exec (.fabricPortRetrain b p m) s = .next t ∧ (t.bay b).lnl.ports[p].modules = m ∧ (t.bay (peerBay b p.val)).lnl.ports[p].modules = m ∧
      (t.bay b).lnl.ports[p].up = false

/-- A port whose four modules are trained joins the fabric once no reroute is under way. -/
def Claims.FabricLinksAndRoutes.lnlLinkUp_port : Prop :=
  ∀ (s : State) (b : BayNo) (p : Fin 3), s.alive b = true → s.settled = true → (s.bay b).lnl.ports[p].up = false → (s.bay b).lnl.ports[p].modules = 0xF →
    s.alive (peerBay b p.val) = true → p.val < s.part.log2 →
    ∃ t, exec (.lnlLinkUp b ⟨p.val, by omega⟩) s = .next t ∧ (t.bay b).lnl.ports[p].up = true ∧ (t.bay (peerBay b p.val)).lnl.ports[p].up = true ∧
      (t.bay b).lnl.updateDue = true

/-- A running external link whose lane fails pauses and goes on with the lanes that are left. -/
def Claims.FabricLinksAndRoutes.lnlLaneFail_width : Prop :=
  ∀ (s : State) (n : Fin 2) (j : Fin 8), (s.ext n).stage = .framed → (s.ext n).lanesUp.getLsbD j.val = true → s.alive s.linkBay = true →
    (s.ext n).lanesUp &&& ~~~(BitVec.ofNat 8 (2 ^ j.val)) ≠ 0 →
    ∃ t, exec (.lnlLaneFail n j) s = .next t ∧ (t.ext n).lanesUp = (s.ext n).lanesUp &&& ~~~(BitVec.ofNat 8 (2 ^ j.val)) ∧ (t.ext n).paused = true ∧
      (t.ext n).stage = .framed

/-- Traffic resumes at the new width. -/
def Claims.FabricLinksAndRoutes.lnlWidthResume_done : Prop :=
  ∀ (s : State) (n : Fin 2), (s.ext n).paused = true → ∃ t, exec (.lnlWidthResume n) s = .next t ∧ (t.ext n).paused = false ∧ (t.ext n).lanesUp = (s.ext n).lanesUp

/-- The first packet that an injector holds for a time leaves it then. -/
def Claims.FabricLinksAndRoutes.lnlInjDelayExpire_sent : Prop :=
  ∀ (s : State) (b : BayNo) (n : Fin 5) (h : Held) (rest : List Held) (d : Stamp), s.alive b = true → (s.bay b).lnl.injectors[n].held = h :: rest → h.due = some d →
    ∃ t, exec (.lnlInjDelayExpire b n) s = .next t ∧
      t = ((s.reach d).modLink b n fun x => { x with held := x.held.erase h }).release b [h.packet]

/-- Flits, packets, links and routes of the Lanil fabric. -/
def Obligations.FabricLinksAndRoutes : Prop :=
  Claims.FabricLinksAndRoutes.flitReceive_good ∧
  Claims.FabricLinksAndRoutes.flitReceive_bad ∧
  Claims.FabricLinksAndRoutes.flitReceive_eighth ∧
  Claims.FabricLinksAndRoutes.lnlFlitTimeout_down ∧
  Claims.FabricLinksAndRoutes.lnlLinkDown_module ∧
  Claims.FabricLinksAndRoutes.fabricPacketRx_discarded ∧
  Claims.FabricLinksAndRoutes.fabricPacketRx_delivered ∧
  Claims.FabricLinksAndRoutes.fabricPacketRx_forwarded ∧
  Claims.FabricLinksAndRoutes.topologyUpdate_done ∧
  Claims.FabricLinksAndRoutes.fabricPortRetrain_done ∧
  Claims.FabricLinksAndRoutes.lnlLinkUp_port ∧
  Claims.FabricLinksAndRoutes.lnlLaneFail_width ∧
  Claims.FabricLinksAndRoutes.lnlWidthResume_done ∧
  Claims.FabricLinksAndRoutes.lnlInjDelayExpire_sent

/-- A partner of the right size, number and payload opens the link. -/
def Claims.ShoalsAndIslands.shoalExchangeRx_match : Prop :=
  ∀ (s : State) (n : Fin 2) (counts : List (Nat × Nat)), (s.ext n).stage = .framed → (s.ext n).port.up = false → s.alive s.linkBay = true →
    ∃ t, exec (.shoalExchangeRx n (s.pkgN Fld.lnlShoalSize) (s.partnerOf n) counts s.shoalHash) s = .next t ∧ (t.ext n).matched = true ∧
      (t.ext n).held = false ∧ (t.ext n).peer = BitVec.ofNat 2 (s.partnerOf n) ∧ (t.ext n).port.up = false

/-- Another size, number or payload holds it, is reported once, and the exchange is offered again a second later. -/
def Claims.ShoalsAndIslands.shoalExchangeRx_mismatch : Prop :=
  ∀ (s : State) (n : Fin 2) (size package : Nat) (counts : List (Nat × Nat)) (hash : List Byte), (size ≠ s.pkgN Fld.lnlShoalSize ∨ package ≠ s.partnerOf n ∨ hash ≠ s.shoalHash) → (s.ext n).stage = .framed → (s.ext n).port.up = false → s.alive s.linkBay = true →
    (s.ext n).mismatchTold = false →
    ∃ t, exec (.shoalExchangeRx n size package counts hash) s = .next t ∧ (t.ext n).held = true ∧ (t.ext n).matched = false ∧
      (t.ext n).retryAt = later (s.nowAt s.linkBay) (ofMs 1000) ∧ s.Told t s.linkBay 0x1213 [wd n.val]

/-- A held link offers its exchange again every second. -/
def Claims.ShoalsAndIslands.shoalMismatchRetry_done : Prop :=
  ∀ (s : State) (n : Fin 2), (s.ext n).held = true →
    ∃ t, exec (.shoalMismatchRetry n) s = .next t ∧ (t.ext n).retryAt = later (s.ext n).retryAt (ofMs 1000) ∧ (t.ext n).held = true ∧
      t.outbox = (s.offerExchange n).outbox

/-- A connected set without the headland becomes an island whose time holder is its lowest bay; no other bay enters it. -/
def Claims.ShoalsAndIslands.islandDeclared_cut : Prop :=
  ∀ (s : State) (b : BayNo), s.alive b = true → (0 : BayNo) ∉ s.component b → (s.bay b).lnl.island = none →
    ∃ t, exec (.islandDeclared b 0) s = .next t ∧
      (∀ c ∈ s.component b, (t.bay c).tbs.islanded = true ∧
        (t.bay c).lnl.island = some (s.isleOf (BitVec.ofNat 8 (maskOf (s.component b))) ((s.component b).headD b) s.packageNo 0)) ∧
      (∀ c : BayNo, c ∉ s.component b → (t.bay c).tbs.islanded = (s.bay c).tbs.islanded)

/-- An island that is joined again waits for the first boundary at least T_b + 1 us away. -/
def Claims.ShoalsAndIslands.rejoinMeasure_waits : Prop :=
  ∀ (s : State) (b : BayNo) (i : Isle) (o : Int), s.alive b = true → (s.bay b).lnl.island = some i → i.packages = 0 → s.alive 0 = true →
    (s.route i.holder 0).isSome = true → s.lnl.rejoin = none →
    ∃ t, exec (.rejoinMeasure b o) s = .next t ∧ t = s.modLnlPkg fun y => { y with rejoin := some { island := i, offset := s.isleOffset i o, boundary := s.boundaryFrom s.epochLead } }

/-- At the boundary its bays leave the island and take the headland's epoch; an offset that is not stepped is slewed out. -/
def Claims.ShoalsAndIslands.islandRejoin_done : Prop :=
  ∀ (s : State) (r : Rejoin), s.lnl.rejoin = some r → (s.reach r.boundary).stepAllowed = false → r.offset ≠ 0 →
    ∃ t, exec .islandRejoin s = .next t ∧ t.lnl.rejoin = none ∧
      (∀ b ∈ s.liveBays, r.island.bays.getLsbD b.val = true → (t.bay b).tbs.islanded = false ∧ (t.bay b).lnl.island = none ∧
        (t.bay b).tbs.removing = some (r.offset * 2 ^ 32) ∧ (t.bay b).tbs.epoch = ((s.reach r.boundary).bay 0).tbs.epoch ∧
        (t.bay b).tbs.tide = ((s.reach r.boundary).bay b).tbs.tide)

/-- Once the offset has been slewed out at TBS.SLEW_MAX the counter has left what was left of it behind. -/
def Claims.ShoalsAndIslands.rejoinOffsetRemoved_done : Prop :=
  ∀ (s : State) (b : BayNo) (o : Int), s.liveBays.filter (fun b => (s.bay b).tbs.removing.isSome) = [b] → (s.bay b).tbs.removing = some o →
    ∃ t, exec .rejoinOffsetRemoved s = .next t ∧ (t.bay b).tbs.removing = none ∧
      (t.bay b).tbs.tide = (((s.passTime (ceilDiv (o.natAbs * 1000000000000) (max 1 s.slewMax.toNat * 2 ^ 32))).bay b).tbs.tide -
        BitVec.ofInt 128 ((((s.passTime (ceilDiv (o.natAbs * 1000000000000) (max 1 s.slewMax.toNat * 2 ^ 32))).bay b).tbs.removing).getD 0))

/-- The shoal exchange, islands and their rejoin. -/
def Obligations.ShoalsAndIslands : Prop :=
  Claims.ShoalsAndIslands.shoalExchangeRx_match ∧
  Claims.ShoalsAndIslands.shoalExchangeRx_mismatch ∧
  Claims.ShoalsAndIslands.shoalMismatchRetry_done ∧
  Claims.ShoalsAndIslands.islandDeclared_cut ∧
  Claims.ShoalsAndIslands.rejoinMeasure_waits ∧
  Claims.ShoalsAndIslands.islandRejoin_done ∧
  Claims.ShoalsAndIslands.rejoinOffsetRemoved_done

/-- SEAL_LOG_FLUSH that succeeds writes the oldest buffered entry behind the entries in flash, the region header first when the
region is empty, and frees its slot. -/
def Claims.SealLogAndTamper.sealLogFlush_done : Prop :=
  ∀ (s : State) (e : LogEntry) (rest : List LogEntry), s.logWritable = true → s.keeper.island.buffer = e :: rest → s.keeper.island.lost = 0 →
    ∃ t, exec (.sealLogFlush true) s = .next t ∧ t.keeper.logCount = s.keeper.logCount + 1 ∧ t.keeper.island.buffer = rest ∧
      t.flash = (if s.keeper.logCount = 0 then s.flash.put (logBase s.flash) s.keeper.regionHeader else s.flash).put
        (logBase s.flash + 64 * (1 + s.keeper.logCount)) (wordsBytes e.words) ∧
      t.keeper.island.counter = s.keeper.island.counter ∧ t.keeper.fuses = s.keeper.fuses

/-- One that fails leaves everything as it was. -/
def Claims.SealLogAndTamper.sealLogFlush_error : Prop :=
  ∀ (s : State), ∃ t, exec (.sealLogFlush false) s = .next t ∧ t = s

/-- RTC_FOLLOW_WRITE while the servo is LOCKED with seconds not from the RTC and SEAL.RTC_FOLLOW is 1 writes the tide stamp into
the RTC and marks it valid: at once after the servo locked. -/
def Claims.SealLogAndTamper.rtcFollowWrite_done : Prop :=
  ∀ (s : State), s.alive 0 = true → s.tbs.servo.state = .locked → (s.bay 0).tbs.source ≠ .rtc → s.pkgN Fld.sealRtcFollow = 1 →
    s.tbs.servo.followed = none →
    ∃ t, exec .rtcFollowWrite s = .next t ∧ t.keeper.island.rtcSec = s.now.extractLsb' 64 32 ∧
      t.keeper.island.rtcSub = s.now.extractLsb' 49 15 ∧ t.keeper.island.rtcValid = true

/-- After that it does so 60 s after the last time. -/
def Claims.SealLogAndTamper.rtcFollowWrite_again : Prop :=
  ∀ (s : State) (a : Stamp), s.alive 0 = true → s.tbs.servo.state = .locked → (s.bay 0).tbs.source ≠ .rtc → s.pkgN Fld.sealRtcFollow = 1 →
    s.tbs.servo.followed = some a →
    ∃ t, exec .rtcFollowWrite s = .next t ∧ t.keeper.island.rtcValid = true ∧
      t.keeper.island.rtcSec = (s.reach (later a (ofMs 60000))).now.extractLsb' 64 32 ∧
      t.keeper.island.rtcSub = (s.reach (later a (ofMs 60000))).now.extractLsb' 49 15

/-- VBAT_BROWNOUT of a part that is OFF restarts the island with VBAT_LOST set and changes nothing else. -/
def Claims.SealLogAndTamper.vbatBrownout_done : Prop :=
  ∀ (s : State), s.pwr.state = .off →
    ∃ t, exec .vbatBrownout s = .next t ∧ t = s.modIsland fun _ => { Island.reset with vbatLost := true }

/-- TAMPER_SAMPLE keeps for each loop whether the sample is in the tamper state, and sets the loop's latch at the second such
sample in a row; a latch that is set stays. -/
def Claims.SealLogAndTamper.tamperSample_done : Prop :=
  ∀ (s : State) (openA openB : Bool),
    ∃ t, exec (.tamperSample openA openB) s = .next t ∧
      t.keeper.island.tampLast[0] = tamperState s.keeper.island.tampMode[0] openA ∧
      t.keeper.island.tampLast[1] = tamperState s.keeper.island.tampMode[1] openB ∧
      t.keeper.island.tampLatch[0] = (s.keeper.island.tampLatch[0] ||
        (tamperState s.keeper.island.tampMode[0] openA && s.keeper.island.tampLast[0])) ∧
      t.keeper.island.tampLatch[1] = (s.keeper.island.tampLatch[1] ||
        (tamperState s.keeper.island.tampMode[1] openB && s.keeper.island.tampLast[1]))

/-- SEAL_ROW_VERIFIED of a row under way adds the row with its hash; one that fails adds a row without a hash and makes no
entry. -/
def Claims.SealLogAndTamper.sealRowVerified_ok : Prop :=
  ∀ (s : State) (h : List Byte) (ok : Bool), s.keeper.rowPending = some h →
    ∃ t, exec (.sealRowVerified ok) s = .next t ∧ t.keeper.rowPending = none ∧
      t.keeper.fuses.rows = s.keeper.fuses.rows ++ [if ok = true then some h else none] ∧
      t.keeper.fuses.sign = s.keeper.fuses.sign ∧ t.keeper.fuses.mac = s.keeper.fuses.mac ∧
      (ok = false → t.keeper.island = s.keeper.island)

/-- The seal log in flash, the RTC, the tamper loops and the seal rows. -/
def Obligations.SealLogAndTamper : Prop :=
  Claims.SealLogAndTamper.sealLogFlush_done ∧
  Claims.SealLogAndTamper.sealLogFlush_error ∧
  Claims.SealLogAndTamper.rtcFollowWrite_done ∧
  Claims.SealLogAndTamper.rtcFollowWrite_again ∧
  Claims.SealLogAndTamper.vbatBrownout_done ∧
  Claims.SealLogAndTamper.tamperSample_done ∧
  Claims.SealLogAndTamper.sealRowVerified_ok

/-- PROVISION_SIGN_KEY into an empty slot, the fuse intact and a log slot free, stores the key of ARG8 to ARG23, unrevoked, and
ends with OK. -/
def Claims.ServiceCommands.provisionSignKey_done : Prop :=
  ∀ (s : State), s.svcReady = true → s.keeper.fuses.sign[s.keeper.argSlot].key = none → s.keeper.fuses.metrology = false →
    s.keeper.freeSlots ≠ 0 →
    ∃ t, exec .provisionSignKey s = .next t ∧
      t.keeper.fuses.sign = s.keeper.fuses.sign.set s.keeper.argSlot { s.keeper.fuses.sign[s.keeper.argSlot] with
        key := some (leNat (s.keeper.argBytes 8), leNat (s.keeper.argBytes 16)) } ∧
      t.keeper.fuses.mac = s.keeper.fuses.mac ∧ t.keeper.fuses.rows = s.keeper.fuses.rows ∧
      t.keeper.box.result = 0 ∧ t.keeper.box.busy = false

/-- Into a slot that holds a key it ends with SLOT_STATE and does nothing else. -/
def Claims.ServiceCommands.provisionSignKey_slot : Prop :=
  ∀ (s : State), s.svcReady = true → s.keeper.fuses.sign[s.keeper.argSlot].key.isSome = true →
    ∃ t, exec .provisionSignKey s = .next t ∧ t = s.svcDone 1 3

/-- PROVISION_MAC_KEY into an empty slot, the fuse intact and a log slot free, stores the key of ARG8 to ARG15 and ends with OK. -/
def Claims.ServiceCommands.provisionMacKey_done : Prop :=
  ∀ (s : State), s.svcReady = true → s.keeper.fuses.mac[s.keeper.argSlot] = none → s.keeper.fuses.metrology = false →
    s.keeper.freeSlots ≠ 0 →
    ∃ t, exec .provisionMacKey s = .next t ∧
      t.keeper.fuses.mac = s.keeper.fuses.mac.set s.keeper.argSlot (some (s.keeper.argBytes 8)) ∧
      t.keeper.fuses.sign = s.keeper.fuses.sign ∧ t.keeper.fuses.rows = s.keeper.fuses.rows ∧
      t.keeper.box.result = 0 ∧ t.keeper.box.busy = false

/-- Once the metrology-mode fuse is blown it ends with NOT_PERMITTED and does nothing else. -/
def Claims.ServiceCommands.provisionMacKey_fuse : Prop :=
  ∀ (s : State), s.svcReady = true → s.keeper.fuses.metrology = true →
    ∃ t, exec .provisionMacKey s = .next t ∧ t = s.svcDone 2 2

/-- REVOKE of a provisioned, unrevoked slot that is not the last one of a part whose fuse is blown, a log slot free, revokes it
and ends with OK where the command's signature verifies, and ends with BAD_SIGNATURE and does nothing else where not. -/
def Claims.ServiceCommands.revoke_done : Prop :=
  ∀ (s : State), s.svcReady = true → s.keeper.fuses.sign[s.keeper.argSlot].key.isSome = true →
    s.keeper.fuses.sign[s.keeper.argSlot].revoked = false → (s.keeper.fuses.metrology = true → 1 < s.keeper.fuses.unrevoked) →
    s.keeper.freeSlots ≠ 0 →
    ∃ t, exec .revoke s = .next t ∧
      (s.keeper.cmdSigned 3 = true →
        t.keeper.fuses.sign = s.keeper.fuses.sign.set s.keeper.argSlot { s.keeper.fuses.sign[s.keeper.argSlot] with revoked := true } ∧
        t.keeper.fuses.rows = s.keeper.fuses.rows ∧ t.keeper.box.result = 0 ∧ t.keeper.box.busy = false) ∧
      (s.keeper.cmdSigned 3 = false → t = s.svcDone 3 1)

/-- TAMPER_CLEAR of a loop whose last two samples are not both in the tamper state, a log slot free, clears its latch and ends
with OK. -/
def Claims.ServiceCommands.tamperClear_done : Prop :=
  ∀ (s : State) (l : Fin 2), s.svcReady = true → l.val = s.keeper.box.args[0].toNat % 2 →
    (s.keeper.island.tampLast[l] = false ∨ s.keeper.island.tampPrev[l] = false) → s.keeper.freeSlots ≠ 0 →
    ∃ t, exec .tamperClear s = .next t ∧ t.keeper.island.tampLatch = s.keeper.island.tampLatch.set l false ∧
      t.keeper.box.result = 0 ∧ t.keeper.box.busy = false

/-- LOG_VERIFY makes the mailbox busy until its end and changes nothing else. -/
def Claims.ServiceCommands.logVerify_starts : Prop :=
  ∀ (s : State), s.svcReady = true →
    ∃ t, exec .logVerify s = .next t ∧
      t = s.modSeal fun k => { k with verifying := true, verifyDone := false, box := { k.box with busy := true } }

/-- LOG_VERIFY_DONE sets the result of the walk over the chain and of the comparisons of R646, and frees the mailbox. -/
def Claims.ServiceCommands.logVerifyDone_done : Prop :=
  ∀ (s : State), s.keeper.verifying = true → s.alive 0 = true →
    ∃ t, exec .logVerifyDone s = .next t ∧ t.keeper.verifying = false ∧ t.keeper.verifyDone = true ∧
      t.keeper.verifyResult = (match chainWalk s.logBytes s.keeper.logFirst s.keeper.logCount 0 s.keeper.logPrior with
        | .error (c, _) => c
        | .ok tail => s.tailCheck tail) ∧
      t.keeper.box.busy = false ∧ t.keeper.island = s.keeper.island ∧ t.flash = s.flash

/-- LOG_ARCHIVE with nothing buffered, entries in flash and ARG1 their last number, a log slot free, begins a new region at the
next number where the signature verifies, and ends with BAD_SIGNATURE and does nothing else where not. -/
def Claims.ServiceCommands.logArchive_done : Prop :=
  ∀ (s : State), s.svcReady = true → s.keeper.island.buffer = [] → s.keeper.logCount ≠ 0 →
    s.keeper.box.args[1] = s.keeper.flashNext - 1 → s.keeper.freeSlots ≠ 0 →
    ∃ t, exec (.logArchive true) s = .next t ∧
      (s.keeper.cmdSigned 6 = true →
        t.keeper.logFirst = s.keeper.island.counter ∧ t.keeper.logCount = 0 ∧
        t.keeper.logPrior = (s.logBytes (s.keeper.logCount - 1)).drop 48 ∧ t.keeper.logArchives = s.keeper.logArchives + 1 ∧
        t.flash = s.flash.wipe (logBase s.flash) 0x100000 ∧ t.keeper.box.result = 0) ∧
      (s.keeper.cmdSigned 6 = false → t = s.svcDone 6 1)

/-- The commands of the service mailbox. -/
def Obligations.ServiceCommands : Prop :=
  Claims.ServiceCommands.provisionSignKey_done ∧
  Claims.ServiceCommands.provisionSignKey_slot ∧
  Claims.ServiceCommands.provisionMacKey_done ∧
  Claims.ServiceCommands.provisionMacKey_fuse ∧
  Claims.ServiceCommands.revoke_done ∧
  Claims.ServiceCommands.tamperClear_done ∧
  Claims.ServiceCommands.logVerify_starts ∧
  Claims.ServiceCommands.logVerifyDone_done ∧
  Claims.ServiceCommands.logArchive_done

/-- While the metrology-mode fuse is blown and no more than one slot is provisioned and unrevoked, REVOKE of that slot, when the
seal keeper takes it, ends with NOT_PERMITTED; the fuses and the seal log stay as they were. -/
def Claims.LastSigningKey.revoke_last : Prop :=
  ∀ (s : State), s.svcReady = true → s.keeper.fuses.metrology = true → s.keeper.fuses.unrevoked ≤ 1 →
    s.keeper.fuses.sign[s.keeper.argSlot].key.isSome = true → s.keeper.fuses.sign[s.keeper.argSlot].revoked = false →
    ∃ t, exec .revoke s = .next t ∧ t = s.svcDone 3 2 ∧ t.keeper.fuses = s.keeper.fuses ∧
      t.keeper.island = s.keeper.island ∧ t.flash = s.flash

/-- The last signing key of a metrology part cannot be revoked. -/
def Obligations.LastSigningKey : Prop :=
  Claims.LastSigningKey.revoke_last

/-- Outside a sealed slot, a conversion that completes its channel's average enters the result register, whose update count
grows, and the scan moves on. -/
def Claims.HousekeepingConverters.hkcScanConversion_full : Prop :=
  ∀ (s : State) (b : BayNo) (x : Fin 2) (code : BitVec 16) (c : Fin 25), s.hkcOn b = true → (s.bay b).hkc.conv[x].urgent = none → s.scanChan b x = c.val → (s.bay b).hkc.conv[x].atSealed = false →
    2 ^ s.hkcN Fld.hkcChAvgLog2 b c.val ≤ (s.bay b).hkc.conv[x].accs[c].count + 1 →
    ∃ t, exec (.hkcScanConversion b x code) s = .next t ∧ (t.bay b).hkc.conv[x].accs[c] = .reset ∧
      (t.bay b).hkc.conv[x].results[c].value = BitVec.ofNat 24 (((s.bay b).hkc.conv[x].accs[c].sum + s.useCode b x c.val code.toNat) / 2 ^ s.hkcN Fld.hkcChShift b c.val) ∧
      (t.bay b).hkc.conv[x].results[c].update = (s.bay b).hkc.conv[x].results[c].update + 1 ∧
      (t.bay b).hkc.conv[x].slot = (if (s.bay b).hkc.conv[x].slot + 1 ≥ s.scanLen b x then 0 else (s.bay b).hkc.conv[x].slot + 1)

/-- One that does not is added to the channel's accumulator. -/
def Claims.HousekeepingConverters.hkcScanConversion_adds : Prop :=
  ∀ (s : State) (b : BayNo) (x : Fin 2) (code : BitVec 16) (c : Fin 25), s.hkcOn b = true → (s.bay b).hkc.conv[x].urgent = none → s.scanChan b x = c.val → (s.bay b).hkc.conv[x].atSealed = false →
    (s.bay b).hkc.conv[x].accs[c].count + 1 < 2 ^ s.hkcN Fld.hkcChAvgLog2 b c.val →
    ∃ t, exec (.hkcScanConversion b x code) s = .next t ∧
      (t.bay b).hkc.conv[x].accs[c] = { sum := (s.bay b).hkc.conv[x].accs[c].sum + s.useCode b x c.val code.toNat, count := (s.bay b).hkc.conv[x].accs[c].count + 1 } ∧
      (t.bay b).hkc.conv[x].results = (s.bay b).hkc.conv[x].results

/-- In its sealed slot, or displaced from it, a sealed conversion is added to its privileged channel's own accumulator and moves
the rotation on; the scan's results keep. -/
def Claims.HousekeepingConverters.hkcSealedConversion_adds : Prop :=
  ∀ (s : State) (b : BayNo) (x : Fin 2) (code : BitVec 16), s.hkcOn b = true → (s.bay b).hkc.conv[x].urgent = none →
    (s.bay b).hkc.conv[x].sealedAccs[(s.bay b).hkc.conv[x].turn].count < 63 → (s.bay b).hkc.conv[x].atSealed = true →
    ∃ t, exec (.hkcSealedConversion b x code) s = .next t ∧ (t.bay b).hkc.conv[x].turn = (s.bay b).hkc.conv[x].turn + 1 ∧
      (t.bay b).hkc.conv[x].sealedAccs[(s.bay b).hkc.conv[x].turn].count = (s.bay b).hkc.conv[x].sealedAccs[(s.bay b).hkc.conv[x].turn].count + 1 ∧
      (t.bay b).hkc.conv[x].sealedAccs[(s.bay b).hkc.conv[x].turn].sum = (s.bay b).hkc.conv[x].sealedAccs[(s.bay b).hkc.conv[x].turn].sum +
        corrected code.toNat (s.hkcCorr b x (s.bay b).hkc.conv[x].turn) ∧
      (t.bay b).hkc.conv[x].results = (s.bay b).hkc.conv[x].results

/-- An urgent request that a free converter takes starts at once. -/
def Claims.HousekeepingConverters.hkcUrgentRequest_starts : Prop :=
  ∀ (s : State) (b : BayNo) (c : Fin 25), s.hkcOn b = true → urgentAllowed 0 c.val = true → (s.bay b).hkc.conv[(0 : Fin 2)].waitCal = none →
    (s.bay b).hkc.conv[(0 : Fin 2)].urgent = none →
    ∃ t, exec (.hkcUrgentRequest b 0 c) s = .next t ∧ (t.bay b).hkc.conv[(0 : Fin 2)].urgent = some c.val ∧ (t.bay b).hkc.conv[(0 : Fin 2)].waitCal = none

/-- A second waiting request for another channel is refused, counted, and reported once an epoch. -/
def Claims.HousekeepingConverters.hkcUrgentRequest_refused : Prop :=
  ∀ (s : State) (b : BayNo) (c : Fin 25) (d : Nat), s.hkcOn b = true → urgentAllowed 0 c.val = true → (s.bay b).hkc.conv[(0 : Fin 2)].waitCal = some d → d ≠ c.val →
    (s.bay b).hkc.conv[(0 : Fin 2)].refuseTold = false →
    ∃ t, exec (.hkcUrgentRequest b 0 c) s = .next t ∧ (t.bay b).hkc.conv[(0 : Fin 2)].refused = (s.bay b).hkc.conv[(0 : Fin 2)].refused + 1 ∧
      (t.bay b).hkc.conv[(0 : Fin 2)].waitCal = some d ∧ s.Told t b 0x1503 [wd 0]

/-- Its code is delivered with its channel; a waiting request follows. -/
def Claims.HousekeepingConverters.hkcUrgentDone_done : Prop :=
  ∀ (s : State) (b : BayNo) (code : BitVec 16) (c : Nat), s.hkcOn b = true → (s.bay b).hkc.conv[(0 : Fin 2)].urgent = some c →
    ∃ t, exec (.hkcUrgentDone b 0 code) s = .next t ∧ (t.bay b).hkc.conv[(0 : Fin 2)].urgentCode = BitVec.ofNat 16 (s.useCode b 0 c code.toNat) ∧
      (t.bay b).hkc.conv[(0 : Fin 2)].urgentChan = c ∧ (t.bay b).hkc.conv[(0 : Fin 2)].urgentCount = (s.bay b).hkc.conv[(0 : Fin 2)].urgentCount + 1 ∧
      ((s.bay b).hkc.conv[(0 : Fin 2)].waitCal = none → (s.bay b).hkc.conv[(0 : Fin 2)].waitOvl = none → (t.bay b).hkc.conv[(0 : Fin 2)].urgent = none)

/-- At the end of an interval with sealed conversions T_fe is their mean and the interval starts anew. -/
def Claims.HousekeepingConverters.calTempInterval_done : Prop :=
  ∀ (s : State) (b : BayNo) (i : Fin 2), s.calOn b = true → s.quiet = false → (s.bay b).hkc.fe[i].count ≠ 0 →
    ∃ t, exec (.calTempInterval b i) s = .next t ∧ (t.calIn b i).tfe = feTemp (s.bay b).hkc.fe[i] ∧ (t.bay b).hkc.fe[i] = .reset ∧
      (t.calIn b i).tcal = (s.calIn b i).tcal

/-- Scan, sealed and urgent conversions, and T_fe. -/
def Obligations.HousekeepingConverters : Prop :=
  Claims.HousekeepingConverters.hkcScanConversion_full ∧
  Claims.HousekeepingConverters.hkcScanConversion_adds ∧
  Claims.HousekeepingConverters.hkcSealedConversion_adds ∧
  Claims.HousekeepingConverters.hkcUrgentRequest_starts ∧
  Claims.HousekeepingConverters.hkcUrgentRequest_refused ∧
  Claims.HousekeepingConverters.hkcUrgentDone_done ∧
  Claims.HousekeepingConverters.calTempInterval_done

/-- CAL.MAX_INTERVAL seconds after its last run an input with bit 1 of CAL.AUTO is due with cause 2. -/
def Claims.BackgroundCalibration.calIntervalDue_done : Prop :=
  ∀ (s : State) (b : BayNo) (i : Fin 2) (e : Stamp), (s.calIn b i).lastEnd = some e → s.calOn b = true → (s.calIn b i).idle = true →
    s.fldN Fld.calMaxInterval b ≠ 0 → (s.fldN Fld.calAuto b).testBit 1 = true →
    ∃ t, exec (.calIntervalDue b i) s = .next t ∧ (t.calIn b i).due.map (·.cause) = some 2 ∧ (t.calIn b i).run = none

/-- The end of a back-off makes it due with cause 4. -/
def Claims.BackgroundCalibration.calBackoffEnd_done : Prop :=
  ∀ (s : State) (b : BayNo) (i : Fin 2) (e : Stamp), (s.calIn b i).backoff = some e → s.calOn b = true →
    ∃ t, exec (.calBackoffEnd b i) s = .next t ∧ (t.calIn b i).due.map (·.cause) = some 4 ∧ (t.calIn b i).backoff = none

/-- A due input that is neither suspended nor deferred starts its run in its turn, with its comb switch on the comb. -/
def Claims.BackgroundCalibration.calRunStart_starts : Prop :=
  ∀ (s : State) (b : BayNo) (i : Fin 2) (d : CalDue), (s.calIn b i).due = some d → s.calOn b = true → s.calSuspended b i = false → s.calDeferred b i = false →
    s.calTurn b i = true → s.restartAsked b = false →
    ∃ t, exec (.calRunStart b i) s = .next t ∧ (t.calIn b i).due = none ∧ (t.bay b).afe.inputs[i].combSel = true ∧
      (t.calIn b i).run = some { cause := d.cause, forced := false, wait := toNs (s.nowAt b - d.since).toNat / 1000000, start := s.nowAt b, tL := s.planeStamp b (rfPort i) (s.nowAt b), passes := [], outcome := none, pair := none, combDone := false, combPass := false, again := false }

/-- MAX_DEFER ms after it became due a run that is still deferred is forced. -/
def Claims.BackgroundCalibration.calForced_starts : Prop :=
  ∀ (s : State) (b : BayNo) (i : Fin 2) (d : CalDue), (s.calIn b i).due = some d → d.told = true → s.calOn b = true →
    (s.reach (later d.since (ofMs (s.fldN Fld.calMaxDefer b)))).calSuspended b i = false →
    (s.reach (later d.since (ofMs (s.fldN Fld.calMaxDefer b)))).calDeferred b i = true → (s.calIn b (otherInput i)).run = none → s.restartAsked b = false →
    ∃ t, exec (.calForced b i) s = .next t ∧ (t.calIn b i).due = none ∧ (t.calIn b i).run.map (·.forced) = some true ∧
      (t.calIn b i).run.map (·.cause) = some d.cause

/-- The first pass of a run decides nothing. -/
def Claims.BackgroundCalibration.calPassDone_first : Prop :=
  ∀ (s : State) (b : BayNo) (i : Fin 2) (r : CalRun) (p : CalPass), (s.calIn b i).run = some r → r.outcome = none → r.passes = [] → p.table.length = s.calTones →
    ∃ t, exec (.calPassDone b i p) s = .next t ∧ (t.calIn b i).run = some { r with passes := [p] }

/-- A pass with which the agreement test decides fixes the run's outcome and pair. -/
def Claims.BackgroundCalibration.calPassDone_decides : Prop :=
  ∀ (s : State) (b : BayNo) (i : Fin 2) (r : CalRun) (p : CalPass) (o : CalOutcome) (q : CalPair), (s.calIn b i).run = some r → r.outcome = none → r.passes.length < 3 → p.table.length = s.calTones →
    (s.reach (later r.start (ofUs (passEnd (r.passes.length + 1))))).calDecide b (r.passes ++ [p]) = some (o, q) →
    ∃ t, exec (.calPassDone b i p) s = .next t ∧ (t.calIn b i).run = some { r with passes := r.passes ++ [p], outcome := some o, pair := some q }

/-- COMB_CHECK leaves its results and returns the switch to the pin: COMB_FAIL says whether it failed, AFE_COMB_DET is the
detector's deviation, and the run goes on to its end either way. -/
def Claims.BackgroundCalibration.combCheckDone_done : Prop :=
  ∀ (s : State) (b : BayNo) (i : Fin 2) (r : CalRun) (oc : CalOutcome) (o : CombObs), (s.calIn b i).run = some r → r.outcome = some oc → r.combDone = false →
    o.tones.length = s.calTones →
    ∃ t, exec (.combCheckDone b i o) s = .next t ∧
      (t.calIn b i).run = some { r with combDone := true, combPass := (s.combCheck b i ((s.calIn b i).driftAfter oc r.passes r.pair) o).good } ∧
      (t.bay b).afe.inputs[i].combSel = false ∧
      (t.bay b).afe.inputs[i].combFail = !(s.combCheck b i ((s.calIn b i).driftAfter oc r.passes r.pair) o).good ∧
      (t.bay b).afe.combDet = (s.combCheck b i ((s.calIn b i).driftAfter oc r.passes r.pair) o).det

/-- A tone more than 10 dB below its expected level fails the check. -/
def Claims.BackgroundCalibration.combCheck_low : Prop :=
  ∀ (s : State) (b : BayNo) (i : Fin 2) (drift : List Int) (o : CombObs) (d : Int), d ∈ combDevs b i drift o.tones → d < -10000000 →
    (s.combCheck b i drift o).good = false

/-- An accepted run ends with its calibration in force, no failure counted and no back-off. -/
def Claims.BackgroundCalibration.calRunEnd_accepted : Prop :=
  ∀ (s : State) (b : BayNo) (i : Fin 2) (r : CalRun), (s.calIn b i).run = some r → r.outcome = some .accepted → r.combDone = true → r.again = false →
    ∃ t, exec (.calRunEnd b i) s = .next t ∧ (t.calIn b i).run = none ∧ (t.calIn b i).failures = 0 ∧ (t.calIn b i).backoff = none ∧
      (t.calIn b i).foreground = true ∧ (t.calIn b i).drift = (r.pair.map (pairTable r.passes)).getD [] ∧ (t.calIn b i).accepted = (s.calIn b i).accepted + 1 ∧
      (t.calIn b i).runNo = (s.calIn b i).runNo + 1

/-- A run whose passes did not agree keeps the calibration in force, counts the failure and begins a back-off. -/
def Claims.BackgroundCalibration.calRunEnd_kept : Prop :=
  ∀ (s : State) (b : BayNo) (i : Fin 2) (r : CalRun), (s.calIn b i).run = some r → r.outcome = some .kept → r.combDone = true → r.again = false →
    ∃ t, exec (.calRunEnd b i) s = .next t ∧ (t.calIn b i).run = none ∧ (t.calIn b i).failures = (s.calIn b i).failures + 1 ∧
      (t.calIn b i).backoff.isSome = true ∧ (t.calIn b i).drift = (s.calIn b i).drift ∧ (t.calIn b i).foreground = (s.calIn b i).foreground ∧
      (t.calIn b i).failed = (s.calIn b i).failed + 1

/-- The sequencer of an input: due, start, passes, comb check and end. -/
def Obligations.BackgroundCalibration : Prop :=
  Claims.BackgroundCalibration.calIntervalDue_done ∧
  Claims.BackgroundCalibration.calBackoffEnd_done ∧
  Claims.BackgroundCalibration.calRunStart_starts ∧
  Claims.BackgroundCalibration.calForced_starts ∧
  Claims.BackgroundCalibration.calPassDone_first ∧
  Claims.BackgroundCalibration.calPassDone_decides ∧
  Claims.BackgroundCalibration.combCheckDone_done ∧
  Claims.BackgroundCalibration.combCheck_low ∧
  Claims.BackgroundCalibration.calRunEnd_accepted ∧
  Claims.BackgroundCalibration.calRunEnd_kept

/-- While the clear pin is asserted an enabled channel of a bay that is not lost drives its clear code. -/
def Claims.AuxiliaryDacs.auxClrAssert_clears : Prop :=
  ∀ (s : State) (b : BayNo) (n : Fin 4), s.pwr.state ≠ .off → s.pinned 0 = true → (s.bay b).aux.dacs[n].on = true → (s.bay b).aux.held = none →
    ∃ t, exec .auxClrAssert s = .next t ∧ t.clrPin = true ∧ t.auxOut b n = (s.bay b).aux.dacs[n].clear

/-- Released, a channel without another clear condition drives its working code again. -/
def Claims.AuxiliaryDacs.auxClrRelease_restores : Prop :=
  ∀ (s : State) (b : BayNo) (n : Fin 4), s.pwr.state ≠ .off → s.pinned 0 = true → (s.bay b).aux.dacs[n].on = true → (s.bay b).aux.held = none →
    (s.bay b).aux.loaded = true → s.tampered = false → (s.bay b).clk.gated = false →
    ∃ t, exec .auxClrRelease s = .next t ∧ t.clrPin = false ∧ t.auxOut b n = (s.bay b).aux.dacs[n].code

/-- A written code is the channel's working code; its clear code and the other channels keep. -/
def Claims.AuxiliaryDacs.auxCodeWrite_done : Prop :=
  ∀ (s : State) (b : BayNo) (n : Fin 4) (v : Word) (dma : Bool), s.alive b = true → s.initHeld = false →
    ∃ t, exec (.auxCodeWrite b n v dma) s = .next t ∧ (t.bay b).aux.dacs[n].code = v.extractLsb' 0 16 ∧
      (t.bay b).aux.dacs[n].clear = (s.bay b).aux.dacs[n].clear ∧ (∀ m : Fin 4, m ≠ n → (t.bay b).aux.dacs[m] = (s.bay b).aux.dacs[m])

/-- Before the end of start-up phase 7 the write is discarded. -/
def Claims.AuxiliaryDacs.auxCodeWrite_early : Prop :=
  ∀ (s : State) (b : BayNo) (n : Fin 4) (v : Word), s.alive b = true → s.initHeld = true →
    ∃ t, exec (.auxCodeWrite b n v false) s = .next t ∧ t = s.discarded (bayAddr b (0x01600010 + 4 * n.val)) 0 ∧ (t.bay b).aux = (s.bay b).aux

/-- A compliance fault of a driving output is held and reported once an epoch. -/
def Claims.AuxiliaryDacs.auxComplianceFault_told : Prop :=
  ∀ (s : State) (b : BayNo) (i : Fin 2), s.auxDrives b i = true → (s.bay b).aux.compliance[i] = false → (s.bay b).aux.complianceTold[i] = false →
    ∃ t, exec (.auxComplianceFault b i) s = .next t ∧ (t.bay b).aux.compliance[i] = true ∧ (t.bay b).aux.complianceTold[i] = true

/-- It ends when the pin complies again. -/
def Claims.AuxiliaryDacs.auxComplianceClear_done : Prop :=
  ∀ (s : State) (b : BayNo) (i : Fin 2), s.alive b = true →
    ∃ t, exec (.auxComplianceClear b i) s = .next t ∧ (t.bay b).aux.compliance[i] = false ∧ (t.bay b).aux.dacs = (s.bay b).aux.dacs

/-- The clear pin, working codes and compliance of the auxiliary DACs. -/
def Obligations.AuxiliaryDacs : Prop :=
  Claims.AuxiliaryDacs.auxClrAssert_clears ∧
  Claims.AuxiliaryDacs.auxClrRelease_restores ∧
  Claims.AuxiliaryDacs.auxCodeWrite_done ∧
  Claims.AuxiliaryDacs.auxCodeWrite_early ∧
  Claims.AuxiliaryDacs.auxComplianceFault_told ∧
  Claims.AuxiliaryDacs.auxComplianceClear_done

/-- MON_SAMPLE brings a latency to a unit that watches one and is ready: it enters the unit at once. -/
def Claims.MonitorsAndInjectors.monSample_latency : Prop :=
  ∀ (s : State) (b : BayNo) (m : Fin 16) (v : Int) (inj : Bool), s.monReady b m = true → (s.mon b m).conf.quantity = 0 →
    ∃ t, exec (.monSample b m v inj) s = .next t ∧ t = s.monTake b m (max 0 v) inj (s.nowAt b)

/-- A unit that watches a queue's level, a lane's errors, an ADC's peak or a drive's temperature samples at the next whole
period of the tide counter. -/
def Claims.MonitorsAndInjectors.monSample_periodic : Prop :=
  ∀ (s : State) (b : BayNo) (m : Fin 16) (v : Int) (inj : Bool), s.monReady b m = true →
    ((s.mon b m).conf.quantity = 1 ∨ (s.mon b m).conf.quantity = 2 ∨ (s.mon b m).conf.quantity = 3 ∨ (s.mon b m).conf.quantity = 6) →
    ∃ t, exec (.monSample b m v inj) s = .next t ∧
      t = (s.reach (s.monMoment b m)).monTake b m (max 0 (min 2048 v)) false (s.monMoment b m)

/-- A new result of an HKC channel, or a dead time, is sampled by every ready unit that watches it, at that moment. -/
def Claims.MonitorsAndInjectors.monFeed_takes : Prop :=
  ∀ (s : State) (b : BayNo) (m : Fin 16) (k o : Nat) (a : Stamp), (k = 4 ∨ k = 5) → s.monReady b m = true → (s.mon b m).conf.quantity = k →
    (s.mon b m).conf.object = o → (s.monFeed b k o a).mon b m = (s.monTake b m 0 false a).mon b m

/-- A unit that is not ready, or that watches something else, stays as it was. -/
def Claims.MonitorsAndInjectors.monFeed_others : Prop :=
  ∀ (s : State) (b : BayNo) (m : Fin 16) (k o : Nat) (a : Stamp), (s.monReady b m = false ∨ (s.mon b m).conf.quantity ≠ k ∨ (s.mon b m).conf.object ≠ o) →
    (s.monFeed b k o a).mon b m = s.mon b m

/-- Taking a sample counts it, bounds the extremes and the sum, and raises its bin. -/
def Claims.MonitorsAndInjectors.monTake_counts : Prop :=
  ∀ (u : MonUnit) (v : Int), (u.take v false).samples = bump32 u.samples ∧ (u.take v false).low = min u.low v ∧ (u.take v false).high = max u.high v ∧
    Sparse.get 0 (u.take v false).bins (u.conf.bin v).1 = bump32 (Sparse.get 0 u.bins (u.conf.bin v).1)

/-- MON_SNAP of a unit that emits on demand ends its interval with a record and begins the next at zero. -/
def Claims.MonitorsAndInjectors.monSnap_one : Prop :=
  ∀ (s : State) (b : BayNo), s.alive b = true → (s.mon b 0).on = true → 2 ≤ (s.mon b 0).conf.emit → (s.mon b 0).conf.cumulative = false →
    ∃ t, exec (.monSnap b 1) s = .next t ∧ t = s.monEmit b 0 1 (s.nowAt b) ∧ (t.mon b 0).samples = 0 ∧ (t.mon b 0).start = s.nowAt b

/-- A read of MON_FAULT_LONGEST clears it and nothing else. -/
def Claims.MonitorsAndInjectors.faultLongestRead_done : Prop :=
  ∀ (s : State), s.alive 0 = true → ∃ t, exec .faultLongestRead s = .next t ∧ t = s.modFaults fun y => { y with longest := 0 }

/-- 0xD1 written to INJ_KILL stops every injector: neither streams nor links hold anything any more. -/
def Claims.MonitorsAndInjectors.injKill_done : Prop :=
  ∀ (s : State), s.alive 0 = true → ∃ t, exec (.injKill 0xD1) s = .next t ∧ t.inj.killed = true ∧ t = s.killInjectors

/-- Any other value does nothing. -/
def Claims.MonitorsAndInjectors.injKill_other : Prop :=
  ∀ (s : State) (v : Word), v ≠ 0xD1 → ∃ t, exec (.injKill v) s = .next t ∧ t = s

/-- The first record that a stream's injector holds for a time is sent then. -/
def Claims.MonitorsAndInjectors.ethInjDelayExpire_sent : Prop :=
  ∀ (s : State) (n : Fin 64) (h : Held) (rest : List Held) (d : Stamp), s.inj.streams[n].held = h :: rest → h.due = some d → s.streamReady n = true →
    ∃ t, exec (.ethInjDelayExpire n) s = .next t ∧
      t = ((s.reach d).modInj n fun x => { x with held := x.held.erase h }).sendHeld n [h.packet]

/-- Monitor samples and snapshots, fault registers and injectors. -/
def Obligations.MonitorsAndInjectors : Prop :=
  Claims.MonitorsAndInjectors.monSample_latency ∧
  Claims.MonitorsAndInjectors.monSample_periodic ∧
  Claims.MonitorsAndInjectors.monFeed_takes ∧
  Claims.MonitorsAndInjectors.monFeed_others ∧
  Claims.MonitorsAndInjectors.monTake_counts ∧
  Claims.MonitorsAndInjectors.monSnap_one ∧
  Claims.MonitorsAndInjectors.faultLongestRead_done ∧
  Claims.MonitorsAndInjectors.injKill_done ∧
  Claims.MonitorsAndInjectors.injKill_other ∧
  Claims.MonitorsAndInjectors.ethInjDelayExpire_sent

/-- With bit 0 of LIMIT_EN set, a sample above HIGH raises EV_MON_LIMIT with the unit, the sample and its stamp, when the unit
has not raised it in this epoch. -/
def Claims.MonitorLimits.monTake_high : Prop :=
  ∀ (s : State) (b : BayNo) (m : Fin 16) (v : Int) (inj : Bool) (a : Stamp),
    (s.fldN Fld.monLimitEn b m.val).testBit 0 = true → s.monValue b m v > s.fld Fld.monHigh b m.val → (s.mon b m).told = false →
    ((s.monTake b m v inj a).mon b m).told = true ∧
      s.Told (s.monTake b m v inj a) b 0x1801 ([wd m.val, Word.ofSigned (s.monValue b m v)] ++ stampWords a)

/-- With bit 1 set, so does a sample below LOW. -/
def Claims.MonitorLimits.monTake_low : Prop :=
  ∀ (s : State) (b : BayNo) (m : Fin 16) (v : Int) (inj : Bool) (a : Stamp),
    (s.fldN Fld.monLimitEn b m.val).testBit 1 = true → s.monValue b m v < s.fld Fld.monLow b m.val → (s.mon b m).told = false →
    ((s.monTake b m v inj a).mon b m).told = true ∧
      s.Told (s.monTake b m v inj a) b 0x1801 ([wd m.val, Word.ofSigned (s.monValue b m v)] ++ stampWords a)

/-- A sample that passes no enabled limit raises none, and neither does one of a unit that has raised it in this epoch; the mark
stays. -/
def Claims.MonitorLimits.monTake_within : Prop :=
  ∀ (s : State) (b : BayNo) (m : Fin 16) (v : Int) (inj : Bool) (a : Stamp),
    ((s.mon b m).told = true ∨ ¬((s.fldN Fld.monLimitEn b m.val).testBit 0 = true ∧ s.monValue b m v > s.fld Fld.monHigh b m.val) ∧
      ¬((s.fldN Fld.monLimitEn b m.val).testBit 1 = true ∧ s.monValue b m v < s.fld Fld.monLow b m.val)) →
    (s.monTake b m v inj a).img.events = s.img.events ∧ (s.monTake b m v inj a).outbox = s.outbox ∧
      ((s.monTake b m v inj a).mon b m).told = (s.mon b m).told

/-- The mark is cleared for the next epoch at its boundary. -/
def Claims.MonitorLimits.monSample_epoch : Prop :=
  ∀ (s : State) (b : BayNo) (m : Fin 16) (e : Stamp), ((s.monBoundary b m e).mon b m).told = false

/-- Whatever the limits, the sample enters the unit's accumulators and bins as it is. -/
def Claims.MonitorLimits.monTake_unchanged : Prop :=
  ∀ (s : State) (b : BayNo) (m : Fin 16) (v : Int) (inj : Bool) (a : Stamp),
    ((s.monTake b m v inj a).mon b m).bins = ((s.mon b m).take (s.monValue b m v) inj).bins ∧
      ((s.monTake b m v inj a).mon b m).last = s.monValue b m v ∧
      ((s.monTake b m v inj a).mon b m).sum = ((s.mon b m).take (s.monValue b m v) inj).sum ∧
      ((s.monTake b m v inj a).mon b m).samples = bump32 (s.mon b m).samples

/-- EV_MON_LIMIT: on which samples, once an epoch, and that a limit changes no sample and no bin. -/
def Obligations.MonitorLimits : Prop :=
  Claims.MonitorLimits.monTake_high ∧
  Claims.MonitorLimits.monTake_low ∧
  Claims.MonitorLimits.monTake_within ∧
  Claims.MonitorLimits.monSample_epoch ∧
  Claims.MonitorLimits.monTake_unchanged

/-- A request for WATCH that no cause refuses waits for the first boundary at least T_b + 1 us away. -/
def Claims.EntryToLowPower.pwrReqWatch_accepted : Prop :=
  ∀ (s : State) (svc : Bool), s.pwrCtrl svc = true → s.pwrRefusal true = none →
    ∃ t, exec (.pwrReqWatch svc) s = .next t ∧ t.pwr = { s.pwr with phase := .requested .watch (s.boundaryFrom s.epochLead) } ∧ t.bays = s.bays ∧ t.img = s.img

/-- One that a cause refuses is counted and reported with it. -/
def Claims.EntryToLowPower.pwrReqWatch_refused : Prop :=
  ∀ (s : State) (svc : Bool) (c : Nat), s.pwrCtrl svc = true → s.pwrRefusal true = some c →
    ∃ t, exec (.pwrReqWatch svc) s = .next t ∧ t = (s.modPwr fun p => { p with refusals := p.refusals + 1 }).event 0 0x1702 [wd c]

/-- So does one for STANDBY. -/
def Claims.EntryToLowPower.pwrReqStandby_accepted : Prop :=
  ∀ (s : State) (svc : Bool), s.pwrCtrl svc = true → s.pwrRefusal false = none →
    ∃ t, exec (.pwrReqStandby svc) s = .next t ∧ t.pwr = { s.pwr with phase := .requested .standby (s.boundaryFrom s.epochLead) } ∧ t.bays = s.bays ∧ t.img = s.img

/-- A bay that records refuses a request of a steady package in RUN without an arm cycle, with cause 2. -/
def Claims.EntryToLowPower.pwrRefusal_recording : Prop :=
  ∀ (s : State) (b : BayNo) (watch : Bool), s.img.state = .run → s.pwr.state = .run → s.pwr.phase = .steady → s.leads = true → s.anyArmCycle = false →
    s.alive b = true → (s.recd b).state = .recording → s.pwrRefusal watch = some 2

/-- At t_E the package begins to drain towards the state requested, every channel and stream has stopped, and the arms that
waited are cancelled. -/
def Claims.EntryToLowPower.pwrEntryStart_drains : Prop :=
  ∀ (s : State) (target : PowerState) (e : Stamp), s.alive 0 = true → s.pwr.phase = .requested target e →
    ∃ t, exec (.pwrEntryStart none) s = .next t ∧ t.pwr.phase = .draining target e ∧ t.pwr.state = s.pwr.state ∧ t.trg.orders = s.trg.orders.filter (fun o => !o.arm) ∧
      (∀ b ∈ s.liveBays, ∀ p : Fin 4, (s.bay b).ddc[p].active = true → (t.bay b).ddc[p].paused = true)

/-- Once every queue is empty the bays begin to ebb. -/
def Claims.EntryToLowPower.pwrQueuesDrained_ebbs : Prop :=
  ∀ (s : State) (target : PowerState) (e : Stamp), s.pwr.phase = .draining target e → s.queuesEmpty = true →
    ∃ t, exec .pwrQueuesDrained s = .next t ∧ t = s.modPwr fun p => { p with phase := .ebbing target e }

/-- While one holds a record nothing changes. -/
def Claims.EntryToLowPower.pwrQueuesDrained_waits : Prop :=
  ∀ (s : State), s.queuesEmpty = false → ∃ t, exec .pwrQueuesDrained s = .next t ∧ t = s

/-- A drain that takes longer than PWR.DRAIN_MS is abandoned: the package stays in RUN and the refusal is counted. -/
def Claims.EntryToLowPower.pwrDrainTimeout_abandons : Prop :=
  ∀ (s : State) (target : PowerState) (e : Stamp), s.pwr.phase = .draining target e → s.queuesEmpty = false →
    ∃ t, exec .pwrDrainTimeout s = .next t ∧ t.pwr.phase = .steady ∧ t.pwr.state = s.pwr.state ∧ t.pwr.refusals = s.pwr.refusals + 1

/-- A domain that is to ebb, with none of lower rank left, powers off; while others are to ebb the package is still ebbing. -/
def Claims.EntryToLowPower.domainEbbDone_off : Prop :=
  ∀ (s : State) (b c : BayNo) (target : PowerState) (e : Stamp) (d x : Domain), s.pwr.phase = .ebbing target e → s.alive b = true → (s.toEbb target b).contains d = true →
    (s.toEbb target b).any (fun e => decide (e.rank < d.rank)) = false → s.alive c = true → (s.toEbb target c).contains x = true → (c ≠ b ∨ x ≠ d) →
    ∃ t, exec (.domainEbbDone b d) s = .next t ∧ (t.bay b).pwr.powered d = false ∧ t.pwr.phase = .ebbing target e ∧ t.pwr.state = s.pwr.state

/-- Requests for WATCH and STANDBY, draining and ebbs. -/
def Obligations.EntryToLowPower : Prop :=
  Claims.EntryToLowPower.pwrReqWatch_accepted ∧
  Claims.EntryToLowPower.pwrReqWatch_refused ∧
  Claims.EntryToLowPower.pwrReqStandby_accepted ∧
  Claims.EntryToLowPower.pwrRefusal_recording ∧
  Claims.EntryToLowPower.pwrEntryStart_drains ∧
  Claims.EntryToLowPower.pwrQueuesDrained_ebbs ∧
  Claims.EntryToLowPower.pwrQueuesDrained_waits ∧
  Claims.EntryToLowPower.pwrDrainTimeout_abandons ∧
  Claims.EntryToLowPower.domainEbbDone_off

/-- A wake in steady WATCH or STANDBY is counted with its cause and begins the flood. -/
def Claims.WakesAndFloods.wakeInRise_floods : Prop :=
  ∀ (s : State), s.wakeOn 0 = true → s.pinned 0 = true → s.pwr.phase = .steady → (s.pwr.state = .watch ∨ s.pwr.state = .standby) →
    ∃ t, exec .wakeInRise s = .next t ∧ t.pwr.phase = .flooding (decide (s.pwr.state = .standby)) ∧ t.pwr.wakes = s.pwr.wakes + 1 ∧
      t.pwr.wakeCause = 0 ∧ t.pwr.wakeStamp = s.now ∧ t.pwr.state = s.pwr.state

/-- So does a comparator of a bay that has it enabled, with its bay. -/
def Claims.WakesAndFloods.wakeComparator_floods : Prop :=
  ∀ (s : State) (b : BayNo) (i : Fin 2), s.alive b = true → s.wakeOn 1 = true → (s.fldN Fld.pwrDetWake b).testBit i.val = true → s.pwr.phase = .steady →
    s.pwr.state = .watch →
    ∃ t, exec (.wakeComparator b i) s = .next t ∧ t.pwr.phase = .flooding false ∧ t.pwr.wakeCause = 1 ∧ t.pwr.wakeBay = BitVec.ofNat 3 b.val

/-- So does the RTC when it reaches PWR_WAKE_RTC, which it then shows. -/
def Claims.WakesAndFloods.rtcWake_floods : Prop :=
  ∀ (s : State), s.pwr.wakeRtc ≠ 0 → s.keeper.island.rtcSec.toNat ≤ s.pwr.wakeRtc.toNat → s.wakeOn 2 = true → s.pwr.phase = .steady → s.pwr.state = .standby →
    ∃ t, exec .rtcWake s = .next t ∧ t.pwr.phase = .flooding true ∧ t.pwr.wakeCause = 2 ∧ t.keeper.island.rtcSec = s.pwr.wakeRtc

/-- A wake while an entry is only requested cancels it. -/
def Claims.WakesAndFloods.pwrReqWake_cancels : Prop :=
  ∀ (s : State) (target : PowerState) (e : Stamp), s.pwrCtrl true = true → s.pwr.phase = .requested target e →
    ∃ t, exec (.pwrReqWake none) s = .next t ∧ t.pwr.phase = .steady ∧ t.pwr.wakeCause = 4 ∧ t.pwr.wakes = s.pwr.wakes + 1

/-- A wake during a flood is surplus. -/
def Claims.WakesAndFloods.pwrReqWake_surplus : Prop :=
  ∀ (s : State) (cold : Bool), s.pwrCtrl true = true → s.pwr.phase = .flooding cold →
    ∃ t, exec (.pwrReqWake none) s = .next t ∧ t = s.modPwr fun p => { p with surplus := p.surplus + 1 }

/-- A block below PWR.WATCH_LEVEL breaks the run of blocks; its level and the peak are held. -/
def Claims.WakesAndFloods.watchBlockDone_below : Prop :=
  ∀ (s : State) (b : BayNo) (sum : Nat), s.alive b = true → s.pwr.state = .watch → s.pwr.phase = .steady → s.pwr.watching.getLsbD b.val = true →
    (s.bay b).clk.gated = false → s.watchLevel b sum < s.fld Fld.pwrWatchLevel b → 0 < s.fldN Fld.pwrWatchCount b → (s.bay b).pwr.watchPeak = none →
    ∃ t, exec (.watchBlockDone b sum) s = .next t ∧ t = s.modDom b fun p => { p with watchLevel := s.watchLevel b sum, watchPeak := some (s.watchLevel b sum), watchAbove := 0 }

/-- PWR.WATCH_COUNT blocks in a row at or above it wake the package. -/
def Claims.WakesAndFloods.watchBlockDone_wakes : Prop :=
  ∀ (s : State) (b : BayNo) (sum : Nat), s.alive b = true → s.pwr.state = .watch → s.pwr.phase = .steady → s.pwr.watching.getLsbD b.val = true →
    (s.bay b).clk.gated = false → s.fld Fld.pwrWatchLevel b ≤ s.watchLevel b sum → s.fldN Fld.pwrWatchCount b = (s.bay b).pwr.watchAbove + 1 → s.wakeOn 3 = true →
    ∃ t, exec (.watchBlockDone b sum) s = .next t ∧ t.pwr.phase = .flooding false ∧ t.pwr.wakeCause = 3 ∧ t.pwr.wakeBay = BitVec.ofNat 3 b.val

/-- A read of PWR_WATCH_PEAK clears it. -/
def Claims.WakesAndFloods.watchPeakRead_done : Prop :=
  ∀ (s : State) (b : BayNo), s.alive b = true → ∃ t, exec (.watchPeakRead b) s = .next t ∧ t = s.modDom b fun p => { p with watchPeak := none }

/-- From STANDBY every supervisor that was off is on with its PLLs locked and its tide counter slaved to the headland's. -/
def Claims.WakesAndFloods.floodSupervisorDone_done : Prop :=
  ∀ (s : State), s.pwr.phase = .flooding true →
    ∃ t, exec .floodSupervisorDone s = .next t ∧ t.pwr.phase = .flooding false ∧
      (∀ b ∈ s.liveBays, (t.bay b).pwr.supervisor = true ∧
        ((s.bay b).pwr.supervisor = false → (t.bay b).tbs.tide = (s.bay 0).tbs.tide ∧ (t.bay b).clk.spllLock = true ∧ (t.bay b).clk.cpllLock = true))

/-- When the first valid samples arrive the package is in RUN again, with the domains of its setup powered. -/
def Claims.WakesAndFloods.floodDone_run : Prop :=
  ∀ (s : State), s.pwr.phase = .flooding false →
    ∃ t, exec .floodDone s = .next t ∧ t.pwr.state = .run ∧ t.pwr.phase = .steady ∧
      (∀ b ∈ s.liveBays, (t.bay b).pwr.datapath = true ∧ (t.bay b).pwr.ports = true ∧
        (∀ c : Fin 8, (t.bay b).pwr.cores[c] = s.fldB Fld.mcoCEn b c.val))

/-- Wake events, the watch meter and the flood. -/
def Obligations.WakesAndFloods : Prop :=
  Claims.WakesAndFloods.wakeInRise_floods ∧
  Claims.WakesAndFloods.wakeComparator_floods ∧
  Claims.WakesAndFloods.rtcWake_floods ∧
  Claims.WakesAndFloods.pwrReqWake_cancels ∧
  Claims.WakesAndFloods.pwrReqWake_surplus ∧
  Claims.WakesAndFloods.watchBlockDone_below ∧
  Claims.WakesAndFloods.watchBlockDone_wakes ∧
  Claims.WakesAndFloods.watchPeakRead_done ∧
  Claims.WakesAndFloods.floodSupervisorDone_done ∧
  Claims.WakesAndFloods.floodDone_run

end
end

