-- ==== Sys2Proof/Laws/State.lean ====
section
/-! SUPPORT. What each update of the state leaves as it was, field by field, and what it writes. -/
namespace Sys2Proof.Machine

@[simp] theorem State.bay_setBay (s : State) (b : BayNo) (x : Bay) : (s.setBay b x).bay b = x := by
  simp [State.setBay, State.bay]

theorem State.bay_setBay_ne (s : State) {b c : BayNo} (x : Bay) (h : c ≠ b) : (s.setBay b x).bay c = s.bay c := by
  have h' : b.val ≠ c.val := fun e => h (Fin.ext e.symm)
  simp [State.setBay, State.bay, Vector.getElem_set, h']

theorem State.bay_modBay (s : State) (b : BayNo) (f : Bay → Bay) : (s.modBay b f).bay b = f (s.bay b) := State.bay_setBay ..

theorem State.bay_modBay_ne (s : State) {b c : BayNo} (f : Bay → Bay) (h : c ≠ b) : (s.modBay b f).bay c = s.bay c :=
  State.bay_setBay_ne s _ h

/-- A part of a bay that a change leaves alone is as before in every bay. -/
theorem State.bay_modBay_same {α : Type} (g : Bay → α) (s : State) (b c : BayNo) (f : Bay → Bay) (h : ∀ x, g (f x) = g x) :
    g ((s.modBay b f).bay c) = g (s.bay c) := by
  by_cases e : c = b
  · subst e; rw [State.bay_modBay]; exact h _
  · rw [State.bay_modBay_ne s f e]

theorem State.alive_congr {s t : State} (b : BayNo) (h1 : t.running = s.running) (h2 : t.part = s.part)
    (h3 : (t.bay b).lost = (s.bay b).lost) : t.alive b = s.alive b := by
  simp only [State.alive, State.present, h1, h2, h3]

theorem State.liveBays_congr {s t : State} (h : ∀ b, t.alive b = s.alive b) : t.liveBays = s.liveBays := by
  have : t.alive = s.alive := funext h
  simp only [State.liveBays, this]

@[simp] theorem State.modLnl_part (s : State) (b : BayNo) (f : LnlBay → LnlBay) : (State.modLnl s b f).part = s.part := (rfl)
@[simp] theorem State.modLnl_vals (s : State) (b : BayNo) (f : LnlBay → LnlBay) : (State.modLnl s b f).vals = s.vals := (rfl)
@[simp] theorem State.modLnl_img (s : State) (b : BayNo) (f : LnlBay → LnlBay) : (State.modLnl s b f).img = s.img := (rfl)
@[simp] theorem State.modLnl_flash (s : State) (b : BayNo) (f : LnlBay → LnlBay) : (State.modLnl s b f).flash = s.flash := (rfl)
@[simp] theorem State.modLnl_tbs (s : State) (b : BayNo) (f : LnlBay → LnlBay) : (State.modLnl s b f).tbs = s.tbs := (rfl)
@[simp] theorem State.modLnl_sel (s : State) (b : BayNo) (f : LnlBay → LnlBay) : (State.modLnl s b f).sel = s.sel := (rfl)
@[simp] theorem State.modLnl_keeper (s : State) (b : BayNo) (f : LnlBay → LnlBay) : (State.modLnl s b f).keeper = s.keeper := (rfl)
@[simp] theorem State.modLnl_pwr (s : State) (b : BayNo) (f : LnlBay → LnlBay) : (State.modLnl s b f).pwr = s.pwr := (rfl)
@[simp] theorem State.modLnl_faults (s : State) (b : BayNo) (f : LnlBay → LnlBay) : (State.modLnl s b f).faults = s.faults := (rfl)
@[simp] theorem State.modLnl_trg (s : State) (b : BayNo) (f : LnlBay → LnlBay) : (State.modLnl s b f).trg = s.trg := (rfl)
@[simp] theorem State.modLnl_ident (s : State) (b : BayNo) (f : LnlBay → LnlBay) : (State.modLnl s b f).ident = s.ident := (rfl)
@[simp] theorem State.modLnl_eth (s : State) (b : BayNo) (f : LnlBay → LnlBay) : (State.modLnl s b f).eth = s.eth := (rfl)
@[simp] theorem State.modLnl_lnl (s : State) (b : BayNo) (f : LnlBay → LnlBay) : (State.modLnl s b f).lnl = s.lnl := (rfl)
@[simp] theorem State.modLnl_inj (s : State) (b : BayNo) (f : LnlBay → LnlBay) : (State.modLnl s b f).inj = s.inj := (rfl)
@[simp] theorem State.modLnl_clrPin (s : State) (b : BayNo) (f : LnlBay → LnlBay) : (State.modLnl s b f).clrPin = s.clrPin := (rfl)
@[simp] theorem State.modLnl_rstLow (s : State) (b : BayNo) (f : LnlBay → LnlBay) : (State.modLnl s b f).rstLow = s.rstLow := (rfl)
@[simp] theorem State.modLnl_fresh (s : State) (b : BayNo) (f : LnlBay → LnlBay) : (State.modLnl s b f).fresh = s.fresh := (rfl)
@[simp] theorem State.modLnl_outbox (s : State) (b : BayNo) (f : LnlBay → LnlBay) : (State.modLnl s b f).outbox = s.outbox := (rfl)
@[simp] theorem State.modLnl_pending (s : State) (b : BayNo) (f : LnlBay → LnlBay) : (State.modLnl s b f).pending = s.pending := (rfl)
@[simp] theorem State.modLnl_fld (s : State) (b : BayNo) (f : LnlBay → LnlBay) (g : Field) (cc : BayNo) (j1 k1 : Nat) : (State.modLnl s b f).fld g cc j1 k1 = s.fld g cc j1 k1 := (rfl)
@[simp] theorem State.modLnl_fldN (s : State) (b : BayNo) (f : LnlBay → LnlBay) (g : Field) (cc : BayNo) (j1 k1 : Nat) : (State.modLnl s b f).fldN g cc j1 k1 = s.fldN g cc j1 k1 := (rfl)
@[simp] theorem State.modLnl_fldB (s : State) (b : BayNo) (f : LnlBay → LnlBay) (g : Field) (cc : BayNo) (j1 : Nat) : (State.modLnl s b f).fldB g cc j1 = s.fldB g cc j1 := (rfl)
@[simp] theorem State.modLnl_pkgN (s : State) (b : BayNo) (f : LnlBay → LnlBay) (g : Field) (j1 : Nat) : (State.modLnl s b f).pkgN g j1 = s.pkgN g j1 := (rfl)
@[simp] theorem State.modLnl_bay_lost (s : State) (b : BayNo) (f : LnlBay → LnlBay) (cc : BayNo) : ((State.modLnl s b f).bay cc).lost = (s.bay cc).lost :=
  State.bay_modBay_same (·.lost) s b cc _ fun _ => rfl
@[simp] theorem State.modLnl_bay_clk (s : State) (b : BayNo) (f : LnlBay → LnlBay) (cc : BayNo) : ((State.modLnl s b f).bay cc).clk = (s.bay cc).clk :=
  State.bay_modBay_same (·.clk) s b cc _ fun _ => rfl
@[simp] theorem State.modLnl_bay_tbs (s : State) (b : BayNo) (f : LnlBay → LnlBay) (cc : BayNo) : ((State.modLnl s b f).bay cc).tbs = (s.bay cc).tbs :=
  State.bay_modBay_same (·.tbs) s b cc _ fun _ => rfl
@[simp] theorem State.modLnl_bay_que (s : State) (b : BayNo) (f : LnlBay → LnlBay) (cc : BayNo) : ((State.modLnl s b f).bay cc).que = (s.bay cc).que :=
  State.bay_modBay_same (·.que) s b cc _ fun _ => rfl
@[simp] theorem State.modLnl_bay_dma (s : State) (b : BayNo) (f : LnlBay → LnlBay) (cc : BayNo) : ((State.modLnl s b f).bay cc).dma = (s.bay cc).dma :=
  State.bay_modBay_same (·.dma) s b cc _ fun _ => rfl
@[simp] theorem State.modLnl_bay_pwr (s : State) (b : BayNo) (f : LnlBay → LnlBay) (cc : BayNo) : ((State.modLnl s b f).bay cc).pwr = (s.bay cc).pwr :=
  State.bay_modBay_same (·.pwr) s b cc _ fun _ => rfl
@[simp] theorem State.modLnl_bay_trg (s : State) (b : BayNo) (f : LnlBay → LnlBay) (cc : BayNo) : ((State.modLnl s b f).bay cc).trg = (s.bay cc).trg :=
  State.bay_modBay_same (·.trg) s b cc _ fun _ => rfl
@[simp] theorem State.modLnl_bay_afe (s : State) (b : BayNo) (f : LnlBay → LnlBay) (cc : BayNo) : ((State.modLnl s b f).bay cc).afe = (s.bay cc).afe :=
  State.bay_modBay_same (·.afe) s b cc _ fun _ => rfl
@[simp] theorem State.modLnl_bay_adc (s : State) (b : BayNo) (f : LnlBay → LnlBay) (cc : BayNo) : ((State.modLnl s b f).bay cc).adc = (s.bay cc).adc :=
  State.bay_modBay_same (·.adc) s b cc _ fun _ => rfl
@[simp] theorem State.modLnl_bay_ddc (s : State) (b : BayNo) (f : LnlBay → LnlBay) (cc : BayNo) : ((State.modLnl s b f).bay cc).ddc = (s.bay cc).ddc :=
  State.bay_modBay_same (·.ddc) s b cc _ fun _ => rfl
@[simp] theorem State.modLnl_bay_xfm (s : State) (b : BayNo) (f : LnlBay → LnlBay) (cc : BayNo) : ((State.modLnl s b f).bay cc).xfm = (s.bay cc).xfm :=
  State.bay_modBay_same (·.xfm) s b cc _ fun _ => rfl
@[simp] theorem State.modLnl_bay_den (s : State) (b : BayNo) (f : LnlBay → LnlBay) (cc : BayNo) : ((State.modLnl s b f).bay cc).den = (s.bay cc).den :=
  State.bay_modBay_same (·.den) s b cc _ fun _ => rfl
@[simp] theorem State.modLnl_bay_mco (s : State) (b : BayNo) (f : LnlBay → LnlBay) (cc : BayNo) : ((State.modLnl s b f).bay cc).mco = (s.bay cc).mco :=
  State.bay_modBay_same (·.mco) s b cc _ fun _ => rfl
@[simp] theorem State.modLnl_bay_scn (s : State) (b : BayNo) (f : LnlBay → LnlBay) (cc : BayNo) : ((State.modLnl s b f).bay cc).scn = (s.bay cc).scn :=
  State.bay_modBay_same (·.scn) s b cc _ fun _ => rfl
@[simp] theorem State.modLnl_bay_recorder (s : State) (b : BayNo) (f : LnlBay → LnlBay) (cc : BayNo) : ((State.modLnl s b f).bay cc).recorder = (s.bay cc).recorder :=
  State.bay_modBay_same (·.recorder) s b cc _ fun _ => rfl
@[simp] theorem State.modLnl_bay_lne (s : State) (b : BayNo) (f : LnlBay → LnlBay) (cc : BayNo) : ((State.modLnl s b f).bay cc).lne = (s.bay cc).lne :=
  State.bay_modBay_same (·.lne) s b cc _ fun _ => rfl
@[simp] theorem State.modLnl_bay_pci (s : State) (b : BayNo) (f : LnlBay → LnlBay) (cc : BayNo) : ((State.modLnl s b f).bay cc).pci = (s.bay cc).pci :=
  State.bay_modBay_same (·.pci) s b cc _ fun _ => rfl
@[simp] theorem State.modLnl_bay_eth (s : State) (b : BayNo) (f : LnlBay → LnlBay) (cc : BayNo) : ((State.modLnl s b f).bay cc).eth = (s.bay cc).eth :=
  State.bay_modBay_same (·.eth) s b cc _ fun _ => rfl
@[simp] theorem State.modLnl_bay_jes (s : State) (b : BayNo) (f : LnlBay → LnlBay) (cc : BayNo) : ((State.modLnl s b f).bay cc).jes = (s.bay cc).jes :=
  State.bay_modBay_same (·.jes) s b cc _ fun _ => rfl
@[simp] theorem State.modLnl_bay_cal (s : State) (b : BayNo) (f : LnlBay → LnlBay) (cc : BayNo) : ((State.modLnl s b f).bay cc).cal = (s.bay cc).cal :=
  State.bay_modBay_same (·.cal) s b cc _ fun _ => rfl
@[simp] theorem State.modLnl_bay_hkc (s : State) (b : BayNo) (f : LnlBay → LnlBay) (cc : BayNo) : ((State.modLnl s b f).bay cc).hkc = (s.bay cc).hkc :=
  State.bay_modBay_same (·.hkc) s b cc _ fun _ => rfl
@[simp] theorem State.modLnl_bay_aux (s : State) (b : BayNo) (f : LnlBay → LnlBay) (cc : BayNo) : ((State.modLnl s b f).bay cc).aux = (s.bay cc).aux :=
  State.bay_modBay_same (·.aux) s b cc _ fun _ => rfl
@[simp] theorem State.modLnl_bay_mon (s : State) (b : BayNo) (f : LnlBay → LnlBay) (cc : BayNo) : ((State.modLnl s b f).bay cc).mon = (s.bay cc).mon :=
  State.bay_modBay_same (·.mon) s b cc _ fun _ => rfl
@[simp] theorem State.modLnl_bay_jtag (s : State) (b : BayNo) (f : LnlBay → LnlBay) (cc : BayNo) : ((State.modLnl s b f).bay cc).jtag = (s.bay cc).jtag :=
  State.bay_modBay_same (·.jtag) s b cc _ fun _ => rfl
@[simp] theorem State.modLnl_nowAt (s : State) (b : BayNo) (f : LnlBay → LnlBay) (cc : BayNo) : (State.modLnl s b f).nowAt cc = s.nowAt cc :=
  congrArg (fun t : TbsBay => Tide.stamp t.tide) (State.modLnl_bay_tbs s b f cc)
@[simp] theorem State.modLnl_now (s : State) (b : BayNo) (f : LnlBay → LnlBay) : (State.modLnl s b f).now = s.now := State.modLnl_nowAt s b f 0
@[simp] theorem State.modLnl_alive (s : State) (b : BayNo) (f : LnlBay → LnlBay) (cc : BayNo) : (State.modLnl s b f).alive cc = s.alive cc :=
  State.alive_congr cc rfl rfl (State.modLnl_bay_lost s b f cc)
@[simp] theorem State.modLnl_liveBays (s : State) (b : BayNo) (f : LnlBay → LnlBay) : (State.modLnl s b f).liveBays = s.liveBays :=
  State.liveBays_congr (State.modLnl_alive s b f)
@[simp] theorem State.modLnl_bay_lnl_self (s : State) (b : BayNo) (f : LnlBay → LnlBay) : ((State.modLnl s b f).bay b).lnl = f (s.bay b).lnl :=
  congrArg (fun y : Bay => y.lnl) (State.bay_modBay s b _)
theorem State.modLnl_bay_lnl_ne (s : State) (b : BayNo) (f : LnlBay → LnlBay) {cc : BayNo} (h : cc ≠ b) : ((State.modLnl s b f).bay cc).lnl = (s.bay cc).lnl :=
  congrArg (fun y : Bay => y.lnl) (State.bay_modBay_ne s _ h)

@[simp] theorem State.modLink_part (s : State) (b : BayNo) (n : Fin 5) (f : Injector → Injector) : (State.modLink s b n f).part = s.part := (rfl)
@[simp] theorem State.modLink_vals (s : State) (b : BayNo) (n : Fin 5) (f : Injector → Injector) : (State.modLink s b n f).vals = s.vals := (rfl)
@[simp] theorem State.modLink_img (s : State) (b : BayNo) (n : Fin 5) (f : Injector → Injector) : (State.modLink s b n f).img = s.img := (rfl)
@[simp] theorem State.modLink_flash (s : State) (b : BayNo) (n : Fin 5) (f : Injector → Injector) : (State.modLink s b n f).flash = s.flash := (rfl)
@[simp] theorem State.modLink_tbs (s : State) (b : BayNo) (n : Fin 5) (f : Injector → Injector) : (State.modLink s b n f).tbs = s.tbs := (rfl)
@[simp] theorem State.modLink_sel (s : State) (b : BayNo) (n : Fin 5) (f : Injector → Injector) : (State.modLink s b n f).sel = s.sel := (rfl)
@[simp] theorem State.modLink_keeper (s : State) (b : BayNo) (n : Fin 5) (f : Injector → Injector) : (State.modLink s b n f).keeper = s.keeper := (rfl)
@[simp] theorem State.modLink_pwr (s : State) (b : BayNo) (n : Fin 5) (f : Injector → Injector) : (State.modLink s b n f).pwr = s.pwr := (rfl)
@[simp] theorem State.modLink_faults (s : State) (b : BayNo) (n : Fin 5) (f : Injector → Injector) : (State.modLink s b n f).faults = s.faults := (rfl)
@[simp] theorem State.modLink_trg (s : State) (b : BayNo) (n : Fin 5) (f : Injector → Injector) : (State.modLink s b n f).trg = s.trg := (rfl)
@[simp] theorem State.modLink_ident (s : State) (b : BayNo) (n : Fin 5) (f : Injector → Injector) : (State.modLink s b n f).ident = s.ident := (rfl)
@[simp] theorem State.modLink_eth (s : State) (b : BayNo) (n : Fin 5) (f : Injector → Injector) : (State.modLink s b n f).eth = s.eth := (rfl)
@[simp] theorem State.modLink_lnl (s : State) (b : BayNo) (n : Fin 5) (f : Injector → Injector) : (State.modLink s b n f).lnl = s.lnl := (rfl)
@[simp] theorem State.modLink_inj (s : State) (b : BayNo) (n : Fin 5) (f : Injector → Injector) : (State.modLink s b n f).inj = s.inj := (rfl)
@[simp] theorem State.modLink_clrPin (s : State) (b : BayNo) (n : Fin 5) (f : Injector → Injector) : (State.modLink s b n f).clrPin = s.clrPin := (rfl)
@[simp] theorem State.modLink_rstLow (s : State) (b : BayNo) (n : Fin 5) (f : Injector → Injector) : (State.modLink s b n f).rstLow = s.rstLow := (rfl)
@[simp] theorem State.modLink_fresh (s : State) (b : BayNo) (n : Fin 5) (f : Injector → Injector) : (State.modLink s b n f).fresh = s.fresh := (rfl)
@[simp] theorem State.modLink_outbox (s : State) (b : BayNo) (n : Fin 5) (f : Injector → Injector) : (State.modLink s b n f).outbox = s.outbox := (rfl)
@[simp] theorem State.modLink_pending (s : State) (b : BayNo) (n : Fin 5) (f : Injector → Injector) : (State.modLink s b n f).pending = s.pending := (rfl)
@[simp] theorem State.modLink_fld (s : State) (b : BayNo) (n : Fin 5) (f : Injector → Injector) (g : Field) (cc : BayNo) (j1 k1 : Nat) : (State.modLink s b n f).fld g cc j1 k1 = s.fld g cc j1 k1 := (rfl)
@[simp] theorem State.modLink_fldN (s : State) (b : BayNo) (n : Fin 5) (f : Injector → Injector) (g : Field) (cc : BayNo) (j1 k1 : Nat) : (State.modLink s b n f).fldN g cc j1 k1 = s.fldN g cc j1 k1 := (rfl)
@[simp] theorem State.modLink_fldB (s : State) (b : BayNo) (n : Fin 5) (f : Injector → Injector) (g : Field) (cc : BayNo) (j1 : Nat) : (State.modLink s b n f).fldB g cc j1 = s.fldB g cc j1 := (rfl)
@[simp] theorem State.modLink_pkgN (s : State) (b : BayNo) (n : Fin 5) (f : Injector → Injector) (g : Field) (j1 : Nat) : (State.modLink s b n f).pkgN g j1 = s.pkgN g j1 := (rfl)
@[simp] theorem State.modLink_bay_lost (s : State) (b : BayNo) (n : Fin 5) (f : Injector → Injector) (cc : BayNo) : ((State.modLink s b n f).bay cc).lost = (s.bay cc).lost :=
  State.bay_modBay_same (·.lost) s b cc _ fun _ => rfl
@[simp] theorem State.modLink_bay_clk (s : State) (b : BayNo) (n : Fin 5) (f : Injector → Injector) (cc : BayNo) : ((State.modLink s b n f).bay cc).clk = (s.bay cc).clk :=
  State.bay_modBay_same (·.clk) s b cc _ fun _ => rfl
@[simp] theorem State.modLink_bay_tbs (s : State) (b : BayNo) (n : Fin 5) (f : Injector → Injector) (cc : BayNo) : ((State.modLink s b n f).bay cc).tbs = (s.bay cc).tbs :=
  State.bay_modBay_same (·.tbs) s b cc _ fun _ => rfl
@[simp] theorem State.modLink_bay_que (s : State) (b : BayNo) (n : Fin 5) (f : Injector → Injector) (cc : BayNo) : ((State.modLink s b n f).bay cc).que = (s.bay cc).que :=
  State.bay_modBay_same (·.que) s b cc _ fun _ => rfl
@[simp] theorem State.modLink_bay_dma (s : State) (b : BayNo) (n : Fin 5) (f : Injector → Injector) (cc : BayNo) : ((State.modLink s b n f).bay cc).dma = (s.bay cc).dma :=
  State.bay_modBay_same (·.dma) s b cc _ fun _ => rfl
@[simp] theorem State.modLink_bay_pwr (s : State) (b : BayNo) (n : Fin 5) (f : Injector → Injector) (cc : BayNo) : ((State.modLink s b n f).bay cc).pwr = (s.bay cc).pwr :=
  State.bay_modBay_same (·.pwr) s b cc _ fun _ => rfl
@[simp] theorem State.modLink_bay_trg (s : State) (b : BayNo) (n : Fin 5) (f : Injector → Injector) (cc : BayNo) : ((State.modLink s b n f).bay cc).trg = (s.bay cc).trg :=
  State.bay_modBay_same (·.trg) s b cc _ fun _ => rfl
@[simp] theorem State.modLink_bay_afe (s : State) (b : BayNo) (n : Fin 5) (f : Injector → Injector) (cc : BayNo) : ((State.modLink s b n f).bay cc).afe = (s.bay cc).afe :=
  State.bay_modBay_same (·.afe) s b cc _ fun _ => rfl
@[simp] theorem State.modLink_bay_adc (s : State) (b : BayNo) (n : Fin 5) (f : Injector → Injector) (cc : BayNo) : ((State.modLink s b n f).bay cc).adc = (s.bay cc).adc :=
  State.bay_modBay_same (·.adc) s b cc _ fun _ => rfl
@[simp] theorem State.modLink_bay_ddc (s : State) (b : BayNo) (n : Fin 5) (f : Injector → Injector) (cc : BayNo) : ((State.modLink s b n f).bay cc).ddc = (s.bay cc).ddc :=
  State.bay_modBay_same (·.ddc) s b cc _ fun _ => rfl
@[simp] theorem State.modLink_bay_xfm (s : State) (b : BayNo) (n : Fin 5) (f : Injector → Injector) (cc : BayNo) : ((State.modLink s b n f).bay cc).xfm = (s.bay cc).xfm :=
  State.bay_modBay_same (·.xfm) s b cc _ fun _ => rfl
@[simp] theorem State.modLink_bay_den (s : State) (b : BayNo) (n : Fin 5) (f : Injector → Injector) (cc : BayNo) : ((State.modLink s b n f).bay cc).den = (s.bay cc).den :=
  State.bay_modBay_same (·.den) s b cc _ fun _ => rfl
@[simp] theorem State.modLink_bay_mco (s : State) (b : BayNo) (n : Fin 5) (f : Injector → Injector) (cc : BayNo) : ((State.modLink s b n f).bay cc).mco = (s.bay cc).mco :=
  State.bay_modBay_same (·.mco) s b cc _ fun _ => rfl
@[simp] theorem State.modLink_bay_scn (s : State) (b : BayNo) (n : Fin 5) (f : Injector → Injector) (cc : BayNo) : ((State.modLink s b n f).bay cc).scn = (s.bay cc).scn :=
  State.bay_modBay_same (·.scn) s b cc _ fun _ => rfl
@[simp] theorem State.modLink_bay_recorder (s : State) (b : BayNo) (n : Fin 5) (f : Injector → Injector) (cc : BayNo) : ((State.modLink s b n f).bay cc).recorder = (s.bay cc).recorder :=
  State.bay_modBay_same (·.recorder) s b cc _ fun _ => rfl
@[simp] theorem State.modLink_bay_lne (s : State) (b : BayNo) (n : Fin 5) (f : Injector → Injector) (cc : BayNo) : ((State.modLink s b n f).bay cc).lne = (s.bay cc).lne :=
  State.bay_modBay_same (·.lne) s b cc _ fun _ => rfl
@[simp] theorem State.modLink_bay_pci (s : State) (b : BayNo) (n : Fin 5) (f : Injector → Injector) (cc : BayNo) : ((State.modLink s b n f).bay cc).pci = (s.bay cc).pci :=
  State.bay_modBay_same (·.pci) s b cc _ fun _ => rfl
@[simp] theorem State.modLink_bay_eth (s : State) (b : BayNo) (n : Fin 5) (f : Injector → Injector) (cc : BayNo) : ((State.modLink s b n f).bay cc).eth = (s.bay cc).eth :=
  State.bay_modBay_same (·.eth) s b cc _ fun _ => rfl
@[simp] theorem State.modLink_bay_jes (s : State) (b : BayNo) (n : Fin 5) (f : Injector → Injector) (cc : BayNo) : ((State.modLink s b n f).bay cc).jes = (s.bay cc).jes :=
  State.bay_modBay_same (·.jes) s b cc _ fun _ => rfl
@[simp] theorem State.modLink_bay_cal (s : State) (b : BayNo) (n : Fin 5) (f : Injector → Injector) (cc : BayNo) : ((State.modLink s b n f).bay cc).cal = (s.bay cc).cal :=
  State.bay_modBay_same (·.cal) s b cc _ fun _ => rfl
@[simp] theorem State.modLink_bay_hkc (s : State) (b : BayNo) (n : Fin 5) (f : Injector → Injector) (cc : BayNo) : ((State.modLink s b n f).bay cc).hkc = (s.bay cc).hkc :=
  State.bay_modBay_same (·.hkc) s b cc _ fun _ => rfl
@[simp] theorem State.modLink_bay_aux (s : State) (b : BayNo) (n : Fin 5) (f : Injector → Injector) (cc : BayNo) : ((State.modLink s b n f).bay cc).aux = (s.bay cc).aux :=
  State.bay_modBay_same (·.aux) s b cc _ fun _ => rfl
@[simp] theorem State.modLink_bay_mon (s : State) (b : BayNo) (n : Fin 5) (f : Injector → Injector) (cc : BayNo) : ((State.modLink s b n f).bay cc).mon = (s.bay cc).mon :=
  State.bay_modBay_same (·.mon) s b cc _ fun _ => rfl
@[simp] theorem State.modLink_bay_jtag (s : State) (b : BayNo) (n : Fin 5) (f : Injector → Injector) (cc : BayNo) : ((State.modLink s b n f).bay cc).jtag = (s.bay cc).jtag :=
  State.bay_modBay_same (·.jtag) s b cc _ fun _ => rfl
@[simp] theorem State.modLink_nowAt (s : State) (b : BayNo) (n : Fin 5) (f : Injector → Injector) (cc : BayNo) : (State.modLink s b n f).nowAt cc = s.nowAt cc :=
  congrArg (fun t : TbsBay => Tide.stamp t.tide) (State.modLink_bay_tbs s b n f cc)
@[simp] theorem State.modLink_now (s : State) (b : BayNo) (n : Fin 5) (f : Injector → Injector) : (State.modLink s b n f).now = s.now := State.modLink_nowAt s b n f 0
@[simp] theorem State.modLink_alive (s : State) (b : BayNo) (n : Fin 5) (f : Injector → Injector) (cc : BayNo) : (State.modLink s b n f).alive cc = s.alive cc :=
  State.alive_congr cc rfl rfl (State.modLink_bay_lost s b n f cc)
@[simp] theorem State.modLink_liveBays (s : State) (b : BayNo) (n : Fin 5) (f : Injector → Injector) : (State.modLink s b n f).liveBays = s.liveBays :=
  State.liveBays_congr (State.modLink_alive s b n f)

@[simp] theorem State.modPortL_part (s : State) (b : BayNo) (p : Fin 3) (f : LinkPort → LinkPort) : (State.modPortL s b p f).part = s.part := (rfl)
@[simp] theorem State.modPortL_vals (s : State) (b : BayNo) (p : Fin 3) (f : LinkPort → LinkPort) : (State.modPortL s b p f).vals = s.vals := (rfl)
@[simp] theorem State.modPortL_img (s : State) (b : BayNo) (p : Fin 3) (f : LinkPort → LinkPort) : (State.modPortL s b p f).img = s.img := (rfl)
@[simp] theorem State.modPortL_flash (s : State) (b : BayNo) (p : Fin 3) (f : LinkPort → LinkPort) : (State.modPortL s b p f).flash = s.flash := (rfl)
@[simp] theorem State.modPortL_tbs (s : State) (b : BayNo) (p : Fin 3) (f : LinkPort → LinkPort) : (State.modPortL s b p f).tbs = s.tbs := (rfl)
@[simp] theorem State.modPortL_sel (s : State) (b : BayNo) (p : Fin 3) (f : LinkPort → LinkPort) : (State.modPortL s b p f).sel = s.sel := (rfl)
@[simp] theorem State.modPortL_keeper (s : State) (b : BayNo) (p : Fin 3) (f : LinkPort → LinkPort) : (State.modPortL s b p f).keeper = s.keeper := (rfl)
@[simp] theorem State.modPortL_pwr (s : State) (b : BayNo) (p : Fin 3) (f : LinkPort → LinkPort) : (State.modPortL s b p f).pwr = s.pwr := (rfl)
@[simp] theorem State.modPortL_faults (s : State) (b : BayNo) (p : Fin 3) (f : LinkPort → LinkPort) : (State.modPortL s b p f).faults = s.faults := (rfl)
@[simp] theorem State.modPortL_trg (s : State) (b : BayNo) (p : Fin 3) (f : LinkPort → LinkPort) : (State.modPortL s b p f).trg = s.trg := (rfl)
@[simp] theorem State.modPortL_ident (s : State) (b : BayNo) (p : Fin 3) (f : LinkPort → LinkPort) : (State.modPortL s b p f).ident = s.ident := (rfl)
@[simp] theorem State.modPortL_eth (s : State) (b : BayNo) (p : Fin 3) (f : LinkPort → LinkPort) : (State.modPortL s b p f).eth = s.eth := (rfl)
@[simp] theorem State.modPortL_lnl (s : State) (b : BayNo) (p : Fin 3) (f : LinkPort → LinkPort) : (State.modPortL s b p f).lnl = s.lnl := (rfl)
@[simp] theorem State.modPortL_inj (s : State) (b : BayNo) (p : Fin 3) (f : LinkPort → LinkPort) : (State.modPortL s b p f).inj = s.inj := (rfl)
@[simp] theorem State.modPortL_clrPin (s : State) (b : BayNo) (p : Fin 3) (f : LinkPort → LinkPort) : (State.modPortL s b p f).clrPin = s.clrPin := (rfl)
@[simp] theorem State.modPortL_rstLow (s : State) (b : BayNo) (p : Fin 3) (f : LinkPort → LinkPort) : (State.modPortL s b p f).rstLow = s.rstLow := (rfl)
@[simp] theorem State.modPortL_fresh (s : State) (b : BayNo) (p : Fin 3) (f : LinkPort → LinkPort) : (State.modPortL s b p f).fresh = s.fresh := (rfl)
@[simp] theorem State.modPortL_outbox (s : State) (b : BayNo) (p : Fin 3) (f : LinkPort → LinkPort) : (State.modPortL s b p f).outbox = s.outbox := (rfl)
@[simp] theorem State.modPortL_pending (s : State) (b : BayNo) (p : Fin 3) (f : LinkPort → LinkPort) : (State.modPortL s b p f).pending = s.pending := (rfl)
@[simp] theorem State.modPortL_fld (s : State) (b : BayNo) (p : Fin 3) (f : LinkPort → LinkPort) (g : Field) (cc : BayNo) (j1 k1 : Nat) : (State.modPortL s b p f).fld g cc j1 k1 = s.fld g cc j1 k1 := (rfl)
@[simp] theorem State.modPortL_fldN (s : State) (b : BayNo) (p : Fin 3) (f : LinkPort → LinkPort) (g : Field) (cc : BayNo) (j1 k1 : Nat) : (State.modPortL s b p f).fldN g cc j1 k1 = s.fldN g cc j1 k1 := (rfl)
@[simp] theorem State.modPortL_fldB (s : State) (b : BayNo) (p : Fin 3) (f : LinkPort → LinkPort) (g : Field) (cc : BayNo) (j1 : Nat) : (State.modPortL s b p f).fldB g cc j1 = s.fldB g cc j1 := (rfl)
@[simp] theorem State.modPortL_pkgN (s : State) (b : BayNo) (p : Fin 3) (f : LinkPort → LinkPort) (g : Field) (j1 : Nat) : (State.modPortL s b p f).pkgN g j1 = s.pkgN g j1 := (rfl)
@[simp] theorem State.modPortL_bay_lost (s : State) (b : BayNo) (p : Fin 3) (f : LinkPort → LinkPort) (cc : BayNo) : ((State.modPortL s b p f).bay cc).lost = (s.bay cc).lost :=
  State.bay_modBay_same (·.lost) s b cc _ fun _ => rfl
@[simp] theorem State.modPortL_bay_clk (s : State) (b : BayNo) (p : Fin 3) (f : LinkPort → LinkPort) (cc : BayNo) : ((State.modPortL s b p f).bay cc).clk = (s.bay cc).clk :=
  State.bay_modBay_same (·.clk) s b cc _ fun _ => rfl
@[simp] theorem State.modPortL_bay_tbs (s : State) (b : BayNo) (p : Fin 3) (f : LinkPort → LinkPort) (cc : BayNo) : ((State.modPortL s b p f).bay cc).tbs = (s.bay cc).tbs :=
  State.bay_modBay_same (·.tbs) s b cc _ fun _ => rfl
@[simp] theorem State.modPortL_bay_que (s : State) (b : BayNo) (p : Fin 3) (f : LinkPort → LinkPort) (cc : BayNo) : ((State.modPortL s b p f).bay cc).que = (s.bay cc).que :=
  State.bay_modBay_same (·.que) s b cc _ fun _ => rfl
@[simp] theorem State.modPortL_bay_dma (s : State) (b : BayNo) (p : Fin 3) (f : LinkPort → LinkPort) (cc : BayNo) : ((State.modPortL s b p f).bay cc).dma = (s.bay cc).dma :=
  State.bay_modBay_same (·.dma) s b cc _ fun _ => rfl
@[simp] theorem State.modPortL_bay_pwr (s : State) (b : BayNo) (p : Fin 3) (f : LinkPort → LinkPort) (cc : BayNo) : ((State.modPortL s b p f).bay cc).pwr = (s.bay cc).pwr :=
  State.bay_modBay_same (·.pwr) s b cc _ fun _ => rfl
@[simp] theorem State.modPortL_bay_trg (s : State) (b : BayNo) (p : Fin 3) (f : LinkPort → LinkPort) (cc : BayNo) : ((State.modPortL s b p f).bay cc).trg = (s.bay cc).trg :=
  State.bay_modBay_same (·.trg) s b cc _ fun _ => rfl
@[simp] theorem State.modPortL_bay_afe (s : State) (b : BayNo) (p : Fin 3) (f : LinkPort → LinkPort) (cc : BayNo) : ((State.modPortL s b p f).bay cc).afe = (s.bay cc).afe :=
  State.bay_modBay_same (·.afe) s b cc _ fun _ => rfl
@[simp] theorem State.modPortL_bay_adc (s : State) (b : BayNo) (p : Fin 3) (f : LinkPort → LinkPort) (cc : BayNo) : ((State.modPortL s b p f).bay cc).adc = (s.bay cc).adc :=
  State.bay_modBay_same (·.adc) s b cc _ fun _ => rfl
@[simp] theorem State.modPortL_bay_ddc (s : State) (b : BayNo) (p : Fin 3) (f : LinkPort → LinkPort) (cc : BayNo) : ((State.modPortL s b p f).bay cc).ddc = (s.bay cc).ddc :=
  State.bay_modBay_same (·.ddc) s b cc _ fun _ => rfl
@[simp] theorem State.modPortL_bay_xfm (s : State) (b : BayNo) (p : Fin 3) (f : LinkPort → LinkPort) (cc : BayNo) : ((State.modPortL s b p f).bay cc).xfm = (s.bay cc).xfm :=
  State.bay_modBay_same (·.xfm) s b cc _ fun _ => rfl
@[simp] theorem State.modPortL_bay_den (s : State) (b : BayNo) (p : Fin 3) (f : LinkPort → LinkPort) (cc : BayNo) : ((State.modPortL s b p f).bay cc).den = (s.bay cc).den :=
  State.bay_modBay_same (·.den) s b cc _ fun _ => rfl
@[simp] theorem State.modPortL_bay_mco (s : State) (b : BayNo) (p : Fin 3) (f : LinkPort → LinkPort) (cc : BayNo) : ((State.modPortL s b p f).bay cc).mco = (s.bay cc).mco :=
  State.bay_modBay_same (·.mco) s b cc _ fun _ => rfl
@[simp] theorem State.modPortL_bay_scn (s : State) (b : BayNo) (p : Fin 3) (f : LinkPort → LinkPort) (cc : BayNo) : ((State.modPortL s b p f).bay cc).scn = (s.bay cc).scn :=
  State.bay_modBay_same (·.scn) s b cc _ fun _ => rfl
@[simp] theorem State.modPortL_bay_recorder (s : State) (b : BayNo) (p : Fin 3) (f : LinkPort → LinkPort) (cc : BayNo) : ((State.modPortL s b p f).bay cc).recorder = (s.bay cc).recorder :=
  State.bay_modBay_same (·.recorder) s b cc _ fun _ => rfl
@[simp] theorem State.modPortL_bay_lne (s : State) (b : BayNo) (p : Fin 3) (f : LinkPort → LinkPort) (cc : BayNo) : ((State.modPortL s b p f).bay cc).lne = (s.bay cc).lne :=
  State.bay_modBay_same (·.lne) s b cc _ fun _ => rfl
@[simp] theorem State.modPortL_bay_pci (s : State) (b : BayNo) (p : Fin 3) (f : LinkPort → LinkPort) (cc : BayNo) : ((State.modPortL s b p f).bay cc).pci = (s.bay cc).pci :=
  State.bay_modBay_same (·.pci) s b cc _ fun _ => rfl
@[simp] theorem State.modPortL_bay_eth (s : State) (b : BayNo) (p : Fin 3) (f : LinkPort → LinkPort) (cc : BayNo) : ((State.modPortL s b p f).bay cc).eth = (s.bay cc).eth :=
  State.bay_modBay_same (·.eth) s b cc _ fun _ => rfl
@[simp] theorem State.modPortL_bay_jes (s : State) (b : BayNo) (p : Fin 3) (f : LinkPort → LinkPort) (cc : BayNo) : ((State.modPortL s b p f).bay cc).jes = (s.bay cc).jes :=
  State.bay_modBay_same (·.jes) s b cc _ fun _ => rfl
@[simp] theorem State.modPortL_bay_cal (s : State) (b : BayNo) (p : Fin 3) (f : LinkPort → LinkPort) (cc : BayNo) : ((State.modPortL s b p f).bay cc).cal = (s.bay cc).cal :=
  State.bay_modBay_same (·.cal) s b cc _ fun _ => rfl
@[simp] theorem State.modPortL_bay_hkc (s : State) (b : BayNo) (p : Fin 3) (f : LinkPort → LinkPort) (cc : BayNo) : ((State.modPortL s b p f).bay cc).hkc = (s.bay cc).hkc :=
  State.bay_modBay_same (·.hkc) s b cc _ fun _ => rfl
@[simp] theorem State.modPortL_bay_aux (s : State) (b : BayNo) (p : Fin 3) (f : LinkPort → LinkPort) (cc : BayNo) : ((State.modPortL s b p f).bay cc).aux = (s.bay cc).aux :=
  State.bay_modBay_same (·.aux) s b cc _ fun _ => rfl
@[simp] theorem State.modPortL_bay_mon (s : State) (b : BayNo) (p : Fin 3) (f : LinkPort → LinkPort) (cc : BayNo) : ((State.modPortL s b p f).bay cc).mon = (s.bay cc).mon :=
  State.bay_modBay_same (·.mon) s b cc _ fun _ => rfl
@[simp] theorem State.modPortL_bay_jtag (s : State) (b : BayNo) (p : Fin 3) (f : LinkPort → LinkPort) (cc : BayNo) : ((State.modPortL s b p f).bay cc).jtag = (s.bay cc).jtag :=
  State.bay_modBay_same (·.jtag) s b cc _ fun _ => rfl
@[simp] theorem State.modPortL_nowAt (s : State) (b : BayNo) (p : Fin 3) (f : LinkPort → LinkPort) (cc : BayNo) : (State.modPortL s b p f).nowAt cc = s.nowAt cc :=
  congrArg (fun t : TbsBay => Tide.stamp t.tide) (State.modPortL_bay_tbs s b p f cc)
@[simp] theorem State.modPortL_now (s : State) (b : BayNo) (p : Fin 3) (f : LinkPort → LinkPort) : (State.modPortL s b p f).now = s.now := State.modPortL_nowAt s b p f 0
@[simp] theorem State.modPortL_alive (s : State) (b : BayNo) (p : Fin 3) (f : LinkPort → LinkPort) (cc : BayNo) : (State.modPortL s b p f).alive cc = s.alive cc :=
  State.alive_congr cc rfl rfl (State.modPortL_bay_lost s b p f cc)
@[simp] theorem State.modPortL_liveBays (s : State) (b : BayNo) (p : Fin 3) (f : LinkPort → LinkPort) : (State.modPortL s b p f).liveBays = s.liveBays :=
  State.liveBays_congr (State.modPortL_alive s b p f)

@[simp] theorem State.modQueue_part (s : State) (b : BayNo) (i : Fin 16) (f : Queue → Queue) : (State.modQueue s b i f).part = s.part := (rfl)
@[simp] theorem State.modQueue_vals (s : State) (b : BayNo) (i : Fin 16) (f : Queue → Queue) : (State.modQueue s b i f).vals = s.vals := (rfl)
@[simp] theorem State.modQueue_img (s : State) (b : BayNo) (i : Fin 16) (f : Queue → Queue) : (State.modQueue s b i f).img = s.img := (rfl)
@[simp] theorem State.modQueue_flash (s : State) (b : BayNo) (i : Fin 16) (f : Queue → Queue) : (State.modQueue s b i f).flash = s.flash := (rfl)
@[simp] theorem State.modQueue_tbs (s : State) (b : BayNo) (i : Fin 16) (f : Queue → Queue) : (State.modQueue s b i f).tbs = s.tbs := (rfl)
@[simp] theorem State.modQueue_sel (s : State) (b : BayNo) (i : Fin 16) (f : Queue → Queue) : (State.modQueue s b i f).sel = s.sel := (rfl)
@[simp] theorem State.modQueue_keeper (s : State) (b : BayNo) (i : Fin 16) (f : Queue → Queue) : (State.modQueue s b i f).keeper = s.keeper := (rfl)
@[simp] theorem State.modQueue_pwr (s : State) (b : BayNo) (i : Fin 16) (f : Queue → Queue) : (State.modQueue s b i f).pwr = s.pwr := (rfl)
@[simp] theorem State.modQueue_faults (s : State) (b : BayNo) (i : Fin 16) (f : Queue → Queue) : (State.modQueue s b i f).faults = s.faults := (rfl)
@[simp] theorem State.modQueue_trg (s : State) (b : BayNo) (i : Fin 16) (f : Queue → Queue) : (State.modQueue s b i f).trg = s.trg := (rfl)
@[simp] theorem State.modQueue_ident (s : State) (b : BayNo) (i : Fin 16) (f : Queue → Queue) : (State.modQueue s b i f).ident = s.ident := (rfl)
@[simp] theorem State.modQueue_eth (s : State) (b : BayNo) (i : Fin 16) (f : Queue → Queue) : (State.modQueue s b i f).eth = s.eth := (rfl)
@[simp] theorem State.modQueue_lnl (s : State) (b : BayNo) (i : Fin 16) (f : Queue → Queue) : (State.modQueue s b i f).lnl = s.lnl := (rfl)
@[simp] theorem State.modQueue_inj (s : State) (b : BayNo) (i : Fin 16) (f : Queue → Queue) : (State.modQueue s b i f).inj = s.inj := (rfl)
@[simp] theorem State.modQueue_clrPin (s : State) (b : BayNo) (i : Fin 16) (f : Queue → Queue) : (State.modQueue s b i f).clrPin = s.clrPin := (rfl)
@[simp] theorem State.modQueue_rstLow (s : State) (b : BayNo) (i : Fin 16) (f : Queue → Queue) : (State.modQueue s b i f).rstLow = s.rstLow := (rfl)
@[simp] theorem State.modQueue_fresh (s : State) (b : BayNo) (i : Fin 16) (f : Queue → Queue) : (State.modQueue s b i f).fresh = s.fresh := (rfl)
@[simp] theorem State.modQueue_outbox (s : State) (b : BayNo) (i : Fin 16) (f : Queue → Queue) : (State.modQueue s b i f).outbox = s.outbox := (rfl)
@[simp] theorem State.modQueue_pending (s : State) (b : BayNo) (i : Fin 16) (f : Queue → Queue) : (State.modQueue s b i f).pending = s.pending := (rfl)
@[simp] theorem State.modQueue_fld (s : State) (b : BayNo) (i : Fin 16) (f : Queue → Queue) (g : Field) (cc : BayNo) (j1 k1 : Nat) : (State.modQueue s b i f).fld g cc j1 k1 = s.fld g cc j1 k1 := (rfl)
@[simp] theorem State.modQueue_fldN (s : State) (b : BayNo) (i : Fin 16) (f : Queue → Queue) (g : Field) (cc : BayNo) (j1 k1 : Nat) : (State.modQueue s b i f).fldN g cc j1 k1 = s.fldN g cc j1 k1 := (rfl)
@[simp] theorem State.modQueue_fldB (s : State) (b : BayNo) (i : Fin 16) (f : Queue → Queue) (g : Field) (cc : BayNo) (j1 : Nat) : (State.modQueue s b i f).fldB g cc j1 = s.fldB g cc j1 := (rfl)
@[simp] theorem State.modQueue_pkgN (s : State) (b : BayNo) (i : Fin 16) (f : Queue → Queue) (g : Field) (j1 : Nat) : (State.modQueue s b i f).pkgN g j1 = s.pkgN g j1 := (rfl)
@[simp] theorem State.modQueue_bay_lost (s : State) (b : BayNo) (i : Fin 16) (f : Queue → Queue) (cc : BayNo) : ((State.modQueue s b i f).bay cc).lost = (s.bay cc).lost :=
  State.bay_modBay_same (·.lost) s b cc _ fun _ => rfl
@[simp] theorem State.modQueue_bay_clk (s : State) (b : BayNo) (i : Fin 16) (f : Queue → Queue) (cc : BayNo) : ((State.modQueue s b i f).bay cc).clk = (s.bay cc).clk :=
  State.bay_modBay_same (·.clk) s b cc _ fun _ => rfl
@[simp] theorem State.modQueue_bay_tbs (s : State) (b : BayNo) (i : Fin 16) (f : Queue → Queue) (cc : BayNo) : ((State.modQueue s b i f).bay cc).tbs = (s.bay cc).tbs :=
  State.bay_modBay_same (·.tbs) s b cc _ fun _ => rfl
@[simp] theorem State.modQueue_bay_dma (s : State) (b : BayNo) (i : Fin 16) (f : Queue → Queue) (cc : BayNo) : ((State.modQueue s b i f).bay cc).dma = (s.bay cc).dma :=
  State.bay_modBay_same (·.dma) s b cc _ fun _ => rfl
@[simp] theorem State.modQueue_bay_pwr (s : State) (b : BayNo) (i : Fin 16) (f : Queue → Queue) (cc : BayNo) : ((State.modQueue s b i f).bay cc).pwr = (s.bay cc).pwr :=
  State.bay_modBay_same (·.pwr) s b cc _ fun _ => rfl
@[simp] theorem State.modQueue_bay_trg (s : State) (b : BayNo) (i : Fin 16) (f : Queue → Queue) (cc : BayNo) : ((State.modQueue s b i f).bay cc).trg = (s.bay cc).trg :=
  State.bay_modBay_same (·.trg) s b cc _ fun _ => rfl
@[simp] theorem State.modQueue_bay_afe (s : State) (b : BayNo) (i : Fin 16) (f : Queue → Queue) (cc : BayNo) : ((State.modQueue s b i f).bay cc).afe = (s.bay cc).afe :=
  State.bay_modBay_same (·.afe) s b cc _ fun _ => rfl
@[simp] theorem State.modQueue_bay_adc (s : State) (b : BayNo) (i : Fin 16) (f : Queue → Queue) (cc : BayNo) : ((State.modQueue s b i f).bay cc).adc = (s.bay cc).adc :=
  State.bay_modBay_same (·.adc) s b cc _ fun _ => rfl
@[simp] theorem State.modQueue_bay_ddc (s : State) (b : BayNo) (i : Fin 16) (f : Queue → Queue) (cc : BayNo) : ((State.modQueue s b i f).bay cc).ddc = (s.bay cc).ddc :=
  State.bay_modBay_same (·.ddc) s b cc _ fun _ => rfl
@[simp] theorem State.modQueue_bay_xfm (s : State) (b : BayNo) (i : Fin 16) (f : Queue → Queue) (cc : BayNo) : ((State.modQueue s b i f).bay cc).xfm = (s.bay cc).xfm :=
  State.bay_modBay_same (·.xfm) s b cc _ fun _ => rfl
@[simp] theorem State.modQueue_bay_den (s : State) (b : BayNo) (i : Fin 16) (f : Queue → Queue) (cc : BayNo) : ((State.modQueue s b i f).bay cc).den = (s.bay cc).den :=
  State.bay_modBay_same (·.den) s b cc _ fun _ => rfl
@[simp] theorem State.modQueue_bay_mco (s : State) (b : BayNo) (i : Fin 16) (f : Queue → Queue) (cc : BayNo) : ((State.modQueue s b i f).bay cc).mco = (s.bay cc).mco :=
  State.bay_modBay_same (·.mco) s b cc _ fun _ => rfl
@[simp] theorem State.modQueue_bay_scn (s : State) (b : BayNo) (i : Fin 16) (f : Queue → Queue) (cc : BayNo) : ((State.modQueue s b i f).bay cc).scn = (s.bay cc).scn :=
  State.bay_modBay_same (·.scn) s b cc _ fun _ => rfl
@[simp] theorem State.modQueue_bay_recorder (s : State) (b : BayNo) (i : Fin 16) (f : Queue → Queue) (cc : BayNo) : ((State.modQueue s b i f).bay cc).recorder = (s.bay cc).recorder :=
  State.bay_modBay_same (·.recorder) s b cc _ fun _ => rfl
@[simp] theorem State.modQueue_bay_lne (s : State) (b : BayNo) (i : Fin 16) (f : Queue → Queue) (cc : BayNo) : ((State.modQueue s b i f).bay cc).lne = (s.bay cc).lne :=
  State.bay_modBay_same (·.lne) s b cc _ fun _ => rfl
@[simp] theorem State.modQueue_bay_pci (s : State) (b : BayNo) (i : Fin 16) (f : Queue → Queue) (cc : BayNo) : ((State.modQueue s b i f).bay cc).pci = (s.bay cc).pci :=
  State.bay_modBay_same (·.pci) s b cc _ fun _ => rfl
@[simp] theorem State.modQueue_bay_eth (s : State) (b : BayNo) (i : Fin 16) (f : Queue → Queue) (cc : BayNo) : ((State.modQueue s b i f).bay cc).eth = (s.bay cc).eth :=
  State.bay_modBay_same (·.eth) s b cc _ fun _ => rfl
@[simp] theorem State.modQueue_bay_jes (s : State) (b : BayNo) (i : Fin 16) (f : Queue → Queue) (cc : BayNo) : ((State.modQueue s b i f).bay cc).jes = (s.bay cc).jes :=
  State.bay_modBay_same (·.jes) s b cc _ fun _ => rfl
@[simp] theorem State.modQueue_bay_lnl (s : State) (b : BayNo) (i : Fin 16) (f : Queue → Queue) (cc : BayNo) : ((State.modQueue s b i f).bay cc).lnl = (s.bay cc).lnl :=
  State.bay_modBay_same (·.lnl) s b cc _ fun _ => rfl
@[simp] theorem State.modQueue_bay_cal (s : State) (b : BayNo) (i : Fin 16) (f : Queue → Queue) (cc : BayNo) : ((State.modQueue s b i f).bay cc).cal = (s.bay cc).cal :=
  State.bay_modBay_same (·.cal) s b cc _ fun _ => rfl
@[simp] theorem State.modQueue_bay_hkc (s : State) (b : BayNo) (i : Fin 16) (f : Queue → Queue) (cc : BayNo) : ((State.modQueue s b i f).bay cc).hkc = (s.bay cc).hkc :=
  State.bay_modBay_same (·.hkc) s b cc _ fun _ => rfl
@[simp] theorem State.modQueue_bay_aux (s : State) (b : BayNo) (i : Fin 16) (f : Queue → Queue) (cc : BayNo) : ((State.modQueue s b i f).bay cc).aux = (s.bay cc).aux :=
  State.bay_modBay_same (·.aux) s b cc _ fun _ => rfl
@[simp] theorem State.modQueue_bay_mon (s : State) (b : BayNo) (i : Fin 16) (f : Queue → Queue) (cc : BayNo) : ((State.modQueue s b i f).bay cc).mon = (s.bay cc).mon :=
  State.bay_modBay_same (·.mon) s b cc _ fun _ => rfl
@[simp] theorem State.modQueue_bay_jtag (s : State) (b : BayNo) (i : Fin 16) (f : Queue → Queue) (cc : BayNo) : ((State.modQueue s b i f).bay cc).jtag = (s.bay cc).jtag :=
  State.bay_modBay_same (·.jtag) s b cc _ fun _ => rfl
@[simp] theorem State.modQueue_nowAt (s : State) (b : BayNo) (i : Fin 16) (f : Queue → Queue) (cc : BayNo) : (State.modQueue s b i f).nowAt cc = s.nowAt cc :=
  congrArg (fun t : TbsBay => Tide.stamp t.tide) (State.modQueue_bay_tbs s b i f cc)
@[simp] theorem State.modQueue_now (s : State) (b : BayNo) (i : Fin 16) (f : Queue → Queue) : (State.modQueue s b i f).now = s.now := State.modQueue_nowAt s b i f 0
@[simp] theorem State.modQueue_alive (s : State) (b : BayNo) (i : Fin 16) (f : Queue → Queue) (cc : BayNo) : (State.modQueue s b i f).alive cc = s.alive cc :=
  State.alive_congr cc rfl rfl (State.modQueue_bay_lost s b i f cc)
@[simp] theorem State.modQueue_liveBays (s : State) (b : BayNo) (i : Fin 16) (f : Queue → Queue) : (State.modQueue s b i f).liveBays = s.liveBays :=
  State.liveBays_congr (State.modQueue_alive s b i f)
@[simp] theorem State.modQueue_bay_que_self (s : State) (b : BayNo) (i : Fin 16) (f : Queue → Queue) : ((State.modQueue s b i f).bay b).que = { (s.bay b).que with queues := (s.bay b).que.queues.set i (f (s.bay b).que.queues[i]) } :=
  congrArg (fun y : Bay => y.que) (State.bay_modBay s b _)
theorem State.modQueue_bay_que_ne (s : State) (b : BayNo) (i : Fin 16) (f : Queue → Queue) {cc : BayNo} (h : cc ≠ b) : ((State.modQueue s b i f).bay cc).que = (s.bay cc).que :=
  congrArg (fun y : Bay => y.que) (State.bay_modBay_ne s _ h)

@[simp] theorem State.modTap_part (s : State) (b : BayNo) (c : CoreNo) (f : Tap → Tap) : (State.modTap s b c f).part = s.part := (rfl)
@[simp] theorem State.modTap_vals (s : State) (b : BayNo) (c : CoreNo) (f : Tap → Tap) : (State.modTap s b c f).vals = s.vals := (rfl)
@[simp] theorem State.modTap_img (s : State) (b : BayNo) (c : CoreNo) (f : Tap → Tap) : (State.modTap s b c f).img = s.img := (rfl)
@[simp] theorem State.modTap_flash (s : State) (b : BayNo) (c : CoreNo) (f : Tap → Tap) : (State.modTap s b c f).flash = s.flash := (rfl)
@[simp] theorem State.modTap_tbs (s : State) (b : BayNo) (c : CoreNo) (f : Tap → Tap) : (State.modTap s b c f).tbs = s.tbs := (rfl)
@[simp] theorem State.modTap_sel (s : State) (b : BayNo) (c : CoreNo) (f : Tap → Tap) : (State.modTap s b c f).sel = s.sel := (rfl)
@[simp] theorem State.modTap_keeper (s : State) (b : BayNo) (c : CoreNo) (f : Tap → Tap) : (State.modTap s b c f).keeper = s.keeper := (rfl)
@[simp] theorem State.modTap_pwr (s : State) (b : BayNo) (c : CoreNo) (f : Tap → Tap) : (State.modTap s b c f).pwr = s.pwr := (rfl)
@[simp] theorem State.modTap_faults (s : State) (b : BayNo) (c : CoreNo) (f : Tap → Tap) : (State.modTap s b c f).faults = s.faults := (rfl)
@[simp] theorem State.modTap_trg (s : State) (b : BayNo) (c : CoreNo) (f : Tap → Tap) : (State.modTap s b c f).trg = s.trg := (rfl)
@[simp] theorem State.modTap_ident (s : State) (b : BayNo) (c : CoreNo) (f : Tap → Tap) : (State.modTap s b c f).ident = s.ident := (rfl)
@[simp] theorem State.modTap_eth (s : State) (b : BayNo) (c : CoreNo) (f : Tap → Tap) : (State.modTap s b c f).eth = s.eth := (rfl)
@[simp] theorem State.modTap_lnl (s : State) (b : BayNo) (c : CoreNo) (f : Tap → Tap) : (State.modTap s b c f).lnl = s.lnl := (rfl)
@[simp] theorem State.modTap_inj (s : State) (b : BayNo) (c : CoreNo) (f : Tap → Tap) : (State.modTap s b c f).inj = s.inj := (rfl)
@[simp] theorem State.modTap_clrPin (s : State) (b : BayNo) (c : CoreNo) (f : Tap → Tap) : (State.modTap s b c f).clrPin = s.clrPin := (rfl)
@[simp] theorem State.modTap_rstLow (s : State) (b : BayNo) (c : CoreNo) (f : Tap → Tap) : (State.modTap s b c f).rstLow = s.rstLow := (rfl)
@[simp] theorem State.modTap_fresh (s : State) (b : BayNo) (c : CoreNo) (f : Tap → Tap) : (State.modTap s b c f).fresh = s.fresh := (rfl)
@[simp] theorem State.modTap_outbox (s : State) (b : BayNo) (c : CoreNo) (f : Tap → Tap) : (State.modTap s b c f).outbox = s.outbox := (rfl)
@[simp] theorem State.modTap_pending (s : State) (b : BayNo) (c : CoreNo) (f : Tap → Tap) : (State.modTap s b c f).pending = s.pending := (rfl)
@[simp] theorem State.modTap_fld (s : State) (b : BayNo) (c : CoreNo) (f : Tap → Tap) (g : Field) (cc : BayNo) (j1 k1 : Nat) : (State.modTap s b c f).fld g cc j1 k1 = s.fld g cc j1 k1 := (rfl)
@[simp] theorem State.modTap_fldN (s : State) (b : BayNo) (c : CoreNo) (f : Tap → Tap) (g : Field) (cc : BayNo) (j1 k1 : Nat) : (State.modTap s b c f).fldN g cc j1 k1 = s.fldN g cc j1 k1 := (rfl)
@[simp] theorem State.modTap_fldB (s : State) (b : BayNo) (c : CoreNo) (f : Tap → Tap) (g : Field) (cc : BayNo) (j1 : Nat) : (State.modTap s b c f).fldB g cc j1 = s.fldB g cc j1 := (rfl)
@[simp] theorem State.modTap_pkgN (s : State) (b : BayNo) (c : CoreNo) (f : Tap → Tap) (g : Field) (j1 : Nat) : (State.modTap s b c f).pkgN g j1 = s.pkgN g j1 := (rfl)
@[simp] theorem State.modTap_bay_lost (s : State) (b : BayNo) (c : CoreNo) (f : Tap → Tap) (cc : BayNo) : ((State.modTap s b c f).bay cc).lost = (s.bay cc).lost :=
  State.bay_modBay_same (·.lost) s b cc _ fun _ => rfl
@[simp] theorem State.modTap_bay_clk (s : State) (b : BayNo) (c : CoreNo) (f : Tap → Tap) (cc : BayNo) : ((State.modTap s b c f).bay cc).clk = (s.bay cc).clk :=
  State.bay_modBay_same (·.clk) s b cc _ fun _ => rfl
@[simp] theorem State.modTap_bay_tbs (s : State) (b : BayNo) (c : CoreNo) (f : Tap → Tap) (cc : BayNo) : ((State.modTap s b c f).bay cc).tbs = (s.bay cc).tbs :=
  State.bay_modBay_same (·.tbs) s b cc _ fun _ => rfl
@[simp] theorem State.modTap_bay_que (s : State) (b : BayNo) (c : CoreNo) (f : Tap → Tap) (cc : BayNo) : ((State.modTap s b c f).bay cc).que = (s.bay cc).que :=
  State.bay_modBay_same (·.que) s b cc _ fun _ => rfl
@[simp] theorem State.modTap_bay_dma (s : State) (b : BayNo) (c : CoreNo) (f : Tap → Tap) (cc : BayNo) : ((State.modTap s b c f).bay cc).dma = (s.bay cc).dma :=
  State.bay_modBay_same (·.dma) s b cc _ fun _ => rfl
@[simp] theorem State.modTap_bay_pwr (s : State) (b : BayNo) (c : CoreNo) (f : Tap → Tap) (cc : BayNo) : ((State.modTap s b c f).bay cc).pwr = (s.bay cc).pwr :=
  State.bay_modBay_same (·.pwr) s b cc _ fun _ => rfl
@[simp] theorem State.modTap_bay_trg (s : State) (b : BayNo) (c : CoreNo) (f : Tap → Tap) (cc : BayNo) : ((State.modTap s b c f).bay cc).trg = (s.bay cc).trg :=
  State.bay_modBay_same (·.trg) s b cc _ fun _ => rfl
@[simp] theorem State.modTap_bay_afe (s : State) (b : BayNo) (c : CoreNo) (f : Tap → Tap) (cc : BayNo) : ((State.modTap s b c f).bay cc).afe = (s.bay cc).afe :=
  State.bay_modBay_same (·.afe) s b cc _ fun _ => rfl
@[simp] theorem State.modTap_bay_adc (s : State) (b : BayNo) (c : CoreNo) (f : Tap → Tap) (cc : BayNo) : ((State.modTap s b c f).bay cc).adc = (s.bay cc).adc :=
  State.bay_modBay_same (·.adc) s b cc _ fun _ => rfl
@[simp] theorem State.modTap_bay_ddc (s : State) (b : BayNo) (c : CoreNo) (f : Tap → Tap) (cc : BayNo) : ((State.modTap s b c f).bay cc).ddc = (s.bay cc).ddc :=
  State.bay_modBay_same (·.ddc) s b cc _ fun _ => rfl
@[simp] theorem State.modTap_bay_den (s : State) (b : BayNo) (c : CoreNo) (f : Tap → Tap) (cc : BayNo) : ((State.modTap s b c f).bay cc).den = (s.bay cc).den :=
  State.bay_modBay_same (·.den) s b cc _ fun _ => rfl
@[simp] theorem State.modTap_bay_mco (s : State) (b : BayNo) (c : CoreNo) (f : Tap → Tap) (cc : BayNo) : ((State.modTap s b c f).bay cc).mco = (s.bay cc).mco :=
  State.bay_modBay_same (·.mco) s b cc _ fun _ => rfl
@[simp] theorem State.modTap_bay_scn (s : State) (b : BayNo) (c : CoreNo) (f : Tap → Tap) (cc : BayNo) : ((State.modTap s b c f).bay cc).scn = (s.bay cc).scn :=
  State.bay_modBay_same (·.scn) s b cc _ fun _ => rfl
@[simp] theorem State.modTap_bay_recorder (s : State) (b : BayNo) (c : CoreNo) (f : Tap → Tap) (cc : BayNo) : ((State.modTap s b c f).bay cc).recorder = (s.bay cc).recorder :=
  State.bay_modBay_same (·.recorder) s b cc _ fun _ => rfl
@[simp] theorem State.modTap_bay_lne (s : State) (b : BayNo) (c : CoreNo) (f : Tap → Tap) (cc : BayNo) : ((State.modTap s b c f).bay cc).lne = (s.bay cc).lne :=
  State.bay_modBay_same (·.lne) s b cc _ fun _ => rfl
@[simp] theorem State.modTap_bay_pci (s : State) (b : BayNo) (c : CoreNo) (f : Tap → Tap) (cc : BayNo) : ((State.modTap s b c f).bay cc).pci = (s.bay cc).pci :=
  State.bay_modBay_same (·.pci) s b cc _ fun _ => rfl
@[simp] theorem State.modTap_bay_eth (s : State) (b : BayNo) (c : CoreNo) (f : Tap → Tap) (cc : BayNo) : ((State.modTap s b c f).bay cc).eth = (s.bay cc).eth :=
  State.bay_modBay_same (·.eth) s b cc _ fun _ => rfl
@[simp] theorem State.modTap_bay_jes (s : State) (b : BayNo) (c : CoreNo) (f : Tap → Tap) (cc : BayNo) : ((State.modTap s b c f).bay cc).jes = (s.bay cc).jes :=
  State.bay_modBay_same (·.jes) s b cc _ fun _ => rfl
@[simp] theorem State.modTap_bay_lnl (s : State) (b : BayNo) (c : CoreNo) (f : Tap → Tap) (cc : BayNo) : ((State.modTap s b c f).bay cc).lnl = (s.bay cc).lnl :=
  State.bay_modBay_same (·.lnl) s b cc _ fun _ => rfl
@[simp] theorem State.modTap_bay_cal (s : State) (b : BayNo) (c : CoreNo) (f : Tap → Tap) (cc : BayNo) : ((State.modTap s b c f).bay cc).cal = (s.bay cc).cal :=
  State.bay_modBay_same (·.cal) s b cc _ fun _ => rfl
@[simp] theorem State.modTap_bay_hkc (s : State) (b : BayNo) (c : CoreNo) (f : Tap → Tap) (cc : BayNo) : ((State.modTap s b c f).bay cc).hkc = (s.bay cc).hkc :=
  State.bay_modBay_same (·.hkc) s b cc _ fun _ => rfl
@[simp] theorem State.modTap_bay_aux (s : State) (b : BayNo) (c : CoreNo) (f : Tap → Tap) (cc : BayNo) : ((State.modTap s b c f).bay cc).aux = (s.bay cc).aux :=
  State.bay_modBay_same (·.aux) s b cc _ fun _ => rfl
@[simp] theorem State.modTap_bay_mon (s : State) (b : BayNo) (c : CoreNo) (f : Tap → Tap) (cc : BayNo) : ((State.modTap s b c f).bay cc).mon = (s.bay cc).mon :=
  State.bay_modBay_same (·.mon) s b cc _ fun _ => rfl
@[simp] theorem State.modTap_bay_jtag (s : State) (b : BayNo) (c : CoreNo) (f : Tap → Tap) (cc : BayNo) : ((State.modTap s b c f).bay cc).jtag = (s.bay cc).jtag :=
  State.bay_modBay_same (·.jtag) s b cc _ fun _ => rfl
@[simp] theorem State.modTap_nowAt (s : State) (b : BayNo) (c : CoreNo) (f : Tap → Tap) (cc : BayNo) : (State.modTap s b c f).nowAt cc = s.nowAt cc :=
  congrArg (fun t : TbsBay => Tide.stamp t.tide) (State.modTap_bay_tbs s b c f cc)
@[simp] theorem State.modTap_now (s : State) (b : BayNo) (c : CoreNo) (f : Tap → Tap) : (State.modTap s b c f).now = s.now := State.modTap_nowAt s b c f 0
@[simp] theorem State.modTap_alive (s : State) (b : BayNo) (c : CoreNo) (f : Tap → Tap) (cc : BayNo) : (State.modTap s b c f).alive cc = s.alive cc :=
  State.alive_congr cc rfl rfl (State.modTap_bay_lost s b c f cc)
@[simp] theorem State.modTap_liveBays (s : State) (b : BayNo) (c : CoreNo) (f : Tap → Tap) : (State.modTap s b c f).liveBays = s.liveBays :=
  State.liveBays_congr (State.modTap_alive s b c f)
@[simp] theorem State.modTap_bay_xfm_self (s : State) (b : BayNo) (c : CoreNo) (f : Tap → Tap) : ((State.modTap s b c f).bay b).xfm = { (s.bay b).xfm with taps := (s.bay b).xfm.taps.set c (f (s.bay b).xfm.taps[c]) } :=
  congrArg (fun y : Bay => y.xfm) (State.bay_modBay s b _)
theorem State.modTap_bay_xfm_ne (s : State) (b : BayNo) (c : CoreNo) (f : Tap → Tap) {cc : BayNo} (h : cc ≠ b) : ((State.modTap s b c f).bay cc).xfm = (s.bay cc).xfm :=
  congrArg (fun y : Bay => y.xfm) (State.bay_modBay_ne s _ h)

@[simp] theorem State.modHkc_part (s : State) (b : BayNo) (f : HkcBay → HkcBay) : (State.modHkc s b f).part = s.part := (rfl)
@[simp] theorem State.modHkc_vals (s : State) (b : BayNo) (f : HkcBay → HkcBay) : (State.modHkc s b f).vals = s.vals := (rfl)
@[simp] theorem State.modHkc_img (s : State) (b : BayNo) (f : HkcBay → HkcBay) : (State.modHkc s b f).img = s.img := (rfl)
@[simp] theorem State.modHkc_flash (s : State) (b : BayNo) (f : HkcBay → HkcBay) : (State.modHkc s b f).flash = s.flash := (rfl)
@[simp] theorem State.modHkc_tbs (s : State) (b : BayNo) (f : HkcBay → HkcBay) : (State.modHkc s b f).tbs = s.tbs := (rfl)
@[simp] theorem State.modHkc_sel (s : State) (b : BayNo) (f : HkcBay → HkcBay) : (State.modHkc s b f).sel = s.sel := (rfl)
@[simp] theorem State.modHkc_keeper (s : State) (b : BayNo) (f : HkcBay → HkcBay) : (State.modHkc s b f).keeper = s.keeper := (rfl)
@[simp] theorem State.modHkc_pwr (s : State) (b : BayNo) (f : HkcBay → HkcBay) : (State.modHkc s b f).pwr = s.pwr := (rfl)
@[simp] theorem State.modHkc_faults (s : State) (b : BayNo) (f : HkcBay → HkcBay) : (State.modHkc s b f).faults = s.faults := (rfl)
@[simp] theorem State.modHkc_trg (s : State) (b : BayNo) (f : HkcBay → HkcBay) : (State.modHkc s b f).trg = s.trg := (rfl)
@[simp] theorem State.modHkc_ident (s : State) (b : BayNo) (f : HkcBay → HkcBay) : (State.modHkc s b f).ident = s.ident := (rfl)
@[simp] theorem State.modHkc_eth (s : State) (b : BayNo) (f : HkcBay → HkcBay) : (State.modHkc s b f).eth = s.eth := (rfl)
@[simp] theorem State.modHkc_lnl (s : State) (b : BayNo) (f : HkcBay → HkcBay) : (State.modHkc s b f).lnl = s.lnl := (rfl)
@[simp] theorem State.modHkc_inj (s : State) (b : BayNo) (f : HkcBay → HkcBay) : (State.modHkc s b f).inj = s.inj := (rfl)
@[simp] theorem State.modHkc_clrPin (s : State) (b : BayNo) (f : HkcBay → HkcBay) : (State.modHkc s b f).clrPin = s.clrPin := (rfl)
@[simp] theorem State.modHkc_rstLow (s : State) (b : BayNo) (f : HkcBay → HkcBay) : (State.modHkc s b f).rstLow = s.rstLow := (rfl)
@[simp] theorem State.modHkc_fresh (s : State) (b : BayNo) (f : HkcBay → HkcBay) : (State.modHkc s b f).fresh = s.fresh := (rfl)
@[simp] theorem State.modHkc_outbox (s : State) (b : BayNo) (f : HkcBay → HkcBay) : (State.modHkc s b f).outbox = s.outbox := (rfl)
@[simp] theorem State.modHkc_pending (s : State) (b : BayNo) (f : HkcBay → HkcBay) : (State.modHkc s b f).pending = s.pending := (rfl)
@[simp] theorem State.modHkc_fld (s : State) (b : BayNo) (f : HkcBay → HkcBay) (g : Field) (cc : BayNo) (j1 k1 : Nat) : (State.modHkc s b f).fld g cc j1 k1 = s.fld g cc j1 k1 := (rfl)
@[simp] theorem State.modHkc_fldN (s : State) (b : BayNo) (f : HkcBay → HkcBay) (g : Field) (cc : BayNo) (j1 k1 : Nat) : (State.modHkc s b f).fldN g cc j1 k1 = s.fldN g cc j1 k1 := (rfl)
@[simp] theorem State.modHkc_fldB (s : State) (b : BayNo) (f : HkcBay → HkcBay) (g : Field) (cc : BayNo) (j1 : Nat) : (State.modHkc s b f).fldB g cc j1 = s.fldB g cc j1 := (rfl)
@[simp] theorem State.modHkc_pkgN (s : State) (b : BayNo) (f : HkcBay → HkcBay) (g : Field) (j1 : Nat) : (State.modHkc s b f).pkgN g j1 = s.pkgN g j1 := (rfl)
@[simp] theorem State.modHkc_bay_lost (s : State) (b : BayNo) (f : HkcBay → HkcBay) (cc : BayNo) : ((State.modHkc s b f).bay cc).lost = (s.bay cc).lost :=
  State.bay_modBay_same (·.lost) s b cc _ fun _ => rfl
@[simp] theorem State.modHkc_bay_clk (s : State) (b : BayNo) (f : HkcBay → HkcBay) (cc : BayNo) : ((State.modHkc s b f).bay cc).clk = (s.bay cc).clk :=
  State.bay_modBay_same (·.clk) s b cc _ fun _ => rfl
@[simp] theorem State.modHkc_bay_tbs (s : State) (b : BayNo) (f : HkcBay → HkcBay) (cc : BayNo) : ((State.modHkc s b f).bay cc).tbs = (s.bay cc).tbs :=
  State.bay_modBay_same (·.tbs) s b cc _ fun _ => rfl
@[simp] theorem State.modHkc_bay_que (s : State) (b : BayNo) (f : HkcBay → HkcBay) (cc : BayNo) : ((State.modHkc s b f).bay cc).que = (s.bay cc).que :=
  State.bay_modBay_same (·.que) s b cc _ fun _ => rfl
@[simp] theorem State.modHkc_bay_dma (s : State) (b : BayNo) (f : HkcBay → HkcBay) (cc : BayNo) : ((State.modHkc s b f).bay cc).dma = (s.bay cc).dma :=
  State.bay_modBay_same (·.dma) s b cc _ fun _ => rfl
@[simp] theorem State.modHkc_bay_pwr (s : State) (b : BayNo) (f : HkcBay → HkcBay) (cc : BayNo) : ((State.modHkc s b f).bay cc).pwr = (s.bay cc).pwr :=
  State.bay_modBay_same (·.pwr) s b cc _ fun _ => rfl
@[simp] theorem State.modHkc_bay_trg (s : State) (b : BayNo) (f : HkcBay → HkcBay) (cc : BayNo) : ((State.modHkc s b f).bay cc).trg = (s.bay cc).trg :=
  State.bay_modBay_same (·.trg) s b cc _ fun _ => rfl
@[simp] theorem State.modHkc_bay_afe (s : State) (b : BayNo) (f : HkcBay → HkcBay) (cc : BayNo) : ((State.modHkc s b f).bay cc).afe = (s.bay cc).afe :=
  State.bay_modBay_same (·.afe) s b cc _ fun _ => rfl
@[simp] theorem State.modHkc_bay_adc (s : State) (b : BayNo) (f : HkcBay → HkcBay) (cc : BayNo) : ((State.modHkc s b f).bay cc).adc = (s.bay cc).adc :=
  State.bay_modBay_same (·.adc) s b cc _ fun _ => rfl
@[simp] theorem State.modHkc_bay_ddc (s : State) (b : BayNo) (f : HkcBay → HkcBay) (cc : BayNo) : ((State.modHkc s b f).bay cc).ddc = (s.bay cc).ddc :=
  State.bay_modBay_same (·.ddc) s b cc _ fun _ => rfl
@[simp] theorem State.modHkc_bay_xfm (s : State) (b : BayNo) (f : HkcBay → HkcBay) (cc : BayNo) : ((State.modHkc s b f).bay cc).xfm = (s.bay cc).xfm :=
  State.bay_modBay_same (·.xfm) s b cc _ fun _ => rfl
@[simp] theorem State.modHkc_bay_den (s : State) (b : BayNo) (f : HkcBay → HkcBay) (cc : BayNo) : ((State.modHkc s b f).bay cc).den = (s.bay cc).den :=
  State.bay_modBay_same (·.den) s b cc _ fun _ => rfl
@[simp] theorem State.modHkc_bay_mco (s : State) (b : BayNo) (f : HkcBay → HkcBay) (cc : BayNo) : ((State.modHkc s b f).bay cc).mco = (s.bay cc).mco :=
  State.bay_modBay_same (·.mco) s b cc _ fun _ => rfl
@[simp] theorem State.modHkc_bay_scn (s : State) (b : BayNo) (f : HkcBay → HkcBay) (cc : BayNo) : ((State.modHkc s b f).bay cc).scn = (s.bay cc).scn :=
  State.bay_modBay_same (·.scn) s b cc _ fun _ => rfl
@[simp] theorem State.modHkc_bay_recorder (s : State) (b : BayNo) (f : HkcBay → HkcBay) (cc : BayNo) : ((State.modHkc s b f).bay cc).recorder = (s.bay cc).recorder :=
  State.bay_modBay_same (·.recorder) s b cc _ fun _ => rfl
@[simp] theorem State.modHkc_bay_lne (s : State) (b : BayNo) (f : HkcBay → HkcBay) (cc : BayNo) : ((State.modHkc s b f).bay cc).lne = (s.bay cc).lne :=
  State.bay_modBay_same (·.lne) s b cc _ fun _ => rfl
@[simp] theorem State.modHkc_bay_pci (s : State) (b : BayNo) (f : HkcBay → HkcBay) (cc : BayNo) : ((State.modHkc s b f).bay cc).pci = (s.bay cc).pci :=
  State.bay_modBay_same (·.pci) s b cc _ fun _ => rfl
@[simp] theorem State.modHkc_bay_eth (s : State) (b : BayNo) (f : HkcBay → HkcBay) (cc : BayNo) : ((State.modHkc s b f).bay cc).eth = (s.bay cc).eth :=
  State.bay_modBay_same (·.eth) s b cc _ fun _ => rfl
@[simp] theorem State.modHkc_bay_jes (s : State) (b : BayNo) (f : HkcBay → HkcBay) (cc : BayNo) : ((State.modHkc s b f).bay cc).jes = (s.bay cc).jes :=
  State.bay_modBay_same (·.jes) s b cc _ fun _ => rfl
@[simp] theorem State.modHkc_bay_lnl (s : State) (b : BayNo) (f : HkcBay → HkcBay) (cc : BayNo) : ((State.modHkc s b f).bay cc).lnl = (s.bay cc).lnl :=
  State.bay_modBay_same (·.lnl) s b cc _ fun _ => rfl
@[simp] theorem State.modHkc_bay_cal (s : State) (b : BayNo) (f : HkcBay → HkcBay) (cc : BayNo) : ((State.modHkc s b f).bay cc).cal = (s.bay cc).cal :=
  State.bay_modBay_same (·.cal) s b cc _ fun _ => rfl
@[simp] theorem State.modHkc_bay_aux (s : State) (b : BayNo) (f : HkcBay → HkcBay) (cc : BayNo) : ((State.modHkc s b f).bay cc).aux = (s.bay cc).aux :=
  State.bay_modBay_same (·.aux) s b cc _ fun _ => rfl
@[simp] theorem State.modHkc_bay_mon (s : State) (b : BayNo) (f : HkcBay → HkcBay) (cc : BayNo) : ((State.modHkc s b f).bay cc).mon = (s.bay cc).mon :=
  State.bay_modBay_same (·.mon) s b cc _ fun _ => rfl
@[simp] theorem State.modHkc_bay_jtag (s : State) (b : BayNo) (f : HkcBay → HkcBay) (cc : BayNo) : ((State.modHkc s b f).bay cc).jtag = (s.bay cc).jtag :=
  State.bay_modBay_same (·.jtag) s b cc _ fun _ => rfl
@[simp] theorem State.modHkc_nowAt (s : State) (b : BayNo) (f : HkcBay → HkcBay) (cc : BayNo) : (State.modHkc s b f).nowAt cc = s.nowAt cc :=
  congrArg (fun t : TbsBay => Tide.stamp t.tide) (State.modHkc_bay_tbs s b f cc)
@[simp] theorem State.modHkc_now (s : State) (b : BayNo) (f : HkcBay → HkcBay) : (State.modHkc s b f).now = s.now := State.modHkc_nowAt s b f 0
@[simp] theorem State.modHkc_alive (s : State) (b : BayNo) (f : HkcBay → HkcBay) (cc : BayNo) : (State.modHkc s b f).alive cc = s.alive cc :=
  State.alive_congr cc rfl rfl (State.modHkc_bay_lost s b f cc)
@[simp] theorem State.modHkc_liveBays (s : State) (b : BayNo) (f : HkcBay → HkcBay) : (State.modHkc s b f).liveBays = s.liveBays :=
  State.liveBays_congr (State.modHkc_alive s b f)
@[simp] theorem State.modHkc_bay_hkc_self (s : State) (b : BayNo) (f : HkcBay → HkcBay) : ((State.modHkc s b f).bay b).hkc = f (s.bay b).hkc :=
  congrArg (fun y : Bay => y.hkc) (State.bay_modBay s b _)
theorem State.modHkc_bay_hkc_ne (s : State) (b : BayNo) (f : HkcBay → HkcBay) {cc : BayNo} (h : cc ≠ b) : ((State.modHkc s b f).bay cc).hkc = (s.bay cc).hkc :=
  congrArg (fun y : Bay => y.hkc) (State.bay_modBay_ne s _ h)

@[simp] theorem State.modConv_part (s : State) (b : BayNo) (x : Fin 2) (f : HkConv → HkConv) : (State.modConv s b x f).part = s.part := (rfl)
@[simp] theorem State.modConv_vals (s : State) (b : BayNo) (x : Fin 2) (f : HkConv → HkConv) : (State.modConv s b x f).vals = s.vals := (rfl)
@[simp] theorem State.modConv_img (s : State) (b : BayNo) (x : Fin 2) (f : HkConv → HkConv) : (State.modConv s b x f).img = s.img := (rfl)
@[simp] theorem State.modConv_flash (s : State) (b : BayNo) (x : Fin 2) (f : HkConv → HkConv) : (State.modConv s b x f).flash = s.flash := (rfl)
@[simp] theorem State.modConv_tbs (s : State) (b : BayNo) (x : Fin 2) (f : HkConv → HkConv) : (State.modConv s b x f).tbs = s.tbs := (rfl)
@[simp] theorem State.modConv_sel (s : State) (b : BayNo) (x : Fin 2) (f : HkConv → HkConv) : (State.modConv s b x f).sel = s.sel := (rfl)
@[simp] theorem State.modConv_keeper (s : State) (b : BayNo) (x : Fin 2) (f : HkConv → HkConv) : (State.modConv s b x f).keeper = s.keeper := (rfl)
@[simp] theorem State.modConv_pwr (s : State) (b : BayNo) (x : Fin 2) (f : HkConv → HkConv) : (State.modConv s b x f).pwr = s.pwr := (rfl)
@[simp] theorem State.modConv_faults (s : State) (b : BayNo) (x : Fin 2) (f : HkConv → HkConv) : (State.modConv s b x f).faults = s.faults := (rfl)
@[simp] theorem State.modConv_trg (s : State) (b : BayNo) (x : Fin 2) (f : HkConv → HkConv) : (State.modConv s b x f).trg = s.trg := (rfl)
@[simp] theorem State.modConv_ident (s : State) (b : BayNo) (x : Fin 2) (f : HkConv → HkConv) : (State.modConv s b x f).ident = s.ident := (rfl)
@[simp] theorem State.modConv_eth (s : State) (b : BayNo) (x : Fin 2) (f : HkConv → HkConv) : (State.modConv s b x f).eth = s.eth := (rfl)
@[simp] theorem State.modConv_lnl (s : State) (b : BayNo) (x : Fin 2) (f : HkConv → HkConv) : (State.modConv s b x f).lnl = s.lnl := (rfl)
@[simp] theorem State.modConv_inj (s : State) (b : BayNo) (x : Fin 2) (f : HkConv → HkConv) : (State.modConv s b x f).inj = s.inj := (rfl)
@[simp] theorem State.modConv_clrPin (s : State) (b : BayNo) (x : Fin 2) (f : HkConv → HkConv) : (State.modConv s b x f).clrPin = s.clrPin := (rfl)
@[simp] theorem State.modConv_rstLow (s : State) (b : BayNo) (x : Fin 2) (f : HkConv → HkConv) : (State.modConv s b x f).rstLow = s.rstLow := (rfl)
@[simp] theorem State.modConv_fresh (s : State) (b : BayNo) (x : Fin 2) (f : HkConv → HkConv) : (State.modConv s b x f).fresh = s.fresh := (rfl)
@[simp] theorem State.modConv_outbox (s : State) (b : BayNo) (x : Fin 2) (f : HkConv → HkConv) : (State.modConv s b x f).outbox = s.outbox := (rfl)
@[simp] theorem State.modConv_pending (s : State) (b : BayNo) (x : Fin 2) (f : HkConv → HkConv) : (State.modConv s b x f).pending = s.pending := (rfl)
@[simp] theorem State.modConv_fld (s : State) (b : BayNo) (x : Fin 2) (f : HkConv → HkConv) (g : Field) (cc : BayNo) (j1 k1 : Nat) : (State.modConv s b x f).fld g cc j1 k1 = s.fld g cc j1 k1 := (rfl)
@[simp] theorem State.modConv_fldN (s : State) (b : BayNo) (x : Fin 2) (f : HkConv → HkConv) (g : Field) (cc : BayNo) (j1 k1 : Nat) : (State.modConv s b x f).fldN g cc j1 k1 = s.fldN g cc j1 k1 := (rfl)
@[simp] theorem State.modConv_fldB (s : State) (b : BayNo) (x : Fin 2) (f : HkConv → HkConv) (g : Field) (cc : BayNo) (j1 : Nat) : (State.modConv s b x f).fldB g cc j1 = s.fldB g cc j1 := (rfl)
@[simp] theorem State.modConv_pkgN (s : State) (b : BayNo) (x : Fin 2) (f : HkConv → HkConv) (g : Field) (j1 : Nat) : (State.modConv s b x f).pkgN g j1 = s.pkgN g j1 := (rfl)
@[simp] theorem State.modConv_bay_lost (s : State) (b : BayNo) (x : Fin 2) (f : HkConv → HkConv) (cc : BayNo) : ((State.modConv s b x f).bay cc).lost = (s.bay cc).lost :=
  State.bay_modBay_same (·.lost) s b cc _ fun _ => rfl
@[simp] theorem State.modConv_bay_clk (s : State) (b : BayNo) (x : Fin 2) (f : HkConv → HkConv) (cc : BayNo) : ((State.modConv s b x f).bay cc).clk = (s.bay cc).clk :=
  State.bay_modBay_same (·.clk) s b cc _ fun _ => rfl
@[simp] theorem State.modConv_bay_tbs (s : State) (b : BayNo) (x : Fin 2) (f : HkConv → HkConv) (cc : BayNo) : ((State.modConv s b x f).bay cc).tbs = (s.bay cc).tbs :=
  State.bay_modBay_same (·.tbs) s b cc _ fun _ => rfl
@[simp] theorem State.modConv_bay_que (s : State) (b : BayNo) (x : Fin 2) (f : HkConv → HkConv) (cc : BayNo) : ((State.modConv s b x f).bay cc).que = (s.bay cc).que :=
  State.bay_modBay_same (·.que) s b cc _ fun _ => rfl
@[simp] theorem State.modConv_bay_dma (s : State) (b : BayNo) (x : Fin 2) (f : HkConv → HkConv) (cc : BayNo) : ((State.modConv s b x f).bay cc).dma = (s.bay cc).dma :=
  State.bay_modBay_same (·.dma) s b cc _ fun _ => rfl
@[simp] theorem State.modConv_bay_pwr (s : State) (b : BayNo) (x : Fin 2) (f : HkConv → HkConv) (cc : BayNo) : ((State.modConv s b x f).bay cc).pwr = (s.bay cc).pwr :=
  State.bay_modBay_same (·.pwr) s b cc _ fun _ => rfl
@[simp] theorem State.modConv_bay_trg (s : State) (b : BayNo) (x : Fin 2) (f : HkConv → HkConv) (cc : BayNo) : ((State.modConv s b x f).bay cc).trg = (s.bay cc).trg :=
  State.bay_modBay_same (·.trg) s b cc _ fun _ => rfl
@[simp] theorem State.modConv_bay_afe (s : State) (b : BayNo) (x : Fin 2) (f : HkConv → HkConv) (cc : BayNo) : ((State.modConv s b x f).bay cc).afe = (s.bay cc).afe :=
  State.bay_modBay_same (·.afe) s b cc _ fun _ => rfl
@[simp] theorem State.modConv_bay_adc (s : State) (b : BayNo) (x : Fin 2) (f : HkConv → HkConv) (cc : BayNo) : ((State.modConv s b x f).bay cc).adc = (s.bay cc).adc :=
  State.bay_modBay_same (·.adc) s b cc _ fun _ => rfl
@[simp] theorem State.modConv_bay_ddc (s : State) (b : BayNo) (x : Fin 2) (f : HkConv → HkConv) (cc : BayNo) : ((State.modConv s b x f).bay cc).ddc = (s.bay cc).ddc :=
  State.bay_modBay_same (·.ddc) s b cc _ fun _ => rfl
@[simp] theorem State.modConv_bay_xfm (s : State) (b : BayNo) (x : Fin 2) (f : HkConv → HkConv) (cc : BayNo) : ((State.modConv s b x f).bay cc).xfm = (s.bay cc).xfm :=
  State.bay_modBay_same (·.xfm) s b cc _ fun _ => rfl
@[simp] theorem State.modConv_bay_den (s : State) (b : BayNo) (x : Fin 2) (f : HkConv → HkConv) (cc : BayNo) : ((State.modConv s b x f).bay cc).den = (s.bay cc).den :=
  State.bay_modBay_same (·.den) s b cc _ fun _ => rfl
@[simp] theorem State.modConv_bay_mco (s : State) (b : BayNo) (x : Fin 2) (f : HkConv → HkConv) (cc : BayNo) : ((State.modConv s b x f).bay cc).mco = (s.bay cc).mco :=
  State.bay_modBay_same (·.mco) s b cc _ fun _ => rfl
@[simp] theorem State.modConv_bay_scn (s : State) (b : BayNo) (x : Fin 2) (f : HkConv → HkConv) (cc : BayNo) : ((State.modConv s b x f).bay cc).scn = (s.bay cc).scn :=
  State.bay_modBay_same (·.scn) s b cc _ fun _ => rfl
@[simp] theorem State.modConv_bay_recorder (s : State) (b : BayNo) (x : Fin 2) (f : HkConv → HkConv) (cc : BayNo) : ((State.modConv s b x f).bay cc).recorder = (s.bay cc).recorder :=
  State.bay_modBay_same (·.recorder) s b cc _ fun _ => rfl
@[simp] theorem State.modConv_bay_lne (s : State) (b : BayNo) (x : Fin 2) (f : HkConv → HkConv) (cc : BayNo) : ((State.modConv s b x f).bay cc).lne = (s.bay cc).lne :=
  State.bay_modBay_same (·.lne) s b cc _ fun _ => rfl
@[simp] theorem State.modConv_bay_pci (s : State) (b : BayNo) (x : Fin 2) (f : HkConv → HkConv) (cc : BayNo) : ((State.modConv s b x f).bay cc).pci = (s.bay cc).pci :=
  State.bay_modBay_same (·.pci) s b cc _ fun _ => rfl
@[simp] theorem State.modConv_bay_eth (s : State) (b : BayNo) (x : Fin 2) (f : HkConv → HkConv) (cc : BayNo) : ((State.modConv s b x f).bay cc).eth = (s.bay cc).eth :=
  State.bay_modBay_same (·.eth) s b cc _ fun _ => rfl
@[simp] theorem State.modConv_bay_jes (s : State) (b : BayNo) (x : Fin 2) (f : HkConv → HkConv) (cc : BayNo) : ((State.modConv s b x f).bay cc).jes = (s.bay cc).jes :=
  State.bay_modBay_same (·.jes) s b cc _ fun _ => rfl
@[simp] theorem State.modConv_bay_lnl (s : State) (b : BayNo) (x : Fin 2) (f : HkConv → HkConv) (cc : BayNo) : ((State.modConv s b x f).bay cc).lnl = (s.bay cc).lnl :=
  State.bay_modBay_same (·.lnl) s b cc _ fun _ => rfl
@[simp] theorem State.modConv_bay_cal (s : State) (b : BayNo) (x : Fin 2) (f : HkConv → HkConv) (cc : BayNo) : ((State.modConv s b x f).bay cc).cal = (s.bay cc).cal :=
  State.bay_modBay_same (·.cal) s b cc _ fun _ => rfl
@[simp] theorem State.modConv_bay_aux (s : State) (b : BayNo) (x : Fin 2) (f : HkConv → HkConv) (cc : BayNo) : ((State.modConv s b x f).bay cc).aux = (s.bay cc).aux :=
  State.bay_modBay_same (·.aux) s b cc _ fun _ => rfl
@[simp] theorem State.modConv_bay_mon (s : State) (b : BayNo) (x : Fin 2) (f : HkConv → HkConv) (cc : BayNo) : ((State.modConv s b x f).bay cc).mon = (s.bay cc).mon :=
  State.bay_modBay_same (·.mon) s b cc _ fun _ => rfl
@[simp] theorem State.modConv_bay_jtag (s : State) (b : BayNo) (x : Fin 2) (f : HkConv → HkConv) (cc : BayNo) : ((State.modConv s b x f).bay cc).jtag = (s.bay cc).jtag :=
  State.bay_modBay_same (·.jtag) s b cc _ fun _ => rfl
@[simp] theorem State.modConv_nowAt (s : State) (b : BayNo) (x : Fin 2) (f : HkConv → HkConv) (cc : BayNo) : (State.modConv s b x f).nowAt cc = s.nowAt cc :=
  congrArg (fun t : TbsBay => Tide.stamp t.tide) (State.modConv_bay_tbs s b x f cc)
@[simp] theorem State.modConv_now (s : State) (b : BayNo) (x : Fin 2) (f : HkConv → HkConv) : (State.modConv s b x f).now = s.now := State.modConv_nowAt s b x f 0
@[simp] theorem State.modConv_alive (s : State) (b : BayNo) (x : Fin 2) (f : HkConv → HkConv) (cc : BayNo) : (State.modConv s b x f).alive cc = s.alive cc :=
  State.alive_congr cc rfl rfl (State.modConv_bay_lost s b x f cc)
@[simp] theorem State.modConv_liveBays (s : State) (b : BayNo) (x : Fin 2) (f : HkConv → HkConv) : (State.modConv s b x f).liveBays = s.liveBays :=
  State.liveBays_congr (State.modConv_alive s b x f)

@[simp] theorem State.modTbs_part (s : State) (b : BayNo) (f : TbsBay → TbsBay) : (State.modTbs s b f).part = s.part := (rfl)
@[simp] theorem State.modTbs_vals (s : State) (b : BayNo) (f : TbsBay → TbsBay) : (State.modTbs s b f).vals = s.vals := (rfl)
@[simp] theorem State.modTbs_img (s : State) (b : BayNo) (f : TbsBay → TbsBay) : (State.modTbs s b f).img = s.img := (rfl)
@[simp] theorem State.modTbs_flash (s : State) (b : BayNo) (f : TbsBay → TbsBay) : (State.modTbs s b f).flash = s.flash := (rfl)
@[simp] theorem State.modTbs_tbs (s : State) (b : BayNo) (f : TbsBay → TbsBay) : (State.modTbs s b f).tbs = s.tbs := (rfl)
@[simp] theorem State.modTbs_sel (s : State) (b : BayNo) (f : TbsBay → TbsBay) : (State.modTbs s b f).sel = s.sel := (rfl)
@[simp] theorem State.modTbs_keeper (s : State) (b : BayNo) (f : TbsBay → TbsBay) : (State.modTbs s b f).keeper = s.keeper := (rfl)
@[simp] theorem State.modTbs_pwr (s : State) (b : BayNo) (f : TbsBay → TbsBay) : (State.modTbs s b f).pwr = s.pwr := (rfl)
@[simp] theorem State.modTbs_faults (s : State) (b : BayNo) (f : TbsBay → TbsBay) : (State.modTbs s b f).faults = s.faults := (rfl)
@[simp] theorem State.modTbs_trg (s : State) (b : BayNo) (f : TbsBay → TbsBay) : (State.modTbs s b f).trg = s.trg := (rfl)
@[simp] theorem State.modTbs_ident (s : State) (b : BayNo) (f : TbsBay → TbsBay) : (State.modTbs s b f).ident = s.ident := (rfl)
@[simp] theorem State.modTbs_eth (s : State) (b : BayNo) (f : TbsBay → TbsBay) : (State.modTbs s b f).eth = s.eth := (rfl)
@[simp] theorem State.modTbs_lnl (s : State) (b : BayNo) (f : TbsBay → TbsBay) : (State.modTbs s b f).lnl = s.lnl := (rfl)
@[simp] theorem State.modTbs_inj (s : State) (b : BayNo) (f : TbsBay → TbsBay) : (State.modTbs s b f).inj = s.inj := (rfl)
@[simp] theorem State.modTbs_clrPin (s : State) (b : BayNo) (f : TbsBay → TbsBay) : (State.modTbs s b f).clrPin = s.clrPin := (rfl)
@[simp] theorem State.modTbs_rstLow (s : State) (b : BayNo) (f : TbsBay → TbsBay) : (State.modTbs s b f).rstLow = s.rstLow := (rfl)
@[simp] theorem State.modTbs_fresh (s : State) (b : BayNo) (f : TbsBay → TbsBay) : (State.modTbs s b f).fresh = s.fresh := (rfl)
@[simp] theorem State.modTbs_outbox (s : State) (b : BayNo) (f : TbsBay → TbsBay) : (State.modTbs s b f).outbox = s.outbox := (rfl)
@[simp] theorem State.modTbs_pending (s : State) (b : BayNo) (f : TbsBay → TbsBay) : (State.modTbs s b f).pending = s.pending := (rfl)
@[simp] theorem State.modTbs_fld (s : State) (b : BayNo) (f : TbsBay → TbsBay) (g : Field) (cc : BayNo) (j1 k1 : Nat) : (State.modTbs s b f).fld g cc j1 k1 = s.fld g cc j1 k1 := (rfl)
@[simp] theorem State.modTbs_fldN (s : State) (b : BayNo) (f : TbsBay → TbsBay) (g : Field) (cc : BayNo) (j1 k1 : Nat) : (State.modTbs s b f).fldN g cc j1 k1 = s.fldN g cc j1 k1 := (rfl)
@[simp] theorem State.modTbs_fldB (s : State) (b : BayNo) (f : TbsBay → TbsBay) (g : Field) (cc : BayNo) (j1 : Nat) : (State.modTbs s b f).fldB g cc j1 = s.fldB g cc j1 := (rfl)
@[simp] theorem State.modTbs_pkgN (s : State) (b : BayNo) (f : TbsBay → TbsBay) (g : Field) (j1 : Nat) : (State.modTbs s b f).pkgN g j1 = s.pkgN g j1 := (rfl)
@[simp] theorem State.modTbs_bay_lost (s : State) (b : BayNo) (f : TbsBay → TbsBay) (cc : BayNo) : ((State.modTbs s b f).bay cc).lost = (s.bay cc).lost :=
  State.bay_modBay_same (·.lost) s b cc _ fun _ => rfl
@[simp] theorem State.modTbs_bay_clk (s : State) (b : BayNo) (f : TbsBay → TbsBay) (cc : BayNo) : ((State.modTbs s b f).bay cc).clk = (s.bay cc).clk :=
  State.bay_modBay_same (·.clk) s b cc _ fun _ => rfl
@[simp] theorem State.modTbs_bay_que (s : State) (b : BayNo) (f : TbsBay → TbsBay) (cc : BayNo) : ((State.modTbs s b f).bay cc).que = (s.bay cc).que :=
  State.bay_modBay_same (·.que) s b cc _ fun _ => rfl
@[simp] theorem State.modTbs_bay_dma (s : State) (b : BayNo) (f : TbsBay → TbsBay) (cc : BayNo) : ((State.modTbs s b f).bay cc).dma = (s.bay cc).dma :=
  State.bay_modBay_same (·.dma) s b cc _ fun _ => rfl
@[simp] theorem State.modTbs_bay_pwr (s : State) (b : BayNo) (f : TbsBay → TbsBay) (cc : BayNo) : ((State.modTbs s b f).bay cc).pwr = (s.bay cc).pwr :=
  State.bay_modBay_same (·.pwr) s b cc _ fun _ => rfl
@[simp] theorem State.modTbs_bay_trg (s : State) (b : BayNo) (f : TbsBay → TbsBay) (cc : BayNo) : ((State.modTbs s b f).bay cc).trg = (s.bay cc).trg :=
  State.bay_modBay_same (·.trg) s b cc _ fun _ => rfl
@[simp] theorem State.modTbs_bay_afe (s : State) (b : BayNo) (f : TbsBay → TbsBay) (cc : BayNo) : ((State.modTbs s b f).bay cc).afe = (s.bay cc).afe :=
  State.bay_modBay_same (·.afe) s b cc _ fun _ => rfl
@[simp] theorem State.modTbs_bay_adc (s : State) (b : BayNo) (f : TbsBay → TbsBay) (cc : BayNo) : ((State.modTbs s b f).bay cc).adc = (s.bay cc).adc :=
  State.bay_modBay_same (·.adc) s b cc _ fun _ => rfl
@[simp] theorem State.modTbs_bay_ddc (s : State) (b : BayNo) (f : TbsBay → TbsBay) (cc : BayNo) : ((State.modTbs s b f).bay cc).ddc = (s.bay cc).ddc :=
  State.bay_modBay_same (·.ddc) s b cc _ fun _ => rfl
@[simp] theorem State.modTbs_bay_xfm (s : State) (b : BayNo) (f : TbsBay → TbsBay) (cc : BayNo) : ((State.modTbs s b f).bay cc).xfm = (s.bay cc).xfm :=
  State.bay_modBay_same (·.xfm) s b cc _ fun _ => rfl
@[simp] theorem State.modTbs_bay_den (s : State) (b : BayNo) (f : TbsBay → TbsBay) (cc : BayNo) : ((State.modTbs s b f).bay cc).den = (s.bay cc).den :=
  State.bay_modBay_same (·.den) s b cc _ fun _ => rfl
@[simp] theorem State.modTbs_bay_mco (s : State) (b : BayNo) (f : TbsBay → TbsBay) (cc : BayNo) : ((State.modTbs s b f).bay cc).mco = (s.bay cc).mco :=
  State.bay_modBay_same (·.mco) s b cc _ fun _ => rfl
@[simp] theorem State.modTbs_bay_scn (s : State) (b : BayNo) (f : TbsBay → TbsBay) (cc : BayNo) : ((State.modTbs s b f).bay cc).scn = (s.bay cc).scn :=
  State.bay_modBay_same (·.scn) s b cc _ fun _ => rfl
@[simp] theorem State.modTbs_bay_recorder (s : State) (b : BayNo) (f : TbsBay → TbsBay) (cc : BayNo) : ((State.modTbs s b f).bay cc).recorder = (s.bay cc).recorder :=
  State.bay_modBay_same (·.recorder) s b cc _ fun _ => rfl
@[simp] theorem State.modTbs_bay_lne (s : State) (b : BayNo) (f : TbsBay → TbsBay) (cc : BayNo) : ((State.modTbs s b f).bay cc).lne = (s.bay cc).lne :=
  State.bay_modBay_same (·.lne) s b cc _ fun _ => rfl
@[simp] theorem State.modTbs_bay_pci (s : State) (b : BayNo) (f : TbsBay → TbsBay) (cc : BayNo) : ((State.modTbs s b f).bay cc).pci = (s.bay cc).pci :=
  State.bay_modBay_same (·.pci) s b cc _ fun _ => rfl
@[simp] theorem State.modTbs_bay_eth (s : State) (b : BayNo) (f : TbsBay → TbsBay) (cc : BayNo) : ((State.modTbs s b f).bay cc).eth = (s.bay cc).eth :=
  State.bay_modBay_same (·.eth) s b cc _ fun _ => rfl
@[simp] theorem State.modTbs_bay_jes (s : State) (b : BayNo) (f : TbsBay → TbsBay) (cc : BayNo) : ((State.modTbs s b f).bay cc).jes = (s.bay cc).jes :=
  State.bay_modBay_same (·.jes) s b cc _ fun _ => rfl
@[simp] theorem State.modTbs_bay_lnl (s : State) (b : BayNo) (f : TbsBay → TbsBay) (cc : BayNo) : ((State.modTbs s b f).bay cc).lnl = (s.bay cc).lnl :=
  State.bay_modBay_same (·.lnl) s b cc _ fun _ => rfl
@[simp] theorem State.modTbs_bay_cal (s : State) (b : BayNo) (f : TbsBay → TbsBay) (cc : BayNo) : ((State.modTbs s b f).bay cc).cal = (s.bay cc).cal :=
  State.bay_modBay_same (·.cal) s b cc _ fun _ => rfl
@[simp] theorem State.modTbs_bay_hkc (s : State) (b : BayNo) (f : TbsBay → TbsBay) (cc : BayNo) : ((State.modTbs s b f).bay cc).hkc = (s.bay cc).hkc :=
  State.bay_modBay_same (·.hkc) s b cc _ fun _ => rfl
@[simp] theorem State.modTbs_bay_aux (s : State) (b : BayNo) (f : TbsBay → TbsBay) (cc : BayNo) : ((State.modTbs s b f).bay cc).aux = (s.bay cc).aux :=
  State.bay_modBay_same (·.aux) s b cc _ fun _ => rfl
@[simp] theorem State.modTbs_bay_mon (s : State) (b : BayNo) (f : TbsBay → TbsBay) (cc : BayNo) : ((State.modTbs s b f).bay cc).mon = (s.bay cc).mon :=
  State.bay_modBay_same (·.mon) s b cc _ fun _ => rfl
@[simp] theorem State.modTbs_bay_jtag (s : State) (b : BayNo) (f : TbsBay → TbsBay) (cc : BayNo) : ((State.modTbs s b f).bay cc).jtag = (s.bay cc).jtag :=
  State.bay_modBay_same (·.jtag) s b cc _ fun _ => rfl
@[simp] theorem State.modTbs_alive (s : State) (b : BayNo) (f : TbsBay → TbsBay) (cc : BayNo) : (State.modTbs s b f).alive cc = s.alive cc :=
  State.alive_congr cc rfl rfl (State.modTbs_bay_lost s b f cc)
@[simp] theorem State.modTbs_liveBays (s : State) (b : BayNo) (f : TbsBay → TbsBay) : (State.modTbs s b f).liveBays = s.liveBays :=
  State.liveBays_congr (State.modTbs_alive s b f)
@[simp] theorem State.modTbs_bay_tbs_self (s : State) (b : BayNo) (f : TbsBay → TbsBay) : ((State.modTbs s b f).bay b).tbs = f (s.bay b).tbs :=
  congrArg (fun y : Bay => y.tbs) (State.bay_modBay s b _)
theorem State.modTbs_bay_tbs_ne (s : State) (b : BayNo) (f : TbsBay → TbsBay) {cc : BayNo} (h : cc ≠ b) : ((State.modTbs s b f).bay cc).tbs = (s.bay cc).tbs :=
  congrArg (fun y : Bay => y.tbs) (State.bay_modBay_ne s _ h)

@[simp] theorem State.modDom_part (s : State) (b : BayNo) (f : PwrBay → PwrBay) : (State.modDom s b f).part = s.part := (rfl)
@[simp] theorem State.modDom_vals (s : State) (b : BayNo) (f : PwrBay → PwrBay) : (State.modDom s b f).vals = s.vals := (rfl)
@[simp] theorem State.modDom_img (s : State) (b : BayNo) (f : PwrBay → PwrBay) : (State.modDom s b f).img = s.img := (rfl)
@[simp] theorem State.modDom_flash (s : State) (b : BayNo) (f : PwrBay → PwrBay) : (State.modDom s b f).flash = s.flash := (rfl)
@[simp] theorem State.modDom_tbs (s : State) (b : BayNo) (f : PwrBay → PwrBay) : (State.modDom s b f).tbs = s.tbs := (rfl)
@[simp] theorem State.modDom_sel (s : State) (b : BayNo) (f : PwrBay → PwrBay) : (State.modDom s b f).sel = s.sel := (rfl)
@[simp] theorem State.modDom_keeper (s : State) (b : BayNo) (f : PwrBay → PwrBay) : (State.modDom s b f).keeper = s.keeper := (rfl)
@[simp] theorem State.modDom_pwr (s : State) (b : BayNo) (f : PwrBay → PwrBay) : (State.modDom s b f).pwr = s.pwr := (rfl)
@[simp] theorem State.modDom_faults (s : State) (b : BayNo) (f : PwrBay → PwrBay) : (State.modDom s b f).faults = s.faults := (rfl)
@[simp] theorem State.modDom_trg (s : State) (b : BayNo) (f : PwrBay → PwrBay) : (State.modDom s b f).trg = s.trg := (rfl)
@[simp] theorem State.modDom_ident (s : State) (b : BayNo) (f : PwrBay → PwrBay) : (State.modDom s b f).ident = s.ident := (rfl)
@[simp] theorem State.modDom_eth (s : State) (b : BayNo) (f : PwrBay → PwrBay) : (State.modDom s b f).eth = s.eth := (rfl)
@[simp] theorem State.modDom_lnl (s : State) (b : BayNo) (f : PwrBay → PwrBay) : (State.modDom s b f).lnl = s.lnl := (rfl)
@[simp] theorem State.modDom_inj (s : State) (b : BayNo) (f : PwrBay → PwrBay) : (State.modDom s b f).inj = s.inj := (rfl)
@[simp] theorem State.modDom_clrPin (s : State) (b : BayNo) (f : PwrBay → PwrBay) : (State.modDom s b f).clrPin = s.clrPin := (rfl)
@[simp] theorem State.modDom_rstLow (s : State) (b : BayNo) (f : PwrBay → PwrBay) : (State.modDom s b f).rstLow = s.rstLow := (rfl)
@[simp] theorem State.modDom_fresh (s : State) (b : BayNo) (f : PwrBay → PwrBay) : (State.modDom s b f).fresh = s.fresh := (rfl)
@[simp] theorem State.modDom_outbox (s : State) (b : BayNo) (f : PwrBay → PwrBay) : (State.modDom s b f).outbox = s.outbox := (rfl)
@[simp] theorem State.modDom_pending (s : State) (b : BayNo) (f : PwrBay → PwrBay) : (State.modDom s b f).pending = s.pending := (rfl)
@[simp] theorem State.modDom_fld (s : State) (b : BayNo) (f : PwrBay → PwrBay) (g : Field) (cc : BayNo) (j1 k1 : Nat) : (State.modDom s b f).fld g cc j1 k1 = s.fld g cc j1 k1 := (rfl)
@[simp] theorem State.modDom_fldN (s : State) (b : BayNo) (f : PwrBay → PwrBay) (g : Field) (cc : BayNo) (j1 k1 : Nat) : (State.modDom s b f).fldN g cc j1 k1 = s.fldN g cc j1 k1 := (rfl)
@[simp] theorem State.modDom_fldB (s : State) (b : BayNo) (f : PwrBay → PwrBay) (g : Field) (cc : BayNo) (j1 : Nat) : (State.modDom s b f).fldB g cc j1 = s.fldB g cc j1 := (rfl)
@[simp] theorem State.modDom_pkgN (s : State) (b : BayNo) (f : PwrBay → PwrBay) (g : Field) (j1 : Nat) : (State.modDom s b f).pkgN g j1 = s.pkgN g j1 := (rfl)
@[simp] theorem State.modDom_bay_lost (s : State) (b : BayNo) (f : PwrBay → PwrBay) (cc : BayNo) : ((State.modDom s b f).bay cc).lost = (s.bay cc).lost :=
  State.bay_modBay_same (·.lost) s b cc _ fun _ => rfl
@[simp] theorem State.modDom_bay_clk (s : State) (b : BayNo) (f : PwrBay → PwrBay) (cc : BayNo) : ((State.modDom s b f).bay cc).clk = (s.bay cc).clk :=
  State.bay_modBay_same (·.clk) s b cc _ fun _ => rfl
@[simp] theorem State.modDom_bay_tbs (s : State) (b : BayNo) (f : PwrBay → PwrBay) (cc : BayNo) : ((State.modDom s b f).bay cc).tbs = (s.bay cc).tbs :=
  State.bay_modBay_same (·.tbs) s b cc _ fun _ => rfl
@[simp] theorem State.modDom_bay_que (s : State) (b : BayNo) (f : PwrBay → PwrBay) (cc : BayNo) : ((State.modDom s b f).bay cc).que = (s.bay cc).que :=
  State.bay_modBay_same (·.que) s b cc _ fun _ => rfl
@[simp] theorem State.modDom_bay_dma (s : State) (b : BayNo) (f : PwrBay → PwrBay) (cc : BayNo) : ((State.modDom s b f).bay cc).dma = (s.bay cc).dma :=
  State.bay_modBay_same (·.dma) s b cc _ fun _ => rfl
@[simp] theorem State.modDom_bay_trg (s : State) (b : BayNo) (f : PwrBay → PwrBay) (cc : BayNo) : ((State.modDom s b f).bay cc).trg = (s.bay cc).trg :=
  State.bay_modBay_same (·.trg) s b cc _ fun _ => rfl
@[simp] theorem State.modDom_bay_afe (s : State) (b : BayNo) (f : PwrBay → PwrBay) (cc : BayNo) : ((State.modDom s b f).bay cc).afe = (s.bay cc).afe :=
  State.bay_modBay_same (·.afe) s b cc _ fun _ => rfl
@[simp] theorem State.modDom_bay_adc (s : State) (b : BayNo) (f : PwrBay → PwrBay) (cc : BayNo) : ((State.modDom s b f).bay cc).adc = (s.bay cc).adc :=
  State.bay_modBay_same (·.adc) s b cc _ fun _ => rfl
@[simp] theorem State.modDom_bay_ddc (s : State) (b : BayNo) (f : PwrBay → PwrBay) (cc : BayNo) : ((State.modDom s b f).bay cc).ddc = (s.bay cc).ddc :=
  State.bay_modBay_same (·.ddc) s b cc _ fun _ => rfl
@[simp] theorem State.modDom_bay_xfm (s : State) (b : BayNo) (f : PwrBay → PwrBay) (cc : BayNo) : ((State.modDom s b f).bay cc).xfm = (s.bay cc).xfm :=
  State.bay_modBay_same (·.xfm) s b cc _ fun _ => rfl
@[simp] theorem State.modDom_bay_den (s : State) (b : BayNo) (f : PwrBay → PwrBay) (cc : BayNo) : ((State.modDom s b f).bay cc).den = (s.bay cc).den :=
  State.bay_modBay_same (·.den) s b cc _ fun _ => rfl
@[simp] theorem State.modDom_bay_mco (s : State) (b : BayNo) (f : PwrBay → PwrBay) (cc : BayNo) : ((State.modDom s b f).bay cc).mco = (s.bay cc).mco :=
  State.bay_modBay_same (·.mco) s b cc _ fun _ => rfl
@[simp] theorem State.modDom_bay_scn (s : State) (b : BayNo) (f : PwrBay → PwrBay) (cc : BayNo) : ((State.modDom s b f).bay cc).scn = (s.bay cc).scn :=
  State.bay_modBay_same (·.scn) s b cc _ fun _ => rfl
@[simp] theorem State.modDom_bay_recorder (s : State) (b : BayNo) (f : PwrBay → PwrBay) (cc : BayNo) : ((State.modDom s b f).bay cc).recorder = (s.bay cc).recorder :=
  State.bay_modBay_same (·.recorder) s b cc _ fun _ => rfl
@[simp] theorem State.modDom_bay_lne (s : State) (b : BayNo) (f : PwrBay → PwrBay) (cc : BayNo) : ((State.modDom s b f).bay cc).lne = (s.bay cc).lne :=
  State.bay_modBay_same (·.lne) s b cc _ fun _ => rfl
@[simp] theorem State.modDom_bay_pci (s : State) (b : BayNo) (f : PwrBay → PwrBay) (cc : BayNo) : ((State.modDom s b f).bay cc).pci = (s.bay cc).pci :=
  State.bay_modBay_same (·.pci) s b cc _ fun _ => rfl
@[simp] theorem State.modDom_bay_eth (s : State) (b : BayNo) (f : PwrBay → PwrBay) (cc : BayNo) : ((State.modDom s b f).bay cc).eth = (s.bay cc).eth :=
  State.bay_modBay_same (·.eth) s b cc _ fun _ => rfl
@[simp] theorem State.modDom_bay_jes (s : State) (b : BayNo) (f : PwrBay → PwrBay) (cc : BayNo) : ((State.modDom s b f).bay cc).jes = (s.bay cc).jes :=
  State.bay_modBay_same (·.jes) s b cc _ fun _ => rfl
@[simp] theorem State.modDom_bay_lnl (s : State) (b : BayNo) (f : PwrBay → PwrBay) (cc : BayNo) : ((State.modDom s b f).bay cc).lnl = (s.bay cc).lnl :=
  State.bay_modBay_same (·.lnl) s b cc _ fun _ => rfl
@[simp] theorem State.modDom_bay_cal (s : State) (b : BayNo) (f : PwrBay → PwrBay) (cc : BayNo) : ((State.modDom s b f).bay cc).cal = (s.bay cc).cal :=
  State.bay_modBay_same (·.cal) s b cc _ fun _ => rfl
@[simp] theorem State.modDom_bay_hkc (s : State) (b : BayNo) (f : PwrBay → PwrBay) (cc : BayNo) : ((State.modDom s b f).bay cc).hkc = (s.bay cc).hkc :=
  State.bay_modBay_same (·.hkc) s b cc _ fun _ => rfl
@[simp] theorem State.modDom_bay_aux (s : State) (b : BayNo) (f : PwrBay → PwrBay) (cc : BayNo) : ((State.modDom s b f).bay cc).aux = (s.bay cc).aux :=
  State.bay_modBay_same (·.aux) s b cc _ fun _ => rfl
@[simp] theorem State.modDom_bay_mon (s : State) (b : BayNo) (f : PwrBay → PwrBay) (cc : BayNo) : ((State.modDom s b f).bay cc).mon = (s.bay cc).mon :=
  State.bay_modBay_same (·.mon) s b cc _ fun _ => rfl
@[simp] theorem State.modDom_bay_jtag (s : State) (b : BayNo) (f : PwrBay → PwrBay) (cc : BayNo) : ((State.modDom s b f).bay cc).jtag = (s.bay cc).jtag :=
  State.bay_modBay_same (·.jtag) s b cc _ fun _ => rfl
@[simp] theorem State.modDom_nowAt (s : State) (b : BayNo) (f : PwrBay → PwrBay) (cc : BayNo) : (State.modDom s b f).nowAt cc = s.nowAt cc :=
  congrArg (fun t : TbsBay => Tide.stamp t.tide) (State.modDom_bay_tbs s b f cc)
@[simp] theorem State.modDom_now (s : State) (b : BayNo) (f : PwrBay → PwrBay) : (State.modDom s b f).now = s.now := State.modDom_nowAt s b f 0
@[simp] theorem State.modDom_alive (s : State) (b : BayNo) (f : PwrBay → PwrBay) (cc : BayNo) : (State.modDom s b f).alive cc = s.alive cc :=
  State.alive_congr cc rfl rfl (State.modDom_bay_lost s b f cc)
@[simp] theorem State.modDom_liveBays (s : State) (b : BayNo) (f : PwrBay → PwrBay) : (State.modDom s b f).liveBays = s.liveBays :=
  State.liveBays_congr (State.modDom_alive s b f)
@[simp] theorem State.modDom_bay_pwr_self (s : State) (b : BayNo) (f : PwrBay → PwrBay) : ((State.modDom s b f).bay b).pwr = f (s.bay b).pwr :=
  congrArg (fun y : Bay => y.pwr) (State.bay_modBay s b _)
theorem State.modDom_bay_pwr_ne (s : State) (b : BayNo) (f : PwrBay → PwrBay) {cc : BayNo} (h : cc ≠ b) : ((State.modDom s b f).bay cc).pwr = (s.bay cc).pwr :=
  congrArg (fun y : Bay => y.pwr) (State.bay_modBay_ne s _ h)

@[simp] theorem State.modLane_part (s : State) (b : BayNo) (k : Fin 24) (f : Lane → Lane) : (State.modLane s b k f).part = s.part := (rfl)
@[simp] theorem State.modLane_vals (s : State) (b : BayNo) (k : Fin 24) (f : Lane → Lane) : (State.modLane s b k f).vals = s.vals := (rfl)
@[simp] theorem State.modLane_img (s : State) (b : BayNo) (k : Fin 24) (f : Lane → Lane) : (State.modLane s b k f).img = s.img := (rfl)
@[simp] theorem State.modLane_flash (s : State) (b : BayNo) (k : Fin 24) (f : Lane → Lane) : (State.modLane s b k f).flash = s.flash := (rfl)
@[simp] theorem State.modLane_tbs (s : State) (b : BayNo) (k : Fin 24) (f : Lane → Lane) : (State.modLane s b k f).tbs = s.tbs := (rfl)
@[simp] theorem State.modLane_sel (s : State) (b : BayNo) (k : Fin 24) (f : Lane → Lane) : (State.modLane s b k f).sel = s.sel := (rfl)
@[simp] theorem State.modLane_keeper (s : State) (b : BayNo) (k : Fin 24) (f : Lane → Lane) : (State.modLane s b k f).keeper = s.keeper := (rfl)
@[simp] theorem State.modLane_pwr (s : State) (b : BayNo) (k : Fin 24) (f : Lane → Lane) : (State.modLane s b k f).pwr = s.pwr := (rfl)
@[simp] theorem State.modLane_faults (s : State) (b : BayNo) (k : Fin 24) (f : Lane → Lane) : (State.modLane s b k f).faults = s.faults := (rfl)
@[simp] theorem State.modLane_trg (s : State) (b : BayNo) (k : Fin 24) (f : Lane → Lane) : (State.modLane s b k f).trg = s.trg := (rfl)
@[simp] theorem State.modLane_ident (s : State) (b : BayNo) (k : Fin 24) (f : Lane → Lane) : (State.modLane s b k f).ident = s.ident := (rfl)
@[simp] theorem State.modLane_eth (s : State) (b : BayNo) (k : Fin 24) (f : Lane → Lane) : (State.modLane s b k f).eth = s.eth := (rfl)
@[simp] theorem State.modLane_lnl (s : State) (b : BayNo) (k : Fin 24) (f : Lane → Lane) : (State.modLane s b k f).lnl = s.lnl := (rfl)
@[simp] theorem State.modLane_inj (s : State) (b : BayNo) (k : Fin 24) (f : Lane → Lane) : (State.modLane s b k f).inj = s.inj := (rfl)
@[simp] theorem State.modLane_clrPin (s : State) (b : BayNo) (k : Fin 24) (f : Lane → Lane) : (State.modLane s b k f).clrPin = s.clrPin := (rfl)
@[simp] theorem State.modLane_rstLow (s : State) (b : BayNo) (k : Fin 24) (f : Lane → Lane) : (State.modLane s b k f).rstLow = s.rstLow := (rfl)
@[simp] theorem State.modLane_fresh (s : State) (b : BayNo) (k : Fin 24) (f : Lane → Lane) : (State.modLane s b k f).fresh = s.fresh := (rfl)
@[simp] theorem State.modLane_outbox (s : State) (b : BayNo) (k : Fin 24) (f : Lane → Lane) : (State.modLane s b k f).outbox = s.outbox := (rfl)
@[simp] theorem State.modLane_pending (s : State) (b : BayNo) (k : Fin 24) (f : Lane → Lane) : (State.modLane s b k f).pending = s.pending := (rfl)
@[simp] theorem State.modLane_fld (s : State) (b : BayNo) (k : Fin 24) (f : Lane → Lane) (g : Field) (cc : BayNo) (j1 k1 : Nat) : (State.modLane s b k f).fld g cc j1 k1 = s.fld g cc j1 k1 := (rfl)
@[simp] theorem State.modLane_fldN (s : State) (b : BayNo) (k : Fin 24) (f : Lane → Lane) (g : Field) (cc : BayNo) (j1 k1 : Nat) : (State.modLane s b k f).fldN g cc j1 k1 = s.fldN g cc j1 k1 := (rfl)
@[simp] theorem State.modLane_fldB (s : State) (b : BayNo) (k : Fin 24) (f : Lane → Lane) (g : Field) (cc : BayNo) (j1 : Nat) : (State.modLane s b k f).fldB g cc j1 = s.fldB g cc j1 := (rfl)
@[simp] theorem State.modLane_pkgN (s : State) (b : BayNo) (k : Fin 24) (f : Lane → Lane) (g : Field) (j1 : Nat) : (State.modLane s b k f).pkgN g j1 = s.pkgN g j1 := (rfl)
@[simp] theorem State.modLane_bay_lost (s : State) (b : BayNo) (k : Fin 24) (f : Lane → Lane) (cc : BayNo) : ((State.modLane s b k f).bay cc).lost = (s.bay cc).lost :=
  State.bay_modBay_same (·.lost) s b cc _ fun _ => rfl
@[simp] theorem State.modLane_bay_clk (s : State) (b : BayNo) (k : Fin 24) (f : Lane → Lane) (cc : BayNo) : ((State.modLane s b k f).bay cc).clk = (s.bay cc).clk :=
  State.bay_modBay_same (·.clk) s b cc _ fun _ => rfl
@[simp] theorem State.modLane_bay_tbs (s : State) (b : BayNo) (k : Fin 24) (f : Lane → Lane) (cc : BayNo) : ((State.modLane s b k f).bay cc).tbs = (s.bay cc).tbs :=
  State.bay_modBay_same (·.tbs) s b cc _ fun _ => rfl
@[simp] theorem State.modLane_bay_que (s : State) (b : BayNo) (k : Fin 24) (f : Lane → Lane) (cc : BayNo) : ((State.modLane s b k f).bay cc).que = (s.bay cc).que :=
  State.bay_modBay_same (·.que) s b cc _ fun _ => rfl
@[simp] theorem State.modLane_bay_dma (s : State) (b : BayNo) (k : Fin 24) (f : Lane → Lane) (cc : BayNo) : ((State.modLane s b k f).bay cc).dma = (s.bay cc).dma :=
  State.bay_modBay_same (·.dma) s b cc _ fun _ => rfl
@[simp] theorem State.modLane_bay_pwr (s : State) (b : BayNo) (k : Fin 24) (f : Lane → Lane) (cc : BayNo) : ((State.modLane s b k f).bay cc).pwr = (s.bay cc).pwr :=
  State.bay_modBay_same (·.pwr) s b cc _ fun _ => rfl
@[simp] theorem State.modLane_bay_trg (s : State) (b : BayNo) (k : Fin 24) (f : Lane → Lane) (cc : BayNo) : ((State.modLane s b k f).bay cc).trg = (s.bay cc).trg :=
  State.bay_modBay_same (·.trg) s b cc _ fun _ => rfl
@[simp] theorem State.modLane_bay_afe (s : State) (b : BayNo) (k : Fin 24) (f : Lane → Lane) (cc : BayNo) : ((State.modLane s b k f).bay cc).afe = (s.bay cc).afe :=
  State.bay_modBay_same (·.afe) s b cc _ fun _ => rfl
@[simp] theorem State.modLane_bay_adc (s : State) (b : BayNo) (k : Fin 24) (f : Lane → Lane) (cc : BayNo) : ((State.modLane s b k f).bay cc).adc = (s.bay cc).adc :=
  State.bay_modBay_same (·.adc) s b cc _ fun _ => rfl
@[simp] theorem State.modLane_bay_ddc (s : State) (b : BayNo) (k : Fin 24) (f : Lane → Lane) (cc : BayNo) : ((State.modLane s b k f).bay cc).ddc = (s.bay cc).ddc :=
  State.bay_modBay_same (·.ddc) s b cc _ fun _ => rfl
@[simp] theorem State.modLane_bay_xfm (s : State) (b : BayNo) (k : Fin 24) (f : Lane → Lane) (cc : BayNo) : ((State.modLane s b k f).bay cc).xfm = (s.bay cc).xfm :=
  State.bay_modBay_same (·.xfm) s b cc _ fun _ => rfl
@[simp] theorem State.modLane_bay_den (s : State) (b : BayNo) (k : Fin 24) (f : Lane → Lane) (cc : BayNo) : ((State.modLane s b k f).bay cc).den = (s.bay cc).den :=
  State.bay_modBay_same (·.den) s b cc _ fun _ => rfl
@[simp] theorem State.modLane_bay_mco (s : State) (b : BayNo) (k : Fin 24) (f : Lane → Lane) (cc : BayNo) : ((State.modLane s b k f).bay cc).mco = (s.bay cc).mco :=
  State.bay_modBay_same (·.mco) s b cc _ fun _ => rfl
@[simp] theorem State.modLane_bay_scn (s : State) (b : BayNo) (k : Fin 24) (f : Lane → Lane) (cc : BayNo) : ((State.modLane s b k f).bay cc).scn = (s.bay cc).scn :=
  State.bay_modBay_same (·.scn) s b cc _ fun _ => rfl
@[simp] theorem State.modLane_bay_recorder (s : State) (b : BayNo) (k : Fin 24) (f : Lane → Lane) (cc : BayNo) : ((State.modLane s b k f).bay cc).recorder = (s.bay cc).recorder :=
  State.bay_modBay_same (·.recorder) s b cc _ fun _ => rfl
@[simp] theorem State.modLane_bay_pci (s : State) (b : BayNo) (k : Fin 24) (f : Lane → Lane) (cc : BayNo) : ((State.modLane s b k f).bay cc).pci = (s.bay cc).pci :=
  State.bay_modBay_same (·.pci) s b cc _ fun _ => rfl
@[simp] theorem State.modLane_bay_eth (s : State) (b : BayNo) (k : Fin 24) (f : Lane → Lane) (cc : BayNo) : ((State.modLane s b k f).bay cc).eth = (s.bay cc).eth :=
  State.bay_modBay_same (·.eth) s b cc _ fun _ => rfl
@[simp] theorem State.modLane_bay_jes (s : State) (b : BayNo) (k : Fin 24) (f : Lane → Lane) (cc : BayNo) : ((State.modLane s b k f).bay cc).jes = (s.bay cc).jes :=
  State.bay_modBay_same (·.jes) s b cc _ fun _ => rfl
@[simp] theorem State.modLane_bay_lnl (s : State) (b : BayNo) (k : Fin 24) (f : Lane → Lane) (cc : BayNo) : ((State.modLane s b k f).bay cc).lnl = (s.bay cc).lnl :=
  State.bay_modBay_same (·.lnl) s b cc _ fun _ => rfl
@[simp] theorem State.modLane_bay_cal (s : State) (b : BayNo) (k : Fin 24) (f : Lane → Lane) (cc : BayNo) : ((State.modLane s b k f).bay cc).cal = (s.bay cc).cal :=
  State.bay_modBay_same (·.cal) s b cc _ fun _ => rfl
@[simp] theorem State.modLane_bay_hkc (s : State) (b : BayNo) (k : Fin 24) (f : Lane → Lane) (cc : BayNo) : ((State.modLane s b k f).bay cc).hkc = (s.bay cc).hkc :=
  State.bay_modBay_same (·.hkc) s b cc _ fun _ => rfl
@[simp] theorem State.modLane_bay_aux (s : State) (b : BayNo) (k : Fin 24) (f : Lane → Lane) (cc : BayNo) : ((State.modLane s b k f).bay cc).aux = (s.bay cc).aux :=
  State.bay_modBay_same (·.aux) s b cc _ fun _ => rfl
@[simp] theorem State.modLane_bay_mon (s : State) (b : BayNo) (k : Fin 24) (f : Lane → Lane) (cc : BayNo) : ((State.modLane s b k f).bay cc).mon = (s.bay cc).mon :=
  State.bay_modBay_same (·.mon) s b cc _ fun _ => rfl
@[simp] theorem State.modLane_bay_jtag (s : State) (b : BayNo) (k : Fin 24) (f : Lane → Lane) (cc : BayNo) : ((State.modLane s b k f).bay cc).jtag = (s.bay cc).jtag :=
  State.bay_modBay_same (·.jtag) s b cc _ fun _ => rfl
@[simp] theorem State.modLane_nowAt (s : State) (b : BayNo) (k : Fin 24) (f : Lane → Lane) (cc : BayNo) : (State.modLane s b k f).nowAt cc = s.nowAt cc :=
  congrArg (fun t : TbsBay => Tide.stamp t.tide) (State.modLane_bay_tbs s b k f cc)
@[simp] theorem State.modLane_now (s : State) (b : BayNo) (k : Fin 24) (f : Lane → Lane) : (State.modLane s b k f).now = s.now := State.modLane_nowAt s b k f 0
@[simp] theorem State.modLane_alive (s : State) (b : BayNo) (k : Fin 24) (f : Lane → Lane) (cc : BayNo) : (State.modLane s b k f).alive cc = s.alive cc :=
  State.alive_congr cc rfl rfl (State.modLane_bay_lost s b k f cc)
@[simp] theorem State.modLane_liveBays (s : State) (b : BayNo) (k : Fin 24) (f : Lane → Lane) : (State.modLane s b k f).liveBays = s.liveBays :=
  State.liveBays_congr (State.modLane_alive s b k f)
@[simp] theorem State.modLane_bay_lne_self (s : State) (b : BayNo) (k : Fin 24) (f : Lane → Lane) : ((State.modLane s b k f).bay b).lne = { (s.bay b).lne with lanes := (s.bay b).lne.lanes.set k (f (s.bay b).lne.lanes[k]) } :=
  congrArg (fun y : Bay => y.lne) (State.bay_modBay s b _)
theorem State.modLane_bay_lne_ne (s : State) (b : BayNo) (k : Fin 24) (f : Lane → Lane) {cc : BayNo} (h : cc ≠ b) : ((State.modLane s b k f).bay cc).lne = (s.bay cc).lne :=
  congrArg (fun y : Bay => y.lne) (State.bay_modBay_ne s _ h)

@[simp] theorem State.modDir_part (s : State) (b : BayNo) (k : Fin 24) (tx : Bool) (f : LaneDir → LaneDir) : (State.modDir s b k tx f).part = s.part := (rfl)
@[simp] theorem State.modDir_vals (s : State) (b : BayNo) (k : Fin 24) (tx : Bool) (f : LaneDir → LaneDir) : (State.modDir s b k tx f).vals = s.vals := (rfl)
@[simp] theorem State.modDir_img (s : State) (b : BayNo) (k : Fin 24) (tx : Bool) (f : LaneDir → LaneDir) : (State.modDir s b k tx f).img = s.img := (rfl)
@[simp] theorem State.modDir_flash (s : State) (b : BayNo) (k : Fin 24) (tx : Bool) (f : LaneDir → LaneDir) : (State.modDir s b k tx f).flash = s.flash := (rfl)
@[simp] theorem State.modDir_tbs (s : State) (b : BayNo) (k : Fin 24) (tx : Bool) (f : LaneDir → LaneDir) : (State.modDir s b k tx f).tbs = s.tbs := (rfl)
@[simp] theorem State.modDir_sel (s : State) (b : BayNo) (k : Fin 24) (tx : Bool) (f : LaneDir → LaneDir) : (State.modDir s b k tx f).sel = s.sel := (rfl)
@[simp] theorem State.modDir_keeper (s : State) (b : BayNo) (k : Fin 24) (tx : Bool) (f : LaneDir → LaneDir) : (State.modDir s b k tx f).keeper = s.keeper := (rfl)
@[simp] theorem State.modDir_pwr (s : State) (b : BayNo) (k : Fin 24) (tx : Bool) (f : LaneDir → LaneDir) : (State.modDir s b k tx f).pwr = s.pwr := (rfl)
@[simp] theorem State.modDir_faults (s : State) (b : BayNo) (k : Fin 24) (tx : Bool) (f : LaneDir → LaneDir) : (State.modDir s b k tx f).faults = s.faults := (rfl)
@[simp] theorem State.modDir_trg (s : State) (b : BayNo) (k : Fin 24) (tx : Bool) (f : LaneDir → LaneDir) : (State.modDir s b k tx f).trg = s.trg := (rfl)
@[simp] theorem State.modDir_ident (s : State) (b : BayNo) (k : Fin 24) (tx : Bool) (f : LaneDir → LaneDir) : (State.modDir s b k tx f).ident = s.ident := (rfl)
@[simp] theorem State.modDir_eth (s : State) (b : BayNo) (k : Fin 24) (tx : Bool) (f : LaneDir → LaneDir) : (State.modDir s b k tx f).eth = s.eth := (rfl)
@[simp] theorem State.modDir_lnl (s : State) (b : BayNo) (k : Fin 24) (tx : Bool) (f : LaneDir → LaneDir) : (State.modDir s b k tx f).lnl = s.lnl := (rfl)
@[simp] theorem State.modDir_inj (s : State) (b : BayNo) (k : Fin 24) (tx : Bool) (f : LaneDir → LaneDir) : (State.modDir s b k tx f).inj = s.inj := (rfl)
@[simp] theorem State.modDir_clrPin (s : State) (b : BayNo) (k : Fin 24) (tx : Bool) (f : LaneDir → LaneDir) : (State.modDir s b k tx f).clrPin = s.clrPin := (rfl)
@[simp] theorem State.modDir_rstLow (s : State) (b : BayNo) (k : Fin 24) (tx : Bool) (f : LaneDir → LaneDir) : (State.modDir s b k tx f).rstLow = s.rstLow := (rfl)
@[simp] theorem State.modDir_fresh (s : State) (b : BayNo) (k : Fin 24) (tx : Bool) (f : LaneDir → LaneDir) : (State.modDir s b k tx f).fresh = s.fresh := (rfl)
@[simp] theorem State.modDir_outbox (s : State) (b : BayNo) (k : Fin 24) (tx : Bool) (f : LaneDir → LaneDir) : (State.modDir s b k tx f).outbox = s.outbox := (rfl)
@[simp] theorem State.modDir_pending (s : State) (b : BayNo) (k : Fin 24) (tx : Bool) (f : LaneDir → LaneDir) : (State.modDir s b k tx f).pending = s.pending := (rfl)
@[simp] theorem State.modDir_fld (s : State) (b : BayNo) (k : Fin 24) (tx : Bool) (f : LaneDir → LaneDir) (g : Field) (cc : BayNo) (j1 k1 : Nat) : (State.modDir s b k tx f).fld g cc j1 k1 = s.fld g cc j1 k1 := (rfl)
@[simp] theorem State.modDir_fldN (s : State) (b : BayNo) (k : Fin 24) (tx : Bool) (f : LaneDir → LaneDir) (g : Field) (cc : BayNo) (j1 k1 : Nat) : (State.modDir s b k tx f).fldN g cc j1 k1 = s.fldN g cc j1 k1 := (rfl)
@[simp] theorem State.modDir_fldB (s : State) (b : BayNo) (k : Fin 24) (tx : Bool) (f : LaneDir → LaneDir) (g : Field) (cc : BayNo) (j1 : Nat) : (State.modDir s b k tx f).fldB g cc j1 = s.fldB g cc j1 := (rfl)
@[simp] theorem State.modDir_pkgN (s : State) (b : BayNo) (k : Fin 24) (tx : Bool) (f : LaneDir → LaneDir) (g : Field) (j1 : Nat) : (State.modDir s b k tx f).pkgN g j1 = s.pkgN g j1 := (rfl)
@[simp] theorem State.modDir_bay_lost (s : State) (b : BayNo) (k : Fin 24) (tx : Bool) (f : LaneDir → LaneDir) (cc : BayNo) : ((State.modDir s b k tx f).bay cc).lost = (s.bay cc).lost :=
  State.bay_modBay_same (·.lost) s b cc _ fun _ => rfl
@[simp] theorem State.modDir_bay_clk (s : State) (b : BayNo) (k : Fin 24) (tx : Bool) (f : LaneDir → LaneDir) (cc : BayNo) : ((State.modDir s b k tx f).bay cc).clk = (s.bay cc).clk :=
  State.bay_modBay_same (·.clk) s b cc _ fun _ => rfl
@[simp] theorem State.modDir_bay_tbs (s : State) (b : BayNo) (k : Fin 24) (tx : Bool) (f : LaneDir → LaneDir) (cc : BayNo) : ((State.modDir s b k tx f).bay cc).tbs = (s.bay cc).tbs :=
  State.bay_modBay_same (·.tbs) s b cc _ fun _ => rfl
@[simp] theorem State.modDir_bay_que (s : State) (b : BayNo) (k : Fin 24) (tx : Bool) (f : LaneDir → LaneDir) (cc : BayNo) : ((State.modDir s b k tx f).bay cc).que = (s.bay cc).que :=
  State.bay_modBay_same (·.que) s b cc _ fun _ => rfl
@[simp] theorem State.modDir_bay_dma (s : State) (b : BayNo) (k : Fin 24) (tx : Bool) (f : LaneDir → LaneDir) (cc : BayNo) : ((State.modDir s b k tx f).bay cc).dma = (s.bay cc).dma :=
  State.bay_modBay_same (·.dma) s b cc _ fun _ => rfl
@[simp] theorem State.modDir_bay_pwr (s : State) (b : BayNo) (k : Fin 24) (tx : Bool) (f : LaneDir → LaneDir) (cc : BayNo) : ((State.modDir s b k tx f).bay cc).pwr = (s.bay cc).pwr :=
  State.bay_modBay_same (·.pwr) s b cc _ fun _ => rfl
@[simp] theorem State.modDir_bay_trg (s : State) (b : BayNo) (k : Fin 24) (tx : Bool) (f : LaneDir → LaneDir) (cc : BayNo) : ((State.modDir s b k tx f).bay cc).trg = (s.bay cc).trg :=
  State.bay_modBay_same (·.trg) s b cc _ fun _ => rfl
@[simp] theorem State.modDir_bay_afe (s : State) (b : BayNo) (k : Fin 24) (tx : Bool) (f : LaneDir → LaneDir) (cc : BayNo) : ((State.modDir s b k tx f).bay cc).afe = (s.bay cc).afe :=
  State.bay_modBay_same (·.afe) s b cc _ fun _ => rfl
@[simp] theorem State.modDir_bay_adc (s : State) (b : BayNo) (k : Fin 24) (tx : Bool) (f : LaneDir → LaneDir) (cc : BayNo) : ((State.modDir s b k tx f).bay cc).adc = (s.bay cc).adc :=
  State.bay_modBay_same (·.adc) s b cc _ fun _ => rfl
@[simp] theorem State.modDir_bay_ddc (s : State) (b : BayNo) (k : Fin 24) (tx : Bool) (f : LaneDir → LaneDir) (cc : BayNo) : ((State.modDir s b k tx f).bay cc).ddc = (s.bay cc).ddc :=
  State.bay_modBay_same (·.ddc) s b cc _ fun _ => rfl
@[simp] theorem State.modDir_bay_xfm (s : State) (b : BayNo) (k : Fin 24) (tx : Bool) (f : LaneDir → LaneDir) (cc : BayNo) : ((State.modDir s b k tx f).bay cc).xfm = (s.bay cc).xfm :=
  State.bay_modBay_same (·.xfm) s b cc _ fun _ => rfl
@[simp] theorem State.modDir_bay_den (s : State) (b : BayNo) (k : Fin 24) (tx : Bool) (f : LaneDir → LaneDir) (cc : BayNo) : ((State.modDir s b k tx f).bay cc).den = (s.bay cc).den :=
  State.bay_modBay_same (·.den) s b cc _ fun _ => rfl
@[simp] theorem State.modDir_bay_mco (s : State) (b : BayNo) (k : Fin 24) (tx : Bool) (f : LaneDir → LaneDir) (cc : BayNo) : ((State.modDir s b k tx f).bay cc).mco = (s.bay cc).mco :=
  State.bay_modBay_same (·.mco) s b cc _ fun _ => rfl
@[simp] theorem State.modDir_bay_scn (s : State) (b : BayNo) (k : Fin 24) (tx : Bool) (f : LaneDir → LaneDir) (cc : BayNo) : ((State.modDir s b k tx f).bay cc).scn = (s.bay cc).scn :=
  State.bay_modBay_same (·.scn) s b cc _ fun _ => rfl
@[simp] theorem State.modDir_bay_recorder (s : State) (b : BayNo) (k : Fin 24) (tx : Bool) (f : LaneDir → LaneDir) (cc : BayNo) : ((State.modDir s b k tx f).bay cc).recorder = (s.bay cc).recorder :=
  State.bay_modBay_same (·.recorder) s b cc _ fun _ => rfl
@[simp] theorem State.modDir_bay_pci (s : State) (b : BayNo) (k : Fin 24) (tx : Bool) (f : LaneDir → LaneDir) (cc : BayNo) : ((State.modDir s b k tx f).bay cc).pci = (s.bay cc).pci :=
  State.bay_modBay_same (·.pci) s b cc _ fun _ => rfl
@[simp] theorem State.modDir_bay_eth (s : State) (b : BayNo) (k : Fin 24) (tx : Bool) (f : LaneDir → LaneDir) (cc : BayNo) : ((State.modDir s b k tx f).bay cc).eth = (s.bay cc).eth :=
  State.bay_modBay_same (·.eth) s b cc _ fun _ => rfl
@[simp] theorem State.modDir_bay_jes (s : State) (b : BayNo) (k : Fin 24) (tx : Bool) (f : LaneDir → LaneDir) (cc : BayNo) : ((State.modDir s b k tx f).bay cc).jes = (s.bay cc).jes :=
  State.bay_modBay_same (·.jes) s b cc _ fun _ => rfl
@[simp] theorem State.modDir_bay_lnl (s : State) (b : BayNo) (k : Fin 24) (tx : Bool) (f : LaneDir → LaneDir) (cc : BayNo) : ((State.modDir s b k tx f).bay cc).lnl = (s.bay cc).lnl :=
  State.bay_modBay_same (·.lnl) s b cc _ fun _ => rfl
@[simp] theorem State.modDir_bay_cal (s : State) (b : BayNo) (k : Fin 24) (tx : Bool) (f : LaneDir → LaneDir) (cc : BayNo) : ((State.modDir s b k tx f).bay cc).cal = (s.bay cc).cal :=
  State.bay_modBay_same (·.cal) s b cc _ fun _ => rfl
@[simp] theorem State.modDir_bay_hkc (s : State) (b : BayNo) (k : Fin 24) (tx : Bool) (f : LaneDir → LaneDir) (cc : BayNo) : ((State.modDir s b k tx f).bay cc).hkc = (s.bay cc).hkc :=
  State.bay_modBay_same (·.hkc) s b cc _ fun _ => rfl
@[simp] theorem State.modDir_bay_aux (s : State) (b : BayNo) (k : Fin 24) (tx : Bool) (f : LaneDir → LaneDir) (cc : BayNo) : ((State.modDir s b k tx f).bay cc).aux = (s.bay cc).aux :=
  State.bay_modBay_same (·.aux) s b cc _ fun _ => rfl
@[simp] theorem State.modDir_bay_mon (s : State) (b : BayNo) (k : Fin 24) (tx : Bool) (f : LaneDir → LaneDir) (cc : BayNo) : ((State.modDir s b k tx f).bay cc).mon = (s.bay cc).mon :=
  State.bay_modBay_same (·.mon) s b cc _ fun _ => rfl
@[simp] theorem State.modDir_bay_jtag (s : State) (b : BayNo) (k : Fin 24) (tx : Bool) (f : LaneDir → LaneDir) (cc : BayNo) : ((State.modDir s b k tx f).bay cc).jtag = (s.bay cc).jtag :=
  State.bay_modBay_same (·.jtag) s b cc _ fun _ => rfl
@[simp] theorem State.modDir_nowAt (s : State) (b : BayNo) (k : Fin 24) (tx : Bool) (f : LaneDir → LaneDir) (cc : BayNo) : (State.modDir s b k tx f).nowAt cc = s.nowAt cc :=
  congrArg (fun t : TbsBay => Tide.stamp t.tide) (State.modDir_bay_tbs s b k tx f cc)
@[simp] theorem State.modDir_now (s : State) (b : BayNo) (k : Fin 24) (tx : Bool) (f : LaneDir → LaneDir) : (State.modDir s b k tx f).now = s.now := State.modDir_nowAt s b k tx f 0
@[simp] theorem State.modDir_alive (s : State) (b : BayNo) (k : Fin 24) (tx : Bool) (f : LaneDir → LaneDir) (cc : BayNo) : (State.modDir s b k tx f).alive cc = s.alive cc :=
  State.alive_congr cc rfl rfl (State.modDir_bay_lost s b k tx f cc)
@[simp] theorem State.modDir_liveBays (s : State) (b : BayNo) (k : Fin 24) (tx : Bool) (f : LaneDir → LaneDir) : (State.modDir s b k tx f).liveBays = s.liveBays :=
  State.liveBays_congr (State.modDir_alive s b k tx f)

@[simp] theorem State.modAux_part (s : State) (b : BayNo) (f : AuxBay → AuxBay) : (State.modAux s b f).part = s.part := (rfl)
@[simp] theorem State.modAux_vals (s : State) (b : BayNo) (f : AuxBay → AuxBay) : (State.modAux s b f).vals = s.vals := (rfl)
@[simp] theorem State.modAux_img (s : State) (b : BayNo) (f : AuxBay → AuxBay) : (State.modAux s b f).img = s.img := (rfl)
@[simp] theorem State.modAux_flash (s : State) (b : BayNo) (f : AuxBay → AuxBay) : (State.modAux s b f).flash = s.flash := (rfl)
@[simp] theorem State.modAux_tbs (s : State) (b : BayNo) (f : AuxBay → AuxBay) : (State.modAux s b f).tbs = s.tbs := (rfl)
@[simp] theorem State.modAux_sel (s : State) (b : BayNo) (f : AuxBay → AuxBay) : (State.modAux s b f).sel = s.sel := (rfl)
@[simp] theorem State.modAux_keeper (s : State) (b : BayNo) (f : AuxBay → AuxBay) : (State.modAux s b f).keeper = s.keeper := (rfl)
@[simp] theorem State.modAux_pwr (s : State) (b : BayNo) (f : AuxBay → AuxBay) : (State.modAux s b f).pwr = s.pwr := (rfl)
@[simp] theorem State.modAux_faults (s : State) (b : BayNo) (f : AuxBay → AuxBay) : (State.modAux s b f).faults = s.faults := (rfl)
@[simp] theorem State.modAux_trg (s : State) (b : BayNo) (f : AuxBay → AuxBay) : (State.modAux s b f).trg = s.trg := (rfl)
@[simp] theorem State.modAux_ident (s : State) (b : BayNo) (f : AuxBay → AuxBay) : (State.modAux s b f).ident = s.ident := (rfl)
@[simp] theorem State.modAux_eth (s : State) (b : BayNo) (f : AuxBay → AuxBay) : (State.modAux s b f).eth = s.eth := (rfl)
@[simp] theorem State.modAux_lnl (s : State) (b : BayNo) (f : AuxBay → AuxBay) : (State.modAux s b f).lnl = s.lnl := (rfl)
@[simp] theorem State.modAux_inj (s : State) (b : BayNo) (f : AuxBay → AuxBay) : (State.modAux s b f).inj = s.inj := (rfl)
@[simp] theorem State.modAux_clrPin (s : State) (b : BayNo) (f : AuxBay → AuxBay) : (State.modAux s b f).clrPin = s.clrPin := (rfl)
@[simp] theorem State.modAux_rstLow (s : State) (b : BayNo) (f : AuxBay → AuxBay) : (State.modAux s b f).rstLow = s.rstLow := (rfl)
@[simp] theorem State.modAux_fresh (s : State) (b : BayNo) (f : AuxBay → AuxBay) : (State.modAux s b f).fresh = s.fresh := (rfl)
@[simp] theorem State.modAux_outbox (s : State) (b : BayNo) (f : AuxBay → AuxBay) : (State.modAux s b f).outbox = s.outbox := (rfl)
@[simp] theorem State.modAux_pending (s : State) (b : BayNo) (f : AuxBay → AuxBay) : (State.modAux s b f).pending = s.pending := (rfl)
@[simp] theorem State.modAux_fld (s : State) (b : BayNo) (f : AuxBay → AuxBay) (g : Field) (cc : BayNo) (j1 k1 : Nat) : (State.modAux s b f).fld g cc j1 k1 = s.fld g cc j1 k1 := (rfl)
@[simp] theorem State.modAux_fldN (s : State) (b : BayNo) (f : AuxBay → AuxBay) (g : Field) (cc : BayNo) (j1 k1 : Nat) : (State.modAux s b f).fldN g cc j1 k1 = s.fldN g cc j1 k1 := (rfl)
@[simp] theorem State.modAux_fldB (s : State) (b : BayNo) (f : AuxBay → AuxBay) (g : Field) (cc : BayNo) (j1 : Nat) : (State.modAux s b f).fldB g cc j1 = s.fldB g cc j1 := (rfl)
@[simp] theorem State.modAux_pkgN (s : State) (b : BayNo) (f : AuxBay → AuxBay) (g : Field) (j1 : Nat) : (State.modAux s b f).pkgN g j1 = s.pkgN g j1 := (rfl)
@[simp] theorem State.modAux_bay_lost (s : State) (b : BayNo) (f : AuxBay → AuxBay) (cc : BayNo) : ((State.modAux s b f).bay cc).lost = (s.bay cc).lost :=
  State.bay_modBay_same (·.lost) s b cc _ fun _ => rfl
@[simp] theorem State.modAux_bay_clk (s : State) (b : BayNo) (f : AuxBay → AuxBay) (cc : BayNo) : ((State.modAux s b f).bay cc).clk = (s.bay cc).clk :=
  State.bay_modBay_same (·.clk) s b cc _ fun _ => rfl
@[simp] theorem State.modAux_bay_tbs (s : State) (b : BayNo) (f : AuxBay → AuxBay) (cc : BayNo) : ((State.modAux s b f).bay cc).tbs = (s.bay cc).tbs :=
  State.bay_modBay_same (·.tbs) s b cc _ fun _ => rfl
@[simp] theorem State.modAux_bay_que (s : State) (b : BayNo) (f : AuxBay → AuxBay) (cc : BayNo) : ((State.modAux s b f).bay cc).que = (s.bay cc).que :=
  State.bay_modBay_same (·.que) s b cc _ fun _ => rfl
@[simp] theorem State.modAux_bay_dma (s : State) (b : BayNo) (f : AuxBay → AuxBay) (cc : BayNo) : ((State.modAux s b f).bay cc).dma = (s.bay cc).dma :=
  State.bay_modBay_same (·.dma) s b cc _ fun _ => rfl
@[simp] theorem State.modAux_bay_pwr (s : State) (b : BayNo) (f : AuxBay → AuxBay) (cc : BayNo) : ((State.modAux s b f).bay cc).pwr = (s.bay cc).pwr :=
  State.bay_modBay_same (·.pwr) s b cc _ fun _ => rfl
@[simp] theorem State.modAux_bay_trg (s : State) (b : BayNo) (f : AuxBay → AuxBay) (cc : BayNo) : ((State.modAux s b f).bay cc).trg = (s.bay cc).trg :=
  State.bay_modBay_same (·.trg) s b cc _ fun _ => rfl
@[simp] theorem State.modAux_bay_afe (s : State) (b : BayNo) (f : AuxBay → AuxBay) (cc : BayNo) : ((State.modAux s b f).bay cc).afe = (s.bay cc).afe :=
  State.bay_modBay_same (·.afe) s b cc _ fun _ => rfl
@[simp] theorem State.modAux_bay_adc (s : State) (b : BayNo) (f : AuxBay → AuxBay) (cc : BayNo) : ((State.modAux s b f).bay cc).adc = (s.bay cc).adc :=
  State.bay_modBay_same (·.adc) s b cc _ fun _ => rfl
@[simp] theorem State.modAux_bay_ddc (s : State) (b : BayNo) (f : AuxBay → AuxBay) (cc : BayNo) : ((State.modAux s b f).bay cc).ddc = (s.bay cc).ddc :=
  State.bay_modBay_same (·.ddc) s b cc _ fun _ => rfl
@[simp] theorem State.modAux_bay_xfm (s : State) (b : BayNo) (f : AuxBay → AuxBay) (cc : BayNo) : ((State.modAux s b f).bay cc).xfm = (s.bay cc).xfm :=
  State.bay_modBay_same (·.xfm) s b cc _ fun _ => rfl
@[simp] theorem State.modAux_bay_den (s : State) (b : BayNo) (f : AuxBay → AuxBay) (cc : BayNo) : ((State.modAux s b f).bay cc).den = (s.bay cc).den :=
  State.bay_modBay_same (·.den) s b cc _ fun _ => rfl
@[simp] theorem State.modAux_bay_mco (s : State) (b : BayNo) (f : AuxBay → AuxBay) (cc : BayNo) : ((State.modAux s b f).bay cc).mco = (s.bay cc).mco :=
  State.bay_modBay_same (·.mco) s b cc _ fun _ => rfl
@[simp] theorem State.modAux_bay_scn (s : State) (b : BayNo) (f : AuxBay → AuxBay) (cc : BayNo) : ((State.modAux s b f).bay cc).scn = (s.bay cc).scn :=
  State.bay_modBay_same (·.scn) s b cc _ fun _ => rfl
@[simp] theorem State.modAux_bay_recorder (s : State) (b : BayNo) (f : AuxBay → AuxBay) (cc : BayNo) : ((State.modAux s b f).bay cc).recorder = (s.bay cc).recorder :=
  State.bay_modBay_same (·.recorder) s b cc _ fun _ => rfl
@[simp] theorem State.modAux_bay_lne (s : State) (b : BayNo) (f : AuxBay → AuxBay) (cc : BayNo) : ((State.modAux s b f).bay cc).lne = (s.bay cc).lne :=
  State.bay_modBay_same (·.lne) s b cc _ fun _ => rfl
@[simp] theorem State.modAux_bay_pci (s : State) (b : BayNo) (f : AuxBay → AuxBay) (cc : BayNo) : ((State.modAux s b f).bay cc).pci = (s.bay cc).pci :=
  State.bay_modBay_same (·.pci) s b cc _ fun _ => rfl
@[simp] theorem State.modAux_bay_eth (s : State) (b : BayNo) (f : AuxBay → AuxBay) (cc : BayNo) : ((State.modAux s b f).bay cc).eth = (s.bay cc).eth :=
  State.bay_modBay_same (·.eth) s b cc _ fun _ => rfl
@[simp] theorem State.modAux_bay_jes (s : State) (b : BayNo) (f : AuxBay → AuxBay) (cc : BayNo) : ((State.modAux s b f).bay cc).jes = (s.bay cc).jes :=
  State.bay_modBay_same (·.jes) s b cc _ fun _ => rfl
@[simp] theorem State.modAux_bay_lnl (s : State) (b : BayNo) (f : AuxBay → AuxBay) (cc : BayNo) : ((State.modAux s b f).bay cc).lnl = (s.bay cc).lnl :=
  State.bay_modBay_same (·.lnl) s b cc _ fun _ => rfl
@[simp] theorem State.modAux_bay_cal (s : State) (b : BayNo) (f : AuxBay → AuxBay) (cc : BayNo) : ((State.modAux s b f).bay cc).cal = (s.bay cc).cal :=
  State.bay_modBay_same (·.cal) s b cc _ fun _ => rfl
@[simp] theorem State.modAux_bay_hkc (s : State) (b : BayNo) (f : AuxBay → AuxBay) (cc : BayNo) : ((State.modAux s b f).bay cc).hkc = (s.bay cc).hkc :=
  State.bay_modBay_same (·.hkc) s b cc _ fun _ => rfl
@[simp] theorem State.modAux_bay_mon (s : State) (b : BayNo) (f : AuxBay → AuxBay) (cc : BayNo) : ((State.modAux s b f).bay cc).mon = (s.bay cc).mon :=
  State.bay_modBay_same (·.mon) s b cc _ fun _ => rfl
@[simp] theorem State.modAux_bay_jtag (s : State) (b : BayNo) (f : AuxBay → AuxBay) (cc : BayNo) : ((State.modAux s b f).bay cc).jtag = (s.bay cc).jtag :=
  State.bay_modBay_same (·.jtag) s b cc _ fun _ => rfl
@[simp] theorem State.modAux_nowAt (s : State) (b : BayNo) (f : AuxBay → AuxBay) (cc : BayNo) : (State.modAux s b f).nowAt cc = s.nowAt cc :=
  congrArg (fun t : TbsBay => Tide.stamp t.tide) (State.modAux_bay_tbs s b f cc)
@[simp] theorem State.modAux_now (s : State) (b : BayNo) (f : AuxBay → AuxBay) : (State.modAux s b f).now = s.now := State.modAux_nowAt s b f 0
@[simp] theorem State.modAux_alive (s : State) (b : BayNo) (f : AuxBay → AuxBay) (cc : BayNo) : (State.modAux s b f).alive cc = s.alive cc :=
  State.alive_congr cc rfl rfl (State.modAux_bay_lost s b f cc)
@[simp] theorem State.modAux_liveBays (s : State) (b : BayNo) (f : AuxBay → AuxBay) : (State.modAux s b f).liveBays = s.liveBays :=
  State.liveBays_congr (State.modAux_alive s b f)
@[simp] theorem State.modAux_bay_aux_self (s : State) (b : BayNo) (f : AuxBay → AuxBay) : ((State.modAux s b f).bay b).aux = f (s.bay b).aux :=
  congrArg (fun y : Bay => y.aux) (State.bay_modBay s b _)
theorem State.modAux_bay_aux_ne (s : State) (b : BayNo) (f : AuxBay → AuxBay) {cc : BayNo} (h : cc ≠ b) : ((State.modAux s b f).bay cc).aux = (s.bay cc).aux :=
  congrArg (fun y : Bay => y.aux) (State.bay_modBay_ne s _ h)

@[simp] theorem State.modScn_part (s : State) (b : BayNo) (f : Scn → Scn) : (State.modScn s b f).part = s.part := (rfl)
@[simp] theorem State.modScn_vals (s : State) (b : BayNo) (f : Scn → Scn) : (State.modScn s b f).vals = s.vals := (rfl)
@[simp] theorem State.modScn_img (s : State) (b : BayNo) (f : Scn → Scn) : (State.modScn s b f).img = s.img := (rfl)
@[simp] theorem State.modScn_flash (s : State) (b : BayNo) (f : Scn → Scn) : (State.modScn s b f).flash = s.flash := (rfl)
@[simp] theorem State.modScn_tbs (s : State) (b : BayNo) (f : Scn → Scn) : (State.modScn s b f).tbs = s.tbs := (rfl)
@[simp] theorem State.modScn_sel (s : State) (b : BayNo) (f : Scn → Scn) : (State.modScn s b f).sel = s.sel := (rfl)
@[simp] theorem State.modScn_keeper (s : State) (b : BayNo) (f : Scn → Scn) : (State.modScn s b f).keeper = s.keeper := (rfl)
@[simp] theorem State.modScn_pwr (s : State) (b : BayNo) (f : Scn → Scn) : (State.modScn s b f).pwr = s.pwr := (rfl)
@[simp] theorem State.modScn_faults (s : State) (b : BayNo) (f : Scn → Scn) : (State.modScn s b f).faults = s.faults := (rfl)
@[simp] theorem State.modScn_trg (s : State) (b : BayNo) (f : Scn → Scn) : (State.modScn s b f).trg = s.trg := (rfl)
@[simp] theorem State.modScn_ident (s : State) (b : BayNo) (f : Scn → Scn) : (State.modScn s b f).ident = s.ident := (rfl)
@[simp] theorem State.modScn_eth (s : State) (b : BayNo) (f : Scn → Scn) : (State.modScn s b f).eth = s.eth := (rfl)
@[simp] theorem State.modScn_lnl (s : State) (b : BayNo) (f : Scn → Scn) : (State.modScn s b f).lnl = s.lnl := (rfl)
@[simp] theorem State.modScn_inj (s : State) (b : BayNo) (f : Scn → Scn) : (State.modScn s b f).inj = s.inj := (rfl)
@[simp] theorem State.modScn_clrPin (s : State) (b : BayNo) (f : Scn → Scn) : (State.modScn s b f).clrPin = s.clrPin := (rfl)
@[simp] theorem State.modScn_rstLow (s : State) (b : BayNo) (f : Scn → Scn) : (State.modScn s b f).rstLow = s.rstLow := (rfl)
@[simp] theorem State.modScn_fresh (s : State) (b : BayNo) (f : Scn → Scn) : (State.modScn s b f).fresh = s.fresh := (rfl)
@[simp] theorem State.modScn_outbox (s : State) (b : BayNo) (f : Scn → Scn) : (State.modScn s b f).outbox = s.outbox := (rfl)
@[simp] theorem State.modScn_pending (s : State) (b : BayNo) (f : Scn → Scn) : (State.modScn s b f).pending = s.pending := (rfl)
@[simp] theorem State.modScn_fld (s : State) (b : BayNo) (f : Scn → Scn) (g : Field) (cc : BayNo) (j1 k1 : Nat) : (State.modScn s b f).fld g cc j1 k1 = s.fld g cc j1 k1 := (rfl)
@[simp] theorem State.modScn_fldN (s : State) (b : BayNo) (f : Scn → Scn) (g : Field) (cc : BayNo) (j1 k1 : Nat) : (State.modScn s b f).fldN g cc j1 k1 = s.fldN g cc j1 k1 := (rfl)
@[simp] theorem State.modScn_fldB (s : State) (b : BayNo) (f : Scn → Scn) (g : Field) (cc : BayNo) (j1 : Nat) : (State.modScn s b f).fldB g cc j1 = s.fldB g cc j1 := (rfl)
@[simp] theorem State.modScn_pkgN (s : State) (b : BayNo) (f : Scn → Scn) (g : Field) (j1 : Nat) : (State.modScn s b f).pkgN g j1 = s.pkgN g j1 := (rfl)
@[simp] theorem State.modScn_bay_lost (s : State) (b : BayNo) (f : Scn → Scn) (cc : BayNo) : ((State.modScn s b f).bay cc).lost = (s.bay cc).lost :=
  State.bay_modBay_same (·.lost) s b cc _ fun _ => rfl
@[simp] theorem State.modScn_bay_clk (s : State) (b : BayNo) (f : Scn → Scn) (cc : BayNo) : ((State.modScn s b f).bay cc).clk = (s.bay cc).clk :=
  State.bay_modBay_same (·.clk) s b cc _ fun _ => rfl
@[simp] theorem State.modScn_bay_tbs (s : State) (b : BayNo) (f : Scn → Scn) (cc : BayNo) : ((State.modScn s b f).bay cc).tbs = (s.bay cc).tbs :=
  State.bay_modBay_same (·.tbs) s b cc _ fun _ => rfl
@[simp] theorem State.modScn_bay_que (s : State) (b : BayNo) (f : Scn → Scn) (cc : BayNo) : ((State.modScn s b f).bay cc).que = (s.bay cc).que :=
  State.bay_modBay_same (·.que) s b cc _ fun _ => rfl
@[simp] theorem State.modScn_bay_dma (s : State) (b : BayNo) (f : Scn → Scn) (cc : BayNo) : ((State.modScn s b f).bay cc).dma = (s.bay cc).dma :=
  State.bay_modBay_same (·.dma) s b cc _ fun _ => rfl
@[simp] theorem State.modScn_bay_pwr (s : State) (b : BayNo) (f : Scn → Scn) (cc : BayNo) : ((State.modScn s b f).bay cc).pwr = (s.bay cc).pwr :=
  State.bay_modBay_same (·.pwr) s b cc _ fun _ => rfl
@[simp] theorem State.modScn_bay_trg (s : State) (b : BayNo) (f : Scn → Scn) (cc : BayNo) : ((State.modScn s b f).bay cc).trg = (s.bay cc).trg :=
  State.bay_modBay_same (·.trg) s b cc _ fun _ => rfl
@[simp] theorem State.modScn_bay_afe (s : State) (b : BayNo) (f : Scn → Scn) (cc : BayNo) : ((State.modScn s b f).bay cc).afe = (s.bay cc).afe :=
  State.bay_modBay_same (·.afe) s b cc _ fun _ => rfl
@[simp] theorem State.modScn_bay_adc (s : State) (b : BayNo) (f : Scn → Scn) (cc : BayNo) : ((State.modScn s b f).bay cc).adc = (s.bay cc).adc :=
  State.bay_modBay_same (·.adc) s b cc _ fun _ => rfl
@[simp] theorem State.modScn_bay_ddc (s : State) (b : BayNo) (f : Scn → Scn) (cc : BayNo) : ((State.modScn s b f).bay cc).ddc = (s.bay cc).ddc :=
  State.bay_modBay_same (·.ddc) s b cc _ fun _ => rfl
@[simp] theorem State.modScn_bay_xfm (s : State) (b : BayNo) (f : Scn → Scn) (cc : BayNo) : ((State.modScn s b f).bay cc).xfm = (s.bay cc).xfm :=
  State.bay_modBay_same (·.xfm) s b cc _ fun _ => rfl
@[simp] theorem State.modScn_bay_den (s : State) (b : BayNo) (f : Scn → Scn) (cc : BayNo) : ((State.modScn s b f).bay cc).den = (s.bay cc).den :=
  State.bay_modBay_same (·.den) s b cc _ fun _ => rfl
@[simp] theorem State.modScn_bay_mco (s : State) (b : BayNo) (f : Scn → Scn) (cc : BayNo) : ((State.modScn s b f).bay cc).mco = (s.bay cc).mco :=
  State.bay_modBay_same (·.mco) s b cc _ fun _ => rfl
@[simp] theorem State.modScn_bay_recorder (s : State) (b : BayNo) (f : Scn → Scn) (cc : BayNo) : ((State.modScn s b f).bay cc).recorder = (s.bay cc).recorder :=
  State.bay_modBay_same (·.recorder) s b cc _ fun _ => rfl
@[simp] theorem State.modScn_bay_lne (s : State) (b : BayNo) (f : Scn → Scn) (cc : BayNo) : ((State.modScn s b f).bay cc).lne = (s.bay cc).lne :=
  State.bay_modBay_same (·.lne) s b cc _ fun _ => rfl
@[simp] theorem State.modScn_bay_pci (s : State) (b : BayNo) (f : Scn → Scn) (cc : BayNo) : ((State.modScn s b f).bay cc).pci = (s.bay cc).pci :=
  State.bay_modBay_same (·.pci) s b cc _ fun _ => rfl
@[simp] theorem State.modScn_bay_eth (s : State) (b : BayNo) (f : Scn → Scn) (cc : BayNo) : ((State.modScn s b f).bay cc).eth = (s.bay cc).eth :=
  State.bay_modBay_same (·.eth) s b cc _ fun _ => rfl
@[simp] theorem State.modScn_bay_jes (s : State) (b : BayNo) (f : Scn → Scn) (cc : BayNo) : ((State.modScn s b f).bay cc).jes = (s.bay cc).jes :=
  State.bay_modBay_same (·.jes) s b cc _ fun _ => rfl
@[simp] theorem State.modScn_bay_lnl (s : State) (b : BayNo) (f : Scn → Scn) (cc : BayNo) : ((State.modScn s b f).bay cc).lnl = (s.bay cc).lnl :=
  State.bay_modBay_same (·.lnl) s b cc _ fun _ => rfl
@[simp] theorem State.modScn_bay_cal (s : State) (b : BayNo) (f : Scn → Scn) (cc : BayNo) : ((State.modScn s b f).bay cc).cal = (s.bay cc).cal :=
  State.bay_modBay_same (·.cal) s b cc _ fun _ => rfl
@[simp] theorem State.modScn_bay_hkc (s : State) (b : BayNo) (f : Scn → Scn) (cc : BayNo) : ((State.modScn s b f).bay cc).hkc = (s.bay cc).hkc :=
  State.bay_modBay_same (·.hkc) s b cc _ fun _ => rfl
@[simp] theorem State.modScn_bay_aux (s : State) (b : BayNo) (f : Scn → Scn) (cc : BayNo) : ((State.modScn s b f).bay cc).aux = (s.bay cc).aux :=
  State.bay_modBay_same (·.aux) s b cc _ fun _ => rfl
@[simp] theorem State.modScn_bay_mon (s : State) (b : BayNo) (f : Scn → Scn) (cc : BayNo) : ((State.modScn s b f).bay cc).mon = (s.bay cc).mon :=
  State.bay_modBay_same (·.mon) s b cc _ fun _ => rfl
@[simp] theorem State.modScn_bay_jtag (s : State) (b : BayNo) (f : Scn → Scn) (cc : BayNo) : ((State.modScn s b f).bay cc).jtag = (s.bay cc).jtag :=
  State.bay_modBay_same (·.jtag) s b cc _ fun _ => rfl
@[simp] theorem State.modScn_nowAt (s : State) (b : BayNo) (f : Scn → Scn) (cc : BayNo) : (State.modScn s b f).nowAt cc = s.nowAt cc :=
  congrArg (fun t : TbsBay => Tide.stamp t.tide) (State.modScn_bay_tbs s b f cc)
@[simp] theorem State.modScn_now (s : State) (b : BayNo) (f : Scn → Scn) : (State.modScn s b f).now = s.now := State.modScn_nowAt s b f 0
@[simp] theorem State.modScn_alive (s : State) (b : BayNo) (f : Scn → Scn) (cc : BayNo) : (State.modScn s b f).alive cc = s.alive cc :=
  State.alive_congr cc rfl rfl (State.modScn_bay_lost s b f cc)
@[simp] theorem State.modScn_liveBays (s : State) (b : BayNo) (f : Scn → Scn) : (State.modScn s b f).liveBays = s.liveBays :=
  State.liveBays_congr (State.modScn_alive s b f)
@[simp] theorem State.modScn_bay_scn_self (s : State) (b : BayNo) (f : Scn → Scn) : ((State.modScn s b f).bay b).scn = f (s.bay b).scn :=
  congrArg (fun y : Bay => y.scn) (State.bay_modBay s b _)
theorem State.modScn_bay_scn_ne (s : State) (b : BayNo) (f : Scn → Scn) {cc : BayNo} (h : cc ≠ b) : ((State.modScn s b f).bay cc).scn = (s.bay cc).scn :=
  congrArg (fun y : Bay => y.scn) (State.bay_modBay_ne s _ h)

@[simp] theorem State.modRo_part (s : State) (b : BayNo) (f : Readout → Readout) : (State.modRo s b f).part = s.part := (rfl)
@[simp] theorem State.modRo_vals (s : State) (b : BayNo) (f : Readout → Readout) : (State.modRo s b f).vals = s.vals := (rfl)
@[simp] theorem State.modRo_img (s : State) (b : BayNo) (f : Readout → Readout) : (State.modRo s b f).img = s.img := (rfl)
@[simp] theorem State.modRo_flash (s : State) (b : BayNo) (f : Readout → Readout) : (State.modRo s b f).flash = s.flash := (rfl)
@[simp] theorem State.modRo_tbs (s : State) (b : BayNo) (f : Readout → Readout) : (State.modRo s b f).tbs = s.tbs := (rfl)
@[simp] theorem State.modRo_sel (s : State) (b : BayNo) (f : Readout → Readout) : (State.modRo s b f).sel = s.sel := (rfl)
@[simp] theorem State.modRo_keeper (s : State) (b : BayNo) (f : Readout → Readout) : (State.modRo s b f).keeper = s.keeper := (rfl)
@[simp] theorem State.modRo_pwr (s : State) (b : BayNo) (f : Readout → Readout) : (State.modRo s b f).pwr = s.pwr := (rfl)
@[simp] theorem State.modRo_faults (s : State) (b : BayNo) (f : Readout → Readout) : (State.modRo s b f).faults = s.faults := (rfl)
@[simp] theorem State.modRo_trg (s : State) (b : BayNo) (f : Readout → Readout) : (State.modRo s b f).trg = s.trg := (rfl)
@[simp] theorem State.modRo_ident (s : State) (b : BayNo) (f : Readout → Readout) : (State.modRo s b f).ident = s.ident := (rfl)
@[simp] theorem State.modRo_eth (s : State) (b : BayNo) (f : Readout → Readout) : (State.modRo s b f).eth = s.eth := (rfl)
@[simp] theorem State.modRo_lnl (s : State) (b : BayNo) (f : Readout → Readout) : (State.modRo s b f).lnl = s.lnl := (rfl)
@[simp] theorem State.modRo_inj (s : State) (b : BayNo) (f : Readout → Readout) : (State.modRo s b f).inj = s.inj := (rfl)
@[simp] theorem State.modRo_clrPin (s : State) (b : BayNo) (f : Readout → Readout) : (State.modRo s b f).clrPin = s.clrPin := (rfl)
@[simp] theorem State.modRo_rstLow (s : State) (b : BayNo) (f : Readout → Readout) : (State.modRo s b f).rstLow = s.rstLow := (rfl)
@[simp] theorem State.modRo_fresh (s : State) (b : BayNo) (f : Readout → Readout) : (State.modRo s b f).fresh = s.fresh := (rfl)
@[simp] theorem State.modRo_outbox (s : State) (b : BayNo) (f : Readout → Readout) : (State.modRo s b f).outbox = s.outbox := (rfl)
@[simp] theorem State.modRo_pending (s : State) (b : BayNo) (f : Readout → Readout) : (State.modRo s b f).pending = s.pending := (rfl)
@[simp] theorem State.modRo_fld (s : State) (b : BayNo) (f : Readout → Readout) (g : Field) (cc : BayNo) (j1 k1 : Nat) : (State.modRo s b f).fld g cc j1 k1 = s.fld g cc j1 k1 := (rfl)
@[simp] theorem State.modRo_fldN (s : State) (b : BayNo) (f : Readout → Readout) (g : Field) (cc : BayNo) (j1 k1 : Nat) : (State.modRo s b f).fldN g cc j1 k1 = s.fldN g cc j1 k1 := (rfl)
@[simp] theorem State.modRo_fldB (s : State) (b : BayNo) (f : Readout → Readout) (g : Field) (cc : BayNo) (j1 : Nat) : (State.modRo s b f).fldB g cc j1 = s.fldB g cc j1 := (rfl)
@[simp] theorem State.modRo_pkgN (s : State) (b : BayNo) (f : Readout → Readout) (g : Field) (j1 : Nat) : (State.modRo s b f).pkgN g j1 = s.pkgN g j1 := (rfl)
@[simp] theorem State.modRo_bay_lost (s : State) (b : BayNo) (f : Readout → Readout) (cc : BayNo) : ((State.modRo s b f).bay cc).lost = (s.bay cc).lost :=
  State.bay_modBay_same (·.lost) s b cc _ fun _ => rfl
@[simp] theorem State.modRo_bay_clk (s : State) (b : BayNo) (f : Readout → Readout) (cc : BayNo) : ((State.modRo s b f).bay cc).clk = (s.bay cc).clk :=
  State.bay_modBay_same (·.clk) s b cc _ fun _ => rfl
@[simp] theorem State.modRo_bay_tbs (s : State) (b : BayNo) (f : Readout → Readout) (cc : BayNo) : ((State.modRo s b f).bay cc).tbs = (s.bay cc).tbs :=
  State.bay_modBay_same (·.tbs) s b cc _ fun _ => rfl
@[simp] theorem State.modRo_bay_que (s : State) (b : BayNo) (f : Readout → Readout) (cc : BayNo) : ((State.modRo s b f).bay cc).que = (s.bay cc).que :=
  State.bay_modBay_same (·.que) s b cc _ fun _ => rfl
@[simp] theorem State.modRo_bay_dma (s : State) (b : BayNo) (f : Readout → Readout) (cc : BayNo) : ((State.modRo s b f).bay cc).dma = (s.bay cc).dma :=
  State.bay_modBay_same (·.dma) s b cc _ fun _ => rfl
@[simp] theorem State.modRo_bay_pwr (s : State) (b : BayNo) (f : Readout → Readout) (cc : BayNo) : ((State.modRo s b f).bay cc).pwr = (s.bay cc).pwr :=
  State.bay_modBay_same (·.pwr) s b cc _ fun _ => rfl
@[simp] theorem State.modRo_bay_trg (s : State) (b : BayNo) (f : Readout → Readout) (cc : BayNo) : ((State.modRo s b f).bay cc).trg = (s.bay cc).trg :=
  State.bay_modBay_same (·.trg) s b cc _ fun _ => rfl
@[simp] theorem State.modRo_bay_afe (s : State) (b : BayNo) (f : Readout → Readout) (cc : BayNo) : ((State.modRo s b f).bay cc).afe = (s.bay cc).afe :=
  State.bay_modBay_same (·.afe) s b cc _ fun _ => rfl
@[simp] theorem State.modRo_bay_adc (s : State) (b : BayNo) (f : Readout → Readout) (cc : BayNo) : ((State.modRo s b f).bay cc).adc = (s.bay cc).adc :=
  State.bay_modBay_same (·.adc) s b cc _ fun _ => rfl
@[simp] theorem State.modRo_bay_ddc (s : State) (b : BayNo) (f : Readout → Readout) (cc : BayNo) : ((State.modRo s b f).bay cc).ddc = (s.bay cc).ddc :=
  State.bay_modBay_same (·.ddc) s b cc _ fun _ => rfl
@[simp] theorem State.modRo_bay_xfm (s : State) (b : BayNo) (f : Readout → Readout) (cc : BayNo) : ((State.modRo s b f).bay cc).xfm = (s.bay cc).xfm :=
  State.bay_modBay_same (·.xfm) s b cc _ fun _ => rfl
@[simp] theorem State.modRo_bay_den (s : State) (b : BayNo) (f : Readout → Readout) (cc : BayNo) : ((State.modRo s b f).bay cc).den = (s.bay cc).den :=
  State.bay_modBay_same (·.den) s b cc _ fun _ => rfl
@[simp] theorem State.modRo_bay_mco (s : State) (b : BayNo) (f : Readout → Readout) (cc : BayNo) : ((State.modRo s b f).bay cc).mco = (s.bay cc).mco :=
  State.bay_modBay_same (·.mco) s b cc _ fun _ => rfl
@[simp] theorem State.modRo_bay_recorder (s : State) (b : BayNo) (f : Readout → Readout) (cc : BayNo) : ((State.modRo s b f).bay cc).recorder = (s.bay cc).recorder :=
  State.bay_modBay_same (·.recorder) s b cc _ fun _ => rfl
@[simp] theorem State.modRo_bay_lne (s : State) (b : BayNo) (f : Readout → Readout) (cc : BayNo) : ((State.modRo s b f).bay cc).lne = (s.bay cc).lne :=
  State.bay_modBay_same (·.lne) s b cc _ fun _ => rfl
@[simp] theorem State.modRo_bay_pci (s : State) (b : BayNo) (f : Readout → Readout) (cc : BayNo) : ((State.modRo s b f).bay cc).pci = (s.bay cc).pci :=
  State.bay_modBay_same (·.pci) s b cc _ fun _ => rfl
@[simp] theorem State.modRo_bay_eth (s : State) (b : BayNo) (f : Readout → Readout) (cc : BayNo) : ((State.modRo s b f).bay cc).eth = (s.bay cc).eth :=
  State.bay_modBay_same (·.eth) s b cc _ fun _ => rfl
@[simp] theorem State.modRo_bay_jes (s : State) (b : BayNo) (f : Readout → Readout) (cc : BayNo) : ((State.modRo s b f).bay cc).jes = (s.bay cc).jes :=
  State.bay_modBay_same (·.jes) s b cc _ fun _ => rfl
@[simp] theorem State.modRo_bay_lnl (s : State) (b : BayNo) (f : Readout → Readout) (cc : BayNo) : ((State.modRo s b f).bay cc).lnl = (s.bay cc).lnl :=
  State.bay_modBay_same (·.lnl) s b cc _ fun _ => rfl
@[simp] theorem State.modRo_bay_cal (s : State) (b : BayNo) (f : Readout → Readout) (cc : BayNo) : ((State.modRo s b f).bay cc).cal = (s.bay cc).cal :=
  State.bay_modBay_same (·.cal) s b cc _ fun _ => rfl
@[simp] theorem State.modRo_bay_hkc (s : State) (b : BayNo) (f : Readout → Readout) (cc : BayNo) : ((State.modRo s b f).bay cc).hkc = (s.bay cc).hkc :=
  State.bay_modBay_same (·.hkc) s b cc _ fun _ => rfl
@[simp] theorem State.modRo_bay_aux (s : State) (b : BayNo) (f : Readout → Readout) (cc : BayNo) : ((State.modRo s b f).bay cc).aux = (s.bay cc).aux :=
  State.bay_modBay_same (·.aux) s b cc _ fun _ => rfl
@[simp] theorem State.modRo_bay_mon (s : State) (b : BayNo) (f : Readout → Readout) (cc : BayNo) : ((State.modRo s b f).bay cc).mon = (s.bay cc).mon :=
  State.bay_modBay_same (·.mon) s b cc _ fun _ => rfl
@[simp] theorem State.modRo_bay_jtag (s : State) (b : BayNo) (f : Readout → Readout) (cc : BayNo) : ((State.modRo s b f).bay cc).jtag = (s.bay cc).jtag :=
  State.bay_modBay_same (·.jtag) s b cc _ fun _ => rfl
@[simp] theorem State.modRo_nowAt (s : State) (b : BayNo) (f : Readout → Readout) (cc : BayNo) : (State.modRo s b f).nowAt cc = s.nowAt cc :=
  congrArg (fun t : TbsBay => Tide.stamp t.tide) (State.modRo_bay_tbs s b f cc)
@[simp] theorem State.modRo_now (s : State) (b : BayNo) (f : Readout → Readout) : (State.modRo s b f).now = s.now := State.modRo_nowAt s b f 0
@[simp] theorem State.modRo_alive (s : State) (b : BayNo) (f : Readout → Readout) (cc : BayNo) : (State.modRo s b f).alive cc = s.alive cc :=
  State.alive_congr cc rfl rfl (State.modRo_bay_lost s b f cc)
@[simp] theorem State.modRo_liveBays (s : State) (b : BayNo) (f : Readout → Readout) : (State.modRo s b f).liveBays = s.liveBays :=
  State.liveBays_congr (State.modRo_alive s b f)

@[simp] theorem State.modCore_part (s : State) (b : BayNo) (c : CoreNo) (f : Core → Core) : (State.modCore s b c f).part = s.part := (rfl)
@[simp] theorem State.modCore_vals (s : State) (b : BayNo) (c : CoreNo) (f : Core → Core) : (State.modCore s b c f).vals = s.vals := (rfl)
@[simp] theorem State.modCore_img (s : State) (b : BayNo) (c : CoreNo) (f : Core → Core) : (State.modCore s b c f).img = s.img := (rfl)
@[simp] theorem State.modCore_flash (s : State) (b : BayNo) (c : CoreNo) (f : Core → Core) : (State.modCore s b c f).flash = s.flash := (rfl)
@[simp] theorem State.modCore_tbs (s : State) (b : BayNo) (c : CoreNo) (f : Core → Core) : (State.modCore s b c f).tbs = s.tbs := (rfl)
@[simp] theorem State.modCore_sel (s : State) (b : BayNo) (c : CoreNo) (f : Core → Core) : (State.modCore s b c f).sel = s.sel := (rfl)
@[simp] theorem State.modCore_keeper (s : State) (b : BayNo) (c : CoreNo) (f : Core → Core) : (State.modCore s b c f).keeper = s.keeper := (rfl)
@[simp] theorem State.modCore_pwr (s : State) (b : BayNo) (c : CoreNo) (f : Core → Core) : (State.modCore s b c f).pwr = s.pwr := (rfl)
@[simp] theorem State.modCore_faults (s : State) (b : BayNo) (c : CoreNo) (f : Core → Core) : (State.modCore s b c f).faults = s.faults := (rfl)
@[simp] theorem State.modCore_trg (s : State) (b : BayNo) (c : CoreNo) (f : Core → Core) : (State.modCore s b c f).trg = s.trg := (rfl)
@[simp] theorem State.modCore_ident (s : State) (b : BayNo) (c : CoreNo) (f : Core → Core) : (State.modCore s b c f).ident = s.ident := (rfl)
@[simp] theorem State.modCore_eth (s : State) (b : BayNo) (c : CoreNo) (f : Core → Core) : (State.modCore s b c f).eth = s.eth := (rfl)
@[simp] theorem State.modCore_lnl (s : State) (b : BayNo) (c : CoreNo) (f : Core → Core) : (State.modCore s b c f).lnl = s.lnl := (rfl)
@[simp] theorem State.modCore_inj (s : State) (b : BayNo) (c : CoreNo) (f : Core → Core) : (State.modCore s b c f).inj = s.inj := (rfl)
@[simp] theorem State.modCore_clrPin (s : State) (b : BayNo) (c : CoreNo) (f : Core → Core) : (State.modCore s b c f).clrPin = s.clrPin := (rfl)
@[simp] theorem State.modCore_rstLow (s : State) (b : BayNo) (c : CoreNo) (f : Core → Core) : (State.modCore s b c f).rstLow = s.rstLow := (rfl)
@[simp] theorem State.modCore_fresh (s : State) (b : BayNo) (c : CoreNo) (f : Core → Core) : (State.modCore s b c f).fresh = s.fresh := (rfl)
@[simp] theorem State.modCore_outbox (s : State) (b : BayNo) (c : CoreNo) (f : Core → Core) : (State.modCore s b c f).outbox = s.outbox := (rfl)
@[simp] theorem State.modCore_pending (s : State) (b : BayNo) (c : CoreNo) (f : Core → Core) : (State.modCore s b c f).pending = s.pending := (rfl)
@[simp] theorem State.modCore_fld (s : State) (b : BayNo) (c : CoreNo) (f : Core → Core) (g : Field) (cc : BayNo) (j1 k1 : Nat) : (State.modCore s b c f).fld g cc j1 k1 = s.fld g cc j1 k1 := (rfl)
@[simp] theorem State.modCore_fldN (s : State) (b : BayNo) (c : CoreNo) (f : Core → Core) (g : Field) (cc : BayNo) (j1 k1 : Nat) : (State.modCore s b c f).fldN g cc j1 k1 = s.fldN g cc j1 k1 := (rfl)
@[simp] theorem State.modCore_fldB (s : State) (b : BayNo) (c : CoreNo) (f : Core → Core) (g : Field) (cc : BayNo) (j1 : Nat) : (State.modCore s b c f).fldB g cc j1 = s.fldB g cc j1 := (rfl)
@[simp] theorem State.modCore_pkgN (s : State) (b : BayNo) (c : CoreNo) (f : Core → Core) (g : Field) (j1 : Nat) : (State.modCore s b c f).pkgN g j1 = s.pkgN g j1 := (rfl)
@[simp] theorem State.modCore_bay_lost (s : State) (b : BayNo) (c : CoreNo) (f : Core → Core) (cc : BayNo) : ((State.modCore s b c f).bay cc).lost = (s.bay cc).lost :=
  State.bay_modBay_same (·.lost) s b cc _ fun _ => rfl
@[simp] theorem State.modCore_bay_clk (s : State) (b : BayNo) (c : CoreNo) (f : Core → Core) (cc : BayNo) : ((State.modCore s b c f).bay cc).clk = (s.bay cc).clk :=
  State.bay_modBay_same (·.clk) s b cc _ fun _ => rfl
@[simp] theorem State.modCore_bay_tbs (s : State) (b : BayNo) (c : CoreNo) (f : Core → Core) (cc : BayNo) : ((State.modCore s b c f).bay cc).tbs = (s.bay cc).tbs :=
  State.bay_modBay_same (·.tbs) s b cc _ fun _ => rfl
@[simp] theorem State.modCore_bay_que (s : State) (b : BayNo) (c : CoreNo) (f : Core → Core) (cc : BayNo) : ((State.modCore s b c f).bay cc).que = (s.bay cc).que :=
  State.bay_modBay_same (·.que) s b cc _ fun _ => rfl
@[simp] theorem State.modCore_bay_dma (s : State) (b : BayNo) (c : CoreNo) (f : Core → Core) (cc : BayNo) : ((State.modCore s b c f).bay cc).dma = (s.bay cc).dma :=
  State.bay_modBay_same (·.dma) s b cc _ fun _ => rfl
@[simp] theorem State.modCore_bay_pwr (s : State) (b : BayNo) (c : CoreNo) (f : Core → Core) (cc : BayNo) : ((State.modCore s b c f).bay cc).pwr = (s.bay cc).pwr :=
  State.bay_modBay_same (·.pwr) s b cc _ fun _ => rfl
@[simp] theorem State.modCore_bay_trg (s : State) (b : BayNo) (c : CoreNo) (f : Core → Core) (cc : BayNo) : ((State.modCore s b c f).bay cc).trg = (s.bay cc).trg :=
  State.bay_modBay_same (·.trg) s b cc _ fun _ => rfl
@[simp] theorem State.modCore_bay_afe (s : State) (b : BayNo) (c : CoreNo) (f : Core → Core) (cc : BayNo) : ((State.modCore s b c f).bay cc).afe = (s.bay cc).afe :=
  State.bay_modBay_same (·.afe) s b cc _ fun _ => rfl
@[simp] theorem State.modCore_bay_adc (s : State) (b : BayNo) (c : CoreNo) (f : Core → Core) (cc : BayNo) : ((State.modCore s b c f).bay cc).adc = (s.bay cc).adc :=
  State.bay_modBay_same (·.adc) s b cc _ fun _ => rfl
@[simp] theorem State.modCore_bay_ddc (s : State) (b : BayNo) (c : CoreNo) (f : Core → Core) (cc : BayNo) : ((State.modCore s b c f).bay cc).ddc = (s.bay cc).ddc :=
  State.bay_modBay_same (·.ddc) s b cc _ fun _ => rfl
@[simp] theorem State.modCore_bay_xfm (s : State) (b : BayNo) (c : CoreNo) (f : Core → Core) (cc : BayNo) : ((State.modCore s b c f).bay cc).xfm = (s.bay cc).xfm :=
  State.bay_modBay_same (·.xfm) s b cc _ fun _ => rfl
@[simp] theorem State.modCore_bay_den (s : State) (b : BayNo) (c : CoreNo) (f : Core → Core) (cc : BayNo) : ((State.modCore s b c f).bay cc).den = (s.bay cc).den :=
  State.bay_modBay_same (·.den) s b cc _ fun _ => rfl
@[simp] theorem State.modCore_bay_scn (s : State) (b : BayNo) (c : CoreNo) (f : Core → Core) (cc : BayNo) : ((State.modCore s b c f).bay cc).scn = (s.bay cc).scn :=
  State.bay_modBay_same (·.scn) s b cc _ fun _ => rfl
@[simp] theorem State.modCore_bay_recorder (s : State) (b : BayNo) (c : CoreNo) (f : Core → Core) (cc : BayNo) : ((State.modCore s b c f).bay cc).recorder = (s.bay cc).recorder :=
  State.bay_modBay_same (·.recorder) s b cc _ fun _ => rfl
@[simp] theorem State.modCore_bay_lne (s : State) (b : BayNo) (c : CoreNo) (f : Core → Core) (cc : BayNo) : ((State.modCore s b c f).bay cc).lne = (s.bay cc).lne :=
  State.bay_modBay_same (·.lne) s b cc _ fun _ => rfl
@[simp] theorem State.modCore_bay_pci (s : State) (b : BayNo) (c : CoreNo) (f : Core → Core) (cc : BayNo) : ((State.modCore s b c f).bay cc).pci = (s.bay cc).pci :=
  State.bay_modBay_same (·.pci) s b cc _ fun _ => rfl
@[simp] theorem State.modCore_bay_eth (s : State) (b : BayNo) (c : CoreNo) (f : Core → Core) (cc : BayNo) : ((State.modCore s b c f).bay cc).eth = (s.bay cc).eth :=
  State.bay_modBay_same (·.eth) s b cc _ fun _ => rfl
@[simp] theorem State.modCore_bay_jes (s : State) (b : BayNo) (c : CoreNo) (f : Core → Core) (cc : BayNo) : ((State.modCore s b c f).bay cc).jes = (s.bay cc).jes :=
  State.bay_modBay_same (·.jes) s b cc _ fun _ => rfl
@[simp] theorem State.modCore_bay_lnl (s : State) (b : BayNo) (c : CoreNo) (f : Core → Core) (cc : BayNo) : ((State.modCore s b c f).bay cc).lnl = (s.bay cc).lnl :=
  State.bay_modBay_same (·.lnl) s b cc _ fun _ => rfl
@[simp] theorem State.modCore_bay_cal (s : State) (b : BayNo) (c : CoreNo) (f : Core → Core) (cc : BayNo) : ((State.modCore s b c f).bay cc).cal = (s.bay cc).cal :=
  State.bay_modBay_same (·.cal) s b cc _ fun _ => rfl
@[simp] theorem State.modCore_bay_hkc (s : State) (b : BayNo) (c : CoreNo) (f : Core → Core) (cc : BayNo) : ((State.modCore s b c f).bay cc).hkc = (s.bay cc).hkc :=
  State.bay_modBay_same (·.hkc) s b cc _ fun _ => rfl
@[simp] theorem State.modCore_bay_aux (s : State) (b : BayNo) (c : CoreNo) (f : Core → Core) (cc : BayNo) : ((State.modCore s b c f).bay cc).aux = (s.bay cc).aux :=
  State.bay_modBay_same (·.aux) s b cc _ fun _ => rfl
@[simp] theorem State.modCore_bay_mon (s : State) (b : BayNo) (c : CoreNo) (f : Core → Core) (cc : BayNo) : ((State.modCore s b c f).bay cc).mon = (s.bay cc).mon :=
  State.bay_modBay_same (·.mon) s b cc _ fun _ => rfl
@[simp] theorem State.modCore_bay_jtag (s : State) (b : BayNo) (c : CoreNo) (f : Core → Core) (cc : BayNo) : ((State.modCore s b c f).bay cc).jtag = (s.bay cc).jtag :=
  State.bay_modBay_same (·.jtag) s b cc _ fun _ => rfl
@[simp] theorem State.modCore_nowAt (s : State) (b : BayNo) (c : CoreNo) (f : Core → Core) (cc : BayNo) : (State.modCore s b c f).nowAt cc = s.nowAt cc :=
  congrArg (fun t : TbsBay => Tide.stamp t.tide) (State.modCore_bay_tbs s b c f cc)
@[simp] theorem State.modCore_now (s : State) (b : BayNo) (c : CoreNo) (f : Core → Core) : (State.modCore s b c f).now = s.now := State.modCore_nowAt s b c f 0
@[simp] theorem State.modCore_alive (s : State) (b : BayNo) (c : CoreNo) (f : Core → Core) (cc : BayNo) : (State.modCore s b c f).alive cc = s.alive cc :=
  State.alive_congr cc rfl rfl (State.modCore_bay_lost s b c f cc)
@[simp] theorem State.modCore_liveBays (s : State) (b : BayNo) (c : CoreNo) (f : Core → Core) : (State.modCore s b c f).liveBays = s.liveBays :=
  State.liveBays_congr (State.modCore_alive s b c f)
@[simp] theorem State.modCore_bay_mco_self (s : State) (b : BayNo) (c : CoreNo) (f : Core → Core) : ((State.modCore s b c f).bay b).mco = { (s.bay b).mco with cores := (s.bay b).mco.cores.set c (f (s.bay b).mco.cores[c]) } :=
  congrArg (fun y : Bay => y.mco) (State.bay_modBay s b _)
theorem State.modCore_bay_mco_ne (s : State) (b : BayNo) (c : CoreNo) (f : Core → Core) {cc : BayNo} (h : cc ≠ b) : ((State.modCore s b c f).bay cc).mco = (s.bay cc).mco :=
  congrArg (fun y : Bay => y.mco) (State.bay_modBay_ne s _ h)

@[simp] theorem State.modRec_part (s : State) (b : BayNo) (f : Recorder → Recorder) : (State.modRec s b f).part = s.part := (rfl)
@[simp] theorem State.modRec_vals (s : State) (b : BayNo) (f : Recorder → Recorder) : (State.modRec s b f).vals = s.vals := (rfl)
@[simp] theorem State.modRec_img (s : State) (b : BayNo) (f : Recorder → Recorder) : (State.modRec s b f).img = s.img := (rfl)
@[simp] theorem State.modRec_flash (s : State) (b : BayNo) (f : Recorder → Recorder) : (State.modRec s b f).flash = s.flash := (rfl)
@[simp] theorem State.modRec_tbs (s : State) (b : BayNo) (f : Recorder → Recorder) : (State.modRec s b f).tbs = s.tbs := (rfl)
@[simp] theorem State.modRec_sel (s : State) (b : BayNo) (f : Recorder → Recorder) : (State.modRec s b f).sel = s.sel := (rfl)
@[simp] theorem State.modRec_keeper (s : State) (b : BayNo) (f : Recorder → Recorder) : (State.modRec s b f).keeper = s.keeper := (rfl)
@[simp] theorem State.modRec_pwr (s : State) (b : BayNo) (f : Recorder → Recorder) : (State.modRec s b f).pwr = s.pwr := (rfl)
@[simp] theorem State.modRec_faults (s : State) (b : BayNo) (f : Recorder → Recorder) : (State.modRec s b f).faults = s.faults := (rfl)
@[simp] theorem State.modRec_trg (s : State) (b : BayNo) (f : Recorder → Recorder) : (State.modRec s b f).trg = s.trg := (rfl)
@[simp] theorem State.modRec_ident (s : State) (b : BayNo) (f : Recorder → Recorder) : (State.modRec s b f).ident = s.ident := (rfl)
@[simp] theorem State.modRec_eth (s : State) (b : BayNo) (f : Recorder → Recorder) : (State.modRec s b f).eth = s.eth := (rfl)
@[simp] theorem State.modRec_lnl (s : State) (b : BayNo) (f : Recorder → Recorder) : (State.modRec s b f).lnl = s.lnl := (rfl)
@[simp] theorem State.modRec_inj (s : State) (b : BayNo) (f : Recorder → Recorder) : (State.modRec s b f).inj = s.inj := (rfl)
@[simp] theorem State.modRec_clrPin (s : State) (b : BayNo) (f : Recorder → Recorder) : (State.modRec s b f).clrPin = s.clrPin := (rfl)
@[simp] theorem State.modRec_rstLow (s : State) (b : BayNo) (f : Recorder → Recorder) : (State.modRec s b f).rstLow = s.rstLow := (rfl)
@[simp] theorem State.modRec_fresh (s : State) (b : BayNo) (f : Recorder → Recorder) : (State.modRec s b f).fresh = s.fresh := (rfl)
@[simp] theorem State.modRec_outbox (s : State) (b : BayNo) (f : Recorder → Recorder) : (State.modRec s b f).outbox = s.outbox := (rfl)
@[simp] theorem State.modRec_pending (s : State) (b : BayNo) (f : Recorder → Recorder) : (State.modRec s b f).pending = s.pending := (rfl)
@[simp] theorem State.modRec_fld (s : State) (b : BayNo) (f : Recorder → Recorder) (g : Field) (cc : BayNo) (j1 k1 : Nat) : (State.modRec s b f).fld g cc j1 k1 = s.fld g cc j1 k1 := (rfl)
@[simp] theorem State.modRec_fldN (s : State) (b : BayNo) (f : Recorder → Recorder) (g : Field) (cc : BayNo) (j1 k1 : Nat) : (State.modRec s b f).fldN g cc j1 k1 = s.fldN g cc j1 k1 := (rfl)
@[simp] theorem State.modRec_fldB (s : State) (b : BayNo) (f : Recorder → Recorder) (g : Field) (cc : BayNo) (j1 : Nat) : (State.modRec s b f).fldB g cc j1 = s.fldB g cc j1 := (rfl)
@[simp] theorem State.modRec_pkgN (s : State) (b : BayNo) (f : Recorder → Recorder) (g : Field) (j1 : Nat) : (State.modRec s b f).pkgN g j1 = s.pkgN g j1 := (rfl)
@[simp] theorem State.modRec_bay_lost (s : State) (b : BayNo) (f : Recorder → Recorder) (cc : BayNo) : ((State.modRec s b f).bay cc).lost = (s.bay cc).lost :=
  State.bay_modBay_same (·.lost) s b cc _ fun _ => rfl
@[simp] theorem State.modRec_bay_clk (s : State) (b : BayNo) (f : Recorder → Recorder) (cc : BayNo) : ((State.modRec s b f).bay cc).clk = (s.bay cc).clk :=
  State.bay_modBay_same (·.clk) s b cc _ fun _ => rfl
@[simp] theorem State.modRec_bay_tbs (s : State) (b : BayNo) (f : Recorder → Recorder) (cc : BayNo) : ((State.modRec s b f).bay cc).tbs = (s.bay cc).tbs :=
  State.bay_modBay_same (·.tbs) s b cc _ fun _ => rfl
@[simp] theorem State.modRec_bay_que (s : State) (b : BayNo) (f : Recorder → Recorder) (cc : BayNo) : ((State.modRec s b f).bay cc).que = (s.bay cc).que :=
  State.bay_modBay_same (·.que) s b cc _ fun _ => rfl
@[simp] theorem State.modRec_bay_dma (s : State) (b : BayNo) (f : Recorder → Recorder) (cc : BayNo) : ((State.modRec s b f).bay cc).dma = (s.bay cc).dma :=
  State.bay_modBay_same (·.dma) s b cc _ fun _ => rfl
@[simp] theorem State.modRec_bay_pwr (s : State) (b : BayNo) (f : Recorder → Recorder) (cc : BayNo) : ((State.modRec s b f).bay cc).pwr = (s.bay cc).pwr :=
  State.bay_modBay_same (·.pwr) s b cc _ fun _ => rfl
@[simp] theorem State.modRec_bay_trg (s : State) (b : BayNo) (f : Recorder → Recorder) (cc : BayNo) : ((State.modRec s b f).bay cc).trg = (s.bay cc).trg :=
  State.bay_modBay_same (·.trg) s b cc _ fun _ => rfl
@[simp] theorem State.modRec_bay_afe (s : State) (b : BayNo) (f : Recorder → Recorder) (cc : BayNo) : ((State.modRec s b f).bay cc).afe = (s.bay cc).afe :=
  State.bay_modBay_same (·.afe) s b cc _ fun _ => rfl
@[simp] theorem State.modRec_bay_adc (s : State) (b : BayNo) (f : Recorder → Recorder) (cc : BayNo) : ((State.modRec s b f).bay cc).adc = (s.bay cc).adc :=
  State.bay_modBay_same (·.adc) s b cc _ fun _ => rfl
@[simp] theorem State.modRec_bay_ddc (s : State) (b : BayNo) (f : Recorder → Recorder) (cc : BayNo) : ((State.modRec s b f).bay cc).ddc = (s.bay cc).ddc :=
  State.bay_modBay_same (·.ddc) s b cc _ fun _ => rfl
@[simp] theorem State.modRec_bay_xfm (s : State) (b : BayNo) (f : Recorder → Recorder) (cc : BayNo) : ((State.modRec s b f).bay cc).xfm = (s.bay cc).xfm :=
  State.bay_modBay_same (·.xfm) s b cc _ fun _ => rfl
@[simp] theorem State.modRec_bay_den (s : State) (b : BayNo) (f : Recorder → Recorder) (cc : BayNo) : ((State.modRec s b f).bay cc).den = (s.bay cc).den :=
  State.bay_modBay_same (·.den) s b cc _ fun _ => rfl
@[simp] theorem State.modRec_bay_mco (s : State) (b : BayNo) (f : Recorder → Recorder) (cc : BayNo) : ((State.modRec s b f).bay cc).mco = (s.bay cc).mco :=
  State.bay_modBay_same (·.mco) s b cc _ fun _ => rfl
@[simp] theorem State.modRec_bay_scn (s : State) (b : BayNo) (f : Recorder → Recorder) (cc : BayNo) : ((State.modRec s b f).bay cc).scn = (s.bay cc).scn :=
  State.bay_modBay_same (·.scn) s b cc _ fun _ => rfl
@[simp] theorem State.modRec_bay_lne (s : State) (b : BayNo) (f : Recorder → Recorder) (cc : BayNo) : ((State.modRec s b f).bay cc).lne = (s.bay cc).lne :=
  State.bay_modBay_same (·.lne) s b cc _ fun _ => rfl
@[simp] theorem State.modRec_bay_pci (s : State) (b : BayNo) (f : Recorder → Recorder) (cc : BayNo) : ((State.modRec s b f).bay cc).pci = (s.bay cc).pci :=
  State.bay_modBay_same (·.pci) s b cc _ fun _ => rfl
@[simp] theorem State.modRec_bay_eth (s : State) (b : BayNo) (f : Recorder → Recorder) (cc : BayNo) : ((State.modRec s b f).bay cc).eth = (s.bay cc).eth :=
  State.bay_modBay_same (·.eth) s b cc _ fun _ => rfl
@[simp] theorem State.modRec_bay_jes (s : State) (b : BayNo) (f : Recorder → Recorder) (cc : BayNo) : ((State.modRec s b f).bay cc).jes = (s.bay cc).jes :=
  State.bay_modBay_same (·.jes) s b cc _ fun _ => rfl
@[simp] theorem State.modRec_bay_lnl (s : State) (b : BayNo) (f : Recorder → Recorder) (cc : BayNo) : ((State.modRec s b f).bay cc).lnl = (s.bay cc).lnl :=
  State.bay_modBay_same (·.lnl) s b cc _ fun _ => rfl
@[simp] theorem State.modRec_bay_cal (s : State) (b : BayNo) (f : Recorder → Recorder) (cc : BayNo) : ((State.modRec s b f).bay cc).cal = (s.bay cc).cal :=
  State.bay_modBay_same (·.cal) s b cc _ fun _ => rfl
@[simp] theorem State.modRec_bay_hkc (s : State) (b : BayNo) (f : Recorder → Recorder) (cc : BayNo) : ((State.modRec s b f).bay cc).hkc = (s.bay cc).hkc :=
  State.bay_modBay_same (·.hkc) s b cc _ fun _ => rfl
@[simp] theorem State.modRec_bay_aux (s : State) (b : BayNo) (f : Recorder → Recorder) (cc : BayNo) : ((State.modRec s b f).bay cc).aux = (s.bay cc).aux :=
  State.bay_modBay_same (·.aux) s b cc _ fun _ => rfl
@[simp] theorem State.modRec_bay_mon (s : State) (b : BayNo) (f : Recorder → Recorder) (cc : BayNo) : ((State.modRec s b f).bay cc).mon = (s.bay cc).mon :=
  State.bay_modBay_same (·.mon) s b cc _ fun _ => rfl
@[simp] theorem State.modRec_bay_jtag (s : State) (b : BayNo) (f : Recorder → Recorder) (cc : BayNo) : ((State.modRec s b f).bay cc).jtag = (s.bay cc).jtag :=
  State.bay_modBay_same (·.jtag) s b cc _ fun _ => rfl
@[simp] theorem State.modRec_nowAt (s : State) (b : BayNo) (f : Recorder → Recorder) (cc : BayNo) : (State.modRec s b f).nowAt cc = s.nowAt cc :=
  congrArg (fun t : TbsBay => Tide.stamp t.tide) (State.modRec_bay_tbs s b f cc)
@[simp] theorem State.modRec_now (s : State) (b : BayNo) (f : Recorder → Recorder) : (State.modRec s b f).now = s.now := State.modRec_nowAt s b f 0
@[simp] theorem State.modRec_alive (s : State) (b : BayNo) (f : Recorder → Recorder) (cc : BayNo) : (State.modRec s b f).alive cc = s.alive cc :=
  State.alive_congr cc rfl rfl (State.modRec_bay_lost s b f cc)
@[simp] theorem State.modRec_liveBays (s : State) (b : BayNo) (f : Recorder → Recorder) : (State.modRec s b f).liveBays = s.liveBays :=
  State.liveBays_congr (State.modRec_alive s b f)
@[simp] theorem State.modRec_bay_recorder_self (s : State) (b : BayNo) (f : Recorder → Recorder) : ((State.modRec s b f).bay b).recorder = f (s.bay b).recorder :=
  congrArg (fun y : Bay => y.recorder) (State.bay_modBay s b _)
theorem State.modRec_bay_recorder_ne (s : State) (b : BayNo) (f : Recorder → Recorder) {cc : BayNo} (h : cc ≠ b) : ((State.modRec s b f).bay cc).recorder = (s.bay cc).recorder :=
  congrArg (fun y : Bay => y.recorder) (State.bay_modBay_ne s _ h)

@[simp] theorem State.modDrive_part (s : State) (b : BayNo) (d : Fin 8) (f : Drive → Drive) : (State.modDrive s b d f).part = s.part := (rfl)
@[simp] theorem State.modDrive_vals (s : State) (b : BayNo) (d : Fin 8) (f : Drive → Drive) : (State.modDrive s b d f).vals = s.vals := (rfl)
@[simp] theorem State.modDrive_img (s : State) (b : BayNo) (d : Fin 8) (f : Drive → Drive) : (State.modDrive s b d f).img = s.img := (rfl)
@[simp] theorem State.modDrive_flash (s : State) (b : BayNo) (d : Fin 8) (f : Drive → Drive) : (State.modDrive s b d f).flash = s.flash := (rfl)
@[simp] theorem State.modDrive_tbs (s : State) (b : BayNo) (d : Fin 8) (f : Drive → Drive) : (State.modDrive s b d f).tbs = s.tbs := (rfl)
@[simp] theorem State.modDrive_sel (s : State) (b : BayNo) (d : Fin 8) (f : Drive → Drive) : (State.modDrive s b d f).sel = s.sel := (rfl)
@[simp] theorem State.modDrive_keeper (s : State) (b : BayNo) (d : Fin 8) (f : Drive → Drive) : (State.modDrive s b d f).keeper = s.keeper := (rfl)
@[simp] theorem State.modDrive_pwr (s : State) (b : BayNo) (d : Fin 8) (f : Drive → Drive) : (State.modDrive s b d f).pwr = s.pwr := (rfl)
@[simp] theorem State.modDrive_faults (s : State) (b : BayNo) (d : Fin 8) (f : Drive → Drive) : (State.modDrive s b d f).faults = s.faults := (rfl)
@[simp] theorem State.modDrive_trg (s : State) (b : BayNo) (d : Fin 8) (f : Drive → Drive) : (State.modDrive s b d f).trg = s.trg := (rfl)
@[simp] theorem State.modDrive_ident (s : State) (b : BayNo) (d : Fin 8) (f : Drive → Drive) : (State.modDrive s b d f).ident = s.ident := (rfl)
@[simp] theorem State.modDrive_eth (s : State) (b : BayNo) (d : Fin 8) (f : Drive → Drive) : (State.modDrive s b d f).eth = s.eth := (rfl)
@[simp] theorem State.modDrive_lnl (s : State) (b : BayNo) (d : Fin 8) (f : Drive → Drive) : (State.modDrive s b d f).lnl = s.lnl := (rfl)
@[simp] theorem State.modDrive_inj (s : State) (b : BayNo) (d : Fin 8) (f : Drive → Drive) : (State.modDrive s b d f).inj = s.inj := (rfl)
@[simp] theorem State.modDrive_clrPin (s : State) (b : BayNo) (d : Fin 8) (f : Drive → Drive) : (State.modDrive s b d f).clrPin = s.clrPin := (rfl)
@[simp] theorem State.modDrive_rstLow (s : State) (b : BayNo) (d : Fin 8) (f : Drive → Drive) : (State.modDrive s b d f).rstLow = s.rstLow := (rfl)
@[simp] theorem State.modDrive_fresh (s : State) (b : BayNo) (d : Fin 8) (f : Drive → Drive) : (State.modDrive s b d f).fresh = s.fresh := (rfl)
@[simp] theorem State.modDrive_outbox (s : State) (b : BayNo) (d : Fin 8) (f : Drive → Drive) : (State.modDrive s b d f).outbox = s.outbox := (rfl)
@[simp] theorem State.modDrive_pending (s : State) (b : BayNo) (d : Fin 8) (f : Drive → Drive) : (State.modDrive s b d f).pending = s.pending := (rfl)
@[simp] theorem State.modDrive_fld (s : State) (b : BayNo) (d : Fin 8) (f : Drive → Drive) (g : Field) (cc : BayNo) (j1 k1 : Nat) : (State.modDrive s b d f).fld g cc j1 k1 = s.fld g cc j1 k1 := (rfl)
@[simp] theorem State.modDrive_fldN (s : State) (b : BayNo) (d : Fin 8) (f : Drive → Drive) (g : Field) (cc : BayNo) (j1 k1 : Nat) : (State.modDrive s b d f).fldN g cc j1 k1 = s.fldN g cc j1 k1 := (rfl)
@[simp] theorem State.modDrive_fldB (s : State) (b : BayNo) (d : Fin 8) (f : Drive → Drive) (g : Field) (cc : BayNo) (j1 : Nat) : (State.modDrive s b d f).fldB g cc j1 = s.fldB g cc j1 := (rfl)
@[simp] theorem State.modDrive_pkgN (s : State) (b : BayNo) (d : Fin 8) (f : Drive → Drive) (g : Field) (j1 : Nat) : (State.modDrive s b d f).pkgN g j1 = s.pkgN g j1 := (rfl)
@[simp] theorem State.modDrive_bay_lost (s : State) (b : BayNo) (d : Fin 8) (f : Drive → Drive) (cc : BayNo) : ((State.modDrive s b d f).bay cc).lost = (s.bay cc).lost :=
  State.bay_modBay_same (·.lost) s b cc _ fun _ => rfl
@[simp] theorem State.modDrive_bay_clk (s : State) (b : BayNo) (d : Fin 8) (f : Drive → Drive) (cc : BayNo) : ((State.modDrive s b d f).bay cc).clk = (s.bay cc).clk :=
  State.bay_modBay_same (·.clk) s b cc _ fun _ => rfl
@[simp] theorem State.modDrive_bay_tbs (s : State) (b : BayNo) (d : Fin 8) (f : Drive → Drive) (cc : BayNo) : ((State.modDrive s b d f).bay cc).tbs = (s.bay cc).tbs :=
  State.bay_modBay_same (·.tbs) s b cc _ fun _ => rfl
@[simp] theorem State.modDrive_bay_que (s : State) (b : BayNo) (d : Fin 8) (f : Drive → Drive) (cc : BayNo) : ((State.modDrive s b d f).bay cc).que = (s.bay cc).que :=
  State.bay_modBay_same (·.que) s b cc _ fun _ => rfl
@[simp] theorem State.modDrive_bay_dma (s : State) (b : BayNo) (d : Fin 8) (f : Drive → Drive) (cc : BayNo) : ((State.modDrive s b d f).bay cc).dma = (s.bay cc).dma :=
  State.bay_modBay_same (·.dma) s b cc _ fun _ => rfl
@[simp] theorem State.modDrive_bay_pwr (s : State) (b : BayNo) (d : Fin 8) (f : Drive → Drive) (cc : BayNo) : ((State.modDrive s b d f).bay cc).pwr = (s.bay cc).pwr :=
  State.bay_modBay_same (·.pwr) s b cc _ fun _ => rfl
@[simp] theorem State.modDrive_bay_trg (s : State) (b : BayNo) (d : Fin 8) (f : Drive → Drive) (cc : BayNo) : ((State.modDrive s b d f).bay cc).trg = (s.bay cc).trg :=
  State.bay_modBay_same (·.trg) s b cc _ fun _ => rfl
@[simp] theorem State.modDrive_bay_afe (s : State) (b : BayNo) (d : Fin 8) (f : Drive → Drive) (cc : BayNo) : ((State.modDrive s b d f).bay cc).afe = (s.bay cc).afe :=
  State.bay_modBay_same (·.afe) s b cc _ fun _ => rfl
@[simp] theorem State.modDrive_bay_adc (s : State) (b : BayNo) (d : Fin 8) (f : Drive → Drive) (cc : BayNo) : ((State.modDrive s b d f).bay cc).adc = (s.bay cc).adc :=
  State.bay_modBay_same (·.adc) s b cc _ fun _ => rfl
@[simp] theorem State.modDrive_bay_ddc (s : State) (b : BayNo) (d : Fin 8) (f : Drive → Drive) (cc : BayNo) : ((State.modDrive s b d f).bay cc).ddc = (s.bay cc).ddc :=
  State.bay_modBay_same (·.ddc) s b cc _ fun _ => rfl
@[simp] theorem State.modDrive_bay_xfm (s : State) (b : BayNo) (d : Fin 8) (f : Drive → Drive) (cc : BayNo) : ((State.modDrive s b d f).bay cc).xfm = (s.bay cc).xfm :=
  State.bay_modBay_same (·.xfm) s b cc _ fun _ => rfl
@[simp] theorem State.modDrive_bay_den (s : State) (b : BayNo) (d : Fin 8) (f : Drive → Drive) (cc : BayNo) : ((State.modDrive s b d f).bay cc).den = (s.bay cc).den :=
  State.bay_modBay_same (·.den) s b cc _ fun _ => rfl
@[simp] theorem State.modDrive_bay_mco (s : State) (b : BayNo) (d : Fin 8) (f : Drive → Drive) (cc : BayNo) : ((State.modDrive s b d f).bay cc).mco = (s.bay cc).mco :=
  State.bay_modBay_same (·.mco) s b cc _ fun _ => rfl
@[simp] theorem State.modDrive_bay_scn (s : State) (b : BayNo) (d : Fin 8) (f : Drive → Drive) (cc : BayNo) : ((State.modDrive s b d f).bay cc).scn = (s.bay cc).scn :=
  State.bay_modBay_same (·.scn) s b cc _ fun _ => rfl
@[simp] theorem State.modDrive_bay_lne (s : State) (b : BayNo) (d : Fin 8) (f : Drive → Drive) (cc : BayNo) : ((State.modDrive s b d f).bay cc).lne = (s.bay cc).lne :=
  State.bay_modBay_same (·.lne) s b cc _ fun _ => rfl
@[simp] theorem State.modDrive_bay_pci (s : State) (b : BayNo) (d : Fin 8) (f : Drive → Drive) (cc : BayNo) : ((State.modDrive s b d f).bay cc).pci = (s.bay cc).pci :=
  State.bay_modBay_same (·.pci) s b cc _ fun _ => rfl
@[simp] theorem State.modDrive_bay_eth (s : State) (b : BayNo) (d : Fin 8) (f : Drive → Drive) (cc : BayNo) : ((State.modDrive s b d f).bay cc).eth = (s.bay cc).eth :=
  State.bay_modBay_same (·.eth) s b cc _ fun _ => rfl
@[simp] theorem State.modDrive_bay_jes (s : State) (b : BayNo) (d : Fin 8) (f : Drive → Drive) (cc : BayNo) : ((State.modDrive s b d f).bay cc).jes = (s.bay cc).jes :=
  State.bay_modBay_same (·.jes) s b cc _ fun _ => rfl
@[simp] theorem State.modDrive_bay_lnl (s : State) (b : BayNo) (d : Fin 8) (f : Drive → Drive) (cc : BayNo) : ((State.modDrive s b d f).bay cc).lnl = (s.bay cc).lnl :=
  State.bay_modBay_same (·.lnl) s b cc _ fun _ => rfl
@[simp] theorem State.modDrive_bay_cal (s : State) (b : BayNo) (d : Fin 8) (f : Drive → Drive) (cc : BayNo) : ((State.modDrive s b d f).bay cc).cal = (s.bay cc).cal :=
  State.bay_modBay_same (·.cal) s b cc _ fun _ => rfl
@[simp] theorem State.modDrive_bay_hkc (s : State) (b : BayNo) (d : Fin 8) (f : Drive → Drive) (cc : BayNo) : ((State.modDrive s b d f).bay cc).hkc = (s.bay cc).hkc :=
  State.bay_modBay_same (·.hkc) s b cc _ fun _ => rfl
@[simp] theorem State.modDrive_bay_aux (s : State) (b : BayNo) (d : Fin 8) (f : Drive → Drive) (cc : BayNo) : ((State.modDrive s b d f).bay cc).aux = (s.bay cc).aux :=
  State.bay_modBay_same (·.aux) s b cc _ fun _ => rfl
@[simp] theorem State.modDrive_bay_mon (s : State) (b : BayNo) (d : Fin 8) (f : Drive → Drive) (cc : BayNo) : ((State.modDrive s b d f).bay cc).mon = (s.bay cc).mon :=
  State.bay_modBay_same (·.mon) s b cc _ fun _ => rfl
@[simp] theorem State.modDrive_bay_jtag (s : State) (b : BayNo) (d : Fin 8) (f : Drive → Drive) (cc : BayNo) : ((State.modDrive s b d f).bay cc).jtag = (s.bay cc).jtag :=
  State.bay_modBay_same (·.jtag) s b cc _ fun _ => rfl
@[simp] theorem State.modDrive_nowAt (s : State) (b : BayNo) (d : Fin 8) (f : Drive → Drive) (cc : BayNo) : (State.modDrive s b d f).nowAt cc = s.nowAt cc :=
  congrArg (fun t : TbsBay => Tide.stamp t.tide) (State.modDrive_bay_tbs s b d f cc)
@[simp] theorem State.modDrive_now (s : State) (b : BayNo) (d : Fin 8) (f : Drive → Drive) : (State.modDrive s b d f).now = s.now := State.modDrive_nowAt s b d f 0
@[simp] theorem State.modDrive_alive (s : State) (b : BayNo) (d : Fin 8) (f : Drive → Drive) (cc : BayNo) : (State.modDrive s b d f).alive cc = s.alive cc :=
  State.alive_congr cc rfl rfl (State.modDrive_bay_lost s b d f cc)
@[simp] theorem State.modDrive_liveBays (s : State) (b : BayNo) (d : Fin 8) (f : Drive → Drive) : (State.modDrive s b d f).liveBays = s.liveBays :=
  State.liveBays_congr (State.modDrive_alive s b d f)

@[simp] theorem State.modClk_part (s : State) (b : BayNo) (f : ClkBay → ClkBay) : (State.modClk s b f).part = s.part := (rfl)
@[simp] theorem State.modClk_vals (s : State) (b : BayNo) (f : ClkBay → ClkBay) : (State.modClk s b f).vals = s.vals := (rfl)
@[simp] theorem State.modClk_img (s : State) (b : BayNo) (f : ClkBay → ClkBay) : (State.modClk s b f).img = s.img := (rfl)
@[simp] theorem State.modClk_flash (s : State) (b : BayNo) (f : ClkBay → ClkBay) : (State.modClk s b f).flash = s.flash := (rfl)
@[simp] theorem State.modClk_tbs (s : State) (b : BayNo) (f : ClkBay → ClkBay) : (State.modClk s b f).tbs = s.tbs := (rfl)
@[simp] theorem State.modClk_sel (s : State) (b : BayNo) (f : ClkBay → ClkBay) : (State.modClk s b f).sel = s.sel := (rfl)
@[simp] theorem State.modClk_keeper (s : State) (b : BayNo) (f : ClkBay → ClkBay) : (State.modClk s b f).keeper = s.keeper := (rfl)
@[simp] theorem State.modClk_pwr (s : State) (b : BayNo) (f : ClkBay → ClkBay) : (State.modClk s b f).pwr = s.pwr := (rfl)
@[simp] theorem State.modClk_faults (s : State) (b : BayNo) (f : ClkBay → ClkBay) : (State.modClk s b f).faults = s.faults := (rfl)
@[simp] theorem State.modClk_trg (s : State) (b : BayNo) (f : ClkBay → ClkBay) : (State.modClk s b f).trg = s.trg := (rfl)
@[simp] theorem State.modClk_ident (s : State) (b : BayNo) (f : ClkBay → ClkBay) : (State.modClk s b f).ident = s.ident := (rfl)
@[simp] theorem State.modClk_eth (s : State) (b : BayNo) (f : ClkBay → ClkBay) : (State.modClk s b f).eth = s.eth := (rfl)
@[simp] theorem State.modClk_lnl (s : State) (b : BayNo) (f : ClkBay → ClkBay) : (State.modClk s b f).lnl = s.lnl := (rfl)
@[simp] theorem State.modClk_inj (s : State) (b : BayNo) (f : ClkBay → ClkBay) : (State.modClk s b f).inj = s.inj := (rfl)
@[simp] theorem State.modClk_clrPin (s : State) (b : BayNo) (f : ClkBay → ClkBay) : (State.modClk s b f).clrPin = s.clrPin := (rfl)
@[simp] theorem State.modClk_rstLow (s : State) (b : BayNo) (f : ClkBay → ClkBay) : (State.modClk s b f).rstLow = s.rstLow := (rfl)
@[simp] theorem State.modClk_fresh (s : State) (b : BayNo) (f : ClkBay → ClkBay) : (State.modClk s b f).fresh = s.fresh := (rfl)
@[simp] theorem State.modClk_outbox (s : State) (b : BayNo) (f : ClkBay → ClkBay) : (State.modClk s b f).outbox = s.outbox := (rfl)
@[simp] theorem State.modClk_pending (s : State) (b : BayNo) (f : ClkBay → ClkBay) : (State.modClk s b f).pending = s.pending := (rfl)
@[simp] theorem State.modClk_fld (s : State) (b : BayNo) (f : ClkBay → ClkBay) (g : Field) (cc : BayNo) (j1 k1 : Nat) : (State.modClk s b f).fld g cc j1 k1 = s.fld g cc j1 k1 := (rfl)
@[simp] theorem State.modClk_fldN (s : State) (b : BayNo) (f : ClkBay → ClkBay) (g : Field) (cc : BayNo) (j1 k1 : Nat) : (State.modClk s b f).fldN g cc j1 k1 = s.fldN g cc j1 k1 := (rfl)
@[simp] theorem State.modClk_fldB (s : State) (b : BayNo) (f : ClkBay → ClkBay) (g : Field) (cc : BayNo) (j1 : Nat) : (State.modClk s b f).fldB g cc j1 = s.fldB g cc j1 := (rfl)
@[simp] theorem State.modClk_pkgN (s : State) (b : BayNo) (f : ClkBay → ClkBay) (g : Field) (j1 : Nat) : (State.modClk s b f).pkgN g j1 = s.pkgN g j1 := (rfl)
@[simp] theorem State.modClk_bay_lost (s : State) (b : BayNo) (f : ClkBay → ClkBay) (cc : BayNo) : ((State.modClk s b f).bay cc).lost = (s.bay cc).lost :=
  State.bay_modBay_same (·.lost) s b cc _ fun _ => rfl
@[simp] theorem State.modClk_bay_tbs (s : State) (b : BayNo) (f : ClkBay → ClkBay) (cc : BayNo) : ((State.modClk s b f).bay cc).tbs = (s.bay cc).tbs :=
  State.bay_modBay_same (·.tbs) s b cc _ fun _ => rfl
@[simp] theorem State.modClk_bay_que (s : State) (b : BayNo) (f : ClkBay → ClkBay) (cc : BayNo) : ((State.modClk s b f).bay cc).que = (s.bay cc).que :=
  State.bay_modBay_same (·.que) s b cc _ fun _ => rfl
@[simp] theorem State.modClk_bay_dma (s : State) (b : BayNo) (f : ClkBay → ClkBay) (cc : BayNo) : ((State.modClk s b f).bay cc).dma = (s.bay cc).dma :=
  State.bay_modBay_same (·.dma) s b cc _ fun _ => rfl
@[simp] theorem State.modClk_bay_pwr (s : State) (b : BayNo) (f : ClkBay → ClkBay) (cc : BayNo) : ((State.modClk s b f).bay cc).pwr = (s.bay cc).pwr :=
  State.bay_modBay_same (·.pwr) s b cc _ fun _ => rfl
@[simp] theorem State.modClk_bay_trg (s : State) (b : BayNo) (f : ClkBay → ClkBay) (cc : BayNo) : ((State.modClk s b f).bay cc).trg = (s.bay cc).trg :=
  State.bay_modBay_same (·.trg) s b cc _ fun _ => rfl
@[simp] theorem State.modClk_bay_afe (s : State) (b : BayNo) (f : ClkBay → ClkBay) (cc : BayNo) : ((State.modClk s b f).bay cc).afe = (s.bay cc).afe :=
  State.bay_modBay_same (·.afe) s b cc _ fun _ => rfl
@[simp] theorem State.modClk_bay_adc (s : State) (b : BayNo) (f : ClkBay → ClkBay) (cc : BayNo) : ((State.modClk s b f).bay cc).adc = (s.bay cc).adc :=
  State.bay_modBay_same (·.adc) s b cc _ fun _ => rfl
@[simp] theorem State.modClk_bay_ddc (s : State) (b : BayNo) (f : ClkBay → ClkBay) (cc : BayNo) : ((State.modClk s b f).bay cc).ddc = (s.bay cc).ddc :=
  State.bay_modBay_same (·.ddc) s b cc _ fun _ => rfl
@[simp] theorem State.modClk_bay_xfm (s : State) (b : BayNo) (f : ClkBay → ClkBay) (cc : BayNo) : ((State.modClk s b f).bay cc).xfm = (s.bay cc).xfm :=
  State.bay_modBay_same (·.xfm) s b cc _ fun _ => rfl
@[simp] theorem State.modClk_bay_den (s : State) (b : BayNo) (f : ClkBay → ClkBay) (cc : BayNo) : ((State.modClk s b f).bay cc).den = (s.bay cc).den :=
  State.bay_modBay_same (·.den) s b cc _ fun _ => rfl
@[simp] theorem State.modClk_bay_mco (s : State) (b : BayNo) (f : ClkBay → ClkBay) (cc : BayNo) : ((State.modClk s b f).bay cc).mco = (s.bay cc).mco :=
  State.bay_modBay_same (·.mco) s b cc _ fun _ => rfl
@[simp] theorem State.modClk_bay_scn (s : State) (b : BayNo) (f : ClkBay → ClkBay) (cc : BayNo) : ((State.modClk s b f).bay cc).scn = (s.bay cc).scn :=
  State.bay_modBay_same (·.scn) s b cc _ fun _ => rfl
@[simp] theorem State.modClk_bay_recorder (s : State) (b : BayNo) (f : ClkBay → ClkBay) (cc : BayNo) : ((State.modClk s b f).bay cc).recorder = (s.bay cc).recorder :=
  State.bay_modBay_same (·.recorder) s b cc _ fun _ => rfl
@[simp] theorem State.modClk_bay_lne (s : State) (b : BayNo) (f : ClkBay → ClkBay) (cc : BayNo) : ((State.modClk s b f).bay cc).lne = (s.bay cc).lne :=
  State.bay_modBay_same (·.lne) s b cc _ fun _ => rfl
@[simp] theorem State.modClk_bay_pci (s : State) (b : BayNo) (f : ClkBay → ClkBay) (cc : BayNo) : ((State.modClk s b f).bay cc).pci = (s.bay cc).pci :=
  State.bay_modBay_same (·.pci) s b cc _ fun _ => rfl
@[simp] theorem State.modClk_bay_eth (s : State) (b : BayNo) (f : ClkBay → ClkBay) (cc : BayNo) : ((State.modClk s b f).bay cc).eth = (s.bay cc).eth :=
  State.bay_modBay_same (·.eth) s b cc _ fun _ => rfl
@[simp] theorem State.modClk_bay_jes (s : State) (b : BayNo) (f : ClkBay → ClkBay) (cc : BayNo) : ((State.modClk s b f).bay cc).jes = (s.bay cc).jes :=
  State.bay_modBay_same (·.jes) s b cc _ fun _ => rfl
@[simp] theorem State.modClk_bay_lnl (s : State) (b : BayNo) (f : ClkBay → ClkBay) (cc : BayNo) : ((State.modClk s b f).bay cc).lnl = (s.bay cc).lnl :=
  State.bay_modBay_same (·.lnl) s b cc _ fun _ => rfl
@[simp] theorem State.modClk_bay_cal (s : State) (b : BayNo) (f : ClkBay → ClkBay) (cc : BayNo) : ((State.modClk s b f).bay cc).cal = (s.bay cc).cal :=
  State.bay_modBay_same (·.cal) s b cc _ fun _ => rfl
@[simp] theorem State.modClk_bay_hkc (s : State) (b : BayNo) (f : ClkBay → ClkBay) (cc : BayNo) : ((State.modClk s b f).bay cc).hkc = (s.bay cc).hkc :=
  State.bay_modBay_same (·.hkc) s b cc _ fun _ => rfl
@[simp] theorem State.modClk_bay_aux (s : State) (b : BayNo) (f : ClkBay → ClkBay) (cc : BayNo) : ((State.modClk s b f).bay cc).aux = (s.bay cc).aux :=
  State.bay_modBay_same (·.aux) s b cc _ fun _ => rfl
@[simp] theorem State.modClk_bay_mon (s : State) (b : BayNo) (f : ClkBay → ClkBay) (cc : BayNo) : ((State.modClk s b f).bay cc).mon = (s.bay cc).mon :=
  State.bay_modBay_same (·.mon) s b cc _ fun _ => rfl
@[simp] theorem State.modClk_bay_jtag (s : State) (b : BayNo) (f : ClkBay → ClkBay) (cc : BayNo) : ((State.modClk s b f).bay cc).jtag = (s.bay cc).jtag :=
  State.bay_modBay_same (·.jtag) s b cc _ fun _ => rfl
@[simp] theorem State.modClk_nowAt (s : State) (b : BayNo) (f : ClkBay → ClkBay) (cc : BayNo) : (State.modClk s b f).nowAt cc = s.nowAt cc :=
  congrArg (fun t : TbsBay => Tide.stamp t.tide) (State.modClk_bay_tbs s b f cc)
@[simp] theorem State.modClk_now (s : State) (b : BayNo) (f : ClkBay → ClkBay) : (State.modClk s b f).now = s.now := State.modClk_nowAt s b f 0
@[simp] theorem State.modClk_alive (s : State) (b : BayNo) (f : ClkBay → ClkBay) (cc : BayNo) : (State.modClk s b f).alive cc = s.alive cc :=
  State.alive_congr cc rfl rfl (State.modClk_bay_lost s b f cc)
@[simp] theorem State.modClk_liveBays (s : State) (b : BayNo) (f : ClkBay → ClkBay) : (State.modClk s b f).liveBays = s.liveBays :=
  State.liveBays_congr (State.modClk_alive s b f)
@[simp] theorem State.modClk_bay_clk_self (s : State) (b : BayNo) (f : ClkBay → ClkBay) : ((State.modClk s b f).bay b).clk = f (s.bay b).clk :=
  congrArg (fun y : Bay => y.clk) (State.bay_modBay s b _)
theorem State.modClk_bay_clk_ne (s : State) (b : BayNo) (f : ClkBay → ClkBay) {cc : BayNo} (h : cc ≠ b) : ((State.modClk s b f).bay cc).clk = (s.bay cc).clk :=
  congrArg (fun y : Bay => y.clk) (State.bay_modBay_ne s _ h)

@[simp] theorem State.modDma_part (s : State) (b : BayNo) (n : Fin 32) (f : DmaChan → DmaChan) : (State.modDma s b n f).part = s.part := (rfl)
@[simp] theorem State.modDma_vals (s : State) (b : BayNo) (n : Fin 32) (f : DmaChan → DmaChan) : (State.modDma s b n f).vals = s.vals := (rfl)
@[simp] theorem State.modDma_img (s : State) (b : BayNo) (n : Fin 32) (f : DmaChan → DmaChan) : (State.modDma s b n f).img = s.img := (rfl)
@[simp] theorem State.modDma_flash (s : State) (b : BayNo) (n : Fin 32) (f : DmaChan → DmaChan) : (State.modDma s b n f).flash = s.flash := (rfl)
@[simp] theorem State.modDma_tbs (s : State) (b : BayNo) (n : Fin 32) (f : DmaChan → DmaChan) : (State.modDma s b n f).tbs = s.tbs := (rfl)
@[simp] theorem State.modDma_sel (s : State) (b : BayNo) (n : Fin 32) (f : DmaChan → DmaChan) : (State.modDma s b n f).sel = s.sel := (rfl)
@[simp] theorem State.modDma_keeper (s : State) (b : BayNo) (n : Fin 32) (f : DmaChan → DmaChan) : (State.modDma s b n f).keeper = s.keeper := (rfl)
@[simp] theorem State.modDma_pwr (s : State) (b : BayNo) (n : Fin 32) (f : DmaChan → DmaChan) : (State.modDma s b n f).pwr = s.pwr := (rfl)
@[simp] theorem State.modDma_faults (s : State) (b : BayNo) (n : Fin 32) (f : DmaChan → DmaChan) : (State.modDma s b n f).faults = s.faults := (rfl)
@[simp] theorem State.modDma_trg (s : State) (b : BayNo) (n : Fin 32) (f : DmaChan → DmaChan) : (State.modDma s b n f).trg = s.trg := (rfl)
@[simp] theorem State.modDma_ident (s : State) (b : BayNo) (n : Fin 32) (f : DmaChan → DmaChan) : (State.modDma s b n f).ident = s.ident := (rfl)
@[simp] theorem State.modDma_eth (s : State) (b : BayNo) (n : Fin 32) (f : DmaChan → DmaChan) : (State.modDma s b n f).eth = s.eth := (rfl)
@[simp] theorem State.modDma_lnl (s : State) (b : BayNo) (n : Fin 32) (f : DmaChan → DmaChan) : (State.modDma s b n f).lnl = s.lnl := (rfl)
@[simp] theorem State.modDma_inj (s : State) (b : BayNo) (n : Fin 32) (f : DmaChan → DmaChan) : (State.modDma s b n f).inj = s.inj := (rfl)
@[simp] theorem State.modDma_clrPin (s : State) (b : BayNo) (n : Fin 32) (f : DmaChan → DmaChan) : (State.modDma s b n f).clrPin = s.clrPin := (rfl)
@[simp] theorem State.modDma_rstLow (s : State) (b : BayNo) (n : Fin 32) (f : DmaChan → DmaChan) : (State.modDma s b n f).rstLow = s.rstLow := (rfl)
@[simp] theorem State.modDma_fresh (s : State) (b : BayNo) (n : Fin 32) (f : DmaChan → DmaChan) : (State.modDma s b n f).fresh = s.fresh := (rfl)
@[simp] theorem State.modDma_outbox (s : State) (b : BayNo) (n : Fin 32) (f : DmaChan → DmaChan) : (State.modDma s b n f).outbox = s.outbox := (rfl)
@[simp] theorem State.modDma_pending (s : State) (b : BayNo) (n : Fin 32) (f : DmaChan → DmaChan) : (State.modDma s b n f).pending = s.pending := (rfl)
@[simp] theorem State.modDma_fld (s : State) (b : BayNo) (n : Fin 32) (f : DmaChan → DmaChan) (g : Field) (cc : BayNo) (j1 k1 : Nat) : (State.modDma s b n f).fld g cc j1 k1 = s.fld g cc j1 k1 := (rfl)
@[simp] theorem State.modDma_fldN (s : State) (b : BayNo) (n : Fin 32) (f : DmaChan → DmaChan) (g : Field) (cc : BayNo) (j1 k1 : Nat) : (State.modDma s b n f).fldN g cc j1 k1 = s.fldN g cc j1 k1 := (rfl)
@[simp] theorem State.modDma_fldB (s : State) (b : BayNo) (n : Fin 32) (f : DmaChan → DmaChan) (g : Field) (cc : BayNo) (j1 : Nat) : (State.modDma s b n f).fldB g cc j1 = s.fldB g cc j1 := (rfl)
@[simp] theorem State.modDma_pkgN (s : State) (b : BayNo) (n : Fin 32) (f : DmaChan → DmaChan) (g : Field) (j1 : Nat) : (State.modDma s b n f).pkgN g j1 = s.pkgN g j1 := (rfl)
@[simp] theorem State.modDma_bay_lost (s : State) (b : BayNo) (n : Fin 32) (f : DmaChan → DmaChan) (cc : BayNo) : ((State.modDma s b n f).bay cc).lost = (s.bay cc).lost :=
  State.bay_modBay_same (·.lost) s b cc _ fun _ => rfl
@[simp] theorem State.modDma_bay_clk (s : State) (b : BayNo) (n : Fin 32) (f : DmaChan → DmaChan) (cc : BayNo) : ((State.modDma s b n f).bay cc).clk = (s.bay cc).clk :=
  State.bay_modBay_same (·.clk) s b cc _ fun _ => rfl
@[simp] theorem State.modDma_bay_tbs (s : State) (b : BayNo) (n : Fin 32) (f : DmaChan → DmaChan) (cc : BayNo) : ((State.modDma s b n f).bay cc).tbs = (s.bay cc).tbs :=
  State.bay_modBay_same (·.tbs) s b cc _ fun _ => rfl
@[simp] theorem State.modDma_bay_que (s : State) (b : BayNo) (n : Fin 32) (f : DmaChan → DmaChan) (cc : BayNo) : ((State.modDma s b n f).bay cc).que = (s.bay cc).que :=
  State.bay_modBay_same (·.que) s b cc _ fun _ => rfl
@[simp] theorem State.modDma_bay_pwr (s : State) (b : BayNo) (n : Fin 32) (f : DmaChan → DmaChan) (cc : BayNo) : ((State.modDma s b n f).bay cc).pwr = (s.bay cc).pwr :=
  State.bay_modBay_same (·.pwr) s b cc _ fun _ => rfl
@[simp] theorem State.modDma_bay_trg (s : State) (b : BayNo) (n : Fin 32) (f : DmaChan → DmaChan) (cc : BayNo) : ((State.modDma s b n f).bay cc).trg = (s.bay cc).trg :=
  State.bay_modBay_same (·.trg) s b cc _ fun _ => rfl
@[simp] theorem State.modDma_bay_afe (s : State) (b : BayNo) (n : Fin 32) (f : DmaChan → DmaChan) (cc : BayNo) : ((State.modDma s b n f).bay cc).afe = (s.bay cc).afe :=
  State.bay_modBay_same (·.afe) s b cc _ fun _ => rfl
@[simp] theorem State.modDma_bay_adc (s : State) (b : BayNo) (n : Fin 32) (f : DmaChan → DmaChan) (cc : BayNo) : ((State.modDma s b n f).bay cc).adc = (s.bay cc).adc :=
  State.bay_modBay_same (·.adc) s b cc _ fun _ => rfl
@[simp] theorem State.modDma_bay_ddc (s : State) (b : BayNo) (n : Fin 32) (f : DmaChan → DmaChan) (cc : BayNo) : ((State.modDma s b n f).bay cc).ddc = (s.bay cc).ddc :=
  State.bay_modBay_same (·.ddc) s b cc _ fun _ => rfl
@[simp] theorem State.modDma_bay_xfm (s : State) (b : BayNo) (n : Fin 32) (f : DmaChan → DmaChan) (cc : BayNo) : ((State.modDma s b n f).bay cc).xfm = (s.bay cc).xfm :=
  State.bay_modBay_same (·.xfm) s b cc _ fun _ => rfl
@[simp] theorem State.modDma_bay_den (s : State) (b : BayNo) (n : Fin 32) (f : DmaChan → DmaChan) (cc : BayNo) : ((State.modDma s b n f).bay cc).den = (s.bay cc).den :=
  State.bay_modBay_same (·.den) s b cc _ fun _ => rfl
@[simp] theorem State.modDma_bay_mco (s : State) (b : BayNo) (n : Fin 32) (f : DmaChan → DmaChan) (cc : BayNo) : ((State.modDma s b n f).bay cc).mco = (s.bay cc).mco :=
  State.bay_modBay_same (·.mco) s b cc _ fun _ => rfl
@[simp] theorem State.modDma_bay_scn (s : State) (b : BayNo) (n : Fin 32) (f : DmaChan → DmaChan) (cc : BayNo) : ((State.modDma s b n f).bay cc).scn = (s.bay cc).scn :=
  State.bay_modBay_same (·.scn) s b cc _ fun _ => rfl
@[simp] theorem State.modDma_bay_recorder (s : State) (b : BayNo) (n : Fin 32) (f : DmaChan → DmaChan) (cc : BayNo) : ((State.modDma s b n f).bay cc).recorder = (s.bay cc).recorder :=
  State.bay_modBay_same (·.recorder) s b cc _ fun _ => rfl
@[simp] theorem State.modDma_bay_lne (s : State) (b : BayNo) (n : Fin 32) (f : DmaChan → DmaChan) (cc : BayNo) : ((State.modDma s b n f).bay cc).lne = (s.bay cc).lne :=
  State.bay_modBay_same (·.lne) s b cc _ fun _ => rfl
@[simp] theorem State.modDma_bay_pci (s : State) (b : BayNo) (n : Fin 32) (f : DmaChan → DmaChan) (cc : BayNo) : ((State.modDma s b n f).bay cc).pci = (s.bay cc).pci :=
  State.bay_modBay_same (·.pci) s b cc _ fun _ => rfl
@[simp] theorem State.modDma_bay_eth (s : State) (b : BayNo) (n : Fin 32) (f : DmaChan → DmaChan) (cc : BayNo) : ((State.modDma s b n f).bay cc).eth = (s.bay cc).eth :=
  State.bay_modBay_same (·.eth) s b cc _ fun _ => rfl
@[simp] theorem State.modDma_bay_jes (s : State) (b : BayNo) (n : Fin 32) (f : DmaChan → DmaChan) (cc : BayNo) : ((State.modDma s b n f).bay cc).jes = (s.bay cc).jes :=
  State.bay_modBay_same (·.jes) s b cc _ fun _ => rfl
@[simp] theorem State.modDma_bay_lnl (s : State) (b : BayNo) (n : Fin 32) (f : DmaChan → DmaChan) (cc : BayNo) : ((State.modDma s b n f).bay cc).lnl = (s.bay cc).lnl :=
  State.bay_modBay_same (·.lnl) s b cc _ fun _ => rfl
@[simp] theorem State.modDma_bay_cal (s : State) (b : BayNo) (n : Fin 32) (f : DmaChan → DmaChan) (cc : BayNo) : ((State.modDma s b n f).bay cc).cal = (s.bay cc).cal :=
  State.bay_modBay_same (·.cal) s b cc _ fun _ => rfl
@[simp] theorem State.modDma_bay_hkc (s : State) (b : BayNo) (n : Fin 32) (f : DmaChan → DmaChan) (cc : BayNo) : ((State.modDma s b n f).bay cc).hkc = (s.bay cc).hkc :=
  State.bay_modBay_same (·.hkc) s b cc _ fun _ => rfl
@[simp] theorem State.modDma_bay_aux (s : State) (b : BayNo) (n : Fin 32) (f : DmaChan → DmaChan) (cc : BayNo) : ((State.modDma s b n f).bay cc).aux = (s.bay cc).aux :=
  State.bay_modBay_same (·.aux) s b cc _ fun _ => rfl
@[simp] theorem State.modDma_bay_mon (s : State) (b : BayNo) (n : Fin 32) (f : DmaChan → DmaChan) (cc : BayNo) : ((State.modDma s b n f).bay cc).mon = (s.bay cc).mon :=
  State.bay_modBay_same (·.mon) s b cc _ fun _ => rfl
@[simp] theorem State.modDma_bay_jtag (s : State) (b : BayNo) (n : Fin 32) (f : DmaChan → DmaChan) (cc : BayNo) : ((State.modDma s b n f).bay cc).jtag = (s.bay cc).jtag :=
  State.bay_modBay_same (·.jtag) s b cc _ fun _ => rfl
@[simp] theorem State.modDma_nowAt (s : State) (b : BayNo) (n : Fin 32) (f : DmaChan → DmaChan) (cc : BayNo) : (State.modDma s b n f).nowAt cc = s.nowAt cc :=
  congrArg (fun t : TbsBay => Tide.stamp t.tide) (State.modDma_bay_tbs s b n f cc)
@[simp] theorem State.modDma_now (s : State) (b : BayNo) (n : Fin 32) (f : DmaChan → DmaChan) : (State.modDma s b n f).now = s.now := State.modDma_nowAt s b n f 0
@[simp] theorem State.modDma_alive (s : State) (b : BayNo) (n : Fin 32) (f : DmaChan → DmaChan) (cc : BayNo) : (State.modDma s b n f).alive cc = s.alive cc :=
  State.alive_congr cc rfl rfl (State.modDma_bay_lost s b n f cc)
@[simp] theorem State.modDma_liveBays (s : State) (b : BayNo) (n : Fin 32) (f : DmaChan → DmaChan) : (State.modDma s b n f).liveBays = s.liveBays :=
  State.liveBays_congr (State.modDma_alive s b n f)
@[simp] theorem State.modDma_bay_dma_self (s : State) (b : BayNo) (n : Fin 32) (f : DmaChan → DmaChan) : ((State.modDma s b n f).bay b).dma = { (s.bay b).dma with chans := (s.bay b).dma.chans.set n (f (s.bay b).dma.chans[n]) } :=
  congrArg (fun y : Bay => y.dma) (State.bay_modBay s b _)
theorem State.modDma_bay_dma_ne (s : State) (b : BayNo) (n : Fin 32) (f : DmaChan → DmaChan) {cc : BayNo} (h : cc ≠ b) : ((State.modDma s b n f).bay cc).dma = (s.bay cc).dma :=
  congrArg (fun y : Bay => y.dma) (State.bay_modBay_ne s _ h)

@[simp] theorem State.modMon_part (s : State) (b : BayNo) (m : Fin 16) (f : MonUnit → MonUnit) : (State.modMon s b m f).part = s.part := (rfl)
@[simp] theorem State.modMon_vals (s : State) (b : BayNo) (m : Fin 16) (f : MonUnit → MonUnit) : (State.modMon s b m f).vals = s.vals := (rfl)
@[simp] theorem State.modMon_img (s : State) (b : BayNo) (m : Fin 16) (f : MonUnit → MonUnit) : (State.modMon s b m f).img = s.img := (rfl)
@[simp] theorem State.modMon_flash (s : State) (b : BayNo) (m : Fin 16) (f : MonUnit → MonUnit) : (State.modMon s b m f).flash = s.flash := (rfl)
@[simp] theorem State.modMon_tbs (s : State) (b : BayNo) (m : Fin 16) (f : MonUnit → MonUnit) : (State.modMon s b m f).tbs = s.tbs := (rfl)
@[simp] theorem State.modMon_sel (s : State) (b : BayNo) (m : Fin 16) (f : MonUnit → MonUnit) : (State.modMon s b m f).sel = s.sel := (rfl)
@[simp] theorem State.modMon_keeper (s : State) (b : BayNo) (m : Fin 16) (f : MonUnit → MonUnit) : (State.modMon s b m f).keeper = s.keeper := (rfl)
@[simp] theorem State.modMon_pwr (s : State) (b : BayNo) (m : Fin 16) (f : MonUnit → MonUnit) : (State.modMon s b m f).pwr = s.pwr := (rfl)
@[simp] theorem State.modMon_faults (s : State) (b : BayNo) (m : Fin 16) (f : MonUnit → MonUnit) : (State.modMon s b m f).faults = s.faults := (rfl)
@[simp] theorem State.modMon_trg (s : State) (b : BayNo) (m : Fin 16) (f : MonUnit → MonUnit) : (State.modMon s b m f).trg = s.trg := (rfl)
@[simp] theorem State.modMon_ident (s : State) (b : BayNo) (m : Fin 16) (f : MonUnit → MonUnit) : (State.modMon s b m f).ident = s.ident := (rfl)
@[simp] theorem State.modMon_eth (s : State) (b : BayNo) (m : Fin 16) (f : MonUnit → MonUnit) : (State.modMon s b m f).eth = s.eth := (rfl)
@[simp] theorem State.modMon_lnl (s : State) (b : BayNo) (m : Fin 16) (f : MonUnit → MonUnit) : (State.modMon s b m f).lnl = s.lnl := (rfl)
@[simp] theorem State.modMon_inj (s : State) (b : BayNo) (m : Fin 16) (f : MonUnit → MonUnit) : (State.modMon s b m f).inj = s.inj := (rfl)
@[simp] theorem State.modMon_clrPin (s : State) (b : BayNo) (m : Fin 16) (f : MonUnit → MonUnit) : (State.modMon s b m f).clrPin = s.clrPin := (rfl)
@[simp] theorem State.modMon_rstLow (s : State) (b : BayNo) (m : Fin 16) (f : MonUnit → MonUnit) : (State.modMon s b m f).rstLow = s.rstLow := (rfl)
@[simp] theorem State.modMon_fresh (s : State) (b : BayNo) (m : Fin 16) (f : MonUnit → MonUnit) : (State.modMon s b m f).fresh = s.fresh := (rfl)
@[simp] theorem State.modMon_outbox (s : State) (b : BayNo) (m : Fin 16) (f : MonUnit → MonUnit) : (State.modMon s b m f).outbox = s.outbox := (rfl)
@[simp] theorem State.modMon_pending (s : State) (b : BayNo) (m : Fin 16) (f : MonUnit → MonUnit) : (State.modMon s b m f).pending = s.pending := (rfl)
@[simp] theorem State.modMon_fld (s : State) (b : BayNo) (m : Fin 16) (f : MonUnit → MonUnit) (g : Field) (cc : BayNo) (j1 k1 : Nat) : (State.modMon s b m f).fld g cc j1 k1 = s.fld g cc j1 k1 := (rfl)
@[simp] theorem State.modMon_fldN (s : State) (b : BayNo) (m : Fin 16) (f : MonUnit → MonUnit) (g : Field) (cc : BayNo) (j1 k1 : Nat) : (State.modMon s b m f).fldN g cc j1 k1 = s.fldN g cc j1 k1 := (rfl)
@[simp] theorem State.modMon_fldB (s : State) (b : BayNo) (m : Fin 16) (f : MonUnit → MonUnit) (g : Field) (cc : BayNo) (j1 : Nat) : (State.modMon s b m f).fldB g cc j1 = s.fldB g cc j1 := (rfl)
@[simp] theorem State.modMon_pkgN (s : State) (b : BayNo) (m : Fin 16) (f : MonUnit → MonUnit) (g : Field) (j1 : Nat) : (State.modMon s b m f).pkgN g j1 = s.pkgN g j1 := (rfl)
@[simp] theorem State.modMon_bay_lost (s : State) (b : BayNo) (m : Fin 16) (f : MonUnit → MonUnit) (cc : BayNo) : ((State.modMon s b m f).bay cc).lost = (s.bay cc).lost :=
  State.bay_modBay_same (·.lost) s b cc _ fun _ => rfl
@[simp] theorem State.modMon_bay_clk (s : State) (b : BayNo) (m : Fin 16) (f : MonUnit → MonUnit) (cc : BayNo) : ((State.modMon s b m f).bay cc).clk = (s.bay cc).clk :=
  State.bay_modBay_same (·.clk) s b cc _ fun _ => rfl
@[simp] theorem State.modMon_bay_tbs (s : State) (b : BayNo) (m : Fin 16) (f : MonUnit → MonUnit) (cc : BayNo) : ((State.modMon s b m f).bay cc).tbs = (s.bay cc).tbs :=
  State.bay_modBay_same (·.tbs) s b cc _ fun _ => rfl
@[simp] theorem State.modMon_bay_que (s : State) (b : BayNo) (m : Fin 16) (f : MonUnit → MonUnit) (cc : BayNo) : ((State.modMon s b m f).bay cc).que = (s.bay cc).que :=
  State.bay_modBay_same (·.que) s b cc _ fun _ => rfl
@[simp] theorem State.modMon_bay_dma (s : State) (b : BayNo) (m : Fin 16) (f : MonUnit → MonUnit) (cc : BayNo) : ((State.modMon s b m f).bay cc).dma = (s.bay cc).dma :=
  State.bay_modBay_same (·.dma) s b cc _ fun _ => rfl
@[simp] theorem State.modMon_bay_pwr (s : State) (b : BayNo) (m : Fin 16) (f : MonUnit → MonUnit) (cc : BayNo) : ((State.modMon s b m f).bay cc).pwr = (s.bay cc).pwr :=
  State.bay_modBay_same (·.pwr) s b cc _ fun _ => rfl
@[simp] theorem State.modMon_bay_trg (s : State) (b : BayNo) (m : Fin 16) (f : MonUnit → MonUnit) (cc : BayNo) : ((State.modMon s b m f).bay cc).trg = (s.bay cc).trg :=
  State.bay_modBay_same (·.trg) s b cc _ fun _ => rfl
@[simp] theorem State.modMon_bay_afe (s : State) (b : BayNo) (m : Fin 16) (f : MonUnit → MonUnit) (cc : BayNo) : ((State.modMon s b m f).bay cc).afe = (s.bay cc).afe :=
  State.bay_modBay_same (·.afe) s b cc _ fun _ => rfl
@[simp] theorem State.modMon_bay_adc (s : State) (b : BayNo) (m : Fin 16) (f : MonUnit → MonUnit) (cc : BayNo) : ((State.modMon s b m f).bay cc).adc = (s.bay cc).adc :=
  State.bay_modBay_same (·.adc) s b cc _ fun _ => rfl
@[simp] theorem State.modMon_bay_ddc (s : State) (b : BayNo) (m : Fin 16) (f : MonUnit → MonUnit) (cc : BayNo) : ((State.modMon s b m f).bay cc).ddc = (s.bay cc).ddc :=
  State.bay_modBay_same (·.ddc) s b cc _ fun _ => rfl
@[simp] theorem State.modMon_bay_xfm (s : State) (b : BayNo) (m : Fin 16) (f : MonUnit → MonUnit) (cc : BayNo) : ((State.modMon s b m f).bay cc).xfm = (s.bay cc).xfm :=
  State.bay_modBay_same (·.xfm) s b cc _ fun _ => rfl
@[simp] theorem State.modMon_bay_den (s : State) (b : BayNo) (m : Fin 16) (f : MonUnit → MonUnit) (cc : BayNo) : ((State.modMon s b m f).bay cc).den = (s.bay cc).den :=
  State.bay_modBay_same (·.den) s b cc _ fun _ => rfl
@[simp] theorem State.modMon_bay_mco (s : State) (b : BayNo) (m : Fin 16) (f : MonUnit → MonUnit) (cc : BayNo) : ((State.modMon s b m f).bay cc).mco = (s.bay cc).mco :=
  State.bay_modBay_same (·.mco) s b cc _ fun _ => rfl
@[simp] theorem State.modMon_bay_scn (s : State) (b : BayNo) (m : Fin 16) (f : MonUnit → MonUnit) (cc : BayNo) : ((State.modMon s b m f).bay cc).scn = (s.bay cc).scn :=
  State.bay_modBay_same (·.scn) s b cc _ fun _ => rfl
@[simp] theorem State.modMon_bay_recorder (s : State) (b : BayNo) (m : Fin 16) (f : MonUnit → MonUnit) (cc : BayNo) : ((State.modMon s b m f).bay cc).recorder = (s.bay cc).recorder :=
  State.bay_modBay_same (·.recorder) s b cc _ fun _ => rfl
@[simp] theorem State.modMon_bay_lne (s : State) (b : BayNo) (m : Fin 16) (f : MonUnit → MonUnit) (cc : BayNo) : ((State.modMon s b m f).bay cc).lne = (s.bay cc).lne :=
  State.bay_modBay_same (·.lne) s b cc _ fun _ => rfl
@[simp] theorem State.modMon_bay_pci (s : State) (b : BayNo) (m : Fin 16) (f : MonUnit → MonUnit) (cc : BayNo) : ((State.modMon s b m f).bay cc).pci = (s.bay cc).pci :=
  State.bay_modBay_same (·.pci) s b cc _ fun _ => rfl
@[simp] theorem State.modMon_bay_eth (s : State) (b : BayNo) (m : Fin 16) (f : MonUnit → MonUnit) (cc : BayNo) : ((State.modMon s b m f).bay cc).eth = (s.bay cc).eth :=
  State.bay_modBay_same (·.eth) s b cc _ fun _ => rfl
@[simp] theorem State.modMon_bay_jes (s : State) (b : BayNo) (m : Fin 16) (f : MonUnit → MonUnit) (cc : BayNo) : ((State.modMon s b m f).bay cc).jes = (s.bay cc).jes :=
  State.bay_modBay_same (·.jes) s b cc _ fun _ => rfl
@[simp] theorem State.modMon_bay_lnl (s : State) (b : BayNo) (m : Fin 16) (f : MonUnit → MonUnit) (cc : BayNo) : ((State.modMon s b m f).bay cc).lnl = (s.bay cc).lnl :=
  State.bay_modBay_same (·.lnl) s b cc _ fun _ => rfl
@[simp] theorem State.modMon_bay_cal (s : State) (b : BayNo) (m : Fin 16) (f : MonUnit → MonUnit) (cc : BayNo) : ((State.modMon s b m f).bay cc).cal = (s.bay cc).cal :=
  State.bay_modBay_same (·.cal) s b cc _ fun _ => rfl
@[simp] theorem State.modMon_bay_hkc (s : State) (b : BayNo) (m : Fin 16) (f : MonUnit → MonUnit) (cc : BayNo) : ((State.modMon s b m f).bay cc).hkc = (s.bay cc).hkc :=
  State.bay_modBay_same (·.hkc) s b cc _ fun _ => rfl
@[simp] theorem State.modMon_bay_aux (s : State) (b : BayNo) (m : Fin 16) (f : MonUnit → MonUnit) (cc : BayNo) : ((State.modMon s b m f).bay cc).aux = (s.bay cc).aux :=
  State.bay_modBay_same (·.aux) s b cc _ fun _ => rfl
@[simp] theorem State.modMon_bay_jtag (s : State) (b : BayNo) (m : Fin 16) (f : MonUnit → MonUnit) (cc : BayNo) : ((State.modMon s b m f).bay cc).jtag = (s.bay cc).jtag :=
  State.bay_modBay_same (·.jtag) s b cc _ fun _ => rfl
@[simp] theorem State.modMon_nowAt (s : State) (b : BayNo) (m : Fin 16) (f : MonUnit → MonUnit) (cc : BayNo) : (State.modMon s b m f).nowAt cc = s.nowAt cc :=
  congrArg (fun t : TbsBay => Tide.stamp t.tide) (State.modMon_bay_tbs s b m f cc)
@[simp] theorem State.modMon_now (s : State) (b : BayNo) (m : Fin 16) (f : MonUnit → MonUnit) : (State.modMon s b m f).now = s.now := State.modMon_nowAt s b m f 0
@[simp] theorem State.modMon_alive (s : State) (b : BayNo) (m : Fin 16) (f : MonUnit → MonUnit) (cc : BayNo) : (State.modMon s b m f).alive cc = s.alive cc :=
  State.alive_congr cc rfl rfl (State.modMon_bay_lost s b m f cc)
@[simp] theorem State.modMon_liveBays (s : State) (b : BayNo) (m : Fin 16) (f : MonUnit → MonUnit) : (State.modMon s b m f).liveBays = s.liveBays :=
  State.liveBays_congr (State.modMon_alive s b m f)
@[simp] theorem State.modMon_bay_mon_self (s : State) (b : BayNo) (m : Fin 16) (f : MonUnit → MonUnit) : ((State.modMon s b m f).bay b).mon = (s.bay b).mon.set m (f (s.bay b).mon[m]) :=
  congrArg (fun y : Bay => y.mon) (State.bay_modBay s b _)
theorem State.modMon_bay_mon_ne (s : State) (b : BayNo) (m : Fin 16) (f : MonUnit → MonUnit) {cc : BayNo} (h : cc ≠ b) : ((State.modMon s b m f).bay cc).mon = (s.bay cc).mon :=
  congrArg (fun y : Bay => y.mon) (State.bay_modBay_ne s _ h)

@[simp] theorem State.modCal_part (s : State) (b : BayNo) (i : Fin 2) (f : CalIn → CalIn) : (State.modCal s b i f).part = s.part := (rfl)
@[simp] theorem State.modCal_vals (s : State) (b : BayNo) (i : Fin 2) (f : CalIn → CalIn) : (State.modCal s b i f).vals = s.vals := (rfl)
@[simp] theorem State.modCal_img (s : State) (b : BayNo) (i : Fin 2) (f : CalIn → CalIn) : (State.modCal s b i f).img = s.img := (rfl)
@[simp] theorem State.modCal_flash (s : State) (b : BayNo) (i : Fin 2) (f : CalIn → CalIn) : (State.modCal s b i f).flash = s.flash := (rfl)
@[simp] theorem State.modCal_tbs (s : State) (b : BayNo) (i : Fin 2) (f : CalIn → CalIn) : (State.modCal s b i f).tbs = s.tbs := (rfl)
@[simp] theorem State.modCal_sel (s : State) (b : BayNo) (i : Fin 2) (f : CalIn → CalIn) : (State.modCal s b i f).sel = s.sel := (rfl)
@[simp] theorem State.modCal_keeper (s : State) (b : BayNo) (i : Fin 2) (f : CalIn → CalIn) : (State.modCal s b i f).keeper = s.keeper := (rfl)
@[simp] theorem State.modCal_pwr (s : State) (b : BayNo) (i : Fin 2) (f : CalIn → CalIn) : (State.modCal s b i f).pwr = s.pwr := (rfl)
@[simp] theorem State.modCal_faults (s : State) (b : BayNo) (i : Fin 2) (f : CalIn → CalIn) : (State.modCal s b i f).faults = s.faults := (rfl)
@[simp] theorem State.modCal_trg (s : State) (b : BayNo) (i : Fin 2) (f : CalIn → CalIn) : (State.modCal s b i f).trg = s.trg := (rfl)
@[simp] theorem State.modCal_ident (s : State) (b : BayNo) (i : Fin 2) (f : CalIn → CalIn) : (State.modCal s b i f).ident = s.ident := (rfl)
@[simp] theorem State.modCal_eth (s : State) (b : BayNo) (i : Fin 2) (f : CalIn → CalIn) : (State.modCal s b i f).eth = s.eth := (rfl)
@[simp] theorem State.modCal_lnl (s : State) (b : BayNo) (i : Fin 2) (f : CalIn → CalIn) : (State.modCal s b i f).lnl = s.lnl := (rfl)
@[simp] theorem State.modCal_inj (s : State) (b : BayNo) (i : Fin 2) (f : CalIn → CalIn) : (State.modCal s b i f).inj = s.inj := (rfl)
@[simp] theorem State.modCal_clrPin (s : State) (b : BayNo) (i : Fin 2) (f : CalIn → CalIn) : (State.modCal s b i f).clrPin = s.clrPin := (rfl)
@[simp] theorem State.modCal_rstLow (s : State) (b : BayNo) (i : Fin 2) (f : CalIn → CalIn) : (State.modCal s b i f).rstLow = s.rstLow := (rfl)
@[simp] theorem State.modCal_fresh (s : State) (b : BayNo) (i : Fin 2) (f : CalIn → CalIn) : (State.modCal s b i f).fresh = s.fresh := (rfl)
@[simp] theorem State.modCal_outbox (s : State) (b : BayNo) (i : Fin 2) (f : CalIn → CalIn) : (State.modCal s b i f).outbox = s.outbox := (rfl)
@[simp] theorem State.modCal_pending (s : State) (b : BayNo) (i : Fin 2) (f : CalIn → CalIn) : (State.modCal s b i f).pending = s.pending := (rfl)
@[simp] theorem State.modCal_fld (s : State) (b : BayNo) (i : Fin 2) (f : CalIn → CalIn) (g : Field) (cc : BayNo) (j1 k1 : Nat) : (State.modCal s b i f).fld g cc j1 k1 = s.fld g cc j1 k1 := (rfl)
@[simp] theorem State.modCal_fldN (s : State) (b : BayNo) (i : Fin 2) (f : CalIn → CalIn) (g : Field) (cc : BayNo) (j1 k1 : Nat) : (State.modCal s b i f).fldN g cc j1 k1 = s.fldN g cc j1 k1 := (rfl)
@[simp] theorem State.modCal_fldB (s : State) (b : BayNo) (i : Fin 2) (f : CalIn → CalIn) (g : Field) (cc : BayNo) (j1 : Nat) : (State.modCal s b i f).fldB g cc j1 = s.fldB g cc j1 := (rfl)
@[simp] theorem State.modCal_pkgN (s : State) (b : BayNo) (i : Fin 2) (f : CalIn → CalIn) (g : Field) (j1 : Nat) : (State.modCal s b i f).pkgN g j1 = s.pkgN g j1 := (rfl)
@[simp] theorem State.modCal_bay_lost (s : State) (b : BayNo) (i : Fin 2) (f : CalIn → CalIn) (cc : BayNo) : ((State.modCal s b i f).bay cc).lost = (s.bay cc).lost :=
  State.bay_modBay_same (·.lost) s b cc _ fun _ => rfl
@[simp] theorem State.modCal_bay_clk (s : State) (b : BayNo) (i : Fin 2) (f : CalIn → CalIn) (cc : BayNo) : ((State.modCal s b i f).bay cc).clk = (s.bay cc).clk :=
  State.bay_modBay_same (·.clk) s b cc _ fun _ => rfl
@[simp] theorem State.modCal_bay_tbs (s : State) (b : BayNo) (i : Fin 2) (f : CalIn → CalIn) (cc : BayNo) : ((State.modCal s b i f).bay cc).tbs = (s.bay cc).tbs :=
  State.bay_modBay_same (·.tbs) s b cc _ fun _ => rfl
@[simp] theorem State.modCal_bay_que (s : State) (b : BayNo) (i : Fin 2) (f : CalIn → CalIn) (cc : BayNo) : ((State.modCal s b i f).bay cc).que = (s.bay cc).que :=
  State.bay_modBay_same (·.que) s b cc _ fun _ => rfl
@[simp] theorem State.modCal_bay_dma (s : State) (b : BayNo) (i : Fin 2) (f : CalIn → CalIn) (cc : BayNo) : ((State.modCal s b i f).bay cc).dma = (s.bay cc).dma :=
  State.bay_modBay_same (·.dma) s b cc _ fun _ => rfl
@[simp] theorem State.modCal_bay_pwr (s : State) (b : BayNo) (i : Fin 2) (f : CalIn → CalIn) (cc : BayNo) : ((State.modCal s b i f).bay cc).pwr = (s.bay cc).pwr :=
  State.bay_modBay_same (·.pwr) s b cc _ fun _ => rfl
@[simp] theorem State.modCal_bay_trg (s : State) (b : BayNo) (i : Fin 2) (f : CalIn → CalIn) (cc : BayNo) : ((State.modCal s b i f).bay cc).trg = (s.bay cc).trg :=
  State.bay_modBay_same (·.trg) s b cc _ fun _ => rfl
@[simp] theorem State.modCal_bay_afe (s : State) (b : BayNo) (i : Fin 2) (f : CalIn → CalIn) (cc : BayNo) : ((State.modCal s b i f).bay cc).afe = (s.bay cc).afe :=
  State.bay_modBay_same (·.afe) s b cc _ fun _ => rfl
@[simp] theorem State.modCal_bay_adc (s : State) (b : BayNo) (i : Fin 2) (f : CalIn → CalIn) (cc : BayNo) : ((State.modCal s b i f).bay cc).adc = (s.bay cc).adc :=
  State.bay_modBay_same (·.adc) s b cc _ fun _ => rfl
@[simp] theorem State.modCal_bay_ddc (s : State) (b : BayNo) (i : Fin 2) (f : CalIn → CalIn) (cc : BayNo) : ((State.modCal s b i f).bay cc).ddc = (s.bay cc).ddc :=
  State.bay_modBay_same (·.ddc) s b cc _ fun _ => rfl
@[simp] theorem State.modCal_bay_xfm (s : State) (b : BayNo) (i : Fin 2) (f : CalIn → CalIn) (cc : BayNo) : ((State.modCal s b i f).bay cc).xfm = (s.bay cc).xfm :=
  State.bay_modBay_same (·.xfm) s b cc _ fun _ => rfl
@[simp] theorem State.modCal_bay_den (s : State) (b : BayNo) (i : Fin 2) (f : CalIn → CalIn) (cc : BayNo) : ((State.modCal s b i f).bay cc).den = (s.bay cc).den :=
  State.bay_modBay_same (·.den) s b cc _ fun _ => rfl
@[simp] theorem State.modCal_bay_mco (s : State) (b : BayNo) (i : Fin 2) (f : CalIn → CalIn) (cc : BayNo) : ((State.modCal s b i f).bay cc).mco = (s.bay cc).mco :=
  State.bay_modBay_same (·.mco) s b cc _ fun _ => rfl
@[simp] theorem State.modCal_bay_scn (s : State) (b : BayNo) (i : Fin 2) (f : CalIn → CalIn) (cc : BayNo) : ((State.modCal s b i f).bay cc).scn = (s.bay cc).scn :=
  State.bay_modBay_same (·.scn) s b cc _ fun _ => rfl
@[simp] theorem State.modCal_bay_recorder (s : State) (b : BayNo) (i : Fin 2) (f : CalIn → CalIn) (cc : BayNo) : ((State.modCal s b i f).bay cc).recorder = (s.bay cc).recorder :=
  State.bay_modBay_same (·.recorder) s b cc _ fun _ => rfl
@[simp] theorem State.modCal_bay_lne (s : State) (b : BayNo) (i : Fin 2) (f : CalIn → CalIn) (cc : BayNo) : ((State.modCal s b i f).bay cc).lne = (s.bay cc).lne :=
  State.bay_modBay_same (·.lne) s b cc _ fun _ => rfl
@[simp] theorem State.modCal_bay_pci (s : State) (b : BayNo) (i : Fin 2) (f : CalIn → CalIn) (cc : BayNo) : ((State.modCal s b i f).bay cc).pci = (s.bay cc).pci :=
  State.bay_modBay_same (·.pci) s b cc _ fun _ => rfl
@[simp] theorem State.modCal_bay_eth (s : State) (b : BayNo) (i : Fin 2) (f : CalIn → CalIn) (cc : BayNo) : ((State.modCal s b i f).bay cc).eth = (s.bay cc).eth :=
  State.bay_modBay_same (·.eth) s b cc _ fun _ => rfl
@[simp] theorem State.modCal_bay_jes (s : State) (b : BayNo) (i : Fin 2) (f : CalIn → CalIn) (cc : BayNo) : ((State.modCal s b i f).bay cc).jes = (s.bay cc).jes :=
  State.bay_modBay_same (·.jes) s b cc _ fun _ => rfl
@[simp] theorem State.modCal_bay_lnl (s : State) (b : BayNo) (i : Fin 2) (f : CalIn → CalIn) (cc : BayNo) : ((State.modCal s b i f).bay cc).lnl = (s.bay cc).lnl :=
  State.bay_modBay_same (·.lnl) s b cc _ fun _ => rfl
@[simp] theorem State.modCal_bay_hkc (s : State) (b : BayNo) (i : Fin 2) (f : CalIn → CalIn) (cc : BayNo) : ((State.modCal s b i f).bay cc).hkc = (s.bay cc).hkc :=
  State.bay_modBay_same (·.hkc) s b cc _ fun _ => rfl
@[simp] theorem State.modCal_bay_aux (s : State) (b : BayNo) (i : Fin 2) (f : CalIn → CalIn) (cc : BayNo) : ((State.modCal s b i f).bay cc).aux = (s.bay cc).aux :=
  State.bay_modBay_same (·.aux) s b cc _ fun _ => rfl
@[simp] theorem State.modCal_bay_mon (s : State) (b : BayNo) (i : Fin 2) (f : CalIn → CalIn) (cc : BayNo) : ((State.modCal s b i f).bay cc).mon = (s.bay cc).mon :=
  State.bay_modBay_same (·.mon) s b cc _ fun _ => rfl
@[simp] theorem State.modCal_bay_jtag (s : State) (b : BayNo) (i : Fin 2) (f : CalIn → CalIn) (cc : BayNo) : ((State.modCal s b i f).bay cc).jtag = (s.bay cc).jtag :=
  State.bay_modBay_same (·.jtag) s b cc _ fun _ => rfl
@[simp] theorem State.modCal_nowAt (s : State) (b : BayNo) (i : Fin 2) (f : CalIn → CalIn) (cc : BayNo) : (State.modCal s b i f).nowAt cc = s.nowAt cc :=
  congrArg (fun t : TbsBay => Tide.stamp t.tide) (State.modCal_bay_tbs s b i f cc)
@[simp] theorem State.modCal_now (s : State) (b : BayNo) (i : Fin 2) (f : CalIn → CalIn) : (State.modCal s b i f).now = s.now := State.modCal_nowAt s b i f 0
@[simp] theorem State.modCal_alive (s : State) (b : BayNo) (i : Fin 2) (f : CalIn → CalIn) (cc : BayNo) : (State.modCal s b i f).alive cc = s.alive cc :=
  State.alive_congr cc rfl rfl (State.modCal_bay_lost s b i f cc)
@[simp] theorem State.modCal_liveBays (s : State) (b : BayNo) (i : Fin 2) (f : CalIn → CalIn) : (State.modCal s b i f).liveBays = s.liveBays :=
  State.liveBays_congr (State.modCal_alive s b i f)
@[simp] theorem State.modCal_bay_cal_self (s : State) (b : BayNo) (i : Fin 2) (f : CalIn → CalIn) : ((State.modCal s b i f).bay b).cal = (s.bay b).cal.set i (f (s.bay b).cal[i]) :=
  congrArg (fun y : Bay => y.cal) (State.bay_modBay s b _)
theorem State.modCal_bay_cal_ne (s : State) (b : BayNo) (i : Fin 2) (f : CalIn → CalIn) {cc : BayNo} (h : cc ≠ b) : ((State.modCal s b i f).bay cc).cal = (s.bay cc).cal :=
  congrArg (fun y : Bay => y.cal) (State.bay_modBay_ne s _ h)

@[simp] theorem State.modPci_part (s : State) (b : BayNo) (j : Fin 5) (f : PciEp → PciEp) : (State.modPci s b j f).part = s.part := (rfl)
@[simp] theorem State.modPci_vals (s : State) (b : BayNo) (j : Fin 5) (f : PciEp → PciEp) : (State.modPci s b j f).vals = s.vals := (rfl)
@[simp] theorem State.modPci_img (s : State) (b : BayNo) (j : Fin 5) (f : PciEp → PciEp) : (State.modPci s b j f).img = s.img := (rfl)
@[simp] theorem State.modPci_flash (s : State) (b : BayNo) (j : Fin 5) (f : PciEp → PciEp) : (State.modPci s b j f).flash = s.flash := (rfl)
@[simp] theorem State.modPci_tbs (s : State) (b : BayNo) (j : Fin 5) (f : PciEp → PciEp) : (State.modPci s b j f).tbs = s.tbs := (rfl)
@[simp] theorem State.modPci_sel (s : State) (b : BayNo) (j : Fin 5) (f : PciEp → PciEp) : (State.modPci s b j f).sel = s.sel := (rfl)
@[simp] theorem State.modPci_keeper (s : State) (b : BayNo) (j : Fin 5) (f : PciEp → PciEp) : (State.modPci s b j f).keeper = s.keeper := (rfl)
@[simp] theorem State.modPci_pwr (s : State) (b : BayNo) (j : Fin 5) (f : PciEp → PciEp) : (State.modPci s b j f).pwr = s.pwr := (rfl)
@[simp] theorem State.modPci_faults (s : State) (b : BayNo) (j : Fin 5) (f : PciEp → PciEp) : (State.modPci s b j f).faults = s.faults := (rfl)
@[simp] theorem State.modPci_trg (s : State) (b : BayNo) (j : Fin 5) (f : PciEp → PciEp) : (State.modPci s b j f).trg = s.trg := (rfl)
@[simp] theorem State.modPci_ident (s : State) (b : BayNo) (j : Fin 5) (f : PciEp → PciEp) : (State.modPci s b j f).ident = s.ident := (rfl)
@[simp] theorem State.modPci_eth (s : State) (b : BayNo) (j : Fin 5) (f : PciEp → PciEp) : (State.modPci s b j f).eth = s.eth := (rfl)
@[simp] theorem State.modPci_lnl (s : State) (b : BayNo) (j : Fin 5) (f : PciEp → PciEp) : (State.modPci s b j f).lnl = s.lnl := (rfl)
@[simp] theorem State.modPci_inj (s : State) (b : BayNo) (j : Fin 5) (f : PciEp → PciEp) : (State.modPci s b j f).inj = s.inj := (rfl)
@[simp] theorem State.modPci_clrPin (s : State) (b : BayNo) (j : Fin 5) (f : PciEp → PciEp) : (State.modPci s b j f).clrPin = s.clrPin := (rfl)
@[simp] theorem State.modPci_rstLow (s : State) (b : BayNo) (j : Fin 5) (f : PciEp → PciEp) : (State.modPci s b j f).rstLow = s.rstLow := (rfl)
@[simp] theorem State.modPci_fresh (s : State) (b : BayNo) (j : Fin 5) (f : PciEp → PciEp) : (State.modPci s b j f).fresh = s.fresh := (rfl)
@[simp] theorem State.modPci_outbox (s : State) (b : BayNo) (j : Fin 5) (f : PciEp → PciEp) : (State.modPci s b j f).outbox = s.outbox := (rfl)
@[simp] theorem State.modPci_pending (s : State) (b : BayNo) (j : Fin 5) (f : PciEp → PciEp) : (State.modPci s b j f).pending = s.pending := (rfl)
@[simp] theorem State.modPci_fld (s : State) (b : BayNo) (j : Fin 5) (f : PciEp → PciEp) (g : Field) (cc : BayNo) (j1 k1 : Nat) : (State.modPci s b j f).fld g cc j1 k1 = s.fld g cc j1 k1 := (rfl)
@[simp] theorem State.modPci_fldN (s : State) (b : BayNo) (j : Fin 5) (f : PciEp → PciEp) (g : Field) (cc : BayNo) (j1 k1 : Nat) : (State.modPci s b j f).fldN g cc j1 k1 = s.fldN g cc j1 k1 := (rfl)
@[simp] theorem State.modPci_fldB (s : State) (b : BayNo) (j : Fin 5) (f : PciEp → PciEp) (g : Field) (cc : BayNo) (j1 : Nat) : (State.modPci s b j f).fldB g cc j1 = s.fldB g cc j1 := (rfl)
@[simp] theorem State.modPci_pkgN (s : State) (b : BayNo) (j : Fin 5) (f : PciEp → PciEp) (g : Field) (j1 : Nat) : (State.modPci s b j f).pkgN g j1 = s.pkgN g j1 := (rfl)
@[simp] theorem State.modPci_bay_lost (s : State) (b : BayNo) (j : Fin 5) (f : PciEp → PciEp) (cc : BayNo) : ((State.modPci s b j f).bay cc).lost = (s.bay cc).lost :=
  State.bay_modBay_same (·.lost) s b cc _ fun _ => rfl
@[simp] theorem State.modPci_bay_clk (s : State) (b : BayNo) (j : Fin 5) (f : PciEp → PciEp) (cc : BayNo) : ((State.modPci s b j f).bay cc).clk = (s.bay cc).clk :=
  State.bay_modBay_same (·.clk) s b cc _ fun _ => rfl
@[simp] theorem State.modPci_bay_tbs (s : State) (b : BayNo) (j : Fin 5) (f : PciEp → PciEp) (cc : BayNo) : ((State.modPci s b j f).bay cc).tbs = (s.bay cc).tbs :=
  State.bay_modBay_same (·.tbs) s b cc _ fun _ => rfl
@[simp] theorem State.modPci_bay_que (s : State) (b : BayNo) (j : Fin 5) (f : PciEp → PciEp) (cc : BayNo) : ((State.modPci s b j f).bay cc).que = (s.bay cc).que :=
  State.bay_modBay_same (·.que) s b cc _ fun _ => rfl
@[simp] theorem State.modPci_bay_dma (s : State) (b : BayNo) (j : Fin 5) (f : PciEp → PciEp) (cc : BayNo) : ((State.modPci s b j f).bay cc).dma = (s.bay cc).dma :=
  State.bay_modBay_same (·.dma) s b cc _ fun _ => rfl
@[simp] theorem State.modPci_bay_pwr (s : State) (b : BayNo) (j : Fin 5) (f : PciEp → PciEp) (cc : BayNo) : ((State.modPci s b j f).bay cc).pwr = (s.bay cc).pwr :=
  State.bay_modBay_same (·.pwr) s b cc _ fun _ => rfl
@[simp] theorem State.modPci_bay_trg (s : State) (b : BayNo) (j : Fin 5) (f : PciEp → PciEp) (cc : BayNo) : ((State.modPci s b j f).bay cc).trg = (s.bay cc).trg :=
  State.bay_modBay_same (·.trg) s b cc _ fun _ => rfl
@[simp] theorem State.modPci_bay_afe (s : State) (b : BayNo) (j : Fin 5) (f : PciEp → PciEp) (cc : BayNo) : ((State.modPci s b j f).bay cc).afe = (s.bay cc).afe :=
  State.bay_modBay_same (·.afe) s b cc _ fun _ => rfl
@[simp] theorem State.modPci_bay_adc (s : State) (b : BayNo) (j : Fin 5) (f : PciEp → PciEp) (cc : BayNo) : ((State.modPci s b j f).bay cc).adc = (s.bay cc).adc :=
  State.bay_modBay_same (·.adc) s b cc _ fun _ => rfl
@[simp] theorem State.modPci_bay_ddc (s : State) (b : BayNo) (j : Fin 5) (f : PciEp → PciEp) (cc : BayNo) : ((State.modPci s b j f).bay cc).ddc = (s.bay cc).ddc :=
  State.bay_modBay_same (·.ddc) s b cc _ fun _ => rfl
@[simp] theorem State.modPci_bay_xfm (s : State) (b : BayNo) (j : Fin 5) (f : PciEp → PciEp) (cc : BayNo) : ((State.modPci s b j f).bay cc).xfm = (s.bay cc).xfm :=
  State.bay_modBay_same (·.xfm) s b cc _ fun _ => rfl
@[simp] theorem State.modPci_bay_den (s : State) (b : BayNo) (j : Fin 5) (f : PciEp → PciEp) (cc : BayNo) : ((State.modPci s b j f).bay cc).den = (s.bay cc).den :=
  State.bay_modBay_same (·.den) s b cc _ fun _ => rfl
@[simp] theorem State.modPci_bay_mco (s : State) (b : BayNo) (j : Fin 5) (f : PciEp → PciEp) (cc : BayNo) : ((State.modPci s b j f).bay cc).mco = (s.bay cc).mco :=
  State.bay_modBay_same (·.mco) s b cc _ fun _ => rfl
@[simp] theorem State.modPci_bay_scn (s : State) (b : BayNo) (j : Fin 5) (f : PciEp → PciEp) (cc : BayNo) : ((State.modPci s b j f).bay cc).scn = (s.bay cc).scn :=
  State.bay_modBay_same (·.scn) s b cc _ fun _ => rfl
@[simp] theorem State.modPci_bay_recorder (s : State) (b : BayNo) (j : Fin 5) (f : PciEp → PciEp) (cc : BayNo) : ((State.modPci s b j f).bay cc).recorder = (s.bay cc).recorder :=
  State.bay_modBay_same (·.recorder) s b cc _ fun _ => rfl
@[simp] theorem State.modPci_bay_lne (s : State) (b : BayNo) (j : Fin 5) (f : PciEp → PciEp) (cc : BayNo) : ((State.modPci s b j f).bay cc).lne = (s.bay cc).lne :=
  State.bay_modBay_same (·.lne) s b cc _ fun _ => rfl
@[simp] theorem State.modPci_bay_eth (s : State) (b : BayNo) (j : Fin 5) (f : PciEp → PciEp) (cc : BayNo) : ((State.modPci s b j f).bay cc).eth = (s.bay cc).eth :=
  State.bay_modBay_same (·.eth) s b cc _ fun _ => rfl
@[simp] theorem State.modPci_bay_jes (s : State) (b : BayNo) (j : Fin 5) (f : PciEp → PciEp) (cc : BayNo) : ((State.modPci s b j f).bay cc).jes = (s.bay cc).jes :=
  State.bay_modBay_same (·.jes) s b cc _ fun _ => rfl
@[simp] theorem State.modPci_bay_lnl (s : State) (b : BayNo) (j : Fin 5) (f : PciEp → PciEp) (cc : BayNo) : ((State.modPci s b j f).bay cc).lnl = (s.bay cc).lnl :=
  State.bay_modBay_same (·.lnl) s b cc _ fun _ => rfl
@[simp] theorem State.modPci_bay_cal (s : State) (b : BayNo) (j : Fin 5) (f : PciEp → PciEp) (cc : BayNo) : ((State.modPci s b j f).bay cc).cal = (s.bay cc).cal :=
  State.bay_modBay_same (·.cal) s b cc _ fun _ => rfl
@[simp] theorem State.modPci_bay_hkc (s : State) (b : BayNo) (j : Fin 5) (f : PciEp → PciEp) (cc : BayNo) : ((State.modPci s b j f).bay cc).hkc = (s.bay cc).hkc :=
  State.bay_modBay_same (·.hkc) s b cc _ fun _ => rfl
@[simp] theorem State.modPci_bay_aux (s : State) (b : BayNo) (j : Fin 5) (f : PciEp → PciEp) (cc : BayNo) : ((State.modPci s b j f).bay cc).aux = (s.bay cc).aux :=
  State.bay_modBay_same (·.aux) s b cc _ fun _ => rfl
@[simp] theorem State.modPci_bay_mon (s : State) (b : BayNo) (j : Fin 5) (f : PciEp → PciEp) (cc : BayNo) : ((State.modPci s b j f).bay cc).mon = (s.bay cc).mon :=
  State.bay_modBay_same (·.mon) s b cc _ fun _ => rfl
@[simp] theorem State.modPci_bay_jtag (s : State) (b : BayNo) (j : Fin 5) (f : PciEp → PciEp) (cc : BayNo) : ((State.modPci s b j f).bay cc).jtag = (s.bay cc).jtag :=
  State.bay_modBay_same (·.jtag) s b cc _ fun _ => rfl
@[simp] theorem State.modPci_nowAt (s : State) (b : BayNo) (j : Fin 5) (f : PciEp → PciEp) (cc : BayNo) : (State.modPci s b j f).nowAt cc = s.nowAt cc :=
  congrArg (fun t : TbsBay => Tide.stamp t.tide) (State.modPci_bay_tbs s b j f cc)
@[simp] theorem State.modPci_now (s : State) (b : BayNo) (j : Fin 5) (f : PciEp → PciEp) : (State.modPci s b j f).now = s.now := State.modPci_nowAt s b j f 0
@[simp] theorem State.modPci_alive (s : State) (b : BayNo) (j : Fin 5) (f : PciEp → PciEp) (cc : BayNo) : (State.modPci s b j f).alive cc = s.alive cc :=
  State.alive_congr cc rfl rfl (State.modPci_bay_lost s b j f cc)
@[simp] theorem State.modPci_liveBays (s : State) (b : BayNo) (j : Fin 5) (f : PciEp → PciEp) : (State.modPci s b j f).liveBays = s.liveBays :=
  State.liveBays_congr (State.modPci_alive s b j f)
@[simp] theorem State.modPci_bay_pci_self (s : State) (b : BayNo) (j : Fin 5) (f : PciEp → PciEp) : ((State.modPci s b j f).bay b).pci = (s.bay b).pci.set j (f (s.bay b).pci[j]) :=
  congrArg (fun y : Bay => y.pci) (State.bay_modBay s b _)
theorem State.modPci_bay_pci_ne (s : State) (b : BayNo) (j : Fin 5) (f : PciEp → PciEp) {cc : BayNo} (h : cc ≠ b) : ((State.modPci s b j f).bay cc).pci = (s.bay cc).pci :=
  congrArg (fun y : Bay => y.pci) (State.bay_modBay_ne s _ h)

@[simp] theorem State.modEth_part (s : State) (b : BayNo) (i : Fin 8) (f : EthPort → EthPort) : (State.modEth s b i f).part = s.part := (rfl)
@[simp] theorem State.modEth_vals (s : State) (b : BayNo) (i : Fin 8) (f : EthPort → EthPort) : (State.modEth s b i f).vals = s.vals := (rfl)
@[simp] theorem State.modEth_img (s : State) (b : BayNo) (i : Fin 8) (f : EthPort → EthPort) : (State.modEth s b i f).img = s.img := (rfl)
@[simp] theorem State.modEth_flash (s : State) (b : BayNo) (i : Fin 8) (f : EthPort → EthPort) : (State.modEth s b i f).flash = s.flash := (rfl)
@[simp] theorem State.modEth_tbs (s : State) (b : BayNo) (i : Fin 8) (f : EthPort → EthPort) : (State.modEth s b i f).tbs = s.tbs := (rfl)
@[simp] theorem State.modEth_sel (s : State) (b : BayNo) (i : Fin 8) (f : EthPort → EthPort) : (State.modEth s b i f).sel = s.sel := (rfl)
@[simp] theorem State.modEth_keeper (s : State) (b : BayNo) (i : Fin 8) (f : EthPort → EthPort) : (State.modEth s b i f).keeper = s.keeper := (rfl)
@[simp] theorem State.modEth_pwr (s : State) (b : BayNo) (i : Fin 8) (f : EthPort → EthPort) : (State.modEth s b i f).pwr = s.pwr := (rfl)
@[simp] theorem State.modEth_faults (s : State) (b : BayNo) (i : Fin 8) (f : EthPort → EthPort) : (State.modEth s b i f).faults = s.faults := (rfl)
@[simp] theorem State.modEth_trg (s : State) (b : BayNo) (i : Fin 8) (f : EthPort → EthPort) : (State.modEth s b i f).trg = s.trg := (rfl)
@[simp] theorem State.modEth_ident (s : State) (b : BayNo) (i : Fin 8) (f : EthPort → EthPort) : (State.modEth s b i f).ident = s.ident := (rfl)
@[simp] theorem State.modEth_eth (s : State) (b : BayNo) (i : Fin 8) (f : EthPort → EthPort) : (State.modEth s b i f).eth = s.eth := (rfl)
@[simp] theorem State.modEth_lnl (s : State) (b : BayNo) (i : Fin 8) (f : EthPort → EthPort) : (State.modEth s b i f).lnl = s.lnl := (rfl)
@[simp] theorem State.modEth_inj (s : State) (b : BayNo) (i : Fin 8) (f : EthPort → EthPort) : (State.modEth s b i f).inj = s.inj := (rfl)
@[simp] theorem State.modEth_clrPin (s : State) (b : BayNo) (i : Fin 8) (f : EthPort → EthPort) : (State.modEth s b i f).clrPin = s.clrPin := (rfl)
@[simp] theorem State.modEth_rstLow (s : State) (b : BayNo) (i : Fin 8) (f : EthPort → EthPort) : (State.modEth s b i f).rstLow = s.rstLow := (rfl)
@[simp] theorem State.modEth_fresh (s : State) (b : BayNo) (i : Fin 8) (f : EthPort → EthPort) : (State.modEth s b i f).fresh = s.fresh := (rfl)
@[simp] theorem State.modEth_outbox (s : State) (b : BayNo) (i : Fin 8) (f : EthPort → EthPort) : (State.modEth s b i f).outbox = s.outbox := (rfl)
@[simp] theorem State.modEth_pending (s : State) (b : BayNo) (i : Fin 8) (f : EthPort → EthPort) : (State.modEth s b i f).pending = s.pending := (rfl)
@[simp] theorem State.modEth_fld (s : State) (b : BayNo) (i : Fin 8) (f : EthPort → EthPort) (g : Field) (cc : BayNo) (j1 k1 : Nat) : (State.modEth s b i f).fld g cc j1 k1 = s.fld g cc j1 k1 := (rfl)
@[simp] theorem State.modEth_fldN (s : State) (b : BayNo) (i : Fin 8) (f : EthPort → EthPort) (g : Field) (cc : BayNo) (j1 k1 : Nat) : (State.modEth s b i f).fldN g cc j1 k1 = s.fldN g cc j1 k1 := (rfl)
@[simp] theorem State.modEth_fldB (s : State) (b : BayNo) (i : Fin 8) (f : EthPort → EthPort) (g : Field) (cc : BayNo) (j1 : Nat) : (State.modEth s b i f).fldB g cc j1 = s.fldB g cc j1 := (rfl)
@[simp] theorem State.modEth_pkgN (s : State) (b : BayNo) (i : Fin 8) (f : EthPort → EthPort) (g : Field) (j1 : Nat) : (State.modEth s b i f).pkgN g j1 = s.pkgN g j1 := (rfl)
@[simp] theorem State.modEth_bay_lost (s : State) (b : BayNo) (i : Fin 8) (f : EthPort → EthPort) (cc : BayNo) : ((State.modEth s b i f).bay cc).lost = (s.bay cc).lost :=
  State.bay_modBay_same (·.lost) s b cc _ fun _ => rfl
@[simp] theorem State.modEth_bay_clk (s : State) (b : BayNo) (i : Fin 8) (f : EthPort → EthPort) (cc : BayNo) : ((State.modEth s b i f).bay cc).clk = (s.bay cc).clk :=
  State.bay_modBay_same (·.clk) s b cc _ fun _ => rfl
@[simp] theorem State.modEth_bay_tbs (s : State) (b : BayNo) (i : Fin 8) (f : EthPort → EthPort) (cc : BayNo) : ((State.modEth s b i f).bay cc).tbs = (s.bay cc).tbs :=
  State.bay_modBay_same (·.tbs) s b cc _ fun _ => rfl
@[simp] theorem State.modEth_bay_que (s : State) (b : BayNo) (i : Fin 8) (f : EthPort → EthPort) (cc : BayNo) : ((State.modEth s b i f).bay cc).que = (s.bay cc).que :=
  State.bay_modBay_same (·.que) s b cc _ fun _ => rfl
@[simp] theorem State.modEth_bay_dma (s : State) (b : BayNo) (i : Fin 8) (f : EthPort → EthPort) (cc : BayNo) : ((State.modEth s b i f).bay cc).dma = (s.bay cc).dma :=
  State.bay_modBay_same (·.dma) s b cc _ fun _ => rfl
@[simp] theorem State.modEth_bay_pwr (s : State) (b : BayNo) (i : Fin 8) (f : EthPort → EthPort) (cc : BayNo) : ((State.modEth s b i f).bay cc).pwr = (s.bay cc).pwr :=
  State.bay_modBay_same (·.pwr) s b cc _ fun _ => rfl
@[simp] theorem State.modEth_bay_trg (s : State) (b : BayNo) (i : Fin 8) (f : EthPort → EthPort) (cc : BayNo) : ((State.modEth s b i f).bay cc).trg = (s.bay cc).trg :=
  State.bay_modBay_same (·.trg) s b cc _ fun _ => rfl
@[simp] theorem State.modEth_bay_afe (s : State) (b : BayNo) (i : Fin 8) (f : EthPort → EthPort) (cc : BayNo) : ((State.modEth s b i f).bay cc).afe = (s.bay cc).afe :=
  State.bay_modBay_same (·.afe) s b cc _ fun _ => rfl
@[simp] theorem State.modEth_bay_adc (s : State) (b : BayNo) (i : Fin 8) (f : EthPort → EthPort) (cc : BayNo) : ((State.modEth s b i f).bay cc).adc = (s.bay cc).adc :=
  State.bay_modBay_same (·.adc) s b cc _ fun _ => rfl
@[simp] theorem State.modEth_bay_ddc (s : State) (b : BayNo) (i : Fin 8) (f : EthPort → EthPort) (cc : BayNo) : ((State.modEth s b i f).bay cc).ddc = (s.bay cc).ddc :=
  State.bay_modBay_same (·.ddc) s b cc _ fun _ => rfl
@[simp] theorem State.modEth_bay_xfm (s : State) (b : BayNo) (i : Fin 8) (f : EthPort → EthPort) (cc : BayNo) : ((State.modEth s b i f).bay cc).xfm = (s.bay cc).xfm :=
  State.bay_modBay_same (·.xfm) s b cc _ fun _ => rfl
@[simp] theorem State.modEth_bay_den (s : State) (b : BayNo) (i : Fin 8) (f : EthPort → EthPort) (cc : BayNo) : ((State.modEth s b i f).bay cc).den = (s.bay cc).den :=
  State.bay_modBay_same (·.den) s b cc _ fun _ => rfl
@[simp] theorem State.modEth_bay_mco (s : State) (b : BayNo) (i : Fin 8) (f : EthPort → EthPort) (cc : BayNo) : ((State.modEth s b i f).bay cc).mco = (s.bay cc).mco :=
  State.bay_modBay_same (·.mco) s b cc _ fun _ => rfl
@[simp] theorem State.modEth_bay_scn (s : State) (b : BayNo) (i : Fin 8) (f : EthPort → EthPort) (cc : BayNo) : ((State.modEth s b i f).bay cc).scn = (s.bay cc).scn :=
  State.bay_modBay_same (·.scn) s b cc _ fun _ => rfl
@[simp] theorem State.modEth_bay_recorder (s : State) (b : BayNo) (i : Fin 8) (f : EthPort → EthPort) (cc : BayNo) : ((State.modEth s b i f).bay cc).recorder = (s.bay cc).recorder :=
  State.bay_modBay_same (·.recorder) s b cc _ fun _ => rfl
@[simp] theorem State.modEth_bay_lne (s : State) (b : BayNo) (i : Fin 8) (f : EthPort → EthPort) (cc : BayNo) : ((State.modEth s b i f).bay cc).lne = (s.bay cc).lne :=
  State.bay_modBay_same (·.lne) s b cc _ fun _ => rfl
@[simp] theorem State.modEth_bay_pci (s : State) (b : BayNo) (i : Fin 8) (f : EthPort → EthPort) (cc : BayNo) : ((State.modEth s b i f).bay cc).pci = (s.bay cc).pci :=
  State.bay_modBay_same (·.pci) s b cc _ fun _ => rfl
@[simp] theorem State.modEth_bay_jes (s : State) (b : BayNo) (i : Fin 8) (f : EthPort → EthPort) (cc : BayNo) : ((State.modEth s b i f).bay cc).jes = (s.bay cc).jes :=
  State.bay_modBay_same (·.jes) s b cc _ fun _ => rfl
@[simp] theorem State.modEth_bay_lnl (s : State) (b : BayNo) (i : Fin 8) (f : EthPort → EthPort) (cc : BayNo) : ((State.modEth s b i f).bay cc).lnl = (s.bay cc).lnl :=
  State.bay_modBay_same (·.lnl) s b cc _ fun _ => rfl
@[simp] theorem State.modEth_bay_cal (s : State) (b : BayNo) (i : Fin 8) (f : EthPort → EthPort) (cc : BayNo) : ((State.modEth s b i f).bay cc).cal = (s.bay cc).cal :=
  State.bay_modBay_same (·.cal) s b cc _ fun _ => rfl
@[simp] theorem State.modEth_bay_hkc (s : State) (b : BayNo) (i : Fin 8) (f : EthPort → EthPort) (cc : BayNo) : ((State.modEth s b i f).bay cc).hkc = (s.bay cc).hkc :=
  State.bay_modBay_same (·.hkc) s b cc _ fun _ => rfl
@[simp] theorem State.modEth_bay_aux (s : State) (b : BayNo) (i : Fin 8) (f : EthPort → EthPort) (cc : BayNo) : ((State.modEth s b i f).bay cc).aux = (s.bay cc).aux :=
  State.bay_modBay_same (·.aux) s b cc _ fun _ => rfl
@[simp] theorem State.modEth_bay_mon (s : State) (b : BayNo) (i : Fin 8) (f : EthPort → EthPort) (cc : BayNo) : ((State.modEth s b i f).bay cc).mon = (s.bay cc).mon :=
  State.bay_modBay_same (·.mon) s b cc _ fun _ => rfl
@[simp] theorem State.modEth_bay_jtag (s : State) (b : BayNo) (i : Fin 8) (f : EthPort → EthPort) (cc : BayNo) : ((State.modEth s b i f).bay cc).jtag = (s.bay cc).jtag :=
  State.bay_modBay_same (·.jtag) s b cc _ fun _ => rfl
@[simp] theorem State.modEth_nowAt (s : State) (b : BayNo) (i : Fin 8) (f : EthPort → EthPort) (cc : BayNo) : (State.modEth s b i f).nowAt cc = s.nowAt cc :=
  congrArg (fun t : TbsBay => Tide.stamp t.tide) (State.modEth_bay_tbs s b i f cc)
@[simp] theorem State.modEth_now (s : State) (b : BayNo) (i : Fin 8) (f : EthPort → EthPort) : (State.modEth s b i f).now = s.now := State.modEth_nowAt s b i f 0
@[simp] theorem State.modEth_alive (s : State) (b : BayNo) (i : Fin 8) (f : EthPort → EthPort) (cc : BayNo) : (State.modEth s b i f).alive cc = s.alive cc :=
  State.alive_congr cc rfl rfl (State.modEth_bay_lost s b i f cc)
@[simp] theorem State.modEth_liveBays (s : State) (b : BayNo) (i : Fin 8) (f : EthPort → EthPort) : (State.modEth s b i f).liveBays = s.liveBays :=
  State.liveBays_congr (State.modEth_alive s b i f)
@[simp] theorem State.modEth_bay_eth_self (s : State) (b : BayNo) (i : Fin 8) (f : EthPort → EthPort) : ((State.modEth s b i f).bay b).eth = (s.bay b).eth.set i (f (s.bay b).eth[i]) :=
  congrArg (fun y : Bay => y.eth) (State.bay_modBay s b _)
theorem State.modEth_bay_eth_ne (s : State) (b : BayNo) (i : Fin 8) (f : EthPort → EthPort) {cc : BayNo} (h : cc ≠ b) : ((State.modEth s b i f).bay cc).eth = (s.bay cc).eth :=
  congrArg (fun y : Bay => y.eth) (State.bay_modBay_ne s _ h)

@[simp] theorem State.modJes_part (s : State) (b : BayNo) (x : Fin 2) (f : Jes → Jes) : (State.modJes s b x f).part = s.part := (rfl)
@[simp] theorem State.modJes_vals (s : State) (b : BayNo) (x : Fin 2) (f : Jes → Jes) : (State.modJes s b x f).vals = s.vals := (rfl)
@[simp] theorem State.modJes_img (s : State) (b : BayNo) (x : Fin 2) (f : Jes → Jes) : (State.modJes s b x f).img = s.img := (rfl)
@[simp] theorem State.modJes_flash (s : State) (b : BayNo) (x : Fin 2) (f : Jes → Jes) : (State.modJes s b x f).flash = s.flash := (rfl)
@[simp] theorem State.modJes_tbs (s : State) (b : BayNo) (x : Fin 2) (f : Jes → Jes) : (State.modJes s b x f).tbs = s.tbs := (rfl)
@[simp] theorem State.modJes_sel (s : State) (b : BayNo) (x : Fin 2) (f : Jes → Jes) : (State.modJes s b x f).sel = s.sel := (rfl)
@[simp] theorem State.modJes_keeper (s : State) (b : BayNo) (x : Fin 2) (f : Jes → Jes) : (State.modJes s b x f).keeper = s.keeper := (rfl)
@[simp] theorem State.modJes_pwr (s : State) (b : BayNo) (x : Fin 2) (f : Jes → Jes) : (State.modJes s b x f).pwr = s.pwr := (rfl)
@[simp] theorem State.modJes_faults (s : State) (b : BayNo) (x : Fin 2) (f : Jes → Jes) : (State.modJes s b x f).faults = s.faults := (rfl)
@[simp] theorem State.modJes_trg (s : State) (b : BayNo) (x : Fin 2) (f : Jes → Jes) : (State.modJes s b x f).trg = s.trg := (rfl)
@[simp] theorem State.modJes_ident (s : State) (b : BayNo) (x : Fin 2) (f : Jes → Jes) : (State.modJes s b x f).ident = s.ident := (rfl)
@[simp] theorem State.modJes_eth (s : State) (b : BayNo) (x : Fin 2) (f : Jes → Jes) : (State.modJes s b x f).eth = s.eth := (rfl)
@[simp] theorem State.modJes_lnl (s : State) (b : BayNo) (x : Fin 2) (f : Jes → Jes) : (State.modJes s b x f).lnl = s.lnl := (rfl)
@[simp] theorem State.modJes_inj (s : State) (b : BayNo) (x : Fin 2) (f : Jes → Jes) : (State.modJes s b x f).inj = s.inj := (rfl)
@[simp] theorem State.modJes_clrPin (s : State) (b : BayNo) (x : Fin 2) (f : Jes → Jes) : (State.modJes s b x f).clrPin = s.clrPin := (rfl)
@[simp] theorem State.modJes_rstLow (s : State) (b : BayNo) (x : Fin 2) (f : Jes → Jes) : (State.modJes s b x f).rstLow = s.rstLow := (rfl)
@[simp] theorem State.modJes_fresh (s : State) (b : BayNo) (x : Fin 2) (f : Jes → Jes) : (State.modJes s b x f).fresh = s.fresh := (rfl)
@[simp] theorem State.modJes_outbox (s : State) (b : BayNo) (x : Fin 2) (f : Jes → Jes) : (State.modJes s b x f).outbox = s.outbox := (rfl)
@[simp] theorem State.modJes_pending (s : State) (b : BayNo) (x : Fin 2) (f : Jes → Jes) : (State.modJes s b x f).pending = s.pending := (rfl)
@[simp] theorem State.modJes_fld (s : State) (b : BayNo) (x : Fin 2) (f : Jes → Jes) (g : Field) (cc : BayNo) (j1 k1 : Nat) : (State.modJes s b x f).fld g cc j1 k1 = s.fld g cc j1 k1 := (rfl)
@[simp] theorem State.modJes_fldN (s : State) (b : BayNo) (x : Fin 2) (f : Jes → Jes) (g : Field) (cc : BayNo) (j1 k1 : Nat) : (State.modJes s b x f).fldN g cc j1 k1 = s.fldN g cc j1 k1 := (rfl)
@[simp] theorem State.modJes_fldB (s : State) (b : BayNo) (x : Fin 2) (f : Jes → Jes) (g : Field) (cc : BayNo) (j1 : Nat) : (State.modJes s b x f).fldB g cc j1 = s.fldB g cc j1 := (rfl)
@[simp] theorem State.modJes_pkgN (s : State) (b : BayNo) (x : Fin 2) (f : Jes → Jes) (g : Field) (j1 : Nat) : (State.modJes s b x f).pkgN g j1 = s.pkgN g j1 := (rfl)
@[simp] theorem State.modJes_bay_lost (s : State) (b : BayNo) (x : Fin 2) (f : Jes → Jes) (cc : BayNo) : ((State.modJes s b x f).bay cc).lost = (s.bay cc).lost :=
  State.bay_modBay_same (·.lost) s b cc _ fun _ => rfl
@[simp] theorem State.modJes_bay_clk (s : State) (b : BayNo) (x : Fin 2) (f : Jes → Jes) (cc : BayNo) : ((State.modJes s b x f).bay cc).clk = (s.bay cc).clk :=
  State.bay_modBay_same (·.clk) s b cc _ fun _ => rfl
@[simp] theorem State.modJes_bay_tbs (s : State) (b : BayNo) (x : Fin 2) (f : Jes → Jes) (cc : BayNo) : ((State.modJes s b x f).bay cc).tbs = (s.bay cc).tbs :=
  State.bay_modBay_same (·.tbs) s b cc _ fun _ => rfl
@[simp] theorem State.modJes_bay_que (s : State) (b : BayNo) (x : Fin 2) (f : Jes → Jes) (cc : BayNo) : ((State.modJes s b x f).bay cc).que = (s.bay cc).que :=
  State.bay_modBay_same (·.que) s b cc _ fun _ => rfl
@[simp] theorem State.modJes_bay_dma (s : State) (b : BayNo) (x : Fin 2) (f : Jes → Jes) (cc : BayNo) : ((State.modJes s b x f).bay cc).dma = (s.bay cc).dma :=
  State.bay_modBay_same (·.dma) s b cc _ fun _ => rfl
@[simp] theorem State.modJes_bay_pwr (s : State) (b : BayNo) (x : Fin 2) (f : Jes → Jes) (cc : BayNo) : ((State.modJes s b x f).bay cc).pwr = (s.bay cc).pwr :=
  State.bay_modBay_same (·.pwr) s b cc _ fun _ => rfl
@[simp] theorem State.modJes_bay_trg (s : State) (b : BayNo) (x : Fin 2) (f : Jes → Jes) (cc : BayNo) : ((State.modJes s b x f).bay cc).trg = (s.bay cc).trg :=
  State.bay_modBay_same (·.trg) s b cc _ fun _ => rfl
@[simp] theorem State.modJes_bay_afe (s : State) (b : BayNo) (x : Fin 2) (f : Jes → Jes) (cc : BayNo) : ((State.modJes s b x f).bay cc).afe = (s.bay cc).afe :=
  State.bay_modBay_same (·.afe) s b cc _ fun _ => rfl
@[simp] theorem State.modJes_bay_adc (s : State) (b : BayNo) (x : Fin 2) (f : Jes → Jes) (cc : BayNo) : ((State.modJes s b x f).bay cc).adc = (s.bay cc).adc :=
  State.bay_modBay_same (·.adc) s b cc _ fun _ => rfl
@[simp] theorem State.modJes_bay_ddc (s : State) (b : BayNo) (x : Fin 2) (f : Jes → Jes) (cc : BayNo) : ((State.modJes s b x f).bay cc).ddc = (s.bay cc).ddc :=
  State.bay_modBay_same (·.ddc) s b cc _ fun _ => rfl
@[simp] theorem State.modJes_bay_xfm (s : State) (b : BayNo) (x : Fin 2) (f : Jes → Jes) (cc : BayNo) : ((State.modJes s b x f).bay cc).xfm = (s.bay cc).xfm :=
  State.bay_modBay_same (·.xfm) s b cc _ fun _ => rfl
@[simp] theorem State.modJes_bay_den (s : State) (b : BayNo) (x : Fin 2) (f : Jes → Jes) (cc : BayNo) : ((State.modJes s b x f).bay cc).den = (s.bay cc).den :=
  State.bay_modBay_same (·.den) s b cc _ fun _ => rfl
@[simp] theorem State.modJes_bay_mco (s : State) (b : BayNo) (x : Fin 2) (f : Jes → Jes) (cc : BayNo) : ((State.modJes s b x f).bay cc).mco = (s.bay cc).mco :=
  State.bay_modBay_same (·.mco) s b cc _ fun _ => rfl
@[simp] theorem State.modJes_bay_scn (s : State) (b : BayNo) (x : Fin 2) (f : Jes → Jes) (cc : BayNo) : ((State.modJes s b x f).bay cc).scn = (s.bay cc).scn :=
  State.bay_modBay_same (·.scn) s b cc _ fun _ => rfl
@[simp] theorem State.modJes_bay_recorder (s : State) (b : BayNo) (x : Fin 2) (f : Jes → Jes) (cc : BayNo) : ((State.modJes s b x f).bay cc).recorder = (s.bay cc).recorder :=
  State.bay_modBay_same (·.recorder) s b cc _ fun _ => rfl
@[simp] theorem State.modJes_bay_lne (s : State) (b : BayNo) (x : Fin 2) (f : Jes → Jes) (cc : BayNo) : ((State.modJes s b x f).bay cc).lne = (s.bay cc).lne :=
  State.bay_modBay_same (·.lne) s b cc _ fun _ => rfl
@[simp] theorem State.modJes_bay_pci (s : State) (b : BayNo) (x : Fin 2) (f : Jes → Jes) (cc : BayNo) : ((State.modJes s b x f).bay cc).pci = (s.bay cc).pci :=
  State.bay_modBay_same (·.pci) s b cc _ fun _ => rfl
@[simp] theorem State.modJes_bay_eth (s : State) (b : BayNo) (x : Fin 2) (f : Jes → Jes) (cc : BayNo) : ((State.modJes s b x f).bay cc).eth = (s.bay cc).eth :=
  State.bay_modBay_same (·.eth) s b cc _ fun _ => rfl
@[simp] theorem State.modJes_bay_lnl (s : State) (b : BayNo) (x : Fin 2) (f : Jes → Jes) (cc : BayNo) : ((State.modJes s b x f).bay cc).lnl = (s.bay cc).lnl :=
  State.bay_modBay_same (·.lnl) s b cc _ fun _ => rfl
@[simp] theorem State.modJes_bay_cal (s : State) (b : BayNo) (x : Fin 2) (f : Jes → Jes) (cc : BayNo) : ((State.modJes s b x f).bay cc).cal = (s.bay cc).cal :=
  State.bay_modBay_same (·.cal) s b cc _ fun _ => rfl
@[simp] theorem State.modJes_bay_hkc (s : State) (b : BayNo) (x : Fin 2) (f : Jes → Jes) (cc : BayNo) : ((State.modJes s b x f).bay cc).hkc = (s.bay cc).hkc :=
  State.bay_modBay_same (·.hkc) s b cc _ fun _ => rfl
@[simp] theorem State.modJes_bay_aux (s : State) (b : BayNo) (x : Fin 2) (f : Jes → Jes) (cc : BayNo) : ((State.modJes s b x f).bay cc).aux = (s.bay cc).aux :=
  State.bay_modBay_same (·.aux) s b cc _ fun _ => rfl
@[simp] theorem State.modJes_bay_mon (s : State) (b : BayNo) (x : Fin 2) (f : Jes → Jes) (cc : BayNo) : ((State.modJes s b x f).bay cc).mon = (s.bay cc).mon :=
  State.bay_modBay_same (·.mon) s b cc _ fun _ => rfl
@[simp] theorem State.modJes_bay_jtag (s : State) (b : BayNo) (x : Fin 2) (f : Jes → Jes) (cc : BayNo) : ((State.modJes s b x f).bay cc).jtag = (s.bay cc).jtag :=
  State.bay_modBay_same (·.jtag) s b cc _ fun _ => rfl
@[simp] theorem State.modJes_nowAt (s : State) (b : BayNo) (x : Fin 2) (f : Jes → Jes) (cc : BayNo) : (State.modJes s b x f).nowAt cc = s.nowAt cc :=
  congrArg (fun t : TbsBay => Tide.stamp t.tide) (State.modJes_bay_tbs s b x f cc)
@[simp] theorem State.modJes_now (s : State) (b : BayNo) (x : Fin 2) (f : Jes → Jes) : (State.modJes s b x f).now = s.now := State.modJes_nowAt s b x f 0
@[simp] theorem State.modJes_alive (s : State) (b : BayNo) (x : Fin 2) (f : Jes → Jes) (cc : BayNo) : (State.modJes s b x f).alive cc = s.alive cc :=
  State.alive_congr cc rfl rfl (State.modJes_bay_lost s b x f cc)
@[simp] theorem State.modJes_liveBays (s : State) (b : BayNo) (x : Fin 2) (f : Jes → Jes) : (State.modJes s b x f).liveBays = s.liveBays :=
  State.liveBays_congr (State.modJes_alive s b x f)
@[simp] theorem State.modJes_bay_jes_self (s : State) (b : BayNo) (x : Fin 2) (f : Jes → Jes) : ((State.modJes s b x f).bay b).jes = (s.bay b).jes.set x (f (s.bay b).jes[x]) :=
  congrArg (fun y : Bay => y.jes) (State.bay_modBay s b _)
theorem State.modJes_bay_jes_ne (s : State) (b : BayNo) (x : Fin 2) (f : Jes → Jes) {cc : BayNo} (h : cc ≠ b) : ((State.modJes s b x f).bay cc).jes = (s.bay cc).jes :=
  congrArg (fun y : Bay => y.jes) (State.bay_modBay_ne s _ h)

@[simp] theorem State.modPort_part (s : State) (b : BayNo) (p : Port) (f : DdcPort → DdcPort) : (State.modPort s b p f).part = s.part := (rfl)
@[simp] theorem State.modPort_vals (s : State) (b : BayNo) (p : Port) (f : DdcPort → DdcPort) : (State.modPort s b p f).vals = s.vals := (rfl)
@[simp] theorem State.modPort_img (s : State) (b : BayNo) (p : Port) (f : DdcPort → DdcPort) : (State.modPort s b p f).img = s.img := (rfl)
@[simp] theorem State.modPort_flash (s : State) (b : BayNo) (p : Port) (f : DdcPort → DdcPort) : (State.modPort s b p f).flash = s.flash := (rfl)
@[simp] theorem State.modPort_tbs (s : State) (b : BayNo) (p : Port) (f : DdcPort → DdcPort) : (State.modPort s b p f).tbs = s.tbs := (rfl)
@[simp] theorem State.modPort_sel (s : State) (b : BayNo) (p : Port) (f : DdcPort → DdcPort) : (State.modPort s b p f).sel = s.sel := (rfl)
@[simp] theorem State.modPort_keeper (s : State) (b : BayNo) (p : Port) (f : DdcPort → DdcPort) : (State.modPort s b p f).keeper = s.keeper := (rfl)
@[simp] theorem State.modPort_pwr (s : State) (b : BayNo) (p : Port) (f : DdcPort → DdcPort) : (State.modPort s b p f).pwr = s.pwr := (rfl)
@[simp] theorem State.modPort_faults (s : State) (b : BayNo) (p : Port) (f : DdcPort → DdcPort) : (State.modPort s b p f).faults = s.faults := (rfl)
@[simp] theorem State.modPort_trg (s : State) (b : BayNo) (p : Port) (f : DdcPort → DdcPort) : (State.modPort s b p f).trg = s.trg := (rfl)
@[simp] theorem State.modPort_ident (s : State) (b : BayNo) (p : Port) (f : DdcPort → DdcPort) : (State.modPort s b p f).ident = s.ident := (rfl)
@[simp] theorem State.modPort_eth (s : State) (b : BayNo) (p : Port) (f : DdcPort → DdcPort) : (State.modPort s b p f).eth = s.eth := (rfl)
@[simp] theorem State.modPort_lnl (s : State) (b : BayNo) (p : Port) (f : DdcPort → DdcPort) : (State.modPort s b p f).lnl = s.lnl := (rfl)
@[simp] theorem State.modPort_inj (s : State) (b : BayNo) (p : Port) (f : DdcPort → DdcPort) : (State.modPort s b p f).inj = s.inj := (rfl)
@[simp] theorem State.modPort_clrPin (s : State) (b : BayNo) (p : Port) (f : DdcPort → DdcPort) : (State.modPort s b p f).clrPin = s.clrPin := (rfl)
@[simp] theorem State.modPort_rstLow (s : State) (b : BayNo) (p : Port) (f : DdcPort → DdcPort) : (State.modPort s b p f).rstLow = s.rstLow := (rfl)
@[simp] theorem State.modPort_fresh (s : State) (b : BayNo) (p : Port) (f : DdcPort → DdcPort) : (State.modPort s b p f).fresh = s.fresh := (rfl)
@[simp] theorem State.modPort_outbox (s : State) (b : BayNo) (p : Port) (f : DdcPort → DdcPort) : (State.modPort s b p f).outbox = s.outbox := (rfl)
@[simp] theorem State.modPort_pending (s : State) (b : BayNo) (p : Port) (f : DdcPort → DdcPort) : (State.modPort s b p f).pending = s.pending := (rfl)
@[simp] theorem State.modPort_fld (s : State) (b : BayNo) (p : Port) (f : DdcPort → DdcPort) (g : Field) (cc : BayNo) (j1 k1 : Nat) : (State.modPort s b p f).fld g cc j1 k1 = s.fld g cc j1 k1 := (rfl)
@[simp] theorem State.modPort_fldN (s : State) (b : BayNo) (p : Port) (f : DdcPort → DdcPort) (g : Field) (cc : BayNo) (j1 k1 : Nat) : (State.modPort s b p f).fldN g cc j1 k1 = s.fldN g cc j1 k1 := (rfl)
@[simp] theorem State.modPort_fldB (s : State) (b : BayNo) (p : Port) (f : DdcPort → DdcPort) (g : Field) (cc : BayNo) (j1 : Nat) : (State.modPort s b p f).fldB g cc j1 = s.fldB g cc j1 := (rfl)
@[simp] theorem State.modPort_pkgN (s : State) (b : BayNo) (p : Port) (f : DdcPort → DdcPort) (g : Field) (j1 : Nat) : (State.modPort s b p f).pkgN g j1 = s.pkgN g j1 := (rfl)
@[simp] theorem State.modPort_bay_lost (s : State) (b : BayNo) (p : Port) (f : DdcPort → DdcPort) (cc : BayNo) : ((State.modPort s b p f).bay cc).lost = (s.bay cc).lost :=
  State.bay_modBay_same (·.lost) s b cc _ fun _ => rfl
@[simp] theorem State.modPort_bay_clk (s : State) (b : BayNo) (p : Port) (f : DdcPort → DdcPort) (cc : BayNo) : ((State.modPort s b p f).bay cc).clk = (s.bay cc).clk :=
  State.bay_modBay_same (·.clk) s b cc _ fun _ => rfl
@[simp] theorem State.modPort_bay_tbs (s : State) (b : BayNo) (p : Port) (f : DdcPort → DdcPort) (cc : BayNo) : ((State.modPort s b p f).bay cc).tbs = (s.bay cc).tbs :=
  State.bay_modBay_same (·.tbs) s b cc _ fun _ => rfl
@[simp] theorem State.modPort_bay_que (s : State) (b : BayNo) (p : Port) (f : DdcPort → DdcPort) (cc : BayNo) : ((State.modPort s b p f).bay cc).que = (s.bay cc).que :=
  State.bay_modBay_same (·.que) s b cc _ fun _ => rfl
@[simp] theorem State.modPort_bay_dma (s : State) (b : BayNo) (p : Port) (f : DdcPort → DdcPort) (cc : BayNo) : ((State.modPort s b p f).bay cc).dma = (s.bay cc).dma :=
  State.bay_modBay_same (·.dma) s b cc _ fun _ => rfl
@[simp] theorem State.modPort_bay_pwr (s : State) (b : BayNo) (p : Port) (f : DdcPort → DdcPort) (cc : BayNo) : ((State.modPort s b p f).bay cc).pwr = (s.bay cc).pwr :=
  State.bay_modBay_same (·.pwr) s b cc _ fun _ => rfl
@[simp] theorem State.modPort_bay_trg (s : State) (b : BayNo) (p : Port) (f : DdcPort → DdcPort) (cc : BayNo) : ((State.modPort s b p f).bay cc).trg = (s.bay cc).trg :=
  State.bay_modBay_same (·.trg) s b cc _ fun _ => rfl
@[simp] theorem State.modPort_bay_afe (s : State) (b : BayNo) (p : Port) (f : DdcPort → DdcPort) (cc : BayNo) : ((State.modPort s b p f).bay cc).afe = (s.bay cc).afe :=
  State.bay_modBay_same (·.afe) s b cc _ fun _ => rfl
@[simp] theorem State.modPort_bay_adc (s : State) (b : BayNo) (p : Port) (f : DdcPort → DdcPort) (cc : BayNo) : ((State.modPort s b p f).bay cc).adc = (s.bay cc).adc :=
  State.bay_modBay_same (·.adc) s b cc _ fun _ => rfl
@[simp] theorem State.modPort_bay_xfm (s : State) (b : BayNo) (p : Port) (f : DdcPort → DdcPort) (cc : BayNo) : ((State.modPort s b p f).bay cc).xfm = (s.bay cc).xfm :=
  State.bay_modBay_same (·.xfm) s b cc _ fun _ => rfl
@[simp] theorem State.modPort_bay_den (s : State) (b : BayNo) (p : Port) (f : DdcPort → DdcPort) (cc : BayNo) : ((State.modPort s b p f).bay cc).den = (s.bay cc).den :=
  State.bay_modBay_same (·.den) s b cc _ fun _ => rfl
@[simp] theorem State.modPort_bay_mco (s : State) (b : BayNo) (p : Port) (f : DdcPort → DdcPort) (cc : BayNo) : ((State.modPort s b p f).bay cc).mco = (s.bay cc).mco :=
  State.bay_modBay_same (·.mco) s b cc _ fun _ => rfl
@[simp] theorem State.modPort_bay_scn (s : State) (b : BayNo) (p : Port) (f : DdcPort → DdcPort) (cc : BayNo) : ((State.modPort s b p f).bay cc).scn = (s.bay cc).scn :=
  State.bay_modBay_same (·.scn) s b cc _ fun _ => rfl
@[simp] theorem State.modPort_bay_recorder (s : State) (b : BayNo) (p : Port) (f : DdcPort → DdcPort) (cc : BayNo) : ((State.modPort s b p f).bay cc).recorder = (s.bay cc).recorder :=
  State.bay_modBay_same (·.recorder) s b cc _ fun _ => rfl
@[simp] theorem State.modPort_bay_lne (s : State) (b : BayNo) (p : Port) (f : DdcPort → DdcPort) (cc : BayNo) : ((State.modPort s b p f).bay cc).lne = (s.bay cc).lne :=
  State.bay_modBay_same (·.lne) s b cc _ fun _ => rfl
@[simp] theorem State.modPort_bay_pci (s : State) (b : BayNo) (p : Port) (f : DdcPort → DdcPort) (cc : BayNo) : ((State.modPort s b p f).bay cc).pci = (s.bay cc).pci :=
  State.bay_modBay_same (·.pci) s b cc _ fun _ => rfl
@[simp] theorem State.modPort_bay_eth (s : State) (b : BayNo) (p : Port) (f : DdcPort → DdcPort) (cc : BayNo) : ((State.modPort s b p f).bay cc).eth = (s.bay cc).eth :=
  State.bay_modBay_same (·.eth) s b cc _ fun _ => rfl
@[simp] theorem State.modPort_bay_jes (s : State) (b : BayNo) (p : Port) (f : DdcPort → DdcPort) (cc : BayNo) : ((State.modPort s b p f).bay cc).jes = (s.bay cc).jes :=
  State.bay_modBay_same (·.jes) s b cc _ fun _ => rfl
@[simp] theorem State.modPort_bay_lnl (s : State) (b : BayNo) (p : Port) (f : DdcPort → DdcPort) (cc : BayNo) : ((State.modPort s b p f).bay cc).lnl = (s.bay cc).lnl :=
  State.bay_modBay_same (·.lnl) s b cc _ fun _ => rfl
@[simp] theorem State.modPort_bay_cal (s : State) (b : BayNo) (p : Port) (f : DdcPort → DdcPort) (cc : BayNo) : ((State.modPort s b p f).bay cc).cal = (s.bay cc).cal :=
  State.bay_modBay_same (·.cal) s b cc _ fun _ => rfl
@[simp] theorem State.modPort_bay_hkc (s : State) (b : BayNo) (p : Port) (f : DdcPort → DdcPort) (cc : BayNo) : ((State.modPort s b p f).bay cc).hkc = (s.bay cc).hkc :=
  State.bay_modBay_same (·.hkc) s b cc _ fun _ => rfl
@[simp] theorem State.modPort_bay_aux (s : State) (b : BayNo) (p : Port) (f : DdcPort → DdcPort) (cc : BayNo) : ((State.modPort s b p f).bay cc).aux = (s.bay cc).aux :=
  State.bay_modBay_same (·.aux) s b cc _ fun _ => rfl
@[simp] theorem State.modPort_bay_mon (s : State) (b : BayNo) (p : Port) (f : DdcPort → DdcPort) (cc : BayNo) : ((State.modPort s b p f).bay cc).mon = (s.bay cc).mon :=
  State.bay_modBay_same (·.mon) s b cc _ fun _ => rfl
@[simp] theorem State.modPort_bay_jtag (s : State) (b : BayNo) (p : Port) (f : DdcPort → DdcPort) (cc : BayNo) : ((State.modPort s b p f).bay cc).jtag = (s.bay cc).jtag :=
  State.bay_modBay_same (·.jtag) s b cc _ fun _ => rfl
@[simp] theorem State.modPort_nowAt (s : State) (b : BayNo) (p : Port) (f : DdcPort → DdcPort) (cc : BayNo) : (State.modPort s b p f).nowAt cc = s.nowAt cc :=
  congrArg (fun t : TbsBay => Tide.stamp t.tide) (State.modPort_bay_tbs s b p f cc)
@[simp] theorem State.modPort_now (s : State) (b : BayNo) (p : Port) (f : DdcPort → DdcPort) : (State.modPort s b p f).now = s.now := State.modPort_nowAt s b p f 0
@[simp] theorem State.modPort_alive (s : State) (b : BayNo) (p : Port) (f : DdcPort → DdcPort) (cc : BayNo) : (State.modPort s b p f).alive cc = s.alive cc :=
  State.alive_congr cc rfl rfl (State.modPort_bay_lost s b p f cc)
@[simp] theorem State.modPort_liveBays (s : State) (b : BayNo) (p : Port) (f : DdcPort → DdcPort) : (State.modPort s b p f).liveBays = s.liveBays :=
  State.liveBays_congr (State.modPort_alive s b p f)
@[simp] theorem State.modPort_bay_ddc_self (s : State) (b : BayNo) (p : Port) (f : DdcPort → DdcPort) : ((State.modPort s b p f).bay b).ddc = (s.bay b).ddc.set p (f (s.bay b).ddc[p]) :=
  congrArg (fun y : Bay => y.ddc) (State.bay_modBay s b _)
theorem State.modPort_bay_ddc_ne (s : State) (b : BayNo) (p : Port) (f : DdcPort → DdcPort) {cc : BayNo} (h : cc ≠ b) : ((State.modPort s b p f).bay cc).ddc = (s.bay cc).ddc :=
  congrArg (fun y : Bay => y.ddc) (State.bay_modBay_ne s _ h)

@[simp] theorem State.modChan_part (s : State) (b : BayNo) (x : Fin 2) (f : XfmChan → XfmChan) : (State.modChan s b x f).part = s.part := (rfl)
@[simp] theorem State.modChan_vals (s : State) (b : BayNo) (x : Fin 2) (f : XfmChan → XfmChan) : (State.modChan s b x f).vals = s.vals := (rfl)
@[simp] theorem State.modChan_img (s : State) (b : BayNo) (x : Fin 2) (f : XfmChan → XfmChan) : (State.modChan s b x f).img = s.img := (rfl)
@[simp] theorem State.modChan_flash (s : State) (b : BayNo) (x : Fin 2) (f : XfmChan → XfmChan) : (State.modChan s b x f).flash = s.flash := (rfl)
@[simp] theorem State.modChan_tbs (s : State) (b : BayNo) (x : Fin 2) (f : XfmChan → XfmChan) : (State.modChan s b x f).tbs = s.tbs := (rfl)
@[simp] theorem State.modChan_sel (s : State) (b : BayNo) (x : Fin 2) (f : XfmChan → XfmChan) : (State.modChan s b x f).sel = s.sel := (rfl)
@[simp] theorem State.modChan_keeper (s : State) (b : BayNo) (x : Fin 2) (f : XfmChan → XfmChan) : (State.modChan s b x f).keeper = s.keeper := (rfl)
@[simp] theorem State.modChan_pwr (s : State) (b : BayNo) (x : Fin 2) (f : XfmChan → XfmChan) : (State.modChan s b x f).pwr = s.pwr := (rfl)
@[simp] theorem State.modChan_faults (s : State) (b : BayNo) (x : Fin 2) (f : XfmChan → XfmChan) : (State.modChan s b x f).faults = s.faults := (rfl)
@[simp] theorem State.modChan_trg (s : State) (b : BayNo) (x : Fin 2) (f : XfmChan → XfmChan) : (State.modChan s b x f).trg = s.trg := (rfl)
@[simp] theorem State.modChan_ident (s : State) (b : BayNo) (x : Fin 2) (f : XfmChan → XfmChan) : (State.modChan s b x f).ident = s.ident := (rfl)
@[simp] theorem State.modChan_eth (s : State) (b : BayNo) (x : Fin 2) (f : XfmChan → XfmChan) : (State.modChan s b x f).eth = s.eth := (rfl)
@[simp] theorem State.modChan_lnl (s : State) (b : BayNo) (x : Fin 2) (f : XfmChan → XfmChan) : (State.modChan s b x f).lnl = s.lnl := (rfl)
@[simp] theorem State.modChan_inj (s : State) (b : BayNo) (x : Fin 2) (f : XfmChan → XfmChan) : (State.modChan s b x f).inj = s.inj := (rfl)
@[simp] theorem State.modChan_clrPin (s : State) (b : BayNo) (x : Fin 2) (f : XfmChan → XfmChan) : (State.modChan s b x f).clrPin = s.clrPin := (rfl)
@[simp] theorem State.modChan_rstLow (s : State) (b : BayNo) (x : Fin 2) (f : XfmChan → XfmChan) : (State.modChan s b x f).rstLow = s.rstLow := (rfl)
@[simp] theorem State.modChan_fresh (s : State) (b : BayNo) (x : Fin 2) (f : XfmChan → XfmChan) : (State.modChan s b x f).fresh = s.fresh := (rfl)
@[simp] theorem State.modChan_outbox (s : State) (b : BayNo) (x : Fin 2) (f : XfmChan → XfmChan) : (State.modChan s b x f).outbox = s.outbox := (rfl)
@[simp] theorem State.modChan_pending (s : State) (b : BayNo) (x : Fin 2) (f : XfmChan → XfmChan) : (State.modChan s b x f).pending = s.pending := (rfl)
@[simp] theorem State.modChan_fld (s : State) (b : BayNo) (x : Fin 2) (f : XfmChan → XfmChan) (g : Field) (cc : BayNo) (j1 k1 : Nat) : (State.modChan s b x f).fld g cc j1 k1 = s.fld g cc j1 k1 := (rfl)
@[simp] theorem State.modChan_fldN (s : State) (b : BayNo) (x : Fin 2) (f : XfmChan → XfmChan) (g : Field) (cc : BayNo) (j1 k1 : Nat) : (State.modChan s b x f).fldN g cc j1 k1 = s.fldN g cc j1 k1 := (rfl)
@[simp] theorem State.modChan_fldB (s : State) (b : BayNo) (x : Fin 2) (f : XfmChan → XfmChan) (g : Field) (cc : BayNo) (j1 : Nat) : (State.modChan s b x f).fldB g cc j1 = s.fldB g cc j1 := (rfl)
@[simp] theorem State.modChan_pkgN (s : State) (b : BayNo) (x : Fin 2) (f : XfmChan → XfmChan) (g : Field) (j1 : Nat) : (State.modChan s b x f).pkgN g j1 = s.pkgN g j1 := (rfl)
@[simp] theorem State.modChan_bay_lost (s : State) (b : BayNo) (x : Fin 2) (f : XfmChan → XfmChan) (cc : BayNo) : ((State.modChan s b x f).bay cc).lost = (s.bay cc).lost :=
  State.bay_modBay_same (·.lost) s b cc _ fun _ => rfl
@[simp] theorem State.modChan_bay_clk (s : State) (b : BayNo) (x : Fin 2) (f : XfmChan → XfmChan) (cc : BayNo) : ((State.modChan s b x f).bay cc).clk = (s.bay cc).clk :=
  State.bay_modBay_same (·.clk) s b cc _ fun _ => rfl
@[simp] theorem State.modChan_bay_tbs (s : State) (b : BayNo) (x : Fin 2) (f : XfmChan → XfmChan) (cc : BayNo) : ((State.modChan s b x f).bay cc).tbs = (s.bay cc).tbs :=
  State.bay_modBay_same (·.tbs) s b cc _ fun _ => rfl
@[simp] theorem State.modChan_bay_que (s : State) (b : BayNo) (x : Fin 2) (f : XfmChan → XfmChan) (cc : BayNo) : ((State.modChan s b x f).bay cc).que = (s.bay cc).que :=
  State.bay_modBay_same (·.que) s b cc _ fun _ => rfl
@[simp] theorem State.modChan_bay_dma (s : State) (b : BayNo) (x : Fin 2) (f : XfmChan → XfmChan) (cc : BayNo) : ((State.modChan s b x f).bay cc).dma = (s.bay cc).dma :=
  State.bay_modBay_same (·.dma) s b cc _ fun _ => rfl
@[simp] theorem State.modChan_bay_pwr (s : State) (b : BayNo) (x : Fin 2) (f : XfmChan → XfmChan) (cc : BayNo) : ((State.modChan s b x f).bay cc).pwr = (s.bay cc).pwr :=
  State.bay_modBay_same (·.pwr) s b cc _ fun _ => rfl
@[simp] theorem State.modChan_bay_trg (s : State) (b : BayNo) (x : Fin 2) (f : XfmChan → XfmChan) (cc : BayNo) : ((State.modChan s b x f).bay cc).trg = (s.bay cc).trg :=
  State.bay_modBay_same (·.trg) s b cc _ fun _ => rfl
@[simp] theorem State.modChan_bay_afe (s : State) (b : BayNo) (x : Fin 2) (f : XfmChan → XfmChan) (cc : BayNo) : ((State.modChan s b x f).bay cc).afe = (s.bay cc).afe :=
  State.bay_modBay_same (·.afe) s b cc _ fun _ => rfl
@[simp] theorem State.modChan_bay_adc (s : State) (b : BayNo) (x : Fin 2) (f : XfmChan → XfmChan) (cc : BayNo) : ((State.modChan s b x f).bay cc).adc = (s.bay cc).adc :=
  State.bay_modBay_same (·.adc) s b cc _ fun _ => rfl
@[simp] theorem State.modChan_bay_ddc (s : State) (b : BayNo) (x : Fin 2) (f : XfmChan → XfmChan) (cc : BayNo) : ((State.modChan s b x f).bay cc).ddc = (s.bay cc).ddc :=
  State.bay_modBay_same (·.ddc) s b cc _ fun _ => rfl
@[simp] theorem State.modChan_bay_den (s : State) (b : BayNo) (x : Fin 2) (f : XfmChan → XfmChan) (cc : BayNo) : ((State.modChan s b x f).bay cc).den = (s.bay cc).den :=
  State.bay_modBay_same (·.den) s b cc _ fun _ => rfl
@[simp] theorem State.modChan_bay_mco (s : State) (b : BayNo) (x : Fin 2) (f : XfmChan → XfmChan) (cc : BayNo) : ((State.modChan s b x f).bay cc).mco = (s.bay cc).mco :=
  State.bay_modBay_same (·.mco) s b cc _ fun _ => rfl
@[simp] theorem State.modChan_bay_scn (s : State) (b : BayNo) (x : Fin 2) (f : XfmChan → XfmChan) (cc : BayNo) : ((State.modChan s b x f).bay cc).scn = (s.bay cc).scn :=
  State.bay_modBay_same (·.scn) s b cc _ fun _ => rfl
@[simp] theorem State.modChan_bay_recorder (s : State) (b : BayNo) (x : Fin 2) (f : XfmChan → XfmChan) (cc : BayNo) : ((State.modChan s b x f).bay cc).recorder = (s.bay cc).recorder :=
  State.bay_modBay_same (·.recorder) s b cc _ fun _ => rfl
@[simp] theorem State.modChan_bay_lne (s : State) (b : BayNo) (x : Fin 2) (f : XfmChan → XfmChan) (cc : BayNo) : ((State.modChan s b x f).bay cc).lne = (s.bay cc).lne :=
  State.bay_modBay_same (·.lne) s b cc _ fun _ => rfl
@[simp] theorem State.modChan_bay_pci (s : State) (b : BayNo) (x : Fin 2) (f : XfmChan → XfmChan) (cc : BayNo) : ((State.modChan s b x f).bay cc).pci = (s.bay cc).pci :=
  State.bay_modBay_same (·.pci) s b cc _ fun _ => rfl
@[simp] theorem State.modChan_bay_eth (s : State) (b : BayNo) (x : Fin 2) (f : XfmChan → XfmChan) (cc : BayNo) : ((State.modChan s b x f).bay cc).eth = (s.bay cc).eth :=
  State.bay_modBay_same (·.eth) s b cc _ fun _ => rfl
@[simp] theorem State.modChan_bay_jes (s : State) (b : BayNo) (x : Fin 2) (f : XfmChan → XfmChan) (cc : BayNo) : ((State.modChan s b x f).bay cc).jes = (s.bay cc).jes :=
  State.bay_modBay_same (·.jes) s b cc _ fun _ => rfl
@[simp] theorem State.modChan_bay_lnl (s : State) (b : BayNo) (x : Fin 2) (f : XfmChan → XfmChan) (cc : BayNo) : ((State.modChan s b x f).bay cc).lnl = (s.bay cc).lnl :=
  State.bay_modBay_same (·.lnl) s b cc _ fun _ => rfl
@[simp] theorem State.modChan_bay_cal (s : State) (b : BayNo) (x : Fin 2) (f : XfmChan → XfmChan) (cc : BayNo) : ((State.modChan s b x f).bay cc).cal = (s.bay cc).cal :=
  State.bay_modBay_same (·.cal) s b cc _ fun _ => rfl
@[simp] theorem State.modChan_bay_hkc (s : State) (b : BayNo) (x : Fin 2) (f : XfmChan → XfmChan) (cc : BayNo) : ((State.modChan s b x f).bay cc).hkc = (s.bay cc).hkc :=
  State.bay_modBay_same (·.hkc) s b cc _ fun _ => rfl
@[simp] theorem State.modChan_bay_aux (s : State) (b : BayNo) (x : Fin 2) (f : XfmChan → XfmChan) (cc : BayNo) : ((State.modChan s b x f).bay cc).aux = (s.bay cc).aux :=
  State.bay_modBay_same (·.aux) s b cc _ fun _ => rfl
@[simp] theorem State.modChan_bay_mon (s : State) (b : BayNo) (x : Fin 2) (f : XfmChan → XfmChan) (cc : BayNo) : ((State.modChan s b x f).bay cc).mon = (s.bay cc).mon :=
  State.bay_modBay_same (·.mon) s b cc _ fun _ => rfl
@[simp] theorem State.modChan_bay_jtag (s : State) (b : BayNo) (x : Fin 2) (f : XfmChan → XfmChan) (cc : BayNo) : ((State.modChan s b x f).bay cc).jtag = (s.bay cc).jtag :=
  State.bay_modBay_same (·.jtag) s b cc _ fun _ => rfl
@[simp] theorem State.modChan_nowAt (s : State) (b : BayNo) (x : Fin 2) (f : XfmChan → XfmChan) (cc : BayNo) : (State.modChan s b x f).nowAt cc = s.nowAt cc :=
  congrArg (fun t : TbsBay => Tide.stamp t.tide) (State.modChan_bay_tbs s b x f cc)
@[simp] theorem State.modChan_now (s : State) (b : BayNo) (x : Fin 2) (f : XfmChan → XfmChan) : (State.modChan s b x f).now = s.now := State.modChan_nowAt s b x f 0
@[simp] theorem State.modChan_alive (s : State) (b : BayNo) (x : Fin 2) (f : XfmChan → XfmChan) (cc : BayNo) : (State.modChan s b x f).alive cc = s.alive cc :=
  State.alive_congr cc rfl rfl (State.modChan_bay_lost s b x f cc)
@[simp] theorem State.modChan_liveBays (s : State) (b : BayNo) (x : Fin 2) (f : XfmChan → XfmChan) : (State.modChan s b x f).liveBays = s.liveBays :=
  State.liveBays_congr (State.modChan_alive s b x f)
@[simp] theorem State.modChan_bay_xfm_self (s : State) (b : BayNo) (x : Fin 2) (f : XfmChan → XfmChan) : ((State.modChan s b x f).bay b).xfm = { (s.bay b).xfm with chans := (s.bay b).xfm.chans.set x (f (s.bay b).xfm.chans[x]) } :=
  congrArg (fun y : Bay => y.xfm) (State.bay_modBay s b _)
theorem State.modChan_bay_xfm_ne (s : State) (b : BayNo) (x : Fin 2) (f : XfmChan → XfmChan) {cc : BayNo} (h : cc ≠ b) : ((State.modChan s b x f).bay cc).xfm = (s.bay cc).xfm :=
  congrArg (fun y : Bay => y.xfm) (State.bay_modBay_ne s _ h)

@[simp] theorem State.modTrace_part (s : State) (b : BayNo) (t : Fin 16) (f : Trace → Trace) : (State.modTrace s b t f).part = s.part := (rfl)
@[simp] theorem State.modTrace_vals (s : State) (b : BayNo) (t : Fin 16) (f : Trace → Trace) : (State.modTrace s b t f).vals = s.vals := (rfl)
@[simp] theorem State.modTrace_img (s : State) (b : BayNo) (t : Fin 16) (f : Trace → Trace) : (State.modTrace s b t f).img = s.img := (rfl)
@[simp] theorem State.modTrace_flash (s : State) (b : BayNo) (t : Fin 16) (f : Trace → Trace) : (State.modTrace s b t f).flash = s.flash := (rfl)
@[simp] theorem State.modTrace_tbs (s : State) (b : BayNo) (t : Fin 16) (f : Trace → Trace) : (State.modTrace s b t f).tbs = s.tbs := (rfl)
@[simp] theorem State.modTrace_sel (s : State) (b : BayNo) (t : Fin 16) (f : Trace → Trace) : (State.modTrace s b t f).sel = s.sel := (rfl)
@[simp] theorem State.modTrace_keeper (s : State) (b : BayNo) (t : Fin 16) (f : Trace → Trace) : (State.modTrace s b t f).keeper = s.keeper := (rfl)
@[simp] theorem State.modTrace_pwr (s : State) (b : BayNo) (t : Fin 16) (f : Trace → Trace) : (State.modTrace s b t f).pwr = s.pwr := (rfl)
@[simp] theorem State.modTrace_faults (s : State) (b : BayNo) (t : Fin 16) (f : Trace → Trace) : (State.modTrace s b t f).faults = s.faults := (rfl)
@[simp] theorem State.modTrace_trg (s : State) (b : BayNo) (t : Fin 16) (f : Trace → Trace) : (State.modTrace s b t f).trg = s.trg := (rfl)
@[simp] theorem State.modTrace_ident (s : State) (b : BayNo) (t : Fin 16) (f : Trace → Trace) : (State.modTrace s b t f).ident = s.ident := (rfl)
@[simp] theorem State.modTrace_eth (s : State) (b : BayNo) (t : Fin 16) (f : Trace → Trace) : (State.modTrace s b t f).eth = s.eth := (rfl)
@[simp] theorem State.modTrace_lnl (s : State) (b : BayNo) (t : Fin 16) (f : Trace → Trace) : (State.modTrace s b t f).lnl = s.lnl := (rfl)
@[simp] theorem State.modTrace_inj (s : State) (b : BayNo) (t : Fin 16) (f : Trace → Trace) : (State.modTrace s b t f).inj = s.inj := (rfl)
@[simp] theorem State.modTrace_clrPin (s : State) (b : BayNo) (t : Fin 16) (f : Trace → Trace) : (State.modTrace s b t f).clrPin = s.clrPin := (rfl)
@[simp] theorem State.modTrace_rstLow (s : State) (b : BayNo) (t : Fin 16) (f : Trace → Trace) : (State.modTrace s b t f).rstLow = s.rstLow := (rfl)
@[simp] theorem State.modTrace_fresh (s : State) (b : BayNo) (t : Fin 16) (f : Trace → Trace) : (State.modTrace s b t f).fresh = s.fresh := (rfl)
@[simp] theorem State.modTrace_outbox (s : State) (b : BayNo) (t : Fin 16) (f : Trace → Trace) : (State.modTrace s b t f).outbox = s.outbox := (rfl)
@[simp] theorem State.modTrace_pending (s : State) (b : BayNo) (t : Fin 16) (f : Trace → Trace) : (State.modTrace s b t f).pending = s.pending := (rfl)
@[simp] theorem State.modTrace_fld (s : State) (b : BayNo) (t : Fin 16) (f : Trace → Trace) (g : Field) (cc : BayNo) (j1 k1 : Nat) : (State.modTrace s b t f).fld g cc j1 k1 = s.fld g cc j1 k1 := (rfl)
@[simp] theorem State.modTrace_fldN (s : State) (b : BayNo) (t : Fin 16) (f : Trace → Trace) (g : Field) (cc : BayNo) (j1 k1 : Nat) : (State.modTrace s b t f).fldN g cc j1 k1 = s.fldN g cc j1 k1 := (rfl)
@[simp] theorem State.modTrace_fldB (s : State) (b : BayNo) (t : Fin 16) (f : Trace → Trace) (g : Field) (cc : BayNo) (j1 : Nat) : (State.modTrace s b t f).fldB g cc j1 = s.fldB g cc j1 := (rfl)
@[simp] theorem State.modTrace_pkgN (s : State) (b : BayNo) (t : Fin 16) (f : Trace → Trace) (g : Field) (j1 : Nat) : (State.modTrace s b t f).pkgN g j1 = s.pkgN g j1 := (rfl)
@[simp] theorem State.modTrace_bay_lost (s : State) (b : BayNo) (t : Fin 16) (f : Trace → Trace) (cc : BayNo) : ((State.modTrace s b t f).bay cc).lost = (s.bay cc).lost :=
  State.bay_modBay_same (·.lost) s b cc _ fun _ => rfl
@[simp] theorem State.modTrace_bay_clk (s : State) (b : BayNo) (t : Fin 16) (f : Trace → Trace) (cc : BayNo) : ((State.modTrace s b t f).bay cc).clk = (s.bay cc).clk :=
  State.bay_modBay_same (·.clk) s b cc _ fun _ => rfl
@[simp] theorem State.modTrace_bay_tbs (s : State) (b : BayNo) (t : Fin 16) (f : Trace → Trace) (cc : BayNo) : ((State.modTrace s b t f).bay cc).tbs = (s.bay cc).tbs :=
  State.bay_modBay_same (·.tbs) s b cc _ fun _ => rfl
@[simp] theorem State.modTrace_bay_que (s : State) (b : BayNo) (t : Fin 16) (f : Trace → Trace) (cc : BayNo) : ((State.modTrace s b t f).bay cc).que = (s.bay cc).que :=
  State.bay_modBay_same (·.que) s b cc _ fun _ => rfl
@[simp] theorem State.modTrace_bay_dma (s : State) (b : BayNo) (t : Fin 16) (f : Trace → Trace) (cc : BayNo) : ((State.modTrace s b t f).bay cc).dma = (s.bay cc).dma :=
  State.bay_modBay_same (·.dma) s b cc _ fun _ => rfl
@[simp] theorem State.modTrace_bay_pwr (s : State) (b : BayNo) (t : Fin 16) (f : Trace → Trace) (cc : BayNo) : ((State.modTrace s b t f).bay cc).pwr = (s.bay cc).pwr :=
  State.bay_modBay_same (·.pwr) s b cc _ fun _ => rfl
@[simp] theorem State.modTrace_bay_trg (s : State) (b : BayNo) (t : Fin 16) (f : Trace → Trace) (cc : BayNo) : ((State.modTrace s b t f).bay cc).trg = (s.bay cc).trg :=
  State.bay_modBay_same (·.trg) s b cc _ fun _ => rfl
@[simp] theorem State.modTrace_bay_afe (s : State) (b : BayNo) (t : Fin 16) (f : Trace → Trace) (cc : BayNo) : ((State.modTrace s b t f).bay cc).afe = (s.bay cc).afe :=
  State.bay_modBay_same (·.afe) s b cc _ fun _ => rfl
@[simp] theorem State.modTrace_bay_adc (s : State) (b : BayNo) (t : Fin 16) (f : Trace → Trace) (cc : BayNo) : ((State.modTrace s b t f).bay cc).adc = (s.bay cc).adc :=
  State.bay_modBay_same (·.adc) s b cc _ fun _ => rfl
@[simp] theorem State.modTrace_bay_ddc (s : State) (b : BayNo) (t : Fin 16) (f : Trace → Trace) (cc : BayNo) : ((State.modTrace s b t f).bay cc).ddc = (s.bay cc).ddc :=
  State.bay_modBay_same (·.ddc) s b cc _ fun _ => rfl
@[simp] theorem State.modTrace_bay_den (s : State) (b : BayNo) (t : Fin 16) (f : Trace → Trace) (cc : BayNo) : ((State.modTrace s b t f).bay cc).den = (s.bay cc).den :=
  State.bay_modBay_same (·.den) s b cc _ fun _ => rfl
@[simp] theorem State.modTrace_bay_mco (s : State) (b : BayNo) (t : Fin 16) (f : Trace → Trace) (cc : BayNo) : ((State.modTrace s b t f).bay cc).mco = (s.bay cc).mco :=
  State.bay_modBay_same (·.mco) s b cc _ fun _ => rfl
@[simp] theorem State.modTrace_bay_scn (s : State) (b : BayNo) (t : Fin 16) (f : Trace → Trace) (cc : BayNo) : ((State.modTrace s b t f).bay cc).scn = (s.bay cc).scn :=
  State.bay_modBay_same (·.scn) s b cc _ fun _ => rfl
@[simp] theorem State.modTrace_bay_recorder (s : State) (b : BayNo) (t : Fin 16) (f : Trace → Trace) (cc : BayNo) : ((State.modTrace s b t f).bay cc).recorder = (s.bay cc).recorder :=
  State.bay_modBay_same (·.recorder) s b cc _ fun _ => rfl
@[simp] theorem State.modTrace_bay_lne (s : State) (b : BayNo) (t : Fin 16) (f : Trace → Trace) (cc : BayNo) : ((State.modTrace s b t f).bay cc).lne = (s.bay cc).lne :=
  State.bay_modBay_same (·.lne) s b cc _ fun _ => rfl
@[simp] theorem State.modTrace_bay_pci (s : State) (b : BayNo) (t : Fin 16) (f : Trace → Trace) (cc : BayNo) : ((State.modTrace s b t f).bay cc).pci = (s.bay cc).pci :=
  State.bay_modBay_same (·.pci) s b cc _ fun _ => rfl
@[simp] theorem State.modTrace_bay_eth (s : State) (b : BayNo) (t : Fin 16) (f : Trace → Trace) (cc : BayNo) : ((State.modTrace s b t f).bay cc).eth = (s.bay cc).eth :=
  State.bay_modBay_same (·.eth) s b cc _ fun _ => rfl
@[simp] theorem State.modTrace_bay_jes (s : State) (b : BayNo) (t : Fin 16) (f : Trace → Trace) (cc : BayNo) : ((State.modTrace s b t f).bay cc).jes = (s.bay cc).jes :=
  State.bay_modBay_same (·.jes) s b cc _ fun _ => rfl
@[simp] theorem State.modTrace_bay_lnl (s : State) (b : BayNo) (t : Fin 16) (f : Trace → Trace) (cc : BayNo) : ((State.modTrace s b t f).bay cc).lnl = (s.bay cc).lnl :=
  State.bay_modBay_same (·.lnl) s b cc _ fun _ => rfl
@[simp] theorem State.modTrace_bay_cal (s : State) (b : BayNo) (t : Fin 16) (f : Trace → Trace) (cc : BayNo) : ((State.modTrace s b t f).bay cc).cal = (s.bay cc).cal :=
  State.bay_modBay_same (·.cal) s b cc _ fun _ => rfl
@[simp] theorem State.modTrace_bay_hkc (s : State) (b : BayNo) (t : Fin 16) (f : Trace → Trace) (cc : BayNo) : ((State.modTrace s b t f).bay cc).hkc = (s.bay cc).hkc :=
  State.bay_modBay_same (·.hkc) s b cc _ fun _ => rfl
@[simp] theorem State.modTrace_bay_aux (s : State) (b : BayNo) (t : Fin 16) (f : Trace → Trace) (cc : BayNo) : ((State.modTrace s b t f).bay cc).aux = (s.bay cc).aux :=
  State.bay_modBay_same (·.aux) s b cc _ fun _ => rfl
@[simp] theorem State.modTrace_bay_mon (s : State) (b : BayNo) (t : Fin 16) (f : Trace → Trace) (cc : BayNo) : ((State.modTrace s b t f).bay cc).mon = (s.bay cc).mon :=
  State.bay_modBay_same (·.mon) s b cc _ fun _ => rfl
@[simp] theorem State.modTrace_bay_jtag (s : State) (b : BayNo) (t : Fin 16) (f : Trace → Trace) (cc : BayNo) : ((State.modTrace s b t f).bay cc).jtag = (s.bay cc).jtag :=
  State.bay_modBay_same (·.jtag) s b cc _ fun _ => rfl
@[simp] theorem State.modTrace_nowAt (s : State) (b : BayNo) (t : Fin 16) (f : Trace → Trace) (cc : BayNo) : (State.modTrace s b t f).nowAt cc = s.nowAt cc :=
  congrArg (fun t : TbsBay => Tide.stamp t.tide) (State.modTrace_bay_tbs s b t f cc)
@[simp] theorem State.modTrace_now (s : State) (b : BayNo) (t : Fin 16) (f : Trace → Trace) : (State.modTrace s b t f).now = s.now := State.modTrace_nowAt s b t f 0
@[simp] theorem State.modTrace_alive (s : State) (b : BayNo) (t : Fin 16) (f : Trace → Trace) (cc : BayNo) : (State.modTrace s b t f).alive cc = s.alive cc :=
  State.alive_congr cc rfl rfl (State.modTrace_bay_lost s b t f cc)
@[simp] theorem State.modTrace_liveBays (s : State) (b : BayNo) (t : Fin 16) (f : Trace → Trace) : (State.modTrace s b t f).liveBays = s.liveBays :=
  State.liveBays_congr (State.modTrace_alive s b t f)
@[simp] theorem State.modTrace_bay_xfm_self (s : State) (b : BayNo) (t : Fin 16) (f : Trace → Trace) : ((State.modTrace s b t f).bay b).xfm = { (s.bay b).xfm with traces := (s.bay b).xfm.traces.set t (f (s.bay b).xfm.traces[t]) } :=
  congrArg (fun y : Bay => y.xfm) (State.bay_modBay s b _)
theorem State.modTrace_bay_xfm_ne (s : State) (b : BayNo) (t : Fin 16) (f : Trace → Trace) {cc : BayNo} (h : cc ≠ b) : ((State.modTrace s b t f).bay cc).xfm = (s.bay cc).xfm :=
  congrArg (fun y : Bay => y.xfm) (State.bay_modBay_ne s _ h)

@[simp] theorem State.modDen_part (s : State) (b : BayNo) (x : Fin 2) (f : DenChan → DenChan) : (State.modDen s b x f).part = s.part := (rfl)
@[simp] theorem State.modDen_vals (s : State) (b : BayNo) (x : Fin 2) (f : DenChan → DenChan) : (State.modDen s b x f).vals = s.vals := (rfl)
@[simp] theorem State.modDen_img (s : State) (b : BayNo) (x : Fin 2) (f : DenChan → DenChan) : (State.modDen s b x f).img = s.img := (rfl)
@[simp] theorem State.modDen_flash (s : State) (b : BayNo) (x : Fin 2) (f : DenChan → DenChan) : (State.modDen s b x f).flash = s.flash := (rfl)
@[simp] theorem State.modDen_tbs (s : State) (b : BayNo) (x : Fin 2) (f : DenChan → DenChan) : (State.modDen s b x f).tbs = s.tbs := (rfl)
@[simp] theorem State.modDen_sel (s : State) (b : BayNo) (x : Fin 2) (f : DenChan → DenChan) : (State.modDen s b x f).sel = s.sel := (rfl)
@[simp] theorem State.modDen_keeper (s : State) (b : BayNo) (x : Fin 2) (f : DenChan → DenChan) : (State.modDen s b x f).keeper = s.keeper := (rfl)
@[simp] theorem State.modDen_pwr (s : State) (b : BayNo) (x : Fin 2) (f : DenChan → DenChan) : (State.modDen s b x f).pwr = s.pwr := (rfl)
@[simp] theorem State.modDen_faults (s : State) (b : BayNo) (x : Fin 2) (f : DenChan → DenChan) : (State.modDen s b x f).faults = s.faults := (rfl)
@[simp] theorem State.modDen_trg (s : State) (b : BayNo) (x : Fin 2) (f : DenChan → DenChan) : (State.modDen s b x f).trg = s.trg := (rfl)
@[simp] theorem State.modDen_ident (s : State) (b : BayNo) (x : Fin 2) (f : DenChan → DenChan) : (State.modDen s b x f).ident = s.ident := (rfl)
@[simp] theorem State.modDen_eth (s : State) (b : BayNo) (x : Fin 2) (f : DenChan → DenChan) : (State.modDen s b x f).eth = s.eth := (rfl)
@[simp] theorem State.modDen_lnl (s : State) (b : BayNo) (x : Fin 2) (f : DenChan → DenChan) : (State.modDen s b x f).lnl = s.lnl := (rfl)
@[simp] theorem State.modDen_inj (s : State) (b : BayNo) (x : Fin 2) (f : DenChan → DenChan) : (State.modDen s b x f).inj = s.inj := (rfl)
@[simp] theorem State.modDen_clrPin (s : State) (b : BayNo) (x : Fin 2) (f : DenChan → DenChan) : (State.modDen s b x f).clrPin = s.clrPin := (rfl)
@[simp] theorem State.modDen_rstLow (s : State) (b : BayNo) (x : Fin 2) (f : DenChan → DenChan) : (State.modDen s b x f).rstLow = s.rstLow := (rfl)
@[simp] theorem State.modDen_fresh (s : State) (b : BayNo) (x : Fin 2) (f : DenChan → DenChan) : (State.modDen s b x f).fresh = s.fresh := (rfl)
@[simp] theorem State.modDen_outbox (s : State) (b : BayNo) (x : Fin 2) (f : DenChan → DenChan) : (State.modDen s b x f).outbox = s.outbox := (rfl)
@[simp] theorem State.modDen_pending (s : State) (b : BayNo) (x : Fin 2) (f : DenChan → DenChan) : (State.modDen s b x f).pending = s.pending := (rfl)
@[simp] theorem State.modDen_fld (s : State) (b : BayNo) (x : Fin 2) (f : DenChan → DenChan) (g : Field) (cc : BayNo) (j1 k1 : Nat) : (State.modDen s b x f).fld g cc j1 k1 = s.fld g cc j1 k1 := (rfl)
@[simp] theorem State.modDen_fldN (s : State) (b : BayNo) (x : Fin 2) (f : DenChan → DenChan) (g : Field) (cc : BayNo) (j1 k1 : Nat) : (State.modDen s b x f).fldN g cc j1 k1 = s.fldN g cc j1 k1 := (rfl)
@[simp] theorem State.modDen_fldB (s : State) (b : BayNo) (x : Fin 2) (f : DenChan → DenChan) (g : Field) (cc : BayNo) (j1 : Nat) : (State.modDen s b x f).fldB g cc j1 = s.fldB g cc j1 := (rfl)
@[simp] theorem State.modDen_pkgN (s : State) (b : BayNo) (x : Fin 2) (f : DenChan → DenChan) (g : Field) (j1 : Nat) : (State.modDen s b x f).pkgN g j1 = s.pkgN g j1 := (rfl)
@[simp] theorem State.modDen_bay_lost (s : State) (b : BayNo) (x : Fin 2) (f : DenChan → DenChan) (cc : BayNo) : ((State.modDen s b x f).bay cc).lost = (s.bay cc).lost :=
  State.bay_modBay_same (·.lost) s b cc _ fun _ => rfl
@[simp] theorem State.modDen_bay_clk (s : State) (b : BayNo) (x : Fin 2) (f : DenChan → DenChan) (cc : BayNo) : ((State.modDen s b x f).bay cc).clk = (s.bay cc).clk :=
  State.bay_modBay_same (·.clk) s b cc _ fun _ => rfl
@[simp] theorem State.modDen_bay_tbs (s : State) (b : BayNo) (x : Fin 2) (f : DenChan → DenChan) (cc : BayNo) : ((State.modDen s b x f).bay cc).tbs = (s.bay cc).tbs :=
  State.bay_modBay_same (·.tbs) s b cc _ fun _ => rfl
@[simp] theorem State.modDen_bay_que (s : State) (b : BayNo) (x : Fin 2) (f : DenChan → DenChan) (cc : BayNo) : ((State.modDen s b x f).bay cc).que = (s.bay cc).que :=
  State.bay_modBay_same (·.que) s b cc _ fun _ => rfl
@[simp] theorem State.modDen_bay_dma (s : State) (b : BayNo) (x : Fin 2) (f : DenChan → DenChan) (cc : BayNo) : ((State.modDen s b x f).bay cc).dma = (s.bay cc).dma :=
  State.bay_modBay_same (·.dma) s b cc _ fun _ => rfl
@[simp] theorem State.modDen_bay_pwr (s : State) (b : BayNo) (x : Fin 2) (f : DenChan → DenChan) (cc : BayNo) : ((State.modDen s b x f).bay cc).pwr = (s.bay cc).pwr :=
  State.bay_modBay_same (·.pwr) s b cc _ fun _ => rfl
@[simp] theorem State.modDen_bay_trg (s : State) (b : BayNo) (x : Fin 2) (f : DenChan → DenChan) (cc : BayNo) : ((State.modDen s b x f).bay cc).trg = (s.bay cc).trg :=
  State.bay_modBay_same (·.trg) s b cc _ fun _ => rfl
@[simp] theorem State.modDen_bay_afe (s : State) (b : BayNo) (x : Fin 2) (f : DenChan → DenChan) (cc : BayNo) : ((State.modDen s b x f).bay cc).afe = (s.bay cc).afe :=
  State.bay_modBay_same (·.afe) s b cc _ fun _ => rfl
@[simp] theorem State.modDen_bay_adc (s : State) (b : BayNo) (x : Fin 2) (f : DenChan → DenChan) (cc : BayNo) : ((State.modDen s b x f).bay cc).adc = (s.bay cc).adc :=
  State.bay_modBay_same (·.adc) s b cc _ fun _ => rfl
@[simp] theorem State.modDen_bay_ddc (s : State) (b : BayNo) (x : Fin 2) (f : DenChan → DenChan) (cc : BayNo) : ((State.modDen s b x f).bay cc).ddc = (s.bay cc).ddc :=
  State.bay_modBay_same (·.ddc) s b cc _ fun _ => rfl
@[simp] theorem State.modDen_bay_xfm (s : State) (b : BayNo) (x : Fin 2) (f : DenChan → DenChan) (cc : BayNo) : ((State.modDen s b x f).bay cc).xfm = (s.bay cc).xfm :=
  State.bay_modBay_same (·.xfm) s b cc _ fun _ => rfl
@[simp] theorem State.modDen_bay_mco (s : State) (b : BayNo) (x : Fin 2) (f : DenChan → DenChan) (cc : BayNo) : ((State.modDen s b x f).bay cc).mco = (s.bay cc).mco :=
  State.bay_modBay_same (·.mco) s b cc _ fun _ => rfl
@[simp] theorem State.modDen_bay_scn (s : State) (b : BayNo) (x : Fin 2) (f : DenChan → DenChan) (cc : BayNo) : ((State.modDen s b x f).bay cc).scn = (s.bay cc).scn :=
  State.bay_modBay_same (·.scn) s b cc _ fun _ => rfl
@[simp] theorem State.modDen_bay_recorder (s : State) (b : BayNo) (x : Fin 2) (f : DenChan → DenChan) (cc : BayNo) : ((State.modDen s b x f).bay cc).recorder = (s.bay cc).recorder :=
  State.bay_modBay_same (·.recorder) s b cc _ fun _ => rfl
@[simp] theorem State.modDen_bay_lne (s : State) (b : BayNo) (x : Fin 2) (f : DenChan → DenChan) (cc : BayNo) : ((State.modDen s b x f).bay cc).lne = (s.bay cc).lne :=
  State.bay_modBay_same (·.lne) s b cc _ fun _ => rfl
@[simp] theorem State.modDen_bay_pci (s : State) (b : BayNo) (x : Fin 2) (f : DenChan → DenChan) (cc : BayNo) : ((State.modDen s b x f).bay cc).pci = (s.bay cc).pci :=
  State.bay_modBay_same (·.pci) s b cc _ fun _ => rfl
@[simp] theorem State.modDen_bay_eth (s : State) (b : BayNo) (x : Fin 2) (f : DenChan → DenChan) (cc : BayNo) : ((State.modDen s b x f).bay cc).eth = (s.bay cc).eth :=
  State.bay_modBay_same (·.eth) s b cc _ fun _ => rfl
@[simp] theorem State.modDen_bay_jes (s : State) (b : BayNo) (x : Fin 2) (f : DenChan → DenChan) (cc : BayNo) : ((State.modDen s b x f).bay cc).jes = (s.bay cc).jes :=
  State.bay_modBay_same (·.jes) s b cc _ fun _ => rfl
@[simp] theorem State.modDen_bay_lnl (s : State) (b : BayNo) (x : Fin 2) (f : DenChan → DenChan) (cc : BayNo) : ((State.modDen s b x f).bay cc).lnl = (s.bay cc).lnl :=
  State.bay_modBay_same (·.lnl) s b cc _ fun _ => rfl
@[simp] theorem State.modDen_bay_cal (s : State) (b : BayNo) (x : Fin 2) (f : DenChan → DenChan) (cc : BayNo) : ((State.modDen s b x f).bay cc).cal = (s.bay cc).cal :=
  State.bay_modBay_same (·.cal) s b cc _ fun _ => rfl
@[simp] theorem State.modDen_bay_hkc (s : State) (b : BayNo) (x : Fin 2) (f : DenChan → DenChan) (cc : BayNo) : ((State.modDen s b x f).bay cc).hkc = (s.bay cc).hkc :=
  State.bay_modBay_same (·.hkc) s b cc _ fun _ => rfl
@[simp] theorem State.modDen_bay_aux (s : State) (b : BayNo) (x : Fin 2) (f : DenChan → DenChan) (cc : BayNo) : ((State.modDen s b x f).bay cc).aux = (s.bay cc).aux :=
  State.bay_modBay_same (·.aux) s b cc _ fun _ => rfl
@[simp] theorem State.modDen_bay_mon (s : State) (b : BayNo) (x : Fin 2) (f : DenChan → DenChan) (cc : BayNo) : ((State.modDen s b x f).bay cc).mon = (s.bay cc).mon :=
  State.bay_modBay_same (·.mon) s b cc _ fun _ => rfl
@[simp] theorem State.modDen_bay_jtag (s : State) (b : BayNo) (x : Fin 2) (f : DenChan → DenChan) (cc : BayNo) : ((State.modDen s b x f).bay cc).jtag = (s.bay cc).jtag :=
  State.bay_modBay_same (·.jtag) s b cc _ fun _ => rfl
@[simp] theorem State.modDen_nowAt (s : State) (b : BayNo) (x : Fin 2) (f : DenChan → DenChan) (cc : BayNo) : (State.modDen s b x f).nowAt cc = s.nowAt cc :=
  congrArg (fun t : TbsBay => Tide.stamp t.tide) (State.modDen_bay_tbs s b x f cc)
@[simp] theorem State.modDen_now (s : State) (b : BayNo) (x : Fin 2) (f : DenChan → DenChan) : (State.modDen s b x f).now = s.now := State.modDen_nowAt s b x f 0
@[simp] theorem State.modDen_alive (s : State) (b : BayNo) (x : Fin 2) (f : DenChan → DenChan) (cc : BayNo) : (State.modDen s b x f).alive cc = s.alive cc :=
  State.alive_congr cc rfl rfl (State.modDen_bay_lost s b x f cc)
@[simp] theorem State.modDen_liveBays (s : State) (b : BayNo) (x : Fin 2) (f : DenChan → DenChan) : (State.modDen s b x f).liveBays = s.liveBays :=
  State.liveBays_congr (State.modDen_alive s b x f)
@[simp] theorem State.modDen_bay_den_self (s : State) (b : BayNo) (x : Fin 2) (f : DenChan → DenChan) : ((State.modDen s b x f).bay b).den = { (s.bay b).den with chans := (s.bay b).den.chans.set x (f (s.bay b).den.chans[x]) } :=
  congrArg (fun y : Bay => y.den) (State.bay_modBay s b _)
theorem State.modDen_bay_den_ne (s : State) (b : BayNo) (x : Fin 2) (f : DenChan → DenChan) {cc : BayNo} (h : cc ≠ b) : ((State.modDen s b x f).bay cc).den = (s.bay cc).den :=
  congrArg (fun y : Bay => y.den) (State.bay_modBay_ne s _ h)

@[simp] theorem State.modUnit_part (s : State) (b : BayNo) (u : Fin 8) (f : TrgUnit → TrgUnit) : (State.modUnit s b u f).part = s.part := (rfl)
@[simp] theorem State.modUnit_vals (s : State) (b : BayNo) (u : Fin 8) (f : TrgUnit → TrgUnit) : (State.modUnit s b u f).vals = s.vals := (rfl)
@[simp] theorem State.modUnit_img (s : State) (b : BayNo) (u : Fin 8) (f : TrgUnit → TrgUnit) : (State.modUnit s b u f).img = s.img := (rfl)
@[simp] theorem State.modUnit_flash (s : State) (b : BayNo) (u : Fin 8) (f : TrgUnit → TrgUnit) : (State.modUnit s b u f).flash = s.flash := (rfl)
@[simp] theorem State.modUnit_tbs (s : State) (b : BayNo) (u : Fin 8) (f : TrgUnit → TrgUnit) : (State.modUnit s b u f).tbs = s.tbs := (rfl)
@[simp] theorem State.modUnit_sel (s : State) (b : BayNo) (u : Fin 8) (f : TrgUnit → TrgUnit) : (State.modUnit s b u f).sel = s.sel := (rfl)
@[simp] theorem State.modUnit_keeper (s : State) (b : BayNo) (u : Fin 8) (f : TrgUnit → TrgUnit) : (State.modUnit s b u f).keeper = s.keeper := (rfl)
@[simp] theorem State.modUnit_pwr (s : State) (b : BayNo) (u : Fin 8) (f : TrgUnit → TrgUnit) : (State.modUnit s b u f).pwr = s.pwr := (rfl)
@[simp] theorem State.modUnit_faults (s : State) (b : BayNo) (u : Fin 8) (f : TrgUnit → TrgUnit) : (State.modUnit s b u f).faults = s.faults := (rfl)
@[simp] theorem State.modUnit_trg (s : State) (b : BayNo) (u : Fin 8) (f : TrgUnit → TrgUnit) : (State.modUnit s b u f).trg = s.trg := (rfl)
@[simp] theorem State.modUnit_ident (s : State) (b : BayNo) (u : Fin 8) (f : TrgUnit → TrgUnit) : (State.modUnit s b u f).ident = s.ident := (rfl)
@[simp] theorem State.modUnit_eth (s : State) (b : BayNo) (u : Fin 8) (f : TrgUnit → TrgUnit) : (State.modUnit s b u f).eth = s.eth := (rfl)
@[simp] theorem State.modUnit_lnl (s : State) (b : BayNo) (u : Fin 8) (f : TrgUnit → TrgUnit) : (State.modUnit s b u f).lnl = s.lnl := (rfl)
@[simp] theorem State.modUnit_inj (s : State) (b : BayNo) (u : Fin 8) (f : TrgUnit → TrgUnit) : (State.modUnit s b u f).inj = s.inj := (rfl)
@[simp] theorem State.modUnit_clrPin (s : State) (b : BayNo) (u : Fin 8) (f : TrgUnit → TrgUnit) : (State.modUnit s b u f).clrPin = s.clrPin := (rfl)
@[simp] theorem State.modUnit_rstLow (s : State) (b : BayNo) (u : Fin 8) (f : TrgUnit → TrgUnit) : (State.modUnit s b u f).rstLow = s.rstLow := (rfl)
@[simp] theorem State.modUnit_fresh (s : State) (b : BayNo) (u : Fin 8) (f : TrgUnit → TrgUnit) : (State.modUnit s b u f).fresh = s.fresh := (rfl)
@[simp] theorem State.modUnit_outbox (s : State) (b : BayNo) (u : Fin 8) (f : TrgUnit → TrgUnit) : (State.modUnit s b u f).outbox = s.outbox := (rfl)
@[simp] theorem State.modUnit_pending (s : State) (b : BayNo) (u : Fin 8) (f : TrgUnit → TrgUnit) : (State.modUnit s b u f).pending = s.pending := (rfl)
@[simp] theorem State.modUnit_fld (s : State) (b : BayNo) (u : Fin 8) (f : TrgUnit → TrgUnit) (g : Field) (cc : BayNo) (j1 k1 : Nat) : (State.modUnit s b u f).fld g cc j1 k1 = s.fld g cc j1 k1 := (rfl)
@[simp] theorem State.modUnit_fldN (s : State) (b : BayNo) (u : Fin 8) (f : TrgUnit → TrgUnit) (g : Field) (cc : BayNo) (j1 k1 : Nat) : (State.modUnit s b u f).fldN g cc j1 k1 = s.fldN g cc j1 k1 := (rfl)
@[simp] theorem State.modUnit_fldB (s : State) (b : BayNo) (u : Fin 8) (f : TrgUnit → TrgUnit) (g : Field) (cc : BayNo) (j1 : Nat) : (State.modUnit s b u f).fldB g cc j1 = s.fldB g cc j1 := (rfl)
@[simp] theorem State.modUnit_pkgN (s : State) (b : BayNo) (u : Fin 8) (f : TrgUnit → TrgUnit) (g : Field) (j1 : Nat) : (State.modUnit s b u f).pkgN g j1 = s.pkgN g j1 := (rfl)
@[simp] theorem State.modUnit_bay_lost (s : State) (b : BayNo) (u : Fin 8) (f : TrgUnit → TrgUnit) (cc : BayNo) : ((State.modUnit s b u f).bay cc).lost = (s.bay cc).lost :=
  State.bay_modBay_same (·.lost) s b cc _ fun _ => rfl
@[simp] theorem State.modUnit_bay_clk (s : State) (b : BayNo) (u : Fin 8) (f : TrgUnit → TrgUnit) (cc : BayNo) : ((State.modUnit s b u f).bay cc).clk = (s.bay cc).clk :=
  State.bay_modBay_same (·.clk) s b cc _ fun _ => rfl
@[simp] theorem State.modUnit_bay_tbs (s : State) (b : BayNo) (u : Fin 8) (f : TrgUnit → TrgUnit) (cc : BayNo) : ((State.modUnit s b u f).bay cc).tbs = (s.bay cc).tbs :=
  State.bay_modBay_same (·.tbs) s b cc _ fun _ => rfl
@[simp] theorem State.modUnit_bay_que (s : State) (b : BayNo) (u : Fin 8) (f : TrgUnit → TrgUnit) (cc : BayNo) : ((State.modUnit s b u f).bay cc).que = (s.bay cc).que :=
  State.bay_modBay_same (·.que) s b cc _ fun _ => rfl
@[simp] theorem State.modUnit_bay_dma (s : State) (b : BayNo) (u : Fin 8) (f : TrgUnit → TrgUnit) (cc : BayNo) : ((State.modUnit s b u f).bay cc).dma = (s.bay cc).dma :=
  State.bay_modBay_same (·.dma) s b cc _ fun _ => rfl
@[simp] theorem State.modUnit_bay_pwr (s : State) (b : BayNo) (u : Fin 8) (f : TrgUnit → TrgUnit) (cc : BayNo) : ((State.modUnit s b u f).bay cc).pwr = (s.bay cc).pwr :=
  State.bay_modBay_same (·.pwr) s b cc _ fun _ => rfl
@[simp] theorem State.modUnit_bay_afe (s : State) (b : BayNo) (u : Fin 8) (f : TrgUnit → TrgUnit) (cc : BayNo) : ((State.modUnit s b u f).bay cc).afe = (s.bay cc).afe :=
  State.bay_modBay_same (·.afe) s b cc _ fun _ => rfl
@[simp] theorem State.modUnit_bay_adc (s : State) (b : BayNo) (u : Fin 8) (f : TrgUnit → TrgUnit) (cc : BayNo) : ((State.modUnit s b u f).bay cc).adc = (s.bay cc).adc :=
  State.bay_modBay_same (·.adc) s b cc _ fun _ => rfl
@[simp] theorem State.modUnit_bay_ddc (s : State) (b : BayNo) (u : Fin 8) (f : TrgUnit → TrgUnit) (cc : BayNo) : ((State.modUnit s b u f).bay cc).ddc = (s.bay cc).ddc :=
  State.bay_modBay_same (·.ddc) s b cc _ fun _ => rfl
@[simp] theorem State.modUnit_bay_xfm (s : State) (b : BayNo) (u : Fin 8) (f : TrgUnit → TrgUnit) (cc : BayNo) : ((State.modUnit s b u f).bay cc).xfm = (s.bay cc).xfm :=
  State.bay_modBay_same (·.xfm) s b cc _ fun _ => rfl
@[simp] theorem State.modUnit_bay_den (s : State) (b : BayNo) (u : Fin 8) (f : TrgUnit → TrgUnit) (cc : BayNo) : ((State.modUnit s b u f).bay cc).den = (s.bay cc).den :=
  State.bay_modBay_same (·.den) s b cc _ fun _ => rfl
@[simp] theorem State.modUnit_bay_mco (s : State) (b : BayNo) (u : Fin 8) (f : TrgUnit → TrgUnit) (cc : BayNo) : ((State.modUnit s b u f).bay cc).mco = (s.bay cc).mco :=
  State.bay_modBay_same (·.mco) s b cc _ fun _ => rfl
@[simp] theorem State.modUnit_bay_scn (s : State) (b : BayNo) (u : Fin 8) (f : TrgUnit → TrgUnit) (cc : BayNo) : ((State.modUnit s b u f).bay cc).scn = (s.bay cc).scn :=
  State.bay_modBay_same (·.scn) s b cc _ fun _ => rfl
@[simp] theorem State.modUnit_bay_recorder (s : State) (b : BayNo) (u : Fin 8) (f : TrgUnit → TrgUnit) (cc : BayNo) : ((State.modUnit s b u f).bay cc).recorder = (s.bay cc).recorder :=
  State.bay_modBay_same (·.recorder) s b cc _ fun _ => rfl
@[simp] theorem State.modUnit_bay_lne (s : State) (b : BayNo) (u : Fin 8) (f : TrgUnit → TrgUnit) (cc : BayNo) : ((State.modUnit s b u f).bay cc).lne = (s.bay cc).lne :=
  State.bay_modBay_same (·.lne) s b cc _ fun _ => rfl
@[simp] theorem State.modUnit_bay_pci (s : State) (b : BayNo) (u : Fin 8) (f : TrgUnit → TrgUnit) (cc : BayNo) : ((State.modUnit s b u f).bay cc).pci = (s.bay cc).pci :=
  State.bay_modBay_same (·.pci) s b cc _ fun _ => rfl
@[simp] theorem State.modUnit_bay_eth (s : State) (b : BayNo) (u : Fin 8) (f : TrgUnit → TrgUnit) (cc : BayNo) : ((State.modUnit s b u f).bay cc).eth = (s.bay cc).eth :=
  State.bay_modBay_same (·.eth) s b cc _ fun _ => rfl
@[simp] theorem State.modUnit_bay_jes (s : State) (b : BayNo) (u : Fin 8) (f : TrgUnit → TrgUnit) (cc : BayNo) : ((State.modUnit s b u f).bay cc).jes = (s.bay cc).jes :=
  State.bay_modBay_same (·.jes) s b cc _ fun _ => rfl
@[simp] theorem State.modUnit_bay_lnl (s : State) (b : BayNo) (u : Fin 8) (f : TrgUnit → TrgUnit) (cc : BayNo) : ((State.modUnit s b u f).bay cc).lnl = (s.bay cc).lnl :=
  State.bay_modBay_same (·.lnl) s b cc _ fun _ => rfl
@[simp] theorem State.modUnit_bay_cal (s : State) (b : BayNo) (u : Fin 8) (f : TrgUnit → TrgUnit) (cc : BayNo) : ((State.modUnit s b u f).bay cc).cal = (s.bay cc).cal :=
  State.bay_modBay_same (·.cal) s b cc _ fun _ => rfl
@[simp] theorem State.modUnit_bay_hkc (s : State) (b : BayNo) (u : Fin 8) (f : TrgUnit → TrgUnit) (cc : BayNo) : ((State.modUnit s b u f).bay cc).hkc = (s.bay cc).hkc :=
  State.bay_modBay_same (·.hkc) s b cc _ fun _ => rfl
@[simp] theorem State.modUnit_bay_aux (s : State) (b : BayNo) (u : Fin 8) (f : TrgUnit → TrgUnit) (cc : BayNo) : ((State.modUnit s b u f).bay cc).aux = (s.bay cc).aux :=
  State.bay_modBay_same (·.aux) s b cc _ fun _ => rfl
@[simp] theorem State.modUnit_bay_mon (s : State) (b : BayNo) (u : Fin 8) (f : TrgUnit → TrgUnit) (cc : BayNo) : ((State.modUnit s b u f).bay cc).mon = (s.bay cc).mon :=
  State.bay_modBay_same (·.mon) s b cc _ fun _ => rfl
@[simp] theorem State.modUnit_bay_jtag (s : State) (b : BayNo) (u : Fin 8) (f : TrgUnit → TrgUnit) (cc : BayNo) : ((State.modUnit s b u f).bay cc).jtag = (s.bay cc).jtag :=
  State.bay_modBay_same (·.jtag) s b cc _ fun _ => rfl
@[simp] theorem State.modUnit_nowAt (s : State) (b : BayNo) (u : Fin 8) (f : TrgUnit → TrgUnit) (cc : BayNo) : (State.modUnit s b u f).nowAt cc = s.nowAt cc :=
  congrArg (fun t : TbsBay => Tide.stamp t.tide) (State.modUnit_bay_tbs s b u f cc)
@[simp] theorem State.modUnit_now (s : State) (b : BayNo) (u : Fin 8) (f : TrgUnit → TrgUnit) : (State.modUnit s b u f).now = s.now := State.modUnit_nowAt s b u f 0
@[simp] theorem State.modUnit_alive (s : State) (b : BayNo) (u : Fin 8) (f : TrgUnit → TrgUnit) (cc : BayNo) : (State.modUnit s b u f).alive cc = s.alive cc :=
  State.alive_congr cc rfl rfl (State.modUnit_bay_lost s b u f cc)
@[simp] theorem State.modUnit_liveBays (s : State) (b : BayNo) (u : Fin 8) (f : TrgUnit → TrgUnit) : (State.modUnit s b u f).liveBays = s.liveBays :=
  State.liveBays_congr (State.modUnit_alive s b u f)
@[simp] theorem State.modUnit_bay_trg_self (s : State) (b : BayNo) (u : Fin 8) (f : TrgUnit → TrgUnit) : ((State.modUnit s b u f).bay b).trg = { (s.bay b).trg with units := (s.bay b).trg.units.set u (f (s.bay b).trg.units[u]) } :=
  congrArg (fun y : Bay => y.trg) (State.bay_modBay s b _)
theorem State.modUnit_bay_trg_ne (s : State) (b : BayNo) (u : Fin 8) (f : TrgUnit → TrgUnit) {cc : BayNo} (h : cc ≠ b) : ((State.modUnit s b u f).bay cc).trg = (s.bay cc).trg :=
  congrArg (fun y : Bay => y.trg) (State.bay_modBay_ne s _ h)

@[simp] theorem State.modAfe_part (s : State) (b : BayNo) (i : Fin 2) (f : AfeIn → AfeIn) : (State.modAfe s b i f).part = s.part := (rfl)
@[simp] theorem State.modAfe_vals (s : State) (b : BayNo) (i : Fin 2) (f : AfeIn → AfeIn) : (State.modAfe s b i f).vals = s.vals := (rfl)
@[simp] theorem State.modAfe_img (s : State) (b : BayNo) (i : Fin 2) (f : AfeIn → AfeIn) : (State.modAfe s b i f).img = s.img := (rfl)
@[simp] theorem State.modAfe_flash (s : State) (b : BayNo) (i : Fin 2) (f : AfeIn → AfeIn) : (State.modAfe s b i f).flash = s.flash := (rfl)
@[simp] theorem State.modAfe_tbs (s : State) (b : BayNo) (i : Fin 2) (f : AfeIn → AfeIn) : (State.modAfe s b i f).tbs = s.tbs := (rfl)
@[simp] theorem State.modAfe_sel (s : State) (b : BayNo) (i : Fin 2) (f : AfeIn → AfeIn) : (State.modAfe s b i f).sel = s.sel := (rfl)
@[simp] theorem State.modAfe_keeper (s : State) (b : BayNo) (i : Fin 2) (f : AfeIn → AfeIn) : (State.modAfe s b i f).keeper = s.keeper := (rfl)
@[simp] theorem State.modAfe_pwr (s : State) (b : BayNo) (i : Fin 2) (f : AfeIn → AfeIn) : (State.modAfe s b i f).pwr = s.pwr := (rfl)
@[simp] theorem State.modAfe_faults (s : State) (b : BayNo) (i : Fin 2) (f : AfeIn → AfeIn) : (State.modAfe s b i f).faults = s.faults := (rfl)
@[simp] theorem State.modAfe_trg (s : State) (b : BayNo) (i : Fin 2) (f : AfeIn → AfeIn) : (State.modAfe s b i f).trg = s.trg := (rfl)
@[simp] theorem State.modAfe_ident (s : State) (b : BayNo) (i : Fin 2) (f : AfeIn → AfeIn) : (State.modAfe s b i f).ident = s.ident := (rfl)
@[simp] theorem State.modAfe_eth (s : State) (b : BayNo) (i : Fin 2) (f : AfeIn → AfeIn) : (State.modAfe s b i f).eth = s.eth := (rfl)
@[simp] theorem State.modAfe_lnl (s : State) (b : BayNo) (i : Fin 2) (f : AfeIn → AfeIn) : (State.modAfe s b i f).lnl = s.lnl := (rfl)
@[simp] theorem State.modAfe_inj (s : State) (b : BayNo) (i : Fin 2) (f : AfeIn → AfeIn) : (State.modAfe s b i f).inj = s.inj := (rfl)
@[simp] theorem State.modAfe_clrPin (s : State) (b : BayNo) (i : Fin 2) (f : AfeIn → AfeIn) : (State.modAfe s b i f).clrPin = s.clrPin := (rfl)
@[simp] theorem State.modAfe_rstLow (s : State) (b : BayNo) (i : Fin 2) (f : AfeIn → AfeIn) : (State.modAfe s b i f).rstLow = s.rstLow := (rfl)
@[simp] theorem State.modAfe_fresh (s : State) (b : BayNo) (i : Fin 2) (f : AfeIn → AfeIn) : (State.modAfe s b i f).fresh = s.fresh := (rfl)
@[simp] theorem State.modAfe_outbox (s : State) (b : BayNo) (i : Fin 2) (f : AfeIn → AfeIn) : (State.modAfe s b i f).outbox = s.outbox := (rfl)
@[simp] theorem State.modAfe_pending (s : State) (b : BayNo) (i : Fin 2) (f : AfeIn → AfeIn) : (State.modAfe s b i f).pending = s.pending := (rfl)
@[simp] theorem State.modAfe_fld (s : State) (b : BayNo) (i : Fin 2) (f : AfeIn → AfeIn) (g : Field) (cc : BayNo) (j1 k1 : Nat) : (State.modAfe s b i f).fld g cc j1 k1 = s.fld g cc j1 k1 := (rfl)
@[simp] theorem State.modAfe_fldN (s : State) (b : BayNo) (i : Fin 2) (f : AfeIn → AfeIn) (g : Field) (cc : BayNo) (j1 k1 : Nat) : (State.modAfe s b i f).fldN g cc j1 k1 = s.fldN g cc j1 k1 := (rfl)
@[simp] theorem State.modAfe_fldB (s : State) (b : BayNo) (i : Fin 2) (f : AfeIn → AfeIn) (g : Field) (cc : BayNo) (j1 : Nat) : (State.modAfe s b i f).fldB g cc j1 = s.fldB g cc j1 := (rfl)
@[simp] theorem State.modAfe_pkgN (s : State) (b : BayNo) (i : Fin 2) (f : AfeIn → AfeIn) (g : Field) (j1 : Nat) : (State.modAfe s b i f).pkgN g j1 = s.pkgN g j1 := (rfl)
@[simp] theorem State.modAfe_bay_lost (s : State) (b : BayNo) (i : Fin 2) (f : AfeIn → AfeIn) (cc : BayNo) : ((State.modAfe s b i f).bay cc).lost = (s.bay cc).lost :=
  State.bay_modBay_same (·.lost) s b cc _ fun _ => rfl
@[simp] theorem State.modAfe_bay_clk (s : State) (b : BayNo) (i : Fin 2) (f : AfeIn → AfeIn) (cc : BayNo) : ((State.modAfe s b i f).bay cc).clk = (s.bay cc).clk :=
  State.bay_modBay_same (·.clk) s b cc _ fun _ => rfl
@[simp] theorem State.modAfe_bay_tbs (s : State) (b : BayNo) (i : Fin 2) (f : AfeIn → AfeIn) (cc : BayNo) : ((State.modAfe s b i f).bay cc).tbs = (s.bay cc).tbs :=
  State.bay_modBay_same (·.tbs) s b cc _ fun _ => rfl
@[simp] theorem State.modAfe_bay_que (s : State) (b : BayNo) (i : Fin 2) (f : AfeIn → AfeIn) (cc : BayNo) : ((State.modAfe s b i f).bay cc).que = (s.bay cc).que :=
  State.bay_modBay_same (·.que) s b cc _ fun _ => rfl
@[simp] theorem State.modAfe_bay_dma (s : State) (b : BayNo) (i : Fin 2) (f : AfeIn → AfeIn) (cc : BayNo) : ((State.modAfe s b i f).bay cc).dma = (s.bay cc).dma :=
  State.bay_modBay_same (·.dma) s b cc _ fun _ => rfl
@[simp] theorem State.modAfe_bay_pwr (s : State) (b : BayNo) (i : Fin 2) (f : AfeIn → AfeIn) (cc : BayNo) : ((State.modAfe s b i f).bay cc).pwr = (s.bay cc).pwr :=
  State.bay_modBay_same (·.pwr) s b cc _ fun _ => rfl
@[simp] theorem State.modAfe_bay_trg (s : State) (b : BayNo) (i : Fin 2) (f : AfeIn → AfeIn) (cc : BayNo) : ((State.modAfe s b i f).bay cc).trg = (s.bay cc).trg :=
  State.bay_modBay_same (·.trg) s b cc _ fun _ => rfl
@[simp] theorem State.modAfe_bay_adc (s : State) (b : BayNo) (i : Fin 2) (f : AfeIn → AfeIn) (cc : BayNo) : ((State.modAfe s b i f).bay cc).adc = (s.bay cc).adc :=
  State.bay_modBay_same (·.adc) s b cc _ fun _ => rfl
@[simp] theorem State.modAfe_bay_ddc (s : State) (b : BayNo) (i : Fin 2) (f : AfeIn → AfeIn) (cc : BayNo) : ((State.modAfe s b i f).bay cc).ddc = (s.bay cc).ddc :=
  State.bay_modBay_same (·.ddc) s b cc _ fun _ => rfl
@[simp] theorem State.modAfe_bay_xfm (s : State) (b : BayNo) (i : Fin 2) (f : AfeIn → AfeIn) (cc : BayNo) : ((State.modAfe s b i f).bay cc).xfm = (s.bay cc).xfm :=
  State.bay_modBay_same (·.xfm) s b cc _ fun _ => rfl
@[simp] theorem State.modAfe_bay_den (s : State) (b : BayNo) (i : Fin 2) (f : AfeIn → AfeIn) (cc : BayNo) : ((State.modAfe s b i f).bay cc).den = (s.bay cc).den :=
  State.bay_modBay_same (·.den) s b cc _ fun _ => rfl
@[simp] theorem State.modAfe_bay_mco (s : State) (b : BayNo) (i : Fin 2) (f : AfeIn → AfeIn) (cc : BayNo) : ((State.modAfe s b i f).bay cc).mco = (s.bay cc).mco :=
  State.bay_modBay_same (·.mco) s b cc _ fun _ => rfl
@[simp] theorem State.modAfe_bay_scn (s : State) (b : BayNo) (i : Fin 2) (f : AfeIn → AfeIn) (cc : BayNo) : ((State.modAfe s b i f).bay cc).scn = (s.bay cc).scn :=
  State.bay_modBay_same (·.scn) s b cc _ fun _ => rfl
@[simp] theorem State.modAfe_bay_recorder (s : State) (b : BayNo) (i : Fin 2) (f : AfeIn → AfeIn) (cc : BayNo) : ((State.modAfe s b i f).bay cc).recorder = (s.bay cc).recorder :=
  State.bay_modBay_same (·.recorder) s b cc _ fun _ => rfl
@[simp] theorem State.modAfe_bay_lne (s : State) (b : BayNo) (i : Fin 2) (f : AfeIn → AfeIn) (cc : BayNo) : ((State.modAfe s b i f).bay cc).lne = (s.bay cc).lne :=
  State.bay_modBay_same (·.lne) s b cc _ fun _ => rfl
@[simp] theorem State.modAfe_bay_pci (s : State) (b : BayNo) (i : Fin 2) (f : AfeIn → AfeIn) (cc : BayNo) : ((State.modAfe s b i f).bay cc).pci = (s.bay cc).pci :=
  State.bay_modBay_same (·.pci) s b cc _ fun _ => rfl
@[simp] theorem State.modAfe_bay_eth (s : State) (b : BayNo) (i : Fin 2) (f : AfeIn → AfeIn) (cc : BayNo) : ((State.modAfe s b i f).bay cc).eth = (s.bay cc).eth :=
  State.bay_modBay_same (·.eth) s b cc _ fun _ => rfl
@[simp] theorem State.modAfe_bay_jes (s : State) (b : BayNo) (i : Fin 2) (f : AfeIn → AfeIn) (cc : BayNo) : ((State.modAfe s b i f).bay cc).jes = (s.bay cc).jes :=
  State.bay_modBay_same (·.jes) s b cc _ fun _ => rfl
@[simp] theorem State.modAfe_bay_lnl (s : State) (b : BayNo) (i : Fin 2) (f : AfeIn → AfeIn) (cc : BayNo) : ((State.modAfe s b i f).bay cc).lnl = (s.bay cc).lnl :=
  State.bay_modBay_same (·.lnl) s b cc _ fun _ => rfl
@[simp] theorem State.modAfe_bay_cal (s : State) (b : BayNo) (i : Fin 2) (f : AfeIn → AfeIn) (cc : BayNo) : ((State.modAfe s b i f).bay cc).cal = (s.bay cc).cal :=
  State.bay_modBay_same (·.cal) s b cc _ fun _ => rfl
@[simp] theorem State.modAfe_bay_hkc (s : State) (b : BayNo) (i : Fin 2) (f : AfeIn → AfeIn) (cc : BayNo) : ((State.modAfe s b i f).bay cc).hkc = (s.bay cc).hkc :=
  State.bay_modBay_same (·.hkc) s b cc _ fun _ => rfl
@[simp] theorem State.modAfe_bay_aux (s : State) (b : BayNo) (i : Fin 2) (f : AfeIn → AfeIn) (cc : BayNo) : ((State.modAfe s b i f).bay cc).aux = (s.bay cc).aux :=
  State.bay_modBay_same (·.aux) s b cc _ fun _ => rfl
@[simp] theorem State.modAfe_bay_mon (s : State) (b : BayNo) (i : Fin 2) (f : AfeIn → AfeIn) (cc : BayNo) : ((State.modAfe s b i f).bay cc).mon = (s.bay cc).mon :=
  State.bay_modBay_same (·.mon) s b cc _ fun _ => rfl
@[simp] theorem State.modAfe_bay_jtag (s : State) (b : BayNo) (i : Fin 2) (f : AfeIn → AfeIn) (cc : BayNo) : ((State.modAfe s b i f).bay cc).jtag = (s.bay cc).jtag :=
  State.bay_modBay_same (·.jtag) s b cc _ fun _ => rfl
@[simp] theorem State.modAfe_nowAt (s : State) (b : BayNo) (i : Fin 2) (f : AfeIn → AfeIn) (cc : BayNo) : (State.modAfe s b i f).nowAt cc = s.nowAt cc :=
  congrArg (fun t : TbsBay => Tide.stamp t.tide) (State.modAfe_bay_tbs s b i f cc)
@[simp] theorem State.modAfe_now (s : State) (b : BayNo) (i : Fin 2) (f : AfeIn → AfeIn) : (State.modAfe s b i f).now = s.now := State.modAfe_nowAt s b i f 0
@[simp] theorem State.modAfe_alive (s : State) (b : BayNo) (i : Fin 2) (f : AfeIn → AfeIn) (cc : BayNo) : (State.modAfe s b i f).alive cc = s.alive cc :=
  State.alive_congr cc rfl rfl (State.modAfe_bay_lost s b i f cc)
@[simp] theorem State.modAfe_liveBays (s : State) (b : BayNo) (i : Fin 2) (f : AfeIn → AfeIn) : (State.modAfe s b i f).liveBays = s.liveBays :=
  State.liveBays_congr (State.modAfe_alive s b i f)
@[simp] theorem State.modAfe_bay_afe_self (s : State) (b : BayNo) (i : Fin 2) (f : AfeIn → AfeIn) : ((State.modAfe s b i f).bay b).afe = { (s.bay b).afe with inputs := (s.bay b).afe.inputs.set i (f (s.bay b).afe.inputs[i]) } :=
  congrArg (fun y : Bay => y.afe) (State.bay_modBay s b _)
theorem State.modAfe_bay_afe_ne (s : State) (b : BayNo) (i : Fin 2) (f : AfeIn → AfeIn) {cc : BayNo} (h : cc ≠ b) : ((State.modAfe s b i f).bay cc).afe = (s.bay cc).afe :=
  congrArg (fun y : Bay => y.afe) (State.bay_modBay_ne s _ h)

@[simp] theorem State.modAdc_part (s : State) (b : BayNo) (i : Fin 2) (f : Adc → Adc) : (State.modAdc s b i f).part = s.part := (rfl)
@[simp] theorem State.modAdc_vals (s : State) (b : BayNo) (i : Fin 2) (f : Adc → Adc) : (State.modAdc s b i f).vals = s.vals := (rfl)
@[simp] theorem State.modAdc_img (s : State) (b : BayNo) (i : Fin 2) (f : Adc → Adc) : (State.modAdc s b i f).img = s.img := (rfl)
@[simp] theorem State.modAdc_flash (s : State) (b : BayNo) (i : Fin 2) (f : Adc → Adc) : (State.modAdc s b i f).flash = s.flash := (rfl)
@[simp] theorem State.modAdc_tbs (s : State) (b : BayNo) (i : Fin 2) (f : Adc → Adc) : (State.modAdc s b i f).tbs = s.tbs := (rfl)
@[simp] theorem State.modAdc_sel (s : State) (b : BayNo) (i : Fin 2) (f : Adc → Adc) : (State.modAdc s b i f).sel = s.sel := (rfl)
@[simp] theorem State.modAdc_keeper (s : State) (b : BayNo) (i : Fin 2) (f : Adc → Adc) : (State.modAdc s b i f).keeper = s.keeper := (rfl)
@[simp] theorem State.modAdc_pwr (s : State) (b : BayNo) (i : Fin 2) (f : Adc → Adc) : (State.modAdc s b i f).pwr = s.pwr := (rfl)
@[simp] theorem State.modAdc_faults (s : State) (b : BayNo) (i : Fin 2) (f : Adc → Adc) : (State.modAdc s b i f).faults = s.faults := (rfl)
@[simp] theorem State.modAdc_trg (s : State) (b : BayNo) (i : Fin 2) (f : Adc → Adc) : (State.modAdc s b i f).trg = s.trg := (rfl)
@[simp] theorem State.modAdc_ident (s : State) (b : BayNo) (i : Fin 2) (f : Adc → Adc) : (State.modAdc s b i f).ident = s.ident := (rfl)
@[simp] theorem State.modAdc_eth (s : State) (b : BayNo) (i : Fin 2) (f : Adc → Adc) : (State.modAdc s b i f).eth = s.eth := (rfl)
@[simp] theorem State.modAdc_lnl (s : State) (b : BayNo) (i : Fin 2) (f : Adc → Adc) : (State.modAdc s b i f).lnl = s.lnl := (rfl)
@[simp] theorem State.modAdc_inj (s : State) (b : BayNo) (i : Fin 2) (f : Adc → Adc) : (State.modAdc s b i f).inj = s.inj := (rfl)
@[simp] theorem State.modAdc_clrPin (s : State) (b : BayNo) (i : Fin 2) (f : Adc → Adc) : (State.modAdc s b i f).clrPin = s.clrPin := (rfl)
@[simp] theorem State.modAdc_rstLow (s : State) (b : BayNo) (i : Fin 2) (f : Adc → Adc) : (State.modAdc s b i f).rstLow = s.rstLow := (rfl)
@[simp] theorem State.modAdc_fresh (s : State) (b : BayNo) (i : Fin 2) (f : Adc → Adc) : (State.modAdc s b i f).fresh = s.fresh := (rfl)
@[simp] theorem State.modAdc_outbox (s : State) (b : BayNo) (i : Fin 2) (f : Adc → Adc) : (State.modAdc s b i f).outbox = s.outbox := (rfl)
@[simp] theorem State.modAdc_pending (s : State) (b : BayNo) (i : Fin 2) (f : Adc → Adc) : (State.modAdc s b i f).pending = s.pending := (rfl)
@[simp] theorem State.modAdc_fld (s : State) (b : BayNo) (i : Fin 2) (f : Adc → Adc) (g : Field) (cc : BayNo) (j1 k1 : Nat) : (State.modAdc s b i f).fld g cc j1 k1 = s.fld g cc j1 k1 := (rfl)
@[simp] theorem State.modAdc_fldN (s : State) (b : BayNo) (i : Fin 2) (f : Adc → Adc) (g : Field) (cc : BayNo) (j1 k1 : Nat) : (State.modAdc s b i f).fldN g cc j1 k1 = s.fldN g cc j1 k1 := (rfl)
@[simp] theorem State.modAdc_fldB (s : State) (b : BayNo) (i : Fin 2) (f : Adc → Adc) (g : Field) (cc : BayNo) (j1 : Nat) : (State.modAdc s b i f).fldB g cc j1 = s.fldB g cc j1 := (rfl)
@[simp] theorem State.modAdc_pkgN (s : State) (b : BayNo) (i : Fin 2) (f : Adc → Adc) (g : Field) (j1 : Nat) : (State.modAdc s b i f).pkgN g j1 = s.pkgN g j1 := (rfl)
@[simp] theorem State.modAdc_bay_lost (s : State) (b : BayNo) (i : Fin 2) (f : Adc → Adc) (cc : BayNo) : ((State.modAdc s b i f).bay cc).lost = (s.bay cc).lost :=
  State.bay_modBay_same (·.lost) s b cc _ fun _ => rfl
@[simp] theorem State.modAdc_bay_clk (s : State) (b : BayNo) (i : Fin 2) (f : Adc → Adc) (cc : BayNo) : ((State.modAdc s b i f).bay cc).clk = (s.bay cc).clk :=
  State.bay_modBay_same (·.clk) s b cc _ fun _ => rfl
@[simp] theorem State.modAdc_bay_tbs (s : State) (b : BayNo) (i : Fin 2) (f : Adc → Adc) (cc : BayNo) : ((State.modAdc s b i f).bay cc).tbs = (s.bay cc).tbs :=
  State.bay_modBay_same (·.tbs) s b cc _ fun _ => rfl
@[simp] theorem State.modAdc_bay_que (s : State) (b : BayNo) (i : Fin 2) (f : Adc → Adc) (cc : BayNo) : ((State.modAdc s b i f).bay cc).que = (s.bay cc).que :=
  State.bay_modBay_same (·.que) s b cc _ fun _ => rfl
@[simp] theorem State.modAdc_bay_dma (s : State) (b : BayNo) (i : Fin 2) (f : Adc → Adc) (cc : BayNo) : ((State.modAdc s b i f).bay cc).dma = (s.bay cc).dma :=
  State.bay_modBay_same (·.dma) s b cc _ fun _ => rfl
@[simp] theorem State.modAdc_bay_pwr (s : State) (b : BayNo) (i : Fin 2) (f : Adc → Adc) (cc : BayNo) : ((State.modAdc s b i f).bay cc).pwr = (s.bay cc).pwr :=
  State.bay_modBay_same (·.pwr) s b cc _ fun _ => rfl
@[simp] theorem State.modAdc_bay_trg (s : State) (b : BayNo) (i : Fin 2) (f : Adc → Adc) (cc : BayNo) : ((State.modAdc s b i f).bay cc).trg = (s.bay cc).trg :=
  State.bay_modBay_same (·.trg) s b cc _ fun _ => rfl
@[simp] theorem State.modAdc_bay_afe (s : State) (b : BayNo) (i : Fin 2) (f : Adc → Adc) (cc : BayNo) : ((State.modAdc s b i f).bay cc).afe = (s.bay cc).afe :=
  State.bay_modBay_same (·.afe) s b cc _ fun _ => rfl
@[simp] theorem State.modAdc_bay_ddc (s : State) (b : BayNo) (i : Fin 2) (f : Adc → Adc) (cc : BayNo) : ((State.modAdc s b i f).bay cc).ddc = (s.bay cc).ddc :=
  State.bay_modBay_same (·.ddc) s b cc _ fun _ => rfl
@[simp] theorem State.modAdc_bay_xfm (s : State) (b : BayNo) (i : Fin 2) (f : Adc → Adc) (cc : BayNo) : ((State.modAdc s b i f).bay cc).xfm = (s.bay cc).xfm :=
  State.bay_modBay_same (·.xfm) s b cc _ fun _ => rfl
@[simp] theorem State.modAdc_bay_den (s : State) (b : BayNo) (i : Fin 2) (f : Adc → Adc) (cc : BayNo) : ((State.modAdc s b i f).bay cc).den = (s.bay cc).den :=
  State.bay_modBay_same (·.den) s b cc _ fun _ => rfl
@[simp] theorem State.modAdc_bay_mco (s : State) (b : BayNo) (i : Fin 2) (f : Adc → Adc) (cc : BayNo) : ((State.modAdc s b i f).bay cc).mco = (s.bay cc).mco :=
  State.bay_modBay_same (·.mco) s b cc _ fun _ => rfl
@[simp] theorem State.modAdc_bay_scn (s : State) (b : BayNo) (i : Fin 2) (f : Adc → Adc) (cc : BayNo) : ((State.modAdc s b i f).bay cc).scn = (s.bay cc).scn :=
  State.bay_modBay_same (·.scn) s b cc _ fun _ => rfl
@[simp] theorem State.modAdc_bay_recorder (s : State) (b : BayNo) (i : Fin 2) (f : Adc → Adc) (cc : BayNo) : ((State.modAdc s b i f).bay cc).recorder = (s.bay cc).recorder :=
  State.bay_modBay_same (·.recorder) s b cc _ fun _ => rfl
@[simp] theorem State.modAdc_bay_lne (s : State) (b : BayNo) (i : Fin 2) (f : Adc → Adc) (cc : BayNo) : ((State.modAdc s b i f).bay cc).lne = (s.bay cc).lne :=
  State.bay_modBay_same (·.lne) s b cc _ fun _ => rfl
@[simp] theorem State.modAdc_bay_pci (s : State) (b : BayNo) (i : Fin 2) (f : Adc → Adc) (cc : BayNo) : ((State.modAdc s b i f).bay cc).pci = (s.bay cc).pci :=
  State.bay_modBay_same (·.pci) s b cc _ fun _ => rfl
@[simp] theorem State.modAdc_bay_eth (s : State) (b : BayNo) (i : Fin 2) (f : Adc → Adc) (cc : BayNo) : ((State.modAdc s b i f).bay cc).eth = (s.bay cc).eth :=
  State.bay_modBay_same (·.eth) s b cc _ fun _ => rfl
@[simp] theorem State.modAdc_bay_jes (s : State) (b : BayNo) (i : Fin 2) (f : Adc → Adc) (cc : BayNo) : ((State.modAdc s b i f).bay cc).jes = (s.bay cc).jes :=
  State.bay_modBay_same (·.jes) s b cc _ fun _ => rfl
@[simp] theorem State.modAdc_bay_lnl (s : State) (b : BayNo) (i : Fin 2) (f : Adc → Adc) (cc : BayNo) : ((State.modAdc s b i f).bay cc).lnl = (s.bay cc).lnl :=
  State.bay_modBay_same (·.lnl) s b cc _ fun _ => rfl
@[simp] theorem State.modAdc_bay_cal (s : State) (b : BayNo) (i : Fin 2) (f : Adc → Adc) (cc : BayNo) : ((State.modAdc s b i f).bay cc).cal = (s.bay cc).cal :=
  State.bay_modBay_same (·.cal) s b cc _ fun _ => rfl
@[simp] theorem State.modAdc_bay_hkc (s : State) (b : BayNo) (i : Fin 2) (f : Adc → Adc) (cc : BayNo) : ((State.modAdc s b i f).bay cc).hkc = (s.bay cc).hkc :=
  State.bay_modBay_same (·.hkc) s b cc _ fun _ => rfl
@[simp] theorem State.modAdc_bay_aux (s : State) (b : BayNo) (i : Fin 2) (f : Adc → Adc) (cc : BayNo) : ((State.modAdc s b i f).bay cc).aux = (s.bay cc).aux :=
  State.bay_modBay_same (·.aux) s b cc _ fun _ => rfl
@[simp] theorem State.modAdc_bay_mon (s : State) (b : BayNo) (i : Fin 2) (f : Adc → Adc) (cc : BayNo) : ((State.modAdc s b i f).bay cc).mon = (s.bay cc).mon :=
  State.bay_modBay_same (·.mon) s b cc _ fun _ => rfl
@[simp] theorem State.modAdc_bay_jtag (s : State) (b : BayNo) (i : Fin 2) (f : Adc → Adc) (cc : BayNo) : ((State.modAdc s b i f).bay cc).jtag = (s.bay cc).jtag :=
  State.bay_modBay_same (·.jtag) s b cc _ fun _ => rfl
@[simp] theorem State.modAdc_nowAt (s : State) (b : BayNo) (i : Fin 2) (f : Adc → Adc) (cc : BayNo) : (State.modAdc s b i f).nowAt cc = s.nowAt cc :=
  congrArg (fun t : TbsBay => Tide.stamp t.tide) (State.modAdc_bay_tbs s b i f cc)
@[simp] theorem State.modAdc_now (s : State) (b : BayNo) (i : Fin 2) (f : Adc → Adc) : (State.modAdc s b i f).now = s.now := State.modAdc_nowAt s b i f 0
@[simp] theorem State.modAdc_alive (s : State) (b : BayNo) (i : Fin 2) (f : Adc → Adc) (cc : BayNo) : (State.modAdc s b i f).alive cc = s.alive cc :=
  State.alive_congr cc rfl rfl (State.modAdc_bay_lost s b i f cc)
@[simp] theorem State.modAdc_liveBays (s : State) (b : BayNo) (i : Fin 2) (f : Adc → Adc) : (State.modAdc s b i f).liveBays = s.liveBays :=
  State.liveBays_congr (State.modAdc_alive s b i f)
@[simp] theorem State.modAdc_bay_adc_self (s : State) (b : BayNo) (i : Fin 2) (f : Adc → Adc) : ((State.modAdc s b i f).bay b).adc = (s.bay b).adc.set i (f (s.bay b).adc[i]) :=
  congrArg (fun y : Bay => y.adc) (State.bay_modBay s b _)
theorem State.modAdc_bay_adc_ne (s : State) (b : BayNo) (i : Fin 2) (f : Adc → Adc) {cc : BayNo} (h : cc ≠ b) : ((State.modAdc s b i f).bay cc).adc = (s.bay cc).adc :=
  congrArg (fun y : Bay => y.adc) (State.bay_modBay_ne s _ h)

@[simp] theorem State.emit_part (s : State) (o : Output) : (State.emit s o).part = s.part := (rfl)
@[simp] theorem State.emit_bays (s : State) (o : Output) : (State.emit s o).bays = s.bays := (rfl)
@[simp] theorem State.emit_vals (s : State) (o : Output) : (State.emit s o).vals = s.vals := (rfl)
@[simp] theorem State.emit_img (s : State) (o : Output) : (State.emit s o).img = s.img := (rfl)
@[simp] theorem State.emit_flash (s : State) (o : Output) : (State.emit s o).flash = s.flash := (rfl)
@[simp] theorem State.emit_tbs (s : State) (o : Output) : (State.emit s o).tbs = s.tbs := (rfl)
@[simp] theorem State.emit_sel (s : State) (o : Output) : (State.emit s o).sel = s.sel := (rfl)
@[simp] theorem State.emit_keeper (s : State) (o : Output) : (State.emit s o).keeper = s.keeper := (rfl)
@[simp] theorem State.emit_pwr (s : State) (o : Output) : (State.emit s o).pwr = s.pwr := (rfl)
@[simp] theorem State.emit_faults (s : State) (o : Output) : (State.emit s o).faults = s.faults := (rfl)
@[simp] theorem State.emit_trg (s : State) (o : Output) : (State.emit s o).trg = s.trg := (rfl)
@[simp] theorem State.emit_ident (s : State) (o : Output) : (State.emit s o).ident = s.ident := (rfl)
@[simp] theorem State.emit_eth (s : State) (o : Output) : (State.emit s o).eth = s.eth := (rfl)
@[simp] theorem State.emit_lnl (s : State) (o : Output) : (State.emit s o).lnl = s.lnl := (rfl)
@[simp] theorem State.emit_inj (s : State) (o : Output) : (State.emit s o).inj = s.inj := (rfl)
@[simp] theorem State.emit_clrPin (s : State) (o : Output) : (State.emit s o).clrPin = s.clrPin := (rfl)
@[simp] theorem State.emit_rstLow (s : State) (o : Output) : (State.emit s o).rstLow = s.rstLow := (rfl)
@[simp] theorem State.emit_fresh (s : State) (o : Output) : (State.emit s o).fresh = s.fresh := (rfl)
@[simp] theorem State.emit_pending (s : State) (o : Output) : (State.emit s o).pending = s.pending := (rfl)
@[simp] theorem State.emit_fld (s : State) (o : Output) (g : Field) (cc : BayNo) (j1 k1 : Nat) : (State.emit s o).fld g cc j1 k1 = s.fld g cc j1 k1 := (rfl)
@[simp] theorem State.emit_fldN (s : State) (o : Output) (g : Field) (cc : BayNo) (j1 k1 : Nat) : (State.emit s o).fldN g cc j1 k1 = s.fldN g cc j1 k1 := (rfl)
@[simp] theorem State.emit_fldB (s : State) (o : Output) (g : Field) (cc : BayNo) (j1 : Nat) : (State.emit s o).fldB g cc j1 = s.fldB g cc j1 := (rfl)
@[simp] theorem State.emit_pkgN (s : State) (o : Output) (g : Field) (j1 : Nat) : (State.emit s o).pkgN g j1 = s.pkgN g j1 := (rfl)
@[simp] theorem State.emit_bay (s : State) (o : Output) (cc : BayNo) : (State.emit s o).bay cc = s.bay cc := (rfl)
@[simp] theorem State.emit_nowAt (s : State) (o : Output) (cc : BayNo) : (State.emit s o).nowAt cc = s.nowAt cc := (rfl)
@[simp] theorem State.emit_now (s : State) (o : Output) : (State.emit s o).now = s.now := (rfl)
@[simp] theorem State.emit_alive (s : State) (o : Output) (cc : BayNo) : (State.emit s o).alive cc = s.alive cc := (rfl)
@[simp] theorem State.emit_liveBays (s : State) (o : Output) : (State.emit s o).liveBays = s.liveBays := (rfl)
@[simp] theorem State.emit_outbox (s : State) (o : Output) : (State.emit s o).outbox = o :: s.outbox := (rfl)

@[simp] theorem State.modInj_part (s : State) (n : Fin 64) (f : Injector → Injector) : (State.modInj s n f).part = s.part := (rfl)
@[simp] theorem State.modInj_bays (s : State) (n : Fin 64) (f : Injector → Injector) : (State.modInj s n f).bays = s.bays := (rfl)
@[simp] theorem State.modInj_vals (s : State) (n : Fin 64) (f : Injector → Injector) : (State.modInj s n f).vals = s.vals := (rfl)
@[simp] theorem State.modInj_img (s : State) (n : Fin 64) (f : Injector → Injector) : (State.modInj s n f).img = s.img := (rfl)
@[simp] theorem State.modInj_flash (s : State) (n : Fin 64) (f : Injector → Injector) : (State.modInj s n f).flash = s.flash := (rfl)
@[simp] theorem State.modInj_tbs (s : State) (n : Fin 64) (f : Injector → Injector) : (State.modInj s n f).tbs = s.tbs := (rfl)
@[simp] theorem State.modInj_sel (s : State) (n : Fin 64) (f : Injector → Injector) : (State.modInj s n f).sel = s.sel := (rfl)
@[simp] theorem State.modInj_keeper (s : State) (n : Fin 64) (f : Injector → Injector) : (State.modInj s n f).keeper = s.keeper := (rfl)
@[simp] theorem State.modInj_pwr (s : State) (n : Fin 64) (f : Injector → Injector) : (State.modInj s n f).pwr = s.pwr := (rfl)
@[simp] theorem State.modInj_faults (s : State) (n : Fin 64) (f : Injector → Injector) : (State.modInj s n f).faults = s.faults := (rfl)
@[simp] theorem State.modInj_trg (s : State) (n : Fin 64) (f : Injector → Injector) : (State.modInj s n f).trg = s.trg := (rfl)
@[simp] theorem State.modInj_ident (s : State) (n : Fin 64) (f : Injector → Injector) : (State.modInj s n f).ident = s.ident := (rfl)
@[simp] theorem State.modInj_eth (s : State) (n : Fin 64) (f : Injector → Injector) : (State.modInj s n f).eth = s.eth := (rfl)
@[simp] theorem State.modInj_lnl (s : State) (n : Fin 64) (f : Injector → Injector) : (State.modInj s n f).lnl = s.lnl := (rfl)
@[simp] theorem State.modInj_clrPin (s : State) (n : Fin 64) (f : Injector → Injector) : (State.modInj s n f).clrPin = s.clrPin := (rfl)
@[simp] theorem State.modInj_rstLow (s : State) (n : Fin 64) (f : Injector → Injector) : (State.modInj s n f).rstLow = s.rstLow := (rfl)
@[simp] theorem State.modInj_fresh (s : State) (n : Fin 64) (f : Injector → Injector) : (State.modInj s n f).fresh = s.fresh := (rfl)
@[simp] theorem State.modInj_outbox (s : State) (n : Fin 64) (f : Injector → Injector) : (State.modInj s n f).outbox = s.outbox := (rfl)
@[simp] theorem State.modInj_pending (s : State) (n : Fin 64) (f : Injector → Injector) : (State.modInj s n f).pending = s.pending := (rfl)
@[simp] theorem State.modInj_fld (s : State) (n : Fin 64) (f : Injector → Injector) (g : Field) (cc : BayNo) (j1 k1 : Nat) : (State.modInj s n f).fld g cc j1 k1 = s.fld g cc j1 k1 := (rfl)
@[simp] theorem State.modInj_fldN (s : State) (n : Fin 64) (f : Injector → Injector) (g : Field) (cc : BayNo) (j1 k1 : Nat) : (State.modInj s n f).fldN g cc j1 k1 = s.fldN g cc j1 k1 := (rfl)
@[simp] theorem State.modInj_fldB (s : State) (n : Fin 64) (f : Injector → Injector) (g : Field) (cc : BayNo) (j1 : Nat) : (State.modInj s n f).fldB g cc j1 = s.fldB g cc j1 := (rfl)
@[simp] theorem State.modInj_pkgN (s : State) (n : Fin 64) (f : Injector → Injector) (g : Field) (j1 : Nat) : (State.modInj s n f).pkgN g j1 = s.pkgN g j1 := (rfl)
@[simp] theorem State.modInj_bay (s : State) (n : Fin 64) (f : Injector → Injector) (cc : BayNo) : (State.modInj s n f).bay cc = s.bay cc := (rfl)
@[simp] theorem State.modInj_nowAt (s : State) (n : Fin 64) (f : Injector → Injector) (cc : BayNo) : (State.modInj s n f).nowAt cc = s.nowAt cc := (rfl)
@[simp] theorem State.modInj_now (s : State) (n : Fin 64) (f : Injector → Injector) : (State.modInj s n f).now = s.now := (rfl)
@[simp] theorem State.modInj_alive (s : State) (n : Fin 64) (f : Injector → Injector) (cc : BayNo) : (State.modInj s n f).alive cc = s.alive cc := (rfl)
@[simp] theorem State.modInj_liveBays (s : State) (n : Fin 64) (f : Injector → Injector) : (State.modInj s n f).liveBays = s.liveBays := (rfl)

@[simp] theorem State.modSeal_part (s : State) (f : Seal → Seal) : (State.modSeal s f).part = s.part := (rfl)
@[simp] theorem State.modSeal_bays (s : State) (f : Seal → Seal) : (State.modSeal s f).bays = s.bays := (rfl)
@[simp] theorem State.modSeal_vals (s : State) (f : Seal → Seal) : (State.modSeal s f).vals = s.vals := (rfl)
@[simp] theorem State.modSeal_img (s : State) (f : Seal → Seal) : (State.modSeal s f).img = s.img := (rfl)
@[simp] theorem State.modSeal_flash (s : State) (f : Seal → Seal) : (State.modSeal s f).flash = s.flash := (rfl)
@[simp] theorem State.modSeal_tbs (s : State) (f : Seal → Seal) : (State.modSeal s f).tbs = s.tbs := (rfl)
@[simp] theorem State.modSeal_sel (s : State) (f : Seal → Seal) : (State.modSeal s f).sel = s.sel := (rfl)
@[simp] theorem State.modSeal_pwr (s : State) (f : Seal → Seal) : (State.modSeal s f).pwr = s.pwr := (rfl)
@[simp] theorem State.modSeal_faults (s : State) (f : Seal → Seal) : (State.modSeal s f).faults = s.faults := (rfl)
@[simp] theorem State.modSeal_trg (s : State) (f : Seal → Seal) : (State.modSeal s f).trg = s.trg := (rfl)
@[simp] theorem State.modSeal_ident (s : State) (f : Seal → Seal) : (State.modSeal s f).ident = s.ident := (rfl)
@[simp] theorem State.modSeal_eth (s : State) (f : Seal → Seal) : (State.modSeal s f).eth = s.eth := (rfl)
@[simp] theorem State.modSeal_lnl (s : State) (f : Seal → Seal) : (State.modSeal s f).lnl = s.lnl := (rfl)
@[simp] theorem State.modSeal_inj (s : State) (f : Seal → Seal) : (State.modSeal s f).inj = s.inj := (rfl)
@[simp] theorem State.modSeal_clrPin (s : State) (f : Seal → Seal) : (State.modSeal s f).clrPin = s.clrPin := (rfl)
@[simp] theorem State.modSeal_rstLow (s : State) (f : Seal → Seal) : (State.modSeal s f).rstLow = s.rstLow := (rfl)
@[simp] theorem State.modSeal_fresh (s : State) (f : Seal → Seal) : (State.modSeal s f).fresh = s.fresh := (rfl)
@[simp] theorem State.modSeal_outbox (s : State) (f : Seal → Seal) : (State.modSeal s f).outbox = s.outbox := (rfl)
@[simp] theorem State.modSeal_pending (s : State) (f : Seal → Seal) : (State.modSeal s f).pending = s.pending := (rfl)
@[simp] theorem State.modSeal_fld (s : State) (f : Seal → Seal) (g : Field) (cc : BayNo) (j1 k1 : Nat) : (State.modSeal s f).fld g cc j1 k1 = s.fld g cc j1 k1 := (rfl)
@[simp] theorem State.modSeal_fldN (s : State) (f : Seal → Seal) (g : Field) (cc : BayNo) (j1 k1 : Nat) : (State.modSeal s f).fldN g cc j1 k1 = s.fldN g cc j1 k1 := (rfl)
@[simp] theorem State.modSeal_fldB (s : State) (f : Seal → Seal) (g : Field) (cc : BayNo) (j1 : Nat) : (State.modSeal s f).fldB g cc j1 = s.fldB g cc j1 := (rfl)
@[simp] theorem State.modSeal_pkgN (s : State) (f : Seal → Seal) (g : Field) (j1 : Nat) : (State.modSeal s f).pkgN g j1 = s.pkgN g j1 := (rfl)
@[simp] theorem State.modSeal_bay (s : State) (f : Seal → Seal) (cc : BayNo) : (State.modSeal s f).bay cc = s.bay cc := (rfl)
@[simp] theorem State.modSeal_nowAt (s : State) (f : Seal → Seal) (cc : BayNo) : (State.modSeal s f).nowAt cc = s.nowAt cc := (rfl)
@[simp] theorem State.modSeal_now (s : State) (f : Seal → Seal) : (State.modSeal s f).now = s.now := (rfl)
@[simp] theorem State.modSeal_alive (s : State) (f : Seal → Seal) (cc : BayNo) : (State.modSeal s f).alive cc = s.alive cc := (rfl)
@[simp] theorem State.modSeal_liveBays (s : State) (f : Seal → Seal) : (State.modSeal s f).liveBays = s.liveBays := (rfl)
@[simp] theorem State.modSeal_keeper (s : State) (f : Seal → Seal) : (State.modSeal s f).keeper = f s.keeper := (rfl)

@[simp] theorem State.modIsland_part (s : State) (f : Island → Island) : (State.modIsland s f).part = s.part := (rfl)
@[simp] theorem State.modIsland_bays (s : State) (f : Island → Island) : (State.modIsland s f).bays = s.bays := (rfl)
@[simp] theorem State.modIsland_vals (s : State) (f : Island → Island) : (State.modIsland s f).vals = s.vals := (rfl)
@[simp] theorem State.modIsland_img (s : State) (f : Island → Island) : (State.modIsland s f).img = s.img := (rfl)
@[simp] theorem State.modIsland_flash (s : State) (f : Island → Island) : (State.modIsland s f).flash = s.flash := (rfl)
@[simp] theorem State.modIsland_tbs (s : State) (f : Island → Island) : (State.modIsland s f).tbs = s.tbs := (rfl)
@[simp] theorem State.modIsland_sel (s : State) (f : Island → Island) : (State.modIsland s f).sel = s.sel := (rfl)
@[simp] theorem State.modIsland_pwr (s : State) (f : Island → Island) : (State.modIsland s f).pwr = s.pwr := (rfl)
@[simp] theorem State.modIsland_faults (s : State) (f : Island → Island) : (State.modIsland s f).faults = s.faults := (rfl)
@[simp] theorem State.modIsland_trg (s : State) (f : Island → Island) : (State.modIsland s f).trg = s.trg := (rfl)
@[simp] theorem State.modIsland_ident (s : State) (f : Island → Island) : (State.modIsland s f).ident = s.ident := (rfl)
@[simp] theorem State.modIsland_eth (s : State) (f : Island → Island) : (State.modIsland s f).eth = s.eth := (rfl)
@[simp] theorem State.modIsland_lnl (s : State) (f : Island → Island) : (State.modIsland s f).lnl = s.lnl := (rfl)
@[simp] theorem State.modIsland_inj (s : State) (f : Island → Island) : (State.modIsland s f).inj = s.inj := (rfl)
@[simp] theorem State.modIsland_clrPin (s : State) (f : Island → Island) : (State.modIsland s f).clrPin = s.clrPin := (rfl)
@[simp] theorem State.modIsland_rstLow (s : State) (f : Island → Island) : (State.modIsland s f).rstLow = s.rstLow := (rfl)
@[simp] theorem State.modIsland_fresh (s : State) (f : Island → Island) : (State.modIsland s f).fresh = s.fresh := (rfl)
@[simp] theorem State.modIsland_outbox (s : State) (f : Island → Island) : (State.modIsland s f).outbox = s.outbox := (rfl)
@[simp] theorem State.modIsland_pending (s : State) (f : Island → Island) : (State.modIsland s f).pending = s.pending := (rfl)
@[simp] theorem State.modIsland_fld (s : State) (f : Island → Island) (g : Field) (cc : BayNo) (j1 k1 : Nat) : (State.modIsland s f).fld g cc j1 k1 = s.fld g cc j1 k1 := (rfl)
@[simp] theorem State.modIsland_fldN (s : State) (f : Island → Island) (g : Field) (cc : BayNo) (j1 k1 : Nat) : (State.modIsland s f).fldN g cc j1 k1 = s.fldN g cc j1 k1 := (rfl)
@[simp] theorem State.modIsland_fldB (s : State) (f : Island → Island) (g : Field) (cc : BayNo) (j1 : Nat) : (State.modIsland s f).fldB g cc j1 = s.fldB g cc j1 := (rfl)
@[simp] theorem State.modIsland_pkgN (s : State) (f : Island → Island) (g : Field) (j1 : Nat) : (State.modIsland s f).pkgN g j1 = s.pkgN g j1 := (rfl)
@[simp] theorem State.modIsland_bay (s : State) (f : Island → Island) (cc : BayNo) : (State.modIsland s f).bay cc = s.bay cc := (rfl)
@[simp] theorem State.modIsland_nowAt (s : State) (f : Island → Island) (cc : BayNo) : (State.modIsland s f).nowAt cc = s.nowAt cc := (rfl)
@[simp] theorem State.modIsland_now (s : State) (f : Island → Island) : (State.modIsland s f).now = s.now := (rfl)
@[simp] theorem State.modIsland_alive (s : State) (f : Island → Island) (cc : BayNo) : (State.modIsland s f).alive cc = s.alive cc := (rfl)
@[simp] theorem State.modIsland_liveBays (s : State) (f : Island → Island) : (State.modIsland s f).liveBays = s.liveBays := (rfl)

@[simp] theorem State.modGrid_part (s : State) (f : Grid → Grid) : (State.modGrid s f).part = s.part := (rfl)
@[simp] theorem State.modGrid_bays (s : State) (f : Grid → Grid) : (State.modGrid s f).bays = s.bays := (rfl)
@[simp] theorem State.modGrid_vals (s : State) (f : Grid → Grid) : (State.modGrid s f).vals = s.vals := (rfl)
@[simp] theorem State.modGrid_img (s : State) (f : Grid → Grid) : (State.modGrid s f).img = s.img := (rfl)
@[simp] theorem State.modGrid_flash (s : State) (f : Grid → Grid) : (State.modGrid s f).flash = s.flash := (rfl)
@[simp] theorem State.modGrid_sel (s : State) (f : Grid → Grid) : (State.modGrid s f).sel = s.sel := (rfl)
@[simp] theorem State.modGrid_keeper (s : State) (f : Grid → Grid) : (State.modGrid s f).keeper = s.keeper := (rfl)
@[simp] theorem State.modGrid_pwr (s : State) (f : Grid → Grid) : (State.modGrid s f).pwr = s.pwr := (rfl)
@[simp] theorem State.modGrid_faults (s : State) (f : Grid → Grid) : (State.modGrid s f).faults = s.faults := (rfl)
@[simp] theorem State.modGrid_trg (s : State) (f : Grid → Grid) : (State.modGrid s f).trg = s.trg := (rfl)
@[simp] theorem State.modGrid_ident (s : State) (f : Grid → Grid) : (State.modGrid s f).ident = s.ident := (rfl)
@[simp] theorem State.modGrid_eth (s : State) (f : Grid → Grid) : (State.modGrid s f).eth = s.eth := (rfl)
@[simp] theorem State.modGrid_lnl (s : State) (f : Grid → Grid) : (State.modGrid s f).lnl = s.lnl := (rfl)
@[simp] theorem State.modGrid_inj (s : State) (f : Grid → Grid) : (State.modGrid s f).inj = s.inj := (rfl)
@[simp] theorem State.modGrid_clrPin (s : State) (f : Grid → Grid) : (State.modGrid s f).clrPin = s.clrPin := (rfl)
@[simp] theorem State.modGrid_rstLow (s : State) (f : Grid → Grid) : (State.modGrid s f).rstLow = s.rstLow := (rfl)
@[simp] theorem State.modGrid_fresh (s : State) (f : Grid → Grid) : (State.modGrid s f).fresh = s.fresh := (rfl)
@[simp] theorem State.modGrid_outbox (s : State) (f : Grid → Grid) : (State.modGrid s f).outbox = s.outbox := (rfl)
@[simp] theorem State.modGrid_pending (s : State) (f : Grid → Grid) : (State.modGrid s f).pending = s.pending := (rfl)
@[simp] theorem State.modGrid_fld (s : State) (f : Grid → Grid) (g : Field) (cc : BayNo) (j1 k1 : Nat) : (State.modGrid s f).fld g cc j1 k1 = s.fld g cc j1 k1 := (rfl)
@[simp] theorem State.modGrid_fldN (s : State) (f : Grid → Grid) (g : Field) (cc : BayNo) (j1 k1 : Nat) : (State.modGrid s f).fldN g cc j1 k1 = s.fldN g cc j1 k1 := (rfl)
@[simp] theorem State.modGrid_fldB (s : State) (f : Grid → Grid) (g : Field) (cc : BayNo) (j1 : Nat) : (State.modGrid s f).fldB g cc j1 = s.fldB g cc j1 := (rfl)
@[simp] theorem State.modGrid_pkgN (s : State) (f : Grid → Grid) (g : Field) (j1 : Nat) : (State.modGrid s f).pkgN g j1 = s.pkgN g j1 := (rfl)
@[simp] theorem State.modGrid_bay (s : State) (f : Grid → Grid) (cc : BayNo) : (State.modGrid s f).bay cc = s.bay cc := (rfl)
@[simp] theorem State.modGrid_nowAt (s : State) (f : Grid → Grid) (cc : BayNo) : (State.modGrid s f).nowAt cc = s.nowAt cc := (rfl)
@[simp] theorem State.modGrid_now (s : State) (f : Grid → Grid) : (State.modGrid s f).now = s.now := (rfl)
@[simp] theorem State.modGrid_tbs (s : State) (f : Grid → Grid) : (State.modGrid s f).tbs = { s.tbs with grid := f s.tbs.grid } := (rfl)

@[simp] theorem State.modServo_part (s : State) (f : Discipline → Discipline) : (State.modServo s f).part = s.part := (rfl)
@[simp] theorem State.modServo_bays (s : State) (f : Discipline → Discipline) : (State.modServo s f).bays = s.bays := (rfl)
@[simp] theorem State.modServo_vals (s : State) (f : Discipline → Discipline) : (State.modServo s f).vals = s.vals := (rfl)
@[simp] theorem State.modServo_img (s : State) (f : Discipline → Discipline) : (State.modServo s f).img = s.img := (rfl)
@[simp] theorem State.modServo_flash (s : State) (f : Discipline → Discipline) : (State.modServo s f).flash = s.flash := (rfl)
@[simp] theorem State.modServo_sel (s : State) (f : Discipline → Discipline) : (State.modServo s f).sel = s.sel := (rfl)
@[simp] theorem State.modServo_keeper (s : State) (f : Discipline → Discipline) : (State.modServo s f).keeper = s.keeper := (rfl)
@[simp] theorem State.modServo_pwr (s : State) (f : Discipline → Discipline) : (State.modServo s f).pwr = s.pwr := (rfl)
@[simp] theorem State.modServo_faults (s : State) (f : Discipline → Discipline) : (State.modServo s f).faults = s.faults := (rfl)
@[simp] theorem State.modServo_trg (s : State) (f : Discipline → Discipline) : (State.modServo s f).trg = s.trg := (rfl)
@[simp] theorem State.modServo_ident (s : State) (f : Discipline → Discipline) : (State.modServo s f).ident = s.ident := (rfl)
@[simp] theorem State.modServo_eth (s : State) (f : Discipline → Discipline) : (State.modServo s f).eth = s.eth := (rfl)
@[simp] theorem State.modServo_lnl (s : State) (f : Discipline → Discipline) : (State.modServo s f).lnl = s.lnl := (rfl)
@[simp] theorem State.modServo_inj (s : State) (f : Discipline → Discipline) : (State.modServo s f).inj = s.inj := (rfl)
@[simp] theorem State.modServo_clrPin (s : State) (f : Discipline → Discipline) : (State.modServo s f).clrPin = s.clrPin := (rfl)
@[simp] theorem State.modServo_rstLow (s : State) (f : Discipline → Discipline) : (State.modServo s f).rstLow = s.rstLow := (rfl)
@[simp] theorem State.modServo_fresh (s : State) (f : Discipline → Discipline) : (State.modServo s f).fresh = s.fresh := (rfl)
@[simp] theorem State.modServo_outbox (s : State) (f : Discipline → Discipline) : (State.modServo s f).outbox = s.outbox := (rfl)
@[simp] theorem State.modServo_pending (s : State) (f : Discipline → Discipline) : (State.modServo s f).pending = s.pending := (rfl)
@[simp] theorem State.modServo_fld (s : State) (f : Discipline → Discipline) (g : Field) (cc : BayNo) (j1 k1 : Nat) : (State.modServo s f).fld g cc j1 k1 = s.fld g cc j1 k1 := (rfl)
@[simp] theorem State.modServo_fldN (s : State) (f : Discipline → Discipline) (g : Field) (cc : BayNo) (j1 k1 : Nat) : (State.modServo s f).fldN g cc j1 k1 = s.fldN g cc j1 k1 := (rfl)
@[simp] theorem State.modServo_fldB (s : State) (f : Discipline → Discipline) (g : Field) (cc : BayNo) (j1 : Nat) : (State.modServo s f).fldB g cc j1 = s.fldB g cc j1 := (rfl)
@[simp] theorem State.modServo_pkgN (s : State) (f : Discipline → Discipline) (g : Field) (j1 : Nat) : (State.modServo s f).pkgN g j1 = s.pkgN g j1 := (rfl)
@[simp] theorem State.modServo_bay (s : State) (f : Discipline → Discipline) (cc : BayNo) : (State.modServo s f).bay cc = s.bay cc := (rfl)
@[simp] theorem State.modServo_nowAt (s : State) (f : Discipline → Discipline) (cc : BayNo) : (State.modServo s f).nowAt cc = s.nowAt cc := (rfl)
@[simp] theorem State.modServo_now (s : State) (f : Discipline → Discipline) : (State.modServo s f).now = s.now := (rfl)
@[simp] theorem State.modServo_tbs (s : State) (f : Discipline → Discipline) : (State.modServo s f).tbs = { s.tbs with servo := f s.tbs.servo } := (rfl)

@[simp] theorem State.modImg_part (s : State) (f : Img → Img) : (State.modImg s f).part = s.part := (rfl)
@[simp] theorem State.modImg_bays (s : State) (f : Img → Img) : (State.modImg s f).bays = s.bays := (rfl)
@[simp] theorem State.modImg_vals (s : State) (f : Img → Img) : (State.modImg s f).vals = s.vals := (rfl)
@[simp] theorem State.modImg_flash (s : State) (f : Img → Img) : (State.modImg s f).flash = s.flash := (rfl)
@[simp] theorem State.modImg_tbs (s : State) (f : Img → Img) : (State.modImg s f).tbs = s.tbs := (rfl)
@[simp] theorem State.modImg_sel (s : State) (f : Img → Img) : (State.modImg s f).sel = s.sel := (rfl)
@[simp] theorem State.modImg_keeper (s : State) (f : Img → Img) : (State.modImg s f).keeper = s.keeper := (rfl)
@[simp] theorem State.modImg_pwr (s : State) (f : Img → Img) : (State.modImg s f).pwr = s.pwr := (rfl)
@[simp] theorem State.modImg_faults (s : State) (f : Img → Img) : (State.modImg s f).faults = s.faults := (rfl)
@[simp] theorem State.modImg_trg (s : State) (f : Img → Img) : (State.modImg s f).trg = s.trg := (rfl)
@[simp] theorem State.modImg_ident (s : State) (f : Img → Img) : (State.modImg s f).ident = s.ident := (rfl)
@[simp] theorem State.modImg_eth (s : State) (f : Img → Img) : (State.modImg s f).eth = s.eth := (rfl)
@[simp] theorem State.modImg_lnl (s : State) (f : Img → Img) : (State.modImg s f).lnl = s.lnl := (rfl)
@[simp] theorem State.modImg_inj (s : State) (f : Img → Img) : (State.modImg s f).inj = s.inj := (rfl)
@[simp] theorem State.modImg_clrPin (s : State) (f : Img → Img) : (State.modImg s f).clrPin = s.clrPin := (rfl)
@[simp] theorem State.modImg_rstLow (s : State) (f : Img → Img) : (State.modImg s f).rstLow = s.rstLow := (rfl)
@[simp] theorem State.modImg_fresh (s : State) (f : Img → Img) : (State.modImg s f).fresh = s.fresh := (rfl)
@[simp] theorem State.modImg_outbox (s : State) (f : Img → Img) : (State.modImg s f).outbox = s.outbox := (rfl)
@[simp] theorem State.modImg_pending (s : State) (f : Img → Img) : (State.modImg s f).pending = s.pending := (rfl)
@[simp] theorem State.modImg_fld (s : State) (f : Img → Img) (g : Field) (cc : BayNo) (j1 k1 : Nat) : (State.modImg s f).fld g cc j1 k1 = s.fld g cc j1 k1 := (rfl)
@[simp] theorem State.modImg_fldN (s : State) (f : Img → Img) (g : Field) (cc : BayNo) (j1 k1 : Nat) : (State.modImg s f).fldN g cc j1 k1 = s.fldN g cc j1 k1 := (rfl)
@[simp] theorem State.modImg_fldB (s : State) (f : Img → Img) (g : Field) (cc : BayNo) (j1 : Nat) : (State.modImg s f).fldB g cc j1 = s.fldB g cc j1 := (rfl)
@[simp] theorem State.modImg_pkgN (s : State) (f : Img → Img) (g : Field) (j1 : Nat) : (State.modImg s f).pkgN g j1 = s.pkgN g j1 := (rfl)
@[simp] theorem State.modImg_bay (s : State) (f : Img → Img) (cc : BayNo) : (State.modImg s f).bay cc = s.bay cc := (rfl)
@[simp] theorem State.modImg_nowAt (s : State) (f : Img → Img) (cc : BayNo) : (State.modImg s f).nowAt cc = s.nowAt cc := (rfl)
@[simp] theorem State.modImg_now (s : State) (f : Img → Img) : (State.modImg s f).now = s.now := (rfl)
@[simp] theorem State.modImg_alive (s : State) (f : Img → Img) (cc : BayNo) : (State.modImg s f).alive cc = s.alive cc := (rfl)
@[simp] theorem State.modImg_liveBays (s : State) (f : Img → Img) : (State.modImg s f).liveBays = s.liveBays := (rfl)
@[simp] theorem State.modImg_img (s : State) (f : Img → Img) : (State.modImg s f).img = f s.img := (rfl)

@[simp] theorem State.modBoot_part (s : State) (f : Boot → Boot) : (State.modBoot s f).part = s.part := (rfl)
@[simp] theorem State.modBoot_bays (s : State) (f : Boot → Boot) : (State.modBoot s f).bays = s.bays := (rfl)
@[simp] theorem State.modBoot_vals (s : State) (f : Boot → Boot) : (State.modBoot s f).vals = s.vals := (rfl)
@[simp] theorem State.modBoot_flash (s : State) (f : Boot → Boot) : (State.modBoot s f).flash = s.flash := (rfl)
@[simp] theorem State.modBoot_tbs (s : State) (f : Boot → Boot) : (State.modBoot s f).tbs = s.tbs := (rfl)
@[simp] theorem State.modBoot_sel (s : State) (f : Boot → Boot) : (State.modBoot s f).sel = s.sel := (rfl)
@[simp] theorem State.modBoot_keeper (s : State) (f : Boot → Boot) : (State.modBoot s f).keeper = s.keeper := (rfl)
@[simp] theorem State.modBoot_pwr (s : State) (f : Boot → Boot) : (State.modBoot s f).pwr = s.pwr := (rfl)
@[simp] theorem State.modBoot_faults (s : State) (f : Boot → Boot) : (State.modBoot s f).faults = s.faults := (rfl)
@[simp] theorem State.modBoot_trg (s : State) (f : Boot → Boot) : (State.modBoot s f).trg = s.trg := (rfl)
@[simp] theorem State.modBoot_ident (s : State) (f : Boot → Boot) : (State.modBoot s f).ident = s.ident := (rfl)
@[simp] theorem State.modBoot_eth (s : State) (f : Boot → Boot) : (State.modBoot s f).eth = s.eth := (rfl)
@[simp] theorem State.modBoot_lnl (s : State) (f : Boot → Boot) : (State.modBoot s f).lnl = s.lnl := (rfl)
@[simp] theorem State.modBoot_inj (s : State) (f : Boot → Boot) : (State.modBoot s f).inj = s.inj := (rfl)
@[simp] theorem State.modBoot_clrPin (s : State) (f : Boot → Boot) : (State.modBoot s f).clrPin = s.clrPin := (rfl)
@[simp] theorem State.modBoot_rstLow (s : State) (f : Boot → Boot) : (State.modBoot s f).rstLow = s.rstLow := (rfl)
@[simp] theorem State.modBoot_fresh (s : State) (f : Boot → Boot) : (State.modBoot s f).fresh = s.fresh := (rfl)
@[simp] theorem State.modBoot_outbox (s : State) (f : Boot → Boot) : (State.modBoot s f).outbox = s.outbox := (rfl)
@[simp] theorem State.modBoot_pending (s : State) (f : Boot → Boot) : (State.modBoot s f).pending = s.pending := (rfl)
@[simp] theorem State.modBoot_fld (s : State) (f : Boot → Boot) (g : Field) (cc : BayNo) (j1 k1 : Nat) : (State.modBoot s f).fld g cc j1 k1 = s.fld g cc j1 k1 := (rfl)
@[simp] theorem State.modBoot_fldN (s : State) (f : Boot → Boot) (g : Field) (cc : BayNo) (j1 k1 : Nat) : (State.modBoot s f).fldN g cc j1 k1 = s.fldN g cc j1 k1 := (rfl)
@[simp] theorem State.modBoot_fldB (s : State) (f : Boot → Boot) (g : Field) (cc : BayNo) (j1 : Nat) : (State.modBoot s f).fldB g cc j1 = s.fldB g cc j1 := (rfl)
@[simp] theorem State.modBoot_pkgN (s : State) (f : Boot → Boot) (g : Field) (j1 : Nat) : (State.modBoot s f).pkgN g j1 = s.pkgN g j1 := (rfl)
@[simp] theorem State.modBoot_bay (s : State) (f : Boot → Boot) (cc : BayNo) : (State.modBoot s f).bay cc = s.bay cc := (rfl)
@[simp] theorem State.modBoot_nowAt (s : State) (f : Boot → Boot) (cc : BayNo) : (State.modBoot s f).nowAt cc = s.nowAt cc := (rfl)
@[simp] theorem State.modBoot_now (s : State) (f : Boot → Boot) : (State.modBoot s f).now = s.now := (rfl)
@[simp] theorem State.modBoot_alive (s : State) (f : Boot → Boot) (cc : BayNo) : (State.modBoot s f).alive cc = s.alive cc := (rfl)
@[simp] theorem State.modBoot_liveBays (s : State) (f : Boot → Boot) : (State.modBoot s f).liveBays = s.liveBays := (rfl)

@[simp] theorem State.modPwr_part (s : State) (f : PwrPkg → PwrPkg) : (State.modPwr s f).part = s.part := (rfl)
@[simp] theorem State.modPwr_bays (s : State) (f : PwrPkg → PwrPkg) : (State.modPwr s f).bays = s.bays := (rfl)
@[simp] theorem State.modPwr_vals (s : State) (f : PwrPkg → PwrPkg) : (State.modPwr s f).vals = s.vals := (rfl)
@[simp] theorem State.modPwr_img (s : State) (f : PwrPkg → PwrPkg) : (State.modPwr s f).img = s.img := (rfl)
@[simp] theorem State.modPwr_flash (s : State) (f : PwrPkg → PwrPkg) : (State.modPwr s f).flash = s.flash := (rfl)
@[simp] theorem State.modPwr_tbs (s : State) (f : PwrPkg → PwrPkg) : (State.modPwr s f).tbs = s.tbs := (rfl)
@[simp] theorem State.modPwr_sel (s : State) (f : PwrPkg → PwrPkg) : (State.modPwr s f).sel = s.sel := (rfl)
@[simp] theorem State.modPwr_keeper (s : State) (f : PwrPkg → PwrPkg) : (State.modPwr s f).keeper = s.keeper := (rfl)
@[simp] theorem State.modPwr_faults (s : State) (f : PwrPkg → PwrPkg) : (State.modPwr s f).faults = s.faults := (rfl)
@[simp] theorem State.modPwr_trg (s : State) (f : PwrPkg → PwrPkg) : (State.modPwr s f).trg = s.trg := (rfl)
@[simp] theorem State.modPwr_ident (s : State) (f : PwrPkg → PwrPkg) : (State.modPwr s f).ident = s.ident := (rfl)
@[simp] theorem State.modPwr_eth (s : State) (f : PwrPkg → PwrPkg) : (State.modPwr s f).eth = s.eth := (rfl)
@[simp] theorem State.modPwr_lnl (s : State) (f : PwrPkg → PwrPkg) : (State.modPwr s f).lnl = s.lnl := (rfl)
@[simp] theorem State.modPwr_inj (s : State) (f : PwrPkg → PwrPkg) : (State.modPwr s f).inj = s.inj := (rfl)
@[simp] theorem State.modPwr_clrPin (s : State) (f : PwrPkg → PwrPkg) : (State.modPwr s f).clrPin = s.clrPin := (rfl)
@[simp] theorem State.modPwr_rstLow (s : State) (f : PwrPkg → PwrPkg) : (State.modPwr s f).rstLow = s.rstLow := (rfl)
@[simp] theorem State.modPwr_fresh (s : State) (f : PwrPkg → PwrPkg) : (State.modPwr s f).fresh = s.fresh := (rfl)
@[simp] theorem State.modPwr_outbox (s : State) (f : PwrPkg → PwrPkg) : (State.modPwr s f).outbox = s.outbox := (rfl)
@[simp] theorem State.modPwr_pending (s : State) (f : PwrPkg → PwrPkg) : (State.modPwr s f).pending = s.pending := (rfl)
@[simp] theorem State.modPwr_fld (s : State) (f : PwrPkg → PwrPkg) (g : Field) (cc : BayNo) (j1 k1 : Nat) : (State.modPwr s f).fld g cc j1 k1 = s.fld g cc j1 k1 := (rfl)
@[simp] theorem State.modPwr_fldN (s : State) (f : PwrPkg → PwrPkg) (g : Field) (cc : BayNo) (j1 k1 : Nat) : (State.modPwr s f).fldN g cc j1 k1 = s.fldN g cc j1 k1 := (rfl)
@[simp] theorem State.modPwr_fldB (s : State) (f : PwrPkg → PwrPkg) (g : Field) (cc : BayNo) (j1 : Nat) : (State.modPwr s f).fldB g cc j1 = s.fldB g cc j1 := (rfl)
@[simp] theorem State.modPwr_pkgN (s : State) (f : PwrPkg → PwrPkg) (g : Field) (j1 : Nat) : (State.modPwr s f).pkgN g j1 = s.pkgN g j1 := (rfl)
@[simp] theorem State.modPwr_bay (s : State) (f : PwrPkg → PwrPkg) (cc : BayNo) : (State.modPwr s f).bay cc = s.bay cc := (rfl)
@[simp] theorem State.modPwr_nowAt (s : State) (f : PwrPkg → PwrPkg) (cc : BayNo) : (State.modPwr s f).nowAt cc = s.nowAt cc := (rfl)
@[simp] theorem State.modPwr_now (s : State) (f : PwrPkg → PwrPkg) : (State.modPwr s f).now = s.now := (rfl)
@[simp] theorem State.modPwr_pwr (s : State) (f : PwrPkg → PwrPkg) : (State.modPwr s f).pwr = f s.pwr := (rfl)

@[simp] theorem State.modTrg_part (s : State) (f : TrgPkg → TrgPkg) : (State.modTrg s f).part = s.part := (rfl)
@[simp] theorem State.modTrg_bays (s : State) (f : TrgPkg → TrgPkg) : (State.modTrg s f).bays = s.bays := (rfl)
@[simp] theorem State.modTrg_vals (s : State) (f : TrgPkg → TrgPkg) : (State.modTrg s f).vals = s.vals := (rfl)
@[simp] theorem State.modTrg_img (s : State) (f : TrgPkg → TrgPkg) : (State.modTrg s f).img = s.img := (rfl)
@[simp] theorem State.modTrg_flash (s : State) (f : TrgPkg → TrgPkg) : (State.modTrg s f).flash = s.flash := (rfl)
@[simp] theorem State.modTrg_tbs (s : State) (f : TrgPkg → TrgPkg) : (State.modTrg s f).tbs = s.tbs := (rfl)
@[simp] theorem State.modTrg_sel (s : State) (f : TrgPkg → TrgPkg) : (State.modTrg s f).sel = s.sel := (rfl)
@[simp] theorem State.modTrg_keeper (s : State) (f : TrgPkg → TrgPkg) : (State.modTrg s f).keeper = s.keeper := (rfl)
@[simp] theorem State.modTrg_pwr (s : State) (f : TrgPkg → TrgPkg) : (State.modTrg s f).pwr = s.pwr := (rfl)
@[simp] theorem State.modTrg_faults (s : State) (f : TrgPkg → TrgPkg) : (State.modTrg s f).faults = s.faults := (rfl)
@[simp] theorem State.modTrg_ident (s : State) (f : TrgPkg → TrgPkg) : (State.modTrg s f).ident = s.ident := (rfl)
@[simp] theorem State.modTrg_eth (s : State) (f : TrgPkg → TrgPkg) : (State.modTrg s f).eth = s.eth := (rfl)
@[simp] theorem State.modTrg_lnl (s : State) (f : TrgPkg → TrgPkg) : (State.modTrg s f).lnl = s.lnl := (rfl)
@[simp] theorem State.modTrg_inj (s : State) (f : TrgPkg → TrgPkg) : (State.modTrg s f).inj = s.inj := (rfl)
@[simp] theorem State.modTrg_clrPin (s : State) (f : TrgPkg → TrgPkg) : (State.modTrg s f).clrPin = s.clrPin := (rfl)
@[simp] theorem State.modTrg_rstLow (s : State) (f : TrgPkg → TrgPkg) : (State.modTrg s f).rstLow = s.rstLow := (rfl)
@[simp] theorem State.modTrg_fresh (s : State) (f : TrgPkg → TrgPkg) : (State.modTrg s f).fresh = s.fresh := (rfl)
@[simp] theorem State.modTrg_outbox (s : State) (f : TrgPkg → TrgPkg) : (State.modTrg s f).outbox = s.outbox := (rfl)
@[simp] theorem State.modTrg_pending (s : State) (f : TrgPkg → TrgPkg) : (State.modTrg s f).pending = s.pending := (rfl)
@[simp] theorem State.modTrg_fld (s : State) (f : TrgPkg → TrgPkg) (g : Field) (cc : BayNo) (j1 k1 : Nat) : (State.modTrg s f).fld g cc j1 k1 = s.fld g cc j1 k1 := (rfl)
@[simp] theorem State.modTrg_fldN (s : State) (f : TrgPkg → TrgPkg) (g : Field) (cc : BayNo) (j1 k1 : Nat) : (State.modTrg s f).fldN g cc j1 k1 = s.fldN g cc j1 k1 := (rfl)
@[simp] theorem State.modTrg_fldB (s : State) (f : TrgPkg → TrgPkg) (g : Field) (cc : BayNo) (j1 : Nat) : (State.modTrg s f).fldB g cc j1 = s.fldB g cc j1 := (rfl)
@[simp] theorem State.modTrg_pkgN (s : State) (f : TrgPkg → TrgPkg) (g : Field) (j1 : Nat) : (State.modTrg s f).pkgN g j1 = s.pkgN g j1 := (rfl)
@[simp] theorem State.modTrg_bay (s : State) (f : TrgPkg → TrgPkg) (cc : BayNo) : (State.modTrg s f).bay cc = s.bay cc := (rfl)
@[simp] theorem State.modTrg_nowAt (s : State) (f : TrgPkg → TrgPkg) (cc : BayNo) : (State.modTrg s f).nowAt cc = s.nowAt cc := (rfl)
@[simp] theorem State.modTrg_now (s : State) (f : TrgPkg → TrgPkg) : (State.modTrg s f).now = s.now := (rfl)
@[simp] theorem State.modTrg_alive (s : State) (f : TrgPkg → TrgPkg) (cc : BayNo) : (State.modTrg s f).alive cc = s.alive cc := (rfl)
@[simp] theorem State.modTrg_liveBays (s : State) (f : TrgPkg → TrgPkg) : (State.modTrg s f).liveBays = s.liveBays := (rfl)
@[simp] theorem State.modTrg_trg (s : State) (f : TrgPkg → TrgPkg) : (State.modTrg s f).trg = f s.trg := (rfl)

@[simp] theorem State.modExt_part (s : State) (n : Fin 2) (f : ExtLink → ExtLink) : (State.modExt s n f).part = s.part := (rfl)
@[simp] theorem State.modExt_bays (s : State) (n : Fin 2) (f : ExtLink → ExtLink) : (State.modExt s n f).bays = s.bays := (rfl)
@[simp] theorem State.modExt_vals (s : State) (n : Fin 2) (f : ExtLink → ExtLink) : (State.modExt s n f).vals = s.vals := (rfl)
@[simp] theorem State.modExt_img (s : State) (n : Fin 2) (f : ExtLink → ExtLink) : (State.modExt s n f).img = s.img := (rfl)
@[simp] theorem State.modExt_flash (s : State) (n : Fin 2) (f : ExtLink → ExtLink) : (State.modExt s n f).flash = s.flash := (rfl)
@[simp] theorem State.modExt_tbs (s : State) (n : Fin 2) (f : ExtLink → ExtLink) : (State.modExt s n f).tbs = s.tbs := (rfl)
@[simp] theorem State.modExt_sel (s : State) (n : Fin 2) (f : ExtLink → ExtLink) : (State.modExt s n f).sel = s.sel := (rfl)
@[simp] theorem State.modExt_keeper (s : State) (n : Fin 2) (f : ExtLink → ExtLink) : (State.modExt s n f).keeper = s.keeper := (rfl)
@[simp] theorem State.modExt_pwr (s : State) (n : Fin 2) (f : ExtLink → ExtLink) : (State.modExt s n f).pwr = s.pwr := (rfl)
@[simp] theorem State.modExt_faults (s : State) (n : Fin 2) (f : ExtLink → ExtLink) : (State.modExt s n f).faults = s.faults := (rfl)
@[simp] theorem State.modExt_trg (s : State) (n : Fin 2) (f : ExtLink → ExtLink) : (State.modExt s n f).trg = s.trg := (rfl)
@[simp] theorem State.modExt_ident (s : State) (n : Fin 2) (f : ExtLink → ExtLink) : (State.modExt s n f).ident = s.ident := (rfl)
@[simp] theorem State.modExt_eth (s : State) (n : Fin 2) (f : ExtLink → ExtLink) : (State.modExt s n f).eth = s.eth := (rfl)
@[simp] theorem State.modExt_inj (s : State) (n : Fin 2) (f : ExtLink → ExtLink) : (State.modExt s n f).inj = s.inj := (rfl)
@[simp] theorem State.modExt_clrPin (s : State) (n : Fin 2) (f : ExtLink → ExtLink) : (State.modExt s n f).clrPin = s.clrPin := (rfl)
@[simp] theorem State.modExt_rstLow (s : State) (n : Fin 2) (f : ExtLink → ExtLink) : (State.modExt s n f).rstLow = s.rstLow := (rfl)
@[simp] theorem State.modExt_fresh (s : State) (n : Fin 2) (f : ExtLink → ExtLink) : (State.modExt s n f).fresh = s.fresh := (rfl)
@[simp] theorem State.modExt_outbox (s : State) (n : Fin 2) (f : ExtLink → ExtLink) : (State.modExt s n f).outbox = s.outbox := (rfl)
@[simp] theorem State.modExt_pending (s : State) (n : Fin 2) (f : ExtLink → ExtLink) : (State.modExt s n f).pending = s.pending := (rfl)
@[simp] theorem State.modExt_fld (s : State) (n : Fin 2) (f : ExtLink → ExtLink) (g : Field) (cc : BayNo) (j1 k1 : Nat) : (State.modExt s n f).fld g cc j1 k1 = s.fld g cc j1 k1 := (rfl)
@[simp] theorem State.modExt_fldN (s : State) (n : Fin 2) (f : ExtLink → ExtLink) (g : Field) (cc : BayNo) (j1 k1 : Nat) : (State.modExt s n f).fldN g cc j1 k1 = s.fldN g cc j1 k1 := (rfl)
@[simp] theorem State.modExt_fldB (s : State) (n : Fin 2) (f : ExtLink → ExtLink) (g : Field) (cc : BayNo) (j1 : Nat) : (State.modExt s n f).fldB g cc j1 = s.fldB g cc j1 := (rfl)
@[simp] theorem State.modExt_pkgN (s : State) (n : Fin 2) (f : ExtLink → ExtLink) (g : Field) (j1 : Nat) : (State.modExt s n f).pkgN g j1 = s.pkgN g j1 := (rfl)
@[simp] theorem State.modExt_bay (s : State) (n : Fin 2) (f : ExtLink → ExtLink) (cc : BayNo) : (State.modExt s n f).bay cc = s.bay cc := (rfl)
@[simp] theorem State.modExt_nowAt (s : State) (n : Fin 2) (f : ExtLink → ExtLink) (cc : BayNo) : (State.modExt s n f).nowAt cc = s.nowAt cc := (rfl)
@[simp] theorem State.modExt_now (s : State) (n : Fin 2) (f : ExtLink → ExtLink) : (State.modExt s n f).now = s.now := (rfl)
@[simp] theorem State.modExt_alive (s : State) (n : Fin 2) (f : ExtLink → ExtLink) (cc : BayNo) : (State.modExt s n f).alive cc = s.alive cc := (rfl)
@[simp] theorem State.modExt_liveBays (s : State) (n : Fin 2) (f : ExtLink → ExtLink) : (State.modExt s n f).liveBays = s.liveBays := (rfl)

@[simp] theorem State.modStream_part (s : State) (n : Fin 64) (f : EthStream → EthStream) : (State.modStream s n f).part = s.part := (rfl)
@[simp] theorem State.modStream_bays (s : State) (n : Fin 64) (f : EthStream → EthStream) : (State.modStream s n f).bays = s.bays := (rfl)
@[simp] theorem State.modStream_vals (s : State) (n : Fin 64) (f : EthStream → EthStream) : (State.modStream s n f).vals = s.vals := (rfl)
@[simp] theorem State.modStream_img (s : State) (n : Fin 64) (f : EthStream → EthStream) : (State.modStream s n f).img = s.img := (rfl)
@[simp] theorem State.modStream_flash (s : State) (n : Fin 64) (f : EthStream → EthStream) : (State.modStream s n f).flash = s.flash := (rfl)
@[simp] theorem State.modStream_tbs (s : State) (n : Fin 64) (f : EthStream → EthStream) : (State.modStream s n f).tbs = s.tbs := (rfl)
@[simp] theorem State.modStream_sel (s : State) (n : Fin 64) (f : EthStream → EthStream) : (State.modStream s n f).sel = s.sel := (rfl)
@[simp] theorem State.modStream_keeper (s : State) (n : Fin 64) (f : EthStream → EthStream) : (State.modStream s n f).keeper = s.keeper := (rfl)
@[simp] theorem State.modStream_pwr (s : State) (n : Fin 64) (f : EthStream → EthStream) : (State.modStream s n f).pwr = s.pwr := (rfl)
@[simp] theorem State.modStream_faults (s : State) (n : Fin 64) (f : EthStream → EthStream) : (State.modStream s n f).faults = s.faults := (rfl)
@[simp] theorem State.modStream_trg (s : State) (n : Fin 64) (f : EthStream → EthStream) : (State.modStream s n f).trg = s.trg := (rfl)
@[simp] theorem State.modStream_ident (s : State) (n : Fin 64) (f : EthStream → EthStream) : (State.modStream s n f).ident = s.ident := (rfl)
@[simp] theorem State.modStream_lnl (s : State) (n : Fin 64) (f : EthStream → EthStream) : (State.modStream s n f).lnl = s.lnl := (rfl)
@[simp] theorem State.modStream_inj (s : State) (n : Fin 64) (f : EthStream → EthStream) : (State.modStream s n f).inj = s.inj := (rfl)
@[simp] theorem State.modStream_clrPin (s : State) (n : Fin 64) (f : EthStream → EthStream) : (State.modStream s n f).clrPin = s.clrPin := (rfl)
@[simp] theorem State.modStream_rstLow (s : State) (n : Fin 64) (f : EthStream → EthStream) : (State.modStream s n f).rstLow = s.rstLow := (rfl)
@[simp] theorem State.modStream_fresh (s : State) (n : Fin 64) (f : EthStream → EthStream) : (State.modStream s n f).fresh = s.fresh := (rfl)
@[simp] theorem State.modStream_outbox (s : State) (n : Fin 64) (f : EthStream → EthStream) : (State.modStream s n f).outbox = s.outbox := (rfl)
@[simp] theorem State.modStream_pending (s : State) (n : Fin 64) (f : EthStream → EthStream) : (State.modStream s n f).pending = s.pending := (rfl)
@[simp] theorem State.modStream_fld (s : State) (n : Fin 64) (f : EthStream → EthStream) (g : Field) (cc : BayNo) (j1 k1 : Nat) : (State.modStream s n f).fld g cc j1 k1 = s.fld g cc j1 k1 := (rfl)
@[simp] theorem State.modStream_fldN (s : State) (n : Fin 64) (f : EthStream → EthStream) (g : Field) (cc : BayNo) (j1 k1 : Nat) : (State.modStream s n f).fldN g cc j1 k1 = s.fldN g cc j1 k1 := (rfl)
@[simp] theorem State.modStream_fldB (s : State) (n : Fin 64) (f : EthStream → EthStream) (g : Field) (cc : BayNo) (j1 : Nat) : (State.modStream s n f).fldB g cc j1 = s.fldB g cc j1 := (rfl)
@[simp] theorem State.modStream_pkgN (s : State) (n : Fin 64) (f : EthStream → EthStream) (g : Field) (j1 : Nat) : (State.modStream s n f).pkgN g j1 = s.pkgN g j1 := (rfl)
@[simp] theorem State.modStream_bay (s : State) (n : Fin 64) (f : EthStream → EthStream) (cc : BayNo) : (State.modStream s n f).bay cc = s.bay cc := (rfl)
@[simp] theorem State.modStream_nowAt (s : State) (n : Fin 64) (f : EthStream → EthStream) (cc : BayNo) : (State.modStream s n f).nowAt cc = s.nowAt cc := (rfl)
@[simp] theorem State.modStream_now (s : State) (n : Fin 64) (f : EthStream → EthStream) : (State.modStream s n f).now = s.now := (rfl)
@[simp] theorem State.modStream_alive (s : State) (n : Fin 64) (f : EthStream → EthStream) (cc : BayNo) : (State.modStream s n f).alive cc = s.alive cc := (rfl)
@[simp] theorem State.modStream_liveBays (s : State) (n : Fin 64) (f : EthStream → EthStream) : (State.modStream s n f).liveBays = s.liveBays := (rfl)

@[simp] theorem State.setFld_part (s : State) (fl : Field) (b : BayNo) (i : Nat) (v : Int) : (State.setFld s fl b i v).part = s.part := (rfl)
@[simp] theorem State.setFld_bays (s : State) (fl : Field) (b : BayNo) (i : Nat) (v : Int) : (State.setFld s fl b i v).bays = s.bays := (rfl)
@[simp] theorem State.setFld_img (s : State) (fl : Field) (b : BayNo) (i : Nat) (v : Int) : (State.setFld s fl b i v).img = s.img := (rfl)
@[simp] theorem State.setFld_flash (s : State) (fl : Field) (b : BayNo) (i : Nat) (v : Int) : (State.setFld s fl b i v).flash = s.flash := (rfl)
@[simp] theorem State.setFld_tbs (s : State) (fl : Field) (b : BayNo) (i : Nat) (v : Int) : (State.setFld s fl b i v).tbs = s.tbs := (rfl)
@[simp] theorem State.setFld_sel (s : State) (fl : Field) (b : BayNo) (i : Nat) (v : Int) : (State.setFld s fl b i v).sel = s.sel := (rfl)
@[simp] theorem State.setFld_keeper (s : State) (fl : Field) (b : BayNo) (i : Nat) (v : Int) : (State.setFld s fl b i v).keeper = s.keeper := (rfl)
@[simp] theorem State.setFld_pwr (s : State) (fl : Field) (b : BayNo) (i : Nat) (v : Int) : (State.setFld s fl b i v).pwr = s.pwr := (rfl)
@[simp] theorem State.setFld_faults (s : State) (fl : Field) (b : BayNo) (i : Nat) (v : Int) : (State.setFld s fl b i v).faults = s.faults := (rfl)
@[simp] theorem State.setFld_trg (s : State) (fl : Field) (b : BayNo) (i : Nat) (v : Int) : (State.setFld s fl b i v).trg = s.trg := (rfl)
@[simp] theorem State.setFld_ident (s : State) (fl : Field) (b : BayNo) (i : Nat) (v : Int) : (State.setFld s fl b i v).ident = s.ident := (rfl)
@[simp] theorem State.setFld_eth (s : State) (fl : Field) (b : BayNo) (i : Nat) (v : Int) : (State.setFld s fl b i v).eth = s.eth := (rfl)
@[simp] theorem State.setFld_lnl (s : State) (fl : Field) (b : BayNo) (i : Nat) (v : Int) : (State.setFld s fl b i v).lnl = s.lnl := (rfl)
@[simp] theorem State.setFld_inj (s : State) (fl : Field) (b : BayNo) (i : Nat) (v : Int) : (State.setFld s fl b i v).inj = s.inj := (rfl)
@[simp] theorem State.setFld_clrPin (s : State) (fl : Field) (b : BayNo) (i : Nat) (v : Int) : (State.setFld s fl b i v).clrPin = s.clrPin := (rfl)
@[simp] theorem State.setFld_rstLow (s : State) (fl : Field) (b : BayNo) (i : Nat) (v : Int) : (State.setFld s fl b i v).rstLow = s.rstLow := (rfl)
@[simp] theorem State.setFld_fresh (s : State) (fl : Field) (b : BayNo) (i : Nat) (v : Int) : (State.setFld s fl b i v).fresh = s.fresh := (rfl)
@[simp] theorem State.setFld_outbox (s : State) (fl : Field) (b : BayNo) (i : Nat) (v : Int) : (State.setFld s fl b i v).outbox = s.outbox := (rfl)
@[simp] theorem State.setFld_pending (s : State) (fl : Field) (b : BayNo) (i : Nat) (v : Int) : (State.setFld s fl b i v).pending = s.pending := (rfl)




@[simp] theorem State.setFld_bay (s : State) (fl : Field) (b : BayNo) (i : Nat) (v : Int) (cc : BayNo) : (State.setFld s fl b i v).bay cc = s.bay cc := (rfl)
@[simp] theorem State.setFld_nowAt (s : State) (fl : Field) (b : BayNo) (i : Nat) (v : Int) (cc : BayNo) : (State.setFld s fl b i v).nowAt cc = s.nowAt cc := (rfl)
@[simp] theorem State.setFld_now (s : State) (fl : Field) (b : BayNo) (i : Nat) (v : Int) : (State.setFld s fl b i v).now = s.now := (rfl)
@[simp] theorem State.setFld_alive (s : State) (fl : Field) (b : BayNo) (i : Nat) (v : Int) (cc : BayNo) : (State.setFld s fl b i v).alive cc = s.alive cc := (rfl)
@[simp] theorem State.setFld_liveBays (s : State) (fl : Field) (b : BayNo) (i : Nat) (v : Int) : (State.setFld s fl b i v).liveBays = s.liveBays := (rfl)

@[simp] theorem State.alert_part (s : State) (i : Nat) : (State.alert s i).part = s.part := (rfl)
@[simp] theorem State.alert_bays (s : State) (i : Nat) : (State.alert s i).bays = s.bays := (rfl)
@[simp] theorem State.alert_vals (s : State) (i : Nat) : (State.alert s i).vals = s.vals := (rfl)
@[simp] theorem State.alert_img (s : State) (i : Nat) : (State.alert s i).img = s.img := (rfl)
@[simp] theorem State.alert_flash (s : State) (i : Nat) : (State.alert s i).flash = s.flash := (rfl)
@[simp] theorem State.alert_tbs (s : State) (i : Nat) : (State.alert s i).tbs = s.tbs := (rfl)
@[simp] theorem State.alert_sel (s : State) (i : Nat) : (State.alert s i).sel = s.sel := (rfl)
@[simp] theorem State.alert_keeper (s : State) (i : Nat) : (State.alert s i).keeper = s.keeper := (rfl)
@[simp] theorem State.alert_pwr (s : State) (i : Nat) : (State.alert s i).pwr = s.pwr := (rfl)
@[simp] theorem State.alert_faults (s : State) (i : Nat) : (State.alert s i).faults = s.faults := (rfl)
@[simp] theorem State.alert_trg (s : State) (i : Nat) : (State.alert s i).trg = s.trg := (rfl)
@[simp] theorem State.alert_eth (s : State) (i : Nat) : (State.alert s i).eth = s.eth := (rfl)
@[simp] theorem State.alert_lnl (s : State) (i : Nat) : (State.alert s i).lnl = s.lnl := (rfl)
@[simp] theorem State.alert_inj (s : State) (i : Nat) : (State.alert s i).inj = s.inj := (rfl)
@[simp] theorem State.alert_clrPin (s : State) (i : Nat) : (State.alert s i).clrPin = s.clrPin := (rfl)
@[simp] theorem State.alert_rstLow (s : State) (i : Nat) : (State.alert s i).rstLow = s.rstLow := (rfl)
@[simp] theorem State.alert_fresh (s : State) (i : Nat) : (State.alert s i).fresh = s.fresh := (rfl)
@[simp] theorem State.alert_outbox (s : State) (i : Nat) : (State.alert s i).outbox = s.outbox := (rfl)
@[simp] theorem State.alert_pending (s : State) (i : Nat) : (State.alert s i).pending = s.pending := (rfl)
@[simp] theorem State.alert_fld (s : State) (i : Nat) (g : Field) (cc : BayNo) (j1 k1 : Nat) : (State.alert s i).fld g cc j1 k1 = s.fld g cc j1 k1 := (rfl)
@[simp] theorem State.alert_fldN (s : State) (i : Nat) (g : Field) (cc : BayNo) (j1 k1 : Nat) : (State.alert s i).fldN g cc j1 k1 = s.fldN g cc j1 k1 := (rfl)
@[simp] theorem State.alert_fldB (s : State) (i : Nat) (g : Field) (cc : BayNo) (j1 : Nat) : (State.alert s i).fldB g cc j1 = s.fldB g cc j1 := (rfl)
@[simp] theorem State.alert_pkgN (s : State) (i : Nat) (g : Field) (j1 : Nat) : (State.alert s i).pkgN g j1 = s.pkgN g j1 := (rfl)
@[simp] theorem State.alert_bay (s : State) (i : Nat) (cc : BayNo) : (State.alert s i).bay cc = s.bay cc := (rfl)
@[simp] theorem State.alert_nowAt (s : State) (i : Nat) (cc : BayNo) : (State.alert s i).nowAt cc = s.nowAt cc := (rfl)
@[simp] theorem State.alert_now (s : State) (i : Nat) : (State.alert s i).now = s.now := (rfl)
@[simp] theorem State.alert_alive (s : State) (i : Nat) (cc : BayNo) : (State.alert s i).alive cc = s.alive cc := (rfl)
@[simp] theorem State.alert_liveBays (s : State) (i : Nat) : (State.alert s i).liveBays = s.liveBays := (rfl)

@[simp] theorem State.faultRepair_part (s : State) (x : FaultId) : (State.faultRepair s x).part = s.part := (rfl)
@[simp] theorem State.faultRepair_bays (s : State) (x : FaultId) : (State.faultRepair s x).bays = s.bays := (rfl)
@[simp] theorem State.faultRepair_vals (s : State) (x : FaultId) : (State.faultRepair s x).vals = s.vals := (rfl)
@[simp] theorem State.faultRepair_img (s : State) (x : FaultId) : (State.faultRepair s x).img = s.img := (rfl)
@[simp] theorem State.faultRepair_flash (s : State) (x : FaultId) : (State.faultRepair s x).flash = s.flash := (rfl)
@[simp] theorem State.faultRepair_tbs (s : State) (x : FaultId) : (State.faultRepair s x).tbs = s.tbs := (rfl)
@[simp] theorem State.faultRepair_sel (s : State) (x : FaultId) : (State.faultRepair s x).sel = s.sel := (rfl)
@[simp] theorem State.faultRepair_keeper (s : State) (x : FaultId) : (State.faultRepair s x).keeper = s.keeper := (rfl)
@[simp] theorem State.faultRepair_pwr (s : State) (x : FaultId) : (State.faultRepair s x).pwr = s.pwr := (rfl)
@[simp] theorem State.faultRepair_trg (s : State) (x : FaultId) : (State.faultRepair s x).trg = s.trg := (rfl)
@[simp] theorem State.faultRepair_ident (s : State) (x : FaultId) : (State.faultRepair s x).ident = s.ident := (rfl)
@[simp] theorem State.faultRepair_eth (s : State) (x : FaultId) : (State.faultRepair s x).eth = s.eth := (rfl)
@[simp] theorem State.faultRepair_lnl (s : State) (x : FaultId) : (State.faultRepair s x).lnl = s.lnl := (rfl)
@[simp] theorem State.faultRepair_inj (s : State) (x : FaultId) : (State.faultRepair s x).inj = s.inj := (rfl)
@[simp] theorem State.faultRepair_clrPin (s : State) (x : FaultId) : (State.faultRepair s x).clrPin = s.clrPin := (rfl)
@[simp] theorem State.faultRepair_rstLow (s : State) (x : FaultId) : (State.faultRepair s x).rstLow = s.rstLow := (rfl)
@[simp] theorem State.faultRepair_fresh (s : State) (x : FaultId) : (State.faultRepair s x).fresh = s.fresh := (rfl)
@[simp] theorem State.faultRepair_outbox (s : State) (x : FaultId) : (State.faultRepair s x).outbox = s.outbox := (rfl)
@[simp] theorem State.faultRepair_pending (s : State) (x : FaultId) : (State.faultRepair s x).pending = s.pending := (rfl)
@[simp] theorem State.faultRepair_fld (s : State) (x : FaultId) (g : Field) (cc : BayNo) (j1 k1 : Nat) : (State.faultRepair s x).fld g cc j1 k1 = s.fld g cc j1 k1 := (rfl)
@[simp] theorem State.faultRepair_fldN (s : State) (x : FaultId) (g : Field) (cc : BayNo) (j1 k1 : Nat) : (State.faultRepair s x).fldN g cc j1 k1 = s.fldN g cc j1 k1 := (rfl)
@[simp] theorem State.faultRepair_fldB (s : State) (x : FaultId) (g : Field) (cc : BayNo) (j1 : Nat) : (State.faultRepair s x).fldB g cc j1 = s.fldB g cc j1 := (rfl)
@[simp] theorem State.faultRepair_pkgN (s : State) (x : FaultId) (g : Field) (j1 : Nat) : (State.faultRepair s x).pkgN g j1 = s.pkgN g j1 := (rfl)
@[simp] theorem State.faultRepair_bay (s : State) (x : FaultId) (cc : BayNo) : (State.faultRepair s x).bay cc = s.bay cc := (rfl)
@[simp] theorem State.faultRepair_nowAt (s : State) (x : FaultId) (cc : BayNo) : (State.faultRepair s x).nowAt cc = s.nowAt cc := (rfl)
@[simp] theorem State.faultRepair_now (s : State) (x : FaultId) : (State.faultRepair s x).now = s.now := (rfl)
@[simp] theorem State.faultRepair_alive (s : State) (x : FaultId) (cc : BayNo) : (State.faultRepair s x).alive cc = s.alive cc := (rfl)
@[simp] theorem State.faultRepair_liveBays (s : State) (x : FaultId) : (State.faultRepair s x).liveBays = s.liveBays := (rfl)

@[simp] theorem State.modSel_part (s : State) (f : Selector → Selector) : (State.modSel s f).part = s.part := (rfl)
@[simp] theorem State.modSel_bays (s : State) (f : Selector → Selector) : (State.modSel s f).bays = s.bays := (rfl)
@[simp] theorem State.modSel_vals (s : State) (f : Selector → Selector) : (State.modSel s f).vals = s.vals := (rfl)
@[simp] theorem State.modSel_img (s : State) (f : Selector → Selector) : (State.modSel s f).img = s.img := (rfl)
@[simp] theorem State.modSel_flash (s : State) (f : Selector → Selector) : (State.modSel s f).flash = s.flash := (rfl)
@[simp] theorem State.modSel_tbs (s : State) (f : Selector → Selector) : (State.modSel s f).tbs = s.tbs := (rfl)
@[simp] theorem State.modSel_keeper (s : State) (f : Selector → Selector) : (State.modSel s f).keeper = s.keeper := (rfl)
@[simp] theorem State.modSel_pwr (s : State) (f : Selector → Selector) : (State.modSel s f).pwr = s.pwr := (rfl)
@[simp] theorem State.modSel_faults (s : State) (f : Selector → Selector) : (State.modSel s f).faults = s.faults := (rfl)
@[simp] theorem State.modSel_trg (s : State) (f : Selector → Selector) : (State.modSel s f).trg = s.trg := (rfl)
@[simp] theorem State.modSel_ident (s : State) (f : Selector → Selector) : (State.modSel s f).ident = s.ident := (rfl)
@[simp] theorem State.modSel_eth (s : State) (f : Selector → Selector) : (State.modSel s f).eth = s.eth := (rfl)
@[simp] theorem State.modSel_lnl (s : State) (f : Selector → Selector) : (State.modSel s f).lnl = s.lnl := (rfl)
@[simp] theorem State.modSel_inj (s : State) (f : Selector → Selector) : (State.modSel s f).inj = s.inj := (rfl)
@[simp] theorem State.modSel_clrPin (s : State) (f : Selector → Selector) : (State.modSel s f).clrPin = s.clrPin := (rfl)
@[simp] theorem State.modSel_rstLow (s : State) (f : Selector → Selector) : (State.modSel s f).rstLow = s.rstLow := (rfl)
@[simp] theorem State.modSel_fresh (s : State) (f : Selector → Selector) : (State.modSel s f).fresh = s.fresh := (rfl)
@[simp] theorem State.modSel_outbox (s : State) (f : Selector → Selector) : (State.modSel s f).outbox = s.outbox := (rfl)
@[simp] theorem State.modSel_pending (s : State) (f : Selector → Selector) : (State.modSel s f).pending = s.pending := (rfl)
@[simp] theorem State.modSel_fld (s : State) (f : Selector → Selector) (g : Field) (cc : BayNo) (j1 k1 : Nat) : (State.modSel s f).fld g cc j1 k1 = s.fld g cc j1 k1 := (rfl)
@[simp] theorem State.modSel_fldN (s : State) (f : Selector → Selector) (g : Field) (cc : BayNo) (j1 k1 : Nat) : (State.modSel s f).fldN g cc j1 k1 = s.fldN g cc j1 k1 := (rfl)
@[simp] theorem State.modSel_fldB (s : State) (f : Selector → Selector) (g : Field) (cc : BayNo) (j1 : Nat) : (State.modSel s f).fldB g cc j1 = s.fldB g cc j1 := (rfl)
@[simp] theorem State.modSel_pkgN (s : State) (f : Selector → Selector) (g : Field) (j1 : Nat) : (State.modSel s f).pkgN g j1 = s.pkgN g j1 := (rfl)
@[simp] theorem State.modSel_bay (s : State) (f : Selector → Selector) (cc : BayNo) : (State.modSel s f).bay cc = s.bay cc := (rfl)
@[simp] theorem State.modSel_nowAt (s : State) (f : Selector → Selector) (cc : BayNo) : (State.modSel s f).nowAt cc = s.nowAt cc := (rfl)
@[simp] theorem State.modSel_now (s : State) (f : Selector → Selector) : (State.modSel s f).now = s.now := (rfl)
@[simp] theorem State.modSel_alive (s : State) (f : Selector → Selector) (cc : BayNo) : (State.modSel s f).alive cc = s.alive cc := (rfl)
@[simp] theorem State.modSel_liveBays (s : State) (f : Selector → Selector) : (State.modSel s f).liveBays = s.liveBays := (rfl)
@[simp] theorem State.modSel_sel (s : State) (f : Selector → Selector) : (State.modSel s f).sel = f s.sel := (rfl)

@[simp] theorem State.modTbsPkg_part (s : State) (f : TbsPkg → TbsPkg) : (State.modTbsPkg s f).part = s.part := (rfl)
@[simp] theorem State.modTbsPkg_bays (s : State) (f : TbsPkg → TbsPkg) : (State.modTbsPkg s f).bays = s.bays := (rfl)
@[simp] theorem State.modTbsPkg_vals (s : State) (f : TbsPkg → TbsPkg) : (State.modTbsPkg s f).vals = s.vals := (rfl)
@[simp] theorem State.modTbsPkg_img (s : State) (f : TbsPkg → TbsPkg) : (State.modTbsPkg s f).img = s.img := (rfl)
@[simp] theorem State.modTbsPkg_flash (s : State) (f : TbsPkg → TbsPkg) : (State.modTbsPkg s f).flash = s.flash := (rfl)
@[simp] theorem State.modTbsPkg_sel (s : State) (f : TbsPkg → TbsPkg) : (State.modTbsPkg s f).sel = s.sel := (rfl)
@[simp] theorem State.modTbsPkg_keeper (s : State) (f : TbsPkg → TbsPkg) : (State.modTbsPkg s f).keeper = s.keeper := (rfl)
@[simp] theorem State.modTbsPkg_pwr (s : State) (f : TbsPkg → TbsPkg) : (State.modTbsPkg s f).pwr = s.pwr := (rfl)
@[simp] theorem State.modTbsPkg_faults (s : State) (f : TbsPkg → TbsPkg) : (State.modTbsPkg s f).faults = s.faults := (rfl)
@[simp] theorem State.modTbsPkg_trg (s : State) (f : TbsPkg → TbsPkg) : (State.modTbsPkg s f).trg = s.trg := (rfl)
@[simp] theorem State.modTbsPkg_ident (s : State) (f : TbsPkg → TbsPkg) : (State.modTbsPkg s f).ident = s.ident := (rfl)
@[simp] theorem State.modTbsPkg_eth (s : State) (f : TbsPkg → TbsPkg) : (State.modTbsPkg s f).eth = s.eth := (rfl)
@[simp] theorem State.modTbsPkg_lnl (s : State) (f : TbsPkg → TbsPkg) : (State.modTbsPkg s f).lnl = s.lnl := (rfl)
@[simp] theorem State.modTbsPkg_inj (s : State) (f : TbsPkg → TbsPkg) : (State.modTbsPkg s f).inj = s.inj := (rfl)
@[simp] theorem State.modTbsPkg_clrPin (s : State) (f : TbsPkg → TbsPkg) : (State.modTbsPkg s f).clrPin = s.clrPin := (rfl)
@[simp] theorem State.modTbsPkg_rstLow (s : State) (f : TbsPkg → TbsPkg) : (State.modTbsPkg s f).rstLow = s.rstLow := (rfl)
@[simp] theorem State.modTbsPkg_fresh (s : State) (f : TbsPkg → TbsPkg) : (State.modTbsPkg s f).fresh = s.fresh := (rfl)
@[simp] theorem State.modTbsPkg_outbox (s : State) (f : TbsPkg → TbsPkg) : (State.modTbsPkg s f).outbox = s.outbox := (rfl)
@[simp] theorem State.modTbsPkg_pending (s : State) (f : TbsPkg → TbsPkg) : (State.modTbsPkg s f).pending = s.pending := (rfl)
@[simp] theorem State.modTbsPkg_fld (s : State) (f : TbsPkg → TbsPkg) (g : Field) (cc : BayNo) (j1 k1 : Nat) : (State.modTbsPkg s f).fld g cc j1 k1 = s.fld g cc j1 k1 := (rfl)
@[simp] theorem State.modTbsPkg_fldN (s : State) (f : TbsPkg → TbsPkg) (g : Field) (cc : BayNo) (j1 k1 : Nat) : (State.modTbsPkg s f).fldN g cc j1 k1 = s.fldN g cc j1 k1 := (rfl)
@[simp] theorem State.modTbsPkg_fldB (s : State) (f : TbsPkg → TbsPkg) (g : Field) (cc : BayNo) (j1 : Nat) : (State.modTbsPkg s f).fldB g cc j1 = s.fldB g cc j1 := (rfl)
@[simp] theorem State.modTbsPkg_pkgN (s : State) (f : TbsPkg → TbsPkg) (g : Field) (j1 : Nat) : (State.modTbsPkg s f).pkgN g j1 = s.pkgN g j1 := (rfl)
@[simp] theorem State.modTbsPkg_bay (s : State) (f : TbsPkg → TbsPkg) (cc : BayNo) : (State.modTbsPkg s f).bay cc = s.bay cc := (rfl)
@[simp] theorem State.modTbsPkg_nowAt (s : State) (f : TbsPkg → TbsPkg) (cc : BayNo) : (State.modTbsPkg s f).nowAt cc = s.nowAt cc := (rfl)
@[simp] theorem State.modTbsPkg_now (s : State) (f : TbsPkg → TbsPkg) : (State.modTbsPkg s f).now = s.now := (rfl)
@[simp] theorem State.modTbsPkg_tbs (s : State) (f : TbsPkg → TbsPkg) : (State.modTbsPkg s f).tbs = f s.tbs := (rfl)

@[simp] theorem State.modLnlPkg_part (s : State) (f : LnlPkg → LnlPkg) : (State.modLnlPkg s f).part = s.part := (rfl)
@[simp] theorem State.modLnlPkg_bays (s : State) (f : LnlPkg → LnlPkg) : (State.modLnlPkg s f).bays = s.bays := (rfl)
@[simp] theorem State.modLnlPkg_vals (s : State) (f : LnlPkg → LnlPkg) : (State.modLnlPkg s f).vals = s.vals := (rfl)
@[simp] theorem State.modLnlPkg_img (s : State) (f : LnlPkg → LnlPkg) : (State.modLnlPkg s f).img = s.img := (rfl)
@[simp] theorem State.modLnlPkg_flash (s : State) (f : LnlPkg → LnlPkg) : (State.modLnlPkg s f).flash = s.flash := (rfl)
@[simp] theorem State.modLnlPkg_tbs (s : State) (f : LnlPkg → LnlPkg) : (State.modLnlPkg s f).tbs = s.tbs := (rfl)
@[simp] theorem State.modLnlPkg_sel (s : State) (f : LnlPkg → LnlPkg) : (State.modLnlPkg s f).sel = s.sel := (rfl)
@[simp] theorem State.modLnlPkg_keeper (s : State) (f : LnlPkg → LnlPkg) : (State.modLnlPkg s f).keeper = s.keeper := (rfl)
@[simp] theorem State.modLnlPkg_pwr (s : State) (f : LnlPkg → LnlPkg) : (State.modLnlPkg s f).pwr = s.pwr := (rfl)
@[simp] theorem State.modLnlPkg_faults (s : State) (f : LnlPkg → LnlPkg) : (State.modLnlPkg s f).faults = s.faults := (rfl)
@[simp] theorem State.modLnlPkg_trg (s : State) (f : LnlPkg → LnlPkg) : (State.modLnlPkg s f).trg = s.trg := (rfl)
@[simp] theorem State.modLnlPkg_ident (s : State) (f : LnlPkg → LnlPkg) : (State.modLnlPkg s f).ident = s.ident := (rfl)
@[simp] theorem State.modLnlPkg_eth (s : State) (f : LnlPkg → LnlPkg) : (State.modLnlPkg s f).eth = s.eth := (rfl)
@[simp] theorem State.modLnlPkg_inj (s : State) (f : LnlPkg → LnlPkg) : (State.modLnlPkg s f).inj = s.inj := (rfl)
@[simp] theorem State.modLnlPkg_clrPin (s : State) (f : LnlPkg → LnlPkg) : (State.modLnlPkg s f).clrPin = s.clrPin := (rfl)
@[simp] theorem State.modLnlPkg_rstLow (s : State) (f : LnlPkg → LnlPkg) : (State.modLnlPkg s f).rstLow = s.rstLow := (rfl)
@[simp] theorem State.modLnlPkg_fresh (s : State) (f : LnlPkg → LnlPkg) : (State.modLnlPkg s f).fresh = s.fresh := (rfl)
@[simp] theorem State.modLnlPkg_outbox (s : State) (f : LnlPkg → LnlPkg) : (State.modLnlPkg s f).outbox = s.outbox := (rfl)
@[simp] theorem State.modLnlPkg_pending (s : State) (f : LnlPkg → LnlPkg) : (State.modLnlPkg s f).pending = s.pending := (rfl)
@[simp] theorem State.modLnlPkg_fld (s : State) (f : LnlPkg → LnlPkg) (g : Field) (cc : BayNo) (j1 k1 : Nat) : (State.modLnlPkg s f).fld g cc j1 k1 = s.fld g cc j1 k1 := (rfl)
@[simp] theorem State.modLnlPkg_fldN (s : State) (f : LnlPkg → LnlPkg) (g : Field) (cc : BayNo) (j1 k1 : Nat) : (State.modLnlPkg s f).fldN g cc j1 k1 = s.fldN g cc j1 k1 := (rfl)
@[simp] theorem State.modLnlPkg_fldB (s : State) (f : LnlPkg → LnlPkg) (g : Field) (cc : BayNo) (j1 : Nat) : (State.modLnlPkg s f).fldB g cc j1 = s.fldB g cc j1 := (rfl)
@[simp] theorem State.modLnlPkg_pkgN (s : State) (f : LnlPkg → LnlPkg) (g : Field) (j1 : Nat) : (State.modLnlPkg s f).pkgN g j1 = s.pkgN g j1 := (rfl)
@[simp] theorem State.modLnlPkg_bay (s : State) (f : LnlPkg → LnlPkg) (cc : BayNo) : (State.modLnlPkg s f).bay cc = s.bay cc := (rfl)
@[simp] theorem State.modLnlPkg_nowAt (s : State) (f : LnlPkg → LnlPkg) (cc : BayNo) : (State.modLnlPkg s f).nowAt cc = s.nowAt cc := (rfl)
@[simp] theorem State.modLnlPkg_now (s : State) (f : LnlPkg → LnlPkg) : (State.modLnlPkg s f).now = s.now := (rfl)
@[simp] theorem State.modLnlPkg_alive (s : State) (f : LnlPkg → LnlPkg) (cc : BayNo) : (State.modLnlPkg s f).alive cc = s.alive cc := (rfl)
@[simp] theorem State.modLnlPkg_liveBays (s : State) (f : LnlPkg → LnlPkg) : (State.modLnlPkg s f).liveBays = s.liveBays := (rfl)
@[simp] theorem State.modLnlPkg_lnl (s : State) (f : LnlPkg → LnlPkg) : (State.modLnlPkg s f).lnl = f s.lnl := (rfl)

@[simp] theorem State.modEthPkg_part (s : State) (f : EthPkg → EthPkg) : (State.modEthPkg s f).part = s.part := (rfl)
@[simp] theorem State.modEthPkg_bays (s : State) (f : EthPkg → EthPkg) : (State.modEthPkg s f).bays = s.bays := (rfl)
@[simp] theorem State.modEthPkg_vals (s : State) (f : EthPkg → EthPkg) : (State.modEthPkg s f).vals = s.vals := (rfl)
@[simp] theorem State.modEthPkg_img (s : State) (f : EthPkg → EthPkg) : (State.modEthPkg s f).img = s.img := (rfl)
@[simp] theorem State.modEthPkg_flash (s : State) (f : EthPkg → EthPkg) : (State.modEthPkg s f).flash = s.flash := (rfl)
@[simp] theorem State.modEthPkg_tbs (s : State) (f : EthPkg → EthPkg) : (State.modEthPkg s f).tbs = s.tbs := (rfl)
@[simp] theorem State.modEthPkg_sel (s : State) (f : EthPkg → EthPkg) : (State.modEthPkg s f).sel = s.sel := (rfl)
@[simp] theorem State.modEthPkg_keeper (s : State) (f : EthPkg → EthPkg) : (State.modEthPkg s f).keeper = s.keeper := (rfl)
@[simp] theorem State.modEthPkg_pwr (s : State) (f : EthPkg → EthPkg) : (State.modEthPkg s f).pwr = s.pwr := (rfl)
@[simp] theorem State.modEthPkg_faults (s : State) (f : EthPkg → EthPkg) : (State.modEthPkg s f).faults = s.faults := (rfl)
@[simp] theorem State.modEthPkg_trg (s : State) (f : EthPkg → EthPkg) : (State.modEthPkg s f).trg = s.trg := (rfl)
@[simp] theorem State.modEthPkg_ident (s : State) (f : EthPkg → EthPkg) : (State.modEthPkg s f).ident = s.ident := (rfl)
@[simp] theorem State.modEthPkg_lnl (s : State) (f : EthPkg → EthPkg) : (State.modEthPkg s f).lnl = s.lnl := (rfl)
@[simp] theorem State.modEthPkg_inj (s : State) (f : EthPkg → EthPkg) : (State.modEthPkg s f).inj = s.inj := (rfl)
@[simp] theorem State.modEthPkg_clrPin (s : State) (f : EthPkg → EthPkg) : (State.modEthPkg s f).clrPin = s.clrPin := (rfl)
@[simp] theorem State.modEthPkg_rstLow (s : State) (f : EthPkg → EthPkg) : (State.modEthPkg s f).rstLow = s.rstLow := (rfl)
@[simp] theorem State.modEthPkg_fresh (s : State) (f : EthPkg → EthPkg) : (State.modEthPkg s f).fresh = s.fresh := (rfl)
@[simp] theorem State.modEthPkg_outbox (s : State) (f : EthPkg → EthPkg) : (State.modEthPkg s f).outbox = s.outbox := (rfl)
@[simp] theorem State.modEthPkg_pending (s : State) (f : EthPkg → EthPkg) : (State.modEthPkg s f).pending = s.pending := (rfl)
@[simp] theorem State.modEthPkg_fld (s : State) (f : EthPkg → EthPkg) (g : Field) (cc : BayNo) (j1 k1 : Nat) : (State.modEthPkg s f).fld g cc j1 k1 = s.fld g cc j1 k1 := (rfl)
@[simp] theorem State.modEthPkg_fldN (s : State) (f : EthPkg → EthPkg) (g : Field) (cc : BayNo) (j1 k1 : Nat) : (State.modEthPkg s f).fldN g cc j1 k1 = s.fldN g cc j1 k1 := (rfl)
@[simp] theorem State.modEthPkg_fldB (s : State) (f : EthPkg → EthPkg) (g : Field) (cc : BayNo) (j1 : Nat) : (State.modEthPkg s f).fldB g cc j1 = s.fldB g cc j1 := (rfl)
@[simp] theorem State.modEthPkg_pkgN (s : State) (f : EthPkg → EthPkg) (g : Field) (j1 : Nat) : (State.modEthPkg s f).pkgN g j1 = s.pkgN g j1 := (rfl)
@[simp] theorem State.modEthPkg_bay (s : State) (f : EthPkg → EthPkg) (cc : BayNo) : (State.modEthPkg s f).bay cc = s.bay cc := (rfl)
@[simp] theorem State.modEthPkg_nowAt (s : State) (f : EthPkg → EthPkg) (cc : BayNo) : (State.modEthPkg s f).nowAt cc = s.nowAt cc := (rfl)
@[simp] theorem State.modEthPkg_now (s : State) (f : EthPkg → EthPkg) : (State.modEthPkg s f).now = s.now := (rfl)
@[simp] theorem State.modEthPkg_alive (s : State) (f : EthPkg → EthPkg) (cc : BayNo) : (State.modEthPkg s f).alive cc = s.alive cc := (rfl)
@[simp] theorem State.modEthPkg_liveBays (s : State) (f : EthPkg → EthPkg) : (State.modEthPkg s f).liveBays = s.liveBays := (rfl)
@[simp] theorem State.modEthPkg_eth (s : State) (f : EthPkg → EthPkg) : (State.modEthPkg s f).eth = f s.eth := (rfl)

@[simp] theorem State.modIdent_part (s : State) (f : IdPkg → IdPkg) : (State.modIdent s f).part = s.part := (rfl)
@[simp] theorem State.modIdent_bays (s : State) (f : IdPkg → IdPkg) : (State.modIdent s f).bays = s.bays := (rfl)
@[simp] theorem State.modIdent_vals (s : State) (f : IdPkg → IdPkg) : (State.modIdent s f).vals = s.vals := (rfl)
@[simp] theorem State.modIdent_img (s : State) (f : IdPkg → IdPkg) : (State.modIdent s f).img = s.img := (rfl)
@[simp] theorem State.modIdent_flash (s : State) (f : IdPkg → IdPkg) : (State.modIdent s f).flash = s.flash := (rfl)
@[simp] theorem State.modIdent_tbs (s : State) (f : IdPkg → IdPkg) : (State.modIdent s f).tbs = s.tbs := (rfl)
@[simp] theorem State.modIdent_sel (s : State) (f : IdPkg → IdPkg) : (State.modIdent s f).sel = s.sel := (rfl)
@[simp] theorem State.modIdent_keeper (s : State) (f : IdPkg → IdPkg) : (State.modIdent s f).keeper = s.keeper := (rfl)
@[simp] theorem State.modIdent_pwr (s : State) (f : IdPkg → IdPkg) : (State.modIdent s f).pwr = s.pwr := (rfl)
@[simp] theorem State.modIdent_faults (s : State) (f : IdPkg → IdPkg) : (State.modIdent s f).faults = s.faults := (rfl)
@[simp] theorem State.modIdent_trg (s : State) (f : IdPkg → IdPkg) : (State.modIdent s f).trg = s.trg := (rfl)
@[simp] theorem State.modIdent_eth (s : State) (f : IdPkg → IdPkg) : (State.modIdent s f).eth = s.eth := (rfl)
@[simp] theorem State.modIdent_lnl (s : State) (f : IdPkg → IdPkg) : (State.modIdent s f).lnl = s.lnl := (rfl)
@[simp] theorem State.modIdent_inj (s : State) (f : IdPkg → IdPkg) : (State.modIdent s f).inj = s.inj := (rfl)
@[simp] theorem State.modIdent_clrPin (s : State) (f : IdPkg → IdPkg) : (State.modIdent s f).clrPin = s.clrPin := (rfl)
@[simp] theorem State.modIdent_rstLow (s : State) (f : IdPkg → IdPkg) : (State.modIdent s f).rstLow = s.rstLow := (rfl)
@[simp] theorem State.modIdent_fresh (s : State) (f : IdPkg → IdPkg) : (State.modIdent s f).fresh = s.fresh := (rfl)
@[simp] theorem State.modIdent_outbox (s : State) (f : IdPkg → IdPkg) : (State.modIdent s f).outbox = s.outbox := (rfl)
@[simp] theorem State.modIdent_pending (s : State) (f : IdPkg → IdPkg) : (State.modIdent s f).pending = s.pending := (rfl)
@[simp] theorem State.modIdent_fld (s : State) (f : IdPkg → IdPkg) (g : Field) (cc : BayNo) (j1 k1 : Nat) : (State.modIdent s f).fld g cc j1 k1 = s.fld g cc j1 k1 := (rfl)
@[simp] theorem State.modIdent_fldN (s : State) (f : IdPkg → IdPkg) (g : Field) (cc : BayNo) (j1 k1 : Nat) : (State.modIdent s f).fldN g cc j1 k1 = s.fldN g cc j1 k1 := (rfl)
@[simp] theorem State.modIdent_fldB (s : State) (f : IdPkg → IdPkg) (g : Field) (cc : BayNo) (j1 : Nat) : (State.modIdent s f).fldB g cc j1 = s.fldB g cc j1 := (rfl)
@[simp] theorem State.modIdent_pkgN (s : State) (f : IdPkg → IdPkg) (g : Field) (j1 : Nat) : (State.modIdent s f).pkgN g j1 = s.pkgN g j1 := (rfl)
@[simp] theorem State.modIdent_bay (s : State) (f : IdPkg → IdPkg) (cc : BayNo) : (State.modIdent s f).bay cc = s.bay cc := (rfl)
@[simp] theorem State.modIdent_nowAt (s : State) (f : IdPkg → IdPkg) (cc : BayNo) : (State.modIdent s f).nowAt cc = s.nowAt cc := (rfl)
@[simp] theorem State.modIdent_now (s : State) (f : IdPkg → IdPkg) : (State.modIdent s f).now = s.now := (rfl)
@[simp] theorem State.modIdent_alive (s : State) (f : IdPkg → IdPkg) (cc : BayNo) : (State.modIdent s f).alive cc = s.alive cc := (rfl)
@[simp] theorem State.modIdent_liveBays (s : State) (f : IdPkg → IdPkg) : (State.modIdent s f).liveBays = s.liveBays := (rfl)
@[simp] theorem State.modIdent_ident (s : State) (f : IdPkg → IdPkg) : (State.modIdent s f).ident = f s.ident := (rfl)

@[simp] theorem State.modFaults_part (s : State) (f : FaultLog → FaultLog) : (State.modFaults s f).part = s.part := (rfl)
@[simp] theorem State.modFaults_bays (s : State) (f : FaultLog → FaultLog) : (State.modFaults s f).bays = s.bays := (rfl)
@[simp] theorem State.modFaults_vals (s : State) (f : FaultLog → FaultLog) : (State.modFaults s f).vals = s.vals := (rfl)
@[simp] theorem State.modFaults_img (s : State) (f : FaultLog → FaultLog) : (State.modFaults s f).img = s.img := (rfl)
@[simp] theorem State.modFaults_flash (s : State) (f : FaultLog → FaultLog) : (State.modFaults s f).flash = s.flash := (rfl)
@[simp] theorem State.modFaults_tbs (s : State) (f : FaultLog → FaultLog) : (State.modFaults s f).tbs = s.tbs := (rfl)
@[simp] theorem State.modFaults_sel (s : State) (f : FaultLog → FaultLog) : (State.modFaults s f).sel = s.sel := (rfl)
@[simp] theorem State.modFaults_keeper (s : State) (f : FaultLog → FaultLog) : (State.modFaults s f).keeper = s.keeper := (rfl)
@[simp] theorem State.modFaults_pwr (s : State) (f : FaultLog → FaultLog) : (State.modFaults s f).pwr = s.pwr := (rfl)
@[simp] theorem State.modFaults_trg (s : State) (f : FaultLog → FaultLog) : (State.modFaults s f).trg = s.trg := (rfl)
@[simp] theorem State.modFaults_ident (s : State) (f : FaultLog → FaultLog) : (State.modFaults s f).ident = s.ident := (rfl)
@[simp] theorem State.modFaults_eth (s : State) (f : FaultLog → FaultLog) : (State.modFaults s f).eth = s.eth := (rfl)
@[simp] theorem State.modFaults_lnl (s : State) (f : FaultLog → FaultLog) : (State.modFaults s f).lnl = s.lnl := (rfl)
@[simp] theorem State.modFaults_inj (s : State) (f : FaultLog → FaultLog) : (State.modFaults s f).inj = s.inj := (rfl)
@[simp] theorem State.modFaults_clrPin (s : State) (f : FaultLog → FaultLog) : (State.modFaults s f).clrPin = s.clrPin := (rfl)
@[simp] theorem State.modFaults_rstLow (s : State) (f : FaultLog → FaultLog) : (State.modFaults s f).rstLow = s.rstLow := (rfl)
@[simp] theorem State.modFaults_fresh (s : State) (f : FaultLog → FaultLog) : (State.modFaults s f).fresh = s.fresh := (rfl)
@[simp] theorem State.modFaults_outbox (s : State) (f : FaultLog → FaultLog) : (State.modFaults s f).outbox = s.outbox := (rfl)
@[simp] theorem State.modFaults_pending (s : State) (f : FaultLog → FaultLog) : (State.modFaults s f).pending = s.pending := (rfl)
@[simp] theorem State.modFaults_fld (s : State) (f : FaultLog → FaultLog) (g : Field) (cc : BayNo) (j1 k1 : Nat) : (State.modFaults s f).fld g cc j1 k1 = s.fld g cc j1 k1 := (rfl)
@[simp] theorem State.modFaults_fldN (s : State) (f : FaultLog → FaultLog) (g : Field) (cc : BayNo) (j1 k1 : Nat) : (State.modFaults s f).fldN g cc j1 k1 = s.fldN g cc j1 k1 := (rfl)
@[simp] theorem State.modFaults_fldB (s : State) (f : FaultLog → FaultLog) (g : Field) (cc : BayNo) (j1 : Nat) : (State.modFaults s f).fldB g cc j1 = s.fldB g cc j1 := (rfl)
@[simp] theorem State.modFaults_pkgN (s : State) (f : FaultLog → FaultLog) (g : Field) (j1 : Nat) : (State.modFaults s f).pkgN g j1 = s.pkgN g j1 := (rfl)
@[simp] theorem State.modFaults_bay (s : State) (f : FaultLog → FaultLog) (cc : BayNo) : (State.modFaults s f).bay cc = s.bay cc := (rfl)
@[simp] theorem State.modFaults_nowAt (s : State) (f : FaultLog → FaultLog) (cc : BayNo) : (State.modFaults s f).nowAt cc = s.nowAt cc := (rfl)
@[simp] theorem State.modFaults_now (s : State) (f : FaultLog → FaultLog) : (State.modFaults s f).now = s.now := (rfl)
@[simp] theorem State.modFaults_alive (s : State) (f : FaultLog → FaultLog) (cc : BayNo) : (State.modFaults s f).alive cc = s.alive cc := (rfl)
@[simp] theorem State.modFaults_liveBays (s : State) (f : FaultLog → FaultLog) : (State.modFaults s f).liveBays = s.liveBays := (rfl)
@[simp] theorem State.modFaults_faults (s : State) (f : FaultLog → FaultLog) : (State.modFaults s f).faults = f s.faults := (rfl)

@[simp] theorem State.modInjPkg_part (s : State) (f : InjPkg → InjPkg) : (State.modInjPkg s f).part = s.part := (rfl)
@[simp] theorem State.modInjPkg_bays (s : State) (f : InjPkg → InjPkg) : (State.modInjPkg s f).bays = s.bays := (rfl)
@[simp] theorem State.modInjPkg_vals (s : State) (f : InjPkg → InjPkg) : (State.modInjPkg s f).vals = s.vals := (rfl)
@[simp] theorem State.modInjPkg_img (s : State) (f : InjPkg → InjPkg) : (State.modInjPkg s f).img = s.img := (rfl)
@[simp] theorem State.modInjPkg_flash (s : State) (f : InjPkg → InjPkg) : (State.modInjPkg s f).flash = s.flash := (rfl)
@[simp] theorem State.modInjPkg_tbs (s : State) (f : InjPkg → InjPkg) : (State.modInjPkg s f).tbs = s.tbs := (rfl)
@[simp] theorem State.modInjPkg_sel (s : State) (f : InjPkg → InjPkg) : (State.modInjPkg s f).sel = s.sel := (rfl)
@[simp] theorem State.modInjPkg_keeper (s : State) (f : InjPkg → InjPkg) : (State.modInjPkg s f).keeper = s.keeper := (rfl)
@[simp] theorem State.modInjPkg_pwr (s : State) (f : InjPkg → InjPkg) : (State.modInjPkg s f).pwr = s.pwr := (rfl)
@[simp] theorem State.modInjPkg_faults (s : State) (f : InjPkg → InjPkg) : (State.modInjPkg s f).faults = s.faults := (rfl)
@[simp] theorem State.modInjPkg_trg (s : State) (f : InjPkg → InjPkg) : (State.modInjPkg s f).trg = s.trg := (rfl)
@[simp] theorem State.modInjPkg_ident (s : State) (f : InjPkg → InjPkg) : (State.modInjPkg s f).ident = s.ident := (rfl)
@[simp] theorem State.modInjPkg_eth (s : State) (f : InjPkg → InjPkg) : (State.modInjPkg s f).eth = s.eth := (rfl)
@[simp] theorem State.modInjPkg_lnl (s : State) (f : InjPkg → InjPkg) : (State.modInjPkg s f).lnl = s.lnl := (rfl)
@[simp] theorem State.modInjPkg_clrPin (s : State) (f : InjPkg → InjPkg) : (State.modInjPkg s f).clrPin = s.clrPin := (rfl)
@[simp] theorem State.modInjPkg_rstLow (s : State) (f : InjPkg → InjPkg) : (State.modInjPkg s f).rstLow = s.rstLow := (rfl)
@[simp] theorem State.modInjPkg_fresh (s : State) (f : InjPkg → InjPkg) : (State.modInjPkg s f).fresh = s.fresh := (rfl)
@[simp] theorem State.modInjPkg_outbox (s : State) (f : InjPkg → InjPkg) : (State.modInjPkg s f).outbox = s.outbox := (rfl)
@[simp] theorem State.modInjPkg_pending (s : State) (f : InjPkg → InjPkg) : (State.modInjPkg s f).pending = s.pending := (rfl)
@[simp] theorem State.modInjPkg_fld (s : State) (f : InjPkg → InjPkg) (g : Field) (cc : BayNo) (j1 k1 : Nat) : (State.modInjPkg s f).fld g cc j1 k1 = s.fld g cc j1 k1 := (rfl)
@[simp] theorem State.modInjPkg_fldN (s : State) (f : InjPkg → InjPkg) (g : Field) (cc : BayNo) (j1 k1 : Nat) : (State.modInjPkg s f).fldN g cc j1 k1 = s.fldN g cc j1 k1 := (rfl)
@[simp] theorem State.modInjPkg_fldB (s : State) (f : InjPkg → InjPkg) (g : Field) (cc : BayNo) (j1 : Nat) : (State.modInjPkg s f).fldB g cc j1 = s.fldB g cc j1 := (rfl)
@[simp] theorem State.modInjPkg_pkgN (s : State) (f : InjPkg → InjPkg) (g : Field) (j1 : Nat) : (State.modInjPkg s f).pkgN g j1 = s.pkgN g j1 := (rfl)
@[simp] theorem State.modInjPkg_bay (s : State) (f : InjPkg → InjPkg) (cc : BayNo) : (State.modInjPkg s f).bay cc = s.bay cc := (rfl)
@[simp] theorem State.modInjPkg_nowAt (s : State) (f : InjPkg → InjPkg) (cc : BayNo) : (State.modInjPkg s f).nowAt cc = s.nowAt cc := (rfl)
@[simp] theorem State.modInjPkg_now (s : State) (f : InjPkg → InjPkg) : (State.modInjPkg s f).now = s.now := (rfl)
@[simp] theorem State.modInjPkg_alive (s : State) (f : InjPkg → InjPkg) (cc : BayNo) : (State.modInjPkg s f).alive cc = s.alive cc := (rfl)
@[simp] theorem State.modInjPkg_liveBays (s : State) (f : InjPkg → InjPkg) : (State.modInjPkg s f).liveBays = s.liveBays := (rfl)
@[simp] theorem State.modInjPkg_inj (s : State) (f : InjPkg → InjPkg) : (State.modInjPkg s f).inj = f s.inj := (rfl)

@[simp] theorem State.modFlash_part (s : State) (f : Flash → Flash) : (State.modFlash s f).part = s.part := (rfl)
@[simp] theorem State.modFlash_bays (s : State) (f : Flash → Flash) : (State.modFlash s f).bays = s.bays := (rfl)
@[simp] theorem State.modFlash_vals (s : State) (f : Flash → Flash) : (State.modFlash s f).vals = s.vals := (rfl)
@[simp] theorem State.modFlash_img (s : State) (f : Flash → Flash) : (State.modFlash s f).img = s.img := (rfl)
@[simp] theorem State.modFlash_tbs (s : State) (f : Flash → Flash) : (State.modFlash s f).tbs = s.tbs := (rfl)
@[simp] theorem State.modFlash_sel (s : State) (f : Flash → Flash) : (State.modFlash s f).sel = s.sel := (rfl)
@[simp] theorem State.modFlash_keeper (s : State) (f : Flash → Flash) : (State.modFlash s f).keeper = s.keeper := (rfl)
@[simp] theorem State.modFlash_pwr (s : State) (f : Flash → Flash) : (State.modFlash s f).pwr = s.pwr := (rfl)
@[simp] theorem State.modFlash_faults (s : State) (f : Flash → Flash) : (State.modFlash s f).faults = s.faults := (rfl)
@[simp] theorem State.modFlash_trg (s : State) (f : Flash → Flash) : (State.modFlash s f).trg = s.trg := (rfl)
@[simp] theorem State.modFlash_ident (s : State) (f : Flash → Flash) : (State.modFlash s f).ident = s.ident := (rfl)
@[simp] theorem State.modFlash_eth (s : State) (f : Flash → Flash) : (State.modFlash s f).eth = s.eth := (rfl)
@[simp] theorem State.modFlash_lnl (s : State) (f : Flash → Flash) : (State.modFlash s f).lnl = s.lnl := (rfl)
@[simp] theorem State.modFlash_inj (s : State) (f : Flash → Flash) : (State.modFlash s f).inj = s.inj := (rfl)
@[simp] theorem State.modFlash_clrPin (s : State) (f : Flash → Flash) : (State.modFlash s f).clrPin = s.clrPin := (rfl)
@[simp] theorem State.modFlash_rstLow (s : State) (f : Flash → Flash) : (State.modFlash s f).rstLow = s.rstLow := (rfl)
@[simp] theorem State.modFlash_fresh (s : State) (f : Flash → Flash) : (State.modFlash s f).fresh = s.fresh := (rfl)
@[simp] theorem State.modFlash_outbox (s : State) (f : Flash → Flash) : (State.modFlash s f).outbox = s.outbox := (rfl)
@[simp] theorem State.modFlash_pending (s : State) (f : Flash → Flash) : (State.modFlash s f).pending = s.pending := (rfl)
@[simp] theorem State.modFlash_fld (s : State) (f : Flash → Flash) (g : Field) (cc : BayNo) (j1 k1 : Nat) : (State.modFlash s f).fld g cc j1 k1 = s.fld g cc j1 k1 := (rfl)
@[simp] theorem State.modFlash_fldN (s : State) (f : Flash → Flash) (g : Field) (cc : BayNo) (j1 k1 : Nat) : (State.modFlash s f).fldN g cc j1 k1 = s.fldN g cc j1 k1 := (rfl)
@[simp] theorem State.modFlash_fldB (s : State) (f : Flash → Flash) (g : Field) (cc : BayNo) (j1 : Nat) : (State.modFlash s f).fldB g cc j1 = s.fldB g cc j1 := (rfl)
@[simp] theorem State.modFlash_pkgN (s : State) (f : Flash → Flash) (g : Field) (j1 : Nat) : (State.modFlash s f).pkgN g j1 = s.pkgN g j1 := (rfl)
@[simp] theorem State.modFlash_bay (s : State) (f : Flash → Flash) (cc : BayNo) : (State.modFlash s f).bay cc = s.bay cc := (rfl)
@[simp] theorem State.modFlash_nowAt (s : State) (f : Flash → Flash) (cc : BayNo) : (State.modFlash s f).nowAt cc = s.nowAt cc := (rfl)
@[simp] theorem State.modFlash_now (s : State) (f : Flash → Flash) : (State.modFlash s f).now = s.now := (rfl)
@[simp] theorem State.modFlash_alive (s : State) (f : Flash → Flash) (cc : BayNo) : (State.modFlash s f).alive cc = s.alive cc := (rfl)
@[simp] theorem State.modFlash_liveBays (s : State) (f : Flash → Flash) : (State.modFlash s f).liveBays = s.liveBays := (rfl)
@[simp] theorem State.modFlash_flash (s : State) (f : Flash → Flash) : (State.modFlash s f).flash = f s.flash := (rfl)

@[simp] theorem State.modVals_part (s : State) (f : Sparse (Option Int) → Sparse (Option Int)) : (State.modVals s f).part = s.part := (rfl)
@[simp] theorem State.modVals_bays (s : State) (f : Sparse (Option Int) → Sparse (Option Int)) : (State.modVals s f).bays = s.bays := (rfl)
@[simp] theorem State.modVals_img (s : State) (f : Sparse (Option Int) → Sparse (Option Int)) : (State.modVals s f).img = s.img := (rfl)
@[simp] theorem State.modVals_flash (s : State) (f : Sparse (Option Int) → Sparse (Option Int)) : (State.modVals s f).flash = s.flash := (rfl)
@[simp] theorem State.modVals_tbs (s : State) (f : Sparse (Option Int) → Sparse (Option Int)) : (State.modVals s f).tbs = s.tbs := (rfl)
@[simp] theorem State.modVals_sel (s : State) (f : Sparse (Option Int) → Sparse (Option Int)) : (State.modVals s f).sel = s.sel := (rfl)
@[simp] theorem State.modVals_keeper (s : State) (f : Sparse (Option Int) → Sparse (Option Int)) : (State.modVals s f).keeper = s.keeper := (rfl)
@[simp] theorem State.modVals_pwr (s : State) (f : Sparse (Option Int) → Sparse (Option Int)) : (State.modVals s f).pwr = s.pwr := (rfl)
@[simp] theorem State.modVals_faults (s : State) (f : Sparse (Option Int) → Sparse (Option Int)) : (State.modVals s f).faults = s.faults := (rfl)
@[simp] theorem State.modVals_trg (s : State) (f : Sparse (Option Int) → Sparse (Option Int)) : (State.modVals s f).trg = s.trg := (rfl)
@[simp] theorem State.modVals_ident (s : State) (f : Sparse (Option Int) → Sparse (Option Int)) : (State.modVals s f).ident = s.ident := (rfl)
@[simp] theorem State.modVals_eth (s : State) (f : Sparse (Option Int) → Sparse (Option Int)) : (State.modVals s f).eth = s.eth := (rfl)
@[simp] theorem State.modVals_lnl (s : State) (f : Sparse (Option Int) → Sparse (Option Int)) : (State.modVals s f).lnl = s.lnl := (rfl)
@[simp] theorem State.modVals_inj (s : State) (f : Sparse (Option Int) → Sparse (Option Int)) : (State.modVals s f).inj = s.inj := (rfl)
@[simp] theorem State.modVals_clrPin (s : State) (f : Sparse (Option Int) → Sparse (Option Int)) : (State.modVals s f).clrPin = s.clrPin := (rfl)
@[simp] theorem State.modVals_rstLow (s : State) (f : Sparse (Option Int) → Sparse (Option Int)) : (State.modVals s f).rstLow = s.rstLow := (rfl)
@[simp] theorem State.modVals_fresh (s : State) (f : Sparse (Option Int) → Sparse (Option Int)) : (State.modVals s f).fresh = s.fresh := (rfl)
@[simp] theorem State.modVals_outbox (s : State) (f : Sparse (Option Int) → Sparse (Option Int)) : (State.modVals s f).outbox = s.outbox := (rfl)
@[simp] theorem State.modVals_pending (s : State) (f : Sparse (Option Int) → Sparse (Option Int)) : (State.modVals s f).pending = s.pending := (rfl)




@[simp] theorem State.modVals_bay (s : State) (f : Sparse (Option Int) → Sparse (Option Int)) (cc : BayNo) : (State.modVals s f).bay cc = s.bay cc := (rfl)
@[simp] theorem State.modVals_nowAt (s : State) (f : Sparse (Option Int) → Sparse (Option Int)) (cc : BayNo) : (State.modVals s f).nowAt cc = s.nowAt cc := (rfl)
@[simp] theorem State.modVals_now (s : State) (f : Sparse (Option Int) → Sparse (Option Int)) : (State.modVals s f).now = s.now := (rfl)
@[simp] theorem State.modVals_alive (s : State) (f : Sparse (Option Int) → Sparse (Option Int)) (cc : BayNo) : (State.modVals s f).alive cc = s.alive cc := (rfl)
@[simp] theorem State.modVals_liveBays (s : State) (f : Sparse (Option Int) → Sparse (Option Int)) : (State.modVals s f).liveBays = s.liveBays := (rfl)
@[simp] theorem State.modVals_vals (s : State) (f : Sparse (Option Int) → Sparse (Option Int)) : (State.modVals s f).vals = f s.vals := (rfl)

@[simp] theorem State.modLink_lnl_self (s : State) (b : BayNo) (n : Fin 5) (f : Injector → Injector) : ((s.modLink b n f).bay b).lnl =
    { (s.bay b).lnl with injectors := (s.bay b).lnl.injectors.set n (f (s.bay b).lnl.injectors[n]) } := s.modLnl_bay_lnl_self b _

@[simp] theorem State.modPortL_lnl_self (s : State) (b : BayNo) (p : Fin 3) (f : LinkPort → LinkPort) : ((s.modPortL b p f).bay b).lnl =
    { (s.bay b).lnl with ports := (s.bay b).lnl.ports.set p (f (s.bay b).lnl.ports[p]) } := s.modLnl_bay_lnl_self b _

@[simp] theorem State.modConv_hkc_self (s : State) (b : BayNo) (x : Fin 2) (f : HkConv → HkConv) : ((s.modConv b x f).bay b).hkc =
    { (s.bay b).hkc with conv := (s.bay b).hkc.conv.set x (f (s.bay b).hkc.conv[x]) } := s.modHkc_bay_hkc_self b _

@[simp] theorem State.modDir_lne_self (s : State) (b : BayNo) (k : Fin 24) (tx : Bool) (f : LaneDir → LaneDir) : ((s.modDir b k tx f).bay b).lne =
    { (s.bay b).lne with lanes := ((s.bay b).lne.lanes.set k
        (if tx then { (s.bay b).lne.lanes[k] with tx := f (s.bay b).lne.lanes[k].tx }
          else { (s.bay b).lne.lanes[k] with rx := f (s.bay b).lne.lanes[k].rx })) } :=
  s.modLane_bay_lne_self b k _

@[simp] theorem State.modRo_scn_self (s : State) (b : BayNo) (f : Readout → Readout) : ((s.modRo b f).bay b).scn =
    { (s.bay b).scn with ro := f (s.bay b).scn.ro } := s.modScn_bay_scn_self b _

@[simp] theorem State.modDrive_recorder_self (s : State) (b : BayNo) (d : Fin 8) (f : Drive → Drive) : ((s.modDrive b d f).bay b).recorder =
    { (s.bay b).recorder with drives := (s.bay b).recorder.drives.set d (f (s.bay b).recorder.drives[d]) } :=
  s.modRec_bay_recorder_self b _

@[simp] theorem State.modInj_inj (s : State) (n : Fin 64) (f : Injector → Injector) :
    (s.modInj n f).inj = { s.inj with streams := s.inj.streams.set n (f s.inj.streams[n]) } := (rfl)

@[simp] theorem State.modIsland_keeper (s : State) (f : Island → Island) :
    (s.modIsland f).keeper = { s.keeper with island := f s.keeper.island } := (rfl)

@[simp] theorem State.modBoot_img (s : State) (f : Boot → Boot) : (s.modBoot f).img = { s.img with boot := f s.img.boot } := (rfl)

@[simp] theorem State.modExt_lnl (s : State) (n : Fin 2) (f : ExtLink → ExtLink) :
    (s.modExt n f).lnl = { s.lnl with ext := s.lnl.ext.set n (f s.lnl.ext[n]) } := (rfl)

@[simp] theorem State.modStream_eth (s : State) (n : Fin 64) (f : EthStream → EthStream) :
    (s.modStream n f).eth = { s.eth with streams := s.eth.streams.set n (f s.eth.streams[n]) } := (rfl)

@[simp] theorem State.setFld_vals (s : State) (fl : Field) (b : BayNo) (i : Nat) (v : Int) :
    (s.setFld fl b i v).vals = Sparse.set none s.vals (fieldKey fl b.val i 0) (some v) := (rfl)

@[simp] theorem State.alert_ident (s : State) (i : Nat) :
    (s.alert i).ident = { s.ident with alert := s.ident.alert ||| BitVec.ofNat 8 (2 ^ i) } := (rfl)

@[simp] theorem State.faultRepair_faults (s : State) (x : FaultId) :
    (s.faultRepair x).faults = { s.faults with used := s.faults.used.filter fun y => y != x } := (rfl)

@[simp] theorem State.bay_modBay_self (s : State) (b : BayNo) (f : Bay → Bay) : (s.modBay b f).bay b = f (s.bay b) := s.bay_modBay b f

end Sys2Proof.Machine
end

