-- ==== Sys2Proof/Laws/Still.lean ====
section
/-! SUPPORT. What raising an event and handing over a record leave as it was. -/
namespace Sys2Proof.Machine

theorem State.setBay_still (s : State) (b : BayNo) (x : Bay) (h : x.still = (s.bay b).still) :
    (s.setBay b x).still = s.still := by
  have e : (s.bays.set b x).map Bay.still = s.bays.map Bay.still := by
    apply Vector.ext
    intro i hi
    by_cases hb : b.val = i
    · subst hb; simpa [State.bay] using h
    · simp [Vector.getElem_set, hb]
  simp only [State.setBay, State.still, e]

theorem State.modBay_still (s : State) (b : BayNo) (f : Bay → Bay) (h : ∀ x, (f x).still = x.still) :
    (s.modBay b f).still = s.still := s.setBay_still b _ (h _)

theorem State.emit_still (s : State) (o : Output) : (s.emit o).still = s.still := rfl

theorem State.takeFree_still (s : State) (w : Nat) : (s.takeFree w).2.still = s.still := rfl

theorem State.nextSeq_still (s : State) (b : BayNo) (n : Nat) (t : RecType) : (s.nextSeq b n t).2.still = s.still :=
  s.modBay_still b _ fun _ => rfl

theorem State.ringWrite_still (s : State) (r : Rec) : (s.ringWrite r).still = s.still := by
  simp only [State.ringWrite]
  split <;> rfl

theorem State.ringEvent_still (s : State) (r : Rec) (c : Bool) : (s.ringEvent r c).still = s.still := by
  simp only [State.ringEvent]
  (repeat' split) <;> first
    | rfl
    | exact State.ringWrite_still ..
    | exact (State.ringWrite_still ..).trans (State.ringWrite_still s _)

theorem State.ringOnly_still (s : State) (b : BayNo) (code : Nat) (p : List Word) (c : Bool) :
    (s.ringOnly b code p c).still = s.still := by
  have h : (s.modBay b fun x => { x with que := { x.que with ringSeq := (s.bay b).que.ringSeq + 1 } }).still = s.still :=
    s.modBay_still b _ fun _ => rfl
  simp only [State.ringOnly]
  split
  · exact h
  · exact (State.ringEvent_still ..).trans h

theorem State.modLnl_still (s : State) (b : BayNo) (f : LnlBay → LnlBay) (h : ∀ l : LnlBay, (f l).still = l.still) :
    (s.modLnl b f).still = s.still :=
  s.modBay_still b _ fun x => by simp only [Bay.still, h]

theorem State.drawn_still (s : State) (m r p i : Nat) : (s.drawn m r p i).2.still = s.still := by
  simp only [State.drawn]
  (repeat' split) <;> rfl

theorem State.modLink_still (s : State) (b : BayNo) (n : Fin 5) (f : Injector → Injector) : (s.modLink b n f).still = s.still :=
  s.modLnl_still b _ fun _ => rfl

theorem State.modInj_still (s : State) (n : Fin 64) (f : Injector → Injector) : (s.modInj n f).still = s.still := rfl

theorem State.linkDraw_still (s : State) (b : BayNo) (n : Fin 5) (c : Nat) : (s.linkDraw b n c).2.2.still = s.still := by
  simp only [State.linkDraw]
  (repeat' split) <;> first
    | rfl
    | exact (State.modLink_still ..).trans (State.drawn_still ..)

theorem State.streamDraw_still (s : State) (n : Fin 64) : (s.streamDraw n).2.still = s.still := by
  simp only [State.streamDraw]
  split
  · rfl
  · exact (State.modInj_still ..).trans (State.drawn_still ..)

theorem State.corrupt_still (s : State) (r : Rec) : (s.corrupt r).2.still = s.still := rfl

theorem State.passHeld_still (s : State) (b : BayNo) (n : Fin 5) (c : Nat) : (s.passHeld b n c).2.still = s.still :=
  s.modLink_still b n _

theorem State.holdPacket_still (s : State) (b : BayNo) (n : Fin 5) (a : Nat) (p : HeldPacket) :
    (s.holdPacket b n a p).still = s.still := s.modLink_still b n _

theorem State.modQueue_still (s : State) (b : BayNo) (i : Fin 16) (f : Queue → Queue) : (s.modQueue b i f).still = s.still :=
  s.modBay_still b _ fun _ => rfl

theorem State.putEntry_still (s : State) (b : BayNo) (i : Fin 16) (r : Rec) (v : Bool) : (s.putEntry b i r v).still = s.still := by
  unfold State.putEntry
  refine (State.modBay_still _ b (fun x => { x with que := { x.que with reservePeak := max x.que.reservePeak x.que.reserveBytes } })
    fun _ => rfl).trans (s.modQueue_still b i _)

theorem State.putDropped_still (s : State) (b : BayNo) (i : Fin 16) : (s.putDropped b i).still = s.still := by
  simp only [State.putDropped]
  split
  · rfl
  · exact ((State.putEntry_still ..).trans (State.modQueue_still ..)).trans (State.nextSeq_still ..)

theorem State.queueMarks_still (s : State) (b : BayNo) (i : Fin 16) (n : Nat) (e : Bool) :
    (s.queueMarks b i n e).2.still = s.still := by
  unfold State.queueMarks
  extract_lets y q mark high used full s1 s2
  have h1 : s1.still = s.still := by
    simp only [s1]
    split
    · exact s.modQueue_still b i _
    · rfl
  exact (s1.modBay_still b (fun x =>
    { x with que := { x.que with usedRaised := x.que.usedRaised || used, exhaustedRaised := x.que.exhaustedRaised || full } })
    fun _ => rfl).trans h1

theorem State.storeRec_still (s : State) (b : BayNo) (i : Fin 16) (r : Rec) : (s.storeRec b i r).2.2.still = s.still := by
  unfold State.storeRec
  extract_lets gapBytes s1 res s2 m ev s3 raised s4
  have h1 : s1.still = s.still := State.putDropped_still ..
  have h2 : s2.still = s1.still := State.putEntry_still ..
  split
  · exact (State.queueMarks_still ..).trans (h2.trans h1)
  · exact s.modQueue_still b i _

theorem State.fenceDrop_still (s : State) (b : BayNo) : (s.fenceDrop b).2.still = s.still := s.modBay_still b _ fun _ => rfl

theorem State.arrive_still (s : State) (b : BayNo) (q : Nat) (r : Rec) : (s.arrive b q r).2.2.still = s.still := by
  simp only [State.arrive]
  (repeat' split) <;> first
    | rfl
    | exact s.modLnl_still b _ fun _ => rfl
    | exact s.fenceDrop_still b
    | exact State.storeRec_still ..

theorem State.arriveHeld_still (s : State) (b : BayNo) (ps : List HeldPacket) : (s.arriveHeld b ps).2.still = s.still := by
  simp only [State.arriveHeld]
  generalize ([] : List (BayNo × Nat × Nat)) = e
  induction ps generalizing s e with
  | nil => rfl
  | cons p r ih =>
    rw [List.foldl_cons]
    cases p with
    | data d x => exact (ih _ _).trans (State.arrive_still ..)
    | fire c u f => exact ih _ _

theorem State.carry_still (s : State) (b : BayNo) (q : Nat) (n : Fin 5) (a : Nat) (r : Rec) :
    (s.carry b q n a r).2.2.still = s.still := by
  simp only [State.carry]
  refine (State.arriveHeld_still ..).trans ?_
  split
  · exact (State.arrive_still ..).trans (State.passHeld_still ..)
  · exact State.passHeld_still ..
  · exact ((State.arrive_still ..).trans (State.corrupt_still ..)).trans (State.passHeld_still ..)
  · exact (State.holdPacket_still ..).trans (State.passHeld_still ..)

theorem State.macQueue_still (s : State) (q : List (Nat × Rec)) :
    (s.modSeal fun k => { k with macQueue := q }).still = s.still := rfl

theorem State.streamPick_still (s : State) (qb : BayNo) (qi : Fin 16) : (s.streamPick qb qi).2.still = s.still := by
  unfold State.streamPick
  split
  · exact State.streamDraw_still ..
  · rfl

theorem State.handSeq_still (s : State) (b qb : BayNo) (qi : Fin 16) (r : RecBody) (n : Word) :
    (s.handSeq b qb qi r n).2.2.still = s.still := by
  unfold State.handSeq
  extract_lets queue
  split
  · split <;> rfl
  · have h := s.streamPick_still qb qi
    revert h
    generalize s.streamPick qb qi = p
    intro h
    obtain ⟨pick, s2⟩ := p
    dsimp only at h ⊢
    split
    · exact (State.arrive_still ..).trans h
    · rename_i i _
      have h3 := s2.linkDraw_still b i 0
      revert h3
      generalize s2.linkDraw b i 0 = w
      intro h3
      exact ((State.carry_still ..).trans h3).trans h

theorem State.handRaw_still (s : State) (b : BayNo) (q : Nat) (r : RecBody) : (s.handRaw b q r).2.2.still = s.still := by
  unfold State.handRaw
  split
  · rfl
  · split
    · rfl
    · have h := s.nextSeq_still b r.source r.typ
      revert h
      generalize s.nextSeq b r.source r.typ = p
      intro h
      exact (State.handSeq_still ..).trans h

theorem State.contextDue_still (s : State) (b : BayNo) (code : Nat) (p : List Word) : (s.contextDue b code p).still = s.still := by
  simp only [State.contextDue]
  split
  · rfl
  · simp only [State.modEthPkg, State.still, EthPkg.still, Vector.map_map]; rfl

theorem foldl_still {α : Type} (f : State → α → State) (h : ∀ s a, (f s a).still = s.still) (l : List α) :
    ∀ s, (l.foldl f s).still = s.still := by
  induction l with
  | nil => intro s; rfl
  | cons a r ih => intro s; exact (ih _).trans (h s a)

/-- Raising an event touches nothing else than what carrying records touches. -/
theorem State.event_still (s : State) (b : BayNo) (code : Nat) (p : List Word) (c : Bool) :
    (s.event b code p c).still = s.still := by
  simp only [State.event]
  exact (foldl_still _ (fun _ _ => State.ringOnly_still ..) _ _).trans
    ((State.handRaw_still ..).trans ((State.ringOnly_still ..).trans (State.contextDue_still ..)))

theorem State.queueEvents_still (s : State) (ev : List (BayNo × Nat × Nat)) : (s.queueEvents ev).still = s.still :=
  foldl_still _ (fun _ _ => State.event_still ..) _ _

theorem State.handOver_still (s : State) (b : BayNo) (q : Nat) (r : RecBody) : (s.handOver b q r).2.still = s.still :=
  (State.queueEvents_still ..).trans (State.handRaw_still ..)

theorem State.enqueue_still (s : State) (b : BayNo) (q : Nat) (r : RecBody) : (s.enqueue b q r).still = s.still :=
  s.handOver_still b q r

theorem State.enqueueEach_still (s : State) (b : BayNo) (qs : List (Fin 16)) (r : RecBody) :
    (s.enqueueEach b qs r).still = s.still := by
  unfold State.enqueueEach
  split
  · rfl
  · have h := s.nextSeq_still b r.source r.typ
    revert h
    generalize s.nextSeq b r.source r.typ = p
    intro h
    exact (foldl_still _ (fun _ _ => (State.queueEvents_still ..).trans (State.handSeq_still ..)) _ _).trans h

end Sys2Proof.Machine
end

