-- ==== Sys2Proof/Laws/Records.lean ====
section
/-! SUPPORT. Field by field, what raising an event and handing over a record leave as it was. -/
namespace Sys2Proof.Machine

theorem still_part {s t : State} (h : t.still = s.still) : t.part = s.part :=
  (congrArg (fun x : State => x.part) h : t.still.part = s.still.part)
theorem still_vals {s t : State} (h : t.still = s.still) : t.vals = s.vals :=
  (congrArg (fun x : State => x.vals) h : t.still.vals = s.still.vals)
theorem still_flash {s t : State} (h : t.still = s.still) : t.flash = s.flash :=
  (congrArg (fun x : State => x.flash) h : t.still.flash = s.still.flash)
theorem still_tbs {s t : State} (h : t.still = s.still) : t.tbs = s.tbs :=
  (congrArg (fun x : State => x.tbs) h : t.still.tbs = s.still.tbs)
theorem still_sel {s t : State} (h : t.still = s.still) : t.sel = s.sel :=
  (congrArg (fun x : State => x.sel) h : t.still.sel = s.still.sel)
theorem still_pwr {s t : State} (h : t.still = s.still) : t.pwr = s.pwr :=
  (congrArg (fun x : State => x.pwr) h : t.still.pwr = s.still.pwr)
theorem still_faults {s t : State} (h : t.still = s.still) : t.faults = s.faults :=
  (congrArg (fun x : State => x.faults) h : t.still.faults = s.still.faults)
theorem still_trg {s t : State} (h : t.still = s.still) : t.trg = s.trg :=
  (congrArg (fun x : State => x.trg) h : t.still.trg = s.still.trg)
theorem still_ident {s t : State} (h : t.still = s.still) : t.ident = s.ident :=
  (congrArg (fun x : State => x.ident) h : t.still.ident = s.still.ident)
theorem still_lnl {s t : State} (h : t.still = s.still) : t.lnl = s.lnl :=
  (congrArg (fun x : State => x.lnl) h : t.still.lnl = s.still.lnl)
theorem still_clrPin {s t : State} (h : t.still = s.still) : t.clrPin = s.clrPin :=
  (congrArg (fun x : State => x.clrPin) h : t.still.clrPin = s.still.clrPin)
theorem still_rstLow {s t : State} (h : t.still = s.still) : t.rstLow = s.rstLow :=
  (congrArg (fun x : State => x.rstLow) h : t.still.rstLow = s.still.rstLow)
theorem still_pending {s t : State} (h : t.still = s.still) : t.pending = s.pending :=
  (congrArg (fun x : State => x.pending) h : t.still.pending = s.still.pending)
theorem still_img_state {s t : State} (h : t.still = s.still) : t.img.state = s.img.state :=
  (congrArg (fun x : State => x.img.state) h : t.still.img.state = s.still.img.state)
theorem still_img_boot {s t : State} (h : t.still = s.still) : t.img.boot = s.img.boot :=
  (congrArg (fun x : State => x.img.boot) h : t.still.img.boot = s.still.img.boot)
theorem still_img_image {s t : State} (h : t.still = s.still) : t.img.image = s.img.image :=
  (congrArg (fun x : State => x.img.image) h : t.still.img.image = s.still.img.image)
theorem still_img_quadRead {s t : State} (h : t.still = s.still) : t.img.quadRead = s.img.quadRead :=
  (congrArg (fun x : State => x.img.quadRead) h : t.still.img.quadRead = s.still.img.quadRead)
theorem still_img_profile {s t : State} (h : t.still = s.still) : t.img.profile = s.img.profile :=
  (congrArg (fun x : State => x.img.profile) h : t.still.img.profile = s.still.img.profile)
theorem still_img_pins {s t : State} (h : t.still = s.still) : t.img.pins = s.img.pins :=
  (congrArg (fun x : State => x.img.pins) h : t.still.img.pins = s.still.img.pins)
theorem still_img_absentTold {s t : State} (h : t.still = s.still) : t.img.absentTold = s.img.absentTold :=
  (congrArg (fun x : State => x.img.absentTold) h : t.still.img.absentTold = s.still.img.absentTold)
theorem still_img_pinsTaken {s t : State} (h : t.still = s.still) : t.img.pinsTaken = s.img.pinsTaken :=
  (congrArg (fun x : State => x.img.pinsTaken) h : t.still.img.pinsTaken = s.still.img.pinsTaken)
theorem still_img_restartReq {s t : State} (h : t.still = s.still) : t.img.restartReq = s.img.restartReq :=
  (congrArg (fun x : State => x.img.restartReq) h : t.still.img.restartReq = s.still.img.restartReq)
theorem still_img_ignored {s t : State} (h : t.still = s.still) : t.img.ignored = s.img.ignored :=
  (congrArg (fun x : State => x.img.ignored) h : t.still.img.ignored = s.still.img.ignored)
theorem still_img_refusal {s t : State} (h : t.still = s.still) : t.img.refusal = s.img.refusal :=
  (congrArg (fun x : State => x.img.refusal) h : t.still.img.refusal = s.still.img.refusal)
theorem still_img_cmd {s t : State} (h : t.still = s.still) : t.img.cmd = s.img.cmd :=
  (congrArg (fun x : State => x.img.cmd) h : t.still.img.cmd = s.still.img.cmd)
theorem still_img_buffering {s t : State} (h : t.still = s.still) : t.img.buffering = s.img.buffering :=
  (congrArg (fun x : State => x.img.buffering) h : t.still.img.buffering = s.still.img.buffering)
theorem still_img_flashQueue {s t : State} (h : t.still = s.still) : t.img.flashQueue = s.img.flashQueue :=
  (congrArg (fun x : State => x.img.flashQueue) h : t.still.img.flashQueue = s.still.img.flashQueue)
theorem still_img_waiting {s t : State} (h : t.still = s.still) : t.img.waiting = s.img.waiting :=
  (congrArg (fun x : State => x.img.waiting) h : t.still.img.waiting = s.still.img.waiting)
theorem still_keeper_fuses {s t : State} (h : t.still = s.still) : t.keeper.fuses = s.keeper.fuses :=
  (congrArg (fun x : State => x.keeper.fuses) h : t.still.keeper.fuses = s.still.keeper.fuses)
theorem still_keeper_island {s t : State} (h : t.still = s.still) : t.keeper.island = s.keeper.island :=
  (congrArg (fun x : State => x.keeper.island) h : t.still.keeper.island = s.still.keeper.island)
theorem still_keeper_reserved {s t : State} (h : t.still = s.still) : t.keeper.reserved = s.keeper.reserved :=
  (congrArg (fun x : State => x.keeper.reserved) h : t.still.keeper.reserved = s.still.keeper.reserved)
theorem still_keeper_rowPending {s t : State} (h : t.still = s.still) : t.keeper.rowPending = s.keeper.rowPending :=
  (congrArg (fun x : State => x.keeper.rowPending) h : t.still.keeper.rowPending = s.still.keeper.rowPending)
theorem still_keeper_logFirst {s t : State} (h : t.still = s.still) : t.keeper.logFirst = s.keeper.logFirst :=
  (congrArg (fun x : State => x.keeper.logFirst) h : t.still.keeper.logFirst = s.still.keeper.logFirst)
theorem still_keeper_logCount {s t : State} (h : t.still = s.still) : t.keeper.logCount = s.keeper.logCount :=
  (congrArg (fun x : State => x.keeper.logCount) h : t.still.keeper.logCount = s.still.keeper.logCount)
theorem still_keeper_logPrior {s t : State} (h : t.still = s.still) : t.keeper.logPrior = s.keeper.logPrior :=
  (congrArg (fun x : State => x.keeper.logPrior) h : t.still.keeper.logPrior = s.still.keeper.logPrior)
theorem still_keeper_logArchives {s t : State} (h : t.still = s.still) : t.keeper.logArchives = s.keeper.logArchives :=
  (congrArg (fun x : State => x.keeper.logArchives) h : t.still.keeper.logArchives = s.still.keeper.logArchives)
theorem still_keeper_fullTold {s t : State} (h : t.still = s.still) : t.keeper.fullTold = s.keeper.fullTold :=
  (congrArg (fun x : State => x.keeper.fullTold) h : t.still.keeper.fullTold = s.still.keeper.fullTold)
theorem still_keeper_broken {s t : State} (h : t.still = s.still) : t.keeper.broken = s.keeper.broken :=
  (congrArg (fun x : State => x.keeper.broken) h : t.still.keeper.broken = s.still.keeper.broken)
theorem still_keeper_verifyDone {s t : State} (h : t.still = s.still) : t.keeper.verifyDone = s.keeper.verifyDone :=
  (congrArg (fun x : State => x.keeper.verifyDone) h : t.still.keeper.verifyDone = s.still.keeper.verifyDone)
theorem still_keeper_verifyResult {s t : State} (h : t.still = s.still) : t.keeper.verifyResult = s.keeper.verifyResult :=
  (congrArg (fun x : State => x.keeper.verifyResult) h : t.still.keeper.verifyResult = s.still.keeper.verifyResult)
theorem still_keeper_verifyFirst {s t : State} (h : t.still = s.still) : t.keeper.verifyFirst = s.keeper.verifyFirst :=
  (congrArg (fun x : State => x.keeper.verifyFirst) h : t.still.keeper.verifyFirst = s.still.keeper.verifyFirst)
theorem still_keeper_verifying {s t : State} (h : t.still = s.still) : t.keeper.verifying = s.keeper.verifying :=
  (congrArg (fun x : State => x.keeper.verifying) h : t.still.keeper.verifying = s.still.keeper.verifying)
theorem still_keeper_box {s t : State} (h : t.still = s.still) : t.keeper.box = s.keeper.box :=
  (congrArg (fun x : State => x.keeper.box) h : t.still.keeper.box = s.still.keeper.box)
theorem still_keeper_logSel {s t : State} (h : t.still = s.still) : t.keeper.logSel = s.keeper.logSel :=
  (congrArg (fun x : State => x.keeper.logSel) h : t.still.keeper.logSel = s.still.keeper.logSel)
theorem still_eth_neighbours {s t : State} (h : t.still = s.still) : t.eth.neighbours = s.eth.neighbours :=
  (congrArg (fun x : State => x.eth.neighbours) h : t.still.eth.neighbours = s.still.eth.neighbours)
theorem still_eth_ptpState {s t : State} (h : t.still = s.still) : t.eth.ptpState = s.eth.ptpState :=
  (congrArg (fun x : State => x.eth.ptpState) h : t.still.eth.ptpState = s.still.eth.ptpState)
theorem still_eth_ptpSource {s t : State} (h : t.still = s.still) : t.eth.ptpSource = s.eth.ptpSource :=
  (congrArg (fun x : State => x.eth.ptpSource) h : t.still.eth.ptpSource = s.still.eth.ptpSource)
theorem still_inj_killed {s t : State} (h : t.still = s.still) : t.inj.killed = s.inj.killed :=
  (congrArg (fun x : State => x.inj.killed) h : t.still.inj.killed = s.still.inj.killed)

theorem still_bay {s t : State} (h : t.still = s.still) (c : BayNo) : (t.bay c).still = (s.bay c).still := by
  have e : t.bays.map Bay.still = s.bays.map Bay.still := congrArg State.bays h
  have e2 := congrArg (fun v : Vector Bay 8 => v[c]) e
  simpa [State.bay] using e2

theorem still_bay_lost {s t : State} (h : t.still = s.still) (c : BayNo) : (t.bay c).lost = (s.bay c).lost :=
  (congrArg (fun x : Bay => x.lost) (still_bay h c) : (t.bay c).still.lost = (s.bay c).still.lost)
theorem still_bay_clk {s t : State} (h : t.still = s.still) (c : BayNo) : (t.bay c).clk = (s.bay c).clk :=
  (congrArg (fun x : Bay => x.clk) (still_bay h c) : (t.bay c).still.clk = (s.bay c).still.clk)
theorem still_bay_tbs {s t : State} (h : t.still = s.still) (c : BayNo) : (t.bay c).tbs = (s.bay c).tbs :=
  (congrArg (fun x : Bay => x.tbs) (still_bay h c) : (t.bay c).still.tbs = (s.bay c).still.tbs)
theorem still_bay_dma {s t : State} (h : t.still = s.still) (c : BayNo) : (t.bay c).dma = (s.bay c).dma :=
  (congrArg (fun x : Bay => x.dma) (still_bay h c) : (t.bay c).still.dma = (s.bay c).still.dma)
theorem still_bay_pwr {s t : State} (h : t.still = s.still) (c : BayNo) : (t.bay c).pwr = (s.bay c).pwr :=
  (congrArg (fun x : Bay => x.pwr) (still_bay h c) : (t.bay c).still.pwr = (s.bay c).still.pwr)
theorem still_bay_trg {s t : State} (h : t.still = s.still) (c : BayNo) : (t.bay c).trg = (s.bay c).trg :=
  (congrArg (fun x : Bay => x.trg) (still_bay h c) : (t.bay c).still.trg = (s.bay c).still.trg)
theorem still_bay_afe {s t : State} (h : t.still = s.still) (c : BayNo) : (t.bay c).afe = (s.bay c).afe :=
  (congrArg (fun x : Bay => x.afe) (still_bay h c) : (t.bay c).still.afe = (s.bay c).still.afe)
theorem still_bay_adc {s t : State} (h : t.still = s.still) (c : BayNo) : (t.bay c).adc = (s.bay c).adc :=
  (congrArg (fun x : Bay => x.adc) (still_bay h c) : (t.bay c).still.adc = (s.bay c).still.adc)
theorem still_bay_ddc {s t : State} (h : t.still = s.still) (c : BayNo) : (t.bay c).ddc = (s.bay c).ddc :=
  (congrArg (fun x : Bay => x.ddc) (still_bay h c) : (t.bay c).still.ddc = (s.bay c).still.ddc)
theorem still_bay_xfm {s t : State} (h : t.still = s.still) (c : BayNo) : (t.bay c).xfm = (s.bay c).xfm :=
  (congrArg (fun x : Bay => x.xfm) (still_bay h c) : (t.bay c).still.xfm = (s.bay c).still.xfm)
theorem still_bay_den {s t : State} (h : t.still = s.still) (c : BayNo) : (t.bay c).den = (s.bay c).den :=
  (congrArg (fun x : Bay => x.den) (still_bay h c) : (t.bay c).still.den = (s.bay c).still.den)
theorem still_bay_mco {s t : State} (h : t.still = s.still) (c : BayNo) : (t.bay c).mco = (s.bay c).mco :=
  (congrArg (fun x : Bay => x.mco) (still_bay h c) : (t.bay c).still.mco = (s.bay c).still.mco)
theorem still_bay_scn {s t : State} (h : t.still = s.still) (c : BayNo) : (t.bay c).scn = (s.bay c).scn :=
  (congrArg (fun x : Bay => x.scn) (still_bay h c) : (t.bay c).still.scn = (s.bay c).still.scn)
theorem still_bay_recorder {s t : State} (h : t.still = s.still) (c : BayNo) : (t.bay c).recorder = (s.bay c).recorder :=
  (congrArg (fun x : Bay => x.recorder) (still_bay h c) : (t.bay c).still.recorder = (s.bay c).still.recorder)
theorem still_bay_lne {s t : State} (h : t.still = s.still) (c : BayNo) : (t.bay c).lne = (s.bay c).lne :=
  (congrArg (fun x : Bay => x.lne) (still_bay h c) : (t.bay c).still.lne = (s.bay c).still.lne)
theorem still_bay_pci {s t : State} (h : t.still = s.still) (c : BayNo) : (t.bay c).pci = (s.bay c).pci :=
  (congrArg (fun x : Bay => x.pci) (still_bay h c) : (t.bay c).still.pci = (s.bay c).still.pci)
theorem still_bay_eth {s t : State} (h : t.still = s.still) (c : BayNo) : (t.bay c).eth = (s.bay c).eth :=
  (congrArg (fun x : Bay => x.eth) (still_bay h c) : (t.bay c).still.eth = (s.bay c).still.eth)
theorem still_bay_jes {s t : State} (h : t.still = s.still) (c : BayNo) : (t.bay c).jes = (s.bay c).jes :=
  (congrArg (fun x : Bay => x.jes) (still_bay h c) : (t.bay c).still.jes = (s.bay c).still.jes)
theorem still_bay_cal {s t : State} (h : t.still = s.still) (c : BayNo) : (t.bay c).cal = (s.bay c).cal :=
  (congrArg (fun x : Bay => x.cal) (still_bay h c) : (t.bay c).still.cal = (s.bay c).still.cal)
theorem still_bay_hkc {s t : State} (h : t.still = s.still) (c : BayNo) : (t.bay c).hkc = (s.bay c).hkc :=
  (congrArg (fun x : Bay => x.hkc) (still_bay h c) : (t.bay c).still.hkc = (s.bay c).still.hkc)
theorem still_bay_aux {s t : State} (h : t.still = s.still) (c : BayNo) : (t.bay c).aux = (s.bay c).aux :=
  (congrArg (fun x : Bay => x.aux) (still_bay h c) : (t.bay c).still.aux = (s.bay c).still.aux)
theorem still_bay_mon {s t : State} (h : t.still = s.still) (c : BayNo) : (t.bay c).mon = (s.bay c).mon :=
  (congrArg (fun x : Bay => x.mon) (still_bay h c) : (t.bay c).still.mon = (s.bay c).still.mon)
theorem still_bay_jtag {s t : State} (h : t.still = s.still) (c : BayNo) : (t.bay c).jtag = (s.bay c).jtag :=
  (congrArg (fun x : Bay => x.jtag) (still_bay h c) : (t.bay c).still.jtag = (s.bay c).still.jtag)
theorem still_bay_lnl_ports {s t : State} (h : t.still = s.still) (c : BayNo) : (t.bay c).lnl.ports = (s.bay c).lnl.ports :=
  (congrArg (fun x : Bay => x.lnl.ports) (still_bay h c) : (t.bay c).still.lnl.ports = (s.bay c).still.lnl.ports)
theorem still_bay_lnl_routes {s t : State} (h : t.still = s.still) (c : BayNo) : (t.bay c).lnl.routes = (s.bay c).lnl.routes :=
  (congrArg (fun x : Bay => x.lnl.routes) (still_bay h c) : (t.bay c).still.lnl.routes = (s.bay c).still.lnl.routes)
theorem still_bay_lnl_updateDue {s t : State} (h : t.still = s.still) (c : BayNo) : (t.bay c).lnl.updateDue = (s.bay c).lnl.updateDue :=
  (congrArg (fun x : Bay => x.lnl.updateDue) (still_bay h c) : (t.bay c).still.lnl.updateDue = (s.bay c).still.lnl.updateDue)
theorem still_bay_lnl_reroutes {s t : State} (h : t.still = s.still) (c : BayNo) : (t.bay c).lnl.reroutes = (s.bay c).lnl.reroutes :=
  (congrArg (fun x : Bay => x.lnl.reroutes) (still_bay h c) : (t.bay c).still.lnl.reroutes = (s.bay c).still.lnl.reroutes)
theorem still_bay_lnl_island {s t : State} (h : t.still = s.still) (c : BayNo) : (t.bay c).lnl.island = (s.bay c).lnl.island :=
  (congrArg (fun x : Bay => x.lnl.island) (still_bay h c) : (t.bay c).still.lnl.island = (s.bay c).still.lnl.island)

theorem still_alive {s t : State} (h : t.still = s.still) (c : BayNo) : t.alive c = s.alive c :=
  State.alive_congr c (by have e := congrArg State.running h; exact e) (still_part h) (still_bay_lost h c)

theorem still_liveBays {s t : State} (h : t.still = s.still) : t.liveBays = s.liveBays :=
  State.liveBays_congr (still_alive h)

theorem still_nowAt {s t : State} (h : t.still = s.still) (c : BayNo) : t.nowAt c = s.nowAt c :=
  congrArg (fun x : TbsBay => Tide.stamp x.tide) (still_bay_tbs h c)

theorem still_now {s t : State} (h : t.still = s.still) : t.now = s.now := still_nowAt h 0

theorem still_fld {s t : State} (h : t.still = s.still) (g : Field) (c : BayNo) (j k : Nat) : t.fld g c j k = s.fld g c j k :=
  congrArg (fun v : Vals => v.of g c.val j k) (still_vals h)

theorem still_fldN {s t : State} (h : t.still = s.still) (g : Field) (c : BayNo) (j k : Nat) : t.fldN g c j k = s.fldN g c j k :=
  congrArg Int.toNat (still_fld h g c j k)

theorem still_fldB {s t : State} (h : t.still = s.still) (g : Field) (c : BayNo) (j : Nat) : t.fldB g c j = s.fldB g c j :=
  congrArg (fun v : Vals => decide (v.of g c.val j 0 ≠ 0)) (still_vals h)

theorem still_pkgN {s t : State} (h : t.still = s.still) (g : Field) (j : Nat) : t.pkgN g j = s.pkgN g j := still_fldN h g 0 j 0

@[simp] theorem State.event_part (s : State) (b : BayNo) (code : Nat) (p : List Word) (c : Bool) : (State.event s b code p c).part = s.part := still_part (s.event_still b code p c)
@[simp] theorem State.event_vals (s : State) (b : BayNo) (code : Nat) (p : List Word) (c : Bool) : (State.event s b code p c).vals = s.vals := still_vals (s.event_still b code p c)
@[simp] theorem State.event_flash (s : State) (b : BayNo) (code : Nat) (p : List Word) (c : Bool) : (State.event s b code p c).flash = s.flash := still_flash (s.event_still b code p c)
@[simp] theorem State.event_tbs (s : State) (b : BayNo) (code : Nat) (p : List Word) (c : Bool) : (State.event s b code p c).tbs = s.tbs := still_tbs (s.event_still b code p c)
@[simp] theorem State.event_sel (s : State) (b : BayNo) (code : Nat) (p : List Word) (c : Bool) : (State.event s b code p c).sel = s.sel := still_sel (s.event_still b code p c)
@[simp] theorem State.event_pwr (s : State) (b : BayNo) (code : Nat) (p : List Word) (c : Bool) : (State.event s b code p c).pwr = s.pwr := still_pwr (s.event_still b code p c)
@[simp] theorem State.event_faults (s : State) (b : BayNo) (code : Nat) (p : List Word) (c : Bool) : (State.event s b code p c).faults = s.faults := still_faults (s.event_still b code p c)
@[simp] theorem State.event_trg (s : State) (b : BayNo) (code : Nat) (p : List Word) (c : Bool) : (State.event s b code p c).trg = s.trg := still_trg (s.event_still b code p c)
@[simp] theorem State.event_ident (s : State) (b : BayNo) (code : Nat) (p : List Word) (c : Bool) : (State.event s b code p c).ident = s.ident := still_ident (s.event_still b code p c)
@[simp] theorem State.event_lnl (s : State) (b : BayNo) (code : Nat) (p : List Word) (c : Bool) : (State.event s b code p c).lnl = s.lnl := still_lnl (s.event_still b code p c)
@[simp] theorem State.event_clrPin (s : State) (b : BayNo) (code : Nat) (p : List Word) (c : Bool) : (State.event s b code p c).clrPin = s.clrPin := still_clrPin (s.event_still b code p c)
@[simp] theorem State.event_rstLow (s : State) (b : BayNo) (code : Nat) (p : List Word) (c : Bool) : (State.event s b code p c).rstLow = s.rstLow := still_rstLow (s.event_still b code p c)
@[simp] theorem State.event_pending (s : State) (b : BayNo) (code : Nat) (p : List Word) (c : Bool) : (State.event s b code p c).pending = s.pending := still_pending (s.event_still b code p c)
@[simp] theorem State.event_img_state (s : State) (b : BayNo) (code : Nat) (p : List Word) (c : Bool) : (State.event s b code p c).img.state = s.img.state := still_img_state (s.event_still b code p c)
@[simp] theorem State.event_img_boot (s : State) (b : BayNo) (code : Nat) (p : List Word) (c : Bool) : (State.event s b code p c).img.boot = s.img.boot := still_img_boot (s.event_still b code p c)
@[simp] theorem State.event_img_image (s : State) (b : BayNo) (code : Nat) (p : List Word) (c : Bool) : (State.event s b code p c).img.image = s.img.image := still_img_image (s.event_still b code p c)
@[simp] theorem State.event_img_quadRead (s : State) (b : BayNo) (code : Nat) (p : List Word) (c : Bool) : (State.event s b code p c).img.quadRead = s.img.quadRead := still_img_quadRead (s.event_still b code p c)
@[simp] theorem State.event_img_profile (s : State) (b : BayNo) (code : Nat) (p : List Word) (c : Bool) : (State.event s b code p c).img.profile = s.img.profile := still_img_profile (s.event_still b code p c)
@[simp] theorem State.event_img_pins (s : State) (b : BayNo) (code : Nat) (p : List Word) (c : Bool) : (State.event s b code p c).img.pins = s.img.pins := still_img_pins (s.event_still b code p c)
@[simp] theorem State.event_img_absentTold (s : State) (b : BayNo) (code : Nat) (p : List Word) (c : Bool) : (State.event s b code p c).img.absentTold = s.img.absentTold := still_img_absentTold (s.event_still b code p c)
@[simp] theorem State.event_img_pinsTaken (s : State) (b : BayNo) (code : Nat) (p : List Word) (c : Bool) : (State.event s b code p c).img.pinsTaken = s.img.pinsTaken := still_img_pinsTaken (s.event_still b code p c)
@[simp] theorem State.event_img_restartReq (s : State) (b : BayNo) (code : Nat) (p : List Word) (c : Bool) : (State.event s b code p c).img.restartReq = s.img.restartReq := still_img_restartReq (s.event_still b code p c)
@[simp] theorem State.event_img_ignored (s : State) (b : BayNo) (code : Nat) (p : List Word) (c : Bool) : (State.event s b code p c).img.ignored = s.img.ignored := still_img_ignored (s.event_still b code p c)
@[simp] theorem State.event_img_refusal (s : State) (b : BayNo) (code : Nat) (p : List Word) (c : Bool) : (State.event s b code p c).img.refusal = s.img.refusal := still_img_refusal (s.event_still b code p c)
@[simp] theorem State.event_img_cmd (s : State) (b : BayNo) (code : Nat) (p : List Word) (c : Bool) : (State.event s b code p c).img.cmd = s.img.cmd := still_img_cmd (s.event_still b code p c)
@[simp] theorem State.event_img_buffering (s : State) (b : BayNo) (code : Nat) (p : List Word) (c : Bool) : (State.event s b code p c).img.buffering = s.img.buffering := still_img_buffering (s.event_still b code p c)
@[simp] theorem State.event_img_flashQueue (s : State) (b : BayNo) (code : Nat) (p : List Word) (c : Bool) : (State.event s b code p c).img.flashQueue = s.img.flashQueue := still_img_flashQueue (s.event_still b code p c)
@[simp] theorem State.event_img_waiting (s : State) (b : BayNo) (code : Nat) (p : List Word) (c : Bool) : (State.event s b code p c).img.waiting = s.img.waiting := still_img_waiting (s.event_still b code p c)
@[simp] theorem State.event_keeper_fuses (s : State) (b : BayNo) (code : Nat) (p : List Word) (c : Bool) : (State.event s b code p c).keeper.fuses = s.keeper.fuses := still_keeper_fuses (s.event_still b code p c)
@[simp] theorem State.event_keeper_island (s : State) (b : BayNo) (code : Nat) (p : List Word) (c : Bool) : (State.event s b code p c).keeper.island = s.keeper.island := still_keeper_island (s.event_still b code p c)
@[simp] theorem State.event_keeper_reserved (s : State) (b : BayNo) (code : Nat) (p : List Word) (c : Bool) : (State.event s b code p c).keeper.reserved = s.keeper.reserved := still_keeper_reserved (s.event_still b code p c)
@[simp] theorem State.event_keeper_rowPending (s : State) (b : BayNo) (code : Nat) (p : List Word) (c : Bool) : (State.event s b code p c).keeper.rowPending = s.keeper.rowPending := still_keeper_rowPending (s.event_still b code p c)
@[simp] theorem State.event_keeper_logFirst (s : State) (b : BayNo) (code : Nat) (p : List Word) (c : Bool) : (State.event s b code p c).keeper.logFirst = s.keeper.logFirst := still_keeper_logFirst (s.event_still b code p c)
@[simp] theorem State.event_keeper_logCount (s : State) (b : BayNo) (code : Nat) (p : List Word) (c : Bool) : (State.event s b code p c).keeper.logCount = s.keeper.logCount := still_keeper_logCount (s.event_still b code p c)
@[simp] theorem State.event_keeper_logPrior (s : State) (b : BayNo) (code : Nat) (p : List Word) (c : Bool) : (State.event s b code p c).keeper.logPrior = s.keeper.logPrior := still_keeper_logPrior (s.event_still b code p c)
@[simp] theorem State.event_keeper_logArchives (s : State) (b : BayNo) (code : Nat) (p : List Word) (c : Bool) : (State.event s b code p c).keeper.logArchives = s.keeper.logArchives := still_keeper_logArchives (s.event_still b code p c)
@[simp] theorem State.event_keeper_fullTold (s : State) (b : BayNo) (code : Nat) (p : List Word) (c : Bool) : (State.event s b code p c).keeper.fullTold = s.keeper.fullTold := still_keeper_fullTold (s.event_still b code p c)
@[simp] theorem State.event_keeper_broken (s : State) (b : BayNo) (code : Nat) (p : List Word) (c : Bool) : (State.event s b code p c).keeper.broken = s.keeper.broken := still_keeper_broken (s.event_still b code p c)
@[simp] theorem State.event_keeper_verifyDone (s : State) (b : BayNo) (code : Nat) (p : List Word) (c : Bool) : (State.event s b code p c).keeper.verifyDone = s.keeper.verifyDone := still_keeper_verifyDone (s.event_still b code p c)
@[simp] theorem State.event_keeper_verifyResult (s : State) (b : BayNo) (code : Nat) (p : List Word) (c : Bool) : (State.event s b code p c).keeper.verifyResult = s.keeper.verifyResult := still_keeper_verifyResult (s.event_still b code p c)
@[simp] theorem State.event_keeper_verifyFirst (s : State) (b : BayNo) (code : Nat) (p : List Word) (c : Bool) : (State.event s b code p c).keeper.verifyFirst = s.keeper.verifyFirst := still_keeper_verifyFirst (s.event_still b code p c)
@[simp] theorem State.event_keeper_verifying (s : State) (b : BayNo) (code : Nat) (p : List Word) (c : Bool) : (State.event s b code p c).keeper.verifying = s.keeper.verifying := still_keeper_verifying (s.event_still b code p c)
@[simp] theorem State.event_keeper_box (s : State) (b : BayNo) (code : Nat) (p : List Word) (c : Bool) : (State.event s b code p c).keeper.box = s.keeper.box := still_keeper_box (s.event_still b code p c)
@[simp] theorem State.event_keeper_logSel (s : State) (b : BayNo) (code : Nat) (p : List Word) (c : Bool) : (State.event s b code p c).keeper.logSel = s.keeper.logSel := still_keeper_logSel (s.event_still b code p c)
@[simp] theorem State.event_eth_neighbours (s : State) (b : BayNo) (code : Nat) (p : List Word) (c : Bool) : (State.event s b code p c).eth.neighbours = s.eth.neighbours := still_eth_neighbours (s.event_still b code p c)
@[simp] theorem State.event_eth_ptpState (s : State) (b : BayNo) (code : Nat) (p : List Word) (c : Bool) : (State.event s b code p c).eth.ptpState = s.eth.ptpState := still_eth_ptpState (s.event_still b code p c)
@[simp] theorem State.event_eth_ptpSource (s : State) (b : BayNo) (code : Nat) (p : List Word) (c : Bool) : (State.event s b code p c).eth.ptpSource = s.eth.ptpSource := still_eth_ptpSource (s.event_still b code p c)
@[simp] theorem State.event_inj_killed (s : State) (b : BayNo) (code : Nat) (p : List Word) (c : Bool) : (State.event s b code p c).inj.killed = s.inj.killed := still_inj_killed (s.event_still b code p c)
@[simp] theorem State.event_bay_lost (s : State) (b : BayNo) (code : Nat) (p : List Word) (c : Bool) (cc : BayNo) : ((State.event s b code p c).bay cc).lost = (s.bay cc).lost :=
  still_bay_lost (s.event_still b code p c) cc
@[simp] theorem State.event_bay_clk (s : State) (b : BayNo) (code : Nat) (p : List Word) (c : Bool) (cc : BayNo) : ((State.event s b code p c).bay cc).clk = (s.bay cc).clk :=
  still_bay_clk (s.event_still b code p c) cc
@[simp] theorem State.event_bay_tbs (s : State) (b : BayNo) (code : Nat) (p : List Word) (c : Bool) (cc : BayNo) : ((State.event s b code p c).bay cc).tbs = (s.bay cc).tbs :=
  still_bay_tbs (s.event_still b code p c) cc
@[simp] theorem State.event_bay_dma (s : State) (b : BayNo) (code : Nat) (p : List Word) (c : Bool) (cc : BayNo) : ((State.event s b code p c).bay cc).dma = (s.bay cc).dma :=
  still_bay_dma (s.event_still b code p c) cc
@[simp] theorem State.event_bay_pwr (s : State) (b : BayNo) (code : Nat) (p : List Word) (c : Bool) (cc : BayNo) : ((State.event s b code p c).bay cc).pwr = (s.bay cc).pwr :=
  still_bay_pwr (s.event_still b code p c) cc
@[simp] theorem State.event_bay_trg (s : State) (b : BayNo) (code : Nat) (p : List Word) (c : Bool) (cc : BayNo) : ((State.event s b code p c).bay cc).trg = (s.bay cc).trg :=
  still_bay_trg (s.event_still b code p c) cc
@[simp] theorem State.event_bay_afe (s : State) (b : BayNo) (code : Nat) (p : List Word) (c : Bool) (cc : BayNo) : ((State.event s b code p c).bay cc).afe = (s.bay cc).afe :=
  still_bay_afe (s.event_still b code p c) cc
@[simp] theorem State.event_bay_adc (s : State) (b : BayNo) (code : Nat) (p : List Word) (c : Bool) (cc : BayNo) : ((State.event s b code p c).bay cc).adc = (s.bay cc).adc :=
  still_bay_adc (s.event_still b code p c) cc
@[simp] theorem State.event_bay_ddc (s : State) (b : BayNo) (code : Nat) (p : List Word) (c : Bool) (cc : BayNo) : ((State.event s b code p c).bay cc).ddc = (s.bay cc).ddc :=
  still_bay_ddc (s.event_still b code p c) cc
@[simp] theorem State.event_bay_xfm (s : State) (b : BayNo) (code : Nat) (p : List Word) (c : Bool) (cc : BayNo) : ((State.event s b code p c).bay cc).xfm = (s.bay cc).xfm :=
  still_bay_xfm (s.event_still b code p c) cc
@[simp] theorem State.event_bay_den (s : State) (b : BayNo) (code : Nat) (p : List Word) (c : Bool) (cc : BayNo) : ((State.event s b code p c).bay cc).den = (s.bay cc).den :=
  still_bay_den (s.event_still b code p c) cc
@[simp] theorem State.event_bay_mco (s : State) (b : BayNo) (code : Nat) (p : List Word) (c : Bool) (cc : BayNo) : ((State.event s b code p c).bay cc).mco = (s.bay cc).mco :=
  still_bay_mco (s.event_still b code p c) cc
@[simp] theorem State.event_bay_scn (s : State) (b : BayNo) (code : Nat) (p : List Word) (c : Bool) (cc : BayNo) : ((State.event s b code p c).bay cc).scn = (s.bay cc).scn :=
  still_bay_scn (s.event_still b code p c) cc
@[simp] theorem State.event_bay_recorder (s : State) (b : BayNo) (code : Nat) (p : List Word) (c : Bool) (cc : BayNo) : ((State.event s b code p c).bay cc).recorder = (s.bay cc).recorder :=
  still_bay_recorder (s.event_still b code p c) cc
@[simp] theorem State.event_bay_lne (s : State) (b : BayNo) (code : Nat) (p : List Word) (c : Bool) (cc : BayNo) : ((State.event s b code p c).bay cc).lne = (s.bay cc).lne :=
  still_bay_lne (s.event_still b code p c) cc
@[simp] theorem State.event_bay_pci (s : State) (b : BayNo) (code : Nat) (p : List Word) (c : Bool) (cc : BayNo) : ((State.event s b code p c).bay cc).pci = (s.bay cc).pci :=
  still_bay_pci (s.event_still b code p c) cc
@[simp] theorem State.event_bay_eth (s : State) (b : BayNo) (code : Nat) (p : List Word) (c : Bool) (cc : BayNo) : ((State.event s b code p c).bay cc).eth = (s.bay cc).eth :=
  still_bay_eth (s.event_still b code p c) cc
@[simp] theorem State.event_bay_jes (s : State) (b : BayNo) (code : Nat) (p : List Word) (c : Bool) (cc : BayNo) : ((State.event s b code p c).bay cc).jes = (s.bay cc).jes :=
  still_bay_jes (s.event_still b code p c) cc
@[simp] theorem State.event_bay_cal (s : State) (b : BayNo) (code : Nat) (p : List Word) (c : Bool) (cc : BayNo) : ((State.event s b code p c).bay cc).cal = (s.bay cc).cal :=
  still_bay_cal (s.event_still b code p c) cc
@[simp] theorem State.event_bay_hkc (s : State) (b : BayNo) (code : Nat) (p : List Word) (c : Bool) (cc : BayNo) : ((State.event s b code p c).bay cc).hkc = (s.bay cc).hkc :=
  still_bay_hkc (s.event_still b code p c) cc
@[simp] theorem State.event_bay_aux (s : State) (b : BayNo) (code : Nat) (p : List Word) (c : Bool) (cc : BayNo) : ((State.event s b code p c).bay cc).aux = (s.bay cc).aux :=
  still_bay_aux (s.event_still b code p c) cc
@[simp] theorem State.event_bay_mon (s : State) (b : BayNo) (code : Nat) (p : List Word) (c : Bool) (cc : BayNo) : ((State.event s b code p c).bay cc).mon = (s.bay cc).mon :=
  still_bay_mon (s.event_still b code p c) cc
@[simp] theorem State.event_bay_jtag (s : State) (b : BayNo) (code : Nat) (p : List Word) (c : Bool) (cc : BayNo) : ((State.event s b code p c).bay cc).jtag = (s.bay cc).jtag :=
  still_bay_jtag (s.event_still b code p c) cc
@[simp] theorem State.event_bay_lnl_ports (s : State) (b : BayNo) (code : Nat) (p : List Word) (c : Bool) (cc : BayNo) : ((State.event s b code p c).bay cc).lnl.ports = (s.bay cc).lnl.ports :=
  still_bay_lnl_ports (s.event_still b code p c) cc
@[simp] theorem State.event_bay_lnl_routes (s : State) (b : BayNo) (code : Nat) (p : List Word) (c : Bool) (cc : BayNo) : ((State.event s b code p c).bay cc).lnl.routes = (s.bay cc).lnl.routes :=
  still_bay_lnl_routes (s.event_still b code p c) cc
@[simp] theorem State.event_bay_lnl_updateDue (s : State) (b : BayNo) (code : Nat) (p : List Word) (c : Bool) (cc : BayNo) : ((State.event s b code p c).bay cc).lnl.updateDue = (s.bay cc).lnl.updateDue :=
  still_bay_lnl_updateDue (s.event_still b code p c) cc
@[simp] theorem State.event_bay_lnl_reroutes (s : State) (b : BayNo) (code : Nat) (p : List Word) (c : Bool) (cc : BayNo) : ((State.event s b code p c).bay cc).lnl.reroutes = (s.bay cc).lnl.reroutes :=
  still_bay_lnl_reroutes (s.event_still b code p c) cc
@[simp] theorem State.event_bay_lnl_island (s : State) (b : BayNo) (code : Nat) (p : List Word) (c : Bool) (cc : BayNo) : ((State.event s b code p c).bay cc).lnl.island = (s.bay cc).lnl.island :=
  still_bay_lnl_island (s.event_still b code p c) cc
@[simp] theorem State.event_alive (s : State) (b : BayNo) (code : Nat) (p : List Word) (c : Bool) (cc : BayNo) : (State.event s b code p c).alive cc = s.alive cc :=
  still_alive (s.event_still b code p c) cc
@[simp] theorem State.event_liveBays (s : State) (b : BayNo) (code : Nat) (p : List Word) (c : Bool) : (State.event s b code p c).liveBays  = s.liveBays :=
  still_liveBays (s.event_still b code p c) 
@[simp] theorem State.event_nowAt (s : State) (b : BayNo) (code : Nat) (p : List Word) (c : Bool) (cc : BayNo) : (State.event s b code p c).nowAt cc = s.nowAt cc :=
  still_nowAt (s.event_still b code p c) cc
@[simp] theorem State.event_now (s : State) (b : BayNo) (code : Nat) (p : List Word) (c : Bool) : (State.event s b code p c).now  = s.now :=
  still_now (s.event_still b code p c) 
@[simp] theorem State.event_fld (s : State) (b : BayNo) (code : Nat) (p : List Word) (c : Bool) (g : Field) (cc : BayNo) (j k : Nat) : (State.event s b code p c).fld g cc j k = s.fld g cc j k :=
  still_fld (s.event_still b code p c) g cc j k
@[simp] theorem State.event_fldN (s : State) (b : BayNo) (code : Nat) (p : List Word) (c : Bool) (g : Field) (cc : BayNo) (j k : Nat) : (State.event s b code p c).fldN g cc j k = s.fldN g cc j k :=
  still_fldN (s.event_still b code p c) g cc j k
@[simp] theorem State.event_fldB (s : State) (b : BayNo) (code : Nat) (p : List Word) (c : Bool) (g : Field) (cc : BayNo) (j : Nat) : (State.event s b code p c).fldB g cc j = s.fldB g cc j :=
  still_fldB (s.event_still b code p c) g cc j
@[simp] theorem State.event_pkgN (s : State) (b : BayNo) (code : Nat) (p : List Word) (c : Bool) (g : Field) (j : Nat) : (State.event s b code p c).pkgN g j = s.pkgN g j :=
  still_pkgN (s.event_still b code p c) g j
@[simp] theorem State.enqueue_part (s : State) (b : BayNo) (q : Nat) (r : RecBody) : (State.enqueue s b q r).part = s.part := still_part (s.enqueue_still b q r)
@[simp] theorem State.enqueue_vals (s : State) (b : BayNo) (q : Nat) (r : RecBody) : (State.enqueue s b q r).vals = s.vals := still_vals (s.enqueue_still b q r)
@[simp] theorem State.enqueue_flash (s : State) (b : BayNo) (q : Nat) (r : RecBody) : (State.enqueue s b q r).flash = s.flash := still_flash (s.enqueue_still b q r)
@[simp] theorem State.enqueue_tbs (s : State) (b : BayNo) (q : Nat) (r : RecBody) : (State.enqueue s b q r).tbs = s.tbs := still_tbs (s.enqueue_still b q r)
@[simp] theorem State.enqueue_sel (s : State) (b : BayNo) (q : Nat) (r : RecBody) : (State.enqueue s b q r).sel = s.sel := still_sel (s.enqueue_still b q r)
@[simp] theorem State.enqueue_pwr (s : State) (b : BayNo) (q : Nat) (r : RecBody) : (State.enqueue s b q r).pwr = s.pwr := still_pwr (s.enqueue_still b q r)
@[simp] theorem State.enqueue_faults (s : State) (b : BayNo) (q : Nat) (r : RecBody) : (State.enqueue s b q r).faults = s.faults := still_faults (s.enqueue_still b q r)
@[simp] theorem State.enqueue_trg (s : State) (b : BayNo) (q : Nat) (r : RecBody) : (State.enqueue s b q r).trg = s.trg := still_trg (s.enqueue_still b q r)
@[simp] theorem State.enqueue_ident (s : State) (b : BayNo) (q : Nat) (r : RecBody) : (State.enqueue s b q r).ident = s.ident := still_ident (s.enqueue_still b q r)
@[simp] theorem State.enqueue_lnl (s : State) (b : BayNo) (q : Nat) (r : RecBody) : (State.enqueue s b q r).lnl = s.lnl := still_lnl (s.enqueue_still b q r)
@[simp] theorem State.enqueue_clrPin (s : State) (b : BayNo) (q : Nat) (r : RecBody) : (State.enqueue s b q r).clrPin = s.clrPin := still_clrPin (s.enqueue_still b q r)
@[simp] theorem State.enqueue_rstLow (s : State) (b : BayNo) (q : Nat) (r : RecBody) : (State.enqueue s b q r).rstLow = s.rstLow := still_rstLow (s.enqueue_still b q r)
@[simp] theorem State.enqueue_pending (s : State) (b : BayNo) (q : Nat) (r : RecBody) : (State.enqueue s b q r).pending = s.pending := still_pending (s.enqueue_still b q r)
@[simp] theorem State.enqueue_img_state (s : State) (b : BayNo) (q : Nat) (r : RecBody) : (State.enqueue s b q r).img.state = s.img.state := still_img_state (s.enqueue_still b q r)
@[simp] theorem State.enqueue_img_boot (s : State) (b : BayNo) (q : Nat) (r : RecBody) : (State.enqueue s b q r).img.boot = s.img.boot := still_img_boot (s.enqueue_still b q r)
@[simp] theorem State.enqueue_img_image (s : State) (b : BayNo) (q : Nat) (r : RecBody) : (State.enqueue s b q r).img.image = s.img.image := still_img_image (s.enqueue_still b q r)
@[simp] theorem State.enqueue_img_quadRead (s : State) (b : BayNo) (q : Nat) (r : RecBody) : (State.enqueue s b q r).img.quadRead = s.img.quadRead := still_img_quadRead (s.enqueue_still b q r)
@[simp] theorem State.enqueue_img_profile (s : State) (b : BayNo) (q : Nat) (r : RecBody) : (State.enqueue s b q r).img.profile = s.img.profile := still_img_profile (s.enqueue_still b q r)
@[simp] theorem State.enqueue_img_pins (s : State) (b : BayNo) (q : Nat) (r : RecBody) : (State.enqueue s b q r).img.pins = s.img.pins := still_img_pins (s.enqueue_still b q r)
@[simp] theorem State.enqueue_img_absentTold (s : State) (b : BayNo) (q : Nat) (r : RecBody) : (State.enqueue s b q r).img.absentTold = s.img.absentTold := still_img_absentTold (s.enqueue_still b q r)
@[simp] theorem State.enqueue_img_pinsTaken (s : State) (b : BayNo) (q : Nat) (r : RecBody) : (State.enqueue s b q r).img.pinsTaken = s.img.pinsTaken := still_img_pinsTaken (s.enqueue_still b q r)
@[simp] theorem State.enqueue_img_restartReq (s : State) (b : BayNo) (q : Nat) (r : RecBody) : (State.enqueue s b q r).img.restartReq = s.img.restartReq := still_img_restartReq (s.enqueue_still b q r)
@[simp] theorem State.enqueue_img_ignored (s : State) (b : BayNo) (q : Nat) (r : RecBody) : (State.enqueue s b q r).img.ignored = s.img.ignored := still_img_ignored (s.enqueue_still b q r)
@[simp] theorem State.enqueue_img_refusal (s : State) (b : BayNo) (q : Nat) (r : RecBody) : (State.enqueue s b q r).img.refusal = s.img.refusal := still_img_refusal (s.enqueue_still b q r)
@[simp] theorem State.enqueue_img_cmd (s : State) (b : BayNo) (q : Nat) (r : RecBody) : (State.enqueue s b q r).img.cmd = s.img.cmd := still_img_cmd (s.enqueue_still b q r)
@[simp] theorem State.enqueue_img_buffering (s : State) (b : BayNo) (q : Nat) (r : RecBody) : (State.enqueue s b q r).img.buffering = s.img.buffering := still_img_buffering (s.enqueue_still b q r)
@[simp] theorem State.enqueue_img_flashQueue (s : State) (b : BayNo) (q : Nat) (r : RecBody) : (State.enqueue s b q r).img.flashQueue = s.img.flashQueue := still_img_flashQueue (s.enqueue_still b q r)
@[simp] theorem State.enqueue_img_waiting (s : State) (b : BayNo) (q : Nat) (r : RecBody) : (State.enqueue s b q r).img.waiting = s.img.waiting := still_img_waiting (s.enqueue_still b q r)
@[simp] theorem State.enqueue_keeper_fuses (s : State) (b : BayNo) (q : Nat) (r : RecBody) : (State.enqueue s b q r).keeper.fuses = s.keeper.fuses := still_keeper_fuses (s.enqueue_still b q r)
@[simp] theorem State.enqueue_keeper_island (s : State) (b : BayNo) (q : Nat) (r : RecBody) : (State.enqueue s b q r).keeper.island = s.keeper.island := still_keeper_island (s.enqueue_still b q r)
@[simp] theorem State.enqueue_keeper_reserved (s : State) (b : BayNo) (q : Nat) (r : RecBody) : (State.enqueue s b q r).keeper.reserved = s.keeper.reserved := still_keeper_reserved (s.enqueue_still b q r)
@[simp] theorem State.enqueue_keeper_rowPending (s : State) (b : BayNo) (q : Nat) (r : RecBody) : (State.enqueue s b q r).keeper.rowPending = s.keeper.rowPending := still_keeper_rowPending (s.enqueue_still b q r)
@[simp] theorem State.enqueue_keeper_logFirst (s : State) (b : BayNo) (q : Nat) (r : RecBody) : (State.enqueue s b q r).keeper.logFirst = s.keeper.logFirst := still_keeper_logFirst (s.enqueue_still b q r)
@[simp] theorem State.enqueue_keeper_logCount (s : State) (b : BayNo) (q : Nat) (r : RecBody) : (State.enqueue s b q r).keeper.logCount = s.keeper.logCount := still_keeper_logCount (s.enqueue_still b q r)
@[simp] theorem State.enqueue_keeper_logPrior (s : State) (b : BayNo) (q : Nat) (r : RecBody) : (State.enqueue s b q r).keeper.logPrior = s.keeper.logPrior := still_keeper_logPrior (s.enqueue_still b q r)
@[simp] theorem State.enqueue_keeper_logArchives (s : State) (b : BayNo) (q : Nat) (r : RecBody) : (State.enqueue s b q r).keeper.logArchives = s.keeper.logArchives := still_keeper_logArchives (s.enqueue_still b q r)
@[simp] theorem State.enqueue_keeper_fullTold (s : State) (b : BayNo) (q : Nat) (r : RecBody) : (State.enqueue s b q r).keeper.fullTold = s.keeper.fullTold := still_keeper_fullTold (s.enqueue_still b q r)
@[simp] theorem State.enqueue_keeper_broken (s : State) (b : BayNo) (q : Nat) (r : RecBody) : (State.enqueue s b q r).keeper.broken = s.keeper.broken := still_keeper_broken (s.enqueue_still b q r)
@[simp] theorem State.enqueue_keeper_verifyDone (s : State) (b : BayNo) (q : Nat) (r : RecBody) : (State.enqueue s b q r).keeper.verifyDone = s.keeper.verifyDone := still_keeper_verifyDone (s.enqueue_still b q r)
@[simp] theorem State.enqueue_keeper_verifyResult (s : State) (b : BayNo) (q : Nat) (r : RecBody) : (State.enqueue s b q r).keeper.verifyResult = s.keeper.verifyResult := still_keeper_verifyResult (s.enqueue_still b q r)
@[simp] theorem State.enqueue_keeper_verifyFirst (s : State) (b : BayNo) (q : Nat) (r : RecBody) : (State.enqueue s b q r).keeper.verifyFirst = s.keeper.verifyFirst := still_keeper_verifyFirst (s.enqueue_still b q r)
@[simp] theorem State.enqueue_keeper_verifying (s : State) (b : BayNo) (q : Nat) (r : RecBody) : (State.enqueue s b q r).keeper.verifying = s.keeper.verifying := still_keeper_verifying (s.enqueue_still b q r)
@[simp] theorem State.enqueue_keeper_box (s : State) (b : BayNo) (q : Nat) (r : RecBody) : (State.enqueue s b q r).keeper.box = s.keeper.box := still_keeper_box (s.enqueue_still b q r)
@[simp] theorem State.enqueue_keeper_logSel (s : State) (b : BayNo) (q : Nat) (r : RecBody) : (State.enqueue s b q r).keeper.logSel = s.keeper.logSel := still_keeper_logSel (s.enqueue_still b q r)
@[simp] theorem State.enqueue_eth_neighbours (s : State) (b : BayNo) (q : Nat) (r : RecBody) : (State.enqueue s b q r).eth.neighbours = s.eth.neighbours := still_eth_neighbours (s.enqueue_still b q r)
@[simp] theorem State.enqueue_eth_ptpState (s : State) (b : BayNo) (q : Nat) (r : RecBody) : (State.enqueue s b q r).eth.ptpState = s.eth.ptpState := still_eth_ptpState (s.enqueue_still b q r)
@[simp] theorem State.enqueue_eth_ptpSource (s : State) (b : BayNo) (q : Nat) (r : RecBody) : (State.enqueue s b q r).eth.ptpSource = s.eth.ptpSource := still_eth_ptpSource (s.enqueue_still b q r)
@[simp] theorem State.enqueue_inj_killed (s : State) (b : BayNo) (q : Nat) (r : RecBody) : (State.enqueue s b q r).inj.killed = s.inj.killed := still_inj_killed (s.enqueue_still b q r)
@[simp] theorem State.enqueue_bay_lost (s : State) (b : BayNo) (q : Nat) (r : RecBody) (cc : BayNo) : ((State.enqueue s b q r).bay cc).lost = (s.bay cc).lost :=
  still_bay_lost (s.enqueue_still b q r) cc
@[simp] theorem State.enqueue_bay_clk (s : State) (b : BayNo) (q : Nat) (r : RecBody) (cc : BayNo) : ((State.enqueue s b q r).bay cc).clk = (s.bay cc).clk :=
  still_bay_clk (s.enqueue_still b q r) cc
@[simp] theorem State.enqueue_bay_tbs (s : State) (b : BayNo) (q : Nat) (r : RecBody) (cc : BayNo) : ((State.enqueue s b q r).bay cc).tbs = (s.bay cc).tbs :=
  still_bay_tbs (s.enqueue_still b q r) cc
@[simp] theorem State.enqueue_bay_dma (s : State) (b : BayNo) (q : Nat) (r : RecBody) (cc : BayNo) : ((State.enqueue s b q r).bay cc).dma = (s.bay cc).dma :=
  still_bay_dma (s.enqueue_still b q r) cc
@[simp] theorem State.enqueue_bay_pwr (s : State) (b : BayNo) (q : Nat) (r : RecBody) (cc : BayNo) : ((State.enqueue s b q r).bay cc).pwr = (s.bay cc).pwr :=
  still_bay_pwr (s.enqueue_still b q r) cc
@[simp] theorem State.enqueue_bay_trg (s : State) (b : BayNo) (q : Nat) (r : RecBody) (cc : BayNo) : ((State.enqueue s b q r).bay cc).trg = (s.bay cc).trg :=
  still_bay_trg (s.enqueue_still b q r) cc
@[simp] theorem State.enqueue_bay_afe (s : State) (b : BayNo) (q : Nat) (r : RecBody) (cc : BayNo) : ((State.enqueue s b q r).bay cc).afe = (s.bay cc).afe :=
  still_bay_afe (s.enqueue_still b q r) cc
@[simp] theorem State.enqueue_bay_adc (s : State) (b : BayNo) (q : Nat) (r : RecBody) (cc : BayNo) : ((State.enqueue s b q r).bay cc).adc = (s.bay cc).adc :=
  still_bay_adc (s.enqueue_still b q r) cc
@[simp] theorem State.enqueue_bay_ddc (s : State) (b : BayNo) (q : Nat) (r : RecBody) (cc : BayNo) : ((State.enqueue s b q r).bay cc).ddc = (s.bay cc).ddc :=
  still_bay_ddc (s.enqueue_still b q r) cc
@[simp] theorem State.enqueue_bay_xfm (s : State) (b : BayNo) (q : Nat) (r : RecBody) (cc : BayNo) : ((State.enqueue s b q r).bay cc).xfm = (s.bay cc).xfm :=
  still_bay_xfm (s.enqueue_still b q r) cc
@[simp] theorem State.enqueue_bay_den (s : State) (b : BayNo) (q : Nat) (r : RecBody) (cc : BayNo) : ((State.enqueue s b q r).bay cc).den = (s.bay cc).den :=
  still_bay_den (s.enqueue_still b q r) cc
@[simp] theorem State.enqueue_bay_mco (s : State) (b : BayNo) (q : Nat) (r : RecBody) (cc : BayNo) : ((State.enqueue s b q r).bay cc).mco = (s.bay cc).mco :=
  still_bay_mco (s.enqueue_still b q r) cc
@[simp] theorem State.enqueue_bay_scn (s : State) (b : BayNo) (q : Nat) (r : RecBody) (cc : BayNo) : ((State.enqueue s b q r).bay cc).scn = (s.bay cc).scn :=
  still_bay_scn (s.enqueue_still b q r) cc
@[simp] theorem State.enqueue_bay_recorder (s : State) (b : BayNo) (q : Nat) (r : RecBody) (cc : BayNo) : ((State.enqueue s b q r).bay cc).recorder = (s.bay cc).recorder :=
  still_bay_recorder (s.enqueue_still b q r) cc
@[simp] theorem State.enqueue_bay_lne (s : State) (b : BayNo) (q : Nat) (r : RecBody) (cc : BayNo) : ((State.enqueue s b q r).bay cc).lne = (s.bay cc).lne :=
  still_bay_lne (s.enqueue_still b q r) cc
@[simp] theorem State.enqueue_bay_pci (s : State) (b : BayNo) (q : Nat) (r : RecBody) (cc : BayNo) : ((State.enqueue s b q r).bay cc).pci = (s.bay cc).pci :=
  still_bay_pci (s.enqueue_still b q r) cc
@[simp] theorem State.enqueue_bay_eth (s : State) (b : BayNo) (q : Nat) (r : RecBody) (cc : BayNo) : ((State.enqueue s b q r).bay cc).eth = (s.bay cc).eth :=
  still_bay_eth (s.enqueue_still b q r) cc
@[simp] theorem State.enqueue_bay_jes (s : State) (b : BayNo) (q : Nat) (r : RecBody) (cc : BayNo) : ((State.enqueue s b q r).bay cc).jes = (s.bay cc).jes :=
  still_bay_jes (s.enqueue_still b q r) cc
@[simp] theorem State.enqueue_bay_cal (s : State) (b : BayNo) (q : Nat) (r : RecBody) (cc : BayNo) : ((State.enqueue s b q r).bay cc).cal = (s.bay cc).cal :=
  still_bay_cal (s.enqueue_still b q r) cc
@[simp] theorem State.enqueue_bay_hkc (s : State) (b : BayNo) (q : Nat) (r : RecBody) (cc : BayNo) : ((State.enqueue s b q r).bay cc).hkc = (s.bay cc).hkc :=
  still_bay_hkc (s.enqueue_still b q r) cc
@[simp] theorem State.enqueue_bay_aux (s : State) (b : BayNo) (q : Nat) (r : RecBody) (cc : BayNo) : ((State.enqueue s b q r).bay cc).aux = (s.bay cc).aux :=
  still_bay_aux (s.enqueue_still b q r) cc
@[simp] theorem State.enqueue_bay_mon (s : State) (b : BayNo) (q : Nat) (r : RecBody) (cc : BayNo) : ((State.enqueue s b q r).bay cc).mon = (s.bay cc).mon :=
  still_bay_mon (s.enqueue_still b q r) cc
@[simp] theorem State.enqueue_bay_jtag (s : State) (b : BayNo) (q : Nat) (r : RecBody) (cc : BayNo) : ((State.enqueue s b q r).bay cc).jtag = (s.bay cc).jtag :=
  still_bay_jtag (s.enqueue_still b q r) cc
@[simp] theorem State.enqueue_bay_lnl_ports (s : State) (b : BayNo) (q : Nat) (r : RecBody) (cc : BayNo) : ((State.enqueue s b q r).bay cc).lnl.ports = (s.bay cc).lnl.ports :=
  still_bay_lnl_ports (s.enqueue_still b q r) cc
@[simp] theorem State.enqueue_bay_lnl_routes (s : State) (b : BayNo) (q : Nat) (r : RecBody) (cc : BayNo) : ((State.enqueue s b q r).bay cc).lnl.routes = (s.bay cc).lnl.routes :=
  still_bay_lnl_routes (s.enqueue_still b q r) cc
@[simp] theorem State.enqueue_bay_lnl_updateDue (s : State) (b : BayNo) (q : Nat) (r : RecBody) (cc : BayNo) : ((State.enqueue s b q r).bay cc).lnl.updateDue = (s.bay cc).lnl.updateDue :=
  still_bay_lnl_updateDue (s.enqueue_still b q r) cc
@[simp] theorem State.enqueue_bay_lnl_reroutes (s : State) (b : BayNo) (q : Nat) (r : RecBody) (cc : BayNo) : ((State.enqueue s b q r).bay cc).lnl.reroutes = (s.bay cc).lnl.reroutes :=
  still_bay_lnl_reroutes (s.enqueue_still b q r) cc
@[simp] theorem State.enqueue_bay_lnl_island (s : State) (b : BayNo) (q : Nat) (r : RecBody) (cc : BayNo) : ((State.enqueue s b q r).bay cc).lnl.island = (s.bay cc).lnl.island :=
  still_bay_lnl_island (s.enqueue_still b q r) cc
@[simp] theorem State.enqueue_alive (s : State) (b : BayNo) (q : Nat) (r : RecBody) (cc : BayNo) : (State.enqueue s b q r).alive cc = s.alive cc :=
  still_alive (s.enqueue_still b q r) cc
@[simp] theorem State.enqueue_liveBays (s : State) (b : BayNo) (q : Nat) (r : RecBody) : (State.enqueue s b q r).liveBays  = s.liveBays :=
  still_liveBays (s.enqueue_still b q r) 
@[simp] theorem State.enqueue_nowAt (s : State) (b : BayNo) (q : Nat) (r : RecBody) (cc : BayNo) : (State.enqueue s b q r).nowAt cc = s.nowAt cc :=
  still_nowAt (s.enqueue_still b q r) cc
@[simp] theorem State.enqueue_now (s : State) (b : BayNo) (q : Nat) (r : RecBody) : (State.enqueue s b q r).now  = s.now :=
  still_now (s.enqueue_still b q r) 
@[simp] theorem State.enqueue_fld (s : State) (b : BayNo) (q : Nat) (r : RecBody) (g : Field) (cc : BayNo) (j k : Nat) : (State.enqueue s b q r).fld g cc j k = s.fld g cc j k :=
  still_fld (s.enqueue_still b q r) g cc j k
@[simp] theorem State.enqueue_fldN (s : State) (b : BayNo) (q : Nat) (r : RecBody) (g : Field) (cc : BayNo) (j k : Nat) : (State.enqueue s b q r).fldN g cc j k = s.fldN g cc j k :=
  still_fldN (s.enqueue_still b q r) g cc j k
@[simp] theorem State.enqueue_fldB (s : State) (b : BayNo) (q : Nat) (r : RecBody) (g : Field) (cc : BayNo) (j : Nat) : (State.enqueue s b q r).fldB g cc j = s.fldB g cc j :=
  still_fldB (s.enqueue_still b q r) g cc j
@[simp] theorem State.enqueue_pkgN (s : State) (b : BayNo) (q : Nat) (r : RecBody) (g : Field) (j : Nat) : (State.enqueue s b q r).pkgN g j = s.pkgN g j :=
  still_pkgN (s.enqueue_still b q r) g j
@[simp] theorem State.handOver_part (s : State) (b : BayNo) (q : Nat) (r : RecBody) : ((State.handOver s b q r).2).part = s.part := still_part (s.handOver_still b q r)
@[simp] theorem State.handOver_vals (s : State) (b : BayNo) (q : Nat) (r : RecBody) : ((State.handOver s b q r).2).vals = s.vals := still_vals (s.handOver_still b q r)
@[simp] theorem State.handOver_flash (s : State) (b : BayNo) (q : Nat) (r : RecBody) : ((State.handOver s b q r).2).flash = s.flash := still_flash (s.handOver_still b q r)
@[simp] theorem State.handOver_tbs (s : State) (b : BayNo) (q : Nat) (r : RecBody) : ((State.handOver s b q r).2).tbs = s.tbs := still_tbs (s.handOver_still b q r)
@[simp] theorem State.handOver_sel (s : State) (b : BayNo) (q : Nat) (r : RecBody) : ((State.handOver s b q r).2).sel = s.sel := still_sel (s.handOver_still b q r)
@[simp] theorem State.handOver_pwr (s : State) (b : BayNo) (q : Nat) (r : RecBody) : ((State.handOver s b q r).2).pwr = s.pwr := still_pwr (s.handOver_still b q r)
@[simp] theorem State.handOver_faults (s : State) (b : BayNo) (q : Nat) (r : RecBody) : ((State.handOver s b q r).2).faults = s.faults := still_faults (s.handOver_still b q r)
@[simp] theorem State.handOver_trg (s : State) (b : BayNo) (q : Nat) (r : RecBody) : ((State.handOver s b q r).2).trg = s.trg := still_trg (s.handOver_still b q r)
@[simp] theorem State.handOver_ident (s : State) (b : BayNo) (q : Nat) (r : RecBody) : ((State.handOver s b q r).2).ident = s.ident := still_ident (s.handOver_still b q r)
@[simp] theorem State.handOver_lnl (s : State) (b : BayNo) (q : Nat) (r : RecBody) : ((State.handOver s b q r).2).lnl = s.lnl := still_lnl (s.handOver_still b q r)
@[simp] theorem State.handOver_clrPin (s : State) (b : BayNo) (q : Nat) (r : RecBody) : ((State.handOver s b q r).2).clrPin = s.clrPin := still_clrPin (s.handOver_still b q r)
@[simp] theorem State.handOver_rstLow (s : State) (b : BayNo) (q : Nat) (r : RecBody) : ((State.handOver s b q r).2).rstLow = s.rstLow := still_rstLow (s.handOver_still b q r)
@[simp] theorem State.handOver_pending (s : State) (b : BayNo) (q : Nat) (r : RecBody) : ((State.handOver s b q r).2).pending = s.pending := still_pending (s.handOver_still b q r)
@[simp] theorem State.handOver_img_state (s : State) (b : BayNo) (q : Nat) (r : RecBody) : ((State.handOver s b q r).2).img.state = s.img.state := still_img_state (s.handOver_still b q r)
@[simp] theorem State.handOver_img_boot (s : State) (b : BayNo) (q : Nat) (r : RecBody) : ((State.handOver s b q r).2).img.boot = s.img.boot := still_img_boot (s.handOver_still b q r)
@[simp] theorem State.handOver_img_image (s : State) (b : BayNo) (q : Nat) (r : RecBody) : ((State.handOver s b q r).2).img.image = s.img.image := still_img_image (s.handOver_still b q r)
@[simp] theorem State.handOver_img_quadRead (s : State) (b : BayNo) (q : Nat) (r : RecBody) : ((State.handOver s b q r).2).img.quadRead = s.img.quadRead := still_img_quadRead (s.handOver_still b q r)
@[simp] theorem State.handOver_img_profile (s : State) (b : BayNo) (q : Nat) (r : RecBody) : ((State.handOver s b q r).2).img.profile = s.img.profile := still_img_profile (s.handOver_still b q r)
@[simp] theorem State.handOver_img_pins (s : State) (b : BayNo) (q : Nat) (r : RecBody) : ((State.handOver s b q r).2).img.pins = s.img.pins := still_img_pins (s.handOver_still b q r)
@[simp] theorem State.handOver_img_absentTold (s : State) (b : BayNo) (q : Nat) (r : RecBody) : ((State.handOver s b q r).2).img.absentTold = s.img.absentTold := still_img_absentTold (s.handOver_still b q r)
@[simp] theorem State.handOver_img_pinsTaken (s : State) (b : BayNo) (q : Nat) (r : RecBody) : ((State.handOver s b q r).2).img.pinsTaken = s.img.pinsTaken := still_img_pinsTaken (s.handOver_still b q r)
@[simp] theorem State.handOver_img_restartReq (s : State) (b : BayNo) (q : Nat) (r : RecBody) : ((State.handOver s b q r).2).img.restartReq = s.img.restartReq := still_img_restartReq (s.handOver_still b q r)
@[simp] theorem State.handOver_img_ignored (s : State) (b : BayNo) (q : Nat) (r : RecBody) : ((State.handOver s b q r).2).img.ignored = s.img.ignored := still_img_ignored (s.handOver_still b q r)
@[simp] theorem State.handOver_img_refusal (s : State) (b : BayNo) (q : Nat) (r : RecBody) : ((State.handOver s b q r).2).img.refusal = s.img.refusal := still_img_refusal (s.handOver_still b q r)
@[simp] theorem State.handOver_img_cmd (s : State) (b : BayNo) (q : Nat) (r : RecBody) : ((State.handOver s b q r).2).img.cmd = s.img.cmd := still_img_cmd (s.handOver_still b q r)
@[simp] theorem State.handOver_img_buffering (s : State) (b : BayNo) (q : Nat) (r : RecBody) : ((State.handOver s b q r).2).img.buffering = s.img.buffering := still_img_buffering (s.handOver_still b q r)
@[simp] theorem State.handOver_img_flashQueue (s : State) (b : BayNo) (q : Nat) (r : RecBody) : ((State.handOver s b q r).2).img.flashQueue = s.img.flashQueue := still_img_flashQueue (s.handOver_still b q r)
@[simp] theorem State.handOver_img_waiting (s : State) (b : BayNo) (q : Nat) (r : RecBody) : ((State.handOver s b q r).2).img.waiting = s.img.waiting := still_img_waiting (s.handOver_still b q r)
@[simp] theorem State.handOver_keeper_fuses (s : State) (b : BayNo) (q : Nat) (r : RecBody) : ((State.handOver s b q r).2).keeper.fuses = s.keeper.fuses := still_keeper_fuses (s.handOver_still b q r)
@[simp] theorem State.handOver_keeper_island (s : State) (b : BayNo) (q : Nat) (r : RecBody) : ((State.handOver s b q r).2).keeper.island = s.keeper.island := still_keeper_island (s.handOver_still b q r)
@[simp] theorem State.handOver_keeper_reserved (s : State) (b : BayNo) (q : Nat) (r : RecBody) : ((State.handOver s b q r).2).keeper.reserved = s.keeper.reserved := still_keeper_reserved (s.handOver_still b q r)
@[simp] theorem State.handOver_keeper_rowPending (s : State) (b : BayNo) (q : Nat) (r : RecBody) : ((State.handOver s b q r).2).keeper.rowPending = s.keeper.rowPending := still_keeper_rowPending (s.handOver_still b q r)
@[simp] theorem State.handOver_keeper_logFirst (s : State) (b : BayNo) (q : Nat) (r : RecBody) : ((State.handOver s b q r).2).keeper.logFirst = s.keeper.logFirst := still_keeper_logFirst (s.handOver_still b q r)
@[simp] theorem State.handOver_keeper_logCount (s : State) (b : BayNo) (q : Nat) (r : RecBody) : ((State.handOver s b q r).2).keeper.logCount = s.keeper.logCount := still_keeper_logCount (s.handOver_still b q r)
@[simp] theorem State.handOver_keeper_logPrior (s : State) (b : BayNo) (q : Nat) (r : RecBody) : ((State.handOver s b q r).2).keeper.logPrior = s.keeper.logPrior := still_keeper_logPrior (s.handOver_still b q r)
@[simp] theorem State.handOver_keeper_logArchives (s : State) (b : BayNo) (q : Nat) (r : RecBody) : ((State.handOver s b q r).2).keeper.logArchives = s.keeper.logArchives := still_keeper_logArchives (s.handOver_still b q r)
@[simp] theorem State.handOver_keeper_fullTold (s : State) (b : BayNo) (q : Nat) (r : RecBody) : ((State.handOver s b q r).2).keeper.fullTold = s.keeper.fullTold := still_keeper_fullTold (s.handOver_still b q r)
@[simp] theorem State.handOver_keeper_broken (s : State) (b : BayNo) (q : Nat) (r : RecBody) : ((State.handOver s b q r).2).keeper.broken = s.keeper.broken := still_keeper_broken (s.handOver_still b q r)
@[simp] theorem State.handOver_keeper_verifyDone (s : State) (b : BayNo) (q : Nat) (r : RecBody) : ((State.handOver s b q r).2).keeper.verifyDone = s.keeper.verifyDone := still_keeper_verifyDone (s.handOver_still b q r)
@[simp] theorem State.handOver_keeper_verifyResult (s : State) (b : BayNo) (q : Nat) (r : RecBody) : ((State.handOver s b q r).2).keeper.verifyResult = s.keeper.verifyResult := still_keeper_verifyResult (s.handOver_still b q r)
@[simp] theorem State.handOver_keeper_verifyFirst (s : State) (b : BayNo) (q : Nat) (r : RecBody) : ((State.handOver s b q r).2).keeper.verifyFirst = s.keeper.verifyFirst := still_keeper_verifyFirst (s.handOver_still b q r)
@[simp] theorem State.handOver_keeper_verifying (s : State) (b : BayNo) (q : Nat) (r : RecBody) : ((State.handOver s b q r).2).keeper.verifying = s.keeper.verifying := still_keeper_verifying (s.handOver_still b q r)
@[simp] theorem State.handOver_keeper_box (s : State) (b : BayNo) (q : Nat) (r : RecBody) : ((State.handOver s b q r).2).keeper.box = s.keeper.box := still_keeper_box (s.handOver_still b q r)
@[simp] theorem State.handOver_keeper_logSel (s : State) (b : BayNo) (q : Nat) (r : RecBody) : ((State.handOver s b q r).2).keeper.logSel = s.keeper.logSel := still_keeper_logSel (s.handOver_still b q r)
@[simp] theorem State.handOver_eth_neighbours (s : State) (b : BayNo) (q : Nat) (r : RecBody) : ((State.handOver s b q r).2).eth.neighbours = s.eth.neighbours := still_eth_neighbours (s.handOver_still b q r)
@[simp] theorem State.handOver_eth_ptpState (s : State) (b : BayNo) (q : Nat) (r : RecBody) : ((State.handOver s b q r).2).eth.ptpState = s.eth.ptpState := still_eth_ptpState (s.handOver_still b q r)
@[simp] theorem State.handOver_eth_ptpSource (s : State) (b : BayNo) (q : Nat) (r : RecBody) : ((State.handOver s b q r).2).eth.ptpSource = s.eth.ptpSource := still_eth_ptpSource (s.handOver_still b q r)
@[simp] theorem State.handOver_inj_killed (s : State) (b : BayNo) (q : Nat) (r : RecBody) : ((State.handOver s b q r).2).inj.killed = s.inj.killed := still_inj_killed (s.handOver_still b q r)
@[simp] theorem State.handOver_bay_lost (s : State) (b : BayNo) (q : Nat) (r : RecBody) (cc : BayNo) : (((State.handOver s b q r).2).bay cc).lost = (s.bay cc).lost :=
  still_bay_lost (s.handOver_still b q r) cc
@[simp] theorem State.handOver_bay_clk (s : State) (b : BayNo) (q : Nat) (r : RecBody) (cc : BayNo) : (((State.handOver s b q r).2).bay cc).clk = (s.bay cc).clk :=
  still_bay_clk (s.handOver_still b q r) cc
@[simp] theorem State.handOver_bay_tbs (s : State) (b : BayNo) (q : Nat) (r : RecBody) (cc : BayNo) : (((State.handOver s b q r).2).bay cc).tbs = (s.bay cc).tbs :=
  still_bay_tbs (s.handOver_still b q r) cc
@[simp] theorem State.handOver_bay_dma (s : State) (b : BayNo) (q : Nat) (r : RecBody) (cc : BayNo) : (((State.handOver s b q r).2).bay cc).dma = (s.bay cc).dma :=
  still_bay_dma (s.handOver_still b q r) cc
@[simp] theorem State.handOver_bay_pwr (s : State) (b : BayNo) (q : Nat) (r : RecBody) (cc : BayNo) : (((State.handOver s b q r).2).bay cc).pwr = (s.bay cc).pwr :=
  still_bay_pwr (s.handOver_still b q r) cc
@[simp] theorem State.handOver_bay_trg (s : State) (b : BayNo) (q : Nat) (r : RecBody) (cc : BayNo) : (((State.handOver s b q r).2).bay cc).trg = (s.bay cc).trg :=
  still_bay_trg (s.handOver_still b q r) cc
@[simp] theorem State.handOver_bay_afe (s : State) (b : BayNo) (q : Nat) (r : RecBody) (cc : BayNo) : (((State.handOver s b q r).2).bay cc).afe = (s.bay cc).afe :=
  still_bay_afe (s.handOver_still b q r) cc
@[simp] theorem State.handOver_bay_adc (s : State) (b : BayNo) (q : Nat) (r : RecBody) (cc : BayNo) : (((State.handOver s b q r).2).bay cc).adc = (s.bay cc).adc :=
  still_bay_adc (s.handOver_still b q r) cc
@[simp] theorem State.handOver_bay_ddc (s : State) (b : BayNo) (q : Nat) (r : RecBody) (cc : BayNo) : (((State.handOver s b q r).2).bay cc).ddc = (s.bay cc).ddc :=
  still_bay_ddc (s.handOver_still b q r) cc
@[simp] theorem State.handOver_bay_xfm (s : State) (b : BayNo) (q : Nat) (r : RecBody) (cc : BayNo) : (((State.handOver s b q r).2).bay cc).xfm = (s.bay cc).xfm :=
  still_bay_xfm (s.handOver_still b q r) cc
@[simp] theorem State.handOver_bay_den (s : State) (b : BayNo) (q : Nat) (r : RecBody) (cc : BayNo) : (((State.handOver s b q r).2).bay cc).den = (s.bay cc).den :=
  still_bay_den (s.handOver_still b q r) cc
@[simp] theorem State.handOver_bay_mco (s : State) (b : BayNo) (q : Nat) (r : RecBody) (cc : BayNo) : (((State.handOver s b q r).2).bay cc).mco = (s.bay cc).mco :=
  still_bay_mco (s.handOver_still b q r) cc
@[simp] theorem State.handOver_bay_scn (s : State) (b : BayNo) (q : Nat) (r : RecBody) (cc : BayNo) : (((State.handOver s b q r).2).bay cc).scn = (s.bay cc).scn :=
  still_bay_scn (s.handOver_still b q r) cc
@[simp] theorem State.handOver_bay_recorder (s : State) (b : BayNo) (q : Nat) (r : RecBody) (cc : BayNo) : (((State.handOver s b q r).2).bay cc).recorder = (s.bay cc).recorder :=
  still_bay_recorder (s.handOver_still b q r) cc
@[simp] theorem State.handOver_bay_lne (s : State) (b : BayNo) (q : Nat) (r : RecBody) (cc : BayNo) : (((State.handOver s b q r).2).bay cc).lne = (s.bay cc).lne :=
  still_bay_lne (s.handOver_still b q r) cc
@[simp] theorem State.handOver_bay_pci (s : State) (b : BayNo) (q : Nat) (r : RecBody) (cc : BayNo) : (((State.handOver s b q r).2).bay cc).pci = (s.bay cc).pci :=
  still_bay_pci (s.handOver_still b q r) cc
@[simp] theorem State.handOver_bay_eth (s : State) (b : BayNo) (q : Nat) (r : RecBody) (cc : BayNo) : (((State.handOver s b q r).2).bay cc).eth = (s.bay cc).eth :=
  still_bay_eth (s.handOver_still b q r) cc
@[simp] theorem State.handOver_bay_jes (s : State) (b : BayNo) (q : Nat) (r : RecBody) (cc : BayNo) : (((State.handOver s b q r).2).bay cc).jes = (s.bay cc).jes :=
  still_bay_jes (s.handOver_still b q r) cc
@[simp] theorem State.handOver_bay_cal (s : State) (b : BayNo) (q : Nat) (r : RecBody) (cc : BayNo) : (((State.handOver s b q r).2).bay cc).cal = (s.bay cc).cal :=
  still_bay_cal (s.handOver_still b q r) cc
@[simp] theorem State.handOver_bay_hkc (s : State) (b : BayNo) (q : Nat) (r : RecBody) (cc : BayNo) : (((State.handOver s b q r).2).bay cc).hkc = (s.bay cc).hkc :=
  still_bay_hkc (s.handOver_still b q r) cc
@[simp] theorem State.handOver_bay_aux (s : State) (b : BayNo) (q : Nat) (r : RecBody) (cc : BayNo) : (((State.handOver s b q r).2).bay cc).aux = (s.bay cc).aux :=
  still_bay_aux (s.handOver_still b q r) cc
@[simp] theorem State.handOver_bay_mon (s : State) (b : BayNo) (q : Nat) (r : RecBody) (cc : BayNo) : (((State.handOver s b q r).2).bay cc).mon = (s.bay cc).mon :=
  still_bay_mon (s.handOver_still b q r) cc
@[simp] theorem State.handOver_bay_jtag (s : State) (b : BayNo) (q : Nat) (r : RecBody) (cc : BayNo) : (((State.handOver s b q r).2).bay cc).jtag = (s.bay cc).jtag :=
  still_bay_jtag (s.handOver_still b q r) cc
@[simp] theorem State.handOver_bay_lnl_ports (s : State) (b : BayNo) (q : Nat) (r : RecBody) (cc : BayNo) : (((State.handOver s b q r).2).bay cc).lnl.ports = (s.bay cc).lnl.ports :=
  still_bay_lnl_ports (s.handOver_still b q r) cc
@[simp] theorem State.handOver_bay_lnl_routes (s : State) (b : BayNo) (q : Nat) (r : RecBody) (cc : BayNo) : (((State.handOver s b q r).2).bay cc).lnl.routes = (s.bay cc).lnl.routes :=
  still_bay_lnl_routes (s.handOver_still b q r) cc
@[simp] theorem State.handOver_bay_lnl_updateDue (s : State) (b : BayNo) (q : Nat) (r : RecBody) (cc : BayNo) : (((State.handOver s b q r).2).bay cc).lnl.updateDue = (s.bay cc).lnl.updateDue :=
  still_bay_lnl_updateDue (s.handOver_still b q r) cc
@[simp] theorem State.handOver_bay_lnl_reroutes (s : State) (b : BayNo) (q : Nat) (r : RecBody) (cc : BayNo) : (((State.handOver s b q r).2).bay cc).lnl.reroutes = (s.bay cc).lnl.reroutes :=
  still_bay_lnl_reroutes (s.handOver_still b q r) cc
@[simp] theorem State.handOver_bay_lnl_island (s : State) (b : BayNo) (q : Nat) (r : RecBody) (cc : BayNo) : (((State.handOver s b q r).2).bay cc).lnl.island = (s.bay cc).lnl.island :=
  still_bay_lnl_island (s.handOver_still b q r) cc
@[simp] theorem State.handOver_alive (s : State) (b : BayNo) (q : Nat) (r : RecBody) (cc : BayNo) : ((State.handOver s b q r).2).alive cc = s.alive cc :=
  still_alive (s.handOver_still b q r) cc
@[simp] theorem State.handOver_liveBays (s : State) (b : BayNo) (q : Nat) (r : RecBody) : ((State.handOver s b q r).2).liveBays  = s.liveBays :=
  still_liveBays (s.handOver_still b q r) 
@[simp] theorem State.handOver_nowAt (s : State) (b : BayNo) (q : Nat) (r : RecBody) (cc : BayNo) : ((State.handOver s b q r).2).nowAt cc = s.nowAt cc :=
  still_nowAt (s.handOver_still b q r) cc
@[simp] theorem State.handOver_now (s : State) (b : BayNo) (q : Nat) (r : RecBody) : ((State.handOver s b q r).2).now  = s.now :=
  still_now (s.handOver_still b q r) 
@[simp] theorem State.handOver_fld (s : State) (b : BayNo) (q : Nat) (r : RecBody) (g : Field) (cc : BayNo) (j k : Nat) : ((State.handOver s b q r).2).fld g cc j k = s.fld g cc j k :=
  still_fld (s.handOver_still b q r) g cc j k
@[simp] theorem State.handOver_fldN (s : State) (b : BayNo) (q : Nat) (r : RecBody) (g : Field) (cc : BayNo) (j k : Nat) : ((State.handOver s b q r).2).fldN g cc j k = s.fldN g cc j k :=
  still_fldN (s.handOver_still b q r) g cc j k
@[simp] theorem State.handOver_fldB (s : State) (b : BayNo) (q : Nat) (r : RecBody) (g : Field) (cc : BayNo) (j : Nat) : ((State.handOver s b q r).2).fldB g cc j = s.fldB g cc j :=
  still_fldB (s.handOver_still b q r) g cc j
@[simp] theorem State.handOver_pkgN (s : State) (b : BayNo) (q : Nat) (r : RecBody) (g : Field) (j : Nat) : ((State.handOver s b q r).2).pkgN g j = s.pkgN g j :=
  still_pkgN (s.handOver_still b q r) g j
@[simp] theorem State.takeFree_part (s : State) (w : Nat) : ((State.takeFree s w).2).part = s.part := still_part (s.takeFree_still w)
@[simp] theorem State.takeFree_vals (s : State) (w : Nat) : ((State.takeFree s w).2).vals = s.vals := still_vals (s.takeFree_still w)
@[simp] theorem State.takeFree_flash (s : State) (w : Nat) : ((State.takeFree s w).2).flash = s.flash := still_flash (s.takeFree_still w)
@[simp] theorem State.takeFree_tbs (s : State) (w : Nat) : ((State.takeFree s w).2).tbs = s.tbs := still_tbs (s.takeFree_still w)
@[simp] theorem State.takeFree_sel (s : State) (w : Nat) : ((State.takeFree s w).2).sel = s.sel := still_sel (s.takeFree_still w)
@[simp] theorem State.takeFree_pwr (s : State) (w : Nat) : ((State.takeFree s w).2).pwr = s.pwr := still_pwr (s.takeFree_still w)
@[simp] theorem State.takeFree_faults (s : State) (w : Nat) : ((State.takeFree s w).2).faults = s.faults := still_faults (s.takeFree_still w)
@[simp] theorem State.takeFree_trg (s : State) (w : Nat) : ((State.takeFree s w).2).trg = s.trg := still_trg (s.takeFree_still w)
@[simp] theorem State.takeFree_ident (s : State) (w : Nat) : ((State.takeFree s w).2).ident = s.ident := still_ident (s.takeFree_still w)
@[simp] theorem State.takeFree_lnl (s : State) (w : Nat) : ((State.takeFree s w).2).lnl = s.lnl := still_lnl (s.takeFree_still w)
@[simp] theorem State.takeFree_clrPin (s : State) (w : Nat) : ((State.takeFree s w).2).clrPin = s.clrPin := still_clrPin (s.takeFree_still w)
@[simp] theorem State.takeFree_rstLow (s : State) (w : Nat) : ((State.takeFree s w).2).rstLow = s.rstLow := still_rstLow (s.takeFree_still w)
@[simp] theorem State.takeFree_pending (s : State) (w : Nat) : ((State.takeFree s w).2).pending = s.pending := still_pending (s.takeFree_still w)
@[simp] theorem State.takeFree_img_state (s : State) (w : Nat) : ((State.takeFree s w).2).img.state = s.img.state := still_img_state (s.takeFree_still w)
@[simp] theorem State.takeFree_img_boot (s : State) (w : Nat) : ((State.takeFree s w).2).img.boot = s.img.boot := still_img_boot (s.takeFree_still w)
@[simp] theorem State.takeFree_img_image (s : State) (w : Nat) : ((State.takeFree s w).2).img.image = s.img.image := still_img_image (s.takeFree_still w)
@[simp] theorem State.takeFree_img_quadRead (s : State) (w : Nat) : ((State.takeFree s w).2).img.quadRead = s.img.quadRead := still_img_quadRead (s.takeFree_still w)
@[simp] theorem State.takeFree_img_profile (s : State) (w : Nat) : ((State.takeFree s w).2).img.profile = s.img.profile := still_img_profile (s.takeFree_still w)
@[simp] theorem State.takeFree_img_pins (s : State) (w : Nat) : ((State.takeFree s w).2).img.pins = s.img.pins := still_img_pins (s.takeFree_still w)
@[simp] theorem State.takeFree_img_absentTold (s : State) (w : Nat) : ((State.takeFree s w).2).img.absentTold = s.img.absentTold := still_img_absentTold (s.takeFree_still w)
@[simp] theorem State.takeFree_img_pinsTaken (s : State) (w : Nat) : ((State.takeFree s w).2).img.pinsTaken = s.img.pinsTaken := still_img_pinsTaken (s.takeFree_still w)
@[simp] theorem State.takeFree_img_restartReq (s : State) (w : Nat) : ((State.takeFree s w).2).img.restartReq = s.img.restartReq := still_img_restartReq (s.takeFree_still w)
@[simp] theorem State.takeFree_img_ignored (s : State) (w : Nat) : ((State.takeFree s w).2).img.ignored = s.img.ignored := still_img_ignored (s.takeFree_still w)
@[simp] theorem State.takeFree_img_refusal (s : State) (w : Nat) : ((State.takeFree s w).2).img.refusal = s.img.refusal := still_img_refusal (s.takeFree_still w)
@[simp] theorem State.takeFree_img_cmd (s : State) (w : Nat) : ((State.takeFree s w).2).img.cmd = s.img.cmd := still_img_cmd (s.takeFree_still w)
@[simp] theorem State.takeFree_img_buffering (s : State) (w : Nat) : ((State.takeFree s w).2).img.buffering = s.img.buffering := still_img_buffering (s.takeFree_still w)
@[simp] theorem State.takeFree_img_flashQueue (s : State) (w : Nat) : ((State.takeFree s w).2).img.flashQueue = s.img.flashQueue := still_img_flashQueue (s.takeFree_still w)
@[simp] theorem State.takeFree_img_waiting (s : State) (w : Nat) : ((State.takeFree s w).2).img.waiting = s.img.waiting := still_img_waiting (s.takeFree_still w)
@[simp] theorem State.takeFree_keeper_fuses (s : State) (w : Nat) : ((State.takeFree s w).2).keeper.fuses = s.keeper.fuses := still_keeper_fuses (s.takeFree_still w)
@[simp] theorem State.takeFree_keeper_island (s : State) (w : Nat) : ((State.takeFree s w).2).keeper.island = s.keeper.island := still_keeper_island (s.takeFree_still w)
@[simp] theorem State.takeFree_keeper_reserved (s : State) (w : Nat) : ((State.takeFree s w).2).keeper.reserved = s.keeper.reserved := still_keeper_reserved (s.takeFree_still w)
@[simp] theorem State.takeFree_keeper_rowPending (s : State) (w : Nat) : ((State.takeFree s w).2).keeper.rowPending = s.keeper.rowPending := still_keeper_rowPending (s.takeFree_still w)
@[simp] theorem State.takeFree_keeper_logFirst (s : State) (w : Nat) : ((State.takeFree s w).2).keeper.logFirst = s.keeper.logFirst := still_keeper_logFirst (s.takeFree_still w)
@[simp] theorem State.takeFree_keeper_logCount (s : State) (w : Nat) : ((State.takeFree s w).2).keeper.logCount = s.keeper.logCount := still_keeper_logCount (s.takeFree_still w)
@[simp] theorem State.takeFree_keeper_logPrior (s : State) (w : Nat) : ((State.takeFree s w).2).keeper.logPrior = s.keeper.logPrior := still_keeper_logPrior (s.takeFree_still w)
@[simp] theorem State.takeFree_keeper_logArchives (s : State) (w : Nat) : ((State.takeFree s w).2).keeper.logArchives = s.keeper.logArchives := still_keeper_logArchives (s.takeFree_still w)
@[simp] theorem State.takeFree_keeper_fullTold (s : State) (w : Nat) : ((State.takeFree s w).2).keeper.fullTold = s.keeper.fullTold := still_keeper_fullTold (s.takeFree_still w)
@[simp] theorem State.takeFree_keeper_broken (s : State) (w : Nat) : ((State.takeFree s w).2).keeper.broken = s.keeper.broken := still_keeper_broken (s.takeFree_still w)
@[simp] theorem State.takeFree_keeper_verifyDone (s : State) (w : Nat) : ((State.takeFree s w).2).keeper.verifyDone = s.keeper.verifyDone := still_keeper_verifyDone (s.takeFree_still w)
@[simp] theorem State.takeFree_keeper_verifyResult (s : State) (w : Nat) : ((State.takeFree s w).2).keeper.verifyResult = s.keeper.verifyResult := still_keeper_verifyResult (s.takeFree_still w)
@[simp] theorem State.takeFree_keeper_verifyFirst (s : State) (w : Nat) : ((State.takeFree s w).2).keeper.verifyFirst = s.keeper.verifyFirst := still_keeper_verifyFirst (s.takeFree_still w)
@[simp] theorem State.takeFree_keeper_verifying (s : State) (w : Nat) : ((State.takeFree s w).2).keeper.verifying = s.keeper.verifying := still_keeper_verifying (s.takeFree_still w)
@[simp] theorem State.takeFree_keeper_box (s : State) (w : Nat) : ((State.takeFree s w).2).keeper.box = s.keeper.box := still_keeper_box (s.takeFree_still w)
@[simp] theorem State.takeFree_keeper_logSel (s : State) (w : Nat) : ((State.takeFree s w).2).keeper.logSel = s.keeper.logSel := still_keeper_logSel (s.takeFree_still w)
@[simp] theorem State.takeFree_eth_neighbours (s : State) (w : Nat) : ((State.takeFree s w).2).eth.neighbours = s.eth.neighbours := still_eth_neighbours (s.takeFree_still w)
@[simp] theorem State.takeFree_eth_ptpState (s : State) (w : Nat) : ((State.takeFree s w).2).eth.ptpState = s.eth.ptpState := still_eth_ptpState (s.takeFree_still w)
@[simp] theorem State.takeFree_eth_ptpSource (s : State) (w : Nat) : ((State.takeFree s w).2).eth.ptpSource = s.eth.ptpSource := still_eth_ptpSource (s.takeFree_still w)
@[simp] theorem State.takeFree_inj_killed (s : State) (w : Nat) : ((State.takeFree s w).2).inj.killed = s.inj.killed := still_inj_killed (s.takeFree_still w)
@[simp] theorem State.takeFree_bay_lost (s : State) (w : Nat) (cc : BayNo) : (((State.takeFree s w).2).bay cc).lost = (s.bay cc).lost :=
  still_bay_lost (s.takeFree_still w) cc
@[simp] theorem State.takeFree_bay_clk (s : State) (w : Nat) (cc : BayNo) : (((State.takeFree s w).2).bay cc).clk = (s.bay cc).clk :=
  still_bay_clk (s.takeFree_still w) cc
@[simp] theorem State.takeFree_bay_tbs (s : State) (w : Nat) (cc : BayNo) : (((State.takeFree s w).2).bay cc).tbs = (s.bay cc).tbs :=
  still_bay_tbs (s.takeFree_still w) cc
@[simp] theorem State.takeFree_bay_dma (s : State) (w : Nat) (cc : BayNo) : (((State.takeFree s w).2).bay cc).dma = (s.bay cc).dma :=
  still_bay_dma (s.takeFree_still w) cc
@[simp] theorem State.takeFree_bay_pwr (s : State) (w : Nat) (cc : BayNo) : (((State.takeFree s w).2).bay cc).pwr = (s.bay cc).pwr :=
  still_bay_pwr (s.takeFree_still w) cc
@[simp] theorem State.takeFree_bay_trg (s : State) (w : Nat) (cc : BayNo) : (((State.takeFree s w).2).bay cc).trg = (s.bay cc).trg :=
  still_bay_trg (s.takeFree_still w) cc
@[simp] theorem State.takeFree_bay_afe (s : State) (w : Nat) (cc : BayNo) : (((State.takeFree s w).2).bay cc).afe = (s.bay cc).afe :=
  still_bay_afe (s.takeFree_still w) cc
@[simp] theorem State.takeFree_bay_adc (s : State) (w : Nat) (cc : BayNo) : (((State.takeFree s w).2).bay cc).adc = (s.bay cc).adc :=
  still_bay_adc (s.takeFree_still w) cc
@[simp] theorem State.takeFree_bay_ddc (s : State) (w : Nat) (cc : BayNo) : (((State.takeFree s w).2).bay cc).ddc = (s.bay cc).ddc :=
  still_bay_ddc (s.takeFree_still w) cc
@[simp] theorem State.takeFree_bay_xfm (s : State) (w : Nat) (cc : BayNo) : (((State.takeFree s w).2).bay cc).xfm = (s.bay cc).xfm :=
  still_bay_xfm (s.takeFree_still w) cc
@[simp] theorem State.takeFree_bay_den (s : State) (w : Nat) (cc : BayNo) : (((State.takeFree s w).2).bay cc).den = (s.bay cc).den :=
  still_bay_den (s.takeFree_still w) cc
@[simp] theorem State.takeFree_bay_mco (s : State) (w : Nat) (cc : BayNo) : (((State.takeFree s w).2).bay cc).mco = (s.bay cc).mco :=
  still_bay_mco (s.takeFree_still w) cc
@[simp] theorem State.takeFree_bay_scn (s : State) (w : Nat) (cc : BayNo) : (((State.takeFree s w).2).bay cc).scn = (s.bay cc).scn :=
  still_bay_scn (s.takeFree_still w) cc
@[simp] theorem State.takeFree_bay_recorder (s : State) (w : Nat) (cc : BayNo) : (((State.takeFree s w).2).bay cc).recorder = (s.bay cc).recorder :=
  still_bay_recorder (s.takeFree_still w) cc
@[simp] theorem State.takeFree_bay_lne (s : State) (w : Nat) (cc : BayNo) : (((State.takeFree s w).2).bay cc).lne = (s.bay cc).lne :=
  still_bay_lne (s.takeFree_still w) cc
@[simp] theorem State.takeFree_bay_pci (s : State) (w : Nat) (cc : BayNo) : (((State.takeFree s w).2).bay cc).pci = (s.bay cc).pci :=
  still_bay_pci (s.takeFree_still w) cc
@[simp] theorem State.takeFree_bay_eth (s : State) (w : Nat) (cc : BayNo) : (((State.takeFree s w).2).bay cc).eth = (s.bay cc).eth :=
  still_bay_eth (s.takeFree_still w) cc
@[simp] theorem State.takeFree_bay_jes (s : State) (w : Nat) (cc : BayNo) : (((State.takeFree s w).2).bay cc).jes = (s.bay cc).jes :=
  still_bay_jes (s.takeFree_still w) cc
@[simp] theorem State.takeFree_bay_cal (s : State) (w : Nat) (cc : BayNo) : (((State.takeFree s w).2).bay cc).cal = (s.bay cc).cal :=
  still_bay_cal (s.takeFree_still w) cc
@[simp] theorem State.takeFree_bay_hkc (s : State) (w : Nat) (cc : BayNo) : (((State.takeFree s w).2).bay cc).hkc = (s.bay cc).hkc :=
  still_bay_hkc (s.takeFree_still w) cc
@[simp] theorem State.takeFree_bay_aux (s : State) (w : Nat) (cc : BayNo) : (((State.takeFree s w).2).bay cc).aux = (s.bay cc).aux :=
  still_bay_aux (s.takeFree_still w) cc
@[simp] theorem State.takeFree_bay_mon (s : State) (w : Nat) (cc : BayNo) : (((State.takeFree s w).2).bay cc).mon = (s.bay cc).mon :=
  still_bay_mon (s.takeFree_still w) cc
@[simp] theorem State.takeFree_bay_jtag (s : State) (w : Nat) (cc : BayNo) : (((State.takeFree s w).2).bay cc).jtag = (s.bay cc).jtag :=
  still_bay_jtag (s.takeFree_still w) cc
@[simp] theorem State.takeFree_bay_lnl_ports (s : State) (w : Nat) (cc : BayNo) : (((State.takeFree s w).2).bay cc).lnl.ports = (s.bay cc).lnl.ports :=
  still_bay_lnl_ports (s.takeFree_still w) cc
@[simp] theorem State.takeFree_bay_lnl_routes (s : State) (w : Nat) (cc : BayNo) : (((State.takeFree s w).2).bay cc).lnl.routes = (s.bay cc).lnl.routes :=
  still_bay_lnl_routes (s.takeFree_still w) cc
@[simp] theorem State.takeFree_bay_lnl_updateDue (s : State) (w : Nat) (cc : BayNo) : (((State.takeFree s w).2).bay cc).lnl.updateDue = (s.bay cc).lnl.updateDue :=
  still_bay_lnl_updateDue (s.takeFree_still w) cc
@[simp] theorem State.takeFree_bay_lnl_reroutes (s : State) (w : Nat) (cc : BayNo) : (((State.takeFree s w).2).bay cc).lnl.reroutes = (s.bay cc).lnl.reroutes :=
  still_bay_lnl_reroutes (s.takeFree_still w) cc
@[simp] theorem State.takeFree_bay_lnl_island (s : State) (w : Nat) (cc : BayNo) : (((State.takeFree s w).2).bay cc).lnl.island = (s.bay cc).lnl.island :=
  still_bay_lnl_island (s.takeFree_still w) cc
@[simp] theorem State.takeFree_alive (s : State) (w : Nat) (cc : BayNo) : ((State.takeFree s w).2).alive cc = s.alive cc :=
  still_alive (s.takeFree_still w) cc
@[simp] theorem State.takeFree_liveBays (s : State) (w : Nat) : ((State.takeFree s w).2).liveBays  = s.liveBays :=
  still_liveBays (s.takeFree_still w) 
@[simp] theorem State.takeFree_nowAt (s : State) (w : Nat) (cc : BayNo) : ((State.takeFree s w).2).nowAt cc = s.nowAt cc :=
  still_nowAt (s.takeFree_still w) cc
@[simp] theorem State.takeFree_now (s : State) (w : Nat) : ((State.takeFree s w).2).now  = s.now :=
  still_now (s.takeFree_still w) 
@[simp] theorem State.takeFree_fld (s : State) (w : Nat) (g : Field) (cc : BayNo) (j k : Nat) : ((State.takeFree s w).2).fld g cc j k = s.fld g cc j k :=
  still_fld (s.takeFree_still w) g cc j k
@[simp] theorem State.takeFree_fldN (s : State) (w : Nat) (g : Field) (cc : BayNo) (j k : Nat) : ((State.takeFree s w).2).fldN g cc j k = s.fldN g cc j k :=
  still_fldN (s.takeFree_still w) g cc j k
@[simp] theorem State.takeFree_fldB (s : State) (w : Nat) (g : Field) (cc : BayNo) (j : Nat) : ((State.takeFree s w).2).fldB g cc j = s.fldB g cc j :=
  still_fldB (s.takeFree_still w) g cc j
@[simp] theorem State.takeFree_pkgN (s : State) (w : Nat) (g : Field) (j : Nat) : ((State.takeFree s w).2).pkgN g j = s.pkgN g j :=
  still_pkgN (s.takeFree_still w) g j

/-- A change of a part of bay `b`, and what carrying records touches, leave everything besides that part. -/
theorem besides_of {s t : State} (b : BayNo) (f g : Bay → Bay) (h : t.still = (s.modBay b g).still)
    (hf : ∀ x : Bay, f (g x).still = f x.still) : t.besides b f = s.besides b f := by
  unfold State.besides
  rw [h]
  unfold State.modBay State.setBay State.still State.bay
  simp only [State.mk.injEq, true_and, and_true]
  apply Vector.ext
  intro i hi
  by_cases hb : b.val = i
  · subst hb; simp [hf]
  · simp [Vector.getElem_set, hb]

/-- A bay other than the changed one is as before, but for its queues, injectors and split counters. -/
theorem besides_bay_ne {s t : State} {b c : BayNo} {f : Bay → Bay} (h : t.besides b f = s.besides b f) (hc : c ≠ b) :
    (t.bay c).still = (s.bay c).still := by
  have e := congrArg (fun u : State => u.bay c) h
  simp only [State.besides, State.bay_modBay_ne _ _ hc] at e
  simpa [State.still, State.bay] using e

/-! ### Changes in several bays -/

theorem allBays_nodup : allBays.Nodup := by decide

theorem mem_allBays (b : BayNo) : b ∈ allBays := by revert b; decide

theorem State.liveBays_nodup (s : State) : s.liveBays.Nodup := allBays_nodup.filter _

theorem State.mem_liveBays (s : State) (b : BayNo) : b ∈ s.liveBays ↔ s.alive b = true := by
  simp [State.liveBays, mem_allBays]

/-- What every change of a list of changes keeps, the whole keeps. -/
theorem State.eachBay_keep {α : Type} (p : State → α) (f : State → BayNo → State) (h : ∀ s b, p (f s b) = p s)
    (bs : List BayNo) : ∀ s : State, p (s.eachBay bs f) = p s := by
  induction bs with
  | nil => intro s; rfl
  | cons b r ih => intro s; exact (ih (f s b)).trans (h s b)

/-- The same change in each bay of a list without repeats. -/
theorem State.eachBay_bay (g : BayNo → Bay → Bay) (c : BayNo) : ∀ (bs : List BayNo) (_ : bs.Nodup) (s : State),
    (s.eachBay bs fun u b => u.modBay b (g b)).bay c = if c ∈ bs then g c (s.bay c) else s.bay c := by
  intro bs
  induction bs with
  | nil => intro _ s; rfl
  | cons b r ih =>
    intro nd s
    have e : (s.eachBay (b :: r) fun u b => u.modBay b (g b)) = (s.modBay b (g b)).eachBay r fun u b => u.modBay b (g b) := (rfl)
    rw [e, ih (List.nodup_cons.mp nd).2]
    by_cases hc : c = b
    · subst hc; simp [(List.nodup_cons.mp nd).1, State.bay_modBay]
    · simp [hc, State.bay_modBay_ne]

/-- The same change in every live bay. -/
theorem State.eachLive_bay (s : State) (g : BayNo → Bay → Bay) (c : BayNo) (h : s.alive c = true) :
    (s.eachBay s.liveBays fun u b => u.modBay b (g b)).bay c = g c (s.bay c) := by
  rw [State.eachBay_bay g c _ s.liveBays_nodup, if_pos ((s.mem_liveBays c).mpr h)]

/-! ### Time -/

/-- While the grid runs, time moves the counters and what is left of a rejoin's offset, and nothing else. -/
theorem State.passTime_running (s : State) (d : Nat) (h : s.tbs.grid.running = true) :
    s.passTime d = { s with bays := s.bays.map fun x => x.advance (d * 2 ^ 32) s.slewMax } := by
  simp only [State.passTime, State.quietTime, h, if_true]

theorem State.passTime_bay (s : State) (d : Nat) (c : BayNo) (h : s.tbs.grid.running = true) :
    (s.passTime d).bay c = (s.bay c).advance (d * 2 ^ 32) s.slewMax := by
  rw [s.passTime_running d h]
  simp [State.bay]

/-- What neither the counter nor a once-an-epoch mark is part of stays as time passes. -/
theorem State.passTime_bay_same {α : Type} (g : Bay → α) (s : State) (d : Nat) (c : BayNo)
    (h1 : ∀ (x : Bay) (n : Nat) (v : Int), g (x.advance n v) = g x) (h2 : ∀ x : Bay, g x.freshEpoch = g x)
    (h4 : ∀ (x : Bay) (y : TbsBay), g { x with tbs := y } = g x) :
    g ((s.passTime d).bay c) = g (s.bay c) := by
  have h3 : ∀ (x : Bay) (n : Nat), g (x.quieten n) = g x := by
    intro x n
    unfold Bay.quieten
    split <;> simp only [h4, h2]
  simp only [State.passTime, State.quietTime]
  split <;> simp [State.bay, h1, h3]

/-- What the counter is no part of stays as time passes while the grid runs. -/
theorem State.passTime_bay_run {α : Type} (g : Bay → α) (s : State) (d : Nat) (c : BayNo) (h : s.tbs.grid.running = true)
    (h1 : ∀ (x : Bay) (n : Nat) (v : Int), g (x.advance n v) = g x) : g ((s.passTime d).bay c) = g (s.bay c) := by
  rw [s.passTime_bay d c h, h1]

theorem Bay.advance_lost (x : Bay) (n : Nat) (v : Int) : (x.advance n v).lost = x.lost := by
  unfold Bay.advance; split <;> rfl
theorem Bay.advance_clk (x : Bay) (n : Nat) (v : Int) : (x.advance n v).clk = x.clk := by
  unfold Bay.advance; split <;> rfl
theorem Bay.advance_dma (x : Bay) (n : Nat) (v : Int) : (x.advance n v).dma = x.dma := by
  unfold Bay.advance; split <;> rfl
theorem Bay.advance_pwr (x : Bay) (n : Nat) (v : Int) : (x.advance n v).pwr = x.pwr := by
  unfold Bay.advance; split <;> rfl
theorem Bay.advance_trg (x : Bay) (n : Nat) (v : Int) : (x.advance n v).trg = x.trg := by
  unfold Bay.advance; split <;> rfl
theorem Bay.advance_adc (x : Bay) (n : Nat) (v : Int) : (x.advance n v).adc = x.adc := by
  unfold Bay.advance; split <;> rfl
theorem Bay.advance_ddc (x : Bay) (n : Nat) (v : Int) : (x.advance n v).ddc = x.ddc := by
  unfold Bay.advance; split <;> rfl
theorem Bay.advance_den (x : Bay) (n : Nat) (v : Int) : (x.advance n v).den = x.den := by
  unfold Bay.advance; split <;> rfl
theorem Bay.advance_recorder (x : Bay) (n : Nat) (v : Int) : (x.advance n v).recorder = x.recorder := by
  unfold Bay.advance; split <;> rfl
theorem Bay.advance_pci (x : Bay) (n : Nat) (v : Int) : (x.advance n v).pci = x.pci := by
  unfold Bay.advance; split <;> rfl
theorem Bay.advance_eth (x : Bay) (n : Nat) (v : Int) : (x.advance n v).eth = x.eth := by
  unfold Bay.advance; split <;> rfl
theorem Bay.advance_jes (x : Bay) (n : Nat) (v : Int) : (x.advance n v).jes = x.jes := by
  unfold Bay.advance; split <;> rfl
theorem Bay.advance_cal (x : Bay) (n : Nat) (v : Int) : (x.advance n v).cal = x.cal := by
  unfold Bay.advance; split <;> rfl
theorem Bay.advance_mon (x : Bay) (n : Nat) (v : Int) : (x.advance n v).mon = x.mon := by
  unfold Bay.advance; split <;> rfl
theorem Bay.advance_jtag (x : Bay) (n : Nat) (v : Int) : (x.advance n v).jtag = x.jtag := by
  unfold Bay.advance; split <;> rfl
theorem Bay.advance_que (x : Bay) (n : Nat) (v : Int) : (x.advance n v).que = x.que := by
  unfold Bay.advance; split <;> rfl
theorem Bay.advance_afe (x : Bay) (n : Nat) (v : Int) : (x.advance n v).afe = x.afe := by
  unfold Bay.advance; split <;> rfl
theorem Bay.advance_xfm (x : Bay) (n : Nat) (v : Int) : (x.advance n v).xfm = x.xfm := by
  unfold Bay.advance; split <;> rfl
theorem Bay.advance_mco (x : Bay) (n : Nat) (v : Int) : (x.advance n v).mco = x.mco := by
  unfold Bay.advance; split <;> rfl
theorem Bay.advance_scn (x : Bay) (n : Nat) (v : Int) : (x.advance n v).scn = x.scn := by
  unfold Bay.advance; split <;> rfl
theorem Bay.advance_aux (x : Bay) (n : Nat) (v : Int) : (x.advance n v).aux = x.aux := by
  unfold Bay.advance; split <;> rfl
theorem Bay.advance_lne (x : Bay) (n : Nat) (v : Int) : (x.advance n v).lne = x.lne := by
  unfold Bay.advance; split <;> rfl
theorem Bay.advance_hkc (x : Bay) (n : Nat) (v : Int) : (x.advance n v).hkc = x.hkc := by
  unfold Bay.advance; split <;> rfl

theorem Bay.advance_lnl (x : Bay) (n : Nat) (v : Int) : (x.advance n v).lnl = x.lnl := by
  unfold Bay.advance; split <;> rfl

theorem State.passTime_keep {α : Type} (p : State → α) (s : State) (d : Nat)
    (h : ∀ (u : State) (bs : Vector Bay 8) (id : IdPkg), p { u with bays := bs, ident := id } = p u) :
    p (s.passTime d) = p s := by
  simp only [State.passTime, State.quietTime]
  split <;> exact h s _ _

@[simp] theorem State.passTime_part (s : State) (d : Nat) : (s.passTime d).part = s.part :=
  State.passTime_keep (fun x => x.part) s d fun _ _ _ => rfl
@[simp] theorem State.passTime_vals (s : State) (d : Nat) : (s.passTime d).vals = s.vals :=
  State.passTime_keep (fun x => x.vals) s d fun _ _ _ => rfl
@[simp] theorem State.passTime_img (s : State) (d : Nat) : (s.passTime d).img = s.img :=
  State.passTime_keep (fun x => x.img) s d fun _ _ _ => rfl
@[simp] theorem State.passTime_flash (s : State) (d : Nat) : (s.passTime d).flash = s.flash :=
  State.passTime_keep (fun x => x.flash) s d fun _ _ _ => rfl
@[simp] theorem State.passTime_sel (s : State) (d : Nat) : (s.passTime d).sel = s.sel :=
  State.passTime_keep (fun x => x.sel) s d fun _ _ _ => rfl
@[simp] theorem State.passTime_keeper (s : State) (d : Nat) : (s.passTime d).keeper = s.keeper :=
  State.passTime_keep (fun x => x.keeper) s d fun _ _ _ => rfl
@[simp] theorem State.passTime_pwr (s : State) (d : Nat) : (s.passTime d).pwr = s.pwr :=
  State.passTime_keep (fun x => x.pwr) s d fun _ _ _ => rfl
@[simp] theorem State.passTime_faults (s : State) (d : Nat) : (s.passTime d).faults = s.faults :=
  State.passTime_keep (fun x => x.faults) s d fun _ _ _ => rfl
@[simp] theorem State.passTime_trg (s : State) (d : Nat) : (s.passTime d).trg = s.trg :=
  State.passTime_keep (fun x => x.trg) s d fun _ _ _ => rfl
@[simp] theorem State.passTime_eth (s : State) (d : Nat) : (s.passTime d).eth = s.eth :=
  State.passTime_keep (fun x => x.eth) s d fun _ _ _ => rfl
@[simp] theorem State.passTime_lnl (s : State) (d : Nat) : (s.passTime d).lnl = s.lnl :=
  State.passTime_keep (fun x => x.lnl) s d fun _ _ _ => rfl
@[simp] theorem State.passTime_inj (s : State) (d : Nat) : (s.passTime d).inj = s.inj :=
  State.passTime_keep (fun x => x.inj) s d fun _ _ _ => rfl
@[simp] theorem State.passTime_clrPin (s : State) (d : Nat) : (s.passTime d).clrPin = s.clrPin :=
  State.passTime_keep (fun x => x.clrPin) s d fun _ _ _ => rfl
@[simp] theorem State.passTime_rstLow (s : State) (d : Nat) : (s.passTime d).rstLow = s.rstLow :=
  State.passTime_keep (fun x => x.rstLow) s d fun _ _ _ => rfl
@[simp] theorem State.passTime_fresh (s : State) (d : Nat) : (s.passTime d).fresh = s.fresh :=
  State.passTime_keep (fun x => x.fresh) s d fun _ _ _ => rfl
@[simp] theorem State.passTime_outbox (s : State) (d : Nat) : (s.passTime d).outbox = s.outbox :=
  State.passTime_keep (fun x => x.outbox) s d fun _ _ _ => rfl
@[simp] theorem State.passTime_pending (s : State) (d : Nat) : (s.passTime d).pending = s.pending :=
  State.passTime_keep (fun x => x.pending) s d fun _ _ _ => rfl
/-- The package's time is as before. -/
@[simp] theorem State.passTime_tbs (s : State) (d : Nat) : (s.passTime d).tbs = s.tbs :=
  State.passTime_keep (fun x => x.tbs) s d fun _ _ _ => rfl

theorem State.passTime_ident (s : State) (d : Nat) (h : s.tbs.grid.running = true) : (s.passTime d).ident = s.ident := by
  rw [s.passTime_running d h]

@[simp] theorem State.passTime_bay_lost (s : State) (d : Nat) (c : BayNo) : ((s.passTime d).bay c).lost = (s.bay c).lost :=
  State.passTime_bay_same (fun x => x.lost) s d c Bay.advance_lost (fun _ => rfl) (fun _ _ => rfl)
@[simp] theorem State.passTime_bay_clk (s : State) (d : Nat) (c : BayNo) : ((s.passTime d).bay c).clk = (s.bay c).clk :=
  State.passTime_bay_same (fun x => x.clk) s d c Bay.advance_clk (fun _ => rfl) (fun _ _ => rfl)
@[simp] theorem State.passTime_bay_dma (s : State) (d : Nat) (c : BayNo) : ((s.passTime d).bay c).dma = (s.bay c).dma :=
  State.passTime_bay_same (fun x => x.dma) s d c Bay.advance_dma (fun _ => rfl) (fun _ _ => rfl)
@[simp] theorem State.passTime_bay_pwr (s : State) (d : Nat) (c : BayNo) : ((s.passTime d).bay c).pwr = (s.bay c).pwr :=
  State.passTime_bay_same (fun x => x.pwr) s d c Bay.advance_pwr (fun _ => rfl) (fun _ _ => rfl)
@[simp] theorem State.passTime_bay_trg (s : State) (d : Nat) (c : BayNo) : ((s.passTime d).bay c).trg = (s.bay c).trg :=
  State.passTime_bay_same (fun x => x.trg) s d c Bay.advance_trg (fun _ => rfl) (fun _ _ => rfl)
@[simp] theorem State.passTime_bay_adc (s : State) (d : Nat) (c : BayNo) : ((s.passTime d).bay c).adc = (s.bay c).adc :=
  State.passTime_bay_same (fun x => x.adc) s d c Bay.advance_adc (fun _ => rfl) (fun _ _ => rfl)
@[simp] theorem State.passTime_bay_ddc (s : State) (d : Nat) (c : BayNo) : ((s.passTime d).bay c).ddc = (s.bay c).ddc :=
  State.passTime_bay_same (fun x => x.ddc) s d c Bay.advance_ddc (fun _ => rfl) (fun _ _ => rfl)
@[simp] theorem State.passTime_bay_den (s : State) (d : Nat) (c : BayNo) : ((s.passTime d).bay c).den = (s.bay c).den :=
  State.passTime_bay_same (fun x => x.den) s d c Bay.advance_den (fun _ => rfl) (fun _ _ => rfl)
@[simp] theorem State.passTime_bay_recorder (s : State) (d : Nat) (c : BayNo) : ((s.passTime d).bay c).recorder = (s.bay c).recorder :=
  State.passTime_bay_same (fun x => x.recorder) s d c Bay.advance_recorder (fun _ => rfl) (fun _ _ => rfl)
@[simp] theorem State.passTime_bay_pci (s : State) (d : Nat) (c : BayNo) : ((s.passTime d).bay c).pci = (s.bay c).pci :=
  State.passTime_bay_same (fun x => x.pci) s d c Bay.advance_pci (fun _ => rfl) (fun _ _ => rfl)
@[simp] theorem State.passTime_bay_eth (s : State) (d : Nat) (c : BayNo) : ((s.passTime d).bay c).eth = (s.bay c).eth :=
  State.passTime_bay_same (fun x => x.eth) s d c Bay.advance_eth (fun _ => rfl) (fun _ _ => rfl)
@[simp] theorem State.passTime_bay_jes (s : State) (d : Nat) (c : BayNo) : ((s.passTime d).bay c).jes = (s.bay c).jes :=
  State.passTime_bay_same (fun x => x.jes) s d c Bay.advance_jes (fun _ => rfl) (fun _ _ => rfl)
@[simp] theorem State.passTime_bay_cal (s : State) (d : Nat) (c : BayNo) : ((s.passTime d).bay c).cal = (s.bay c).cal :=
  State.passTime_bay_same (fun x => x.cal) s d c Bay.advance_cal (fun _ => rfl) (fun _ _ => rfl)
@[simp] theorem State.passTime_bay_mon (s : State) (d : Nat) (c : BayNo) : ((s.passTime d).bay c).mon = (s.bay c).mon :=
  State.passTime_bay_same (fun x => x.mon) s d c Bay.advance_mon (fun _ => rfl) (fun _ _ => rfl)
@[simp] theorem State.passTime_bay_jtag (s : State) (d : Nat) (c : BayNo) : ((s.passTime d).bay c).jtag = (s.bay c).jtag :=
  State.passTime_bay_same (fun x => x.jtag) s d c Bay.advance_jtag (fun _ => rfl) (fun _ _ => rfl)
theorem State.passTime_bay_que (s : State) (d : Nat) (c : BayNo) (h : s.tbs.grid.running = true) :
    ((s.passTime d).bay c).que = (s.bay c).que :=
  State.passTime_bay_run (fun x => x.que) s d c h Bay.advance_que
theorem State.passTime_bay_afe (s : State) (d : Nat) (c : BayNo) (h : s.tbs.grid.running = true) :
    ((s.passTime d).bay c).afe = (s.bay c).afe :=
  State.passTime_bay_run (fun x => x.afe) s d c h Bay.advance_afe
theorem State.passTime_bay_xfm (s : State) (d : Nat) (c : BayNo) (h : s.tbs.grid.running = true) :
    ((s.passTime d).bay c).xfm = (s.bay c).xfm :=
  State.passTime_bay_run (fun x => x.xfm) s d c h Bay.advance_xfm
theorem State.passTime_bay_mco (s : State) (d : Nat) (c : BayNo) (h : s.tbs.grid.running = true) :
    ((s.passTime d).bay c).mco = (s.bay c).mco :=
  State.passTime_bay_run (fun x => x.mco) s d c h Bay.advance_mco
theorem State.passTime_bay_scn (s : State) (d : Nat) (c : BayNo) (h : s.tbs.grid.running = true) :
    ((s.passTime d).bay c).scn = (s.bay c).scn :=
  State.passTime_bay_run (fun x => x.scn) s d c h Bay.advance_scn
theorem State.passTime_bay_aux (s : State) (d : Nat) (c : BayNo) (h : s.tbs.grid.running = true) :
    ((s.passTime d).bay c).aux = (s.bay c).aux :=
  State.passTime_bay_run (fun x => x.aux) s d c h Bay.advance_aux
theorem State.passTime_bay_lne (s : State) (d : Nat) (c : BayNo) (h : s.tbs.grid.running = true) :
    ((s.passTime d).bay c).lne = (s.bay c).lne :=
  State.passTime_bay_run (fun x => x.lne) s d c h Bay.advance_lne
theorem State.passTime_bay_hkc (s : State) (d : Nat) (c : BayNo) (h : s.tbs.grid.running = true) :
    ((s.passTime d).bay c).hkc = (s.bay c).hkc :=
  State.passTime_bay_run (fun x => x.hkc) s d c h Bay.advance_hkc
@[simp] theorem State.passTime_fld (s : State) (d : Nat) (g : Field) (c : BayNo) (j k : Nat) : (s.passTime d).fld g c j k = s.fld g c j k :=
  State.passTime_keep (fun x => x.fld g c j k) s d fun _ _ _ => rfl
@[simp] theorem State.passTime_fldN (s : State) (d : Nat) (g : Field) (c : BayNo) (j k : Nat) : (s.passTime d).fldN g c j k = s.fldN g c j k :=
  State.passTime_keep (fun x => x.fldN g c j k) s d fun _ _ _ => rfl
@[simp] theorem State.passTime_fldB (s : State) (d : Nat) (g : Field) (c : BayNo) (j : Nat) : (s.passTime d).fldB g c j = s.fldB g c j :=
  State.passTime_keep (fun x => x.fldB g c j) s d fun _ _ _ => rfl
@[simp] theorem State.passTime_pkgN (s : State) (d : Nat) (g : Field) (j : Nat) : (s.passTime d).pkgN g j = s.pkgN g j :=
  State.passTime_keep (fun x => x.pkgN g j) s d fun _ _ _ => rfl
@[simp] theorem State.passTime_alive (s : State) (d : Nat) (c : BayNo) : (s.passTime d).alive c = s.alive c := by
  refine State.alive_congr c ?_ (s.passTime_part d) (s.passTime_bay_lost d c)
  simp only [State.running, State.passTime_pwr, State.passTime_rstLow, State.passTime_tbs]

@[simp] theorem State.passTime_liveBays (s : State) (d : Nat) : (s.passTime d).liveBays = s.liveBays :=
  State.liveBays_congr (s.passTime_alive d)

theorem State.reach_keep {α : Type} (p : State → α) (s : State) (h : ∀ d, p (s.passTime d) = p s) (t : Stamp) :
    p (s.reach t) = p s := by
  unfold State.reach
  split
  · exact h _
  · rfl

@[simp] theorem State.reach_part (s : State) (t : Stamp) : (s.reach t).part = s.part :=
  State.reach_keep (fun x => x.part) s (fun d => s.passTime_part d) t
@[simp] theorem State.reach_vals (s : State) (t : Stamp) : (s.reach t).vals = s.vals :=
  State.reach_keep (fun x => x.vals) s (fun d => s.passTime_vals d) t
@[simp] theorem State.reach_img (s : State) (t : Stamp) : (s.reach t).img = s.img :=
  State.reach_keep (fun x => x.img) s (fun d => s.passTime_img d) t
@[simp] theorem State.reach_flash (s : State) (t : Stamp) : (s.reach t).flash = s.flash :=
  State.reach_keep (fun x => x.flash) s (fun d => s.passTime_flash d) t
@[simp] theorem State.reach_sel (s : State) (t : Stamp) : (s.reach t).sel = s.sel :=
  State.reach_keep (fun x => x.sel) s (fun d => s.passTime_sel d) t
@[simp] theorem State.reach_keeper (s : State) (t : Stamp) : (s.reach t).keeper = s.keeper :=
  State.reach_keep (fun x => x.keeper) s (fun d => s.passTime_keeper d) t
@[simp] theorem State.reach_pwr (s : State) (t : Stamp) : (s.reach t).pwr = s.pwr :=
  State.reach_keep (fun x => x.pwr) s (fun d => s.passTime_pwr d) t
@[simp] theorem State.reach_faults (s : State) (t : Stamp) : (s.reach t).faults = s.faults :=
  State.reach_keep (fun x => x.faults) s (fun d => s.passTime_faults d) t
@[simp] theorem State.reach_trg (s : State) (t : Stamp) : (s.reach t).trg = s.trg :=
  State.reach_keep (fun x => x.trg) s (fun d => s.passTime_trg d) t
@[simp] theorem State.reach_eth (s : State) (t : Stamp) : (s.reach t).eth = s.eth :=
  State.reach_keep (fun x => x.eth) s (fun d => s.passTime_eth d) t
@[simp] theorem State.reach_lnl (s : State) (t : Stamp) : (s.reach t).lnl = s.lnl :=
  State.reach_keep (fun x => x.lnl) s (fun d => s.passTime_lnl d) t
@[simp] theorem State.reach_inj (s : State) (t : Stamp) : (s.reach t).inj = s.inj :=
  State.reach_keep (fun x => x.inj) s (fun d => s.passTime_inj d) t
@[simp] theorem State.reach_clrPin (s : State) (t : Stamp) : (s.reach t).clrPin = s.clrPin :=
  State.reach_keep (fun x => x.clrPin) s (fun d => s.passTime_clrPin d) t
@[simp] theorem State.reach_rstLow (s : State) (t : Stamp) : (s.reach t).rstLow = s.rstLow :=
  State.reach_keep (fun x => x.rstLow) s (fun d => s.passTime_rstLow d) t
@[simp] theorem State.reach_fresh (s : State) (t : Stamp) : (s.reach t).fresh = s.fresh :=
  State.reach_keep (fun x => x.fresh) s (fun d => s.passTime_fresh d) t
@[simp] theorem State.reach_outbox (s : State) (t : Stamp) : (s.reach t).outbox = s.outbox :=
  State.reach_keep (fun x => x.outbox) s (fun d => s.passTime_outbox d) t
@[simp] theorem State.reach_pending (s : State) (t : Stamp) : (s.reach t).pending = s.pending :=
  State.reach_keep (fun x => x.pending) s (fun d => s.passTime_pending d) t
@[simp] theorem State.reach_tbs (s : State) (t : Stamp) : (s.reach t).tbs = s.tbs :=
  State.reach_keep (fun x => x.tbs) s (fun d => s.passTime_tbs d) t
theorem State.reach_ident (s : State) (t : Stamp) (h : s.tbs.grid.running = true) : (s.reach t).ident = s.ident :=
  State.reach_keep (fun x => x.ident) s (fun d => s.passTime_ident d h) t
@[simp] theorem State.reach_bay_lost (s : State) (t : Stamp) (c : BayNo) : ((s.reach t).bay c).lost = (s.bay c).lost :=
  State.reach_keep (fun x => (x.bay c).lost) s (fun d => s.passTime_bay_lost d c) t
@[simp] theorem State.reach_bay_clk (s : State) (t : Stamp) (c : BayNo) : ((s.reach t).bay c).clk = (s.bay c).clk :=
  State.reach_keep (fun x => (x.bay c).clk) s (fun d => s.passTime_bay_clk d c) t
@[simp] theorem State.reach_bay_dma (s : State) (t : Stamp) (c : BayNo) : ((s.reach t).bay c).dma = (s.bay c).dma :=
  State.reach_keep (fun x => (x.bay c).dma) s (fun d => s.passTime_bay_dma d c) t
@[simp] theorem State.reach_bay_pwr (s : State) (t : Stamp) (c : BayNo) : ((s.reach t).bay c).pwr = (s.bay c).pwr :=
  State.reach_keep (fun x => (x.bay c).pwr) s (fun d => s.passTime_bay_pwr d c) t
@[simp] theorem State.reach_bay_trg (s : State) (t : Stamp) (c : BayNo) : ((s.reach t).bay c).trg = (s.bay c).trg :=
  State.reach_keep (fun x => (x.bay c).trg) s (fun d => s.passTime_bay_trg d c) t
@[simp] theorem State.reach_bay_adc (s : State) (t : Stamp) (c : BayNo) : ((s.reach t).bay c).adc = (s.bay c).adc :=
  State.reach_keep (fun x => (x.bay c).adc) s (fun d => s.passTime_bay_adc d c) t
@[simp] theorem State.reach_bay_ddc (s : State) (t : Stamp) (c : BayNo) : ((s.reach t).bay c).ddc = (s.bay c).ddc :=
  State.reach_keep (fun x => (x.bay c).ddc) s (fun d => s.passTime_bay_ddc d c) t
@[simp] theorem State.reach_bay_den (s : State) (t : Stamp) (c : BayNo) : ((s.reach t).bay c).den = (s.bay c).den :=
  State.reach_keep (fun x => (x.bay c).den) s (fun d => s.passTime_bay_den d c) t
@[simp] theorem State.reach_bay_recorder (s : State) (t : Stamp) (c : BayNo) : ((s.reach t).bay c).recorder = (s.bay c).recorder :=
  State.reach_keep (fun x => (x.bay c).recorder) s (fun d => s.passTime_bay_recorder d c) t
@[simp] theorem State.reach_bay_pci (s : State) (t : Stamp) (c : BayNo) : ((s.reach t).bay c).pci = (s.bay c).pci :=
  State.reach_keep (fun x => (x.bay c).pci) s (fun d => s.passTime_bay_pci d c) t
@[simp] theorem State.reach_bay_eth (s : State) (t : Stamp) (c : BayNo) : ((s.reach t).bay c).eth = (s.bay c).eth :=
  State.reach_keep (fun x => (x.bay c).eth) s (fun d => s.passTime_bay_eth d c) t
@[simp] theorem State.reach_bay_jes (s : State) (t : Stamp) (c : BayNo) : ((s.reach t).bay c).jes = (s.bay c).jes :=
  State.reach_keep (fun x => (x.bay c).jes) s (fun d => s.passTime_bay_jes d c) t
@[simp] theorem State.reach_bay_cal (s : State) (t : Stamp) (c : BayNo) : ((s.reach t).bay c).cal = (s.bay c).cal :=
  State.reach_keep (fun x => (x.bay c).cal) s (fun d => s.passTime_bay_cal d c) t
@[simp] theorem State.reach_bay_mon (s : State) (t : Stamp) (c : BayNo) : ((s.reach t).bay c).mon = (s.bay c).mon :=
  State.reach_keep (fun x => (x.bay c).mon) s (fun d => s.passTime_bay_mon d c) t
@[simp] theorem State.reach_bay_jtag (s : State) (t : Stamp) (c : BayNo) : ((s.reach t).bay c).jtag = (s.bay c).jtag :=
  State.reach_keep (fun x => (x.bay c).jtag) s (fun d => s.passTime_bay_jtag d c) t
theorem State.reach_bay_que (s : State) (t : Stamp) (c : BayNo) (h : s.tbs.grid.running = true) :
    ((s.reach t).bay c).que = (s.bay c).que :=
  State.reach_keep (fun x => (x.bay c).que) s (fun d => s.passTime_bay_que d c h) t
theorem State.reach_bay_afe (s : State) (t : Stamp) (c : BayNo) (h : s.tbs.grid.running = true) :
    ((s.reach t).bay c).afe = (s.bay c).afe :=
  State.reach_keep (fun x => (x.bay c).afe) s (fun d => s.passTime_bay_afe d c h) t
theorem State.reach_bay_xfm (s : State) (t : Stamp) (c : BayNo) (h : s.tbs.grid.running = true) :
    ((s.reach t).bay c).xfm = (s.bay c).xfm :=
  State.reach_keep (fun x => (x.bay c).xfm) s (fun d => s.passTime_bay_xfm d c h) t
theorem State.reach_bay_mco (s : State) (t : Stamp) (c : BayNo) (h : s.tbs.grid.running = true) :
    ((s.reach t).bay c).mco = (s.bay c).mco :=
  State.reach_keep (fun x => (x.bay c).mco) s (fun d => s.passTime_bay_mco d c h) t
theorem State.reach_bay_scn (s : State) (t : Stamp) (c : BayNo) (h : s.tbs.grid.running = true) :
    ((s.reach t).bay c).scn = (s.bay c).scn :=
  State.reach_keep (fun x => (x.bay c).scn) s (fun d => s.passTime_bay_scn d c h) t
theorem State.reach_bay_aux (s : State) (t : Stamp) (c : BayNo) (h : s.tbs.grid.running = true) :
    ((s.reach t).bay c).aux = (s.bay c).aux :=
  State.reach_keep (fun x => (x.bay c).aux) s (fun d => s.passTime_bay_aux d c h) t
theorem State.reach_bay_lne (s : State) (t : Stamp) (c : BayNo) (h : s.tbs.grid.running = true) :
    ((s.reach t).bay c).lne = (s.bay c).lne :=
  State.reach_keep (fun x => (x.bay c).lne) s (fun d => s.passTime_bay_lne d c h) t
theorem State.reach_bay_hkc (s : State) (t : Stamp) (c : BayNo) (h : s.tbs.grid.running = true) :
    ((s.reach t).bay c).hkc = (s.bay c).hkc :=
  State.reach_keep (fun x => (x.bay c).hkc) s (fun d => s.passTime_bay_hkc d c h) t
@[simp] theorem State.reach_fld (s : State) (t : Stamp) (g : Field) (c : BayNo) (j k : Nat) : (s.reach t).fld g c j k = s.fld g c j k :=
  State.reach_keep (fun x => x.fld g c j k) s (fun d => s.passTime_fld d g c j k) t
@[simp] theorem State.reach_fldN (s : State) (t : Stamp) (g : Field) (c : BayNo) (j k : Nat) : (s.reach t).fldN g c j k = s.fldN g c j k :=
  State.reach_keep (fun x => x.fldN g c j k) s (fun d => s.passTime_fldN d g c j k) t
@[simp] theorem State.reach_fldB (s : State) (t : Stamp) (g : Field) (c : BayNo) (j : Nat) : (s.reach t).fldB g c j = s.fldB g c j :=
  State.reach_keep (fun x => x.fldB g c j) s (fun d => s.passTime_fldB d g c j) t
@[simp] theorem State.reach_pkgN (s : State) (t : Stamp) (g : Field) (j : Nat) : (s.reach t).pkgN g j = s.pkgN g j :=
  State.reach_keep (fun x => x.pkgN g j) s (fun d => s.passTime_pkgN d g j) t
@[simp] theorem State.reach_alive (s : State) (t : Stamp) (c : BayNo) : (s.reach t).alive c = s.alive c :=
  State.reach_keep (fun x => x.alive c) s (fun d => s.passTime_alive d c) t
@[simp] theorem State.reach_liveBays (s : State) (t : Stamp)  : (s.reach t).liveBays  = s.liveBays  :=
  State.reach_keep (fun x => x.liveBays ) s (fun d => s.passTime_liveBays d ) t

/-! ### Folds -/

/-- What every step of a fold keeps, the fold keeps. -/
theorem foldl_keep {α β : Type} (p : State → β) (f : State → α → State) (h : ∀ s a, p (f s a) = p s) (l : List α) :
    ∀ s : State, p (l.foldl f s) = p s := by
  induction l with
  | nil => intro s; rfl
  | cons b r ih => intro s; exact (ih (f s b)).trans (h s b)

@[simp] theorem State.eachBay_part (s : State) (bs : List BayNo) (f : State → BayNo → State) (h : ∀ u b, (f u b).part = u.part) :
    (s.eachBay bs f).part = s.part := State.eachBay_keep (fun x => x.part) f h bs s
@[simp] theorem foldl_part {α : Type} (s : State) (l : List α) (f : State → α → State) (h : ∀ u a, (f u a).part = u.part) :
    (l.foldl f s).part = s.part := foldl_keep (fun x => x.part) f h l s
@[simp] theorem State.eachBay_vals (s : State) (bs : List BayNo) (f : State → BayNo → State) (h : ∀ u b, (f u b).vals = u.vals) :
    (s.eachBay bs f).vals = s.vals := State.eachBay_keep (fun x => x.vals) f h bs s
@[simp] theorem foldl_vals {α : Type} (s : State) (l : List α) (f : State → α → State) (h : ∀ u a, (f u a).vals = u.vals) :
    (l.foldl f s).vals = s.vals := foldl_keep (fun x => x.vals) f h l s
@[simp] theorem State.eachBay_flash (s : State) (bs : List BayNo) (f : State → BayNo → State) (h : ∀ u b, (f u b).flash = u.flash) :
    (s.eachBay bs f).flash = s.flash := State.eachBay_keep (fun x => x.flash) f h bs s
@[simp] theorem foldl_flash {α : Type} (s : State) (l : List α) (f : State → α → State) (h : ∀ u a, (f u a).flash = u.flash) :
    (l.foldl f s).flash = s.flash := foldl_keep (fun x => x.flash) f h l s
@[simp] theorem State.eachBay_tbs (s : State) (bs : List BayNo) (f : State → BayNo → State) (h : ∀ u b, (f u b).tbs = u.tbs) :
    (s.eachBay bs f).tbs = s.tbs := State.eachBay_keep (fun x => x.tbs) f h bs s
@[simp] theorem foldl_tbs {α : Type} (s : State) (l : List α) (f : State → α → State) (h : ∀ u a, (f u a).tbs = u.tbs) :
    (l.foldl f s).tbs = s.tbs := foldl_keep (fun x => x.tbs) f h l s
@[simp] theorem State.eachBay_sel (s : State) (bs : List BayNo) (f : State → BayNo → State) (h : ∀ u b, (f u b).sel = u.sel) :
    (s.eachBay bs f).sel = s.sel := State.eachBay_keep (fun x => x.sel) f h bs s
@[simp] theorem foldl_sel {α : Type} (s : State) (l : List α) (f : State → α → State) (h : ∀ u a, (f u a).sel = u.sel) :
    (l.foldl f s).sel = s.sel := foldl_keep (fun x => x.sel) f h l s
@[simp] theorem State.eachBay_pwr (s : State) (bs : List BayNo) (f : State → BayNo → State) (h : ∀ u b, (f u b).pwr = u.pwr) :
    (s.eachBay bs f).pwr = s.pwr := State.eachBay_keep (fun x => x.pwr) f h bs s
@[simp] theorem foldl_pwr {α : Type} (s : State) (l : List α) (f : State → α → State) (h : ∀ u a, (f u a).pwr = u.pwr) :
    (l.foldl f s).pwr = s.pwr := foldl_keep (fun x => x.pwr) f h l s
@[simp] theorem State.eachBay_faults (s : State) (bs : List BayNo) (f : State → BayNo → State) (h : ∀ u b, (f u b).faults = u.faults) :
    (s.eachBay bs f).faults = s.faults := State.eachBay_keep (fun x => x.faults) f h bs s
@[simp] theorem foldl_faults {α : Type} (s : State) (l : List α) (f : State → α → State) (h : ∀ u a, (f u a).faults = u.faults) :
    (l.foldl f s).faults = s.faults := foldl_keep (fun x => x.faults) f h l s
@[simp] theorem State.eachBay_trg (s : State) (bs : List BayNo) (f : State → BayNo → State) (h : ∀ u b, (f u b).trg = u.trg) :
    (s.eachBay bs f).trg = s.trg := State.eachBay_keep (fun x => x.trg) f h bs s
@[simp] theorem foldl_trg {α : Type} (s : State) (l : List α) (f : State → α → State) (h : ∀ u a, (f u a).trg = u.trg) :
    (l.foldl f s).trg = s.trg := foldl_keep (fun x => x.trg) f h l s
@[simp] theorem State.eachBay_ident (s : State) (bs : List BayNo) (f : State → BayNo → State) (h : ∀ u b, (f u b).ident = u.ident) :
    (s.eachBay bs f).ident = s.ident := State.eachBay_keep (fun x => x.ident) f h bs s
@[simp] theorem foldl_ident {α : Type} (s : State) (l : List α) (f : State → α → State) (h : ∀ u a, (f u a).ident = u.ident) :
    (l.foldl f s).ident = s.ident := foldl_keep (fun x => x.ident) f h l s
@[simp] theorem State.eachBay_lnl (s : State) (bs : List BayNo) (f : State → BayNo → State) (h : ∀ u b, (f u b).lnl = u.lnl) :
    (s.eachBay bs f).lnl = s.lnl := State.eachBay_keep (fun x => x.lnl) f h bs s
@[simp] theorem foldl_lnl {α : Type} (s : State) (l : List α) (f : State → α → State) (h : ∀ u a, (f u a).lnl = u.lnl) :
    (l.foldl f s).lnl = s.lnl := foldl_keep (fun x => x.lnl) f h l s
@[simp] theorem State.eachBay_clrPin (s : State) (bs : List BayNo) (f : State → BayNo → State) (h : ∀ u b, (f u b).clrPin = u.clrPin) :
    (s.eachBay bs f).clrPin = s.clrPin := State.eachBay_keep (fun x => x.clrPin) f h bs s
@[simp] theorem foldl_clrPin {α : Type} (s : State) (l : List α) (f : State → α → State) (h : ∀ u a, (f u a).clrPin = u.clrPin) :
    (l.foldl f s).clrPin = s.clrPin := foldl_keep (fun x => x.clrPin) f h l s
@[simp] theorem State.eachBay_rstLow (s : State) (bs : List BayNo) (f : State → BayNo → State) (h : ∀ u b, (f u b).rstLow = u.rstLow) :
    (s.eachBay bs f).rstLow = s.rstLow := State.eachBay_keep (fun x => x.rstLow) f h bs s
@[simp] theorem foldl_rstLow {α : Type} (s : State) (l : List α) (f : State → α → State) (h : ∀ u a, (f u a).rstLow = u.rstLow) :
    (l.foldl f s).rstLow = s.rstLow := foldl_keep (fun x => x.rstLow) f h l s
@[simp] theorem State.eachBay_pending (s : State) (bs : List BayNo) (f : State → BayNo → State) (h : ∀ u b, (f u b).pending = u.pending) :
    (s.eachBay bs f).pending = s.pending := State.eachBay_keep (fun x => x.pending) f h bs s
@[simp] theorem foldl_pending {α : Type} (s : State) (l : List α) (f : State → α → State) (h : ∀ u a, (f u a).pending = u.pending) :
    (l.foldl f s).pending = s.pending := foldl_keep (fun x => x.pending) f h l s
@[simp] theorem State.eachBay_img_state (s : State) (bs : List BayNo) (f : State → BayNo → State) (h : ∀ u b, (f u b).img.state = u.img.state) :
    (s.eachBay bs f).img.state = s.img.state := State.eachBay_keep (fun x => x.img.state) f h bs s
@[simp] theorem foldl_img_state {α : Type} (s : State) (l : List α) (f : State → α → State) (h : ∀ u a, (f u a).img.state = u.img.state) :
    (l.foldl f s).img.state = s.img.state := foldl_keep (fun x => x.img.state) f h l s
@[simp] theorem State.eachBay_img_boot (s : State) (bs : List BayNo) (f : State → BayNo → State) (h : ∀ u b, (f u b).img.boot = u.img.boot) :
    (s.eachBay bs f).img.boot = s.img.boot := State.eachBay_keep (fun x => x.img.boot) f h bs s
@[simp] theorem foldl_img_boot {α : Type} (s : State) (l : List α) (f : State → α → State) (h : ∀ u a, (f u a).img.boot = u.img.boot) :
    (l.foldl f s).img.boot = s.img.boot := foldl_keep (fun x => x.img.boot) f h l s
@[simp] theorem State.eachBay_img_image (s : State) (bs : List BayNo) (f : State → BayNo → State) (h : ∀ u b, (f u b).img.image = u.img.image) :
    (s.eachBay bs f).img.image = s.img.image := State.eachBay_keep (fun x => x.img.image) f h bs s
@[simp] theorem foldl_img_image {α : Type} (s : State) (l : List α) (f : State → α → State) (h : ∀ u a, (f u a).img.image = u.img.image) :
    (l.foldl f s).img.image = s.img.image := foldl_keep (fun x => x.img.image) f h l s
@[simp] theorem State.eachBay_img_quadRead (s : State) (bs : List BayNo) (f : State → BayNo → State) (h : ∀ u b, (f u b).img.quadRead = u.img.quadRead) :
    (s.eachBay bs f).img.quadRead = s.img.quadRead := State.eachBay_keep (fun x => x.img.quadRead) f h bs s
@[simp] theorem foldl_img_quadRead {α : Type} (s : State) (l : List α) (f : State → α → State) (h : ∀ u a, (f u a).img.quadRead = u.img.quadRead) :
    (l.foldl f s).img.quadRead = s.img.quadRead := foldl_keep (fun x => x.img.quadRead) f h l s
@[simp] theorem State.eachBay_img_profile (s : State) (bs : List BayNo) (f : State → BayNo → State) (h : ∀ u b, (f u b).img.profile = u.img.profile) :
    (s.eachBay bs f).img.profile = s.img.profile := State.eachBay_keep (fun x => x.img.profile) f h bs s
@[simp] theorem foldl_img_profile {α : Type} (s : State) (l : List α) (f : State → α → State) (h : ∀ u a, (f u a).img.profile = u.img.profile) :
    (l.foldl f s).img.profile = s.img.profile := foldl_keep (fun x => x.img.profile) f h l s
@[simp] theorem State.eachBay_img_pins (s : State) (bs : List BayNo) (f : State → BayNo → State) (h : ∀ u b, (f u b).img.pins = u.img.pins) :
    (s.eachBay bs f).img.pins = s.img.pins := State.eachBay_keep (fun x => x.img.pins) f h bs s
@[simp] theorem foldl_img_pins {α : Type} (s : State) (l : List α) (f : State → α → State) (h : ∀ u a, (f u a).img.pins = u.img.pins) :
    (l.foldl f s).img.pins = s.img.pins := foldl_keep (fun x => x.img.pins) f h l s
@[simp] theorem State.eachBay_img_absentTold (s : State) (bs : List BayNo) (f : State → BayNo → State) (h : ∀ u b, (f u b).img.absentTold = u.img.absentTold) :
    (s.eachBay bs f).img.absentTold = s.img.absentTold := State.eachBay_keep (fun x => x.img.absentTold) f h bs s
@[simp] theorem foldl_img_absentTold {α : Type} (s : State) (l : List α) (f : State → α → State) (h : ∀ u a, (f u a).img.absentTold = u.img.absentTold) :
    (l.foldl f s).img.absentTold = s.img.absentTold := foldl_keep (fun x => x.img.absentTold) f h l s
@[simp] theorem State.eachBay_img_pinsTaken (s : State) (bs : List BayNo) (f : State → BayNo → State) (h : ∀ u b, (f u b).img.pinsTaken = u.img.pinsTaken) :
    (s.eachBay bs f).img.pinsTaken = s.img.pinsTaken := State.eachBay_keep (fun x => x.img.pinsTaken) f h bs s
@[simp] theorem foldl_img_pinsTaken {α : Type} (s : State) (l : List α) (f : State → α → State) (h : ∀ u a, (f u a).img.pinsTaken = u.img.pinsTaken) :
    (l.foldl f s).img.pinsTaken = s.img.pinsTaken := foldl_keep (fun x => x.img.pinsTaken) f h l s
@[simp] theorem State.eachBay_img_restartReq (s : State) (bs : List BayNo) (f : State → BayNo → State) (h : ∀ u b, (f u b).img.restartReq = u.img.restartReq) :
    (s.eachBay bs f).img.restartReq = s.img.restartReq := State.eachBay_keep (fun x => x.img.restartReq) f h bs s
@[simp] theorem foldl_img_restartReq {α : Type} (s : State) (l : List α) (f : State → α → State) (h : ∀ u a, (f u a).img.restartReq = u.img.restartReq) :
    (l.foldl f s).img.restartReq = s.img.restartReq := foldl_keep (fun x => x.img.restartReq) f h l s
@[simp] theorem State.eachBay_img_ignored (s : State) (bs : List BayNo) (f : State → BayNo → State) (h : ∀ u b, (f u b).img.ignored = u.img.ignored) :
    (s.eachBay bs f).img.ignored = s.img.ignored := State.eachBay_keep (fun x => x.img.ignored) f h bs s
@[simp] theorem foldl_img_ignored {α : Type} (s : State) (l : List α) (f : State → α → State) (h : ∀ u a, (f u a).img.ignored = u.img.ignored) :
    (l.foldl f s).img.ignored = s.img.ignored := foldl_keep (fun x => x.img.ignored) f h l s
@[simp] theorem State.eachBay_img_refusal (s : State) (bs : List BayNo) (f : State → BayNo → State) (h : ∀ u b, (f u b).img.refusal = u.img.refusal) :
    (s.eachBay bs f).img.refusal = s.img.refusal := State.eachBay_keep (fun x => x.img.refusal) f h bs s
@[simp] theorem foldl_img_refusal {α : Type} (s : State) (l : List α) (f : State → α → State) (h : ∀ u a, (f u a).img.refusal = u.img.refusal) :
    (l.foldl f s).img.refusal = s.img.refusal := foldl_keep (fun x => x.img.refusal) f h l s
@[simp] theorem State.eachBay_img_cmd (s : State) (bs : List BayNo) (f : State → BayNo → State) (h : ∀ u b, (f u b).img.cmd = u.img.cmd) :
    (s.eachBay bs f).img.cmd = s.img.cmd := State.eachBay_keep (fun x => x.img.cmd) f h bs s
@[simp] theorem foldl_img_cmd {α : Type} (s : State) (l : List α) (f : State → α → State) (h : ∀ u a, (f u a).img.cmd = u.img.cmd) :
    (l.foldl f s).img.cmd = s.img.cmd := foldl_keep (fun x => x.img.cmd) f h l s
@[simp] theorem State.eachBay_img_buffering (s : State) (bs : List BayNo) (f : State → BayNo → State) (h : ∀ u b, (f u b).img.buffering = u.img.buffering) :
    (s.eachBay bs f).img.buffering = s.img.buffering := State.eachBay_keep (fun x => x.img.buffering) f h bs s
@[simp] theorem foldl_img_buffering {α : Type} (s : State) (l : List α) (f : State → α → State) (h : ∀ u a, (f u a).img.buffering = u.img.buffering) :
    (l.foldl f s).img.buffering = s.img.buffering := foldl_keep (fun x => x.img.buffering) f h l s
@[simp] theorem State.eachBay_img_flashQueue (s : State) (bs : List BayNo) (f : State → BayNo → State) (h : ∀ u b, (f u b).img.flashQueue = u.img.flashQueue) :
    (s.eachBay bs f).img.flashQueue = s.img.flashQueue := State.eachBay_keep (fun x => x.img.flashQueue) f h bs s
@[simp] theorem foldl_img_flashQueue {α : Type} (s : State) (l : List α) (f : State → α → State) (h : ∀ u a, (f u a).img.flashQueue = u.img.flashQueue) :
    (l.foldl f s).img.flashQueue = s.img.flashQueue := foldl_keep (fun x => x.img.flashQueue) f h l s
@[simp] theorem State.eachBay_img_waiting (s : State) (bs : List BayNo) (f : State → BayNo → State) (h : ∀ u b, (f u b).img.waiting = u.img.waiting) :
    (s.eachBay bs f).img.waiting = s.img.waiting := State.eachBay_keep (fun x => x.img.waiting) f h bs s
@[simp] theorem foldl_img_waiting {α : Type} (s : State) (l : List α) (f : State → α → State) (h : ∀ u a, (f u a).img.waiting = u.img.waiting) :
    (l.foldl f s).img.waiting = s.img.waiting := foldl_keep (fun x => x.img.waiting) f h l s
@[simp] theorem State.eachBay_keeper_fuses (s : State) (bs : List BayNo) (f : State → BayNo → State) (h : ∀ u b, (f u b).keeper.fuses = u.keeper.fuses) :
    (s.eachBay bs f).keeper.fuses = s.keeper.fuses := State.eachBay_keep (fun x => x.keeper.fuses) f h bs s
@[simp] theorem foldl_keeper_fuses {α : Type} (s : State) (l : List α) (f : State → α → State) (h : ∀ u a, (f u a).keeper.fuses = u.keeper.fuses) :
    (l.foldl f s).keeper.fuses = s.keeper.fuses := foldl_keep (fun x => x.keeper.fuses) f h l s
@[simp] theorem State.eachBay_keeper_island (s : State) (bs : List BayNo) (f : State → BayNo → State) (h : ∀ u b, (f u b).keeper.island = u.keeper.island) :
    (s.eachBay bs f).keeper.island = s.keeper.island := State.eachBay_keep (fun x => x.keeper.island) f h bs s
@[simp] theorem foldl_keeper_island {α : Type} (s : State) (l : List α) (f : State → α → State) (h : ∀ u a, (f u a).keeper.island = u.keeper.island) :
    (l.foldl f s).keeper.island = s.keeper.island := foldl_keep (fun x => x.keeper.island) f h l s
@[simp] theorem State.eachBay_keeper_reserved (s : State) (bs : List BayNo) (f : State → BayNo → State) (h : ∀ u b, (f u b).keeper.reserved = u.keeper.reserved) :
    (s.eachBay bs f).keeper.reserved = s.keeper.reserved := State.eachBay_keep (fun x => x.keeper.reserved) f h bs s
@[simp] theorem foldl_keeper_reserved {α : Type} (s : State) (l : List α) (f : State → α → State) (h : ∀ u a, (f u a).keeper.reserved = u.keeper.reserved) :
    (l.foldl f s).keeper.reserved = s.keeper.reserved := foldl_keep (fun x => x.keeper.reserved) f h l s
@[simp] theorem State.eachBay_keeper_rowPending (s : State) (bs : List BayNo) (f : State → BayNo → State) (h : ∀ u b, (f u b).keeper.rowPending = u.keeper.rowPending) :
    (s.eachBay bs f).keeper.rowPending = s.keeper.rowPending := State.eachBay_keep (fun x => x.keeper.rowPending) f h bs s
@[simp] theorem foldl_keeper_rowPending {α : Type} (s : State) (l : List α) (f : State → α → State) (h : ∀ u a, (f u a).keeper.rowPending = u.keeper.rowPending) :
    (l.foldl f s).keeper.rowPending = s.keeper.rowPending := foldl_keep (fun x => x.keeper.rowPending) f h l s
@[simp] theorem State.eachBay_keeper_logFirst (s : State) (bs : List BayNo) (f : State → BayNo → State) (h : ∀ u b, (f u b).keeper.logFirst = u.keeper.logFirst) :
    (s.eachBay bs f).keeper.logFirst = s.keeper.logFirst := State.eachBay_keep (fun x => x.keeper.logFirst) f h bs s
@[simp] theorem foldl_keeper_logFirst {α : Type} (s : State) (l : List α) (f : State → α → State) (h : ∀ u a, (f u a).keeper.logFirst = u.keeper.logFirst) :
    (l.foldl f s).keeper.logFirst = s.keeper.logFirst := foldl_keep (fun x => x.keeper.logFirst) f h l s
@[simp] theorem State.eachBay_keeper_logCount (s : State) (bs : List BayNo) (f : State → BayNo → State) (h : ∀ u b, (f u b).keeper.logCount = u.keeper.logCount) :
    (s.eachBay bs f).keeper.logCount = s.keeper.logCount := State.eachBay_keep (fun x => x.keeper.logCount) f h bs s
@[simp] theorem foldl_keeper_logCount {α : Type} (s : State) (l : List α) (f : State → α → State) (h : ∀ u a, (f u a).keeper.logCount = u.keeper.logCount) :
    (l.foldl f s).keeper.logCount = s.keeper.logCount := foldl_keep (fun x => x.keeper.logCount) f h l s
@[simp] theorem State.eachBay_keeper_logPrior (s : State) (bs : List BayNo) (f : State → BayNo → State) (h : ∀ u b, (f u b).keeper.logPrior = u.keeper.logPrior) :
    (s.eachBay bs f).keeper.logPrior = s.keeper.logPrior := State.eachBay_keep (fun x => x.keeper.logPrior) f h bs s
@[simp] theorem foldl_keeper_logPrior {α : Type} (s : State) (l : List α) (f : State → α → State) (h : ∀ u a, (f u a).keeper.logPrior = u.keeper.logPrior) :
    (l.foldl f s).keeper.logPrior = s.keeper.logPrior := foldl_keep (fun x => x.keeper.logPrior) f h l s
@[simp] theorem State.eachBay_keeper_logArchives (s : State) (bs : List BayNo) (f : State → BayNo → State) (h : ∀ u b, (f u b).keeper.logArchives = u.keeper.logArchives) :
    (s.eachBay bs f).keeper.logArchives = s.keeper.logArchives := State.eachBay_keep (fun x => x.keeper.logArchives) f h bs s
@[simp] theorem foldl_keeper_logArchives {α : Type} (s : State) (l : List α) (f : State → α → State) (h : ∀ u a, (f u a).keeper.logArchives = u.keeper.logArchives) :
    (l.foldl f s).keeper.logArchives = s.keeper.logArchives := foldl_keep (fun x => x.keeper.logArchives) f h l s
@[simp] theorem State.eachBay_keeper_fullTold (s : State) (bs : List BayNo) (f : State → BayNo → State) (h : ∀ u b, (f u b).keeper.fullTold = u.keeper.fullTold) :
    (s.eachBay bs f).keeper.fullTold = s.keeper.fullTold := State.eachBay_keep (fun x => x.keeper.fullTold) f h bs s
@[simp] theorem foldl_keeper_fullTold {α : Type} (s : State) (l : List α) (f : State → α → State) (h : ∀ u a, (f u a).keeper.fullTold = u.keeper.fullTold) :
    (l.foldl f s).keeper.fullTold = s.keeper.fullTold := foldl_keep (fun x => x.keeper.fullTold) f h l s
@[simp] theorem State.eachBay_keeper_broken (s : State) (bs : List BayNo) (f : State → BayNo → State) (h : ∀ u b, (f u b).keeper.broken = u.keeper.broken) :
    (s.eachBay bs f).keeper.broken = s.keeper.broken := State.eachBay_keep (fun x => x.keeper.broken) f h bs s
@[simp] theorem foldl_keeper_broken {α : Type} (s : State) (l : List α) (f : State → α → State) (h : ∀ u a, (f u a).keeper.broken = u.keeper.broken) :
    (l.foldl f s).keeper.broken = s.keeper.broken := foldl_keep (fun x => x.keeper.broken) f h l s
@[simp] theorem State.eachBay_keeper_verifyDone (s : State) (bs : List BayNo) (f : State → BayNo → State) (h : ∀ u b, (f u b).keeper.verifyDone = u.keeper.verifyDone) :
    (s.eachBay bs f).keeper.verifyDone = s.keeper.verifyDone := State.eachBay_keep (fun x => x.keeper.verifyDone) f h bs s
@[simp] theorem foldl_keeper_verifyDone {α : Type} (s : State) (l : List α) (f : State → α → State) (h : ∀ u a, (f u a).keeper.verifyDone = u.keeper.verifyDone) :
    (l.foldl f s).keeper.verifyDone = s.keeper.verifyDone := foldl_keep (fun x => x.keeper.verifyDone) f h l s
@[simp] theorem State.eachBay_keeper_verifyResult (s : State) (bs : List BayNo) (f : State → BayNo → State) (h : ∀ u b, (f u b).keeper.verifyResult = u.keeper.verifyResult) :
    (s.eachBay bs f).keeper.verifyResult = s.keeper.verifyResult := State.eachBay_keep (fun x => x.keeper.verifyResult) f h bs s
@[simp] theorem foldl_keeper_verifyResult {α : Type} (s : State) (l : List α) (f : State → α → State) (h : ∀ u a, (f u a).keeper.verifyResult = u.keeper.verifyResult) :
    (l.foldl f s).keeper.verifyResult = s.keeper.verifyResult := foldl_keep (fun x => x.keeper.verifyResult) f h l s
@[simp] theorem State.eachBay_keeper_verifyFirst (s : State) (bs : List BayNo) (f : State → BayNo → State) (h : ∀ u b, (f u b).keeper.verifyFirst = u.keeper.verifyFirst) :
    (s.eachBay bs f).keeper.verifyFirst = s.keeper.verifyFirst := State.eachBay_keep (fun x => x.keeper.verifyFirst) f h bs s
@[simp] theorem foldl_keeper_verifyFirst {α : Type} (s : State) (l : List α) (f : State → α → State) (h : ∀ u a, (f u a).keeper.verifyFirst = u.keeper.verifyFirst) :
    (l.foldl f s).keeper.verifyFirst = s.keeper.verifyFirst := foldl_keep (fun x => x.keeper.verifyFirst) f h l s
@[simp] theorem State.eachBay_keeper_verifying (s : State) (bs : List BayNo) (f : State → BayNo → State) (h : ∀ u b, (f u b).keeper.verifying = u.keeper.verifying) :
    (s.eachBay bs f).keeper.verifying = s.keeper.verifying := State.eachBay_keep (fun x => x.keeper.verifying) f h bs s
@[simp] theorem foldl_keeper_verifying {α : Type} (s : State) (l : List α) (f : State → α → State) (h : ∀ u a, (f u a).keeper.verifying = u.keeper.verifying) :
    (l.foldl f s).keeper.verifying = s.keeper.verifying := foldl_keep (fun x => x.keeper.verifying) f h l s
@[simp] theorem State.eachBay_keeper_box (s : State) (bs : List BayNo) (f : State → BayNo → State) (h : ∀ u b, (f u b).keeper.box = u.keeper.box) :
    (s.eachBay bs f).keeper.box = s.keeper.box := State.eachBay_keep (fun x => x.keeper.box) f h bs s
@[simp] theorem foldl_keeper_box {α : Type} (s : State) (l : List α) (f : State → α → State) (h : ∀ u a, (f u a).keeper.box = u.keeper.box) :
    (l.foldl f s).keeper.box = s.keeper.box := foldl_keep (fun x => x.keeper.box) f h l s
@[simp] theorem State.eachBay_keeper_logSel (s : State) (bs : List BayNo) (f : State → BayNo → State) (h : ∀ u b, (f u b).keeper.logSel = u.keeper.logSel) :
    (s.eachBay bs f).keeper.logSel = s.keeper.logSel := State.eachBay_keep (fun x => x.keeper.logSel) f h bs s
@[simp] theorem foldl_keeper_logSel {α : Type} (s : State) (l : List α) (f : State → α → State) (h : ∀ u a, (f u a).keeper.logSel = u.keeper.logSel) :
    (l.foldl f s).keeper.logSel = s.keeper.logSel := foldl_keep (fun x => x.keeper.logSel) f h l s
@[simp] theorem State.eachBay_eth_neighbours (s : State) (bs : List BayNo) (f : State → BayNo → State) (h : ∀ u b, (f u b).eth.neighbours = u.eth.neighbours) :
    (s.eachBay bs f).eth.neighbours = s.eth.neighbours := State.eachBay_keep (fun x => x.eth.neighbours) f h bs s
@[simp] theorem foldl_eth_neighbours {α : Type} (s : State) (l : List α) (f : State → α → State) (h : ∀ u a, (f u a).eth.neighbours = u.eth.neighbours) :
    (l.foldl f s).eth.neighbours = s.eth.neighbours := foldl_keep (fun x => x.eth.neighbours) f h l s
@[simp] theorem State.eachBay_eth_ptpState (s : State) (bs : List BayNo) (f : State → BayNo → State) (h : ∀ u b, (f u b).eth.ptpState = u.eth.ptpState) :
    (s.eachBay bs f).eth.ptpState = s.eth.ptpState := State.eachBay_keep (fun x => x.eth.ptpState) f h bs s
@[simp] theorem foldl_eth_ptpState {α : Type} (s : State) (l : List α) (f : State → α → State) (h : ∀ u a, (f u a).eth.ptpState = u.eth.ptpState) :
    (l.foldl f s).eth.ptpState = s.eth.ptpState := foldl_keep (fun x => x.eth.ptpState) f h l s
@[simp] theorem State.eachBay_eth_ptpSource (s : State) (bs : List BayNo) (f : State → BayNo → State) (h : ∀ u b, (f u b).eth.ptpSource = u.eth.ptpSource) :
    (s.eachBay bs f).eth.ptpSource = s.eth.ptpSource := State.eachBay_keep (fun x => x.eth.ptpSource) f h bs s
@[simp] theorem foldl_eth_ptpSource {α : Type} (s : State) (l : List α) (f : State → α → State) (h : ∀ u a, (f u a).eth.ptpSource = u.eth.ptpSource) :
    (l.foldl f s).eth.ptpSource = s.eth.ptpSource := foldl_keep (fun x => x.eth.ptpSource) f h l s
@[simp] theorem State.eachBay_inj_killed (s : State) (bs : List BayNo) (f : State → BayNo → State) (h : ∀ u b, (f u b).inj.killed = u.inj.killed) :
    (s.eachBay bs f).inj.killed = s.inj.killed := State.eachBay_keep (fun x => x.inj.killed) f h bs s
@[simp] theorem foldl_inj_killed {α : Type} (s : State) (l : List α) (f : State → α → State) (h : ∀ u a, (f u a).inj.killed = u.inj.killed) :
    (l.foldl f s).inj.killed = s.inj.killed := foldl_keep (fun x => x.inj.killed) f h l s
@[simp] theorem State.eachBay_bay_lost (s : State) (bs : List BayNo) (f : State → BayNo → State) (c : BayNo) (h : ∀ u b, ((f u b).bay c).lost = (u.bay c).lost) :
    ((s.eachBay bs f).bay c).lost = (s.bay c).lost := State.eachBay_keep (fun x => (x.bay c).lost) f h bs s
@[simp] theorem foldl_bay_lost {α : Type} (s : State) (l : List α) (f : State → α → State) (c : BayNo) (h : ∀ u a, ((f u a).bay c).lost = (u.bay c).lost) :
    ((l.foldl f s).bay c).lost = (s.bay c).lost := foldl_keep (fun x => (x.bay c).lost) f h l s
@[simp] theorem State.eachBay_bay_clk (s : State) (bs : List BayNo) (f : State → BayNo → State) (c : BayNo) (h : ∀ u b, ((f u b).bay c).clk = (u.bay c).clk) :
    ((s.eachBay bs f).bay c).clk = (s.bay c).clk := State.eachBay_keep (fun x => (x.bay c).clk) f h bs s
@[simp] theorem foldl_bay_clk {α : Type} (s : State) (l : List α) (f : State → α → State) (c : BayNo) (h : ∀ u a, ((f u a).bay c).clk = (u.bay c).clk) :
    ((l.foldl f s).bay c).clk = (s.bay c).clk := foldl_keep (fun x => (x.bay c).clk) f h l s
@[simp] theorem State.eachBay_bay_tbs (s : State) (bs : List BayNo) (f : State → BayNo → State) (c : BayNo) (h : ∀ u b, ((f u b).bay c).tbs = (u.bay c).tbs) :
    ((s.eachBay bs f).bay c).tbs = (s.bay c).tbs := State.eachBay_keep (fun x => (x.bay c).tbs) f h bs s
@[simp] theorem foldl_bay_tbs {α : Type} (s : State) (l : List α) (f : State → α → State) (c : BayNo) (h : ∀ u a, ((f u a).bay c).tbs = (u.bay c).tbs) :
    ((l.foldl f s).bay c).tbs = (s.bay c).tbs := foldl_keep (fun x => (x.bay c).tbs) f h l s
@[simp] theorem State.eachBay_bay_dma (s : State) (bs : List BayNo) (f : State → BayNo → State) (c : BayNo) (h : ∀ u b, ((f u b).bay c).dma = (u.bay c).dma) :
    ((s.eachBay bs f).bay c).dma = (s.bay c).dma := State.eachBay_keep (fun x => (x.bay c).dma) f h bs s
@[simp] theorem foldl_bay_dma {α : Type} (s : State) (l : List α) (f : State → α → State) (c : BayNo) (h : ∀ u a, ((f u a).bay c).dma = (u.bay c).dma) :
    ((l.foldl f s).bay c).dma = (s.bay c).dma := foldl_keep (fun x => (x.bay c).dma) f h l s
@[simp] theorem State.eachBay_bay_pwr (s : State) (bs : List BayNo) (f : State → BayNo → State) (c : BayNo) (h : ∀ u b, ((f u b).bay c).pwr = (u.bay c).pwr) :
    ((s.eachBay bs f).bay c).pwr = (s.bay c).pwr := State.eachBay_keep (fun x => (x.bay c).pwr) f h bs s
@[simp] theorem foldl_bay_pwr {α : Type} (s : State) (l : List α) (f : State → α → State) (c : BayNo) (h : ∀ u a, ((f u a).bay c).pwr = (u.bay c).pwr) :
    ((l.foldl f s).bay c).pwr = (s.bay c).pwr := foldl_keep (fun x => (x.bay c).pwr) f h l s
@[simp] theorem State.eachBay_bay_trg (s : State) (bs : List BayNo) (f : State → BayNo → State) (c : BayNo) (h : ∀ u b, ((f u b).bay c).trg = (u.bay c).trg) :
    ((s.eachBay bs f).bay c).trg = (s.bay c).trg := State.eachBay_keep (fun x => (x.bay c).trg) f h bs s
@[simp] theorem foldl_bay_trg {α : Type} (s : State) (l : List α) (f : State → α → State) (c : BayNo) (h : ∀ u a, ((f u a).bay c).trg = (u.bay c).trg) :
    ((l.foldl f s).bay c).trg = (s.bay c).trg := foldl_keep (fun x => (x.bay c).trg) f h l s
@[simp] theorem State.eachBay_bay_afe (s : State) (bs : List BayNo) (f : State → BayNo → State) (c : BayNo) (h : ∀ u b, ((f u b).bay c).afe = (u.bay c).afe) :
    ((s.eachBay bs f).bay c).afe = (s.bay c).afe := State.eachBay_keep (fun x => (x.bay c).afe) f h bs s
@[simp] theorem foldl_bay_afe {α : Type} (s : State) (l : List α) (f : State → α → State) (c : BayNo) (h : ∀ u a, ((f u a).bay c).afe = (u.bay c).afe) :
    ((l.foldl f s).bay c).afe = (s.bay c).afe := foldl_keep (fun x => (x.bay c).afe) f h l s
@[simp] theorem State.eachBay_bay_adc (s : State) (bs : List BayNo) (f : State → BayNo → State) (c : BayNo) (h : ∀ u b, ((f u b).bay c).adc = (u.bay c).adc) :
    ((s.eachBay bs f).bay c).adc = (s.bay c).adc := State.eachBay_keep (fun x => (x.bay c).adc) f h bs s
@[simp] theorem foldl_bay_adc {α : Type} (s : State) (l : List α) (f : State → α → State) (c : BayNo) (h : ∀ u a, ((f u a).bay c).adc = (u.bay c).adc) :
    ((l.foldl f s).bay c).adc = (s.bay c).adc := foldl_keep (fun x => (x.bay c).adc) f h l s
@[simp] theorem State.eachBay_bay_ddc (s : State) (bs : List BayNo) (f : State → BayNo → State) (c : BayNo) (h : ∀ u b, ((f u b).bay c).ddc = (u.bay c).ddc) :
    ((s.eachBay bs f).bay c).ddc = (s.bay c).ddc := State.eachBay_keep (fun x => (x.bay c).ddc) f h bs s
@[simp] theorem foldl_bay_ddc {α : Type} (s : State) (l : List α) (f : State → α → State) (c : BayNo) (h : ∀ u a, ((f u a).bay c).ddc = (u.bay c).ddc) :
    ((l.foldl f s).bay c).ddc = (s.bay c).ddc := foldl_keep (fun x => (x.bay c).ddc) f h l s
@[simp] theorem State.eachBay_bay_xfm (s : State) (bs : List BayNo) (f : State → BayNo → State) (c : BayNo) (h : ∀ u b, ((f u b).bay c).xfm = (u.bay c).xfm) :
    ((s.eachBay bs f).bay c).xfm = (s.bay c).xfm := State.eachBay_keep (fun x => (x.bay c).xfm) f h bs s
@[simp] theorem foldl_bay_xfm {α : Type} (s : State) (l : List α) (f : State → α → State) (c : BayNo) (h : ∀ u a, ((f u a).bay c).xfm = (u.bay c).xfm) :
    ((l.foldl f s).bay c).xfm = (s.bay c).xfm := foldl_keep (fun x => (x.bay c).xfm) f h l s
@[simp] theorem State.eachBay_bay_den (s : State) (bs : List BayNo) (f : State → BayNo → State) (c : BayNo) (h : ∀ u b, ((f u b).bay c).den = (u.bay c).den) :
    ((s.eachBay bs f).bay c).den = (s.bay c).den := State.eachBay_keep (fun x => (x.bay c).den) f h bs s
@[simp] theorem foldl_bay_den {α : Type} (s : State) (l : List α) (f : State → α → State) (c : BayNo) (h : ∀ u a, ((f u a).bay c).den = (u.bay c).den) :
    ((l.foldl f s).bay c).den = (s.bay c).den := foldl_keep (fun x => (x.bay c).den) f h l s
@[simp] theorem State.eachBay_bay_mco (s : State) (bs : List BayNo) (f : State → BayNo → State) (c : BayNo) (h : ∀ u b, ((f u b).bay c).mco = (u.bay c).mco) :
    ((s.eachBay bs f).bay c).mco = (s.bay c).mco := State.eachBay_keep (fun x => (x.bay c).mco) f h bs s
@[simp] theorem foldl_bay_mco {α : Type} (s : State) (l : List α) (f : State → α → State) (c : BayNo) (h : ∀ u a, ((f u a).bay c).mco = (u.bay c).mco) :
    ((l.foldl f s).bay c).mco = (s.bay c).mco := foldl_keep (fun x => (x.bay c).mco) f h l s
@[simp] theorem State.eachBay_bay_scn (s : State) (bs : List BayNo) (f : State → BayNo → State) (c : BayNo) (h : ∀ u b, ((f u b).bay c).scn = (u.bay c).scn) :
    ((s.eachBay bs f).bay c).scn = (s.bay c).scn := State.eachBay_keep (fun x => (x.bay c).scn) f h bs s
@[simp] theorem foldl_bay_scn {α : Type} (s : State) (l : List α) (f : State → α → State) (c : BayNo) (h : ∀ u a, ((f u a).bay c).scn = (u.bay c).scn) :
    ((l.foldl f s).bay c).scn = (s.bay c).scn := foldl_keep (fun x => (x.bay c).scn) f h l s
@[simp] theorem State.eachBay_bay_recorder (s : State) (bs : List BayNo) (f : State → BayNo → State) (c : BayNo) (h : ∀ u b, ((f u b).bay c).recorder = (u.bay c).recorder) :
    ((s.eachBay bs f).bay c).recorder = (s.bay c).recorder := State.eachBay_keep (fun x => (x.bay c).recorder) f h bs s
@[simp] theorem foldl_bay_recorder {α : Type} (s : State) (l : List α) (f : State → α → State) (c : BayNo) (h : ∀ u a, ((f u a).bay c).recorder = (u.bay c).recorder) :
    ((l.foldl f s).bay c).recorder = (s.bay c).recorder := foldl_keep (fun x => (x.bay c).recorder) f h l s
@[simp] theorem State.eachBay_bay_lne (s : State) (bs : List BayNo) (f : State → BayNo → State) (c : BayNo) (h : ∀ u b, ((f u b).bay c).lne = (u.bay c).lne) :
    ((s.eachBay bs f).bay c).lne = (s.bay c).lne := State.eachBay_keep (fun x => (x.bay c).lne) f h bs s
@[simp] theorem foldl_bay_lne {α : Type} (s : State) (l : List α) (f : State → α → State) (c : BayNo) (h : ∀ u a, ((f u a).bay c).lne = (u.bay c).lne) :
    ((l.foldl f s).bay c).lne = (s.bay c).lne := foldl_keep (fun x => (x.bay c).lne) f h l s
@[simp] theorem State.eachBay_bay_pci (s : State) (bs : List BayNo) (f : State → BayNo → State) (c : BayNo) (h : ∀ u b, ((f u b).bay c).pci = (u.bay c).pci) :
    ((s.eachBay bs f).bay c).pci = (s.bay c).pci := State.eachBay_keep (fun x => (x.bay c).pci) f h bs s
@[simp] theorem foldl_bay_pci {α : Type} (s : State) (l : List α) (f : State → α → State) (c : BayNo) (h : ∀ u a, ((f u a).bay c).pci = (u.bay c).pci) :
    ((l.foldl f s).bay c).pci = (s.bay c).pci := foldl_keep (fun x => (x.bay c).pci) f h l s
@[simp] theorem State.eachBay_bay_eth (s : State) (bs : List BayNo) (f : State → BayNo → State) (c : BayNo) (h : ∀ u b, ((f u b).bay c).eth = (u.bay c).eth) :
    ((s.eachBay bs f).bay c).eth = (s.bay c).eth := State.eachBay_keep (fun x => (x.bay c).eth) f h bs s
@[simp] theorem foldl_bay_eth {α : Type} (s : State) (l : List α) (f : State → α → State) (c : BayNo) (h : ∀ u a, ((f u a).bay c).eth = (u.bay c).eth) :
    ((l.foldl f s).bay c).eth = (s.bay c).eth := foldl_keep (fun x => (x.bay c).eth) f h l s
@[simp] theorem State.eachBay_bay_jes (s : State) (bs : List BayNo) (f : State → BayNo → State) (c : BayNo) (h : ∀ u b, ((f u b).bay c).jes = (u.bay c).jes) :
    ((s.eachBay bs f).bay c).jes = (s.bay c).jes := State.eachBay_keep (fun x => (x.bay c).jes) f h bs s
@[simp] theorem foldl_bay_jes {α : Type} (s : State) (l : List α) (f : State → α → State) (c : BayNo) (h : ∀ u a, ((f u a).bay c).jes = (u.bay c).jes) :
    ((l.foldl f s).bay c).jes = (s.bay c).jes := foldl_keep (fun x => (x.bay c).jes) f h l s
@[simp] theorem State.eachBay_bay_cal (s : State) (bs : List BayNo) (f : State → BayNo → State) (c : BayNo) (h : ∀ u b, ((f u b).bay c).cal = (u.bay c).cal) :
    ((s.eachBay bs f).bay c).cal = (s.bay c).cal := State.eachBay_keep (fun x => (x.bay c).cal) f h bs s
@[simp] theorem foldl_bay_cal {α : Type} (s : State) (l : List α) (f : State → α → State) (c : BayNo) (h : ∀ u a, ((f u a).bay c).cal = (u.bay c).cal) :
    ((l.foldl f s).bay c).cal = (s.bay c).cal := foldl_keep (fun x => (x.bay c).cal) f h l s
@[simp] theorem State.eachBay_bay_hkc (s : State) (bs : List BayNo) (f : State → BayNo → State) (c : BayNo) (h : ∀ u b, ((f u b).bay c).hkc = (u.bay c).hkc) :
    ((s.eachBay bs f).bay c).hkc = (s.bay c).hkc := State.eachBay_keep (fun x => (x.bay c).hkc) f h bs s
@[simp] theorem foldl_bay_hkc {α : Type} (s : State) (l : List α) (f : State → α → State) (c : BayNo) (h : ∀ u a, ((f u a).bay c).hkc = (u.bay c).hkc) :
    ((l.foldl f s).bay c).hkc = (s.bay c).hkc := foldl_keep (fun x => (x.bay c).hkc) f h l s
@[simp] theorem State.eachBay_bay_aux (s : State) (bs : List BayNo) (f : State → BayNo → State) (c : BayNo) (h : ∀ u b, ((f u b).bay c).aux = (u.bay c).aux) :
    ((s.eachBay bs f).bay c).aux = (s.bay c).aux := State.eachBay_keep (fun x => (x.bay c).aux) f h bs s
@[simp] theorem foldl_bay_aux {α : Type} (s : State) (l : List α) (f : State → α → State) (c : BayNo) (h : ∀ u a, ((f u a).bay c).aux = (u.bay c).aux) :
    ((l.foldl f s).bay c).aux = (s.bay c).aux := foldl_keep (fun x => (x.bay c).aux) f h l s
@[simp] theorem State.eachBay_bay_mon (s : State) (bs : List BayNo) (f : State → BayNo → State) (c : BayNo) (h : ∀ u b, ((f u b).bay c).mon = (u.bay c).mon) :
    ((s.eachBay bs f).bay c).mon = (s.bay c).mon := State.eachBay_keep (fun x => (x.bay c).mon) f h bs s
@[simp] theorem foldl_bay_mon {α : Type} (s : State) (l : List α) (f : State → α → State) (c : BayNo) (h : ∀ u a, ((f u a).bay c).mon = (u.bay c).mon) :
    ((l.foldl f s).bay c).mon = (s.bay c).mon := foldl_keep (fun x => (x.bay c).mon) f h l s
@[simp] theorem State.eachBay_bay_jtag (s : State) (bs : List BayNo) (f : State → BayNo → State) (c : BayNo) (h : ∀ u b, ((f u b).bay c).jtag = (u.bay c).jtag) :
    ((s.eachBay bs f).bay c).jtag = (s.bay c).jtag := State.eachBay_keep (fun x => (x.bay c).jtag) f h bs s
@[simp] theorem foldl_bay_jtag {α : Type} (s : State) (l : List α) (f : State → α → State) (c : BayNo) (h : ∀ u a, ((f u a).bay c).jtag = (u.bay c).jtag) :
    ((l.foldl f s).bay c).jtag = (s.bay c).jtag := foldl_keep (fun x => (x.bay c).jtag) f h l s
@[simp] theorem State.eachBay_bay_lnl_ports (s : State) (bs : List BayNo) (f : State → BayNo → State) (c : BayNo) (h : ∀ u b, ((f u b).bay c).lnl.ports = (u.bay c).lnl.ports) :
    ((s.eachBay bs f).bay c).lnl.ports = (s.bay c).lnl.ports := State.eachBay_keep (fun x => (x.bay c).lnl.ports) f h bs s
@[simp] theorem foldl_bay_lnl_ports {α : Type} (s : State) (l : List α) (f : State → α → State) (c : BayNo) (h : ∀ u a, ((f u a).bay c).lnl.ports = (u.bay c).lnl.ports) :
    ((l.foldl f s).bay c).lnl.ports = (s.bay c).lnl.ports := foldl_keep (fun x => (x.bay c).lnl.ports) f h l s
@[simp] theorem State.eachBay_bay_lnl_routes (s : State) (bs : List BayNo) (f : State → BayNo → State) (c : BayNo) (h : ∀ u b, ((f u b).bay c).lnl.routes = (u.bay c).lnl.routes) :
    ((s.eachBay bs f).bay c).lnl.routes = (s.bay c).lnl.routes := State.eachBay_keep (fun x => (x.bay c).lnl.routes) f h bs s
@[simp] theorem foldl_bay_lnl_routes {α : Type} (s : State) (l : List α) (f : State → α → State) (c : BayNo) (h : ∀ u a, ((f u a).bay c).lnl.routes = (u.bay c).lnl.routes) :
    ((l.foldl f s).bay c).lnl.routes = (s.bay c).lnl.routes := foldl_keep (fun x => (x.bay c).lnl.routes) f h l s
@[simp] theorem State.eachBay_bay_lnl_updateDue (s : State) (bs : List BayNo) (f : State → BayNo → State) (c : BayNo) (h : ∀ u b, ((f u b).bay c).lnl.updateDue = (u.bay c).lnl.updateDue) :
    ((s.eachBay bs f).bay c).lnl.updateDue = (s.bay c).lnl.updateDue := State.eachBay_keep (fun x => (x.bay c).lnl.updateDue) f h bs s
@[simp] theorem foldl_bay_lnl_updateDue {α : Type} (s : State) (l : List α) (f : State → α → State) (c : BayNo) (h : ∀ u a, ((f u a).bay c).lnl.updateDue = (u.bay c).lnl.updateDue) :
    ((l.foldl f s).bay c).lnl.updateDue = (s.bay c).lnl.updateDue := foldl_keep (fun x => (x.bay c).lnl.updateDue) f h l s
@[simp] theorem State.eachBay_bay_lnl_reroutes (s : State) (bs : List BayNo) (f : State → BayNo → State) (c : BayNo) (h : ∀ u b, ((f u b).bay c).lnl.reroutes = (u.bay c).lnl.reroutes) :
    ((s.eachBay bs f).bay c).lnl.reroutes = (s.bay c).lnl.reroutes := State.eachBay_keep (fun x => (x.bay c).lnl.reroutes) f h bs s
@[simp] theorem foldl_bay_lnl_reroutes {α : Type} (s : State) (l : List α) (f : State → α → State) (c : BayNo) (h : ∀ u a, ((f u a).bay c).lnl.reroutes = (u.bay c).lnl.reroutes) :
    ((l.foldl f s).bay c).lnl.reroutes = (s.bay c).lnl.reroutes := foldl_keep (fun x => (x.bay c).lnl.reroutes) f h l s
@[simp] theorem State.eachBay_bay_lnl_island (s : State) (bs : List BayNo) (f : State → BayNo → State) (c : BayNo) (h : ∀ u b, ((f u b).bay c).lnl.island = (u.bay c).lnl.island) :
    ((s.eachBay bs f).bay c).lnl.island = (s.bay c).lnl.island := State.eachBay_keep (fun x => (x.bay c).lnl.island) f h bs s
@[simp] theorem foldl_bay_lnl_island {α : Type} (s : State) (l : List α) (f : State → α → State) (c : BayNo) (h : ∀ u a, ((f u a).bay c).lnl.island = (u.bay c).lnl.island) :
    ((l.foldl f s).bay c).lnl.island = (s.bay c).lnl.island := foldl_keep (fun x => (x.bay c).lnl.island) f h l s
@[simp] theorem State.eachBay_alive (s : State) (bs : List BayNo) (f : State → BayNo → State) (c : BayNo) (h : ∀ u b, (f u b).alive c = u.alive c) :
    (s.eachBay bs f).alive c = s.alive c := State.eachBay_keep (fun x => x.alive c) f h bs s
@[simp] theorem foldl_alive {α : Type} (s : State) (l : List α) (f : State → α → State) (c : BayNo) (h : ∀ u a, (f u a).alive c = u.alive c) :
    (l.foldl f s).alive c = s.alive c := foldl_keep (fun x => x.alive c) f h l s
@[simp] theorem State.eachBay_liveBays (s : State) (bs : List BayNo) (f : State → BayNo → State) (h : ∀ u b, (f u b).liveBays = u.liveBays) :
    (s.eachBay bs f).liveBays = s.liveBays := State.eachBay_keep (fun x => x.liveBays) f h bs s
@[simp] theorem foldl_liveBays {α : Type} (s : State) (l : List α) (f : State → α → State) (h : ∀ u a, (f u a).liveBays = u.liveBays) :
    (l.foldl f s).liveBays = s.liveBays := foldl_keep (fun x => x.liveBays) f h l s
@[simp] theorem State.eachBay_nowAt (s : State) (bs : List BayNo) (f : State → BayNo → State) (c : BayNo) (h : ∀ u b, (f u b).nowAt c = u.nowAt c) :
    (s.eachBay bs f).nowAt c = s.nowAt c := State.eachBay_keep (fun x => x.nowAt c) f h bs s
@[simp] theorem foldl_nowAt {α : Type} (s : State) (l : List α) (f : State → α → State) (c : BayNo) (h : ∀ u a, (f u a).nowAt c = u.nowAt c) :
    (l.foldl f s).nowAt c = s.nowAt c := foldl_keep (fun x => x.nowAt c) f h l s
@[simp] theorem State.eachBay_now (s : State) (bs : List BayNo) (f : State → BayNo → State) (h : ∀ u b, (f u b).now = u.now) :
    (s.eachBay bs f).now = s.now := State.eachBay_keep (fun x => x.now) f h bs s
@[simp] theorem foldl_now {α : Type} (s : State) (l : List α) (f : State → α → State) (h : ∀ u a, (f u a).now = u.now) :
    (l.foldl f s).now = s.now := foldl_keep (fun x => x.now) f h l s
@[simp] theorem State.eachBay_fld (s : State) (bs : List BayNo) (f : State → BayNo → State) (g : Field) (c : BayNo) (j k : Nat) (h : ∀ u b, (f u b).vals = u.vals) :
    (s.eachBay bs f).fld g c j k = s.fld g c j k := congrArg (fun v : Vals => v.of g c.val j k) (State.eachBay_vals s bs f h)
@[simp] theorem foldl_fld {α : Type} (s : State) (l : List α) (f : State → α → State) (g : Field) (c : BayNo) (j k : Nat) (h : ∀ u b, (f u b).vals = u.vals) :
    (l.foldl f s).fld g c j k = s.fld g c j k := congrArg (fun v : Vals => v.of g c.val j k) (foldl_vals s l f h)
@[simp] theorem State.eachBay_fldN (s : State) (bs : List BayNo) (f : State → BayNo → State) (g : Field) (c : BayNo) (j k : Nat) (h : ∀ u b, (f u b).vals = u.vals) :
    (s.eachBay bs f).fldN g c j k = s.fldN g c j k := congrArg (fun v : Vals => v.nat g c.val j k) (State.eachBay_vals s bs f h)
@[simp] theorem foldl_fldN {α : Type} (s : State) (l : List α) (f : State → α → State) (g : Field) (c : BayNo) (j k : Nat) (h : ∀ u b, (f u b).vals = u.vals) :
    (l.foldl f s).fldN g c j k = s.fldN g c j k := congrArg (fun v : Vals => v.nat g c.val j k) (foldl_vals s l f h)
@[simp] theorem State.eachBay_fldB (s : State) (bs : List BayNo) (f : State → BayNo → State) (g : Field) (c : BayNo) (j : Nat) (h : ∀ u b, (f u b).vals = u.vals) :
    (s.eachBay bs f).fldB g c j = s.fldB g c j := congrArg (fun v : Vals => decide (v.of g c.val j 0 ≠ 0)) (State.eachBay_vals s bs f h)
@[simp] theorem foldl_fldB {α : Type} (s : State) (l : List α) (f : State → α → State) (g : Field) (c : BayNo) (j : Nat) (h : ∀ u b, (f u b).vals = u.vals) :
    (l.foldl f s).fldB g c j = s.fldB g c j := congrArg (fun v : Vals => decide (v.of g c.val j 0 ≠ 0)) (foldl_vals s l f h)
@[simp] theorem State.eachBay_pkgN (s : State) (bs : List BayNo) (f : State → BayNo → State) (g : Field) (j : Nat) (h : ∀ u b, (f u b).vals = u.vals) :
    (s.eachBay bs f).pkgN g j = s.pkgN g j := congrArg (fun v : Vals => v.nat g 0 j 0) (State.eachBay_vals s bs f h)
@[simp] theorem foldl_pkgN {α : Type} (s : State) (l : List α) (f : State → α → State) (g : Field) (j : Nat) (h : ∀ u b, (f u b).vals = u.vals) :
    (l.foldl f s).pkgN g j = s.pkgN g j := congrArg (fun v : Vals => v.nat g 0 j 0) (foldl_vals s l f h)
set_option Elab.async false in
/-- What it leaves besides the parts named. -/
theorem State.faultOpen_still (s : State) (f : FaultId) (since : Stamp) : ({ State.faultOpen s f since with faults := .reset } : State).still = ({ s with faults := .reset } : State).still := by
  have h : ∀ (u : State) (code : Nat) (p : List Word), ({ u.event 0 code p with faults := .reset } : State).still = ({ u with faults := .reset } : State).still :=
    fun u code p => congrArg (fun x : State => { x with faults := .reset }) (u.event_still 0 code p false)
  unfold State.faultOpen
  dsimp only
  split
  · rfl
  · exact h (s.modFaults _) _ _

@[simp] theorem State.faultOpen_part (s : State) (f : FaultId) (since : Stamp) : (State.faultOpen s f since).part = s.part := (still_part (s.faultOpen_still f since) :)
@[simp] theorem State.faultOpen_vals (s : State) (f : FaultId) (since : Stamp) : (State.faultOpen s f since).vals = s.vals := (still_vals (s.faultOpen_still f since) :)
@[simp] theorem State.faultOpen_flash (s : State) (f : FaultId) (since : Stamp) : (State.faultOpen s f since).flash = s.flash := (still_flash (s.faultOpen_still f since) :)
@[simp] theorem State.faultOpen_tbs (s : State) (f : FaultId) (since : Stamp) : (State.faultOpen s f since).tbs = s.tbs := (still_tbs (s.faultOpen_still f since) :)
@[simp] theorem State.faultOpen_sel (s : State) (f : FaultId) (since : Stamp) : (State.faultOpen s f since).sel = s.sel := (still_sel (s.faultOpen_still f since) :)
@[simp] theorem State.faultOpen_pwr (s : State) (f : FaultId) (since : Stamp) : (State.faultOpen s f since).pwr = s.pwr := (still_pwr (s.faultOpen_still f since) :)
@[simp] theorem State.faultOpen_trg (s : State) (f : FaultId) (since : Stamp) : (State.faultOpen s f since).trg = s.trg := (still_trg (s.faultOpen_still f since) :)
@[simp] theorem State.faultOpen_ident (s : State) (f : FaultId) (since : Stamp) : (State.faultOpen s f since).ident = s.ident := (still_ident (s.faultOpen_still f since) :)
@[simp] theorem State.faultOpen_lnl (s : State) (f : FaultId) (since : Stamp) : (State.faultOpen s f since).lnl = s.lnl := (still_lnl (s.faultOpen_still f since) :)
@[simp] theorem State.faultOpen_clrPin (s : State) (f : FaultId) (since : Stamp) : (State.faultOpen s f since).clrPin = s.clrPin := (still_clrPin (s.faultOpen_still f since) :)
@[simp] theorem State.faultOpen_rstLow (s : State) (f : FaultId) (since : Stamp) : (State.faultOpen s f since).rstLow = s.rstLow := (still_rstLow (s.faultOpen_still f since) :)
@[simp] theorem State.faultOpen_pending (s : State) (f : FaultId) (since : Stamp) : (State.faultOpen s f since).pending = s.pending := (still_pending (s.faultOpen_still f since) :)
@[simp] theorem State.faultOpen_img_state (s : State) (f : FaultId) (since : Stamp) : (State.faultOpen s f since).img.state = s.img.state := (still_img_state (s.faultOpen_still f since) :)
@[simp] theorem State.faultOpen_img_boot (s : State) (f : FaultId) (since : Stamp) : (State.faultOpen s f since).img.boot = s.img.boot := (still_img_boot (s.faultOpen_still f since) :)
@[simp] theorem State.faultOpen_img_image (s : State) (f : FaultId) (since : Stamp) : (State.faultOpen s f since).img.image = s.img.image := (still_img_image (s.faultOpen_still f since) :)
@[simp] theorem State.faultOpen_img_quadRead (s : State) (f : FaultId) (since : Stamp) : (State.faultOpen s f since).img.quadRead = s.img.quadRead := (still_img_quadRead (s.faultOpen_still f since) :)
@[simp] theorem State.faultOpen_img_profile (s : State) (f : FaultId) (since : Stamp) : (State.faultOpen s f since).img.profile = s.img.profile := (still_img_profile (s.faultOpen_still f since) :)
@[simp] theorem State.faultOpen_img_pins (s : State) (f : FaultId) (since : Stamp) : (State.faultOpen s f since).img.pins = s.img.pins := (still_img_pins (s.faultOpen_still f since) :)
@[simp] theorem State.faultOpen_img_absentTold (s : State) (f : FaultId) (since : Stamp) : (State.faultOpen s f since).img.absentTold = s.img.absentTold := (still_img_absentTold (s.faultOpen_still f since) :)
@[simp] theorem State.faultOpen_img_pinsTaken (s : State) (f : FaultId) (since : Stamp) : (State.faultOpen s f since).img.pinsTaken = s.img.pinsTaken := (still_img_pinsTaken (s.faultOpen_still f since) :)
@[simp] theorem State.faultOpen_img_restartReq (s : State) (f : FaultId) (since : Stamp) : (State.faultOpen s f since).img.restartReq = s.img.restartReq := (still_img_restartReq (s.faultOpen_still f since) :)
@[simp] theorem State.faultOpen_img_ignored (s : State) (f : FaultId) (since : Stamp) : (State.faultOpen s f since).img.ignored = s.img.ignored := (still_img_ignored (s.faultOpen_still f since) :)
@[simp] theorem State.faultOpen_img_refusal (s : State) (f : FaultId) (since : Stamp) : (State.faultOpen s f since).img.refusal = s.img.refusal := (still_img_refusal (s.faultOpen_still f since) :)
@[simp] theorem State.faultOpen_img_cmd (s : State) (f : FaultId) (since : Stamp) : (State.faultOpen s f since).img.cmd = s.img.cmd := (still_img_cmd (s.faultOpen_still f since) :)
@[simp] theorem State.faultOpen_img_buffering (s : State) (f : FaultId) (since : Stamp) : (State.faultOpen s f since).img.buffering = s.img.buffering := (still_img_buffering (s.faultOpen_still f since) :)
@[simp] theorem State.faultOpen_img_flashQueue (s : State) (f : FaultId) (since : Stamp) : (State.faultOpen s f since).img.flashQueue = s.img.flashQueue := (still_img_flashQueue (s.faultOpen_still f since) :)
@[simp] theorem State.faultOpen_img_waiting (s : State) (f : FaultId) (since : Stamp) : (State.faultOpen s f since).img.waiting = s.img.waiting := (still_img_waiting (s.faultOpen_still f since) :)
@[simp] theorem State.faultOpen_keeper_fuses (s : State) (f : FaultId) (since : Stamp) : (State.faultOpen s f since).keeper.fuses = s.keeper.fuses := (still_keeper_fuses (s.faultOpen_still f since) :)
@[simp] theorem State.faultOpen_keeper_island (s : State) (f : FaultId) (since : Stamp) : (State.faultOpen s f since).keeper.island = s.keeper.island := (still_keeper_island (s.faultOpen_still f since) :)
@[simp] theorem State.faultOpen_keeper_reserved (s : State) (f : FaultId) (since : Stamp) : (State.faultOpen s f since).keeper.reserved = s.keeper.reserved := (still_keeper_reserved (s.faultOpen_still f since) :)
@[simp] theorem State.faultOpen_keeper_rowPending (s : State) (f : FaultId) (since : Stamp) : (State.faultOpen s f since).keeper.rowPending = s.keeper.rowPending := (still_keeper_rowPending (s.faultOpen_still f since) :)
@[simp] theorem State.faultOpen_keeper_logFirst (s : State) (f : FaultId) (since : Stamp) : (State.faultOpen s f since).keeper.logFirst = s.keeper.logFirst := (still_keeper_logFirst (s.faultOpen_still f since) :)
@[simp] theorem State.faultOpen_keeper_logCount (s : State) (f : FaultId) (since : Stamp) : (State.faultOpen s f since).keeper.logCount = s.keeper.logCount := (still_keeper_logCount (s.faultOpen_still f since) :)
@[simp] theorem State.faultOpen_keeper_logPrior (s : State) (f : FaultId) (since : Stamp) : (State.faultOpen s f since).keeper.logPrior = s.keeper.logPrior := (still_keeper_logPrior (s.faultOpen_still f since) :)
@[simp] theorem State.faultOpen_keeper_logArchives (s : State) (f : FaultId) (since : Stamp) : (State.faultOpen s f since).keeper.logArchives = s.keeper.logArchives := (still_keeper_logArchives (s.faultOpen_still f since) :)
@[simp] theorem State.faultOpen_keeper_fullTold (s : State) (f : FaultId) (since : Stamp) : (State.faultOpen s f since).keeper.fullTold = s.keeper.fullTold := (still_keeper_fullTold (s.faultOpen_still f since) :)
@[simp] theorem State.faultOpen_keeper_broken (s : State) (f : FaultId) (since : Stamp) : (State.faultOpen s f since).keeper.broken = s.keeper.broken := (still_keeper_broken (s.faultOpen_still f since) :)
@[simp] theorem State.faultOpen_keeper_verifyDone (s : State) (f : FaultId) (since : Stamp) : (State.faultOpen s f since).keeper.verifyDone = s.keeper.verifyDone := (still_keeper_verifyDone (s.faultOpen_still f since) :)
@[simp] theorem State.faultOpen_keeper_verifyResult (s : State) (f : FaultId) (since : Stamp) : (State.faultOpen s f since).keeper.verifyResult = s.keeper.verifyResult := (still_keeper_verifyResult (s.faultOpen_still f since) :)
@[simp] theorem State.faultOpen_keeper_verifyFirst (s : State) (f : FaultId) (since : Stamp) : (State.faultOpen s f since).keeper.verifyFirst = s.keeper.verifyFirst := (still_keeper_verifyFirst (s.faultOpen_still f since) :)
@[simp] theorem State.faultOpen_keeper_verifying (s : State) (f : FaultId) (since : Stamp) : (State.faultOpen s f since).keeper.verifying = s.keeper.verifying := (still_keeper_verifying (s.faultOpen_still f since) :)
@[simp] theorem State.faultOpen_keeper_box (s : State) (f : FaultId) (since : Stamp) : (State.faultOpen s f since).keeper.box = s.keeper.box := (still_keeper_box (s.faultOpen_still f since) :)
@[simp] theorem State.faultOpen_keeper_logSel (s : State) (f : FaultId) (since : Stamp) : (State.faultOpen s f since).keeper.logSel = s.keeper.logSel := (still_keeper_logSel (s.faultOpen_still f since) :)
@[simp] theorem State.faultOpen_eth_neighbours (s : State) (f : FaultId) (since : Stamp) : (State.faultOpen s f since).eth.neighbours = s.eth.neighbours := (still_eth_neighbours (s.faultOpen_still f since) :)
@[simp] theorem State.faultOpen_eth_ptpState (s : State) (f : FaultId) (since : Stamp) : (State.faultOpen s f since).eth.ptpState = s.eth.ptpState := (still_eth_ptpState (s.faultOpen_still f since) :)
@[simp] theorem State.faultOpen_eth_ptpSource (s : State) (f : FaultId) (since : Stamp) : (State.faultOpen s f since).eth.ptpSource = s.eth.ptpSource := (still_eth_ptpSource (s.faultOpen_still f since) :)
@[simp] theorem State.faultOpen_inj_killed (s : State) (f : FaultId) (since : Stamp) : (State.faultOpen s f since).inj.killed = s.inj.killed := (still_inj_killed (s.faultOpen_still f since) :)
@[simp] theorem State.faultOpen_bay_lost (s : State) (f : FaultId) (since : Stamp) (cc : BayNo) : ((State.faultOpen s f since).bay cc).lost = (s.bay cc).lost :=
  (still_bay_lost (s.faultOpen_still f since) cc :)
@[simp] theorem State.faultOpen_bay_clk (s : State) (f : FaultId) (since : Stamp) (cc : BayNo) : ((State.faultOpen s f since).bay cc).clk = (s.bay cc).clk :=
  (still_bay_clk (s.faultOpen_still f since) cc :)
@[simp] theorem State.faultOpen_bay_tbs (s : State) (f : FaultId) (since : Stamp) (cc : BayNo) : ((State.faultOpen s f since).bay cc).tbs = (s.bay cc).tbs :=
  (still_bay_tbs (s.faultOpen_still f since) cc :)
@[simp] theorem State.faultOpen_bay_dma (s : State) (f : FaultId) (since : Stamp) (cc : BayNo) : ((State.faultOpen s f since).bay cc).dma = (s.bay cc).dma :=
  (still_bay_dma (s.faultOpen_still f since) cc :)
@[simp] theorem State.faultOpen_bay_pwr (s : State) (f : FaultId) (since : Stamp) (cc : BayNo) : ((State.faultOpen s f since).bay cc).pwr = (s.bay cc).pwr :=
  (still_bay_pwr (s.faultOpen_still f since) cc :)
@[simp] theorem State.faultOpen_bay_trg (s : State) (f : FaultId) (since : Stamp) (cc : BayNo) : ((State.faultOpen s f since).bay cc).trg = (s.bay cc).trg :=
  (still_bay_trg (s.faultOpen_still f since) cc :)
@[simp] theorem State.faultOpen_bay_afe (s : State) (f : FaultId) (since : Stamp) (cc : BayNo) : ((State.faultOpen s f since).bay cc).afe = (s.bay cc).afe :=
  (still_bay_afe (s.faultOpen_still f since) cc :)
@[simp] theorem State.faultOpen_bay_adc (s : State) (f : FaultId) (since : Stamp) (cc : BayNo) : ((State.faultOpen s f since).bay cc).adc = (s.bay cc).adc :=
  (still_bay_adc (s.faultOpen_still f since) cc :)
@[simp] theorem State.faultOpen_bay_ddc (s : State) (f : FaultId) (since : Stamp) (cc : BayNo) : ((State.faultOpen s f since).bay cc).ddc = (s.bay cc).ddc :=
  (still_bay_ddc (s.faultOpen_still f since) cc :)
@[simp] theorem State.faultOpen_bay_xfm (s : State) (f : FaultId) (since : Stamp) (cc : BayNo) : ((State.faultOpen s f since).bay cc).xfm = (s.bay cc).xfm :=
  (still_bay_xfm (s.faultOpen_still f since) cc :)
@[simp] theorem State.faultOpen_bay_den (s : State) (f : FaultId) (since : Stamp) (cc : BayNo) : ((State.faultOpen s f since).bay cc).den = (s.bay cc).den :=
  (still_bay_den (s.faultOpen_still f since) cc :)
@[simp] theorem State.faultOpen_bay_mco (s : State) (f : FaultId) (since : Stamp) (cc : BayNo) : ((State.faultOpen s f since).bay cc).mco = (s.bay cc).mco :=
  (still_bay_mco (s.faultOpen_still f since) cc :)
@[simp] theorem State.faultOpen_bay_scn (s : State) (f : FaultId) (since : Stamp) (cc : BayNo) : ((State.faultOpen s f since).bay cc).scn = (s.bay cc).scn :=
  (still_bay_scn (s.faultOpen_still f since) cc :)
@[simp] theorem State.faultOpen_bay_recorder (s : State) (f : FaultId) (since : Stamp) (cc : BayNo) : ((State.faultOpen s f since).bay cc).recorder = (s.bay cc).recorder :=
  (still_bay_recorder (s.faultOpen_still f since) cc :)
@[simp] theorem State.faultOpen_bay_lne (s : State) (f : FaultId) (since : Stamp) (cc : BayNo) : ((State.faultOpen s f since).bay cc).lne = (s.bay cc).lne :=
  (still_bay_lne (s.faultOpen_still f since) cc :)
@[simp] theorem State.faultOpen_bay_pci (s : State) (f : FaultId) (since : Stamp) (cc : BayNo) : ((State.faultOpen s f since).bay cc).pci = (s.bay cc).pci :=
  (still_bay_pci (s.faultOpen_still f since) cc :)
@[simp] theorem State.faultOpen_bay_eth (s : State) (f : FaultId) (since : Stamp) (cc : BayNo) : ((State.faultOpen s f since).bay cc).eth = (s.bay cc).eth :=
  (still_bay_eth (s.faultOpen_still f since) cc :)
@[simp] theorem State.faultOpen_bay_jes (s : State) (f : FaultId) (since : Stamp) (cc : BayNo) : ((State.faultOpen s f since).bay cc).jes = (s.bay cc).jes :=
  (still_bay_jes (s.faultOpen_still f since) cc :)
@[simp] theorem State.faultOpen_bay_cal (s : State) (f : FaultId) (since : Stamp) (cc : BayNo) : ((State.faultOpen s f since).bay cc).cal = (s.bay cc).cal :=
  (still_bay_cal (s.faultOpen_still f since) cc :)
@[simp] theorem State.faultOpen_bay_hkc (s : State) (f : FaultId) (since : Stamp) (cc : BayNo) : ((State.faultOpen s f since).bay cc).hkc = (s.bay cc).hkc :=
  (still_bay_hkc (s.faultOpen_still f since) cc :)
@[simp] theorem State.faultOpen_bay_aux (s : State) (f : FaultId) (since : Stamp) (cc : BayNo) : ((State.faultOpen s f since).bay cc).aux = (s.bay cc).aux :=
  (still_bay_aux (s.faultOpen_still f since) cc :)
@[simp] theorem State.faultOpen_bay_mon (s : State) (f : FaultId) (since : Stamp) (cc : BayNo) : ((State.faultOpen s f since).bay cc).mon = (s.bay cc).mon :=
  (still_bay_mon (s.faultOpen_still f since) cc :)
@[simp] theorem State.faultOpen_bay_jtag (s : State) (f : FaultId) (since : Stamp) (cc : BayNo) : ((State.faultOpen s f since).bay cc).jtag = (s.bay cc).jtag :=
  (still_bay_jtag (s.faultOpen_still f since) cc :)
@[simp] theorem State.faultOpen_bay_lnl_ports (s : State) (f : FaultId) (since : Stamp) (cc : BayNo) : ((State.faultOpen s f since).bay cc).lnl.ports = (s.bay cc).lnl.ports :=
  (still_bay_lnl_ports (s.faultOpen_still f since) cc :)
@[simp] theorem State.faultOpen_bay_lnl_routes (s : State) (f : FaultId) (since : Stamp) (cc : BayNo) : ((State.faultOpen s f since).bay cc).lnl.routes = (s.bay cc).lnl.routes :=
  (still_bay_lnl_routes (s.faultOpen_still f since) cc :)
@[simp] theorem State.faultOpen_bay_lnl_updateDue (s : State) (f : FaultId) (since : Stamp) (cc : BayNo) : ((State.faultOpen s f since).bay cc).lnl.updateDue = (s.bay cc).lnl.updateDue :=
  (still_bay_lnl_updateDue (s.faultOpen_still f since) cc :)
@[simp] theorem State.faultOpen_bay_lnl_reroutes (s : State) (f : FaultId) (since : Stamp) (cc : BayNo) : ((State.faultOpen s f since).bay cc).lnl.reroutes = (s.bay cc).lnl.reroutes :=
  (still_bay_lnl_reroutes (s.faultOpen_still f since) cc :)
@[simp] theorem State.faultOpen_bay_lnl_island (s : State) (f : FaultId) (since : Stamp) (cc : BayNo) : ((State.faultOpen s f since).bay cc).lnl.island = (s.bay cc).lnl.island :=
  (still_bay_lnl_island (s.faultOpen_still f since) cc :)
@[simp] theorem State.faultOpen_alive (s : State) (f : FaultId) (since : Stamp) (cc : BayNo) : (State.faultOpen s f since).alive cc = s.alive cc :=
  (still_alive (s.faultOpen_still f since) cc :)
@[simp] theorem State.faultOpen_liveBays (s : State) (f : FaultId) (since : Stamp) : (State.faultOpen s f since).liveBays  = s.liveBays :=
  (still_liveBays (s.faultOpen_still f since) :)
@[simp] theorem State.faultOpen_nowAt (s : State) (f : FaultId) (since : Stamp) (cc : BayNo) : (State.faultOpen s f since).nowAt cc = s.nowAt cc :=
  (still_nowAt (s.faultOpen_still f since) cc :)
@[simp] theorem State.faultOpen_now (s : State) (f : FaultId) (since : Stamp) : (State.faultOpen s f since).now  = s.now :=
  (still_now (s.faultOpen_still f since) :)
@[simp] theorem State.faultOpen_fld (s : State) (f : FaultId) (since : Stamp) (g : Field) (cc : BayNo) (j k : Nat) : (State.faultOpen s f since).fld g cc j k = s.fld g cc j k :=
  (still_fld (s.faultOpen_still f since) g cc j k :)
@[simp] theorem State.faultOpen_fldN (s : State) (f : FaultId) (since : Stamp) (g : Field) (cc : BayNo) (j k : Nat) : (State.faultOpen s f since).fldN g cc j k = s.fldN g cc j k :=
  (still_fldN (s.faultOpen_still f since) g cc j k :)
@[simp] theorem State.faultOpen_fldB (s : State) (f : FaultId) (since : Stamp) (g : Field) (cc : BayNo) (j : Nat) : (State.faultOpen s f since).fldB g cc j = s.fldB g cc j :=
  (still_fldB (s.faultOpen_still f since) g cc j :)
@[simp] theorem State.faultOpen_pkgN (s : State) (f : FaultId) (since : Stamp) (g : Field) (j : Nat) : (State.faultOpen s f since).pkgN g j = s.pkgN g j :=
  (still_pkgN (s.faultOpen_still f since) g j :)
set_option Elab.async false in
/-- What it leaves besides the parts named. -/
theorem State.faultEnd_still (s : State) (f : FaultId) : ({ State.faultEnd s f with faults := .reset } : State).still = ({ s with faults := .reset } : State).still := by
  have h : ∀ (u : State) (code : Nat) (p : List Word), ({ u.event 0 code p with faults := .reset } : State).still = ({ u with faults := .reset } : State).still :=
    fun u code p => congrArg (fun x : State => { x with faults := .reset }) (u.event_still 0 code p false)
  unfold State.faultEnd
  dsimp only
  split
  · rfl
  split
  · rfl
  · exact h (s.modFaults _) _ _

@[simp] theorem State.faultEnd_part (s : State) (f : FaultId) : (State.faultEnd s f).part = s.part := (still_part (s.faultEnd_still f) :)
@[simp] theorem State.faultEnd_vals (s : State) (f : FaultId) : (State.faultEnd s f).vals = s.vals := (still_vals (s.faultEnd_still f) :)
@[simp] theorem State.faultEnd_flash (s : State) (f : FaultId) : (State.faultEnd s f).flash = s.flash := (still_flash (s.faultEnd_still f) :)
@[simp] theorem State.faultEnd_tbs (s : State) (f : FaultId) : (State.faultEnd s f).tbs = s.tbs := (still_tbs (s.faultEnd_still f) :)
@[simp] theorem State.faultEnd_sel (s : State) (f : FaultId) : (State.faultEnd s f).sel = s.sel := (still_sel (s.faultEnd_still f) :)
@[simp] theorem State.faultEnd_pwr (s : State) (f : FaultId) : (State.faultEnd s f).pwr = s.pwr := (still_pwr (s.faultEnd_still f) :)
@[simp] theorem State.faultEnd_trg (s : State) (f : FaultId) : (State.faultEnd s f).trg = s.trg := (still_trg (s.faultEnd_still f) :)
@[simp] theorem State.faultEnd_ident (s : State) (f : FaultId) : (State.faultEnd s f).ident = s.ident := (still_ident (s.faultEnd_still f) :)
@[simp] theorem State.faultEnd_lnl (s : State) (f : FaultId) : (State.faultEnd s f).lnl = s.lnl := (still_lnl (s.faultEnd_still f) :)
@[simp] theorem State.faultEnd_clrPin (s : State) (f : FaultId) : (State.faultEnd s f).clrPin = s.clrPin := (still_clrPin (s.faultEnd_still f) :)
@[simp] theorem State.faultEnd_rstLow (s : State) (f : FaultId) : (State.faultEnd s f).rstLow = s.rstLow := (still_rstLow (s.faultEnd_still f) :)
@[simp] theorem State.faultEnd_pending (s : State) (f : FaultId) : (State.faultEnd s f).pending = s.pending := (still_pending (s.faultEnd_still f) :)
@[simp] theorem State.faultEnd_img_state (s : State) (f : FaultId) : (State.faultEnd s f).img.state = s.img.state := (still_img_state (s.faultEnd_still f) :)
@[simp] theorem State.faultEnd_img_boot (s : State) (f : FaultId) : (State.faultEnd s f).img.boot = s.img.boot := (still_img_boot (s.faultEnd_still f) :)
@[simp] theorem State.faultEnd_img_image (s : State) (f : FaultId) : (State.faultEnd s f).img.image = s.img.image := (still_img_image (s.faultEnd_still f) :)
@[simp] theorem State.faultEnd_img_quadRead (s : State) (f : FaultId) : (State.faultEnd s f).img.quadRead = s.img.quadRead := (still_img_quadRead (s.faultEnd_still f) :)
@[simp] theorem State.faultEnd_img_profile (s : State) (f : FaultId) : (State.faultEnd s f).img.profile = s.img.profile := (still_img_profile (s.faultEnd_still f) :)
@[simp] theorem State.faultEnd_img_pins (s : State) (f : FaultId) : (State.faultEnd s f).img.pins = s.img.pins := (still_img_pins (s.faultEnd_still f) :)
@[simp] theorem State.faultEnd_img_absentTold (s : State) (f : FaultId) : (State.faultEnd s f).img.absentTold = s.img.absentTold := (still_img_absentTold (s.faultEnd_still f) :)
@[simp] theorem State.faultEnd_img_pinsTaken (s : State) (f : FaultId) : (State.faultEnd s f).img.pinsTaken = s.img.pinsTaken := (still_img_pinsTaken (s.faultEnd_still f) :)
@[simp] theorem State.faultEnd_img_restartReq (s : State) (f : FaultId) : (State.faultEnd s f).img.restartReq = s.img.restartReq := (still_img_restartReq (s.faultEnd_still f) :)
@[simp] theorem State.faultEnd_img_ignored (s : State) (f : FaultId) : (State.faultEnd s f).img.ignored = s.img.ignored := (still_img_ignored (s.faultEnd_still f) :)
@[simp] theorem State.faultEnd_img_refusal (s : State) (f : FaultId) : (State.faultEnd s f).img.refusal = s.img.refusal := (still_img_refusal (s.faultEnd_still f) :)
@[simp] theorem State.faultEnd_img_cmd (s : State) (f : FaultId) : (State.faultEnd s f).img.cmd = s.img.cmd := (still_img_cmd (s.faultEnd_still f) :)
@[simp] theorem State.faultEnd_img_buffering (s : State) (f : FaultId) : (State.faultEnd s f).img.buffering = s.img.buffering := (still_img_buffering (s.faultEnd_still f) :)
@[simp] theorem State.faultEnd_img_flashQueue (s : State) (f : FaultId) : (State.faultEnd s f).img.flashQueue = s.img.flashQueue := (still_img_flashQueue (s.faultEnd_still f) :)
@[simp] theorem State.faultEnd_img_waiting (s : State) (f : FaultId) : (State.faultEnd s f).img.waiting = s.img.waiting := (still_img_waiting (s.faultEnd_still f) :)
@[simp] theorem State.faultEnd_keeper_fuses (s : State) (f : FaultId) : (State.faultEnd s f).keeper.fuses = s.keeper.fuses := (still_keeper_fuses (s.faultEnd_still f) :)
@[simp] theorem State.faultEnd_keeper_island (s : State) (f : FaultId) : (State.faultEnd s f).keeper.island = s.keeper.island := (still_keeper_island (s.faultEnd_still f) :)
@[simp] theorem State.faultEnd_keeper_reserved (s : State) (f : FaultId) : (State.faultEnd s f).keeper.reserved = s.keeper.reserved := (still_keeper_reserved (s.faultEnd_still f) :)
@[simp] theorem State.faultEnd_keeper_rowPending (s : State) (f : FaultId) : (State.faultEnd s f).keeper.rowPending = s.keeper.rowPending := (still_keeper_rowPending (s.faultEnd_still f) :)
@[simp] theorem State.faultEnd_keeper_logFirst (s : State) (f : FaultId) : (State.faultEnd s f).keeper.logFirst = s.keeper.logFirst := (still_keeper_logFirst (s.faultEnd_still f) :)
@[simp] theorem State.faultEnd_keeper_logCount (s : State) (f : FaultId) : (State.faultEnd s f).keeper.logCount = s.keeper.logCount := (still_keeper_logCount (s.faultEnd_still f) :)
@[simp] theorem State.faultEnd_keeper_logPrior (s : State) (f : FaultId) : (State.faultEnd s f).keeper.logPrior = s.keeper.logPrior := (still_keeper_logPrior (s.faultEnd_still f) :)
@[simp] theorem State.faultEnd_keeper_logArchives (s : State) (f : FaultId) : (State.faultEnd s f).keeper.logArchives = s.keeper.logArchives := (still_keeper_logArchives (s.faultEnd_still f) :)
@[simp] theorem State.faultEnd_keeper_fullTold (s : State) (f : FaultId) : (State.faultEnd s f).keeper.fullTold = s.keeper.fullTold := (still_keeper_fullTold (s.faultEnd_still f) :)
@[simp] theorem State.faultEnd_keeper_broken (s : State) (f : FaultId) : (State.faultEnd s f).keeper.broken = s.keeper.broken := (still_keeper_broken (s.faultEnd_still f) :)
@[simp] theorem State.faultEnd_keeper_verifyDone (s : State) (f : FaultId) : (State.faultEnd s f).keeper.verifyDone = s.keeper.verifyDone := (still_keeper_verifyDone (s.faultEnd_still f) :)
@[simp] theorem State.faultEnd_keeper_verifyResult (s : State) (f : FaultId) : (State.faultEnd s f).keeper.verifyResult = s.keeper.verifyResult := (still_keeper_verifyResult (s.faultEnd_still f) :)
@[simp] theorem State.faultEnd_keeper_verifyFirst (s : State) (f : FaultId) : (State.faultEnd s f).keeper.verifyFirst = s.keeper.verifyFirst := (still_keeper_verifyFirst (s.faultEnd_still f) :)
@[simp] theorem State.faultEnd_keeper_verifying (s : State) (f : FaultId) : (State.faultEnd s f).keeper.verifying = s.keeper.verifying := (still_keeper_verifying (s.faultEnd_still f) :)
@[simp] theorem State.faultEnd_keeper_box (s : State) (f : FaultId) : (State.faultEnd s f).keeper.box = s.keeper.box := (still_keeper_box (s.faultEnd_still f) :)
@[simp] theorem State.faultEnd_keeper_logSel (s : State) (f : FaultId) : (State.faultEnd s f).keeper.logSel = s.keeper.logSel := (still_keeper_logSel (s.faultEnd_still f) :)
@[simp] theorem State.faultEnd_eth_neighbours (s : State) (f : FaultId) : (State.faultEnd s f).eth.neighbours = s.eth.neighbours := (still_eth_neighbours (s.faultEnd_still f) :)
@[simp] theorem State.faultEnd_eth_ptpState (s : State) (f : FaultId) : (State.faultEnd s f).eth.ptpState = s.eth.ptpState := (still_eth_ptpState (s.faultEnd_still f) :)
@[simp] theorem State.faultEnd_eth_ptpSource (s : State) (f : FaultId) : (State.faultEnd s f).eth.ptpSource = s.eth.ptpSource := (still_eth_ptpSource (s.faultEnd_still f) :)
@[simp] theorem State.faultEnd_inj_killed (s : State) (f : FaultId) : (State.faultEnd s f).inj.killed = s.inj.killed := (still_inj_killed (s.faultEnd_still f) :)
@[simp] theorem State.faultEnd_bay_lost (s : State) (f : FaultId) (cc : BayNo) : ((State.faultEnd s f).bay cc).lost = (s.bay cc).lost :=
  (still_bay_lost (s.faultEnd_still f) cc :)
@[simp] theorem State.faultEnd_bay_clk (s : State) (f : FaultId) (cc : BayNo) : ((State.faultEnd s f).bay cc).clk = (s.bay cc).clk :=
  (still_bay_clk (s.faultEnd_still f) cc :)
@[simp] theorem State.faultEnd_bay_tbs (s : State) (f : FaultId) (cc : BayNo) : ((State.faultEnd s f).bay cc).tbs = (s.bay cc).tbs :=
  (still_bay_tbs (s.faultEnd_still f) cc :)
@[simp] theorem State.faultEnd_bay_dma (s : State) (f : FaultId) (cc : BayNo) : ((State.faultEnd s f).bay cc).dma = (s.bay cc).dma :=
  (still_bay_dma (s.faultEnd_still f) cc :)
@[simp] theorem State.faultEnd_bay_pwr (s : State) (f : FaultId) (cc : BayNo) : ((State.faultEnd s f).bay cc).pwr = (s.bay cc).pwr :=
  (still_bay_pwr (s.faultEnd_still f) cc :)
@[simp] theorem State.faultEnd_bay_trg (s : State) (f : FaultId) (cc : BayNo) : ((State.faultEnd s f).bay cc).trg = (s.bay cc).trg :=
  (still_bay_trg (s.faultEnd_still f) cc :)
@[simp] theorem State.faultEnd_bay_afe (s : State) (f : FaultId) (cc : BayNo) : ((State.faultEnd s f).bay cc).afe = (s.bay cc).afe :=
  (still_bay_afe (s.faultEnd_still f) cc :)
@[simp] theorem State.faultEnd_bay_adc (s : State) (f : FaultId) (cc : BayNo) : ((State.faultEnd s f).bay cc).adc = (s.bay cc).adc :=
  (still_bay_adc (s.faultEnd_still f) cc :)
@[simp] theorem State.faultEnd_bay_ddc (s : State) (f : FaultId) (cc : BayNo) : ((State.faultEnd s f).bay cc).ddc = (s.bay cc).ddc :=
  (still_bay_ddc (s.faultEnd_still f) cc :)
@[simp] theorem State.faultEnd_bay_xfm (s : State) (f : FaultId) (cc : BayNo) : ((State.faultEnd s f).bay cc).xfm = (s.bay cc).xfm :=
  (still_bay_xfm (s.faultEnd_still f) cc :)
@[simp] theorem State.faultEnd_bay_den (s : State) (f : FaultId) (cc : BayNo) : ((State.faultEnd s f).bay cc).den = (s.bay cc).den :=
  (still_bay_den (s.faultEnd_still f) cc :)
@[simp] theorem State.faultEnd_bay_mco (s : State) (f : FaultId) (cc : BayNo) : ((State.faultEnd s f).bay cc).mco = (s.bay cc).mco :=
  (still_bay_mco (s.faultEnd_still f) cc :)
@[simp] theorem State.faultEnd_bay_scn (s : State) (f : FaultId) (cc : BayNo) : ((State.faultEnd s f).bay cc).scn = (s.bay cc).scn :=
  (still_bay_scn (s.faultEnd_still f) cc :)
@[simp] theorem State.faultEnd_bay_recorder (s : State) (f : FaultId) (cc : BayNo) : ((State.faultEnd s f).bay cc).recorder = (s.bay cc).recorder :=
  (still_bay_recorder (s.faultEnd_still f) cc :)
@[simp] theorem State.faultEnd_bay_lne (s : State) (f : FaultId) (cc : BayNo) : ((State.faultEnd s f).bay cc).lne = (s.bay cc).lne :=
  (still_bay_lne (s.faultEnd_still f) cc :)
@[simp] theorem State.faultEnd_bay_pci (s : State) (f : FaultId) (cc : BayNo) : ((State.faultEnd s f).bay cc).pci = (s.bay cc).pci :=
  (still_bay_pci (s.faultEnd_still f) cc :)
@[simp] theorem State.faultEnd_bay_eth (s : State) (f : FaultId) (cc : BayNo) : ((State.faultEnd s f).bay cc).eth = (s.bay cc).eth :=
  (still_bay_eth (s.faultEnd_still f) cc :)
@[simp] theorem State.faultEnd_bay_jes (s : State) (f : FaultId) (cc : BayNo) : ((State.faultEnd s f).bay cc).jes = (s.bay cc).jes :=
  (still_bay_jes (s.faultEnd_still f) cc :)
@[simp] theorem State.faultEnd_bay_cal (s : State) (f : FaultId) (cc : BayNo) : ((State.faultEnd s f).bay cc).cal = (s.bay cc).cal :=
  (still_bay_cal (s.faultEnd_still f) cc :)
@[simp] theorem State.faultEnd_bay_hkc (s : State) (f : FaultId) (cc : BayNo) : ((State.faultEnd s f).bay cc).hkc = (s.bay cc).hkc :=
  (still_bay_hkc (s.faultEnd_still f) cc :)
@[simp] theorem State.faultEnd_bay_aux (s : State) (f : FaultId) (cc : BayNo) : ((State.faultEnd s f).bay cc).aux = (s.bay cc).aux :=
  (still_bay_aux (s.faultEnd_still f) cc :)
@[simp] theorem State.faultEnd_bay_mon (s : State) (f : FaultId) (cc : BayNo) : ((State.faultEnd s f).bay cc).mon = (s.bay cc).mon :=
  (still_bay_mon (s.faultEnd_still f) cc :)
@[simp] theorem State.faultEnd_bay_jtag (s : State) (f : FaultId) (cc : BayNo) : ((State.faultEnd s f).bay cc).jtag = (s.bay cc).jtag :=
  (still_bay_jtag (s.faultEnd_still f) cc :)
@[simp] theorem State.faultEnd_bay_lnl_ports (s : State) (f : FaultId) (cc : BayNo) : ((State.faultEnd s f).bay cc).lnl.ports = (s.bay cc).lnl.ports :=
  (still_bay_lnl_ports (s.faultEnd_still f) cc :)
@[simp] theorem State.faultEnd_bay_lnl_routes (s : State) (f : FaultId) (cc : BayNo) : ((State.faultEnd s f).bay cc).lnl.routes = (s.bay cc).lnl.routes :=
  (still_bay_lnl_routes (s.faultEnd_still f) cc :)
@[simp] theorem State.faultEnd_bay_lnl_updateDue (s : State) (f : FaultId) (cc : BayNo) : ((State.faultEnd s f).bay cc).lnl.updateDue = (s.bay cc).lnl.updateDue :=
  (still_bay_lnl_updateDue (s.faultEnd_still f) cc :)
@[simp] theorem State.faultEnd_bay_lnl_reroutes (s : State) (f : FaultId) (cc : BayNo) : ((State.faultEnd s f).bay cc).lnl.reroutes = (s.bay cc).lnl.reroutes :=
  (still_bay_lnl_reroutes (s.faultEnd_still f) cc :)
@[simp] theorem State.faultEnd_bay_lnl_island (s : State) (f : FaultId) (cc : BayNo) : ((State.faultEnd s f).bay cc).lnl.island = (s.bay cc).lnl.island :=
  (still_bay_lnl_island (s.faultEnd_still f) cc :)
@[simp] theorem State.faultEnd_alive (s : State) (f : FaultId) (cc : BayNo) : (State.faultEnd s f).alive cc = s.alive cc :=
  (still_alive (s.faultEnd_still f) cc :)
@[simp] theorem State.faultEnd_liveBays (s : State) (f : FaultId) : (State.faultEnd s f).liveBays  = s.liveBays :=
  (still_liveBays (s.faultEnd_still f) :)
@[simp] theorem State.faultEnd_nowAt (s : State) (f : FaultId) (cc : BayNo) : (State.faultEnd s f).nowAt cc = s.nowAt cc :=
  (still_nowAt (s.faultEnd_still f) cc :)
@[simp] theorem State.faultEnd_now (s : State) (f : FaultId) : (State.faultEnd s f).now  = s.now :=
  (still_now (s.faultEnd_still f) :)
@[simp] theorem State.faultEnd_fld (s : State) (f : FaultId) (g : Field) (cc : BayNo) (j k : Nat) : (State.faultEnd s f).fld g cc j k = s.fld g cc j k :=
  (still_fld (s.faultEnd_still f) g cc j k :)
@[simp] theorem State.faultEnd_fldN (s : State) (f : FaultId) (g : Field) (cc : BayNo) (j k : Nat) : (State.faultEnd s f).fldN g cc j k = s.fldN g cc j k :=
  (still_fldN (s.faultEnd_still f) g cc j k :)
@[simp] theorem State.faultEnd_fldB (s : State) (f : FaultId) (g : Field) (cc : BayNo) (j : Nat) : (State.faultEnd s f).fldB g cc j = s.fldB g cc j :=
  (still_fldB (s.faultEnd_still f) g cc j :)
@[simp] theorem State.faultEnd_pkgN (s : State) (f : FaultId) (g : Field) (j : Nat) : (State.faultEnd s f).pkgN g j = s.pkgN g j :=
  (still_pkgN (s.faultEnd_still f) g j :)
set_option Elab.async false in
/-- What it leaves besides the parts named. -/
theorem State.sealLog_still (s : State) (kind : Nat) (b : BayNo) (detail : Nat) (data : List Word) (rtc fromReserve : Bool) : ({ State.sealLog s kind b detail data rtc fromReserve with keeper := .reset } : State).still = ({ s with keeper := .reset } : State).still := by
  have h : ∀ (u : State) (code : Nat) (p : List Word), ({ u.event 0 code p with keeper := .reset } : State).still = ({ u with keeper := .reset } : State).still :=
    fun u code p => congrArg (fun x : State => { x with keeper := .reset }) (u.event_still 0 code p false)
  unfold State.sealLog
  dsimp only
  (repeat' split) <;> first
    | rfl
    | exact h (s.modSeal _) _ _

@[simp] theorem State.sealLog_part (s : State) (kind : Nat) (b : BayNo) (detail : Nat) (data : List Word) (rtc fromReserve : Bool) : (State.sealLog s kind b detail data rtc fromReserve).part = s.part := (still_part (s.sealLog_still kind b detail data rtc fromReserve) :)
@[simp] theorem State.sealLog_vals (s : State) (kind : Nat) (b : BayNo) (detail : Nat) (data : List Word) (rtc fromReserve : Bool) : (State.sealLog s kind b detail data rtc fromReserve).vals = s.vals := (still_vals (s.sealLog_still kind b detail data rtc fromReserve) :)
@[simp] theorem State.sealLog_flash (s : State) (kind : Nat) (b : BayNo) (detail : Nat) (data : List Word) (rtc fromReserve : Bool) : (State.sealLog s kind b detail data rtc fromReserve).flash = s.flash := (still_flash (s.sealLog_still kind b detail data rtc fromReserve) :)
@[simp] theorem State.sealLog_tbs (s : State) (kind : Nat) (b : BayNo) (detail : Nat) (data : List Word) (rtc fromReserve : Bool) : (State.sealLog s kind b detail data rtc fromReserve).tbs = s.tbs := (still_tbs (s.sealLog_still kind b detail data rtc fromReserve) :)
@[simp] theorem State.sealLog_sel (s : State) (kind : Nat) (b : BayNo) (detail : Nat) (data : List Word) (rtc fromReserve : Bool) : (State.sealLog s kind b detail data rtc fromReserve).sel = s.sel := (still_sel (s.sealLog_still kind b detail data rtc fromReserve) :)
@[simp] theorem State.sealLog_pwr (s : State) (kind : Nat) (b : BayNo) (detail : Nat) (data : List Word) (rtc fromReserve : Bool) : (State.sealLog s kind b detail data rtc fromReserve).pwr = s.pwr := (still_pwr (s.sealLog_still kind b detail data rtc fromReserve) :)
@[simp] theorem State.sealLog_faults (s : State) (kind : Nat) (b : BayNo) (detail : Nat) (data : List Word) (rtc fromReserve : Bool) : (State.sealLog s kind b detail data rtc fromReserve).faults = s.faults := (still_faults (s.sealLog_still kind b detail data rtc fromReserve) :)
@[simp] theorem State.sealLog_trg (s : State) (kind : Nat) (b : BayNo) (detail : Nat) (data : List Word) (rtc fromReserve : Bool) : (State.sealLog s kind b detail data rtc fromReserve).trg = s.trg := (still_trg (s.sealLog_still kind b detail data rtc fromReserve) :)
@[simp] theorem State.sealLog_ident (s : State) (kind : Nat) (b : BayNo) (detail : Nat) (data : List Word) (rtc fromReserve : Bool) : (State.sealLog s kind b detail data rtc fromReserve).ident = s.ident := (still_ident (s.sealLog_still kind b detail data rtc fromReserve) :)
@[simp] theorem State.sealLog_lnl (s : State) (kind : Nat) (b : BayNo) (detail : Nat) (data : List Word) (rtc fromReserve : Bool) : (State.sealLog s kind b detail data rtc fromReserve).lnl = s.lnl := (still_lnl (s.sealLog_still kind b detail data rtc fromReserve) :)
@[simp] theorem State.sealLog_clrPin (s : State) (kind : Nat) (b : BayNo) (detail : Nat) (data : List Word) (rtc fromReserve : Bool) : (State.sealLog s kind b detail data rtc fromReserve).clrPin = s.clrPin := (still_clrPin (s.sealLog_still kind b detail data rtc fromReserve) :)
@[simp] theorem State.sealLog_rstLow (s : State) (kind : Nat) (b : BayNo) (detail : Nat) (data : List Word) (rtc fromReserve : Bool) : (State.sealLog s kind b detail data rtc fromReserve).rstLow = s.rstLow := (still_rstLow (s.sealLog_still kind b detail data rtc fromReserve) :)
@[simp] theorem State.sealLog_pending (s : State) (kind : Nat) (b : BayNo) (detail : Nat) (data : List Word) (rtc fromReserve : Bool) : (State.sealLog s kind b detail data rtc fromReserve).pending = s.pending := (still_pending (s.sealLog_still kind b detail data rtc fromReserve) :)
@[simp] theorem State.sealLog_img_state (s : State) (kind : Nat) (b : BayNo) (detail : Nat) (data : List Word) (rtc fromReserve : Bool) : (State.sealLog s kind b detail data rtc fromReserve).img.state = s.img.state := (still_img_state (s.sealLog_still kind b detail data rtc fromReserve) :)
@[simp] theorem State.sealLog_img_boot (s : State) (kind : Nat) (b : BayNo) (detail : Nat) (data : List Word) (rtc fromReserve : Bool) : (State.sealLog s kind b detail data rtc fromReserve).img.boot = s.img.boot := (still_img_boot (s.sealLog_still kind b detail data rtc fromReserve) :)
@[simp] theorem State.sealLog_img_image (s : State) (kind : Nat) (b : BayNo) (detail : Nat) (data : List Word) (rtc fromReserve : Bool) : (State.sealLog s kind b detail data rtc fromReserve).img.image = s.img.image := (still_img_image (s.sealLog_still kind b detail data rtc fromReserve) :)
@[simp] theorem State.sealLog_img_quadRead (s : State) (kind : Nat) (b : BayNo) (detail : Nat) (data : List Word) (rtc fromReserve : Bool) : (State.sealLog s kind b detail data rtc fromReserve).img.quadRead = s.img.quadRead := (still_img_quadRead (s.sealLog_still kind b detail data rtc fromReserve) :)
@[simp] theorem State.sealLog_img_profile (s : State) (kind : Nat) (b : BayNo) (detail : Nat) (data : List Word) (rtc fromReserve : Bool) : (State.sealLog s kind b detail data rtc fromReserve).img.profile = s.img.profile := (still_img_profile (s.sealLog_still kind b detail data rtc fromReserve) :)
@[simp] theorem State.sealLog_img_pins (s : State) (kind : Nat) (b : BayNo) (detail : Nat) (data : List Word) (rtc fromReserve : Bool) : (State.sealLog s kind b detail data rtc fromReserve).img.pins = s.img.pins := (still_img_pins (s.sealLog_still kind b detail data rtc fromReserve) :)
@[simp] theorem State.sealLog_img_absentTold (s : State) (kind : Nat) (b : BayNo) (detail : Nat) (data : List Word) (rtc fromReserve : Bool) : (State.sealLog s kind b detail data rtc fromReserve).img.absentTold = s.img.absentTold := (still_img_absentTold (s.sealLog_still kind b detail data rtc fromReserve) :)
@[simp] theorem State.sealLog_img_pinsTaken (s : State) (kind : Nat) (b : BayNo) (detail : Nat) (data : List Word) (rtc fromReserve : Bool) : (State.sealLog s kind b detail data rtc fromReserve).img.pinsTaken = s.img.pinsTaken := (still_img_pinsTaken (s.sealLog_still kind b detail data rtc fromReserve) :)
@[simp] theorem State.sealLog_img_restartReq (s : State) (kind : Nat) (b : BayNo) (detail : Nat) (data : List Word) (rtc fromReserve : Bool) : (State.sealLog s kind b detail data rtc fromReserve).img.restartReq = s.img.restartReq := (still_img_restartReq (s.sealLog_still kind b detail data rtc fromReserve) :)
@[simp] theorem State.sealLog_img_ignored (s : State) (kind : Nat) (b : BayNo) (detail : Nat) (data : List Word) (rtc fromReserve : Bool) : (State.sealLog s kind b detail data rtc fromReserve).img.ignored = s.img.ignored := (still_img_ignored (s.sealLog_still kind b detail data rtc fromReserve) :)
@[simp] theorem State.sealLog_img_refusal (s : State) (kind : Nat) (b : BayNo) (detail : Nat) (data : List Word) (rtc fromReserve : Bool) : (State.sealLog s kind b detail data rtc fromReserve).img.refusal = s.img.refusal := (still_img_refusal (s.sealLog_still kind b detail data rtc fromReserve) :)
@[simp] theorem State.sealLog_img_cmd (s : State) (kind : Nat) (b : BayNo) (detail : Nat) (data : List Word) (rtc fromReserve : Bool) : (State.sealLog s kind b detail data rtc fromReserve).img.cmd = s.img.cmd := (still_img_cmd (s.sealLog_still kind b detail data rtc fromReserve) :)
@[simp] theorem State.sealLog_img_buffering (s : State) (kind : Nat) (b : BayNo) (detail : Nat) (data : List Word) (rtc fromReserve : Bool) : (State.sealLog s kind b detail data rtc fromReserve).img.buffering = s.img.buffering := (still_img_buffering (s.sealLog_still kind b detail data rtc fromReserve) :)
@[simp] theorem State.sealLog_img_flashQueue (s : State) (kind : Nat) (b : BayNo) (detail : Nat) (data : List Word) (rtc fromReserve : Bool) : (State.sealLog s kind b detail data rtc fromReserve).img.flashQueue = s.img.flashQueue := (still_img_flashQueue (s.sealLog_still kind b detail data rtc fromReserve) :)
@[simp] theorem State.sealLog_img_waiting (s : State) (kind : Nat) (b : BayNo) (detail : Nat) (data : List Word) (rtc fromReserve : Bool) : (State.sealLog s kind b detail data rtc fromReserve).img.waiting = s.img.waiting := (still_img_waiting (s.sealLog_still kind b detail data rtc fromReserve) :)
@[simp] theorem State.sealLog_eth_neighbours (s : State) (kind : Nat) (b : BayNo) (detail : Nat) (data : List Word) (rtc fromReserve : Bool) : (State.sealLog s kind b detail data rtc fromReserve).eth.neighbours = s.eth.neighbours := (still_eth_neighbours (s.sealLog_still kind b detail data rtc fromReserve) :)
@[simp] theorem State.sealLog_eth_ptpState (s : State) (kind : Nat) (b : BayNo) (detail : Nat) (data : List Word) (rtc fromReserve : Bool) : (State.sealLog s kind b detail data rtc fromReserve).eth.ptpState = s.eth.ptpState := (still_eth_ptpState (s.sealLog_still kind b detail data rtc fromReserve) :)
@[simp] theorem State.sealLog_eth_ptpSource (s : State) (kind : Nat) (b : BayNo) (detail : Nat) (data : List Word) (rtc fromReserve : Bool) : (State.sealLog s kind b detail data rtc fromReserve).eth.ptpSource = s.eth.ptpSource := (still_eth_ptpSource (s.sealLog_still kind b detail data rtc fromReserve) :)
@[simp] theorem State.sealLog_inj_killed (s : State) (kind : Nat) (b : BayNo) (detail : Nat) (data : List Word) (rtc fromReserve : Bool) : (State.sealLog s kind b detail data rtc fromReserve).inj.killed = s.inj.killed := (still_inj_killed (s.sealLog_still kind b detail data rtc fromReserve) :)
@[simp] theorem State.sealLog_bay_lost (s : State) (kind : Nat) (b : BayNo) (detail : Nat) (data : List Word) (rtc fromReserve : Bool) (cc : BayNo) : ((State.sealLog s kind b detail data rtc fromReserve).bay cc).lost = (s.bay cc).lost :=
  (still_bay_lost (s.sealLog_still kind b detail data rtc fromReserve) cc :)
@[simp] theorem State.sealLog_bay_clk (s : State) (kind : Nat) (b : BayNo) (detail : Nat) (data : List Word) (rtc fromReserve : Bool) (cc : BayNo) : ((State.sealLog s kind b detail data rtc fromReserve).bay cc).clk = (s.bay cc).clk :=
  (still_bay_clk (s.sealLog_still kind b detail data rtc fromReserve) cc :)
@[simp] theorem State.sealLog_bay_tbs (s : State) (kind : Nat) (b : BayNo) (detail : Nat) (data : List Word) (rtc fromReserve : Bool) (cc : BayNo) : ((State.sealLog s kind b detail data rtc fromReserve).bay cc).tbs = (s.bay cc).tbs :=
  (still_bay_tbs (s.sealLog_still kind b detail data rtc fromReserve) cc :)
@[simp] theorem State.sealLog_bay_dma (s : State) (kind : Nat) (b : BayNo) (detail : Nat) (data : List Word) (rtc fromReserve : Bool) (cc : BayNo) : ((State.sealLog s kind b detail data rtc fromReserve).bay cc).dma = (s.bay cc).dma :=
  (still_bay_dma (s.sealLog_still kind b detail data rtc fromReserve) cc :)
@[simp] theorem State.sealLog_bay_pwr (s : State) (kind : Nat) (b : BayNo) (detail : Nat) (data : List Word) (rtc fromReserve : Bool) (cc : BayNo) : ((State.sealLog s kind b detail data rtc fromReserve).bay cc).pwr = (s.bay cc).pwr :=
  (still_bay_pwr (s.sealLog_still kind b detail data rtc fromReserve) cc :)
@[simp] theorem State.sealLog_bay_trg (s : State) (kind : Nat) (b : BayNo) (detail : Nat) (data : List Word) (rtc fromReserve : Bool) (cc : BayNo) : ((State.sealLog s kind b detail data rtc fromReserve).bay cc).trg = (s.bay cc).trg :=
  (still_bay_trg (s.sealLog_still kind b detail data rtc fromReserve) cc :)
@[simp] theorem State.sealLog_bay_afe (s : State) (kind : Nat) (b : BayNo) (detail : Nat) (data : List Word) (rtc fromReserve : Bool) (cc : BayNo) : ((State.sealLog s kind b detail data rtc fromReserve).bay cc).afe = (s.bay cc).afe :=
  (still_bay_afe (s.sealLog_still kind b detail data rtc fromReserve) cc :)
@[simp] theorem State.sealLog_bay_adc (s : State) (kind : Nat) (b : BayNo) (detail : Nat) (data : List Word) (rtc fromReserve : Bool) (cc : BayNo) : ((State.sealLog s kind b detail data rtc fromReserve).bay cc).adc = (s.bay cc).adc :=
  (still_bay_adc (s.sealLog_still kind b detail data rtc fromReserve) cc :)
@[simp] theorem State.sealLog_bay_ddc (s : State) (kind : Nat) (b : BayNo) (detail : Nat) (data : List Word) (rtc fromReserve : Bool) (cc : BayNo) : ((State.sealLog s kind b detail data rtc fromReserve).bay cc).ddc = (s.bay cc).ddc :=
  (still_bay_ddc (s.sealLog_still kind b detail data rtc fromReserve) cc :)
@[simp] theorem State.sealLog_bay_xfm (s : State) (kind : Nat) (b : BayNo) (detail : Nat) (data : List Word) (rtc fromReserve : Bool) (cc : BayNo) : ((State.sealLog s kind b detail data rtc fromReserve).bay cc).xfm = (s.bay cc).xfm :=
  (still_bay_xfm (s.sealLog_still kind b detail data rtc fromReserve) cc :)
@[simp] theorem State.sealLog_bay_den (s : State) (kind : Nat) (b : BayNo) (detail : Nat) (data : List Word) (rtc fromReserve : Bool) (cc : BayNo) : ((State.sealLog s kind b detail data rtc fromReserve).bay cc).den = (s.bay cc).den :=
  (still_bay_den (s.sealLog_still kind b detail data rtc fromReserve) cc :)
@[simp] theorem State.sealLog_bay_mco (s : State) (kind : Nat) (b : BayNo) (detail : Nat) (data : List Word) (rtc fromReserve : Bool) (cc : BayNo) : ((State.sealLog s kind b detail data rtc fromReserve).bay cc).mco = (s.bay cc).mco :=
  (still_bay_mco (s.sealLog_still kind b detail data rtc fromReserve) cc :)
@[simp] theorem State.sealLog_bay_scn (s : State) (kind : Nat) (b : BayNo) (detail : Nat) (data : List Word) (rtc fromReserve : Bool) (cc : BayNo) : ((State.sealLog s kind b detail data rtc fromReserve).bay cc).scn = (s.bay cc).scn :=
  (still_bay_scn (s.sealLog_still kind b detail data rtc fromReserve) cc :)
@[simp] theorem State.sealLog_bay_recorder (s : State) (kind : Nat) (b : BayNo) (detail : Nat) (data : List Word) (rtc fromReserve : Bool) (cc : BayNo) : ((State.sealLog s kind b detail data rtc fromReserve).bay cc).recorder = (s.bay cc).recorder :=
  (still_bay_recorder (s.sealLog_still kind b detail data rtc fromReserve) cc :)
@[simp] theorem State.sealLog_bay_lne (s : State) (kind : Nat) (b : BayNo) (detail : Nat) (data : List Word) (rtc fromReserve : Bool) (cc : BayNo) : ((State.sealLog s kind b detail data rtc fromReserve).bay cc).lne = (s.bay cc).lne :=
  (still_bay_lne (s.sealLog_still kind b detail data rtc fromReserve) cc :)
@[simp] theorem State.sealLog_bay_pci (s : State) (kind : Nat) (b : BayNo) (detail : Nat) (data : List Word) (rtc fromReserve : Bool) (cc : BayNo) : ((State.sealLog s kind b detail data rtc fromReserve).bay cc).pci = (s.bay cc).pci :=
  (still_bay_pci (s.sealLog_still kind b detail data rtc fromReserve) cc :)
@[simp] theorem State.sealLog_bay_eth (s : State) (kind : Nat) (b : BayNo) (detail : Nat) (data : List Word) (rtc fromReserve : Bool) (cc : BayNo) : ((State.sealLog s kind b detail data rtc fromReserve).bay cc).eth = (s.bay cc).eth :=
  (still_bay_eth (s.sealLog_still kind b detail data rtc fromReserve) cc :)
@[simp] theorem State.sealLog_bay_jes (s : State) (kind : Nat) (b : BayNo) (detail : Nat) (data : List Word) (rtc fromReserve : Bool) (cc : BayNo) : ((State.sealLog s kind b detail data rtc fromReserve).bay cc).jes = (s.bay cc).jes :=
  (still_bay_jes (s.sealLog_still kind b detail data rtc fromReserve) cc :)
@[simp] theorem State.sealLog_bay_cal (s : State) (kind : Nat) (b : BayNo) (detail : Nat) (data : List Word) (rtc fromReserve : Bool) (cc : BayNo) : ((State.sealLog s kind b detail data rtc fromReserve).bay cc).cal = (s.bay cc).cal :=
  (still_bay_cal (s.sealLog_still kind b detail data rtc fromReserve) cc :)
@[simp] theorem State.sealLog_bay_hkc (s : State) (kind : Nat) (b : BayNo) (detail : Nat) (data : List Word) (rtc fromReserve : Bool) (cc : BayNo) : ((State.sealLog s kind b detail data rtc fromReserve).bay cc).hkc = (s.bay cc).hkc :=
  (still_bay_hkc (s.sealLog_still kind b detail data rtc fromReserve) cc :)
@[simp] theorem State.sealLog_bay_aux (s : State) (kind : Nat) (b : BayNo) (detail : Nat) (data : List Word) (rtc fromReserve : Bool) (cc : BayNo) : ((State.sealLog s kind b detail data rtc fromReserve).bay cc).aux = (s.bay cc).aux :=
  (still_bay_aux (s.sealLog_still kind b detail data rtc fromReserve) cc :)
@[simp] theorem State.sealLog_bay_mon (s : State) (kind : Nat) (b : BayNo) (detail : Nat) (data : List Word) (rtc fromReserve : Bool) (cc : BayNo) : ((State.sealLog s kind b detail data rtc fromReserve).bay cc).mon = (s.bay cc).mon :=
  (still_bay_mon (s.sealLog_still kind b detail data rtc fromReserve) cc :)
@[simp] theorem State.sealLog_bay_jtag (s : State) (kind : Nat) (b : BayNo) (detail : Nat) (data : List Word) (rtc fromReserve : Bool) (cc : BayNo) : ((State.sealLog s kind b detail data rtc fromReserve).bay cc).jtag = (s.bay cc).jtag :=
  (still_bay_jtag (s.sealLog_still kind b detail data rtc fromReserve) cc :)
@[simp] theorem State.sealLog_bay_lnl_ports (s : State) (kind : Nat) (b : BayNo) (detail : Nat) (data : List Word) (rtc fromReserve : Bool) (cc : BayNo) : ((State.sealLog s kind b detail data rtc fromReserve).bay cc).lnl.ports = (s.bay cc).lnl.ports :=
  (still_bay_lnl_ports (s.sealLog_still kind b detail data rtc fromReserve) cc :)
@[simp] theorem State.sealLog_bay_lnl_routes (s : State) (kind : Nat) (b : BayNo) (detail : Nat) (data : List Word) (rtc fromReserve : Bool) (cc : BayNo) : ((State.sealLog s kind b detail data rtc fromReserve).bay cc).lnl.routes = (s.bay cc).lnl.routes :=
  (still_bay_lnl_routes (s.sealLog_still kind b detail data rtc fromReserve) cc :)
@[simp] theorem State.sealLog_bay_lnl_updateDue (s : State) (kind : Nat) (b : BayNo) (detail : Nat) (data : List Word) (rtc fromReserve : Bool) (cc : BayNo) : ((State.sealLog s kind b detail data rtc fromReserve).bay cc).lnl.updateDue = (s.bay cc).lnl.updateDue :=
  (still_bay_lnl_updateDue (s.sealLog_still kind b detail data rtc fromReserve) cc :)
@[simp] theorem State.sealLog_bay_lnl_reroutes (s : State) (kind : Nat) (b : BayNo) (detail : Nat) (data : List Word) (rtc fromReserve : Bool) (cc : BayNo) : ((State.sealLog s kind b detail data rtc fromReserve).bay cc).lnl.reroutes = (s.bay cc).lnl.reroutes :=
  (still_bay_lnl_reroutes (s.sealLog_still kind b detail data rtc fromReserve) cc :)
@[simp] theorem State.sealLog_bay_lnl_island (s : State) (kind : Nat) (b : BayNo) (detail : Nat) (data : List Word) (rtc fromReserve : Bool) (cc : BayNo) : ((State.sealLog s kind b detail data rtc fromReserve).bay cc).lnl.island = (s.bay cc).lnl.island :=
  (still_bay_lnl_island (s.sealLog_still kind b detail data rtc fromReserve) cc :)
@[simp] theorem State.sealLog_alive (s : State) (kind : Nat) (b : BayNo) (detail : Nat) (data : List Word) (rtc fromReserve : Bool) (cc : BayNo) : (State.sealLog s kind b detail data rtc fromReserve).alive cc = s.alive cc :=
  (still_alive (s.sealLog_still kind b detail data rtc fromReserve) cc :)
@[simp] theorem State.sealLog_liveBays (s : State) (kind : Nat) (b : BayNo) (detail : Nat) (data : List Word) (rtc fromReserve : Bool) : (State.sealLog s kind b detail data rtc fromReserve).liveBays  = s.liveBays :=
  (still_liveBays (s.sealLog_still kind b detail data rtc fromReserve) :)
@[simp] theorem State.sealLog_nowAt (s : State) (kind : Nat) (b : BayNo) (detail : Nat) (data : List Word) (rtc fromReserve : Bool) (cc : BayNo) : (State.sealLog s kind b detail data rtc fromReserve).nowAt cc = s.nowAt cc :=
  (still_nowAt (s.sealLog_still kind b detail data rtc fromReserve) cc :)
@[simp] theorem State.sealLog_now (s : State) (kind : Nat) (b : BayNo) (detail : Nat) (data : List Word) (rtc fromReserve : Bool) : (State.sealLog s kind b detail data rtc fromReserve).now  = s.now :=
  (still_now (s.sealLog_still kind b detail data rtc fromReserve) :)
@[simp] theorem State.sealLog_fld (s : State) (kind : Nat) (b : BayNo) (detail : Nat) (data : List Word) (rtc fromReserve : Bool) (g : Field) (cc : BayNo) (j k : Nat) : (State.sealLog s kind b detail data rtc fromReserve).fld g cc j k = s.fld g cc j k :=
  (still_fld (s.sealLog_still kind b detail data rtc fromReserve) g cc j k :)
@[simp] theorem State.sealLog_fldN (s : State) (kind : Nat) (b : BayNo) (detail : Nat) (data : List Word) (rtc fromReserve : Bool) (g : Field) (cc : BayNo) (j k : Nat) : (State.sealLog s kind b detail data rtc fromReserve).fldN g cc j k = s.fldN g cc j k :=
  (still_fldN (s.sealLog_still kind b detail data rtc fromReserve) g cc j k :)
@[simp] theorem State.sealLog_fldB (s : State) (kind : Nat) (b : BayNo) (detail : Nat) (data : List Word) (rtc fromReserve : Bool) (g : Field) (cc : BayNo) (j : Nat) : (State.sealLog s kind b detail data rtc fromReserve).fldB g cc j = s.fldB g cc j :=
  (still_fldB (s.sealLog_still kind b detail data rtc fromReserve) g cc j :)
@[simp] theorem State.sealLog_pkgN (s : State) (kind : Nat) (b : BayNo) (detail : Nat) (data : List Word) (rtc fromReserve : Bool) (g : Field) (j : Nat) : (State.sealLog s kind b detail data rtc fromReserve).pkgN g j = s.pkgN g j :=
  (still_pkgN (s.sealLog_still kind b detail data rtc fromReserve) g j :)

end Sys2Proof.Machine
end

