-- ==== Sys2Proof/Laws/View.lean ====
section
/-! SUPPORT. How views pass through records, branches, folds and the updates of the state. -/
namespace Sys2Proof.Machine

/-- A part that shows in a coarser view shows as before. -/
theorem bif_through {α : Type} {a b : Bool} (v d : α) (h : (!(a && b)) = true) :
    (bif a then (bif !b then v else d) else d) = bif a then v else d := by
  cases a <;> cases b <;> first | rfl | exact absurd h (by decide)

theorem EthPkg.still_still (e : EthPkg) : e.still.still = e.still := by
  simp only [EthPkg.still, Vector.map_map]
  rfl

/-- The same for a part that shows after `f`, which clears its marks. -/
theorem bif_marked {α : Type} {a b : Bool} (f : α → α) (hf : ∀ x, f (f x) = f x) (v d : α) (hd : f d = d)
    (h : (!(a && b)) = true) : (bif a then f (bif !b then f v else d) else d) = bif a then f v else d := by
  cases a <;> cases b <;> first | rfl | exact hf v | exact hd | exact absurd h (by decide)

theorem AfeBay.unmarked_unmarked (x : AfeBay) : x.unmarked.unmarked = x.unmarked := by
  simp only [AfeBay.unmarked, Vector.map_map]; rfl

theorem Xfm.unmarked_unmarked (x : Xfm) : x.unmarked.unmarked = x.unmarked := by
  simp only [Xfm.unmarked, Vector.map_map]; rfl

theorem McoBay.unmarked_unmarked (x : McoBay) : x.unmarked.unmarked = x.unmarked := by
  simp only [McoBay.unmarked, Vector.map_map]; rfl

theorem Scn.unmarked_unmarked (x : Scn) : x.unmarked.unmarked = x.unmarked := by
  simp only [Scn.unmarked]

theorem LneBay.unmarked_unmarked (x : LneBay) : x.unmarked.unmarked = x.unmarked := by
  simp only [LneBay.unmarked, Vector.map_map]; rfl

theorem HkcBay.unmarked_unmarked (x : HkcBay) : x.unmarked.unmarked = x.unmarked := by
  simp only [HkcBay.unmarked, Vector.map_map]; rfl

theorem AuxBay.unmarked_unmarked (x : AuxBay) : x.unmarked.unmarked = x.unmarked := by
  simp only [AuxBay.unmarked]

theorem LnlBay.plain_plain (x : LnlBay) : x.plain.plain = x.plain := by
  simp only [LnlBay.plain, LnlBay.still, LnlBay.unmarked, Vector.map_map]; rfl

theorem AfeBay.unmarked_reset : (AfeBay.reset).unmarked = .reset := by
  simp [AfeBay.unmarked, AfeBay.reset] <;> rfl

theorem Xfm.unmarked_reset : (Xfm.reset).unmarked = .reset := by
  simp [Xfm.unmarked, Xfm.reset] <;> rfl

theorem McoBay.unmarked_reset : (McoBay.reset).unmarked = .reset := by
  simp [McoBay.unmarked, McoBay.reset] <;> rfl

theorem Scn.unmarked_reset : (Scn.reset).unmarked = .reset := by
  simp [Scn.unmarked, Scn.reset]

theorem LneBay.unmarked_reset : (LneBay.reset).unmarked = .reset := by
  simp [LneBay.unmarked, LneBay.reset] <;> rfl

theorem HkcBay.unmarked_reset : (HkcBay.reset).unmarked = .reset := by
  simp [HkcBay.unmarked, HkcBay.reset] <;> rfl

theorem AuxBay.unmarked_reset : (AuxBay.reset).unmarked = .reset := by
  simp [AuxBay.unmarked, AuxBay.reset]

theorem LnlBay.plain_reset : (LnlBay.reset).plain = .reset := by
  simp [LnlBay.plain, LnlBay.still, LnlBay.unmarked, LnlBay.reset] <;> rfl

theorem Bay.view_view (x : Bay) (p f : Parts) (h : p.apart f = true) : (x.view f.others).view p = x.view p := by
  simp only [Parts.apart, Bool.and_eq_true] at h
  obtain ⟨⟨⟨⟨⟨⟨⟨⟨⟨⟨⟨⟨⟨⟨⟨⟨⟨⟨⟨⟨⟨⟨⟨⟨⟨⟨⟨⟨⟨⟨⟨⟨⟨⟨⟨⟨⟨⟨⟨⟨p1, p2⟩, p3⟩, p4⟩, p5⟩, p6⟩, p7⟩, p8⟩, p9⟩, p10⟩, p11⟩, p12⟩, p13⟩, p14⟩, p15⟩, p16⟩, p17⟩, b1⟩, b2⟩, b3⟩, b4⟩, b5⟩, b6⟩, b7⟩, b8⟩, b9⟩, b10⟩, b11⟩, b12⟩, b13⟩, b14⟩, b15⟩, b16⟩, b17⟩, b18⟩, b19⟩, b20⟩, b21⟩, b22⟩, b23⟩, b24⟩ := h
  unfold Bay.view
  simp only [Parts.others]
  simp only [bif_through _ _ b1, bif_through _ _ b2, bif_through _ _ b3, bif_through _ _ b4, bif_through _ _ b5, bif_through _ _ b6, bif_through _ _ b8, bif_through _ _ b9, bif_through _ _ b11, bif_through _ _ b14, bif_through _ _ b16, bif_through _ _ b17, bif_through _ _ b18, bif_through _ _ b20, bif_through _ _ b23, bif_through _ _ b24,
    bif_marked AfeBay.unmarked AfeBay.unmarked_unmarked _ _ AfeBay.unmarked_reset b7, bif_marked Xfm.unmarked Xfm.unmarked_unmarked _ _ Xfm.unmarked_reset b10, bif_marked McoBay.unmarked McoBay.unmarked_unmarked _ _ McoBay.unmarked_reset b12, bif_marked Scn.unmarked Scn.unmarked_unmarked _ _ Scn.unmarked_reset b13, bif_marked LneBay.unmarked LneBay.unmarked_unmarked _ _ LneBay.unmarked_reset b15, bif_marked HkcBay.unmarked HkcBay.unmarked_unmarked _ _ HkcBay.unmarked_reset b21, bif_marked AuxBay.unmarked AuxBay.unmarked_unmarked _ _ AuxBay.unmarked_reset b22, bif_marked LnlBay.plain LnlBay.plain_plain _ _ LnlBay.plain_reset b19]

/-- The marks that start again in each epoch show in no view. -/
theorem Bay.view_freshEpoch (x : Bay) (p : Parts) : x.freshEpoch.view p = x.view p := by
  have h : x.lnl.unmarked.plain = x.lnl.plain := by
    simp only [LnlBay.plain, LnlBay.still, LnlBay.unmarked, Vector.map_map]; rfl
  simp only [Bay.view, Bay.freshEpoch, AfeBay.unmarked_unmarked, Xfm.unmarked_unmarked, McoBay.unmarked_unmarked, Scn.unmarked_unmarked,
    LneBay.unmarked_unmarked, HkcBay.unmarked_unmarked, AuxBay.unmarked_unmarked, h]

theorem Seal.view_view (k : Seal) (p f : Parts) (h1 : (!(p.keeper && f.keeper)) = true) (h2 : (!(p.fuses && f.fuses)) = true) :
    (k.view f.others).view p = k.view p := by
  simp only [Seal.view, Parts.others]
  revert h1 h2
  cases p.keeper <;> cases f.keeper <;> cases p.fuses <;> cases f.fuses <;> intro h1 h2 <;> first | rfl | exact absurd h1 (by decide) | exact absurd h2 (by decide)

/-- A view of fewer parts is a view of the view. -/
theorem State.view_view (s : State) (p f : Parts) (h : p.apart f = true) : (s.view f.others).view p = s.view p := by
  have hb : ((s.view f.others).bays).map (Bay.view p) = s.bays.map (Bay.view p) := by
    simp only [State.view, Vector.map_map]
    congr 1
    exact funext fun x => x.view_view p f h
  simp only [Parts.apart, Bool.and_eq_true] at h
  obtain ⟨⟨⟨⟨⟨⟨⟨⟨⟨⟨⟨⟨⟨⟨⟨⟨⟨⟨⟨⟨⟨⟨⟨⟨⟨⟨⟨⟨⟨⟨⟨⟨⟨⟨⟨⟨⟨⟨⟨⟨p1, p2⟩, p3⟩, p4⟩, p5⟩, p6⟩, p7⟩, p8⟩, p9⟩, p10⟩, p11⟩, p12⟩, p13⟩, p14⟩, p15⟩, p16⟩, p17⟩, b1⟩, b2⟩, b3⟩, b4⟩, b5⟩, b6⟩, b7⟩, b8⟩, b9⟩, b10⟩, b11⟩, b12⟩, b13⟩, b14⟩, b15⟩, b16⟩, b17⟩, b18⟩, b19⟩, b20⟩, b21⟩, b22⟩, b23⟩, b24⟩ := h
  have hk := s.keeper.view_view p f p7 p8
  have hi : (bif p.img then (s.view f.others).img.still else .reset) = bif p.img then s.img.still else .reset := by
    simp only [State.view, Parts.others]
    revert p3
    cases p.img <;> cases f.img <;> intro e <;> first | rfl | exact absurd e (by decide)
  have he : (bif p.eth then (s.view f.others).eth.still else .reset) = bif p.eth then s.eth.still else .reset := by
    simp only [State.view, Parts.others]
    revert p13
    cases p.eth <;> cases f.eth <;> intro e <;> first | rfl | exact absurd e (by decide) | exact s.eth.still_still
  have hd : (bif p.ident then { (bif !f.ident then { s.ident with accessTold := false } else .reset) with accessTold := false } else .reset) =
      bif p.ident then { s.ident with accessTold := false } else IdPkg.reset :=
    bif_marked (fun x : IdPkg => { x with accessTold := false }) (fun _ => rfl) _ _ rfl p12
  unfold State.view at hb hi he ⊢
  simp only [Parts.others] at hb hi he hk ⊢
  rw [hd]
  simp only [bif_through _ _ p1, bif_through _ _ p2, bif_through _ _ p4, bif_through _ _ p5, bif_through _ _ p6, bif_through _ _ p9, bif_through _ _ p10, bif_through _ _ p11, bif_through _ _ p14, bif_through _ _ p15, bif_through _ _ p16, bif_through _ _ p17, hb, hi, he, hk]

/-- Apart from some parts is apart from fewer. -/
theorem Parts.apart_of {q f : Parts} (g : Parts) (h : q.apart f = true) (e : g.plus f = f) : q.apart g = true := by
  rw [← e] at h
  simp only [Parts.apart, Parts.plus, Bool.and_or_distrib_left, Bool.not_or, Bool.and_eq_true] at h ⊢
  simp only [h, and_self]

theorem Parts.apart_plus {q f g : Parts} (h : q.apart f = true) (e : q.apart g = true) : q.apart (f.plus g) = true := by
  simp only [Parts.apart, Parts.plus, Bool.and_or_distrib_left, Bool.not_or, Bool.and_eq_true] at h e ⊢
  simp only [h, e, and_self]

/-- Views of everything but the parts `f` agree, so views apart from `f` agree. -/
theorem view_of {s t : State} {p : Parts} (f : Parts) (h : p.apart f = true) (e : t.view f.others = s.view f.others) :
    t.view p = s.view p := by
  rw [← State.view_view t p f h, e, State.view_view s p f h]

/-- What carries records shows in no view. -/
theorem State.view_still (s : State) (p : Parts) : s.still.view p = s.view p := by
  have hb : s.still.bays.map (Bay.view p) = s.bays.map (Bay.view p) := by
    simp only [State.still, Vector.map_map]
    rfl
  have he : s.still.eth.still = s.eth.still := s.eth.still_still
  have hk : s.still.keeper.view p = s.keeper.view p := by
    simp only [Seal.view, State.still]
    cases p.keeper <;> cases p.fuses <;> rfl
  unfold State.view
  rw [hb, he, hk]
  rfl

theorem view_of_still {s t : State} (p : Parts) (h : t.still = s.still) : t.view p = s.view p := by
  rw [← t.view_still, h, s.view_still]

theorem State.setBay_view (s : State) (b : BayNo) (x : Bay) (p : Parts) (h : x.view p = (s.bay b).view p) :
    (s.setBay b x).view p = s.view p := by
  have e : (s.bays.set b x).map (Bay.view p) = s.bays.map (Bay.view p) := by
    apply Vector.ext
    intro i hi
    by_cases hb : b.val = i
    · subst hb; simpa [State.bay] using h
    · simp [hb]
  simp only [State.setBay, State.view, e]

theorem State.modBay_view (s : State) (b : BayNo) (f : Bay → Bay) (p : Parts) (h : ∀ x : Bay, (f x).view p = x.view p) :
    (s.modBay b f).view p = s.view p := s.setBay_view b _ p (h _)

theorem State.mapBays_view (s : State) (f : Bay → Bay) (p : Parts) (h : ∀ x : Bay, (f x).view p = x.view p) :
    ({ s with bays := s.bays.map f } : State).view p = s.view p := by
  have e : (s.bays.map f).map (Bay.view p) = s.bays.map (Bay.view p) := by
    rw [Vector.map_map]
    congr 1
    exact funext h
  unfold State.view
  rw [e]

theorem State.modSeal_view (s : State) (f : Seal → Seal) (p : Parts) (h : (f s.keeper).view p = s.keeper.view p) :
    (s.modSeal f).view p = s.view p := by
  simp only [State.view, State.modSeal, h]

theorem State.modSeal_free {p : Parts} (h1 : p.keeper = false) (h2 : p.fuses = false) (s : State) (f : Seal → Seal) :
    (s.modSeal f).view p = s.view p :=
  s.modSeal_view f p (by simp only [Seal.view, h1, h2, cond_false])

theorem State.modSeal_open {p : Parts} (h : p.keeper = false) (s : State) (f : Seal → Seal)
    (h1 : ∀ k, (f k).fuses = k.fuses) (h2 : ∀ k, (f k).rowPending = k.rowPending) : (s.modSeal f).view p = s.view p :=
  s.modSeal_view f p (by simp only [Seal.view, h, cond_false]; cases p.fuses <;> simp only [cond_true, cond_false, h1, h2])

theorem view_ite (c : Prop) [Decidable c] (a b : State) (p : Parts) :
    (if c then a else b).view p = if c then a.view p else b.view p := apply_ite ..

theorem snd_ite {α β : Type} (c : Prop) [Decidable c] (a b : α × β) :
    (if c then a else b).2 = if c then a.2 else b.2 := apply_ite ..

theorem foldl_view {α : Type} (p : Parts) (f : State → α → State) (h : ∀ s a, (f s a).view p = s.view p) (l : List α) :
    ∀ s, (l.foldl f s).view p = s.view p := by
  induction l with
  | nil => intro s; rfl
  | cons a r ih => intro s; exact (ih _).trans (h s a)

theorem foldl_snd_view {α β : Type} (p : Parts) (f : β × State → α → β × State)
    (h : ∀ s a, (f s a).2.view p = s.2.view p) (l : List α) : ∀ s, (l.foldl f s).2.view p = s.2.view p := by
  induction l with
  | nil => intro s; rfl
  | cons a r ih => intro s; exact (ih _).trans (h s a)

theorem State.eachBay_view (p : Parts) (f : State → BayNo → State) (h : ∀ s b, (f s b).view p = s.view p) (s : State)
    (bs : List BayNo) : (s.eachBay bs f).view p = s.view p := foldl_view p f h bs s

/-- The view of the next state of an outcome. -/
def Out.view (p : Parts) (o : Out) : Option State :=
  match o with
  | .next s => some (s.view p)
  | _ => none

/-- The view of a state that may be missing, `l` where it is. -/
def viewOr (p : Parts) (l : State) (o : Option State) : State :=
  match o with
  | some s => s.view p
  | none => l

theorem viewOr_some (p : Parts) (l s : State) : viewOr p l (some s) = s.view p := rfl

theorem viewOr_none (p : Parts) (l : State) : viewOr p l none = l := rfl

theorem viewOr_ite (p : Parts) (l : State) (c : Prop) [Decidable c] (a b : Option State) :
    viewOr p l (if c then a else b) = if c then viewOr p l a else viewOr p l b := apply_ite ..

theorem view_of_some {p : Parts} {o : Option State} {l s : State} (h : viewOr p l o = l) (e : o = some s) : s.view p = l := by
  subst e; exact h

theorem afterOf_view {p : Parts} {o : Out} {l s : State} (h : Out.view p o = some l) (hs : s.view p = l) :
    (afterOf o s).view p = l := by
  cases o with
  | next t => exact Option.some.inj h
  | fault => exact hs
  | refused => exact hs

theorem out_view_next (p : Parts) (s : State) : Out.view p (.next s) = some (s.view p) := rfl

theorem next_view {p : Parts} {s t : State} (h : t.view p = s.view p) : Out.view p (.next t) = some (s.view p) := congrArg some h

theorem out_view_ite (p : Parts) (c : Prop) [Decidable c] (a b : Out) :
    Out.view p (if c then a else b) = if c then Out.view p a else Out.view p b := apply_ite ..

theorem out_view_of {s : State} {o : Out} {p : Parts} (f : Parts) (h : p.apart f = true)
    (e : Out.view f.others o = some (s.view f.others)) : Out.view p o = some (s.view p) := by
  cases o with
  | next t => exact congrArg some (view_of f h (Option.some.inj e))
  | fault => cases e
  | refused => cases e

theorem viewOr_of {s : State} {o : Option State} {p : Parts} (f : Parts) (h : p.apart f = true)
    (e : viewOr f.others (s.view f.others) o = s.view f.others) : viewOr p (s.view p) o = s.view p := by
  cases o with
  | none => rfl
  | some t => exact view_of f h e

theorem State.event_view (p : Parts) (s : State) (b : BayNo) (code : Nat) (w : List Word) (c : Bool) : (s.event b code w c).view p = s.view p :=
  view_of_still p (s.event_still b code w c)

theorem State.enqueue_view (p : Parts) (s : State) (b : BayNo) (q : Nat) (r : RecBody) : (s.enqueue b q r).view p = s.view p :=
  view_of_still p (s.enqueue_still b q r)

theorem State.takeFree_view (p : Parts) (s : State) (w : Nat) : (s.takeFree w).2.view p = s.view p :=
  view_of_still p (s.takeFree_still w)

theorem State.emit_view (p : Parts) (s : State) (o : Output) : (s.emit o).view p = s.view p :=
  view_of_still p (s.emit_still o)

theorem State.nextSeq_view (p : Parts) (s : State) (b : BayNo) (n : Nat) (r : RecType) : (s.nextSeq b n r).2.view p = s.view p :=
  view_of_still p (s.nextSeq_still b n r)

theorem State.ringWrite_view (p : Parts) (s : State) (r : Rec) : (s.ringWrite r).view p = s.view p :=
  view_of_still p (s.ringWrite_still r)

theorem State.ringEvent_view (p : Parts) (s : State) (r : Rec) (c : Bool) : (s.ringEvent r c).view p = s.view p :=
  view_of_still p (s.ringEvent_still r c)

theorem State.ringOnly_view (p : Parts) (s : State) (b : BayNo) (code : Nat) (w : List Word) (c : Bool) : (s.ringOnly b code w c).view p = s.view p :=
  view_of_still p (s.ringOnly_still b code w c)

theorem State.drawn_view (p : Parts) (s : State) (m r w i : Nat) : (s.drawn m r w i).2.view p = s.view p :=
  view_of_still p (s.drawn_still m r w i)

theorem State.modLink_view (p : Parts) (s : State) (b : BayNo) (n : Fin 5) (f : Injector → Injector) : (s.modLink b n f).view p = s.view p :=
  view_of_still p (s.modLink_still b n f)

theorem State.modInj_view (p : Parts) (s : State) (n : Fin 64) (f : Injector → Injector) : (s.modInj n f).view p = s.view p :=
  view_of_still p (s.modInj_still n f)

theorem State.linkDraw_view (p : Parts) (s : State) (b : BayNo) (n : Fin 5) (c : Nat) : (s.linkDraw b n c).2.2.view p = s.view p :=
  view_of_still p (s.linkDraw_still b n c)

theorem State.streamDraw_view (p : Parts) (s : State) (n : Fin 64) : (s.streamDraw n).2.view p = s.view p :=
  view_of_still p (s.streamDraw_still n)

theorem State.corrupt_view (p : Parts) (s : State) (r : Rec) : (s.corrupt r).2.view p = s.view p :=
  view_of_still p (s.corrupt_still r)

theorem State.passHeld_view (p : Parts) (s : State) (b : BayNo) (n : Fin 5) (c : Nat) : (s.passHeld b n c).2.view p = s.view p :=
  view_of_still p (s.passHeld_still b n c)

theorem State.holdPacket_view (p : Parts) (s : State) (b : BayNo) (n : Fin 5) (a : Nat) (w : HeldPacket) : (s.holdPacket b n a w).view p = s.view p :=
  view_of_still p (s.holdPacket_still b n a w)

theorem State.modQueue_view (p : Parts) (s : State) (b : BayNo) (i : Fin 16) (f : Queue → Queue) : (s.modQueue b i f).view p = s.view p :=
  view_of_still p (s.modQueue_still b i f)

theorem State.putEntry_view (p : Parts) (s : State) (b : BayNo) (i : Fin 16) (r : Rec) (v : Bool) : (s.putEntry b i r v).view p = s.view p :=
  view_of_still p (s.putEntry_still b i r v)

theorem State.putDropped_view (p : Parts) (s : State) (b : BayNo) (i : Fin 16) : (s.putDropped b i).view p = s.view p :=
  view_of_still p (s.putDropped_still b i)

theorem State.queueMarks_view (p : Parts) (s : State) (b : BayNo) (i : Fin 16) (n : Nat) (e : Bool) :
    (s.queueMarks b i n e).2.view p = s.view p :=
  view_of_still p (s.queueMarks_still b i n e)

theorem State.storeRec_view (p : Parts) (s : State) (b : BayNo) (i : Fin 16) (r : Rec) : (s.storeRec b i r).2.2.view p = s.view p :=
  view_of_still p (s.storeRec_still b i r)

theorem State.fenceDrop_view (p : Parts) (s : State) (b : BayNo) : (s.fenceDrop b).2.view p = s.view p :=
  view_of_still p (s.fenceDrop_still b)

theorem State.arrive_view (p : Parts) (s : State) (b : BayNo) (q : Nat) (r : Rec) : (s.arrive b q r).2.2.view p = s.view p :=
  view_of_still p (s.arrive_still b q r)

theorem State.arriveHeld_view (p : Parts) (s : State) (b : BayNo) (l : List HeldPacket) : (s.arriveHeld b l).2.view p = s.view p :=
  view_of_still p (s.arriveHeld_still b l)

theorem State.carry_view (p : Parts) (s : State) (b : BayNo) (q : Nat) (n : Fin 5) (a : Nat) (r : Rec) : (s.carry b q n a r).2.2.view p = s.view p :=
  view_of_still p (s.carry_still b q n a r)

theorem State.streamPick_view (p : Parts) (s : State) (b : BayNo) (i : Fin 16) : (s.streamPick b i).2.view p = s.view p :=
  view_of_still p (s.streamPick_still b i)

theorem State.handSeq_view (p : Parts) (s : State) (b qb : BayNo) (i : Fin 16) (r : RecBody) (n : Word) :
    (s.handSeq b qb i r n).2.2.view p = s.view p :=
  view_of_still p (s.handSeq_still b qb i r n)

theorem State.enqueueEach_view (p : Parts) (s : State) (b : BayNo) (l : List (Fin 16)) (r : RecBody) :
    (s.enqueueEach b l r).view p = s.view p :=
  view_of_still p (s.enqueueEach_still b l r)

theorem State.handRaw_view (p : Parts) (s : State) (b : BayNo) (q : Nat) (r : RecBody) : (s.handRaw b q r).2.2.view p = s.view p :=
  view_of_still p (s.handRaw_still b q r)

theorem State.contextDue_view (p : Parts) (s : State) (b : BayNo) (code : Nat) (w : List Word) : (s.contextDue b code w).view p = s.view p :=
  view_of_still p (s.contextDue_still b code w)

theorem State.queueEvents_view (p : Parts) (s : State) (l : List (BayNo × Nat × Nat)) : (s.queueEvents l).view p = s.view p :=
  view_of_still p (s.queueEvents_still l)

theorem State.handOver_view (p : Parts) (s : State) (b : BayNo) (q : Nat) (r : RecBody) : (s.handOver b q r).2.view p = s.view p :=
  view_of_still p (s.handOver_still b q r)

end Sys2Proof.Machine
end

