-- ==== Sys2Proof/Laws/Lasting.lean ====
section
/-! SUPPORT. The lasting parts of a state and its views. -/
namespace Sys2Proof.Machine

/-- The parts that hold what lasts. -/
abbrev Parts.lasting : Parts := { part := true, flash := true, fuses := true, pending := true }

theorem lasting_of_view {s t : State} (h : t.view .lasting = s.view .lasting) : t.lasting = s.lasting := by
  have h1 := congrArg State.part h
  have h2 := congrArg State.pending h
  have h3 := congrArg State.flash h
  have h4 := congrArg (fun u => u.keeper.fuses) h
  have h5 := congrArg (fun u => u.keeper.rowPending) h
  simp only [State.view, Seal.view, Parts.lasting, cond_true] at h1 h2 h3 h4 h5
  simp only [State.lasting, h1, h2, h3, h4, h5]

end Sys2Proof.Machine
end

