-- ==== Sys2Proof/Laws/Store.lean ====
section
/-! SUPPORT. Reads after writes of the sparse store, and every write keeps its canonical form. -/
namespace Sys2Proof

variable {α : Type}

theorem Sparse.get_erase (d : α) (m : Sparse α) (k j : Nat) :
    Sparse.get d (Sparse.erase m k) j = if j = k then d else Sparse.get d m j := by
  induction m with
  | nil => simp [Sparse.erase, Sparse.get]
  | cons e r ih =>
    obtain ⟨k', v⟩ := e
    simp only [Sparse.erase]
    split
    · next hk => subst hk; rw [ih]; by_cases hj : j = k <;> simp [Sparse.get, hj]
    · next hk =>
      simp only [Sparse.get, ih]
      by_cases hj : j = k
      · subst hj; simp [hk]
      · simp [hj]

theorem Sparse.get_of_above (d : α) (m : Sparse α) (k j : Nat) [DecidableEq α] (ha : Sparse.above k m = true)
    (hw : Sparse.wf d m = true) (h : j ≤ k) : Sparse.get d m j = d := by
  induction m generalizing k with
  | nil => rfl
  | cons e r ih =>
    obtain ⟨k', v⟩ := e
    simp only [Sparse.above, decide_eq_true_eq] at ha
    simp only [Sparse.wf, Bool.and_eq_true] at hw
    simp only [Sparse.get]
    rw [if_neg (by omega)]
    exact ih k' hw.1.2 hw.2 (by omega)

theorem Sparse.get_insert (d : α) (m : Sparse α) (k j : Nat) (v : α) :
    Sparse.get d (Sparse.insert m k v) j = if j = k then v else Sparse.get d m j := by
  induction m with
  | nil => simp [Sparse.insert, Sparse.get]
  | cons e r ih =>
    obtain ⟨k', v'⟩ := e
    simp only [Sparse.insert]
    split
    · simp [Sparse.get]
    · split
      · next h => subst h; by_cases hj : j = k <;> simp [Sparse.get, hj]
      · simp only [Sparse.get, ih]
        by_cases hj : j = k' <;> by_cases hk : j = k <;> simp_all

/-- A read after a write: the value written at its key, and what was there elsewhere. -/
theorem Sparse.get_set [DecidableEq α] (d : α) (m : Sparse α) (k j : Nat) (v : α) :
    Sparse.get d (Sparse.set d m k v) j = if j = k then v else Sparse.get d m j := by
  unfold Sparse.set
  split
  · next h => subst h; exact Sparse.get_erase _ m k j
  · exact Sparse.get_insert d m k j v

theorem Sparse.above_erase [DecidableEq α] (d : α) (m : Sparse α) (k i : Nat) (hw : Sparse.wf d m = true)
    (ha : Sparse.above i m = true) : Sparse.above i (Sparse.erase m k) = true := by
  induction m generalizing i with
  | nil => rfl
  | cons e r ih =>
    obtain ⟨k', v⟩ := e
    simp only [Sparse.wf, Bool.and_eq_true] at hw
    simp only [Sparse.above, decide_eq_true_eq] at ha
    simp only [Sparse.erase]
    split
    · refine ih i hw.2 ?_
      cases r with
      | nil => rfl
      | cons e r =>
        have := hw.1.2
        simp only [Sparse.above, decide_eq_true_eq] at this ⊢
        omega
    · simp only [Sparse.above, decide_eq_true_eq]; exact ha

theorem Sparse.above_insert (m : Sparse α) (k i : Nat) (v : α) (ha : Sparse.above i m = true) (h : i < k) :
    Sparse.above i (Sparse.insert m k v) = true := by
  cases m with
  | nil => simp [Sparse.insert, Sparse.above, h]
  | cons e r =>
    obtain ⟨k', v'⟩ := e
    simp only [Sparse.above, decide_eq_true_eq] at ha
    simp only [Sparse.insert]
    split
    · simp [Sparse.above, h]
    · split <;> simp [Sparse.above, h, ha]

theorem Sparse.wf_erase [DecidableEq α] (d : α) (m : Sparse α) (k : Nat) (hw : Sparse.wf d m = true) :
    Sparse.wf d (Sparse.erase m k) = true := by
  induction m with
  | nil => rfl
  | cons e r ih =>
    obtain ⟨k', v⟩ := e
    have h := hw
    simp only [Sparse.wf, Bool.and_eq_true] at h
    simp only [Sparse.erase]
    split
    · exact ih h.2
    · simp only [Sparse.wf, Bool.and_eq_true]
      exact ⟨⟨h.1.1, Sparse.above_erase d r k k' h.2 h.1.2⟩, ih h.2⟩

theorem Sparse.wf_insert [DecidableEq α] (d : α) (m : Sparse α) (k : Nat) (v : α) (hw : Sparse.wf d m = true) (hv : v ≠ d) :
    Sparse.wf d (Sparse.insert m k v) = true := by
  induction m with
  | nil => simp [Sparse.insert, Sparse.wf, Sparse.above, hv]
  | cons e r ih =>
    obtain ⟨k', v'⟩ := e
    have h := hw
    simp only [Sparse.wf, Bool.and_eq_true, decide_eq_true_eq] at h
    simp only [Sparse.insert]
    split
    · next hk => simp only [Sparse.wf, Sparse.above, Bool.and_eq_true, decide_eq_true_eq]; exact ⟨⟨hv, hk⟩, h⟩
    · split
      · next hk => subst hk; simp only [Sparse.wf, Bool.and_eq_true, decide_eq_true_eq]; exact ⟨⟨hv, h.1.2⟩, h.2⟩
      · next h1 h2 =>
        simp only [Sparse.wf, Bool.and_eq_true, decide_eq_true_eq]
        exact ⟨⟨h.1.1, Sparse.above_insert r k k' v h.1.2 (by omega)⟩, ih h.2⟩

/-- A write keeps the canonical form. -/
theorem Sparse.wf_set [DecidableEq α] (d : α) (m : Sparse α) (k : Nat) (v : α) (hw : Sparse.wf d m = true) :
    Sparse.wf d (Sparse.set d m k v) = true := by
  unfold Sparse.set
  split
  · exact Sparse.wf_erase d m k hw
  · next h => exact Sparse.wf_insert d m k v hw h

/-- A run of writes keeps the canonical form. -/
theorem Sparse.wf_setRun [DecidableEq α] (d : α) (m : Sparse α) (k : Nat) (vs : List α) (hw : Sparse.wf d m = true) :
    Sparse.wf d (Sparse.setRun d m k vs) = true := by
  induction vs generalizing m k with
  | nil => exact hw
  | cons v r ih => exact ih _ _ (Sparse.wf_set d m k v hw)

/-- A run of writes reads back, and leaves every other key as it was. -/
theorem Sparse.get_setRun [DecidableEq α] (d : α) (m : Sparse α) (k j : Nat) (vs : List α) :
    Sparse.get d (Sparse.setRun d m k vs) j = if k ≤ j ∧ j < k + vs.length then vs.getD (j - k) d else Sparse.get d m j := by
  induction vs generalizing m k with
  | nil => simp [Sparse.setRun] <;> omega
  | cons v r ih =>
    simp only [Sparse.setRun, List.length_cons]
    rw [ih, Sparse.get_set]
    by_cases h : j = k
    · subst h
      rw [if_neg (by omega), if_pos rfl, if_pos (by omega), Nat.sub_self, List.getD_cons_zero]
    · by_cases h1 : k + 1 ≤ j ∧ j < k + 1 + r.length
      · rw [if_pos h1, if_pos (by omega)]
        obtain ⟨n, hn⟩ : ∃ n, j - k = n + 1 := ⟨j - k - 1, by omega⟩
        rw [hn, List.getD_cons_succ]
        congr 1
        omega
      · rw [if_neg h1, if_neg h, if_neg (by omega)]

/-- Dropping keys by their place keeps the canonical form. -/
theorem Sparse.wf_filter [DecidableEq α] (d : α) (m : Sparse α) (p : Nat → Bool) (hw : Sparse.wf d m = true) :
    Sparse.wf d (m.filter fun c => p c.1) = true := by
  induction m with
  | nil => rfl
  | cons e r ih =>
    obtain ⟨k', v⟩ := e
    simp only [Sparse.wf, Bool.and_eq_true, decide_eq_true_eq] at hw
    have key : ∀ (i : Nat) (m : Sparse α), Sparse.wf d m = true → Sparse.above i m = true →
        Sparse.above i (m.filter fun c => p c.1) = true := by
      intro i m
      induction m generalizing i with
      | nil => intros; rfl
      | cons e r ih =>
        obtain ⟨k', v⟩ := e
        intro hw ha
        simp only [Sparse.wf, Bool.and_eq_true, decide_eq_true_eq] at hw
        simp only [Sparse.above, decide_eq_true_eq] at ha
        simp only [List.filter_cons]
        split
        · simp only [Sparse.above, decide_eq_true_eq]; exact ha
        · have h := ih k' hw.2 hw.1.2
          cases hr : r.filter fun c => p c.1 with
          | nil => rfl
          | cons e q =>
            obtain ⟨k2, v2⟩ := e
            rw [hr] at h
            simp only [Sparse.above, decide_eq_true_eq] at h ⊢
            omega
    simp only [List.filter_cons]
    split
    · simp only [Sparse.wf, Bool.and_eq_true, decide_eq_true_eq]
      exact ⟨⟨hw.1.1, key k' r hw.2 hw.1.2⟩, ih hw.2⟩
    · exact ih hw.2

end Sys2Proof
end

