-- ==== Sys2Proof/Laws/View/Ops.lean ====
section
/-! SUPPORT. Which parts the operations of Machine/Ops.lean leave as they were. -/
namespace Sys2Proof.Machine

theorem State.modSel_view {q : Parts} (hq : q.apart { sel := true } = true) (s : State) (f : Selector → Selector) : (State.modSel s f).view q = s.view q := by
  refine view_of { sel := true } hq ?_
  unfold State.modSel
  first | rfl | (exact State.modBay_view _ _ _ _ (fun _ => rfl)) | (dsimp only; repeat' (first | rfl | split))

theorem State.modTbsPkg_view {q : Parts} (hq : q.apart { tbs := true } = true) (s : State) (f : TbsPkg → TbsPkg) : (State.modTbsPkg s f).view q = s.view q := by
  refine view_of { tbs := true } hq ?_
  unfold State.modTbsPkg
  first | rfl | (exact State.modBay_view _ _ _ _ (fun _ => rfl)) | (dsimp only; repeat' (first | rfl | split))

theorem State.modImg_view {q : Parts} (hq : q.apart { img := true } = true) (s : State) (f : Img → Img) : (State.modImg s f).view q = s.view q := by
  refine view_of { img := true } hq ?_
  unfold State.modImg
  first | rfl | (exact State.modBay_view _ _ _ _ (fun _ => rfl)) | (dsimp only; repeat' (first | rfl | split))

theorem State.modPwr_view {q : Parts} (hq : q.apart { pwr := true } = true) (s : State) (f : PwrPkg → PwrPkg) : (State.modPwr s f).view q = s.view q := by
  refine view_of { pwr := true } hq ?_
  unfold State.modPwr
  first | rfl | (exact State.modBay_view _ _ _ _ (fun _ => rfl)) | (dsimp only; repeat' (first | rfl | split))

theorem State.modLnlPkg_view {q : Parts} (hq : q.apart { fabric := true } = true) (s : State) (f : LnlPkg → LnlPkg) : (State.modLnlPkg s f).view q = s.view q := by
  refine view_of { fabric := true } hq ?_
  unfold State.modLnlPkg
  first | rfl | (exact State.modBay_view _ _ _ _ (fun _ => rfl)) | (dsimp only; repeat' (first | rfl | split))

theorem State.modEthPkg_view {q : Parts} (hq : q.apart { eth := true } = true) (s : State) (f : EthPkg → EthPkg) : (State.modEthPkg s f).view q = s.view q := by
  refine view_of { eth := true } hq ?_
  unfold State.modEthPkg
  first | rfl | (exact State.modBay_view _ _ _ _ (fun _ => rfl)) | (dsimp only; repeat' (first | rfl | split))

theorem State.modIdent_view {q : Parts} (hq : q.apart { ident := true } = true) (s : State) (f : IdPkg → IdPkg) : (State.modIdent s f).view q = s.view q := by
  refine view_of { ident := true } hq ?_
  unfold State.modIdent
  first | rfl | (exact State.modBay_view _ _ _ _ (fun _ => rfl)) | (dsimp only; repeat' (first | rfl | split))

theorem State.modFaults_view {q : Parts} (hq : q.apart { faults := true } = true) (s : State) (f : FaultLog → FaultLog) : (State.modFaults s f).view q = s.view q := by
  refine view_of { faults := true } hq ?_
  unfold State.modFaults
  first | rfl | (exact State.modBay_view _ _ _ _ (fun _ => rfl)) | (dsimp only; repeat' (first | rfl | split))

theorem State.modTrg_view {q : Parts} (hq : q.apart { trg := true } = true) (s : State) (f : TrgPkg → TrgPkg) : (State.modTrg s f).view q = s.view q := by
  refine view_of { trg := true } hq ?_
  unfold State.modTrg
  first | rfl | (exact State.modBay_view _ _ _ _ (fun _ => rfl)) | (dsimp only; repeat' (first | rfl | split))

theorem State.modInjPkg_view {q : Parts} (hq : q.apart { kill := true } = true) (s : State) (f : InjPkg → InjPkg) : (State.modInjPkg s f).view q = s.view q := by
  refine view_of { kill := true } hq ?_
  unfold State.modInjPkg
  first | rfl | (exact State.modBay_view _ _ _ _ (fun _ => rfl)) | (dsimp only; repeat' (first | rfl | split))

theorem State.modFlash_view {q : Parts} (hq : q.apart { flash := true } = true) (s : State) (f : Flash → Flash) : (State.modFlash s f).view q = s.view q := by
  refine view_of { flash := true } hq ?_
  unfold State.modFlash
  first | rfl | (exact State.modBay_view _ _ _ _ (fun _ => rfl)) | (dsimp only; repeat' (first | rfl | split))

theorem State.modVals_view {q : Parts} (hq : q.apart { vals := true } = true) (s : State) (f : Sparse (Option Int) → Sparse (Option Int)) : (State.modVals s f).view q = s.view q := by
  refine view_of { vals := true } hq ?_
  unfold State.modVals
  first | rfl | (exact State.modBay_view _ _ _ _ (fun _ => rfl)) | (dsimp only; repeat' (first | rfl | split))

theorem State.outsLow_view {q : Parts} (hq : q.apart { trg := true } = true) (s : State) : (State.outsLow s).view q = s.view q := by
  refine view_of { trg := true } hq ?_
  unfold State.outsLow
  try dsimp only
  repeat' (first | rfl | with_reducible (first | rfl | refine next_view ?_ | exact State.modBay_view _ _ _ _ (fun _ => rfl) | exact State.modSeal_view _ _ _ rfl | refine (State.modSeal_view _ _ _ rfl).trans ?_ | refine (State.modSeal_free (by decide) (by decide) ..).trans ?_ | refine (State.emit_view ..).trans ?_) | (refine (State.modBay_view _ _ _ _ ?hb).trans ?_; case hb => exact fun _ => rfl) | split | (refine foldl_view _ _ (fun _ _ => ?_) _ _; try dsimp only) | (refine (foldl_view _ _ (fun _ _ => ?_) _ _).trans ?_; try dsimp only) | (refine (State.eachBay_view _ _ (fun _ _ => ?_) _ _).trans ?_; try dsimp only))

theorem State.quietTime_view {q : Parts} (hq : q.apart { time := true } = true) (s : State) (d : Nat) : (s.quietTime d).view q = s.view q := by
  refine view_of { time := true } hq ?_
  have h : ∀ (x : Bay) (y : TbsBay), ({ x with tbs := y } : Bay).view (Parts.others { time := true }) = x.view (Parts.others { time := true }) := fun _ _ => rfl
  unfold State.quietTime
  split
  · rfl
  · refine Eq.trans (b := ({ s with bays := s.bays.map fun y => y.quieten d } : State).view (Parts.others { time := true })) rfl ?_
    refine State.mapBays_view s _ _ fun x => ?_
    unfold Bay.quieten
    refine (h _ _).trans ?_
    split
    · rfl
    · exact x.view_freshEpoch _

theorem State.passTime_view {q : Parts} (hq : q.apart { time := true } = true) (s : State) (d : Nat) : (s.passTime d).view q = s.view q := by
  unfold State.passTime
  generalize s.slewMax = v
  generalize d * 2 ^ 32 = n
  refine (State.quietTime_view hq _ d).trans (view_of { time := true } hq ?_)
  refine State.mapBays_view _ _ _ fun x => ?_
  have h : ∀ (x : Bay) (y : TbsBay), ({ x with tbs := y } : Bay).view (Parts.others { time := true }) = x.view (Parts.others { time := true }) := fun _ _ => rfl
  unfold Bay.advance
  split <;> exact h _ _

theorem State.reach_view {q : Parts} (hq : q.apart { time := true } = true) (s : State) (t : Stamp) : (State.reach s t).view q = s.view q := by
  refine view_of { time := true } hq ?_
  simp only [State.reach, ↓view_ite, ite_self, ↓State.passTime_view (q := Parts.others { time := true }) (by decide)]

theorem State.modLnl_view {q : Parts} (hq : q.apart { links := true } = true) (s : State) (b : BayNo) (f : LnlBay → LnlBay) : (State.modLnl s b f).view q = s.view q := by
  refine view_of { links := true } hq ?_
  unfold State.modLnl
  exact State.modBay_view _ _ _ _ (fun _ => rfl)

theorem State.modDom_view {q : Parts} (hq : q.apart { domains := true } = true) (s : State) (b : BayNo) (f : PwrBay → PwrBay) : (State.modDom s b f).view q = s.view q := by
  refine view_of { domains := true } hq ?_
  unfold State.modDom
  exact State.modBay_view _ _ _ _ (fun _ => rfl)

theorem State.asleepAccess_view {q : Parts} (hq : q.apart { domains := true } = true) (s : State) (b : BayNo) (d : Domain) : (s.asleepAccess b d).view q = s.view q := by
  refine view_of { domains := true } hq ?_
  unfold State.asleepAccess
  split
  · rfl
  · exact (State.event_view ..).trans (State.modDom_view (q := Parts.others { domains := true }) (by decide) ..)

theorem State.fencedAccess_view {q : Parts} (hq : q.apart { domains := true } = true) (s : State) (b : BayNo) (d : Domain) : (State.fencedAccess s b d).view q = s.view q := by
  refine view_of { domains := true } hq ?_
  simp only [State.fencedAccess, ↓view_ite, ite_self, ↓State.asleepAccess_view (q := Parts.others { domains := true }) (by decide)]

theorem State.discarded_view {q : Parts} (s : State) (addr path : Nat) : (s.discarded addr path).view q = s.view q := by
  unfold State.discarded
  split
  · rfl
  · exact (State.event_view ..).trans rfl

theorem State.alert_view {q : Parts} (hq : q.apart { ident := true } = true) (s : State) (i : Nat) : (State.alert s i).view q = s.view q := by
  refine view_of { ident := true } hq ?_
  simp only [State.alert, ↓State.modIdent_view (q := Parts.others { ident := true }) (by decide)]

theorem State.sealLog_view {q : Parts} (hq : q.apart { keeper := true } = true) (s : State) (kind : Nat) (b : BayNo) (detail : Nat) (data : List Word) (rtc : Bool) (fromReserve : Bool) : (State.sealLog s kind b detail data rtc fromReserve).view q = s.view q := by
  refine view_of { keeper := true } hq ?_
  unfold State.sealLog
  try dsimp only
  repeat' (first | rfl | with_reducible (first | rfl | refine next_view ?_ | exact State.modBay_view _ _ _ _ (fun _ => rfl) | exact State.modSeal_view _ _ _ rfl | refine (State.modSeal_view _ _ _ rfl).trans ?_ | refine (State.modSeal_free (by decide) (by decide) ..).trans ?_ | refine (State.event_view ..).trans ?_) | (refine (State.modBay_view _ _ _ _ ?hb).trans ?_; case hb => exact fun _ => rfl) | split | (refine foldl_view _ _ (fun _ _ => ?_) _ _; try dsimp only) | (refine (foldl_view _ _ (fun _ _ => ?_) _ _).trans ?_; try dsimp only) | (refine (State.eachBay_view _ _ (fun _ _ => ?_) _ _).trans ?_; try dsimp only))

theorem State.faultOpen_view {q : Parts} (hq : q.apart { faults := true } = true) (s : State) (f : FaultId) (since : Stamp) : (State.faultOpen s f since).view q = s.view q := by
  refine view_of { faults := true } hq ?_
  simp only [State.faultOpen]
  repeat' split
  all_goals simp only [↓State.event_view, ↓State.modFaults_view (q := Parts.others { faults := true }) (by decide)]

theorem State.faultEnd_view {q : Parts} (hq : q.apart { faults := true } = true) (s : State) (f : FaultId) : (State.faultEnd s f).view q = s.view q := by
  refine view_of { faults := true } hq ?_
  simp only [State.faultEnd]
  repeat' split
  all_goals simp only [↓State.event_view, ↓State.modFaults_view (q := Parts.others { faults := true }) (by decide)]

theorem State.faultDrop_view {q : Parts} (hq : q.apart { faults := true } = true) (s : State) (p : FaultId → Bool) : (State.faultDrop s p).view q = s.view q := by
  refine view_of { faults := true } hq ?_
  simp only [State.faultDrop, ↓State.modFaults_view (q := Parts.others { faults := true }) (by decide)]

theorem State.faultRepair_view {q : Parts} (hq : q.apart { faults := true } = true) (s : State) (f : FaultId) : (State.faultRepair s f).view q = s.view q := by
  refine view_of { faults := true } hq ?_
  simp only [State.faultRepair, ↓State.modFaults_view (q := Parts.others { faults := true }) (by decide)]

end Sys2Proof.Machine
end

