-- ==== Sys2Proof/Laws/View/Clk.lean ====
section
/-! SUPPORT. Which parts the operations of Machine/Clk.lean leave as they were. -/
namespace Sys2Proof.Machine

theorem State.modClk_view {q : Parts} (hq : q.apart { clk := true } = true) (s : State) (b : BayNo) (f : ClkBay → ClkBay) : (State.modClk s b f).view q = s.view q := by
  refine view_of { clk := true } hq ?_
  unfold State.modClk
  exact State.modBay_view _ _ _ _ (fun _ => rfl)

theorem State.freezeDpll_view {q : Parts} (hq : q.apart { clk := true } = true) (s : State) (b : BayNo) : (State.freezeDpll s b).view q = s.view q := by
  refine view_of { clk := true } hq ?_
  simp only [State.freezeDpll, ↓view_ite, ite_self, ↓State.modClk_view (q := Parts.others { clk := true }) (by decide)]

theorem State.openEpisode_view {q : Parts} (hq : q.apart { sel := true } = true) (s : State) (sel : Selector) : (State.openEpisode s sel).view q = s.view q := by
  refine view_of { sel := true } hq ?_
  simp only [State.openEpisode, ↓view_ite, ite_self, ↓State.modSel_view (q := Parts.others { sel := true }) (by decide)]

theorem State.countSwitch_view {q : Parts} (hq : q.apart { clk := true } = true) (s : State) : (State.countSwitch s).view q = s.view q := by
  refine view_of { clk := true } hq ?_
  simp only [State.countSwitch, ↓State.eachBay_view, implies_true, ↓State.modClk_view (q := Parts.others { clk := true }) (by decide)]

theorem State.beginBuildOut_view {q : Parts} (hq : q.apart { sel := true, clk := true } = true) (s : State) (old : Option Cand) (c : Cand) (tell : Bool) : (State.beginBuildOut s old c tell).view q = s.view q := by
  refine view_of { sel := true, clk := true } hq ?_
  simp only [State.beginBuildOut, ↓view_ite, ite_self, ↓State.modSel_view (q := Parts.others { sel := true, clk := true }) (by decide), ↓State.event_view, ↓State.countSwitch_view (q := Parts.others { sel := true, clk := true }) (by decide)]

theorem State.maybeSwitchBack_view {q : Parts} (hq : q.apart { sel := true, clk := true } = true) (s : State) : s.maybeSwitchBack.view q = s.view q := by
  refine view_of { sel := true, clk := true } hq ?_
  unfold State.maybeSwitchBack
  split
  · rfl
  · exact (State.beginBuildOut_view (q := Parts.others { sel := true, clk := true }) (by decide) ..).trans (State.openEpisode_view (q := Parts.others { sel := true, clk := true }) (by decide) ..)

theorem State.noteLoss_view {q : Parts} (hq : q.apart { clk := true } = true) (s : State) (b : BayNo) (c : Cand) (silent : Bool) : (State.noteLoss s b c silent).view q = s.view q := by
  refine view_of { clk := true } hq ?_
  simp only [State.noteLoss, ↓State.modClk_view (q := Parts.others { clk := true }) (by decide)]

theorem execRefLossDetect_view {q : Parts} (hq : q.apart { sel := true, faults := true, clk := true, time := true } = true) (b : BayNo) (c : Cand) (t0 : Stamp) (silent : Bool) (sIn : State) : Out.view q (execRefLossDetect b c t0 silent sIn) = some (sIn.view q) := by
  refine out_view_of { sel := true, faults := true, clk := true, time := true } hq ?_
  simp only [execRefLossDetect, ↓view_ite, ↓out_view_ite, ↓out_view_next, ite_self, ↓State.reach_view (q := Parts.others { sel := true, faults := true, clk := true, time := true }) (by decide), ↓State.faultOpen_view (q := Parts.others { sel := true, faults := true, clk := true, time := true }) (by decide), ↓State.freezeDpll_view (q := Parts.others { sel := true, faults := true, clk := true, time := true }) (by decide), ↓State.openEpisode_view (q := Parts.others { sel := true, faults := true, clk := true, time := true }) (by decide), ↓State.noteLoss_view (q := Parts.others { sel := true, faults := true, clk := true, time := true }) (by decide)]

theorem State.noteDeglitch_view {q : Parts} (hq : q.apart { clk := true } = true) (s : State) (resumed : Bool) (lost choice : Option Cand) : (State.noteDeglitch s resumed lost choice).view q = s.view q := by
  refine view_of { clk := true } hq ?_
  simp only [State.noteDeglitch]
  repeat' split
  all_goals simp only [↓State.eachBay_view, implies_true, ↓State.modClk_view (q := Parts.others { clk := true }) (by decide), ↓State.freezeDpll_view (q := Parts.others { clk := true }) (by decide)]

theorem State.endRefFault_view {q : Parts} (hq : q.apart { faults := true } = true) (s : State) (lost : Option Cand) : (State.endRefFault s lost).view q = s.view q := by
  refine view_of { faults := true } hq ?_
  simp only [State.endRefFault]
  repeat' split
  all_goals simp only [↓State.faultEnd_view (q := Parts.others { faults := true }) (by decide)]

theorem State.beginHoldover_view {q : Parts} (hq : q.apart { sel := true } = true) (s : State) : (State.beginHoldover s).view q = s.view q := by
  refine view_of { sel := true } hq ?_
  simp only [State.beginHoldover, ↓State.modSel_view (q := Parts.others { sel := true }) (by decide), ↓State.event_view]

theorem State.endDeglitch_view {q : Parts} (hq : q.apart { sel := true, faults := true, clk := true } = true) (s : State) (resumed : Bool) (lost choice : Option Cand) : (State.endDeglitch s resumed lost choice).view q = s.view q := by
  refine view_of { sel := true, faults := true, clk := true } hq ?_
  simp only [State.endDeglitch, ↓view_ite, ite_self, ↓State.modSel_view (q := Parts.others { sel := true, faults := true, clk := true }) (by decide), ↓State.event_view, ↓State.noteDeglitch_view (q := Parts.others { sel := true, faults := true, clk := true }) (by decide), ↓State.endRefFault_view (q := Parts.others { sel := true, faults := true, clk := true }) (by decide)]

theorem execRefDeglitchEnd_view {q : Parts} (hq : q.apart { sel := true, faults := true, clk := true, time := true } = true) (resumed : Bool) (s0 : State) : Out.view q (execRefDeglitchEnd resumed s0) = some (s0.view q) := by
  refine out_view_of { sel := true, faults := true, clk := true, time := true } hq ?_
  simp only [execRefDeglitchEnd]
  repeat' split
  all_goals simp only [↓out_view_next, ↓State.reach_view (q := Parts.others { sel := true, faults := true, clk := true, time := true }) (by decide), ↓State.beginBuildOut_view (q := Parts.others { sel := true, faults := true, clk := true, time := true }) (by decide), ↓State.beginHoldover_view (q := Parts.others { sel := true, faults := true, clk := true, time := true }) (by decide), ↓State.endDeglitch_view (q := Parts.others { sel := true, faults := true, clk := true, time := true }) (by decide)]

theorem execBuildOutEnd_view {q : Parts} (hq : q.apart { sel := true, clk := true, time := true } = true) (phase : Int) (s : State) : Out.view q (execBuildOutEnd phase s) = some (s.view q) := by
  refine out_view_of { sel := true, clk := true, time := true } hq ?_
  simp only [execBuildOutEnd, ↓out_view_ite, ↓out_view_next, ↓State.eachBay_view, ite_self, implies_true, ↓State.modSel_view (q := Parts.others { sel := true, clk := true, time := true }) (by decide), ↓State.reach_view (q := Parts.others { sel := true, clk := true, time := true }) (by decide), ↓State.modClk_view (q := Parts.others { sel := true, clk := true, time := true }) (by decide)]

theorem execPullInDone_view {q : Parts} (hq : q.apart { sel := true, clk := true, time := true } = true) (freq : Int) (s : State) : Out.view q (execPullInDone freq s) = some (s.view q) := by
  refine out_view_of { sel := true, clk := true, time := true } hq ?_
  simp only [execPullInDone, ↓out_view_ite, ↓out_view_next, ↓State.eachBay_view, ite_self, implies_true, ↓State.modSel_view (q := Parts.others { sel := true, clk := true, time := true }) (by decide), ↓State.reach_view (q := Parts.others { sel := true, clk := true, time := true }) (by decide), ↓State.event_view, ↓State.modClk_view (q := Parts.others { sel := true, clk := true, time := true }) (by decide), ↓State.maybeSwitchBack_view (q := Parts.others { sel := true, clk := true, time := true }) (by decide)]

theorem State.takeQualified_view {q : Parts} (hq : q.apart { sel := true, clk := true } = true) (s : State) (c : Cand) : (State.takeQualified s c).view q = s.view q := by
  refine view_of { sel := true, clk := true } hq ?_
  simp only [State.takeQualified, ↓view_ite, ite_self, ↓State.event_view, ↓State.openEpisode_view (q := Parts.others { sel := true, clk := true }) (by decide), ↓State.beginBuildOut_view (q := Parts.others { sel := true, clk := true }) (by decide), ↓State.maybeSwitchBack_view (q := Parts.others { sel := true, clk := true }) (by decide)]

theorem execRefQualified_view {q : Parts} (hq : q.apart { sel := true, faults := true, clk := true, time := true } = true) (b : BayNo) (c : Cand) (off : Int) (s0 : State) : Out.view q (execRefQualified b c off s0) = some (s0.view q) := by
  refine out_view_of { sel := true, faults := true, clk := true, time := true } hq ?_
  simp only [execRefQualified, ↓out_view_ite, ↓out_view_next, ite_self, ↓State.reach_view (q := Parts.others { sel := true, faults := true, clk := true, time := true }) (by decide), ↓State.faultRepair_view (q := Parts.others { sel := true, faults := true, clk := true, time := true }) (by decide), ↓State.modClk_view (q := Parts.others { sel := true, faults := true, clk := true, time := true }) (by decide), ↓State.takeQualified_view (q := Parts.others { sel := true, faults := true, clk := true, time := true }) (by decide)]

theorem execRefDisqualified_view {q : Parts} (hq : q.apart { clk := true } = true) (b : BayNo) (c : Cand) (off : Int) (s : State) : Out.view q (execRefDisqualified b c off s) = some (s.view q) := by
  refine out_view_of { clk := true } hq ?_
  simp only [execRefDisqualified, ↓out_view_ite, ↓out_view_next, ite_self, ↓State.modClk_view (q := Parts.others { clk := true }) (by decide)]

theorem execClkSysrefFire_view {q : Parts} (hq : q.apart { clk := true } = true) (b : BayNo) (s : State) : Out.view q (execClkSysrefFire b s) = some (s.view q) := by
  refine out_view_of { clk := true } hq ?_
  simp only [execClkSysrefFire, ↓out_view_ite, ↓out_view_next, ite_self, ↓State.modClk_view (q := Parts.others { clk := true }) (by decide)]

theorem execClkFaultCntRead_view {q : Parts} (hq : q.apart { clk := true } = true) (b : BayNo) (s : State) : Out.view q (execClkFaultCntRead b s) = some (s.view q) := by
  refine out_view_of { clk := true } hq ?_
  simp only [execClkFaultCntRead, ↓out_view_ite, ↓out_view_next, ite_self, ↓State.modClk_view (q := Parts.others { clk := true }) (by decide)]

theorem execSpllLolClear_view {q : Parts} (hq : q.apart { clk := true } = true) (b : BayNo) (s : State) : Out.view q (execSpllLolClear b s) = some (s.view q) := by
  refine out_view_of { clk := true } hq ?_
  simp only [execSpllLolClear, ↓out_view_ite, ↓out_view_next, ite_self, ↓State.modClk_view (q := Parts.others { clk := true }) (by decide)]

theorem execSpllStuckTimeout_view {q : Parts} (hq : q.apart { clk := true } = true) (b : BayNo) (s : State) : Out.view q (execSpllStuckTimeout b s) = some (s.view q) := by
  refine out_view_of { clk := true } hq ?_
  simp only [execSpllStuckTimeout, ↓out_view_ite, ↓out_view_next, ite_self, ↓State.event_view, ↓State.modClk_view (q := Parts.others { clk := true }) (by decide)]

end Sys2Proof.Machine
end

