-- ==== Sys2Proof/Laws/View/Tbs.lean ====
section
/-! SUPPORT. Which parts the operations of Machine/Tbs.lean leave as they were. -/
namespace Sys2Proof.Machine

theorem State.modTbs_view {q : Parts} (hq : q.apart { time := true } = true) (s : State) (b : BayNo) (f : TbsBay → TbsBay) : (State.modTbs s b f).view q = s.view q := by
  refine view_of { time := true } hq ?_
  unfold State.modTbs
  exact State.modBay_view _ _ _ _ (fun _ => rfl)

theorem State.modGrid_view {q : Parts} (hq : q.apart { tbs := true } = true) (s : State) (f : Grid → Grid) : (State.modGrid s f).view q = s.view q := by
  refine view_of { tbs := true } hq ?_
  unfold State.modGrid
  dsimp only
  repeat' (first | rfl | with_reducible (first | rfl | refine next_view ?_ | exact State.modBay_view _ _ _ _ (fun _ => rfl) | refine (State.modBay_view _ _ _ _ (fun _ => rfl)).trans ?_) | split | (refine foldl_view _ _ (fun _ _ => ?_) _ _; dsimp only) | (refine (foldl_view _ _ (fun _ _ => ?_) _ _).trans ?_; dsimp only) | (refine (State.eachBay_view _ _ (fun _ _ => ?_) _ _).trans ?_; dsimp only))

theorem State.modServo_view {q : Parts} (hq : q.apart { tbs := true } = true) (s : State) (f : Discipline → Discipline) : (State.modServo s f).view q = s.view q := by
  refine view_of { tbs := true } hq ?_
  unfold State.modServo
  dsimp only
  repeat' (first | rfl | with_reducible (first | rfl | refine next_view ?_ | exact State.modBay_view _ _ _ _ (fun _ => rfl) | refine (State.modBay_view _ _ _ _ (fun _ => rfl)).trans ?_) | split | (refine foldl_view _ _ (fun _ _ => ?_) _ _; dsimp only) | (refine (foldl_view _ _ (fun _ _ => ?_) _ _).trans ?_; dsimp only) | (refine (State.eachBay_view _ _ (fun _ _ => ?_) _ _).trans ?_; dsimp only))

theorem State.issueReset_view {q : Parts} (hq : q.apart { tbs := true } = true) (s : State) : (State.issueReset s).view q = s.view q := by
  refine view_of { tbs := true } hq ?_
  simp only [State.issueReset, ↓view_ite, ite_self, ↓State.modTbsPkg_view (q := Parts.others { tbs := true }) (by decide), ↓State.emit_view]

theorem State.tick_view {q : Parts} (hq : q.apart { time := true } = true) (s : State) : (s.tick).view q = s.view q := by
  unfold State.tick
  split
  · refine (State.quietTime_view hq _ _).trans (view_of { time := true } hq (State.mapBays_view _ _ _ fun x => ?_))
    have h : ∀ (x : Bay) (y : TbsBay), ({ x with tbs := y } : Bay).view (Parts.others { time := true }) = x.view (Parts.others { time := true }) := fun _ _ => rfl
    unfold Bay.advance
    split <;> exact h _ _
  · rfl

theorem State.tdcEdge_view {q : Parts} (hq : q.apart { time := true } = true) (s : State) (b : BayNo) (p : Fin 5) (t : Stamp) (longPulse : Bool) : (State.tdcEdge s b p t longPulse).2.view q = s.view q := by
  refine view_of { time := true } hq ?_
  simp only [State.tdcEdge]
  repeat' split
  all_goals simp only [↓State.modTbs_view (q := Parts.others { time := true }) (by decide)]

theorem execSyncInEdge_view {q : Parts} (hq : q.apart { tbs := true, time := true } = true) (b : BayNo) (t : Stamp) (falling longPulse relayed : Bool) (s : State) : Out.view q (execSyncInEdge b t falling longPulse relayed s) = some (s.view q) := by
  refine out_view_of { tbs := true, time := true } hq ?_
  simp only [execSyncInEdge]
  repeat' split
  all_goals simp only [↓out_view_next, ↓State.event_view, ↓State.emit_view, ↓State.modGrid_view (q := Parts.others { tbs := true, time := true }) (by decide), ↓State.tdcEdge_view (q := Parts.others { tbs := true, time := true }) (by decide)]

theorem execSyncWindowEnd_view {q : Parts} (hq : q.apart { tbs := true, time := true } = true) (s0 : State) : Out.view q (execSyncWindowEnd s0) = some (s0.view q) := by
  refine out_view_of { tbs := true, time := true } hq ?_
  simp only [execSyncWindowEnd, ↓out_view_ite, ↓out_view_next, ite_self, ↓State.reach_view (q := Parts.others { tbs := true, time := true }) (by decide), ↓State.event_view, ↓State.modGrid_view (q := Parts.others { tbs := true, time := true }) (by decide)]

theorem State.shiftPackage_view {q : Parts} (hq : q.apart { tbs := true, sel := true, faults := true, eth := true, fabric := true } = true) (s : State) (d : Int) : (State.shiftPackage s d).view q = s.view q := by
  refine view_of { tbs := true, sel := true, faults := true, eth := true, fabric := true } hq ?_
  unfold State.shiftPackage
  try dsimp only
  repeat' (first | rfl | with_reducible (first | rfl | refine next_view ?_ | exact State.modBay_view _ _ _ _ (fun _ => rfl) | exact State.modSeal_view _ _ _ rfl | refine (State.modSeal_view _ _ _ rfl).trans ?_ | refine (State.modSeal_free (by decide) (by decide) ..).trans ?_) | (refine (State.modBay_view _ _ _ _ ?hb).trans ?_; case hb => exact fun _ => rfl) | split | (refine foldl_view _ _ (fun _ _ => ?_) _ _; try dsimp only) | (refine (foldl_view _ _ (fun _ _ => ?_) _ _).trans ?_; try dsimp only) | (refine (State.eachBay_view _ _ (fun _ _ => ?_) _ _).trans ?_; try dsimp only))

theorem State.steer_view {q : Parts} (hq : q.apart { tbs := true, time := true } = true) (s : State) (r : Int) : (State.steer s r).view q = s.view q := by
  refine view_of { tbs := true, time := true } hq ?_
  simp only [State.steer, ↓view_ite, ↓State.eachBay_view, ite_self, implies_true, ↓State.modTbs_view (q := Parts.others { tbs := true, time := true }) (by decide), ↓State.modServo_view (q := Parts.others { tbs := true, time := true }) (by decide)]

theorem State.freeSteer_view {q : Parts} (hq : q.apart { tbs := true, time := true } = true) (s : State) (off : Int) : (State.freeSteer s off).view q = s.view q := by
  refine view_of { tbs := true, time := true } hq ?_
  simp only [State.freeSteer, ↓State.steer_view (q := Parts.others { tbs := true, time := true }) (by decide)]

theorem State.servoOffset_view {q : Parts} (hq : q.apart { tbs := true, time := true } = true) (s : State) (off : Int) : (State.servoOffset s off).view q = s.view q := by
  refine view_of { tbs := true, time := true } hq ?_
  simp only [State.servoOffset, ↓view_ite, ite_self, ↓State.event_view, ↓State.modServo_view (q := Parts.others { tbs := true, time := true }) (by decide), ↓State.freeSteer_view (q := Parts.others { tbs := true, time := true }) (by decide)]

theorem execPpsEdge_view {q : Parts} (hq : q.apart { tbs := true, time := true } = true) (b : BayNo) (t : Stamp) (falling longPulse : Bool) (s : State) : Out.view q (execPpsEdge b t falling longPulse s) = some (s.view q) := by
  refine out_view_of { tbs := true, time := true } hq ?_
  simp only [execPpsEdge]
  repeat' split
  all_goals simp only [↓out_view_next, ↓State.event_view, ↓State.modServo_view (q := Parts.others { tbs := true, time := true }) (by decide), ↓State.tdcEdge_view (q := Parts.others { tbs := true, time := true }) (by decide), ↓State.servoOffset_view (q := Parts.others { tbs := true, time := true }) (by decide)]

theorem execServoHoldoverTimeout_view {q : Parts} (hq : q.apart { tbs := true, time := true } = true) (s0 : State) : Out.view q (execServoHoldoverTimeout s0) = some (s0.view q) := by
  refine out_view_of { tbs := true, time := true } hq ?_
  simp only [execServoHoldoverTimeout, ↓out_view_ite, ↓out_view_next, ite_self, ↓State.reach_view (q := Parts.others { tbs := true, time := true }) (by decide), ↓State.event_view, ↓State.modServo_view (q := Parts.others { tbs := true, time := true }) (by decide), ↓State.steer_view (q := Parts.others { tbs := true, time := true }) (by decide)]

theorem execTbsNowRead_view {q : Parts} (hq : q.apart { time := true } = true) (b : BayNo) (s : State) : Out.view q (execTbsNowRead b s) = some (s.view q) := by
  refine out_view_of { time := true } hq ?_
  simp only [execTbsNowRead, ↓out_view_ite, ↓out_view_next, ite_self, ↓State.modTbs_view (q := Parts.others { time := true }) (by decide)]

theorem execTbsEdgeLostRead_view {q : Parts} (hq : q.apart { time := true } = true) (b : BayNo) (s : State) : Out.view q (execTbsEdgeLostRead b s) = some (s.view q) := by
  refine out_view_of { time := true } hq ?_
  simp only [execTbsEdgeLostRead, ↓out_view_ite, ↓out_view_next, ite_self, ↓State.modTbs_view (q := Parts.others { time := true }) (by decide)]

theorem execSnapshotTake_view {q : Parts} (hq : q.apart { tbs := true, time := true } = true) (remote : Option (Stamp × Word)) (s0 : State) : Out.view q (execSnapshotTake remote s0) = some (s0.view q) := by
  refine out_view_of { tbs := true, time := true } hq ?_
  unfold execSnapshotTake
  try dsimp only
  repeat' (first | rfl | with_reducible (first | rfl | refine next_view ?_ | exact State.modBay_view _ _ _ _ (fun _ => rfl) | exact State.modSeal_view _ _ _ rfl | refine (State.modSeal_view _ _ _ rfl).trans ?_ | refine (State.modSeal_free (by decide) (by decide) ..).trans ?_ | refine (State.modTbsPkg_view (q := Parts.others { tbs := true, time := true }) (by decide) ..).trans ?_ | refine (State.reach_view (q := Parts.others { tbs := true, time := true }) (by decide) ..).trans ?_ | refine (State.event_view ..).trans ?_ | refine (State.modTbs_view (q := Parts.others { tbs := true, time := true }) (by decide) ..).trans ?_) | (refine (State.modBay_view _ _ _ _ ?hb).trans ?_; case hb => exact fun _ => rfl) | split | (refine foldl_view _ _ (fun _ _ => ?_) _ _; try dsimp only) | (refine (foldl_view _ _ (fun _ _ => ?_) _ _).trans ?_; try dsimp only) | (refine (State.eachBay_view _ _ (fun _ _ => ?_) _ _).trans ?_; try dsimp only))

end Sys2Proof.Machine
end

