-- ==== Sys2Proof/Laws/View/Data.lean ====
section
/-! SUPPORT. Which parts the operations of Machine/Data.lean leave as they were. -/
namespace Sys2Proof.Machine

theorem State.modPort_view {q : Parts} (hq : q.apart { ddc := true } = true) (s : State) (b : BayNo) (p : Port) (f : DdcPort → DdcPort) : (State.modPort s b p f).view q = s.view q := by
  refine view_of { ddc := true } hq ?_
  unfold State.modPort
  exact State.modBay_view _ _ _ _ (fun _ => rfl)

theorem State.modChan_view {q : Parts} (hq : q.apart { xfm := true } = true) (s : State) (b : BayNo) (x : Fin 2) (f : XfmChan → XfmChan) : (State.modChan s b x f).view q = s.view q := by
  refine view_of { xfm := true } hq ?_
  unfold State.modChan
  exact State.modBay_view _ _ _ _ (fun _ => rfl)

theorem State.modTrace_view {q : Parts} (hq : q.apart { xfm := true } = true) (s : State) (b : BayNo) (t : Fin 16) (f : Trace → Trace) : (State.modTrace s b t f).view q = s.view q := by
  refine view_of { xfm := true } hq ?_
  unfold State.modTrace
  exact State.modBay_view _ _ _ _ (fun _ => rfl)

theorem State.modDen_view {q : Parts} (hq : q.apart { den := true } = true) (s : State) (b : BayNo) (x : Fin 2) (f : DenChan → DenChan) : (State.modDen s b x f).view q = s.view q := by
  refine view_of { den := true } hq ?_
  unfold State.modDen
  exact State.modBay_view _ _ _ _ (fun _ => rfl)

theorem State.modUnit_view {q : Parts} (hq : q.apart { units := true } = true) (s : State) (b : BayNo) (u : Fin 8) (f : TrgUnit → TrgUnit) : (State.modUnit s b u f).view q = s.view q := by
  refine view_of { units := true } hq ?_
  unfold State.modUnit
  exact State.modBay_view _ _ _ _ (fun _ => rfl)

theorem State.modAfe_view {q : Parts} (hq : q.apart { afe := true } = true) (s : State) (b : BayNo) (i : Fin 2) (f : AfeIn → AfeIn) : (State.modAfe s b i f).view q = s.view q := by
  refine view_of { afe := true } hq ?_
  unfold State.modAfe
  exact State.modBay_view _ _ _ _ (fun _ => rfl)

theorem State.modAdc_view {q : Parts} (hq : q.apart { adc := true } = true) (s : State) (b : BayNo) (i : Fin 2) (f : Adc → Adc) : (State.modAdc s b i f).view q = s.view q := by
  refine view_of { adc := true } hq ?_
  unfold State.modAdc
  exact State.modBay_view _ _ _ _ (fun _ => rfl)

theorem State.changeRun_view {q : Parts} (hq : q.apart { ddc := true } = true) (s : State) (b : BayNo) (p : Port) (tc : Stamp) : (State.changeRun s b p tc).view q = s.view q := by
  refine view_of { ddc := true } hq ?_
  simp only [State.changeRun, ↓view_ite, ite_self, ↓State.modPort_view (q := Parts.others { ddc := true }) (by decide)]

theorem State.newStretch_view {q : Parts} (hq : q.apart { ddc := true } = true) (s : State) (b : BayNo) (p : Port) (t : Stamp) (d0 d : Exact) : (State.newStretch s b p t d0 d).view q = s.view q := by
  refine view_of { ddc := true } hq ?_
  simp only [State.newStretch]
  repeat' split
  all_goals simp only [↓State.modPort_view (q := Parts.others { ddc := true }) (by decide)]

theorem State.tuneFrom_view {q : Parts} (hq : q.apart { ddc := true } = true) (s : State) (b : BayNo) (p : Port) (j : Nat) : (State.tuneFrom s b p j).view q = s.view q := by
  refine view_of { ddc := true } hq ?_
  simp only [State.tuneFrom, ↓State.modPort_view (q := Parts.others { ddc := true }) (by decide)]

theorem State.noteConf_view {q : Parts} (hq : q.apart { xfm := true } = true) (s : State) (b : BayNo) (t : Stamp) : (State.noteConf s b t).view q = s.view q := by
  refine view_of { xfm := true } hq ?_
  simp only [State.noteConf, ↓foldl_view, implies_true, ↓State.modChan_view (q := Parts.others { xfm := true }) (by decide)]

theorem State.abandon_view {q : Parts} (hq : q.apart { units := true } = true) (s : State) (b : BayNo) (u : Fin 8) : (State.abandon s b u).view q = s.view q := by
  refine view_of { units := true } hq ?_
  simp only [State.abandon]
  repeat' split
  all_goals simp only [↓State.event_view, ↓State.modUnit_view (q := Parts.others { units := true }) (by decide)]

theorem State.cutCapture_view {q : Parts} (hq : q.apart { units := true } = true) (s : State) (b : BayNo) (u : Fin 8) (e : Nat) : (State.cutCapture s b u e).view q = s.view q := by
  refine view_of { units := true } hq ?_
  simp only [State.cutCapture, ↓State.modUnit_view (q := Parts.others { units := true }) (by decide)]

theorem State.resumeCapture_view {q : Parts} (hq : q.apart { units := true } = true) (s : State) (b : BayNo) (u : Fin 8) (n : Nat) : (State.resumeCapture s b u n).view q = s.view q := by
  refine view_of { units := true } hq ?_
  simp only [State.resumeCapture, ↓State.modUnit_view (q := Parts.others { units := true }) (by decide)]

theorem State.markGap_view {q : Parts} (hq : q.apart { xfm := true, den := true } = true) (s : State) (b : BayNo) (x : Fin 2) (t : Stamp) : (State.markGap s b x t).view q = s.view q := by
  refine view_of { xfm := true, den := true } hq ?_
  simp only [State.markGap, ↓view_ite, ↓foldl_view, ite_self, implies_true, ↓State.modTrace_view (q := Parts.others { xfm := true, den := true }) (by decide), ↓State.modDen_view (q := Parts.others { xfm := true, den := true }) (by decide)]

theorem State.openChanGap_view {q : Parts} (hq : q.apart { units := true, xfm := true, den := true } = true) (s : State) (b : BayNo) (x : Fin 2) (reason : GapReason) (t : Stamp) : (State.openChanGap s b x reason t).view q = s.view q := by
  refine view_of { units := true, xfm := true, den := true } hq ?_
  simp only [State.openChanGap, ↓view_ite, ↓foldl_view, ite_self, implies_true, ↓State.enqueue_view, ↓State.modChan_view (q := Parts.others { units := true, xfm := true, den := true }) (by decide), ↓State.abandon_view (q := Parts.others { units := true, xfm := true, den := true }) (by decide), ↓State.markGap_view (q := Parts.others { units := true, xfm := true, den := true }) (by decide)]

theorem State.startGrid_view {q : Parts} (hq : q.apart { xfm := true } = true) (s : State) (b : BayNo) (x : Fin 2) (n0 : Nat) (cause : Nat) : (State.startGrid s b x n0 cause).view q = s.view q := by
  refine view_of { xfm := true } hq ?_
  simp only [State.startGrid]
  repeat' split
  all_goals simp only [↓State.event_view, ↓State.modChan_view (q := Parts.others { xfm := true }) (by decide)]

theorem State.chanGrid_view {q : Parts} (hq : q.apart { xfm := true } = true) (s : State) (b : BayNo) (x : Fin 2) (n : Nat) : (State.chanGrid s b x n).view q = s.view q := by
  refine view_of { xfm := true } hq ?_
  simp only [State.chanGrid]
  repeat' split
  all_goals simp only [↓State.startGrid_view (q := Parts.others { xfm := true }) (by decide)]

theorem State.closeChanGap_view {q : Parts} (hq : q.apart { units := true, xfm := true } = true) (s : State) (b : BayNo) (x : Fin 2) (t : Stamp) (units : Nat) : (State.closeChanGap s b x t units).view q = s.view q := by
  refine view_of { units := true, xfm := true } hq ?_
  simp only [State.closeChanGap]
  repeat' split
  all_goals simp only [↓view_ite, ↓foldl_view, ite_self, implies_true, ↓State.enqueue_view, ↓State.modChan_view (q := Parts.others { units := true, xfm := true }) (by decide), ↓State.modUnit_view (q := Parts.others { units := true, xfm := true }) (by decide)]

theorem State.breakIq_view {q : Parts} (hq : q.apart { ddc := true } = true) (s : State) (b : BayNo) (p : Port) (n : Nat) (gap : Bool) : (State.breakIq s b p n gap).view q = s.view q := by
  refine view_of { ddc := true } hq ?_
  simp only [State.breakIq, ↓State.modPort_view (q := Parts.others { ddc := true }) (by decide)]

theorem State.openStreamGap_view {q : Parts} (hq : q.apart { ddc := true } = true) (s : State) (b : BayNo) (p : Port) (reason : GapReason) (t : Stamp) : (State.openStreamGap s b p reason t).view q = s.view q := by
  refine view_of { ddc := true } hq ?_
  simp only [State.openStreamGap, ↓view_ite, ite_self, ↓State.enqueue_view, ↓State.modPort_view (q := Parts.others { ddc := true }) (by decide)]

theorem State.closeStreamGap_view {q : Parts} (hq : q.apart { ddc := true } = true) (s : State) (b : BayNo) (p : Port) (t : Stamp) (units : Nat) : (State.closeStreamGap s b p t units).view q = s.view q := by
  refine view_of { ddc := true } hq ?_
  simp only [State.closeStreamGap]
  repeat' split
  all_goals simp only [↓State.enqueue_view, ↓State.modPort_view (q := Parts.others { ddc := true }) (by decide)]

theorem State.endLine_view {q : Parts} (hq : q.apart { ddc := true } = true) (s : State) (b : BayNo) (p : Port) (t : Stamp) : (State.endLine s b p t).view q = s.view q := by
  refine view_of { ddc := true } hq ?_
  simp only [State.endLine, ↓view_ite, ite_self, ↓State.modPort_view (q := Parts.others { ddc := true }) (by decide), ↓State.breakIq_view (q := Parts.others { ddc := true }) (by decide)]

theorem State.stopPort_view {q : Parts} (hq : q.apart { units := true, ddc := true, xfm := true, den := true } = true) (s : State) (b : BayNo) (p : Port) (reason : GapReason) (t : Stamp) : (State.stopPort s b p reason t).view q = s.view q := by
  refine view_of { units := true, ddc := true, xfm := true, den := true } hq ?_
  simp only [State.stopPort, ↓view_ite, ↓foldl_view, ite_self, implies_true, ↓State.modPort_view (q := Parts.others { units := true, ddc := true, xfm := true, den := true }) (by decide), ↓State.abandon_view (q := Parts.others { units := true, ddc := true, xfm := true, den := true }) (by decide), ↓State.cutCapture_view (q := Parts.others { units := true, ddc := true, xfm := true, den := true }) (by decide), ↓State.openChanGap_view (q := Parts.others { units := true, ddc := true, xfm := true, den := true }) (by decide), ↓State.openStreamGap_view (q := Parts.others { units := true, ddc := true, xfm := true, den := true }) (by decide), ↓State.endLine_view (q := Parts.others { units := true, ddc := true, xfm := true, den := true }) (by decide)]

theorem State.beginLine_view {q : Parts} (hq : q.apart { ddc := true } = true) (s : State) (b : BayNo) (p : Port) (t : Stamp) : (State.beginLine s b p t).view q = s.view q := by
  refine view_of { ddc := true } hq ?_
  simp only [State.beginLine, ↓State.takeFree_view, ↓State.modPort_view (q := Parts.others { ddc := true }) (by decide)]

theorem State.startPort_view {q : Parts} (hq : q.apart { units := true, ddc := true, xfm := true } = true) (s : State) (b : BayNo) (p : Port) (t : Stamp) (units : Nat) : (State.startPort s b p t units).view q = s.view q := by
  refine view_of { units := true, ddc := true, xfm := true } hq ?_
  simp only [State.startPort, ↓view_ite, ↓foldl_view, ite_self, implies_true, ↓State.modPort_view (q := Parts.others { units := true, ddc := true, xfm := true }) (by decide), ↓State.resumeCapture_view (q := Parts.others { units := true, ddc := true, xfm := true }) (by decide), ↓State.chanGrid_view (q := Parts.others { units := true, ddc := true, xfm := true }) (by decide), ↓State.closeChanGap_view (q := Parts.others { units := true, ddc := true, xfm := true }) (by decide), ↓State.closeStreamGap_view (q := Parts.others { units := true, ddc := true, xfm := true }) (by decide), ↓State.beginLine_view (q := Parts.others { units := true, ddc := true, xfm := true }) (by decide)]

theorem State.refreshPort_view {q : Parts} (hq : q.apart { units := true, ddc := true, xfm := true, den := true } = true) (s : State) (b : BayNo) (p : Port) (t : Stamp) : (State.refreshPort s b p t).view q = s.view q := by
  refine view_of { units := true, ddc := true, xfm := true, den := true } hq ?_
  simp only [State.refreshPort]
  repeat' split
  all_goals simp only [↓State.modPort_view (q := Parts.others { units := true, ddc := true, xfm := true, den := true }) (by decide), ↓State.endLine_view (q := Parts.others { units := true, ddc := true, xfm := true, den := true }) (by decide), ↓State.stopPort_view (q := Parts.others { units := true, ddc := true, xfm := true, den := true }) (by decide), ↓State.startPort_view (q := Parts.others { units := true, ddc := true, xfm := true, den := true }) (by decide)]

theorem State.refreshPorts_view {q : Parts} (hq : q.apart { units := true, ddc := true, xfm := true, den := true } = true) (s : State) (b : BayNo) (t : Stamp) : (State.refreshPorts s b t).view q = s.view q := by
  refine view_of { units := true, ddc := true, xfm := true, den := true } hq ?_
  simp only [State.refreshPorts, ↓foldl_view, implies_true, ↓State.refreshPort_view (q := Parts.others { units := true, ddc := true, xfm := true, den := true }) (by decide)]

end Sys2Proof.Machine
end

