-- ==== Sys2Proof/Laws/View/Afe.lean ====
section
/-! SUPPORT. Which parts the operations of Machine/Afe.lean leave as they were. -/
namespace Sys2Proof.Machine

theorem State.setAtten_view {q : Parts} (hq : q.apart { afe := true, ddc := true, xfm := true } = true) (s : State) (b : BayNo) (i : Fin 2) (step trim cause : Nat) (auto : Bool) (t : Stamp) : (State.setAtten s b i step trim cause auto t).view q = s.view q := by
  refine view_of { afe := true, ddc := true, xfm := true } hq ?_
  simp only [State.setAtten, ↓State.modAfe_view (q := Parts.others { afe := true, ddc := true, xfm := true }) (by decide), ↓State.changeRun_view (q := Parts.others { afe := true, ddc := true, xfm := true }) (by decide), ↓State.noteConf_view (q := Parts.others { afe := true, ddc := true, xfm := true }) (by decide), ↓State.newStretch_view (q := Parts.others { afe := true, ddc := true, xfm := true }) (by decide), ↓State.event_view]

theorem State.loadAtten_view {q : Parts} (hq : q.apart { afe := true, ddc := true, xfm := true } = true) (s : State) (b : BayNo) (i : Fin 2) : (State.loadAtten s b i).view q = s.view q := by
  refine view_of { afe := true, ddc := true, xfm := true } hq ?_
  simp only [State.loadAtten, ↓State.setAtten_view (q := Parts.others { afe := true, ddc := true, xfm := true }) (by decide)]

theorem State.giveAtten_view {q : Parts} (hq : q.apart { afe := true, ddc := true, xfm := true } = true) (s : State) (b : BayNo) (i : Fin 2) (x : AttenSet) : (State.giveAtten s b i x).view q = s.view q := by
  refine view_of { afe := true, ddc := true, xfm := true } hq ?_
  simp only [State.giveAtten, ↓view_ite, ite_self, ↓State.modAfe_view (q := Parts.others { afe := true, ddc := true, xfm := true }) (by decide), ↓State.setAtten_view (q := Parts.others { afe := true, ddc := true, xfm := true }) (by decide)]

theorem State.freeAtten_view {q : Parts} (hq : q.apart { afe := true, ddc := true, xfm := true } = true) (s : State) (b : BayNo) (i : Fin 2) : (State.freeAtten s b i).view q = s.view q := by
  refine view_of { afe := true, ddc := true, xfm := true } hq ?_
  simp only [State.freeAtten]
  repeat' split
  all_goals simp only [↓State.modAfe_view (q := Parts.others { afe := true, ddc := true, xfm := true }) (by decide), ↓State.giveAtten_view (q := Parts.others { afe := true, ddc := true, xfm := true }) (by decide)]

theorem State.autoStepUp_view {q : Parts} (hq : q.apart { afe := true, ddc := true, xfm := true } = true) (s : State) (b : BayNo) (i : Fin 2) : (State.autoStepUp s b i).view q = s.view q := by
  refine view_of { afe := true, ddc := true, xfm := true } hq ?_
  simp only [State.autoStepUp, ↓view_ite, ite_self, ↓State.modAfe_view (q := Parts.others { afe := true, ddc := true, xfm := true }) (by decide), ↓State.setAtten_view (q := Parts.others { afe := true, ddc := true, xfm := true }) (by decide)]

theorem State.trip_view {q : Parts} (hq : q.apart { afe := true, ddc := true, xfm := true } = true) (s : State) (b : BayNo) (i : Fin 2) (t : Stamp) : (State.trip s b i t).view q = s.view q := by
  refine view_of { afe := true, ddc := true, xfm := true } hq ?_
  simp only [State.trip, ↓view_ite, ite_self, ↓State.modAfe_view (q := Parts.others { afe := true, ddc := true, xfm := true }) (by decide), ↓State.event_view, ↓State.autoStepUp_view (q := Parts.others { afe := true, ddc := true, xfm := true }) (by decide)]

theorem execOverloadTrip_view {q : Parts} (hq : q.apart { time := true, afe := true, adc := true, ddc := true, xfm := true } = true) (b : BayNo) (i : Fin 2) (t : Stamp) (level : Int) (clips : Nat) (s0 : State) : Out.view q (execOverloadTrip b i t level clips s0) = some (s0.view q) := by
  refine out_view_of { time := true, afe := true, adc := true, ddc := true, xfm := true } hq ?_
  simp only [execOverloadTrip, ↓out_view_ite, ↓out_view_next, ite_self, ↓State.reach_view (q := Parts.others { time := true, afe := true, adc := true, ddc := true, xfm := true }) (by decide), ↓State.modAdc_view (q := Parts.others { time := true, afe := true, adc := true, ddc := true, xfm := true }) (by decide), ↓State.trip_view (q := Parts.others { time := true, afe := true, adc := true, ddc := true, xfm := true }) (by decide)]

theorem execOverloadClose_view {q : Parts} (hq : q.apart { time := true, afe := true } = true) (b : BayNo) (i : Fin 2) (t : Stamp) (s0 : State) : Out.view q (execOverloadClose b i t s0) = some (s0.view q) := by
  refine out_view_of { time := true, afe := true } hq ?_
  simp only [execOverloadClose, ↓out_view_ite, ↓out_view_next, ite_self, ↓State.reach_view (q := Parts.others { time := true, afe := true }) (by decide), ↓State.modAfe_view (q := Parts.others { time := true, afe := true }) (by decide)]

theorem execAutoStepDown_view {q : Parts} (hq : q.apart { time := true, afe := true, ddc := true, xfm := true } = true) (b : BayNo) (i : Fin 2) (peak : Int) (s0 : State) : Out.view q (execAutoStepDown b i peak s0) = some (s0.view q) := by
  refine out_view_of { time := true, afe := true, ddc := true, xfm := true } hq ?_
  simp only [execAutoStepDown, ↓out_view_ite, ↓out_view_next, ite_self, ↓State.reach_view (q := Parts.others { time := true, afe := true, ddc := true, xfm := true }) (by decide), ↓State.modAfe_view (q := Parts.others { time := true, afe := true, ddc := true, xfm := true }) (by decide), ↓State.setAtten_view (q := Parts.others { time := true, afe := true, ddc := true, xfm := true }) (by decide)]

theorem execAttenSettled_view {q : Parts} (hq : q.apart { time := true, afe := true, ddc := true, xfm := true } = true) (b : BayNo) (i : Fin 2) (level : Int) (s0 : State) : Out.view q (execAttenSettled b i level s0) = some (s0.view q) := by
  refine out_view_of { time := true, afe := true, ddc := true, xfm := true } hq ?_
  simp only [execAttenSettled, ↓view_ite, ↓out_view_ite, ↓out_view_next, ite_self, ↓State.reach_view (q := Parts.others { time := true, afe := true, ddc := true, xfm := true }) (by decide), ↓State.modAfe_view (q := Parts.others { time := true, afe := true, ddc := true, xfm := true }) (by decide), ↓State.trip_view (q := Parts.others { time := true, afe := true, ddc := true, xfm := true }) (by decide)]

theorem State.pauseRotation_view {q : Parts} (hq : q.apart { adc := true } = true) (s : State) (b : BayNo) (i : Fin 2) : (State.pauseRotation s b i).view q = s.view q := by
  refine view_of { adc := true } hq ?_
  simp only [State.pauseRotation, ↓State.modAdc_view (q := Parts.others { adc := true }) (by decide)]

theorem State.runRotation_view {q : Parts} (hq : q.apart { adc := true } = true) (s : State) (b : BayNo) (i : Fin 2) : (State.runRotation s b i).view q = s.view q := by
  refine view_of { adc := true } hq ?_
  simp only [State.runRotation, ↓view_ite, ite_self, ↓State.modAdc_view (q := Parts.others { adc := true }) (by decide), ↓State.pauseRotation_view (q := Parts.others { adc := true }) (by decide)]

theorem State.runRotations_view {q : Parts} (hq : q.apart { adc := true } = true) (s : State) (b : BayNo) : (State.runRotations s b).view q = s.view q := by
  refine view_of { adc := true } hq ?_
  simp only [State.runRotations, ↓State.runRotation_view (q := Parts.others { adc := true }) (by decide)]

theorem execSliceCalDone_view {q : Parts} (hq : q.apart { time := true, adc := true } = true) (b : BayNo) (i : Fin 2) (est : SliceCoef) (power : Int) (s0 : State) : Out.view q (execSliceCalDone b i est power s0) = some (s0.view q) := by
  refine out_view_of { time := true, adc := true } hq ?_
  simp only [execSliceCalDone]
  repeat' split
  all_goals simp only [↓out_view_next, ↓State.reach_view (q := Parts.others { time := true, adc := true }) (by decide), ↓State.modAdc_view (q := Parts.others { time := true, adc := true }) (by decide), ↓State.event_view]

theorem execSwapCompare_view {q : Parts} (hq : q.apart { adc := true } = true) (b : BayNo) (i : Fin 2) (sum : Int) (squares : Nat) (s : State) : Out.view q (execSwapCompare b i sum squares s) = some (s.view q) := by
  refine out_view_of { adc := true } hq ?_
  simp only [execSwapCompare]
  repeat' split
  all_goals simp only [↓out_view_next, ↓State.modAdc_view (q := Parts.others { adc := true }) (by decide), ↓State.event_view]

end Sys2Proof.Machine
end

