-- ==== Sys2Proof/Laws/View/Que.lean ====
section
/-! SUPPORT. Which parts the operations of Machine/Que.lean leave as they were. -/
namespace Sys2Proof.Machine

theorem State.flushQueue_view {q : Parts} (s : State) (b : BayNo) (i : Fin 16) (cause : Nat) : (State.flushQueue s b i cause).view q = s.view q := by
  simp only [State.flushQueue, ↓view_ite, ite_self, ↓State.putDropped_view, ↓State.nextSeq_view, ↓State.event_view, ↓State.putEntry_view, ↓State.modQueue_view]

theorem execQueFlush_view {q : Parts} (hq : q.apart { domains := true } = true) (b : BayNo) (mask : BitVec 16) (s : State) : Out.view q (execQueFlush b mask s) = some (s.view q) := by
  refine out_view_of { domains := true } hq ?_
  simp only [execQueFlush, ↓view_ite, ↓out_view_ite, ↓out_view_next, ↓foldl_view, ite_self, implies_true, ↓State.fencedAccess_view (q := Parts.others { domains := true }) (by decide), ↓State.flushQueue_view]

theorem execQueReservePeakRead_view {q : Parts} (hq : q.apart { domains := true } = true) (b : BayNo) (s : State) : Out.view q (execQueReservePeakRead b s) = some (s.view q) := by
  refine out_view_of { domains := true } hq ?_
  unfold execQueReservePeakRead
  try dsimp only
  repeat' (first | rfl | with_reducible (first | rfl | refine next_view ?_ | exact State.modBay_view _ _ _ _ (fun _ => rfl) | exact State.modSeal_view _ _ _ rfl | refine (State.modSeal_view _ _ _ rfl).trans ?_ | refine (State.modSeal_free (by decide) (by decide) ..).trans ?_ | refine (State.fencedAccess_view (q := Parts.others { domains := true }) (by decide) ..).trans ?_) | (refine (State.modBay_view _ _ _ _ ?hb).trans ?_; case hb => exact fun _ => rfl) | split | (refine foldl_view _ _ (fun _ _ => ?_) _ _; try dsimp only) | (refine (foldl_view _ _ (fun _ _ => ?_) _ _).trans ?_; try dsimp only) | (refine (State.eachBay_view _ _ (fun _ _ => ?_) _ _).trans ?_; try dsimp only))

theorem execSealedRecordMac_view {q : Parts} (hq : q.apart { keeper := true } = true) (s : State) : Out.view q (execSealedRecordMac s) = some (s.view q) := by
  refine out_view_of { keeper := true } hq ?_
  simp only [execSealedRecordMac]
  repeat' split
  all_goals simp only [↓out_view_next, implies_true, ↓State.modSeal_open (p := Parts.others { keeper := true }) rfl, ↓State.queueEvents_view, ↓State.arrive_view]

end Sys2Proof.Machine
end

