-- ==== Sys2Proof/Laws/View/RecOps.lean ====
section
/-! SUPPORT. Which parts the operations of Machine/RecOps.lean leave as they were. -/
namespace Sys2Proof.Machine

theorem State.modRec_view {q : Parts} (hq : q.apart { recorder := true } = true) (s : State) (b : BayNo) (f : Recorder → Recorder) : (State.modRec s b f).view q = s.view q := by
  refine view_of { recorder := true } hq ?_
  unfold State.modRec
  exact State.modBay_view _ _ _ _ (fun _ => rfl)

theorem State.openSpan_view {q : Parts} (hq : q.apart { recorder := true } = true) (s : State) (b : BayNo) (cont first : Bool) : (State.openSpan s b cont first).view q = s.view q := by
  refine view_of { recorder := true } hq ?_
  simp only [State.openSpan, ↓State.modRec_view (q := Parts.others { recorder := true }) (by decide)]

theorem State.recJump_view {q : Parts} (hq : q.apart { recorder := true } = true) (s : State) (b : BayNo) (v : Volume) (dst : Nat) : (State.recJump s b v dst).view q = s.view q := by
  refine view_of { recorder := true } hq ?_
  simp only [State.recJump, ↓State.modRec_view (q := Parts.others { recorder := true }) (by decide), ↓State.openSpan_view (q := Parts.others { recorder := true }) (by decide)]

theorem State.endRegion_view {q : Parts} (hq : q.apart { recorder := true } = true) (s : State) (b : BayNo) (v : Volume) (i : Fin 64) : (State.endRegion s b v i).view q = s.view q := by
  refine view_of { recorder := true } hq ?_
  simp only [State.endRegion]
  repeat' split
  all_goals simp only [↓State.event_view, ↓State.modRec_view (q := Parts.others { recorder := true }) (by decide)]

theorem State.endRegions_view {q : Parts} (hq : q.apart { recorder := true } = true) (s : State) (b : BayNo) (v : Volume) (p : Region → Bool) : (s.endRegions b v p).view q = s.view q := by
  refine view_of { recorder := true } hq ?_
  unfold State.endRegions
  refine foldl_view _ _ (fun s i => ?_) _ _
  split
  · rfl
  · split
    · exact State.endRegion_view (q := Parts.others { recorder := true }) (by decide) ..
    · rfl

theorem State.recFull_view {q : Parts} (hq : q.apart { recorder := true } = true) (s : State) (b : BayNo) (v : Volume) : (State.recFull s b v).view q = s.view q := by
  refine view_of { recorder := true } hq ?_
  simp only [State.recFull, ↓State.event_view, ↓State.modRec_view (q := Parts.others { recorder := true }) (by decide)]

theorem State.recPlace_view {q : Parts} (hq : q.apart { recorder := true } = true) (s : State) (b : BayNo) (v : Volume) (n : Nat) : viewOr q (s.view q) (State.recPlace s b v n) = s.view q := by
  refine viewOr_of { recorder := true } hq ?_
  simp only [State.recPlace]
  repeat' split
  all_goals simp only [↓viewOr_some, ↓viewOr_none, ↓State.recJump_view (q := Parts.others { recorder := true }) (by decide)]

theorem State.recTake_view {q : Parts} (hq : q.apart { recorder := true } = true) (s : State) (b : BayNo) (r : Rec) : (s.recTake b r).view q = s.view q := by
  refine view_of { recorder := true } hq ?_
  unfold State.recTake
  dsimp only
  split
  · split
    · exact State.modRec_view (q := Parts.others { recorder := true }) (by decide) ..
    · split
      · exact (State.modRec_view (q := Parts.others { recorder := true }) (by decide) ..).trans (State.recFull_view (q := Parts.others { recorder := true }) (by decide) ..)
      · next e =>
        refine (State.endRegions_view (q := Parts.others { recorder := true }) (by decide) ..).trans ((State.modRec_view (q := Parts.others { recorder := true }) (by decide) ..).trans ?_)
        exact view_of_some (State.recPlace_view (q := Parts.others { recorder := true }) (by decide) ..) e
  · exact State.modRec_view (q := Parts.others { recorder := true }) (by decide) ..

theorem State.recBoundary_view {q : Parts} (hq : q.apart { recorder := true } = true) (s : State) (b : BayNo) : (State.recBoundary s b).view q = s.view q := by
  refine view_of { recorder := true } hq ?_
  simp only [State.recBoundary]
  repeat' split
  all_goals simp only [↓State.modRec_view (q := Parts.others { recorder := true }) (by decide), ↓State.openSpan_view (q := Parts.others { recorder := true }) (by decide), ↓State.endRegions_view (q := Parts.others { recorder := true }) (by decide)]

end Sys2Proof.Machine
end

