-- ==== Sys2Proof/Laws/View/Freeze.lean ====
section
/-! SUPPORT. Which parts the operations of Machine/Freeze.lean leave as they were. -/
namespace Sys2Proof.Machine

theorem State.freezeRegion_view {q : Parts} (hq : q.apart { recorder := true } = true) (s : State) (b : BayNo) (u : Fin 8) (t : Stamp) : (State.freezeRegion s b u t).view q = s.view q := by
  refine view_of { recorder := true } hq ?_
  simp only [State.freezeRegion]
  repeat' split
  all_goals simp only [↓State.modRec_view (q := Parts.others { recorder := true }) (by decide), ↓State.event_view]

end Sys2Proof.Machine
end

