-- ==== Sys2Proof/Laws/View/LneOps.lean ====
section
/-! SUPPORT. Which parts the operations of Machine/LneOps.lean leave as they were. -/
namespace Sys2Proof.Machine

theorem State.modLane_view {q : Parts} (hq : q.apart { lne := true } = true) (s : State) (b : BayNo) (k : Fin 24) (f : Lane → Lane) : (State.modLane s b k f).view q = s.view q := by
  refine view_of { lne := true } hq ?_
  unfold State.modLane
  exact State.modBay_view _ _ _ _ (fun _ => rfl)

theorem State.accrue_view {q : Parts} (hq : q.apart { lne := true } = true) (s : State) (b : BayNo) (k : Fin 24) : (State.accrue s b k).view q = s.view q := by
  refine view_of { lne := true } hq ?_
  simp only [State.accrue, ↓view_ite, ite_self, ↓State.modLane_view (q := Parts.others { lne := true }) (by decide)]

theorem State.adaptLane_view {q : Parts} (hq : q.apart { lne := true } = true) (s : State) (b : BayNo) (k : Fin 24) : (State.adaptLane s b k).view q = s.view q := by
  refine view_of { lne := true } hq ?_
  simp only [State.adaptLane, ↓State.takeFree_view, ↓State.modLane_view (q := Parts.others { lne := true }) (by decide)]

theorem State.lockLane_view {q : Parts} (hq : q.apart { lne := true } = true) (s : State) (b : BayNo) (k : Fin 24) : (State.lockLane s b k).view q = s.view q := by
  refine view_of { lne := true } hq ?_
  simp only [State.lockLane, ↓State.modLane_view (q := Parts.others { lne := true }) (by decide), ↓State.adaptLane_view (q := Parts.others { lne := true }) (by decide)]

theorem State.readapt_view {q : Parts} (hq : q.apart { lne := true } = true) (s : State) (b : BayNo) (k : Fin 24) : (State.readapt s b k).view q = s.view q := by
  refine view_of { lne := true } hq ?_
  simp only [State.readapt, ↓view_ite, ite_self, ↓State.adaptLane_view (q := Parts.others { lne := true }) (by decide)]

theorem State.freeTaps_view {q : Parts} (hq : q.apart { lne := true } = true) (s : State) (b : BayNo) (k : Fin 24) : (State.freeTaps s b k).view q = s.view q := by
  refine view_of { lne := true } hq ?_
  simp only [State.freeTaps, ↓State.takeFree_view, ↓State.modLane_view (q := Parts.others { lne := true }) (by decide)]

theorem State.serve_view {q : Parts} (hq : q.apart { lne := true } = true) (s : State) (b : BayNo) (k : Fin 24) (p : PortId) (up : Bool) : (State.serve s b k p up).view q = s.view q := by
  refine view_of { lne := true } hq ?_
  simp only [State.serve]
  repeat' split
  all_goals simp only [↓State.modLane_view (q := Parts.others { lne := true }) (by decide), ↓State.accrue_view (q := Parts.others { lne := true }) (by decide), ↓State.lockLane_view (q := Parts.others { lne := true }) (by decide), ↓State.freeTaps_view (q := Parts.others { lne := true }) (by decide)]

theorem State.servePort_view {q : Parts} (hq : q.apart { lne := true } = true) (s : State) (b : BayNo) (p : PortId) (up : Bool) : (State.servePort s b p up).view q = s.view q := by
  refine view_of { lne := true } hq ?_
  simp only [State.servePort]
  repeat' split
  all_goals simp only [↓foldl_view, implies_true, ↓State.serve_view (q := Parts.others { lne := true }) (by decide)]

theorem State.quadOn_view {vp : Parts} (hq : vp.apart { domains := true, lne := true } = true) (s : State) (b : BayNo) (q : Fin 6) : (s.quadOn b q).view vp = s.view vp := by
  refine view_of { domains := true, lne := true } hq ?_
  unfold State.quadOn
  refine (foldl_view _ _ (fun s i => ?_) _ _).trans ((State.modBay_view _ _ _ _ (by intro _; rfl)))
  split
  · extract_lets k
    split
    · exact State.modLane_view (q := Parts.others { domains := true, lne := true }) (by decide) ..
    · rfl
  · rfl

theorem State.quadOff_view {vp : Parts} (hq : vp.apart { domains := true, lne := true } = true) (s : State) (b : BayNo) (q : Fin 6) : (s.quadOff b q).view vp = s.view vp := by
  refine view_of { domains := true, lne := true } hq ?_
  unfold State.quadOff
  refine ((State.modBay_view _ _ _ _ (by intro _; rfl))).trans (foldl_view _ _ (fun s i => ?_) _ _)
  split
  · exact (State.modLane_view (q := Parts.others { domains := true, lne := true }) (by decide) ..).trans (State.accrue_view (q := Parts.others { domains := true, lne := true }) (by decide) ..)
  · rfl

end Sys2Proof.Machine
end

