-- ==== Sys2Proof/Laws/View/MonOps.lean ====
section
/-! SUPPORT. Which parts the operations of Machine/MonOps.lean leave as they were. -/
namespace Sys2Proof.Machine

theorem State.modMon_view {q : Parts} (hq : q.apart { mon := true } = true) (s : State) (b : BayNo) (m : Fin 16) (f : MonUnit → MonUnit) : (State.modMon s b m f).view q = s.view q := by
  refine view_of { mon := true } hq ?_
  unfold State.modMon
  exact State.modBay_view _ _ _ _ (fun _ => rfl)

theorem State.monStart_view {q : Parts} (hq : q.apart { mon := true } = true) (s : State) (b : BayNo) (m : Fin 16) (t : Stamp) : (State.monStart s b m t).view q = s.view q := by
  refine view_of { mon := true } hq ?_
  simp only [State.monStart, ↓State.modMon_view (q := Parts.others { mon := true }) (by decide)]

theorem State.monTake_view {q : Parts} (hq : q.apart { mon := true } = true) (s : State) (b : BayNo) (m : Fin 16) (v : Int) (injected : Bool) (t : Stamp) : (State.monTake s b m v injected t).view q = s.view q := by
  refine view_of { mon := true } hq ?_
  simp only [State.monTake, ↓view_ite, ite_self, ↓State.event_view, ↓State.modMon_view (q := Parts.others { mon := true }) (by decide)]

theorem State.monFeed_view {q : Parts} (hq : q.apart { mon := true } = true) (s : State) (b : BayNo) (quantity object : Nat) (t : Stamp) : (State.monFeed s b quantity object t).view q = s.view q := by
  refine view_of { mon := true } hq ?_
  simp only [State.monFeed, ↓view_ite, ↓foldl_view, ite_self, implies_true, ↓State.monTake_view (q := Parts.others { mon := true }) (by decide)]

end Sys2Proof.Machine
end

