-- ==== Sys2Proof/Laws/View/AuxDac.lean ====
section
/-! SUPPORT. Which parts the operations of Machine/AuxDac.lean leave as they were. -/
namespace Sys2Proof.Machine

theorem State.modAux_view {q : Parts} (hq : q.apart { aux := true } = true) (s : State) (b : BayNo) (f : AuxBay → AuxBay) : (State.modAux s b f).view q = s.view q := by
  refine view_of { aux := true } hq ?_
  unfold State.modAux
  exact State.modBay_view _ _ _ _ (fun _ => rfl)

theorem State.auxComply_view {q : Parts} (hq : q.apart { aux := true } = true) (s : State) (b : BayNo) : (State.auxComply s b).view q = s.view q := by
  refine view_of { aux := true } hq ?_
  simp only [State.auxComply, ↓State.modAux_view (q := Parts.others { aux := true }) (by decide)]

theorem State.auxRefresh_view {q : Parts} (hq : q.apart { aux := true } = true) (s : State) (b : BayNo) : (State.auxRefresh s b).view q = s.view q := by
  refine view_of { aux := true } hq ?_
  simp only [State.auxRefresh]
  repeat' split
  all_goals simp only [↓State.event_view, ↓State.modAux_view (q := Parts.others { aux := true }) (by decide), ↓State.auxComply_view (q := Parts.others { aux := true }) (by decide)]

theorem State.auxRefreshAll_view {q : Parts} (hq : q.apart { aux := true } = true) (s : State) : (State.auxRefreshAll s).view q = s.view q := by
  refine view_of { aux := true } hq ?_
  simp only [State.auxRefreshAll, ↓State.eachBay_view, implies_true, ↓State.auxRefresh_view (q := Parts.others { aux := true }) (by decide)]

theorem State.auxLoad_view {q : Parts} (hq : q.apart { aux := true } = true) (s : State) (b : BayNo) : (State.auxLoad s b).view q = s.view q := by
  refine view_of { aux := true } hq ?_
  simp only [State.auxLoad, ↓State.modAux_view (q := Parts.others { aux := true }) (by decide), ↓State.auxRefresh_view (q := Parts.others { aux := true }) (by decide)]

theorem State.auxUnload_view {q : Parts} (hq : q.apart { aux := true } = true) (s : State) (b : BayNo) : (State.auxUnload s b).view q = s.view q := by
  refine view_of { aux := true } hq ?_
  simp only [State.auxUnload, ↓State.modAux_view (q := Parts.others { aux := true }) (by decide), ↓State.auxRefresh_view (q := Parts.others { aux := true }) (by decide)]

theorem State.auxZero_view {q : Parts} (hq : q.apart { aux := true } = true) (s : State) (b : BayNo) : (State.auxZero s b).view q = s.view q := by
  refine view_of { aux := true } hq ?_
  simp only [State.auxZero, ↓State.modAux_view (q := Parts.others { aux := true }) (by decide), ↓State.auxComply_view (q := Parts.others { aux := true }) (by decide)]

theorem State.auxLost_view {q : Parts} (hq : q.apart { aux := true } = true) (s : State) (b : BayNo) : (State.auxLost s b).view q = s.view q := by
  refine view_of { aux := true } hq ?_
  simp only [State.auxLost, ↓State.modAux_view (q := Parts.others { aux := true }) (by decide)]

theorem State.setAuxCode_view {q : Parts} (hq : q.apart { aux := true } = true) (s : State) (b : BayNo) (n : Fin 4) (v : BitVec 16) : (State.setAuxCode s b n v).view q = s.view q := by
  refine view_of { aux := true } hq ?_
  simp only [State.setAuxCode, ↓State.modAux_view (q := Parts.others { aux := true }) (by decide), ↓State.auxComply_view (q := Parts.others { aux := true }) (by decide)]

theorem execAuxClrAssert_view {q : Parts} (hq : q.apart { pins := true, aux := true } = true) (s : State) : Out.view q (execAuxClrAssert s) = some (s.view q) := by
  refine out_view_of { pins := true, aux := true } hq ?_
  unfold execAuxClrAssert
  split
  · rfl
  · exact next_view ((State.auxRefreshAll_view (by decide) ..).trans rfl)

theorem execAuxClrRelease_view {q : Parts} (hq : q.apart { pins := true, aux := true } = true) (s : State) : Out.view q (execAuxClrRelease s) = some (s.view q) := by
  refine out_view_of { pins := true, aux := true } hq ?_
  unfold execAuxClrRelease
  split
  · rfl
  · exact next_view ((State.auxRefreshAll_view (by decide) ..).trans rfl)

theorem execAuxCodeWrite_view {q : Parts} (hq : q.apart { aux := true } = true) (b : BayNo) (n : Fin 4) (v : Word) (dma : Bool) (s : State) : Out.view q (execAuxCodeWrite b n v dma s) = some (s.view q) := by
  refine out_view_of { aux := true } hq ?_
  simp only [execAuxCodeWrite, ↓out_view_ite, ↓out_view_next, ite_self, ↓State.discarded_view, ↓State.setAuxCode_view (q := Parts.others { aux := true }) (by decide)]

theorem execAuxComplianceFault_view {q : Parts} (hq : q.apart { aux := true } = true) (b : BayNo) (i : Fin 2) (s : State) : Out.view q (execAuxComplianceFault b i s) = some (s.view q) := by
  refine out_view_of { aux := true } hq ?_
  simp only [execAuxComplianceFault, ↓view_ite, ↓out_view_ite, ↓out_view_next, ite_self, ↓State.event_view, ↓State.modAux_view (q := Parts.others { aux := true }) (by decide)]

theorem execAuxComplianceClear_view {q : Parts} (hq : q.apart { aux := true } = true) (b : BayNo) (i : Fin 2) (s : State) : Out.view q (execAuxComplianceClear b i s) = some (s.view q) := by
  refine out_view_of { aux := true } hq ?_
  simp only [execAuxComplianceClear, ↓out_view_ite, ↓out_view_next, ite_self, ↓State.modAux_view (q := Parts.others { aux := true }) (by decide)]

end Sys2Proof.Machine
end

