-- ==== Sys2Proof/Laws/View/Seal.lean ====
section
/-! SUPPORT. Which parts the operations of Machine/Seal.lean leave as they were. -/
namespace Sys2Proof.Machine

theorem State.modIsland_view {q : Parts} (hq : q.apart { keeper := true } = true) (s : State) (f : Island → Island) : (State.modIsland s f).view q = s.view q := by
  refine view_of { keeper := true } hq ?_
  unfold State.modIsland
  first | rfl | (exact State.modBay_view _ _ _ _ (fun _ => rfl)) | (dsimp only; repeat' (first | rfl | split))

theorem State.sealRecord_view {q : Parts} (s : State) (e : LogEntry) : (State.sealRecord s e).view q = s.view q := by
  simp only [State.sealRecord, ↓view_ite, ite_self, ↓State.enqueue_view]

theorem Seal.takeLost_view (k : Seal) (stamp : Stamp) (rtc : Bool) (p : Parts) (hp : p.keeper = false) : (k.takeLost stamp rtc).view p = k.view p := by
  have h : (k.takeLost stamp rtc).fuses = k.fuses ∧ (k.takeLost stamp rtc).rowPending = k.rowPending := by
    unfold Seal.takeLost
    split <;> exact ⟨rfl, rfl⟩
  unfold Seal.view
  rw [hp]
  cases p.fuses <;> simp only [cond_true, cond_false, h.1, h.2]

theorem State.flushOne_view {q : Parts} (hq : q.apart { flash := true, keeper := true, ident := true } = true) (s : State) : (State.flushOne s).view q = s.view q := by
  refine view_of { flash := true, keeper := true, ident := true } hq ?_
  unfold State.flushOne
  split
  · rfl
  · extract_lets k f1 f2 isl k1 rtc k2 s1
    have h1 : s1.view (Parts.others { flash := true, keeper := true, ident := true }) = s.view (Parts.others { flash := true, keeper := true, ident := true }) :=
      (State.sealRecord_view ..).trans
        ((State.modSeal_view (s.modFlash fun _ => f2) (fun _ => k2) (Parts.others { flash := true, keeper := true, ident := true })
          ((Seal.takeLost_view k1 _ _ (Parts.others { flash := true, keeper := true, ident := true }) rfl).trans rfl)).trans
          (State.modFlash_view (q := Parts.others { flash := true, keeper := true, ident := true }) (by decide) ..))
    clear_value s1 k2
    split
    · exact (State.event_view ..).trans ((State.alert_view (by decide) ..).trans ((State.modSeal_view s1 _ _ rfl).trans h1))
    · exact h1

theorem execSealLogFlush_view {q : Parts} (hq : q.apart { flash := true, keeper := true, ident := true } = true) (ok : Bool) (s : State) : Out.view q (execSealLogFlush ok s) = some (s.view q) := by
  refine out_view_of { flash := true, keeper := true, ident := true } hq ?_
  simp only [execSealLogFlush, ↓out_view_ite, ↓out_view_next, ite_self, ↓State.flushOne_view (q := Parts.others { flash := true, keeper := true, ident := true }) (by decide)]

theorem State.timeSetEntry_view {q : Parts} (hq : q.apart { keeper := true } = true) (s : State) (cause : Nat) (before after : Stamp) : (State.timeSetEntry s cause before after).view q = s.view q := by
  refine view_of { keeper := true } hq ?_
  simp only [State.timeSetEntry, ↓State.sealLog_view (q := Parts.others { keeper := true }) (by decide)]

theorem execRtcFollowWrite_view {q : Parts} (hq : q.apart { tbs := true, keeper := true, time := true } = true) (s0 : State) : Out.view q (execRtcFollowWrite s0) = some (s0.view q) := by
  refine out_view_of { tbs := true, keeper := true, time := true } hq ?_
  simp only [execRtcFollowWrite]
  repeat' split
  all_goals simp only [↓out_view_next, ↓State.reach_view (q := Parts.others { tbs := true, keeper := true, time := true }) (by decide), ↓State.modServo_view (q := Parts.others { tbs := true, keeper := true, time := true }) (by decide), ↓State.modIsland_view (q := Parts.others { tbs := true, keeper := true, time := true }) (by decide), ↓State.timeSetEntry_view (q := Parts.others { tbs := true, keeper := true, time := true }) (by decide)]

theorem execVbatBrownout_view {q : Parts} (hq : q.apart { keeper := true } = true) (s : State) : Out.view q (execVbatBrownout s) = some (s.view q) := by
  refine out_view_of { keeper := true } hq ?_
  simp only [execVbatBrownout, ↓out_view_ite, ↓out_view_next, ite_self, ↓State.modIsland_view (q := Parts.others { keeper := true }) (by decide)]

theorem State.tamperLoop_view {q : Parts} (hq : q.apart { keeper := true, ident := true, aux := true } = true) (s : State) (l : Fin 2) (isOpen : Bool) : (State.tamperLoop s l isOpen).view q = s.view q := by
  refine view_of { keeper := true, ident := true, aux := true } hq ?_
  simp only [State.tamperLoop, ↓view_ite, ite_self, ↓State.alert_view (q := Parts.others { keeper := true, ident := true, aux := true }) (by decide), ↓State.sealLog_view (q := Parts.others { keeper := true, ident := true, aux := true }) (by decide), ↓State.auxRefreshAll_view (q := Parts.others { keeper := true, ident := true, aux := true }) (by decide), ↓State.event_view, ↓State.modIsland_view (q := Parts.others { keeper := true, ident := true, aux := true }) (by decide)]

theorem execTamperSample_view {q : Parts} (hq : q.apart { keeper := true, ident := true, time := true, aux := true } = true) (openA openB : Bool) (s : State) : Out.view q (execTamperSample openA openB s) = some (s.view q) := by
  refine out_view_of { keeper := true, ident := true, time := true, aux := true } hq ?_
  simp only [execTamperSample, ↓out_view_next, ↓State.modIsland_view (q := Parts.others { keeper := true, ident := true, time := true, aux := true }) (by decide), ↓State.tamperLoop_view (q := Parts.others { keeper := true, ident := true, time := true, aux := true }) (by decide)]

theorem execSealRowVerified_view {q : Parts} (hq : q.apart { keeper := true, fuses := true } = true) (ok : Bool) (s : State) : Out.view q (execSealRowVerified ok s) = some (s.view q) := by
  refine out_view_of { keeper := true, fuses := true } hq ?_
  simp only [execSealRowVerified]
  repeat' split
  all_goals simp only [↓out_view_next, ↓State.modSeal_free (p := Parts.others { keeper := true, fuses := true }) rfl rfl, ↓State.sealLog_view (q := Parts.others { keeper := true, fuses := true }) (by decide), ↓State.event_view]

theorem State.svcDone_view {q : Parts} (hq : q.apart { keeper := true } = true) (s : State) (op code : Nat) : (State.svcDone s op code).view q = s.view q := by
  refine view_of { keeper := true } hq ?_
  unfold State.svcDone
  dsimp only
  repeat' (first | rfl | with_reducible (first | rfl | refine next_view ?_ | exact State.modBay_view _ _ _ _ (fun _ => rfl) | refine (State.modBay_view _ _ _ _ (fun _ => rfl)).trans ?_ | refine (State.event_view ..).trans ?_) | split | (refine foldl_view _ _ (fun _ _ => ?_) _ _; dsimp only) | (refine (foldl_view _ _ (fun _ _ => ?_) _ _).trans ?_; dsimp only) | (refine (State.eachBay_view _ _ (fun _ _ => ?_) _ _).trans ?_; dsimp only))

theorem execProvisionSignKey_view {q : Parts} (hq : q.apart { keeper := true, fuses := true, ident := true } = true) (s : State) : Out.view q (execProvisionSignKey s) = some (s.view q) := by
  refine out_view_of { keeper := true, fuses := true, ident := true } hq ?_
  simp only [execProvisionSignKey, ↓out_view_ite, ↓out_view_next, ite_self, ↓State.modSeal_free (p := Parts.others { keeper := true, fuses := true, ident := true }) rfl rfl, ↓State.alert_view (q := Parts.others { keeper := true, fuses := true, ident := true }) (by decide), ↓State.sealLog_view (q := Parts.others { keeper := true, fuses := true, ident := true }) (by decide), ↓State.event_view, ↓State.svcDone_view (q := Parts.others { keeper := true, fuses := true, ident := true }) (by decide)]

theorem execProvisionMacKey_view {q : Parts} (hq : q.apart { keeper := true, fuses := true, ident := true } = true) (s : State) : Out.view q (execProvisionMacKey s) = some (s.view q) := by
  refine out_view_of { keeper := true, fuses := true, ident := true } hq ?_
  simp only [execProvisionMacKey, ↓out_view_ite, ↓out_view_next, ite_self, ↓State.modSeal_free (p := Parts.others { keeper := true, fuses := true, ident := true }) rfl rfl, ↓State.alert_view (q := Parts.others { keeper := true, fuses := true, ident := true }) (by decide), ↓State.sealLog_view (q := Parts.others { keeper := true, fuses := true, ident := true }) (by decide), ↓State.event_view, ↓State.svcDone_view (q := Parts.others { keeper := true, fuses := true, ident := true }) (by decide)]

theorem execRevoke_view {q : Parts} (hq : q.apart { keeper := true, fuses := true, ident := true } = true) (s : State) : Out.view q (execRevoke s) = some (s.view q) := by
  refine out_view_of { keeper := true, fuses := true, ident := true } hq ?_
  simp only [execRevoke, ↓out_view_ite, ↓out_view_next, ite_self, ↓State.modSeal_free (p := Parts.others { keeper := true, fuses := true, ident := true }) rfl rfl, ↓State.alert_view (q := Parts.others { keeper := true, fuses := true, ident := true }) (by decide), ↓State.sealLog_view (q := Parts.others { keeper := true, fuses := true, ident := true }) (by decide), ↓State.event_view, ↓State.svcDone_view (q := Parts.others { keeper := true, fuses := true, ident := true }) (by decide)]

theorem execTamperClear_view {q : Parts} (hq : q.apart { keeper := true, aux := true } = true) (s : State) : Out.view q (execTamperClear s) = some (s.view q) := by
  refine out_view_of { keeper := true, aux := true } hq ?_
  simp only [execTamperClear, ↓out_view_ite, ↓out_view_next, ite_self, ↓State.sealLog_view (q := Parts.others { keeper := true, aux := true }) (by decide), ↓State.auxRefreshAll_view (q := Parts.others { keeper := true, aux := true }) (by decide), ↓State.event_view, ↓State.modIsland_view (q := Parts.others { keeper := true, aux := true }) (by decide), ↓State.svcDone_view (q := Parts.others { keeper := true, aux := true }) (by decide)]

theorem execLogVerify_view {q : Parts} (hq : q.apart { keeper := true } = true) (s : State) : Out.view q (execLogVerify s) = some (s.view q) := by
  refine out_view_of { keeper := true } hq ?_
  unfold execLogVerify
  dsimp only
  repeat' (first | rfl | with_reducible (first | rfl | refine next_view ?_ | exact State.modBay_view _ _ _ _ (fun _ => rfl) | refine (State.modBay_view _ _ _ _ (fun _ => rfl)).trans ?_) | split | (refine foldl_view _ _ (fun _ _ => ?_) _ _; dsimp only) | (refine (foldl_view _ _ (fun _ _ => ?_) _ _).trans ?_; dsimp only) | (refine (State.eachBay_view _ _ (fun _ _ => ?_) _ _).trans ?_; dsimp only))

theorem execLogVerifyDone_view {q : Parts} (hq : q.apart { keeper := true } = true) (s : State) : Out.view q (execLogVerifyDone s) = some (s.view q) := by
  refine out_view_of { keeper := true } hq ?_
  unfold execLogVerifyDone
  dsimp only
  repeat' (first | rfl | with_reducible (first | rfl | refine next_view ?_ | exact State.modBay_view _ _ _ _ (fun _ => rfl) | refine (State.modBay_view _ _ _ _ (fun _ => rfl)).trans ?_ | refine (State.svcDone_view (q := Parts.others { keeper := true }) (by decide) ..).trans ?_) | split | (refine foldl_view _ _ (fun _ _ => ?_) _ _; dsimp only) | (refine (foldl_view _ _ (fun _ _ => ?_) _ _).trans ?_; dsimp only) | (refine (State.eachBay_view _ _ (fun _ _ => ?_) _ _).trans ?_; dsimp only))

theorem execLogArchive_view {q : Parts} (hq : q.apart { flash := true, keeper := true } = true) (ok : Bool) (s : State) : Out.view q (execLogArchive ok s) = some (s.view q) := by
  refine out_view_of { flash := true, keeper := true } hq ?_
  unfold execLogArchive
  dsimp only
  repeat' (first | rfl | with_reducible (first | rfl | refine next_view ?_ | exact State.modBay_view _ _ _ _ (fun _ => rfl) | refine (State.modBay_view _ _ _ _ (fun _ => rfl)).trans ?_ | refine (State.sealLog_view (q := Parts.others { flash := true, keeper := true }) (by decide) ..).trans ?_ | refine (State.svcDone_view (q := Parts.others { flash := true, keeper := true }) (by decide) ..).trans ?_) | split | (refine foldl_view _ _ (fun _ _ => ?_) _ _; dsimp only) | (refine (foldl_view _ _ (fun _ _ => ?_) _ _).trans ?_; dsimp only) | (refine (State.eachBay_view _ _ (fun _ _ => ?_) _ _).trans ?_; dsimp only))

theorem State.sealStart_view {q : Parts} (hq : q.apart { keeper := true, ident := true } = true) (s : State) : (State.sealStart s).view q = s.view q := by
  refine view_of { keeper := true, ident := true } hq ?_
  simp only [State.sealStart]
  repeat' split
  all_goals simp only [implies_true, ↓State.modSeal_open (p := Parts.others { keeper := true, ident := true }) rfl, ↓State.alert_view (q := Parts.others { keeper := true, ident := true }) (by decide), ↓State.sealLog_view (q := Parts.others { keeper := true, ident := true }) (by decide), ↓State.event_view, ↓State.modIsland_view (q := Parts.others { keeper := true, ident := true }) (by decide)]

end Sys2Proof.Machine
end

