-- ==== Sys2Proof/Laws/View/Ring.lean ====
section
/-! SUPPORT. Which parts the operations of Machine/Ring.lean leave as they were. -/
namespace Sys2Proof.Machine

theorem State.takeCommand_view {q : Parts} (hq : q.apart { img := true } = true) (s : State) : viewOr q (s.view q) (State.takeCommand s) = s.view q := by
  refine viewOr_of { img := true } hq ?_
  simp only [State.takeCommand, ↓viewOr_some, ↓viewOr_none, ↓viewOr_ite, ite_self, ↓State.modImg_view (q := Parts.others { img := true }) (by decide)]

theorem State.complete_view {q : Parts} (s : State) (op : Nat) (tag : Word) (status : Nat) (detail : Word) (stamp : Stamp) : (State.complete s op tag status detail stamp).view q = s.view q := by
  simp only [State.complete, ↓State.event_view]

theorem State.ringCommand_view {q : Parts} (hq : q.apart { img := true } = true) (s : State) (f : State → State) (h : ∀ s, (f s).view q = s.view q) : Out.view q (s.ringCommand f) = some (s.view q) := by
  unfold State.ringCommand
  split
  · rfl
  · next e => exact next_view ((h _).trans (view_of_some (State.takeCommand_view hq ..) e))

theorem execSnapshotAt_view {q : Parts} (hq : q.apart { img := true, tbs := true } = true) (tag : Word) (t : Stamp) (id : Word) (s : State) : Out.view q (execSnapshotAt tag t id s) = some (s.view q) := by
  refine out_view_of { img := true, tbs := true } hq ?_
  simp only [execSnapshotAt, ↓view_ite, ite_self, implies_true, ↓State.modTbsPkg_view (q := Parts.others { img := true, tbs := true }) (by decide), ↓State.emit_view, ↓State.complete_view, ↓State.ringCommand_view (q := Parts.others { img := true, tbs := true }) (by decide)]

theorem execAcqRestart_view {q : Parts} (hq : q.apart { img := true } = true) (tag : Word) (mask : BitVec 8) (s : State) : Out.view q (execAcqRestart tag mask s) = some (s.view q) := by
  refine out_view_of { img := true } hq ?_
  simp only [execAcqRestart, ↓view_ite, ite_self, implies_true, ↓State.modImg_view (q := Parts.others { img := true }) (by decide), ↓State.complete_view, ↓State.ringCommand_view (q := Parts.others { img := true }) (by decide)]

theorem execUnknownOpcode_view {q : Parts} (hq : q.apart { img := true } = true) (op : BitVec 8) (tag : Word) (s : State) : Out.view q (execUnknownOpcode op tag s) = some (s.view q) := by
  refine out_view_of { img := true } hq ?_
  simp only [execUnknownOpcode, ↓out_view_ite, ↓out_view_next, ite_self, implies_true, ↓State.complete_view, ↓State.ringCommand_view (q := Parts.others { img := true }) (by decide)]

theorem State.queueFlash_view {q : Parts} (hq : q.apart { img := true } = true) (s : State) (op : FlashOp) (tag : Word) (off len : Word) (host : BitVec 64) : (State.queueFlash s op tag off len host).view q = s.view q := by
  refine view_of { img := true } hq ?_
  simp only [State.queueFlash, ↓State.modImg_view (q := Parts.others { img := true }) (by decide)]

theorem execNvmRead_view {q : Parts} (hq : q.apart { img := true } = true) (tag off len : Word) (host : BitVec 64) (s : State) : Out.view q (execNvmRead tag off len host s) = some (s.view q) := by
  refine out_view_of { img := true } hq ?_
  simp only [execNvmRead, implies_true, ↓State.ringCommand_view (q := Parts.others { img := true }) (by decide), ↓State.queueFlash_view (q := Parts.others { img := true }) (by decide)]

theorem execNvmErase_view {q : Parts} (hq : q.apart { img := true } = true) (tag off len : Word) (s : State) : Out.view q (execNvmErase tag off len s) = some (s.view q) := by
  refine out_view_of { img := true } hq ?_
  simp only [execNvmErase, implies_true, ↓State.ringCommand_view (q := Parts.others { img := true }) (by decide), ↓State.queueFlash_view (q := Parts.others { img := true }) (by decide)]

theorem execNvmProgram_view {q : Parts} (hq : q.apart { img := true } = true) (tag off len : Word) (host : BitVec 64) (s : State) : Out.view q (execNvmProgram tag off len host s) = some (s.view q) := by
  refine out_view_of { img := true } hq ?_
  simp only [execNvmProgram, implies_true, ↓State.ringCommand_view (q := Parts.others { img := true }) (by decide), ↓State.queueFlash_view (q := Parts.others { img := true }) (by decide)]

theorem execSealLogRead_view {q : Parts} (hq : q.apart { img := true } = true) (tag first count : Word) (host : BitVec 64) (s : State) : Out.view q (execSealLogRead tag first count host s) = some (s.view q) := by
  refine out_view_of { img := true } hq ?_
  simp only [execSealLogRead, implies_true, ↓State.ringCommand_view (q := Parts.others { img := true }) (by decide), ↓State.queueFlash_view (q := Parts.others { img := true }) (by decide)]

theorem State.programBytes_view {q : Parts} (hq : q.apart { flash := true } = true) (s : State) (off : Nat) (bs : List Byte) : (s.programBytes off bs).view q = s.view q := by
  refine view_of { flash := true } hq ?_
  induction bs generalizing s off with
  | nil => rfl
  | cons x r ih =>
    refine (ih ..).trans ((State.modFlash_view (q := Parts.others { flash := true }) (by decide) ..).trans ?_)
    split
    · rfl
    · exact State.takeFree_view ..

theorem State.flashEffect_view {q : Parts} (hq : q.apart { flash := true } = true) (s : State) (c : FlashCmd) (data : List Byte) : (State.flashEffect s c data).view q = s.view q := by
  refine view_of { flash := true } hq ?_
  unfold State.flashEffect
  split
  · exact State.emit_view ..
  · exact State.modFlash_view (q := Parts.others { flash := true }) (by decide) ..
  · exact State.programBytes_view (q := Parts.others { flash := true }) (by decide) ..
  · exact State.emit_view ..

theorem execFlashCommandDone_view {q : Parts} (hq : q.apart { img := true, flash := true } = true) (ok : Bool) (data : List Byte) (s : State) : Out.view q (execFlashCommandDone ok data s) = some (s.view q) := by
  refine out_view_of { img := true, flash := true } hq ?_
  simp only [execFlashCommandDone]
  repeat' split
  all_goals simp only [↓out_view_next, ↓State.modImg_view (q := Parts.others { img := true, flash := true }) (by decide), ↓State.complete_view, ↓State.flashEffect_view (q := Parts.others { img := true, flash := true }) (by decide)]

theorem execImgCmdTailWrite_view {q : Parts} (hq : q.apart { img := true } = true) (v : BitVec 12) (s : State) : Out.view q (execImgCmdTailWrite v s) = some (s.view q) := by
  refine out_view_of { img := true } hq ?_
  simp only [execImgCmdTailWrite, ↓out_view_ite, ↓out_view_next, ite_self, ↓State.modImg_view (q := Parts.others { img := true }) (by decide)]

theorem execImgCmdCfgWrite_view {q : Parts} (hq : q.apart { img := true } = true) (w : Word) (s : State) : Out.view q (execImgCmdCfgWrite w s) = some (s.view q) := by
  refine out_view_of { img := true } hq ?_
  simp only [execImgCmdCfgWrite, ↓out_view_ite, ↓out_view_next, ite_self, ↓State.modImg_view (q := Parts.others { img := true }) (by decide)]

theorem State.drainBuffer_view {q : Parts} (hq : q.apart { img := true } = true) (s : State) : (State.drainBuffer s).view q = s.view q := by
  refine view_of { img := true } hq ?_
  simp only [State.drainBuffer, ↓view_ite, ↓foldl_view, ite_self, implies_true, ↓State.modImg_view (q := Parts.others { img := true }) (by decide), ↓State.ringEvent_view]

theorem execImgEvtCfgWrite_view {q : Parts} (hq : q.apart { img := true } = true) (w : Word) (s : State) : Out.view q (execImgEvtCfgWrite w s) = some (s.view q) := by
  refine out_view_of { img := true } hq ?_
  simp only [execImgEvtCfgWrite, ↓view_ite, ↓out_view_ite, ↓out_view_next, ite_self, ↓State.modImg_view (q := Parts.others { img := true }) (by decide), ↓State.drainBuffer_view (q := Parts.others { img := true }) (by decide)]

theorem execImgEvtHeadWrite_view {q : Parts} (hq : q.apart { img := true } = true) (v : BitVec 12) (s : State) : Out.view q (execImgEvtHeadWrite v s) = some (s.view q) := by
  refine out_view_of { img := true } hq ?_
  simp only [execImgEvtHeadWrite, ↓out_view_ite, ↓out_view_next, ite_self, ↓State.modImg_view (q := Parts.others { img := true }) (by decide)]

theorem execImgEvtLostRead_view {q : Parts} (hq : q.apart { img := true } = true) (s : State) : Out.view q (execImgEvtLostRead s) = some (s.view q) := by
  refine out_view_of { img := true } hq ?_
  simp only [execImgEvtLostRead, ↓out_view_ite, ↓out_view_next, ite_self, ↓State.modImg_view (q := Parts.others { img := true }) (by decide)]

end Sys2Proof.Machine
end

