-- ==== Sys2Proof/Laws/View/CoreOps.lean ====
section
/-! SUPPORT. Which parts the operations of Machine/CoreOps.lean leave as they were. -/
namespace Sys2Proof.Machine

theorem State.modCore_view {q : Parts} (hq : q.apart { mco := true } = true) (s : State) (b : BayNo) (c : CoreNo) (f : Core → Core) : (State.modCore s b c f).view q = s.view q := by
  refine view_of { mco := true } hq ?_
  unfold State.modCore
  exact State.modBay_view _ _ _ _ (fun _ => rfl)

theorem State.raiseLine_view {q : Parts} (hq : q.apart { mco := true } = true) (s : State) (b : BayNo) (c : CoreNo) (line : Nat) : (State.raiseLine s b c line).view q = s.view q := by
  refine view_of { mco := true } hq ?_
  simp only [State.raiseLine, ↓view_ite, ite_self, ↓State.modCore_view (q := Parts.others { mco := true }) (by decide)]

theorem State.coreFault_view {q : Parts} (hq : q.apart { faults := true, mco := true } = true) (s : State) (b : BayNo) (c : CoreNo) (cause : Nat) (pc : BitVec 14) : (State.coreFault s b c cause pc).view q = s.view q := by
  refine view_of { faults := true, mco := true } hq ?_
  simp only [State.coreFault, ↓view_ite, ite_self, ↓State.faultOpen_view (q := Parts.others { faults := true, mco := true }) (by decide), ↓State.event_view, ↓State.modCore_view (q := Parts.others { faults := true, mco := true }) (by decide)]

theorem State.initRings_view {q : Parts} (hq : q.apart { mco := true } = true) (s : State) (b : BayNo) (c : CoreNo) : (State.initRings s b c).view q = s.view q := by
  refine view_of { mco := true } hq ?_
  simp only [State.initRings, ↓view_ite, ite_self, ↓State.modCore_view (q := Parts.others { mco := true }) (by decide)]

theorem State.restartCore_view {q : Parts} (hq : q.apart { mco := true } = true) (s : State) (b : BayNo) (c : CoreNo) : (State.restartCore s b c).view q = s.view q := by
  refine view_of { mco := true } hq ?_
  simp only [State.restartCore, ↓State.event_view, ↓State.modCore_view (q := Parts.others { mco := true }) (by decide), ↓State.initRings_view (q := Parts.others { mco := true }) (by decide)]

end Sys2Proof.Machine
end

