-- ==== Sys2Proof/Laws/View/Den.lean ====
section
/-! SUPPORT. Which parts the operations of Machine/Den.lean leave as they were. -/
namespace Sys2Proof.Machine

theorem State.denBoundary_view {q : Parts} (hq : q.apart { den := true } = true) (s : State) (b : BayNo) (x : Fin 2) (t : Stamp) : (State.denBoundary s b x t).view q = s.view q := by
  refine view_of { den := true } hq ?_
  simp only [State.denBoundary, ↓view_ite, ite_self, ↓State.modDen_view (q := Parts.others { den := true }) (by decide), ↓State.event_view]

theorem execDenBankClose_view {q : Parts} (hq : q.apart { time := true, den := true } = true) (b : BayNo) (x : Fin 2) (s0 : State) : Out.view q (execDenBankClose b x s0) = some (s0.view q) := by
  refine out_view_of { time := true, den := true } hq ?_
  simp only [execDenBankClose]
  repeat' split
  all_goals simp only [↓out_view_next, ↓State.reach_view (q := Parts.others { time := true, den := true }) (by decide), ↓State.modDen_view (q := Parts.others { time := true, den := true }) (by decide)]

theorem State.frameSettings_view {q : Parts} (s : State) (b : BayNo) (x : Fin 2) (f : FrameInfo) : (State.frameSettings s b x f).2.view q = s.view q := by
  simp only [State.frameSettings]
  repeat' split
  all_goals simp only [↓State.takeFree_view]

theorem State.emitFrame_view {q : Parts} (hq : q.apart { clk := true, time := true, dma := true, units := true, afe := true, ddc := true, xfm := true, den := true, mco := true, scn := true, lne := true, jes := true, links := true, cal := true, hkc := true, mon := true } = true) (s : State) (b : BayNo) (x : Fin 2) (f : DenFrame) : (State.emitFrame s b x f).view q = s.view q := by
  refine view_of { clk := true, time := true, dma := true, units := true, afe := true, ddc := true, xfm := true, den := true, mco := true, scn := true, lne := true, jes := true, links := true, cal := true, hkc := true, mon := true } hq ?_
  simp only [State.emitFrame, ↓view_ite, ite_self, ↓State.modDen_view (q := Parts.others { clk := true, time := true, dma := true, units := true, afe := true, ddc := true, xfm := true, den := true, mco := true, scn := true, lne := true, jes := true, links := true, cal := true, hkc := true, mon := true }) (by decide), ↓State.event_view, ↓State.handOver_view, ↓State.frameSettings_view]

theorem State.finishPass_view {q : Parts} (hq : q.apart { clk := true, time := true, dma := true, units := true, afe := true, ddc := true, xfm := true, den := true, mco := true, scn := true, lne := true, jes := true, links := true, cal := true, hkc := true, mon := true } = true) (s : State) (b : BayNo) (x : Fin 2) : (State.finishPass s b x).view q = s.view q := by
  refine view_of { clk := true, time := true, dma := true, units := true, afe := true, ddc := true, xfm := true, den := true, mco := true, scn := true, lne := true, jes := true, links := true, cal := true, hkc := true, mon := true } hq ?_
  simp only [State.finishPass]
  repeat' split
  all_goals simp only [↓State.modDen_view (q := Parts.others { clk := true, time := true, dma := true, units := true, afe := true, ddc := true, xfm := true, den := true, mco := true, scn := true, lne := true, jes := true, links := true, cal := true, hkc := true, mon := true }) (by decide), ↓State.event_view, ↓State.emitFrame_view (q := Parts.others { clk := true, time := true, dma := true, units := true, afe := true, ddc := true, xfm := true, den := true, mco := true, scn := true, lne := true, jes := true, links := true, cal := true, hkc := true, mon := true }) (by decide)]

theorem execDenPassDone_view {q : Parts} (hq : q.apart { clk := true, time := true, dma := true, units := true, afe := true, ddc := true, xfm := true, den := true, mco := true, scn := true, lne := true, jes := true, links := true, cal := true, hkc := true, mon := true } = true) (b : BayNo) (x : Fin 2) (s0 : State) : Out.view q (execDenPassDone b x s0) = some (s0.view q) := by
  refine out_view_of { clk := true, time := true, dma := true, units := true, afe := true, ddc := true, xfm := true, den := true, mco := true, scn := true, lne := true, jes := true, links := true, cal := true, hkc := true, mon := true } hq ?_
  simp only [execDenPassDone]
  repeat' split
  all_goals simp only [↓out_view_next, ↓State.reach_view (q := Parts.others { clk := true, time := true, dma := true, units := true, afe := true, ddc := true, xfm := true, den := true, mco := true, scn := true, lne := true, jes := true, links := true, cal := true, hkc := true, mon := true }) (by decide), ↓State.finishPass_view (q := Parts.others { clk := true, time := true, dma := true, units := true, afe := true, ddc := true, xfm := true, den := true, mco := true, scn := true, lne := true, jes := true, links := true, cal := true, hkc := true, mon := true }) (by decide)]

theorem execDenClear_view {q : Parts} (hq : q.apart { domains := true, den := true } = true) (b : BayNo) (mask : BitVec 2) (s : State) : Out.view q (execDenClear b mask s) = some (s.view q) := by
  refine out_view_of { domains := true, den := true } hq ?_
  simp only [execDenClear, ↓view_ite, ↓out_view_ite, ↓out_view_next, ↓foldl_view, ite_self, implies_true, ↓State.modDen_view (q := Parts.others { domains := true, den := true }) (by decide), ↓State.fencedAccess_view (q := Parts.others { domains := true, den := true }) (by decide)]

theorem State.denEarly_view {q : Parts} (hq : q.apart { clk := true, time := true, dma := true, units := true, afe := true, ddc := true, xfm := true, den := true, mco := true, scn := true, lne := true, jes := true, links := true, cal := true, hkc := true, mon := true } = true) (s : State) (b : BayNo) (x : Fin 2) (t : Stamp) : (State.denEarly s b x t).view q = s.view q := by
  refine view_of { clk := true, time := true, dma := true, units := true, afe := true, ddc := true, xfm := true, den := true, mco := true, scn := true, lne := true, jes := true, links := true, cal := true, hkc := true, mon := true } hq ?_
  simp only [State.denEarly, ↓view_ite, ite_self, ↓State.modDen_view (q := Parts.others { clk := true, time := true, dma := true, units := true, afe := true, ddc := true, xfm := true, den := true, mco := true, scn := true, lne := true, jes := true, links := true, cal := true, hkc := true, mon := true }) (by decide), ↓State.finishPass_view (q := Parts.others { clk := true, time := true, dma := true, units := true, afe := true, ddc := true, xfm := true, den := true, mco := true, scn := true, lne := true, jes := true, links := true, cal := true, hkc := true, mon := true }) (by decide)]

end Sys2Proof.Machine
end

