-- ==== Sys2Proof/Laws/View/Xfm.lean ====
section
/-! SUPPORT. Which parts the operations of Machine/Xfm.lean leave as they were. -/
namespace Sys2Proof.Machine

theorem State.emitSpec_view {q : Parts} (s : State) (b : BayNo) (x : Fin 2) (sp : Spec) : (State.emitSpec s b x sp).2.view q = s.view q := by
  simp only [State.emitSpec, ↓foldl_view, implies_true, ↓State.enqueue_view]

theorem State.emitPicked_view {q : Parts} (hq : q.apart { xfm := true } = true) (s : State) (b : BayNo) (x : Fin 2) : (State.emitPicked s b x).view q = s.view q := by
  refine view_of { xfm := true } hq ?_
  simp only [State.emitPicked, ↓view_ite, ↓snd_ite, ↓foldl_snd_view, ite_self, implies_true, ↓State.modChan_view (q := Parts.others { xfm := true }) (by decide), ↓State.emitSpec_view]

theorem State.rollTrace_view {q : Parts} (hq : q.apart { xfm := true } = true) (s : State) (b : BayNo) (t : Fin 16) (at_ : Stamp) : (State.rollTrace s b t at_).view q = s.view q := by
  refine view_of { xfm := true } hq ?_
  simp only [State.rollTrace, ↓State.modTrace_view (q := Parts.others { xfm := true }) (by decide)]

theorem State.traceBoundary_view {q : Parts} (hq : q.apart { xfm := true } = true) (s : State) (b : BayNo) (t : Fin 16) (at_ : Stamp) : (State.traceBoundary s b t at_).view q = s.view q := by
  refine view_of { xfm := true } hq ?_
  simp only [State.traceBoundary, ↓State.modTrace_view (q := Parts.others { xfm := true }) (by decide)]

theorem State.traceTake_view {q : Parts} (hq : q.apart { xfm := true } = true) (s : State) (b : BayNo) (t : Fin 16) (sp : Spec) (enbw : Nat) : (State.traceTake s b t sp enbw).view q = s.view q := by
  refine view_of { xfm := true } hq ?_
  simp only [State.traceTake, ↓State.modTrace_view (q := Parts.others { xfm := true }) (by decide), ↓State.rollTrace_view (q := Parts.others { xfm := true }) (by decide)]

theorem State.emptySettings_view {q : Parts} (s : State) (b : BayNo) (x : Fin 2) : (State.emptySettings s b x).2.view q = s.view q := by
  simp only [State.emptySettings, ↓State.takeFree_view]

theorem State.emitTrace_view {q : Parts} (hq : q.apart { xfm := true } = true) (s : State) (b : BayNo) (t : Fin 16) (v : TraceIval) (stop : Stamp) : (State.emitTrace s b t v stop).view q = s.view q := by
  refine view_of { xfm := true } hq ?_
  simp only [State.emitTrace]
  repeat' split
  all_goals simp only [↓State.modTrace_view (q := Parts.others { xfm := true }) (by decide), ↓State.enqueue_view, ↓State.event_view, ↓State.emptySettings_view]

theorem execTraceIntervalEnd_view {q : Parts} (hq : q.apart { time := true, xfm := true } = true) (b : BayNo) (t : Fin 16) (s0 : State) : Out.view q (execTraceIntervalEnd b t s0) = some (s0.view q) := by
  refine out_view_of { time := true, xfm := true } hq ?_
  simp only [execTraceIntervalEnd]
  repeat' split
  all_goals simp only [↓out_view_next, ↓State.reach_view (q := Parts.others { time := true, xfm := true }) (by decide), ↓State.modTrace_view (q := Parts.others { time := true, xfm := true }) (by decide), ↓State.emitTrace_view (q := Parts.others { time := true, xfm := true }) (by decide)]

theorem State.modTap_view {q : Parts} (hq : q.apart { xfm := true } = true) (s : State) (b : BayNo) (c : CoreNo) (f : Tap → Tap) : (State.modTap s b c f).view q = s.view q := by
  refine view_of { xfm := true } hq ?_
  unfold State.modTap
  exact State.modBay_view _ _ _ _ (fun _ => rfl)

theorem State.tapDrop_view {q : Parts} (hq : q.apart { xfm := true, mco := true } = true) (s : State) (b : BayNo) (c : CoreNo) : (State.tapDrop s b c).view q = s.view q := by
  refine view_of { xfm := true, mco := true } hq ?_
  simp only [State.tapDrop, ↓view_ite, ite_self, ↓State.modCore_view (q := Parts.others { xfm := true, mco := true }) (by decide), ↓State.event_view, ↓State.modTap_view (q := Parts.others { xfm := true, mco := true }) (by decide)]

theorem State.tapTake_view {q : Parts} (hq : q.apart { xfm := true, mco := true } = true) (s : State) (b : BayNo) (c : CoreNo) (x : Fin 2) (sp : Spec) : (State.tapTake s b c x sp).view q = s.view q := by
  refine view_of { xfm := true, mco := true } hq ?_
  simp only [State.tapTake, ↓view_ite, ite_self, ↓State.modCore_view (q := Parts.others { xfm := true, mco := true }) (by decide), ↓State.modTap_view (q := Parts.others { xfm := true, mco := true }) (by decide), ↓State.tapDrop_view (q := Parts.others { xfm := true, mco := true }) (by decide)]

theorem execTapSlotWritten_view {q : Parts} (hq : q.apart { xfm := true, mco := true } = true) (b : BayNo) (c : CoreNo) (s : State) : Out.view q (execTapSlotWritten b c s) = some (s.view q) := by
  refine out_view_of { xfm := true, mco := true } hq ?_
  simp only [execTapSlotWritten, ↓out_view_ite, ↓out_view_next, ite_self, ↓State.modCore_view (q := Parts.others { xfm := true, mco := true }) (by decide), ↓State.raiseLine_view (q := Parts.others { xfm := true, mco := true }) (by decide), ↓State.modTap_view (q := Parts.others { xfm := true, mco := true }) (by decide)]

theorem State.distribute_view {q : Parts} (hq : q.apart { xfm := true, den := true, mco := true } = true) (s : State) (b : BayNo) (x : Fin 2) (sp : Spec) : (s.distribute b x sp).view q = s.view q := by
  refine view_of { xfm := true, den := true, mco := true } hq ?_
  unfold State.distribute
  dsimp only
  split
  · split
    · exact (State.emitSpec_view ..).trans ((foldl_view _ _ (fun _ _ => State.tapTake_view (q := Parts.others { xfm := true, den := true, mco := true }) (by decide) ..) _ _).trans
        ((State.modDen_view (q := Parts.others { xfm := true, den := true, mco := true }) (by decide) ..).trans (foldl_view _ _ (fun _ _ => by split <;> first | rfl | exact State.traceTake_view (q := Parts.others { xfm := true, den := true, mco := true }) (by decide) ..) _ _)))
    · exact ((foldl_view _ _ (fun _ _ => State.tapTake_view (q := Parts.others { xfm := true, den := true, mco := true }) (by decide) ..) _ _).trans
        ((State.modDen_view (q := Parts.others { xfm := true, den := true, mco := true }) (by decide) ..).trans (foldl_view _ _ (fun _ _ => by split <;> first | rfl | exact State.traceTake_view (q := Parts.others { xfm := true, den := true, mco := true }) (by decide) ..) _ _)))
  · exact (State.emitPicked_view (q := Parts.others { xfm := true, den := true, mco := true }) (by decide) ..).trans ((foldl_view _ _ (fun _ _ => State.tapTake_view (q := Parts.others { xfm := true, den := true, mco := true }) (by decide) ..) _ _).trans
      ((State.modDen_view (q := Parts.others { xfm := true, den := true, mco := true }) (by decide) ..).trans (foldl_view _ _ (fun _ _ => by split <;> first | rfl | exact State.traceTake_view (q := Parts.others { xfm := true, den := true, mco := true }) (by decide) ..) _ _)))
  · exact ((foldl_view _ _ (fun _ _ => State.tapTake_view (q := Parts.others { xfm := true, den := true, mco := true }) (by decide) ..) _ _).trans
      ((State.modDen_view (q := Parts.others { xfm := true, den := true, mco := true }) (by decide) ..).trans (foldl_view _ _ (fun _ _ => by split <;> first | rfl | exact State.traceTake_view (q := Parts.others { xfm := true, den := true, mco := true }) (by decide) ..) _ _)))

theorem State.atFrame_view {q : Parts} (hq : q.apart { time := true } = true) (s : State) (b : BayNo) (g : GridRun) : (State.atFrame s b g).view q = s.view q := by
  refine view_of { time := true } hq ?_
  simp only [State.atFrame]
  repeat' split
  all_goals simp only [↓State.reach_view (q := Parts.others { time := true }) (by decide)]

theorem execSpectrumReady_view {q : Parts} (hq : q.apart { time := true, xfm := true, den := true, mco := true } = true) (b : BayNo) (x : Fin 2) (ins : List (List Sample)) (s0 : State) : Out.view q (execSpectrumReady b x ins s0) = some (s0.view q) := by
  refine out_view_of { time := true, xfm := true, den := true, mco := true } hq ?_
  simp only [execSpectrumReady]
  repeat' split
  all_goals simp only [↓out_view_next, ↓State.modChan_view (q := Parts.others { time := true, xfm := true, den := true, mco := true }) (by decide), ↓State.distribute_view (q := Parts.others { time := true, xfm := true, den := true, mco := true }) (by decide), ↓State.atFrame_view (q := Parts.others { time := true, xfm := true, den := true, mco := true }) (by decide)]

theorem State.pickSpectra_view {q : Parts} (hq : q.apart { xfm := true } = true) (s : State) (b : BayNo) (x : Fin 2) (t : Stamp) (pre post : Nat) : (State.pickSpectra s b x t pre post).2.view q = s.view q := by
  refine view_of { xfm := true } hq ?_
  simp only [State.pickSpectra]
  repeat' split
  all_goals simp only [↓State.modChan_view (q := Parts.others { xfm := true }) (by decide), ↓State.emitPicked_view (q := Parts.others { xfm := true }) (by decide)]

end Sys2Proof.Machine
end

