-- ==== Sys2Proof/Laws/View/Trg.lean ====
section
/-! SUPPORT. Which parts the operations of Machine/Trg.lean leave as they were. -/
namespace Sys2Proof.Machine

theorem State.outFire_view {q : Parts} (hq : q.apart { trg := true } = true) (s : State) (n : Fin 2) (t : Stamp) : (State.outFire s n t).view q = s.view q := by
  refine view_of { trg := true } hq ?_
  simp only [State.outFire]
  repeat' split
  all_goals simp only [↓State.modTrg_view (q := Parts.others { trg := true }) (by decide), ↓State.event_view]

theorem State.outFires_view {q : Parts} (hq : q.apart { trg := true } = true) (s : State) (src : BayNo) (group : Option Nat) (unitNo : Option Nat) (t : Stamp) : (State.outFires s src group unitNo t).view q = s.view q := by
  refine view_of { trg := true } hq ?_
  simp only [State.outFires, ↓view_ite, ↓foldl_view, ite_self, implies_true, ↓State.outFire_view (q := Parts.others { trg := true }) (by decide)]

theorem execTrigOutEdge_view {q : Parts} (hq : q.apart { trg := true, time := true } = true) (n : Fin 2) (s0 : State) : Out.view q (execTrigOutEdge n s0) = some (s0.view q) := by
  refine out_view_of { trg := true, time := true } hq ?_
  simp only [execTrigOutEdge]
  repeat' split
  all_goals simp only [↓out_view_next, ↓State.modTrg_view (q := Parts.others { trg := true, time := true }) (by decide), ↓State.reach_view (q := Parts.others { trg := true, time := true }) (by decide), ↓State.emit_view]

theorem execTrigOutPulseEnd_view {q : Parts} (hq : q.apart { trg := true, time := true } = true) (n : Fin 2) (s0 : State) : Out.view q (execTrigOutPulseEnd n s0) = some (s0.view q) := by
  refine out_view_of { trg := true, time := true } hq ?_
  simp only [execTrigOutPulseEnd, ↓out_view_ite, ↓out_view_next, ite_self, ↓State.modTrg_view (q := Parts.others { trg := true, time := true }) (by decide), ↓State.reach_view (q := Parts.others { trg := true, time := true }) (by decide), ↓State.emit_view]

theorem State.endByCount_view {q : Parts} (hq : q.apart { units := true } = true) (s : State) (b : BayNo) (u : Fin 8) : (State.endByCount s b u).view q = s.view q := by
  refine view_of { units := true } hq ?_
  simp only [State.endByCount, ↓view_ite, ite_self, ↓State.modUnit_view (q := Parts.others { units := true }) (by decide), ↓State.event_view]

theorem State.renewCycle_view {q : Parts} (hq : q.apart { units := true } = true) (s : State) (b : BayNo) (u : Fin 8) (t : Stamp) : (State.renewCycle s b u t).view q = s.view q := by
  refine view_of { units := true } hq ?_
  simp only [State.renewCycle, ↓view_ite, ite_self, ↓State.modUnit_view (q := Parts.others { units := true }) (by decide)]

theorem State.trigLines_view {q : Parts} (hq : q.apart { mco := true } = true) (s : State) (b : BayNo) (u : Fin 8) (t : Stamp) : (State.trigLines s b u t).view q = s.view q := by
  refine view_of { mco := true } hq ?_
  simp only [State.trigLines, ↓view_ite, ↓foldl_view, ite_self, implies_true, ↓State.modCore_view (q := Parts.others { mco := true }) (by decide), ↓State.raiseLine_view (q := Parts.others { mco := true }) (by decide)]

theorem State.trigger_view {q : Parts} (hq : q.apart { trg := true, units := true, xfm := true, mco := true, recorder := true } = true) (s : State) (b : BayNo) (u : Fin 8) (i : TrigInfo) : (State.trigger s b u i).view q = s.view q := by
  refine view_of { trg := true, units := true, xfm := true, mco := true, recorder := true } hq ?_
  simp only [State.trigger, ↓view_ite, ite_self, ↓State.modUnit_view (q := Parts.others { trg := true, units := true, xfm := true, mco := true, recorder := true }) (by decide), ↓State.pickSpectra_view (q := Parts.others { trg := true, units := true, xfm := true, mco := true, recorder := true }) (by decide), ↓State.freezeRegion_view (q := Parts.others { trg := true, units := true, xfm := true, mco := true, recorder := true }) (by decide), ↓State.enqueue_view, ↓State.outFires_view (q := Parts.others { trg := true, units := true, xfm := true, mco := true, recorder := true }) (by decide), ↓State.endByCount_view (q := Parts.others { trg := true, units := true, xfm := true, mco := true, recorder := true }) (by decide), ↓State.renewCycle_view (q := Parts.others { trg := true, units := true, xfm := true, mco := true, recorder := true }) (by decide), ↓State.trigLines_view (q := Parts.others { trg := true, units := true, xfm := true, mco := true, recorder := true }) (by decide)]

theorem State.missTrigger_view {q : Parts} (hq : q.apart { units := true } = true) (s : State) (b : BayNo) (u : Fin 8) : (State.missTrigger s b u).view q = s.view q := by
  refine view_of { units := true } hq ?_
  simp only [State.missTrigger, ↓view_ite, ite_self, ↓State.modUnit_view (q := Parts.others { units := true }) (by decide), ↓State.event_view]

theorem State.sendRequest_view {q : Parts} (hq : q.apart { trg := true } = true) (s : State) (f : Fire) : (State.sendRequest s f).view q = s.view q := by
  refine view_of { trg := true } hq ?_
  simp only [State.sendRequest, ↓view_ite, ite_self, ↓State.modTrg_view (q := Parts.others { trg := true }) (by decide), ↓State.emit_view]

theorem State.unitEvent_view {q : Parts} (hq : q.apart { trg := true, units := true, xfm := true, mco := true, recorder := true } = true) (s : State) (b : BayNo) (u : Fin 8) (i : TrigInfo) : (State.unitEvent s b u i).view q = s.view q := by
  refine view_of { trg := true, units := true, xfm := true, mco := true, recorder := true } hq ?_
  simp only [State.unitEvent, ↓view_ite, ite_self, ↓State.modUnit_view (q := Parts.others { trg := true, units := true, xfm := true, mco := true, recorder := true }) (by decide), ↓State.trigger_view (q := Parts.others { trg := true, units := true, xfm := true, mco := true, recorder := true }) (by decide), ↓State.missTrigger_view (q := Parts.others { trg := true, units := true, xfm := true, mco := true, recorder := true }) (by decide), ↓State.sendRequest_view (q := Parts.others { trg := true, units := true, xfm := true, mco := true, recorder := true }) (by decide)]

theorem State.condEvent_view {q : Parts} (hq : q.apart { trg := true, units := true, xfm := true, mco := true, recorder := true } = true) (s : State) (b : BayNo) (u : Fin 8) (c : Condition) (length : Nat) : (State.condEvent s b u c length).view q = s.view q := by
  refine view_of { trg := true, units := true, xfm := true, mco := true, recorder := true } hq ?_
  simp only [State.condEvent, ↓State.unitEvent_view (q := Parts.others { trg := true, units := true, xfm := true, mco := true, recorder := true }) (by decide)]

theorem State.condStart_view {q : Parts} (hq : q.apart { trg := true, units := true, xfm := true, mco := true, recorder := true } = true) (s : State) (b : BayNo) (u : Fin 8) (c : Condition) : (State.condStart s b u c).view q = s.view q := by
  refine view_of { trg := true, units := true, xfm := true, mco := true, recorder := true } hq ?_
  simp only [State.condStart, ↓view_ite, ite_self, ↓State.modUnit_view (q := Parts.others { trg := true, units := true, xfm := true, mco := true, recorder := true }) (by decide), ↓State.condEvent_view (q := Parts.others { trg := true, units := true, xfm := true, mco := true, recorder := true }) (by decide)]

theorem State.condEnd_view {q : Parts} (hq : q.apart { trg := true, units := true, xfm := true, mco := true, recorder := true } = true) (s : State) (b : BayNo) (u : Fin 8) (t : Stamp) : (State.condEnd s b u t).view q = s.view q := by
  refine view_of { trg := true, units := true, xfm := true, mco := true, recorder := true } hq ?_
  simp only [State.condEnd]
  repeat' split
  all_goals simp only [↓State.modUnit_view (q := Parts.others { trg := true, units := true, xfm := true, mco := true, recorder := true }) (by decide), ↓State.condEvent_view (q := Parts.others { trg := true, units := true, xfm := true, mco := true, recorder := true }) (by decide)]

theorem State.evaluate_view {q : Parts} (hq : q.apart { trg := true, units := true, xfm := true, mco := true, recorder := true } = true) (s : State) (b : BayNo) (u : Fin 8) (l : Look) : (State.evaluate s b u l).view q = s.view q := by
  refine view_of { trg := true, units := true, xfm := true, mco := true, recorder := true } hq ?_
  simp only [State.evaluate]
  repeat' split
  all_goals simp only [↓State.modUnit_view (q := Parts.others { trg := true, units := true, xfm := true, mco := true, recorder := true }) (by decide), ↓State.condStart_view (q := Parts.others { trg := true, units := true, xfm := true, mco := true, recorder := true }) (by decide), ↓State.condEnd_view (q := Parts.others { trg := true, units := true, xfm := true, mco := true, recorder := true }) (by decide)]

theorem State.evalSpectrum_view {q : Parts} (hq : q.apart { trg := true, units := true, xfm := true, mco := true, recorder := true } = true) (s : State) (b : BayNo) (u : Fin 8) (mask : Bool) : (State.evalSpectrum s b u mask).view q = s.view q := by
  refine view_of { trg := true, units := true, xfm := true, mco := true, recorder := true } hq ?_
  simp only [State.evalSpectrum]
  repeat' split
  all_goals simp only [↓State.modUnit_view (q := Parts.others { trg := true, units := true, xfm := true, mco := true, recorder := true }) (by decide), ↓State.evaluate_view (q := Parts.others { trg := true, units := true, xfm := true, mco := true, recorder := true }) (by decide)]

theorem execTriggerEvent_view {q : Parts} (hq : q.apart { trg := true, units := true, xfm := true, mco := true, recorder := true } = true) (b : BayNo) (u : Fin 8) (o : LevelObs) (s : State) : Out.view q (execTriggerEvent b u o s) = some (s.view q) := by
  refine out_view_of { trg := true, units := true, xfm := true, mco := true, recorder := true } hq ?_
  simp only [execTriggerEvent]
  repeat' split
  all_goals simp only [↓out_view_next, ↓State.modUnit_view (q := Parts.others { trg := true, units := true, xfm := true, mco := true, recorder := true }) (by decide), ↓State.evaluate_view (q := Parts.others { trg := true, units := true, xfm := true, mco := true, recorder := true }) (by decide), ↓State.evalSpectrum_view (q := Parts.others { trg := true, units := true, xfm := true, mco := true, recorder := true }) (by decide)]

theorem execQualLongerExpire_view {q : Parts} (hq : q.apart { trg := true, time := true, units := true, xfm := true, mco := true, recorder := true } = true) (b : BayNo) (u : Fin 8) (s0 : State) : Out.view q (execQualLongerExpire b u s0) = some (s0.view q) := by
  refine out_view_of { trg := true, time := true, units := true, xfm := true, mco := true, recorder := true } hq ?_
  simp only [execQualLongerExpire]
  repeat' split
  all_goals simp only [↓out_view_next, ↓State.reach_view (q := Parts.others { trg := true, time := true, units := true, xfm := true, mco := true, recorder := true }) (by decide), ↓State.modUnit_view (q := Parts.others { trg := true, time := true, units := true, xfm := true, mco := true, recorder := true }) (by decide), ↓State.condEvent_view (q := Parts.others { trg := true, time := true, units := true, xfm := true, mco := true, recorder := true }) (by decide)]

theorem State.coreEvent_view {q : Parts} (hq : q.apart { trg := true, units := true, xfm := true, mco := true, recorder := true } = true) (s : State) (b : BayNo) (u : Fin 8) (t : Stamp) (w : Word) : (State.coreEvent s b u t w).view q = s.view q := by
  refine view_of { trg := true, units := true, xfm := true, mco := true, recorder := true } hq ?_
  unfold State.coreEvent
  try dsimp only
  repeat' (first | rfl | with_reducible (first | rfl | refine next_view ?_ | exact State.modBay_view _ _ _ _ (fun _ => rfl) | exact State.modSeal_view _ _ _ rfl | refine (State.modSeal_view _ _ _ rfl).trans ?_ | refine (State.modSeal_free (by decide) (by decide) ..).trans ?_ | refine (State.modBay_view _ _ _ _ (fun _ => rfl)).trans ?_ | refine (State.unitEvent_view (q := Parts.others { trg := true, units := true, xfm := true, mco := true, recorder := true }) (by decide) ..).trans ?_) | split | (refine foldl_view _ _ (fun _ _ => ?_) _ _; try dsimp only) | (refine (foldl_view _ _ (fun _ _ => ?_) _ _).trans ?_; try dsimp only) | (refine (State.eachBay_view _ _ (fun _ _ => ?_) _ _).trans ?_; try dsimp only))

theorem State.coreLine_view {q : Parts} (hq : q.apart { trg := true, units := true, xfm := true, mco := true, recorder := true } = true) (s : State) (b : BayNo) (c : CoreNo) (e : Nat) (t : Stamp) (w : Word) : (State.coreLine s b c e t w).view q = s.view q := by
  refine view_of { trg := true, units := true, xfm := true, mco := true, recorder := true } hq ?_
  simp only [State.coreLine, ↓view_ite, ↓foldl_view, ite_self, implies_true, ↓State.modUnit_view (q := Parts.others { trg := true, units := true, xfm := true, mco := true, recorder := true }) (by decide), ↓State.coreEvent_view (q := Parts.others { trg := true, units := true, xfm := true, mco := true, recorder := true }) (by decide)]

theorem execCoreEventDue_view {q : Parts} (hq : q.apart { trg := true, time := true, units := true, xfm := true, mco := true, recorder := true } = true) (b : BayNo) (u : Fin 8) (s0 : State) : Out.view q (execCoreEventDue b u s0) = some (s0.view q) := by
  refine out_view_of { trg := true, time := true, units := true, xfm := true, mco := true, recorder := true } hq ?_
  simp only [execCoreEventDue]
  repeat' split
  all_goals simp only [↓out_view_next, ↓State.reach_view (q := Parts.others { trg := true, time := true, units := true, xfm := true, mco := true, recorder := true }) (by decide), ↓State.modUnit_view (q := Parts.others { trg := true, time := true, units := true, xfm := true, mco := true, recorder := true }) (by decide), ↓State.coreEvent_view (q := Parts.others { trg := true, time := true, units := true, xfm := true, mco := true, recorder := true }) (by decide)]

theorem execTrigInEdge_view {q : Parts} (hq : q.apart { trg := true, time := true, units := true, xfm := true, mco := true, recorder := true } = true) (b : BayNo) (n : Fin 2) (t : Stamp) (falling longPulse : Bool) (s : State) : Out.view q (execTrigInEdge b n t falling longPulse s) = some (s.view q) := by
  refine out_view_of { trg := true, time := true, units := true, xfm := true, mco := true, recorder := true } hq ?_
  simp only [execTrigInEdge]
  repeat' split
  all_goals simp only [↓view_ite, ↓out_view_next, ↓foldl_view, ite_self, implies_true, ↓State.tdcEdge_view (q := Parts.others { trg := true, time := true, units := true, xfm := true, mco := true, recorder := true }) (by decide), ↓State.unitEvent_view (q := Parts.others { trg := true, time := true, units := true, xfm := true, mco := true, recorder := true }) (by decide)]

theorem execTrgForce_view {q : Parts} (hq : q.apart { trg := true, domains := true, units := true, xfm := true, mco := true, recorder := true } = true) (b : BayNo) (mask : BitVec 8) (s : State) : Out.view q (execTrgForce b mask s) = some (s.view q) := by
  refine out_view_of { trg := true, domains := true, units := true, xfm := true, mco := true, recorder := true } hq ?_
  simp only [execTrgForce, ↓view_ite, ↓out_view_ite, ↓out_view_next, ↓foldl_view, ite_self, implies_true, ↓State.modUnit_view (q := Parts.others { trg := true, domains := true, units := true, xfm := true, mco := true, recorder := true }) (by decide), ↓State.fencedAccess_view (q := Parts.others { trg := true, domains := true, units := true, xfm := true, mco := true, recorder := true }) (by decide), ↓State.trigger_view (q := Parts.others { trg := true, domains := true, units := true, xfm := true, mco := true, recorder := true }) (by decide), ↓State.sendRequest_view (q := Parts.others { trg := true, domains := true, units := true, xfm := true, mco := true, recorder := true }) (by decide)]

theorem execGroupFireRequest_view {q : Parts} (hq : q.apart { trg := true } = true) (remote : Option Fire) (s : State) : Out.view q (execGroupFireRequest remote s) = some (s.view q) := by
  refine out_view_of { trg := true } hq ?_
  unfold execGroupFireRequest
  split
  · rfl
  · extract_lets taken
    have ht : ∀ f t, taken = some (f, t) → t.view (Parts.others { trg := true }) = s.view (Parts.others { trg := true }) := by
      intro f t e
      cases remote with
      | some g => simp only [taken] at e; cases e; rfl
      | none =>
        simp only [taken] at e
        split at e
        · cases e
        · cases e; rfl
    clear_value taken
    cases taken with
    | none => rfl
    | some p =>
      have hp := ht p.1 p.2 rfl
      dsimp only
      split
      · refine (out_view_ite _ _ _ _).trans ?_
        simp only [↓out_view_next, ↓view_ite, ↓State.emit_view, ↓State.outFires_view (q := Parts.others { trg := true }) (by decide), ↓State.modTrg_view (q := Parts.others { trg := true }) (by decide), hp, ite_self]
      · exact next_view hp

theorem State.memberFire_view {q : Parts} (hq : q.apart { trg := true, units := true, xfm := true, mco := true, recorder := true } = true) (s : State) (b : BayNo) (u : Fin 8) (f : Fire) : (State.memberFire s b u f).view q = s.view q := by
  refine view_of { trg := true, units := true, xfm := true, mco := true, recorder := true } hq ?_
  simp only [State.memberFire, ↓view_ite, ite_self, ↓State.modUnit_view (q := Parts.others { trg := true, units := true, xfm := true, mco := true, recorder := true }) (by decide), ↓State.trigger_view (q := Parts.others { trg := true, units := true, xfm := true, mco := true, recorder := true }) (by decide), ↓State.missTrigger_view (q := Parts.others { trg := true, units := true, xfm := true, mco := true, recorder := true }) (by decide)]

theorem State.fireHeld_view {q : Parts} (hq : q.apart { trg := true, units := true, xfm := true, mco := true, recorder := true } = true) (s : State) (ps : List HeldPacket) : (State.fireHeld s ps).view q = s.view q := by
  refine view_of { trg := true, units := true, xfm := true, mco := true, recorder := true } hq ?_
  unfold State.fireHeld
  try dsimp only
  repeat' (first | rfl | with_reducible (first | rfl | refine next_view ?_ | exact State.modBay_view _ _ _ _ (fun _ => rfl) | exact State.modSeal_view _ _ _ rfl | refine (State.modSeal_view _ _ _ rfl).trans ?_ | refine (State.modSeal_free (by decide) (by decide) ..).trans ?_ | refine (State.modBay_view _ _ _ _ (fun _ => rfl)).trans ?_ | refine (State.memberFire_view (q := Parts.others { trg := true, units := true, xfm := true, mco := true, recorder := true }) (by decide) ..).trans ?_) | split | (refine foldl_view _ _ (fun _ _ => ?_) _ _; try dsimp only) | (refine (foldl_view _ _ (fun _ _ => ?_) _ _).trans ?_; try dsimp only) | (refine (State.eachBay_view _ _ (fun _ _ => ?_) _ _).trans ?_; try dsimp only))

theorem State.deliverFire_view {q : Parts} (hq : q.apart { trg := true, units := true, xfm := true, mco := true, recorder := true } = true) (s : State) (a b : BayNo) (u : Fin 8) (f : Fire) : (State.deliverFire s a b u f).view q = s.view q := by
  refine view_of { trg := true, units := true, xfm := true, mco := true, recorder := true } hq ?_
  simp only [State.deliverFire]
  repeat' split
  all_goals simp only [↓State.linkDraw_view, ↓State.passHeld_view, ↓State.event_view, ↓State.holdPacket_view, ↓State.memberFire_view (q := Parts.others { trg := true, units := true, xfm := true, mco := true, recorder := true }) (by decide), ↓State.fireHeld_view (q := Parts.others { trg := true, units := true, xfm := true, mco := true, recorder := true }) (by decide)]

theorem execGroupFireBroadcast_view {q : Parts} (hq : q.apart { trg := true, units := true, xfm := true, mco := true, recorder := true } = true) (b : BayNo) (u : Fin 8) (remote : Option Fire) (s : State) : Out.view q (execGroupFireBroadcast b u remote s) = some (s.view q) := by
  refine out_view_of { trg := true, units := true, xfm := true, mco := true, recorder := true } hq ?_
  simp only [execGroupFireBroadcast]
  repeat' split
  all_goals simp only [↓out_view_next, ↓State.modTrg_view (q := Parts.others { trg := true, units := true, xfm := true, mco := true, recorder := true }) (by decide), ↓State.outFires_view (q := Parts.others { trg := true, units := true, xfm := true, mco := true, recorder := true }) (by decide), ↓State.memberFire_view (q := Parts.others { trg := true, units := true, xfm := true, mco := true, recorder := true }) (by decide), ↓State.deliverFire_view (q := Parts.others { trg := true, units := true, xfm := true, mco := true, recorder := true }) (by decide)]

theorem State.armCommand_view {q : Parts} (hq : q.apart { trg := true } = true) (s : State) (op : Nat) (tag : Word) (bays units : BitVec 8) (pkgs : BitVec 4) (t : Stamp) : (State.armCommand s op tag bays units pkgs t).view q = s.view q := by
  refine view_of { trg := true } hq ?_
  simp only [State.armCommand, ↓view_ite, ite_self, ↓State.modTrg_view (q := Parts.others { trg := true }) (by decide), ↓State.complete_view, ↓State.emit_view]

theorem execArm_view {q : Parts} (hq : q.apart { img := true, trg := true } = true) (tag : Word) (bays units : BitVec 8) (pkgs : BitVec 4) (t : Stamp) (s : State) : Out.view q (execArm tag bays units pkgs t s) = some (s.view q) := by
  refine out_view_of { img := true, trg := true } hq ?_
  simp only [execArm, implies_true, ↓State.ringCommand_view (q := Parts.others { img := true, trg := true }) (by decide), ↓State.armCommand_view (q := Parts.others { img := true, trg := true }) (by decide)]

theorem execDisarm_view {q : Parts} (hq : q.apart { img := true, trg := true } = true) (tag : Word) (bays units : BitVec 8) (pkgs : BitVec 4) (t : Stamp) (s : State) : Out.view q (execDisarm tag bays units pkgs t s) = some (s.view q) := by
  refine out_view_of { img := true, trg := true } hq ?_
  simp only [execDisarm, implies_true, ↓State.ringCommand_view (q := Parts.others { img := true, trg := true }) (by decide), ↓State.armCommand_view (q := Parts.others { img := true, trg := true }) (by decide)]

theorem State.takeOrder_view {q : Parts} (hq : q.apart { trg := true } = true) (s : State) (arms : Bool) (remote : Option ArmOrder) (o : ArmOrder) (t : State) (h : s.takeOrder arms remote = some (o, t)) : t.view q = s.view q := by
  refine view_of { trg := true } hq ?_
  unfold State.takeOrder at h
  repeat' split at h
  all_goals first | cases h; rfl | cases h

theorem State.armUnits_view {q : Parts} (hq : q.apart { tbs := true, units := true } = true) (s : State) (o : ArmOrder) : (State.armUnits s o).view q = s.view q := by
  refine view_of { tbs := true, units := true } hq ?_
  simp only [State.armUnits, ↓foldl_view, implies_true, ↓State.modServo_view (q := Parts.others { tbs := true, units := true }) (by decide), ↓State.modUnit_view (q := Parts.others { tbs := true, units := true }) (by decide), ↓State.event_view]

theorem execDisarmTakeEffect_view {q : Parts} (hq : q.apart { trg := true, time := true, units := true } = true) (remote : Option ArmOrder) (s0 : State) : Out.view q (execDisarmTakeEffect remote s0) = some (s0.view q) := by
  refine out_view_of { trg := true, time := true, units := true } hq ?_
  unfold execDisarmTakeEffect
  split
  · rfl
  · next o s1 e =>
    have h1 := State.takeOrder_view (q := Parts.others { trg := true, time := true, units := true }) (by decide) _ _ _ _ _ e
    split
    · rfl
    · exact next_view ((State.event_view ..).trans ((foldl_view _ _ (fun _ _ => State.modUnit_view (q := Parts.others { trg := true, time := true, units := true }) (by decide) ..) _ _).trans
        ((State.reach_view (q := Parts.others { trg := true, time := true, units := true }) (by decide) ..).trans h1)))

theorem State.autoArm_view {q : Parts} (hq : q.apart { trg := true } = true) (s : State) (t : Stamp) : (State.autoArm s t).view q = s.view q := by
  refine view_of { trg := true } hq ?_
  simp only [State.autoArm, ↓view_ite, ite_self, ↓State.modTrg_view (q := Parts.others { trg := true }) (by decide), ↓State.emit_view]

theorem State.emitSegment_view {q : Parts} (s : State) (b : BayNo) (u : Fin 8) (g : Segment) (xs : List Sample) : (State.emitSegment s b u g xs).2.view q = s.view q := by
  simp only [State.emitSegment, ↓foldl_view, implies_true, ↓State.enqueue_view]

theorem execSegmentPostDone_view {q : Parts} (hq : q.apart { time := true, units := true } = true) (b : BayNo) (u : Fin 8) (xs : List Sample) (s0 : State) : Out.view q (execSegmentPostDone b u xs s0) = some (s0.view q) := by
  refine out_view_of { time := true, units := true } hq ?_
  simp only [execSegmentPostDone]
  repeat' split
  all_goals simp only [↓out_view_next, ↓State.reach_view (q := Parts.others { time := true, units := true }) (by decide), ↓State.modUnit_view (q := Parts.others { time := true, units := true }) (by decide), ↓State.emitSegment_view]

theorem execSlotFreed_view {q : Parts} (hq : q.apart { units := true } = true) (b : BayNo) (u : Fin 8) (s : State) : Out.view q (execSlotFreed b u s) = some (s.view q) := by
  refine out_view_of { units := true } hq ?_
  simp only [execSlotFreed]
  repeat' split
  all_goals simp only [↓out_view_next, ↓State.modUnit_view (q := Parts.others { units := true }) (by decide), ↓State.enqueue_view]

theorem execUnitRearm_view {q : Parts} (hq : q.apart { time := true, units := true, mon := true } = true) (b : BayNo) (u : Fin 8) (s0 : State) : Out.view q (execUnitRearm b u s0) = some (s0.view q) := by
  refine out_view_of { time := true, units := true, mon := true } hq ?_
  simp only [execUnitRearm, ↓out_view_ite, ↓out_view_next, ite_self, ↓State.reach_view (q := Parts.others { time := true, units := true, mon := true }) (by decide), ↓State.modUnit_view (q := Parts.others { time := true, units := true, mon := true }) (by decide), ↓State.monFeed_view (q := Parts.others { time := true, units := true, mon := true }) (by decide), ↓State.renewCycle_view (q := Parts.others { time := true, units := true, mon := true }) (by decide)]

theorem State.loadCopy_view {q : Parts} (hq : q.apart { units := true } = true) (s : State) (b : BayNo) (u : Fin 8) : (State.loadCopy s b u).view q = s.view q := by
  refine view_of { units := true } hq ?_
  simp only [State.loadCopy, ↓State.modUnit_view (q := Parts.others { units := true }) (by decide)]

theorem execMaskBump_view {q : Parts} (hq : q.apart { units := true } = true) (b : BayNo) (m : Fin 8) (gen : BitVec 16) (s : State) : Out.view q (execMaskBump b m gen s) = some (s.view q) := by
  refine out_view_of { units := true } hq ?_
  unfold execMaskBump
  try dsimp only
  repeat' (first | rfl | with_reducible (first | rfl | refine next_view ?_ | exact State.modBay_view _ _ _ _ (fun _ => rfl) | exact State.modSeal_view _ _ _ rfl | refine (State.modSeal_view _ _ _ rfl).trans ?_ | refine (State.modSeal_free (by decide) (by decide) ..).trans ?_ | refine (State.modBay_view _ _ _ _ (fun _ => rfl)).trans ?_ | refine (State.modUnit_view (q := Parts.others { units := true }) (by decide) ..).trans ?_) | split | (refine foldl_view _ _ (fun _ _ => ?_) _ _; try dsimp only) | (refine (foldl_view _ _ (fun _ _ => ?_) _ _).trans ?_; try dsimp only) | (refine (State.eachBay_view _ _ (fun _ _ => ?_) _ _).trans ?_; try dsimp only))

theorem execMaskCopyDone_view {q : Parts} (hq : q.apart { units := true } = true) (b : BayNo) (u : Fin 8) (s : State) : Out.view q (execMaskCopyDone b u s) = some (s.view q) := by
  refine out_view_of { units := true } hq ?_
  simp only [execMaskCopyDone, ↓out_view_ite, ↓out_view_next, ite_self, ↓State.modUnit_view (q := Parts.others { units := true }) (by decide)]

theorem State.maskSwitch_view {q : Parts} (hq : q.apart { units := true } = true) (s : State) (b : BayNo) (u : Fin 8) (t : Stamp) : (State.maskSwitch s b u t).view q = s.view q := by
  refine view_of { units := true } hq ?_
  simp only [State.maskSwitch]
  repeat' split
  all_goals simp only [↓State.modUnit_view (q := Parts.others { units := true }) (by decide), ↓State.event_view]

theorem State.writeMask_view {q : Parts} (hq : q.apart { units := true } = true) (s : State) (b : BayNo) (e : Nat) (v : Word) : (State.writeMask s b e v).view q = s.view q := by
  refine view_of { units := true } hq ?_
  unfold State.writeMask
  refine (foldl_view _ _ (fun s m => ?_) _ _).trans (State.modBay_view _ _ _ _ (fun _ => rfl))
  split
  · exact (foldl_view _ _ (fun _ _ => State.modUnit_view (q := Parts.others { units := true }) (by decide) ..) _ _).trans (State.modBay_view _ _ _ _ (fun _ => rfl))
  · rfl

theorem execMaskStoreWrite_view {q : Parts} (hq : q.apart { domains := true, units := true } = true) (b : BayNo) (e : BitVec 17) (v : Word) (s : State) : Out.view q (execMaskStoreWrite b e v s) = some (s.view q) := by
  refine out_view_of { domains := true, units := true } hq ?_
  simp only [execMaskStoreWrite, ↓out_view_ite, ↓out_view_next, ite_self, ↓State.fencedAccess_view (q := Parts.others { domains := true, units := true }) (by decide), ↓State.writeMask_view (q := Parts.others { domains := true, units := true }) (by decide)]

theorem State.reloadMasks_view {q : Parts} (hq : q.apart { units := true } = true) (s : State) (b : BayNo) : (State.reloadMasks s b).view q = s.view q := by
  refine view_of { units := true } hq ?_
  simp only [State.reloadMasks, ↓view_ite, ↓foldl_view, ite_self, implies_true, ↓State.modUnit_view (q := Parts.others { units := true }) (by decide)]

theorem State.unitChanged_view {q : Parts} (hq : q.apart { units := true } = true) (s : State) (b : BayNo) (u : Fin 8) (t : Stamp) : (State.unitChanged s b u t).view q = s.view q := by
  refine view_of { units := true } hq ?_
  simp only [State.unitChanged, ↓view_ite, ite_self, ↓State.modUnit_view (q := Parts.others { units := true }) (by decide), ↓State.loadCopy_view (q := Parts.others { units := true }) (by decide)]

theorem State.trgBoundary_view {q : Parts} (hq : q.apart { units := true } = true) (s : State) (b : BayNo) : (State.trgBoundary s b).view q = s.view q := by
  refine view_of { units := true } hq ?_
  simp only [State.trgBoundary, ↓foldl_view, implies_true, ↓State.modUnit_view (q := Parts.others { units := true }) (by decide), ↓State.reloadMasks_view (q := Parts.others { units := true }) (by decide)]

end Sys2Proof.Machine
end

