-- ==== Sys2Proof/Laws/View/Cal.lean ====
section
/-! SUPPORT. Which parts the operations of Machine/Cal.lean leave as they were. -/
namespace Sys2Proof.Machine

theorem State.modCal_view {q : Parts} (hq : q.apart { cal := true } = true) (s : State) (b : BayNo) (i : Fin 2) (f : CalIn → CalIn) : (State.modCal s b i f).view q = s.view q := by
  refine view_of { cal := true } hq ?_
  unfold State.modCal
  exact State.modBay_view _ _ _ _ (fun _ => rfl)

theorem State.noteDefer_view {q : Parts} (hq : q.apart { cal := true } = true) (s : State) (b : BayNo) (i : Fin 2) : (State.noteDefer s b i).view q = s.view q := by
  refine view_of { cal := true } hq ?_
  simp only [State.noteDefer]
  repeat' split
  all_goals simp only [↓State.event_view, ↓State.modCal_view (q := Parts.others { cal := true }) (by decide)]

theorem State.calDueNow_view {q : Parts} (hq : q.apart { cal := true } = true) (s : State) (b : BayNo) (i : Fin 2) (cause : Nat) : (State.calDueNow s b i cause).view q = s.view q := by
  refine view_of { cal := true } hq ?_
  simp only [State.calDueNow, ↓State.modCal_view (q := Parts.others { cal := true }) (by decide), ↓State.noteDefer_view (q := Parts.others { cal := true }) (by decide)]

theorem State.calRequest_view {q : Parts} (hq : q.apart { cal := true } = true) (s : State) (b : BayNo) : (s.calRequest b).view q = s.view q := by
  refine view_of { cal := true } hq ?_
  unfold State.calRequest
  refine foldl_view _ _ (fun s i => ?_) _ _
  dsimp only
  split
  · exact State.modCal_view (q := Parts.others { cal := true }) (by decide) ..
  · split
    · rfl
    · exact State.calDueNow_view (q := Parts.others { cal := true }) (by decide) ..

theorem execCalIntervalDue_view {q : Parts} (hq : q.apart { time := true, cal := true } = true) (b : BayNo) (i : Fin 2) (s0 : State) : Out.view q (execCalIntervalDue b i s0) = some (s0.view q) := by
  refine out_view_of { time := true, cal := true } hq ?_
  simp only [execCalIntervalDue]
  repeat' split
  all_goals simp only [↓out_view_next, ↓State.reach_view (q := Parts.others { time := true, cal := true }) (by decide), ↓State.calDueNow_view (q := Parts.others { time := true, cal := true }) (by decide)]

theorem execCalBackoffEnd_view {q : Parts} (hq : q.apart { time := true, cal := true } = true) (b : BayNo) (i : Fin 2) (s0 : State) : Out.view q (execCalBackoffEnd b i s0) = some (s0.view q) := by
  refine out_view_of { time := true, cal := true } hq ?_
  simp only [execCalBackoffEnd]
  repeat' split
  all_goals simp only [↓out_view_next, ↓State.reach_view (q := Parts.others { time := true, cal := true }) (by decide), ↓State.calDueNow_view (q := Parts.others { time := true, cal := true }) (by decide)]

theorem State.calStart_view {q : Parts} (hq : q.apart { units := true, afe := true, adc := true, ddc := true, xfm := true, den := true, cal := true } = true) (s : State) (b : BayNo) (i : Fin 2) (d : CalDue) (forced : Bool) : (State.calStart s b i d forced).view q = s.view q := by
  refine view_of { units := true, afe := true, adc := true, ddc := true, xfm := true, den := true, cal := true } hq ?_
  simp only [State.calStart, ↓view_ite, ite_self, ↓State.modAfe_view (q := Parts.others { units := true, afe := true, adc := true, ddc := true, xfm := true, den := true, cal := true }) (by decide), ↓State.stopPort_view (q := Parts.others { units := true, afe := true, adc := true, ddc := true, xfm := true, den := true, cal := true }) (by decide), ↓State.pauseRotation_view (q := Parts.others { units := true, afe := true, adc := true, ddc := true, xfm := true, den := true, cal := true }) (by decide), ↓State.modCal_view (q := Parts.others { units := true, afe := true, adc := true, ddc := true, xfm := true, den := true, cal := true }) (by decide)]

theorem execCalRunStart_view {q : Parts} (hq : q.apart { units := true, afe := true, adc := true, ddc := true, xfm := true, den := true, cal := true } = true) (b : BayNo) (i : Fin 2) (s0 : State) : Out.view q (execCalRunStart b i s0) = some (s0.view q) := by
  refine out_view_of { units := true, afe := true, adc := true, ddc := true, xfm := true, den := true, cal := true } hq ?_
  simp only [execCalRunStart]
  repeat' split
  all_goals simp only [↓out_view_next, ↓State.noteDefer_view (q := Parts.others { units := true, afe := true, adc := true, ddc := true, xfm := true, den := true, cal := true }) (by decide), ↓State.calStart_view (q := Parts.others { units := true, afe := true, adc := true, ddc := true, xfm := true, den := true, cal := true }) (by decide)]

theorem execCalForced_view {q : Parts} (hq : q.apart { time := true, units := true, afe := true, adc := true, ddc := true, xfm := true, den := true, cal := true } = true) (b : BayNo) (i : Fin 2) (s0 : State) : Out.view q (execCalForced b i s0) = some (s0.view q) := by
  refine out_view_of { time := true, units := true, afe := true, adc := true, ddc := true, xfm := true, den := true, cal := true } hq ?_
  simp only [execCalForced]
  repeat' split
  all_goals simp only [↓out_view_next, ↓State.reach_view (q := Parts.others { time := true, units := true, afe := true, adc := true, ddc := true, xfm := true, den := true, cal := true }) (by decide), ↓State.event_view, ↓State.noteDefer_view (q := Parts.others { time := true, units := true, afe := true, adc := true, ddc := true, xfm := true, den := true, cal := true }) (by decide), ↓State.calStart_view (q := Parts.others { time := true, units := true, afe := true, adc := true, ddc := true, xfm := true, den := true, cal := true }) (by decide)]

theorem State.calFail_view {q : Parts} (hq : q.apart { keeper := true } = true) (s : State) (b : BayNo) (i : Fin 2) (why : Nat) : (State.calFail s b i why).view q = s.view q := by
  refine view_of { keeper := true } hq ?_
  simp only [State.calFail, ↓State.sealLog_view (q := Parts.others { keeper := true }) (by decide)]

theorem State.calDisagree_view {q : Parts} (hq : q.apart { keeper := true } = true) (s : State) (b : BayNo) (i : Fin 2) : (State.calDisagree s b i).view q = s.view q := by
  refine view_of { keeper := true } hq ?_
  simp only [State.calDisagree, ↓State.event_view, ↓State.calFail_view (q := Parts.others { keeper := true }) (by decide)]

theorem execCalPassDone_view {q : Parts} (hq : q.apart { keeper := true, time := true, cal := true } = true) (b : BayNo) (i : Fin 2) (p : CalPass) (s0 : State) : Out.view q (execCalPassDone b i p s0) = some (s0.view q) := by
  refine out_view_of { keeper := true, time := true, cal := true } hq ?_
  simp only [execCalPassDone]
  repeat' split
  all_goals simp only [↓out_view_next, ↓State.reach_view (q := Parts.others { keeper := true, time := true, cal := true }) (by decide), ↓State.modCal_view (q := Parts.others { keeper := true, time := true, cal := true }) (by decide), ↓State.calDisagree_view (q := Parts.others { keeper := true, time := true, cal := true }) (by decide)]

theorem State.combDone_view {q : Parts} (hq : q.apart { keeper := true, afe := true } = true) (s : State) (b : BayNo) (i : Fin 2) (o : CombResult) : (State.combDone s b i o).view q = s.view q := by
  refine view_of { keeper := true, afe := true } hq ?_
  unfold State.combDone
  try dsimp only
  repeat' (first | rfl | with_reducible (first | rfl | refine next_view ?_ | exact State.modBay_view _ _ _ _ (fun _ => rfl) | exact State.modSeal_view _ _ _ rfl | refine (State.modSeal_view _ _ _ rfl).trans ?_ | refine (State.modSeal_free (by decide) (by decide) ..).trans ?_ | refine (State.modAfe_view (q := Parts.others { keeper := true, afe := true }) (by decide) ..).trans ?_ | refine (State.event_view ..).trans ?_ | refine (State.calFail_view (q := Parts.others { keeper := true, afe := true }) (by decide) ..).trans ?_) | (refine (State.modBay_view _ _ _ _ ?hb).trans ?_; case hb => exact fun _ => rfl) | split | (refine foldl_view _ _ (fun _ _ => ?_) _ _; try dsimp only) | (refine (foldl_view _ _ (fun _ _ => ?_) _ _).trans ?_; try dsimp only) | (refine (State.eachBay_view _ _ (fun _ _ => ?_) _ _).trans ?_; try dsimp only))

theorem execCombCheckDone_view {q : Parts} (hq : q.apart { keeper := true, time := true, afe := true, cal := true } = true) (b : BayNo) (i : Fin 2) (o : CombObs) (s0 : State) : Out.view q (execCombCheckDone b i o s0) = some (s0.view q) := by
  refine out_view_of { keeper := true, time := true, afe := true, cal := true } hq ?_
  simp only [execCombCheckDone]
  repeat' split
  all_goals simp only [↓out_view_next, ↓State.reach_view (q := Parts.others { keeper := true, time := true, afe := true, cal := true }) (by decide), ↓State.modCal_view (q := Parts.others { keeper := true, time := true, afe := true, cal := true }) (by decide), ↓State.combDone_view (q := Parts.others { keeper := true, time := true, afe := true, cal := true }) (by decide)]

theorem State.calReport_view {q : Parts} (hq : q.apart { cal := true } = true) (s : State) (b : BayNo) (i : Fin 2) (r : CalRun) (o : CalOutcome) (number : Word) (tL tR : Stamp) (delta : Int) : (State.calReport s b i r o number tL tR delta).view q = s.view q := by
  refine view_of { cal := true } hq ?_
  simp only [State.calReport, ↓view_ite, ite_self, ↓State.enqueue_view, ↓State.event_view, ↓State.modCal_view (q := Parts.others { cal := true }) (by decide)]

theorem State.takeCoefs_view {q : Parts} (hq : q.apart { adc := true } = true) (s : State) (b : BayNo) (i : Fin 2) (l : List SliceCoef) : (State.takeCoefs s b i l).view q = s.view q := by
  refine view_of { adc := true } hq ?_
  simp only [State.takeCoefs, ↓State.modAdc_view (q := Parts.others { adc := true }) (by decide)]

theorem State.calSettle_view {q : Parts} (hq : q.apart { adc := true, cal := true } = true) (s : State) (b : BayNo) (i : Fin 2) (r : CalRun) (o : CalOutcome) : (State.calSettle s b i r o).view q = s.view q := by
  refine view_of { adc := true, cal := true } hq ?_
  simp only [State.calSettle, ↓view_ite, ite_self, ↓State.modCal_view (q := Parts.others { adc := true, cal := true }) (by decide), ↓State.takeCoefs_view (q := Parts.others { adc := true, cal := true }) (by decide)]

theorem State.calAbandon_view {q : Parts} (hq : q.apart { afe := true, cal := true } = true) (s : State) (b : BayNo) (i : Fin 2) (again : Bool) : (State.calAbandon s b i again).view q = s.view q := by
  refine view_of { afe := true, cal := true } hq ?_
  simp only [State.calAbandon]
  repeat' split
  all_goals simp only [↓State.modAfe_view (q := Parts.others { afe := true, cal := true }) (by decide), ↓State.event_view, ↓State.modCal_view (q := Parts.others { afe := true, cal := true }) (by decide), ↓State.calDueNow_view (q := Parts.others { afe := true, cal := true }) (by decide), ↓State.calReport_view (q := Parts.others { afe := true, cal := true }) (by decide)]

theorem State.calAbandonBay_view {q : Parts} (hq : q.apart { afe := true, cal := true } = true) (s : State) (b : BayNo) (again : Bool) : (State.calAbandonBay s b again).view q = s.view q := by
  refine view_of { afe := true, cal := true } hq ?_
  simp only [State.calAbandonBay, ↓foldl_view, implies_true, ↓State.calAbandon_view (q := Parts.others { afe := true, cal := true }) (by decide)]

theorem State.calStartup_view {q : Parts} (hq : q.apart { keeper := true, afe := true, adc := true, cal := true } = true) (s : State) (b : BayNo) (i : Fin 2) (x : Option FeRun) : (State.calStartup s b i x).view q = s.view q := by
  refine view_of { keeper := true, afe := true, adc := true, cal := true } hq ?_
  simp only [State.calStartup, ↓view_ite, ite_self, ↓State.modCal_view (q := Parts.others { keeper := true, afe := true, adc := true, cal := true }) (by decide), ↓State.calFail_view (q := Parts.others { keeper := true, afe := true, adc := true, cal := true }) (by decide), ↓State.calDisagree_view (q := Parts.others { keeper := true, afe := true, adc := true, cal := true }) (by decide), ↓State.combDone_view (q := Parts.others { keeper := true, afe := true, adc := true, cal := true }) (by decide), ↓State.calReport_view (q := Parts.others { keeper := true, afe := true, adc := true, cal := true }) (by decide), ↓State.calSettle_view (q := Parts.others { keeper := true, afe := true, adc := true, cal := true }) (by decide)]

end Sys2Proof.Machine
end

