-- ==== Sys2Proof/Laws/View/Hkc.lean ====
section
/-! SUPPORT. Which parts the operations of Machine/Hkc.lean leave as they were. -/
namespace Sys2Proof.Machine

theorem State.modHkc_view {q : Parts} (hq : q.apart { hkc := true } = true) (s : State) (b : BayNo) (f : HkcBay → HkcBay) : (State.modHkc s b f).view q = s.view q := by
  refine view_of { hkc := true } hq ?_
  unfold State.modHkc
  exact State.modBay_view _ _ _ _ (fun _ => rfl)

theorem State.modConv_view {q : Parts} (hq : q.apart { hkc := true } = true) (s : State) (b : BayNo) (x : Fin 2) (f : HkConv → HkConv) : (State.modConv s b x f).view q = s.view q := by
  refine view_of { hkc := true } hq ?_
  simp only [State.modConv, ↓State.modHkc_view (q := Parts.others { hkc := true }) (by decide)]

theorem State.noteDetector_view {q : Parts} (hq : q.apart { afe := true } = true) (s : State) (b : BayNo) (chan code : Nat) : (State.noteDetector s b chan code).view q = s.view q := by
  refine view_of { afe := true } hq ?_
  simp only [State.noteDetector, ↓view_ite, ite_self, ↓State.modAfe_view (q := Parts.others { afe := true }) (by decide)]

theorem execHkcScanConversion_view {q : Parts} (hq : q.apart { afe := true, hkc := true, mon := true } = true) (b : BayNo) (x : Fin 2) (code : BitVec 16) (s : State) : Out.view q (execHkcScanConversion b x code s) = some (s.view q) := by
  refine out_view_of { afe := true, hkc := true, mon := true } hq ?_
  simp only [execHkcScanConversion]
  repeat' split
  all_goals simp only [↓out_view_next, ↓State.monFeed_view (q := Parts.others { afe := true, hkc := true, mon := true }) (by decide), ↓State.modConv_view (q := Parts.others { afe := true, hkc := true, mon := true }) (by decide), ↓State.noteDetector_view (q := Parts.others { afe := true, hkc := true, mon := true }) (by decide)]

theorem State.compareRef_view {q : Parts} (hq : q.apart { hkc := true } = true) (s : State) (b : BayNo) (ra rb : Nat) : (State.compareRef s b ra rb).view q = s.view q := by
  refine view_of { hkc := true } hq ?_
  simp only [State.compareRef, ↓view_ite, ite_self, ↓State.event_view, ↓State.modHkc_view (q := Parts.others { hkc := true }) (by decide)]

theorem State.maybeCompare_view {q : Parts} (hq : q.apart { hkc := true } = true) (s : State) (b : BayNo) : (State.maybeCompare s b).view q = s.view q := by
  refine view_of { hkc := true } hq ?_
  simp only [State.maybeCompare]
  repeat' split
  all_goals simp only [↓State.modConv_view (q := Parts.others { hkc := true }) (by decide), ↓State.compareRef_view (q := Parts.others { hkc := true }) (by decide)]

theorem execHkcSealedConversion_view {q : Parts} (hq : q.apart { hkc := true } = true) (b : BayNo) (x : Fin 2) (code : BitVec 16) (s : State) : Out.view q (execHkcSealedConversion b x code s) = some (s.view q) := by
  refine out_view_of { hkc := true } hq ?_
  simp only [execHkcSealedConversion]
  repeat' split
  all_goals simp only [↓out_view_next, ↓State.modHkc_view (q := Parts.others { hkc := true }) (by decide), ↓State.modConv_view (q := Parts.others { hkc := true }) (by decide), ↓State.maybeCompare_view (q := Parts.others { hkc := true }) (by decide)]

theorem execHkcUrgentRequest_view {q : Parts} (hq : q.apart { hkc := true } = true) (b : BayNo) (x : Fin 2) (chan : Fin 25) (s : State) : Out.view q (execHkcUrgentRequest b x chan s) = some (s.view q) := by
  refine out_view_of { hkc := true } hq ?_
  simp only [execHkcUrgentRequest]
  repeat' split
  all_goals simp only [↓out_view_next, ↓State.event_view, ↓State.modConv_view (q := Parts.others { hkc := true }) (by decide)]

theorem execHkcUrgentDone_view {q : Parts} (hq : q.apart { afe := true, hkc := true } = true) (b : BayNo) (x : Fin 2) (code : BitVec 16) (s : State) : Out.view q (execHkcUrgentDone b x code s) = some (s.view q) := by
  refine out_view_of { afe := true, hkc := true } hq ?_
  simp only [execHkcUrgentDone]
  repeat' split
  all_goals simp only [↓out_view_next, ↓State.modConv_view (q := Parts.others { afe := true, hkc := true }) (by decide), ↓State.noteDetector_view (q := Parts.others { afe := true, hkc := true }) (by decide)]

theorem State.scanChanged_view {q : Parts} (hq : q.apart { hkc := true } = true) (s : State) (b : BayNo) (x : Fin 2) : (State.scanChanged s b x).view q = s.view q := by
  refine view_of { hkc := true } hq ?_
  simp only [State.scanChanged, ↓State.modConv_view (q := Parts.others { hkc := true }) (by decide)]

theorem State.hkcStart_view {q : Parts} (hq : q.apart { domains := true, hkc := true } = true) (s : State) (b : BayNo) : (State.hkcStart s b).view q = s.view q := by
  refine view_of { domains := true, hkc := true } hq ?_
  unfold State.hkcStart
  try dsimp only
  repeat' (first | rfl | with_reducible (first | rfl | refine next_view ?_ | exact State.modBay_view _ _ _ _ (fun _ => rfl) | exact State.modSeal_view _ _ _ rfl | refine (State.modSeal_view _ _ _ rfl).trans ?_ | refine (State.modSeal_free (by decide) (by decide) ..).trans ?_ | refine (State.modHkc_view (q := Parts.others { domains := true, hkc := true }) (by decide) ..).trans ?_) | (refine (State.modBay_view _ _ _ _ ?hb).trans ?_; case hb => exact fun _ => rfl) | split | (refine foldl_view _ _ (fun _ _ => ?_) _ _; try dsimp only) | (refine (foldl_view _ _ (fun _ _ => ?_) _ _).trans ?_; try dsimp only) | (refine (State.eachBay_view _ _ (fun _ _ => ?_) _ _).trans ?_; try dsimp only))

theorem execCalTempInterval_view {q : Parts} (hq : q.apart { time := true, cal := true, hkc := true } = true) (b : BayNo) (i : Fin 2) (s0 : State) : Out.view q (execCalTempInterval b i s0) = some (s0.view q) := by
  refine out_view_of { time := true, cal := true, hkc := true } hq ?_
  simp only [execCalTempInterval, ↓view_ite, ↓out_view_ite, ↓out_view_next, ite_self, ↓State.reach_view (q := Parts.others { time := true, cal := true, hkc := true }) (by decide), ↓State.modCal_view (q := Parts.others { time := true, cal := true, hkc := true }) (by decide), ↓State.calDueNow_view (q := Parts.others { time := true, cal := true, hkc := true }) (by decide), ↓State.modHkc_view (q := Parts.others { time := true, cal := true, hkc := true }) (by decide)]

end Sys2Proof.Machine
end

