-- ==== Sys2Proof/Laws/View/Mco.lean ====
section
/-! SUPPORT. Which parts the operations of Machine/Mco.lean leave as they were. -/
namespace Sys2Proof.Machine

theorem State.putCore_view {q : Parts} (hq : q.apart { faults := true, mco := true } = true) (s : State) (b : BayNo) (c : CoreNo) (pc : BitVec 14) (r : CoreRes) : (State.putCore s b c pc r).view q = s.view q := by
  refine view_of { faults := true, mco := true } hq ?_
  simp only [State.putCore]
  repeat' split
  all_goals simp only [↓State.modCore_view (q := Parts.others { faults := true, mco := true }) (by decide), ↓State.coreFault_view (q := Parts.others { faults := true, mco := true }) (by decide)]

theorem State.coreRep_view {q : Parts} (hq : q.apart { faults := true, mco := true } = true) (s : State) (b : BayNo) (c : CoreNo) (i : CoreInstr) (n : Nat) : (State.coreRep s b c i n).view q = s.view q := by
  refine view_of { faults := true, mco := true } hq ?_
  simp only [State.coreRep]
  repeat' split
  all_goals simp only [↓State.modCore_view (q := Parts.others { faults := true, mco := true }) (by decide), ↓State.coreFault_view (q := Parts.others { faults := true, mco := true }) (by decide)]

theorem State.coreEvt_view {q : Parts} (hq : q.apart { trg := true, units := true, xfm := true, mco := true, recorder := true } = true) (s : State) (b : BayNo) (c : CoreNo) (line : Fin 4) (ra : CReg) : (State.coreEvt s b c line ra).view q = s.view q := by
  refine view_of { trg := true, units := true, xfm := true, mco := true, recorder := true } hq ?_
  simp only [State.coreEvt, ↓State.modCore_view (q := Parts.others { trg := true, units := true, xfm := true, mco := true, recorder := true }) (by decide), ↓State.coreLine_view (q := Parts.others { trg := true, units := true, xfm := true, mco := true, recorder := true }) (by decide)]

theorem State.coreMts_view {q : Parts} (hq : q.apart { faults := true, mco := true } = true) (s : State) (b : BayNo) (c : CoreNo) (n : Fin 256) (ra : CReg) : (State.coreMts s b c n ra).view q = s.view q := by
  refine view_of { faults := true, mco := true } hq ?_
  simp only [State.coreMts]
  repeat' split
  all_goals simp only [↓State.modCore_view (q := Parts.others { faults := true, mco := true }) (by decide), ↓State.coreFault_view (q := Parts.others { faults := true, mco := true }) (by decide), ↓State.event_view]

theorem State.coreMfs_view {q : Parts} (hq : q.apart { faults := true, mco := true } = true) (s : State) (b : BayNo) (c : CoreNo) (rd : CReg) (n : Fin 256) : (State.coreMfs s b c rd n).view q = s.view q := by
  refine view_of { faults := true, mco := true } hq ?_
  simp only [State.coreMfs]
  repeat' split
  all_goals simp only [↓State.modCore_view (q := Parts.others { faults := true, mco := true }) (by decide), ↓State.coreFault_view (q := Parts.others { faults := true, mco := true }) (by decide)]

theorem State.coreHalt_view {q : Parts} (hq : q.apart { mco := true } = true) (s : State) (b : BayNo) (c : CoreNo) : (State.coreHalt s b c).view q = s.view q := by
  refine view_of { mco := true } hq ?_
  simp only [State.coreHalt, ↓State.modCore_view (q := Parts.others { mco := true }) (by decide), ↓State.event_view]

theorem State.coreWait_view {q : Parts} (hq : q.apart { mco := true } = true) (s : State) (b : BayNo) (c : CoreNo) : (State.coreWait s b c).view q = s.view q := by
  refine view_of { mco := true } hq ?_
  simp only [State.coreWait, ↓State.modCore_view (q := Parts.others { mco := true }) (by decide)]

theorem State.coreRun_view {q : Parts} (hq : q.apart { faults := true, trg := true, units := true, xfm := true, mco := true, recorder := true } = true) (s : State) (b : BayNo) (c : CoreNo) (i : CoreInstr) : (s.coreRun b c i).view q = s.view q := by
  refine view_of { faults := true, trg := true, units := true, xfm := true, mco := true, recorder := true } hq ?_
  cases i <;> dsimp only [State.coreRun] <;> (try split) <;>
    simp only [↓State.modCore_view (q := Parts.others { faults := true, trg := true, units := true, xfm := true, mco := true, recorder := true }) (by decide), ↓State.putCore_view (q := Parts.others { faults := true, trg := true, units := true, xfm := true, mco := true, recorder := true }) (by decide), ↓State.coreRep_view (q := Parts.others { faults := true, trg := true, units := true, xfm := true, mco := true, recorder := true }) (by decide), ↓State.coreMfs_view (q := Parts.others { faults := true, trg := true, units := true, xfm := true, mco := true, recorder := true }) (by decide),
      ↓State.coreMts_view (q := Parts.others { faults := true, trg := true, units := true, xfm := true, mco := true, recorder := true }) (by decide), ↓State.coreEvt_view (q := Parts.others { faults := true, trg := true, units := true, xfm := true, mco := true, recorder := true }) (by decide), ↓State.coreWait_view (q := Parts.others { faults := true, trg := true, units := true, xfm := true, mco := true, recorder := true }) (by decide), ↓State.coreHalt_view (q := Parts.others { faults := true, trg := true, units := true, xfm := true, mco := true, recorder := true }) (by decide), ↓State.coreFault_view (q := Parts.others { faults := true, trg := true, units := true, xfm := true, mco := true, recorder := true }) (by decide)]

theorem State.issue_view {q : Parts} (hq : q.apart { faults := true, trg := true, units := true, xfm := true, mco := true, recorder := true } = true) (s : State) (b : BayNo) (c : CoreNo) (want : CoreInstr → Bool) : (State.issue s b c want).view q = s.view q := by
  refine view_of { faults := true, trg := true, units := true, xfm := true, mco := true, recorder := true } hq ?_
  simp only [State.issue]
  repeat' split
  all_goals simp only [↓State.coreRun_view (q := Parts.others { faults := true, trg := true, units := true, xfm := true, mco := true, recorder := true }) (by decide)]

theorem execNop_view {q : Parts} (hq : q.apart { faults := true, trg := true, units := true, xfm := true, mco := true, recorder := true } = true) (b : BayNo) (c : CoreNo) (s : State) : Out.view q (execNop b c s) = some (s.view q) := by
  refine out_view_of { faults := true, trg := true, units := true, xfm := true, mco := true, recorder := true } hq ?_
  simp only [execNop, ↓out_view_next, ↓State.issue_view (q := Parts.others { faults := true, trg := true, units := true, xfm := true, mco := true, recorder := true }) (by decide)]

theorem execAdd_view {q : Parts} (hq : q.apart { faults := true, trg := true, units := true, xfm := true, mco := true, recorder := true } = true) (b : BayNo) (c : CoreNo) (s : State) : Out.view q (execAdd b c s) = some (s.view q) := by
  refine out_view_of { faults := true, trg := true, units := true, xfm := true, mco := true, recorder := true } hq ?_
  simp only [execAdd, ↓out_view_next, ↓State.issue_view (q := Parts.others { faults := true, trg := true, units := true, xfm := true, mco := true, recorder := true }) (by decide)]

theorem execSub_view {q : Parts} (hq : q.apart { faults := true, trg := true, units := true, xfm := true, mco := true, recorder := true } = true) (b : BayNo) (c : CoreNo) (s : State) : Out.view q (execSub b c s) = some (s.view q) := by
  refine out_view_of { faults := true, trg := true, units := true, xfm := true, mco := true, recorder := true } hq ?_
  simp only [execSub, ↓out_view_next, ↓State.issue_view (q := Parts.others { faults := true, trg := true, units := true, xfm := true, mco := true, recorder := true }) (by decide)]

theorem execAnd_view {q : Parts} (hq : q.apart { faults := true, trg := true, units := true, xfm := true, mco := true, recorder := true } = true) (b : BayNo) (c : CoreNo) (s : State) : Out.view q (execAnd b c s) = some (s.view q) := by
  refine out_view_of { faults := true, trg := true, units := true, xfm := true, mco := true, recorder := true } hq ?_
  simp only [execAnd, ↓out_view_next, ↓State.issue_view (q := Parts.others { faults := true, trg := true, units := true, xfm := true, mco := true, recorder := true }) (by decide)]

theorem execOr_view {q : Parts} (hq : q.apart { faults := true, trg := true, units := true, xfm := true, mco := true, recorder := true } = true) (b : BayNo) (c : CoreNo) (s : State) : Out.view q (execOr b c s) = some (s.view q) := by
  refine out_view_of { faults := true, trg := true, units := true, xfm := true, mco := true, recorder := true } hq ?_
  simp only [execOr, ↓out_view_next, ↓State.issue_view (q := Parts.others { faults := true, trg := true, units := true, xfm := true, mco := true, recorder := true }) (by decide)]

theorem execXor_view {q : Parts} (hq : q.apart { faults := true, trg := true, units := true, xfm := true, mco := true, recorder := true } = true) (b : BayNo) (c : CoreNo) (s : State) : Out.view q (execXor b c s) = some (s.view q) := by
  refine out_view_of { faults := true, trg := true, units := true, xfm := true, mco := true, recorder := true } hq ?_
  simp only [execXor, ↓out_view_next, ↓State.issue_view (q := Parts.others { faults := true, trg := true, units := true, xfm := true, mco := true, recorder := true }) (by decide)]

theorem execShl_view {q : Parts} (hq : q.apart { faults := true, trg := true, units := true, xfm := true, mco := true, recorder := true } = true) (b : BayNo) (c : CoreNo) (s : State) : Out.view q (execShl b c s) = some (s.view q) := by
  refine out_view_of { faults := true, trg := true, units := true, xfm := true, mco := true, recorder := true } hq ?_
  simp only [execShl, ↓out_view_next, ↓State.issue_view (q := Parts.others { faults := true, trg := true, units := true, xfm := true, mco := true, recorder := true }) (by decide)]

theorem execShr_view {q : Parts} (hq : q.apart { faults := true, trg := true, units := true, xfm := true, mco := true, recorder := true } = true) (b : BayNo) (c : CoreNo) (s : State) : Out.view q (execShr b c s) = some (s.view q) := by
  refine out_view_of { faults := true, trg := true, units := true, xfm := true, mco := true, recorder := true } hq ?_
  simp only [execShr, ↓out_view_next, ↓State.issue_view (q := Parts.others { faults := true, trg := true, units := true, xfm := true, mco := true, recorder := true }) (by decide)]

theorem execSar_view {q : Parts} (hq : q.apart { faults := true, trg := true, units := true, xfm := true, mco := true, recorder := true } = true) (b : BayNo) (c : CoreNo) (s : State) : Out.view q (execSar b c s) = some (s.view q) := by
  refine out_view_of { faults := true, trg := true, units := true, xfm := true, mco := true, recorder := true } hq ?_
  simp only [execSar, ↓out_view_next, ↓State.issue_view (q := Parts.others { faults := true, trg := true, units := true, xfm := true, mco := true, recorder := true }) (by decide)]

theorem execAdds_view {q : Parts} (hq : q.apart { faults := true, trg := true, units := true, xfm := true, mco := true, recorder := true } = true) (b : BayNo) (c : CoreNo) (s : State) : Out.view q (execAdds b c s) = some (s.view q) := by
  refine out_view_of { faults := true, trg := true, units := true, xfm := true, mco := true, recorder := true } hq ?_
  simp only [execAdds, ↓out_view_next, ↓State.issue_view (q := Parts.others { faults := true, trg := true, units := true, xfm := true, mco := true, recorder := true }) (by decide)]

theorem execSubs_view {q : Parts} (hq : q.apart { faults := true, trg := true, units := true, xfm := true, mco := true, recorder := true } = true) (b : BayNo) (c : CoreNo) (s : State) : Out.view q (execSubs b c s) = some (s.view q) := by
  refine out_view_of { faults := true, trg := true, units := true, xfm := true, mco := true, recorder := true } hq ?_
  simp only [execSubs, ↓out_view_next, ↓State.issue_view (q := Parts.others { faults := true, trg := true, units := true, xfm := true, mco := true, recorder := true }) (by decide)]

theorem execMin_view {q : Parts} (hq : q.apart { faults := true, trg := true, units := true, xfm := true, mco := true, recorder := true } = true) (b : BayNo) (c : CoreNo) (s : State) : Out.view q (execMin b c s) = some (s.view q) := by
  refine out_view_of { faults := true, trg := true, units := true, xfm := true, mco := true, recorder := true } hq ?_
  simp only [execMin, ↓out_view_next, ↓State.issue_view (q := Parts.others { faults := true, trg := true, units := true, xfm := true, mco := true, recorder := true }) (by decide)]

theorem execMax_view {q : Parts} (hq : q.apart { faults := true, trg := true, units := true, xfm := true, mco := true, recorder := true } = true) (b : BayNo) (c : CoreNo) (s : State) : Out.view q (execMax b c s) = some (s.view q) := by
  refine out_view_of { faults := true, trg := true, units := true, xfm := true, mco := true, recorder := true } hq ?_
  simp only [execMax, ↓out_view_next, ↓State.issue_view (q := Parts.others { faults := true, trg := true, units := true, xfm := true, mco := true, recorder := true }) (by decide)]

theorem execMinu_view {q : Parts} (hq : q.apart { faults := true, trg := true, units := true, xfm := true, mco := true, recorder := true } = true) (b : BayNo) (c : CoreNo) (s : State) : Out.view q (execMinu b c s) = some (s.view q) := by
  refine out_view_of { faults := true, trg := true, units := true, xfm := true, mco := true, recorder := true } hq ?_
  simp only [execMinu, ↓out_view_next, ↓State.issue_view (q := Parts.others { faults := true, trg := true, units := true, xfm := true, mco := true, recorder := true }) (by decide)]

theorem execMaxu_view {q : Parts} (hq : q.apart { faults := true, trg := true, units := true, xfm := true, mco := true, recorder := true } = true) (b : BayNo) (c : CoreNo) (s : State) : Out.view q (execMaxu b c s) = some (s.view q) := by
  refine out_view_of { faults := true, trg := true, units := true, xfm := true, mco := true, recorder := true } hq ?_
  simp only [execMaxu, ↓out_view_next, ↓State.issue_view (q := Parts.others { faults := true, trg := true, units := true, xfm := true, mco := true, recorder := true }) (by decide)]

theorem execAbs_view {q : Parts} (hq : q.apart { faults := true, trg := true, units := true, xfm := true, mco := true, recorder := true } = true) (b : BayNo) (c : CoreNo) (s : State) : Out.view q (execAbs b c s) = some (s.view q) := by
  refine out_view_of { faults := true, trg := true, units := true, xfm := true, mco := true, recorder := true } hq ?_
  simp only [execAbs, ↓out_view_next, ↓State.issue_view (q := Parts.others { faults := true, trg := true, units := true, xfm := true, mco := true, recorder := true }) (by decide)]

theorem execSlt_view {q : Parts} (hq : q.apart { faults := true, trg := true, units := true, xfm := true, mco := true, recorder := true } = true) (b : BayNo) (c : CoreNo) (s : State) : Out.view q (execSlt b c s) = some (s.view q) := by
  refine out_view_of { faults := true, trg := true, units := true, xfm := true, mco := true, recorder := true } hq ?_
  simp only [execSlt, ↓out_view_next, ↓State.issue_view (q := Parts.others { faults := true, trg := true, units := true, xfm := true, mco := true, recorder := true }) (by decide)]

theorem execSltu_view {q : Parts} (hq : q.apart { faults := true, trg := true, units := true, xfm := true, mco := true, recorder := true } = true) (b : BayNo) (c : CoreNo) (s : State) : Out.view q (execSltu b c s) = some (s.view q) := by
  refine out_view_of { faults := true, trg := true, units := true, xfm := true, mco := true, recorder := true } hq ?_
  simp only [execSltu, ↓out_view_next, ↓State.issue_view (q := Parts.others { faults := true, trg := true, units := true, xfm := true, mco := true, recorder := true }) (by decide)]

theorem execShli_view {q : Parts} (hq : q.apart { faults := true, trg := true, units := true, xfm := true, mco := true, recorder := true } = true) (b : BayNo) (c : CoreNo) (s : State) : Out.view q (execShli b c s) = some (s.view q) := by
  refine out_view_of { faults := true, trg := true, units := true, xfm := true, mco := true, recorder := true } hq ?_
  simp only [execShli, ↓out_view_next, ↓State.issue_view (q := Parts.others { faults := true, trg := true, units := true, xfm := true, mco := true, recorder := true }) (by decide)]

theorem execShri_view {q : Parts} (hq : q.apart { faults := true, trg := true, units := true, xfm := true, mco := true, recorder := true } = true) (b : BayNo) (c : CoreNo) (s : State) : Out.view q (execShri b c s) = some (s.view q) := by
  refine out_view_of { faults := true, trg := true, units := true, xfm := true, mco := true, recorder := true } hq ?_
  simp only [execShri, ↓out_view_next, ↓State.issue_view (q := Parts.others { faults := true, trg := true, units := true, xfm := true, mco := true, recorder := true }) (by decide)]

theorem execSari_view {q : Parts} (hq : q.apart { faults := true, trg := true, units := true, xfm := true, mco := true, recorder := true } = true) (b : BayNo) (c : CoreNo) (s : State) : Out.view q (execSari b c s) = some (s.view q) := by
  refine out_view_of { faults := true, trg := true, units := true, xfm := true, mco := true, recorder := true } hq ?_
  simp only [execSari, ↓out_view_next, ↓State.issue_view (q := Parts.others { faults := true, trg := true, units := true, xfm := true, mco := true, recorder := true }) (by decide)]

theorem execClz_view {q : Parts} (hq : q.apart { faults := true, trg := true, units := true, xfm := true, mco := true, recorder := true } = true) (b : BayNo) (c : CoreNo) (s : State) : Out.view q (execClz b c s) = some (s.view q) := by
  refine out_view_of { faults := true, trg := true, units := true, xfm := true, mco := true, recorder := true } hq ?_
  simp only [execClz, ↓out_view_next, ↓State.issue_view (q := Parts.others { faults := true, trg := true, units := true, xfm := true, mco := true, recorder := true }) (by decide)]

theorem execMul16_view {q : Parts} (hq : q.apart { faults := true, trg := true, units := true, xfm := true, mco := true, recorder := true } = true) (b : BayNo) (c : CoreNo) (s : State) : Out.view q (execMul16 b c s) = some (s.view q) := by
  refine out_view_of { faults := true, trg := true, units := true, xfm := true, mco := true, recorder := true } hq ?_
  simp only [execMul16, ↓out_view_next, ↓State.issue_view (q := Parts.others { faults := true, trg := true, units := true, xfm := true, mco := true, recorder := true }) (by decide)]

theorem execAddi_view {q : Parts} (hq : q.apart { faults := true, trg := true, units := true, xfm := true, mco := true, recorder := true } = true) (b : BayNo) (c : CoreNo) (s : State) : Out.view q (execAddi b c s) = some (s.view q) := by
  refine out_view_of { faults := true, trg := true, units := true, xfm := true, mco := true, recorder := true } hq ?_
  simp only [execAddi, ↓out_view_next, ↓State.issue_view (q := Parts.others { faults := true, trg := true, units := true, xfm := true, mco := true, recorder := true }) (by decide)]

theorem execAndi_view {q : Parts} (hq : q.apart { faults := true, trg := true, units := true, xfm := true, mco := true, recorder := true } = true) (b : BayNo) (c : CoreNo) (s : State) : Out.view q (execAndi b c s) = some (s.view q) := by
  refine out_view_of { faults := true, trg := true, units := true, xfm := true, mco := true, recorder := true } hq ?_
  simp only [execAndi, ↓out_view_next, ↓State.issue_view (q := Parts.others { faults := true, trg := true, units := true, xfm := true, mco := true, recorder := true }) (by decide)]

theorem execOri_view {q : Parts} (hq : q.apart { faults := true, trg := true, units := true, xfm := true, mco := true, recorder := true } = true) (b : BayNo) (c : CoreNo) (s : State) : Out.view q (execOri b c s) = some (s.view q) := by
  refine out_view_of { faults := true, trg := true, units := true, xfm := true, mco := true, recorder := true } hq ?_
  simp only [execOri, ↓out_view_next, ↓State.issue_view (q := Parts.others { faults := true, trg := true, units := true, xfm := true, mco := true, recorder := true }) (by decide)]

theorem execXori_view {q : Parts} (hq : q.apart { faults := true, trg := true, units := true, xfm := true, mco := true, recorder := true } = true) (b : BayNo) (c : CoreNo) (s : State) : Out.view q (execXori b c s) = some (s.view q) := by
  refine out_view_of { faults := true, trg := true, units := true, xfm := true, mco := true, recorder := true } hq ?_
  simp only [execXori, ↓out_view_next, ↓State.issue_view (q := Parts.others { faults := true, trg := true, units := true, xfm := true, mco := true, recorder := true }) (by decide)]

theorem execLui_view {q : Parts} (hq : q.apart { faults := true, trg := true, units := true, xfm := true, mco := true, recorder := true } = true) (b : BayNo) (c : CoreNo) (s : State) : Out.view q (execLui b c s) = some (s.view q) := by
  refine out_view_of { faults := true, trg := true, units := true, xfm := true, mco := true, recorder := true } hq ?_
  simp only [execLui, ↓out_view_next, ↓State.issue_view (q := Parts.others { faults := true, trg := true, units := true, xfm := true, mco := true, recorder := true }) (by decide)]

theorem execBeq_view {q : Parts} (hq : q.apart { faults := true, trg := true, units := true, xfm := true, mco := true, recorder := true } = true) (b : BayNo) (c : CoreNo) (s : State) : Out.view q (execBeq b c s) = some (s.view q) := by
  refine out_view_of { faults := true, trg := true, units := true, xfm := true, mco := true, recorder := true } hq ?_
  simp only [execBeq, ↓out_view_next, ↓State.issue_view (q := Parts.others { faults := true, trg := true, units := true, xfm := true, mco := true, recorder := true }) (by decide)]

theorem execBne_view {q : Parts} (hq : q.apart { faults := true, trg := true, units := true, xfm := true, mco := true, recorder := true } = true) (b : BayNo) (c : CoreNo) (s : State) : Out.view q (execBne b c s) = some (s.view q) := by
  refine out_view_of { faults := true, trg := true, units := true, xfm := true, mco := true, recorder := true } hq ?_
  simp only [execBne, ↓out_view_next, ↓State.issue_view (q := Parts.others { faults := true, trg := true, units := true, xfm := true, mco := true, recorder := true }) (by decide)]

theorem execBlt_view {q : Parts} (hq : q.apart { faults := true, trg := true, units := true, xfm := true, mco := true, recorder := true } = true) (b : BayNo) (c : CoreNo) (s : State) : Out.view q (execBlt b c s) = some (s.view q) := by
  refine out_view_of { faults := true, trg := true, units := true, xfm := true, mco := true, recorder := true } hq ?_
  simp only [execBlt, ↓out_view_next, ↓State.issue_view (q := Parts.others { faults := true, trg := true, units := true, xfm := true, mco := true, recorder := true }) (by decide)]

theorem execBge_view {q : Parts} (hq : q.apart { faults := true, trg := true, units := true, xfm := true, mco := true, recorder := true } = true) (b : BayNo) (c : CoreNo) (s : State) : Out.view q (execBge b c s) = some (s.view q) := by
  refine out_view_of { faults := true, trg := true, units := true, xfm := true, mco := true, recorder := true } hq ?_
  simp only [execBge, ↓out_view_next, ↓State.issue_view (q := Parts.others { faults := true, trg := true, units := true, xfm := true, mco := true, recorder := true }) (by decide)]

theorem execBltu_view {q : Parts} (hq : q.apart { faults := true, trg := true, units := true, xfm := true, mco := true, recorder := true } = true) (b : BayNo) (c : CoreNo) (s : State) : Out.view q (execBltu b c s) = some (s.view q) := by
  refine out_view_of { faults := true, trg := true, units := true, xfm := true, mco := true, recorder := true } hq ?_
  simp only [execBltu, ↓out_view_next, ↓State.issue_view (q := Parts.others { faults := true, trg := true, units := true, xfm := true, mco := true, recorder := true }) (by decide)]

theorem execBgeu_view {q : Parts} (hq : q.apart { faults := true, trg := true, units := true, xfm := true, mco := true, recorder := true } = true) (b : BayNo) (c : CoreNo) (s : State) : Out.view q (execBgeu b c s) = some (s.view q) := by
  refine out_view_of { faults := true, trg := true, units := true, xfm := true, mco := true, recorder := true } hq ?_
  simp only [execBgeu, ↓out_view_next, ↓State.issue_view (q := Parts.others { faults := true, trg := true, units := true, xfm := true, mco := true, recorder := true }) (by decide)]

theorem execJmp_view {q : Parts} (hq : q.apart { faults := true, trg := true, units := true, xfm := true, mco := true, recorder := true } = true) (b : BayNo) (c : CoreNo) (s : State) : Out.view q (execJmp b c s) = some (s.view q) := by
  refine out_view_of { faults := true, trg := true, units := true, xfm := true, mco := true, recorder := true } hq ?_
  simp only [execJmp, ↓out_view_next, ↓State.issue_view (q := Parts.others { faults := true, trg := true, units := true, xfm := true, mco := true, recorder := true }) (by decide)]

theorem execJal_view {q : Parts} (hq : q.apart { faults := true, trg := true, units := true, xfm := true, mco := true, recorder := true } = true) (b : BayNo) (c : CoreNo) (s : State) : Out.view q (execJal b c s) = some (s.view q) := by
  refine out_view_of { faults := true, trg := true, units := true, xfm := true, mco := true, recorder := true } hq ?_
  simp only [execJal, ↓out_view_next, ↓State.issue_view (q := Parts.others { faults := true, trg := true, units := true, xfm := true, mco := true, recorder := true }) (by decide)]

theorem execJr_view {q : Parts} (hq : q.apart { faults := true, trg := true, units := true, xfm := true, mco := true, recorder := true } = true) (b : BayNo) (c : CoreNo) (s : State) : Out.view q (execJr b c s) = some (s.view q) := by
  refine out_view_of { faults := true, trg := true, units := true, xfm := true, mco := true, recorder := true } hq ?_
  simp only [execJr, ↓out_view_next, ↓State.issue_view (q := Parts.others { faults := true, trg := true, units := true, xfm := true, mco := true, recorder := true }) (by decide)]

theorem execCall_view {q : Parts} (hq : q.apart { faults := true, trg := true, units := true, xfm := true, mco := true, recorder := true } = true) (b : BayNo) (c : CoreNo) (s : State) : Out.view q (execCall b c s) = some (s.view q) := by
  refine out_view_of { faults := true, trg := true, units := true, xfm := true, mco := true, recorder := true } hq ?_
  simp only [execCall, ↓out_view_next, ↓State.issue_view (q := Parts.others { faults := true, trg := true, units := true, xfm := true, mco := true, recorder := true }) (by decide)]

theorem execRet_view {q : Parts} (hq : q.apart { faults := true, trg := true, units := true, xfm := true, mco := true, recorder := true } = true) (b : BayNo) (c : CoreNo) (s : State) : Out.view q (execRet b c s) = some (s.view q) := by
  refine out_view_of { faults := true, trg := true, units := true, xfm := true, mco := true, recorder := true } hq ?_
  simp only [execRet, ↓out_view_next, ↓State.issue_view (q := Parts.others { faults := true, trg := true, units := true, xfm := true, mco := true, recorder := true }) (by decide)]

theorem execRep_view {q : Parts} (hq : q.apart { faults := true, trg := true, units := true, xfm := true, mco := true, recorder := true } = true) (b : BayNo) (c : CoreNo) (s : State) : Out.view q (execRep b c s) = some (s.view q) := by
  refine out_view_of { faults := true, trg := true, units := true, xfm := true, mco := true, recorder := true } hq ?_
  simp only [execRep, ↓out_view_next, ↓State.issue_view (q := Parts.others { faults := true, trg := true, units := true, xfm := true, mco := true, recorder := true }) (by decide)]

theorem execLd_view {q : Parts} (hq : q.apart { faults := true, trg := true, units := true, xfm := true, mco := true, recorder := true } = true) (b : BayNo) (c : CoreNo) (s : State) : Out.view q (execLd b c s) = some (s.view q) := by
  refine out_view_of { faults := true, trg := true, units := true, xfm := true, mco := true, recorder := true } hq ?_
  simp only [execLd, ↓out_view_next, ↓State.issue_view (q := Parts.others { faults := true, trg := true, units := true, xfm := true, mco := true, recorder := true }) (by decide)]

theorem execSt_view {q : Parts} (hq : q.apart { faults := true, trg := true, units := true, xfm := true, mco := true, recorder := true } = true) (b : BayNo) (c : CoreNo) (s : State) : Out.view q (execSt b c s) = some (s.view q) := by
  refine out_view_of { faults := true, trg := true, units := true, xfm := true, mco := true, recorder := true } hq ?_
  simp only [execSt, ↓out_view_next, ↓State.issue_view (q := Parts.others { faults := true, trg := true, units := true, xfm := true, mco := true, recorder := true }) (by decide)]

theorem execLdr_view {q : Parts} (hq : q.apart { faults := true, trg := true, units := true, xfm := true, mco := true, recorder := true } = true) (b : BayNo) (c : CoreNo) (s : State) : Out.view q (execLdr b c s) = some (s.view q) := by
  refine out_view_of { faults := true, trg := true, units := true, xfm := true, mco := true, recorder := true } hq ?_
  simp only [execLdr, ↓out_view_next, ↓State.issue_view (q := Parts.others { faults := true, trg := true, units := true, xfm := true, mco := true, recorder := true }) (by decide)]

theorem execStr_view {q : Parts} (hq : q.apart { faults := true, trg := true, units := true, xfm := true, mco := true, recorder := true } = true) (b : BayNo) (c : CoreNo) (s : State) : Out.view q (execStr b c s) = some (s.view q) := by
  refine out_view_of { faults := true, trg := true, units := true, xfm := true, mco := true, recorder := true } hq ?_
  simp only [execStr, ↓out_view_next, ↓State.issue_view (q := Parts.others { faults := true, trg := true, units := true, xfm := true, mco := true, recorder := true }) (by decide)]

theorem execMac_view {q : Parts} (hq : q.apart { faults := true, trg := true, units := true, xfm := true, mco := true, recorder := true } = true) (b : BayNo) (c : CoreNo) (s : State) : Out.view q (execMac b c s) = some (s.view q) := by
  refine out_view_of { faults := true, trg := true, units := true, xfm := true, mco := true, recorder := true } hq ?_
  simp only [execMac, ↓out_view_next, ↓State.issue_view (q := Parts.others { faults := true, trg := true, units := true, xfm := true, mco := true, recorder := true }) (by decide)]

theorem execMacp_view {q : Parts} (hq : q.apart { faults := true, trg := true, units := true, xfm := true, mco := true, recorder := true } = true) (b : BayNo) (c : CoreNo) (s : State) : Out.view q (execMacp b c s) = some (s.view q) := by
  refine out_view_of { faults := true, trg := true, units := true, xfm := true, mco := true, recorder := true } hq ?_
  simp only [execMacp, ↓out_view_next, ↓State.issue_view (q := Parts.others { faults := true, trg := true, units := true, xfm := true, mco := true, recorder := true }) (by decide)]

theorem execSta_view {q : Parts} (hq : q.apart { faults := true, trg := true, units := true, xfm := true, mco := true, recorder := true } = true) (b : BayNo) (c : CoreNo) (s : State) : Out.view q (execSta b c s) = some (s.view q) := by
  refine out_view_of { faults := true, trg := true, units := true, xfm := true, mco := true, recorder := true } hq ?_
  simp only [execSta, ↓out_view_next, ↓State.issue_view (q := Parts.others { faults := true, trg := true, units := true, xfm := true, mco := true, recorder := true }) (by decide)]

theorem execLda_view {q : Parts} (hq : q.apart { faults := true, trg := true, units := true, xfm := true, mco := true, recorder := true } = true) (b : BayNo) (c : CoreNo) (s : State) : Out.view q (execLda b c s) = some (s.view q) := by
  refine out_view_of { faults := true, trg := true, units := true, xfm := true, mco := true, recorder := true } hq ?_
  simp only [execLda, ↓out_view_next, ↓State.issue_view (q := Parts.others { faults := true, trg := true, units := true, xfm := true, mco := true, recorder := true }) (by decide)]

theorem execAdda_view {q : Parts} (hq : q.apart { faults := true, trg := true, units := true, xfm := true, mco := true, recorder := true } = true) (b : BayNo) (c : CoreNo) (s : State) : Out.view q (execAdda b c s) = some (s.view q) := by
  refine out_view_of { faults := true, trg := true, units := true, xfm := true, mco := true, recorder := true } hq ?_
  simp only [execAdda, ↓out_view_next, ↓State.issue_view (q := Parts.others { faults := true, trg := true, units := true, xfm := true, mco := true, recorder := true }) (by decide)]

theorem execSha_view {q : Parts} (hq : q.apart { faults := true, trg := true, units := true, xfm := true, mco := true, recorder := true } = true) (b : BayNo) (c : CoreNo) (s : State) : Out.view q (execSha b c s) = some (s.view q) := by
  refine out_view_of { faults := true, trg := true, units := true, xfm := true, mco := true, recorder := true } hq ?_
  simp only [execSha, ↓out_view_next, ↓State.issue_view (q := Parts.others { faults := true, trg := true, units := true, xfm := true, mco := true, recorder := true }) (by decide)]

theorem execSrst_view {q : Parts} (hq : q.apart { faults := true, trg := true, units := true, xfm := true, mco := true, recorder := true } = true) (b : BayNo) (c : CoreNo) (s : State) : Out.view q (execSrst b c s) = some (s.view q) := by
  refine out_view_of { faults := true, trg := true, units := true, xfm := true, mco := true, recorder := true } hq ?_
  simp only [execSrst, ↓out_view_next, ↓State.issue_view (q := Parts.others { faults := true, trg := true, units := true, xfm := true, mco := true, recorder := true }) (by decide)]

theorem execSmax_view {q : Parts} (hq : q.apart { faults := true, trg := true, units := true, xfm := true, mco := true, recorder := true } = true) (b : BayNo) (c : CoreNo) (s : State) : Out.view q (execSmax b c s) = some (s.view q) := by
  refine out_view_of { faults := true, trg := true, units := true, xfm := true, mco := true, recorder := true } hq ?_
  simp only [execSmax, ↓out_view_next, ↓State.issue_view (q := Parts.others { faults := true, trg := true, units := true, xfm := true, mco := true, recorder := true }) (by decide)]

theorem execSmin_view {q : Parts} (hq : q.apart { faults := true, trg := true, units := true, xfm := true, mco := true, recorder := true } = true) (b : BayNo) (c : CoreNo) (s : State) : Out.view q (execSmin b c s) = some (s.view q) := by
  refine out_view_of { faults := true, trg := true, units := true, xfm := true, mco := true, recorder := true } hq ?_
  simp only [execSmin, ↓out_view_next, ↓State.issue_view (q := Parts.others { faults := true, trg := true, units := true, xfm := true, mco := true, recorder := true }) (by decide)]

theorem execSmm_view {q : Parts} (hq : q.apart { faults := true, trg := true, units := true, xfm := true, mco := true, recorder := true } = true) (b : BayNo) (c : CoreNo) (s : State) : Out.view q (execSmm b c s) = some (s.view q) := by
  refine out_view_of { faults := true, trg := true, units := true, xfm := true, mco := true, recorder := true } hq ?_
  simp only [execSmm, ↓out_view_next, ↓State.issue_view (q := Parts.others { faults := true, trg := true, units := true, xfm := true, mco := true, recorder := true }) (by decide)]

theorem execMfs_view {q : Parts} (hq : q.apart { faults := true, trg := true, units := true, xfm := true, mco := true, recorder := true } = true) (b : BayNo) (c : CoreNo) (s : State) : Out.view q (execMfs b c s) = some (s.view q) := by
  refine out_view_of { faults := true, trg := true, units := true, xfm := true, mco := true, recorder := true } hq ?_
  simp only [execMfs, ↓out_view_next, ↓State.issue_view (q := Parts.others { faults := true, trg := true, units := true, xfm := true, mco := true, recorder := true }) (by decide)]

theorem execMts_view {q : Parts} (hq : q.apart { faults := true, trg := true, units := true, xfm := true, mco := true, recorder := true } = true) (b : BayNo) (c : CoreNo) (s : State) : Out.view q (execMts b c s) = some (s.view q) := by
  refine out_view_of { faults := true, trg := true, units := true, xfm := true, mco := true, recorder := true } hq ?_
  simp only [execMts, ↓out_view_next, ↓State.issue_view (q := Parts.others { faults := true, trg := true, units := true, xfm := true, mco := true, recorder := true }) (by decide)]

theorem execEvt_view {q : Parts} (hq : q.apart { faults := true, trg := true, units := true, xfm := true, mco := true, recorder := true } = true) (b : BayNo) (c : CoreNo) (s : State) : Out.view q (execEvt b c s) = some (s.view q) := by
  refine out_view_of { faults := true, trg := true, units := true, xfm := true, mco := true, recorder := true } hq ?_
  simp only [execEvt, ↓out_view_next, ↓State.issue_view (q := Parts.others { faults := true, trg := true, units := true, xfm := true, mco := true, recorder := true }) (by decide)]

theorem execEmit_view {q : Parts} (hq : q.apart { faults := true, trg := true, units := true, xfm := true, mco := true, recorder := true } = true) (b : BayNo) (c : CoreNo) (s : State) : Out.view q (execEmit b c s) = some (s.view q) := by
  refine out_view_of { faults := true, trg := true, units := true, xfm := true, mco := true, recorder := true } hq ?_
  simp only [execEmit, ↓out_view_next, ↓State.issue_view (q := Parts.others { faults := true, trg := true, units := true, xfm := true, mco := true, recorder := true }) (by decide)]

theorem execPost_view {q : Parts} (hq : q.apart { faults := true, trg := true, units := true, xfm := true, mco := true, recorder := true } = true) (b : BayNo) (c : CoreNo) (s : State) : Out.view q (execPost b c s) = some (s.view q) := by
  refine out_view_of { faults := true, trg := true, units := true, xfm := true, mco := true, recorder := true } hq ?_
  simp only [execPost, ↓out_view_next, ↓State.issue_view (q := Parts.others { faults := true, trg := true, units := true, xfm := true, mco := true, recorder := true }) (by decide)]

theorem execWait_view {q : Parts} (hq : q.apart { faults := true, trg := true, units := true, xfm := true, mco := true, recorder := true } = true) (b : BayNo) (c : CoreNo) (s : State) : Out.view q (execWait b c s) = some (s.view q) := by
  refine out_view_of { faults := true, trg := true, units := true, xfm := true, mco := true, recorder := true } hq ?_
  simp only [execWait, ↓out_view_next, ↓State.issue_view (q := Parts.others { faults := true, trg := true, units := true, xfm := true, mco := true, recorder := true }) (by decide)]

theorem execHalt_view {q : Parts} (hq : q.apart { faults := true, trg := true, units := true, xfm := true, mco := true, recorder := true } = true) (b : BayNo) (c : CoreNo) (s : State) : Out.view q (execHalt b c s) = some (s.view q) := by
  refine out_view_of { faults := true, trg := true, units := true, xfm := true, mco := true, recorder := true } hq ?_
  simp only [execHalt, ↓out_view_next, ↓State.issue_view (q := Parts.others { faults := true, trg := true, units := true, xfm := true, mco := true, recorder := true }) (by decide)]

theorem execEi_view {q : Parts} (hq : q.apart { faults := true, trg := true, units := true, xfm := true, mco := true, recorder := true } = true) (b : BayNo) (c : CoreNo) (s : State) : Out.view q (execEi b c s) = some (s.view q) := by
  refine out_view_of { faults := true, trg := true, units := true, xfm := true, mco := true, recorder := true } hq ?_
  simp only [execEi, ↓out_view_next, ↓State.issue_view (q := Parts.others { faults := true, trg := true, units := true, xfm := true, mco := true, recorder := true }) (by decide)]

theorem execDi_view {q : Parts} (hq : q.apart { faults := true, trg := true, units := true, xfm := true, mco := true, recorder := true } = true) (b : BayNo) (c : CoreNo) (s : State) : Out.view q (execDi b c s) = some (s.view q) := by
  refine out_view_of { faults := true, trg := true, units := true, xfm := true, mco := true, recorder := true } hq ?_
  simp only [execDi, ↓out_view_next, ↓State.issue_view (q := Parts.others { faults := true, trg := true, units := true, xfm := true, mco := true, recorder := true }) (by decide)]

theorem execReti_view {q : Parts} (hq : q.apart { faults := true, trg := true, units := true, xfm := true, mco := true, recorder := true } = true) (b : BayNo) (c : CoreNo) (s : State) : Out.view q (execReti b c s) = some (s.view q) := by
  refine out_view_of { faults := true, trg := true, units := true, xfm := true, mco := true, recorder := true } hq ?_
  simp only [execReti, ↓out_view_next, ↓State.issue_view (q := Parts.others { faults := true, trg := true, units := true, xfm := true, mco := true, recorder := true }) (by decide)]

theorem execIllegalInstruction_view {q : Parts} (hq : q.apart { faults := true, mco := true } = true) (b : BayNo) (c : CoreNo) (s : State) : Out.view q (execIllegalInstruction b c s) = some (s.view q) := by
  refine out_view_of { faults := true, mco := true } hq ?_
  simp only [execIllegalInstruction]
  repeat' split
  all_goals simp only [↓out_view_next, ↓State.coreFault_view (q := Parts.others { faults := true, mco := true }) (by decide)]

theorem execInterruptEntry_view {q : Parts} (hq : q.apart { mco := true } = true) (b : BayNo) (c : CoreNo) (s : State) : Out.view q (execInterruptEntry b c s) = some (s.view q) := by
  refine out_view_of { mco := true } hq ?_
  simp only [execInterruptEntry]
  repeat' split
  all_goals simp only [↓out_view_next, ↓State.modCore_view (q := Parts.others { mco := true }) (by decide)]

theorem execCoreTimerExpire_view {q : Parts} (hq : q.apart { time := true, mco := true } = true) (b : BayNo) (c : CoreNo) (s0 : State) : Out.view q (execCoreTimerExpire b c s0) = some (s0.view q) := by
  refine out_view_of { time := true, mco := true } hq ?_
  simp only [execCoreTimerExpire]
  repeat' split
  all_goals simp only [↓out_view_next, ↓State.reach_view (q := Parts.others { time := true, mco := true }) (by decide), ↓State.modCore_view (q := Parts.others { time := true, mco := true }) (by decide), ↓State.raiseLine_view (q := Parts.others { time := true, mco := true }) (by decide)]

theorem execWatchdogExpire_view {q : Parts} (hq : q.apart { faults := true, time := true, mco := true } = true) (b : BayNo) (c : CoreNo) (s0 : State) : Out.view q (execWatchdogExpire b c s0) = some (s0.view q) := by
  refine out_view_of { faults := true, time := true, mco := true } hq ?_
  simp only [execWatchdogExpire, ↓out_view_ite, ↓out_view_next, ite_self, ↓State.reach_view (q := Parts.others { faults := true, time := true, mco := true }) (by decide), ↓State.coreFault_view (q := Parts.others { faults := true, time := true, mco := true }) (by decide)]

theorem execCoreRestart_view {q : Parts} (hq : q.apart { faults := true, mco := true } = true) (b : BayNo) (c : CoreNo) (s : State) : Out.view q (execCoreRestart b c s) = some (s.view q) := by
  refine out_view_of { faults := true, mco := true } hq ?_
  simp only [execCoreRestart, ↓out_view_ite, ↓out_view_next, ite_self, ↓State.faultEnd_view (q := Parts.others { faults := true, mco := true }) (by decide), ↓State.faultRepair_view (q := Parts.others { faults := true, mco := true }) (by decide), ↓State.restartCore_view (q := Parts.others { faults := true, mco := true }) (by decide)]

theorem State.copiedWords_view {q : Parts} (s : State) (k : Core) (start : Nat) (ws : List Word) : (s.copiedWords k start ws).2.view q = s.view q :=
  foldl_snd_view _ (copiedWord k start) (fun _ _ => by unfold copiedWord; split <;> rfl) _ ([], s)

theorem execEmitCopyDone_view {q : Parts} (hq : q.apart { mco := true } = true) (b : BayNo) (c : CoreNo) (s : State) : Out.view q (execEmitCopyDone b c s) = some (s.view q) := by
  refine out_view_of { mco := true } hq ?_
  simp only [execEmitCopyDone]
  repeat' split
  all_goals simp only [↓out_view_next, ↓State.modCore_view (q := Parts.others { mco := true }) (by decide), ↓State.enqueue_view, ↓State.copiedWords_view]

theorem State.feedDrop_view {q : Parts} (hq : q.apart { mco := true } = true) (s : State) (b : BayNo) (c : CoreNo) : (State.feedDrop s b c).view q = s.view q := by
  refine view_of { mco := true } hq ?_
  simp only [State.feedDrop, ↓view_ite, ite_self, ↓State.modCore_view (q := Parts.others { mco := true }) (by decide), ↓State.event_view]

theorem execIqFeedBlock_view {q : Parts} (hq : q.apart { time := true, mco := true } = true) (b : BayNo) (c : CoreNo) (xs : List Sample) (s0 : State) : Out.view q (execIqFeedBlock b c xs s0) = some (s0.view q) := by
  refine out_view_of { time := true, mco := true } hq ?_
  simp only [execIqFeedBlock, ↓out_view_ite, ↓out_view_next, ite_self, ↓State.reach_view (q := Parts.others { time := true, mco := true }) (by decide), ↓State.modCore_view (q := Parts.others { time := true, mco := true }) (by decide), ↓State.raiseLine_view (q := Parts.others { time := true, mco := true }) (by decide), ↓State.feedDrop_view (q := Parts.others { time := true, mco := true }) (by decide)]

theorem State.coreDebug_view {q : Parts} (hq : q.apart { keeper := true } = true) (s : State) (b : BayNo) (c : CoreNo) (action : Nat) : (State.coreDebug s b c action).view q = s.view q := by
  refine view_of { keeper := true } hq ?_
  simp only [State.coreDebug, ↓State.sealLog_view (q := Parts.others { keeper := true }) (by decide), ↓State.event_view]

theorem State.ctrlTrace_view {q : Parts} (hq : q.apart { keeper := true } = true) (s : State) (b : BayNo) (c : CoreNo) (action : Nat) : (State.ctrlTrace s b c action).view q = s.view q := by
  refine view_of { keeper := true } hq ?_
  simp only [State.ctrlTrace, ↓view_ite, ite_self, ↓State.coreDebug_view (q := Parts.others { keeper := true }) (by decide)]

theorem execMcCtrlHalt_view {q : Parts} (hq : q.apart { keeper := true, mco := true } = true) (b : BayNo) (c : CoreNo) (s : State) : Out.view q (execMcCtrlHalt b c s) = some (s.view q) := by
  refine out_view_of { keeper := true, mco := true } hq ?_
  simp only [execMcCtrlHalt, ↓out_view_ite, ↓out_view_next, ite_self, ↓State.modCore_view (q := Parts.others { keeper := true, mco := true }) (by decide), ↓State.event_view, ↓State.ctrlTrace_view (q := Parts.others { keeper := true, mco := true }) (by decide)]

theorem execMcCtrlResume_view {q : Parts} (hq : q.apart { keeper := true, mco := true } = true) (b : BayNo) (c : CoreNo) (s : State) : Out.view q (execMcCtrlResume b c s) = some (s.view q) := by
  refine out_view_of { keeper := true, mco := true } hq ?_
  simp only [execMcCtrlResume, ↓out_view_ite, ↓out_view_next, ite_self, ↓State.modCore_view (q := Parts.others { keeper := true, mco := true }) (by decide), ↓State.ctrlTrace_view (q := Parts.others { keeper := true, mco := true }) (by decide)]

theorem execMcCtrlReset_view {q : Parts} (hq : q.apart { keeper := true, mco := true } = true) (b : BayNo) (c : CoreNo) (s : State) : Out.view q (execMcCtrlReset b c s) = some (s.view q) := by
  refine out_view_of { keeper := true, mco := true } hq ?_
  simp only [execMcCtrlReset, ↓out_view_ite, ↓out_view_next, ite_self, ↓State.restartCore_view (q := Parts.others { keeper := true, mco := true }) (by decide), ↓State.ctrlTrace_view (q := Parts.others { keeper := true, mco := true }) (by decide)]

theorem execMcMboxInWrite_view {q : Parts} (hq : q.apart { domains := true, mco := true } = true) (b : BayNo) (c : CoreNo) (v : Word) (s : State) : Out.view q (execMcMboxInWrite b c v s) = some (s.view q) := by
  refine out_view_of { domains := true, mco := true } hq ?_
  simp only [execMcMboxInWrite, ↓out_view_ite, ↓out_view_next, ite_self, ↓State.discarded_view, ↓State.modCore_view (q := Parts.others { domains := true, mco := true }) (by decide), ↓State.raiseLine_view (q := Parts.others { domains := true, mco := true }) (by decide), ↓State.fencedAccess_view (q := Parts.others { domains := true, mco := true }) (by decide)]

theorem execMcMboxOutRead_view {q : Parts} (hq : q.apart { domains := true, mco := true } = true) (b : BayNo) (c : CoreNo) (s : State) : Out.view q (execMcMboxOutRead b c s) = some (s.view q) := by
  refine out_view_of { domains := true, mco := true } hq ?_
  simp only [execMcMboxOutRead, ↓out_view_ite, ↓out_view_next, ite_self, ↓State.modCore_view (q := Parts.others { domains := true, mco := true }) (by decide), ↓State.fencedAccess_view (q := Parts.others { domains := true, mco := true }) (by decide)]

theorem execCoreImemWrite_view {q : Parts} (hq : q.apart { keeper := true, domains := true, mco := true } = true) (b : BayNo) (a : BitVec 14) (v : Word) (s : State) : Out.view q (execCoreImemWrite b a v s) = some (s.view q) := by
  refine out_view_of { keeper := true, domains := true, mco := true } hq ?_
  simp only [execCoreImemWrite, ↓out_view_ite, ↓out_view_next, ite_self, ↓State.discarded_view, ↓State.modCore_view (q := Parts.others { keeper := true, domains := true, mco := true }) (by decide), ↓State.fencedAccess_view (q := Parts.others { keeper := true, domains := true, mco := true }) (by decide), ↓State.ctrlTrace_view (q := Parts.others { keeper := true, domains := true, mco := true }) (by decide)]

theorem execCoreEbb_view {q : Parts} (hq : q.apart { time := true, domains := true, mco := true } = true) (b : BayNo) (c : CoreNo) (s0 : State) : Out.view q (execCoreEbb b c s0) = some (s0.view q) := by
  refine out_view_of { time := true, domains := true, mco := true } hq ?_
  unfold execCoreEbb
  extract_lets k
  split
  · rfl
  · exact next_view (((State.modBay_view _ _ _ _ (by intro _; rfl))).trans ((State.modCore_view (q := Parts.others { time := true, domains := true, mco := true }) (by decide) ..).trans (State.reach_view (q := Parts.others { time := true, domains := true, mco := true }) (by decide) ..)))

theorem execCoreFloodDone_view {q : Parts} (hq : q.apart { domains := true, mco := true } = true) (b : BayNo) (c : CoreNo) (s : State) : Out.view q (execCoreFloodDone b c s) = some (s.view q) := by
  refine out_view_of { domains := true, mco := true } hq ?_
  unfold execCoreFloodDone
  try dsimp only
  repeat' (first | rfl | with_reducible (first | rfl | refine next_view ?_ | exact State.modBay_view _ _ _ _ (fun _ => rfl) | exact State.modSeal_view _ _ _ rfl | refine (State.modSeal_view _ _ _ rfl).trans ?_ | refine (State.modSeal_free (by decide) (by decide) ..).trans ?_ | refine (State.modCore_view (q := Parts.others { domains := true, mco := true }) (by decide) ..).trans ?_) | (refine (State.modBay_view _ _ _ _ ?hb).trans ?_; case hb => exact fun _ => rfl) | split | (refine foldl_view _ _ (fun _ _ => ?_) _ _; try dsimp only) | (refine (foldl_view _ _ (fun _ _ => ?_) _ _).trans ?_; try dsimp only) | (refine (State.eachBay_view _ _ (fun _ _ => ?_) _ _).trans ?_; try dsimp only))

end Sys2Proof.Machine
end

