-- ==== Sys2Proof/Laws/View/Mon.lean ====
section
/-! SUPPORT. Which parts the operations of Machine/Mon.lean leave as they were. -/
namespace Sys2Proof.Machine

theorem execMonSample_view {q : Parts} (hq : q.apart { time := true, mon := true } = true) (b : BayNo) (m : Fin 16) (v : Int) (injected : Bool) (s0 : State) : Out.view q (execMonSample b m v injected s0) = some (s0.view q) := by
  refine out_view_of { time := true, mon := true } hq ?_
  simp only [execMonSample, ↓out_view_ite, ↓out_view_next, ite_self, ↓State.reach_view (q := Parts.others { time := true, mon := true }) (by decide), ↓State.monTake_view (q := Parts.others { time := true, mon := true }) (by decide)]

theorem State.monEmit_view {q : Parts} (hq : q.apart { mon := true } = true) (s : State) (b : BayNo) (m : Fin 16) (sub : Nat) (t : Stamp) : (State.monEmit s b m sub t).view q = s.view q := by
  refine view_of { mon := true } hq ?_
  simp only [State.monEmit, ↓view_ite, ite_self, ↓State.enqueue_view, ↓State.modMon_view (q := Parts.others { mon := true }) (by decide), ↓State.monStart_view (q := Parts.others { mon := true }) (by decide)]

theorem State.monBoundary_view {q : Parts} (hq : q.apart { mon := true } = true) (s : State) (b : BayNo) (m : Fin 16) (t : Stamp) : (State.monBoundary s b m t).view q = s.view q := by
  refine view_of { mon := true } hq ?_
  simp only [State.monBoundary, ↓view_ite, ite_self, ↓State.modMon_view (q := Parts.others { mon := true }) (by decide), ↓State.monStart_view (q := Parts.others { mon := true }) (by decide), ↓State.monEmit_view (q := Parts.others { mon := true }) (by decide)]

theorem execMonSnap_view {q : Parts} (hq : q.apart { mon := true } = true) (b : BayNo) (mask : BitVec 16) (s : State) : Out.view q (execMonSnap b mask s) = some (s.view q) := by
  refine out_view_of { mon := true } hq ?_
  simp only [execMonSnap, ↓view_ite, ↓out_view_ite, ↓out_view_next, ↓foldl_view, ite_self, implies_true, ↓State.monEmit_view (q := Parts.others { mon := true }) (by decide)]

theorem execFaultLongestRead_view {q : Parts} (hq : q.apart { faults := true } = true) (s : State) : Out.view q (execFaultLongestRead s) = some (s.view q) := by
  refine out_view_of { faults := true } hq ?_
  simp only [execFaultLongestRead, ↓out_view_ite, ↓out_view_next, ite_self, ↓State.modFaults_view (q := Parts.others { faults := true }) (by decide)]

end Sys2Proof.Machine
end

