-- ==== Sys2Proof/Laws/View/Shadow.lean ====
section
/-! SUPPORT. Which parts the operations of Machine/Shadow.lean leave as they were. -/
namespace Sys2Proof.Machine

theorem State.modScn_view {q : Parts} (hq : q.apart { scn := true } = true) (s : State) (b : BayNo) (f : Scn → Scn) : (State.modScn s b f).view q = s.view q := by
  refine view_of { scn := true } hq ?_
  unfold State.modScn
  exact State.modBay_view _ _ _ _ (fun _ => rfl)

theorem State.shadowWrite_view {q : Parts} (hq : q.apart { scn := true } = true) (s : State) (b : BayNo) (id : Nat) (f : Field) (i : Nat) (v : Int) : (State.shadowWrite s b id f i v).view q = s.view q := by
  refine view_of { scn := true } hq ?_
  simp only [State.shadowWrite, ↓State.modScn_view (q := Parts.others { scn := true }) (by decide)]

theorem State.vblankArrive_view {q : Parts} (hq : q.apart { scn := true } = true) (s : State) (ws : List Waiting) : (State.vblankArrive s ws).view q = s.view q := by
  refine view_of { scn := true } hq ?_
  unfold State.vblankArrive
  refine foldl_view _ _ (fun s w => ?_) _ _
  split
  · split
    · rfl
    · exact foldl_view _ _ (fun _ _ => (State.modScn_view (by decide) ..).trans (State.shadowWrite_view (by decide) ..)) _ _
  · rfl

end Sys2Proof.Machine
end

