-- ==== Sys2Proof/Laws/View/Apply.lean ====
section
/-! SUPPORT. Which parts the operations of Machine/Apply.lean leave as they were. -/
namespace Sys2Proof.Machine

theorem State.setFld_view {q : Parts} (hq : q.apart { vals := true } = true) (s : State) (f : Field) (b : BayNo) (i : Nat) (v : Int) : (State.setFld s f b i v).view q = s.view q := by
  refine view_of { vals := true } hq ?_
  simp only [State.setFld, ↓State.modVals_view (q := Parts.others { vals := true }) (by decide)]

theorem State.attenApplied_view {q : Parts} (hq : q.apart { afe := true, ddc := true, xfm := true } = true) (s : State) (b : BayNo) (i : Fin 2) (c : Cause) (trim : Bool) (v : Nat) : (State.attenApplied s b i c trim v).view q = s.view q := by
  refine view_of { afe := true, ddc := true, xfm := true } hq ?_
  simp only [State.attenApplied, ↓State.giveAtten_view (q := Parts.others { afe := true, ddc := true, xfm := true }) (by decide)]

theorem State.beforeApplied_view {q : Parts} (hq : q.apart { ddc := true, lne := true } = true) (s : State) (f : Field) (b : BayNo) (i : Nat) : (State.beforeApplied s f b i).view q = s.view q := by
  refine view_of { ddc := true, lne := true } hq ?_
  simp only [State.beforeApplied, ↓view_ite, ↓foldl_view, ite_self, implies_true, ↓State.accrue_view (q := Parts.others { ddc := true, lne := true }) (by decide), ↓State.breakIq_view (q := Parts.others { ddc := true, lne := true }) (by decide)]

theorem State.analogApplied_view {q : Parts} (hq : q.apart { tbs := true, time := true, afe := true, adc := true, ddc := true, xfm := true, lne := true, cal := true, hkc := true, aux := true } = true) (s : State) (f : Field) (b : BayNo) (i : Nat) (c : Cause) (v : Int) : (State.analogApplied s f b i c v).view q = s.view q := by
  refine view_of { tbs := true, time := true, afe := true, adc := true, ddc := true, xfm := true, lne := true, cal := true, hkc := true, aux := true } hq ?_
  simp only [State.analogApplied, ↓view_ite, ↓foldl_view, ite_self, implies_true, ↓State.steer_view (q := Parts.others { tbs := true, time := true, afe := true, adc := true, ddc := true, xfm := true, lne := true, cal := true, hkc := true, aux := true }) (by decide), ↓State.setAuxCode_view (q := Parts.others { tbs := true, time := true, afe := true, adc := true, ddc := true, xfm := true, lne := true, cal := true, hkc := true, aux := true }) (by decide), ↓State.calRequest_view (q := Parts.others { tbs := true, time := true, afe := true, adc := true, ddc := true, xfm := true, lne := true, cal := true, hkc := true, aux := true }) (by decide), ↓State.scanChanged_view (q := Parts.others { tbs := true, time := true, afe := true, adc := true, ddc := true, xfm := true, lne := true, cal := true, hkc := true, aux := true }) (by decide), ↓State.modLane_view (q := Parts.others { tbs := true, time := true, afe := true, adc := true, ddc := true, xfm := true, lne := true, cal := true, hkc := true, aux := true }) (by decide), ↓State.adaptLane_view (q := Parts.others { tbs := true, time := true, afe := true, adc := true, ddc := true, xfm := true, lne := true, cal := true, hkc := true, aux := true }) (by decide), ↓State.runRotations_view (q := Parts.others { tbs := true, time := true, afe := true, adc := true, ddc := true, xfm := true, lne := true, cal := true, hkc := true, aux := true }) (by decide), ↓State.readapt_view (q := Parts.others { tbs := true, time := true, afe := true, adc := true, ddc := true, xfm := true, lne := true, cal := true, hkc := true, aux := true }) (by decide), ↓State.attenApplied_view (q := Parts.others { tbs := true, time := true, afe := true, adc := true, ddc := true, xfm := true, lne := true, cal := true, hkc := true, aux := true }) (by decide)]

theorem State.feedChanged_view {q : Parts} (hq : q.apart { mco := true } = true) (s : State) (b : BayNo) (c : CoreNo) : (State.feedChanged s b c).view q = s.view q := by
  refine view_of { mco := true } hq ?_
  simp only [State.feedChanged, ↓State.modCore_view (q := Parts.others { mco := true }) (by decide)]

theorem State.onApplied_view {q : Parts} (hq : q.apart { tbs := true, time := true, units := true, afe := true, adc := true, ddc := true, xfm := true, den := true, mco := true, lne := true, cal := true, hkc := true, aux := true, mon := true } = true) (s : State) (f : Field) (b : BayNo) (i : Nat) (c : Cause) (old v : Int) : (State.onApplied s f b i c old v).view q = s.view q := by
  refine view_of { tbs := true, time := true, units := true, afe := true, adc := true, ddc := true, xfm := true, den := true, mco := true, lne := true, cal := true, hkc := true, aux := true, mon := true } hq ?_
  simp only [State.onApplied, ↓view_ite, ite_self, ↓State.refreshPorts_view (q := Parts.others { tbs := true, time := true, units := true, afe := true, adc := true, ddc := true, xfm := true, den := true, mco := true, lne := true, cal := true, hkc := true, aux := true, mon := true }) (by decide), ↓State.unitChanged_view (q := Parts.others { tbs := true, time := true, units := true, afe := true, adc := true, ddc := true, xfm := true, den := true, mco := true, lne := true, cal := true, hkc := true, aux := true, mon := true }) (by decide), ↓State.modMon_view (q := Parts.others { tbs := true, time := true, units := true, afe := true, adc := true, ddc := true, xfm := true, den := true, mco := true, lne := true, cal := true, hkc := true, aux := true, mon := true }) (by decide), ↓State.modInj_view, ↓State.modLink_view, ↓State.analogApplied_view (q := Parts.others { tbs := true, time := true, units := true, afe := true, adc := true, ddc := true, xfm := true, den := true, mco := true, lne := true, cal := true, hkc := true, aux := true, mon := true }) (by decide), ↓State.feedChanged_view (q := Parts.others { tbs := true, time := true, units := true, afe := true, adc := true, ddc := true, xfm := true, den := true, mco := true, lne := true, cal := true, hkc := true, aux := true, mon := true }) (by decide)]

theorem State.putFld_view {q : Parts} (hq : q.apart { vals := true, tbs := true, time := true, units := true, afe := true, adc := true, ddc := true, xfm := true, den := true, mco := true, lne := true, cal := true, hkc := true, aux := true, mon := true } = true) (s : State) (f : Field) (b : BayNo) (i : Nat) (c : Cause) (v : Int) : (State.putFld s f b i c v).view q = s.view q := by
  refine view_of { vals := true, tbs := true, time := true, units := true, afe := true, adc := true, ddc := true, xfm := true, den := true, mco := true, lne := true, cal := true, hkc := true, aux := true, mon := true } hq ?_
  simp only [State.putFld, ↓State.setFld_view (q := Parts.others { vals := true, tbs := true, time := true, units := true, afe := true, adc := true, ddc := true, xfm := true, den := true, mco := true, lne := true, cal := true, hkc := true, aux := true, mon := true }) (by decide), ↓State.beforeApplied_view (q := Parts.others { vals := true, tbs := true, time := true, units := true, afe := true, adc := true, ddc := true, xfm := true, den := true, mco := true, lne := true, cal := true, hkc := true, aux := true, mon := true }) (by decide), ↓State.onApplied_view (q := Parts.others { vals := true, tbs := true, time := true, units := true, afe := true, adc := true, ddc := true, xfm := true, den := true, mco := true, lne := true, cal := true, hkc := true, aux := true, mon := true }) (by decide)]

theorem State.tellApplied_view {q : Parts} (hq : q.apart { keeper := true } = true) (s : State) (f : Field) (k : Key) (old v : Int) (watched : Bool) : (State.tellApplied s f k old v watched).view q = s.view q := by
  refine view_of { keeper := true } hq ?_
  simp only [State.tellApplied, ↓view_ite, ite_self, ↓State.sealLog_view (q := Parts.others { keeper := true }) (by decide), ↓State.event_view]

theorem State.applyWaiting_view {q : Parts} (hq : q.apart { vals := true, tbs := true, keeper := true, time := true, units := true, afe := true, adc := true, ddc := true, xfm := true, den := true, mco := true, lne := true, cal := true, hkc := true, aux := true, mon := true } = true) (s : State) (b : BayNo) (c : Cause) (w : Waiting) : (State.applyWaiting s b c w).2.view q = s.view q := by
  refine view_of { vals := true, tbs := true, keeper := true, time := true, units := true, afe := true, adc := true, ddc := true, xfm := true, den := true, mco := true, lne := true, cal := true, hkc := true, aux := true, mon := true } hq ?_
  simp only [State.applyWaiting]
  repeat' split
  all_goals simp only [↓State.putFld_view (q := Parts.others { vals := true, tbs := true, keeper := true, time := true, units := true, afe := true, adc := true, ddc := true, xfm := true, den := true, mco := true, lne := true, cal := true, hkc := true, aux := true, mon := true }) (by decide), ↓State.tellApplied_view (q := Parts.others { vals := true, tbs := true, keeper := true, time := true, units := true, afe := true, adc := true, ddc := true, xfm := true, den := true, mco := true, lne := true, cal := true, hkc := true, aux := true, mon := true }) (by decide)]

theorem State.passOver_view {q : Parts} (hq : q.apart { keeper := true } = true) (s : State) (b : BayNo) (w : Waiting) : (State.passOver s b w).2.view q = s.view q := by
  refine view_of { keeper := true } hq ?_
  simp only [State.passOver]
  repeat' split
  all_goals simp only [implies_true, ↓State.modSeal_open (p := Parts.others { keeper := true }) rfl]

theorem State.takeEffect_view {q : Parts} (hq : q.apart { vals := true, img := true, tbs := true, keeper := true, time := true, units := true, afe := true, adc := true, ddc := true, xfm := true, den := true, mco := true, lne := true, cal := true, hkc := true, aux := true, mon := true } = true) (s : State) (b : BayNo) (p : Waiting → Bool) (c : Cause) : (State.takeEffect s b p c).view q = s.view q := by
  refine view_of { vals := true, img := true, tbs := true, keeper := true, time := true, units := true, afe := true, adc := true, ddc := true, xfm := true, den := true, mco := true, lne := true, cal := true, hkc := true, aux := true, mon := true } hq ?_
  simp only [State.takeEffect, ↓view_ite, ↓snd_ite, ↓foldl_snd_view, ite_self, implies_true, ↓State.modImg_view (q := Parts.others { vals := true, img := true, tbs := true, keeper := true, time := true, units := true, afe := true, adc := true, ddc := true, xfm := true, den := true, mco := true, lne := true, cal := true, hkc := true, aux := true, mon := true }) (by decide), ↓State.applyWaiting_view (q := Parts.others { vals := true, img := true, tbs := true, keeper := true, time := true, units := true, afe := true, adc := true, ddc := true, xfm := true, den := true, mco := true, lne := true, cal := true, hkc := true, aux := true, mon := true }) (by decide), ↓State.passOver_view (q := Parts.others { vals := true, img := true, tbs := true, keeper := true, time := true, units := true, afe := true, adc := true, ddc := true, xfm := true, den := true, mco := true, lne := true, cal := true, hkc := true, aux := true, mon := true }) (by decide)]

theorem State.discardWaiting_view {q : Parts} (hq : q.apart { img := true, keeper := true } = true) (s : State) (drop : List Waiting) (keep : List Waiting) : (State.discardWaiting s drop keep).view q = s.view q := by
  refine view_of { img := true, keeper := true } hq ?_
  unfold State.discardWaiting
  try dsimp only
  repeat' (first | rfl | with_reducible (first | rfl | refine next_view ?_ | exact State.modBay_view _ _ _ _ (fun _ => rfl) | exact State.modSeal_view _ _ _ rfl | refine (State.modSeal_view _ _ _ rfl).trans ?_ | refine (State.modSeal_free (by decide) (by decide) ..).trans ?_) | (refine (State.modBay_view _ _ _ _ ?hb).trans ?_; case hb => exact fun _ => rfl) | split | (refine foldl_view _ _ (fun _ _ => ?_) _ _; try dsimp only) | (refine (foldl_view _ _ (fun _ _ => ?_) _ _).trans ?_; try dsimp only) | (refine (State.eachBay_view _ _ (fun _ _ => ?_) _ _).trans ?_; try dsimp only))

theorem State.profileKey_view {q : Parts} (hq : q.apart { vals := true, tbs := true, time := true, units := true, afe := true, adc := true, ddc := true, xfm := true, den := true, mco := true, lne := true, cal := true, hkc := true, aux := true, mon := true } = true) (s : State) (target : Vals) (k : Nat) : (State.profileKey s target k).2.view q = s.view q := by
  refine view_of { vals := true, tbs := true, time := true, units := true, afe := true, adc := true, ddc := true, xfm := true, den := true, mco := true, lne := true, cal := true, hkc := true, aux := true, mon := true } hq ?_
  simp only [State.profileKey]
  repeat' split
  all_goals simp only [↓State.putFld_view (q := Parts.others { vals := true, tbs := true, time := true, units := true, afe := true, adc := true, ddc := true, xfm := true, den := true, mco := true, lne := true, cal := true, hkc := true, aux := true, mon := true }) (by decide)]

theorem State.changeProfile_view {q : Parts} (hq : q.apart { vals := true, img := true, tbs := true, keeper := true, time := true, units := true, afe := true, adc := true, ddc := true, xfm := true, den := true, mco := true, scn := true, lne := true, cal := true, hkc := true, aux := true, mon := true } = true) (s : State) (p : Nat) (pins : Bool) (boundary : Stamp) : (State.changeProfile s p pins boundary).view q = s.view q := by
  refine view_of { vals := true, img := true, tbs := true, keeper := true, time := true, units := true, afe := true, adc := true, ddc := true, xfm := true, den := true, mco := true, scn := true, lne := true, cal := true, hkc := true, aux := true, mon := true } hq ?_
  simp only [State.changeProfile]
  repeat' split
  all_goals simp only [↓foldl_snd_view, implies_true, ↓State.modImg_view (q := Parts.others { vals := true, img := true, tbs := true, keeper := true, time := true, units := true, afe := true, adc := true, ddc := true, xfm := true, den := true, mco := true, scn := true, lne := true, cal := true, hkc := true, aux := true, mon := true }) (by decide), ↓State.sealLog_view (q := Parts.others { vals := true, img := true, tbs := true, keeper := true, time := true, units := true, afe := true, adc := true, ddc := true, xfm := true, den := true, mco := true, scn := true, lne := true, cal := true, hkc := true, aux := true, mon := true }) (by decide), ↓State.vblankArrive_view (q := Parts.others { vals := true, img := true, tbs := true, keeper := true, time := true, units := true, afe := true, adc := true, ddc := true, xfm := true, den := true, mco := true, scn := true, lne := true, cal := true, hkc := true, aux := true, mon := true }) (by decide), ↓State.event_view, ↓State.profileKey_view (q := Parts.others { vals := true, img := true, tbs := true, keeper := true, time := true, units := true, afe := true, adc := true, ddc := true, xfm := true, den := true, mco := true, scn := true, lne := true, cal := true, hkc := true, aux := true, mon := true }) (by decide)]

theorem State.epochApply_view {q : Parts} (hq : q.apart { vals := true, img := true, tbs := true, keeper := true, time := true, units := true, afe := true, adc := true, ddc := true, xfm := true, den := true, mco := true, scn := true, lne := true, cal := true, hkc := true, aux := true, mon := true } = true) (s : State) (t : Stamp) : (State.epochApply s t).view q = s.view q := by
  refine view_of { vals := true, img := true, tbs := true, keeper := true, time := true, units := true, afe := true, adc := true, ddc := true, xfm := true, den := true, mco := true, scn := true, lne := true, cal := true, hkc := true, aux := true, mon := true } hq ?_
  simp only [State.epochApply]
  repeat' split
  all_goals simp only [↓State.eachBay_view, implies_true, ↓State.takeEffect_view (q := Parts.others { vals := true, img := true, tbs := true, keeper := true, time := true, units := true, afe := true, adc := true, ddc := true, xfm := true, den := true, mco := true, scn := true, lne := true, cal := true, hkc := true, aux := true, mon := true }) (by decide), ↓State.discardWaiting_view (q := Parts.others { vals := true, img := true, tbs := true, keeper := true, time := true, units := true, afe := true, adc := true, ddc := true, xfm := true, den := true, mco := true, scn := true, lne := true, cal := true, hkc := true, aux := true, mon := true }) (by decide), ↓State.changeProfile_view (q := Parts.others { vals := true, img := true, tbs := true, keeper := true, time := true, units := true, afe := true, adc := true, ddc := true, xfm := true, den := true, mco := true, scn := true, lne := true, cal := true, hkc := true, aux := true, mon := true }) (by decide)]

end Sys2Proof.Machine
end

