-- ==== Sys2Proof/Laws/View/Live.lean ====
section
/-! SUPPORT. Which parts the operations of Machine/Live.lean leave as they were. -/
namespace Sys2Proof.Machine

theorem State.acceptValue_view {q : Parts} (hq : q.apart { img := true, keeper := true, scn := true } = true) (s : State) (f : Field) (i : Nat) (k : Key) (m : Nat) (v : Int) (watched defer : Bool) : (State.acceptValue s f i k m v watched defer).view q = s.view q := by
  refine view_of { img := true, keeper := true, scn := true } hq ?_
  unfold State.acceptValue
  try dsimp only
  repeat' (first | rfl | with_reducible (first | rfl | refine next_view ?_ | exact State.modBay_view _ _ _ _ (fun _ => rfl) | exact State.modSeal_view _ _ _ rfl | refine (State.modSeal_view _ _ _ rfl).trans ?_ | refine (State.modSeal_free (by decide) (by decide) ..).trans ?_ | refine (State.modImg_view (q := Parts.others { img := true, keeper := true, scn := true }) (by decide) ..).trans ?_ | refine (State.vblankArrive_view (q := Parts.others { img := true, keeper := true, scn := true }) (by decide) ..).trans ?_) | (refine (State.modBay_view _ _ _ _ ?hb).trans ?_; case hb => exact fun _ => rfl) | split | (refine foldl_view _ _ (fun _ _ => ?_) _ _; try dsimp only) | (refine (foldl_view _ _ (fun _ _ => ?_) _ _).trans ?_; try dsimp only) | (refine (State.eachBay_view _ _ (fun _ _ => ?_) _ _).trans ?_; try dsimp only))

theorem execSetLive_view {q : Parts} (hq : q.apart { img := true, keeper := true, scn := true } = true) (tag key value : Word) (defer : Bool) (s : State) : Out.view q (execSetLive tag key value defer s) = some (s.view q) := by
  refine out_view_of { img := true, keeper := true, scn := true } hq ?_
  simp only [execSetLive]
  repeat' split
  all_goals simp only [↓view_ite, ite_self, implies_true, ↓State.complete_view, ↓State.ringCommand_view (q := Parts.others { img := true, keeper := true, scn := true }) (by decide), ↓State.acceptValue_view (q := Parts.others { img := true, keeper := true, scn := true }) (by decide)]

theorem State.acceptProfile_view {q : Parts} (hq : q.apart { img := true, keeper := true } = true) (s : State) (p : Nat) (pins : Bool) : (State.acceptProfile s p pins).view q = s.view q := by
  refine view_of { img := true, keeper := true } hq ?_
  unfold State.acceptProfile
  try dsimp only
  repeat' (first | rfl | with_reducible (first | rfl | refine next_view ?_ | exact State.modBay_view _ _ _ _ (fun _ => rfl) | exact State.modSeal_view _ _ _ rfl | refine (State.modSeal_view _ _ _ rfl).trans ?_ | refine (State.modSeal_free (by decide) (by decide) ..).trans ?_) | (refine (State.modBay_view _ _ _ _ ?hb).trans ?_; case hb => exact fun _ => rfl) | split | (refine foldl_view _ _ (fun _ _ => ?_) _ _; try dsimp only) | (refine (foldl_view _ _ (fun _ _ => ?_) _ _).trans ?_; try dsimp only) | (refine (State.eachBay_view _ _ (fun _ _ => ?_) _ _).trans ?_; try dsimp only))

theorem execSelectProfile_view {q : Parts} (hq : q.apart { img := true, keeper := true } = true) (tag : Word) (p : BitVec 4) (s : State) : Out.view q (execSelectProfile tag p s) = some (s.view q) := by
  refine out_view_of { img := true, keeper := true } hq ?_
  simp only [execSelectProfile, ↓view_ite, ite_self, implies_true, ↓State.complete_view, ↓State.ringCommand_view (q := Parts.others { img := true, keeper := true }) (by decide), ↓State.event_view, ↓State.acceptProfile_view (q := Parts.others { img := true, keeper := true }) (by decide)]

theorem execProfilePinChange_view {q : Parts} (hq : q.apart { img := true, keeper := true } = true) (v : BitVec 4) (s : State) : Out.view q (execProfilePinChange v s) = some (s.view q) := by
  refine out_view_of { img := true, keeper := true } hq ?_
  simp only [execProfilePinChange, ↓out_view_ite, ↓out_view_next, ite_self, ↓State.modImg_view (q := Parts.others { img := true, keeper := true }) (by decide), ↓State.event_view, ↓State.acceptProfile_view (q := Parts.others { img := true, keeper := true }) (by decide)]

end Sys2Proof.Machine
end

