-- ==== Sys2Proof/Laws/View/Hop.lean ====
section
/-! SUPPORT. Which parts the operations of Machine/Hop.lean leave as they were. -/
namespace Sys2Proof.Machine

theorem State.portRetuned_view {q : Parts} (hq : q.apart { ddc := true } = true) (s : State) (b : BayNo) (p : Port) (old : State) (told : Bool) (t : Stamp) : (State.portRetuned s b p old told t).view q = s.view q := by
  refine view_of { ddc := true } hq ?_
  simp only [State.portRetuned, ↓view_ite, ite_self, ↓State.changeRun_view (q := Parts.others { ddc := true }) (by decide), ↓State.newStretch_view (q := Parts.others { ddc := true }) (by decide), ↓State.tuneFrom_view (q := Parts.others { ddc := true }) (by decide), ↓State.event_view]

theorem State.chanSwitched_view {q : Parts} (hq : q.apart { units := true, xfm := true, den := true } = true) (s : State) (b : BayNo) (x : Fin 2) (p0 p1 : Port) (t : Stamp) : (State.chanSwitched s b x p0 p1 t).view q = s.view q := by
  refine view_of { units := true, xfm := true, den := true } hq ?_
  simp only [State.chanSwitched, ↓view_ite, ite_self, ↓State.modChan_view (q := Parts.others { units := true, xfm := true, den := true }) (by decide), ↓State.openChanGap_view (q := Parts.others { units := true, xfm := true, den := true }) (by decide), ↓State.event_view]

theorem State.chanChanged_view {q : Parts} (hq : q.apart { units := true, xfm := true, den := true } = true) (s : State) (b : BayNo) (x : Fin 2) (old : State) (t : Stamp) : (State.chanChanged s b x old t).view q = s.view q := by
  refine view_of { units := true, xfm := true, den := true } hq ?_
  simp only [State.chanChanged, ↓view_ite, ite_self, ↓State.modChan_view (q := Parts.others { units := true, xfm := true, den := true }) (by decide), ↓State.event_view, ↓State.chanSwitched_view (q := Parts.others { units := true, xfm := true, den := true }) (by decide)]

theorem State.hopApply_view {q : Parts} (hq : q.apart { vals := true, img := true, tbs := true, keeper := true, time := true, units := true, afe := true, adc := true, ddc := true, xfm := true, den := true, mco := true, lne := true, cal := true, hkc := true, aux := true, mon := true } = true) (s : State) (b : BayNo) (scope : List (Fin 2) × List Port) (any : Bool) (t : Stamp) : (s.hopApply b scope any t).view q = s.view q := by
  refine view_of { vals := true, img := true, tbs := true, keeper := true, time := true, units := true, afe := true, adc := true, ddc := true, xfm := true, den := true, mco := true, lne := true, cal := true, hkc := true, aux := true, mon := true } hq ?_
  unfold State.hopApply
  exact (State.noteConf_view (q := Parts.others { vals := true, img := true, tbs := true, keeper := true, time := true, units := true, afe := true, adc := true, ddc := true, xfm := true, den := true, mco := true, lne := true, cal := true, hkc := true, aux := true, mon := true }) (by decide) ..).trans ((foldl_view _ _ (fun _ _ => State.chanChanged_view (q := Parts.others { vals := true, img := true, tbs := true, keeper := true, time := true, units := true, afe := true, adc := true, ddc := true, xfm := true, den := true, mco := true, lne := true, cal := true, hkc := true, aux := true, mon := true }) (by decide) ..) _ _).trans
    ((foldl_view _ _ (fun _ _ => State.portRetuned_view (q := Parts.others { vals := true, img := true, tbs := true, keeper := true, time := true, units := true, afe := true, adc := true, ddc := true, xfm := true, den := true, mco := true, lne := true, cal := true, hkc := true, aux := true, mon := true }) (by decide) ..) _ _).trans
      ((State.refreshPorts_view (q := Parts.others { vals := true, img := true, tbs := true, keeper := true, time := true, units := true, afe := true, adc := true, ddc := true, xfm := true, den := true, mco := true, lne := true, cal := true, hkc := true, aux := true, mon := true }) (by decide) ..).trans (State.takeEffect_view (q := Parts.others { vals := true, img := true, tbs := true, keeper := true, time := true, units := true, afe := true, adc := true, ddc := true, xfm := true, den := true, mco := true, lne := true, cal := true, hkc := true, aux := true, mon := true }) (by decide) ..))))

theorem State.resumeValues_view {q : Parts} (hq : q.apart { vals := true, img := true, tbs := true, keeper := true, time := true, units := true, afe := true, adc := true, ddc := true, xfm := true, den := true, mco := true, lne := true, cal := true, hkc := true, aux := true, mon := true } = true) (s : State) (b : BayNo) (p : Port) (t : Stamp) : (State.resumeValues s b p t).view q = s.view q := by
  refine view_of { vals := true, img := true, tbs := true, keeper := true, time := true, units := true, afe := true, adc := true, ddc := true, xfm := true, den := true, mco := true, lne := true, cal := true, hkc := true, aux := true, mon := true } hq ?_
  simp only [State.resumeValues, ↓State.hopApply_view (q := Parts.others { vals := true, img := true, tbs := true, keeper := true, time := true, units := true, afe := true, adc := true, ddc := true, xfm := true, den := true, mco := true, lne := true, cal := true, hkc := true, aux := true, mon := true }) (by decide)]

theorem State.freeChans_view {q : Parts} (hq : q.apart { units := true, xfm := true } = true) (s : State) (b : BayNo) (t : Stamp) : (State.freeChans s b t).view q = s.view q := by
  refine view_of { units := true, xfm := true } hq ?_
  simp only [State.freeChans, ↓view_ite, ↓foldl_view, ite_self, implies_true, ↓State.closeChanGap_view (q := Parts.others { units := true, xfm := true }) (by decide), ↓State.chanGrid_view (q := Parts.others { units := true, xfm := true }) (by decide)]

theorem State.resumeFlow_view {q : Parts} (hq : q.apart { vals := true, img := true, tbs := true, keeper := true, time := true, units := true, afe := true, adc := true, ddc := true, xfm := true, den := true, mco := true, lne := true, cal := true, hkc := true, aux := true, mon := true } = true) (s : State) (b : BayNo) (p : Port) (t : Stamp) (units : Nat) : (State.resumeFlow s b p t units).view q = s.view q := by
  refine view_of { vals := true, img := true, tbs := true, keeper := true, time := true, units := true, afe := true, adc := true, ddc := true, xfm := true, den := true, mco := true, lne := true, cal := true, hkc := true, aux := true, mon := true } hq ?_
  simp only [State.resumeFlow]
  repeat' split
  all_goals simp only [↓State.startPort_view (q := Parts.others { vals := true, img := true, tbs := true, keeper := true, time := true, units := true, afe := true, adc := true, ddc := true, xfm := true, den := true, mco := true, lne := true, cal := true, hkc := true, aux := true, mon := true }) (by decide), ↓State.freeAtten_view (q := Parts.others { vals := true, img := true, tbs := true, keeper := true, time := true, units := true, afe := true, adc := true, ddc := true, xfm := true, den := true, mco := true, lne := true, cal := true, hkc := true, aux := true, mon := true }) (by decide), ↓State.resumeValues_view (q := Parts.others { vals := true, img := true, tbs := true, keeper := true, time := true, units := true, afe := true, adc := true, ddc := true, xfm := true, den := true, mco := true, lne := true, cal := true, hkc := true, aux := true, mon := true }) (by decide), ↓State.freeChans_view (q := Parts.others { vals := true, img := true, tbs := true, keeper := true, time := true, units := true, afe := true, adc := true, ddc := true, xfm := true, den := true, mco := true, lne := true, cal := true, hkc := true, aux := true, mon := true }) (by decide)]

theorem State.resumePort_view {q : Parts} (hq : q.apart { vals := true, img := true, tbs := true, keeper := true, time := true, units := true, afe := true, adc := true, ddc := true, xfm := true, den := true, mco := true, lne := true, cal := true, hkc := true, aux := true, mon := true } = true) (s : State) (b : BayNo) (p : Port) (t : Stamp) : (State.resumePort s b p t).view q = s.view q := by
  refine view_of { vals := true, img := true, tbs := true, keeper := true, time := true, units := true, afe := true, adc := true, ddc := true, xfm := true, den := true, mco := true, lne := true, cal := true, hkc := true, aux := true, mon := true } hq ?_
  simp only [State.resumePort, ↓view_ite, ite_self, ↓State.modPort_view (q := Parts.others { vals := true, img := true, tbs := true, keeper := true, time := true, units := true, afe := true, adc := true, ddc := true, xfm := true, den := true, mco := true, lne := true, cal := true, hkc := true, aux := true, mon := true }) (by decide), ↓State.stopPort_view (q := Parts.others { vals := true, img := true, tbs := true, keeper := true, time := true, units := true, afe := true, adc := true, ddc := true, xfm := true, den := true, mco := true, lne := true, cal := true, hkc := true, aux := true, mon := true }) (by decide), ↓State.resumeFlow_view (q := Parts.others { vals := true, img := true, tbs := true, keeper := true, time := true, units := true, afe := true, adc := true, ddc := true, xfm := true, den := true, mco := true, lne := true, cal := true, hkc := true, aux := true, mon := true }) (by decide)]

theorem State.resumeBay_view {q : Parts} (hq : q.apart { vals := true, img := true, tbs := true, keeper := true, time := true, units := true, afe := true, adc := true, ddc := true, xfm := true, den := true, mco := true, lne := true, cal := true, hkc := true, aux := true, mon := true } = true) (s : State) (b : BayNo) (t : Stamp) (cause : Nat) (any : Bool) : (State.resumeBay s b t cause any).view q = s.view q := by
  refine view_of { vals := true, img := true, tbs := true, keeper := true, time := true, units := true, afe := true, adc := true, ddc := true, xfm := true, den := true, mco := true, lne := true, cal := true, hkc := true, aux := true, mon := true } hq ?_
  simp only [State.resumeBay, ↓view_ite, ↓foldl_view, ite_self, implies_true, ↓State.openChanGap_view (q := Parts.others { vals := true, img := true, tbs := true, keeper := true, time := true, units := true, afe := true, adc := true, ddc := true, xfm := true, den := true, mco := true, lne := true, cal := true, hkc := true, aux := true, mon := true }) (by decide), ↓State.startGrid_view (q := Parts.others { vals := true, img := true, tbs := true, keeper := true, time := true, units := true, afe := true, adc := true, ddc := true, xfm := true, den := true, mco := true, lne := true, cal := true, hkc := true, aux := true, mon := true }) (by decide), ↓State.closeChanGap_view (q := Parts.others { vals := true, img := true, tbs := true, keeper := true, time := true, units := true, afe := true, adc := true, ddc := true, xfm := true, den := true, mco := true, lne := true, cal := true, hkc := true, aux := true, mon := true }) (by decide), ↓State.refreshPorts_view (q := Parts.others { vals := true, img := true, tbs := true, keeper := true, time := true, units := true, afe := true, adc := true, ddc := true, xfm := true, den := true, mco := true, lne := true, cal := true, hkc := true, aux := true, mon := true }) (by decide), ↓State.hopApply_view (q := Parts.others { vals := true, img := true, tbs := true, keeper := true, time := true, units := true, afe := true, adc := true, ddc := true, xfm := true, den := true, mco := true, lne := true, cal := true, hkc := true, aux := true, mon := true }) (by decide), ↓State.resumePort_view (q := Parts.others { vals := true, img := true, tbs := true, keeper := true, time := true, units := true, afe := true, adc := true, ddc := true, xfm := true, den := true, mco := true, lne := true, cal := true, hkc := true, aux := true, mon := true }) (by decide)]

theorem execLiveApplyImmediate_view {q : Parts} (hq : q.apart { vals := true, img := true, tbs := true, keeper := true, time := true, units := true, afe := true, adc := true, ddc := true, xfm := true, den := true, mco := true, lne := true, cal := true, hkc := true, aux := true, mon := true } = true) (b : BayNo) (s : State) : Out.view q (execLiveApplyImmediate b s) = some (s.view q) := by
  refine out_view_of { vals := true, img := true, tbs := true, keeper := true, time := true, units := true, afe := true, adc := true, ddc := true, xfm := true, den := true, mco := true, lne := true, cal := true, hkc := true, aux := true, mon := true } hq ?_
  simp only [execLiveApplyImmediate]
  repeat' split
  all_goals simp only [↓out_view_next, ↓State.takeEffect_view (q := Parts.others { vals := true, img := true, tbs := true, keeper := true, time := true, units := true, afe := true, adc := true, ddc := true, xfm := true, den := true, mco := true, lne := true, cal := true, hkc := true, aux := true, mon := true }) (by decide), ↓State.hopApply_view (q := Parts.others { vals := true, img := true, tbs := true, keeper := true, time := true, units := true, afe := true, adc := true, ddc := true, xfm := true, den := true, mco := true, lne := true, cal := true, hkc := true, aux := true, mon := true }) (by decide)]

theorem execCalRunEnd_view {q : Parts} (hq : q.apart { vals := true, img := true, tbs := true, keeper := true, time := true, units := true, afe := true, adc := true, ddc := true, xfm := true, den := true, mco := true, lne := true, cal := true, hkc := true, aux := true, mon := true } = true) (b : BayNo) (i : Fin 2) (s0 : State) : Out.view q (execCalRunEnd b i s0) = some (s0.view q) := by
  refine out_view_of { vals := true, img := true, tbs := true, keeper := true, time := true, units := true, afe := true, adc := true, ddc := true, xfm := true, den := true, mco := true, lne := true, cal := true, hkc := true, aux := true, mon := true } hq ?_
  simp only [execCalRunEnd]
  repeat' split
  all_goals simp only [↓out_view_next, ↓State.reach_view (q := Parts.others { vals := true, img := true, tbs := true, keeper := true, time := true, units := true, afe := true, adc := true, ddc := true, xfm := true, den := true, mco := true, lne := true, cal := true, hkc := true, aux := true, mon := true }) (by decide), ↓State.modCal_view (q := Parts.others { vals := true, img := true, tbs := true, keeper := true, time := true, units := true, afe := true, adc := true, ddc := true, xfm := true, den := true, mco := true, lne := true, cal := true, hkc := true, aux := true, mon := true }) (by decide), ↓State.calDueNow_view (q := Parts.others { vals := true, img := true, tbs := true, keeper := true, time := true, units := true, afe := true, adc := true, ddc := true, xfm := true, den := true, mco := true, lne := true, cal := true, hkc := true, aux := true, mon := true }) (by decide), ↓State.calReport_view (q := Parts.others { vals := true, img := true, tbs := true, keeper := true, time := true, units := true, afe := true, adc := true, ddc := true, xfm := true, den := true, mco := true, lne := true, cal := true, hkc := true, aux := true, mon := true }) (by decide), ↓State.calSettle_view (q := Parts.others { vals := true, img := true, tbs := true, keeper := true, time := true, units := true, afe := true, adc := true, ddc := true, xfm := true, den := true, mco := true, lne := true, cal := true, hkc := true, aux := true, mon := true }) (by decide), ↓State.freeAtten_view (q := Parts.others { vals := true, img := true, tbs := true, keeper := true, time := true, units := true, afe := true, adc := true, ddc := true, xfm := true, den := true, mco := true, lne := true, cal := true, hkc := true, aux := true, mon := true }) (by decide), ↓State.runRotation_view (q := Parts.others { vals := true, img := true, tbs := true, keeper := true, time := true, units := true, afe := true, adc := true, ddc := true, xfm := true, den := true, mco := true, lne := true, cal := true, hkc := true, aux := true, mon := true }) (by decide), ↓State.resumeFlow_view (q := Parts.others { vals := true, img := true, tbs := true, keeper := true, time := true, units := true, afe := true, adc := true, ddc := true, xfm := true, den := true, mco := true, lne := true, cal := true, hkc := true, aux := true, mon := true }) (by decide)]

end Sys2Proof.Machine
end

