-- ==== Sys2Proof/Laws/View/Ddc.lean ====
section
/-! SUPPORT. Which parts the operations of Machine/Ddc.lean leave as they were. -/
namespace Sys2Proof.Machine

theorem State.lossRun_view {q : Parts} (hq : q.apart { ddc := true } = true) (s : State) (b : BayNo) (p : Port) (tL : Stamp) : (State.lossRun s b p tL).view q = s.view q := by
  refine view_of { ddc := true } hq ?_
  simp only [State.lossRun, ↓view_ite, ite_self, ↓State.modPort_view (q := Parts.others { ddc := true }) (by decide)]

theorem State.askSync_view {q : Parts} (hq : q.apart { jes := true } = true) (s : State) (b : BayNo) (p : Port) : (State.askSync s b p).view q = s.view q := by
  refine view_of { jes := true } hq ?_
  unfold State.askSync
  exact State.modBay_view _ _ _ _ (fun _ => rfl)

theorem State.stopStream_view {q : Parts} (hq : q.apart { units := true, ddc := true, xfm := true, den := true, jes := true } = true) (s : State) (b : BayNo) (p : Port) (tL : Stamp) (cause : Nat) (replay : Bool) : (State.stopStream s b p tL cause replay).view q = s.view q := by
  refine view_of { units := true, ddc := true, xfm := true, den := true, jes := true } hq ?_
  simp only [State.stopStream, ↓view_ite, ite_self, ↓State.modPort_view (q := Parts.others { units := true, ddc := true, xfm := true, den := true, jes := true }) (by decide), ↓State.stopPort_view (q := Parts.others { units := true, ddc := true, xfm := true, den := true, jes := true }) (by decide), ↓State.event_view, ↓State.lossRun_view (q := Parts.others { units := true, ddc := true, xfm := true, den := true, jes := true }) (by decide), ↓State.askSync_view (q := Parts.others { units := true, ddc := true, xfm := true, den := true, jes := true }) (by decide)]

theorem State.resumeStream_view {q : Parts} (hq : q.apart { vals := true, img := true, tbs := true, keeper := true, time := true, units := true, afe := true, adc := true, ddc := true, xfm := true, den := true, mco := true, lne := true, cal := true, hkc := true, aux := true, mon := true } = true) (s : State) (b : BayNo) (p : Port) (t : Stamp) (units : Nat) : (State.resumeStream s b p t units).view q = s.view q := by
  refine view_of { vals := true, img := true, tbs := true, keeper := true, time := true, units := true, afe := true, adc := true, ddc := true, xfm := true, den := true, mco := true, lne := true, cal := true, hkc := true, aux := true, mon := true } hq ?_
  simp only [State.resumeStream]
  repeat' split
  all_goals simp only [↓State.modPort_view (q := Parts.others { vals := true, img := true, tbs := true, keeper := true, time := true, units := true, afe := true, adc := true, ddc := true, xfm := true, den := true, mco := true, lne := true, cal := true, hkc := true, aux := true, mon := true }) (by decide), ↓State.resumeFlow_view (q := Parts.others { vals := true, img := true, tbs := true, keeper := true, time := true, units := true, afe := true, adc := true, ddc := true, xfm := true, den := true, mco := true, lne := true, cal := true, hkc := true, aux := true, mon := true }) (by decide), ↓State.event_view]

theorem execXsStreamStop_view {q : Parts} (hq : q.apart { units := true, ddc := true, xfm := true, den := true, jes := true } = true) (b : BayNo) (x : Fin 2) (t : Stamp) (loss : Bool) (s : State) : Out.view q (execXsStreamStop b x t loss s) = some (s.view q) := by
  refine out_view_of { units := true, ddc := true, xfm := true, den := true, jes := true } hq ?_
  simp only [execXsStreamStop, ↓out_view_ite, ↓out_view_next, ite_self, ↓State.stopStream_view (q := Parts.others { units := true, ddc := true, xfm := true, den := true, jes := true }) (by decide)]

theorem execXsStreamResume_view {q : Parts} (hq : q.apart { vals := true, img := true, tbs := true, keeper := true, time := true, units := true, afe := true, adc := true, ddc := true, xfm := true, den := true, mco := true, lne := true, cal := true, hkc := true, aux := true, mon := true } = true) (b : BayNo) (x : Fin 2) (t : Stamp) (units : Nat) (s : State) : Out.view q (execXsStreamResume b x t units s) = some (s.view q) := by
  refine out_view_of { vals := true, img := true, tbs := true, keeper := true, time := true, units := true, afe := true, adc := true, ddc := true, xfm := true, den := true, mco := true, lne := true, cal := true, hkc := true, aux := true, mon := true } hq ?_
  simp only [execXsStreamResume]
  repeat' split
  all_goals simp only [↓out_view_next, ↓State.resumeStream_view (q := Parts.others { vals := true, img := true, tbs := true, keeper := true, time := true, units := true, afe := true, adc := true, ddc := true, xfm := true, den := true, mco := true, lne := true, cal := true, hkc := true, aux := true, mon := true }) (by decide)]

end Sys2Proof.Machine
end

