-- ==== Sys2Proof/Laws/View/Lne.lean ====
section
/-! SUPPORT. Which parts the operations of Machine/Lne.lean leave as they were. -/
namespace Sys2Proof.Machine

theorem State.modExt_view {q : Parts} (hq : q.apart { fabric := true } = true) (s : State) (n : Fin 2) (f : ExtLink → ExtLink) : (State.modExt s n f).view q = s.view q := by
  refine view_of { fabric := true } hq ?_
  simp only [State.modExt, ↓State.modLnlPkg_view (q := Parts.others { fabric := true }) (by decide)]

theorem State.sendCap_view {q : Parts} (s : State) (n : Fin 2) (j : Nat) (ack : Bool) : (State.sendCap s n j ack).view q = s.view q := by
  simp only [State.sendCap, ↓State.emit_view]

theorem State.offerExchange_view {q : Parts} (s : State) (n : Fin 2) : (State.offerExchange s n).view q = s.view q := by
  simp only [State.offerExchange, ↓State.emit_view]

theorem State.eachExtLane_view {q : Parts} (s : State) (n : Fin 2) (f : State → Fin 24 → State) (h : ∀ s k, (f s k).view q = s.view q) : (s.eachExtLane n f).view q = s.view q := by
  unfold State.eachExtLane
  exact foldl_view _ _ (fun _ _ => h _ _) _ _

theorem State.beginLink_view {q : Parts} (hq : q.apart { fabric := true, lne := true } = true) (s : State) (n : Fin 2) : (State.beginLink s n).view q = s.view q := by
  refine view_of { fabric := true, lne := true } hq ?_
  simp only [State.beginLink, ↓view_ite, ↓foldl_view, ite_self, implies_true, ↓State.modLane_view (q := Parts.others { fabric := true, lne := true }) (by decide), ↓State.accrue_view (q := Parts.others { fabric := true, lne := true }) (by decide), ↓State.modExt_view (q := Parts.others { fabric := true, lne := true }) (by decide), ↓State.sendCap_view, ↓State.eachExtLane_view]

theorem State.setAside_view {q : Parts} (hq : q.apart { lne := true } = true) (s : State) (n : Fin 2) (j : Nat) : (State.setAside s n j).view q = s.view q := by
  refine view_of { lne := true } hq ?_
  simp only [State.setAside, ↓view_ite, ite_self, ↓State.modLane_view (q := Parts.others { lne := true }) (by decide), ↓State.event_view]

theorem State.frameLink_view {q : Parts} (hq : q.apart { fabric := true, lne := true } = true) (s : State) (n : Fin 2) : (State.frameLink s n).view q = s.view q := by
  refine view_of { fabric := true, lne := true } hq ?_
  simp only [State.frameLink, ↓foldl_view, implies_true, ↓State.serve_view (q := Parts.others { fabric := true, lne := true }) (by decide), ↓State.event_view, ↓State.modExt_view (q := Parts.others { fabric := true, lne := true }) (by decide), ↓State.offerExchange_view]

theorem State.blindDone_view {q : Parts} (hq : q.apart { fabric := true, lne := true } = true) (s : State) (n : Fin 2) : (State.blindDone s n).view q = s.view q := by
  refine view_of { fabric := true, lne := true } hq ?_
  simp only [State.blindDone, ↓view_ite, ite_self, ↓State.frameLink_view (q := Parts.others { fabric := true, lne := true }) (by decide)]

theorem State.changeWidth_view {q : Parts} (hq : q.apart { fabric := true } = true) (s : State) (n : Fin 2) : (State.changeWidth s n).view q = s.view q := by
  refine view_of { fabric := true } hq ?_
  simp only [State.changeWidth, ↓State.event_view, ↓State.modExt_view (q := Parts.others { fabric := true }) (by decide)]

theorem execLaneUp_view {q : Parts} (hq : q.apart { faults := true, fabric := true, lne := true } = true) (b : BayNo) (k : Fin 24) (s : State) : Out.view q (execLaneUp b k s) = some (s.view q) := by
  refine out_view_of { faults := true, fabric := true, lne := true } hq ?_
  simp only [execLaneUp]
  repeat' split
  all_goals simp only [↓out_view_next, ↓State.faultRepair_view (q := Parts.others { faults := true, fabric := true, lne := true }) (by decide), ↓State.modLane_view (q := Parts.others { faults := true, fabric := true, lne := true }) (by decide), ↓State.serve_view (q := Parts.others { faults := true, fabric := true, lne := true }) (by decide), ↓State.lockLane_view (q := Parts.others { faults := true, fabric := true, lne := true }) (by decide), ↓State.modExt_view (q := Parts.others { faults := true, fabric := true, lne := true }) (by decide), ↓State.blindDone_view (q := Parts.others { faults := true, fabric := true, lne := true }) (by decide), ↓State.changeWidth_view (q := Parts.others { faults := true, fabric := true, lne := true }) (by decide)]

theorem execLaneBringupTimeout_view {q : Parts} (hq : q.apart { fabric := true, time := true, lne := true } = true) (b : BayNo) (k : Fin 24) (s0 : State) : Out.view q (execLaneBringupTimeout b k s0) = some (s0.view q) := by
  refine out_view_of { fabric := true, time := true, lne := true } hq ?_
  simp only [execLaneBringupTimeout]
  repeat' split
  all_goals simp only [↓out_view_next, ↓State.reach_view (q := Parts.others { fabric := true, time := true, lne := true }) (by decide), ↓State.setAside_view (q := Parts.others { fabric := true, time := true, lne := true }) (by decide), ↓State.blindDone_view (q := Parts.others { fabric := true, time := true, lne := true }) (by decide)]

theorem State.toRung_view {q : Parts} (hq : q.apart { fabric := true, lne := true } = true) (s : State) (n : Fin 2) (rate : Nat) : (State.toRung s n rate).view q = s.view q := by
  refine view_of { fabric := true, lne := true } hq ?_
  simp only [State.toRung, ↓view_ite, ite_self, implies_true, ↓State.freeTaps_view (q := Parts.others { fabric := true, lne := true }) (by decide), ↓State.lockLane_view (q := Parts.others { fabric := true, lne := true }) (by decide), ↓State.modExt_view (q := Parts.others { fabric := true, lne := true }) (by decide), ↓State.eachExtLane_view]

theorem execCapabilityFrameRx_view {q : Parts} (hq : q.apart { fabric := true, lne := true } = true) (b : BayNo) (k : Fin 24) (frame : Vector Word 4) (s : State) : Out.view q (execCapabilityFrameRx b k frame s) = some (s.view q) := by
  refine out_view_of { fabric := true, lne := true } hq ?_
  simp only [execCapabilityFrameRx]
  repeat' split
  all_goals simp only [↓out_view_next, ↓State.modLane_view (q := Parts.others { fabric := true, lne := true }) (by decide), ↓State.modExt_view (q := Parts.others { fabric := true, lne := true }) (by decide), ↓State.sendCap_view, ↓State.toRung_view (q := Parts.others { fabric := true, lne := true }) (by decide)]

theorem State.rungLane_view {q : Parts} (hq : q.apart { fabric := true, lne := true } = true) (s : State) (n : Fin 2) (j : Nat) (e : Option Nat) : (State.rungLane s n j e).view q = s.view q := by
  refine view_of { fabric := true, lne := true } hq ?_
  simp only [State.rungLane, ↓view_ite, ite_self, ↓State.lockLane_view (q := Parts.others { fabric := true, lne := true }) (by decide), ↓State.modExt_view (q := Parts.others { fabric := true, lne := true }) (by decide), ↓State.setAside_view (q := Parts.others { fabric := true, lne := true }) (by decide)]

theorem State.stepFrame_view {q : Parts} (hq : q.apart { fabric := true, time := true, lne := true } = true) (s : State) (n : Fin 2) : (State.stepFrame s n).view q = s.view q := by
  refine view_of { fabric := true, time := true, lne := true } hq ?_
  simp only [State.stepFrame, ↓State.passTime_view (q := Parts.others { fabric := true, time := true, lne := true }) (by decide), ↓State.frameLink_view (q := Parts.others { fabric := true, time := true, lne := true }) (by decide)]

theorem State.rungFailed_view {q : Parts} (hq : q.apart { fabric := true, time := true, lne := true } = true) (s : State) (n : Fin 2) : (State.rungFailed s n).view q = s.view q := by
  refine view_of { fabric := true, time := true, lne := true } hq ?_
  simp only [State.rungFailed, ↓view_ite, ↓foldl_view, ite_self, implies_true, ↓State.modLane_view (q := Parts.others { fabric := true, time := true, lne := true }) (by decide), ↓State.event_view, ↓State.modExt_view (q := Parts.others { fabric := true, time := true, lne := true }) (by decide), ↓State.stepFrame_view (q := Parts.others { fabric := true, time := true, lne := true }) (by decide)]

theorem execStepRungCheckDone_view {q : Parts} (hq : q.apart { fabric := true, time := true, lne := true } = true) (n : Fin 2) (errs : List (Option Nat)) (s0 : State) : Out.view q (execStepRungCheckDone n errs s0) = some (s0.view q) := by
  refine out_view_of { fabric := true, time := true, lne := true } hq ?_
  simp only [execStepRungCheckDone]
  repeat' split
  all_goals simp only [↓out_view_next, ↓foldl_view, implies_true, ↓State.passTime_view (q := Parts.others { fabric := true, time := true, lne := true }) (by decide), ↓State.modExt_view (q := Parts.others { fabric := true, time := true, lne := true }) (by decide), ↓State.toRung_view (q := Parts.others { fabric := true, time := true, lne := true }) (by decide), ↓State.rungLane_view (q := Parts.others { fabric := true, time := true, lne := true }) (by decide), ↓State.stepFrame_view (q := Parts.others { fabric := true, time := true, lne := true }) (by decide), ↓State.rungFailed_view (q := Parts.others { fabric := true, time := true, lne := true }) (by decide)]

theorem State.failCause_view {q : Parts} (s : State) (n : Fin 2) : (State.failCause s n).2.view q = s.view q := by
  simp only [State.failCause, ↓view_ite, ↓snd_ite, ite_self, ↓State.takeFree_view]

theorem execLnlLanesFailTimeout_view {q : Parts} (hq : q.apart { fabric := true, time := true } = true) (n : Fin 2) (s0 : State) : Out.view q (execLnlLanesFailTimeout n s0) = some (s0.view q) := by
  refine out_view_of { fabric := true, time := true } hq ?_
  unfold execLnlLanesFailTimeout
  extract_lets x s
  have hs : s.view (Parts.others { fabric := true, time := true }) = s0.view (Parts.others { fabric := true, time := true }) := State.reach_view (q := Parts.others { fabric := true, time := true }) (by decide) ..
  clear_value s
  split
  · rfl
  · have h1 := (State.failCause_view s n).trans hs
    generalize s.failCause n = p at h1
    cases p with
    | mk cause s1 =>
      refine next_view ?_
      simp only [↓view_ite, ↓State.event_view, ↓State.modExt_view (q := Parts.others { fabric := true, time := true }) (by decide), ite_self]
      exact h1

theorem execLnlBringupRestart_view {q : Parts} (hq : q.apart { fabric := true, time := true, lne := true } = true) (n : Fin 2) (s0 : State) : Out.view q (execLnlBringupRestart n s0) = some (s0.view q) := by
  refine out_view_of { fabric := true, time := true, lne := true } hq ?_
  simp only [execLnlBringupRestart, ↓out_view_ite, ↓out_view_next, ite_self, ↓State.reach_view (q := Parts.others { fabric := true, time := true, lne := true }) (by decide), ↓State.beginLink_view (q := Parts.others { fabric := true, time := true, lne := true }) (by decide)]

theorem execLaneLockLost_view {q : Parts} (hq : q.apart { lne := true } = true) (b : BayNo) (k : Fin 24) (signal : Bool) (s : State) : Out.view q (execLaneLockLost b k signal s) = some (s.view q) := by
  refine out_view_of { lne := true } hq ?_
  simp only [execLaneLockLost, ↓view_ite, ↓out_view_ite, ↓out_view_next, ite_self, ↓State.modLane_view (q := Parts.others { lne := true }) (by decide), ↓State.accrue_view (q := Parts.others { lne := true }) (by decide), ↓State.event_view]

theorem execEyeMeasure_view {q : Parts} (hq : q.apart { lne := true } = true) (b : BayNo) (k : Fin 24) (v : BitVec 8) (h : BitVec 6) (s : State) : Out.view q (execEyeMeasure b k v h s) = some (s.view q) := by
  refine out_view_of { lne := true } hq ?_
  simp only [execEyeMeasure, ↓out_view_ite, ↓out_view_next, ite_self, ↓State.modLane_view (q := Parts.others { lne := true }) (by decide), ↓State.readapt_view (q := Parts.others { lne := true }) (by decide)]

theorem execLaneErrRead_view {q : Parts} (hq : q.apart { domains := true, lne := true } = true) (b : BayNo) (k : Fin 24) (errs losses : Nat) (s : State) : Out.view q (execLaneErrRead b k errs losses s) = some (s.view q) := by
  refine out_view_of { domains := true, lne := true } hq ?_
  simp only [execLaneErrRead, ↓out_view_ite, ↓out_view_next, ite_self, ↓State.modLane_view (q := Parts.others { domains := true, lne := true }) (by decide), ↓State.accrue_view (q := Parts.others { domains := true, lne := true }) (by decide), ↓State.fencedAccess_view (q := Parts.others { domains := true, lne := true }) (by decide)]

theorem execLaneClear_view {q : Parts} (hq : q.apart { domains := true, lne := true } = true) (b : BayNo) (k : Fin 24) (s : State) : Out.view q (execLaneClear b k s) = some (s.view q) := by
  refine out_view_of { domains := true, lne := true } hq ?_
  simp only [execLaneClear, ↓out_view_ite, ↓out_view_next, ite_self, ↓State.modLane_view (q := Parts.others { domains := true, lne := true }) (by decide), ↓State.fencedAccess_view (q := Parts.others { domains := true, lne := true }) (by decide)]

theorem State.reseed_view {q : Parts} (hq : q.apart { lne := true } = true) (s : State) (b : BayNo) (k : Fin 24) (locks : Bool) : (State.reseed s b k locks).view q = s.view q := by
  refine view_of { lne := true } hq ?_
  simp only [State.reseed, ↓view_ite, ite_self, ↓State.modLane_view (q := Parts.others { lne := true }) (by decide), ↓State.accrue_view (q := Parts.others { lne := true }) (by decide)]

theorem execLaneResync_view {q : Parts} (hq : q.apart { lne := true } = true) (b : BayNo) (k : Fin 24) (rx : List Bool) (s : State) : Out.view q (execLaneResync b k rx s) = some (s.view q) := by
  refine out_view_of { lne := true } hq ?_
  simp only [execLaneResync, ↓out_view_next, ↓State.reseed_view (q := Parts.others { lne := true }) (by decide)]

theorem State.modDir_view {q : Parts} (hq : q.apart { lne := true } = true) (s : State) (b : BayNo) (k : Fin 24) (tx : Bool) (f : LaneDir → LaneDir) : (State.modDir s b k tx f).view q = s.view q := by
  refine view_of { lne := true } hq ?_
  simp only [State.modDir, ↓State.modLane_view (q := Parts.others { lne := true }) (by decide)]

theorem State.hostSleep_view {q : Parts} (hq : q.apart { lne := true } = true) (s : State) (b : BayNo) (k : Fin 24) (tx : Bool) (f : LaneDir → LaneDir) : (State.hostSleep s b k tx f).view q = s.view q := by
  refine view_of { lne := true } hq ?_
  simp only [State.hostSleep, ↓view_ite, ite_self, ↓State.accrue_view (q := Parts.others { lne := true }) (by decide), ↓State.modDir_view (q := Parts.others { lne := true }) (by decide)]

theorem execLaneTxSleep_view {q : Parts} (hq : q.apart { lne := true } = true) (b : BayNo) (k : Fin 24) (s : State) : Out.view q (execLaneTxSleep b k s) = some (s.view q) := by
  refine out_view_of { lne := true } hq ?_
  simp only [execLaneTxSleep, ↓out_view_next, ↓State.hostSleep_view (q := Parts.others { lne := true }) (by decide)]

theorem execLaneTxWake_view {q : Parts} (hq : q.apart { lne := true } = true) (b : BayNo) (k : Fin 24) (s : State) : Out.view q (execLaneTxWake b k s) = some (s.view q) := by
  refine out_view_of { lne := true } hq ?_
  simp only [execLaneTxWake, ↓out_view_next, ↓State.hostSleep_view (q := Parts.others { lne := true }) (by decide)]

theorem execLaneRxSleep_view {q : Parts} (hq : q.apart { lne := true } = true) (b : BayNo) (k : Fin 24) (s : State) : Out.view q (execLaneRxSleep b k s) = some (s.view q) := by
  refine out_view_of { lne := true } hq ?_
  simp only [execLaneRxSleep, ↓out_view_next, ↓State.hostSleep_view (q := Parts.others { lne := true }) (by decide)]

theorem execLaneRxWake_view {q : Parts} (hq : q.apart { lne := true } = true) (b : BayNo) (k : Fin 24) (s : State) : Out.view q (execLaneRxWake b k s) = some (s.view q) := by
  refine out_view_of { lne := true } hq ?_
  simp only [execLaneRxWake, ↓out_view_next, ↓State.hostSleep_view (q := Parts.others { lne := true }) (by decide)]

theorem execLaneSleepDone_view {q : Parts} (hq : q.apart { lne := true } = true) (b : BayNo) (k : Fin 24) (tx : Bool) (s : State) : Out.view q (execLaneSleepDone b k tx s) = some (s.view q) := by
  refine out_view_of { lne := true } hq ?_
  simp only [execLaneSleepDone, ↓view_ite, ↓out_view_ite, ↓out_view_next, ite_self, ↓State.modLane_view (q := Parts.others { lne := true }) (by decide), ↓State.accrue_view (q := Parts.others { lne := true }) (by decide), ↓State.modDir_view (q := Parts.others { lne := true }) (by decide)]

theorem State.takeLane_view {q : Parts} (hq : q.apart { lne := true } = true) (s : State) (b : BayNo) (k : Fin 24) : (State.takeLane s b k).view q = s.view q := by
  refine view_of { lne := true } hq ?_
  simp only [State.takeLane, ↓view_ite, ite_self, ↓State.modLane_view (q := Parts.others { lne := true }) (by decide), ↓State.accrue_view (q := Parts.others { lne := true }) (by decide), ↓State.event_view]

theorem execLaneTxWakeDone_view {q : Parts} (hq : q.apart { lne := true } = true) (b : BayNo) (k : Fin 24) (s : State) : Out.view q (execLaneTxWakeDone b k s) = some (s.view q) := by
  refine out_view_of { lne := true } hq ?_
  simp only [execLaneTxWakeDone, ↓out_view_ite, ↓out_view_next, ite_self, ↓State.modDir_view (q := Parts.others { lne := true }) (by decide), ↓State.takeLane_view (q := Parts.others { lne := true }) (by decide)]

theorem execLaneRxWakeDone_view {q : Parts} (hq : q.apart { lne := true } = true) (b : BayNo) (k : Fin 24) (rx : List Bool) (s : State) : Out.view q (execLaneRxWakeDone b k rx s) = some (s.view q) := by
  refine out_view_of { lne := true } hq ?_
  simp only [execLaneRxWakeDone, ↓out_view_ite, ↓out_view_next, ite_self, ↓State.modLane_view (q := Parts.others { lne := true }) (by decide), ↓State.modDir_view (q := Parts.others { lne := true }) (by decide), ↓State.takeLane_view (q := Parts.others { lne := true }) (by decide)]

theorem execLaneSignalDetect_view {q : Parts} (hq : q.apart { lne := true } = true) (b : BayNo) (k : Fin 24) (s : State) : Out.view q (execLaneSignalDetect b k s) = some (s.view q) := by
  refine out_view_of { lne := true } hq ?_
  simp only [execLaneSignalDetect, ↓view_ite, ↓out_view_ite, ↓out_view_next, ite_self, ↓State.modLane_view (q := Parts.others { lne := true }) (by decide), ↓State.modDir_view (q := Parts.others { lne := true }) (by decide)]

theorem State.lostLane_view {q : Parts} (hq : q.apart { fabric := true, units := true, ddc := true, xfm := true, den := true, jes := true } = true) (s : State) (b : BayNo) (k : Fin 24) : (State.lostLane s b k).view q = s.view q := by
  refine view_of { fabric := true, units := true, ddc := true, xfm := true, den := true, jes := true } hq ?_
  simp only [State.lostLane]
  repeat' split
  all_goals simp only [↓State.stopStream_view (q := Parts.others { fabric := true, units := true, ddc := true, xfm := true, den := true, jes := true }) (by decide), ↓State.modExt_view (q := Parts.others { fabric := true, units := true, ddc := true, xfm := true, den := true, jes := true }) (by decide), ↓State.changeWidth_view (q := Parts.others { fabric := true, units := true, ddc := true, xfm := true, den := true, jes := true }) (by decide)]

theorem State.tellPattern_view {q : Parts} (s : State) (b : BayNo) (k : Fin 24) (old : State) : (State.tellPattern s b k old).view q = s.view q := by
  simp only [State.tellPattern, ↓view_ite, ite_self, ↓State.emit_view]

theorem State.setTest_view {q : Parts} (hq : q.apart { fabric := true, units := true, ddc := true, xfm := true, den := true, lne := true, jes := true } = true) (s : State) (b : BayNo) (k : Fin 24) (v : BitVec 10) : (s.setTest b k v).1.view q = s.view q := by
  refine view_of { fabric := true, units := true, ddc := true, xfm := true, den := true, lne := true, jes := true } hq ?_
  unfold State.setTest
  extract_lets w s1
  have h : s1.view (Parts.others { fabric := true, units := true, ddc := true, xfm := true, den := true, lne := true, jes := true }) = s.view (Parts.others { fabric := true, units := true, ddc := true, xfm := true, den := true, lne := true, jes := true }) := (State.modLane_view (q := Parts.others { fabric := true, units := true, ddc := true, xfm := true, den := true, lne := true, jes := true }) (by decide) ..).trans (State.accrue_view (q := Parts.others { fabric := true, units := true, ddc := true, xfm := true, den := true, lne := true, jes := true }) (by decide) ..)
  clear_value s1
  split
  · rfl
  · simp only [↓State.tellPattern_view, ↓State.modLane_view (q := Parts.others { fabric := true, units := true, ddc := true, xfm := true, den := true, lne := true, jes := true }) (by decide), ↓State.lostLane_view (q := Parts.others { fabric := true, units := true, ddc := true, xfm := true, den := true, lne := true, jes := true }) (by decide), ↓State.takeLane_view (q := Parts.others { fabric := true, units := true, ddc := true, xfm := true, den := true, lne := true, jes := true }) (by decide), h]

theorem execLaneTestWrite_view {q : Parts} (hq : q.apart { fabric := true, domains := true, units := true, ddc := true, xfm := true, den := true, lne := true, jes := true } = true) (b : BayNo) (k : Fin 24) (v : BitVec 10) (rx : List Bool) (s : State) : Out.view q (execLaneTestWrite b k v rx s) = some (s.view q) := by
  refine out_view_of { fabric := true, domains := true, units := true, ddc := true, xfm := true, den := true, lne := true, jes := true } hq ?_
  unfold execLaneTestWrite
  split
  · exact next_view (State.fencedAccess_view (q := Parts.others { fabric := true, domains := true, units := true, ddc := true, xfm := true, den := true, lne := true, jes := true }) (by decide) ..)
  · extract_lets x
    have h : x.1.view (Parts.others { fabric := true, domains := true, units := true, ddc := true, xfm := true, den := true, lne := true, jes := true }) = s.view (Parts.others { fabric := true, domains := true, units := true, ddc := true, xfm := true, den := true, lne := true, jes := true }) := State.setTest_view (q := Parts.others { fabric := true, domains := true, units := true, ddc := true, xfm := true, den := true, lne := true, jes := true }) (by decide) s b k v
    clear_value x
    refine next_view ?_
    split
    · exact (State.reseed_view (q := Parts.others { fabric := true, domains := true, units := true, ddc := true, xfm := true, den := true, lne := true, jes := true }) (by decide) ..).trans h
    · exact h

theorem execErrInject_view {q : Parts} (b : BayNo) (k : Fin 24) (s : State) : Out.view q (execErrInject b k s) = some (s.view q) := by
  simp only [execErrInject, ↓out_view_ite, ↓out_view_next, ite_self, ↓State.emit_view]

end Sys2Proof.Machine
end

