-- ==== Sys2Proof/Laws/View/Lnl.lean ====
section
/-! SUPPORT. Which parts the operations of Machine/Lnl.lean leave as they were. -/
namespace Sys2Proof.Machine

theorem State.modPortL_view {q : Parts} (hq : q.apart { links := true } = true) (s : State) (b : BayNo) (p : Fin 3) (f : LinkPort → LinkPort) : (State.modPortL s b p f).view q = s.view q := by
  refine view_of { links := true } hq ?_
  simp only [State.modPortL, ↓State.modLnl_view (q := Parts.others { links := true }) (by decide)]

theorem State.reroute_view {q : Parts} (hq : q.apart { links := true } = true) (s : State) (b : BayNo) : (State.reroute s b).view q = s.view q := by
  refine view_of { links := true } hq ?_
  simp only [State.reroute, ↓State.modLnl_view (q := Parts.others { links := true }) (by decide)]

theorem State.setBound_view {q : Parts} (hq : q.apart { tbs := true } = true) (s : State) : (State.setBound s).view q = s.view q := by
  refine view_of { tbs := true } hq ?_
  simp only [State.setBound, ↓State.modTbsPkg_view (q := Parts.others { tbs := true }) (by decide)]

theorem State.retime_view {q : Parts} (hq : q.apart { tbs := true } = true) (s : State) : (State.retime s).view q = s.view q := by
  refine view_of { tbs := true } hq ?_
  simp only [State.retime, ↓view_ite, ite_self, ↓State.modTbsPkg_view (q := Parts.others { tbs := true }) (by decide), ↓State.event_view]

theorem State.callUpdate_view {q : Parts} (hq : q.apart { links := true } = true) (s : State) : (State.callUpdate s).view q = s.view q := by
  refine view_of { links := true } hq ?_
  simp only [State.callUpdate, ↓State.eachBay_view, implies_true, ↓State.modLnl_view (q := Parts.others { links := true }) (by decide)]

theorem State.checkRejoin_view {q : Parts} (hq : q.apart { fabric := true } = true) (s : State) : (State.checkRejoin s).view q = s.view q := by
  refine view_of { fabric := true } hq ?_
  simp only [State.checkRejoin]
  repeat' split
  all_goals simp only [↓State.modLnlPkg_view (q := Parts.others { fabric := true }) (by decide)]

theorem State.fabricDown_view {q : Parts} (hq : q.apart { tbs := true, faults := true, fabric := true, links := true } = true) (s : State) (b : BayNo) (p : Fin 3) (cause : Nat) : (State.fabricDown s b p cause).view q = s.view q := by
  refine view_of { tbs := true, faults := true, fabric := true, links := true } hq ?_
  simp only [State.fabricDown, ↓State.modTbsPkg_view (q := Parts.others { tbs := true, faults := true, fabric := true, links := true }) (by decide), ↓State.faultOpen_view (q := Parts.others { tbs := true, faults := true, fabric := true, links := true }) (by decide), ↓State.event_view, ↓State.modPortL_view (q := Parts.others { tbs := true, faults := true, fabric := true, links := true }) (by decide), ↓State.callUpdate_view (q := Parts.others { tbs := true, faults := true, fabric := true, links := true }) (by decide), ↓State.checkRejoin_view (q := Parts.others { tbs := true, faults := true, fabric := true, links := true }) (by decide)]

theorem State.extDown_view {q : Parts} (hq : q.apart { tbs := true, fabric := true, lne := true, links := true } = true) (s : State) (n : Fin 2) (cause : Nat) : (State.extDown s n cause).view q = s.view q := by
  refine view_of { tbs := true, fabric := true, lne := true, links := true } hq ?_
  simp only [State.extDown, ↓State.modTbsPkg_view (q := Parts.others { tbs := true, fabric := true, lne := true, links := true }) (by decide), ↓State.modLnlPkg_view (q := Parts.others { tbs := true, fabric := true, lne := true, links := true }) (by decide), ↓State.modExt_view (q := Parts.others { tbs := true, fabric := true, lne := true, links := true }) (by decide), ↓State.beginLink_view (q := Parts.others { tbs := true, fabric := true, lne := true, links := true }) (by decide), ↓State.event_view, ↓State.callUpdate_view (q := Parts.others { tbs := true, fabric := true, lne := true, links := true }) (by decide), ↓State.checkRejoin_view (q := Parts.others { tbs := true, fabric := true, lne := true, links := true }) (by decide)]

theorem State.modLinkPort_view {q : Parts} (hq : q.apart { fabric := true, links := true } = true) (s : State) (b : BayNo) (p : Fin 5) (f : LinkPort → LinkPort) : (State.modLinkPort s b p f).view q = s.view q := by
  refine view_of { fabric := true, links := true } hq ?_
  simp only [State.modLinkPort]
  repeat' split
  all_goals simp only [↓State.modExt_view (q := Parts.others { fabric := true, links := true }) (by decide), ↓State.modPortL_view (q := Parts.others { fabric := true, links := true }) (by decide)]

theorem State.linkDown_view {q : Parts} (hq : q.apart { tbs := true, faults := true, fabric := true, lne := true, links := true } = true) (s : State) (b : BayNo) (p : Fin 5) (cause : Nat) : (State.linkDown s b p cause).view q = s.view q := by
  refine view_of { tbs := true, faults := true, fabric := true, lne := true, links := true } hq ?_
  simp only [State.linkDown]
  repeat' split
  all_goals simp only [↓State.fabricDown_view (q := Parts.others { tbs := true, faults := true, fabric := true, lne := true, links := true }) (by decide), ↓State.extDown_view (q := Parts.others { tbs := true, faults := true, fabric := true, lne := true, links := true }) (by decide)]

theorem execFlitReceive_view {q : Parts} (hq : q.apart { tbs := true, faults := true, fabric := true, lne := true, links := true } = true) (b : BayNo) (p : Fin 5) (f : Vector Word 16) (s : State) : Out.view q (execFlitReceive b p f s) = some (s.view q) := by
  refine out_view_of { tbs := true, faults := true, fabric := true, lne := true, links := true } hq ?_
  simp only [execFlitReceive]
  repeat' split
  all_goals simp only [↓out_view_next, ↓State.emit_view, ↓State.modLinkPort_view (q := Parts.others { tbs := true, faults := true, fabric := true, lne := true, links := true }) (by decide), ↓State.linkDown_view (q := Parts.others { tbs := true, faults := true, fabric := true, lne := true, links := true }) (by decide)]

theorem execLnlFlitTimeout_view {q : Parts} (hq : q.apart { tbs := true, faults := true, fabric := true, time := true, lne := true, links := true } = true) (b : BayNo) (p : Fin 5) (s : State) : Out.view q (execLnlFlitTimeout b p s) = some (s.view q) := by
  refine out_view_of { tbs := true, faults := true, fabric := true, time := true, lne := true, links := true } hq ?_
  simp only [execLnlFlitTimeout, ↓out_view_ite, ↓out_view_next, ite_self, ↓State.passTime_view (q := Parts.others { tbs := true, faults := true, fabric := true, time := true, lne := true, links := true }) (by decide), ↓State.linkDown_view (q := Parts.others { tbs := true, faults := true, fabric := true, time := true, lne := true, links := true }) (by decide)]

theorem execLnlLinkDown_view {q : Parts} (hq : q.apart { tbs := true, faults := true, fabric := true, lne := true, links := true } = true) (b : BayNo) (p : Fin 5) (modules : BitVec 4) (s : State) : Out.view q (execLnlLinkDown b p modules s) = some (s.view q) := by
  refine out_view_of { tbs := true, faults := true, fabric := true, lne := true, links := true } hq ?_
  simp only [execLnlLinkDown]
  repeat' split
  all_goals simp only [↓out_view_next, ↓State.modPortL_view (q := Parts.others { tbs := true, faults := true, fabric := true, lne := true, links := true }) (by decide), ↓State.linkDown_view (q := Parts.others { tbs := true, faults := true, fabric := true, lne := true, links := true }) (by decide)]

theorem State.sendOut_view {q : Parts} (hq : q.apart { fabric := true, links := true } = true) (s : State) (b : BayNo) (p : Fin 5) (h : Vector Word 4) (payload : List Word) : (State.sendOut s b p h payload).view q = s.view q := by
  refine view_of { fabric := true, links := true } hq ?_
  simp only [State.sendOut, ↓State.emit_view, ↓State.modLinkPort_view (q := Parts.others { fabric := true, links := true }) (by decide)]

theorem execFabricPacketRx_view {q : Parts} (hq : q.apart { fabric := true, links := true } = true) (b : BayNo) (p : Fin 5) (h : Vector Word 4) (payload : List Word) (s : State) : Out.view q (execFabricPacketRx b p h payload s) = some (s.view q) := by
  refine out_view_of { fabric := true, links := true } hq ?_
  simp only [execFabricPacketRx]
  repeat' split
  all_goals simp only [↓out_view_next, ↓foldl_view, implies_true, ↓State.modLnlPkg_view (q := Parts.others { fabric := true, links := true }) (by decide), ↓State.emit_view, ↓State.modLinkPort_view (q := Parts.others { fabric := true, links := true }) (by decide), ↓State.sendOut_view (q := Parts.others { fabric := true, links := true }) (by decide)]

theorem State.markFull_view {q : Parts} (hq : q.apart { links := true } = true) (s : State) (b : BayNo) (p : Fin 3) (full : Bool) : (State.markFull s b p full).view q = s.view q := by
  refine view_of { links := true } hq ?_
  simp only [State.markFull, ↓view_ite, ite_self, ↓State.event_view, ↓State.modPortL_view (q := Parts.others { links := true }) (by decide)]

theorem State.hearShoal_view {q : Parts} (hq : q.apart { tbs := true, fabric := true } = true) (s : State) (cuts : BitVec 4) (din : Fin 4) : (State.hearShoal s cuts din).view q = s.view q := by
  refine view_of { tbs := true, fabric := true } hq ?_
  simp only [State.hearShoal, ↓State.modTbsPkg_view (q := Parts.others { tbs := true, fabric := true }) (by decide), ↓State.modLnlPkg_view (q := Parts.others { tbs := true, fabric := true }) (by decide)]

theorem execTopologyUpdate_view {q : Parts} (hq : q.apart { tbs := true, faults := true, fabric := true, links := true } = true) (b : BayNo) (cuts : BitVec 4) (din : Fin 4) (full : BitVec 3) (s : State) : Out.view q (execTopologyUpdate b cuts din full s) = some (s.view q) := by
  refine out_view_of { tbs := true, faults := true, fabric := true, links := true } hq ?_
  simp only [execTopologyUpdate, ↓view_ite, ↓out_view_ite, ↓out_view_next, ↓foldl_view, ite_self, implies_true, ↓State.modLnl_view (q := Parts.others { tbs := true, faults := true, fabric := true, links := true }) (by decide), ↓State.faultEnd_view (q := Parts.others { tbs := true, faults := true, fabric := true, links := true }) (by decide), ↓State.reroute_view (q := Parts.others { tbs := true, faults := true, fabric := true, links := true }) (by decide), ↓State.retime_view (q := Parts.others { tbs := true, faults := true, fabric := true, links := true }) (by decide), ↓State.markFull_view (q := Parts.others { tbs := true, faults := true, fabric := true, links := true }) (by decide), ↓State.hearShoal_view (q := Parts.others { tbs := true, faults := true, fabric := true, links := true }) (by decide)]

theorem execFabricPortRetrain_view {q : Parts} (hq : q.apart { time := true, links := true } = true) (b : BayNo) (p : Fin 3) (modules : BitVec 4) (s0 : State) : Out.view q (execFabricPortRetrain b p modules s0) = some (s0.view q) := by
  refine out_view_of { time := true, links := true } hq ?_
  simp only [execFabricPortRetrain, ↓out_view_ite, ↓out_view_next, ite_self, ↓State.reach_view (q := Parts.others { time := true, links := true }) (by decide), ↓State.modPortL_view (q := Parts.others { time := true, links := true }) (by decide)]

theorem execLnlLinkUp_view {q : Parts} (hq : q.apart { faults := true, fabric := true, links := true } = true) (b : BayNo) (p : Fin 5) (s : State) : Out.view q (execLnlLinkUp b p s) = some (s.view q) := by
  refine out_view_of { faults := true, fabric := true, links := true } hq ?_
  simp only [execLnlLinkUp]
  repeat' split
  all_goals simp only [↓out_view_next, ↓State.modLnlPkg_view (q := Parts.others { faults := true, fabric := true, links := true }) (by decide), ↓State.faultRepair_view (q := Parts.others { faults := true, fabric := true, links := true }) (by decide), ↓State.modExt_view (q := Parts.others { faults := true, fabric := true, links := true }) (by decide), ↓State.event_view, ↓State.modPortL_view (q := Parts.others { faults := true, fabric := true, links := true }) (by decide), ↓State.callUpdate_view (q := Parts.others { faults := true, fabric := true, links := true }) (by decide)]

theorem execLnlLaneFail_view {q : Parts} (hq : q.apart { tbs := true, faults := true, fabric := true, lne := true, links := true } = true) (n : Fin 2) (j : Fin 8) (s : State) : Out.view q (execLnlLaneFail n j s) = some (s.view q) := by
  refine out_view_of { tbs := true, faults := true, fabric := true, lne := true, links := true } hq ?_
  simp only [execLnlLaneFail, ↓view_ite, ↓out_view_ite, ↓out_view_next, ite_self, ↓State.faultOpen_view (q := Parts.others { tbs := true, faults := true, fabric := true, lne := true, links := true }) (by decide), ↓State.modLane_view (q := Parts.others { tbs := true, faults := true, fabric := true, lne := true, links := true }) (by decide), ↓State.accrue_view (q := Parts.others { tbs := true, faults := true, fabric := true, lne := true, links := true }) (by decide), ↓State.modExt_view (q := Parts.others { tbs := true, faults := true, fabric := true, lne := true, links := true }) (by decide), ↓State.changeWidth_view (q := Parts.others { tbs := true, faults := true, fabric := true, lne := true, links := true }) (by decide), ↓State.extDown_view (q := Parts.others { tbs := true, faults := true, fabric := true, lne := true, links := true }) (by decide)]

theorem execLnlWidthResume_view {q : Parts} (hq : q.apart { faults := true, fabric := true } = true) (n : Fin 2) (s : State) : Out.view q (execLnlWidthResume n s) = some (s.view q) := by
  refine out_view_of { faults := true, fabric := true } hq ?_
  simp only [execLnlWidthResume, ↓out_view_ite, ↓out_view_next, ite_self, ↓State.faultEnd_view (q := Parts.others { faults := true, fabric := true }) (by decide), ↓State.modExt_view (q := Parts.others { faults := true, fabric := true }) (by decide)]

theorem State.learnBays_view {q : Parts} (hq : q.apart { tbs := true } = true) (s : State) (e : Nat × Nat) : (State.learnBays s e).view q = s.view q := by
  refine view_of { tbs := true } hq ?_
  simp only [State.learnBays, ↓view_ite, ite_self, ↓State.modTbsPkg_view (q := Parts.others { tbs := true }) (by decide)]

theorem execShoalExchangeRx_view {q : Parts} (hq : q.apart { tbs := true, fabric := true } = true) (n : Fin 2) (size package : Nat) (counts : List (Nat × Nat)) (hash : List Byte) (s : State) : Out.view q (execShoalExchangeRx n size package counts hash s) = some (s.view q) := by
  refine out_view_of { tbs := true, fabric := true } hq ?_
  simp only [execShoalExchangeRx, ↓view_ite, ↓out_view_ite, ↓out_view_next, ↓foldl_view, ite_self, implies_true, ↓State.modLnlPkg_view (q := Parts.others { tbs := true, fabric := true }) (by decide), ↓State.modExt_view (q := Parts.others { tbs := true, fabric := true }) (by decide), ↓State.offerExchange_view, ↓State.event_view, ↓State.retime_view (q := Parts.others { tbs := true, fabric := true }) (by decide), ↓State.learnBays_view (q := Parts.others { tbs := true, fabric := true }) (by decide)]

theorem execShoalMismatchRetry_view {q : Parts} (hq : q.apart { fabric := true, time := true } = true) (n : Fin 2) (s0 : State) : Out.view q (execShoalMismatchRetry n s0) = some (s0.view q) := by
  refine out_view_of { fabric := true, time := true } hq ?_
  simp only [execShoalMismatchRetry, ↓out_view_ite, ↓out_view_next, ite_self, ↓State.reach_view (q := Parts.others { fabric := true, time := true }) (by decide), ↓State.modExt_view (q := Parts.others { fabric := true, time := true }) (by decide), ↓State.offerExchange_view]

theorem State.enterIsland_view {q : Parts} (hq : q.apart { img := true, time := true, links := true } = true) (s : State) (bs : List BayNo) (i : Isle) : (State.enterIsland s bs i).view q = s.view q := by
  refine view_of { img := true, time := true, links := true } hq ?_
  simp only [State.enterIsland, ↓State.eachBay_view, implies_true, ↓State.modImg_view (q := Parts.others { img := true, time := true, links := true }) (by decide), ↓State.modLnl_view (q := Parts.others { img := true, time := true, links := true }) (by decide), ↓State.modTbs_view (q := Parts.others { img := true, time := true, links := true }) (by decide)]

theorem State.leaveIsland_view {q : Parts} (hq : q.apart { fabric := true, links := true } = true) (s : State) (b : BayNo) : (State.leaveIsland s b).view q = s.view q := by
  refine view_of { fabric := true, links := true } hq ?_
  simp only [State.leaveIsland]
  repeat' split
  all_goals simp only [↓State.eachBay_view, implies_true, ↓State.modLnlPkg_view (q := Parts.others { fabric := true, links := true }) (by decide), ↓State.modLnl_view (q := Parts.others { fabric := true, links := true }) (by decide)]

theorem execIslandDeclared_view {q : Parts} (hq : q.apart { img := true, tbs := true, fabric := true, time := true, links := true } = true) (b : BayNo) (packages : BitVec 4) (s : State) : Out.view q (execIslandDeclared b packages s) = some (s.view q) := by
  refine out_view_of { img := true, tbs := true, fabric := true, time := true, links := true } hq ?_
  simp only [execIslandDeclared, ↓view_ite, ↓out_view_ite, ↓out_view_next, ite_self, ↓State.modLnlPkg_view (q := Parts.others { img := true, tbs := true, fabric := true, time := true, links := true }) (by decide), ↓State.event_view, ↓State.retime_view (q := Parts.others { img := true, tbs := true, fabric := true, time := true, links := true }) (by decide), ↓State.enterIsland_view (q := Parts.others { img := true, tbs := true, fabric := true, time := true, links := true }) (by decide)]

theorem execRejoinMeasure_view {q : Parts} (hq : q.apart { fabric := true } = true) (b : BayNo) (off : Int) (s : State) : Out.view q (execRejoinMeasure b off s) = some (s.view q) := by
  refine out_view_of { fabric := true } hq ?_
  simp only [execRejoinMeasure]
  repeat' split
  all_goals simp only [↓out_view_next, ↓State.modLnlPkg_view (q := Parts.others { fabric := true }) (by decide)]

theorem execIslandRejoin_view {q : Parts} (hq : q.apart { tbs := true, fabric := true, time := true, links := true } = true) (s0 : State) : Out.view q (execIslandRejoin s0) = some (s0.view q) := by
  refine out_view_of { tbs := true, fabric := true, time := true, links := true } hq ?_
  simp only [execIslandRejoin]
  repeat' split
  all_goals simp only [↓out_view_next, ↓State.eachBay_view, implies_true, ↓State.modTbsPkg_view (q := Parts.others { tbs := true, fabric := true, time := true, links := true }) (by decide), ↓State.modLnlPkg_view (q := Parts.others { tbs := true, fabric := true, time := true, links := true }) (by decide), ↓State.reach_view (q := Parts.others { tbs := true, fabric := true, time := true, links := true }) (by decide), ↓State.modLnl_view (q := Parts.others { tbs := true, fabric := true, time := true, links := true }) (by decide), ↓State.modTbs_view (q := Parts.others { tbs := true, fabric := true, time := true, links := true }) (by decide), ↓State.event_view, ↓State.enqueue_view, ↓State.retime_view (q := Parts.others { tbs := true, fabric := true, time := true, links := true }) (by decide)]

theorem execRejoinOffsetRemoved_view {q : Parts} (hq : q.apart { time := true, links := true } = true) (s0 : State) : Out.view q (execRejoinOffsetRemoved s0) = some (s0.view q) := by
  refine out_view_of { time := true, links := true } hq ?_
  simp only [execRejoinOffsetRemoved]
  repeat' split
  all_goals simp only [↓out_view_next, ↓State.eachBay_view, implies_true, ↓State.passTime_view (q := Parts.others { time := true, links := true }) (by decide), ↓State.modLnl_view (q := Parts.others { time := true, links := true }) (by decide), ↓State.modTbs_view (q := Parts.others { time := true, links := true }) (by decide)]

theorem State.hearLeader_view {q : Parts} (hq : q.apart { tbs := true, clk := true, time := true, dma := true, units := true, afe := true, ddc := true, xfm := true, mco := true, scn := true, lne := true, jes := true, links := true, cal := true, hkc := true, mon := true } = true) (s : State) (l : LeaderTime) (d : Int) : (s.hearLeader l d).view q = s.view q := by
  refine view_of { tbs := true, clk := true, time := true, dma := true, units := true, afe := true, ddc := true, xfm := true, mco := true, scn := true, lne := true, jes := true, links := true, cal := true, hkc := true, mon := true } hq ?_
  unfold State.hearLeader
  extract_lets s1 bs off fresh g s2
  have h1 : s1.view (Parts.others { tbs := true, clk := true, time := true, dma := true, units := true, afe := true, ddc := true, xfm := true, mco := true, scn := true, lne := true, jes := true, links := true, cal := true, hkc := true, mon := true }) = s.view (Parts.others { tbs := true, clk := true, time := true, dma := true, units := true, afe := true, ddc := true, xfm := true, mco := true, scn := true, lne := true, jes := true, links := true, cal := true, hkc := true, mon := true }) := State.modTbsPkg_view (q := Parts.others { tbs := true, clk := true, time := true, dma := true, units := true, afe := true, ddc := true, xfm := true, mco := true, scn := true, lne := true, jes := true, links := true, cal := true, hkc := true, mon := true }) (by decide) ..
  clear_value s1
  have h2 : s2.view (Parts.others { tbs := true, clk := true, time := true, dma := true, units := true, afe := true, ddc := true, xfm := true, mco := true, scn := true, lne := true, jes := true, links := true, cal := true, hkc := true, mon := true }) = s.view (Parts.others { tbs := true, clk := true, time := true, dma := true, units := true, afe := true, ddc := true, xfm := true, mco := true, scn := true, lne := true, jes := true, links := true, cal := true, hkc := true, mon := true }) := by
    simp only [s2]
    split
    · exact h1
    · refine (State.modTbsPkg_view (q := Parts.others { tbs := true, clk := true, time := true, dma := true, units := true, afe := true, ddc := true, xfm := true, mco := true, scn := true, lne := true, jes := true, links := true, cal := true, hkc := true, mon := true }) (by decide) ..).trans ((State.modGrid_view (q := Parts.others { tbs := true, clk := true, time := true, dma := true, units := true, afe := true, ddc := true, xfm := true, mco := true, scn := true, lne := true, jes := true, links := true, cal := true, hkc := true, mon := true }) (by decide) ..).trans ((State.eachBay_view _ _ (fun s b => ?_) _ _).trans h1))
      refine (State.modTbs_view (q := Parts.others { tbs := true, clk := true, time := true, dma := true, units := true, afe := true, ddc := true, xfm := true, mco := true, scn := true, lne := true, jes := true, links := true, cal := true, hkc := true, mon := true }) (by decide) ..).trans (State.modBay_view _ _ _ _ fun x => ?_)
      split
      · rfl
      · rfl
  clear_value s2
  split
  · exact h1
  · split
    · split
      · exact h1
      · exact (State.modTbsPkg_view (q := Parts.others { tbs := true, clk := true, time := true, dma := true, units := true, afe := true, ddc := true, xfm := true, mco := true, scn := true, lne := true, jes := true, links := true, cal := true, hkc := true, mon := true }) (by decide) ..).trans ((State.eachBay_view _ _ (fun _ _ => State.modLnl_view (q := Parts.others { tbs := true, clk := true, time := true, dma := true, units := true, afe := true, ddc := true, xfm := true, mco := true, scn := true, lne := true, jes := true, links := true, cal := true, hkc := true, mon := true }) (by decide) ..) _ _).trans h1)
    · split
      · exact h1
      · exact (State.modServo_view (q := Parts.others { tbs := true, clk := true, time := true, dma := true, units := true, afe := true, ddc := true, xfm := true, mco := true, scn := true, lne := true, jes := true, links := true, cal := true, hkc := true, mon := true }) (by decide) ..).trans ((State.steer_view (q := Parts.others { tbs := true, clk := true, time := true, dma := true, units := true, afe := true, ddc := true, xfm := true, mco := true, scn := true, lne := true, jes := true, links := true, cal := true, hkc := true, mon := true }) (by decide) ..).trans h2)

theorem execLinkDelayMeasure_view {q : Parts} (hq : q.apart { tbs := true, fabric := true, clk := true, time := true, dma := true, units := true, afe := true, ddc := true, xfm := true, mco := true, scn := true, lne := true, jes := true, links := true, cal := true, hkc := true, mon := true } = true) (b : BayNo) (p : Fin 5) (d : Nat) (lead : Option LeaderTime) (s : State) : Out.view q (execLinkDelayMeasure b p d lead s) = some (s.view q) := by
  refine out_view_of { tbs := true, fabric := true, clk := true, time := true, dma := true, units := true, afe := true, ddc := true, xfm := true, mco := true, scn := true, lne := true, jes := true, links := true, cal := true, hkc := true, mon := true } hq ?_
  simp only [execLinkDelayMeasure]
  repeat' split
  all_goals simp only [↓out_view_next, ↓State.emit_view, ↓State.modLinkPort_view (q := Parts.others { tbs := true, fabric := true, clk := true, time := true, dma := true, units := true, afe := true, ddc := true, xfm := true, mco := true, scn := true, lne := true, jes := true, links := true, cal := true, hkc := true, mon := true }) (by decide), ↓State.hearLeader_view (q := Parts.others { tbs := true, fabric := true, clk := true, time := true, dma := true, units := true, afe := true, ddc := true, xfm := true, mco := true, scn := true, lne := true, jes := true, links := true, cal := true, hkc := true, mon := true }) (by decide)]

theorem State.release_view {q : Parts} (hq : q.apart { trg := true, units := true, xfm := true, mco := true, recorder := true } = true) (s : State) (b : BayNo) (ps : List HeldPacket) : (State.release s b ps).view q = s.view q := by
  refine view_of { trg := true, units := true, xfm := true, mco := true, recorder := true } hq ?_
  simp only [State.release, ↓State.fireHeld_view (q := Parts.others { trg := true, units := true, xfm := true, mco := true, recorder := true }) (by decide), ↓State.queueEvents_view, ↓State.arriveHeld_view]

theorem execLnlInjDelayExpire_view {q : Parts} (hq : q.apart { trg := true, time := true, units := true, xfm := true, mco := true, recorder := true } = true) (b : BayNo) (n : Fin 5) (s0 : State) : Out.view q (execLnlInjDelayExpire b n s0) = some (s0.view q) := by
  refine out_view_of { trg := true, time := true, units := true, xfm := true, mco := true, recorder := true } hq ?_
  simp only [execLnlInjDelayExpire]
  repeat' split
  all_goals simp only [↓out_view_next, ↓State.reach_view (q := Parts.others { trg := true, time := true, units := true, xfm := true, mco := true, recorder := true }) (by decide), ↓State.modLink_view, ↓State.release_view (q := Parts.others { trg := true, time := true, units := true, xfm := true, mco := true, recorder := true }) (by decide)]

end Sys2Proof.Machine
end

