-- ==== Sys2Proof/Laws/View/Ports.lean ====
section
/-! SUPPORT. Which parts the operations of Machine/Ports.lean leave as they were. -/
namespace Sys2Proof.Machine

theorem State.modPci_view {q : Parts} (hq : q.apart { pci := true } = true) (s : State) (b : BayNo) (j : Fin 5) (f : PciEp → PciEp) : (State.modPci s b j f).view q = s.view q := by
  refine view_of { pci := true } hq ?_
  unfold State.modPci
  exact State.modBay_view _ _ _ _ (fun _ => rfl)

theorem execPcieLinkUp_view {q : Parts} (hq : q.apart { lne := true, pci := true } = true) (b : BayNo) (j : Fin 5) (gen width : Nat) (reversed : Bool) (s : State) : Out.view q (execPcieLinkUp b j gen width reversed s) = some (s.view q) := by
  refine out_view_of { lne := true, pci := true } hq ?_
  simp only [execPcieLinkUp, ↓view_ite, ↓out_view_ite, ↓out_view_next, ite_self, ↓State.servePort_view (q := Parts.others { lne := true, pci := true }) (by decide), ↓State.event_view, ↓State.modPci_view (q := Parts.others { lne := true, pci := true }) (by decide)]

theorem State.functionReset_view {q : Parts} (hq : q.apart { img := true, dma := true, pci := true } = true) (s : State) (b : BayNo) (j : Fin 5) : (s.functionReset b j).view q = s.view q := by
  refine view_of { img := true, dma := true, pci := true } hq ?_
  unfold State.functionReset
  refine (State.eachBay_view _ _ (fun s q => ?_) _ _).trans ?_
  · refine foldl_view _ _ (fun s n => ?_) _ _
    split
    · split
      · exact (State.modBay_view _ _ _ _ (by intro _; rfl))
      · rfl
    · rfl
  · split
    · exact (State.modImg_view (q := Parts.others { img := true, dma := true, pci := true }) (by decide) ..).trans (State.modPci_view (q := Parts.others { img := true, dma := true, pci := true }) (by decide) ..)
    · exact State.modPci_view (q := Parts.others { img := true, dma := true, pci := true }) (by decide) ..

theorem State.pcieDown_view {q : Parts} (hq : q.apart { img := true, dma := true, lne := true, pci := true } = true) (s : State) (b : BayNo) (j : Fin 5) : (State.pcieDown s b j).view q = s.view q := by
  refine view_of { img := true, dma := true, lne := true, pci := true } hq ?_
  simp only [State.pcieDown, ↓view_ite, ite_self, ↓State.servePort_view (q := Parts.others { img := true, dma := true, lne := true, pci := true }) (by decide), ↓State.event_view, ↓State.modPci_view (q := Parts.others { img := true, dma := true, lne := true, pci := true }) (by decide), ↓State.functionReset_view (q := Parts.others { img := true, dma := true, lne := true, pci := true }) (by decide)]

theorem execPcieLinkDown_view {q : Parts} (hq : q.apart { img := true, dma := true, lne := true, pci := true } = true) (b : BayNo) (j : Fin 5) (s : State) : Out.view q (execPcieLinkDown b j s) = some (s.view q) := by
  refine out_view_of { img := true, dma := true, lne := true, pci := true } hq ?_
  simp only [execPcieLinkDown, ↓out_view_ite, ↓out_view_next, ite_self, ↓State.pcieDown_view (q := Parts.others { img := true, dma := true, lne := true, pci := true }) (by decide)]

theorem execPcieReset_view {q : Parts} (hq : q.apart { img := true, dma := true, pci := true } = true) (b : BayNo) (j : Fin 5) (s : State) : Out.view q (execPcieReset b j s) = some (s.view q) := by
  refine out_view_of { img := true, dma := true, pci := true } hq ?_
  simp only [execPcieReset, ↓out_view_ite, ↓out_view_next, ite_self, ↓State.event_view, ↓State.modPci_view (q := Parts.others { img := true, dma := true, pci := true }) (by decide), ↓State.functionReset_view (q := Parts.others { img := true, dma := true, pci := true }) (by decide)]

theorem execPcieBmeChange_view {q : Parts} (hq : q.apart { pci := true } = true) (b : BayNo) (j : Fin 5) (bme d3 : Bool) (s : State) : Out.view q (execPcieBmeChange b j bme d3 s) = some (s.view q) := by
  refine out_view_of { pci := true } hq ?_
  simp only [execPcieBmeChange, ↓out_view_ite, ↓out_view_next, ite_self, ↓State.emit_view, ↓State.modPci_view (q := Parts.others { pci := true }) (by decide)]

theorem State.modEth_view {q : Parts} (hq : q.apart { ports := true } = true) (s : State) (b : BayNo) (i : Fin 8) (f : EthPort → EthPort) : (State.modEth s b i f).view q = s.view q := by
  refine view_of { ports := true } hq ?_
  unfold State.modEth
  exact State.modBay_view _ _ _ _ (fun _ => rfl)

theorem State.modStream_view {q : Parts} (hq : q.apart { eth := true } = true) (s : State) (n : Fin 64) (f : EthStream → EthStream) : (State.modStream s n f).view q = s.view q := by
  refine view_of { eth := true } hq ?_
  simp only [State.modStream, ↓State.modEthPkg_view (q := Parts.others { eth := true }) (by decide)]

theorem execEthLinkUp_view {q : Parts} (hq : q.apart { faults := true, eth := true, lne := true, ports := true } = true) (b : BayNo) (i : Fin 8) (s : State) : Out.view q (execEthLinkUp b i s) = some (s.view q) := by
  refine out_view_of { faults := true, eth := true, lne := true, ports := true } hq ?_
  simp only [execEthLinkUp, ↓view_ite, ↓out_view_ite, ↓out_view_next, ite_self, ↓State.modEthPkg_view (q := Parts.others { faults := true, eth := true, lne := true, ports := true }) (by decide), ↓State.faultEnd_view (q := Parts.others { faults := true, eth := true, lne := true, ports := true }) (by decide), ↓State.faultRepair_view (q := Parts.others { faults := true, eth := true, lne := true, ports := true }) (by decide), ↓State.servePort_view (q := Parts.others { faults := true, eth := true, lne := true, ports := true }) (by decide), ↓State.event_view, ↓State.modEth_view (q := Parts.others { faults := true, eth := true, lne := true, ports := true }) (by decide)]

theorem State.ethDown_view {q : Parts} (hq : q.apart { eth := true, lne := true, ports := true } = true) (s : State) (b : BayNo) (i : Fin 8) : (State.ethDown s b i).view q = s.view q := by
  refine view_of { eth := true, lne := true, ports := true } hq ?_
  simp only [State.ethDown, ↓view_ite, ite_self, ↓State.modEthPkg_view (q := Parts.others { eth := true, lne := true, ports := true }) (by decide), ↓State.servePort_view (q := Parts.others { eth := true, lne := true, ports := true }) (by decide), ↓State.event_view, ↓State.modEth_view (q := Parts.others { eth := true, lne := true, ports := true }) (by decide)]

theorem State.ethFails_view {q : Parts} (hq : q.apart { faults := true, eth := true } = true) (s : State) (b : BayNo) (i : Fin 8) : (State.ethFails s b i).view q = s.view q := by
  refine view_of { faults := true, eth := true } hq ?_
  simp only [State.ethFails, ↓view_ite, ↓foldl_view, ite_self, implies_true, ↓State.faultOpen_view (q := Parts.others { faults := true, eth := true }) (by decide), ↓State.modStream_view (q := Parts.others { faults := true, eth := true }) (by decide)]

theorem execEthLinkDown_view {q : Parts} (hq : q.apart { faults := true, eth := true, lne := true, ports := true } = true) (b : BayNo) (i : Fin 8) (s : State) : Out.view q (execEthLinkDown b i s) = some (s.view q) := by
  refine out_view_of { faults := true, eth := true, lne := true, ports := true } hq ?_
  simp only [execEthLinkDown, ↓view_ite, ↓out_view_ite, ↓out_view_next, ite_self, ↓State.ethDown_view (q := Parts.others { faults := true, eth := true, lne := true, ports := true }) (by decide), ↓State.ethFails_view (q := Parts.others { faults := true, eth := true, lne := true, ports := true }) (by decide)]

theorem execEthPortFault_view {q : Parts} (hq : q.apart { faults := true, eth := true, lne := true, ports := true } = true) (b : BayNo) (i : Fin 8) (kind : Fin 3) (s : State) : Out.view q (execEthPortFault b i kind s) = some (s.view q) := by
  refine out_view_of { faults := true, eth := true, lne := true, ports := true } hq ?_
  simp only [execEthPortFault, ↓view_ite, ↓out_view_ite, ↓out_view_next, ite_self, ↓State.modEth_view (q := Parts.others { faults := true, eth := true, lne := true, ports := true }) (by decide), ↓State.ethDown_view (q := Parts.others { faults := true, eth := true, lne := true, ports := true }) (by decide), ↓State.ethFails_view (q := Parts.others { faults := true, eth := true, lne := true, ports := true }) (by decide)]

theorem State.sendAgain_view {q : Parts} (hq : q.apart { dma := true } = true) (s : State) (n : Fin 64) : (s.sendAgain n).view q = s.view q := view_of { dma := true } hq (State.eachBay_view _ _ (fun s b => (State.modBay_view _ _ _ _ (by intro _; rfl))) _ _)

theorem execEthFailoverDone_view {q : Parts} (hq : q.apart { faults := true, eth := true, dma := true } = true) (n : Fin 64) (s : State) : Out.view q (execEthFailoverDone n s) = some (s.view q) := by
  refine out_view_of { faults := true, eth := true, dma := true } hq ?_
  simp only [execEthFailoverDone, ↓view_ite, ↓out_view_ite, ↓out_view_next, ite_self, ↓State.faultEnd_view (q := Parts.others { faults := true, eth := true, dma := true }) (by decide), ↓State.event_view, ↓State.modStream_view (q := Parts.others { faults := true, eth := true, dma := true }) (by decide), ↓State.sendAgain_view (q := Parts.others { faults := true, eth := true, dma := true }) (by decide)]

theorem execEthFrameRx_view {q : Parts} (hq : q.apart { eth := true, ports := true } = true) (b : BayNo) (i : Fin 8) (f : EthFrame) (s : State) : Out.view q (execEthFrameRx b i f s) = some (s.view q) := by
  refine out_view_of { eth := true, ports := true } hq ?_
  simp only [execEthFrameRx]
  repeat' split
  all_goals simp only [↓out_view_next, ↓State.modEthPkg_view (q := Parts.others { eth := true, ports := true }) (by decide), ↓State.event_view, ↓State.emit_view, ↓State.modEth_view (q := Parts.others { eth := true, ports := true }) (by decide)]

theorem execPtpOffsetMeasure_view {q : Parts} (hq : q.apart { tbs := true, time := true } = true) (x : PtpExchange) (s : State) : Out.view q (execPtpOffsetMeasure x s) = some (s.view q) := by
  refine out_view_of { tbs := true, time := true } hq ?_
  simp only [execPtpOffsetMeasure, ↓out_view_ite, ↓out_view_next, ↓State.eachBay_view, ite_self, implies_true, ↓State.modTbs_view (q := Parts.others { tbs := true, time := true }) (by decide), ↓State.modServo_view (q := Parts.others { tbs := true, time := true }) (by decide), ↓State.servoOffset_view (q := Parts.others { tbs := true, time := true }) (by decide)]

theorem execEthResolveTimer_view {q : Parts} (hq : q.apart { eth := true, time := true, ports := true } = true) (p : Fin 64) (d : Fin 16) (ok : Bool) (s0 : State) : Out.view q (execEthResolveTimer p d ok s0) = some (s0.view q) := by
  refine out_view_of { eth := true, time := true, ports := true } hq ?_
  unfold execEthResolveTimer
  dsimp only
  split
  · rfl
  refine next_view ?_
  simp only [↓view_ite, ↓State.event_view, ↓State.emit_view, ↓State.modEth_view (q := Parts.others { eth := true, time := true, ports := true }) (by decide), ↓State.modEthPkg_view (q := Parts.others { eth := true, time := true, ports := true }) (by decide), ite_self]
  split
  · exact State.reach_view (q := Parts.others { eth := true, time := true, ports := true }) (by decide) ..
  · rfl

theorem State.modJes_view {q : Parts} (hq : q.apart { jes := true } = true) (s : State) (b : BayNo) (x : Fin 2) (f : Jes → Jes) : (State.modJes s b x f).view q = s.view q := by
  refine view_of { jes := true } hq ?_
  unfold State.modJes
  exact State.modBay_view _ _ _ _ (fun _ => rfl)

theorem State.jesStart_view {q : Parts} (hq : q.apart { jes := true } = true) (s : State) (b : BayNo) (x : Fin 2) : (State.jesStart s b x).view q = s.view q := by
  refine view_of { jes := true } hq ?_
  simp only [State.jesStart, ↓State.modJes_view (q := Parts.others { jes := true }) (by decide)]

theorem State.jesEdge_view {q : Parts} (hq : q.apart { jes := true } = true) (s : State) (b : BayNo) (x : Fin 2) (t : Stamp) : (State.jesEdge s b x t).view q = s.view q := by
  refine view_of { jes := true } hq ?_
  simp only [State.jesEdge]
  repeat' split
  all_goals simp only [↓State.event_view, ↓State.modJes_view (q := Parts.others { jes := true }) (by decide)]

theorem execSysrefInEdge_view {q : Parts} (hq : q.apart { time := true, jes := true } = true) (b : BayNo) (t : Stamp) (falling longPulse : Bool) (s : State) : Out.view q (execSysrefInEdge b t falling longPulse s) = some (s.view q) := by
  refine out_view_of { time := true, jes := true } hq ?_
  simp only [execSysrefInEdge]
  repeat' split
  all_goals simp only [↓view_ite, ↓out_view_next, ↓foldl_view, ite_self, implies_true, ↓State.tdcEdge_view (q := Parts.others { time := true, jes := true }) (by decide), ↓State.jesEdge_view (q := Parts.others { time := true, jes := true }) (by decide)]

theorem execSysrefOutEdge_view {q : Parts} (hq : q.apart { clk := true, time := true, jes := true } = true) (b : BayNo) (sIn : State) : Out.view q (execSysrefOutEdge b sIn) = some (sIn.view q) := by
  refine out_view_of { clk := true, time := true, jes := true } hq ?_
  simp only [execSysrefOutEdge, ↓view_ite, ↓out_view_ite, ↓out_view_next, ↓foldl_view, ite_self, implies_true, ↓State.reach_view (q := Parts.others { clk := true, time := true, jes := true }) (by decide), ↓State.modClk_view (q := Parts.others { clk := true, time := true, jes := true }) (by decide), ↓State.emit_view, ↓State.jesEdge_view (q := Parts.others { clk := true, time := true, jes := true }) (by decide)]

theorem execJesAligned_view {q : Parts} (hq : q.apart { ddc := true, lne := true, jes := true } = true) (b : BayNo) (x : Fin 2) (a : JesAlign) (s : State) : Out.view q (execJesAligned b x a s) = some (s.view q) := by
  refine out_view_of { ddc := true, lne := true, jes := true } hq ?_
  simp only [execJesAligned]
  repeat' split
  all_goals simp only [↓out_view_next, ↓State.modPort_view (q := Parts.others { ddc := true, lne := true, jes := true }) (by decide), ↓State.servePort_view (q := Parts.others { ddc := true, lne := true, jes := true }) (by decide), ↓State.event_view, ↓State.modJes_view (q := Parts.others { ddc := true, lne := true, jes := true }) (by decide)]

end Sys2Proof.Machine
end

