-- ==== Sys2Proof/Laws/View/Scn.lean ====
section
/-! SUPPORT. Which parts the operations of Machine/Scn.lean leave as they were. -/
namespace Sys2Proof.Machine

theorem State.modRo_view {q : Parts} (hq : q.apart { scn := true } = true) (s : State) (b : BayNo) (f : Readout → Readout) : (State.modRo s b f).view q = s.view q := by
  refine view_of { scn := true } hq ?_
  simp only [State.modRo, ↓State.modScn_view (q := Parts.others { scn := true }) (by decide)]

theorem State.scnMemWrite_view {q : Parts} (hq : q.apart { scn := true } = true) (s : State) (b : BayNo) (off : Nat) (v : Word) (en : BitVec 4) : (State.scnMemWrite s b off v en).view q = s.view q := by
  refine view_of { scn := true } hq ?_
  simp only [State.scnMemWrite, ↓State.modScn_view (q := Parts.others { scn := true }) (by decide)]

theorem State.roCompare_view {q : Parts} (hq : q.apart { keeper := true, ident := true, scn := true } = true) (s : State) (b : BayNo) (crc : Word) : (State.roCompare s b crc).view q = s.view q := by
  refine view_of { keeper := true, ident := true, scn := true } hq ?_
  simp only [State.roCompare, ↓view_ite, ite_self, ↓State.alert_view (q := Parts.others { keeper := true, ident := true, scn := true }) (by decide), ↓State.sealLog_view (q := Parts.others { keeper := true, ident := true, scn := true }) (by decide), ↓State.event_view, ↓State.modRo_view (q := Parts.others { keeper := true, ident := true, scn := true }) (by decide)]

theorem execScnCrcCompare_view {q : Parts} (hq : q.apart { keeper := true, ident := true, time := true, scn := true } = true) (b : BayNo) (r : Fin 16) (upset : Word) (s0 : State) : Out.view q (execScnCrcCompare b r upset s0) = some (s0.view q) := by
  refine out_view_of { keeper := true, ident := true, time := true, scn := true } hq ?_
  simp only [execScnCrcCompare, ↓out_view_ite, ↓out_view_next, ite_self, ↓State.reach_view (q := Parts.others { keeper := true, ident := true, time := true, scn := true }) (by decide), ↓State.modScn_view (q := Parts.others { keeper := true, ident := true, time := true, scn := true }) (by decide), ↓State.event_view, ↓State.roCompare_view (q := Parts.others { keeper := true, ident := true, time := true, scn := true }) (by decide)]

theorem State.blankStart_view {q : Parts} (hq : q.apart { scn := true } = true) (s : State) (b : BayNo) : (State.blankStart s b).view q = s.view q := by
  refine view_of { scn := true } hq ?_
  simp only [State.blankStart, ↓view_ite, ite_self, ↓State.modScn_view (q := Parts.others { scn := true }) (by decide)]

theorem execVerticalBlankingStart_view {q : Parts} (hq : q.apart { time := true, scn := true } = true) (b : BayNo) (s0 : State) : Out.view q (execVerticalBlankingStart b s0) = some (s0.view q) := by
  refine out_view_of { time := true, scn := true } hq ?_
  simp only [execVerticalBlankingStart, ↓out_view_ite, ↓out_view_next, ite_self, ↓State.reach_view (q := Parts.others { time := true, scn := true }) (by decide), ↓State.blankStart_view (q := Parts.others { time := true, scn := true }) (by decide)]

theorem State.latchShadows_view {q : Parts} (hq : q.apart { vals := true, img := true, tbs := true, keeper := true, time := true, units := true, afe := true, adc := true, ddc := true, xfm := true, den := true, mco := true, scn := true, lne := true, cal := true, hkc := true, aux := true, mon := true } = true) (s : State) (b : BayNo) : (s.latchShadows b).view q = s.view q := by
  refine view_of { vals := true, img := true, tbs := true, keeper := true, time := true, units := true, afe := true, adc := true, ddc := true, xfm := true, den := true, mco := true, scn := true, lne := true, cal := true, hkc := true, aux := true, mon := true } hq ?_
  unfold State.latchShadows
  refine (State.modScn_view (q := Parts.others { vals := true, img := true, tbs := true, keeper := true, time := true, units := true, afe := true, adc := true, ddc := true, xfm := true, den := true, mco := true, scn := true, lne := true, cal := true, hkc := true, aux := true, mon := true }) (by decide) ..).trans ((foldl_view _ _ (fun s e => ?_) _ _).trans (State.takeEffect_view (q := Parts.others { vals := true, img := true, tbs := true, keeper := true, time := true, units := true, afe := true, adc := true, ddc := true, xfm := true, den := true, mco := true, scn := true, lne := true, cal := true, hkc := true, aux := true, mon := true }) (by decide) ..))
  split
  · rfl
  · exact State.putFld_view (q := Parts.others { vals := true, img := true, tbs := true, keeper := true, time := true, units := true, afe := true, adc := true, ddc := true, xfm := true, den := true, mco := true, scn := true, lne := true, cal := true, hkc := true, aux := true, mon := true }) (by decide) ..

theorem State.latchContent_view {q : Parts} (hq : q.apart { scn := true } = true) (s : State) (b : BayNo) : (State.latchContent s b).view q = s.view q := by
  refine view_of { scn := true } hq ?_
  simp only [State.latchContent, ↓view_ite, ite_self, ↓State.modScn_view (q := Parts.others { scn := true }) (by decide), ↓State.event_view]

theorem State.latchReadout_view {q : Parts} (hq : q.apart { scn := true } = true) (s : State) (b : BayNo) : (State.latchReadout s b).view q = s.view q := by
  refine view_of { scn := true } hq ?_
  simp only [State.latchReadout]
  repeat' split
  all_goals simp only [↓State.event_view, ↓State.modRo_view (q := Parts.others { scn := true }) (by decide)]

theorem execScnLatchPoint_view {q : Parts} (hq : q.apart { vals := true, img := true, tbs := true, keeper := true, time := true, units := true, afe := true, adc := true, ddc := true, xfm := true, den := true, mco := true, scn := true, lne := true, cal := true, hkc := true, aux := true, mon := true } = true) (b : BayNo) (s0 : State) : Out.view q (execScnLatchPoint b s0) = some (s0.view q) := by
  refine out_view_of { vals := true, img := true, tbs := true, keeper := true, time := true, units := true, afe := true, adc := true, ddc := true, xfm := true, den := true, mco := true, scn := true, lne := true, cal := true, hkc := true, aux := true, mon := true } hq ?_
  simp only [execScnLatchPoint, ↓view_ite, ↓out_view_ite, ↓out_view_next, ite_self, ↓State.reach_view (q := Parts.others { vals := true, img := true, tbs := true, keeper := true, time := true, units := true, afe := true, adc := true, ddc := true, xfm := true, den := true, mco := true, scn := true, lne := true, cal := true, hkc := true, aux := true, mon := true }) (by decide), ↓State.modScn_view (q := Parts.others { vals := true, img := true, tbs := true, keeper := true, time := true, units := true, afe := true, adc := true, ddc := true, xfm := true, den := true, mco := true, scn := true, lne := true, cal := true, hkc := true, aux := true, mon := true }) (by decide), ↓State.event_view, ↓State.blankStart_view (q := Parts.others { vals := true, img := true, tbs := true, keeper := true, time := true, units := true, afe := true, adc := true, ddc := true, xfm := true, den := true, mco := true, scn := true, lne := true, cal := true, hkc := true, aux := true, mon := true }) (by decide), ↓State.latchShadows_view (q := Parts.others { vals := true, img := true, tbs := true, keeper := true, time := true, units := true, afe := true, adc := true, ddc := true, xfm := true, den := true, mco := true, scn := true, lne := true, cal := true, hkc := true, aux := true, mon := true }) (by decide), ↓State.latchContent_view (q := Parts.others { vals := true, img := true, tbs := true, keeper := true, time := true, units := true, afe := true, adc := true, ddc := true, xfm := true, den := true, mco := true, scn := true, lne := true, cal := true, hkc := true, aux := true, mon := true }) (by decide), ↓State.latchReadout_view (q := Parts.others { vals := true, img := true, tbs := true, keeper := true, time := true, units := true, afe := true, adc := true, ddc := true, xfm := true, den := true, mco := true, scn := true, lne := true, cal := true, hkc := true, aux := true, mon := true }) (by decide)]

theorem execScnCommitWrite_view {q : Parts} (hq : q.apart { domains := true, scn := true } = true) (b : BayNo) (v : Bool) (s : State) : Out.view q (execScnCommitWrite b v s) = some (s.view q) := by
  refine out_view_of { domains := true, scn := true } hq ?_
  simp only [execScnCommitWrite, ↓out_view_ite, ↓out_view_next, ite_self, ↓State.modScn_view (q := Parts.others { domains := true, scn := true }) (by decide), ↓State.fencedAccess_view (q := Parts.others { domains := true, scn := true }) (by decide)]

theorem State.supersede_view {q : Parts} (hq : q.apart { img := true, keeper := true } = true) (s : State) (b : BayNo) (id : Nat) : (State.supersede s b id).view q = s.view q := by
  refine view_of { img := true, keeper := true } hq ?_
  simp only [State.supersede, ↓State.discardWaiting_view (q := Parts.others { img := true, keeper := true }) (by decide)]

theorem execPostCopyDone_view {q : Parts} (hq : q.apart { mco := true, scn := true } = true) (b : BayNo) (c : CoreNo) (s : State) : Out.view q (execPostCopyDone b c s) = some (s.view q) := by
  refine out_view_of { mco := true, scn := true } hq ?_
  simp only [execPostCopyDone]
  repeat' split
  all_goals simp only [↓out_view_next, ↓State.modCore_view (q := Parts.others { mco := true, scn := true }) (by decide), ↓State.copiedWords_view, ↓State.modRo_view (q := Parts.others { mco := true, scn := true }) (by decide)]

theorem execRoReferenceDone_view {q : Parts} (hq : q.apart { scn := true } = true) (b : BayNo) (s : State) : Out.view q (execRoReferenceDone b s) = some (s.view q) := by
  refine out_view_of { scn := true } hq ?_
  simp only [execRoReferenceDone]
  repeat' split
  all_goals simp only [↓out_view_next, ↓State.modRo_view (q := Parts.others { scn := true }) (by decide)]

theorem execRoStaleTimeout_view {q : Parts} (hq : q.apart { time := true, scn := true } = true) (b : BayNo) (s0 : State) : Out.view q (execRoStaleTimeout b s0) = some (s0.view q) := by
  refine out_view_of { time := true, scn := true } hq ?_
  simp only [execRoStaleTimeout, ↓out_view_ite, ↓out_view_next, ite_self, ↓State.reach_view (q := Parts.others { time := true, scn := true }) (by decide), ↓State.modRo_view (q := Parts.others { time := true, scn := true }) (by decide)]

theorem execDpHpdRise_view {q : Parts} (hq : q.apart { scn := true } = true) (b : BayNo) (edid : List Byte) (s : State) : Out.view q (execDpHpdRise b edid s) = some (s.view q) := by
  refine out_view_of { scn := true } hq ?_
  simp only [execDpHpdRise, ↓out_view_ite, ↓out_view_next, ite_self, ↓State.modScn_view (q := Parts.others { scn := true }) (by decide)]

theorem execDpHpdIrq_view {q : Parts} (hq : q.apart { scn := true } = true) (b : BayNo) (lostStatus : Bool) (s : State) : Out.view q (execDpHpdIrq b lostStatus s) = some (s.view q) := by
  refine out_view_of { scn := true } hq ?_
  simp only [execDpHpdIrq, ↓out_view_ite, ↓out_view_next, ite_self, ↓State.modScn_view (q := Parts.others { scn := true }) (by decide)]

theorem execDpHpdFall_view {q : Parts} (hq : q.apart { scn := true } = true) (b : BayNo) (s : State) : Out.view q (execDpHpdFall b s) = some (s.view q) := by
  refine out_view_of { scn := true } hq ?_
  simp only [execDpHpdFall, ↓out_view_ite, ↓out_view_next, ite_self, ↓State.modScn_view (q := Parts.others { scn := true }) (by decide), ↓State.event_view]

theorem execDpLinkTrainDone_view {q : Parts} (hq : q.apart { scn := true } = true) (b : BayNo) (ok : Bool) (s : State) : Out.view q (execDpLinkTrainDone b ok s) = some (s.view q) := by
  refine out_view_of { scn := true } hq ?_
  simp only [execDpLinkTrainDone, ↓out_view_ite, ↓out_view_next, ite_self, ↓State.modScn_view (q := Parts.others { scn := true }) (by decide), ↓State.event_view]

theorem execDpTrainRetryTimer_view {q : Parts} (hq : q.apart { time := true, scn := true } = true) (b : BayNo) (s0 : State) : Out.view q (execDpTrainRetryTimer b s0) = some (s0.view q) := by
  refine out_view_of { time := true, scn := true } hq ?_
  simp only [execDpTrainRetryTimer]
  repeat' split
  all_goals simp only [↓out_view_next, ↓State.reach_view (q := Parts.others { time := true, scn := true }) (by decide), ↓State.modScn_view (q := Parts.others { time := true, scn := true }) (by decide)]

theorem State.loadTables_view {q : Parts} (hq : q.apart { scn := true } = true) (s : State) (b : BayNo) : (s.loadTables b).view q = s.view q := by
  refine view_of { scn := true } hq ?_
  unfold State.loadTables
  split
  · rfl
  · refine foldl_view _ _ (fun s x => ?_) _ _
    split
    · exact State.modScn_view (q := Parts.others { scn := true }) (by decide) ..
    · exact State.modScn_view (q := Parts.others { scn := true }) (by decide) ..
    · exact State.modScn_view (q := Parts.others { scn := true }) (by decide) ..
    · rfl

theorem State.startRaster_view {q : Parts} (hq : q.apart { scn := true } = true) (s : State) (b : BayNo) (t : Stamp) : (State.startRaster s b t).view q = s.view q := by
  refine view_of { scn := true } hq ?_
  simp only [State.startRaster, ↓view_ite, ite_self, ↓State.modScn_view (q := Parts.others { scn := true }) (by decide)]

theorem State.scnWrite_view {q : Parts} (hq : q.apart { img := true, keeper := true, scn := true } = true) (s : State) (b : BayNo) (off : Nat) (v : Word) (en : BitVec 4) : viewOr q (s.view q) (State.scnWrite s b off v en) = s.view q := by
  refine viewOr_of { img := true, keeper := true, scn := true } hq ?_
  simp only [State.scnWrite]
  repeat' split
  all_goals simp only [↓viewOr_some, ↓viewOr_none, ↓State.modScn_view (q := Parts.others { img := true, keeper := true, scn := true }) (by decide), ↓State.shadowWrite_view (q := Parts.others { img := true, keeper := true, scn := true }) (by decide), ↓State.scnMemWrite_view (q := Parts.others { img := true, keeper := true, scn := true }) (by decide), ↓State.supersede_view (q := Parts.others { img := true, keeper := true, scn := true }) (by decide)]

end Sys2Proof.Machine
end

