-- ==== Sys2Proof/Laws/View/Rec.lean ====
section
/-! SUPPORT. Which parts the operations of Machine/Rec.lean leave as they were. -/
namespace Sys2Proof.Machine

theorem State.modDrive_view {q : Parts} (hq : q.apart { recorder := true } = true) (s : State) (b : BayNo) (d : Fin 8) (f : Drive → Drive) : (State.modDrive s b d f).view q = s.view q := by
  refine view_of { recorder := true } hq ?_
  simp only [State.modDrive, ↓State.modRec_view (q := Parts.others { recorder := true }) (by decide)]

theorem State.recBegin_view {q : Parts} (hq : q.apart { recorder := true } = true) (s : State) (b : BayNo) (t : Stamp) : (State.recBegin s b t).view q = s.view q := by
  refine view_of { recorder := true } hq ?_
  simp only [State.recBegin, ↓State.modRec_view (q := Parts.others { recorder := true }) (by decide)]

theorem execDriveLinkTrained_view {q : Parts} (hq : q.apart { recorder := true } = true) (b : BayNo) (d : Fin 8) (gen width : Nat) (s : State) : Out.view q (execDriveLinkTrained b d gen width s) = some (s.view q) := by
  refine out_view_of { recorder := true } hq ?_
  simp only [execDriveLinkTrained, ↓out_view_ite, ↓out_view_next, ite_self, ↓State.modDrive_view (q := Parts.others { recorder := true }) (by decide)]

theorem execDriveTrainRetry_view {q : Parts} (hq : q.apart { time := true, recorder := true } = true) (b : BayNo) (d : Fin 8) (s0 : State) : Out.view q (execDriveTrainRetry b d s0) = some (s0.view q) := by
  refine out_view_of { time := true, recorder := true } hq ?_
  simp only [execDriveTrainRetry, ↓out_view_ite, ↓out_view_next, ite_self, ↓State.reach_view (q := Parts.others { time := true, recorder := true }) (by decide), ↓State.modDrive_view (q := Parts.others { time := true, recorder := true }) (by decide)]

theorem State.relabel_view {q : Parts} (hq : q.apart { recorder := true } = true) (s : State) (b : BayNo) : (State.relabel s b).view q = s.view q := by
  refine view_of { recorder := true } hq ?_
  simp only [State.relabel]
  repeat' split
  all_goals simp only [↓State.modRec_view (q := Parts.others { recorder := true }) (by decide)]

theorem State.recover_view {q : Parts} (hq : q.apart { recorder := true } = true) (s : State) (b : BayNo) (v : Volume) : (State.recover s b v).view q = s.view q := by
  refine view_of { recorder := true } hq ?_
  simp only [State.recover, ↓view_ite, ite_self, ↓State.modRec_view (q := Parts.others { recorder := true }) (by decide), ↓State.event_view]

theorem State.beginSession_view {q : Parts} (hq : q.apart { recorder := true } = true) (s : State) (b : BayNo) (fresh : Bool) : (State.beginSession s b fresh).view q = s.view q := by
  refine view_of { recorder := true } hq ?_
  simp only [State.beginSession, ↓State.modRec_view (q := Parts.others { recorder := true }) (by decide), ↓State.openSpan_view (q := Parts.others { recorder := true }) (by decide), ↓State.event_view]

theorem State.beginRebuild_view {q : Parts} (hq : q.apart { recorder := true } = true) (s : State) (b : BayNo) (d : Fin 8) : (State.beginRebuild s b d).view q = s.view q := by
  refine view_of { recorder := true } hq ?_
  simp only [State.beginRebuild, ↓State.modRec_view (q := Parts.others { recorder := true }) (by decide), ↓State.relabel_view (q := Parts.others { recorder := true }) (by decide)]

theorem State.assemble_view {q : Parts} (hq : q.apart { recorder := true } = true) (s : State) (b : BayNo) : (s.assemble b).view q = s.view q := by
  refine view_of { recorder := true } hq ?_
  unfold State.assemble
  extract_lets n all again ds old keep missing
  clear_value missing
  split
  · exact (State.event_view ..).trans (State.modRec_view (q := Parts.others { recorder := true }) (by decide) ..)
  · split
    next made cut _ =>
    extract_lets v s1 s1' s2 s3 s4
    have h1 : s1.view (Parts.others { recorder := true }) = s.view (Parts.others { recorder := true }) := State.modRec_view (q := Parts.others { recorder := true }) (by decide) ..
    clear_value s1
    have h2 : s1'.view (Parts.others { recorder := true }) = s.view (Parts.others { recorder := true }) := by
      simp only [s1']
      split
      · split
        · exact (State.beginRebuild_view (q := Parts.others { recorder := true }) (by decide) ..).trans h1
        · exact (State.relabel_view (q := Parts.others { recorder := true }) (by decide) ..).trans h1
      · exact (State.relabel_view (q := Parts.others { recorder := true }) (by decide) ..).trans h1
    clear_value s1'
    have h3 : s2.view (Parts.others { recorder := true }) = s.view (Parts.others { recorder := true }) := (State.recover_view (q := Parts.others { recorder := true }) (by decide) ..).trans h2
    clear_value s2
    have h4 : s4.view (Parts.others { recorder := true }) = s.view (Parts.others { recorder := true }) := by
      simp only [s4, s3]
      split
      · exact (State.event_view ..).trans ((State.event_view ..).trans h3)
      · exact (State.event_view ..).trans h3
    clear_value s4
    split
    · exact (State.beginSession_view (q := Parts.others { recorder := true }) (by decide) ..).trans h4
    · exact h4

theorem State.assembleAll_view {q : Parts} (hq : q.apart { recorder := true } = true) (s : State) : (State.assembleAll s).view q = s.view q := by
  refine view_of { recorder := true } hq ?_
  simp only [State.assembleAll, ↓view_ite, ↓State.eachBay_view, ite_self, implies_true, ↓State.assemble_view (q := Parts.others { recorder := true }) (by decide)]

theorem State.driveReady_view {q : Parts} (hq : q.apart { recorder := true } = true) (s : State) (b : BayNo) (d : Fin 8) (info : DriveInfo) : (State.driveReady s b d info).view q = s.view q := by
  refine view_of { recorder := true } hq ?_
  simp only [State.driveReady]
  repeat' split
  all_goals simp only [↓State.event_view, ↓State.modDrive_view (q := Parts.others { recorder := true }) (by decide), ↓State.beginRebuild_view (q := Parts.others { recorder := true }) (by decide), ↓State.assembleAll_view (q := Parts.others { recorder := true }) (by decide)]

theorem execDriveReady_view {q : Parts} (hq : q.apart { recorder := true } = true) (b : BayNo) (d : Fin 8) (info : DriveInfo) (s : State) : Out.view q (execDriveReady b d info s) = some (s.view q) := by
  refine out_view_of { recorder := true } hq ?_
  simp only [execDriveReady, ↓out_view_ite, ↓out_view_next, ite_self, ↓State.driveReady_view (q := Parts.others { recorder := true }) (by decide)]

theorem execDriveWaitExpire_view {q : Parts} (hq : q.apart { time := true, recorder := true } = true) (b : BayNo) (s0 : State) : Out.view q (execDriveWaitExpire b s0) = some (s0.view q) := by
  refine out_view_of { time := true, recorder := true } hq ?_
  simp only [execDriveWaitExpire, ↓out_view_ite, ↓out_view_next, ite_self, ↓State.reach_view (q := Parts.others { time := true, recorder := true }) (by decide), ↓State.modRec_view (q := Parts.others { time := true, recorder := true }) (by decide), ↓State.assembleAll_view (q := Parts.others { time := true, recorder := true }) (by decide)]

theorem execSmartPoll_view {q : Parts} (hq : q.apart { time := true, recorder := true } = true) (b : BayNo) (d : Fin 8) (temp media : BitVec 16) (used : BitVec 8) (s0 : State) : Out.view q (execSmartPoll b d temp media used s0) = some (s0.view q) := by
  refine out_view_of { time := true, recorder := true } hq ?_
  simp only [execSmartPoll, ↓out_view_ite, ↓out_view_next, ite_self, ↓State.reach_view (q := Parts.others { time := true, recorder := true }) (by decide), ↓State.modDrive_view (q := Parts.others { time := true, recorder := true }) (by decide)]

theorem execRecLatMaxRead_view {q : Parts} (hq : q.apart { domains := true, recorder := true } = true) (b : BayNo) (d : Fin 8) (s : State) : Out.view q (execRecLatMaxRead b d s) = some (s.view q) := by
  refine out_view_of { domains := true, recorder := true } hq ?_
  simp only [execRecLatMaxRead, ↓out_view_ite, ↓out_view_next, ite_self, ↓State.fencedAccess_view (q := Parts.others { domains := true, recorder := true }) (by decide), ↓State.modDrive_view (q := Parts.others { domains := true, recorder := true }) (by decide)]

theorem State.endReplay_view {q : Parts} (hq : q.apart { units := true, ddc := true, xfm := true, den := true, recorder := true, jes := true } = true) (s : State) (b : BayNo) (cause : Nat) : (State.endReplay s b cause).view q = s.view q := by
  refine view_of { units := true, ddc := true, xfm := true, den := true, recorder := true, jes := true } hq ?_
  simp only [State.endReplay]
  repeat' split
  all_goals simp only [↓State.modRec_view (q := Parts.others { units := true, ddc := true, xfm := true, den := true, recorder := true, jes := true }) (by decide), ↓State.stopStream_view (q := Parts.others { units := true, ddc := true, xfm := true, den := true, recorder := true, jes := true }) (by decide), ↓State.event_view]

theorem State.failMember_view {q : Parts} (hq : q.apart { faults := true, units := true, ddc := true, xfm := true, den := true, recorder := true, jes := true } = true) (s : State) (b : BayNo) (d : Fin 8) (cause : Nat) : (State.failMember s b d cause).view q = s.view q := by
  refine view_of { faults := true, units := true, ddc := true, xfm := true, den := true, recorder := true, jes := true } hq ?_
  simp only [State.failMember]
  repeat' split
  all_goals simp only [↓State.faultOpen_view (q := Parts.others { faults := true, units := true, ddc := true, xfm := true, den := true, recorder := true, jes := true }) (by decide), ↓State.faultEnd_view (q := Parts.others { faults := true, units := true, ddc := true, xfm := true, den := true, recorder := true, jes := true }) (by decide), ↓State.modRec_view (q := Parts.others { faults := true, units := true, ddc := true, xfm := true, den := true, recorder := true, jes := true }) (by decide), ↓State.event_view, ↓State.modDrive_view (q := Parts.others { faults := true, units := true, ddc := true, xfm := true, den := true, recorder := true, jes := true }) (by decide), ↓State.relabel_view (q := Parts.others { faults := true, units := true, ddc := true, xfm := true, den := true, recorder := true, jes := true }) (by decide), ↓State.endReplay_view (q := Parts.others { faults := true, units := true, ddc := true, xfm := true, den := true, recorder := true, jes := true }) (by decide)]

theorem execDriveLinkDown_view {q : Parts} (hq : q.apart { faults := true, units := true, ddc := true, xfm := true, den := true, recorder := true, jes := true } = true) (b : BayNo) (d : Fin 8) (s : State) : Out.view q (execDriveLinkDown b d s) = some (s.view q) := by
  refine out_view_of { faults := true, units := true, ddc := true, xfm := true, den := true, recorder := true, jes := true } hq ?_
  simp only [execDriveLinkDown, ↓out_view_ite, ↓out_view_next, ite_self, ↓State.failMember_view (q := Parts.others { faults := true, units := true, ddc := true, xfm := true, den := true, recorder := true, jes := true }) (by decide)]

theorem execControllerFatalStatus_view {q : Parts} (hq : q.apart { faults := true, units := true, ddc := true, xfm := true, den := true, recorder := true, jes := true } = true) (b : BayNo) (d : Fin 8) (s : State) : Out.view q (execControllerFatalStatus b d s) = some (s.view q) := by
  refine out_view_of { faults := true, units := true, ddc := true, xfm := true, den := true, recorder := true, jes := true } hq ?_
  simp only [execControllerFatalStatus, ↓out_view_ite, ↓out_view_next, ite_self, ↓State.failMember_view (q := Parts.others { faults := true, units := true, ddc := true, xfm := true, den := true, recorder := true, jes := true }) (by decide)]

theorem execDriveCommandTimeout_view {q : Parts} (hq : q.apart { faults := true, time := true, units := true, ddc := true, xfm := true, den := true, recorder := true, jes := true } = true) (b : BayNo) (d : Fin 8) (s0 : State) : Out.view q (execDriveCommandTimeout b d s0) = some (s0.view q) := by
  refine out_view_of { faults := true, time := true, units := true, ddc := true, xfm := true, den := true, recorder := true, jes := true } hq ?_
  simp only [execDriveCommandTimeout]
  repeat' split
  all_goals simp only [↓out_view_next, ↓State.reach_view (q := Parts.others { faults := true, time := true, units := true, ddc := true, xfm := true, den := true, recorder := true, jes := true }) (by decide), ↓State.modDrive_view (q := Parts.others { faults := true, time := true, units := true, ddc := true, xfm := true, den := true, recorder := true, jes := true }) (by decide), ↓State.failMember_view (q := Parts.others { faults := true, time := true, units := true, ddc := true, xfm := true, den := true, recorder := true, jes := true }) (by decide)]

theorem execNvmeCompletion_view {q : Parts} (hq : q.apart { faults := true, units := true, ddc := true, xfm := true, den := true, recorder := true, jes := true } = true) (b : BayNo) (d : Fin 8) (ok : Bool) (s : State) : Out.view q (execNvmeCompletion b d ok s) = some (s.view q) := by
  refine out_view_of { faults := true, units := true, ddc := true, xfm := true, den := true, recorder := true, jes := true } hq ?_
  simp only [execNvmeCompletion]
  repeat' split
  all_goals simp only [↓out_view_next, ↓State.modRec_view (q := Parts.others { faults := true, units := true, ddc := true, xfm := true, den := true, recorder := true, jes := true }) (by decide), ↓State.modDrive_view (q := Parts.others { faults := true, units := true, ddc := true, xfm := true, den := true, recorder := true, jes := true }) (by decide), ↓State.failMember_view (q := Parts.others { faults := true, units := true, ddc := true, xfm := true, den := true, recorder := true, jes := true }) (by decide)]

theorem execFailoverResume_view {q : Parts} (hq : q.apart { faults := true, recorder := true } = true) (b : BayNo) (s : State) : Out.view q (execFailoverResume b s) = some (s.view q) := by
  refine out_view_of { faults := true, recorder := true } hq ?_
  simp only [execFailoverResume]
  repeat' split
  all_goals simp only [↓out_view_next, ↓State.faultEnd_view (q := Parts.others { faults := true, recorder := true }) (by decide), ↓State.modRec_view (q := Parts.others { faults := true, recorder := true }) (by decide), ↓State.event_view, ↓State.relabel_view (q := Parts.others { faults := true, recorder := true }) (by decide)]

theorem execRebuildRowDone_view {q : Parts} (hq : q.apart { faults := true, recorder := true } = true) (b : BayNo) (s : State) : Out.view q (execRebuildRowDone b s) = some (s.view q) := by
  refine out_view_of { faults := true, recorder := true } hq ?_
  simp only [execRebuildRowDone]
  repeat' split
  all_goals simp only [↓out_view_next, ↓State.faultRepair_view (q := Parts.others { faults := true, recorder := true }) (by decide), ↓State.modRec_view (q := Parts.others { faults := true, recorder := true }) (by decide), ↓State.event_view, ↓State.modDrive_view (q := Parts.others { faults := true, recorder := true }) (by decide), ↓State.relabel_view (q := Parts.others { faults := true, recorder := true }) (by decide)]

theorem execRecStart_view {q : Parts} (hq : q.apart { img := true, recorder := true } = true) (tag : Word) (mask : BitVec 8) (fresh erase : Bool) (t : Stamp) (s : State) : Out.view q (execRecStart tag mask fresh erase t s) = some (s.view q) := by
  refine out_view_of { img := true, recorder := true } hq ?_
  simp only [execRecStart, ↓view_ite, ↓State.eachBay_view, ite_self, implies_true, ↓State.modRec_view (q := Parts.others { img := true, recorder := true }) (by decide), ↓State.complete_view, ↓State.ringCommand_view (q := Parts.others { img := true, recorder := true }) (by decide)]

theorem execRecStartEffect_view {q : Parts} (hq : q.apart { time := true, recorder := true } = true) (b : BayNo) (s0 : State) : Out.view q (execRecStartEffect b s0) = some (s0.view q) := by
  refine out_view_of { time := true, recorder := true } hq ?_
  simp only [execRecStartEffect]
  repeat' split
  all_goals simp only [↓out_view_next, ↓State.reach_view (q := Parts.others { time := true, recorder := true }) (by decide), ↓State.beginSession_view (q := Parts.others { time := true, recorder := true }) (by decide)]

theorem execRecStop_view {q : Parts} (hq : q.apart { img := true, recorder := true } = true) (tag : Word) (mask : BitVec 8) (t : Stamp) (s : State) : Out.view q (execRecStop tag mask t s) = some (s.view q) := by
  refine out_view_of { img := true, recorder := true } hq ?_
  simp only [execRecStop, ↓view_ite, ↓State.eachBay_view, ite_self, implies_true, ↓State.modRec_view (q := Parts.others { img := true, recorder := true }) (by decide), ↓State.complete_view, ↓State.ringCommand_view (q := Parts.others { img := true, recorder := true }) (by decide)]

theorem State.stopRecording_view {q : Parts} (hq : q.apart { recorder := true } = true) (s : State) (b : BayNo) : (State.stopRecording s b).view q = s.view q := by
  refine view_of { recorder := true } hq ?_
  simp only [State.stopRecording]
  repeat' split
  all_goals simp only [↓State.modRec_view (q := Parts.others { recorder := true }) (by decide), ↓State.endRegions_view (q := Parts.others { recorder := true }) (by decide)]

theorem execRecStopEffect_view {q : Parts} (hq : q.apart { time := true, recorder := true } = true) (b : BayNo) (s0 : State) : Out.view q (execRecStopEffect b s0) = some (s0.view q) := by
  refine out_view_of { time := true, recorder := true } hq ?_
  simp only [execRecStopEffect]
  repeat' split
  all_goals simp only [↓out_view_next, ↓State.reach_view (q := Parts.others { time := true, recorder := true }) (by decide), ↓State.modRec_view (q := Parts.others { time := true, recorder := true }) (by decide), ↓State.stopRecording_view (q := Parts.others { time := true, recorder := true }) (by decide)]

theorem execRecStopDone_view {q : Parts} (hq : q.apart { recorder := true } = true) (b : BayNo) (s : State) : Out.view q (execRecStopDone b s) = some (s.view q) := by
  refine out_view_of { recorder := true } hq ?_
  simp only [execRecStopDone, ↓out_view_ite, ↓out_view_next, ite_self, ↓State.modRec_view (q := Parts.others { recorder := true }) (by decide), ↓State.event_view, ↓State.relabel_view (q := Parts.others { recorder := true }) (by decide)]

theorem execRecSyncTimer_view {q : Parts} (hq : q.apart { time := true, recorder := true } = true) (b : BayNo) (s0 : State) : Out.view q (execRecSyncTimer b s0) = some (s0.view q) := by
  refine out_view_of { time := true, recorder := true } hq ?_
  simp only [execRecSyncTimer]
  repeat' split
  all_goals simp only [↓out_view_next, ↓State.reach_view (q := Parts.others { time := true, recorder := true }) (by decide), ↓State.modRec_view (q := Parts.others { time := true, recorder := true }) (by decide)]

theorem execRecFreezeReleaseOne_view {q : Parts} (hq : q.apart { domains := true, recorder := true } = true) (b : BayNo) (i : Fin 64) (s : State) : Out.view q (execRecFreezeReleaseOne b i s) = some (s.view q) := by
  refine out_view_of { domains := true, recorder := true } hq ?_
  simp only [execRecFreezeReleaseOne, ↓out_view_ite, ↓out_view_next, ite_self, ↓State.modRec_view (q := Parts.others { domains := true, recorder := true }) (by decide), ↓State.fencedAccess_view (q := Parts.others { domains := true, recorder := true }) (by decide)]

theorem execRecFreezeReleaseAll_view {q : Parts} (hq : q.apart { domains := true, recorder := true } = true) (b : BayNo) (s : State) : Out.view q (execRecFreezeReleaseAll b s) = some (s.view q) := by
  refine out_view_of { domains := true, recorder := true } hq ?_
  simp only [execRecFreezeReleaseAll, ↓out_view_ite, ↓out_view_next, ite_self, ↓State.modRec_view (q := Parts.others { domains := true, recorder := true }) (by decide), ↓State.fencedAccess_view (q := Parts.others { domains := true, recorder := true }) (by decide)]

theorem execReplay_view {q : Parts} (hq : q.apart { img := true, units := true, ddc := true, xfm := true, den := true, recorder := true, jes := true } = true) (tag : Word) (b : BayNo) (target : BitVec 2) (stop : Bool) (lo hi : Stamp) (source typ : BitVec 8) (s : State) : Out.view q (execReplay tag b target stop lo hi source typ s) = some (s.view q) := by
  refine out_view_of { img := true, units := true, ddc := true, xfm := true, den := true, recorder := true, jes := true } hq ?_
  simp only [execReplay, ↓view_ite, ite_self, implies_true, ↓State.modRec_view (q := Parts.others { img := true, units := true, ddc := true, xfm := true, den := true, recorder := true, jes := true }) (by decide), ↓State.complete_view, ↓State.ringCommand_view (q := Parts.others { img := true, units := true, ddc := true, xfm := true, den := true, recorder := true, jes := true }) (by decide), ↓State.endReplay_view (q := Parts.others { img := true, units := true, ddc := true, xfm := true, den := true, recorder := true, jes := true }) (by decide)]

theorem State.replayPast_view {q : Parts} (hq : q.apart { recorder := true } = true) (s : State) (b : BayNo) (e : LogRec) (delivered : Bool) : (State.replayPast s b e delivered).view q = s.view q := by
  refine view_of { recorder := true } hq ?_
  simp only [State.replayPast, ↓State.modRec_view (q := Parts.others { recorder := true }) (by decide)]

theorem State.replayMarks_view {q : Parts} (hq : q.apart { ddc := true } = true) (s : State) (b : BayNo) (p : Port) (r : Rec) : (State.replayMarks s b p r).view q = s.view q := by
  refine view_of { ddc := true } hq ?_
  simp only [State.replayMarks, ↓view_ite, ite_self, ↓State.modPort_view (q := Parts.others { ddc := true }) (by decide)]

theorem State.recordedBoundary_view {q : Parts} (hq : q.apart { xfm := true, den := true, recorder := true } = true) (s : State) (b : BayNo) (p : Port) (e : LogRec) : (State.recordedBoundary s b p e).view q = s.view q := by
  refine view_of { xfm := true, den := true, recorder := true } hq ?_
  simp only [State.recordedBoundary]
  repeat' split
  all_goals simp only [↓view_ite, ↓foldl_view, ite_self, implies_true, ↓State.denBoundary_view (q := Parts.others { xfm := true, den := true, recorder := true }) (by decide), ↓State.traceBoundary_view (q := Parts.others { xfm := true, den := true, recorder := true }) (by decide), ↓State.modRec_view (q := Parts.others { xfm := true, den := true, recorder := true }) (by decide)]

theorem State.replayToPort_view {q : Parts} (hq : q.apart { vals := true, img := true, tbs := true, keeper := true, time := true, units := true, afe := true, adc := true, ddc := true, xfm := true, den := true, mco := true, recorder := true, lne := true, jes := true, cal := true, hkc := true, aux := true, mon := true } = true) (s0 : State) (b : BayNo) (x : Nat) (e : LogRec) : (State.replayToPort s0 b x e).view q = s0.view q := by
  refine view_of { vals := true, img := true, tbs := true, keeper := true, time := true, units := true, afe := true, adc := true, ddc := true, xfm := true, den := true, mco := true, recorder := true, lne := true, jes := true, cal := true, hkc := true, aux := true, mon := true } hq ?_
  simp only [State.replayToPort, ↓view_ite, ite_self, ↓State.modRec_view (q := Parts.others { vals := true, img := true, tbs := true, keeper := true, time := true, units := true, afe := true, adc := true, ddc := true, xfm := true, den := true, mco := true, recorder := true, lne := true, jes := true, cal := true, hkc := true, aux := true, mon := true }) (by decide), ↓State.stopStream_view (q := Parts.others { vals := true, img := true, tbs := true, keeper := true, time := true, units := true, afe := true, adc := true, ddc := true, xfm := true, den := true, mco := true, recorder := true, lne := true, jes := true, cal := true, hkc := true, aux := true, mon := true }) (by decide), ↓State.resumeStream_view (q := Parts.others { vals := true, img := true, tbs := true, keeper := true, time := true, units := true, afe := true, adc := true, ddc := true, xfm := true, den := true, mco := true, recorder := true, lne := true, jes := true, cal := true, hkc := true, aux := true, mon := true }) (by decide), ↓State.endReplay_view (q := Parts.others { vals := true, img := true, tbs := true, keeper := true, time := true, units := true, afe := true, adc := true, ddc := true, xfm := true, den := true, mco := true, recorder := true, lne := true, jes := true, cal := true, hkc := true, aux := true, mon := true }) (by decide), ↓State.replayPast_view (q := Parts.others { vals := true, img := true, tbs := true, keeper := true, time := true, units := true, afe := true, adc := true, ddc := true, xfm := true, den := true, mco := true, recorder := true, lne := true, jes := true, cal := true, hkc := true, aux := true, mon := true }) (by decide), ↓State.replayMarks_view (q := Parts.others { vals := true, img := true, tbs := true, keeper := true, time := true, units := true, afe := true, adc := true, ddc := true, xfm := true, den := true, mco := true, recorder := true, lne := true, jes := true, cal := true, hkc := true, aux := true, mon := true }) (by decide), ↓State.recordedBoundary_view (q := Parts.others { vals := true, img := true, tbs := true, keeper := true, time := true, units := true, afe := true, adc := true, ddc := true, xfm := true, den := true, mco := true, recorder := true, lne := true, jes := true, cal := true, hkc := true, aux := true, mon := true }) (by decide)]

theorem State.replaySkip_view {q : Parts} (hq : q.apart { recorder := true } = true) (s : State) (b : BayNo) (r : Replay) : (State.replaySkip s b r).view q = s.view q := by
  refine view_of { recorder := true } hq ?_
  simp only [State.replaySkip]
  repeat' split
  all_goals simp only [↓State.modRec_view (q := Parts.others { recorder := true }) (by decide), ↓State.event_view]

theorem execReplayDeliver_view {q : Parts} (hq : q.apart { vals := true, img := true, tbs := true, keeper := true, time := true, units := true, afe := true, adc := true, ddc := true, xfm := true, den := true, mco := true, recorder := true, lne := true, jes := true, cal := true, hkc := true, aux := true, mon := true } = true) (b : BayNo) (fault : Fin 4) (s0 : State) : Out.view q (execReplayDeliver b fault s0) = some (s0.view q) := by
  refine out_view_of { vals := true, img := true, tbs := true, keeper := true, time := true, units := true, afe := true, adc := true, ddc := true, xfm := true, den := true, mco := true, recorder := true, lne := true, jes := true, cal := true, hkc := true, aux := true, mon := true } hq ?_
  simp only [execReplayDeliver]
  repeat' split
  all_goals simp only [↓out_view_next, ↓State.modRec_view (q := Parts.others { vals := true, img := true, tbs := true, keeper := true, time := true, units := true, afe := true, adc := true, ddc := true, xfm := true, den := true, mco := true, recorder := true, lne := true, jes := true, cal := true, hkc := true, aux := true, mon := true }) (by decide), ↓State.queueEvents_view, ↓State.arrive_view, ↓State.endReplay_view (q := Parts.others { vals := true, img := true, tbs := true, keeper := true, time := true, units := true, afe := true, adc := true, ddc := true, xfm := true, den := true, mco := true, recorder := true, lne := true, jes := true, cal := true, hkc := true, aux := true, mon := true }) (by decide), ↓State.replayPast_view (q := Parts.others { vals := true, img := true, tbs := true, keeper := true, time := true, units := true, afe := true, adc := true, ddc := true, xfm := true, den := true, mco := true, recorder := true, lne := true, jes := true, cal := true, hkc := true, aux := true, mon := true }) (by decide), ↓State.replayToPort_view (q := Parts.others { vals := true, img := true, tbs := true, keeper := true, time := true, units := true, afe := true, adc := true, ddc := true, xfm := true, den := true, mco := true, recorder := true, lne := true, jes := true, cal := true, hkc := true, aux := true, mon := true }) (by decide), ↓State.replaySkip_view (q := Parts.others { vals := true, img := true, tbs := true, keeper := true, time := true, units := true, afe := true, adc := true, ddc := true, xfm := true, den := true, mco := true, recorder := true, lne := true, jes := true, cal := true, hkc := true, aux := true, mon := true }) (by decide)]

theorem execReplayStall_view {q : Parts} (hq : q.apart { units := true, ddc := true, xfm := true, den := true, recorder := true, jes := true } = true) (b : BayNo) (t : Stamp) (s : State) : Out.view q (execReplayStall b t s) = some (s.view q) := by
  refine out_view_of { units := true, ddc := true, xfm := true, den := true, recorder := true, jes := true } hq ?_
  simp only [execReplayStall]
  repeat' split
  all_goals simp only [↓out_view_next, ↓State.modRec_view (q := Parts.others { units := true, ddc := true, xfm := true, den := true, recorder := true, jes := true }) (by decide), ↓State.stopStream_view (q := Parts.others { units := true, ddc := true, xfm := true, den := true, recorder := true, jes := true }) (by decide)]

theorem execReplayResume_view {q : Parts} (hq : q.apart { vals := true, img := true, tbs := true, keeper := true, time := true, units := true, afe := true, adc := true, ddc := true, xfm := true, den := true, mco := true, recorder := true, lne := true, cal := true, hkc := true, aux := true, mon := true } = true) (b : BayNo) (t : Stamp) (s : State) : Out.view q (execReplayResume b t s) = some (s.view q) := by
  refine out_view_of { vals := true, img := true, tbs := true, keeper := true, time := true, units := true, afe := true, adc := true, ddc := true, xfm := true, den := true, mco := true, recorder := true, lne := true, cal := true, hkc := true, aux := true, mon := true } hq ?_
  simp only [execReplayResume]
  repeat' split
  all_goals simp only [↓out_view_next, ↓State.modRec_view (q := Parts.others { vals := true, img := true, tbs := true, keeper := true, time := true, units := true, afe := true, adc := true, ddc := true, xfm := true, den := true, mco := true, recorder := true, lne := true, cal := true, hkc := true, aux := true, mon := true }) (by decide), ↓State.resumeStream_view (q := Parts.others { vals := true, img := true, tbs := true, keeper := true, time := true, units := true, afe := true, adc := true, ddc := true, xfm := true, den := true, mco := true, recorder := true, lne := true, cal := true, hkc := true, aux := true, mon := true }) (by decide)]

theorem State.recPowerLoss_view {q : Parts} (hq : q.apart { recorder := true } = true) (s : State) (b : BayNo) : (State.recPowerLoss s b).view q = s.view q := by
  refine view_of { recorder := true } hq ?_
  simp only [State.recPowerLoss]
  repeat' split
  all_goals simp only [↓State.modRec_view (q := Parts.others { recorder := true }) (by decide), ↓State.takeFree_view]

end Sys2Proof.Machine
end

