-- ==== Sys2Proof/Laws/View/Pwr.lean ====
section
/-! SUPPORT. Which parts the operations of Machine/Pwr.lean leave as they were. -/
namespace Sys2Proof.Machine

theorem State.denStart_view {q : Parts} (hq : q.apart { den := true } = true) (s : State) (b : BayNo) (x : Fin 2) (t : Stamp) : (State.denStart s b x t).view q = s.view q := by
  refine view_of { den := true } hq ?_
  simp only [State.denStart, ↓State.modDen_view (q := Parts.others { den := true }) (by decide)]

theorem State.resumeAll_view {q : Parts} (hq : q.apart { vals := true, img := true, tbs := true, keeper := true, time := true, units := true, afe := true, adc := true, ddc := true, xfm := true, den := true, mco := true, lne := true, cal := true, hkc := true, aux := true, mon := true } = true) (s : State) (t : Stamp) : (State.resumeAll s t).view q = s.view q := by
  refine view_of { vals := true, img := true, tbs := true, keeper := true, time := true, units := true, afe := true, adc := true, ddc := true, xfm := true, den := true, mco := true, lne := true, cal := true, hkc := true, aux := true, mon := true } hq ?_
  simp only [State.resumeAll, ↓foldl_view, ↓State.eachBay_view, implies_true, ↓State.resumeBay_view (q := Parts.others { vals := true, img := true, tbs := true, keeper := true, time := true, units := true, afe := true, adc := true, ddc := true, xfm := true, den := true, mco := true, lne := true, cal := true, hkc := true, aux := true, mon := true }) (by decide), ↓State.runRotations_view (q := Parts.others { vals := true, img := true, tbs := true, keeper := true, time := true, units := true, afe := true, adc := true, ddc := true, xfm := true, den := true, mco := true, lne := true, cal := true, hkc := true, aux := true, mon := true }) (by decide), ↓State.denStart_view (q := Parts.others { vals := true, img := true, tbs := true, keeper := true, time := true, units := true, afe := true, adc := true, ddc := true, xfm := true, den := true, mco := true, lne := true, cal := true, hkc := true, aux := true, mon := true }) (by decide)]

theorem State.abandonEntry_view {q : Parts} (hq : q.apart { vals := true, img := true, tbs := true, keeper := true, pwr := true, time := true, units := true, afe := true, adc := true, ddc := true, xfm := true, den := true, mco := true, lne := true, cal := true, hkc := true, aux := true, mon := true } = true) (s : State) : (State.abandonEntry s).view q = s.view q := by
  refine view_of { vals := true, img := true, tbs := true, keeper := true, pwr := true, time := true, units := true, afe := true, adc := true, ddc := true, xfm := true, den := true, mco := true, lne := true, cal := true, hkc := true, aux := true, mon := true } hq ?_
  simp only [State.abandonEntry, ↓State.modPwr_view (q := Parts.others { vals := true, img := true, tbs := true, keeper := true, pwr := true, time := true, units := true, afe := true, adc := true, ddc := true, xfm := true, den := true, mco := true, lne := true, cal := true, hkc := true, aux := true, mon := true }) (by decide), ↓State.resumeAll_view (q := Parts.others { vals := true, img := true, tbs := true, keeper := true, pwr := true, time := true, units := true, afe := true, adc := true, ddc := true, xfm := true, den := true, mco := true, lne := true, cal := true, hkc := true, aux := true, mon := true }) (by decide)]

theorem State.refusePwr_view {q : Parts} (hq : q.apart { pwr := true } = true) (s : State) (cause : Nat) : (State.refusePwr s cause).view q = s.view q := by
  refine view_of { pwr := true } hq ?_
  simp only [State.refusePwr, ↓State.modPwr_view (q := Parts.others { pwr := true }) (by decide), ↓State.event_view]

theorem State.requestPwr_view {q : Parts} (hq : q.apart { pwr := true } = true) (s : State) (watch : Bool) : (State.requestPwr s watch).view q = s.view q := by
  refine view_of { pwr := true } hq ?_
  simp only [State.requestPwr]
  repeat' split
  all_goals simp only [↓State.modPwr_view (q := Parts.others { pwr := true }) (by decide), ↓State.emit_view, ↓State.refusePwr_view (q := Parts.others { pwr := true }) (by decide)]

theorem execPwrReqWatch_view {q : Parts} (hq : q.apart { pwr := true } = true) (svc : Bool) (s : State) : Out.view q (execPwrReqWatch svc s) = some (s.view q) := by
  refine out_view_of { pwr := true } hq ?_
  simp only [execPwrReqWatch, ↓out_view_ite, ↓out_view_next, ite_self, ↓State.requestPwr_view (q := Parts.others { pwr := true }) (by decide)]

theorem execPwrReqStandby_view {q : Parts} (hq : q.apart { pwr := true } = true) (svc : Bool) (s : State) : Out.view q (execPwrReqStandby svc s) = some (s.view q) := by
  refine out_view_of { pwr := true } hq ?_
  simp only [execPwrReqStandby, ↓out_view_ite, ↓out_view_next, ite_self, ↓State.requestPwr_view (q := Parts.others { pwr := true }) (by decide)]

theorem State.pwrStart_view {q : Parts} (hq : q.apart { pwr := true } = true) (s : State) : (State.pwrStart s).view q = s.view q := by
  refine view_of { pwr := true } hq ?_
  simp only [State.pwrStart]
  repeat' split
  all_goals simp only [↓State.requestPwr_view (q := Parts.others { pwr := true }) (by decide)]

theorem State.cancelWaiting_view {q : Parts} (hq : q.apart { trg := true, recorder := true } = true) (s : State) : s.cancelWaiting.view q = s.view q := by
  refine view_of { trg := true, recorder := true } hq ?_
  unfold State.cancelWaiting
  refine (foldl_view _ _ (fun s g => State.complete_view ..) _ _).trans ?_
  refine (State.eachBay_view _ _ (fun s b => State.modRec_view (q := Parts.others { trg := true, recorder := true }) (by decide) ..) _ _).trans ?_
  refine (foldl_view _ _ (fun s o => ?_) _ _).trans (State.modTrg_view (q := Parts.others { trg := true, recorder := true }) (by decide) ..)
  split
  · exact State.complete_view ..
  · rfl

theorem State.stopForPower_view {q : Parts} (hq : q.apart { units := true, afe := true, adc := true, ddc := true, xfm := true, den := true, cal := true } = true) (s : State) (t : Stamp) : (State.stopForPower s t).view q = s.view q := by
  refine view_of { units := true, afe := true, adc := true, ddc := true, xfm := true, den := true, cal := true } hq ?_
  simp only [State.stopForPower, ↓view_ite, ↓foldl_view, ↓State.eachBay_view, ite_self, implies_true, ↓State.stopPort_view (q := Parts.others { units := true, afe := true, adc := true, ddc := true, xfm := true, den := true, cal := true }) (by decide), ↓State.calAbandonBay_view (q := Parts.others { units := true, afe := true, adc := true, ddc := true, xfm := true, den := true, cal := true }) (by decide), ↓State.runRotations_view (q := Parts.others { units := true, afe := true, adc := true, ddc := true, xfm := true, den := true, cal := true }) (by decide)]

theorem execPwrEntryStart_view {q : Parts} (hq : q.apart { pwr := true, trg := true, time := true, domains := true, units := true, afe := true, adc := true, ddc := true, xfm := true, den := true, recorder := true, cal := true } = true) (leader : Option Bool) (s0 : State) : Out.view q (execPwrEntryStart leader s0) = some (s0.view q) := by
  refine out_view_of { pwr := true, trg := true, time := true, domains := true, units := true, afe := true, adc := true, ddc := true, xfm := true, den := true, recorder := true, cal := true } hq ?_
  simp only [execPwrEntryStart]
  repeat' split
  all_goals simp only [↓out_view_next, ↓State.eachBay_view, implies_true, ↓State.modPwr_view (q := Parts.others { pwr := true, trg := true, time := true, domains := true, units := true, afe := true, adc := true, ddc := true, xfm := true, den := true, recorder := true, cal := true }) (by decide), ↓State.reach_view (q := Parts.others { pwr := true, trg := true, time := true, domains := true, units := true, afe := true, adc := true, ddc := true, xfm := true, den := true, recorder := true, cal := true }) (by decide), ↓State.modDom_view (q := Parts.others { pwr := true, trg := true, time := true, domains := true, units := true, afe := true, adc := true, ddc := true, xfm := true, den := true, recorder := true, cal := true }) (by decide), ↓State.cancelWaiting_view (q := Parts.others { pwr := true, trg := true, time := true, domains := true, units := true, afe := true, adc := true, ddc := true, xfm := true, den := true, recorder := true, cal := true }) (by decide), ↓State.stopForPower_view (q := Parts.others { pwr := true, trg := true, time := true, domains := true, units := true, afe := true, adc := true, ddc := true, xfm := true, den := true, recorder := true, cal := true }) (by decide)]

theorem execPwrQueuesDrained_view {q : Parts} (hq : q.apart { pwr := true } = true) (s : State) : Out.view q (execPwrQueuesDrained s) = some (s.view q) := by
  refine out_view_of { pwr := true } hq ?_
  simp only [execPwrQueuesDrained]
  repeat' split
  all_goals simp only [↓out_view_next, ↓State.modPwr_view (q := Parts.others { pwr := true }) (by decide)]

theorem execPwrDrainTimeout_view {q : Parts} (hq : q.apart { vals := true, img := true, tbs := true, keeper := true, pwr := true, time := true, units := true, afe := true, adc := true, ddc := true, xfm := true, den := true, mco := true, lne := true, cal := true, hkc := true, aux := true, mon := true } = true) (s0 : State) : Out.view q (execPwrDrainTimeout s0) = some (s0.view q) := by
  refine out_view_of { vals := true, img := true, tbs := true, keeper := true, pwr := true, time := true, units := true, afe := true, adc := true, ddc := true, xfm := true, den := true, mco := true, lne := true, cal := true, hkc := true, aux := true, mon := true } hq ?_
  simp only [execPwrDrainTimeout]
  repeat' split
  all_goals simp only [↓out_view_next, ↓State.reach_view (q := Parts.others { vals := true, img := true, tbs := true, keeper := true, pwr := true, time := true, units := true, afe := true, adc := true, ddc := true, xfm := true, den := true, mco := true, lne := true, cal := true, hkc := true, aux := true, mon := true }) (by decide), ↓State.abandonEntry_view (q := Parts.others { vals := true, img := true, tbs := true, keeper := true, pwr := true, time := true, units := true, afe := true, adc := true, ddc := true, xfm := true, den := true, mco := true, lne := true, cal := true, hkc := true, aux := true, mon := true }) (by decide), ↓State.refusePwr_view (q := Parts.others { vals := true, img := true, tbs := true, keeper := true, pwr := true, time := true, units := true, afe := true, adc := true, ddc := true, xfm := true, den := true, mco := true, lne := true, cal := true, hkc := true, aux := true, mon := true }) (by decide)]

theorem State.portsOff_view {q : Parts} (hq : q.apart { img := true, eth := true, dma := true, domains := true, ddc := true, recorder := true, lne := true, pci := true, ports := true } = true) (s : State) (b : BayNo) : (State.portsOff s b).view q = s.view q := by
  refine view_of { img := true, eth := true, dma := true, domains := true, ddc := true, recorder := true, lne := true, pci := true, ports := true } hq ?_
  simp only [State.portsOff, ↓view_ite, ↓foldl_view, ite_self, implies_true, ↓State.modImg_view (q := Parts.others { img := true, eth := true, dma := true, domains := true, ddc := true, recorder := true, lne := true, pci := true, ports := true }) (by decide), ↓State.modPort_view (q := Parts.others { img := true, eth := true, dma := true, domains := true, ddc := true, recorder := true, lne := true, pci := true, ports := true }) (by decide), ↓State.modRec_view (q := Parts.others { img := true, eth := true, dma := true, domains := true, ddc := true, recorder := true, lne := true, pci := true, ports := true }) (by decide), ↓State.pcieDown_view (q := Parts.others { img := true, eth := true, dma := true, domains := true, ddc := true, recorder := true, lne := true, pci := true, ports := true }) (by decide), ↓State.modEth_view (q := Parts.others { img := true, eth := true, dma := true, domains := true, ddc := true, recorder := true, lne := true, pci := true, ports := true }) (by decide), ↓State.modDom_view (q := Parts.others { img := true, eth := true, dma := true, domains := true, ddc := true, recorder := true, lne := true, pci := true, ports := true }) (by decide), ↓State.ethDown_view (q := Parts.others { img := true, eth := true, dma := true, domains := true, ddc := true, recorder := true, lne := true, pci := true, ports := true }) (by decide)]

theorem State.datapathOff_view {q : Parts} (hq : q.apart { domains := true, units := true, den := true } = true) (s : State) (b : BayNo) : (State.datapathOff s b).view q = s.view q := by
  refine view_of { domains := true, units := true, den := true } hq ?_
  unfold State.datapathOff
  try dsimp only
  repeat' (first | rfl | with_reducible (first | rfl | refine next_view ?_ | exact State.modBay_view _ _ _ _ (fun _ => rfl) | exact State.modSeal_view _ _ _ rfl | refine (State.modSeal_view _ _ _ rfl).trans ?_ | refine (State.modSeal_free (by decide) (by decide) ..).trans ?_ | refine (State.modDen_view (q := Parts.others { domains := true, units := true, den := true }) (by decide) ..).trans ?_ | refine (State.modDom_view (q := Parts.others { domains := true, units := true, den := true }) (by decide) ..).trans ?_) | (refine (State.modBay_view _ _ _ _ ?hb).trans ?_; case hb => exact fun _ => rfl) | split | (refine foldl_view _ _ (fun _ _ => ?_) _ _; try dsimp only) | (refine (foldl_view _ _ (fun _ _ => ?_) _ _).trans ?_; try dsimp only) | (refine (State.eachBay_view _ _ (fun _ _ => ?_) _ _).trans ?_; try dsimp only))

theorem State.domainOff_view {q : Parts} (hq : q.apart { img := true, eth := true, clk := true, dma := true, domains := true, units := true, ddc := true, den := true, scn := true, recorder := true, lne := true, pci := true, ports := true } = true) (s0 : State) (b : BayNo) (d : Domain) : (State.domainOff s0 b d).view q = s0.view q := by
  refine view_of { img := true, eth := true, clk := true, dma := true, domains := true, units := true, ddc := true, den := true, scn := true, recorder := true, lne := true, pci := true, ports := true } hq ?_
  simp only [State.domainOff]
  repeat' split
  all_goals simp only [↓State.modScn_view (q := Parts.others { img := true, eth := true, clk := true, dma := true, domains := true, units := true, ddc := true, den := true, scn := true, recorder := true, lne := true, pci := true, ports := true }) (by decide), ↓State.modClk_view (q := Parts.others { img := true, eth := true, clk := true, dma := true, domains := true, units := true, ddc := true, den := true, scn := true, recorder := true, lne := true, pci := true, ports := true }) (by decide), ↓State.quadOff_view (vp := Parts.others { img := true, eth := true, clk := true, dma := true, domains := true, units := true, ddc := true, den := true, scn := true, recorder := true, lne := true, pci := true, ports := true }) (by decide), ↓State.modDom_view (q := Parts.others { img := true, eth := true, clk := true, dma := true, domains := true, units := true, ddc := true, den := true, scn := true, recorder := true, lne := true, pci := true, ports := true }) (by decide), ↓State.portsOff_view (q := Parts.others { img := true, eth := true, clk := true, dma := true, domains := true, units := true, ddc := true, den := true, scn := true, recorder := true, lne := true, pci := true, ports := true }) (by decide), ↓State.datapathOff_view (q := Parts.others { img := true, eth := true, clk := true, dma := true, domains := true, units := true, ddc := true, den := true, scn := true, recorder := true, lne := true, pci := true, ports := true }) (by decide)]

theorem State.beginFlood_view {q : Parts} (hq : q.apart { pwr := true } = true) (s : State) : (State.beginFlood s).view q = s.view q := by
  refine view_of { pwr := true } hq ?_
  simp only [State.beginFlood, ↓State.modPwr_view (q := Parts.others { pwr := true }) (by decide)]

theorem State.beginWatch_view {q : Parts} (hq : q.apart { domains := true, adc := true } = true) (s : State) (b : BayNo) : (State.beginWatch s b).view q = s.view q := by
  refine view_of { domains := true, adc := true } hq ?_
  simp only [State.beginWatch, ↓State.modAdc_view (q := Parts.others { domains := true, adc := true }) (by decide), ↓State.modDom_view (q := Parts.others { domains := true, adc := true }) (by decide)]

theorem State.reachState_view {q : Parts} (hq : q.apart { img := true, pwr := true, trg := true, domains := true, adc := true } = true) (s : State) (target : PowerState) (tE : Stamp) : (State.reachState s target tE).view q = s.view q := by
  refine view_of { img := true, pwr := true, trg := true, domains := true, adc := true } hq ?_
  simp only [State.reachState, ↓view_ite, ↓State.eachBay_view, ite_self, implies_true, ↓State.modImg_view (q := Parts.others { img := true, pwr := true, trg := true, domains := true, adc := true }) (by decide), ↓State.modPwr_view (q := Parts.others { img := true, pwr := true, trg := true, domains := true, adc := true }) (by decide), ↓State.outsLow_view (q := Parts.others { img := true, pwr := true, trg := true, domains := true, adc := true }) (by decide), ↓State.event_view, ↓State.beginFlood_view (q := Parts.others { img := true, pwr := true, trg := true, domains := true, adc := true }) (by decide), ↓State.beginWatch_view (q := Parts.others { img := true, pwr := true, trg := true, domains := true, adc := true }) (by decide)]

theorem execDomainEbbDone_view {q : Parts} (hq : q.apart { img := true, pwr := true, trg := true, eth := true, clk := true, dma := true, domains := true, units := true, adc := true, ddc := true, den := true, scn := true, recorder := true, lne := true, pci := true, ports := true } = true) (b : BayNo) (d : Domain) (s : State) : Out.view q (execDomainEbbDone b d s) = some (s.view q) := by
  refine out_view_of { img := true, pwr := true, trg := true, eth := true, clk := true, dma := true, domains := true, units := true, adc := true, ddc := true, den := true, scn := true, recorder := true, lne := true, pci := true, ports := true } hq ?_
  simp only [execDomainEbbDone]
  repeat' split
  all_goals simp only [↓out_view_next, ↓State.domainOff_view (q := Parts.others { img := true, pwr := true, trg := true, eth := true, clk := true, dma := true, domains := true, units := true, adc := true, ddc := true, den := true, scn := true, recorder := true, lne := true, pci := true, ports := true }) (by decide), ↓State.reachState_view (q := Parts.others { img := true, pwr := true, trg := true, eth := true, clk := true, dma := true, domains := true, units := true, adc := true, ddc := true, den := true, scn := true, recorder := true, lne := true, pci := true, ports := true }) (by decide)]

theorem State.wake_view {q : Parts} (hq : q.apart { vals := true, img := true, tbs := true, keeper := true, pwr := true, ident := true, time := true, units := true, afe := true, adc := true, ddc := true, xfm := true, den := true, mco := true, lne := true, cal := true, hkc := true, aux := true, mon := true } = true) (s : State) (cause : Nat) (b : BayNo) : (State.wake s cause b).view q = s.view q := by
  refine view_of { vals := true, img := true, tbs := true, keeper := true, pwr := true, ident := true, time := true, units := true, afe := true, adc := true, ddc := true, xfm := true, den := true, mco := true, lne := true, cal := true, hkc := true, aux := true, mon := true } hq ?_
  simp only [State.wake]
  repeat' split
  all_goals simp only [↓State.modPwr_view (q := Parts.others { vals := true, img := true, tbs := true, keeper := true, pwr := true, ident := true, time := true, units := true, afe := true, adc := true, ddc := true, xfm := true, den := true, mco := true, lne := true, cal := true, hkc := true, aux := true, mon := true }) (by decide), ↓State.alert_view (q := Parts.others { vals := true, img := true, tbs := true, keeper := true, pwr := true, ident := true, time := true, units := true, afe := true, adc := true, ddc := true, xfm := true, den := true, mco := true, lne := true, cal := true, hkc := true, aux := true, mon := true }) (by decide), ↓State.event_view, ↓State.emit_view, ↓State.abandonEntry_view (q := Parts.others { vals := true, img := true, tbs := true, keeper := true, pwr := true, ident := true, time := true, units := true, afe := true, adc := true, ddc := true, xfm := true, den := true, mco := true, lne := true, cal := true, hkc := true, aux := true, mon := true }) (by decide), ↓State.beginFlood_view (q := Parts.others { vals := true, img := true, tbs := true, keeper := true, pwr := true, ident := true, time := true, units := true, afe := true, adc := true, ddc := true, xfm := true, den := true, mco := true, lne := true, cal := true, hkc := true, aux := true, mon := true }) (by decide)]

theorem execPwrReqWake_view {q : Parts} (hq : q.apart { vals := true, img := true, tbs := true, keeper := true, pwr := true, ident := true, time := true, units := true, afe := true, adc := true, ddc := true, xfm := true, den := true, mco := true, lne := true, cal := true, hkc := true, aux := true, mon := true } = true) (remote : Option (Fin 5 × BayNo)) (s : State) : Out.view q (execPwrReqWake remote s) = some (s.view q) := by
  refine out_view_of { vals := true, img := true, tbs := true, keeper := true, pwr := true, ident := true, time := true, units := true, afe := true, adc := true, ddc := true, xfm := true, den := true, mco := true, lne := true, cal := true, hkc := true, aux := true, mon := true } hq ?_
  simp only [execPwrReqWake]
  repeat' split
  all_goals simp only [↓out_view_next, ↓State.wake_view (q := Parts.others { vals := true, img := true, tbs := true, keeper := true, pwr := true, ident := true, time := true, units := true, afe := true, adc := true, ddc := true, xfm := true, den := true, mco := true, lne := true, cal := true, hkc := true, aux := true, mon := true }) (by decide)]

theorem execWakeInRise_view {q : Parts} (hq : q.apart { vals := true, img := true, tbs := true, keeper := true, pwr := true, ident := true, time := true, units := true, afe := true, adc := true, ddc := true, xfm := true, den := true, mco := true, lne := true, cal := true, hkc := true, aux := true, mon := true } = true) (s : State) : Out.view q (execWakeInRise s) = some (s.view q) := by
  refine out_view_of { vals := true, img := true, tbs := true, keeper := true, pwr := true, ident := true, time := true, units := true, afe := true, adc := true, ddc := true, xfm := true, den := true, mco := true, lne := true, cal := true, hkc := true, aux := true, mon := true } hq ?_
  simp only [execWakeInRise, ↓out_view_ite, ↓out_view_next, ite_self, ↓State.wake_view (q := Parts.others { vals := true, img := true, tbs := true, keeper := true, pwr := true, ident := true, time := true, units := true, afe := true, adc := true, ddc := true, xfm := true, den := true, mco := true, lne := true, cal := true, hkc := true, aux := true, mon := true }) (by decide)]

theorem execWakeComparator_view {q : Parts} (hq : q.apart { vals := true, img := true, tbs := true, keeper := true, pwr := true, ident := true, time := true, units := true, afe := true, adc := true, ddc := true, xfm := true, den := true, mco := true, lne := true, cal := true, hkc := true, aux := true, mon := true } = true) (b : BayNo) (i : Fin 2) (s : State) : Out.view q (execWakeComparator b i s) = some (s.view q) := by
  refine out_view_of { vals := true, img := true, tbs := true, keeper := true, pwr := true, ident := true, time := true, units := true, afe := true, adc := true, ddc := true, xfm := true, den := true, mco := true, lne := true, cal := true, hkc := true, aux := true, mon := true } hq ?_
  simp only [execWakeComparator, ↓out_view_ite, ↓out_view_next, ite_self, ↓State.wake_view (q := Parts.others { vals := true, img := true, tbs := true, keeper := true, pwr := true, ident := true, time := true, units := true, afe := true, adc := true, ddc := true, xfm := true, den := true, mco := true, lne := true, cal := true, hkc := true, aux := true, mon := true }) (by decide)]

theorem execRtcWake_view {q : Parts} (hq : q.apart { vals := true, img := true, tbs := true, keeper := true, pwr := true, ident := true, time := true, units := true, afe := true, adc := true, ddc := true, xfm := true, den := true, mco := true, lne := true, cal := true, hkc := true, aux := true, mon := true } = true) (s : State) : Out.view q (execRtcWake s) = some (s.view q) := by
  refine out_view_of { vals := true, img := true, tbs := true, keeper := true, pwr := true, ident := true, time := true, units := true, afe := true, adc := true, ddc := true, xfm := true, den := true, mco := true, lne := true, cal := true, hkc := true, aux := true, mon := true } hq ?_
  simp only [execRtcWake, ↓view_ite, ↓out_view_ite, ↓out_view_next, ite_self, ↓State.modIsland_view (q := Parts.others { vals := true, img := true, tbs := true, keeper := true, pwr := true, ident := true, time := true, units := true, afe := true, adc := true, ddc := true, xfm := true, den := true, mco := true, lne := true, cal := true, hkc := true, aux := true, mon := true }) (by decide), ↓State.wake_view (q := Parts.others { vals := true, img := true, tbs := true, keeper := true, pwr := true, ident := true, time := true, units := true, afe := true, adc := true, ddc := true, xfm := true, den := true, mco := true, lne := true, cal := true, hkc := true, aux := true, mon := true }) (by decide)]

theorem execWatchBlockDone_view {q : Parts} (hq : q.apart { vals := true, img := true, tbs := true, keeper := true, pwr := true, ident := true, time := true, domains := true, units := true, afe := true, adc := true, ddc := true, xfm := true, den := true, mco := true, lne := true, cal := true, hkc := true, aux := true, mon := true } = true) (b : BayNo) (sum : Nat) (s : State) : Out.view q (execWatchBlockDone b sum s) = some (s.view q) := by
  refine out_view_of { vals := true, img := true, tbs := true, keeper := true, pwr := true, ident := true, time := true, domains := true, units := true, afe := true, adc := true, ddc := true, xfm := true, den := true, mco := true, lne := true, cal := true, hkc := true, aux := true, mon := true } hq ?_
  simp only [execWatchBlockDone, ↓view_ite, ↓out_view_ite, ↓out_view_next, ite_self, ↓State.modDom_view (q := Parts.others { vals := true, img := true, tbs := true, keeper := true, pwr := true, ident := true, time := true, domains := true, units := true, afe := true, adc := true, ddc := true, xfm := true, den := true, mco := true, lne := true, cal := true, hkc := true, aux := true, mon := true }) (by decide), ↓State.wake_view (q := Parts.others { vals := true, img := true, tbs := true, keeper := true, pwr := true, ident := true, time := true, domains := true, units := true, afe := true, adc := true, ddc := true, xfm := true, den := true, mco := true, lne := true, cal := true, hkc := true, aux := true, mon := true }) (by decide)]

theorem execWatchPeakRead_view {q : Parts} (hq : q.apart { domains := true } = true) (b : BayNo) (s : State) : Out.view q (execWatchPeakRead b s) = some (s.view q) := by
  refine out_view_of { domains := true } hq ?_
  simp only [execWatchPeakRead, ↓out_view_ite, ↓out_view_next, ite_self, ↓State.modDom_view (q := Parts.others { domains := true }) (by decide)]

theorem execFloodSupervisorDone_view {q : Parts} (hq : q.apart { pwr := true, clk := true, time := true, domains := true } = true) (s : State) : Out.view q (execFloodSupervisorDone s) = some (s.view q) := by
  refine out_view_of { pwr := true, clk := true, time := true, domains := true } hq ?_
  unfold execFloodSupervisorDone
  try dsimp only
  repeat' (first | rfl | with_reducible (first | rfl | refine next_view ?_ | exact State.modBay_view _ _ _ _ (fun _ => rfl) | exact State.modSeal_view _ _ _ rfl | refine (State.modSeal_view _ _ _ rfl).trans ?_ | refine (State.modSeal_free (by decide) (by decide) ..).trans ?_ | refine (State.modPwr_view (q := Parts.others { pwr := true, clk := true, time := true, domains := true }) (by decide) ..).trans ?_ | refine (State.modClk_view (q := Parts.others { pwr := true, clk := true, time := true, domains := true }) (by decide) ..).trans ?_ | refine (State.modDom_view (q := Parts.others { pwr := true, clk := true, time := true, domains := true }) (by decide) ..).trans ?_) | (refine (State.modBay_view _ _ _ _ ?hb).trans ?_; case hb => exact fun _ => rfl) | split | (refine foldl_view _ _ (fun _ _ => ?_) _ _; try dsimp only) | (refine (foldl_view _ _ (fun _ _ => ?_) _ _).trans ?_; try dsimp only) | (refine (State.eachBay_view _ _ (fun _ _ => ?_) _ _).trans ?_; try dsimp only))

theorem State.powerDomains_view {q : Parts} (hq : q.apart { domains := true } = true) (s : State) (b : BayNo) : (State.powerDomains s b).view q = s.view q := by
  refine view_of { domains := true } hq ?_
  simp only [State.powerDomains, ↓State.modDom_view (q := Parts.others { domains := true }) (by decide)]

theorem State.powerQuads_view {q : Parts} (hq : q.apart { domains := true, lne := true } = true) (s : State) (b : BayNo) : (State.powerQuads s b).view q = s.view q := by
  refine view_of { domains := true, lne := true } hq ?_
  simp only [State.powerQuads, ↓view_ite, ↓foldl_view, ite_self, implies_true, ↓State.quadOn_view (vp := Parts.others { domains := true, lne := true }) (by decide)]

theorem State.floodBay_view {q : Parts} (hq : q.apart { domains := true, afe := true, adc := true, ddc := true, xfm := true, scn := true, recorder := true, jes := true, hkc := true } = true) (s : State) (b : BayNo) (t : Stamp) : (s.floodBay b t).view q = s.view q := by
  refine view_of { domains := true, afe := true, adc := true, ddc := true, xfm := true, scn := true, recorder := true, jes := true, hkc := true } hq ?_
  unfold State.floodBay
  extract_lets s0 s1 s2 s3
  have h0 : s0.view (Parts.others { domains := true, afe := true, adc := true, ddc := true, xfm := true, scn := true, recorder := true, jes := true, hkc := true }) = s.view (Parts.others { domains := true, afe := true, adc := true, ddc := true, xfm := true, scn := true, recorder := true, jes := true, hkc := true }) := by
    refine (State.powerDomains_view (q := Parts.others { domains := true, afe := true, adc := true, ddc := true, xfm := true, scn := true, recorder := true, jes := true, hkc := true }) (by decide) ..).trans ?_
    split
    · rfl
    · exact State.hkcStart_view (q := Parts.others { domains := true, afe := true, adc := true, ddc := true, xfm := true, scn := true, recorder := true, jes := true, hkc := true }) (by decide) ..
  clear_value s0
  have h1 : s1.view (Parts.others { domains := true, afe := true, adc := true, ddc := true, xfm := true, scn := true, recorder := true, jes := true, hkc := true }) = s.view (Parts.others { domains := true, afe := true, adc := true, ddc := true, xfm := true, scn := true, recorder := true, jes := true, hkc := true }) := by
    refine (State.modBay_view _ _ _ _ ?_).trans h0
    exact fun _ => rfl
  clear_value s1
  have h2 : s2.view (Parts.others { domains := true, afe := true, adc := true, ddc := true, xfm := true, scn := true, recorder := true, jes := true, hkc := true }) = s.view (Parts.others { domains := true, afe := true, adc := true, ddc := true, xfm := true, scn := true, recorder := true, jes := true, hkc := true }) :=
    (foldl_view _ _ (fun _ _ => (State.freeAtten_view (q := Parts.others { domains := true, afe := true, adc := true, ddc := true, xfm := true, scn := true, recorder := true, jes := true, hkc := true }) (by decide) ..).trans (State.modAdc_view (q := Parts.others { domains := true, afe := true, adc := true, ddc := true, xfm := true, scn := true, recorder := true, jes := true, hkc := true }) (by decide) ..)) _ _).trans h1
  clear_value s2
  have h3 : s3.view (Parts.others { domains := true, afe := true, adc := true, ddc := true, xfm := true, scn := true, recorder := true, jes := true, hkc := true }) = s.view (Parts.others { domains := true, afe := true, adc := true, ddc := true, xfm := true, scn := true, recorder := true, jes := true, hkc := true }) :=
    (State.recBegin_view (q := Parts.others { domains := true, afe := true, adc := true, ddc := true, xfm := true, scn := true, recorder := true, jes := true, hkc := true }) (by decide) ..).trans ((State.startRaster_view (q := Parts.others { domains := true, afe := true, adc := true, ddc := true, xfm := true, scn := true, recorder := true, jes := true, hkc := true }) (by decide) ..).trans h2)
  clear_value s3
  exact (foldl_view _ _ (fun _ _ => State.jesStart_view (q := Parts.others { domains := true, afe := true, adc := true, ddc := true, xfm := true, scn := true, recorder := true, jes := true, hkc := true }) (by decide) ..) _ _).trans h3

theorem execFloodDone_view {q : Parts} (hq : q.apart { vals := true, img := true, tbs := true, keeper := true, pwr := true, trg := true, time := true, domains := true, units := true, afe := true, adc := true, ddc := true, xfm := true, den := true, mco := true, scn := true, recorder := true, lne := true, jes := true, cal := true, hkc := true, aux := true, mon := true } = true) (s : State) : Out.view q (execFloodDone s) = some (s.view q) := by
  refine out_view_of { vals := true, img := true, tbs := true, keeper := true, pwr := true, trg := true, time := true, domains := true, units := true, afe := true, adc := true, ddc := true, xfm := true, den := true, mco := true, scn := true, recorder := true, lne := true, jes := true, cal := true, hkc := true, aux := true, mon := true } hq ?_
  simp only [execFloodDone]
  repeat' split
  all_goals simp only [↓out_view_next, ↓State.eachBay_view, implies_true, ↓State.modPwr_view (q := Parts.others { vals := true, img := true, tbs := true, keeper := true, pwr := true, trg := true, time := true, domains := true, units := true, afe := true, adc := true, ddc := true, xfm := true, den := true, mco := true, scn := true, recorder := true, lne := true, jes := true, cal := true, hkc := true, aux := true, mon := true }) (by decide), ↓State.autoArm_view (q := Parts.others { vals := true, img := true, tbs := true, keeper := true, pwr := true, trg := true, time := true, domains := true, units := true, afe := true, adc := true, ddc := true, xfm := true, den := true, mco := true, scn := true, recorder := true, lne := true, jes := true, cal := true, hkc := true, aux := true, mon := true }) (by decide), ↓State.event_view, ↓State.resumeAll_view (q := Parts.others { vals := true, img := true, tbs := true, keeper := true, pwr := true, trg := true, time := true, domains := true, units := true, afe := true, adc := true, ddc := true, xfm := true, den := true, mco := true, scn := true, recorder := true, lne := true, jes := true, cal := true, hkc := true, aux := true, mon := true }) (by decide), ↓State.powerQuads_view (q := Parts.others { vals := true, img := true, tbs := true, keeper := true, pwr := true, trg := true, time := true, domains := true, units := true, afe := true, adc := true, ddc := true, xfm := true, den := true, mco := true, scn := true, recorder := true, lne := true, jes := true, cal := true, hkc := true, aux := true, mon := true }) (by decide), ↓State.floodBay_view (q := Parts.others { vals := true, img := true, tbs := true, keeper := true, pwr := true, trg := true, time := true, domains := true, units := true, afe := true, adc := true, ddc := true, xfm := true, den := true, mco := true, scn := true, recorder := true, lne := true, jes := true, cal := true, hkc := true, aux := true, mon := true }) (by decide)]

end Sys2Proof.Machine
end

