-- ==== Sys2Proof/Laws/View/DmaOps.lean ====
section
/-! SUPPORT. Which parts the operations of Machine/DmaOps.lean leave as they were. -/
namespace Sys2Proof.Machine

theorem State.modDma_view {q : Parts} (hq : q.apart { dma := true } = true) (s : State) (b : BayNo) (n : Fin 32) (f : DmaChan → DmaChan) : (State.modDma s b n f).view q = s.view q := by
  refine view_of { dma := true } hq ?_
  unfold State.modDma
  exact State.modBay_view _ _ _ _ (fun _ => rfl)

theorem State.popQueue_view {q : Parts} (s : State) (b : BayNo) (i : Fin 16) : (State.popQueue s b i).view q = s.view q := by
  simp only [State.popQueue, ↓State.modQueue_view]

theorem State.dmaError_view {q : Parts} (hq : q.apart { dma := true } = true) (s : State) (b : BayNo) (n : Fin 32) (cause : DmaCause) (addr : BitVec 64) (stops : Bool) : (State.dmaError s b n cause addr stops).view q = s.view q := by
  refine view_of { dma := true } hq ?_
  simp only [State.dmaError, ↓view_ite, ite_self, ↓State.flushQueue_view, ↓State.event_view, ↓State.modDma_view (q := Parts.others { dma := true }) (by decide)]

theorem State.dmaComplete_view {q : Parts} (hq : q.apart { dma := true, mco := true } = true) (s : State) (b : BayNo) (n : Fin 32) : (State.dmaComplete s b n).view q = s.view q := by
  refine view_of { dma := true, mco := true } hq ?_
  simp only [State.dmaComplete]
  repeat' split
  all_goals simp only [↓State.raiseLine_view (q := Parts.others { dma := true, mco := true }) (by decide), ↓State.emit_view, ↓State.modDma_view (q := Parts.others { dma := true, mco := true }) (by decide)]

theorem State.dmaDelivered_view {q : Parts} (hq : q.apart { dma := true, mco := true } = true) (s : State) (b : BayNo) (n : Fin 32) : (State.dmaDelivered s b n).view q = s.view q := by
  refine view_of { dma := true, mco := true } hq ?_
  simp only [State.dmaDelivered, ↓view_ite, ite_self, ↓State.modDma_view (q := Parts.others { dma := true, mco := true }) (by decide), ↓State.dmaComplete_view (q := Parts.others { dma := true, mco := true }) (by decide)]

theorem State.dmaStart_view {q : Parts} (hq : q.apart { dma := true } = true) (s : State) (b : BayNo) (n : Fin 32) : (State.dmaStart s b n).view q = s.view q := by
  refine view_of { dma := true } hq ?_
  simp only [State.dmaStart, ↓view_ite, ite_self, ↓State.modDma_view (q := Parts.others { dma := true }) (by decide), ↓State.dmaError_view (q := Parts.others { dma := true }) (by decide)]

theorem State.ringCfg_view {q : Parts} (hq : q.apart { dma := true } = true) (s : State) (b : BayNo) (n : Fin 32) (w : Word) : (State.ringCfg s b n w).view q = s.view q := by
  refine view_of { dma := true } hq ?_
  simp only [State.ringCfg, ↓State.modDma_view (q := Parts.others { dma := true }) (by decide)]

theorem execDmaGo_view {q : Parts} (hq : q.apart { dma := true, domains := true } = true) (b : BayNo) (n : Fin 32) (s : State) : Out.view q (execDmaGo b n s) = some (s.view q) := by
  refine out_view_of { dma := true, domains := true } hq ?_
  simp only [execDmaGo, ↓out_view_ite, ↓out_view_next, ite_self, ↓State.fencedAccess_view (q := Parts.others { dma := true, domains := true }) (by decide), ↓State.dmaStart_view (q := Parts.others { dma := true, domains := true }) (by decide)]

theorem State.dmaAbort_view {q : Parts} (hq : q.apart { dma := true } = true) (s : State) (b : BayNo) (n : Fin 32) : (State.dmaAbort s b n).view q = s.view q := by
  refine view_of { dma := true } hq ?_
  simp only [State.dmaAbort, ↓view_ite, ite_self, ↓State.modDma_view (q := Parts.others { dma := true }) (by decide)]

theorem execDmaAbort_view {q : Parts} (hq : q.apart { dma := true } = true) (b : BayNo) (n : Fin 32) (s : State) : Out.view q (execDmaAbort b n s) = some (s.view q) := by
  refine out_view_of { dma := true } hq ?_
  simp only [execDmaAbort, ↓out_view_ite, ↓out_view_next, ite_self, ↓State.dmaAbort_view (q := Parts.others { dma := true }) (by decide)]

theorem State.dmaClear_view {q : Parts} (hq : q.apart { dma := true } = true) (s : State) (b : BayNo) (n : Fin 32) : (State.dmaClear s b n).view q = s.view q := by
  refine view_of { dma := true } hq ?_
  simp only [State.dmaClear, ↓view_ite, ite_self, ↓State.modDma_view (q := Parts.others { dma := true }) (by decide)]

theorem execDmaClear_view {q : Parts} (hq : q.apart { dma := true, domains := true } = true) (b : BayNo) (n : Fin 32) (s : State) : Out.view q (execDmaClear b n s) = some (s.view q) := by
  refine out_view_of { dma := true, domains := true } hq ?_
  simp only [execDmaClear, ↓out_view_ite, ↓out_view_next, ite_self, ↓State.fencedAccess_view (q := Parts.others { dma := true, domains := true }) (by decide), ↓State.dmaClear_view (q := Parts.others { dma := true, domains := true }) (by decide)]

theorem execDmaRingCfgWrite_view {q : Parts} (hq : q.apart { dma := true, domains := true } = true) (b : BayNo) (n : Fin 32) (w : Word) (s : State) : Out.view q (execDmaRingCfgWrite b n w s) = some (s.view q) := by
  refine out_view_of { dma := true, domains := true } hq ?_
  simp only [execDmaRingCfgWrite, ↓out_view_ite, ↓out_view_next, ite_self, ↓State.fencedAccess_view (q := Parts.others { dma := true, domains := true }) (by decide), ↓State.ringCfg_view (q := Parts.others { dma := true, domains := true }) (by decide)]

theorem State.dmaWrite_view {q : Parts} (hq : q.apart { dma := true } = true) (s : State) (b : BayNo) (off : Nat) (w : Word) : viewOr q (s.view q) (State.dmaWrite s b off w) = s.view q := by
  refine viewOr_of { dma := true } hq ?_
  simp only [State.dmaWrite]
  repeat' split
  all_goals simp only [↓viewOr_some, ↓viewOr_none, ↓State.modDma_view (q := Parts.others { dma := true }) (by decide), ↓State.dmaStart_view (q := Parts.others { dma := true }) (by decide), ↓State.ringCfg_view (q := Parts.others { dma := true }) (by decide), ↓State.dmaAbort_view (q := Parts.others { dma := true }) (by decide), ↓State.dmaClear_view (q := Parts.others { dma := true }) (by decide)]

end Sys2Proof.Machine
end

