-- ==== Sys2Proof/Laws/View/Vrt.lean ====
section
/-! SUPPORT. Which parts the operations of Machine/Vrt.lean leave as they were. -/
namespace Sys2Proof.Machine

theorem State.nextCount_view {q : Parts} (hq : q.apart { eth := true } = true) (s : State) (n : Fin 64) (sid : Word) : (State.nextCount s n sid).2.view q = s.view q := by
  refine view_of { eth := true } hq ?_
  simp only [State.nextCount, ↓State.modStream_view (q := Parts.others { eth := true }) (by decide)]

theorem State.sendVrt_view {q : Parts} (hq : q.apart { eth := true, ports := true } = true) (s : State) (n : Fin 64) (r : Rec) (t : Stamp) (body : VrtBody) : (s.sendVrt n r t body).view q = s.view q := view_of { eth := true, ports := true } hq ((State.emit_view ..).trans ((State.modEth_view (q := Parts.others { eth := true, ports := true }) (by decide) ..).trans ((State.modStream_view (q := Parts.others { eth := true, ports := true }) (by decide) ..).trans (State.nextCount_view (q := Parts.others { eth := true, ports := true }) (by decide) ..))))

theorem State.sendContext_view {q : Parts} (hq : q.apart { eth := true, ports := true } = true) (s : State) (n : Fin 64) (r : Rec) (t : Stamp) (m : VrtMarks) : (State.sendContext s n r t m).view q = s.view q := by
  refine view_of { eth := true, ports := true } hq ?_
  simp only [State.sendContext, ↓view_ite, ite_self, ↓State.modStream_view (q := Parts.others { eth := true, ports := true }) (by decide), ↓State.sendVrt_view (q := Parts.others { eth := true, ports := true }) (by decide)]

theorem State.sendPacket_view {q : Parts} (hq : q.apart { eth := true, ports := true } = true) (s : State) (n : Fin 64) (r : Rec) (i act victim : Nat) : (State.sendPacket s n r i act victim).view q = s.view q := by
  refine view_of { eth := true, ports := true } hq ?_
  simp only [State.sendPacket]
  repeat' split
  all_goals simp only [↓State.takeFree_view, ↓State.nextCount_view (q := Parts.others { eth := true, ports := true }) (by decide), ↓State.sendVrt_view (q := Parts.others { eth := true, ports := true }) (by decide), ↓State.sendContext_view (q := Parts.others { eth := true, ports := true }) (by decide)]

theorem State.sendPackets_view {q : Parts} (hq : q.apart { eth := true, ports := true } = true) (s : State) (n : Fin 64) (r : Rec) (old new act victim : Nat) : (State.sendPackets s n r old new act victim).view q = s.view q := by
  refine view_of { eth := true, ports := true } hq ?_
  simp only [State.sendPackets, ↓foldl_view, implies_true, ↓State.sendPacket_view (q := Parts.others { eth := true, ports := true }) (by decide)]

theorem State.sendWhole_view {q : Parts} (hq : q.apart { eth := true, ports := true } = true) (s : State) (n : Fin 64) (r : Rec) : (State.sendWhole s n r).view q = s.view q := by
  refine view_of { eth := true, ports := true } hq ?_
  simp only [State.sendWhole, ↓State.sendPackets_view (q := Parts.others { eth := true, ports := true }) (by decide)]

theorem State.injectorAct_view {q : Parts} (s : State) (n : Fin 64) (r : Rec) : (State.injectorAct s n r).2.2.view q = s.view q := by
  simp only [State.injectorAct, ↓view_ite, ↓snd_ite, ite_self, ↓State.modInj_view, ↓State.event_view, ↓State.takeFree_view]

theorem State.sendHeld_view {q : Parts} (hq : q.apart { eth := true, dma := true, mco := true, ports := true } = true) (s : State) (n : Fin 64) (ps : List HeldPacket) : (s.sendHeld n ps).view q = s.view q := by
  refine view_of { eth := true, dma := true, mco := true, ports := true } hq ?_
  unfold State.sendHeld
  refine foldl_view _ _ (fun s p => ?_) _ _
  cases p with
  | data dst r => exact (State.dmaDelivered_view (q := Parts.others { eth := true, dma := true, mco := true, ports := true }) (by decide) ..).trans (State.sendWhole_view (q := Parts.others { eth := true, dma := true, mco := true, ports := true }) (by decide) ..)
  | fire => rfl

theorem State.holdRecord_view {q : Parts} (s : State) (n : Fin 64) (act : Nat) (b : BayNo) (c : Fin 32) (r : Rec) : (State.holdRecord s n act b c r).view q = s.view q := by
  simp only [State.holdRecord, ↓State.modInj_view]

theorem State.passRecord_view {q : Parts} (hq : q.apart { eth := true, dma := true, mco := true, ports := true } = true) (s : State) (n : Fin 64) : (State.passRecord s n).view q = s.view q := by
  refine view_of { eth := true, dma := true, mco := true, ports := true } hq ?_
  simp only [State.passRecord, ↓State.modInj_view, ↓State.sendHeld_view (q := Parts.others { eth := true, dma := true, mco := true, ports := true }) (by decide)]

theorem execEthInjDelayExpire_view {q : Parts} (hq : q.apart { eth := true, time := true, dma := true, mco := true, ports := true } = true) (n : Fin 64) (s0 : State) : Out.view q (execEthInjDelayExpire n s0) = some (s0.view q) := by
  refine out_view_of { eth := true, time := true, dma := true, mco := true, ports := true } hq ?_
  simp only [execEthInjDelayExpire]
  repeat' split
  all_goals simp only [↓out_view_next, ↓State.reach_view (q := Parts.others { eth := true, time := true, dma := true, mco := true, ports := true }) (by decide), ↓State.modInj_view, ↓State.sendHeld_view (q := Parts.others { eth := true, time := true, dma := true, mco := true, ports := true }) (by decide)]

theorem State.freeLinks_view {q : Parts} (hq : q.apart { trg := true, units := true, xfm := true, mco := true, recorder := true } = true) (s : State) : (State.freeLinks s).view q = s.view q := by
  refine view_of { trg := true, units := true, xfm := true, mco := true, recorder := true } hq ?_
  simp only [State.freeLinks, ↓foldl_view, ↓State.eachBay_view, implies_true, ↓State.release_view (q := Parts.others { trg := true, units := true, xfm := true, mco := true, recorder := true }) (by decide), ↓State.modLink_view]

theorem State.freeStreams_view {q : Parts} (hq : q.apart { eth := true, dma := true, mco := true, ports := true } = true) (s : State) : (State.freeStreams s).view q = s.view q := by
  refine view_of { eth := true, dma := true, mco := true, ports := true } hq ?_
  simp only [State.freeStreams, ↓view_ite, ↓foldl_view, ite_self, implies_true, ↓State.modInj_view, ↓State.sendHeld_view (q := Parts.others { eth := true, dma := true, mco := true, ports := true }) (by decide)]

theorem State.killInjectors_view {q : Parts} (hq : q.apart { trg := true, eth := true, kill := true, dma := true, units := true, xfm := true, mco := true, recorder := true, ports := true } = true) (s : State) : (State.killInjectors s).view q = s.view q := by
  refine view_of { trg := true, eth := true, kill := true, dma := true, units := true, xfm := true, mco := true, recorder := true, ports := true } hq ?_
  simp only [State.killInjectors, ↓State.modInjPkg_view (q := Parts.others { trg := true, eth := true, kill := true, dma := true, units := true, xfm := true, mco := true, recorder := true, ports := true }) (by decide), ↓State.event_view, ↓State.freeLinks_view (q := Parts.others { trg := true, eth := true, kill := true, dma := true, units := true, xfm := true, mco := true, recorder := true, ports := true }) (by decide), ↓State.freeStreams_view (q := Parts.others { trg := true, eth := true, kill := true, dma := true, units := true, xfm := true, mco := true, recorder := true, ports := true }) (by decide)]

theorem execInjKill_view {q : Parts} (hq : q.apart { trg := true, eth := true, kill := true, dma := true, units := true, xfm := true, mco := true, recorder := true, ports := true } = true) (v : Word) (s : State) : Out.view q (execInjKill v s) = some (s.view q) := by
  refine out_view_of { trg := true, eth := true, kill := true, dma := true, units := true, xfm := true, mco := true, recorder := true, ports := true } hq ?_
  simp only [execInjKill, ↓out_view_ite, ↓out_view_next, ite_self, ↓State.killInjectors_view (q := Parts.others { trg := true, eth := true, kill := true, dma := true, units := true, xfm := true, mco := true, recorder := true, ports := true }) (by decide)]

end Sys2Proof.Machine
end

