-- ==== Sys2Proof/Laws/View/Map.lean ====
section
/-! SUPPORT. Which parts the operations of Machine/Map.lean leave as they were. -/
namespace Sys2Proof.Machine

theorem State.captureByte_view {q : Parts} (s : State) (b : BayNo) (a : Nat) : (s.captureByte b a).2.view q = s.view q := by
  unfold State.captureByte
  split <;> rfl

theorem State.captureBytes_view {q : Parts} (s : State) (b : BayNo) (a : Nat) (n : Nat) : (s.captureBytes b a n).2.view q = s.view q := by
  induction n generalizing s a with
  | zero => rfl
  | succ n ih => exact (ih _ _).trans (State.captureByte_view ..)

theorem State.capturePut_view {q : Parts} (s : State) (b : BayNo) (a : Nat) (bs : List Byte) : (s.capturePut b a bs).view q = s.view q :=
  State.modBay_view _ _ _ _ (by intro _; rfl)

theorem State.readEffect_view {q : Parts} (hq : q.apart { img := true, faults := true, clk := true, time := true, domains := true, mco := true, recorder := true, lne := true } = true) (s : State) (b : BayNo) (off : Nat) : (s.readEffect b off).view q = s.view q := by
  refine view_of { img := true, faults := true, clk := true, time := true, domains := true, mco := true, recorder := true, lne := true } hq ?_
  unfold State.readEffect
  extract_lets o
  split
  · split
    · exact afterOf_view (execClkFaultCntRead_view (q := Parts.others { img := true, faults := true, clk := true, time := true, domains := true, mco := true, recorder := true, lne := true }) (by decide) ..) rfl
    · rfl
  · split
    · exact afterOf_view (execTbsNowRead_view (q := Parts.others { img := true, faults := true, clk := true, time := true, domains := true, mco := true, recorder := true, lne := true }) (by decide) ..) rfl
    · split
      · exact afterOf_view (execTbsEdgeLostRead_view (q := Parts.others { img := true, faults := true, clk := true, time := true, domains := true, mco := true, recorder := true, lne := true }) (by decide) ..) rfl
      · rfl
  · split
    · exact afterOf_view (execMcMboxOutRead_view (q := Parts.others { img := true, faults := true, clk := true, time := true, domains := true, mco := true, recorder := true, lne := true }) (by decide) ..) rfl
    · rfl
  · split
    · exact afterOf_view (execQueReservePeakRead_view (q := Parts.others { img := true, faults := true, clk := true, time := true, domains := true, mco := true, recorder := true, lne := true }) (by decide) ..) rfl
    · rfl
  · split
    · exact State.modDrive_view (q := Parts.others { img := true, faults := true, clk := true, time := true, domains := true, mco := true, recorder := true, lne := true }) (by decide) ..
    · rfl
  · split
    · exact afterOf_view (execLaneErrRead_view (q := Parts.others { img := true, faults := true, clk := true, time := true, domains := true, mco := true, recorder := true, lne := true }) (by decide) ..) rfl
    · rfl
  · split
    · exact afterOf_view (execWatchPeakRead_view (q := Parts.others { img := true, faults := true, clk := true, time := true, domains := true, mco := true, recorder := true, lne := true }) (by decide) ..) rfl
    · rfl
  · split
    · exact afterOf_view (execFaultLongestRead_view (q := Parts.others { img := true, faults := true, clk := true, time := true, domains := true, mco := true, recorder := true, lne := true }) (by decide) ..) rfl
    · rfl
  · split
    · exact afterOf_view (execImgEvtLostRead_view (q := Parts.others { img := true, faults := true, clk := true, time := true, domains := true, mco := true, recorder := true, lne := true }) (by decide) ..) rfl
    · rfl
  · rfl

theorem State.readCapture_view {q : Parts} (s : State) (b : BayNo) (off : Nat) : (s.readCapture b off).2.view q = s.view q := by
  unfold State.readCapture
  generalize 4 = n
  exact State.captureBytes_view ..

theorem State.readReg_view {q : Parts} (hq : q.apart { img := true, faults := true, ident := true, clk := true, time := true, domains := true, mco := true, recorder := true, lne := true } = true) (s : State) (b : BayNo) (off : Nat) (p : Path) : (s.readReg b off p).2.view q = s.view q := view_of { img := true, faults := true, ident := true, clk := true, time := true, domains := true, mco := true, recorder := true, lne := true } hq (State.readEffect_view (q := Parts.others { img := true, faults := true, ident := true, clk := true, time := true, domains := true, mco := true, recorder := true, lne := true }) (by decide) ..)

theorem State.readOpen_view {q : Parts} (hq : q.apart { img := true, faults := true, ident := true, clk := true, time := true, domains := true, mco := true, recorder := true, lne := true } = true) (s : State) (b : BayNo) (off : Nat) (p : Path) : (s.readOpen b off p).2.view q = s.view q := by
  refine view_of { img := true, faults := true, ident := true, clk := true, time := true, domains := true, mco := true, recorder := true, lne := true } hq ?_
  unfold State.readOpen
  split
  · rfl
  · split
    · exact State.readCapture_view ..
    · exact State.readReg_view (q := Parts.others { img := true, faults := true, ident := true, clk := true, time := true, domains := true, mco := true, recorder := true, lne := true }) (by decide) ..

theorem State.readFenced_view {q : Parts} (hq : q.apart { domains := true } = true) (s : State) (b : BayNo) (d : Domain) (p : Path) : (s.readFenced b d p).2.view q = s.view q := by
  refine view_of { domains := true } hq ?_
  unfold State.readFenced
  simp only [↓view_ite, ↓State.asleepAccess_view (q := Parts.others { domains := true }) (by decide), ite_self]

theorem State.readAt_view {q : Parts} (hq : q.apart { img := true, faults := true, ident := true, clk := true, time := true, domains := true, mco := true, recorder := true, lne := true } = true) (s : State) (b : BayNo) (off : Nat) (p : Path) : (s.readAt b off p).2.view q = s.view q := by
  refine view_of { img := true, faults := true, ident := true, clk := true, time := true, domains := true, mco := true, recorder := true, lne := true } hq ?_
  unfold State.readAt
  simp only [↓snd_ite, ↓view_ite]
  split
  · rfl
  · split
    · rfl
    · split
      · exact State.readFenced_view (q := Parts.others { img := true, faults := true, ident := true, clk := true, time := true, domains := true, mco := true, recorder := true, lne := true }) (by decide) ..
      · exact State.readOpen_view (q := Parts.others { img := true, faults := true, ident := true, clk := true, time := true, domains := true, mco := true, recorder := true, lne := true }) (by decide) ..

theorem State.readWord_view {q : Parts} (hq : q.apart { img := true, faults := true, ident := true, clk := true, time := true, domains := true, mco := true, recorder := true, lne := true } = true) (s : State) (a : Nat) (p : Path) : (s.readWord a p).2.view q = s.view q := by
  refine view_of { img := true, faults := true, ident := true, clk := true, time := true, domains := true, mco := true, recorder := true, lne := true } hq ?_
  unfold State.readWord
  split
  · rfl
  · exact State.readAt_view (q := Parts.others { img := true, faults := true, ident := true, clk := true, time := true, domains := true, mco := true, recorder := true, lne := true }) (by decide) ..

theorem State.coreAperture_view {q : Parts} (hq : q.apart { keeper := true, domains := true, mco := true } = true) (s : State) (b : BayNo) (o : Nat) (v : Word) (en : BitVec 4) : viewOr q (s.view q) (s.coreAperture b o v en) = s.view q := by
  refine viewOr_of { keeper := true, domains := true, mco := true } hq ?_
  unfold State.coreAperture
  extract_lets c k still a s1
  split
  · rfl
  · split
    · split
      · rfl
      · exact afterOf_view (execCoreImemWrite_view (q := Parts.others { keeper := true, domains := true, mco := true }) (by decide) ..) rfl
    · split
      · exact (State.ctrlTrace_view (q := Parts.others { keeper := true, domains := true, mco := true }) (by decide) ..).trans (State.modCore_view (q := Parts.others { keeper := true, domains := true, mco := true }) (by decide) ..)
      · rfl

theorem State.coreCtrl_view {q : Parts} (hq : q.apart { keeper := true, mco := true } = true) (s : State) (b : BayNo) (c : CoreNo) (v : Word) : (s.coreCtrl b c v).view q = s.view q := by
  refine view_of { keeper := true, mco := true } hq ?_
  unfold State.coreCtrl
  extract_lets s1 s2
  have h1 : s1.view (Parts.others { keeper := true, mco := true }) = s.view (Parts.others { keeper := true, mco := true }) := by
    simp only [s1]
    split
    · exact afterOf_view (execMcCtrlHalt_view (q := Parts.others { keeper := true, mco := true }) (by decide) ..) rfl
    · rfl
  clear_value s1
  have h2 : s2.view (Parts.others { keeper := true, mco := true }) = s.view (Parts.others { keeper := true, mco := true }) := by
    refine Eq.trans ?_ h1
    simp only [s2]
    split
    · exact afterOf_view (execMcCtrlResume_view (q := Parts.others { keeper := true, mco := true }) (by decide) ..) rfl
    · rfl
  clear_value s2
  split
  · exact (afterOf_view (execMcCtrlReset_view (q := Parts.others { keeper := true, mco := true }) (by decide) ..) rfl).trans h2
  · exact h2

theorem State.laneCtrl_view {q : Parts} (hq : q.apart { domains := true, lne := true } = true) (s : State) (b : BayNo) (k : Fin 24) (v : Word) : (s.laneCtrl b k v).view q = s.view q := by
  refine view_of { domains := true, lne := true } hq ?_
  unfold State.laneCtrl
  extract_lets s1 s2 s3 s4 s5 x
  have h1 : s1.view (Parts.others { domains := true, lne := true }) = s.view (Parts.others { domains := true, lne := true }) := by
    simp only [s1]; split
    · exact afterOf_view (execLaneClear_view (q := Parts.others { domains := true, lne := true }) (by decide) ..) rfl
    · rfl
  have h2 : s2.view (Parts.others { domains := true, lne := true }) = s.view (Parts.others { domains := true, lne := true }) := by
    simp only [s2]; split
    · exact afterOf_view ((execLaneTxSleep_view (q := Parts.others { domains := true, lne := true }) (by decide) ..).trans (congrArg some h1)) h1
    · exact h1
  have h3 : s3.view (Parts.others { domains := true, lne := true }) = s.view (Parts.others { domains := true, lne := true }) := by
    simp only [s3]; split
    · exact afterOf_view ((execLaneTxWake_view (q := Parts.others { domains := true, lne := true }) (by decide) ..).trans (congrArg some h2)) h2
    · exact h2
  have h4 : s4.view (Parts.others { domains := true, lne := true }) = s.view (Parts.others { domains := true, lne := true }) := by
    simp only [s4]; split
    · exact afterOf_view ((execLaneRxSleep_view (q := Parts.others { domains := true, lne := true }) (by decide) ..).trans (congrArg some h3)) h3
    · exact h3
  have h5 : s5.view (Parts.others { domains := true, lne := true }) = s.view (Parts.others { domains := true, lne := true }) := by
    simp only [s5]; split
    · exact afterOf_view ((execLaneRxWake_view (q := Parts.others { domains := true, lne := true }) (by decide) ..).trans (congrArg some h4)) h4
    · exact h4
  split
  · exact (State.reseed_view (q := Parts.others { domains := true, lne := true }) (by decide) ..).trans ((State.takeFree_view ..).trans h5)
  · exact h5

theorem State.laneTest_view {q : Parts} (hq : q.apart { fabric := true, units := true, ddc := true, xfm := true, den := true, lne := true, jes := true } = true) (s : State) (b : BayNo) (k : Fin 24) (v : Word) : (s.laneTest b k v).view q = s.view q := by
  refine view_of { fabric := true, units := true, ddc := true, xfm := true, den := true, lne := true, jes := true } hq ?_
  unfold State.laneTest
  extract_lets x y s2
  have h0 : x.2.view (Parts.others { fabric := true, units := true, ddc := true, xfm := true, den := true, lne := true, jes := true }) = s.view (Parts.others { fabric := true, units := true, ddc := true, xfm := true, den := true, lne := true, jes := true }) := State.takeFree_view _ s 1
  clear_value x
  have h : y.1.view (Parts.others { fabric := true, units := true, ddc := true, xfm := true, den := true, lne := true, jes := true }) = s.view (Parts.others { fabric := true, units := true, ddc := true, xfm := true, den := true, lne := true, jes := true }) := (State.setTest_view (q := Parts.others { fabric := true, units := true, ddc := true, xfm := true, den := true, lne := true, jes := true }) (by decide) x.2 b k _).trans h0
  clear_value y
  have h2 : s2.view (Parts.others { fabric := true, units := true, ddc := true, xfm := true, den := true, lne := true, jes := true }) = s.view (Parts.others { fabric := true, units := true, ddc := true, xfm := true, den := true, lne := true, jes := true }) := by
    simp only [s2]
    split
    · exact (State.reseed_view (q := Parts.others { fabric := true, units := true, ddc := true, xfm := true, den := true, lne := true, jes := true }) (by decide) ..).trans h
    · exact h
  clear_value s2
  split
  · exact afterOf_view ((execErrInject_view b k s2).trans (congrArg some h2)) h2
  · exact h2

theorem State.sealCommand_view {q : Parts} (hq : q.apart { flash := true, keeper := true, fuses := true, ident := true, aux := true } = true) (s : State) (op : Nat) : (State.sealCommand s op).view q = s.view q := by
  refine view_of { flash := true, keeper := true, fuses := true, ident := true, aux := true } hq ?_
  unfold State.sealCommand
  split
  · exact afterOf_view (execProvisionSignKey_view (q := Parts.others { flash := true, keeper := true, fuses := true, ident := true, aux := true }) (by decide) ..) rfl
  · exact afterOf_view (execProvisionMacKey_view (q := Parts.others { flash := true, keeper := true, fuses := true, ident := true, aux := true }) (by decide) ..) rfl
  · exact afterOf_view (execRevoke_view (q := Parts.others { flash := true, keeper := true, fuses := true, ident := true, aux := true }) (by decide) ..) rfl
  · exact afterOf_view (execTamperClear_view (q := Parts.others { flash := true, keeper := true, fuses := true, ident := true, aux := true }) (by decide) ..) rfl
  · exact afterOf_view (execLogVerify_view (q := Parts.others { flash := true, keeper := true, fuses := true, ident := true, aux := true }) (by decide) ..) rfl
  · exact (afterOf_view (execLogArchive_view (q := Parts.others { flash := true, keeper := true, fuses := true, ident := true, aux := true }) (by decide) ..) rfl).trans (State.takeFree_view _ s 1)
  · rfl

theorem State.sealWrite_view {q : Parts} (hq : q.apart { keeper := true, ident := true, aux := true } = true) (s : State) (o : Nat) (v : Word) (p : Path) (hp : p = .service → q.apart { flash := true, fuses := true } = true) : viewOr q (s.view q) (s.sealWrite o v p) = s.view q := by
  by_cases h : p = .service
  · have ha := Parts.apart_plus (hp h) hq
    have e : ({ flash := true, fuses := true } : Parts).plus { keeper := true, ident := true, aux := true } = { flash := true, keeper := true, fuses := true, ident := true, aux := true } := by decide
    rw [e] at ha
    refine viewOr_of { flash := true, keeper := true, fuses := true, ident := true, aux := true } ha ?_
    unfold State.sealWrite
    extract_lets box
    split
    · exact State.modSeal_free rfl rfl ..
    · split
      · rfl
      · split
        · exact State.sealCommand_view (q := Parts.others { flash := true, keeper := true, fuses := true, ident := true, aux := true }) (by decide) ..
        · split
          · exact State.modSeal_free rfl rfl ..
          · exact State.modSeal_free rfl rfl ..
          · exact State.modSeal_free rfl rfl ..
          · rfl
  · refine viewOr_of { keeper := true, ident := true, aux := true } hq ?_
    unfold State.sealWrite
    extract_lets box
    split
    · exact State.modSeal_open rfl _ _ (fun _ => rfl) (fun _ => rfl)
    · rfl

theorem State.imgWrite_view {q : Parts} (hq : q.apart { img := true } = true) (s : State) (o : Nat) (v : Word) : viewOr q (s.view q) (s.imgWrite o v) = s.view q := by
  refine viewOr_of { img := true } hq ?_
  unfold State.imgWrite
  split
  · exact State.modImg_view (q := Parts.others { img := true }) (by decide) ..
  · exact State.modImg_view (q := Parts.others { img := true }) (by decide) ..
  · exact afterOf_view (execImgCmdCfgWrite_view (q := Parts.others { img := true }) (by decide) ..) rfl
  · exact afterOf_view (execImgCmdTailWrite_view (q := Parts.others { img := true }) (by decide) ..) rfl
  · exact State.modImg_view (q := Parts.others { img := true }) (by decide) ..
  · exact State.modImg_view (q := Parts.others { img := true }) (by decide) ..
  · exact afterOf_view (execImgEvtCfgWrite_view (q := Parts.others { img := true }) (by decide) ..) rfl
  · exact afterOf_view (execImgEvtHeadWrite_view (q := Parts.others { img := true }) (by decide) ..) rfl
  · rfl

theorem State.pwrCtrlWrite_view {q : Parts} (hq : q.apart { vals := true, img := true, tbs := true, keeper := true, pwr := true, ident := true, time := true, units := true, afe := true, adc := true, ddc := true, xfm := true, den := true, mco := true, lne := true, cal := true, hkc := true, aux := true, mon := true } = true) (s : State) (v : Word) (p : Path) : (s.pwrCtrlWrite v p).view q = s.view q := by
  refine view_of { vals := true, img := true, tbs := true, keeper := true, pwr := true, ident := true, time := true, units := true, afe := true, adc := true, ddc := true, xfm := true, den := true, mco := true, lne := true, cal := true, hkc := true, aux := true, mon := true } hq ?_
  unfold State.pwrCtrlWrite
  split
  · exact State.requestPwr_view (q := Parts.others { vals := true, img := true, tbs := true, keeper := true, pwr := true, ident := true, time := true, units := true, afe := true, adc := true, ddc := true, xfm := true, den := true, mco := true, lne := true, cal := true, hkc := true, aux := true, mon := true }) (by decide) ..
  · exact State.requestPwr_view (q := Parts.others { vals := true, img := true, tbs := true, keeper := true, pwr := true, ident := true, time := true, units := true, afe := true, adc := true, ddc := true, xfm := true, den := true, mco := true, lne := true, cal := true, hkc := true, aux := true, mon := true }) (by decide) ..
  · split
    · exact State.wake_view (q := Parts.others { vals := true, img := true, tbs := true, keeper := true, pwr := true, ident := true, time := true, units := true, afe := true, adc := true, ddc := true, xfm := true, den := true, mco := true, lne := true, cal := true, hkc := true, aux := true, mon := true }) (by decide) ..
    · rfl
  · rfl

theorem State.blockWrite_view {q : Parts} (hq : q.apart { vals := true, img := true, tbs := true, keeper := true, pwr := true, trg := true, ident := true, eth := true, fabric := true, kill := true, clk := true, time := true, dma := true, domains := true, units := true, afe := true, adc := true, ddc := true, xfm := true, den := true, mco := true, scn := true, recorder := true, lne := true, ports := true, jes := true, cal := true, hkc := true, aux := true, mon := true } = true) (s : State) (b : BayNo) (off : Nat) (v : Word) (p : Path) :
    viewOr q (s.view q) (s.blockWrite b off v p) = s.view q := by
  refine viewOr_of { vals := true, img := true, tbs := true, keeper := true, pwr := true, trg := true, ident := true, eth := true, fabric := true, kill := true, clk := true, time := true, dma := true, domains := true, units := true, afe := true, adc := true, ddc := true, xfm := true, den := true, mco := true, scn := true, recorder := true, lne := true, ports := true, jes := true, cal := true, hkc := true, aux := true, mon := true } hq ?_
  unfold State.blockWrite
  extract_lets o
  split
  · split
    · rfl
    · split
      · rfl
      · split
        · rfl
        · split
          · rfl
          · split <;> rfl
  · split
    · refine (viewOr_some ..).trans ?_
      split
      · exact afterOf_view (execSpllLolClear_view (q := Parts.others { vals := true, img := true, tbs := true, keeper := true, pwr := true, trg := true, ident := true, eth := true, fabric := true, kill := true, clk := true, time := true, dma := true, domains := true, units := true, afe := true, adc := true, ddc := true, xfm := true, den := true, mco := true, scn := true, recorder := true, lne := true, ports := true, jes := true, cal := true, hkc := true, aux := true, mon := true }) (by decide) ..) rfl
      · rfl
    · split
      · refine (viewOr_some ..).trans ?_
        split
        · exact afterOf_view (execClkSysrefFire_view (q := Parts.others { vals := true, img := true, tbs := true, keeper := true, pwr := true, trg := true, ident := true, eth := true, fabric := true, kill := true, clk := true, time := true, dma := true, domains := true, units := true, afe := true, adc := true, ddc := true, xfm := true, den := true, mco := true, scn := true, recorder := true, lne := true, ports := true, jes := true, cal := true, hkc := true, aux := true, mon := true }) (by decide) ..) rfl
        · rfl
      · rfl
  · split
    · refine (viewOr_some ..).trans ?_
      split
      · exact State.issueReset_view (q := Parts.others { vals := true, img := true, tbs := true, keeper := true, pwr := true, trg := true, ident := true, eth := true, fabric := true, kill := true, clk := true, time := true, dma := true, domains := true, units := true, afe := true, adc := true, ddc := true, xfm := true, den := true, mco := true, scn := true, recorder := true, lne := true, ports := true, jes := true, cal := true, hkc := true, aux := true, mon := true }) (by decide) ..
      · rfl
    · rfl
  · split
    · exact afterOf_view (execTrgForce_view (q := Parts.others { vals := true, img := true, tbs := true, keeper := true, pwr := true, trg := true, ident := true, eth := true, fabric := true, kill := true, clk := true, time := true, dma := true, domains := true, units := true, afe := true, adc := true, ddc := true, xfm := true, den := true, mco := true, scn := true, recorder := true, lne := true, ports := true, jes := true, cal := true, hkc := true, aux := true, mon := true }) (by decide) ..) rfl
    · split
      · exact afterOf_view (execMaskBump_view (q := Parts.others { vals := true, img := true, tbs := true, keeper := true, pwr := true, trg := true, ident := true, eth := true, fabric := true, kill := true, clk := true, time := true, dma := true, domains := true, units := true, afe := true, adc := true, ddc := true, xfm := true, den := true, mco := true, scn := true, recorder := true, lne := true, ports := true, jes := true, cal := true, hkc := true, aux := true, mon := true }) (by decide) ..) rfl
      · rfl
  · split
    · exact afterOf_view (execDenClear_view (q := Parts.others { vals := true, img := true, tbs := true, keeper := true, pwr := true, trg := true, ident := true, eth := true, fabric := true, kill := true, clk := true, time := true, dma := true, domains := true, units := true, afe := true, adc := true, ddc := true, xfm := true, den := true, mco := true, scn := true, recorder := true, lne := true, ports := true, jes := true, cal := true, hkc := true, aux := true, mon := true }) (by decide) ..) rfl
    · rfl
  · split
    · exact afterOf_view (execScnCommitWrite_view (q := Parts.others { vals := true, img := true, tbs := true, keeper := true, pwr := true, trg := true, ident := true, eth := true, fabric := true, kill := true, clk := true, time := true, dma := true, domains := true, units := true, afe := true, adc := true, ddc := true, xfm := true, den := true, mco := true, scn := true, recorder := true, lne := true, ports := true, jes := true, cal := true, hkc := true, aux := true, mon := true }) (by decide) ..) rfl
    · exact State.scnWrite_view (q := Parts.others { vals := true, img := true, tbs := true, keeper := true, pwr := true, trg := true, ident := true, eth := true, fabric := true, kill := true, clk := true, time := true, dma := true, domains := true, units := true, afe := true, adc := true, ddc := true, xfm := true, den := true, mco := true, scn := true, recorder := true, lne := true, ports := true, jes := true, cal := true, hkc := true, aux := true, mon := true }) (by decide) ..
  · split
    · exact (State.modBay_view _ _ _ _ (by intro _; rfl))
    · split
      · rfl
      · split
        · split
          · exact State.coreCtrl_view (q := Parts.others { vals := true, img := true, tbs := true, keeper := true, pwr := true, trg := true, ident := true, eth := true, fabric := true, kill := true, clk := true, time := true, dma := true, domains := true, units := true, afe := true, adc := true, ddc := true, xfm := true, den := true, mco := true, scn := true, recorder := true, lne := true, ports := true, jes := true, cal := true, hkc := true, aux := true, mon := true }) (by decide) ..
          · rfl
        · split
          · exact afterOf_view (execMcMboxInWrite_view (q := Parts.others { vals := true, img := true, tbs := true, keeper := true, pwr := true, trg := true, ident := true, eth := true, fabric := true, kill := true, clk := true, time := true, dma := true, domains := true, units := true, afe := true, adc := true, ddc := true, xfm := true, den := true, mco := true, scn := true, recorder := true, lne := true, ports := true, jes := true, cal := true, hkc := true, aux := true, mon := true }) (by decide) ..) rfl
          · rfl
  · split
    · exact afterOf_view (execQueFlush_view (q := Parts.others { vals := true, img := true, tbs := true, keeper := true, pwr := true, trg := true, ident := true, eth := true, fabric := true, kill := true, clk := true, time := true, dma := true, domains := true, units := true, afe := true, adc := true, ddc := true, xfm := true, den := true, mco := true, scn := true, recorder := true, lne := true, ports := true, jes := true, cal := true, hkc := true, aux := true, mon := true }) (by decide) ..) rfl
    · split
      · exact (State.modBay_view _ _ _ _ (by intro _; rfl))
      · rfl
  · exact State.dmaWrite_view (q := Parts.others { vals := true, img := true, tbs := true, keeper := true, pwr := true, trg := true, ident := true, eth := true, fabric := true, kill := true, clk := true, time := true, dma := true, domains := true, units := true, afe := true, adc := true, ddc := true, xfm := true, den := true, mco := true, scn := true, recorder := true, lne := true, ports := true, jes := true, cal := true, hkc := true, aux := true, mon := true }) (by decide) ..
  · split
    · rfl
    · split
      · exact afterOf_view (execRecFreezeReleaseAll_view (q := Parts.others { vals := true, img := true, tbs := true, keeper := true, pwr := true, trg := true, ident := true, eth := true, fabric := true, kill := true, clk := true, time := true, dma := true, domains := true, units := true, afe := true, adc := true, ddc := true, xfm := true, den := true, mco := true, scn := true, recorder := true, lne := true, ports := true, jes := true, cal := true, hkc := true, aux := true, mon := true }) (by decide) ..) rfl
      · exact afterOf_view (execRecFreezeReleaseOne_view (q := Parts.others { vals := true, img := true, tbs := true, keeper := true, pwr := true, trg := true, ident := true, eth := true, fabric := true, kill := true, clk := true, time := true, dma := true, domains := true, units := true, afe := true, adc := true, ddc := true, xfm := true, den := true, mco := true, scn := true, recorder := true, lne := true, ports := true, jes := true, cal := true, hkc := true, aux := true, mon := true }) (by decide) ..) rfl
  · split
    · extract_lets k
      split
      · exact State.laneCtrl_view (q := Parts.others { vals := true, img := true, tbs := true, keeper := true, pwr := true, trg := true, ident := true, eth := true, fabric := true, kill := true, clk := true, time := true, dma := true, domains := true, units := true, afe := true, adc := true, ddc := true, xfm := true, den := true, mco := true, scn := true, recorder := true, lne := true, ports := true, jes := true, cal := true, hkc := true, aux := true, mon := true }) (by decide) ..
      · split
        · exact State.laneTest_view (q := Parts.others { vals := true, img := true, tbs := true, keeper := true, pwr := true, trg := true, ident := true, eth := true, fabric := true, kill := true, clk := true, time := true, dma := true, domains := true, units := true, afe := true, adc := true, ddc := true, xfm := true, den := true, mco := true, scn := true, recorder := true, lne := true, ports := true, jes := true, cal := true, hkc := true, aux := true, mon := true }) (by decide) ..
        · rfl
    · rfl
  · split
    · exact State.setAuxCode_view (q := Parts.others { vals := true, img := true, tbs := true, keeper := true, pwr := true, trg := true, ident := true, eth := true, fabric := true, kill := true, clk := true, time := true, dma := true, domains := true, units := true, afe := true, adc := true, ddc := true, xfm := true, den := true, mco := true, scn := true, recorder := true, lne := true, ports := true, jes := true, cal := true, hkc := true, aux := true, mon := true }) (by decide) ..
    · rfl
  · split
    · rfl
    · split
      · exact State.pwrCtrlWrite_view (q := Parts.others { vals := true, img := true, tbs := true, keeper := true, pwr := true, trg := true, ident := true, eth := true, fabric := true, kill := true, clk := true, time := true, dma := true, domains := true, units := true, afe := true, adc := true, ddc := true, xfm := true, den := true, mco := true, scn := true, recorder := true, lne := true, ports := true, jes := true, cal := true, hkc := true, aux := true, mon := true }) (by decide) ..
      · split
        · exact State.modPwr_view (q := Parts.others { vals := true, img := true, tbs := true, keeper := true, pwr := true, trg := true, ident := true, eth := true, fabric := true, kill := true, clk := true, time := true, dma := true, domains := true, units := true, afe := true, adc := true, ddc := true, xfm := true, den := true, mco := true, scn := true, recorder := true, lne := true, ports := true, jes := true, cal := true, hkc := true, aux := true, mon := true }) (by decide) ..
        · rfl
  · split
    · exact afterOf_view (execMonSnap_view (q := Parts.others { vals := true, img := true, tbs := true, keeper := true, pwr := true, trg := true, ident := true, eth := true, fabric := true, kill := true, clk := true, time := true, dma := true, domains := true, units := true, afe := true, adc := true, ddc := true, xfm := true, den := true, mco := true, scn := true, recorder := true, lne := true, ports := true, jes := true, cal := true, hkc := true, aux := true, mon := true }) (by decide) ..) rfl
    · rfl
  · split
    · refine (viewOr_some ..).trans ?_
      split
      · exact State.killInjectors_view (q := Parts.others { vals := true, img := true, tbs := true, keeper := true, pwr := true, trg := true, ident := true, eth := true, fabric := true, kill := true, clk := true, time := true, dma := true, domains := true, units := true, afe := true, adc := true, ddc := true, xfm := true, den := true, mco := true, scn := true, recorder := true, lne := true, ports := true, jes := true, cal := true, hkc := true, aux := true, mon := true }) (by decide) ..
      · rfl
    · rfl
  · split
    · exact State.imgWrite_view (q := Parts.others { vals := true, img := true, tbs := true, keeper := true, pwr := true, trg := true, ident := true, eth := true, fabric := true, kill := true, clk := true, time := true, dma := true, domains := true, units := true, afe := true, adc := true, ddc := true, xfm := true, den := true, mco := true, scn := true, recorder := true, lne := true, ports := true, jes := true, cal := true, hkc := true, aux := true, mon := true }) (by decide) ..
    · rfl
  · rfl

theorem State.slotWrite_view {q : Parts} (hq : q.apart { vals := true, img := true, tbs := true, keeper := true, pwr := true, trg := true, ident := true, eth := true, fabric := true, kill := true, clk := true, time := true, dma := true, domains := true, units := true, afe := true, adc := true, ddc := true, xfm := true, den := true, mco := true, scn := true, recorder := true, lne := true, ports := true, jes := true, cal := true, hkc := true, aux := true, mon := true } = true) (s : State) (b : BayNo) (off : Nat) (v : Word) (p : Path) (hp : p = .service → q.apart { flash := true, fuses := true } = true) : viewOr q (s.view q) (s.slotWrite b off v p) = s.view q := by
  unfold State.slotWrite
  split
  · split
    · exact State.sealWrite_view (Parts.apart_of _ hq (by decide)) _ _ _ _ hp
    · rfl
  · exact State.blockWrite_view (Parts.apart_of _ hq (by decide)) ..

theorem State.tryWrite_view {q : Parts} (hq : q.apart { vals := true, img := true, tbs := true, keeper := true, pwr := true, trg := true, ident := true, eth := true, fabric := true, kill := true, clk := true, time := true, dma := true, domains := true, units := true, afe := true, adc := true, ddc := true, xfm := true, den := true, mco := true, scn := true, recorder := true, lne := true, ports := true, jes := true, cal := true, hkc := true, aux := true, mon := true } = true) (s : State) (b : BayNo) (off : Nat) (v : Word) (en : BitVec 4) (p : Path) (hp : p = .service → q.apart { flash := true, fuses := true } = true) : viewOr q (s.view q) (s.tryWrite b off v en p) = s.view q := by
  unfold State.tryWrite
  extract_lets o
  split
  · rfl
  · split
    · rfl
    · split
      · exact foldl_view _ _ (fun _ _ => State.capturePut_view ..) _ _
      · split
        · exact State.writeMask_view (Parts.apart_of _ hq (by decide)) ..
        · split
          · exact State.scnWrite_view (Parts.apart_of _ hq (by decide)) ..
          · split
            · exact State.coreAperture_view (Parts.apart_of _ hq (by decide)) ..
            · split
              · rfl
              · exact State.slotWrite_view (Parts.apart_of _ hq (by decide)) _ _ _ _ _ hp

theorem State.writeWord_view {q : Parts} (hq : q.apart { vals := true, img := true, tbs := true, keeper := true, pwr := true, trg := true, ident := true, eth := true, fabric := true, kill := true, clk := true, time := true, dma := true, domains := true, units := true, afe := true, adc := true, ddc := true, xfm := true, den := true, mco := true, scn := true, recorder := true, lne := true, ports := true, jes := true, cal := true, hkc := true, aux := true, mon := true } = true) (s : State) (a : Nat) (v : Word) (en : BitVec 4) (p : Path) (hp : p = .service → q.apart { flash := true, fuses := true } = true) : (s.writeWord a v en p).2.view q = s.view q := by
  unfold State.writeWord
  split
  · rfl
  · split
    · rfl
    · split
      · split
        · exact State.asleepAccess_view (Parts.apart_of _ hq (by decide)) ..
        · rfl
      · split
        · next e => exact view_of_some (State.tryWrite_view (Parts.apart_of _ hq (by decide)) _ _ _ _ _ _ hp) e
        · exact State.discarded_view ..

end Sys2Proof.Machine
end

