-- ==== Sys2Proof/Laws/View/Dma.lean ====
section
/-! SUPPORT. Which parts the operations of Machine/Dma.lean leave as they were. -/
namespace Sys2Proof.Machine

theorem execRecordEnqueue_view {q : Parts} (hq : q.apart { time := true, ddc := true } = true) (b : BayNo) (p : Port) (xs : List Sample) (s0 : State) : Out.view q (execRecordEnqueue b p xs s0) = some (s0.view q) := by
  refine out_view_of { time := true, ddc := true } hq ?_
  simp only [execRecordEnqueue, ↓out_view_ite, ↓out_view_next, ite_self, ↓State.reach_view (q := Parts.others { time := true, ddc := true }) (by decide), ↓State.modPort_view (q := Parts.others { time := true, ddc := true }) (by decide), ↓State.enqueue_view]

theorem State.readMap_view {q : Parts} (hq : q.apart { img := true, faults := true, ident := true, clk := true, time := true, domains := true, mco := true, recorder := true, lne := true } = true) (s : State) (a : Nat) (n : Nat) : (s.readMap a n).2.view q = s.view q := by
  refine view_of { img := true, faults := true, ident := true, clk := true, time := true, domains := true, mco := true, recorder := true, lne := true } hq ?_
  induction n generalizing s a with
  | zero => rfl
  | succ n ih =>
    unfold State.readMap
    extract_lets a' refused w r
    have hr : r.2.view (Parts.others { img := true, faults := true, ident := true, clk := true, time := true, domains := true, mco := true, recorder := true, lne := true }) = s.view (Parts.others { img := true, faults := true, ident := true, clk := true, time := true, domains := true, mco := true, recorder := true, lne := true }) := (ih ..).trans (State.readWord_view (q := Parts.others { img := true, faults := true, ident := true, clk := true, time := true, domains := true, mco := true, recorder := true, lne := true }) (by decide) ..)
    clear_value r
    split
    · rfl
    · exact hr

theorem State.readElem_view {q : Parts} (hq : q.apart { img := true, faults := true, ident := true, clk := true, time := true, domains := true, mco := true, recorder := true, lne := true } = true) (s : State) (b : BayNo) (space a w : Nat) (host : List Byte) : (s.readElem b space a w host).2.view q = s.view q := by
  refine view_of { img := true, faults := true, ident := true, clk := true, time := true, domains := true, mco := true, recorder := true, lne := true } hq ?_
  unfold State.readElem
  split
  · rfl
  · exact State.captureBytes_view ..
  · split
    split <;> rfl
  · exact State.readMap_view (q := Parts.others { img := true, faults := true, ident := true, clk := true, time := true, domains := true, mco := true, recorder := true, lne := true }) (by decide) ..

theorem State.writeMap_view {q : Parts} (hq : q.apart { vals := true, img := true, tbs := true, keeper := true, pwr := true, trg := true, ident := true, eth := true, fabric := true, kill := true, clk := true, time := true, dma := true, domains := true, units := true, afe := true, adc := true, ddc := true, xfm := true, den := true, mco := true, scn := true, recorder := true, lne := true, ports := true, jes := true, cal := true, hkc := true, aux := true, mon := true } = true) (s : State) (a : Nat) (bs : List Byte) (n : Nat) : viewOr q (s.view q) (s.writeMap a bs n) = s.view q := by
  refine viewOr_of { vals := true, img := true, tbs := true, keeper := true, pwr := true, trg := true, ident := true, eth := true, fabric := true, kill := true, clk := true, time := true, dma := true, domains := true, units := true, afe := true, adc := true, ddc := true, xfm := true, den := true, mco := true, scn := true, recorder := true, lne := true, ports := true, jes := true, cal := true, hkc := true, aux := true, mon := true } hq ?_
  induction n generalizing s a bs with
  | zero => rfl
  | succ n ih =>
    unfold State.writeMap
    split
    · rfl
    · extract_lets a' refused o now en
      split
      · rfl
      · have h := State.writeWord_view (q := Parts.others { vals := true, img := true, tbs := true, keeper := true, pwr := true, trg := true, ident := true, eth := true, fabric := true, kill := true, clk := true, time := true, dma := true, domains := true, units := true, afe := true, adc := true, ddc := true, xfm := true, den := true, mco := true, scn := true, recorder := true, lne := true, ports := true, jes := true, cal := true, hkc := true, aux := true, mon := true }) (by decide) s (a' / 4 * 4) (wd (leNat now * 256 ^ o)) en .dma (fun e => nomatch e)
        exact h ▸ ih ..

theorem State.writeElem_view {q : Parts} (hq : q.apart { vals := true, img := true, tbs := true, keeper := true, pwr := true, trg := true, ident := true, eth := true, fabric := true, kill := true, clk := true, time := true, dma := true, domains := true, units := true, afe := true, adc := true, ddc := true, xfm := true, den := true, mco := true, scn := true, recorder := true, lne := true, ports := true, jes := true, cal := true, hkc := true, aux := true, mon := true } = true) (s : State) (b : BayNo) (c : Fin 32) (space a : Nat) (bs : List Byte) : viewOr q (s.view q) (s.writeElem b c space a bs) = s.view q := by
  refine viewOr_of { vals := true, img := true, tbs := true, keeper := true, pwr := true, trg := true, ident := true, eth := true, fabric := true, kill := true, clk := true, time := true, dma := true, domains := true, units := true, afe := true, adc := true, ddc := true, xfm := true, den := true, mco := true, scn := true, recorder := true, lne := true, ports := true, jes := true, cal := true, hkc := true, aux := true, mon := true } hq ?_
  unfold State.writeElem
  split
  · exact State.emit_view ..
  · exact State.capturePut_view ..
  · split
    split
    · rfl
    · exact State.modCore_view (q := Parts.others { vals := true, img := true, tbs := true, keeper := true, pwr := true, trg := true, ident := true, eth := true, fabric := true, kill := true, clk := true, time := true, dma := true, domains := true, units := true, afe := true, adc := true, ddc := true, xfm := true, den := true, mco := true, scn := true, recorder := true, lne := true, ports := true, jes := true, cal := true, hkc := true, aux := true, mon := true }) (by decide) ..
  · exact State.writeMap_view (q := Parts.others { vals := true, img := true, tbs := true, keeper := true, pwr := true, trg := true, ident := true, eth := true, fabric := true, kill := true, clk := true, time := true, dma := true, domains := true, units := true, afe := true, adc := true, ddc := true, xfm := true, den := true, mco := true, scn := true, recorder := true, lne := true, ports := true, jes := true, cal := true, hkc := true, aux := true, mon := true }) (by decide) ..

theorem State.fillHolding_view {q : Parts} (hq : q.apart { img := true, faults := true, ident := true, clk := true, time := true, dma := true, domains := true, mco := true, recorder := true, lne := true } = true) (s : State) (b : BayNo) (c : Fin 32) (a w : Nat) (fixed : Bool) (host : List Byte) (n : Nat) : (s.fillHolding b c a w fixed host n).2.view q = s.view q := by
  refine view_of { img := true, faults := true, ident := true, clk := true, time := true, dma := true, domains := true, mco := true, recorder := true, lne := true } hq ?_
  induction n generalizing s a host with
  | zero => rfl
  | succ n ih =>
    unfold State.fillHolding
    extract_lets r
    have hr : r.2.view (Parts.others { img := true, faults := true, ident := true, clk := true, time := true, dma := true, domains := true, mco := true, recorder := true, lne := true }) = s.view (Parts.others { img := true, faults := true, ident := true, clk := true, time := true, dma := true, domains := true, mco := true, recorder := true, lne := true }) := State.readElem_view (q := Parts.others { img := true, faults := true, ident := true, clk := true, time := true, dma := true, domains := true, mco := true, recorder := true, lne := true }) (by decide) ..
    clear_value r
    split
    · exact hr
    · exact (ih ..).trans ((State.modDma_view (q := Parts.others { img := true, faults := true, ident := true, clk := true, time := true, dma := true, domains := true, mco := true, recorder := true, lne := true }) (by decide) ..).trans hr)

theorem State.drainHolding_view {q : Parts} (hq : q.apart { vals := true, img := true, tbs := true, keeper := true, pwr := true, trg := true, ident := true, eth := true, fabric := true, kill := true, clk := true, time := true, dma := true, domains := true, units := true, afe := true, adc := true, ddc := true, xfm := true, den := true, mco := true, scn := true, recorder := true, lne := true, ports := true, jes := true, cal := true, hkc := true, aux := true, mon := true } = true) (s : State) (b : BayNo) (c : Fin 32) (a w : Nat) (fixed : Bool) (n : Nat) : (s.drainHolding b c a w fixed n).2.view q = s.view q := by
  refine view_of { vals := true, img := true, tbs := true, keeper := true, pwr := true, trg := true, ident := true, eth := true, fabric := true, kill := true, clk := true, time := true, dma := true, domains := true, units := true, afe := true, adc := true, ddc := true, xfm := true, den := true, mco := true, scn := true, recorder := true, lne := true, ports := true, jes := true, cal := true, hkc := true, aux := true, mon := true } hq ?_
  induction n generalizing s a with
  | zero => rfl
  | succ n ih =>
    unfold State.drainHolding
    extract_lets bs
    split
    · rfl
    · next e => exact (ih ..).trans ((State.modDma_view (q := Parts.others { vals := true, img := true, tbs := true, keeper := true, pwr := true, trg := true, ident := true, eth := true, fabric := true, kill := true, clk := true, time := true, dma := true, domains := true, units := true, afe := true, adc := true, ddc := true, xfm := true, den := true, mco := true, scn := true, recorder := true, lne := true, ports := true, jes := true, cal := true, hkc := true, aux := true, mon := true }) (by decide) ..).trans (view_of_some (State.writeElem_view (q := Parts.others { vals := true, img := true, tbs := true, keeper := true, pwr := true, trg := true, ident := true, eth := true, fabric := true, kill := true, clk := true, time := true, dma := true, domains := true, units := true, afe := true, adc := true, ddc := true, xfm := true, den := true, mco := true, scn := true, recorder := true, lne := true, ports := true, jes := true, cal := true, hkc := true, aux := true, mon := true }) (by decide) ..) e))

theorem State.moveChunks_view {q : Parts} (hq : q.apart { vals := true, img := true, tbs := true, keeper := true, pwr := true, faults := true, trg := true, ident := true, eth := true, fabric := true, kill := true, clk := true, time := true, dma := true, domains := true, units := true, afe := true, adc := true, ddc := true, xfm := true, den := true, mco := true, scn := true, recorder := true, lne := true, ports := true, jes := true, cal := true, hkc := true, aux := true, mon := true } = true) (s : State) (b : BayNo) (c : Fin 32) (last : Nat) (host : List Byte) (n : Nat) : (s.moveChunks b c last host n).2.view q = s.view q := by
  refine view_of { vals := true, img := true, tbs := true, keeper := true, pwr := true, faults := true, trg := true, ident := true, eth := true, fabric := true, kill := true, clk := true, time := true, dma := true, domains := true, units := true, afe := true, adc := true, ddc := true, xfm := true, den := true, mco := true, scn := true, recorder := true, lne := true, ports := true, jes := true, cal := true, hkc := true, aux := true, mon := true } hq ?_
  induction n generalizing s host with
  | zero => rfl
  | succ n ih =>
    unfold State.moveChunks
    extract_lets x m ws wt fs fd src dst need f d
    have hf : f.2.view (Parts.others { vals := true, img := true, tbs := true, keeper := true, pwr := true, faults := true, trg := true, ident := true, eth := true, fabric := true, kill := true, clk := true, time := true, dma := true, domains := true, units := true, afe := true, adc := true, ddc := true, xfm := true, den := true, mco := true, scn := true, recorder := true, lne := true, ports := true, jes := true, cal := true, hkc := true, aux := true, mon := true }) = s.view (Parts.others { vals := true, img := true, tbs := true, keeper := true, pwr := true, faults := true, trg := true, ident := true, eth := true, fabric := true, kill := true, clk := true, time := true, dma := true, domains := true, units := true, afe := true, adc := true, ddc := true, xfm := true, den := true, mco := true, scn := true, recorder := true, lne := true, ports := true, jes := true, cal := true, hkc := true, aux := true, mon := true }) := State.fillHolding_view (q := Parts.others { vals := true, img := true, tbs := true, keeper := true, pwr := true, faults := true, trg := true, ident := true, eth := true, fabric := true, kill := true, clk := true, time := true, dma := true, domains := true, units := true, afe := true, adc := true, ddc := true, xfm := true, den := true, mco := true, scn := true, recorder := true, lne := true, ports := true, jes := true, cal := true, hkc := true, aux := true, mon := true }) (by decide) ..
    have hd : d.2.view (Parts.others { vals := true, img := true, tbs := true, keeper := true, pwr := true, faults := true, trg := true, ident := true, eth := true, fabric := true, kill := true, clk := true, time := true, dma := true, domains := true, units := true, afe := true, adc := true, ddc := true, xfm := true, den := true, mco := true, scn := true, recorder := true, lne := true, ports := true, jes := true, cal := true, hkc := true, aux := true, mon := true }) = s.view (Parts.others { vals := true, img := true, tbs := true, keeper := true, pwr := true, faults := true, trg := true, ident := true, eth := true, fabric := true, kill := true, clk := true, time := true, dma := true, domains := true, units := true, afe := true, adc := true, ddc := true, xfm := true, den := true, mco := true, scn := true, recorder := true, lne := true, ports := true, jes := true, cal := true, hkc := true, aux := true, mon := true }) := (State.drainHolding_view (q := Parts.others { vals := true, img := true, tbs := true, keeper := true, pwr := true, faults := true, trg := true, ident := true, eth := true, fabric := true, kill := true, clk := true, time := true, dma := true, domains := true, units := true, afe := true, adc := true, ddc := true, xfm := true, den := true, mco := true, scn := true, recorder := true, lne := true, ports := true, jes := true, cal := true, hkc := true, aux := true, mon := true }) (by decide) ..).trans hf
    clear_value d f
    split
    · rfl
    · split
      · exact hf
      · split
        · exact hd
        · exact (ih ..).trans hd

theorem execDmaRecordStart_view {q : Parts} (hq : q.apart { dma := true } = true) (b : BayNo) (n : Fin 32) (s : State) : Out.view q (execDmaRecordStart b n s) = some (s.view q) := by
  refine out_view_of { dma := true } hq ?_
  simp only [execDmaRecordStart]
  repeat' split
  all_goals simp only [↓out_view_next, ↓State.modDma_view (q := Parts.others { dma := true }) (by decide), ↓State.popQueue_view, ↓State.dmaError_view (q := Parts.others { dma := true }) (by decide), ↓State.injectorAct_view]

theorem State.ringPut_view {q : Parts} (s : State) (b : BayNo) (n : Fin 32) (off : Nat) (bs : List Byte) : (State.ringPut s b n off bs).view q = s.view q := by
  simp only [State.ringPut, ↓view_ite, ite_self, ↓State.emit_view]

theorem execDmaBurst_view {q : Parts} (hq : q.apart { vals := true, img := true, tbs := true, keeper := true, pwr := true, faults := true, trg := true, ident := true, eth := true, fabric := true, kill := true, clk := true, time := true, dma := true, domains := true, units := true, afe := true, adc := true, ddc := true, xfm := true, den := true, mco := true, scn := true, recorder := true, lne := true, ports := true, jes := true, cal := true, hkc := true, aux := true, mon := true } = true) (b : BayNo) (n : Fin 32) (data : List Byte) (s0 : State) : Out.view q (execDmaBurst b n data s0) = some (s0.view q) := by
  refine out_view_of { vals := true, img := true, tbs := true, keeper := true, pwr := true, faults := true, trg := true, ident := true, eth := true, fabric := true, kill := true, clk := true, time := true, dma := true, domains := true, units := true, afe := true, adc := true, ddc := true, xfm := true, den := true, mco := true, scn := true, recorder := true, lne := true, ports := true, jes := true, cal := true, hkc := true, aux := true, mon := true } hq ?_
  unfold execDmaBurst
  extract_lets from_ t s c total k s1 m
  have hs : s.view (Parts.others { vals := true, img := true, tbs := true, keeper := true, pwr := true, faults := true, trg := true, ident := true, eth := true, fabric := true, kill := true, clk := true, time := true, dma := true, domains := true, units := true, afe := true, adc := true, ddc := true, xfm := true, den := true, mco := true, scn := true, recorder := true, lne := true, ports := true, jes := true, cal := true, hkc := true, aux := true, mon := true }) = s0.view (Parts.others { vals := true, img := true, tbs := true, keeper := true, pwr := true, faults := true, trg := true, ident := true, eth := true, fabric := true, kill := true, clk := true, time := true, dma := true, domains := true, units := true, afe := true, adc := true, ddc := true, xfm := true, den := true, mco := true, scn := true, recorder := true, lne := true, ports := true, jes := true, cal := true, hkc := true, aux := true, mon := true }) := State.reach_view (q := Parts.others { vals := true, img := true, tbs := true, keeper := true, pwr := true, faults := true, trg := true, ident := true, eth := true, fabric := true, kill := true, clk := true, time := true, dma := true, domains := true, units := true, afe := true, adc := true, ddc := true, xfm := true, den := true, mco := true, scn := true, recorder := true, lne := true, ports := true, jes := true, cal := true, hkc := true, aux := true, mon := true }) (by decide) ..
  clear_value s
  have h1 : s1.view (Parts.others { vals := true, img := true, tbs := true, keeper := true, pwr := true, faults := true, trg := true, ident := true, eth := true, fabric := true, kill := true, clk := true, time := true, dma := true, domains := true, units := true, afe := true, adc := true, ddc := true, xfm := true, den := true, mco := true, scn := true, recorder := true, lne := true, ports := true, jes := true, cal := true, hkc := true, aux := true, mon := true }) = s0.view (Parts.others { vals := true, img := true, tbs := true, keeper := true, pwr := true, faults := true, trg := true, ident := true, eth := true, fabric := true, kill := true, clk := true, time := true, dma := true, domains := true, units := true, afe := true, adc := true, ddc := true, xfm := true, den := true, mco := true, scn := true, recorder := true, lne := true, ports := true, jes := true, cal := true, hkc := true, aux := true, mon := true }) := by
    refine (State.modBay_view _ _ _ _ ?_).trans ((State.modDma_view (q := Parts.others { vals := true, img := true, tbs := true, keeper := true, pwr := true, faults := true, trg := true, ident := true, eth := true, fabric := true, kill := true, clk := true, time := true, dma := true, domains := true, units := true, afe := true, adc := true, ddc := true, xfm := true, den := true, mco := true, scn := true, recorder := true, lne := true, ports := true, jes := true, cal := true, hkc := true, aux := true, mon := true }) (by decide) ..).trans hs)
    exact fun _ => rfl
  clear_value s1
  split
  · rfl
  · split
    · exact next_view (State.modDma_view (q := Parts.others { vals := true, img := true, tbs := true, keeper := true, pwr := true, faults := true, trg := true, ident := true, eth := true, fabric := true, kill := true, clk := true, time := true, dma := true, domains := true, units := true, afe := true, adc := true, ddc := true, xfm := true, den := true, mco := true, scn := true, recorder := true, lne := true, ports := true, jes := true, cal := true, hkc := true, aux := true, mon := true }) (by decide) ..)
    · split
      · rfl
      · split
        · split
          · exact next_view hs
          · next r _ =>
            refine next_view ((State.modDma_view (q := Parts.others { vals := true, img := true, tbs := true, keeper := true, pwr := true, faults := true, trg := true, ident := true, eth := true, fabric := true, kill := true, clk := true, time := true, dma := true, domains := true, units := true, afe := true, adc := true, ddc := true, xfm := true, den := true, mco := true, scn := true, recorder := true, lne := true, ports := true, jes := true, cal := true, hkc := true, aux := true, mon := true }) (by decide) ..).trans ?_)
            split
            · exact (State.ringPut_view ..).trans h1
            · split
              · exact h1
              · exact (State.sendPackets_view (q := Parts.others { vals := true, img := true, tbs := true, keeper := true, pwr := true, faults := true, trg := true, ident := true, eth := true, fabric := true, kill := true, clk := true, time := true, dma := true, domains := true, units := true, afe := true, adc := true, ddc := true, xfm := true, den := true, mco := true, scn := true, recorder := true, lne := true, ports := true, jes := true, cal := true, hkc := true, aux := true, mon := true }) (by decide) s1 _ r _ _ _ _).trans h1
            · exact h1
        · have hm : m.2.view (Parts.others { vals := true, img := true, tbs := true, keeper := true, pwr := true, faults := true, trg := true, ident := true, eth := true, fabric := true, kill := true, clk := true, time := true, dma := true, domains := true, units := true, afe := true, adc := true, ddc := true, xfm := true, den := true, mco := true, scn := true, recorder := true, lne := true, ports := true, jes := true, cal := true, hkc := true, aux := true, mon := true }) = s0.view (Parts.others { vals := true, img := true, tbs := true, keeper := true, pwr := true, faults := true, trg := true, ident := true, eth := true, fabric := true, kill := true, clk := true, time := true, dma := true, domains := true, units := true, afe := true, adc := true, ddc := true, xfm := true, den := true, mco := true, scn := true, recorder := true, lne := true, ports := true, jes := true, cal := true, hkc := true, aux := true, mon := true }) := (State.moveChunks_view (q := Parts.others { vals := true, img := true, tbs := true, keeper := true, pwr := true, faults := true, trg := true, ident := true, eth := true, fabric := true, kill := true, clk := true, time := true, dma := true, domains := true, units := true, afe := true, adc := true, ddc := true, xfm := true, den := true, mco := true, scn := true, recorder := true, lne := true, ports := true, jes := true, cal := true, hkc := true, aux := true, mon := true }) (by decide) ..).trans h1
          clear_value m
          split
          · exact next_view hm
          · exact next_view ((State.dmaError_view (q := Parts.others { vals := true, img := true, tbs := true, keeper := true, pwr := true, faults := true, trg := true, ident := true, eth := true, fabric := true, kill := true, clk := true, time := true, dma := true, domains := true, units := true, afe := true, adc := true, ddc := true, xfm := true, den := true, mco := true, scn := true, recorder := true, lne := true, ports := true, jes := true, cal := true, hkc := true, aux := true, mon := true }) (by decide) ..).trans hm)

theorem execDmaRecordDelivered_view {q : Parts} (hq : q.apart { eth := true, dma := true, mco := true, recorder := true, ports := true } = true) (b : BayNo) (n : Fin 32) (s : State) : Out.view q (execDmaRecordDelivered b n s) = some (s.view q) := by
  refine out_view_of { eth := true, dma := true, mco := true, recorder := true, ports := true } hq ?_
  simp only [execDmaRecordDelivered]
  repeat' split
  all_goals simp only [↓out_view_next, ↓State.recTake_view (q := Parts.others { eth := true, dma := true, mco := true, recorder := true, ports := true }) (by decide), ↓State.modDma_view (q := Parts.others { eth := true, dma := true, mco := true, recorder := true, ports := true }) (by decide), ↓State.dmaDelivered_view (q := Parts.others { eth := true, dma := true, mco := true, recorder := true, ports := true }) (by decide), ↓State.holdRecord_view, ↓State.passRecord_view (q := Parts.others { eth := true, dma := true, mco := true, recorder := true, ports := true }) (by decide), ↓State.emit_view]

theorem execDmaTransferDone_view {q : Parts} (hq : q.apart { dma := true, mco := true } = true) (b : BayNo) (n : Fin 32) (s : State) : Out.view q (execDmaTransferDone b n s) = some (s.view q) := by
  refine out_view_of { dma := true, mco := true } hq ?_
  simp only [execDmaTransferDone, ↓out_view_ite, ↓out_view_next, ite_self, ↓State.modDma_view (q := Parts.others { dma := true, mco := true }) (by decide), ↓State.dmaComplete_view (q := Parts.others { dma := true, mco := true }) (by decide)]

theorem State.holdPacketOf_view {q : Parts} (hq : q.apart { img := true, faults := true, ident := true, clk := true, time := true, dma := true, domains := true, mco := true, recorder := true, lne := true } = true) (s : State) (b : BayNo) (n : Fin 32) (data : List Byte) : (State.holdPacketOf s b n data).view q = s.view q := by
  refine view_of { img := true, faults := true, ident := true, clk := true, time := true, dma := true, domains := true, mco := true, recorder := true, lne := true } hq ?_
  simp only [State.holdPacketOf, ↓view_ite, ite_self, ↓State.fillHolding_view (q := Parts.others { img := true, faults := true, ident := true, clk := true, time := true, dma := true, domains := true, mco := true, recorder := true, lne := true }) (by decide)]

theorem execAsleepCompletion_view {q : Parts} (hq : q.apart { img := true, faults := true, ident := true, clk := true, time := true, dma := true, domains := true, mco := true, recorder := true, lne := true } = true) (b : BayNo) (n : Fin 32) (data : List Byte) (s : State) : Out.view q (execAsleepCompletion b n data s) = some (s.view q) := by
  refine out_view_of { img := true, faults := true, ident := true, clk := true, time := true, dma := true, domains := true, mco := true, recorder := true, lne := true } hq ?_
  simp only [execAsleepCompletion]
  repeat' split
  all_goals simp only [↓out_view_next, ↓State.modCore_view (q := Parts.others { img := true, faults := true, ident := true, clk := true, time := true, dma := true, domains := true, mco := true, recorder := true, lne := true }) (by decide), ↓State.modDma_view (q := Parts.others { img := true, faults := true, ident := true, clk := true, time := true, dma := true, domains := true, mco := true, recorder := true, lne := true }) (by decide), ↓State.dmaError_view (q := Parts.others { img := true, faults := true, ident := true, clk := true, time := true, dma := true, domains := true, mco := true, recorder := true, lne := true }) (by decide), ↓State.event_view, ↓State.holdPacketOf_view (q := Parts.others { img := true, faults := true, ident := true, clk := true, time := true, dma := true, domains := true, mco := true, recorder := true, lne := true }) (by decide)]

theorem State.hostError_view {q : Parts} (hq : q.apart { dma := true, pci := true } = true) (s : State) (b : BayNo) (n : Fin 32) : (State.hostError s b n).view q = s.view q := by
  refine view_of { dma := true, pci := true } hq ?_
  simp only [State.hostError]
  repeat' split
  all_goals simp only [↓State.modPci_view (q := Parts.others { dma := true, pci := true }) (by decide), ↓State.dmaError_view (q := Parts.others { dma := true, pci := true }) (by decide)]

theorem execHostReadTimeout_view {q : Parts} (hq : q.apart { time := true, dma := true, pci := true } = true) (b : BayNo) (n : Fin 32) (s : State) : Out.view q (execHostReadTimeout b n s) = some (s.view q) := by
  refine out_view_of { time := true, dma := true, pci := true } hq ?_
  simp only [execHostReadTimeout, ↓out_view_ite, ↓out_view_next, ite_self, ↓State.passTime_view (q := Parts.others { time := true, dma := true, pci := true }) (by decide), ↓State.hostError_view (q := Parts.others { time := true, dma := true, pci := true }) (by decide)]

theorem execHostErrorCompletion_view {q : Parts} (hq : q.apart { dma := true, pci := true } = true) (b : BayNo) (n : Fin 32) (s : State) : Out.view q (execHostErrorCompletion b n s) = some (s.view q) := by
  refine out_view_of { dma := true, pci := true } hq ?_
  simp only [execHostErrorCompletion, ↓out_view_ite, ↓out_view_next, ite_self, ↓State.hostError_view (q := Parts.others { dma := true, pci := true }) (by decide)]

theorem execRegisterWrite_view {q : Parts} (hq : q.apart { vals := true, img := true, tbs := true, keeper := true, pwr := true, trg := true, ident := true, eth := true, fabric := true, kill := true, clk := true, time := true, dma := true, domains := true, units := true, afe := true, adc := true, ddc := true, xfm := true, den := true, mco := true, scn := true, recorder := true, lne := true, ports := true, jes := true, cal := true, hkc := true, aux := true, mon := true } = true) (a v : Word) (en : BitVec 4) (s : State) : Out.view q (execRegisterWrite a v en s) = some (s.view q) := by
  refine out_view_of { vals := true, img := true, tbs := true, keeper := true, pwr := true, trg := true, ident := true, eth := true, fabric := true, kill := true, clk := true, time := true, dma := true, domains := true, units := true, afe := true, adc := true, ddc := true, xfm := true, den := true, mco := true, scn := true, recorder := true, lne := true, ports := true, jes := true, cal := true, hkc := true, aux := true, mon := true } hq ?_
  unfold execRegisterWrite
  split
  · rfl
  · exact next_view (State.writeWord_view (q := Parts.others { vals := true, img := true, tbs := true, keeper := true, pwr := true, trg := true, ident := true, eth := true, fabric := true, kill := true, clk := true, time := true, dma := true, domains := true, units := true, afe := true, adc := true, ddc := true, xfm := true, den := true, mco := true, scn := true, recorder := true, lne := true, ports := true, jes := true, cal := true, hkc := true, aux := true, mon := true }) (by decide) _ _ _ _ _ (fun e => nomatch e))

theorem State.svcWrite_view {q : Parts} (hq : q.apart { vals := true, img := true, flash := true, tbs := true, keeper := true, fuses := true, pwr := true, trg := true, ident := true, eth := true, fabric := true, kill := true, clk := true, time := true, dma := true, domains := true, units := true, afe := true, adc := true, ddc := true, xfm := true, den := true, mco := true, scn := true, recorder := true, lne := true, ports := true, jes := true, cal := true, hkc := true, aux := true, mon := true } = true) (s : State) (a : Nat) (bs : List Byte) (n : Nat) : (s.svcWrite a bs n).2.view q = s.view q := by
  refine view_of { vals := true, img := true, flash := true, tbs := true, keeper := true, fuses := true, pwr := true, trg := true, ident := true, eth := true, fabric := true, kill := true, clk := true, time := true, dma := true, domains := true, units := true, afe := true, adc := true, ddc := true, xfm := true, den := true, mco := true, scn := true, recorder := true, lne := true, ports := true, jes := true, cal := true, hkc := true, aux := true, mon := true } hq ?_
  induction n generalizing s a bs with
  | zero => rfl
  | succ n ih =>
    unfold State.svcWrite
    split
    · rfl
    · exact (ih ..).trans (State.writeWord_view (q := Parts.others { vals := true, img := true, flash := true, tbs := true, keeper := true, fuses := true, pwr := true, trg := true, ident := true, eth := true, fabric := true, kill := true, clk := true, time := true, dma := true, domains := true, units := true, afe := true, adc := true, ddc := true, xfm := true, den := true, mco := true, scn := true, recorder := true, lne := true, ports := true, jes := true, cal := true, hkc := true, aux := true, mon := true }) (by decide) _ _ _ _ _ (fun _ => by decide))

theorem State.svcRead_view {q : Parts} (hq : q.apart { img := true, faults := true, ident := true, clk := true, time := true, domains := true, mco := true, recorder := true, lne := true } = true) (s : State) (a : Nat) (n : Nat) : (s.svcRead a n).2.view q = s.view q := by
  refine view_of { img := true, faults := true, ident := true, clk := true, time := true, domains := true, mco := true, recorder := true, lne := true } hq ?_
  induction n generalizing s a with
  | zero => rfl
  | succ n ih => exact (ih ..).trans (State.readWord_view (q := Parts.others { img := true, faults := true, ident := true, clk := true, time := true, domains := true, mco := true, recorder := true, lne := true }) (by decide) ..)

theorem execSvcTransaction_view {q : Parts} (hq : q.apart { vals := true, img := true, flash := true, tbs := true, keeper := true, fuses := true, pwr := true, faults := true, trg := true, ident := true, eth := true, fabric := true, kill := true, clk := true, time := true, dma := true, domains := true, units := true, afe := true, adc := true, ddc := true, xfm := true, den := true, mco := true, scn := true, recorder := true, lne := true, ports := true, jes := true, cal := true, hkc := true, aux := true, mon := true } = true) (op : SvcOp) (s : State) : Out.view q (execSvcTransaction op s) = some (s.view q) := by
  refine out_view_of { vals := true, img := true, flash := true, tbs := true, keeper := true, fuses := true, pwr := true, faults := true, trg := true, ident := true, eth := true, fabric := true, kill := true, clk := true, time := true, dma := true, domains := true, units := true, afe := true, adc := true, ddc := true, xfm := true, den := true, mco := true, scn := true, recorder := true, lne := true, ports := true, jes := true, cal := true, hkc := true, aux := true, mon := true } hq ?_
  simp only [execSvcTransaction]
  repeat' split
  all_goals simp only [↓out_view_next, ↓State.modIdent_view (q := Parts.others { vals := true, img := true, flash := true, tbs := true, keeper := true, fuses := true, pwr := true, faults := true, trg := true, ident := true, eth := true, fabric := true, kill := true, clk := true, time := true, dma := true, domains := true, units := true, afe := true, adc := true, ddc := true, xfm := true, den := true, mco := true, scn := true, recorder := true, lne := true, ports := true, jes := true, cal := true, hkc := true, aux := true, mon := true }) (by decide), ↓State.emit_view, ↓State.svcWrite_view (q := Parts.others { vals := true, img := true, flash := true, tbs := true, keeper := true, fuses := true, pwr := true, faults := true, trg := true, ident := true, eth := true, fabric := true, kill := true, clk := true, time := true, dma := true, domains := true, units := true, afe := true, adc := true, ddc := true, xfm := true, den := true, mco := true, scn := true, recorder := true, lne := true, ports := true, jes := true, cal := true, hkc := true, aux := true, mon := true }) (by decide), ↓State.svcRead_view (q := Parts.others { vals := true, img := true, flash := true, tbs := true, keeper := true, fuses := true, pwr := true, faults := true, trg := true, ident := true, eth := true, fabric := true, kill := true, clk := true, time := true, dma := true, domains := true, units := true, afe := true, adc := true, ddc := true, xfm := true, den := true, mco := true, scn := true, recorder := true, lne := true, ports := true, jes := true, cal := true, hkc := true, aux := true, mon := true }) (by decide)]

theorem execSvcAlertClear_view {q : Parts} (hq : q.apart { ident := true } = true) (v : Word) (s : State) : Out.view q (execSvcAlertClear v s) = some (s.view q) := by
  refine out_view_of { ident := true } hq ?_
  unfold execSvcAlertClear
  split <;> rfl

theorem execJtagUpdateIr_view {q : Parts} (hq : q.apart { keeper := true, jtag := true } = true) (b : BayNo) (op : JtagOp) (s : State) : Out.view q (execJtagUpdateIr b op s) = some (s.view q) := by
  refine out_view_of { keeper := true, jtag := true } hq ?_
  unfold execJtagUpdateIr
  try dsimp only
  repeat' (first | rfl | with_reducible (first | rfl | refine next_view ?_ | exact State.modBay_view _ _ _ _ (fun _ => rfl) | exact State.modSeal_view _ _ _ rfl | refine (State.modSeal_view _ _ _ rfl).trans ?_ | refine (State.modSeal_free (by decide) (by decide) ..).trans ?_ | refine (State.sealLog_view (q := Parts.others { keeper := true, jtag := true }) (by decide) ..).trans ?_ | refine (State.emit_view ..).trans ?_) | (refine (State.modBay_view _ _ _ _ ?hb).trans ?_; case hb => exact fun _ => rfl) | split | (refine foldl_view _ _ (fun _ _ => ?_) _ _; try dsimp only) | (refine (foldl_view _ _ (fun _ _ => ?_) _ _).trans ?_; try dsimp only) | (refine (State.eachBay_view _ _ (fun _ _ => ?_) _ _).trans ?_; try dsimp only))

theorem execJtagTestLogicReset_view {q : Parts} (hq : q.apart { jtag := true } = true) (b : BayNo) (s : State) : Out.view q (execJtagTestLogicReset b s) = some (s.view q) := by
  refine out_view_of { jtag := true } hq ?_
  unfold execJtagTestLogicReset
  split
  · rfl
  · exact next_view ((State.modBay_view _ _ _ _ (by intro _; rfl)))

end Sys2Proof.Machine
end

