-- ==== Sys2Proof/Laws/View/Acq.lean ====
section
/-! SUPPORT. Which parts the operations of Machine/Acq.lean leave as they were. -/
namespace Sys2Proof.Machine

theorem execHopBoundary_view {q : Parts} (hq : q.apart { vals := true, img := true, tbs := true, keeper := true, time := true, units := true, afe := true, adc := true, ddc := true, xfm := true, den := true, mco := true, lne := true, cal := true, hkc := true, aux := true, mon := true } = true) (b : BayNo) (x : Fin 2) (t : Stamp) (s0 : State) : Out.view q (execHopBoundary b x t s0) = some (s0.view q) := by
  refine out_view_of { vals := true, img := true, tbs := true, keeper := true, time := true, units := true, afe := true, adc := true, ddc := true, xfm := true, den := true, mco := true, lne := true, cal := true, hkc := true, aux := true, mon := true } hq ?_
  simp only [execHopBoundary, ↓view_ite, ↓out_view_ite, ↓out_view_next, ↓foldl_view, ite_self, implies_true, ↓State.modImg_view (q := Parts.others { vals := true, img := true, tbs := true, keeper := true, time := true, units := true, afe := true, adc := true, ddc := true, xfm := true, den := true, mco := true, lne := true, cal := true, hkc := true, aux := true, mon := true }) (by decide), ↓State.reach_view (q := Parts.others { vals := true, img := true, tbs := true, keeper := true, time := true, units := true, afe := true, adc := true, ddc := true, xfm := true, den := true, mco := true, lne := true, cal := true, hkc := true, aux := true, mon := true }) (by decide), ↓State.maskSwitch_view (q := Parts.others { vals := true, img := true, tbs := true, keeper := true, time := true, units := true, afe := true, adc := true, ddc := true, xfm := true, den := true, mco := true, lne := true, cal := true, hkc := true, aux := true, mon := true }) (by decide), ↓State.hopApply_view (q := Parts.others { vals := true, img := true, tbs := true, keeper := true, time := true, units := true, afe := true, adc := true, ddc := true, xfm := true, den := true, mco := true, lne := true, cal := true, hkc := true, aux := true, mon := true }) (by decide)]

theorem State.closeCalGaps_view {q : Parts} (hq : q.apart { ddc := true, xfm := true } = true) (s : State) (b : BayNo) (t : Stamp) : (s.closeCalGaps b t).view q = s.view q := by
  refine view_of { ddc := true, xfm := true } hq ?_
  unfold State.closeCalGaps
  refine (foldl_view _ _ (fun s x => ?_) _ _).trans (foldl_view _ _ (fun s p => ?_) _ _)
  · split
    · split
      · exact (State.enqueue_view ..).trans (State.modChan_view (q := Parts.others { ddc := true, xfm := true }) (by decide) ..)
      · rfl
    · rfl
  · split
    · split
      · exact State.closeStreamGap_view (q := Parts.others { ddc := true, xfm := true }) (by decide) ..
      · rfl
    · rfl

theorem State.stopAll_view {q : Parts} (hq : q.apart { units := true, ddc := true, xfm := true, den := true } = true) (s : State) (b : BayNo) (reason : GapReason) (t : Stamp) : (State.stopAll s b reason t).view q = s.view q := by
  refine view_of { units := true, ddc := true, xfm := true, den := true } hq ?_
  simp only [State.stopAll, ↓view_ite, ↓foldl_view, ite_self, implies_true, ↓State.modPort_view (q := Parts.others { units := true, ddc := true, xfm := true, den := true }) (by decide), ↓State.stopPort_view (q := Parts.others { units := true, ddc := true, xfm := true, den := true }) (by decide)]

theorem State.denStop_view {q : Parts} (hq : q.apart { clk := true, time := true, dma := true, units := true, afe := true, ddc := true, xfm := true, den := true, mco := true, scn := true, lne := true, jes := true, links := true, cal := true, hkc := true, mon := true } = true) (s new : State) (b : BayNo) (t : Stamp) : (State.denStop s new b t).view q = s.view q := by
  refine view_of { clk := true, time := true, dma := true, units := true, afe := true, ddc := true, xfm := true, den := true, mco := true, scn := true, lne := true, jes := true, links := true, cal := true, hkc := true, mon := true } hq ?_
  simp only [State.denStop, ↓view_ite, ↓foldl_view, ite_self, implies_true, ↓State.denEarly_view (q := Parts.others { clk := true, time := true, dma := true, units := true, afe := true, ddc := true, xfm := true, den := true, mco := true, scn := true, lne := true, jes := true, links := true, cal := true, hkc := true, mon := true }) (by decide)]

theorem State.denCols_view {q : Parts} (hq : q.apart { den := true } = true) (s : State) (b : BayNo) : (State.denCols s b).view q = s.view q := by
  refine view_of { den := true } hq ?_
  simp only [State.denCols, ↓foldl_view, implies_true, ↓State.modDen_view (q := Parts.others { den := true }) (by decide)]

theorem State.powerFronts_view {q : Parts} (hq : q.apart { domains := true, afe := true, ddc := true, xfm := true } = true) (s : State) (b : BayNo) : (State.powerFronts s b).view q = s.view q := by
  refine view_of { domains := true, afe := true, ddc := true, xfm := true } hq ?_
  simp only [State.powerFronts, ↓view_ite, ↓foldl_view, ite_self, implies_true, ↓State.modAfe_view (q := Parts.others { domains := true, afe := true, ddc := true, xfm := true }) (by decide), ↓State.modDom_view (q := Parts.others { domains := true, afe := true, ddc := true, xfm := true }) (by decide), ↓State.freeAtten_view (q := Parts.others { domains := true, afe := true, ddc := true, xfm := true }) (by decide)]

theorem State.restartValues_view {q : Parts} (hq : q.apart { vals := true, img := true, tbs := true, keeper := true, time := true, domains := true, units := true, afe := true, adc := true, ddc := true, xfm := true, den := true, mco := true, lne := true, cal := true, hkc := true, aux := true, mon := true } = true) (s : State) (b : BayNo) : (State.restartValues s b).view q = s.view q := by
  refine view_of { vals := true, img := true, tbs := true, keeper := true, time := true, domains := true, units := true, afe := true, adc := true, ddc := true, xfm := true, den := true, mco := true, lne := true, cal := true, hkc := true, aux := true, mon := true } hq ?_
  simp only [State.restartValues, ↓State.refreshPorts_view (q := Parts.others { vals := true, img := true, tbs := true, keeper := true, time := true, domains := true, units := true, afe := true, adc := true, ddc := true, xfm := true, den := true, mco := true, lne := true, cal := true, hkc := true, aux := true, mon := true }) (by decide), ↓State.takeEffect_view (q := Parts.others { vals := true, img := true, tbs := true, keeper := true, time := true, domains := true, units := true, afe := true, adc := true, ddc := true, xfm := true, den := true, mco := true, lne := true, cal := true, hkc := true, aux := true, mon := true }) (by decide), ↓State.powerFronts_view (q := Parts.others { vals := true, img := true, tbs := true, keeper := true, time := true, domains := true, units := true, afe := true, adc := true, ddc := true, xfm := true, den := true, mco := true, lne := true, cal := true, hkc := true, aux := true, mon := true }) (by decide)]

theorem execAcqRestartBegin_view {q : Parts} (hq : q.apart { vals := true, img := true, tbs := true, keeper := true, clk := true, time := true, dma := true, domains := true, units := true, afe := true, adc := true, ddc := true, xfm := true, den := true, mco := true, scn := true, lne := true, jes := true, links := true, cal := true, hkc := true, aux := true, mon := true } = true) (b : BayNo) (s : State) : Out.view q (execAcqRestartBegin b s) = some (s.view q) := by
  refine out_view_of { vals := true, img := true, tbs := true, keeper := true, clk := true, time := true, dma := true, domains := true, units := true, afe := true, adc := true, ddc := true, xfm := true, den := true, mco := true, scn := true, lne := true, jes := true, links := true, cal := true, hkc := true, aux := true, mon := true } hq ?_
  simp only [execAcqRestartBegin, ↓view_ite, ↓out_view_ite, ↓out_view_next, ↓foldl_view, ite_self, implies_true, ↓State.modImg_view (q := Parts.others { vals := true, img := true, tbs := true, keeper := true, clk := true, time := true, dma := true, domains := true, units := true, afe := true, adc := true, ddc := true, xfm := true, den := true, mco := true, scn := true, lne := true, jes := true, links := true, cal := true, hkc := true, aux := true, mon := true }) (by decide), ↓State.modClk_view (q := Parts.others { vals := true, img := true, tbs := true, keeper := true, clk := true, time := true, dma := true, domains := true, units := true, afe := true, adc := true, ddc := true, xfm := true, den := true, mco := true, scn := true, lne := true, jes := true, links := true, cal := true, hkc := true, aux := true, mon := true }) (by decide), ↓State.modPort_view (q := Parts.others { vals := true, img := true, tbs := true, keeper := true, clk := true, time := true, dma := true, domains := true, units := true, afe := true, adc := true, ddc := true, xfm := true, den := true, mco := true, scn := true, lne := true, jes := true, links := true, cal := true, hkc := true, aux := true, mon := true }) (by decide), ↓State.jesStart_view (q := Parts.others { vals := true, img := true, tbs := true, keeper := true, clk := true, time := true, dma := true, domains := true, units := true, afe := true, adc := true, ddc := true, xfm := true, den := true, mco := true, scn := true, lne := true, jes := true, links := true, cal := true, hkc := true, aux := true, mon := true }) (by decide), ↓State.runRotations_view (q := Parts.others { vals := true, img := true, tbs := true, keeper := true, clk := true, time := true, dma := true, domains := true, units := true, afe := true, adc := true, ddc := true, xfm := true, den := true, mco := true, scn := true, lne := true, jes := true, links := true, cal := true, hkc := true, aux := true, mon := true }) (by decide), ↓State.closeCalGaps_view (q := Parts.others { vals := true, img := true, tbs := true, keeper := true, clk := true, time := true, dma := true, domains := true, units := true, afe := true, adc := true, ddc := true, xfm := true, den := true, mco := true, scn := true, lne := true, jes := true, links := true, cal := true, hkc := true, aux := true, mon := true }) (by decide), ↓State.stopAll_view (q := Parts.others { vals := true, img := true, tbs := true, keeper := true, clk := true, time := true, dma := true, domains := true, units := true, afe := true, adc := true, ddc := true, xfm := true, den := true, mco := true, scn := true, lne := true, jes := true, links := true, cal := true, hkc := true, aux := true, mon := true }) (by decide), ↓State.denStop_view (q := Parts.others { vals := true, img := true, tbs := true, keeper := true, clk := true, time := true, dma := true, domains := true, units := true, afe := true, adc := true, ddc := true, xfm := true, den := true, mco := true, scn := true, lne := true, jes := true, links := true, cal := true, hkc := true, aux := true, mon := true }) (by decide), ↓State.denCols_view (q := Parts.others { vals := true, img := true, tbs := true, keeper := true, clk := true, time := true, dma := true, domains := true, units := true, afe := true, adc := true, ddc := true, xfm := true, den := true, mco := true, scn := true, lne := true, jes := true, links := true, cal := true, hkc := true, aux := true, mon := true }) (by decide), ↓State.restartValues_view (q := Parts.others { vals := true, img := true, tbs := true, keeper := true, clk := true, time := true, dma := true, domains := true, units := true, afe := true, adc := true, ddc := true, xfm := true, den := true, mco := true, scn := true, lne := true, jes := true, links := true, cal := true, hkc := true, aux := true, mon := true }) (by decide)]

theorem State.endRestart_view {q : Parts} (hq : q.apart { clk := true, afe := true, adc := true } = true) (s : State) (b : BayNo) : (State.endRestart s b).view q = s.view q := by
  refine view_of { clk := true, afe := true, adc := true } hq ?_
  simp only [State.endRestart, ↓foldl_view, implies_true, ↓State.modClk_view (q := Parts.others { clk := true, afe := true, adc := true }) (by decide), ↓State.modAfe_view (q := Parts.others { clk := true, afe := true, adc := true }) (by decide), ↓State.runRotations_view (q := Parts.others { clk := true, afe := true, adc := true }) (by decide), ↓State.event_view]

theorem execAcqRestartEnd_view {q : Parts} (hq : q.apart { vals := true, img := true, tbs := true, keeper := true, clk := true, time := true, units := true, afe := true, adc := true, ddc := true, xfm := true, den := true, mco := true, lne := true, cal := true, hkc := true, aux := true, mon := true } = true) (b : BayNo) (t : Stamp) (s0 : State) : Out.view q (execAcqRestartEnd b t s0) = some (s0.view q) := by
  refine out_view_of { vals := true, img := true, tbs := true, keeper := true, clk := true, time := true, units := true, afe := true, adc := true, ddc := true, xfm := true, den := true, mco := true, lne := true, cal := true, hkc := true, aux := true, mon := true } hq ?_
  simp only [execAcqRestartEnd, ↓out_view_ite, ↓out_view_next, ite_self, ↓State.reach_view (q := Parts.others { vals := true, img := true, tbs := true, keeper := true, clk := true, time := true, units := true, afe := true, adc := true, ddc := true, xfm := true, den := true, mco := true, lne := true, cal := true, hkc := true, aux := true, mon := true }) (by decide), ↓State.modClk_view (q := Parts.others { vals := true, img := true, tbs := true, keeper := true, clk := true, time := true, units := true, afe := true, adc := true, ddc := true, xfm := true, den := true, mco := true, lne := true, cal := true, hkc := true, aux := true, mon := true }) (by decide), ↓State.resumeBay_view (q := Parts.others { vals := true, img := true, tbs := true, keeper := true, clk := true, time := true, units := true, afe := true, adc := true, ddc := true, xfm := true, den := true, mco := true, lne := true, cal := true, hkc := true, aux := true, mon := true }) (by decide), ↓State.endRestart_view (q := Parts.others { vals := true, img := true, tbs := true, keeper := true, clk := true, time := true, units := true, afe := true, adc := true, ddc := true, xfm := true, den := true, mco := true, lne := true, cal := true, hkc := true, aux := true, mon := true }) (by decide)]

theorem execSpllLossOfLock_view {q : Parts} (hq : q.apart { keeper := true, ident := true, clk := true, time := true, units := true, afe := true, adc := true, ddc := true, xfm := true, den := true, cal := true, aux := true } = true) (b : BayNo) (tL : Stamp) (s : State) : Out.view q (execSpllLossOfLock b tL s) = some (s.view q) := by
  refine out_view_of { keeper := true, ident := true, clk := true, time := true, units := true, afe := true, adc := true, ddc := true, xfm := true, den := true, cal := true, aux := true } hq ?_
  simp only [execSpllLossOfLock, ↓view_ite, ↓out_view_ite, ↓out_view_next, ↓foldl_view, ite_self, implies_true, ↓State.alert_view (q := Parts.others { keeper := true, ident := true, clk := true, time := true, units := true, afe := true, adc := true, ddc := true, xfm := true, den := true, cal := true, aux := true }) (by decide), ↓State.sealLog_view (q := Parts.others { keeper := true, ident := true, clk := true, time := true, units := true, afe := true, adc := true, ddc := true, xfm := true, den := true, cal := true, aux := true }) (by decide), ↓State.modClk_view (q := Parts.others { keeper := true, ident := true, clk := true, time := true, units := true, afe := true, adc := true, ddc := true, xfm := true, den := true, cal := true, aux := true }) (by decide), ↓State.modTbs_view (q := Parts.others { keeper := true, ident := true, clk := true, time := true, units := true, afe := true, adc := true, ddc := true, xfm := true, den := true, cal := true, aux := true }) (by decide), ↓State.stopPort_view (q := Parts.others { keeper := true, ident := true, clk := true, time := true, units := true, afe := true, adc := true, ddc := true, xfm := true, den := true, cal := true, aux := true }) (by decide), ↓State.auxRefresh_view (q := Parts.others { keeper := true, ident := true, clk := true, time := true, units := true, afe := true, adc := true, ddc := true, xfm := true, den := true, cal := true, aux := true }) (by decide), ↓State.calAbandonBay_view (q := Parts.others { keeper := true, ident := true, clk := true, time := true, units := true, afe := true, adc := true, ddc := true, xfm := true, den := true, cal := true, aux := true }) (by decide), ↓State.runRotations_view (q := Parts.others { keeper := true, ident := true, clk := true, time := true, units := true, afe := true, adc := true, ddc := true, xfm := true, den := true, cal := true, aux := true }) (by decide), ↓State.event_view]

theorem execSpllRelock_view {q : Parts} (hq : q.apart { vals := true, img := true, tbs := true, keeper := true, clk := true, time := true, units := true, afe := true, adc := true, ddc := true, xfm := true, den := true, mco := true, lne := true, cal := true, hkc := true, aux := true, mon := true } = true) (b : BayNo) (t : Stamp) (s0 : State) : Out.view q (execSpllRelock b t s0) = some (s0.view q) := by
  refine out_view_of { vals := true, img := true, tbs := true, keeper := true, clk := true, time := true, units := true, afe := true, adc := true, ddc := true, xfm := true, den := true, mco := true, lne := true, cal := true, hkc := true, aux := true, mon := true } hq ?_
  simp only [execSpllRelock, ↓view_ite, ↓out_view_ite, ↓out_view_next, ite_self, ↓State.reach_view (q := Parts.others { vals := true, img := true, tbs := true, keeper := true, clk := true, time := true, units := true, afe := true, adc := true, ddc := true, xfm := true, den := true, mco := true, lne := true, cal := true, hkc := true, aux := true, mon := true }) (by decide), ↓State.modClk_view (q := Parts.others { vals := true, img := true, tbs := true, keeper := true, clk := true, time := true, units := true, afe := true, adc := true, ddc := true, xfm := true, den := true, mco := true, lne := true, cal := true, hkc := true, aux := true, mon := true }) (by decide), ↓State.modTbs_view (q := Parts.others { vals := true, img := true, tbs := true, keeper := true, clk := true, time := true, units := true, afe := true, adc := true, ddc := true, xfm := true, den := true, mco := true, lne := true, cal := true, hkc := true, aux := true, mon := true }) (by decide), ↓State.auxRefresh_view (q := Parts.others { vals := true, img := true, tbs := true, keeper := true, clk := true, time := true, units := true, afe := true, adc := true, ddc := true, xfm := true, den := true, mco := true, lne := true, cal := true, hkc := true, aux := true, mon := true }) (by decide), ↓State.resumeBay_view (q := Parts.others { vals := true, img := true, tbs := true, keeper := true, clk := true, time := true, units := true, afe := true, adc := true, ddc := true, xfm := true, den := true, mco := true, lne := true, cal := true, hkc := true, aux := true, mon := true }) (by decide), ↓State.runRotations_view (q := Parts.others { vals := true, img := true, tbs := true, keeper := true, clk := true, time := true, units := true, afe := true, adc := true, ddc := true, xfm := true, den := true, mco := true, lne := true, cal := true, hkc := true, aux := true, mon := true }) (by decide), ↓State.event_view, ↓State.endRestart_view (q := Parts.others { vals := true, img := true, tbs := true, keeper := true, clk := true, time := true, units := true, afe := true, adc := true, ddc := true, xfm := true, den := true, mco := true, lne := true, cal := true, hkc := true, aux := true, mon := true }) (by decide)]

theorem State.loseBay_view {q : Parts} (hq : q.apart { tbs := true, faults := true, ident := true, fabric := true, lost := true, clk := true, links := true, aux := true } = true) (s : State) (b : BayNo) (cause : Nat) : (s.loseBay b cause).view q = s.view q := by
  refine view_of { tbs := true, faults := true, ident := true, fabric := true, lost := true, clk := true, links := true, aux := true } hq ?_
  unfold State.loseBay
  refine (State.faultDrop_view (q := Parts.others { tbs := true, faults := true, ident := true, fabric := true, lost := true, clk := true, links := true, aux := true }) (by decide) ..).trans ((State.callUpdate_view (q := Parts.others { tbs := true, faults := true, ident := true, fabric := true, lost := true, clk := true, links := true, aux := true }) (by decide) ..).trans ((State.modTbsPkg_view (q := Parts.others { tbs := true, faults := true, ident := true, fabric := true, lost := true, clk := true, links := true, aux := true }) (by decide) ..).trans ((State.leaveIsland_view (q := Parts.others { tbs := true, faults := true, ident := true, fabric := true, lost := true, clk := true, links := true, aux := true }) (by decide) ..).trans
    ((State.event_view ..).trans ((State.alert_view (q := Parts.others { tbs := true, faults := true, ident := true, fabric := true, lost := true, clk := true, links := true, aux := true }) (by decide) ..).trans ?_)))))
  refine (foldl_view _ _ (fun s p => ?_) _ _).trans ?_
  · split
    · exact (State.modPortL_view (q := Parts.others { tbs := true, faults := true, ident := true, fabric := true, lost := true, clk := true, links := true, aux := true }) (by decide) ..).trans (State.modPortL_view (q := Parts.others { tbs := true, faults := true, ident := true, fabric := true, lost := true, clk := true, links := true, aux := true }) (by decide) ..)
    · rfl
  · refine (State.modBay_view _ _ _ _ ?_).trans (State.auxLost_view (q := Parts.others { tbs := true, faults := true, ident := true, fabric := true, lost := true, clk := true, links := true, aux := true }) (by decide) ..)
    exact fun _ => rfl

theorem execCpllLossOfLock_view {q : Parts} (hq : q.apart { tbs := true, keeper := true, faults := true, ident := true, fabric := true, lost := true, clk := true, links := true, aux := true } = true) (b : BayNo) (s : State) : Out.view q (execCpllLossOfLock b s) = some (s.view q) := by
  refine out_view_of { tbs := true, keeper := true, faults := true, ident := true, fabric := true, lost := true, clk := true, links := true, aux := true } hq ?_
  simp only [execCpllLossOfLock, ↓out_view_ite, ↓out_view_next, ite_self, ↓State.sealLog_view (q := Parts.others { tbs := true, keeper := true, faults := true, ident := true, fabric := true, lost := true, clk := true, links := true, aux := true }) (by decide), ↓State.loseBay_view (q := Parts.others { tbs := true, keeper := true, faults := true, ident := true, fabric := true, lost := true, clk := true, links := true, aux := true }) (by decide)]

end Sys2Proof.Machine
end

