-- ==== Sys2Proof/Laws/View/Epoch.lean ====
section
/-! SUPPORT. Which parts the operations of Machine/Epoch.lean leave as they were. -/
namespace Sys2Proof.Machine

theorem State.stepTime_view {q : Parts} (hq : q.apart { tbs := true, sel := true, keeper := true, faults := true, eth := true, fabric := true, clk := true, time := true, dma := true, units := true, afe := true, ddc := true, xfm := true, mco := true, scn := true, lne := true, jes := true, links := true, cal := true, hkc := true, mon := true } = true) (s : State) (bs : List BayNo) (d : Int) : (s.stepTime bs d).view q = s.view q := by
  refine view_of { tbs := true, sel := true, keeper := true, faults := true, eth := true, fabric := true, clk := true, time := true, dma := true, units := true, afe := true, ddc := true, xfm := true, mco := true, scn := true, lne := true, jes := true, links := true, cal := true, hkc := true, mon := true } hq ?_
  unfold State.stepTime
  refine (State.timeSetEntry_view (q := Parts.others { tbs := true, sel := true, keeper := true, faults := true, eth := true, fabric := true, clk := true, time := true, dma := true, units := true, afe := true, ddc := true, xfm := true, mco := true, scn := true, lne := true, jes := true, links := true, cal := true, hkc := true, mon := true }) (by decide) ..).trans ((State.event_view ..).trans ((State.modServo_view (q := Parts.others { tbs := true, sel := true, keeper := true, faults := true, eth := true, fabric := true, clk := true, time := true, dma := true, units := true, afe := true, ddc := true, xfm := true, mco := true, scn := true, lne := true, jes := true, links := true, cal := true, hkc := true, mon := true }) (by decide) ..).trans ((State.shiftPackage_view (q := Parts.others { tbs := true, sel := true, keeper := true, faults := true, eth := true, fabric := true, clk := true, time := true, dma := true, units := true, afe := true, ddc := true, xfm := true, mco := true, scn := true, lne := true, jes := true, links := true, cal := true, hkc := true, mon := true }) (by decide) ..).trans
    (State.eachBay_view _ _ (fun s b => State.modBay_view _ _ _ _ ?_) _ _))))
  exact fun _ => rfl

theorem State.emitEpoch_view {q : Parts} (s : State) (b : BayNo) (i : BoundaryInfo) (len : Stamp) : (State.emitEpoch s b i len).view q = s.view q := by
  simp only [State.emitEpoch, ↓State.enqueueEach_view]

theorem State.coreBoundary_view {q : Parts} (hq : q.apart { mco := true } = true) (s : State) (b : BayNo) (c : CoreNo) (t : Stamp) : (State.coreBoundary s b c t).view q = s.view q := by
  refine view_of { mco := true } hq ?_
  simp only [State.coreBoundary, ↓view_ite, ite_self, ↓State.modCore_view (q := Parts.others { mco := true }) (by decide), ↓State.raiseLine_view (q := Parts.others { mco := true }) (by decide)]

theorem State.bayBoundary_view {q : Parts} (hq : q.apart { dma := true, units := true, xfm := true, den := true, mco := true, recorder := true, mon := true } = true) (s : State) (b : BayNo) (t : Stamp) : (s.bayBoundary b t).view q = s.view q := by
  refine view_of { dma := true, units := true, xfm := true, den := true, mco := true, recorder := true, mon := true } hq ?_
  unfold State.bayBoundary
  extract_lets s0 live a c d e s1
  have h0 : s0.view (Parts.others { dma := true, units := true, xfm := true, den := true, mco := true, recorder := true, mon := true }) = s.view (Parts.others { dma := true, units := true, xfm := true, den := true, mco := true, recorder := true, mon := true }) := State.modBay_view _ _ _ _ fun x => x.view_freshEpoch _
  clear_value s0
  have h1 : s1.view (Parts.others { dma := true, units := true, xfm := true, den := true, mco := true, recorder := true, mon := true }) = s.view (Parts.others { dma := true, units := true, xfm := true, den := true, mco := true, recorder := true, mon := true }) := by
    simp only [s1]
    split
    · exact h0
    · refine (foldl_view _ _ (fun s n => ?_) _ _).trans ?_
      · split
        · exact State.dmaStart_view (q := Parts.others { dma := true, units := true, xfm := true, den := true, mco := true, recorder := true, mon := true }) (by decide) ..
        · rfl
      · refine (foldl_view _ _ (fun _ _ => State.coreBoundary_view (q := Parts.others { dma := true, units := true, xfm := true, den := true, mco := true, recorder := true, mon := true }) (by decide) ..) _ _).trans ?_
        refine (foldl_view _ _ (fun _ _ => State.monBoundary_view (q := Parts.others { dma := true, units := true, xfm := true, den := true, mco := true, recorder := true, mon := true }) (by decide) ..) _ _).trans ?_
        refine (State.trgBoundary_view (q := Parts.others { dma := true, units := true, xfm := true, den := true, mco := true, recorder := true, mon := true }) (by decide) ..).trans ?_
        refine (foldl_view _ _ (fun _ _ => ?_) _ _).trans ?_
        · split
          · exact State.traceBoundary_view (q := Parts.others { dma := true, units := true, xfm := true, den := true, mco := true, recorder := true, mon := true }) (by decide) ..
          · rfl
        · refine (foldl_view _ _ (fun _ _ => ?_) _ _).trans h0
          split
          · exact State.denBoundary_view (q := Parts.others { dma := true, units := true, xfm := true, den := true, mco := true, recorder := true, mon := true }) (by decide) ..
          · rfl
  clear_value s1
  split
  · exact (State.recBoundary_view (q := Parts.others { dma := true, units := true, xfm := true, den := true, mco := true, recorder := true, mon := true }) (by decide) ..).trans h1
  · exact h1

theorem State.contextEpochs_view {q : Parts} (hq : q.apart { eth := true } = true) (s : State) : (State.contextEpochs s).view q = s.view q := by
  refine view_of { eth := true } hq ?_
  simp only [State.contextEpochs, ↓State.modEthPkg_view (q := Parts.others { eth := true }) (by decide)]

theorem State.mainBoundary_view {q : Parts} (hq : q.apart { vals := true, img := true, tbs := true, sel := true, keeper := true, faults := true, ident := true, eth := true, fabric := true, clk := true, time := true, dma := true, units := true, afe := true, adc := true, ddc := true, xfm := true, den := true, mco := true, scn := true, recorder := true, lne := true, jes := true, links := true, cal := true, hkc := true, aux := true, mon := true } = true) (s0 : State) (t0 : Stamp) : (State.mainBoundary s0 t0).view q = s0.view q := by
  refine view_of { vals := true, img := true, tbs := true, sel := true, keeper := true, faults := true, ident := true, eth := true, fabric := true, clk := true, time := true, dma := true, units := true, afe := true, adc := true, ddc := true, xfm := true, den := true, mco := true, scn := true, recorder := true, lne := true, jes := true, links := true, cal := true, hkc := true, aux := true, mon := true } hq ?_
  simp only [State.mainBoundary]
  repeat' split
  all_goals simp only [↓State.eachBay_view, implies_true, ↓State.modIdent_view (q := Parts.others { vals := true, img := true, tbs := true, sel := true, keeper := true, faults := true, ident := true, eth := true, fabric := true, clk := true, time := true, dma := true, units := true, afe := true, adc := true, ddc := true, xfm := true, den := true, mco := true, scn := true, recorder := true, lne := true, jes := true, links := true, cal := true, hkc := true, aux := true, mon := true }) (by decide), ↓State.reach_view (q := Parts.others { vals := true, img := true, tbs := true, sel := true, keeper := true, faults := true, ident := true, eth := true, fabric := true, clk := true, time := true, dma := true, units := true, afe := true, adc := true, ddc := true, xfm := true, den := true, mco := true, scn := true, recorder := true, lne := true, jes := true, links := true, cal := true, hkc := true, aux := true, mon := true }) (by decide), ↓State.modTbs_view (q := Parts.others { vals := true, img := true, tbs := true, sel := true, keeper := true, faults := true, ident := true, eth := true, fabric := true, clk := true, time := true, dma := true, units := true, afe := true, adc := true, ddc := true, xfm := true, den := true, mco := true, scn := true, recorder := true, lne := true, jes := true, links := true, cal := true, hkc := true, aux := true, mon := true }) (by decide), ↓State.modGrid_view (q := Parts.others { vals := true, img := true, tbs := true, sel := true, keeper := true, faults := true, ident := true, eth := true, fabric := true, clk := true, time := true, dma := true, units := true, afe := true, adc := true, ddc := true, xfm := true, den := true, mco := true, scn := true, recorder := true, lne := true, jes := true, links := true, cal := true, hkc := true, aux := true, mon := true }) (by decide), ↓State.epochApply_view (q := Parts.others { vals := true, img := true, tbs := true, sel := true, keeper := true, faults := true, ident := true, eth := true, fabric := true, clk := true, time := true, dma := true, units := true, afe := true, adc := true, ddc := true, xfm := true, den := true, mco := true, scn := true, recorder := true, lne := true, jes := true, links := true, cal := true, hkc := true, aux := true, mon := true }) (by decide), ↓State.stepTime_view (q := Parts.others { vals := true, img := true, tbs := true, sel := true, keeper := true, faults := true, ident := true, eth := true, fabric := true, clk := true, time := true, dma := true, units := true, afe := true, adc := true, ddc := true, xfm := true, den := true, mco := true, scn := true, recorder := true, lne := true, jes := true, links := true, cal := true, hkc := true, aux := true, mon := true }) (by decide), ↓State.emitEpoch_view, ↓State.bayBoundary_view (q := Parts.others { vals := true, img := true, tbs := true, sel := true, keeper := true, faults := true, ident := true, eth := true, fabric := true, clk := true, time := true, dma := true, units := true, afe := true, adc := true, ddc := true, xfm := true, den := true, mco := true, scn := true, recorder := true, lne := true, jes := true, links := true, cal := true, hkc := true, aux := true, mon := true }) (by decide), ↓State.contextEpochs_view (q := Parts.others { vals := true, img := true, tbs := true, sel := true, keeper := true, faults := true, ident := true, eth := true, fabric := true, clk := true, time := true, dma := true, units := true, afe := true, adc := true, ddc := true, xfm := true, den := true, mco := true, scn := true, recorder := true, lne := true, jes := true, links := true, cal := true, hkc := true, aux := true, mon := true }) (by decide)]

theorem State.isleBoundary_view {q : Parts} (hq : q.apart { tbs := true, ident := true, time := true, dma := true, units := true, xfm := true, den := true, mco := true, recorder := true, mon := true } = true) (s0 : State) (h : BayNo) (i : Isle) : (State.isleBoundary s0 h i).view q = s0.view q := by
  refine view_of { tbs := true, ident := true, time := true, dma := true, units := true, xfm := true, den := true, mco := true, recorder := true, mon := true } hq ?_
  simp only [State.isleBoundary, ↓view_ite, ↓State.eachBay_view, ite_self, implies_true, ↓State.modIdent_view (q := Parts.others { tbs := true, ident := true, time := true, dma := true, units := true, xfm := true, den := true, mco := true, recorder := true, mon := true }) (by decide), ↓State.reach_view (q := Parts.others { tbs := true, ident := true, time := true, dma := true, units := true, xfm := true, den := true, mco := true, recorder := true, mon := true }) (by decide), ↓State.modTbs_view (q := Parts.others { tbs := true, ident := true, time := true, dma := true, units := true, xfm := true, den := true, mco := true, recorder := true, mon := true }) (by decide), ↓State.modGrid_view (q := Parts.others { tbs := true, ident := true, time := true, dma := true, units := true, xfm := true, den := true, mco := true, recorder := true, mon := true }) (by decide), ↓State.emitEpoch_view, ↓State.bayBoundary_view (q := Parts.others { tbs := true, ident := true, time := true, dma := true, units := true, xfm := true, den := true, mco := true, recorder := true, mon := true }) (by decide)]

theorem execEpochBoundary_view {q : Parts} (hq : q.apart { vals := true, img := true, tbs := true, sel := true, keeper := true, faults := true, ident := true, eth := true, fabric := true, clk := true, time := true, dma := true, units := true, afe := true, adc := true, ddc := true, xfm := true, den := true, mco := true, scn := true, recorder := true, lne := true, jes := true, links := true, cal := true, hkc := true, aux := true, mon := true } = true) (h : BayNo) (s : State) : Out.view q (execEpochBoundary h s) = some (s.view q) := by
  refine out_view_of { vals := true, img := true, tbs := true, sel := true, keeper := true, faults := true, ident := true, eth := true, fabric := true, clk := true, time := true, dma := true, units := true, afe := true, adc := true, ddc := true, xfm := true, den := true, mco := true, scn := true, recorder := true, lne := true, jes := true, links := true, cal := true, hkc := true, aux := true, mon := true } hq ?_
  simp only [execEpochBoundary]
  repeat' split
  all_goals simp only [↓out_view_next, ↓State.mainBoundary_view (q := Parts.others { vals := true, img := true, tbs := true, sel := true, keeper := true, faults := true, ident := true, eth := true, fabric := true, clk := true, time := true, dma := true, units := true, afe := true, adc := true, ddc := true, xfm := true, den := true, mco := true, scn := true, recorder := true, lne := true, jes := true, links := true, cal := true, hkc := true, aux := true, mon := true }) (by decide), ↓State.isleBoundary_view (q := Parts.others { vals := true, img := true, tbs := true, sel := true, keeper := true, faults := true, ident := true, eth := true, fabric := true, clk := true, time := true, dma := true, units := true, afe := true, adc := true, ddc := true, xfm := true, den := true, mco := true, scn := true, recorder := true, lne := true, jes := true, links := true, cal := true, hkc := true, aux := true, mon := true }) (by decide)]

end Sys2Proof.Machine
end

