-- ==== Sys2Proof/Laws/View/Startup.lean ====
section
/-! SUPPORT. Which parts the operations of Machine/Startup.lean leave as they were. -/
namespace Sys2Proof.Machine

theorem State.stripped_view {q : Parts} (hq : q.apart { vals := true, img := true, tbs := true, sel := true, keeper := true, fuses := true, pwr := true, faults := true, trg := true, ident := true, eth := true, fabric := true, kill := true, lost := true, clk := true, time := true, dma := true, domains := true, units := true, afe := true, adc := true, ddc := true, xfm := true, den := true, mco := true, scn := true, recorder := true, lne := true, pci := true, ports := true, jes := true, links := true, cal := true, hkc := true, aux := true, mon := true } = true) (s : State) (fuses : SealFuses) : (State.stripped s fuses).view q = s.view q := by
  refine view_of { vals := true, img := true, tbs := true, sel := true, keeper := true, fuses := true, pwr := true, faults := true, trg := true, ident := true, eth := true, fabric := true, kill := true, lost := true, clk := true, time := true, dma := true, domains := true, units := true, afe := true, adc := true, ddc := true, xfm := true, den := true, mco := true, scn := true, recorder := true, lne := true, pci := true, ports := true, jes := true, links := true, cal := true, hkc := true, aux := true, mon := true } hq ?_
  refine Eq.trans ?_ ((State.eachBay_view _ State.recPowerLoss (fun _ _ => State.recPowerLoss_view (q := Parts.others { vals := true, img := true, tbs := true, sel := true, keeper := true, fuses := true, pwr := true, faults := true, trg := true, ident := true, eth := true, fabric := true, kill := true, lost := true, clk := true, time := true, dma := true, domains := true, units := true, afe := true, adc := true, ddc := true, xfm := true, den := true, mco := true, scn := true, recorder := true, lne := true, pci := true, ports := true, jes := true, links := true, cal := true, hkc := true, aux := true, mon := true }) (by decide) ..) s.outsLow s.liveBays).trans (State.outsLow_view (q := Parts.others { vals := true, img := true, tbs := true, sel := true, keeper := true, fuses := true, pwr := true, faults := true, trg := true, ident := true, eth := true, fabric := true, kill := true, lost := true, clk := true, time := true, dma := true, domains := true, units := true, afe := true, adc := true, ddc := true, xfm := true, den := true, mco := true, scn := true, recorder := true, lne := true, pci := true, ports := true, jes := true, links := true, cal := true, hkc := true, aux := true, mon := true }) (by decide) s))
  unfold State.stripped
  generalize s.outsLow.eachBay s.liveBays State.recPowerLoss = u
  have e : (u.bays.map Bay.stripped).map (Bay.view (Parts.others { vals := true, img := true, tbs := true, sel := true, keeper := true, fuses := true, pwr := true, faults := true, trg := true, ident := true, eth := true, fabric := true, kill := true, lost := true, clk := true, time := true, dma := true, domains := true, units := true, afe := true, adc := true, ddc := true, xfm := true, den := true, mco := true, scn := true, recorder := true, lne := true, pci := true, ports := true, jes := true, links := true, cal := true, hkc := true, aux := true, mon := true })) = u.bays.map (Bay.view (Parts.others { vals := true, img := true, tbs := true, sel := true, keeper := true, fuses := true, pwr := true, faults := true, trg := true, ident := true, eth := true, fabric := true, kill := true, lost := true, clk := true, time := true, dma := true, domains := true, units := true, afe := true, adc := true, ddc := true, xfm := true, den := true, mco := true, scn := true, recorder := true, lne := true, pci := true, ports := true, jes := true, links := true, cal := true, hkc := true, aux := true, mon := true })) := by
    rw [Vector.map_map]
    exact congrArg u.bays.map (funext fun _ => rfl)
  unfold State.view
  rw [e]
  rfl

theorem execPowerFail_view {q : Parts} (hq : q.apart { vals := true, img := true, tbs := true, sel := true, keeper := true, fuses := true, pwr := true, faults := true, trg := true, ident := true, eth := true, fabric := true, kill := true, lost := true, clk := true, time := true, dma := true, domains := true, units := true, afe := true, adc := true, ddc := true, xfm := true, den := true, mco := true, scn := true, recorder := true, lne := true, pci := true, ports := true, jes := true, links := true, cal := true, hkc := true, aux := true, mon := true, jtag := true } = true) (s : State) : Out.view q (execPowerFail s) = some (s.view q) := by
  refine out_view_of { vals := true, img := true, tbs := true, sel := true, keeper := true, fuses := true, pwr := true, faults := true, trg := true, ident := true, eth := true, fabric := true, kill := true, lost := true, clk := true, time := true, dma := true, domains := true, units := true, afe := true, adc := true, ddc := true, xfm := true, den := true, mco := true, scn := true, recorder := true, lne := true, pci := true, ports := true, jes := true, links := true, cal := true, hkc := true, aux := true, mon := true, jtag := true } hq ?_
  unfold execPowerFail
  split
  · rfl
  · exact next_view ((State.mapBays_view (s.stripped s.keeper.cutRow) (fun y => { y with jtag := .reset }) _ (fun _ => rfl)).trans (State.stripped_view (q := Parts.others { vals := true, img := true, tbs := true, sel := true, keeper := true, fuses := true, pwr := true, faults := true, trg := true, ident := true, eth := true, fabric := true, kill := true, lost := true, clk := true, time := true, dma := true, domains := true, units := true, afe := true, adc := true, ddc := true, xfm := true, den := true, mco := true, scn := true, recorder := true, lne := true, pci := true, ports := true, jes := true, links := true, cal := true, hkc := true, aux := true, mon := true, jtag := true }) (by decide) ..))

theorem State.warmReset_view {q : Parts} (hq : q.apart { vals := true, img := true, tbs := true, sel := true, keeper := true, fuses := true, pwr := true, faults := true, trg := true, ident := true, eth := true, fabric := true, kill := true, lost := true, clk := true, time := true, dma := true, domains := true, units := true, afe := true, adc := true, ddc := true, xfm := true, den := true, mco := true, scn := true, recorder := true, lne := true, pci := true, ports := true, jes := true, links := true, cal := true, hkc := true, aux := true, mon := true } = true) (s : State) : (State.warmReset s).view q = s.view q := by
  refine view_of { vals := true, img := true, tbs := true, sel := true, keeper := true, fuses := true, pwr := true, faults := true, trg := true, ident := true, eth := true, fabric := true, kill := true, lost := true, clk := true, time := true, dma := true, domains := true, units := true, afe := true, adc := true, ddc := true, xfm := true, den := true, mco := true, scn := true, recorder := true, lne := true, pci := true, ports := true, jes := true, links := true, cal := true, hkc := true, aux := true, mon := true } hq ?_
  unfold State.warmReset
  extract_lets v t
  have ht : t.view (Parts.others { vals := true, img := true, tbs := true, sel := true, keeper := true, fuses := true, pwr := true, faults := true, trg := true, ident := true, eth := true, fabric := true, kill := true, lost := true, clk := true, time := true, dma := true, domains := true, units := true, afe := true, adc := true, ddc := true, xfm := true, den := true, mco := true, scn := true, recorder := true, lne := true, pci := true, ports := true, jes := true, links := true, cal := true, hkc := true, aux := true, mon := true }) = s.view (Parts.others { vals := true, img := true, tbs := true, sel := true, keeper := true, fuses := true, pwr := true, faults := true, trg := true, ident := true, eth := true, fabric := true, kill := true, lost := true, clk := true, time := true, dma := true, domains := true, units := true, afe := true, adc := true, ddc := true, xfm := true, den := true, mco := true, scn := true, recorder := true, lne := true, pci := true, ports := true, jes := true, links := true, cal := true, hkc := true, aux := true, mon := true }) := (State.stripped_view (q := Parts.others { vals := true, img := true, tbs := true, sel := true, keeper := true, fuses := true, pwr := true, faults := true, trg := true, ident := true, eth := true, fabric := true, kill := true, lost := true, clk := true, time := true, dma := true, domains := true, units := true, afe := true, adc := true, ddc := true, xfm := true, den := true, mco := true, scn := true, recorder := true, lne := true, pci := true, ports := true, jes := true, links := true, cal := true, hkc := true, aux := true, mon := true }) (by decide) ..).trans (State.takeFree_view _ s 1)
  clear_value t
  refine Eq.trans ?_ ht
  have e : ((t.bays.zipWith (fun y z => { y with aux := z.aux }) s.bays).map (Bay.view (Parts.others { vals := true, img := true, tbs := true, sel := true, keeper := true, fuses := true, pwr := true, faults := true, trg := true, ident := true, eth := true, fabric := true, kill := true, lost := true, clk := true, time := true, dma := true, domains := true, units := true, afe := true, adc := true, ddc := true, xfm := true, den := true, mco := true, scn := true, recorder := true, lne := true, pci := true, ports := true, jes := true, links := true, cal := true, hkc := true, aux := true, mon := true }))) = t.bays.map (Bay.view (Parts.others { vals := true, img := true, tbs := true, sel := true, keeper := true, fuses := true, pwr := true, faults := true, trg := true, ident := true, eth := true, fabric := true, kill := true, lost := true, clk := true, time := true, dma := true, domains := true, units := true, afe := true, adc := true, ddc := true, xfm := true, den := true, mco := true, scn := true, recorder := true, lne := true, pci := true, ports := true, jes := true, links := true, cal := true, hkc := true, aux := true, mon := true })) := by
    apply Vector.ext
    intro i hi
    simp only [Vector.getElem_map, Vector.getElem_zipWith]
    rfl
  unfold State.view
  rw [e]
  rfl

theorem execRstNFall_view {q : Parts} (hq : q.apart { vals := true, img := true, tbs := true, sel := true, keeper := true, fuses := true, pwr := true, faults := true, trg := true, ident := true, eth := true, fabric := true, kill := true, pins := true, lost := true, clk := true, time := true, dma := true, domains := true, units := true, afe := true, adc := true, ddc := true, xfm := true, den := true, mco := true, scn := true, recorder := true, lne := true, pci := true, ports := true, jes := true, links := true, cal := true, hkc := true, aux := true, mon := true } = true) (s : State) : Out.view q (execRstNFall s) = some (s.view q) := by
  refine out_view_of { vals := true, img := true, tbs := true, sel := true, keeper := true, fuses := true, pwr := true, faults := true, trg := true, ident := true, eth := true, fabric := true, kill := true, pins := true, lost := true, clk := true, time := true, dma := true, domains := true, units := true, afe := true, adc := true, ddc := true, xfm := true, den := true, mco := true, scn := true, recorder := true, lne := true, pci := true, ports := true, jes := true, links := true, cal := true, hkc := true, aux := true, mon := true } hq ?_
  unfold execRstNFall
  split
  · rfl
  · extract_lets shoal s1 s2
    have h1 : s1.view (Parts.others { vals := true, img := true, tbs := true, sel := true, keeper := true, fuses := true, pwr := true, faults := true, trg := true, ident := true, eth := true, fabric := true, kill := true, pins := true, lost := true, clk := true, time := true, dma := true, domains := true, units := true, afe := true, adc := true, ddc := true, xfm := true, den := true, mco := true, scn := true, recorder := true, lne := true, pci := true, ports := true, jes := true, links := true, cal := true, hkc := true, aux := true, mon := true }) = s.view (Parts.others { vals := true, img := true, tbs := true, sel := true, keeper := true, fuses := true, pwr := true, faults := true, trg := true, ident := true, eth := true, fabric := true, kill := true, pins := true, lost := true, clk := true, time := true, dma := true, domains := true, units := true, afe := true, adc := true, ddc := true, xfm := true, den := true, mco := true, scn := true, recorder := true, lne := true, pci := true, ports := true, jes := true, links := true, cal := true, hkc := true, aux := true, mon := true }) := by
      simp only [s1]
      split
      · exact (State.ringOnly_view ..).trans ((State.modImg_view (q := Parts.others { vals := true, img := true, tbs := true, sel := true, keeper := true, fuses := true, pwr := true, faults := true, trg := true, ident := true, eth := true, fabric := true, kill := true, pins := true, lost := true, clk := true, time := true, dma := true, domains := true, units := true, afe := true, adc := true, ddc := true, xfm := true, den := true, mco := true, scn := true, recorder := true, lne := true, pci := true, ports := true, jes := true, links := true, cal := true, hkc := true, aux := true, mon := true }) (by decide) ..).trans (State.issueReset_view (q := Parts.others { vals := true, img := true, tbs := true, sel := true, keeper := true, fuses := true, pwr := true, faults := true, trg := true, ident := true, eth := true, fabric := true, kill := true, pins := true, lost := true, clk := true, time := true, dma := true, domains := true, units := true, afe := true, adc := true, ddc := true, xfm := true, den := true, mco := true, scn := true, recorder := true, lne := true, pci := true, ports := true, jes := true, links := true, cal := true, hkc := true, aux := true, mon := true }) (by decide) ..))
      · rfl
    clear_value s1
    have h2 : s2.view (Parts.others { vals := true, img := true, tbs := true, sel := true, keeper := true, fuses := true, pwr := true, faults := true, trg := true, ident := true, eth := true, fabric := true, kill := true, pins := true, lost := true, clk := true, time := true, dma := true, domains := true, units := true, afe := true, adc := true, ddc := true, xfm := true, den := true, mco := true, scn := true, recorder := true, lne := true, pci := true, ports := true, jes := true, links := true, cal := true, hkc := true, aux := true, mon := true }) = s.view (Parts.others { vals := true, img := true, tbs := true, sel := true, keeper := true, fuses := true, pwr := true, faults := true, trg := true, ident := true, eth := true, fabric := true, kill := true, pins := true, lost := true, clk := true, time := true, dma := true, domains := true, units := true, afe := true, adc := true, ddc := true, xfm := true, den := true, mco := true, scn := true, recorder := true, lne := true, pci := true, ports := true, jes := true, links := true, cal := true, hkc := true, aux := true, mon := true }) := by
      simp only [s2]
      split
      · exact h1
      · exact (State.warmReset_view (q := Parts.others { vals := true, img := true, tbs := true, sel := true, keeper := true, fuses := true, pwr := true, faults := true, trg := true, ident := true, eth := true, fabric := true, kill := true, pins := true, lost := true, clk := true, time := true, dma := true, domains := true, units := true, afe := true, adc := true, ddc := true, xfm := true, den := true, mco := true, scn := true, recorder := true, lne := true, pci := true, ports := true, jes := true, links := true, cal := true, hkc := true, aux := true, mon := true }) (by decide) ..).trans h1
    clear_value s2
    exact next_view (Eq.trans rfl h2)

theorem State.beginStart_view {q : Parts} (hq : q.apart { img := true } = true) (s : State) : (State.beginStart s).view q = s.view q := by
  refine view_of { img := true } hq ?_
  simp only [State.beginStart, ↓State.modImg_view (q := Parts.others { img := true }) (by decide)]

theorem execRstNRise_view {q : Parts} (hq : q.apart { img := true, pins := true, aux := true } = true) (s : State) : Out.view q (execRstNRise s) = some (s.view q) := by
  refine out_view_of { img := true, pins := true, aux := true } hq ?_
  unfold execRstNRise
  split
  · rfl
  · split
    · rfl
    · refine next_view ((State.beginStart_view (q := Parts.others { img := true, pins := true, aux := true }) (by decide) ..).trans ?_)
      exact Eq.trans rfl (State.mapBays_view s (fun y => { y with aux := .reset }) _ (fun _ => rfl))

theorem execPwrGoodRise_view {q : Parts} (hq : q.apart { img := true, pwr := true } = true) (s : State) : Out.view q (execPwrGoodRise s) = some (s.view q) := by
  refine out_view_of { img := true, pwr := true } hq ?_
  simp only [execPwrGoodRise, ↓view_ite, ↓out_view_ite, ↓out_view_next, ite_self, ↓State.modPwr_view (q := Parts.others { img := true, pwr := true }) (by decide), ↓State.beginStart_view (q := Parts.others { img := true, pwr := true }) (by decide)]

theorem execTbsGlobalReset_view {q : Parts} (hq : q.apart { tbs := true } = true) (v : Word) (s : State) : Out.view q (execTbsGlobalReset v s) = some (s.view q) := by
  refine out_view_of { tbs := true } hq ?_
  simp only [execTbsGlobalReset, ↓out_view_ite, ↓out_view_next, ite_self, ↓State.issueReset_view (q := Parts.others { tbs := true }) (by decide)]

theorem execGlobalResetArrive_view {q : Parts} (hq : q.apart { vals := true, img := true, tbs := true, sel := true, keeper := true, fuses := true, pwr := true, faults := true, trg := true, ident := true, eth := true, fabric := true, kill := true, lost := true, clk := true, time := true, dma := true, domains := true, units := true, afe := true, adc := true, ddc := true, xfm := true, den := true, mco := true, scn := true, recorder := true, lne := true, pci := true, ports := true, jes := true, links := true, cal := true, hkc := true, aux := true, mon := true } = true) (remote : Bool) (s : State) : Out.view q (execGlobalResetArrive remote s) = some (s.view q) := by
  refine out_view_of { vals := true, img := true, tbs := true, sel := true, keeper := true, fuses := true, pwr := true, faults := true, trg := true, ident := true, eth := true, fabric := true, kill := true, lost := true, clk := true, time := true, dma := true, domains := true, units := true, afe := true, adc := true, ddc := true, xfm := true, den := true, mco := true, scn := true, recorder := true, lne := true, pci := true, ports := true, jes := true, links := true, cal := true, hkc := true, aux := true, mon := true } hq ?_
  unfold execGlobalResetArrive
  split
  · rfl
  · extract_lets s1 s2
    have h2 : s2.view (Parts.others { vals := true, img := true, tbs := true, sel := true, keeper := true, fuses := true, pwr := true, faults := true, trg := true, ident := true, eth := true, fabric := true, kill := true, lost := true, clk := true, time := true, dma := true, domains := true, units := true, afe := true, adc := true, ddc := true, xfm := true, den := true, mco := true, scn := true, recorder := true, lne := true, pci := true, ports := true, jes := true, links := true, cal := true, hkc := true, aux := true, mon := true }) = s.view (Parts.others { vals := true, img := true, tbs := true, sel := true, keeper := true, fuses := true, pwr := true, faults := true, trg := true, ident := true, eth := true, fabric := true, kill := true, lost := true, clk := true, time := true, dma := true, domains := true, units := true, afe := true, adc := true, ddc := true, xfm := true, den := true, mco := true, scn := true, recorder := true, lne := true, pci := true, ports := true, jes := true, links := true, cal := true, hkc := true, aux := true, mon := true }) :=
      (State.warmReset_view (q := Parts.others { vals := true, img := true, tbs := true, sel := true, keeper := true, fuses := true, pwr := true, faults := true, trg := true, ident := true, eth := true, fabric := true, kill := true, lost := true, clk := true, time := true, dma := true, domains := true, units := true, afe := true, adc := true, ddc := true, xfm := true, den := true, mco := true, scn := true, recorder := true, lne := true, pci := true, ports := true, jes := true, links := true, cal := true, hkc := true, aux := true, mon := true }) (by decide) ..).trans ((State.ringOnly_view ..).trans (State.modImg_view (q := Parts.others { vals := true, img := true, tbs := true, sel := true, keeper := true, fuses := true, pwr := true, faults := true, trg := true, ident := true, eth := true, fabric := true, kill := true, lost := true, clk := true, time := true, dma := true, domains := true, units := true, afe := true, adc := true, ddc := true, xfm := true, den := true, mco := true, scn := true, recorder := true, lne := true, pci := true, ports := true, jes := true, links := true, cal := true, hkc := true, aux := true, mon := true }) (by decide) ..))
    clear_value s2
    refine next_view (Eq.trans ?_ h2)
    exact Eq.trans rfl (State.mapBays_view s2 (fun y => { y with aux := { y.aux with loaded := false, held := none, told := true } }) _ (fun _ => rfl))

theorem execGlobalResetRelease_view {q : Parts} (hq : q.apart { img := true, tbs := true } = true) (s : State) : Out.view q (execGlobalResetRelease s) = some (s.view q) := by
  refine out_view_of { img := true, tbs := true } hq ?_
  simp only [execGlobalResetRelease, ↓out_view_ite, ↓out_view_next, ite_self, ↓State.modTbsPkg_view (q := Parts.others { img := true, tbs := true }) (by decide), ↓State.beginStart_view (q := Parts.others { img := true, tbs := true }) (by decide)]

theorem State.endPhase_view {q : Parts} (hq : q.apart { img := true } = true) (s : State) (n : Nat) : (State.endPhase s n).view q = s.view q := by
  refine view_of { img := true } hq ?_
  simp only [State.endPhase, ↓State.modImg_view (q := Parts.others { img := true }) (by decide), ↓State.event_view]

theorem State.modBoot_view {q : Parts} (hq : q.apart { img := true } = true) (s : State) (f : Boot → Boot) : (State.modBoot s f).view q = s.view q := by
  refine view_of { img := true } hq ?_
  simp only [State.modBoot, ↓State.modImg_view (q := Parts.others { img := true }) (by decide)]

theorem execLagoonFloodDone_view {q : Parts} (hq : q.apart { img := true, domains := true } = true) (s : State) : Out.view q (execLagoonFloodDone s) = some (s.view q) := by
  refine out_view_of { img := true, domains := true } hq ?_
  simp only [execLagoonFloodDone, ↓out_view_ite, ↓out_view_next, ↓State.eachBay_view, ite_self, implies_true, ↓State.modDom_view (q := Parts.others { img := true, domains := true }) (by decide), ↓State.endPhase_view (q := Parts.others { img := true, domains := true }) (by decide)]

theorem execBootRomDone_view {q : Parts} (hq : q.apart { img := true, tbs := true, faults := true, ident := true, fabric := true, lost := true, clk := true, domains := true, lne := true, links := true, hkc := true, aux := true } = true) (seen : Vector (Vector (Option CandSeen) 4) 8) (locked : BitVec 8) (s : State) : Out.view q (execBootRomDone seen locked s) = some (s.view q) := by
  refine out_view_of { img := true, tbs := true, faults := true, ident := true, fabric := true, lost := true, clk := true, domains := true, lne := true, links := true, hkc := true, aux := true } hq ?_
  simp only [execBootRomDone, ↓view_ite, ↓out_view_ite, ↓out_view_next, ↓State.eachBay_view, ite_self, implies_true, ↓State.modClk_view (q := Parts.others { img := true, tbs := true, faults := true, ident := true, fabric := true, lost := true, clk := true, domains := true, lne := true, links := true, hkc := true, aux := true }) (by decide), ↓State.hkcStart_view (q := Parts.others { img := true, tbs := true, faults := true, ident := true, fabric := true, lost := true, clk := true, domains := true, lne := true, links := true, hkc := true, aux := true }) (by decide), ↓State.powerQuads_view (q := Parts.others { img := true, tbs := true, faults := true, ident := true, fabric := true, lost := true, clk := true, domains := true, lne := true, links := true, hkc := true, aux := true }) (by decide), ↓State.loseBay_view (q := Parts.others { img := true, tbs := true, faults := true, ident := true, fabric := true, lost := true, clk := true, domains := true, lne := true, links := true, hkc := true, aux := true }) (by decide), ↓State.endPhase_view (q := Parts.others { img := true, tbs := true, faults := true, ident := true, fabric := true, lost := true, clk := true, domains := true, lne := true, links := true, hkc := true, aux := true }) (by decide)]

theorem execD2dTrainDone_view {q : Parts} (hq : q.apart { img := true, tbs := true, fabric := true, lne := true, links := true } = true) (failed : Vector (BitVec 3) 8) (s : State) : Out.view q (execD2dTrainDone failed s) = some (s.view q) := by
  refine out_view_of { img := true, tbs := true, fabric := true, lne := true, links := true } hq ?_
  simp only [execD2dTrainDone, ↓view_ite, ↓out_view_ite, ↓out_view_next, ↓foldl_view, ↓State.eachBay_view, ite_self, implies_true, ↓State.beginLink_view (q := Parts.others { img := true, tbs := true, fabric := true, lne := true, links := true }) (by decide), ↓State.modPortL_view (q := Parts.others { img := true, tbs := true, fabric := true, lne := true, links := true }) (by decide), ↓State.reroute_view (q := Parts.others { img := true, tbs := true, fabric := true, lne := true, links := true }) (by decide), ↓State.setBound_view (q := Parts.others { img := true, tbs := true, fabric := true, lne := true, links := true }) (by decide), ↓State.endPhase_view (q := Parts.others { img := true, tbs := true, fabric := true, lne := true, links := true }) (by decide)]

theorem execDiscoverDone_view {q : Parts} (hq : q.apart { img := true } = true) (s : State) : Out.view q (execDiscoverDone s) = some (s.view q) := by
  refine out_view_of { img := true } hq ?_
  simp only [execDiscoverDone, ↓out_view_ite, ↓out_view_next, ite_self, ↓State.endPhase_view (q := Parts.others { img := true }) (by decide)]

theorem execDiscoverTimeout_view {q : Parts} (hq : q.apart { tbs := true, faults := true, ident := true, fabric := true, lost := true, clk := true, links := true, aux := true } = true) (b : BayNo) (s : State) : Out.view q (execDiscoverTimeout b s) = some (s.view q) := by
  refine out_view_of { tbs := true, faults := true, ident := true, fabric := true, lost := true, clk := true, links := true, aux := true } hq ?_
  simp only [execDiscoverTimeout, ↓out_view_ite, ↓out_view_next, ite_self, ↓State.loseBay_view (q := Parts.others { tbs := true, faults := true, ident := true, fabric := true, lost := true, clk := true, links := true, aux := true }) (by decide)]

theorem execShoalSectionReadDone_view {q : Parts} (hq : q.apart { vals := true, tbs := true, fabric := true, domains := true, lne := true } = true) (s : State) : Out.view q (execShoalSectionReadDone s) = some (s.view q) := by
  refine out_view_of { vals := true, tbs := true, fabric := true, domains := true, lne := true } hq ?_
  simp only [execShoalSectionReadDone]
  repeat' split
  all_goals simp only [↓out_view_next, ↓State.eachBay_view, implies_true, ↓State.modVals_view (q := Parts.others { vals := true, tbs := true, fabric := true, domains := true, lne := true }) (by decide), ↓State.beginLink_view (q := Parts.others { vals := true, tbs := true, fabric := true, domains := true, lne := true }) (by decide), ↓State.powerQuads_view (q := Parts.others { vals := true, tbs := true, fabric := true, domains := true, lne := true }) (by decide), ↓State.setBound_view (q := Parts.others { vals := true, tbs := true, fabric := true, domains := true, lne := true }) (by decide)]

theorem State.enterSafe_view {q : Parts} (hq : q.apart { vals := true, img := true, ident := true, fabric := true, clk := true, domains := true, afe := true, adc := true, lne := true, aux := true } = true) (s : State) : (s.enterSafe).view q = s.view q := by
  refine view_of { vals := true, img := true, ident := true, fabric := true, clk := true, domains := true, afe := true, adc := true, lne := true, aux := true } hq ?_
  unfold State.enterSafe
  extract_lets t s1 s2 s3
  have h1 : s1.view (Parts.others { vals := true, img := true, ident := true, fabric := true, clk := true, domains := true, afe := true, adc := true, lne := true, aux := true }) = s.view (Parts.others { vals := true, img := true, ident := true, fabric := true, clk := true, domains := true, afe := true, adc := true, lne := true, aux := true }) := (State.modImg_view (q := Parts.others { vals := true, img := true, ident := true, fabric := true, clk := true, domains := true, afe := true, adc := true, lne := true, aux := true }) (by decide) ..).trans (State.modVals_view (q := Parts.others { vals := true, img := true, ident := true, fabric := true, clk := true, domains := true, afe := true, adc := true, lne := true, aux := true }) (by decide) ..)
  clear_value s1
  have h2 : s2.view (Parts.others { vals := true, img := true, ident := true, fabric := true, clk := true, domains := true, afe := true, adc := true, lne := true, aux := true }) = s.view (Parts.others { vals := true, img := true, ident := true, fabric := true, clk := true, domains := true, afe := true, adc := true, lne := true, aux := true }) := (foldl_view _ _ (fun _ _ => State.modExt_view (q := Parts.others { vals := true, img := true, ident := true, fabric := true, clk := true, domains := true, afe := true, adc := true, lne := true, aux := true }) (by decide) ..) _ _).trans h1
  clear_value s2
  have h3 : s3.view (Parts.others { vals := true, img := true, ident := true, fabric := true, clk := true, domains := true, afe := true, adc := true, lne := true, aux := true }) = s.view (Parts.others { vals := true, img := true, ident := true, fabric := true, clk := true, domains := true, afe := true, adc := true, lne := true, aux := true }) := by
    refine (State.eachBay_view _ _ (fun s b => ?_) _ _).trans h2
    extract_lets s5 s6
    have h5 : s5.view (Parts.others { vals := true, img := true, ident := true, fabric := true, clk := true, domains := true, afe := true, adc := true, lne := true, aux := true }) = s.view (Parts.others { vals := true, img := true, ident := true, fabric := true, clk := true, domains := true, afe := true, adc := true, lne := true, aux := true }) := by
      refine foldl_view _ _ (fun _ _ => ?_) _ _
      split
      · exact State.quadOff_view (vp := Parts.others { vals := true, img := true, ident := true, fabric := true, clk := true, domains := true, afe := true, adc := true, lne := true, aux := true }) (by decide) ..
      · rfl
    clear_value s5
    have h6 : s6.view (Parts.others { vals := true, img := true, ident := true, fabric := true, clk := true, domains := true, afe := true, adc := true, lne := true, aux := true }) = s.view (Parts.others { vals := true, img := true, ident := true, fabric := true, clk := true, domains := true, afe := true, adc := true, lne := true, aux := true }) := (State.modDom_view (q := Parts.others { vals := true, img := true, ident := true, fabric := true, clk := true, domains := true, afe := true, adc := true, lne := true, aux := true }) (by decide) ..).trans h5
    clear_value s6
    refine (State.auxZero_view (q := Parts.others { vals := true, img := true, ident := true, fabric := true, clk := true, domains := true, afe := true, adc := true, lne := true, aux := true }) (by decide) ..).trans ((State.modClk_view (q := Parts.others { vals := true, img := true, ident := true, fabric := true, clk := true, domains := true, afe := true, adc := true, lne := true, aux := true }) (by decide) ..).trans ((State.modBay_view _ _ _ _ ?_).trans h6))
    exact fun _ => rfl
  clear_value s3
  exact (State.event_view ..).trans ((State.alert_view (q := Parts.others { vals := true, img := true, ident := true, fabric := true, clk := true, domains := true, afe := true, adc := true, lne := true, aux := true }) (by decide) ..).trans h3)

theorem State.slotFails_view {q : Parts} (hq : q.apart { vals := true, img := true, ident := true, fabric := true, clk := true, domains := true, afe := true, adc := true, lne := true, aux := true } = true) (s : State) (slot : Bool) (check : Nat) (refusal : Option (List Word)) : (State.slotFails s slot check refusal).view q = s.view q := by
  refine view_of { vals := true, img := true, ident := true, fabric := true, clk := true, domains := true, afe := true, adc := true, lne := true, aux := true } hq ?_
  unfold State.slotFails
  repeat' (first | split | (simp only [↓view_ite, ite_self, ↓State.modImg_view (q := Parts.others { vals := true, img := true, ident := true, fabric := true, clk := true, domains := true, afe := true, adc := true, lne := true, aux := true }) (by decide), ↓State.event_view, ↓State.modBoot_view (q := Parts.others { vals := true, img := true, ident := true, fabric := true, clk := true, domains := true, afe := true, adc := true, lne := true, aux := true }) (by decide), ↓State.enterSafe_view (q := Parts.others { vals := true, img := true, ident := true, fabric := true, clk := true, domains := true, afe := true, adc := true, lne := true, aux := true }) (by decide)]; done))
  all_goals simp_all only [↓view_ite, ↓snd_ite, ↓out_view_ite, ↓out_view_next, ↓foldl_view, ↓foldl_snd_view, ↓State.eachBay_view, ↓viewOr_some, ↓viewOr_none, ↓viewOr_ite, ite_self, implies_true, and_self, ↓State.modImg_view (q := Parts.others { vals := true, img := true, ident := true, fabric := true, clk := true, domains := true, afe := true, adc := true, lne := true, aux := true }) (by decide), ↓State.event_view, ↓State.modBoot_view (q := Parts.others { vals := true, img := true, ident := true, fabric := true, clk := true, domains := true, afe := true, adc := true, lne := true, aux := true }) (by decide), ↓State.enterSafe_view (q := Parts.others { vals := true, img := true, ident := true, fabric := true, clk := true, domains := true, afe := true, adc := true, lne := true, aux := true }) (by decide)]

theorem execImageReadDone_view {q : Parts} (hq : q.apart { vals := true, img := true, keeper := true, ident := true, fabric := true, clk := true, domains := true, afe := true, adc := true, lne := true, aux := true } = true) (flashError quad : Bool) (s : State) : Out.view q (execImageReadDone flashError quad s) = some (s.view q) := by
  refine out_view_of { vals := true, img := true, keeper := true, ident := true, fabric := true, clk := true, domains := true, afe := true, adc := true, lne := true, aux := true } hq ?_
  simp only [execImageReadDone]
  repeat' split
  all_goals simp only [↓out_view_next, ↓State.modImg_view (q := Parts.others { vals := true, img := true, keeper := true, ident := true, fabric := true, clk := true, domains := true, afe := true, adc := true, lne := true, aux := true }) (by decide), ↓State.sealStart_view (q := Parts.others { vals := true, img := true, keeper := true, ident := true, fabric := true, clk := true, domains := true, afe := true, adc := true, lne := true, aux := true }) (by decide), ↓State.endPhase_view (q := Parts.others { vals := true, img := true, keeper := true, ident := true, fabric := true, clk := true, domains := true, afe := true, adc := true, lne := true, aux := true }) (by decide), ↓State.modBoot_view (q := Parts.others { vals := true, img := true, keeper := true, ident := true, fabric := true, clk := true, domains := true, afe := true, adc := true, lne := true, aux := true }) (by decide), ↓State.slotFails_view (q := Parts.others { vals := true, img := true, keeper := true, ident := true, fabric := true, clk := true, domains := true, afe := true, adc := true, lne := true, aux := true }) (by decide)]

theorem State.relink_view {q : Parts} (hq : q.apart { fabric := true, domains := true, lne := true } = true) (s old : State) : (State.relink s old).view q = s.view q := by
  refine view_of { fabric := true, domains := true, lne := true } hq ?_
  simp only [State.relink, ↓view_ite, ↓foldl_view, ↓State.eachBay_view, ite_self, implies_true, ↓State.modExt_view (q := Parts.others { fabric := true, domains := true, lne := true }) (by decide), ↓State.beginLink_view (q := Parts.others { fabric := true, domains := true, lne := true }) (by decide), ↓State.powerQuads_view (q := Parts.others { fabric := true, domains := true, lne := true }) (by decide)]

theorem State.retrainControl_view {q : Parts} (hq : q.apart { lne := true, pci := true } = true) (s old : State) : (State.retrainControl s old).view q = s.view q := by
  refine view_of { lne := true, pci := true } hq ?_
  simp only [State.retrainControl, ↓view_ite, ite_self, ↓State.servePort_view (q := Parts.others { lne := true, pci := true }) (by decide), ↓State.modPci_view (q := Parts.others { lne := true, pci := true }) (by decide)]

theorem State.acceptSeal_view {q : Parts} (hq : q.apart { keeper := true, fuses := true } = true) (s : State) (im : Image) : (State.acceptSeal s im).view q = s.view q := by
  refine view_of { keeper := true, fuses := true } hq ?_
  simp only [State.acceptSeal, ↓State.modSeal_free (p := Parts.others { keeper := true, fuses := true }) rfl rfl]

theorem State.accept_view {q : Parts} (hq : q.apart { vals := true, img := true, tbs := true, keeper := true, fuses := true, fabric := true, domains := true, lne := true, pci := true } = true) (s : State) (im : Image) (pins : BitVec 4) : (State.accept s im pins).view q = s.view q := by
  refine view_of { vals := true, img := true, tbs := true, keeper := true, fuses := true, fabric := true, domains := true, lne := true, pci := true } hq ?_
  simp only [State.accept, ↓view_ite, ite_self, ↓State.modImg_view (q := Parts.others { vals := true, img := true, tbs := true, keeper := true, fuses := true, fabric := true, domains := true, lne := true, pci := true }) (by decide), ↓State.modVals_view (q := Parts.others { vals := true, img := true, tbs := true, keeper := true, fuses := true, fabric := true, domains := true, lne := true, pci := true }) (by decide), ↓State.setBound_view (q := Parts.others { vals := true, img := true, tbs := true, keeper := true, fuses := true, fabric := true, domains := true, lne := true, pci := true }) (by decide), ↓State.event_view, ↓State.relink_view (q := Parts.others { vals := true, img := true, tbs := true, keeper := true, fuses := true, fabric := true, domains := true, lne := true, pci := true }) (by decide), ↓State.retrainControl_view (q := Parts.others { vals := true, img := true, tbs := true, keeper := true, fuses := true, fabric := true, domains := true, lne := true, pci := true }) (by decide), ↓State.acceptSeal_view (q := Parts.others { vals := true, img := true, tbs := true, keeper := true, fuses := true, fabric := true, domains := true, lne := true, pci := true }) (by decide)]

theorem execCheckerDone_view {q : Parts} (hq : q.apart { vals := true, img := true, tbs := true, keeper := true, fuses := true, ident := true, fabric := true, clk := true, domains := true, afe := true, adc := true, lne := true, pci := true, aux := true } = true) (pins : BitVec 4) (s : State) : Out.view q (execCheckerDone pins s) = some (s.view q) := by
  refine out_view_of { vals := true, img := true, tbs := true, keeper := true, fuses := true, ident := true, fabric := true, clk := true, domains := true, afe := true, adc := true, lne := true, pci := true, aux := true } hq ?_
  simp only [execCheckerDone]
  repeat' split
  all_goals simp only [↓out_view_next, ↓State.event_view, ↓State.endPhase_view (q := Parts.others { vals := true, img := true, tbs := true, keeper := true, fuses := true, ident := true, fabric := true, clk := true, domains := true, afe := true, adc := true, lne := true, pci := true, aux := true }) (by decide), ↓State.slotFails_view (q := Parts.others { vals := true, img := true, tbs := true, keeper := true, fuses := true, ident := true, fabric := true, clk := true, domains := true, afe := true, adc := true, lne := true, pci := true, aux := true }) (by decide), ↓State.accept_view (q := Parts.others { vals := true, img := true, tbs := true, keeper := true, fuses := true, ident := true, fabric := true, clk := true, domains := true, afe := true, adc := true, lne := true, pci := true, aux := true }) (by decide)]

theorem State.settleQuads_view {q : Parts} (hq : q.apart { domains := true, lne := true } = true) (s : State) (b : BayNo) : (State.settleQuads s b).view q = s.view q := by
  refine view_of { domains := true, lne := true } hq ?_
  simp only [State.settleQuads, ↓view_ite, ↓foldl_view, ite_self, implies_true, ↓State.quadOff_view (vp := Parts.others { domains := true, lne := true }) (by decide), ↓State.powerQuads_view (q := Parts.others { domains := true, lne := true }) (by decide)]

theorem State.loadMasks_view {q : Parts} (hq : q.apart { units := true } = true) (s : State) (b : BayNo) : (s.loadMasks b).view q = s.view q := by
  refine view_of { units := true } hq ?_
  unfold State.loadMasks
  split
  · rfl
  · exact foldl_view _ _ (fun s x => (State.modBay_view _ _ _ _ (by intro _; rfl))) _ _

theorem State.loadCores_view {q : Parts} (hq : q.apart { mco := true } = true) (s : State) (b : BayNo) : (State.loadCores s b).view q = s.view q := by
  refine view_of { mco := true } hq ?_
  simp only [State.loadCores, ↓view_ite, ↓foldl_view, ite_self, implies_true, ↓State.modCore_view (q := Parts.others { mco := true }) (by decide)]

theorem State.loadDma_view {q : Parts} (hq : q.apart { dma := true } = true) (s : State) (b : BayNo) : (State.loadDma s b).view q = s.view q := by
  refine view_of { dma := true } hq ?_
  simp only [State.loadDma, ↓foldl_view, implies_true, ↓State.modDma_view (q := Parts.others { dma := true }) (by decide)]

theorem State.runDma_view {q : Parts} (hq : q.apart { dma := true } = true) (s : State) (b : BayNo) : (State.runDma s b).view q = s.view q := by
  refine view_of { dma := true } hq ?_
  simp only [State.runDma, ↓view_ite, ↓foldl_view, ite_self, implies_true, ↓State.modDma_view (q := Parts.others { dma := true }) (by decide)]

theorem execImageBroadcastDone_view {q : Parts} (hq : q.apart { img := true, dma := true, domains := true, units := true, afe := true, ddc := true, xfm := true, mco := true, scn := true, lne := true, hkc := true, aux := true } = true) (s : State) : Out.view q (execImageBroadcastDone s) = some (s.view q) := by
  refine out_view_of { img := true, dma := true, domains := true, units := true, afe := true, ddc := true, xfm := true, mco := true, scn := true, lne := true, hkc := true, aux := true } hq ?_
  simp only [execImageBroadcastDone, ↓out_view_ite, ↓out_view_next, ↓State.eachBay_view, ite_self, implies_true, ↓State.loadAtten_view (q := Parts.others { img := true, dma := true, domains := true, units := true, afe := true, ddc := true, xfm := true, mco := true, scn := true, lne := true, hkc := true, aux := true }) (by decide), ↓State.auxLoad_view (q := Parts.others { img := true, dma := true, domains := true, units := true, afe := true, ddc := true, xfm := true, mco := true, scn := true, lne := true, hkc := true, aux := true }) (by decide), ↓State.scanChanged_view (q := Parts.others { img := true, dma := true, domains := true, units := true, afe := true, ddc := true, xfm := true, mco := true, scn := true, lne := true, hkc := true, aux := true }) (by decide), ↓State.loadTables_view (q := Parts.others { img := true, dma := true, domains := true, units := true, afe := true, ddc := true, xfm := true, mco := true, scn := true, lne := true, hkc := true, aux := true }) (by decide), ↓State.powerDomains_view (q := Parts.others { img := true, dma := true, domains := true, units := true, afe := true, ddc := true, xfm := true, mco := true, scn := true, lne := true, hkc := true, aux := true }) (by decide), ↓State.endPhase_view (q := Parts.others { img := true, dma := true, domains := true, units := true, afe := true, ddc := true, xfm := true, mco := true, scn := true, lne := true, hkc := true, aux := true }) (by decide), ↓State.modBoot_view (q := Parts.others { img := true, dma := true, domains := true, units := true, afe := true, ddc := true, xfm := true, mco := true, scn := true, lne := true, hkc := true, aux := true }) (by decide), ↓State.settleQuads_view (q := Parts.others { img := true, dma := true, domains := true, units := true, afe := true, ddc := true, xfm := true, mco := true, scn := true, lne := true, hkc := true, aux := true }) (by decide), ↓State.loadMasks_view (q := Parts.others { img := true, dma := true, domains := true, units := true, afe := true, ddc := true, xfm := true, mco := true, scn := true, lne := true, hkc := true, aux := true }) (by decide), ↓State.loadCores_view (q := Parts.others { img := true, dma := true, domains := true, units := true, afe := true, ddc := true, xfm := true, mco := true, scn := true, lne := true, hkc := true, aux := true }) (by decide), ↓State.loadDma_view (q := Parts.others { img := true, dma := true, domains := true, units := true, afe := true, ddc := true, xfm := true, mco := true, scn := true, lne := true, hkc := true, aux := true }) (by decide)]

theorem execSpllPhase8Timeout_view {q : Parts} (hq : q.apart { clk := true, time := true, aux := true } = true) (b : BayNo) (s : State) : Out.view q (execSpllPhase8Timeout b s) = some (s.view q) := by
  refine out_view_of { clk := true, time := true, aux := true } hq ?_
  simp only [execSpllPhase8Timeout, ↓out_view_ite, ↓out_view_next, ite_self, ↓State.modClk_view (q := Parts.others { clk := true, time := true, aux := true }) (by decide), ↓State.modTbs_view (q := Parts.others { clk := true, time := true, aux := true }) (by decide), ↓State.auxRefresh_view (q := Parts.others { clk := true, time := true, aux := true }) (by decide)]

theorem State.lockPlls_view {q : Parts} (hq : q.apart { sel := true, clk := true, time := true } = true) (s : State) (seen : Vector (Option CandSeen) 4) : (State.lockPlls s seen).view q = s.view q := by
  refine view_of { sel := true, clk := true, time := true } hq ?_
  simp only [State.lockPlls, ↓State.eachBay_view, implies_true, ↓State.modSel_view (q := Parts.others { sel := true, clk := true, time := true }) (by decide), ↓State.modClk_view (q := Parts.others { sel := true, clk := true, time := true }) (by decide), ↓State.modTbs_view (q := Parts.others { sel := true, clk := true, time := true }) (by decide)]

theorem State.retrainBay_view {q : Parts} (hq : q.apart { fabric := true, lne := true, pci := true, links := true } = true) (s : State) (b : BayNo) : (State.retrainBay s b).view q = s.view q := by
  refine view_of { fabric := true, lne := true, pci := true, links := true } hq ?_
  simp only [State.retrainBay, ↓view_ite, ↓foldl_view, ite_self, implies_true, ↓State.servePort_view (q := Parts.others { fabric := true, lne := true, pci := true, links := true }) (by decide), ↓State.modExt_view (q := Parts.others { fabric := true, lne := true, pci := true, links := true }) (by decide), ↓State.beginLink_view (q := Parts.others { fabric := true, lne := true, pci := true, links := true }) (by decide), ↓State.modPci_view (q := Parts.others { fabric := true, lne := true, pci := true, links := true }) (by decide), ↓State.modPortL_view (q := Parts.others { fabric := true, lne := true, pci := true, links := true }) (by decide)]

theorem State.moveCplls_view {q : Parts} (hq : q.apart { fabric := true, lne := true, pci := true, links := true } = true) (s old : State) : (State.moveCplls s old).view q = s.view q := by
  refine view_of { fabric := true, lne := true, pci := true, links := true } hq ?_
  simp only [State.moveCplls, ↓foldl_view, implies_true, ↓State.retrainBay_view (q := Parts.others { fabric := true, lne := true, pci := true, links := true }) (by decide)]

theorem State.setTime_view {q : Parts} (hq : q.apart { keeper := true, time := true } = true) (s : State) : (State.setTime s).view q = s.view q := by
  refine view_of { keeper := true, time := true } hq ?_
  simp only [State.setTime, ↓State.eachBay_view, implies_true, ↓State.modTbs_view (q := Parts.others { keeper := true, time := true }) (by decide), ↓State.timeSetEntry_view (q := Parts.others { keeper := true, time := true }) (by decide), ↓State.event_view]

theorem State.anchorGrid_view {q : Parts} (hq : q.apart { tbs := true, time := true } = true) (s : State) : (State.anchorGrid s).view q = s.view q := by
  refine view_of { tbs := true, time := true } hq ?_
  simp only [State.anchorGrid, ↓State.eachBay_view, implies_true, ↓State.modTbsPkg_view (q := Parts.others { tbs := true, time := true }) (by decide), ↓State.modTbs_view (q := Parts.others { tbs := true, time := true }) (by decide), ↓State.modGrid_view (q := Parts.others { tbs := true, time := true }) (by decide)]

theorem State.keepTime_view {q : Parts} (hq : q.apart { tbs := true, time := true } = true) (s : State) : (State.keepTime s).view q = s.view q := by
  refine view_of { tbs := true, time := true } hq ?_
  simp only [State.keepTime, ↓view_ite, ite_self, ↓State.modServo_view (q := Parts.others { tbs := true, time := true }) (by decide), ↓State.steer_view (q := Parts.others { tbs := true, time := true }) (by decide)]

theorem State.blowFuse_view {q : Parts} (hq : q.apart { keeper := true, fuses := true } = true) (s : State) : (State.blowFuse s).view q = s.view q := by
  refine view_of { keeper := true, fuses := true } hq ?_
  simp only [State.blowFuse, ↓view_ite, ite_self, ↓State.modSeal_free (p := Parts.others { keeper := true, fuses := true }) rfl rfl, ↓State.sealLog_view (q := Parts.others { keeper := true, fuses := true }) (by decide), ↓State.event_view]

theorem State.flushLog_view {q : Parts} (hq : q.apart { flash := true, keeper := true, ident := true } = true) (s : State) : (State.flushLog s).view q = s.view q := by
  refine view_of { flash := true, keeper := true, ident := true } hq ?_
  simp only [State.flushLog, ↓view_ite, ↓foldl_view, ite_self, implies_true, ↓State.flushOne_view (q := Parts.others { flash := true, keeper := true, ident := true }) (by decide)]

theorem execSpllLockPhase8_view {q : Parts} (hq : q.apart { img := true, flash := true, tbs := true, sel := true, keeper := true, fuses := true, ident := true, fabric := true, clk := true, time := true, scn := true, recorder := true, lne := true, pci := true, links := true } = true) (seen : Vector (Option CandSeen) 4) (s : State) : Out.view q (execSpllLockPhase8 seen s) = some (s.view q) := by
  refine out_view_of { img := true, flash := true, tbs := true, sel := true, keeper := true, fuses := true, ident := true, fabric := true, clk := true, time := true, scn := true, recorder := true, lne := true, pci := true, links := true } hq ?_
  simp only [execSpllLockPhase8, ↓view_ite, ↓out_view_ite, ↓out_view_next, ↓State.eachBay_view, ite_self, implies_true, ↓State.startRaster_view (q := Parts.others { img := true, flash := true, tbs := true, sel := true, keeper := true, fuses := true, ident := true, fabric := true, clk := true, time := true, scn := true, recorder := true, lne := true, pci := true, links := true }) (by decide), ↓State.recBegin_view (q := Parts.others { img := true, flash := true, tbs := true, sel := true, keeper := true, fuses := true, ident := true, fabric := true, clk := true, time := true, scn := true, recorder := true, lne := true, pci := true, links := true }) (by decide), ↓State.endPhase_view (q := Parts.others { img := true, flash := true, tbs := true, sel := true, keeper := true, fuses := true, ident := true, fabric := true, clk := true, time := true, scn := true, recorder := true, lne := true, pci := true, links := true }) (by decide), ↓State.lockPlls_view (q := Parts.others { img := true, flash := true, tbs := true, sel := true, keeper := true, fuses := true, ident := true, fabric := true, clk := true, time := true, scn := true, recorder := true, lne := true, pci := true, links := true }) (by decide), ↓State.moveCplls_view (q := Parts.others { img := true, flash := true, tbs := true, sel := true, keeper := true, fuses := true, ident := true, fabric := true, clk := true, time := true, scn := true, recorder := true, lne := true, pci := true, links := true }) (by decide), ↓State.setTime_view (q := Parts.others { img := true, flash := true, tbs := true, sel := true, keeper := true, fuses := true, ident := true, fabric := true, clk := true, time := true, scn := true, recorder := true, lne := true, pci := true, links := true }) (by decide), ↓State.anchorGrid_view (q := Parts.others { img := true, flash := true, tbs := true, sel := true, keeper := true, fuses := true, ident := true, fabric := true, clk := true, time := true, scn := true, recorder := true, lne := true, pci := true, links := true }) (by decide), ↓State.keepTime_view (q := Parts.others { img := true, flash := true, tbs := true, sel := true, keeper := true, fuses := true, ident := true, fabric := true, clk := true, time := true, scn := true, recorder := true, lne := true, pci := true, links := true }) (by decide), ↓State.blowFuse_view (q := Parts.others { img := true, flash := true, tbs := true, sel := true, keeper := true, fuses := true, ident := true, fabric := true, clk := true, time := true, scn := true, recorder := true, lne := true, pci := true, links := true }) (by decide), ↓State.flushLog_view (q := Parts.others { img := true, flash := true, tbs := true, sel := true, keeper := true, fuses := true, ident := true, fabric := true, clk := true, time := true, scn := true, recorder := true, lne := true, pci := true, links := true }) (by decide)]

theorem State.initAdc_view {q : Parts} (hq : q.apart { keeper := true, adc := true } = true) (s : State) (b : BayNo) (i : Fin 2) (x : AdcInit) : (State.initAdc s b i x).view q = s.view q := by
  refine view_of { keeper := true, adc := true } hq ?_
  simp only [State.initAdc, ↓view_ite, ↓foldl_view, ite_self, implies_true, ↓State.modAdc_view (q := Parts.others { keeper := true, adc := true }) (by decide), ↓State.calDisagree_view (q := Parts.others { keeper := true, adc := true }) (by decide), ↓State.event_view]

theorem execAdcInitCalDone_view {q : Parts} (hq : q.apart { img := true, keeper := true, adc := true } = true) (res : List AdcInit) (s : State) : Out.view q (execAdcInitCalDone res s) = some (s.view q) := by
  refine out_view_of { img := true, keeper := true, adc := true } hq ?_
  simp only [execAdcInitCalDone, ↓view_ite, ↓out_view_ite, ↓out_view_next, ↓foldl_view, ↓State.eachBay_view, ite_self, implies_true, ↓State.endPhase_view (q := Parts.others { img := true, keeper := true, adc := true }) (by decide), ↓State.initAdc_view (q := Parts.others { img := true, keeper := true, adc := true }) (by decide)]

theorem State.beginBay_view {q : Parts} (hq : q.apart { vals := true, img := true, tbs := true, keeper := true, time := true, units := true, afe := true, adc := true, ddc := true, xfm := true, den := true, mco := true, lne := true, jes := true, cal := true, hkc := true, aux := true, mon := true } = true) (s : State) (b : BayNo) (t : Stamp) : (State.beginBay s b t).view q = s.view q := by
  refine view_of { vals := true, img := true, tbs := true, keeper := true, time := true, units := true, afe := true, adc := true, ddc := true, xfm := true, den := true, mco := true, lne := true, jes := true, cal := true, hkc := true, aux := true, mon := true } hq ?_
  unfold State.beginBay
  extract_lets c0 s1 s2 s3 s4
  have h1 : s1.view (Parts.others { vals := true, img := true, tbs := true, keeper := true, time := true, units := true, afe := true, adc := true, ddc := true, xfm := true, den := true, mco := true, lne := true, jes := true, cal := true, hkc := true, aux := true, mon := true }) = s.view (Parts.others { vals := true, img := true, tbs := true, keeper := true, time := true, units := true, afe := true, adc := true, ddc := true, xfm := true, den := true, mco := true, lne := true, jes := true, cal := true, hkc := true, aux := true, mon := true }) := State.modBay_view _ _ _ _ (fun _ => rfl)
  have h2 : s2.view (Parts.others { vals := true, img := true, tbs := true, keeper := true, time := true, units := true, afe := true, adc := true, ddc := true, xfm := true, den := true, mco := true, lne := true, jes := true, cal := true, hkc := true, aux := true, mon := true }) = s.view (Parts.others { vals := true, img := true, tbs := true, keeper := true, time := true, units := true, afe := true, adc := true, ddc := true, xfm := true, den := true, mco := true, lne := true, jes := true, cal := true, hkc := true, aux := true, mon := true }) := (foldl_view _ _ (fun _ _ => State.jesStart_view (q := Parts.others { vals := true, img := true, tbs := true, keeper := true, time := true, units := true, afe := true, adc := true, ddc := true, xfm := true, den := true, mco := true, lne := true, jes := true, cal := true, hkc := true, aux := true, mon := true }) (by decide) ..) _ _).trans h1
  have h3 : s3.view (Parts.others { vals := true, img := true, tbs := true, keeper := true, time := true, units := true, afe := true, adc := true, ddc := true, xfm := true, den := true, mco := true, lne := true, jes := true, cal := true, hkc := true, aux := true, mon := true }) = s.view (Parts.others { vals := true, img := true, tbs := true, keeper := true, time := true, units := true, afe := true, adc := true, ddc := true, xfm := true, den := true, mco := true, lne := true, jes := true, cal := true, hkc := true, aux := true, mon := true }) := by
    refine (foldl_view _ _ (fun s u => ?_) _ _).trans h2
    split
    · exact State.unitChanged_view (q := Parts.others { vals := true, img := true, tbs := true, keeper := true, time := true, units := true, afe := true, adc := true, ddc := true, xfm := true, den := true, mco := true, lne := true, jes := true, cal := true, hkc := true, aux := true, mon := true }) (by decide) ..
    · rfl
  have h4 : s4.view (Parts.others { vals := true, img := true, tbs := true, keeper := true, time := true, units := true, afe := true, adc := true, ddc := true, xfm := true, den := true, mco := true, lne := true, jes := true, cal := true, hkc := true, aux := true, mon := true }) = s.view (Parts.others { vals := true, img := true, tbs := true, keeper := true, time := true, units := true, afe := true, adc := true, ddc := true, xfm := true, den := true, mco := true, lne := true, jes := true, cal := true, hkc := true, aux := true, mon := true }) := (State.resumeBay_view (q := Parts.others { vals := true, img := true, tbs := true, keeper := true, time := true, units := true, afe := true, adc := true, ddc := true, xfm := true, den := true, mco := true, lne := true, jes := true, cal := true, hkc := true, aux := true, mon := true }) (by decide) ..).trans h3
  clear_value s4
  split
  · refine (foldl_view _ _ (fun s p => ?_) _ _).trans h4
    split
    · exact State.stopPort_view (q := Parts.others { vals := true, img := true, tbs := true, keeper := true, time := true, units := true, afe := true, adc := true, ddc := true, xfm := true, den := true, mco := true, lne := true, jes := true, cal := true, hkc := true, aux := true, mon := true }) (by decide) ..
    · rfl
  · exact h4

theorem State.runBay_view {q : Parts} (hq : q.apart { dma := true, den := true, mco := true, mon := true } = true) (s : State) (b : BayNo) (t : Stamp) : (State.runBay s b t).view q = s.view q := by
  refine view_of { dma := true, den := true, mco := true, mon := true } hq ?_
  simp only [State.runBay, ↓view_ite, ↓foldl_view, ite_self, implies_true, ↓State.modCore_view (q := Parts.others { dma := true, den := true, mco := true, mon := true }) (by decide), ↓State.initRings_view (q := Parts.others { dma := true, den := true, mco := true, mon := true }) (by decide), ↓State.monStart_view (q := Parts.others { dma := true, den := true, mco := true, mon := true }) (by decide), ↓State.denStart_view (q := Parts.others { dma := true, den := true, mco := true, mon := true }) (by decide), ↓State.runDma_view (q := Parts.others { dma := true, den := true, mco := true, mon := true }) (by decide)]

theorem State.enterRun_view {q : Parts} (hq : q.apart { img := true, pwr := true, trg := true, dma := true, den := true, mco := true, mon := true } = true) (s : State) (t : Stamp) : (State.enterRun s t).view q = s.view q := by
  refine view_of { img := true, pwr := true, trg := true, dma := true, den := true, mco := true, mon := true } hq ?_
  simp only [State.enterRun, ↓view_ite, ↓State.eachBay_view, ite_self, implies_true, ↓State.modImg_view (q := Parts.others { img := true, pwr := true, trg := true, dma := true, den := true, mco := true, mon := true }) (by decide), ↓State.autoArm_view (q := Parts.others { img := true, pwr := true, trg := true, dma := true, den := true, mco := true, mon := true }) (by decide), ↓State.pwrStart_view (q := Parts.others { img := true, pwr := true, trg := true, dma := true, den := true, mco := true, mon := true }) (by decide), ↓State.event_view, ↓State.runBay_view (q := Parts.others { img := true, pwr := true, trg := true, dma := true, den := true, mco := true, mon := true }) (by decide)]

theorem execFeCalDone_view {q : Parts} (hq : q.apart { vals := true, img := true, tbs := true, keeper := true, pwr := true, trg := true, time := true, dma := true, units := true, afe := true, adc := true, ddc := true, xfm := true, den := true, mco := true, lne := true, jes := true, cal := true, hkc := true, aux := true, mon := true } = true) (runs : List FeRun) (s : State) : Out.view q (execFeCalDone runs s) = some (s.view q) := by
  refine out_view_of { vals := true, img := true, tbs := true, keeper := true, pwr := true, trg := true, time := true, dma := true, units := true, afe := true, adc := true, ddc := true, xfm := true, den := true, mco := true, lne := true, jes := true, cal := true, hkc := true, aux := true, mon := true } hq ?_
  simp only [execFeCalDone, ↓view_ite, ↓out_view_ite, ↓out_view_next, ↓foldl_view, ↓State.eachBay_view, ite_self, implies_true, ↓State.modImg_view (q := Parts.others { vals := true, img := true, tbs := true, keeper := true, pwr := true, trg := true, time := true, dma := true, units := true, afe := true, adc := true, ddc := true, xfm := true, den := true, mco := true, lne := true, jes := true, cal := true, hkc := true, aux := true, mon := true }) (by decide), ↓State.calStartup_view (q := Parts.others { vals := true, img := true, tbs := true, keeper := true, pwr := true, trg := true, time := true, dma := true, units := true, afe := true, adc := true, ddc := true, xfm := true, den := true, mco := true, lne := true, jes := true, cal := true, hkc := true, aux := true, mon := true }) (by decide), ↓State.runRotations_view (q := Parts.others { vals := true, img := true, tbs := true, keeper := true, pwr := true, trg := true, time := true, dma := true, units := true, afe := true, adc := true, ddc := true, xfm := true, den := true, mco := true, lne := true, jes := true, cal := true, hkc := true, aux := true, mon := true }) (by decide), ↓State.endPhase_view (q := Parts.others { vals := true, img := true, tbs := true, keeper := true, pwr := true, trg := true, time := true, dma := true, units := true, afe := true, adc := true, ddc := true, xfm := true, den := true, mco := true, lne := true, jes := true, cal := true, hkc := true, aux := true, mon := true }) (by decide), ↓State.beginBay_view (q := Parts.others { vals := true, img := true, tbs := true, keeper := true, pwr := true, trg := true, time := true, dma := true, units := true, afe := true, adc := true, ddc := true, xfm := true, den := true, mco := true, lne := true, jes := true, cal := true, hkc := true, aux := true, mon := true }) (by decide), ↓State.enterRun_view (q := Parts.others { vals := true, img := true, tbs := true, keeper := true, pwr := true, trg := true, time := true, dma := true, units := true, afe := true, adc := true, ddc := true, xfm := true, den := true, mco := true, lne := true, jes := true, cal := true, hkc := true, aux := true, mon := true }) (by decide)]

theorem execArmTakeEffect_view {q : Parts} (hq : q.apart { img := true, tbs := true, pwr := true, trg := true, time := true, dma := true, units := true, den := true, mco := true, mon := true } = true) (remote : Option ArmOrder) (s0 : State) : Out.view q (execArmTakeEffect remote s0) = some (s0.view q) := by
  refine out_view_of { img := true, tbs := true, pwr := true, trg := true, time := true, dma := true, units := true, den := true, mco := true, mon := true } hq ?_
  unfold execArmTakeEffect
  split
  · rfl
  · next o s1 e =>
    have h1 := State.takeOrder_view (q := Parts.others { img := true, tbs := true, pwr := true, trg := true, time := true, dma := true, units := true, den := true, mco := true, mon := true }) (by decide) _ _ _ _ _ e
    split
    · rfl
    · extract_lets s s2
      have hs : s.view (Parts.others { img := true, tbs := true, pwr := true, trg := true, time := true, dma := true, units := true, den := true, mco := true, mon := true }) = s0.view (Parts.others { img := true, tbs := true, pwr := true, trg := true, time := true, dma := true, units := true, den := true, mco := true, mon := true }) := (State.reach_view (q := Parts.others { img := true, tbs := true, pwr := true, trg := true, time := true, dma := true, units := true, den := true, mco := true, mon := true }) (by decide) ..).trans h1
      clear_value s
      refine next_view ((State.armUnits_view (q := Parts.others { img := true, tbs := true, pwr := true, trg := true, time := true, dma := true, units := true, den := true, mco := true, mon := true }) (by decide) ..).trans ?_)
      simp only [s2, ↓view_ite, ↓State.event_view, ↓State.enterRun_view (q := Parts.others { img := true, tbs := true, pwr := true, trg := true, time := true, dma := true, units := true, den := true, mco := true, mon := true }) (by decide), hs, ite_self]

theorem State.haltBay_view {q : Parts} (hq : q.apart { img := true, clk := true, dma := true, domains := true, units := true, afe := true, adc := true, ddc := true, xfm := true, den := true, mco := true, scn := true, recorder := true, lne := true, pci := true, ports := true, jes := true, links := true, cal := true, aux := true, mon := true } = true) (s : State) (b : BayNo) : (State.haltBay s b).view q = s.view q := by
  refine view_of { img := true, clk := true, dma := true, domains := true, units := true, afe := true, adc := true, ddc := true, xfm := true, den := true, mco := true, scn := true, recorder := true, lne := true, pci := true, ports := true, jes := true, links := true, cal := true, aux := true, mon := true } hq ?_
  unfold State.haltBay
  extract_lets s1 s2 s3
  have h1 : s1.view (Parts.others { img := true, clk := true, dma := true, domains := true, units := true, afe := true, adc := true, ddc := true, xfm := true, den := true, mco := true, scn := true, recorder := true, lne := true, pci := true, ports := true, jes := true, links := true, cal := true, aux := true, mon := true }) = s.view (Parts.others { img := true, clk := true, dma := true, domains := true, units := true, afe := true, adc := true, ddc := true, xfm := true, den := true, mco := true, scn := true, recorder := true, lne := true, pci := true, ports := true, jes := true, links := true, cal := true, aux := true, mon := true }) :=
    (State.auxUnload_view (q := Parts.others { img := true, clk := true, dma := true, domains := true, units := true, afe := true, adc := true, ddc := true, xfm := true, den := true, mco := true, scn := true, recorder := true, lne := true, pci := true, ports := true, jes := true, links := true, cal := true, aux := true, mon := true }) (by decide) ..).trans ((State.calAbandonBay_view (q := Parts.others { img := true, clk := true, dma := true, domains := true, units := true, afe := true, adc := true, ddc := true, xfm := true, den := true, mco := true, scn := true, recorder := true, lne := true, pci := true, ports := true, jes := true, links := true, cal := true, aux := true, mon := true }) (by decide) ..).trans ((State.endReplay_view (q := Parts.others { img := true, clk := true, dma := true, domains := true, units := true, afe := true, adc := true, ddc := true, xfm := true, den := true, mco := true, scn := true, recorder := true, lne := true, pci := true, ports := true, jes := true, links := true, cal := true, aux := true, mon := true }) (by decide) ..).trans (State.stopRecording_view (q := Parts.others { img := true, clk := true, dma := true, domains := true, units := true, afe := true, adc := true, ddc := true, xfm := true, den := true, mco := true, scn := true, recorder := true, lne := true, pci := true, ports := true, jes := true, links := true, cal := true, aux := true, mon := true }) (by decide) ..)))
  have h2 : s2.view (Parts.others { img := true, clk := true, dma := true, domains := true, units := true, afe := true, adc := true, ddc := true, xfm := true, den := true, mco := true, scn := true, recorder := true, lne := true, pci := true, ports := true, jes := true, links := true, cal := true, aux := true, mon := true }) = s.view (Parts.others { img := true, clk := true, dma := true, domains := true, units := true, afe := true, adc := true, ddc := true, xfm := true, den := true, mco := true, scn := true, recorder := true, lne := true, pci := true, ports := true, jes := true, links := true, cal := true, aux := true, mon := true }) := by
    refine (foldl_view _ _ (fun s k => ?_) _ _).trans h1
    split
    · exact State.quadOff_view (vp := Parts.others { img := true, clk := true, dma := true, domains := true, units := true, afe := true, adc := true, ddc := true, xfm := true, den := true, mco := true, scn := true, recorder := true, lne := true, pci := true, ports := true, jes := true, links := true, cal := true, aux := true, mon := true }) (by decide) ..
    · rfl
  have h3 : s3.view (Parts.others { img := true, clk := true, dma := true, domains := true, units := true, afe := true, adc := true, ddc := true, xfm := true, den := true, mco := true, scn := true, recorder := true, lne := true, pci := true, ports := true, jes := true, links := true, cal := true, aux := true, mon := true }) = s.view (Parts.others { img := true, clk := true, dma := true, domains := true, units := true, afe := true, adc := true, ddc := true, xfm := true, den := true, mco := true, scn := true, recorder := true, lne := true, pci := true, ports := true, jes := true, links := true, cal := true, aux := true, mon := true }) := (foldl_view _ _ (fun _ _ => State.pcieDown_view (q := Parts.others { img := true, clk := true, dma := true, domains := true, units := true, afe := true, adc := true, ddc := true, xfm := true, den := true, mco := true, scn := true, recorder := true, lne := true, pci := true, ports := true, jes := true, links := true, cal := true, aux := true, mon := true }) (by decide) ..) _ _).trans h2
  clear_value s3
  refine (State.modBay_view _ _ _ _ ?_).trans h3
  exact fun _ => rfl

theorem State.haltAll_view {q : Parts} (hq : q.apart { img := true, tbs := true, keeper := true, pwr := true, faults := true, trg := true, eth := true, kill := true, clk := true, dma := true, domains := true, units := true, afe := true, adc := true, ddc := true, xfm := true, den := true, mco := true, scn := true, recorder := true, lne := true, pci := true, ports := true, jes := true, links := true, cal := true, aux := true, mon := true } = true) (s : State) (bFirst : Bool) : (State.haltAll s bFirst).view q = s.view q := by
  refine view_of { img := true, tbs := true, keeper := true, pwr := true, faults := true, trg := true, eth := true, kill := true, clk := true, dma := true, domains := true, units := true, afe := true, adc := true, ddc := true, xfm := true, den := true, mco := true, scn := true, recorder := true, lne := true, pci := true, ports := true, jes := true, links := true, cal := true, aux := true, mon := true } hq ?_
  unfold State.haltAll
  extract_lets s1 s2 s3 s4
  have h1 : s1.view (Parts.others { img := true, tbs := true, keeper := true, pwr := true, faults := true, trg := true, eth := true, kill := true, clk := true, dma := true, domains := true, units := true, afe := true, adc := true, ddc := true, xfm := true, den := true, mco := true, scn := true, recorder := true, lne := true, pci := true, ports := true, jes := true, links := true, cal := true, aux := true, mon := true }) = s.view (Parts.others { img := true, tbs := true, keeper := true, pwr := true, faults := true, trg := true, eth := true, kill := true, clk := true, dma := true, domains := true, units := true, afe := true, adc := true, ddc := true, xfm := true, den := true, mco := true, scn := true, recorder := true, lne := true, pci := true, ports := true, jes := true, links := true, cal := true, aux := true, mon := true }) := (State.discardWaiting_view (q := Parts.others { img := true, tbs := true, keeper := true, pwr := true, faults := true, trg := true, eth := true, kill := true, clk := true, dma := true, domains := true, units := true, afe := true, adc := true, ddc := true, xfm := true, den := true, mco := true, scn := true, recorder := true, lne := true, pci := true, ports := true, jes := true, links := true, cal := true, aux := true, mon := true }) (by decide) ..).trans (State.outsLow_view (q := Parts.others { img := true, tbs := true, keeper := true, pwr := true, faults := true, trg := true, eth := true, kill := true, clk := true, dma := true, domains := true, units := true, afe := true, adc := true, ddc := true, xfm := true, den := true, mco := true, scn := true, recorder := true, lne := true, pci := true, ports := true, jes := true, links := true, cal := true, aux := true, mon := true }) (by decide) ..)
  clear_value s1
  have h : s2.view (Parts.others { img := true, tbs := true, keeper := true, pwr := true, faults := true, trg := true, eth := true, kill := true, clk := true, dma := true, domains := true, units := true, afe := true, adc := true, ddc := true, xfm := true, den := true, mco := true, scn := true, recorder := true, lne := true, pci := true, ports := true, jes := true, links := true, cal := true, aux := true, mon := true }) = s1.view (Parts.others { img := true, tbs := true, keeper := true, pwr := true, faults := true, trg := true, eth := true, kill := true, clk := true, dma := true, domains := true, units := true, afe := true, adc := true, ddc := true, xfm := true, den := true, mco := true, scn := true, recorder := true, lne := true, pci := true, ports := true, jes := true, links := true, cal := true, aux := true, mon := true }) := State.eachBay_view _ _ (fun _ _ => State.haltBay_view (q := Parts.others { img := true, tbs := true, keeper := true, pwr := true, faults := true, trg := true, eth := true, kill := true, clk := true, dma := true, domains := true, units := true, afe := true, adc := true, ddc := true, xfm := true, den := true, mco := true, scn := true, recorder := true, lne := true, pci := true, ports := true, jes := true, links := true, cal := true, aux := true, mon := true }) (by decide) ..) _ _
  clear_value s2
  have h2 := h.trans h1
  have h3 : s3.view (Parts.others { img := true, tbs := true, keeper := true, pwr := true, faults := true, trg := true, eth := true, kill := true, clk := true, dma := true, domains := true, units := true, afe := true, adc := true, ddc := true, xfm := true, den := true, mco := true, scn := true, recorder := true, lne := true, pci := true, ports := true, jes := true, links := true, cal := true, aux := true, mon := true }) = s.view (Parts.others { img := true, tbs := true, keeper := true, pwr := true, faults := true, trg := true, eth := true, kill := true, clk := true, dma := true, domains := true, units := true, afe := true, adc := true, ddc := true, xfm := true, den := true, mco := true, scn := true, recorder := true, lne := true, pci := true, ports := true, jes := true, links := true, cal := true, aux := true, mon := true }) := by
    have h : (s2.eachBay s2.liveBays fun s b => (List.finRange 16).foldl (fun s i => s.flushQueue b i 1) s).view (Parts.others { img := true, tbs := true, keeper := true, pwr := true, faults := true, trg := true, eth := true, kill := true, clk := true, dma := true, domains := true, units := true, afe := true, adc := true, ddc := true, xfm := true, den := true, mco := true, scn := true, recorder := true, lne := true, pci := true, ports := true, jes := true, links := true, cal := true, aux := true, mon := true }) = s2.view (Parts.others { img := true, tbs := true, keeper := true, pwr := true, faults := true, trg := true, eth := true, kill := true, clk := true, dma := true, domains := true, units := true, afe := true, adc := true, ddc := true, xfm := true, den := true, mco := true, scn := true, recorder := true, lne := true, pci := true, ports := true, jes := true, links := true, cal := true, aux := true, mon := true }) :=
      State.eachBay_view _ _ (fun s b => foldl_view _ _ (fun s i => State.flushQueue_view s b i 1) _ s) s2 _
    show (if s2.img.image.isNone then s2 else _).view (Parts.others { img := true, tbs := true, keeper := true, pwr := true, faults := true, trg := true, eth := true, kill := true, clk := true, dma := true, domains := true, units := true, afe := true, adc := true, ddc := true, xfm := true, den := true, mco := true, scn := true, recorder := true, lne := true, pci := true, ports := true, jes := true, links := true, cal := true, aux := true, mon := true }) = _
    rw [view_ite, h, ite_self]
    exact h2
  clear_value s3
  have h4 : s4.view (Parts.others { img := true, tbs := true, keeper := true, pwr := true, faults := true, trg := true, eth := true, kill := true, clk := true, dma := true, domains := true, units := true, afe := true, adc := true, ddc := true, xfm := true, den := true, mco := true, scn := true, recorder := true, lne := true, pci := true, ports := true, jes := true, links := true, cal := true, aux := true, mon := true }) = s.view (Parts.others { img := true, tbs := true, keeper := true, pwr := true, faults := true, trg := true, eth := true, kill := true, clk := true, dma := true, domains := true, units := true, afe := true, adc := true, ddc := true, xfm := true, den := true, mco := true, scn := true, recorder := true, lne := true, pci := true, ports := true, jes := true, links := true, cal := true, aux := true, mon := true }) := (State.faultDrop_view (q := Parts.others { img := true, tbs := true, keeper := true, pwr := true, faults := true, trg := true, eth := true, kill := true, clk := true, dma := true, domains := true, units := true, afe := true, adc := true, ddc := true, xfm := true, den := true, mco := true, scn := true, recorder := true, lne := true, pci := true, ports := true, jes := true, links := true, cal := true, aux := true, mon := true }) (by decide) ..).trans ((State.modGrid_view (q := Parts.others { img := true, tbs := true, keeper := true, pwr := true, faults := true, trg := true, eth := true, kill := true, clk := true, dma := true, domains := true, units := true, afe := true, adc := true, ddc := true, xfm := true, den := true, mco := true, scn := true, recorder := true, lne := true, pci := true, ports := true, jes := true, links := true, cal := true, aux := true, mon := true }) (by decide) ..).trans h3)
  clear_value s4
  have h : ∀ (u : State) (a : TrgPkg) (b : EthPkg) (c : InjPkg) (d : Img) (e : PwrPkg),
      ({ u with trg := a, eth := b, inj := c, img := d, pwr := e } : State).view (Parts.others { img := true, tbs := true, keeper := true, pwr := true, faults := true, trg := true, eth := true, kill := true, clk := true, dma := true, domains := true, units := true, afe := true, adc := true, ddc := true, xfm := true, den := true, mco := true, scn := true, recorder := true, lne := true, pci := true, ports := true, jes := true, links := true, cal := true, aux := true, mon := true }) = u.view (Parts.others { img := true, tbs := true, keeper := true, pwr := true, faults := true, trg := true, eth := true, kill := true, clk := true, dma := true, domains := true, units := true, afe := true, adc := true, ddc := true, xfm := true, den := true, mco := true, scn := true, recorder := true, lne := true, pci := true, ports := true, jes := true, links := true, cal := true, aux := true, mon := true }) :=
    fun _ _ _ _ _ _ => rfl
  exact (h ..).trans h4

theorem execImageRestart_view {q : Parts} (hq : q.apart { img := true, tbs := true, keeper := true, pwr := true, faults := true, trg := true, eth := true, kill := true, clk := true, dma := true, domains := true, units := true, afe := true, adc := true, ddc := true, xfm := true, den := true, mco := true, scn := true, recorder := true, lne := true, pci := true, ports := true, jes := true, links := true, cal := true, aux := true, mon := true } = true) (tag : Word) (bFirst : Bool) (s : State) : Out.view q (execImageRestart tag bFirst s) = some (s.view q) := by
  refine out_view_of { img := true, tbs := true, keeper := true, pwr := true, faults := true, trg := true, eth := true, kill := true, clk := true, dma := true, domains := true, units := true, afe := true, adc := true, ddc := true, xfm := true, den := true, mco := true, scn := true, recorder := true, lne := true, pci := true, ports := true, jes := true, links := true, cal := true, aux := true, mon := true } hq ?_
  simp only [execImageRestart, ↓view_ite, ite_self, implies_true, ↓State.complete_view, ↓State.ringCommand_view (q := Parts.others { img := true, tbs := true, keeper := true, pwr := true, faults := true, trg := true, eth := true, kill := true, clk := true, dma := true, domains := true, units := true, afe := true, adc := true, ddc := true, xfm := true, den := true, mco := true, scn := true, recorder := true, lne := true, pci := true, ports := true, jes := true, links := true, cal := true, aux := true, mon := true }) (by decide), ↓State.emit_view, ↓State.haltAll_view (q := Parts.others { img := true, tbs := true, keeper := true, pwr := true, faults := true, trg := true, eth := true, kill := true, clk := true, dma := true, domains := true, units := true, afe := true, adc := true, ddc := true, xfm := true, den := true, mco := true, scn := true, recorder := true, lne := true, pci := true, ports := true, jes := true, links := true, cal := true, aux := true, mon := true }) (by decide)]

end Sys2Proof.Machine
end

