-- ==== Sys2Proof/Laws/Grows.lean ====
section
/-! SUPPORT. The commands that write the flash, the fuses or the seal rows: the fuses grow and the invariant is kept. -/
namespace Sys2Proof.Machine

theorem SignSlot.lasts_refl (x : SignSlot) : x.lasts x := ⟨fun _ => rfl, fun h => h⟩

theorem SealFuses.Grows.refl (f : SealFuses) : f.Grows f :=
  ⟨fun h => h, List.prefix_refl _, fun _ => SignSlot.lasts_refl _, fun _ _ => rfl⟩

theorem SealFuses.Grows.trans {f g h : SealFuses} (a : f.Grows g) (b : g.Grows h) : f.Grows h where
  metrology := fun x => b.metrology (a.metrology x)
  rows := a.rows.trans b.rows
  sign := fun i => ⟨fun x => ((b.sign i).1 (by rw [(a.sign i).1 x]; exact x)).trans ((a.sign i).1 x), fun x => (b.sign i).2 ((a.sign i).2 x)⟩
  mac := fun i x => (b.mac i (by rw [a.mac i x]; exact x)).trans (a.mac i x)

theorem State.Grows.refl (s : State) : s.Grows s := ⟨rfl, rfl, .refl _, fun h => h⟩

theorem State.Grows.trans {s t u : State} (a : s.Grows t) (b : t.Grows u) : s.Grows u :=
  ⟨b.part.trans a.part, b.pending.trans a.pending, a.fuses.trans b.fuses, fun h => b.inv (a.inv h)⟩

/-- A change that leaves the fuses and the row alone, and the flash in canonical form. -/
theorem State.Grows.of_flash {s t : State} (f : Flash) (h : t.lasting = { s.lasting with flash := f })
    (hf : Sparse.wf 0xFF#8 s.flash.bytes = true → Sparse.wf 0xFF#8 f.bytes = true) : s.Grows t := by
  have h1 : t.part = s.part := congrArg Lasting.part h
  have h2 : t.pending = s.pending := congrArg Lasting.pending h
  have h3 : t.flash = f := congrArg Lasting.flash h
  have h4 : t.keeper.fuses = s.keeper.fuses := congrArg Lasting.fuses h
  have h5 : t.keeper.rowPending = s.keeper.rowPending := congrArg Lasting.rowPending h
  exact ⟨h1, h2, by rw [h4]; exact .refl _, fun i => ⟨by rw [h3]; exact hf i.flash, by rw [h4]; exact i.rows, by rw [h4, h5]; exact i.row⟩⟩

/-- What leaves the lasting parts alone grows nothing. -/
theorem State.Grows.of_lasting {s t : State} (h : t.lasting = s.lasting) : s.Grows t := .of_flash s.flash h (fun h => h)

theorem State.Grows.of_view {s t : State} (h : t.view .lasting = s.view .lasting) : s.Grows t := .of_lasting (lasting_of_view h)

/-- A change of the fuses that keeps the rows. -/
theorem State.Grows.of_fuses {s t : State} (f : SealFuses) (h : t.lasting = { s.lasting with fuses := f })
    (hf : s.keeper.fuses.Grows f) (hr : f.rows = s.keeper.fuses.rows) : s.Grows t := by
  have h1 : t.part = s.part := congrArg Lasting.part h
  have h2 : t.pending = s.pending := congrArg Lasting.pending h
  have h3 : t.flash = s.flash := congrArg Lasting.flash h
  have h4 : t.keeper.fuses = f := congrArg Lasting.fuses h
  have h5 : t.keeper.rowPending = s.keeper.rowPending := congrArg Lasting.rowPending h
  exact ⟨h1, h2, by rw [h4]; exact hf, fun i => ⟨by rw [h3]; exact i.flash, by rw [h4, hr]; exact i.rows, by rw [h4, h5, hr]; exact i.row⟩⟩

/-- The next state of a command grows from its state. -/
def Out.grows (s : State) (o : Out) : Prop :=
  match o with
  | .next t => s.Grows t
  | _ => True

theorem Out.grows_of_view {s : State} {o : Out} (h : Out.view .lasting o = some (s.view .lasting)) : Out.grows s o := by
  cases o with
  | next t => exact .of_view (Option.some.inj h)
  | fault => trivial
  | refused => trivial

theorem afterOf_grows {s t : State} {o : Out} (h : Out.grows s o) (ht : s.Grows t) : s.Grows (afterOf o t) := by
  cases o with
  | next u => exact h
  | fault => exact ht
  | refused => exact ht

theorem Out.grows_ite {s : State} (c : Prop) [Decidable c] {a b : Out} (ha : Out.grows s a) (hb : Out.grows s b) :
    Out.grows s (if c then a else b) := by
  split
  · exact ha
  · exact hb

/-! ### The flash -/

theorem Flash.put_wf (f : Flash) (off : Nat) (bs : List Byte) (h : Sparse.wf 0xFF#8 f.bytes = true) :
    Sparse.wf 0xFF#8 (f.put off bs).bytes = true := Sparse.wf_setRun _ _ _ _ h

theorem Flash.wipe_wf (f : Flash) (off n : Nat) (h : Sparse.wf 0xFF#8 f.bytes = true) :
    Sparse.wf 0xFF#8 (f.wipe off n).bytes = true := Sparse.wf_filter _ _ (fun k => decide (k < off ∨ off + n ≤ k)) h

theorem Seal.takeLost_fuses (k : Seal) (t : Stamp) (rtc : Bool) : (k.takeLost t rtc).fuses = k.fuses := by
  unfold Seal.takeLost
  split <;> rfl

theorem Seal.takeLost_row (k : Seal) (t : Stamp) (rtc : Bool) : (k.takeLost t rtc).rowPending = k.rowPending := by
  unfold Seal.takeLost
  split <;> rfl

theorem State.programBytes_grows (s : State) (off : Nat) (bs : List Byte) : s.Grows (s.programBytes off bs) := by
  induction bs generalizing s off with
  | nil => exact .refl s
  | cons x r ih =>
    unfold State.programBytes
    extract_lets old v
    have hv : v.2.view .lasting = s.view .lasting := by
      simp only [v]
      split
      · rfl
      · exact State.takeFree_view _ s 8
    clear_value v
    exact (State.Grows.of_view hv).trans ((State.Grows.of_flash (v.2.flash.put off [v.1]) rfl (Flash.put_wf _ _ _)).trans (ih _ _))

theorem State.flashEffect_grows (s : State) (c : FlashCmd) (data : List Byte) : s.Grows (s.flashEffect c data) := by
  unfold State.flashEffect
  split
  · exact .of_view (State.emit_view ..)
  · exact .of_flash (s.flash.wipe c.off c.len) rfl (Flash.wipe_wf _ _ _)
  · exact State.programBytes_grows ..
  · exact .of_view (State.emit_view ..)

theorem execFlashCommandDone_grows (ok : Bool) (data : List Byte) (s : State) : Out.grows s (execFlashCommandDone ok data s) := by
  unfold execFlashCommandDone
  split
  · exact .refl s
  · refine Out.grows_ite _ (.refl s) (Out.grows_ite _ ?_ (Out.grows_ite _ ?_ ?_))
    · exact .of_view ((State.complete_view ..).trans (State.modImg_view (q := Parts.lasting) (by decide) ..))
    · exact .of_view ((State.complete_view ..).trans (State.modImg_view (q := Parts.lasting) (by decide) ..))
    · exact (State.Grows.of_view (State.modImg_view (q := Parts.lasting) (by decide) ..)).trans ((State.flashEffect_grows ..).trans (.of_view (State.complete_view ..)))

theorem State.flushOne_grows (s : State) : s.Grows s.flushOne := by
  unfold State.flushOne
  split
  · exact .refl s
  · extract_lets k f1 f2 src k1 rtc k2 s1
    have hf : Sparse.wf 0xFF#8 s.flash.bytes = true → Sparse.wf 0xFF#8 f2.bytes = true := by
      intro h
      refine Flash.put_wf _ _ _ ?_
      simp only [f1]
      split
      · exact Flash.put_wf _ _ _ h
      · exact h
    have h1 : s1.lasting = { s.lasting with flash := f2 } := by
      refine (lasting_of_view (State.sealRecord_view ..)).trans ?_
      simp only [State.lasting, State.modSeal, State.modFlash, k2, Seal.takeLost_fuses, Seal.takeLost_row]
      rfl
    clear_value s1 k2 f2
    split
    · exact .of_flash f2 ((lasting_of_view ((State.event_view ..).trans (State.alert_view (q := Parts.lasting) (by decide) ..))).trans h1) hf
    · exact .of_flash f2 h1 hf

theorem State.flushLog_grows (s : State) : s.Grows s.flushLog := by
  unfold State.flushLog
  generalize List.range 16 = l
  induction l generalizing s with
  | nil => exact .refl s
  | cons x r ih =>
    refine State.Grows.trans ?_ (ih _)
    dsimp only
    split
    · exact s.flushOne_grows
    · exact .refl s

theorem execSealLogFlush_grows (ok : Bool) (s : State) : Out.grows s (execSealLogFlush ok s) := by
  unfold execSealLogFlush
  exact Out.grows_ite _ (.refl s) s.flushOne_grows

/-! ### Rows, fuses and keys -/

theorem execSealRowVerified_grows (ok : Bool) (s : State) : Out.grows s (execSealRowVerified ok s) := by
  unfold execSealRowVerified
  split
  · exact .refl s
  · next h e =>
    extract_lets old rows s1 n slot s2 s3
    have h1 : s.Grows s1 := by
      refine ⟨rfl, rfl, ⟨fun x => x, List.prefix_append _ _, fun _ => SignSlot.lasts_refl _, fun _ _ => rfl⟩, fun i => ⟨i.flash, ?_, ?_⟩⟩
      · have := i.row (by rw [e]; rfl)
        show (s.keeper.fuses.rows ++ [_]).length ≤ 64
        rw [List.length_append]
        exact this
      · intro x; cases x
    clear_value s1
    have h2 : s2.view .lasting = s1.view .lasting := by
      simp only [s2]
      split
      · exact State.sealLog_view (q := Parts.lasting) (by decide) ..
      · rfl
    clear_value s2
    have h3 : s3.view .lasting = s1.view .lasting := (State.event_view ..).trans h2
    clear_value s3
    refine Out.grows_ite _ (.refl s) (h1.trans (.of_view ?_))
    split
    · exact (State.event_view ..).trans h3
    · exact h3

/-- The end of a service command that changed a key. -/
theorem keyDone_view (s : State) (i w op : Nat) :
    ((((s.sealLog 12 0 i [w]).alert 7).event 0 0x1330 [wd i, w]).svcDone op 0).view .lasting = s.view .lasting :=
  (State.svcDone_view (q := Parts.lasting) (by decide) ..).trans ((State.event_view ..).trans ((State.alert_view (q := Parts.lasting) (by decide) ..).trans (State.sealLog_view (q := Parts.lasting) (by decide) ..)))

/-- Setting one key slot of the signing keys lets the fuses grow where the slot itself lasts. -/
theorem SealFuses.Grows.set_sign (f : SealFuses) (i : Fin 4) (x : SignSlot) (h : f.sign[i].lasts x) :
    f.Grows { f with sign := f.sign.set i x } := by
  refine ⟨fun y => y, List.prefix_refl _, fun j => ?_, fun _ _ => rfl⟩
  by_cases hj : i = j
  · subst hj
    have : (f.sign.set i x)[i] = x := Vector.getElem_set_self ..
    show f.sign[i].lasts (f.sign.set i x)[i]
    rw [this]
    exact h
  · have : (f.sign.set i x)[j] = f.sign[j] := Vector.getElem_set_ne i.isLt j.isLt (fun e => hj (Fin.ext e))
    show f.sign[j].lasts (f.sign.set i x)[j]
    rw [this]
    exact SignSlot.lasts_refl _

/-- Setting one empty slot of the MAC keys lets the fuses grow. -/
theorem SealFuses.Grows.set_mac (f : SealFuses) (i : Fin 4) (x : Option (List Byte)) (h : ¬(f.mac[i].isSome = true)) :
    f.Grows { f with mac := f.mac.set i x } := by
  refine ⟨fun y => y, List.prefix_refl _, fun _ => SignSlot.lasts_refl _, fun j hj => ?_⟩
  by_cases e : i = j
  · subst e; exact absurd hj h
  · exact Vector.getElem_set_ne i.isLt j.isLt (fun x => e (Fin.ext x))

theorem execProvisionSignKey_grows (s : State) : Out.grows s (execProvisionSignKey s) := by
  unfold execProvisionSignKey
  extract_lets k i key s1
  have hd : ∀ n, Out.grows s (.next (s.svcDone 1 n)) := fun n => .of_view (State.svcDone_view (q := Parts.lasting) (by decide) ..)
  split
  · exact .refl s
  · split
    · exact hd 3
    · next hk =>
      refine Out.grows_ite _ (hd 1) (Out.grows_ite _ (hd 4) ?_)
      have h1 : s.Grows s1 := State.Grows.of_fuses { s.keeper.fuses with sign := s.keeper.fuses.sign.set i { s.keeper.fuses.sign[i] with key := some key } }
        rfl (.set_sign _ _ _ ⟨fun h => absurd h hk, fun h => h⟩) rfl
      exact h1.trans (.of_view (keyDone_view ..))

theorem execProvisionMacKey_grows (s : State) : Out.grows s (execProvisionMacKey s) := by
  unfold execProvisionMacKey
  extract_lets k i s1
  have hd : ∀ n, Out.grows s (.next (s.svcDone 2 n)) := fun n => .of_view (State.svcDone_view (q := Parts.lasting) (by decide) ..)
  split
  · exact .refl s
  · refine Out.grows_ite _ (hd 2) ?_
    split
    · exact hd 3
    · next hk =>
      refine Out.grows_ite _ (hd 4) ?_
      have h1 : s.Grows s1 := State.Grows.of_fuses _ rfl (.set_mac s.keeper.fuses i (some (k.argBytes 8)) hk) rfl
      exact h1.trans (.of_view (keyDone_view ..))

theorem execRevoke_grows (s : State) : Out.grows s (execRevoke s) := by
  unfold execRevoke
  extract_lets k i x s1
  have hd : ∀ n, Out.grows s (.next (s.svcDone 3 n)) := fun n => .of_view (State.svcDone_view (q := Parts.lasting) (by decide) ..)
  refine Out.grows_ite _ (.refl s) (Out.grows_ite _ (hd 3) ?_)
  have h1 : s.Grows s1 := State.Grows.of_fuses _ rfl (.set_sign s.keeper.fuses i { x with revoked := true } ⟨fun _ => rfl, fun _ => rfl⟩) rfl
  repeat' refine Out.grows_ite _ (hd _) ?_
  exact h1.trans (.of_view (keyDone_view ..))

theorem execLogArchive_grows (ok : Bool) (s : State) : Out.grows s (execLogArchive ok s) := by
  unfold execLogArchive
  extract_lets k last prior f s1
  have hd : ∀ n, Out.grows s (.next (s.svcDone 6 n)) := fun n => .of_view (State.svcDone_view (q := Parts.lasting) (by decide) ..)
  refine Out.grows_ite _ (.refl s) (Out.grows_ite _ (hd 2) (Out.grows_ite _ (hd 1) (Out.grows_ite _ (hd 4) (Out.grows_ite _ (hd 5) ?_))))
  have h1 : s.Grows s1 := State.Grows.of_flash f rfl (Flash.wipe_wf _ _ _)
  exact h1.trans (.of_view ((State.svcDone_view (q := Parts.lasting) (by decide) ..).trans (State.sealLog_view (q := Parts.lasting) (by decide) ..)))

/-! ### The service port -/

theorem State.sealCommand_grows (s : State) (op : Nat) : s.Grows (s.sealCommand op) := by
  unfold State.sealCommand
  split
  · exact afterOf_grows (execProvisionSignKey_grows s) (.refl s)
  · exact afterOf_grows (execProvisionMacKey_grows s) (.refl s)
  · exact afterOf_grows (execRevoke_grows s) (.refl s)
  · exact afterOf_grows (Out.grows_of_view (execTamperClear_view (q := Parts.lasting) (by decide) ..)) (.refl s)
  · exact afterOf_grows (Out.grows_of_view (execLogVerify_view (q := Parts.lasting) (by decide) ..)) (.refl s)
  · exact (State.Grows.of_view (State.takeFree_view _ s 1)).trans (afterOf_grows (execLogArchive_grows _ _) (.refl _))
  · exact .refl s

/-- A state that may be missing grows from `s` where it is there. -/
def growsOr (s : State) (o : Option State) : Prop :=
  match o with
  | some t => s.Grows t
  | none => True

theorem growsOr_of_view {s : State} {o : Option State} (h : viewOr .lasting (s.view .lasting) o = s.view .lasting) : growsOr s o := by
  cases o with
  | none => trivial
  | some t => exact .of_view h

theorem State.sealWrite_grows (s : State) (o : Nat) (v : Word) (p : Path) : growsOr s (s.sealWrite o v p) := by
  by_cases hp : p = .service
  · subst hp
    unfold State.sealWrite
    extract_lets modBox
    split
    · exact .of_lasting rfl
    · split
      · rename_i h; exact absurd rfl h
      · split
        · exact State.sealCommand_grows ..
        · split
          · exact .of_lasting rfl
          · exact .of_lasting rfl
          · exact .of_lasting rfl
          · trivial
  · exact growsOr_of_view (State.sealWrite_view (q := Parts.lasting) (by decide) _ _ _ _ (fun e => absurd e hp))

theorem State.slotWrite_grows (s : State) (b : BayNo) (off : Nat) (v : Word) (p : Path) : growsOr s (s.slotWrite b off v p) := by
  unfold State.slotWrite
  split
  · split
    · exact State.sealWrite_grows ..
    · trivial
  · exact growsOr_of_view (State.blockWrite_view (q := Parts.lasting) (by decide) ..)

theorem State.tryWrite_grows (s : State) (b : BayNo) (off : Nat) (v : Word) (en : BitVec 4) (p : Path) :
    growsOr s (s.tryWrite b off v en p) := by
  by_cases hp : p = .service
  · unfold State.tryWrite
    extract_lets o
    split
    · trivial
    · split
      · trivial
      · split
        · exact .of_view (foldl_view Parts.lasting _ (fun _ _ => State.capturePut_view ..) _ _)
        · split
          · exact .of_view (State.writeMask_view (q := Parts.lasting) (by decide) ..)
          · split
            · exact growsOr_of_view (State.scnWrite_view (q := Parts.lasting) (by decide) ..)
            · split
              · exact growsOr_of_view (State.coreAperture_view (q := Parts.lasting) (by decide) ..)
              · split
                · trivial
                · exact State.slotWrite_grows ..
  · exact growsOr_of_view (State.tryWrite_view (q := Parts.lasting) (by decide) _ _ _ _ _ _ (fun e => absurd e hp))

theorem State.writeWord_grows (s : State) (a : Nat) (v : Word) (en : BitVec 4) (p : Path) : s.Grows (s.writeWord a v en p).2 := by
  unfold State.writeWord
  split
  · exact .refl s
  · next b off _ =>
    have h := s.tryWrite_grows b off v en p
    split
    · exact .refl s
    · split
      · refine .of_view ?_
        split
        · exact State.asleepAccess_view (q := Parts.lasting) (by decide) ..
        · rfl
      · split
        · next e => rw [e] at h; exact h
        · exact .of_view (State.discarded_view ..)

theorem State.svcWrite_grows (s : State) (a : Nat) (bs : List Byte) (n : Nat) : s.Grows (s.svcWrite a bs n).2 := by
  induction n generalizing s a bs with
  | zero => exact .refl s
  | succ n ih =>
    unfold State.svcWrite
    extract_lets w r
    have hr : s.Grows r.2 := (s.writeWord_grows ..).trans (ih ..)
    clear_value r
    split
    · exact .refl s
    · exact hr

theorem execSvcTransaction_grows (op : SvcOp) (s : State) : Out.grows s (execSvcTransaction op s) := by
  unfold execSvcTransaction
  extract_lets a modId
  refine Out.grows_ite _ (.refl s) (Out.grows_ite _ (.of_lasting rfl) ?_)
  split
  · exact (s.svcWrite_grows ..).trans (.of_lasting rfl)
  · exact (State.Grows.of_view (State.svcRead_view (q := Parts.lasting) (by decide) ..)).trans (.of_lasting rfl)

/-! ### Start-up -/

theorem State.blowFuse_grows (s : State) : s.Grows s.blowFuse := by
  unfold State.blowFuse
  split
  · exact .refl s
  · refine State.Grows.trans (.of_fuses { s.keeper.fuses with metrology := true } rfl
      ⟨fun _ => rfl, List.prefix_refl _, fun _ => SignSlot.lasts_refl _, fun _ _ => rfl⟩ rfl)
      (.of_view ((State.event_view ..).trans (State.sealLog_view (q := Parts.lasting) (by decide) ..)))

theorem Seal.cutRow_grows (k : Seal) : k.fuses.Grows k.cutRow := by
  unfold Seal.cutRow
  split
  · exact .refl _
  · exact ⟨fun x => x, List.prefix_append _ _, fun _ => SignSlot.lasts_refl _, fun _ _ => rfl⟩

theorem State.stripped_grows (s : State) (f : SealFuses) (h : f = s.keeper.fuses ∨ f = s.keeper.cutRow) : s.Grows (s.stripped f) := by
  have h1 : (s.outsLow.eachBay s.liveBays State.recPowerLoss).lasting = s.lasting :=
    lasting_of_view <| (State.eachBay_view Parts.lasting _ (fun _ _ => State.recPowerLoss_view (q := Parts.lasting) (by decide) ..) _ _).trans
      (State.outsLow_view (q := Parts.lasting) (by decide) s)
  have hg : s.keeper.fuses.Grows f := by
    rcases h with h | h
    · rw [h]; exact .refl _
    · rw [h]; exact s.keeper.cutRow_grows
  refine ⟨congrArg Lasting.part h1, congrArg Lasting.pending h1, hg, fun i => ⟨?_, ?_, fun x => by cases x⟩⟩
  · have : (s.stripped f).flash = s.flash := congrArg Lasting.flash h1
    rw [this]; exact i.flash
  · show f.rows.length ≤ 64
    rcases h with h | h
    · rw [h]; exact i.rows
    · rw [h]
      unfold Seal.cutRow
      split
      · exact i.rows
      · next e => rw [List.length_append]; exact i.row (by rw [e]; rfl)

theorem execPowerFail_grows (s : State) : Out.grows s (execPowerFail s) := by
  unfold execPowerFail
  exact Out.grows_ite _ (.refl s) ((s.stripped_grows _ (.inr rfl)).trans (.of_lasting rfl))

theorem State.warmReset_grows (s : State) : s.Grows s.warmReset := by
  have h1 : s.Grows (s.takeFree 1).2 := .of_view (State.takeFree_view _ s 1)
  unfold State.warmReset
  generalize s.takeFree 1 = v at h1
  refine h1.trans ((v.2.stripped_grows _ ?_).trans (.of_lasting rfl))
  split
  · exact .inr rfl
  · exact .inl rfl

theorem execRstNFall_grows (s : State) : Out.grows s (execRstNFall s) := by
  unfold execRstNFall
  extract_lets shoal s1 s2
  have h1 : s.Grows s1 := by
    simp only [s1]
    split
    · exact .of_view ((State.ringOnly_view ..).trans ((State.modImg_view (q := Parts.lasting) (by decide) ..).trans
        (State.issueReset_view (q := Parts.lasting) (by decide) ..)))
    · exact .refl s
  clear_value s1
  have h2 : s1.Grows s2 := by
    simp only [s2]
    split
    · exact .refl s1
    · exact s1.warmReset_grows
  clear_value s2
  exact Out.grows_ite _ (.refl s) (h1.trans (h2.trans (.of_lasting rfl)))

theorem execGlobalResetArrive_grows (remote : Bool) (s : State) : Out.grows s (execGlobalResetArrive remote s) := by
  unfold execGlobalResetArrive
  extract_lets s1 s2
  have h1 : s.Grows s1 := .of_view ((State.ringOnly_view ..).trans (State.modImg_view (q := Parts.lasting) (by decide) ..))
  have h2 : s1.Grows s2 := s1.warmReset_grows
  clear_value s2 s1
  exact Out.grows_ite _ (.refl s) (h1.trans (h2.trans (.of_lasting rfl)))

/-- A row becomes due only where one is left. -/
theorem Seal.needsRow_left (k : Seal) (h : List Byte) (e : k.needsRow h = true) : k.fuses.rows.length < 64 := by
  unfold Seal.needsRow at e
  simp only [Bool.and_eq_true, decide_eq_true_eq] at e
  exact e.1

theorem State.acceptSeal_grows (s : State) (im : Image) : s.Grows (s.acceptSeal im) := by
  refine ⟨rfl, rfl, .refl _, fun i => ⟨i.flash, i.rows, ?_⟩⟩
  show (if s.keeper.needsRow im.sealedHash then some im.sealedHash else none).isSome = true → s.keeper.fuses.rows.length < 64
  split
  · next h => exact fun _ => s.keeper.needsRow_left _ h
  · intro x; cases x

theorem State.accept_grows (s : State) (im : Image) (pins : BitVec 4) : s.Grows (s.accept im pins) := by
  unfold State.accept
  extract_lets c q s1 s2 s3 s4 s5
  have h1 : s.Grows s1 := .of_lasting rfl
  have h2 : s1.Grows s2 := s1.acceptSeal_grows im
  clear_value s2
  have h3 : s2.Grows s3 := .of_view ((State.retrainControl_view (q := Parts.lasting) (by decide) ..).trans (State.relink_view (q := Parts.lasting) (by decide) ..))
  clear_value s3
  have h4 : s3.Grows s4 := .of_lasting rfl
  have h5 : s3.Grows s5 := h4.trans (.of_view (State.event_view ..))
  clear_value s5
  refine h1.trans (h2.trans (h3.trans (h5.trans ?_)))
  split
  · exact .refl _
  · exact .of_view (State.event_view ..)

theorem execCheckerDone_grows (pins : BitVec 4) (s : State) : Out.grows s (execCheckerDone pins s) := by
  unfold execCheckerDone
  split
  · exact .refl s
  · split
    · exact .refl s
    · split
      · exact .of_view (State.slotFails_view (q := Parts.lasting) (by decide) ..)
      · extract_lets s1
        have h1 : s.Grows s1 := by
          simp only [s1]
          split
          · exact .of_view (State.event_view ..)
          · exact .refl s
        clear_value s1
        exact h1.trans ((s1.accept_grows ..).trans (.of_view (State.endPhase_view (q := Parts.lasting) (by decide) ..)))

theorem execSpllLockPhase8_grows (seen : Vector (Option CandSeen) 4) (s : State) : Out.grows s (execSpllLockPhase8 seen s) := by
  unfold execSpllLockPhase8
  extract_lets s0 s1 s2 s3 s4
  have h0 : s.Grows s0 := s.flushLog_grows
  clear_value s0
  have h1 : s0.Grows s1 := by
    simp only [s1]
    split
    · exact .of_view (State.keepTime_view (q := Parts.lasting) (by decide) ..)
    · exact .of_view (State.setTime_view (q := Parts.lasting) (by decide) ..)
  clear_value s1
  have h2 : s1.Grows s2 :=
    .of_view ((State.moveCplls_view (q := Parts.lasting) (by decide) ..).trans (State.lockPlls_view (q := Parts.lasting) (by decide) ..))
  clear_value s2
  have h3 : s2.Grows s3 := (State.Grows.of_view (State.anchorGrid_view (q := Parts.lasting) (by decide) ..)).trans (State.blowFuse_grows _)
  clear_value s3
  have h4 : s3.Grows s4 := .of_view (State.eachBay_view Parts.lasting _ (fun _ _ => (State.recBegin_view (q := Parts.lasting) (by decide) ..).trans (State.startRaster_view (q := Parts.lasting) (by decide) ..)) _ _)
  clear_value s4
  exact Out.grows_ite _ (.refl s) (h0.trans (h1.trans (h2.trans (h3.trans (h4.trans (.of_view (State.endPhase_view (q := Parts.lasting) (by decide) ..)))))))

end Sys2Proof.Machine
end

