-- ==== Sys2Proof/WellFormed.lean ====
section
/-! DEFINITION. Which commands are well formed for a part: the bay is one the part has, and operands name things that
exist. An ill-formed command never comes up; its meaning leaves the state as it is. -/
namespace Sys2Proof
open Sys2Proof.Machine

/-- The bay a command concerns, where it concerns one. -/
def Instr.bay? (i : Instr) : Option BayNo :=
  match i with
  | .pwrGoodRise => none
  | .rstNFall => none
  | .rstNRise => none
  | .powerFail => none
  | .lagoonFloodDone => none
  | .bootRomDone _ _ => none
  | .d2dTrainDone _ => none
  | .discoverDone => none
  | .discoverTimeout b => some b
  | .shoalSectionReadDone => none
  | .imageReadDone _ _ => none
  | .checkerDone _ => none
  | .imageBroadcastDone => none
  | .spllLockPhase8 _ => none
  | .adcInitCalDone _ => none
  | .feCalDone _ => none
  | .sealRowVerified _ => none
  | .setLive _ _ _ _ => none
  | .selectProfile _ _ => none
  | .arm _ _ _ _ _ => none
  | .disarm _ _ _ _ _ => none
  | .recStart _ _ _ _ _ => none
  | .recStop _ _ _ => none
  | .replay _ b _ _ _ _ _ _ => some b
  | .snapshotAt _ _ _ => none
  | .acqRestart _ _ => none
  | .imageRestart _ _ => none
  | .nvmRead _ _ _ _ => none
  | .nvmErase _ _ _ => none
  | .nvmProgram _ _ _ _ => none
  | .sealLogRead _ _ _ _ => none
  | .unknownOpcode _ _ => none
  | .flashCommandDone _ _ => none
  | .imgCmdTailWrite _ => none
  | .imgCmdCfgWrite _ => none
  | .imgEvtCfgWrite _ => none
  | .imgEvtHeadWrite _ => none
  | .imgEvtLostRead => none
  | .profilePinChange _ => none
  | .liveApplyImmediate b => some b
  | .hopBoundary b _ _ => some b
  | .acqRestartBegin b => some b
  | .acqRestartEnd b _ => some b
  | .refLossDetect b _ _ _ => some b
  | .refDeglitchEnd _ => none
  | .buildOutEnd _ => none
  | .pullInDone _ => none
  | .refQualified b _ _ => some b
  | .refDisqualified b _ _ => some b
  | .spllLossOfLock b _ => some b
  | .spllRelock b _ => some b
  | .spllStuckTimeout b => some b
  | .cpllLossOfLock b => some b
  | .clkSysrefFire b => some b
  | .clkFaultCntRead b => some b
  | .spllLolClear b => some b
  | .syncInEdge b _ _ _ _ => some b
  | .ppsEdge b _ _ _ => some b
  | .trigInEdge b _ _ _ _ => some b
  | .sysrefInEdge b _ _ _ => some b
  | .tbsNowRead b => some b
  | .servoHoldoverTimeout => none
  | .linkDelayMeasure b _ _ _ => some b
  | .epochBoundary b => some b
  | .syncWindowEnd => none
  | .snapshotTake _ => none
  | .tbsGlobalReset _ => none
  | .globalResetArrive _ => none
  | .globalResetRelease => none
  | .overloadTrip b _ _ _ _ => some b
  | .overloadClose b _ _ => some b
  | .autoStepDown b _ _ => some b
  | .attenSettled b _ _ => some b
  | .sliceCalDone b _ _ _ => some b
  | .swapCompare b _ _ _ => some b
  | .xsStreamStop b _ _ _ => some b
  | .xsStreamResume b _ _ _ => some b
  | .jesAligned b _ _ => some b
  | .spectrumReady b _ _ => some b
  | .tapSlotWritten b _ => some b
  | .traceIntervalEnd b _ => some b
  | .triggerEvent b _ _ => some b
  | .qualLongerExpire b _ => some b
  | .coreEventDue b _ => some b
  | .groupFireRequest _ => none
  | .groupFireBroadcast b _ _ => some b
  | .armTakeEffect _ => none
  | .disarmTakeEffect _ => none
  | .segmentPostDone b _ _ => some b
  | .slotFreed b _ => some b
  | .unitRearm b _ => some b
  | .trgForce b _ => some b
  | .maskBump b _ _ => some b
  | .maskCopyDone b _ => some b
  | .maskStoreWrite b _ _ => some b
  | .trigOutEdge _ => none
  | .trigOutPulseEnd _ => none
  | .denBankClose b _ => some b
  | .denPassDone b _ => some b
  | .denClear b _ => some b
  | .scnLatchPoint b => some b
  | .scnCrcCompare b _ _ => some b
  | .scnCommitWrite b _ => some b
  | .roReferenceDone b => some b
  | .roStaleTimeout b => some b
  | .dpHpdRise b _ => some b
  | .dpHpdIrq b _ => some b
  | .dpHpdFall b => some b
  | .dpLinkTrainDone b _ => some b
  | .dpTrainRetryTimer b => some b
  | .interruptEntry b _ => some b
  | .coreTimerExpire b _ => some b
  | .watchdogExpire b _ => some b
  | .coreRestart b _ => some b
  | .emitCopyDone b _ => some b
  | .postCopyDone b _ => some b
  | .iqFeedBlock b _ _ => some b
  | .nop b _ => some b
  | .add b _ => some b
  | .sub b _ => some b
  | .and b _ => some b
  | .or b _ => some b
  | .xor b _ => some b
  | .shl b _ => some b
  | .shr b _ => some b
  | .sar b _ => some b
  | .adds b _ => some b
  | .subs b _ => some b
  | .min b _ => some b
  | .max b _ => some b
  | .minu b _ => some b
  | .maxu b _ => some b
  | .abs b _ => some b
  | .slt b _ => some b
  | .sltu b _ => some b
  | .shli b _ => some b
  | .shri b _ => some b
  | .sari b _ => some b
  | .clz b _ => some b
  | .mul16 b _ => some b
  | .addi b _ => some b
  | .andi b _ => some b
  | .ori b _ => some b
  | .xori b _ => some b
  | .lui b _ => some b
  | .beq b _ => some b
  | .bne b _ => some b
  | .blt b _ => some b
  | .bge b _ => some b
  | .bltu b _ => some b
  | .bgeu b _ => some b
  | .jmp b _ => some b
  | .jal b _ => some b
  | .jr b _ => some b
  | .call b _ => some b
  | .ret b _ => some b
  | .rep b _ => some b
  | .ld b _ => some b
  | .st b _ => some b
  | .ldr b _ => some b
  | .str b _ => some b
  | .mac b _ => some b
  | .macp b _ => some b
  | .sta b _ => some b
  | .lda b _ => some b
  | .adda b _ => some b
  | .sha b _ => some b
  | .srst b _ => some b
  | .smax b _ => some b
  | .smin b _ => some b
  | .smm b _ => some b
  | .mfs b _ => some b
  | .mts b _ => some b
  | .evt b _ => some b
  | .emit b _ => some b
  | .post b _ => some b
  | .wait b _ => some b
  | .halt b _ => some b
  | .ei b _ => some b
  | .di b _ => some b
  | .reti b _ => some b
  | .illegalInstruction b _ => some b
  | .mcCtrlHalt b _ => some b
  | .mcCtrlResume b _ => some b
  | .mcCtrlReset b _ => some b
  | .mcMboxInWrite b _ _ => some b
  | .mcMboxOutRead b _ => some b
  | .coreImemWrite b _ _ => some b
  | .coreEbb b _ => some b
  | .coreFloodDone b _ => some b
  | .recordEnqueue b _ _ => some b
  | .dmaRecordStart b _ => some b
  | .dmaBurst b _ _ => some b
  | .dmaRecordDelivered b _ => some b
  | .dmaGo b _ => some b
  | .dmaAbort b _ => some b
  | .dmaClear b _ => some b
  | .dmaTransferDone b _ => some b
  | .dmaRingCfgWrite b _ _ => some b
  | .asleepCompletion b _ _ => some b
  | .hostReadTimeout b _ => some b
  | .queFlush b _ => some b
  | .queReservePeakRead b => some b
  | .sealedRecordMac => none
  | .driveLinkTrained b _ _ _ => some b
  | .driveTrainRetry b _ => some b
  | .driveReady b _ _ => some b
  | .driveWaitExpire b => some b
  | .nvmeCompletion b _ _ => some b
  | .driveCommandTimeout b _ => some b
  | .driveLinkDown b _ => some b
  | .failoverResume b => some b
  | .recSyncTimer b => some b
  | .smartPoll b _ _ _ _ => some b
  | .recStartEffect b => some b
  | .recStopEffect b => some b
  | .recStopDone b => some b
  | .recFreezeReleaseOne b _ => some b
  | .recFreezeReleaseAll b => some b
  | .replayDeliver b _ => some b
  | .replayStall b _ => some b
  | .replayResume b _ => some b
  | .rebuildRowDone b => some b
  | .recLatMaxRead b _ => some b
  | .laneLockLost b _ _ => some b
  | .laneUp b _ => some b
  | .laneBringupTimeout b _ => some b
  | .capabilityFrameRx b _ _ => some b
  | .stepRungCheckDone _ _ => none
  | .lnlLanesFailTimeout _ => none
  | .lnlBringupRestart _ => none
  | .eyeMeasure b _ _ _ => some b
  | .laneErrRead b _ _ _ => some b
  | .laneClear b _ => some b
  | .laneTxSleep b _ => some b
  | .laneTxWake b _ => some b
  | .laneRxSleep b _ => some b
  | .laneRxWake b _ => some b
  | .laneResync b _ _ => some b
  | .laneSleepDone b _ _ => some b
  | .laneTxWakeDone b _ => some b
  | .laneRxWakeDone b _ _ => some b
  | .laneSignalDetect b _ => some b
  | .laneTestWrite b _ _ _ => some b
  | .errInject b _ => some b
  | .pcieLinkUp b _ _ _ _ => some b
  | .pcieLinkDown b _ => some b
  | .pcieReset b _ => some b
  | .pcieBmeChange b _ _ _ => some b
  | .ethLinkUp b _ => some b
  | .ethLinkDown b _ => some b
  | .ethPortFault b _ _ => some b
  | .ethFailoverDone _ => none
  | .ethFrameRx b _ _ => some b
  | .ptpOffsetMeasure _ => none
  | .ethResolveTimer _ _ _ => none
  | .flitReceive b _ _ => some b
  | .lnlFlitTimeout b _ => some b
  | .fabricPacketRx b _ _ _ => some b
  | .lnlLinkDown b _ _ => some b
  | .topologyUpdate b _ _ _ => some b
  | .fabricPortRetrain b _ _ => some b
  | .lnlLinkUp b _ => some b
  | .lnlLaneFail _ _ => none
  | .lnlWidthResume _ => none
  | .shoalExchangeRx _ _ _ _ _ => none
  | .shoalMismatchRetry _ => none
  | .islandDeclared b _ => some b
  | .rejoinMeasure b _ => some b
  | .islandRejoin => none
  | .rejoinOffsetRemoved => none
  | .provisionSignKey => none
  | .provisionMacKey => none
  | .revoke => none
  | .tamperClear => none
  | .logVerify => none
  | .logVerifyDone => none
  | .logArchive _ => none
  | .tamperSample _ _ => none
  | .sealLogFlush _ => none
  | .rtcFollowWrite => none
  | .vbatBrownout => none
  | .calTempInterval b _ => some b
  | .calIntervalDue b _ => some b
  | .calBackoffEnd b _ => some b
  | .calRunStart b _ => some b
  | .calForced b _ => some b
  | .calPassDone b _ _ => some b
  | .combCheckDone b _ _ => some b
  | .calRunEnd b _ => some b
  | .hkcScanConversion b _ _ => some b
  | .hkcSealedConversion b _ _ => some b
  | .hkcUrgentRequest b _ _ => some b
  | .hkcUrgentDone b _ _ => some b
  | .auxClrAssert => none
  | .auxClrRelease => none
  | .auxCodeWrite b _ _ _ => some b
  | .auxComplianceFault b _ => some b
  | .auxComplianceClear b _ => some b
  | .pwrReqWatch _ => none
  | .pwrReqStandby _ => none
  | .pwrReqWake _ => none
  | .pwrEntryStart _ => none
  | .pwrQueuesDrained => none
  | .pwrDrainTimeout => none
  | .domainEbbDone b _ => some b
  | .watchBlockDone b _ => some b
  | .wakeInRise => none
  | .wakeComparator b _ => some b
  | .rtcWake => none
  | .floodSupervisorDone => none
  | .floodDone => none
  | .watchPeakRead b => some b
  | .monSample b _ _ _ => some b
  | .monSnap b _ => some b
  | .faultLongestRead => none
  | .injKill _ => none
  | .svcTransaction _ => none
  | .svcAlertClear _ => none
  | .registerWrite _ _ _ => none
  | .tbsEdgeLostRead b => some b
  | .hostErrorCompletion b _ => some b
  | .lnlInjDelayExpire b _ => some b
  | .ethInjDelayExpire _ => none
  | .verticalBlankingStart b => some b
  | .jtagUpdateIr b _ => some b
  | .jtagTestLogicReset b => some b
  | .sysrefOutEdge b => some b
  | .controllerFatalStatus b _ => some b
  | .spllPhase8Timeout b => some b

/-- PCIe generations and widths (R554, R474). -/
def pcieShape (gen width : Nat) : Bool := decide (1 ≤ gen) && decide (gen ≤ 6) && [1, 2, 4, 8, 16].contains width

/-- The command is well formed for a part of `nb` bays: its bay exists (R1, R30), an opcode said to be unknown is not in
the table (R80), and the numbers it carries lie in the ranges that the rules give them. -/
def Instr.wellFormed (nb : Nat) (i : Instr) : Bool :=
  (match i.bay? with
   | some b => decide (b.val < nb)
   | none => true) &&
  (match i with
   | .unknownOpcode op _ => !(decide (1 ≤ op.toNat) && decide (op.toNat ≤ 14))
   | .pcieLinkUp _ _ gen width _ => pcieShape gen width
   | .driveLinkTrained _ _ gen width => pcieShape gen width
   | .hkcUrgentRequest _ x chan => if x = 0 then [0, 1, 18].contains chan.val else [16, 17].contains chan.val
   | .recordEnqueue _ _ xs => !xs.isEmpty
   | .iqFeedBlock _ _ xs => !xs.isEmpty
   | .fabricPacketRx _ _ _ payload => decide (payload.length < 65536)
   | _ => true)

end Sys2Proof
end

