-- ==== Sys2Proof/Tests/Slice0.lean ====
section
/-! SUPPORT. The author's own tests: states that meet the hypotheses of every statement, terms that WellFormed refuses, and words of
the measurement cores. -/

namespace Sys2Proof.Tests

/-! One ill-formed command for each check of WellFormed. -/

theorem test_wf_bay : Instr.wellFormed 4 (.trgForce 5 1) = false := by decide
theorem test_wf_bay_exists : Instr.wellFormed 8 (.trgForce 5 1) = true := by decide
theorem test_wf_opcode_of_the_table : Instr.wellFormed 8 (.unknownOpcode 3 0) = false := by decide
theorem test_wf_pcie_generation : Instr.wellFormed 8 (.pcieLinkUp 0 4 7 4 false) = false := by decide
theorem test_wf_pcie_width : Instr.wellFormed 8 (.pcieLinkUp 0 4 5 3 false) = false := by decide
theorem test_wf_drive_width : Instr.wellFormed 8 (.driveLinkTrained 0 0 4 5) = false := by decide
theorem test_wf_urgent_channel_of_x0 : Instr.wellFormed 8 (.hkcUrgentRequest 0 0 16) = false := by decide
theorem test_wf_urgent_channel_of_x1 : Instr.wellFormed 8 (.hkcUrgentRequest 0 1 0) = false := by decide
theorem test_wf_empty_record : Instr.wellFormed 8 (.recordEnqueue 0 0 []) = false := by decide
theorem test_wf_empty_block : Instr.wellFormed 8 (.iqFeedBlock 0 0 []) = false := by decide
theorem test_wf_long_packet (xs : List Word) (h : 65536 ≤ xs.length) :
    Instr.wellFormed 8 (.fabricPacketRx 0 0 #v[0, 0, 0, 0] xs) = false := by
  simp [Instr.wellFormed, Instr.bay?]; omega

/-! Words of the measurement cores, built from the formats of R402 and R403 by hand. -/

theorem test_core_abs : Machine.decodeCore 0x0443000E = some (.alu .abs 2 3 3 0) := by decide
theorem test_core_lui : Machine.decodeCore 0x1A001234 = some (.imm .lui 16 0 0x1234) := by decide
theorem test_core_jal : Machine.decodeCore 0x3FE00010 = none := by decide
theorem test_core_halt : Machine.decodeCore 0x78800000 = some .halt := by decide

/-! Entries of the command ring, built from the layout of R79 and R80 by hand. -/

theorem test_ring_arm : commandOf #v[0x03, 7, 0x00040201, 1, 0, 0, 0, 0, 0, 0, 0, 0, 0, 0, 0, 0] = .arm 7 1 2 4 1 := by decide
theorem test_ring_unknown : commandOf #v[0xFF, 7, 0, 0, 0, 0, 0, 0, 0, 0, 0, 0, 0, 0, 0, 0] = .unknownOpcode 0xFF 7 := by decide

end Sys2Proof.Tests

namespace Sys2Proof.Tests
set_option linter.unusedVariables false
set_option Elab.async false
open Sys2Proof.Machine

/-- Every domain of a bay is on. -/
def bayOn : Bay :=
  { Bay.reset with pwr := { PwrBay.reset with
      supervisor := true, frontEnd := Vector.replicate 2 true, datapath := true, hkc := true, ports := true, scanOut := true
      sealKeeper := true, cores := Vector.replicate 8 true, quads := Vector.replicate 6 true } }

/-- A package whose eight bays run. -/
def w : State :=
  { State.reset with
    bays := Vector.replicate 8 bayOn
    pwr := { PwrPkg.reset with state := .run }
    img := { Img.reset with state := .run } }

/-- That package with a bay changed. -/
def wb (f : Bay → Bay) : State := w.modBay 0 f

/-- An image of one live declaration: IMG.PROFILE_PIN_SWITCH's block, any value. -/
def im0 : Image :=
  { slot := false, id := 5, hash := List.replicate 32 0, sealedHash := List.replicate 32 0, shoalHash := List.replicate 32 0, signed := false, keySlot := 0
    sealed := [], opened := [], shoal := [], profiles := [some { entries := [], body := [] }, some { entries := [], body := [] }], live := [], items := [], ignored := 0 }

/-- The package with both host rings on, one command waiting and an image in force. -/
def wr : State :=
  ({ w with img := { w.img with
      image := some im0, buffering := false
      cmd := { Ring.reset with enable := true, sizeLog2 := 4, tail := 1 }
      evt := { Ring.reset with enable := true, sizeLog2 := 4 } } } : State).modBay 0 fun y =>
    { y with pci := y.pci.set 4 { y.pci[4] with linkUp := true, bme := true, d3 := false } }

/-- That package once the command is taken. -/
def wt : State := (wr.takeCommand).getD wr

/-- CLK.QUAL_WINDOW is declared live in the headland. -/
def imLive : Image := { im0 with live := [{ key := keyOfWord 0x01010004, min := 1, max := 600, log := false, signed := false }] }

/-- That package with CLK.QUAL_WINDOW declared live in the headland. -/
def wl : State := wr.modImg fun i => { i with image := some imLive }

/-- That package with a provisioned signing key in slot 1 and arguments that name it. -/
def wk : State := w.modSeal fun k =>
  { k with
    fuses := { k.fuses with sign := k.fuses.sign.set 1 { key := some (3, 5), revoked := false } }
    box := { k.box with args := k.box.args.set 0 1 } }

namespace Zspecial

/-- The package with every die-to-die link up. -/
def wLinks : State :=
  (List.range 8).foldl (fun s n => s.modBay (Fin.ofNat 8 n) fun y =>
    { y with lnl := { y.lnl with ports := y.lnl.ports.map fun p => { p with up := true } } }) w

/-- States and operands that meet the hypotheses of every clause of StepTakesFront. -/
theorem wit_StepTakesFront :
    -- step_takes_front
    (∃ (s : State) (c : Instr) (rest : List Instr), s.pending = c :: rest) ∧
    -- step_idles
    (∃ (s : State) (b : BayNo), s.pending = [] ∧ s.running = true ∧ (s.bay b).tbs.removing = none) ∧
    -- step_removes
    (∃ (s : State) (b : BayNo) (r : Int), s.pending = [] ∧ s.running = true ∧ (s.bay b).tbs.removing = some r ∧ 0 ≤ r) ∧
    -- step_waits
    (∃ (s : State), s.pending = [] ∧ s.running = false) :=
  ⟨⟨{ w with pending := [.rstNFall, .rstNRise] }, .rstNFall, [.rstNRise], by decide +kernel⟩,
   ⟨w, 0, by decide +kernel⟩,
   ⟨wb fun y => { y with tbs := { y.tbs with removing := some 5 } }, 0, 5, by decide +kernel⟩,
   ⟨State.reset, by decide +kernel⟩⟩

/-- States and operands that meet the hypotheses of every clause of StepKeepsInv. -/
theorem wit_StepKeepsInv :
    -- step_keeps_inv
    (∃ (s : State) (t : State), s.Inv ∧ step s = .next t) :=
  ⟨State.reset, _, ⟨by decide, by decide, by decide⟩, rfl⟩

/-- States and operands that meet the hypotheses of every clause of StepLasts. -/
theorem wit_StepLasts :
    -- step_fuses_grow
    (∃ (s : State) (t : State), step s = .next t) ∧
    -- exec_keeps_queue
    (∃ (i : Instr) (s : State) (t : State), exec i s = .next t) :=
  ⟨⟨w, _, rfl⟩,
   ⟨.sealLogFlush false, w, _, rfl⟩⟩

/-- States and operands that meet the hypotheses of every clause of CommandFrame. -/
theorem wit_CommandFrame :
    -- command_frame
    (∃ (i : Instr) (s : State) (t : State), exec i s = .next t) :=
  ⟨.sealLogFlush false, w, _, rfl⟩

/-- States and operands that meet the hypotheses of every clause of OpenSideWrites. -/
theorem wit_OpenSideWrites :
    -- register_write_leaves
    (∃ (a : BitVec 32) (v : BitVec 32) (en : BitVec 4) (s : State) (t : State) (b : BayNo), exec (.registerWrite a v en) s = .next t) ∧
    -- dma_burst_leaves
    (∃ (b : BayNo) (n : Fin 32) (data : List Byte) (s : State) (t : State) (b' : BayNo), s.tbs.grid.running = true ∧ exec (.dmaBurst b n data) s = .next t) :=
  ⟨⟨0x10, 1, 15, w, _, 0, rfl⟩,
   ⟨0, 0, [], w.modGrid fun g => { g with running := true }, _, 0, by decide, rfl⟩⟩

/-- States and operands that meet the hypotheses of every clause of ShortestRoutes. -/
theorem wit_ShortestRoutes :
    -- route_is_shortest
    (∃ (s : State) (a : BayNo) (b : BayNo) (p : List Nat), s.route a b = some p) ∧
    -- route_exists
    (∃ (s : State) (a : BayNo) (b : BayNo) (q : List Nat), s.walk a q = some b) ∧
    -- route_all_up
    (∃ (s : State) (a : BayNo) (b : BayNo), ((∀ (c : BayNo) (d : Fin 3), c.val < 2 ^ s.part.log2 → d.val < s.part.log2 → s.d2dUp c d.val = true)) ∧ a.val < 2 ^ s.part.log2 ∧ b.val < 2 ^ s.part.log2) :=
  ⟨⟨wLinks, 0, 5, [0, 2], by decide +kernel⟩,
   ⟨wLinks, 0, 5, [2, 0], by decide +kernel⟩,
   ⟨wLinks, 3, 5, by decide +kernel⟩⟩

/-- States and operands that meet the hypotheses of every clause of EventBuffer. -/
theorem wit_EventBuffer :
    -- buffer_keeps_256
    (∃ (s : State) (r : Rec), s.img.buffering = true ∧ s.img.buffer.length ≤ 256) ∧
    -- enable_drains
    (∃ (s : State), s.img.bufferDropped = 0) :=
  ⟨⟨w, w.lostRec 1, by decide +kernel⟩,
   ⟨w, by decide +kernel⟩⟩

/-- States and operands that meet the hypotheses of every clause of FlashMemory. -/
theorem wit_FlashMemory :
    -- flash_outside
    (∃ (s : State) (off : Nat) (bs : List Byte) (a : Nat), ((a < off ∨ off + bs.length ≤ a))) ∧
    -- flash_inside
    (∃ (s : State) (off : Nat) (bs : List Byte) (i : Nat), i < bs.length ∧ Sparse.get 0xFF#8 s.flash.bytes (off + i) = 0xFF#8) ∧
    -- flash_canonical
    (∃ (s : State) (off : Nat) (bs : List Byte), Sparse.wf 0xFF#8 s.flash.bytes = true) :=
  ⟨⟨w, 4, [1, 2], 6, by decide +kernel⟩,
   ⟨w, 4, [1, 2], 1, by decide +kernel⟩,
   ⟨w, 4, [1, 2], by decide +kernel⟩⟩

end Zspecial

namespace Startup

/-- Start-up with phase `n` completed. -/
def ws (n : Nat) : State := w.modImg fun i => { i with state := .start, image := some im0, boot := { Boot.reset with active := true, phase := n, order := [false, true] } }

/-- States and operands that meet the hypotheses of every clause of PowerAndReset. -/
theorem wit_PowerAndReset :
    -- pwrGoodRise_done
    (∃ (s : State), s.pwr.state = .off) ∧
    -- powerFail_done
    (∃ (s : State), s.pwr.state ≠ .off) ∧
    -- powerFail_done
    (∃ (s : State), s.pwr.state ≠ .off) ∧
    -- rstNFall_done
    (∃ (s : State), s.rstLow = false ∧ s.pwr.state ≠ .off) ∧
    -- rstNRise_done
    (∃ (s : State) (b : BayNo), s.rstLow = true ∧ s.pwr.state ≠ .off) ∧
    -- tbsGlobalReset_done
    (∃ (s : State) (v : Word), s.alive 0 = true ∧ s.img.state ≠ .safe) ∧
    -- tbsGlobalReset_done
    (∃ (s : State) (v : Word), s.alive 0 = true ∧ s.img.state ≠ .safe) ∧
    -- globalResetArrive_done
    (∃ (s : State), s.pwr.state ≠ .off ∧ s.rstLow = false ∧ s.tbs.globalReset = false ∧ s.tbs.resetIssued = true ∧ s.img.state ≠ .safe) ∧
    -- globalResetRelease_done
    (∃ (s : State), s.tbs.globalReset = true) :=
  ⟨⟨State.reset, by decide +kernel⟩,
   ⟨w, by decide +kernel⟩,
   ⟨w.modSeal fun k => { k with rowPending := some (List.replicate 32 7) }, by decide +kernel⟩,
   ⟨w, by decide +kernel⟩,
   ⟨{ w with rstLow := true }, 3, by decide +kernel⟩,
   ⟨w, 0xA5, by decide +kernel⟩,
   ⟨w, 0xA4, by decide +kernel⟩,
   ⟨w.modTbsPkg fun y => { y with resetIssued := true }, by decide +kernel⟩,
   ⟨w.modTbsPkg fun y => { y with globalReset := true }, by decide +kernel⟩⟩

/-- States and operands that meet the hypotheses of every clause of StartUpPhases. -/
theorem wit_StartUpPhases :
    -- lagoonFloodDone_done
    (∃ (s : State) (b : BayNo), s.inPhase 0 = true ∧ s.alive b = true) ∧
    -- bootRomDone_done
    (∃ (s : State) (seen : Vector (Vector (Option CandSeen) 4) 8) (l : BitVec 8) (b : BayNo), s.inPhase 1 = true ∧ s.alive b = true) ∧
    -- bootRomDone_done
    (∃ (s : State) (seen : Vector (Vector (Option CandSeen) 4) 8) (l : BitVec 8) (b : BayNo), s.inPhase 1 = true ∧ s.alive b = true) ∧
    -- d2dTrainDone_done
    (∃ (s : State) (failed : Vector (BitVec 3) 8) (b : BayNo) (d : Fin 3), s.inPhase 2 = true ∧ s.alive b = true ∧ d.val < s.part.log2) ∧
    -- discoverDone_done
    (∃ (s : State), s.inPhase 3 = true) ∧
    -- discoverTimeout_done
    (∃ (s : State) (b : BayNo), s.inPhase 3 = true ∧ b ≠ 0 ∧ s.alive b = true) ∧
    -- shoalSectionReadDone_done
    (∃ (s : State), s.inPhase 4 = true ∧ s.img.boot.restart = false) ∧
    -- imageReadDone_done
    (∃ (s : State) (e : Bool) (q : Bool) (slot : Bool) (other : Bool), ((s.inPhase 4 = true ∨ s.inPhase 5 = true)) ∧ s.img.boot.candidate = none ∧ s.img.boot.order = [slot, other]) ∧
    -- imageReadDone_safe
    (∃ (s : State) (e : Bool) (q : Bool) (slot : Bool) (c : Nat), ((s.inPhase 4 = true ∨ s.inPhase 5 = true)) ∧ s.img.boot.candidate = none ∧ s.img.boot.order = [slot] ∧ (if s.img.boot.started then s else s.sealStart).checkSlot slot e = .error c) ∧
    -- checkerDone_done
    (∃ (s : State) (pins : BitVec 4) (im : Image), s.inPhase 5 = true ∧ s.img.boot.candidate = some im) ∧
    -- imageBroadcastDone_done
    (∃ (s : State) (b : BayNo) (i : Fin 2) (n : Fin 32) (c : CoreNo), s.inPhase 6 = true ∧ s.alive b = true) ∧
    -- spllLockPhase8_time
    (∃ (s : State) (seen : Vector (Option CandSeen) 4) (b : BayNo), s.inPhase 7 = true ∧ (s.bay 0).tbs.set = false ∧ s.alive b = true) ∧
    -- spllLockPhase8_grid
    (∃ (s : State) (seen : Vector (Option CandSeen) 4), s.inPhase 7 = true ∧ (s.bay 0).tbs.set = false) ∧
    -- spllPhase8Timeout_done
    (∃ (s : State) (b : BayNo), s.inPhase 7 = true ∧ s.alive b = true ∧ (s.bay b).clk.unlockEpisode = false) ∧
    -- adcInitCalDone_done
    (∃ (s : State) (res : List AdcInit) (x : AdcInit), s.inPhase 8 = true ∧ s.frontOn x.bay x.input = true ∧ (res.find? (fun e => decide (e.bay = x.bay ∧ e.input = x.input)) = some x)) ∧
    -- feCalDone_done
    (∃ (s : State) (runs : List FeRun), s.inPhase 9 = true) ∧
    -- imageRestart_done
    (∃ (s : State) (s1 : State) (tag : Word) (second : Bool), s.takeCommand = some s1 ∧ s1.img.state ≠ .start) :=
  ⟨⟨ws 0, 2, by decide +kernel⟩,
   ⟨ws 1, Vector.replicate 8 #v[some { fast := true, off := 5 }, none, none, none], 0xF7, 2, by decide +kernel⟩,
   ⟨ws 1, Vector.replicate 8 #v[some { fast := true, off := 200000000 }, some { fast := false, off := -7 }, none, none], 0xF7, 3, by decide +kernel⟩,
   ⟨ws 2, Vector.replicate 8 1, 3, 1, by decide +kernel⟩,
   ⟨ws 3, by decide +kernel⟩,
   ⟨ws 3, 5, by decide +kernel⟩,
   ⟨ws 4, by decide +kernel⟩,
   ⟨(ws 4).modBoot fun t => { t with started := true }, true, false, false, true, by decide +kernel⟩,
   ⟨(ws 4).modBoot fun t => { t with started := true, order := [true] }, true, false, true, 3,
    by decide +kernel, by decide +kernel, by decide +kernel, by rfl⟩,
   ⟨(ws 5).modBoot fun t => { t with candidate := some im0 }, 0, im0, by decide +kernel⟩,
   ⟨ws 6, 2, 1, 3, 4, by decide +kernel⟩,
   ⟨(ws 7).modSeal fun k => { k with island := { k.island with buffer := [] } }, #v[some { fast := true, off := 5 }, none, none, none], 2, by decide +kernel⟩,
   ⟨ws 7, #v[some { fast := true, off := 5 }, none, none, none], by decide +kernel⟩,
   ⟨ws 7, 2, by decide +kernel⟩,
   ⟨ws 8, [{ bay := 2, input := 1, bad := 4, coefs := [], agreed := true }], { bay := 2, input := 1, bad := 4, coefs := [], agreed := true }, by decide +kernel⟩,
   ⟨ws 9, [], by decide +kernel⟩,
   ⟨wr, wt, 7, true, by decide +kernel⟩⟩

end Startup

namespace Live

/-- States and operands that meet the hypotheses of every clause of LiveValuesAndProfiles. -/
theorem wit_LiveValuesAndProfiles :
    -- setLive_accepted
    (∃ (s : State) (u : State) (tag : Word) (key : Word) (value : Word) (f : Field) (i : Nat), s.takeCommand = some u ∧ u.inStates true = true ∧ findField (keyOfWord key.toNat).block (keyOfWord key.toNat).id = some (f, i) ∧ u.keyMask f (keyOfWord key.toNat) ≠ 0 ∧ ((∀ b ∈ maskList (u.keyMask f (keyOfWord key.toNat)), u.declsOf (keyOfWord key.toNat) b ≠ [])) ∧ formOk f value.toNat = true ∧ inRange u.part.bays f (valueOf f value.toNat) = true ∧ ((∀ b ∈ maskList (u.keyMask f (keyOfWord key.toNat)), ∀ d ∈ u.declsOf (keyOfWord key.toNat) b, d.min ≤ valueOf f value.toNat ∧ valueOf f value.toNat ≤ d.max ∧ d.log = false)) ∧ ((∀ b ∈ maskList (u.keyMask f (keyOfWord key.toNat)), sideIn (fun b => Vals.nat u.vals Fld.mcoSealCores b) f (keyOfWord key.toNat) b = .opened))) ∧
    -- setLive_notLive
    (∃ (s : State) (u : State) (tag : Word) (key : Word) (value : Word) (defer : Bool), s.takeCommand = some u ∧ u.inStates true = true ∧ ((∃ im, u.img.image = some im ∧ im.live = []))) ∧
    -- selectProfile_accepted
    (∃ (s : State) (u : State) (tag : Word) (p : BitVec 4), s.takeCommand = some u ∧ u.inStates true = true ∧ u.pkgN Fld.imgProfilePinSwitch ≠ 1 ∧ u.hasProfile p.toNat = true ∧ u.keeper.freeSlots ≠ 0 ∧ u.keeper.full = false) ∧
    -- selectProfile_pinsOwn
    (∃ (s : State) (u : State) (tag : Word) (p : BitVec 4), s.takeCommand = some u ∧ u.inStates true = true ∧ u.pkgN Fld.imgProfilePinSwitch = 1) ∧
    -- selectProfile_absent
    (∃ (s : State) (u : State) (tag : Word) (p : BitVec 4), s.takeCommand = some u ∧ u.inStates true = true ∧ u.pkgN Fld.imgProfilePinSwitch ≠ 1 ∧ u.hasProfile p.toNat = false) ∧
    -- profilePinChange_accepted
    (∃ (s : State) (v : BitVec 4), s.alive 0 = true ∧ s.inStates true = true ∧ s.pkgN Fld.imgProfilePinSwitch = 1 ∧ v ≠ s.img.pinsTaken ∧ s.hasProfile v.toNat = true ∧ (s.pkgN Fld.imgPinProfiles).testBit v.toNat = true ∧ s.keeper.freeSlots ≠ 0 ∧ s.keeper.full = false) ∧
    -- profilePinChange_absent
    (∃ (s : State) (v : BitVec 4), s.alive 0 = true ∧ s.inStates true = true ∧ s.pkgN Fld.imgProfilePinSwitch = 1 ∧ v ≠ s.img.pinsTaken ∧ s.hasProfile v.toNat = false ∧ s.img.absentTold ≠ some v) ∧
    -- liveApplyImmediate_done
    (∃ (s : State) (b : BayNo) (w : Waiting), s.alive b = true ∧ (s.img.waiting.find? (fun w => w.appliesAt .immediate && (match w with | .value _ left _ _ _ _ _ => left.testBit b.val | .profile .. => false)) = some w)) :=
  ⟨⟨wl, (wl.takeCommand).getD wl, 9, 0x01010004, 30, Fld.clkQualWindow, 0, by decide +kernel⟩,
   ⟨wr, wt, 4, 0x01010004, 7, false, by decide +kernel⟩,
   ⟨wr, wt, 4, 1, by decide +kernel⟩,
   ⟨wr.setFld Fld.imgProfilePinSwitch 0 0 1, ((wr.setFld Fld.imgProfilePinSwitch 0 0 1).takeCommand).getD wr, 4, 1, by decide +kernel⟩,
   ⟨wr, wt, 4, 7, by decide +kernel⟩,
   ⟨((wr.setFld Fld.imgProfilePinSwitch 0 0 1).setFld Fld.imgPinProfiles 0 0 3), 1, by decide +kernel⟩,
   ⟨(wr.setFld Fld.imgProfilePinSwitch 0 0 1), 9, by decide +kernel⟩,
   ⟨wl.modImg fun i => { i with waiting := [.value (keyOfWord 0x01010004) 1 9 .immediate 0 false false] }, 0, .value (keyOfWord 0x01010004) 1 9 .immediate 0 false false, by decide +kernel⟩⟩

/-- States and operands that meet the hypotheses of every clause of SetLiveRefusals. -/
theorem wit_SetLiveRefusals :
    -- setLive_uncovered
    (∃ (s : State) (u : State) (tag : Word) (key : Word) (value : Word) (defer : Bool) (f : Field) (i : Nat), s.takeCommand = some u ∧ u.inStates true = true ∧ findField (keyOfWord key.toNat).block (keyOfWord key.toNat).id = some (f, i) ∧ ((∃ b ∈ maskList (u.keyMask f (keyOfWord key.toNat)), u.declsOf (keyOfWord key.toNat) b = []))) ∧
    -- setLive_outside
    (∃ (s : State) (u : State) (tag : Word) (key : Word) (value : Word) (defer : Bool) (f : Field) (i : Nat), s.takeCommand = some u ∧ u.inStates true = true ∧ findField (keyOfWord key.toNat).block (keyOfWord key.toNat).id = some (f, i) ∧ u.keyMask f (keyOfWord key.toNat) ≠ 0 ∧ ((∀ b ∈ maskList (u.keyMask f (keyOfWord key.toNat)), u.declsOf (keyOfWord key.toNat) b ≠ [])) ∧ ((∃ b ∈ maskList (u.keyMask f (keyOfWord key.toNat)), ∃ d ∈ u.declsOf (keyOfWord key.toNat) b, valueOf f value.toNat < d.min ∨ d.max < valueOf f value.toNat))) :=
  ⟨⟨wl, (wl.takeCommand).getD wl, 9, 0x01010001, 30, false, Fld.clkRefPrio, 0, by decide +kernel⟩,
   ⟨wl, (wl.takeCommand).getD wl, 9, 0x01010004, 0, false, Fld.clkQualWindow, 0, by decide +kernel⟩⟩

end Live

namespace Ring

/-- States and operands that meet the hypotheses of every clause of HostRings. -/
theorem wit_HostRings :
    -- imgCmdTailWrite_done
    (∃ (s : State) (v : BitVec 12), s.alive 0 = true) ∧
    -- imgCmdCfgWrite_enable
    (∃ (s : State) (v : Word), s.alive 0 = true ∧ s.img.cmd.enable = false) ∧
    -- imgCmdCfgWrite_enable
    (∃ (s : State) (v : Word), s.alive 0 = true ∧ s.img.cmd.enable = false) ∧
    -- imgCmdCfgWrite_enabled
    (∃ (s : State) (v : Word), s.alive 0 = true ∧ s.img.cmd.enable = true) ∧
    -- imgEvtCfgWrite_done
    (∃ (s : State) (v : Word), s.alive 0 = true ∧ s.img.buffering = false ∧ s.img.evt.enable = true) ∧
    -- imgEvtCfgWrite_first
    (∃ (s : State) (v : Word), s.alive 0 = true ∧ s.img.buffering = true ∧ s.img.evt.enable = false ∧ v.getLsbD 31 = true ∧ 4 ≤ (v.extractLsb' 0 4).toNat ∧ (v.extractLsb' 0 4).toNat ≤ 12) ∧
    -- imgEvtHeadWrite_done
    (∃ (s : State) (v : BitVec 12), s.alive 0 = true) ∧
    -- imgEvtLostRead_done
    (∃ (s : State), s.alive 0 = true) :=
  ⟨⟨wr, 7, by decide +kernel⟩,
   ⟨wr.modImg fun i => { i with cmd := .reset }, 0x80000005, by decide +kernel⟩,
   ⟨wr.modImg fun i => { i with cmd := .reset }, 0x80000003, by decide +kernel⟩,
   ⟨wr, 5, by decide +kernel⟩,
   ⟨wr, 0x00000900, by decide +kernel⟩,
   ⟨wr.modImg fun i => { i with evt := .reset, buffering := true, bufferDropped := 3 }, 0x80000104, by decide +kernel⟩,
   ⟨wr, 7, by decide +kernel⟩,
   ⟨wr.modImg fun i => { i with lost := 9 }, by decide +kernel⟩⟩

/-- States and operands that meet the hypotheses of every clause of RingCommands. -/
theorem wit_RingCommands :
    -- snapshotAt_done
    (∃ (s : State) (u : State) (tag : Word) (id : Word) (a : Stamp), s.takeCommand = some u ∧ u.inStates true = true ∧ stampLt a u.epochLead = false ∧ u.tbs.snaps.length < 2) ∧
    -- acqRestart_done
    (∃ (s : State) (u : State) (tag : Word) (mask : BitVec 8), s.takeCommand = some u ∧ u.inStates true = true ∧ maskOf (u.maskBays mask.toNat) ≠ 0) ∧
    -- unknownOpcode_done
    (∃ (s : State) (u : State) (op : BitVec 8) (tag : Word), s.takeCommand = some u ∧ ((op.toNat = 0 ∨ 0x0E < op.toNat))) ∧
    -- nvmRead_queued
    (∃ (s : State) (u : State) (tag : Word) (off : Word) (len : Word) (host : BitVec 64), s.takeCommand = some u) ∧
    -- nvmErase_queued
    (∃ (s : State) (u : State) (tag : Word) (off : Word) (len : Word), s.takeCommand = some u) ∧
    -- nvmProgram_queued
    (∃ (s : State) (u : State) (tag : Word) (off : Word) (len : Word) (host : BitVec 64), s.takeCommand = some u) ∧
    -- sealLogRead_queued
    (∃ (s : State) (u : State) (tag : Word) (first : Word) (count : Word) (host : BitVec 64), s.takeCommand = some u) ∧
    -- flashStatus_protected
    (∃ (s : State) (off : Nat) (len : Nat), s.img.state ≠ .start ∧ s.flash.touchesLog off len = true) ∧
    -- flashCommandDone_erase
    (∃ (s : State) (c : FlashCmd) (rest : List FlashCmd) (data : List Byte), s.img.flashQueue = c :: rest ∧ s.alive 0 = true ∧ c.status = 0 ∧ c.op = .erase ∧ Sparse.wf 0xFF#8 s.flash.bytes = true) ∧
    -- flashCommandDone_refused
    (∃ (s : State) (c : FlashCmd) (rest : List FlashCmd) (good : Bool) (data : List Byte), s.img.flashQueue = c :: rest ∧ s.alive 0 = true ∧ c.status ≠ 0) :=
  ⟨⟨wr, wt, 4, 5, 0x100000000000000000, by decide +kernel⟩,
   ⟨wr, wt, 4, 0x21, by decide +kernel⟩,
   ⟨wr, wt, 0x55, 4, by decide +kernel⟩,
   ⟨wr, wt, 1, 2, 3, 4, by decide +kernel⟩,
   ⟨wr, wt, 1, 2, 3, by decide +kernel⟩,
   ⟨wr, wt, 1, 2, 3, 4, by decide +kernel⟩,
   ⟨wr, wt, 1, 2, 3, 4, by decide +kernel⟩,
   ⟨{ wr with flash := { wr.flash with density := 0x100000 } }, 0x100000 - 4, 4, by decide +kernel⟩,
   ⟨wr.modImg fun i => { i with flashQueue := [{ op := .erase, tag := 1, off := 0, len := 4096, host := 0, status := 0, taken := 5 }] }, { op := .erase, tag := 1, off := 0, len := 4096, host := 0, status := 0, taken := 5 }, [], [], by decide +kernel⟩,
   ⟨wr.modImg fun i => { i with flashQueue := [{ op := .erase, tag := 1, off := 0, len := 4096, host := 0, status := 8, taken := 5 }] }, { op := .erase, tag := 1, off := 0, len := 4096, host := 0, status := 8, taken := 5 }, [], true, [], by decide +kernel⟩⟩

end Ring

namespace Clk

/-- States and operands that meet the hypotheses of every clause of ReferencesAndClocks. -/
theorem wit_ReferencesAndClocks :
    -- refLossDetect_active
    (∃ (s : State) (b : BayNo) (c : Cand) (t0 : Stamp) (silent : Bool), s.alive b = true ∧ s.candExists c = true ∧ (s.bay b).clk.present[c] = true ∧ s.reports b = true ∧ s.sel.active = some c ∧ s.sel.state = .locked) ∧
    -- refDeglitchEnd_switch
    (∃ (s : State) (resumed : Bool) (c : Cand) (l : Cand), s.sel.state = .deglitch ∧ s.sel.lost = some l ∧ s.chooseCand s.sel.prio (if resumed then some l else none) = some c) ∧
    -- refDeglitchEnd_holdover
    (∃ (s : State) (l : Cand), s.sel.state = .deglitch ∧ s.sel.lost = some l ∧ s.chooseCand s.sel.prio none = none) ∧
    -- buildOutEnd_done
    (∃ (s : State) (phase : Int), s.sel.state = .buildOut) ∧
    -- pullInDone_locked
    (∃ (s : State) (freq : Int), s.sel.state = .pullIn ∧ s.pkgN Fld.clkRevertive = 0) ∧
    -- refQualified_bay
    (∃ (s : State) (b : BayNo) (c : Cand) (off : Int), s.alive b = true ∧ s.candReaches b c = true ∧ s.candWithin off = true ∧ (s.bay b).clk.qualified[c] = false ∧ (s.bay 0).clk.qualified[c] = false ∧ b ≠ 0) ∧
    -- refQualified_holdover
    (∃ (s : State) (c : Cand) (off : Int), s.alive 0 = true ∧ s.candReaches 0 c = true ∧ s.candWithin off = true ∧ (s.bay 0).clk.qualified[c] = false ∧ ((∀ d : BayNo, d ≠ 0 → (s.bay d).clk.lostCand[c] = none)) ∧ s.sel.state = .holdover ∧ c ∈ prioList s.sel.prio) ∧
    -- refDisqualified_done
    (∃ (s : State) (b : BayNo) (c : Cand) (off : Int), s.alive b = true ∧ s.candReaches b c = true ∧ s.candWithin off = false) ∧
    -- clkSysrefFire_done
    (∃ (s : State) (b : BayNo), s.alive b = true ∧ (s.bay b).clk.gated = false ∧ s.fldN Fld.clkSysrefMode b = 2) ∧
    -- clkFaultCntRead_clears
    (∃ (s : State) (b : BayNo), s.alive b = true) ∧
    -- spllLolClear_done
    (∃ (s : State) (b : BayNo), s.alive b = true) ∧
    -- spllStuckTimeout_told
    (∃ (s : State) (b : BayNo), s.alive b = true ∧ (s.bay b).clk.unlockEpisode = true ∧ (s.bay b).clk.stuckTold = false) :=
  ⟨⟨(wb fun y => { y with clk := { y.clk with present := Vector.replicate 4 true } }).modSel fun x => { x with state := .locked, active := some 1 }, 0, 1, 7, true, by decide +kernel⟩,
   ⟨(wb fun y => { y with clk := { y.clk with qualified := Vector.replicate 4 true } }).modSel fun x => { x with state := .deglitch, lost := some 1, prio := 0x0123 }, false, (((wb fun y => { y with clk := { y.clk with qualified := Vector.replicate 4 true } }).chooseCand 0x0123 none).getD 0), 1, by decide +kernel⟩,
   ⟨w.modSel fun x => { x with state := .deglitch, lost := some 1 }, 1, by decide +kernel⟩,
   ⟨w.modSel fun x => { x with state := .buildOut }, 5, by decide +kernel⟩,
   ⟨(w.setFld Fld.clkRevertive 0 0 0).modSel fun x => { x with state := .pullIn, target := some 2 }, 9, by decide +kernel⟩,
   ⟨w, 3, 1, -4, by decide +kernel⟩,
   ⟨w.modSel fun x => { x with state := .holdover, prio := 0x0123 }, ((prioList 0x0123).headD 0), 3, by decide +kernel⟩,
   ⟨w, 0, 2, 80000000, by decide +kernel⟩,
   ⟨(wb fun y => { y with clk := { y.clk with gated := false } }).setFld Fld.clkSysrefMode 0 0 2, 0, by decide +kernel⟩,
   ⟨w, 0, by decide +kernel⟩,
   ⟨w, 0, by decide +kernel⟩,
   ⟨wb fun y => { y with clk := { y.clk with unlockEpisode := true } }, 0, by decide +kernel⟩⟩

end Clk

namespace Tbs

/-- Package 1 of a shoal of four, with both external links up. -/
def fo : State :=
  let u := (w.setFld Fld.lnlShoalSize 0 0 4).setFld Fld.lnlPackage 0 0 1
  ({ u with lnl := { u.lnl with ext := u.lnl.ext.map fun x => { x with port := { x.port with up := true } } } } : State).modTbs 0 fun x => { x with set := true }

/-- A leader's time. -/
def lt : LeaderTime :=
  { stamp := 9000, rate := 5, grid := { Grid.reset with running := true, number := 4 }, tens := 100, window := 0, syncPackage := 0, step := none, restarting := false }

/-- A package whose headland's time is set, with PPS_IN as its source. -/
def wp : State := (wb fun y => { y with tbs := { y.tbs with set := true } }).setFld Fld.tbsDiscipline 0 0 1

/-- Its servo is LOCKED. -/
def wpl : State := wp.modServo fun d => { d with state := .locked, rejects := 2 }

/-- Its grid looks for an edge of SYNC_IN. -/
def wg : State := wp.modGrid fun g => { g with running := true, window := 9 }

theorem far_nat (a b : Nat) (h : b = (a + 4611686018427387904) % 79228162514264337593543950336) (_ : a < 79228162514264337593543950336) :
    18446744073709552 < (if 2 * (a % 18446744073709551616) ≥ 18446744073709551616 then ((a % 18446744073709551616 : Nat) : Int) - 18446744073709551616 else ((a % 18446744073709551616 : Nat) : Int)).natAbs ∨
    18446744073709552 < (if 2 * (b % 18446744073709551616) ≥ 18446744073709551616 then ((b % 18446744073709551616 : Nat) : Int) - 18446744073709551616 else ((b % 18446744073709551616 : Nat) : Int)).natAbs := by
  split <;> split <;> omega
theorem offsetFromSecond_nat (y : Stamp) : offsetFromSecond y =
    (if 2 * (y.toNat % 18446744073709551616) ≥ 18446744073709551616 then ((y.toNat % 18446744073709551616 : Nat) : Int) - 18446744073709551616 else ((y.toNat % 18446744073709551616 : Nat) : Int)) := by
  have h : unitsPerSec = 18446744073709551616 := by decide +kernel
  unfold offsetFromSecond; rw [h]; rfl
/-- Of two stamps a quarter of a second apart one is more than 1 ms from a whole second. -/
theorem far_or_far (y : Stamp) : (offsetFromSecond y).natAbs > ofMs 1 ∨ (offsetFromSecond (y + 0x4000000000000000)).natAbs > ofMs 1 := by
  have h : ofMs 1 = 18446744073709552 := by decide +kernel
  rw [h, offsetFromSecond_nat, offsetFromSecond_nat]
  exact far_nat _ _ (by rw [BitVec.toNat_add]; rfl) y.isLt

theorem tdc_wp (t : Stamp) : wp.tdcEdge 0 1 t true = (some (wp.pinStamp 0 1 t), (wp.tdcEdge 0 1 t true).2) := by rfl
theorem tdc_wpl (t : Stamp) : wpl.tdcEdge 0 1 t true = (some (wpl.pinStamp 0 1 t), (wpl.tdcEdge 0 1 t true).2) := by rfl
theorem tdc_wg (t : Stamp) : wg.tdcEdge 0 0 t true = (some (wg.pinStamp 0 0 t), (wg.tdcEdge 0 0 t true).2) := by rfl
theorem pin_wpl0 : moved (wpl.pinStamp 0 1 0) (-(quarterPs (wpl.fld Fld.tbsPpsDelay 0))) = 0#96 - BitVec.ofNat 96 (Config.pinDelay 0 1) := by
  have h : quarterPs (wpl.fld Fld.tbsPpsDelay 0) = 0 := by decide +kernel
  rw [h]; exact BitVec.add_zero _
theorem pin_wpl1 : moved (wpl.pinStamp 0 1 0x4000000000000000) (-(quarterPs (wpl.fld Fld.tbsPpsDelay 0))) =
    0#96 - BitVec.ofNat 96 (Config.pinDelay 0 1) + 0x4000000000000000 := by
  have h : quarterPs (wpl.fld Fld.tbsPpsDelay 0) = 0 := by decide +kernel
  rw [h]; refine (BitVec.add_zero _).trans ?_
  rw [show wpl.pinStamp 0 1 0x4000000000000000 = 0x4000000000000000 - BitVec.ofNat 96 (Config.pinDelay 0 1) from rfl, BitVec.sub_eq_add_neg,
    BitVec.sub_eq_add_neg, BitVec.zero_add, BitVec.add_comm]

/-- States and operands that meet the hypotheses of every clause of EdgesOfTheGrid. -/
theorem wit_EdgesOfTheGrid :
    -- tdcEdge_stamps
    (∃ (s : State) (b : BayNo) (p : Fin 5) (a : Stamp), s.alive b = true ∧ s.pinned b = true ∧ (s.bay b).tbs.set = true ∧ (((s.bay b).tbs.lastEdge[p].all fun l => !decide (stampDiff a l < (ofNs 50 : Nat))) = true)) ∧
    -- tdcEdge_short
    (∃ (s : State) (b : BayNo) (p : Fin 4) (a : Stamp), s.alive b = true ∧ s.pinned b = true ∧ (s.bay b).tbs.set = true) ∧
    -- syncInEdge_done
    (∃ (s : State) (s1 : State) (a : Stamp) (u : Stamp) (long : Bool), s.tdcEdge 0 0 a long = (some u, s1) ∧ s.pkgN Fld.lnlShoalSize ≤ 1 ∧ s.tbs.grid.running = true ∧ s.tbs.grid.window ≠ 0) ∧
    -- onEdge_search
    (∃ (g : Grid) (a : Stamp) (rough : Bool), g.locked = false ∧ g.past = none ∧ g.edge = none ∧ stampLe (moved g.next (-(g.window : Int))) a = true ∧ stampLt a g.next = true ∧ stampDiff a g.start ≥ (ofUs 1 : Nat)) ∧
    -- onEdge_late
    (∃ (g : Grid) (a : Stamp) (b : Stamp) (rough : Bool), g.locked = false ∧ g.past = some b ∧ stampLe b a = true ∧ stampLe a (later b g.window) = true) ∧
    -- onEdge_locked
    (∃ (g : Grid) (a : Stamp) (rough : Bool), g.locked = true ∧ g.edge = none ∧ stampLe (moved g.next (-(g.window : Int))) a = true ∧ stampLe a (later g.next g.window) = true ∧ stampDiff a g.start ≥ (ofUs 1 : Nat)) ∧
    -- onEdge_ignored
    (∃ (g : Grid) (a : Stamp) (rough : Bool), g.past = none ∧ stampLe (moved g.next (-(g.window : Int))) a = false) ∧
    -- syncWindowEnd_missed
    (∃ (s : State), s.tbs.grid.running = true ∧ s.tbs.grid.window ≠ 0 ∧ s.tbs.grid.locked = true ∧ s.tbs.grid.edge = none) :=
  ⟨⟨wb fun y => { y with tbs := { y.tbs with set := true } }, 0, 1, 5, by decide +kernel⟩,
   ⟨wb fun y => { y with tbs := { y.tbs with set := true } }, 0, 1, 5, by decide +kernel⟩,
   ⟨wg, _, 5, _, true, tdc_wg 5, by decide +kernel⟩,
   ⟨{ Grid.reset with next := 0x20000000000000, window := 10000 }, 0x20000000000000 - 5, false, by decide +kernel⟩,
   ⟨{ Grid.reset with next := 0x20000000000000, window := 10000, past := some 900, tens := 77 }, 905, 900, true, by decide +kernel⟩,
   ⟨{ Grid.reset with next := 0x20000000000000, window := 10000, locked := true }, 0x20000000000000 + 5, false, by decide +kernel⟩,
   ⟨{ Grid.reset with next := 0x20000000000000, window := 10000, locked := true }, 5, true, by decide +kernel⟩,
   ⟨w.modGrid fun g => { g with running := true, window := 9, locked := true }, by decide +kernel⟩⟩

/-- States and operands that meet the hypotheses of every clause of TimeServo. -/
theorem wit_TimeServo :
    -- ppsEdge_offset
    (∃ (s : State) (s1 : State) (a : Stamp) (u : Stamp) (long : Bool), s.tdcEdge 0 1 a long = (some u, s1) ∧ s.packageNo = 0 ∧ s.pkgN Fld.tbsDiscipline = 1 ∧ s.tbs.servo.state ≠ .locked) ∧
    -- servoHoldoverTimeout_done
    (∃ (s : State), s.tbs.servo.state = .locked) ∧
    -- linkDelayMeasure_done
    (∃ (s : State) (b : BayNo) (p : Fin 5) (d : Nat) (lead : Option LeaderTime), s.isUp b p = true ∧ ((p.val < 3 ∨ s.pkgN Fld.lnlShoalSize ≤ 1))) ∧
    -- linkDelayMeasure_follows
    (∃ (s : State) (b : BayNo) (b' : BayNo) (n : Fin 2) (d : Nat) (l : LeaderTime), s.isUp b ⟨n.val + 3, by omega⟩ = true ∧ s.upstream = some n ∧ s.alive 0 = true ∧ (s.bay 0).tbs.set = true ∧ (s.bay 0).tbs.islanded = false ∧ (s.bay 0).tbs.source ≠ .leader ∧ s.tbs.adopted = false ∧ s.tbs.away = none ∧ l.restarting = false ∧ s.alive b' = true ∧ (s.bay b').tbs.islanded = false) ∧
    -- linkDelayMeasure_sends
    (∃ (s : State) (b : BayNo) (n : Fin 2) (d : Nat) (lead : Option LeaderTime), s.isUp b ⟨n.val + 3, by omega⟩ = true ∧ s.pkgN Fld.lnlShoalSize > 1 ∧ s.upstream ≠ some n ∧ ((s.packageNo = 0 ∨ s.tbs.adopted = true))) ∧
    -- upstream_ring
    (∃ (s : State), s.pkgN Fld.lnlShoalSize > 1 ∧ s.packageNo ≠ 0 ∧ s.lnl.ext[(0 : Fin 2)].port.up = true ∧ s.lnl.ext[(1 : Fin 2)].port.up = true ∧ s.lnl.cuts = []) ∧
    -- upstream_chain
    (∃ (s : State), s.pkgN Fld.lnlShoalSize > 1 ∧ s.packageNo ≠ 0 ∧ s.lnl.ext[(0 : Fin 2)].port.up = true ∧ s.lnl.ext[(1 : Fin 2)].port.up = false ∧ s.lnl.cuts = []) ∧
    -- tbsNowRead_done
    (∃ (s : State) (b : BayNo), s.alive b = true) ∧
    -- tbsEdgeLostRead_done
    (∃ (s : State) (b : BayNo), s.alive b = true) ∧
    -- snapshotTake_done
    (∃ (s : State) (a : Stamp) (id : Word) (rest : List (Stamp × Word)) (b : BayNo), s.tbs.snaps = (a, id) :: rest ∧ s.alive b = true) ∧
    -- snapshotTake_remote
    (∃ (s : State) (a : Stamp) (id : Word) (b : BayNo), s.pkgN Fld.lnlShoalSize > 1 ∧ s.alive 0 = true ∧ s.alive b = true) :=
  ⟨⟨wp, _, 5, _, true, tdc_wp 5, by decide +kernel⟩,
   ⟨w.modServo fun d => { d with state := .locked }, by decide +kernel⟩,
   ⟨w.modPortL 2 1 fun x => { x with up := true }, 2, 1, 77, none, by decide +kernel⟩,
   ⟨fo, 0, 2, 1, 77, lt, by decide +kernel⟩,
   ⟨fo.modTbsPkg fun y => { y with adopted := true }, 0, 0, 77, none, by decide +kernel⟩,
   ⟨fo, by decide +kernel⟩,
   ⟨{ fo with lnl := { fo.lnl with ext := fo.lnl.ext.set 1 { fo.lnl.ext[1] with port := { fo.lnl.ext[1].port with up := false } } } }, by decide +kernel⟩,
   ⟨w, 2, by decide +kernel⟩,
   ⟨w, 2, by decide +kernel⟩,
   ⟨w.modTbsPkg fun y => { y with snaps := [(5, 6), (7, 8)] }, 5, 6, [(7, 8)], 3, by decide +kernel⟩,
   ⟨fo, 5, 6, 3, by decide +kernel⟩⟩

/-- States and operands that meet the hypotheses of every clause of PpsRejection. -/
theorem wit_PpsRejection :
    -- ppsEdge_rejected
    (∃ (s : State) (s1 : State) (a : Stamp) (u : Stamp) (long : Bool), s.tdcEdge 0 1 a long = (some u, s1) ∧ s.packageNo = 0 ∧ ((s.pkgN Fld.tbsDiscipline = 1 ∨ s.pkgN Fld.tbsDiscipline = 3)) ∧ s.tbs.servo.state = .locked ∧ (offsetFromSecond (moved u (-(quarterPs (s.fld Fld.tbsPpsDelay 0))))).natAbs > ofMs 1) ∧
    -- ppsEdge_consecutive
    (∃ (s : State) (s1 : State) (a : Stamp) (u : Stamp) (long : Bool), s.tdcEdge 0 1 a long = (some u, s1) ∧ s.packageNo = 0 ∧ ((s.pkgN Fld.tbsDiscipline = 1 ∨ s.pkgN Fld.tbsDiscipline = 3)) ∧ ((s.tbs.servo.state ≠ .locked ∨ (offsetFromSecond (moved u (-(quarterPs (s.fld Fld.tbsPpsDelay 0))))).natAbs ≤ ofMs 1))) :=
  ⟨by
     rcases far_or_far (0#96 - BitVec.ofNat 96 (Config.pinDelay 0 1)) with h | h
     · exact ⟨wpl, _, 0, _, true, tdc_wpl 0, by decide +kernel, .inl (by decide +kernel), by decide +kernel, by rw [pin_wpl0]; exact h⟩
     · exact ⟨wpl, _, 0x4000000000000000, _, true, tdc_wpl _, by decide +kernel, .inl (by decide +kernel), by decide +kernel, by rw [pin_wpl1]; exact h⟩,
   ⟨wp, _, 5, _, true, tdc_wp 5, by decide +kernel, .inl (by decide +kernel), .inl (by decide +kernel)⟩⟩

end Tbs

namespace Acq

/-- The bay stands in a restart. -/
def wrs : State := wb fun y => { y with clk := { y.clk with restarting := true, spllLock := true, cpllLock := true }, tbs := { y.tbs with set := true } }
/-- The grid of the package runs. -/
def wgr : State := ((wb fun y => { y with tbs := { y.tbs with set := true } }).modGrid fun g => { g with running := true, next := 0x20000000000000, len := 1000, number := 41 }).setFld Fld.tbsEpochLen 0 0 1000
/-- A window code waits for the hop of channel 0. -/
def whop : State := (w.setFld Fld.xfmChEn 0 0 0).modImg fun i => { i with waiting := [.value { block := Fld.xfmChWindow.block, mask := 1, id := Fld.xfmChWindow.id } 1 3 .hop 0 false false] }
/-- An island of bays 0 and 3 whose time holder is bay 3. -/
def isl : Isle := { bays := 9, holder := 3, holderPackage := 0, packages := 0, since := 0, gridFrom := 0, gridAt := 0 }
def wis : State := wgr.modBay 3 fun y => { y with lnl := { y.lnl with island := some isl } }
/-- Input 0 of bay 0 is being calibrated. -/
def wrun : State := (w.modImg fun i => { i with restartReq := 1 }).modBay 0 fun y => { y with cal := y.cal.map fun c => { c with run := some { cause := 1, forced := false, wait := 0, start := 0, tL := 0, passes := [], outcome := none, pair := none, combDone := false, combPass := false, again := false } } }

/-- States and operands that meet the hypotheses of every clause of HopsRestartsAndLock. -/
theorem wit_HopsRestartsAndLock :
    -- hopBoundary_takes
    (∃ (s : State) (b : BayNo) (x : Fin 2) (t0 : Stamp), s.alive b = true ∧ stampLt t0 s.now = false ∧ (s.bay b).clk.restarting = false ∧ ((s.transforms b x = true → s.frameStartsAt b x t0 = true)) ∧ s.img.state = .run) ∧
    -- hopBoundary_window
    (∃ (s : State) (b : BayNo) (x : Fin 2) (t0 : Stamp) (v : Int) (p : Stamp), s.alive b = true ∧ stampLt t0 s.now = false ∧ (s.bay b).clk.restarting = false ∧ ((s.transforms b x = true → s.frameStartsAt b x t0 = true)) ∧ s.img.state = .run ∧ s.img.waiting = [.value { block := Fld.xfmChWindow.block, id := Fld.xfmChWindow.id + Fld.xfmChWindow.stride * x.val, mask := 2 ^ b.val } (2 ^ b.val) v .hop p false false]) ∧
    -- acqRestartBegin_begins
    (∃ (s : State) (b : BayNo), s.alive b = true ∧ s.restartAsked b = true ∧ (s.bay b).clk.restarting = false ∧ (s.calIn b 0).run = none ∧ (s.calIn b 1).run = none ∧ s.img.state = .run ∧ s.quiet = false ∧ (s.bay b).tbs.islanded = false) ∧
    -- acqRestartBegin_waits
    (∃ (s : State) (b : BayNo) (x : Fin 2), (s.calIn b x).run.isSome = true) ∧
    -- acqRestartEnd_done
    (∃ (s : State) (b : BayNo) (t0 : Stamp), s.alive b = true ∧ (s.bay b).clk.restarting = true ∧ (s.bay b).clk.gated = false ∧ stampLt t0 s.now = false) ∧
    -- spllLossOfLock_first
    (∃ (s : State) (b : BayNo) (t0 : Stamp), s.alive b = true ∧ (s.bay b).clk.spllLock = true ∧ (s.bay b).clk.unlockEpisode = false) ∧
    -- spllLossOfLock_again
    (∃ (s : State) (b : BayNo) (t0 : Stamp), s.alive b = true ∧ (s.bay b).clk.unlockEpisode = true) ∧
    -- spllRelock_done
    (∃ (s : State) (b : BayNo) (t0 : Stamp), s.alive b = true ∧ (s.bay b).clk.unlockEpisode = true ∧ stampLt t0 s.now = false) ∧
    -- cpllLossOfLock_lost
    (∃ (s : State) (b : BayNo), s.alive b = true ∧ (s.bay b).clk.cpllLock = true) :=
  ⟨⟨whop, 0, 0, 0x10000000000000, by decide +kernel⟩,
   ⟨whop, 0, 0, 0x10000000000000, 3, 0, by decide +kernel⟩,
   ⟨w.modImg fun i => { i with restartReq := 1 }, 0, by decide +kernel⟩,
   ⟨wrun, 0, 0, by decide +kernel⟩,
   ⟨wrs, 0, 0x10000000000000, by decide +kernel⟩,
   ⟨wrs, 0, 0x10000000000000, by decide +kernel⟩,
   ⟨wb fun y => { y with clk := { y.clk with unlockEpisode := true } }, 0, 5, by decide +kernel⟩,
   ⟨wb fun y => { y with clk := { y.clk with unlockEpisode := true, gated := true } }, 0, 0x10000000000000, by decide +kernel⟩,
   ⟨wrs, 0, by decide +kernel⟩⟩

/-- States and operands that meet the hypotheses of every clause of EpochBoundaries. -/
theorem wit_EpochBoundaries :
    -- epochBoundary_main
    (∃ (s : State) (t0 : Stamp), s.alive 0 = true ∧ s.tbs.grid.running = true ∧ (s.bay 0).lnl.island = none ∧ s.tbs.grid.due = some t0 ∧ (s.reach t0).tbs.servo.step = none) ∧
    -- epochBoundary_islanded
    (∃ (s : State) (t0 : Stamp) (b : BayNo), s.alive 0 = true ∧ s.tbs.grid.running = true ∧ (s.bay 0).lnl.island = none ∧ s.tbs.grid.due = some t0 ∧ (s.bay b).tbs.islanded = true) ∧
    -- epochBoundary_held
    (∃ (s : State), (s.bay 0).lnl.island = none ∧ s.tbs.grid.locked = true ∧ s.tbs.grid.window ≠ 0 ∧ s.tbs.grid.edge = none) ∧
    -- epochBoundary_island
    (∃ (s : State) (h : BayNo) (i : Isle), s.alive h = true ∧ s.tbs.grid.running = true ∧ (s.bay h).lnl.island = some i ∧ i.holder = h) :=
  ⟨⟨wgr, 0x20000000000000, by decide +kernel⟩,
   ⟨wgr.modBay 3 fun y => { y with tbs := { y.tbs with islanded := true } }, 0x20000000000000, 3, by decide +kernel⟩,
   ⟨wgr.modGrid fun g => { g with locked := true, window := 5 }, by decide +kernel⟩,
   ⟨wis, 3, isl, by decide +kernel⟩⟩

end Acq

namespace Afe

/-- The converters of bay 3 are in state `c`. -/
def wb3 (c : Adc) : State := w.modBay 3 fun y => { y with adc := Vector.replicate 2 c }

/-- States and operands that meet the hypotheses of every clause of FrontEnd. -/
theorem wit_FrontEnd :
    -- overloadTrip_opens
    (∃ (s : State) (b : BayNo) (i : Fin 2) (a : Stamp) (v : Int) (n : Nat), s.frontWorks b i = true ∧ (s.bay b).clk.gated = false ∧ stampLt a s.now = false ∧ ((s.ovlLevel b < v ∨ n ≠ 0)) ∧ (s.bay b).afe.inputs[i].overload = false ∧ s.fldN Fld.afeAutoMode b = 0) ∧
    -- overloadTrip_opens
    (∃ (s : State) (b : BayNo) (i : Fin 2) (a : Stamp) (v : Int) (n : Nat), s.frontWorks b i = true ∧ (s.bay b).clk.gated = false ∧ stampLt a s.now = false ∧ ((s.ovlLevel b < v ∨ n ≠ 0)) ∧ (s.bay b).afe.inputs[i].overload = false ∧ s.fldN Fld.afeAutoMode b = 0) ∧
    -- overloadTrip_step
    (∃ (s : State) (b : BayNo) (i : Fin 2) (a : Stamp) (v : Int) (n : Nat), s.frontWorks b i = true ∧ stampLt a s.now = false ∧ ((s.ovlLevel b < v ∨ n ≠ 0)) ∧ s.fldN Fld.afeAutoMode b ≠ 0 ∧ s.autoHeld b i = false ∧ (s.bay b).afe.inputs[i].settled = true ∧ (s.bay b).afe.inputs[i].step < s.fldN Fld.afeAutoMax b) ∧
    -- overloadTrip_unsettled
    (∃ (s : State) (b : BayNo) (i : Fin 2) (a : Stamp) (v : Int) (n : Nat), s.frontWorks b i = true ∧ (s.bay b).clk.gated = false ∧ stampLt a s.now = false ∧ ((s.ovlLevel b < v ∨ n ≠ 0)) ∧ (s.bay b).afe.inputs[i].settled = false) ∧
    -- overloadClose_done
    (∃ (s : State) (b : BayNo) (i : Fin 2) (a : Stamp) (o : Stamp) (r : List (Stamp × Option Stamp)), s.frontWorks b i = true ∧ (s.bay b).afe.inputs[i].overload = true ∧ (s.bay b).afe.inputs[i].intervals = (o, none) :: r ∧ stampLt a (s.bay b).afe.inputs[i].lastTrip = false) ∧
    -- overloadClose_tripped
    (∃ (s : State) (b : BayNo) (i : Fin 2) (a : Stamp), stampLt a (s.bay b).afe.inputs[i].lastTrip = true) ∧
    -- autoStepDown_done
    (∃ (s : State) (b : BayNo) (i : Fin 2) (v : Int), s.frontWorks b i = true ∧ s.fldN Fld.afeAutoMode b = 2 ∧ s.autoHeld b i = false ∧ (s.bay b).afe.inputs[i].overload = false ∧ s.fldN Fld.afeAtten b i.val < (s.bay b).afe.inputs[i].step ∧ v ≤ s.ovlLevel b - (128 * (s.fldN Fld.afeAutoStep b + 3) : Nat)) ∧
    -- attenSettled_done
    (∃ (s : State) (b : BayNo) (i : Fin 2) (v : Int), s.frontWorks b i = true ∧ (s.bay b).afe.inputs[i].settled = false ∧ v ≤ s.ovlLevel b) ∧
    -- attenSettled_again
    (∃ (s : State) (b : BayNo) (i : Fin 2) (v : Int), s.frontWorks b i = true ∧ (s.bay b).afe.inputs[i].settled = false ∧ s.ovlLevel b < v ∧ s.fldN Fld.afeAutoMode b ≠ 0 ∧ s.autoHeld b i = false ∧ (s.bay b).afe.inputs[i].step < s.fldN Fld.afeAutoMax b) ∧
    -- setAtten_run
    (∃ (s : State) (b : BayNo) (i : Fin 2) (step : Nat) (trim : Nat) (cause : Nat) (auto : Bool) (a : Stamp), (s.bay b).ddc[rfPort i].delivers = true ∧ (s.bay b).ddc[rfPort i].runs = []) :=
  ⟨⟨w, 2, 1, 77, 5, 0, by decide +kernel⟩,
   ⟨w, 2, 1, 77, -9000, 3, by decide +kernel⟩,
   ⟨((wb fun y => { y with afe := { y.afe with inputs := Vector.replicate 2 { AfeIn.reset with step := 3 } } }).setFld Fld.afeAutoMode 0 0 1).setFld Fld.afeAutoStep 0 0 4, 0, 1, 77, 5, 0, by decide +kernel⟩,
   ⟨(wb fun y => { y with afe := { y.afe with inputs := Vector.replicate 2 { AfeIn.reset with step := 3, settled := false } } }).setFld Fld.afeAutoMode 0 0 1, 0, 1, 77, 5, 1, by decide +kernel⟩,
   ⟨wb fun y => { y with afe := { y.afe with inputs := Vector.replicate 2 { AfeIn.reset with overload := true, intervals := [(5, none), (2, some 3)] } } }, 0, 1, 77, 5, [(2, some 3)], by decide +kernel⟩,
   ⟨wb fun y => { y with afe := { y.afe with inputs := Vector.replicate 2 { AfeIn.reset with overload := true, lastTrip := 9 } } }, 0, 1, 7, by decide +kernel⟩,
   ⟨(w.setFld Fld.afeAutoMode 0 0 2).setFld Fld.afeAtten 0 1 28, 0, 1, -9000, by decide +kernel⟩,
   ⟨wb fun y => { y with afe := { y.afe with inputs := Vector.replicate 2 { AfeIn.reset with settled := false } } }, 0, 1, -9000, by decide +kernel⟩,
   ⟨((wb fun y => { y with afe := { y.afe with inputs := Vector.replicate 2 { AfeIn.reset with step := 3, settled := false, overload := true } } }).setFld Fld.afeAutoMode 0 0 1).setFld Fld.afeAutoStep 0 0 4, 0, 1, 50, by decide +kernel⟩,
   ⟨wb fun y => { y with ddc := Vector.replicate 4 { DdcPort.reset with active := true, paused := false } }, 0, 1, 4, 0, 1, false, 0x200000000000000, by decide +kernel⟩⟩

/-- States and operands that meet the hypotheses of every clause of SliceRotation. -/
theorem wit_SliceRotation :
    -- sliceCalDone_done
    (∃ (s : State) (b : BayNo) (i : Fin 2) (est : SliceCoef) (pw : Int) (x : Slice) (from_ : Stamp), (s.bay b).adc[i].spare = some x ∧ (s.bay b).adc[i].incoming = none ∧ (s.bay b).adc[i].calFrom = some from_ ∧ s.rotationPaused b i = false) ∧
    -- sliceCalDone_done
    (∃ (s : State) (b : BayNo) (i : Fin 2) (est : SliceCoef) (pw : Int) (x : Slice) (from_ : Stamp), (s.bay b).adc[i].spare = some x ∧ (s.bay b).adc[i].incoming = none ∧ (s.bay b).adc[i].calFrom = some from_ ∧ s.rotationPaused b i = false) ∧
    -- swapCompare_swaps
    (∃ (s : State) (b : BayNo) (i : Fin 2) (sum : Int) (sq : Nat) (x : Slice) (y : Slice), (s.bay b).adc[i].incoming = some x ∧ (s.bay b).adc[i].oldest = some y ∧ s.rotationPaused b i = false ∧ (s.bay b).afe.inputs[i].intervals = [] ∧ (s.bay b).afe.inputs[i].settled = true ∧ stampLt (moved (s.nowAt b) (-((64 * s.slotPeriod : Nat) : Int))) (later (s.bay b).afe.inputs[i].changedAt (ofNs 50)) = false ∧ sum.natAbs ≤ 4 * s.fldN Fld.adcSwapTolOfs b ∧ 4 * sq ≤ s.fldN Fld.adcSwapTolRms b * s.fldN Fld.adcSwapTolRms b) ∧
    -- swapCompare_waits
    (∃ (s : State) (b : BayNo) (i : Fin 2) (sum : Int) (sq : Nat) (x : Slice) (y : Slice), (s.bay b).adc[i].incoming = some x ∧ (s.bay b).adc[i].oldest = some y ∧ s.rotationPaused b i = false ∧ (s.bay b).afe.inputs[i].settled = false) ∧
    -- swapCompare_aborts
    (∃ (s : State) (b : BayNo) (i : Fin 2) (sum : Int) (sq : Nat) (x : Slice) (y : Slice), (s.bay b).adc[i].incoming = some x ∧ (s.bay b).adc[i].oldest = some y ∧ s.rotationPaused b i = false ∧ (s.bay b).afe.inputs[i].intervals = [] ∧ (s.bay b).afe.inputs[i].settled = true ∧ stampLt (moved (s.nowAt b) (-((64 * s.slotPeriod : Nat) : Int))) (later (s.bay b).afe.inputs[i].changedAt (ofNs 50)) = false ∧ 4 * s.fldN Fld.adcSwapTolOfs b < sum.natAbs) ∧
    -- swapCompare_aborts
    (∃ (s : State) (b : BayNo) (i : Fin 2) (sum : Int) (sq : Nat) (x : Slice) (y : Slice), (s.bay b).adc[i].incoming = some x ∧ (s.bay b).adc[i].oldest = some y ∧ s.rotationPaused b i = false ∧ (s.bay b).afe.inputs[i].intervals = [] ∧ (s.bay b).afe.inputs[i].settled = true ∧ stampLt (moved (s.nowAt b) (-((64 * s.slotPeriod : Nat) : Int))) (later (s.bay b).afe.inputs[i].changedAt (ofNs 50)) = false ∧ 4 * s.fldN Fld.adcSwapTolOfs b < sum.natAbs) :=
  ⟨⟨wb3 { Adc.reset with calFrom := some 4 }, 3, 0, SliceCoef.zero, -9000, 16, 4, by decide +kernel⟩,
   ⟨wb3 { Adc.reset with calFrom := some 4 }, 3, 1, { offset := 1, gain := 2, skew := 3, bandwidth := 4 }, 0, 16, 4, by decide +kernel⟩,
   ⟨wb fun y => { y with adc := Vector.replicate 2 { Adc.reset with incoming := some 16 }, tbs := { y.tbs with tide := 0x200000000000000000000 } }, 0, 1, 0, 0, 16, 0, by decide +kernel⟩,
   ⟨wb fun y => { y with adc := Vector.replicate 2 { Adc.reset with incoming := some 16 }, afe := { y.afe with inputs := Vector.replicate 2 { AfeIn.reset with settled := false } } }, 0, 1, 0, 0, 16, 0, by decide +kernel⟩,
   ⟨wb fun y => { y with adc := Vector.replicate 2 { Adc.reset with incoming := some 16, aborts := 2 }, tbs := { y.tbs with tide := 0x200000000000000000000 } }, 0, 1, 99999, 0, 16, 0, by decide +kernel⟩,
   ⟨wb fun y => { y with adc := Vector.replicate 2 { Adc.reset with incoming := some 16, aborts := 1 }, tbs := { y.tbs with tide := 0x200000000000000000000 } }, 0, 1, 99999, 0, 16, 0, by decide +kernel⟩⟩

end Afe

namespace Ddc

/-- States and operands that meet the hypotheses of every clause of StreamsAndDensity. -/
theorem wit_StreamsAndDensity :
    -- xsStreamStop_done
    (∃ (s : State) (b : BayNo) (x : Fin 2) (a : Stamp) (loss : Bool), s.alive b = true ∧ (s.bay b).ddc[xsPort x].aligned = true ∧ (s.bay b).ddc[xsPort x].stopped = none ∧ s.replayed b (xsPort x) = false ∧ (s.bay b).ddc[xsPort x].active = false) ∧
    -- xsStreamStop_done
    (∃ (s : State) (b : BayNo) (x : Fin 2) (a : Stamp) (loss : Bool), s.alive b = true ∧ (s.bay b).ddc[xsPort x].aligned = true ∧ (s.bay b).ddc[xsPort x].stopped = none ∧ s.replayed b (xsPort x) = false ∧ (s.bay b).ddc[xsPort x].active = false) ∧
    -- xsStreamStop_feeds
    (∃ (s : State) (b : BayNo) (x : Fin 2) (a : Stamp) (loss : Bool), s.alive b = true ∧ (s.bay b).ddc[xsPort x].aligned = true ∧ (s.bay b).ddc[xsPort x].stopped = none ∧ s.replayed b (xsPort x) = false ∧ (s.bay b).ddc[xsPort x].active = true) ∧
    -- xsStreamResume_done
    (∃ (s : State) (b : BayNo) (x : Fin 2) (a : Stamp) (n : Nat) (z : StreamStop), s.alive b = true ∧ (s.bay b).ddc[xsPort x].aligned = true ∧ (s.bay b).ddc[xsPort x].stopped = some z ∧ z.replay = false ∧ stampLt (s.planeStamp b (xsPort x) a) z.tL = false) ∧
    -- xsStreamResume_done
    (∃ (s : State) (b : BayNo) (x : Fin 2) (a : Stamp) (n : Nat) (z : StreamStop), s.alive b = true ∧ (s.bay b).ddc[xsPort x].aligned = true ∧ (s.bay b).ddc[xsPort x].stopped = some z ∧ z.replay = false ∧ stampLt (s.planeStamp b (xsPort x) a) z.tL = false) ∧
    -- place_inside
    (∃ (f : FrameInfo) (v : Int) (c : Nat) (r : Nat), r < 512 ∧ 0 < f.rowStep ∧ f.floor + r * f.rowStep ≤ v ∧ v < f.floor + (r + 1) * f.rowStep) ∧
    -- place_below
    (∃ (f : FrameInfo) (v : Int) (c : Nat), 0 < f.rowStep) ∧
    -- place_below
    (∃ (f : FrameInfo) (v : Int) (c : Nat), 0 < f.rowStep) ∧
    -- count_excluded
    (∃ (f : FrameInfo) (cs : Sparse Word) (sp : Spec), (sp.settling && !f.useMarked.testBit 0 || sp.truncated && !f.useMarked.testBit 1) = true) ∧
    -- count_column
    (∃ (f : FrameInfo) (cs : Sparse Word) (sp : Spec) (k : Nat), Sparse.wf 0 cs = true) ∧
    -- denBankClose_done
    (∃ (s : State) (b : BayNo) (x : Fin 2) (o : DenOld), s.alive b = true ∧ (s.bay b).den.chans[x].old = some o ∧ o.passing = false) ∧
    -- denPassDone_done
    (∃ (s : State) (b : BayNo) (x : Fin 2) (o : DenOld), s.alive b = true ∧ (s.bay b).den.chans[x].old = some o ∧ o.passing = true) ∧
    -- carryCells_get
    (∃ (old : Sparse Word) (acc : Sparse Word) (sh : Nat) (k : Nat), Sparse.wf 0 old = true ∧ Sparse.wf 0 acc = true) ∧
    -- denClear_done
    (∃ (s : State) (b : BayNo) (m : BitVec 2), s.queueAwake b = true) :=
  ⟨⟨wb fun y => { y with ddc := Vector.replicate 4 { DdcPort.reset with aligned := true } }, 0, 1, 77, true, by decide +kernel⟩,
   ⟨wb fun y => { y with ddc := Vector.replicate 4 { DdcPort.reset with aligned := true } }, 0, 0, 77, false, by decide +kernel⟩,
   ⟨wb fun y => { y with ddc := Vector.replicate 4 { DdcPort.reset with aligned := true, active := true, paused := false } }, 0, 1, 77, true, by decide +kernel⟩,
   ⟨wb fun y => { y with ddc := Vector.replicate 4 { DdcPort.reset with aligned := true, active := true, stopped := some { tL := 5, cause := 1, replay := false } } }, 0, 1, 0x1000000000000000, 3, { tL := 5, cause := 1, replay := false }, by decide +kernel⟩,
   ⟨wb fun y => { y with ddc := Vector.replicate 4 { DdcPort.reset with aligned := true, stopped := some { tL := 5, cause := 1, replay := false } } }, 0, 1, 0x1000000000000000, 3, { tL := 5, cause := 1, replay := false }, by decide +kernel⟩,
   ⟨{ FrameInfo.reset with floor := -14080, rowStep := 32 }, -5286, 3, 274, by decide +kernel⟩,
   ⟨{ FrameInfo.reset with floor := -14080, rowStep := 32 }, -15286, 3, by decide +kernel⟩,
   ⟨{ FrameInfo.reset with floor := -14080, rowStep := 32, clamp := true }, 15286, 3, by decide +kernel⟩,
   ⟨FrameInfo.reset, [], { standIn { since := 0, window := 0, param := 0, preset := 0, ftw := 0, step := 0, trim := 0, port := 0 } 6 0 0 with settling := true }, by decide +kernel⟩,
   ⟨FrameInfo.reset, [], standIn { since := 0, window := 0, param := 0, preset := 0, ftw := 0, step := 0, trim := 0, port := 0 } 6 0 0, 5, by decide +kernel⟩,
   ⟨wb fun y => { y with den := { y.den with chans := Vector.replicate 2 { DenChan.reset with old := some { info := FrameInfo.reset, cells := [], boundary := 100, close := 200, shift := 1, discard := false, passing := false } } } }, 0, 1, { info := FrameInfo.reset, cells := [], boundary := 100, close := 200, shift := 1, discard := false, passing := false }, by decide +kernel⟩,
   ⟨(wb fun y => { y with den := { y.den with chans := Vector.replicate 2 { DenChan.reset with old := some { info := FrameInfo.reset, cells := [(5, 7)], boundary := 100, close := 200, shift := 1, discard := false, passing := true } } } }).setFld Fld.denChEmit 0 1 0, 0, 1, { info := FrameInfo.reset, cells := [(5, 7)], boundary := 100, close := 200, shift := 1, discard := false, passing := true }, by decide +kernel⟩,
   ⟨[(3, 9), (7, 10)], [(7, 2)], 1, 7, by decide +kernel⟩,
   ⟨w, 0, 2, by decide +kernel⟩⟩

end Ddc

namespace Xfm

/-- The settings of a frame, all zero. -/
def cfx : FrameConf := { since := 0, window := 0, param := 0, preset := 0, ftw := 0, step := 0, trim := 0, port := 0 }

/-- A spectrum without content. -/
def spx : Spec := { standIn cfx 6 0 0 with settling := true }

/-- A grid run of 64-sample frames on port 0, its outputs 1/256 s apart. -/
def gx : GridRun := { legs := [{ at_ := 0, port := 0, number := 0 }], frame := 3, resume := 0, cut := none, first := true, n := 6, m := 0, k := 0 }

/-- Outputs from counter time 0 on. -/
def st : Stretch :=
  { born := 0, input := 0, first := 0, start := Exact.of 0 1, step := Exact.of 1 256, ratio := 2, preset := 0, k := 0, afterGap := false }

/-- Channel 1 has a grid run. -/
def wx : State := wb fun y => { y with ddc := Vector.replicate 4 { DdcPort.reset with active := true, paused := false, line := [st] }, xfm := { y.xfm with chans := y.xfm.chans.set 1 { y.xfm.chans[1] with grids := [gx] } } }

/-- A trace interval of one point. -/
def vx : TraceIval :=
  { start := 0, stop := none, detector := 0, points := 1, binFirst := 0, binCount := 4, useMarked := 0, interval := 100, included := 1
    excluded := 0, acc := [{ high := 1, low := 0, last := 0, power := 0, perEnbw := 0, logs := 0, bins := 1 }], last := some spx, mixed := false
    settling := false, truncated := false, overload := false, gap := false }

/-- The input samples of its next frame. -/
def insx : List (List Sample) :=
  gx.pieces.map fun w => List.replicate ((wx.bay 0).ddc[w.1].needs w.2.1 w.2.2).2 { i := 5, q := 6 }

/-- States and operands that meet the hypotheses of every clause of FramesAndTraces. -/
theorem wit_FramesAndTraces :
    -- spectrumReady_done
    (∃ (s : State) (b : BayNo) (x : Fin 2) (ins : List (List Sample)) (g : GridRun) (r : List GridRun), s.alive b = true ∧ (s.bay b).pwr.datapath = true ∧ (s.bay b).xfm.chans[x].grids.dropWhile GridRun.spent = g :: r ∧ s.framesFit b g ins = true) ∧
    -- emitSpec_code
    (∃ (sp : Spec) (i : Int), ((i < -(2 ^ sp.n / 2) ∨ 2 ^ sp.n - 2 ^ sp.n / 2 ≤ i))) ∧
    -- traceIntervalEnd_fixed
    (∃ (s : State) (b : BayNo) (n : Fin 16) (v : TraceIval) (r : List TraceIval) (e : Stamp), s.alive b = true ∧ (s.bay b).xfm.traces[n].ivals = v :: r ∧ v.stop = some e ∧ s.transforms b ⟨n.val / 8, by omega⟩ = true ∧ s.framesPending b ⟨n.val / 8, by omega⟩ e = false) ∧
    -- traceIntervalEnd_rolls
    (∃ (s : State) (b : BayNo) (n : Fin 16) (v : TraceIval) (r : List TraceIval), s.alive b = true ∧ (s.bay b).xfm.traces[n].ivals = v :: r ∧ v.stop = none ∧ v.interval ≠ 0 ∧ s.transforms b ⟨n.val / 8, by omega⟩ = true ∧ s.framesPending b ⟨n.val / 8, by omega⟩ (later v.start (durOf v.interval 100000000)) = false) ∧
    -- tapSlotWritten_done
    (∃ (s : State) (b : BayNo) (c : CoreNo), s.alive b = true ∧ (s.bay b).xfm.taps[c].writing = true ∧ s.fldN Fld.xfmTapBase b c.val % 4 = 0 ∧ s.fldN Fld.xfmTapBase b c.val < 131072) :=
  ⟨⟨wx, 0, 1, insx, gx, [], by decide +kernel⟩,
   ⟨{ standIn { since := 0, window := 0, param := 0, preset := 0, ftw := 0, step := 0, trim := 0, port := 0 } 6 0 0 with settling := true }, 32, by decide +kernel⟩,
   ⟨wb fun y => { y with xfm := { y.xfm with traces := y.xfm.traces.set 3 { y.xfm.traces[3] with ivals := [{ vx with stop := some 99 }] } } }, 0, 3, { vx with stop := some 99 }, [], 99, by decide +kernel⟩,
   ⟨wb fun y => { y with xfm := { y.xfm with traces := y.xfm.traces.set 3 { y.xfm.traces[3] with ivals := [vx] } } }, 0, 3, vx, [], by decide +kernel⟩,
   ⟨wb fun y => { y with xfm := { y.xfm with taps := Vector.replicate 8 { Tap.reset with writing := true } } }, 0, 3, by decide +kernel⟩⟩

end Xfm

namespace Trg

/-- Outputs from counter time 0 on, 1/256 s apart, two input samples each. -/
def st : Stretch :=
  { born := 0, input := 0, first := 0, start := Exact.of 0 1, step := Exact.of 1 256, ratio := 2, preset := 0, k := 0, afterGap := false }

/-- Unit 0 of bay 0 runs with a source, armed in a cycle. -/
def wu (source : Int) (f : TrgUnit → TrgUnit) : State :=
  (((wb fun y => { y with trg := { y.trg with units := y.trg.units.set 0 (f { TrgUnit.reset with state := .armed, inCycle := true }) }
                          ddc := Vector.replicate 4 { DdcPort.reset with active := true, paused := false, line := [st] }
                          tbs := { y.tbs with set := true } }).setFld Fld.trgUEn 0 0 1).setFld Fld.trgUSource 0 0 source).setFld Fld.trgUCount 0 0 0

/-- Two samples about the level −30 dBFS. -/
def lo1 : LevelObs := { t := 0x100000000000000, prev := { i := 100, q := 0 }, cur := { i := 20000, q := 0 } }

/-- A segment whose post-trigger part is under way. -/
def sg : Segment :=
  { info := (w.ownInfo 0 0 5 0), pre := 1, post := 1, first := 5, last := none, truncated := false, gapBefore := false, overload := false, settling := false
    done := false, seq := 0, records := 0 }

/-- A fire of group 3 from unit 1 of bay 2. -/
def fr : Fire := { group := 3, instant := 0x300000000000000, package := 0, bay := 2, unit := 1, forced := false }

/-- The input samples that the segment takes in. -/
def xsg : List Sample := List.replicate (((wu 1 id).bay 0).ddc[(0 : Fin 4)].needs 5 2).2 { i := 5, q := 6 }

/-- States and operands that meet the hypotheses of every clause of TriggerEvents. -/
theorem wit_TriggerEvents :
    -- triggerEvent_level
    (∃ (s : State) (b : BayNo) (u : Fin 8) (o : LevelObs) (n : Nat), s.unitOn b u = true ∧ s.fldN Fld.trgUSource b u.val = 1 ∧ (s.bay b).ddc[s.unitPort b u].delivers = true ∧ (s.bay b).ddc[s.unitPort b u].numberFrom o.t = n ∧ (s.bay b).ddc[s.unitPort b u].bornOf n < n ∧ (s.bay b).ddc[s.unitPort b u].stampOf n = o.t ∧ (s.bay b).ddc[s.unitPort b u].invalidIn n (n + 1) = false ∧ s.fldN Fld.trgUQual b u.val = 0 ∧ s.fldN Fld.trgUSlope b u.val = 0 ∧ s.unitGroup b u = 0 ∧ s.fldB Fld.trgUMarkOnly b u.val = false ∧ (s.unit b u).state = .armed ∧ (s.unit b u).inCycle = true ∧ (s.unit b u).isTrue = some false ∧ (s.unit b u).marked = false ∧ levelGe o.cur.square (2 ^ 30) (s.fld Fld.trgULevel b u.val) = true ∧ stampLt (s.crossing b (s.unitPort b u) o (s.fld Fld.trgULevel b u.val)) (s.unit b u).armedAt = false) ∧
    -- triggerEvent_first
    (∃ (s : State) (b : BayNo) (u : Fin 8) (o : LevelObs) (n : Nat), s.unitOn b u = true ∧ s.fldN Fld.trgUSource b u.val = 1 ∧ (s.bay b).ddc[s.unitPort b u].delivers = true ∧ (s.bay b).ddc[s.unitPort b u].numberFrom o.t = n ∧ (s.bay b).ddc[s.unitPort b u].bornOf n < n ∧ (s.bay b).ddc[s.unitPort b u].stampOf n = o.t ∧ (s.bay b).ddc[s.unitPort b u].invalidIn n (n + 1) = false ∧ (s.unit b u).isTrue = none) ∧
    -- triggerEvent_dead
    (∃ (s : State) (b : BayNo) (u : Fin 8) (i : TrigInfo), (s.unit b u).inCycle = true ∧ stampLt i.instant (s.unit b u).armedAt = false ∧ (s.unit b u).dead = true) ∧
    -- triggerEvent_early
    (∃ (s : State) (b : BayNo) (u : Fin 8) (i : TrigInfo), (((s.unit b u).inCycle = false ∨ stampLt i.instant (s.unit b u).armedAt = true))) ∧
    -- triggerEvent_group
    (∃ (s : State) (b : BayNo) (u : Fin 8) (i : TrigInfo), (s.unit b u).inCycle = true ∧ stampLt i.instant (s.unit b u).armedAt = false ∧ (s.unit b u).dead = false ∧ s.unitGroup b u ≠ 0 ∧ s.leads = true ∧ s.reaches i.fire.bay (s.sideHolder i.fire.bay) = true) ∧
    -- trigger_markOnly
    (∃ (s : State) (b : BayNo) (u : Fin 8) (i : TrigInfo), s.fldB Fld.trgUMarkOnly b u.val = true ∧ s.fldN Fld.trgUCount b u.val = 0) ∧
    -- qualLongerExpire_done
    (∃ (s : State) (b : BayNo) (u : Fin 8) (c : Condition), s.unitOn b u = true ∧ (s.unit b u).cond = some c ∧ c.qualifying = true ∧ s.fldN Fld.trgUQual b u.val = 1 ∧ s.unitGroup b u = 0 ∧ (s.unit b u).state = .qualifying ∧ (s.unit b u).inCycle = true ∧ stampLt c.start (s.unit b u).armedAt = false) ∧
    -- coreEventDue_done
    (∃ (s : State) (b : BayNo) (u : Fin 8) (a : Stamp) (v : Word) (r : List (Stamp × Word)), s.unitOn b u = true ∧ (s.unit b u).events = (a, v) :: r ∧ (s.unit b u).inCycle = true ∧ stampLt a (s.unit b u).armedAt = false ∧ (s.unit b u).state = .armed ∧ s.unitGroup b u = 0) ∧
    -- coreEventDue_ignored
    (∃ (s : State) (b : BayNo) (u : Fin 8) (a : Stamp) (v : Word) (r : List (Stamp × Word)), s.unitOn b u = true ∧ (s.unit b u).events = (a, v) :: r ∧ (s.unit b u).inCycle = true ∧ stampLt a (s.unit b u).armedAt = true) ∧
    -- trigInEdge_done
    (∃ (s : State) (s1 : State) (b : BayNo) (n : Fin 2) (a : Stamp) (v : Stamp) (long : Bool), s.tdcEdge b ⟨2 + n.val, by omega⟩ a long = (some v, s1) ∧ s.pkgN Fld.trgTriginEdge n.val = 0) ∧
    -- trigInEdge_other
    (∃ (s : State) (b : BayNo) (n : Fin 2) (a : Stamp) (long : Bool), s.pkgN Fld.trgTriginEdge n.val = 0) ∧
    -- trgForce_one
    (∃ (s : State) (b : BayNo) (u : Fin 8), s.queueAwake b = true ∧ s.unitOn b u = true ∧ (s.unit b u).inCycle = true ∧ (s.unit b u).dead = false ∧ s.unitGroup b u = 0) :=
  ⟨⟨wu 1 fun y => { y with isTrue := some false }, 0, 0, lo1, 1, by decide +kernel⟩,
   ⟨wu 1 id, 0, 0, lo1, 1, by decide +kernel⟩,
   ⟨wu 1 fun y => { y with state := .post }, 0, 0, w.ownInfo 0 0 5 0, by decide +kernel⟩,
   ⟨wu 1 fun y => { y with inCycle := false }, 0, 0, w.ownInfo 0 0 5 0, by decide +kernel⟩,
   ⟨(wu 1 id).setFld Fld.trgUGroup 0 0 3, 0, 0, w.ownInfo 0 0 5 0, by decide +kernel⟩,
   ⟨(wu 1 id).setFld Fld.trgUMarkOnly 0 0 1, 0, 0, w.ownInfo 0 0 5 0, by decide +kernel⟩,
   ⟨(wu 1 fun y => { y with state := .qualifying, isTrue := some true, cond := some { start := 5, value := 0, bin := 0, settling := false, qualifying := true, gen := 0, dirty := false } }).setFld Fld.trgUQual 0 0 1, 0, 0, { start := 5, value := 0, bin := 0, settling := false, qualifying := true, gen := 0, dirty := false }, by decide +kernel⟩,
   ⟨wu 4 fun y => { y with events := [(7, 3)] }, 0, 0, 7, 3, [], by decide +kernel⟩,
   ⟨wu 4 fun y => { y with events := [(7, 3)], armedAt := 9 }, 0, 0, 7, 3, [], by decide +kernel⟩,
   ⟨wu 5 id, _, 0, 0, 5, _, true, by rfl, by decide +kernel⟩,
   ⟨w, 0, 1, 5, true, by decide +kernel⟩,
   ⟨wu 1 id, 0, 0, by decide +kernel⟩⟩

/-- States and operands that meet the hypotheses of every clause of GroupsAndArming. -/
theorem wit_GroupsAndArming :
    -- arm_done
    (∃ (s : State) (s1 : State) (tag : Word) (bays : BitVec 8) (units : BitVec 8) (pk : BitVec 4), s.takeCommand = some s1 ∧ s1.img.state = .run ∧ s1.pkgN Fld.lnlShoalSize ≤ 1 ∧ (s1.selected bays units).isEmpty = false) ∧
    -- disarm_done
    (∃ (s : State) (s1 : State) (tag : Word) (bays : BitVec 8) (units : BitVec 8) (pk : BitVec 4), s.takeCommand = some s1 ∧ s1.img.state = .run ∧ s1.pkgN Fld.lnlShoalSize ≤ 1 ∧ (s1.selected bays units).isEmpty = false) ∧
    -- arm_badArgument
    (∃ (s : State) (s1 : State) (tag : Word) (bays : BitVec 8) (units : BitVec 8) (pk : BitVec 4) (a : Stamp), s.takeCommand = some s1 ∧ s1.img.state = .run ∧ s1.pkgN Fld.lnlShoalSize ≤ 1 ∧ ((a ≠ 0 ∧ stampLt a s1.epochLead = true ∨ (s1.selected bays units).isEmpty = true))) ∧
    -- arm_badArgument
    (∃ (s : State) (s1 : State) (tag : Word) (bays : BitVec 8) (units : BitVec 8) (pk : BitVec 4) (a : Stamp), s.takeCommand = some s1 ∧ s1.img.state = .run ∧ s1.pkgN Fld.lnlShoalSize ≤ 1 ∧ ((a ≠ 0 ∧ stampLt a s1.epochLead = true ∨ (s1.selected bays units).isEmpty = true))) ∧
    -- armTakeEffect_done
    (∃ (s : State) (o : ArmOrder) (r : List ArmOrder) (b : BayNo) (u : Fin 8), s.alive 0 = true ∧ s.trg.orders = o :: r ∧ o.arm = true ∧ (b, u) ∈ s.orderUnits o ∧ (s.unit b u).dead = false) ∧
    -- disarmTakeEffect_done
    (∃ (s : State) (o : ArmOrder) (r : List ArmOrder) (b : BayNo) (u : Fin 8), s.alive 0 = true ∧ s.trg.orders = o :: r ∧ o.arm = false ∧ (b, u) ∈ s.orderUnits o) ∧
    -- groupFireRequest_accepts
    (∃ (s : State) (f : Fire) (r : List Fire) (h : f.group < 16), s.trg.requests = f :: r ∧ 1 ≤ f.group ∧ mergesWith s.trg.lastFire[s.sideHolder (if f.package = s.packageNo then f.bay else 0)][f.group] f.instant (s.pkgN Fld.trgGrpWindow (f.group - 1)) = false) ∧
    -- groupFireRequest_merges
    (∃ (s : State) (f : Fire) (r : List Fire) (h : f.group < 16), s.trg.requests = f :: r ∧ 1 ≤ f.group ∧ mergesWith s.trg.lastFire[s.sideHolder (if f.package = s.packageNo then f.bay else 0)][f.group] f.instant (s.pkgN Fld.trgGrpWindow (f.group - 1)) = true) ∧
    -- groupFireBroadcast_member
    (∃ (s : State) (b : BayNo) (u : Fin 8) (f : Fire) (ms : List (BayNo × Fin 8)), s.unitOn b u = true ∧ ((s.trg.fires.find? fun e => e.2.contains (b, u)) = some (f, ms)) ∧ s.sideHolder b = b ∧ (s.unit b u).inCycle = true ∧ stampLt f.instant (s.unit b u).armedAt = false ∧ (s.unit b u).dead = false) ∧
    -- trigOutEdge_done
    (∃ (s : State) (n : Fin 2) (a : Stamp) (late : Bool) (r : List (Stamp × Bool)), s.alive 0 = true ∧ s.trg.outs[n].edges = (a, late) :: r) ∧
    -- trigOutPulseEnd_done
    (∃ (s : State) (n : Fin 2), s.trg.outs[n].level = true) :=
  ⟨⟨wr.setFld Fld.trgUEn 0 2 1, wt.setFld Fld.trgUEn 0 2 1, 7, 1, 4, 0, by decide +kernel⟩,
   ⟨wr.setFld Fld.trgUEn 0 2 1, wt.setFld Fld.trgUEn 0 2 1, 7, 1, 4, 0, by decide +kernel⟩,
   ⟨wr, wt, 7, 1, 4, 0, 0, by decide +kernel⟩,
   ⟨wr.setFld Fld.trgUEn 0 2 1, wt.setFld Fld.trgUEn 0 2 1, 7, 1, 4, 0, 3, by decide +kernel⟩,
   ⟨((w.modTrg fun g => { g with orders := [{ tag := none, arm := true, auto := false, instant := 9, bays := 1, units := 4 }] })).setFld Fld.trgUEn 0 2 1, { tag := none, arm := true, auto := false, instant := 9, bays := 1, units := 4 }, [], 0, 2, by decide +kernel⟩,
   ⟨((w.modTrg fun g => { g with orders := [{ tag := none, arm := false, auto := false, instant := 9, bays := 1, units := 4 }] })).setFld Fld.trgUEn 0 2 1, { tag := none, arm := false, auto := false, instant := 9, bays := 1, units := 4 }, [], 0, 2, by decide +kernel⟩,
   ⟨w.modTrg fun g => { g with requests := [fr] }, fr, [], by decide, by decide +kernel⟩,
   ⟨w.modTrg fun g => { g with requests := [fr], lastFire := Vector.replicate 8 (Vector.replicate 16 (some (fr.instant - 5))) }, fr, [], by decide, by decide +kernel⟩,
   ⟨(wu 1 id).modTrg fun g => { g with fires := [(fr, [(0, 0)])] }, 0, 0, fr, [(0, 0)], by decide +kernel⟩,
   ⟨w.modTrg fun g => { g with outs := Vector.replicate 2 { edges := [(5, true)], level := false, pulseEnd := 0 } }, 1, 5, true, [], by decide +kernel⟩,
   ⟨w.modTrg fun g => { g with outs := Vector.replicate 2 { edges := [], level := true, pulseEnd := 0 } }, 1, by decide +kernel⟩⟩

/-- States and operands that meet the hypotheses of every clause of SegmentsAndMasks. -/
theorem wit_SegmentsAndMasks :
    -- segmentPostDone_done
    (∃ (s : State) (b : BayNo) (u : Fin 8) (xs : List Sample) (g : Segment), s.alive b = true ∧ (s.unit b u).state = .post ∧ (s.unit b u).segments = [g] ∧ g.done = false ∧ g.last = none ∧ xs.length = (if g.pre + g.post = 0 then 0 else ((s.bay b).ddc[s.unitPort b u].needs g.first (g.pre + g.post)).2)) ∧
    -- slotFreed_done
    (∃ (s : State) (b : BayNo) (u : Fin 8) (g : Segment) (r : List Segment), s.alive b = true ∧ (s.unit b u).segments = g :: r ∧ g.done = true) ∧
    -- unitRearm_done
    (∃ (s : State) (b : BayNo) (u : Fin 8), s.alive b = true ∧ (s.unit b u).state = .prefill ∧ s.slotFree b u = true ∧ s.fldN Fld.trgUCount b u.val = 0) ∧
    -- unitRearm_holdoff
    (∃ (s : State) (b : BayNo) (u : Fin 8), s.alive b = true ∧ (s.unit b u).state = .prefill ∧ s.slotFree b u = true ∧ s.fldN Fld.trgUCount b u.val = 0 ∧ (s.unit b u).liveFrom = none ∧ stampLe (s.rearmStamp b u) (s.unit b u).holdoffTo = true) ∧
    -- maskBump_done
    (∃ (s : State) (b : BayNo) (m : Fin 8) (g : BitVec 16), s.queueAwake b = true ∧ (s.bay b).trg.masks[m].gen ≠ g) ∧
    -- maskCopyDone_done
    (∃ (s : State) (b : BayNo) (u : Fin 8) (c : MaskCopy), s.alive b = true ∧ (s.unit b u).spare = some c) ∧
    -- maskStoreWrite_done
    (∃ (s : State) (b : BayNo) (e : BitVec 17) (v : Word), s.queueAwake b = true) :=
  ⟨⟨wu 1 fun y => { y with state := .post, segments := [sg] }, 0, 0, xsg, sg, by decide +kernel⟩,
   ⟨wu 1 fun y => { y with state := .waitSlot, segments := [{ sg with done := true }] }, 0, 0, { sg with done := true }, [], by decide +kernel⟩,
   ⟨wu 1 fun y => { y with state := .prefill }, 0, 0, by decide +kernel⟩,
   ⟨wu 1 fun y => { y with state := .prefill, holdoffTo := 0x20000000000000000000 }, 0, 0, by decide +kernel⟩,
   ⟨wu 3 id, 0, 0, 7, by decide +kernel⟩,
   ⟨wu 3 fun y => { y with spare := some MaskCopy.reset }, 0, 0, MaskCopy.reset, by decide +kernel⟩,
   ⟨wu 3 id, 0, 5, 7, by decide +kernel⟩⟩

end Trg

namespace Scn

/-- Bay 0's scan-out runs with a small raster. -/
def wsc (f : Scn → Scn) : State :=
  (((((wb fun y => { y with scn := f { Scn.reset with on := true } }).setFld Fld.scnEn 0 0 1).setFld Fld.scnHActive 0 0 4).setFld Fld.scnVActive 0 0 4).setFld Fld.scnCrcW 0 2 2).setFld Fld.scnCrcH 0 2 2

/-- States and operands that meet the hypotheses of every clause of ScanOut. -/
theorem wit_ScanOut :
    -- scnLatchPoint_commit
    (∃ (s : State) (b : BayNo), s.scnAwake b = true ∧ (s.scn b).on = true ∧ (s.scn b).commit = true) ∧
    -- scnLatchPoint_keeps
    (∃ (s : State) (b : BayNo), s.scnAwake b = true ∧ (s.scn b).on = true ∧ (s.scn b).commit = false) ∧
    -- scnLatchPoint_readout
    (∃ (s : State) (b : BayNo) (cells : ReadoutCells) (crc : Word), s.scnAwake b = true ∧ (s.scn b).on = true ∧ (s.scn b).ro.ready = some (cells, crc)) ∧
    -- scnLatchPoint_stale
    (∃ (s : State) (b : BayNo), s.scnAwake b = true ∧ (s.scn b).on = true ∧ (s.scn b).commit = false ∧ (s.scn b).ro.ready = none ∧ (s.scn b).ro.staleDue = true) ∧
    -- scnCommitWrite_done
    (∃ (s : State) (b : BayNo) (v : Bool), s.scnAwake b = true) ∧
    -- scnCrcCompare_done
    (∃ (s : State) (b : BayNo) (r : Fin 15) (u : Word), s.scnAwake b = true ∧ (s.scn b).on = true ∧ s.crcMode b r.castSucc ≠ 0 ∧ (s.scn b).now.done.getLsbD r.val = false ∧ (s.scn b).blanked = false) ∧
    -- scnCrcCompare_readout
    (∃ (s : State) (b : BayNo) (u : Word), s.scnAwake b = true ∧ (s.scn b).on = true ∧ s.fldB Fld.scnRoEn b = true ∧ (s.scn b).now.done.getLsbD 15 = false ∧ (s.scn b).blanked = false ∧ s.rectCrc b 15 ^^^ u ≠ (s.scn b).ro.expected) ∧
    -- verticalBlankingStart_done
    (∃ (s : State) (b : BayNo), s.scnAwake b = true ∧ (s.scn b).on = true ∧ (s.scn b).blanked = false) ∧
    -- pixel_readout
    (∃ (s : State) (b : BayNo) (x : Nat) (y : Nat), s.fldB Fld.scnRoEn b = true ∧ inRect (s.roRect b) x y = true) ∧
    -- pixel_background
    (∃ (s : State) (b : BayNo) (x : Nat) (y : Nat), s.fldB Fld.scnRoEn b = false ∧ s.fldB Fld.scnTextEn b = false ∧ s.fldB Fld.scnGratEn b = false ∧ s.fldB Fld.scnDenEn b = false ∧ ((∀ i : Fin 8, s.fldB Fld.scnSEn b i.val = false))) ∧
    -- postCopyDone_done
    (∃ (s : State) (b : BayNo) (c : CoreNo) (start : Nat) (ws : List Word), s.alive b = true ∧ (s.core b c).copying = some (.post start ws) ∧ ws = (s.core b c).peekWords start ws.length) ∧
    -- roReferenceDone_done
    (∃ (s : State) (b : BayNo) (cells : ReadoutCells) (a : Stamp), s.alive b = true ∧ (s.scn b).ro.posted = some (cells, a)) ∧
    -- roStaleTimeout_done
    (∃ (s : State) (b : BayNo), s.scnAwake b = true ∧ (s.scn b).on = true ∧ s.fldB Fld.scnRoEn b = true ∧ s.fldN Fld.scnRoStale b ≠ 0 ∧ (s.scn b).ro.stale = false) ∧
    -- dpHpdRise_done
    (∃ (s : State) (b : BayNo) (e : List Byte), s.scnAwake b = true ∧ (s.scn b).hpd = false) ∧
    -- dpHpdIrq_done
    (∃ (s : State) (b : BayNo), s.scnAwake b = true ∧ (s.scn b).hpd = true) ∧
    -- dpHpdFall_done
    (∃ (s : State) (b : BayNo), s.scnAwake b = true ∧ (s.scn b).hpd = true) ∧
    -- dpLinkTrainDone_done
    (∃ (s : State) (b : BayNo) (ok : Bool), s.scnAwake b = true ∧ (s.scn b).training = true) ∧
    -- dpLinkTrainDone_done
    (∃ (s : State) (b : BayNo) (ok : Bool), s.scnAwake b = true ∧ (s.scn b).training = true) ∧
    -- dpTrainRetryTimer_done
    (∃ (s : State) (b : BayNo) (a : Stamp), s.scnAwake b = true ∧ (s.scn b).hpd = true ∧ (s.scn b).retryFrom = some a) :=
  ⟨⟨wsc fun y => { y with commit := true, shadow := [(5, 3)] }, 0, by decide +kernel⟩,
   ⟨wsc id, 0, by decide +kernel⟩,
   ⟨wsc fun y => { y with ro := { y.ro with ready := some ([1, 2], 77) } }, 0, [1, 2], 77, by decide +kernel⟩,
   ⟨wsc fun y => { y with ro := { y.ro with staleDue := true } }, 0, by decide +kernel⟩,
   ⟨wsc id, 0, true, by decide +kernel⟩,
   ⟨(wsc id).setFld Fld.scnCrcMode 0 2 2, 0, 2, 1, by decide +kernel⟩,
   ⟨(wsc id).setFld Fld.scnRoEn 0 0 1, 0, 99, by decide +kernel⟩,
   ⟨wsc id, 0, by decide +kernel⟩,
   ⟨(wsc id).setFld Fld.scnRoEn 0 0 1 |>.modVals (fun v => Sparse.set none (Sparse.set none v (fieldKey Fld.scnRoFont 0 0 0) (some 4)) (fieldKey Fld.scnRoFont 0 0 1) (some 4)), 0, 0, 0, by decide +kernel⟩,
   ⟨(wsc id).setFld Fld.scnBgColour 0 0 77, 0, 1, 1, by decide +kernel⟩,
   ⟨(wsc id).modBay 0 fun y => { y with mco := { y.mco with cores := Vector.replicate 8 { Core.reset with copying := some (.post 0 [0, 0]) } } }, 0, 1, 0, [0, 0], by decide +kernel⟩,
   ⟨wsc fun y => { y with ro := { y.ro with posted := some ([1], 5) } }, 0, [1], 5, by decide +kernel⟩,
   ⟨((wsc fun y => { y with ro := { y.ro with stale := false } }).setFld Fld.scnRoEn 0 0 1).setFld Fld.scnRoStale 0 0 9, 0, by decide +kernel⟩,
   ⟨wsc id, 0, [1, 2], by decide +kernel⟩,
   ⟨wsc fun y => { y with hpd := true, linkUp := true }, 0, by decide +kernel⟩,
   ⟨wsc fun y => { y with hpd := true, linkUp := true }, 0, by decide +kernel⟩,
   ⟨wsc fun y => { y with training := true }, 0, true, by decide +kernel⟩,
   ⟨wsc fun y => { y with training := true }, 0, false, by decide +kernel⟩,
   ⟨wsc fun y => { y with hpd := true, retryFrom := some 5 }, 0, 5, by decide +kernel⟩⟩

end Scn

namespace Mco

/-- Core 2 of bay 0 runs at index 7, where an instruction lies. -/
def wm (v : Word) (f : Core → Core) : State :=
  wb fun y => { y with mco := { y.mco with cores := y.mco.cores.set 2 (f { Core.reset with
    mode := .run, pc := 7, imem := [(7, v)], globals := Vector.replicate 16 12 }) } }

/-- States and operands that meet the hypotheses of every clause of CoreArithmetic. -/
theorem wit_CoreArithmetic :
    -- alu_done
    (∃ (s : State) (b : BayNo) (c : CoreNo) (fa : AluFn) (rd : CReg) (ra : CReg) (rb : CReg) (sh : Nat), s.canIssue b c = true ∧ decodeCore (s.core b c).word = some (.alu fa rd ra rb sh)) ∧
    -- alu_done
    (∃ (s : State) (b : BayNo) (c : CoreNo) (fa : AluFn) (rd : CReg) (ra : CReg) (rb : CReg) (sh : Nat), s.canIssue b c = true ∧ decodeCore (s.core b c).word = some (.alu fa rd ra rb sh)) ∧
    -- imm_done
    (∃ (s : State) (b : BayNo) (c : CoreNo) (fi : ImmFn) (rd : CReg) (ra : CReg) (v : BitVec 16), s.canIssue b c = true ∧ decodeCore (s.core b c).word = some (.imm fi rd ra v)) ∧
    -- nop_done
    (∃ (s : State) (b : BayNo) (c : CoreNo), s.canIssue b c = true ∧ decodeCore (s.core b c).word = some .nop) ∧
    -- mac_done
    (∃ (s : State) (b : BayNo) (c : CoreNo) (a : Fin 2) (neg : Bool) (clr : Bool) (ty : Fin 3) (ra : CReg) (rb : CReg) (ha : Bool) (hb : Bool), s.canIssue b c = true ∧ decodeCore (s.core b c).word = some (.mac a neg clr ty ra rb ha hb)) ∧
    -- macp_done
    (∃ (s : State) (b : BayNo) (c : CoreNo) (a : Fin 2) (neg : Bool) (clr : Bool) (ty : Fin 3) (p : Fin 8) (q : AddrReg), s.canIssue b c = true ∧ decodeCore (s.core b c).word = some (.macp a neg clr ty p p) ∧ ((s.core b c).ptr p).next = some q ∧ ((s.core b c).ptr p).p.toNat % 2 = 0) ∧
    -- macp_two
    (∃ (s : State) (b : BayNo) (c : CoreNo) (a : Fin 2) (ty : Fin 3) (p : Fin 8) (p' : Fin 8) (q : AddrReg) (q' : AddrReg), s.canIssue b c = true ∧ p ≠ p' ∧ decodeCore (s.core b c).word = some (.macp a false true ty p p') ∧ ((s.core b c).ptr p).next = some q ∧ ((s.core b c).ptr p').next = some q' ∧ ((s.core b c).ptr p).p.toNat % 2 = 0 ∧ ((s.core b c).ptr p').p.toNat % 2 = 0) ∧
    -- lda_done
    (∃ (s : State) (b : BayNo) (c : CoreNo) (a : Fin 2) (r : CReg) (sh : Nat), s.canIssue b c = true ∧ decodeCore (s.core b c).word = some (.lda a r sh)) ∧
    -- adda_done
    (∃ (s : State) (b : BayNo) (c : CoreNo) (a : Fin 2) (r : CReg) (sh : Nat), s.canIssue b c = true ∧ decodeCore (s.core b c).word = some (.adda a r sh)) ∧
    -- sta_done
    (∃ (s : State) (b : BayNo) (c : CoreNo) (a : Fin 2) (r : CReg) (sh : Nat) (wide : Bool) (m : Fin 3), s.canIssue b c = true ∧ decodeCore (s.core b c).word = some (.sta a r sh wide m)) ∧
    -- sha_done
    (∃ (s : State) (b : BayNo) (c : CoreNo) (a : Fin 2) (sh : Int), s.canIssue b c = true ∧ decodeCore (s.core b c).word = some (.sha a sh)) ∧
    -- srst_done
    (∃ (s : State) (b : BayNo) (c : CoreNo) (ra : CReg), s.canIssue b c = true ∧ decodeCore (s.core b c).word = some (.srst ra)) ∧
    -- search_done
    (∃ (s : State) (b : BayNo) (c : CoreNo) (fs : SearchFn) (p : Fin 8) (wide : Bool) (skip : Bool) (q : AddrReg), s.canIssue b c = true ∧ decodeCore (s.core b c).word = some (.search fs p wide skip) ∧ ((s.core b c).ptr p).next = some q ∧ ((s.core b c).ptr p).p.toNat % (if wide then 4 else 2) = 0) :=
  ⟨⟨wm 0x06011008 id, 0, 2, .adds, 16, 1, 2, 0, by decide +kernel⟩,
   ⟨wm 0x06011002 id, 0, 2, .and, 16, 1, 2, 0, by decide +kernel⟩,
   ⟨wm 0x0A01FFFF id, 0, 2, .addi, 16, 1, 0xFFFF, by decide +kernel⟩,
   ⟨wm 0 id, 0, 2, by decide +kernel⟩,
   ⟨wm 0x63821000 id, 0, 2, 1, true, true, 0, 2, 2, false, false, by decide +kernel⟩,
   ⟨wm 0x64090000 id, 0, 2, 0, false, false, 0, 2, AddrReg.reset, by decide +kernel⟩,
   ⟨wm 0x64888000 id, 0, 2, 0, 0, 2, 1, AddrReg.reset, AddrReg.reset, by decide +kernel⟩,
   ⟨wm 0x68C12000 id, 0, 2, 1, 1, 8, by decide +kernel⟩,
   ⟨wm 0x69412000 id, 0, 2, 1, 1, 8, by decide +kernel⟩,
   ⟨wm 0x68412600 fun k => { k with acc := Vector.replicate 2 0xFFFFFFFE01 }, 0, 2, 1, 1, 9, true, 0, by decide +kernel⟩,
   ⟨wm 0x69C0F000 fun k => { k with acc := Vector.replicate 2 0xFFFFFFFE01 }, 0, 2, 1, -4, by decide +kernel⟩,
   ⟨wm 0x6C010000 id, 0, 2, 1, by decide +kernel⟩,
   ⟨wm 0x6D880000 fun k => { k with mem := [(0, 0x12#8)] }, 0, 2, .smm, 2, false, false, AddrReg.reset, by decide +kernel⟩⟩

/-- States and operands that meet the hypotheses of every clause of CoreMemory. -/
theorem wit_CoreMemory :
    -- ld_done
    (∃ (s : State) (b : BayNo) (c : CoreNo) (rd : CReg) (p : Fin 8) (wd : CoreWidth) (sx : Bool) (pm : Bool) (off : BitVec 12) (q : AddrReg), s.canIssue b c = true ∧ decodeCore (s.core b c).word = some (.ld rd p wd sx pm off) ∧ (s.core b c).mAfter p pm = some q ∧ (s.core b c).mAddress p pm off % wd.bytes = 0) ∧
    -- ld_misaligned
    (∃ (s : State) (b : BayNo) (c : CoreNo) (rd : CReg) (p : Fin 8) (wd : CoreWidth) (sx : Bool) (pm : Bool) (off : BitVec 12) (q : AddrReg), s.canIssue b c = true ∧ decodeCore (s.core b c).word = some (.ld rd p wd sx pm off) ∧ (s.core b c).mAfter p pm = some q ∧ (s.core b c).mAddress p pm off % wd.bytes ≠ 0) ∧
    -- st_done
    (∃ (s : State) (b : BayNo) (c : CoreNo) (rd : CReg) (p : Fin 8) (wd : CoreWidth) (pm : Bool) (off : BitVec 12) (q : AddrReg), s.canIssue b c = true ∧ decodeCore (s.core b c).word = some (.st rd p wd pm off) ∧ (s.core b c).mAfter p pm = some q ∧ (s.core b c).mAddress p pm off % wd.bytes = 0 ∧ Sparse.wf 0 (s.core b c).mem = true) ∧
    -- ldr_done
    (∃ (s : State) (b : BayNo) (c : CoreNo) (rd : CReg) (ra : CReg) (wd : CoreWidth) (sx : Bool) (off : BitVec 13), s.canIssue b c = true ∧ decodeCore (s.core b c).word = some (.ldr rd ra wd sx off) ∧ (s.core b c).lAddress ra off % wd.bytes = 0) ∧
    -- str_done
    (∃ (s : State) (b : BayNo) (c : CoreNo) (rd : CReg) (ra : CReg) (wd : CoreWidth) (off : BitVec 13), s.canIssue b c = true ∧ decodeCore (s.core b c).word = some (.str rd ra wd off) ∧ (s.core b c).lAddress ra off % wd.bytes = 0 ∧ Sparse.wf 0 (s.core b c).mem = true) :=
  ⟨⟨wm 0x52090000 id, 0, 2, 16, 2, .half, false, false, 0, AddrReg.reset, by decide +kernel⟩,
   ⟨wm 0x52090001 id, 0, 2, 16, 2, .half, false, false, 1, AddrReg.reset, by decide +kernel⟩,
   ⟨wm 0x54290000 id, 0, 2, 1, 2, .half, false, 0, AddrReg.reset, by decide +kernel⟩,
   ⟨wm 0x5A018004 id, 0, 2, 16, 1, .word, false, 4, by decide +kernel⟩,
   ⟨wm 0x5C218004 id, 0, 2, 1, 1, .word, 4, by decide +kernel⟩⟩

/-- States and operands that meet the hypotheses of every clause of CoreFlow. -/
theorem wit_CoreFlow :
    -- branch_done
    (∃ (s : State) (b : BayNo) (c : CoreNo) (fb : BranchFn) (ra : CReg) (rb : CReg) (off : BitVec 16), s.canIssue b c = true ∧ decodeCore (s.core b c).word = some (.branch fb ra rb off)) ∧
    -- jmp_done
    (∃ (s : State) (b : BayNo) (c : CoreNo) (a : BitVec 14), s.canIssue b c = true ∧ decodeCore (s.core b c).word = some (.jmp a)) ∧
    -- jal_done
    (∃ (s : State) (b : BayNo) (c : CoreNo) (rd : CReg) (a : BitVec 14), s.canIssue b c = true ∧ decodeCore (s.core b c).word = some (.jal rd a)) ∧
    -- jr_done
    (∃ (s : State) (b : BayNo) (c : CoreNo) (ra : CReg), s.canIssue b c = true ∧ decodeCore (s.core b c).word = some (.jr ra)) ∧
    -- call_done
    (∃ (s : State) (b : BayNo) (c : CoreNo) (a : BitVec 14), s.canIssue b c = true ∧ decodeCore (s.core b c).word = some (.call a) ∧ (s.core b c).shadow = false ∧ (s.core b c).resident < 8) ∧
    -- call_spills
    (∃ (s : State) (b : BayNo) (c : CoreNo) (a : BitVec 14), s.canIssue b c = true ∧ decodeCore (s.core b c).word = some (.call a) ∧ (s.core b c).shadow = false ∧ (s.core b c).resident = 8 ∧ (s.core b c).ssp.toNat + 48 ≤ (s.core b c).slim.toNat ∧ (s.core b c).ssp.toNat % 4 = 0) ∧
    -- call_overflow
    (∃ (s : State) (b : BayNo) (c : CoreNo) (a : BitVec 14), s.canIssue b c = true ∧ decodeCore (s.core b c).word = some (.call a) ∧ (s.core b c).shadow = false ∧ (s.core b c).resident = 8 ∧ (s.core b c).slim.toNat < (s.core b c).ssp.toNat + 48) ∧
    -- ret_done
    (∃ (s : State) (b : BayNo) (c : CoreNo), s.canIssue b c = true ∧ decodeCore (s.core b c).word = some .ret ∧ (s.core b c).shadow = false ∧ 1 < (s.core b c).resident) ∧
    -- ret_fills
    (∃ (s : State) (b : BayNo) (c : CoreNo), s.canIssue b c = true ∧ decodeCore (s.core b c).word = some .ret ∧ (s.core b c).shadow = false ∧ (s.core b c).resident = 1 ∧ (s.core b c).ssp ≠ (s.core b c).sbase ∧ (s.core b c).ssp.toNat % 4 = 0) ∧
    -- ret_empty
    (∃ (s : State) (b : BayNo) (c : CoreNo), s.canIssue b c = true ∧ decodeCore (s.core b c).word = some .ret ∧ (s.core b c).shadow = false ∧ (s.core b c).resident = 1 ∧ (s.core b c).ssp = (s.core b c).sbase) ∧
    -- callRet_double
    (∃ (s : State) (b : BayNo) (c : CoreNo) (a : BitVec 14), s.canIssue b c = true ∧ decodeCore (s.core b c).word = some (.call a) ∧ (s.core b c).shadow = true) ∧
    -- ret_double
    (∃ (s : State) (b : BayNo) (c : CoreNo), s.canIssue b c = true ∧ decodeCore (s.core b c).word = some .ret ∧ (s.core b c).shadow = true) ∧
    -- rep_addi
    (∃ (s : State) (b : BayNo) (c : CoreNo) (n : Nat) (r : CReg) (v : BitVec 16), s.canIssue b c = true ∧ decodeCore (s.core b c).word = some (.rep n) ∧ n ≤ 4096 ∧ decodeCore ((s.core b c).fetchAt ((s.core b c).pc + 1)) = some (.imm .addi r r v) ∧ r.val ≠ 0) ∧
    -- rep_done
    (∃ (s : State) (b : BayNo) (c : CoreNo) (n : Nat) (i : CoreInstr) (k : Core), s.canIssue b c = true ∧ decodeCore (s.core b c).word = some (.rep n) ∧ n ≤ 4096 ∧ decodeCore ((s.core b c).fetchAt ((s.core b c).pc + 1)) = some i ∧ i.repBody = true ∧ Core.repeat i n (s.core b c) = .done k) ∧
    -- rep_register
    (∃ (s : State) (b : BayNo) (c : CoreNo) (r : CReg) (i : CoreInstr), s.canIssue b c = true ∧ decodeCore (s.core b c).word = some (.repReg r) ∧ decodeCore ((s.core b c).fetchAt ((s.core b c).pc + 1)) = some i ∧ i.repBody = true) ∧
    -- rep_register
    (∃ (s : State) (b : BayNo) (c : CoreNo) (r : CReg) (i : CoreInstr), s.canIssue b c = true ∧ decodeCore (s.core b c).word = some (.repReg r) ∧ decodeCore ((s.core b c).fetchAt ((s.core b c).pc + 1)) = some i ∧ i.repBody = true) ∧
    -- rep_body
    (∃ (s : State) (b : BayNo) (c : CoreNo) (n : Nat) (i : CoreInstr), s.canIssue b c = true ∧ decodeCore (s.core b c).word = some (.rep n) ∧ decodeCore ((s.core b c).fetchAt ((s.core b c).pc + 1)) = some i ∧ i.repBody = false) ∧
    -- wait_done
    (∃ (s : State) (b : BayNo) (c : CoreNo), s.canIssue b c = true ∧ decodeCore (s.core b c).word = some .wait) ∧
    -- halt_done
    (∃ (s : State) (b : BayNo) (c : CoreNo), s.canIssue b c = true ∧ decodeCore (s.core b c).word = some .halt) ∧
    -- ei_done
    (∃ (s : State) (b : BayNo) (c : CoreNo), s.canIssue b c = true ∧ decodeCore (s.core b c).word = some .ei) ∧
    -- di_done
    (∃ (s : State) (b : BayNo) (c : CoreNo), s.canIssue b c = true ∧ decodeCore (s.core b c).word = some .di) ∧
    -- reti_done
    (∃ (s : State) (b : BayNo) (c : CoreNo), s.canIssue b c = true ∧ decodeCore (s.core b c).word = some .reti ∧ (s.core b c).shadow = true) ∧
    -- illegal_done
    (∃ (s : State) (b : BayNo) (c : CoreNo), s.canIssue b c = true ∧ decodeCore (s.core b c).word = none) ∧
    -- interruptEntry_done
    (∃ (s : State) (b : BayNo) (c : CoreNo) (l : Nat), s.coreAwake b c = true ∧ (s.core b c).mode = .run ∧ (s.core b c).takeable = some l) ∧
    -- takeable_lowest
    (∃ (k : Core) (l : Nat), k.takeable = some l) :=
  ⟨⟨wm 0x2022FFF0 id, 0, 2, .beq, 1, 2, 0xFFF0, by decide +kernel⟩,
   ⟨wm 0x38000123 id, 0, 2, 0x123, by decide +kernel⟩,
   ⟨wm 0x3C200123 id, 0, 2, 1, 0x123, by decide +kernel⟩,
   ⟨wm 0x40010000 id, 0, 2, 1, by decide +kernel⟩,
   ⟨wm 0x44000123 id, 0, 2, 0x123, by decide +kernel⟩,
   ⟨wm 0x44000123 fun k => { k with resident := 8 }, 0, 2, 0x123, by decide +kernel⟩,
   ⟨wm 0x44000123 fun k => { k with resident := 8, slim := 5 }, 0, 2, 0x123, by decide +kernel⟩,
   ⟨wm 0x48000000 fun k => { k with resident := 3 }, 0, 2, by decide +kernel⟩,
   ⟨wm 0x48000000 fun k => { k with ssp := 0x1E830 }, 0, 2, by decide +kernel⟩,
   ⟨wm 0x48000000 id, 0, 2, by decide +kernel⟩,
   ⟨wm 0x44000123 fun k => { k with shadow := true }, 0, 2, 0x123, by decide +kernel⟩,
   ⟨wm 0x48000000 fun k => { k with shadow := true }, 0, 2, by decide +kernel⟩,
   ⟨wm 0x4C000005 fun k => { k with imem := k.imem ++ [(8, 0x08210003)] }, 0, 2, 6, 1, 3, by decide +kernel⟩,
   ⟨wm 0x4C000005 fun k => { k with imem := k.imem ++ [(8, 0)] }, 0, 2, 6, .nop, (wm 0x4C000005 fun k => { k with imem := k.imem ++ [(8, 0)] }).core 0 2, by decide +kernel⟩,
   ⟨wm 0x4E010000 fun k => { k with globals := Vector.replicate 16 0x1001 }, 0, 2, 1, .nop, by decide +kernel⟩,
   ⟨wm 0x4E010000 fun k => { k with globals := Vector.replicate 16 0x2000 }, 0, 2, 1, .nop, by decide +kernel⟩,
   ⟨wm 0x4C000005 fun k => { k with imem := k.imem ++ [(8, 0x78000000)] }, 0, 2, 6, .wait, by decide +kernel⟩,
   ⟨wm 0x78000000 id, 0, 2, by decide +kernel⟩,
   ⟨wm 0x78800000 id, 0, 2, by decide +kernel⟩,
   ⟨wm 0x79000000 id, 0, 2, by decide +kernel⟩,
   ⟨wm 0x79800000 id, 0, 2, by decide +kernel⟩,
   ⟨wm 0x7A000000 fun k => { k with shadow := true, istat := true, ira := 9 }, 0, 2, by decide +kernel⟩,
   ⟨wm 0x1C000000 id, 0, 2, by decide +kernel⟩,
   ⟨wm 0 fun k => { k with ie := true, ipend := 0x14, imask := 0x18 }, 0, 2, 4, by decide +kernel⟩,
   ⟨{ Core.reset with ie := true, ipend := 0x14, imask := 0x18 }, 4, by decide +kernel⟩⟩

end Mco

namespace Mco2

/-- Core 2 of bay 0 runs at index 7, where an instruction lies. -/
def wm (v : Word) (f : Core → Core) : State :=
  wb fun y => { y with mco := { y.mco with cores := y.mco.cores.set 2 (f { Core.reset with
    mode := .run, pc := 7, imem := [(7, v)], globals := Vector.replicate 16 12 }) } }

/-- Outputs from counter time 0 on, 1/256 s apart, two input samples each. -/
def st : Stretch :=
  { born := 0, input := 0, first := 0, start := Exact.of 0 1, step := Exact.of 1 256, ratio := 2, preset := 0, k := 0, afterGap := false }

/-- The input samples of the first two outputs. -/
def xfeed : List Sample := List.replicate (({ DdcPort.reset with line := [st] } : DdcPort).needs 0 2).2 { i := 5, q := 6 }

/-- States and operands that meet the hypotheses of every clause of CoreOutputs. -/
theorem wit_CoreOutputs :
    -- mfs_done
    (∃ (s : State) (b : BayNo) (c : CoreNo) (rd : CReg) (n : Fin 256) (v : Word), s.canIssue b c = true ∧ decodeCore (s.core b c).word = some (.mfs rd n) ∧ s.specialReg b c (s.core b c) n.val = some v) ∧
    -- mfs_unlisted
    (∃ (s : State) (b : BayNo) (c : CoreNo) (rd : CReg) (n : Fin 256), s.canIssue b c = true ∧ decodeCore (s.core b c).word = some (.mfs rd n) ∧ ((0x27 ≤ n.val ∧ n.val < 0x40 ∨ 0x60 ≤ n.val))) ∧
    -- mts_done
    (∃ (s : State) (b : BayNo) (c : CoreNo) (n : Fin 256) (ra : CReg) (k : Core), s.canIssue b c = true ∧ decodeCore (s.core b c).word = some (.mts n ra) ∧ s.specialWrite b (s.core b c) n.val ((s.core b c).reg ra) = some k) ∧
    -- mts_readOnly
    (∃ (s : State) (b : BayNo) (c : CoreNo) (n : Fin 256) (ra : CReg), s.canIssue b c = true ∧ decodeCore (s.core b c).word = some (.mts n ra) ∧ ((n.val = 0x12 ∨ n.val = 0x14 ∨ n.val = 0x15 ∨ 0x1B ≤ n.val ∧ n.val ≤ 0x26))) ∧
    -- evt_done
    (∃ (s : State) (b : BayNo) (c : CoreNo) (e : Fin 4) (ra : CReg) (u : Fin 8), s.canIssue b c = true ∧ decodeCore (s.core b c).word = some (.evt e ra) ∧ s.unitOn b u = true ∧ s.fldN Fld.trgUSource b u.val = 4 ∧ s.fldN Fld.trgUCore b u.val = c.val ∧ s.fldN Fld.trgUCoreEvent b u.val = e.val ∧ stampLe (s.coreStamp b (s.core b c)) (s.nowAt b) = false) ∧
    -- emit_done
    (∃ (s : State) (b : BayNo) (c : CoreNo) (ra : CReg) (rb : CReg), s.canIssue b c = true ∧ decodeCore (s.core b c).word = some (.emit ra rb) ∧ (s.core b c).copying = none ∧ (s.core b c).faultUntil = none ∧ 1 ≤ ((s.core b c).reg rb).toNat % 65536 ∧ ((s.core b c).reg rb).toNat % 65536 ≤ 1024 ∧ ((s.core b c).reg ra).toNat + 32 * (((s.core b c).reg rb).toNat % 65536) ≤ 131072 ∧ ((s.core b c).reg ra).toNat % 4 = 0) ∧
    -- emit_length
    (∃ (s : State) (b : BayNo) (c : CoreNo) (ra : CReg) (rb : CReg), s.canIssue b c = true ∧ decodeCore (s.core b c).word = some (.emit ra rb) ∧ (s.core b c).copying = none ∧ ((((s.core b c).reg rb).toNat % 65536 = 0 ∨ 1024 < ((s.core b c).reg rb).toNat % 65536 ∨ 131072 < ((s.core b c).reg ra).toNat + 32 * (((s.core b c).reg rb).toNat % 65536)))) ∧
    -- emit_waits
    (∃ (s : State) (b : BayNo) (c : CoreNo) (i : CoreInstr), decodeCore (s.core b c).word = some i ∧ (s.core b c).copying.isSome = true) ∧
    -- post_done
    (∃ (s : State) (b : BayNo) (c : CoreNo) (ra : CReg), s.canIssue b c = true ∧ decodeCore (s.core b c).word = some (.post ra) ∧ (s.core b c).copying = none ∧ ((s.core b c).reg ra).toNat % 4 = 0) ∧
    -- emitCopyDone_done
    (∃ (s : State) (b : BayNo) (c : CoreNo) (sub : BitVec 16) (fl : BitVec 8) (a : Stamp) (gap : Bool) (dead : Bool) (start : Nat) (ws : List Word), s.alive b = true ∧ (s.core b c).copying = some (.result sub fl a gap start ws dead)) ∧
    -- emitCopyDone_done
    (∃ (s : State) (b : BayNo) (c : CoreNo) (sub : BitVec 16) (fl : BitVec 8) (a : Stamp) (gap : Bool) (dead : Bool) (start : Nat) (ws : List Word), s.alive b = true ∧ (s.core b c).copying = some (.result sub fl a gap start ws dead)) :=
  ⟨⟨wm 0x70110800 id, 0, 2, 17, 8, 0, by decide +kernel⟩,
   ⟨wm 0x70116000 id, 0, 2, 17, 0x60, by decide +kernel⟩,
   ⟨wm 0x70810800 id, 0, 2, 8, 1, { (wm 0x70810800 id).core 0 2 with mxv := 12 }, by decide +kernel⟩,
   ⟨wm 0x70811200 id, 0, 2, 0x12, 1, by decide +kernel⟩,
   ⟨(((wm 0x74610000 fun k => { k with estmp := Vector.replicate 3 5 }).setFld Fld.trgUEn 0 0 1).setFld Fld.trgUSource 0 0 4).setFld Fld.trgUCore 0 0 2 |>.setFld Fld.trgUCoreEvent 0 0 3, 0, 2, 3, 1, 0, by decide +kernel⟩,
   ⟨wm 0x74820800 fun k => { k with globals := Vector.replicate 16 4, rflags := 0xFF }, 0, 2, 2, 1, by decide +kernel⟩,
   ⟨wm 0x74820800 fun k => { k with globals := Vector.replicate 16 0x10000 }, 0, 2, 2, 1, by decide +kernel⟩,
   ⟨wm 0x74820800 fun k => { k with copying := some (.post 0 []) }, 0, 2, .emit 2 1, by decide +kernel⟩,
   ⟨wm 0x75020000 id, 0, 2, 2, by decide +kernel⟩,
   ⟨wm 0 fun k => { k with copying := some (.result 0 0 5 false 0 [] true) }, 0, 2, 0, 0, 5, false, true, 0, [], by decide +kernel⟩,
   ⟨wm 0 fun k => { k with copying := some (.result 0 0 5 false 0 [0, 0, 0, 0, 0, 0, 0, 0] false) }, 0, 2, 0, 0, 5, false, false, 0, [0, 0, 0, 0, 0, 0, 0, 0], by decide +kernel⟩⟩

/-- States and operands that meet the hypotheses of every clause of CoreHostAndFeed. -/
theorem wit_CoreHostAndFeed :
    -- iqFeedBlock_full
    (∃ (s : State) (b : BayNo) (c : CoreNo) (xs : List Sample) (n : Nat) (len : Nat), s.alive b = true ∧ s.fldB Fld.mcoCIqEn b c.val = true ∧ (s.core b c).mode ≠ .off ∧ (s.bay b).ddc[s.feedPort b c].active = true ∧ s.feedBlock b c = (n, len) ∧ 0 < len ∧ ((s.bay b).ddc[s.feedPort b c].stretchOf n).isSome = true ∧ xs.length = ((s.bay b).ddc[s.feedPort b c].needs n len).2 ∧ s.coreAwake b c = true ∧ s.fldN Fld.mcoCIqBase b c.val % 4 = 0 ∧ s.fldN Fld.mcoCIqBase b c.val < 131072 ∧ ((s.core b c).peekWord (s.fldN Fld.mcoCIqBase b c.val) - (s.core b c).peekWord (s.fldN Fld.mcoCIqBase b c.val + 4)).toNat < s.fldN Fld.mcoCIqBlocks b c.val) ∧
    -- iqFeedBlock_drop
    (∃ (s : State) (b : BayNo) (c : CoreNo) (xs : List Sample) (n : Nat) (len : Nat), s.alive b = true ∧ s.fldB Fld.mcoCIqEn b c.val = true ∧ (s.core b c).mode ≠ .off ∧ (s.bay b).ddc[s.feedPort b c].active = true ∧ s.feedBlock b c = (n, len) ∧ 0 < len ∧ ((s.bay b).ddc[s.feedPort b c].stretchOf n).isSome = true ∧ xs.length = ((s.bay b).ddc[s.feedPort b c].needs n len).2 ∧ s.fldN Fld.mcoCIqBlocks b c.val ≤ ((s.core b c).peekWord (s.fldN Fld.mcoCIqBase b c.val) - (s.core b c).peekWord (s.fldN Fld.mcoCIqBase b c.val + 4)).toNat) ∧
    -- coreTimerExpire_done
    (∃ (s : State) (b : BayNo) (c : CoreNo) (a : Stamp), s.alive b = true ∧ (s.core b c).timerDue = some a ∧ (s.core b c).mode = .run) ∧
    -- watchdogExpire_done
    (∃ (s : State) (b : BayNo) (c : CoreNo), s.alive b = true ∧ s.fldN Fld.mcoCWatchdog b c.val ≠ 0 ∧ (s.core b c).mode = .run ∧ (s.core b c).ebbed = false) ∧
    -- coreRestart_done
    (∃ (s : State) (b : BayNo) (c : CoreNo), s.coreAwake b c = true ∧ (s.core b c).mode = .fault ∧ s.fldB Fld.mcoCRestart b c.val = true) ∧
    -- mcCtrlHalt_done
    (∃ (s : State) (b : BayNo) (c : CoreNo), s.ctrlOpen b c = true ∧ (s.core b c).mode = .run) ∧
    -- mcCtrlResume_done
    (∃ (s : State) (b : BayNo) (c : CoreNo), s.ctrlOpen b c = true ∧ (s.core b c).mode = .halted) ∧
    -- mcCtrlReset_done
    (∃ (s : State) (b : BayNo) (c : CoreNo), s.ctrlOpen b c = true ∧ (s.core b c).mode ≠ .off) ∧
    -- mcCtrl_sealed
    (∃ (s : State) (b : BayNo) (c : CoreNo), s.sealedCore b c = true ∧ s.keeper.fuses.metrology = true) ∧
    -- mcMboxInWrite_done
    (∃ (s : State) (b : BayNo) (c : CoreNo) (v : Word), s.queueAwake b = true ∧ s.sealedCore b c = false) ∧
    -- mcMboxOutRead_done
    (∃ (s : State) (b : BayNo) (c : CoreNo), s.queueAwake b = true ∧ s.sealedCore b c = false) ∧
    -- coreImemWrite_done
    (∃ (s : State) (b : BayNo) (a : BitVec 14) (v : Word) (c : CoreNo), s.queueAwake b = true ∧ (s.bay b).mco.win.toNat = c.val ∧ s.sealedCore b c = false) ∧
    -- coreEbb_done
    (∃ (s : State) (b : BayNo) (c : CoreNo), s.coreAwake b c = true ∧ (s.core b c).mode = .run ∧ (s.core b c).waiting = true ∧ (s.core b c).ebbed = false ∧ s.sealedCore b c = false ∧ inMask (s.fldN Fld.pwrCoreEbb b) c.val = true ∧ s.pwr.state = .run) ∧
    -- coreFloodDone_done
    (∃ (s : State) (b : BayNo) (c : CoreNo), s.alive b = true ∧ (s.core b c).ebbed = true ∧ (s.core b c).called = true) :=
  ⟨⟨((wm 0 fun k => k).modBay 0 fun y => { y with ddc := Vector.replicate 4 { DdcPort.reset with active := true, paused := false, line := [st] } }) |>.setFld Fld.mcoCIqEn 0 2 1 |>.setFld Fld.mcoCIqBlock 0 2 2, 0, 2, xfeed, 0, 2, by decide +kernel⟩,
   ⟨((wm 0 fun k => { k with mem := [(0, 9)] }).modBay 0 fun y => { y with ddc := Vector.replicate 4 { DdcPort.reset with active := true, paused := false, line := [st] } }) |>.setFld Fld.mcoCIqEn 0 2 1 |>.setFld Fld.mcoCIqBlock 0 2 2, 0, 2, xfeed, 0, 2, by decide +kernel⟩,
   ⟨wm 0 fun k => { k with timerDue := some 5, timer := 9 }, 0, 2, 5, by decide +kernel⟩,
   ⟨(wm 0 id).setFld Fld.mcoCWatchdog 0 2 9, 0, 2, by decide +kernel⟩,
   ⟨(wm 0 fun k => { k with mode := .fault }).setFld Fld.mcoCRestart 0 2 1, 0, 2, by decide +kernel⟩,
   ⟨wm 0 id, 0, 2, by decide +kernel⟩,
   ⟨wm 0 fun k => { k with mode := .halted }, 0, 2, by decide +kernel⟩,
   ⟨wm 0 fun k => { k with mode := .halted }, 0, 2, by decide +kernel⟩,
   ⟨((wm 0 id).setFld Fld.mcoSealCores 0 0 3).modSeal fun k => { k with fuses := { k.fuses with metrology := true } }, 0, 1, by decide +kernel⟩,
   ⟨wm 0 id, 0, 2, 77, by decide +kernel⟩,
   ⟨wm 0 fun k => { k with mboxOut := 7 }, 0, 2, by decide +kernel⟩,
   ⟨(wm 0 fun k => { k with mode := .halted }).modBay 0 fun y => { y with mco := { y.mco with win := 2 } }, 0, 7, 99, 2, by decide +kernel⟩,
   ⟨(wm 0 fun k => { k with waiting := true }).setFld Fld.pwrCoreEbb 0 0 4, 0, 2, by decide +kernel⟩,
   ⟨wm 0 fun k => { k with waiting := true, ebbed := true, ipend := 1, imask := 1 }, 0, 2, by decide +kernel⟩⟩

end Mco2

namespace Dma

/-- An image is in force. -/
def wim (f : Bay → Bay) : State := (wb f).modImg fun i => { i with image := some im0 }
/-- DMA channel 3 of bay 0 in a mode, with an image in force. -/
def wd0 (mode : Int) (f : DmaChan → DmaChan) : State :=
  ((((wim fun y => { y with dma := { y.dma with chans := y.dma.chans.set 3 (f DmaChan.reset) } }).setFld Fld.dmaMode 0 3 mode).setFld Fld.dmaEndpoint 0 3 0).setFld Fld.dmaQueue 0 3 5)
/-- A record in queue 5 of bay 0. -/
def rq : Rec := w.mkRec 0 { typ := .status, source := 0xF1, stamp := 5, w6hi := 7, payload := List.replicate 8 0 } 0
def wq (mode : Int) (f : DmaChan → DmaChan) : State := (wd0 mode f).modQueue 0 5 fun q => { q with entries := [{ record := rq, inReserve := false }] }
/-- The control endpoint serves channel 3 of bay 0. -/
def wep (s : State) : State := (s.modPci 0 4 fun e => { e with linkUp := true, bme := true, d3 := false })
def c1 (c : DmaChan) : DmaChan := { c with ringEnable := true, ringSize := 12, ringLog2 := 12 }
/-- The record has been committed and wholly sent. -/
def c2 (c : DmaChan) : DmaChan := { c1 c with state := .run, cur := some rq, sent := rq.bytes }
def c3 (c : DmaChan) : DmaChan := { c1 c with state := .run, cur := some rq, sent := 0 }
/-- A transfer under way from host memory to capture memory. -/
def c4 (c : DmaChan) : DmaChan := { c with state := .run, length := 64, fromAddr := 0, toAddr := 0 }
def wt4 (f : DmaChan → DmaChan) : State := ((wd0 4 f).setFld Fld.dmaSrcSpace 0 3 0).setFld Fld.dmaDstSpace 0 3 1
/-- Port 1 of bay 0 streams: its outputs lie on one stretch, one to a record. -/
def wiq : State :=
  ((wb fun y => { y with ddc := y.ddc.map fun d => { d with
    active := true, paused := false
    line := [{ born := 0, input := 0, first := 0, start := Exact.of 1 1, step := Exact.of 1 100, ratio := 2, preset := 0, k := 1, afterGap := false }] } }).setFld
      Fld.quePIqSamples 0 1 1).setFld Fld.quePIqEn 0 1 1

/-- States and operands that meet the hypotheses of every clause of QueuesAndDma. -/
theorem wit_QueuesAndDma :
    -- queFlush_one
    (∃ (s : State) (b : BayNo) (i : Fin 16), s.queueAwake b = true) ∧
    -- queReservePeakRead_done
    (∃ (s : State) (b : BayNo), s.queueAwake b = true) ∧
    -- sealedRecordMac_done
    (∃ (s : State) (queue : Nat) (r : Rec) (rest : List (Nat × Rec)), s.alive 0 = true ∧ s.keeper.macQueue = (queue, r) :: rest) ∧
    -- dmaGo_starts
    (∃ (s : State) (b : BayNo) (n : Fin 32), s.dmaOn b = true ∧ s.dmaMode b n = 4 ∧ (s.chan b n).state = .idle ∧ (s.chan b n).src.toNat % s.elemBytes b n false = 0 ∧ (s.chan b n).dst.toNat % s.elemBytes b n true = 0 ∧ (s.chan b n).count.toNat % max (s.elemBytes b n false) (s.elemBytes b n true) = 0) ∧
    -- dmaGo_align
    (∃ (s : State) (b : BayNo) (n : Fin 32), s.dmaOn b = true ∧ s.dmaMode b n = 4 ∧ (s.chan b n).state = .idle ∧ (s.chan b n).src.toNat % s.elemBytes b n false ≠ 0) ∧
    -- dmaGo_busy
    (∃ (s : State) (b : BayNo) (n : Fin 32), s.dmaOn b = true ∧ s.dmaMode b n = 4 ∧ (s.chan b n).state ≠ .idle) ∧
    -- dmaAbort_done
    (∃ (s : State) (b : BayNo) (n : Fin 32), s.dmaOn b = true ∧ s.dmaMode b n = 4 ∧ (s.chan b n).state = .run) ∧
    -- dmaClear_done
    (∃ (s : State) (b : BayNo) (n : Fin 32), s.dmaOn b = true ∧ (s.chan b n).state = .error) ∧
    -- dmaRingCfgWrite_enables
    (∃ (s : State) (b : BayNo) (n : Fin 32) (v : Word), s.dmaOn b = true ∧ v.getLsbD 31 = true ∧ (s.chan b n).ringEnable = false ∧ 12 ≤ (v.extractLsb' 0 5).toNat ∧ (v.extractLsb' 0 5).toNat ≤ 30) ∧
    -- dmaRingCfgWrite_disables
    (∃ (s : State) (b : BayNo) (n : Fin 32) (v : Word), s.dmaOn b = true ∧ v.getLsbD 31 = false) ∧
    -- dmaRecordStart_commits
    (∃ (s : State) (b : BayNo) (n : Fin 32) (e : QEntry) (rest : List QEntry), s.dmaOn b = true ∧ s.dmaMode b n = 1 ∧ (s.chan b n).state ≠ .error ∧ (s.chan b n).cur = none ∧ (s.bay b).que.queues[s.dmaQueueNo b n].entries = e :: rest ∧ s.destTakes b n e.record.bytes = true ∧ e.record.bytes ≤ 2 ^ (s.chan b n).ringSize - 32) ∧
    -- dmaRecordStart_waits
    (∃ (s : State) (b : BayNo) (n : Fin 32) (e : QEntry) (rest : List QEntry), s.dmaOn b = true ∧ s.queueMode b n = true ∧ (s.chan b n).state ≠ .error ∧ (s.chan b n).cur = none ∧ (s.bay b).que.queues[s.dmaQueueNo b n].entries = e :: rest ∧ s.destTakes b n e.record.bytes = false ∧ (s.chan b n).ringEnable = false) ∧
    -- dmaBurst_record
    (∃ (s : State) (b : BayNo) (n : Fin 32) (r : Rec), s.dmaOn b = true ∧ s.dmaMode b n = 1 ∧ (s.chan b n).cur = some r ∧ (s.chan b n).sent < r.bytes ∧ s.destOpen b n = true ∧ (s.chan b n).nextBurst = none ∧ s.granted b n s.now = true) ∧
    -- dmaBurst_waits
    (∃ (s : State) (b : BayNo) (n : Fin 32) (data : List Byte), s.dmaOn b = true ∧ s.queueMode b n = true ∧ s.wantsBurst b n = true ∧ s.destOpen b n = false) ∧
    -- dmaRecordDelivered_ring
    (∃ (s : State) (b : BayNo) (n : Fin 32) (r : Rec), s.dmaOn b = true ∧ s.dmaMode b n = 1 ∧ (s.chan b n).cur = some r ∧ (s.chan b n).sent = r.bytes ∧ s.destOpen b n = true) ∧
    -- dmaTransferDone_done
    (∃ (s : State) (b : BayNo) (n : Fin 32), s.dmaOn b = true ∧ s.dmaMode b n = 4 ∧ (s.chan b n).state = .run ∧ (s.chan b n).length ≤ (s.chan b n).written) ∧
    -- asleepCompletion_dropped
    (∃ (s : State) (b : BayNo) (n : Fin 32) (q : BayNo), s.dmaOn b = true ∧ s.queueMode b n = true ∧ s.wantsBurst b n = true ∧ s.dmaTarget b n = some q ∧ s.alive q = true ∧ s.reaches b q = true ∧ (s.bay q).pwr.ports = false ∧ s.fldB Fld.dmaWake b n.val = false) ∧
    -- hostReadTimeout_done
    (∃ (s : State) (b : BayNo) (n : Fin 32), s.hostReads b n = true) ∧
    -- hostErrorCompletion_done
    (∃ (s : State) (b : BayNo) (n : Fin 32), s.hostReads b n = true) ∧
    -- recordEnqueue_done
    (∃ (s : State) (b : BayNo) (p : Port) (xs : List Sample), s.queueAwake b = true ∧ s.streams b p = true ∧ (s.bay b).ddc[p].active = true ∧ ((s.bay b).ddc[p].stretchOf (s.bay b).ddc[p].sent).isSome = true ∧ (s.bay b).ddc[p].sent < (s.nextIq b p).at_ ∧ (((s.bay b).ddc[p].ended.all fun e => decide ((s.nextIq b p).at_ ≤ e)) = true) ∧ xs.length = ((s.bay b).ddc[p].needs (s.bay b).ddc[p].sent ((s.nextIq b p).at_ - (s.bay b).ddc[p].sent)).2) :=
  ⟨⟨w, 2, 5, by decide +kernel⟩,
   ⟨w, 2, by decide +kernel⟩,
   ⟨w.modSeal fun y => { y with macQueue := [(3, w.mkRec 0 (w.statusBody 0 1 []) 0)] }, 3, w.mkRec 0 (w.statusBody 0 1 []) 0, [], by decide +kernel⟩,
   ⟨wt4 id, 0, 3, by decide +kernel⟩,
   ⟨((wt4 fun c => { c with src := 1 }).setFld Fld.dmaSrcWidth 0 3 2), 0, 3, by decide +kernel⟩,
   ⟨wt4 c4, 0, 3, by decide +kernel⟩,
   ⟨wt4 c4, 0, 3, by decide +kernel⟩,
   ⟨wt4 fun c => { c with state := .error }, 0, 3, by decide +kernel⟩,
   ⟨wd0 1 id, 0, 3, 0x8000000C, by decide +kernel⟩,
   ⟨wd0 1 c1, 0, 3, 12, by decide +kernel⟩,
   ⟨wep (wq 1 c1), 0, 3, { record := rq, inReserve := false }, [], by decide +kernel⟩,
   ⟨wq 1 id, 0, 3, { record := rq, inReserve := false }, [], by decide +kernel⟩,
   ⟨wep (wd0 1 c3), 0, 3, rq, by decide +kernel⟩,
   ⟨wd0 1 c3, 0, 3, [], by decide +kernel⟩,
   ⟨wep (wd0 1 c2), 0, 3, rq, by decide +kernel⟩,
   ⟨wt4 fun c => { c4 c with written := 64 }, 0, 3, by decide +kernel⟩,
   ⟨((wep (wd0 2 c3)).setFld Fld.ethSPort 0 0 0).setFld Fld.dmaStream 0 3 0 |>.modBay 0 (fun y => { y with pwr := { y.pwr with ports := false } }), 0, 3, 0, by decide +kernel⟩,
   ⟨wt4 c4, 0, 3, by decide +kernel⟩,
   ⟨wt4 c4, 0, 3, by decide +kernel⟩,
   ⟨wiq, 0, 1, List.replicate ((wiq.bay 0).ddc[(1 : Fin 4)].needs 0 1).2 { i := 1, q := 2 }, by decide +kernel⟩⟩

/-- States and operands that meet the hypotheses of every clause of RegisterMapAndService. -/
theorem wit_RegisterMapAndService :
    -- registerWrite_scratch
    (∃ (s : State) (v : Word), s.alive 0 = true ∧ (s.bay 0).pci[(4 : Fin 5)].linkUp = true ∧ (s.bay 0).pwr.supervisor = true ∧ s.retryConfig = false ∧ s.initHeld = false) ∧
    -- registerWrite_bytes
    (∃ (s : State) (v : Word), s.alive 0 = true ∧ (s.bay 0).pci[(4 : Fin 5)].linkUp = true ∧ (s.bay 0).pwr.supervisor = true ∧ s.retryConfig = false ∧ s.initHeld = false) ∧
    -- capturePut_read
    (∃ (s : State) (b : BayNo) (a : Nat) (x : Nat) (v : Byte), a < 0x4000000 ∧ s.captureFree b ≤ a ∧ s.captureFree b ≤ x ∧ x ≠ a ∧ x < 0x4000000) ∧
    -- registerWrite_capture
    (∃ (s : State) (v : Word) (o : Nat) (x : Nat), s.alive 0 = true ∧ (s.bay 0).pci[(4 : Fin 5)].linkUp = true ∧ (s.bay 0).pwr.datapath = true ∧ s.retryConfig = false ∧ s.initHeld = false ∧ o % 4 = 0 ∧ o < 0x2000000 ∧ ((x < s.apertureAddr 0 o ∨ s.apertureAddr 0 o + 4 ≤ x))) ∧
    -- svcTransaction_refused
    (∃ (s : State) (a : Word) (bs : List Byte), s.alive 0 = true ∧ s.pinned 0 = true ∧ s.pwr.state ≠ .off ∧ s.retryConfig = false ∧ a.toNat % 4 ≠ 0) ∧
    -- svcTransaction_alertMask
    (∃ (s : State) (v : BitVec 8), s.alive 0 = true ∧ s.pinned 0 = true ∧ s.pwr.state ≠ .off ∧ s.retryConfig = false ∧ s.part.bays ≠ 0 ∧ s.initHeld = false ∧ (s.bay 0).pwr.supervisor = true) ∧
    -- svcAlertClear_done
    (∃ (s : State) (v : Word), s.alive 0 = true ∧ s.pinned 0 = true ∧ s.pwr.state ≠ .off ∧ s.retryConfig = false) ∧
    -- jtagUpdateIr_pins
    (∃ (s : State) (b : BayNo) (op : JtagOp), s.present b = true ∧ op ≠ .debug) ∧
    -- jtagUpdateIr_fuse
    (∃ (s : State) (b : BayNo), s.keeper.fuses.metrology = true) ∧
    -- jtagTestLogicReset_done
    (∃ (s : State) (b : BayNo), s.present b = true) :=
  ⟨⟨wep (wim id), 0xABCD1234, by decide +kernel⟩,
   ⟨wep (wim id), 0xABCD1234, by decide +kernel⟩,
   ⟨w, 0, 0x3FFFFFF, 0x3FFFFFE, 0x5A, by decide +kernel⟩,
   ⟨wep (wim id), 0x12345678, 0x1000, 0x1004, by decide +kernel⟩,
   ⟨wim id, 0x111, [1, 2, 3, 4], by decide +kernel⟩,
   ⟨wim id, 0x5A, by decide +kernel⟩,
   ⟨(wim id).modIdent fun y => { y with alert := 0xFF }, 3, by decide +kernel⟩,
   ⟨w, 2, .extest, by decide +kernel⟩,
   ⟨w.modSeal fun k => { k with fuses := { k.fuses with metrology := true } }, 0, by decide +kernel⟩,
   ⟨w, 2, by decide +kernel⟩⟩

end Dma

namespace Rec

/-- Bay 0 has a recorder of four drive places. -/
def wrc (f : Recorder → Recorder) : State :=
  ((((wb fun y => { y with recorder := f Recorder.reset }).setFld Fld.recEn 0 0 1).setFld Fld.recDrives 0 0 4).setFld Fld.recLagRows 0 0 4).setFld Fld.recDriveWait 0 0 5

/-- A small volume part of four members. -/
def vol : Volume := { members := 4, unit := 65536, indexMib := 16, base := 0, size := 3 * 65536 * 100, generation := 3 }

/-- The first four drives are members of it. -/
def mem4 (y : Recorder) : Recorder :=
  { y with volume := some vol, state := .idle
           drives := Vector.ofFn fun d => if d.val < 4 then { Drive.reset with state := .member, label := .own 3 } else .reset }

/-- Recording in progress. -/
def recOn (y : Recorder) : Recorder := { mem4 y with state := .recording, sessionOpen := true, session := 2 }

/-- A record in the log. -/
def rc1 : Rec := w.mkRec 0 { typ := .status, source := 0xF1, stamp := 5, w6hi := 7, payload := List.replicate 8 0 } 0

/-- A replay of the whole log to the host. -/
def rp0 : Replay := { target := 0, lo := 0, hi := BitVec.allOnes 96, source := 0xFF, typ := 0, next := 0, delivered := 0, limit := 1, upto := 0, stalled := false, epoch := none }

/-- The two rings on and bay 0's recorder as given. -/
def wrr (f : Recorder → Recorder) : State :=
  (((wr.modRec 0 f).setFld Fld.recEn 0 0 1).setFld Fld.recDrives 0 0 4)
def wrrt (f : Recorder → Recorder) : State := ((wrr f).takeCommand).getD (wrr f)

/-- What Identify and the label of a drive of namespace 1 tell. -/
def di (l : Option Label) : DriveInfo := { capacity := 1000000, namespaces := [1], lbaBytes := 4096, metaBytes := 0, mdts := 0, label := l }

/-- The label of another bay's drive. -/
def lab7 : Label :=
  { serial := 0, bay := 7, member := 0, members := 4, stripeLog2 := 16, indexMib := 16, base := 0, size := 0, generation := 2, states := [], logPos := 0 }

/-- States and operands that meet the hypotheses of every clause of RecorderDrives. -/
theorem wit_RecorderDrives :
    -- driveLinkTrained_done
    (∃ (s : State) (b : BayNo) (d : Fin 8) (g : Nat) (n : Nat), s.alive b = true ∧ s.memberPlace b d = true ∧ (s.drive b d).state = .absent) ∧
    -- driveTrainRetry_done
    (∃ (s : State) (b : BayNo) (d : Fin 8), s.alive b = true ∧ s.memberPlace b d = true ∧ (s.drive b d).state = .absent) ∧
    -- driveReady_waits
    (∃ (s : State) (b : BayNo) (d : Fin 8) (i : DriveInfo), s.alive b = true ∧ s.memberPlace b d = true ∧ (s.drive b d).state = .init ∧ (s.recd b).state ≠ .waiting ∧ (s.recd b).failedMember ≠ some d ∧ s.usable b d i = true ∧ i.label = none) ∧
    -- driveReady_foreign
    (∃ (s : State) (b : BayNo) (d : Fin 8) (i : DriveInfo), s.alive b = true ∧ s.memberPlace b d = true ∧ (s.drive b d).state = .init ∧ (s.recd b).state ≠ .waiting ∧ s.fldB Fld.recOverwrite b = false ∧ s.usable b d i = true ∧ s.classify b i.label = .foreign) ∧
    -- driveWaitExpire_failed
    (∃ (s : State) (b : BayNo), s.alive b = true ∧ (s.recd b).state = .waiting ∧ ((∀ x ∈ s.liveBays, x.val < b.val → (s.recd x).state ≠ .waiting)) ∧ ((s.reach (later (s.recd b).origin (ofMs (1000 * s.fldN Fld.recDriveWait b)))).candidates b).length + 1 < s.fldN Fld.recDrives b) ∧
    -- smartPoll_done
    (∃ (s : State) (b : BayNo) (d : Fin 8) (temp : BitVec 16) (media : BitVec 16) (used : BitVec 8), s.alive b = true ∧ s.memberPlace b d = true ∧ (s.drive b d).state = .member) ∧
    -- recLatMaxRead_done
    (∃ (s : State) (b : BayNo) (d : Fin 8), s.queueAwake b = true ∧ (s.bay b).pwr.ports = true) ∧
    -- driveLinkDown_first
    (∃ (s : State) (b : BayNo) (d : Fin 8), s.alive b = true ∧ s.memberPlace b d = true ∧ (s.drive b d).state = .member ∧ (s.recd b).failedMember = none) ∧
    -- controllerFatalStatus_second
    (∃ (s : State) (b : BayNo) (d : Fin 8) (e : Fin 8), s.alive b = true ∧ s.memberPlace b d = true ∧ (s.drive b d).state = .member ∧ (s.recd b).failedMember = some e ∧ e ≠ d) ∧
    -- driveCommandTimeout_first
    (∃ (s : State) (b : BayNo) (d : Fin 8) (r : RowWrite), s.alive b = true ∧ ((s.recd b).rows.find? (fun r => r.left.contains d) = some r) ∧ (s.drive b d).state = .member ∧ (s.recd b).failedMember = none) ∧
    -- nvmeCompletion_last
    (∃ (s : State) (b : BayNo) (d : Fin 8) (row : Nat) (at' : Stamp), s.alive b = true ∧ (s.recd b).rows = [{ row := row, left := [d], issued := at' }] ∧ 0 < s.fldN Fld.recLagRows b) ∧
    -- failoverResume_done
    (∃ (s : State) (b : BayNo) (d : Fin 8) (v : Volume), s.alive b = true ∧ (s.recd b).failedMember = some d ∧ (s.recd b).failover = true ∧ (s.recd b).volume = some v) ∧
    -- rebuildRowDone_row
    (∃ (s : State) (b : BayNo) (d : Fin 8) (v : Volume) (r : Nat), s.alive b = true ∧ (s.recd b).rebuild = some r ∧ (s.recd b).volume = some v ∧ (s.recd b).failedMember = some d ∧ (s.recd b).state = .idle ∧ r + 1 < v.rowCount) ∧
    -- rebuildRowDone_last
    (∃ (s : State) (b : BayNo) (d : Fin 8) (v : Volume) (r : Nat), s.alive b = true ∧ (s.recd b).rebuild = some r ∧ (s.recd b).volume = some v ∧ (s.recd b).failedMember = some d ∧ (s.recd b).state = .idle ∧ v.rowCount ≤ r + 1) :=
  ⟨⟨wrc id, 0, 1, 5, 4, by decide +kernel⟩,
   ⟨wrc id, 0, 3, by decide +kernel⟩,
   ⟨wrc fun y => { y with drives := y.drives.set 1 { Drive.reset with state := .init, gen := 5, width := 4 } }, 0, 1, di none, by decide +kernel⟩,
   ⟨wrc fun y => { y with drives := y.drives.set 1 { Drive.reset with state := .init, gen := 5, width := 4 } }, 0, 1, di (some lab7), by decide +kernel⟩,
   ⟨wrc fun y => { y with state := .waiting }, 0, by decide +kernel⟩,
   ⟨wrc mem4, 0, 2, 310, 4, 9, by decide +kernel⟩,
   ⟨wrc mem4, 0, 2, by decide +kernel⟩,
   ⟨wrc recOn, 0, 2, by decide +kernel⟩,
   ⟨(wrc fun y => { mem4 y with failedMember := some 1 }), 0, 2, 1, by decide +kernel⟩,
   ⟨(wrc fun y => { recOn y with rows := [{ row := 0, left := [1, 2], issued := 0 }] }), 0, 2, { row := 0, left := [1, 2], issued := 0 }, by decide +kernel⟩,
   ⟨(wrc fun y => { recOn y with rows := [{ row := 0, left := [2], issued := 0 }] }), 0, 2, 0, 0, by decide +kernel⟩,
   ⟨(wrc fun y => { recOn y with failedMember := some 1, failover := true }), 0, 1, vol, by decide +kernel⟩,
   ⟨(wrc fun y => { mem4 y with failedMember := some 1, rebuild := some 4 }), 0, 1, vol, 4, by decide +kernel⟩,
   ⟨(wrc fun y => { mem4 y with failedMember := some 1, rebuild := some 99 }), 0, 1, vol, 99, by decide +kernel⟩⟩

/-- States and operands that meet the hypotheses of every clause of RecordingAndReplay. -/
theorem wit_RecordingAndReplay :
    -- recStart_accepted
    (∃ (s : State) (u : State) (tag : Word) (mask : BitVec 8) (fresh : Bool) (erase : Bool), s.takeCommand = some u ∧ u.img.state = .run ∧ ((erase = true → fresh = true)) ∧ ((∀ b ∈ allBays, inMask mask.toNat b.val = true → u.alive b = true ∧ u.startable b fresh = true ∧ (u.recd b).startReq = none))) ∧
    -- recStart_early
    (∃ (s : State) (u : State) (tag : Word) (mask : BitVec 8) (fresh : Bool) (erase : Bool) (t0 : Stamp), s.takeCommand = some u ∧ u.img.state = .run ∧ t0 ≠ 0 ∧ stampLt t0 u.epochLead = true) ∧
    -- recStart_busy
    (∃ (s : State) (u : State) (tag : Word) (mask : BitVec 8) (b : BayNo), s.takeCommand = some u ∧ u.img.state = .run ∧ inMask mask.toNat b.val = true ∧ (u.recd b).state ≠ .idle) ∧
    -- recStartEffect_done
    (∃ (s : State) (b : BayNo) (r : StartReq), s.alive b = true ∧ (s.recd b).startReq = some r ∧ (s.bay b).pwr.ports = true ∧ s.startable b r.fresh = true) ∧
    -- recStop_accepted
    (∃ (s : State) (u : State) (tag : Word) (mask : BitVec 8) (b : BayNo) (t0 : Stamp), s.takeCommand = some u ∧ u.img.state = .run ∧ b ∈ u.maskBays mask.toNat ∧ t0 ≠ 0) ∧
    -- recStopEffect_recording
    (∃ (s : State) (b : BayNo) (t0 : Stamp) (v : Volume), s.alive b = true ∧ (s.recd b).stopReq = some t0 ∧ (s.recd b).state = .recording ∧ (s.recd b).volume = some v) ∧
    -- recStopEffect_ignored
    (∃ (s : State) (b : BayNo) (t0 : Stamp), s.alive b = true ∧ (s.recd b).stopReq = some t0 ∧ (s.recd b).state ≠ .recording) ∧
    -- recStopDone_done
    (∃ (s : State) (b : BayNo), s.alive b = true ∧ (s.recd b).stopping = true ∧ (s.recd b).rows = []) ∧
    -- recSyncTimer_row
    (∃ (s : State) (b : BayNo) (v : Volume), s.alive b = true ∧ (s.recd b).state = .recording ∧ (s.recd b).volume = some v ∧ (s.recd b).stopping = false ∧ (s.recd b).accepted = true ∧ 0 < v.rowBytes) ∧
    -- recFreezeReleaseOne_done
    (∃ (s : State) (b : BayNo) (i : Fin 64), (s.bay b).pwr.ports = true) ∧
    -- recFreezeReleaseAll_done
    (∃ (s : State) (b : BayNo), (s.bay b).pwr.ports = true) ∧
    -- replay_starts
    (∃ (s : State) (u : State) (tag : Word) (b : BayNo) (lo : Stamp) (hi : Stamp) (source : BitVec 8) (typ : BitVec 8), s.takeCommand = some u ∧ u.img.state = .run ∧ u.alive b = true ∧ (u.recd b).state = .idle ∧ (u.recd b).replay = none) ∧
    -- replay_busy
    (∃ (s : State) (u : State) (tag : Word) (b : BayNo) (target : BitVec 2) (lo : Stamp) (hi : Stamp) (source : BitVec 8) (typ : BitVec 8) (r : Replay), s.takeCommand = some u ∧ u.img.state = .run ∧ u.alive b = true ∧ (u.recd b).state = .idle ∧ (u.recd b).replay = some r) ∧
    -- replayDeliver_skipped
    (∃ (s : State) (b : BayNo) (r : Replay) (e : LogRec), s.alive b = true ∧ s.quiet = false ∧ (s.recd b).replay = some r ∧ s.replaySkip b r = s ∧ (s.recd b).replayNext r = .entry e ∧ (s.recd b).mayRead e = true) ∧
    -- replayDeliver_ends
    (∃ (s : State) (b : BayNo) (r : Replay) (c : Nat), s.alive b = true ∧ s.quiet = false ∧ (s.recd b).replay = some r ∧ s.replaySkip b r = s ∧ r.target = 0 ∧ (s.recd b).replayNext r = .ends c) ∧
    -- replayStall_done
    (∃ (s : State) (b : BayNo) (r : Replay) (t0 : Stamp), s.alive b = true ∧ (s.recd b).replay = some r ∧ r.target = 1 ∧ (s.bay b).ddc[(2 : Fin 4)].stopped = none) ∧
    -- replayResume_done
    (∃ (s : State) (b : BayNo) (r : Replay) (t0 : Stamp), s.alive b = true ∧ (s.recd b).replay = some r ∧ r.target = 2 ∧ r.stalled = true) :=
  ⟨⟨wrr mem4, wrrt mem4, 4, 1, true, false, by decide +kernel⟩,
   ⟨wrr mem4, wrrt mem4, 4, 1, true, false, 1, by decide +kernel⟩,
   ⟨wrr id, wrrt id, 4, 1, 0, by decide +kernel⟩,
   ⟨(wrc fun y => { mem4 y with startReq := some { tag := 4, due := 9, fresh := true, erase := false }, pos := 70 }), 0, { tag := 4, due := 9, fresh := true, erase := false }, by decide +kernel⟩,
   ⟨wrr recOn, wrrt recOn, 4, 1, 0, 900, by decide +kernel⟩,
   ⟨(wrc fun y => { recOn y with stopReq := some 5 }), 0, 5, vol, by decide +kernel⟩,
   ⟨(wrc fun y => { mem4 y with stopReq := some 5 }), 0, 5, by decide +kernel⟩,
   ⟨(wrc fun y => { recOn y with stopping := true }), 0, by decide +kernel⟩,
   ⟨(wrc fun y => { recOn y with accepted := true, pos := 100 }), 0, vol, by decide +kernel⟩,
   ⟨wrc mem4, 0, 5, by decide +kernel⟩,
   ⟨wrc mem4, 0, by decide +kernel⟩,
   ⟨wrr mem4, wrrt mem4, 4, 0, 0, 900, 255, 0, by decide +kernel⟩,
   ⟨wrr fun y => { mem4 y with replay := some rp0 }, wrrt fun y => { mem4 y with replay := some rp0 }, 4, 0, 0, 0, 900, 255, 0, rp0, by decide +kernel⟩,
   ⟨(wrc fun y => { mem4 y with replay := some rp0, log := [{ serial := 0, off := 0, record := rc1 }] }), 0, rp0, { serial := 0, off := 0, record := rc1 }, by decide +kernel⟩,
   ⟨(wrc fun y => { mem4 y with replay := some rp0 }), 0, rp0, 1, by decide +kernel⟩,
   ⟨(wrc fun y => { mem4 y with replay := some { rp0 with target := 1 } }), 0, { rp0 with target := 1 }, 77, by decide +kernel⟩,
   ⟨(wrc fun y => { mem4 y with replay := some { rp0 with target := 2, stalled := true } }), 0, { rp0 with target := 2, stalled := true }, 77, by decide +kernel⟩⟩

/-- States and operands that meet the hypotheses of every clause of FullRecorder. -/
theorem wit_FullRecorder :
    -- recTake_full
    (∃ (s : State) (b : BayNo) (r : Rec) (v : Volume), (s.recd b).state = .recording ∧ (s.recd b).volume = some v ∧ (s.recd b).stopping = false ∧ s.fldN Fld.recMode b = 0 ∧ s.recPlace b v r.bytes = none) ∧
    -- recTake_fullTold
    (∃ (s : State) (b : BayNo) (r : Rec) (v : Volume), (s.recd b).state = .recording ∧ (s.recd b).volume = some v ∧ (s.recd b).stopping = false ∧ s.fldN Fld.recMode b = 0 ∧ s.recPlace b v r.bytes = none) ∧
    -- recTake_fullDiscards
    (∃ (s : State) (b : BayNo) (r : Rec), (s.recd b).state = .full) ∧
    -- recStart_fullBusy
    (∃ (s : State) (u : State) (tag : Word) (mask : BitVec 8) (b : BayNo), s.takeCommand = some u ∧ u.img.state = .run ∧ inMask mask.toNat b.val = true ∧ (u.recd b).state = .full) ∧
    -- recStart_fullNew
    (∃ (s : State) (u : State) (tag : Word) (b : BayNo) (erase : Bool), s.takeCommand = some u ∧ u.img.state = .run ∧ u.alive b = true ∧ (u.recd b).state = .full ∧ (u.recd b).startReq = none) ∧
    -- recStartEffect_full
    (∃ (s : State) (b : BayNo) (r : StartReq), s.alive b = true ∧ (s.recd b).startReq = some r ∧ (s.bay b).pwr.ports = true ∧ r.fresh = true ∧ (s.recd b).state = .full) ∧
    -- recStartEffect_fullKept
    (∃ (s : State) (b : BayNo) (r : StartReq), (s.recd b).startReq = some r ∧ r.fresh = false ∧ (s.recd b).state = .full) :=
  ⟨⟨(wrc fun y => { recOn y with pos := 3 * 65536 * 100 }), 0, rc1, vol, by decide +kernel⟩,
   ⟨(wrc fun y => { recOn y with pos := 3 * 65536 * 100 }), 0, rc1, vol, by decide +kernel⟩,
   ⟨(wrc fun y => { mem4 y with state := .full }), 0, rc1, by decide +kernel⟩,
   ⟨wrr fun y => { mem4 y with state := .full }, wrrt fun y => { mem4 y with state := .full }, 4, 1, 0, by decide +kernel⟩,
   ⟨wrr fun y => { mem4 y with state := .full }, wrrt fun y => { mem4 y with state := .full }, 4, 0, true, by decide +kernel⟩,
   ⟨(wrc fun y => { mem4 y with state := .full, startReq := some { tag := 4, due := 9, fresh := true, erase := false }, pos := 70 }), 0, { tag := 4, due := 9, fresh := true, erase := false }, by decide +kernel⟩,
   ⟨(wrc fun y => { mem4 y with state := .full, startReq := some { tag := 4, due := 9, fresh := false, erase := false } }), 0, { tag := 4, due := 9, fresh := false, erase := false }, by decide +kernel⟩⟩

end Rec

namespace Lne

/-- An image is in force. -/
def wim (f : Bay → Bay) : State := (wb f).modImg fun i => { i with image := some im0 }
/-- External link 0 has the four lanes of quad 0 of bay 0, brought up in a mode. -/
def wln (mode : Int) (f : ExtLink → ExtLink) (g : Lane → Lane) : State :=
  ((((((wb fun y => { y with lne := { y.lne with lanes := y.lne.lanes.map g } }).setFld Fld.lnlLinkBay 0 0 0).setFld Fld.lnlLinkWidth 0 0 1).setFld Fld.lnlLinkQuad 0 0 0).setFld Fld.lneQdLnl 0 0 mode).modExt 0 f)
/-- Quad 1 of bay 0 is a TEST quad whose lanes are given. -/
def wte (g : Lane → Lane) : State := (((wim fun y => { y with lne := { y.lne with lanes := y.lne.lanes.map g } }).setFld Fld.lneQdUse 0 1 7).setFld Fld.lneQdTestRate 0 1 10000000)
def aw (l : Lane) : Lane := { l with tx := { LaneDir.reset with awake := true }, rx := { LaneDir.reset with awake := true } }
/-- A capability frame without its CRC's word: the right CRC. -/
def cf (w1 : Word) : Vector Word 4 := let a : Word := 0x4C4E4C53; #v[a, w1, 0, crc32c (wordsBytes [a, w1, 0])]

/-- States and operands that meet the hypotheses of every clause of LinkBringUp. -/
theorem wit_LinkBringUp :
    -- laneUp_blind
    (∃ (s : State) (b : BayNo) (k : Fin 24) (n : Fin 2) (j : Nat), s.extOf b k = some (n, j) ∧ s.lanePowered b k = true ∧ s.pinned b = true ∧ s.extMode n = 1 ∧ (s.ext n).lanesUp.getLsbD j = false ∧ (s.lane b k).txTaken = false ∧ (s.lane b k).rxTaken = false ∧ (s.ext n).stage = .blind ∧ j < s.extWidth n ∧ j < 8) ∧
    -- laneBringupTimeout_aside
    (∃ (s : State) (b : BayNo) (k : Fin 24) (n : Fin 2) (j : Nat), s.extOf b k = some (n, j) ∧ (s.ext n).stage = .blind ∧ (s.ext n).lanesUp.getLsbD j = false ∧ (s.lane b k).setAside = false ∧ b = s.linkBay ∧ k = s.extLane n j) ∧
    -- capabilityFrameRx_heard
    (∃ (s : State) (b : BayNo) (k : Fin 24) (n : Fin 2) (j : Nat) (f : Vector Word 4), s.extOf b k = some (n, j) ∧ (s.ext n).stage = .negotiate ∧ frameGood f = true ∧ j < 8 ∧ ((∃ i ∈ s.extLanes n, i < 8 ∧ i ≠ j ∧ (s.ext n).heard.getLsbD i = false))) ∧
    -- capabilityFrameRx_bad
    (∃ (s : State) (b : BayNo) (k : Fin 24) (f : Vector Word 4), frameGood f = false) ∧
    -- stepRungCheckDone_last
    (∃ (s : State) (n : Fin 2) (errs : List (Option Nat)), (s.ext n).stage = .ladder ∧ (s.ext n).passed = 0 ∧ (s.ext n).rate = (s.ext n).target ∧ 10000000 ≤ (s.ext n).target ∧ s.extWidth n = 4 ∧ errs = List.replicate 4 (some 0) ∧ ((∀ j ∈ s.extLanes n, (s.lane s.linkBay (s.extLane n j)).setAside = false))) ∧
    -- stepRungCheckDone_retry
    (∃ (s : State) (n : Fin 2) (errs : List (Option Nat)), (s.ext n).stage = .ladder ∧ (s.ext n).retried = 0 ∧ (s.ext n).passed = 0 ∧ s.extWidth n = 4 ∧ errs = [none, some 0, some 0, some 0] ∧ ((∀ j ∈ s.extLanes n, (s.lane s.linkBay (s.extLane n j)).setAside = false))) ∧
    -- lnlLanesFailTimeout_told
    (∃ (s : State) (n : Fin 2), s.extWidth n ≠ 0 ∧ (s.ext n).stage = .negotiate ∧ (s.ext n).failTold = false ∧ (s.ext n).firstFailed = false ∧ s.extMode n ≠ 1) ∧
    -- lnlBringupRestart_again
    (∃ (s : State) (n : Fin 2), (s.ext n).stage = .failed ∧ s.extWidth n ≠ 0 ∧ s.extMode n = 2) :=
  ⟨⟨wln 1 (fun x => { x with stage := .blind }) aw, 0, 1, 0, 1, by decide +kernel⟩,
   ⟨wln 1 (fun x => { x with stage := .blind }) aw, 0, 1, 0, 1, by decide +kernel⟩,
   ⟨wln 2 (fun x => { x with stage := .negotiate }) aw, 0, 1, 0, 1, cf 3, by decide +kernel⟩,
   ⟨wln 2 (fun x => { x with stage := .negotiate }) aw, 0, 1, #v[0, 0, 0, 0], by decide +kernel⟩,
   ⟨wln 2 (fun x => { x with stage := .ladder, rate := 10000000, target := 10000000 }) aw, 0, List.replicate 4 (some 0), by decide +kernel⟩,
   ⟨wln 2 (fun x => { x with stage := .ladder, rate := 10000000, target := 32000000 }) aw, 0, [none, some 0, some 0, some 0], by decide +kernel⟩,
   ⟨wln 2 (fun x => { x with stage := .negotiate }) aw, 0, by decide +kernel⟩,
   ⟨wln 2 (fun x => { x with stage := .failed }) aw, 0, by decide +kernel⟩⟩

/-- States and operands that meet the hypotheses of every clause of LaneControl. -/
theorem wit_LaneControl :
    -- laneLockLost_told
    (∃ (s : State) (b : BayNo) (k : Fin 24) (signal : Bool), s.lanePowered b k = true ∧ (s.lane b k).cdr = true ∧ (s.lane b k).inPort = true ∧ (s.lane b k).lockTold = false) ∧
    -- eyeMeasure_done
    (∃ (s : State) (b : BayNo) (k : Fin 24) (v : BitVec 8) (h : BitVec 6), s.lanePowered b k = true ∧ (s.lane b k).rx.awake = true ∧ (s.lane b k).cdr = true) ∧
    -- laneErrRead_latches
    (∃ (s : State) (b : BayNo) (k : Fin 24) (errs : Nat) (losses : Nat), s.lanePowered b k = true ∧ s.counts b k = true) ∧
    -- laneClear_done
    (∃ (s : State) (b : BayNo) (k : Fin 24), s.lanePowered b k = true) ∧
    -- laneTxSleep_enters
    (∃ (s : State) (b : BayNo) (k : Fin 24), s.lanePowered b k = true ∧ s.testQuad b k = true ∧ (s.lane b k).tx = { LaneDir.reset with awake := true }) ∧
    -- laneRxSleep_waits
    (∃ (s : State) (b : BayNo) (k : Fin 24), s.lanePowered b k = true ∧ s.testQuad b k = true ∧ (s.lane b k).rx = { LaneDir.reset with waking := true }) ∧
    -- laneTxWake_waits
    (∃ (s : State) (b : BayNo) (k : Fin 24), s.lanePowered b k = true ∧ s.testQuad b k = true ∧ (s.lane b k).tx = { LaneDir.reset with entering := true }) ∧
    -- laneRxWake_begins
    (∃ (s : State) (b : BayNo) (k : Fin 24), s.lanePowered b k = true ∧ s.testQuad b k = true ∧ (s.lane b k).rx = LaneDir.reset) ∧
    -- laneSleepDone_rx
    (∃ (s : State) (b : BayNo) (k : Fin 24), s.alive b = true ∧ (s.lane b k).rx.entering = true) ∧
    -- laneTxWakeDone_done
    (∃ (s : State) (b : BayNo) (k : Fin 24), s.lanePowered b k = true ∧ (s.lane b k).tx.waking = true) ∧
    -- laneRxWakeDone_done
    (∃ (s : State) (b : BayNo) (k : Fin 24) (rx : List Bool), s.lanePowered b k = true ∧ (s.lane b k).rx.waking = true) ∧
    -- laneSignalDetect_auto
    (∃ (s : State) (b : BayNo) (k : Fin 24), s.lanePowered b k = true ∧ (s.lane b k).rx = LaneDir.reset ∧ s.fldB Fld.lneRxAutowake b k.val = true) ∧
    -- laneTestWrite_done
    (∃ (s : State) (b : BayNo) (k : Fin 24) (v : BitVec 10) (rx : List Bool), s.lanePowered b k = true ∧ s.testQuad b k = true ∧ s.claimOf b k = none) ∧
    -- laneTestWrite_forbidden
    (∃ (s : State) (b : BayNo) (k : Fin 24) (v : BitVec 10) (rx : List Bool), s.lanePowered b k = true ∧ s.testQuad b k = false ∧ s.controlLane b k = false ∧ s.fldB Fld.lneTestAllow b = false ∧ v.getLsbD 8 = true) ∧
    -- laneResync_done
    (∃ (s : State) (b : BayNo) (k : Fin 24) (rx : List Bool), s.chkRuns b k = true) ∧
    -- errInject_done
    (∃ (s : State) (b : BayNo) (k : Fin 24), s.genRuns b k = true) :=
  ⟨⟨wte fun l => { aw l with cdr := true, inPort := true }, 0, 5, true, by decide +kernel⟩,
   ⟨(wte fun l => { aw l with cdr := true }).setFld Fld.lneRxEqMode 0 5 1, 0, 5, 7, 8, by decide +kernel⟩,
   ⟨wte fun l => { aw l with cdr := true, inPort := true }, 0, 5, 5, 0, by decide +kernel⟩,
   ⟨wte fun l => { aw l with err := 4 }, 0, 5, by decide +kernel⟩,
   ⟨wte aw, 0, 5, by decide +kernel⟩,
   ⟨wte fun l => { aw l with rx := { LaneDir.reset with waking := true } }, 0, 5, by decide +kernel⟩,
   ⟨wte fun l => { aw l with tx := { LaneDir.reset with entering := true } }, 0, 5, by decide +kernel⟩,
   ⟨wte fun l => { aw l with rx := .reset }, 0, 5, by decide +kernel⟩,
   ⟨wte fun l => { aw l with rx := { LaneDir.reset with entering := true, queued := some true } }, 0, 5, by decide +kernel⟩,
   ⟨wte fun l => { aw l with tx := { LaneDir.reset with waking := true } }, 0, 5, by decide +kernel⟩,
   ⟨wte fun l => { aw l with rx := { LaneDir.reset with waking := true } }, 0, 5, [true, false], by decide +kernel⟩,
   ⟨(wte fun l => { aw l with rx := .reset }).setFld Fld.lneRxAutowake 0 5 1, 0, 5, by decide +kernel⟩,
   ⟨wte fun l => { aw l with cdr := true }, 0, 5, 0x200, List.replicate 40 true, by decide +kernel⟩,
   ⟨wln 1 id aw, 0, 1, 0x100, [], by decide +kernel⟩,
   ⟨wte fun l => { aw l with cdr := true, test := 0x200 }, 0, 5, List.replicate 40 false, by decide +kernel⟩,
   ⟨wte fun l => { aw l with test := 0x100 }, 0, 5, by decide +kernel⟩⟩

end Lne

namespace Ports

/-- An image is in force. -/
def wim (f : Bay → Bay) : State := (wb f).modImg fun i => { i with image := some im0 }
/-- Ethernet port 0 of bay 0 exists. -/
def wet (f : EthPort → EthPort) : State := ((wim fun y => { y with eth := y.eth.set 0 (f EthPort.reset) }).setFld Fld.ethPEn 0 0 1).setFld Fld.ethPtpPort 0 0 64
/-- It works. -/
def wew : State := wet fun e => { e with linkUp := true, fecLock := true }
/-- A DMA channel of bay 0 feeds stream 5 from port 0, with port 1 of bay 0 as its standby. -/
def wst : State := ((((((wew.setFld Fld.dmaMode 0 3 2).setFld Fld.dmaStream 0 3 5).setFld Fld.ethSPort 0 5 0).setFld Fld.ethSStandby 0 5 1).setFld Fld.ethPEn 0 1 1).modBay 0 fun y => { y with eth := y.eth.set 1 { EthPort.reset with linkUp := true, fecLock := true } })
/-- The PTP client of port 0 follows a source. -/
def wpt (mode : Int) : State := ((wew.setFld Fld.ethPtpPort 0 0 0).modEthPkg fun y => { y with ptpState := 2, ptpSource := 7 }).setFld Fld.tbsDiscipline 0 0 mode
/-- Receiver 0 of bay 0 is enabled. -/
def wje (f : Jes → Jes) : State := ((wb fun y => { y with jes := y.jes.set 0 (f Jes.reset), tbs := { y.tbs with set := true } }).setFld Fld.jesSEn 0 0 1).setFld Fld.clkSysrefMode 0 0 1
/-- An exchange of PTP messages whose stamps agree with the source's. -/
def px (s : State) : PtpExchange :=
  { origin := s.ptpStamp 0 true, sync := 0, req := 0, reqAt := s.ptpStamp 0 false, resp := 0, respAt := 0 }
theorem px_offset : (wpt 3).ptpOffset (px (wpt 3)) = 0 := by
  have self : ∀ a : Stamp, stampDiff a a = 0 := by intro a; simp [stampDiff]
  have d : (wpt 3).pkgN Fld.ethPtpDelay = 0 := by decide +kernel
  have q : quarterPs ((wpt 3).fld Fld.ethPtpAsym 0) = 0 := by decide +kernel
  have e1 : stampDiff ((wpt 3).ptpStamp (px (wpt 3)).sync true) (px (wpt 3)).origin = 0 := self _
  have e2 : stampDiff (px (wpt 3)).reqAt ((wpt 3).ptpStamp (px (wpt 3)).req false) = 0 := self _
  unfold State.ptpOffset State.ptpPath
  rw [if_pos d, e1, e2, q]; rfl

/-- States and operands that meet the hypotheses of every clause of PcieEndpoints. -/
theorem wit_PcieEndpoints :
    -- pcieLinkUp_control
    (∃ (s : State), s.pciHere 0 4 = true ∧ s.pinned 0 = true ∧ s.pciGen 0 4 ≠ 0 ∧ s.pciLanes 0 4 ∈ [4, 8, 16]) ∧
    -- pcieLinkUp_degraded
    (∃ (s : State) (gen : Nat), s.pciHere 0 4 = true ∧ s.pinned 0 = true ∧ 0 < gen ∧ gen < s.pciGen 0 4 ∧ s.pciLanes 0 4 ∈ [4, 8, 16] ∧ s.img.image.isSome = true) ∧
    -- pcieLinkDown_done
    (∃ (s : State) (b : BayNo) (j : Fin 5), s.alive b = true ∧ (s.bay b).pci[j].linkUp = true) ∧
    -- pcieReset_done
    (∃ (s : State) (b : BayNo) (j : Fin 5), s.alive b = true ∧ (s.bay b).pci[j].linkUp = true) ∧
    -- pcieBmeChange_done
    (∃ (s : State) (b : BayNo) (j : Fin 5) (bme : Bool) (d3 : Bool), s.alive b = true ∧ (s.bay b).pci[j].linkUp = true ∧ s.retryConfig = false) ∧
    -- pcieBmeChange_retry
    (∃ (s : State) (b : BayNo) (bme : Bool) (d3 : Bool), s.alive b = true ∧ (s.bay b).pci[(4 : Fin 5)].linkUp = true ∧ s.retryConfig = true) :=
  ⟨⟨w, by decide +kernel⟩,
   ⟨wim id, 3, by decide +kernel⟩,
   ⟨wr, 0, 4, by decide +kernel⟩,
   ⟨wr, 0, 4, by decide +kernel⟩,
   ⟨wr, 0, 4, false, true, by decide +kernel⟩,
   ⟨(w.modPci 0 4 fun e => { e with linkUp := true }).modImg fun i => { i with state := .start }, 0, true, false, by decide +kernel⟩⟩

/-- States and operands that meet the hypotheses of every clause of EthernetPorts. -/
theorem wit_EthernetPorts :
    -- ethLinkUp_done
    (∃ (s : State) (b : BayNo) (i : Fin 8), s.ethHere b i = true ∧ s.pinned b = true ∧ (s.bay b).pwr.quads[(s.fldN Fld.ethPQuad b i.val) % 6]'(Nat.mod_lt _ (by decide)) = true ∧ (s.bay b).eth[i].linkUp = false) ∧
    -- ethLinkDown_done
    (∃ (s : State) (b : BayNo) (i : Fin 8), s.alive b = true ∧ (s.bay b).eth[i].linkUp = true) ∧
    -- ethPortFault_moves
    (∃ (s : State) (b : BayNo) (i : Fin 8) (n : Fin 64) (q : Nat), s.ethHere b i = true ∧ s.ethWorks (8 * b.val + i.val) = true ∧ s.streamUsed n = true ∧ s.streamPort n = 8 * b.val + i.val ∧ s.otherPort n = some q ∧ q ≠ 8 * b.val + i.val ∧ s.ethWorks q = true) ∧
    -- ethFailoverDone_done
    (∃ (s : State) (n : Fin 64), s.eth.streams[n].failing = true) ∧
    -- ethFrameRx_dropped
    (∃ (s : State) (b : BayNo) (i : Fin 8), s.ethHere b i = true ∧ (s.bay b).eth[i].linkUp = true) ∧
    -- ethFrameRx_answered
    (∃ (s : State) (b : BayNo) (i : Fin 8), s.ethHere b i = true ∧ (s.bay b).eth[i].linkUp = true) ∧
    -- ethFrameRx_ptp
    (∃ (s : State) (b : BayNo) (i : Fin 8) (c : BitVec 80), s.ethHere b i = true ∧ (s.bay b).eth[i].linkUp = true ∧ s.ptpPort = some (8 * b.val + i.val) ∧ s.eth.ptpSource ≠ c) ∧
    -- ptpOffsetMeasure_servo
    (∃ (s : State) (x : PtpExchange), s.alive 0 = true ∧ s.eth.ptpState = 2 ∧ s.packageNo = 0 ∧ s.pkgN Fld.tbsDiscipline = 2) ∧
    -- ptpOffsetMeasure_whole
    (∃ (s : State) (x : PtpExchange), s.alive 0 = true ∧ s.eth.ptpState = 2 ∧ s.packageNo = 0 ∧ s.pkgN Fld.tbsDiscipline = 3 ∧ -(unitsPerSec : Int) < 2 * s.ptpOffset x ∧ 2 * s.ptpOffset x < unitsPerSec) ∧
    -- ethResolveTimer_answered
    (∃ (s : State) (p : Fin 64) (d : Fin 16), s.ethHere (ethPortOf p.val).1 (ethPortOf p.val).2 = true ∧ (s.bay (ethPortOf p.val).1).eth[(ethPortOf p.val).2].linkUp = true ∧ s.multicast d.val = false ∧ (((s.portStreams p.val).any fun n => decide (s.pkgN Fld.ethSDest n.val = d.val)) = true) ∧ s.eth.neighbours = []) ∧
    -- ethResolveTimer_failed
    (∃ (s : State) (p : Fin 64) (d : Fin 16), s.ethHere (ethPortOf p.val).1 (ethPortOf p.val).2 = true ∧ (s.bay (ethPortOf p.val).1).eth[(ethPortOf p.val).2].linkUp = true ∧ s.multicast d.val = false ∧ (((s.portStreams p.val).any fun n => decide (s.pkgN Fld.ethSDest n.val = d.val)) = true) ∧ s.eth.neighbours = []) :=
  ⟨⟨wet id, 0, 0, by decide +kernel⟩,
   ⟨wew, 0, 0, by decide +kernel⟩,
   ⟨wst, 0, 0, 5, 1, by decide +kernel⟩,
   ⟨wst.modStream 5 fun x => { x with failing := true }, 5, by decide +kernel⟩,
   ⟨wew, 0, 0, by decide +kernel⟩,
   ⟨wew, 0, 0, by decide +kernel⟩,
   ⟨wew.setFld Fld.ethPtpPort 0 0 0, 0, 0, 9, by decide +kernel⟩,
   ⟨wpt 2, px (wpt 2), by decide +kernel⟩,
   ⟨wpt 3, px (wpt 3), by decide +kernel, by decide +kernel, by decide +kernel, by decide +kernel, by rw [px_offset]; decide, by rw [px_offset]; decide⟩,
   ⟨wst.setFld Fld.ethSDest 0 5 4, 0, 4, by decide +kernel⟩,
   ⟨wst.setFld Fld.ethSDest 0 5 4, 0, 4, by decide +kernel⟩⟩

/-- States and operands that meet the hypotheses of every clause of JesdReceivers. -/
theorem wit_JesdReceivers :
    -- sysrefInEdge_polarity
    (∃ (s : State) (b : BayNo) (a : Stamp) (falling : Bool) (long : Bool), s.fldB Fld.jesSysrefEdge b ≠ falling) ∧
    -- sysrefInEdge_grid
    (∃ (s : State) (v : State) (b : BayNo) (a : Stamp) (u : Stamp) (long : Bool), s.tdcEdge b 4 a long = (some u, v) ∧ s.alive b = true ∧ (v.bay b).tbs.tdcCoarse = false ∧ s.fldN Fld.jesSSysrefSrc b 0 = 0 ∧ s.fldB Fld.jesSEn b 0 = true ∧ (s.bay b).jes[(0 : Fin 2)].awaiting = true) ∧
    -- sysrefOutEdge_done
    (∃ (s : State) (b : BayNo), s.alive b = true ∧ (s.bay b).clk.gated = false ∧ s.fldN Fld.clkSysrefMode b = 1 ∧ s.fldN Fld.jesSSysrefSrc b 0 = 1 ∧ s.fldB Fld.jesSEn b 0 = true ∧ (s.bay b).jes[(0 : Fin 2)].awaiting = true) ∧
    -- sysrefOutEdge_gated
    (∃ (s : State) (b : BayNo), (s.bay b).clk.gated = true) ∧
    -- jesAligned_aligned
    (∃ (s : State) (b : BayNo) (x : Fin 2) (a : JesAlign) (g : Stamp), s.jesOn b x = true ∧ (s.bay b).ddc[xsPort x].aligned = false ∧ (s.bay b).jes[x].grid = some g ∧ s.img.state = .run ∧ s.fldN Fld.jesSStd b x.val ≠ 0 ∧ s.lateLane b x a.arrivals = none) ∧
    -- jesAligned_late
    (∃ (s : State) (b : BayNo) (x : Fin 2) (a : JesAlign) (g : Stamp) (i : Nat), s.jesOn b x = true ∧ (s.bay b).ddc[xsPort x].aligned = false ∧ (s.bay b).jes[x].grid = some g ∧ s.img.state = .run ∧ s.fldN Fld.jesSStd b x.val ≠ 0 ∧ s.lateLane b x a.arrivals = some i) :=
  ⟨⟨wje id, 0, 900, true, true, by decide +kernel⟩,
   ⟨wje fun j => { j with awaiting := true }, _, 0, 900, _, true, by rfl, by decide +kernel⟩,
   ⟨(wje fun j => { j with awaiting := true }).setFld Fld.jesSSysrefSrc 0 0 1, 0, by decide +kernel⟩,
   ⟨wb fun y => { y with clk := { y.clk with gated := true } }, 0, by decide +kernel⟩,
   ⟨(wje fun j => { j with grid := some 900 }).setFld Fld.jesSStd 0 0 1, 0, 0, { arrivals := [], ilas := [], locked := 15 }, 900, by decide +kernel⟩,
   ⟨(wje fun j => { j with grid := some 900 }).setFld Fld.jesSStd 0 0 1, 0, 0, { arrivals := [999999999999999999999], ilas := [], locked := 15 }, 900, 0, by decide +kernel⟩⟩

end Ports

namespace Lnl

/-- Bay 0's fabric ports up to bays 1, 2 and 4. -/
def wfa (f : LinkPort → LinkPort) : State :=
  { w with bays := w.bays.map fun y => { y with lnl := { y.lnl with ports := y.lnl.ports.map fun x => { f x with up := true, modules := 0xF } } } }
/-- Its routes computed. -/
def wro : State := [0, 1, 2, 3, 4, 5, 6, 7].foldl (fun s b => s.reroute b) (wfa id)
/-- A header to bay `d` of package 0, class 0, with a good CRC. -/
def hd (d : Nat) : Vector Word 4 :=
  let w0 : Word := wd (256 * d)
  #v[w0, 0, 0, (crc16 ((wordsBytes [w0, 0, 0]) ++ [0, 0])).setWidth 32 <<< 16]
/-- A flit of sequence number 0 that acknowledges 4095. -/
def fl : Vector Word 16 :=
  let w0 : Word := 0xFFF000
  #v[w0, 0, 0, 0, 0, 0, 0, 0, 0, 0, 0, 0, 0, 0, 0, crc32c (wordsBytes [w0, 0, 0, 0, 0, 0, 0, 0, 0, 0, 0, 0, 0, 0, 0])]
/-- An external link of a shoal of two packages. -/
def wsh (f : ExtLink → ExtLink) : State := (((((wfa id).setFld Fld.lnlShoalSize 0 0 2).setFld Fld.lnlLinkBay 0 0 0).setFld Fld.lnlLinkWidth 0 0 1).setFld Fld.lnlLinkQuad 0 0 0).modExt 0 fun x => f { x with stage := .framed, lanesUp := 0xF }
/-- Bay 3 has no route to any other bay. -/
def wcut : State :=
  { w with bays := (w.bays.map fun y => { y with lnl := { y.lnl with ports := y.lnl.ports.map fun x => { x with up := true, modules := 0xF } } }).set 3 { (w.bay 3) with lnl := { (w.bay 3).lnl with ports := (w.bay 3).lnl.ports.map fun x => { x with up := false } } } }
def isl3 : Isle := { bays := 8, holder := 3, holderPackage := 0, packages := 0, since := 0, gridFrom := 0, gridAt := 0 }
def wi3 : State := (wro.modLnl 3 fun l => { l with island := some isl3 }).modBay 3 fun y => { y with tbs := { y.tbs with islanded := true } }
def rj (o : Int) : Rejoin := { island := isl3, offset := o, boundary := 900 }
def hp : Held := { left := 0, due := some 900, packet := .data 0 (w.mkRec 0 { typ := .status, source := 0xF1, stamp := 5, w6hi := 7, payload := List.replicate 8 0 } 0) }

/-- States and operands that meet the hypotheses of every clause of FabricLinksAndRoutes. -/
theorem wit_FabricLinksAndRoutes :
    -- flitReceive_good
    (∃ (s : State) (b : BayNo) (p : Fin 5) (f : Vector Word 16) (x : LinkPort), s.linkPort b p = some x ∧ s.isUp b p = true ∧ flitGood f = true ∧ f[0].extractLsb' 0 12 = x.expect) ∧
    -- flitReceive_bad
    (∃ (s : State) (b : BayNo) (p : Fin 5) (f : Vector Word 16) (x : LinkPort), s.linkPort b p = some x ∧ s.isUp b p = true ∧ ((flitGood f = false ∨ f[0].extractLsb' 0 12 ≠ x.expect)) ∧ x.streak < 8) ∧
    -- flitReceive_eighth
    (∃ (s : State) (b : BayNo) (p : Fin 3) (f : Vector Word 16), s.isUp b ⟨p.val, by omega⟩ = true ∧ flitGood f = false ∧ (s.bay b).lnl.ports[p].streak = 8) ∧
    -- lnlFlitTimeout_down
    (∃ (s : State) (b : BayNo) (p : Fin 3), s.isUp b ⟨p.val, by omega⟩ = true) ∧
    -- lnlLinkDown_module
    (∃ (s : State) (b : BayNo) (p : Fin 3) (m : BitVec 4), s.isUp b ⟨p.val, by omega⟩ = true ∧ m ≠ 0xF) ∧
    -- fabricPacketRx_discarded
    (∃ (s : State) (b : BayNo) (p : Fin 5) (h : Vector Word 4) (payload : List Word), s.isUp b p = true ∧ ((headerGood h = false ∨ classGood h = false))) ∧
    -- fabricPacketRx_delivered
    (∃ (s : State) (b : BayNo) (p : Fin 5) (h : Vector Word 4) (payload : List Word), s.isUp b p = true ∧ headerGood h = true ∧ classGood h = true ∧ bits h[0].toNat 18 18 = 0 ∧ s.packetHere b h = true ∧ (h[1] - Sparse.get 0 s.lnl.tags (8 * (8 * bits h[0].toNat 17 13 + bits h[0].toNat 2 0) + b.val)).toInt ≥ 0) ∧
    -- fabricPacketRx_forwarded
    (∃ (s : State) (b : BayNo) (p : Fin 5) (q : Fin 5) (h : Vector Word 4) (payload : List Word), s.isUp b p = true ∧ headerGood h = true ∧ classGood h = true ∧ bits h[0].toNat 18 18 = 0 ∧ s.packetHere b h = false ∧ s.nextPort b h = some q) ∧
    -- topologyUpdate_done
    (∃ (s : State) (b : BayNo) (cuts : BitVec 4) (din : Fin 4), s.alive b = true ∧ (s.bay b).lnl.updateDue = true) ∧
    -- fabricPortRetrain_done
    (∃ (s : State) (b : BayNo) (p : Fin 3) (m : BitVec 4), s.alive b = true ∧ (s.bay b).lnl.ports[p].up = false ∧ p.val < s.part.log2) ∧
    -- lnlLinkUp_port
    (∃ (s : State) (b : BayNo) (p : Fin 3), s.alive b = true ∧ s.settled = true ∧ (s.bay b).lnl.ports[p].up = false ∧ (s.bay b).lnl.ports[p].modules = 0xF ∧ s.alive (peerBay b p.val) = true ∧ p.val < s.part.log2) ∧
    -- lnlLaneFail_width
    (∃ (s : State) (n : Fin 2) (j : Fin 8), (s.ext n).stage = .framed ∧ (s.ext n).lanesUp.getLsbD j.val = true ∧ s.alive s.linkBay = true ∧ (s.ext n).lanesUp &&& ~~~(BitVec.ofNat 8 (2 ^ j.val)) ≠ 0) ∧
    -- lnlWidthResume_done
    (∃ (s : State) (n : Fin 2), (s.ext n).paused = true) ∧
    -- lnlInjDelayExpire_sent
    (∃ (s : State) (b : BayNo) (n : Fin 5) (h : Held) (rest : List Held) (d : Stamp), s.alive b = true ∧ (s.bay b).lnl.injectors[n].held = h :: rest ∧ h.due = some d) :=
  ⟨⟨wfa id, 0, 1, fl, { LinkPort.reset with up := true, modules := 0xF }, by decide +kernel⟩,
   ⟨wfa id, 0, 1, fl.set 3 7, { LinkPort.reset with up := true, modules := 0xF }, by decide +kernel⟩,
   ⟨wfa fun x => { x with streak := 8 }, 0, 1, fl.set 3 7, by decide +kernel⟩,
   ⟨wfa id, 0, 1, by decide +kernel⟩,
   ⟨wfa id, 0, 1, 7, by decide +kernel⟩,
   ⟨wro, 0, 1, #v[1, 2, 3, 4], [], by decide +kernel⟩,
   ⟨wro, 0, 1, hd 0, [5], by decide +kernel⟩,
   ⟨wro, 0, 1, 1, hd 2, [5], by decide +kernel⟩,
   ⟨(wfa id).modLnl 0 fun l => { l with updateDue := true }, 0, 0, 0, by decide +kernel⟩,
   ⟨w, 2, 1, 0xF, by decide +kernel⟩,
   ⟨w.modPortL 2 1 fun x => { x with modules := 0xF }, 2, 1, by decide +kernel⟩,
   ⟨wsh id, 0, 2, by decide +kernel⟩,
   ⟨wsh fun x => { x with paused := true }, 0, by decide +kernel⟩,
   ⟨w.modLink 0 2 fun x => { x with held := [hp] }, 0, 2, hp, [], 900, by decide +kernel⟩⟩

/-- States and operands that meet the hypotheses of every clause of ShoalsAndIslands. -/
theorem wit_ShoalsAndIslands :
    -- shoalExchangeRx_match
    (∃ (s : State) (n : Fin 2) (counts : List (Nat × Nat)), (s.ext n).stage = .framed ∧ (s.ext n).port.up = false ∧ s.alive s.linkBay = true) ∧
    -- shoalExchangeRx_mismatch
    (∃ (s : State) (n : Fin 2) (size : Nat) (package : Nat) (counts : List (Nat × Nat)) (hash : List Byte), ((size ≠ s.pkgN Fld.lnlShoalSize ∨ package ≠ s.partnerOf n ∨ hash ≠ s.shoalHash)) ∧ (s.ext n).stage = .framed ∧ (s.ext n).port.up = false ∧ s.alive s.linkBay = true ∧ (s.ext n).mismatchTold = false) ∧
    -- shoalExchangeRx_mismatch
    (∃ (s : State) (n : Fin 2) (size : Nat) (package : Nat) (counts : List (Nat × Nat)) (hash : List Byte), ((size ≠ s.pkgN Fld.lnlShoalSize ∨ package ≠ s.partnerOf n ∨ hash ≠ s.shoalHash)) ∧ (s.ext n).stage = .framed ∧ (s.ext n).port.up = false ∧ s.alive s.linkBay = true ∧ (s.ext n).mismatchTold = false) ∧
    -- shoalMismatchRetry_done
    (∃ (s : State) (n : Fin 2), (s.ext n).held = true) ∧
    -- islandDeclared_cut
    (∃ (s : State) (b : BayNo), s.alive b = true ∧ (0 : BayNo) ∉ s.component b ∧ (s.bay b).lnl.island = none) ∧
    -- rejoinMeasure_waits
    (∃ (s : State) (b : BayNo) (i : Isle) (o : Int), s.alive b = true ∧ (s.bay b).lnl.island = some i ∧ i.packages = 0 ∧ s.alive 0 = true ∧ (s.route i.holder 0).isSome = true ∧ s.lnl.rejoin = none) ∧
    -- islandRejoin_done
    (∃ (s : State) (r : Rejoin), s.lnl.rejoin = some r ∧ (s.reach r.boundary).stepAllowed = false ∧ r.offset ≠ 0) ∧
    -- rejoinOffsetRemoved_done
    (∃ (s : State) (b : BayNo) (o : Int), (s.liveBays.filter (fun b => (s.bay b).tbs.removing.isSome) = [b]) ∧ (s.bay b).tbs.removing = some o) :=
  ⟨⟨wsh id, 0, [(1, 4)], by decide +kernel⟩,
   ⟨wsh id, 0, 2, 0, [], [], by decide +kernel⟩,
   ⟨wsh id, 0, 2, 1, [], [7], by decide +kernel⟩,
   ⟨wsh fun x => { x with held := true }, 0, by decide +kernel⟩,
   ⟨wcut, 3, by decide +kernel⟩,
   ⟨wi3, 3, isl3, 44, by decide +kernel⟩,
   ⟨(wi3.setFld Fld.tbsStepAllow 0 0 0).modLnlPkg fun y => { y with rejoin := some (rj 44) }, rj 44, by decide +kernel⟩,
   ⟨w.modTbs 3 fun l => { l with removing := some 44 }, 3, 44, by decide +kernel⟩⟩

end Lnl

namespace Seal

/-- An entry of the seal log. -/
def entry0 : LogEntry := { number := 0, kind := 4, rtc := false, bay := 0, detail := 0, stamp := 0, data := [], mac := [] }

/-- States and operands that meet the hypotheses of every clause of SealLogAndTamper. -/
theorem wit_SealLogAndTamper :
    -- sealLogFlush_done
    (∃ (s : State) (e : LogEntry) (rest : List LogEntry), s.logWritable = true ∧ s.keeper.island.buffer = e :: rest ∧ s.keeper.island.lost = 0) ∧
    -- rtcFollowWrite_done
    (∃ (s : State), s.alive 0 = true ∧ s.tbs.servo.state = .locked ∧ (s.bay 0).tbs.source ≠ .rtc ∧ s.pkgN Fld.sealRtcFollow = 1 ∧ s.tbs.servo.followed = none) ∧
    -- rtcFollowWrite_again
    (∃ (s : State) (a : Stamp), s.alive 0 = true ∧ s.tbs.servo.state = .locked ∧ (s.bay 0).tbs.source ≠ .rtc ∧ s.pkgN Fld.sealRtcFollow = 1 ∧ s.tbs.servo.followed = some a) ∧
    -- vbatBrownout_done
    (∃ (s : State), s.pwr.state = .off) ∧
    -- sealRowVerified_ok
    (∃ (s : State) (h : List Byte) (ok : Bool), s.keeper.rowPending = some h) ∧
    -- sealRowVerified_ok
    (∃ (s : State) (h : List Byte) (ok : Bool), s.keeper.rowPending = some h) :=
  ⟨⟨w.modSeal fun k => { k with island := { k.island with buffer := [entry0] } }, entry0, [], by decide +kernel⟩,
   ⟨((wb fun y => { y with tbs := { y.tbs with source := .ptp } }).modServo fun d => { d with state := .locked }).setFld Fld.sealRtcFollow 0 0 1, by decide +kernel⟩,
   ⟨((wb fun y => { y with tbs := { y.tbs with source := .ptp } }).modServo fun d => { d with state := .locked, followed := some 9 }).setFld Fld.sealRtcFollow 0 0 1, 9, by decide +kernel⟩,
   ⟨State.reset, by decide +kernel⟩,
   ⟨w.modSeal fun k => { k with rowPending := some (List.replicate 32 7) }, List.replicate 32 7, true, by decide +kernel⟩,
   ⟨w.modSeal fun k => { k with rowPending := some (List.replicate 32 7) }, List.replicate 32 7, false, by decide +kernel⟩⟩

/-- States and operands that meet the hypotheses of every clause of ServiceCommands. -/
theorem wit_ServiceCommands :
    -- provisionSignKey_done
    (∃ (s : State), s.svcReady = true ∧ s.keeper.fuses.sign[s.keeper.argSlot].key = none ∧ s.keeper.fuses.metrology = false ∧ s.keeper.freeSlots ≠ 0) ∧
    -- provisionSignKey_slot
    (∃ (s : State), s.svcReady = true ∧ s.keeper.fuses.sign[s.keeper.argSlot].key.isSome = true) ∧
    -- provisionMacKey_done
    (∃ (s : State), s.svcReady = true ∧ s.keeper.fuses.mac[s.keeper.argSlot] = none ∧ s.keeper.fuses.metrology = false ∧ s.keeper.freeSlots ≠ 0) ∧
    -- provisionMacKey_fuse
    (∃ (s : State), s.svcReady = true ∧ s.keeper.fuses.metrology = true) ∧
    -- revoke_done
    (∃ (s : State), s.svcReady = true ∧ s.keeper.fuses.sign[s.keeper.argSlot].key.isSome = true ∧ s.keeper.fuses.sign[s.keeper.argSlot].revoked = false ∧ ((s.keeper.fuses.metrology = true → 1 < s.keeper.fuses.unrevoked)) ∧ s.keeper.freeSlots ≠ 0) ∧
    -- tamperClear_done
    (∃ (s : State) (l : Fin 2), s.svcReady = true ∧ l.val = s.keeper.box.args[0].toNat % 2 ∧ ((s.keeper.island.tampLast[l] = false ∨ s.keeper.island.tampPrev[l] = false)) ∧ s.keeper.freeSlots ≠ 0) ∧
    -- logVerify_starts
    (∃ (s : State), s.svcReady = true) ∧
    -- logVerifyDone_done
    (∃ (s : State), s.keeper.verifying = true ∧ s.alive 0 = true) ∧
    -- logArchive_done
    (∃ (s : State), s.svcReady = true ∧ s.keeper.island.buffer = [] ∧ s.keeper.logCount ≠ 0 ∧ s.keeper.box.args[1] = s.keeper.flashNext - 1 ∧ s.keeper.freeSlots ≠ 0) :=
  ⟨⟨w, by decide +kernel⟩,
   ⟨wk, by decide +kernel⟩,
   ⟨w, by decide +kernel⟩,
   ⟨w.modSeal fun k => { k with fuses := { k.fuses with metrology := true } }, by decide +kernel⟩,
   ⟨wk, by decide +kernel⟩,
   ⟨wk.modIsland fun i => { i with tampLatch := Vector.replicate 2 true }, 1, by decide +kernel⟩,
   ⟨w, by decide +kernel⟩,
   ⟨w.modSeal fun k => { k with verifying := true }, by decide +kernel⟩,
   ⟨wk.modSeal fun k => { k with logCount := 3, box := { k.box with args := k.box.args.set 1 2 } }, by decide +kernel⟩⟩

/-- States and operands that meet the hypotheses of every clause of LastSigningKey. -/
theorem wit_LastSigningKey :
    -- revoke_last
    (∃ (s : State), s.svcReady = true ∧ s.keeper.fuses.metrology = true ∧ s.keeper.fuses.unrevoked ≤ 1 ∧ s.keeper.fuses.sign[s.keeper.argSlot].key.isSome = true ∧ s.keeper.fuses.sign[s.keeper.argSlot].revoked = false) :=
  ⟨wk.modSeal fun k => { k with fuses := { k.fuses with metrology := true } }, by decide +kernel⟩

end Seal

namespace Cal

/-- Sequencer 0 of bay 0 as given. -/
def wca (f : CalIn → CalIn) : State := (((wb fun y => { y with cal := y.cal.set 0 (f CalIn.reset), tbs := { y.tbs with set := true } }).setFld Fld.clkAdcEn 0 0 3).setFld Fld.calAuto 0 0 3).setFld Fld.calMaxInterval 0 0 60
/-- A run under way. -/
def run0 : CalRun := { cause := 1, forced := false, wait := 0, start := 0, tL := 0, passes := [], outcome := none, pair := none, combDone := false, combPass := false, again := false }
def due0 : CalDue := { cause := 3, since := 0, told := false }
/-- A converter of bay 0 as given, its scan of one slot of channel 5. -/
def whk (f : HkConv → HkConv) : State := ((((wb fun y => { y with hkc := { y.hkc with conv := y.hkc.conv.set 0 (f HkConv.reset) } }).setFld Fld.hkcASlot 0 0 5).setFld Fld.hkcSlots 0 0 1).setFld Fld.hkcChAvgLog2 0 5 0).setFld Fld.hkcChShift 0 5 0
/-- A due input held back by an armed unit on its port. -/
def wcf : State := ((((wca fun c => { c with due := some { due0 with told := true } }).modBay 0 fun y => { y with trg := { y.trg with units := y.trg.units.set 0 { TrgUnit.reset with state := .armed, inCycle := true } } }).setFld Fld.trgUEn 0 0 1).setFld Fld.trgUPort 0 0 0).setFld Fld.calMaxDefer 0 0 5
/-- A pass whose tones have not drifted. -/
def cp0 : CalPass := { temp := 300, table := List.replicate 800 0, coefs := [] }

/-- States and operands that meet the hypotheses of every clause of HousekeepingConverters. -/
theorem wit_HousekeepingConverters :
    -- hkcScanConversion_full
    (∃ (s : State) (b : BayNo) (x : Fin 2) (code : BitVec 16) (c : Fin 25), s.hkcOn b = true ∧ (s.bay b).hkc.conv[x].urgent = none ∧ s.scanChan b x = c.val ∧ (s.bay b).hkc.conv[x].atSealed = false ∧ 2 ^ s.hkcN Fld.hkcChAvgLog2 b c.val ≤ (s.bay b).hkc.conv[x].accs[c].count + 1) ∧
    -- hkcScanConversion_adds
    (∃ (s : State) (b : BayNo) (x : Fin 2) (code : BitVec 16) (c : Fin 25), s.hkcOn b = true ∧ (s.bay b).hkc.conv[x].urgent = none ∧ s.scanChan b x = c.val ∧ (s.bay b).hkc.conv[x].atSealed = false ∧ (s.bay b).hkc.conv[x].accs[c].count + 1 < 2 ^ s.hkcN Fld.hkcChAvgLog2 b c.val) ∧
    -- hkcSealedConversion_adds
    (∃ (s : State) (b : BayNo) (x : Fin 2) (code : BitVec 16), s.hkcOn b = true ∧ (s.bay b).hkc.conv[x].urgent = none ∧ (s.bay b).hkc.conv[x].sealedAccs[(s.bay b).hkc.conv[x].turn].count < 63 ∧ (s.bay b).hkc.conv[x].atSealed = true) ∧
    -- hkcSealedConversion_adds
    (∃ (s : State) (b : BayNo) (x : Fin 2) (code : BitVec 16), s.hkcOn b = true ∧ (s.bay b).hkc.conv[x].urgent = none ∧ (s.bay b).hkc.conv[x].sealedAccs[(s.bay b).hkc.conv[x].turn].count < 63 ∧ (s.bay b).hkc.conv[x].atSealed = true) ∧
    -- hkcUrgentRequest_starts
    (∃ (s : State) (b : BayNo) (c : Fin 25), s.hkcOn b = true ∧ urgentAllowed 0 c.val = true ∧ (s.bay b).hkc.conv[(0 : Fin 2)].waitCal = none ∧ (s.bay b).hkc.conv[(0 : Fin 2)].urgent = none) ∧
    -- hkcUrgentRequest_refused
    (∃ (s : State) (b : BayNo) (c : Fin 25) (d : Nat), s.hkcOn b = true ∧ urgentAllowed 0 c.val = true ∧ (s.bay b).hkc.conv[(0 : Fin 2)].waitCal = some d ∧ d ≠ c.val ∧ (s.bay b).hkc.conv[(0 : Fin 2)].refuseTold = false) ∧
    -- hkcUrgentDone_done
    (∃ (s : State) (b : BayNo) (code : BitVec 16) (c : Nat), s.hkcOn b = true ∧ (s.bay b).hkc.conv[(0 : Fin 2)].urgent = some c) ∧
    -- calTempInterval_done
    (∃ (s : State) (b : BayNo) (i : Fin 2), s.calOn b = true ∧ s.quiet = false ∧ (s.bay b).hkc.fe[i].count ≠ 0) :=
  ⟨⟨whk id, 0, 0, 777, 5, by decide +kernel⟩,
   ⟨(whk id).setFld Fld.hkcChAvgLog2 0 5 3, 0, 0, 777, 5, by decide +kernel⟩,
   ⟨whk fun k => { k with grid := 15 }, 0, 0, 777, by decide +kernel⟩,
   ⟨whk fun k => { k with grid := 3, due := true }, 0, 0, 777, by decide +kernel⟩,
   ⟨whk id, 0, 18, by decide +kernel⟩,
   ⟨whk fun k => { k with urgent := some 1, waitCal := some 0 }, 0, 18, 0, by decide +kernel⟩,
   ⟨whk fun k => { k with urgent := some 18 }, 0, 777, 18, by decide +kernel⟩,
   ⟨wb fun y => { y with hkc := { y.hkc with fe := y.hkc.fe.set 1 { sum := 100, count := 4 } } }, 0, 1, by decide +kernel⟩⟩

/-- States and operands that meet the hypotheses of every clause of BackgroundCalibration. -/
theorem wit_BackgroundCalibration :
    -- calIntervalDue_done
    (∃ (s : State) (b : BayNo) (i : Fin 2) (e : Stamp), (s.calIn b i).lastEnd = some e ∧ s.calOn b = true ∧ (s.calIn b i).idle = true ∧ s.fldN Fld.calMaxInterval b ≠ 0 ∧ (s.fldN Fld.calAuto b).testBit 1 = true) ∧
    -- calBackoffEnd_done
    (∃ (s : State) (b : BayNo) (i : Fin 2) (e : Stamp), (s.calIn b i).backoff = some e ∧ s.calOn b = true) ∧
    -- calRunStart_starts
    (∃ (s : State) (b : BayNo) (i : Fin 2) (d : CalDue), (s.calIn b i).due = some d ∧ s.calOn b = true ∧ s.calSuspended b i = false ∧ s.calDeferred b i = false ∧ s.calTurn b i = true ∧ s.restartAsked b = false) ∧
    -- calForced_starts
    (∃ (s : State) (b : BayNo) (i : Fin 2) (d : CalDue), (s.calIn b i).due = some d ∧ d.told = true ∧ s.calOn b = true ∧ (s.reach (later d.since (ofMs (s.fldN Fld.calMaxDefer b)))).calSuspended b i = false ∧ (s.reach (later d.since (ofMs (s.fldN Fld.calMaxDefer b)))).calDeferred b i = true ∧ (s.calIn b (otherInput i)).run = none ∧ s.restartAsked b = false) ∧
    -- calPassDone_first
    (∃ (s : State) (b : BayNo) (i : Fin 2) (r : CalRun) (p : CalPass), (s.calIn b i).run = some r ∧ r.outcome = none ∧ r.passes = [] ∧ p.table.length = s.calTones) ∧
    -- calPassDone_decides
    (∃ (s : State) (b : BayNo) (i : Fin 2) (r : CalRun) (p : CalPass) (o : CalOutcome) (q : CalPair), (s.calIn b i).run = some r ∧ r.outcome = none ∧ r.passes.length < 3 ∧ p.table.length = s.calTones ∧ (s.reach (later r.start (ofUs (passEnd (r.passes.length + 1))))).calDecide b (r.passes ++ [p]) = some (o, q)) ∧
    -- combCheckDone_done
    (∃ (s : State) (b : BayNo) (i : Fin 2) (r : CalRun) (oc : CalOutcome) (o : CombObs), (s.calIn b i).run = some r ∧ r.outcome = some oc ∧ r.combDone = false ∧ o.tones.length = s.calTones) ∧
    -- combCheck_low
    (∃ (s : State) (b : BayNo) (i : Fin 2) (drift : List Int) (o : CombObs) (d : Int), d ∈ combDevs b i drift o.tones ∧ d < -10000000) ∧
    -- calRunEnd_accepted
    (∃ (s : State) (b : BayNo) (i : Fin 2) (r : CalRun), (s.calIn b i).run = some r ∧ r.outcome = some .accepted ∧ r.combDone = true ∧ r.again = false) ∧
    -- calRunEnd_kept
    (∃ (s : State) (b : BayNo) (i : Fin 2) (r : CalRun), (s.calIn b i).run = some r ∧ r.outcome = some .kept ∧ r.combDone = true ∧ r.again = false) :=
  ⟨⟨wca fun c => { c with lastEnd := some 0 }, 0, 0, 0, by decide +kernel⟩,
   ⟨wca fun c => { c with backoff := some 9 }, 0, 0, 9, by decide +kernel⟩,
   ⟨wca fun c => { c with due := some due0 }, 0, 0, due0, by decide +kernel⟩,
   ⟨wcf, 0, 0, { due0 with told := true }, by decide +kernel⟩,
   ⟨wca fun c => { c with run := some run0 }, 0, 0, run0, { temp := 300, table := List.replicate 800 4, coefs := [] }, by decide +kernel⟩,
   ⟨wca fun c => { c with run := some { run0 with passes := [cp0] } }, 0, 0, { run0 with passes := [cp0] }, cp0, .accepted, calPair 1 2 cp0 cp0, by decide +kernel⟩,
   ⟨wca fun c => { c with run := some { run0 with outcome := some .kept } }, 0, 0, { run0 with outcome := some .kept }, .kept, { tones := List.replicate 800 5 }, by decide +kernel⟩,
   ⟨w, 0, 0, [], { tones := [Config.combTone 0 0 0 - 20000000] }, -20000000, by simp [combDevs] <;> omega, by decide⟩,
   ⟨wca fun c => { c with run := some { run0 with outcome := some .accepted, combDone := true } }, 0, 0, { run0 with outcome := some .accepted, combDone := true }, by decide +kernel⟩,
   ⟨wca fun c => { c with run := some { run0 with outcome := some .kept, combDone := true }, drift := [4] }, 0, 0, { run0 with outcome := some .kept, combDone := true }, by decide +kernel⟩⟩

end Cal

namespace Aux

/-- Channel 2 of bay 0 drives a code. -/
def wax (f : AuxBay → AuxBay) : State :=
  wb fun y => { y with aux := f { y.aux with loaded := true, dacs := y.aux.dacs.set 2 { code := 1000, clear := 7, on := true } } }
/-- Monitor unit 0 of bay 0 watches queue 3. -/
def wmo (emit : Nat) (f : MonUnit → MonUnit) : State :=
  wb fun y => { y with mon := y.mon.set 0 (f { MonUnit.reset with on := true, conf := { (w.monConf 0 0) with quantity := 1, object := 3, emit := emit, queue := 5, width := 1 } }) }
/-- It watches a quantity. -/
def wmq (k : Nat) (f : MonUnit → MonUnit) : State :=
  (wmo 1 fun u => f { u with conf := { u.conf with quantity := k } }).modImg fun i => { i with state := .run }
/-- Stream 5 has port 0 of bay 0, which works, and a multicast destination. -/
def wsr : State :=
  ((((((wb fun y => { y with eth := y.eth.set 0 { EthPort.reset with linkUp := true, fecLock := true } }).modImg fun i => { i with image := some im0 }).setFld Fld.ethPEn 0 0 1).setFld Fld.ethSPort 0 5 0).setFld Fld.ethSDest 0 5 0).setFld Fld.ethDest 0 0 (0 - 1))
def hp : Held := { left := 0, due := some 900, packet := .data 0 (w.mkRec 0 { typ := .status, source := 0xF1, stamp := 5, w6hi := 7, payload := List.replicate 8 0 } 0) }

/-- States and operands that meet the hypotheses of every clause of AuxiliaryDacs. -/
theorem wit_AuxiliaryDacs :
    -- auxClrAssert_clears
    (∃ (s : State) (b : BayNo) (n : Fin 4), s.pwr.state ≠ .off ∧ s.pinned 0 = true ∧ (s.bay b).aux.dacs[n].on = true ∧ (s.bay b).aux.held = none) ∧
    -- auxClrRelease_restores
    (∃ (s : State) (b : BayNo) (n : Fin 4), s.pwr.state ≠ .off ∧ s.pinned 0 = true ∧ (s.bay b).aux.dacs[n].on = true ∧ (s.bay b).aux.held = none ∧ (s.bay b).aux.loaded = true ∧ s.tampered = false ∧ (s.bay b).clk.gated = false) ∧
    -- auxCodeWrite_done
    (∃ (s : State) (b : BayNo) (n : Fin 4) (v : Word) (dma : Bool), s.alive b = true ∧ s.initHeld = false) ∧
    -- auxCodeWrite_early
    (∃ (s : State) (b : BayNo) (n : Fin 4) (v : Word), s.alive b = true ∧ s.initHeld = true) ∧
    -- auxComplianceFault_told
    (∃ (s : State) (b : BayNo) (i : Fin 2), s.auxDrives b i = true ∧ (s.bay b).aux.compliance[i] = false ∧ (s.bay b).aux.complianceTold[i] = false) ∧
    -- auxComplianceClear_done
    (∃ (s : State) (b : BayNo) (i : Fin 2), s.alive b = true) :=
  ⟨⟨wax id, 0, 2, by decide +kernel⟩,
   ⟨(wax id), 0, 2, by decide +kernel⟩,
   ⟨wax id, 0, 2, 0x12345, true, by decide +kernel⟩,
   ⟨(wax id).modImg fun i => { i with boot := { i.boot with active := true, phase := 6 } }, 0, 2, 0x12345, by decide +kernel⟩,
   ⟨wax id, 0, 0, by decide +kernel⟩,
   ⟨wax fun a => { a with compliance := #v[true, true] }, 0, 0, by decide +kernel⟩⟩

/-- States and operands that meet the hypotheses of every clause of MonitorsAndInjectors. -/
theorem wit_MonitorsAndInjectors :
    -- monSample_latency
    (∃ (s : State) (b : BayNo) (m : Fin 16) (v : Int) (inj : Bool), s.monReady b m = true ∧ (s.mon b m).conf.quantity = 0) ∧
    -- monSample_periodic
    (∃ (s : State) (b : BayNo) (m : Fin 16) (v : Int) (inj : Bool), s.monReady b m = true ∧ (((s.mon b m).conf.quantity = 1 ∨ (s.mon b m).conf.quantity = 2 ∨ (s.mon b m).conf.quantity = 3 ∨ (s.mon b m).conf.quantity = 6))) ∧
    -- monSample_periodic
    (∃ (s : State) (b : BayNo) (m : Fin 16) (v : Int) (inj : Bool), s.monReady b m = true ∧ (((s.mon b m).conf.quantity = 1 ∨ (s.mon b m).conf.quantity = 2 ∨ (s.mon b m).conf.quantity = 3 ∨ (s.mon b m).conf.quantity = 6))) ∧
    -- monFeed_takes
    (∃ (s : State) (b : BayNo) (m : Fin 16) (k : Nat) (o : Nat) (a : Stamp), ((k = 4 ∨ k = 5)) ∧ s.monReady b m = true ∧ (s.mon b m).conf.quantity = k ∧ (s.mon b m).conf.object = o) ∧
    -- monFeed_others
    (∃ (s : State) (b : BayNo) (m : Fin 16) (k : Nat) (o : Nat) (a : Stamp), ((s.monReady b m = false ∨ (s.mon b m).conf.quantity ≠ k ∨ (s.mon b m).conf.object ≠ o))) ∧
    -- monSnap_one
    (∃ (s : State) (b : BayNo), s.alive b = true ∧ (s.mon b 0).on = true ∧ 2 ≤ (s.mon b 0).conf.emit ∧ (s.mon b 0).conf.cumulative = false) ∧
    -- faultLongestRead_done
    (∃ (s : State), s.alive 0 = true) ∧
    -- injKill_done
    (∃ (s : State), s.alive 0 = true) ∧
    -- injKill_other
    (∃ (s : State) (v : Word), v ≠ 0xD1) ∧
    -- ethInjDelayExpire_sent
    (∃ (s : State) (n : Fin 64) (h : Held) (rest : List Held) (d : Stamp), s.inj.streams[n].held = h :: rest ∧ h.due = some d ∧ s.streamReady n = true) :=
  ⟨⟨wmq 0 id, 0, 0, 77, true, by decide +kernel⟩,
   ⟨wmq 1 id, 0, 0, 77, true, by decide +kernel⟩,
   ⟨wmq 3 id, 0, 0, 77, true, by decide +kernel⟩,
   ⟨wmq 4 id, 0, 0, 4, 3, 90, by decide +kernel⟩,
   ⟨wmq 4 id, 0, 0, 5, 3, 90, by decide +kernel⟩,
   ⟨wmo 2 fun u => { u with samples := 4 }, 0, by decide +kernel⟩,
   ⟨w, by decide +kernel⟩,
   ⟨wsr.modInj 5 fun x => { x with held := [] }, by decide +kernel⟩,
   ⟨w, 0xD2, by decide +kernel⟩,
   ⟨wsr.modInj 5 fun x => { x with held := [hp] }, 5, hp, [], 900, by decide +kernel⟩⟩

/-- States and operands that meet the hypotheses of every clause of MonitorLimits. -/
theorem wit_MonitorLimits :
    -- monTake_high
    (∃ (s : State) (b : BayNo) (m : Fin 16) (v : Int) (inj : Bool) (a : Stamp), (s.fldN Fld.monLimitEn b m.val).testBit 0 = true ∧ s.monValue b m v > s.fld Fld.monHigh b m.val ∧ (s.mon b m).told = false) ∧
    -- monTake_low
    (∃ (s : State) (b : BayNo) (m : Fin 16) (v : Int) (inj : Bool) (a : Stamp), (s.fldN Fld.monLimitEn b m.val).testBit 1 = true ∧ s.monValue b m v < s.fld Fld.monLow b m.val ∧ (s.mon b m).told = false) ∧
    -- monTake_within
    (∃ (s : State) (b : BayNo) (m : Fin 16) (v : Int) (inj : Bool) (a : Stamp), (((s.mon b m).told = true ∨ ¬((s.fldN Fld.monLimitEn b m.val).testBit 0 = true ∧ s.monValue b m v > s.fld Fld.monHigh b m.val) ∧ ¬((s.fldN Fld.monLimitEn b m.val).testBit 1 = true ∧ s.monValue b m v < s.fld Fld.monLow b m.val)))) :=
  ⟨⟨((wmo 1 id).setFld Fld.monLimitEn 0 0 1).setFld Fld.monHigh 0 0 (0 - 5), 0, 0, 77, false, 8, by decide +kernel⟩,
   ⟨((wmo 1 id).setFld Fld.monLimitEn 0 0 2).setFld Fld.monLow 0 0 5, 0, 0, 77, false, 8, by decide +kernel⟩,
   ⟨wmo 1 fun u => { u with told := true }, 0, 0, 77, false, 8, by decide +kernel⟩⟩

end Aux

namespace Pwr

/-- The power manager in a phase of entry or flood. -/
def wpw (p : PwrPhase) (st : PowerState) : State := { w with pwr := { w.pwr with state := st, phase := p } }
/-- Bay 0 watches. -/
def wwa : State := (({ w with pwr := { w.pwr with state := .watch, watching := 1 } } : State).setFld Fld.pwrWatchLevel 0 0 (0 - 30000)).setFld Fld.pwrWatchCount 0 0 4
/-- A queue holds a record. -/
def wqr : State := w.modQueue 0 5 fun q => { q with entries := [{ record := w.mkRec 0 { typ := .status, source := 0xF1, stamp := 5, w6hi := 7, payload := List.replicate 8 0 } 0, inReserve := false }] }

/-- States and operands that meet the hypotheses of every clause of EntryToLowPower. -/
theorem wit_EntryToLowPower :
    -- pwrReqWatch_accepted
    (∃ (s : State) (svc : Bool), s.pwrCtrl svc = true ∧ s.pwrRefusal true = none) ∧
    -- pwrReqWatch_refused
    (∃ (s : State) (svc : Bool) (c : Nat), s.pwrCtrl svc = true ∧ s.pwrRefusal true = some c) ∧
    -- pwrReqStandby_accepted
    (∃ (s : State) (svc : Bool), s.pwrCtrl svc = true ∧ s.pwrRefusal false = none) ∧
    -- pwrRefusal_recording
    (∃ (s : State) (b : BayNo) (watch : Bool), s.img.state = .run ∧ s.pwr.state = .run ∧ s.pwr.phase = .steady ∧ s.leads = true ∧ s.anyArmCycle = false ∧ s.alive b = true ∧ (s.recd b).state = .recording) ∧
    -- pwrEntryStart_drains
    (∃ (s : State) (target : PowerState) (e : Stamp), s.alive 0 = true ∧ s.pwr.phase = .requested target e) ∧
    -- pwrQueuesDrained_ebbs
    (∃ (s : State) (target : PowerState) (e : Stamp), s.pwr.phase = .draining target e ∧ s.queuesEmpty = true) ∧
    -- pwrQueuesDrained_waits
    (∃ (s : State), s.queuesEmpty = false) ∧
    -- pwrDrainTimeout_abandons
    (∃ (s : State) (target : PowerState) (e : Stamp), s.pwr.phase = .draining target e ∧ s.queuesEmpty = false) ∧
    -- domainEbbDone_off
    (∃ (s : State) (b : BayNo) (c : BayNo) (target : PowerState) (e : Stamp) (d : Domain) (x : Domain), s.pwr.phase = .ebbing target e ∧ s.alive b = true ∧ (s.toEbb target b).contains d = true ∧ ((s.toEbb target b).any (fun e => decide (e.rank < d.rank)) = false) ∧ s.alive c = true ∧ (s.toEbb target c).contains x = true ∧ ((c ≠ b ∨ x ≠ d))) :=
  ⟨⟨w.setFld Fld.pwrWatchBays 0 0 1, true, by decide +kernel⟩,
   ⟨w.setFld Fld.pwrWatchBays 0 0 0, true, 4, by decide +kernel⟩,
   ⟨w, true, by decide +kernel⟩,
   ⟨wb fun y => { y with recorder := { y.recorder with state := .recording } }, 0, true, by decide +kernel⟩,
   ⟨wpw (.requested .standby 0x20000000000000) .run, .standby, 0x20000000000000, by decide +kernel⟩,
   ⟨wpw (.draining .standby 900) .run, .standby, 900, by decide +kernel⟩,
   ⟨wqr, by decide +kernel⟩,
   ⟨{ wqr with pwr := { w.pwr with phase := .draining .standby 900 } }, .standby, 900, by decide +kernel⟩,
   ⟨wpw (.ebbing .standby 900) .run, 2, 3, .standby, 900, .datapath, .datapath, by decide +kernel⟩⟩

/-- States and operands that meet the hypotheses of every clause of WakesAndFloods. -/
theorem wit_WakesAndFloods :
    -- wakeInRise_floods
    (∃ (s : State), s.wakeOn 0 = true ∧ s.pinned 0 = true ∧ s.pwr.phase = .steady ∧ ((s.pwr.state = .watch ∨ s.pwr.state = .standby))) ∧
    -- wakeComparator_floods
    (∃ (s : State) (b : BayNo) (i : Fin 2), s.alive b = true ∧ s.wakeOn 1 = true ∧ (s.fldN Fld.pwrDetWake b).testBit i.val = true ∧ s.pwr.phase = .steady ∧ s.pwr.state = .watch) ∧
    -- rtcWake_floods
    (∃ (s : State), s.pwr.wakeRtc ≠ 0 ∧ s.keeper.island.rtcSec.toNat ≤ s.pwr.wakeRtc.toNat ∧ s.wakeOn 2 = true ∧ s.pwr.phase = .steady ∧ s.pwr.state = .standby) ∧
    -- pwrReqWake_cancels
    (∃ (s : State) (target : PowerState) (e : Stamp), s.pwrCtrl true = true ∧ s.pwr.phase = .requested target e) ∧
    -- pwrReqWake_surplus
    (∃ (s : State) (cold : Bool), s.pwrCtrl true = true ∧ s.pwr.phase = .flooding cold) ∧
    -- watchBlockDone_below
    (∃ (s : State) (b : BayNo) (sum : Nat), s.alive b = true ∧ s.pwr.state = .watch ∧ s.pwr.phase = .steady ∧ s.pwr.watching.getLsbD b.val = true ∧ (s.bay b).clk.gated = false ∧ s.watchLevel b sum < s.fld Fld.pwrWatchLevel b ∧ 0 < s.fldN Fld.pwrWatchCount b ∧ (s.bay b).pwr.watchPeak = none) ∧
    -- watchBlockDone_wakes
    (∃ (s : State) (b : BayNo) (sum : Nat), s.alive b = true ∧ s.pwr.state = .watch ∧ s.pwr.phase = .steady ∧ s.pwr.watching.getLsbD b.val = true ∧ (s.bay b).clk.gated = false ∧ s.fld Fld.pwrWatchLevel b ≤ s.watchLevel b sum ∧ s.fldN Fld.pwrWatchCount b = (s.bay b).pwr.watchAbove + 1 ∧ s.wakeOn 3 = true) ∧
    -- watchPeakRead_done
    (∃ (s : State) (b : BayNo), s.alive b = true) ∧
    -- floodSupervisorDone_done
    (∃ (s : State), s.pwr.phase = .flooding true) ∧
    -- floodDone_run
    (∃ (s : State), s.pwr.phase = .flooding false) :=
  ⟨⟨(wpw .steady .standby).setFld Fld.pwrWakeEn 0 0 15, by decide +kernel⟩,
   ⟨((wpw .steady .watch).setFld Fld.pwrWakeEn 0 0 15).setFld Fld.pwrDetWake 2 0 3, 2, 0, by decide +kernel⟩,
   ⟨({ w with pwr := { w.pwr with state := .standby, wakeRtc := 44 } } : State).setFld Fld.pwrWakeEn 0 0 15, by decide +kernel⟩,
   ⟨wpw (.requested .standby 900) .run, .standby, 900, by decide +kernel⟩,
   ⟨wpw (.flooding true) .standby, true, by decide +kernel⟩,
   ⟨wwa.setFld Fld.pwrWatchLevel 0 0 30000, 0, 10, by decide +kernel⟩,
   ⟨(wwa.setFld Fld.pwrWatchCount 0 0 1).setFld Fld.pwrWakeEn 0 0 15, 0, 10, by decide +kernel⟩,
   ⟨wwa, 0, by decide +kernel⟩,
   ⟨(wpw (.flooding true) .standby).modDom 3 fun p => { p with supervisor := false }, by decide +kernel⟩,
   ⟨wpw (.flooding false) .watch, by decide +kernel⟩⟩

end Pwr

end Sys2Proof.Tests
end

section
/-! What every command does to the parts of the state that last, and what every step does. -/
namespace Sys2Proof.Machine

/-- Every command leaves each view that shows none of the parts it touches: one law of Laws/View per constructor. -/
theorem exec_view {q : Parts} (i : Instr) (hq : q.apart i.touches = true) (s : State) :
    Out.view q (exec i s) = some (s.view q) := by
  cases i with
  | pwrGoodRise => exact execPwrGoodRise_view hq s
  | rstNFall => exact execRstNFall_view hq s
  | rstNRise => exact execRstNRise_view hq s
  | powerFail => exact execPowerFail_view hq s
  | lagoonFloodDone => exact execLagoonFloodDone_view hq s
  | bootRomDone seen locked => exact execBootRomDone_view hq seen locked s
  | d2dTrainDone failed => exact execD2dTrainDone_view hq failed s
  | discoverDone => exact execDiscoverDone_view hq s
  | discoverTimeout b => exact execDiscoverTimeout_view hq b s
  | shoalSectionReadDone => exact execShoalSectionReadDone_view hq s
  | imageReadDone flashError quad => exact execImageReadDone_view hq flashError quad s
  | checkerDone pins => exact execCheckerDone_view hq pins s
  | imageBroadcastDone => exact execImageBroadcastDone_view hq s
  | spllLockPhase8 seen => exact execSpllLockPhase8_view hq seen s
  | adcInitCalDone res => exact execAdcInitCalDone_view hq res s
  | feCalDone runs => exact execFeCalDone_view hq runs s
  | sealRowVerified ok => exact execSealRowVerified_view hq ok s
  | setLive tag key value defer => exact execSetLive_view hq tag key value defer s
  | selectProfile tag p => exact execSelectProfile_view hq tag p s
  | arm tag bays units pkgs t => exact execArm_view hq tag bays units pkgs t s
  | disarm tag bays units pkgs t => exact execDisarm_view hq tag bays units pkgs t s
  | recStart tag mask fresh erase t => exact execRecStart_view hq tag mask fresh erase t s
  | recStop tag mask t => exact execRecStop_view hq tag mask t s
  | replay tag b target stop lo hi source typ => exact execReplay_view hq tag b target stop lo hi source typ s
  | snapshotAt tag t id => exact execSnapshotAt_view hq tag t id s
  | acqRestart tag mask => exact execAcqRestart_view hq tag mask s
  | imageRestart tag bFirst => exact execImageRestart_view hq tag bFirst s
  | nvmRead tag off len host => exact execNvmRead_view hq tag off len host s
  | nvmErase tag off len => exact execNvmErase_view hq tag off len s
  | nvmProgram tag off len host => exact execNvmProgram_view hq tag off len host s
  | sealLogRead tag first count host => exact execSealLogRead_view hq tag first count host s
  | unknownOpcode op tag => exact execUnknownOpcode_view hq op tag s
  | flashCommandDone ok data => exact execFlashCommandDone_view hq ok data s
  | imgCmdTailWrite v => exact execImgCmdTailWrite_view hq v s
  | imgCmdCfgWrite w => exact execImgCmdCfgWrite_view hq w s
  | imgEvtCfgWrite w => exact execImgEvtCfgWrite_view hq w s
  | imgEvtHeadWrite v => exact execImgEvtHeadWrite_view hq v s
  | imgEvtLostRead => exact execImgEvtLostRead_view hq s
  | profilePinChange v => exact execProfilePinChange_view hq v s
  | liveApplyImmediate b => exact execLiveApplyImmediate_view hq b s
  | hopBoundary b x t => exact execHopBoundary_view hq b x t s
  | acqRestartBegin b => exact execAcqRestartBegin_view hq b s
  | acqRestartEnd b t => exact execAcqRestartEnd_view hq b t s
  | refLossDetect b c t0 silent => exact execRefLossDetect_view hq b c t0 silent s
  | refDeglitchEnd resumed => exact execRefDeglitchEnd_view hq resumed s
  | buildOutEnd phase => exact execBuildOutEnd_view hq phase s
  | pullInDone freq => exact execPullInDone_view hq freq s
  | refQualified b c off => exact execRefQualified_view hq b c off s
  | refDisqualified b c off => exact execRefDisqualified_view hq b c off s
  | spllLossOfLock b tL => exact execSpllLossOfLock_view hq b tL s
  | spllRelock b t => exact execSpllRelock_view hq b t s
  | spllStuckTimeout b => exact execSpllStuckTimeout_view hq b s
  | cpllLossOfLock b => exact execCpllLossOfLock_view hq b s
  | clkSysrefFire b => exact execClkSysrefFire_view hq b s
  | clkFaultCntRead b => exact execClkFaultCntRead_view hq b s
  | spllLolClear b => exact execSpllLolClear_view hq b s
  | syncInEdge b t falling longPulse relayed => exact execSyncInEdge_view hq b t falling longPulse relayed s
  | ppsEdge b t falling longPulse => exact execPpsEdge_view hq b t falling longPulse s
  | trigInEdge b n t falling longPulse => exact execTrigInEdge_view hq b n t falling longPulse s
  | sysrefInEdge b t falling longPulse => exact execSysrefInEdge_view hq b t falling longPulse s
  | tbsNowRead b => exact execTbsNowRead_view hq b s
  | servoHoldoverTimeout => exact execServoHoldoverTimeout_view hq s
  | linkDelayMeasure b p d lead => exact execLinkDelayMeasure_view hq b p d lead s
  | epochBoundary h => exact execEpochBoundary_view hq h s
  | syncWindowEnd => exact execSyncWindowEnd_view hq s
  | snapshotTake remote => exact execSnapshotTake_view hq remote s
  | tbsGlobalReset v => exact execTbsGlobalReset_view hq v s
  | globalResetArrive remote => exact execGlobalResetArrive_view hq remote s
  | globalResetRelease => exact execGlobalResetRelease_view hq s
  | overloadTrip b k0 t level clips => exact execOverloadTrip_view hq b k0 t level clips s
  | overloadClose b k0 t => exact execOverloadClose_view hq b k0 t s
  | autoStepDown b k0 peak => exact execAutoStepDown_view hq b k0 peak s
  | attenSettled b k0 level => exact execAttenSettled_view hq b k0 level s
  | sliceCalDone b k0 est power => exact execSliceCalDone_view hq b k0 est power s
  | swapCompare b k0 sum squares => exact execSwapCompare_view hq b k0 sum squares s
  | xsStreamStop b x t loss => exact execXsStreamStop_view hq b x t loss s
  | xsStreamResume b x t units => exact execXsStreamResume_view hq b x t units s
  | jesAligned b x a => exact execJesAligned_view hq b x a s
  | spectrumReady b x ins => exact execSpectrumReady_view hq b x ins s
  | tapSlotWritten b c => exact execTapSlotWritten_view hq b c s
  | traceIntervalEnd b t => exact execTraceIntervalEnd_view hq b t s
  | triggerEvent b u o => exact execTriggerEvent_view hq b u o s
  | qualLongerExpire b u => exact execQualLongerExpire_view hq b u s
  | coreEventDue b u => exact execCoreEventDue_view hq b u s
  | groupFireRequest remote => exact execGroupFireRequest_view hq remote s
  | groupFireBroadcast b u remote => exact execGroupFireBroadcast_view hq b u remote s
  | armTakeEffect remote => exact execArmTakeEffect_view hq remote s
  | disarmTakeEffect remote => exact execDisarmTakeEffect_view hq remote s
  | segmentPostDone b u xs => exact execSegmentPostDone_view hq b u xs s
  | slotFreed b u => exact execSlotFreed_view hq b u s
  | unitRearm b u => exact execUnitRearm_view hq b u s
  | trgForce b mask => exact execTrgForce_view hq b mask s
  | maskBump b m gen => exact execMaskBump_view hq b m gen s
  | maskCopyDone b u => exact execMaskCopyDone_view hq b u s
  | maskStoreWrite b e v => exact execMaskStoreWrite_view hq b e v s
  | trigOutEdge n => exact execTrigOutEdge_view hq n s
  | trigOutPulseEnd n => exact execTrigOutPulseEnd_view hq n s
  | denBankClose b x => exact execDenBankClose_view hq b x s
  | denPassDone b x => exact execDenPassDone_view hq b x s
  | denClear b mask => exact execDenClear_view hq b mask s
  | scnLatchPoint b => exact execScnLatchPoint_view hq b s
  | scnCrcCompare b r upset => exact execScnCrcCompare_view hq b r upset s
  | scnCommitWrite b v => exact execScnCommitWrite_view hq b v s
  | roReferenceDone b => exact execRoReferenceDone_view hq b s
  | roStaleTimeout b => exact execRoStaleTimeout_view hq b s
  | dpHpdRise b edid => exact execDpHpdRise_view hq b edid s
  | dpHpdIrq b lostStatus => exact execDpHpdIrq_view hq b lostStatus s
  | dpHpdFall b => exact execDpHpdFall_view hq b s
  | dpLinkTrainDone b ok => exact execDpLinkTrainDone_view hq b ok s
  | dpTrainRetryTimer b => exact execDpTrainRetryTimer_view hq b s
  | interruptEntry b c => exact execInterruptEntry_view hq b c s
  | coreTimerExpire b c => exact execCoreTimerExpire_view hq b c s
  | watchdogExpire b c => exact execWatchdogExpire_view hq b c s
  | coreRestart b c => exact execCoreRestart_view hq b c s
  | emitCopyDone b c => exact execEmitCopyDone_view hq b c s
  | postCopyDone b c => exact execPostCopyDone_view hq b c s
  | iqFeedBlock b c xs => exact execIqFeedBlock_view hq b c xs s
  | nop b c => exact execNop_view hq b c s
  | add b c => exact execAdd_view hq b c s
  | sub b c => exact execSub_view hq b c s
  | and b c => exact execAnd_view hq b c s
  | or b c => exact execOr_view hq b c s
  | xor b c => exact execXor_view hq b c s
  | shl b c => exact execShl_view hq b c s
  | shr b c => exact execShr_view hq b c s
  | sar b c => exact execSar_view hq b c s
  | adds b c => exact execAdds_view hq b c s
  | subs b c => exact execSubs_view hq b c s
  | min b c => exact execMin_view hq b c s
  | max b c => exact execMax_view hq b c s
  | minu b c => exact execMinu_view hq b c s
  | maxu b c => exact execMaxu_view hq b c s
  | abs b c => exact execAbs_view hq b c s
  | slt b c => exact execSlt_view hq b c s
  | sltu b c => exact execSltu_view hq b c s
  | shli b c => exact execShli_view hq b c s
  | shri b c => exact execShri_view hq b c s
  | sari b c => exact execSari_view hq b c s
  | clz b c => exact execClz_view hq b c s
  | mul16 b c => exact execMul16_view hq b c s
  | addi b c => exact execAddi_view hq b c s
  | andi b c => exact execAndi_view hq b c s
  | ori b c => exact execOri_view hq b c s
  | xori b c => exact execXori_view hq b c s
  | lui b c => exact execLui_view hq b c s
  | beq b c => exact execBeq_view hq b c s
  | bne b c => exact execBne_view hq b c s
  | blt b c => exact execBlt_view hq b c s
  | bge b c => exact execBge_view hq b c s
  | bltu b c => exact execBltu_view hq b c s
  | bgeu b c => exact execBgeu_view hq b c s
  | jmp b c => exact execJmp_view hq b c s
  | jal b c => exact execJal_view hq b c s
  | jr b c => exact execJr_view hq b c s
  | call b c => exact execCall_view hq b c s
  | ret b c => exact execRet_view hq b c s
  | rep b c => exact execRep_view hq b c s
  | ld b c => exact execLd_view hq b c s
  | st b c => exact execSt_view hq b c s
  | ldr b c => exact execLdr_view hq b c s
  | str b c => exact execStr_view hq b c s
  | mac b c => exact execMac_view hq b c s
  | macp b c => exact execMacp_view hq b c s
  | sta b c => exact execSta_view hq b c s
  | lda b c => exact execLda_view hq b c s
  | adda b c => exact execAdda_view hq b c s
  | sha b c => exact execSha_view hq b c s
  | srst b c => exact execSrst_view hq b c s
  | smax b c => exact execSmax_view hq b c s
  | smin b c => exact execSmin_view hq b c s
  | smm b c => exact execSmm_view hq b c s
  | mfs b c => exact execMfs_view hq b c s
  | mts b c => exact execMts_view hq b c s
  | evt b c => exact execEvt_view hq b c s
  | emit b c => exact execEmit_view hq b c s
  | post b c => exact execPost_view hq b c s
  | wait b c => exact execWait_view hq b c s
  | halt b c => exact execHalt_view hq b c s
  | ei b c => exact execEi_view hq b c s
  | di b c => exact execDi_view hq b c s
  | reti b c => exact execReti_view hq b c s
  | illegalInstruction b c => exact execIllegalInstruction_view hq b c s
  | mcCtrlHalt b c => exact execMcCtrlHalt_view hq b c s
  | mcCtrlResume b c => exact execMcCtrlResume_view hq b c s
  | mcCtrlReset b c => exact execMcCtrlReset_view hq b c s
  | mcMboxInWrite b c v => exact execMcMboxInWrite_view hq b c v s
  | mcMboxOutRead b c => exact execMcMboxOutRead_view hq b c s
  | coreImemWrite b a v => exact execCoreImemWrite_view hq b a v s
  | coreEbb b c => exact execCoreEbb_view hq b c s
  | coreFloodDone b c => exact execCoreFloodDone_view hq b c s
  | recordEnqueue b p xs => exact execRecordEnqueue_view hq b p xs s
  | dmaRecordStart b n => exact execDmaRecordStart_view hq b n s
  | dmaBurst b n data => exact execDmaBurst_view hq b n data s
  | dmaRecordDelivered b n => exact execDmaRecordDelivered_view hq b n s
  | dmaGo b n => exact execDmaGo_view hq b n s
  | dmaAbort b n => exact execDmaAbort_view hq b n s
  | dmaClear b n => exact execDmaClear_view hq b n s
  | dmaTransferDone b n => exact execDmaTransferDone_view hq b n s
  | dmaRingCfgWrite b n w => exact execDmaRingCfgWrite_view hq b n w s
  | asleepCompletion b n data => exact execAsleepCompletion_view hq b n data s
  | hostReadTimeout b n => exact execHostReadTimeout_view hq b n s
  | queFlush b mask => exact execQueFlush_view hq b mask s
  | queReservePeakRead b => exact execQueReservePeakRead_view hq b s
  | sealedRecordMac => exact execSealedRecordMac_view hq s
  | driveLinkTrained b d gen width => exact execDriveLinkTrained_view hq b d gen width s
  | driveTrainRetry b d => exact execDriveTrainRetry_view hq b d s
  | driveReady b d info => exact execDriveReady_view hq b d info s
  | driveWaitExpire b => exact execDriveWaitExpire_view hq b s
  | nvmeCompletion b d ok => exact execNvmeCompletion_view hq b d ok s
  | driveCommandTimeout b d => exact execDriveCommandTimeout_view hq b d s
  | driveLinkDown b d => exact execDriveLinkDown_view hq b d s
  | failoverResume b => exact execFailoverResume_view hq b s
  | recSyncTimer b => exact execRecSyncTimer_view hq b s
  | smartPoll b d temp media used => exact execSmartPoll_view hq b d temp media used s
  | recStartEffect b => exact execRecStartEffect_view hq b s
  | recStopEffect b => exact execRecStopEffect_view hq b s
  | recStopDone b => exact execRecStopDone_view hq b s
  | recFreezeReleaseOne b k0 => exact execRecFreezeReleaseOne_view hq b k0 s
  | recFreezeReleaseAll b => exact execRecFreezeReleaseAll_view hq b s
  | replayDeliver b fault => exact execReplayDeliver_view hq b fault s
  | replayStall b t => exact execReplayStall_view hq b t s
  | replayResume b t => exact execReplayResume_view hq b t s
  | rebuildRowDone b => exact execRebuildRowDone_view hq b s
  | recLatMaxRead b d => exact execRecLatMaxRead_view hq b d s
  | laneLockLost b k signal => exact execLaneLockLost_view hq b k signal s
  | laneUp b k => exact execLaneUp_view hq b k s
  | laneBringupTimeout b k => exact execLaneBringupTimeout_view hq b k s
  | capabilityFrameRx b k frame => exact execCapabilityFrameRx_view hq b k frame s
  | stepRungCheckDone n errs => exact execStepRungCheckDone_view hq n errs s
  | lnlLanesFailTimeout n => exact execLnlLanesFailTimeout_view hq n s
  | lnlBringupRestart n => exact execLnlBringupRestart_view hq n s
  | eyeMeasure b k v h => exact execEyeMeasure_view hq b k v h s
  | laneErrRead b k errs losses => exact execLaneErrRead_view hq b k errs losses s
  | laneClear b k => exact execLaneClear_view hq b k s
  | laneTxSleep b k => exact execLaneTxSleep_view hq b k s
  | laneTxWake b k => exact execLaneTxWake_view hq b k s
  | laneRxSleep b k => exact execLaneRxSleep_view hq b k s
  | laneRxWake b k => exact execLaneRxWake_view hq b k s
  | laneResync b k rx => exact execLaneResync_view hq b k rx s
  | laneSleepDone b k tx => exact execLaneSleepDone_view hq b k tx s
  | laneTxWakeDone b k => exact execLaneTxWakeDone_view hq b k s
  | laneRxWakeDone b k rx => exact execLaneRxWakeDone_view hq b k rx s
  | laneSignalDetect b k => exact execLaneSignalDetect_view hq b k s
  | laneTestWrite b k v rx => exact execLaneTestWrite_view hq b k v rx s
  | errInject b k => exact execErrInject_view b k s
  | pcieLinkUp b j gen width reversed => exact execPcieLinkUp_view hq b j gen width reversed s
  | pcieLinkDown b j => exact execPcieLinkDown_view hq b j s
  | pcieReset b j => exact execPcieReset_view hq b j s
  | pcieBmeChange b j bme d3 => exact execPcieBmeChange_view hq b j bme d3 s
  | ethLinkUp b k0 => exact execEthLinkUp_view hq b k0 s
  | ethLinkDown b k0 => exact execEthLinkDown_view hq b k0 s
  | ethPortFault b k0 kind => exact execEthPortFault_view hq b k0 kind s
  | ethFailoverDone n => exact execEthFailoverDone_view hq n s
  | ethFrameRx b k0 f => exact execEthFrameRx_view hq b k0 f s
  | ptpOffsetMeasure x => exact execPtpOffsetMeasure_view hq x s
  | ethResolveTimer p d ok => exact execEthResolveTimer_view hq p d ok s
  | flitReceive b p f => exact execFlitReceive_view hq b p f s
  | lnlFlitTimeout b p => exact execLnlFlitTimeout_view hq b p s
  | fabricPacketRx b p h payload => exact execFabricPacketRx_view hq b p h payload s
  | lnlLinkDown b p modules => exact execLnlLinkDown_view hq b p modules s
  | topologyUpdate b cuts din full => exact execTopologyUpdate_view hq b cuts din full s
  | fabricPortRetrain b p modules => exact execFabricPortRetrain_view hq b p modules s
  | lnlLinkUp b p => exact execLnlLinkUp_view hq b p s
  | lnlLaneFail n j => exact execLnlLaneFail_view hq n j s
  | lnlWidthResume n => exact execLnlWidthResume_view hq n s
  | shoalExchangeRx n size package counts hash => exact execShoalExchangeRx_view hq n size package counts hash s
  | shoalMismatchRetry n => exact execShoalMismatchRetry_view hq n s
  | islandDeclared b packages => exact execIslandDeclared_view hq b packages s
  | rejoinMeasure b off => exact execRejoinMeasure_view hq b off s
  | islandRejoin => exact execIslandRejoin_view hq s
  | rejoinOffsetRemoved => exact execRejoinOffsetRemoved_view hq s
  | provisionSignKey => exact execProvisionSignKey_view hq s
  | provisionMacKey => exact execProvisionMacKey_view hq s
  | revoke => exact execRevoke_view hq s
  | tamperClear => exact execTamperClear_view hq s
  | logVerify => exact execLogVerify_view hq s
  | logVerifyDone => exact execLogVerifyDone_view hq s
  | logArchive ok => exact execLogArchive_view hq ok s
  | tamperSample openA openB => exact execTamperSample_view hq openA openB s
  | sealLogFlush ok => exact execSealLogFlush_view hq ok s
  | rtcFollowWrite => exact execRtcFollowWrite_view hq s
  | vbatBrownout => exact execVbatBrownout_view hq s
  | calTempInterval b k0 => exact execCalTempInterval_view hq b k0 s
  | calIntervalDue b k0 => exact execCalIntervalDue_view hq b k0 s
  | calBackoffEnd b k0 => exact execCalBackoffEnd_view hq b k0 s
  | calRunStart b k0 => exact execCalRunStart_view hq b k0 s
  | calForced b k0 => exact execCalForced_view hq b k0 s
  | calPassDone b k0 p => exact execCalPassDone_view hq b k0 p s
  | combCheckDone b k0 o => exact execCombCheckDone_view hq b k0 o s
  | calRunEnd b k0 => exact execCalRunEnd_view hq b k0 s
  | hkcScanConversion b x code => exact execHkcScanConversion_view hq b x code s
  | hkcSealedConversion b x code => exact execHkcSealedConversion_view hq b x code s
  | hkcUrgentRequest b x chan => exact execHkcUrgentRequest_view hq b x chan s
  | hkcUrgentDone b x code => exact execHkcUrgentDone_view hq b x code s
  | auxClrAssert => exact execAuxClrAssert_view hq s
  | auxClrRelease => exact execAuxClrRelease_view hq s
  | auxCodeWrite b n v dma => exact execAuxCodeWrite_view hq b n v dma s
  | auxComplianceFault b k0 => exact execAuxComplianceFault_view hq b k0 s
  | auxComplianceClear b k0 => exact execAuxComplianceClear_view hq b k0 s
  | pwrReqWatch svc => exact execPwrReqWatch_view hq svc s
  | pwrReqStandby svc => exact execPwrReqStandby_view hq svc s
  | pwrReqWake remote => exact execPwrReqWake_view hq remote s
  | pwrEntryStart leader => exact execPwrEntryStart_view hq leader s
  | pwrQueuesDrained => exact execPwrQueuesDrained_view hq s
  | pwrDrainTimeout => exact execPwrDrainTimeout_view hq s
  | domainEbbDone b d => exact execDomainEbbDone_view hq b d s
  | watchBlockDone b sum => exact execWatchBlockDone_view hq b sum s
  | wakeInRise => exact execWakeInRise_view hq s
  | wakeComparator b k0 => exact execWakeComparator_view hq b k0 s
  | rtcWake => exact execRtcWake_view hq s
  | floodSupervisorDone => exact execFloodSupervisorDone_view hq s
  | floodDone => exact execFloodDone_view hq s
  | watchPeakRead b => exact execWatchPeakRead_view hq b s
  | monSample b m v injected => exact execMonSample_view hq b m v injected s
  | monSnap b mask => exact execMonSnap_view hq b mask s
  | faultLongestRead => exact execFaultLongestRead_view hq s
  | injKill v => exact execInjKill_view hq v s
  | svcTransaction op => exact execSvcTransaction_view hq op s
  | svcAlertClear v => exact execSvcAlertClear_view hq v s
  | registerWrite a v en => exact execRegisterWrite_view hq a v en s
  | tbsEdgeLostRead b => exact execTbsEdgeLostRead_view hq b s
  | hostErrorCompletion b n => exact execHostErrorCompletion_view hq b n s
  | lnlInjDelayExpire b n => exact execLnlInjDelayExpire_view hq b n s
  | ethInjDelayExpire n => exact execEthInjDelayExpire_view hq n s
  | verticalBlankingStart b => exact execVerticalBlankingStart_view hq b s
  | jtagUpdateIr b op => exact execJtagUpdateIr_view hq b op s
  | jtagTestLogicReset b => exact execJtagTestLogicReset_view hq b s
  | sysrefOutEdge b => exact execSysrefOutEdge_view hq b s
  | controllerFatalStatus b d => exact execControllerFatalStatus_view hq b d s
  | spllPhase8Timeout b => exact execSpllPhase8Timeout_view hq b s

/-- What every command does to the lasting parts. Only the commands named below touch one of them; each of these has its own law
in Laws/Grows. -/
theorem exec_grows (i : Instr) (s : State) : Out.grows s (exec i s) := by
  by_cases hq : Parts.lasting.apart i.touches = true
  · exact Out.grows_of_view (exec_view i hq s)
  · cases i with
    | rstNFall => exact execRstNFall_grows ..
    | powerFail => exact execPowerFail_grows ..
    | checkerDone _ => exact execCheckerDone_grows ..
    | spllLockPhase8 _ => exact execSpllLockPhase8_grows ..
    | sealRowVerified _ => exact execSealRowVerified_grows ..
    | flashCommandDone _ _ => exact execFlashCommandDone_grows ..
    | globalResetArrive _ => exact execGlobalResetArrive_grows ..
    | provisionSignKey => exact execProvisionSignKey_grows ..
    | provisionMacKey => exact execProvisionMacKey_grows ..
    | revoke => exact execRevoke_grows ..
    | logArchive _ => exact execLogArchive_grows ..
    | sealLogFlush _ => exact execSealLogFlush_grows ..
    | svcTransaction _ => exact execSvcTransaction_grows ..
    | _ => exact absurd rfl hq

theorem grows_of_exec {i : Instr} {s t : State} (h : exec i s = .next t) : s.Grows t := by
  have hg := exec_grows i s
  rw [h] at hg
  exact hg

theorem State.tick_grows (s : State) : s.Grows s.tick := .of_view (s.tick_view (q := Parts.lasting) (by decide))

/-- The inversion of a step: an FCLK edge where no command waits, else the command at the front of the queue on the state with
the rest of the queue (log entry 5). -/
theorem step_cases {s t : State} (h : step s = .next t) :
    (s.pending = [] ∧ t = s.tick) ∨ ∃ c rest, s.pending = c :: rest ∧ exec c { s with pending := rest } = .next t := by
  unfold step at h
  split at h
  · next hp => exact .inl ⟨hp, (Host.Outcome.next.inj h).symm⟩
  · next c rest hp => exact .inr ⟨c, rest, hp, h⟩

/-- Taking a command off the queue leaves the part and the fuses, so what the command itself does is what the step does. -/
theorem step_grows {s t : State} (h : step s = .next t) : t.part = s.part ∧ s.keeper.fuses.Grows t.keeper.fuses := by
  obtain ⟨-, rfl⟩ | ⟨c, rest, -, hc⟩ := step_cases h
  · exact ⟨s.tick_grows.part, s.tick_grows.fuses⟩
  · have hg : State.Grows { s with pending := rest } t := grows_of_exec hc
    exact ⟨hg.part, hg.fuses⟩

end Sys2Proof.Machine

namespace Sys2Proof
open Sys2Proof.Machine

/-- Settles O5: a step is an FCLK edge or one command, and either lets the lasting parts only grow (R630 to R634). -/
theorem stepLasts : Obligations.StepLasts := by
  unfold Obligations.StepLasts Claims.StepLasts.step_fuses_grow Claims.StepLasts.exec_keeps_queue
  exact ⟨fun _ _ h => step_grows h, fun _ _ _ h => (grows_of_exec h).pending⟩

end Sys2Proof
end

section
/-! Time passing, switch episodes and build-out of the reference selection: what each shared operation of Machine/Clk.lean does. -/
namespace Sys2Proof.Machine

/-! ### Whose reports and which candidates count -/

@[simp] theorem State.reach_bay_lnl_routes (s : State) (t : Stamp) (c : BayNo) :
    ((s.reach t).bay c).lnl.routes = (s.bay c).lnl.routes :=
  State.reach_keep (fun x => (x.bay c).lnl.routes) s
    (fun d => State.passTime_bay_same (·.lnl.routes) s d c (fun x n v => by rw [x.advance_lnl]) (fun _ => rfl) fun _ _ => rfl) t

@[simp] theorem State.reach_bay_lnl_island (s : State) (t : Stamp) (c : BayNo) :
    ((s.reach t).bay c).lnl.island = (s.bay c).lnl.island :=
  State.reach_keep (fun x => (x.bay c).lnl.island) s
    (fun d => State.passTime_bay_same (·.lnl.island) s d c (fun x n v => by rw [x.advance_lnl]) (fun _ => rfl) fun _ _ => rfl) t

theorem State.reports_congr {s t : State} (b : BayNo) (ha : ∀ c, t.alive c = s.alive c)
    (hr : (t.bay b).lnl.routes = (s.bay b).lnl.routes) (hi : ∀ c, (t.bay c).lnl.island = (s.bay c).lnl.island) :
    t.reports b = s.reports b := by
  simp only [State.reports, State.reaches, State.sameSide, ha, hr, hi]

@[simp] theorem State.reach_reports (s : State) (t : Stamp) (b : BayNo) : (s.reach t).reports b = s.reports b :=
  State.reports_congr b (s.reach_alive t) (s.reach_bay_lnl_routes t b) (s.reach_bay_lnl_island t)

@[simp] theorem State.modClk_reports (s : State) (b c : BayNo) (f : ClkBay → ClkBay) : (s.modClk b f).reports c = s.reports c :=
  State.reports_congr c (s.modClk_alive b f) (by rw [State.modClk_bay_lnl]) fun d => by rw [State.modClk_bay_lnl]

theorem State.candQualified_congr {s t : State} (c : Cand) (hl : t.liveBays = s.liveBays) (hr : ∀ b, t.reports b = s.reports b)
    (hc : ∀ b, (t.bay b).clk = (s.bay b).clk) : t.candQualified c = s.candQualified c := by
  simp only [State.candQualified, hl, hr, hc]

@[simp] theorem State.reach_candQualified (s : State) (t : Stamp) (c : Cand) : (s.reach t).candQualified c = s.candQualified c :=
  State.candQualified_congr c (s.reach_liveBays t) (s.reach_reports t) (s.reach_bay_clk t)

@[simp] theorem State.reach_chooseCand (s : State) (t : Stamp) (p : Nat) (r : Option Cand) :
    (s.reach t).chooseCand p r = s.chooseCand p r := by
  simp only [State.chooseCand, State.reach_candQualified]

/-- What the headland has not qualified itself counts as qualified nowhere (R105, R107; log entry 67). -/
theorem State.candQualified_of_headland {s : State} {c : Cand} (h : (s.bay 0).clk.qualified[c] = false) : s.candQualified c = false := by
  simp only [State.candQualified, h, Bool.false_and]

/-- What the headland has qualified and no bay has lost since counts as qualified (R105, R107; log entry 67). -/
theorem State.candQualified_of_none_lost {s : State} {c : Cand} (h : (s.bay 0).clk.qualified[c] = true)
    (hl : ∀ d, (s.bay d).clk.lostCand[c] = none) : s.candQualified c = true := by
  simp [State.candQualified, h, hl]

/-- The headland's own reports always reach it. -/
theorem State.reports_headland (s : State) : s.reports 0 = s.alive 0 := by
  simp [State.reports, State.reaches, State.sameSide]

/-! ### The freeze and the loss that a bay notes -/

@[simp] theorem State.freezeDpll_sel (s : State) (b : BayNo) : (s.freezeDpll b).sel = s.sel := by
  unfold State.freezeDpll; split <;> rfl

@[simp] theorem State.freezeDpll_reports (s : State) (b c : BayNo) : (s.freezeDpll b).reports c = s.reports c := by
  unfold State.freezeDpll
  split
  · rfl
  · exact s.modClk_reports ..

theorem State.freezeDpll_frozen (s : State) (b : BayNo) : ((s.freezeDpll b).bay b).clk.frozen = true := by
  unfold State.freezeDpll
  split
  · assumption
  · rw [State.modClk_bay_clk_self]

@[simp] theorem State.noteLoss_sel (s : State) (b : BayNo) (c : Cand) (q : Bool) : (s.noteLoss b c q).sel = s.sel := (rfl)

@[simp] theorem State.noteLoss_reports (s : State) (b d : BayNo) (c : Cand) (q : Bool) : (s.noteLoss b c q).reports d = s.reports d :=
  s.modClk_reports ..

theorem State.noteLoss_clk (s : State) (b : BayNo) (c : Cand) (q : Bool) :
    ((s.noteLoss b c q).bay b).clk.frozen = (s.bay b).clk.frozen ∧ ((s.noteLoss b c q).bay b).clk.qualified[c] = false ∧
      ((s.noteLoss b c q).bay b).clk.present[c] = !q := by
  simp [State.noteLoss]

/-! ### Switch episodes and build-out -/

@[simp] theorem State.openEpisode_bay (s : State) (x : Selector) (b : BayNo) : (s.openEpisode x).bay b = s.bay b := by
  unfold State.openEpisode; split <;> rfl

/-- An episode runs by the values that its start took; everything else of the selector is as asked (R111, R114). -/
theorem State.openEpisode_sel (s : State) (x : Selector) :
    (s.openEpisode x).sel =
      { x with episode := true, prio := (s.openEpisode x).sel.prio, revertive := (s.openEpisode x).sel.revertive
               episodes := (s.openEpisode x).sel.episodes } := by
  unfold State.openEpisode; split <;> rfl

@[simp] theorem State.countSwitch_sel (s : State) : s.countSwitch.sel = s.sel := by
  simp [State.countSwitch]

theorem State.countSwitch_qualified (s : State) (c : BayNo) : (s.countSwitch.bay c).clk.qualified = (s.bay c).clk.qualified :=
  State.eachBay_keep (fun u => (u.bay c).clk.qualified) (fun u b => u.modClk b fun k => { k with switches := satAdd 0xFFFF k.switches 1 })
    (fun u b => State.bay_modBay_same (·.clk.qualified) u b c _ fun _ => rfl) _ s

@[simp] theorem State.beginBuildOut_sel (s : State) (old : Option Cand) (c : Cand) (tell : Bool) :
    (s.beginBuildOut old c tell).sel = { s.sel with state := .buildOut, target := some c, since := s.now } := by
  unfold State.beginBuildOut
  cases tell <;> simp

@[simp] theorem State.beginBuildOut_qualified (s : State) (old : Option Cand) (c : Cand) (tell : Bool) (b : BayNo) :
    ((s.beginBuildOut old c tell).bay b).clk.qualified = (s.bay b).clk.qualified := by
  unfold State.beginBuildOut
  cases tell <;> simp [State.countSwitch_qualified]

/-! ### The end of the deglitch interval -/

@[simp] theorem State.noteDeglitch_sel (s : State) (r : Bool) (l c : Option Cand) : (s.noteDeglitch r l c).sel = s.sel := by
  unfold State.noteDeglitch
  split <;> simp

@[simp] theorem State.endRefFault_sel (s : State) (l : Option Cand) : (s.endRefFault l).sel = s.sel := by
  unfold State.endRefFault
  split <;> simp

@[simp] theorem State.endDeglitch_sel (s : State) (r : Bool) (l c : Option Cand) :
    (s.endDeglitch r l c).sel = { s.sel with resumed := r } := by
  unfold State.endDeglitch
  cases r <;> simp

@[simp] theorem State.beginHoldover_sel (s : State) :
    s.beginHoldover.sel = { s.sel with state := .holdover, active := none, target := none } := by
  simp [State.beginHoldover]

/-! ### Changes in every live bay, and what a command leaves of the settings and of the timebase -/

/-- What a change of the clock block makes true of any clock block holds in every live bay once all are changed. -/
theorem State.eachLive_modClk {p : ClkBay → Prop} {g : State → ClkBay → ClkBay} (hg : ∀ u k, p (g u k)) (s : State) {c : BayNo}
    (h : s.alive c = true) : p ((s.eachBay s.liveBays fun u b => u.modClk b (g u)).bay c).clk := by
  obtain ⟨l, r, hl⟩ := List.append_of_mem ((s.mem_liveBays c).mpr h)
  rw [State.eachBay, hl, List.foldl_append, List.foldl_cons]
  refine List.foldlRecOn (motive := fun u : State => p (u.bay c).clk) r _ ?_ fun u hu b _ => ?_
  · rw [State.modClk_bay_clk_self]
    exact hg ..
  · by_cases hc : c = b
    · subst hc
      rw [State.modClk_bay_clk_self]
      exact hg ..
    · rwa [State.modClk_bay_clk_ne _ _ _ hc]

/-- A view of parts that a command does not touch stays. -/
theorem view_of_exec {q : Parts} {i : Instr} {s t : State} (h : exec i s = .next t) (hi : q.apart i.touches = true) :
    t.view q = s.view q :=
  Option.some.inj (by rw [← out_view_next, ← h, exec_view i hi s])

/-- A command that does not touch the settings leaves them. -/
theorem vals_of_exec {i : Instr} {s t : State} (h : exec i s = .next t) (hi : Parts.apart { vals := true } i.touches = true) :
    t.vals = s.vals :=
  (congrArg State.vals (view_of_exec h hi) : (t.view { vals := true }).vals = (s.view { vals := true }).vals)

/-- A command that does not touch the package's timebase leaves it. -/
theorem tbs_of_exec {i : Instr} {s t : State} (h : exec i s = .next t) (hi : Parts.apart { tbs := true } i.touches = true) :
    t.tbs = s.tbs :=
  (congrArg State.tbs (view_of_exec h hi) : (t.view { tbs := true }).tbs = (s.view { tbs := true }).tbs)

end Sys2Proof.Machine
end

section
/-! The clauses of ReferencesAndClocks: what the commands of the reference selection and of the clocks answer. -/
namespace Sys2Proof.Machine

/-! ### The meanings of the commands -/

theorem exec_refLossDetect (b : BayNo) (c : Cand) (t0 : Stamp) (silent : Bool) (s : State) :
    exec (.refLossDetect b c t0 silent) s = execRefLossDetect b c t0 silent s := (rfl)
theorem exec_refDeglitchEnd (resumed : Bool) (s : State) : exec (.refDeglitchEnd resumed) s = execRefDeglitchEnd resumed s := (rfl)
theorem exec_buildOutEnd (phase : Int) (s : State) : exec (.buildOutEnd phase) s = execBuildOutEnd phase s := (rfl)
theorem exec_pullInDone (freq : Int) (s : State) : exec (.pullInDone freq) s = execPullInDone freq s := (rfl)
theorem exec_refQualified (b : BayNo) (c : Cand) (off : Int) (s : State) :
    exec (.refQualified b c off) s = execRefQualified b c off s := (rfl)
theorem exec_refDisqualified (b : BayNo) (c : Cand) (off : Int) (s : State) :
    exec (.refDisqualified b c off) s = execRefDisqualified b c off s := (rfl)
theorem exec_clkSysrefFire (b : BayNo) (s : State) : exec (.clkSysrefFire b) s = execClkSysrefFire b s := (rfl)
theorem exec_clkFaultCntRead (b : BayNo) (s : State) : exec (.clkFaultCntRead b) s = execClkFaultCntRead b s := (rfl)
theorem exec_spllLolClear (b : BayNo) (s : State) : exec (.spllLolClear b) s = execSpllLolClear b s := (rfl)
theorem exec_spllStuckTimeout (b : BayNo) (s : State) : exec (.spllStuckTimeout b) s = execSpllStuckTimeout b s := (rfl)

/-! ### REF_LOSS_DETECT -/

/-- The loss of the reference in use: the bay freezes and notes it, and the deglitch time begins in an episode (R105, R110, R114). -/
def State.beginDeglitch (s : State) (b : BayNo) (c : Cand) (t0 : Stamp) (silent : Bool) : State :=
  let s1 := (s.freezeDpll b).noteLoss b c silent
  let s2 := s1.openEpisode { s1.sel with state := .deglitch, target := none, lost := some c, t0 := t0, resumed := false }
  s2.faultOpen { code := 4, bay := 0, part := c.val } s2.now

theorem State.beginDeglitch_sel (s : State) (b : BayNo) (c : Cand) (t0 : Stamp) (silent : Bool) :
    (s.beginDeglitch b c t0 silent).sel.state = .deglitch ∧ (s.beginDeglitch b c t0 silent).sel.lost = some c ∧
      (s.beginDeglitch b c t0 silent).sel.t0 = t0 ∧ (s.beginDeglitch b c t0 silent).sel.episode = true := by
  simp only [State.beginDeglitch, State.faultOpen_sel]
  rw [State.openEpisode_sel]
  exact ⟨rfl, rfl, rfl, rfl⟩

theorem State.beginDeglitch_clk (s : State) (b : BayNo) (c : Cand) (t0 : Stamp) (silent : Bool) :
    ((s.beginDeglitch b c t0 silent).bay b).clk.frozen = true ∧ ((s.beginDeglitch b c t0 silent).bay b).clk.qualified[c] = false ∧
      ((s.beginDeglitch b c t0 silent).bay b).clk.present[c] = !silent := by
  simp only [State.beginDeglitch, State.faultOpen_bay_clk, State.openEpisode_bay]
  have h := (s.freezeDpll b).noteLoss_clk b c silent
  rwa [s.freezeDpll_frozen b] at h

theorem exec_refLossDetect_active {s : State} {b : BayNo} {c : Cand} (t0 : Stamp) (silent : Bool) (hb : s.alive b = true)
    (hp : (s.bay b).clk.present[c] = true) (hr : s.reports b = true) (ha : s.sel.active = some c) (hs : s.sel.state = .locked) :
    exec (.refLossDetect b c t0 silent) s =
      .next ((if silent then s.reach (later t0 (s.candPeriods c 3)) else s).beginDeglitch b c t0 silent) := by
  rw [exec_refLossDetect, execRefLossDetect, if_neg (by simp [hb, hp])]
  generalize hu : (if silent then s.reach (later t0 (s.candPeriods c 3)) else s) = u
  have hsel : u.sel = s.sel := by rw [← hu]; split <;> simp
  have hrep : u.reports b = true := by rw [← hu]; split <;> simpa using hr
  simp [State.beginDeglitch, hsel, hrep, ha, hs]

theorem refLossDetect_active : Claims.ReferencesAndClocks.refLossDetect_active := by
  intro s b c t0 silent hb _ hp hr ha hs
  obtain ⟨hstate, hlost, ht0, hepisode⟩ := State.beginDeglitch_sel _ b c t0 silent
  exact ⟨_, exec_refLossDetect_active t0 silent hb hp hr ha hs, hstate, hlost, ht0, hepisode, State.beginDeglitch_clk _ b c t0 silent⟩

/-! ### REF_DEGLITCH_END -/

theorem exec_refDeglitchEnd_switch {s : State} {resumed : Bool} {c l : Cand} (hs : s.sel.state = .deglitch)
    (hl : s.sel.lost = some l) (hc : s.chooseCand s.sel.prio (if resumed then some l else none) = some c) :
    exec (.refDeglitchEnd resumed) s = .next
      (((s.reach (later s.sel.t0 (ofUs 10))).endDeglitch resumed (some l) (some c)).beginBuildOut (some l) c
        (decide (some c ≠ some l))) := by
  rw [exec_refDeglitchEnd]
  simp only [execRefDeglitchEnd, hs, hl, hc, ne_eq, not_true_eq_false, if_false, State.reach_sel, State.reach_chooseCand]

theorem exec_refDeglitchEnd_holdover {s : State} {l : Cand} (hs : s.sel.state = .deglitch) (hl : s.sel.lost = some l)
    (hc : s.chooseCand s.sel.prio none = none) :
    exec (.refDeglitchEnd false) s =
      .next ((s.reach (later s.sel.t0 (ofUs 10))).endDeglitch false (some l) none).beginHoldover := by
  rw [exec_refDeglitchEnd]
  simp only [execRefDeglitchEnd, hs, hl, hc, ne_eq, not_true_eq_false, if_false, Bool.false_eq_true, State.reach_sel,
    State.reach_chooseCand]

theorem refDeglitchEnd_switch : Claims.ReferencesAndClocks.refDeglitchEnd_switch := by
  intro s resumed c l hs hl hc
  have he := exec_refDeglitchEnd_switch hs hl hc
  exact ⟨_, he, by simp, by simp, by simp, vals_of_exec he rfl, tbs_of_exec he rfl⟩

theorem refDeglitchEnd_holdover : Claims.ReferencesAndClocks.refDeglitchEnd_holdover := by
  intro s l hs hl hc
  have he := exec_refDeglitchEnd_holdover hs hl hc
  exact ⟨_, he, by simp, by simp, by simp, by simp, vals_of_exec he rfl, tbs_of_exec he rfl⟩

/-! ### BUILD_OUT_END and PULL_IN_DONE -/

theorem buildOutEnd_done : Claims.ReferencesAndClocks.buildOutEnd_done := by
  intro s phase hs
  have he := (exec_buildOutEnd phase s).trans (if_neg (not_not_intro hs))
  refine ⟨_, he, by simp, fun b hb => ?_, vals_of_exec he rfl⟩
  rw [State.modSel_bay]
  exact State.eachLive_modClk (p := fun k => k.phaseOffset = phase ∧ k.frozen = false) (fun _ _ => ⟨rfl, rfl⟩) _ (by simpa using hb)

/-- Without CLK.REVERTIVE nothing is switched back to (R112). -/
theorem State.maybeSwitchBack_of_not_revertive {s : State} (h : s.pkgN Fld.clkRevertive = 0) : s.maybeSwitchBack = s := by
  simp [State.maybeSwitchBack, State.betterCand, h]

theorem pullInDone_locked : Claims.ReferencesAndClocks.pullInDone_locked := by
  intro s freq hs hr
  have he := (exec_pullInDone freq s).trans (if_neg (not_not_intro hs))
  refine ⟨_, he, ?_⟩
  have hv := vals_of_exec he rfl
  rw [State.maybeSwitchBack_of_not_revertive (by simpa using hr)] at hv ⊢
  refine ⟨by simp, by simp, by simp, by simp, fun b hb => ?_, hv⟩
  rw [State.event_bay_clk, State.modSel_bay]
  exact State.eachLive_modClk (p := fun k => k.freqOffset = freq) (fun _ _ => rfl) _ (by simpa using hb)

/-! ### REF_QUALIFIED and REF_DISQUALIFIED -/

/-- A change of the clock block of a bay leaves everything besides it. -/
theorem State.modClk_besides (s : State) (b : BayNo) (f : ClkBay → ClkBay) :
    (s.modClk b f).besides b (fun x => { x with clk := .reset }) = s.besides b fun x => { x with clk := .reset } :=
  besides_of b _ (fun x => { x with clk := f x.clk }) rfl fun _ => rfl

/-- The bay at the end of a candidate's qualification window (R107). -/
def State.windowEnd (s : State) (b : BayNo) (c : Cand) : State :=
  s.reach (later (s.windowBegin b c).1 (ofMs (100 * (s.windowBegin b c).2)))

/-- A bay notes that a candidate has qualified at the end of its window, with offset `off` (R105, R107). -/
def State.noteQualified (s : State) (b : BayNo) (c : Cand) (off : Int) : State :=
  let u := s.windowEnd b c
  u.modClk b fun k =>
    { k with present := k.present.set c true, qualified := k.qualified.set c true, window := k.window.set c (some (s.windowBegin b c))
             candFreq := k.candFreq.set c (some (off + u.dpllFreq b (u.nowAt b))), lostCand := k.lostCand.set c none }

theorem State.noteQualified_clk (s : State) (b : BayNo) (c : Cand) (off : Int) :
    ((s.noteQualified b c off).bay b).clk.qualified[c] = true ∧ ((s.noteQualified b c off).bay b).clk.present[c] = true ∧
      ((s.noteQualified b c off).bay b).clk.lostCand[c] = none ∧
      ((s.noteQualified b c off).bay b).clk.window[c] = some (s.windowBegin b c) := by
  simp [State.noteQualified]

theorem State.noteQualified_clk_ne (s : State) {b d : BayNo} (c : Cand) (off : Int) (h : d ≠ b) :
    ((s.noteQualified b c off).bay d).clk = (s.bay d).clk := by
  rw [State.noteQualified, State.modClk_bay_clk_ne _ _ _ h, State.windowEnd, State.reach_bay_clk]

@[simp] theorem State.noteQualified_sel (s : State) (b : BayNo) (c : Cand) (off : Int) : (s.noteQualified b c off).sel = s.sel := by
  simp [State.noteQualified, State.windowEnd]

@[simp] theorem State.noteQualified_alive (s : State) (b d : BayNo) (c : Cand) (off : Int) :
    (s.noteQualified b c off).alive d = s.alive d := by
  simp [State.noteQualified, State.windowEnd]

/-- A candidate that completes its window in tolerance is noted, and taken further where it becomes qualified in the headland's view
(R105, R107, R110, R112). -/
theorem exec_refQualified_noted {s : State} {b : BayNo} {c : Cand} {off : Int} (hb : s.alive b = true) (hr : s.candReaches b c = true)
    (hw : s.candWithin off = true) (hq : (s.bay b).clk.qualified[c] = false) :
    exec (.refQualified b c off) s = .next
      (if (s.noteQualified b c off).reports b && (s.noteQualified b c off).candQualified c && !s.candQualified c then
        ((s.noteQualified b c off).faultRepair { code := 4, bay := 0, part := c.val }).takeQualified c
      else s.noteQualified b c off) := by
  rw [exec_refQualified, execRefQualified, if_neg (by simp [hb, hr, hw, hq])]
  dsimp only
  rw [State.reach_candQualified, apply_ite Host.Outcome.next]
  rfl

theorem refQualified_bay : Claims.ReferencesAndClocks.refQualified_bay := by
  intro s b c off hb hr hw hq h0 hne
  have hview : (s.noteQualified b c off).candQualified c = false :=
    State.candQualified_of_headland (by rwa [s.noteQualified_clk_ne c off hne.symm])
  have he := exec_refQualified_noted hb hr hw hq
  rw [hview, Bool.and_false, Bool.false_and, if_neg Bool.false_ne_true] at he
  obtain ⟨hqual, hpres, hlost, hwin⟩ := s.noteQualified_clk b c off
  exact ⟨_, he, hqual, hpres, hlost, hwin, s.noteQualified_sel b c off, State.modClk_besides ..⟩

/-- In HOLDOVER a listed candidate that becomes qualified is switched to by build-out (R110). -/
theorem State.takeQualified_holdover {s : State} {c : Cand} (hs : s.sel.state = .holdover) (hc : c ∈ prioList s.sel.prio) :
    s.takeQualified c = (s.event 0 0x0205 []).beginBuildOut s.sel.lost c true := by
  rw [State.takeQualified]
  simp only [State.event_sel]
  rw [if_pos ⟨hs, hc⟩]

theorem refQualified_holdover : Claims.ReferencesAndClocks.refQualified_holdover := by
  intro s c off h0 hr hw hq hl hs hc
  obtain ⟨hqual, -, hlost, -⟩ := s.noteQualified_clk 0 c off
  have hnone : ∀ d, ((s.noteQualified 0 c off).bay d).clk.lostCand[c] = none := fun d => by
    by_cases hd : d = 0
    · rwa [hd]
    · rw [s.noteQualified_clk_ne c off hd, hl d hd]
  have he := exec_refQualified_noted h0 hr hw hq
  rw [State.reports_headland, s.noteQualified_alive, h0, State.candQualified_of_none_lost hqual hnone,
    State.candQualified_of_headland hq, Bool.not_false, Bool.and_true, Bool.and_true, if_pos rfl,
    State.takeQualified_holdover (by simpa using hs) (by simpa using hc)] at he
  exact ⟨_, he, by simpa using hqual, by simp, by simp, by simp, vals_of_exec he rfl, tbs_of_exec he rfl⟩

theorem refDisqualified_done : Claims.ReferencesAndClocks.refDisqualified_done := by
  intro s b c off hb hr hw
  have he := (exec_refDisqualified b c off s).trans (if_neg (by simp [hb, hr, hw]))
  exact ⟨_, he, by simp, by simp, by simp, by simp, State.modClk_besides ..⟩

/-! ### The clock outputs and the registers -/

theorem clkSysrefFire_done : Claims.ReferencesAndClocks.clkSysrefFire_done := by
  intro s b hb hg hm
  have he := (exec_clkSysrefFire b s).trans (if_neg (by simp [hb, hg, hm]))
  exact ⟨_, he, State.modClk_bay_clk_self .., State.modClk_besides ..⟩

/-- The CLK registers show the fault counts in CLK_FAULT_CNT alone (R128). -/
theorem State.clkReg_counts (s : State) (b : BayNo) (u w : Nat) {off : Nat} (h : off ≠ 0x10) :
    (s.modClk b fun k => { k with unlocks := u, switches := w }).clkReg b off = s.clkReg b off := by
  have hf : ∀ t, (s.modClk b fun k => { k with unlocks := u, switches := w }).dpllFreq b t = s.dpllFreq b t := fun t => by
    simp [State.dpllFreq, State.pulled]
  simp only [State.clkReg, State.candOffset, State.qualElapsed, hf, State.modClk_bay_clk_self, State.modClk_nowAt, State.modClk_sel]
  split
  · rfl
  · split
    · rfl
    · split
      · rfl
      · rfl
      · rfl
      · rfl
      · exact absurd rfl h
      · rfl

theorem clkFaultCntRead_clears : Claims.ReferencesAndClocks.clkFaultCntRead_clears := by
  intro s b hb
  have he := (exec_clkFaultCntRead b s).trans (if_neg (by simp [hb]))
  exact ⟨_, he, by simp [State.clkReg, wd], fun off h => s.clkReg_counts b 0 0 h, State.modClk_besides ..⟩

theorem spllLolClear_done : Claims.ReferencesAndClocks.spllLolClear_done := by
  intro s b hb
  have he := (exec_spllLolClear b s).trans (if_neg (by simp [hb]))
  exact ⟨_, he, State.modClk_bay_clk_self .., State.modClk_besides ..⟩

theorem spllStuckTimeout_told : Claims.ReferencesAndClocks.spllStuckTimeout_told := by
  intro s b hb hu ht
  have he := (exec_spllStuckTimeout b s).trans (if_neg (by simp [hb, hu, ht]))
  refine ⟨_, he, ⟨_, rfl, rfl, rfl⟩, by simp, ?_⟩
  exact besides_of b _ (fun x => { x with clk := { x.clk with stuckTold := true } }) (State.event_still ..) fun _ => rfl

end Sys2Proof.Machine

namespace Sys2Proof
open Sys2Proof.Machine

/-- Settles O19: each command's answer is one update of the selector or of a bay's clock block, and the clauses read it off. -/
theorem referencesAndClocks : Obligations.ReferencesAndClocks :=
  ⟨refLossDetect_active, refDeglitchEnd_switch, refDeglitchEnd_holdover, buildOutEnd_done,
    pullInDone_locked, refQualified_bay, refQualified_holdover, refDisqualified_done,
    clkSysrefFire_done, clkFaultCntRead_clears, spllLolClear_done, spllStuckTimeout_told⟩

end Sys2Proof
end

section
/-! What leaves the package stays left: raising an event only adds to the outbox, and carrying a record adds nothing. -/
namespace Sys2Proof.Machine

/-! ### Carrying a record adds nothing to the outbox -/

theorem State.drawn_outbox (s : State) (m r p i : Nat) : (s.drawn m r p i).2.outbox = s.outbox := by
  simp only [State.drawn]
  (repeat' split) <;> rfl

theorem State.linkDraw_outbox (s : State) (b : BayNo) (n : Fin 5) (c : Nat) : (s.linkDraw b n c).2.2.outbox = s.outbox := by
  simp only [State.linkDraw]
  split
  · rfl
  · split <;> exact State.drawn_outbox ..

theorem State.streamDraw_outbox (s : State) (n : Fin 64) : (s.streamDraw n).2.outbox = s.outbox := by
  simp only [State.streamDraw]
  split
  · rfl
  · exact State.drawn_outbox ..

theorem State.streamPick_outbox (s : State) (qb : BayNo) (qi : Fin 16) : (s.streamPick qb qi).2.outbox = s.outbox := by
  unfold State.streamPick
  split
  · exact State.streamDraw_outbox ..
  · rfl

theorem State.putDropped_outbox (s : State) (b : BayNo) (i : Fin 16) : (s.putDropped b i).outbox = s.outbox := by
  unfold State.putDropped
  split <;> rfl

theorem State.queueMarks_outbox (s : State) (b : BayNo) (i : Fin 16) (n : Nat) (e : Bool) :
    (s.queueMarks b i n e).2.outbox = s.outbox := by
  simp only [State.queueMarks, State.modBay, State.setBay]
  split <;> rfl

theorem State.storeRec_outbox (s : State) (b : BayNo) (i : Fin 16) (r : Rec) : (s.storeRec b i r).2.2.outbox = s.outbox := by
  simp only [State.storeRec]
  split
  · exact (State.queueMarks_outbox ..).trans (State.putDropped_outbox ..)
  · rfl

theorem State.arrive_outbox (s : State) (b : BayNo) (q : Nat) (r : Rec) : (s.arrive b q r).2.2.outbox = s.outbox := by
  simp only [State.arrive]
  split
  · rfl
  · split
    · rfl
    · split
      · rfl
      · split
        · rfl
        · exact State.storeRec_outbox ..

theorem State.arriveHeld_outbox (s : State) (b : BayNo) (ps : List HeldPacket) : (s.arriveHeld b ps).2.outbox = s.outbox := by
  refine List.foldlRecOn (motive := fun acc : List (BayNo × Nat × Nat) × State => acc.2.outbox = s.outbox) ps _ rfl fun acc h p _ => ?_
  cases p with
  | data q r => exact (State.arrive_outbox ..).trans h
  | fire c u f => exact h

theorem State.carry_outbox (s : State) (b : BayNo) (q : Nat) (n : Fin 5) (a : Nat) (r : Rec) :
    (s.carry b q n a r).2.2.outbox = s.outbox := by
  simp only [State.carry]
  refine (State.arriveHeld_outbox ..).trans ?_
  split
  · exact State.arrive_outbox ..
  · rfl
  · exact State.arrive_outbox ..
  · rfl

theorem State.handSeq_outbox (s : State) (b qb : BayNo) (qi : Fin 16) (r : RecBody) (n : Word) :
    (s.handSeq b qb qi r n).2.2.outbox = s.outbox := by
  simp only [State.handSeq]
  split
  · split <;> rfl
  · split
    · rw [State.arrive_outbox, State.streamPick_outbox]
    · rw [State.carry_outbox, State.linkDraw_outbox, State.streamPick_outbox]

theorem State.handRaw_outbox (s : State) (b : BayNo) (q : Nat) (r : RecBody) : (s.handRaw b q r).2.2.outbox = s.outbox := by
  simp only [State.handRaw]
  split
  · rfl
  · split
    · rfl
    · exact State.handSeq_outbox ..

theorem State.contextDue_outbox (s : State) (b : BayNo) (code : Nat) (p : List Word) : (s.contextDue b code p).outbox = s.outbox := by
  simp only [State.contextDue]
  split <;> rfl

/-! ### Raising an event adds to the outbox -/

theorem State.ringWrite_outbox (s : State) (r : Rec) : s.outbox <:+ (s.ringWrite r).outbox := by
  simp only [State.ringWrite]
  split
  · exact (List.suffix_cons ..).trans (List.suffix_cons ..)
  · exact List.suffix_cons ..

theorem State.ringEvent_outbox (s : State) (r : Rec) (c : Bool) : s.outbox <:+ (s.ringEvent r c).outbox := by
  unfold State.ringEvent
  extract_lets buffer held need told s1
  have h1 : s.outbox <:+ s1.outbox := by
    simp only [s1]
    split
    · exact State.ringWrite_outbox ..
    · exact List.suffix_rfl
  split
  · split <;> exact List.suffix_rfl
  · split
    · exact h1.trans (State.ringWrite_outbox ..)
    · split
      · exact State.ringWrite_outbox ..
      · exact List.suffix_rfl

theorem State.ringOnly_outbox (s : State) (b : BayNo) (code : Nat) (p : List Word) (c : Bool) :
    s.outbox <:+ (s.ringOnly b code p c).outbox := by
  simp only [State.ringOnly]
  split
  · exact List.suffix_rfl
  · refine List.IsSuffix.trans ?_ (State.ringEvent_outbox ..)
    exact List.suffix_rfl

/-- What has left the package before an event has left it after. -/
theorem State.event_outbox (s : State) (b : BayNo) (code : Nat) (p : List Word) (c : Bool) :
    s.outbox <:+ (s.event b code p c).outbox := by
  have h : s.outbox <:+ ((s.contextDue b code p).ringOnly b code p c).outbox := by
    rw [← s.contextDue_outbox b code p]
    exact State.ringOnly_outbox ..
  simp only [State.event]
  refine List.foldlRecOn (motive := fun u : State => s.outbox <:+ u.outbox) _ _ ?_ fun u hu e _ => hu.trans (State.ringOnly_outbox ..)
  rwa [State.handRaw_outbox]

end Sys2Proof.Machine
end

section
/-! The clauses of JesdReceivers: SYSREF edges and the alignment of a JESD204 receiver. -/
namespace Sys2Proof.Machine

theorem exec_sysrefInEdge (b : BayNo) (t : Stamp) (falling long : Bool) (s : State) :
    exec (.sysrefInEdge b t falling long) s = execSysrefInEdge b t falling long s := (rfl)
theorem exec_sysrefOutEdge (b : BayNo) (s : State) : exec (.sysrefOutEdge b) s = execSysrefOutEdge b s := (rfl)
theorem exec_jesAligned (b : BayNo) (x : Fin 2) (a : JesAlign) (s : State) :
    exec (.jesAligned b x a) s = execJesAligned b x a s := (rfl)

/-! ### An edge at one receiver -/

/-- A receiver that awaits an edge takes it as its grid, with its skew added (R579). -/
theorem State.jesEdge_awaiting {s : State} {b : BayNo} {x : Fin 2} (t : Stamp) (hon : s.jesOn b x = true)
    (hw : (s.bay b).jes[x].awaiting = true) :
    s.jesEdge b x t = s.modJes b x fun j =>
      { j with grid := some (moved t (quarterPs (s.fld Fld.jesSSysrefSkew b x.val))), awaiting := false, nextGrid := none } := by
  simp only [State.jesEdge, hon, hw, Bool.not_true, Bool.false_eq_true, if_false, if_true]

/-- What an edge can do at a receiver: nothing, a change of that receiver, or a change that an event tells (R579). -/
theorem State.jesEdge_cases (s : State) (b : BayNo) (x : Fin 2) (t : Stamp) :
    s.jesEdge b x t = s ∨ (∃ f, s.jesEdge b x t = s.modJes b x f) ∨ ∃ f, s.jesEdge b x t = (s.modJes b x f).event b 0x1104 [] := by
  simp only [State.jesEdge]
  split
  · exact .inl rfl
  · split
    · exact .inr (.inl ⟨_, rfl⟩)
    · split
      · exact .inl rfl
      · split
        · exact .inl rfl
        · split
          · exact .inr (.inr ⟨_, rfl⟩)
          · exact .inl rfl

theorem State.modJes_jes_other (s : State) (b : BayNo) {x y : Fin 2} (f : Jes → Jes) (h : x ≠ y) :
    ((s.modJes b x f).bay b).jes[y] = (s.bay b).jes[y] := by
  simp [State.modJes_bay_jes_self, Vector.getElem_set_ne, Fin.val_ne_of_ne h]

/-- The other receiver of the bay does not see the edge. -/
theorem State.jesEdge_jes_other (s : State) (b : BayNo) {x y : Fin 2} (t : Stamp) (h : x ≠ y) :
    ((s.jesEdge b x t).bay b).jes[y] = (s.bay b).jes[y] := by
  obtain e | ⟨f, e⟩ | ⟨f, e⟩ := s.jesEdge_cases b x t
  · rw [e]
  · rw [e, s.modJes_jes_other b f h]
  · rw [e, State.event_bay_jes, s.modJes_jes_other b f h]

theorem State.jesEdge_outbox (s : State) (b : BayNo) (x : Fin 2) (t : Stamp) : s.outbox <:+ (s.jesEdge b x t).outbox := by
  obtain e | ⟨f, e⟩ | ⟨f, e⟩ := s.jesEdge_cases b x t
  · exact e.symm ▸ List.suffix_rfl
  · exact ((congrArg State.outbox e).trans (s.modJes_outbox b x f)).symm ▸ List.suffix_rfl
  · rw [e, ← s.modJes_outbox b x f]
    exact State.event_outbox ..

/-! ### An edge at the receivers of a bay -/

/-- An edge stamped `t` from SYSREF source `n` reaches the receivers that take that source (R579). -/
def State.jesEdges (s : State) (b : BayNo) (n : Nat) (t : Stamp) : State :=
  (List.finRange 2).foldl (fun s x => if s.fldN Fld.jesSSysrefSrc b x.val = n then s.jesEdge b x t else s) s

/-- Receiver 0, which takes the source and awaits an edge, has it as its grid; what had left the package stays left. -/
theorem State.jesEdges_awaiting {s : State} {b : BayNo} {n : Nat} (t : Stamp) (hn : s.fldN Fld.jesSSysrefSrc b 0 = n)
    (hon : s.jesOn b 0 = true) (hw : (s.bay b).jes[(0 : Fin 2)].awaiting = true) :
    ((s.jesEdges b n t).bay b).jes[(0 : Fin 2)].grid = some (moved t (quarterPs (s.fld Fld.jesSSysrefSkew b 0))) ∧
      ((s.jesEdges b n t).bay b).jes[(0 : Fin 2)].awaiting = false ∧ s.outbox <:+ (s.jesEdges b n t).outbox := by
  have e : s.jesEdges b n t =
      if (s.jesEdge b 0 t).fldN Fld.jesSSysrefSrc b 1 = n then (s.jesEdge b 0 t).jesEdge b 1 t else s.jesEdge b 0 t := by
    rw [State.jesEdges, show List.finRange 2 = [0, 1] from rfl, List.foldl_cons, List.foldl_cons, List.foldl_nil,
      if_pos (show s.fldN Fld.jesSSysrefSrc b (0 : Fin 2).val = n from hn)]
    rfl
  have h0 := State.jesEdge_awaiting t hon hw
  have hj : ((s.jesEdges b n t).bay b).jes[(0 : Fin 2)] = ((s.jesEdge b 0 t).bay b).jes[(0 : Fin 2)] := by
    rw [e]
    split
    · exact State.jesEdge_jes_other _ b t (by decide)
    · rfl
  have ho : s.outbox <:+ (s.jesEdges b n t).outbox := by
    rw [e]
    split
    · exact (s.jesEdge_outbox b 0 t).trans (State.jesEdge_outbox ..)
    · exact s.jesEdge_outbox b 0 t
  rw [hj, h0]
  simpa using ho

/-! ### SYSREF_IN and SYSREF_OUT -/

theorem sysrefInEdge_polarity : Claims.JesdReceivers.sysrefInEdge_polarity := by
  intro s b a falling long h
  exact ⟨s, (exec_sysrefInEdge b a falling long s).trans (if_pos (by simpa using h)), rfl⟩

/-- An edge that the TDC stamps changes the time of its pin's last edge alone (R140). -/
theorem State.tdcEdge_stamped {s v : State} {b : BayNo} {p : Fin 5} {a u : Stamp} {long : Bool} (h : s.tdcEdge b p a long = (some u, v)) :
    v = s.modTbs b fun y => { y with lastEdge := y.lastEdge.set p (some a) } := by
  unfold State.tdcEdge at h
  extract_lets x near at h
  split at h
  · cases h
  · split at h
    · cases h
    · exact (Prod.mk.inj h).2.symm

theorem exec_sysrefInEdge_stamped {s v : State} {b : BayNo} {a u : Stamp} {long : Bool} (h : s.tdcEdge b 4 a long = (some u, v))
    (hc : (v.bay b).tbs.tdcCoarse = false) :
    exec (.sysrefInEdge b a (s.fldB Fld.jesSysrefEdge b) long) s = .next (v.jesEdges b 0 u) := by
  rw [exec_sysrefInEdge, execSysrefInEdge, if_neg (by simp), h]
  simp only [hc, Bool.false_eq_true, if_false]
  rfl

theorem sysrefInEdge_grid : Claims.JesdReceivers.sysrefInEdge_grid := by
  intro s v b a u long h hb hc hn hon hw
  have hv := State.tdcEdge_stamped h
  have hon' : v.jesOn b 0 = true := by
    rw [hv]
    exact Bool.and_eq_true_iff.mpr ⟨(State.modTbs_alive ..).trans hb, hon⟩
  have hskew : v.fld Fld.jesSSysrefSkew b 0 = s.fld Fld.jesSSysrefSkew b 0 := by rw [hv, State.modTbs_fld]
  obtain ⟨hgrid, hdone, -⟩ := State.jesEdges_awaiting (s := v) (n := 0) u (by rw [hv]; exact hn) hon'
    (by rw [hv, State.modTbs_bay_jes]; exact hw)
  exact ⟨_, exec_sysrefInEdge_stamped h hc, by rw [hgrid, hskew], hdone⟩

theorem sysrefOutEdge_gated : Claims.JesdReceivers.sysrefOutEdge_gated := by
  intro s b h
  exact ⟨s, (exec_sysrefOutEdge b s).trans (if_pos (by simp [h])), rfl⟩

/-- When the next edge of SYSREF_OUT leaves the package (R117, R119). -/
def State.sysrefOutTime (s : State) (b : BayNo) : Stamp := moved (s.sysrefNext b) (stepDelay (s.fld Fld.clkSysrefDelay b))

/-- An edge of SYSREF_OUT in continuous mode leaves the package (R119). -/
def State.sysrefOut (s : State) (b : BayNo) : State :=
  ((s.reach (s.sysrefNext b)).modClk b fun k => k.sysrefStep (s.sysrefNext b)).emit (.pin "SYSREF_OUT" b true (s.sysrefOutTime b))

theorem exec_sysrefOutEdge_continuous {s : State} {b : BayNo} (hb : s.alive b = true) (hg : (s.bay b).clk.gated = false)
    (hm : s.fldN Fld.clkSysrefMode b = 1) :
    exec (.sysrefOutEdge b) s = .next ((s.sysrefOut b).jesEdges b 1 (s.sysrefOutTime b)) := by
  rw [exec_sysrefOutEdge, execSysrefOutEdge, if_neg (by simp [hb, hg, hm])]
  simp only [hm, State.reach_fld, (by decide : ¬ (1 : Nat) = 2), if_false]
  rfl

theorem sysrefOutEdge_done : Claims.JesdReceivers.sysrefOutEdge_done := by
  intro s b hb hg hm hn hon hw
  obtain ⟨hgrid, -, hbox⟩ := State.jesEdges_awaiting (s := s.sysrefOut b) (b := b) (n := 1) (s.sysrefOutTime b)
    (by simpa [State.sysrefOut] using hn) (by simp [State.sysrefOut, State.jesOn, hb, hon]) (by simpa [State.sysrefOut] using hw)
  exact ⟨_, exec_sysrefOutEdge_continuous hb hg hm, by simpa [State.sysrefOut, State.sysrefOutTime] using hgrid,
    hbox.subset List.mem_cons_self⟩

/-! ### The alignment of a JESD204C receiver -/

/-- What a receiver of a JESD204C stream, which has no ILAS, holds of an alignment (R579, R580, R587). -/
def State.noteAlignment (s : State) (b : BayNo) (x : Fin 2) (a : JesAlign) : State :=
  s.modJes b x fun j =>
    { j with
      grid := if j.nextGrid.isSome then j.nextGrid else j.grid, nextGrid := none
      earliest := s.arrivalWord b x ((a.arrivals.min?).getD 0), latest := s.arrivalWord b x ((a.arrivals.max?).getD 0)
      locked := a.locked, jsync := false, ilasBad := false, late := false }

/-- An alignment with every lane inside the latency window is counted and starts the port (R580, R583). -/
def State.acceptAlignment (s : State) (b : BayNo) (x : Fin 2) (a : JesAlign) : State :=
  let s1 := ((s.noteAlignment b x a).modJes b x fun j => { j with aligns := j.aligns + 1 }).modPort b (xsPort x) fun y =>
    { y with aligned := true }
  (s1.servePort b (.jesd x.val) true).event b 0x1101
    [wd x.val, (s.arrivalWord b x ((a.arrivals.min?).getD 0)).setWidth 32, (s.arrivalWord b x ((a.arrivals.max?).getD 0)).setWidth 32]

/-- An alignment with lane `i` outside the latency window is refused (R580). -/
def State.refuseAlignment (s : State) (b : BayNo) (x : Fin 2) (a : JesAlign) (i : Nat) : State :=
  (((s.noteAlignment b x a).modJes b x fun j => { j with refused := j.refused + 1 }).modJes b x fun j =>
    { j with late := true }).event b 0x1103 [wd (s.fldN Fld.jesSFirstLane b x.val + i)]

theorem State.modJes_lateLane (s : State) (b c : BayNo) (x y : Fin 2) (f : Jes → Jes) (l : List Nat) :
    (s.modJes b x f).lateLane c y l = s.lateLane c y l := (rfl)

/-- The latency window decides on the alignment of a JESD204C receiver (R579, R580, R583). -/
theorem exec_jesAligned_204c {s : State} {b : BayNo} {x : Fin 2} {a : JesAlign} {g : Stamp} (hon : s.jesOn b x = true)
    (hal : (s.bay b).ddc[xsPort x].aligned = false) (hg : (s.bay b).jes[x].grid = some g) (hr : s.img.state = .run)
    (hstd : s.fldN Fld.jesSStd b x.val ≠ 0) :
    exec (.jesAligned b x a) s =
      .next ((s.lateLane b x a.arrivals).elim (s.acceptAlignment b x a) (s.refuseAlignment b x a)) := by
  rw [exec_jesAligned, execJesAligned, if_neg (by simp only [hon, hal, hg, hr]; simp)]
  simp only [hstd, decide_false, Bool.false_eq_true, if_false, State.modJes_lateLane]
  cases s.lateLane b x a.arrivals <;> rfl

theorem State.view_bay (s : State) (q : Parts) (c : BayNo) : (s.view q).bay c = (s.bay c).view q := by
  simp [State.view, State.bay]

/-- What a port's lanes do changes neither the receivers of a bay nor its down-converter ports. -/
theorem State.servePort_bay (s : State) (b : BayNo) (p : PortId) (up : Bool) (c : BayNo) :
    ((s.servePort b p up).bay c).jes = (s.bay c).jes ∧ ((s.servePort b p up).bay c).ddc = (s.bay c).ddc := by
  have h : ((s.servePort b p up).bay c).view { jes := true, ddc := true } = (s.bay c).view { jes := true, ddc := true } := by
    rw [← State.view_bay, State.servePort_view (by decide), State.view_bay]
  exact ⟨by simpa [Bay.view] using congrArg Bay.jes h, by simpa [Bay.view] using congrArg Bay.ddc h⟩

theorem jesAligned_aligned : Claims.JesdReceivers.jesAligned_aligned := by
  intro s b x a g hon hal hg hr hstd hl
  have he := exec_jesAligned_204c (a := a) hon hal hg hr hstd
  rw [hl] at he
  exact ⟨_, he, by simp [State.acceptAlignment, State.noteAlignment, State.servePort_bay]⟩

theorem jesAligned_late : Claims.JesdReceivers.jesAligned_late := by
  intro s b x a g i hon hal hg hr hstd hl
  have he := exec_jesAligned_204c (a := a) hon hal hg hr hstd
  rw [hl] at he
  refine ⟨_, he, ?_, ?_, ?_, _, rfl, rfl, rfl⟩
  · simpa [State.refuseAlignment, State.noteAlignment] using hal
  · simp [State.refuseAlignment]
  · simp [State.refuseAlignment, State.noteAlignment]

end Sys2Proof.Machine

namespace Sys2Proof
open Sys2Proof.Machine

/-- Settles O47: an edge is one update of the receiver that awaits it, and an alignment one of its receiver and port. -/
theorem jesdReceivers : Obligations.JesdReceivers :=
  ⟨sysrefInEdge_polarity, sysrefInEdge_grid, sysrefOutEdge_done, sysrefOutEdge_gated, jesAligned_aligned, jesAligned_late⟩

end Sys2Proof
end

section
/-! The clauses of EdgesOfTheGrid: what a TDC makes of an edge, and what an edge or the end of a window does to the epoch grid. -/
namespace Sys2Proof.Machine

theorem exec_syncInEdge (b : BayNo) (t : Stamp) (falling long relayed : Bool) (s : State) :
    exec (.syncInEdge b t falling long relayed) s = execSyncInEdge b t falling long relayed s := (rfl)
theorem exec_syncWindowEnd (s : State) : exec .syncWindowEnd s = execSyncWindowEnd s := (rfl)

/-! ### An edge at a TDC -/

/-- After a long pulse, and 50 ns or more after the last stamped edge, an edge is stamped at the pin (R137, R140, R141). -/
theorem State.tdcEdge_of_far {s : State} {b : BayNo} {p : Fin 5} {a : Stamp} (hb : s.alive b = true) (hp : s.pinned b = true)
    (hs : (s.bay b).tbs.set = true)
    (hfar : ((s.bay b).tbs.lastEdge[p].all fun l => !decide (stampDiff a l < (ofNs 50 : Nat))) = true) :
    s.tdcEdge b p a true =
      (some (s.pinStamp b p.val a), s.modTbs b fun y => { y with lastEdge := y.lastEdge.set p (some a) }) := by
  cases hl : (s.bay b).tbs.lastEdge[p] with
  | none => simp [State.tdcEdge, hb, hp, hs, hl]
  | some l =>
    rw [hl, Option.all_some, Bool.not_eq_true'] at hfar
    simp [State.tdcEdge, hb, hp, hs, hl, hfar]

/-- After a short pulse an edge of SYNC_IN, PPS_IN or TRIG_IN is only counted as lost (R141, R167). -/
theorem State.tdcEdge_of_short {s : State} {b : BayNo} (p : Fin 4) (a : Stamp) (hb : s.alive b = true) (hp : s.pinned b = true)
    (hs : (s.bay b).tbs.set = true) :
    s.tdcEdge b p.castSucc a false =
      (none, s.modTbs b fun y =>
        { y with edgeLost := y.edgeLost.set p (if y.edgeLost[p] = 0xFF then 0xFF else y.edgeLost[p] + 1) }) := by
  simp [State.tdcEdge, hb, hp, hs]

theorem tdcEdge_stamps : Claims.EdgesOfTheGrid.tdcEdge_stamps := by
  intro s b p a hb hp hs hfar
  rw [State.tdcEdge_of_far hb hp hs hfar]
  refine ⟨?_, by simp⟩
  rw [State.pinStamp, apply_ite (toStep · a)]
  rfl

theorem tdcEdge_short : Claims.EdgesOfTheGrid.tdcEdge_short := by
  intro s b p a hb hp hs
  rw [State.tdcEdge_of_short p a hb hp hs]
  exact ⟨rfl, by simp⟩

/-! ### An edge at the grid -/

/-- An edge in the window of B that is not one of the late half-window sets the boundary, and the grid is LOCKED (R157). -/
theorem Grid.onEdge_sets {g : Grid} {a : Stamp} (rough : Bool) (hpast : g.past = none ∨ g.locked = true) (he : g.edge = none)
    (hearly : stampLe (moved g.next (-(g.window : Int))) a = true)
    (hlate : (if g.locked then stampLe a (later g.next g.window) else stampLt a g.next) = true)
    (hlong : stampDiff a g.start ≥ (ofUs 1 : Nat)) :
    g.onEdge a rough = { g with edge := some a, edgeCoarse := rough, locked := true, past := none } := by
  have hnot : (match g.past with
      | some b => !g.locked && stampLe b a && stampLe a (later b g.window)
      | none => false) = false := by
    obtain hp | hl := hpast
    · rw [hp]
    · cases g.past <;> simp [hl]
  rw [Grid.onEdge]
  refine (if_neg fun h => Bool.false_ne_true (hnot.symm.trans h)).trans (if_pos ?_)
  rw [hearly, hlate, he, decide_eq_true hlong]
  rfl

theorem onEdge_search : Claims.EdgesOfTheGrid.onEdge_search := fun _ _ rough hl hp he hearly hlate hlong =>
  Grid.onEdge_sets rough (.inl hp) he hearly (by rw [hl]; exact hlate) hlong

theorem onEdge_late : Claims.EdgesOfTheGrid.onEdge_late := by
  intro g a b rough hl hp hb hw
  simp only [Grid.onEdge, hl, hp, hb, hw]
  rfl

theorem onEdge_locked : Claims.EdgesOfTheGrid.onEdge_locked := by
  intro g a rough hl he hearly hlate hlong
  rw [Grid.onEdge_sets rough (.inr hl) he hearly (by rw [hl]; exact hlate) hlong, ← hl]

theorem onEdge_ignored : Claims.EdgesOfTheGrid.onEdge_ignored := by
  intro g a rough hp hearly
  simp only [Grid.onEdge, hp, hearly]
  rfl

/-! ### SYNC_IN_EDGE and SYNC_WINDOW_END -/

/-- The edge of SYNC_IN that the headland stamps at `u` moves the grid, and its entry to LOCKED is told (R157). -/
def State.syncEdge (s : State) (u : Stamp) (rough : Bool) : State :=
  let t := s.modGrid fun g => g.onEdge u rough
  if t.tbs.grid.locked && !s.tbs.grid.locked then t.event 0 0x0310 [] else t

theorem State.syncEdge_tbs (s : State) (u : Stamp) (rough : Bool) :
    (s.syncEdge u rough).tbs = { s.tbs with grid := s.tbs.grid.onEdge u rough } := by
  unfold State.syncEdge
  extract_lets t
  split
  · exact t.event_tbs ..
  · rfl

theorem exec_syncInEdge_alone {s s1 : State} {a u : Stamp} {long : Bool} (h : s.tdcEdge 0 0 a long = (some u, s1))
    (hone : s.pkgN Fld.lnlShoalSize ≤ 1) (hr : s.tbs.grid.running = true) (hw : s.tbs.grid.window ≠ 0) :
    exec (.syncInEdge 0 a (decide (s.pkgN Fld.tbsSyncEdge = 1)) long false) s =
      .next (s1.syncEdge u (s.bay 0).tbs.tdcCoarse) := by
  have htbs : s1.tbs = s.tbs := by rw [State.tdcEdge_stamped h, State.modTbs_tbs]
  rw [exec_syncInEdge, execSyncInEdge, if_neg (by simp)]
  simp [h, Nat.not_lt.mpr hone, htbs, hr, hw, State.syncEdge]

theorem syncInEdge_done : Claims.EdgesOfTheGrid.syncInEdge_done := by
  intro s s1 a u long h hone hr hw
  have he := exec_syncInEdge_alone h hone hr hw
  have htbs : (s1.syncEdge u (s.bay 0).tbs.tdcCoarse).tbs = { s.tbs with grid := s.tbs.grid.onEdge u (s.bay 0).tbs.tdcCoarse } := by
    rw [State.syncEdge_tbs, State.tdcEdge_stamped h, State.modTbs_tbs]
  exact ⟨_, he, by rw [htbs], vals_of_exec he rfl, by rw [htbs]⟩

theorem syncWindowEnd_missed : Claims.EdgesOfTheGrid.syncWindowEnd_missed := by
  intro s hr hw hl he
  have hx := (exec_syncWindowEnd s).trans (by
    rw [execSyncWindowEnd, if_neg (by simp [hr, hw]), if_pos hl, if_neg (by simp [he])])
  refine ⟨_, hx, ⟨_, rfl, by simp, by simp⟩, by simp⟩

end Sys2Proof.Machine

namespace Sys2Proof
open Sys2Proof.Machine

/-- Settles O20: the TDC's two answers and the grid's response to an edge are each one update, and the commands carry them over. -/
theorem edgesOfTheGrid : Obligations.EdgesOfTheGrid :=
  ⟨tdcEdge_stamps, tdcEdge_short, syncInEdge_done, onEdge_search, onEdge_late, onEdge_locked, onEdge_ignored, syncWindowEnd_missed⟩

end Sys2Proof
end

section
/-! The clauses of PpsRejection: what the servo makes of an edge of PPS_IN that the TDC has stamped. -/
namespace Sys2Proof.Machine

theorem exec_ppsEdge (b : BayNo) (t : Stamp) (falling long : Bool) (s : State) :
    exec (.ppsEdge b t falling long) s = execPpsEdge b t falling long s := (rfl)

/-! ### What an offset makes of the servo -/

theorem State.steer_servo (s : State) (r : Int) :
    ∃ v l, (s.steer r).tbs.servo = { s.tbs.servo with rateAdj := v, rates := l } := by
  refine ⟨max (-s.slewMax) (min s.slewMax r), (s.now, max (-s.slewMax) (min s.slewMax r)) :: s.tbs.servo.rates, ?_⟩
  unfold State.steer
  rw [State.eachBay_tbs _ _ _ fun u b => by split <;> rfl]
  rfl

/-- An offset that enters the servo ends the row of rejections and leaves their number (R149, R150). -/
theorem State.servoOffset_rejects (s : State) (off : Int) :
    (s.servoOffset off).tbs.servo.rejects = 0 ∧ (s.servoOffset off).tbs.servo.rejected = s.tbs.servo.rejected := by
  unfold State.servoOffset
  extract_lets d close n st s1 s2
  have h2 : s2.tbs.servo.rejects = 0 ∧ s2.tbs.servo.rejected = s.tbs.servo.rejected := by
    have e : s2.tbs = s1.tbs := by
      simp only [s2]
      split
      · exact s1.event_tbs ..
      · split
        · exact s1.event_tbs ..
        · rfl
    rw [e]
    exact ⟨rfl, rfl⟩
  split
  · exact h2
  · obtain ⟨v, l, hv⟩ := s2.steer_servo (Config.servoLoop (s2.pkgN Fld.tbsServoBw) off s2.tbs.servo.rateAdj)
    rw [State.freeSteer, hv]
    exact h2

/-! ### PPS_EDGE -/

/-- The offset of an edge of PPS_IN stamped at `u`, with the cable delay taken off, from the nearest whole second (R148, R151). -/
def State.ppsOffset (s : State) (u : Stamp) : Int := offsetFromSecond (moved u (-(quarterPs (s.fld Fld.tbsPpsDelay 0))))

/-- The source is heard (R149). -/
def State.hearSource (s : State) : State := s.modServo fun d => { d with heard := s.now }

/-- An edge of PPS_IN is rejected; the third in a row returns the servo to ACQUIRING (R150). -/
def State.rejectPps (s : State) : State :=
  let t := s.modServo fun d => { d with rejected := d.rejected + 1, rejects := d.rejects + 1 }
  if s.tbs.servo.rejects + 1 ≥ 3 then
    (t.modServo fun d => { d with state := .acquiring, rejects := 0, within := 0 }).event 0 0x0304 []
  else t

/-- What a rejection leaves of the servo: the count goes up, and the row goes on until its third (R150). -/
theorem State.rejectPps_servo (s : State) :
    s.rejectPps.tbs.servo =
      if s.tbs.servo.rejects + 1 ≥ 3 then
        { s.tbs.servo with rejected := s.tbs.servo.rejected + 1, state := .acquiring, rejects := 0, within := 0 }
      else { s.tbs.servo with rejected := s.tbs.servo.rejected + 1, rejects := s.tbs.servo.rejects + 1 } := by
  unfold State.rejectPps
  extract_lets t
  split
  · rw [State.event_tbs]
    rfl
  · rfl

/-- An edge of PPS_IN that the headland stamps under discipline 1 or 3 is rejected in LOCKED where it is far from the second, and
enters the servo otherwise (R148, R150). -/
theorem exec_ppsEdge_stamped {s s1 : State} {a u : Stamp} {long : Bool} (h : s.tdcEdge 0 1 a long = (some u, s1))
    (h0 : s.packageNo = 0) (hd : s.pkgN Fld.tbsDiscipline = 1 ∨ s.pkgN Fld.tbsDiscipline = 3) :
    exec (.ppsEdge 0 a (decide (s.pkgN Fld.tbsPpsEdge = 1)) long) s = .next
      (if s.tbs.servo.state = .locked ∧ (s.ppsOffset u).natAbs > ofMs 1 then s1.hearSource.rejectPps
       else s1.hearSource.servoOffset (s.ppsOffset u)) := by
  obtain rfl := State.tdcEdge_stamped h
  rw [exec_ppsEdge, execPpsEdge, if_neg (by simp), h]
  refine (if_neg ?_).trans ?_
  · simpa [State.packageNo, hd] using h0
  · by_cases hrej : s.tbs.servo.state = .locked ∧ (s.ppsOffset u).natAbs > ofMs 1
    · rw [if_pos hrej]
      exact (if_pos hrej).trans (apply_ite Host.Outcome.next ..).symm
    · rw [if_neg hrej]
      exact if_neg hrej

theorem ppsEdge_rejected : Claims.PpsRejection.ppsEdge_rejected := by
  intro s s1 a u long h h0 hd hl hfar
  have he := exec_ppsEdge_stamped h h0 hd
  rw [if_pos ⟨hl, hfar⟩] at he
  have hservo : s1.hearSource.tbs.servo = { s.tbs.servo with heard := s1.now } := by
    rw [State.tdcEdge_stamped h]
    rfl
  refine ⟨_, he, ?_⟩
  rw [State.rejectPps_servo, hservo]
  split
  · exact ⟨rfl, rfl, rfl, rfl⟩
  · exact ⟨rfl, rfl, rfl, by rw [hl]⟩

theorem ppsEdge_consecutive : Claims.PpsRejection.ppsEdge_consecutive := by
  intro s s1 a u long h h0 hd hnear
  have he := exec_ppsEdge_stamped h h0 hd
  rw [if_neg fun ⟨hl, hfar⟩ => hnear.elim (· hl) (Nat.not_le.mpr hfar)] at he
  obtain ⟨hrow, hcount⟩ := s1.hearSource.servoOffset_rejects (s.ppsOffset u)
  exact ⟨_, he, hrow, hcount.trans (by rw [State.tdcEdge_stamped h]; rfl)⟩

end Sys2Proof.Machine

namespace Sys2Proof
open Sys2Proof.Machine

/-- Settles O22: a stamped edge is either rejected or enters the servo, and only the second ends the row. -/
theorem ppsRejection : Obligations.PpsRejection := ⟨ppsEdge_rejected, ppsEdge_consecutive⟩

end Sys2Proof
end

section
/-! The clauses of EthernetPorts: one of them fails where the number of a stream's other port lies out of its range. -/
namespace Sys2Proof.Machine

/-- Bay 0 with every Ethernet link up. -/
def ethUpBay : Bay :=
  { Bay.reset with eth := Vector.replicate 8 { EthPort.reset with linkUp := true, fecLock := true } }

/-- An image without entries. -/
def bareImage : Image :=
  { slot := false, id := 0, hash := [], sealedHash := [], shoalHash := [], signed := false, keySlot := 0, sealed := [], opened := []
    shoal := [], profiles := [], live := [], items := [], ignored := 0 }

/-- A package in RUN with port 0 of bay 0 present. Stream 0, which channel 0 of bay 0 feeds, has moved to its standby port 0. Its
ETH.S_PORT is 64, which R585 does not permit: `ethPortOf` takes it for port 0 too. -/
def aliasedStream : State :=
  let s : State :=
    { State.reset with
      bays := State.reset.bays.set 0 ethUpBay
      pwr := { PwrPkg.reset with state := .run }
      img := { Img.reset with image := some bareImage }
      eth := { EthPkg.reset with streams := EthPkg.reset.streams.set 0 { EthStream.reset with onStandby := true } } }
  ((((s.setFld Fld.ethPEn 0 0 1).setFld Fld.dmaMode 0 0 2).setFld Fld.dmaStream 0 0 0).setFld Fld.ethSStandby 0 0 0).setFld
    Fld.ethSPort 0 0 64

/-- The stream's two ports have different numbers, and both work: they are one port. -/
theorem aliasedStream_ports :
    aliasedStream.ethHere 0 0 = true ∧ aliasedStream.streamUsed 0 = true ∧ aliasedStream.streamPort 0 = 0 ∧
      aliasedStream.otherPort 0 = some 64 ∧ aliasedStream.ethWorks 0 = true ∧ aliasedStream.ethWorks 64 = true := by
  decide +kernel

/-- A local fault of port 0 takes port 64 with it, so the stream has nowhere to move to. -/
theorem aliasedStream_stays :
    (afterOf (exec (.ethPortFault 0 0 1) aliasedStream) aliasedStream).eth.streams[0].failing = false := by
  decide +kernel

theorem not_ethPortFault_moves : ¬ Claims.EthernetPorts.ethPortFault_moves := by
  intro h
  obtain ⟨hhere, hused, hport, hother, hworks, hworks'⟩ := aliasedStream_ports
  obtain ⟨t, he, hfailing, -⟩ := h aliasedStream 0 0 0 64 hhere hworks hused hport hother (by decide) hworks'
  have hstays := aliasedStream_stays
  rw [he] at hstays
  exact Bool.false_ne_true (hstays.symm.trans hfailing)

end Sys2Proof.Machine

namespace Sys2Proof
open Sys2Proof.Machine

/-- Refutes O46: its clause on the failure of a port asks nothing of the range of a stream's port numbers, and two numbers that differ
by 64 name one port. -/
theorem not_ethernetPorts : ¬ Obligations.EthernetPorts :=
  fun ⟨_, _, hmoves, _⟩ => not_ethPortFault_moves hmoves

end Sys2Proof
end

section
/-! The clauses of WakesAndFloods: wake events, the watch meter, and what a flood brings back. -/
namespace Sys2Proof.Machine

theorem exec_wakeInRise (s : State) : exec .wakeInRise s = execWakeInRise s := (rfl)
theorem exec_wakeComparator (b : BayNo) (i : Fin 2) (s : State) : exec (.wakeComparator b i) s = execWakeComparator b i s := (rfl)
theorem exec_rtcWake (s : State) : exec .rtcWake s = execRtcWake s := (rfl)
theorem exec_pwrReqWake (remote : Option (Fin 5 × BayNo)) (s : State) : exec (.pwrReqWake remote) s = execPwrReqWake remote s := (rfl)
theorem exec_watchBlockDone (b : BayNo) (sum : Nat) (s : State) :
    exec (.watchBlockDone b sum) s = execWatchBlockDone b sum s := (rfl)
theorem exec_watchPeakRead (b : BayNo) (s : State) : exec (.watchPeakRead b) s = execWatchPeakRead b s := (rfl)
theorem exec_floodSupervisorDone (s : State) : exec .floodSupervisorDone s = execFloodSupervisorDone s := (rfl)
theorem exec_floodDone (s : State) : exec .floodDone s = execFloodDone s := (rfl)

/-! ### A wake event -/

/-- A wake event is counted with its cause and bay, and told; in a shoal it goes to every package (R725). -/
def State.countWake (s : State) (cause : Nat) (b : BayNo) : State :=
  let t := ((s.modPwr fun p =>
    { p with wakes := p.wakes + 1, wakeCause := BitVec.ofNat 3 cause, wakeBay := BitVec.ofNat 3 b.val, wakeStamp := s.now }).alert 6).event
    0 0x1703 ([wd cause, wd b.val] ++ stampWords s.now)
  if s.pkgN Fld.lnlShoalSize > 1 then t.emit (.packet "SHOAL_WAKE" 0 [wd cause, wd b.val]) else t

theorem State.countWake_pwr (s : State) (cause : Nat) (b : BayNo) :
    (s.countWake cause b).pwr =
      { s.pwr with wakes := s.pwr.wakes + 1, wakeCause := BitVec.ofNat 3 cause, wakeBay := BitVec.ofNat 3 b.val, wakeStamp := s.now } := by
  unfold State.countWake
  split <;> simp

theorem State.countWake_island (s : State) (cause : Nat) (b : BayNo) : (s.countWake cause b).keeper.island = s.keeper.island := by
  unfold State.countWake
  split <;> simp

/-- In WATCH and STANDBY a wake is counted and begins the flood (R726). -/
theorem State.wake_steady {s : State} (cause : Nat) (b : BayNo) (hp : s.pwr.phase = .steady)
    (hs : s.pwr.state = .watch ∨ s.pwr.state = .standby) : s.wake cause b = (s.countWake cause b).beginFlood := by
  simp only [State.wake, hp, if_pos hs]
  rfl

/-- While an entry is only requested a wake is counted and cancels it (R732). -/
theorem State.wake_requested {s : State} (cause : Nat) (b : BayNo) {target : PowerState} {e : Stamp}
    (hp : s.pwr.phase = .requested target e) : s.wake cause b = (s.countWake cause b).modPwr fun p => { p with phase := .steady } := by
  simp only [State.wake, hp]
  rfl

/-- During a flood a wake is surplus (R732). -/
theorem State.wake_flooding {s : State} (cause : Nat) (b : BayNo) {cold : Bool} (hp : s.pwr.phase = .flooding cold) :
    s.wake cause b = s.modPwr fun p => { p with surplus := p.surplus + 1 } := by
  simp only [State.wake, hp]

/-- What the power manager shows of a wake in WATCH or STANDBY. -/
theorem State.wake_steady_pwr {s : State} (cause : Nat) (b : BayNo) (hp : s.pwr.phase = .steady)
    (hs : s.pwr.state = .watch ∨ s.pwr.state = .standby) :
    (s.wake cause b).pwr =
      { s.pwr with wakes := s.pwr.wakes + 1, wakeCause := BitVec.ofNat 3 cause, wakeBay := BitVec.ofNat 3 b.val, wakeStamp := s.now
                   phase := .flooding (decide (s.pwr.state = .standby)), wakeAfter := false } := by
  rw [State.wake_steady cause b hp hs, State.beginFlood, State.modPwr_pwr, State.countWake_pwr]

theorem wakeInRise_floods : Claims.WakesAndFloods.wakeInRise_floods := by
  intro s hon hpin hp hs
  refine ⟨_, (exec_wakeInRise s).trans (if_pos (by simp [hon, hpin])), ?_⟩
  rw [State.wake_steady_pwr 0 0 hp hs]
  exact ⟨rfl, rfl, rfl, rfl, rfl⟩

theorem wakeComparator_floods : Claims.WakesAndFloods.wakeComparator_floods := by
  intro s b i hb hon hdet hp hs
  refine ⟨_, (exec_wakeComparator b i s).trans (if_pos (by simp [hb, hon, hdet])), ?_⟩
  rw [State.wake_steady_pwr 1 b hp (.inl hs), hs]
  exact ⟨rfl, rfl, rfl⟩

/-- The RTC has reached PWR_WAKE_RTC, which it shows (R725). -/
def State.rtcReached (s : State) : State :=
  if s.keeper.island.rtcSec = s.pwr.wakeRtc then s else s.modIsland fun i => { i with rtcSec := s.pwr.wakeRtc, rtcSub := 0 }

theorem State.rtcReached_pwr (s : State) : s.rtcReached.pwr = s.pwr := by
  unfold State.rtcReached
  split <;> rfl

theorem State.rtcReached_rtcSec (s : State) : s.rtcReached.keeper.island.rtcSec = s.pwr.wakeRtc := by
  unfold State.rtcReached
  split
  · assumption
  · rfl

theorem exec_rtcWake_reached {s : State} (h0 : s.pwr.wakeRtc ≠ 0) (hr : s.keeper.island.rtcSec.toNat ≤ s.pwr.wakeRtc.toNat)
    (hon : s.wakeOn 2 = true) : exec .rtcWake s = .next (s.rtcReached.wake 2 0) := by
  rw [exec_rtcWake, execRtcWake]
  exact if_neg (by simpa [hon, hr] using h0)

theorem rtcWake_floods : Claims.WakesAndFloods.rtcWake_floods := by
  intro s h0 hr hon hp hs
  have hp' : s.rtcReached.pwr.phase = .steady := by rw [State.rtcReached_pwr, hp]
  have hs' : s.rtcReached.pwr.state = .standby := by rw [State.rtcReached_pwr, hs]
  refine ⟨_, exec_rtcWake_reached h0 hr hon, ?_, ?_, ?_⟩
  · rw [State.wake_steady_pwr 2 0 hp' (.inr hs'), hs']
    rfl
  · rw [State.wake_steady_pwr 2 0 hp' (.inr hs')]
    rfl
  · rw [State.wake_steady 2 0 hp' (.inr hs'), State.beginFlood, State.modPwr_keeper, State.countWake_island, State.rtcReached_rtcSec]

theorem pwrReqWake_cancels : Claims.WakesAndFloods.pwrReqWake_cancels := by
  intro s target e hc hp
  refine ⟨_, (exec_pwrReqWake none s).trans (if_pos hc), ?_⟩
  rw [State.wake_requested 4 0 hp, State.modPwr_pwr, State.countWake_pwr]
  exact ⟨rfl, rfl, rfl⟩

theorem pwrReqWake_surplus : Claims.WakesAndFloods.pwrReqWake_surplus := fun s _ hc hp =>
  ⟨_, (exec_pwrReqWake none s).trans (if_pos hc), State.wake_flooding 4 0 hp⟩

/-! ### The watch meter -/

/-- A block of level `l` is read by the meter of bay `b`, with `n` blocks in a row now at or above PWR.WATCH_LEVEL (R724). -/
def State.readBlock (s : State) (b : BayNo) (l : Int) (n : Nat) : State :=
  s.modDom b fun p =>
    { p with watchLevel := l, watchPeak := some (match p.watchPeak with
      | none => l
      | some m => max m l), watchAbove := n }

theorem State.readBlock_pwr (s : State) (b : BayNo) (l : Int) (n : Nat) : (s.readBlock b l n).pwr = s.pwr := (rfl)

theorem exec_watchBlockDone_watching {s : State} {b : BayNo} {sum n : Nat} (hb : s.alive b = true) (hs : s.pwr.state = .watch)
    (hp : s.pwr.phase = .steady) (hw : s.pwr.watching.getLsbD b.val = true) (hg : (s.bay b).clk.gated = false)
    (hn : n = if s.fld Fld.pwrWatchLevel b ≤ s.watchLevel b sum then (s.bay b).pwr.watchAbove + 1 else 0) :
    exec (.watchBlockDone b sum) s = .next
      (if s.fldN Fld.pwrWatchCount b ≤ n ∧ s.wakeOn 3 = true then (s.readBlock b (s.watchLevel b sum) n).wake 3 b
       else s.readBlock b (s.watchLevel b sum) n) := by
  subst hn
  rw [exec_watchBlockDone, execWatchBlockDone]
  exact if_neg (by simp [hb, hs, hp, hw, hg])

theorem watchBlockDone_below : Claims.WakesAndFloods.watchBlockDone_below := by
  intro s b sum hb hs hp hw hg hlow hcount hpeak
  have he := exec_watchBlockDone_watching (n := 0) hb hs hp hw hg (if_neg (Int.not_le.mpr hlow)).symm
  rw [if_neg fun h => Nat.not_le.mpr hcount h.1] at he
  refine ⟨_, he, ?_⟩
  simp only [State.readBlock, State.modDom, State.modBay, hpeak]

theorem watchBlockDone_wakes : Claims.WakesAndFloods.watchBlockDone_wakes := by
  intro s b sum hb hs hp hw hg hhigh hcount hon
  have he := exec_watchBlockDone_watching (n := (s.bay b).pwr.watchAbove + 1) hb hs hp hw hg (if_pos hhigh).symm
  rw [if_pos ⟨Nat.le_of_eq hcount, hon⟩] at he
  refine ⟨_, he, ?_⟩
  rw [State.wake_steady_pwr 3 b (by rw [State.readBlock_pwr, hp]) (.inl (by rw [State.readBlock_pwr, hs])), State.readBlock_pwr, hs]
  exact ⟨rfl, rfl, rfl⟩

theorem watchPeakRead_done : Claims.WakesAndFloods.watchPeakRead_done := fun s b hb =>
  ⟨_, (exec_watchPeakRead b s).trans (if_neg (by simp [hb])), rfl⟩

/-! ### The supervisors of a flood -/

/-- A bay whose supervisor comes on: its PLLs are locked and its tide counter is slaved to the headland's `tide` (R144, R726). -/
def Bay.superviseAt (tide : Tide) (y : Bay) : Bay :=
  { y with clk := { y.clk with spllLock := true, cpllLock := true }, tbs := { y.tbs with tide := tide }
           pwr := { y.pwr with supervisor := true } }

theorem State.modBay_modBay (s : State) (b : BayNo) (f g : Bay → Bay) : (s.modBay b f).modBay b g = s.modBay b fun x => g (f x) := by
  simp [State.modBay, State.setBay, State.bay]

/-- The bays of a flood from STANDBY whose supervisors were off (R726). -/
def State.asleepBays (s : State) : List BayNo := s.liveBays.filter fun b => !(s.bay b).pwr.supervisor

theorem exec_floodSupervisorDone_cold {s : State} (hp : s.pwr.phase = .flooding true) :
    exec .floodSupervisorDone s = .next
      ((s.eachBay s.asleepBays fun u b => u.modBay b (Bay.superviseAt (s.bay 0).tbs.tide)).modPwr fun p =>
        { p with phase := .flooding false }) := by
  rw [exec_floodSupervisorDone]
  simp only [execFloodSupervisorDone, hp, State.modClk, State.modDom, State.modBay_modBay]
  rfl

theorem State.mem_asleepBays (s : State) (b : BayNo) : b ∈ s.asleepBays ↔ b ∈ s.liveBays ∧ (s.bay b).pwr.supervisor = false := by
  simp [State.asleepBays]

theorem State.asleepBays_nodup (s : State) : s.asleepBays.Nodup := s.liveBays_nodup.filter _

theorem floodSupervisorDone_done : Claims.WakesAndFloods.floodSupervisorDone_done := by
  intro s hp
  refine ⟨_, exec_floodSupervisorDone_cold hp, rfl, fun b hb => ?_⟩
  rw [State.modPwr_bay, State.eachBay_bay (fun _ => Bay.superviseAt (s.bay 0).tbs.tide) b _ s.asleepBays_nodup]
  cases hoff : (s.bay b).pwr.supervisor with
  | false =>
    rw [if_pos ((s.mem_asleepBays b).mpr ⟨hb, hoff⟩)]
    exact ⟨rfl, fun _ => ⟨rfl, rfl, rfl⟩⟩
  | true =>
    rw [if_neg fun h => Bool.false_ne_true (((s.mem_asleepBays b).mp h).2.symm.trans hoff)]
    exact ⟨hoff, fun h => absurd h (by simp)⟩

/-! ### The end of a flood -/

theorem State.pwr_of_view {s t : State} (h : t.view { pwr := true } = s.view { pwr := true }) : t.pwr = s.pwr :=
  (congrArg State.pwr h :)

theorem State.vals_of_view {s t : State} (h : t.view { vals := true } = s.view { vals := true }) : t.vals = s.vals :=
  (congrArg State.vals h :)

theorem State.bay_pwr_of_view {s t : State} (h : t.view { domains := true } = s.view { domains := true }) (c : BayNo) :
    (t.bay c).pwr = (s.bay c).pwr := by
  have hb := congrArg (State.bay · c) h
  simp only [State.view_bay] at hb
  exact (congrArg Bay.pwr hb :)

/-- The datapath, the ports and the cores that `on` names, and no other core, are powered. -/
def PwrBay.Flooded (on : Fin 8 → Bool) (p : PwrBay) : Prop := p.datapath = true ∧ p.ports = true ∧ ∀ c : Fin 8, p.cores[c] = on c

/-- The domains of a bay but for its quads. -/
def PwrBay.quadless (p : PwrBay) : PwrBay := { p with quads := Vector.replicate 6 false }

theorem PwrBay.Flooded.of_quadless {on : Fin 8 → Bool} {p q : PwrBay} (h : p.Flooded on) (e : q.quadless = p.quadless) :
    q.Flooded on := by
  have hq : q.quadless.Flooded on := by
    rw [e]
    exact h
  exact hq

/-- Once the domains of its setup are powered, a flood changes no other domain of a bay (R717, R726). -/
theorem State.floodBay_domains (s : State) (b : BayNo) (t : Stamp) :
    (s.floodBay b t).view { domains := true } =
      ((if (s.bay b).pwr.hkc then s else s.hkcStart b).powerDomains b).view { domains := true } := by
  unfold State.floodBay
  extract_lets s0 s1 s2 s3
  have h1 : s1.view { domains := true } = s0.view { domains := true } := State.modBay_view _ _ _ _ fun _ => rfl
  have h2 : s2.view { domains := true } = s1.view { domains := true } :=
    foldl_view _ _ (fun _ _ => (State.freeAtten_view (by decide) ..).trans (State.modAdc_view (by decide) ..)) _ _
  have h3 : s3.view { domains := true } = s2.view { domains := true } :=
    (State.recBegin_view (by decide) ..).trans (State.startRaster_view (by decide) ..)
  exact (foldl_view _ _ (fun _ _ => State.jesStart_view (by decide) ..) _ _).trans (h3.trans (h2.trans h1))

theorem State.powerDomains_flooded (s : State) (b : BayNo) :
    ((s.powerDomains b).bay b).pwr.Flooded fun c => s.fldB Fld.mcoCEn b c.val := by
  simp [State.powerDomains, PwrBay.Flooded]

theorem State.floodBay_flooded (s : State) (b : BayNo) (t : Stamp) :
    ((s.floodBay b t).bay b).pwr.Flooded fun c => s.fldB Fld.mcoCEn b c.val := by
  rw [State.bay_pwr_of_view (s.floodBay_domains b t) b]
  split
  · exact s.powerDomains_flooded b
  · exact (s.hkcStart b).powerDomains_flooded b

theorem State.floodBay_bay_pwr_ne (s : State) {b c : BayNo} (t : Stamp) (h : c ≠ b) :
    ((s.floodBay b t).bay c).pwr = (s.bay c).pwr := by
  rw [State.bay_pwr_of_view (s.floodBay_domains b t) c, State.powerDomains, State.modDom_bay_pwr_ne _ _ _ h]
  split
  · rfl
  · rw [State.hkcStart, State.modHkc_bay_pwr, State.bay_modBay_ne _ _ h]

theorem State.floodBay_vals (s : State) (b : BayNo) (t : Stamp) : (s.floodBay b t).vals = s.vals :=
  State.vals_of_view (s.floodBay_view (by decide) b t)

/-- Every bay of a flood has the domains of its setup powered. -/
theorem State.floodBays_flooded (s : State) (t : Stamp) {c : BayNo} {bs : List BayNo} (hc : c ∈ bs) :
    ((s.eachBay bs fun u b => u.floodBay b t).bay c).pwr.Flooded fun k => s.fldB Fld.mcoCEn c k.val := by
  have hone : ∀ u : State, u.vals = s.vals → ((u.floodBay c t).bay c).pwr.Flooded fun k => s.fldB Fld.mcoCEn c k.val := fun u h => by
    have hon := u.floodBay_flooded c t
    unfold State.fldB State.fld at hon ⊢
    rwa [h] at hon
  obtain ⟨l, r, rfl⟩ := List.append_of_mem hc
  have hl := foldl_vals s l _ fun u b => u.floodBay_vals b t
  rw [State.eachBay, List.foldl_append, List.foldl_cons]
  refine (List.foldlRecOn (motive := fun u : State => u.vals = s.vals ∧ (u.bay c).pwr.Flooded fun k => s.fldB Fld.mcoCEn c k.val) r _
    ⟨(State.floodBay_vals ..).trans hl, hone _ hl⟩ fun u ⟨hu, hon⟩ b _ => ⟨(u.floodBay_vals b t).trans hu, ?_⟩).2
  by_cases hb : c = b
  · subst hb
    exact hone u hu
  · rwa [u.floodBay_bay_pwr_ne t hb]

/-- Powering quads changes no other domain. -/
theorem State.quadOn_quadless (s : State) (b c : BayNo) (q : Fin 6) :
    ((s.quadOn b q).bay c).pwr.quadless = (s.bay c).pwr.quadless := by
  unfold State.quadOn
  refine (foldl_keep (fun u : State => (u.bay c).pwr.quadless) _ (fun u i => ?_) _ _).trans
    (State.bay_modBay_same (·.pwr.quadless) s b c _ fun _ => rfl)
  split
  · dsimp only
    split
    · rw [State.modLane_bay_pwr]
    · rfl
  · rfl

theorem State.powerQuads_quadless (s : State) (b c : BayNo) :
    ((s.powerQuads b).bay c).pwr.quadless = (s.bay c).pwr.quadless :=
  foldl_keep (fun u : State => (u.bay c).pwr.quadless) _ (fun u q => by
    split
    · exact u.quadOn_quadless b c q
    · rfl) _ s

/-- The package is in RUN again, with every live bay flooded (R726). -/
def State.flooded (s : State) : State :=
  (s.eachBay s.liveBays fun u b => u.floodBay b s.now).modPwr fun p => { p with state := .run, phase := .steady }

/-- What follows a flood: channels resume, the flood is told, quads train and units arm (R726, R727). -/
def State.afterFlood (s : State) (t : Stamp) : State :=
  let u := ((s.resumeAll t).event 0 0x1704 []).eachBay (s.resumeAll t).liveBays State.powerQuads
  u.autoArm u.epochLead

theorem exec_floodDone_warm {s : State} (hp : s.pwr.phase = .flooding false) :
    exec .floodDone s = .next (s.flooded.afterFlood s.now) := by
  rw [exec_floodDone]
  simp only [execFloodDone, hp]
  rfl

theorem State.afterFlood_pwr (s : State) (t : Stamp) : (s.afterFlood t).pwr = s.pwr :=
  State.pwr_of_view <| (State.autoArm_view (by decide) ..).trans <|
    (State.eachBay_view _ _ (fun u b => u.powerQuads_view (by decide) b) _ _).trans <|
      (State.event_view ..).trans (s.resumeAll_view (by decide) t)

theorem State.afterFlood_quadless (s : State) (t : Stamp) (c : BayNo) :
    ((s.afterFlood t).bay c).pwr.quadless = (s.bay c).pwr.quadless := by
  have hresume : ((s.resumeAll t).bay c).pwr = (s.bay c).pwr := State.bay_pwr_of_view (s.resumeAll_view (by decide) t) c
  unfold State.afterFlood
  extract_lets u
  have hquads : (u.bay c).pwr.quadless = (((s.resumeAll t).event 0 0x1704 []).bay c).pwr.quadless :=
    State.eachBay_keep (fun v => (v.bay c).pwr.quadless) _ (fun v b => v.powerQuads_quadless b c) _ _
  rw [State.bay_pwr_of_view (u.autoArm_view (by decide) u.epochLead) c, hquads, State.event_bay_pwr, hresume]

theorem floodDone_run : Claims.WakesAndFloods.floodDone_run := by
  intro s hp
  refine ⟨_, exec_floodDone_warm hp, ?_, ?_, fun b hb => ?_⟩
  · rw [State.afterFlood_pwr]
    rfl
  · rw [State.afterFlood_pwr]
    rfl
  · exact (s.floodBays_flooded s.now hb).of_quadless (State.afterFlood_quadless ..)

end Sys2Proof.Machine

namespace Sys2Proof
open Sys2Proof.Machine

/-- Settles O59: a wake that counts is one update of the power manager, and what follows a flood leaves its domains but for quads. -/
theorem wakesAndFloods : Obligations.WakesAndFloods :=
  ⟨wakeInRise_floods, wakeComparator_floods, rtcWake_floods, pwrReqWake_cancels, pwrReqWake_surplus, watchBlockDone_below,
    watchBlockDone_wakes, watchPeakRead_done, floodSupervisorDone_done, floodDone_run⟩

end Sys2Proof
end

section
/-! Words in core memory and the lines of a core: what a read returns after a write, and what a raised line leaves of the memory. -/
namespace Sys2Proof.Machine

theorem State.core_modCore (s : State) (b : BayNo) (c : CoreNo) (f : Core → Core) : (s.modCore b c f).core b c = f (s.core b c) := by
  simp [State.core]

/-- The bytes of a number, least first, add up to it. -/
theorem foldl_bytes_toNat (v n : Nat) :
    (List.range n).foldl (fun u i => u + (BitVec.ofNat 8 (v / 256 ^ i)).toNat * 256 ^ i) 0 = v % 256 ^ n := by
  induction n with
  | zero => simp [Nat.mod_one]
  | succ n ih =>
    rw [List.range_succ, List.foldl_append, ih, Nat.mod_pow_succ]
    simp [Nat.mul_comm]

/-- A byte of a run written from `a` upwards, which does not reach round the memory. -/
theorem get_foldl_poke (m : Sparse (BitVec 8)) (f : Nat → BitVec 8) (a : Nat) {n i : Nat} (hn : n ≤ 131072) (hi : i < n) :
    Sparse.get 0#8 ((List.range n).foldl (fun m i => Sparse.set 0#8 m ((a + i) % 131072) (f i)) m) ((a + i) % 131072) = f i := by
  induction n with
  | zero => omega
  | succ n ih =>
    rw [List.range_succ, List.foldl_append, List.foldl_cons, List.foldl_nil, Sparse.get_set]
    by_cases h : i = n
    · rw [h, if_pos rfl]
    · rw [if_neg (by omega), ih (by omega) (by omega)]

theorem foldl_congr_of_mem {α β : Type} {f g : β → α → β} {l : List α} (h : ∀ u, ∀ a ∈ l, f u a = g u a) :
    ∀ u, l.foldl f u = l.foldl g u := by
  induction l with
  | nil => exact fun _ => rfl
  | cons a r ih =>
    intro u
    rw [List.foldl_cons, List.foldl_cons, h u a List.mem_cons_self]
    exact ih (fun u c hc => h u c (List.mem_cons_of_mem a hc)) _

/-- What is read where a value was written is its low bytes. -/
theorem Core.peek_poke (k : Core) (a v : Nat) {n : Nat} (hn : n ≤ 131072) : (k.poke a n v).peek a n = v % 256 ^ n := by
  rw [← foldl_bytes_toNat v n]
  refine foldl_congr_of_mem (fun u i hi => ?_) 0
  rw [Core.poke, get_foldl_poke k.mem _ a hn (List.mem_range.mp hi)]

theorem Core.peekWord_pokeWords_one (k : Core) (a : Nat) (v : Word) : (k.pokeWords a [v]).peekWord a = v := by
  have h : (k.pokeWords a [v]).peek a 4 = v.toNat % 256 ^ 4 := k.peek_poke a v.toNat (by decide)
  rw [Core.peekWord, h]
  exact BitVec.eq_of_toNat_eq (by simp [wd]; omega)

theorem Core.peekWord_congr {k l : Core} (h : k.mem = l.mem) (a : Nat) : k.peekWord a = l.peekWord a := by
  simp only [Core.peekWord, Core.peek, h]

/-- A line that a sealed core may have is pending once it is raised, and the memory is as before (R412, R424). -/
theorem State.raiseLine_core (s : State) (b : BayNo) (c : CoreNo) {line : Nat} (h : ¬(line = 3 ∨ line = 4 ∨ line ≥ 6)) :
    ((s.raiseLine b c line).core b c).mem = (s.core b c).mem ∧
      ((s.raiseLine b c line).core b c).ipend = (s.core b c).ipend ||| BitVec.ofNat 10 (2 ^ line) := by
  rw [State.raiseLine, if_neg (by simp [h]), State.core_modCore]
  extract_lets k
  split <;> exact ⟨rfl, rfl⟩

theorem State.raiseLine_bay_xfm (s : State) (b : BayNo) (c : CoreNo) (line : Nat) (d : BayNo) :
    ((s.raiseLine b c line).bay d).xfm = (s.bay d).xfm := by
  unfold State.raiseLine
  split
  · rfl
  · exact State.modCore_bay_xfm ..

theorem State.modTap_core (s : State) (b : BayNo) (c : CoreNo) (f : Tap → Tap) (d : BayNo) (e : CoreNo) :
    (s.modTap b c f).core d e = s.core d e := by
  rw [State.core, State.modTap_bay_mco, State.core]

end Sys2Proof.Machine
end

section
/-! The clauses of FramesAndTraces: frames and their spectra, traces and taps. -/
namespace Sys2Proof.Machine

theorem exec_spectrumReady (b : BayNo) (x : Fin 2) (ins : List (List Sample)) (s : State) :
    exec (.spectrumReady b x ins) s = execSpectrumReady b x ins s := (rfl)
theorem exec_traceIntervalEnd (b : BayNo) (n : Fin 16) (s : State) : exec (.traceIntervalEnd b n) s = execTraceIntervalEnd b n s := (rfl)
theorem exec_tapSlotWritten (b : BayNo) (c : CoreNo) (s : State) : exec (.tapSlotWritten b c) s = execTapSlotWritten b c s := (rfl)

/-! ### What time passing leaves of the transform engine -/

/-- Where the engine's view stands, only the marks that a drop has been told may differ. -/
theorem State.bay_xfm_unmarked_of_view {s t : State} (h : t.view { xfm := true } = s.view { xfm := true }) (c : BayNo) :
    (t.bay c).xfm.unmarked = (s.bay c).xfm.unmarked := by
  have hb := congrArg (State.bay · c) h
  simp only [State.view_bay] at hb
  exact (congrArg Bay.xfm hb :)

theorem State.atFrame_chans (s : State) (b : BayNo) (g : GridRun) (c : BayNo) : ((s.atFrame b g).bay c).xfm.chans = (s.bay c).xfm.chans :=
  (congrArg Xfm.chans (State.bay_xfm_unmarked_of_view (s.atFrame_view (by decide) b g) c) :)

theorem State.reach_traces (s : State) (t : Stamp) (c : BayNo) : ((s.reach t).bay c).xfm.traces = (s.bay c).xfm.traces :=
  (congrArg Xfm.traces (State.bay_xfm_unmarked_of_view (s.reach_view (by decide) t) c) :)

/-! ### Handing a spectrum on -/

/-- A channel without the SEQ numbers of the spectra in its history. -/
def XfmChan.unsent (c : XfmChan) : XfmChan := { c with history := c.history.map fun e => (e.1, none) }

theorem XfmChan.unsent_spectra (c : XfmChan) : c.unsent.history.map (·.1) = c.history.map (·.1) := by
  simp [XfmChan.unsent]

theorem XfmChan.unsent_of_history {c : XfmChan} {l : List (Spec × Option Word)} (h : l.map (·.1) = c.history.map (·.1)) :
    ({ c with history := l } : XfmChan).unsent = c.unsent := by
  have e : l.map (fun e => (e.1, (none : Option Word))) = c.history.map fun e => (e.1, none) := by
    have := congrArg (List.map fun sp : Spec => (sp, (none : Option Word))) h
    simpa only [List.map_map, Function.comp_def] using this
  simp only [XfmChan.unsent, e]

theorem State.emitSpec_bay_xfm (s : State) (b : BayNo) (x : Fin 2) (sp : Spec) (c : BayNo) : ((s.emitSpec b x sp).2.bay c).xfm = (s.bay c).xfm := by
  unfold State.emitSpec
  exact foldl_bay_xfm _ _ _ c fun _ _ => State.enqueue_bay_xfm ..

/-- One spectrum of the history, emitted if a trigger of channel `k` has selected it and it has not left yet (R320). -/
def State.emitIfPicked (b : BayNo) (x : Fin 2) (k : XfmChan) (acc : List (Spec × Option Word) × State) (e : Spec × Option Word) :
    List (Spec × Option Word) × State :=
  if e.2.isNone && k.picksIt e.1.serial then ((e.1, some (acc.2.emitSpec b x e.1).1) :: acc.1, (acc.2.emitSpec b x e.1).2)
  else (e :: acc.1, acc.2)

/-- The history of channel `x` with the selected spectra emitted, and the state that has emitted them. -/
def State.pickedHistory (s : State) (b : BayNo) (x : Fin 2) : List (Spec × Option Word) × State :=
  (s.bay b).xfm.chans[x].history.reverse.foldl (State.emitIfPicked b x (s.bay b).xfm.chans[x]) ([], s)

theorem State.emitPicked_of_selecting {s : State} {b : BayNo} {x : Fin 2} (h : s.fldN Fld.xfmChSpecMode b x.val = 2) :
    s.emitPicked b x = (s.pickedHistory b x).2.modChan b x fun c => { c with history := (s.pickedHistory b x).1 } := by
  rw [State.emitPicked, if_neg (by simp [h])]
  rfl

theorem State.emitIfPicked_spectra (b : BayNo) (x : Fin 2) (k : XfmChan) (acc : List (Spec × Option Word) × State) (e : Spec × Option Word) :
    (State.emitIfPicked b x k acc e).1.map (·.1) = e.1 :: acc.1.map (·.1) := by
  unfold State.emitIfPicked
  split <;> rfl

theorem State.emitIfPicked_bay_xfm (b : BayNo) (x : Fin 2) (k : XfmChan) (acc : List (Spec × Option Word) × State) (e : Spec × Option Word)
    (c : BayNo) : ((State.emitIfPicked b x k acc e).2.bay c).xfm = (acc.2.bay c).xfm := by
  unfold State.emitIfPicked
  split
  · exact State.emitSpec_bay_xfm ..
  · rfl

theorem foldl_emitIfPicked (b : BayNo) (x : Fin 2) (k : XfmChan) (c : BayNo) (l : List (Spec × Option Word)) :
    ∀ acc : List (Spec × Option Word) × State,
      (l.foldl (State.emitIfPicked b x k) acc).1.map (·.1) = l.reverse.map (·.1) ++ acc.1.map (·.1) ∧
        ((l.foldl (State.emitIfPicked b x k) acc).2.bay c).xfm = (acc.2.bay c).xfm := by
  induction l with
  | nil => intro acc; exact ⟨rfl, rfl⟩
  | cons e r ih =>
    intro acc
    obtain ⟨hspectra, hxfm⟩ := ih (State.emitIfPicked b x k acc e)
    rw [List.foldl_cons]
    exact ⟨by rw [hspectra, State.emitIfPicked_spectra]; simp, by rw [hxfm, State.emitIfPicked_bay_xfm]⟩

/-- Emitting what triggers have selected changes neither the spectra of the history nor the transform engine. -/
theorem State.pickedHistory_keeps (s : State) (b : BayNo) (x : Fin 2) :
    (s.pickedHistory b x).1.map (·.1) = (s.bay b).xfm.chans[x].history.map (·.1) ∧
      ((s.pickedHistory b x).2.bay b).xfm = (s.bay b).xfm := by
  obtain ⟨hspectra, hxfm⟩ := foldl_emitIfPicked b x (s.bay b).xfm.chans[x] b (s.bay b).xfm.chans[x].history.reverse ([], s)
  rw [List.reverse_reverse, List.map_nil, List.append_nil] at hspectra
  exact ⟨hspectra, hxfm⟩

theorem State.emitPicked_unsent (s : State) (b : BayNo) (x : Fin 2) :
    ((s.emitPicked b x).bay b).xfm.chans[x].unsent = (s.bay b).xfm.chans[x].unsent := by
  by_cases h : s.fldN Fld.xfmChSpecMode b x.val = 2
  · obtain ⟨hspectra, hxfm⟩ := s.pickedHistory_keeps b x
    have hchan : ((s.emitPicked b x).bay b).xfm.chans[x] = { (s.bay b).xfm.chans[x] with history := (s.pickedHistory b x).1 } := by
      rw [State.emitPicked_of_selecting h, State.modChan_bay_xfm_self, hxfm]
      simp
    rw [hchan, XfmChan.unsent_of_history hspectra]
  · rw [State.emitPicked, if_pos h]

theorem State.traceTake_chans (s : State) (b : BayNo) (n : Fin 16) (sp : Spec) (e : Nat) :
    ((s.traceTake b n sp e).bay b).xfm.chans = (s.bay b).xfm.chans := by
  simp [State.traceTake, State.rollTrace]

theorem State.tapDrop_chans (s : State) (b : BayNo) (c : CoreNo) : ((s.tapDrop b c).bay b).xfm.chans = (s.bay b).xfm.chans := by
  unfold State.tapDrop
  extract_lets told s1
  have h : (s1.bay b).xfm.chans = (s.bay b).xfm.chans := by simp [s1]
  split
  · exact h
  · rw [State.event_bay_xfm, h]

theorem State.tapTake_chans (s : State) (b : BayNo) (c : CoreNo) (x : Fin 2) (sp : Spec) :
    ((s.tapTake b c x sp).bay b).xfm.chans = (s.bay b).xfm.chans := by
  unfold State.tapTake
  extract_lets k base slots wr rd
  split
  · rfl
  · split
    · exact s.tapDrop_chans b c
    · simp

theorem State.tapTakes_chans (s : State) (b : BayNo) (cs : List CoreNo) (x : Fin 2) (sp : Spec) :
    ((cs.foldl (fun u c => u.tapTake b c x sp) s).bay b).xfm.chans = (s.bay b).xfm.chans :=
  foldl_keep (fun u : State => (u.bay b).xfm.chans) _ (fun u c => u.tapTake_chans b c x sp) cs s

/-- Handing a spectrum on changes of its channel only which spectra have left as records. -/
theorem State.distribute_unsent (s : State) (b : BayNo) (x : Fin 2) (sp : Spec) :
    ((s.distribute b x sp).bay b).xfm.chans[x].unsent = (s.bay b).xfm.chans[x].unsent := by
  unfold State.distribute
  extract_lets e s1 s2 s3
  have h1 : (s1.bay b).xfm.chans = (s.bay b).xfm.chans :=
    foldl_keep (fun u : State => (u.bay b).xfm.chans) _ (fun u n => by
      split
      · exact u.traceTake_chans b n sp e
      · rfl) _ s
  have h2 : (s2.bay b).xfm.chans = (s1.bay b).xfm.chans := congrArg Xfm.chans (State.modDen_bay_xfm ..)
  have h3 : (s3.bay b).xfm.chans = (s2.bay b).xfm.chans := by
    rw [State.tapTakes_chans]
  clear_value s3
  have h : (s3.bay b).xfm.chans[x].unsent = (s.bay b).xfm.chans[x].unsent := by rw [h3.trans (h2.trans h1)]
  refine Eq.trans ?_ h
  split
  · split
    · exact congrArg (fun y : Xfm => y.chans[x].unsent) (s3.emitSpec_bay_xfm b x sp b)
    · rfl
  · exact s3.emitPicked_unsent b x
  · rfl

/-! ### SPECTRUM_READY -/

/-- The channel once spectrum `sp` of run `g` is ready, its epoch beginning at `t`, with the runs `r` to follow (R243, R247). -/
def XfmChan.ready (c : XfmChan) (g : GridRun) (r : List GridRun) (sp : Spec) (t : Stamp) : XfmChan :=
  { c with
    grids := { g with frame := g.frame + 1, first := false } :: r
    specCount := c.specCount + 1
    settlingCount := if sp.settling then c.settlingCount + 1 else c.settlingCount
    truncatedCount := if sp.truncated then c.truncatedCount + 1 else c.truncatedCount
    index := sp.index + 1
    indexEpoch := t
    serial := c.serial + 1
    history := ((sp, none) :: c.history).take 33
    picks := c.picks.filter fun p => decide (c.serial ≤ p.last + 33) }

/-- The next frame of run `g` is taken: its channel counts the spectrum, which is handed on (R247). -/
def State.takeFrame (s : State) (b : BayNo) (x : Fin 2) (g : GridRun) (r : List GridRun) (ins : List (List Sample)) : State :=
  let sp := s.frameSpec b x g ins
  (s.modChan b x fun c => c.ready g r sp (s.indexStart b x sp.centre)).distribute b x sp

theorem exec_spectrumReady_frame {s : State} {b : BayNo} {x : Fin 2} {ins : List (List Sample)} {g : GridRun} {r : List GridRun}
    (hb : s.alive b = true) (hp : (s.bay b).pwr.datapath = true) (hg : (s.bay b).xfm.chans[x].grids.dropWhile GridRun.spent = g :: r)
    (hi : s.framesFit b g ins = true) : exec (.spectrumReady b x ins) s = .next ((s.atFrame b g).takeFrame b x g r ins) := by
  rw [exec_spectrumReady, execSpectrumReady, hg]
  simp only [hb, hp, hi, Bool.not_true, Bool.or_self, Bool.false_eq_true, if_false]
  rfl

theorem State.takeFrame_unsent (s : State) (b : BayNo) (x : Fin 2) (g : GridRun) (r : List GridRun) (ins : List (List Sample)) :
    ∃ e, ((s.takeFrame b x g r ins).bay b).xfm.chans[x].unsent =
      ((s.bay b).xfm.chans[x].ready g r (s.frameSpec b x g ins) e).unsent := by
  refine ⟨s.indexStart b x (s.frameSpec b x g ins).centre, ?_⟩
  rw [State.takeFrame, State.distribute_unsent, State.modChan_bay_xfm_self]
  simp

theorem spectrumReady_done : Claims.FramesAndTraces.spectrumReady_done := by
  intro s b x ins g r hb hp hg hi
  refine ⟨_, exec_spectrumReady_frame hb hp hg hi, ?_⟩
  obtain ⟨e, h⟩ := (s.atFrame b g).takeFrame_unsent b x g r ins
  rw [State.atFrame_chans] at h
  generalize (s.atFrame b g).takeFrame b x g r ins = t at h ⊢
  generalize (s.atFrame b g).frameSpec b x g ins = sp at h ⊢
  have hspectra : (t.bay b).xfm.chans[x].history.map (·.1) = ((s.bay b).xfm.chans[x].ready g r sp e).history.map (·.1) := by
    rw [← XfmChan.unsent_spectra, h, XfmChan.unsent_spectra]
  refine ⟨(congrArg XfmChan.grids h :), (congrArg XfmChan.specCount h :), (congrArg XfmChan.serial h :),
    (congrArg XfmChan.settlingCount h).trans ?_, (congrArg XfmChan.truncatedCount h).trans ?_, ?_⟩
  · cases hm : sp.settling <;> simp [XfmChan.unsent, XfmChan.ready, hm]
  · cases hm : sp.truncated <;> simp [XfmChan.unsent, XfmChan.ready, hm]
  · rw [hspectra, XfmChan.ready, List.map_take, List.map_cons]

/-! ### A frame and its bins -/

theorem frameSpec_stamps : Claims.FramesAndTraces.frameSpec_stamps := fun _ _ _ _ _ => ⟨rfl, rfl, rfl⟩

/-- The frame is TRUNCATED after a gap, and where a gap takes away samples of it (R243). -/
theorem State.frameSpec_truncated (s : State) (b : BayNo) (x : Fin 2) (g : GridRun) (ins : List (List Sample)) :
    (s.frameSpec b x g ins).truncated = (g.first || g.cut.any fun c => decide (c < g.frame * 2 ^ (g.n - g.m) + 2 ^ g.n)) := by
  simp only [State.frameSpec]
  cases g.cut <;> rfl

theorem frameSpec_marks : Claims.FramesAndTraces.frameSpec_marks := by
  intro s b x g ins
  rw [State.frameSpec_truncated]
  refine ⟨rfl, fun h => by simp [h], fun c hc hlt => by simp [hc, hlt], fun hf hc => by simp [hf, hc]⟩

theorem Spec.bin_of_outside {sp : Spec} {i : Int} (h : ¬(0 ≤ i + 2 ^ sp.n / 2 ∧ i + 2 ^ sp.n / 2 < 2 ^ sp.n)) : sp.bin i = -32768 := by
  simp only [Spec.bin]
  exact if_neg h

theorem emitSpec_code : Claims.FramesAndTraces.emitSpec_code := by
  intro sp i h
  rw [Spec.bin_of_outside (by omega)]
  rfl

/-! ### The peaks of a point -/

/-- The peaks of `p` lie within those of `q`. -/
def PointAcc.Within (p q : PointAcc) : Prop := p.high ≤ q.high ∧ q.low ≤ p.low

theorem PointAcc.Within.refl (p : PointAcc) : p.Within p := ⟨Int.le_refl _, Int.le_refl _⟩

theorem PointAcc.Within.trans {p q r : PointAcc} (h : p.Within q) (h' : q.Within r) : p.Within r :=
  ⟨Int.le_trans h.1 h'.1, Int.le_trans h'.2 h.2⟩

/-- Add the bin that lies `j` after bin `lo` of a run to a reduction, if it lies in the transform. -/
def PointAcc.addBin (sp : Spec) (enbw lo : Nat) (first : Int) (a : PointAcc) (j : Nat) : PointAcc :=
  let i := first + (lo + j : Nat)
  let k := i + 2 ^ sp.n / 2
  if 0 ≤ k ∧ k < 2 ^ sp.n then
    let p := sp.data.powers.getD k.toNat 0
    let l := sp.data.log k.toNat
    { a with high := max a.high l, low := min a.low l, power := a.power + p, perEnbw := a.perEnbw + p * 65536 / max 1 enbw
             logs := a.logs + l, bins := a.bins + 1 }
  else a

/-- Reducing a point's bins adds one after the other. -/
theorem PointAcc.add_peaks (a : PointAcc) (sp : Spec) (e lo hi : Nat) (f : Int) :
    (a.add sp e lo hi f).high = ((List.range (hi - lo + 1)).foldl (PointAcc.addBin sp e lo f) a).high ∧
      (a.add sp e lo hi f).low = ((List.range (hi - lo + 1)).foldl (PointAcc.addBin sp e lo f) a).low :=
  ⟨rfl, rfl⟩

theorem PointAcc.within_addBin (sp : Spec) (e lo : Nat) (f : Int) (a : PointAcc) (j : Nat) : a.Within (a.addBin sp e lo f j) := by
  unfold PointAcc.addBin
  extract_lets i k p l
  split
  · exact ⟨Int.le_max_left .., Int.min_le_left ..⟩
  · exact .refl a

theorem PointAcc.addBin_bounds (sp : Spec) (e lo : Nat) (f : Int) (a : PointAcc) {j : Nat}
    (h : 0 ≤ f + (lo + j : Nat) + 2 ^ sp.n / 2 ∧ f + (lo + j : Nat) + 2 ^ sp.n / 2 < 2 ^ sp.n) :
    sp.bin (f + (lo + j : Nat)) ≤ (a.addBin sp e lo f j).high ∧ (a.addBin sp e lo f j).low ≤ sp.bin (f + (lo + j : Nat)) := by
  simp only [PointAcc.addBin, Spec.bin, if_pos h]
  exact ⟨Int.le_max_right .., Int.min_le_right ..⟩

theorem PointAcc.within_foldl_addBin (sp : Spec) (e lo : Nat) (f : Int) (l : List Nat) :
    ∀ a : PointAcc, a.Within (l.foldl (PointAcc.addBin sp e lo f) a) := by
  induction l with
  | nil => exact .refl
  | cons j r ih => exact fun a => (within_addBin sp e lo f a j).trans (ih _)

theorem PointAcc.foldl_addBin_bounds (sp : Spec) (e lo : Nat) (f : Int) {j : Nat} {l : List Nat} (hj : j ∈ l)
    (h : 0 ≤ f + (lo + j : Nat) + 2 ^ sp.n / 2 ∧ f + (lo + j : Nat) + 2 ^ sp.n / 2 < 2 ^ sp.n) (a : PointAcc) :
    sp.bin (f + (lo + j : Nat)) ≤ (l.foldl (PointAcc.addBin sp e lo f) a).high ∧
      (l.foldl (PointAcc.addBin sp e lo f) a).low ≤ sp.bin (f + (lo + j : Nat)) := by
  obtain ⟨before, after, rfl⟩ := List.append_of_mem hj
  rw [List.foldl_append, List.foldl_cons]
  obtain ⟨hhigh, hlow⟩ := addBin_bounds sp e lo f (before.foldl (addBin sp e lo f) a) h
  obtain ⟨hup, hdown⟩ := within_foldl_addBin sp e lo f after ((before.foldl (addBin sp e lo f) a).addBin sp e lo f j)
  exact ⟨Int.le_trans hhigh hup, Int.le_trans hdown hlow⟩

theorem pointAcc_peaks : Claims.FramesAndTraces.pointAcc_peaks := by
  intro a sp e lo hi f
  obtain ⟨hhigh, hlow⟩ := a.add_peaks sp e lo hi f
  rw [hhigh, hlow]
  obtain ⟨hup, hdown⟩ := PointAcc.within_foldl_addBin sp e lo f (List.range (hi - lo + 1)) a
  exact ⟨hup, hdown, fun j hj h => PointAcc.foldl_addBin_bounds sp e lo f (List.mem_range.mpr (by omega)) h a⟩

/-! ### Traces -/

/-- A trace once the record of interval `v` has been formed (R268, R271). -/
def Trace.formed (y : Trace) (v : TraceIval) : Trace :=
  { y with
    count := y.count + 1, empty := decide (v.included = 0), emptyTold := y.emptyTold || decide (v.included = 0)
    shown := some (if v.included = 0 then [] else v.acc.map fun a => a.value v.detector v.included) }

theorem State.eventIf_bay_xfm (s : State) (p : Prop) [Decidable p] (b : BayNo) (code : Nat) (w : List Word) (c : BayNo) :
    ((if p then s.event b code w else s).bay c).xfm = (s.bay c).xfm := by
  split
  · exact State.event_bay_xfm ..
  · rfl

theorem State.emitTrace_trace (s : State) (b : BayNo) (n : Fin 16) (v : TraceIval) (e : Stamp) :
    ((s.emitTrace b n v e).bay b).xfm.traces[n] = (s.bay b).xfm.traces[n].formed v := by
  unfold State.emitTrace
  split <;> simp [State.eventIf_bay_xfm, State.emptySettings, Trace.formed]

theorem exec_traceIntervalEnd_fixed {s : State} {b : BayNo} {n : Fin 16} {v : TraceIval} {r : List TraceIval} {e : Stamp}
    (hb : s.alive b = true) (hv : (s.bay b).xfm.traces[n].ivals = v :: r) (he : v.stop = some e)
    (ht : s.transforms b ⟨n.val / 8, by omega⟩ = true) (hf : s.framesPending b ⟨n.val / 8, by omega⟩ e = false) :
    exec (.traceIntervalEnd b n) s = .next ((s.modTrace b n fun y => { y with ivals := r }).emitTrace b n v e) := by
  rw [exec_traceIntervalEnd, execTraceIntervalEnd, hv]
  simp [hb, he, ht, hf]

theorem traceIntervalEnd_fixed : Claims.FramesAndTraces.traceIntervalEnd_fixed := by
  intro s b n v r e hb hv he ht hf
  refine ⟨_, exec_traceIntervalEnd_fixed hb hv he ht hf, ?_⟩
  rw [State.emitTrace_trace, State.modTrace_bay_xfm_self]
  simp [Trace.formed]

theorem exec_traceIntervalEnd_rolls {s : State} {b : BayNo} {n : Fin 16} {v : TraceIval} {r : List TraceIval} {e : Stamp}
    (hb : s.alive b = true) (hv : (s.bay b).xfm.traces[n].ivals = v :: r) (hs : v.stop = none) (hi : v.interval ≠ 0)
    (ht : s.transforms b ⟨n.val / 8, by omega⟩ = true) (he : later v.start (durOf v.interval 100000000) = e)
    (hf : s.framesPending b ⟨n.val / 8, by omega⟩ e = false) :
    exec (.traceIntervalEnd b n) s = .next (((s.reach e).modTrace b n fun y =>
      { y with ivals := r ++ [(s.reach e).newIval b n e] }).emitTrace b n v e) := by
  rw [exec_traceIntervalEnd, execTraceIntervalEnd, hv]
  simp [hb, hs, hi, ht, he, hf]

theorem traceIntervalEnd_rolls : Claims.FramesAndTraces.traceIntervalEnd_rolls := by
  intro s b n v r hb hv hs hi ht hf
  refine ⟨_, exec_traceIntervalEnd_rolls hb hv hs hi ht rfl hf, ?_⟩
  rw [State.emitTrace_trace, State.modTrace_bay_xfm_self]
  simp [Trace.formed, State.reach_traces, State.newIval]

theorem traceIval_excluded : Claims.FramesAndTraces.traceIval_excluded := by
  intro v sp e
  refine ⟨fun h => by rw [TraceIval.take, if_pos h], fun h => ?_⟩
  rw [TraceIval.take, if_neg (by rw [h]; exact Bool.false_ne_true)]
  exact ⟨rfl, rfl, rfl⟩

/-! ### TAP_SLOT_WRITTEN -/

/-- Tap `c` has written its slot: WRITE_IDX in core memory advances and the slot is counted (R277). -/
def State.endTapWrite (s : State) (b : BayNo) (c : CoreNo) : State :=
  let base := s.fldN Fld.xfmTapBase b c.val
  (s.modCore b c fun k => k.pokeWords base [k.peekWord base + 1]).modTap b c fun t => { t with writing := false, written := t.written + 1 }

theorem State.endTapWrite_tap (s : State) (b : BayNo) (c : CoreNo) :
    ((s.endTapWrite b c).bay b).xfm.taps[c] =
      { (s.bay b).xfm.taps[c] with writing := false, written := (s.bay b).xfm.taps[c].written + 1 } := by
  rw [State.endTapWrite, State.modTap_bay_xfm_self, State.modCore_bay_xfm]
  simp

theorem State.endTapWrite_writeIdx (s : State) (b : BayNo) (c : CoreNo) :
    ((s.endTapWrite b c).core b c).peekWord (s.fldN Fld.xfmTapBase b c.val) =
      (s.core b c).peekWord (s.fldN Fld.xfmTapBase b c.val) + 1 := by
  rw [State.endTapWrite, State.modTap_core, State.core_modCore, Core.peekWord_pokeWords_one]

theorem exec_tapSlotWritten_writing {s : State} {b : BayNo} {c : CoreNo} (hb : s.alive b = true)
    (hw : (s.bay b).xfm.taps[c].writing = true) :
    exec (.tapSlotWritten b c) s = .next ((s.endTapWrite b c).raiseLine b c 0) := by
  rw [exec_tapSlotWritten, execTapSlotWritten, if_neg (by rw [hb, hw]; decide)]
  rfl

theorem tapSlotWritten_done : Claims.FramesAndTraces.tapSlotWritten_done := by
  intro s b c hb hw _ _
  refine ⟨_, exec_tapSlotWritten_writing hb hw, ?_⟩
  obtain ⟨hmem, hpend⟩ := (s.endTapWrite b c).raiseLine_core b c (line := 0) (by decide)
  rw [State.raiseLine_bay_xfm, State.endTapWrite_tap, Core.peekWord_congr hmem, hpend]
  exact ⟨rfl, rfl, rfl, s.endTapWrite_writeIdx b c, by simp⟩

end Sys2Proof.Machine

namespace Sys2Proof
open Sys2Proof.Machine

/-- Settles O28: a spectrum's distribution leaves its channel but for what has been emitted, a trace's record is one update of the
trace, a point's peaks only widen, and a word of core memory reads as it was written. -/
theorem framesAndTraces : Obligations.FramesAndTraces :=
  ⟨spectrumReady_done, frameSpec_stamps, frameSpec_marks, emitSpec_code, pointAcc_peaks, traceIntervalEnd_fixed, traceIntervalEnd_rolls,
    traceIval_excluded, tapSlotWritten_done⟩

end Sys2Proof
end

section
/-! The clauses of SegmentsAndMasks: segments, re-arming and the mask store. -/
namespace Sys2Proof.Machine

/-! ### The meanings of the commands -/

theorem exec_segmentPostDone (b : BayNo) (u : Fin 8) (xs : List Sample) (s : State) :
    exec (.segmentPostDone b u xs) s = execSegmentPostDone b u xs s := (rfl)
theorem exec_slotFreed (b : BayNo) (u : Fin 8) (s : State) : exec (.slotFreed b u) s = execSlotFreed b u s := (rfl)
theorem exec_unitRearm (b : BayNo) (u : Fin 8) (s : State) : exec (.unitRearm b u) s = execUnitRearm b u s := (rfl)
theorem exec_maskBump (b : BayNo) (m : Fin 8) (g : BitVec 16) (s : State) : exec (.maskBump b m g) s = execMaskBump b m g s := (rfl)
theorem exec_maskCopyDone (b : BayNo) (u : Fin 8) (s : State) : exec (.maskCopyDone b u) s = execMaskCopyDone b u s := (rfl)
theorem exec_maskStoreWrite (b : BayNo) (e : BitVec 17) (v : Word) (s : State) :
    exec (.maskStoreWrite b e v) s = execMaskStoreWrite b e v s := (rfl)

/-! ### A unit after a change -/

/-- A change of unit `u` is read back there, and at no other unit of the bay. -/
theorem State.unit_modUnit (s : State) (b : BayNo) (u v : Fin 8) (f : TrgUnit → TrgUnit) :
    (s.modUnit b u f).unit b v = if v = u then f (s.unit b v) else s.unit b v := by
  rw [State.unit, State.modUnit_bay_trg_self]
  by_cases h : v = u
  · simp [h, State.unit]
  · rw [if_neg h]
    exact Vector.getElem_set_ne u.isLt v.isLt (Fin.val_ne_of_ne (Ne.symm h))

@[simp] theorem State.unit_modUnit_self (s : State) (b : BayNo) (u : Fin 8) (f : TrgUnit → TrgUnit) :
    (s.modUnit b u f).unit b u = f (s.unit b u) := by
  rw [State.unit_modUnit, if_pos rfl]

/-- What a change of a unit keeps reads as before at every unit of the bay. -/
theorem State.unit_modUnit_keep {α : Type} (p : TrgUnit → α) (s : State) (b : BayNo) (u v : Fin 8) {f : TrgUnit → TrgUnit}
    (h : ∀ y, p (f y) = p y) : p ((s.modUnit b u f).unit b v) = p (s.unit b v) := by
  rw [State.unit_modUnit]
  split
  · exact h _
  · rfl

theorem State.unit_congr {s t : State} {b : BayNo} (h : (t.bay b).trg = (s.bay b).trg) (u : Fin 8) : t.unit b u = s.unit b u :=
  congrArg (fun y : TrgBay => y.units[u]) h

@[simp] theorem State.reach_unit (s : State) (t : Stamp) (b : BayNo) (u : Fin 8) : (s.reach t).unit b u = s.unit b u :=
  State.unit_congr (s.reach_bay_trg t b) u

@[simp] theorem State.enqueue_unit (s : State) (c : BayNo) (q : Nat) (r : RecBody) (b : BayNo) (u : Fin 8) :
    (s.enqueue c q r).unit b u = s.unit b u :=
  State.unit_congr (s.enqueue_bay_trg c q r b) u

/-- States that agree in the view of the units have the same triggers in every bay. -/
theorem bay_trg_of_view {s t : State} (h : t.view { units := true } = s.view { units := true }) (c : BayNo) :
    (t.bay c).trg = (s.bay c).trg := by
  have hbay : ((t.view { units := true }).bay c).trg = ((s.view { units := true }).bay c).trg := by rw [h]
  rw [State.view_bay, State.view_bay] at hbay
  exact hbay

/-- States that agree in the view of the settings have the same settings in force. -/
theorem vals_of_view {s t : State} (h : t.view { vals := true } = s.view { vals := true }) : t.vals = s.vals :=
  (congrArg State.vals h : (t.view { vals := true }).vals = (s.view { vals := true }).vals)

@[simp] theorem State.monFeed_unit (s : State) (c : BayNo) (quantity object : Nat) (t : Stamp) (b : BayNo) (u : Fin 8) :
    (s.monFeed c quantity object t).unit b u = s.unit b u :=
  State.unit_congr (bay_trg_of_view (State.monFeed_view rfl s c quantity object t) b) u

@[simp] theorem State.monFeed_vals (s : State) (c : BayNo) (quantity object : Nat) (t : Stamp) :
    (s.monFeed c quantity object t).vals = s.vals :=
  vals_of_view (State.monFeed_view rfl s c quantity object t)

/-! ### SEGMENT_POST_DONE -/

/-- The records of a segment change no unit. -/
theorem State.emitSegment_trg (s : State) (b : BayNo) (u : Fin 8) (g : Segment) (xs : List Sample) (c : BayNo) :
    ((s.emitSegment b u g xs).2.bay c).trg = (s.bay c).trg :=
  foldl_keep (fun x : State => (x.bay c).trg) _ (fun _ _ => State.enqueue_bay_trg ..) _ s

/-- Unit `u` once its segment `g` is complete as `g'`: dead, its next slot filling where one is free (R308, R317). -/
def TrgUnit.segmentDone (y : TrgUnit) (g g' : Segment) (room : Bool) (live : Option Nat) : TrgUnit :=
  { y with
    segments := y.segments.map fun z => if z = g then g' else z
    state := if room then .prefill else .waitSlot
    liveFrom := live }

theorem TrgUnit.segmentDone_dead (y : TrgUnit) (g g' : Segment) (room : Bool) (live : Option Nat) :
    (y.segmentDone g g' room live).dead = true := by
  cases room <;> rfl

/-- What a complete post-trigger part leaves of its unit: the segment done, and a new slot where one is free. -/
theorem exec_segmentPostDone_post {s : State} {b : BayNo} {u : Fin 8} {xs : List Sample} {g : Segment} (hb : s.alive b = true)
    (hp : (s.unit b u).state = .post) (hs : (s.unit b u).segments = [g]) (hd : g.done = false) (hl : g.last = none)
    (hx : xs.length = if g.pre + g.post = 0 then 0 else ((s.bay b).ddc[s.unitPort b u].needs g.first (g.pre + g.post)).2) :
    ∃ t g' live, exec (.segmentPostDone b u xs) s = .next t ∧
      t.unit b u = (s.unit b u).segmentDone g g' (decide (1 < s.fldN Fld.trgUSlots b u.val)) live ∧ g'.done = true := by
  have hfind : (s.unit b u).segments.find? (fun z => !z.done) = some g := by simp [hs, hd]
  have hroom : (s.unit b u).frozen = 1 := by simp [TrgUnit.frozen, hs]
  rw [exec_segmentPostDone, execSegmentPostDone, hfind]
  simp only [hl, State.closeSegment, hb, hp]
  generalize hr : (if g.pre + g.post = 0 then s else s.reach (s.leaves b (s.unitPort b u) (g.first + g.pre + g.post - 1))) = r
  have htrg : (r.bay b).trg = (s.bay b).trg := by rw [← hr]; split <;> simp
  have hddc : (r.bay b).ddc = (s.bay b).ddc := by rw [← hr]; split <;> simp
  have hfld : r.fldN Fld.trgUSlots b u.val = s.fldN Fld.trgUSlots b u.val := by rw [← hr]; split <;> simp
  rw [if_neg (by simp [hddc, hx])]
  refine ⟨_, ?g', ?live, rfl, ?unit, ?done⟩
  case unit =>
    rw [State.unit_modUnit_self, State.unit_congr ((State.emitSegment_trg ..).trans htrg), State.unit_congr htrg, hroom, hfld]
    exact rfl
  case done => exact rfl

theorem segmentPostDone_done : Claims.SegmentsAndMasks.segmentPostDone_done := by
  intro s b u xs g hb hp hs hd hl hx
  obtain ⟨t, g', live, he, hu, hdone⟩ := exec_segmentPostDone_post hb hp hs hd hl hx
  refine ⟨t, he, ?_⟩
  rw [hu]
  refine ⟨?_, ?_, ?_, rfl⟩
  · exact TrgUnit.segmentDone_dead ..
  · simp [TrgUnit.segmentDone]
  · simp [TrgUnit.segmentDone, hs, hdone]

/-! ### SLOT_FREED -/

/-- The oldest slot of unit `u` is free: a unit that waited for it fills a new one (R308). -/
def State.freeSlot (s : State) (b : BayNo) (u : Fin 8) (r : List Segment) : State :=
  s.modUnit b u fun y =>
    { y with
      segments := r
      state := if y.state = .waitSlot then .prefill else y.state
      liveFrom :=
        if y.state = .waitSlot ∧ y.liveFrom.isNone then some ((s.bay b).ddc[s.unitPort b u].numberFrom (s.nowAt b)) else y.liveFrom }

theorem exec_slotFreed_oldest {s : State} {b : BayNo} {u : Fin 8} {g : Segment} {r : List Segment} (hb : s.alive b = true)
    (hs : (s.unit b u).segments = g :: r) (hd : g.done = true) :
    exec (.slotFreed b u) s = .next ((s.freeSlot b u r).enqueue b ((s.freeSlot b u r).fldN Fld.trgUQueue b u.val)
      ((s.freeSlot b u r).trigBody b u g.info (some g))) := by
  rw [exec_slotFreed, execSlotFreed, hs]
  exact if_neg (by simp [hb, hd])

theorem slotFreed_done : Claims.SegmentsAndMasks.slotFreed_done := by
  intro s b u g r hb hs hd
  refine ⟨_, exec_slotFreed_oldest hb hs hd, ?_⟩
  rw [State.enqueue_unit, State.freeSlot, State.unit_modUnit_self]
  exact ⟨rfl, rfl⟩

/-! ### UNIT_REARM -/

/-- When a dead unit re-arms: the latest of the end of its segment, the end of its holdoff and the start of its live slot (R308). -/
def State.rearmAt (s : State) (b : BayNo) (u : Fin 8) : Stamp :=
  let full := s.rearmStamp b u
  let held := if stampLe full (s.unit b u).holdoffTo then (s.unit b u).holdoffTo else full
  match (s.unit b u).liveFrom with
  | none => held
  | some n =>
    let a := (s.bay b).ddc[s.unitPort b u].stampOf n
    if stampLe a held then held else a

/-- Without a live slot, a holdoff that outlasts the segment is when the unit re-arms. -/
theorem State.rearmAt_holdoff {s : State} {b : BayNo} {u : Fin 8} (hl : (s.unit b u).liveFrom = none)
    (hh : stampLe (s.rearmStamp b u) (s.unit b u).holdoffTo = true) : s.rearmAt b u = (s.unit b u).holdoffTo := by
  rw [State.rearmAt, hl]
  exact if_pos hh

/-- A unit that re-arms at `t`, its dead time told (R308, R309). -/
def TrgUnit.rearmed (y : TrgUnit) (t : Stamp) : TrgUnit :=
  { y with
    deadUnits := (t - y.lastInstant).toNat, deadLast := wd (min (toNs (t - y.lastInstant).toNat) 0xFFFFFFFF)
    state := if y.inCycle then .armed else .idle }

/-- A unit without a count never starts a cycle itself (R306). -/
theorem State.renewCycle_of_count_zero {s : State} {b : BayNo} {u : Fin 8} (t : Stamp) (h : s.fldN Fld.trgUCount b u.val = 0) :
    s.renewCycle b u t = s := by
  simp [State.renewCycle, h]

/-- A dead unit with a free slot and no count re-arms. -/
theorem exec_unitRearm_ready {s : State} {b : BayNo} {u : Fin 8} (hb : s.alive b = true) (hp : (s.unit b u).state = .prefill)
    (hf : s.slotFree b u = true) (hc : s.fldN Fld.trgUCount b u.val = 0) :
    ∃ t, exec (.unitRearm b u) s = .next t ∧ t.unit b u = (s.unit b u).rearmed (s.rearmAt b u) := by
  have he := (exec_unitRearm b u s).trans (if_neg (by simp [hb, hp, hf]))
  refine ⟨_, he, ?_⟩
  rw [State.renewCycle_of_count_zero _ (by simpa [State.fldN, State.fld] using hc), State.monFeed_unit, State.unit_modUnit_self,
    State.reach_unit]
  rfl

theorem unitRearm_done : Claims.SegmentsAndMasks.unitRearm_done := by
  intro s b u hb hp hf hc
  obtain ⟨t, he, hu⟩ := exec_unitRearm_ready hb hp hf hc
  exact ⟨t, he, by rw [hu]; exact ⟨rfl, rfl, rfl⟩⟩

theorem unitRearm_holdoff : Claims.SegmentsAndMasks.unitRearm_holdoff := by
  intro s b u hb hp hf hc hl hh
  obtain ⟨t, he, hu⟩ := exec_unitRearm_ready hb hp hf hc
  exact ⟨t, he, by rw [hu, State.rearmAt_holdoff hl hh]; rfl⟩

/-! ### MASK_BUMP and MASK_COPY_DONE -/

/-- A change that is the same done twice, made at several units, is made at each of them. -/
theorem State.unit_modUnits (b : BayNo) (u : Fin 8) {f : TrgUnit → TrgUnit} (hf : ∀ y, f (f y) = f y) (us : List (Fin 8)) :
    ∀ s : State, (us.foldl (fun s v => s.modUnit b v f) s).unit b u = if u ∈ us then f (s.unit b u) else s.unit b u := by
  induction us with
  | nil => exact fun s => rfl
  | cons v r ih =>
    intro s
    rw [List.foldl_cons, ih, State.unit_modUnit]
    by_cases hv : u = v <;> by_cases hr : u ∈ r <;> simp [hv, hr, hf]

/-- Changes of units leave the masks of the bay and their store. -/
theorem State.modUnits_masks (b : BayNo) (f : TrgUnit → TrgUnit) (us : List (Fin 8)) (s : State) :
    ((us.foldl (fun s v => s.modUnit b v f) s).bay b).trg.masks = (s.bay b).trg.masks :=
  foldl_keep (fun x : State => (x.bay b).trg.masks) _ (fun _ _ => by rw [State.modUnit_bay_trg_self]) us s

theorem State.modUnits_store (b : BayNo) (f : TrgUnit → TrgUnit) (us : List (Fin 8)) (s : State) :
    ((us.foldl (fun s v => s.modUnit b v f) s).bay b).trg.store = (s.bay b).trg.store :=
  foldl_keep (fun x : State => (x.bay b).trg.store) _ (fun _ _ => by rw [State.modUnit_bay_trg_self]) us s

/-- Which units use a mask depends on the bay being alive and on the settings. -/
theorem State.maskUsers_congr {s t : State} {b : BayNo} (ha : t.alive b = s.alive b) (hv : t.vals = s.vals) (m : Nat) :
    t.maskUsers b m = s.maskUsers b m := by
  simp only [State.maskUsers, State.unitOn, State.fldB, State.fldN, State.fld, ha, hv]
  rfl

/-- Mask `m` is put. -/
def State.putMask (s : State) (b : BayNo) (m : Fin 8) (g : MaskGen) : State :=
  s.modBay b fun x => { x with trg := { x.trg with masks := x.trg.masks.set m g } }

theorem State.putMask_trg (s : State) (b : BayNo) (m : Fin 8) (g : MaskGen) :
    ((s.putMask b m g).bay b).trg = { (s.bay b).trg with masks := (s.bay b).trg.masks.set m g } := by
  rw [State.putMask, State.bay_modBay]

theorem State.putMask_unit (s : State) (b : BayNo) (m : Fin 8) (g : MaskGen) (u : Fin 8) :
    (s.putMask b m g).unit b u = s.unit b u := by
  rw [State.unit, State.putMask_trg, State.unit]

theorem State.putMask_maskUsers (s : State) (b : BayNo) (m : Fin 8) (g : MaskGen) (n : Nat) :
    (s.putMask b m g).maskUsers b n = s.maskUsers b n := by
  have hlost : ((s.putMask b m g).bay b).lost = (s.bay b).lost := by rw [State.putMask, State.bay_modBay]
  exact State.maskUsers_congr (State.alive_congr (s := s) (t := s.putMask b m g) b rfl rfl hlost) rfl n

theorem State.putMask_maskEntries (s : State) (b : BayNo) (m : Fin 8) (g : MaskGen) (n : Nat) :
    (s.putMask b m g).maskEntries b n = s.maskEntries b n := by
  rw [State.maskEntries, State.putMask_trg]
  rfl

/-- A unit begins to load its spare copy (R323). -/
def TrgUnit.beginCopy (y : TrgUnit) (c : MaskCopy) : TrgUnit := { y with spare := some c, spareReady := false }

/-- Mask `m` takes generation `g`, and its users begin to copy it (R323, R335). -/
def State.bumpMask (s : State) (b : BayNo) (m : Fin 8) (g : BitVec 16) : State :=
  (s.maskUsers b m.val).foldl
    (fun x u => x.modUnit b u fun y => y.beginCopy { entries := s.maskEntries b m.val, gen := g, dirty := false })
    (s.putMask b m { gen := g, dirty := false })

theorem exec_maskBump_differs {s : State} {b : BayNo} {m : Fin 8} {g : BitVec 16} (hb : s.queueAwake b = true)
    (hg : (s.bay b).trg.masks[m].gen ≠ g) : exec (.maskBump b m g) s = .next (s.bumpMask b m g) := by
  rw [State.bumpMask, ← s.putMask_maskUsers b m { gen := g, dirty := false }, ← s.putMask_maskEntries b m { gen := g, dirty := false }]
  exact (exec_maskBump b m g s).trans (if_neg (by simpa [hb] using hg))

theorem maskBump_done : Claims.SegmentsAndMasks.maskBump_done := by
  intro s b m g hb hg
  refine ⟨_, exec_maskBump_differs hb hg, ?_, ?_, fun u => ?_⟩
  · rw [State.bumpMask, State.modUnits_masks, State.putMask_trg]
    simp
  · rw [State.bumpMask, State.modUnits_store, State.putMask_trg]
  · rw [State.bumpMask, State.unit_modUnits b u (f := fun y => y.beginCopy _) (fun _ => rfl), State.putMask_unit]
    by_cases hu : u ∈ s.maskUsers b m.val
    · rw [if_pos hu]
      exact ⟨rfl, fun _ => ⟨rfl, rfl⟩⟩
    · rw [if_neg hu]
      exact ⟨rfl, fun h => absurd h hu⟩

theorem maskBump_same : Claims.SegmentsAndMasks.maskBump_same := fun s b m =>
  ⟨s, (exec_maskBump b m _ s).trans (if_pos (by simp)), rfl⟩

theorem maskCopyDone_done : Claims.SegmentsAndMasks.maskCopyDone_done := fun s b u c hb hc =>
  ⟨_, (exec_maskCopyDone b u s).trans (if_neg (by simp [hb, hc])), rfl⟩

/-! ### MASK_STORE_WRITE -/

/-- A write of entry `off` of a mask reaches the copy that its user is loading (R324). -/
def TrgUnit.loadEntry (y : TrgUnit) (off : Nat) (v : Word) : TrgUnit :=
  if y.spareReady then y else { y with spare := y.spare.map fun c => { c with entries := c.entries.set off v, dirty := true } }

theorem TrgUnit.loadEntry_copy (y : TrgUnit) (off : Nat) (v : Word) : (y.loadEntry off v).copy = y.copy := by
  unfold TrgUnit.loadEntry
  split <;> rfl

/-- Mask `m` learns of a write of entry `e`: where its extent holds the entry, it is dirty, and so are the copies being loaded (R324). -/
def State.dirtyMask (s : State) (b : BayNo) (e : Nat) (v : Word) (m : Fin 8) : State :=
  if s.inMaskExtent b m.val e then
    let s1 := s.putMask b m { (s.bay b).trg.masks[m] with dirty := true }
    (s1.maskUsers b m.val).foldl (fun x u => x.modUnit b u fun y => y.loadEntry (e - s1.fldN Fld.trgMaskBase b m.val) v) s1
  else s

theorem State.dirtyMask_store (s : State) (b : BayNo) (e : Nat) (v : Word) (m : Fin 8) :
    ((s.dirtyMask b e v m).bay b).trg.store = (s.bay b).trg.store := by
  unfold State.dirtyMask
  split
  · exact (State.modUnits_store ..).trans (by rw [State.putMask_trg])
  · rfl

theorem State.dirtyMask_copy (s : State) (b : BayNo) (e : Nat) (v : Word) (m u : Fin 8) :
    ((s.dirtyMask b e v m).unit b u).copy = (s.unit b u).copy := by
  unfold State.dirtyMask
  split
  · refine (foldl_keep (fun x : State => (x.unit b u).copy) _ (fun x w => ?_) _ _).trans (by rw [State.putMask_unit])
    exact State.unit_modUnit_keep TrgUnit.copy x b w u fun y => y.loadEntry_copy _ v
  · rfl

theorem State.dirtyMask_vals (s : State) (b : BayNo) (e : Nat) (v : Word) (m : Fin 8) : (s.dirtyMask b e v m).vals = s.vals := by
  unfold State.dirtyMask
  split
  · exact foldl_keep State.vals _ (fun x w => x.modUnit_vals b w _) _ _
  · rfl

/-- The extent of a mask is a matter of its settings. -/
theorem State.inMaskExtent_congr {s t : State} (h : t.vals = s.vals) (b : BayNo) (m e : Nat) :
    t.inMaskExtent b m e = s.inMaskExtent b m e := by
  simp only [State.inMaskExtent, State.fldN, State.fld, h]
  rfl

theorem State.dirtyMask_masks_of_inside {s : State} {b : BayNo} {e : Nat} {m : Fin 8} (v : Word) (h : s.inMaskExtent b m.val e = true) :
    ((s.dirtyMask b e v m).bay b).trg.masks = (s.bay b).trg.masks.set m { (s.bay b).trg.masks[m] with dirty := true } := by
  rw [State.dirtyMask, if_pos h, State.modUnits_masks, State.putMask_trg]

/-- Mask `m` becomes dirty where its extent holds the entry, and no other mask does. -/
theorem State.dirtyMask_dirty (s : State) (b : BayNo) (e : Nat) (v : Word) (m n : Fin 8) :
    ((s.dirtyMask b e v m).bay b).trg.masks[n].dirty =
      ((s.bay b).trg.masks[n].dirty || decide (n = m) && s.inMaskExtent b n.val e) := by
  by_cases h : s.inMaskExtent b m.val e = true
  · rw [State.dirtyMask_masks_of_inside v h]
    by_cases hn : n = m
    · simp [hn, h]
    · simp [hn, Vector.getElem_set_ne, Fin.val_ne_of_ne (Ne.symm hn)]
  · rw [State.dirtyMask, if_neg h]
    by_cases hn : n = m
    · simp [hn, h]
    · simp [hn]

/-- After a list of masks has learned of a write, those of them whose extent holds the entry are dirty. -/
theorem State.dirtyMasks_dirty (b : BayNo) (e : Nat) (v : Word) (n : Fin 8) (ms : List (Fin 8)) :
    ∀ s : State, ((ms.foldl (fun s m => s.dirtyMask b e v m) s).bay b).trg.masks[n].dirty =
      ((s.bay b).trg.masks[n].dirty || decide (n ∈ ms) && s.inMaskExtent b n.val e) := by
  induction ms with
  | nil => simp
  | cons m r ih =>
    intro s
    rw [List.foldl_cons, ih, State.dirtyMask_dirty, State.inMaskExtent_congr (s.dirtyMask_vals b e v m)]
    simp only [List.mem_cons, Bool.decide_or, Bool.and_or_distrib_right, Bool.or_assoc]

/-- Entry `e` of the mask store is put. -/
def State.putMaskEntry (s : State) (b : BayNo) (e : Nat) (v : Word) : State :=
  s.modBay b fun x => { x with trg := { x.trg with store := Sparse.set 0x80008000 x.trg.store e v } }

theorem State.putMaskEntry_trg (s : State) (b : BayNo) (e : Nat) (v : Word) :
    ((s.putMaskEntry b e v).bay b).trg = { (s.bay b).trg with store := Sparse.set 0x80008000 (s.bay b).trg.store e v } := by
  rw [State.putMaskEntry, State.bay_modBay]

/-- A write of an entry puts it and tells every mask (R321, R324). -/
theorem State.writeMask_eq (s : State) (b : BayNo) (e : Nat) (v : Word) :
    s.writeMask b e v = (List.finRange 8).foldl (fun x m => x.dirtyMask b e v m) (s.putMaskEntry b e v) := (rfl)

theorem State.writeMask_store (s : State) (b : BayNo) (e : Nat) (v : Word) :
    ((s.writeMask b e v).bay b).trg.store = Sparse.set 0x80008000 (s.bay b).trg.store e v := by
  rw [State.writeMask_eq, foldl_keep (fun x : State => (x.bay b).trg.store) _ (fun x m => x.dirtyMask_store b e v m),
    State.putMaskEntry_trg]

theorem State.writeMask_dirty (s : State) (b : BayNo) (e : Nat) (v : Word) (m : Fin 8) :
    ((s.writeMask b e v).bay b).trg.masks[m].dirty = ((s.bay b).trg.masks[m].dirty || s.inMaskExtent b m.val e) := by
  rw [State.writeMask_eq, State.dirtyMasks_dirty, State.putMaskEntry_trg, State.inMaskExtent_congr (s := s) (t := s.putMaskEntry b e v) rfl]
  simp

theorem State.writeMask_copy (s : State) (b : BayNo) (e : Nat) (v : Word) (u : Fin 8) :
    ((s.writeMask b e v).unit b u).copy = (s.unit b u).copy := by
  rw [State.writeMask_eq, foldl_keep (fun x : State => (x.unit b u).copy) _ (fun x m => x.dirtyMask_copy b e v m u), State.unit,
    State.putMaskEntry_trg, State.unit]

theorem maskStoreWrite_done : Claims.SegmentsAndMasks.maskStoreWrite_done := by
  intro s b e v hb
  have he := (exec_maskStoreWrite b e v s).trans (if_neg (by simp [hb]))
  refine ⟨_, he, ?_, fun k hk => ?_, fun m => s.writeMask_dirty b e.toNat v m, fun u => s.writeMask_copy b e.toNat v u⟩
  · rw [State.writeMask_store, Sparse.get_set, if_pos rfl]
  · rw [State.writeMask_store, Sparse.get_set, if_neg hk]

end Sys2Proof.Machine

namespace Sys2Proof
open Sys2Proof.Machine

/-- Settles O31: each command's answer is one update of the unit, or of the bay's masks and then of the units that use them, and the
clauses read it off. -/
theorem segmentsAndMasks : Obligations.SegmentsAndMasks :=
  ⟨segmentPostDone_done, slotFreed_done, unitRearm_done, unitRearm_holdoff, maskBump_done, maskBump_same, maskCopyDone_done,
    maskStoreWrite_done⟩

end Sys2Proof
end

section
/-! The measurement cores: what their registers and memory return after a write, which of it the program counter and the cycles touch,
and what an issued instruction makes of its core (R396 to R417). -/
namespace Sys2Proof.Machine

/-! ### Registers and address registers (R396, R397, R399) -/

theorem Core.reg_setReg (k : Core) (r x : CReg) (v : Word) :
    (k.setReg r v).reg x = if x = r then (if r.val = 0 then 0 else v) else k.reg x := by
  have hr := r.isLt
  have hx := x.isLt
  by_cases hxr : x = r
  · subst hxr
    by_cases hg : x.val < 16
    · by_cases h0 : x.val = 0 <;> simp [Core.reg, Core.setReg, hg, h0]
    · by_cases hs : k.shadow = true <;> simp [Core.reg, Core.setReg, Core.bank, hg, hs, show x.val ≠ 0 by omega]
  · have hne : r.val ≠ x.val := fun e => hxr (Fin.ext e.symm)
    by_cases hg : r.val < 16
    · by_cases h0 : r.val = 0
      · simp [Core.setReg, h0, hxr]
      · by_cases hgx : x.val < 16 <;> simp [Core.reg, Core.setReg, Core.bank, hg, h0, hxr, hgx, hne]
    · by_cases hgx : x.val < 16
      · by_cases hs : k.shadow = true <;> simp [Core.reg, Core.setReg, hg, hs, hxr, hgx]
      · have hw : r.val - 16 ≠ x.val - 16 := by omega
        by_cases hs : k.shadow = true <;> simp [Core.reg, Core.setReg, Core.bank, hg, hs, hxr, hgx, hw]

/-- A write of a window register outside a handler changes the window in use alone. -/
theorem Core.setReg_window {k : Core} (hs : k.shadow = false) {r : CReg} (hr : 16 ≤ r.val) (v : Word) :
    k.setReg r v =
      { k with windows := k.windows.set k.cwp (k.windows[k.cwp].set (r.val - 16) v (by have := r.isLt; omega)) } := by
  rw [Core.setReg, dif_neg (by omega), if_neg (by simp [hs])]

theorem Core.setReg_bare (k : Core) (r : CReg) (v : Word) : (k.setReg r v).bare = k.bare := by
  unfold Core.setReg
  repeat' split
  all_goals rfl

theorem Core.setReg_mem (k : Core) (r : CReg) (v : Word) : (k.setReg r v).mem = k.mem :=
  (congrArg Core.mem (k.setReg_bare r v) :)

theorem Core.ptr_setPtr (k : Core) (p : Fin 8) (a : AddrReg) : (k.setPtr p a).ptr p = a := by
  by_cases h : p.val < 4 ∧ k.shadow = true
  · simp [Core.ptr, Core.setPtr, h]
  · simp [Core.ptr, Core.setPtr, h]

theorem Core.setPtr_reg (k : Core) (p : Fin 8) (a : AddrReg) (x : CReg) : (k.setPtr p a).reg x = k.reg x := by
  unfold Core.setPtr
  split <;> rfl

theorem Core.setPtr_mem (k : Core) (p : Fin 8) (a : AddrReg) : (k.setPtr p a).mem = k.mem := by
  unfold Core.setPtr
  split <;> rfl

/-! ### Core memory (R398) -/

theorem rockAddr_lt (a : Int) : rockAddr a < 131072 := by
  unfold rockAddr
  omega

theorem Core.mAddress_lt (k : Core) (p : Fin 8) (pm : Bool) (off : BitVec 12) : k.mAddress p pm off < 131072 := by
  cases pm
  · exact rockAddr_lt _
  · exact (k.ptr p).p.isLt

theorem Core.lAddress_lt (k : Core) (ra : CReg) (off : BitVec 13) : k.lAddress ra off < 131072 := rockAddr_lt _

/-- An aligned access does not reach round the memory. -/
theorem CoreWidth.access_le (w : CoreWidth) {a : Nat} (ha : a < 131072) (h : a % w.bytes = 0) : a + w.bytes ≤ 131072 := by
  cases w <;> simp only [CoreWidth.bytes] at h ⊢ <;> omega

theorem CoreWidth.bytes_le (w : CoreWidth) : w.bytes ≤ 131072 := by cases w <;> decide

/-- A byte outside a run written from `a` upwards, which does not reach round the memory. -/
theorem get_foldl_poke_outside (m : Sparse (BitVec 8)) (f : Nat → BitVec 8) {a n x : Nat} (hn : a + n ≤ 131072)
    (hx : x < a ∨ a + n ≤ x) :
    Sparse.get 0#8 ((List.range n).foldl (fun m i => Sparse.set 0#8 m ((a + i) % 131072) (f i)) m) x = Sparse.get 0#8 m x := by
  induction n with
  | zero => rfl
  | succ n ih =>
    rw [List.range_succ, List.foldl_append, List.foldl_cons, List.foldl_nil, Sparse.get_set, if_neg (by omega),
      ih (by omega) (by omega)]

theorem Core.peek_one (k : Core) {x : Nat} (hx : x < 131072) : k.peek x 1 = (Sparse.get 0#8 k.mem x).toNat := by
  simp [Core.peek, List.range_succ, Nat.mod_eq_of_lt hx]

/-- A store changes no byte outside its range. -/
theorem Core.peek_poke_outside (k : Core) (v : Nat) {a n x : Nat} (hn : a + n ≤ 131072) (hx : x < 131072)
    (h : x < a ∨ a + n ≤ x) : (k.poke a n v).peek x 1 = k.peek x 1 := by
  rw [Core.peek_one _ hx, Core.peek_one _ hx]
  exact congrArg BitVec.toNat (get_foldl_poke_outside k.mem _ hn h)

theorem Core.peek_congr {k l : Core} (h : k.mem = l.mem) (a n : Nat) : k.peek a n = l.peek a n := by
  simp only [Core.peek, h]

/-- Writing words changes the memory alone. -/
theorem Core.pokeWords_eq (k : Core) (a : Nat) (ws : List Word) :
    k.pokeWords a ws = { k with mem := (k.pokeWords a ws).mem } := by
  have h : ∀ (es : List (Word × Nat)) (k : Core),
      es.foldl (fun k e => k.poke (a + 4 * e.2) 4 e.1.toNat) k =
        { k with mem := (es.foldl (fun k e => k.poke (a + 4 * e.2) 4 e.1.toNat) k).mem } := by
    intro es
    induction es with
    | nil => exact fun _ => rfl
    | cons e r ih => exact fun k => ih _
  exact h ws.zipIdx k

/-! ### What neither the program counter nor the cycles touch -/

theorem Core.spend_timeless (k : Core) (us : List Nat) (gs : List (Nat × Nat)) (n : Nat) :
    (k.spend us gs n).timeless = k.timeless := (rfl)

/-- Cores that differ at most in the program counter and the cycles hold the same registers. -/
theorem Core.reg_of_timeless {k l : Core} (h : k.timeless = l.timeless) (x : CReg) : k.reg x = l.reg x :=
  (congrArg (fun m : Core => m.reg x) h : k.timeless.reg x = l.timeless.reg x)

theorem Core.bare_of_timeless {k l : Core} (h : k.timeless = l.timeless) : k.bare = l.bare :=
  (congrArg Core.bare h : k.timeless.bare = l.timeless.bare)

/-- A result without the program counter and the cycles. -/
def CoreRes.timeless : CoreRes → CoreRes
  | .done k => .done k.timeless
  | .fault c => .fault c

theorem Core.setReg_timeless (k : Core) (r : CReg) (v : Word) : k.timeless.setReg r v = (k.setReg r v).timeless := by
  simp only [Core.setReg, apply_dite Core.timeless, apply_ite Core.timeless]
  rfl

theorem Core.setPtr_timeless (k : Core) (p : Fin 8) (a : AddrReg) : k.timeless.setPtr p a = (k.setPtr p a).timeless := by
  simp only [Core.setPtr, apply_dite Core.timeless]
  rfl

theorem Core.sha_timeless (k : Core) (a : Fin 2) (sh : Int) : k.timeless.sha a sh = (k.sha a sh).timeless := by
  simp only [Core.sha, apply_ite Core.timeless]
  rfl

/-- A search step notes a new extreme value and its index, and counts on (R409). -/
theorem Core.searchStep_eq (k : Core) (fn : SearchFn) (v : Word) (skip : Bool) :
    k.searchStep fn v skip =
      let up := !skip && decide (fn ≠ .smin) && decide (k.mxv.toInt < v.toInt)
      let down := !skip && decide (fn ≠ .smax) && decide (v.toInt < k.mnv.toInt)
      { k with
        mxv := if up then v else k.mxv, mxi := if up then k.sidx else k.mxi
        mnv := if down then v else k.mnv, mni := if down then k.sidx else k.mni, sidx := k.sidx + 1 } := by
  unfold Core.searchStep
  extract_lets k1 k2 up down
  have h1 : k1 = { k with mxv := if up then v else k.mxv, mxi := if up then k.sidx else k.mxi } := by
    show (if up = true then _ else _) = _
    split <;> rfl
  have h2 : k2 = { k1 with mnv := if down then v else k.mnv, mni := if down then k.sidx else k.mni } := by
    show (if _ then _ else _) = _
    rw [h1]
    show (if down = true then _ else _) = _
    split <;> rfl
  rw [h2, h1]

theorem Core.searchStep_timeless (k : Core) (fn : SearchFn) (v : Word) (skip : Bool) :
    k.timeless.searchStep fn v skip = (k.searchStep fn v skip).timeless := by
  rw [Core.searchStep_eq, Core.searchStep_eq]
  rfl

theorem Core.macp_timeless (k : Core) (a : Fin 2) (neg clr : Bool) (type : Fin 3) (pa pb : Fin 8) :
    k.timeless.macp a neg clr type pa pb = (k.macp a neg clr type pa pb).timeless := by
  have hp : ∀ p, k.timeless.ptr p = k.ptr p := fun _ => rfl
  simp only [Core.macp, hp]
  cases (k.ptr pa).next with
  | none => rfl
  | some x =>
    cases (k.ptr pb).next with
    | none => rfl
    | some y =>
      refine .trans ?_ (apply_ite CoreRes.timeless ..).symm
      refine congrArg (fun l => if aligned (k.ptr pa).p.toNat 2 && aligned (k.ptr pb).p.toNat 2 then CoreRes.done l else .fault 2) ?_
      simp only [apply_ite Core.timeless, ← Core.setPtr_timeless]
      rfl

theorem coreAccess_timeless (a n : Nat) (after : Option AddrReg) (f : AddrReg → Core) :
    (coreAccess a n after f).timeless = coreAccess a n after fun q => (f q).timeless := by
  cases after with
  | none => rfl
  | some q => exact apply_ite CoreRes.timeless ..

/-- The work of an instruction neither reads nor writes the program counter and the cycles. -/
theorem Core.work_timeless (k : Core) (i : CoreInstr) : k.timeless.work i = (k.work i).timeless := by
  cases i with
  | alu fn rd ra rb sh => exact congrArg (fun l : Core => CoreRes.done (l.overflow _)) (k.setReg_timeless rd _)
  | imm fn rd ra v => exact congrArg CoreRes.done (k.setReg_timeless rd _)
  | ld rd p w sx pm off =>
    refine .trans ?_ (coreAccess_timeless ..).symm
    refine congrArg (coreAccess _ _ _) (funext fun q => ?_)
    rw [← Core.setPtr_timeless]
    exact congrArg (fun l : Core => l.setPtr p q) (k.setReg_timeless rd _)
  | st rd p w pm off =>
    refine .trans ?_ (coreAccess_timeless ..).symm
    exact congrArg (coreAccess _ _ _) (funext fun q => (k.store rd _ w).setPtr_timeless p q)
  | ldr rd ra w sx off =>
    refine .trans ?_ (apply_ite CoreRes.timeless (aligned (k.lAddress ra off) w.bytes = true) _ _).symm
    exact congrArg (fun l => if aligned (k.lAddress ra off) w.bytes then CoreRes.done l else .fault 2) (k.setReg_timeless rd _)
  | str rd ra w off =>
    refine .trans ?_ (apply_ite CoreRes.timeless (aligned (k.lAddress ra off) w.bytes = true) _ _).symm
    rfl
  | macp a neg clr type pa pb => exact k.macp_timeless a neg clr type pa pb
  | sta a r sh wide rnd => exact congrArg (fun l : Core => CoreRes.done (l.overflow _)) (k.setReg_timeless r _)
  | sha a sh => exact congrArg CoreRes.done (k.sha_timeless a sh)
  | search fn p wide skip =>
    refine .trans ?_ (coreAccess_timeless ..).symm
    refine congrArg (coreAccess _ _ _) (funext fun q => ?_)
    rw [← Core.setPtr_timeless]
    exact congrArg (fun l : Core => l.setPtr p q) (k.searchStep_timeless fn _ _)
  | _ => rfl

/-- What the repeated body of a REP leaves depends on neither the program counter nor the cycles (R408). -/
theorem Core.repeat_timeless (i : CoreInstr) : ∀ (n : Nat) (k : Core), Core.repeat i n k.timeless = (Core.repeat i n k).timeless
  | 0, _ => rfl
  | n + 1, k => by
    rw [Core.repeat, Core.repeat, Core.work_timeless]
    cases k.work i with
    | fault c => rfl
    | done k1 => exact Core.repeat_timeless i n k1

theorem Core.repeat_of_timeless {i : CoreInstr} {n : Nat} {k l k' : Core} (h : l.timeless = k.timeless)
    (hk : Core.repeat i n k = .done k') : ∃ l', Core.repeat i n l = .done l' ∧ l'.timeless = k'.timeless := by
  have ht : (Core.repeat i n l).timeless = .done k'.timeless := by
    rw [← Core.repeat_timeless, h, Core.repeat_timeless, hk]
    rfl
  cases hl : Core.repeat i n l with
  | fault c => rw [hl] at ht; nomatch ht
  | done l' => exact ⟨l', rfl, by rw [hl] at ht; exact CoreRes.done.inj ht⟩

/-! ### What an issued instruction leaves of its core (R413, R416) -/

/-- A core after a fault at index `pc` (R416). -/
def Core.faulted (k : Core) (cause : Nat) (pc : BitVec 14) : Core :=
  { k with mode := .fault, waiting := false, faultCause := BitVec.ofNat 4 cause, faultPc := pc, faults := k.faults + 1
           faultUntil := some none }

theorem State.event_core (s : State) (b : BayNo) (code : Nat) (p : List Word) (done : Bool) (d : BayNo) (c : CoreNo) :
    (s.event b code p done).core d c = s.core d c := by
  rw [State.core, State.event_bay_mco, State.core]

theorem State.faultOpen_core (s : State) (f : FaultId) (since : Stamp) (d : BayNo) (c : CoreNo) :
    (s.faultOpen f since).core d c = s.core d c := by
  rw [State.core, State.faultOpen_bay_mco, State.core]

theorem State.coreFault_core (s : State) (b : BayNo) (c : CoreNo) (cause : Nat) (pc : BitVec 14) :
    (s.coreFault b c cause pc).core b c = (s.core b c).faulted cause pc := by
  unfold State.coreFault
  extract_lets s1 s2
  have h2 : s2.core b c = (s.core b c).faulted cause pc := (s1.event_core ..).trans (s.core_modCore ..)
  split
  · rw [State.faultOpen_core, h2]
  · exact h2

/-- A command issues the core's next instruction when the core can and the instruction has its mnemonic. -/
theorem exec_issued {cmd : Instr} {s : State} {b : BayNo} {c : CoreNo} {want : CoreInstr → Bool} {i : CoreInstr}
    (hc : exec cmd s = .next (s.issue b c want)) (hi : s.canIssue b c = true)
    (hd : decodeCore (s.core b c).word = some i) (hw : want i = true) : exec cmd s = .next (s.coreRun b c i) := by
  rw [hc, State.issue, hi, hd]
  exact congrArg Host.Outcome.next (if_pos hw)

section
variable {cmd : Instr} {s : State} {b : BayNo} {c : CoreNo} {want : CoreInstr → Bool} {i : CoreInstr}
  (hc : exec cmd s = .next (s.issue b c want)) (hi : s.canIssue b c = true)
  (hd : decodeCore (s.core b c).word = some i) (hw : want i = true)
include hc hi hd hw

theorem exec_leaves {k : Core} (hr : s.coreRun b c i = s.modCore b c fun _ => k) :
    ∃ t, exec cmd s = .next t ∧ t.core b c = k :=
  ⟨_, exec_issued hc hi hd hw, by rw [hr]; exact s.core_modCore b c _⟩

theorem exec_faults {cause : Nat} {pc : BitVec 14} (hr : s.coreRun b c i = s.coreFault b c cause pc) :
    ∃ t, exec cmd s = .next t ∧ t.core b c = (s.core b c).faulted cause pc :=
  ⟨_, exec_issued hc hi hd hw, by rw [hr, State.coreFault_core]⟩

end

/-! ### Instructions whose meaning is their work on the core -/

/-- The instruction has no meaning beside its work on the core and the next index. -/
def CoreInstr.works : CoreInstr → Bool
  | .nop | .alu .. | .imm .. | .ld .. | .st .. | .ldr .. | .str .. | .mac .. | .macp .. | .sta .. | .lda .. | .adda .. | .sha ..
  | .srst .. | .search .. => true
  | _ => false

theorem State.coreRun_works (s : State) (b : BayNo) (c : CoreNo) {i : CoreInstr} (hi : i.works = true) :
    s.coreRun b c i = match (s.core b c).work i with
      | .fault cause => s.coreFault b c cause (s.core b c).pc
      | .done k => s.modCore b c fun _ => ({ k with pc := (s.core b c).pc + 1 } : Core).spend i.uses i.gives 1 := by
  cases i with
  | branch | jmp | jal | jr | call | ret | rep | repReg | mfs | mts | evt | emit | post | wait | halt | ei | di | reti => nomatch hi
  | _ => rfl

theorem State.coreRun_works_done {s : State} {b : BayNo} {c : CoreNo} {i : CoreInstr} {k : Core} (hi : i.works = true)
    (hk : (s.core b c).work i = .done k) :
    s.coreRun b c i = s.modCore b c fun _ => ({ k with pc := (s.core b c).pc + 1 } : Core).spend i.uses i.gives 1 := by
  rw [s.coreRun_works b c hi, hk]

theorem State.coreRun_works_fault {s : State} {b : BayNo} {c : CoreNo} {i : CoreInstr} {cause : Nat} (hi : i.works = true)
    (hk : (s.core b c).work i = .fault cause) : s.coreRun b c i = s.coreFault b c cause (s.core b c).pc := by
  rw [s.coreRun_works b c hi, hk]

end Sys2Proof.Machine
end

section
/-! The clauses of ResetState and of CoreWords: the state before power comes, and words of the measurement cores. -/
namespace Sys2Proof.Machine

theorem State.reset_core (b : BayNo) (c : CoreNo) : State.reset.core b c = .reset := by
  have hb : State.reset.bay b = .reset := Vector.getElem_replicate ..
  rw [State.core, hb]
  exact Vector.getElem_replicate ..

theorem reset_waits : Claims.ResetState.reset_waits := ⟨rfl, rfl, rfl, rfl⟩

theorem reset_cores : Claims.ResetState.reset_cores := by
  intro b c
  have h := State.reset_core b c
  rw [State.core] at h
  rw [h]
  exact ⟨rfl, rfl, rfl, rfl⟩

theorem reset_inv : Claims.ResetState.reset_inv :=
  { flash := rfl, rows := Nat.zero_le 64, row := nofun }

theorem words_of_arithmetic : Claims.CoreWords.words_of_arithmetic := by
  unfold Claims.CoreWords.words_of_arithmetic
  decide

theorem words_of_flow : Claims.CoreWords.words_of_flow := by
  unfold Claims.CoreWords.words_of_flow
  decide

theorem words_of_memory : Claims.CoreWords.words_of_memory := by
  unfold Claims.CoreWords.words_of_memory
  decide

theorem words_that_are_illegal : Claims.CoreWords.words_that_are_illegal := by
  unfold Claims.CoreWords.words_that_are_illegal
  decide

end Sys2Proof.Machine

namespace Sys2Proof
open Sys2Proof.Machine

/-- Settles O2: each bay and each core of the reset state is a copy of its reset value, and the flash and the seal rows are empty. -/
theorem resetState : Obligations.ResetState := ⟨reset_waits, reset_cores, reset_inv⟩

/-- Settles O11: the decoder is evaluated on each word. -/
theorem coreWords : Obligations.CoreWords := ⟨words_of_arithmetic, words_of_flow, words_of_memory, words_that_are_illegal⟩

end Sys2Proof
end

section
/-! The clauses of CoreMemory: loads, stores and post-modify of the measurement cores. -/
namespace Sys2Proof.Machine

/-! ### Post-modify in the modulo mode (R399) -/

/-- The pointer of a buffer of `l` elements after a post-modify lies within the buffer. -/
theorem ofInt_add_emod_sub (base : BitVec 17) (d : Int) {l : Nat} (h1 : 1 ≤ l) (h2 : l ≤ 131072) :
    (BitVec.ofInt 17 (base.toNat + d % l) - base).toNat < l := by
  have h0 : 0 ≤ d % l := Int.emod_nonneg d (by omega)
  have hl : d % l < l := Int.emod_lt_of_pos d (by omega)
  have hb : BitVec.ofInt 17 (base.toNat + d % l) = base + BitVec.ofInt 17 (d % l) := by
    rw [BitVec.ofInt_add, BitVec.ofInt_natCast, BitVec.ofNat_toNat, BitVec.setWidth_eq]
  rw [hb, BitVec.add_comm, BitVec.add_sub_cancel, BitVec.toNat_ofInt]
  omega

/-- An address register after a post-modify in the modulo mode. -/
def AddrReg.modulo (a : AddrReg) : AddrReg :=
  { a with p := BitVec.ofInt 17 (a.base.toNat + ((a.p.toNat : Int) - a.base.toNat + a.step.toInt) % a.len.toNat) }

theorem AddrReg.next_modulo {a : AddrReg} (hm : a.mode = 1) (h1 : 1 ≤ a.len.toNat) (h2 : a.len.toNat ≤ 131072) :
    a.next = some a.modulo := by
  simp [AddrReg.next, AddrReg.modulo, hm, h1, h2]

theorem addrReg_next : Claims.CoreMemory.addrReg_next := by
  refine fun a => ⟨fun hm h1 h2 => ?_, fun hm => ?_, fun hm hl => ?_⟩
  · refine ⟨a.modulo, AddrReg.next_modulo hm h1 h2, ?_, rfl, rfl, rfl, rfl⟩
    rw [Nat.max_eq_right h1]
    exact ofInt_add_emod_sub a.base _ h1 h2
  · simp [AddrReg.next, hm]
  · simp [AddrReg.next, hm, hl]

/-! ### Loads and stores (R398, R402, R403) -/

theorem coreAccess_aligned {a n : Nat} (h : a % n = 0) (q : AddrReg) (f : AddrReg → Core) :
    coreAccess a n (some q) f = .done (f q) := if_pos (decide_eq_true h)

theorem coreAccess_misaligned {a n : Nat} (h : a % n ≠ 0) (q : AddrReg) (f : AddrReg → Core) :
    coreAccess a n (some q) f = .fault 2 := if_neg (by simpa [aligned] using h)

theorem Core.work_ld {k : Core} {p : Fin 8} {pm : Bool} {q : AddrReg} {w : CoreWidth} {off : BitVec 12}
    (hq : k.mAfter p pm = some q) (ha : k.mAddress p pm off % w.bytes = 0) (rd : CReg) (sx : Bool) :
    k.work (.ld rd p w sx pm off) = .done ((k.load rd (k.mAddress p pm off) w sx).setPtr p q) := by
  rw [Core.work, hq]
  exact coreAccess_aligned ha q _

theorem Core.work_ld_misaligned {k : Core} {p : Fin 8} {pm : Bool} {q : AddrReg} {w : CoreWidth} {off : BitVec 12}
    (hq : k.mAfter p pm = some q) (ha : k.mAddress p pm off % w.bytes ≠ 0) (rd : CReg) (sx : Bool) :
    k.work (.ld rd p w sx pm off) = .fault 2 := by
  rw [Core.work, hq]
  exact coreAccess_misaligned ha q _

theorem Core.work_st {k : Core} {p : Fin 8} {pm : Bool} {q : AddrReg} {w : CoreWidth} {off : BitVec 12}
    (hq : k.mAfter p pm = some q) (ha : k.mAddress p pm off % w.bytes = 0) (rd : CReg) :
    k.work (.st rd p w pm off) = .done ((k.store rd (k.mAddress p pm off) w).setPtr p q) := by
  rw [Core.work, hq]
  exact coreAccess_aligned ha q _

theorem Core.work_ldr {k : Core} {ra : CReg} {w : CoreWidth} {off : BitVec 13} (ha : k.lAddress ra off % w.bytes = 0)
    (rd : CReg) (sx : Bool) : k.work (.ldr rd ra w sx off) = .done (k.load rd (k.lAddress ra off) w sx) :=
  if_pos (decide_eq_true ha)

theorem Core.work_str {k : Core} {ra : CReg} {w : CoreWidth} {off : BitVec 13} (ha : k.lAddress ra off % w.bytes = 0)
    (rd : CReg) : k.work (.str rd ra w off) = .done (k.store rd (k.lAddress ra off) w) :=
  if_pos (decide_eq_true ha)

theorem Core.peek_store (k : Core) (rd : CReg) (a : Nat) (w : CoreWidth) :
    (k.store rd a w).peek a w.bytes = (k.reg rd).toNat % 256 ^ w.bytes := k.peek_poke a _ w.bytes_le

theorem Core.peek_store_outside (k : Core) (rd : CReg) {a : Nat} {w : CoreWidth} (ha : a < 131072) (h : a % w.bytes = 0)
    (x : Fin 131072) (hx : x.val < a ∨ a + w.bytes ≤ x.val) : (k.store rd a w).peek x.val 1 = k.peek x.val 1 :=
  k.peek_poke_outside _ (w.access_le ha h) x.isLt hx

theorem ld_done : Claims.CoreMemory.ld_done := by
  intro s b c rd p wd sx pm off q hi hd hq ha
  obtain ⟨t, ht, hk⟩ := exec_leaves (cmd := .ld b c) rfl hi hd rfl (State.coreRun_works_done rfl (Core.work_ld hq ha rd sx))
  refine ⟨t, ht, fun x => ?_, ?_, ?_, ?_⟩ <;> rw [hk]
  · exact (Core.setPtr_reg ..).trans (Core.reg_setReg ..)
  · exact Core.ptr_setPtr ..
  · exact (Core.setPtr_mem ..).trans (Core.setReg_mem ..)
  · rfl

theorem ld_misaligned : Claims.CoreMemory.ld_misaligned := by
  intro s b c rd p wd sx pm off q hi hd hq ha
  obtain ⟨t, ht, hk⟩ := exec_faults (cmd := .ld b c) rfl hi hd rfl (State.coreRun_works_fault rfl (Core.work_ld_misaligned hq ha rd sx))
  exact ⟨t, ht, by rw [hk]; exact ⟨rfl, rfl, rfl, rfl, fun _ => rfl, rfl⟩⟩

theorem st_done : Claims.CoreMemory.st_done := by
  intro s b c rd p wd pm off q hi hd hq ha _
  obtain ⟨t, ht, hk⟩ := exec_leaves (cmd := .st b c) rfl hi hd rfl (State.coreRun_works_done rfl (Core.work_st hq ha rd))
  have hm : (t.core b c).mem = ((s.core b c).store rd ((s.core b c).mAddress p pm off) wd).mem := by
    rw [hk]
    exact Core.setPtr_mem ..
  refine ⟨t, ht, ?_, fun a hx => ?_, fun x => ?_, ?_, ?_⟩
  · rw [Core.peek_congr hm, Core.peek_store]
  · rw [Core.peek_congr hm, Core.peek_store_outside _ rd (Core.mAddress_lt ..) ha a hx]
  · rw [hk]
    exact Core.setPtr_reg ..
  · rw [hk]
    exact Core.ptr_setPtr ..
  · rw [hk]
    rfl

theorem ldr_done : Claims.CoreMemory.ldr_done := by
  intro s b c rd ra wd sx off hi hd ha
  obtain ⟨t, ht, hk⟩ := exec_leaves (cmd := .ldr b c) rfl hi hd rfl (State.coreRun_works_done rfl (Core.work_ldr ha rd sx))
  refine ⟨t, ht, fun x => ?_, ?_, ?_⟩ <;> rw [hk]
  · exact Core.reg_setReg ..
  · exact Core.setReg_bare ..
  · rfl

theorem str_done : Claims.CoreMemory.str_done := by
  intro s b c rd ra wd off hi hd ha _
  obtain ⟨t, ht, hk⟩ := exec_leaves (cmd := .str b c) rfl hi hd rfl (State.coreRun_works_done rfl (Core.work_str ha rd))
  refine ⟨t, ht, ?_, fun a hx => ?_, fun x => ?_, ?_⟩ <;> rw [hk]
  · exact Core.peek_store ..
  · exact Core.peek_store_outside _ rd (Core.lAddress_lt ..) ha a hx
  · rfl
  · rfl

end Sys2Proof.Machine

namespace Sys2Proof
open Sys2Proof.Machine

/-- Settles O34: a load is one register write and a store one run of bytes, and the modulo mode adds an offset below the length. -/
theorem coreMemory : Obligations.CoreMemory := ⟨ld_done, ld_misaligned, st_done, ldr_done, str_done, addrReg_next⟩

end Sys2Proof
end

section
/-! The clauses of CoreFlow: branches, the window stack, REP, and what suspends, halts or interrupts a core. -/
namespace Sys2Proof.Machine

/-! ### Branches and jumps (R403) -/

theorem exec_branch (f : BranchFn) (b : BayNo) (c : CoreNo) (s : State) :
    exec (f.command b c) s = .next (s.issue b c (CoreInstr.isBranch f)) := by
  cases f <;> rfl

theorem branch_done : Claims.CoreFlow.branch_done := by
  intro s b c fb ra rb off hi hd
  obtain ⟨t, ht, hk⟩ := exec_leaves (exec_branch fb b c s) hi hd (decide_eq_true rfl) rfl
  exact ⟨t, ht, by rw [hk]; exact ⟨rfl, rfl, rfl⟩⟩

theorem jmp_done : Claims.CoreFlow.jmp_done := by
  intro s b c a hi hd
  obtain ⟨t, ht, hk⟩ := exec_leaves (cmd := .jmp b c) rfl hi hd rfl rfl
  exact ⟨t, ht, by rw [hk]; exact ⟨rfl, rfl⟩⟩

theorem jal_done : Claims.CoreFlow.jal_done := by
  intro s b c rd a hi hd
  obtain ⟨t, ht, hk⟩ := exec_leaves (cmd := .jal b c) rfl hi hd rfl rfl
  exact ⟨t, ht, by rw [hk]; exact ⟨rfl, Core.setReg_bare .., fun x => Core.reg_setReg ..⟩⟩

theorem reg_toIndex (v : Word) : v.setWidth 14 = v.extractLsb' 0 14 := BitVec.setWidth_eq_extractLsb' (by decide)

theorem jr_done : Claims.CoreFlow.jr_done := by
  intro s b c ra hi hd
  obtain ⟨t, ht, hk⟩ := exec_leaves (cmd := .jr b c) rfl hi hd rfl rfl
  exact ⟨t, ht, by rw [hk]; exact ⟨rfl, reg_toIndex _⟩⟩

/-! ### CALL (R410, R411) -/

/-- A core that has taken the next window and keeps a value in its W11. -/
def Core.nextWindow (k : Core) (v : Word) : Core :=
  ({ k with cwp := k.cwp + 1, resident := k.resident + 1 } : Core).setReg 27 v

theorem Core.nextWindow_eq {k : Core} (hs : k.shadow = false) (v : Word) :
    k.nextWindow v =
      { k with
        cwp := k.cwp + 1, resident := k.resident + 1
        windows := k.windows.set (k.cwp + 1 : Fin 8) (k.windows[(k.cwp + 1 : Fin 8)].set 11 v) } :=
  Core.setReg_window (k := { k with cwp := k.cwp + 1, resident := k.resident + 1 }) (r := 27) hs (by decide) v

theorem Core.nextWindow_reg (k : Core) (v : Word) : (k.nextWindow v).reg 27 = v := Core.reg_setReg ..

theorem Core.nextWindow_windows {k : Core} (hs : k.shadow = false) {w : Fin 8} (hw : w ≠ k.cwp + 1) (v : Word) :
    (k.nextWindow v).windows[w] = k.windows[w] := by
  rw [Core.nextWindow_eq hs]
  exact Vector.getElem_set_ne (k.cwp + 1).isLt w.isLt fun e => hw (Fin.ext e.symm)

/-- A core that has spilled its oldest window, the one after the current one. -/
def Core.spilled (k : Core) : Core :=
  { k with
    mem := (k.pokeWords k.ssp.toNat k.windows[k.cwp + 1].toList).mem, ssp := k.ssp + 48, resident := 7, spills := k.spills + 1 }

theorem Core.spillWindow_spilled (k : Core) :
    { k.spillWindow (k.cwp + 1) k.ssp.toNat with ssp := k.ssp + 48, resident := 7, spills := k.spills + 1 } = k.spilled := by
  rw [Core.spillWindow, Core.pokeWords_eq]
  rfl

theorem Core.callTo_handler {k : Core} (hs : k.shadow = true) (a : BitVec 14) : k.callTo a = .fault 4 := if_pos hs

theorem Core.callTo_overflow {k : Core} (hs : k.shadow = false) (h8 : k.resident = 8) (hl : k.slim.toNat < k.ssp.toNat + 48)
    (a : BitVec 14) : k.callTo a = .done (k.enter k.pc 4) := by
  rw [Core.callTo, if_neg (by simp [hs]), if_pos ⟨h8, hl⟩]

theorem Core.callTo_free {k : Core} (hs : k.shadow = false) (h8 : k.resident ≠ 8) (a : BitVec 14) :
    k.callTo a = .done (({ k.nextWindow ((k.pc + 1).zeroExtend 32) with pc := a } : Core).spend [69, 70] [] 3) := by
  simp [Core.callTo, hs, h8, Core.nextWindow]

theorem Core.callTo_spills {k : Core} (hs : k.shadow = false) (h8 : k.resident = 8) (hl : k.ssp.toNat + 48 ≤ k.slim.toNat)
    (ha : k.ssp.toNat % 4 = 0) (a : BitVec 14) :
    k.callTo a = .done (({ k.spilled.nextWindow ((k.pc + 1).zeroExtend 32) with pc := a } : Core).spend [69, 70] [] 17) := by
  rw [← Core.spillWindow_spilled]
  simp [Core.callTo, hs, h8, aligned, ha, Nat.not_lt.mpr hl, Core.nextWindow]

section
variable {s : State} {b : BayNo} {c : CoreNo} {a : BitVec 14} (hi : s.canIssue b c = true)
  (hd : decodeCore (s.core b c).word = some (.call a))
include hi hd

theorem exec_call {k : Core} (h : (s.core b c).callTo a = .done k) : ∃ t, exec (.call b c) s = .next t ∧ t.core b c = k :=
  exec_leaves (cmd := .call b c) rfl hi hd rfl (congrArg (s.putCore b c (s.core b c).pc) h)

theorem exec_call_faults {n : Nat} (h : (s.core b c).callTo a = .fault n) :
    ∃ t, exec (.call b c) s = .next t ∧ t.core b c = (s.core b c).faulted n (s.core b c).pc :=
  exec_faults (cmd := .call b c) rfl hi hd rfl (congrArg (s.putCore b c (s.core b c).pc) h)

end

theorem call_done : Claims.CoreFlow.call_done := by
  intro s b c a hi hd hs hr
  obtain ⟨t, ht, hk⟩ := exec_call hi hd (Core.callTo_free hs (by omega) a)
  have hw := Core.nextWindow_eq hs (((s.core b c).pc + 1).zeroExtend 32)
  refine ⟨t, ht, ?_⟩
  rw [hk]
  exact ⟨rfl, (congrArg Core.cwp hw :), (congrArg Core.resident hw :), Core.nextWindow_reg ..,
    fun v hv => Core.nextWindow_windows hs hv _, (congrArg Core.globals hw :), (congrArg Core.mem hw :)⟩

theorem call_spills : Claims.CoreFlow.call_spills := by
  intro s b c a hi hd hs h8 hl ha
  obtain ⟨t, ht, hk⟩ := exec_call hi hd (Core.callTo_spills hs h8 hl ha a)
  have hw := Core.nextWindow_eq (k := (s.core b c).spilled) hs (((s.core b c).pc + 1).zeroExtend 32)
  refine ⟨t, ht, ?_⟩
  rw [hk]
  exact ⟨rfl, (congrArg Core.ssp hw :), (congrArg Core.resident hw :), (congrArg Core.spills hw :), (congrArg Core.mem hw :)⟩

theorem call_overflow : Claims.CoreFlow.call_overflow := by
  intro s b c a hi hd hs h8 hl
  obtain ⟨t, ht, hk⟩ := exec_call hi hd (Core.callTo_overflow hs h8 hl a)
  exact ⟨t, ht, by rw [hk]; exact ⟨rfl, rfl, rfl, rfl, rfl, rfl⟩⟩

theorem callRet_double : Claims.CoreFlow.callRet_double := by
  intro s b c a hi hd hs
  obtain ⟨t, ht, hk⟩ := exec_call_faults hi hd (Core.callTo_handler hs a)
  exact ⟨t, ht, by rw [hk]; exact ⟨rfl, rfl, rfl⟩⟩

/-! ### RET (R410, R411) -/

theorem Core.ret_handler {k : Core} (hs : k.shadow = true) : k.ret = .fault 4 := if_pos hs

theorem Core.ret_empty {k : Core} (hs : k.shadow = false) (h1 : k.resident = 1) (he : k.ssp = k.sbase) : k.ret = .fault 3 := by
  rw [Core.ret, if_neg (by simp [hs]), if_pos ⟨h1, he⟩]

theorem Core.ret_resident {k : Core} (hs : k.shadow = false) (h1 : k.resident ≠ 1) :
    k.ret = .done (({ k with pc := (k.reg 27).setWidth 14, cwp := k.cwp - 1, resident := k.resident - 1 } : Core).spend
      [27, 69, 71] [] 3) := by
  simp [Core.ret, hs, h1]

theorem Core.ret_fills {k : Core} (hs : k.shadow = false) (h1 : k.resident = 1) (he : k.ssp ≠ k.sbase)
    (ha : k.ssp.toNat % 4 = 0) :
    k.ret = .done ((({ k with
      pc := (k.reg 27).setWidth 14, cwp := k.cwp - 1, ssp := k.ssp - 48, fills := k.fills + 1 } : Core).fillWindow
        (k.cwp - 1) (k.ssp - 48).toNat).spend [27, 69, 71] [] 17) := by
  simp [Core.ret, hs, h1, he, aligned, ha]

section
variable {s : State} {b : BayNo} {c : CoreNo} (hi : s.canIssue b c = true) (hd : decodeCore (s.core b c).word = some .ret)
include hi hd

theorem exec_ret {k : Core} (h : (s.core b c).ret = .done k) : ∃ t, exec (.ret b c) s = .next t ∧ t.core b c = k :=
  exec_leaves (cmd := .ret b c) rfl hi hd rfl (congrArg (s.putCore b c (s.core b c).pc) h)

theorem exec_ret_faults {n : Nat} (h : (s.core b c).ret = .fault n) :
    ∃ t, exec (.ret b c) s = .next t ∧ t.core b c = (s.core b c).faulted n (s.core b c).pc :=
  exec_faults (cmd := .ret b c) rfl hi hd rfl (congrArg (s.putCore b c (s.core b c).pc) h)

end

theorem ret_done : Claims.CoreFlow.ret_done := by
  intro s b c hi hd hs hr
  obtain ⟨t, ht, hk⟩ := exec_ret hi hd (Core.ret_resident hs (by omega))
  exact ⟨t, ht, by rw [hk]; exact ⟨reg_toIndex _, rfl, rfl, rfl, rfl⟩⟩

theorem ret_fills : Claims.CoreFlow.ret_fills := by
  intro s b c hi hd hs h1 he ha
  obtain ⟨t, ht, hk⟩ := exec_ret hi hd (Core.ret_fills hs h1 he ha)
  exact ⟨t, ht, by rw [hk]; exact ⟨reg_toIndex _, rfl, rfl, Vector.getElem_set_self ..⟩⟩

theorem ret_empty : Claims.CoreFlow.ret_empty := by
  intro s b c hi hd hs h1 he
  obtain ⟨t, ht, hk⟩ := exec_ret_faults hi hd (Core.ret_empty hs h1 he)
  exact ⟨t, ht, by rw [hk]; exact ⟨rfl, rfl, rfl⟩⟩

theorem ret_double : Claims.CoreFlow.ret_double := by
  intro s b c hi hd hs
  obtain ⟨t, ht, hk⟩ := exec_ret_faults hi hd (Core.ret_handler hs)
  exact ⟨t, ht, by rw [hk]; exact ⟨rfl, rfl, rfl⟩⟩

/-! ### REP (R408) -/

section
variable {s : State} {b : BayNo} {c : CoreNo} {i body : CoreInstr} {n : Nat}
  (hb : decodeCore ((s.core b c).fetchAt ((s.core b c).pc + 1)) = some body)
include hb

theorem State.coreRep_barred (hr : body.repBody = false) : s.coreRep b c i n = s.coreFault b c 1 (s.core b c).pc := by
  simp only [State.coreRep, hb, hr, Bool.not_false, if_true]

theorem State.coreRep_many (hr : body.repBody = true) (hn : 4096 < n) : s.coreRep b c i n = s.coreFault b c 5 (s.core b c).pc := by
  simp only [State.coreRep, hb, hr, Bool.not_true, Bool.false_eq_true, if_false, if_pos hn]

/-- Where the body does not fault, REP leaves what its executions leave, but for the index and the cycles. -/
theorem State.coreRep_done (hr : body.repBody = true) (hn : n ≤ 4096) {k : Core}
    (hk : Core.repeat body n (s.core b c) = .done k) :
    ∃ k', k'.timeless = k.timeless ∧ k'.pc = (s.core b c).pc + 2 ∧ s.coreRep b c i n = s.modCore b c fun _ => k' := by
  simp only [State.coreRep, hb, hr, Bool.not_true, Bool.false_eq_true, if_false, if_neg (Nat.not_lt.mpr hn)]
  by_cases h0 : n = 0
  · subst h0
    obtain rfl : s.core b c = k := CoreRes.done.inj hk
    exact ⟨({ s.core b c with pc := (s.core b c).pc + 2 } : Core).spend i.uses [] 1, rfl, rfl, if_pos rfl⟩
  · have hs : (((s.core b c).spend i.uses [] 1).spend body.uses body.gives n).timeless = (s.core b c).timeless :=
      (Core.spend_timeless ..).trans (Core.spend_timeless ..)
    obtain ⟨l, hl, ht⟩ := Core.repeat_of_timeless hs hk
    exact ⟨{ l with pc := (s.core b c).pc + 2 }, ht, rfl, by rw [if_neg h0, hl]⟩

end

/-- ADDI of a register to itself, again and again. -/
theorem Core.repeat_addi (r : CReg) (hr : r.val ≠ 0) (v : BitVec 16) : ∀ (n : Nat) (k : Core), ∃ k',
    Core.repeat (.imm .addi r r v) n k = .done k' ∧ k'.reg r = k.reg r + BitVec.ofNat 32 n * v.signExtend 32 ∧
      (∀ x, x ≠ r → k'.reg x = k.reg x) ∧ k'.bare = k.bare
  | 0, k => ⟨k, rfl, by simp, fun _ _ => rfl, rfl⟩
  | n + 1, k => by
    obtain ⟨k', hk, hs, ho, hb⟩ := Core.repeat_addi r hr v n (k.setReg r (k.reg r + v.signExtend 32))
    refine ⟨k', hk, ?_, fun x hx => ?_, hb.trans (k.setReg_bare r _)⟩
    · rw [hs, Core.reg_setReg, if_pos rfl, if_neg hr, BitVec.ofNat_add, BitVec.add_mul, BitVec.one_mul]
      ac_rfl
    · rw [ho x hx, Core.reg_setReg, if_neg hx]

theorem rep_done : Claims.CoreFlow.rep_done := by
  intro s b c n i k hi hd hn hb hr hk
  obtain ⟨k', ht', hp, he⟩ := State.coreRep_done (i := .rep n) hb hr hn hk
  obtain ⟨t, ht, h⟩ := exec_leaves (cmd := .rep b c) rfl hi hd rfl he
  exact ⟨t, ht, by rw [h]; exact ⟨ht', hp⟩⟩

theorem rep_addi : Claims.CoreFlow.rep_addi := by
  intro s b c n r v hi hd hn hb hr
  obtain ⟨k, hk, hs, ho, hbare⟩ := Core.repeat_addi r hr v n (s.core b c)
  obtain ⟨k', ht', hp, he⟩ := State.coreRep_done (i := .rep n) hb rfl hn hk
  obtain ⟨t, ht, h⟩ := exec_leaves (cmd := .rep b c) rfl hi hd rfl he
  refine ⟨t, ht, ?_⟩
  rw [h]
  exact ⟨(Core.reg_of_timeless ht' r).trans hs, fun x hx => (Core.reg_of_timeless ht' x).trans (ho x hx),
    (Core.bare_of_timeless ht').trans hbare, hp⟩

theorem rep_body : Claims.CoreFlow.rep_body := by
  intro s b c n i hi hd hb hr
  obtain ⟨t, ht, h⟩ := exec_faults (cmd := .rep b c) rfl hi hd rfl (State.coreRep_barred (i := .rep n) (n := n) hb hr)
  exact ⟨t, ht, by rw [h]; exact ⟨rfl, rfl, rfl⟩⟩

theorem rep_register : Claims.CoreFlow.rep_register := by
  intro s b c r i hi hd hb hr
  refine ⟨_, exec_issued (cmd := .rep b c) rfl hi hd rfl, fun h0 => ?_, fun hn => ?_⟩
  · obtain ⟨k, hk, hp, he⟩ := State.coreRep_done (i := .repReg r) (n := 0) hb hr (by decide) rfl
    have h : s.coreRun b c (.repReg r) = s.modCore b c fun _ => k := (congrArg (s.coreRep b c (.repReg r)) h0).trans he
    rw [h, State.core_modCore]
    exact ⟨hk, hp⟩
  · have h : s.coreRun b c (.repReg r) = _ := State.coreRep_many (i := .repReg r) hb hr hn
    rw [h, State.coreFault_core]
    exact ⟨rfl, rfl, rfl⟩

/-! ### WAIT, HALT, EI, DI and RETI (R403, R413, R415) -/

theorem wait_done : Claims.CoreFlow.wait_done := by
  intro s b c hi hd
  refine ⟨_, exec_issued (cmd := .wait b c) rfl hi hd rfl, ?_⟩
  have h : (s.coreRun b c .wait).core b c = _ := State.core_modCore ..
  rw [h]
  exact ⟨by simp [Core.spend, Core.called], rfl⟩

theorem halt_done : Claims.CoreFlow.halt_done := by
  intro s b c hi hd
  refine ⟨_, exec_issued (cmd := .halt b c) rfl hi hd rfl, ⟨_, rfl, rfl, rfl⟩, ?_⟩
  have h : (s.coreRun b c .halt).core b c = _ := (State.event_core ..).trans (State.core_modCore ..)
  rw [h]
  exact ⟨rfl, rfl⟩

theorem ei_done : Claims.CoreFlow.ei_done := by
  intro s b c hi hd
  obtain ⟨t, ht, hk⟩ := exec_leaves (cmd := .ei b c) rfl hi hd rfl rfl
  refine ⟨t, ht, ?_⟩
  rw [hk]
  cases hs : (s.core b c).shadow <;> simp [Core.spend, Core.setIe, hs]

theorem di_done : Claims.CoreFlow.di_done := by
  intro s b c hi hd
  obtain ⟨t, ht, hk⟩ := exec_leaves (cmd := .di b c) rfl hi hd rfl rfl
  refine ⟨t, ht, ?_⟩
  rw [hk]
  cases hs : (s.core b c).shadow <;> simp [Core.spend, Core.setIe, hs]

theorem Core.reti_handler {k : Core} (hs : k.shadow = true) :
    k.reti = .done (({ k with shadow := false, ie := k.istat, pc := k.ira } : Core).spend [67, 68] [] 5) := if_pos hs

theorem reti_done : Claims.CoreFlow.reti_done := by
  intro s b c hi hd hs
  obtain ⟨t, ht, hk⟩ := exec_leaves (cmd := .reti b c) rfl hi hd rfl
    (congrArg (s.putCore b c (s.core b c).pc) (Core.reti_handler hs))
  exact ⟨t, ht, by rw [hk]; exact ⟨rfl, rfl⟩⟩

/-! ### ILLEGAL_INSTRUCTION and INTERRUPT_ENTRY (R413, R416) -/

theorem illegal_done : Claims.CoreFlow.illegal_done := by
  intro s b c hi hd
  have he : exec (.illegalInstruction b c) s = .next (s.coreFault b c 1 (s.core b c).pc) := by
    show execIllegalInstruction b c s = _
    simp [execIllegalInstruction, hi, hd]
  exact ⟨_, he, by rw [State.coreFault_core]; exact ⟨rfl, rfl, rfl, rfl⟩⟩

theorem takeable_lowest : Claims.CoreFlow.takeable_lowest := by
  intro k l h
  rw [Core.takeable] at h
  split at h
  · next hie =>
    obtain ⟨hl, hr, hj⟩ := List.find?_range_eq_some.mp h
    refine ⟨hie, List.mem_range.mp hr, by rwa [BitVec.getLsbD_and], fun j hjl => ?_⟩
    rw [BitVec.getLsbD_and]
    simpa only [Bool.not_eq_true'] using hj j hjl
  · nomatch h

theorem interruptEntry_done : Claims.CoreFlow.interruptEntry_done := by
  intro s b c l ha hm hl
  obtain ⟨hie, -⟩ := takeable_lowest _ l hl
  have he : exec (.interruptEntry b c) s = .next (s.modCore b c fun k =>
      ({ k with ipend := k.ipend &&& ~~~(BitVec.ofNat 10 (2 ^ l)) } : Core).enter k.pc (BitVec.ofNat 14 (8 + 4 * l))) := by
    show execInterruptEntry b c s = _
    simp [execInterruptEntry, hl, ha, hm]
  exact ⟨_, he, by rw [State.core_modCore]; exact ⟨rfl, rfl, hie, rfl, rfl, rfl, rfl, rfl⟩⟩

end Sys2Proof.Machine

namespace Sys2Proof
open Sys2Proof.Machine

/-- Settles O35: an issued instruction leaves one core or one fault, and the body of a REP neither reads nor writes the index and the
cycles. -/
theorem coreFlow : Obligations.CoreFlow :=
  ⟨branch_done, jmp_done, jal_done, jr_done, call_done, call_spills, call_overflow, ret_done, ret_fills, ret_empty, callRet_double,
    ret_double, rep_addi, rep_done, rep_register, rep_body, wait_done, halt_done, ei_done, di_done, reti_done, illegal_done,
    interruptEntry_done, takeable_lowest⟩

end Sys2Proof
end

section
/-! The clauses of QueuesAndDma: one of them fails for a sealed record of a bay that the headland does not reach. -/
namespace Sys2Proof.Machine

/-- A sealed record of bay 1. -/
def bayOneSealed : Rec := State.reset.mkRec 1 { typ := .trace, source := 0, domain := 0, stamp := 0, payload := [] } 0

/-- A package in RUN. A sealed record of bay 1 waits at the MAC engine for queue 16, which is bay 1's own, and the headland has no
route to bay 1. -/
def sealedAcrossSplit : State :=
  { State.reset with
    bays := State.reset.bays.set 1 { Bay.reset with pwr := { PwrBay.reset with datapath := true } }
    pwr := { PwrPkg.reset with state := .run }
    img := { Img.reset with state := .run }
    keeper := { Seal.reset with macQueue := [(16, bayOneSealed)] } }

theorem sealedAcrossSplit_waits :
    sealedAcrossSplit.alive 0 = true ∧ sealedAcrossSplit.keeper.macQueue = [(16, bayOneSealed)] ∧
      sealedAcrossSplit.reaches 0 1 = false ∧ sealedAcrossSplit.queueAwake 1 = true := by
  decide +kernel

/-- The record goes from the headland (R13), so it is dropped there and counted as bound across a split (R612). -/
theorem sealedAcrossSplit_dropped :
    ((afterOf (exec .sealedRecordMac sealedAcrossSplit) sealedAcrossSplit).bay 0).lnl.splitDrop = 1 := by
  decide +kernel

theorem not_sealedRecordMac_done : ¬ Claims.QueuesAndDma.sealedRecordMac_done := by
  intro h
  obtain ⟨halive, hwaits, -, -⟩ := sealedAcrossSplit_waits
  obtain ⟨t, he, rfl⟩ := h sealedAcrossSplit 16 bayOneSealed [] halive hwaits
  have hdropped := sealedAcrossSplit_dropped
  rw [he] at hdropped
  exact absurd hdropped (by decide +kernel)

end Sys2Proof.Machine

namespace Sys2Proof
open Sys2Proof.Machine

/-- Refutes O38: its clause on SEALED_RECORD_MAC sends the record from the bay that made it, and the MAC engine sends it from the
headland (R13): where only the headland has no route to the queue, the record is dropped. -/
theorem not_queuesAndDma : ¬ Obligations.QueuesAndDma :=
  fun ⟨_, _, hmac, _⟩ => not_sealedRecordMac_done hmac

end Sys2Proof
end

section
/-! Accesses to the package map: which domain answers an address, and what a write of a word does. -/
namespace Sys2Proof.Machine

theorem State.alive_iff (s : State) (b : BayNo) :
    s.alive b = true ↔ s.running = true ∧ s.present b = true ∧ (s.bay b).lost = false := by
  simp [State.alive, and_assoc]

@[simp] theorem State.reaches_self (s : State) (b : BayNo) : s.reaches b b = true := by simp [State.reaches]

/-! ### Where an address lies (R28, R717, R758) -/

theorem State.place_headland {s : State} {a : Nat} (h : s.present 0 = true) (ha : a < 0x4000000) : s.place a = some (0, a) := by
  have h0 : a / 0x4000000 = 0 := Nat.div_eq_of_lt ha
  simp [State.place, h0, h, Nat.mod_eq_of_lt ha]

theorem State.domainAt_identity (s : State) (b : BayNo) {off : Nat} (h : off < 0x100000) :
    s.domainAt b off = some .supervisor := by
  simp [State.domainAt, Nat.div_eq_of_lt h]

/-- The capture aperture lies in the domain of the record queues. -/
theorem State.domainAt_capture (s : State) (b : BayNo) {off : Nat} (h : 0x2000000 ≤ off) :
    s.domainAt b off = some .datapath := by
  have h20 : 0x20 ≤ off / 0x100000 := by omega
  unfold State.domainAt
  dsimp only
  split <;> try omega
  exact if_pos (.inr h20)

theorem State.fencedAt_powered {s : State} {b : BayNo} {off : Nat} {d : Domain} (hd : s.domainAt b off = some d)
    (hp : (s.bay b).pwr.powered d = true) : s.fencedAt b off = none := by
  simp [State.fencedAt, hd, hp]

/-! ### A write of a word of the headland (R759) -/

section
variable {s : State} {a : Nat} {v : Word} {en : BitVec 4} {p : Path} (halive : s.alive 0 = true) (ha : a < 0x4000000)
  (hf : s.fencedAt 0 a = none)
include halive ha hf

theorem State.writeWord_done {t : State} (h : s.tryWrite 0 a v en p = some t) : s.writeWord a v en p = (true, t) := by
  obtain ⟨-, hpresent, hlost⟩ := (s.alive_iff 0).mp halive
  simp [State.writeWord, State.place_headland hpresent ha, hlost, hf, h]

theorem State.writeWord_discarded (h : s.tryWrite 0 a v en p = none) :
    s.writeWord a v en p = (false, s.discarded a p.code) := by
  obtain ⟨-, hpresent, hlost⟩ := (s.alive_iff 0).mp halive
  simp [State.writeWord, State.place_headland hpresent ha, hlost, hf, h]

end

/-- A write of a whole word of the identity slot that its path may make. -/
theorem State.tryWrite_identity {s : State} {off : Nat} {p : Path} (hh : s.initHeld = false) (ho : off < 0x100000)
    (hp : p = .service → serviceWrites off = true) (v : Word) : s.tryWrite 0 off v 0xF p = s.blockWrite 0 off v p := by
  have h0 : off / 0x100000 = 0 := Nat.div_eq_of_lt ho
  have hl : ¬ 0x2000000 ≤ off := by omega
  have hs : ¬ (p = .service ∧ serviceWrites off = false) := fun ⟨e, f⟩ => Bool.false_ne_true (f.symm.trans (hp e))
  simp [State.tryWrite, State.slotWrite, hh, h0, hl, hs]

/-- A register of the identity slot takes whole words only. -/
theorem State.tryWrite_partial {s : State} {off : Nat} {en : BitVec 4} (hh : s.initHeld = false) (ho : off < 0x100000)
    (hen : en ≠ 0xF) (v : Word) : s.tryWrite 0 off v en .host = none := by
  have h0 : off / 0x100000 = 0 := Nat.div_eq_of_lt ho
  have hl : ¬ 0x2000000 ≤ off := by omega
  simpa [State.tryWrite, hh, h0, hl] using fun e => absurd e hen

/-! ### Capture memory (R446, R447) -/

theorem State.capturePut_capMem (s : State) (b : BayNo) (a : Nat) (bs : List Byte) :
    ((s.capturePut b a bs).bay b).que.capMem = Sparse.setRun 0 (s.bay b).que.capMem (a % 0x4000000) bs := by
  rw [State.capturePut, State.bay_modBay]

theorem State.captureByte_free {s : State} {b : BayNo} {x : Nat} (h : s.captureFree b ≤ x) :
    (s.captureByte b x).1 = Sparse.get 0 (s.bay b).que.capMem x := by
  rw [State.captureByte, if_neg (Nat.not_lt.mpr h)]

theorem State.captureByte_capturePut {s : State} {b : BayNo} {x : Nat} (h : s.captureFree b ≤ x) (a : Nat) (bs : List Byte) :
    ((s.capturePut b a bs).captureByte b x).1 =
      Sparse.get 0 (Sparse.setRun 0 (s.bay b).que.capMem (a % 0x4000000) bs) x := by
  have hf : (s.capturePut b a bs).captureFree b ≤ x := h
  rw [State.captureByte_free hf, State.capturePut_capMem]

theorem State.apertureAddr_capturePut (s : State) (b : BayNo) (a : Nat) (bs : List Byte) (off : Nat) :
    (s.capturePut b a bs).apertureAddr b off = s.apertureAddr b off := by
  rw [State.apertureAddr, State.capturePut, State.bay_modBay, State.apertureAddr]

theorem State.apertureAddr_window (s : State) (b : BayNo) (o : Nat) : s.apertureAddr b (0x2000000 + o) = s.apertureAddr b o := by
  rw [State.apertureAddr, Nat.add_mod_left, State.apertureAddr]

/-- The four bytes of an aligned word of the aperture lie in capture memory. -/
theorem State.apertureAddr_word (s : State) (b : BayNo) {o : Nat} (h4 : o % 4 = 0) :
    s.apertureAddr b o + 4 ≤ 0x4000000 := by
  unfold State.apertureAddr
  split <;> omega

theorem wordBytes_getD (v : Word) (k : Fin 4) (d : Byte) : (wordBytes v).getD k.val d = v.extractLsb' (8 * k.val) 8 := by
  match k with
  | 0 | 1 | 2 | 3 => rfl

/-- The state after a write of a whole word through the capture aperture. -/
def State.captureWrite (s : State) (b : BayNo) (off : Nat) (v : Word) : State :=
  (enabledBytes v 0xF).foldl (fun s e => s.capturePut b (s.apertureAddr b off + e.1) [e.2]) s

theorem State.tryWrite_capture {s : State} {off : Nat} (hh : s.initHeld = false) (ho : 0x2000000 ≤ off) (v : Word) :
    s.tryWrite 0 off v 0xF .host = some (s.captureWrite 0 off v) := by
  simp [State.tryWrite, State.captureWrite, hh, ho]

theorem State.captureWrite_capMem {s : State} {b : BayNo} {off : Nat} (h : s.apertureAddr b off + 4 ≤ 0x4000000) (v : Word) :
    ((s.captureWrite b off v).bay b).que.capMem =
      Sparse.setRun 0 (s.bay b).que.capMem (s.apertureAddr b off) (wordBytes v) := by
  have he : enabledBytes v 0xF =
    [(0, v.extractLsb' 0 8), (1, v.extractLsb' 8 8), (2, v.extractLsb' 16 8), (3, v.extractLsb' 24 8)] := rfl
  have h0 : s.apertureAddr b off % 0x4000000 = s.apertureAddr b off := Nat.mod_eq_of_lt (by omega)
  have hk : ∀ k < 4, (s.apertureAddr b off + k) % 0x4000000 = s.apertureAddr b off + k :=
    fun k hk => Nat.mod_eq_of_lt (by omega)
  simp only [State.captureWrite, he, wordBytes, List.foldl_cons, List.foldl_nil, State.capturePut_capMem,
    State.apertureAddr_capturePut, Sparse.setRun, Nat.add_zero, h0, hk 1 (by decide), hk 2 (by decide),
    hk 3 (by decide)]

end Sys2Proof.Machine
end

section
/-! The clauses of RegisterMapAndService: writes to the register map, the service port and JTAG. -/
namespace Sys2Proof.Machine

/-! ### REGISTER_WRITE -/

theorem exec_registerWrite {s : State} {a : Nat} (ha : a < 0x100000000) (halive : s.alive 0 = true)
    (hlink : (s.bay 0).pci[(4 : Fin 5)].linkUp = true) (hretry : s.retryConfig = false) (h4 : a % 4 = 0)
    {v : Word} {en : BitVec 4} {r : Bool × State} (h : s.writeWord a v en .host = r) :
    exec (.registerWrite (BitVec.ofNat 32 a) v en) s = .next r.2 := by
  have hl : (s.bay 0).pci[4].linkUp = true := hlink
  have hn : (BitVec.ofNat 32 a).toNat = a := Nat.mod_eq_of_lt ha
  show execRegisterWrite (BitVec.ofNat 32 a) v en s = _
  simp only [execRegisterWrite, hn, h]
  simp [halive, hl, hretry, h4]

theorem State.fencedAt_identity {s : State} {off : Nat} (hsup : (s.bay 0).pwr.supervisor = true) (ho : off < 0x100000) :
    s.fencedAt 0 off = none := State.fencedAt_powered (s.domainAt_identity 0 ho) hsup

theorem registerWrite_scratch : Claims.RegisterMapAndService.registerWrite_scratch := by
  intro s v halive hlink hsup hretry hheld
  have hw : s.tryWrite 0 0x110 v 0xF .host = some (s.modIdent fun y => { y with scratch := v }) :=
    (State.tryWrite_identity hheld (by decide) (by simp) v).trans rfl
  have hd := State.writeWord_done halive (by decide) (State.fencedAt_identity hsup (by decide)) hw
  exact ⟨_, exec_registerWrite (by decide) halive hlink hretry rfl hd, rfl, rfl⟩

theorem registerWrite_bytes : Claims.RegisterMapAndService.registerWrite_bytes := by
  intro s v halive hlink hsup hretry hheld
  have hw : s.tryWrite 0 0x110 v 3 .host = none := State.tryWrite_partial hheld (by decide) (by decide) v
  have hd := State.writeWord_discarded halive (by decide) (State.fencedAt_identity hsup (by decide)) hw
  exact ⟨_, exec_registerWrite (by decide) halive hlink hretry rfl hd, rfl⟩

theorem capturePut_read : Claims.RegisterMapAndService.capturePut_read := by
  intro s b a x v ha hfa hfx hx _
  constructor
  · rw [State.captureByte_capturePut hfa, Nat.mod_eq_of_lt ha, Sparse.setRun, Sparse.setRun, Sparse.get_set, if_pos rfl]
  · rw [State.captureByte_capturePut hfx, State.captureByte_free hfx, Nat.mod_eq_of_lt ha, Sparse.setRun, Sparse.setRun,
      Sparse.get_set, if_neg hx]

theorem registerWrite_capture : Claims.RegisterMapAndService.registerWrite_capture := by
  intro s v o x halive hlink hdata hretry hheld h4 ho hx
  have hf : s.fencedAt 0 (0x2000000 + o) = none := State.fencedAt_powered (s.domainAt_capture 0 (by omega)) hdata
  have hd := State.writeWord_done halive (by omega) hf (State.tryWrite_capture hheld (by omega) v)
  have hm := State.captureWrite_capMem (s := s) (b := 0) (off := 0x2000000 + o)
    (by rw [s.apertureAddr_window]; exact s.apertureAddr_word 0 h4) v
  rw [s.apertureAddr_window] at hm
  have he := exec_registerWrite (by omega) halive hlink hretry (by omega) hd
  refine ⟨s.captureWrite 0 (0x2000000 + o) v, he, fun k => ?_, ?_⟩
  · rw [hm, Sparse.get_setRun, if_pos ⟨by omega, by simp [wordBytes]⟩, Nat.add_sub_cancel_left, wordBytes_getD]
  · rw [hm, Sparse.get_setRun, if_neg (by simp [wordBytes]; omega)]

/-! ### SVC_TRANSACTION and SVC_ALERT_CLEAR -/

section
variable {s : State} (halive : s.alive 0 = true) (hpinned : s.pinned 0 = true) (hpwr : s.pwr.state ≠ .off)
  (hretry : s.retryConfig = false)
include halive hpinned hpwr hretry

theorem exec_svcTransaction_unaligned {a : Word} (h4 : a.toNat % 4 ≠ 0) (bs : List Byte) :
    exec (.svcTransaction (.write a bs)) s = .next (s.modIdent fun i => { i with refused := i.refused + 1 }) := by
  show execSvcTransaction (.write a bs) s = _
  simp [execSvcTransaction, halive, hpinned, hpwr, hretry, h4]
  rfl

/-- A service write of one word that is carried out. -/
theorem exec_svcTransaction_word {a : Nat} {bs : List Byte} {t : State} (h4 : a % 4 = 0) (ha : a < 0x4000000)
    (hbays : s.part.bays ≠ 0) (hl : bs.length = 4) (h : s.writeWord a (wd (leNat bs)) 0xF .service = (true, t)) :
    exec (.svcTransaction (.write (BitVec.ofNat 32 a) bs)) s = .next (t.modIdent fun i => { i with done := i.done + 1 }) := by
  have hn : (BitVec.ofNat 32 a).toNat = a := Nat.mod_eq_of_lt (by omega)
  have hr : ¬ (a % 4 ≠ 0 ∨ a ≥ s.part.bays * 0x4000000) := by omega
  have hb : bs.take 4 = bs := List.take_of_length_le (Nat.le_of_eq hl)
  have hw : s.svcWrite a bs 1 = (0, t) := by
    rw [State.svcWrite, if_neg (by omega), hb, h]
    rfl
  show execSvcTransaction (.write (BitVec.ofNat 32 a) bs) s = _
  simp only [execSvcTransaction, hn, if_neg hr, hl, Nat.div_self (Nat.zero_lt_succ 3), hw, BitVec.ofNat_eq_ofNat,
    BitVec.add_zero]
  simp [halive, hpinned, hpwr, hretry]
  rfl

theorem exec_svcAlertClear (v : Word) :
    exec (.svcAlertClear v) s = .next (s.modIdent fun y => { y with alert := s.ident.alert &&& ~~~(v.extractLsb' 0 8) }) := by
  show execSvcAlertClear v s = _
  simp [execSvcAlertClear, halive, hpinned, hpwr, hretry]

end

theorem leNat_byte (v : Byte) : leNat [v, 0, 0, 0] = v.toNat := by simp [leNat]

theorem wd_byte (v : Byte) : (wd v.toNat).extractLsb' 0 8 = v := by
  rw [wd, BitVec.ofNat_toNat, ← BitVec.setWidth_eq_extractLsb' (by decide), BitVec.setWidth_setWidth_of_le _ (by decide),
    BitVec.setWidth_eq]

theorem svcTransaction_refused : Claims.RegisterMapAndService.svcTransaction_refused :=
  fun _ _ bs halive hpinned hpwr hretry h4 => ⟨_, exec_svcTransaction_unaligned halive hpinned hpwr hretry h4 bs, rfl⟩

theorem svcTransaction_alertMask : Claims.RegisterMapAndService.svcTransaction_alertMask := by
  intro s v halive hpinned hpwr hretry hbays hheld hsup
  have hw : s.tryWrite 0 0x204 (wd v.toNat) 0xF .service = some (s.modIdent fun y => { y with alertMask := v }) := by
    rw [State.tryWrite_identity hheld (by decide) (fun _ => rfl)]
    exact congrArg (fun m => some (s.modIdent fun y => { y with alertMask := m })) (wd_byte v)
  have hd := State.writeWord_done halive (by decide) (State.fencedAt_identity hsup (by decide)) hw
  rw [← leNat_byte v] at hd
  have he := exec_svcTransaction_word halive hpinned hpwr hretry rfl (by decide) hbays rfl hd
  exact ⟨_, he, rfl, rfl, rfl, rfl⟩

theorem svcAlertClear_done : Claims.RegisterMapAndService.svcAlertClear_done :=
  fun _ v halive hpinned hpwr hretry => ⟨_, exec_svcAlertClear halive hpinned hpwr hretry v, rfl⟩

/-! ### JTAG -/

/-- The state once instruction `op` is current at the port of a bay. -/
def State.irUpdated (s : State) (b : BayNo) (op : JtagOp) : State :=
  s.modBay b fun y => { y with jtag := { ir := op, pinsOff := y.jtag.pinsOff || op.takesPins } }

theorem State.irUpdated_jtag (s : State) (b : BayNo) (op : JtagOp) :
    ((s.irUpdated b op).bay b).jtag = { ir := op, pinsOff := (s.bay b).jtag.pinsOff || op.takesPins } := by
  rw [State.irUpdated, State.bay_modBay]

theorem jtagUpdateIr_pins : Claims.RegisterMapAndService.jtagUpdateIr_pins := by
  intro s b op hpresent hop
  have hj := s.irUpdated_jtag b op
  have he : exec (.jtagUpdateIr b op) s =
      .next (if op = .idcode then (s.irUpdated b op).emit (.packet "IDCODE" b.val [(s.irUpdated b op).idcode])
        else s.irUpdated b op) := by
    show execJtagUpdateIr b op s = _
    simp [execJtagUpdateIr, State.irUpdated, hpresent, hop]
  refine ⟨_, he, ?_⟩
  split <;> exact ⟨congrArg Jtag.ir hj, congrArg Jtag.pinsOff hj, rfl⟩

theorem jtagUpdateIr_fuse : Claims.RegisterMapAndService.jtagUpdateIr_fuse := by
  intro s b hfuse
  refine ⟨s, ?_, rfl⟩
  show execJtagUpdateIr b .debug s = _
  simp [execJtagUpdateIr, hfuse]

theorem jtagTestLogicReset_done : Claims.RegisterMapAndService.jtagTestLogicReset_done := by
  intro s b hpresent
  refine ⟨_, ?_, rfl⟩
  show execJtagTestLogicReset b s = _
  simp [execJtagTestLogicReset, hpresent]

end Sys2Proof.Machine

namespace Sys2Proof
open Sys2Proof.Machine

/-- Settles O39: a write of a word of the headland is what the slot or the capture aperture makes of it once no fence meets it. -/
theorem registerMapAndService : Obligations.RegisterMapAndService :=
  ⟨registerWrite_scratch, registerWrite_bytes, capturePut_read, registerWrite_capture, svcTransaction_refused,
    svcTransaction_alertMask, svcAlertClear_done, jtagUpdateIr_pins, jtagUpdateIr_fuse, jtagTestLogicReset_done⟩

end Sys2Proof
end

section
/-! The recorder of a bay: what reads of it return after a change, and when a start is requested or takes effect. -/
namespace Sys2Proof.Machine

/-! ### The recorder after a change -/

@[simp] theorem State.modRec_recd (s : State) (b : BayNo) (f : Recorder → Recorder) : (s.modRec b f).recd b = f (s.recd b) :=
  s.modRec_bay_recorder_self b f

@[simp] theorem State.event_recd (s : State) (b : BayNo) (code : Nat) (p : List Word) (done : Bool) (c : BayNo) :
    (s.event b code p done).recd c = s.recd c := s.event_bay_recorder b code p done c

@[simp] theorem State.complete_recd (s : State) (op : Nat) (tag : Word) (status : Nat) (detail : Word) (t : Stamp) (c : BayNo) :
    (s.complete op tag status detail t).recd c = s.recd c := s.event_recd ..

@[simp] theorem State.reach_recd (s : State) (t : Stamp) (c : BayNo) : (s.reach t).recd c = s.recd c := s.reach_bay_recorder t c

/-- The same change of the recorder in each bay of a list without repeats. -/
theorem State.eachBay_modRec_recd (s : State) (f : Recorder → Recorder) {bs : List BayNo} (h : bs.Nodup) (c : BayNo) :
    (s.eachBay bs fun u b => u.modRec b f).recd c = if c ∈ bs then f (s.recd c) else s.recd c := by
  have hbay := State.eachBay_bay (fun _ y => { y with recorder := f y.recorder }) c bs h s
  exact (congrArg Bay.recorder hbay).trans (apply_ite Bay.recorder ..)

/-! ### A session begins (R489, R490) -/

/-- A new span changes nothing but the span in progress. -/
theorem State.openSpan_recd (s : State) (b : BayNo) (cont first : Bool) :
    ∃ e, (s.openSpan b cont first).recd b = { s.recd b with span := some e } := ⟨_, s.modRec_recd b _⟩

/-- Once a session has begun the bay records, with NEW from extent offset 0 and with an empty log. -/
theorem State.beginSession_recd (s : State) (b : BayNo) (fresh : Bool) :
    ((s.beginSession b fresh).recd b).state = .recording ∧
    ((s.beginSession b fresh).recd b).pos = (if fresh then 0 else (s.recd b).pos) ∧
    ((s.beginSession b fresh).recd b).log = (if fresh then [] else (s.recd b).log) := by
  rw [State.beginSession, State.event_recd]
  obtain ⟨e, he⟩ := State.openSpan_recd (s.modRec b _) b false true
  rw [he, State.modRec_recd]
  cases fresh <;> exact ⟨rfl, rfl, rfl⟩

/-! ### REC_START_EFFECT (R490) -/

theorem exec_recStartEffect (b : BayNo) (s : State) : exec (.recStartEffect b) s = execRecStartEffect b s := (rfl)

theorem exec_recStartEffect_begins {s : State} {b : BayNo} {r : StartReq} (hreq : (s.recd b).startReq = some r)
    (halive : s.alive b = true) (hports : (s.bay b).pwr.ports = true) (hstart : s.startable b r.fresh = true) :
    exec (.recStartEffect b) s = .next ((s.reach r.due).beginSession b r.fresh) := by
  simp [exec_recStartEffect, execRecStartEffect, hreq, halive, hports, hstart]

theorem exec_recStartEffect_ignored {s : State} {b : BayNo} {r : StartReq} (hreq : (s.recd b).startReq = some r)
    (hstart : s.startable b r.fresh = false) : exec (.recStartEffect b) s = .next s := by
  simp [exec_recStartEffect, execRecStartEffect, hreq, hstart]

/-! ### REC_START (R490) -/

theorem exec_recStart (tag : Word) (mask : BitVec 8) (fresh erase : Bool) (t : Stamp) (s : State) :
    exec (.recStart tag mask fresh erase t) s = execRecStart tag mask fresh erase t s := (rfl)

theorem State.ringCommand_of_taken {s u : State} (h : s.takeCommand = some u) (f : State → State) :
    s.ringCommand f = .next (f u) := by rw [State.ringCommand, h]

theorem stampLt_irrefl (t : Stamp) : stampLt t t = false := by simp [stampLt, stampDiff]

/-- The bays that a mask selects, in number order. -/
def selectedBays (mask : BitVec 8) : List BayNo := allBays.filter fun b => inMask mask.toNat b.val

theorem mem_selectedBays (mask : BitVec 8) (b : BayNo) : b ∈ selectedBays mask ↔ inMask mask.toNat b.val = true := by
  simp [selectedBays, mem_allBays]

theorem selectedBays_nodup (mask : BitVec 8) : (selectedBays mask).Nodup := allBays_nodup.filter _

theorem selectedBays_one (b : BayNo) : selectedBays (BitVec.ofNat 8 (2 ^ b.val)) = [b] := by revert b; decide

/-- A bay cannot take the request of a start: it is lost or absent, not in a state to start, or already has a request. -/
def State.startBusy (s : State) (b : BayNo) (fresh : Bool) : Bool :=
  !s.alive b || !s.startable b fresh || (s.recd b).startReq.isSome

/-- The answer of a taken REC_START in RUN that gives no stamp, with ERASE only beside NEW: BUSY, or a request in each bay selected. -/
theorem exec_recStart_asap {s u : State} (htake : s.takeCommand = some u) (hrun : u.img.state = .run) (tag : Word) (mask : BitVec 8)
    {fresh erase : Bool} (harg : (erase && !fresh) = false) :
    exec (.recStart tag mask fresh erase 0) s = .next (
      if (selectedBays mask).any (u.startBusy · fresh) then u.complete 5 tag stBusy 0 u.now
      else (u.eachBay (selectedBays mask) fun v c =>
        v.modRec c fun y => { y with startReq := some { tag := tag, due := u.epochLead, fresh := fresh, erase := erase } }).complete
          5 tag stOk 0 u.epochLead) := by
  rw [exec_recStart, execRecStart, State.ringCommand_of_taken htake]
  simp only [hrun, ne_eq, not_true_eq_false, if_true, if_false, stampLt_irrefl, harg, Bool.or_self, Bool.false_eq_true]
  rfl

end Sys2Proof.Machine
end

section
/-! The clauses of FullRecorder: how a linear recording becomes FULL, and REC_START with NEW as the way out (R493, log entry 60). -/
namespace Sys2Proof.Machine

/-! ### A record at the extent end, and in FULL -/

theorem State.recFull_state (s : State) (b : BayNo) (v : Volume) : ((s.recFull b v).recd b).state = .full := by
  rw [State.recFull, State.event_recd, State.modRec_recd]

/-- A record without a place makes the bay FULL and is discarded there. -/
theorem State.recTake_of_noPlace {s : State} {b : BayNo} {r : Rec} {v : Volume} (hrec : (s.recd b).state = .recording)
    (hvol : (s.recd b).volume = some v) (hstop : (s.recd b).stopping = false) (hplace : s.recPlace b v r.bytes = none) :
    s.recTake b r = (s.recFull b v).modRec b fun y => { y with discards := y.discards + 1 } := by
  simp [State.recTake, hrec, hvol, hstop, hplace]

theorem recTake_full : Claims.FullRecorder.recTake_full := by
  intro s b r v hrec hvol hstop _ hplace
  rw [State.recTake_of_noPlace hrec hvol hstop hplace, State.modRec_recd]
  exact s.recFull_state b v

theorem recTake_fullTold : Claims.FullRecorder.recTake_fullTold :=
  fun _ _ _ _ hrec hvol hstop _ hplace => ⟨_, State.recTake_of_noPlace hrec hvol hstop hplace⟩

theorem recTake_fullDiscards : Claims.FullRecorder.recTake_fullDiscards := by
  intro s b r hfull
  simp [State.recTake, hfull]

/-! ### Starting a bay that is FULL -/

/-- A FULL bay starts with NEW only. -/
theorem State.startable_of_full {s : State} {b : BayNo} (h : (s.recd b).state = .full) (fresh : Bool) : s.startable b fresh = fresh := by
  simp [State.startable, h]

theorem recStart_fullBusy : Claims.FullRecorder.recStart_fullBusy := by
  intro s u tag mask b htake hrun hmask hfull
  have hb : u.startBusy b false = true := by simp [State.startBusy, State.startable_of_full hfull]
  have hany : (selectedBays mask).any (u.startBusy · false) = true :=
    List.any_eq_true.mpr ⟨b, (mem_selectedBays mask b).mpr hmask, hb⟩
  exact ⟨_, (exec_recStart_asap htake hrun tag mask rfl).trans (by rw [if_pos hany]), rfl⟩

theorem recStart_fullNew : Claims.FullRecorder.recStart_fullNew := by
  intro s u tag b erase htake hrun halive hfull hnone
  have hany : ¬ (selectedBays (BitVec.ofNat 8 (2 ^ b.val))).any (u.startBusy · true) = true := by
    rw [selectedBays_one]
    simp [State.startBusy, State.startable_of_full hfull, halive, hnone]
  refine ⟨_, (exec_recStart_asap htake hrun tag _ (Bool.and_false erase)).trans (by rw [if_neg hany]), ?_⟩
  rw [State.complete_recd, State.eachBay_modRec_recd _ _ (selectedBays_nodup _), selectedBays_one, if_pos List.mem_cons_self]

theorem recStartEffect_full : Claims.FullRecorder.recStartEffect_full := by
  intro s b r halive hreq hports hfresh hfull
  have he := exec_recStartEffect_begins hreq halive hports ((State.startable_of_full hfull r.fresh).trans hfresh)
  obtain ⟨hstate, hpos, hlog⟩ := (s.reach r.due).beginSession_recd b r.fresh
  exact ⟨_, he, hstate, hpos.trans (if_pos hfresh), hlog.trans (if_pos hfresh)⟩

theorem recStartEffect_fullKept : Claims.FullRecorder.recStartEffect_fullKept :=
  fun s _ r hreq hfresh hfull => ⟨s, exec_recStartEffect_ignored hreq ((State.startable_of_full hfull r.fresh).trans hfresh), rfl⟩

end Sys2Proof.Machine

namespace Sys2Proof
open Sys2Proof.Machine

/-- Settles O42: a record without a place is discarded in the FULL bay it leaves, and a FULL bay can start with NEW only. -/
theorem fullRecorder : Obligations.FullRecorder :=
  ⟨recTake_full, recTake_fullTold, recTake_fullDiscards, recStart_fullBusy, recStart_fullNew, recStartEffect_full,
    recStartEffect_fullKept⟩

end Sys2Proof
end

section
/-! A lane of a bay: what reads of it return after a change, and what the shared operations of the lanes do to it. -/
namespace Sys2Proof.Machine

/-! ### A lane after a change -/

@[simp] theorem State.modLane_lane (s : State) (b : BayNo) (k : Fin 24) (f : Lane → Lane) :
    (s.modLane b k f).lane b k = f (s.lane b k) := by
  simp [State.lane]

@[simp] theorem State.modDir_lane (s : State) (b : BayNo) (k : Fin 24) (tx : Bool) (f : LaneDir → LaneDir) :
    (s.modDir b k tx f).lane b k =
      if tx then { s.lane b k with tx := f (s.lane b k).tx } else { s.lane b k with rx := f (s.lane b k).rx } :=
  s.modLane_lane b k _

@[simp] theorem State.event_lane (s : State) (b : BayNo) (code : Nat) (p : List Word) (done : Bool) (c : BayNo) (k : Fin 24) :
    (s.event b code p done).lane c k = s.lane c k :=
  congrArg (fun l : LneBay => l.lanes[k]) (s.event_bay_lne b code p done c)

@[simp] theorem State.emit_lane (s : State) (o : Output) (b : BayNo) (k : Fin 24) : (s.emit o).lane b k = s.lane b k := (rfl)

theorem State.modLane_modLane (s : State) (b : BayNo) (k : Fin 24) (f g : Lane → Lane) :
    (s.modLane b k f).modLane b k g = s.modLane b k fun l => g (f l) := by
  simp [State.modLane, State.modBay_modBay]

/-! ### The use and the modulation of a lane, which no change of it touches (R520, R525) -/

@[simp] theorem State.modLane_testQuad (s : State) (b : BayNo) (k : Fin 24) (f : Lane → Lane) :
    (s.modLane b k f).testQuad b k = s.testQuad b k := (rfl)

@[simp] theorem State.modLane_claimOf (s : State) (b : BayNo) (k : Fin 24) (f : Lane → Lane) :
    (s.modLane b k f).claimOf b k = s.claimOf b k := (rfl)

@[simp] theorem State.modLane_lanePam4 (s : State) (b : BayNo) (k : Fin 24) (f : Lane → Lane) :
    (s.modLane b k f).lanePam4 b k = s.lanePam4 b k := by
  simp [State.lanePam4, State.laneRate, State.lanePowered, State.laneUsed]

/-! ### BITS brought up to now (R541) -/

/-- Bringing BITS up to now changes the count, the part of a bit and the moment counted from, and nothing else of the lane. -/
theorem State.accrue_eq (s : State) (b : BayNo) (k : Fin 24) :
    ∃ n r, s.accrue b k = s.modLane b k fun l => { l with mark := s.nowAt b, rem := r, bits := n } := by
  unfold State.accrue
  extract_lets l t
  split
  · exact ⟨_, _, rfl⟩
  · exact ⟨l.bits, l.rem, rfl⟩

/-! ### The checker (R539, R540) -/

/-- The checker runs by LNE_Lk_TEST, by what it has taken and by the receiver. -/
theorem State.chkRuns_modLane (s : State) (b : BayNo) (k : Fin 24) {f : Lane → Lane} (htest : (f (s.lane b k)).test = (s.lane b k).test)
    (htaken : (f (s.lane b k)).rxTaken = (s.lane b k).rxTaken) (hrx : (f (s.lane b k)).rx = (s.lane b k).rx) :
    (s.modLane b k f).chkRuns b k = s.chkRuns b k := by
  simp [State.chkRuns, Lane.rxPrbs, Lane.chkCode, htest, htaken, hrx]

/-- Whether the bits at the pin agree with the pattern depends on LNE_Lk_TEST alone of the lane. -/
theorem State.locksOn_modLane (s : State) (b : BayNo) (k : Fin 24) {f : Lane → Lane} (htest : (f (s.lane b k)).test = (s.lane b k).test)
    (rx : List Bool) : (s.modLane b k f).locksOn b k rx = s.locksOn b k rx := by
  simp [State.locksOn, State.seenBits, Lane.chkCode, htest]

theorem State.reseed_of_idle {s : State} {b : BayNo} {k : Fin 24} (h : s.chkRuns b k = false) (locks : Bool) :
    s.reseed b k locks = s := by
  simp [State.reseed, h]

/-- A running checker that seeds again changes its lock, and BITS is brought up to now. -/
theorem State.reseed_of_runs {s : State} {b : BayNo} {k : Fin 24} (h : s.chkRuns b k = true) (locks : Bool) :
    ∃ n r, s.reseed b k locks =
      s.modLane b k fun l => { l with mark := s.nowAt b, rem := r, bits := n, chk := locks && l.cdr } := by
  obtain ⟨n, r, haccrue⟩ := s.accrue_eq b k
  exact ⟨n, r, by simp [State.reseed, h, haccrue, State.modLane_modLane]⟩

/-- A checker that was left unlocked and seeds from the bits at the pin is locked where it runs on a locked receiver and they agree. -/
theorem State.reseed_locks {s : State} {b : BayNo} {k : Fin 24} (rx : List Bool) (hchk : (s.lane b k).chk = false) :
    ((s.reseed b k (s.locksOn b k rx)).lane b k).chk =
      ((s.reseed b k (s.locksOn b k rx)).locksOn b k rx && (s.lane b k).cdr && (s.reseed b k (s.locksOn b k rx)).chkRuns b k) := by
  cases hrun : s.chkRuns b k with
  | false => rw [State.reseed_of_idle hrun, hrun, hchk, Bool.and_false]
  | true =>
    obtain ⟨n, r, h⟩ := State.reseed_of_runs hrun (s.locksOn b k rx)
    rw [h, State.locksOn_modLane _ _ _ rfl, State.chkRuns_modLane _ _ _ rfl rfl rfl, hrun, State.modLane_lane, Bool.and_true]

theorem State.reseed_test (s : State) (b : BayNo) (k : Fin 24) (locks : Bool) :
    ((s.reseed b k locks).lane b k).test = (s.lane b k).test := by
  cases hrun : s.chkRuns b k with
  | false => rw [State.reseed_of_idle hrun]
  | true =>
    obtain ⟨n, r, h⟩ := State.reseed_of_runs hrun locks
    rw [h, State.modLane_lane]

/-! ### The pattern logic and the lane's port (R543) -/

theorem State.takeLane_of_testQuad {s : State} {b : BayNo} {k : Fin 24} (h : s.testQuad b k = true) : s.takeLane b k = s := by
  simp [State.takeLane, h]

/-- Taking a lane from its port or giving it back leaves its directions, its signal and its lock. -/
theorem State.takeLane_lane (s : State) (b : BayNo) (k : Fin 24) :
    ((s.takeLane b k).lane b k).tx = (s.lane b k).tx ∧ ((s.takeLane b k).lane b k).rx = (s.lane b k).rx ∧
    ((s.takeLane b k).lane b k).signal = (s.lane b k).signal ∧ ((s.takeLane b k).lane b k).cdr = (s.lane b k).cdr := by
  obtain ⟨n, r, haccrue⟩ := s.accrue_eq b k
  unfold State.takeLane
  dsimp only
  rw [haccrue, State.modLane_modLane]
  split
  · exact ⟨rfl, rfl, rfl, rfl⟩
  · split <;> simp

theorem State.lostLane_of_unclaimed {s : State} {b : BayNo} {k : Fin 24} (h : s.claimOf b k = none) : s.lostLane b k = s := by
  simp [State.lostLane, h]

@[simp] theorem State.tellPattern_lane (s old : State) (b : BayNo) (k : Fin 24) :
    (s.tellPattern b k old).lane b k = s.lane b k := by
  unfold State.tellPattern
  split <;> rfl

/-- On a TEST lane LNE_Lk_TEST takes any value, and the checker is left unlocked. -/
theorem State.setTest_of_testQuad {s : State} {b : BayNo} {k : Fin 24} (ht : s.testQuad b k = true) (hc : s.claimOf b k = none)
    (v : BitVec 10) : ∃ n r, s.setTest b k v =
      ((s.modLane b k fun l => { l with mark := s.nowAt b, rem := r, bits := n, test := v, chk := false }).tellPattern b k s, true) := by
  obtain ⟨n, r, haccrue⟩ := s.accrue_eq b k
  refine ⟨n, r, ?_⟩
  have hctrl : s.controlLane b k = false := by simp [State.controlLane, hc]
  simp [State.setTest, ht, hc, hctrl, haccrue, State.takeLane_of_testQuad, State.lostLane_of_unclaimed, State.modLane_modLane]

/-! ### A direction of a lane (R544 to R546) -/

/-- A host request acts on one direction of a lane of a TEST quad. -/
theorem State.hostSleep_lane {s : State} {b : BayNo} {k : Fin 24} (hp : s.lanePowered b k = true) (ht : s.testQuad b k = true) (tx : Bool)
    (f : LaneDir → LaneDir) : ((s.hostSleep b k tx f).lane b k).dir tx = f ((s.lane b k).dir tx) ∧
      ((s.hostSleep b k tx f).lane b k).dir (!tx) = (s.lane b k).dir !tx := by
  obtain ⟨n, r, haccrue⟩ := s.accrue_eq b k
  rw [State.hostSleep, if_pos (by simp [hp, ht]), haccrue, State.modDir_lane, State.modLane_lane]
  cases tx <;> exact ⟨rfl, rfl⟩

end Sys2Proof.Machine
end

section
/-! The clauses of LaneControl: the lock, the counters, the sleep and the pattern logic of a lane. -/
namespace Sys2Proof.Machine

/-! ### The meanings of the commands -/

theorem exec_laneLockLost (b : BayNo) (k : Fin 24) (signal : Bool) (s : State) :
    exec (.laneLockLost b k signal) s = execLaneLockLost b k signal s := (rfl)
theorem exec_eyeMeasure (b : BayNo) (k : Fin 24) (v : BitVec 8) (h : BitVec 6) (s : State) :
    exec (.eyeMeasure b k v h) s = execEyeMeasure b k v h s := (rfl)
theorem exec_laneErrRead (b : BayNo) (k : Fin 24) (errs losses : Nat) (s : State) :
    exec (.laneErrRead b k errs losses) s = execLaneErrRead b k errs losses s := (rfl)
theorem exec_laneClear (b : BayNo) (k : Fin 24) (s : State) : exec (.laneClear b k) s = execLaneClear b k s := (rfl)
theorem exec_laneTxSleep (b : BayNo) (k : Fin 24) (s : State) :
    exec (.laneTxSleep b k) s = .next (s.hostSleep b k true LaneDir.askSleep) := (rfl)
theorem exec_laneRxSleep (b : BayNo) (k : Fin 24) (s : State) :
    exec (.laneRxSleep b k) s = .next (s.hostSleep b k false LaneDir.askSleep) := (rfl)
theorem exec_laneTxWake (b : BayNo) (k : Fin 24) (s : State) :
    exec (.laneTxWake b k) s = .next (s.hostSleep b k true LaneDir.askWake) := (rfl)
theorem exec_laneRxWake (b : BayNo) (k : Fin 24) (s : State) :
    exec (.laneRxWake b k) s = .next (s.hostSleep b k false LaneDir.askWake) := (rfl)
theorem exec_laneSleepDone (b : BayNo) (k : Fin 24) (tx : Bool) (s : State) :
    exec (.laneSleepDone b k tx) s = execLaneSleepDone b k tx s := (rfl)
theorem exec_laneTxWakeDone (b : BayNo) (k : Fin 24) (s : State) : exec (.laneTxWakeDone b k) s = execLaneTxWakeDone b k s := (rfl)
theorem exec_laneRxWakeDone (b : BayNo) (k : Fin 24) (rx : List Bool) (s : State) :
    exec (.laneRxWakeDone b k rx) s = execLaneRxWakeDone b k rx s := (rfl)
theorem exec_laneSignalDetect (b : BayNo) (k : Fin 24) (s : State) :
    exec (.laneSignalDetect b k) s = execLaneSignalDetect b k s := (rfl)
theorem exec_laneTestWrite (b : BayNo) (k : Fin 24) (v : BitVec 10) (rx : List Bool) (s : State) :
    exec (.laneTestWrite b k v rx) s = execLaneTestWrite b k v rx s := (rfl)
theorem exec_laneResync (b : BayNo) (k : Fin 24) (rx : List Bool) (s : State) :
    exec (.laneResync b k rx) s = .next (s.reseed b k (s.locksOn b k rx)) := (rfl)
theorem exec_errInject (b : BayNo) (k : Fin 24) (s : State) : exec (.errInject b k) s = execErrInject b k s := (rfl)

/-! ### LANE_LOCK_LOST (R550, R553) -/

/-- A receiver loses its lock, which is counted; the loss of one that serves a running port is marked as told. -/
def State.loseLock (s : State) (b : BayNo) (k : Fin 24) (signal : Bool) : State :=
  (s.accrue b k).modLane b k fun l =>
    { l with
      cdr := false, chk := false, signal := signal, eyeValid := false, cdrLosses := l.cdrLosses + 1
      lockTold := l.lockTold || l.inPort }

/-- Losing the lock raises nothing by itself, and leaves nothing of the lane but its counters and what the lock held. -/
theorem State.loseLock_eq (s : State) (b : BayNo) (k : Fin 24) (signal : Bool) :
    ∃ n r, s.loseLock b k signal = s.modLane b k fun l =>
      { l with
        mark := s.nowAt b, rem := r, bits := n, cdr := false, chk := false, signal := signal, eyeValid := false
        cdrLosses := l.cdrLosses + 1, lockTold := l.lockTold || l.inPort } := by
  obtain ⟨n, r, haccrue⟩ := s.accrue_eq b k
  exact ⟨n, r, by rw [State.loseLock, haccrue, State.modLane_modLane]⟩

theorem exec_laneLockLost_untold {s : State} {b : BayNo} {k : Fin 24} (hp : s.lanePowered b k = true) (hcdr : (s.lane b k).cdr = true)
    (hport : (s.lane b k).inPort = true) (htold : (s.lane b k).lockTold = false) (signal : Bool) :
    exec (.laneLockLost b k signal) s = .next ((s.loseLock b k signal).event b 0x0E01 [wd k.val]) := by
  rw [exec_laneLockLost, execLaneLockLost]
  simp [hp, hcdr, hport, htold, State.loseLock]

theorem laneLockLost_told : Claims.LaneControl.laneLockLost_told := by
  intro s b k signal hp hcdr hport htold
  refine ⟨_, exec_laneLockLost_untold hp hcdr hport htold signal, ?_⟩
  obtain ⟨n, r, hlose⟩ := s.loseLock_eq b k signal
  rw [hlose, State.event_lane, State.modLane_lane]
  exact ⟨rfl, rfl, by simp [hport], rfl, _, rfl, rfl, rfl⟩

/-! ### EYE_MEASURE, LANE_ERR_READ and LANE_CLEAR (R531, R540 to R542) -/

theorem eyeMeasure_done : Claims.LaneControl.eyeMeasure_done := fun s b k v h hp hawake hcdr =>
  ⟨_, by simp [exec_eyeMeasure, execEyeMeasure, hp, hawake, hcdr], rfl⟩

theorem laneErrRead_latches : Claims.LaneControl.laneErrRead_latches := by
  intro s b k errs losses hp hcounts
  obtain ⟨n, r, haccrue⟩ := s.accrue_eq b k
  refine ⟨_, (exec_laneErrRead b k errs losses s).trans (if_neg (by simp [hp])), ?_⟩
  simp [hcounts, haccrue]

theorem laneClear_done : Claims.LaneControl.laneClear_done := fun s b k hp =>
  ⟨_, (exec_laneClear b k s).trans (if_neg (by simp [hp])), rfl⟩

/-! ### Sleep and wake requests (R544 to R546, R548) -/

theorem laneTxSleep_enters : Claims.LaneControl.laneTxSleep_enters := by
  intro s b k hp ht htx
  obtain ⟨hdir, hother⟩ := State.hostSleep_lane hp ht true LaneDir.askSleep
  exact ⟨_, exec_laneTxSleep b k s, hdir.trans (congrArg LaneDir.askSleep htx), hother⟩

theorem laneRxSleep_waits : Claims.LaneControl.laneRxSleep_waits := fun s b k hp ht hrx =>
  ⟨_, exec_laneRxSleep b k s, (State.hostSleep_lane hp ht false LaneDir.askSleep).1.trans (congrArg LaneDir.askSleep hrx)⟩

theorem laneTxWake_waits : Claims.LaneControl.laneTxWake_waits := fun s b k hp ht htx =>
  ⟨_, exec_laneTxWake b k s, (State.hostSleep_lane hp ht true LaneDir.askWake).1.trans (congrArg LaneDir.askWake htx)⟩

theorem laneRxWake_begins : Claims.LaneControl.laneRxWake_begins := fun s b k hp ht hrx =>
  ⟨_, exec_laneRxWake b k s, (State.hostSleep_lane hp ht false LaneDir.askWake).1.trans (congrArg LaneDir.askWake hrx)⟩

/-! ### The end of a sleep entry or of a wake, and a signal at a sleeping receiver (R544, R546 to R548) -/

theorem laneSleepDone_rx : Claims.LaneControl.laneSleepDone_rx := by
  intro s b k halive hentering
  obtain ⟨n, r, haccrue⟩ := s.accrue_eq b k
  refine ⟨_, (exec_laneSleepDone b k false s).trans (if_neg (by simp [halive, Lane.dir, hentering])), ?_⟩
  simp [haccrue, LaneDir.reset]

theorem laneTxWakeDone_done : Claims.LaneControl.laneTxWakeDone_done := by
  intro s b k hp hwaking
  refine ⟨_, (exec_laneTxWakeDone b k s).trans (if_neg (by simp [hp, hwaking])), ?_⟩
  obtain ⟨htx, -⟩ := (s.modDir b k true LaneDir.woken).takeLane_lane b k
  exact htx.trans (by rw [State.modDir_lane]; rfl)

theorem laneRxWakeDone_done : Claims.LaneControl.laneRxWakeDone_done := by
  intro s b k rx hp hwaking
  refine ⟨_, (exec_laneRxWakeDone b k rx s).trans (if_neg (by simp [hp, hwaking])), ?_⟩
  obtain ⟨-, hrx, hsignal, hcdr⟩ := State.takeLane_lane
    ((s.modDir b k false LaneDir.woken).modLane b k fun l => { l with signal := true, cdr := true, mark := s.nowAt b, lockAt := s.nowAt b }) b k
  rw [State.modLane_lane] at hrx hsignal hcdr ⊢
  exact ⟨hcdr, hsignal, hrx.trans (by rw [State.modDir_lane]; rfl)⟩

theorem laneSignalDetect_auto : Claims.LaneControl.laneSignalDetect_auto := by
  intro s b k hp hrx hauto
  refine ⟨_, (exec_laneSignalDetect b k s).trans (if_neg (by simp [hp, hrx, LaneDir.reset])), ?_⟩
  rw [if_pos hauto, State.modDir_lane, State.modLane_lane]
  exact ⟨rfl, congrArg LaneDir.askWake hrx⟩

/-! ### The pattern logic (R539, R540, R543) -/

theorem exec_laneTestWrite_acts {s t : State} {b : BayNo} {k : Fin 24} {v : BitVec 10} (hp : s.lanePowered b k = true)
    (hset : s.setTest b k v = (t, true)) (rx : List Bool) :
    exec (.laneTestWrite b k v rx) s = .next (t.reseed b k (t.locksOn b k rx)) := by
  simp [exec_laneTestWrite, execLaneTestWrite, hp, hset]

theorem laneTestWrite_done : Claims.LaneControl.laneTestWrite_done := by
  intro s b k v rx hp ht hc
  obtain ⟨n, r, hset⟩ := State.setTest_of_testQuad ht hc v
  refine ⟨_, exec_laneTestWrite_acts hp hset rx, ?_, ?_⟩
  · rw [State.reseed_test, State.tellPattern_lane, State.modLane_lane]
  · rw [State.reseed_locks rx (by rw [State.tellPattern_lane, State.modLane_lane]), State.tellPattern_lane, State.modLane_lane]

theorem laneTestWrite_forbidden : Claims.LaneControl.laneTestWrite_forbidden := by
  intro s b k v rx hp ht hctrl hallow hv
  have hset : s.setTest b k v = (s, false) := by simp [State.setTest, ht, hctrl, hallow, hv]
  exact ⟨s, by simp [exec_laneTestWrite, execLaneTestWrite, hp, hset], rfl⟩

theorem laneResync_done : Claims.LaneControl.laneResync_done := by
  intro s b k rx hrun
  obtain ⟨n, r, hseed⟩ := State.reseed_of_runs hrun (s.locksOn b k rx)
  refine ⟨_, exec_laneResync b k rx s, ?_⟩
  rw [hseed, State.modLane_lane]
  exact ⟨rfl, rfl⟩

theorem errInject_done : Claims.LaneControl.errInject_done := fun s b k hrun =>
  ⟨_, (exec_errInject b k s).trans (if_pos hrun), rfl⟩

end Sys2Proof.Machine

namespace Sys2Proof
open Sys2Proof.Machine

/-- Settles O44: each command's answer is one update of the lane, with at most an event or a packet after it, and the clauses read it off. -/
theorem laneControl : Obligations.LaneControl :=
  ⟨laneLockLost_told, eyeMeasure_done, laneErrRead_latches, laneClear_done, laneTxSleep_enters, laneRxSleep_waits, laneTxWake_waits,
    laneRxWake_begins, laneSleepDone_rx, laneTxWakeDone_done, laneRxWakeDone_done, laneSignalDetect_auto, laneTestWrite_done,
    laneTestWrite_forbidden, laneResync_done, errInject_done⟩

end Sys2Proof
end

section
/-! One FCLK edge: what it makes of a bay's counter and of what is left of a rejoin's offset (R134, R614). -/
namespace Sys2Proof.Machine

/-! ### The counter of a bay -/

theorem Bay.quieten_tide (y : Bay) (d : Nat) : (y.quieten d).tbs.tide = y.tbs.tide := by
  unfold Bay.quieten
  split <;> rfl

theorem Bay.quieten_removing (y : Bay) (d : Nat) : (y.quieten d).tbs.removing = y.tbs.removing := by
  unfold Bay.quieten
  split <;> rfl

/-- With nothing of a rejoin left, a time only adds to the counter. -/
theorem Bay.advance_of_none {y : Bay} (h : y.tbs.removing = none) (d : Nat) (slew : Int) :
    y.advance d slew = { y with tbs := { y.tbs with tide := y.tbs.tide + BitVec.ofNat 128 d } } := by
  simp only [Bay.advance, h]

/-- A rejoin's offset that lies ahead goes at the slew rate, and the last of it at once. -/
theorem Bay.advance_of_ahead {y : Bay} {r : Int} (h : y.tbs.removing = some r) (hr : 0 ≤ r) (d : Nat) (slew : Int) :
    (y.advance d slew).tbs.removing = some (r - min r (d * slew.toNat / 1000000000000 : Nat)) ∧
      (y.advance d slew).tbs.tide =
        y.tbs.tide + BitVec.ofNat 128 d - BitVec.ofInt 128 (min r (d * slew.toNat / 1000000000000 : Nat)) := by
  simp only [Bay.advance, h, if_pos hr]
  rw [Int.natAbs_of_nonneg hr]
  exact ⟨rfl, rfl⟩

/-! ### The edge -/

/-- The bays as the edge moves their counters, before a period without a grid counts. -/
def State.edged (s : State) : State := { s with bays := s.bays.map fun x => x.advance x.tbs.addend.toNat s.slewMax }

theorem State.edged_bay (s : State) (b : BayNo) : s.edged.bay b = (s.bay b).advance (s.bay b).tbs.addend.toNat s.slewMax := by
  simp [State.edged, State.bay]

theorem State.tick_of_running {s : State} (h : s.running = true) : s.tick = s.edged.quietTime (durOf 1 1280000000) := by
  simp only [State.tick, h, if_true, State.edged]

theorem State.quietTime_of_grid {s : State} (h : s.tbs.grid.running = true) (d : Nat) : s.quietTime d = s := by
  simp only [State.quietTime, h, if_true]

theorem State.quietTime_bay_same {α : Type} (g : Bay → α) (h : ∀ (y : Bay) (d : Nat), g (y.quieten d) = g y) (s : State) (d : Nat)
    (b : BayNo) : g ((s.quietTime d).bay b) = g (s.bay b) := by
  unfold State.quietTime
  split
  · rfl
  · simp [State.bay, h]

theorem State.tick_tide {s : State} (h : s.running = true) (b : BayNo) :
    (s.tick.bay b).tbs.tide = ((s.bay b).advance (s.bay b).tbs.addend.toNat s.slewMax).tbs.tide := by
  rw [State.tick_of_running h, State.quietTime_bay_same (fun y => y.tbs.tide) Bay.quieten_tide, State.edged_bay]

theorem State.tick_removing {s : State} (h : s.running = true) (b : BayNo) :
    (s.tick.bay b).tbs.removing = ((s.bay b).advance (s.bay b).tbs.addend.toNat s.slewMax).tbs.removing := by
  rw [State.tick_of_running h, State.quietTime_bay_same (fun y => y.tbs.removing) Bay.quieten_removing, State.edged_bay]

/-! ### The step -/

theorem step_of_waiting {s : State} (h : s.pending = []) : step s = .next s.tick := by
  simp only [step, h]

theorem step_takes_front : Claims.StepTakesFront.step_takes_front := by
  intro s c rest h
  simp only [step, h]

theorem step_idles : Claims.StepTakesFront.step_idles := by
  intro s b hp hrun hrem
  have hadv : (s.bay b).advance (s.bay b).tbs.addend.toNat s.slewMax =
      { s.bay b with tbs := { (s.bay b).tbs with tide := (s.bay b).tbs.tide + (s.bay b).tbs.addend } } := by
    rw [Bay.advance_of_none hrem, BitVec.ofNat_toNat, BitVec.setWidth_eq]
  refine ⟨s.tick, step_of_waiting hp, by rw [State.tick_tide hrun, hadv], fun hgrid => ?_⟩
  have htick : s.tick = s.edged := (State.tick_of_running hrun).trans (State.quietTime_of_grid (s := s.edged) hgrid _)
  exact ⟨by rw [htick]; rfl, by rw [htick, State.edged_bay, hadv]⟩

theorem step_removes : Claims.StepTakesFront.step_removes := by
  intro s b r hp hrun hrem hr
  obtain ⟨hleft, htide⟩ := Bay.advance_of_ahead hrem hr (s.bay b).tbs.addend.toNat s.slewMax
  refine ⟨s.tick, step_of_waiting hp, (State.tick_removing hrun b).trans hleft, ?_⟩
  rw [State.tick_tide hrun, htide, BitVec.ofNat_toNat, BitVec.setWidth_eq]

theorem step_waits : Claims.StepTakesFront.step_waits := by
  intro s hp hrun
  rw [step_of_waiting hp, State.tick, hrun]
  rfl

/-! ### The frame of a command -/

/-- The parts that are left when some are taken away share none with those. -/
theorem Parts.others_apart (p : Parts) : p.others.apart p = true := by
  simp only [Parts.apart, Parts.others, Bool.not_and_self, Bool.not_false, Bool.and_self]

end Sys2Proof.Machine

namespace Sys2Proof
open Sys2Proof.Machine

/-- Settles O1: `step` looks at the queue, and an edge is one advance of every bay's counter. -/
theorem stepTakesFront : Obligations.StepTakesFront := ⟨step_takes_front, step_idles, step_removes, step_waits⟩

/-- Settles O6: each command leaves any view apart from what it touches, and the view of the other parts is one. -/
theorem commandFrame : Obligations.CommandFrame := fun i _ _ h => view_of_exec h i.touches.others_apart

end Sys2Proof
end

section
/-! Routes of the fabric: the search of `pathOf` against the walks over links that are up (R600 to R602). -/
namespace Sys2Proof.Machine

/-! ### What the search finds -/

/-- One hop of the search: over the link of dimension `d`, then on. -/
theorem pathOf_succ_eq_some {up : BayNo → Nat → Bool} {dims : List Nat} {a b : BayNo} {n : Nat} {p : List Nat} :
    pathOf up dims a b (n + 1) = some p ↔ ∃ l d r p', dims = l ++ d :: r ∧ up a d = true ∧
      pathOf up dims (peerBay a d) b n = some p' ∧ p = d :: p' ∧
      ∀ x ∈ l, up a x = true → pathOf up dims (peerBay a x) b n = none := by
  rw [pathOf, List.findSome?_eq_some_iff]
  constructor
  · rintro ⟨l, d, r, hl, hd, hnone⟩
    split at hd
    · next hup =>
      obtain ⟨p', hp', rfl⟩ := Option.map_eq_some_iff.mp hd
      exact ⟨l, d, r, p', hl, hup, hp', rfl, fun x hx hux => by simpa [hux] using hnone x hx⟩
    · cases hd
  · rintro ⟨l, d, r, p', hl, hup, hp', rfl, hnone⟩
    refine ⟨l, d, r, hl, by simp [hup, hp'], fun x hx => ?_⟩
    split
    · next hux => simp [hnone x hx hux]
    · rfl

theorem State.walk_cons (s : State) (a b : BayNo) (d : Nat) (ds : List Nat) :
    s.walk a (d :: ds) = some b ↔ (d < s.part.log2 ∧ s.d2dUp a d = true) ∧ s.walk (peerBay a d) ds = some b := by
  rw [State.walk]
  split
  · next h => simp [h]
  · next h => simp [h]

/-- What the search finds is a walk of the hops asked for. -/
theorem State.walk_of_pathOf (s : State) (b : BayNo) (n : Nat) (a : BayNo) (p : List Nat)
    (h : pathOf s.d2dUp (List.range s.part.log2) a b n = some p) : s.walk a p = some b ∧ p.length = n := by
  induction n generalizing a p with
  | zero =>
    rw [pathOf] at h
    split at h
    · next hab => cases h; exact ⟨congrArg some hab, rfl⟩
    · cases h
  | succ n ih =>
    obtain ⟨l, d, r, p', hl, hup, hp', rfl, -⟩ := pathOf_succ_eq_some.mp h
    have hd : d < s.part.log2 := List.mem_range.mp (by rw [hl]; exact List.mem_append_right l List.mem_cons_self)
    obtain ⟨hw, hlen⟩ := ih _ _ hp'
    exact ⟨(s.walk_cons ..).mpr ⟨⟨hd, hup⟩, hw⟩, congrArg Nat.succ hlen⟩

/-- Where a walk leads there, the search of its length finds one, and none that the walk is smaller than. -/
theorem State.pathOf_of_walk (s : State) (b : BayNo) (q : List Nat) (a : BayNo) (h : s.walk a q = some b) :
    ∃ p, pathOf s.d2dUp (List.range s.part.log2) a b q.length = some p ∧ ¬ q < p := by
  induction q generalizing a with
  | nil => exact ⟨[], by rw [State.walk] at h; cases h; simp [pathOf], List.lt_irrefl []⟩
  | cons d ds ih =>
    obtain ⟨⟨hd, hup⟩, hw⟩ := (s.walk_cons ..).mp h
    obtain ⟨p', hp', hle⟩ := ih _ hw
    have hsome : (pathOf s.d2dUp (List.range s.part.log2) a b (ds.length + 1)).isSome = true := by
      rw [pathOf, List.findSome?_isSome_iff]
      exact ⟨d, List.mem_range.mpr hd, by simp [hup, hp']⟩
    obtain ⟨p, hp⟩ := Option.isSome_iff_exists.mp hsome
    refine ⟨p, hp, ?_⟩
    obtain ⟨l, e, r, pe, hl, -, hpe, rfl, hnone⟩ := pathOf_succ_eq_some.mp hp
    have hmem : d ∈ l ++ e :: r := hl ▸ List.mem_range.mpr hd
    have hsorted : (l ++ e :: r).Pairwise (· < ·) := hl ▸ List.pairwise_lt_range
    rcases List.mem_append.mp hmem with hdl | hder
    · exact absurd (hnone d hdl hup) (by simp [hp'])
    · rcases List.mem_cons.mp hder with rfl | hdr
      · rw [hp'] at hpe
        cases hpe
        simpa [List.cons_lt_cons_iff] using hle
      · have hed : e < d := (List.pairwise_cons.mp (List.pairwise_append.mp hsorted).2.1).1 d hdr
        simp [List.cons_lt_cons_iff, Nat.not_lt.mpr (Nat.le_of_lt hed), Nat.ne_of_gt hed]

theorem State.route_eq_some {s : State} {a b : BayNo} {p : List Nat} (h : s.route a b = some p) :
    pathOf s.d2dUp (List.range s.part.log2) a b p.length = some p ∧
      ∀ m < p.length, pathOf s.d2dUp (List.range s.part.log2) a b m = none := by
  obtain ⟨l, n, r, hl, hn, hnone⟩ := List.findSome?_eq_some_iff.mp h
  obtain ⟨-, rfl⟩ := s.walk_of_pathOf b n a p hn
  refine ⟨hn, fun m hm => hnone m ?_⟩
  have hsorted : (l ++ p.length :: r).Pairwise (· < ·) := hl ▸ List.pairwise_lt_range
  have h8 : p.length < 8 := List.mem_range.mp (by rw [hl]; exact List.mem_append_right l List.mem_cons_self)
  have hmem : m ∈ l ++ p.length :: r := hl ▸ List.mem_range.mpr (Nat.lt_trans hm h8)
  refine (List.mem_append.mp hmem).resolve_right fun hr => ?_
  rcases List.mem_cons.mp hr with rfl | hr
  · exact Nat.lt_irrefl _ hm
  · exact absurd ((List.pairwise_cons.mp (List.pairwise_append.mp hsorted).2.1).1 m hr) (Nat.lt_asymm hm)

theorem route_is_shortest : Claims.ShortestRoutes.route_is_shortest := by
  intro s a b p h
  obtain ⟨hp, hnone⟩ := State.route_eq_some h
  refine ⟨(s.walk_of_pathOf b _ a p hp).1, fun q hq => ?_⟩
  obtain ⟨p', hp', hle⟩ := s.pathOf_of_walk b q a hq
  refine ⟨Nat.not_lt.mp fun hlt => ?_, fun hlen => ?_⟩
  · rw [hnone _ hlt] at hp'
    cases hp'
  · rw [hlen, hp] at hp'
    cases hp'
    exact hle

/-! ### Walks without a bay met twice -/

/-- The bays that a path meets, its ends included. -/
def bayStops : BayNo → List Nat → List BayNo
  | a, [] => [a]
  | a, d :: ds => a :: bayStops (peerBay a d) ds

theorem bayStops_length (a : BayNo) (q : List Nat) : (bayStops a q).length = q.length + 1 := by
  induction q generalizing a with
  | nil => rfl
  | cons d ds ih => simp [bayStops, ih]

/-- From every bay that a walk meets the rest of the walk leads to its end. -/
theorem State.walk_from_stop (s : State) (b x : BayNo) (q : List Nat) (a : BayNo) (h : s.walk a q = some b) (hx : x ∈ bayStops a q) :
    ∃ q', s.walk x q' = some b ∧ bayStops x q' <:+ bayStops a q := by
  induction q generalizing a with
  | nil =>
    obtain rfl : x = a := List.mem_singleton.mp hx
    exact ⟨[], h, List.suffix_rfl⟩
  | cons d ds ih =>
    rcases List.mem_cons.mp hx with rfl | hx
    · exact ⟨d :: ds, h, List.suffix_rfl⟩
    · obtain ⟨q', hq', hsuf⟩ := ih _ ((s.walk_cons ..).mp h).2 hx
      exact ⟨q', hq', hsuf.trans (List.suffix_cons ..)⟩

/-- Cutting out what lies between two visits of a bay leaves a walk that meets no bay twice. -/
theorem State.walk_nodup (s : State) (b : BayNo) (q : List Nat) (a : BayNo) (h : s.walk a q = some b) :
    ∃ q', s.walk a q' = some b ∧ (bayStops a q').Nodup := by
  induction q generalizing a with
  | nil => exact ⟨[], h, by simp [bayStops]⟩
  | cons d ds ih =>
    obtain ⟨hstep, hw⟩ := (s.walk_cons ..).mp h
    obtain ⟨q', hq', hnd⟩ := ih _ hw
    by_cases ha : a ∈ bayStops (peerBay a d) q'
    · obtain ⟨r, hr, hsuf⟩ := s.walk_from_stop b a q' _ hq' ha
      exact ⟨r, hr, hnd.sublist hsuf.sublist⟩
    · exact ⟨d :: q', (s.walk_cons ..).mpr ⟨hstep, hq'⟩, List.nodup_cons.mpr ⟨ha, hnd⟩⟩

/-- A list without repetition whose elements all stand in another is no longer than that one. -/
theorem length_le_of_nodup {l m : List BayNo} (hl : l.Nodup) (hm : ∀ x ∈ l, x ∈ m) : l.length ≤ m.length := by
  induction l generalizing m with
  | nil => exact Nat.zero_le _
  | cons x r ih =>
    obtain ⟨hx, hr⟩ := List.nodup_cons.mp hl
    have hpos := List.length_pos_of_mem (hm x List.mem_cons_self)
    have hrest := ih (m := m.erase x) hr fun y hy =>
      (List.mem_erase_of_ne (ne_of_mem_of_not_mem hy hx)).mpr (hm y (List.mem_cons_of_mem x hy))
    rw [List.length_erase_of_mem (hm x List.mem_cons_self)] at hrest
    rw [List.length_cons]
    omega

theorem route_exists : Claims.ShortestRoutes.route_exists := by
  intro s a b q h
  obtain ⟨q', hq', hnd⟩ := s.walk_nodup b q a h
  have hlen : q'.length < 8 := by
    have h8 := length_le_of_nodup hnd fun x _ => List.mem_finRange x
    rw [bayStops_length, List.length_finRange] at h8
    exact h8
  obtain ⟨p, hp, -⟩ := s.pathOf_of_walk b q' a hq'
  exact List.findSome?_isSome_iff.mpr ⟨q'.length, List.mem_range.mpr hlen, by simp [hp]⟩

/-! ### Every link up -/

theorem findSome?_congr_of_mem {α β : Type} {f g : α → Option β} {l : List α} (h : ∀ x ∈ l, f x = g x) :
    l.findSome? f = l.findSome? g := by
  induction l with
  | nil => rfl
  | cons x r ih =>
    rw [List.findSome?_cons, List.findSome?_cons, h x List.mem_cons_self, ih fun y hy => h y (List.mem_cons_of_mem x hy)]

/-- A hop stays inside the part. -/
theorem peerBay_lt {a : BayNo} {d k : Nat} (ha : a.val < 2 ^ k) (hd : d < k) : (peerBay a d).val < 2 ^ k :=
  Nat.lt_of_le_of_lt (Nat.mod_le ..) (Nat.xor_lt_two_pow ha (Nat.pow_lt_pow_right (by decide) hd))

/-- The search sees the links of the part and no others. -/
theorem pathOf_of_all_up {up : BayNo → Nat → Bool} {k : Nat} (hup : ∀ (c : BayNo) (d : Nat), c.val < 2 ^ k → d < k → up c d = true)
    (b : BayNo) (n : Nat) (a : BayNo) (ha : a.val < 2 ^ k) :
    pathOf up (List.range k) a b n = pathOf (fun _ _ => true) (List.range k) a b n := by
  induction n generalizing a with
  | zero => rfl
  | succ n ih =>
    rw [pathOf, pathOf]
    refine findSome?_congr_of_mem fun d hd => ?_
    have hd := List.mem_range.mp hd
    rw [hup a d ha hd, ih _ (peerBay_lt ha hd)]

/-- The route between two bays of a part whose links are all up: the bits in which they differ, lowest first (R601). -/
theorem cube_route (k : Fin 4) (a b : BayNo) (ha : a.val < 2 ^ k.val) (hb : b.val < 2 ^ k.val) :
    ((List.range 8).findSome? fun n => pathOf (fun _ _ => true) (List.range k.val) a b n) =
      some ((List.range k.val).filter fun d => (a.val ^^^ b.val).testBit d) := by
  revert k a b
  decide +kernel

theorem Part.log2_le (p : Part) : p.log2 ≤ 3 := by cases p <;> decide

theorem route_all_up : Claims.ShortestRoutes.route_all_up := by
  intro s a b hup ha hb
  have hlog := s.part.log2_le
  have hall : ∀ (c : BayNo) (d : Nat), c.val < 2 ^ s.part.log2 → d < s.part.log2 → s.d2dUp c d = true :=
    fun c d hc hd => hup c ⟨d, by omega⟩ hc hd
  rw [← cube_route ⟨s.part.log2, by omega⟩ a b ha hb]
  exact findSome?_congr_of_mem fun n _ => pathOf_of_all_up hall b n a ha

end Sys2Proof.Machine

namespace Sys2Proof
open Sys2Proof.Machine

/-- Settles O8: the search finds the smallest walk of each length, a walk that meets no bay twice has fewer than eight hops, and with
every link up the search is that of the cube. -/
theorem shortestRoutes : Obligations.ShortestRoutes := ⟨route_is_shortest, route_exists, route_all_up⟩

end Sys2Proof
end

section
/-! The seal keeper: the last signing key (R633), and a seal row during start-up (R630). -/
namespace Sys2Proof.Machine

/-! ### The meanings of the commands -/

theorem exec_revoke (s : State) : exec .revoke s = execRevoke s := (rfl)
theorem exec_sealRowVerified (ok : Bool) (s : State) : exec (.sealRowVerified ok) s = execSealRowVerified ok s := (rfl)

/-! ### The last signing key -/

/-- The end of a service command leaves the fuses, the island and the flash. -/
theorem State.svcDone_lasting (s : State) (op code : Nat) :
    (s.svcDone op code).keeper.fuses = s.keeper.fuses ∧ (s.svcDone op code).keeper.island = s.keeper.island ∧
      (s.svcDone op code).flash = s.flash := by
  unfold State.svcDone
  rw [State.event_keeper_fuses, State.event_keeper_island, State.event_flash]
  exact ⟨rfl, rfl, rfl⟩

theorem exec_revoke_last {s : State} (hready : s.svcReady = true) (hfuse : s.keeper.fuses.metrology = true)
    (hlast : s.keeper.fuses.unrevoked ≤ 1) (hkey : s.keeper.fuses.sign[s.keeper.argSlot].key.isSome = true)
    (hlive : s.keeper.fuses.sign[s.keeper.argSlot].revoked = false) : exec .revoke s = .next (s.svcDone 3 2) := by
  have hslot : s.keeper.fuses.sign[s.keeper.argSlot].key.isNone = false := by simpa [Option.isNone_eq_false_iff] using hkey
  rw [exec_revoke]
  simp [execRevoke, -Fin.getElem_fin, hready, hslot, hlive, hfuse, hlast]

theorem revoke_last : Claims.LastSigningKey.revoke_last := fun s hready hfuse hlast hkey hlive =>
  ⟨_, exec_revoke_last hready hfuse hlast hkey hlive, rfl, s.svcDone_lasting 3 2⟩

/-! ### A seal row before phase 8 -/

/-- A start-up in its first phase with a seal row under way. -/
def rowBeforePhaseEight : State :=
  { State.reset with
    img := { Img.reset with boot := { Img.reset.boot with active := true, phase := 0 } }
    keeper := { Seal.reset with rowPending := some [] } }

/-- From phase 8 on the row is verified (R630): before that the command finds nothing to do. -/
theorem rowBeforePhaseEight_waits (ok : Bool) : exec (.sealRowVerified ok) rowBeforePhaseEight = .next rowBeforePhaseEight := by
  rw [exec_sealRowVerified, execSealRowVerified]
  rfl

theorem not_sealRowVerified_ok : ¬ Claims.SealLogAndTamper.sealRowVerified_ok := by
  intro h
  obtain ⟨t, he, hpending, -⟩ := h rowBeforePhaseEight [] true rfl
  rw [rowBeforePhaseEight_waits] at he
  cases he
  cases hpending

end Sys2Proof.Machine

namespace Sys2Proof
open Sys2Proof.Machine

/-- Settles O52: of the checks of REVOKE, that of the last key comes before the signature and the free slots. -/
theorem lastSigningKey : Obligations.LastSigningKey := revoke_last

/-- Refutes O50: its clause on SEAL_ROW_VERIFIED asks nothing of the start-up phase, and before phase 8 a row under way is not
verified yet (R630): the command leaves it pending. -/
theorem not_sealLogAndTamper : ¬ Obligations.SealLogAndTamper :=
  fun ⟨_, _, _, _, _, _, hrow⟩ => not_sealRowVerified_ok hrow

end Sys2Proof
end

section
/-! Monitor units: what a sample leaves of the unit that takes it and of the others, and the injectors' registers (R737 to R756). -/
namespace Sys2Proof.Machine

/-! ### One unit -/

@[simp] theorem State.modMon_mon (s : State) (b : BayNo) (m : Fin 16) (f : MonUnit → MonUnit) :
    (s.modMon b m f).mon b m = f (s.mon b m) := by
  simp [State.mon]

theorem State.modMon_mon_ne (s : State) (b : BayNo) {m n : Fin 16} (f : MonUnit → MonUnit) (h : m ≠ n) :
    (s.modMon b n f).mon b m = s.mon b m := by
  have hv : n.val ≠ m.val := fun e => h (Fin.ext e.symm)
  simp [State.mon, hv]

@[simp] theorem State.event_mon (s : State) (c : BayNo) (code : Nat) (p : List Word) (done : Bool) (b : BayNo) (m : Fin 16) :
    (s.event c code p done).mon b m = s.mon b m := by
  rw [State.mon, State.event_bay_mon]
  rfl

/-! ### A sample -/

/-- The sample passes HIGH, and the unit watches for that (R741). -/
def State.monAbove (s : State) (b : BayNo) (m : Fin 16) (v : Int) : Bool :=
  (s.fldN Fld.monLimitEn b m.val).testBit 0 && decide (s.monValue b m v > s.fld Fld.monHigh b m.val)

/-- The sample passes LOW, and the unit watches for that (R741). -/
def State.monBelow (s : State) (b : BayNo) (m : Fin 16) (v : Int) : Bool :=
  (s.fldN Fld.monLimitEn b m.val).testBit 1 && decide (s.monValue b m v < s.fld Fld.monLow b m.val)

/-- A unit as a sample leaves it (R739, R741). -/
def State.monSampled (s : State) (b : BayNo) (m : Fin 16) (v : Int) (inj : Bool) (t : Stamp) : MonUnit :=
  let u := s.mon b m
  { (u.take (s.monValue b m v) inj) with
    base := s.monErr b u.conf, sampledAt := t, limitHigh := u.limitHigh || s.monAbove b m v
    limitLow := u.limitLow || s.monBelow b m v, told := u.told || s.monAbove b m v || s.monBelow b m v }

/-- The state with a sample in its unit, before a limit is told. -/
def State.monEntered (s : State) (b : BayNo) (m : Fin 16) (v : Int) (inj : Bool) (t : Stamp) : State :=
  s.modMon b m fun _ => s.monSampled b m v inj t

/-- The words of EV_MON_LIMIT (R741). -/
def State.limitWords (s : State) (b : BayNo) (m : Fin 16) (v : Int) (t : Stamp) : List Word :=
  [wd m.val, Word.ofSigned (s.monValue b m v)] ++ stampWords t

theorem State.monTake_eq (s : State) (b : BayNo) (m : Fin 16) (v : Int) (inj : Bool) (t : Stamp) :
    s.monTake b m v inj t =
      if (s.monAbove b m v || s.monBelow b m v) && !(s.mon b m).told then
        (s.monEntered b m v inj t).event b 0x1801 (s.limitWords b m v t)
      else s.monEntered b m v inj t := (rfl)

/-- A sample that passes an enabled limit of a unit that has not told of one in this epoch is told. -/
theorem State.monTake_tells {s : State} {b : BayNo} {m : Fin 16} {v : Int} (h : s.monAbove b m v = true ∨ s.monBelow b m v = true)
    (hu : (s.mon b m).told = false) (inj : Bool) (t : Stamp) :
    s.monTake b m v inj t = (s.monEntered b m v inj t).event b 0x1801 (s.limitWords b m v t) := by
  rw [State.monTake_eq, if_pos]
  rcases h with h | h <;> simp [h, hu]

theorem State.monTake_silent {s : State} {b : BayNo} {m : Fin 16} {v : Int}
    (h : (s.mon b m).told = true ∨ s.monAbove b m v = false ∧ s.monBelow b m v = false) (inj : Bool) (t : Stamp) :
    s.monTake b m v inj t = s.monEntered b m v inj t := by
  rw [State.monTake_eq, if_neg]
  rcases h with h | ⟨ha, hb⟩
  · simp [h]
  · simp [ha, hb]

/-- The unit of the sample. -/
theorem State.monTake_mon (s : State) (b : BayNo) (m : Fin 16) (v : Int) (inj : Bool) (t : Stamp) :
    (s.monTake b m v inj t).mon b m = s.monSampled b m v inj t := by
  rw [State.monTake_eq]
  split <;> simp [State.monEntered]

/-- What neither the unit of the sample nor an event touches stays. -/
theorem State.monTake_keep {α : Type} (g : State → α) {s : State} {b : BayNo} {m : Fin 16}
    (hm : ∀ f, g (s.modMon b m f) = g s) (he : ∀ (u : State) (p : List Word), g (u.event b 0x1801 p) = g u) (v : Int) (inj : Bool)
    (t : Stamp) : g (s.monTake b m v inj t) = g s := by
  rw [State.monTake_eq]
  split
  · exact (he ..).trans (hm _)
  · exact hm _

theorem State.monTake_mon_ne (s : State) (b : BayNo) {m n : Fin 16} (h : m ≠ n) (v : Int) (inj : Bool) (t : Stamp) :
    (s.monTake b n v inj t).mon b m = s.mon b m :=
  State.monTake_keep (fun u => u.mon b m) (fun f => s.modMon_mon_ne b f h) (fun u _ => u.event_mon ..) v inj t

/-! ### The clauses of MonitorLimits -/

/-- Telling of a limit is the last thing a sample does. -/
theorem State.monTake_told {s : State} {b : BayNo} {m : Fin 16} {v : Int} (h : s.monAbove b m v = true ∨ s.monBelow b m v = true)
    (hu : (s.mon b m).told = false) (inj : Bool) (t : Stamp) :
    ((s.monTake b m v inj t).mon b m).told = true ∧ s.Told (s.monTake b m v inj t) b 0x1801 (s.limitWords b m v t) := by
  refine ⟨?_, s.monEntered b m v inj t, State.monTake_tells h hu inj t, rfl, rfl⟩
  rw [State.monTake_mon]
  rcases h with h | h <;> simp [State.monSampled, h]

theorem monTake_high : Claims.MonitorLimits.monTake_high := fun _ _ _ _ inj a hen hv hu =>
  State.monTake_told (.inl (by simp [State.monAbove, hen, hv])) hu inj a

theorem monTake_low : Claims.MonitorLimits.monTake_low := fun _ _ _ _ inj a hen hv hu =>
  State.monTake_told (.inr (by simp [State.monBelow, hen, hv])) hu inj a

theorem monTake_within : Claims.MonitorLimits.monTake_within := by
  intro s b m v inj a h
  have h' : (s.mon b m).told = true ∨ s.monAbove b m v = false ∧ s.monBelow b m v = false := by
    simpa only [State.monAbove, State.monBelow, ← Bool.not_eq_true, Bool.and_eq_true, decide_eq_true_eq] using h
  rw [State.monTake_silent h']
  refine ⟨rfl, rfl, ?_⟩
  rw [State.monEntered, State.modMon_mon]
  rcases h' with hu | ⟨ha, hb⟩
  · simp [State.monSampled, hu]
  · simp [State.monSampled, ha, hb]

theorem monSample_epoch : Claims.MonitorLimits.monSample_epoch := by
  intro s b m e
  rw [State.monBoundary, State.modMon_mon]

theorem monTake_unchanged : Claims.MonitorLimits.monTake_unchanged := by
  intro s b m v inj a
  rw [State.monTake_mon]
  exact ⟨rfl, rfl, rfl, rfl⟩

end Sys2Proof.Machine

namespace Sys2Proof
open Sys2Proof.Machine

/-- Settles O57: a sample enters its unit whole, and an event follows it exactly where an enabled limit is passed for the first time. -/
theorem monitorLimits : Obligations.MonitorLimits :=
  ⟨monTake_high, monTake_low, monTake_within, monSample_epoch, monTake_unchanged⟩

end Sys2Proof
end

section
/-! The clauses of MonitorsAndInjectors: samples, snapshots, the fault registers and the injectors (R737 to R742, R749, R751, R756). -/
namespace Sys2Proof.Machine

/-! ### The meanings of the commands -/

theorem exec_monSample (b : BayNo) (m : Fin 16) (v : Int) (inj : Bool) (s : State) :
    exec (.monSample b m v inj) s = execMonSample b m v inj s := (rfl)
theorem exec_monSnap (b : BayNo) (mask : BitVec 16) (s : State) : exec (.monSnap b mask) s = execMonSnap b mask s := (rfl)
theorem exec_faultLongestRead (s : State) : exec .faultLongestRead s = execFaultLongestRead s := (rfl)
theorem exec_injKill (v : Word) (s : State) : exec (.injKill v) s = execInjKill v s := (rfl)
theorem exec_ethInjDelayExpire (n : Fin 64) (s : State) : exec (.ethInjDelayExpire n) s = execEthInjDelayExpire n s := (rfl)

/-! ### Samples that a command brings -/

theorem monSample_latency : Claims.MonitorsAndInjectors.monSample_latency := by
  intro s b m v inj hready hq
  refine ⟨_, ?_, rfl⟩
  simp [exec_monSample, execMonSample, hready, hq]

theorem monSample_periodic : Claims.MonitorsAndInjectors.monSample_periodic := by
  intro s b m v inj hready hq
  refine ⟨_, ?_, rfl⟩
  rw [exec_monSample]
  rcases hq with hq | hq | hq | hq <;> simp [execMonSample, hready, hq]

theorem monTake_counts : Claims.MonitorsAndInjectors.monTake_counts := fun _ _ =>
  ⟨rfl, rfl, rfl, (Sparse.get_set ..).trans (if_pos rfl)⟩

/-! ### Samples that what happens in a bay brings -/

@[simp] theorem State.event_claims (s : State) (c : BayNo) (code : Nat) (p : List Word) (done : Bool) (b : BayNo) :
    (s.event c code p done).claims b = s.claims b := by
  simp [State.claims]

@[simp] theorem State.event_quadUse (s : State) (c : BayNo) (code : Nat) (p : List Word) (done : Bool) (b : BayNo) (q : Nat) :
    (s.event c code p done).quadUse b q = s.quadUse b q := by
  simp [State.quadUse]

@[simp] theorem State.event_lanePowered (s : State) (c : BayNo) (code : Nat) (p : List Word) (done : Bool) (b : BayNo) (k : Fin 24) :
    (s.event c code p done).lanePowered b k = s.lanePowered b k := by
  simp only [State.lanePowered, State.laneUsed, State.testQuad, State.claimOf, State.event_quadUse, State.event_claims, State.event_alive,
    State.event_bay_pwr]

@[simp] theorem State.modMon_lanePowered (s : State) (c : BayNo) (n : Fin 16) (f : MonUnit → MonUnit) (b : BayNo) (k : Fin 24) :
    (s.modMon c n f).lanePowered b k = s.lanePowered b k := by
  rw [State.lanePowered, State.modMon_alive, State.modMon_bay_pwr]
  rfl

@[simp] theorem State.event_monReady (s : State) (c : BayNo) (code : Nat) (p : List Word) (done : Bool) (b : BayNo) (m : Fin 16) :
    (s.event c code p done).monReady b m = s.monReady b m := by
  simp [State.monReady, State.monPaused, State.adcGap]

theorem State.modMon_monReady_ne (s : State) (b : BayNo) {m n : Fin 16} (f : MonUnit → MonUnit) (h : m ≠ n) :
    (s.modMon b n f).monReady b m = s.monReady b m := by
  simp [State.monReady, State.monPaused, State.adcGap, State.modMon_mon_ne s b f h]

theorem State.monTake_monReady_ne (s : State) (b : BayNo) {m n : Fin 16} (h : m ≠ n) (v : Int) (inj : Bool) (t : Stamp) :
    (s.monTake b n v inj t).monReady b m = s.monReady b m :=
  State.monTake_keep (fun u => u.monReady b m) (fun f => s.modMon_monReady_ne b f h) (fun u _ => u.event_monReady ..) v inj t

/-- What a unit would hold after a sample, by its settings, the source that it watches and what it holds now. -/
theorem State.monSampled_congr {s u : State} {b : BayNo} {m : Fin 16} {v : Int} (hm : u.mon b m = s.mon b m)
    (hv : u.monValue b m v = s.monValue b m v) (he : ∀ c, u.monErr b c = s.monErr b c)
    (hf : ∀ f, u.fld f b m.val = s.fld f b m.val) (hn : ∀ f, u.fldN f b m.val = s.fldN f b m.val) (inj : Bool) (t : Stamp) :
    u.monSampled b m v inj t = s.monSampled b m v inj t := by
  simp only [State.monSampled, State.monAbove, State.monBelow, hm, hv, he, hf, hn]

/-- An event enters the level of its queue and nothing else that a unit watches. -/
theorem State.event_monSampled {s : State} {b : BayNo} {m : Fin 16} (hq : (s.mon b m).conf.quantity ≠ 1) (c : BayNo) (code : Nat)
    (p : List Word) (done : Bool) (v : Int) (inj : Bool) (t : Stamp) :
    (s.event c code p done).monSampled b m v inj t = s.monSampled b m v inj t := by
  have he : ∀ k, (s.event c code p done).monErr b k = s.monErr b k := by simp [State.monErr]
  refine State.monSampled_congr (by simp) ?_ he (by simp) (by simp) inj t
  simp only [State.monValue, State.event_mon]
  refine congrArg sat32 ?_
  split
  · next h => exact absurd h hq
  all_goals simp [he, State.hkcResult]

theorem State.modMon_monSampled_ne (s : State) (b : BayNo) {m n : Fin 16} (f : MonUnit → MonUnit) (h : m ≠ n) (v : Int) (inj : Bool)
    (t : Stamp) : (s.modMon b n f).monSampled b m v inj t = s.monSampled b m v inj t := by
  have hm := s.modMon_mon_ne b f h
  have he : ∀ k, (s.modMon b n f).monErr b k = s.monErr b k := by simp [State.monErr, State.lane]
  refine State.monSampled_congr hm ?_ he (by simp) (by simp) inj t
  simp [State.monValue, State.hkcResult, hm, he]

/-- Two states in which unit `m` holds the same, is as ready, and would take the same sample of an event at `a`. -/
structure State.MonAlike (s u : State) (b : BayNo) (m : Fin 16) (a : Stamp) : Prop where
  mon : u.mon b m = s.mon b m
  ready : u.monReady b m = s.monReady b m
  sampled : (s.mon b m).conf.quantity ≠ 1 → u.monSampled b m 0 false a = s.monSampled b m 0 false a

theorem State.MonAlike.trans {s u w : State} {b : BayNo} {m : Fin 16} {a : Stamp} (h : s.MonAlike u b m a) (h' : u.MonAlike w b m a) :
    s.MonAlike w b m a :=
  ⟨h'.mon.trans h.mon, h'.ready.trans h.ready, fun hq => (h'.sampled (h.mon ▸ hq)).trans (h.sampled hq)⟩

/-- A sample of another unit. -/
theorem State.monTake_alike (s : State) (b : BayNo) {m n : Fin 16} (h : m ≠ n) (v : Int) (inj : Bool) (t a : Stamp) :
    s.MonAlike (s.monTake b n v inj t) b m a := by
  refine ⟨s.monTake_mon_ne b h v inj t, s.monTake_monReady_ne b h v inj t, fun hq => ?_⟩
  have hentered : (s.monEntered b n v inj t).monSampled b m 0 false a = s.monSampled b m 0 false a := s.modMon_monSampled_ne b _ h ..
  rw [State.monTake_eq]
  split
  · refine (State.event_monSampled ?_ ..).trans hentered
    rwa [State.monEntered, State.modMon_mon_ne s b _ h]
  · exact hentered

/-- One unit's part of `monFeed`. -/
def State.monOffer (s : State) (b : BayNo) (k o : Nat) (a : Stamp) (m : Fin 16) : State :=
  if s.monReady b m && decide ((s.mon b m).conf.quantity = k) && decide ((s.mon b m).conf.object = o) then s.monTake b m 0 false a else s

theorem State.monFeed_eq (s : State) (b : BayNo) (k o : Nat) (a : Stamp) :
    s.monFeed b k o a = (List.finRange 16).foldl (fun u m => u.monOffer b k o a m) s := (rfl)

theorem State.monOffers_alike (b : BayNo) (k o : Nat) (a : Stamp) {m : Fin 16} {ns : List (Fin 16)} (h : m ∉ ns) (s : State) :
    s.MonAlike (ns.foldl (fun u n => u.monOffer b k o a n) s) b m a := by
  refine List.foldlRecOn (motive := fun u => s.MonAlike u b m a) ns _ ⟨rfl, rfl, fun _ => rfl⟩ fun u hu n hn => hu.trans ?_
  have hne : m ≠ n := fun e => h (e ▸ hn)
  unfold State.monOffer
  split
  · exact u.monTake_alike b hne ..
  · exact ⟨rfl, rfl, fun _ => rfl⟩

/-- Of what is offered to the units in turn, one unit keeps what it makes of its own offer. -/
theorem State.monFeed_mon (s : State) (b : BayNo) (k o : Nat) (a : Stamp) (m : Fin 16) :
    ∃ u, s.MonAlike u b m a ∧ (s.monFeed b k o a).mon b m = (u.monOffer b k o a m).mon b m := by
  obtain ⟨l, r, hl⟩ := List.append_of_mem (List.mem_finRange m)
  have hnd := List.nodup_finRange 16
  rw [hl] at hnd
  obtain ⟨-, hr, hlr⟩ := List.nodup_append.mp hnd
  refine ⟨_, State.monOffers_alike b k o a (fun hm => hlr m hm m List.mem_cons_self rfl) s, ?_⟩
  rw [State.monFeed_eq, hl, List.foldl_append, List.foldl_cons]
  exact (State.monOffers_alike b k o a (List.nodup_cons.mp hr).1 _).mon

theorem monFeed_takes : Claims.MonitorsAndInjectors.monFeed_takes := by
  intro s b m k o a hk hready hq ho
  obtain ⟨u, hu, he⟩ := s.monFeed_mon b k o a m
  have hoffer : u.monOffer b k o a m = u.monTake b m 0 false a := if_pos (by simp [hu.ready, hu.mon, hready, hq, ho])
  rw [he, hoffer, State.monTake_mon, State.monTake_mon]
  exact hu.sampled (by omega)

theorem monFeed_others : Claims.MonitorsAndInjectors.monFeed_others := by
  intro s b m k o a h
  obtain ⟨u, hu, he⟩ := s.monFeed_mon b k o a m
  have hoffer : u.monOffer b k o a m = u := if_neg (by rw [hu.ready, hu.mon]; rcases h with h | h | h <;> simp [h])
  rw [he, hoffer, hu.mon]

/-! ### Snapshots -/

/-- The end of an interval that does not accumulate: the next begins at zero. -/
theorem State.monEmit_mon {s : State} {b : BayNo} {m : Fin 16} (h : (s.mon b m).conf.cumulative = false) (sub : Nat) (t : Stamp) :
    ((s.monEmit b m sub t).mon b m).samples = 0 ∧ ((s.monEmit b m sub t).mon b m).start = t := by
  simp [State.monEmit, h, State.monStart, MonUnit.reset]

/-- MON_SNAP of unit 0 alone. -/
theorem exec_monSnap_zero {s : State} {b : BayNo} (hb : s.alive b = true) (hon : (s.mon b 0).on = true)
    (hemit : 2 ≤ (s.mon b 0).conf.emit) : exec (.monSnap b 1) s = .next (s.monEmit b 0 1 (s.nowAt b)) := by
  have hbit : ∀ m : Fin 15, (1 : BitVec 16).getLsbD m.succ.val = false := by decide
  have hskip (u : State) : (List.finRange 15).foldl (fun x _ => x) u = u := foldl_keep id _ (fun _ _ => rfl) _ u
  rw [exec_monSnap, execMonSnap, hb, List.finRange_succ, List.foldl_cons, List.foldl_map]
  simp only [Bool.not_true, Bool.false_eq_true, if_false, hbit, Bool.false_and]
  rw [hskip, if_pos (by simp [hon, hemit])]

theorem monSnap_one : Claims.MonitorsAndInjectors.monSnap_one := fun s b hb hon hemit hcum =>
  ⟨_, exec_monSnap_zero hb hon hemit, rfl, State.monEmit_mon hcum 1 (s.nowAt b)⟩

/-! ### Fault registers and injectors -/

theorem faultLongestRead_done : Claims.MonitorsAndInjectors.faultLongestRead_done := by
  intro s h
  refine ⟨_, ?_, rfl⟩
  rw [exec_faultLongestRead, execFaultLongestRead, h]
  rfl

theorem State.killInjectors_killed (s : State) : s.killInjectors.inj.killed = true := by
  unfold State.killInjectors
  rw [State.event_inj_killed]
  rfl

theorem injKill_done : Claims.MonitorsAndInjectors.injKill_done := by
  intro s h
  refine ⟨s.killInjectors, ?_, s.killInjectors_killed, rfl⟩
  rw [exec_injKill, execInjKill, h]
  rfl

theorem injKill_other : Claims.MonitorsAndInjectors.injKill_other := by
  intro s v h
  exact ⟨s, if_pos (by rw [decide_eq_true h, Bool.or_true]), rfl⟩

theorem ethInjDelayExpire_sent : Claims.MonitorsAndInjectors.ethInjDelayExpire_sent := by
  intro s n h rest d hheld hdue hready
  have hfirst : s.inj.streams[n].held.find? (fun x => x.due.isSome) = some h := by
    rw [hheld, List.find?_cons_of_pos (by simp [hdue])]
  refine ⟨_, ?_, rfl⟩
  rw [exec_ethInjDelayExpire, execEthInjDelayExpire, hfirst]
  simp [hready, hdue]

end Sys2Proof.Machine

namespace Sys2Proof
open Sys2Proof.Machine

/-- Settles O56: a unit takes the samples of its own source and no other unit's sample changes it, and each of the other commands is one
update of the state. -/
theorem monitorsAndInjectors : Obligations.MonitorsAndInjectors :=
  ⟨monSample_latency, monSample_periodic, monFeed_takes, monFeed_others, monTake_counts, monSnap_one, faultLongestRead_done,
    injKill_done, injKill_other, ethInjDelayExpire_sent⟩

end Sys2Proof
end

section
/-! What waits for a hop touches no sequencer: a HOP value is one of the DDC or the XFM (R234, R284), and only CAL.RUN_REQ asks for a
run. -/
namespace Sys2Proof.Machine

/-- The sequencers of the bays, apart from every other part. -/
def Parts.sequencers : Parts := { cal := true }

/-! ### A new value of any field but CAL.RUN_REQ -/

theorem State.analogApplied_sequencers {f : Field} (hf : sameField f Fld.calRunReq = false) (s : State) (b : BayNo) (i : Nat) (c : Cause)
    (v : Int) : (s.analogApplied f b i c v).view .sequencers = s.view .sequencers := by
  simp only [State.analogApplied, hf, Bool.false_eq_true, if_false, ↓view_ite, ↓foldl_view, ite_self, implies_true,
    ↓State.attenApplied_view (q := .sequencers) (by decide), ↓State.runRotations_view (q := .sequencers) (by decide),
    ↓State.modLane_view (q := .sequencers) (by decide), ↓State.readapt_view (q := .sequencers) (by decide),
    ↓State.adaptLane_view (q := .sequencers) (by decide), ↓State.scanChanged_view (q := .sequencers) (by decide),
    ↓State.steer_view (q := .sequencers) (by decide), ↓State.setAuxCode_view (q := .sequencers) (by decide)]

theorem State.onApplied_sequencers {f : Field} (hf : sameField f Fld.calRunReq = false) (s : State) (b : BayNo) (i : Nat) (c : Cause)
    (old v : Int) : (s.onApplied f b i c old v).view .sequencers = s.view .sequencers := by
  simp only [State.onApplied, ↓view_ite, ite_self, ↓State.modLink_view, ↓State.modInj_view,
    ↓State.modMon_view (q := .sequencers) (by decide), ↓State.refreshPorts_view (q := .sequencers) (by decide),
    ↓State.unitChanged_view (q := .sequencers) (by decide), ↓State.feedChanged_view (q := .sequencers) (by decide),
    ↓State.analogApplied_sequencers hf]

theorem State.putFld_sequencers {f : Field} (hf : sameField f Fld.calRunReq = false) (s : State) (b : BayNo) (i : Nat) (c : Cause)
    (v : Int) : (s.putFld f b i c v).view .sequencers = s.view .sequencers := by
  rw [State.putFld, State.onApplied_sequencers hf, State.setFld_view (by decide), State.beforeApplied_view (by decide)]

/-! ### The waiting values that a hop takes -/

theorem findField_block {block id : Nat} {f : Field} {i : Nat} (h : findField block id = some (f, i)) : f.block = block := by
  obtain ⟨g, hg, hi⟩ := List.exists_of_findSome?_eq_some h
  obtain ⟨j, -, hj⟩ := Option.map_eq_some_iff.mp hi
  cases hj
  simpa using (List.mem_filter.mp hg).2

/-- A waiting value of the block that holds CAL.RUN_REQ. -/
def Waiting.ofCal : Waiting → Bool
  | .value k _ _ _ _ _ _ => decide (k.block = Fld.calRunReq.block)
  | .profile .. => false

theorem Waiting.not_ofCal_of_isOf {w : Waiting} {fs : List Field} {i : Nat} (hfs : ∀ f ∈ fs, f.block ≠ Fld.calRunReq.block)
    (h : w.isOf fs i = true) : w.ofCal = false := by
  cases w with
  | profile p due pins => rfl
  | value k left v ap due watched told =>
    obtain ⟨f, hf, hk⟩ := List.any_eq_true.mp h
    obtain ⟨hblock, -⟩ := of_decide_eq_true hk
    exact decide_eq_false fun e => hfs f hf (hblock.symm.trans e)

theorem State.not_ofCal_of_hopTakes {s : State} {b : BayNo} {scope : List (Fin 2) × List Port} {any : Bool} {w : Waiting}
    (h : s.hopTakes b scope any w = true) : w.ofCal = false := by
  cases w with
  | profile p due pins => rfl
  | value k left v ap due watched told =>
    simp only [State.hopTakes, Bool.and_eq_true, Bool.or_eq_true, List.any_eq_true] at h
    obtain ⟨-, ⟨p, -, hp, -⟩ | ⟨x, -, hx | ⟨hx, -⟩⟩⟩ := h
    · exact Waiting.not_ofCal_of_isOf (by decide) hp
    · exact Waiting.not_ofCal_of_isOf (by decide) hx
    · exact Waiting.not_ofCal_of_isOf (by decide) hx

theorem State.applyWaiting_sequencers {w : Waiting} (hw : w.ofCal = false) (s : State) (b : BayNo) (c : Cause) :
    (s.applyWaiting b c w).2.view .sequencers = s.view .sequencers := by
  cases w with
  | profile p due pins => rfl
  | value k left v ap due watched told =>
    rw [State.applyWaiting]
    split
    · rfl
    · split
      · rfl
      · next f i hfield =>
        have hf : sameField f Fld.calRunReq = false :=
          decide_eq_false fun ⟨e, _⟩ => of_decide_eq_false hw ((findField_block hfield).symm.trans e)
        simp only [↓view_ite, ↓State.tellApplied_view (q := .sequencers) (by decide), ↓State.putFld_sequencers hf, ite_self]

theorem State.takeEffect_sequencers {p : Waiting → Bool} (hp : ∀ w, p w = true → w.ofCal = false) (s : State) (b : BayNo) (c : Cause) :
    (s.takeEffect b p c).view .sequencers = s.view .sequencers := by
  rw [State.takeEffect, State.modImg_view (by decide)]
  refine foldl_snd_view _ _ (fun acc e => ?_) _ _
  by_cases he : p e.1 = true
  · simp only [he, if_true]
    cases e.2
    · exact State.applyWaiting_sequencers (hp _ he) ..
    · exact State.passOver_view (by decide) ..
  · simp only [he, Bool.false_eq_true, if_false]

theorem State.hopApply_sequencers (s : State) (b : BayNo) (scope : List (Fin 2) × List Port) (any : Bool) (t : Stamp) :
    (s.hopApply b scope any t).view .sequencers = s.view .sequencers := by
  simp only [State.hopApply, ↓State.noteConf_view (q := .sequencers) (by decide), ↓foldl_view, implies_true,
    ↓State.chanChanged_view (q := .sequencers) (by decide), ↓State.portRetuned_view (q := .sequencers) (by decide),
    ↓State.refreshPorts_view (q := .sequencers) (by decide), ↓State.takeEffect_sequencers fun _ => State.not_ofCal_of_hopTakes]

theorem State.resumeFlow_sequencers (s : State) (b : BayNo) (p : Port) (t : Stamp) (units : Nat) :
    (s.resumeFlow b p t units).view .sequencers = s.view .sequencers := by
  rw [State.resumeFlow, State.freeChans_view (by decide), State.startPort_view (by decide), State.resumeValues, State.hopApply_sequencers]
  split
  · exact State.freeAtten_view (by decide) ..
  · rfl

end Sys2Proof.Machine
end

section
/-! The sequencer of an input: due, start, passes, comb check and end (R659 to R675). -/
namespace Sys2Proof.Machine

/-! ### The meanings of the commands -/

theorem exec_calIntervalDue (b : BayNo) (i : Fin 2) (s : State) : exec (.calIntervalDue b i) s = execCalIntervalDue b i s := (rfl)
theorem exec_calBackoffEnd (b : BayNo) (i : Fin 2) (s : State) : exec (.calBackoffEnd b i) s = execCalBackoffEnd b i s := (rfl)
theorem exec_calRunStart (b : BayNo) (i : Fin 2) (s : State) : exec (.calRunStart b i) s = execCalRunStart b i s := (rfl)
theorem exec_calForced (b : BayNo) (i : Fin 2) (s : State) : exec (.calForced b i) s = execCalForced b i s := (rfl)
theorem exec_calPassDone (b : BayNo) (i : Fin 2) (p : CalPass) (s : State) :
    exec (.calPassDone b i p) s = execCalPassDone b i p s := (rfl)
theorem exec_combCheckDone (b : BayNo) (i : Fin 2) (o : CombObs) (s : State) :
    exec (.combCheckDone b i o) s = execCombCheckDone b i o s := (rfl)
theorem exec_calRunEnd (b : BayNo) (i : Fin 2) (s : State) : exec (.calRunEnd b i) s = execCalRunEnd b i s := (rfl)

/-! ### The sequencer as a part of the state -/

theorem State.calIn_congr {s t : State} {b : BayNo} (h : (t.bay b).cal = (s.bay b).cal) (i : Fin 2) : t.calIn b i = s.calIn b i :=
  congrArg (fun y : Vector CalIn 2 => y[i]) h

/-- States that agree in the view of the sequencers have the same ones in every bay. -/
theorem calIn_of_view {s t : State} (h : t.view .sequencers = s.view .sequencers) (c : BayNo) (i : Fin 2) :
    t.calIn c i = s.calIn c i := by
  have hbay : ((t.view .sequencers).bay c).cal = ((s.view .sequencers).bay c).cal := by rw [h]
  rw [State.view_bay, State.view_bay] at hbay
  exact State.calIn_congr hbay i

@[simp] theorem State.calIn_modCal (s : State) (b : BayNo) (i : Fin 2) (f : CalIn → CalIn) :
    (s.modCal b i f).calIn b i = f (s.calIn b i) := by
  simp [State.calIn]

@[simp] theorem State.calIn_reach (s : State) (t : Stamp) (b : BayNo) (i : Fin 2) : (s.reach t).calIn b i = s.calIn b i :=
  State.calIn_congr (s.reach_bay_cal t b) i

@[simp] theorem State.calIn_event (s : State) (c : BayNo) (code : Nat) (p : List Word) (done : Bool) (b : BayNo) (i : Fin 2) :
    (s.event c code p done).calIn b i = s.calIn b i :=
  State.calIn_congr (s.event_bay_cal c code p done b) i

@[simp] theorem State.calIn_enqueue (s : State) (c : BayNo) (q : Nat) (r : RecBody) (b : BayNo) (i : Fin 2) :
    (s.enqueue c q r).calIn b i = s.calIn b i :=
  State.calIn_congr (s.enqueue_bay_cal c q r b) i

@[simp] theorem State.calIn_modAfe (s : State) (c : BayNo) (j : Fin 2) (f : AfeIn → AfeIn) (b : BayNo) (i : Fin 2) :
    (s.modAfe c j f).calIn b i = s.calIn b i :=
  State.calIn_congr (s.modAfe_bay_cal c j f b) i

@[simp] theorem State.reach_calOn (s : State) (t : Stamp) (b : BayNo) : (s.reach t).calOn b = s.calOn b := by
  simp only [State.calOn, State.reach_alive, State.reach_img]

/-- States that agree in the view of the front ends have the same comb switches. -/
theorem combSel_of_view {s t : State} (h : t.view { afe := true } = s.view { afe := true }) (c : BayNo) (i : Fin 2) :
    (t.bay c).afe.inputs[i].combSel = (s.bay c).afe.inputs[i].combSel := by
  have hbay : ((t.view { afe := true }).bay c).afe.inputs[i].combSel = ((s.view { afe := true }).bay c).afe.inputs[i].combSel := by
    rw [h]
  simpa [State.view_bay, Bay.view, AfeBay.unmarked] using hbay

/-! ### Due and deferred -/

/-- The note of a deferral changes no cause, no run and no back-off (R669). -/
theorem State.noteDefer_calIn (s : State) (b : BayNo) (i : Fin 2) :
    ((s.noteDefer b i).calIn b i).due.map (·.cause) = (s.calIn b i).due.map (·.cause) ∧
      ((s.noteDefer b i).calIn b i).run = (s.calIn b i).run ∧ ((s.noteDefer b i).calIn b i).backoff = (s.calIn b i).backoff := by
  rw [State.noteDefer]
  split
  · exact ⟨rfl, rfl, rfl⟩
  · next d hd =>
    split
    · simp [hd]
    · exact ⟨rfl, rfl, rfl⟩

theorem State.noteDefer_same {s : State} {b : BayNo} {i : Fin 2} {d : CalDue} (hd : (s.calIn b i).due = some d)
    (h : d.told = true ∨ s.calDeferred b i = false) : s.noteDefer b i = s := by
  rw [State.noteDefer, hd]
  exact if_neg (by rcases h with h | h <;> simp [h])

/-- An input that becomes due is so with its cause and without a back-off; a run is as before (R665, R666). -/
theorem State.calDueNow_calIn (s : State) (b : BayNo) (i : Fin 2) (cause : Nat) :
    ((s.calDueNow b i cause).calIn b i).due.map (·.cause) = some cause ∧ ((s.calDueNow b i cause).calIn b i).run = (s.calIn b i).run ∧
      ((s.calDueNow b i cause).calIn b i).backoff = none := by
  obtain ⟨hdue, hrun, hback⟩ := State.noteDefer_calIn
    (s.modCal b i fun c => { c with due := some { cause := cause, since := s.nowAt b, told := false }, backoff := none }) b i
  rw [State.calDueNow, hdue, hrun, hback, State.calIn_modCal]
  exact ⟨rfl, rfl, rfl⟩

theorem calIntervalDue_done : Claims.BackgroundCalibration.calIntervalDue_done := by
  intro s b i e he hon hidle hn hauto
  obtain ⟨hdue, hrun, -⟩ := (s.reach (later e (ofMs (1000 * s.fldN Fld.calMaxInterval b)))).calDueNow_calIn b i 2
  have hnone : (s.calIn b i).run = none := by
    simp only [CalIn.idle, Bool.and_eq_true, Option.isNone_iff_eq_none] at hidle
    exact hidle.1.2
  refine ⟨_, ?_, hdue, by rw [hrun, State.calIn_reach, hnone]⟩
  rw [exec_calIntervalDue]
  simp [execCalIntervalDue, he, hon, hidle, hn, hauto]

theorem calBackoffEnd_done : Claims.BackgroundCalibration.calBackoffEnd_done := by
  intro s b i e he hon
  obtain ⟨hdue, -, hback⟩ := (s.reach e).calDueNow_calIn b i 4
  refine ⟨_, ?_, hdue, hback⟩
  rw [exec_calBackoffEnd]
  simp [execCalBackoffEnd, he, hon]

/-! ### The start of a run -/

/-- The run of a due input that starts now (R668, R671). -/
def State.startedRun (s : State) (b : BayNo) (i : Fin 2) (d : CalDue) (forced : Bool) : CalRun :=
  { cause := d.cause, forced := forced, wait := toNs (s.nowAt b - d.since).toNat / 1000000, start := s.nowAt b
    tL := s.planeStamp b (rfPort i) (s.nowAt b), passes := [], outcome := none, pair := none, combDone := false, combPass := false
    again := false }

/-- The sequencer and the comb switch of an input whose run starts, before its rotation and its port stop. -/
def State.runBegun (s : State) (b : BayNo) (i : Fin 2) (d : CalDue) (forced : Bool) : State :=
  (s.modCal b i fun c => { c with due := none, run := some (s.startedRun b i d forced), cause := d.cause }).modAfe b i fun a =>
    { a with combSel := true }

theorem State.calStart_view_of {q : Parts} (hq : q.apart { units := true, adc := true, ddc := true, xfm := true, den := true } = true)
    (s : State) (b : BayNo) (i : Fin 2) (d : CalDue) (forced : Bool) :
    (s.calStart b i d forced).view q = (s.runBegun b i d forced).view q := by
  have hrotation := State.pauseRotation_view (q := q) (Parts.apart_of { adc := true } hq rfl) (s.runBegun b i d forced) b i
  rw [State.calStart]
  simp only [↓view_ite, ↓State.stopPort_view (q := q) (Parts.apart_of { units := true, ddc := true, xfm := true, den := true } hq rfl),
    ite_self]
  exact hrotation

theorem State.calStart_calIn (s : State) (b : BayNo) (i : Fin 2) (d : CalDue) (forced : Bool) :
    (s.calStart b i d forced).calIn b i =
      { s.calIn b i with due := none, run := some (s.startedRun b i d forced), cause := d.cause } := by
  rw [calIn_of_view (State.calStart_view_of (by decide) s b i d forced), State.runBegun, State.calIn_modAfe, State.calIn_modCal]

theorem State.calStart_combSel (s : State) (b : BayNo) (i : Fin 2) (d : CalDue) (forced : Bool) :
    ((s.calStart b i d forced).bay b).afe.inputs[i].combSel = true := by
  rw [combSel_of_view (State.calStart_view_of (by decide) s b i d forced)]
  simp [State.runBegun]

theorem calRunStart_starts : Claims.BackgroundCalibration.calRunStart_starts := by
  intro s b i d hd hon hsus hdef hturn hask
  refine ⟨s.calStart b i d false, ?_, by rw [State.calStart_calIn], s.calStart_combSel b i d false, by rw [State.calStart_calIn]; rfl⟩
  rw [exec_calRunStart]
  simp [execCalRunStart, State.noteDefer_same hd (.inr hdef), hd, hon, hsus, hdef, hturn, hask]

theorem calForced_starts : Claims.BackgroundCalibration.calForced_starts := by
  intro s b i d hd htold hon hsus hdef hrun hask
  generalize hu : s.reach (later d.since (ofMs (s.fldN Fld.calMaxDefer b))) = u at hsus hdef
  have hnote : u.noteDefer b i = u := State.noteDefer_same (d := d) (by rw [← hu, State.calIn_reach, hd]) (.inl htold)
  have hcalm : u.calOn b = true ∧ (u.calIn b (otherInput i)).run = none ∧ u.restartAsked b = false := by
    rw [← hu]
    exact ⟨by rw [State.reach_calOn, hon], by rw [State.calIn_reach, hrun], by simpa [State.restartAsked] using hask⟩
  obtain ⟨hon', hrun', hask'⟩ := hcalm
  refine ⟨(u.event b 0x1404 [wd i.val]).calStart b i d true, ?_, by rw [State.calStart_calIn], by rw [State.calStart_calIn]; rfl,
    by rw [State.calStart_calIn]; rfl⟩
  rw [exec_calForced]
  simp [execCalForced, hd, hu, hnote, hon', hsus, hdef, hrun', hask']

/-! ### Passes -/

theorem State.calDisagree_calIn (s : State) (b : BayNo) (i : Fin 2) : (s.calDisagree b i).calIn b i = s.calIn b i :=
  calIn_of_view (State.calDisagree_view (by decide) s b i) b i

theorem calPassDone_first : Claims.BackgroundCalibration.calPassDone_first := by
  intro s b i r p hr ho hps ht
  refine ⟨(s.reach (later r.start (ofUs (passEnd 1)))).modCal b i fun c => { c with run := some { r with passes := [p] } }, ?_, by simp⟩
  rw [exec_calPassDone]
  simp [execCalPassDone, hr, ho, hps, ht, State.calDecide]

theorem calPassDone_decides : Claims.BackgroundCalibration.calPassDone_decides := by
  intro s b i r p o q hr ho hlen ht hdec
  have hnot : ¬ (r.passes.length ≥ 3) := by omega
  let u := s.reach (later r.start (ofUs (passEnd (r.passes.length + 1))))
  let v := u.modCal b i fun c => { c with run := some { r with passes := r.passes ++ [p], outcome := some o, pair := some q } }
  refine ⟨if o = .kept then v.calDisagree b i else v, ?_, ?_⟩
  · rw [exec_calPassDone]
    simp only [execCalPassDone, hr, ho, hnot, ht, Option.isSome_none, ne_eq, not_true_eq_false, decide_false, Bool.or_self,
      Bool.false_eq_true, if_false, List.length_append, List.length_singleton, hdec, u, v]
  · rw [apply_ite (State.calIn · b i), State.calDisagree_calIn, ite_self, State.calIn_modCal]

/-! ### The comb check -/

theorem State.reach_combCheck (s : State) (t : Stamp) (b : BayNo) (i : Fin 2) (drift : List Int) (o : CombObs) :
    (s.reach t).combCheck b i drift o = s.combCheck b i drift o := by
  have hb : ((s.reach t).bay b).hkc.sealedB = (s.bay b).hkc.sealedB :=
    State.reach_keep (fun x => (x.bay b).hkc.sealedB) s
      (fun d => State.passTime_bay_same (·.hkc.sealedB) s d b (fun x n v => by rw [x.advance_hkc]) (fun _ => rfl) fun _ _ => rfl) t
  have hr (j : Fin 2) : ((s.reach t).bay b).hkc.conv[j].sealedResults = (s.bay b).hkc.conv[j].sealedResults :=
    State.reach_keep (fun x => (x.bay b).hkc.conv[j].sealedResults) s
      (fun d => State.passTime_bay_same (·.hkc.conv[j].sealedResults) s d b (fun x n v => by rw [x.advance_hkc])
        (fun x => by simp [Bay.freshEpoch, HkcBay.unmarked]) fun _ _ => rfl) t
  simp only [State.combCheck, State.sealedSource, hb, hr, State.reach_fldN]
  rfl

/-- COMB_CHECK's result and detector reading, and the switch on the pin (R195, R196). -/
theorem State.combDone_afe (s : State) (b : BayNo) (i : Fin 2) (o : CombResult) :
    ((s.combDone b i o).bay b).afe.inputs[i].combSel = false ∧ ((s.combDone b i o).bay b).afe.inputs[i].combFail = !o.good ∧
      ((s.combDone b i o).bay b).afe.combDet = o.det := by
  rw [State.combDone]
  split <;> simp [State.calFail]

theorem combCheckDone_done : Claims.BackgroundCalibration.combCheckDone_done := by
  intro s b i r oc o hr ho hd ht
  let u := s.reach (later r.start (ofUs (if r.passes.length = 3 then 2350 else 1550)))
  let x := s.combCheck b i ((s.calIn b i).driftAfter oc r.passes r.pair) o
  have hafe := u.combDone_afe b i x
  refine ⟨(u.combDone b i x).modCal b i fun c => { c with run := some { r with combDone := true, combPass := x.good } }, ?_,
    by rw [State.calIn_modCal], by rwa [State.modCal_bay_afe]⟩
  rw [exec_combCheckDone]
  simp only [execCombCheckDone, hr, ho, hd, ht, ne_eq, not_true_eq_false, decide_false, Bool.or_self, Bool.false_eq_true, if_false,
    State.reach_combCheck, State.calIn_reach, u, x]

theorem combCheck_low : Claims.BackgroundCalibration.combCheck_low := by
  intro s b i drift o d hd hlow
  have hall : ((combDevs b i drift o.tones).all fun d => decide (-10000000 ≤ d)) = false :=
    List.all_eq_false.mpr ⟨d, hd, by simpa using hlow⟩
  simp [State.combCheck, hall]

/-! ### The end of a run -/

/-- The sequencer of an input whose run ends with an outcome (R660, R662, R665, R666). -/
def State.calSettled (s : State) (b : BayNo) (r : CalRun) (o : CalOutcome) (c : CalIn) : CalIn :=
  { c with
    run := none, tcal := passesTemp r.passes c.tcal, failures := if o = .accepted then 0 else c.failures + 1
    lastFailed := decide (o ≠ .accepted)
    foreground := if o = .accepted then true else if o = .factory then false else c.foreground
    drift := c.driftAfter o r.passes r.pair
    accepted := if o = .accepted then c.accepted + 1 else c.accepted
    failed := if o = .accepted then c.failed else c.failed + 1
    backoff := if o = .accepted then none
      else some (later (s.nowAt b) (s.backoffTime b (if o = .accepted then 0 else c.failures + 1))) }

theorem State.calSettle_calIn (s : State) (b : BayNo) (i : Fin 2) (r : CalRun) (o : CalOutcome) :
    (s.calSettle b i r o).calIn b i = s.calSettled b r o (s.calIn b i) := by
  rw [State.calSettle, State.calIn_modCal]
  have hcoefs : (if o = .accepted then s.takeCoefs b i ((r.pair.map (pairCoefs r.passes)).getD []) else s).calIn b i = s.calIn b i := by
    split
    · exact calIn_of_view (State.takeCoefs_view (by decide) ..) b i
    · rfl
  rw [hcoefs]
  rfl

/-- The report of a run changes only what the registers show of it (R675, R677). -/
theorem State.calReport_calIn (s : State) (b : BayNo) (i : Fin 2) (r : CalRun) (o : CalOutcome) (number : Word) (tL tR : Stamp) (delta : Int) :
    ∃ agree drift, (s.calReport b i r o number tL tR delta).calIn b i =
      { s.calIn b i with agreeWord := agree, driftWord := drift, lastStamp := tR, lastEnd := some (s.nowAt b) } := by
  refine ⟨(s.calPayload b i r o number tL delta).getD 3 0, (s.calPayload b i r o number tL delta).getD 11 0, ?_⟩
  rw [State.calReport, State.calIn_event, apply_ite (State.calIn · b i), State.calIn_enqueue, ite_self, State.calIn_modCal]

/-- When the gap of a run closes (R672). -/
def CalRun.gapEnd (r : CalRun) : Stamp := later r.start (ofUs (if r.passes.length = 3 then 2400 else 1600))

/-- The state with the outcome of a run in force and the run counted. -/
def State.runEnded (s : State) (b : BayNo) (i : Fin 2) (r : CalRun) (o : CalOutcome) : State :=
  ((s.reach r.gapEnd).calSettle b i r o).modCal b i fun c => { c with runNo := c.runNo + 1 }

theorem State.runEnded_calIn (s : State) (b : BayNo) (i : Fin 2) (r : CalRun) (o : CalOutcome) :
    (s.runEnded b i r o).calIn b i =
      { (s.reach r.gapEnd).calSettled b r o (s.calIn b i) with runNo := (s.calIn b i).runNo + 1 } := by
  rw [State.runEnded, State.calIn_modCal, State.calSettle_calIn, State.calIn_reach]
  rfl

/-- The gap of a run closes: the port resumes, unless an acquisition restart is to stop it (R671). -/
def State.gapClosed (s : State) (b : BayNo) (i : Fin 2) (t : Stamp) : State :=
  if (s.bay b).ddc[rfPort i].active && !s.restartAsked b then s.resumeFlow b (rfPort i) t 0 else s.freeAtten b i

theorem State.gapClosed_calIn (s : State) (b : BayNo) (i : Fin 2) (t : Stamp) :
    ((s.gapClosed b i t).runRotation b i).calIn b i = s.calIn b i := by
  refine calIn_of_view ?_ b i
  rw [State.runRotation_view (by decide), State.gapClosed, view_ite, State.resumeFlow_sequencers, State.freeAtten_view (by decide), ite_self]

theorem exec_calRunEnd_reports {s : State} {b : BayNo} {i : Fin 2} {r : CalRun} {o : CalOutcome} (hr : (s.calIn b i).run = some r)
    (ho : r.outcome = some o) (hd : r.combDone = true) (ha : r.again = false) :
    let u := (s.runEnded b i r o).gapClosed b i r.gapEnd
    exec (.calRunEnd b i) s =
      .next ((u.runRotation b i).calReport b i r o (((s.reach r.gapEnd).calSettle b i r o).calIn b i).runNo r.tL
        (u.planeStamp b (rfPort i) r.gapEnd) ((u.calIn b i).tcal - ((s.reach r.gapEnd).calIn b i).tcal)) := by
  rw [exec_calRunEnd]
  simp only [execCalRunEnd, hr, ho, hd, ha, Bool.not_true, Bool.false_eq_true, if_false]
  rfl

/-- The end of a run settles its sequencer and counts the run; what else it does touches only the words that report it (R671, R675). -/
theorem exec_calRunEnd_settles {s : State} {b : BayNo} {i : Fin 2} {r : CalRun} {o : CalOutcome} (hr : (s.calIn b i).run = some r)
    (ho : r.outcome = some o) (hd : r.combDone = true) (ha : r.again = false) :
    ∃ (t : State) (agree drift : Word) (tR : Stamp) (e : Option Stamp), exec (.calRunEnd b i) s = .next t ∧
      t.calIn b i = { (s.reach r.gapEnd).calSettled b r o (s.calIn b i) with
        runNo := (s.calIn b i).runNo + 1, agreeWord := agree, driftWord := drift, lastStamp := tR, lastEnd := e } := by
  obtain ⟨agree, drift, hc⟩ := State.calReport_calIn (((s.runEnded b i r o).gapClosed b i r.gapEnd).runRotation b i) b i r o
    _ r.tL _ _
  exact ⟨_, agree, drift, _, _, exec_calRunEnd_reports hr ho hd ha, by rw [hc, State.gapClosed_calIn, State.runEnded_calIn]⟩

theorem calRunEnd_accepted : Claims.BackgroundCalibration.calRunEnd_accepted := by
  intro s b i r hr ho hd ha
  obtain ⟨t, agree, drift, tR, e, ht, hc⟩ := exec_calRunEnd_settles hr ho hd ha
  exact ⟨t, ht, by simp [hc, State.calSettled, CalIn.driftAfter]⟩

theorem calRunEnd_kept : Claims.BackgroundCalibration.calRunEnd_kept := by
  intro s b i r hr ho hd ha
  obtain ⟨t, agree, drift, tR, e, ht, hc⟩ := exec_calRunEnd_settles hr ho hd ha
  exact ⟨t, ht, by simp [hc, State.calSettled, CalIn.driftAfter]⟩

end Sys2Proof.Machine

namespace Sys2Proof
open Sys2Proof.Machine

/-- Settles O54: each command of the sequencer is one change of the input's sequencer, and what else it does, the values that wait for
the resumed port's hop among it, leaves the sequencers as they are. -/
theorem backgroundCalibration : Obligations.BackgroundCalibration :=
  ⟨calIntervalDue_done, calBackoffEnd_done, calRunStart_starts, calForced_starts, calPassDone_first, calPassDone_decides,
    combCheckDone_done, combCheck_low, calRunEnd_accepted, calRunEnd_kept⟩

end Sys2Proof
end

section
/-! The Lanil fabric: flits, ports that go down and come up, packets, topology updates and external links (R590 to R618). -/
namespace Sys2Proof.Machine

/-! ### The meanings of the commands -/

theorem exec_flitReceive (b : BayNo) (p : Fin 5) (f : Vector Word 16) (s : State) :
    exec (.flitReceive b p f) s = execFlitReceive b p f s := (rfl)
theorem exec_lnlFlitTimeout (b : BayNo) (p : Fin 5) (s : State) : exec (.lnlFlitTimeout b p) s = execLnlFlitTimeout b p s := (rfl)
theorem exec_lnlLinkDown (b : BayNo) (p : Fin 5) (m : BitVec 4) (s : State) :
    exec (.lnlLinkDown b p m) s = execLnlLinkDown b p m s := (rfl)
theorem exec_fabricPacketRx (b : BayNo) (p : Fin 5) (h : Vector Word 4) (payload : List Word) (s : State) :
    exec (.fabricPacketRx b p h payload) s = execFabricPacketRx b p h payload s := (rfl)
theorem exec_topologyUpdate (b : BayNo) (cuts : BitVec 4) (din : Fin 4) (full : BitVec 3) (s : State) :
    exec (.topologyUpdate b cuts din full) s = execTopologyUpdate b cuts din full s := (rfl)
theorem exec_fabricPortRetrain (b : BayNo) (p : Fin 3) (m : BitVec 4) (s : State) :
    exec (.fabricPortRetrain b p m) s = execFabricPortRetrain b p m s := (rfl)
theorem exec_lnlLinkUp (b : BayNo) (p : Fin 5) (s : State) : exec (.lnlLinkUp b p) s = execLnlLinkUp b p s := (rfl)
theorem exec_lnlLaneFail (n : Fin 2) (j : Fin 8) (s : State) : exec (.lnlLaneFail n j) s = execLnlLaneFail n j s := (rfl)
theorem exec_lnlWidthResume (n : Fin 2) (s : State) : exec (.lnlWidthResume n) s = execLnlWidthResume n s := (rfl)
theorem exec_lnlInjDelayExpire (b : BayNo) (n : Fin 5) (s : State) :
    exec (.lnlInjDelayExpire b n) s = execLnlInjDelayExpire b n s := (rfl)

/-! ### Fabric ports -/

/-- A fabric port leads to another bay. -/
theorem peerBay_ne (b : BayNo) (p : Fin 3) : peerBay b p.val ≠ b := by
  revert b p
  decide

/-- Fabric port `p` among the ports and links of a bay. -/
def fabricLink (p : Fin 3) : Fin 5 := ⟨p.val, by omega⟩

/-- A change of the port of dimension `p` at both of its ends. -/
def State.modEnds (s : State) (b : BayNo) (p : Fin 3) (near far : LinkPort → LinkPort) : State :=
  (s.modPortL b p near).modPortL (peerBay b p.val) p far

theorem State.modPortL_port (s : State) (b : BayNo) (p : Fin 3) (f : LinkPort → LinkPort) :
    ((s.modPortL b p f).bay b).lnl.ports[p] = f (s.bay b).lnl.ports[p] := by
  simp [State.modPortL]

theorem State.modPortL_lnl_ne (s : State) (b : BayNo) (p : Fin 3) (f : LinkPort → LinkPort) {c : BayNo} (h : c ≠ b) :
    ((s.modPortL b p f).bay c).lnl = (s.bay c).lnl :=
  State.modLnl_bay_lnl_ne s b _ h

/-- What a change of a port keeps of a bay's side of the fabric. -/
theorem State.modPortL_keep {α : Type} (g : LnlBay → α) (h : ∀ l x, g { l with ports := x } = g l) (s : State) (b : BayNo) (p : Fin 3)
    (f : LinkPort → LinkPort) (c : BayNo) : g ((s.modPortL b p f).bay c).lnl = g (s.bay c).lnl := by
  by_cases hc : c = b
  · rw [hc, State.modPortL, State.modLnl_bay_lnl_self, h]
  · rw [State.modPortL_lnl_ne s b p f hc]

theorem State.modEnds_near (s : State) (b : BayNo) (p : Fin 3) (near far : LinkPort → LinkPort) :
    ((s.modEnds b p near far).bay b).lnl.ports[p] = near (s.bay b).lnl.ports[p] := by
  rw [State.modEnds, State.modPortL_lnl_ne _ _ p far (peerBay_ne b p).symm, State.modPortL_port]

theorem State.modEnds_far (s : State) (b : BayNo) (p : Fin 3) (near far : LinkPort → LinkPort) :
    ((s.modEnds b p near far).bay (peerBay b p.val)).lnl.ports[p] = far (s.bay (peerBay b p.val)).lnl.ports[p] := by
  rw [State.modEnds, State.modPortL_port, State.modPortL_lnl_ne _ _ p near (peerBay_ne b p)]

theorem State.linkPort_fabric (s : State) (b : BayNo) (p : Fin 3) : s.linkPort b (fabricLink p) = some (s.bay b).lnl.ports[p] :=
  dif_pos p.isLt

theorem State.modLinkPort_fabric (s : State) (b : BayNo) (p : Fin 3) (f : LinkPort → LinkPort) :
    s.modLinkPort b (fabricLink p) f = s.modPortL b p f :=
  dif_pos p.isLt

theorem State.linkDown_fabric (s : State) (b : BayNo) (p : Fin 3) (cause : Nat) :
    s.linkDown b (fabricLink p) cause = s.fabricDown b p cause :=
  dif_pos p.isLt

/-! ### A topology update is called -/

theorem State.callUpdate_ports (s : State) (c : BayNo) : (s.callUpdate.bay c).lnl.ports = (s.bay c).lnl.ports := by
  refine State.eachBay_bay_lnl_ports s _ _ c fun u b => ?_
  by_cases hc : c = b
  · rw [hc, State.modLnl_bay_lnl_self]
  · rw [State.modLnl_bay_lnl_ne _ _ _ hc]

theorem State.callUpdate_due {s : State} {c : BayNo} (hc : s.alive c = true) : (s.callUpdate.bay c).lnl.updateDue = true :=
  congrArg (·.lnl.updateDue) (s.eachLive_bay (fun _ y => { y with lnl := { y.lnl with updateDue := true } }) c hc)

/-! ### A fabric port goes down -/

/-- A port that is declared down at `t` (R591, R597). -/
def LinkPort.dropped (x : LinkPort) (cause : Nat) (t : Stamp) : LinkPort :=
  { x with up := false, downs := x.downs + 1, congested := false, streak := 0, unacked := 0
           modules := if cause = 2 then x.modules else 0, retrainAt := later t (ofMs 1) }

/-- Both ends of a port dropped, before the loss is told. -/
def State.endsDropped (s : State) (b : BayNo) (p : Fin 3) (cause : Nat) : State :=
  s.modEnds b p (·.dropped cause (s.nowAt b)) (·.dropped cause (s.nowAt b))

/-- A bay whose rejoin is abandoned is as before (R616). -/
theorem State.checkRejoin_bay (s : State) (c : BayNo) : s.checkRejoin.bay c = s.bay c := by
  rw [State.checkRejoin]
  split
  · rfl
  · rw [apply_ite (State.bay · c), State.modLnlPkg_bay, ite_self]

/-- The loss of a port told: its event, its fault, and the headland's note of it (R163, R606, R744). -/
def State.lossTold (s : State) (b : BayNo) (p : Fin 3) (cause : Nat) : State :=
  let u := (s.endsDropped b p cause).event b 0x1201 [wd b.val, wd p.val, wd cause]
  (u.faultOpen (linkFault b p.val) u.now).modTbsPkg fun y => { y with lossDue := true }

theorem State.lossTold_ports (s : State) (b : BayNo) (p : Fin 3) (cause : Nat) (c : BayNo) :
    ((s.lossTold b p cause).bay c).lnl.ports = ((s.endsDropped b p cause).bay c).lnl.ports := by
  simp only [State.lossTold, State.modTbsPkg_bay, State.faultOpen_bay_lnl_ports, State.event_bay_lnl_ports]

theorem State.lossDue_alive (s : State) (c : BayNo) : (s.modTbsPkg fun y => { y with lossDue := true }).alive c = s.alive c := (rfl)

theorem State.lossTold_alive (s : State) (b : BayNo) (p : Fin 3) (cause : Nat) (c : BayNo) :
    (s.lossTold b p cause).alive c = s.alive c := by
  simp only [State.lossTold, State.lossDue_alive, State.faultOpen_alive, State.event_alive, State.endsDropped, State.modEnds,
    State.modPortL_alive]

theorem State.fabricDown_eq (s : State) (b : BayNo) (p : Fin 3) (cause : Nat) :
    s.fabricDown b p cause = (s.lossTold b p cause).callUpdate.checkRejoin := (rfl)

theorem State.fabricDown_ports (s : State) (b : BayNo) (p : Fin 3) (cause : Nat) (c : BayNo) :
    ((s.fabricDown b p cause).bay c).lnl.ports = ((s.endsDropped b p cause).bay c).lnl.ports := by
  rw [State.fabricDown_eq, State.checkRejoin_bay, State.callUpdate_ports, State.lossTold_ports]

/-- A port that goes down is dropped at this end. -/
theorem State.fabricDown_near (s : State) (b : BayNo) (p : Fin 3) (cause : Nat) :
    ((s.fabricDown b p cause).bay b).lnl.ports[p] = (s.bay b).lnl.ports[p].dropped cause (s.nowAt b) := by
  rw [State.fabricDown_ports, State.endsDropped, State.modEnds_near]

/-- A port that goes down is dropped at its other end. -/
theorem State.fabricDown_far (s : State) (b : BayNo) (p : Fin 3) (cause : Nat) :
    ((s.fabricDown b p cause).bay (peerBay b p.val)).lnl.ports[p] =
      (s.bay (peerBay b p.val)).lnl.ports[p].dropped cause (s.nowAt b) := by
  rw [State.fabricDown_ports, State.endsDropped, State.modEnds_far]

/-- Every living bay is due a topology update once a port has gone down (R606). -/
theorem State.fabricDown_due {s : State} {c : BayNo} (hc : s.alive c = true) (b : BayNo) (p : Fin 3) (cause : Nat) :
    ((s.fabricDown b p cause).bay c).lnl.updateDue = true := by
  rw [State.fabricDown_eq, State.checkRejoin_bay, State.callUpdate_due (by rw [State.lossTold_alive, hc])]

/-! ### Flits -/

theorem flitReceive_good : Claims.FabricLinksAndRoutes.flitReceive_good := by
  intro s b p f x hx hup hgood hseq
  refine ⟨_, ?_, rfl⟩
  rw [exec_flitReceive]
  simp [execFlitReceive, hx, hup, hgood, hseq]

/-- A flit that is not the one awaited asks for a replay, and after eight failed ones takes the link down (R597; log entry 82). -/
theorem exec_flitReceive_bad {s : State} {b : BayNo} {p : Fin 5} {f : Vector Word 16} {x : LinkPort} (hx : s.linkPort b p = some x)
    (hup : s.isUp b p = true) (hbad : flitGood f = false ∨ f[0].extractLsb' 0 12 ≠ x.expect) :
    let u := (s.modLinkPort b p fun x => { x with replays := x.replays + 1, streak := x.streak + 1 }).emit
      (.packet "REPLAY_REQUEST" (8 * p.val + b.val) [x.expect.setWidth 32])
    exec (.flitReceive b p f) s = .next (if x.streak ≥ 8 then u.linkDown b p 0 else u) := by
  have hnot : ¬ (flitGood f && decide (f[0].extractLsb' 0 12 = x.expect)) = true := by
    rcases hbad with h | h <;> simp [h]
  rw [exec_flitReceive, execFlitReceive, hx]
  simp only [hup, Bool.not_true, Bool.false_eq_true, if_false, hnot]

theorem flitReceive_bad : Claims.FabricLinksAndRoutes.flitReceive_bad := by
  intro s b p f x hx hup hbad hfew
  exact ⟨_, (exec_flitReceive_bad hx hup hbad).trans (congrArg _ (if_neg (by omega))), rfl⟩

theorem flitReceive_eighth : Claims.FabricLinksAndRoutes.flitReceive_eighth := by
  intro s b p f hup hbad hstreak
  have he := exec_flitReceive_bad (s.linkPort_fabric b p) hup (.inl hbad)
  dsimp only at he
  rw [if_pos (by omega), State.linkDown_fabric, State.modLinkPort_fabric] at he
  refine ⟨_, he, ?_, ?_, ?_⟩
  · rw [State.fabricDown_near]
    rfl
  · rw [State.fabricDown_far]
    rfl
  · rw [State.fabricDown_near, State.emit_bay, State.modPortL_port]
    rfl

theorem lnlFlitTimeout_down : Claims.FabricLinksAndRoutes.lnlFlitTimeout_down := by
  intro s b p hup
  refine ⟨(s.passTime (ofUs 1)).fabricDown b p 1, ?_, ?_, fun c hc => ?_⟩
  · rw [exec_lnlFlitTimeout, execLnlFlitTimeout, if_pos hup]
    exact congrArg _ (State.linkDown_fabric ..)
  · rw [State.fabricDown_near]
    rfl
  · exact State.fabricDown_due (((s.passTime_alive _ c).trans ((s.mem_liveBays c).mp hc))) b p 1

/-- A port at both of whose ends only the modules `m` are still trained (R591). -/
def State.modulesLeft (s : State) (b : BayNo) (p : Fin 3) (m : BitVec 4) : State :=
  s.modEnds b p (fun x => { x with modules := m }) fun x => { x with modules := m }

theorem lnlLinkDown_module : Claims.FabricLinksAndRoutes.lnlLinkDown_module := by
  intro s b p m hup hm
  refine ⟨(s.modulesLeft b p m).fabricDown b p 2, ?_, ?_, ?_⟩
  · rw [exec_lnlLinkDown, execLnlLinkDown, if_neg (by simpa [hup] using hm), dif_pos p.isLt]
    exact congrArg _ (State.linkDown_fabric ..)
  · rw [State.fabricDown_near]
    rfl
  · rw [State.fabricDown_near, State.modulesLeft, State.modEnds_near]
    rfl

/-! ### Packets -/

theorem fabricPacketRx_discarded : Claims.FabricLinksAndRoutes.fabricPacketRx_discarded := by
  intro s b p h payload hup hbad
  refine ⟨_, ?_, rfl⟩
  rw [exec_fabricPacketRx, execFabricPacketRx, if_neg (by simp [hup]), if_pos (by rcases hbad with h | h <;> simp [h])]

theorem fabricPacketRx_delivered : Claims.FabricLinksAndRoutes.fabricPacketRx_delivered := by
  intro s b p h payload hup hcrc hclass hcast hhere hfresh
  generalize hk : 8 * (8 * bits h[0].toNat 17 13 + bits h[0].toNat 2 0) + b.val = k at hfresh ⊢
  refine ⟨(s.modLnlPkg fun y => { y with tags := Sparse.set 0 s.lnl.tags k (h[1] + 1) }).emit
    (.packet "LANIL_DELIVER" b.val (h.toList ++ payload)), ?_, rfl, ?_, rfl⟩
  · rw [exec_fabricPacketRx]
    simp only [execFabricPacketRx, hup, hcrc, hclass, hcast, hhere, hk, decide_eq_true hfresh]
    rfl
  · simp [Sparse.get_set]

theorem fabricPacketRx_forwarded : Claims.FabricLinksAndRoutes.fabricPacketRx_forwarded := by
  intro s b p q h payload hup hcrc hclass hcast haway hnext
  refine ⟨_, ?_, rfl⟩
  rw [exec_fabricPacketRx]
  simp [execFabricPacketRx, hup, hcrc, hclass, hcast, haway, hnext]

/-! ### Topology updates -/

/-- What a topology update leaves in a bay: whether one is due, the count, and the routes (R602, R606). -/
def State.updateOf (s : State) (b : BayNo) : Bool × Word × Vector (Option (List Nat)) 8 :=
  ((s.bay b).lnl.updateDue, (s.bay b).lnl.reroutes, (s.bay b).lnl.routes)

theorem State.event_updateOf (s : State) (c : BayNo) (code : Nat) (p : List Word) (done : Bool) (b : BayNo) :
    (s.event c code p done).updateOf b = s.updateOf b := by
  simp only [State.updateOf, State.event_bay_lnl_updateDue, State.event_bay_lnl_reroutes, State.event_bay_lnl_routes]

theorem State.faultEnd_updateOf (s : State) (f : FaultId) (b : BayNo) : (s.faultEnd f).updateOf b = s.updateOf b := by
  simp only [State.updateOf, State.faultEnd_bay_lnl_updateDue, State.faultEnd_bay_lnl_reroutes, State.faultEnd_bay_lnl_routes]

theorem State.markFull_updateOf (s : State) (c : BayNo) (p : Fin 3) (full : Bool) (b : BayNo) :
    (s.markFull c p full).updateOf b = s.updateOf b := by
  rw [State.markFull, apply_ite (State.updateOf · b), State.event_updateOf, ite_self]
  exact State.modPortL_keep (fun l => (l.updateDue, l.reroutes, l.routes)) (fun _ _ => rfl) s c p _ b

theorem State.retime_updateOf (s : State) (b : BayNo) : s.retime.updateOf b = s.updateOf b := by
  rw [State.retime, apply_ite (State.updateOf · b), State.event_updateOf]
  exact ite_self _

theorem State.hearShoal_updateOf (s : State) (cuts : BitVec 4) (din : Fin 4) (b : BayNo) :
    (s.hearShoal cuts din).updateOf b = s.updateOf b := (rfl)

/-- A bay takes its routes, and counts it (R602, R606). -/
def State.rerouted (s : State) (b : BayNo) : State :=
  (s.reroute b).modLnl b fun l => { l with updateDue := false, reroutes := l.reroutes + 1 }

theorem State.rerouted_updateOf (s : State) (b : BayNo) :
    (s.rerouted b).updateOf b = (false, (s.bay b).lnl.reroutes + 1, .ofFn fun c => if s.alive c then s.route b c else none) := by
  simp [State.rerouted, State.reroute, State.updateOf]

/-- A bay that is due an update takes its routes; the rest of the update leaves them (R606). -/
theorem exec_topologyUpdate_updateOf {s : State} {b : BayNo} (halive : s.alive b = true) (hdue : (s.bay b).lnl.updateDue = true)
    (cuts : BitVec 4) (din : Fin 4) (full : BitVec 3) :
    ∃ t, exec (.topologyUpdate b cuts din full) s = .next t ∧ t.updateOf b = (s.rerouted b).updateOf b := by
  simp only [exec_topologyUpdate, execTopologyUpdate, halive, hdue, Bool.not_true, Bool.true_or, Bool.or_self, Bool.false_eq_true,
    if_false, if_true]
  refine ⟨_, rfl, ?_⟩
  simp only [apply_ite (State.updateOf · b), foldl_keep (State.updateOf · b) _ fun u (o : OpenFault) => u.faultEnd_updateOf o.id b,
    State.retime_updateOf, State.hearShoal_updateOf, ite_self]
  exact foldl_keep (State.updateOf · b) _ (fun u p => u.markFull_updateOf b p _ b) _ _

theorem topologyUpdate_done : Claims.FabricLinksAndRoutes.topologyUpdate_done := by
  intro s b cuts din halive hdue
  obtain ⟨t, ht, hu⟩ := exec_topologyUpdate_updateOf halive hdue cuts din 0
  rw [State.rerouted_updateOf] at hu
  obtain ⟨hd, hn, hr⟩ : (t.bay b).lnl.updateDue = false ∧ (t.bay b).lnl.reroutes = (s.bay b).lnl.reroutes + 1 ∧
      (t.bay b).lnl.routes = .ofFn fun c => if s.alive c then s.route b c else none := by
    simpa [State.updateOf] using hu
  exact ⟨t, ht, hd, hn, fun c => by simp [hr]⟩

/-! ### A fabric port comes up -/

theorem State.reach_up (s : State) (t : Stamp) (b : BayNo) (p : Fin 3) :
    ((s.reach t).bay b).lnl.ports[p].up = (s.bay b).lnl.ports[p].up :=
  State.reach_keep (fun x => (x.bay b).lnl.ports[p].up) s
    (fun d => State.passTime_bay_same (·.lnl.ports[p].up) s d b (fun x n v => by rw [x.advance_lnl])
      (fun x => by simp [Bay.freshEpoch, LnlBay.unmarked]) fun _ _ => rfl) t

/-- A port of which `m` are the modules trained at `t` (R591). -/
def LinkPort.retrained (x : LinkPort) (m : BitVec 4) (t : Stamp) : LinkPort := { x with modules := m, retrainAt := later t (ofMs 1) }

theorem fabricPortRetrain_done : Claims.FabricLinksAndRoutes.fabricPortRetrain_done := by
  intro s b p m halive hdown hp
  let u := s.reach (s.bay b).lnl.ports[p].retrainAt
  refine ⟨u.modEnds b p (·.retrained m (u.nowAt b)) (·.retrained m (u.nowAt b)), ?_, ?_, ?_, ?_⟩
  · rw [exec_fabricPortRetrain, execFabricPortRetrain, if_neg (by simp only [halive, hdown]; simpa using hp)]
    rfl
  · rw [State.modEnds_near, LinkPort.retrained]
  · rw [State.modEnds_far, LinkPort.retrained]
  · rw [State.modEnds_near]
    exact (s.reach_up _ b p).trans hdown

/-- A port that joins the fabric (R591, R597). -/
def LinkPort.raised (x : LinkPort) : LinkPort := { x with up := true, streak := 0, expect := 0, sendSeq := 0, unacked := 0 }

/-- Both ends of a trained port up, told, and its fault repaired (R606, R744). -/
def State.portRaised (s : State) (b : BayNo) (p : Fin 3) : State :=
  ((s.modEnds b p (·.raised) fun x => { x.raised with modules := 0xF }).event b 0x1202 [wd p.val]).faultRepair (linkFault b p.val)

theorem lnlLinkUp_port : Claims.FabricLinksAndRoutes.lnlLinkUp_port := by
  intro s b p halive hset hdown hmod hpeer hp
  refine ⟨(s.portRaised b p).callUpdate, ?_, ?_, ?_, ?_⟩
  · rw [exec_lnlLinkUp, execLnlLinkUp, if_neg (by simp [halive, hset]), dif_pos p.isLt]
    exact if_neg (by simpa [hpeer] using ⟨⟨hdown, hmod⟩, hp⟩)
  · rw [State.callUpdate_ports, State.portRaised, State.faultRepair_bay, State.event_bay_lnl_ports, State.modEnds_near, LinkPort.raised]
  · rw [State.callUpdate_ports, State.portRaised, State.faultRepair_bay, State.event_bay_lnl_ports, State.modEnds_far, LinkPort.raised]
  · refine State.callUpdate_due ?_
    rw [State.portRaised, State.faultRepair_alive, State.event_alive, State.modEnds, State.modPortL_alive, State.modPortL_alive, halive]

/-! ### External links -/

theorem lnlWidthResume_done : Claims.FabricLinksAndRoutes.lnlWidthResume_done := by
  intro s n hp
  refine ⟨(s.modExt n fun x => { x with paused := false }).faultEnd (s.laneFault n), ?_, ?_, ?_⟩
  · rw [exec_lnlWidthResume]
    simp [execLnlWidthResume, hp]
  · simp [State.ext]
  · simp [State.ext]

/-- An external link whose lane `j` has left it, with its width changed and its fault open (R594, R744). -/
def State.laneLeft (s : State) (n : Fin 2) (j : Fin 8) : State :=
  let k := s.extLane n j.val
  let lost := ((s.accrue s.linkBay k).modLane s.linkBay k fun l =>
    { l with inPort := false, cdr := false, chk := false, eyeValid := false }).modExt n fun x =>
      { x with lanesUp := x.lanesUp &&& ~~~(BitVec.ofNat 8 (2 ^ j.val)) }
  (lost.changeWidth n).faultOpen (s.laneFault n) s.now

theorem State.laneLeft_ext (s : State) (n : Fin 2) (j : Fin 8) :
    (s.laneLeft n j).ext n = { s.ext n with lanesUp := (s.ext n).lanesUp &&& ~~~(BitVec.ofNat 8 (2 ^ j.val)), paused := true } := by
  obtain ⟨bits, rem, haccrue⟩ := s.accrue_eq s.linkBay (s.extLane n j.val)
  simp [State.laneLeft, State.ext, State.changeWidth, haccrue]

theorem lnlLaneFail_width : Claims.FabricLinksAndRoutes.lnlLaneFail_width := by
  intro s n j hstage hup halive hleft
  have hext := s.laneLeft_ext n j
  refine ⟨s.laneLeft n j, ?_, by rw [hext], by rw [hext], by rw [hext, hstage]⟩
  rw [exec_lnlLaneFail, execLnlLaneFail, if_neg (by simp [hstage, hup, halive])]
  exact congrArg _ (if_neg (by rw [← State.laneLeft, hext]; exact hleft))

theorem lnlInjDelayExpire_sent : Claims.FabricLinksAndRoutes.lnlInjDelayExpire_sent := by
  intro s b n h rest d halive hheld hdue
  refine ⟨_, ?_, rfl⟩
  rw [exec_lnlInjDelayExpire, execLnlInjDelayExpire, hheld, List.find?_cons_of_pos (by simp [hdue])]
  simp [halive, hdue]

end Sys2Proof.Machine

namespace Sys2Proof
open Sys2Proof.Machine

/-- Settles O48: a fabric port that goes down is dropped at both of its ends, and every living bay is due an update; the routes that a
bay takes are those of the links that are up, and what else an update does leaves them. -/
theorem fabricLinksAndRoutes : Obligations.FabricLinksAndRoutes :=
  ⟨flitReceive_good, flitReceive_bad, flitReceive_eighth, lnlFlitTimeout_down, lnlLinkDown_module, fabricPacketRx_discarded,
    fabricPacketRx_delivered, fabricPacketRx_forwarded, topologyUpdate_done, fabricPortRetrain_done, lnlLinkUp_port, lnlLaneFail_width,
    lnlWidthResume_done, lnlInjDelayExpire_sent⟩

end Sys2Proof
end

section
/-! What every step keeps: the invariant of the flash and of the seal rows. -/
namespace Sys2Proof.Machine

/-- The invariant says nothing of the queue of commands. -/
theorem State.Inv.of_pending {s : State} (h : s.Inv) (p : List Instr) : State.Inv { s with pending := p } :=
  ⟨h.flash, h.rows, h.row⟩

theorem step_keeps_inv : Claims.StepKeepsInv.step_keeps_inv := by
  intro s t hs h
  obtain ⟨-, rfl⟩ | ⟨c, rest, -, hc⟩ := step_cases h
  · exact s.tick_grows.inv hs
  · exact (grows_of_exec hc).inv (hs.of_pending rest)

end Sys2Proof.Machine

namespace Sys2Proof
open Sys2Proof.Machine

/-- Settles O4: an FCLK edge and every command keep the invariant, and taking a command off the queue does not touch it. -/
theorem stepKeepsInv : Obligations.StepKeepsInv := step_keeps_inv

end Sys2Proof
end

section
/-! Entries of the command ring (R79, R80): the command of each opcode, and the entries written out from the layout. -/
namespace Sys2Proof

/-! ### The command that each opcode spells -/

section
variable {e : RingEntry}

theorem commandOf_setLive (h : (e.field 0 0 8).toNat = 1) : commandOf e = .setLive e[1] e[2] e[3] (e[4].getLsbD 0) := by
  simp only [commandOf, h]

theorem commandOf_selectProfile (h : (e.field 0 0 8).toNat = 2) : commandOf e = .selectProfile e[1] (e.field 2 0 4) := by
  simp only [commandOf, h]

theorem commandOf_arm (h : (e.field 0 0 8).toNat = 3) :
    commandOf e = .arm e[1] (e.field 2 0 8) (e.field 2 8 8) (e.field 2 16 4) (e.stamp 3) := by
  simp only [commandOf, h]

theorem commandOf_disarm (h : (e.field 0 0 8).toNat = 4) :
    commandOf e = .disarm e[1] (e.field 2 0 8) (e.field 2 8 8) (e.field 2 16 4) (e.stamp 3) := by
  simp only [commandOf, h]

theorem commandOf_recStart (h : (e.field 0 0 8).toNat = 5) :
    commandOf e = .recStart e[1] (e.field 2 0 8) (e[2].getLsbD 8) (e[2].getLsbD 9) (e.stamp 3) := by
  simp only [commandOf, h]

theorem commandOf_recStop (h : (e.field 0 0 8).toNat = 6) : commandOf e = .recStop e[1] (e.field 2 0 8) (e.stamp 3) := by
  simp only [commandOf, h]

theorem commandOf_replay (h : (e.field 0 0 8).toNat = 7) :
    commandOf e = .replay e[1] (e.field 2 0 3).toFin (e.field 2 3 2) (e[2].getLsbD 5) (e.stamp 3) (e.stamp 6) (e.field 9 0 8)
      (e.field 9 8 8) := by
  simp only [commandOf, h]

theorem commandOf_snapshotAt (h : (e.field 0 0 8).toNat = 8) : commandOf e = .snapshotAt e[1] (e.stamp 2) e[5] := by
  simp only [commandOf, h]

theorem commandOf_acqRestart (h : (e.field 0 0 8).toNat = 9) : commandOf e = .acqRestart e[1] (e.field 2 0 8) := by
  simp only [commandOf, h]

theorem commandOf_imageRestart (h : (e.field 0 0 8).toNat = 10) : commandOf e = .imageRestart e[1] (e[2].getLsbD 0) := by
  simp only [commandOf, h]

theorem commandOf_nvmRead (h : (e.field 0 0 8).toNat = 11) : commandOf e = .nvmRead e[1] e[2] e[3] (e[5] ++ e[4]) := by
  simp only [commandOf, h]

theorem commandOf_nvmErase (h : (e.field 0 0 8).toNat = 12) : commandOf e = .nvmErase e[1] e[2] e[3] := by
  simp only [commandOf, h]

theorem commandOf_nvmProgram (h : (e.field 0 0 8).toNat = 13) : commandOf e = .nvmProgram e[1] e[2] e[3] (e[5] ++ e[4]) := by
  simp only [commandOf, h]

theorem commandOf_sealLogRead (h : (e.field 0 0 8).toNat = 14) : commandOf e = .sealLogRead e[1] e[2] e[3] (e[5] ++ e[4]) := by
  simp only [commandOf, h]

theorem commandOf_unlisted (h : (e.field 0 0 8).toNat = 15) : commandOf e = .unknownOpcode (e.field 0 0 8) e[1] := by
  simp only [commandOf, h]

end

/-! ### The words written out -/

/-- The stamp of the words 0x11111111, 0x22222222 and 0x33333333 in record order (R133). -/
theorem stamp_of_low {x : BitVec 96} (h : x = 0x33333333#32 ++ 0x22222222#32 ++ 0x11111111#32) : x = 0x333333332222222211111111 :=
  h.trans (by decide)

/-- The stamp of the words 0x44444444, 0x55555555 and 0x66666666 in record order (R133). -/
theorem stamp_of_high {x : BitVec 96} (h : x = 0x66666666#32 ++ 0x55555555#32 ++ 0x44444444#32) : x = 0x666666665555555544444444 :=
  h.trans (by decide)

/-- The host address of the words 0x89ABCDEF and 0x01234567, the low one first (R80). -/
theorem host_of_words {x : BitVec 64} (h : x = 0x01234567#32 ++ 0x89ABCDEF#32) : x = 0x0123456789ABCDEF := h.trans (by decide)

theorem entries_of_settings : Claims.RingEntries.entries_of_settings := by
  intro tag
  refine ⟨(commandOf_setLive ?_).trans ?_, (commandOf_selectProfile rfl).trans (congrArg _ ?_), (commandOf_acqRestart rfl).trans ?_,
    (commandOf_imageRestart rfl).trans ?_, (commandOf_unlisted rfl).trans ?_⟩
  · show ((0xABCDEF01#32).extractLsb' 0 8).toNat = 1
    decide
  · simp
  · show (0xFFFFFFF9#32).extractLsb' 0 4 = 9
    decide
  · simp [RingEntry.field]
  · simp
  · simp [RingEntry.field]

theorem entries_of_acquisition : Claims.RingEntries.entries_of_acquisition := by
  intro tag
  refine ⟨(commandOf_arm rfl).trans ?_, (commandOf_disarm rfl).trans ?_, (commandOf_snapshotAt rfl).trans ?_⟩
  · congr 1
    · simp [RingEntry.field]
    · simp [RingEntry.field]
    · simp [RingEntry.field]
    · exact stamp_of_low rfl
  · congr 1
    · simp [RingEntry.field]
    · simp [RingEntry.field]
    · simp [RingEntry.field]
    · exact stamp_of_low rfl
  · exact congrArg (Instr.snapshotAt tag · _) (stamp_of_low rfl)

theorem entries_of_recording : Claims.RingEntries.entries_of_recording := by
  intro tag
  refine ⟨(commandOf_recStart rfl).trans ?_, (commandOf_recStop rfl).trans ?_, (commandOf_replay rfl).trans ?_⟩
  · congr 1
    · simp [RingEntry.field]
    · simp
    · simp
    · exact stamp_of_low rfl
  · exact congrArg (Instr.recStop tag 3) (stamp_of_low rfl)
  · congr 1
    · simp [RingEntry.field]
    · simp [RingEntry.field]
    · simp
    · exact stamp_of_low rfl
    · exact stamp_of_high rfl
    · simp [RingEntry.field]
    · simp [RingEntry.field]

theorem entries_of_the_flash : Claims.RingEntries.entries_of_the_flash := fun _ =>
  ⟨(commandOf_nvmRead rfl).trans (congrArg _ (host_of_words rfl)), commandOf_nvmErase rfl,
    (commandOf_nvmProgram rfl).trans (congrArg _ (host_of_words rfl)), (commandOf_sealLogRead rfl).trans (congrArg _ (host_of_words rfl))⟩

/-- Settles O12: the opcode in word 0 [7:0] selects the command, and its operands are the fields that the layout gives it. -/
theorem ringEntries : Obligations.RingEntries :=
  ⟨entries_of_settings, entries_of_acquisition, entries_of_recording, entries_of_the_flash⟩

end Sys2Proof
end

section
/-! The event ring before its first enable and after it (R85, R86). -/
namespace Sys2Proof.Machine

/-- An event raised while events are buffered (R86). -/
theorem State.ringEvent_of_buffering {s : State} (h : s.img.buffering = true) (r : Rec) (c : Bool) :
    s.ringEvent r c =
      if s.img.buffer.length + 1 > 256 then
        s.modImg fun y => { y with buffer := (s.img.buffer ++ [r]).drop 1, bufferDropped := s.img.bufferDropped + 1 }
      else s.modImg fun y => { y with buffer := s.img.buffer ++ [r] } := by
  simp [State.ringEvent, h]

theorem State.ringWrite_img (s : State) (r : Rec) :
    (s.ringWrite r).img = { s.img with evt := { s.img.evt with tail := s.img.evt.bump s.img.evt.tail } } := by
  simp only [State.ringWrite]
  split <;> with_unfolding_all rfl

/-- What an event leaves of the buffer once buffering has ended. -/
theorem State.ringEvent_img_buffer {s : State} (h : s.img.buffering = false) (r : Rec) (c : Bool) :
    (s.ringEvent r c).img.buffer = s.img.buffer ∧ (s.ringEvent r c).img.bufferDropped = s.img.bufferDropped ∧
      (s.ringEvent r c).img.evt.enable = s.img.evt.enable ∧ (s.ringEvent r c).img.buffering = false := by
  simp only [State.ringEvent, h, Bool.false_eq_true, if_false]
  (repeat' split) <;> simp [State.ringWrite_img, State.modImg, h]

theorem State.ringEvents_img_buffer (l : List Rec) {s : State} (h : s.img.buffering = false) :
    let t := l.foldl (fun u r => u.ringEvent r false) s
    t.img.buffer = s.img.buffer ∧ t.img.bufferDropped = s.img.bufferDropped ∧ t.img.evt.enable = s.img.evt.enable ∧
      t.img.buffering = false := by
  induction l generalizing s with
  | nil => exact ⟨rfl, rfl, rfl, h⟩
  | cons r l ih =>
    obtain ⟨hbuf, hdrop, hen, hoff⟩ := s.ringEvent_img_buffer h r false
    obtain ⟨h1, h2, h3, h4⟩ := ih hoff
    exact ⟨h1.trans hbuf, h2.trans hdrop, h3.trans hen, h4⟩

/-- Emptying the buffer ends buffering. -/
def State.endBuffering (s : State) : State := s.modImg fun i => { i with buffering := false, buffer := [], bufferDropped := 0 }

theorem State.drainBuffer_eq (s : State) :
    s.drainBuffer = s.img.buffer.foldl (fun u r => u.ringEvent r false)
      (if s.img.bufferDropped > 0 then s.endBuffering.ringEvent (s.endBuffering.lostRec s.img.bufferDropped) false else s.endBuffering) := rfl

theorem State.drainBuffer_img (s : State) :
    s.drainBuffer.img.buffer = [] ∧ s.drainBuffer.img.bufferDropped = 0 ∧ s.drainBuffer.img.evt.enable = s.img.evt.enable ∧
      s.drainBuffer.img.buffering = false := by
  rw [State.drainBuffer_eq]
  split
  · obtain ⟨hbuf, hdrop, hen, hoff⟩ := State.ringEvent_img_buffer (s := s.endBuffering) rfl (s.endBuffering.lostRec s.img.bufferDropped) false
    obtain ⟨h1, h2, h3, h4⟩ := State.ringEvents_img_buffer s.img.buffer hoff
    exact ⟨h1.trans hbuf, h2.trans hdrop, h3.trans hen, h4⟩
  · exact State.ringEvents_img_buffer s.img.buffer (s := s.endBuffering) rfl

theorem buffer_keeps_256 : Claims.EventBuffer.buffer_keeps_256 := by
  intro s r hbuf hlen
  rw [State.ringEvent_of_buffering hbuf]
  split
  · next h =>
    have hfull : s.img.buffer.length = 256 := by omega
    refine ⟨by simp [State.modImg, hfull], ?_, rfl⟩
    simp [State.modImg]
    omega
  · next h =>
    have hroom : s.img.buffer.length + 1 - 256 = 0 := by omega
    refine ⟨by simp [State.modImg, hroom], ?_, rfl⟩
    simp [State.modImg]
    omega

theorem enable_drains : Claims.EventBuffer.enable_drains := by
  intro s h
  obtain ⟨hbuf, -, -, hoff⟩ := s.drainBuffer_img
  exact ⟨by rw [State.drainBuffer_eq, if_neg (by omega)]; rfl, hbuf, hoff⟩

end Sys2Proof.Machine

namespace Sys2Proof
open Sys2Proof.Machine

/-- Settles O9: a full buffer drops its oldest event and counts it; the first enable empties the buffer, and an event raised after
it goes past the buffer. -/
theorem eventBuffer : Obligations.EventBuffer := ⟨buffer_keeps_256, enable_drains⟩

end Sys2Proof
end

section
/-! Programming the setup flash (R33, R82, log entry 7). -/
namespace Sys2Proof.Machine

/-- The byte that programming `x` at an offset leaves there: what a byte that was not erased becomes is a free value
(log entry 7). -/
def State.programmed (s : State) (off : Nat) (x : Byte) : Byte × State :=
  if Sparse.get 0xFF#8 s.flash.bytes off = 0xFF#8 ∨ Sparse.get 0xFF#8 s.flash.bytes off = x then (x, s) else s.takeFree 8

theorem State.programmed_flash (s : State) (off : Nat) (x : Byte) : (s.programmed off x).2.flash = s.flash := by
  unfold State.programmed
  split <;> with_unfolding_all rfl

theorem State.programmed_of_erased {s : State} {off : Nat} (h : Sparse.get 0xFF#8 s.flash.bytes off = 0xFF#8) (x : Byte) :
    (s.programmed off x).1 = x := by
  simp [State.programmed, h]

/-- One byte more is programmed. -/
def State.programByte (s : State) (off : Nat) (x : Byte) : State :=
  (s.programmed off x).2.modFlash fun f => f.put off [(s.programmed off x).1]

theorem State.programBytes_cons (s : State) (off : Nat) (x : Byte) (bs : List Byte) :
    s.programBytes off (x :: bs) = (s.programByte off x).programBytes (off + 1) bs := rfl

theorem State.programByte_bytes (s : State) (off : Nat) (x : Byte) :
    (s.programByte off x).flash.bytes = Sparse.set 0xFF#8 s.flash.bytes off (s.programmed off x).1 := by
  simp only [State.programByte, State.modFlash, Flash.put, State.programmed_flash]
  rfl

theorem State.get_programByte (s : State) (off : Nat) (x : Byte) (a : Nat) :
    Sparse.get 0xFF#8 (s.programByte off x).flash.bytes a =
      if a = off then (s.programmed off x).1 else Sparse.get 0xFF#8 s.flash.bytes a := by
  rw [State.programByte_bytes, Sparse.get_set]

theorem flash_outside : Claims.FlashMemory.flash_outside := by
  intro s off bs a
  induction bs generalizing s off with
  | nil => intro _; rfl
  | cons x bs ih =>
    intro h
    rw [List.length_cons] at h
    rw [State.programBytes_cons, ih _ _ (by omega), State.get_programByte, if_neg (by omega)]

theorem flash_inside : Claims.FlashMemory.flash_inside := by
  intro s off bs i
  induction bs generalizing s off i with
  | nil => intro h; exact absurd h (Nat.not_lt_zero _)
  | cons x bs ih =>
    intro h he
    rw [State.programBytes_cons]
    cases i with
    | zero => rw [flash_outside _ _ _ _ (by omega), State.get_programByte, if_pos (by omega)]; exact State.programmed_of_erased he x
    | succ j =>
      have hj : off + (j + 1) = off + 1 + j := by omega
      rw [hj] at he ⊢
      rw [ih _ _ _ (by simpa using h) (by rw [State.get_programByte, if_neg (by omega), he])]
      rfl

theorem flash_canonical : Claims.FlashMemory.flash_canonical := by
  intro s off bs
  induction bs generalizing s off with
  | nil => exact id
  | cons x bs ih =>
    intro h
    rw [State.programBytes_cons]
    exact ih _ _ (by rw [State.programByte_bytes]; exact Sparse.wf_set _ _ _ _ h)

end Sys2Proof.Machine

namespace Sys2Proof
open Sys2Proof.Machine

/-- Settles O10: by induction on the bytes programmed, each of which writes its own place alone (log entry 7). -/
theorem flashMemory : Obligations.FlashMemory := ⟨flash_outside, flash_inside, flash_canonical⟩

end Sys2Proof
end

section
/-! The host rings: which command is taken and what the ring commands leave of the package, and the clauses of HostRings, SetLiveRefusals
and RingCommands. -/
namespace Sys2Proof.Machine

/-! ### The meanings of the commands -/

theorem exec_imgCmdTailWrite (v : BitVec 12) (s : State) : exec (.imgCmdTailWrite v) s = execImgCmdTailWrite v s := (rfl)
theorem exec_imgCmdCfgWrite (v : Word) (s : State) : exec (.imgCmdCfgWrite v) s = execImgCmdCfgWrite v s := (rfl)
theorem exec_imgEvtCfgWrite (v : Word) (s : State) : exec (.imgEvtCfgWrite v) s = execImgEvtCfgWrite v s := (rfl)
theorem exec_imgEvtHeadWrite (v : BitVec 12) (s : State) : exec (.imgEvtHeadWrite v) s = execImgEvtHeadWrite v s := (rfl)
theorem exec_imgEvtLostRead (s : State) : exec .imgEvtLostRead s = execImgEvtLostRead s := (rfl)
theorem exec_setLive (tag key value : Word) (defer : Bool) (s : State) :
    exec (.setLive tag key value defer) s = execSetLive tag key value defer s := (rfl)
theorem exec_liveApplyImmediate (b : BayNo) (s : State) : exec (.liveApplyImmediate b) s = execLiveApplyImmediate b s := (rfl)
theorem exec_snapshotAt (tag id : Word) (a : Stamp) (s : State) : exec (.snapshotAt tag a id) s = execSnapshotAt tag a id s := (rfl)
theorem exec_acqRestart (tag : Word) (mask : BitVec 8) (s : State) : exec (.acqRestart tag mask) s = execAcqRestart tag mask s := (rfl)
theorem exec_unknownOpcode (op : BitVec 8) (tag : Word) (s : State) :
    exec (.unknownOpcode op tag) s = execUnknownOpcode op tag s := (rfl)
theorem exec_nvmRead (tag off len : Word) (host : BitVec 64) (s : State) :
    exec (.nvmRead tag off len host) s = execNvmRead tag off len host s := (rfl)
theorem exec_nvmErase (tag off len : Word) (s : State) : exec (.nvmErase tag off len) s = execNvmErase tag off len s := (rfl)
theorem exec_nvmProgram (tag off len : Word) (host : BitVec 64) (s : State) :
    exec (.nvmProgram tag off len host) s = execNvmProgram tag off len host s := (rfl)
theorem exec_sealLogRead (tag first count : Word) (host : BitVec 64) (s : State) :
    exec (.sealLogRead tag first count host) s = execSealLogRead tag first count host s := (rfl)
theorem exec_flashCommandDone (good : Bool) (data : List Byte) (s : State) :
    exec (.flashCommandDone good data) s = execFlashCommandDone good data s := (rfl)

/-! ### Taking a command (R78, R81, R85, R559) -/

/-- The ring with its head moved on by one. -/
def State.headTaken (s : State) : State := s.modImg fun i => { i with cmd := { i.cmd with head := i.cmd.bump i.cmd.head } }

theorem takeCommand_when : Claims.HostRings.takeCommand_when := by
  intro s u
  have hu : s.takeCommand = if s.alive 0 && (s.bay 0).pci[4].linkUp && (s.bay 0).pci[4].bme && !(s.bay 0).pci[4].d3 &&
      s.img.cmd.enable && decide (s.img.cmd.used > 0) && !s.img.buffering && decide (s.img.evt.space > s.img.flashQueue.length)
      then some s.headTaken else none := rfl
  rw [hu]
  split
  · next h =>
    simp only [Bool.and_eq_true, Bool.not_eq_true', decide_eq_true_eq] at h
    obtain ⟨⟨⟨⟨⟨⟨⟨halive, hlink⟩, hbme⟩, hd3⟩, hen⟩, hused⟩, hbuf⟩, hspace⟩ := h
    exact ⟨fun e => ⟨halive, hlink, hbme, hd3, hen, hused, hbuf, hspace, (Option.some.inj e).symm⟩, fun ⟨_, _, _, _, _, _, _, _, e⟩ => e ▸ rfl⟩
  · next h =>
    refine ⟨fun e => (Option.some_ne_none _ e.symm).elim, fun ⟨halive, hlink, hbme, hd3, hen, hused, hbuf, hspace, _⟩ => absurd ?_ h⟩
    simp only [halive, hlink, hbme, hd3, hen, hused, hbuf, hspace, decide_true, Bool.not_false, Bool.and_self]

theorem State.eq_of_taken {s u : State} (h : s.takeCommand = some u) : u = s.headTaken := by
  obtain ⟨_, _, _, _, _, _, _, _, hu⟩ := (takeCommand_when s u).mp h
  exact hu

/-! ### The registers of the rings (R75, R77, R78) -/

theorem imgCmdTailWrite_done : Claims.HostRings.imgCmdTailWrite_done := fun s v halive =>
  ⟨_, by rw [exec_imgCmdTailWrite, execImgCmdTailWrite, halive]; rfl, rfl⟩

theorem imgEvtHeadWrite_done : Claims.HostRings.imgEvtHeadWrite_done := fun s v halive =>
  ⟨_, by rw [exec_imgEvtHeadWrite, execImgEvtHeadWrite, halive]; rfl, rfl⟩

theorem imgEvtLostRead_done : Claims.HostRings.imgEvtLostRead_done := fun s halive =>
  ⟨_, by rw [exec_imgEvtLostRead, execImgEvtLostRead, halive]; rfl, rfl⟩

/-- A write to a disabled ring takes SIZE_LOG2, and ENABLE with a size of 4 to 12 (R77, R78). -/
theorem Ring.configure_disabled {r : Ring} (h : r.enable = false) (v : Word) (events : Bool) :
    r.configure v events =
      { (if events then { r with vector := v.extractLsb' 8 8, irq := v.getLsbD 30 } else r) with
        sizeLog2 := v.extractLsb' 0 4
        enable := v.getLsbD 31 && decide (4 ≤ (v.extractLsb' 0 4).toNat ∧ (v.extractLsb' 0 4).toNat ≤ 12) } := by
  simp only [Ring.configure, h, Bool.false_eq_true, if_false]

/-- A write to an enabled ring keeps the size; one that clears ENABLE resets the indices (R77, R78). -/
theorem Ring.configure_enabled {r : Ring} (h : r.enable = true) (v : Word) (events : Bool) :
    r.configure v events =
      { (if events then { r with vector := v.extractLsb' 8 8, irq := v.getLsbD 30 } else r) with
        enable := v.getLsbD 31
        head := if v.getLsbD 31 = true then r.head else 0
        tail := if v.getLsbD 31 = true then r.tail else 0 } := by
  cases r
  cases h
  simp only [Ring.configure, if_true]
  cases v.getLsbD 31 <;> cases events <;> rfl

theorem exec_imgCmdCfgWrite_alive {s : State} (halive : s.alive 0 = true) (v : Word) :
    exec (.imgCmdCfgWrite v) s = .next (s.modImg fun i => { i with cmd := i.cmd.configure v false }) := by
  rw [exec_imgCmdCfgWrite, execImgCmdCfgWrite, halive]
  rfl

theorem imgCmdCfgWrite_enable : Claims.HostRings.imgCmdCfgWrite_enable := by
  intro s v halive hoff
  refine ⟨_, exec_imgCmdCfgWrite_alive halive v, ?_⟩
  simp only [State.modImg, Ring.configure_disabled hoff]
  simp

theorem imgCmdCfgWrite_enabled : Claims.HostRings.imgCmdCfgWrite_enabled := by
  intro s v halive hon
  refine ⟨_, exec_imgCmdCfgWrite_alive halive v, ?_⟩
  simp only [State.modImg, Ring.configure_enabled hon]
  simp

/-- The event ring with its configuration written. -/
def State.evtConfigured (s : State) (v : Word) : State := s.modImg fun i => { i with evt := i.evt.configure v true }

theorem exec_imgEvtCfgWrite_alive {s : State} (halive : s.alive 0 = true) (v : Word) :
    exec (.imgEvtCfgWrite v) s = .next (if (s.evtConfigured v).img.evt.enable && !s.img.evt.enable && s.img.buffering then
      (s.evtConfigured v).drainBuffer else s.evtConfigured v) := by
  rw [exec_imgEvtCfgWrite, execImgEvtCfgWrite, halive]
  rfl

theorem imgEvtCfgWrite_done : Claims.HostRings.imgEvtCfgWrite_done := by
  intro s v halive hbuf hon
  refine ⟨s.evtConfigured v, ?_, ?_⟩
  · rw [exec_imgEvtCfgWrite_alive halive, hbuf, Bool.and_false]
    rfl
  · simp only [State.evtConfigured, State.modImg, Ring.configure_enabled hon]
    simp

theorem imgEvtCfgWrite_first : Claims.HostRings.imgEvtCfgWrite_first := by
  intro s v halive hbuf hoff h31 hlow hhigh
  have hen : (s.evtConfigured v).img.evt.enable = true := by
    simp only [State.evtConfigured, State.modImg, Ring.configure_disabled hoff, h31, hlow, hhigh, and_self, decide_true, Bool.and_self]
  obtain ⟨hempty, hdropped, hkept, hended⟩ := (s.evtConfigured v).drainBuffer_img
  refine ⟨(s.evtConfigured v).drainBuffer, ?_, hended, hempty, hdropped, hkept.trans hen⟩
  rw [exec_imgEvtCfgWrite_alive halive, hen, hoff, hbuf]
  rfl

/-! ### SET_LIVE turned away (R84) -/

/-- The bays that a key selects have no declaration of the field, or one of them has none (R84, log entry 66). -/
theorem exec_setLive_uncovered {s u : State} {key : Word} {f : Field} {i : Nat} (htake : s.takeCommand = some u)
    (hrun : u.inStates true = true) (hf : findField (keyOfWord key.toNat).block (keyOfWord key.toNat).id = some (f, i))
    (hnone : ∃ b ∈ maskList (u.keyMask f (keyOfWord key.toNat)), u.declsOf (keyOfWord key.toNat) b = []) (tag value : Word) (defer : Bool) :
    exec (.setLive tag key value defer) s = .next (u.complete 1 tag stNotLive key u.now) := by
  have hany : (maskList (u.keyMask f (keyOfWord key.toNat))).any (fun b => (u.declsOf (keyOfWord key.toNat) b).isEmpty) = true := by
    simpa using hnone
  rw [exec_setLive, execSetLive, State.ringCommand_of_taken htake]
  simp [hrun, hf, hany]

theorem exec_setLive_outside {s u : State} {key value : Word} {f : Field} {i : Nat} (htake : s.takeCommand = some u)
    (hrun : u.inStates true = true) (hf : findField (keyOfWord key.toNat).block (keyOfWord key.toNat).id = some (f, i))
    (hmask : u.keyMask f (keyOfWord key.toNat) ≠ 0)
    (hall : ∀ b ∈ maskList (u.keyMask f (keyOfWord key.toNat)), u.declsOf (keyOfWord key.toNat) b ≠ [])
    (hout : ∃ b ∈ maskList (u.keyMask f (keyOfWord key.toNat)), ∃ d ∈ u.declsOf (keyOfWord key.toNat) b,
      valueOf f value.toNat < d.min ∨ d.max < valueOf f value.toNat) (tag : Word) (defer : Bool) :
    exec (.setLive tag key value defer) s = .next (u.complete 1 tag stOutOfRange key u.now) := by
  have hany : (maskList (u.keyMask f (keyOfWord key.toNat))).any (fun b => (u.declsOf (keyOfWord key.toNat) b).isEmpty) = false := by
    simpa using hall
  have hbad : ((maskList (u.keyMask f (keyOfWord key.toNat))).flatMap fun b => u.declsOf (keyOfWord key.toNat) b).any
      (fun d => decide (valueOf f value.toNat < d.min ∨ d.max < valueOf f value.toNat)) = true := by
    obtain ⟨b, hb, d, hd, h⟩ := hout
    exact List.any_eq_true.mpr ⟨d, List.mem_flatMap.mpr ⟨b, hb, hd⟩, decide_eq_true h⟩
  rw [exec_setLive, execSetLive, State.ringCommand_of_taken htake]
  simp only [hrun, hf, hmask, hany, hbad, Bool.not_true, Bool.false_eq_true, if_false, or_self, or_true, if_true]

/-- The completion of a command taken from the ring leaves the settings, what waits, the seal log and the flash. -/
theorem State.complete_of_taken {s u : State} (h : s.takeCommand = some u) (op : Nat) (tag : Word) (status : Nat) (detail : Word)
    (a : Stamp) : (u.complete op tag status detail a).vals = s.vals ∧ (u.complete op tag status detail a).img.waiting = s.img.waiting ∧
      (u.complete op tag status detail a).keeper.island = s.keeper.island ∧ (u.complete op tag status detail a).flash = s.flash := by
  rw [s.eq_of_taken h]
  simp [State.complete, State.headTaken]

theorem setLive_uncovered : Claims.SetLiveRefusals.setLive_uncovered := fun _ _ tag _ value defer _ _ htake hrun hf hnone =>
  ⟨_, exec_setLive_uncovered htake hrun hf hnone tag value defer, rfl, State.complete_of_taken htake ..⟩

theorem setLive_outside : Claims.SetLiveRefusals.setLive_outside := fun _ _ tag _ _ defer _ _ htake hrun hf hmask hall hout =>
  ⟨_, exec_setLive_outside htake hrun hf hmask hall hout tag defer, rfl, State.complete_of_taken htake ..⟩

/-! ### SNAPSHOT_AT, ACQ_RESTART and an opcode that is not listed (R80, R83, R164) -/

/-- A snapshot waits in stamp order and its command completes with OK (R164). -/
def State.scheduleSnap (u : State) (tag id : Word) (a : Stamp) : State :=
  let snaps := (u.tbs.snaps.filter fun x => stampLe x.1 a) ++ [(a, id)] ++ u.tbs.snaps.filter fun x => !stampLe x.1 a
  (u.modTbsPkg fun y => { y with snaps := snaps }).complete 8 tag stOk 0 u.now

theorem exec_snapshotAt_accepted {s u : State} {a : Stamp} (htake : s.takeCommand = some u) (hrun : u.inStates true = true)
    (hlead : stampLt a u.epochLead = false) (hroom : u.tbs.snaps.length < 2) (tag id : Word) :
    exec (.snapshotAt tag a id) s = .next (if u.pkgN Fld.lnlShoalSize > 1 then
      (u.scheduleSnap tag id a).emit (.packet "SNAPSHOT" 0 (stampWords a ++ [id])) else u.scheduleSnap tag id a) := by
  have hpkg : (u.scheduleSnap tag id a).pkgN Fld.lnlShoalSize = u.pkgN Fld.lnlShoalSize := by simp [State.scheduleSnap, State.complete]
  rw [exec_snapshotAt, execSnapshotAt, State.ringCommand_of_taken htake, ← hpkg]
  simp only [hrun, hlead, Nat.not_le.mpr hroom, Bool.not_true, Bool.false_eq_true, if_false]
  rfl

theorem snapshotAt_done : Claims.RingCommands.snapshotAt_done := by
  intro s u tag id a htake hrun hlead hroom
  refine ⟨_, exec_snapshotAt_accepted htake hrun hlead hroom tag id, ?_, _, rfl⟩
  split <;> simp [State.scheduleSnap, State.complete, State.modTbsPkg]

theorem acqRestart_done : Claims.RingCommands.acqRestart_done := by
  intro s u tag mask htake hrun hmask
  refine ⟨_, ?_, rfl⟩
  rw [exec_acqRestart, execAcqRestart, State.ringCommand_of_taken htake]
  simp [hrun, hmask]

theorem unknownOpcode_done : Claims.RingCommands.unknownOpcode_done := by
  intro s u op tag htake hop
  refine ⟨_, ?_, rfl⟩
  rw [exec_unknownOpcode, execUnknownOpcode, if_neg (by omega), State.ringCommand_of_taken htake]

/-! ### The flash queue (R81, R82) -/

theorem nvmRead_queued : Claims.RingCommands.nvmRead_queued := fun _ _ _ _ _ _ htake =>
  ⟨_, by rw [exec_nvmRead, execNvmRead, State.ringCommand_of_taken htake]; rfl, rfl⟩

theorem nvmErase_queued : Claims.RingCommands.nvmErase_queued := fun _ _ _ _ _ htake =>
  ⟨_, by rw [exec_nvmErase, execNvmErase, State.ringCommand_of_taken htake]; rfl, rfl⟩

theorem nvmProgram_queued : Claims.RingCommands.nvmProgram_queued := fun _ _ _ _ _ _ htake =>
  ⟨_, by rw [exec_nvmProgram, execNvmProgram, State.ringCommand_of_taken htake]; rfl, rfl⟩

theorem sealLogRead_queued : Claims.RingCommands.sealLogRead_queued := fun _ _ _ _ _ _ htake =>
  ⟨_, by rw [exec_sealLogRead, execSealLogRead, State.ringCommand_of_taken htake]; rfl, rfl⟩

theorem flashStatus_protected : Claims.RingCommands.flashStatus_protected := by
  intro s off len hstate hlog
  constructor <;> simp only [State.flashStatus, hstate, hlog, if_false, if_true]

/-- A byte of a sparse store from which the keys that fail `p` have gone. -/
theorem Sparse.get_filter_key {α : Type} (d : α) (p : Nat → Bool) (m : Sparse α) (a : Nat) :
    Sparse.get d (m.filter fun c => p c.1) a = if p a then Sparse.get d m a else d := by
  induction m with
  | nil => simp [Sparse.get]
  | cons e r ih =>
    obtain ⟨k, v⟩ := e
    by_cases hk : p k = true
    · simp only [List.filter_cons, hk, if_true, Sparse.get, ih]
      by_cases ha : a = k
      · subst ha; simp [hk]
      · simp [ha]
    · simp only [List.filter_cons, hk, Bool.false_eq_true, if_false, ih]
      by_cases ha : a = k
      · subst ha; simp [hk]
      · simp [Sparse.get, ha]

theorem Flash.get_wipe (f : Flash) (off n a : Nat) :
    Sparse.get 0xFF#8 (f.wipe off n).bytes a = if off ≤ a ∧ a < off + n then 0xFF#8 else Sparse.get 0xFF#8 f.bytes a := by
  rw [Flash.wipe, Sparse.get_filter_key _ (fun k => decide (k < off ∨ off + n ≤ k))]
  by_cases h : off ≤ a ∧ a < off + n
  · rw [if_pos h, if_neg (by simp; omega)]
  · rw [if_neg h, if_pos (by simp; omega)]

theorem flashCommandDone_refused : Claims.RingCommands.flashCommandDone_refused := by
  intro s c rest good data hq halive hstatus
  refine ⟨_, ?_, rfl⟩
  rw [exec_flashCommandDone, execFlashCommandDone, hq]
  simp [halive, hstatus]

/-- The flash queue without its oldest command, whose range is erased (R82). -/
def State.erased (s : State) (c : FlashCmd) (rest : List FlashCmd) : State :=
  (s.modImg fun i => { i with flashQueue := rest }).modFlash fun _ => s.flash.wipe c.off c.len

theorem flashCommandDone_erase : Claims.RingCommands.flashCommandDone_erase := by
  intro s c rest data hq halive hstatus hop _
  refine ⟨(s.erased c rest).complete c.op.opcode c.tag stOk 0 c.taken, ?_, ?_, fun a => ?_, _, rfl⟩
  · rw [exec_flashCommandDone, execFlashCommandDone, hq]
    simp [halive, hstatus, hop, State.flashEffect, State.erased]
  · simp [State.complete, State.erased]
  · rw [State.complete, State.event_flash]
    exact s.flash.get_wipe ..

end Sys2Proof.Machine

namespace Sys2Proof
open Sys2Proof.Machine

/-- Settles O17: the guard of a taken command, and a ring's configuration by whether the ring is enabled. -/
theorem hostRings : Obligations.HostRings :=
  ⟨takeCommand_when, imgCmdTailWrite_done, imgCmdCfgWrite_enable, imgCmdCfgWrite_enabled, imgEvtCfgWrite_done, imgEvtCfgWrite_first,
    imgEvtHeadWrite_done, imgEvtLostRead_done⟩

/-- Settles O16: the declarations are looked at first and then the range, and a refusal is the completion alone. -/
theorem setLiveRefusals : Obligations.SetLiveRefusals := ⟨setLive_uncovered, setLive_outside⟩

/-- Settles O18: what a taken command of the ring does where it is accepted; an erase leaves the bytes outside its range. -/
theorem ringCommands : Obligations.RingCommands :=
  ⟨snapshotAt_done, acqRestart_done, unknownOpcode_done, nvmRead_queued, nvmErase_queued, nvmProgram_queued, sealLogRead_queued,
    flashStatus_protected, flashCommandDone_erase, flashCommandDone_refused⟩

end Sys2Proof
end

section
/-! LIVE_APPLY_IMMEDIATE in a bay that the headland does not reach, against LiveValuesAndProfiles. -/
namespace Sys2Proof.Machine

/-- AFE.AUTO_STEP of bay 1 waits to be 9. -/
def autoStepWaiting : Waiting := .value { block := 3, mask := 2, id := 33 } 2 9 .immediate 0 false false

/-- A running package whose bays have found no routes yet: bay 1 is alive, the headland does not reach it, and a value waits for it. -/
def waitingBeyondReach : State :=
  { State.reset with
    pwr := { PwrPkg.reset with state := .run }
    img := { Img.reset with waiting := [autoStepWaiting] } }

/-- The bay is alive and the value is an IMMEDIATE value that waits for it. -/
theorem waitingBeyondReach_finds :
    waitingBeyondReach.alive 1 = true ∧
      waitingBeyondReach.img.waiting.find? (fun w => w.appliesAt .immediate && (match w with
        | .value _ left _ _ _ _ _ => left.testBit (1 : BayNo).val
        | .profile .. => false)) = some autoStepWaiting := by
  decide +kernel

/-- The headland's values do not reach the bay: nothing is done. -/
theorem waitingBeyondReach_stays : exec (.liveApplyImmediate 1) waitingBeyondReach = .next waitingBeyondReach := by
  have hfar : waitingBeyondReach.reaches 0 1 = false := by decide +kernel
  rw [exec_liveApplyImmediate, execLiveApplyImmediate, hfar, Bool.not_false, Bool.or_true]
  rfl

/-- A value that takes effect waits no longer. -/
theorem waitingBeyondReach_taken : (waitingBeyondReach.takeEffect 1 fun x => decide (x = autoStepWaiting)).img.waiting = [] := by
  decide +kernel

theorem not_liveApplyImmediate_done : ¬ Claims.LiveValuesAndProfiles.liveApplyImmediate_done := by
  intro h
  obtain ⟨t, he, ht⟩ := h waitingBeyondReach 1 autoStepWaiting waitingBeyondReach_finds.1 waitingBeyondReach_finds.2
  rw [waitingBeyondReach_stays] at he
  cases he
  have hnone : waitingBeyondReach.img.waiting = [] := (congrArg (·.img.waiting) ht).trans waitingBeyondReach_taken
  exact absurd hnone (by decide)

end Sys2Proof.Machine

namespace Sys2Proof
open Sys2Proof.Machine

/-- Refutes O15: its clause on LIVE_APPLY_IMMEDIATE asks only that the bay is alive, and a value of the headland does not take effect in a
bay that the headland does not reach (R610). -/
theorem not_liveValuesAndProfiles : ¬ Obligations.LiveValuesAndProfiles :=
  fun ⟨_, _, _, _, _, _, _, himmediate⟩ => not_liveApplyImmediate_done himmediate

end Sys2Proof
end

section
/-! PCIe endpoints: what serving a port and resetting a function leave of the endpoints and of the host rings (R95, R559). -/
namespace Sys2Proof.Machine

theorem exec_pcieLinkUp (b : BayNo) (j : Fin 5) (gen width : Nat) (rev : Bool) (s : State) :
    exec (.pcieLinkUp b j gen width rev) s = execPcieLinkUp b j gen width rev s := (rfl)
theorem exec_pcieLinkDown (b : BayNo) (j : Fin 5) (s : State) : exec (.pcieLinkDown b j) s = execPcieLinkDown b j s := (rfl)
theorem exec_pcieReset (b : BayNo) (j : Fin 5) (s : State) : exec (.pcieReset b j) s = execPcieReset b j s := (rfl)
theorem exec_pcieBmeChange (b : BayNo) (j : Fin 5) (bme d3 : Bool) (s : State) :
    exec (.pcieBmeChange b j bme d3) s = execPcieBmeChange b j bme d3 s := (rfl)

/-! ### What the steps of a meaning leave -/

theorem State.pci_of_view {s t : State} (h : s.view { pci := true } = t.view { pci := true }) (b : BayNo) :
    (s.bay b).pci = (t.bay b).pci := by
  have hbay : (s.bay b).view { pci := true } = (t.bay b).view { pci := true } := by rw [← State.view_bay, h, State.view_bay]
  simpa [Bay.view] using congrArg Bay.pci hbay

theorem State.rings_of_still {s t : State} (h : s.img.still = t.img.still) :
    s.img.cmd.enable = t.img.cmd.enable ∧ s.img.evt.enable = t.img.evt.enable :=
  ⟨congrArg (·.cmd.enable) h, congrArg (·.evt.enable) h⟩

theorem State.imgStill_of_view {s t : State} (h : s.view { img := true } = t.view { img := true }) : s.img.still = t.img.still := by
  simpa [State.view] using congrArg State.img h

theorem State.servePort_pci (s : State) (b : BayNo) (p : PortId) (up : Bool) (c : BayNo) :
    ((s.servePort b p up).bay c).pci = (s.bay c).pci :=
  State.pci_of_view (State.servePort_view (by decide) s b p up) c

theorem State.servePort_rings (s : State) (b : BayNo) (p : PortId) (up : Bool) :
    (s.servePort b p up).img.cmd.enable = s.img.cmd.enable ∧ (s.servePort b p up).img.evt.enable = s.img.evt.enable :=
  State.rings_of_still (State.imgStill_of_view (State.servePort_view (by decide) s b p up))

theorem State.event_rings (s : State) (b : BayNo) (code : Nat) (w : List Word) :
    (s.event b code w).img.cmd.enable = s.img.cmd.enable ∧ (s.event b code w).img.evt.enable = s.img.evt.enable :=
  State.rings_of_still (State.imgStill_of_view (State.event_view _ s b code w false))

theorem State.modPci_pci (s : State) (b : BayNo) (j : Fin 5) (f : PciEp → PciEp) :
    ((s.modPci b j f).bay b).pci[j] = f (s.bay b).pci[j] := by
  simp

/-! ### The reset of a function -/

/-- The configuration space at its defaults, and with the control endpoint the host rings disabled (R559). -/
def State.configReset (s : State) (b : BayNo) (j : Fin 5) : State :=
  let s1 := s.modPci b j fun e => { e with bme := false, d3 := false }
  if j = 4 then s1.modImg fun i => { i with cmd := i.cmd.configure (0 : Word) false, evt := i.evt.configure (0 : Word) true } else s1

/-- The DMA channels' rings that a function served are all that its reset changes besides. -/
theorem State.functionReset_view_config {q : Parts} (hq : q.apart { dma := true } = true) (s : State) (b : BayNo) (j : Fin 5) :
    (s.functionReset b j).view q = (s.configReset b j).view q := by
  refine view_of { dma := true } hq ?_
  unfold State.functionReset
  refine State.eachBay_view _ _ (fun s q => ?_) _ _
  refine foldl_view _ _ (fun s n => ?_) _ _
  split
  · split
    · exact State.modBay_view _ _ _ _ (fun x => rfl)
    · rfl
  · rfl

theorem State.functionReset_pci (s : State) (b : BayNo) (j : Fin 5) :
    ((s.functionReset b j).bay b).pci[j] = { (s.bay b).pci[j] with bme := false, d3 := false } := by
  rw [State.pci_of_view (State.functionReset_view_config (by decide) s b j) b, State.configReset]
  split
  · simp only [State.modImg_bay, State.modPci_pci]
  · rw [State.modPci_pci]

theorem Ring.configure_zero_enable (r : Ring) (events : Bool) : (r.configure (0 : Word) events).enable = false := by
  cases h : r.enable
  · rw [Ring.configure_disabled h]; rfl
  · rw [Ring.configure_enabled h]; rfl

theorem State.functionReset_rings (s : State) (b : BayNo) :
    (s.functionReset b 4).img.cmd.enable = false ∧ (s.functionReset b 4).img.evt.enable = false := by
  have h := State.imgStill_of_view (State.functionReset_view_config (by decide) s b 4)
  exact ⟨(State.rings_of_still h).1.trans (Ring.configure_zero_enable ..), (State.rings_of_still h).2.trans (Ring.configure_zero_enable ..)⟩

/-! ### Training -/

/-- An endpoint whose link came up at a generation and width (R554). -/
def State.linkTrained (s : State) (b : BayNo) (j : Fin 5) (gen width : Nat) (low : Bool) : State :=
  (s.modPci b j fun e =>
    { e with linkUp := true, gen := BitVec.ofNat 3 gen, width := BitVec.ofNat 5 width, reversed := false, degraded := low }).servePort b
      (pciPort j) true

theorem State.linkTrained_pci (s : State) (b : BayNo) (j : Fin 5) (gen width : Nat) (low : Bool) :
    ((s.linkTrained b j gen width low).bay b).pci[j] =
      { (s.bay b).pci[j] with
        linkUp := true, gen := BitVec.ofNat 3 gen, width := BitVec.ofNat 5 width, reversed := false, degraded := low } := by
  rw [State.linkTrained, State.servePort_pci, State.modPci_pci]

theorem exec_pcieLinkUp_control {s : State} {gen : Nat} (hhere : s.pciHere 0 4 = true) (hpin : s.pinned 0 = true) (hpos : gen ≠ 0)
    (hgen : gen ≤ s.pciGen 0 4) (hlanes : s.pciLanes 0 4 ∈ [4, 8, 16]) :
    exec (.pcieLinkUp 0 4 gen (s.pciLanes 0 4) false) s =
      .next (if s.img.image.isSome && decide (gen < s.pciGen 0 4) then
        ((s.linkTrained 0 4 gen (s.pciLanes 0 4) true).event 0 0x0132 []).event 0 0x0F03 [wd 4]
      else (s.linkTrained 0 4 gen (s.pciLanes 0 4) false).event 0 0x0132 []) := by
  have h4 : ((4 : Fin 5) : Nat) = 4 := rfl
  have hin : [4, 8, 16].contains (s.pciLanes 0 4) = true := List.contains_iff_mem.mpr hlanes
  rw [exec_pcieLinkUp, execPcieLinkUp]
  simp only [hhere, hpin, hin, hpos, Nat.not_lt.mpr hgen, Nat.lt_irrefl, decide_false, Bool.not_true, Bool.or_false, Bool.false_eq_true,
    if_false, if_true]
  cases s.img.image.isSome && decide (gen < s.pciGen 0 4) <;> simp only [Bool.false_eq_true, if_false, if_true, State.linkTrained, h4]

theorem pcieLinkUp_control : Claims.PcieEndpoints.pcieLinkUp_control := by
  intro s hhere hpin hgen hlanes
  refine ⟨_, exec_pcieLinkUp_control hhere hpin hgen (Nat.le_refl _) hlanes, ?_⟩
  rw [decide_eq_false (Nat.lt_irrefl _), Bool.and_false, if_neg Bool.false_ne_true]
  refine ⟨?_, ?_, ?_, _, rfl⟩ <;> rw [State.event_bay_pci, State.linkTrained_pci]

theorem pcieLinkUp_degraded : Claims.PcieEndpoints.pcieLinkUp_degraded := by
  intro s gen hhere hpin hpos hlow hlanes himage
  refine ⟨_, exec_pcieLinkUp_control hhere hpin hpos.ne' hlow.le hlanes, ?_⟩
  rw [himage, decide_eq_true hlow, Bool.true_and, if_pos rfl]
  refine ⟨?_, _, rfl⟩
  rw [State.event_bay_pci, State.event_bay_pci, State.linkTrained_pci]

/-! ### Loss, reset and the host's configuration -/

theorem pcieLinkDown_done : Claims.PcieEndpoints.pcieLinkDown_done := by
  intro s b j halive hup
  have he : exec (.pcieLinkDown b j) s = .next (s.pcieDown b j) := by
    rw [exec_pcieLinkDown, execPcieLinkDown, halive]
    rfl
  have hpci : ((s.pcieDown b j).bay b).pci[j] =
      { (s.bay b).pci[j] with linkUp := false, downs := (s.bay b).pci[j].downs + 1, bme := false, d3 := false } := by
    simp only [State.pcieDown, hup, Bool.not_true, Bool.false_eq_true, if_false, State.event_bay_pci, State.servePort_pci,
      State.functionReset_pci, State.modPci_pci]
  refine ⟨_, he, ?_, ?_, ?_, ?_, fun h4 => ?_⟩
  iterate 4 rw [hpci]
  subst h4
  simp only [State.pcieDown, hup, Bool.not_true, Bool.false_eq_true, if_false, State.event_rings, State.servePort_rings,
    State.functionReset_rings, and_self]

theorem pcieReset_done : Claims.PcieEndpoints.pcieReset_done := by
  intro s b j halive hup
  have he : exec (.pcieReset b j) s =
      .next (((s.modPci b j fun e => { e with resets := e.resets + 1 }).functionReset b j).event b 0x0F04 [wd j.val]) := by
    rw [exec_pcieReset, execPcieReset, halive, hup]
    rfl
  refine ⟨_, he, ?_, ?_, ?_, _, rfl⟩ <;> simp only [State.event_bay_pci, State.functionReset_pci, State.modPci_pci, hup]

theorem pcieBmeChange_done : Claims.PcieEndpoints.pcieBmeChange_done := by
  intro s b j bme d3 halive hup hretry
  refine ⟨_, ?_, rfl⟩
  rw [exec_pcieBmeChange, execPcieBmeChange, halive, hup, hretry, Bool.and_false]
  rfl

theorem pcieBmeChange_retry : Claims.PcieEndpoints.pcieBmeChange_retry := by
  intro s b bme d3 halive hup hretry
  refine ⟨_, ?_, rfl⟩
  rw [exec_pcieBmeChange, execPcieBmeChange, halive, hup, hretry]
  rfl

end Sys2Proof.Machine

namespace Sys2Proof
open Sys2Proof.Machine

/-- Settles O45: serving a port leaves the endpoints, and a function's reset changes the DMA rings besides the configuration space. -/
theorem pcieEndpoints : Obligations.PcieEndpoints :=
  ⟨pcieLinkUp_control, pcieLinkUp_degraded, pcieLinkDown_done, pcieReset_done, pcieBmeChange_done, pcieBmeChange_retry⟩

end Sys2Proof
end

section
/-! The shoal exchange and islands: what a bay's part in a round over the bays is, and the clauses of ShoalsAndIslands (R605, R609 to
R616). -/
namespace Sys2Proof.Machine

theorem exec_shoalExchangeRx (n : Fin 2) (size package : Nat) (counts : List (Nat × Nat)) (hash : List Byte) (s : State) :
    exec (.shoalExchangeRx n size package counts hash) s = execShoalExchangeRx n size package counts hash s := (rfl)
theorem exec_shoalMismatchRetry (n : Fin 2) (s : State) : exec (.shoalMismatchRetry n) s = execShoalMismatchRetry n s := (rfl)
theorem exec_islandDeclared (b : BayNo) (packages : BitVec 4) (s : State) :
    exec (.islandDeclared b packages) s = execIslandDeclared b packages s := (rfl)
theorem exec_rejoinMeasure (b : BayNo) (off : Int) (s : State) : exec (.rejoinMeasure b off) s = execRejoinMeasure b off s := (rfl)
theorem exec_islandRejoin (s : State) : exec .islandRejoin s = execIslandRejoin s := (rfl)
theorem exec_rejoinOffsetRemoved (s : State) : exec .rejoinOffsetRemoved s = execRejoinOffsetRemoved s := (rfl)

/-! ### A round over the bays -/

/-- What only a bay's own turn changes is unchanged by a round that the bay is not in. -/
theorem State.eachBay_skip {α : Type} (g : State → α) (f : State → BayNo → State) (b : BayNo)
    (hother : ∀ u c, c ≠ b → g (f u c) = g u) : ∀ (bs : List BayNo) (_ : b ∉ bs) (s : State), g (s.eachBay bs f) = g s := by
  intro bs
  induction bs with
  | nil => intro _ s; rfl
  | cons c r ih =>
    intro hb s
    obtain ⟨hc, hr⟩ := not_or.mp (mt List.mem_cons.mpr hb)
    exact (ih hr (f s c)).trans (hother s c (Ne.symm hc))

/-- What only a bay's own turn changes is, after a round that the bay is in once, as its turn leaves it. -/
theorem State.eachBay_turn {α : Type} (g : State → α) (f : State → BayNo → State) (b : BayNo)
    (hother : ∀ u c, c ≠ b → g (f u c) = g u) :
    ∀ (bs : List BayNo) (_ : bs.Nodup) (_ : b ∈ bs) (s : State), ∃ u, g u = g s ∧ g (s.eachBay bs f) = g (f u b) := by
  intro bs
  induction bs with
  | nil => intro _ hb; cases hb
  | cons c r ih =>
    intro hnd hb s
    obtain ⟨hc, hr⟩ := List.nodup_cons.mp hnd
    by_cases h : b = c
    · subst h
      exact ⟨s, rfl, State.eachBay_skip g f b hother r hc (f s b)⟩
    · obtain ⟨u, hu, ht⟩ := ih hr ((List.mem_cons.mp hb).resolve_left h) (f s c)
      exact ⟨u, hu.trans (hother s c (Ne.symm h)), ht⟩

theorem State.component_nodup (s : State) (b : BayNo) : (s.component b).Nodup := s.liveBays_nodup.filter _

/-! ### The exchange (R605) -/

theorem State.modExt_ext (s : State) (n : Fin 2) (f : ExtLink → ExtLink) : (s.modExt n f).ext n = f (s.ext n) := by
  simp [State.modExt, State.ext]

theorem State.learnBays_lnl (s : State) (e : Nat × Nat) : (s.learnBays e).lnl = s.lnl := by
  rw [State.learnBays]
  split <;> rfl

theorem State.retime_lnl (s : State) : s.retime.lnl = s.lnl := by
  rw [State.retime]
  split
  · rfl
  · rw [State.event_lnl, State.modTbsPkg_lnl]

theorem State.retime_bay_tbs (s : State) (c : BayNo) : (s.retime.bay c).tbs = (s.bay c).tbs := by
  rw [State.retime]
  split
  · rfl
  · rw [State.event_bay_tbs, State.modTbsPkg_bay]

theorem State.retime_bay_island (s : State) (c : BayNo) : (s.retime.bay c).lnl.island = (s.bay c).lnl.island := by
  rw [State.retime]
  split
  · rfl
  · rw [State.event_bay_lnl_island, State.modTbsPkg_bay]

theorem State.learned_lnl (s : State) (counts : List (Nat × Nat)) : (counts.foldl State.learnBays s).retime.lnl = s.lnl :=
  (State.retime_lnl _).trans (foldl_keep (·.lnl) _ State.learnBays_lnl counts s)

/-- The link once its partner's exchange matched, with what the partner told of the shoal's bays. -/
def State.exchangeTaken (s : State) (n : Fin 2) (package : Nat) (counts : List (Nat × Nat)) : State :=
  (counts.foldl State.learnBays (s.modExt n fun x =>
    { x with matched := true, held := false, mismatchTold := false, peer := BitVec.ofNat 2 package })).retime

theorem State.exchangeTaken_ext (s : State) (n : Fin 2) (package : Nat) (counts : List (Nat × Nat)) :
    (s.exchangeTaken n package counts).ext n =
      { s.ext n with matched := true, held := false, mismatchTold := false, peer := BitVec.ofNat 2 package } := by
  rw [State.ext, State.exchangeTaken, State.learned_lnl]
  exact s.modExt_ext n _

/-- What is new goes on round the ring. -/
def State.exchangePassed (s u : State) (n : Fin 2) : State :=
  let on : Fin 2 := if n = 0 then 1 else 0
  if decide (u.tbs.memberBays ≠ s.tbs.memberBays) && decide ((u.ext on).stage = .framed) then u.offerExchange on else u

theorem State.exchangePassed_ext (s u : State) (n : Fin 2) : (s.exchangePassed u n).ext n = u.ext n := by
  rw [State.exchangePassed, apply_ite (State.ext · n)]
  exact ite_self _

theorem exec_shoalExchangeRx_good {s : State} {n : Fin 2} (hstage : (s.ext n).stage = .framed) (hup : (s.ext n).port.up = false)
    (halive : s.alive s.linkBay = true) (counts : List (Nat × Nat)) :
    exec (.shoalExchangeRx n (s.pkgN Fld.lnlShoalSize) (s.partnerOf n) counts s.shoalHash) s =
      .next (let u := s.exchangePassed (s.exchangeTaken n (s.partnerOf n) counts) n
        if !u.lnl.leaderSeen then (u.modLnlPkg fun y => { y with leaderSeen := true }).event 0 0x0133 [] else u) := by
  rw [exec_shoalExchangeRx, execShoalExchangeRx]
  simp only [hstage, hup, halive, ne_eq, not_true_eq_false, decide_false, decide_true, Bool.not_true, Bool.or_false, Bool.and_true,
    Bool.false_eq_true, if_false, if_true]
  rfl

theorem shoalExchangeRx_match : Claims.ShoalsAndIslands.shoalExchangeRx_match := by
  intro s n counts hstage hup halive
  refine ⟨_, exec_shoalExchangeRx_good hstage hup halive counts, ?_⟩
  generalize hu : s.exchangePassed (s.exchangeTaken n (s.partnerOf n) counts) n = u
  have hext : u.ext n = { s.ext n with matched := true, held := false, mismatchTold := false, peer := BitVec.ofNat 2 (s.partnerOf n) } := by
    rw [← hu, State.exchangePassed_ext, State.exchangeTaken_ext]
  have hseen : ∀ v : State, v = (if !u.lnl.leaderSeen then (u.modLnlPkg fun y => { y with leaderSeen := true }).event 0 0x0133 [] else u) →
      v.ext n = u.ext n := by
    rintro _ rfl
    split
    · rw [State.ext, State.event_lnl]; rfl
    · rfl
  rw [hseen _ rfl, hext]
  exact ⟨rfl, rfl, rfl, hup⟩

theorem shoalExchangeRx_mismatch : Claims.ShoalsAndIslands.shoalExchangeRx_mismatch := by
  intro s n size package counts hash hbad hstage hup halive htold
  have hgood : (decide (size = s.pkgN Fld.lnlShoalSize) && decide (package = s.partnerOf n) && decide (hash = s.shoalHash)) = false := by
    rcases hbad with h | h | h <;> simp [h]
  have hext : ∀ f : ExtLink → ExtLink, (((s.modExt n f).event s.linkBay 0x1213 [wd n.val]).ext n) = f (s.ext n) := fun f => by
    rw [State.ext, State.event_lnl]
    exact s.modExt_ext n f
  rw [exec_shoalExchangeRx, execShoalExchangeRx]
  simp only [hstage, hup, halive, hgood, htold, ne_eq, not_true_eq_false, decide_false, Bool.not_true, Bool.or_false,
    Bool.false_eq_true, if_false]
  refine ⟨_, rfl, ?_, ?_, ?_, _, rfl, rfl, rfl⟩ <;> rw [hext]

theorem shoalMismatchRetry_done : Claims.ShoalsAndIslands.shoalMismatchRetry_done := by
  intro s n hheld
  have hext : ∀ f : ExtLink → ExtLink, ∀ t, (((s.reach t).modExt n f).offerExchange n).ext n = f (s.ext n) := fun f t => by
    have h : ((s.reach t).modExt n f).ext n = f ((s.reach t).ext n) := State.modExt_ext ..
    have hreach : (s.reach t).ext n = s.ext n := congrArg (·.ext[n]) (s.reach_lnl t)
    exact h.trans (congrArg f hreach)
  rw [exec_shoalMismatchRetry, execShoalMismatchRetry, hheld]
  refine ⟨_, rfl, ?_, ?_, ?_⟩
  · rw [hext]
  · rw [hext]; exact hheld
  · simp [State.offerExchange, State.emit, State.shoalHash, State.shoalPayload, State.packageNo, State.modExt]

/-! ### Islands (R609 to R616) -/

/-- A bay's turn in the entering of an island. -/
def State.cutOff (s : State) (i : Isle) (b : BayNo) : State :=
  (s.modLnl b fun l =>
    { l with island := some i, islandDrop := 0, isles := beginSpan (s.nowAt b) l.isles, holds := beginSpan (s.nowAt b) l.holds }).modTbs b
    fun x => { x with islanded := true, removing := none }

theorem State.enterIsland_turns (s : State) (bs : List BayNo) (i : Isle) :
    ∃ v : State, (∀ c, v.bay c = s.bay c) ∧ s.enterIsland bs i = v.eachBay bs fun u b => u.cutOff i b :=
  ⟨s.modImg fun y => { y with restartReq := bs.foldl (fun (m : Nat) b => if m.testBit b.val then m - 2 ^ b.val else m) y.restartReq },
    fun _ => rfl, rfl⟩

/-- What an island's entering shows of a bay. -/
def State.islandOf (c : BayNo) (s : State) : Bool × Option Isle := ((s.bay c).tbs.islanded, (s.bay c).lnl.island)

theorem State.cutOff_islandOf_ne (s : State) (i : Isle) {b c : BayNo} (h : b ≠ c) : (s.cutOff i b).islandOf c = s.islandOf c := by
  simp [State.islandOf, State.cutOff, State.modTbs_bay_tbs_ne, State.modLnl_bay_lnl_ne, h.symm]

theorem State.cutOff_islandOf (s : State) (i : Isle) (c : BayNo) : (s.cutOff i c).islandOf c = (true, some i) := by
  simp [State.islandOf, State.cutOff]

theorem State.enterIsland_islandOf (s : State) {bs : List BayNo} (hnd : bs.Nodup) (i : Isle) (c : BayNo) :
    (s.enterIsland bs i).islandOf c = if c ∈ bs then (true, some i) else s.islandOf c := by
  obtain ⟨v, hv, he⟩ := s.enterIsland_turns bs i
  rw [he]
  split
  · next hc =>
    obtain ⟨u, _, ht⟩ := State.eachBay_turn (State.islandOf c) (fun u b => u.cutOff i b) c (fun u b h => u.cutOff_islandOf_ne i h) bs hnd hc v
    exact ht.trans (u.cutOff_islandOf i c)
  · next hc =>
    refine (State.eachBay_skip (State.islandOf c) (fun u b => u.cutOff i b) c (fun u b h => u.cutOff_islandOf_ne i h) bs hc v).trans ?_
    rw [State.islandOf, State.islandOf, hv]

theorem State.event_islandOf (s : State) (b : BayNo) (code : Nat) (w : List Word) (c : BayNo) :
    (s.event b code w).islandOf c = s.islandOf c := by
  rw [State.islandOf, State.event_bay_tbs, State.event_bay_lnl_island, State.islandOf]

theorem State.retime_islandOf (s : State) (c : BayNo) : s.retime.islandOf c = s.islandOf c := by
  rw [State.islandOf, State.retime_bay_tbs, State.retime_bay_island, State.islandOf]

theorem exec_islandDeclared_cut {s : State} {b : BayNo} (halive : s.alive b = true) (hcut : (0 : BayNo) ∉ s.component b)
    (hnone : (s.bay b).lnl.island = none) :
    exec (.islandDeclared b 0) s = .next (let m := BitVec.ofNat 8 (maskOf (s.component b))
      let h := (s.component b).headD b
      let u := s.enterIsland (s.component b) (s.isleOf m h s.packageNo 0)
      (if u.alive 0 then u.event 0 0x1210 [m.setWidth 32, wd h.val] else u).retime) := by
  rw [exec_islandDeclared, execIslandDeclared]
  simp only [halive, hcut, hnone, Option.any_none, decide_false, Bool.not_true, Bool.or_false, Bool.false_eq_true, if_false, if_true]

theorem islandDeclared_cut : Claims.ShoalsAndIslands.islandDeclared_cut := by
  intro s b halive hcut hnone
  refine ⟨_, exec_islandDeclared_cut halive hcut hnone, ?_⟩
  generalize hi : s.isleOf (BitVec.ofNat 8 (maskOf (s.component b))) ((s.component b).headD b) s.packageNo 0 = i
  generalize ht : State.retime _ = t
  have hshow : ∀ c, t.islandOf c = if c ∈ s.component b then (true, some i) else s.islandOf c := fun c => by
    rw [← ht, State.retime_islandOf, apply_ite (State.islandOf c), State.event_islandOf, ite_self,
      State.enterIsland_islandOf s (s.component_nodup b), hi]
  refine ⟨fun c hc => ?_, fun c hc => ?_⟩
  · have h := (hshow c).trans (if_pos hc)
    exact ⟨congrArg Prod.fst h, congrArg Prod.snd h⟩
  · exact congrArg Prod.fst ((hshow c).trans (if_neg hc))

/-! ### The rejoin (R614, R615) -/

theorem rejoinMeasure_waits : Claims.ShoalsAndIslands.rejoinMeasure_waits := by
  intro s b i o halive hisle hown hhead hroute hfree
  refine ⟨_, ?_, rfl⟩
  rw [exec_rejoinMeasure, execRejoinMeasure, State.rejoiner, hisle]
  simp only [halive, hown, hhead, hroute, hfree, Option.isSome_none, if_true, Bool.and_self, Bool.not_true, Bool.or_self,
    Bool.false_eq_true, if_false]

/-- A bay's turn in a rejoin whose offset is not stepped. -/
def State.slaveAgain (s : State) (o : Int) (b : BayNo) : State :=
  (s.modLnl b fun l => { l with island := none, islandDrop := 0, isles := closeSpan (s.nowAt b) l.isles }).modTbs b
    fun x =>
      { x with
        islanded := false, addend := (s.bay 0).tbs.addend, epoch := (s.bay 0).tbs.epoch, epochStart := (s.bay 0).tbs.epochStart
        removing := some (o * 2 ^ 32) }

/-- What a bay's turn reads and leaves of its time: the epoch of the headland and the bay's own counter. -/
def State.timeOf (c : BayNo) (s : State) : BitVec 64 × TbsBay × Option Isle := ((s.bay 0).tbs.epoch, (s.bay c).tbs, (s.bay c).lnl.island)

theorem State.slaveAgain_epoch (s : State) (o : Int) (b : BayNo) : ((s.slaveAgain o b).bay 0).tbs.epoch = (s.bay 0).tbs.epoch := by
  by_cases h : b = 0
  · subst h; simp [State.slaveAgain]
  · simp [State.slaveAgain, State.modTbs_bay_tbs_ne _ _ _ (Ne.symm h)]

theorem State.slaveAgain_timeOf_ne (s : State) (o : Int) {b c : BayNo} (h : b ≠ c) : (s.slaveAgain o b).timeOf c = s.timeOf c := by
  rw [State.timeOf, State.slaveAgain_epoch]
  simp [State.timeOf, State.slaveAgain, State.modTbs_bay_tbs_ne _ _ _ h.symm, State.modLnl_bay_lnl_ne _ _ _ h.symm]

theorem State.slaveAgain_bay (s : State) (o : Int) (b : BayNo) :
    ((s.slaveAgain o b).bay b).tbs =
        { (s.bay b).tbs with
          islanded := false, addend := (s.bay 0).tbs.addend, epoch := (s.bay 0).tbs.epoch, epochStart := (s.bay 0).tbs.epochStart
          removing := some (o * 2 ^ 32) } ∧
      ((s.slaveAgain o b).bay b).lnl.island = none := by
  simp [State.slaveAgain]

/-- The rejoining bays after their turns, with no rejoin under way. -/
def State.rejoined (s : State) (r : Rejoin) : State :=
  let u := s.eachBay (s.liveBays.filter fun b => r.island.bays.getLsbD b.val) fun u b => u.slaveAgain r.offset b
  (u.modLnlPkg fun y => { y with rejoin := none, split := u.lnl.split && decide (r.island.packages = 0) }).modTbsPkg
    fun y => { y with away := none }

theorem exec_islandRejoin_slewed {s : State} {r : Rejoin} (hr : s.lnl.rejoin = some r) (hstep : (s.reach r.boundary).stepAllowed = false)
    (hoff : r.offset ≠ 0) :
    ∃ dropped w, exec .islandRejoin s = .next ((let u := (s.reach r.boundary).rejoined r
      let q : Nat := u.pkgN Fld.lnlRejoinQueue
      (if q < 128 then u.enqueue r.island.holder q (u.rejoinBody r false dropped) else u).event r.island.holder 0x1212 w).retime) := by
  rw [exec_islandRejoin, execIslandRejoin, hr]
  simp only [hstep, hoff, Bool.and_false, Bool.or_false, decide_false, Bool.false_eq_true, if_false]
  exact ⟨_, _, rfl⟩

theorem islandRejoin_done : Claims.ShoalsAndIslands.islandRejoin_done := by
  intro s r hr hstep hoff
  obtain ⟨dropped, w, he⟩ := exec_islandRejoin_slewed hr hstep hoff
  refine ⟨_, he, ?_, fun b hb hin => ?_⟩
  · simp only [State.retime_lnl, State.event_lnl, apply_ite State.lnl, State.enqueue_lnl, ite_self]
    rfl
  · have hmem : b ∈ (s.reach r.boundary).liveBays.filter fun b => r.island.bays.getLsbD b.val :=
      List.mem_filter.mpr ⟨(s.reach_liveBays r.boundary).symm ▸ hb, hin⟩
    obtain ⟨u, hu, ht⟩ := State.eachBay_turn (State.timeOf b) (fun u c => u.slaveAgain r.offset c) b
      (fun u c h => u.slaveAgain_timeOf_ne r.offset h) _ ((s.reach r.boundary).liveBays_nodup.filter _) hmem (s.reach r.boundary)
    obtain ⟨hepoch, hcounter⟩ := Prod.mk.inj hu
    obtain ⟨htime, hisle⟩ := Prod.mk.inj (Prod.mk.inj ht).2
    obtain ⟨hown, hnone⟩ := u.slaveAgain_bay r.offset b
    have hbay : (((s.reach r.boundary).rejoined r).bay b).tbs = ((u.slaveAgain r.offset b).bay b).tbs := htime
    have hout : (((s.reach r.boundary).rejoined r).bay b).lnl.island = ((u.slaveAgain r.offset b).bay b).lnl.island := hisle
    have htide := (Prod.mk.inj hcounter).1
    simp only [State.retime_bay_tbs, State.retime_bay_island, State.event_bay_tbs, State.event_bay_lnl_island,
      apply_ite (State.bay · b), apply_ite Bay.tbs, apply_ite Bay.lnl, apply_ite LnlBay.island, State.enqueue_bay_tbs,
      State.enqueue_bay_lnl_island, ite_self, hbay, hout, hown, hnone, hepoch, htide, and_self]

/-! ### The offset slewed out -/

theorem rejoinOffsetRemoved_done : Claims.ShoalsAndIslands.rejoinOffsetRemoved_done := by
  intro s b o hone ho
  have he : exec .rejoinOffsetRemoved s = .next ((fun u : State =>
      (u.modTbs b fun x => { x with tide := x.tide - BitVec.ofInt 128 ((u.bay b).tbs.removing.getD 0), removing := none }).modLnl b fun l =>
        { l with holds := closeSpan ((u.modTbs b fun x =>
          { x with tide := x.tide - BitVec.ofInt 128 ((u.bay b).tbs.removing.getD 0), removing := none }).nowAt b) l.holds })
      (s.passTime (ceilDiv (o.natAbs * 1000000000000) (max 1 s.slewMax.toNat * 2 ^ 32)))) := by
    rw [exec_rejoinOffsetRemoved, execRejoinOffsetRemoved, hone]
    simp only [ho, Option.getD_some]
    rfl
  refine ⟨_, he, ?_, ?_⟩ <;> rw [State.modLnl_bay_tbs, State.modTbs_bay_tbs_self]

end Sys2Proof.Machine

namespace Sys2Proof
open Sys2Proof.Machine

/-- Settles O49: in a round over the bays a bay is as its own turn leaves it, and what follows the round changes no bay's time. -/
theorem shoalsAndIslands : Obligations.ShoalsAndIslands :=
  ⟨shoalExchangeRx_match, shoalExchangeRx_mismatch, shoalMismatchRetry_done, islandDeclared_cut, rejoinMeasure_waits, islandRejoin_done,
    rejoinOffsetRemoved_done⟩

end Sys2Proof
end

section
/-! The front end: what a change of the attenuation leaves of an input and of its RF port, and the clauses of FrontEnd (R174 to R183). -/
namespace Sys2Proof.Machine

theorem exec_overloadTrip (b : BayNo) (i : Fin 2) (t : Stamp) (level : Int) (clips : Nat) (s : State) :
    exec (.overloadTrip b i t level clips) s = execOverloadTrip b i t level clips s := (rfl)
theorem exec_overloadClose (b : BayNo) (i : Fin 2) (t : Stamp) (s : State) :
    exec (.overloadClose b i t) s = execOverloadClose b i t s := (rfl)
theorem exec_autoStepDown (b : BayNo) (i : Fin 2) (peak : Int) (s : State) :
    exec (.autoStepDown b i peak) s = execAutoStepDown b i peak s := (rfl)
theorem exec_attenSettled (b : BayNo) (i : Fin 2) (level : Int) (s : State) :
    exec (.attenSettled b i level) s = execAttenSettled b i level s := (rfl)

/-! ### An RF input -/

/-- An RF input of a bay. -/
def State.afeIn (s : State) (b : BayNo) (i : Fin 2) : AfeIn := (s.bay b).afe.inputs[i]

theorem State.modAfe_afeIn (s : State) (b : BayNo) (i : Fin 2) (f : AfeIn → AfeIn) : (s.modAfe b i f).afeIn b i = f (s.afeIn b i) := by
  simp [State.afeIn]

theorem State.event_afeIn (s : State) (b c : BayNo) (code : Nat) (w : List Word) (i : Fin 2) :
    (s.event b code w).afeIn c i = s.afeIn c i := by
  rw [State.afeIn, State.event_bay_afe, State.afeIn]

/-- States that agree in the view of the front ends have the same inputs but for the mark that an overload was reported. -/
theorem State.afeIn_of_view {s t : State} (h : s.view { afe := true } = t.view { afe := true }) (b : BayNo) (i : Fin 2) :
    ∃ m, s.afeIn b i = { t.afeIn b i with ovlTold := m } := by
  have hbay : (s.bay b).view { afe := true } = (t.bay b).view { afe := true } := by rw [← State.view_bay, h, State.view_bay]
  have hafe : (s.bay b).afe.unmarked = (t.bay b).afe.unmarked := by simpa [Bay.view] using congrArg Bay.afe hbay
  have hin : { s.afeIn b i with ovlTold := false } = { t.afeIn b i with ovlTold := false } := by
    simpa [AfeBay.unmarked, State.afeIn] using congrArg (fun y : AfeBay => y.inputs[i]) hafe
  exact ⟨(s.afeIn b i).ovlTold, congrArg (fun a : AfeIn => { a with ovlTold := (s.afeIn b i).ovlTold }) hin⟩

/-- Time that passes changes of an input at most its mark. -/
theorem State.reach_afeIn (s : State) (t : Stamp) (b : BayNo) (i : Fin 2) : ∃ m, (s.reach t).afeIn b i = { s.afeIn b i with ovlTold := m } :=
  State.afeIn_of_view (State.reach_view (by decide) s t) b i

/-! ### A change of the attenuation -/

/-- The new values, with the stamps of the port's outputs going on at the delay of the new step (R174, R175). -/
def State.attenuated (s : State) (b : BayNo) (i : Fin 2) (step trim : Nat) (t : Stamp) : State :=
  let s1 := s.modAfe b i fun a => { a with step := step, trim := trim, settled := false, changedAt := t, quietFrom := t }
  s1.newStretch b (rfPort i) (s.inputFrom b (rfPort i) (s.planeStamp b (rfPort i) t)).2 (s.portDelay b (rfPort i)) (s1.portDelay b (rfPort i))

/-- The stamp of the first sample at the new values. -/
def State.attenStamp (s : State) (b : BayNo) (i : Fin 2) (step trim : Nat) (t : Stamp) : Stamp :=
  let u := s.attenuated b i step trim t
  match (u.bay b).ddc[rfPort i].delivers, (u.bay b).ddc[rfPort i].line with
  | true, z :: _ => (z.inputTime (s.inputFrom b (rfPort i) (s.planeStamp b (rfPort i) t)).1).stamp
  | _, _ => u.planeStamp b (rfPort i) t

theorem State.setAtten_eq (s : State) (b : BayNo) (i : Fin 2) (step trim cause : Nat) (auto : Bool) (t : Stamp) :
    s.setAtten b i step trim cause auto t =
      (((s.attenuated b i step trim t).changeRun b (rfPort i) (s.attenStamp b i step trim t)).noteConf b
        (s.attenStamp b i step trim t)).event b 0x0401
          (attenWords i cause auto (s.afeIn b i).step (s.afeIn b i).trim step trim ++ stampWords (s.attenStamp b i step trim t)) := by
  obtain ⟨j, t0, h⟩ : ∃ j t0, s.inputFrom b (rfPort i) (s.planeStamp b (rfPort i) t) = (j, t0) := ⟨_, _, rfl⟩
  simp only [State.setAtten, State.attenStamp, State.attenuated, h]
  rfl

theorem State.newStretch_bay_afe (s : State) (b : BayNo) (p : Port) (t : Stamp) (d0 d : Exact) (c : BayNo) :
    ((s.newStretch b p t d0 d).bay c).afe = (s.bay c).afe := by
  simp only [State.newStretch]
  split
  · rfl
  · split
    · rfl
    · rw [State.modPort_bay_afe]

theorem State.changeRun_bay_afe (s : State) (b : BayNo) (p : Port) (tc : Stamp) (c : BayNo) :
    ((s.changeRun b p tc).bay c).afe = (s.bay c).afe := by
  rw [State.changeRun]
  split
  · rw [State.modPort_bay_afe]
  · rfl

theorem State.noteConf_bay_afe (s : State) (b : BayNo) (tc : Stamp) (c : BayNo) : ((s.noteConf b tc).bay c).afe = (s.bay c).afe :=
  foldl_keep (fun x => (x.bay c).afe) _ (fun _ _ => State.modChan_bay_afe ..) _ s

theorem State.noteConf_bay_ddc (s : State) (b : BayNo) (tc : Stamp) (c : BayNo) : ((s.noteConf b tc).bay c).ddc = (s.bay c).ddc :=
  foldl_keep (fun x => (x.bay c).ddc) _ (fun _ _ => State.modChan_bay_ddc ..) _ s

/-- The input takes the values and starts to settle (R174). -/
theorem State.setAtten_afeIn (s : State) (b : BayNo) (i : Fin 2) (step trim cause : Nat) (auto : Bool) (t : Stamp) :
    (s.setAtten b i step trim cause auto t).afeIn b i =
      { s.afeIn b i with step := step, trim := trim, settled := false, changedAt := t, quietFrom := t } := by
  rw [State.setAtten_eq, State.event_afeIn, State.afeIn, State.noteConf_bay_afe, State.changeRun_bay_afe, State.attenuated, State.newStretch_bay_afe]
  exact s.modAfe_afeIn b i _

/-! ### The invalid run of a change (R226, R227) -/

theorem State.modPort_port (s : State) (b : BayNo) (p : Port) (f : DdcPort → DdcPort) :
    ((s.modPort b p f).bay b).ddc[p] = f (s.bay b).ddc[p] := by
  simp

theorem State.newStretch_port (s : State) (b : BayNo) (p : Port) (t : Stamp) (d0 d : Exact) :
    ∃ line, ((s.newStretch b p t d0 d).bay b).ddc[p] = { (s.bay b).ddc[p] with line := line } := by
  unfold State.newStretch
  extract_lets y n
  split
  · exact ⟨_, rfl⟩
  · cases y.stretchOf n with
    | none => exact ⟨_, rfl⟩
    | some z => exact ⟨_, State.modPort_port ..⟩

theorem State.changeRun_port {s : State} {b : BayNo} {p : Port} (hdel : (s.bay b).ddc[p].delivers = true) (hruns : (s.bay b).ddc[p].runs = [])
    (tc : Stamp) :
    ((s.changeRun b p tc).bay b).ddc[p] =
      { (s.bay b).ddc[p] with
        runs := [(s.runFrom b p tc, s.runFrom b p tc + s.runLength b p)], runCount := (s.bay b).ddc[p].runCount + 1 } := by
  simp only [State.changeRun, hdel, if_true, State.modPort_port, DdcPort.addRun, hruns]

theorem State.fldN_congr {s t : State} (hvals : t.vals = s.vals) (f : Field) (b : BayNo) (i k : Nat) : t.fldN f b i k = s.fldN f b i k := by
  rw [State.fldN, State.fldN, State.fld, State.fld, hvals]

theorem State.fldB_congr {s t : State} (hvals : t.vals = s.vals) (f : Field) (b : BayNo) (i : Nat) : t.fldB f b i = s.fldB f b i :=
  decide_eq_decide.mpr (by rw [State.fld, State.fld, hvals])

theorem State.portLoad_congr {s t : State} (hvals : t.vals = s.vals) (b : BayNo) (p : Port) : t.portLoad b p = s.portLoad b p := by
  have hrate : t.fAdc = s.fAdc := by
    unfold State.fAdc State.pkgN
    rw [State.fldN_congr hvals]
  unfold State.portLoad State.replayed
  simp only [State.fldN_congr hvals, State.fldB_congr hvals, hrate]

theorem DdcPort.numberFrom_congr {x y : DdcPort} (h : x.line = y.line) (t : Stamp) : x.numberFrom t = y.numberFrom t := by
  rw [DdcPort.numberFrom, DdcPort.numberFrom, h]

theorem DdcPort.bornOf_congr {x y : DdcPort} (h : x.line = y.line) (n : Nat) : x.bornOf n = y.bornOf n := by
  rw [DdcPort.bornOf, DdcPort.bornOf, DdcPort.stretchOf, DdcPort.stretchOf, h]

/-- The first output of a run depends on the settings and on the outputs of the port. -/
theorem State.runFrom_congr {s t : State} {b : BayNo} {p : Port} (hvals : t.vals = s.vals)
    (hline : (t.bay b).ddc[p].line = (s.bay b).ddc[p].line) (tc : Stamp) : t.runFrom b p tc = s.runFrom b p tc := by
  simp only [State.runFrom, State.outStep, State.decim, State.fldN_congr hvals, State.portLoad_congr hvals,
    DdcPort.numberFrom_congr hline, DdcPort.bornOf_congr hline]

theorem State.runLength_congr {s t : State} (hvals : t.vals = s.vals) (b : BayNo) (p : Port) : t.runLength b p = s.runLength b p := by
  simp only [State.runLength, State.decim, State.fldN_congr hvals, State.portLoad_congr hvals]

theorem State.attenuated_vals (s : State) (b : BayNo) (i : Fin 2) (step trim : Nat) (t : Stamp) :
    (s.attenuated b i step trim t).vals = s.vals :=
  vals_of_view ((State.newStretch_view (by decide) ..).trans (State.modAfe_view (by decide) ..))

theorem State.attenuated_port (s : State) (b : BayNo) (i : Fin 2) (step trim : Nat) (t : Stamp) :
    ∃ line, ((s.attenuated b i step trim t).bay b).ddc[rfPort i] = { (s.bay b).ddc[rfPort i] with line := line } := by
  obtain ⟨line, h⟩ := State.newStretch_port
    (s.modAfe b i fun a => { a with step := step, trim := trim, settled := false, changedAt := t, quietFrom := t }) b (rfPort i)
    (s.inputFrom b (rfPort i) (s.planeStamp b (rfPort i) t)).2 (s.portDelay b (rfPort i))
    ((s.modAfe b i fun a => { a with step := step, trim := trim, settled := false, changedAt := t, quietFrom := t }).portDelay b (rfPort i))
  exact ⟨line, h.trans (by rw [State.modAfe_bay_ddc])⟩

theorem setAtten_run : Claims.FrontEnd.setAtten_run := by
  intro s b i step trim cause auto a hdel hruns
  generalize hu : s.attenuated b i step trim a = u
  obtain ⟨line, hport⟩ : ∃ line, (u.bay b).ddc[rfPort i] = { (s.bay b).ddc[rfPort i] with line := line } := hu ▸ s.attenuated_port ..
  have hvals : u.vals = s.vals := hu ▸ s.attenuated_vals ..
  refine ⟨s.attenStamp b i step trim a, ?_⟩
  generalize htc : s.attenStamp b i step trim a = tc
  have heq := s.setAtten_eq b i step trim cause auto a
  rw [hu, htc] at heq
  have hddc : ((s.setAtten b i step trim cause auto a).bay b).ddc[rfPort i] =
      { (u.bay b).ddc[rfPort i] with
        runs := [(u.runFrom b (rfPort i) tc, u.runFrom b (rfPort i) tc + u.runLength b (rfPort i))]
        runCount := (u.bay b).ddc[rfPort i].runCount + 1 } := by
    rw [heq]
    simp only [State.event_bay_ddc, State.noteConf_bay_ddc]
    exact State.changeRun_port (by rw [hport]; exact hdel) (by rw [hport]; exact hruns) tc
  have hsame : (s.setAtten b i step trim cause auto a).vals = u.vals :=
    (vals_of_view (State.setAtten_view (by decide) ..)).trans hvals.symm
  have hfrom : (s.setAtten b i step trim cause auto a).runFrom b (rfPort i) tc = u.runFrom b (rfPort i) tc :=
    State.runFrom_congr hsame (by rw [hddc]) tc
  refine ⟨?_, ?_, _, heq⟩
  · rw [hddc, hport]
  · rw [hddc, hfrom, State.runLength_congr hvals]

/-! ### Automatic stepping (R178, R179) -/

theorem State.autoHeld_congr {s t : State} {b : BayNo} (hcal : (t.bay b).cal = (s.bay b).cal) (hclk : (t.bay b).clk = (s.bay b).clk)
    (i : Fin 2) : t.autoHeld b i = s.autoHeld b i := by
  rw [State.autoHeld, State.autoHeld, State.calOpen, State.calOpen, hcal, hclk]

theorem State.autoStepUp_eq (s : State) (b : BayNo) (i : Fin 2) :
    s.autoStepUp b i =
      if s.fldN Fld.afeAutoMode b = 0 ∨ s.autoHeld b i = true ∨ (!(s.afeIn b i).settled) = true ∨
        s.fldN Fld.afeAutoMax b ≤ (s.afeIn b i).step then s
      else (s.modAfe b i fun a => { a with autoUp := a.autoUp + 1 }).setAtten b i
        (min ((s.afeIn b i).step + s.fldN Fld.afeAutoStep b) (s.fldN Fld.afeAutoMax b)) (s.afeIn b i).trim 2 true (s.nowAt b) := by
  rw [State.autoStepUp, State.afeIn, ← State.modAfe_nowAt s b i (fun a => { a with autoUp := a.autoUp + 1 }) b]

/-- A step up on a settled and free attenuator below its ceiling. -/
theorem State.autoStepUp_steps {s : State} {b : BayNo} {i : Fin 2} (hmode : s.fldN Fld.afeAutoMode b ≠ 0) (hfree : s.autoHeld b i = false)
    (hset : (s.afeIn b i).settled = true) (hlow : (s.afeIn b i).step < s.fldN Fld.afeAutoMax b) :
    (s.autoStepUp b i).afeIn b i =
      { s.afeIn b i with
        step := min ((s.afeIn b i).step + s.fldN Fld.afeAutoStep b) (s.fldN Fld.afeAutoMax b), autoUp := (s.afeIn b i).autoUp + 1
        settled := false, changedAt := s.nowAt b, quietFrom := s.nowAt b } := by
  have hgo : ¬(s.fldN Fld.afeAutoMode b = 0 ∨ s.autoHeld b i = true ∨ (!(s.afeIn b i).settled) = true ∨
      s.fldN Fld.afeAutoMax b ≤ (s.afeIn b i).step) := by
    simp [hmode, hfree, hset, hlow]
  rw [State.autoStepUp_eq, if_neg hgo, State.setAtten_afeIn, State.modAfe_afeIn]

theorem State.autoStepUp_stays {s : State} {b : BayNo} {i : Fin 2}
    (h : s.fldN Fld.afeAutoMode b = 0 ∨ (s.afeIn b i).settled = false) : s.autoStepUp b i = s := by
  have hstop : s.fldN Fld.afeAutoMode b = 0 ∨ s.autoHeld b i = true ∨ (!(s.afeIn b i).settled) = true ∨
      s.fldN Fld.afeAutoMax b ≤ (s.afeIn b i).step := by
    rcases h with h | h
    · exact .inl h
    · exact .inr (.inr (.inl (by rw [h]; rfl)))
  exact if_pos hstop

/-! ### A trip (R176) -/

/-- An input after its detector trips at counter time `t`, with an interval opened at `o` unless one is open. -/
def AfeIn.tripped (a : AfeIn) (o t : Stamp) : AfeIn :=
  if a.overload then { a with lastTrip := t, quietFrom := t }
  else
    { a with
      lastTrip := t, quietFrom := t, overload := true, intervals := (o, none) :: a.intervals, ovlCount := a.ovlCount + 1, ovlTold := true }

theorem AfeIn.tripped_same (a : AfeIn) (o t : Stamp) :
    (a.tripped o t).step = a.step ∧ (a.tripped o t).trim = a.trim ∧ (a.tripped o t).settled = a.settled ∧
      (a.tripped o t).autoUp = a.autoUp ∧ (a.tripped o t).overload = true ∧ (a.tripped o t).lastTrip = t := by
  unfold AfeIn.tripped
  split
  · next h => exact ⟨rfl, rfl, rfl, rfl, h, rfl⟩
  · exact ⟨rfl, rfl, rfl, rfl, rfl, rfl⟩

/-- A trip before the attenuator steps. -/
def State.detected (s : State) (b : BayNo) (i : Fin 2) (t : Stamp) : State :=
  let s0 := s.modAfe b i fun a => { a with lastTrip := t, quietFrom := t }
  if (s.afeIn b i).overload then s0
  else
    let s1 := s0.modAfe b i fun a =>
      { a with
        overload := true, intervals := (moved t (-(Config.detectorDelay b i.val : Int)), none) :: a.intervals
        ovlCount := a.ovlCount + 1, ovlTold := true }
    if (s.afeIn b i).ovlTold then s1 else s1.event b 0x0402 [wd i.val]

theorem State.trip_eq (s : State) (b : BayNo) (i : Fin 2) (t : Stamp) : s.trip b i t = (s.detected b i t).autoStepUp b i := (rfl)

theorem State.detected_afeIn (s : State) (b : BayNo) (i : Fin 2) (t : Stamp) :
    (s.detected b i t).afeIn b i = (s.afeIn b i).tripped (moved t (-(Config.detectorDelay b i.val : Int))) t := by
  unfold State.detected AfeIn.tripped
  split
  · rw [State.modAfe_afeIn]
  · split <;> simp only [State.event_afeIn, State.modAfe_afeIn]

/-- A trip without a step leaves what is not the front ends'. -/
theorem State.detected_view {q : Parts} (hq : q.apart { afe := true } = true) (s : State) (b : BayNo) (i : Fin 2) (t : Stamp) :
    (s.detected b i t).view q = s.view q := by
  unfold State.detected
  split
  · exact State.modAfe_view hq ..
  · split
    · exact (State.modAfe_view hq ..).trans (State.modAfe_view hq ..)
    · exact (State.event_view ..).trans ((State.modAfe_view hq ..).trans (State.modAfe_view hq ..))

theorem State.detected_vals (s : State) (b : BayNo) (i : Fin 2) (t : Stamp) : (s.detected b i t).vals = s.vals :=
  vals_of_view (State.detected_view (by decide) ..)

theorem State.detected_bay (s : State) (b : BayNo) (i : Fin 2) (t : Stamp) (c : BayNo) :
    ((s.detected b i t).bay c).clk = (s.bay c).clk ∧ ((s.detected b i t).bay c).cal = (s.bay c).cal ∧
      ((s.detected b i t).bay c).adc = (s.bay c).adc ∧ ((s.detected b i t).bay c).ddc = (s.bay c).ddc := by
  have h : ((s.detected b i t).bay c).view { clk := true, cal := true, adc := true, ddc := true } =
      (s.bay c).view { clk := true, cal := true, adc := true, ddc := true } := by
    rw [← State.view_bay, State.detected_view (by decide), State.view_bay]
  exact ⟨by simpa [Bay.view] using congrArg Bay.clk h, by simpa [Bay.view] using congrArg Bay.cal h,
    by simpa [Bay.view] using congrArg Bay.adc h, by simpa [Bay.view] using congrArg Bay.ddc h⟩

theorem State.trip_stays {s : State} {b : BayNo} {i : Fin 2} (h : s.fldN Fld.afeAutoMode b = 0 ∨ (s.afeIn b i).settled = false) (t : Stamp) :
    s.trip b i t = s.detected b i t := by
  rw [State.trip_eq, State.autoStepUp_stays]
  rw [State.fldN_congr (s.detected_vals b i t), State.detected_afeIn, (AfeIn.tripped_same ..).2.2.1]
  exact h

/-- A trip of a settled and free attenuator below its ceiling. -/
theorem State.trip_steps {s : State} {b : BayNo} {i : Fin 2} (hmode : s.fldN Fld.afeAutoMode b ≠ 0) (hfree : s.autoHeld b i = false)
    (hset : (s.afeIn b i).settled = true) (hlow : (s.afeIn b i).step < s.fldN Fld.afeAutoMax b) (t : Stamp) :
    ((s.trip b i t).afeIn b i).step = min ((s.afeIn b i).step + s.fldN Fld.afeAutoStep b) (s.fldN Fld.afeAutoMax b) ∧
      ((s.trip b i t).afeIn b i).autoUp = (s.afeIn b i).autoUp + 1 ∧ ((s.trip b i t).afeIn b i).trim = (s.afeIn b i).trim ∧
      ((s.trip b i t).afeIn b i).settled = false ∧ ((s.trip b i t).afeIn b i).overload = true := by
  have hvals := s.detected_vals b i t
  obtain ⟨hclk, hcal, _, _⟩ := s.detected_bay b i t b
  obtain ⟨hstep, htrim, hsame, hup, hover, _⟩ := (s.afeIn b i).tripped_same (moved t (-(Config.detectorDelay b i.val : Int))) t
  rw [State.trip_eq, State.autoStepUp_steps (by rw [State.fldN_congr hvals]; exact hmode) (by rw [State.autoHeld_congr hcal hclk]; exact hfree)
    (by rw [State.detected_afeIn, hsame]; exact hset) (by rw [State.detected_afeIn, hstep, State.fldN_congr hvals]; exact hlow)]
  simp only [State.detected_afeIn, State.fldN_congr hvals, hstep, htrim, hup, hover, and_self]

/-! ### OVERLOAD_TRIP and OVERLOAD_CLOSE -/

/-- The state in which a trip finds the detector: the samples that are clipped are counted. -/
def State.clipped (s : State) (b : BayNo) (i : Fin 2) (t : Stamp) (n : Nat) : State :=
  (s.reach t).modAdc b i fun c => { c with clips := c.clips + wd n }

theorem exec_overloadTrip_trips {s : State} {b : BayNo} {i : Fin 2} {a : Stamp} {v : Int} {n : Nat} (hworks : s.frontWorks b i = true)
    (hrun : (s.bay b).clk.gated = false) (hdue : stampLt a s.now = false) (hpeak : s.ovlLevel b < v ∨ n ≠ 0) :
    exec (.overloadTrip b i a v n) s = .next ((s.clipped b i a n).trip b i a) := by
  have hquiet : (decide (v ≤ s.ovlLevel b) && decide (n = 0)) = false := by
    rcases hpeak with h | h <;> simp [h]
  rw [exec_overloadTrip, execOverloadTrip]
  simp only [hworks, hrun, hdue, hquiet, Bool.not_true, Bool.or_self, Bool.false_eq_true, if_false]
  rfl

theorem State.clipped_afeIn (s : State) (b : BayNo) (i : Fin 2) (t : Stamp) (n : Nat) :
    ∃ m, (s.clipped b i t n).afeIn b i = { s.afeIn b i with ovlTold := m } := by
  obtain ⟨m, h⟩ := s.reach_afeIn t b i
  exact ⟨m, by rw [State.afeIn, State.clipped, State.modAdc_bay_afe]; exact h⟩

theorem State.clipped_vals (s : State) (b : BayNo) (i : Fin 2) (t : Stamp) (n : Nat) : (s.clipped b i t n).vals = s.vals := by
  rw [State.clipped, State.modAdc_vals, State.reach_vals]

theorem State.clipped_autoHeld (s : State) (b : BayNo) (i : Fin 2) (t : Stamp) (n : Nat) :
    (s.clipped b i t n).autoHeld b i = s.autoHeld b i :=
  State.autoHeld_congr (by rw [State.clipped, State.modAdc_bay_cal, State.reach_bay_cal])
    (by rw [State.clipped, State.modAdc_bay_clk, State.reach_bay_clk]) i

theorem overloadTrip_opens : Claims.FrontEnd.overloadTrip_opens := by
  intro s b i a v n hworks hrun hdue hpeak hclosed hmode
  obtain ⟨m, hin⟩ := s.clipped_afeIn b i a n
  have hstay : (s.clipped b i a n).trip b i a = (s.clipped b i a n).detected b i a :=
    State.trip_stays (.inl (by rw [State.fldN_congr (s.clipped_vals ..)]; exact hmode)) a
  have hopen : ((s.clipped b i a n).detected b i a).afeIn b i =
      { s.afeIn b i with
        lastTrip := a, quietFrom := a, overload := true, ovlCount := (s.afeIn b i).ovlCount + 1, ovlTold := true
        intervals := (moved a (-(Config.detectorDelay b i.val : Int)), none) :: (s.afeIn b i).intervals } := by
    rw [State.detected_afeIn, hin, AfeIn.tripped, if_neg (by rw [State.afeIn, hclosed]; decide)]
  obtain ⟨_, _, hadc, hddc⟩ := (s.clipped b i a n).detected_bay b i a b
  refine ⟨_, exec_overloadTrip_trips hworks hrun hdue hpeak, ?_⟩
  rw [hstay]
  refine ⟨congrArg AfeIn.overload hopen, congrArg AfeIn.intervals hopen, congrArg AfeIn.ovlCount hopen, congrArg AfeIn.lastTrip hopen,
    (congrArg AfeIn.step hopen :), (congrArg AfeIn.trim hopen :), ?_, ?_⟩
  · rw [hadc]
    simp [State.clipped, wd]
  · rw [hddc, State.clipped, State.modAdc_bay_ddc, State.reach_bay_ddc]

theorem overloadTrip_step : Claims.FrontEnd.overloadTrip_step := by
  intro s b i a v n hworks hdue hpeak hmode hfree hset hlow
  have hrun : (s.bay b).clk.gated = false := by
    have h : (s.calOpen b i || (s.bay b).clk.gated) = false := hfree
    exact (Bool.or_eq_false_iff.mp h).2
  obtain ⟨m, hin⟩ := s.clipped_afeIn b i a n
  have hvals := s.clipped_vals b i a n
  obtain ⟨hstep, hup, htrim, hunset, _⟩ := State.trip_steps (s := s.clipped b i a n) (by rw [State.fldN_congr hvals]; exact hmode)
    (by rw [State.clipped_autoHeld]; exact hfree) (by rw [hin]; exact hset) (by rw [hin, State.fldN_congr hvals]; exact hlow) a
  rw [hin, State.fldN_congr hvals, State.fldN_congr hvals] at hstep
  rw [hin] at hup htrim
  exact ⟨_, exec_overloadTrip_trips hworks hrun hdue hpeak, hstep, hup, htrim, hunset⟩

theorem overloadTrip_unsettled : Claims.FrontEnd.overloadTrip_unsettled := by
  intro s b i a v n hworks hrun hdue hpeak hunset
  obtain ⟨m, hin⟩ := s.clipped_afeIn b i a n
  obtain ⟨hstep, _, _, hup, hover, _⟩ :=
    ((s.clipped b i a n).afeIn b i).tripped_same (moved a (-(Config.detectorDelay b i.val : Int))) a
  have hafter : ((s.clipped b i a n).trip b i a).afeIn b i =
      ((s.clipped b i a n).afeIn b i).tripped (moved a (-(Config.detectorDelay b i.val : Int))) a := by
    rw [State.trip_stays (.inr (by rw [hin]; exact hunset)), State.detected_afeIn]
  rw [← hafter, hin] at hstep hup
  rw [← hafter] at hover
  exact ⟨_, exec_overloadTrip_trips hworks hrun hdue hpeak, hstep, hup, hover⟩

theorem overloadClose_done : Claims.FrontEnd.overloadClose_done := by
  intro s b i a o r hworks hopen hints hlate
  generalize hz : later a (ofNs (10 * s.fldN Fld.afeOvlHold b)) = z
  have he : exec (.overloadClose b i a) s =
      .next ((s.reach z).modAfe b i fun a => a.closeOverload (moved z (-(Config.detectorDelay b i.val : Int)))) := by
    rw [exec_overloadClose, execOverloadClose, ← hz]
    simp only [hworks, hopen, hlate, Bool.not_true, Bool.or_self, Bool.false_eq_true, if_false]
  obtain ⟨m, hin⟩ := s.reach_afeIn z b i
  have hclosed := (s.reach z).modAfe_afeIn b i fun a => a.closeOverload (moved z (-(Config.detectorDelay b i.val : Int)))
  rw [hin, AfeIn.closeOverload] at hclosed
  refine ⟨_, he, congrArg AfeIn.overload hclosed, (congrArg AfeIn.intervals hclosed).trans ?_, (congrArg AfeIn.step hclosed :),
    (congrArg AfeIn.settled hclosed :), ?_⟩
  · rw [State.afeIn, hints]
  · rw [State.modAfe_bay_adc, State.reach_bay_adc]

theorem overloadClose_tripped : Claims.FrontEnd.overloadClose_tripped := by
  intro s b i a hlate
  refine ⟨_, ?_, rfl⟩
  rw [exec_overloadClose, execOverloadClose, if_pos (by rw [hlate, Bool.or_true])]

/-! ### AUTO_STEP_DOWN and ATTEN_SETTLED -/

theorem autoStepDown_done : Claims.FrontEnd.autoStepDown_done := by
  intro s b i v hworks hmode hfree hclosed habove hpeak
  generalize hu : s.reach (later (s.bay b).afe.inputs[i].quietFrom (ofMs (s.fldN Fld.afeAutoDownHold b))) = u
  obtain ⟨m, hin⟩ : ∃ m, u.afeIn b i = { s.afeIn b i with ovlTold := m } := hu ▸ s.reach_afeIn _ b i
  have he : exec (.autoStepDown b i v) s = .next ((u.modAfe b i fun a => { a with autoDown := a.autoDown + 1 }).setAtten b i
      (max ((s.afeIn b i).step - s.fldN Fld.afeAutoStep b) (s.fldN Fld.afeAtten b i.val)) (s.afeIn b i).trim 3 true (u.nowAt b)) := by
    rw [exec_autoStepDown, execAutoStepDown, ← hu]
    simp only [hworks, hmode, hfree, hclosed, Nat.not_le.mpr habove, Int.not_lt.mpr hpeak, ne_eq, not_true_eq_false, decide_false,
      Bool.not_true, Bool.or_self, Bool.false_eq_true, if_false]
    rfl
  refine ⟨_, he, ?_⟩
  have hafter := State.setAtten_afeIn (u.modAfe b i fun a => { a with autoDown := a.autoDown + 1 }) b i
    (max ((s.afeIn b i).step - s.fldN Fld.afeAutoStep b) (s.fldN Fld.afeAtten b i.val)) (s.afeIn b i).trim 3 true (u.nowAt b)
  rw [State.modAfe_afeIn, hin] at hafter
  exact ⟨(congrArg AfeIn.step hafter :), (congrArg AfeIn.autoDown hafter :), (congrArg AfeIn.trim hafter :), congrArg AfeIn.settled hafter,
    (congrArg AfeIn.overload hafter).trans hclosed⟩

theorem State.reach_ovlLevel (s : State) (t : Stamp) (b : BayNo) : (s.reach t).ovlLevel b = s.ovlLevel b := by
  rw [State.ovlLevel, State.reach_fldN, State.ovlLevel]

theorem exec_attenSettled_works {s : State} {b : BayNo} {i : Fin 2} {u : State} (hworks : s.frontWorks b i = true)
    (hunset : (s.bay b).afe.inputs[i].settled = false) (hu : s.reach (later (s.bay b).afe.inputs[i].changedAt (ofNs 50)) = u) (v : Int) :
    exec (.attenSettled b i v) s = .next (if (s.bay b).clk.gated || decide (v ≤ s.ovlLevel b) then
        u.modAfe b i fun a => { a with settled := true }
      else (u.modAfe b i fun a => { a with settled := true }).trip b i ((u.modAfe b i fun a => { a with settled := true }).nowAt b)) := by
  rw [exec_attenSettled, execAttenSettled, ← s.reach_ovlLevel (later (s.bay b).afe.inputs[i].changedAt (ofNs 50)),
    ← s.reach_bay_clk (later (s.bay b).afe.inputs[i].changedAt (ofNs 50)), ← hu]
  simp only [hworks, hunset, Bool.not_true, Bool.or_self, Bool.false_eq_true, if_false]

theorem attenSettled_done : Claims.FrontEnd.attenSettled_done := by
  intro s b i v hworks hunset hlow
  refine ⟨_, exec_attenSettled_works hworks hunset rfl v, ?_⟩
  rw [decide_eq_true hlow, Bool.or_true, if_pos rfl]

theorem attenSettled_again : Claims.FrontEnd.attenSettled_again := by
  intro s b i v hworks hunset hhigh hmode hfree hlow
  have hrun : (s.bay b).clk.gated = false := by
    have h : (s.calOpen b i || (s.bay b).clk.gated) = false := hfree
    exact (Bool.or_eq_false_iff.mp h).2
  generalize hu : s.reach (later (s.bay b).afe.inputs[i].changedAt (ofNs 50)) = u
  obtain ⟨m, hin⟩ : ∃ m, u.afeIn b i = { s.afeIn b i with ovlTold := m } := hu ▸ s.reach_afeIn _ b i
  generalize hw : (u.modAfe b i fun a => { a with settled := true }) = w
  have hset : w.afeIn b i = { s.afeIn b i with settled := true, ovlTold := m } := by rw [← hw, State.modAfe_afeIn, hin]
  have hvals : w.vals = s.vals := by rw [← hw, ← hu, State.modAfe_vals, State.reach_vals]
  have hheld : w.autoHeld b i = s.autoHeld b i := by
    refine State.autoHeld_congr ?_ ?_ i
    · rw [← hw, ← hu, State.modAfe_bay_cal, State.reach_bay_cal]
    · rw [← hw, ← hu, State.modAfe_bay_clk, State.reach_bay_clk]
  have he := exec_attenSettled_works hworks hunset hu v
  rw [hrun, decide_eq_false (Int.not_le.mpr hhigh), Bool.or_self, if_neg Bool.false_ne_true, hw] at he
  obtain ⟨hstep, _, _, hagain, hover⟩ := State.trip_steps (s := w) (i := i) (by rw [State.fldN_congr hvals]; exact hmode) (hheld.trans hfree)
    (by rw [hset]) (by rw [hset, State.fldN_congr hvals]; exact hlow) (w.nowAt b)
  rw [hset, State.fldN_congr hvals, State.fldN_congr hvals] at hstep
  exact ⟨_, he, hstep, hagain, hover⟩

end Sys2Proof.Machine

namespace Sys2Proof
open Sys2Proof.Machine

/-- Settles O25: a change of the attenuation is what `setAtten` makes of an input and of its RF port, and a trip is an interval and then
perhaps such a change. -/
theorem frontEnd : Obligations.FrontEnd :=
  ⟨overloadTrip_opens, overloadTrip_step, overloadTrip_unsettled, overloadClose_done, overloadClose_tripped, autoStepDown_done,
    attenSettled_done, attenSettled_again, setAtten_run⟩

end Sys2Proof
end

section
/-! The package master's time: the servo, the leader's time over a link, the upstream link and the snapshot, and the clauses of TimeServo
(R97, R144 to R152, R164, R167, R604). -/
namespace Sys2Proof.Machine

theorem exec_servoHoldoverTimeout (s : State) : exec .servoHoldoverTimeout s = execServoHoldoverTimeout s := (rfl)
theorem exec_linkDelayMeasure (b : BayNo) (p : Fin 5) (d : Nat) (lead : Option LeaderTime) (s : State) :
    exec (.linkDelayMeasure b p d lead) s = execLinkDelayMeasure b p d lead s := (rfl)
theorem exec_tbsNowRead (b : BayNo) (s : State) : exec (.tbsNowRead b) s = execTbsNowRead b s := (rfl)
theorem exec_tbsEdgeLostRead (b : BayNo) (s : State) : exec (.tbsEdgeLostRead b) s = execTbsEdgeLostRead b s := (rfl)
theorem exec_snapshotTake (remote : Option (Stamp × Word)) (s : State) :
    exec (.snapshotTake remote) s = execSnapshotTake remote s := (rfl)

/-! ### The servo (R148, R149) -/

theorem State.servoOffset_offset (s : State) (off : Int) : (s.servoOffset off).tbs.servo.offset = off := by
  unfold State.servoOffset
  extract_lets d close n st s1 s2
  have htold : s2.tbs = s1.tbs := by
    simp only [s2]
    split
    · exact s1.event_tbs ..
    · split
      · exact s1.event_tbs ..
      · rfl
  have hoff : s2.tbs.servo.offset = off := by rw [htold]; rfl
  split
  · exact hoff
  · obtain ⟨v, l, hv⟩ := s2.steer_servo (Config.servoLoop (s2.pkgN Fld.tbsServoBw) off s2.tbs.servo.rateAdj)
    rw [State.freeSteer, hv]
    exact hoff

theorem ppsEdge_offset : Claims.TimeServo.ppsEdge_offset := by
  intro s s1 a u long h h0 hd hfree
  have he := exec_ppsEdge_stamped h h0 (.inl hd)
  rw [if_neg fun ⟨hl, _⟩ => hfree hl] at he
  exact ⟨_, he, s1.hearSource.servoOffset_offset _, (s1.hearSource.servoOffset_rejects _).1⟩

/-- What a steering makes of the servo (R135, R149). -/
theorem State.steer_tbs (s : State) (r : Int) :
    (s.steer r).tbs = { s.tbs with
      servo := { s.tbs.servo with
        rateAdj := max (-s.slewMax) (min s.slewMax r), rates := (s.now, max (-s.slewMax) (min s.slewMax r)) :: s.tbs.servo.rates } } := by
  unfold State.steer
  rw [State.eachBay_tbs _ _ _ fun u b => by split <;> rfl]
  rfl

theorem State.steer_rings (s : State) (r : Int) : (s.steer r).img = s.img ∧ (s.steer r).outbox = s.outbox :=
  ⟨State.eachBay_keep (·.img) _ (fun u b => by split <;> rfl) _ _, State.eachBay_keep (·.outbox) _ (fun u b => by split <;> rfl) _ _⟩

theorem servoHoldoverTimeout_done : Claims.TimeServo.servoHoldoverTimeout_done := by
  intro s hlocked
  generalize hu : s.reach (later s.tbs.servo.heard (ofMs 2500)) = u
  have he : exec .servoHoldoverTimeout s =
      .next (((u.modServo fun d => { d with state := .holdover, within := 0 }).steer u.meanRate).event 0 0x0304 []) := by
    rw [exec_servoHoldoverTimeout, execServoHoldoverTimeout, if_neg (not_not_intro hlocked), hu]
  have himg : u.img = s.img := by rw [← hu, State.reach_img]
  have hout : u.outbox = s.outbox := by rw [← hu, State.reach_outbox]
  obtain ⟨hkeep, hsent⟩ := (u.modServo fun d => { d with state := .holdover, within := 0 }).steer_rings u.meanRate
  refine ⟨_, he, ⟨_, rfl, ?_, ?_⟩, ?_, ?_⟩
  · rw [hkeep, State.modServo_img, himg]
  · rw [hsent, State.modServo_outbox, hout]
  · rw [State.event_tbs, State.steer_tbs]
    rfl
  · have hslew : (u.modServo fun d => { d with state := .holdover, within := 0 }).slewMax = s.slewMax := by
      rw [State.slewMax, State.modServo_pkgN, ← hu, State.reach_pkgN, State.slewMax]
    rw [State.event_tbs, State.steer_tbs, hslew]

/-! ### The upstream link (R604) -/

theorem upstream_ring : Claims.TimeServo.upstream_ring := by
  intro s hshoal hfollows h0 h1 hcuts
  have hp : s.packageNo.toNat ≠ 0 := fun h => hfollows (BitVec.eq_of_toNat_eq h)
  have hway0 : s.wayWhole 0 = true := by simp [State.wayWhole, hcuts, h0, -Fin.getElem_fin]
  have hway1 : s.wayWhole 1 = true := by simp [State.wayWhole, hcuts, h1, -Fin.getElem_fin]
  simp only [State.upstream, hway0, hway1, Nat.not_le.mpr hshoal, hp, Bool.not_true, Bool.or_false, Bool.true_and, decide_eq_true_eq,
    or_self, if_false, if_true]
  split <;> rfl

theorem upstream_chain : Claims.TimeServo.upstream_chain := by
  intro s hshoal hfollows h0 h1 hcuts
  have hp : s.packageNo.toNat ≠ 0 := fun h => hfollows (BitVec.eq_of_toNat_eq h)
  have hway0 : s.wayWhole 0 = true := by simp [State.wayWhole, hcuts, h0, -Fin.getElem_fin]
  have hway1 : s.wayWhole 1 = false := by simp [State.wayWhole, h1, -Fin.getElem_fin]
  simp only [State.upstream, hway0, hway1, Nat.not_le.mpr hshoal, hp, Bool.false_and, Bool.false_eq_true, or_self, if_false, if_true]

/-- The measured delay of a link is no part of what chooses the upstream link. -/
theorem State.modExt_upstream (s : State) (n : Fin 2) {f : ExtLink → ExtLink} (h : ∀ x, (f x).port.up = x.port.up) :
    (s.modExt n f).upstream = s.upstream := by
  have hway : ∀ m, (s.modExt n f).wayWhole m = s.wayWhole m := fun m => by
    have hup : (s.modExt n f).lnl.ext[m].port.up = s.lnl.ext[m].port.up := by
      by_cases hm : m = n
      · subst hm; simp [h]
      · have hne : n.val ≠ m.val := fun e => hm (Fin.ext e.symm)
        simp [Vector.getElem_set_ne, hne]
    rw [State.wayWhole, hup]
    rfl
  simp only [State.upstream, hway]
  rfl

/-! ### LINK_DELAY_MEASURE (R97, R144, R145) -/

/-- A link with its delay measured. -/
def State.measured (s : State) (n : Fin 2) (d : Nat) : State := s.modExt n fun x => { x with port := { x.port with delay := d } }

theorem State.modLinkPort_link (s : State) (b : BayNo) (n : Fin 2) (d : Nat) :
    s.modLinkPort b ⟨n.val + 3, by omega⟩ (fun x => { x with delay := d }) = s.measured n d := by
  have hn : (⟨n.val + 3 - 3, by omega⟩ : Fin 2) = n := Fin.ext (by simp)
  rw [State.modLinkPort, dif_neg (by simp)]
  simp only [hn]
  rfl

theorem linkDelayMeasure_done : Claims.TimeServo.linkDelayMeasure_done := by
  intro s b p d lead hup halone
  refine ⟨_, ?_, rfl⟩
  rw [exec_linkDelayMeasure, execLinkDelayMeasure, hup]
  have hpkg : (s.modLinkPort b p fun x => { x with delay := d }).pkgN Fld.lnlShoalSize = s.pkgN Fld.lnlShoalSize := by
    rw [State.modLinkPort]
    split
    · rw [State.modPortL_pkgN]
    · rw [State.modExt_pkgN]
  simp only [hpkg, halone, Bool.not_true, Bool.false_eq_true, if_false, if_true]

theorem exec_linkDelayMeasure_link {s : State} {b : BayNo} {n : Fin 2} (hup : s.isUp b ⟨n.val + 3, by omega⟩ = true)
    (hshoal : s.pkgN Fld.lnlShoalSize > 1) (d : Nat) (lead : Option LeaderTime) :
    exec (.linkDelayMeasure b ⟨n.val + 3, by omega⟩ d lead) s = .next (
      if s.upstream = some n then
        match lead with
        | none => s.measured n d
        | some l => (s.measured n d).hearLeader l (d + s.fld Fld.tbsUpAsym 0)
      else if s.packageNo = 0 ∨ s.tbs.adopted then
        (s.measured n d).emit (.packet "SHOAL_TIME" n.val (stampWords (moved s.now (quarterPs (s.fld Fld.tbsDownAsym 0)))))
      else s.measured n d) := by
  have hany : (s.upstream.any fun m => decide (m.val + 3 = n.val + 3)) = decide (s.upstream = some n) := by
    cases s.upstream with
    | none => rfl
    | some m => simp [Fin.ext_iff]
  rw [exec_linkDelayMeasure, execLinkDelayMeasure, hup, State.modLinkPort_link]
  have hup' : (s.measured n d).upstream = s.upstream := s.modExt_upstream n fun _ => rfl
  have hmany : ¬(n.val + 3 < 3 ∨ s.pkgN Fld.lnlShoalSize ≤ 1) := by omega
  simp only [State.measured, State.modExt_pkgN, State.modExt_fld, State.modExt_now, State.modExt_tbs, hmany, Bool.not_true,
    Bool.false_eq_true, if_false, Nat.add_sub_cancel] at hup' ⊢
  rw [hup', hany]
  by_cases h : s.upstream = some n
  · simp only [h, decide_true, if_true]
    cases lead <;> rfl
  · simp only [h, decide_false, Bool.false_eq_true, if_false]
    exact (apply_ite Host.Outcome.next ..).symm

theorem linkDelayMeasure_sends : Claims.TimeServo.linkDelayMeasure_sends := by
  intro s b n d lead hup hshoal hother htime
  refine ⟨_, exec_linkDelayMeasure_link hup hshoal d lead, ?_⟩
  rw [if_neg hother, if_pos htime, State.modLinkPort_link]

/-! ### The leader's time (R97, R145) -/

/-- A step of `d` units of a stamp moves the counter's stamp by `d` and leaves its fraction. -/
theorem Tide.stamp_step (t : Tide) (d : Int) : Tide.stamp (t + BitVec.ofInt 128 (d * 2 ^ 32)) = moved (Tide.stamp t) d := by
  have hd : (d * 2 ^ 32 % 2 ^ 128).toNat = (d % 2 ^ 96).toNat * 2 ^ 32 := by omega
  apply BitVec.eq_of_toNat_eq
  simp only [Tide.stamp, moved, BitVec.extractLsb'_toNat, BitVec.toNat_add, BitVec.toNat_ofInt, Nat.shiftRight_eq_div_pow]
  have h1 : ((d * 2 ^ 32) % ((2 ^ 128 : Nat) : Int)).toNat = (d % 2 ^ 96).toNat * 2 ^ 32 := hd
  have h2 : (d % ((2 ^ 96 : Nat) : Int)).toNat = (d % 2 ^ 96).toNat := rfl
  rw [h1, h2]
  omega

theorem moved_stampDiff (a b : Stamp) : moved b (stampDiff a b) = a := by
  rw [moved, stampDiff, BitVec.ofInt_toInt, BitVec.add_comm, BitVec.sub_add_cancel]

/-- A bay's turn when a follower takes the leader's time and grid for the first time. -/
def State.takeTime (s : State) (off : Int) (g : Grid) (b : BayNo) : State :=
  (s.modBay b fun y => y.shift off).modTbs b fun x => { x with source := .leader, epoch := g.number, epochStart := g.start }

/-- The bays on the headland's side take the leader's time, and the package its grid, its settings and its steps. -/
def State.adoptLeader (s : State) (l : LeaderTime) (off : Int) : State :=
  let u := (s.modTbsPkg fun y => { y with leader := some l }).eachBay (s.liveBays.filter fun b => !(s.bay b).tbs.islanded) fun u b =>
    u.takeTime off l.grid b
  (((u.modGrid fun _ => l.grid).modTbsPkg fun y => { y with adopted := true }).steer l.rate).modServo fun v => { v with step := l.step }

theorem State.hearLeader_adopts {s : State} {l : LeaderTime} (hhead : s.alive 0 = true) (hset : (s.bay 0).tbs.set = true)
    (hown : (s.bay 0).tbs.islanded = false) (hfresh : (s.bay 0).tbs.source ≠ .leader) (hnew : s.tbs.adopted = false)
    (haway : s.tbs.away = none) (hruns : l.restarting = false) (d : Int) :
    s.hearLeader l d = s.adoptLeader l (stampDiff (moved l.stamp (quarterPs d)) s.now) := by
  have hlive : (s.modTbsPkg fun y => { y with leader := some l }).liveBays = s.liveBays := rfl
  simp only [State.hearLeader, hlive, hhead, hset, hown, hfresh, hnew, haway, hruns, Option.isSome_none, ne_eq, not_false_eq_true, decide_true,
    Bool.not_true, Bool.or_self, Bool.false_eq_true, if_false, if_true, State.modTbsPkg_bay]
  rfl

/-- What a turn leaves of a bay's counter and epoch. -/
def State.clockOf (c : BayNo) (s : State) : Tide × TimeSource × BitVec 64 := ((s.bay c).tbs.tide, (s.bay c).tbs.source, (s.bay c).tbs.epoch)

theorem State.takeTime_clockOf_ne (s : State) (off : Int) (g : Grid) {b c : BayNo} (h : b ≠ c) :
    (s.takeTime off g b).clockOf c = s.clockOf c := by
  rw [State.clockOf, State.takeTime, State.modTbs_bay_tbs_ne _ _ _ h.symm, State.bay_modBay_ne _ _ h.symm, State.clockOf]

theorem State.takeTime_clockOf (s : State) (off : Int) (g : Grid) (c : BayNo) :
    (s.takeTime off g c).clockOf c = ((s.bay c).tbs.tide + BitVec.ofInt 128 (off * 2 ^ 32), .leader, g.number) := by
  rw [State.clockOf, State.takeTime, State.modTbs_bay_tbs_self, State.bay_modBay]
  rfl

theorem State.steer_clockOf (s : State) (r : Int) (c : BayNo) : (s.steer r).clockOf c = s.clockOf c :=
  State.eachBay_keep (State.clockOf c) _ (fun u b => by
    split
    · rfl
    · exact State.bay_modBay_same (fun y : Bay => (y.tbs.tide, y.tbs.source, y.tbs.epoch)) u b c _ fun _ => rfl) _ _

theorem State.adoptLeader_clockOf {s : State} {c : BayNo} (hc : s.alive c = true) (hside : (s.bay c).tbs.islanded = false)
    (l : LeaderTime) (off : Int) :
    (s.adoptLeader l off).clockOf c = ((s.bay c).tbs.tide + BitVec.ofInt 128 (off * 2 ^ 32), .leader, l.grid.number) := by
  have hmem : c ∈ s.liveBays.filter fun b => !(s.bay b).tbs.islanded :=
    List.mem_filter.mpr ⟨(s.mem_liveBays c).mpr hc, by rw [hside]; rfl⟩
  obtain ⟨u, hu, ht⟩ := State.eachBay_turn (State.clockOf c) (fun u b => u.takeTime off l.grid b) c
    (fun u b h => u.takeTime_clockOf_ne off l.grid h) _ (s.liveBays_nodup.filter _) hmem (s.modTbsPkg fun y => { y with leader := some l })
  have htide : (u.bay c).tbs.tide = (s.bay c).tbs.tide := congrArg Prod.fst hu
  exact (State.steer_clockOf _ l.rate c).trans (ht.trans (by rw [State.takeTime_clockOf, htide]))

theorem State.takeTimes_tbs (s : State) (bs : List BayNo) (off : Int) (g : Grid) :
    (s.eachBay bs fun u b => u.takeTime off g b).tbs = s.tbs :=
  State.eachBay_keep (·.tbs) (fun u b => u.takeTime off g b) (fun _ _ => rfl) bs s

theorem State.adoptLeader_tbs (s : State) (l : LeaderTime) (off : Int) :
    (s.adoptLeader l off).tbs.leader = some l ∧ (s.adoptLeader l off).tbs.adopted = true ∧ (s.adoptLeader l off).tbs.grid = l.grid ∧
      (s.adoptLeader l off).tbs.servo.step = l.step := by
  refine ⟨?_, ?_, ?_, rfl⟩
  · refine (congrArg TbsPkg.leader (State.steer_tbs _ l.rate)).trans ?_
    exact congrArg TbsPkg.leader (State.takeTimes_tbs _ _ off l.grid)
  · exact congrArg TbsPkg.adopted (State.steer_tbs _ l.rate)
  · exact congrArg TbsPkg.grid (State.steer_tbs _ l.rate)

theorem linkDelayMeasure_follows : Claims.TimeServo.linkDelayMeasure_follows := by
  intro s b b' n d l hup hupstream hhead hset hown hfresh hnew haway hruns halive hside
  have hshoal : s.pkgN Fld.lnlShoalSize > 1 := by
    by_contra h
    have hnone : s.upstream = none := if_pos (.inl (Nat.not_lt.mp h))
    rw [hnone] at hupstream
    cases hupstream
  have he := exec_linkDelayMeasure_link hup hshoal d (some l)
  rw [if_pos hupstream] at he
  dsimp only at he
  generalize hm : s.measured n d = m at he
  have hbay : ∀ c, m.bay c = s.bay c := fun c => by rw [← hm]; rfl
  have hlive : ∀ c, m.alive c = s.alive c := fun c => by rw [← hm]; rfl
  have htbs : m.tbs = s.tbs := by rw [← hm]; rfl
  generalize hoff : stampDiff (moved l.stamp (quarterPs (d + s.fld Fld.tbsUpAsym 0))) m.now = off
  have hhear : m.hearLeader l (d + s.fld Fld.tbsUpAsym 0) = m.adoptLeader l off := by
    rw [← hoff]
    exact State.hearLeader_adopts (by rw [hlive]; exact hhead) (by rw [hbay]; exact hset) (by rw [hbay]; exact hown) (by rw [hbay]; exact hfresh)
      (by rw [htbs]; exact hnew) (by rw [htbs]; exact haway) hruns _
  obtain ⟨hleader, hadopted, hgrid, hstep⟩ := m.adoptLeader_tbs l off
  have hzero := State.adoptLeader_clockOf (c := 0) (by rw [hlive]; exact hhead) (by rw [hbay]; exact hown) l off
  have hbays := State.adoptLeader_clockOf (c := b') (by rw [hlive]; exact halive) (by rw [hbay]; exact hside) l off
  rw [hhear] at he
  refine ⟨_, he, ?_, hleader, hadopted, hgrid, hstep, congrArg (·.2.1) hbays, congrArg (·.2.2) hbays⟩
  have htide : ((m.adoptLeader l off).bay 0).tbs.tide = (m.bay 0).tbs.tide + BitVec.ofInt 128 (off * 2 ^ 32) := congrArg Prod.fst hzero
  rw [State.now, State.nowAt, htide, Tide.stamp_step, ← hoff]
  exact moved_stampDiff _ m.now

/-! ### Reads of TBS and the snapshot (R164, R167) -/

theorem tbsNowRead_done : Claims.TimeServo.tbsNowRead_done := by
  intro s b halive
  refine ⟨_, ?_, rfl⟩
  rw [exec_tbsNowRead, execTbsNowRead, halive]
  rfl

theorem tbsEdgeLostRead_done : Claims.TimeServo.tbsEdgeLostRead_done := by
  intro s b halive
  refine ⟨_, ?_, rfl⟩
  rw [exec_tbsEdgeLostRead, execTbsEdgeLostRead, halive]
  rfl

/-- A bay's turn in a snapshot. -/
def State.snap (s : State) (t : Stamp) (id : Word) (b : BayNo) : State :=
  ((s.modTbs b fun x => { x with snapStamp := t, snapId := id }).modBay b fun x => { x with que := x.que.snapshot }).event
    b 0x0320 ([id] ++ stampWords t)

theorem exec_snapshotTake_due {s : State} {remote : Option (Stamp × Word)} {t : Stamp} {id : Word} {rest : List (Stamp × Word)}
    (h : s.snapDue remote = some ((t, id), rest)) :
    exec (.snapshotTake remote) s =
      .next (((s.reach t).modTbsPkg fun y => { y with snaps := rest }).eachBay s.liveBays fun u b => u.snap t id b) := by
  have hlive : ((s.reach t).modTbsPkg fun y => { y with snaps := rest }).liveBays = s.liveBays := s.reach_liveBays t
  rw [exec_snapshotTake, execSnapshotTake, h]
  simp only [hlive]
  rfl

theorem State.snap_bay_tbs (s : State) (t : Stamp) (id : Word) (b c : BayNo) :
    ((s.snap t id b).bay c).tbs = ((s.modTbs b fun x => { x with snapStamp := t, snapId := id }).bay c).tbs := by
  rw [State.snap, State.event_bay_tbs]
  exact State.bay_modBay_same (·.tbs) _ b c _ fun _ => rfl

theorem State.snap_tbs (s : State) (t : Stamp) (id : Word) (b : BayNo) : (s.snap t id b).tbs = s.tbs := by
  rw [State.snap, State.event_tbs]
  rfl

/-- In a round over the bays each holds the stamp and the id, and nothing of the package's time changes. -/
theorem State.snaps_bay (s : State) (t : Stamp) (id : Word) {bs : List BayNo} (hnd : bs.Nodup) {b : BayNo} (hb : b ∈ bs) :
    (s.eachBay bs fun u b => u.snap t id b).tbs = s.tbs ∧ ((s.eachBay bs fun u b => u.snap t id b).bay b).tbs.snapStamp = t ∧
      ((s.eachBay bs fun u b => u.snap t id b).bay b).tbs.snapId = id := by
  obtain ⟨v, _, hv⟩ := State.eachBay_turn (fun x => (x.bay b).tbs) (fun u b => u.snap t id b) b
    (fun u c h => by rw [State.snap_bay_tbs, State.modTbs_bay_tbs_ne _ _ _ h.symm]) bs hnd hb s
  have hturn : ((v.snap t id b).bay b).tbs = { (v.bay b).tbs with snapStamp := t, snapId := id } := by
    rw [State.snap_bay_tbs, State.modTbs_bay_tbs_self]
  have hafter := hv.trans hturn
  exact ⟨State.eachBay_keep (·.tbs) (fun u b => u.snap t id b) (fun u c => u.snap_tbs t id c) bs s, congrArg TbsBay.snapStamp hafter,
    congrArg TbsBay.snapId hafter⟩

/-- The snapshot leaves what waits as `rest`. -/
theorem snapshotTake_bay {s u : State} {b : BayNo} (halive : s.alive b = true) {t : Stamp} {id : Word} {rest : List (Stamp × Word)}
    (hu : u = ((s.reach t).modTbsPkg fun y => { y with snaps := rest }).eachBay s.liveBays fun u b => u.snap t id b) :
    u.tbs.snaps = rest ∧ (u.bay b).tbs.snapStamp = t ∧ (u.bay b).tbs.snapId = id := by
  have hsnaps : ((s.reach t).modTbsPkg fun y => { y with snaps := rest }).tbs.snaps = rest := rfl
  generalize (s.reach t).modTbsPkg (fun y => { y with snaps := rest }) = v at hu hsnaps
  obtain ⟨htbs, hstamp, hid⟩ := v.snaps_bay t id s.liveBays_nodup ((s.mem_liveBays b).mpr halive)
  subst hu
  exact ⟨(congrArg TbsPkg.snaps htbs).trans hsnaps, hstamp, hid⟩

theorem snapshotTake_done : Claims.TimeServo.snapshotTake_done := by
  intro s t id rest b hsnaps halive
  exact ⟨_, exec_snapshotTake_due (by rw [State.snapDue, hsnaps]), snapshotTake_bay halive rfl⟩

theorem snapshotTake_remote : Claims.TimeServo.snapshotTake_remote := by
  intro s t id b hshoal hhead halive
  have hdue : s.snapDue (some (t, id)) = some ((t, id), s.tbs.snaps) := by
    rw [State.snapDue, hhead, Bool.and_true, decide_eq_true hshoal, if_pos rfl]
  exact ⟨_, exec_snapshotTake_due hdue, snapshotTake_bay halive rfl⟩

end Sys2Proof.Machine

namespace Sys2Proof
open Sys2Proof.Machine

/-- Settles O21: the step that takes the leader's time is exactly what the headland's counter was off by. -/
theorem timeServo : Obligations.TimeServo :=
  ⟨ppsEdge_offset, servoHoldoverTimeout_done, linkDelayMeasure_done, linkDelayMeasure_follows, linkDelayMeasure_sends, upstream_ring,
    upstream_chain, tbsNowRead_done, tbsEdgeLostRead_done, snapshotTake_done, snapshotTake_remote⟩

end Sys2Proof
end

section
/-! Power and reset: what a stop of every bay leaves of the package, and the clauses of PowerAndReset (R88, R165, R630, R637, R731). -/
namespace Sys2Proof.Machine

theorem exec_pwrGoodRise (s : State) : exec .pwrGoodRise s = execPwrGoodRise s := (rfl)
theorem exec_powerFail (s : State) : exec .powerFail s = execPowerFail s := (rfl)
theorem exec_rstNFall (s : State) : exec .rstNFall s = execRstNFall s := (rfl)
theorem exec_rstNRise (s : State) : exec .rstNRise s = execRstNRise s := (rfl)
theorem exec_tbsGlobalReset (v : Word) (s : State) : exec (.tbsGlobalReset v) s = execTbsGlobalReset v s := (rfl)
theorem exec_globalResetArrive (remote : Bool) (s : State) :
    exec (.globalResetArrive remote) s = execGlobalResetArrive remote s := (rfl)
theorem exec_globalResetRelease (s : State) : exec .globalResetRelease s = execGlobalResetRelease s := (rfl)

/-! ### What stays -/

/-- States that agree in the view of the seal keeper have the same VBAT island. -/
theorem State.island_of_view {s t : State} (h : s.view { keeper := true } = t.view { keeper := true }) :
    s.keeper.island = t.keeper.island :=
  congrArg (·.keeper.island) h

theorem State.flash_of_view {s t : State} (h : s.view { flash := true } = t.view { flash := true }) : s.flash = t.flash :=
  congrArg (·.flash) h

theorem State.pwr_reset_of_stripped (s : State) (fuses : SealFuses) :
    (s.stripped fuses).pwr = PwrPkg.reset ∧ (s.stripped fuses).img = Img.reset ∧ (s.stripped fuses).vals = [] ∧
      (s.stripped fuses).trg = TrgPkg.reset ∧ (s.stripped fuses).keeper.fuses = fuses ∧ (s.stripped fuses).keeper.rowPending = none :=
  ⟨rfl, rfl, rfl, rfl, rfl, rfl⟩

/-- A stop of every bay leaves the flash and the VBAT island (R637, R731). -/
theorem State.stripped_stays (s : State) (fuses : SealFuses) :
    (s.stripped fuses).flash = s.flash ∧ (s.stripped fuses).keeper.island = s.keeper.island := by
  have hview : ∀ q : Parts, q.apart { trg := true } = true → q.apart { recorder := true } = true →
      (s.outsLow.eachBay s.liveBays State.recPowerLoss).view q = s.view q := fun q htrg hrec =>
    (State.eachBay_view _ _ (fun _ _ => State.recPowerLoss_view hrec ..) _ _).trans (State.outsLow_view htrg s)
  exact ⟨State.flash_of_view (s := s.outsLow.eachBay s.liveBays State.recPowerLoss) (hview _ (by decide) (by decide)),
    State.island_of_view (s := s.outsLow.eachBay s.liveBays State.recPowerLoss) (hview _ (by decide) (by decide))⟩

/-- What a reset that leaves the lagoons running makes of the package (R88, R165). -/
theorem State.warmReset_package (s : State) :
    s.warmReset.vals = [] ∧ s.warmReset.img.boot = Boot.reset ∧ s.warmReset.img.image = none ∧ s.warmReset.pwr.state = .run ∧
      s.warmReset.flash = s.flash ∧ s.warmReset.keeper.island = s.keeper.island := by
  unfold State.warmReset
  extract_lets v t
  obtain ⟨hflash, hisland⟩ := v.2.stripped_stays (if v.1 = 1 then v.2.keeper.cutRow else v.2.keeper.fuses)
  exact ⟨rfl, rfl, rfl, rfl, hflash.trans (s.takeFree_flash 1), hisland.trans (s.takeFree_keeper_island 1)⟩

/-! ### Power -/

theorem pwrGoodRise_done : Claims.PowerAndReset.pwrGoodRise_done := by
  intro s hoff
  rw [exec_pwrGoodRise, execPwrGoodRise, if_neg (not_not_intro hoff)]
  refine ⟨_, rfl, ?_⟩
  rw [State.modPwr_rstLow]
  cases hrst : s.rstLow
  · exact ⟨rfl, rfl, rfl, rfl, fun _ => ⟨rfl, rfl⟩⟩
  · exact ⟨rfl, rfl, rfl, rfl, fun h => absurd h (by decide)⟩

theorem powerFail_done : Claims.PowerAndReset.powerFail_done := by
  intro s hon
  have he : exec .powerFail s =
      .next { s.stripped s.keeper.cutRow with bays := (s.stripped s.keeper.cutRow).bays.map fun y => { y with jtag := .reset } } := by
    rw [exec_powerFail, execPowerFail, if_neg hon]
  obtain ⟨hflash, hisland⟩ := s.stripped_stays s.keeper.cutRow
  refine ⟨_, he, rfl, rfl, rfl, rfl, hflash, hisland, ?_, rfl⟩
  show s.keeper.cutRow = _
  rw [Seal.cutRow]
  cases s.keeper.rowPending with
  | none => simp
  | some r => rfl

/-! ### RST_N -/

/-- What RST_N finds once a shoal's leader has passed the reset on (R165). -/
def State.resetPassed (s : State) : State :=
  if s.running && decide (s.pkgN Fld.tbsResetShoal = 1) && s.leads then
    ((s.issueReset).modImg fun i => { i with buffering := true }).ringOnly 0 0x0322 []
  else s

/-- Passing the reset on leaves power, flash and the VBAT island. -/
theorem State.resetPassed_stays (s : State) :
    s.resetPassed.pwr = s.pwr ∧ s.resetPassed.flash = s.flash ∧ s.resetPassed.keeper.island = s.keeper.island := by
  have hview : ∀ q : Parts, q.apart { tbs := true } = true → q.apart { img := true } = true → s.resetPassed.view q = s.view q := by
    intro q htbs himg
    unfold State.resetPassed
    split
    · exact (State.ringOnly_view ..).trans ((State.modImg_view himg ..).trans (State.issueReset_view htbs s))
    · rfl
  exact ⟨State.pwr_of_view (hview _ (by decide) (by decide)), State.flash_of_view (hview _ (by decide) (by decide)),
    State.island_of_view (hview _ (by decide) (by decide))⟩

theorem rstNFall_done : Claims.PowerAndReset.rstNFall_done := by
  intro s hhigh hon
  obtain ⟨hpwr, hflash, hisland⟩ := s.resetPassed_stays
  have he : exec .rstNFall s = .next { s.resetPassed.warmReset with rstLow := true } := by
    rw [exec_rstNFall, execRstNFall, hhigh]
    refine congrArg (fun u : State => Host.Outcome.next { u with rstLow := true }) (if_neg ?_)
    exact fun h => hon (hpwr ▸ h)
  obtain ⟨hvals, hboot, himage, hrun, hkept, hisle⟩ := s.resetPassed.warmReset_package
  exact ⟨_, he, rfl, hvals, hboot, himage, hrun, hkept.trans hflash, hisle.trans hisland⟩

theorem rstNRise_done : Claims.PowerAndReset.rstNRise_done := by
  intro s b hlow hon
  refine ⟨({ s with rstLow := false, bays := s.bays.map fun y => { y with aux := .reset } } : State).beginStart, ?_, rfl, rfl, rfl, rfl, ?_, rfl⟩
  · rw [exec_rstNRise, execRstNRise, hlow, if_neg hon]
    rfl
  · simp [State.bay, State.beginStart, State.modImg]

/-! ### The global reset (R165) -/

theorem tbsGlobalReset_done : Claims.PowerAndReset.tbsGlobalReset_done := by
  intro s v halive hsafe
  refine ⟨_, ?_, rfl⟩
  rw [exec_tbsGlobalReset, execTbsGlobalReset, halive, decide_eq_false hsafe]
  by_cases hv : v = 0xA5
  · rw [if_pos hv, decide_eq_false (not_not_intro hv)]
    rfl
  · rw [if_neg hv, decide_eq_true hv]
    rfl

theorem globalResetArrive_done : Claims.PowerAndReset.globalResetArrive_done := by
  intro s hon hhigh hfirst hissued hsafe
  generalize hu : (s.modImg fun i => { i with buffering := true }).ringOnly 0 0x0322 [] = u
  have hview : ∀ q : Parts, q.apart { img := true } = true → u.view q = s.view q := fun q hq => by
    rw [← hu]
    exact (State.ringOnly_view ..).trans (State.modImg_view hq ..)
  have he : exec (.globalResetArrive false) s = .next { u.warmReset with
      tbs := { u.warmReset.tbs with globalReset := true }
      bays := u.warmReset.bays.map fun y => { y with aux := { y.aux with loaded := false, held := none, told := true } } } := by
    rw [exec_globalResetArrive, execGlobalResetArrive, decide_eq_false hon, hhigh, hfirst, hissued, decide_eq_false hsafe, ← hu]
    rfl
  obtain ⟨hvals, _, himage, _, hflash, hisland⟩ := u.warmReset_package
  refine ⟨_, he, rfl, ?_, hvals, hflash.trans (State.flash_of_view (hview _ (by decide))),
    hisland.trans (State.island_of_view (hview _ (by decide))), himage⟩
  simp [State.running]

theorem globalResetRelease_done : Claims.PowerAndReset.globalResetRelease_done := by
  intro s hreset
  refine ⟨((s.modTbsPkg fun y => { y with globalReset := false }) : State).beginStart, ?_, rfl, rfl, rfl, rfl, rfl⟩
  rw [exec_globalResetRelease, execGlobalResetRelease, hreset]
  rfl

end Sys2Proof.Machine

namespace Sys2Proof
open Sys2Proof.Machine

/-- Settles O13: loss of power and both resets are one stop of every bay, which leaves the flash and the VBAT island. -/
theorem powerAndReset : Obligations.PowerAndReset :=
  ⟨pwrGoodRise_done, powerFail_done, rstNFall_done, rstNRise_done, tbsGlobalReset_done, globalResetArrive_done, globalResetRelease_done⟩

end Sys2Proof
end

section
/-! Start-up, phases 1 to 5: what the end of a phase leaves, and the clauses on power, the boot PLLs, the die-to-die links, discovery and
the SHOAL section (R88 to R91, R96). -/
namespace Sys2Proof.Machine

theorem exec_lagoonFloodDone (s : State) : exec .lagoonFloodDone s = execLagoonFloodDone s := (rfl)
theorem exec_bootRomDone (seen : Vector (Vector (Option CandSeen) 4) 8) (locked : BitVec 8) (s : State) :
    exec (.bootRomDone seen locked) s = execBootRomDone seen locked s := (rfl)
theorem exec_d2dTrainDone (failed : Vector (BitVec 3) 8) (s : State) : exec (.d2dTrainDone failed) s = execD2dTrainDone failed s := (rfl)
theorem exec_discoverDone (s : State) : exec .discoverDone s = execDiscoverDone s := (rfl)
theorem exec_discoverTimeout (b : BayNo) (s : State) : exec (.discoverTimeout b) s = execDiscoverTimeout b s := (rfl)
theorem exec_shoalSectionReadDone (s : State) : exec .shoalSectionReadDone s = execShoalSectionReadDone s := (rfl)

/-! ### A phase and its end -/

theorem State.inPhase_iff {s : State} {n : Nat} :
    s.inPhase n = true ↔ s.alive 0 = true ∧ s.img.boot.active = true ∧ s.img.boot.phase = n := by
  simp [State.inPhase, and_assoc]

theorem State.endPhase_boot (s : State) (n : Nat) : (s.endPhase n).img.boot = { s.img.boot with phase := n } := by
  rw [State.endPhase, State.event_img_boot]
  rfl

theorem State.endPhase_vals (s : State) (n : Nat) : (s.endPhase n).vals = s.vals := by
  rw [State.endPhase, State.event_vals, State.modImg_vals]

/-- A bay of two states that agree in a view. -/
theorem State.bayView {s t : State} {q : Parts} (h : t.view q = s.view q) (c : BayNo) : (t.bay c).view q = (s.bay c).view q := by
  rw [← State.view_bay, h, State.view_bay]

/-- The image block of two states that agree in it. -/
theorem State.img_of_view {s t : State} (h : t.view { img := true } = s.view { img := true }) :
    t.img.boot = s.img.boot ∧ t.img.state = s.img.state ∧ t.img.image = s.img.image :=
  have hstill := State.imgStill_of_view h
  ⟨congrArg (·.boot) hstill, congrArg (·.state) hstill, congrArg (·.image) hstill⟩

/-! ### Phases 1 and 2 -/

theorem lagoonFloodDone_done : Claims.StartUpPhases.lagoonFloodDone_done := by
  intro s b hphase halive
  obtain ⟨u, _, hu⟩ := State.eachBay_turn (fun x => (x.bay b).pwr)
    (fun s b => s.modDom b fun p => { p with supervisor := true, datapath := true, ports := true, sealKeeper := decide (b = 0) }) b
    (fun u c h => congrArg Bay.pwr (State.bay_modBay_ne u _ h.symm)) s.liveBays s.liveBays_nodup ((s.mem_liveBays b).mpr halive) s
  have hpwr := hu.trans (congrArg Bay.pwr (u.bay_modBay b _))
  refine ⟨_, by rw [exec_lagoonFloodDone, execLagoonFloodDone, hphase]; rfl, ?_, ?_⟩
  · rw [State.endPhase_boot]
  · rw [State.endPhase, State.event_bay_pwr, State.modImg_bay, hpwr]
    exact ⟨rfl, rfl, rfl, rfl⟩

/-- What losing a bay makes of it. -/
def Bay.gone (y : Bay) : Bay := { y with lost := true, clk := { y.clk with cpllLock := false, spllLock := false, gated := true } }

/-- Of every bay's loss and clocks, losing one changes its own. -/
theorem State.loseBay_lost_view (s : State) (b : BayNo) (cause : Nat) :
    (s.loseBay b cause).view { lost := true, clk := true } = ((s.auxLost b).modBay b Bay.gone).view { lost := true, clk := true } := by
  unfold State.loseBay
  refine (State.faultDrop_view (by decide) ..).trans ((State.callUpdate_view (by decide) ..).trans ((State.modTbsPkg_view (by decide) ..).trans
    ((State.leaveIsland_view (by decide) ..).trans ((State.event_view ..).trans ((State.alert_view (by decide) ..).trans ?_)))))
  refine (foldl_view _ _ (fun s p => ?_) _ _).trans rfl
  split
  · exact (State.modPortL_view (by decide) ..).trans (State.modPortL_view (by decide) ..)
  · rfl

/-- A bay's loss and its clocks. -/
def State.lossOf (c : BayNo) (s : State) : Bool × ClkBay := ((s.bay c).lost, (s.bay c).clk)

theorem State.lossOf_lost (s : State) (c : BayNo) : (s.lossOf c).1 = (s.bay c).lost := (rfl)

theorem State.lossOf_clk (s : State) (c : BayNo) : (s.lossOf c).2 = (s.bay c).clk := (rfl)

theorem State.lossOf_of_view {s t : State} (h : t.view { lost := true, clk := true } = s.view { lost := true, clk := true }) (c : BayNo) :
    t.lossOf c = s.lossOf c := by
  have hbay := State.bayView h c
  exact Prod.ext (congrArg (fun y : Bay => y.lost) hbay :) (congrArg (fun y : Bay => y.clk) hbay :)

theorem State.loseBay_lossOf_ne (s : State) {b c : BayNo} (h : b ≠ c) (cause : Nat) : (s.loseBay b cause).lossOf c = s.lossOf c :=
  calc
    (s.loseBay b cause).lossOf c = ((s.auxLost b).modBay b Bay.gone).lossOf c := State.lossOf_of_view (s.loseBay_lost_view b cause) c
    _ = (s.auxLost b).lossOf c := by simp only [State.lossOf, State.bay_modBay_ne _ _ h.symm]
    _ = s.lossOf c := State.lossOf_of_view (State.auxLost_view (by decide) s b) c

theorem State.loseBay_lost (s : State) (b : BayNo) (cause : Nat) : ((s.loseBay b cause).bay b).lost = true := by
  have h := congrArg Prod.fst (State.lossOf_of_view (s.loseBay_lost_view b cause) b)
  rw [State.lossOf_lost, State.lossOf_lost, State.bay_modBay] at h
  exact h.trans rfl

/-- A bay's turn as the boot ROM ends: its CPLL locked to the first candidate within 100 ppm, or it is lost (R89). -/
def State.bootBay (s : State) (seen : Vector (Vector (Option CandSeen) 4) 8) (locked : BitVec 8) (b : BayNo) : State :=
  if locked.getLsbD b.val then (s.modClk b fun c =>
    { c with cpllLock := true, cpllRef := bootRef seen[b], present := seen[b].map (·.isSome) }).hkcStart b
  else s.loseBay b 1

theorem State.hkcStart_lossOf (s : State) (b c : BayNo) : (s.hkcStart b).lossOf c = s.lossOf c :=
  State.lossOf_of_view (State.hkcStart_view (by decide) s b) c

theorem State.bootBay_lossOf_ne (s : State) (seen : Vector (Vector (Option CandSeen) 4) 8) (locked : BitVec 8) {b c : BayNo} (h : b ≠ c) :
    (s.bootBay seen locked b).lossOf c = s.lossOf c := by
  rw [State.bootBay]
  split
  · rw [State.hkcStart_lossOf, State.lossOf, State.modClk_bay_lost, State.modClk_bay_clk_ne _ _ _ h.symm, State.lossOf]
  · exact s.loseBay_lossOf_ne h 1

theorem State.bootBay_locked (s : State) (seen : Vector (Vector (Option CandSeen) 4) 8) {locked : BitVec 8} {b : BayNo}
    (h : locked.getLsbD b.val = true) :
    (s.bootBay seen locked b).lossOf b =
      ((s.bay b).lost, { (s.bay b).clk with cpllLock := true, cpllRef := bootRef seen[b], present := seen[b].map (·.isSome) }) := by
  rw [State.bootBay, if_pos h, State.hkcStart_lossOf, State.lossOf, State.modClk_bay_lost, State.modClk_bay_clk_self]

theorem State.bootBay_failed (s : State) (seen : Vector (Vector (Option CandSeen) 4) 8) {locked : BitVec 8} {b : BayNo}
    (h : locked.getLsbD b.val = false) : ((s.bootBay seen locked b).lossOf b).1 = true := by
  rw [State.bootBay, h, if_neg Bool.false_ne_true, State.lossOf_lost, State.loseBay_lost]

theorem bootRomDone_done : Claims.StartUpPhases.bootRomDone_done := by
  intro s seen l b hphase halive
  have hhere : (s.bay b).lost = false := by
    simp only [State.alive, Bool.and_eq_true, Bool.not_eq_true'] at halive
    exact halive.2
  obtain ⟨u, hu, ht⟩ := State.eachBay_turn (State.lossOf b) (fun s c => s.bootBay seen l c) b
    (fun u c h => u.bootBay_lossOf_ne seen l h) s.liveBays s.liveBays_nodup ((s.mem_liveBays b).mpr halive) s
  generalize hbooted : (s.eachBay s.liveBays fun s c => s.bootBay seen l c) = v at ht
  have he : exec (.bootRomDone seen l) s = .next ((v.eachBay v.liveBays State.powerQuads).endPhase 2) := by
    rw [exec_bootRomDone, execBootRomDone, hphase, ← hbooted]
    rfl
  have hloss : ((v.eachBay v.liveBays State.powerQuads).endPhase 2).lossOf b = (u.bootBay seen l b).lossOf b :=
    (State.lossOf_of_view ((State.endPhase_view (by decide) ..).trans
      (State.eachBay_view _ _ (fun _ _ => State.powerQuads_view (by decide) ..) _ _)) b).trans ht
  have hlost := congrArg Prod.fst hloss
  rw [State.lossOf_lost] at hlost
  refine ⟨_, he, by rw [State.endPhase_boot], hlost.trans ?_, fun hl => ?_⟩
  · cases hl : l.getLsbD b.val
    · exact u.bootBay_failed seen hl
    · rw [State.bootBay_locked u seen hl]
      exact (congrArg Prod.fst hu).trans hhere
  · have hclk := congrArg Prod.snd (hloss.trans (u.bootBay_locked seen hl))
    rw [State.lossOf_clk] at hclk
    exact ⟨congrArg ClkBay.cpllLock hclk, congrArg ClkBay.present hclk, congrArg ClkBay.cpllRef hclk⟩

/-! ### Phases 3 and 4 -/

theorem discoverDone_done : Claims.StartUpPhases.discoverDone_done := by
  intro s hphase
  refine ⟨s.endPhase 4, ?_, by rw [State.endPhase_boot], s.endPhase_vals 4⟩
  rw [exec_discoverDone, execDiscoverDone, if_pos hphase]

theorem discoverTimeout_done : Claims.StartUpPhases.discoverTimeout_done := by
  intro s b hphase hb halive
  refine ⟨s.loseBay b 0, ?_, s.loseBay_lost b 0, ?_⟩
  · rw [exec_discoverTimeout, execDiscoverTimeout, hphase, decide_eq_false hb, halive]
    rfl
  · rw [(State.img_of_view (State.loseBay_view (by decide) s b 0)).1]
    exact (State.inPhase_iff.mp hphase).2.2

theorem shoalSectionReadDone_done : Claims.StartUpPhases.shoalSectionReadDone_done := by
  intro s hphase hfirst
  rw [exec_shoalSectionReadDone, execShoalSectionReadDone, hphase, hfirst]
  cases s.shoalVals (s.img.boot.order.headD false) with
  | none => exact ⟨_, rfl, rfl⟩
  | some m =>
    refine ⟨_, rfl, ?_⟩
    refine (vals_of_view ((State.beginLink_view (by decide) ..).trans ((State.beginLink_view (by decide) ..).trans
      ((State.setBound_view (by decide) _).trans (State.eachBay_view _ _ (fun _ _ => State.powerQuads_view (by decide) ..) _ _))))).trans ?_
    rfl

/-- What only one element's turn changes is, after a fold over a list that holds it once, as its turn leaves it. -/
theorem foldl_turn {α β : Type} [DecidableEq α] (g : State → β) (f : State → α → State) (a : α) (hother : ∀ u c, c ≠ a → g (f u c) = g u) :
    ∀ (l : List α) (_ : l.Nodup) (_ : a ∈ l) (s : State), ∃ u, g u = g s ∧ g (l.foldl f s) = g (f u a) := by
  have hskip : ∀ (l : List α) (_ : a ∉ l) (s : State), g (l.foldl f s) = g s := by
    intro l
    induction l with
    | nil => intro _ s; rfl
    | cons c r ih =>
      intro ha s
      obtain ⟨hc, hr⟩ := not_or.mp (mt List.mem_cons.mpr ha)
      exact (ih hr (f s c)).trans (hother s c (Ne.symm hc))
  intro l
  induction l with
  | nil => intro _ ha; cases ha
  | cons c r ih =>
    intro hnd ha s
    obtain ⟨hc, hr⟩ := List.nodup_cons.mp hnd
    by_cases h : a = c
    · subst h
      exact ⟨s, rfl, hskip r hc (f s a)⟩
    · obtain ⟨u, hu, ht⟩ := ih hr ((List.mem_cons.mp ha).resolve_left h) (f s c)
      exact ⟨u, hu.trans (hother s c (Ne.symm h)), ht⟩

/-- The state of the link of dimension `d` at bay `b`, and what its training asks. -/
def State.trainOf (b : BayNo) (d : Fin 3) (s : State) : Bool × Bool × Part := ((s.bay b).lnl.ports[d].up, s.alive (peerBay b d.val), s.part)

theorem State.trainOf_up (s : State) (b : BayNo) (d : Fin 3) : (s.trainOf b d).1 = (s.bay b).lnl.ports[d].up := (rfl)

/-- One link's turn as the die-to-die links train. -/
def State.trainLink (s : State) (failed : Vector (BitVec 3) 8) (b : BayNo) (p : Fin 3) : State :=
  if p.val < s.part.log2 then
    let ok := trained failed b p.val && s.alive (peerBay b p.val)
    s.modPortL b p fun x => { x with up := ok, modules := if ok then 0xF else 0 }
  else s

theorem State.modPortL_trainOf_ne (s : State) (b c : BayNo) (p d : Fin 3) (f : LinkPort → LinkPort) (h : c ≠ b ∨ p ≠ d) :
    (s.modPortL c p f).trainOf b d = s.trainOf b d := by
  have hup : ((s.modPortL c p f).bay b).lnl.ports[d] = (s.bay b).lnl.ports[d] := by
    by_cases hc : b = c
    · subst hc
      have hp : p.val ≠ d.val := fun e => (h.resolve_left (not_not_intro rfl)) (Fin.ext e)
      rw [State.modPortL, State.modLnl_bay_lnl_self]
      simp [Vector.getElem_set_ne, hp]
    · rw [State.modPortL, State.modLnl_bay_lnl_ne _ _ _ hc]
  rw [State.trainOf, hup, State.modPortL_alive, State.modPortL_part, State.trainOf]

theorem State.trainLink_trainOf_ne (s : State) (failed : Vector (BitVec 3) 8) (b c : BayNo) (p d : Fin 3) (h : c ≠ b ∨ p ≠ d) :
    (s.trainLink failed c p).trainOf b d = s.trainOf b d := by
  rw [State.trainLink]
  split
  · exact s.modPortL_trainOf_ne b c p d _ h
  · rfl

theorem State.trainLink_up (s : State) (failed : Vector (BitVec 3) 8) (b : BayNo) {d : Fin 3} (h : d.val < s.part.log2) :
    ((s.trainLink failed b d).bay b).lnl.ports[d].up = (trained failed b d.val && s.alive (peerBay b d.val)) := by
  rw [State.trainLink, if_pos h, State.modPortL, State.modLnl_bay_lnl_self]
  simp

/-- All the links of a bay train. -/
theorem State.trainLinks_turn (s : State) (failed : Vector (BitVec 3) 8) (b : BayNo) {d : Fin 3} (h : d.val < s.part.log2) :
    (((List.finRange 3).foldl (fun s p => s.trainLink failed b p) s).bay b).lnl.ports[d].up =
      (trained failed b d.val && s.alive (peerBay b d.val)) := by
  obtain ⟨u, hu, ht⟩ := foldl_turn (State.trainOf b d) (fun s p => s.trainLink failed b p) d
    (fun u p hp => u.trainLink_trainOf_ne failed b b p d (.inr hp)) (List.finRange 3) (List.nodup_finRange 3) (List.mem_finRange d) s
  obtain ⟨-, halive, hpart⟩ : _ ∧ u.alive (peerBay b d.val) = s.alive (peerBay b d.val) ∧ u.part = s.part :=
    ⟨congrArg (·.1) hu, congrArg (·.2.1) hu, congrArg (·.2.2) hu⟩
  rw [← halive, ← u.trainLink_up failed b (hpart ▸ h)]
  exact congrArg (·.1) ht

/-- States that agree in the view of the die-to-die links have the same links up. -/
theorem State.portUp_of_view {s t : State} (h : t.view { links := true } = s.view { links := true }) (b : BayNo) (d : Fin 3) :
    (t.bay b).lnl.ports[d].up = (s.bay b).lnl.ports[d].up := by
  have hbay := congrArg (fun y : Bay => y.lnl.ports[d].up) (State.bayView h b)
  simpa [Bay.view, LnlBay.plain, LnlBay.still, LnlBay.unmarked] using hbay

/-- New routes leave the links as they are. -/
theorem State.reroutes_up (s : State) (bs : List BayNo) (b : BayNo) (d : Fin 3) :
    ((s.eachBay bs State.reroute).bay b).lnl.ports[d].up = (s.bay b).lnl.ports[d].up :=
  State.eachBay_keep (fun x => (x.bay b).lnl.ports[d].up) State.reroute (fun x c =>
    State.bay_modBay_same (fun y : Bay => y.lnl.ports[d].up) x c b _ fun _ => rfl) bs s

theorem d2dTrainDone_done : Claims.StartUpPhases.d2dTrainDone_done := by
  intro s failed b d hphase halive hd
  obtain ⟨u, hu, ht⟩ := State.eachBay_turn (State.trainOf b d) (fun s c => (List.finRange 3).foldl (fun s p => s.trainLink failed c p) s) b
    (fun u c h => foldl_keep (State.trainOf b d) _ (fun u p => u.trainLink_trainOf_ne failed b c p d (.inl h)) _ u)
    s.liveBays s.liveBays_nodup ((s.mem_liveBays b).mpr halive) s
  generalize hv : (s.eachBay s.liveBays fun s c => (List.finRange 3).foldl (fun s p => s.trainLink failed c p) s) = v at ht
  have he : exec (.d2dTrainDone failed) s =
      .next (((((v.eachBay v.liveBays State.reroute).setBound).beginLink 0).beginLink 1).endPhase 3) := by
    rw [exec_d2dTrainDone, execD2dTrainDone, hphase, ← hv]
    rfl
  have hup : (v.bay b).lnl.ports[d].up = (trained failed b d.val && s.alive (peerBay b d.val)) := by
    have hpeer : u.alive (peerBay b d.val) = s.alive (peerBay b d.val) := congrArg (·.2.1) hu
    have hpart : u.part = s.part := congrArg (·.2.2) hu
    have hturn := congrArg Prod.fst ht
    rw [State.trainOf_up, State.trainOf_up, u.trainLinks_turn failed b (hpart ▸ hd), hpeer] at hturn
    exact hturn
  refine ⟨_, he, by rw [State.endPhase_boot], ?_⟩
  generalize hw : v.eachBay v.liveBays State.reroute = w
  have hrouted : (w.bay b).lnl.ports[d].up = (v.bay b).lnl.ports[d].up := hw ▸ v.reroutes_up v.liveBays b d
  have hview : ((((w.setBound).beginLink 0).beginLink 1).endPhase 3).view { links := true } = w.view { links := true } :=
    (State.endPhase_view (by decide) ..).trans ((State.beginLink_view (by decide) ..).trans
      ((State.beginLink_view (by decide) ..).trans (State.setBound_view (by decide) w)))
  exact (State.portUp_of_view hview b d).trans (hrouted.trans hup)

end Sys2Proof.Machine
end

section
/-! Start-up, phases 5 and 6: the slots, SAFE and the acceptance of an image (R52 to R55, R62, R88, R94). -/
namespace Sys2Proof.Machine

theorem exec_imageReadDone (e q : Bool) (s : State) : exec (.imageReadDone e q) s = execImageReadDone e q s := (rfl)
theorem exec_checkerDone (pins : BitVec 4) (s : State) : exec (.checkerDone pins) s = execCheckerDone pins s := (rfl)

/-! ### SAFE -/

/-- The package in SAFE before anything of its bays stops: every setting at its default and no image (R55). -/
def State.safeImage (s : State) : State :=
  (s.modVals fun _ => []).modImg fun i =>
    { i with state := .safe, image := none, boot := { s.img.boot with active := false, candidate := none } }

/-- A bay in SAFE: its front end, converters, scanner and cores are off. -/
def State.safeBay (s : State) (b : BayNo) : State :=
  let s1 := (List.finRange 6).foldl (fun s q => if s.quadUse b q.val = 0 && (s.bay b).pwr.quads[q] then s.quadOff b q else s) s
  let s4 := s1.modDom b fun p =>
    { p with frontEnd := Vector.replicate 2 false, scanOut := false, cores := Vector.replicate 8 false, hkc := p.hkc && decide (b = 0) }
  ((s4.modBay b fun y => { y with afe := .reset, adc := Vector.replicate 2 .reset }).modClk b fun k => { k with spllLock := false }).auxZero b

theorem State.safeBay_view {q : Parts} (hq : q.apart { clk := true, domains := true, afe := true, adc := true, lne := true, aux := true } = true)
    (s : State) (b : BayNo) : (s.safeBay b).view q = s.view q := by
  refine view_of { clk := true, domains := true, afe := true, adc := true, lne := true, aux := true } hq ?_
  unfold State.safeBay
  extract_lets s1 s4
  have h1 : s1.view (Parts.others { clk := true, domains := true, afe := true, adc := true, lne := true, aux := true }) =
      s.view (Parts.others { clk := true, domains := true, afe := true, adc := true, lne := true, aux := true }) := by
    refine foldl_view _ _ (fun v q => ?_) _ _
    split
    · exact State.quadOff_view (by decide) ..
    · rfl
  clear_value s1
  have h4 : s4.view (Parts.others { clk := true, domains := true, afe := true, adc := true, lne := true, aux := true }) =
      s.view (Parts.others { clk := true, domains := true, afe := true, adc := true, lne := true, aux := true }) :=
    (State.modDom_view (by decide) ..).trans h1
  clear_value s4
  refine (State.auxZero_view (by decide) ..).trans ((State.modClk_view (by decide) ..).trans ((State.modBay_view _ _ _ _ ?_).trans h4))
  exact fun _ => rfl

/-- What stops in SAFE is none of the image's or of the settings'. -/
theorem State.enterSafe_keeps (s : State) :
    s.enterSafe.view { img := true, vals := true } = s.safeImage.view { img := true, vals := true } := by
  have hshape : s.enterSafe =
      (let s2 := (List.finRange 2).foldl (fun s n => s.modExt n fun x => { x with stage := .off, port := { x.port with up := false } }) s.safeImage
      ((s2.eachBay s2.liveBays State.safeBay).alert 3).event 0 0x0114
        [wd (s.img.boot.failedCheck false), wd (s.img.boot.failedCheck true)]) := (rfl)
  rw [hshape]
  extract_lets s2
  have h2 : s2.view { img := true, vals := true } = s.safeImage.view { img := true, vals := true } :=
    foldl_view _ _ (fun v n => State.modExt_view (by decide) ..) _ _
  clear_value s2
  exact (State.event_view ..).trans ((State.alert_view (by decide) ..).trans
    ((State.eachBay_view _ _ (fun u b => State.safeBay_view (by decide) u b) _ _).trans h2))

/-- The image block and the settings of two states that agree in them. -/
theorem State.imgVals_of_view {s t : State} (h : t.view { img := true, vals := true } = s.view { img := true, vals := true }) :
    t.img.still = s.img.still ∧ t.vals = s.vals :=
  ⟨(congrArg (fun u : State => u.img) h :), (congrArg (fun u : State => u.vals) h :)⟩

/-- What the image block's still part holds. -/
theorem Img.of_still {i j : Img} (h : i.still = j.still) :
    i.state = j.state ∧ i.image = j.image ∧ i.refusal = j.refusal ∧ i.boot = j.boot :=
  ⟨(congrArg (·.state) h :), (congrArg (·.image) h :), (congrArg (·.refusal) h :), (congrArg (·.boot) h :)⟩

/-- The end of a phase changes of the image block the phase alone. -/
theorem State.endPhase_img (s : State) (n : Nat) :
    (s.endPhase n).img.state = s.img.state ∧ (s.endPhase n).img.image = s.img.image ∧ (s.endPhase n).img.quadRead = s.img.quadRead :=
  ⟨(State.event_img_state ..).trans rfl, (State.event_img_image ..).trans rfl, (State.event_img_quadRead ..).trans rfl⟩

theorem State.enterSafe_img (s : State) :
    s.enterSafe.img.state = .safe ∧ s.enterSafe.img.image = none ∧ s.enterSafe.vals = [] ∧ s.enterSafe.img.refusal = s.img.refusal ∧
      s.enterSafe.img.boot = { s.img.boot with active := false, candidate := none } := by
  obtain ⟨himg, hvals⟩ := State.imgVals_of_view s.enterSafe_keeps
  generalize s.enterSafe = u at himg hvals
  obtain ⟨hstate, himage, hrefusal, hboot⟩ := Img.of_still himg
  exact ⟨hstate, himage, hvals, hrefusal, hboot⟩

/-! ### A slot that fails (R53, R62) -/

/-- A failed slot, and the slots that are left. -/
def State.slotTold (s : State) (slot : Bool) (check : Nat) (refusal : Option (List Word)) : State :=
  let s2 := (s.modBoot fun t => { t with candidate := none, order := t.order.drop 1, tried := t.tried ++ [(slot, check)] }).event
    0 0x0111 [wd (bitW slot), wd check]
  match refusal with
  | none => s2
  | some ws => (s2.modImg fun i => { i with refusal := ws }).event 0 0x0112 ws

theorem State.slotFails_eq (s : State) (slot : Bool) (check : Nat) (refusal : Option (List Word)) :
    s.slotFails slot check refusal =
      if (s.slotTold slot check refusal).img.boot.order.isEmpty then (s.slotTold slot check refusal).enterSafe
      else s.slotTold slot check refusal := (rfl)

theorem State.slotTold_img (s : State) (slot : Bool) (check : Nat) (refusal : Option (List Word)) :
    (s.slotTold slot check refusal).img.boot =
        { s.img.boot with candidate := none, order := s.img.boot.order.drop 1, tried := s.img.boot.tried ++ [(slot, check)] } ∧
      (s.slotTold slot check refusal).img.quadRead = s.img.quadRead ∧
      (s.slotTold slot check refusal).img.refusal = refusal.getD s.img.refusal := by
  cases refusal with
  | none => simp [State.slotTold, State.modBoot]
  | some ws => simp [State.slotTold, State.modBoot]

/-- Whether a slot is left or none is, the check that failed is kept. -/
theorem State.slotFails_img (s : State) (slot : Bool) (check : Nat) (refusal : Option (List Word)) :
    (s.slotFails slot check refusal).img.boot.candidate = none ∧
      (s.slotFails slot check refusal).img.boot.tried = s.img.boot.tried ++ [(slot, check)] ∧
      (s.slotFails slot check refusal).img.refusal = refusal.getD s.img.refusal := by
  obtain ⟨hboot, _, hrefusal⟩ := s.slotTold_img slot check refusal
  rw [State.slotFails_eq]
  split
  · obtain ⟨_, _, _, hkept, hsafe⟩ := (s.slotTold slot check refusal).enterSafe_img
    rw [hsafe, hkept, hboot, hrefusal]
    exact ⟨rfl, rfl, rfl⟩
  · rw [hboot, hrefusal]
    exact ⟨rfl, rfl, rfl⟩

/-! ### IMAGE_READ_DONE -/

/-- The checks of a slot look at the flash, the fuses, the part and T_b (R52). -/
theorem State.checkSlot_congr {s t : State} (hflash : t.flash = s.flash) (hfuses : t.keeper.fuses = s.keeper.fuses) (hpart : t.part = s.part)
    (htb : t.tbs = s.tbs) (slot e : Bool) : t.checkSlot slot e = s.checkSlot slot e := by
  simp only [State.checkSlot, readSlot, hflash, hfuses, hpart, htb]

/-- The package as a slot is checked: the log has been compared, and the mode of the read is known. -/
def State.slotRead (s : State) (q : Bool) : State :=
  (if s.img.boot.started then s else (s.sealStart).modBoot fun t => { t with started := true }).modImg fun i =>
    { i with quadRead := q || !s.flash.octal }

theorem exec_imageReadDone_next {s : State} {slot : Bool} {rest : List Bool} (hphase : s.inPhase 4 = true ∨ s.inPhase 5 = true)
    (hnone : s.img.boot.candidate = none) (horder : s.img.boot.order = slot :: rest) (e q : Bool) :
    exec (.imageReadDone e q) s = .next (match (s.slotRead q).checkSlot slot e with
      | .error c => (s.slotRead q).slotFails slot c none
      | .ok im => ((s.slotRead q).modBoot fun t => { t with candidate := some im }).endPhase 5) := by
  have hin : (s.inPhase 4 || s.inPhase 5) = true := Bool.or_eq_true_iff.mpr hphase
  rw [exec_imageReadDone, execImageReadDone, hin, hnone, horder]
  show (match (s.slotRead q).checkSlot slot e with
    | .error c => Host.Outcome.next ((s.slotRead q).slotFails slot c none)
    | .ok im => Host.Outcome.next (((s.slotRead q).modBoot fun t => { t with candidate := some im }).endPhase 5)) = _
  cases (s.slotRead q).checkSlot slot e <;> rfl

theorem State.slotRead_img (s : State) (q : Bool) :
    (s.slotRead q).img.quadRead = (q || !s.flash.octal) ∧ ∃ started, (s.slotRead q).img.boot = { s.img.boot with started := started } := by
  refine ⟨rfl, ?_⟩
  rw [State.slotRead, State.modImg_img]
  split
  · exact ⟨s.img.boot.started, rfl⟩
  · have hboot := (State.img_of_view (State.sealStart_view (by decide) s)).1
    exact ⟨true, congrArg (fun t : Boot => { t with started := true }) hboot⟩

/-- Comparing the log changes nothing that the checks look at. -/
theorem State.slotRead_checkSlot (s : State) (q slot e : Bool) :
    (s.slotRead q).checkSlot slot e = (if s.img.boot.started then s else s.sealStart).checkSlot slot e := by
  refine State.checkSlot_congr ?_ ?_ ?_ ?_ slot e <;> rw [State.slotRead] <;> split <;> rfl

theorem imageReadDone_done : Claims.StartUpPhases.imageReadDone_done := by
  intro s e q slot other hphase hnone horder
  obtain ⟨hquad, started, hboot⟩ := s.slotRead_img q
  refine ⟨_, exec_imageReadDone_next hphase hnone horder e q, ?_⟩
  rw [← s.slotRead_checkSlot q slot e]
  cases (s.slotRead q).checkSlot slot e with
  | ok im =>
    refine ⟨?_, ?_, ?_⟩
    · exact (State.endPhase_img _ 5).2.2.trans hquad
    · rw [State.endPhase_boot]
      rfl
    · rw [State.endPhase_boot]
  | error c =>
    obtain ⟨htold, hread, _⟩ := (s.slotRead q).slotTold_img slot c none
    have hleft : ((s.slotRead q).slotTold slot c none).img.boot.order = [other] := by
      rw [htold, hboot]
      exact congrArg (List.drop 1) horder
    have hstay : (s.slotRead q).slotFails slot c none = (s.slotRead q).slotTold slot c none := by
      rw [State.slotFails_eq, hleft]
      rfl
    show ((s.slotRead q).slotFails slot c none).img.quadRead = _ ∧ _
    rw [hstay]
    refine ⟨hread.trans hquad, ?_⟩
    show ((s.slotRead q).slotFails slot c none).img.boot.candidate = none ∧ ((s.slotRead q).slotFails slot c none).img.boot.phase = _ ∧
      ((s.slotRead q).slotFails slot c none).img.boot.order = _ ∧ ((s.slotRead q).slotFails slot c none).img.boot.tried = _
    rw [hstay, hleft, htold, hboot]
    exact ⟨rfl, rfl, rfl, rfl⟩

theorem imageReadDone_safe : Claims.StartUpPhases.imageReadDone_safe := by
  intro s e q slot c hphase hnone horder hfails
  obtain ⟨_, started, hboot⟩ := s.slotRead_img q
  obtain ⟨htold, _, _⟩ := (s.slotRead q).slotTold_img slot c none
  have hempty : ((s.slotRead q).slotTold slot c none).img.boot.order = [] := by
    rw [htold, hboot]
    exact congrArg (List.drop 1) horder
  have he : exec (.imageReadDone e q) s = .next ((s.slotRead q).slotTold slot c none).enterSafe := by
    rw [exec_imageReadDone_next hphase hnone horder, s.slotRead_checkSlot, hfails]
    refine congrArg Host.Outcome.next ?_
    show (s.slotRead q).slotFails slot c none = _
    rw [State.slotFails_eq, hempty]
    rfl
  obtain ⟨hstate, himage, hvals, _, hsafe⟩ := ((s.slotRead q).slotTold slot c none).enterSafe_img
  exact ⟨_, he, hstate, hvals, himage, by rw [hsafe]⟩

/-! ### CHECKER_DONE -/

/-- An accepted image's settings and identity. -/
def State.imageTaken (s : State) (im : Image) (pins : BitVec 4) : State :=
  let c := im.startProfile s.part.bays pins
  let q := if c.2 then c.1 else 0
  (s.modVals fun _ => im.effective s.part.bays q).modImg fun i =>
    { i with
      image := some im, profile := q, pins := pins, pinsTaken := pins, absentTold := none, ignored := im.ignored
      boot := { i.boot with candidate := none } }

theorem State.accept_keeps (s : State) (im : Image) (pins : BitVec 4) :
    (s.accept im pins).view { img := true, vals := true } = (s.imageTaken im pins).view { img := true, vals := true } := by
  have hshape : s.accept im pins = (let s4 := (((s.imageTaken im pins).acceptSeal im).relink s |>.retrainControl s).setBound
    let s5 := s4.event 0 0x0110 ([wd (bitW im.slot), im.id] ++ bytesWords 4 im.hash)
    if (im.startProfile s.part.bays pins).2 then s5 else s5.event 0 0x0121 [wd (im.startProfile s.part.bays pins).1]) := (rfl)
  rw [hshape]
  extract_lets s4 s5
  have h4 : s4.view { img := true, vals := true } = (s.imageTaken im pins).view { img := true, vals := true } :=
    (State.setBound_view (by decide) _).trans ((State.retrainControl_view (by decide) ..).trans ((State.relink_view (by decide) ..).trans
      (State.acceptSeal_view (by decide) ..)))
  clear_value s4
  have h5 : s5.view { img := true, vals := true } = (s.imageTaken im pins).view { img := true, vals := true } :=
    (State.event_view ..).trans h4
  clear_value s5
  split
  · exact h5
  · exact (State.event_view ..).trans h5

/-- An accepted image is in force with the settings of its first profile. -/
theorem State.accept_img (s : State) (im : Image) (pins : BitVec 4) :
    (s.accept im pins).img.boot.candidate = none ∧ (s.accept im pins).img.image = some im ∧
      (s.accept im pins).vals =
        im.effective s.part.bays (if (im.startProfile s.part.bays pins).2 then (im.startProfile s.part.bays pins).1 else 0) := by
  obtain ⟨himg, hvals⟩ := State.imgVals_of_view (s.accept_keeps im pins)
  generalize s.accept im pins = u at himg hvals
  obtain ⟨_, himage, _, hboot⟩ := Img.of_still himg
  exact ⟨congrArg (·.candidate) hboot, himage, hvals⟩

/-- The package with the warning of check 19 told. -/
def State.warned (s : State) (im : Image) : State :=
  match im.warning s.part.bays s.tbs.tb with
  | some ws => s.event 0 0x0113 ws
  | none => s

theorem State.warned_part (s : State) (im : Image) : (s.warned im).part = s.part := by
  rw [State.warned]
  split
  · exact State.event_part ..
  · rfl

theorem exec_checkerDone_refused {s : State} {im : Image} {c : Nat} {ws : List Word} (hphase : s.inPhase 5 = true)
    (hcand : s.img.boot.candidate = some im) (hrefused : im.refusal s.part.bays s.tbs.tb = some (c, ws)) (pins : BitVec 4) :
    exec (.checkerDone pins) s = .next (s.slotFails im.slot c (some ws)) := by
  simp only [exec_checkerDone, execCheckerDone, hcand, hphase, hrefused, Bool.not_true, Bool.false_eq_true, if_false]

theorem exec_checkerDone_accepted {s : State} {im : Image} (hphase : s.inPhase 5 = true) (hcand : s.img.boot.candidate = some im)
    (hgood : im.refusal s.part.bays s.tbs.tb = none) (pins : BitVec 4) :
    exec (.checkerDone pins) s = .next (((s.warned im).accept im pins).endPhase 6) := by
  simp only [exec_checkerDone, execCheckerDone, hcand, hphase, hgood, Bool.not_true, Bool.false_eq_true, if_false]
  rfl

theorem checkerDone_done : Claims.StartUpPhases.checkerDone_done := by
  intro s pins im hphase hcand
  rcases hr : im.refusal s.part.bays s.tbs.tb with _ | ⟨c, ws⟩
  · obtain ⟨hnone, himage, hvals⟩ := (s.warned im).accept_img im pins
    refine ⟨_, exec_checkerDone_accepted hphase hcand hr pins, ?_⟩
    rw [State.warned_part] at hvals
    generalize (s.warned im).accept im pins = u at hnone himage hvals ⊢
    refine ⟨?_, (u.endPhase_img 6).2.1.trans himage, ?_, (u.endPhase_vals 6).trans hvals⟩
    · rw [State.endPhase_boot]
      exact hnone
    · rw [State.endPhase_boot]
  · obtain ⟨hnone, htried, hrefusal⟩ := s.slotFails_img im.slot c (some ws)
    exact ⟨_, exec_checkerDone_refused hphase hcand hr pins, hnone, hrefusal, htried⟩

end Sys2Proof.Machine
end

section
/-! Start-up, phase 7: every bay holds the image (R88, R175, R426). -/
namespace Sys2Proof.Machine

theorem exec_imageBroadcastDone (s : State) : exec .imageBroadcastDone s = execImageBroadcastDone s := (rfl)

/-- States that agree in what makes a bay live have the same live bays. -/
theorem State.alive_of_view {s t : State}
    (h : t.view { part := true, pwr := true, pins := true, tbs := true, lost := true } =
      s.view { part := true, pwr := true, pins := true, tbs := true, lost := true }) (b : BayNo) : t.alive b = s.alive b := by
  have hpart : t.part = s.part := (congrArg (fun u : State => u.part) h :)
  have hpwr : t.pwr = s.pwr := (congrArg (fun u : State => u.pwr) h :)
  have hrst : t.rstLow = s.rstLow := (congrArg (fun u : State => u.rstLow) h :)
  have htbs : t.tbs = s.tbs := (congrArg (fun u : State => u.tbs) h :)
  have hlost : (t.bay b).lost = (s.bay b).lost := (congrArg (fun y : Bay => y.lost) (State.bayView h b) :)
  simp only [State.alive, State.running, State.present, hpart, hpwr, hrst, htbs, hlost]

/-! ### The attenuations -/

/-- A change of one bay's attenuation is of its front ends alone. -/
theorem State.setAtten_bay_afe (s : State) (b : BayNo) (i : Fin 2) (step trim cause : Nat) (auto : Bool) (t : Stamp) (c : BayNo) :
    ((s.setAtten b i step trim cause auto t).bay c).afe =
      ((s.modAfe b i fun a => { a with step := step, trim := trim, settled := false, changedAt := t, quietFrom := t }).bay c).afe := by
  rw [State.setAtten_eq, State.event_bay_afe, State.noteConf_bay_afe, State.changeRun_bay_afe, State.attenuated, State.newStretch_bay_afe]

theorem State.setAtten_afeIn_ne (s : State) {b c : BayNo} {i j : Fin 2} (h : (b, i) ≠ (c, j)) (step trim cause : Nat) (auto : Bool) (t : Stamp) :
    (s.setAtten b i step trim cause auto t).afeIn c j = s.afeIn c j := by
  rw [State.afeIn, State.setAtten_bay_afe, State.afeIn, State.modAfe]
  by_cases hb : b = c
  · subst hb
    have hij : i.val ≠ j.val := fun e => h (by rw [Fin.ext e])
    rw [State.bay_modBay]
    simp [hij]
  · rw [State.bay_modBay_ne _ _ (Ne.symm hb)]

theorem State.loadAtten_vals (s : State) (b : BayNo) (i : Fin 2) : (s.loadAtten b i).vals = s.vals :=
  State.vals_of_view (State.loadAtten_view (by decide) s b i)

/-- The settings in force, and an input's attenuation. -/
def State.attenOf (b : BayNo) (i : Fin 2) (s : State) : Vals × Nat × Nat := (s.vals, (s.afeIn b i).step, (s.afeIn b i).trim)

theorem State.loadAtten_attenOf_ne (s : State) {b c : BayNo} {i j : Fin 2} (h : (b, i) ≠ (c, j)) :
    (s.loadAtten b i).attenOf c j = s.attenOf c j := by
  rw [State.attenOf, State.loadAtten_vals, State.loadAtten, State.setAtten_afeIn_ne s h, State.attenOf]

theorem State.loadAtten_attenOf (s : State) (b : BayNo) (i : Fin 2) :
    (s.loadAtten b i).attenOf b i = (s.vals, s.fldN Fld.afeAtten b i.val, s.fldN Fld.afeTrim b i.val) := by
  rw [State.attenOf, State.loadAtten_vals, State.loadAtten, State.setAtten_afeIn]

/-- The turn of a bay gives both of its inputs the image's attenuations. -/
theorem State.loadAttens_attenOf (s : State) (b : BayNo) (i : Fin 2) :
    ((s.loadAtten b 0).loadAtten b 1).attenOf b i = (s.vals, s.fldN Fld.afeAtten b i.val, s.fldN Fld.afeTrim b i.val) := by
  match i with
  | 0 => rw [State.loadAtten_attenOf_ne _ (by simp), State.loadAtten_attenOf]
  | 1 =>
    rw [State.loadAtten_attenOf, State.loadAtten_vals, State.fldN_congr (s.loadAtten_vals b 0), State.fldN_congr (s.loadAtten_vals b 0)]

/-! ### The DMA channels -/

/-- The state of a DMA channel. -/
def State.dmaState (b : BayNo) (n : Fin 32) (s : State) : DmaState := (s.bay b).dma.chans[n].state

theorem State.dmaState_of_view {s t : State} (h : t.view { dma := true } = s.view { dma := true }) (b : BayNo) (n : Fin 32) :
    t.dmaState b n = s.dmaState b n :=
  (congrArg (fun y : Bay => y.dma.chans[n].state) (State.bayView h b) :)

theorem State.modDma_dmaState_ne (s : State) {b c : BayNo} {m n : Fin 32} (h : (b, m) ≠ (c, n)) (f : DmaChan → DmaChan) :
    (s.modDma b m f).dmaState c n = s.dmaState c n := by
  rw [State.dmaState, State.dmaState, State.modDma]
  by_cases hb : b = c
  · subst hb
    have hmn : m.val ≠ n.val := fun e => h (by rw [Fin.ext e])
    rw [State.bay_modBay]
    simp [hmn]
  · rw [State.bay_modBay_ne _ _ (Ne.symm hb)]

theorem State.modDma_dmaState (s : State) (b : BayNo) (n : Fin 32) (f : DmaChan → DmaChan) :
    (s.modDma b n f).dmaState b n = (f (s.bay b).dma.chans[n]).state := by
  rw [State.dmaState, State.modDma, State.bay_modBay]
  simp

theorem State.loadDma_dmaState_ne (s : State) {b c : BayNo} (h : b ≠ c) (n : Fin 32) : (s.loadDma b).dmaState c n = s.dmaState c n :=
  foldl_keep (State.dmaState c n) _ (fun u _ => u.modDma_dmaState_ne (fun e => h (congrArg Prod.fst e)) _) _ s

theorem State.loadDma_dmaState (s : State) (b : BayNo) (n : Fin 32) : (s.loadDma b).dmaState b n = .idle := by
  obtain ⟨u, _, hu⟩ := foldl_turn (State.dmaState b n) (fun s n => s.modDma b n fun c =>
    { DmaChan.reset with
      src := c.src, dst := c.dst, ringLog2 := c.ringLog2, ringEnable := c.ringEnable, ringBase := c.ringBase
      ringSize := c.ringSize, tail := c.tail, head := c.head, wb := c.wb }) n
    (fun u _ h => u.modDma_dmaState_ne (fun e => h (congrArg Prod.snd e)) _) (List.finRange 32) (List.nodup_finRange 32) (List.mem_finRange n) s
  exact hu.trans (u.modDma_dmaState b n _)

/-! ### The cores -/

/-- What a core's initial memory comes from, and its memory. -/
def State.coreMem (b : BayNo) (c : CoreNo) (s : State) : Vals × Option Image × Sparse Byte := (s.vals, s.img.image, (s.core b c).mem)

/-- The parts of two equal descriptions of a core's memory. -/
theorem State.coreMem_parts {s t : State} {b : BayNo} {c : CoreNo} (h : t.coreMem b c = s.coreMem b c) :
    t.vals = s.vals ∧ t.img.image = s.img.image ∧ (t.core b c).mem = (s.core b c).mem :=
  ⟨(congrArg Prod.fst h :), (congrArg (fun x => x.2.1) h :), (congrArg (fun x => x.2.2) h :)⟩

theorem State.coreItem_congr {s t : State} (himage : t.img.image = s.img.image) (code : Nat) (b : BayNo) (c : CoreNo) :
    t.coreItem code b c = s.coreItem code b c := by
  unfold State.coreItem
  rw [himage]

theorem State.coreData_congr {s t : State} (hvals : t.vals = s.vals) (himage : t.img.image = s.img.image) (b : BayNo) (c : CoreNo) :
    t.coreData b c = s.coreData b c := by
  have hsealed : t.sealedCore b c = s.sealedCore b c := by simp only [State.sealedCore, State.fldN_congr hvals]
  have hwords : ∀ f n, t.arrayWords f b c.val n = s.arrayWords f b c.val n := fun f n => by simp only [State.arrayWords, State.fld, hvals]
  rw [State.coreData, State.coreData, hsealed, hwords, State.coreItem_congr himage]

theorem State.core_mem_of_view {s t : State} (h : t.view { mco := true } = s.view { mco := true }) (b : BayNo) (c : CoreNo) :
    (t.core b c).mem = (s.core b c).mem := by
  have hmco : (t.bay b).mco.unmarked = (s.bay b).mco.unmarked := (congrArg (fun y : Bay => y.mco) (State.bayView h b) :)
  have hcore : { t.core b c with iqTold := false } = { s.core b c with iqTold := false } := by
    simpa [McoBay.unmarked, State.core] using congrArg (fun y : McoBay => y.cores[c]) hmco
  exact (congrArg (·.mem) hcore :)

theorem State.coreMem_of_view {s t : State} (hset : t.view { vals := true, img := true } = s.view { vals := true, img := true })
    (hmco : t.view { mco := true } = s.view { mco := true }) (b : BayNo) (c : CoreNo) : t.coreMem b c = s.coreMem b c := by
  obtain ⟨himg, hvals⟩ := State.imgVals_of_view hset
  obtain ⟨_, himage, _, _⟩ := Img.of_still himg
  rw [State.coreMem, hvals, himage, State.core_mem_of_view hmco, State.coreMem]

theorem State.modCore_coreMem_ne (s : State) {a b : BayNo} {d c : CoreNo} (h : (a, d) ≠ (b, c)) (f : Core → Core) :
    (s.modCore a d f).coreMem b c = s.coreMem b c := by
  have hcore : (s.modCore a d f).core b c = s.core b c := by
    rw [State.core, State.core, State.modCore]
    by_cases hb : a = b
    · subst hb
      have hdc : d.val ≠ c.val := fun e => h (by rw [Fin.ext e])
      rw [State.bay_modBay]
      simp [hdc]
    · rw [State.bay_modBay_ne _ _ (Ne.symm hb)]
  rw [State.coreMem, hcore]
  rfl

theorem State.modCore_core (s : State) (b : BayNo) (c : CoreNo) (f : Core → Core) : (s.modCore b c f).core b c = f (s.core b c) := by
  rw [State.core, State.modCore, State.bay_modBay]
  simp [State.core]

/-- The turn of a core: it is loaded if the image enables it (R426). -/
def State.loadCore (b : BayNo) (s : State) (c : CoreNo) : State :=
  if s.fldB Fld.mcoCEn b c.val then s.modCore b c fun _ => { Core.reset with imem := s.coreCode b c, mem := s.coreData b c } else s

theorem State.loadCore_coreMem_ne (s : State) {a b : BayNo} {d c : CoreNo} (h : (a, d) ≠ (b, c)) :
    (s.loadCore a d).coreMem b c = s.coreMem b c := by
  rw [State.loadCore]
  split
  · exact s.modCore_coreMem_ne h _
  · rfl

theorem State.loadCores_coreMem_ne (s : State) {a b : BayNo} (h : a ≠ b) (c : CoreNo) : (s.loadCores a).coreMem b c = s.coreMem b c :=
  foldl_keep (State.coreMem b c) (State.loadCore a) (fun u _ => u.loadCore_coreMem_ne fun e => h (congrArg Prod.fst e)) _ s

theorem State.loadCores_coreMem {s : State} {b : BayNo} {c : CoreNo} (h : s.fldB Fld.mcoCEn b c.val = true) :
    (s.loadCores b).coreMem b c = (s.vals, s.img.image, s.coreData b c) := by
  obtain ⟨u, hu, hturn⟩ := foldl_turn (State.coreMem b c) (State.loadCore b) c
    (fun u d hne => u.loadCore_coreMem_ne fun e => hne (congrArg Prod.snd e)) (List.finRange 8) (List.nodup_finRange 8) (List.mem_finRange c) s
  obtain ⟨hvals, himage, _⟩ := State.coreMem_parts hu
  refine hturn.trans ?_
  rw [State.loadCore, State.fldB_congr hvals, if_pos h, State.coreMem, State.modCore_core, State.coreData_congr hvals himage,
    State.modCore_vals, State.modCore_img, hvals, himage]

/-! ### IMAGE_BROADCAST_DONE -/

/-- The turn of a bay before its DMA channels and scanner: domains, quads, tables and masks under the image. -/
def State.broadcastBay (s : State) (b : BayNo) : State := (((s.powerDomains b).settleQuads b).loadTables b).loadMasks b

theorem State.broadcastBay_view {q : Parts} (hq : q.apart { domains := true, units := true, lne := true, scn := true } = true)
    (s : State) (b : BayNo) : (s.broadcastBay b).view q = s.view q := by
  refine view_of { domains := true, units := true, lne := true, scn := true } hq ?_
  exact (State.loadMasks_view (by decide) ..).trans ((State.loadTables_view (by decide) ..).trans
    ((State.settleQuads_view (by decide) ..).trans (State.powerDomains_view (by decide) ..)))

/-- The whole turn of a bay: cores, DMA channels and housekeeping as well. -/
def State.broadcastTurn (s : State) (b : BayNo) : State :=
  ((((s.broadcastBay b).loadCores b).loadDma b).scanChanged b 0).scanChanged b 1

theorem State.scans_view {q : Parts} (hq : q.apart { hkc := true } = true) (s : State) (b : BayNo) :
    ((s.scanChanged b 0).scanChanged b 1).view q = s.view q :=
  (State.scanChanged_view hq _ b 1).trans (State.scanChanged_view hq s b 0)

theorem State.broadcastTurn_view {q : Parts}
    (hq : q.apart { domains := true, units := true, lne := true, scn := true, mco := true, dma := true, hkc := true } = true)
    (s : State) (b : BayNo) : (s.broadcastTurn b).view q = s.view q := by
  refine view_of { domains := true, units := true, lne := true, scn := true, mco := true, dma := true, hkc := true } hq ?_
  exact (State.scans_view (by decide) ..).trans ((State.loadDma_view (by decide) ..).trans ((State.loadCores_view (by decide) ..).trans
    (State.broadcastBay_view (by decide) ..)))

theorem State.broadcastTurn_dmaState_ne (s : State) {b c : BayNo} (h : c ≠ b) (n : Fin 32) :
    (s.broadcastTurn c).dmaState b n = s.dmaState b n := by
  refine (State.dmaState_of_view (State.scans_view (by decide) _ c) b n).trans ((State.loadDma_dmaState_ne _ h n).trans ?_)
  exact State.dmaState_of_view ((State.loadCores_view (by decide) ..).trans (State.broadcastBay_view (by decide) s c)) b n

theorem State.broadcastTurn_dmaState (s : State) (b : BayNo) (n : Fin 32) : (s.broadcastTurn b).dmaState b n = .idle :=
  (State.dmaState_of_view (State.scans_view (by decide) _ b) b n).trans (State.loadDma_dmaState _ b n)

theorem State.broadcastTurn_coreMem (s : State) (a b : BayNo) (c : CoreNo) :
    (s.broadcastTurn a).coreMem b c = ((s.broadcastBay a).loadCores a).coreMem b c :=
  State.coreMem_of_view ((State.scans_view (by decide) _ a).trans (State.loadDma_view (by decide) _ a))
    ((State.scans_view (by decide) _ a).trans (State.loadDma_view (by decide) _ a)) b c

theorem State.broadcastBay_coreMem (s : State) (a b : BayNo) (c : CoreNo) : (s.broadcastBay a).coreMem b c = s.coreMem b c :=
  State.coreMem_of_view (State.broadcastBay_view (by decide) s a) (State.broadcastBay_view (by decide) s a) b c

theorem State.broadcastTurn_coreMem_ne (s : State) {a b : BayNo} (h : a ≠ b) (c : CoreNo) : (s.broadcastTurn a).coreMem b c = s.coreMem b c := by
  rw [State.broadcastTurn_coreMem, State.loadCores_coreMem_ne _ h, State.broadcastBay_coreMem]

theorem State.broadcastTurn_coreMem_self {s : State} {b : BayNo} {c : CoreNo} (h : s.fldB Fld.mcoCEn b c.val = true) :
    (s.broadcastTurn b).coreMem b c = (s.vals, s.img.image, s.coreData b c) := by
  obtain ⟨hvals, himage, _⟩ := State.coreMem_parts (s.broadcastBay_coreMem b b c)
  rw [State.broadcastTurn_coreMem, State.loadCores_coreMem ((State.fldB_congr hvals _ b _).trans h), hvals, himage, State.coreData_congr hvals himage]

/-- Every live bay after its turn. -/
def State.broadcastTurns (s : State) : State := s.eachBay s.liveBays State.broadcastTurn

theorem State.broadcastTurns_view {q : Parts}
    (hq : q.apart { domains := true, units := true, lne := true, scn := true, mco := true, dma := true, hkc := true } = true)
    (s : State) : s.broadcastTurns.view q = s.view q :=
  State.eachBay_view q _ (fun u c => State.broadcastTurn_view hq u c) s s.liveBays

theorem State.broadcastTurns_dmaState {s : State} {b : BayNo} (h : s.alive b = true) (n : Fin 32) : s.broadcastTurns.dmaState b n = .idle := by
  obtain ⟨u, _, hu⟩ := State.eachBay_turn (State.dmaState b n) State.broadcastTurn b (fun u c hne => u.broadcastTurn_dmaState_ne hne n)
    s.liveBays s.liveBays_nodup ((s.mem_liveBays b).mpr h) s
  exact hu.trans (u.broadcastTurn_dmaState b n)

theorem State.broadcastTurns_mem {s : State} {b : BayNo} {c : CoreNo} (h : s.alive b = true) (hen : s.fldB Fld.mcoCEn b c.val = true) :
    (s.broadcastTurns.core b c).mem = s.coreData b c := by
  obtain ⟨u, hu, hturn⟩ := State.eachBay_turn (State.coreMem b c) State.broadcastTurn b (fun u a hne => u.broadcastTurn_coreMem_ne hne c)
    s.liveBays s.liveBays_nodup ((s.mem_liveBays b).mpr h) s
  obtain ⟨hvals, himage, _⟩ := State.coreMem_parts hu
  have hmem := hturn.trans (State.broadcastTurn_coreMem_self ((State.fldB_congr hvals _ b _).trans hen))
  exact (congrArg (fun x => x.2.2) hmem :).trans (State.coreData_congr hvals himage b c)

/-- Every live bay with the image's attenuations. -/
def State.attensLoaded (s : State) : State := s.eachBay s.liveBays fun s b => (s.loadAtten b 0).loadAtten b 1

theorem State.attensLoaded_view {q : Parts} (hq : q.apart { afe := true, ddc := true, xfm := true } = true) (s : State) :
    s.attensLoaded.view q = s.view q :=
  State.eachBay_view q _ (fun u c => (State.loadAtten_view hq _ c 1).trans (State.loadAtten_view hq u c 0)) s s.liveBays

theorem State.attensLoaded_attenOf {s : State} {b : BayNo} (h : s.alive b = true) (i : Fin 2) :
    s.attensLoaded.attenOf b i = (s.vals, s.fldN Fld.afeAtten b i.val, s.fldN Fld.afeTrim b i.val) := by
  obtain ⟨u, hu, hturn⟩ := State.eachBay_turn (State.attenOf b i) (fun s b => (s.loadAtten b 0).loadAtten b 1) b
    (fun u c hne => by
      have hother : ∀ j, (c, j) ≠ (b, i) := fun j e => hne (congrArg Prod.fst e)
      rw [State.loadAtten_attenOf_ne _ (hother 1), State.loadAtten_attenOf_ne _ (hother 0)])
    s.liveBays s.liveBays_nodup ((s.mem_liveBays b).mpr h) s
  have hvals : u.vals = s.vals := (congrArg Prod.fst hu :)
  refine hturn.trans ?_
  rw [State.loadAttens_attenOf, State.fldN_congr hvals, State.fldN_congr hvals, hvals]

/-- The auxiliary DACs loaded, at the end of the phase. -/
def State.broadcastEnd (s : State) : State :=
  let s3 := s.modBoot fun t => { t with phase := 7 }
  (s3.eachBay s3.liveBays State.auxLoad).endPhase 7

theorem exec_imageBroadcastDone_next {s : State} (h : s.inPhase 6 = true) :
    exec .imageBroadcastDone s = .next s.broadcastTurns.attensLoaded.broadcastEnd := by
  rw [exec_imageBroadcastDone, execImageBroadcastDone, h]
  rfl

theorem State.broadcastEnd_view {q : Parts} (hq : q.apart { img := true, aux := true } = true) (s : State) : s.broadcastEnd.view q = s.view q := by
  refine view_of { img := true, aux := true } hq ?_
  unfold State.broadcastEnd
  exact (State.endPhase_view (by decide) ..).trans ((State.eachBay_view _ _ (fun u c => State.auxLoad_view (by decide) u c) _ _).trans
    (State.modImg_view (by decide) ..))

theorem imageBroadcastDone_done : Claims.StartUpPhases.imageBroadcastDone_done := by
  intro s b i n c hphase halive
  have h1 : ∀ {q : Parts}, q.apart { domains := true, units := true, lne := true, scn := true, mco := true, dma := true, hkc := true } = true →
      s.broadcastTurns.view q = s.view q := fun hq => s.broadcastTurns_view hq
  have hdma := State.broadcastTurns_dmaState halive n
  have hmem : s.fldB Fld.mcoCEn b c.val = true → (s.broadcastTurns.core b c).mem = s.coreData b c := State.broadcastTurns_mem halive
  refine ⟨_, exec_imageBroadcastDone_next hphase, ?_⟩
  generalize s.broadcastTurns = u at h1 hdma hmem ⊢
  have hvals1 : u.vals = s.vals := State.vals_of_view (h1 (by decide))
  have halive1 : u.alive b = true := (State.alive_of_view (h1 (by decide)) b).trans halive
  have h2 : ∀ {q : Parts}, q.apart { afe := true, ddc := true, xfm := true } = true → u.attensLoaded.view q = u.view q :=
    fun hq => u.attensLoaded_view hq
  have hatten := State.attensLoaded_attenOf halive1 i
  generalize u.attensLoaded = v at h2 hatten ⊢
  have hvals2 : v.vals = u.vals := State.vals_of_view (h2 (by decide))
  have h3 : ∀ {q : Parts}, q.apart { img := true, aux := true } = true → v.broadcastEnd.view q = v.view q := fun hq => v.broadcastEnd_view hq
  have hphase7 : v.broadcastEnd.img.boot.phase = 7 := by
    unfold State.broadcastEnd
    rw [State.endPhase_boot]
  generalize v.broadcastEnd = w at h3 hphase7 ⊢
  have hvals3 : w.vals = v.vals := State.vals_of_view (h3 (by decide))
  obtain ⟨m, hin⟩ := State.afeIn_of_view (h3 (by decide)) b i
  have hstep : (w.afeIn b i).step = s.fldN Fld.afeAtten b i.val := by
    rw [hin, ← State.fldN_congr hvals1]
    exact (congrArg (fun x => x.2.1) hatten :)
  have htrim : (w.afeIn b i).trim = s.fldN Fld.afeTrim b i.val := by
    rw [hin, ← State.fldN_congr hvals1]
    exact (congrArg (fun x => x.2.2) hatten :)
  have hidle : w.dmaState b n = .idle :=
    (State.dmaState_of_view (h3 (by decide)) b n).trans ((State.dmaState_of_view (h2 (by decide)) b n).trans hdma)
  have hcore : w.view { mco := true } = u.view { mco := true } := (h3 (by decide)).trans (h2 (by decide))
  refine ⟨hphase7, hvals3.trans (hvals2.trans hvals1), hstep, htrim, hidle, fun hen => ?_⟩
  exact (State.core_mem_of_view hcore b c).trans (hmem hen)

end Sys2Proof.Machine
end

section
/-! Start-up, phase 8: the time, the PLLs and the epoch grid (R90, R136, R154). -/
namespace Sys2Proof.Machine

theorem exec_spllLockPhase8 (seen : Vector (Option CandSeen) 4) (s : State) : exec (.spllLockPhase8 seen) s = execSpllLockPhase8 seen s := (rfl)

/-! ### Writing the log out leaves the RTC -/

theorem Seal.push_stamp (k : Seal) (kind : Nat) (rtc : Bool) (b : BayNo) (detail : Nat) (stamp : Stamp) (data : List Word) :
    (k.push kind rtc b detail stamp data).island.stamp = k.island.stamp := (rfl)

theorem Seal.takeLost_stamp (k : Seal) (stamp : Stamp) (rtc : Bool) : (k.takeLost stamp rtc).island.stamp = k.island.stamp := by
  rw [Seal.takeLost]
  split <;> rfl

theorem State.sealRecord_island (s : State) (e : LogEntry) : (s.sealRecord e).keeper.island = s.keeper.island := by
  simp only [State.sealRecord]
  split
  · rfl
  · exact State.enqueue_keeper_island ..

theorem State.flushOne_stamp (s : State) : s.flushOne.keeper.island.stamp = s.keeper.island.stamp := by
  unfold State.flushOne
  split
  · rfl
  · extract_lets k f1 f2 island k1 rtc k2 s1
    have hk2 : k2.island.stamp = s.keeper.island.stamp := Seal.takeLost_stamp k1 _ _
    clear_value k2
    have hs1 : s1.keeper.island.stamp = s.keeper.island.stamp := (congrArg Island.stamp (State.sealRecord_island ..)).trans hk2
    clear_value s1
    split
    · rw [State.event_keeper_island]
      exact hs1
    · exact hs1

theorem State.flushLog_stamp (s : State) : s.flushLog.keeper.island.stamp = s.keeper.island.stamp := by
  unfold State.flushLog
  refine foldl_keep (fun u : State => u.keeper.island.stamp) _ (fun u _ => ?_) _ s
  split
  · exact u.flushOne_stamp
  · rfl

/-! ### The tide counter of a bay -/

/-- A bay's counter, its rate, and where its time came from. -/
def State.setClock (b : BayNo) (s : State) : Tide × Tide × Bool × TimeSource :=
  ((s.bay b).tbs.tide, (s.bay b).tbs.addend, (s.bay b).tbs.set, (s.bay b).tbs.source)

theorem State.setClock_parts {s : State} {b : BayNo} {x : Tide × Tide × Bool × TimeSource} (h : s.setClock b = x) :
    (s.bay b).tbs.tide = x.1 ∧ (s.bay b).tbs.addend = x.2.1 ∧ (s.bay b).tbs.set = x.2.2.1 ∧ (s.bay b).tbs.source = x.2.2.2 := by
  subst h
  exact ⟨rfl, rfl, rfl, rfl⟩

theorem State.setClock_of_view {s t : State} (h : t.view { time := true } = s.view { time := true }) (b : BayNo) : t.setClock b = s.setClock b := by
  have htbs : (t.bay b).tbs = (s.bay b).tbs := (congrArg (fun y : Bay => y.tbs) (State.bayView h b) :)
  rw [State.setClock, htbs, State.setClock]

/-- A change that leaves the counter, its rate and its source. -/
theorem State.modTbs_setClock (s : State) (a b : BayNo) {f : TbsBay → TbsBay}
    (h : ∀ x, (f x).tide = x.tide ∧ (f x).addend = x.addend ∧ (f x).set = x.set ∧ (f x).source = x.source) :
    (s.modTbs a f).setClock b = s.setClock b := by
  by_cases hab : b = a
  · subst hab
    obtain ⟨htide, haddend, hset, hsource⟩ := h (s.bay b).tbs
    rw [State.setClock, State.modTbs_bay_tbs_self, htide, haddend, hset, hsource, State.setClock]
  · rw [State.setClock, State.modTbs_bay_tbs_ne _ _ _ hab, State.setClock]

/-- Every live bay's counter is set from the RTC (R136). -/
def State.rtcTurns (s : State) : State :=
  s.eachBay s.liveBays fun u b => u.modTbs b fun x =>
    { x with tide := s.keeper.island.stamp ++ (0 : BitVec 32), addend := nominalAddend, set := true, source := .rtc }

theorem State.setTime_setClock {s : State} {b : BayNo} (h : s.alive b = true) :
    s.setTime.setClock b = (s.keeper.island.stamp ++ (0 : BitVec 32), nominalAddend, true, .rtc) := by
  have hkept : s.setTime.setClock b = s.rtcTurns.setClock b :=
    State.setClock_of_view ((State.timeSetEntry_view (by decide) ..).trans (State.event_view ..)) b
  obtain ⟨u, _, hu⟩ := State.eachBay_turn (State.setClock b) (fun u b => u.modTbs b fun x =>
    { x with tide := s.keeper.island.stamp ++ (0 : BitVec 32), addend := nominalAddend, set := true, source := .rtc }) b
    (fun u c hne => by rw [State.setClock, State.modTbs_bay_tbs_ne _ _ _ hne.symm, State.setClock])
    s.liveBays s.liveBays_nodup ((s.mem_liveBays b).mpr h) s
  refine hkept.trans (hu.trans ?_)
  rw [State.setClock, State.modTbs_bay_tbs_self]

theorem Tide.stamp_append (t : Stamp) : Tide.stamp (t ++ (0 : BitVec 32)) = t := by
  refine BitVec.eq_of_getLsbD_eq fun i hi => ?_
  rw [Tide.stamp, BitVec.getLsbD_extractLsb', BitVec.getLsbD_append]
  simp [hi]

/-- The turn of a bay as its PLLs lock leaves its counter. -/
theorem State.lockPlls_setClock (s : State) (seen : Vector (Option CandSeen) 4) (b : BayNo) : (s.lockPlls seen).setClock b = s.setClock b := by
  unfold State.lockPlls
  extract_lets ref s1
  refine (State.eachBay_keep (State.setClock b) _ (fun u c => ?_) _ _).trans rfl
  refine (State.setClock_of_view (State.modClk_view (by decide) ..) b).trans ?_
  exact u.modTbs_setClock c b fun _ => ⟨rfl, rfl, rfl, rfl⟩

theorem State.anchorGrid_setClock (s : State) (b : BayNo) : s.anchorGrid.setClock b = s.setClock b := by
  unfold State.anchorGrid
  extract_lets tens k base g n start s1
  refine (State.eachBay_keep (State.setClock b) _ (fun u c => ?_) _ _).trans rfl
  exact u.modTbs_setClock c b fun _ => ⟨rfl, rfl, rfl, rfl⟩

/-! ### The grid and the selector -/

/-- The grid after it is anchored (R154). -/
theorem State.anchorGrid_grid (s : State) :
    s.anchorGrid.tbs.grid.running = true ∧ s.anchorGrid.tbs.grid.tens = max 1 s.gridTens ∧ s.anchorGrid.tbs.grid.len = s.gridLen ∧
      s.anchorGrid.tbs.grid.next =
        BitVec.ofNat 96 (durOf (ceilDiv (s.now.toNat * 100000000) (max 1 s.gridTens * unitsPerSec) * max 1 s.gridTens) 100000000) := by
  unfold State.anchorGrid
  extract_lets tens k base g n start s1
  have htbs : ∀ (l : List BayNo), (s1.eachBay l fun s b => s.modTbs b fun x => { x with epoch := n, epochStart := start, quiet := 0 }).tbs = s1.tbs :=
    fun l => by
      refine State.eachBay_keep (fun u : State => u.tbs) _ (fun u c => ?_) l s1
      rfl
  rw [htbs]
  refine ⟨rfl, rfl, rfl, ?_⟩
  show later 0 (durOf (k * tens) 100000000) = _
  exact BitVec.zero_add _

theorem State.gridTens_congr {s t : State} (hvals : t.vals = s.vals) (htbs : t.tbs = s.tbs) : t.gridTens = s.gridTens := by
  unfold State.gridTens State.followed State.packageNo State.pkgN State.fldN State.fld
  rw [hvals, htbs]

theorem State.lockPlls_active (s : State) (seen : Vector (Option CandSeen) 4) : (s.lockPlls seen).sel.active = s.phase8Ref seen := by
  unfold State.lockPlls
  extract_lets ref s1
  refine (State.eachBay_keep (fun u : State => u.sel.active) _ (fun u c => ?_) _ _).trans ?_
  · rfl
  · rfl

theorem State.pkgN_congr {s t : State} (hvals : t.vals = s.vals) (f : Field) (i : Nat) : t.pkgN f i = s.pkgN f i :=
  State.fldN_congr hvals f 0 i 0

theorem State.upstream_congr {s t : State} (hvals : t.vals = s.vals) (hlnl : t.lnl = s.lnl) : t.upstream = s.upstream := by
  unfold State.upstream State.wayWhole State.packageNo State.pkgN State.fldN State.fld
  rw [hvals, hlnl]

theorem State.candReaches_congr {s t : State} (hvals : t.vals = s.vals) (hlnl : t.lnl = s.lnl) {b : BayNo}
    (hroutes : (t.bay b).lnl.routes = (s.bay b).lnl.routes) (c : Cand) : t.candReaches b c = s.candReaches b c := by
  have hexists : t.candExists c = s.candExists c := by
    unfold State.candExists State.packageNo State.pkgN State.fldN State.fld
    rw [hvals]
  have hlinkBay : t.linkBay = s.linkBay := Fin.ext (congrArg (· % 8) (State.pkgN_congr hvals Fld.lnlLinkBay 0))
  rw [State.candReaches, State.candReaches, hexists, State.upstream_congr hvals hlnl, hlinkBay, State.reaches, State.reaches, hroutes]

theorem State.showsNominal_congr {s t : State} (hvals : t.vals = s.vals) (seen : Vector (Option CandSeen) 4) (c : Cand) :
    t.showsNominal seen c = s.showsNominal seen c := by
  have hfast : t.candFast c = s.candFast c := by
    unfold State.candFast
    rw [State.pkgN_congr hvals, State.pkgN_congr hvals]
  rw [State.showsNominal, State.showsNominal, hfast]

/-- What the reference of phase 8 looks at. -/
theorem State.phase8Ref_congr {s t : State} (hvals : t.vals = s.vals) (hlnl : t.lnl = s.lnl)
    (hroutes : (t.bay 0).lnl.routes = (s.bay 0).lnl.routes) (seen : Vector (Option CandSeen) 4) : t.phase8Ref seen = s.phase8Ref seen := by
  rw [State.phase8Ref, State.phase8Ref, State.pkgN_congr hvals]
  exact congrArg (fun p => (prioList (s.pkgN Fld.clkRefPrio)).find? p) (funext fun c => by
    rw [State.candReaches_congr hvals hlnl hroutes, State.showsNominal_congr hvals])

/-! ### SPLL_LOCK_PHASE8 -/

theorem State.alive_of_inPhase {s : State} {n : Nat} (h : s.inPhase n = true) : s.alive 0 = true := by
  exact (State.inPhase_iff.mp h).1

/-- The PLLs of phase 8 locked, and the links of the bays whose CPLL moves training afresh. -/
def State.phase8Plls (s : State) (seen : Vector (Option CandSeen) 4) : State := (s.lockPlls seen).moveCplls s

/-- What follows the grid in phase 8: the fuse, the rasters and the recorders. -/
def State.phase8End (s : State) : State :=
  (s.blowFuse.eachBay s.blowFuse.liveBays fun s b => (s.startRaster b (s.nowAt b)).recBegin b (s.nowAt b)).endPhase 8

theorem State.phase8End_view {q : Parts}
    (hq : q.apart { img := true, keeper := true, fuses := true, scn := true, recorder := true } = true) (s : State) :
    s.phase8End.view q = s.view q := by
  refine view_of { img := true, keeper := true, fuses := true, scn := true, recorder := true } hq ?_
  unfold State.phase8End
  exact (State.endPhase_view (by decide) ..).trans ((State.eachBay_view _ _ (fun u c =>
    (State.recBegin_view (by decide) ..).trans (State.startRaster_view (by decide) u c _)) _ _).trans (State.blowFuse_view (by decide) s))

/-- The package at the end of phase 8, its counter set from the RTC. -/
def State.phase8Set (s : State) (seen : Vector (Option CandSeen) 4) : State := (s.flushLog.setTime.phase8Plls seen).anchorGrid.phase8End

theorem exec_spllLockPhase8_rtc {s : State} (hphase : s.inPhase 7 = true) (hset : (s.bay 0).tbs.set = false)
    (seen : Vector (Option CandSeen) 4) :
    exec (.spllLockPhase8 seen) s = .next (s.phase8Set seen) := by
  have hset0 : (s.flushLog.bay 0).tbs.set = false := by
    have hclock := State.setClock_of_view (State.flushLog_view (by decide) s) 0
    exact (State.setClock_parts hclock).2.2.1.trans hset
  rw [exec_spllLockPhase8, execSpllLockPhase8, hphase]
  simp only [Bool.not_true, Bool.false_eq_true, if_false, hset0]
  rfl

/-- The end of phase 8 as the counter is set from the RTC: every live bay's counter, the grid and the selector. -/
theorem State.phase8_done {s : State} (hzero : s.alive 0 = true) (seen : Vector (Option CandSeen) 4) :
    (∀ b, s.alive b = true → (s.phase8Set seen).setClock b = (s.keeper.island.stamp ++ (0 : BitVec 32), nominalAddend, true, .rtc)) ∧
      (s.phase8Set seen).tbs.grid.running = true ∧ (s.phase8Set seen).tbs.grid.tens = max 1 s.gridTens ∧ (s.phase8Set seen).tbs.grid.len = s.gridLen ∧
      (s.phase8Set seen).tbs.grid.next = BitVec.ofNat 96
        (durOf (ceilDiv (s.keeper.island.stamp.toNat * 100000000) (max 1 s.gridTens * unitsPerSec) * max 1 s.gridTens) 100000000) ∧
      (s.phase8Set seen).sel.active = s.phase8Ref seen := by
  unfold State.phase8Set
  have h0 : ∀ {q : Parts}, q.apart { flash := true, keeper := true, ident := true } = true → s.flushLog.view q = s.view q :=
    fun hq => State.flushLog_view hq s
  have hstamp := s.flushLog_stamp
  generalize s.flushLog = u0 at h0 hstamp ⊢
  have halive : ∀ b, u0.alive b = s.alive b := State.alive_of_view (h0 (by decide))
  have h1 : ∀ {q : Parts}, q.apart { keeper := true, time := true } = true → u0.setTime.view q = u0.view q := fun hq => State.setTime_view hq u0
  have hclock1 : ∀ b, s.alive b = true → u0.setTime.setClock b = (s.keeper.island.stamp ++ (0 : BitVec 32), nominalAddend, true, .rtc) :=
    fun b hb => hstamp ▸ State.setTime_setClock ((halive b).trans hb)
  generalize u0.setTime = u1 at h1 hclock1 ⊢
  have href : u1.phase8Ref seen = s.phase8Ref seen := by
    have hview : u1.view { vals := true, fabric := true, links := true } = s.view { vals := true, fabric := true, links := true } :=
      (h1 (by decide)).trans (h0 (by decide))
    have hvals : u1.vals = s.vals := (congrArg (fun u : State => u.vals) hview :)
    have hlnl : u1.lnl = s.lnl := (congrArg (fun u : State => u.lnl) hview :)
    exact State.phase8Ref_congr hvals hlnl (congrArg (fun y : Bay => y.lnl.routes) (State.bayView hview 0) :) seen
  have hvals1 : u1.vals = s.vals := State.vals_of_view ((h1 (by decide)).trans (h0 (by decide)))
  have htbs1 : u1.tbs = s.tbs :=
    (congrArg (fun u : State => u.tbs) ((h1 (q := { tbs := true }) (by decide)).trans (h0 (q := { tbs := true }) (by decide))) :)
  have h2 : ∀ {q : Parts}, q.apart { fabric := true, lne := true, pci := true, links := true, sel := true, clk := true, time := true } = true →
      (u1.phase8Plls seen).view q = u1.view q := by
    intro q hq
    refine view_of { fabric := true, lne := true, pci := true, links := true, sel := true, clk := true, time := true } hq ?_
    exact (State.moveCplls_view (by decide) ..).trans (State.lockPlls_view (by decide) ..)
  have hclock2 : ∀ b, (u1.phase8Plls seen).setClock b = u1.setClock b := fun b =>
    (State.setClock_of_view (State.moveCplls_view (by decide) ..) b).trans (u1.lockPlls_setClock seen b)
  have hsel2 : (u1.phase8Plls seen).sel.active = s.phase8Ref seen :=
    ((congrArg (fun u : State => u.sel.active) (State.moveCplls_view (q := { sel := true }) (by decide) (u1.lockPlls seen) u1) :).trans
      (u1.lockPlls_active seen)).trans href
  generalize u1.phase8Plls seen = u2 at h2 hclock2 hsel2 ⊢
  have hvals2 : u2.vals = s.vals := (State.vals_of_view (h2 (by decide))).trans hvals1
  have htbs2 : u2.tbs = s.tbs := (congrArg (fun u : State => u.tbs) (h2 (q := { tbs := true }) (by decide)) :).trans htbs1
  have hgrid2 : u2.gridTens = s.gridTens := State.gridTens_congr hvals2 htbs2
  have hnow2 : u2.now = s.keeper.island.stamp := by
    have hclock := (hclock2 0).trans (hclock1 0 hzero)
    rw [State.now, State.nowAt, (State.setClock_parts hclock).1, Tide.stamp_append]
  obtain ⟨hrunning, htens, hlen, hnext⟩ := u2.anchorGrid_grid
  have hclock3 : ∀ b, u2.anchorGrid.setClock b = u2.setClock b := u2.anchorGrid_setClock
  have hsel3 : u2.anchorGrid.sel = u2.sel := (congrArg (fun u : State => u.sel) (State.anchorGrid_view (q := { sel := true }) (by decide) u2) :)
  generalize u2.anchorGrid = u3 at hrunning htens hlen hnext hclock3 hsel3 ⊢
  have h4 : u3.phase8End.view { tbs := true, time := true, sel := true } = u3.view { tbs := true, time := true, sel := true } :=
    u3.phase8End_view (by decide)
  have hclock4 : ∀ b, u3.phase8End.setClock b = u3.setClock b := fun b => State.setClock_of_view (u3.phase8End_view (by decide)) b
  generalize u3.phase8End = t at h4 hclock4 ⊢
  have htbs4 : t.tbs = u3.tbs := (congrArg (fun u : State => u.tbs) h4 :)
  have hsel4 : t.sel = u3.sel := (congrArg (fun u : State => u.sel) h4 :)
  rw [htbs4, hsel4, hsel3, hrunning, htens, hlen, hnext, hgrid2, hnow2]
  refine ⟨fun b hb => ?_, rfl, rfl, ?_, rfl, hsel2⟩
  · rw [hclock4, hclock3, hclock2, hclock1 b hb]
  · rw [State.gridLen, hgrid2, State.gridLen]

theorem spllLockPhase8_time : Claims.StartUpPhases.spllLockPhase8_time := by
  intro s seen b hphase hset halive
  have hzero := State.alive_of_inPhase hphase
  obtain ⟨hclock, hrunning, _⟩ := State.phase8_done hzero seen
  refine ⟨_, exec_spllLockPhase8_rtc hphase hset seen, ?_⟩
  have hphase8 : (s.phase8Set seen).img.boot.phase = 8 := by
    rw [State.phase8Set, State.phase8End, State.endPhase_boot]
  generalize s.phase8Set seen = t at hclock hrunning hphase8 ⊢
  obtain ⟨htide, haddend, hset, hsource⟩ := State.setClock_parts (hclock b halive)
  exact ⟨hphase8, by rw [State.nowAt, htide, Tide.stamp_append], hset, hsource, haddend, hrunning⟩

theorem spllLockPhase8_grid : Claims.StartUpPhases.spllLockPhase8_grid := by
  intro s seen hphase hset
  obtain ⟨_, _, htens, hlen, hnext, hsel⟩ := State.phase8_done (State.alive_of_inPhase hphase) seen
  exact ⟨_, exec_spllLockPhase8_rtc hphase hset seen, hnext, htens, hlen, hsel⟩

end Sys2Proof.Machine
end

section
/-! Start-up, phases 8 and 9 of one bay, and IMAGE_RESTART (R92, R99, R184, R189). -/
namespace Sys2Proof.Machine

theorem exec_spllPhase8Timeout (b : BayNo) (s : State) : exec (.spllPhase8Timeout b) s = execSpllPhase8Timeout b s := (rfl)
theorem exec_adcInitCalDone (res : List AdcInit) (s : State) : exec (.adcInitCalDone res) s = execAdcInitCalDone res s := (rfl)
theorem exec_imageRestart (tag : Word) (second : Bool) (s : State) : exec (.imageRestart tag second) s = execImageRestart tag second s := (rfl)

/-! ### SPLL_PHASE8_TIMEOUT -/

theorem spllPhase8Timeout_done : Claims.StartUpPhases.spllPhase8Timeout_done := by
  intro s b hphase halive hepisode
  refine ⟨_, by rw [exec_spllPhase8Timeout, execSpllPhase8Timeout, hphase, halive, hepisode]; rfl, ?_⟩
  generalize hu : ((s.modClk b fun k => { k with spllLock := false, spllLol := true, gated := true, unlockEpisode := true }).modTbs b fun x =>
    { x with tdcCoarse := true }) = u
  have hclk : (u.bay b).clk = { (s.bay b).clk with spllLock := false, spllLol := true, gated := true, unlockEpisode := true } := by
    rw [← hu, State.modTbs_bay_clk, State.modClk_bay_clk_self]
  have htbs : (u.bay b).tbs = { (s.bay b).tbs with tdcCoarse := true } := by
    rw [← hu, State.modTbs_bay_tbs_self, State.modClk_bay_tbs]
  have hview : (u.auxRefresh b).view { clk := true, time := true } = u.view { clk := true, time := true } := State.auxRefresh_view (by decide) u b
  generalize u.auxRefresh b = t at hview ⊢
  have hbay := State.bayView hview b
  have hclk' : (t.bay b).clk = (u.bay b).clk := (congrArg (fun y : Bay => y.clk) hbay :)
  have htbs' : (t.bay b).tbs = (u.bay b).tbs := (congrArg (fun y : Bay => y.tbs) hbay :)
  rw [hclk', htbs', hclk, htbs]
  exact ⟨rfl, rfl, rfl, rfl⟩

/-! ### ADC_INIT_CAL_DONE -/

/-- Whether an input's front end is powered, and its converter. -/
def State.converter (b : BayNo) (i : Fin 2) (s : State) : Bool × Adc := (s.frontOn b i, (s.bay b).adc[i])

theorem State.frontOn_of_view {s t : State} (hlive : t.view { part := true, pwr := true, pins := true, tbs := true, lost := true } =
      s.view { part := true, pwr := true, pins := true, tbs := true, lost := true })
    (hdom : t.view { domains := true } = s.view { domains := true }) (b : BayNo) (i : Fin 2) : t.frontOn b i = s.frontOn b i := by
  have hpwr : (t.bay b).pwr = (s.bay b).pwr := (congrArg (fun y : Bay => y.pwr) (State.bayView hdom b) :)
  rw [State.frontOn, State.frontOn, State.alive_of_view hlive, hpwr]

theorem State.converter_of_view {s t : State} (hlive : t.view { part := true, pwr := true, pins := true, tbs := true, lost := true } =
      s.view { part := true, pwr := true, pins := true, tbs := true, lost := true })
    (hblock : t.view { domains := true, adc := true } = s.view { domains := true, adc := true }) (b : BayNo) (i : Fin 2) :
    t.converter b i = s.converter b i := by
  have hpwr : (t.bay b).pwr = (s.bay b).pwr := (congrArg (fun y : Bay => y.pwr) (State.bayView hblock b) :)
  have hadc : (t.bay b).adc = (s.bay b).adc := (congrArg (fun y : Bay => y.adc) (State.bayView hblock b) :)
  rw [State.converter, State.converter, State.frontOn, State.frontOn, State.alive_of_view hlive, hpwr, hadc]

theorem State.modAdc_converter (s : State) (b : BayNo) (i : Fin 2) (f : Adc → Adc) :
    (s.modAdc b i f).converter b i = (s.frontOn b i, f (s.bay b).adc[i]) := by
  have hadc : ((s.modAdc b i f).bay b).adc[i] = f (s.bay b).adc[i] := by
    rw [State.modAdc, State.bay_modBay]
    simp
  rw [State.converter, hadc, State.frontOn_of_view (State.modAdc_view (by decide) ..) (State.modAdc_view (by decide) ..)]

theorem State.modAdc_converter_ne (s : State) {a b : BayNo} {j i : Fin 2} (h : (a, j) ≠ (b, i)) (f : Adc → Adc) :
    (s.modAdc a j f).converter b i = s.converter b i := by
  have hadc : ((s.modAdc a j f).bay b).adc[i] = (s.bay b).adc[i] := by
    rw [State.modAdc]
    by_cases hab : a = b
    · subst hab
      have hij : j.val ≠ i.val := fun e => h (by rw [Fin.ext e])
      rw [State.bay_modBay]
      simp [hij]
    · rw [State.bay_modBay_ne _ _ (Ne.symm hab)]
  rw [State.converter, hadc, State.frontOn_of_view (State.modAdc_view (by decide) ..) (State.modAdc_view (by decide) ..), State.converter]

/-- What the calibration finds is told and kept; it changes no converter any further. -/
theorem State.initAdc_converter_told (s : State) (a b : BayNo) (j i : Fin 2) (x : AdcInit) :
    (s.initAdc a j x).converter b i =
      (s.modAdc a j fun c => c.init x.bad (if x.agreed then coefVector x.coefs else factoryCoefs a j)).converter b i := by
  unfold State.initAdc
  generalize (if x.agreed then coefVector x.coefs else factoryCoefs a j) = coefs
  extract_lets s1 s2
  have h2 : ∀ q : Parts, s2.view q = s1.view q := fun q => foldl_view q _ (fun u k => State.event_view ..) _ s1
  have hkept : s2.converter b i = s1.converter b i := State.converter_of_view (h2 _) (h2 _) b i
  split
  · exact hkept
  · exact (State.converter_of_view (State.calDisagree_view (by decide) ..) (State.calDisagree_view (by decide) ..) b i).trans hkept

theorem State.initAdc_converter (s : State) (b : BayNo) (i : Fin 2) (x : AdcInit) :
    (s.initAdc b i x).converter b i =
      (s.frontOn b i, (s.bay b).adc[i].init x.bad (if x.agreed then coefVector x.coefs else factoryCoefs b i)) := by
  rw [State.initAdc_converter_told, State.modAdc_converter]

theorem State.initAdc_converter_ne (s : State) {a b : BayNo} {j i : Fin 2} (h : (a, j) ≠ (b, i)) (x : AdcInit) :
    (s.initAdc a j x).converter b i = s.converter b i := by
  rw [State.initAdc_converter_told, State.modAdc_converter_ne s h]

/-- What ADC_INIT_CAL_DONE says of a converter: the factory calibration where it does not name it. -/
def adcFound (res : List AdcInit) (b : BayNo) (i : Fin 2) : AdcInit :=
  (res.find? fun e => decide (e.bay = b ∧ e.input = i)).getD { bay := b, input := i, bad := 0, coefs := [], agreed := false }

/-- The turn of a converter. -/
def State.initTurn (res : List AdcInit) (b : BayNo) (s : State) (i : Fin 2) : State :=
  if s.frontOn b i then s.initAdc b i (adcFound res b i) else s

theorem State.initTurn_converter_ne (res : List AdcInit) (s : State) {a b : BayNo} {j i : Fin 2} (h : (a, j) ≠ (b, i)) :
    (s.initTurn res a j).converter b i = s.converter b i := by
  rw [State.initTurn]
  split
  · exact s.initAdc_converter_ne h _
  · rfl

/-- The whole of phase 9: every converter of every live bay. -/
def State.initTurns (res : List AdcInit) (s : State) : State :=
  s.eachBay s.liveBays fun s b => (List.finRange 2).foldl (State.initTurn res b) s

theorem exec_adcInitCalDone_next {s : State} (hphase : s.inPhase 8 = true) (res : List AdcInit) :
    exec (.adcInitCalDone res) s = .next ((s.initTurns res).endPhase 9) := by
  rw [exec_adcInitCalDone, execAdcInitCalDone, hphase]
  rfl

theorem State.initTurns_converter {s : State} {b : BayNo} {i : Fin 2} (hon : s.frontOn b i = true) (res : List AdcInit) :
    ∃ c : Adc, ((s.initTurns res).bay b).adc[i] =
      c.init (adcFound res b i).bad (if (adcFound res b i).agreed then coefVector (adcFound res b i).coefs else factoryCoefs b i) := by
  have halive : s.alive b = true := (Bool.and_eq_true_iff.mp hon).1
  obtain ⟨u, hu, hbay⟩ := State.eachBay_turn (State.converter b i) (fun s b => (List.finRange 2).foldl (State.initTurn res b) s) b
    (fun u c hne => foldl_keep (State.converter b i) _ (fun v j => v.initTurn_converter_ne res fun e => hne (congrArg Prod.fst e)) _ u)
    s.liveBays s.liveBays_nodup ((s.mem_liveBays b).mpr halive) s
  obtain ⟨v, hv, hturn⟩ := foldl_turn (State.converter b i) (State.initTurn res b) i
    (fun v j hne => v.initTurn_converter_ne res fun e => hne (congrArg Prod.snd e)) (List.finRange 2) (List.nodup_finRange 2) (List.mem_finRange i) u
  have hvon : v.frontOn b i = true := ((congrArg Prod.fst hv).trans (congrArg Prod.fst hu)).trans hon
  have hfound : (s.initTurns res).converter b i = (v.initAdc b i (adcFound res b i)).converter b i := by
    refine hbay.trans (hturn.trans ?_)
    rw [State.initTurn, if_pos hvon]
  rw [State.initAdc_converter] at hfound
  exact ⟨(v.bay b).adc[i], congrArg Prod.snd hfound⟩

theorem adcInitCalDone_done : Claims.StartUpPhases.adcInitCalDone_done := by
  intro s res x hphase hon hfind
  have hfound : adcFound res x.bay x.input = x := by rw [adcFound, hfind]; rfl
  obtain ⟨c, hadc⟩ := State.initTurns_converter hon res
  rw [hfound] at hadc
  refine ⟨_, exec_adcInitCalDone_next hphase res, by rw [State.endPhase_boot], ?_⟩
  generalize s.initTurns res = u at hadc ⊢
  have hkept : ((u.endPhase 9).bay x.bay).adc = (u.bay x.bay).adc := by
    rw [State.endPhase, State.event_bay_adc]
    rfl
  rw [hkept, hadc]
  exact ⟨rfl, rfl, rfl, rfl⟩

/-! ### IMAGE_RESTART -/

theorem State.haltAll_done (s : State) (second : Bool) :
    (s.haltAll second).img.state = .start ∧ (s.haltAll second).img.boot.active = true ∧ (s.haltAll second).img.boot.phase = 4 ∧
      (s.haltAll second).img.boot.order = (if second then [true, false] else [false, true]) ∧
      (s.haltAll second).tbs.grid.running = false ∧ (s.haltAll second).trg = TrgPkg.reset := by
  unfold State.haltAll
  extract_lets s1 s2 s3 s4
  refine ⟨rfl, rfl, rfl, rfl, ?_, rfl⟩
  show s4.tbs.grid.running = false
  have hview : s4.view { tbs := true } = (s3.modGrid fun g => { g with running := false }).view { tbs := true } :=
    State.faultDrop_view (by decide) _ _
  clear_value s4
  have htbs : s4.tbs = (s3.modGrid fun g => { g with running := false }).tbs := (congrArg (fun u : State => u.tbs) hview :)
  rw [htbs]
  rfl

theorem imageRestart_done : Claims.StartUpPhases.imageRestart_done := by
  intro s s1 tag second htaken hstate
  obtain ⟨hstart, hactive, hphase, horder, hgrid, htrg⟩ := (s1.complete 10 tag stOk 0 s1.now).haltAll_done second
  refine ⟨_, State.ringCommand_of_taken htaken _, ?_⟩
  simp only [hstate, decide_false, Bool.false_eq_true, if_false]
  generalize (s1.complete 10 tag stOk 0 s1.now).haltAll second = u at hstart hactive hphase horder hgrid htrg ⊢
  split
  · exact ⟨hstart, hactive, hphase, horder, hgrid, htrg⟩
  · exact ⟨hstart, hactive, hphase, horder, hgrid, htrg⟩

end Sys2Proof.Machine
end

section
/-! Start-up, phase 10: the streams begin, and the package enters RUN or READY (R92, R93, R98). -/
namespace Sys2Proof.Machine

theorem exec_feCalDone (runs : List FeRun) (s : State) : exec (.feCalDone runs) s = execFeCalDone runs s := (rfl)

/-- What decides where start-up ends, and whether it has: the package's place in its shoal, its state and its start-up. -/
structure Role where
  state : ImgState
  boot : Boot
  size : Nat
  number : Nat

def State.role (s : State) : Role :=
  { state := s.img.state, boot := s.img.boot, size := s.pkgN Fld.lnlShoalSize, number := s.pkgN Fld.lnlPackage }

theorem State.role_of_view {s t : State} (h : t.view { vals := true, img := true } = s.view { vals := true, img := true }) :
    t.role = s.role := by
  obtain ⟨himg, hvals⟩ := State.imgVals_of_view h
  obtain ⟨hstate, _, _, hboot⟩ := Img.of_still himg
  rw [State.role, hstate, hboot, State.pkgN_congr hvals, State.pkgN_congr hvals, State.role]

theorem State.leads_of_role {s t : State} (h : t.role = s.role) : t.leads = s.leads := by
  have hsize : t.pkgN Fld.lnlShoalSize = s.pkgN Fld.lnlShoalSize := congrArg Role.size h
  have hnumber : t.pkgN Fld.lnlPackage = s.pkgN Fld.lnlPackage := congrArg Role.number h
  rw [State.leads, State.leads, State.packageNo, State.packageNo, hsize, hnumber]

/-! ### A new value of a field that is none of the shoal's -/

theorem instanceOf_id {f : Field} {id i : Nat} (h : instanceOf f id = some i) : f.id + f.stride * i = id := by
  rw [instanceOf] at h
  split at h
  · next hzero =>
    split at h
    · next he =>
      cases h
      rw [he, hzero, Nat.zero_mul, Nat.add_zero]
    · cases h
  · split at h
    · next hfit =>
      obtain ⟨hle, hmod, _⟩ := hfit
      cases h
      rw [Nat.mul_div_cancel' (Nat.dvd_of_mod_eq_zero hmod)]
      omega
    · cases h

theorem findField_id {block id : Nat} {f : Field} {i : Nat} (h : findField block id = some (f, i)) : f.id + f.stride * i = id := by
  obtain ⟨g, hg, hi⟩ := List.exists_of_findSome?_eq_some h
  obtain ⟨j, hj, he⟩ := Option.map_eq_some_iff.mp hi
  cases he
  exact instanceOf_id hj

/-- Keys of two blocks differ where the id fits its 16 bits. -/
theorem fieldKey_ne {f g : Field} {b i : Nat} (hb : b < 8) (hblock : f.block ≠ g.block) (hid : f.id + f.stride * i < 65536)
    (hg : g.id < 65536) (hstride : g.stride = 0) (hpkg : g.pkg = true) : fieldKey g 0 0 0 ≠ fieldKey f b i 0 := by
  have hbay : (if f.pkg then 0 else b) < 8 := by split <;> omega
  simp only [fieldKey, hstride, hpkg, if_true]
  generalize (if f.pkg then 0 else b) = c at hbay ⊢
  generalize f.stride * i = k at hid ⊢
  omega

theorem State.setFld_pkgN {f g : Field} {b : BayNo} {i : Nat} (s : State) (v : Int) (h : fieldKey g 0 0 0 ≠ fieldKey f b.val i 0) :
    (s.setFld f b i v).pkgN g = s.pkgN g := by
  have hget : Vals.of (s.setFld f b i v).vals g 0 = Vals.of s.vals g 0 := by
    rw [Vals.of, Vals.of]
    exact congrArg (·.getD (fieldDefault g 0)) ((Sparse.get_set none s.vals _ _ (some v)).trans (if_neg h))
  exact congrArg Int.toNat hget

/-- A value of another block than the shoal's leaves the package's role. -/
theorem State.putFld_role {f : Field} {i : Nat} (hblock : f.block ≠ 0x12) (hid : f.id + f.stride * i < 65536) (s : State) (b : BayNo)
    (c : Cause) (v : Int) : (s.putFld f b i c v).role = s.role := by
  have hbefore : (s.beforeApplied f b i).role = s.role := State.role_of_view (State.beforeApplied_view (by decide) ..)
  rw [State.putFld, State.role_of_view (State.onApplied_view (by decide) ..), ← hbefore]
  generalize s.beforeApplied f b i = u
  rw [State.role, State.setFld_pkgN u v (fieldKey_ne b.isLt hblock hid (by decide) rfl rfl),
    State.setFld_pkgN u v (fieldKey_ne b.isLt hblock hid (by decide) rfl rfl)]
  rfl

/-! ### The waiting values that a hop takes -/

/-- A waiting value of another block than the shoal's. -/
def Waiting.apartShoal : Waiting → Prop
  | .value k _ _ _ _ _ _ => k.block ≠ 0x12 ∧ k.id < 65536
  | .profile .. => True

theorem Waiting.apartShoal_of_isOf {w : Waiting} {fs : List Field} {i : Nat} (hi : i < 4)
    (hfs : ∀ f ∈ fs, f.block ≠ 0x12 ∧ f.id + f.stride * 4 < 65536) (h : w.isOf fs i = true) : w.apartShoal := by
  cases w with
  | profile p due pins => trivial
  | value k left v ap due watched told =>
    obtain ⟨f, hf, hk⟩ := List.any_eq_true.mp h
    obtain ⟨hblock, hid⟩ := of_decide_eq_true hk
    obtain ⟨hother, hfit⟩ := hfs f hf
    refine ⟨fun e => hother (hblock.symm.trans e), ?_⟩
    have hle : f.stride * i ≤ f.stride * 4 := Nat.mul_le_mul_left _ (by omega)
    omega

theorem State.apartShoal_of_hopTakes {s : State} {b : BayNo} {scope : List (Fin 2) × List Port} {any : Bool} {w : Waiting}
    (h : s.hopTakes b scope any w = true) : w.apartShoal := by
  cases w with
  | profile p due pins => trivial
  | value k left v ap due watched told =>
    simp only [State.hopTakes, Bool.and_eq_true, Bool.or_eq_true, List.any_eq_true] at h
    obtain ⟨-, ⟨p, -, hp, -⟩ | ⟨x, -, hx | ⟨hx, -⟩⟩⟩ := h
    · exact Waiting.apartShoal_of_isOf p.isLt (by decide) hp
    · exact Waiting.apartShoal_of_isOf (by omega) (by decide) hx
    · exact Waiting.apartShoal_of_isOf (by omega) (by decide) hx

theorem State.applyWaiting_role {w : Waiting} (hw : w.apartShoal) (s : State) (b : BayNo) (c : Cause) :
    (s.applyWaiting b c w).2.role = s.role := by
  cases w with
  | profile p due pins => rfl
  | value k left v ap due watched told =>
    obtain ⟨hblock, hid⟩ := hw
    rw [State.applyWaiting]
    split
    · rfl
    · split
      · rfl
      · next f i hfield =>
        have hput := State.putFld_role (fun e => hblock ((findField_block hfield).symm.trans e)) (findField_id hfield ▸ hid) s b c v
        show State.role (if told then s.putFld f b i c v else (s.putFld f b i c v).tellApplied f k (s.fld f b i) v watched) = s.role
        split
        · exact hput
        · exact (State.role_of_view (State.tellApplied_view (by decide) ..)).trans hput

/-- One value in turn, taken, passed over or left. -/
theorem State.takeEffect_role {p : Waiting → Bool} (hp : ∀ w, p w = true → w.apartShoal) (s : State) (b : BayNo) (c : Cause) :
    (s.takeEffect b p c).role = s.role := by
  have hstep : ∀ (l : List (Waiting × Bool)) (acc : List Waiting × State),
      (l.foldl (fun (acc : List Waiting × State) (e : Waiting × Bool) =>
        if p e.1 then
          let (r, s1) := if e.2 then acc.2.passOver b e.1 else acc.2.applyWaiting b c e.1
          (acc.1 ++ r.toList, s1)
        else (acc.1 ++ [e.1], acc.2)) acc).2.role = acc.2.role := by
    intro l
    induction l with
    | nil => intro acc; rfl
    | cons e r ih =>
      intro acc
      refine (ih _).trans ?_
      by_cases he : p e.1 = true
      · simp only [he, if_true]
        cases e.2
        · exact State.applyWaiting_role (hp _ he) ..
        · exact State.role_of_view (State.passOver_view (by decide) ..)
      · simp only [he, Bool.false_eq_true, if_false]
  exact hstep _ ([], s)

theorem State.hopApply_role (s : State) (b : BayNo) (scope : List (Fin 2) × List Port) (any : Bool) (t : Stamp) :
    (s.hopApply b scope any t).role = s.role := by
  unfold State.hopApply
  extract_lets told s1 s2 s3 s4
  have h1 : s1.role = s.role := State.takeEffect_role (fun _ => State.apartShoal_of_hopTakes) s b _
  clear_value s1
  have h4 : s4.view { vals := true, img := true } = s1.view { vals := true, img := true } :=
    (foldl_view _ _ (fun u x => State.chanChanged_view (by decide) ..) _ _).trans
      ((foldl_view _ _ (fun u q => State.portRetuned_view (by decide) ..) _ _).trans (State.refreshPorts_view (by decide) ..))
  clear_value s4
  exact (State.role_of_view ((State.noteConf_view (by decide) ..).trans h4)).trans h1

theorem State.resumeFlow_role (s : State) (b : BayNo) (p : Port) (t : Stamp) (units : Nat) : (s.resumeFlow b p t units).role = s.role := by
  unfold State.resumeFlow
  extract_lets s0 s1
  have h0 : s0.role = s.role := by
    show State.role (if h : p.val < 2 then s.freeAtten b ⟨p.val, h⟩ else s) = s.role
    split
    · exact State.role_of_view (State.freeAtten_view (by decide) ..)
    · rfl
  clear_value s0
  have h1 : s1.role = s0.role := (State.role_of_view (State.startPort_view (by decide) ..)).trans (s0.hopApply_role ..)
  clear_value s1
  exact (State.role_of_view (State.freeChans_view (by decide) ..)).trans (h1.trans h0)

theorem State.resumePort_role (s : State) (b : BayNo) (p : Port) (t : Stamp) : (s.resumePort b p t).role = s.role := by
  unfold State.resumePort
  extract_lets y tL
  split
  · rfl
  · split
    · exact s.resumeFlow_role ..
    · exact State.role_of_view ((State.stopPort_view (by decide) ..).trans (State.modPort_view (by decide) ..))

theorem State.resumeBay_role (s : State) (b : BayNo) (t : Stamp) (cause : Nat) (any : Bool) : (s.resumeBay b t cause any).role = s.role := by
  unfold State.resumeBay
  extract_lets s1 s2
  have h1 : s1.role = s.role :=
    (foldl_keep State.role _ (fun u x => u.hopApply_role ..) _ _).trans (State.role_of_view (State.refreshPorts_view (by decide) ..))
  clear_value s1
  have h2 : s2.role = s1.role := foldl_keep State.role _ (fun u p => u.resumePort_role ..) _ _
  clear_value s2
  refine (State.role_of_view (foldl_view _ _ (fun u x => ?_) _ _)).trans (h2.trans h1)
  simp only [↓view_ite, ite_self, ↓State.closeChanGap_view (q := { vals := true, img := true }) (by decide),
    ↓State.startGrid_view (q := { vals := true, img := true }) (by decide), ↓State.openChanGap_view (q := { vals := true, img := true }) (by decide)]

theorem State.beginBay_role (s : State) (b : BayNo) (t : Stamp) : (s.beginBay b t).role = s.role := by
  unfold State.beginBay
  extract_lets chan s1 s2 s3 s4
  have h1 : s1.role = s.role := rfl
  clear_value s1
  have h3 : s3.view { vals := true, img := true } = s1.view { vals := true, img := true } := by
    refine (foldl_view _ _ (fun u x => ?_) _ _).trans (foldl_view _ _ (fun u x => State.jesStart_view (by decide) ..) _ _)
    split
    · exact State.unitChanged_view (by decide) ..
    · rfl
  clear_value s3
  have h4 : s4.role = s.role := (s3.resumeBay_role ..).trans ((State.role_of_view h3).trans h1)
  clear_value s4
  split
  · refine (State.role_of_view (foldl_view _ _ (fun u p => ?_) _ _)).trans h4
    split
    · exact State.stopPort_view (by decide) ..
    · rfl
  · exact h4

/-! ### FE_CAL_DONE -/

/-- The calibration of start-up in every live bay is none of the image's or of the settings'. -/
theorem State.startupTurn_role (runs : List FeRun) (s : State) (b : BayNo) :
    (((List.finRange 2).foldl (fun s i => if s.frontOn b i then s.calStartup b i (feRun runs b i) else s) s).runRotations b).role = s.role := by
  refine State.role_of_view ((State.runRotations_view (by decide) ..).trans (foldl_view _ _ (fun u i => ?_) _ _))
  split
  · exact State.calStartup_view (by decide) ..
  · rfl

theorem State.enterRun_role (s : State) (t : Stamp) : (s.enterRun t).role = { s.role with state := .run } := by
  unfold State.enterRun
  extract_lets s1 s2
  have h2 : s2.role = { s.role with state := .run } :=
    (State.role_of_view ((State.event_view ..).trans (State.eachBay_view _ _ (fun u b => State.runBay_view (by decide) u b t) _ _))).trans rfl
  clear_value s2
  split
  · exact (State.role_of_view ((State.pwrStart_view (by decide) _).trans (State.autoArm_view (by decide) ..))).trans h2
  · exact h2

/-- The package as phase 10 has ended, before it enters RUN. -/
def State.calibrated (s : State) (runs : List FeRun) : State :=
  let s1 := s.modImg fun i => { i with state := .ready, boot := { i.boot with active := false } }
  let s2 := s1.eachBay s1.liveBays fun u b => u.beginBay b s.now
  (s2.eachBay s2.liveBays fun s b => ((List.finRange 2).foldl (fun s i =>
    if s.frontOn b i then s.calStartup b i (feRun runs b i) else s) s).runRotations b).endPhase 10

theorem exec_feCalDone_next {s : State} (hphase : s.inPhase 9 = true) (runs : List FeRun) :
    exec (.feCalDone runs) s = .next (if (s.calibrated runs).leads then (s.calibrated runs).enterRun s.now else s.calibrated runs) := by
  rw [exec_feCalDone, execFeCalDone, hphase]
  rfl

theorem State.endPhase_role (s : State) (n : Nat) : (s.endPhase n).role = { s.role with boot := { s.img.boot with phase := n } } := by
  rw [State.endPhase, State.role_of_view (State.event_view ..)]
  rfl

theorem State.calibrated_role (s : State) (runs : List FeRun) :
    (s.calibrated runs).role = { s.role with state := .ready, boot := { s.img.boot with active := false, phase := 10 } } := by
  unfold State.calibrated
  extract_lets s1 s2
  have h2 : s2.role = { s.role with state := .ready, boot := { s.img.boot with active := false } } :=
    (State.eachBay_keep State.role _ (fun u b => u.beginBay_role b s.now) _ _).trans rfl
  clear_value s2
  have h3 := State.eachBay_keep State.role _ (State.startupTurn_role runs) s2.liveBays s2
  generalize (s2.eachBay s2.liveBays _) = s3 at h3 ⊢
  have hall := h3.trans h2
  have hboot : s3.img.boot = { s.img.boot with active := false } := congrArg Role.boot hall
  rw [State.endPhase_role, hall, hboot]

theorem feCalDone_done : Claims.StartUpPhases.feCalDone_done := by
  intro s runs hphase
  refine ⟨_, exec_feCalDone_next hphase runs, ?_⟩
  have hrole := s.calibrated_role runs
  generalize s.calibrated runs = u at hrole ⊢
  have hleads : u.leads = s.leads := by
    have hsize : u.pkgN Fld.lnlShoalSize = s.pkgN Fld.lnlShoalSize := congrArg Role.size hrole
    have hnumber : u.pkgN Fld.lnlPackage = s.pkgN Fld.lnlPackage := congrArg Role.number hrole
    rw [State.leads, State.leads, State.packageNo, State.packageNo, hsize, hnumber]
  rw [hleads]
  cases s.leads with
  | true =>
    have hrun := u.enterRun_role s.now
    rw [hrole] at hrun
    simp only [if_true]
    generalize u.enterRun s.now = t at hrun ⊢
    have hboot : t.img.boot = _ := congrArg Role.boot hrun
    rw [hboot]
    exact ⟨rfl, rfl, congrArg Role.state hrun⟩
  | false =>
    have hboot : u.img.boot = _ := congrArg Role.boot hrole
    simp only [Bool.false_eq_true, if_false]
    rw [hboot]
    exact ⟨rfl, rfl, congrArg Role.state hrole⟩

end Sys2Proof.Machine

namespace Sys2Proof
open Sys2Proof.Machine

/-- Settles O14: each end of a phase is one round over the live bays, and what a round leaves in a bay is what that bay's own turn does. -/
theorem startUpPhases : Obligations.StartUpPhases :=
  ⟨lagoonFloodDone_done, bootRomDone_done, d2dTrainDone_done, discoverDone_done, discoverTimeout_done, shoalSectionReadDone_done,
    imageReadDone_done, imageReadDone_safe, checkerDone_done, imageBroadcastDone_done, spllLockPhase8_time, spllLockPhase8_grid,
    spllPhase8Timeout_done, adcInitCalDone_done, feCalDone_done, imageRestart_done⟩

end Sys2Proof
end

section
/-! The blocks that neither a host's register write nor a DMA burst reaches: the front ends, the converters, housekeeping and calibration
of every bay, and the settings (R82, R206). Every operation of the open side of the register map leaves them, down to the marks of what was
told in an epoch. -/
namespace Sys2Proof.Machine

/-! ### The guarded blocks -/

/-- The guarded blocks of a bay. -/
def Bay.guarded (y : Bay) : AfeBay × Vector Adc 2 × HkcBay × Vector CalIn 2 := (y.afe, y.adc, y.hkc, y.cal)

/-- The guarded blocks of a package: those of every bay, and the settings in force. -/
abbrev GuardedBlocks := Vector (AfeBay × Vector Adc 2 × HkcBay × Vector CalIn 2) 8 × Vals

def State.guarded (s : State) : GuardedBlocks := (s.bays.map Bay.guarded, s.vals)

/-- The guarded blocks of what an outcome answers. -/
def Out.guarded (o : Out) : Option GuardedBlocks :=
  match o with
  | .next s => some s.guarded
  | _ => none

/-- The guarded blocks of a state that may be missing, `l` where it is. -/
def guardedOr (l : GuardedBlocks) (o : Option State) : GuardedBlocks :=
  match o with
  | some s => s.guarded
  | none => l

theorem State.guarded_bay {s t : State} (h : t.guarded = s.guarded) (b : BayNo) : (t.bay b).guarded = (s.bay b).guarded := by
  have hbays : t.bays.map Bay.guarded = s.bays.map Bay.guarded := congrArg Prod.fst h
  simpa [State.bay] using congrArg (fun x => x[b]) hbays

theorem guarded_of_still {s t : State} (h : t.still = s.still) : t.guarded = s.guarded := by
  have hstill : ∀ u : State, u.still.guarded = u.guarded := fun u => by
    simp only [State.guarded, State.still, Vector.map_map]
    rfl
  rw [← hstill t, h, hstill s]

theorem State.modBay_guarded (s : State) (b : BayNo) (f : Bay → Bay) (h : ∀ x : Bay, (f x).guarded = x.guarded) :
    (s.modBay b f).guarded = s.guarded := by
  have hbays : (s.bays.set b (f (s.bay b))).map Bay.guarded = s.bays.map Bay.guarded := by
    apply Vector.ext
    intro i hi
    by_cases hb : b.val = i
    · subst hb
      simpa [State.bay] using h (s.bay b)
    · simp [hb]
  simp only [State.modBay, State.setBay, State.guarded, hbays]

theorem guarded_ite (c : Prop) [Decidable c] (a b : State) :
    (if c then a else b).guarded = if c then a.guarded else b.guarded := apply_ite ..

theorem foldl_guarded {α : Type} (f : State → α → State) (h : ∀ s a, (f s a).guarded = s.guarded) (l : List α) :
    ∀ s, (l.foldl f s).guarded = s.guarded :=
  foldl_keep State.guarded f h l

theorem foldl_snd_guarded {α β : Type} (f : β × State → α → β × State) (h : ∀ s a, (f s a).2.guarded = s.2.guarded) (l : List α) :
    ∀ s, (l.foldl f s).2.guarded = s.2.guarded := by
  induction l with
  | nil => intro s; rfl
  | cons a r ih => intro s; exact (ih _).trans (h s a)

theorem State.eachBay_guarded (f : State → BayNo → State) (h : ∀ s b, (f s b).guarded = s.guarded) (s : State) (bs : List BayNo) :
    (s.eachBay bs f).guarded = s.guarded := foldl_guarded f h bs s

theorem out_guarded_next (s : State) : Out.guarded (.next s) = some s.guarded := rfl

theorem next_guarded {s t : State} (h : t.guarded = s.guarded) : Out.guarded (.next t) = some s.guarded := congrArg some h

theorem out_guarded_ite (c : Prop) [Decidable c] (a b : Out) :
    Out.guarded (if c then a else b) = if c then Out.guarded a else Out.guarded b := apply_ite ..

theorem guardedOr_some (l : GuardedBlocks) (s : State) : guardedOr l (some s) = s.guarded := rfl

theorem guardedOr_none (l : GuardedBlocks) : guardedOr l none = l := rfl

theorem guarded_of_some {o : Option State} {l : GuardedBlocks} {s : State} (h : guardedOr l o = l) (e : o = some s) : s.guarded = l := by
  subst e
  exact h

theorem afterOf_guarded {o : Out} {l : GuardedBlocks} {s : State} (h : Out.guarded o = some l) (hs : s.guarded = l) :
    (afterOf o s).guarded = l := by
  cases o with
  | next t => exact Option.some.inj h
  | fault => exact hs
  | refused => exact hs

theorem State.event_guarded (s : State) (b : BayNo) (code : Nat) (w : List Word) (c : Bool) : (s.event b code w c).guarded = s.guarded :=
  guarded_of_still (s.event_still b code w c)

/-! ### Accesses that meet a fence, and the seal log -/

theorem State.modEth_guarded (s : State) (b : BayNo) (i : Fin 8) (f : EthPort → EthPort) : (s.modEth b i f).guarded = s.guarded :=
  State.modBay_guarded _ _ _ fun _ => rfl

theorem State.modDom_guarded (s : State) (b : BayNo) (f : PwrBay → PwrBay) : (s.modDom b f).guarded = s.guarded :=
  State.modBay_guarded _ _ _ fun _ => rfl

theorem State.asleepAccess_guarded (s : State) (b : BayNo) (d : Domain) : (s.asleepAccess b d).guarded = s.guarded := by
  unfold State.asleepAccess
  split
  · rfl
  · exact (State.event_guarded ..).trans (State.modDom_guarded ..)

theorem State.discarded_guarded (s : State) (addr path : Nat) : (s.discarded addr path).guarded = s.guarded := by
  unfold State.discarded
  split
  · rfl
  · exact (State.event_guarded ..).trans rfl

theorem State.capturePut_guarded (s : State) (b : BayNo) (a : Nat) (bs : List Byte) : (s.capturePut b a bs).guarded = s.guarded :=
  State.modBay_guarded _ _ _ fun _ => rfl

theorem State.sealLog_guarded (s : State) (kind : Nat) (b : BayNo) (detail : Nat) (data : List Word) (rtc : Bool) (fromReserve : Bool) :
    (s.sealLog kind b detail data rtc fromReserve).guarded = s.guarded := by
  unfold State.sealLog
  extract_lets
  split
  · rfl
  · split
    · exact (State.event_guarded ..).trans rfl
    · split
      · exact (State.event_guarded ..).trans rfl
      · rfl

theorem State.coreDebug_guarded (s : State) (b : BayNo) (c : CoreNo) (action : Nat) : (s.coreDebug b c action).guarded = s.guarded := by
  simp only [State.coreDebug, ↓State.sealLog_guarded, ↓State.event_guarded]

theorem State.ctrlTrace_guarded (s : State) (b : BayNo) (c : CoreNo) (action : Nat) : (s.ctrlTrace b c action).guarded = s.guarded := by
  simp only [State.ctrlTrace, ↓guarded_ite, ite_self, ↓State.coreDebug_guarded]

/-! ### The cores and the scan-out -/

theorem State.modCore_guarded (s : State) (b : BayNo) (c : CoreNo) (f : Core → Core) : (s.modCore b c f).guarded = s.guarded :=
  State.modBay_guarded _ _ _ fun _ => rfl

theorem State.fencedAccess_guarded (s : State) (b : BayNo) (d : Domain) : (s.fencedAccess b d).guarded = s.guarded := by
  simp only [State.fencedAccess, ↓guarded_ite, ite_self, ↓State.asleepAccess_guarded]

theorem execCoreImemWrite_guarded (b : BayNo) (a : BitVec 14) (v : Word) (s : State) :
    Out.guarded (execCoreImemWrite b a v s) = some s.guarded := by
  simp only [execCoreImemWrite, ↓out_guarded_ite, ↓out_guarded_next, ite_self, ↓State.discarded_guarded, ↓State.modCore_guarded,
    ↓State.fencedAccess_guarded, ↓State.ctrlTrace_guarded]

theorem State.coreAperture_guarded (s : State) (b : BayNo) (o : Nat) (v : Word) (en : BitVec 4) :
    guardedOr s.guarded (s.coreAperture b o v en) = s.guarded := by
  unfold State.coreAperture
  extract_lets c k still a s1
  split
  · rfl
  · split
    · split
      · rfl
      · exact afterOf_guarded (execCoreImemWrite_guarded ..) rfl
    · split
      · exact (State.ctrlTrace_guarded ..).trans (State.modCore_guarded ..)
      · rfl

theorem State.modScn_guarded (s : State) (b : BayNo) (f : Scn → Scn) : (s.modScn b f).guarded = s.guarded :=
  State.modBay_guarded _ _ _ fun _ => rfl

theorem State.scnMemWrite_guarded (s : State) (b : BayNo) (off : Nat) (v : Word) (en : BitVec 4) :
    (s.scnMemWrite b off v en).guarded = s.guarded := by
  simp only [State.scnMemWrite, ↓State.modScn_guarded]

theorem State.shadowWrite_guarded (s : State) (b : BayNo) (id : Nat) (f : Field) (i : Nat) (v : Int) :
    (s.shadowWrite b id f i v).guarded = s.guarded := by
  simp only [State.shadowWrite, ↓State.modScn_guarded]

theorem State.discardWaiting_guarded (s : State) (drop keep : List Waiting) : (s.discardWaiting drop keep).guarded = s.guarded := (rfl)

theorem State.supersede_guarded (s : State) (b : BayNo) (id : Nat) : (s.supersede b id).guarded = s.guarded := by
  simp only [State.supersede, ↓State.discardWaiting_guarded]

theorem State.scnWrite_guarded (s : State) (b : BayNo) (off : Nat) (v : Word) (en : BitVec 4) :
    guardedOr s.guarded (s.scnWrite b off v en) = s.guarded := by
  simp only [State.scnWrite]
  repeat' split
  all_goals simp only [↓guardedOr_some, ↓guardedOr_none, ↓State.modScn_guarded, ↓State.shadowWrite_guarded, ↓State.scnMemWrite_guarded,
    ↓State.supersede_guarded]

theorem execMcCtrlHalt_guarded (b : BayNo) (c : CoreNo) (s : State) : Out.guarded (execMcCtrlHalt b c s) = some s.guarded := by
  simp only [execMcCtrlHalt, ↓out_guarded_ite, ↓out_guarded_next, ite_self, ↓State.modCore_guarded, ↓State.event_guarded,
    ↓State.ctrlTrace_guarded]

theorem State.initRings_guarded (s : State) (b : BayNo) (c : CoreNo) : (s.initRings b c).guarded = s.guarded := by
  simp only [State.initRings, ↓guarded_ite, ite_self, ↓State.modCore_guarded]

theorem State.restartCore_guarded (s : State) (b : BayNo) (c : CoreNo) : (s.restartCore b c).guarded = s.guarded := by
  simp only [State.restartCore, ↓State.event_guarded, ↓State.modCore_guarded, ↓State.initRings_guarded]

theorem execMcCtrlReset_guarded (b : BayNo) (c : CoreNo) (s : State) : Out.guarded (execMcCtrlReset b c s) = some s.guarded := by
  simp only [execMcCtrlReset, ↓out_guarded_ite, ↓out_guarded_next, ite_self, ↓State.restartCore_guarded, ↓State.ctrlTrace_guarded]

theorem execMcCtrlResume_guarded (b : BayNo) (c : CoreNo) (s : State) : Out.guarded (execMcCtrlResume b c s) = some s.guarded := by
  simp only [execMcCtrlResume, ↓out_guarded_ite, ↓out_guarded_next, ite_self, ↓State.modCore_guarded, ↓State.ctrlTrace_guarded]

theorem State.coreCtrl_guarded (s : State) (b : BayNo) (c : CoreNo) (v : Word) : (s.coreCtrl b c v).guarded = s.guarded := by
  unfold State.coreCtrl
  extract_lets s1 s2
  have h1 : s1.guarded = s.guarded := by
    simp only [s1]
    split
    · exact afterOf_guarded (execMcCtrlHalt_guarded ..) rfl
    · rfl
  clear_value s1
  have h2 : s2.guarded = s.guarded := by
    refine Eq.trans ?_ h1
    simp only [s2]
    split
    · exact afterOf_guarded (execMcCtrlResume_guarded ..) rfl
    · rfl
  clear_value s2
  split
  · exact (afterOf_guarded (execMcCtrlReset_guarded ..) rfl).trans h2
  · exact h2

/-! ### The DMA channels -/

theorem State.modDma_guarded (s : State) (b : BayNo) (n : Fin 32) (f : DmaChan → DmaChan) : (s.modDma b n f).guarded = s.guarded :=
  State.modBay_guarded _ _ _ fun _ => rfl

theorem State.dmaAbort_guarded (s : State) (b : BayNo) (n : Fin 32) : (s.dmaAbort b n).guarded = s.guarded := by
  simp only [State.dmaAbort, ↓guarded_ite, ite_self, ↓State.modDma_guarded]

theorem State.dmaClear_guarded (s : State) (b : BayNo) (n : Fin 32) : (s.dmaClear b n).guarded = s.guarded := by
  simp only [State.dmaClear, ↓guarded_ite, ite_self, ↓State.modDma_guarded]

theorem State.modQueue_guarded (s : State) (b : BayNo) (i : Fin 16) (f : Queue → Queue) : (s.modQueue b i f).guarded = s.guarded :=
  guarded_of_still (s.modQueue_still b i f)

theorem State.nextSeq_guarded (s : State) (b : BayNo) (n : Nat) (r : RecType) : (s.nextSeq b n r).2.guarded = s.guarded :=
  guarded_of_still (s.nextSeq_still b n r)

theorem State.putDropped_guarded (s : State) (b : BayNo) (i : Fin 16) : (s.putDropped b i).guarded = s.guarded :=
  guarded_of_still (s.putDropped_still b i)

theorem State.putEntry_guarded (s : State) (b : BayNo) (i : Fin 16) (r : Rec) (v : Bool) : (s.putEntry b i r v).guarded = s.guarded :=
  guarded_of_still (s.putEntry_still b i r v)

theorem State.flushQueue_guarded (s : State) (b : BayNo) (i : Fin 16) (cause : Nat) : (s.flushQueue b i cause).guarded = s.guarded := by
  simp only [State.flushQueue, ↓guarded_ite, ite_self, ↓State.putDropped_guarded, ↓State.nextSeq_guarded, ↓State.event_guarded,
    ↓State.putEntry_guarded, ↓State.modQueue_guarded]

theorem State.dmaError_guarded (s : State) (b : BayNo) (n : Fin 32) (cause : DmaCause) (addr : BitVec 64) (stops : Bool) :
    (s.dmaError b n cause addr stops).guarded = s.guarded := by
  simp only [State.dmaError, ↓guarded_ite, ite_self, ↓State.flushQueue_guarded, ↓State.event_guarded, ↓State.modDma_guarded]

theorem State.dmaStart_guarded (s : State) (b : BayNo) (n : Fin 32) : (s.dmaStart b n).guarded = s.guarded := by
  simp only [State.dmaStart, ↓guarded_ite, ite_self, ↓State.modDma_guarded, ↓State.dmaError_guarded]

theorem State.ringCfg_guarded (s : State) (b : BayNo) (n : Fin 32) (w : Word) : (s.ringCfg b n w).guarded = s.guarded := by
  simp only [State.ringCfg, ↓State.modDma_guarded]

theorem State.dmaWrite_guarded (s : State) (b : BayNo) (off : Nat) (w : Word) :
    guardedOr s.guarded (s.dmaWrite b off w) = s.guarded := by
  simp only [State.dmaWrite]
  repeat' split
  all_goals simp only [↓guardedOr_some, ↓guardedOr_none, ↓State.modDma_guarded, ↓State.dmaStart_guarded, ↓State.ringCfg_guarded,
    ↓State.dmaAbort_guarded, ↓State.dmaClear_guarded]

/-! ### The host rings -/

theorem State.modImg_guarded (s : State) (f : Img → Img) : (s.modImg f).guarded = s.guarded := (rfl)

theorem execImgCmdCfgWrite_guarded (w : Word) (s : State) : Out.guarded (execImgCmdCfgWrite w s) = some s.guarded := by
  simp only [execImgCmdCfgWrite, ↓out_guarded_ite, ↓out_guarded_next, ite_self, ↓State.modImg_guarded]

theorem execImgCmdTailWrite_guarded (v : BitVec 12) (s : State) : Out.guarded (execImgCmdTailWrite v s) = some s.guarded := by
  simp only [execImgCmdTailWrite, ↓out_guarded_ite, ↓out_guarded_next, ite_self, ↓State.modImg_guarded]

theorem State.ringEvent_guarded (s : State) (r : Rec) (c : Bool) : (s.ringEvent r c).guarded = s.guarded :=
  guarded_of_still (s.ringEvent_still r c)

theorem State.drainBuffer_guarded (s : State) : s.drainBuffer.guarded = s.guarded := by
  simp only [State.drainBuffer, ↓guarded_ite, ↓foldl_guarded, ite_self, implies_true, ↓State.modImg_guarded, ↓State.ringEvent_guarded]

theorem execImgEvtCfgWrite_guarded (w : Word) (s : State) : Out.guarded (execImgEvtCfgWrite w s) = some s.guarded := by
  simp only [execImgEvtCfgWrite, ↓guarded_ite, ↓out_guarded_ite, ↓out_guarded_next, ite_self, ↓State.modImg_guarded,
    ↓State.drainBuffer_guarded]

theorem execImgEvtHeadWrite_guarded (v : BitVec 12) (s : State) : Out.guarded (execImgEvtHeadWrite v s) = some s.guarded := by
  simp only [execImgEvtHeadWrite, ↓out_guarded_ite, ↓out_guarded_next, ite_self, ↓State.modImg_guarded]

theorem State.imgWrite_guarded (s : State) (o : Nat) (v : Word) : guardedOr s.guarded (s.imgWrite o v) = s.guarded := by
  unfold State.imgWrite
  split
  · exact State.modImg_guarded ..
  · exact State.modImg_guarded ..
  · exact afterOf_guarded (execImgCmdCfgWrite_guarded ..) rfl
  · exact afterOf_guarded (execImgCmdTailWrite_guarded ..) rfl
  · exact State.modImg_guarded ..
  · exact State.modImg_guarded ..
  · exact afterOf_guarded (execImgEvtCfgWrite_guarded ..) rfl
  · exact afterOf_guarded (execImgEvtHeadWrite_guarded ..) rfl
  · rfl

theorem State.emit_guarded (s : State) (o : Output) : (s.emit o).guarded = s.guarded :=
  guarded_of_still (s.emit_still o)

/-! ### The global reset, the trigger units and the injectors -/

theorem State.modTbsPkg_guarded (s : State) (f : TbsPkg → TbsPkg) : (s.modTbsPkg f).guarded = s.guarded := (rfl)

theorem State.issueReset_guarded (s : State) : s.issueReset.guarded = s.guarded := by
  simp only [State.issueReset, ↓guarded_ite, ite_self, ↓State.modTbsPkg_guarded, ↓State.emit_guarded]

theorem State.modLink_guarded (s : State) (b : BayNo) (n : Fin 5) (f : Injector → Injector) : (s.modLink b n f).guarded = s.guarded :=
  guarded_of_still (s.modLink_still b n f)

theorem State.arriveHeld_guarded (s : State) (b : BayNo) (l : List HeldPacket) : (s.arriveHeld b l).2.guarded = s.guarded :=
  guarded_of_still (s.arriveHeld_still b l)

theorem State.modUnit_guarded (s : State) (b : BayNo) (u : Fin 8) (f : TrgUnit → TrgUnit) : (s.modUnit b u f).guarded = s.guarded :=
  State.modBay_guarded _ _ _ fun _ => rfl

theorem State.missTrigger_guarded (s : State) (b : BayNo) (u : Fin 8) : (s.missTrigger b u).guarded = s.guarded := by
  simp only [State.missTrigger, ↓guarded_ite, ite_self, ↓State.modUnit_guarded, ↓State.event_guarded]

theorem State.endByCount_guarded (s : State) (b : BayNo) (u : Fin 8) : (s.endByCount b u).guarded = s.guarded := by
  simp only [State.endByCount, ↓guarded_ite, ite_self, ↓State.modUnit_guarded, ↓State.event_guarded]

theorem State.enqueue_guarded (s : State) (b : BayNo) (q : Nat) (r : RecBody) : (s.enqueue b q r).guarded = s.guarded :=
  guarded_of_still (s.enqueue_still b q r)

theorem State.modRec_guarded (s : State) (b : BayNo) (f : Recorder → Recorder) : (s.modRec b f).guarded = s.guarded :=
  State.modBay_guarded _ _ _ fun _ => rfl

theorem State.freezeRegion_guarded (s : State) (b : BayNo) (u : Fin 8) (t : Stamp) : (s.freezeRegion b u t).guarded = s.guarded := by
  simp only [State.freezeRegion]
  repeat' split
  all_goals simp only [↓State.modRec_guarded, ↓State.event_guarded]

theorem State.modTrg_guarded (s : State) (f : TrgPkg → TrgPkg) : (s.modTrg f).guarded = s.guarded := (rfl)

theorem State.outFire_guarded (s : State) (n : Fin 2) (t : Stamp) : (s.outFire n t).guarded = s.guarded := by
  simp only [State.outFire]
  repeat' split
  all_goals simp only [↓State.modTrg_guarded, ↓State.event_guarded]

theorem State.outFires_guarded (s : State) (src : BayNo) (group : Option Nat) (unitNo : Option Nat) (t : Stamp) :
    (s.outFires src group unitNo t).guarded = s.guarded := by
  simp only [State.outFires, ↓guarded_ite, ↓foldl_guarded, ite_self, implies_true, ↓State.outFire_guarded]

theorem State.emitSpec_guarded (s : State) (b : BayNo) (x : Fin 2) (sp : Spec) : (s.emitSpec b x sp).2.guarded = s.guarded := by
  simp only [State.emitSpec, ↓foldl_guarded, implies_true, ↓State.enqueue_guarded]

theorem State.modChan_guarded (s : State) (b : BayNo) (x : Fin 2) (f : XfmChan → XfmChan) : (s.modChan b x f).guarded = s.guarded :=
  State.modBay_guarded _ _ _ fun _ => rfl

theorem State.emitPicked_guarded (s : State) (b : BayNo) (x : Fin 2) : (s.emitPicked b x).guarded = s.guarded := by
  simp only [State.emitPicked, ↓guarded_ite, ↓snd_ite, ↓foldl_snd_guarded, ite_self, implies_true, ↓State.modChan_guarded,
    ↓State.emitSpec_guarded]

theorem State.pickSpectra_guarded (s : State) (b : BayNo) (x : Fin 2) (t : Stamp) (pre post : Nat) :
    (s.pickSpectra b x t pre post).2.guarded = s.guarded := by
  simp only [State.pickSpectra]
  repeat' split
  all_goals simp only [↓State.modChan_guarded, ↓State.emitPicked_guarded]

theorem State.renewCycle_guarded (s : State) (b : BayNo) (u : Fin 8) (t : Stamp) : (s.renewCycle b u t).guarded = s.guarded := by
  simp only [State.renewCycle, ↓guarded_ite, ite_self, ↓State.modUnit_guarded]

theorem State.raiseLine_guarded (s : State) (b : BayNo) (c : CoreNo) (line : Nat) : (s.raiseLine b c line).guarded = s.guarded := by
  simp only [State.raiseLine, ↓guarded_ite, ite_self, ↓State.modCore_guarded]

theorem State.trigLines_guarded (s : State) (b : BayNo) (u : Fin 8) (t : Stamp) : (s.trigLines b u t).guarded = s.guarded := by
  simp only [State.trigLines, ↓guarded_ite, ↓foldl_guarded, ite_self, implies_true, ↓State.modCore_guarded, ↓State.raiseLine_guarded]

theorem State.trigger_guarded (s : State) (b : BayNo) (u : Fin 8) (i : TrigInfo) : (s.trigger b u i).guarded = s.guarded := by
  simp only [State.trigger, ↓guarded_ite, ite_self, ↓State.modUnit_guarded, ↓State.pickSpectra_guarded, ↓State.freezeRegion_guarded,
    ↓State.enqueue_guarded, ↓State.outFires_guarded, ↓State.endByCount_guarded, ↓State.renewCycle_guarded, ↓State.trigLines_guarded]

theorem State.memberFire_guarded (s : State) (b : BayNo) (u : Fin 8) (f : Fire) : (s.memberFire b u f).guarded = s.guarded := by
  simp only [State.memberFire, ↓guarded_ite, ite_self, ↓State.modUnit_guarded, ↓State.trigger_guarded, ↓State.missTrigger_guarded]

theorem State.fireHeld_guarded (s : State) (ps : List HeldPacket) : (s.fireHeld ps).guarded = s.guarded := by
  refine foldl_guarded _ (fun u p => ?_) ps s
  cases p with
  | fire b n f => exact State.memberFire_guarded ..
  | data dst r => rfl

theorem State.queueEvents_guarded (s : State) (l : List (BayNo × Nat × Nat)) : (s.queueEvents l).guarded = s.guarded :=
  guarded_of_still (s.queueEvents_still l)

theorem State.release_guarded (s : State) (b : BayNo) (ps : List HeldPacket) : (s.release b ps).guarded = s.guarded := by
  simp only [State.release, ↓State.fireHeld_guarded, ↓State.queueEvents_guarded, ↓State.arriveHeld_guarded]

theorem State.freeLinks_guarded (s : State) : s.freeLinks.guarded = s.guarded := by
  simp only [State.freeLinks, ↓foldl_guarded, ↓State.eachBay_guarded, implies_true, ↓State.release_guarded, ↓State.modLink_guarded]

theorem State.modInj_guarded (s : State) (n : Fin 64) (f : Injector → Injector) : (s.modInj n f).guarded = s.guarded :=
  guarded_of_still (s.modInj_still n f)

theorem State.dmaComplete_guarded (s : State) (b : BayNo) (n : Fin 32) : (s.dmaComplete b n).guarded = s.guarded := by
  simp only [State.dmaComplete]
  repeat' split
  all_goals simp only [↓State.raiseLine_guarded, ↓State.emit_guarded, ↓State.modDma_guarded]

theorem State.dmaDelivered_guarded (s : State) (b : BayNo) (n : Fin 32) : (s.dmaDelivered b n).guarded = s.guarded := by
  simp only [State.dmaDelivered, ↓guarded_ite, ite_self, ↓State.modDma_guarded, ↓State.dmaComplete_guarded]

theorem State.modEthPkg_guarded (s : State) (f : EthPkg → EthPkg) : (s.modEthPkg f).guarded = s.guarded := (rfl)

theorem State.modStream_guarded (s : State) (n : Fin 64) (f : EthStream → EthStream) : (s.modStream n f).guarded = s.guarded := by
  simp only [State.modStream, ↓State.modEthPkg_guarded]

theorem State.nextCount_guarded (s : State) (n : Fin 64) (sid : Word) : (s.nextCount n sid).2.guarded = s.guarded := by
  simp only [State.nextCount, ↓State.modStream_guarded]

theorem State.sendVrt_guarded (s : State) (n : Fin 64) (r : Rec) (t : Stamp) (body : VrtBody) :
    (s.sendVrt n r t body).guarded = s.guarded :=
  (State.emit_guarded ..).trans ((State.modEth_guarded ..).trans ((State.modStream_guarded ..).trans (State.nextCount_guarded ..)))

theorem State.sendContext_guarded (s : State) (n : Fin 64) (r : Rec) (t : Stamp) (m : VrtMarks) :
    (s.sendContext n r t m).guarded = s.guarded := by
  simp only [State.sendContext, ↓guarded_ite, ite_self, ↓State.modStream_guarded, ↓State.sendVrt_guarded]

theorem State.takeFree_guarded (s : State) (w : Nat) : (s.takeFree w).2.guarded = s.guarded :=
  guarded_of_still (s.takeFree_still w)

theorem State.sendPacket_guarded (s : State) (n : Fin 64) (r : Rec) (i act victim : Nat) :
    (s.sendPacket n r i act victim).guarded = s.guarded := by
  simp only [State.sendPacket]
  repeat' split
  all_goals simp only [↓State.takeFree_guarded, ↓State.nextCount_guarded, ↓State.sendVrt_guarded, ↓State.sendContext_guarded]

theorem State.sendPackets_guarded (s : State) (n : Fin 64) (r : Rec) (old new act victim : Nat) :
    (s.sendPackets n r old new act victim).guarded = s.guarded := by
  simp only [State.sendPackets, ↓foldl_guarded, implies_true, ↓State.sendPacket_guarded]

theorem State.sendWhole_guarded (s : State) (n : Fin 64) (r : Rec) : (s.sendWhole n r).guarded = s.guarded := by
  simp only [State.sendWhole, ↓State.sendPackets_guarded]

theorem State.sendHeld_guarded (s : State) (n : Fin 64) (ps : List HeldPacket) : (s.sendHeld n ps).guarded = s.guarded := by
  unfold State.sendHeld
  refine foldl_guarded _ (fun s p => ?_) _ _
  cases p with
  | data dst r => exact (State.dmaDelivered_guarded ..).trans (State.sendWhole_guarded ..)
  | fire => rfl

theorem State.freeStreams_guarded (s : State) : s.freeStreams.guarded = s.guarded := by
  simp only [State.freeStreams, ↓guarded_ite, ↓foldl_guarded, ite_self, implies_true, ↓State.modInj_guarded, ↓State.sendHeld_guarded]

theorem State.modInjPkg_guarded (s : State) (f : InjPkg → InjPkg) : (s.modInjPkg f).guarded = s.guarded := (rfl)

theorem State.killInjectors_guarded (s : State) : s.killInjectors.guarded = s.guarded := by
  simp only [State.killInjectors, ↓State.modInjPkg_guarded, ↓State.event_guarded, ↓State.freeLinks_guarded, ↓State.freeStreams_guarded]

/-! ### The lanes and what a lane that is lost stops -/

theorem State.modLane_guarded (s : State) (b : BayNo) (k : Fin 24) (f : Lane → Lane) : (s.modLane b k f).guarded = s.guarded :=
  State.modBay_guarded _ _ _ fun _ => rfl

theorem State.accrue_guarded (s : State) (b : BayNo) (k : Fin 24) : (s.accrue b k).guarded = s.guarded := by
  simp only [State.accrue, ↓guarded_ite, ite_self, ↓State.modLane_guarded]

theorem State.reseed_guarded (s : State) (b : BayNo) (k : Fin 24) (locks : Bool) : (s.reseed b k locks).guarded = s.guarded := by
  simp only [State.reseed, ↓guarded_ite, ite_self, ↓State.modLane_guarded, ↓State.accrue_guarded]

theorem execLaneClear_guarded (b : BayNo) (k : Fin 24) (s : State) : Out.guarded (execLaneClear b k s) = some s.guarded := by
  simp only [execLaneClear, ↓out_guarded_ite, ↓out_guarded_next, ite_self, ↓State.modLane_guarded, ↓State.fencedAccess_guarded]

theorem State.modDir_guarded (s : State) (b : BayNo) (k : Fin 24) (tx : Bool) (f : LaneDir → LaneDir) :
    (s.modDir b k tx f).guarded = s.guarded := by
  simp only [State.modDir, ↓State.modLane_guarded]

theorem State.hostSleep_guarded (s : State) (b : BayNo) (k : Fin 24) (tx : Bool) (f : LaneDir → LaneDir) :
    (s.hostSleep b k tx f).guarded = s.guarded := by
  simp only [State.hostSleep, ↓guarded_ite, ite_self, ↓State.accrue_guarded, ↓State.modDir_guarded]

theorem execLaneRxSleep_guarded (b : BayNo) (k : Fin 24) (s : State) : Out.guarded (execLaneRxSleep b k s) = some s.guarded := by
  simp only [execLaneRxSleep, ↓out_guarded_next, ↓State.hostSleep_guarded]

theorem execLaneRxWake_guarded (b : BayNo) (k : Fin 24) (s : State) : Out.guarded (execLaneRxWake b k s) = some s.guarded := by
  simp only [execLaneRxWake, ↓out_guarded_next, ↓State.hostSleep_guarded]

theorem execLaneTxSleep_guarded (b : BayNo) (k : Fin 24) (s : State) : Out.guarded (execLaneTxSleep b k s) = some s.guarded := by
  simp only [execLaneTxSleep, ↓out_guarded_next, ↓State.hostSleep_guarded]

theorem execLaneTxWake_guarded (b : BayNo) (k : Fin 24) (s : State) : Out.guarded (execLaneTxWake b k s) = some s.guarded := by
  simp only [execLaneTxWake, ↓out_guarded_next, ↓State.hostSleep_guarded]

theorem State.laneCtrl_guarded (s : State) (b : BayNo) (k : Fin 24) (v : Word) : (s.laneCtrl b k v).guarded = s.guarded := by
  unfold State.laneCtrl
  extract_lets s1 s2 s3 s4 s5 x
  have h1 : s1.guarded = s.guarded := by
    simp only [s1]; split
    · exact afterOf_guarded (execLaneClear_guarded ..) rfl
    · rfl
  have h2 : s2.guarded = s.guarded := by
    simp only [s2]; split
    · exact afterOf_guarded ((execLaneTxSleep_guarded ..).trans (congrArg some h1)) h1
    · exact h1
  have h3 : s3.guarded = s.guarded := by
    simp only [s3]; split
    · exact afterOf_guarded ((execLaneTxWake_guarded ..).trans (congrArg some h2)) h2
    · exact h2
  have h4 : s4.guarded = s.guarded := by
    simp only [s4]; split
    · exact afterOf_guarded ((execLaneRxSleep_guarded ..).trans (congrArg some h3)) h3
    · exact h3
  have h5 : s5.guarded = s.guarded := by
    simp only [s5]; split
    · exact afterOf_guarded ((execLaneRxWake_guarded ..).trans (congrArg some h4)) h4
    · exact h4
  split
  · exact (State.reseed_guarded ..).trans ((State.takeFree_guarded ..).trans h5)
  · exact h5

theorem State.modLnlPkg_guarded (s : State) (f : LnlPkg → LnlPkg) : (s.modLnlPkg f).guarded = s.guarded := (rfl)

theorem State.modExt_guarded (s : State) (n : Fin 2) (f : ExtLink → ExtLink) : (s.modExt n f).guarded = s.guarded := by
  simp only [State.modExt, ↓State.modLnlPkg_guarded]

theorem State.changeWidth_guarded (s : State) (n : Fin 2) : (s.changeWidth n).guarded = s.guarded := by
  simp only [State.changeWidth, ↓State.event_guarded, ↓State.modExt_guarded]

theorem State.askSync_guarded (s : State) (b : BayNo) (p : Port) : (s.askSync b p).guarded = s.guarded :=
  State.modBay_guarded _ _ _ fun _ => rfl

theorem State.modPort_guarded (s : State) (b : BayNo) (p : Port) (f : DdcPort → DdcPort) : (s.modPort b p f).guarded = s.guarded :=
  State.modBay_guarded _ _ _ fun _ => rfl

theorem State.lossRun_guarded (s : State) (b : BayNo) (p : Port) (tL : Stamp) : (s.lossRun b p tL).guarded = s.guarded := by
  simp only [State.lossRun, ↓guarded_ite, ite_self, ↓State.modPort_guarded]

theorem State.abandon_guarded (s : State) (b : BayNo) (u : Fin 8) : (s.abandon b u).guarded = s.guarded := by
  simp only [State.abandon]
  repeat' split
  all_goals simp only [↓State.event_guarded, ↓State.modUnit_guarded]

theorem State.cutCapture_guarded (s : State) (b : BayNo) (u : Fin 8) (e : Nat) : (s.cutCapture b u e).guarded = s.guarded := by
  simp only [State.cutCapture, ↓State.modUnit_guarded]

theorem State.breakIq_guarded (s : State) (b : BayNo) (p : Port) (n : Nat) (gap : Bool) : (s.breakIq b p n gap).guarded = s.guarded := by
  simp only [State.breakIq, ↓State.modPort_guarded]

theorem State.endLine_guarded (s : State) (b : BayNo) (p : Port) (t : Stamp) : (s.endLine b p t).guarded = s.guarded := by
  simp only [State.endLine, ↓guarded_ite, ite_self, ↓State.modPort_guarded, ↓State.breakIq_guarded]

theorem State.modDen_guarded (s : State) (b : BayNo) (x : Fin 2) (f : DenChan → DenChan) : (s.modDen b x f).guarded = s.guarded :=
  State.modBay_guarded _ _ _ fun _ => rfl

theorem State.modTrace_guarded (s : State) (b : BayNo) (t : Fin 16) (f : Trace → Trace) : (s.modTrace b t f).guarded = s.guarded :=
  State.modBay_guarded _ _ _ fun _ => rfl

theorem State.markGap_guarded (s : State) (b : BayNo) (x : Fin 2) (t : Stamp) : (s.markGap b x t).guarded = s.guarded := by
  simp only [State.markGap, ↓guarded_ite, ↓foldl_guarded, ite_self, implies_true, ↓State.modTrace_guarded, ↓State.modDen_guarded]

theorem State.openChanGap_guarded (s : State) (b : BayNo) (x : Fin 2) (reason : GapReason) (t : Stamp) :
    (s.openChanGap b x reason t).guarded = s.guarded := by
  simp only [State.openChanGap, ↓guarded_ite, ↓foldl_guarded, ite_self, implies_true, ↓State.enqueue_guarded, ↓State.modChan_guarded,
    ↓State.abandon_guarded, ↓State.markGap_guarded]

theorem State.openStreamGap_guarded (s : State) (b : BayNo) (p : Port) (reason : GapReason) (t : Stamp) :
    (s.openStreamGap b p reason t).guarded = s.guarded := by
  simp only [State.openStreamGap, ↓guarded_ite, ite_self, ↓State.enqueue_guarded, ↓State.modPort_guarded]

theorem State.stopPort_guarded (s : State) (b : BayNo) (p : Port) (reason : GapReason) (t : Stamp) :
    (s.stopPort b p reason t).guarded = s.guarded := by
  simp only [State.stopPort, ↓guarded_ite, ↓foldl_guarded, ite_self, implies_true, ↓State.modPort_guarded, ↓State.abandon_guarded,
    ↓State.cutCapture_guarded, ↓State.openChanGap_guarded, ↓State.openStreamGap_guarded, ↓State.endLine_guarded]

theorem State.stopStream_guarded (s : State) (b : BayNo) (p : Port) (tL : Stamp) (cause : Nat) (replay : Bool) :
    (s.stopStream b p tL cause replay).guarded = s.guarded := by
  simp only [State.stopStream, ↓guarded_ite, ite_self, ↓State.modPort_guarded, ↓State.stopPort_guarded, ↓State.event_guarded,
    ↓State.lossRun_guarded, ↓State.askSync_guarded]

theorem State.lostLane_guarded (s : State) (b : BayNo) (k : Fin 24) : (s.lostLane b k).guarded = s.guarded := by
  simp only [State.lostLane]
  repeat' split
  all_goals simp only [↓State.stopStream_guarded, ↓State.modExt_guarded, ↓State.changeWidth_guarded]

theorem State.takeLane_guarded (s : State) (b : BayNo) (k : Fin 24) : (s.takeLane b k).guarded = s.guarded := by
  simp only [State.takeLane, ↓guarded_ite, ite_self, ↓State.modLane_guarded, ↓State.accrue_guarded, ↓State.event_guarded]

theorem State.tellPattern_guarded (s : State) (b : BayNo) (k : Fin 24) (old : State) : (s.tellPattern b k old).guarded = s.guarded := by
  simp only [State.tellPattern, ↓guarded_ite, ite_self, ↓State.emit_guarded]

theorem State.setTest_guarded (s : State) (b : BayNo) (k : Fin 24) (v : BitVec 10) : (s.setTest b k v).1.guarded = s.guarded := by
  unfold State.setTest
  extract_lets w s1
  have h : s1.guarded = s.guarded := (State.modLane_guarded ..).trans (State.accrue_guarded ..)
  clear_value s1
  split
  · rfl
  · simp only [↓State.tellPattern_guarded, ↓State.modLane_guarded, ↓State.lostLane_guarded, ↓State.takeLane_guarded, h]

theorem execErrInject_guarded (b : BayNo) (k : Fin 24) (s : State) : Out.guarded (execErrInject b k s) = some s.guarded := by
  simp only [execErrInject, ↓out_guarded_ite, ↓out_guarded_next, ite_self, ↓State.emit_guarded]

theorem State.laneTest_guarded (s : State) (b : BayNo) (k : Fin 24) (v : Word) : (s.laneTest b k v).guarded = s.guarded := by
  unfold State.laneTest
  extract_lets x y s2
  have h0 : x.2.guarded = s.guarded := State.takeFree_guarded ..
  clear_value x
  have h : y.1.guarded = s.guarded := (State.setTest_guarded ..).trans h0
  clear_value y
  have h2 : s2.guarded = s.guarded := by
    simp only [s2]
    split
    · exact (State.reseed_guarded ..).trans h
    · exact h
  clear_value s2
  split
  · exact afterOf_guarded ((execErrInject_guarded b k s2).trans (congrArg some h2)) h2
  · exact h2

/-! ### Power, auxiliary DACs and the commands of single registers -/

theorem State.modPwr_guarded (s : State) (f : PwrPkg → PwrPkg) : (s.modPwr f).guarded = s.guarded := (rfl)

theorem State.refusePwr_guarded (s : State) (cause : Nat) : (s.refusePwr cause).guarded = s.guarded := by
  simp only [State.refusePwr, ↓State.modPwr_guarded, ↓State.event_guarded]

theorem State.requestPwr_guarded (s : State) (watch : Bool) : (s.requestPwr watch).guarded = s.guarded := by
  simp only [State.requestPwr]
  repeat' split
  all_goals simp only [↓State.modPwr_guarded, ↓State.emit_guarded, ↓State.refusePwr_guarded]

theorem State.pwrCtrlWrite_guarded {p : Path} (hp : p ≠ .service) (s : State) (v : Word) : (s.pwrCtrlWrite v p).guarded = s.guarded := by
  unfold State.pwrCtrlWrite
  split
  · exact State.requestPwr_guarded ..
  · exact State.requestPwr_guarded ..
  · rw [if_neg hp]
  · rfl

theorem State.modAux_guarded (s : State) (b : BayNo) (f : AuxBay → AuxBay) : (s.modAux b f).guarded = s.guarded :=
  State.modBay_guarded _ _ _ fun _ => rfl

theorem State.auxComply_guarded (s : State) (b : BayNo) : (s.auxComply b).guarded = s.guarded := by
  simp only [State.auxComply, ↓State.modAux_guarded]

theorem State.setAuxCode_guarded (s : State) (b : BayNo) (n : Fin 4) (v : BitVec 16) : (s.setAuxCode b n v).guarded = s.guarded := by
  simp only [State.setAuxCode, ↓State.modAux_guarded, ↓State.auxComply_guarded]

theorem State.modClk_guarded (s : State) (b : BayNo) (f : ClkBay → ClkBay) : (s.modClk b f).guarded = s.guarded :=
  State.modBay_guarded _ _ _ fun _ => rfl

theorem execClkSysrefFire_guarded (b : BayNo) (s : State) : Out.guarded (execClkSysrefFire b s) = some s.guarded := by
  simp only [execClkSysrefFire, ↓out_guarded_ite, ↓out_guarded_next, ite_self, ↓State.modClk_guarded]

theorem execDenClear_guarded (b : BayNo) (mask : BitVec 2) (s : State) : Out.guarded (execDenClear b mask s) = some s.guarded := by
  simp only [execDenClear, ↓guarded_ite, ↓out_guarded_ite, ↓out_guarded_next, ↓foldl_guarded, ite_self, implies_true, ↓State.modDen_guarded,
    ↓State.fencedAccess_guarded]

theorem execMaskBump_guarded (b : BayNo) (m : Fin 8) (gen : BitVec 16) (s : State) :
    Out.guarded (execMaskBump b m gen s) = some s.guarded := by
  unfold execMaskBump
  extract_lets s1 e
  have h1 : s1.guarded = s.guarded := State.modBay_guarded _ _ _ fun _ => rfl
  clear_value s1
  split
  · rfl
  · exact next_guarded ((foldl_guarded _ (fun _ _ => State.modUnit_guarded ..) _ _).trans h1)

theorem execMcMboxInWrite_guarded (b : BayNo) (c : CoreNo) (v : Word) (s : State) :
    Out.guarded (execMcMboxInWrite b c v s) = some s.guarded := by
  simp only [execMcMboxInWrite, ↓out_guarded_ite, ↓out_guarded_next, ite_self, ↓State.discarded_guarded, ↓State.modCore_guarded,
    ↓State.raiseLine_guarded, ↓State.fencedAccess_guarded]

theorem State.modMon_guarded (s : State) (b : BayNo) (m : Fin 16) (f : MonUnit → MonUnit) : (s.modMon b m f).guarded = s.guarded :=
  State.modBay_guarded _ _ _ fun _ => rfl

theorem State.monStart_guarded (s : State) (b : BayNo) (m : Fin 16) (t : Stamp) : (s.monStart b m t).guarded = s.guarded := by
  simp only [State.monStart, ↓State.modMon_guarded]

theorem State.monEmit_guarded (s : State) (b : BayNo) (m : Fin 16) (sub : Nat) (t : Stamp) :
    (s.monEmit b m sub t).guarded = s.guarded := by
  simp only [State.monEmit, ↓guarded_ite, ite_self, ↓State.enqueue_guarded, ↓State.modMon_guarded, ↓State.monStart_guarded]

theorem execMonSnap_guarded (b : BayNo) (mask : BitVec 16) (s : State) : Out.guarded (execMonSnap b mask s) = some s.guarded := by
  simp only [execMonSnap, ↓guarded_ite, ↓out_guarded_ite, ↓out_guarded_next, ↓foldl_guarded, ite_self, implies_true, ↓State.monEmit_guarded]

theorem execQueFlush_guarded (b : BayNo) (mask : BitVec 16) (s : State) : Out.guarded (execQueFlush b mask s) = some s.guarded := by
  simp only [execQueFlush, ↓guarded_ite, ↓out_guarded_ite, ↓out_guarded_next, ↓foldl_guarded, ite_self, implies_true,
    ↓State.fencedAccess_guarded, ↓State.flushQueue_guarded]

theorem execRecFreezeReleaseAll_guarded (b : BayNo) (s : State) : Out.guarded (execRecFreezeReleaseAll b s) = some s.guarded := by
  simp only [execRecFreezeReleaseAll, ↓out_guarded_ite, ↓out_guarded_next, ite_self, ↓State.modRec_guarded, ↓State.fencedAccess_guarded]

theorem execRecFreezeReleaseOne_guarded (b : BayNo) (i : Fin 64) (s : State) :
    Out.guarded (execRecFreezeReleaseOne b i s) = some s.guarded := by
  simp only [execRecFreezeReleaseOne, ↓out_guarded_ite, ↓out_guarded_next, ite_self, ↓State.modRec_guarded, ↓State.fencedAccess_guarded]

theorem execScnCommitWrite_guarded (b : BayNo) (v : Bool) (s : State) : Out.guarded (execScnCommitWrite b v s) = some s.guarded := by
  simp only [execScnCommitWrite, ↓out_guarded_ite, ↓out_guarded_next, ite_self, ↓State.modScn_guarded, ↓State.fencedAccess_guarded]

theorem execSpllLolClear_guarded (b : BayNo) (s : State) : Out.guarded (execSpllLolClear b s) = some s.guarded := by
  simp only [execSpllLolClear, ↓out_guarded_ite, ↓out_guarded_next, ite_self, ↓State.modClk_guarded]

theorem State.sendRequest_guarded (s : State) (f : Fire) : (s.sendRequest f).guarded = s.guarded := by
  simp only [State.sendRequest, ↓guarded_ite, ite_self, ↓State.modTrg_guarded, ↓State.emit_guarded]

theorem execTrgForce_guarded (b : BayNo) (mask : BitVec 8) (s : State) : Out.guarded (execTrgForce b mask s) = some s.guarded := by
  simp only [execTrgForce, ↓guarded_ite, ↓out_guarded_ite, ↓out_guarded_next, ↓foldl_guarded, ite_self, implies_true,
    ↓State.modUnit_guarded, ↓State.fencedAccess_guarded, ↓State.trigger_guarded, ↓State.sendRequest_guarded]

/-! ### A write of a word -/

theorem State.blockWrite_guarded {p : Path} (hp : p ≠ .service) (s : State) (b : BayNo) (off : Nat) (v : Word) :
    guardedOr s.guarded (s.blockWrite b off v p) = s.guarded := by
  unfold State.blockWrite
  extract_lets o
  split
  · split
    · rfl
    · split <;> rfl
  · split
    · refine (guardedOr_some ..).trans ?_
      split
      · exact afterOf_guarded (execSpllLolClear_guarded ..) rfl
      · rfl
    · split
      · refine (guardedOr_some ..).trans ?_
        split
        · exact afterOf_guarded (execClkSysrefFire_guarded ..) rfl
        · rfl
      · rfl
  · split
    · refine (guardedOr_some ..).trans ?_
      split
      · exact State.issueReset_guarded ..
      · rfl
    · rfl
  · split
    · exact afterOf_guarded (execTrgForce_guarded ..) rfl
    · split
      · exact afterOf_guarded (execMaskBump_guarded ..) rfl
      · rfl
  · split
    · exact afterOf_guarded (execDenClear_guarded ..) rfl
    · rfl
  · split
    · exact afterOf_guarded (execScnCommitWrite_guarded ..) rfl
    · exact State.scnWrite_guarded ..
  · split
    · exact State.modBay_guarded _ _ _ fun _ => rfl
    · split
      · rfl
      · split
        · split
          · exact State.coreCtrl_guarded ..
          · rfl
        · split
          · exact afterOf_guarded (execMcMboxInWrite_guarded ..) rfl
          · rfl
  · split
    · exact afterOf_guarded (execQueFlush_guarded ..) rfl
    · split
      · exact State.modBay_guarded _ _ _ fun _ => rfl
      · rfl
  · exact State.dmaWrite_guarded ..
  · split
    · rfl
    · split
      · exact afterOf_guarded (execRecFreezeReleaseAll_guarded ..) rfl
      · exact afterOf_guarded (execRecFreezeReleaseOne_guarded ..) rfl
  · split
    · extract_lets k
      split
      · exact State.laneCtrl_guarded ..
      · split
        · exact State.laneTest_guarded ..
        · rfl
    · rfl
  · split
    · exact State.setAuxCode_guarded ..
    · rfl
  · split
    · rfl
    · split
      · exact State.pwrCtrlWrite_guarded hp ..
      · split
        · exact State.modPwr_guarded ..
        · rfl
  · split
    · exact afterOf_guarded (execMonSnap_guarded ..) rfl
    · rfl
  · split
    · refine (guardedOr_some ..).trans ?_
      split
      · exact State.killInjectors_guarded ..
      · rfl
    · rfl
  · split
    · exact State.imgWrite_guarded ..
    · rfl
  · rfl

theorem State.sealWrite_guarded {p : Path} (hp : p ≠ .service) (s : State) (o : Nat) (v : Word) :
    guardedOr s.guarded (s.sealWrite o v p) = s.guarded := by
  unfold State.sealWrite
  extract_lets box
  split
  · rfl
  · rfl

theorem State.slotWrite_guarded {p : Path} (hp : p ≠ .service) (s : State) (b : BayNo) (off : Nat) (v : Word) :
    guardedOr s.guarded (s.slotWrite b off v p) = s.guarded := by
  unfold State.slotWrite
  split
  · split
    · exact State.sealWrite_guarded hp ..
    · rfl
  · exact State.blockWrite_guarded hp ..

theorem State.writeMask_guarded (s : State) (b : BayNo) (e : Nat) (v : Word) : (s.writeMask b e v).guarded = s.guarded := by
  unfold State.writeMask
  refine (foldl_guarded _ (fun s m => ?_) _ _).trans (State.modBay_guarded _ _ _ (fun _ => rfl))
  split
  · exact (foldl_guarded _ (fun _ _ => State.modUnit_guarded ..) _ _).trans (State.modBay_guarded _ _ _ (fun _ => rfl))
  · rfl

theorem State.tryWrite_guarded {p : Path} (hp : p ≠ .service) (s : State) (b : BayNo) (off : Nat) (v : Word) (en : BitVec 4) :
    guardedOr s.guarded (s.tryWrite b off v en p) = s.guarded := by
  unfold State.tryWrite
  extract_lets o
  split
  · rfl
  · split
    · rfl
    · split
      · exact foldl_guarded _ (fun _ _ => State.capturePut_guarded ..) _ _
      · split
        · exact State.writeMask_guarded ..
        · split
          · exact State.scnWrite_guarded ..
          · split
            · exact State.coreAperture_guarded ..
            · split
              · rfl
              · exact State.slotWrite_guarded hp ..

theorem State.writeWord_guarded {p : Path} (hp : p ≠ .service) (s : State) (a : Nat) (v : Word) (en : BitVec 4) :
    (s.writeWord a v en p).2.guarded = s.guarded := by
  unfold State.writeWord
  split
  · rfl
  · split
    · rfl
    · split
      · split
        · exact State.asleepAccess_guarded ..
        · rfl
      · split
        · next e => exact guarded_of_some (State.tryWrite_guarded hp ..) e
        · exact State.discarded_guarded ..

theorem execRegisterWrite_guarded (a v : Word) (en : BitVec 4) (s : State) : Out.guarded (execRegisterWrite a v en s) = some s.guarded := by
  unfold execRegisterWrite
  split
  · rfl
  · exact next_guarded (State.writeWord_guarded (by decide) ..)

theorem State.modDrive_guarded (s : State) (b : BayNo) (d : Fin 8) (f : Drive → Drive) : (s.modDrive b d f).guarded = s.guarded := by
  simp only [State.modDrive, ↓State.modRec_guarded]

/-! ### A read of a word -/

theorem execClkFaultCntRead_guarded (b : BayNo) (s : State) : Out.guarded (execClkFaultCntRead b s) = some s.guarded := by
  simp only [execClkFaultCntRead, ↓out_guarded_ite, ↓out_guarded_next, ite_self, ↓State.modClk_guarded]

theorem State.modFaults_guarded (s : State) (f : FaultLog → FaultLog) : (s.modFaults f).guarded = s.guarded := (rfl)

theorem execFaultLongestRead_guarded (s : State) : Out.guarded (execFaultLongestRead s) = some s.guarded := by
  simp only [execFaultLongestRead, ↓out_guarded_ite, ↓out_guarded_next, ite_self, ↓State.modFaults_guarded]

theorem execImgEvtLostRead_guarded (s : State) : Out.guarded (execImgEvtLostRead s) = some s.guarded := by
  simp only [execImgEvtLostRead, ↓out_guarded_ite, ↓out_guarded_next, ite_self, ↓State.modImg_guarded]

theorem execLaneErrRead_guarded (b : BayNo) (k : Fin 24) (errs losses : Nat) (s : State) :
    Out.guarded (execLaneErrRead b k errs losses s) = some s.guarded := by
  simp only [execLaneErrRead, ↓out_guarded_ite, ↓out_guarded_next, ite_self, ↓State.modLane_guarded, ↓State.accrue_guarded,
    ↓State.fencedAccess_guarded]

theorem execMcMboxOutRead_guarded (b : BayNo) (c : CoreNo) (s : State) : Out.guarded (execMcMboxOutRead b c s) = some s.guarded := by
  simp only [execMcMboxOutRead, ↓out_guarded_ite, ↓out_guarded_next, ite_self, ↓State.modCore_guarded, ↓State.fencedAccess_guarded]

theorem execQueReservePeakRead_guarded (b : BayNo) (s : State) : Out.guarded (execQueReservePeakRead b s) = some s.guarded := by
  unfold execQueReservePeakRead
  split
  · exact next_guarded (State.fencedAccess_guarded ..)
  · exact next_guarded (State.modBay_guarded _ _ _ fun _ => rfl)

theorem State.modTbs_guarded (s : State) (b : BayNo) (f : TbsBay → TbsBay) : (s.modTbs b f).guarded = s.guarded :=
  State.modBay_guarded _ _ _ fun _ => rfl

theorem execTbsEdgeLostRead_guarded (b : BayNo) (s : State) : Out.guarded (execTbsEdgeLostRead b s) = some s.guarded := by
  simp only [execTbsEdgeLostRead, ↓out_guarded_ite, ↓out_guarded_next, ite_self, ↓State.modTbs_guarded]

theorem execTbsNowRead_guarded (b : BayNo) (s : State) : Out.guarded (execTbsNowRead b s) = some s.guarded := by
  simp only [execTbsNowRead, ↓out_guarded_ite, ↓out_guarded_next, ite_self, ↓State.modTbs_guarded]

theorem execWatchPeakRead_guarded (b : BayNo) (s : State) : Out.guarded (execWatchPeakRead b s) = some s.guarded := by
  simp only [execWatchPeakRead, ↓out_guarded_ite, ↓out_guarded_next, ite_self, ↓State.modDom_guarded]

theorem State.readEffect_guarded (s : State) (b : BayNo) (off : Nat) : (s.readEffect b off).guarded = s.guarded := by
  unfold State.readEffect
  extract_lets o
  split
  · split
    · exact afterOf_guarded (execClkFaultCntRead_guarded ..) rfl
    · rfl
  · split
    · exact afterOf_guarded (execTbsNowRead_guarded ..) rfl
    · split
      · exact afterOf_guarded (execTbsEdgeLostRead_guarded ..) rfl
      · rfl
  · split
    · exact afterOf_guarded (execMcMboxOutRead_guarded ..) rfl
    · rfl
  · split
    · exact afterOf_guarded (execQueReservePeakRead_guarded ..) rfl
    · rfl
  · split
    · exact State.modDrive_guarded ..
    · rfl
  · split
    · exact afterOf_guarded (execLaneErrRead_guarded ..) rfl
    · rfl
  · split
    · exact afterOf_guarded (execWatchPeakRead_guarded ..) rfl
    · rfl
  · split
    · exact afterOf_guarded (execFaultLongestRead_guarded ..) rfl
    · rfl
  · split
    · exact afterOf_guarded (execImgEvtLostRead_guarded ..) rfl
    · rfl
  · rfl

theorem State.writeMap_guarded (s : State) (a : Nat) (bs : List Byte) (n : Nat) : guardedOr s.guarded (s.writeMap a bs n) = s.guarded := by
  induction n generalizing s a bs with
  | zero => rfl
  | succ n ih =>
    unfold State.writeMap
    split
    · rfl
    · extract_lets a' refused o now en
      split
      · rfl
      · have h := State.writeWord_guarded (p := .dma) (by decide) s (a' / 4 * 4) (wd (leNat now * 256 ^ o)) en
        exact h ▸ ih ..

theorem State.writeElem_guarded (s : State) (b : BayNo) (c : Fin 32) (space a : Nat) (bs : List Byte) :
    guardedOr s.guarded (s.writeElem b c space a bs) = s.guarded := by
  unfold State.writeElem
  split
  · exact State.emit_guarded ..
  · exact State.capturePut_guarded ..
  · split
    split
    · rfl
    · exact State.modCore_guarded ..
  · exact State.writeMap_guarded ..

theorem State.drainHolding_guarded (s : State) (b : BayNo) (c : Fin 32) (a w : Nat) (fixed : Bool) (n : Nat) :
    (s.drainHolding b c a w fixed n).2.guarded = s.guarded := by
  induction n generalizing s a with
  | zero => rfl
  | succ n ih =>
    unfold State.drainHolding
    extract_lets bs
    split
    · rfl
    · next e => exact (ih ..).trans ((State.modDma_guarded ..).trans (guarded_of_some (State.writeElem_guarded ..) e))

theorem State.captureByte_guarded (s : State) (b : BayNo) (a : Nat) : (s.captureByte b a).2.guarded = s.guarded := by
  unfold State.captureByte
  split <;> rfl

theorem State.captureBytes_guarded (s : State) (b : BayNo) (a : Nat) (n : Nat) : (s.captureBytes b a n).2.guarded = s.guarded := by
  induction n generalizing s a with
  | zero => rfl
  | succ n ih => exact (ih _ _).trans (State.captureByte_guarded ..)

theorem State.readFenced_guarded (s : State) (b : BayNo) (d : Domain) (p : Path) : (s.readFenced b d p).2.guarded = s.guarded := by
  unfold State.readFenced
  simp only [↓guarded_ite, ↓State.asleepAccess_guarded, ite_self]

theorem State.readCapture_guarded (s : State) (b : BayNo) (off : Nat) : (s.readCapture b off).2.guarded = s.guarded := by
  unfold State.readCapture
  generalize 4 = n
  exact State.captureBytes_guarded ..

theorem State.readReg_guarded (s : State) (b : BayNo) (off : Nat) (p : Path) : (s.readReg b off p).2.guarded = s.guarded :=
  State.readEffect_guarded ..

theorem State.readOpen_guarded (s : State) (b : BayNo) (off : Nat) (p : Path) : (s.readOpen b off p).2.guarded = s.guarded := by
  unfold State.readOpen
  split
  · rfl
  · split
    · exact State.readCapture_guarded ..
    · exact State.readReg_guarded ..

theorem State.readAt_guarded (s : State) (b : BayNo) (off : Nat) (p : Path) : (s.readAt b off p).2.guarded = s.guarded := by
  unfold State.readAt
  simp only [↓snd_ite, ↓guarded_ite]
  split
  · rfl
  · split
    · rfl
    · split
      · exact State.readFenced_guarded ..
      · exact State.readOpen_guarded ..

theorem State.readWord_guarded (s : State) (a : Nat) (p : Path) : (s.readWord a p).2.guarded = s.guarded := by
  unfold State.readWord
  split
  · rfl
  · exact State.readAt_guarded ..

theorem State.readMap_guarded (s : State) (a : Nat) (n : Nat) : (s.readMap a n).2.guarded = s.guarded := by
  induction n generalizing s a with
  | zero => rfl
  | succ n ih =>
    unfold State.readMap
    extract_lets a' refused w r
    have hr : r.2.guarded = s.guarded := (ih ..).trans (State.readWord_guarded ..)
    clear_value r
    split
    · rfl
    · exact hr

theorem State.readElem_guarded (s : State) (b : BayNo) (space a w : Nat) (host : List Byte) :
    (s.readElem b space a w host).2.guarded = s.guarded := by
  unfold State.readElem
  split
  · rfl
  · exact State.captureBytes_guarded ..
  · split
    split <;> rfl
  · exact State.readMap_guarded ..

theorem State.fillHolding_guarded (s : State) (b : BayNo) (c : Fin 32) (a w : Nat) (fixed : Bool) (host : List Byte) (n : Nat) :
    (s.fillHolding b c a w fixed host n).2.guarded = s.guarded := by
  induction n generalizing s a host with
  | zero => rfl
  | succ n ih =>
    unfold State.fillHolding
    extract_lets r
    have hr : r.2.guarded = s.guarded := State.readElem_guarded ..
    clear_value r
    split
    · exact hr
    · exact (ih ..).trans ((State.modDma_guarded ..).trans hr)

theorem State.moveChunks_guarded (s : State) (b : BayNo) (c : Fin 32) (last : Nat) (host : List Byte) (n : Nat) :
    (s.moveChunks b c last host n).2.guarded = s.guarded := by
  induction n generalizing s host with
  | zero => rfl
  | succ n ih =>
    unfold State.moveChunks
    extract_lets x m ws wt fs fd src dst need f d
    have hf : f.2.guarded = s.guarded := State.fillHolding_guarded ..
    have hd : d.2.guarded = s.guarded := (State.drainHolding_guarded ..).trans hf
    clear_value d f
    split
    · rfl
    · split
      · exact hf
      · split
        · exact hd
        · exact (ih ..).trans hd

/-! ### A burst -/

/-- While a grid runs, time that passes clears no mark (R154). -/
theorem State.quietTime_running {s : State} (h : s.tbs.grid.running = true) (d : Nat) : s.quietTime d = s := if_pos h

theorem Bay.advance_guarded (y : Bay) (d : Nat) (slew : Int) : (y.advance d slew).guarded = y.guarded := by
  rw [Bay.advance]
  split <;> rfl

theorem State.passTime_guarded {s : State} (h : s.tbs.grid.running = true) (d : Nat) : (s.passTime d).guarded = s.guarded := by
  refine (congrArg State.guarded (State.quietTime_running
    (s := { s with bays := s.bays.map fun x => x.advance (d * 2 ^ 32) s.slewMax }) h d)).trans ?_
  simp only [State.guarded, Vector.map_map, Function.comp_def, Bay.advance_guarded]

theorem State.reach_guarded {s : State} (h : s.tbs.grid.running = true) (t : Stamp) : (s.reach t).guarded = s.guarded := by
  rw [State.reach]
  split
  · exact State.passTime_guarded h _
  · rfl

theorem State.ringPut_guarded (s : State) (b : BayNo) (n : Fin 32) (off : Nat) (bs : List Byte) :
    (s.ringPut b n off bs).guarded = s.guarded := by
  simp only [State.ringPut, ↓guarded_ite, ite_self, ↓State.emit_guarded]

theorem execDmaBurst_guarded {s0 : State} (hrun : s0.tbs.grid.running = true) (b : BayNo) (n : Fin 32) (data : List Byte) :
    Out.guarded (execDmaBurst b n data s0) = some s0.guarded := by
  unfold execDmaBurst
  extract_lets from_ t s c total k s1 m
  have hs : s.guarded = s0.guarded := State.reach_guarded hrun _
  clear_value s
  have h1 : s1.guarded = s0.guarded := by
    refine (State.modBay_guarded _ _ _ ?_).trans ((State.modDma_guarded ..).trans hs)
    exact fun _ => rfl
  clear_value s1
  split
  · rfl
  · split
    · exact next_guarded (State.modDma_guarded ..)
    · split
      · rfl
      · split
        · split
          · exact next_guarded hs
          · next r _ =>
            refine next_guarded ((State.modDma_guarded ..).trans ?_)
            split
            · exact (State.ringPut_guarded ..).trans h1
            · split
              · exact h1
              · exact (State.sendPackets_guarded s1 _ r _ _ _ _).trans h1
            · exact h1
        · have hm : m.2.guarded = s0.guarded := (State.moveChunks_guarded ..).trans h1
          clear_value m
          split
          · exact next_guarded hm
          · exact next_guarded ((State.dmaError_guarded ..).trans hm)

/-! ### The two commands -/

/-- A command that leaves the guarded blocks leaves each of them in each bay. -/
theorem guarded_parts {o : Out} {s t : State} (h : Out.guarded o = some s.guarded) (ht : o = .next t) (b : BayNo) :
    (t.bay b).afe = (s.bay b).afe ∧ (t.bay b).adc = (s.bay b).adc ∧ (t.bay b).hkc = (s.bay b).hkc ∧ (t.bay b).cal = (s.bay b).cal ∧
      t.vals = s.vals := by
  subst ht
  have hguarded : t.guarded = s.guarded := Option.some.inj h
  have hbay := State.guarded_bay hguarded b
  exact ⟨congrArg (·.1) hbay, congrArg (·.2.1) hbay, congrArg (·.2.2.1) hbay, congrArg (·.2.2.2) hbay, congrArg Prod.snd hguarded⟩

theorem registerWrite_leaves : Claims.OpenSideWrites.register_write_leaves := by
  intro a v en s t b ht
  have ht : execRegisterWrite a v en s = .next t := ht
  obtain ⟨hafe, hadc, hhkc, hcal, hvals⟩ := guarded_parts (execRegisterWrite_guarded a v en s) ht b
  have hview : Out.view { flash := true, fuses := true, faults := true } (execRegisterWrite a v en s) =
      some (s.view { flash := true, fuses := true, faults := true }) :=
    execRegisterWrite_view (by decide) a v en s
  rw [ht] at hview
  have hrest : t.view { flash := true, fuses := true, faults := true } = s.view { flash := true, fuses := true, faults := true } :=
    Option.some.inj hview
  exact ⟨hafe, hadc, hhkc, hcal, hvals, (congrArg (fun u : State => u.flash) hrest :), (congrArg (fun u : State => u.keeper.fuses) hrest :),
    (congrArg (fun u : State => u.faults) hrest :)⟩

theorem dmaBurst_leaves : Claims.OpenSideWrites.dma_burst_leaves := by
  intro b n data s t b' hrun ht
  have ht : execDmaBurst b n data s = .next t := ht
  obtain ⟨hafe, hadc, hhkc, hcal, hvals⟩ := guarded_parts (execDmaBurst_guarded hrun b n data) ht b'
  have hview : Out.view { flash := true, fuses := true } (execDmaBurst b n data s) = some (s.view { flash := true, fuses := true }) :=
    execDmaBurst_view (by decide) b n data s
  rw [ht] at hview
  have hrest : t.view { flash := true, fuses := true } = s.view { flash := true, fuses := true } := Option.some.inj hview
  exact ⟨hafe, hadc, hhkc, hcal, hvals, (congrArg (fun u : State => u.flash) hrest :), (congrArg (fun u : State => u.keeper.fuses) hrest :)⟩

end Sys2Proof.Machine

namespace Sys2Proof
open Sys2Proof.Machine

/-- Settles O7: each operation that a register write or a burst reaches leaves the guarded blocks; PWR_CTRL's wake, which does not, is the
service port's alone, and time that passes while a grid runs clears no mark. -/
theorem openSideWrites : Obligations.OpenSideWrites := ⟨registerWrite_leaves, dmaBurst_leaves⟩

end Sys2Proof
end
